-- ==== Sys2Proof/Word.lean ====
section
/-! DEFINITION. The plainest word types: bytes, 32-bit and 64-bit words. -/

namespace Sys2Proof

/-- One byte of any memory or payload. -/
abbrev Byte := BitVec 8

/-- A CSR word (R29). -/
abbrev Word32 := BitVec 32

/-- A 64-bit little-endian word (R71, R199, R274, R329). -/
abbrev Word64 := BitVec 64

end Sys2Proof
end

