-- ==== Sys2Proof/Syntax.lean ====
section
/-! DEFINITION. The commands of the block, one constructor per row of the command table, and the
plain data their operands are made of (packets, link frames, messages, readings). -/

namespace Sys2Proof

/-- Who makes a CSR access or a request (R31). A tenant or operator session is named by its session
number; Trimmer code by the saggar it runs for and the Trimmer. -/
inductive Who where
  /-- The management controller. -/
  | management
  /-- The control cores. -/
  | control
  /-- The operator host session with this session number. -/
  | operator (sid : Nat)
  /-- The tenant host session with this session number. -/
  | tenant (sid : Nat)
  /-- User code of a saggar on a Trimmer. -/
  | trimmerUser (saggar trimmer : Nat)
  /-- Machine firmware of a Trimmer that serves a saggar. -/
  | trimmerFw (saggar trimmer : Nat)
  /-- The board management controller on the I3C sideband. -/
  | bmc
  deriving DecidableEq, Repr

/-- A memory unit a fence can name (R193, R195, R220). -/
inductive MemUnit where
  /-- A tray DRAM channel, 0 to 15. -/
  | ddr (channel : Nat)
  /-- A whole HBM4 stack, 0 to 7. -/
  | hbm (stack : Nat)
  /-- One pseudo-channel of an HBM4 stack. -/
  | hbmPc (stack pc : Nat)
  deriving DecidableEq, Repr

/-- A unit a fence signal can reach (R20). -/
inductive FenceUnit where
  /-- A matrix array, flat number. -/
  | array (a : Nat)
  /-- A Trimmer, flat number. -/
  | trimmer (t : Nat)
  /-- A Pug unit. -/
  | pug (u : Nat)
  /-- A codec engine. -/
  | codec (e : Nat)
  /-- A Gather engine. -/
  | gather (e : Nat)
  /-- A Sieve engine. -/
  | sieve (e : Nat)
  /-- A fabric or edge port. -/
  | port (p : Nat)
  /-- A whole array die (R540, R541). -/
  | die (d : Nat)
  /-- A flash die (R229). -/
  | flashDie (d : Nat)
  /-- A memory channel, stack or pseudo-channel. -/
  | memory (m : MemUnit)
  /-- A coherent domain (R378). -/
  | domain (id : Nat)
  /-- A composition. -/
  | composition (id : Nat)
  deriving DecidableEq, Repr

/-- What goes wrong in an array while a token passes (R86, R87). -/
inductive Upset where
  | none
  /-- Parity or a duplicated unit reports a mismatch. -/
  | reported
  /-- The multiplier output of a column for one K position is off by an integer. -/
  | product (col k : Nat) (err : Int)
  /-- The frame adders leave a column's S off by an integer. -/
  | adder (col : Nat) (err : Int)
  deriving DecidableEq, Repr

/-- What goes wrong in the lanes of a Pug unit in one attempt at an update (R295): the sum or word it leaves for
one element of the packet is off by an integer. -/
structure LaneUpset where
  elem : Nat := 0
  err : Int := 0
  deriving DecidableEq, Repr

/-- A 64-bit window atomic of a Trimmer (R101). -/
inductive AmoOp where
  | add | min | max | swap
  deriving DecidableEq, Repr

/-- A fabric packet with the header fields of R329 and its payload. A train comes as its packets
(R342), or given reassembled as one packet whose `payload` is the whole train in `OFFSET` order. `rsv` holds the reserved header
bits, which shall be zero. `trailer` is the grain-check trailer of R344. -/
structure Packet where
  dst : Nat := 0
  src : Nat := 0
  epoch : Nat := 0
  opcode : Nat := 0
  saggar : Nat := 0
  vc : Bool := false
  cm : Bool := false
  offset : Nat := 0
  cls : Nat := 0
  length : Nat := 0
  last : Bool := true
  detour : Bool := false
  seq : Nat := 0
  tag : Nat := 0
  status : Nat := 0
  hint : Nat := 0
  cmb : Bool := false
  rty : Bool := false
  hops : Nat := 0
  lc : Nat := 0
  rsv : Nat := 0
  hchk : Word32 := 0
  payload : List Byte := []
  trailer : List Word32 := []
  deriving DecidableEq, Repr

/-- The header of a link frame (R417), with the outcome of its `FCRC` check. -/
structure LinkFrame where
  ftype : Nat := 1
  fseq : Nat := 0
  ack : Nat := 0
  ackV : Bool := false
  cls : Nat := 0
  vc : Bool := false
  sop : Bool := true
  eop : Bool := true
  abort : Bool := false
  body : Nat := 0
  srcNode : Nat := 0
  crSel0 : Nat := 0
  crTot0 : Nat := 0
  crSel1 : Nat := 0
  crTot1 : Nat := 0
  lc : Nat := 0
  digest : Nat := 0
  lop : Nat := 0
  lane : Nat := 0
  atFseq : Nat := 0
  rsv : Nat := 0
  fcrcOk : Bool := true
  deriving DecidableEq, Repr

/-- The body of an `EXCH` frame (R416), and the logical clock its header carries (R417). -/
structure ExchBody where
  lver : Nat := 1
  node : Nat := 0
  role : Nat := 1
  spareOk : Bool := false
  port : Nat := 0
  digest : Nat := 0
  lc : Nat := 0
  deriving DecidableEq, Repr

/-- What training and the SPD read of one DRAM channel found (R194, R195). -/
structure DramReport where
  trained : Bool := true
  spdMatches : Bool := true
  checkBits : Bool := true
  capGib : Nat := 0
  /-- Data rate in units of 100 MT/s, DIMMs per channel, MRDIMM. -/
  rate : Nat := 0
  dpc : Nat := 1
  mrdimm : Bool := false
  deriving DecidableEq, Repr

/-- What MD1 reads from one ONFI channel at initialisation (R221, R222): whether any target answers,
the fields that size the flash, and the first parameter-page offset that differs from channel 0,
target 0. -/
structure FlashParams where
  present : Bool := true
  targets : Nat := 0
  lunsPerTarget : Nat := 0
  blocksPerDie : Nat := 0
  pagesPerBlock : Nat := 0
  pageBytes : Nat := 16384
  spareBytes : Nat := 1024
  peRating : Nat := 0
  retryLevels : Nat := 0
  /-- Blocks marked bad at the factory: die within the channel, block. -/
  factoryBad : List (Nat × Nat) := []
  differsAt : Option Nat := none
  limitBrokenAt : Option Nat := none
  deriving DecidableEq, Repr

/-- A step due at its leader (R130): the composition, and in replay whether every member holds its supplied record
(R155). -/
structure OpenDue where
  comp : Nat := 0
  recordsHeld : Bool := true
  deriving DecidableEq, Repr

/-- What a page move meets (R223, R233): the grains that the media fail at each attempt to read the page, and
whether the copy reads back. -/
structure MoveRead where
  attempts : List (List Nat) := []
  verified : Bool := true
  deriving DecidableEq, Repr

/-- One poll of an optical module (R437): each monitor with its distance from the warning threshold
in 0.1 dB, and whether the module raises an alarm flag. -/
structure ModuleReading where
  port : Nat := 0
  monitor : Nat := 0
  value : Nat := 0
  margin : Nat := 0
  alarm : Bool := false
  deriving DecidableEq, Repr

/-- The payload of an `INIT` frame of the Jaesque link (R441). -/
structure InitBody where
  lver : Nat := 1
  role : Nat := 0
  node : Nat := 0xFFFF
  credits : List Nat := [4, 4, 4, 4]
  deriving DecidableEq, Repr

/-- A Jaesque frame header (R442) with the outcomes of its CRC and, for a protected frame, of its
tag (R449). `payload` holds the payload as it stands on the wire where `TNODE` names another chip, which a
relay passes on unread (R456); of a frame for this chip the command gives the message it carries. -/
structure JqFrame where
  ftype : Nat := 1
  mclass : Nat := 0
  prot : Bool := false
  sid : Nat := 0
  len : Nat := 0
  fseq : Nat := 0
  tnode : Nat := 0xFFFF
  ack : Nat := 0
  ackV : Bool := false
  crCsr : Nat := 0
  crBulk : Nat := 0
  crEvent : Nat := 0
  crRecord : Nat := 0
  rsv : Nat := 0
  crcOk : Bool := true
  tagOk : Bool := true
  payload : List Byte := []
  deriving DecidableEq, Repr

/-- The HELLO message of a session handshake (R448). -/
structure HelloMsg where
  nonce : List Byte := []
  role : Nat := 1
  keyDigest : List Byte := []
  mlkemKey : List Byte := []
  deriving DecidableEq, Repr

/-- A tap frame (R513); `crcOk` is the outcome of its `TCRC` check. -/
structure TapFrame where
  magic : Nat := 0x5054
  kind : Nat := 0
  saggar : Nat := 0
  qty : Nat := 0
  value : Nat := 0
  tseq : Nat := 0
  sdBoot : Nat := 0
  crcOk : Bool := true
  deriving DecidableEq, Repr

/-- A change item that SD forwards to WD (R519 to R522), with the key digests and signatures that cover
it. -/
inductive WitnessChange where
  /-- A staged `WITNESS` section: header bytes 0 to 63, directory and body of the image, and its signatures. -/
  | params (header dir body : List Byte) (signers : List (List Byte × List Byte))
  /-- A staged `PROTECTION` section, in the same form. -/
  | protection (header dir body : List Byte) (signers : List (List Byte × List Byte))
  /-- An applied `WITNESS_FW` change record. -/
  | firmwareApproval (record : List Byte) (signers : List (List Byte × List Byte))
  /-- An applied `RELEASE` change record. -/
  | release (record : List Byte) (signers : List (List Byte × List Byte))
  deriving DecidableEq, Repr

/-- One PMBus poll of a regulator (R570, R571): voltage in mV, current in quarters of an ampere, power in
W, and its status. -/
structure RailReading where
  rail : Nat := 0
  mv : Nat := 0
  amps4 : Nat := 0
  watts : Nat := 0
  answered : Bool := true
  fault : Bool := false
  ocWarn : Bool := false
  otWarn : Bool := false
  powerGood : Bool := true
  deriving DecidableEq, Repr

/-- The commands of the block: one constructor per row of the command table, in its order. -/
inductive Instr where
  /-- `CSR_WRITE` (R30). A write to a CSR that has no row of its own is answered in the order of R30 and, if permitted, updates the register. -/
  | csrWrite (who : Who) (addr : Nat) (value : Word32)
  /-- `COUNTER_LOW_READ` (R29). A read of a 64-bit counter's low word returns it and copies the high word into the requester's latch. -/
  | counterLowRead (who : Who) (addr : Nat)
  /-- `COUNTER_HIGH_READ` (R29). A read of a counter's high word returns the latched value and empties the latch, or the live word when no latch is held. -/
  | counterHighRead (who : Who) (addr : Nat)
  /-- `WIT_MIRROR_LOW_READ` (R29). A read of the low word of a Witness mirror value latches its upper two words for the requester. -/
  | witMirrorLowRead (who : Who) (addr : Nat)
  /-- `COUNTER_CLEAR` (R561). A write of zero to a performance counter's low word clears COUNT and OVF; other writes are ignored or denied. -/
  | counterClear (who : Who) (addr : Nat) (value : Word32)
  /-- `SAT_FIELD_CLEAR` (R549). A write of zero to a saturating error counter clears it; other writes are ignored. -/
  | satFieldClear (who : Who) (addr : Nat) (value : Word32)
  /-- `FENCE_ARRIVAL` (R20). A fence signal reaches a data-plane unit, which accepts no new work from the next cycle. -/
  | fenceArrival (unit : FenceUnit) (cause : Nat)
  /-- `CP_RESTART` (R22). The control cores begin a restart while the other planes run on. -/
  | cpRestart
  /-- `CP_RESTART_END` (R22). The control cores finish restarting and held epoch changes, applications and admissions resume. -/
  | cpRestartEnd
  /-- `MP_RESTART` (R22). The management controller begins a restart while data and control planes run on. -/
  | mpRestart
  /-- `MP_RESTART_END` (R22). The management controller finishes restarting and telemetry, attestation and log stores resume. -/
  | mpRestartEnd
  /-- `ARR_ISSUE` (R107). A Trimmer presents a 128-byte tile-job descriptor to an array and retires with the acceptance result. -/
  | arrIssue (t : Nat) (rd : Nat) (rs1 : Nat)
  /-- `ARR_ISSUE_UNSTALL` (R108). A stalled ARR.ISSUE proceeds once a job slot or completion-queue entry frees. -/
  | arrIssueUnstall (t : Nat)
  /-- `JOB_LOAD_START` (R80). A queued job whose other weight buffer is free moves to LOADING and fetches tile, scales and parameters. -/
  | jobLoadStart (a : Nat)
  /-- `TILE_LOADED` (R598). A job's tile is in its buffer and staging is primed, so it moves to STREAMING or WAIT_GROUP, re-checking a kept tile. -/
  | tileLoaded (a : Nat)
  /-- `GROUP_COMPLETE` (R78). All members of a broadcast group have reached WAIT_GROUP and start streaming in one cycle. -/
  | groupComplete (gid : Nat)
  /-- `GROUP_ASSEMBLY_TIMEOUT` (R78). A group incomplete 2^20 ACLK cycles after its first member waited starts its members with separate reads and closes. -/
  | groupAssemblyTimeout (gid : Nat)
  /-- `RAMP_RELEASE` (R79). Starts held by the array die's ramp limit are released 2,500 ACLK cycles after LOAD_WARN_N was asserted. -/
  | rampRelease (die : Nat)
  /-- `OPERAND_ARRIVAL` (R75). Operand data arrives and its data checks run, ending the job POISON_IN or REJECTED on failure. -/
  | operandArrival (a : Nat) (slot : Nat) (addr : Nat) (crcOk : Bool)
  /-- `STREAM_TOKEN` (R64). In one ACLK cycle a token vector enters the array and every cell works on it. -/
  | streamToken (a : Nat) (upset : Upset)
  /-- `RETRY_RELOADED` (R80). After a failed attempt the tile is reloaded and staging re-primed, and the job streams again from token 0. -/
  | retryReloaded (a : Nat)
  /-- `STREAM_COMPLETE` (R80). The last token is finished with all checks passed and the job drains its output to the shelf. -/
  | streamComplete (a : Nat)
  /-- `JOB_COMPLETION` (R85). The array writes the completion record, notifies the issuer and frees the slot. -/
  | jobCompletion (a : Nat) (slot : Nat)
  /-- `ARR_FENCE_WRITE` (R90). Writing ARR_CTRL.FENCE fences the array and ends both slots FENCED. -/
  | arrFenceWrite (who : Who) (a : Nat)
  /-- `ARR_UNFENCE` (R91). Writing ARR_CTRL.UNFENCE by the control plane or management controller starts the array's in-service BIST. -/
  | arrUnfence (who : Who) (a : Nat)
  /-- `ARR_BIST_DONE` (R91). An in-service array BIST completes and the fence is lifted on pass. -/
  | arrBistDone (a : Nat) (result : Word64)
  /-- `ARRAY_POWER_ON_BIST` (R92). An array's power-on BIST completes, admitting it or leaving it fenced with a log event. -/
  | arrayPowerOnBist (a : Nat) (result : Word64)
  /-- `TRIMMER_INSTRUCTION` (R95). A Trimmer executes one base RV64 or vector instruction, faulting on illegal or unpermitted forms. -/
  | trimmerInstruction (t : Nat)
  /-- `ARR_WAIT` (R109). ARR.WAIT returns the oldest completion-queue entry or waits up to its limit. -/
  | arrWait (t : Nat) (rd : Nat) (rs1 : Nat)
  /-- `ARR_WAIT_WAKE` (R109). A completion entry arrives for a waiting ARR.WAIT, which retires with it. -/
  | arrWaitWake (t : Nat)
  /-- `ARR_WAIT_TIMEOUT` (R109). An ARR.WAIT limit expires with no entry and rd becomes all ones. -/
  | arrWaitTimeout (t : Nat)
  /-- `FRM_ADD_S` (R111). Adds a binary32 term to a frame slot. -/
  | frmAddS (t : Nat) (rd : Nat) (rs1 : Nat) (rs2 : Nat)
  /-- `FRM_ADD_H` (R111). Adds a bfloat16 term to a frame slot. -/
  | frmAddH (t : Nat) (rd : Nat) (rs1 : Nat) (rs2 : Nat)
  /-- `FRM_ADD_I` (R111). Adds a signed integer term to a frame slot. -/
  | frmAddI (t : Nat) (rd : Nat) (rs1 : Nat) (rs2 : Nat)
  /-- `FRM_ADD_F` (R111). Combines a partial frame slot into another by R46. -/
  | frmAddF (t : Nat) (rd : Nat) (rs1 : Nat) (rs2 : Nat)
  /-- `FRM_FIN` (R112). Finishes a frame slot into an output format without changing the slot. -/
  | frmFin (t : Nat) (rd : Nat) (rs1 : Nat) (rs2 : Nat)
  /-- `RPT_RET` (R113). Ends the current RPT handler and sends its reply. -/
  | rptRet (t : Nat) (rs1 : Nat) (rs2 : Nat)
  /-- `SHELF_PIN` (R114). Pins each 64 KiB unit of a shelf range once, or refuses the whole range. -/
  | shelfPin (t : Nat) (rd : Nat) (rs1 : Nat) (rs2 : Nat)
  /-- `SHELF_UNPIN` (R114). Removes one pin from each unit of a shelf range, or refuses the whole range. -/
  | shelfUnpin (t : Nat) (rd : Nat) (rs1 : Nat) (rs2 : Nat)
  /-- `SAMPLE_MARK` (R115). Copies rs1 into xmark. -/
  | sampleMark (t : Nat) (rs1 : Nat)
  /-- `WINDOW_LOAD` (R102). A Trimmer load through a fabric window issues a TC1 READ. -/
  | windowLoad (t : Nat) (rd : Nat) (addr : Nat) (bytes : Nat) (signed : Bool)
  /-- `WINDOW_STORE` (R102). A Trimmer store through a fabric window issues a WRITE. -/
  | windowStore (t : Nat) (addr : Nat) (data : List Byte)
  /-- `WINDOW_AMO` (R102). A Trimmer 64-bit AMO through a fabric window issues ADD, MIN, MAX or SWAP. -/
  | windowAmo (t : Nat) (rd : Nat) (op : AmoOp) (addr : Nat) (value : Word64)
  /-- `WINDOW_RETRY_BACKOFF` (R103). The backoff after a NACK_RETRY to a window access expires and the Trimmer retries, up to 16 times. -/
  | windowRetryBackoff (t : Nat) (tag : Nat)
  /-- `INTERRUPT_TAKE` (R104). A Trimmer takes the highest-priority pending interrupt in M-mode and passes it on as upcall or dispatch. -/
  | interruptTake (t : Nat)
  /-- `UPCALL_RETURN` (R105). An upcall returns by ecall with a7 = 1 and firmware restores the interrupted context. -/
  | upcallReturn (t : Nat)
  /-- `RPT_HANDLER_FAULT` (R117). A handler faults and firmware ends it with result code 0xFFFF. -/
  | rptHandlerFault (t : Nat) (mcause : Nat) (mtval : Nat)
  /-- `RPT_BUDGET_EXHAUSTED` (R117). A handler retires more than RPT_INSN_MAX instructions and is ended with result code 0xFFFE. -/
  | rptBudgetExhausted (t : Nat)
  /-- `MAIN_CODE_FAULT` (R118). A fault in main code or an upcall halts main code until the next step boundary. -/
  | mainCodeFault (t : Nat) (mcause : Nat) (mtval : Nat)
  /-- `PROGRAM_SWAP_TIMEOUT` (R123). A Trimmer has not reached order 4 within 2^22 ACLK cycles, so the saggar keeps its old program. -/
  | programSwapTimeout (saggar : Nat)
  /-- `TRM_PARITY_ERROR` (R124). A parity error in Trimmer memory faults the reading code or restarts machine firmware. -/
  | trmParityError (t : Nat) (firmware : Bool) (addr : Nat)
  /-- `FW_RESTART` (R22). Writing TRM_CTRL.FW_RESTART restarts a Trimmer's machine firmware. -/
  | fwRestart (who : Who) (t : Nat)
  /-- `TRM_FENCE` (R125). Writing TRM_CTRL.FENCE fences a Trimmer, which stops at once. -/
  | trmFence (who : Who) (t : Nat)
  /-- `TRM_UNFENCE` (R125). Writing TRM_CTRL.UNFENCE starts a Trimmer's in-service BIST. -/
  | trmUnfence (who : Who) (t : Nat)
  /-- `TRM_BIST_DONE` (R125). A Trimmer's in-service BIST completes and the fence is lifted on pass. -/
  | trmBistDone (t : Nat) (pass : Bool)
  /-- `TRIMMER_ENTER_SERVICE` (R126). A Trimmer loads machine firmware after its die's BIST and enters service. -/
  | trimmerEnterService (t : Nat)
  /-- `STEP_TOKEN_OPEN` (R130). A member receives OPEN for a step, ending its step boundary and starting the step's work. -/
  | stepTokenOpen (p : Packet)
  /-- `STEP_TOKEN_EP_DONE` (R130). The leader receives EP_DONE from an endpoint and sends CLOSE once all listed endpoints are done. -/
  | stepTokenEpDone (p : Packet)
  /-- `STEP_TOKEN_CLOSE` (R130). A member receives CLOSE for a step. -/
  | stepTokenClose (p : Packet)
  /-- `STEP_TOKEN_CLOSED` (R130). The leader receives CLOSED from a member. -/
  | stepTokenClosed (p : Packet)
  /-- `STEP_TOKEN_ABORT` (R159). A member receives ABORT, stops issuing the step's work, discards results and closes an aborted record. -/
  | stepTokenAbort (p : Packet)
  /-- `LEADER_OPEN_DUE` (R132). The leader's next open time arrives with every CLOSED received, and it sends OPEN with Q and D. -/
  | leaderOpenDue (due : OpenDue)
  /-- `MEMBER_STEP_DRAINED` (R130). No work of the step remains on a member, so it closes its records and sends CLOSED. -/
  | memberStepDrained (comp : Nat)
  /-- `REC_RING_ROOM` (R153). Room frees in the record ring and a withheld CLOSED is sent. -/
  | recRingRoom (comp : Nat)
  /-- `DISPATCH` (R140). A token-dispatch train is checked and joins its expert's pending batch. -/
  | dispatch (p : Packet)
  /-- `BATCH_CLOSE_POINT` (R141). A layer's batch-close point passes and pending tokens form a batch. -/
  | batchClosePoint (saggar : Nat) (layer : Nat)
  /-- `BATCH_RUN` (R141). A batch whose tiles are on the shelf is issued as tile jobs and Trimmer procedures. -/
  | batchRun (saggar : Nat) (layer : Nat) (expert : Nat)
  /-- `CUT_OFF` (R148). A layer's cut-off passes and the Sitter fires each affected expert's cheaper-path policy. -/
  | cutOff (saggar : Nat) (layer : Nat)
  /-- `SHELF_TILE_STAGED` (R145). A tile copy from T2 onto the shelf completes and the next is staged. -/
  | shelfTileStaged (saggar : Nat) (layer : Nat) (expert : Nat) (tile : Nat)
  /-- `SEAL_NOW` (R154). Writing SIT_CTRL.SEAL_NOW seals the open record group. -/
  | sealNow (who : Who) (saggar : Nat)
  /-- `REPLAY_ENTER` (R155). Writing SIT_CTRL.REPLAY_ENTER puts the saggar in replay mode from the next step boundary. -/
  | replayEnter (who : Who) (saggar : Nat)
  /-- `REPLAY_EXIT` (R156). Writing SIT_CTRL.REPLAY_EXIT leaves replay at the next step boundary. -/
  | replayExit (who : Who) (saggar : Nat)
  /-- `REPLAY_RECORD` (R155). A host-supplied step record arrives for replay and is compared by R156. -/
  | replayRecord (saggar : Nat) (record : List Byte)
  /-- `EP_WAIT_EXPIRY` (R162). EP_DONE from a listed endpoint is missing 2^EP_WAIT_EXP cycles after OPEN, so the leader aborts and asks for a fence. -/
  | epWaitExpiry (comp : Nat) (endpoint : Nat)
  /-- `EP_LOST` (R162). An edge Plofen's EP_LOST message makes the leader abort the step and fence the endpoint. -/
  | epLost (comp : Nat) (endpoint : Nat)
  /-- `ATTEND` (R172). An ATTEND train is checked and accepted into the saggar's attention queue. -/
  | attend (p : Packet)
  /-- `ATTEND_BLOCK_DONE` (R181). A block's partial is complete and its MERGE contribution is sent. -/
  | attendBlockDone (req : Nat) (seqPage : Nat) (kvHead : Nat)
  /-- `REGION_CREATE` (R202). The pool procedure creates a region after its checks. -/
  | regionCreate (p : Packet)
  /-- `REGION_DELETE` (R202). The pool procedure deletes a region, freeing frames after accepted requests complete. -/
  | regionDelete (p : Packet)
  /-- `REGION_SEAL` (R202). The pool procedure seals an IMMUTABLE region and returns its content digest. -/
  | regionSeal (p : Packet)
  /-- `REGION_INFO` (R202). The pool procedure returns a region's descriptor and frame counts. -/
  | regionInfo (p : Packet)
  /-- `PAGE_MOVE_PASS_DONE` (R205). A copy pass of a page move completes, starting another pass or switching the page list to the destination. -/
  | pageMovePassDone (region : Nat) (page : Nat)
  /-- `SWEEPER_PASS` (R209). The background sweeper rewrites hot-cold entries of a tier. -/
  | sweeperPass (tier : Nat)
  /-- `TIER_PROMOTE` (R210). The tier manager promotes a page above PROMOTE_AT when the upper tier has room. -/
  | tierPromote (region : Nat) (page : Nat)
  /-- `TIER_SHORT` (R219). A saggar's free capacity in a tier falls to its reserve and the fallback steps run in order. -/
  | tierShort (saggar : Nat) (tier : Nat)
  /-- `OPEN` (R595). A snapshot OPEN opens a version and returns its view base. -/
  | openVersion (p : Packet)
  /-- `CLOSE` (R595). A snapshot CLOSE drops one open on a version. -/
  | closeVersion (p : Packet)
  /-- `PUBLISH` (R595). A PUBLISH makes the working pages the new current version. -/
  | publish (p : Packet)
  /-- `MOVER_JOB_START` (R218). A free mover starts the highest-priority waiting job. -/
  | moverJobStart (mover : Nat)
  /-- `MOVER_JOB_COMPLETE` (R217). A mover job finishes copying or moving its run of pages. -/
  | moverJobComplete (mover : Nat)
  /-- `MEMORY_CHANNEL_FENCE` (R220). A DRAM channel, HBM pseudo-channel or stack is fenced, losing its frames and shrinking capacity. -/
  | memoryChannelFence (who : Who) (unit : MemUnit)
  /-- `HBM_TEMP_READ` (R193). Every 2^20 SCLK cycles the device reads each HBM stack's temperature and throttles hot stacks. -/
  | hbmTempRead (temps : List Nat)
  /-- `HBM_TRAINING_DONE` (R193). An HBM stack finishes training and enters service or is fenced. -/
  | hbmTrainingDone (stack : Nat) (pass : Bool) (failedPcs : List Nat)
  /-- `DRAM_TRAINING_DONE` (R195). A DRAM channel finishes training and SPD checks and enters or stays out of service. -/
  | dramTrainingDone (channel : Nat) (report : DramReport)
  /-- `TIE_THRESHOLD_WRITE` (R210). A write to TIE_TH23 or TIE_TH34 takes effect only when PROMOTE_AT exceeds DEMOTE_BELOW. -/
  | tieThresholdWrite (who : Who) (saggar : Nat) (upper34 : Bool) (value : Word32)
  /-- `FLASH_FRAME_WRITE` (R226). MD1 starts programming the four units of a T4 frame write. -/
  | flashFrameWrite (frame : Nat) (saggar : Nat) (data : List Byte) (poison : List Nat)
  /-- `PAGE_PROGRAM_DONE` (R226). A page program passes status, maps are updated and the frame write is acknowledged when all four are done. -/
  | pageProgramDone (die : Nat) (host : Bool)
  /-- `PROGRAM_FAILURE` (R235). A program failure reprograms the data elsewhere and retires the block. -/
  | programFailure (die : Nat) (host : Bool)
  /-- `ERASE_FAILURE` (R236). An erase failure retires the block in the retired-block list. -/
  | eraseFailure (die : Nat) (block : Nat)
  /-- `FLASH_READ` (R223). MD1 reads a unit and checks it by R228. -/
  | flashRead (lua : Nat) (saggar : Nat) (retries : List (List Nat)) (failing : List Nat)
  /-- `GC_VICTIM_SELECT` (R232). A die below GC_LOW free blocks selects a victim block. -/
  | gcVictimSelect (die : Nat)
  /-- `GC_PAGE_MOVE` (R233). A valid page of the victim is copied, verified and repointed. -/
  | gcPageMove (die : Nat) (read : MoveRead)
  /-- `GC_VICTIM_ERASE` (R233). The victim is erased after all its valid pages have moved. -/
  | gcVictimErase (die : Nat)
  /-- `BLOCK_TABLE_CHECKPOINT` (R237). Every 2^20 erases, at power-down and at STORE, the erase counts are written to system units. -/
  | blockTableCheckpoint
  /-- `FLASH_OP_TIMEOUT` (R238). A flash operation does not complete within 2^24 SCLK cycles and the die is fenced. -/
  | flashOpTimeout (die : Nat)
  /-- `FLM_DIE_FENCE` (R238). Writing FLM_DIE_CTRL.FENCE fences a flash die and marks its units LOST. -/
  | flmDieFence (who : Who) (die : Nat)
  /-- `FLM_DIE_UNFENCE` (R238). Writing FLM_DIE_CTRL.UNFENCE returns a die empty and appends a lifting entry. -/
  | flmDieUnfence (who : Who) (die : Nat)
  /-- `ORDINARY_DISCARD` (R239). A trim record is written and the range unmapped. -/
  | ordinaryDiscard (lua : Nat) (units : Nat)
  /-- `SECURE_DISCARD` (R240). A secure discard holds the range, writes a secure trim record and starts erasing every copy. -/
  | secureDiscard (lua : Nat) (units : Nat)
  /-- `SECURE_DISCARD_DONE` (R240). All blocks holding copies are erased, HELD is cleared and the discard completes. -/
  | secureDiscardDone (lua : Nat)
  /-- `FLM_INIT` (R222). MD1 reads and compares parameter pages and puts channels in or out of service. -/
  | flmInit (channels : List FlashParams)
  /-- `FLASH_REBUILD` (R241). At power-on MD1 rebuilds the map from summaries and open-block scans. -/
  | flashRebuild
  /-- `REBUILD_COMPLETE` (R242). The rebuild finishes its completion steps and T4 regions are served again. -/
  | rebuildComplete
  /-- `CODEC_ENCODE` (R253). An encode job is checked and queued on an engine. -/
  | codecEncode (p : Packet)
  /-- `CODEC_DECODE` (R253). A decode job is checked and queued on an engine. -/
  | codecDecode (p : Packet)
  /-- `CODEC_BIND` (R256). A table ID is bound to a valid table page. -/
  | codecBind (p : Packet)
  /-- `CODEC_UNBIND` (R256). A table ID binding is removed while it has no users. -/
  | codecUnbind (p : Packet)
  /-- `CODEC_JOB_START` (R257). A job reaches the front of its queue and checks its table object. -/
  | codecJobStart (engine : Nat)
  /-- `CODEC_JOB_COMPLETE` (R252). A codec job finishes and returns its job result. -/
  | codecJobComplete (engine : Nat)
  /-- `CDC_FENCE` (R268). Writing CDC_CTRL.FENCE fences an engine and restarts its jobs elsewhere. -/
  | cdcFence (who : Who) (engine : Nat)
  /-- `CDC_UNFENCE` (R268). Writing CDC_CTRL.UNFENCE lifts an engine's fence. -/
  | cdcUnfence (who : Who) (engine : Nat)
  /-- `COLL_OPEN` (R276). A collective open is checked, state reserved and stages armed. -/
  | collOpen (p : Packet)
  /-- `COLL_CANCEL` (R293). Collectives in ARMING or OPEN are freed without a record. -/
  | collCancel (p : Packet)
  /-- `COLL_INFO` (R272). Returns a collective's state, progress and shape digest. -/
  | collInfo (p : Packet)
  /-- `COLL_ARM` (R278). A stage checks and answers its arming by the root. -/
  | collArm (p : Packet)
  /-- `COLL_CONTRIB` (R283). A contribution packet is checked and accepted idempotently. -/
  | collContrib (port : Nat) (p : Packet) (upsets : List LaneUpset)
  /-- `COLL_RESULT` (R291). A stage receives finished slices and writes them to its children's RET. -/
  | collResult (p : Packet)
  /-- `COLL_FREE` (R292). A stage frees its state for a collective. -/
  | collFree (p : Packet)
  /-- `CENSUS_CALL` (R290). A member contributes its image digest to a census. -/
  | censusCall (p : Packet)
  /-- `COMBINING_ENTRY_CLOSE` (R297). A combining entry closes after COMB_HOLD cycles and one combined atomic is sent. -/
  | combiningEntryClose (entry : Nat)
  /-- `PUG_FENCE` (R296). Writing PUG_CTRL.FENCE fences a unit and its collectives. -/
  | pugFence (who : Who) (unit : Nat)
  /-- `PUG_UNFENCE` (R296). Writing PUG_CTRL.UNFENCE lifts a unit's fence after BIST. -/
  | pugUnfence (who : Who) (unit : Nat) (bistPass : Bool)
  /-- `GATHER_POOL` (R303). A pooling request or sub-request is checked, bound and split by owner. -/
  | gatherPool (p : Packet)
  /-- `GATHER_POOL_DONE` (R306). All partials are combined and the lead replies. -/
  | gatherPoolDone (req : Nat)
  /-- `GATHER_MIGRATE` (R309). A row is frozen and copied toward a hot slot or its default slot. -/
  | gatherMigrate (p : Packet)
  /-- `MIGRATION_COPY_DONE` (R309). The row copy completes, the entry flips and is unfrozen. -/
  | migrationCopyDone (saggar : Nat) (gtable : Nat) (row : Nat) (checkOk : Bool)
  /-- `SIEVE_QUERY` (R316). A query is checked and bound to a snapshot. -/
  | sieveQuery (p : Packet)
  /-- `SIEVE_QUERY_DONE` (R321). A query finishes and replies with its best K items. -/
  | sieveQueryDone (req : Nat)
  /-- `SIEVE_INSERT` (R322). Appends an entry to a list's side list. -/
  | sieveInsert (p : Packet)
  /-- `SIEVE_DELETE` (R322). Tombstones an item and raises the delete generation. -/
  | sieveDelete (p : Packet)
  /-- `SIEVE_MERGE` (R322). Starts rebuilding an index into a target region. -/
  | sieveMerge (p : Packet)
  /-- `SIEVE_MERGE_SWITCH` (R323). The sealed target becomes the index image and the version rises. -/
  | sieveMergeSwitch (saggar : Nat) (sindex : Nat)
  /-- `SIEVE_MERGE_CLEANUP` (R323). Once old-version queries end, merged side entries and tombstones are freed. -/
  | sieveMergeCleanup (saggar : Nat) (sindex : Nat)
  /-- `GTH_FENCE` (R325). Writing GTH_CTRL.FENCE fences a Gather engine. -/
  | gthFence (who : Who) (engine : Nat)
  /-- `GTH_UNFENCE` (R325). Writing GTH_CTRL.UNFENCE lifts a Gather engine's fence. -/
  | gthUnfence (who : Who) (engine : Nat)
  /-- `SIV_FENCE` (R325). Writing SIV_CTRL.FENCE fences a Sieve engine. -/
  | sivFence (who : Who) (engine : Nat)
  /-- `SIV_UNFENCE` (R325). Writing SIV_CTRL.UNFENCE lifts a Sieve engine's fence. -/
  | sivUnfence (who : Who) (engine : Nat)
  /-- `PACKET_ARRIVAL` (R392). A packet header arrives, is checked, routed, charged and queued or cut through. -/
  | packetArrival (port : Nat) (p : Packet) (frame : LinkFrame)
  /-- `QUOTA_RELEASE` (R390). Shared-pool cells free and a held packet moves from the reserve. -/
  | quotaRelease (saggar : Nat)
  /-- `PACKET_DEPART` (R399). The egress scheduler sends a packet, raising HOPS and charging shapers. -/
  | packetDepart (port : Nat)
  /-- `READ` (R340). A home checks and serves a READ. -/
  | read (p : Packet)
  /-- `WRITE` (R340). A home checks and applies a WRITE. -/
  | write (p : Packet) (mergeMismatch : Bool)
  /-- `ADD` (R341). Applies an atomic add once under the result window. -/
  | atomicAdd (p : Packet) (mergeMismatch : Bool)
  /-- `MIN` (R341). Applies an atomic signed minimum once. -/
  | atomicMin (p : Packet) (mergeMismatch : Bool)
  /-- `MAX` (R341). Applies an atomic signed maximum once. -/
  | atomicMax (p : Packet) (mergeMismatch : Bool)
  /-- `SWAP` (R341). Applies an atomic swap once. -/
  | atomicSwap (p : Packet) (mergeMismatch : Bool)
  /-- `CAS` (R341). Applies an atomic compare-and-swap once. -/
  | atomicCas (p : Packet) (mergeMismatch : Bool)
  /-- `FRAME_ADD` (R341). Adds a partial S to a W = 64 frame word once. -/
  | frameAdd (p : Packet) (mergeMismatch : Bool)
  /-- `FRAME_ADD_F` (R341). Combines a frame slot into a target slot once. -/
  | frameAddF (p : Packet) (mergeMismatch : Bool)
  /-- `RPT` (R349). An RPT call is checked and queued for a Trimmer or passed to a device unit. -/
  | rpt (p : Packet)
  /-- `ACK` (R331). An answer without data is matched by tag and completes its request. -/
  | ack (p : Packet)
  /-- `ACK_DATA` (R331). An answer with data is matched by tag, its pieces tested, and completes its request. -/
  | ackData (p : Packet)
  /-- `COMPLETION_TIMEOUT` (R357). A request's timeout expires and it is resent once with RTY or completes with the timeout code. -/
  | completionTimeout (tag : Nat)
  /-- `NACK_BACKOFF_EXPIRY` (R343). A NACK backoff ends and the request is resent with the same SEQ. -/
  | nackBackoffExpiry (tag : Nat)
  /-- `STALE_HOLD_TIMEOUT` (R343). A held stale or fenced request sees no epoch change within 2^TO_EXP and completes locally. -/
  | staleHoldTimeout (tag : Nat)
  /-- `WINDOW_ENTRY_EXPIRY` (R355). A result-window entry reaches its retention and may be released. -/
  | windowEntryExpiry (src : Nat) (saggar : Nat) (seq : Nat)
  /-- `FAB_CTRL_WRITE` (R359). A control-plane write to FAB_CTRL sets timeout and retention, discarding out-of-range values. -/
  | fabCtrlWrite (who : Who) (value : Word32)
  /-- `HOT_RANGE_ENTRY` (R361). A chip enters a hot range from a CTRL message, or logs FAB_HOT_FULL. -/
  | hotRangeEntry (region : Nat) (home : Nat) (base : Nat) (pages : Nat) (kind : Nat) (saggar : Nat)
  /-- `MGMT` (R456). A TC7 management train, such as relayed Jaesque traffic, is delivered in RSEQ order. -/
  | mgmt (p : Packet)
  /-- `INVAL` (R376). A member forwards an INVAL to its caching agents and answers when all reply. -/
  | inval (p : Packet)
  /-- `BIRSP` (R376). A CXL BIRsp arrives and the edge Plofen answers the INVAL once all have arrived. -/
  | birsp (port : Nat) (home : Nat) (offset : Nat)
  /-- `OWN_OFFER` (R383). An owner offers the owner token, starting a transfer and its timer. -/
  | ownOffer (p : Packet)
  /-- `OWN_ACCEPT` (R385). The named target accepts a transfer and becomes owner. -/
  | ownAccept (p : Packet)
  /-- `OWN_FORCE` (R387). A permitted requester takes ownership and discards unpublished pages. -/
  | ownForce (p : Packet)
  /-- `OWN_TRANSFER_TIMEOUT` (R385). A transfer timer expires before accept and the home reverts to the offerer. -/
  | ownTransferTimeout (region : Nat)
  /-- `COH_CTRL_WRITE` (R385). A control-plane write to COH_CTRL sets OWN_TO_EXP, discarding out-of-range values. -/
  | cohCtrlWrite (who : Who) (value : Word32)
  /-- `DOMAIN_FENCE` (R379). A member receives a domain fence and fences the domain's regions and agents. -/
  | domainFence (domain : Nat) (cause : Nat) (reportedHere : Bool)
  /-- `DOMAIN_DIRECTORY_CLEARED` (R381). Every reachable member reports its directory cleared and the domain moves to REFORMING. -/
  | domainDirectoryCleared (domain : Nat) (member : Nat)
  /-- `SHAPER_REFILL` (R404). Every 4,096 SCLK cycles shaper and policer buckets refill. -/
  | shaperRefill
  /-- `SHAPER_WRITE` (R405). A write to a shaper RATE or BURST takes effect at the next refill. -/
  | shaperWrite (who : Who) (addr : Nat) (value : Word32)
  /-- `SAMPLE_EXPORT` (R408). The management controller sends a mirror-buffer sample to the collector. -/
  | sampleExport
  /-- `PACKET_AGE_LIMIT` (R409). A packet's residence reaches 2^18 SCLK cycles and it is discarded. -/
  | packetAgeLimit (pid : Nat)
  /-- `AUDIT_PASS_START` (R410). Every 2^24 SCLK cycles the buffer auditor starts a pass. -/
  | auditPassStart
  /-- `AUDIT_CELL_VISIT` (R410). The auditor visits one cell and reclaims one suspect in two passes. -/
  | auditCellVisit
  /-- `CONF_IDLE_TURN` (R403). An empty confidential queue's idle turn time ends and the turn passes. -/
  | confIdleTurn (port : Nat) (cls : Nat) (vc : Bool) (saggar : Nat)
  /-- `LINK_SIGNAL_DETECT` (R415). Signal appears on a DOWN port and training starts. -/
  | linkSignalDetect (port : Nat)
  /-- `LINK_TRAIN_DONE` (R415). Link training completes and the port moves to ALIGN. -/
  | linkTrainDone (port : Nat) (lanes : Nat)
  /-- `LINK_ALIGN_DONE` (R415). Deskew and FEC lock complete and the port moves to EXCHANGE. -/
  | linkAlignDone (port : Nat)
  /-- `EXCH` (R416). An EXCH frame is checked and the port enters UP or returns to DOWN. -/
  | linkExch (port : Nat) (body : ExchBody)
  /-- `LINK_STATE_TIMEOUT` (R415). A training state exceeds its budget and the port returns to DOWN. -/
  | linkStateTimeout (port : Nat)
  /-- `LINK_RETRAIN_TIMER` (R415). 2^30 SCLK cycles after a failed training, training is attempted again. -/
  | linkRetrainTimer (port : Nat)
  /-- `LINK_IDLE_FRAME` (R418). An IDLE frame is received, carrying acks, credits and LC. -/
  | linkIdleFrame (port : Nat) (frame : LinkFrame)
  /-- `LINK_IDLE_DUE` (R418). No frame was due for 512 SCLK cycles and an IDLE is sent. -/
  | linkIdleDue (port : Nat)
  /-- `LINK_REPLAY_REQ` (R423). A REPLAY_REQ makes the sender replay from the named frame. -/
  | linkReplayReq (port : Nat) (frame : LinkFrame)
  /-- `REPLAY_REQ_REPEAT` (R423). The named frame has not arrived within 1,024 cycles and the request is repeated. -/
  | replayReqRepeat (port : Nat)
  /-- `LINK_SILENCE_TIMEOUT` (R424). No valid frame for 2,048 SCLK cycles takes the link down. -/
  | linkSilenceTimeout (port : Nat)
  /-- `DIGEST_MISMATCH_TIMEOUT` (R419). The peer's digest prefix differs for 2^24 cycles and a mismatch is logged. -/
  | digestMismatchTimeout (port : Nat)
  /-- `FEC_LOCK_LOSS` (R424). FEC lock is lost on two or more lanes at once and the link goes down. -/
  | fecLockLoss (port : Nat) (lanes : Nat)
  /-- `LANE_LOST` (R427). A receiver declares a lane lost and moves it to the spare by EMERGENCY. -/
  | laneLost (port : Nat) (lane : Nat)
  /-- `LOP_REQ_SWAP` (R426). A receiver's REQ_SWAP starts mirroring a lane on the spare. -/
  | lopReqSwap (port : Nat) (lane : Nat)
  /-- `LOP_MIRROR_ON` (R426). The transmitter reports the spare carries the lane's copy. -/
  | lopMirrorOn (port : Nat) (lane : Nat)
  /-- `MIRROR_MATCHED` (R425). The spare's copy has matched for 2^12 cycles and READY is sent. -/
  | mirrorMatched (port : Nat)
  /-- `LOP_READY` (R426). The transmitter schedules SWITCH_AT at least 16 frames ahead. -/
  | lopReady (port : Nat) (lane : Nat)
  /-- `LOP_SWITCH_AT` (R426). The receiver learns the frame from which the lane moves. -/
  | lopSwitchAt (port : Nat) (lane : Nat) (atFseq : Nat)
  /-- `LANE_MAP_SWITCH` (R426). At frame AT_FSEQ both ends change the lane map. -/
  | laneMapSwitch (port : Nat)
  /-- `LOP_REQ_RESTORE` (R426). A receiver requests a lane moved back to its own physical lane. -/
  | lopReqRestore (port : Nat) (lane : Nat)
  /-- `LOP_EMERGENCY` (R427). The transmitter moves the lane to the spare at once and replays. -/
  | lopEmergency (port : Nat) (lane : Nat) (fseq : Nat)
  /-- `ROTATION_VISIT` (R428). Every 2^ROT_EXP cycles the next physical lane is visited for recalibration. -/
  | rotationVisit (port : Nat)
  /-- `RECALIBRATION_DONE` (R429). A lane's recalibration and eye measurement end, with warning or retirement by threshold. -/
  | recalibrationDone (port : Nat) (eyeW : Nat) (eyeH : Nat)
  /-- `PRT_FENCE` (R398). Writing PRT_CTRL.FENCE fences the port and takes its link down. -/
  | prtFence (who : Who) (port : Nat)
  /-- `PRT_UNFENCE` (R597). Writing PRT_CTRL.UNFENCE lifts the port's fence. -/
  | prtUnfence (who : Who) (port : Nat)
  /-- `PRT_UNRETIRE` (R429). Writing PRT_CTRL.UNRETIRE clears RETIRED and resumes rotation. -/
  | prtUnretire (who : Who) (port : Nat)
  /-- `ROT_NOW` (R428). Writing PRT_CTRL.ROT_NOW starts the next rotation visit at once. -/
  | rotNow (who : Who) (port : Nat)
  /-- `RETRAIN` (R415). Writing PRT_CTRL.RETRAIN returns the port to DOWN. -/
  | retrain (who : Who) (port : Nat)
  /-- `MEMRD` (R434). A CXL MemRd of an LD becomes a 64-byte fabric READ. -/
  | memrd (port : Nat) (ld : Nat) (dpa : Nat) (tag : Nat)
  /-- `MEMWR` (R434). A CXL MemWr of an LD becomes a 64-byte fabric WRITE. -/
  | memwr (port : Nat) (ld : Nat) (dpa : Nat) (tag : Nat) (data : List Byte)
  /-- `CXL_LINK_DOWN` (R436). An EDGE_C port loses its CXL link and domains are fenced with cause 0x3. -/
  | cxlLinkDown (port : Nat)
  /-- `MODULE_POLL` (R437). Every 2^24 MCLK cycles module monitors are polled and low or alarm events raised. -/
  | modulePoll (readings : List ModuleReading)
  /-- `MODULE_REMOVAL` (R437). Removing a module takes its link down. -/
  | moduleRemoval (port : Nat)
  /-- `JQ_SIGNAL_DETECT` (R440). Signal appears on all four Jaesque lanes and the link moves to LOCK. -/
  | jqSignalDetect
  /-- `JQ_LOCK_DONE` (R440). 64 valid sync headers on every lane move the link to ALIGN. -/
  | jqLockDone
  /-- `JQ_ALIGN_DONE` (R440). Lanes are deskewed and the link moves to INIT. -/
  | jqAlignDone
  /-- `INIT` (R441). An INIT frame with matching version brings the link UP with initial credits. -/
  | jqInit (body : InitBody)
  /-- `JQ_STATE_TIMEOUT` (R440). A Jaesque state exceeds its budget and the link returns to DOWN. -/
  | jqStateTimeout
  /-- `JQ_RETRY_TIMER` (R440). 2^26 SCLK cycles after DOWN a new attempt starts. -/
  | jqRetryTimer
  /-- `JQ_IDLE_FRAME` (R443). A Jaesque IDLE frame carrying acks and credits is received. -/
  | jqIdleFrame (frame : JqFrame)
  /-- `JQ_IDLE_DUE` (R443). Nothing was sent for 2^12 cycles and an IDLE is sent. -/
  | jqIdleDue
  /-- `JQ_REPLAY_REQ` (R444). A REPLAY_REQ makes the sender resend from the named frame. -/
  | jqReplayReq (frame : JqFrame)
  /-- `JQ_REPLAY_REPEAT` (R444). The expected frame has not arrived and the request is repeated every 2^12 cycles. -/
  | jqReplayRepeat
  /-- `JQ_SILENCE_TIMEOUT` (R444). No valid frame for 2^16 cycles takes the link down. -/
  | jqSilenceTimeout
  /-- `HELLO` (R448). A host HELLO starts a session handshake, answered with REPLY or REFUSE. -/
  | hello (frame : JqFrame) (hello : HelloMsg)
  /-- `PROOF` (R448). A host PROOF is verified and the session opens with DONE or is refused. -/
  | proof (frame : JqFrame) (signature : List Byte)
  /-- `SESSION_CLOSE` (R450). A CLOSE message ends a session and erases its keys. -/
  | sessionClose (frame : JqFrame)
  /-- `JQ_CSR_READ` (R452). A CSR READ message reads COUNT words in order and responds. -/
  | jqCsrRead (frame : JqFrame) (count : Nat) (tag : Nat) (addr : Nat)
  /-- `JQ_CSR_WRITE` (R452). A CSR WRITE message writes COUNT words in order and responds. -/
  | jqCsrWrite (frame : JqFrame) (count : Nat) (tag : Nat) (addr : Nat) (words : List Word32)
  /-- `BULK_BEGIN` (R453). BEGIN opens a BULK transfer staged in T3 or the switch buffer. -/
  | bulkBegin (frame : JqFrame) (kind : Nat) (xfer : Nat) (total : Nat)
  /-- `BULK_DATA` (R453). DATA bytes are placed at their offset in the staged transfer. -/
  | bulkData (frame : JqFrame) (xfer : Nat) (offset : Nat) (data : List Byte)
  /-- `BULK_END` (R453). END checks completeness and digest and passes the object to its plane. -/
  | bulkEnd (frame : JqFrame) (xfer : Nat) (digest : List Byte)
  /-- `SUBSCRIBE` (R454). A session subscribes to Kiln log entries above a severity. -/
  | subscribe (frame : JqFrame) (enable : Bool) (minSev : Nat)
  /-- `WITNESS_READ` (R524). A Jaesque request for a signed Witness read or the audit trail. -/
  | witnessRead (frame : JqFrame) (saggar : Nat) (readTag : Nat)
  /-- `RECORD_ACK` (R455). A record's last fragment is acknowledged and it leaves the ring. -/
  | recordAck (saggar : Nat)
  /-- `RELAY_GAP_TIMEOUT` (R456). A missing relay RSEQ has not arrived after 2^24 cycles and the session ends. -/
  | relayGapTimeout (sid : Nat)
  /-- `PREPARE` (R475). A chip writes staged sections and the fence list into shadows and sends READY. -/
  | prepare (src : Nat) (epoch : Nat) (digest : List Byte) (fenceList : List Nat)
  /-- `READY` (R475). The coordinator counts READY and sends COMMIT once all reachable chips are ready. -/
  | ready (src : Nat) (epoch : Nat)
  /-- `COMMIT` (R475). A chip makes its shadows current and the epoch advances. -/
  | commit (src : Nat) (epoch : Nat)
  /-- `ABANDON` (R475). A chip discards its shadows and returns from STAGED to RUN. -/
  | abandon (src : Nat) (epoch : Nat)
  /-- `STAGING_TIMEOUT` (R475). A READY is missing 2^STAGE_TO_EXP cycles after PREPARE and the coordinator sends ABANDON. -/
  | stagingTimeout (silent : Nat)
  /-- `DRAIN_QUIET` (R478). Previous-epoch counts stay zero for 2^DRAIN_QUIET_EXP cycles and the chip sends DRAINED. -/
  | drainQuiet
  /-- `DRAINED` (R478). The coordinator records that a chip has drained the previous epoch. -/
  | drained (src : Nat) (epoch : Nat)
  /-- `DRAIN_MAX_EXPIRY` (R478). 2^DRAIN_MAX_EXP cycles after COMMIT the previous epoch is force-closed everywhere. -/
  | drainMaxExpiry
  /-- `FORCE_CLOSE` (R478). Writing IMG_CTRL.FORCE_CLOSE closes the previous epoch here. -/
  | forceClose (who : Who)
  /-- `IMG_CTRL_ABANDON` (R475). Writing IMG_CTRL.ABANDON discards a staged image. -/
  | imgCtrlAbandon (who : Who)
  /-- `COORD_ALIVE_DUE` (R476). Every 2^24 CCLK cycles the coordinator sends COORD_ALIVE. -/
  | coordAliveDue
  /-- `COORD_ALIVE` (R476). The standby receives COORD_ALIVE from the coordinator. -/
  | coordAlive (src : Nat)
  /-- `COORD_SILENCE` (R476). The standby hears nothing for 2^29 CCLK cycles and claims the role. -/
  | coordSilence
  /-- `COORD_BOTH_SILENT` (R476). Coordinator and standby are silent for 2^30 CCLK cycles and the lowest reachable Plofen claims. -/
  | coordBothSilent (reachable : List Nat)
  /-- `COORD_CLAIM` (R476). A Plofen records the claimant as coordinator and abandons uncommitted epochs. -/
  | coordClaim (src : Nat) (claimant : Nat) (epoch : Nat) (standby : Nat)
  /-- `COORD_QUERY` (R476). A restarted Plofen asks a neighbour for the recorded coordinator. -/
  | coordQuery (neighbour : Nat) (answer : Nat)
  /-- `IMG_STORE` (R480). Writing IMG_CTRL.STORE starts storing the slice to the unused NVM copy. -/
  | imgStore (who : Who)
  /-- `IMG_STORE_DONE` (R480). The stored copy verifies and becomes current. -/
  | imgStoreDone (verified : Bool)
  /-- `ATTEST` (R494). Writing SAG_CTRL.ATTEST starts producing evidence with a fresh ephemeral key. -/
  | attest (who : Who) (saggar : Nat)
  /-- `ATTEST_DONE` (R494). The evidence is written and SAG_STATE.EVIDENCE set. -/
  | attestDone (saggar : Nat)
  /-- `KEY_LOAD` (R495). Writing SAG_CTRL.KEY_LOAD starts unwrapping the weight key. -/
  | keyLoad (who : Who) (saggar : Nat)
  /-- `KEY_LOAD_DONE` (R495). The key is installed as LOADED or the load ends FAILED. -/
  | keyLoadDone (saggar : Nat)
  /-- `KEY_ERASE` (R496). Writing SAG_CTRL.KEY_ERASE erases the weight key. -/
  | keyErase (who : Who) (saggar : Nat)
  /-- `EPHEMERAL_KEY_EXPIRY` (R495). The ephemeral key expires 2^ATT_TTL_EXP MCLK cycles after the evidence. -/
  | ephemeralKeyExpiry (saggar : Nat)
  /-- `DC_WRITE` (R508). A dual-control record writes masked DC fields after its checks. -/
  | dcWrite (who : Who)
  /-- `LOG_CLEAR` (R557). A dual-control record clears the Kiln log's first area. -/
  | logClear (who : Who)
  /-- `WITNESS_FW` (R507). A dual-control record approves a Witness firmware digest. -/
  | witnessFw (who : Who)
  /-- `RELEASE` (R507). A dual-control record deletes saggars and erases ownership and the stored image. -/
  | release (who : Who)
  /-- `CLAIM_ASSERTED` (R569). OWN_CLAIM_N stays low 2^18 MCLK cycles and counts as asserted. -/
  | claimAsserted
  /-- `TAP_SEND_DUE` (R513). Every 2^16 SCLK cycles SD sends changed totals, levels or a heartbeat to WD. -/
  | tapSendDue
  /-- `TAP_TOTAL` (R514). WD adds a total frame's increment or takes it as baseline. -/
  | tapTotal (frame : TapFrame)
  /-- `TAP_LEVEL` (R514). WD replaces a held occupancy level. -/
  | tapLevel (frame : TapFrame)
  /-- `TAP_HEARTBEAT` (R514). WD receives a heartbeat tap frame. -/
  | tapHeartbeat (frame : TapFrame)
  /-- `TAP_POWER_DOWN` (R514). WD receives the orderly power-down tap frame. -/
  | tapPowerDown (frame : TapFrame)
  /-- `METER_TICK` (R515). Each 1/1,024 s WD adds held levels to occupancy registers. -/
  | meterTick
  /-- `WITNESS_COMMIT` (R518). Every 32 ticks WD commits its registers to the older NVM copy. -/
  | witnessCommit (readBackOk : Bool)
  /-- `VIN_W_LOW` (R518). VIN_W falls below 3.0 V and WD commits at once. -/
  | vinWLow
  /-- `WD_START` (R511). WD boots, verifies firmware and loads the newer valid register copy. -/
  | wdStart (copyAOk : Bool) (copyBOk : Bool) (selfTestOk : Bool)
  /-- `WITNESS_CHANGE` (R520). WD checks a forwarded parameter, protection or release change and records it. -/
  | witnessChange (change : WitnessChange)
  /-- `WITNESS_FW_PACKAGE` (R521). WD installs an approved firmware package to the copy not in force. -/
  | witnessFwPackage (package : List Byte)
  /-- `MPORT_FRAME` (R526). A message arrives on the M-port and is answered with a signed object. -/
  | mportFrame (saggar : Nat) (readTag : Nat) (crcOk : Bool)
  /-- `HELD_READ_RELEASE` (R524). A read held for a metered confidential saggar is answered after 1,024 ticks. -/
  | heldReadRelease (path : Nat)
  /-- `WD_HEARTBEAT_TIMEOUT` (R527). No mirror heartbeat for 2^26 SCLK cycles raises WD_DOWN. -/
  | wdHeartbeatTimeout
  /-- `TAP_LOSS_TIMEOUT` (R527). No valid tap frame for 32 ticks raises TAP_LOSS. -/
  | tapLossTimeout
  /-- `PROBE` (R533). A chip answers a CTRL probe from a neighbour. -/
  | probe (src : Nat)
  /-- `PROBE_TIMEOUT` (R533). A probe is unanswered for 2^15 cycles and the peer is declared lost. -/
  | probeTimeout (peer : Nat)
  /-- `NODE_LOST` (R534). A Plofen fences compositions, domains and collectives of a lost chip. -/
  | nodeLost (lost : Nat)
  /-- `JOIN` (R542). The coordinator receives a starting chip's JOIN and begins admission. -/
  | join (src : Nat)
  /-- `ADMISSION_LOAD_DONE` (R543). Handback jobs and rebuild complete and the chip moves to ADMIT. -/
  | admissionLoadDone
  /-- `FW_SWITCH` (R545). Writing ERC_FW_CTRL.SWITCH moves a firmware kind to its pending copy. -/
  | fwSwitch (who : Who) (kind : Nat)
  /-- `FW_COMMIT` (R546). Writing ERC_FW_CTRL.COMMIT raises the kind's anti-rollback counter. -/
  | fwCommit (who : Who) (kind : Nat)
  /-- `FW_RESTART_BUDGET_EXPIRY` (R545). A new copy misses its restart budget and the previous copy is started. -/
  | fwRestartBudgetExpiry (kind : Nat)
  /-- `DIE_UNFENCE` (R541). Writing ERC_DIE.UNFENCE lifts a whole-die fence after its checks and BIST. -/
  | dieUnfence (who : Who) (die : Nat) (causeCleared : Bool) (failed : List Nat) (failedTrimmers : List Nat) (failedStacks : List Nat)
  /-- `SLACK_READ` (R547). Every 2^20 MCLK cycles slack monitors are read and rails stepped. -/
  | slackRead (slacks : List Nat)
  /-- `LOG_BUCKET_REFILL` (R553). At every 2^20 MCLK cycles every event bucket refills. -/
  | logBucketRefill
  /-- `LOG_STORE` (R556). Writing LOG_CTRL.STORE copies the first area into NVM. -/
  | logStore (who : Who)
  /-- `LOG_STORE_DONE` (R556). A log copy verifies and becomes current or fails. -/
  | logStoreDone (verified : Bool)
  /-- `LOG_SLOT_FIRST_READ` (R555). A read of a slot's first word latches the whole entry. -/
  | logSlotFirstRead (who : Who) (slot : Nat)
  /-- `PWR_GOOD_AON_RISE` (R585). PWR_GOOD_AON rises and power-on begins. -/
  | pwrGoodAonRise
  /-- `PWR_GOOD_AON_FALL` (R580). PWR_GOOD_AON falls, releasing a thermal trip. -/
  | pwrGoodAonFall
  /-- `ROOT_PLL_LOCK` (R582). The root PLL locks and step 1 completes. -/
  | rootPllLock
  /-- `MGMT_BOOT_DONE` (R585). The management controller verifies its firmware and step 2 completes. -/
  | mgmtBootDone (copyAOk : Bool) (copyBOk : Bool)
  /-- `RAIL_GROUP_POWER_GOOD` (R573). A rail group reports power good and the next group is switched on. -/
  | railGroupPowerGood
  /-- `RAIL_GROUP_TIMEOUT` (R587). A rail group misses its time and the failure is handled by group. -/
  | railGroupTimeout (rail : Nat)
  /-- `SD_RELEASE` (R585). SD and port dies are released and step 3 completes. -/
  | sdRelease (sdBoot : Word32)
  /-- `PWR_GOOD_CORE_FALL` (R575). PWR_GOOD_CORE falls with rails on and the device acts as at power loss. -/
  | pwrGoodCoreFall
  /-- `RESET_N_FALL` (R584). RESET_N held low starts a cold reset. -/
  | resetNFall
  /-- `RESET_N_RISE` (R584). RESET_N rises and power-on restarts at step 2. -/
  | resetNRise
  /-- `WARM_RESET_N_FALL` (R584). WARM_RESET_N held low starts a warm reset. -/
  | warmResetNFall
  /-- `WARM_RESET_N_RISE` (R584). WARM_RESET_N rises and power-on restarts at step 3. -/
  | warmResetNRise
  /-- `ORDERLY_POWER_DOWN` (R574). Writing MGT_PWR_CTRL.OFF powers the package down in order. -/
  | orderlyPowerDown (who : Who)
  /-- `PMBUS_POLL` (R571). Every 2^18 MCLK cycles regulators are polled into PMC_RAIL. -/
  | pmbusPoll (rails : List RailReading)
  /-- `POWER_CAP_UPDATE` (R576). Every 2^18 MCLK cycles package power is summed and the cap fraction adjusted. -/
  | powerCapUpdate
  /-- `PKG_LIMIT_WRITE` (R576). A write to PMC_LIMIT sets the package limit, discarding out-of-range values. -/
  | pkgLimitWrite (who : Who) (value : Word32)
  /-- `THERMAL_SENSOR_READ` (R579). A die reads its temperature sensors every 2^12 cycles. -/
  | thermalSensorRead (die : Nat) (temp : Nat)
  /-- `THERMAL_SKIP_STEP` (R579). Every 2^16 cycles the thermal skip fraction rises or falls. -/
  | thermalSkipStep (die : Nat)
  /-- `THERMAL_TRIP` (R580). A sensor reaches its trip point, THERMTRIP_N goes low and the device acts as at power loss. -/
  | thermalTrip
  /-- `REFCLK_INVALID` (R583). A reference input is judged invalid and the PLL switches input or enters holdover. -/
  | refclkInvalid (inputB : Bool)
  /-- `HOLDOVER_TIMEOUT` (R583). Holdover lasts 2^28 MCLK cycles and the device acts as at power loss. -/
  | holdoverTimeout
  /-- `SD_LOAD_RELEASE` (R572). Engine starts held under LOAD_WARN_N[4] are released after 3,000 SCLK cycles. -/
  | sdLoadRelease
  /-- `I3C_PRIVATE_WRITE` (R569). A 5-byte I3C private write sets the CSR pointer. -/
  | i3cPrivateWrite (ptr : BitVec 40)
  /-- `I3C_PRIVATE_READ` (R569). An I3C private read returns granted words and advances the pointer. -/
  | i3cPrivateRead (words : Nat)
  /-- `REFCLK_VALID` (R583). The reference monitor judges a failed input valid again, which sets its VALID bit and ends holdover. -/
  | refclkValid (inputB : Bool)
  /-- `OWN_CLAIM_N_RELEASE` (R569). OWN_CLAIM_N goes high, so the claim pin no longer counts as asserted and SEC_STATE.CLAIM_PIN clears. -/
  | ownClaimNRelease
  /-- `TRIMMER_FW_RESTART_DONE` (R22). A Trimmer's machine firmware finishes restarting, and its held RPT queue is dispatched again. -/
  | trimmerFwRestartDone (t : Nat)
  /-- `MIRROR_HEARTBEAT` (R527). SD receives mirror words or a heartbeat from WD, which updates the WIT mirror, resets HB_AGE and clears a WD_DOWN fault. -/
  | mirrorHeartbeat (words : Bool)
  /-- `LOAD_WARN_N_HIGH` (R572). A LOAD_WARN_N bit goes high again 2^13 die-clock cycles after the last held start was released. -/
  | loadWarnNHigh (bit : Nat)
  /-- `SEC_UTIL_PUBLISH` (R498). Every 2^28 MCLK cycles, while R497 applies, the management controller publishes the mean utilisations in SEC_UTIL. -/
  | secUtilPublish (utils : List Nat)
  /-- `PWR_GOOD_CORE_TIMEOUT` (R587). PWR_GOOD_CORE has not risen 2^22 MCLK cycles after the last rail group, so the rails go off in reverse order and the state becomes BOOT_FAIL. -/
  | pwrGoodCoreTimeout
  /-- `MEMORY_CHANNEL_UNFENCE` (R220). The control plane or the management controller lifts the fence of a DRAM channel, HBM pseudo-channel or HBM stack, and the saggars regain its capacity. -/
  | memoryChannelUnfence (who : Who) (unit : MemUnit)
  /-- `CXL_LINK_UP` (R436). An EDGE_C port's CXL link trains at 32 GT/s or above and comes into service. -/
  | cxlLinkUp (port : Nat) (gtps : Nat) (width : Nat)
  /-- `TAP_INSTRUCTION` (R497). An IEEE 1149.1 TAP instruction is loaded, and only IDCODE and BYPASS are accepted unless the device is in the pre-configuration state or TAP_FULL holds. -/
  | tapInstruction (code : Nat)  deriving DecidableEq, Repr

end Sys2Proof
end

