-- ==== Sys2Proof/Decode.lean ====
section
/-! DEFINITION. The command a word spells. No row of the command table gives bits to its command, so no
word spells one. -/

namespace Sys2Proof

/-- The command whose bits, as the table numbers them, are `w`; none, since no row has bits. -/
def decodeTableWord (_nbits _w : Nat) : Option Instr := none

end Sys2Proof
end

