-- ==== Sys2Proof/Config.lean ====
section
/-! DEFINITION. The free values of the model (constants without a body: a claim is true whatever they
are) and the functions the spec names without defining them bit by bit (signatures, key agreement,
ciphers, the random source). -/

namespace Sys2Proof.Config

/-- A value the spec leaves open; the argument is the reading of the free counter of the state, so that
each use is a fresh value. -/
opaque freeNat : Nat → Nat

/-- A byte the spec leaves undefined (R81, R263), fresh for each counter value. -/
opaque freeByte : Nat → Byte

/-- The device's random source (R448, R487, R502, R513), one byte per draw number. -/
opaque random : Nat → Byte

/-- `falconVerify key message signature`: a Falcon-1024 signature in padded form verifies (R461). The
key is the 1,793-byte public key. -/
opaque falconVerify : List Byte → List Byte → List Byte → Bool

/-- Whether the device takes the PROOF of a claim session (R503): it knows the host's key only by the digest
HELLO names, and the spec does not say what it verifies the signature with. Digest, message, signature. -/
opaque claimVerify : List Byte → List Byte → List Byte → Bool

/-- The padded Falcon-1024 signature of the holder named by the first argument (the device key of
R502, the Witness key of R523) over a message. -/
opaque falconSign : List Byte → List Byte → List Byte

/-- The code of the Trimmer machine firmware a part is made with (R98), by its byte in the instruction SRAM. -/
opaque trimmerFirmware : Nat → Byte

/-- The device's Falcon-1024 public key (R502). -/
opaque deviceKey : List Byte

/-- The Witness public key of WD (R523). -/
opaque witnessKey : List Byte

/-- Bolham's firmware public key (R544) and the metrology key of a Witness package (R521). -/
opaque firmwareKey : List Byte

/-- The metrology key that signs Witness firmware (R521). -/
opaque metrologyKey : List Byte

/-- The device certificate of R502, at most 4,096 bytes. -/
opaque deviceCert : List Byte

/-- ML-KEM-1024 encapsulation: key and coins to (ciphertext, shared secret) (R448). -/
opaque mlkemEncaps : List Byte → List Byte → List Byte × List Byte

/-- ML-KEM-1024 key pair from coins: (encapsulation key, decapsulation key) (R494). -/
opaque mlkemKeyGen : List Byte → List Byte × List Byte

/-- ML-KEM-1024 decapsulation: decapsulation key and ciphertext to the shared secret (R495). -/
opaque mlkemDecaps : List Byte → List Byte → List Byte

/-- AES-256-GCM encryption: key, nonce, additional data, plaintext to (ciphertext, tag) (R449). -/
opaque gcmSeal : List Byte → List Byte → List Byte → List Byte → List Byte × List Byte

/-- AES-256-GCM decryption: key, nonce, additional data, ciphertext, tag; none when the tag fails
(R449, R495). -/
opaque gcmOpen : List Byte → List Byte → List Byte → List Byte → List Byte → Option (List Byte)

/-- XTS-AES-256 encryption of one data unit: 64-byte key, 16-byte tweak, plaintext (R488). -/
opaque xtsEncrypt : List Byte → List Byte → List Byte → List Byte

/-- XTS-AES-256 decryption of one data unit (R488). -/
opaque xtsDecrypt : List Byte → List Byte → List Byte → List Byte

/-- One tile of an expert's weights in a step plan: its region, the offset there, the shelf offset it is
staged at, and its bytes; of a coded tile also its table, its blocks and the bytes they take in the region. -/
structure PlanTile where
  region : Nat := 0
  offset : Nat := 0
  shelf : Nat := 0
  bytes : Nat := 0
  table : Nat := 0
  blocks : Nat := 0
  coded : Nat := 0
  deriving DecidableEq, Repr, Inhabited

/-- What a step plan holds for one expert of one layer: its program (projection 0 gate, 1 up, 2 down,
3 other, and a 128-byte record each), the same program on the bisque copy, its tiles in staging order
and those of the bisque copy; where the batch's vectors and gate weights are placed on the shelf; where
the outputs stand and how many bytes each has; bytes of the layer's activation vector. -/
structure PlanProgram where
  records : List (Nat × List Byte) := []
  bisque : List (Nat × List Byte) := []
  tiles : List PlanTile := []
  bisqueTiles : List PlanTile := []
  input : Nat := 0
  gates : Nat := 0
  output : Nat := 0
  outBytes : Nat := 0
  vecBytes : Nat := 0
  deriving DecidableEq, Repr, Inhabited

/-- The reading of a `STEP_PLAN` body for a layer, an expert and one of the two areas its batches use in turn, so
that a batch may be issued while the one before it still runs (R141). The spec gives the section as a plan header
and 128-byte records and does not lay out the header, so the reading is free. -/
opaque planProgram : List Byte → Nat → Nat → Nat → PlanProgram

/-- The `IMMUTABLE` regions a step plan names (R150); free as `planProgram`. -/
opaque planRegions : List Byte → List Nat

/-- `MAXEXP` of a weight tensor's header (R72, R137), by the content digest of the weights' region, the layer,
expert and projection, and whether the bisque copy is meant. The spec lays out no tensor header, so the value is
free. -/
opaque weightMaxexp : List Byte → Nat → Nat → Nat → Bool → Nat

/-- Where the attention routine stages a page and the transposed values on the shelf (R175); the spec does not say,
so the offsets are free. -/
opaque attendPage : Nat
opaque attendValues : Nat

/-- The procedure number and argument bytes of a call record (word 0 [7:0] = 0x80); the record's other
fields are not laid out by the spec, so the reading is free. -/
opaque planCall : List Byte → Nat × List Byte

/-- The device's own node number before an image gives it (FAB_NODE resets to the image's value). -/
def noNode : Nat := 0xFFFF

end Sys2Proof.Config
end

