-- ==== Sys2Proof/Machine/Basic.lean ====
section
/-! DEFINITION. Plain-data tables keyed by number or name, byte lists read little-endian, bit fields,
and saturating counts: the vocabulary every block is written in. -/

namespace Sys2Proof.Machine

/-- A finite table: the first pair with a key is the key's entry. -/
abbrev Assoc (κ α : Type) := List (κ × α)

/-- The entry of `k`, or `d` where the table has none. -/
def aget {κ α : Type} [DecidableEq κ] (m : Assoc κ α) (k : κ) (d : α) : α :=
  match m with
  | [] => d
  | (k', v) :: r => if k' = k then v else aget r k d

/-- The entry of `k`, if any. -/
def afind {κ α : Type} [DecidableEq κ] (m : Assoc κ α) (k : κ) : Option α :=
  match m with
  | [] => none
  | (k', v) :: r => if k' = k then some v else afind r k

/-- The table with `v` as the entry of `k`. -/
def aset {κ α : Type} [DecidableEq κ] (m : Assoc κ α) (k : κ) (v : α) : Assoc κ α :=
  match m with
  | [] => [(k, v)]
  | (k', v') :: r => if k' = k then (k, v) :: r else (k', v') :: aset r k v

/-- The table without any entry of `k`. -/
def aerase {κ α : Type} [DecidableEq κ] (m : Assoc κ α) (k : κ) : Assoc κ α :=
  m.filter (fun p => p.1 ≠ k)

/-- The table with the entry of `k` changed by `f`, starting from `d`. -/
def amod {κ α : Type} [DecidableEq κ] (m : Assoc κ α) (k : κ) (d : α) (f : α → α) : Assoc κ α :=
  aset m k (f (aget m k d))

/-- Whether the table has an entry of `k`. -/
def ahas {κ α : Type} [DecidableEq κ] (m : Assoc κ α) (k : κ) : Bool := (afind m k).isSome

/-- Bits `[lo + width - 1 : lo]` of a number. -/
def bits (n lo width : Nat) : Nat := n / 2 ^ lo % 2 ^ width

/-- Bit `i` of a number. -/
def bit (n i : Nat) : Bool := bits n i 1 = 1

/-- 1 for true, 0 for false. -/
def b2n (b : Bool) : Nat := if b then 1 else 0

/-- The number of a little-endian byte list. -/
def leNat : List Byte → Nat
  | [] => 0
  | b :: r => b.toNat + 256 * leNat r

/-- The `n` little-endian bytes of a number. -/
def natLe (v : Nat) : Nat → List Byte
  | 0 => []
  | n + 1 => BitVec.ofNat 8 v :: natLe (v / 256) n

/-- `n` bytes of a list from offset `off`; bytes beyond the end are left out. -/
def sub (bs : List Byte) (off n : Nat) : List Byte := (bs.drop off).take n

/-- The little-endian number in bytes `[off, off + n)`. -/
def le (bs : List Byte) (off n : Nat) : Nat := leNat (sub bs off n)

/-- `n` zero bytes. -/
def zeros (n : Nat) : List Byte := List.replicate n 0

/-- A list cut or padded with zeros to `n` bytes. -/
def fit (bs : List Byte) (n : Nat) : List Byte := bs.take n ++ zeros (n - bs.length)

/-- A list padded with zeros to a multiple of 8 bytes. -/
def pad8 (bs : List Byte) : List Byte := bs ++ zeros ((8 - bs.length % 8) % 8)

/-- `bs` with `new` laid over it from offset `off`; the length of `bs` stands. -/
def overlay (bs : List Byte) (off : Nat) (new : List Byte) : List Byte :=
  (bs.take off ++ new ++ bs.drop (off + new.length)).take bs.length

/-- The bytes of an ASCII string. -/
def ascii (s : String) : List Byte := s.toList.map (fun c => BitVec.ofNat 8 c.toNat)

/-- One more, stopping at the all-ones value of `width` bits (R12, R549). -/
def satAdd (width v n : Nat) : Nat := min (v + n) (2 ^ width - 1)

/-- A 64-bit word as a signed number. -/
def signed64 (n : Nat) : Int := if n < 2 ^ 63 then (n : Int) else (n : Int) - 2 ^ 64

/-- A number of `w` bits as a signed number. -/
def signedW (w n : Nat) : Int := if n % 2 ^ w < 2 ^ (w - 1) then ((n % 2 ^ w : Nat) : Int) else ((n % 2 ^ w : Nat) : Int) - 2 ^ w

/-- The low `w` bits of a signed number. -/
def unsignedW (w : Nat) (i : Int) : Nat := (i % (2 ^ w : Int)).toNat

/-- `[0, 1, …, n - 1]` summed over a weight: used for populations. -/
def countIf {α : Type} (l : List α) (p : α → Bool) : Nat := (l.filter p).length

/-- Ceiling division. -/
def ceilDiv (a b : Nat) : Nat := (a + b - 1) / b

/-- `later a b` of R27: `a` is after `b` on the 32-bit logical clock. -/
def later (a b : Nat) : Bool :=
  let d := (a + 2 ^ 32 - b % 2 ^ 32) % 2 ^ 32
  decide (1 ≤ d ∧ d ≤ 2 ^ 31 - 1)

/-- The bitwise exclusive or of two byte lists of one length. -/
def xorBytes (a b : List Byte) : List Byte := List.zipWith (· ^^^ ·) a b

end Sys2Proof.Machine
end

