-- ==== Sys2Proof/Machine/Digest.lean ====
section
/-! DEFINITION. The two digests the spec computes everywhere: CRC-32C (R197, R330, R344) and SHAKE256
(R460). Both are the published functions of those names. -/

namespace Sys2Proof.Machine

/-- One bit step of the reflected CRC-32C register (polynomial 0x1EDC6F41, reflected 0x82F63B78). -/
def crcBit (c : BitVec 32) : BitVec 32 :=
  if c.getLsbD 0 then (c >>> 1) ^^^ 0x82F63B78 else c >>> 1

/-- One byte step of CRC-32C. -/
def crcByte (c : BitVec 32) (b : Byte) : BitVec 32 :=
  crcBit (crcBit (crcBit (crcBit (crcBit (crcBit (crcBit (crcBit (c ^^^ b.zeroExtend 32))))))))

/-- CRC-32C of a byte list. -/
def crc32c (bs : List Byte) : Word32 := (bs.foldl crcByte 0xFFFFFFFF) ^^^ 0xFFFFFFFF

/-! SHAKE256's permutation, from its definition: the round constants are the output of a shift register,
the rotations the triangular numbers along the walk of the lanes. A state is 25 lanes, lane x of plane y
at place 5 y + x. -/

/-- One step of the register that the round constants are read from. -/
def rcStep (r : Nat) : Nat := if r / 128 = 0 then 2 * r else (2 * r) ^^^ 0x171

/-- Seven output bits of the register at the places 2^j - 1, and the register after them. -/
def rcWord (r : Nat) : Nat × Nat :=
  [0, 1, 3, 7, 15, 31, 63].foldl (fun (acc : Nat × Nat) place => (acc.1 + acc.2 % 2 * 2 ^ place, rcStep acc.2)) (0, r)

/-- The constants of `n` rounds from a register. -/
def rcList : Nat → Nat → List (BitVec 64)
  | 0, _ => []
  | n + 1, r => BitVec.ofNat 64 (rcWord r).1 :: rcList n (rcWord r).2

/-- The walk of the lanes: from (1, 0) each step goes from (x, y) to (y, 2 x + 3 y), and turns lane `t` of
the walk by the triangular number of `t + 1`. Each entry is a target place with its source and turn. -/
def laneWalk : Nat → Nat → Nat → Nat → Assoc Nat (Nat × Nat)
  | 0, _, _, _ => []
  | n + 1, t, x, y => let z := (2 * x + 3 * y) % 5
    (5 * z + y, 5 * y + x, (t + 1) * (t + 2) / 2 % 64) :: laneWalk n (t + 1) y z

/-- Where each lane comes from and by how much it turns; lane 0 stays. -/
def laneMoves : List (Nat × Nat) := (List.range 25).map (fun i => aget (laneWalk 24 0 1 0) i (0, 0))

/-- The lanes of plane `y`. -/
def plane (a : List (BitVec 64)) (y : Nat) : List (BitVec 64) := (a.drop (5 * y)).take 5

/-- A plane turned left by `k` places. -/
def turnPlane (k : Nat) (r : List (BitVec 64)) : List (BitVec 64) := r.drop k ++ r.take k

/-- The mixing of columns: every plane takes, in each column, the parities of the columns beside it. -/
def mixColumns (a : List (BitVec 64)) : List (BitVec 64) :=
  let parity := ([1, 2, 3, 4].map (plane a)).foldl (List.zipWith (· ^^^ ·)) (plane a 0)
  let beside := List.zipWith (fun l r => l ^^^ r.rotateLeft 1) (turnPlane 4 parity) (turnPlane 1 parity)
  [0, 1, 2, 3, 4].flatMap (fun y => List.zipWith (· ^^^ ·) (plane a y) beside)

/-- The moving and turning of lanes. -/
def moveLanes (a : List (BitVec 64)) : List (BitVec 64) := laneMoves.map (fun m => (a.getD m.1 0).rotateLeft m.2)

/-- The one step that is not linear, within each plane. -/
def mixPlanes (a : List (BitVec 64)) : List (BitVec 64) :=
  [0, 1, 2, 3, 4].flatMap (fun y => let r := plane a y
    List.zipWith (· ^^^ ·) r (List.zipWith (fun u v => ~~~u &&& v) (turnPlane 1 r) (turnPlane 2 r)))

/-- One round. -/
def keccakRound (a : List (BitVec 64)) (rc : BitVec 64) : List (BitVec 64) :=
  let q := mixPlanes (moveLanes (mixColumns a))
  List.zipWith (· ^^^ ·) q (rc :: List.replicate 24 0)

/-- The permutation: 24 rounds. -/
def keccakF (a : List (BitVec 64)) : List (BitVec 64) := (rcList 24 1).foldl keccakRound a

/-- The 8-byte lanes of a byte list. -/
def lanesOf (bs : List Byte) (n : Nat) : List (BitVec 64) :=
  (List.range n).map (fun i => BitVec.ofNat 64 (le bs (8 * i) 8))

/-- Absorb one 136-byte block. -/
def keccakAbsorb (a : List (BitVec 64)) (block : List Byte) : List (BitVec 64) :=
  keccakF (List.zipWith (· ^^^ ·) a (lanesOf block 17 ++ List.replicate 8 0))

/-- A list cut into `k` blocks of `n` bytes. -/
def blocks (bs : List Byte) (n : Nat) : Nat → List (List Byte)
  | 0 => []
  | k + 1 => bs.take n :: blocks (bs.drop n) n k

/-- The padded message of SHAKE256 with rate 136 bytes. -/
def shakePad (bs : List Byte) : List Byte :=
  let q := 136 - bs.length % 136
  if q = 1 then bs ++ [0x9F] else bs ++ [0x1F] ++ zeros (q - 2) ++ [0x80]

/-- `k` squeezed blocks of 136 bytes from a state. -/
def squeeze (a : List (BitVec 64)) : Nat → List Byte
  | 0 => []
  | k + 1 => ((a.take 17).map (fun w => natLe w.toNat 8)).flatten ++ squeeze (keccakF a) k

/-- SHAKE256 with an output of `n` bytes. -/
def shake256 (bs : List Byte) (n : Nat) : List Byte :=
  let p := shakePad bs
  let a := (blocks p 136 (p.length / 136)).foldl keccakAbsorb (List.replicate 25 0)
  (squeeze a (ceilDiv n 136)).take n

/-- SHAKE256 with the 256-bit output of an image digest (R460). -/
def digest (bs : List Byte) : List Byte := shake256 bs 32

end Sys2Proof.Machine
end

