-- ==== Sys2Proof/Machine/Image.lean ====
section
/-! DEFINITION. The configuration image: its header, directory and bodies as parsed from a slice
(R458 to R462), and every reading of a body that other blocks make (R463 to R468, R505). Bodies stay
byte lists, read by the layout tables of the spec. -/

namespace Sys2Proof.Machine

/-- A directory entry (R459) with its body where the slice, or the configuration in force, carries it. -/
structure Section where
  ty : Nat := 0
  scope : Nat := 0
  saggar : Nat := 0
  prot : Bool := false
  node : Nat := 0xFFFF
  sver : Nat := 1
  comp : Nat := 0
  len : Nat := 0
  dig : List Byte := []
  body : Option (List Byte) := none
  deriving DecidableEq, Repr

/-- An image: header bytes 0 to 127 (R458), the whole directory, the signatures of R461. -/
structure Image where
  header : List Byte := []
  sections : List Section := []
  dirBytes : List Byte := []
  sigs : List (List Byte × List Byte) := []
  deriving DecidableEq, Repr

/-- Section type codes of R462. -/
def tyNODES := 0x0001
def tySYS := 0x0002
def tyCOMPOSITION := 0x0003
def tyDOMAINS := 0x0004
def tyPORTS := 0x0010
def tyROUTES := 0x0011
def tyQOS := 0x0012
def tyNODEPARAMS := 0x0013
def tySAGMAP := 0x0020
def tyPROTECTION := 0x0030
def tyWITNESS := 0x0031
def tySAGPARAMS := 0x0040
def tyREGIONS := 0x0041
def tyRPT := 0x0042
def tyPROGRAM := 0x0043
def tySTEPPLAN := 0x0044
def tyEXPERTMAP := 0x0045
def tyCODEC := 0x0046
def tyGATHER := 0x0047
def tySIEVE := 0x0048

/-- The scope and protection bit each section type carries (R462); none for a type not listed. -/
def sectionScope (ty : Nat) : Option (Nat × Bool) :=
  if ty = tyNODES ∨ ty = tySYS then some (0, false)
  else if ty = tyCOMPOSITION ∨ ty = tyDOMAINS then some (3, false)
  else if ty = tyPORTS ∨ ty = tyROUTES ∨ ty = tyQOS ∨ ty = tyNODEPARAMS then some (1, false)
  else if ty = tySAGMAP then some (1, true)
  else if ty = tyPROTECTION ∨ ty = tyWITNESS then some (0, true)
  else if tySAGPARAMS ≤ ty ∧ ty ≤ tySIEVE then some (2, false)
  else none

namespace Image

/-- `MAGIC` and the other header fields of R458. -/
def magic (im : Image) : Nat := le im.header 0 4
def ifmt (im : Image) : Nat := le im.header 4 2
def kind (im : Image) : Nat := le im.header 6 1
def acv (im : Image) : Nat := le im.header 7 1
def targets (im : Image) : Nat := le im.header 8 1
def epoch (im : Image) : Nat := le im.header 10 2
def nSect (im : Image) : Nat := le im.header 12 4
def serial (im : Image) : Nat := le im.header 16 8
def baseDigest (im : Image) : List Byte := sub im.header 24 32
def sliceNode (im : Image) : Nat := le im.header 64 2
def dirOff (im : Image) : Nat := le im.header 72 8
def sigOff (im : Image) : Nat := le im.header 80 8
def totalLen (im : Image) : Nat := le im.header 88 8

/-- The image digest of R460: header bytes 0 to 63 and the whole directory. -/
def imgDigest (im : Image) : List Byte := digest (sub im.header 0 64 ++ im.dirBytes)

/-- The section of a type, for a scope key; node, saggar and composition as the scope needs them. -/
def find (im : Image) (ty node saggar comp : Nat) : Option Section :=
  im.sections.find? (fun c => c.ty = ty ∧ (c.scope ≠ 1 ∨ c.node = node) ∧
    (c.scope ≠ 2 ∨ c.saggar = saggar) ∧ (c.scope < 2 ∨ c.comp = comp))

/-- The body of that section, empty where there is none. -/
def bodyOf (im : Image) (ty node saggar comp : Nat) : List Byte :=
  ((im.find ty node saggar comp).bind (·.body)).getD []

end Image

/-- One directory entry of 48 bytes (R459). -/
def parseEntry (e : List Byte) : Section :=
  { ty := le e 0 2, scope := le e 2 1, saggar := bits (le e 3 1) 0 6, prot := bit (le e 3 1) 6,
    node := le e 4 2, sver := le e 6 2, comp := le e 8 3, len := le e 12 4, dig := sub e 16 32 }

/-- The sort key of a directory entry (R459). -/
def Section.key (c : Section) : List Nat := [c.ty, c.scope, c.comp, c.node, c.saggar]

/-- Lexicographic order of sort keys. -/
def keyLt : List Nat → List Nat → Bool
  | a :: r, b :: t => decide (a < b) || (a = b && keyLt r t)
  | _, _ => false

/-- Consecutive entries strictly ascend. -/
def ascending {α : Type} (lt : α → α → Bool) : List α → Bool
  | a :: b :: r => lt a b && ascending lt (b :: r)
  | _ => true

/-- Whether a section covers a node whose compositions are `comps` (R460). -/
def Section.covers (c : Section) (node : Nat) (comps : List Nat) : Bool :=
  match c.scope with
  | 0 => true
  | 1 => c.node = node
  | _ => comps.contains c.comp

/-- The body length a type allows (R462 to R468). -/
def bodyLenOk (ty len : Nat) : Bool :=
  if ty = tyPORTS then decide (2048 ≤ len) && ((len - 2048) % 144 = 0)
  else if ty = tyROUTES then len = 65536 * 4
  else if ty = tyQOS then len = 512 * 32 + 16 * 48
  else if ty = tySAGMAP then len = 64 * 576
  else if ty = tyREGIONS then len % 144 = 0
  else if ty = tyRPT then len = 0xFF0 * 8
  else if ty = tyPROGRAM then decide (32 ≤ len)
  else if ty = tyEXPERTMAP then decide (16 ≤ len) && (len % 16 = 0)
  else if ty = tyCODEC ∨ ty = tySIEVE then len % 16 = 0
  else len % 8 = 0

/-- Form of one directory entry: type known, scope and protection bit as listed, unused keys at their
fixed values, reserved bits zero, version and body length right (R459, R462). -/
def entryFormOk (e : List Byte) : Bool :=
  let c := parseEntry e
  match sectionScope c.ty with
  | none => false
  | some (sc, pr) =>
    c.scope = sc && (c.prot = pr) && !bit (le e 3 1) 7 && (le e 11 1 = 0) && (c.sver = 1)
      && (sc = 2 || c.saggar = 0) && (sc = 1 || c.node = 0xFFFF) && (decide (2 ≤ sc) || c.comp = 0)
      && bodyLenOk c.ty c.len

/-- Signature entries of R461. -/
def parseSigs (b : List Byte) : List (List Byte × List Byte) :=
  (List.range (le b 0 8)).map (fun i => (sub b (8 + 1312 * i) 32, sub b (8 + 1312 * i + 32) 1280))

/-- Parse a slice. The Bool says whether its form is right (cause 0x1 of R469 otherwise). -/
def parseImage (file : List Byte) : Image × Bool :=
  let h := sub file 0 128
  let n := le h 12 4
  let dOff := le h 72 8
  let sOff := le h 80 8
  let dir := sub file dOff (48 * n)
  let tab := dOff + 48 * n
  let ents := (List.range n).map (fun i => sub dir (48 * i) 48)
  let secs := (List.range n).map (fun i =>
    let c := parseEntry (sub dir (48 * i) 48)
    let off := le file (tab + 8 * i) 8
    { c with body := if off = 0 then none else some (sub file off c.len) })
  let im : Image := { header := h, sections := secs, dirBytes := dir, sigs := parseSigs (file.drop sOff) }
  let nsig := le file sOff 8
  let kindOk := (le h 6 1 = 0 && (sub h 24 32).all (· = 0)) || (le h 6 1 = 1 && le h 10 2 = 0)
  let zeroOk := le h 9 1 = 0 && le h 56 8 = 0 && le h 66 6 = 0 && (sub h 96 32).all (· = 0)
  let bodyOk := (List.range n).all (fun i =>
    let off := le file (tab + 8 * i) 8
    off = 0 || (off % 8 = 0 && decide (tab + 8 * n ≤ off) && decide (off + le file (dOff + 48 * i + 12) 4 ≤ sOff)))
  let ok := le h 0 4 = 0x474D4950 && le h 4 2 = 1 && kindOk && zeroOk && decide (1 ≤ n ∧ n ≤ 2 ^ 20)
    && decide (1 ≤ le h 16 8) && dOff = 128 && decide (tab + 8 * n ≤ sOff) && (le h 88 8 = file.length)
    && (sOff + 8 + 1312 * nsig = file.length) && decide (1 ≤ nsig ∧ nsig ≤ 8)
    && ents.all entryFormOk && ascending keyLt (secs.map Section.key) && bodyOk
  (im, ok)

/-! ## Parameter lists (R463) -/

/-- The key and 48-bit value pairs of a parameter list body. -/
def paramsOf (b : List Byte) : List (Nat × Nat) :=
  (List.range (b.length / 8)).map (fun i => (le b (8 * i) 2, le b (8 * i + 2) 6))

/-- The parameter table of R463: key, section type, lowest and highest value, default (none where the
key is required). Ranges that depend on other values are checked by `paramRangeOk`. -/
def paramTable : List (Nat × Nat × Nat × Nat × Option Nat) :=
  [(0x0001, tySYS, 0, 0xFFFE, none), (0x0002, tySYS, 0, 0xFFFE, none), (0x0003, tySYS, 12, 24, some 16),
   (0x0004, tySYS, 24, 30, some 25), (0x0005, tySYS, 24, 32, some 30),
   (0x0101, tyCOMPOSITION, 1, 2 ^ 32 - 1, none), (0x0102, tyCOMPOSITION, 1, 3, some 2),
   (0x0103, tyCOMPOSITION, 0, 2 ^ 32 - 1, some (2 ^ 32 - 1)), (0x0104, tyCOMPOSITION, 0, 2 ^ 48 - 1, some 0),
   (0x0105, tyCOMPOSITION, 0, 0xFFFF, some 0), (0x0106, tyCOMPOSITION, 0, 0xFFFF, some 1),
   (0x0107, tyCOMPOSITION, 24, 40, some 32)]
  ++
  [(0x0201, tyNODEPARAMS, 8, 1024, some 128), (0x0202, tyNODEPARAMS, 64, 65536, some 1024),
   (0x0203, tyNODEPARAMS, 0, 24, some 8), (0x0204, tyNODEPARAMS, 0, 1024, some 64),
   (0x0205, tyNODEPARAMS, 0, 65536, some 4096), (0x0206, tyNODEPARAMS, 2 ^ 16, 2 ^ 24, some (2 ^ 22)),
   (0x0207, tyNODEPARAMS, 0, 65536, some 1024), (0x0208, tyNODEPARAMS, 1, 384, some 64),
   (0x0209, tyNODEPARAMS, 24, 32, some 27), (0x020A, tyNODEPARAMS, 1, 1023, some 180),
   (0x020B, tyNODEPARAMS, 1, 255, some 12), (0x020C, tyNODEPARAMS, 1, 1023, some 120),
   (0x020D, tyNODEPARAMS, 1, 255, some 8), (0x020E, tyNODEPARAMS, 0, 100, some 20),
   (0x020F, tyNODEPARAMS, 0, 0xFFFF, some 0xFFFF), (0x0210, tyNODEPARAMS, 7, 50, some 12),
   (0x0211, tyNODEPARAMS, 2, 1024, some 32), (0x0212, tyNODEPARAMS, 3, 2048, some 64),
   (0x0213, tyNODEPARAMS, 0, 1024, some 0), (0x0214, tyNODEPARAMS, 64, 65536, some 4096),
   (0x0215, tyNODEPARAMS, 0, 0xFFFE, none)]
  ++
  [(0x0301, tySAGPARAMS, 1, 65535, some 256), (0x0302, tySAGPARAMS, 0, 255, some 0),
   (0x0303, tySAGPARAMS, 1, 8, some 2), (0x0304, tySAGPARAMS, 1, 64, some 16),
   (0x0305, tySAGPARAMS, 1, 65535, some 256), (0x0306, tySAGPARAMS, 1, 65535, some 256),
   (0x0307, tySAGPARAMS, 1, 65535, some 128), (0x0308, tySAGPARAMS, 1, 2 ^ 20, some 4096),
   (0x0309, tySAGPARAMS, 1, 2 ^ 20, some 65536), (0x030A, tySAGPARAMS, 0, 288, some 0),
   (0x030B, tySAGPARAMS, 2 ^ 10, 2 ^ 32, some (2 ^ 24)), (0x030C, tySAGPARAMS, 1, 65535, some 1024),
   (0x030D, tySAGPARAMS, 0, 4095, some 0x40), (0x030E, tySAGPARAMS, 0, 4095, some 0x08),
   (0x030F, tySAGPARAMS, 0, 4095, some 0x40), (0x0310, tySAGPARAMS, 0, 4095, some 0x08)]

/-- The default of a key, 0 for a required or unknown one. -/
def paramDefault (key : Nat) : Nat :=
  match paramTable.find? (fun r => r.1 = key) with
  | some (_, _, _, _, some d) => d
  | _ => 0

/-- A parameter of a parameter list, or its default (R463). -/
def paramIn (b : List Byte) (key : Nat) : Nat :=
  match (paramsOf b).find? (fun p => p.1 = key) with
  | some p => p.2
  | none => paramDefault key

/-- The part of a `COMPOSITION` body that is its parameter list: the entries after the head whose key
has the high byte 0x01, up to the member list. -/
def compParams (b : List Byte) : List Byte :=
  let m := ceilDiv (2 * (le b 0 2 + le b 2 2)) 8 * 8
  (b.drop 8).take (b.length - 8 - m)

/-- The member nodes of a composition, in member order (R128). -/
def compMembers (b : List Byte) : List Nat :=
  let off := 8 + (compParams b).length
  (List.range (le b 0 2)).map (fun i => le b (off + 2 * i) 2)

/-- The Vuvel endpoints of a composition, ascending (R128). -/
def compEndpoints (b : List Byte) : List Nat :=
  let off := 8 + (compParams b).length + 2 * le b 0 2
  (List.range (le b 2 2)).map (fun i => le b (off + 2 * i) 2)

/-! ## Saggar records (R466) -/

/-- Record `g` of a `SAGGAR_MAP` body. -/
def sagRec (b : List Byte) (g : Nat) : List Byte := sub b (576 * g) 576

/-- Bit `i` of a bit string held from byte `off`. -/
def bitAt (r : List Byte) (off i : Nat) : Bool := bit (r.getD (off + i / 8) 0).toNat (i % 8)

def recExists (r : List Byte) : Bool := bit (le r 0 1) 0
def recConf (r : List Byte) : Bool := bit (le r 0 1) 1
def recPerfUser (r : List Byte) : Bool := bit (le r 0 1) 2
def recMetered (r : List Byte) : Bool := bit (le r 0 1) 3
def recAcv (r : List Byte) : Nat := le r 1 1
def recComp (r : List Byte) : Nat := le r 2 3
def recRegionLo (r : List Byte) : Nat := le r 8 4
def recRegionHi (r : List Byte) : Nat := le r 12 4
def recQ (r : List Byte) : Nat := le r 16 2
def recBurstD (r : List Byte) : Nat := le r 18 2
def recShape (r : List Byte) : Nat := le r 20 4
def recShapeBurst (r : List Byte) : Nat := le r 24 4
def recDramGib (r : List Byte) : Nat := le r 28 4
def recFlashGib (r : List Byte) : Nat := le r 32 4
def recPugShare (r : List Byte) : Nat := le r 36 2
def recSivShare (r : List Byte) : Nat := le r 38 1
def recSwcQuota (r : List Byte) : Nat := le r 39 1
def recShelfMib (r : List Byte) (die : Nat) : Nat := if die < 4 then le r (40 + die) 1 else 0
def recHbmPc (r : List Byte) (i : Nat) : Bool := bitAt r 64 i
def recArray (r : List Byte) (a : Nat) : Bool := bitAt r 128 a
def recAttnArray (r : List Byte) (a : Nat) : Bool := bitAt r 320 a
def recTrimmer (r : List Byte) (t : Nat) : Bool := bitAt r 512 t
def recAttnTrimmer (r : List Byte) (t : Nat) : Bool := bitAt r 528 t

/-! ## Ports, routes, traffic (R464, R465, R394) -/

/-- Port record `p` of a `PORTS` body (R464). -/
def portRec (b : List Byte) (p : Nat) : List Byte := sub b (32 * p) 32
def portRole (r : List Byte) : Nat := bits (le r 0 1) 0 2
def portSpareOk (r : List Byte) : Bool := bit (le r 0 1) 4
def portDweah (r : List Byte) : Bool := bit (le r 0 1) 5
def portDateline (r : List Byte) : Bool := bit (le r 0 1) 6
def portDim (r : List Byte) : Nat := bits (le r 1 1) 0 2
def portNeighbour (r : List Byte) : Nat := le r 2 2
def portNeighbourPort (r : List Byte) : Nat := le r 4 1
def portLdCount (r : List Byte) : Nat := le r 5 1
def portGrants (r : List Byte) (saggar : Nat) : Bool := bitAt r 8 saggar

/-- One LD record of an `EDGE_C` port (R464). -/
structure LdRec where
  port : Nat
  ld : Nat
  saggar : Nat
  endpoint : Nat
  windows : List (Nat × Nat × Nat)
  deriving DecidableEq, Repr

/-- The LD records of a `PORTS` body. -/
def ldRecs (b : List Byte) : List LdRec :=
  (List.range ((b.length - 2048) / 144)).map (fun i =>
    let r := sub b (2048 + 144 * i) 144
    let h := le r 0 8
    { port := bits h 0 6, ld := bits h 8 4, saggar := bits h 16 6, endpoint := bits h 32 16,
      windows := (List.range 8).map (fun w => (le r (16 + 16 * w) 4, le r (20 + 16 * w) 4, le r (24 + 16 * w) 4)) })

/-- The route entry of a node (R394), a 32-bit word. -/
def routeEntry (b : List Byte) (node : Nat) : Nat := le b (4 * node) 4

/-- Port-and-class record p × 8 + c of a `QOS` body (R465). -/
def qosRec (b : List Byte) (p c : Nat) : List Byte := sub b (32 * (8 * p + c)) 32

/-- RED set `i` of a `QOS` body, colour 0 green, 1 yellow, 2 red. -/
def redSet (b : List Byte) (i colour : Nat) : List Byte := sub b (512 * 32 + 48 * i + 16 * colour) 16

/-- A coherent-domain record (R369). -/
structure DomainRec where
  id : Nat
  members : List Nat
  agents : List Nat
  deriving DecidableEq, Repr

/-- The records of a `DOMAINS` body; `fuel` bounds their number. -/
def domainRecs (b : List Byte) : Nat → List DomainRec
  | 0 => []
  | fuel + 1 =>
    if b.length < 8 then [] else
      let h := le b 0 8
      let m := bits h 16 7
      let a := bits h 32 11
      let n := 8 + ceilDiv (2 * (m + a)) 8 * 8
      { id := bits h 0 16, members := (List.range m).map (fun i => le b (8 + 2 * i) 2),
        agents := (List.range a).map (fun i => le b (8 + 2 * m + 2 * i) 2) } :: domainRecs (b.drop n) fuel

/-! ## Nodes, RPT tables, expert maps, protection -/

/-- The `NODES` records: node, variant (0 for an endpoint), edge Plofen (R462). -/
def nodeRecs (b : List Byte) : List (Nat × Nat × Nat) :=
  (List.range (b.length / 8)).map (fun i => (le b (8 * i) 2, le b (8 * i + 2) 1, le b (8 * i + 3) 2))

/-- An RPT table entry (R348). -/
def rptEntry (b : List Byte) (proc : Nat) : Nat := le b (8 * proc) 8
def rptValid (e : Nat) : Bool := bit e 0
def rptCompOnly (e : Nat) : Bool := bit e 1
def rptTrimmer (e : Nat) : Nat := bits e 12 7
def rptHandler (e : Nat) : Nat := bits e 32 18
def rptArgMax (e : Nat) : Nat := bits e 50 9

/-- Layers and experts per layer of an expert map (R468). -/
def expLayers (b : List Byte) : Nat := le b 0 2
def expPerLayer (b : List Byte) : Nat := le b 2 2

/-- One entry of an expert map (R135, R468). -/
structure ExpertEntry where
  home : Nat
  replica : Nat
  wFmt : Nat
  bisqueFmt : Nat
  policy : Nat
  cutFrac : Nat
  bcloseFrac : Nat
  maxexpA : Nat
  region : Nat
  deriving DecidableEq, Repr

/-- The entry of layer `l` and expert `e`. -/
def expertEntry (b : List Byte) (l e : Nat) : ExpertEntry :=
  let r := sub b (16 + (l * expPerLayer b + e) * 16) 16
  { home := le r 0 2, replica := le r 2 2, wFmt := bits (le r 4 1) 0 4, bisqueFmt := bits (le r 4 1) 4 4,
    policy := bits (le r 5 1) 0 2, cutFrac := le r 6 2, bcloseFrac := le r 8 2, maxexpA := le r 10 2,
    region := le r 12 4 }

/-- An enrolled key slot of the `PROTECTION` section (R505): role 1 operator, 2 tenant, 3 authority. -/
structure KeySlot where
  role : Nat
  mask : Nat
  key : List Byte
  deriving DecidableEq, Repr

/-- The enrolled keys of a `PROTECTION` body. -/
def keySlots (b : List Byte) : List KeySlot :=
  (List.range (bits (le b 0 8) 0 6 + if bits (le b 0 8) 0 6 = 0 then 64 else 0)).map (fun i =>
    let r := sub b (8 + 1816 * i) 1816
    { role := bits (le r 0 8) 0 2, mask := le r 8 8, key := sub r 16 1793 })

/-- The saggar records of a `PROTECTION` body: saggar, key slot, `REATTEST`, `MEM_SHARE` (R505). -/
def protRecs (b : List Byte) : List (Nat × Nat × Bool × Nat) :=
  let n := (keySlots b).length
  (List.range (bits (le b 0 8) 8 6)).map (fun i =>
    let w := le b (8 + 1816 * n + 8 * i) 8
    (bits w 0 6, bits w 8 6, bit w 16, bits w 24 6))

end Sys2Proof.Machine
end

