-- ==== Sys2Proof/Machine/StateControl.lean ====
section
/-! DEFINITION. The state of the control and management planes: logical clock and planes, Kiln log,
configuration image and epochs, security, integrity and firmware. Every field's initial value is its
value at reset. -/

namespace Sys2Proof.Machine

/-- The statuses of R13, in the order their numbers give. -/
inductive Status where
  | ok | okSuperseded | nackRetry | nackFenced | nackStaleEpoch | nackNotOwner | nackConflict
  | nackUnknown | poison | damaged | overflow | unitAbsent | denied
  deriving DecidableEq, Repr

/-- The number of a status (R13, R329). -/
def Status.code : Status → Nat
  | .ok => 0 | .okSuperseded => 1 | .nackRetry => 2 | .nackFenced => 3 | .nackStaleEpoch => 4
  | .nackNotOwner => 5 | .nackConflict => 6 | .nackUnknown => 7 | .poison => 8 | .damaged => 9
  | .overflow => 10 | .unitAbsent => 11 | .denied => 12

/-- The status of a number, if it names one. -/
def Status.ofCode : Nat → Option Status
  | 0 => some .ok | 1 => some .okSuperseded | 2 => some .nackRetry | 3 => some .nackFenced
  | 4 => some .nackStaleEpoch | 5 => some .nackNotOwner | 6 => some .nackConflict
  | 7 => some .nackUnknown | 8 => some .poison | 9 => some .damaged | 10 => some .overflow
  | 11 => some .unitAbsent | 12 => some .denied | _ => none

/-- The four variants (R3). -/
inductive Variant where
  | plf8af | plf8a | plf4af | plf0pf
  deriving DecidableEq, Repr

/-- The state of a processor plane, as `PLANE_STATE` codes it. -/
inductive PlaneRun where
  | off | boot | run | restart
  deriving DecidableEq, Repr

/-- A 64-bit performance counter (R560): 48-bit count and overflow bit. -/
structure Ctr where
  count : Nat := 0
  ovf : Bool := false
  deriving DecidableEq, Repr

/-- The fence of a unit: whether it is fenced and the recorded cause. -/
structure FenceSt where
  on : Bool := false
  cause : Nat := 0
  deriving DecidableEq, Repr

/-- The writing plane of a log entry (R19, R590). -/
inductive Plane where
  | data | control | management
  deriving DecidableEq, Repr

/-- A Kiln log entry (R550). -/
structure LogEntry where
  code : Nat := 0
  sev : Nat := 0
  plane : Plane := .data
  sag : Option Nat := none
  unit : Nat := 0
  suppressed : Nat := 0
  mclk : Nat := 0
  step : Nat := 2 ^ 64 - 1
  lc : Nat := 0
  seq : Nat := 0
  payload : List Nat := []
  deriving DecidableEq, Repr

/-- Logical clock, counter latches and processor planes (chapter 01). -/
structure Arch where
  /-- The 32-bit logical clock (R27). -/
  lc : Nat := 0
  /-- The counter latch of each requester (R29, R512): the words still latched, by address. -/
  latches : Assoc Who (List (Nat × Word32)) := []
  /-- `PLANE_STATE.CP_STATE` and `MP_STATE`. -/
  cp : PlaneRun := .off
  mp : PlaneRun := .off
  deriving DecidableEq, Repr

/-- A stored copy of the first log area (R556). -/
structure LogCopy where
  slots : Assoc Nat LogEntry := []
  firstN : Nat := 0
  firstSeq : Nat := 0
  head : Nat := 0
  deriving DecidableEq, Repr

/-- The Kiln log (chapter 21). -/
structure Log where
  /-- The 32,768 slots; a slot without an entry is empty. -/
  slots : Assoc Nat LogEntry := []
  firstN : Nat := 0
  nextSlot : Nat := 0x1000
  wrapped : Bool := false
  head : Nat := 0
  firstSeq : Nat := 0
  storeBusy : Bool := false
  stored : Bool := false
  /-- `LOG_CUR.WIN` of each requester. -/
  cur : Assoc Who Nat := []
  /-- The slot latch of each requester (R555): the slot and its 64 bytes. -/
  latch : Assoc Who (Nat × List Byte) := []
  /-- Tokens taken from each bucket since its last refill, per code and, under R554, saggar. -/
  taken : Assoc (Nat × Option Nat) Nat := []
  /-- Suppressed counts, keyed as the buckets. -/
  suppressed : Assoc (Nat × Option Nat) Nat := []
  /-- Index of the last 2^20-cycle interval in which the buckets were refilled. -/
  refilled : Nat := 0
  /-- SD is up and the log accepts entries (R558). -/
  up : Bool := false
  /-- Entries of steps before SD is up, waiting to be written (R558). -/
  early : List LogEntry := []
  /-- Occurrences of this SCLK cycle, not yet stamped (R27), and those of this MCLK cycle's earlier SCLK
  cycles with the logical-clock value each was stamped with, where a token was left for it; they are
  stored when the MCLK cycle ends (R19, R551). -/
  fresh : List LogEntry := []
  cycle : List (Option Nat × LogEntry) := []
  /-- The two NVM copies and which one is current (R556). -/
  nvA : Option LogCopy := none
  nvB : Option LogCopy := none
  nvCur : Option Bool := none
  /-- The copy a store in progress is writing. -/
  storing : Option LogCopy := none
  deriving DecidableEq, Repr

/-- Configuration image and epochs (chapter 17). -/
structure Img where
  /-- `IMG_STATE.STATE`: 0 `WAIT`, 1 applying, 2 `RUN`, 3 `STAGED`, 4 storing. -/
  st : Nat := 0
  cause : Nat := 0
  storeFail : Bool := false
  nvValid : Bool := false
  nvCopyB : Bool := false
  epoch : Nat := 0
  /-- The previous epoch while it is open (`PREV_OPEN`). -/
  prevEpoch : Option Nat := none
  /-- The configuration in force, that of the previous epoch, and the staged one. -/
  cur : Image := {}
  prev : Image := {}
  shadow : Option Image := none
  /-- `IMG_DIGEST0..7`: the digest in force. -/
  dig : List Byte := List.replicate 32 0
  /-- `IMG_BOOT.AUTO`, and the reserved bits [31:1], which are RW. -/
  boot : Word32 := 0
  /-- The image partition of SD NVM: two copies with the stored registers, and which is current. -/
  nvA : Option (Image × Assoc Nat Nat) := none
  nvB : Option (Image × Assoc Nat Nat) := none
  /-- A store in progress. -/
  storing : Option (Image × Assoc Nat Nat) := none
  /-- The recorded coordinator and standby (R475, R476). -/
  coord : Nat := 0xFFFF
  standby : Nat := 0xFFFF
  /-- This chip was coordinator by its own claim or image and still is (`IMG_STATE.COORD`). -/
  isCoord : Bool := false
  /-- The epoch prepared here, and whether `READY` was sent for it (R475). -/
  prepared : Option Nat := none
  /-- The image digest the prepared epoch carries. -/
  prepDigest : List Byte := []
  readySent : Bool := false
  /-- An epoch whose `COMMIT` came while the control cores restart, and is taken when they have (R22). -/
  commitHeld : Option Nat := none
  /-- The fence list of the prepared epoch, the one in force, and losses waiting for the next. -/
  preparedFences : List Nat := []
  fences : List Nat := []
  nextFences : List Nat := []
  /-- Coordinator: the epoch it is preparing, who has answered `READY`, who has reported `DRAINED`. -/
  preparing : Option Nat := none
  readyFrom : List Nat := []
  drainedFrom : List Nat := []
  /-- Deadlines in root ticks: staging timeout, quiet time of the drain, force close, next alive. -/
  stageDeadline : Option Nat := none
  quietDeadline : Option Nat := none
  forceDeadline : Option Nat := none
  aliveDeadline : Option Nat := none
  /-- When the coordinator and the standby were last heard. -/
  coordHeard : Nat := 0
  standbyHeard : Nat := 0
  /-- A `COORD_QUERY` is owed after a control-core restart (R476). -/
  queryOwed : Bool := false
  /-- Sections whose change waits for a saggar's next step boundary (R474): by saggar and section type,
  the body that stays in effect until then. -/
  atStep : Assoc (Nat × Nat) (List Byte) := []
  deriving DecidableEq, Repr

/-- A change record's outcome and the change window (R507, R508). -/
structure Sec where
  claimPin : Bool := false
  dcLock : Bool := false
  tapFull : Bool := true
  debugOn : Bool := false
  claimed : Bool := false
  /-- `SEC_DC_STATUS`: status, cause, low 24 bits of `DC_SEQ`. -/
  dcStatus : Nat := 0
  dcCause : Nat := 0
  dcSeqLow : Nat := 0
  /-- `SEC_POLICY.TENANT_RELAY` and `ATT_TTL_EXP`. -/
  tenantRelay : Bool := true
  ttlExp : Nat := 0x22
  /-- `SEC_UTIL`, eight utilisation fields, lowest first. -/
  util : List Nat := [0, 0, 0, 0, 0, 0, 0, 0]
  /-- `SEC_ARB0..15`, kept in NVM. -/
  arb : List Nat := List.replicate 16 0
  /-- The change window: record bytes at 0x004_1000 and signature block at 0x004_2000. -/
  record : List Byte := zeros 4096
  sigBlock : List Byte := zeros 4096
  /-- The ownership record: the enrolled keys, kept in the protected partition. -/
  enrolled : List KeySlot := []
  /-- The digest of an approved Witness firmware package, until used or replaced (R507). -/
  wfwApproved : Option (List Byte) := none
  /-- Draws taken from the random source. -/
  draws : Nat := 0
  /-- The TAP instruction register: IDCODE after reset. -/
  tapIr : Nat := 0
  deriving DecidableEq, Repr

/-- The confidentiality state of one saggar (SAG page, R487 to R496). -/
structure SagSec where
  key : Nat := 0
  evidence : Bool := false
  window : List Byte := zeros 0xE00
  /-- The evidence as signed. -/
  evidenceBytes : List Byte := []
  ephemeral : Option (List Byte) := none
  ephemeralDeadline : Option Nat := none
  weightKey : Option (List Byte) := none
  dataKey : Option (List Byte) := none
  /-- An attestation or key load in progress. -/
  attesting : Bool := false
  loading : Bool := false
  /-- A measured item changed; with `REATTEST` the weight key goes at the next step boundary. -/
  reattestDue : Bool := false
  deriving DecidableEq, Repr

/-- One alias slot (`ERC_ALIAS`). -/
structure Alias where
  valid : Bool := false
  handback : Bool := false
  node : Nat := 0
  deriving DecidableEq, Repr

/-- One firmware kind's two NVM copies: security version, digest and code of each (R544 to R546). -/
structure FwKind where
  copyA : Nat × List Byte := (0, [])
  copyB : Nat × List Byte := (0, [])
  inForceB : Bool := false
  pending : Bool := false
  switching : Bool := false
  /-- When the new copy must have reached `RUN`. -/
  deadline : Option Nat := none
  /-- Saggars whose Trimmers still run the previous copy (kind 3). -/
  waiting : List Nat := []
  deriving DecidableEq, Repr

/-- One die's slack register (`ERC_SLACK`). -/
structure Slack where
  valid : Bool := false
  fail : Bool := false
  warn : Bool := false
  minPs : Nat := 0
  deriving DecidableEq, Repr

/-- A directory record of another home's region (R537): its bytes, and which of its 512-byte parts have come. -/
structure DirCopy where
  bytes : List Byte := []
  got : List Nat := []
  deriving DecidableEq, Repr

/-- Integrity and resilience (chapter 20). -/
structure Erc where
  /-- `ERC_NODE.STATE`, 0x1 `SELFTEST` at reset. -/
  admission : Nat := 1
  aliases : List Alias := List.replicate 8 {}
  /-- Firmware kinds 1 to 3. -/
  fw : Assoc Nat FwKind := []
  adFenced : List Bool := [false, false, false, false]
  /-- Which of them the slack rule of R547 fenced, so that R541 checks the slack. -/
  adSlack : List Bool := [false, false, false, false]
  slack : Assoc Nat Slack := []
  /-- Probes sent and not answered: peer and deadline (R533). -/
  probes : Assoc Nat Nat := []
  /-- Nodes known lost (R534) and not yet fenced by a commit. -/
  lost : List Nat := []
  /-- Class 1 jobs and handback of an admission in progress. -/
  loading : Bool := false
  /-- Nodes whose admission this chip, as coordinator, will commit (R542). -/
  joins : List Nat := []
  /-- Array fences of each die with their times, for the mass rule of R540. -/
  dieFences : List (Nat × Nat) := []
  /-- The region directory replicas of other homes, for which this chip is the partner (R537). -/
  dirReplica : Assoc Nat (Assoc Nat DirCopy) := []
  deriving DecidableEq, Repr

end Sys2Proof.Machine
end

