-- ==== Sys2Proof/Machine/StateFabric.lean ====
section
/-! DEFINITION. The state of fabric transactions (chapter 12), coherence domains (chapter 13) and the
switch core (chapter 14). Every field's initial value is its value at reset. -/

namespace Sys2Proof.Machine

/-- The units of a Plofen that send requests (R358). `merge` is an entry of the merge table. -/
inductive Requester where
  | trimmer (t : Nat)
  | mover (m : Nat)
  | gather (e : Nat)
  | codec (e : Nat)
  | pug (u : Nat)
  | control
  | merge (n : Nat)
  | edge (port : Nat)
  deriving DecidableEq, Repr

/-- An outstanding request of this chip (R331, R343, R357). -/
structure Req where
  req : Requester := .control
  pkt : Packet := {}
  /-- The tag its unit knows it by: the first tag it was sent under (R347). -/
  ref : Nat := 0
  /-- When the completion timer expires (R359), in root ticks. -/
  deadline : Option Nat := none
  /-- Completion timeouts so far: one resend, then the timeout code (R357). -/
  timeouts : Nat := 0
  /-- `NACK_RETRY` answers so far, at most 16 resends (R343). -/
  nacks : Nat := 0
  /-- When a `NACK_RETRY` backoff ends. -/
  backoff : Option Nat := none
  /-- A `NACK_STALE_EPOCH` or `NACK_FENCED` waiting for an epoch change, and when it gives up (R343). -/
  held : Option (Nat × Nat) := none
  /-- A `READ` already sent again after a failed check (R347). -/
  reread : Bool := false
  deriving DecidableEq, Repr

/-- A result-window entry (R352): its key, the outcome (none for `UNKNOWN`) and its entry time. -/
structure WinEntry where
  src : Nat := 0
  saggar : Nat := 0
  seq : Nat := 0
  outcome : Option (Nat × Nat) := none
  at_ : Nat := 0
  deriving DecidableEq, Repr

/-- A hot-range entry (R361): kind 1 combining, 2 hashing. -/
structure HotRange where
  region : Nat := 0
  home : Nat := 0
  base : Nat := 0
  pages : Nat := 0
  kind : Nat := 0
  saggar : Nat := 0
  deriving DecidableEq, Repr

/-- A merge-table entry (R362, R363): its tag, the originals in order of arrival, and the survivor. -/
structure MergeEntry where
  tag : Nat := 0
  isWrite : Bool := false
  originals : List Packet := []
  pid : Nat := 0
  sent : Bool := false
  deriving DecidableEq, Repr

/-- A request of this chip that has ended, with its status code (13 and up name no status: 0xF is the
timeout code of R357) and its data, until its unit takes it. -/
structure Done where
  req : Req := {}
  status : Nat := 0
  data : List Byte := []
  deriving DecidableEq, Repr

/-- Fabric transactions. -/
structure Fab where
  /-- `FAB_NODE.NODE`: the image's value, none before an image. -/
  node : Nat := Config.noNode
  /-- `FAB_CTRL`: `WIN_RET_EXP` 0x19 in [12:8], `TO_EXP` 0x18 in [4:0]. -/
  ctrl : Word32 := 0x1918
  /-- The result window, oldest first. -/
  win : List WinEntry := []
  outst : List Req := []
  done : List Done := []
  /-- Next `SEQ` per destination and saggar (R354). -/
  seqNext : Assoc (Nat × Nat) Nat := []
  /-- When the sequence numbers of the last 2^25 cycles were issued, per destination and saggar (R354). -/
  issued : Assoc (Nat × Nat) (List Nat) := []
  /-- Outstanding limit per requester and destination lowered by `CM` (R337). -/
  limit : Assoc (Requester × Nat) Nat := []
  /-- Next tag this chip gives a request. -/
  tagNext : Nat := 0
  hot : List HotRange := []
  merges : List MergeEntry := []
  /-- Packets addressed to this chip that wait for their unit. -/
  inbox : List Packet := []
  /-- Packets of trains that are not complete (R342): at their unit here, and at the edge port they entered. -/
  frags : List Packet := []
  edgeFrags : List (Nat × Packet) := []
  /-- Packets made by this chip's units, in order, that wait to enter the switch core. -/
  tx : List Packet := []
  deriving DecidableEq, Repr

/-- A directory entry (R372). -/
structure DirEntry where
  coarse : Bool := false
  busy : Bool := false
  sharers : List Nat := []
  chips : Nat := 0
  deriving DecidableEq, Repr

/-- Work at the home that waits for invalidation acknowledgements (R373, R377): the grain, the nodes
still silent, and the request to apply afterwards. -/
structure InvWait where
  region : Nat := 0
  grain : Nat := 0
  domain : Nat := 0
  tags : List Nat := []
  pkt : Packet := {}
  deriving DecidableEq, Repr

/-- An `INVAL` a member or edge Plofen forwards (R376): the packet to answer and who is still silent
(tags of forwarded `INVAL`s; port and grain of each `BISnpInv`). -/
structure InvForward where
  pkt : Packet := {}
  tags : List Nat := []
  snoops : List (Nat × Nat × Nat) := []
  deriving DecidableEq, Repr

/-- A domain slot (`COH_DOM`). -/
structure DomSlot where
  st : Nat := 0
  member : Nat := 0
  cause : Nat := 0
  domain : Nat := 0
  /-- Members whose directory is reported cleared while `FENCED` (R381). -/
  cleared : List Nat := []
  deriving DecidableEq, Repr

/-- Coherence domains. -/
structure Coh where
  /-- `COH_CTRL`: `OWN_TO_EXP` in [4:0]. -/
  ctrl : Word32 := 0x18
  /-- Directory entries by region and grain number. -/
  dir : Assoc (Nat × Nat) DirEntry := []
  waits : List InvWait := []
  forwards : List InvForward := []
  slots : Assoc Nat DomSlot := []
  /-- Compositions fenced on this chip (R534). -/
  compFences : List Nat := []
  /-- Domain fences that wait for a control-core restart to end (R381): domain, cause, reported here. -/
  heldFences : List (Nat × Nat × Bool) := []
  /-- Reports of a cleared directory that wait likewise (R22): domain, member. -/
  heldCleared : List (Nat × Nat) := []
  /-- Snoop filter of each `EDGE_C` port: (home node, grain offset), oldest first (R376). -/
  snoop : Assoc Nat (List (Nat × Nat)) := []
  deriving DecidableEq, Repr

/-- The colours of R406. -/
inductive Colour where
  | green | yellow | red
  deriving DecidableEq, Repr

/-- A packet in the buffer: identifier, ingress port (64 for this chip's units), where its cells are
charged, its colour and the time its header arrived (R390, R409). -/
structure BufPkt where
  pid : Nat := 0
  pkt : Packet := {}
  ingress : Nat := 0
  inReserve : Bool := false
  colour : Colour := .green
  arrived : Nat := 0
  /-- Virtual channel it arrived on, and whether its last byte has arrived. -/
  inVc : Bool := false
  whole : Bool := true
  deriving DecidableEq, Repr

/-- A saggar queue of one port, class and virtual channel (R400 to R402). -/
structure SagQueue where
  pkts : List BufPkt := []
  deficit : Nat := 0
  /-- V at which the queue went idle (R402). -/
  idleAt : Nat := 0
  deriving DecidableEq, Repr

/-- The active list of one port, class and virtual channel: saggars in turn order, the turns left in the
current pass, whether the head's turn has begun, and the virtual time V (R400, R401). -/
structure ActiveList where
  order : List Nat := []
  left : Nat := 0
  inTurn : Bool := false
  v : Nat := 0
  deriving DecidableEq, Repr

/-- The switch core. -/
structure Swc where
  nextPid : Nat := 0
  /-- Queues by (port, class, vc, saggar). -/
  queues : Assoc (Nat × Nat × Bool × Nat) SagQueue := []
  active : Assoc (Nat × Nat × Bool) ActiveList := []
  /-- Class deficit and whose virtual channel has the next turn, per (port, class) (R399, R400). -/
  classDeficit : Assoc (Nat × Nat) Nat := []
  vcTurn : Assoc (Nat × Nat) Bool := []
  /-- The class whose turn it is among TC1 to TC6, per port (none before its quantum is added). -/
  classTurn : Assoc Nat (Nat × Bool) := []
  /-- The idle turn of an empty confidential queue (R403): its end, class, virtual channel, saggar. -/
  idleTurn : Assoc Nat (Nat × Nat × Bool × Nat) := []
  /-- Packets held in their ingress reserve by a quota (R390). -/
  reserve : List BufPkt := []
  /-- Packets leaving by cut-through before their last frame has arrived (R393), by egress port. -/
  leaving : List (Nat × BufPkt) := []
  /-- Register words by 8 × port + class: `SWC_SHAPE`, `SWC_SHAPE_BURST` (unset 0x400),
  `SWC_PQ_CTRL`. -/
  shape : Assoc Nat Word32 := []
  burst : Assoc Nat Word32 := []
  pq : Assoc Nat Word32 := []
  /-- `SWC_PORT` by port; `SWC_SAG_Q` (unset `Q` 0x010), `SWC_SAG_SHAPE`, `SWC_SAG_BURST` by saggar. -/
  port : Assoc Nat Word32 := []
  sagQ : Assoc Nat Word32 := []
  sagShape : Assoc Nat Word32 := []
  sagBurst : Assoc Nat Word32 := []
  /-- `SWC_SAG_QUOTA.QUOTA` and `USED`. -/
  quota : Assoc Nat Nat := []
  used : Assoc Nat Nat := []
  /-- Shaper tokens in bytes, per 8 × port + class and per saggar (R404). -/
  tokens : Assoc Nat Nat := []
  /-- The buckets, and the saggar buckets, that were on at the last refill: a written `RATE` takes effect at the next
  (R405). -/
  shaped : List Nat := []
  sagShaped : List Nat := []
  sagTokens : Assoc Nat Nat := []
  /-- Policer buckets Tc and Tp per 8 × port + class (R406). -/
  policer : Assoc Nat (Nat × Nat) := []
  /-- RED average depth in bytes per 8 × port + class (R407). -/
  red : Assoc Nat Nat := []
  /-- Counted packets per 8 × port + class since sampling began (R408). -/
  sampled : Assoc Nat Nat := []
  /-- The sample records of the mirror buffer, oldest first. -/
  mirror : List (List Byte) := []
  /-- Cells neither free nor held by any packet, the auditor's position and its suspects (R410). -/
  leaked : List Nat := []
  auditCell : Nat := 0
  auditing : Bool := false
  suspects : List Nat := []
  nowSuspect : List Nat := []
  /-- When the buffer auditor last started a pass, and the last shaper refill, in root ticks. -/
  auditStart : Nat := 0
  lastRefill : Nat := 0
  deriving DecidableEq, Repr

end Sys2Proof.Machine
end

