-- ==== Sys2Proof/Machine/StateMemory.lean ====
section
/-! DEFINITION. The state of the memory tiers and the pool (chapter 07). Every field's initial value is
its value at reset. -/

namespace Sys2Proof.Machine

/-- The side word of a grain (R197) as stored. `agree` is false when, in T3, one of the four words
differs from burst 0's in a field other than `BURST` (R198). -/
structure Side where
  crc : Word32 := 0
  saggar : Nat := 0
  poison : Bool := false
  enc : Bool := false
  ver : Nat := 0
  addr : Nat := 0
  agree : Bool := true
  deriving DecidableEq, Repr

/-- A frame (R191): its tier (2, 3 or 4), the memory unit it lies in (HBM pseudo-channel 64k + c, DRAM
channel, flash die), its index within the tier, its saggar, and the side words of its grains. A grain
without an entry is as the zero fill left it. -/
structure Frame where
  tier : Nat := 3
  unit : Nat := 0
  index : Nat := 0
  saggar : Nat := 0
  /-- It holds a page of a confidential region, so that its flash units are discarded securely (R204). -/
  conf : Bool := false
  side : Assoc Nat Side := []
  deriving DecidableEq, Repr

/-- A published version that is current or open (R212, R215, R216). -/
structure Version where
  pages : Assoc Nat (List Nat) := []
  /-- Open counts by requester node. -/
  opens : Assoc Nat Nat := []
  view : Option Nat := none
  /-- Pages of the version whose frames are lost (R220). -/
  lost : List Nat := []
  deriving DecidableEq, Repr

/-- A page move in progress (R205). A page that is handed back to another node (R543) has that node and no
destination frame. -/
structure PageMove where
  page : Nat := 0
  src : Nat := 0
  dst : Nat := 0
  node : Option Nat := none
  /-- When it began, and where units of a T4 source lay then: die and block (R234, R238). -/
  began : Nat := 0
  blocks : List (Nat × Nat) := []
  /-- The flash write of this pass that is not acknowledged (R226). -/
  write : Option Nat := none
  /-- Grains this pass copies, and grains written during it. -/
  dirty : List Nat := List.range 256
  written : List Nat := []
  pass : Nat := 0
  held : Bool := false
  deriving DecidableEq, Repr

/-- A region at its home, or a copy of an `IMMUTABLE` region another home owns (R206): the descriptor
of R199 and what the home keeps beside it. -/
structure Region where
  id : Nat := 0
  home : Nat := 0
  saggar : Nat := 0
  kind : Nat := 0
  coh : Nat := 0
  conf : Bool := false
  hotspot : Nat := 0
  tierPol : Nat := 0
  comp : Nat := 0
  domain : Nat := 0xFFFF
  version : Nat := 0
  pages : Nat := 1
  base : Nat := 0
  contentDigest : List Byte := zeros 32
  kv : Nat := 0
  firstSeqPage : Nat := 0
  maxexpK : Nat := 0
  maxexpV : Nat := 0
  sealed_ : Bool := false
  /-- Working pages: the frames of each page that has any (several only for `IMMUTABLE`). -/
  working : Assoc Nat (List Nat) := []
  versions : Assoc Nat Version := []
  /-- Pages whose every grain is poisoned for want of a frame (R207, R220, R537). -/
  lostPages : List Nat := []
  /-- Access count C and epoch tag g of each page (R208). -/
  counts : Assoc Nat (Nat × Nat) := []
  moves : List PageMove := []
  /-- Owner token (R382 to R387): owner (0xFFFF none), transfer state, last `XFER`, deadline, and the
  `XFER` that made the present owner. -/
  owner : Nat := 0xFFFF
  inTransfer : Bool := false
  target : Nat := 0xFFFF
  xfer : Nat := 0
  xferDeadline : Option Nat := none
  acceptedXfer : Option Nat := none
  /-- A region of a lost home that waits for its home's flash rebuild: requests are `NACK_FENCED` (R537). -/
  awaitsHome : Bool := false
  /-- Deleted, and the requests accepted before that are not complete (R204). -/
  deleting : Option (List Packet) := none
  /-- Other nodes that hold a copy of an `IMMUTABLE` region (R206). -/
  holders : List Nat := []
  deriving DecidableEq, Repr

/-- A mover job (R217, R218): class, region, run of pages of the working list or of a version, and where they
go or which node they come from. -/
structure MoverJob where
  cls : Nat := 6
  region : Nat := 0
  page : Nat := 0
  count : Nat := 1
  toTier : Nat := 3
  toNode : Option Nat := none
  fromNode : Option Nat := none
  ver : Option Nat := none
  saggar : Nat := 0
  deriving DecidableEq, Repr

/-- A job on a mover: pages done; of the page in hand the grains still to be asked for or sent, the requests
unanswered (tag, grain), the frame it fills, and whether a request failed. -/
structure MoverRun where
  job : MoverJob := {}
  done : Nat := 0
  todo : List Nat := []
  tags : List (Nat × Nat) := []
  frame : Option Nat := none
  failed : Bool := false
  deriving DecidableEq, Repr

/-- One DRAM channel (`DDR_STATE`). -/
structure DdrCh where
  fence : FenceSt := { on := true, cause := 2 }
  rate : Nat := 0
  dpc : Nat := 0
  mrdimm : Bool := false
  trained : Bool := false
  capGib : Nat := 0
  deriving DecidableEq, Repr

/-- One HBM4 stack (`HBM_STATE`), with the set of fenced pseudo-channels. -/
structure HbmStack where
  fence : FenceSt := { on := true, cause := 2 }
  temp : Nat := 0
  trained : Bool := false
  pcFenced : List Nat := []
  deriving DecidableEq, Repr

/-- Memory tiers and the pool. -/
structure Tie where
  regions : Assoc Nat Region := []
  frames : Assoc Nat Frame := []
  nextFrame : Nat := 1
  /-- The bytes of all frames, in canonical form: byte `o` of frame `f` at 65,536 f + o; an unlisted
  byte reads zero (R204). T4 frames have their bytes on the media. -/
  mem : List Host.Cell := []
  /-- Per tier: total access count, decay epoch E, hold for the sweeper, epoch of the last sweep. -/
  total : Assoc Nat Nat := []
  decay : Assoc Nat Nat := []
  hold : List Nat := []
  swept : Assoc Nat Nat := []
  /-- `TIE_TH23` and `TIE_TH34` by saggar: `PROMOTE_AT`, `DEMOTE_BELOW`. -/
  th23 : Assoc Nat (Nat × Nat) := []
  th34 : Assoc Nat (Nat × Nat) := []
  /-- `TIE_SHORT` flags: tiers short, by saggar. -/
  short : Assoc Nat (List Nat) := []
  /-- Jobs running on the 32 movers, and the waiting jobs in arrival order. -/
  movers : Assoc Nat MoverRun := []
  queue : List MoverJob := []
  ddr : Assoc Nat DdrCh := []
  hbm : Assoc Nat HbmStack := []
  /-- The next of the 64 demand slots of each DRAM and flash channel, by tier and channel (R500). -/
  slots : Assoc (Nat × Nat) Nat := []
  /-- Where the search for the next view's base begins (R216), counted in 64 KiB above bit 47. -/
  nextView : Nat := 0
  /-- T2 frames the Sitter's `WIN_HBM` window names, by frame (R145, R219). -/
  windowFrames : List Nat := []
  /-- Regions and codec tables of the image in force wait for T3 (R586): whether any do, and the regions. -/
  dueImage : Bool := false
  due : List Region := []
  deriving DecidableEq, Repr

/-! ## Flash media (chapter 08) -/

/-- A programmed page: the fields of its spare record (R227), the page's bytes, and for a trim record its
ranges (first LUA, units). `torn` marks a page whose record fails its check (R228). -/
structure FlmPage where
  /-- 1 data, 2 summary, 3 trim record, 4 pad. -/
  kind : Nat := 1
  gcCopy : Bool := false
  enc : Bool := false
  secure : Bool := false
  saggar : Nat := 0
  lua : Nat := 0
  eraseCount : Nat := 0
  seq : Nat := 0
  dataSeq : Nat := 0
  poison : List Nat := []
  /-- `GRAIN_CRC`, grain 0 first; empty for a page without grains. -/
  crcs : List Word32 := []
  data : List Byte := []
  ranges : List (Nat × Nat) := []
  torn : Bool := false
  deriving DecidableEq, Repr

/-- A block: 0 free, 1 open or full without its summary, 2 closed, 3 to be retired once its valid pages have
moved, 4 retired; whether it is to be erased again before its first use (R242). -/
structure FlmBlk where
  st : Nat := 0
  erases : Nat := 0
  again : Bool := false
  pages : List FlmPage := []
  deriving DecidableEq, Repr

/-- A die in service or fenced: its blocks (one without an entry is free, with the count `base` and the mark
`again`), open host and GC blocks, the victim under collection, blocks to collect early, whether it collects. -/
structure FlmDie where
  fenced : Bool := false
  blk : Assoc Nat FlmBlk := []
  base : Nat := 0
  again : Bool := false
  hostOpen : Option Nat := none
  gcOpen : Option Nat := none
  victim : Option Nat := none
  early : List Nat := []
  /-- Blocks to empty whatever the free blocks (R235, R240). -/
  must : List Nat := []
  /-- The page of the victim that is being moved (R233 step 1), those that have passed step 4, and when the
  operation in hand times out (R238). -/
  moving : Option Nat := none
  moved : List Nat := []
  opDeadline : Nat := 0
  collecting : Bool := false
  deriving DecidableEq, Repr

/-- One ONFI channel (`FLM_CH_STATE`). -/
structure FlmCh where
  fence : FenceSt := { on := true, cause := 2 }
  rate : Nat := 0
  targets : Nat := 0
  luns : Nat := 0
  deriving DecidableEq, Repr

/-- A map entry (R225): die, block and page of the copy in force; `LOST` and `HELD`. -/
structure FlmEntry where
  pun : Option (Nat × Nat × Nat) := none
  lost : Bool := false
  held : Bool := false
  deriving DecidableEq, Repr

/-- A program in progress, held in the write buffer until its status has passed: its page, the die and stream,
the block of a summary page, the frame write or the discard (first LUA) it belongs to, and when it times out
(R238). -/
structure FlmProg where
  die : Nat := 0
  host : Bool := true
  page : FlmPage := {}
  block : Option Nat := none
  write : Option Nat := none
  discard : Option Nat := none
  deadline : Nat := 0
  deriving DecidableEq, Repr

/-- A frame write not yet acknowledged: its number, frame, units still to be programmed, and the page move it
is part of: region and page. -/
structure FlmWrite where
  id : Nat := 0
  frame : Nat := 0
  left : List Nat := []
  move : Option (Nat × Nat) := none
  deriving DecidableEq, Repr

/-- A secure discard in progress (R240): its range, how far it is (1 before step 2, 2 the trim record is being
programmed, 3 copies are being erased), and the `DATA_SEQ` below which copies count. -/
structure FlmSecure where
  lua : Nat := 0
  units : Nat := 0
  stage : Nat := 1
  seq : Nat := 0
  deriving DecidableEq, Repr

/-- Flash media. The dies' blocks, the retired list and the logical capacity are on the media or in SD
NVM; the rest is lost at power loss. -/
structure Flm where
  /-- `FLM_STATE.STATE`. -/
  st : Nat := 0
  pagesPerBlock : Nat := 0
  luns : Nat := 0
  targets : Nat := 0
  blocksPerDie : Nat := 0
  peRating : Nat := 0
  retryLevels : Nat := 0
  opPct : Nat := 0
  ch : Assoc Nat FlmCh := []
  dies : Assoc Nat FlmDie := []
  /-- The retired-block list (R236): its 4-byte entries in order. -/
  retired : List Word32 := []
  /-- Logical capacity L in units (R245). -/
  logical : Nat := 0
  seq : Nat := 0
  map : Assoc Nat FlmEntry := []
  progs : List FlmProg := []
  /-- Units that wait for an earlier program of their LUA. -/
  waiting : List FlmProg := []
  writes : List FlmWrite := []
  nextWrite : Nat := 0
  /-- The place of the next host unit, channel first (R226). -/
  nextPlace : Nat := 0
  secure : List FlmSecure := []
  /-- Block erases, and how many there were at the last checkpoint (R237). -/
  erases : Nat := 0
  erasesAt : Nat := 0
  /-- The stale-copy index has been full and has not fallen below 7/8 of its size (R232). -/
  staleFull : Bool := false
  /-- Health flags in force (bits of `FLM_HEALTH[7:0]`), and failures of this and the previous window of
  2^30 programs: program, erase (R246). -/
  flags : List Nat := []
  window : Nat × Nat := (0, 0)
  lastWindow : Nat × Nat := (0, 0)
  windowAt : Nat := 0
  /-- When the rebuild began. -/
  rebuildAt : Nat := 0
  /-- Frames freed while the flash is not online, whose four units wait to be discarded: first LUA, and
  whether by secure discard. -/
  trims : List (Nat × Bool) := []
  /-- Regions kept in the flash across a power loss (R207), with their T4 frames. -/
  saved : List Region := []
  savedFrames : Assoc Nat Frame := []
  deriving DecidableEq, Repr

end Sys2Proof.Machine
end

