-- ==== Sys2Proof/Machine/StateArray.lean ====
section
/-! DEFINITION. The state of the matrix arrays (chapter 03), the shelf, the Trimmers (chapter 04), the
Sitter (chapter 05) and attention (chapter 06). Every field's initial value is its value at reset. -/

namespace Sys2Proof.Machine

/-! ## Matrix arrays -/

/-- Who issued a tile job. -/
inductive Issuer where
  | trimmer (t : Nat)
  /-- The Sitter for a saggar: layer, expert and projection, the batch, and the plan record the job was made
  from. -/
  | sitter (saggar layer expert proj batch : Nat) (record : List Byte)
  /-- Its issuer was fenced or swapped: the completion is discarded (R122, R125). -/
  | nobody
  deriving DecidableEq, Repr

/-- The weight tile most recently loaded, or being loaded, into an array (R598). -/
structure Tile where
  saggar : Nat := 0
  /-- Bits of an element of its rate class. -/
  cls : Nat := 8
  /-- 0 being loaded, 1 held, 2 a grain of it failed its check, 3 zeroed or never completed. -/
  st : Nat := 0
  /-- Acceptance order of the job that loads it. -/
  by_ : Nat := 0
  rows : List (List Byte) := []
  scales : List (List Byte) := []
  deriving DecidableEq, Repr

/-- A job in a slot (R80). -/
structure ArrJob where
  desc : List Byte := []
  issuer : Issuer := .trimmer 0
  /-- The state code of R80. -/
  st : Nat := 1
  /-- Acceptance order within the array, and the time of acceptance. -/
  order : Nat := 0
  at_ : Nat := 0
  f : Int := 0
  failed : Nat := 0
  /-- Start held by the ramp limit (R79), and tokens that have entered. -/
  held : Bool := false
  /-- Its broadcast group. -/
  group : Option Nat := none
  tok : Nat := 0
  loaded : Bool := false
  tile : Tile := {}
  /-- Column scales and biases, fetched in `LOADING` (R80). -/
  params : List Byte := []
  /-- Token vectors fetched ahead of the stream into the staging ring (R66), oldest first. -/
  stage : List (List Byte) := []
  /-- Finished outputs or partial-frame records in the output area, oldest first, and how many of the job's
  went to the shelf before them (R66). -/
  outs : List (List Byte) := []
  drained : Nat := 0
  ovf : Nat := 0
  sat : Nat := 0
  jstat : Nat := 0
  cause : Nat := 0
  deriving DecidableEq, Repr

/-- One array: fence, slots, held tile, in-service BIST in progress (who asked). -/
structure Arr where
  fence : FenceSt := { on := true, cause := 2 }
  slots : Assoc Nat ArrJob := []
  nextOrder : Nat := 0
  kept : Option Tile := none
  /-- Left out of the Sitter's plan until a step boundary after its fence is lifted (R91). -/
  unplanned : Bool := false
  bist : Option Bool := none
  deriving DecidableEq, Repr

/-- A broadcast group (R78): members counted, those waiting, and when assembly times out. -/
structure Group where
  id : Nat := 0
  saggar : Nat := 0
  gid : Nat := 0
  aAddr : Nat := 0
  aStride : Nat := 0
  tLen : Nat := 0
  aFmt : Nat := 0
  n : Nat := 0
  counted : Nat := 0
  waiting : List (Nat × Nat) := []
  deadline : Option Nat := none
  closed : Bool := false
  deriving DecidableEq, Repr

/-- A load ramp (R79, R572): start times, the assertion of the `LOAD_WARN_N` bit, starts held, and when
the bit goes high again. Ramp d is that of array die d, ramp 4 that of SD; while R497 applies, saggar g's
share of array die d has ramp 8 (g + 1) + d of its own (R499). -/
structure Ramp where
  starts : List Nat := []
  warnAt : Option Nat := none
  held : List (Nat × Nat) := []
  highAt : Option Nat := none
  deriving DecidableEq, Repr

/-- The arrays, the groups that form, the ramps by die, the shelf's bytes (byte `o` of saggar `g`'s shelf
space at 2^30 g + o, canonical form), the CRC-32C that travels with a grain of it (number address ÷ 256)
from an array's finisher or the fill port (R84, R489), and the pins by saggar and 64 KiB unit (R114). -/
structure Arrs where
  arr : Assoc Nat Arr := []
  groups : List Group := []
  nextGroup : Nat := 0
  ramp : Assoc Nat Ramp := []
  shelf : List Host.Cell := []
  crc : Assoc Nat Nat := []
  pins : Assoc (Nat × Nat) Nat := []
  deriving DecidableEq, Repr

/-! ## Trimmers -/

/-- The register context of a Trimmer's U-mode code. -/
structure Ctx where
  pc : Nat := 0
  x : Vector Nat 32 := Vector.replicate 32 0
  /-- Vector registers, 64 bytes each, and the vector CSRs. -/
  v : Assoc Nat (List Byte) := []
  vl : Nat := 0
  vtype : Nat := 2 ^ 63
  vstart : Nat := 0
  vxrm : Nat := 0
  vxsat : Nat := 0
  /-- Accesses done of a vector load or store that a window access interrupts. -/
  vpos : Nat := 0
  deriving DecidableEq, Repr

/-- An event waiting to be passed to user code as an upcall (R104): the cause and a1 to a3. For a counter
overflow whose sample has not been taken, the instructions begun since the wrap (R120). -/
structure TrmEvent where
  mcause : Nat := 19
  a1 : Nat := 0
  a2 : Nat := 0
  a3 : Nat := 0
  since : Option Nat := none
  deriving DecidableEq, Repr

/-- An instruction that stalls (R108, R109). -/
inductive TrmStall where
  | issue (rd rs1 len since : Nat)
  | wait (rd len since : Nat) (deadline : Option Nat)
  deriving DecidableEq, Repr

/-- An outstanding window access (R102, R103): a load or atomic the code waits for, with the length of
its instruction; one element of a vector load; a store; and the read of the aligned word that a store of
fewer than 8 bytes changes, with the bytes and, in a vector store, the accesses done with it. -/
inductive WinKind where
  | load (rd bytes : Nat) (signed : Bool) (len : Nat)
  | elem (vd index bytes next : Nat)
  | store
  | fill (bs : List Byte) (len : Nat) (next : Option Nat)
  | amo (rd len : Nat)
  deriving DecidableEq, Repr

structure WinReq where
  tag : Nat := 0
  kind : WinKind := .store
  addr : Nat := 0
  deriving DecidableEq, Repr

/-- A call in an RPT queue (R116): its packet, the table entry it was accepted under (R474), and, for a
call of the step plan, its saggar and batch. -/
structure RptCall where
  p : Packet := {}
  entry : Nat := 0
  sitter : Option (Nat × Nat) := none
  deriving DecidableEq, Repr

/-- What a Trimmer runs: firmware only, main code, an upcall or an RPT handler. -/
inductive TrmRun where
  | none | main | upcall | handler
  deriving DecidableEq, Repr

/-- One Trimmer. -/
structure Trm where
  fence : FenceSt := { on := true, cause := 2 }
  /-- `TRM_STATE.MODE`: 0 reset, 1 firmware only, 2 program running, 3 main code halted. -/
  mode : Nat := 0
  fwCopyB : Bool := false
  /-- Machine firmware is restarting (R22). -/
  fwDown : Bool := false
  bist : Bool := false
  run : TrmRun := .none
  ctx : Ctx := {}
  /-- The machine firmware's own registers, while user code runs. -/
  mctx : Ctx := { pc := 0x8000000 }
  /-- The main code's context while an upcall or handler runs. -/
  mainCtx : Option Ctx := none
  /-- The call a handler answers, and instructions it has retired (R117). -/
  call : RptCall := {}
  retired : Nat := 0
  /-- Local memory and firmware instruction SRAM, canonical. -/
  mem : List Host.Cell := []
  fwMem : List Host.Cell := []
  /-- User CSRs of R102, R104, R120. -/
  xuvec : Nat := 0
  xwin : Assoc Nat Nat := []
  xsmpctl : Nat := 0
  xfstat : Nat := 0
  xmark : Nat := 0
  /-- Machine CSRs that hold what is written, by number. -/
  mcsr : Assoc Nat Nat := []
  /-- Reservation of LR (address, bytes). -/
  resv : Option (Nat × Nat) := none
  rptq : List RptCall := []
  /-- Completion-queue entries in the layout of R109, and jobs issued and not yet completed. -/
  cplq : List Nat := []
  jobs : Nat := 0
  stall : Option TrmStall := none
  wins : List WinReq := []
  /-- Upcalls waiting (R104, R105). -/
  upcalls : List TrmEvent := []
  /-- When the Trimmer left reset, the counters `hpmcounter3` to `10`, and the values a confidential
  saggar reads (R119). -/
  resetAt : Nat := 0
  hpm : Assoc Nat Ctr := []
  frozen : Assoc Nat Nat := []
  /-- Order of the live swap reached (R122); none outside a swap. -/
  swap : Option Nat := none
  deriving DecidableEq, Repr

/-- The program swap of a saggar: when it times out (R123); and the RPT table entries retargeted away from
a fenced Trimmer (R125): saggar and Trimmer named, Trimmer that serves. -/
structure Trms where
  swapDeadline : Assoc Nat Nat := []
  retarget : Assoc (Nat × Nat) Nat := []
  deriving DecidableEq, Repr

/-! ## Sitter -/

/-- A choice entry of a record being made (R152). -/
structure Choice where
  layer : Nat := 0
  expert : Nat := 0
  policy : Nat := 0
  role : Nat := 0
  forced : Bool := false
  tokens : Nat := 0
  cutCycle : Nat := 0
  missing : Nat := 0
  deriving DecidableEq, Repr

/-- A batch (R141): its tokens, each the dispatch as it came (R138), whether the bisque copy runs, and the
place its program has reached. -/
structure Batch where
  id : Nat := 0
  layer : Nat := 0
  expert : Nat := 0
  toks : List Packet := []
  bisque : Bool := false
  /-- Which of the two areas of its expert's program it uses. -/
  bank : Nat := 0
  issued : Bool := false
  /-- Records of the program not yet issued: projection and record. -/
  left : List (Nat × List Byte) := []
  /-- Jobs of the batch not yet complete, and whether a Trimmer procedure of it runs. -/
  running : Nat := 0
  callOut : Bool := false
  deriving DecidableEq, Repr

/-- The step role of one saggar (SIT page). -/
structure SitSag where
  /-- The saggar runs steps (some step has opened). -/
  runs : Bool := false
  step : Nat := 0
  /-- The step is open here; `aborted` once `ABORT` has come; `closing` once `CLOSE` has come. -/
  isOpen : Bool := false
  closing : Bool := false
  aborted : Bool := false
  /-- `SIT_STATE.MODE`. -/
  mode : Nat := 0
  recStall : Bool := false
  ctrlHold : Bool := false
  rerun : Bool := false
  epoch : Nat := 0
  lcOpen : Nat := 0
  q : Nat := 0
  d : Nat := 0
  openAt : Nat := 0
  /-- Records (step, bytes) and seals waiting for room in the ring, in order (R153). -/
  waiting : List (Nat × Bool × List Byte) := []
  /-- Roles, by member number; none until taken from the image (R161). -/
  leader : Option Nat := none
  standby : Option Nat := none
  /-- Body entries (R152): frame and tree entries carry the step whose record they enter, which may not be open
  yet. -/
  choices : List Choice := []
  frames : List (Nat × Nat × Nat) := []
  recomps : List (Nat × Nat) := []
  trees : List (Nat × Nat × Nat) := []
  /-- Leaves of the three digests: step, key and item (R151), and the output key of each result handle seen
  at this edge. -/
  inputs : List (Nat × List Byte × List Byte) := []
  assigns : List (Nat × List Byte × List Byte) := []
  outputs : List (Nat × List Byte × List Byte) := []
  combines : Assoc Nat (Nat × List Byte) := []
  /-- The record supplied for the step and for the next one, in replay (R155). -/
  supplied : Option (List Byte) := none
  nextSupplied : Option (List Byte) := none
  enterDue : Bool := false
  exitDue : Bool := false
  replay : Bool := false
  /-- Pending tokens, batches, layers past their batch-close point, layers past their cut-off. -/
  nextBatch : Nat := 0
  /-- Experts (layer, expert) whose first batch of the step has formed (R141). -/
  began : List (Nat × Nat) := []
  /-- Requests of the next step that wait in the dispatch buffer (R131). -/
  held : List Packet := []
  pend : List Batch := []
  batches : List Batch := []
  closedLayers : List Nat := []
  cutLayers : List Nat := []
  /-- Tiles on the shelf (layer, expert, tile), and tokens per (layer, expert) in the previous step. -/
  tiles : List (Nat × Nat × Nat) := []
  /-- Tiles whose fill was refused for want of the weight key (R493); bisque tiles on the shelf (R147); units
  pinned at the last step boundary (R114). -/
  refused : List (Nat × Nat × Nat) := []
  bisque : List (Nat × Nat × Nat) := []
  planPins : List Nat := []
  /-- An `OPEN` has been received and the step is held unopened (R156). -/
  heldOpen : Bool := false
  dispatched : Assoc (Nat × Nat) Nat := []
  prevDispatched : Assoc (Nat × Nat) Nat := []
  /-- Contributions waiting to be sent, and tags of those not yet acknowledged. -/
  outbox : List Packet := []
  contribs : List Nat := []
  /-- What every reader of a confidential saggar's own counters receives (R497), by counter address. -/
  frozen : Assoc Nat Nat := []
  /-- Seal group (R154): digests of its records, its first and last step, next seal number, chain. -/
  group : List (List Byte) := []
  firstStep : Nat := 0
  lastStep : Nat := 0
  sealSeq : Nat := 0
  chain : List Byte := zeros 32
  deriving DecidableEq, Repr

/-- The leader's exchange of one composition (R130, R132, R160). -/
structure SitLead where
  /-- 0 no step open, 1 waiting for `EP_DONE`, 2 `CLOSE` sent, 3 `ABORT` sent. -/
  phase : Nat := 0
  /-- Some step has opened; the step last opened; the next one is a re-run of it. -/
  runs : Bool := false
  step : Nat := 0
  rerun : Bool := false
  q : Nat := 0
  debt : Nat := 0
  /-- The leader's `OPEN` of this attempt and of the first attempt, and when the next step is due. -/
  openAt : Nat := 0
  firstOpen : Nat := 0
  nextOpen : Nat := 0
  /-- The epoch the step runs under, and the endpoints that were sent its `OPEN` (R162). -/
  epoch : Nat := 0
  eps : List Nat := []
  epDone : List Nat := []
  closed : List Nat := []
  /-- A re-run waits for the epoch after this one (R160). -/
  waitEpoch : Option Nat := none
  deriving DecidableEq, Repr

/-! ## Attention -/

/-- An accepted `ATTEND` (R172): its train, blocks not yet computed (sequence page, KV head), tags out,
whether anything overflowed, and the poisoned pages. -/
structure AttReq where
  id : Nat := 0
  p : Packet := {}
  active : Bool := false
  left : List (Nat × Nat) := []
  tags : List Nat := []
  msgs : List Packet := []
  ovf : Bool := false
  poisoned : List Nat := []
  deriving DecidableEq, Repr

structure Att where
  reqs : List AttReq := []
  nextReq : Nat := 0
  deriving DecidableEq, Repr

end Sys2Proof.Machine
end

