-- ==== Sys2Proof/Machine/StateCompute.lean ====
section
/-! DEFINITION. The state of the units that compute: codec, Pug, Gather and Sieve. Every field's initial value is its value at reset. -/

namespace Sys2Proof.Machine

/-- A run of bytes that a unit reads from or writes to the fabric in packets: where it goes, how far
packets have been issued, those unanswered (tag, position, bytes), the bytes, and the first failure. -/
structure Xfer where
  node : Nat := 0
  off : Nat := 0
  len : Nat := 0
  saggar : Nat := 0
  cls : Nat := 5
  write : Bool := false
  next : Nat := 0
  tags : List (Nat × Nat × Nat) := []
  data : List Byte := []
  failed : Option Nat := none
  deriving DecidableEq, Repr

/-! ## Compression codec (chapter 09) -/

/-- A codec job (R250): the call, its source read, and once it has started its output, result fields and
destination write. -/
structure CdcJob where
  id : Nat := 0
  call : Packet := {}
  rd : Xfer := {}
  started : Bool := false
  wr : Option Xfer := none
  status : Status := .ok
  written : Nat := 0
  blocks : Nat := 0
  raw : Nat := 0
  firstBad : Nat := 0xFFFF
  cause : Nat := 0
  /-- Raw bytes coded or decoded, for the engine's counters. -/
  rawBytes : Nat := 0
  deriving DecidableEq, Repr

/-- One codec engine. -/
structure CdcEngine where
  fence : FenceSt := { on := true, cause := 2 }
  queue : List CdcJob := []
  deriving DecidableEq, Repr

/-- A table directory entry (R256). -/
structure CdcTable where
  bound : Bool := false
  region : Nat := 0
  page : Nat := 0
  digest : List Byte := []
  users : Nat := 0
  deriving DecidableEq, Repr

/-- The codec: its engines, the table directory by saggar and ID, and jobs that wait for an engine after
a fence. -/
structure Cdc where
  eng : Assoc Nat CdcEngine := []
  tables : Assoc (Nat × Nat) CdcTable := []
  homeless : List CdcJob := []
  nextJob : Nat := 0
  deriving DecidableEq, Repr

/-! ## Pug (chapter 10) -/

/-- A contribution packet received (R281). -/
structure PugPkt where
  partial_ : Bool := false
  pos : Nat := 0
  slice : Nat := 0
  part : Nat := 0
  empty : Bool := false
  enc : Nat := 0
  wSel : Nat := 0
  nelem : Nat := 0
  label : Nat := 0
  ret : Nat := 0
  data : List Byte := []
  /-- What the packet's update left wrong and the residue did not show (R295). -/
  upset : LaneUpset := {}
  deriving DecidableEq, Repr

/-- A run of bytes a Pug unit writes: its number, its unit. -/
structure PugWrite where
  id : Nat := 0
  unit : Nat := 0
  x : Xfer := {}
  deriving DecidableEq, Repr

/-- A packet a Pug unit sends that is not a write, with its tag once it is sent. -/
structure PugMsg where
  unit : Nat := 0
  pkt : Packet := {}
  tag : Option Nat := none
  deriving DecidableEq, Repr

/-- A `COLL_RESULT` a stage answers once its writes are acknowledged. -/
structure PugResult where
  pkt : Packet := {}
  ids : List Nat := []
  code : Nat := 0
  deriving DecidableEq, Repr

/-- A collective at its root or at a stage (R274, R293). -/
structure Coll where
  saggar : Nat := 0
  handle : Nat := 0
  stage : Bool := false
  inst : Nat := 0
  root : Nat := 0
  desc : List Byte := []
  epoch : Nat := 0
  /-- The state code of R293. -/
  st : Nat := 2
  units : List Nat := []
  f : Int := 0
  bytes : Nat := 0
  got : List PugPkt := []
  /-- Children heard from, and their `RET`. -/
  ret : Assoc (Bool × Nat) Nat := []
  /-- Finished slices (of a block, at a stage) and the root's finished bytes. -/
  fin : List (Nat × Nat) := []
  outs : Assoc Nat (List Byte) := []
  /-- Blocks of a broadcast a stage has registered with the root. -/
  told : List Nat := []
  writes : List PugWrite := []
  msgs : List PugMsg := []
  results : List PugResult := []
  nextId : Nat := 0
  ovf : Nat := 0
  sat : Nat := 0
  abandon : Option Nat := none
  poison : Bool := false
  deriving DecidableEq, Repr

/-- An open whose stages are being armed: its call, the handles, the arming packets, the first refusal. -/
structure PugOpen where
  call : Option Packet := none
  saggar : Nat := 0
  first : Nat := 0
  count : Nat := 0
  arms : List PugMsg := []
  armed : List Nat := []
  refused : Option (Nat × Nat) := none
  deriving DecidableEq, Repr

/-- A combining entry (R297): its number, unit, the originals in join order, when it closes, and the tag
of its combined atomic once it has closed. -/
structure CombEntry where
  id : Nat := 0
  unit : Nat := 0
  op : Nat := 0
  dst : Nat := 0
  saggar : Nat := 0
  off : Nat := 0
  originals : List Packet := []
  deadline : Nat := 0
  tag : Option Nat := none
  deriving DecidableEq, Repr

/-- Pug: the fences of its units, collectives, opens being armed, combining entries, and completion
records and frees that outlive their collective. -/
structure Pug where
  unit : Assoc Nat FenceSt := []
  colls : List Coll := []
  opens : List PugOpen := []
  comb : List CombEntry := []
  nextComb : Nat := 0
  records : List PugWrite := []
  msgs : List PugMsg := []
  deriving DecidableEq, Repr

/-! ## Gather and Sieve (chapter 11) -/

/-- A sub-request of a pooling request: its packet and its tag once sent. -/
structure GthSub where
  pkt : Packet := {}
  tag : Option Nat := none
  deriving DecidableEq, Repr

/-- A pooling request or sub-request (R302 to R306): the definition it is bound to, its frame, entries not
yet read (entry, weight), the sum so far, what is out, and the first failure. -/
structure GthReq where
  id : Nat := 0
  call : Packet := {}
  engine : Option Nat := none
  def_ : List Byte := []
  f : Int := 0
  left : List (Nat × Nat) := []
  acc : List (Bool × Nat × Int × Nat × Bool) := []
  subs : List GthSub := []
  poison : Bool := false
  failed : Option Nat := none
  deriving DecidableEq, Repr

/-- A row directory entry (R308): frozen, and where the row has moved: node, hot index, slot. -/
structure GthEntry where
  frozen : Bool := false
  moved : Option (Nat × Nat × Nat) := none
  deriving DecidableEq, Repr

/-- A migration in progress (R309): its call, the row's key, its destination (none: the default slot), and
its copy. -/
structure GthMove where
  call : Packet := {}
  saggar : Nat := 0
  table : Nat := 0
  gen : Nat := 0
  row : Nat := 0
  dest : Option (Nat × Nat × Nat) := none
  dstAddr : Nat := 0
  rd : Xfer := {}
  wr : Option Xfer := none
  deriving DecidableEq, Repr

/-- A part of a request a default owner forwards (R308): position, bytes, tag, data, answer. -/
structure GthPart where
  pos : Nat := 0
  len : Nat := 0
  node : Nat := 0
  off : Nat := 0
  tag : Nat := 0
  data : List Byte := []
  code : Option Nat := none
  hint : Nat := 0
  deriving DecidableEq, Repr

/-- A request forwarded to moved rows. -/
structure GthFwd where
  orig : Packet := {}
  parts : List GthPart := []
  deriving DecidableEq, Repr

/-- Gather: fences, requests, the row directories by (saggar, table, generation, row), migrations and
forwards. -/
structure Gth where
  unit : Assoc Nat FenceSt := []
  reqs : List GthReq := []
  nextReq : Nat := 0
  dir : Assoc (Nat × Nat × Nat × Nat) GthEntry := []
  moves : List GthMove := []
  fwds : List GthFwd := []
  deriving DecidableEq, Repr

/-- A side-list entry (R314): list, insert sequence, the E bytes. -/
structure SivSide where
  list : Nat := 0
  seq : Nat := 0
  bytes : List Byte := []
  deriving DecidableEq, Repr

/-- A merge in progress (R323): target, snapshot, whether the switch has happened. -/
structure SivMerge where
  target : Nat := 0
  sm : Nat := 0
  gm : Nat := 0
  switched : Bool := false
  deriving DecidableEq, Repr

/-- A Sieve index (R313, R317): the regions its section names, the image in force, version, insert
sequence, delete generation, merge floor, side lists, tombstones and delete log. -/
structure SivIndex where
  cfgImage : Nat := 0
  side : Nat := 0
  image : Nat := 0
  version : Nat := 1
  insSeq : Nat := 0
  delGen : Nat := 0
  floor : Nat := 0
  sides : List SivSide := []
  tomb : List Nat := []
  log : List (Nat × Nat) := []
  merge : Option SivMerge := none
  deriving DecidableEq, Repr

/-- A running query with its snapshot (R317). -/
structure SivReq where
  id : Nat := 0
  call : Packet := {}
  engine : Option Nat := none
  index : Nat := 0
  image : Nat := 0
  version : Nat := 0
  floor : Nat := 0
  s : Nat := 0
  g : Nat := 0
  deriving DecidableEq, Repr

/-- Sieve. -/
structure Siv where
  unit : Assoc Nat FenceSt := []
  reqs : List SivReq := []
  nextReq : Nat := 0
  index : Assoc (Nat × Nat) SivIndex := []
  deriving DecidableEq, Repr

end Sys2Proof.Machine
end

