-- ==== Sys2Proof/Machine/StateHost.lean ====
section
/-! DEFINITION. The state of the ports (chapter 15) and of the Jaesque host link (chapter 16). Every
field's initial value is its value at reset. -/

namespace Sys2Proof.Machine

/-- The lane operation in progress on a receiver or transmitter (R425, R426, R428): which logical lane
moves, to which physical lane, how far it has come, and whether it belongs to a rotation visit. -/
structure LaneMove where
  lane : Nat := 0
  target : Nat := 8
  /-- 1 requested, 2 mirror on, 3 ready, 4 switch scheduled. -/
  stage : Nat := 1
  atFseq : Nat := 0
  visit : Bool := false
  restore : Bool := false
  deriving DecidableEq, Repr

/-- An event record of an LD's event log (R435): LD-ID, status code, device physical address. -/
structure LdEvent where
  ld : Nat := 0
  status : Nat := 0
  dpa : Nat := 0
  deriving DecidableEq, Repr

/-- A CXL request waiting for its fabric answer (R434). -/
structure CxlReq where
  ld : Nat := 0
  hostTag : Nat := 0
  dpa : Nat := 0
  write : Bool := false
  tag : Nat := 0
  deriving DecidableEq, Repr

/-- A CXL request that waits: LD, the host's tag, address, and a write's data. -/
structure CxlWait where
  ld : Nat := 0
  hostTag : Nat := 0
  dpa : Nat := 0
  data : Option (List Byte) := none
  deriving DecidableEq, Repr

/-- One port. -/
structure Port where
  fence : FenceSt := {}
  /-- `PRT_STATE.LSTATE`: 0 `DOWN`, 1 `TRAIN`, 2 `ALIGN`, 3 `EXCHANGE`, 4 `UP`, 5 `OFF`. -/
  lst : Nat := 0
  /-- Deadline of the state's budget, and when training may be attempted again (R415). -/
  deadline : Option Nat := none
  retryAt : Option Nat := none
  spareBusy : Bool := false
  width : Nat := 0
  peer : Nat := 0xFFFF
  /-- Physical lane of each logical lane, receive and transmit (`PRT_LANES.MAP`). -/
  map : List Nat := [0, 1, 2, 3, 4, 5, 6, 7]
  txMap : List Nat := [0, 1, 2, 3, 4, 5, 6, 7]
  rotActive : Bool := false
  rotLane : Nat := 0
  /-- The lane the next visit takes, and the end of a recalibration in progress (R428). -/
  rotNext : Nat := 0
  recalDeadline : Option Nat := none
  /-- When a mirrored copy has matched long enough (R425). -/
  mirrorDeadline : Option Nat := none
  rotDeadline : Option Nat := none
  warn : List Nat := []
  retired : List Nat := []
  /-- Physical lanes lost since training (R427). -/
  lost : List Nat := []
  /-- `PRT_MARGIN0..8`: eye width and height of lanes measured since `UP`. -/
  margin : Assoc Nat (Nat × Nat) := []
  rxMove : Option LaneMove := none
  txMove : Option LaneMove := none
  /-- Transmitter: next `FSEQ`, frames kept for retry with their packets, replays of each `SOP` frame. -/
  txSeq : Nat := 0
  retry : List (LinkFrame × Packet) := []
  replays : Assoc Nat Nat := []
  /-- Credits: received totals and cells consumed per 8 × vc + class; totals returned and last sent. -/
  crTot : Assoc Nat Nat := []
  crUsed : Assoc Nat Nat := []
  crRet : Assoc Nat Nat := []
  crSent : Assoc Nat Nat := []
  /-- The selector last put into a frame (R421), and credits withheld from an endpoint (R358). -/
  crRot : Nat := 0
  withheld : Assoc Nat Nat := []
  /-- Receiver: next `FSEQ`, `ACK` to send, `SOP` frame of a packet partly received, frame a
  `REPLAY_REQ` named and when it is repeated. -/
  rxSeq : Nat := 0
  ackSeq : Nat := 0
  ackV : Bool := false
  partialSop : Option Nat := none
  /-- The buffered packet of that frame. -/
  partialPid : Option Nat := none
  replayReq : Option Nat := none
  replayDeadline : Option Nat := none
  silence : Option Nat := none
  idle : Option Nat := none
  /-- When a continuous digest mismatch is reported (R419). -/
  digestDeadline : Option Nat := none
  digestTold : Bool := false
  peerDigest : Nat := 0
  /-- CXL link of an `EDGE_C` port: up, rate in GT/s, width, requests waiting, event logs. -/
  cxlUp : Bool := false
  cxlRate : Nat := 0
  cxlReqs : List CxlReq := []
  /-- Requests that wait for a place or a grain, and the LD served last (R342, R434). -/
  cxlWait : List CxlWait := []
  cxlTurn : Nat := 0
  ldEvents : List LdEvent := []
  /-- Tags of the endpoint's outstanding requests (R358). -/
  edgeOutst : List Nat := []
  deriving DecidableEq, Repr

/-- A session (`JSL_SESS`, R447 to R450, R454). -/
structure Session where
  /-- 1 operator, 2 tenant. -/
  role : Nat := 0
  /-- The claim session of R503. -/
  claim : Bool := false
  /-- The key digest a claim session's HELLO named. -/
  claimKey : List Byte := []
  keySlot : Nat := 0
  /-- Saggars a tenant session reaches, one bit each. -/
  mask : Nat := 0
  via : Option Nat := none
  keyRx : List Byte := []
  keyTx : List Byte := []
  ctrRx : Nat := 0
  ctrTx : Nat := 0
  subscribed : Bool := false
  minSev : Nat := 0
  events : List LogEntry := []
  skipped : Nat := 0
  deriving DecidableEq, Repr

/-- A handshake between HELLO and PROOF (R448). -/
structure Handshake where
  via : Option Nat := none
  hello : HelloMsg := {}
  transcript : List Byte := []
  secret : List Byte := []
  claim : Bool := false
  slot : Nat := 0
  deriving DecidableEq, Repr

/-- A BULK transfer (R453): session, kind, total length, and the bytes that have come. -/
structure Bulk where
  sid : Nat := 0
  kind : Nat := 0
  total : Nat := 0
  bytes : List (Nat × List Byte) := []
  /-- Staged in 32 MiB of the switch buffer's shared pool (R586). -/
  inBuf : Bool := false
  deriving DecidableEq, Repr

/-- A record on its way to a sink session (R455): saggar, step, and the object's bytes. -/
structure RecordOut where
  saggar : Nat := 0
  step : Nat := 0
  isSeal : Bool := false
  bytes : List Byte := []
  sid : Nat := 0
  acked : Nat := 0
  deriving DecidableEq, Repr

/-- A Jaesque frame to be sent (R443, R445): its header fields and payload before protection, how often it has
been resent, the relay it goes by (none: this chip's own link), the relayed reply it carries for another chip,
and the saggar whose record's fragment it is. -/
structure JqSend where
  f : JqFrame := {}
  payload : List Byte := []
  resends : Nat := 0
  via : Option Nat := none
  reply : Option Packet := none
  record : Option Nat := none
  deriving DecidableEq, Repr

/-- The Jaesque host link. -/
structure Jsl where
  /-- `JSL_STATE.LSTATE`: 0 `DOWN`, 1 `LOCK`, 2 `ALIGN`, 3 `INIT`, 4 `UP`. -/
  lst : Nat := 0
  deadline : Option Nat := none
  retryAt : Option Nat := none
  sessions : Assoc Nat Session := []
  handshakes : List Handshake := []
  /-- BULK transfers open, by 65,536 × session + `XFER`. -/
  bulks : Assoc Nat Bulk := []
  /-- `JSL_SINK` of each saggar: `EN` in bit 3, `SID` in [2:0]. -/
  sink : Assoc Nat Word32 := []
  /-- Retry buffer: sequenced frames sent on the link and not acknowledged. -/
  txSeq : Nat := 0
  retry : List JqSend := []
  /-- Frames that wait for a credit of their class or room in the retry buffer. -/
  waiting : List JqSend := []
  rxSeq : Nat := 0
  ack : Nat := 0
  ackV : Bool := false
  replayReq : Option Nat := none
  replayDeadline : Option Nat := none
  silence : Option Nat := none
  idle : Option Nat := none
  /-- Credits per class CSR, BULK, EVENT, RECORD: last received totals, frames sent, totals returned. -/
  crTot : List Nat := [0, 0, 0, 0]
  crUsed : List Nat := [0, 0, 0, 0]
  crRet : List Nat := [0, 0, 0, 0]
  /-- Relayed frames by node, session and direction (R456): next `RSEQ` expected and next to send, trains
  held ahead of a gap, and by session when a gap ends it. -/
  relayRx : Assoc (Nat × Nat × Nat) Nat := []
  relayTx : Assoc (Nat × Nat × Nat) Nat := []
  relayHeld : Assoc (Nat × Nat × Nat) (List (Nat × Packet)) := []
  relayDeadline : Assoc Nat Nat := []
  /-- As relay (R457): frames taken from the link that wait, and when frames to each target and class went. -/
  relayWait : List JqFrame := []
  relayOut : Assoc (Nat × Nat) (List Nat) := []
  /-- Tags of relayed record fragments not yet answered, with their saggar. -/
  relayRecs : Assoc Nat Nat := []
  /-- Fragments of relayed messages not yet whole: by relay or session and message, index and bytes. -/
  frags : Assoc (Nat × Nat) (List (Nat × List Byte)) := []
  /-- Records and seals in the ring, oldest first (R153), those of a saggar's first being delivered. -/
  records : List RecordOut := []
  /-- Those of saggars that are gone, waiting for room in the ring. -/
  late : List RecordOut := []
  /-- New sessions and transfers are refused: an orderly power-down has begun (R574). -/
  closing : Bool := false
  deriving DecidableEq, Repr

end Sys2Proof.Machine
end

