-- ==== Sys2Proof/Machine/StatePackage.lean ====
section
/-! DEFINITION. The state of the package (chapter 22: power, rails, thermal, clocks, pins) and of the
Witness (chapter 19: taps and mirror on SD, and WD itself). Every field's initial value is its value at
reset. -/

namespace Sys2Proof.Machine

/-- Telemetry of one rail (`PMC_RAIL`, `PMC_POUT`). -/
structure Rail where
  mv : Nat := 0
  /-- Quarters of an ampere. -/
  iout : Nat := 0
  pg : Bool := false
  ocWarn : Bool := false
  otWarn : Bool := false
  fault : Bool := false
  off : Bool := true
  watts : Nat := 0
  deriving DecidableEq, Repr

/-- One die's thermal state (`PMC_THERM`). -/
structure Therm where
  valid : Bool := false
  skip : Nat := 0
  temp : Nat := 0
  deriving DecidableEq, Repr

/-- Package, power and clocks. -/
structure Pkg where
  /-- `MGT_PWR.STATE`, 0x1 always-on, and `LAST_RESET`, kept in NVM. -/
  st : Nat := 1
  lastReset : Nat := 0
  /-- Power-on steps completed, their times in units of 2^16 MCLK cycles, and the rise of `PWR_GOOD_AON`. -/
  stepsDone : List Nat := []
  stepT : Assoc Nat Nat := []
  aonAt : Nat := 0
  /-- Pins, true while high: `PWR_GOOD_AON`, `PWR_GOOD_CORE`, `RESET_N`, `WARM_RESET_N`, `THERMTRIP_N`. -/
  pgAon : Bool := false
  pgCore : Bool := false
  resetN : Bool := true
  warmN : Bool := true
  tripN : Bool := true
  /-- The step at which power-on restarts once the cause of a reset ends; none while none is held. -/
  restartAt : Option Nat := none
  /-- Rail group being switched on (1 to 7; 0 none, 8 all), rails of it still awaited, its deadline, and
  that of `PWR_GOOD_CORE`. -/
  group : Nat := 0
  awaited : List Nat := []
  groupDeadline : Option Nat := none
  coreDeadline : Option Nat := none
  skipHbm : Bool := false
  railFault : Bool := false
  rails : Assoc Nat Rail := []
  /-- Energy not yet a whole joule, in W × MCLK cycles. -/
  energyAcc : Nat := 0
  /-- `PMC_AVS`: steps above the voltage-table value and last commanded voltage; the voltage table of SD
  NVM by adaptive rail. -/
  avs : Assoc Nat (Nat × Nat) := []
  voltTable : Assoc Nat Nat := []
  therm : Assoc Nat Therm := []
  /-- `PMC_LIMIT.PKG_LIMIT` as stored (none: the variant maximum), and the cap fraction c. -/
  limit : Option Nat := none
  cap : Nat := 0
  rootLock : Bool := false
  holdover : Bool := false
  selB : Bool := false
  aValid : Bool := false
  bValid : Bool := false
  holdoverAt : Option Nat := none
  /-- The CSR pointer of the I3C target. -/
  i3cPtr : Nat := 0
  deriving DecidableEq, Repr

/-- The mirror words WD writes with a heartbeat (R510, R512, R525): the state words, the firmware identity, and of
each saggar its registers 0 to 6 and `WIT_SAG`. -/
structure MirrorWords where
  state : Word32 := 0
  events : Nat := 0
  swId : Nat := 0
  swChecksum : List Byte := []
  sags : List (Nat × List Nat × Word32) := []
  deriving DecidableEq, Repr

/-- The taps of SD and the mirror of the WIT block. -/
structure Wit where
  /-- SD has missed the mirror heartbeat (cause 0x1 of R527). -/
  wdDown : Bool := false
  /-- When the mirror was last written, from which `HB_AGE` counts. -/
  heardAt : Nat := 0
  mirror : MirrorWords := {}
  /-- Totals since SD start by saggar and quantity (0 to 2), those last sent, and levels last sent. -/
  totals : Assoc (Nat × Nat) Nat := []
  sent : Assoc (Nat × Nat) Nat := []
  sentLevels : Assoc (Nat × Nat) Nat := []
  tseq : Nat := 0
  sdBoot : Word32 := 0
  /-- Changes of the staged image forwarded to WD and not answered, and whether WD refused one (R520). -/
  awaiting : Nat := 0
  refused : Bool := false
  deriving DecidableEq, Repr

/-- One firmware copy of WD. -/
structure WdFw where
  svn : Nat := 0
  code : List Byte := []
  deriving DecidableEq, Repr

/-- A committed register copy (R518), and whether its CRC-32C passes. -/
structure WdCopy where
  commit : Nat := 0
  regs : Assoc (Nat × Nat) Nat := []
  ok : Bool := true
  deriving DecidableEq, Repr

/-- An audit entry (R522). -/
structure AuditEntry where
  ticks : Nat := 0
  kind : Nat := 0
  slots : List Nat := []
  old : List Byte := []
  new : List Byte := []
  deriving DecidableEq, Repr

/-- The Witness die. All but the working registers, levels, baselines and held reads is in its NVM. -/
structure Wd where
  /-- WD runs; a firmware package is written and waits for the next commit. -/
  started : Bool := false
  installing : Bool := false
  fwB : Bool := false
  fwA : WdFw := {}
  fwBcopy : WdFw := {}
  svnFloor : Nat := 0
  /-- Metered registers by saggar and register number 0 to 6, at most 2^96 − 1. -/
  regs : Assoc (Nat × Nat) Nat := []
  copies : List WdCopy := [{}, {}]
  /-- Held levels by saggar and quantity 3 to 6. -/
  levels : Assoc (Nat × Nat) Nat := []
  /-- The last total by saggar and quantity; none: the next total is a baseline. -/
  lasts : Assoc (Nat × Nat) Nat := []
  sdBoot : Nat := 0
  /-- Ticks since first power-up, and the tick of the last commit. -/
  ticks : Nat := 0
  ticksAt : Nat := 0
  /-- Tick of the last valid tap frame; the last one announced an orderly power-down. -/
  lastFrame : Nat := 0
  orderly : Bool := false
  /-- Faults that hold (causes 0x2 to 0x4), and fault intervals since manufacture. -/
  tapLoss : Bool := false
  nvmFault : Bool := false
  selfFault : Bool := false
  faults : Nat := 0
  /-- The audit trail; its length is the event counter (R522). -/
  audit : List AuditEntry := []
  /-- The enrolled key slots WD holds, by slot number. -/
  authorities : Option (List KeySlot) := none
  params : List Byte := []
  /-- The approved firmware digest and the slots that signed it. -/
  approved : Option (List Byte × List Nat) := none
  /-- Last `FAB_NODE` forwarded. -/
  node : Nat := 0
  /-- Ticks of the last answered read of a metered confidential saggar by path and saggar, and reads
  held: path, saggar, tag, session. -/
  lastRead : Assoc (Nat × Nat) Nat := []
  held : List (Nat × Nat × Nat × Nat) := []
  deriving DecidableEq, Repr

end Sys2Proof.Machine
end

