-- ==== Sys2Proof/Machine/State.lean ====
section
/-! DEFINITION. The whole state of the block: every block's registers and structures, the commands that
wait, and what the block has sent. Every field's initial value is its value at reset. -/

namespace Sys2Proof.Machine

/-- A TC0 `CTRL` message of one control plane to another (R475 to R478, R533 to R542, R379, R361). -/
inductive CtrlMsg where
  | prepare (epoch : Nat) (digest : List Byte) (fences : List Nat)
  | ready (epoch : Nat)
  | commit (epoch : Nat)
  | abandon (epoch : Nat)
  | drained (epoch : Nat)
  | forceClose (epoch : Nat)
  | coordAlive
  | coordClaim (claimant epoch standby : Nat)
  | coordQuery
  | coordAnswer (coord : Nat)
  | epochAnswer (epoch : Nat)
  | deniedCoord (coord : Nat)
  | epLost (comp endpoint : Nat)
  /-- A request to the coordinator to place a node in the next fence list, or to lift its fence. -/
  | fenceRequest (node : Nat)
  | unfenceRequest (node : Nat)
  | probe
  | probeAnswer
  | nodeLost (node : Nat)
  | join
  | domainFence (domain cause : Nat)
  | domainDown (domain : Nat)
  | domainUp (domain : Nat)
  | directoryCleared (domain : Nat)
  | hotRange (h : HotRange)
  deriving DecidableEq, Repr

/-- What the block hands to the outside, other than fabric packets (which wait in `Fab.tx`). -/
inductive Out where
  /-- The answer to a CSR access (R30): requester, address, status, word read. -/
  | csr (who : Who) (addr : Nat) (status : Status) (word : Word32)
  /-- A link frame sent on a port, with the packet a `DATA` frame carries. -/
  | frame (port : Nat) (f : LinkFrame) (p : Option Packet)
  /-- An `EXCH` frame sent on a port (R416). -/
  | exch (port : Nat) (b : ExchBody)
  /-- A Jaesque frame with its payload, before protection (R442, R449). -/
  | jq (f : JqFrame) (payload : List Byte)
  /-- A TC0 `CTRL` message to a node. -/
  | ctrl (dst : Nat) (m : CtrlMsg)
  /-- An answer to a CXL host (R435): port, LD, tag, data, poison. -/
  | cxl (port ld tag : Nat) (data : List Byte) (poison : Bool)
  /-- A back-invalidation snoop to a CXL host (R376). -/
  | biSnp (port home offset : Nat)
  /-- MD1's answer to a frame write or discard: first unit, units, status, backoff hint (R226, R240). -/
  | flm (lua units : Nat) (st : Status) (hint : Nat)
  /-- A tap frame to WD (R513). -/
  | tap (f : TapFrame)
  /-- A change item SD forwards to WD (R512). -/
  | toWd (c : WitnessChange)
  /-- A Witness firmware package SD forwards to WD (R521). -/
  | toWdPackage (package : List Byte)
  /-- A signed Witness object that leaves on the M-port (R523, R524). -/
  | mport (obj : List Byte)
  /-- The words of an I3C private read (R569). -/
  | i3c (words : List Word32)
  deriving DecidableEq, Repr

/-- Why a step can stop. -/
inductive Fault where
  /-- Raised by every meaning when an operand of the command lies outside the range the spec gives it
  (a unit number no chip has, a header field wider than its bits): such a command cannot reach the
  hardware. Safe: the model stops where the hardware has no such event. -/
  | illFormedCommand
  deriving DecidableEq, Repr

/-- Why a command has no meaning in the model. -/
inductive Refusal where
  /-- Raised only by an arm of `exec` whose command has no meaning yet, naming it. Safe. -/
  | notModelled (mnemonic : String)
  deriving DecidableEq, Repr

/-- The whole block. -/
structure State where
  /-- Time in root ticks of 1/15 GHz, from which every clock divides (R582). -/
  now : Nat := 0
  /-- Counter of free values drawn (the model's own). -/
  free : Nat := 0
  /-- The variant of the part (R3, R6). -/
  variant : Variant := .plf8af
  /-- Commands waiting, first in, first out. -/
  pending : List Instr := []
  /-- What the block has handed out, oldest first (the model's own). -/
  out : List Out := []
  /-- Every SAT field, by CSR address and low bit (R549); zero at reset. -/
  sat : Assoc (Nat × Nat) Nat := []
  /-- Every 64-bit counter of R560, by CSR address; zero at reset. -/
  ctr : Assoc Nat Ctr := []
  arch : Arch := {}
  log : Log := {}
  img : Img := {}
  sec : Sec := {}
  sag : Assoc Nat SagSec := []
  erc : Erc := {}
  fab : Fab := {}
  coh : Coh := {}
  swc : Swc := {}
  prt : Assoc Nat Port := []
  jsl : Jsl := {}
  tie : Tie := {}
  flm : Flm := {}
  cdc : Cdc := {}
  pug : Pug := {}
  gth : Gth := {}
  siv : Siv := {}
  arrs : Arrs := {}
  trm : Assoc Nat Trm := []
  trms : Trms := {}
  sit : Assoc Nat SitSag := []
  lead : Assoc Nat SitLead := []
  att : Att := {}
  pkg : Pkg := {}
  wit : Wit := {}
  wd : Wd := {}
  deriving DecidableEq, Repr

/-- The block right after reset: every field at its reset value. -/
def State.reset : State := {}

end Sys2Proof.Machine
end

