-- ==== Sys2Proof/Machine/Regs.lean ====
section
/-! DEFINITION. Where the SAT fields (address and low bit) and the 64-bit counters (address) of every
block lie in the CSR space, as each chapter's register tables give them. -/

namespace Sys2Proof.Machine

/-- Page bases of the instance pages. -/
def arrPage (a : Nat) : Nat := 0x0800000 + a / 384 * 0x40000 + a % 384 * 0x200
def trmPage (t : Nat) : Nat := 0x0C00000 + t * 0x1000
def attPage (g : Nat) : Nat := 0x0F00000 + g * 0x100
def sitPage (g : Nat) : Nat := 0x0701000 + g * 0x100
def tiePage (g : Nat) : Nat := 0x1001000 + g * 0x100
def ddrPage (c : Nat) : Nat := 0x1100000 + c * 0x100
def hbmPage (k : Nat) : Nat := 0x1200000 + k * 0x100
def flmChPage (c : Nat) : Nat := 0x1410000 + c * 0x100
def cdcPage (e : Nat) : Nat := 0x0600000 + e * 0x1000
def pugPage (u : Nat) : Nat := 0x0500000 + u * 0x1000
def gthPage (e : Nat) : Nat := 0x0580000 + e * 0x1000
def sivPage (e : Nat) : Nat := 0x05C0000 + e * 0x1000
def gthSkew (g t : Nat) : Nat := 0x0588000 + g * 0x800 + t * 0x20
def prtPage (p : Nat) : Nat := 0x0200000 + p * 0x1000
def swcPage (p c : Nat) : Nat := 0x0310000 + p * 0x100 + c * 0x10
def swcSagPage (g : Nat) : Nat := 0x0380000 + g * 0x40
def sagPage (g : Nat) : Nat := 0x1800000 + g * 0x1000

/-- SAT fields: (register address, low bit). All are 16 bits wide but the two restart counts. -/
def satMpRestarts : Nat × Nat := (0x0010040, 16)
def satCpRestarts : Nat × Nat := (0x0010040, 8)
def satArrResidue (a : Nat) : Nat × Nat := (arrPage a + 4, 16)
def satArrPoison (a : Nat) : Nat × Nat := (arrPage a + 4, 0)
def satTrmUserFault (t : Nat) : Nat × Nat := (trmPage t + 4, 16)
def satTrmParity (t : Nat) : Nat × Nat := (trmPage t + 4, 0)
def satSitMismatch (g : Nat) : Nat × Nat := (sitPage g + 0x24, 16)
def satSitCutoffs (g : Nat) : Nat × Nat := (sitPage g + 0x24, 0)
def satAttPoison (g : Nat) : Nat × Nat := (attPage g + 4, 16)
def satAttRefused (g : Nat) : Nat × Nat := (attPage g + 4, 0)
def satTieFallbacks (g : Nat) : Nat × Nat := (tiePage g + 8, 16)
def satFlmProgFail : Nat × Nat := (0x1400010, 16)
def satFlmEraseFail : Nat × Nat := (0x1400010, 0)
def satFlmReadFail : Nat × Nat := (0x1400014, 16)
def satFlmRetried : Nat × Nat := (0x1400014, 0)
def satCdcDamaged (e : Nat) : Nat × Nat := (cdcPage e + 4, 16)
def satCdcPoisonIn (e : Nat) : Nat × Nat := (cdcPage e + 4, 0)
def satPugResidue (u : Nat) : Nat × Nat := (pugPage u + 4, 16)
def satPugDup (u : Nat) : Nat × Nat := (pugPage u + 4, 0)
def satGthPoison (e : Nat) : Nat × Nat := (gthPage e + 4, 16)
def satGthRefused (e : Nat) : Nat × Nat := (gthPage e + 4, 0)
def satSivPoison (e : Nat) : Nat × Nat := (sivPage e + 4, 16)
def satSivRefused (e : Nat) : Nat × Nat := (sivPage e + 4, 0)
def satFabGrainCrc : Nat × Nat := (0x040000C, 16)
def satFabUnknown : Nat × Nat := (0x040000C, 0)
def satFabTimeout : Nat × Nat := (0x0400010, 16)
def satFabOrphan : Nat × Nat := (0x0400010, 0)
def satCohFences : Nat × Nat := (0x0400048, 16)
def satCohReverts : Nat × Nat := (0x0400048, 0)
def satSwcLeaked : Nat × Nat := (0x0300008, 16)
def satSwcAged : Nat × Nat := (0x0300008, 0)
def satSwcNoRoute : Nat × Nat := (0x030000C, 16)
def satSwcSmpLost : Nat × Nat := (0x030000C, 0)
def satPrtLinkDown (p : Nat) : Nat × Nat := (prtPage p + 8, 16)
def satPrtLaneLost (p : Nat) : Nat × Nat := (prtPage p + 8, 0)
def satPrtDigest (p : Nat) : Nat × Nat := (prtPage p + 0xC, 16)
def satPrtMiscabled (p : Nat) : Nat × Nat := (prtPage p + 0xC, 0)
def satJslCrc : Nat × Nat := (0x0100004, 16)
def satJslAuthFail : Nat × Nat := (0x0100004, 0)
def satJslLinkDown : Nat × Nat := (0x0100008, 16)
def satJslRelayLost : Nat × Nat := (0x0100008, 0)
def satImgRefused : Nat × Nat := (0x008000C, 16)
def satImgStale : Nat × Nat := (0x008000C, 0)
def satSecDcRefused : Nat × Nat := (0x004000C, 16)
def satSecKeyFail : Nat × Nat := (0x004000C, 0)
def satErcMerge : Nat × Nat := (0x0070008, 16)
def satErcNodeLost : Nat × Nat := (0x0070008, 0)
def satLogSuppressed : Nat × Nat := (0x0050014, 16)
def satLogStoreFail : Nat × Nat := (0x0050014, 0)
def satClkSwitches : Nat × Nat := (0x0020004, 16)
def satClkInvalid : Nat × Nat := (0x0020004, 0)
def satPmcThrottle : Nat × Nat := (0x0060304, 16)
def satPmcPmbus : Nat × Nat := (0x0060304, 0)

/-- The SAT fields of the register at an address: low bit and width (R549). -/
def satFieldsAt (addr : Nat) : List (Nat × Nat) :=
  let two : List (Nat × Nat) := [(16, 16), (0, 16)]
  if addr = 0x0010040 then [(16, 8), (8, 8)]
  else if addr ∈ [0x1400010, 0x1400014, 0x040000C, 0x0400010, 0x0400048, 0x0300008, 0x030000C, 0x0100004,
      0x0100008, 0x008000C, 0x004000C, 0x0070008, 0x0050014, 0x0020004, 0x0060304] then two
  else if 0x0800000 ≤ addr ∧ addr < 0x0900000 ∧ addr % 0x200 = 4 ∧ addr % 0x40000 < 384 * 0x200 then two
  else if 0x0C00000 ≤ addr ∧ addr < 0x0C80000 ∧ addr % 0x1000 = 4 then two
  else if 0x0F00000 ≤ addr ∧ addr < 0x0F04000 ∧ addr % 0x100 = 4 then two
  else if 0x0701000 ≤ addr ∧ addr < 0x0705000 ∧ addr % 0x100 = 0x24 then two
  else if 0x1001000 ≤ addr ∧ addr < 0x1005000 ∧ addr % 0x100 = 8 then [(16, 16)]
  else if 0x0600000 ≤ addr ∧ addr < 0x0608000 ∧ addr % 0x1000 = 4 then two
  else if 0x0500000 ≤ addr ∧ addr < 0x0510000 ∧ addr % 0x1000 = 4 then two
  else if 0x0580000 ≤ addr ∧ addr < 0x0588000 ∧ addr % 0x1000 = 4 then two
  else if 0x05C0000 ≤ addr ∧ addr < 0x05C8000 ∧ addr % 0x1000 = 4 then two
  else if 0x0200000 ≤ addr ∧ addr < 0x0240000 ∧ (addr % 0x1000 = 8 ∨ addr % 0x1000 = 0xC) then two
  else []

/-- 64-bit counters of R560. -/
def ctrArrBusy (a : Nat) : Nat := arrPage a + 0x10
def ctrTrmRetired (t : Nat) : Nat := trmPage t + 0x10
def ctrAttPages (g : Nat) : Nat := attPage g + 8
def ctrFrames (g tier : Nat) : Nat := tiePage g + 0x10 + 8 * (tier - 2)
def ctrFlmPrograms : Nat := 0x1400020
def ctrFlmErases : Nat := 0x1400028
def ctrFlmRebuildCyc : Nat := 0x1400030
def ctrCdcEnc (e : Nat) : Nat := cdcPage e + 0x10
def ctrCdcDec (e : Nat) : Nat := cdcPage e + 0x18
def ctrPugLane (u : Nat) : Nat := pugPage u + 0x10
def ctrPugCombined (u : Nat) : Nat := pugPage u + 0x18
def ctrFabEvict : Nat := 0x0400020
def ctrFabSuperseded : Nat := 0x0400028
def ctrFabReadMerged : Nat := 0x0400030
def ctrCohInval : Nat := 0x0400050
def ctrSwcDrop : Nat := 0x0300020
def ctrSwcMark : Nat := 0x0300028
def ctrSwcDetour : Nat := 0x0300030
def ctrPrtFrames (p : Nat) : Nat := prtPage p + 0x80
def ctrPrtReplays (p : Nat) : Nat := prtPage p + 0x88
def ctrPrtFec (p : Nat) : Nat := prtPage p + 0x90
def ctrJslTx : Nat := 0x0100020
def ctrJslRx : Nat := 0x0100028
def ctrImgCommits : Nat := 0x0080048
def ctrLogEntries : Nat := 0x0050020
def ctrHoldover : Nat := 0x0020010
def ctrEnergy : Nat := 0x0060310

end Sys2Proof.Machine
end

