-- ==== Sys2Proof/WellFormed.lean ====
section
/-! DEFINITION. Which commands are well formed: every operand in the range the spec gives it (unit
numbers, header fields within their bits). -/

namespace Sys2Proof

/-- Every header field fits its bits, and the payload keeps within a train (R329, R330). -/
def Packet.wf (p : Packet) : Bool :=
  decide (p.dst < 65536) && decide (p.src < 65536) && decide (p.epoch < 65536) && decide (p.opcode < 256)
    && decide (p.saggar < 64) && decide (p.offset < 2 ^ 48) && decide (p.cls < 8) && decide (p.length < 1024)
    && decide (p.seq < 2 ^ 24) && decide (p.tag < 65536) && decide (p.status < 16) && decide (p.hint < 32)
    && decide (p.hops < 64) && decide (p.lc < 2 ^ 32) && decide (p.rsv < 256)

/-- Every field of a link-frame header fits its bits (R417). -/
def LinkFrame.wf (f : LinkFrame) : Bool :=
  decide (f.ftype < 16) && decide (f.fseq < 4096) && decide (f.ack < 4096) && decide (f.cls < 8)
    && decide (f.body < 128) && decide (f.srcNode < 65536) && decide (f.crSel0 < 16) && decide (f.crTot0 < 4096)
    && decide (f.crSel1 < 16) && decide (f.crTot1 < 4096) && decide (f.lc < 2 ^ 32) && decide (f.digest < 2 ^ 64)
    && decide (f.lop < 16) && decide (f.lane < 16) && decide (f.atFseq < 4096)

/-- Every field of an `EXCH` body fits its bytes (R416). -/
def ExchBody.wf (b : ExchBody) : Bool :=
  decide (b.lver < 65536) && decide (b.node < 65536) && decide (b.role < 4) && decide (b.port < 256)
    && decide (b.digest < 2 ^ 64) && decide (b.lc < 2 ^ 32)

/-- Every field of a Jaesque frame header fits its bits (R442). -/
def JqFrame.wf (f : JqFrame) : Bool :=
  decide (f.ftype < 16) && decide (f.mclass < 4) && decide (f.sid < 8) && decide (f.len < 2048)
    && decide (f.fseq < 256) && decide (f.tnode < 65536) && decide (f.ack < 256) && decide (f.crCsr < 256)
    && decide (f.crBulk < 256) && decide (f.crEvent < 256) && decide (f.crRecord < 256)

/-- Every field of a tap frame fits its bytes (R513). -/
def TapFrame.wf (f : TapFrame) : Bool :=
  decide (f.magic < 65536) && decide (f.kind < 256) && decide (f.saggar < 256) && decide (f.qty < 256)
    && decide (f.value < 2 ^ 64) && decide (f.tseq < 2 ^ 32) && decide (f.sdBoot < 2 ^ 32)

/-- The upset lies in a column of the array and within the K of a tile (R65). -/
def Upset.wf : Upset → Bool
  | .none => true
  | .reported => true
  | .product col k _ => decide (col < 32) && decide (k < 512)
  | .adder col _ => decide (col < 32)

/-- The memory unit exists on some part (R190, R192, R194). -/
def MemUnit.wf : MemUnit → Bool
  | .ddr c => decide (c < 16)
  | .hbm k => decide (k < 8)
  | .hbmPc k c => decide (k < 8) && decide (c < 64)

/-- The unit exists on some part. -/
def FenceUnit.wf : FenceUnit → Bool
  | .array a => decide (a < 1536)
  | .trimmer t => decide (t < 128)
  | .pug u => decide (u < 16)
  | .codec e => decide (e < 8)
  | .gather e => decide (e < 8)
  | .sieve e => decide (e < 8)
  | .port p => decide (p < 64)
  | .die d => decide (d < 4)
  | .flashDie d => decide (d < 1024)
  | .memory m => m.wf
  | .domain d => decide (d < 65536)
  | .composition c => decide (c < 2 ^ 24)

/-- The requester can exist: session numbers 1 to 7 (R447), saggars and Trimmers of a chip. -/
def Who.wf : Who → Bool
  | .management => true
  | .control => true
  | .operator n => decide (1 ≤ n) && decide (n < 8)
  | .tenant n => decide (1 ≤ n) && decide (n < 8)
  | .trimmerUser g t => decide (g < 64) && decide (t < 128)
  | .trimmerFw g t => decide (g < 64) && decide (t < 128)
  | .bmc => true

/-- Whether a command is well formed. -/
def Instr.wf : Instr → Bool
  | .csrWrite who addr _ => who.wf && decide (addr < 2 ^ 40)
  | .counterLowRead who addr => who.wf && decide (addr < 2 ^ 40)
  | .counterHighRead who addr => who.wf && decide (addr < 2 ^ 40)
  | .witMirrorLowRead who addr => who.wf && decide (addr < 2 ^ 40)
  | .counterClear who addr _ => who.wf && decide (addr < 2 ^ 40)
  | .satFieldClear who addr _ => who.wf && decide (addr < 2 ^ 40)
  | .fenceArrival unit cause => unit.wf && decide (cause < 16)
  | .cpRestart => true
  | .cpRestartEnd => true
  | .mpRestart => true
  | .mpRestartEnd => true
  | .arrIssue t rd rs1 => decide (t < 128) && decide (rd < 32) && decide (rs1 < 32)
  | .arrIssueUnstall t => decide (t < 128)
  | .jobLoadStart a => decide (a < 1536)
  | .tileLoaded a => decide (a < 1536)
  | .groupComplete gid => decide (gid < 65536)
  | .groupAssemblyTimeout gid => decide (gid < 65536)
  | .rampRelease die => decide (die < 4)
  | .operandArrival a slot addr _ => decide (a < 1536) && decide (slot < 2) && decide (addr < 2 ^ 64)
  | .streamToken a upset => decide (a < 1536) && upset.wf
  | .retryReloaded a => decide (a < 1536)
  | .streamComplete a => decide (a < 1536)
  | .jobCompletion a slot => decide (a < 1536) && decide (slot < 2)
  | .arrFenceWrite who a => who.wf && decide (a < 1536)
  | .arrUnfence who a => who.wf && decide (a < 1536)
  | .arrBistDone a _ => decide (a < 1536)
  | .arrayPowerOnBist a _ => decide (a < 1536)
  | .trimmerInstruction t => decide (t < 128)
  | .arrWait t rd rs1 => decide (t < 128) && decide (rd < 32) && decide (rs1 < 32)
  | .arrWaitWake t => decide (t < 128)
  | .arrWaitTimeout t => decide (t < 128)
  | .frmAddS t rd rs1 rs2 => decide (t < 128) && decide (rd < 32) && decide (rs1 < 32) && decide (rs2 < 32)
  | .frmAddH t rd rs1 rs2 => decide (t < 128) && decide (rd < 32) && decide (rs1 < 32) && decide (rs2 < 32)
  | .frmAddI t rd rs1 rs2 => decide (t < 128) && decide (rd < 32) && decide (rs1 < 32) && decide (rs2 < 32)
  | .frmAddF t rd rs1 rs2 => decide (t < 128) && decide (rd < 32) && decide (rs1 < 32) && decide (rs2 < 32)
  | .frmFin t rd rs1 rs2 => decide (t < 128) && decide (rd < 32) && decide (rs1 < 32) && decide (rs2 < 32)
  | .rptRet t rs1 rs2 => decide (t < 128) && decide (rs1 < 32) && decide (rs2 < 32)
  | .shelfPin t rd rs1 rs2 => decide (t < 128) && decide (rd < 32) && decide (rs1 < 32) && decide (rs2 < 32)
  | .shelfUnpin t rd rs1 rs2 => decide (t < 128) && decide (rd < 32) && decide (rs1 < 32) && decide (rs2 < 32)
  | .sampleMark t rs1 => decide (t < 128) && decide (rs1 < 32)
  | .windowLoad t rd addr bytes _ => decide (t < 128) && decide (rd < 32) && decide (addr < 2 ^ 64) && decide (bytes < 9)
  | .windowStore t addr _ => decide (t < 128) && decide (addr < 2 ^ 64)
  | .windowAmo t rd _ addr _ => decide (t < 128) && decide (rd < 32) && decide (addr < 2 ^ 64)
  | .windowRetryBackoff t tag => decide (t < 128) && decide (tag < 65536)
  | .interruptTake t => decide (t < 128)
  | .upcallReturn t => decide (t < 128)
  | .rptHandlerFault t mcause mtval => decide (t < 128) && decide (mcause < 2 ^ 64) && decide (mtval < 2 ^ 64)
  | .rptBudgetExhausted t => decide (t < 128)
  | .mainCodeFault t mcause mtval => decide (t < 128) && decide (mcause < 2 ^ 64) && decide (mtval < 2 ^ 64)
  | .programSwapTimeout saggar => decide (saggar < 64)
  | .trmParityError t _ addr => decide (t < 128) && decide (addr < 2 ^ 64)
  | .fwRestart who t => who.wf && decide (t < 128)
  | .trmFence who t => who.wf && decide (t < 128)
  | .trmUnfence who t => who.wf && decide (t < 128)
  | .trmBistDone t _ => decide (t < 128)
  | .trimmerEnterService t => decide (t < 128)
  | .stepTokenOpen p => p.wf
  | .stepTokenEpDone p => p.wf
  | .stepTokenClose p => p.wf
  | .stepTokenClosed p => p.wf
  | .stepTokenAbort p => p.wf
  | .leaderOpenDue due => decide (due.comp < 2 ^ 24)
  | .memberStepDrained comp => decide (comp < 2 ^ 24)
  | .recRingRoom comp => decide (comp < 2 ^ 24)
  | .dispatch p => p.wf
  | .batchClosePoint saggar layer => decide (saggar < 64) && decide (layer < 256)
  | .batchRun saggar layer expert => decide (saggar < 64) && decide (layer < 256) && decide (expert < 4096)
  | .cutOff saggar layer => decide (saggar < 64) && decide (layer < 256)
  | .shelfTileStaged saggar layer expert tile => decide (saggar < 64) && decide (layer < 256) && decide (expert < 4096) && decide (tile < 2 ^ 20)
  | .sealNow who saggar => who.wf && decide (saggar < 64)
  | .replayEnter who saggar => who.wf && decide (saggar < 64)
  | .replayExit who saggar => who.wf && decide (saggar < 64)
  | .replayRecord saggar _ => decide (saggar < 64)
  | .epWaitExpiry comp endpoint => decide (comp < 2 ^ 24) && decide (endpoint < 65536)
  | .epLost comp endpoint => decide (comp < 2 ^ 24) && decide (endpoint < 65536)
  | .attend p => p.wf
  | .attendBlockDone req seqPage kvHead => decide (req < 2 ^ 32) && decide (seqPage < 2 ^ 31) && decide (kvHead < 256)
  | .regionCreate p => p.wf
  | .regionDelete p => p.wf
  | .regionSeal p => p.wf
  | .regionInfo p => p.wf
  | .pageMovePassDone region page => decide (region < 2 ^ 32) && decide (page < 2 ^ 31)
  | .sweeperPass tier => decide (tier < 5)
  | .tierPromote region page => decide (region < 2 ^ 32) && decide (page < 2 ^ 31)
  | .tierShort saggar tier => decide (saggar < 64) && decide (tier < 5)
  | .openVersion p => p.wf
  | .closeVersion p => p.wf
  | .publish p => p.wf
  | .moverJobStart mover => decide (mover < 32)
  | .moverJobComplete mover => decide (mover < 32)
  | .memoryChannelFence who unit => who.wf && unit.wf
  | .hbmTempRead _ => true
  | .hbmTrainingDone stack _ _ => decide (stack < 8)
  | .dramTrainingDone channel _ => decide (channel < 16)
  | .tieThresholdWrite who saggar _ _ => who.wf && decide (saggar < 64)
  | .flashFrameWrite frame saggar _ _ => decide (frame < 2 ^ 38) && decide (saggar < 64)
  | .pageProgramDone die _ => decide (die < 1024)
  | .programFailure die _ => decide (die < 1024)
  | .eraseFailure die block => decide (die < 1024) && decide (block < 2 ^ 24)
  | .flashRead lua saggar _ _ => decide (lua < 2 ^ 40) && decide (saggar < 64)
  | .gcVictimSelect die => decide (die < 1024)
  | .gcPageMove die _ => decide (die < 1024)
  | .gcVictimErase die => decide (die < 1024)
  | .blockTableCheckpoint => true
  | .flashOpTimeout die => decide (die < 1024)
  | .flmDieFence who die => who.wf && decide (die < 1024)
  | .flmDieUnfence who die => who.wf && decide (die < 1024)
  | .ordinaryDiscard lua units => decide (lua < 2 ^ 40) && decide (units < 2 ^ 32)
  | .secureDiscard lua units => decide (lua < 2 ^ 40) && decide (units < 2 ^ 32)
  | .secureDiscardDone lua => decide (lua < 2 ^ 40)
  | .flmInit channels => decide (channels.length ≤ 32)
  | .flashRebuild => true
  | .rebuildComplete => true
  | .codecEncode p => p.wf
  | .codecDecode p => p.wf
  | .codecBind p => p.wf
  | .codecUnbind p => p.wf
  | .codecJobStart engine => decide (engine < 8)
  | .codecJobComplete engine => decide (engine < 8)
  | .cdcFence who engine => who.wf && decide (engine < 8)
  | .cdcUnfence who engine => who.wf && decide (engine < 8)
  | .collOpen p => p.wf
  | .collCancel p => p.wf
  | .collInfo p => p.wf
  | .collArm p => p.wf
  | .collContrib port p upsets => decide (port < 65) && p.wf && decide (upsets.length ≤ 3)
  | .collResult p => p.wf
  | .collFree p => p.wf
  | .censusCall p => p.wf
  | .combiningEntryClose entry => decide (entry < 2 ^ 32)
  | .pugFence who unit => who.wf && decide (unit < 16)
  | .pugUnfence who unit _ => who.wf && decide (unit < 16)
  | .gatherPool p => p.wf
  | .gatherPoolDone req => decide (req < 2 ^ 32)
  | .gatherMigrate p => p.wf
  | .migrationCopyDone saggar gtable row _ => decide (saggar < 64) && decide (gtable < 64) && decide (row < 2 ^ 48)
  | .sieveQuery p => p.wf
  | .sieveQueryDone req => decide (req < 2 ^ 32)
  | .sieveInsert p => p.wf
  | .sieveDelete p => p.wf
  | .sieveMerge p => p.wf
  | .sieveMergeSwitch saggar sindex => decide (saggar < 64) && decide (sindex < 64)
  | .sieveMergeCleanup saggar sindex => decide (saggar < 64) && decide (sindex < 64)
  | .gthFence who engine => who.wf && decide (engine < 8)
  | .gthUnfence who engine => who.wf && decide (engine < 8)
  | .sivFence who engine => who.wf && decide (engine < 8)
  | .sivUnfence who engine => who.wf && decide (engine < 8)
  | .packetArrival port p frame => decide (port < 65) && p.wf && frame.wf
  | .quotaRelease saggar => decide (saggar < 64)
  | .packetDepart port => decide (port < 64)
  | .read p => p.wf
  | .write p _ => p.wf
  | .atomicAdd p _ => p.wf
  | .atomicMin p _ => p.wf
  | .atomicMax p _ => p.wf
  | .atomicSwap p _ => p.wf
  | .atomicCas p _ => p.wf
  | .frameAdd p _ => p.wf
  | .frameAddF p _ => p.wf
  | .rpt p => p.wf
  | .ack p => p.wf
  | .ackData p => p.wf
  | .completionTimeout tag => decide (tag < 65536)
  | .nackBackoffExpiry tag => decide (tag < 65536)
  | .staleHoldTimeout tag => decide (tag < 65536)
  | .windowEntryExpiry src saggar seq => decide (src < 65536) && decide (saggar < 64) && decide (seq < 2 ^ 24)
  | .fabCtrlWrite who _ => who.wf
  | .hotRangeEntry region home base pages kind saggar => decide (region < 2 ^ 32) && decide (home < 65536) && decide (base < 2 ^ 48) && decide (pages < 2 ^ 32) && decide (kind < 4) && decide (saggar < 64)
  | .mgmt p => p.wf
  | .inval p => p.wf
  | .birsp port home offset => decide (port < 64) && decide (home < 65536) && decide (offset < 2 ^ 48)
  | .ownOffer p => p.wf
  | .ownAccept p => p.wf
  | .ownForce p => p.wf
  | .ownTransferTimeout region => decide (region < 2 ^ 32)
  | .cohCtrlWrite who _ => who.wf
  | .domainFence domain cause _ => decide (domain < 65536) && decide (cause < 8)
  | .domainDirectoryCleared domain member => decide (domain < 65536) && decide (member < 64)
  | .shaperRefill => true
  | .shaperWrite who addr _ => who.wf && decide (addr < 2 ^ 40)
  | .sampleExport => true
  | .packetAgeLimit pid => decide (pid < 2 ^ 64)
  | .auditPassStart => true
  | .auditCellVisit => true
  | .confIdleTurn port cls _ saggar => decide (port < 64) && decide (cls < 8) && decide (saggar < 64)
  | .linkSignalDetect port => decide (port < 64)
  | .linkTrainDone port lanes => decide (port < 64) && decide (lanes < 512)
  | .linkAlignDone port => decide (port < 64)
  | .linkExch port body => decide (port < 64) && body.wf
  | .linkStateTimeout port => decide (port < 64)
  | .linkRetrainTimer port => decide (port < 64)
  | .linkIdleFrame port frame => decide (port < 64) && frame.wf
  | .linkIdleDue port => decide (port < 64)
  | .linkReplayReq port frame => decide (port < 64) && frame.wf
  | .replayReqRepeat port => decide (port < 64)
  | .linkSilenceTimeout port => decide (port < 64)
  | .digestMismatchTimeout port => decide (port < 64)
  | .fecLockLoss port lanes => decide (port < 64) && decide (lanes < 512)
  | .laneLost port lane => decide (port < 64) && decide (lane < 9)
  | .lopReqSwap port lane => decide (port < 64) && decide (lane < 9)
  | .lopMirrorOn port lane => decide (port < 64) && decide (lane < 9)
  | .mirrorMatched port => decide (port < 64)
  | .lopReady port lane => decide (port < 64) && decide (lane < 9)
  | .lopSwitchAt port lane atFseq => decide (port < 64) && decide (lane < 9) && decide (atFseq < 4096)
  | .laneMapSwitch port => decide (port < 64)
  | .lopReqRestore port lane => decide (port < 64) && decide (lane < 9)
  | .lopEmergency port lane fseq => decide (port < 64) && decide (lane < 9) && decide (fseq < 4096)
  | .rotationVisit port => decide (port < 64)
  | .recalibrationDone port eyeW eyeH => decide (port < 64) && decide (eyeW < 1024) && decide (eyeH < 256)
  | .prtFence who port => who.wf && decide (port < 64)
  | .prtUnfence who port => who.wf && decide (port < 64)
  | .prtUnretire who port => who.wf && decide (port < 64)
  | .rotNow who port => who.wf && decide (port < 64)
  | .retrain who port => who.wf && decide (port < 64)
  | .memrd port ld dpa tag => decide (port < 64) && decide (ld < 16) && decide (dpa < 2 ^ 48) && decide (tag < 65536)
  | .memwr port ld dpa tag _ => decide (port < 64) && decide (ld < 16) && decide (dpa < 2 ^ 48) && decide (tag < 65536)
  | .cxlLinkDown port => decide (port < 64)
  | .modulePoll readings => readings.all (fun r => decide (r.port < 64))
  | .moduleRemoval port => decide (port < 64)
  | .jqSignalDetect => true
  | .jqLockDone => true
  | .jqAlignDone => true
  | .jqInit _ => true
  | .jqStateTimeout => true
  | .jqRetryTimer => true
  | .jqIdleFrame frame => frame.wf
  | .jqIdleDue => true
  | .jqReplayReq frame => frame.wf
  | .jqReplayRepeat => true
  | .jqSilenceTimeout => true
  | .hello frame _ => frame.wf
  | .proof frame _ => frame.wf
  | .sessionClose frame => frame.wf
  | .jqCsrRead frame count tag addr => frame.wf && decide (count < 256) && decide (tag < 65536) && decide (addr < 2 ^ 40)
  | .jqCsrWrite frame count tag addr _ => frame.wf && decide (count < 256) && decide (tag < 65536) && decide (addr < 2 ^ 40)
  | .bulkBegin frame kind xfer total => frame.wf && decide (kind < 256) && decide (xfer < 65536) && decide (total < 2 ^ 32)
  | .bulkData frame xfer offset _ => frame.wf && decide (xfer < 65536) && decide (offset < 2 ^ 32)
  | .bulkEnd frame xfer _ => frame.wf && decide (xfer < 65536)
  | .subscribe frame _ minSev => frame.wf && decide (minSev < 16)
  | .witnessRead frame saggar readTag => frame.wf && decide (saggar < 64) && decide (readTag < 2 ^ 64)
  | .recordAck saggar => decide (saggar < 64)
  | .relayGapTimeout sid => decide (sid < 8)
  | .prepare src epoch _ _ => decide (src < 65536) && decide (epoch < 65536)
  | .ready src epoch => decide (src < 65536) && decide (epoch < 65536)
  | .commit src epoch => decide (src < 65536) && decide (epoch < 65536)
  | .abandon src epoch => decide (src < 65536) && decide (epoch < 65536)
  | .stagingTimeout silent => decide (silent < 65536)
  | .drainQuiet => true
  | .drained src epoch => decide (src < 65536) && decide (epoch < 65536)
  | .drainMaxExpiry => true
  | .forceClose who => who.wf
  | .imgCtrlAbandon who => who.wf
  | .coordAliveDue => true
  | .coordAlive src => decide (src < 65536)
  | .coordSilence => true
  | .coordBothSilent _ => true
  | .coordClaim src claimant epoch standby => decide (src < 65536) && decide (claimant < 65536) && decide (epoch < 65536) && decide (standby < 65536)
  | .coordQuery neighbour answer => decide (neighbour < 65536) && decide (answer < 65536)
  | .imgStore who => who.wf
  | .imgStoreDone _ => true
  | .attest who saggar => who.wf && decide (saggar < 64)
  | .attestDone saggar => decide (saggar < 64)
  | .keyLoad who saggar => who.wf && decide (saggar < 64)
  | .keyLoadDone saggar => decide (saggar < 64)
  | .keyErase who saggar => who.wf && decide (saggar < 64)
  | .ephemeralKeyExpiry saggar => decide (saggar < 64)
  | .dcWrite who => who.wf
  | .logClear who => who.wf
  | .witnessFw who => who.wf
  | .release who => who.wf
  | .claimAsserted => true
  | .tapSendDue => true
  | .tapTotal frame => frame.wf
  | .tapLevel frame => frame.wf
  | .tapHeartbeat frame => frame.wf
  | .tapPowerDown frame => frame.wf
  | .meterTick => true
  | .witnessCommit _ => true
  | .vinWLow => true
  | .wdStart _ _ _ => true
  | .witnessChange _ => true
  | .witnessFwPackage _ => true
  | .mportFrame saggar readTag _ => decide (saggar < 64) && decide (readTag < 2 ^ 64)
  | .heldReadRelease path => decide (path < 65536)
  | .wdHeartbeatTimeout => true
  | .tapLossTimeout => true
  | .probe src => decide (src < 65536)
  | .probeTimeout peer => decide (peer < 65536)
  | .nodeLost lost => decide (lost < 65536)
  | .join src => decide (src < 65536)
  | .admissionLoadDone => true
  | .fwSwitch who kind => who.wf && decide (1 ≤ kind ∧ kind < 4)
  | .fwCommit who kind => who.wf && decide (1 ≤ kind ∧ kind < 4)
  | .fwRestartBudgetExpiry kind => decide (1 ≤ kind ∧ kind < 4)
  | .dieUnfence who die _ _ _ _ => who.wf && decide (die < 4)
  | .slackRead _ => true
  | .logBucketRefill => true
  | .logStore who => who.wf
  | .logStoreDone _ => true
  | .logSlotFirstRead who slot => who.wf && decide (slot < 32768)
  | .pwrGoodAonRise => true
  | .pwrGoodAonFall => true
  | .rootPllLock => true
  | .mgmtBootDone _ _ => true
  | .railGroupPowerGood => true
  | .railGroupTimeout rail => decide (rail < 13)
  | .sdRelease _ => true
  | .pwrGoodCoreFall => true
  | .resetNFall => true
  | .resetNRise => true
  | .warmResetNFall => true
  | .warmResetNRise => true
  | .orderlyPowerDown who => who.wf
  | .pmbusPoll rails => rails.all (fun r => decide (r.rail < 13))
  | .powerCapUpdate => true
  | .pkgLimitWrite who _ => who.wf
  | .thermalSensorRead die temp => decide (die < 11) && decide (temp < 256)
  | .thermalSkipStep die => decide (die < 11)
  | .thermalTrip => true
  | .refclkInvalid _ => true
  | .holdoverTimeout => true
  | .sdLoadRelease => true
  | .i3cPrivateWrite _ => true
  | .i3cPrivateRead words => decide (words < 65536)
  | .refclkValid _ => true
  | .ownClaimNRelease => true
  | .trimmerFwRestartDone t => decide (t < 128)
  | .mirrorHeartbeat _ => true
  | .loadWarnNHigh bit => decide (bit < 5)
  | .secUtilPublish _ => true
  | .pwrGoodCoreTimeout => true
  | .memoryChannelUnfence who unit => who.wf && unit.wf
  | .cxlLinkUp port gtps width => decide (port < 64) && decide (gtps < 65) && decide (width < 17)
  | .tapInstruction code => decide (code < 256)

end Sys2Proof
end

