-- ==== Sys2Proof/Machine/Ops.lean ====
section
/-! DEFINITION. The shared operations: time, free values, saturating fields, counters, the Kiln log,
readings of the configuration in force, and answers to packets. -/

namespace Sys2Proof.Machine

/-! ## Time (R582) -/

/-- Root ticks of n cycles of each clock: ACLK 1.25 GHz, SCLK 1.5 GHz, CCLK 625 MHz, MCLK 250 MHz. -/
def aclk (n : Nat) : Nat := 12 * n
def sclk (n : Nat) : Nat := 10 * n
def cclk (n : Nat) : Nat := 24 * n
def mclk (n : Nat) : Nat := 60 * n

/-- The local MCLK count (R550). -/
def State.mclkNow (s : State) : Nat := s.now / 60 % 2 ^ 48

/-- The SCLK cycle. -/
def State.sclkNow (s : State) : Nat := s.now / 10

/-- Hand something to the outside. -/
def emit (o : Out) (s : State) : State := { s with out := s.out ++ [o] }

/-- A fresh free number (a value the spec leaves open). -/
def drawFree (s : State) : Nat × State := (Config.freeNat s.free, { s with free := s.free + 1 })

/-- `n` fresh undefined bytes. -/
def drawBytes (n : Nat) (s : State) : List Byte × State :=
  ((List.range n).map (fun i => Config.freeByte (s.free + i)), { s with free := s.free + n })

/-- `n` bytes of the device's random source. -/
def drawRandom (n : Nat) (s : State) : List Byte × State :=
  ((List.range n).map (fun i => Config.random (s.sec.draws + i)),
   { s with sec := { s.sec with draws := s.sec.draws + n } })

/-- Insert by a strict order, after equal elements. -/
def insertBy {α : Type} (lt : α → α → Bool) (a : α) : List α → List α
  | [] => [a]
  | b :: r => if lt a b then a :: b :: r else b :: insertBy lt a r

/-- Stable sort. -/
def sortBy {α : Type} (lt : α → α → Bool) (l : List α) : List α := l.foldl (fun acc a => insertBy lt a acc) []

/-- Apply an operation once per element of a list, in order. -/
def forEach {α : Type} (l : List α) (f : α → State → State) (s : State) : State :=
  l.foldl (fun s a => f a s) s

/-- Apply an operation only where a condition holds. -/
def when_ (b : Bool) (f : State → State) (s : State) : State := if b then f s else s

/-! ## Variants (R3, R6) -/

def Variant.code : Variant → Nat
  | .plf8af => 1 | .plf8a => 2 | .plf4af => 3 | .plf0pf => 4
def Variant.capUnits : Variant → Nat
  | .plf8af => 0x7FF | .plf8a => 0x7CF | .plf4af => 0x7FF | .plf0pf => 0x7F8
def Variant.capCounts : Variant → Nat
  | .plf8af => 0x04880600 | .plf8a => 0x04880600 | .plf4af => 0x02440300 | .plf0pf => 0
def Variant.devId (v : Variant) : Nat := v.code * 2 ^ 24 + 0xB00100
def Variant.arrays (v : Variant) : Nat := bits v.capCounts 0 12
def Variant.trimmers (v : Variant) : Nat := bits v.capCounts 12 8
def Variant.stacks (v : Variant) : Nat := bits v.capCounts 20 4
def Variant.arrayDies (v : Variant) : Nat := bits v.capCounts 24 4
/-- Maximum package power in W (R3). -/
def Variant.maxPower : Variant → Nat
  | .plf8af => 2400 | .plf8a => 2250 | .plf4af => 1350 | .plf0pf => 900

/-- Bits of `CAP_UNITS`. -/
def capARR := 0
def capTRM := 1
def capHBM := 2
def capDDR := 3
def capFLM := 4
def capSIV := 5
def capPUG := 6
def capGTH := 7
def capCDC := 8
def State.fitted (s : State) (unit : Nat) : Bool := bit s.variant.capUnits unit

/-! ## The configuration in force -/

/-- The body of a section in force: system, node, saggar and composition scope. -/
def State.sysBody (s : State) (ty : Nat) : List Byte := s.img.cur.bodyOf ty 0 0 0
def State.nodeBody (s : State) (ty : Nat) : List Byte := s.img.cur.bodyOf ty s.fab.node 0 0
def State.compBody (s : State) (comp : Nat) : List Byte := s.img.cur.bodyOf tyCOMPOSITION 0 0 comp
def State.sysParam (s : State) (key : Nat) : Nat := paramIn (s.sysBody tySYS) key
def State.nodeParam (s : State) (key : Nat) : Nat := paramIn (s.nodeBody tyNODEPARAMS) key
def State.compParam (s : State) (comp key : Nat) : Nat := paramIn (compParams (s.compBody comp)) key
def State.members (s : State) (comp : Nat) : List Nat := compMembers (s.compBody comp)
def State.endpoints (s : State) (comp : Nat) : List Nat := compEndpoints (s.compBody comp)

/-- The saggar record of the map in force (R466). -/
def State.sagRec (s : State) (g : Nat) : List Byte := Machine.sagRec (s.nodeBody tySAGMAP) g
def State.sagExists (s : State) (g : Nat) : Bool := g = 0 || recExists (s.sagRec g)
def State.sagConf (s : State) (g : Nat) : Bool := recConf (s.sagRec g)
/-- The contract version of a saggar: its record's, or the image's where the record names none (R33, R466). -/
def State.acvOf (s : State) (g : Nat) : Nat := if recAcv (s.sagRec g) = 0 then s.img.cur.acv else recAcv (s.sagRec g)
def State.sagComp (s : State) (g : Nat) : Nat := recComp (s.sagRec g)
/-- Some saggar of the chip is confidential: R497 applies. -/
def State.confAny (s : State) : Bool := (List.range 64).any s.sagConf
/-- The saggar of a composition on this chip. -/
def State.sagOfComp (s : State) (comp : Nat) : Option Nat :=
  (List.range 64).find? (fun g => s.sagExists g && (s.sagComp g = comp))

/-- A saggar section in effect: the old body until the step boundary for the types of R474. -/
def State.sagBody (s : State) (ty g : Nat) : List Byte :=
  match afind s.img.atStep (g, ty) with
  | some b => b
  | none => s.img.cur.bodyOf ty s.fab.node g (s.sagComp g)
def State.sagParam (s : State) (g key : Nat) : Nat := paramIn (s.sagBody tySAGPARAMS g) key

/-- The Plofens of the system (R462). -/
def State.plofens (s : State) : List Nat :=
  ((nodeRecs (s.sysBody tyNODES)).filter (fun r => r.2.1 ≠ 0)).map (·.1)
/-- The edge Plofen of an endpoint; none for a Plofen or an unknown node. -/
def State.edgeOf (s : State) (node : Nat) : Option Nat :=
  ((nodeRecs (s.sysBody tyNODES)).find? (fun r => r.1 = node ∧ r.2.1 = 0)).map (·.2.2)

/-! ## Logical clock (R27) -/

/-- Merge the clock of an accepted frame. -/
def mergeLc (l : Nat) (s : State) : State :=
  if later l s.arch.lc then { s with arch := { s.arch with lc := l } } else s

/-- Stamp a recorded event: the clock advances by one. -/
def stampLc (s : State) : State := { s with arch := { s.arch with lc := (s.arch.lc + 1) % 2 ^ 32 } }

/-! ## Counters and saturating fields (R549, R560) -/

/-- A counter raised by `n` modulo 2^48, with its sticky overflow. -/
def Ctr.add (c : Ctr) (n : Nat) : Ctr :=
  { count := (c.count + n) % 2 ^ 48, ovf := c.ovf || decide (2 ^ 48 ≤ c.count + n) }

def bumpCtr (addr n : Nat) (s : State) : State := { s with ctr := amod s.ctr addr {} (fun c => c.add n) }

/-- A held level that falls by `n` (`TIE_FRAMES`). -/
def dropCtr (addr n : Nat) (s : State) : State :=
  { s with ctr := amod s.ctr addr {} (fun c => { c with count := c.count - n }) }

/-- The width of a SAT field (R549). -/
def satWidth (f : Nat × Nat) : Nat := if f.1 = 0x0010040 then 8 else 16

def State.satVal (s : State) (f : Nat × Nat) : Nat := aget s.sat f 0

/-- Raise a SAT field without logging. -/
def bumpSatRaw (f : Nat × Nat) (s : State) : State := { s with sat := amod s.sat f 0 (fun v => satAdd (satWidth f) v 1) }

/-- Whether raising the field once makes it reach its all-ones value. -/
def saturates (f : Nat × Nat) (s : State) : Bool := s.satVal f + 1 = 2 ^ satWidth f - 1

/-! ## The Kiln log (chapter 21) -/

/-- Severity and limit L of each code (R559). -/
def eventTable : List (Nat × Nat × Nat) :=
  [(0x0101, 0, 1), (0x0102, 0, 1), (0x0103, 1, 1), (0x0104, 2, 4), (0x0105, 1, 16),
   (0x0201, 2, 64), (0x0202, 2, 64), (0x0203, 1, 16), (0x0204, 1, 4),
   (0x0301, 1, 1), (0x0302, 2, 4), (0x0303, 2, 4), (0x0304, 2, 16), (0x0305, 2, 4),
   (0x0401, 2, 16), (0x0402, 2, 32), (0x0403, 1, 1), (0x0404, 2, 1), (0x0405, 3, 1),
   (0x0406, 1, 1), (0x0407, 1, 1), (0x0408, 2, 1), (0x0409, 3, 1), (0x040A, 2, 1), (0x040B, 2, 1)]
  ++
  [(0x0501, 2, 8), (0x0601, 1, 4), (0x0602, 2, 16), (0x0603, 1, 16), (0x0604, 3, 16),
   (0x0701, 2, 4), (0x0702, 2, 4), (0x0703, 1, 16), (0x0704, 2, 16), (0x0705, 1, 16),
   (0x0706, 1, 16), (0x0707, 2, 16), (0x0801, 2, 4), (0x0802, 2, 4), (0x0803, 2, 4),
   (0x0804, 1, 1), (0x0805, 1, 16), (0x0901, 3, 4), (0x0902, 2, 4), (0x0903, 1, 16), (0x0904, 3, 16)]

def eventSev (code : Nat) : Nat := (aget eventTable code (0, 0)).1
def eventLimit (code : Nat) : Nat := (aget eventTable code (0, 0)).2

/-- The writing plane of a code where R590 fixes it (0x0201 and 0x0202 take theirs from the caller). -/
def eventPlane (code : Nat) : Plane :=
  if code / 256 = 1 then .management
  else if code / 256 = 3 ∨ code ∈ [0x0602, 0x0604, 0x0802, 0x0803] then .control
  else if code ∈ [0x0706, 0x0707, 0x0801, 0x0804, 0x0805] ∨ code / 256 = 9 then .management
  else .data

/-- The 64 bytes of an entry (R550, R591). -/
def LogEntry.bytes (e : LogEntry) : List Byte :=
  let pl := match e.plane with | .data => 0 | .control => 1 | .management => 2
  let sg := match e.sag with | some g => g + 64 | none => 0
  natLe e.code 2 ++ natLe (e.sev + 16 * pl) 1 ++ natLe sg 1 ++ natLe e.unit 2 ++ natLe e.suppressed 2
    ++ natLe e.mclk 6 ++ zeros 2 ++ natLe e.step 8 ++ natLe e.lc 4 ++ natLe e.seq 4
    ++ fit ((e.payload.take 4).flatMap (fun w => natLe w 8)) 32

/-- The step of an entry's saggar (R550). -/
def State.stepOf (s : State) (g : Option Nat) : Nat :=
  match g with
  | none => 2 ^ 64 - 1
  | some g => match afind s.sit g with
    | some p => if p.runs then p.step else 2 ^ 64 - 1
    | none => 2 ^ 64 - 1

/-- The bucket of an occurrence (R553, R554). -/
def State.bucketOf (s : State) (code : Nat) (g : Option Nat) : Nat × Option Nat :=
  match g with
  | some g => if s.sagConf g then (code, some g) else (code, none)
  | none => (code, none)

/-- The slot the next entry takes (R552). -/
def Log.nextIndex (l : Log) : Nat := if l.firstN < 4096 then l.firstN else l.nextSlot

/-- Place a stamped entry in its slot (R552). -/
def Log.place (l : Log) (e : LogEntry) : Log :=
  let i := l.nextIndex
  let l' := { l with slots := aset l.slots i e, head := (l.head + 1) % 2 ^ 32 }
  if l.firstN < 4096 then
    { l' with firstN := l.firstN + 1, firstSeq := if i = 0 then e.seq else l.firstSeq }
  else
    { l' with nextSlot := if i = 32767 then 4096 else i + 1, wrapped := l.wrapped || ahas l.slots i }

/-- The copy a store writes (R556). -/
def Log.snapshot (l : Log) : LogCopy :=
  { slots := l.slots.filter (fun p => p.1 < 4096), firstN := l.firstN, firstSeq := l.firstSeq, head := l.head }

/-- An entry reaches a subscribed session (R454): at most 64 pending, the oldest skipped. -/
def pushSession (e : LogEntry) (x : Session) : Session :=
  if x.subscribed && decide (x.minSev ≤ e.sev)
      && (x.role = 1 || (match e.sag with | some g => bit x.mask g | none => false)) then
    if x.events.length < 64 then { x with events := x.events ++ [e] }
    else { x with events := x.events.drop 1 ++ [e], skipped := satAdd 16 x.skipped 1 }
  else x

/-- Place an entry with its logical-clock value: sequence number, slot, session pushes; the filling of the
first area starts a store (R551, R552, R556). -/
def storeEntry (lc : Nat) (e : LogEntry) (s : State) : State :=
  let e := { e with lc := lc, seq := s.log.head }
  let full := s.log.firstN = 4095
  let l := s.log.place e
  let l := if full then { l with storeBusy := true, storing := some l.snapshot } else l
  bumpCtr ctrLogEntries 1
    { s with log := l, jsl := { s.jsl with sessions := s.jsl.sessions.map (fun p => (p.1, pushSession e p.2)) } }

/-- An entry before it is stored. -/
def mkEntry (code unit : Nat) (sag : Option Nat) (payload : List Nat) (plane : Plane) (s : State) : LogEntry :=
  { code := code, sev := eventSev code, plane := plane, sag := sag, unit := unit, mclk := s.mclkNow,
    step := s.stepOf sag, payload := payload }

/-- An occurrence reaches the log: before SD is up it waits to be written (R558); else it waits for the end
of its MCLK cycle (R19). -/
def occur (e : LogEntry) (s : State) : State :=
  if s.log.up then { s with log := { s.log with fresh := s.log.fresh ++ [e] } }
  else { s with log := { s.log with early := s.log.early ++ [e] } }

/-- An occurrence takes a token of its bucket and is stored, or is suppressed and counted (R553). One that
has no logical-clock value yet is stamped now. -/
def storeOrSuppress (lc : Option Nat) (e : LogEntry) (s : State) : State :=
  let k := s.bucketOf e.code e.sag
  let t := aget s.log.taken k 0
  if t < eventLimit e.code then
    let e := { e with suppressed := aget s.log.suppressed k 0 }
    let s := { s with log := { s.log with taken := aset s.log.taken k (t + 1), suppressed := aset s.log.suppressed k 0 } }
    match lc with
    | some v => storeEntry v e s
    | none => let s := stampLc s; storeEntry s.arch.lc e s
  else
    let sat := saturates satLogSuppressed s
    let s := bumpSatRaw satLogSuppressed
      { s with log := { s.log with suppressed := amod s.log.suppressed k 0 (fun v => satAdd 16 v 1) } }
    if sat then occur (mkEntry 0x0105 0 none [satLogSuppressed.1, satLogSuppressed.2] .management s) s else s

/-- Store one occurrence; `LOG_FIRST_FULL` follows the entry that fills the first area (R552). -/
def storeOne (lc : Option Nat) (e : LogEntry) (s : State) : State :=
  let full := s.log.firstN = 4095
  let s := storeOrSuppress lc e s
  if full && (s.log.firstN = 4096) then storeOrSuppress none (mkEntry 0x0102 0 none [] .management s) s else s

/-- Whether an entry is stored before another of its MCLK cycle: data, control, management plane; then
ascending code; then ascending unit (R19, R551). -/
def storedBefore (a b : LogEntry) : Bool :=
  let pl := fun (e : LogEntry) => match e.plane with | .data => 0 | .control => 1 | .management => 2
  decide (pl a < pl b) || ((pl a = pl b) && (decide (a.code < b.code) || ((a.code = b.code) && decide (a.unit < b.unit))))

/-- Insert before the first element that is stored after it. -/
def insertStored {α : Type} (key : α → LogEntry) (a : α) : List α → List α
  | [] => [a]
  | b :: r => if storedBefore (key a) (key b) then a :: b :: r else b :: insertStored key a r

/-- A list in storage order; entries that R551 does not order stay in the order of occurrence. -/
def storageOrder {α : Type} (key : α → LogEntry) (l : List α) : List α := l.foldl (fun r a => insertStored key a r) []

/-- Stamp an occurrence of the SCLK cycle that ends, where a token is left for it (R27). -/
def stampOne (e : LogEntry) (s : State) : State :=
  let k := s.bucketOf e.code e.sag
  let ahead := countIf s.log.cycle (fun x => x.1.isSome && (s.bucketOf x.2.code x.2.sag = k))
  if aget s.log.taken k 0 + ahead < eventLimit e.code then
    let s := stampLc s
    { s with log := { s.log with cycle := s.log.cycle ++ [(some s.arch.lc, e)] } }
  else { s with log := { s.log with cycle := s.log.cycle ++ [(none, e)] } }

/-- An SCLK cycle ends: its occurrences are stamped one at a time in storage order (R19). -/
def stampFresh (s : State) : State :=
  forEach (storageOrder id s.log.fresh) stampOne { s with log := { s.log with fresh := [] } }

/-- An MCLK cycle ends: its occurrences are stored in storage order (R551). -/
def storeCycle (s : State) : State :=
  forEach (storageOrder Prod.snd s.log.cycle) (fun x s => storeOne x.1 x.2 s) { s with log := { s.log with cycle := [] } }

/-- What has reached the log is stored at once. -/
def flushLog (s : State) : State := storeCycle (stampFresh s)

/-! ## The passing of time -/

/-- The clock moves on to `d`, or stays where it is already later. A cycle that ends stamps or stores what
reached the log in it. -/
def carry (d : Nat) (s : State) : State :=
  let n := max s.now d
  let t := if n / 10 ≠ s.now / 10 then stampFresh s else s
  let t := { t with now := n }
  if n / 60 ≠ s.now / 60 then storeCycle t else t

/-- A timeout that awaits an arrival takes effect when the cycle of its deadline `d` has passed, a cycle of
`clk` root ticks: an arrival in that cycle comes first, and the timeout then finds nothing armed (R26). -/
def expire (clk d : Nat) (s : State) : State := carry (d + clk) s

/-- The next multiple of a period after the present time. -/
def State.nextMultiple (s : State) (per : Nat) : Nat := (s.now / per + 1) * per

/-- Write a Kiln log event, as the given plane. -/
def logAs (plane : Plane) (code unit : Nat) (sag : Option Nat) (payload : List Nat) (s : State) : State :=
  occur (mkEntry code unit sag payload plane s) s

/-- Write a Kiln log event as the plane R590 gives its code. -/
def logEvent (code unit : Nat) (sag : Option Nat) (payload : List Nat) (s : State) : State :=
  logAs (eventPlane code) code unit sag payload s

/-- Raise a SAT field by one; reaching all ones writes `ERR_SAT` (R549). -/
def bumpSat (f : Nat × Nat) (s : State) : State :=
  let r := saturates f s
  let s := bumpSatRaw f s
  if r then logEvent 0x0105 0 none [f.1, f.2] s else s

/-- Raise a SAT field `n` times. -/
def bumpSatN (f : Nat × Nat) : Nat → State → State
  | 0, s => s
  | n + 1, s => bumpSatN f n (bumpSat f s)

/-! ## Packets -/

/-- Header bytes 0 to 27 of a packet (R329). -/
def head28 (p : Packet) : List Byte :=
  let w0 := p.dst + p.src * 2 ^ 16 + p.epoch * 2 ^ 32 + p.opcode * 2 ^ 48 + p.saggar * 2 ^ 56
    + b2n p.vc * 2 ^ 62 + b2n p.cm * 2 ^ 63
  let w1 := p.offset + p.cls * 2 ^ 48 + p.length * 2 ^ 51 + b2n p.last * 2 ^ 61 + b2n p.detour * 2 ^ 62
    + p.rsv % 2 * 2 ^ 63
  let w2 := p.seq + p.tag * 2 ^ 24 + p.status * 2 ^ 40 + p.hint * 2 ^ 44 + b2n p.cmb * 2 ^ 49
    + b2n p.rty * 2 ^ 50 + p.hops * 2 ^ 51 + p.rsv / 2 * 2 ^ 57
  natLe w0 8 ++ natLe w1 8 ++ natLe w2 8 ++ natLe p.lc 4

/-- The packet with its header check computed (R329, R409). -/
def stampPkt (p : Packet) : Packet := { p with hchk := crc32c (head28 p) }

/-- Whether the header check holds (R330). -/
def hchkOk (p : Packet) : Bool := p.hchk = crc32c (head28 p)

/-- The class an answer travels in (R333). -/
def answerClass (c : Nat) : Nat := if c = 0 then 0 else if c = 7 then 7 else 2

/-- The answer to a request (R331, R337). -/
def mkAnswer (p : Packet) (st : Status) (hint : Nat) (data : List Byte) (s : State) : Packet :=
  { dst := p.src, src := p.dst, epoch := p.epoch, opcode := if data.isEmpty then 0xF0 else 0xF1,
    saggar := p.saggar, cm := p.cm, offset := p.offset, cls := answerClass p.cls,
    length := data.length, seq := p.seq, tag := p.tag, status := st.code, hint := hint,
    lc := s.arch.lc, payload := data }

/-- The packets of a payload (R330, R331): one, or a train of 512 bytes each under one tag, placed by `OFFSET`. -/
def packetsOf (p : Packet) : List Packet :=
  if p.payload.length ≤ 512 then [p]
  else
    let n := ceilDiv p.payload.length 512
    (List.range n).map (fun i =>
      let b := sub p.payload (512 * i) 512
      { p with offset := p.offset + 512 * i, last := p.last && decide (i + 1 = n), length := b.length, payload := b })

/-- Send a packet or a train of a unit of this chip towards the switch core. -/
def send (p : Packet) (s : State) : State :=
  { s with fab := { s.fab with tx := s.fab.tx ++ (packetsOf { p with lc := s.arch.lc }).map stampPkt } }

/-- Take a request out of the queue of packets addressed to this chip. -/
def take (p : Packet) (s : State) : State := { s with fab := { s.fab with inbox := s.fab.inbox.erase p } }

/-! ### Trains (R331, R342) -/

/-- A packet that is not a whole train by itself. -/
def trainPart (p : Packet) : Bool := !(p.offset = 0 && p.last)

/-- The packets of one train: one source, saggar, opcode and tag. -/
def sameTrain (p q : Packet) : Bool := q.src = p.src && q.saggar = p.saggar && q.opcode = p.opcode && q.tag = p.tag

/-- Bytes [0, n) that packets in `OFFSET` order cover without a gap; none where there is one. -/
def trainEnd (l : List Packet) : Option Nat :=
  l.foldl (fun n p => match n with | some k => if p.offset = k then some (k + p.payload.length) else none | none => none) (some 0)

/-- The train that packets make once the last is there and no byte is missing: its first packet with the whole
payload. -/
def joinTrain (ps : List Packet) : Option Packet :=
  let l := sortBy (fun a b => decide (a.offset < b.offset)) ps
  match l.head?, l.getLast? with
  | some h, some z => if z.last && (trainEnd l).isSome then some { h with last := true, payload := l.flatMap (·.payload) } else none
  | _, _ => none

/-- A packet of a train joins those already here; one sent again takes its predecessor's place. -/
def addPart (p : Packet) (l : List Packet) : List Packet := l.filter (fun q => !(sameTrain p q && q.offset = p.offset)) ++ [p]

/-- A train is served once it is whole, whatever the order of its packets (R138, R342). -/
def reassemble (p : Packet) (f : Packet → State → State) (s : State) : State :=
  if !trainPart p then f p s else
  let s := take p s
  let all := addPart p s.fab.frags
  match joinTrain (all.filter (sameTrain p)) with
  | some w => f w { s with fab := { s.fab with frags := all.filter (fun q => !sameTrain p q) } }
  | none => { s with fab := { s.fab with frags := all } }

/-- Answer a request (R331), counting stale-epoch and unknown answers. -/
def reply (p : Packet) (st : Status) (hint : Nat) (data : List Byte) (s : State) : State :=
  let s := if st = .nackStaleEpoch then bumpSat satImgStale s
    else if st = .nackUnknown then bumpSat satFabUnknown s else s
  send (mkAnswer p st hint data s) s

/-- How a request's epoch stands at its destination (R477). -/
inductive EpochCheck where
  | served | stale | notReady
  deriving DecidableEq, Repr

def State.epochCheck (s : State) (p : Packet) : EpochCheck :=
  if p.cls = 0 ∨ p.cls = 7 then .served
  else if p.epoch = s.img.epoch ∨ s.img.prevEpoch = some p.epoch then .served
  else if p.epoch = (s.img.epoch + 1) % 2 ^ 16 then .notReady
  else .stale

/-- Whether a composition is fenced on this chip (R534). -/
def State.compFenced (s : State) (comp : Nat) : Bool := s.coh.compFences.contains comp

/-- Whether a coherent domain is down on this chip (R379, R381). -/
def State.domainFenced (s : State) (d : Nat) : Bool :=
  s.coh.slots.any (fun x => x.2.domain = d ∧ x.2.st ≠ 0 ∧ x.2.st ≠ 1)

/-- A `CTRL` message from the coordinator or its standby breaks their silence (R476). -/
def heardFrom (src : Nat) (s : State) : State :=
  { s with img := { s.img with
    coordHeard := if src = s.img.coord then s.now else s.img.coordHeard
    standbyHeard := if src = s.img.standby then s.now else s.img.standbyHeard } }

/-- Send a TC0 `CTRL` message. -/
def sendCtrl (dst : Nat) (m : CtrlMsg) (s : State) : State := emit (.ctrl dst m) s

/-- Send a `CTRL` message to each node of a list but this chip. -/
def sendCtrlAll (l : List Nat) (m : CtrlMsg) (s : State) : State :=
  forEach (l.filter (· ≠ s.fab.node)) (fun n => sendCtrl n m) s

/-- Count into a tap total (R513, R515): quantity 0 cell-cycles, 1 recomputed cell-cycles, 2 egress
bytes, modulo 2^64. -/
def tapAdd (g q n : Nat) (s : State) : State :=
  { s with wit := { s.wit with totals := amod s.wit.totals (g, q) 0 (fun v => (v + n) % 2 ^ 64) } }

/-! ## Opcodes (R338) -/

/-- The offset to which homes write the messages of their movers (R217, R537). -/
def xferPort : Nat := 2 ^ 48 - 2 ^ 16

def opREAD := 0x01
def opWRITE := 0x02
def opADD := 0x10
def opMIN := 0x11
def opMAX := 0x12
def opSWAP := 0x13
def opCAS := 0x14
def opFRAMEADD := 0x15
def opFRAMEADDF := 0x16
def opRPT := 0x20
def opDISPATCH := 0x30
def opATTEND := 0x31
def opGATHER := 0x32
def opSIEVE := 0x33
def opCONTRIB := 0x40
def opARM := 0x41
def opRESULT := 0x42
def opFREE := 0x43
def opCENSUS := 0x44
def opINVAL := 0x50
def opOFFER := 0x51
def opACCEPT := 0x52
def opFORCE := 0x53
def opOPEN := 0x58
def opCLOSE := 0x59
def opPUBLISH := 0x5A
def opSTEP := 0x60
def opCTRL := 0x61
def opMGMT := 0x70
def opSAMPLE := 0x78
def opACK := 0xF0
def opACKDATA := 0xF1

/-- Whether an opcode is an atomic. -/
def isAtomic (op : Nat) : Bool := decide (opADD ≤ op ∧ op ≤ opFRAMEADDF)

/-! ## Outgoing requests -/

/-- `TO_EXP` and `WIN_RET_EXP` (R359). -/
def State.toExp (s : State) : Nat := bits s.fab.ctrl.toNat 0 5
def State.winRetExp (s : State) : Nat := bits s.fab.ctrl.toNat 8 5

/-- The first tag from `t` on that is not used. -/
def freeTag (used : List Nat) : Nat → Nat → Nat
  | 0, t => t
  | n + 1, t => if used.contains t then freeTag used n ((t + 1) % 65536) else t

/-- The tag the next request takes: one that no outstanding request holds (R331). -/
def State.nextTag (s : State) : Nat := freeTag (s.fab.outst.map (·.pkt.tag)) 65536 (s.fab.tagNext % 65536)

/-- Send a new request: it takes the next tag, atomics and RPTs the next `SEQ` (R354), and its
completion timer starts (R359). -/
def issue (q : Requester) (p : Packet) (s : State) : State :=
  let k := (p.dst, p.saggar)
  let numbered := isAtomic p.opcode || p.opcode = opRPT
  let seq := if numbered then aget s.fab.seqNext k 0 else 0
  let recent := (aget s.fab.issued k []).filter (fun t => decide (s.now < t + sclk (2 ^ 25)))
  let p := { p with src := s.fab.node, epoch := s.img.epoch, tag := s.nextTag, seq := seq, rty := false, hops := 0 }
  send p { s with fab := { s.fab with
    tagNext := (s.nextTag + 1) % 65536
    seqNext := if numbered then aset s.fab.seqNext k ((seq + 1) % 2 ^ 24) else s.fab.seqNext
    issued := if numbered then aset s.fab.issued k (recent ++ [s.now]) else s.fab.issued
    outst := s.fab.outst ++ [{ req := q, pkt := p, ref := p.tag, deadline := some (s.now + sclk (2 ^ s.toExp)) }] } }

/-- Send the same kind of request to each of some nodes: their tags. -/
def issueAll (q : Requester) (mk : Nat → Packet) (nodes : List Nat) (s : State) : List Nat × State :=
  nodes.foldl (fun (st : List Nat × State) n => (st.1 ++ [st.2.nextTag], issue q (mk n) st.2)) ([], s)

/-! ## Fence upcalls (R104) -/

/-- Queue an upcall event on a Trimmer. -/
def queueUpcall (t : Nat) (e : TrmEvent) (s : State) : State :=
  { s with trm := amod s.trm t {} (fun x => if x.upcalls.contains e then x else { x with upcalls := x.upcalls ++ [e] }) }

/-- Tell the Trimmers of a saggar of a fence: kind 0 array, 1 composition, 2 coherent domain. -/
def upcallSaggar (g kind id : Nat) (s : State) : State :=
  forEach ((List.range 128).filter (fun t => recTrimmer (s.sagRec g) t))
    (fun t s => queueUpcall t { mcause := 19, a1 := kind, a2 := id } s) s

end Sys2Proof.Machine
end

