-- ==== Sys2Proof/Machine/JqTx.lean ====
section
/-! DEFINITION. The sending half of the Jaesque link (chapter 16): frames queued, credits and the retry buffer,
relayed frames in TC7, Kiln log entries and records streamed to sessions, and the end of a session. -/

namespace Sys2Proof.Machine

def setJsl (f : Jsl → Jsl) (s : State) : State := { s with jsl := f s.jsl }

/-- One more in place `i` of a list of totals modulo 256. -/
def bump256 (l : List Nat) (i : Nat) : List Nat := l.set i ((l.getD i 0 + 1) % 256)

/-! ## Frames (R442, R449) -/

/-- Header word 0. -/
def jqWord0 (f : JqFrame) : Nat :=
  f.ftype + f.mclass * 2 ^ 4 + b2n f.prot * 2 ^ 6 + f.sid * 2 ^ 8 + f.len * 2 ^ 12 + f.fseq * 2 ^ 24 + f.tnode * 2 ^ 32

/-- The 16 header bytes of a relayed frame; its word 1 belongs to the link and is zero. -/
def jqHeader (f : JqFrame) : List Byte := natLe (jqWord0 f) 8 ++ zeros 8

/-- The header of relayed bytes. -/
def parseHeader (b : List Byte) : JqFrame :=
  let w := le b 0 8
  { ftype := bits w 0 4, mclass := bits w 4 2, prot := bit w 6, sid := bits w 8 3, len := bits w 12 11, fseq := bits w 24 8,
    tnode := bits w 32 16, rsv := bits w 7 1 + bits w 11 1 + bits w 23 1 + bits w 48 16 }

/-- Header word 1 current: acknowledgement and credit totals. -/
def stampAck (f : JqFrame) (s : State) : JqFrame :=
  { f with ack := s.jsl.ack, ackV := s.jsl.ackV, crCsr := s.jsl.crRet.getD 0 0, crBulk := s.jsl.crRet.getD 1 0,
           crEvent := s.jsl.crRet.getD 2 0, crRecord := s.jsl.crRet.getD 3 0 }

/-- Put a frame on the link; an `IDLE` is due 2^12 SCLK cycles later (R443). -/
def jqEmit (f : JqFrame) (payload : List Byte) (s : State) : State :=
  emit (.jq (stampAck f s) payload) (setJsl (fun j => { j with idle := some (s.now + sclk (2 ^ 12)) }) s)

/-- The nonce of a protected frame: four zero bytes and the counter, big-endian. -/
def jqNonce (ctr : Nat) : List Byte := zeros 4 ++ (natLe ctr 8).reverse

/-! ## Sessions (R447, R450) -/

/-- The requester a session's accesses are made by (R31). -/
def Session.who (x : Session) (sid : Nat) : Who := if x.role = 2 then .tenant sid else .operator sid

/-- Fragments of a record, 992 bytes each. -/
def RecordOut.count (r : RecordOut) : Nat := max 1 (ceilDiv r.bytes.length 992)

/-- Every fragment of a record is acknowledged: it counts as delivered (R455). -/
def RecordOut.delivered (r : RecordOut) : Bool := decide (r.sid ≠ 0) && decide (r.count ≤ r.acked)

/-- A session ends: its keys are erased, its transfers abandoned, its frames and latches dropped, and records not
acknowledged wait for the next sink (R450, R453, R455). -/
def endSession (sid : Nat) (s : State) : State :=
  let mine := fun (w : Who) => w = .operator sid || w = .tenant sid
  let s := { s with
    arch := { s.arch with latches := s.arch.latches.filter (fun p => !mine p.1) }
    log := { s.log with
      cur := s.log.cur.filter (fun p => !mine p.1)
      latch := s.log.latch.filter (fun p => !mine p.1) } }
  setJsl (fun j => { j with
    sessions := aerase j.sessions sid
    bulks := j.bulks.filter (fun b => b.2.sid ≠ sid)
    waiting := j.waiting.filter (fun x => x.reply.isSome || !x.f.prot || x.f.sid ≠ sid)
    relayRecs := j.relayRecs.filter (fun t => !j.records.any (fun r => r.saggar = t.2 && r.sid = sid))
    records := (j.records.filter (fun r => !(r.sid = sid && r.delivered))).map (fun (r : RecordOut) => if r.sid = sid then { r with sid := 0, acked := 0 } else r)
    relayDeadline := aerase j.relayDeadline sid
    frags := j.frags.filter (fun p => p.1.1 ≠ 65536 + sid) }) s

/-! ## Sending (R443, R445, R456) -/

/-- The credit class of a frame of this link; none for a relayed one. -/
def JqSend.lane (x : JqSend) : Option Nat := if x.via.isSome then none else some (if x.f.ftype = 5 then 0 else x.f.mclass)

/-- Two replies that the relay carries from one chip for one session: their order is the order of the session's
counter (R449). -/
def JqSend.sameReply (x y : JqSend) : Bool :=
  match x.reply, y.reply with
  | some p, some q => decide (p.src = q.src) && decide (x.f.sid = y.f.sid)
  | _, _ => false

/-- Whether a frame can go now: one that goes by a relay always; one of the link with a credit of its class, room in
the retry buffer, and no earlier frame waiting of its class or, carried for another chip, of its session. -/
def State.canSend (s : State) (x : JqSend) : Bool :=
  match x.lane with
  | none => true
  | some c => decide (s.jsl.lst = 4) && decide (s.jsl.retry.length < 64)
      && decide (s.jsl.crTot.getD c 0 ≠ s.jsl.crUsed.getD c 0) && !s.jsl.waiting.any (fun y => y.lane = some c || x.sameReply y)

/-- Queue a frame. -/
def jqQueue (x : JqSend) (s : State) : State := setJsl (fun j => { j with waiting := j.waiting ++ [x] }) s

/-- Send a frame: sequenced on the link, or as a TC7 `MGMT` train to the relay with the next `RSEQ`. A frame of a
session that has ended is dropped; a session ends at its frame limit (R449). -/
def transmit (x : JqSend) (s : State) : State :=
  let own := x.f.prot && x.reply.isNone
  let sess := aget s.jsl.sessions x.f.sid {}
  if own && !ahas s.jsl.sessions x.f.sid then s else
  let s := if own then setJsl (fun j => { j with sessions := aset j.sessions x.f.sid { sess with ctrTx := sess.ctrTx + 1 } }) s else s
  let s := match x.lane, x.via with
    | some c, _ =>
      let f := { x.f with fseq := s.jsl.txSeq }
      bumpCtr ctrJslTx 1 (jqEmit f x.payload (setJsl (fun j => { j with
        txSeq := (j.txSeq + 1) % 256
        crUsed := bump256 j.crUsed c
        retry := j.retry ++ [{ x with f := f }] }) s))
    | none, some node =>
      let k := (node, x.f.sid, 1)
      let n := aget s.jsl.relayTx k 0
      let sealed := if own then
          let c := Config.gcmSeal sess.keyTx (jqNonce sess.ctrTx) (natLe (jqWord0 x.f) 8) x.payload
          c.1 ++ c.2
        else x.payload
      let body := natLe (n + 2 ^ 16) 8 ++ jqHeader x.f ++ sealed
      issue .control { dst := node, opcode := opMGMT, cls := 7, length := body.length, payload := body }
        (setJsl (fun j => { j with
          relayTx := aset j.relayTx k ((n + 1) % 65536)
          relayRecs := match x.record with | some g => aset j.relayRecs s.nextTag g | none => j.relayRecs }) s)
    | none, none => s
  if own && decide (2 ^ 32 ≤ sess.ctrTx + 1) then endSession x.f.sid s else s

/-- Every waiting frame that can go goes, in order within its class. -/
def jqPump (s : State) : State :=
  forEach s.jsl.waiting (fun x s => if s.canSend x then transmit x s else jqQueue x s) (setJsl (fun j => { j with waiting := [] }) s)

/-- A message of a session, or unprotected under `SID` 0, by the way it came (R451). -/
def jqMsg (via : Option Nat) (sid cls w0 w1 : Nat) (body : List Byte) : JqSend :=
  let payload := natLe w0 8 ++ natLe w1 8 ++ pad8 body
  { f := { ftype := 1, mclass := cls, prot := decide (sid ≠ 0), sid := sid, len := payload.length + if sid = 0 then 0 else 16 }
    payload := payload
    via := via }

/-! ## Kiln log entries and records (R454, R455) -/

/-- Up to 15 pending entries of a session go in one `LOG` message. -/
def pushLog (sid : Nat) (s : State) : State :=
  let x := aget s.jsl.sessions sid {}
  let es := x.events.take 15
  let m := jqMsg x.via sid 2 (0x20 + es.length * 2 ^ 8 + x.skipped * 2 ^ 16) 0 (es.flatMap LogEntry.bytes)
  if es.isEmpty || !s.canSend m then s
  else transmit m (setJsl (fun j => { j with sessions := aset j.sessions sid { x with events := x.events.drop 15, skipped := 0 } }) s)

/-- The first record of a saggar begins to go to its sink session, fragment by fragment. -/
def streamRecord (g : Nat) (s : State) : State :=
  let i := s.jsl.records.findIdx (fun r => r.saggar = g)
  let w := (aget s.jsl.sink g 0).toNat
  let sid := bits w 0 3
  match s.jsl.records[i]? with
  | none => s
  | some r =>
    if r.sid = 0 && bit w 3 && ahas s.jsl.sessions sid then
      let via := (aget s.jsl.sessions sid {}).via
      let s := setJsl (fun j => { j with records := j.records.set i { r with sid := sid, acked := 0 } }) s
      forEach (List.range r.count) (fun k s =>
        jqQueue { jqMsg via sid 3 ((if r.isSeal then 0x31 else 0x30) + g * 2 ^ 8 + k * 2 ^ 16 + r.count * 2 ^ 32) r.step (sub r.bytes (992 * k) 992)
                  with record := some g } s) s
    else s

/-- A fragment of a saggar's first record has been acknowledged. -/
def ackRecord (g : Nat) (s : State) : State :=
  let i := s.jsl.records.findIdx (fun r => r.saggar = g)
  match s.jsl.records[i]? with
  | none => s
  | some r => if r.sid = 0 then s else setJsl (fun j => { j with records := j.records.set i { r with acked := r.acked + 1 } }) s

/-- The relay's answer to a relayed reply. -/
def mgmtAnswered (tag code : Nat) (s : State) : State :=
  match afind s.jsl.relayRecs tag with
  | none => s
  | some g =>
    let s := setJsl (fun j => { j with relayRecs := aerase j.relayRecs tag }) s
    if code = 0 then ackRecord g s else s

/-- What the transmitter does on its own: waiting frames, log entries, records. -/
def jqWork (s : State) : State :=
  if s.jsl.waiting.isEmpty && s.jsl.sessions.isEmpty then s else
  let s := forEach (s.jsl.sessions.map (·.1)) (fun sid s => forEach (List.range 5) (fun _ s => pushLog sid s) s) (jqPump s)
  if s.jsl.records.isEmpty then s else jqPump (forEach (List.range 64) streamRecord s)

end Sys2Proof.Machine
end

