-- ==== Sys2Proof/Machine/FlashProg.lean ====
section
/-! DEFINITION. Flash media management (chapter 08), the part the pool stands on: the map and the media's
records (R224 to R230), programs (R226, R229, R235), health (R245 to R247), die fences (R236, R238), discards
(R239, R240) and the block-table checkpoint (R237). -/

namespace Sys2Proof.Machine

/-- Bytes of a page, grains of a page. -/
def pageBytes : Nat := 65536
def grainBytes : Nat := 256

/-! ## Dies, blocks and the map -/

/-- Change a region that exists. -/
def modRegion (id : Nat) (f : Region → Region) (s : State) : State :=
  match afind s.tie.regions id with
  | some r => { s with tie := { s.tie with regions := aset s.tie.regions id (f r) } }
  | none => s

def modFlm (f : Flm → Flm) (s : State) : State := { s with flm := f s.flm }
def State.die (s : State) (d : Nat) : FlmDie := aget s.flm.dies d {}
def modDie (d : Nat) (f : FlmDie → FlmDie) (s : State) : State := modFlm (fun m => { m with dies := amod m.dies d {} f }) s
def FlmDie.block (x : FlmDie) (b : Nat) : FlmBlk := aget x.blk b { erases := x.base, again := x.again }
def FlmDie.setBlk (x : FlmDie) (b : Nat) (k : FlmBlk) : FlmDie := { x with blk := aset x.blk b k }
def modBlk (d b : Nat) (f : FlmBlk → FlmBlk) (s : State) : State := modDie d (fun x => x.setBlk b (f (x.block b))) s

/-- Summary pages of a block, and its data pages (R229). -/
def Flm.summaries (m : Flm) : Nat := ceilDiv m.pagesPerBlock 1020
def Flm.dataPages (m : Flm) : Nat := m.pagesPerBlock - m.summaries

/-- Dies in service, channel first (R226). -/
def State.diesIn (s : State) : List Nat :=
  let up := (s.flm.dies.filter (fun p => !p.2.fenced)).map (·.1)
  (List.range 32).flatMap (fun k => (List.range 32).filterMap (fun c => if up.contains (c * 32 + k) then some (c * 32 + k) else none))

/-- Free blocks of a die. -/
def State.freeBlocks (s : State) (d : Nat) : Nat := s.flm.blocksPerDie - countIf (s.die d).blk (fun p => p.2.st ≠ 0)

/-- A unit's copy in force. -/
def State.entry (s : State) (lua : Nat) : FlmEntry := aget s.flm.map lua {}
def setEntry (lua : Nat) (e : FlmEntry) (s : State) : State := modFlm (fun m => { m with map := aset m.map lua e }) s

/-- The ranges of units a page is about: its own unit, or those of a trim record. -/
def FlmPage.span (p : FlmPage) : List (Nat × Nat) := if p.kind = 1 then [(p.lua, 1)] else if p.kind = 3 then p.ranges else []
def FlmPage.covers (p : FlmPage) (lua : Nat) : Bool := p.span.any (fun r => decide (r.1 ≤ lua ∧ lua < r.1 + r.2))
def FlmPage.meets (p : FlmPage) (lua units : Nat) : Bool := p.span.any (fun r => decide (r.1 < lua + units) && decide (lua < r.1 + r.2))

/-- Whether a page of a block is valid: the map names it; a trim record is valid while an older copy of a
unit it covers is on the media (R234). -/
def State.validPage (s : State) (d b i : Nat) (p : FlmPage) : Bool :=
  if p.torn then false
  else if p.kind = 1 then (s.entry p.lua).pun = some (d, b, i)
  else if p.kind = 3 then
    s.flm.dies.any (fun x => !x.2.fenced && x.2.blk.any (fun y => y.2.pages.any (fun q =>
      q.kind = 1 && !q.torn && decide (q.dataSeq < p.dataSeq) && p.covers q.lua)))
  else false

/-- The pages of a block with their numbers. -/
def FlmBlk.numbered (b : FlmBlk) : List (Nat × FlmPage) := (List.range b.pages.length).map (fun i => (i, b.pages.getD i {}))
def State.validPages (s : State) (d b : Nat) : List (Nat × FlmPage) :=
  ((s.die d).block b).numbered.filter (fun q => s.validPage d b q.1 q.2)

/-- Blocks that hold a copy of a unit of a range older than a sequence number (R240 step 3). -/
def State.copyBlocks (s : State) (lua units seq : Nat) : List (Nat × Nat) :=
  s.flm.dies.flatMap (fun x => if x.2.fenced then [] else (x.2.blk.filter (fun y => y.2.pages.any (fun p =>
    p.kind = 1 && !p.torn && decide (p.dataSeq < seq) && decide (lua ≤ p.lua ∧ p.lua < lua + units)))).map (fun y => (x.1, y.1)))

/-! ## What a page holds on the media (R227 to R230) -/

/-- One bit per grain. -/
def grainBits (l : List Nat) : Nat := (l.filter (· < 64)).eraseDups.foldl (fun n i => n + 2 ^ i) 0

/-- The spare-area record of a page, 320 bytes (R227). -/
def FlmPage.spare (p : FlmPage) : List Byte :=
  let head := natLe 0x4C46 2 ++ [1] ++ natLe p.kind 1 ++ natLe (b2n p.gcCopy + 2 * b2n p.enc + 4 * b2n p.secure) 1 ++ natLe (p.saggar % 64) 1
    ++ zeros 2 ++ natLe p.lua 5 ++ natLe p.eraseCount 3 ++ natLe p.seq 8 ++ natLe p.dataSeq 8 ++ natLe (grainBits p.poison) 8 ++ zeros 20
  head ++ natLe (crc32c head).toNat 4 ++ fit (p.crcs.flatMap (fun c => natLe c.toNat 4)) 256

/-- What a read of a page's spare area finds: nothing usable where the page is torn. -/
def FlmPage.spareRead (p : FlmPage) : List Byte := if p.torn then zeros 320 else p.spare

/-- The checks of a spare record: `MAGIC`, `SFMT`, `SPARE_CRC` (R228). -/
def spareOk (sp : List Byte) : Bool := le sp 0 2 = 0x4C46 && le sp 2 1 = 1 && le sp 60 4 = (crc32c (sub sp 0 60)).toNat

/-- The checks of R228 on a page read for a unit of a saggar. -/
def FlmPage.readOk (p : FlmPage) (lua g : Nat) : Bool :=
  spareOk p.spareRead && le p.spareRead 8 5 = lua && le p.spareRead 5 1 = g

/-- Whether grain `k` of a page matches its `GRAIN_CRC`. -/
def FlmPage.grainCrcOk (p : FlmPage) (k : Nat) : Bool := le p.spareRead (64 + 4 * k) 4 = (crc32c (sub p.data (256 * k) 256)).toNat

/-- The data of summary page `i` of a full block: the header and the entries of its data pages from `1,020 i`
on (R229). -/
def summaryData (m : Flm) (d b : Nat) (k : FlmBlk) (i : Nat) : List Byte :=
  let ps := ((k.pages.take m.dataPages).drop (1020 * i)).take 1020
  let entry := fun (p : FlmPage) => natLe (p.lua % 2 ^ 40 + p.kind * 2 ^ 40 + b2n p.gcCopy * 2 ^ 44) 8 ++ natLe p.dataSeq 8
  let head := natLe 0x53554D46 4 ++ [1] ++ natLe i 1 ++ natLe m.summaries 1 ++ [0] ++ natLe m.dataPages 2 ++ natLe ps.length 2 ++ zeros 4
    ++ natLe k.erases 3 ++ [0] ++ natLe b 4 ++ natLe d 2 ++ zeros 6 ++ natLe (k.pages.headD {}).seq 8
    ++ natLe (k.pages.getD (m.dataPages - 1) {}).seq 8 ++ zeros 12
  let body := fit (head ++ zeros 4 ++ ps.flatMap entry) 16384
  overlay body 60 (natLe (crc32c body).toNat 4)

/-- Whether a page is a summary page that passes its checks. -/
def FlmPage.summaryOk (p : FlmPage) : Bool :=
  p.kind = 2 && spareOk p.spareRead && le p.data 0 4 = 0x53554D46 && le p.data 4 1 = 1
    && le p.data 60 4 = (crc32c (overlay p.data 60 (zeros 4))).toNat

/-- The entries of a summary page: unit, kind, `DATA_SEQ`. -/
def FlmPage.entries (p : FlmPage) : List (Nat × Nat × Nat) :=
  (List.range (le p.data 10 2)).map (fun j =>
    (bits (le p.data (64 + 16 * j) 8) 0 40, bits (le p.data (64 + 16 * j) 8) 40 4, le p.data (72 + 16 * j) 8))

/-- The data of a trim record page (R230). -/
def trimData (ranges : List (Nat × Nat)) : List Byte :=
  fit (natLe 0x54524D46 4 ++ natLe ranges.length 2 ++ zeros 10 ++ ranges.flatMap (fun r => natLe (r.1 % 2 ^ 40 + r.2 * 2 ^ 40) 8 ++ zeros 8)) 16384

/-- Units a trim range covers at most, and ranges of a record. -/
def trimUnits : Nat := 2 ^ 24 - 1
def trimRanges : Nat := 1023

/-- A range of units cut into the ranges of trim records. -/
def cutRange (lua units : Nat) : List (Nat × Nat) :=
  (List.range (ceilDiv units trimUnits)).map (fun i => (lua + i * trimUnits, min trimUnits (units - i * trimUnits)))

/-- The trim record pages of a discard. -/
def trimPages (lua units : Nat) (secure : Bool) : List FlmPage :=
  let l := cutRange lua units
  (List.range (ceilDiv l.length trimRanges)).map (fun i =>
    let r := (l.drop (i * trimRanges)).take trimRanges
    { kind := 3, secure := secure, lua := (r.headD (0, 0)).1, ranges := r, data := trimData r })

/-! ## Reading a unit (R223, R228, R239, R240) -/

/-- The page that holds a unit's copy in force. -/
def State.unitPage (s : State) (lua : Nat) : Option FlmPage :=
  match (s.entry lua).pun with
  | some (d, b, i) => if (s.entry lua).held then none else ((s.die d).block b).pages[i]?
  | none => none

/-- Grains of a unit that fail at every read whatever the media do: all of a lost unit or of a page whose record
is another's, and those that do not match their check. A discarded or held unit reads as zeros. -/
def State.unitBad (s : State) (lua g : Nat) : List Nat :=
  let e := s.entry lua
  if e.held then [] else if e.lost then List.range 64 else
  match e.pun with
  | none => []
  | some _ =>
    match s.unitPage lua with
    | some p => if p.readOk lua g then (List.range 64).filter (fun k => !p.grainCrcOk k) else List.range 64
    | none => List.range 64

/-- The bytes of a grain of a unit. -/
def State.unitGrain (s : State) (lua k : Nat) : List Byte :=
  match s.unitPage lua with
  | some p => fit (sub p.data (256 * k) 256) 256
  | none => zeros 256

/-- Repeated reads at the read-retry levels, in ascending order, while a grain has failed at every one so far:
the grains that fail at all of them, and the reads repeated. -/
def retryFrom (always bad : List Nat) (attempts : List (List Nat)) : Nat → List Nat × Nat
  | 0 => (bad, 0)
  | n + 1 =>
    if bad.isEmpty then ([], 0) else
    let now := attempts.headD [] ++ always
    let r := retryFrom always (bad.filter now.contains) attempts.tail n
    (r.1, r.2 + 1)

/-- A read of a unit with what the media make of each attempt: failing grains, and reads repeated (R223). -/
def State.readUnit (s : State) (always : List Nat) (attempts : List (List Nat)) : List Nat × Nat :=
  retryFrom always ((attempts.headD [] ++ always).filter (· < 64)).eraseDups attempts.tail s.flm.retryLevels

/-! ## Health (R232, R245, R246, R247) -/

/-- Good raw units: pages of blocks not retired, on dies not fenced. -/
def State.goodUnits (s : State) : Nat :=
  (s.diesIn.foldl (fun n d => n + (s.flm.blocksPerDie - countIf (s.die d).blk (fun p => p.2.st = 4))) 0) * s.flm.pagesPerBlock

/-- The spare in per mille. -/
def State.sparePm (s : State) : Nat :=
  let g := s.goodUnits
  if g = 0 then 0 else (g - s.flm.logical - 4096) * 1000 / g

/-- The 99th percentile of erase counts as a percentage of the rated endurance, at most 255. -/
def State.wearP99 (s : State) : Nat :=
  let n := s.diesIn.length * s.flm.blocksPerDie
  let above := n - ceilDiv (99 * n) 100
  let counts := (s.diesIn.flatMap (fun d => (s.die d).blk.map (fun p => p.2.erases)
    ++ (if (s.die d).base = 0 then [] else List.replicate (s.flm.blocksPerDie - (s.die d).blk.length) (s.die d).base))).mergeSort (fun a b => decide (b ≤ a))
  if s.flm.peRating = 0 then 0 else min 255 (counts.getD above 0 * 100 / s.flm.peRating)

/-- Health conditions with the bit each sets and its event. -/
def State.healthNow (s : State) : List (Nat × Bool × Nat × Nat) :=
  let p := s.sparePm
  let w := s.wearP99
  let fails := fun (c l : Nat) => decide (2 * l < c)
  [(0, decide (p < 100), 0x0403, p), (1, decide (p < 50), 0x0404, p), (2, decide (p < 20), 0x0405, p),
   (3, decide (50 ≤ w), 0x0406, w), (4, decide (75 ≤ w), 0x0407, w), (5, decide (90 ≤ w), 0x0408, w), (6, decide (100 ≤ w), 0x0409, w),
   (7, fails s.flm.window.1 s.flm.lastWindow.1, 0x040A, s.flm.lastWindow.1), (8, fails s.flm.window.2 s.flm.lastWindow.2, 0x040B, s.flm.lastWindow.2)]

/-- Whether a die in service cannot keep `GC_HIGH` free blocks: its free blocks and those a collection
could free fall short. -/
def State.cannotFree (s : State) : Bool :=
  s.diesIn.any (fun d => decide (s.freeBlocks d
    + countIf (s.die d).blk (fun p => p.2.st = 2 && decide ((s.validPages d p.1).length < s.flm.dataPages)) < s.nodeParam 0x0212))

/-- Copies of a block that the map does not name: its entries in the stale-copy index. -/
def State.staleIn (s : State) (d b : Nat) : Nat :=
  countIf ((s.die d).block b).numbered (fun q => q.2.kind = 1 && !q.2.torn && !s.validPage d b q.1 q.2)
def State.staleCount (s : State) : Nat :=
  s.flm.dies.foldl (fun n x => n + x.2.blk.foldl (fun m y => m + s.staleIn x.1 y.1) 0) 0
/-- Raw units. -/
def State.rawUnits (s : State) : Nat := s.flm.dies.length * s.flm.blocksPerDie * s.flm.pagesPerBlock
/-- Bytes of the index: `STALE_IDX_GIB`, or one byte per raw unit; an entry has 8 (R225, R240). -/
def State.staleBytes (s : State) : Nat := let gib := s.nodeParam 0x0213; if gib = 0 then s.rawUnits else gib * 2 ^ 30
def State.staleRoom (s : State) : Nat := s.staleBytes / 8

/-- The index is full until it falls below 7/8 of its size. -/
def State.staleNow (s : State) : Bool :=
  decide (s.staleRoom ≤ s.staleCount) || (s.flm.staleFull && decide (7 * s.staleRoom ≤ 8 * s.staleCount))

/-- After a change: the index, events once per crossing, flags, and read-only state entered or left. -/
def flmHealth (s : State) : State :=
  if s.flm.st ≠ 3 ∧ s.flm.st ≠ 4 then s else
  let now := s.healthNow
  let s := forEach (now.filter (fun c => c.2.1 && !s.flm.flags.contains c.1)) (fun c s =>
    logEvent c.2.2.1 0 none (if c.1 < 7 then [c.2.2.2] else [c.2.2.2, if c.1 = 7 then s.flm.window.1 else s.flm.window.2]) s) s
  modFlm (fun m => { m with
    flags := (now.filter (fun c => c.2.1)).map (·.1)
    staleFull := s.staleNow
    st := if s.cannotFree || s.sparePm = 0 then 4 else 3 }) s

/-! ## Erasing and retiring (R231, R235 to R237) -/

/-- An entry of the retired-block list: die, block and cause (0 program, 1 erase, 2 factory, 3 manual; of a
whole-die entry the causes of R236). -/
def retiredEntry (d b cause : Nat) : Word32 := BitVec.ofNat 32 (d % 2 ^ 10 + b % 2 ^ 20 * 2 ^ 10 + cause % 4 * 2 ^ 30)

/-- Entries the 2 MiB partition holds. -/
def retiredRoom : Nat := 2 ^ 19

/-- Append to the list; a full partition takes no more. -/
def noteRetired (d b cause : Nat) (s : State) : State :=
  modFlm (fun m => { m with retired := if m.retired.length < retiredRoom then m.retired ++ [retiredEntry d b cause] else m.retired }) s

/-- Programs of a summary page of a block are given up. -/
def dropSummaries (d b : Nat) (s : State) : State :=
  modFlm (fun m => { m with progs := m.progs.filter (fun p => !(p.die = d && p.block = some b)) }) s

/-- Erase a block: it is free with its count one higher. -/
def eraseBlock (d b : Nat) (s : State) : State :=
  modFlm (fun m => { m with erases := m.erases + 1 }) (bumpCtr ctrFlmErases 1
    (modDie d (fun x => { x.setBlk b { st := 0, erases := (x.block b).erases + 1 } with
        early := x.early.filter (· ≠ b)
        must := x.must.filter (· ≠ b)
        victim := if x.victim = some b then none else x.victim
        moving := if x.victim = some b then none else x.moving
        moved := if x.victim = some b then [] else x.moved }) (dropSummaries d b s)))

/-- The die's free block with the lowest erase count, ties to the lowest number (R231). -/
def State.nextBlock (s : State) (d : Nat) : Option Nat :=
  let x := s.die d
  let used := x.blk.map (·.1)
  let fresh := (List.range (used.length + 1)).find? (fun b => !used.contains b && decide (b < s.flm.blocksPerDie))
  let all := (x.blk.filter (fun p => p.2.st = 0)).map (fun p => (p.2.erases, p.1)) ++ (match fresh with | some b => [(x.base, b)] | none => [])
  (all.foldl (fun (best : Option (Nat × Nat)) p =>
    match best with
    | none => some p
    | some b => if p.1 < b.1 ∨ (p.1 = b.1 ∧ p.2 < b.2) then some p else some b) none).map (·.2)

/-- The open block of a die for a stream, opened if there is none; after a rebuild a free block is erased again
before its first use (R242). -/
def openBlock (d : Nat) (host : Bool) (s : State) : Option (Nat × State) :=
  let x := s.die d
  match (if host then x.hostOpen else x.gcOpen) with
  | some b => some (b, s)
  | none =>
    match s.nextBlock d with
    | none => none
    | some b =>
      let s := if ((s.die d).block b).again then eraseBlock d b s else s
      some (b, modDie d (fun x => { x with hostOpen := if host then some b else x.hostOpen, gcOpen := if host then x.gcOpen else some b })
        (modBlk d b (fun k => { k with st := 1, pages := [], again := false }) s))

/-- A die's stream has no open block. -/
def shutBlock (d : Nat) (host : Bool) (s : State) : State :=
  modDie d (fun x => { x with hostOpen := if host then none else x.hostOpen, gcOpen := if host then x.gcOpen else none }) s

/-! ## Demand slots (R500) -/

/-- The slots of 64 each confidential saggar holds: `MEM_SHARE`, at least one. -/
def State.slotShares (s : State) : List (Nat × Nat) :=
  ((protRecs (s.sysBody tyPROTECTION)).filter (fun r => s.sagConf r.1)).map (fun r => (r.1, max 1 r.2.2.2))

/-- The saggar a slot is held for: shares in the order of the records from slot 0 on. -/
def slotOwner : List (Nat × Nat) → Nat → Option Nat
  | [], _ => none
  | (g, n) :: l, k => if k < n then some g else slotOwner l (k - n)

/-- Whether a slot may serve a saggar: its own, or one held for none; a confidential saggar takes such a slot only
when no other has anything queued. -/
def State.slotServes (s : State) (g k : Nat) : Bool :=
  match slotOwner s.slotShares k with
  | some h => h = g
  | none => !s.sagConf g || !s.fab.inbox.any (fun p => p.saggar ≠ g && !s.sagConf p.saggar)

/-- A demand of a saggar is served on a channel of a tier: slots that may not serve it pass, those held for another
unused where that one has nothing queued. -/
def takeSlot (tier ch g : Nat) (s : State) : State :=
  if s.slotShares.isEmpty then s else
  let at_ := aget s.tie.slots (tier, ch) 0
  let n := ((List.range 64).find? (fun i => s.slotServes g ((at_ + i) % 64))).getD 0
  { s with tie := { s.tie with slots := aset s.tie.slots (tier, ch) ((at_ + n + 1) % 64) } }

/-! ## Programs (R226, R227, R229) -/

/-- When an operation that starts now times out (R238). -/
def State.opDeadline (s : State) : Nat := s.now + sclk (2 ^ 24)

/-- The next die of the host stream, channel first. -/
def nextDie (s : State) : Option (Nat × State) :=
  let l := s.diesIn
  if l.isEmpty then none
  else some (l.getD (s.flm.nextPlace % l.length) 0, modFlm (fun m => { m with nextPlace := (m.nextPlace + 1) % l.length }) s)

/-- Whether an earlier program has a unit in common with a page. -/
def Flm.busy (m : Flm) (p : FlmPage) : Bool := (m.progs ++ m.waiting).any (fun q => p.span.any (fun r => q.page.meets r.1 r.2))

/-- Start a program on the next die, with the next `SEQ`, or let it wait for an earlier one of its units. -/
def startProg (p : FlmProg) (s : State) : State :=
  if s.flm.busy p.page then modFlm (fun m => { m with waiting := m.waiting ++ [p] }) s
  else match nextDie s with
    | none => modFlm (fun m => { m with waiting := m.waiting ++ [p] }) s
    | some (d, s) => takeSlot 4 (d / 32) p.page.saggar (modFlm (fun m => { m with
        seq := m.seq + 1
        progs := m.progs ++ [{ p with die := d, page := { p.page with seq := m.seq, dataSeq := m.seq }, deadline := s.opDeadline }] }) s)

/-- Programs that waited and can now start. -/
def startWaiting (s : State) : State :=
  forEach s.flm.waiting startProg (modFlm (fun m => { m with waiting := [] }) s)

/-- Failure windows shift every 2^30 programs (R246). -/
def rollWindow (s : State) : State :=
  let n := (aget s.ctr ctrFlmPrograms {}).count
  if s.flm.windowAt + 2 ^ 30 ≤ n then modFlm (fun m => { m with lastWindow := m.window, window := (0, 0), windowAt := n }) s else s

/-- A page's program has passed: it stands in a block. -/
def putPage (d b : Nat) (p : FlmPage) (s : State) : State :=
  rollWindow (bumpCtr ctrFlmPrograms 1 (modBlk d b (fun k => { k with pages := k.pages ++ [{ p with eraseCount := k.erases }] }) s))

/-- The data pages of a block are full: its summary pages are programmed next on its die (R229). -/
def summarise (d b : Nat) (host : Bool) (s : State) : State :=
  let m := s.flm
  let k := (s.die d).block b
  let ps := (List.range m.summaries).map (fun i => ({ die := d, host := host, block := some b, deadline := s.opDeadline
                                                      page := { kind := 2, seq := m.seq + i, data := summaryData m d b k i } } : FlmProg))
  shutBlock d host (modFlm (fun m => { m with seq := m.seq + m.summaries, progs := ps ++ m.progs }) s)

/-- One page programmed into a stream of a die; the place it took is answered. -/
def placePage (d : Nat) (host : Bool) (p : FlmPage) (s : State) : Option ((Nat × Nat × Nat) × State) :=
  match openBlock d host s with
  | none => none
  | some (b, s) =>
    let i := ((s.die d).block b).pages.length
    let s := putPage d b p s
    some ((d, b, i), if s.flm.dataPages ≤ i + 1 then summarise d b host s else s)

/-- The oldest program of a stream on a die. -/
def State.progOn (s : State) (d : Nat) (host : Bool) : Option FlmProg := s.flm.progs.find? (fun p => p.die = d && p.host = host)

/-- Units of a range whose copy in force is older than a trim record are unmapped (R230, R239). -/
def unmap (p : FlmPage) (s : State) : State :=
  modFlm (fun m => { m with map := m.map.map (fun (e : Nat × FlmEntry) =>
    if p.covers e.1 then
      match s.unitPage e.1 with
      | some q => if p.dataSeq ≤ q.dataSeq then e else (e.1, { e.2 with pun := none, lost := false })
      | none => (e.1, { e.2 with pun := none, lost := false })
    else e) }) s

/-- Blocks with a copy of a range are emptied and erased, whatever the free blocks (R240 step 4). -/
def eraseCopies (lua units seq : Nat) (s : State) : State :=
  forEach (s.copyBlocks lua units seq) (fun q s => modDie q.1 (fun x => { x with
    must := if x.must.contains q.2 then x.must else x.must ++ [q.2]
    hostOpen := if x.hostOpen = some q.2 then none else x.hostOpen
    gcOpen := if x.gcOpen = some q.2 then none else x.gcOpen }) s) s

/-- Steps 2 and 3 of a secure discard follow as programs complete: the trim record once no earlier program of
the range is left, the blocks once the record is on the media (R240). -/
def secureWork (s : State) : State :=
  forEach s.flm.secure (fun x s =>
    let put (y : FlmSecure) (s : State) : State := modFlm (fun m => { m with secure := m.secure.map (fun z => if z = x then y else z) }) s
    if x.stage = 1 ∧ !(s.flm.progs ++ s.flm.waiting).any (fun q => q.page.meets x.lua x.units) = true then
      forEach (trimPages x.lua x.units true) (fun p s => startProg { page := p, discard := some x.lua } s) (put { x with stage := 2 } s)
    else if x.stage = 2 ∧ !(s.flm.progs ++ s.flm.waiting).any (fun q => q.discard = some x.lua) = true then
      eraseCopies x.lua x.units s.flm.seq (put { x with stage := 3, seq := s.flm.seq } s)
    else s) s

/-- A unit of a frame write is on the media: the write is acknowledged with its last (R226). -/
def noteUnit (p : FlmProg) (s : State) : State :=
  match s.flm.writes.find? (fun w => p.write = some w.id) with
  | none => s
  | some w =>
    let w' := { w with left := w.left.filter (· ≠ p.page.lua % 4) }
    if !w'.left.isEmpty then modFlm (fun m => { m with writes := m.writes.map (fun x => if x = w then w' else x) }) s
    else
      let s := modFlm (fun m => { m with writes := m.writes.filter (· ≠ w) }) s
      match w.move with
      | none => emit (.flm (4 * w.frame) 4 .ok 0) s
      | some (r, pg) => modRegion r (fun x => { x with moves := x.moves.map (fun m =>
          if m.page = pg ∧ m.write = some w.id then { m with write := none } else m) }) s

/-- A program passes its status: the page is on the media; the map names a unit's, a trim record unmaps its
units, and the last summary page closes its block (R226, R229, R239). -/
def programDone (d : Nat) (host : Bool) (s : State) : State :=
  match s.progOn d host with
  | none => s
  | some p =>
    let rest := fun (s : State) => flmHealth (secureWork (startWaiting s))
    let drop := modFlm (fun m => { m with progs := m.progs.erase p })
    match p.block with
    | some b =>
      let s := putPage d b p.page (drop s)
      rest (if s.flm.progs.any (fun q => q.die = d && q.block = some b) then s else modBlk d b (fun k => { k with st := if k.st = 1 then 2 else k.st }) s)
    | none =>
      match placePage d host p.page s with
      | none => s
      | some (pun, s) =>
        let s := drop s
        rest (if p.page.kind = 3 then unmap p.page s else
          noteUnit p (modFlm (fun m => { m with
            map := amod m.map p.page.lua {} (fun (e : FlmEntry) => { e with pun := some pun, lost := false }) }) s))

/-! ## Fences of dies (R236, R238) -/

/-- Fence a flash die: `LOST` on its entries, a whole-die entry in the retired list; programs on it are
done again on other dies. -/
def fenceFlashDie (d cause : Nat) (s : State) : State :=
  match afind s.flm.dies d with
  | none => s
  | some x =>
    if x.fenced then s else
    let again := s.flm.progs.filter (fun p => p.die = d && p.host && p.block.isNone)
    let s := noteRetired d 0xFFFFF cause (modFlm (fun m => { m with
      dies := aset m.dies d { x with fenced := true, hostOpen := none, gcOpen := none, victim := none, moving := none, moved := [], collecting := false }
      map := m.map.map (fun (e : Nat × FlmEntry) => (e.1, match e.2.pun with | some q => { e.2 with lost := e.2.lost || decide (q.1 = d) } | none => e.2))
      progs := m.progs.filter (fun p => p.die ≠ d) }) s)
    flmHealth (forEach again startProg s)

/-- Retire a block: into the list, counted; above 1/8 of the die's blocks the die is fenced (R236,
R238). -/
def retire (d b cause : Nat) (s : State) : State :=
  let s := noteRetired d b cause (modFlm (fun m => { m with
      window := if cause = 0 then (m.window.1 + 1, m.window.2) else (m.window.1, m.window.2 + 1) })
    (bumpSat (if cause = 0 then satFlmProgFail else satFlmEraseFail) (dropSummaries d b (modBlk d b (fun k => { k with st := 4, pages := [] }) s))))
  let s := modDie d (fun x => { x with
    early := x.early.filter (· ≠ b)
    must := x.must.filter (· ≠ b)
    victim := if x.victim = some b then none else x.victim
    moving := if x.victim = some b then none else x.moving
    moved := if x.victim = some b then [] else x.moved }) s
  if s.flm.blocksPerDie < 8 * countIf (s.die d).blk (fun p => p.2.st = 4) then fenceFlashDie d 1 s else flmHealth s

/-- A block that failed a program is retired once none of its pages is valid; until then they wait to be
moved (R235). -/
def retireWhenEmpty (d b : Nat) (s : State) : State :=
  if (s.validPages d b).isEmpty then retire d b 0 s
  else modDie d (fun x => { x with must := if x.must.contains b then x.must else x.must ++ [b] })
    (dropSummaries d b (modBlk d b (fun k => { k with st := 3 }) s))

/-- A program fails: a unit's or a trim record's data goes to another block, and the failing block is to be
retired (R235). -/
def programFailed (d : Nat) (host : Bool) (s : State) : State :=
  match s.progOn d host with
  | some { block := some b, .. } => retireWhenEmpty d b s
  | _ =>
    match openBlock d host s with
    | none => s
    | some (b, s) => retireWhenEmpty d b (shutBlock d host s)

/-! ## Writes and discards (R226, R239, R240, R247) -/

/-- The first T4 frame of a saggar's flash namespace, and its frames (R593). -/
def State.flashBase (s : State) (g : Nat) : Nat :=
  ((List.range g).foldl (fun n h => n + if s.sagExists h then recFlashGib (s.sagRec h) else 0) 0) * 16384
def State.flashFrameCount (s : State) (g : Nat) : Nat := recFlashGib (s.sagRec g) * 16384

/-- Whether a T4 frame lies in a saggar's namespace and below the logical capacity (R224, R593). -/
def State.ownsT4 (s : State) (f g : Nat) : Bool :=
  decide (s.flashBase g ≤ f) && decide (f < s.flashBase g + s.flashFrameCount g) && decide (4 * f + 4 ≤ s.flm.logical)

/-- The write buffer has room for another frame (`FLM_WBUF_MIB`, R225). -/
def State.wbufRoom (s : State) : Bool :=
  decide ((countIf (s.flm.progs ++ s.flm.waiting) (fun p => p.page.kind = 1) + 4) * 16384 ≤ s.nodeParam 0x0214 * 2 ^ 20)

/-- Why MD1 does not begin a frame write. -/
def State.writeRefusal (s : State) (f g : Nat) : Option (Status × Nat) :=
  if !s.ownsT4 f g then some (.denied, 0)
  else if s.flm.st ≠ 3 ∧ s.flm.st ≠ 4 then some (.nackRetry, 20)
  else if (List.range 4).any (fun k => (s.entry (4 * f + k)).held) then some (.nackRetry, 16)
  else if s.flm.st = 4 ∨ s.wbufRoom = false then some (.nackRetry, 14)
  else none

/-- Begin a frame write: its units go to successive dies (R226). -/
def beginWrite (f : Nat) (pages : List FlmPage) (move : Option (Nat × Nat)) (s : State) : State :=
  let id := s.flm.nextWrite
  forEach pages (fun p s => startProg { page := p, write := some id } s)
    (modFlm (fun m => { m with nextWrite := id + 1, writes := m.writes ++ [{ id := id, frame := f, left := pages.map (fun p => p.lua % 4), move := move }] }) s)

/-- An ordinary discard: its trim records go into the host stream; the units are unmapped when they are on the
media (R239). -/
def discard (lua units : Nat) (s : State) : State :=
  flmHealth (forEach (trimPages lua units false) (fun p s => startProg { page := p } s) s)

/-- A secure discard: the range is held, and its steps follow (R240). -/
def secureDiscard (lua units : Nat) (s : State) : State :=
  secureWork (modFlm (fun m => { m with
    map := (List.range units).foldl (fun mp k => amod mp (lua + k) {} (fun (e : FlmEntry) => { e with held := true })) m.map
    secure := m.secure ++ [{ lua := lua, units := units }] }) s)

/-- The units of a freed T4 frame are discarded, or wait for the flash to be online. -/
def discardFrame (f : Nat) (secure : Bool) (s : State) : State :=
  if s.flm.st = 3 ∨ s.flm.st = 4 then (if secure then secureDiscard (4 * f) 4 s else discard (4 * f) 4 s)
  else modFlm (fun m => { m with trims := m.trims ++ [(4 * f, secure)] }) s

/-! ## The block-table checkpoint (R237) -/

/-- The place of a die in the checkpoint: by channel, target and LUN of the geometry. -/
def Flm.rank (m : Flm) (d : Nat) : Nat := d / 32 * (m.targets * m.luns) + d % 32 / 4 * m.luns + d % 4

/-- The erase counts of every block, 3 bytes each, cut into system units. -/
def State.checkpointData (s : State) : List Byte :=
  let m := s.flm
  (List.range (32 * m.targets * m.luns)).flatMap (fun r =>
    let x := s.die (r / (m.targets * m.luns) * 32 + r % (m.targets * m.luns) / m.luns * 4 + r % m.luns)
    (List.range m.blocksPerDie).flatMap (fun b => natLe (x.block b).erases 3))

/-- A data page with the checks of its grains. -/
def dataPage (lua g : Nat) (data : List Byte) : FlmPage :=
  { lua := lua, saggar := g, data := data, crcs := (List.range 64).map (fun k => crc32c (sub data (256 * k) 256)) }

/-- Write the checkpoint to the system units above the logical capacity. -/
def checkpoint (s : State) : State :=
  let bs := s.checkpointData
  let n := min 4096 (ceilDiv bs.length 16384)
  modFlm (fun m => { m with erasesAt := m.erases })
    (forEach (List.range n) (fun k s => startProg { page := dataPage (s.flm.logical + k) 0 (fit (sub bs (16384 * k) 16384) 16384) } s) s)

/-- The checkpoint every 2^20 erases. -/
def checkpointDue (s : State) : State := if s.flm.erasesAt + 2 ^ 20 ≤ s.flm.erases then checkpoint s else s

/-- A byte of the checkpoint as the map finds it. -/
def State.checkpointByte (s : State) (i : Nat) : Option Byte :=
  (s.unitPage (s.flm.logical + i / 16384)).map (fun p => p.data.getD (i % 16384) 0)

/-- The checkpoint count of a block, zero where no checkpoint holds it. -/
def State.checkpointCount (s : State) (d b : Nat) : Nat :=
  let i := 3 * (s.flm.rank d * s.flm.blocksPerDie + b)
  match s.checkpointByte i, s.checkpointByte (i + 1), s.checkpointByte (i + 2) with
  | some x, some y, some z => x.toNat + y.toNat * 256 + z.toNat * 65536
  | _, _, _ => 0

end Sys2Proof.Machine
end

