-- ==== Sys2Proof/Machine/Pool.lean ====
section
/-! DEFINITION. The pool (chapter 07): regions, frames and their side words, placement, access counts,
and the reading and writing of a region's bytes that every unit uses. -/

namespace Sys2Proof.Machine

/-! ## Regions -/

def State.region? (s : State) (id : Nat) : Option Region := afind s.tie.regions id
def State.region (s : State) (id : Nat) : Region := aget s.tie.regions id {}

/-- Nodes this chip answers for: itself and the aliases it serves (R537). -/
def State.homes (s : State) : List Nat :=
  s.fab.node :: ((s.erc.aliases.filter (·.valid)).map (·.node))

/-- The tiers a policy names (R201). -/
def polTiers (pol : Nat) : List Nat :=
  match pol with
  | 0 => [2] | 1 => [3] | 2 => [2, 3] | 3 => [3, 4] | 4 => [2, 3, 4] | _ => []

/-- The tier of a first write (R201). -/
def polFirst (pol : Nat) : Nat := if pol = 1 ∨ pol = 3 then 3 else 2

/-- Writable kinds hold no sealed content (R200). -/
def Region.immutable (r : Region) : Bool := r.kind = 0

/-- What an offset of a node's space names (R200, R216): a region's working bytes or a version view. -/
inductive Place where
  | working (r : Region) (a : Nat)
  | view (r : Region) (v : Nat) (a : Nat)
  | nowhere
  deriving DecidableEq, Repr

/-- Bytes of a region. -/
def Region.size (r : Region) : Nat := r.pages * pageBytes

/-- The view, if any, of a region that holds an offset. -/
def viewAt (r : Region) (off : Nat) : Option (Nat × Nat) :=
  r.versions.findSome? (fun p => match p.2.view with
    | some b => if b ≤ off ∧ off < b + r.size then some (p.1, off - b) else none
    | none => none)

/-- Where an offset at a node leads for a saggar, the whole range inside it (R340 row 2): a region the node homes, or
else a copy it holds of another home's (R206). -/
def State.placeOf (s : State) (home off len g : Nat) : Place :=
  let own := s.tie.regions.filter (fun p => p.2.home = home ∧ p.2.saggar = g)
  if off < 2 ^ 47 then
    let at_ := fun (p : Nat × Region) => decide (p.2.base ≤ off ∧ off + len ≤ p.2.base + p.2.size)
    let copies := s.tie.regions.filter (fun p => p.2.immutable && p.2.saggar = g && home = s.fab.node && !s.homes.contains p.2.home)
    match (own.find? at_).or (copies.find? at_) with
    | some (_, r) => .working r (off - r.base)
    | none => .nowhere
  else
    match own.findSome? (fun p => (viewAt p.2 off).map (fun v => (p.2, v))) with
    | some (r, v, a) => if a + len ≤ r.size then .view r v a else .nowhere
    | none => .nowhere

/-- A descriptor of sixteen words read into a region. -/
def regionOfDesc (d : List Byte) : Region :=
  let w0 := le d 0 8
  let w1 := le d 8 8
  { id := bits w0 0 32, home := bits w0 32 16, saggar := bits w0 48 6, kind := bits w0 54 3, coh := bits w0 57 2,
    conf := bit w0 59, hotspot := bits w0 60 2, tierPol := bits w1 0 4, comp := bits w1 8 24, domain := bits w1 32 16,
    version := le d 16 4, pages := le d 20 4, base := bits (le d 24 8) 0 48, contentDigest := sub d 32 32,
    kv := bits (le d 64 8) 0 44, firstSeqPage := le d 72 4, maxexpK := le d 76 2, maxexpV := le d 78 2 }

/-- The descriptor of a region. -/
def Region.desc (r : Region) : List Byte :=
  natLe (r.id + r.home * 2 ^ 32 + r.saggar * 2 ^ 48 + r.kind * 2 ^ 54 + r.coh * 2 ^ 57 + b2n r.conf * 2 ^ 59
      + r.hotspot * 2 ^ 60) 8
    ++ natLe (r.tierPol + r.comp * 2 ^ 8 + r.domain * 2 ^ 32) 8
    ++ natLe r.version 4 ++ natLe r.pages 4 ++ natLe r.base 8 ++ fit r.contentDigest 32
    ++ natLe r.kv 8 ++ natLe r.firstSeqPage 4 ++ natLe r.maxexpK 2 ++ natLe r.maxexpV 2 ++ zeros 48

/-- The KV geometry of word 8 (R164, R199). -/
def Region.kvFmt (r : Region) : Nat := bits r.kv 0 4
def Region.dCode (r : Region) : Nat := bits r.kv 4 2
def Region.hPg (r : Region) : Nat := bits r.kv 6 4
def Region.nKv (r : Region) : Nat := bits r.kv 10 8
def Region.layers (r : Region) : Nat := bits r.kv 18 9
def Region.maxp (r : Region) : Nat := bits r.kv 27 17
/-- Head dimension. -/
def Region.headDim (r : Region) : Nat := 64 * 2 ^ r.dCode
/-- Bytes per token and head. -/
def Region.tokenBytes (r : Region) : Nat := if r.kvFmt = 1 then 2 * r.headDim else 2 * r.headDim + r.headDim / 16
/-- Positions per page, `T_PG`. -/
def Region.tPg (r : Region) : Nat := min 256 (32 * (65536 / (32 * r.hPg * r.tokenBytes)))

/-- A region by ID for a saggar: one of this chip's, else one the `REGIONS` section in force lists. -/
def State.regionKnown (s : State) (g id : Nat) : Option Region :=
  match afind s.tie.regions id with
  | some r => if r.saggar = g then some r else none
  | none =>
    let b := s.sagBody tyREGIONS g
    ((List.range (b.length / 144)).map (fun i => regionOfDesc (sub b (144 * i) 128))).find? (fun r => r.id = id ∧ r.saggar = g)

/-! ## Capacity and frames -/

/-- Frames per HBM pseudo-channel (768 MiB) and per GiB. -/
def framesPerPc : Nat := 12288
def framesPerGib : Nat := 16384

def State.hbm (s : State) (k : Nat) : HbmStack := aget s.tie.hbm k {}
def State.ddr (s : State) (c : Nat) : DdrCh := aget s.tie.ddr c {}

/-- Whether an HBM pseudo-channel (64 k + c) is in service. -/
def State.pcUp (s : State) (i : Nat) : Bool :=
  decide (i / 64 < s.variant.stacks) && (s.hbm (i / 64)).trained && !(s.hbm (i / 64)).fence.on
    && !(s.hbm (i / 64)).pcFenced.contains (i % 64)

/-- A stack skips command issue from 95 °C (R193). -/
def State.hbmSkips (s : State) (k : Nat) : Bool := decide (95 ≤ (s.hbm k).temp)

/-- Memory units of a tier a saggar can use: its pseudo-channels, the DRAM channels, the flash dies. -/
def State.tierUnits (s : State) (tier g : Nat) : List Nat :=
  if tier = 2 then (List.range 512).filter (fun i => recHbmPc (s.sagRec g) i && s.pcUp i)
  else if tier = 3 then (List.range 16).filter (fun c => !(s.ddr c).fence.on)
  else (s.flm.dies.filter (fun p => !p.2.fenced)).map (·.1)

/-- Frames a memory unit holds at most (R192, R194). -/
def State.unitFrames (s : State) (tier u : Nat) : Nat :=
  if tier = 2 then framesPerPc else if tier = 3 then (s.ddr u).capGib * framesPerGib else s.flm.logical / 4

/-- Frames a saggar holds in a tier (`TIE_FRAMES`). -/
def State.framesOf (s : State) (tier g : Nat) : Nat :=
  countIf s.tie.frames (fun p => p.2.tier = tier && p.2.saggar = g)

/-- Frames in use in a tier. -/
def State.framesIn (s : State) (tier : Nat) : Nat := countIf s.tie.frames (fun p => p.2.tier = tier)

/-- T3 frames the flash structures take in saggar 0's area: map, stale-copy index, block table, write buffer
(R225). -/
def State.flashTables (s : State) : Nat :=
  if s.flm.dies.isEmpty then 0
  else ceilDiv (5 * s.rawUnits + s.staleBytes + 16 * (s.flm.dies.length * s.flm.blocksPerDie) + s.nodeParam 0x0214 * 2 ^ 20) pageBytes

/-- T3 frames the rebuild's scratch takes while it runs (R225, R243). -/
def State.scratch (s : State) : Nat := if s.flm.st = 2 ∨ s.flm.st = 5 then ceilDiv (8 * s.rawUnits) pageBytes else 0

/-- Frames of the area the image reserves for saggar 0 (R196). -/
def State.sysArea (s : State) : Nat := s.nodeParam 0x0201 * framesPerGib

/-- Capacity in frames the image assigns a saggar in a tier, as shrunk by fences (R220, R593). -/
def State.assigned (s : State) (tier g : Nat) : Nat :=
  if tier = 2 then (s.tierUnits 2 g).length * framesPerPc
  else if tier = 3 then (if g = 0 then s.sysArea - s.flashTables else recDramGib (s.sagRec g) * framesPerGib)
  else s.flashFrameCount g

/-- Frames of tier T3 a saggar may still take, over the trained channels: the first `T3_SYS_GIB` are saggar 0's
(R196), and the scratch of a rebuild is outside them. -/
def State.t3Free (s : State) (g : Nat) : Nat :=
  let all := ((List.range 16).foldl (fun n c => n + if (s.ddr c).fence.on then 0 else (s.ddr c).capGib) 0) * framesPerGib
  if g = 0 then min all s.sysArea - s.flashTables - s.framesOf 3 0
  else all - s.sysArea - s.scratch - (s.framesIn 3 - s.framesOf 3 0)

/-- T4 frames of the namespace below the logical capacity and free (R593). -/
def State.t4Free (s : State) (g : Nat) : Nat :=
  let top := min (s.flashBase g + s.assigned 4 g) (s.flm.logical / 4)
  (top - s.flashBase g) - s.framesOf 4 g

/-- A saggar's free capacity in a tier (R210, R593). -/
def State.freeIn (s : State) (tier g : Nat) : Nat :=
  if tier = 2 then s.assigned 2 g - s.framesOf 2 g
  else if tier = 3 then min (s.assigned 3 g - s.framesOf 3 g) (s.t3Free g)
  else s.t4Free g

/-- The reserve of R210. -/
def State.reserveIn (s : State) (tier g : Nat) : Nat := s.assigned tier g / 32

/-- The memory unit a page's frame goes to: for a hashing region the channel of R365 first, otherwise the unit the
page number selects in rotation; a full unit or a stack that skips commands is passed over. -/
def State.pickUnit (s : State) (tier g : Nat) (r : Region) (page : Nat) : Option Nat :=
  let units := s.tierUnits tier g
  let i := if r.hotspot = 2 then (crc32c (natLe r.id 4 ++ natLe page 4)).toNat else page
  ((List.range units.length).map (fun k => units.getD ((i + k) % units.length) 0)).find? (fun u =>
    !(tier = 2 && s.hbmSkips (u / 64)) && decide (countIf s.tie.frames (fun p => p.2.tier = tier && p.2.unit = u) < s.unitFrames tier u))

/-- Frame identifiers of T4 carry the flash frame number, so that LUAs 4f to 4f + 3 are its units (R224). -/
def t4Id (f : Nat) : Nat := 2 ^ 40 + f
def t4Frame (id : Nat) : Nat := id - 2 ^ 40

/-- The lowest T4 frame at or above `lo` that is not in use and has no held unit; `fuel` bounds the search. -/
def State.freeT4 (s : State) (lo : Nat) : Nat → Nat
  | 0 => lo
  | fuel + 1 =>
    if ahas s.tie.frames (t4Id lo) || (List.range 4).any (fun k => (s.entry (4 * lo + k)).held) then s.freeT4 (lo + 1) fuel else lo

/-- A new zero-filled frame for a page (R204); none where the tier has no unit or no room. -/
def allocFrame (tier g : Nat) (r : Region) (page : Nat) (s : State) : Option (Nat × State) :=
  if s.freeIn tier g = 0 then none else
  match s.pickUnit tier g r page with
  | none => none
  | some u =>
    let id := if tier = 4 then t4Id (s.freeT4 (s.flashBase g) (s.tie.frames.length + s.flm.map.length)) else s.tie.nextFrame
    let fr : Frame := { tier := tier, unit := u, index := if tier = 4 then t4Frame id else id, saggar := g, conf := r.conf }
    some (id, bumpCtr (ctrFrames g tier) 1
      { s with tie := { s.tie with frames := aset s.tie.frames id fr, mem := memClear s.tie.mem (id * pageBytes) pageBytes,
                                   nextFrame := if tier = 4 then s.tie.nextFrame else s.tie.nextFrame + 1 } })

/-- Free a frame: its bytes and side words go; a T4 frame's units are discarded, securely under confidential mode
(R204, R205). -/
def freeFrame (id : Nat) (s : State) : State :=
  match afind s.tie.frames id with
  | none => s
  | some fr =>
    let s := dropCtr (ctrFrames fr.saggar fr.tier) 1
      { s with tie := { s.tie with frames := aerase s.tie.frames id, mem := memClear s.tie.mem (id * pageBytes) pageBytes } }
    if fr.tier = 4 then discardFrame fr.index fr.conf s else s

/-- Frames some page list of some region holds. -/
def Region.held (r : Region) : List Nat :=
  (r.working.flatMap (·.2)) ++ (r.versions.flatMap (fun v => v.2.pages.flatMap (·.2)))
    ++ ((r.moves.filter (fun m => m.node.isNone)).map (·.dst))

def State.heldFrames (s : State) : List Nat := s.tie.regions.flatMap (fun p => p.2.held)

/-- Free those of the frames that no list holds any more (R212, R215). -/
def freeUnheld (ids : List Nat) (s : State) : State :=
  forEach ids (fun id s => if s.heldFrames.contains id then s else freeFrame id s) s

/-! ## Grains and side words (R197, R198) -/

/-- The side word a zero-filled grain has. -/
def freshSide (fr : Frame) (g : Nat) : Side :=
  { crc := crc32c (zeros 256), saggar := fr.saggar, addr := fr.index * 256 + g }

def sideOf (fr : Frame) (g : Nat) : Side := aget fr.side g (freshSide fr g)

/-- The stored 256 bytes of a grain: in T4, of the unit on the media. -/
def State.grain (s : State) (id g : Nat) : List Byte :=
  match afind s.tie.frames id with
  | some fr => if fr.tier = 4 then s.unitGrain (4 * fr.index + g / 64) (g % 64) else memRead s.tie.mem (id * pageBytes + g * 256) 256
  | none => zeros 256

/-- The checks of R198 on a grain of a region; in T4 those of R228. -/
def State.grainOk (s : State) (r : Region) (id g : Nat) : Bool :=
  match afind s.tie.frames id with
  | none => false
  | some fr =>
    let w := sideOf fr g
    if fr.tier = 4 then !(s.unitBad (4 * fr.index + g / 64) r.saggar).contains (g % 64)
    else w.crc = crc32c (s.grain id g) && (w.addr = fr.index * 256 + g) && (w.saggar = r.saggar) && (fr.tier ≠ 3 || w.agree)

/-- A grain is poisoned: by its side word, in T4 also by its spare record, or for want of a frame (R203, R207,
R220, R228). -/
def State.grainPoisoned (s : State) (id g : Nat) : Bool :=
  match afind s.tie.frames id with
  | none => true
  | some fr => (sideOf fr g).poison || (fr.tier = 4 &&
      (match s.unitPage (4 * fr.index + g / 64) with | some p => p.poison.contains (g % 64) | none => false))

/-- A grain passes its checks and is not poisoned. -/
def State.grainGood (s : State) (r : Region) (id g : Nat) : Bool := s.grainOk r id g && !s.grainPoisoned id g

/-- The side word of a grain as it leaves its tier: from T4 the checks come from the spare record (R228). Its one
`ENC` flag is taken for every grain but those that are zero bytes, which no write has reached. -/
def State.sideAt (s : State) (id g : Nat) : Side :=
  match afind s.tie.frames id with
  | none => {}
  | some fr =>
    if fr.tier ≠ 4 then sideOf fr g else
    match s.unitPage (4 * fr.index + g / 64) with
    | some p => { crc := p.crcs.getD (g % 64) 0, saggar := p.saggar, enc := p.enc && (s.grain id g).any (· ≠ 0) }
    | none => { crc := crc32c (zeros 256), saggar := fr.saggar }

/-- Set a grain's side word. -/
def setSide (id g : Nat) (f : Side → Side) (s : State) : State :=
  match afind s.tie.frames id with
  | none => s
  | some fr =>
    { s with tie := { s.tie with frames := aset s.tie.frames id { fr with side := aset fr.side g (f (sideOf fr g)) } } }

/-- Poison a grain (R203). -/
def poisonGrain (id g : Nat) (s : State) : State := setSide id g (fun w => { w with poison := true }) s

/-- Store a whole grain with its check (R346, R531). -/
def storeGrain (r : Region) (id g : Nat) (data : List Byte) (enc : Bool) (s : State) : State :=
  setSide id g (fun w => { w with crc := crc32c data, saggar := r.saggar, poison := false, enc := enc,
                                  ver := (r.version + 1) % 65536, addr := w.addr, agree := true })
    { s with tie := { s.tie with mem := memWrite s.tie.mem (id * pageBytes + g * 256) data } }

/-! ## Encryption at the home memory port (R487, R488) -/

/-- The tweak of a grain of a region. -/
def tweak (r : Region) (grainIdx : Nat) : List Byte := natLe grainIdx 8 ++ natLe r.id 4 ++ zeros 4

def State.sagSec (s : State) (g : Nat) : SagSec := aget s.sag g {}

/-- The data key's work: encryption on the way in, decryption on the way out, for the kinds R487 names. -/
def State.portEncrypts (s : State) (r : Region) : Bool := r.conf && !r.immutable && (s.sagSec r.saggar).dataKey.isSome

def State.toStored (s : State) (r : Region) (gi : Nat) (plain : List Byte) : List Byte :=
  if s.portEncrypts r then Config.xtsEncrypt (((s.sagSec r.saggar).dataKey).getD []) (tweak r gi) plain else plain

/-- A grain that no write has reached is not encrypted and reads as zeros (R204). -/
def State.fromStored (s : State) (r : Region) (gi : Nat) (enc : Bool) (stored : List Byte) : List Byte :=
  if enc && s.portEncrypts r then Config.xtsDecrypt (((s.sagSec r.saggar).dataKey).getD []) (tweak r gi) stored else stored

/-! ## Access counts (R208, R209) -/

def State.decayOf (s : State) (tier : Nat) : Nat := aget s.tie.decay tier 0

/-- The effective count of a page in a tier. -/
def cEff (c g e : Nat) : Nat := c / 2 ^ min 12 ((e + 16 - g % 16) % 16)

def State.cEffOf (s : State) (r : Region) (page tier : Nat) : Nat :=
  let cg := aget r.counts page (0, 0)
  cEff cg.1 cg.2 (s.decayOf tier)

/-- One access to a page: its count, its tier's total, and the decay epoch at each multiple of 2^24,
unless the tier's epoch is held for the sweeper (R209). -/
def touch (id page tier : Nat) (s : State) : State :=
  let r := s.region id
  let e := s.decayOf tier
  let c := min 4095 (s.cEffOf r page tier + 1)
  let s := modRegion id (fun r => { r with counts := aset r.counts page (c, e % 16) }) s
  let t := aget s.tie.total tier 0 + 1
  let due := t % 2 ^ 24 = 0
  let behind := decide (8 ≤ e + 1 - aget s.tie.swept tier 0)
  { s with tie := { s.tie with
      total := aset s.tie.total tier t,
      decay := if due && !behind then aset s.tie.decay tier (e + 1) else s.tie.decay,
      hold := if due && behind && !s.tie.hold.contains tier then tier :: s.tie.hold else s.tie.hold } }

/-! ## Page lists -/

/-- The frames of a page in the working list or in a version (R212). -/
def pageFrames (r : Region) (ver : Option Nat) (page : Nat) : List Nat :=
  match ver with
  | none => aget r.working page []
  | some v => aget (aget r.versions v {}).pages page []

def State.frameTier (s : State) (id : Nat) : Nat := match afind s.tie.frames id with | some fr => fr.tier | none => 0

/-- The frame a page is served from: the highest tier it is in. -/
def State.servingFrame (s : State) (ids : List Nat) : Option Nat :=
  match ids.filter (fun i => s.frameTier i = 2) ++ ids.filter (fun i => s.frameTier i = 3)
      ++ ids.filter (fun i => s.frameTier i = 4) with
  | [] => none
  | i :: _ => some i

/-- Whether a frame of a page is shared with a version's list (R212). -/
def shared (r : Region) (page fr : Nat) : Bool :=
  r.versions.any (fun v => (aget v.2.pages page []).contains fr)

/-! ## Mover queue -/

/-- Add a mover job unless the same job already waits or runs. -/
def enqueueMove (j : MoverJob) (s : State) : State :=
  if s.tie.queue.contains j || s.tie.movers.any (fun p => p.2.job = j) then s
  else { s with tie := { s.tie with queue := s.tie.queue ++ [j] } }

/-- The on-demand promotion of a page in T4 (R210 rule 4). -/
def promoteOnDemand (r : Region) (ver : Option Nat) (page : Nat) (s : State) : State :=
  enqueueMove { cls := 2, region := r.id, page := page, ver := ver, toTier := 3, saggar := r.saggar } s

/-- Refetch a page of an `IMMUTABLE` region from another holder (R203). A request waits for it, so the job has the
class of an on-demand promotion. -/
def refetch (r : Region) (page : Nat) (s : State) : State :=
  match r.holders with
  | [] => s
  | n :: _ => enqueueMove { cls := 2, region := r.id, page := page, toTier := polFirst r.tierPol, fromNode := some n, saggar := r.saggar } s

/-! ## When a tier runs short (R219) -/

/-- Whether a tier is short for a saggar; T4 also while the flash is read-only (R247). -/
def State.isShort (s : State) (tier g : Nat) : Bool :=
  decide (s.freeIn tier g ≤ s.reserveIn tier g) || (tier = 4 && s.flm.st = 4)

/-- Pages of a saggar in a tier that may be demoted: region, page, effective count. -/
def State.demotable (s : State) (tier g : Nat) : List (Nat × Nat × Nat) :=
  (s.tie.regions.filter (fun q => q.2.saggar = g ∧ q.2.tierPol ≥ 2)).flatMap (fun q =>
    (q.2.working.filter (fun w => match s.servingFrame w.2 with | some i => s.frameTier i = tier | none => false)).filterMap
      (fun w => if (polTiers q.2.tierPol).contains (tier + 1) && !q.2.moves.any (fun m => m.page = w.1)
        then some (q.1, w.1, s.cEffOf q.2 w.1 tier) else none))

/-- The coldest of a list of pages. -/
def coldest : List (Nat × Nat × Nat) → Option (Nat × Nat × Nat)
  | [] => none
  | x :: r => match coldest r with
    | none => some x
    | some y => if x.2.2 ≤ y.2.2 then some x else some y

/-- `IMMUTABLE` frames of a saggar in a tier that steps T2.1 and T3.1 free: in T2 outside the Sitter's window with a
lower copy, in T3 with a T4 frame or a replica holder. -/
def State.spareImmutable (s : State) (tier g : Nat) : List (Nat × Nat × Nat) :=
  (s.tie.regions.filter (fun q => q.2.saggar = g ∧ q.2.immutable = true)).flatMap (fun q =>
    q.2.working.flatMap (fun w =>
      (w.2.filter (fun i => s.frameTier i = tier && !s.tie.windowFrames.contains i
        && (w.2.any (fun j => decide (tier < s.frameTier j)) || (tier = 3 && !q.2.holders.isEmpty)))).map (fun i => (q.1, w.1, i))))

/-- Take a frame of an `IMMUTABLE` page out of its lists and free it; a page without any frame is refetched when it
is asked for. -/
def dropCopy (x : Nat × Nat × Nat) (s : State) : State :=
  let strip := fun (l : Assoc Nat (List Nat)) => (l.map (fun w => if w.1 = x.2.1 then (w.1, w.2.erase x.2.2) else w)).filter (fun w => !w.2.isEmpty)
  freeUnheld [x.2.2] (modRegion x.1 (fun r => { r with
    lostPages := if aget r.working x.2.1 [] = [x.2.2] then (r.lostPages ++ [x.2.1]).eraseDups else r.lostPages
    working := strip r.working
    versions := r.versions.map (fun v => (v.1, { v.2 with pages := strip v.2.pages })) }) s)

/-- Set or clear the shortage flag of a tier (`TIE_SHORT`). -/
def noteShort (g tier : Nat) (s : State) : State :=
  let l := (aget s.tie.short g []).filter (· ≠ tier)
  { s with tie := { s.tie with short := aset s.tie.short g (if s.isShort tier g then tier :: l else l) } }

/-- A step of the fallback order is taken. -/
def noteFallback (g : Nat) (s : State) : State := bumpSat (satTieFallbacks g) s

/-- Step 1 of a short T2 or T3: frames of `IMMUTABLE` pages are freed until the tier is no longer short. -/
def freeSpare (tier g : Nat) (s : State) : State :=
  forEach (s.spareImmutable tier g) (fun x s => if s.isShort tier g then dropCopy x (noteFallback g s) else s) s

/-- Step 2: the coldest page is demoted; on a chip without flash T3 has no such step. -/
def demoteColdest (tier g : Nat) (s : State) : State :=
  if tier = 3 ∧ s.fitted capFLM = false then s else
  match coldest (s.demotable tier g) with
  | none => s
  | some d =>
    let t := enqueueMove { cls := 4, region := d.1, page := d.2.1, toTier := tier + 1, saggar := g } s
    if t.tie.queue.length = s.tie.queue.length then s else noteFallback g t

/-- Steps 1 and 2 of the fallback order, in order, while the tier is short. -/
def relieve (tier g : Nat) (s : State) : State :=
  if tier ≠ 2 ∧ tier ≠ 3 ∨ s.isShort tier g = false then noteShort g tier s else
  let s := freeSpare tier g s
  noteShort g tier (if s.isShort tier g then demoteColdest tier g s else s)

/-- The frame of a first write: in the policy's first-write tier; steps T2.3 and T3.3 while it is short. None where
the write is answered `NACK_RETRY`. -/
def firstFrame (r : Region) (page : Nat) (s : State) : Option Nat × State :=
  let g := r.saggar
  let put := fun (tier : Nat) (s : State) => match allocFrame tier g r page s with
    | some (id, s) => (some id, modRegion r.id (fun r => { r with working := aset r.working page [id] }) s)
    | none => (none, s)
  let three := fun (s : State) =>
    let s := relieve 3 g s
    if s.isShort 3 g then (none, noteFallback g s) else put 3 s
  if polFirst r.tierPol = 3 then three s else
  let s := relieve 2 g s
  if !(polTiers r.tierPol).contains 3 then put 2 s
  else if s.isShort 2 g then three (noteFallback g s)
  else match put 2 s with
    | (none, s) => three (noteFallback g s)
    | x => x

/-! ## Reading a region -/

/-- What a read of a range finds. -/
inductive ReadResult where
  | data (bs : List Byte)
  | poison
  | waits
  | retry (hint : Nat)
  deriving DecidableEq, Repr

/-- The pieces of a range at grain boundaries: (grain index in the region, offset in grain, bytes). -/
def pieces (a len : Nat) : List (Nat × Nat × Nat) :=
  (List.range (len / 256 + 2)).filterMap (fun i =>
    let g := a / 256 + i
    let lo := max a (g * 256)
    let hi := min (a + len) ((g + 1) * 256)
    if lo < hi then some (g, lo - g * 256, hi - lo) else none)

/-- A frame of an `IMMUTABLE` page whose grain is good (R203). -/
def State.goodCopy (s : State) (r : Region) (ids : List Nat) (g : Nat) : Option Nat := ids.find? (fun i => s.grainGood r i g)

/-- A grain and its side word as a copy takes it: of the frame itself, for `IMMUTABLE` data else of another copy; the
poison of any other kind is carried (R217). -/
def State.takeGrain (s : State) (r : Region) (ids : List Nat) (src g : Nat) : List Byte × Side :=
  let i := if s.grainGood r src g || !r.immutable then src else (s.goodCopy r ids g).getD src
  (s.grain i g, { s.sideAt i g with poison := !s.grainGood r i g })

/-- Store a grain with a side word; the address check is the frame's. -/
def putGrain (dst g : Nat) (data : List Byte) (w : Side) (s : State) : State :=
  setSide dst g (fun d => { w with addr := d.addr, agree := true, ver := w.ver })
    { s with tie := { s.tie with mem := memWrite s.tie.mem (dst * pageBytes + g * 256) data } }

/-- Whether a page's grains are all poisoned for want of a frame. -/
def Region.lostAt (r : Region) (ver : Option Nat) (page : Nat) : Bool :=
  match ver with
  | none => r.lostPages.contains page
  | some v => (aget r.versions v {}).lost.contains page

/-- The plain bytes of a piece of a grain. -/
def State.plain (s : State) (r : Region) (id : Nat) (pc : Nat × Nat × Nat) : List Byte :=
  sub (s.fromStored r pc.1 (s.sideAt id (pc.1 % 256)).enc (s.grain id (pc.1 % 256))) pc.2.1 pc.2.2

/-- One piece read. A grain that fails or is poisoned: of `IMMUTABLE` data it is served from another copy and the
frame mended, or, where this node has none, the page is refetched; of any other kind it is poisoned (R203). -/
def readPiece (r : Region) (ver : Option Nat) (pc : Nat × Nat × Nat) (s : State) : ReadResult × State :=
  let page := pc.1 / 256
  let g := pc.1 % 256
  let ids := pageFrames r ver page
  let away := fun (s : State) => if r.immutable && !r.holders.isEmpty then (ReadResult.waits, refetch r page s) else (.poison, s)
  if r.lostAt ver page then away s else
  match s.servingFrame ids with
  | none => (.data (zeros pc.2.2), s)
  | some id =>
    if s.grainGood r id g then (.data (s.plain r id pc), s)
    else if r.immutable then
      match s.goodCopy r ids g with
      | some c => (.data (s.plain r c pc), if s.frameTier id = 4 then s else putGrain id g (s.grain c g) (s.sideAt c g) s)
      | none => away s
    else (.poison, poisonGrain id g s)

/-- Pieces read in order: data where every piece is, a wait where one waits, else poison. -/
def readPieces (r : Region) (ver : Option Nat) : List (Nat × Nat × Nat) → State → ReadResult × State
  | [], s => (.data [], s)
  | pc :: rest, s =>
    match readPiece r ver pc s with
    | (x, s) =>
      match readPieces r ver rest s with
      | (y, s) => (match x, y with
        | .data b, .data bs => .data (b ++ bs)
        | .data _, y => y
        | .poison, .waits => .waits
        | x, _ => x, s)

/-- Pages a range touches. -/
def pagesOf (a len : Nat) : List Nat := (List.range (len / pageBytes + 2)).filterMap (fun i =>
  if a / pageBytes + i ≤ (a + len - 1) / pageBytes then some (a / pageBytes + i) else none)

/-- Whether a page lies only in flash. -/
def State.inFlash (s : State) (ids : List Nat) : Bool :=
  match s.servingFrame ids with | some id => s.frameTier id = 4 | none => false

/-- Whether a page lies on a stack that skips command issue (R193). -/
def State.onHot (s : State) (ids : List Nat) : Bool :=
  match s.servingFrame ids with
  | some id => match afind s.tie.frames id with | some fr => fr.tier = 2 && s.hbmSkips (fr.unit / 64) | none => false
  | none => false

/-- What holds back a request to pages: a page in flash is first promoted (R210 rule 4), or the request refused
while T3 is short (step T3.3); a stack that skips commands is waited for. -/
def heldBack (r : Region) (ver : Option Nat) (ps : List Nat) (s : State) : Option ReadResult × State :=
  let cold := ps.filter (fun p => s.inFlash (pageFrames r ver p))
  if !cold.isEmpty then
    let s := relieve 3 r.saggar s
    if s.isShort 3 r.saggar || cold.any (fun p => (s.pickUnit 3 r.saggar r p).isNone) then (some (.retry 14), noteFallback r.saggar s)
    else (some .waits, forEach cold (fun p s => promoteOnDemand r ver p s) s)
  else (if ps.any (fun p => s.onHot (pageFrames r ver p)) then some .waits else none, s)

/-- Count a request served from pages (R208), and the demand slots it takes. -/
def touchPages (r : Region) (ver : Option Nat) (ps : List Nat) (s : State) : State :=
  forEach ps (fun p s =>
    match s.servingFrame (pageFrames (s.region r.id) ver p) with
    | some id =>
      let s := if s.frameTier id = 3 then takeSlot 3 (aget s.tie.frames id {}).unit r.saggar s else s
      touch r.id p (s.frameTier id) s
    | none => s) s

/-- Read bytes `[a, a + len)` of a region's working pages or of a version, each grain checked, without counting. -/
def readRange (r : Region) (ver : Option Nat) (a len : Nat) (s : State) : ReadResult × State :=
  match heldBack r ver (pagesOf a len) s with
  | (some x, s) => (x, s)
  | (none, s) => readPieces r ver (pieces a len) s

/-- Whether a read is answered from its pages. -/
def ReadResult.served : ReadResult → Bool
  | .data _ => true
  | .poison => true
  | .waits => false
  | .retry _ => false

/-- A request that reads bytes: every page it is served from is counted once. -/
def readRegion (r : Region) (ver : Option Nat) (a len : Nat) (s : State) : ReadResult × State :=
  match readRange r ver a len s with
  | (x, s) => (x, if x.served then touchPages r ver (pagesOf a len) s else s)

/-! ## Writing a region -/

/-- The frame a write goes to: the page's own frame, a copy of a shared one in its tier (R212), or a new one
(R204). None when the write must be answered `NACK_RETRY`. -/
def frameForWrite (r : Region) (page : Nat) (s : State) : Option Nat × State :=
  match s.servingFrame (aget r.working page []) with
  | some id =>
    if shared r page id then
      match allocFrame (s.frameTier id) r.saggar r page s with
      | none => (none, s)
      | some (idN, s) =>
        match afind s.tie.frames id, afind s.tie.frames idN with
        | some fr, some frN =>
          let sd := fr.side.map (fun p => (p.1, { p.2 with addr := frN.index * 256 + p.1 }))
          (some idN, modRegion r.id (fun r => { r with working := aset r.working page [idN] })
            { s with tie := { s.tie with
                frames := aset s.tie.frames idN { frN with side := sd }
                mem := memWrite s.tie.mem (idN * pageBytes) (memRead s.tie.mem (id * pageBytes) pageBytes) } })
        | _, _ => (none, s)
    else (some id, s)
  | none => firstFrame r page s

/-- What a write does. -/
inductive WriteResult where
  | done
  | poison
  | retry (hint : Nat)
  | waits
  deriving DecidableEq, Repr

/-- Mark a written grain dirty in a move of its page (R205). -/
def markDirty (id page g : Nat) (s : State) : State :=
  modRegion id (fun r => { r with moves := r.moves.map (fun m =>
    if m.page = page ∧ g ∉ m.written then { m with written := m.written ++ [g] } else m) }) s

/-- Pages lost for want of a frame come back poisoned: every grain of the new frame is poisoned (R207). -/
def materialise (r : Region) (page : Nat) (s : State) : State :=
  if r.lostPages.contains page then
    match frameForWrite r page s with
    | (none, s) => s
    | (some id, s) =>
      let s := forEach (List.range 256) (fun g s => poisonGrain id g s) s
      modRegion r.id (fun r => { r with lostPages := r.lostPages.filter (· ≠ page) }) s
  else s

/-- Whether every part of a grain a write changes reads good; a failing grain is poisoned (R185, R203, R531). -/
def partsGood (r : Region) : List (Nat × Nat × Nat) → State → Bool × State
  | [], s => (true, s)
  | pc :: rest, s =>
    let page := pc.1 / 256
    let g := pc.1 % 256
    if pc.2.2 = 256 then partsGood r rest s
    else if r.lostPages.contains page then (false, s)
    else match s.servingFrame (aget r.working page []) with
      | none => partsGood r rest s
      | some id =>
        if s.grainGood r id g then partsGood r rest s
        else (false, poisonGrain id g s)

/-- A frame for every page of a write. -/
def framesForWrite (id : Nat) : List Nat → State → Bool × State
  | [], s => (true, s)
  | p :: rest, s =>
    let s := materialise (s.region id) p s
    if (s.region id).lostPages.contains p then (false, s) else
    match frameForWrite (s.region id) p s with
    | (none, s) => (false, s)
    | (some _, s) => framesForWrite id rest s

/-- One grain of a write: a whole grain replaces, a part is merged (R531). -/
def writePiece (id0 : Nat) (pc : Nat × Nat × Nat) (new : List Byte) (s : State) : State :=
  let r := s.region id0
  let page := pc.1 / 256
  let g := pc.1 % 256
  match s.servingFrame (aget r.working page []) with
  | none => s
  | some id =>
    let plain := if pc.2.2 = 256 then new else overlay (s.plain r id (pc.1, 0, 256)) pc.2.1 new
    markDirty id0 page g (storeGrain r id g (s.toStored r pc.1 plain) r.conf s)

/-- Whether any page of a range is held by the last pass of a move (R205). -/
def heldByMove (r : Region) (a len : Nat) : Bool :=
  (pagesOf a len).any (fun p => r.moves.any (fun m => m.page = p && m.held))

/-- The backoff hint of that hold: 2^14 while the page is handed back to its home (R543), else 2^10. -/
def holdHint (r : Region) (a len : Nat) : Nat :=
  if (pagesOf a len).any (fun p => r.moves.any (fun m => m.page = p && m.held && m.node.isSome)) then 14 else 10

/-- Write bytes into a region's working pages, all of them or none (R204, R212, R531). -/
def writeRange (r : Region) (a : Nat) (data : List Byte) (s : State) : WriteResult × State :=
  let ps := pagesOf a data.length
  match heldBack r none ps s with
  | (some (.retry h), s) => (.retry h, s)
  | (some _, s) => (.waits, s)
  | (none, s) =>
    if heldByMove r a data.length then (.retry (holdHint r a data.length), s) else
    match partsGood r (pieces a data.length) s with
    | (false, s) => (.poison, s)
    | (true, s) =>
      match framesForWrite r.id ps s with
      | (false, s) => (.retry 14, s)
      | (true, s) =>
        (.done, forEach (pieces a data.length) (fun pc s => writePiece r.id pc (sub data (pc.1 * 256 + pc.2.1 - a) pc.2.2) s) s)

/-- A request that writes bytes: one that is served counts for every page (R208). -/
def writeRegion (r : Region) (a : Nat) (data : List Byte) (s : State) : WriteResult × State :=
  match writeRange r a data s with
  | (.done, s) => (.done, touchPages r none (pagesOf a data.length) s)
  | (.poison, s) => (.poison, touchPages r none (pagesOf a data.length) s)
  | x => x

/-! ## Deleting and releasing -/

/-- Release a version that is neither current nor open (R215). -/
def releaseVersions (id : Nat) (s : State) : State :=
  let r := s.region id
  let gone := r.versions.filter (fun p => p.1 ≠ r.version ∧ p.2.opens.all (fun o => o.2 = 0))
  let kept := r.versions.filter (fun p => ¬ (p.1 ≠ r.version ∧ p.2.opens.all (fun o => o.2 = 0)))
  freeUnheld (gone.flatMap (fun p => p.2.pages.flatMap (·.2))) (modRegion id (fun r => { r with versions := kept }) s)

/-- Requests to regions that may lie in flash wait for its rebuild (R243). -/
def State.awaitsFlash (s : State) (r : Region) : Bool :=
  (polTiers r.tierPol).contains 4 && s.fitted capFLM && s.flm.st ≠ 3 && s.flm.st ≠ 4

/-- Delete a region: every frame freed, its directory entries and views gone (R204). -/
def deleteRegion (id : Nat) (s : State) : State :=
  let fr := (s.region id).held.eraseDups
  let s := { s with tie := { s.tie with regions := aerase s.tie.regions id },
                    coh := { s.coh with dir := s.coh.dir.filter (fun p => p.1.1 ≠ id) },
                    fab := { s.fab with hot := s.fab.hot.filter (fun h => h.region ≠ id) } }
  freeUnheld fr s

/-- Every frame on a memory unit is lost (R220). An `IMMUTABLE` page goes on with its other copies, one of which, or
one of another holder, is fetched into another channel; every other page becomes poisoned in all its grains, in
whatever list it stands. The other frame of a move that ends is freed. -/
def loseFrames (p : Frame → Bool) (s : State) : State :=
  let ids := (s.tie.frames.filter (fun q => p q.2)).map (·.1)
  let tier := (ids.map s.frameTier).headD 0
  let strip := fun (l : Assoc Nat (List Nat)) => (l.map (fun q => (q.1, q.2.filter (fun i => !ids.contains i)))).filter (fun q => !q.2.isEmpty)
  let gone := fun (l : Assoc Nat (List Nat)) => (l.filter (fun q => !q.2.isEmpty && q.2.all ids.contains)).map (·.1)
  let ends := fun (m : PageMove) => ids.contains m.src || (m.node.isNone && ids.contains m.dst)
  let fix := fun (r : Region) =>
    { r with working := strip r.working,
             versions := r.versions.map (fun v => (v.1, { v.2 with pages := strip v.2.pages, lost := (v.2.lost ++ gone v.2.pages).eraseDups })),
             moves := r.moves.filter (fun m => !ends m),
             lostPages := (r.lostPages ++ gone r.working).eraseDups }
  let freed := s.tie.regions.flatMap (fun q => (q.2.moves.filter (fun m => ends m && m.node.isNone)).map (·.dst))
  let again := s.tie.regions.filterMap (fun q => if q.2.immutable then
    some (q.1, (q.2.working.filter (fun w => w.2.any ids.contains)).map (·.1)) else none)
  let s := freeUnheld freed (forEach ids (fun i s => freeFrame i s)
    { s with tie := { s.tie with regions := s.tie.regions.map (fun q => (q.1, fix q.2)) } })
  forEach again (fun x s => forEach x.2 (fun pg s =>
    let r := s.region x.1
    if r.lostPages.contains pg then refetch r pg s
    else enqueueMove { cls := 2, region := x.1, page := pg, toTier := tier, saggar := r.saggar } s) s) s

/-- Whether a request is still in hand here. -/
def State.inHand (s : State) (p : Packet) : Bool :=
  s.fab.inbox.contains p || s.att.reqs.any (fun q => q.p = p) || s.gth.reqs.any (fun q => q.call = p)
    || s.gth.fwds.any (fun q => q.orig = p) || s.siv.reqs.any (fun q => q.call = p)

/-- Deleted regions are freed when the requests accepted before have completed (R204). -/
def finishDeletes (s : State) : State :=
  forEach (s.tie.regions.filter (fun q => match q.2.deleting with | some l => !l.any s.inHand | none => false)) (fun q s => deleteRegion q.1 s) s

end Sys2Proof.Machine
end

