-- ==== Sys2Proof/Machine/Settle.lean ====
section
/-! DEFINITION. What every command's effect is followed by (power-on steps recorded, the quiet time of a
drain, admission, deleted regions, the Jaesque transmitter), and the answer of a meaning. -/

namespace Sys2Proof.Machine

/-! ## Power-on steps (R585) and the answer of a meaning -/

/-- Whether the work of a power-on step from 4 to 8 is complete: every port of the image is `UP` or off;
the image is in force; every fitted array and stack has reported, but those of a fenced die and stacks without
their rails; every DRAM channel has; the flash is rebuilt. -/
def State.stepWorkDone (s : State) (i : Nat) : Bool :=
  match i with
  | 4 => decide (2 ≤ s.img.st) && (List.range 64).all (fun p =>
      portRole (portRec (s.nodeBody tyPORTS) p) = 0 || decide (4 ≤ (aget s.prt p {}).lst))
  | 5 => decide (2 ≤ s.img.st)
  | 6 => (List.range s.variant.arrays).all (fun a => (aget s.arrs.arr a {}).fence.cause ≠ 2 || s.erc.adFenced.getD (a / 384) false)
      && (List.range s.variant.stacks).all (fun k =>
          (aget s.tie.hbm k {}).fence.cause ≠ 2 || s.erc.adFenced.getD (k / 2) false || s.pkg.skipHbm)
  | 7 => (List.range 16).all (fun c => (aget s.tie.ddr c {}).fence.cause ≠ 2)
  | 8 => s.pkg.stepsDone.contains 7 && (!s.fitted capFLM || decide (s.flm.st = 3 ∨ s.flm.st = 4))
  | _ => false

/-- Record a power-on step as complete: its bit, and its time in units of 2^16 MCLK cycles. -/
def recordStep (i : Nat) (s : State) : State :=
  { s with pkg := { s.pkg with
      stepsDone := s.pkg.stepsDone ++ [i]
      stepT := aset s.pkg.stepT i ((s.now - s.pkg.aonAt) / mclk (2 ^ 16)) } }

/-- The power-on steps whose work is complete are recorded (`MGT_PWR.STEPS_DONE`). -/
def recordSteps (s : State) : State :=
  if s.pkg.st = 4 then
    [4, 5, 6, 7, 8].foldl (fun s i => if !s.pkg.stepsDone.contains i && s.stepWorkDone i then recordStep i s else s) s
  else s

/-- Every packet in the buffer. -/
def State.held (s : State) : List BufPkt :=
  s.swc.queues.flatMap (fun q => q.2.pkts) ++ s.swc.reserve ++ s.swc.leaving.map (·.2)

/-- A packet of the previous epoch that is still open here. -/
def State.isPrev (s : State) (p : Packet) : Bool := s.img.prevEpoch = some p.epoch

/-- Packets of the previous epoch held per ingress port (R478). -/
def State.prevHeld (s : State) (ingress : Nat) : Nat :=
  countIf s.held (fun b => b.ingress = ingress && s.isPrev b.pkt)

/-- The quiet time of the drain runs while no packet of the previous epoch is held (R478). -/
def drainWatch (s : State) : State :=
  if s.img.prevEpoch.isNone then s
  else if s.held.any (fun b => s.isPrev b.pkt) then { s with img := { s.img with quietDeadline := none } }
  else if s.img.quietDeadline.isSome then s
  else { s with img := { s.img with quietDeadline := some (s.now + sclk (2 ^ s.sysParam 0x0003)) } }

/-- Admission (R542): `SELFTEST` ends with the tests of steps 6 and 7; once an image is in force, the chip
sends `JOIN` to the coordinator, or is in service where it is the coordinator itself; its control cores do so
when they do not restart (R22). -/
def admissionWork (s : State) : State :=
  let s := if s.erc.admission = 1 ∧ s.pkg.stepsDone.contains 6 = true ∧ s.pkg.stepsDone.contains 7 = true then
      { s with erc := { s.erc with admission := 2 } } else s
  if s.erc.admission = 2 ∧ 2 ≤ s.img.st ∧ s.arch.cp ≠ .restart then
    if s.img.coord = s.fab.node then { s with erc := { s.erc with admission := 5 } }
    else emit (.ctrl s.img.coord .join) { s with erc := { s.erc with admission := 3 } }
  else s

/-- After each command, what follows from the state it leaves: power-on steps completed, the quiet time of a
drain, the chip's own admission, the end of deleted regions, and what the Jaesque transmitter sends. -/
def settle (s : State) : State := jqWork (admissionWork (drainWatch (recordSteps (finishDeletes s))))

/-- What every meaning answers: its effect where the command's operands are well formed (the condition
`Instr.wf` states for it), else the one fault. -/
def run (ok : Bool) (t : State) : Host.Outcome State Fault Refusal :=
  if ok then .next (settle t) else .fault .illFormedCommand

end Sys2Proof.Machine
end

