-- ==== Sys2Proof/Machine/Grants.lean ====
section
/-! DEFINITION. Who reaches the CSR space, and the answer that decides an access before the register does
(R29 to R31, R100). -/

namespace Sys2Proof.Machine

/-- The unit bit of `CAP_UNITS` whose block an address lies in (R4, R30). -/
def blockCap (a : Nat) : Option Nat :=
  if 0x0500000 ≤ a ∧ a < 0x0580000 then some capPUG
  else if 0x0580000 ≤ a ∧ a < 0x05C0000 then some capGTH
  else if 0x05C0000 ≤ a ∧ a < 0x0600000 then some capSIV
  else if 0x0600000 ≤ a ∧ a < 0x0700000 then some capCDC
  else if 0x0800000 ≤ a ∧ a < 0x0C00000 then some capARR
  else if 0x0C00000 ≤ a ∧ a < 0x1000000 then some capTRM
  else if 0x1100000 ≤ a ∧ a < 0x1200000 then some capDDR
  else if 0x1200000 ≤ a ∧ a < 0x1300000 then some capHBM
  else if 0x1400000 ≤ a ∧ a < 0x1800000 then some capFLM
  else none

/-- Whether the variant fits die d: 0 SD, 1 to 4 PD0 to PD3, 5 to 8 AD0 to AD3, 9 MD0, 10 MD1 (R3). -/
def State.dieFitted (s : State) (d : Nat) : Bool :=
  if d < 5 then true else if d < 9 then decide (d - 5 < s.variant.arrayDies) else if d = 9 then true
  else d = 10 && s.fitted capFLM

/-- Whether the rail of an index is present (R567). -/
def State.railPresent (s : State) (r : Nat) : Bool :=
  if r < 4 then decide (r < s.variant.arrayDies) else if r < 9 then true
  else if r = 9 then s.fitted capFLM else decide (r ≤ 12) && s.fitted capHBM

/-- A page of a rail or die that is not fitted: `PMC_RAIL` and `PMC_POUT`, `PMC_THERM`, `ERC_SLACK`. -/
def State.pageAbsent (s : State) (a : Nat) : Bool :=
  (decide (0x0060000 ≤ a ∧ a < 0x00600D0) && !s.railPresent ((a - 0x0060000) / 16))
    || (decide (0x0060200 ≤ a ∧ a < 0x006022C) && !s.dieFitted ((a - 0x0060200) / 4))
    || (decide (0x0070080 ≤ a ∧ a < 0x00700AC) && !s.dieFitted ((a - 0x0070080) / 4))

/-- An address of an absent unit, of an instance that is not fitted, or beyond the last page of the PRT
or SAG block (R30). Beyond the four ARR blocks nothing is defined, and the block itself decides. -/
def State.csrAbsent (s : State) (a : Nat) : Bool :=
  (match blockCap a with | some u => !s.fitted u | none => false)
    || (decide (0x0800000 ≤ a ∧ a < 0x0900000) && decide (s.variant.arrayDies ≤ (a - 0x0800000) / 0x40000))
    || (decide (0x0C00000 ≤ a ∧ a < 0x0C80000) && decide (s.variant.trimmers ≤ (a - 0x0C00000) / 0x1000))
    || (decide (0x1200000 ≤ a ∧ a < 0x1200800) && decide (s.variant.stacks ≤ (a - 0x1200000) / 0x100))
    || s.pageAbsent a || decide (0x0240000 ≤ a ∧ a < 0x0300000) || decide (0x1840000 ≤ a ∧ a < 0x1F00000)

/-- The saggars a tenant session reaches. -/
def State.tenantMask (s : State) (sid : Nat) : Nat := (aget s.jsl.sessions sid {}).mask

/-- The saggar whose Witness mirror entry an address lies in (R510): mirror pages of 256 bytes. -/
def witSag (a : Nat) : Option Nat :=
  if 0x1F01000 ≤ a ∧ a < 0x1F05000 then some ((a - 0x1F01000) / 0x100) else none

/-- The saggar the image in force assigns a Trimmer to. -/
def State.trmOwner (s : State) (t : Nat) : Option Nat := (List.range 64).find? (fun g => recTrimmer (s.sagRec g) t)

/-- Whether a requester's grant covers an access (R31); firmware reaches what its Trimmer's owner saggar
gives it (R100); a claim session reads ID/CAP and SEC (R503). -/
def State.granted (s : State) (who : Who) (a : Nat) (write : Bool) : Bool :=
  let wit := decide (0x1F00000 ≤ a ∧ a < 0x2000000)
  let secNvs := decide (0x0030000 ≤ a ∧ a < 0x0050000)
  let idcap := decide (a < 0x0010000)
  match who with
  | .management => !(write && wit)
  | .control => !(write && (wit || secNvs))
  | .operator sid =>
    if (aget s.jsl.sessions sid {}).claim then !write && (idcap || decide (0x0040000 ≤ a ∧ a < 0x0050000)) else !(write && wit)
  | .tenant sid =>
    (idcap && !write)
      || (decide (0x1800000 ≤ a ∧ a < 0x1840000) && bit (s.tenantMask sid) ((a - 0x1800000) / 0x1000))
      || (!write && (match witSag a with | some g => bit (s.tenantMask sid) g | none => false))
  | .trimmerUser _ _ => idcap && !write
  | .trimmerFw _ t => decide (trmPage t ≤ a ∧ a < trmPage t + 0x1000)
    || (!write && (idcap || (match s.trmOwner t with
        | some g => decide (sagPage g ≤ a ∧ a < sagPage g + 0x1000)
          || (List.range 1536).any (fun n => recArray (s.sagRec g) n && decide (arrPage n ≤ a ∧ a < arrPage n + 0x200))
        | none => false)))
  | .bmc => !write && (decide (0x0010000 ≤ a ∧ a < 0x0030000) || decide (0x0060000 ≤ a ∧ a < 0x0070000))

/-- Registers that hold a DC field: `SEC_POLICY` (R31). -/
def dcRegister (a : Nat) : Bool := a = 0x0040010

/-- Steps 1 to 4 of R30; none where the access goes on to the register. -/
def State.csrGate (s : State) (who : Who) (a : Nat) (write : Bool) : Option Status :=
  if a % 4 ≠ 0 then some .denied
  else if s.csrAbsent a then some .unitAbsent
  else if !s.granted who a write then some .denied
  else if write && dcRegister a then some .denied
  else none

/-- An access of machine firmware that is refused faults, which restarts the firmware (R100, R124). -/
def firmwareFault (who : Who) (st : Status) (s : State) : State :=
  match who with
  | .trimmerFw _ t => if st = .ok then s else { s with trm := amod s.trm t {} (fun x => { x with fwDown := true }) }
  | _ => s

/-- The answer of a CSR access. -/
def answerCsr (who : Who) (a : Nat) (st : Status) (w : Word32) (s : State) : State :=
  firmwareFault who st (emit (.csr who a st w) s)

/-- A write of one control bit of a register: the gate of R30, then the bit's own permission, then its
effect. -/
def ctlWrite (who : Who) (a : Nat) (allowed : Bool) (f : State → State) (s : State) : State :=
  match s.csrGate who a true with
  | some st => answerCsr who a st 0 s
  | none => if allowed then f (answerCsr who a .ok 0 s) else answerCsr who a .denied 0 s

/-- A write whose effect is answered with a status of its own. -/
def ctlWriteSt (who : Who) (a : Nat) (f : State → Status × State) (s : State) : State :=
  match s.csrGate who a true with
  | some st => answerCsr who a st 0 s
  | none => match f s with | (st, s) => answerCsr who a st 0 s

/-- The cause a `FENCE` bit records by its writer (R597): management 0x5; control cores or an operator
session 0x4. -/
def fenceCauseOf : Who → Nat
  | .management => 5
  | _ => 4

/-- Only the control plane or the management controller lifts a fence (R20, R597). -/
def liftsFence : Who → Bool
  | .management => true
  | .control => true
  | _ => false

end Sys2Proof.Machine
end

