-- ==== Sys2Proof/Machine/FrameSlot.lean ====
section
/-! DEFINITION. Frames as partial results (R41, R45, R46) and the 32-byte frame slot of R110. -/

namespace Sys2Proof.Machine

/-- A partial frame (R41, R45, R46): width W, exponent F, the integer S, the side-field (0 finite,
1 +∞, 2 −∞, 3 NaN) and the overflow flag. -/
structure Frm where
  w : Nat := 64
  f : Int := 0
  s : Int := 0
  side : Nat := 0
  ovf : Bool := false
  deriving DecidableEq, Repr

/-- An integer taken modulo 2^w into the signed range. -/
def wrap (w : Nat) (i : Int) : Int := signedW w (unsignedW w i)

/-- The join of two side-fields for SUM (R45). -/
def sideJoin (a b : Nat) : Nat :=
  if a = 0 then b else if b = 0 then a else if a = b then a else 3

/-- Combining two partials of one operation (R46). -/
def Frm.combine (a b : Frm) : Frm :=
  { a with s := wrap a.w (a.s + b.s), side := sideJoin a.side b.side, ovf := a.ovf || b.ovf }

/-- The widths `W_SEL` selects. -/
def widthOf (sel : Nat) : Nat :=
  match sel with | 0 => 64 | 1 => 96 | 2 => 128 | _ => 192
def selOf (w : Nat) : Nat := if w = 64 then 0 else if w = 96 then 1 else if w = 128 then 2 else 3

/-- The frame in a slot; none where the slot is invalid (R110). -/
def slotFrame (b : List Byte) : Option Frm :=
  let h := le b 24 8
  let w := widthOf (bits h 4 2)
  let s := signedW 192 (le b 0 24)
  let f := bits h 16 16
  if bit h 3 || bits h 6 10 ≠ 0 || bits h 32 32 ≠ 0 || f = 0x8000 || s ≠ wrap w s || b.length ≠ 32 then none
  else some { w := w, f := signedW 16 f, s := s, side := bits h 0 2, ovf := bit h 2 }

/-- The 32 bytes of a frame's slot. -/
def Frm.slot (x : Frm) : List Byte :=
  natLe (unsignedW 192 x.s) 24 ++ natLe (x.side + 4 * b2n x.ovf + 16 * selOf x.w + 2 ^ 16 * unsignedW 16 x.f) 8

/-- The combination of two slots; none where either is invalid or `W_SEL` or `F` differ (R341, R111). -/
def combineSlots (a b : List Byte) : Option Frm :=
  match slotFrame a, slotFrame b with
  | some x, some y => if x.w = y.w ∧ x.f = y.f then some (x.combine y) else none
  | _, _ => none

end Sys2Proof.Machine
end

