-- ==== Sys2Proof/Machine/GatherTable.lean ====
section
/-! DEFINITION. Gather tables: definitions and generations (R300, R301, R311), the row directory and where
a request to a row's address goes (R307, R308). -/

namespace Sys2Proof.Machine

/-! ## Definitions (R300) -/

/-- Length of the definition at the head of a body: 64-byte head, 16 hot entries of 8 bytes, `SHARDS`
region IDs of 4 bytes, padded to 8. DESIGN CHOICE: the spec sizes the head and does not place its fields;
they stand here in the order of R300: `GTABLE` byte 0, `FMT` byte 1, `MAXEXP_ROW` 2, `GEN` 4, `ELEMS` 8,
`ROW_BYTES` 12, `ROWS` 16 (8 bytes), `SHARDS` 24. -/
def gdefLen (b : List Byte) : Nat := ceilDiv (192 + 4 * le b 24 4) 8 * 8

/-- Cut a `GATHER` body into definitions. -/
def gdefs (b : List Byte) : Nat → List (List Byte)
  | 0 => []
  | fuel + 1 => if b.length < 192 then [] else b.take (gdefLen b) :: gdefs (b.drop (gdefLen b)) fuel

def gTable (d : List Byte) : Nat := le d 0 1
def gFmt (d : List Byte) : Nat := le d 1 1
def gMaxexp (d : List Byte) : Int := signedW 16 (le d 2 2)
def gGen (d : List Byte) : Nat := le d 4 4
def gElems (d : List Byte) : Nat := le d 8 2
def gRowBytes (d : List Byte) : Nat := le d 12 4
def gRows (d : List Byte) : Nat := le d 16 8
def gShards (d : List Byte) : Nat := le d 24 4
/-- Hot region i: region ID and slot count; none where it has no slots. -/
def gHot (d : List Byte) (i : Nat) : Option (Nat × Nat) :=
  let n := le d (68 + 8 * i) 4
  if i < 16 ∧ n ≠ 0 then some (le d (64 + 8 * i) 4, n) else none
def gShard (d : List Byte) (i : Nat) : Nat := le d (192 + 4 * i) 4

/-- The definition of a table in a `GATHER` body. -/
def gdefIn (b : List Byte) (t : Nat) : Option (List Byte) := (gdefs b 64).find? (fun d => gTable d = t)

/-- The definition in force. -/
def State.gdef (s : State) (g t : Nat) : Option (List Byte) := gdefIn (s.sagBody tyGATHER g) t

/-- The definition of a generation the chip still holds: the one in force, the previous epoch's while it is
open, or one a request here is bound to (R311). -/
def State.gdefGen (s : State) (g t gen : Nat) : Option (List Byte) :=
  let prev := if s.img.prevEpoch.isSome then gdefIn (s.img.prev.bodyOf tyGATHER s.fab.node g (s.sagComp g)) t else none
  let cands := (s.gdef g t).toList ++ prev.toList ++ ((s.gth.reqs.filter (fun r => r.call.saggar = g)).map (·.def_))
  cands.find? (fun d => gTable d = t && gGen d = gen)

/-- Nodes of this chip and of shards: whether a region is homed here. -/
def State.homedHere (s : State) (g id : Nat) : Bool :=
  match s.regionKnown g id with | some r => s.homes.contains r.home | none => false

/-- Shards of a table this chip homes. -/
def State.ownShards (s : State) (g : Nat) (d : List Byte) : List Nat :=
  (List.range (gShards d)).filter (fun i => s.homedHere g (gShard d i))

/-- Offset of a row in its shard (R301). -/
def rowOffset (d : List Byte) (row : Nat) : Nat := row / gShards d * gRowBytes d

/-- The default owner of a row. -/
def State.rowOwner (s : State) (g : Nat) (d : List Byte) (row : Nat) : Option Nat :=
  (s.regionKnown g (gShard d (row % gShards d))).map (·.home)

/-! ## The directory (R308) -/

def State.gEntry (s : State) (g : Nat) (d : List Byte) (row : Nat) : GthEntry :=
  aget s.gth.dir (g, gTable d, gGen d, row) {}

/-- Where a row is: its region and the offset in it. -/
def State.rowPlace (s : State) (g : Nat) (d : List Byte) (row : Nat) : Option (Region × Nat) :=
  match (s.gEntry g d row).moved with
  | some (_, i, slot) => match gHot d i with
    | some (id, _) => (s.regionKnown g id).map (fun r => (r, slot * gRowBytes d))
    | none => none
  | none => (s.regionKnown g (gShard d (row % gShards d))).map (fun r => (r, rowOffset d row))

/-- Entries of generations the chip holds. -/
def State.gDirSize (s : State) : Nat :=
  countIf s.gth.dir (fun e => (s.gdefGen e.1.1 e.1.2.1 e.1.2.2.1).isSome)

/-! ## Requests to row addresses (R301, R307, R308) -/

/-- The generations of a saggar's tables that can have moved rows here. -/
def State.heldDefs (s : State) (g : Nat) : List (List Byte) :=
  gdefs (s.sagBody tyGATHER g) 64 ++
    (if s.img.prevEpoch.isSome then gdefs (s.img.prev.bodyOf tyGATHER s.fab.node g (s.sagComp g)) 64 else [])

/-- Whether a region is a hot region of a table of its saggar. -/
def State.hotRegion (s : State) (g id : Nat) : Option (List Byte) :=
  (s.heldDefs g).find? (fun d => (List.range 16).any (fun i => match gHot d i with | some h => h.1 = id | none => false))

/-- The rows of a shard region that a range touches: the definition and (row, bytes [lo, hi) of the
region). -/
def State.rowsAt (s : State) (r : Region) (a len : Nat) : List (List Byte × Nat × Nat × Nat) :=
  match (s.heldDefs r.saggar).findSome? (fun d =>
      ((List.range (gShards d)).find? (fun i => gShard d i = r.id)).map (fun i => (d, i))) with
  | none => []
  | some (d, shard) =>
    let rb := max 1 (gRowBytes d)
    (List.range (len / rb + 2)).filterMap (fun k =>
      let n := a / rb + k
      let lo := max a (n * rb)
      let hi := min (a + len) ((n + 1) * rb)
      if lo < hi then some (d, n * gShards d + shard, lo, hi) else none)

/-- Whether a packet was sent by a Gather engine of this chip. -/
def State.fromGather (s : State) (p : Packet) : Bool :=
  s.homes.contains p.src && s.fab.outst.any (fun q => q.pkt.tag = p.tag && q.pkt.dst = p.dst &&
    (match q.req with | .gather _ => true | _ => false))

/-- What the row directory makes of a memory request: nothing, a refusal, or a forward of its pieces
(from, to, target node, target offset). -/
inductive RowRoute where
  | here
  | deny
  | frozen
  | forward (parts : List (Nat × Nat × Nat × Nat))
  deriving DecidableEq, Repr

/-- Route a memory request at its home by R301 and R308. Only nodes that home a shard, and this chip's own
Gather engines, reach a hot region. -/
def State.rowRoute (s : State) (p : Packet) (r : Region) (a len : Nat) (change : Bool) : RowRoute :=
  match s.hotRegion r.saggar r.id with
  | some d =>
    let shards := (List.range (gShards d)).filterMap (fun i => (s.regionKnown r.saggar (gShard d i)).map (·.home))
    if s.fromGather p || (shards.contains p.src && !s.homes.contains p.src) then .here else .deny
  | none =>
    if s.fromGather p then .here else
    let rows := s.rowsAt r a len
    if !rows.any (fun x => (s.gEntry r.saggar x.1 x.2.1) ≠ {}) then .here
    else if change && rows.any (fun x => (s.gEntry r.saggar x.1 x.2.1).frozen) then .frozen
    else if !rows.any (fun x => (s.gEntry r.saggar x.1 x.2.1).moved.isSome) then .here
    else .forward (rows.filterMap (fun x =>
      (s.rowPlace r.saggar x.1 x.2.1).map (fun pl =>
        (x.2.2.1 - a, x.2.2.2 - a, pl.1.home, pl.1.base + pl.2 + (x.2.2.1 - x.2.2.1 / gRowBytes x.1 * gRowBytes x.1)))))

end Sys2Proof.Machine
end

