-- ==== Sys2Proof/Machine/Requests.lean ====
section
/-! DEFINITION. Requests this chip sends (R331, R343, R354 to R358) and the memory requests it serves as
a home: acceptance (R340), the grain check (R344 to R346), coherence (R371 to R377), `READ`, `WRITE`,
the atomics (R341) and the result window (R352 to R355). -/

namespace Sys2Proof.Machine

/-- Whether an opcode is permitted in a class (R338). -/
def classOk (op cls : Nat) : Bool :=
  if op = opREAD then cls = 1 || cls = 5
  else if op = opWRITE then cls = 1 || cls = 3 || cls = 5
  else if (opADD ≤ op ∧ op ≤ opFRAMEADDF) ∨ op = opRPT then cls = 1
  else if op = opDISPATCH ∨ op = opATTEND then cls = 4
  else if op = opGATHER ∨ op = opSIEVE then cls = 1
  else if opCONTRIB ≤ op ∧ op ≤ opCENSUS then cls = 3
  else if (opINVAL ≤ op ∧ op ≤ opFORCE) ∨ (opOPEN ≤ op ∧ op ≤ opPUBLISH) then cls = 1
  else if op = opSTEP ∨ op = opCTRL then cls = 0
  else if op = opMGMT then cls = 7
  else if op = opSAMPLE ∨ op = 0x79 then cls = 6
  else op = opACK || op = opACKDATA

/-- Operand bytes of an atomic (R338). -/
def atomicBytes (op : Nat) : Nat := if op = opCAS then 16 else if op = opFRAMEADDF then 32 else 8

/-! ## Outgoing requests -/

/-- The limit of outstanding requests of a requester (R358). -/
def reqLimit : Requester → Nat
  | .trimmer _ => 256 | .mover _ => 2048 | .gather _ => 1024 | .codec _ => 512 | .pug _ => 1024
  | .control => 256 | .merge _ => 8192 | .edge _ => 1024

/-- Requests of a requester outstanding to a destination. -/
def State.outTo (s : State) (q : Requester) (dst : Nat) : Nat :=
  countIf s.fab.outst (fun r => r.req = q && r.pkt.dst = dst)

/-- Whether a requester may send one more request to a destination: its limit (R358), the limit
lowered by congestion marks (R337), and the sequence-number rate (R354). -/
def State.maySend (s : State) (q : Requester) (dst g : Nat) : Bool :=
  decide (countIf s.fab.outst (fun r => r.req = q) < reqLimit q)
    && decide (s.outTo q dst < aget s.fab.limit (q, dst) (reqLimit q))
    && decide (countIf (aget s.fab.issued (dst, g) []) (fun t => decide (s.now < t + sclk (2 ^ 25))) < 2 ^ 23)

/-- Whether an unanswered `WRITE` or atomic of the requester to a grain holds back another access
(R342). -/
def State.grainHeld (s : State) (q : Requester) (dst off : Nat) : Bool :=
  s.fab.outst.any (fun r => r.req = q && r.pkt.dst = dst && (r.pkt.opcode = opWRITE || isAtomic r.pkt.opcode)
    && r.pkt.offset / 256 = off / 256)

/-- Send an outstanding request again (R343, R357). -/
def resend (r : Req) (s : State) : State :=
  let p := { r.pkt with epoch := s.img.epoch }
  send p { s with fab := { s.fab with outst := s.fab.outst.map (fun x => if x = r then
    { r with pkt := p, backoff := none, held := none, deadline := some (s.now + sclk (2 ^ s.toExp)) } else x) } }

/-- A request ends with a status code and data, for its unit to take; what had come of an answer's train goes. -/
def complete (r : Req) (code : Nat) (data : List Byte) (s : State) : State :=
  { s with fab := { s.fab with
      frags := s.fab.frags.filter (fun q => !(q.opcode = opACKDATA && q.tag = r.pkt.tag))
      outst := s.fab.outst.erase r, done := s.fab.done ++ [{ req := r, status := code, data := data }] } }

/-! ## Grain checks in flight (R344 to R347) -/

/-- The CRC-32C of each piece of a payload at a target offset. -/
def trailerOf (off : Nat) (data : List Byte) : List Word32 :=
  (pieces off data.length).map (fun pc => crc32c (sub data (pc.1 * 256 + pc.2.1 - off) pc.2.2))

/-! ## Acceptance (R340) -/

/-- Originals of a combined atomic: `n` from 1 to 16 in [3:0], 16 coded as 0 (R364). -/
def combinedCount (p : Packet) : Nat := let n := bits (le p.payload 0 8) 0 4; if n = 0 then 16 else n

/-- Row 1: class and lengths. -/
def formOk (p : Packet) : Bool :=
  classOk p.opcode p.cls &&
    (if p.opcode = opREAD then p.payload.isEmpty && (p.length % 8 = 0) && decide (8 ≤ p.length ∧ p.length ≤ 512)
     else if p.opcode = opWRITE then
       (p.payload.length = p.length) && (p.length % 8 = 0) && decide (p.length ≤ 512) && decide (8 ≤ p.length)
     else if p.cmb then p.payload.length = 16 + 16 * combinedCount p
     else (p.payload.length = atomicBytes p.opcode) && (p.length = atomicBytes p.opcode))

/-- Bytes of the target a request covers. -/
def spanOf (p : Packet) : Nat :=
  if p.opcode = opREAD ∨ p.opcode = opWRITE then p.length else if p.opcode = opFRAMEADDF then 32 else 8

/-- The refusal of R340 rows 1 to 7 for a memory request at its home, with the place it goes to. -/
inductive Accept where
  | refuse (st : Status) (hint : Nat)
  | ok (pl : Place)
  deriving DecidableEq, Repr

/-- A waiting request to the same grain at this chip (R340 row 7, R342). -/
def State.grainQueue (s : State) (p : Packet) : Nat :=
  countIf s.fab.inbox (fun q => q ≠ p && q.dst = p.dst && q.offset / 256 = p.offset / 256
    && (q.opcode = opREAD || q.opcode = opWRITE || isAtomic q.opcode))

/-- Row 6: the refusal of the region's coherence mode (R383); reads are served. -/
def coherenceRefusal (r : Region) (p : Packet) : Option (Status × Nat) :=
  if p.opcode = opREAD ∨ r.coh ≠ 2 then none
  else if r.inTransfer then some (.nackRetry, 10)
  else if p.src ≠ r.owner then some (.nackNotOwner, 0)
  else none

/-- The region of a place. -/
def placeRegion : Place → Region
  | .working r _ => r
  | .view r _ _ => r
  | .nowhere => {}

/-- Where a memory request leads: a fetch by the home of a copy this node holds leads to the copy (R206), any other to
the region at its address. -/
def State.placeFor (s : State) (p : Packet) : Place :=
  match (if p.opcode = opREAD ∧ p.cls = 5 ∧ p.dst = s.fab.node then s.tie.regions.find? (fun q => q.2.immutable && q.2.home = p.src && p.src ≠ s.fab.node
      && q.2.saggar = p.saggar && decide (q.2.base ≤ p.offset ∧ p.offset + p.length ≤ q.2.base + q.2.size)) else none) with
  | some (_, r) => .working r (p.offset - r.base)
  | none => s.placeOf p.dst p.offset (spanOf p) p.saggar

/-- R340 rows 1 to 7, in order; the first failing row decides. -/
def State.accept (s : State) (p : Packet) : Accept :=
  let write := p.opcode ≠ opREAD
  if !formOk p then .refuse .denied 0 else
  match s.placeFor p with
  | .nowhere =>
    -- regions kept in the flash wait for its rebuild (R243), regions of the image for T3 (R586)
    if (s.flm.saved ++ s.tie.due).any (fun r => r.home = p.dst && r.saggar = p.saggar && decide (r.base ≤ p.offset ∧ p.offset < r.base + r.size))
    then .refuse .nackRetry 20 else .refuse .denied 0
  | pl =>
    let r := placeRegion pl
    if (match r.deleting with | some l => !l.contains p | none => false) then .refuse .denied 0
    else if s.awaitsFlash r then .refuse .nackRetry 20
    else if s.compFenced r.comp || s.domainFenced r.domain || r.awaitsHome then .refuse .nackFenced 0
    else if s.epochCheck p = .stale then .refuse .nackStaleEpoch 0
    else if s.epochCheck p = .notReady then .refuse .nackRetry 10
    else if write && ((match pl with | .view _ _ _ => true | _ => false) || (r.immutable && r.sealed_)) then .refuse .denied 0
    else if isAtomic p.opcode && p.offset % (if p.opcode = opFRAMEADDF then 32 else 8) ≠ 0 then .refuse .denied 0
    else match coherenceRefusal r p with
      | some (st, h) => .refuse st h
      | none =>
        if 64 ≤ s.grainQueue p then .refuse .nackRetry 10
        else if write && (match pl with | .working r a => heldByMove r a (spanOf p) | _ => false) then
          .refuse .nackRetry (match pl with | .working r a => holdHint r a (spanOf p) | _ => 10)
        else .ok pl

/-! ## Coherent domains (R369 to R377) -/

/-- A domain's record in the configuration in force, over all compositions. -/
def State.domain? (s : State) (id : Nat) : Option DomainRec :=
  (s.img.cur.sections.filter (fun c => c.ty = tyDOMAINS)).findSome? (fun c =>
    (domainRecs (c.body.getD []) 256).find? (fun d => d.id = id))

/-- Whether a node is a caching agent of a domain. -/
def State.isAgent (s : State) (dom node : Nat) : Bool :=
  match s.domain? dom with | some d => d.agents.contains node | none => false

/-- The member number of a caching agent's edge Plofen in a domain. -/
def State.edgeMember (s : State) (dom node : Nat) : Nat :=
  match s.domain? dom, s.edgeOf node with
  | some d, some e => d.members.idxOf e
  | _, _ => 0

def State.dirEntry (s : State) (r g : Nat) : DirEntry := aget s.coh.dir (r, g) {}

/-- Whether an entry names anyone. -/
def DirEntry.empty (e : DirEntry) : Bool := e.sharers.isEmpty && e.chips = 0

/-- Register a sharer in a grain's entry (R372): the ninth converts to coarse form. -/
def addSharer (dom : Nat) (r g node : Nat) (s : State) : State :=
  let e := s.dirEntry r g
  let e' :=
    if e.coarse then
      let m := s.edgeMember dom node
      if bit e.chips m then e else { e with chips := e.chips + 2 ^ m }
    else if e.sharers.contains node then e
    else if e.sharers.length < 8 then { e with sharers := e.sharers ++ [node] }
    else
      let ms := ((e.sharers ++ [node]).map (s.edgeMember dom)).eraseDups
      { e with coarse := true, sharers := [], chips := ms.foldl (fun n m => n + 2 ^ m) 0 }
  { s with coh := { s.coh with dir := aset s.coh.dir (r, g) e' } }

/-- The nodes an invalidation of an entry goes to: exact sharers or the members with their bit set,
never the writer itself (R373, R374). -/
def State.invTargets (s : State) (dom : Nat) (e : DirEntry) (writer : Nat) : List Nat :=
  if e.coarse then
    match s.domain? dom with
    | some d => ((List.range 64).filter (fun m => bit e.chips m)).map (fun m => d.members.getD m 0)
    | none => []
  else e.sharers.filter (· ≠ writer)

/-- An `INVAL` packet (R375). -/
def mkInval (dst off count dom g : Nat) : Packet :=
  { dst := dst, opcode := opINVAL, saggar := g, offset := off, cls := 1, length := 8,
    payload := natLe (count + dom * 2 ^ 16) 8 }

/-- Send the invalidations of a grain and wait for their answers (R373): the request is applied when
the last one has come. A writer's own copy needs none; an eviction, which a read brings about, spares no sharer
(R377). -/
def startInvalidation (r : Region) (gi : Nat) (p : Packet) (s : State) : State :=
  let e := s.dirEntry r.id gi
  let targets := s.invTargets r.domain e (if p.opcode = opREAD then 65536 else p.src)
  let sent := issueAll .control (fun n => mkInval n (r.base + gi * 256) 1 r.domain r.saggar) targets (bumpCtr ctrCohInval targets.length s)
  let s := sent.2
  { s with coh := { s.coh with
    dir := aset s.coh.dir (r.id, gi) { e with busy := true }
    waits := s.coh.waits ++ [{ region := r.id, grain := gi, domain := r.domain, tags := sent.1, pkt := p }] } }

/-- Grains of a request's range that have sharers other than the requester, and grains that are busy. -/
def State.sharedGrains (s : State) (r : Region) (a len writer : Nat) : List Nat :=
  ((pieces a len).map (·.1)).filter (fun g => !(s.invTargets r.domain (s.dirEntry r.id g) writer).isEmpty)
def State.busyGrain (s : State) (r : Region) (a len : Nat) : Bool :=
  (pieces a len).any (fun pc => (s.dirEntry r.id pc.1).busy)

/-- The entries of the grains a write covers are freed (R373, R374). -/
def freeEntries (r : Region) (a len : Nat) (s : State) : State :=
  { s with coh := { s.coh with dir := s.coh.dir.filter (fun p =>
      ¬ (p.1.1 = r.id ∧ p.1.2 ∈ (pieces a len).map (·.1))) } }

/-! ## READ (R338, R340, R371) -/

/-- Put a request back to wait for its turn. -/
def wait (p : Packet) (s : State) : State :=
  if s.fab.inbox.contains p then s else { s with fab := { s.fab with inbox := s.fab.inbox ++ [p] } }

/-- Register the reader of every grain of a `READ_COHERENT` range; a grain without room in the
directory first evicts an entry of the saggar (R371, R377). -/
def registerReader (r : Region) (a : Nat) (p : Packet) (s : State) : State :=
  if r.coh = 1 ∧ p.cls = 1 ∧ s.isAgent r.domain p.src then
    forEach ((pieces a p.length).map (·.1)) (fun g s => addSharer r.domain r.id g p.src s) s
  else s

/-- New directory entries a read needs for its requester. -/
def State.newEntries (s : State) (r : Region) (a : Nat) (p : Packet) : Nat :=
  if r.coh = 1 ∧ p.cls = 1 ∧ s.isAgent r.domain p.src = true then countIf (pieces a p.length) (fun pc => !ahas s.coh.dir (r.id, pc.1))
  else 0

/-- Whether the directory has room for the sharers of a read. -/
def State.dirRoom (s : State) (r : Region) (a : Nat) (p : Packet) : Bool :=
  s.newEntries r a p = 0 || decide (s.coh.dir.length + s.newEntries r a p ≤ s.nodeParam 0x0206)

/-- An entry of the same saggar to evict for it, outside the read's own grains. -/
def State.evictable (s : State) (r : Region) (a : Nat) (p : Packet) : Option (Nat × Nat) :=
  (s.coh.dir.find? (fun e => (s.region e.1.1).saggar = r.saggar ∧ e.2.busy = false
    ∧ !(e.1.1 = r.id && (pieces a p.length).any (fun pc => pc.1 = e.1.2)))).map (·.1)

/-- A served read's answer carries the data and one check per piece (R344). -/
def answerRead (p : Packet) (data : List Byte) (s : State) : State :=
  send { mkAnswer p .ok 0 data s with trailer := trailerOf p.offset data } s

/-! ## The result window (R352 to R355) -/

def State.winFind (s : State) (src g seq : Nat) : Option WinEntry :=
  s.fab.win.find? (fun w => w.src = src ∧ w.saggar = g ∧ w.seq = seq)

/-- Entries the window keeps. -/
def winSize : Nat := 262144

/-- Enter an outcome; a full window evicts its oldest entry, counted when it leaves before its
retention (R355). -/
def enterWin (w : WinEntry) (s : State) : State :=
  let full := decide (winSize ≤ s.fab.win.length)
  let early := match s.fab.win with
    | o :: _ => full && decide (s.now < o.at_ + sclk (2 ^ s.winRetExp))
    | [] => false
  let s := when_ early (bumpCtr ctrFabEvict 1) s
  { s with fab := { s.fab with win := (if full then s.fab.win.drop 1 else s.fab.win) ++ [w] } }

/-! ## Forwards to moved rows (R308) -/

/-- The packet of one forwarded part. -/
def partPacket (p : Packet) (lo hi node off : Nat) : Packet :=
  let bs := sub p.payload lo (hi - lo)
  if p.opcode = opREAD then { dst := node, opcode := opREAD, saggar := p.saggar, offset := off, cls := p.cls, length := hi - lo }
  else if p.opcode = opWRITE then
    { dst := node, opcode := opWRITE, saggar := p.saggar, offset := off, cls := p.cls, length := hi - lo, payload := bs, trailer := trailerOf off bs }
  else { dst := node, opcode := p.opcode, saggar := p.saggar, offset := off, cls := p.cls, length := p.length, payload := p.payload, cmb := p.cmb }

/-- The Gather engine that carries forwards. -/
def State.fwdEngine (s : State) : Nat := ((List.range 8).find? (fun e => !(aget s.gth.unit e { on := true }).on)).getD 0

/-- Forward the pieces of a request to where their rows are. A retry of an atomic whose forward is out is
matched to it; one whose outcome is known is answered from the window, one that is not known is
`NACK_UNKNOWN` (R353). Another change to a grain still out waits (R342). -/
def forwardRows (p : Packet) (parts : List (Nat × Nat × Nat × Nat)) (s : State) : State :=
  let key := fun (f : GthFwd) => f.orig.src = p.src && f.orig.saggar = p.saggar && f.orig.seq = p.seq && isAtomic f.orig.opcode
  if isAtomic p.opcode && s.gth.fwds.any key then
    take p { s with gth := { s.gth with fwds := s.gth.fwds.map (fun f => if key f then { f with orig := p } else f) } }
  else match (if isAtomic p.opcode then s.winFind p.src p.saggar p.seq else none) with
  | some w => match w.outcome with
    | some (c, old) => reply p ((Status.ofCode c).getD .ok) 0 (if c = 0 then natLe old 8 else []) (take p s)
    | none => reply p .nackUnknown 0 [] (take p s)
  | none =>
    if isAtomic p.opcode && p.rty then
      reply p .nackUnknown 0 [] (enterWin { src := p.src, saggar := p.saggar, seq := p.seq, at_ := s.now } (take p s))
    else
      let e := s.fwdEngine
      if p.opcode ≠ opREAD ∧ parts.any (fun x => s.grainHeld (.gather e) x.2.2.1 x.2.2.2) = true then wait p s else
      let s := take p s
      let r := parts.foldl (fun (st : List GthPart × State) x =>
        (st.1 ++ [{ pos := x.1, len := x.2.1 - x.1, node := x.2.2.1, off := x.2.2.2, tag := st.2.nextTag }],
         issue (.gather e) (partPacket p x.1 x.2.1 x.2.2.1 x.2.2.2) st.2)) ([], s)
      { r.2 with gth := { r.2.gth with fwds := r.2.gth.fwds ++ [{ orig := p, parts := r.1 }] } }

/-- `READ` at the home. -/
def serveRead (p : Packet) (s : State) : State :=
  match s.accept p with
  | .refuse st h => reply p st h [] (take p s)
  | .ok pl =>
    let r := placeRegion pl
    let a := match pl with | .working _ a => a | .view _ _ a => a | .nowhere => 0
    let ver := match pl with | .view _ v _ => some v | _ => none
    let coherent := r.coh = 1 ∧ ver = none
    match s.rowRoute p r a p.length false with
    | .deny => reply p .denied 0 [] (take p s)
    | .frozen => reply p .nackRetry 12 [] (take p s)
    | .forward parts => forwardRows p parts s
    | .here =>
    if coherent ∧ s.busyGrain r a p.length then wait p s
    else if coherent ∧ s.dirRoom r a p = false then
      (match s.evictable r a p with
       | some (er, eg) => startInvalidation (s.region er) eg p (wait p s)
       | none => wait p s)
    else
        match readRegion { r with holders := r.holders.filter (· ≠ p.src) } ver a p.length s with
        | (.waits, s) => wait p s
        | (.retry h, s) => reply p .nackRetry h [] (take p s)
        | (.poison, s) => reply p .poison 0 [] (take p s)
        | (.data bs, s) => answerRead p bs (take p (if coherent then registerReader r a p s else s))

/-! ## Atomics (R341) -/

/-- The new word of an 8-byte atomic. -/
def atomicWord (op old a b : Nat) : Nat :=
  if op = opADD ∨ op = opFRAMEADD then (old + a) % 2 ^ 64
  else if op = opMIN then (if signed64 old ≤ signed64 a then old else a)
  else if op = opMAX then (if signed64 a ≤ signed64 old then old else a)
  else if op = opSWAP then a
  else if op = opCAS then (if old = a then b else old)
  else old

/-- An atomic's outcome for the window: status and old value. -/
structure AtomOut where
  status : Status := .ok
  old : Nat := 0
  retry : Bool := false
  hint : Nat := 0
  waits : Bool := false
  deriving DecidableEq, Repr

/-- The write half of an atomic. -/
def writeAtomic (r : Region) (a : Nat) (data : List Byte) (done : AtomOut) (s : State) : AtomOut × State :=
  match writeRegion (s.region r.id) a data s with
  | (.done, s) => (done, s)
  | (.poison, s) => ({ status := .poison }, s)
  | (.retry h, s) => ({ retry := true, hint := h }, s)
  | (.waits, s) => ({ waits := true }, s)

/-- Apply an atomic to a region's bytes as one indivisible action on the grain (R531), counted once (R208). -/
def applyAtomic (r : Region) (a : Nat) (op : Nat) (operand : List Byte) (s : State) : AtomOut × State :=
  let n := if op = opFRAMEADDF then 32 else 8
  let counted := fun (s : State) => touchPages r none (pagesOf a n) s
  match readRange r none a n s with
  | (.waits, s) => ({ waits := true }, s)
  | (.retry h, s) => ({ retry := true, hint := h }, s)
  | (.poison, s) => ({ status := .poison }, counted s)
  | (.data bs, s) =>
    if op = opFRAMEADDF then
      match combineSlots bs operand with
      | none => ({ status := .denied }, counted s)
      | some x => writeAtomic r a x.slot { status := if x.ovf then .overflow else .ok, old := 0 } s
    else
      let old := leNat bs
      writeAtomic r a (natLe (atomicWord op old (le operand 0 8) (le operand 8 8)) 8) { old := old } s

/-- The answer of an atomic from its outcome (R338, R352). -/
def answerAtomic (p : Packet) (st : Status) (old : Nat) (s : State) : State :=
  if p.opcode = opFRAMEADDF then reply p st 0 [] s
  else if st = .ok ∨ st = .overflow then reply p st 0 (natLe old 8) s
  else reply p st 0 [] s

/-- The originals a combined atomic carries (R364): source, saggar, sequence, operand. -/
def originals (p : Packet) : List (Nat × Nat × Nat × Nat) :=
  let n := (p.payload.length - 16) / 16
  (List.range n).map (fun i =>
    let w := le p.payload (16 + 16 * i) 8
    (bits w 0 16, bits w 16 6, bits w 22 24, le p.payload (24 + 16 * i) 8))

/-- The operand an atomic applies: for a combined one, the fold in its second word. -/
def operandOf (p : Packet) : List Byte := if p.cmb then sub p.payload 8 8 else p.payload

/-- The results the originals of a combined atomic receive from the old value (R298). -/
def splitResults (op : Nat) : Nat → List (Nat × Nat × Nat × Nat) → List ((Nat × Nat × Nat) × Nat)
  | _, [] => []
  | v, (src, g, q, a) :: rest => ((src, g, q), v) :: splitResults op (atomicWord op v a 0) rest

/-- Enter an atomic's final outcome, and that of every original of a combined one (R352, R364). -/
def enterOutcome (p : Packet) (st : Status) (old : Nat) (s : State) : State :=
  let s := enterWin { src := p.src, saggar := p.saggar, seq := p.seq, outcome := some (st.code, old), at_ := s.now } s
  if p.cmb then
    forEach (splitResults p.opcode old (originals p)) (fun e s =>
      enterWin { src := e.1.1, saggar := e.1.2.1, seq := e.1.2.2, outcome := some (st.code, e.2), at_ := s.now } s) s
  else s

/-- Whether some original of a combined atomic already has an entry (R364). -/
def State.originalKnown (s : State) (p : Packet) : Bool :=
  p.cmb && (originals p).any (fun o => (s.winFind o.1 o.2.1 o.2.2.1).isSome)

/-- An accepted atomic in its turn: the window first (R353), then the grain. -/
def atomicTurn (p : Packet) (r : Region) (a : Nat) (mismatch : Bool) (s : State) : State :=
  match s.winFind p.src p.saggar p.seq with
  | some w =>
    match w.outcome with
    | some (c, old) => answerAtomic p ((Status.ofCode c).getD .ok) old (take p s)
    | none => reply p .nackUnknown 0 [] (take p s)
  | none =>
    if s.originalKnown p then
      reply p .nackUnknown 0 [] (enterWin { src := p.src, saggar := p.saggar, seq := p.seq, at_ := s.now } (take p s))
    else if p.rty then
      reply p .nackUnknown 0 [] (enterWin { src := p.src, saggar := p.saggar, seq := p.seq, at_ := s.now } (take p s))
    else if mismatch then reply p .nackRetry 0 [] (bumpSat satErcMerge (take p s))
    else
      match applyAtomic r a p.opcode (operandOf p) s with
      | (o, s) =>
        if o.waits then wait p s
        else if o.retry then reply p .nackRetry o.hint [] (take p s)
        else answerAtomic p o.status o.old (freeEntries r a (spanOf p) (enterOutcome p o.status o.old (take p s)))

/-- The merge mismatch counts only where a part of a grain changes (R531). -/
def partialPieces (a len : Nat) : Bool := (pieces a len).any (fun pc => pc.2.2 ≠ 256)

/-- An accepted `WRITE` in its turn: every piece tested, then applied (R346, R531). -/
def writeTurn (p : Packet) (r : Region) (a : Nat) (mismatch : Bool) (s : State) : State :=
  if p.trailer ≠ trailerOf p.offset p.payload then
    reply p .nackRetry 0 [] (bumpSat satFabGrainCrc (take p s))
  else if mismatch && partialPieces a p.length then reply p .nackRetry 0 [] (bumpSat satErcMerge (take p s))
  else
    match writeRegion r a p.payload s with
    | (.waits, s) => wait p s
    | (.retry h, s) => reply p .nackRetry h [] (take p s)
    | (.poison, s) => reply p .poison 0 [] (take p s)
    | (.done, s) => reply p .ok 0 [] (freeEntries r a p.length (take p s))

/-- A `WRITE` or atomic at the home: acceptance, then the invalidation of sharers (R373), then its
turn. A request to a busy grain waits. -/
def serveChange (p : Packet) (mismatch : Bool) (s : State) : State :=
  match s.accept p with
  | .refuse st h => reply p st h [] (take p s)
  | .ok pl =>
    match pl with
    | .working r a =>
      match s.rowRoute p r a (spanOf p) true with
      | .deny => reply p .denied 0 [] (take p s)
      | .frozen => reply p .nackRetry 12 [] (take p s)
      | .forward parts => forwardRows p parts s
      | .here =>
      if r.coh = 1 ∧ s.busyGrain r a (spanOf p) then wait p s
      else if r.coh = 1 then
        match s.sharedGrains r a (spanOf p) p.src with
        | g :: _ => startInvalidation r g p (wait p s)
        | [] => if isAtomic p.opcode then atomicTurn p r a mismatch s else writeTurn p r a mismatch s
      else if isAtomic p.opcode then atomicTurn p r a mismatch s
      else writeTurn p r a mismatch s
    | _ => reply p .denied 0 [] (take p s)

end Sys2Proof.Machine
end

