-- ==== Sys2Proof/Machine/Replica.lean ====
section
/-! DEFINITION. Copies of regions on other nodes (R206, R217, R536, R537, R543): directory records, what a mover
sends to another node or fetches from one, and what the receiving chip does with it. A message between two homes is
a `WRITE` in TC5 to an offset of the upper half that no view takes. -/

namespace Sys2Proof.Machine

/-! ## Messages between homes -/

/-- A message about a region: kind 0 part of its directory record, 1 a grain of its working pages, 2 + v a grain of
version v; the part or grain; the bytes. -/
def xferPacket (dst id kind idx g : Nat) (data : List Byte) : Packet :=
  let b := natLe id 4 ++ natLe kind 5 ++ natLe idx 7 ++ data
  { dst := dst, opcode := opWRITE, saggar := g, offset := xferPort, cls := 5, length := b.length, payload := b
    trailer := trailerOf xferPort b }

/-- Whether a packet is such a message of another Plofen. -/
def State.isXfer (s : State) (p : Packet) : Bool :=
  p.opcode = opWRITE && p.cls = 5 && p.offset = xferPort && p.dst = s.fab.node && p.src ≠ s.fab.node && s.plofens.contains p.src

/-! ## Directory records (R537) -/

/-- Page numbers as runs: first page, pages. -/
def runsOf (l : List Nat) : List (Nat × Nat) :=
  (sortBy (fun a b => decide (a < b)) l.eraseDups).foldl (fun acc p =>
    match acc.getLast? with
    | some (a, n) => if p = a + n then acc.dropLast ++ [(a, n + 1)] else acc ++ [(p, 1)]
    | none => [(p, 1)]) []

def runPages (l : List (Nat × Nat)) : List Nat := l.flatMap (fun x => (List.range x.2).map (· + x.1))

/-- Runs a record holds of a list at most; a longer list counts as all pages. -/
def recordRuns : Nat := 1024
def runsIn (r : Region) (l : List Nat) : List (Nat × Nat) := let x := runsOf l; if x.length ≤ recordRuns then x else [(0, r.pages)]

def runBytes (l : List (Nat × Nat)) : List Byte := natLe l.length 2 ++ l.flatMap (fun x => natLe x.1 4 ++ natLe x.2 4)

/-- A version in a record: number, view, opens, pages. -/
def versionBytes (r : Region) (v : Nat × Version) : List Byte :=
  natLe v.1 4 ++ natLe (v.2.view.getD 0) 6 ++ natLe v.2.opens.length 2 ++ v.2.opens.flatMap (fun o => natLe o.1 2 ++ natLe o.2 2)
    ++ runBytes (runsIn r (v.2.pages.map (·.1) ++ v.2.lost))

/-- The directory record of a region: descriptor, owner, whether it is sealed or deleted, and its page lists, behind
its length. -/
def Region.record (r : Region) (gone : Bool) : List Byte :=
  let b := r.desc ++ natLe r.owner 2 ++ natLe (b2n r.sealed_ + 2 * b2n gone) 1 ++ runBytes (runsIn r (r.working.map (·.1) ++ r.lostPages))
    ++ natLe r.versions.length 2 ++ r.versions.flatMap (versionBytes r)
  pad8 (natLe b.length 8 ++ b)

def takeRuns (b : List Byte) : List (Nat × Nat) × List Byte :=
  let n := le b 0 2
  ((List.range n).map (fun i => (le b (2 + 8 * i) 4, le b (6 + 8 * i) 4)), b.drop (2 + 8 * n))

def takeVersions : Nat → List Byte → Assoc Nat Version
  | 0, _ => []
  | n + 1, b =>
    let k := le b 10 2
    let x := takeRuns (b.drop (12 + 4 * k))
    (le b 0 4, { view := if le b 4 6 = 0 then none else some (le b 4 6)
                 opens := (List.range k).map (fun i => (le b (12 + 4 * i) 2, le b (14 + 4 * i) 2))
                 lost := runPages x.1 }) :: takeVersions n x.2

/-- The region a record describes, its listed pages not here, and whether it is deleted. -/
def regionOfRecord (b : List Byte) : Region × Bool :=
  let x := takeRuns (b.drop 139)
  ({ regionOfDesc (sub b 8 128) with
      owner := le b 136 2
      sealed_ := bit (le b 138 1) 0
      lostPages := runPages x.1
      versions := takeVersions (le x.2 0 2) (x.2.drop 2) }, bit (le b 138 1) 1)

/-- Bytes of a record that one message carries. -/
def partBytes : Nat := 496

/-- The region of a record all of whose parts have come. -/
def DirCopy.region (x : DirCopy) : Option (Region × Bool) :=
  if 0 < le x.bytes 0 8 ∧ (List.range (ceilDiv (8 + le x.bytes 0 8) partBytes)).all x.got.contains = true then some (regionOfRecord x.bytes) else none

/-- Send a region's record to a node. -/
def sendRecord (node : Nat) (r : Region) (gone : Bool) (s : State) : State :=
  let b := r.record gone
  forEach (List.range (ceilDiv b.length partBytes)) (fun i s =>
    issue .control (xferPacket node r.id 0 i r.saggar ((b.drop (i * partBytes)).take partBytes)) s) s

/-- A home streams a region's record to its replica partner, and that it is deleted. -/
def streamDirectory (id : Nat) (gone : Bool) (s : State) : State :=
  match afind s.tie.regions id with
  | some r =>
    let b := s.nodeParam 0x0215
    if r.home = s.fab.node ∧ s.plofens.contains b = true ∧ b ≠ s.fab.node then sendRecord b r gone s else s
  | none => s

/-! ## The receiving chip -/

/-- The region a record of this chip names for another home's. -/
def State.recordOf (s : State) (home id : Nat) : Option (Region × Bool) := (aget (aget s.erc.dirReplica home []) id {}).region

def dropRecord (home id : Nat) (s : State) : State :=
  { s with erc := { s.erc with dirReplica := amod s.erc.dirReplica home [] (fun m => aerase m id) } }

/-- A record is complete: a deleted region's copy goes; one of this chip's own that is handed back to it while it
loads comes into being, none of its pages here yet (R543). -/
def actOnRecord (src id : Nat) (s : State) : State :=
  match s.recordOf src id with
  | none => s
  | some (r, true) =>
    let s := dropRecord src id s
    if (s.region id).home = src ∧ ahas s.tie.regions id = true ∧ r.home = src then deleteRegion id s else s
  | some (r, false) =>
    if r.home = s.fab.node then
      let s := dropRecord src id s
      if s.erc.admission = 3 ∧ ahas s.tie.regions id = false then
        { s with tie := { s.tie with regions := aset s.tie.regions id r } } else s
    else s

/-- The region a grain of a message goes to: one of this chip's that is handed back to it, or the copy of a sealed
region of the sender, made from its record with the first grain. -/
def copyTarget (src id : Nat) (s : State) : Option State :=
  match afind s.tie.regions id with
  | some r => if (r.home = s.fab.node ∧ s.erc.admission = 3) ∨ (r.home = src ∧ r.immutable = true) then some s else none
  | none =>
    match s.recordOf src id with
    | some (r, false) =>
      if r.immutable ∧ r.sealed_ ∧ r.home = src then
        some { s with tie := { s.tie with regions := aset s.tie.regions id { r with versions := [], holders := [src] } } }
      else none
    | _ => none

/-- A grain of a version's page: its frame is made poisoned with the first. -/
def copyVersionGrain (id v gi : Nat) (data : List Byte) (s : State) : Option State :=
  let r := s.region id
  let page := gi / 256
  match pageFrames r (some v) page with
  | f :: _ => some (storeGrain r f (gi % 256) (s.toStored r gi data) r.conf s)
  | [] =>
    match allocFrame (if (polTiers r.tierPol).contains 3 then 3 else 2) r.saggar r page s with
    | none => none
    | some (f, s) =>
      let s := modRegion id (fun r => { r with versions := amod r.versions v {} (fun x =>
        { x with pages := aset x.pages page [f], lost := x.lost.filter (· ≠ page) }) }) (forEach (List.range 256) (poisonGrain f) s)
      some (storeGrain r f (gi % 256) (s.toStored r gi data) r.conf s)

/-- A grain of a message. -/
def copyIn (id kind gi : Nat) (data : List Byte) (s : State) : Option State :=
  if kind = 1 then
    match framesForWrite id [gi / 256] s with
    | (true, s) => some (writePiece id (gi, 0, 256) data s)
    | (false, _) => none
  else copyVersionGrain id (kind - 2) gi data s

/-- A message of another home. -/
def takeXfer (p : Packet) (s : State) : State :=
  let s := take p s
  let id := le p.payload 0 4
  let kind := le p.payload 4 5
  let idx := le p.payload 9 7
  let data := p.payload.drop 16
  if p.trailer ≠ trailerOf p.offset p.payload then reply p .nackRetry 0 [] (bumpSat satFabGrainCrc s)
  else if kind = 0 then
    let x := aget (aget s.erc.dirReplica p.src []) id {}
    let at_ := idx * partBytes
    let x' : DirCopy := { bytes := overlay (fit x.bytes (max x.bytes.length (at_ + data.length))) at_ data, got := (idx :: x.got).eraseDups }
    reply p .ok 0 [] (actOnRecord p.src id { s with erc := { s.erc with dirReplica := amod s.erc.dirReplica p.src [] (fun m => aset m id x') } })
  else if data.length ≠ grainBytes then reply p .denied 0 [] s
  else match copyTarget p.src id s with
    | none => reply p .denied 0 [] s
    | some t =>
      if (t.region id).pages ≤ idx / 256 then reply p .denied 0 [] s else
      match copyIn id kind idx data t with
      | some t => reply p .ok 0 [] t
      | none => reply p .nackRetry 14 [] s

/-- A copy of a region of another home for this chip's own units, made without any page (R145, R206). -/
def wantCopy (r : Region) (s : State) : State :=
  if ahas s.tie.regions r.id then s
  else { s with tie := { s.tie with regions := aset s.tie.regions r.id { r with sealed_ := true, lostPages := List.range r.pages, holders := [r.home] } } }

/-- What came back to its home is served from the `ADMIT` commit on: a version's page that was not sent is the
working page (R543). -/
def handedBack (s : State) : State :=
  { s with tie := { s.tie with regions := s.tie.regions.map (fun q =>
    if q.2.home ≠ s.fab.node then q else
    (q.1, { q.2 with versions := q.2.versions.map (fun v =>
      let back := v.2.lost.filter (ahas q.2.working ·)
      (v.1, { v.2 with pages := v.2.pages ++ back.map (fun p => (p, aget q.2.working p [])), lost := v.2.lost.filter (fun p => !back.contains p) })) })) } }

/-! ## Movers between nodes (R217) -/

def MoverJob.remote (j : MoverJob) : Bool := j.toNode.isSome || j.fromNode.isSome
def MoverRun.page (x : MoverRun) : Nat := x.job.page + x.done

def State.run? (s : State) (m : Nat) : Option MoverRun := afind s.tie.movers m
def setRun (m : Nat) (x : MoverRun) (s : State) : State := { s with tie := { s.tie with movers := aset s.tie.movers m x } }

/-- Begin the page in hand: every grain of it is to be sent, or to be fetched into a new frame. A page that goes back
to its home is moved in passes (R543). -/
def beginRemote (m : Nat) (s : State) : State :=
  match s.run? m with
  | none => s
  | some x =>
    let r := s.region x.job.region
    match x.job.fromNode with
    | some _ =>
      match allocFrame x.job.toTier r.saggar r x.page s with
      | none => setRun m { x with done := x.job.count } s
      | some (f, s) => setRun m { x with todo := List.range 256, frame := some f, failed := false } s
    | none =>
      let src := s.servingFrame (pageFrames r x.job.ver x.page)
      let s := if x.job.cls = 1 ∧ x.job.ver = none ∧ (r.moves.any (fun v => v.page = x.page)) = false then
        modRegion r.id (fun r => { r with moves := r.moves ++ [{ page := x.page, src := src.getD 0, node := x.job.toNode, began := s.now }] }) s else s
      setRun m { x with todo := if src.isSome then List.range 256 else [] } s

/-- The requests for the grains still to be asked for or sent, as far as the limits let them go. A grain that fails
is refetched for `IMMUTABLE` data, and is not sent: the page is poisoned where it goes until a grain comes. -/
def pumpRemote (m : Nat) : Nat → State → State
  | 0, s => s
  | fuel + 1, s =>
    match s.run? m with
    | none => s
    | some x =>
      let r := s.region x.job.region
      match x.todo, x.job.fromNode.or x.job.toNode with
      | g :: rest, some n =>
        if s.maySend (.mover m) n r.saggar = false then s else
        let gi := x.page * 256 + g
        let sent := { x with todo := rest, tags := x.tags ++ [(s.nextTag, g)] }
        if x.job.fromNode.isSome then
          pumpRemote m fuel (issue (.mover m) { dst := n, opcode := opREAD, saggar := r.saggar, offset := r.base + gi * 256, cls := 5, length := 256 }
            (setRun m sent s))
        else
          match (s.servingFrame (pageFrames r x.job.ver x.page)).toList ++ (if r.immutable then pageFrames r x.job.ver x.page else []) with
          | [] => pumpRemote m fuel (setRun m { x with todo := [] } s)
          | ids =>
            match s.goodCopy r ids g with
            | none => pumpRemote m fuel (setRun m { x with todo := rest } (if r.immutable then refetch r x.page s else s))
            | some i =>
              pumpRemote m fuel (issue (.mover m)
                (xferPacket n r.id (match x.job.ver with | none => 1 | some v => 2 + v) gi r.saggar (s.plain r i (gi, 0, 256))) (setRun m sent s))
      | _, _ => s

/-- A page has been fetched: it replaces the frames of the page that do not pass their checks. A holder that did not
give it all is no holder any more. -/
def fetched (x : MoverRun) (s : State) : State :=
  let r := s.region x.job.region
  match x.frame with
  | none => s
  | some f =>
    if x.failed then freeFrame f (modRegion r.id (fun r => { r with holders := r.holders.filter (fun n => x.job.fromNode ≠ some n) }) s)
    else
      let bad := ((aget r.working x.page []) ++ r.versions.flatMap (fun v => aget v.2.pages x.page [])).eraseDups.filter (fun i =>
        !(List.range 256).all (fun g => s.grainGood r i g))
      let put := fun (l : Assoc Nat (List Nat)) => aset l x.page (f :: (aget l x.page []).filter (fun i => !bad.contains i))
      freeUnheld bad (modRegion r.id (fun r => { r with
        working := put r.working
        lostPages := r.lostPages.filter (· ≠ x.page)
        versions := r.versions.map (fun v => if v.2.lost.contains x.page || ahas v.2.pages x.page
          then (v.1, { v.2 with pages := put v.2.pages, lost := v.2.lost.filter (· ≠ x.page) }) else v) }) s)

/-- Everything of the page in hand is answered: another pass over what was written meanwhile, the fourth holding
writes, or the next page. A page handed back is held until the commit (R543). -/
def endRemote (m : Nat) (s : State) : State :=
  match s.run? m with
  | none => s
  | some x =>
    let next := fun (s : State) => beginNext { x with done := x.done + 1, frame := none, failed := x.failed && x.job.fromNode.isNone } s
    match (s.region x.job.region).moves.find? (fun v => v.page = x.page && v.node.isSome && x.job.ver.isNone) with
    | none => next (if x.job.fromNode.isSome then fetched x s else s)
    | some v =>
      let put := fun (w : PageMove) => modRegion x.job.region (fun r => { r with moves := r.moves.map (fun y => if y = v then w else y) })
      if v.written.isEmpty then next (put { v with dirty := [], held := true } s)
      else setRun m { x with todo := v.written } (put { v with dirty := v.written, written := [], pass := v.pass + 1, held := v.held || decide (4 ≤ v.pass + 1) } s)
where
  beginNext (x : MoverRun) (s : State) : State :=
    let s := setRun m x s
    if x.done < x.job.count then beginRemote m s else s

/-- A mover between nodes goes on: it sends what it may, and turns to the next page when all is answered. -/
def remoteWork (m : Nat) : Nat → State → State
  | 0, s => s
  | fuel + 1, s =>
    let s := pumpRemote m 257 s
    match s.run? m with
    | none => s
    | some x => if x.todo.isEmpty && x.tags.isEmpty && decide (x.done < x.job.count) then remoteWork m fuel (endRemote m s) else s

/-- Pages and passes a run can need. -/
def MoverJob.fuel (j : MoverJob) : Nat := 8 * (j.count + 1)

/-- A mover begins a job between nodes. -/
def startRemote (m : Nat) (j : MoverJob) (s : State) : State := remoteWork m j.fuel (beginRemote m (setRun m { job := j } s))

/-- A mover's request is answered. -/
def moverAnswer (m tag status : Nat) (data : List Byte) (s : State) : State :=
  match s.run? m with
  | none => s
  | some x =>
    match x.tags.find? (fun t => t.1 = tag) with
    | none => s
    | some (_, g) =>
      let r := s.region x.job.region
      let x' := { x with tags := x.tags.filter (fun t => t.1 ≠ tag), failed := x.failed || decide (status ≠ 0) }
      let s := setRun m x' s
      let s := match x.frame with
        | some f => if status = 0 ∧ x.job.fromNode.isSome = true then storeGrain r f g (s.toStored r (x.page * 256 + g) data) r.conf s else s
        | none => s
      remoteWork m x.job.fuel s

/-- A job between nodes is over: a node that took every grain of a copy is a replica holder. -/
def remoteOver (m : Nat) (x : MoverRun) (s : State) : State :=
  let s := { s with tie := { s.tie with movers := aerase s.tie.movers m } }
  match x.job.toNode with
  | some n => if x.failed || x.job.cls ≠ 6 || decide ((s.region x.job.region).pages > x.job.page + x.job.count) then s
    else modRegion x.job.region (fun r => { r with holders := if r.holders.contains n then r.holders else r.holders ++ [n] }) s
  | none => s

end Sys2Proof.Machine
end

