-- ==== Sys2Proof/Machine/Fabric.lean ====
section
/-! DEFINITION. Fabric transactions (chapter 12): the meanings of the memory opcodes, of the answers a
requester takes, of its timers, and of the hot-range table. -/

namespace Sys2Proof.Machine

/-- The meaning of `READ`. -/
def execRead (p : Packet) (s : State) : Host.Outcome State Fault Refusal :=
  run (p.wf) (serveRead { p with opcode := opREAD } s)

/-- `WRITE` at its destination: a message of another home's movers, or a write of a region. -/
def serveWrite (p : Packet) (mm : Bool) (s : State) : State := if s.isXfer p then takeXfer p s else serveChange p mm s

/-- The meaning of `WRITE`. -/
def execWrite (p : Packet) (mm : Bool) (s : State) : Host.Outcome State Fault Refusal :=
  run (p.wf) (serveWrite { p with opcode := opWRITE } mm s)

/-- The meaning of `ADD`. -/
def execAtomicAdd (p : Packet) (mm : Bool) (s : State) : Host.Outcome State Fault Refusal :=
  run (p.wf) (serveChange { p with opcode := opADD } mm s)

/-- The meaning of `MIN`. -/
def execAtomicMin (p : Packet) (mm : Bool) (s : State) : Host.Outcome State Fault Refusal :=
  run (p.wf) (serveChange { p with opcode := opMIN } mm s)

/-- The meaning of `MAX`. -/
def execAtomicMax (p : Packet) (mm : Bool) (s : State) : Host.Outcome State Fault Refusal :=
  run (p.wf) (serveChange { p with opcode := opMAX } mm s)

/-- The meaning of `SWAP`. -/
def execAtomicSwap (p : Packet) (mm : Bool) (s : State) : Host.Outcome State Fault Refusal :=
  run (p.wf) (serveChange { p with opcode := opSWAP } mm s)

/-- The meaning of `CAS`. -/
def execAtomicCas (p : Packet) (mm : Bool) (s : State) : Host.Outcome State Fault Refusal :=
  run (p.wf) (serveChange { p with opcode := opCAS } mm s)

/-- The meaning of `FRAME_ADD`. -/
def execFrameAdd (p : Packet) (mm : Bool) (s : State) : Host.Outcome State Fault Refusal :=
  run (p.wf) (serveChange { p with opcode := opFRAMEADD } mm s)

/-- The meaning of `FRAME_ADD_F`. -/
def execFrameAddF (p : Packet) (mm : Bool) (s : State) : Host.Outcome State Fault Refusal :=
  run (p.wf) (serveChange { p with opcode := opFRAMEADDF } mm s)

/-! ## Timers of a requester -/

/-- Completion timeouts after which a request is sent again: one (R357), sixteen for a combined atomic
of the Pug (R298). -/
def Req.resends (r : Req) : Nat := if r.pkt.cmb then 16 else 1

/-- A completion timeout (R357): a resend carries `RTY`; after the last one the request ends with the
timeout code 0xF. -/
def completionTimeout (tag : Nat) (s : State) : State :=
  match s.fab.outst.find? (fun r => r.pkt.tag = tag ∧ r.deadline.isSome) with
  | none => s
  | some r =>
    let s := expire (sclk 1) (r.deadline.getD 0) s
    if r.timeouts < r.resends then
      let r' : Req := { r with timeouts := r.timeouts + 1, pkt := { r.pkt with rty := true } }
      resend r' { s with fab := { s.fab with outst := s.fab.outst.map (fun x => if x = r then r' else x) } }
    else complete r 0xF [] (bumpSat satFabTimeout s)

/-- The backoff of a `NACK_RETRY` ends: the request goes out again with the same `SEQ` and `RTY` clear
(R343). -/
def nackBackoff (tag : Nat) (s : State) : State :=
  match s.fab.outst.find? (fun r => r.pkt.tag = tag ∧ r.backoff.isSome) with
  | none => s
  | some r =>
    let s := carry (r.backoff.getD 0) s
    let r' : Req := { r with pkt := { r.pkt with rty := false } }
    resend r' { s with fab := { s.fab with outst := s.fab.outst.map (fun x => if x = r then r' else x) } }

/-- The meaning of `NACK_BACKOFF_EXPIRY`. -/
def execNackBackoffExpiry (tag : Nat) (s : State) : Host.Outcome State Fault Refusal :=
  run (decide (tag < 65536)) (nackBackoff tag s)

/-- A request held for an epoch change that did not come ends with the status of its answer (R343). -/
def staleHold (tag : Nat) (s : State) : State :=
  match s.fab.outst.find? (fun r => r.pkt.tag = tag ∧ r.held.isSome) with
  | none => s
  | some r =>
    let h := r.held.getD (0, 0)
    if s.img.epoch ≠ r.pkt.epoch then resend r s else complete r h.1 [] (expire (sclk 1) h.2 s)

/-- A window entry whose retention has passed leaves the window (R355). -/
def windowExpiry (src g seq : Nat) (s : State) : State :=
  match s.winFind src g seq with
  | none => s
  | some w =>
    let s := carry (w.at_ + sclk (2 ^ s.winRetExp)) s
    { s with fab := { s.fab with win := s.fab.win.erase w } }

/-- The meaning of `WINDOW_ENTRY_EXPIRY`. -/
def execWindowEntryExpiry (src g seq : Nat) (s : State) : Host.Outcome State Fault Refusal :=
  run (decide (src < 65536) && decide (g < 64) && decide (seq < 2 ^ 24)) (windowExpiry src g seq s)

/-- Requests held by a stale epoch go out again once the epoch has changed (R343). -/
def resendHeld (s : State) : State :=
  forEach (s.fab.outst.filter (fun r => r.held.isSome && r.pkt.epoch ≠ s.img.epoch)) resend s

/-! ## FAB_CTRL (R359) -/

/-- The value a write leaves in `FAB_CTRL`: a write that breaks a bound of R359 is discarded. -/
def fabCtrlNext (old new : Word32) : Word32 :=
  let toE := bits new.toNat 0 5
  let ret := bits new.toNat 8 5
  if 17 ≤ toE ∧ toE < ret ∧ 25 ≤ ret ∧ ret ≤ 30 then new else old

/-- `FAB_CTRL` written by its writer: the control plane alone (R359). -/
def writeFabCtrl (who : Who) (v : Word32) (s : State) : Status × State :=
  if who = .control then (.ok, { s with fab := { s.fab with ctrl := fabCtrlNext s.fab.ctrl v } })
  else (.denied, s)

/-- The meaning of `FAB_CTRL_WRITE`. -/
def execFabCtrlWrite (who : Who) (v : Word32) (s : State) : Host.Outcome State Fault Refusal :=
  run (who.wf)
    (ctlWriteSt who 0x0400004 (writeFabCtrl who v) s)

/-! ## Hot ranges (R361) -/

/-- Enter a hot range; a full table logs `FAB_HOT_FULL` (R361). -/
def enterHotRange (h : HotRange) (s : State) : State :=
  if s.fab.hot.any (fun x => x.region = h.region) then s
  else if s.fab.hot.length < 1024 then { s with fab := { s.fab with hot := s.fab.hot ++ [h] } }
  else logEvent 0x0601 0 none [h.region] s

/-- The meaning of `HOT_RANGE_ENTRY`. -/
def execHotRangeEntry (region home base pages kind g : Nat) (s : State) : Host.Outcome State Fault Refusal :=
  run (decide (region < 2 ^ 32) && decide (home < 65536) && decide (base < 2 ^ 48) && decide (pages < 2 ^ 32) && decide (kind < 4) && decide (g < 64))
    (enterHotRange { region := region, home := home, base := base, pages := pages, kind := kind, saggar := g } s)

/-! ## RPT acceptance (R348, R349) -/

/-- The entry of a procedure for a saggar: device procedures 0xFF0 to 0xFFE act as valid entries open
to all with `ARG_MAX` 256. -/
def State.rptEntryOf (s : State) (g proc : Nat) : Nat :=
  if 0xFF0 ≤ proc ∧ proc ≤ 0xFFE then 1 + 256 * 2 ^ 50 else rptEntry (s.sagBody tyRPT g) proc

/-- The `CAP_UNITS` bit of a device procedure (R202, R249, R272, R309, R322); the control cores serve
the region procedures. -/
def deviceCap (proc : Nat) : Option Nat :=
  if proc ≤ 0xFF3 then none
  else if proc ≤ 0xFF7 then some capCDC
  else if proc ≤ 0xFFA then some capPUG
  else if proc = 0xFFB then some capGTH
  else some capSIV

/-- Whether a device procedure's unit is absent on this variant. -/
def State.procAbsent (s : State) (proc : Nat) : Bool :=
  match deviceCap proc with | some u => !s.fitted u | none => false

def callProc (p : Packet) : Nat := bits (le p.payload 0 8) 0 16
def callArgLen (p : Packet) : Nat := bits (le p.payload 0 8) 16 9
/-- The argument bytes of a call. -/
def callArgs (p : Packet) : List Byte := sub p.payload 8 (callArgLen p)

/-- Rows 1 to 5 of R349; none where the call passes them. -/
def State.rptRefusal (s : State) (p : Packet) : Option (Status × Nat) :=
  let w := le p.payload 0 8
  let proc := callProc p
  let e := s.rptEntryOf p.saggar proc
  let comp := s.sagComp p.saggar
  if p.payload.length < 8 ∨ bits w 25 39 ≠ 0 ∨ 0xFFF ≤ proc ∨ rptValid e = false then some (.denied, 0)
  else if 0xFF0 ≤ proc ∧ s.procAbsent proc then some (.unitAbsent, 0)
  else if (rptCompOnly e ∧ ¬ (p.src ∈ s.members comp ∨ p.src ∈ s.endpoints comp)) ∨ rptArgMax e < callArgLen p
      ∨ p.length ≠ 8 + (callArgLen p + 7) / 8 * 8 then some (.denied, 0)
  else if s.compFenced comp then some (.nackFenced, 0)
  else if s.epochCheck p = .stale then some (.nackStaleEpoch, 0)
  else if s.epochCheck p = .notReady then some (.nackRetry, 10)
  else none

/-- The result payload of an RPT: result word of R113, then the result padded (R350). -/
def rptResult (code : Nat) (res : List Byte) : List Byte := natLe (code + res.length * 2 ^ 16) 8 ++ pad8 res

end Sys2Proof.Machine
end

