-- ==== Sys2Proof/Machine/Tiers.lean ====
section
/-! DEFINITION. Memory tiers and the pool (chapter 07): the pool procedures, snapshots, page moves and
movers, the tier manager, fences and training of memory units, and ownership-independent thresholds. -/

namespace Sys2Proof.Machine

/-! ## Region descriptors (R199, R200) -/

/-- Reserved bits of a descriptor are zero (R199). -/
def descReservedOk (d : List Byte) : Bool :=
  bits (le d 0 8) 62 2 = 0 && bits (le d 8 8) 4 4 = 0 && bits (le d 8 8) 48 16 = 0 && le d 30 2 = 0
    && bits (le d 64 8) 44 20 = 0 && (sub d 80 48).all (· = 0)

/-- Coherence modes a kind allows (R200). -/
def cohAllowed (kind coh : Nat) : Bool :=
  if kind = 0 then coh = 0 else if kind = 2 ∨ kind = 4 then coh = 0 || coh = 2 else decide (coh ≤ 2)

/-- Whether the domain field matches the coherence mode (R366). -/
def State.domainMatches (s : State) (r : Region) : Bool :=
  if r.coh = 1 then
    (match s.domain? r.domain with | some d => d.members.contains r.home | none => false)
  else r.domain = 0xFFFF

/-- Two regions' offset ranges meet. -/
def overlaps (a b : Region) : Bool := decide (a.base < b.base + b.size) && decide (b.base < a.base + a.size)

/-- The KV geometry of a region is in range, and a page holds some position (R164, R165, R200). -/
def Region.kvOk (r : Region) : Bool :=
  [1, 3].contains r.kvFmt && decide (r.dCode ≤ 2) && [1, 2, 4, 8].contains r.hPg && decide (1 ≤ r.nKv ∧ r.nKv ≤ 64) && (r.nKv % r.hPg = 0)
    && decide (1 ≤ r.layers ∧ r.layers ≤ 256) && decide (1 ≤ r.maxp ∧ r.maxp ≤ 65536) && decide (0 < r.tPg)
    && (r.pages = r.layers * (r.nKv / r.hPg) * r.maxp)

/-- The fields of a region a creator gives are in range (R199, R200, R202, R366). -/
def State.regionFieldsOk (s : State) (r : Region) (d : List Byte) : Bool :=
  descReservedOk d && decide (r.kind ≤ 4) && cohAllowed r.kind r.coh && decide (r.hotspot ≤ 2) && decide (r.tierPol ≤ 4)
    && decide (1 ≤ r.pages) && decide (r.pages ≤ 2 ^ 31) && (r.base % pageBytes = 0) && decide (r.base + r.size ≤ 2 ^ 47)
    && !r.conf && (r.version = 0) && r.contentDigest.all (· = 0)
    && (if r.kind = 2 then r.kvOk else r.kv = 0 && le d 72 8 = 0)
    && s.domainMatches r

/-- The refusal of `REGION_CREATE` (R202), for a region the saggar's requester or the image asks for. -/
def State.createRefusal (s : State) (r : Region) (d : List Byte) (g home : Nat) : Option Status :=
  let rec_ := s.sagRec g
  if ((polTiers r.tierPol).contains 2 ∧ s.fitted capHBM = false) ∨ ((polTiers r.tierPol).contains 4 ∧ s.fitted capFLM = false)
    then some .unitAbsent
  else if d.length ≠ 128 ∨ r.id < recRegionLo rec_ ∨ recRegionHi rec_ < r.id ∨ ahas s.tie.regions r.id = true
      ∨ s.regionFieldsOk r d = false ∨ r.home ≠ home ∨ r.saggar ≠ g ∨ r.comp ≠ s.sagComp g
      ∨ s.tie.regions.any (fun p => p.2.home = r.home && overlaps p.2 r) = true then some .denied
  else none

/-- Create a region at this home: its descriptor, `CONF` of a confidential saggar (R490), its owner
(R382), and its hot range on every member chip (R361). -/
def createRegion (r : Region) (owner : Nat) (s : State) : State :=
  let r := { r with conf := s.sagConf r.saggar, owner := if r.coh = 2 then owner else 0xFFFF }
  let s := { s with tie := { s.tie with regions := aset s.tie.regions r.id r } }
  let h : HotRange := { region := r.id, home := r.home, base := r.base, pages := r.pages, kind := r.hotspot, saggar := r.saggar }
  let s := if r.hotspot = 0 then s else enterHotRange h (sendCtrlAll (s.members r.comp) (.hotRange h) s)
  streamDirectory r.id false s

/-- Serve a device procedure: the checks of R349, then the procedure. -/
def serveProc (p : Packet) (proc : Nat) (f : State → State) (s : State) : State :=
  if callProc p ≠ proc then s else
  match s.rptRefusal p with
  | some (st, h) => reply p st h [] (take p s)
  | none => f (take p s)

/-- The pool procedures wait while the control cores restart (R202). -/
def servePool (p : Packet) (proc : Nat) (f : State → State) (s : State) : State :=
  serveProc p proc (fun s => if s.arch.cp = .restart then reply p .nackRetry 20 [] s else f s) s

/-- A region of the requester's saggar at this home; one that is being deleted exists no more for it. -/
def State.ownRegion (s : State) (p : Packet) (id : Nat) : Option Region :=
  match afind s.tie.regions id with
  | some r => if r.saggar = p.saggar ∧ r.home = p.dst ∧ r.deleting = none then some r else none
  | none => none

/-- `REGION_CREATE`. -/
def regionCreate (p : Packet) (s : State) : State :=
  servePool p 0xFF0 (fun s =>
    let d := callArgs p
    let r := regionOfDesc d
    match s.createRefusal r d p.saggar p.dst with
    | some st => reply p st 0 [] s
    | none =>
      -- R243: policies that name T4 wait for the rebuild
      if s.awaitsFlash r then reply p .nackRetry 20 [] s
      else reply p .ok 0 (rptResult 0 []) (createRegion r p.src s)) s

/-- The meaning of `REGION_CREATE`. -/
def execRegionCreate (p : Packet) (s : State) : Host.Outcome State Fault Refusal :=
  run (p.wf) (regionCreate p s)

/-- Whether some version of a region has a view open (R202, R216). -/
def Region.viewOpen (r : Region) : Bool := r.versions.any (fun v => v.2.opens.any (fun o => decide (0 < o.2)))

/-- The requests in hand that name a region: memory requests to it, and the units' own of its saggar. -/
def State.requestsOf (s : State) (r : Region) : List Packet :=
  s.fab.inbox.filter (fun q => (q.opcode = opREAD || q.opcode = opWRITE || isAtomic q.opcode)
      && (placeRegion (s.placeOf q.dst q.offset (spanOf q) q.saggar)).id = r.id && q.saggar = r.saggar)
    ++ ((s.att.reqs.map (·.p)) ++ s.gth.reqs.map (·.call) ++ s.gth.fwds.map (·.orig) ++ s.siv.reqs.map (·.call)).filter (·.saggar = r.saggar)

/-- A region is deleted: it is freed once the requests accepted before have completed (R204). -/
def beginDelete (r : Region) (s : State) : State :=
  modRegion r.id (fun x => { x with deleting := some (s.requestsOf r) }) (streamDirectory r.id true s)

/-- `REGION_DELETE`. -/
def regionDelete (p : Packet) (s : State) : State :=
  servePool p 0xFF1 (fun s =>
    let d := callArgs p
    match s.ownRegion p (le d 0 4) with
    | none => reply p .denied 0 [] s
    | some r =>
      if r.viewOpen && !bit (le d 4 1) 0 then reply p .nackRetry 14 [] s
      else reply p .ok 0 (rptResult 0 []) (beginDelete r s)) s

/-- The meaning of `REGION_DELETE`. -/
def execRegionDelete (p : Packet) (s : State) : Host.Outcome State Fault Refusal :=
  run (p.wf) (regionDelete p s)

/-- The stored bytes of a page, zero where it has never been written (R199, R204). -/
def State.pageData (s : State) (ids : List Nat) : List Byte :=
  match s.servingFrame ids with
  | some id => (List.range 256).flatMap (s.grain id)
  | none => zeros pageBytes

/-- The content digest of a region (R199). -/
def State.contentDigest (s : State) (r : Region) : List Byte :=
  digest ((List.range r.pages).flatMap (fun i => s.pageData (aget r.working i [])))

/-- Jobs that copy a run of pages to another node, at most 4,096 each (R217). -/
def copyJobs (cls : Nat) (r : Region) (ver : Option Nat) (node : Nat) (s : State) : State :=
  forEach (List.range (ceilDiv r.pages 4096)) (fun i s =>
    enqueueMove { cls := cls, region := r.id, page := 4096 * i, count := min 4096 (r.pages - 4096 * i), toTier := 3, toNode := some node
                  ver := ver, saggar := r.saggar } s) s

/-- Seal a region: its digest is fixed, its pages become version 1, and it is copied to the replica partner (R202,
R536). -/
def sealRegion (r : Region) (dg : List Byte) (s : State) : State :=
  let s := modRegion r.id (fun r => { r with sealed_ := true, contentDigest := dg, version := 1,
                                             versions := aset r.versions 1 { pages := r.working, lost := r.lostPages } }) s
  let b := s.nodeParam 0x0215
  let s := streamDirectory r.id false s
  if s.plofens.contains b && b ≠ s.fab.node then copyJobs 6 r none b s else s

/-- `REGION_SEAL`: version 1, the digest, and the copy to the replica partner (R211, R536). -/
def regionSeal (p : Packet) (s : State) : State :=
  servePool p 0xFF2 (fun s =>
    match s.ownRegion p (le (callArgs p) 0 4) with
    | none => reply p .denied 0 [] s
    | some r =>
      if !r.immutable || r.sealed_ then reply p .denied 0 [] s else
      let dg := s.contentDigest r
      reply p .ok 0 (rptResult 0 dg) (sealRegion r dg s)) s

/-- The meaning of `REGION_SEAL`. -/
def execRegionSeal (p : Packet) (s : State) : Host.Outcome State Fault Refusal :=
  run (p.wf) (regionSeal p s)

/-- Distinct frames of a tier that any page list of a region holds; a move counts its source (R202). -/
def State.heldIn (s : State) (r : Region) (tier : Nat) : Nat :=
  let dsts := (r.moves.filter (fun m => m.node.isNone)).map (·.dst)
  countIf ((r.held.filter (fun i => !dsts.contains i)).eraseDups) (fun i => s.frameTier i = tier)

/-- `REGION_INFO`. -/
def regionInfo (p : Packet) (s : State) : State :=
  servePool p 0xFF3 (fun s =>
    match s.ownRegion p (le (callArgs p) 0 4) with
    | none => reply p .denied 0 [] s
    | some r =>
      reply p .ok 0 (rptResult 0 (r.desc ++ natLe (s.heldIn r 2) 4 ++ natLe (s.heldIn r 3) 4 ++ natLe (s.heldIn r 4) 4)) s) s

/-- The meaning of `REGION_INFO`. -/
def execRegionInfo (p : Packet) (s : State) : Host.Outcome State Fault Refusal :=
  run (p.wf) (regionInfo p s)

/-! ## Snapshots (R211 to R216, R595) -/

/-- Rows 1 to 4 of R595. -/
def State.snapRefusal (s : State) (p : Packet) : Except (Status × Nat) Region :=
  if !classOk p.opcode p.cls || p.payload.length ≠ 16 then .error (.denied, 0)
  else match s.ownRegion p (le p.payload 0 4) with
    | none =>
      if (s.flm.saved ++ s.tie.due).any (fun r => r.id = le p.payload 0 4 && r.home = p.dst && r.saggar = p.saggar)
      then .error (.nackRetry, 20) else .error (.denied, 0)
    | some r =>
      if s.awaitsFlash r then .error (.nackRetry, 20)
      else if s.compFenced r.comp || s.domainFenced r.domain then .error (.nackFenced, 0)
      else if s.epochCheck p = .stale then .error (.nackStaleEpoch, 0)
      else if s.epochCheck p = .notReady then .error (.nackRetry, 10)
      else .ok r

/-- Views this chip holds (R216). -/
def State.viewCount (s : State) : Nat :=
  (s.tie.regions.map (fun p => countIf p.2.versions (fun v => v.2.view.isSome))).sum

/-- The ranges of offsets that views take. -/
def State.views (s : State) : List (Nat × Nat) :=
  s.tie.regions.flatMap (fun p => p.2.versions.filterMap (fun v => v.2.view.map (fun b => (b, b + p.2.size))))

/-- A free range for a view: from where the search stands, behind another view, or at the bottom of the upper half
(R216); none where the offset space has no such range. -/
def State.viewBase (s : State) (size : Nat) : Option Nat :=
  ((2 ^ 47 + s.tie.nextView * pageBytes) :: (s.views.map (fun (v : Nat × Nat) => v.2)) ++ [2 ^ 47]).find? (fun c =>
    decide (c + size ≤ xferPort) && s.views.all (fun v => decide (c + size ≤ v.1) || decide (v.2 ≤ c)))

/-- `OPEN`. -/
def openVersion (p : Packet) (s : State) : State :=
  match s.snapRefusal p with
  | .error (st, h) => reply p st h [] (take p s)
  | .ok r =>
    let s := take p s
    let want := le p.payload 4 4
    let v := if want = 0 then r.version else want
    if v = 0 ∨ ahas r.versions v = false ∨ (r.immutable ∧ r.sealed_ = false) then reply p .denied 0 [] s else
    let ver := aget r.versions v {}
    let n := aget ver.opens p.src 0
    if 65535 ≤ n then reply p .nackRetry 14 [] s else
    match ver.view.or (if 65536 ≤ s.viewCount then none else s.viewBase r.size) with
    | none => reply p .nackRetry 14 [] s
    | some base =>
      let s := if ver.view = none then { s with tie := { s.tie with nextView := (base + r.size - 2 ^ 47) / pageBytes } } else s
      let s := modRegion r.id (fun r => { r with
        versions := aset r.versions v { ver with opens := aset ver.opens p.src (n + 1), view := some base } }) s
      reply p .ok 0 (natLe v 8 ++ natLe base 8) s

/-- The meaning of `OPEN`. -/
def execOpenVersion (p : Packet) (s : State) : Host.Outcome State Fault Refusal :=
  run (p.wf) (openVersion { p with opcode := opOPEN } s)

/-- `CLOSE`. -/
def closeVersion (p : Packet) (s : State) : State :=
  match s.snapRefusal p with
  | .error (st, h) => reply p st h [] (take p s)
  | .ok r =>
    let s := take p s
    let v := le p.payload 4 4
    let ver := aget r.versions v {}
    let n := aget ver.opens p.src 0
    if n = 0 then reply p .denied 0 [] s else
    let s := modRegion r.id (fun r => { r with versions := aset r.versions v { ver with opens := aset ver.opens p.src (n - 1) } }) s
    reply p .ok 0 [] (releaseVersions r.id s)

/-- The meaning of `CLOSE`. -/
def execCloseVersion (p : Packet) (s : State) : Host.Outcome State Fault Refusal :=
  run (p.wf) (closeVersion { p with opcode := opCLOSE } s)

/-- `PUBLISH`. -/
def publish (p : Packet) (s : State) : State :=
  match s.snapRefusal p with
  | .error (st, h) => reply p st h [] (take p s)
  | .ok r =>
    let s := take p s
    if r.immutable then reply p .denied 0 [] s
    else if r.coh = 2 ∧ r.inTransfer then reply p .nackRetry 10 [] s
    else if r.coh = 2 ∧ p.src ≠ r.owner then reply p .nackNotOwner 0 [] s
    else if le p.payload 4 4 ≠ r.version then reply p .nackConflict 0 (natLe r.version 16) s
    else if 0xFFFFFFFE < r.version + 1 then reply p .denied 0 [] s
    else
      let v := r.version + 1
      let s := modRegion r.id (fun r => { r with version := v, versions := aset r.versions v { pages := r.working, lost := r.lostPages } }) s
      reply p .ok 0 (natLe v 16) (streamDirectory r.id false (releaseVersions r.id s))

/-- The meaning of `PUBLISH`. -/
def execPublish (p : Packet) (s : State) : Host.Outcome State Fault Refusal :=
  run (p.wf) (publish { p with opcode := opPUBLISH } s)

/-! ## Page moves and movers (R205, R217, R218) -/

/-- Copy one grain of a page to a frame, and check it there: a failing one of `IMMUTABLE` data comes from another
copy, or its page is refetched; the poison of any other kind goes with it (R205, R217). -/
def copyGrain (r : Region) (page : Nat) (ids : List Nat) (src dst g : Nat) (s : State) : State :=
  let x := s.takeGrain r ids src g
  let s := putGrain dst g x.1 x.2 s
  if s.grainGood r dst g then s else poisonGrain dst g (if r.immutable then refetch r page s else s)

/-- The flash page of a unit of a frame, from another frame of the page: the checks travel unchanged (R228). -/
def State.flashPage (s : State) (r : Region) (ids : List Nat) (src f k : Nat) : FlmPage :=
  let gs := (List.range 64).map (fun j => s.takeGrain r ids src (64 * k + j))
  { lua := 4 * f + k, saggar := r.saggar, enc := gs.any (·.2.enc), data := gs.flatMap (·.1), crcs := gs.map (·.2.crc)
    poison := (List.range 64).filter (fun j => (gs.getD j ([], {})).2.poison) }

/-- A page that moves takes its effective count, tagged with the destination tier's epoch (R209). -/
def retag (id page fromTier toTier : Nat) (s : State) : State :=
  let c := s.cEffOf (s.region id) page fromTier
  modRegion id (fun r => { r with counts := aset r.counts page (c, s.decayOf toTier % 16) }) s

/-- The switch that ends a move (R205): every list that named the source names the destination, the hold
lifts, the source is freed. An `IMMUTABLE` page keeps its lower copy (R206). -/
def finishMove (id : Nat) (m : PageMove) (s : State) : State :=
  let r := s.region id
  let keep := r.immutable && decide (s.frameTier m.dst < s.frameTier m.src)
  let swap (l : List Nat) : List Nat :=
    if l.contains m.src then (if keep then m.dst :: l else l.map (fun i => if i = m.src then m.dst else i)) else l
  let s := retag id m.page (s.frameTier m.src) (s.frameTier m.dst) s
  let s := modRegion id (fun r => { r with
    working := r.working.map (fun q => if q.1 = m.page then (q.1, swap q.2) else q)
    versions := r.versions.map (fun v => (v.1, { v.2 with pages := v.2.pages.map (fun q => if q.1 = m.page then (q.1, swap q.2) else q) }))
    moves := r.moves.erase m }) s
  if keep then s else freeUnheld [m.src] s

/-- A pass is over: another over the grains written meanwhile, the fourth holding writes, or the switch. -/
def endPass (id : Nat) (m : PageMove) (s : State) : State :=
  if m.written.isEmpty then finishMove id m s
  else modRegion id (fun r => { r with moves := r.moves.map (fun x => if x = m then
    { m with dirty := m.written, written := [], pass := m.pass + 1, held := m.held || decide (4 ≤ m.pass + 1) } else x) }) s

/-- The frames of a page in any list of a region. -/
def Region.allFrames (r : Region) (page : Nat) : List Nat :=
  (aget r.working page [] ++ r.versions.flatMap (fun v => aget v.2.pages page [])).eraseDups

/-- One copy pass (R205). Into flash it is a write of the units that hold dirty grains, over once that is acknowledged
(R226). -/
def movePass (id page : Nat) (s : State) : State :=
  let r := s.region id
  match r.moves.find? (fun m => m.page = page && m.node.isNone) with
  | none => s
  | some m =>
    let ids := r.allFrames page
    if s.frameTier m.dst ≠ 4 then endPass id m (forEach m.dirty (copyGrain r page ids m.src m.dst) s)
    else if m.write.isSome then s
    else if m.dirty.isEmpty then endPass id m s
    else
      let f := t4Frame m.dst
      match s.writeRefusal f r.saggar with
      | some _ => s
      | none =>
        let units := (m.dirty.map (· / 64)).eraseDups
        let m' := { m with dirty := [], write := some s.flm.nextWrite }
        let s := beginWrite f (units.map (s.flashPage r ids m.src f)) (some (id, page)) s
        modRegion id (fun r => { r with moves := r.moves.map (fun x => if x = m then m' else x) }) s

/-- Where the units of a T4 frame lie: die and block. -/
def State.unitBlocks (s : State) (f : Nat) : List (Nat × Nat) :=
  ((List.range 4).filterMap (fun k => (s.entry (4 * f + k)).pun.map (fun q => (q.1, q.2.1)))).eraseDups

/-- Start moving one page of the working list or of a version to a tier; nothing where it is already there, is being
moved, is pinned, or the tier has no frame. While T4 is short a demotion to it is refused (step T4.1). -/
def startMove (id page : Nat) (ver : Option Nat) (tier : Nat) (s : State) : State :=
  let r := s.region id
  match s.servingFrame (pageFrames r ver page) with
  | none => s
  | some src =>
    if s.frameTier src = tier ∨ r.moves.any (fun m => m.page = page) = true ∨ (polTiers r.tierPol).contains tier = false then s
    else if tier = 4 ∧ s.isShort 4 r.saggar = true then noteFallback r.saggar s
    else if tier = 4 ∧ (s.flm.st ≠ 3 ∨ s.wbufRoom = false) then s
    else match allocFrame tier r.saggar r page s with
    | none => s
    | some (dst, s) =>
      let blocks := match afind s.tie.frames src with | some fr => if fr.tier = 4 then s.unitBlocks fr.index else [] | none => []
      modRegion id (fun r => { r with moves := r.moves ++ [{ page := page, src := src, dst := dst, began := s.now, blocks := blocks }] }) s

/-- Movers reserved for class 3: the first `MOV_SITTER` (R218). -/
def State.reservedMover (s : State) (m : Nat) : Bool := decide (m < s.nodeParam 0x0203)

/-- The job a free mover takes: the lowest class number first, then arrival order (R218). -/
def State.nextJob (s : State) (m : Nat) : Option MoverJob :=
  let q := if s.reservedMover m then s.tie.queue.filter (fun j => j.cls = 3) else s.tie.queue
  (List.range 7).findSome? (fun c => q.find? (fun j => j.cls = c))

/-- A mover starts its next job: pages that move within the node begin their moves; pages for or from another node
travel in TC5. -/
def moverStart (m : Nat) (s : State) : State :=
  if ahas s.tie.movers m then s else
  match s.nextJob m with
  | none => s
  | some j =>
    let s := { s with tie := { s.tie with queue := s.tie.queue.erase j } }
    if j.remote then startRemote m j s
    else forEach (List.range j.count) (fun i s => startMove j.region (j.page + i) j.ver j.toTier s) (setRun m { job := j } s)

/-- The meaning of `MOVER_JOB_START`. -/
def execMoverJobStart (m : Nat) (s : State) : Host.Outcome State Fault Refusal :=
  run (decide (m < 32)) (moverStart m s)

/-- Whether a move belongs to a job. -/
def MoverJob.has (j : MoverJob) (v : PageMove) : Bool := decide (j.page ≤ v.page) && decide (v.page < j.page + j.count) && v.node.isNone

/-- A mover's job completes: its page moves have ended and the mover is free. One that waits for the flash or for
another node goes on. -/
def moverComplete (m : Nat) (s : State) : State :=
  match s.run? m with
  | none => s
  | some x =>
    if x.job.remote then
      (if x.job.count ≤ x.done ∧ x.todo.isEmpty = true ∧ x.tags.isEmpty = true then remoteOver m x s else remoteWork m x.job.fuel s)
    else
      let mine := fun (s : State) => (s.region x.job.region).moves.filter x.job.has
      let s := forEach (mine s) (fun v s =>
        if s.frameTier v.dst = 4 then movePass x.job.region v.page s
        else finishMove x.job.region v (forEach (v.dirty ++ v.written).eraseDups (fun g s =>
          copyGrain (s.region x.job.region) v.page ((s.region x.job.region).allFrames v.page) v.src v.dst g s) s)) s
      if (mine s).isEmpty then { s with tie := { s.tie with movers := aerase s.tie.movers m } } else s

/-! ## The tier manager (R209, R210, R219) -/

/-- The sweeper has rewritten every entry of a tier (R209): a held epoch rises. -/
def sweep (tier : Nat) (s : State) : State :=
  let e := s.decayOf tier
  let regions := s.tie.regions.map (fun q =>
    (q.1, { q.2 with counts := q.2.counts.map (fun c =>
      match s.servingFrame (aget q.2.working c.1 []) with
      | some id => if s.frameTier id = tier then (c.1, (cEff c.2.1 c.2.2 e, e % 16)) else c
      | none => c) }))
  let held := s.tie.hold.contains tier
  { s with tie := { s.tie with
      regions := regions
      swept := aset s.tie.swept tier e
      decay := if held then aset s.tie.decay tier (e + 1) else s.tie.decay
      hold := s.tie.hold.filter (· ≠ tier) } }

/-- The meaning of `SWEEPER_PASS`. -/
def execSweeperPass (tier : Nat) (s : State) : Host.Outcome State Fault Refusal :=
  run (decide (tier < 5)) (sweep tier s)

/-- `PROMOTE_AT` and `DEMOTE_BELOW` of a boundary (R210). -/
def State.thresholds (s : State) (g : Nat) (upper : Nat) : Nat × Nat :=
  if upper = 2 then aget s.tie.th23 g (0x040, 0x008) else aget s.tie.th34 g (0x040, 0x008)

/-- Promotion of a page across its boundary by rules 1 and 2 of R210, queued as class 5; a demotion
that makes room is class 4. -/
def tierPromote (id page : Nat) (s : State) : State :=
  let r := s.region id
  match s.servingFrame (aget r.working page []) with
  | none => s
  | some fr =>
    let tier := s.frameTier fr
    let up := tier - 1
    if tier < 3 ∨ (polTiers r.tierPol).contains up = false then s else
    let th := s.thresholds r.saggar up
    if s.cEffOf r page tier < th.1 then s else
    if s.reserveIn up r.saggar < s.freeIn up r.saggar then
      enqueueMove { cls := 5, region := id, page := page, toTier := up, saggar := r.saggar } s
    else match coldest ((s.demotable up r.saggar).filter (fun d => decide (d.2.2 < th.2))) with
      | none => s
      | some d => enqueueMove { cls := 4, region := d.1, page := d.2.1, toTier := up + 1, saggar := r.saggar } s

/-- The meaning of `TIER_PROMOTE`. -/
def execTierPromote (region page : Nat) (s : State) : Host.Outcome State Fault Refusal :=
  run (decide (region < 2 ^ 32) && decide (page < 2 ^ 31)) (tierPromote region page s)

/-- A tier is short: steps 1 and 2 of the fallback order (R219). The other steps are taken where a request meets the
short tier. -/
def tierShort (g tier : Nat) (s : State) : State := relieve tier g s

/-- The meaning of `TIER_SHORT`. -/
def execTierShort (g tier : Nat) (s : State) : Host.Outcome State Fault Refusal :=
  run (decide (g < 64) && decide (tier < 5)) (if 2 ≤ tier then tierShort g tier s else s)

/-- The value a write leaves in a threshold register (R210). -/
def thresholdNext (old : Nat × Nat) (v : Word32) : Nat × Nat :=
  let pr := bits v.toNat 0 12
  let dm := bits v.toNat 12 12
  if dm < pr then (pr, dm) else old

/-- Write `TIE_TH23` or `TIE_TH34`. -/
def writeThreshold (g : Nat) (upper34 : Bool) (v : Word32) (s : State) : State :=
  if upper34 then { s with tie := { s.tie with th34 := aset s.tie.th34 g (thresholdNext (s.thresholds g 3) v) } }
  else { s with tie := { s.tie with th23 := aset s.tie.th23 g (thresholdNext (s.thresholds g 2) v) } }

/-! ## Memory units (R193 to R195, R220) -/

/-- Only the control plane or the management controller lifts a fence (R20). -/
def mayUnfence : Who → Bool
  | .management => true
  | .control => true
  | _ => false

/-- Fence a memory unit with a cause: every frame on it is lost (R220). -/
def fenceMemory (u : MemUnit) (cause : Nat) (s : State) : State :=
  match u with
  | .ddr c =>
    loseFrames (fun f => f.tier = 3 && f.unit = c)
      { s with tie := { s.tie with ddr := aset s.tie.ddr c { s.ddr c with fence := { on := true, cause := cause } } } }
  | .hbm k =>
    loseFrames (fun f => f.tier = 2 && f.unit / 64 = k)
      { s with tie := { s.tie with hbm := aset s.tie.hbm k { s.hbm k with fence := { on := true, cause := cause } } } }
  | .hbmPc k c =>
    let h := s.hbm k
    loseFrames (fun f => f.tier = 2 && f.unit = 64 * k + c)
      { s with tie := { s.tie with hbm := aset s.tie.hbm k { h with pcFenced := (c :: h.pcFenced.filter (· ≠ c)) } } }

/-- Lift the fence of a memory unit that has trained. -/
def unfenceMemory (u : MemUnit) (s : State) : State :=
  match u with
  | .ddr c => if (s.ddr c).trained then
      { s with tie := { s.tie with ddr := aset s.tie.ddr c { s.ddr c with fence := {} } } } else s
  | .hbm k => if (s.hbm k).trained then
      { s with tie := { s.tie with hbm := aset s.tie.hbm k { s.hbm k with fence := {} } } } else s
  | .hbmPc k c => { s with tie := { s.tie with
      hbm := aset s.tie.hbm k { s.hbm k with pcFenced := (s.hbm k).pcFenced.filter (· ≠ c) } } }

/-- The meaning of `MEMORY_CHANNEL_UNFENCE`. -/
def execMemoryChannelUnfence (who : Who) (u : MemUnit) (s : State) : Host.Outcome State Fault Refusal :=
  run (who.wf && u.wf) (if mayUnfence who then unfenceMemory u s else s)

/-- The temperature read of every stack, at every 2^20 SCLK cycles (R193). -/
def hbmTemps (temps : List Nat) (s : State) : State :=
  let s := carry (s.nextMultiple (sclk (2 ^ 20))) s
  forEach ((List.range (min temps.length s.variant.stacks)).map (fun k => (k, temps.getD k 0)))
    (fun x s => { s with tie := { s.tie with hbm := aset s.tie.hbm x.1 { s.hbm x.1 with temp := x.2 % 256 } } }) s

/-- The meaning of `HBM_TEMP_READ`. -/
def execHbmTempRead (temps : List Nat) (s : State) : Host.Outcome State Fault Refusal :=
  run true (hbmTemps temps s)

/-- HBM training ends: a stack that passes is in service but for its failed pseudo-channels; one that
fails stays fenced, cause 0x3 (R193). The stacks of a fenced die, and every stack while the HBM rails are off, stay
fenced whatever the report (R575, R587). -/
def hbmTrained (k : Nat) (pass : Bool) (failed : List Nat) (s : State) : State :=
  if s.variant.stacks ≤ k || s.erc.adFenced.getD (k / 2) false || s.pkg.skipHbm then s else
  let h := s.hbm k
  let h' := if pass then { h with trained := true, fence := {}, pcFenced := (failed.filter (· < 64)).eraseDups }
    else { h with trained := false, fence := { on := true, cause := 3 } }
  { s with tie := { s.tie with hbm := aset s.tie.hbm k h' } }

/-- The meaning of `HBM_TRAINING_DONE`. -/
def execHbmTrainingDone (k : Nat) (pass : Bool) (failed : List Nat) (s : State) : Host.Outcome State Fault Refusal :=
  run (decide (k < 8)) (hbmTrained k pass failed s)

/-- The configurations of R194: MRDIMM 8,800 with one DIMM or 6,400 with two, RDIMM 6,400; DIMMs of at
most 256 GiB. -/
def dramSupported (d : DramReport) : Bool :=
  ((d.mrdimm && (d.dpc = 1) && (d.rate = 88)) || (d.mrdimm && (d.dpc = 2) && (d.rate = 64))
    || (!d.mrdimm && (d.dpc = 1 || d.dpc = 2) && (d.rate = 64))) && decide (d.capGib ≤ 256 * d.dpc)

/-- DRAM training ends (R195): a channel whose SPD differs, whose modules lack check bits or that fails
training stays out of service, cause 0x3, with `DDR_CH_OUT`. -/
def dramTrained (c : Nat) (d : DramReport) (s : State) : State :=
  let why := if !d.spdMatches || !dramSupported d then some 1 else if !d.checkBits then some 2 else if !d.trained then some 3 else none
  match why with
  | none => { s with tie := { s.tie with
      ddr := aset s.tie.ddr c { fence := {}, rate := d.rate, dpc := d.dpc, mrdimm := d.mrdimm, trained := true, capGib := d.capGib } } }
  | some w => logEvent 0x0401 c none [w]
      { s with tie := { s.tie with
        ddr := aset s.tie.ddr c { s.ddr c with fence := { on := true, cause := 3 }, trained := false } } }

end Sys2Proof.Machine
end

