-- ==== Sys2Proof/Machine/Transfer.lean ====
section
/-! DEFINITION. Runs of bytes a unit moves over the fabric in packets of at most 512 bytes, within its
limit of outstanding requests and one change per grain (R250, R342, R358). -/

namespace Sys2Proof.Machine

/-- A fabric address: node in [63:48], offset below. -/
def addrNode (a : Nat) : Nat := a / 2 ^ 48 % 65536
def addrOff (a : Nat) : Nat := a % 2 ^ 48

/-- A read of `len` bytes at a fabric address. -/
def xferRead (a len g cls : Nat) : Xfer := { node := addrNode a, off := addrOff a, len := len, saggar := g, cls := cls, data := zeros len }

/-- A write of bytes to a fabric address. -/
def xferWrite (a : Nat) (data : List Byte) (g cls : Nat) : Xfer :=
  { node := addrNode a, off := addrOff a, len := data.length, saggar := g, cls := cls, write := true, data := data }

/-- Everything issued has been answered, and nothing more is to be issued. -/
def Xfer.ended (x : Xfer) : Bool := x.tags.isEmpty && (x.failed.isSome || decide (x.len ≤ x.next))

/-- Bytes of the next packet: to the end, at most 512. -/
def Xfer.chunk (x : Xfer) : Nat := min 512 (x.len - x.next)

/-- The next packet; lengths are multiples of 8 bytes (R330), so a shorter last piece is padded. -/
def Xfer.packet (x : Xfer) : Packet :=
  let n := x.chunk
  let bs := pad8 (sub x.data x.next n)
  if x.write then
    { dst := x.node, opcode := opWRITE, saggar := x.saggar, offset := x.off + x.next, cls := x.cls, length := bs.length,
      payload := bs, trailer := trailerOf (x.off + x.next) bs }
  else { dst := x.node, opcode := opREAD, saggar := x.saggar, offset := x.off + x.next, cls := x.cls, length := ceilDiv n 8 * 8 }

/-- Issue packets while the requester may send; `fuel` bounds their number. -/
def pump (q : Requester) : Nat → Xfer → State → Xfer × State
  | 0, x, s => (x, s)
  | fuel + 1, x, s =>
    if x.failed.isSome || decide (x.len ≤ x.next) || !s.maySend q x.node x.saggar
        || (x.write && s.grainHeld q x.node (x.off + x.next)) then (x, s)
    else
      let t := s.nextTag
      pump q fuel { x with tags := x.tags ++ [(t, x.next, x.chunk)], next := x.next + x.chunk } (issue q x.packet s)

/-- Start or go on with a transfer. -/
def pumpAll (q : Requester) (x : Xfer) (s : State) : Xfer × State := pump q (x.len / 512 + 2) x s

/-- Take an answer: data lands at its position, a failure ends the issue of further packets. -/
def Xfer.answer (x : Xfer) (tag code : Nat) (data : List Byte) : Xfer :=
  match x.tags.find? (fun t => t.1 = tag) with
  | none => x
  | some (_, pos, n) =>
    let x := { x with tags := x.tags.filter (fun t => t.1 ≠ tag) }
    if code = Status.ok.code ∨ code = Status.okSuperseded.code then
      if x.write then x else { x with data := overlay x.data pos (data.take n) }
    else { x with failed := some (x.failed.getD code) }

/-- Whether a transfer waits for a tag. -/
def Xfer.has (x : Xfer) (tag : Nat) : Bool := x.tags.any (fun t => t.1 = tag)

/-- The status of a failure code, a timeout counting as `NACK_UNKNOWN` to the unit's caller. -/
def failStatus (code : Nat) : Status := (Status.ofCode code).getD .nackUnknown

end Sys2Proof.Machine
end

