-- ==== Sys2Proof/Machine/Codec.lean ====
section
/-! DEFINITION. The compression codec (chapter 09): frequency tables, rANS coding, blocks, jobs, engines
and fences. -/

namespace Sys2Proof.Machine

/-! ## Frequencies (R254) -/

/-- Index of the largest value, ties to the lowest index. -/
def argmax (l : List Nat) : Nat :=
  (l.foldl (fun (st : Nat × Nat × Nat) v => if st.2.2 < v then (st.1 + 1, st.1, v) else (st.1 + 1, st.2.1, st.2.2)) (0, 0, 0)).2.1

def sumNat (l : List Nat) : Nat := l.foldl (· + ·) 0

/-- Lower the largest frequency until they sum to 4,096. -/
def lowerTo : Nat → List Nat → List Nat
  | 0, f => f
  | fuel + 1, f => if 4096 < sumNat f then lowerTo fuel (let i := argmax f; f.set i (f.getD i 0 - 1)) else f

/-- The frequencies of the counts of `n` bytes. -/
def frequencies (c : List Nat) (n : Nat) : List Nat :=
  let f := c.map (fun v => if v = 0 then 0 else max 1 (v * 4096 / n))
  let f := lowerTo 4096 f
  let i := argmax c
  f.set i (f.getD i 0 + (4096 - sumNat f))

/-- How often each byte value occurs. -/
def byteCounts (bs : List Byte) : List Nat :=
  bs.foldl (fun c b => c.set b.toNat (c.getD b.toNat 0 + 1)) (List.replicate 256 0)

/-- Cumulative frequencies below each symbol. -/
def cumulative (f : List Nat) : List Nat := (f.foldl (fun (st : Nat × List Nat) v => (st.1 + v, st.2 ++ [st.1])) (0, [])).2

/-! ## Table objects (R255) -/

/-- The 576 bytes of a table object. -/
def tableObject (f : List Nat) : List Byte :=
  let freq := f.flatMap (fun v => natLe v 2)
  natLe 0x54424C43 4 ++ natLe 1 1 ++ natLe 12 1 ++ zeros 26 ++ digest freq ++ freq

def tableFreq (o : List Byte) : List Nat := (List.range 256).map (fun i => le o (64 + 2 * i) 2)
def tableDigest (o : List Byte) : List Byte := sub o 32 32

/-- A valid table object. -/
def tableValid (o : List Byte) : Bool :=
  (le o 0 4 = 0x54424C43) && (le o 4 1 = 1) && (sumNat (tableFreq o) = 4096) && (tableDigest o = digest (sub o 64 512))

/-! ## rANS (R259, R260) -/

/-- Emit renormalisation bytes while the state is too large; at most three. -/
def renorm (f : Nat) : Nat → Nat → List Byte → Nat × List Byte
  | 0, x, e => (x, e)
  | fuel + 1, x, e => if f * 2 ^ 19 ≤ x then renorm f fuel (x / 256) (e ++ [BitVec.ofNat 8 x]) else (x, e)

/-- One encoder step. -/
def encStep (f cum : List Nat) (st : Nat × List Byte) (b : Byte) : Nat × List Byte :=
  let fs := f.getD b.toNat 1
  let (x, e) := renorm fs 4 st.1 st.2
  (x / fs * 4096 + x % fs + cum.getD b.toNat 0, e)

/-- The payload of a block: encoded from the last byte to the first. -/
def ransEncode (f : List Nat) (raw : List Byte) : List Byte :=
  let (x, e) := raw.reverse.foldl (encStep f (cumulative f)) (2 ^ 23, [])
  natLe x 4 ++ e.reverse

/-- The symbol of a slot. -/
def symbolOf (f cum : List Nat) (slot : Nat) : Nat :=
  ((List.range 256).find? (fun i => cum.getD i 0 ≤ slot ∧ slot < cum.getD i 0 + f.getD i 0)).getD 0

/-- Refill the state from the payload; none when it ends too soon. -/
def refill : Nat → Nat → List Byte → Option (Nat × List Byte)
  | 0, x, p => some (x, p)
  | fuel + 1, x, p =>
    if x < 2 ^ 23 then match p with
      | [] => none
      | b :: r => refill fuel (x * 256 + b.toNat) r
    else some (x, p)

/-- Decode `n` symbols; a damage cause of R263 otherwise. -/
def ransLoop (f cum : List Nat) : Nat → Nat → List Byte → List Byte → Except Nat (List Byte)
  | 0, x, p, acc => if !p.isEmpty then .error 7 else if x ≠ 2 ^ 23 then .error 8 else .ok acc.reverse
  | n + 1, x, p, acc =>
    let slot := x % 4096
    let sym := symbolOf f cum slot
    match refill 4 (f.getD sym 0 * (x / 4096) + slot - cum.getD sym 0) p with
    | none => .error 6
    | some (x, p) => ransLoop f cum n x p (BitVec.ofNat 8 sym :: acc)

/-- The raw bytes of a payload. -/
def ransDecode (f : List Nat) (payload : List Byte) (n : Nat) : Except Nat (List Byte) :=
  let x := le payload 0 4
  if x < 2 ^ 23 ∨ 2 ^ 31 ≤ x then .error 5 else ransLoop f (cumulative f) n x (payload.drop 4) []

/-! ## Blocks (R262, R263) -/

/-- A block's 32-byte header. -/
def blockHeader (isRaw : Bool) (table raw comp : Nat) (dig : List Byte) (rawBytes : List Byte) : List Byte :=
  let h := natLe 0x4342 2 ++ natLe 1 1 ++ natLe (b2n isRaw) 1 ++ natLe table 2 ++ zeros 2 ++ natLe raw 4 ++ natLe comp 4
    ++ fit dig 8 ++ natLe (crc32c rawBytes).toNat 4
  h ++ natLe (crc32c h).toNat 4

/-- Encode one block: header and payload, and whether it is raw (R262). -/
def encodeBlock (tmode table : Nat) (tab : List Byte) (raw : List Byte) : List Byte × Bool :=
  let f := tableFreq tab
  let codable := tmode ≠ 2 && raw.all (fun b => decide (0 < f.getD b.toNat 0))
  let p := if codable then ransEncode f raw else []
  if codable && decide (p.length < raw.length) then
    (blockHeader false table raw.length p.length (sub (tableDigest tab) 0 8) raw ++ p, false)
  else (blockHeader true 0 raw.length raw.length [] raw ++ raw, true)

/-- A list cut into pieces of `n` bytes, the last taking the remainder; `fuel` bounds the pieces. -/
def splitEvery (n : Nat) : Nat → List Byte → List (List Byte)
  | 0, _ => []
  | fuel + 1, bs => if bs.isEmpty then [] else bs.take n :: splitEvery n fuel (bs.drop n)

/-- What decoding a run of blocks gives. -/
structure Decoded where
  out : List Byte := []
  blocks : Nat := 0
  raw : Nat := 0
  firstBad : Nat := 0xFFFF
  cause : Nat := 0
  /-- Bytes of the damaged block whose value in the destination is undefined (R263). -/
  badBytes : Nat := 0
  deriving DecidableEq, Repr

/-- Check and decode one block at the head of a source: raw bytes, bytes used, whether raw; or a cause
(R263). `usable` says whether the job's table stands (R257), `total` what the source still holds. -/
def decodeBlock (table : Nat) (tab : Option (List Byte)) (src : List Byte) (room : Nat) : Except Nat (List Byte × Nat × Bool) :=
  let h := sub src 0 32
  let isRaw := bit (le h 3 1) 0
  let raw := le h 8 4
  let comp := le h 12 4
  let zeroOk := le h 3 1 < 2 && (le h 6 2 = 0) && (!isRaw || (sub h 16 8).all (· = 0))
  if h.length < 32 then .error 4
  else if le h 0 2 ≠ 0x4342 ∨ le h 2 1 ≠ 1 ∨ !zeroOk ∨ (crc32c (sub h 0 28)).toNat ≠ le h 28 4 then .error 1
  else if (if isRaw then le h 4 2 ≠ 0 else (le h 4 2 ≠ table ∨ tab = none)) then .error 2
  else if !isRaw && (sub h 16 8 ≠ sub (tableDigest (tab.getD [])) 0 8) then .error 3
  else if raw = 0 ∨ 65536 < raw ∨ (isRaw = true ∧ comp ≠ raw) ∨ (isRaw = false ∧ (comp < 4 ∨ raw ≤ comp)) ∨ src.length < 32 + comp ∨ room < raw then .error 4
  else
    let payload := sub src 32 comp
    match (if isRaw then .ok payload else ransDecode (tableFreq (tab.getD [])) payload raw) with
    | .error c => .error c
    | .ok bs => if (crc32c bs).toNat ≠ le h 24 4 then .error 9 else .ok (bs, 32 + comp, isRaw)

/-- Decode `n` blocks back to back; they shall use the source exactly (R251, R263). -/
def decodeBlocks (table : Nat) (tab : Option (List Byte)) (cap : Nat) : Nat → List Byte → Decoded → Decoded
  | 0, src, d => if src.isEmpty then d else { d with firstBad := d.blocks - 1, cause := 4 }
  | n + 1, src, d =>
    match decodeBlock table tab src (cap - d.out.length) with
    | .error c => { d with firstBad := d.blocks, cause := c, badBytes := min (if le src 8 4 ≤ 65536 then le src 8 4 else 0) (cap - d.out.length) }
    | .ok (bs, used, isRaw) =>
      decodeBlocks table tab cap n (src.drop used) { d with out := d.out ++ bs, blocks := d.blocks + 1, raw := d.raw + b2n isRaw }

/-! ## Engines (R266) -/

def State.engine (s : State) (e : Nat) : CdcEngine := aget s.cdc.eng e {}
def modEngine (e : Nat) (f : CdcEngine → CdcEngine) (s : State) : State := { s with cdc := { s.cdc with eng := amod s.cdc.eng e {} f } }

/-- Descriptor words of a job's call (R250). -/
def CdcJob.word (j : CdcJob) (i : Nat) : Nat := le (callArgs j.call) (8 * i) 8
def CdcJob.op (j : CdcJob) : Nat := bits (j.word 0) 0 8
def CdcJob.tmode (j : CdcJob) : Nat := bits (j.word 0) 8 2
def CdcJob.bsize (j : CdcJob) : Nat := match bits (j.word 0) 10 2 with | 0 => 4096 | 1 => 16384 | _ => 65536
def CdcJob.table (j : CdcJob) : Nat := bits (j.word 0) 16 16
def CdcJob.srcLen (j : CdcJob) : Nat := bits (j.word 0) 32 21
def CdcJob.dstCap (j : CdcJob) : Nat := bits (j.word 3) 0 32
def CdcJob.tRegion (j : CdcJob) : Nat := bits (j.word 3) 32 32
def CdcJob.tPage (j : CdcJob) : Nat := bits (j.word 4) 0 32
def CdcJob.nBlocks (j : CdcJob) : Nat := bits (j.word 4) 32 16
/-- The job names a table whose users it counts among. -/
def CdcJob.usesTable (j : CdcJob) : Bool := j.table ≠ 0 && !(j.op = 1 && j.tmode = 2)

def State.queueBytes (s : State) (e : Nat) : Nat := (s.engine e).queue.foldl (fun n j => n + j.srcLen) 0

/-- The unfenced engine with room and the most free queue bytes, ties to the lowest number (R266). -/
def State.pickEngine (s : State) (len : Nat) : Option Nat :=
  let ok := (List.range 8).filter (fun e => !(s.engine e).fence.on && decide ((s.engine e).queue.length < 64) && decide (s.queueBytes e + len ≤ 2 ^ 22))
  ok.foldl (fun b e => match b with
    | none => some e
    | some x => if s.queueBytes e < s.queueBytes x then some e else some x) none

/-- Place a job on an engine: its whole source is read into the queue. -/
def placeJob (e : Nat) (j : CdcJob) (s : State) : State :=
  let j := { j with rd := xferRead (j.word 1) j.srcLen j.call.saggar 5, started := false, wr := none }
  let (rd, s) := pumpAll (.codec e) j.rd s
  modEngine e (fun x => { x with queue := x.queue ++ [{ j with rd := rd }] }) s

/-! ## The table directory (R256, R257) -/

def State.cdcTable (s : State) (g id : Nat) : CdcTable := aget s.cdc.tables (g, id) {}
def setTable (g id : Nat) (t : CdcTable) (s : State) : State := { s with cdc := { s.cdc with tables := aset s.cdc.tables (g, id) t } }

/-- A page of an `IMMUTABLE` region of a saggar at this home. -/
def State.tablePage (s : State) (g region page : Nat) : Option Region :=
  match afind s.tie.regions region with
  | some r => if r.saggar = g ∧ r.immutable = true ∧ page < r.pages then some r else none
  | none => none

/-- Read the table object of a page; none while the page is on its way from the flash. -/
def readTable (r : Region) (page : Nat) (s : State) : Option (Option (List Byte)) × State :=
  match readRegion r none (page * pageBytes) 576 s with
  | (.data bs, s) => (some (some bs), s)
  | (.poison, s) => (some none, s)
  | (_, s) => (none, s)

/-- The table a job may code with: bound, present, valid, with the directory's digest (R257); otherwise
the damage cause. None while its page is on its way. -/
def usableTable (g id : Nat) (s : State) : Option (Except Nat (List Byte)) × State :=
  let t := s.cdcTable g id
  match (if t.bound then s.tablePage g t.region t.page else none) with
  | none => (some (.error 2), s)
  | some r =>
    match readTable r t.page s with
    | (none, s) => (none, s)
    | (some none, s) => (some (.error 2), s)
    | (some (some o), s) => (some (if !tableValid o then .error 2 else if tableDigest o ≠ t.digest then .error 3 else .ok o), s)

/-- Another ID of the saggar is bound to a page. -/
def State.pageBoundElse (s : State) (g id region page : Nat) : Bool :=
  s.cdc.tables.any (fun p => p.1.1 = g && p.1.2 ≠ id && p.2.bound && p.2.region = region && p.2.page = page)

/-! ## Acceptance (R253) -/

/-- The job result of R252. -/
def CdcJob.result (j : CdcJob) : List Byte :=
  natLe j.written 4 ++ natLe j.blocks 2 ++ natLe j.raw 2 ++ natLe j.firstBad 2 ++ natLe j.cause 1 ++ zeros 5

/-- Rows 1 to 7 of R253 for a job of operation `op`. -/
def State.jobRefusal (s : State) (j : CdcJob) (op : Nat) : Option (Status × Nat) :=
  let g := j.call.saggar
  let w0 := j.word 0
  let w4 := j.word 4
  let t := s.cdcTable g j.table
  let build := op = 1 && j.tmode = 1
  let blocks := ceilDiv j.srcLen j.bsize
  if s.sagConf g then some (.denied, 0)
  else if (callArgs j.call).length ≠ 40 ∨ j.op ≠ op ∨ bits w0 12 4 ≠ 0 ∨ bits w0 53 11 ≠ 0 ∨ bits w4 48 16 ≠ 0
      ∨ (op = 1 ∧ (j.tmode = 3 ∨ bits w0 10 2 = 3)) ∨ j.srcLen = 0 ∨ 2 ^ 20 < j.srcLen
      ∨ (op = 2 ∧ (j.nBlocks = 0 ∨ 256 < j.nBlocks)) ∨ (j.table = 0 ∧ ¬ (op = 1 ∧ j.tmode = 2)) then some (.denied, 0)
  else if op = 1 ∧ j.dstCap < j.srcLen + 32 * blocks then some (.denied, 0)
  else if ((op = 1 ∧ j.tmode = 0) ∨ op = 2) ∧ !t.bound then some (.damaged, 0)
  else if build && ((match s.tablePage g j.tRegion j.tPage with | some r => r.sealed_ | none => true)
      || s.pageBoundElse g j.table j.tRegion j.tPage || decide (s.sagParam g 0x030C < j.table)) then some (.denied, 0)
  else if build && decide (0 < t.users) then some (.nackRetry, 14)
  else match s.pickEngine j.srcLen with
    | none => some (.nackRetry, if (List.range 8).all (fun e => (s.engine e).fence.on) then 14 else 12)
    | some _ => none

/-- Accept a job (R253): its table gains a user, and it is placed. -/
def codecJob (p : Packet) (proc op : Nat) (s : State) : State :=
  serveProc p proc (fun s =>
    let j : CdcJob := { id := s.cdc.nextJob, call := p }
    match s.jobRefusal j op with
    | some (st, h) => if st = .damaged then reply p st 0 (rptResult 0 { j with cause := 2 }.result) s else reply p st h [] s
    | none =>
      let s := { s with cdc := { s.cdc with nextJob := s.cdc.nextJob + 1 } }
      let t := s.cdcTable p.saggar j.table
      let s := if j.usesTable then setTable p.saggar j.table { t with users := t.users + 1 } s else s
      match s.pickEngine j.srcLen with
      | some e => placeJob e j s
      | none => s) s

/-- The meaning of `CODEC_ENCODE`. -/
def execCodecEncode (p : Packet) (s : State) : Host.Outcome State Fault Refusal :=
  run (p.wf) (codecJob p 0xFF4 1 s)

/-- The meaning of `CODEC_DECODE`. -/
def execCodecDecode (p : Packet) (s : State) : Host.Outcome State Fault Refusal :=
  run (p.wf) (codecJob p 0xFF5 2 s)

/-- Bind an ID to a page that holds a valid table object (R256); no answer while the page is on its way. -/
def bindTable (g id region page : Nat) (s : State) : Option (Status × Nat) × State :=
  let t := s.cdcTable g id
  if id = 0 ∨ s.sagParam g 0x030C < id then (some (.denied, 0), s)
  else if 0 < t.users then (some (.nackRetry, 14), s)
  else match s.tablePage g region page with
    | none => (some (.denied, 0), s)
    | some r =>
      match readTable r page s with
      | (none, s) => (none, s)
      | (some none, s) => (some (.denied, 0), s)
      | (some (some o), s) =>
        if tableValid o then (some (.ok, 0), setTable g id { bound := true, region := region, page := page, digest := tableDigest o, users := 0 } s)
        else (some (.denied, 0), s)

/-- The meaning of `CODEC_BIND`. -/
def execCodecBind (p : Packet) (s : State) : Host.Outcome State Fault Refusal :=
  run (p.wf) (serveProc p 0xFF6 (fun s =>
    let a := callArgs p
    if a.length < 12 then reply p .denied 0 [] s else
    match bindTable p.saggar (le a 0 2) (le a 4 4) (le a 8 4) s with
    | (none, s) => wait p s
    | (some (.ok, _), s) => reply p .ok 0 (rptResult 0 []) s
    | (some (st, h), s) => reply p st h [] s) s)

/-- The meaning of `CODEC_UNBIND`: only while the ID has no users (R256). -/
def execCodecUnbind (p : Packet) (s : State) : Host.Outcome State Fault Refusal :=
  run (p.wf) (serveProc p 0xFF7 (fun s =>
    let id := le (callArgs p) 0 2
    let t := s.cdcTable p.saggar id
    if (callArgs p).length < 2 ∨ id = 0 ∨ s.sagParam p.saggar 0x030C < id then reply p .denied 0 [] s
    else if 0 < t.users then reply p .nackRetry 14 [] s
    else reply p .ok 0 (rptResult 0 []) { s with cdc := { s.cdc with tables := aerase s.cdc.tables (p.saggar, id) } }) s)

/-! ## Running a job (R254 to R264) -/

/-- Pass 1 of a `BUILD`: the table object is written to its page and bound before pass 2 (R256); none while the page
cannot be written. -/
def buildTable (j : CdcJob) (src : List Byte) (s : State) : Option (List Byte) × State :=
  let o := tableObject (frequencies (byteCounts src) src.length)
  let t := s.cdcTable j.call.saggar j.table
  let bind := setTable j.call.saggar j.table { bound := true, region := j.tRegion, page := j.tPage, digest := tableDigest o, users := t.users }
  match s.tablePage j.call.saggar j.tRegion j.tPage with
  | none => (some o, s)
  | some r =>
    match writeRegion r (j.tPage * pageBytes) (o ++ zeros (pageBytes - 576)) s with
    | (.done, s) => (some o, bind s)
    | (_, s) => (none, s)

/-- The table of a job (R254 to R257): built, found in the directory, or none needed. -/
def jobTable (j : CdcJob) (s : State) : Option (Except Nat (List Byte)) × State :=
  if j.op = 1 ∧ j.tmode = 2 then (some (.ok []), s)
  else if j.op = 1 ∧ j.tmode = 1 then
    match buildTable j j.rd.data s with
    | (o, s) => (o.map .ok, s)
  else usableTable j.call.saggar j.table s

/-- Run a job on its source with its table: the bytes to write and the job with its result fields. -/
def runJob (j : CdcJob) (tab : Except Nat (List Byte)) (s : State) : List Byte × CdcJob × State :=
  let src := j.rd.data
  if j.op = 1 then
    match tab with
    | .error c => ([], { j with status := .damaged, cause := c }, s)
    | .ok o =>
      let bs := (splitEvery j.bsize 257 src).map (encodeBlock j.tmode j.table o)
      let out := bs.flatMap (·.1)
      (out, { j with written := out.length, blocks := bs.length, raw := countIf bs (·.2), rawBytes := src.length }, s)
  else
    let d := match tab with
      | .ok o => decodeBlocks j.table (some o) j.dstCap j.nBlocks src {}
      | .error c => { firstBad := 0, cause := c }
    let bad := d.firstBad ≠ 0xFFFF
    let j := { j with written := d.out.length, blocks := d.blocks, raw := d.raw, firstBad := d.firstBad, cause := d.cause,
                      rawBytes := d.out.length, status := if bad then .damaged else .ok }
    let (junk, s) := drawBytes d.badBytes s
    (d.out ++ junk, j, s)

/-- A job at the front of its queue starts once its source is read and its table is at hand (R257); a source that failed ends it,
a poisoned one as `POISON` (R250, R264). -/
def jobStart (e : Nat) (s : State) : State :=
  match (s.engine e).queue with
  | [] => s
  | j :: rest =>
    if (s.engine e).fence.on ∨ j.started ∨ !j.rd.ended then s else
    match j.rd.failed with
    | some c =>
      let s := when_ (c = Status.poison.code) (bumpSat (satCdcPoisonIn e)) s
      modEngine e (fun x => { x with queue := { j with started := true, status := failStatus c } :: rest }) s
    | none =>
      match jobTable j s with
      | (none, s) => s
      | (some tab, s) =>
        match runJob j tab s with
        | (out, j, s) =>
          let s := bumpCtr (if j.op = 1 then ctrCdcEnc e else ctrCdcDec e) j.rawBytes s
          let (w, s) := pumpAll (.codec e) (xferWrite (j.word 2) out j.call.saggar 5) s
          modEngine e (fun x => { x with queue := { j with started := true, wr := some w } :: rest }) s

/-- The meaning of `CODEC_JOB_START`. -/
def execCodecJobStart (e : Nat) (s : State) : Host.Outcome State Fault Refusal :=
  run (decide (e < 8)) (jobStart e s)

/-- An engine has found a damaged block (R263, R265). -/
def noteDamaged (e g block cause table : Nat) (s : State) : State :=
  logEvent 0x0501 e (some g) [block, cause, table] (bumpSat (satCdcDamaged e) s)

/-- A job whose output is written returns its result (R252); its table loses a user. -/
def jobComplete (e : Nat) (s : State) : State :=
  match (s.engine e).queue with
  | [] => s
  | j :: rest =>
    let ended := match j.wr with | some w => w.ended | none => true
    if !j.started ∨ !ended then s else
    let t := s.cdcTable j.call.saggar j.table
    let s := if j.usesTable then setTable j.call.saggar j.table { t with users := t.users - 1 } s else s
    let s := modEngine e (fun x => { x with queue := rest }) s
    let s := when_ (j.op = 2 && j.status = .damaged) (noteDamaged e j.call.saggar j.firstBad j.cause j.table) s
    match j.wr.bind (·.failed) with
    | some c => reply j.call (failStatus c) 0 [] s
    | none =>
      if j.status = .ok ∨ j.status = .damaged then reply j.call j.status 0 (rptResult 0 j.result) s
      else reply j.call j.status 0 [] s

/-- The meaning of `CODEC_JOB_COMPLETE`. -/
def execCodecJobComplete (e : Nat) (s : State) : Host.Outcome State Fault Refusal :=
  run (decide (e < 8)) (jobComplete e s)

/-- An answer to a codec engine's packet. -/
def codecAnswer (e tag code : Nat) (data : List Byte) (s : State) : State :=
  let step := fun (j : CdcJob) => { j with rd := j.rd.answer tag code data, wr := j.wr.map (fun w => w.answer tag code data) }
  let s := modEngine e (fun x => { x with queue := x.queue.map step }) s
  forEach (s.engine e).queue (fun j s =>
    let (rd, s) := if j.rd.ended then (j.rd, s) else pumpAll (.codec e) j.rd s
    let (wr, s) := match j.wr with
      | some w => (if w.ended then (some w, s) else match pumpAll (.codec e) w s with | (w, s) => (some w, s))
      | none => (none, s)
    modEngine e (fun x => { x with queue := x.queue.map (fun k => if k.id = j.id then { k with rd := rd, wr := wr } else k) }) s) s

/-! ## Fences (R268) -/

/-- Give waiting jobs to engines with room. -/
def placeHomeless (s : State) : State :=
  forEach s.cdc.homeless (fun j s =>
    match s.pickEngine j.srcLen with
    | some e => placeJob e j { s with cdc := { s.cdc with homeless := s.cdc.homeless.erase j } }
    | none => s) s

/-- A job as it was before it ran. -/
def CdcJob.fresh (j : CdcJob) : CdcJob := { id := j.id, call := j.call }

/-- Fence an engine: its jobs restart from their beginning on other engines. -/
def fenceEngine (e cause : Nat) (s : State) : State :=
  let jobs := (s.engine e).queue.map CdcJob.fresh
  let s := { s with fab := { s.fab with outst := s.fab.outst.filter (fun r => r.req ≠ .codec e) } }
  let s := modEngine e (fun _ => { fence := { on := true, cause := cause }, queue := [] }) s
  placeHomeless { s with cdc := { s.cdc with homeless := s.cdc.homeless ++ jobs } }

def cdcCtrl (e : Nat) : Nat := cdcPage e + 8

/-- The meaning of `CDC_FENCE`. -/
def execCdcFence (who : Who) (e : Nat) (s : State) : Host.Outcome State Fault Refusal :=
  run (who.wf && decide (e < 8)) (ctlWrite who (cdcCtrl e) true (fenceEngine e (fenceCauseOf who)) s)

/-- The meaning of `CDC_UNFENCE`. -/
def execCdcUnfence (who : Who) (e : Nat) (s : State) : Host.Outcome State Fault Refusal :=
  run (who.wf && decide (e < 8)) (ctlWrite who (cdcCtrl e) (liftsFence who) (fun s => placeHomeless (modEngine e (fun x => { x with fence := {} }) s)) s)

end Sys2Proof.Machine
end

