-- ==== Sys2Proof/Machine/Arith.lean ====
section
/-! DEFINITION. The Arithmetic Contract (chapter 02): exact values, formats, the one rounding, frames,
the finisher's stages, MX quantisation, table functions and the softmax-partial merge. -/

namespace Sys2Proof.Machine

/-! ## Exact values -/

/-- A value: m × 2^e exactly, a special, or an element that carries `OVERFLOW` (R43). -/
inductive Num where
  | fin (m e : Int)
  | inf (neg : Bool)
  | nan
  | ovf (neg : Bool)
  deriving DecidableEq, Repr

/-- Round to nearest, ties to even, of n / d (R38). -/
def rneDiv (n : Int) (d : Nat) : Int :=
  let q := n / (d : Int)
  let r := n % (d : Int)
  if 2 * r < d then q else if (d : Int) < 2 * r then q + 1 else if q % 2 = 0 then q else q + 1

/-- Round m × 2^e to an integer. -/
def rneShift (m e : Int) : Int := if 0 ≤ e then m * 2 ^ e.toNat else rneDiv m (2 ^ (-e).toNat)

/-- Exact sum of two dyadic values. -/
def addFin (m e n f : Int) : Num :=
  let k := min e f
  .fin (m * 2 ^ (e - k).toNat + n * 2 ^ (f - k).toNat) k

def Num.add : Num → Num → Num
  | .nan, _ => .nan
  | _, .nan => .nan
  | .inf a, .inf b => if a = b then .inf a else .nan
  | .inf a, _ => .inf a
  | _, .inf b => .inf b
  | .fin m e, .fin n f => addFin m e n f
  | .ovf a, _ => .ovf a
  | _, .ovf b => .ovf b

/-- Exact product; zero times infinity is NaN (R45, R56). -/
def Num.mul : Num → Num → Num
  | .nan, _ => .nan
  | _, .nan => .nan
  | .inf a, .inf b => .inf (a != b)
  | .inf a, .fin m _ => if m = 0 then .nan else .inf (a != decide (m < 0))
  | .fin m _, .inf b => if m = 0 then .nan else .inf (b != decide (m < 0))
  | .fin m e, .fin n f => .fin (m * n) (e + f)
  | .ovf a, _ => .ovf a
  | _, .ovf b => .ovf b

/-- Whether a finite value lies below another. -/
def ltFin (m e n f : Int) : Bool :=
  let k := min e f
  decide (m * 2 ^ (e - k).toNat < n * 2 ^ (f - k).toNat)

/-- `a < b` among finite values and infinities. -/
def Num.lt : Num → Num → Bool
  | .inf a, .inf b => a && !b
  | .inf a, .fin _ _ => a
  | .fin _ _, .inf b => !b
  | .fin m e, .fin n f => ltFin m e n f
  | _, _ => false

/-- floor(log2) of a nonzero finite magnitude. -/
def ilog2 (m e : Int) : Int := (m.natAbs.log2 : Int) + e

/-! ## Formats (R35 to R37, R71) -/

/-- A binary floating-point format: mantissa bits, smallest normal exponent, bias, largest finite code,
code of +∞ (none where the format has none), NaN code, exponent width. -/
structure FloatFmt where
  mant : Nat
  emin : Int
  bias : Int
  maxCode : Nat
  infCode : Option Nat
  nanCode : Nat
  bitsW : Nat
  deriving DecidableEq, Repr

def fmtB32 : FloatFmt := { mant := 23, emin := -126, bias := 127, maxCode := 0x7F7FFFFF, infCode := some 0x7F800000, nanCode := 0x7FC00000, bitsW := 32 }
def fmtB16 : FloatFmt := { mant := 7, emin := -126, bias := 127, maxCode := 0x7F7F, infCode := some 0x7F80, nanCode := 0x7FC0, bitsW := 16 }
def fmtE4M3 : FloatFmt := { mant := 3, emin := -6, bias := 7, maxCode := 0x7E, infCode := none, nanCode := 0x7F, bitsW := 8 }
def fmtE5M2 : FloatFmt := { mant := 2, emin := -14, bias := 15, maxCode := 0x7B, infCode := some 0x7C, nanCode := 0x7E, bitsW := 8 }
def fmtE2M1 : FloatFmt := { mant := 1, emin := 0, bias := 1, maxCode := 0x7, infCode := none, nanCode := 0, bitsW := 4 }

/-- The value of a code of a floating-point format. -/
def decodeFloat (f : FloatFmt) (c : Nat) : Num :=
  let neg := bit c (f.bitsW - 1)
  let mag := c % 2 ^ (f.bitsW - 1)
  if f.maxCode < mag then (if f.infCode = some mag then .inf neg else .nan)
  else
    let e := mag / 2 ^ f.mant
    let m := mag % 2 ^ f.mant
    let v : Int := if e = 0 then m else m + 2 ^ f.mant
    let x : Int := if e = 0 then f.emin - f.mant else e - f.bias - f.mant
    .fin (if neg then -v else v) x

/-- The magnitude code of a positive finite value and whether it saturates (R38, R39). -/
def encodeMag (f : FloatFmt) (m e : Int) : Nat × Bool :=
  if m = 0 then (0, false) else
  let q := max (ilog2 m e - f.mant) (f.emin - f.mant)
  let k := (rneShift m (e - q)).toNat
  let (k, q) := if k = 2 ^ (f.mant + 1) then (2 ^ f.mant, q + 1) else (k, q)
  let c := if k < 2 ^ f.mant then k else (q + f.mant - f.emin + 1).toNat * 2 ^ f.mant + (k - 2 ^ f.mant)
  if f.maxCode < c then (f.maxCode, true) else (c, false)

/-- The code of a value in a floating-point format and whether a range saturation counts (R39, R40). A
format without infinities saturates them, counted; an overflowed element takes the largest finite. -/
def encodeFloat (f : FloatFmt) : Num → Nat × Bool
  | .fin m e =>
    let (c, sat) := encodeMag f (m.natAbs : Int) e
    (if m < 0 ∧ c ≠ 0 then c + 2 ^ (f.bitsW - 1) else c, sat)
  | .inf neg =>
    match f.infCode with
    | some c => (if neg then c + 2 ^ (f.bitsW - 1) else c, false)
    | none => (if neg then f.maxCode + 2 ^ (f.bitsW - 1) else f.maxCode, true)
  | .nan => (f.nanCode, false)
  | .ovf neg => (if neg then f.maxCode + 2 ^ (f.bitsW - 1) else f.maxCode, false)

/-- A symmetric integer format of `w` bits: NaN gives 0, counted (R36, R39). -/
def encodeInt (w : Nat) : Num → Nat × Bool
  | .fin m e =>
    let k := rneShift m e
    let top : Int := 2 ^ (w - 1) - 1
    if top < k then (unsignedW w top, true) else if k < -top then (unsignedW w (-top), true) else (unsignedW w k, false)
  | .inf neg => (unsignedW w (if neg then 1 - 2 ^ (w - 1) else 2 ^ (w - 1) - 1), true)
  | .nan => (0, true)
  | .ovf neg => (unsignedW w (if neg then 1 - 2 ^ (w - 1) else 2 ^ (w - 1) - 1), false)

/-- The format codes of R71. -/
def fcB16 := 0
def fcE4M3 := 1
def fcE5M2 := 2
def fcMXINT8 := 3
def fcINT8 := 4
def fcMXFP4 := 5
def fcINT4 := 6
def fcB32 := 7

/-- Bits of an element of a format code. -/
def elemBits (fc : Nat) : Nat :=
  if fc = fcB16 then 16 else if fc = fcB32 then 32 else if fc = fcMXFP4 ∨ fc = fcINT4 then 4 else 8
def isMx (fc : Nat) : Bool := fc = fcMXINT8 || fc = fcMXFP4

/-- The value of an element code; MX elements without their scale. -/
def decodeElem (fc c : Nat) : Num :=
  if fc = fcB16 then decodeFloat fmtB16 c
  else if fc = fcE4M3 then decodeFloat fmtE4M3 c
  else if fc = fcE5M2 then decodeFloat fmtE5M2 c
  else if fc = fcMXINT8 then .fin (signedW 8 c) (-6)
  else if fc = fcINT8 then .fin (signedW 8 c) 0
  else if fc = fcMXFP4 then decodeFloat fmtE2M1 c
  else if fc = fcINT4 then .fin (signedW 4 c) 0
  else decodeFloat fmtB32 c

/-- The value of an E8M0 scale byte; 0xFF is NaN (R36). -/
def decodeScale (c : Nat) : Num := if c = 0xFF then .nan else .fin 1 ((c : Int) - 127)

/-- The value of an MX element under its block's scale. -/
def decodeMx (fc c scale : Nat) : Num := (decodeElem fc c).mul (decodeScale scale)

/-- The output code of a value in a format other than an MX one, and whether a saturation counts. -/
def encodeElem (fc : Nat) (v : Num) : Nat × Bool :=
  if fc = fcB16 then encodeFloat fmtB16 v
  else if fc = fcE4M3 then encodeFloat fmtE4M3 v
  else if fc = fcE5M2 then encodeFloat fmtE5M2 v
  else if fc = fcINT8 then encodeInt 8 v
  else if fc = fcINT4 then encodeInt 4 v
  else encodeFloat fmtB32 v

/-- Element `i` of packed data of a format (R37). -/
def elemAt (fc : Nat) (bs : List Byte) (i : Nat) : Nat :=
  let w := elemBits fc
  if w = 4 then bits (bs.getD (i / 2) 0).toNat (4 * (i % 2)) 4 else le bs (i * (w / 8)) (w / 8)

/-- Pack element codes of a format (R37). -/
def packElems (fc : Nat) (cs : List Nat) : List Byte :=
  if elemBits fc = 4 then
    (List.range (ceilDiv cs.length 2)).map (fun j => BitVec.ofNat 8 (cs.getD (2 * j) 0 % 16 + 16 * (cs.getD (2 * j + 1) 0 % 16)))
  else cs.flatMap (fun c => natLe c (elemBits fc / 8))

/-! ## Frames (R41 to R48) -/

/-- The side-field class of a special value. -/
def sideOfNum : Num → Nat
  | .inf neg => if neg then 2 else 1
  | .nan => 3
  | _ => 0

/-- A term rounded to the frame grid, clamped with the overflow flag (R42, R43). -/
def toGrid (w : Nat) (f : Int) (m e : Int) : Int × Bool :=
  let k := rneShift m (e - f)
  let top : Int := 2 ^ (w - 25)
  if top ≤ k then (top - 1, true) else if k ≤ -top then (-(top - 1), true) else (k, false)

/-- Add a term to a frame (R42 to R45). -/
def Frm.addTerm (x : Frm) (v : Num) : Frm :=
  match v with
  | .fin m e =>
    let (k, o) := toGrid x.w x.f m e
    { x with s := wrap x.w (x.s + k), ovf := x.ovf || o }
  | _ => { x with side := sideJoin x.side (sideOfNum v) }

/-- A term as a partial frame of its own. -/
def termFrm (w : Nat) (f : Int) (v : Num) : Frm := ({ w := w, f := f } : Frm).addTerm v

/-- The extreme of two partials: `max` false for MIN (R47). -/
def Frm.extreme (mx : Bool) (a b : Frm) : Frm :=
  let win := if mx then 1 else 2
  let lose := if mx then 2 else 1
  let o := a.ovf || b.ovf
  if a.side = 3 ∨ b.side = 3 then { a with side := 3, ovf := o }
  else if a.side = win then { a with ovf := o }
  else if b.side = win then { b with ovf := o }
  else if a.side = lose then { b with ovf := o }
  else if b.side = lose then { a with ovf := o }
  else if (if mx then decide (b.s ≤ a.s) else decide (a.s ≤ b.s)) then { a with ovf := o }
  else { b with ovf := o }

/-- The value a frame stands for when it is finished: the side-field first, then the overflow flag (R46,
R43). -/
def Frm.value (x : Frm) : Num :=
  if x.side = 1 then .inf false else if x.side = 2 then .inf true else if x.side = 3 then .nan
  else if x.ovf then .ovf (decide (x.s < 0)) else .fin x.s x.f

/-- The frame exponent of auto-frame: B + 26 − W, clamped (R50). -/
def autoF (b : Int) (w : Nat) : Int := max (-32767) (min 32767 (b + 26 - w))

/-- A frame's mean over n terms, rounded once to a format (R48). The quotient is exact before its one
rounding: it is kept to 2^-400 of the target grid by a sticky bit. -/
def Frm.mean (x : Frm) (n fc : Nat) : Nat × Bool :=
  if n = 0 then (0, false)
  else match x.value with
    | .fin m e =>
      let k : Nat := 400
      let num := m.natAbs * 2 ^ k
      let q := num / n
      let q := if num % n = 0 then 2 * q else 2 * q + 1
      encodeElem fc (.fin (if m < 0 then -(q : Int) else q) (e - k - 1))
    | v => encodeElem fc v

/-! ## Table functions (R58 to R60) -/

/-- Fixed-point precision of the exact values behind the tables. -/
def tabP : Nat := 256

/-- floor(√(2/π) × 2^256). -/
def sqrtTwoOverPi : Nat := 0xcc42299ea1b284687e59e2805d5c717fa7053e60a24e0db1808e369004c73a5d

/-- e^−r for a small fixed-point r, by its series. -/
def expSeries (r : Nat) : Nat → Nat → Nat
  | 0, acc => acc
  | k + 1, acc => expSeries r k (2 ^ tabP - r * acc / ((k + 1) * 2 ^ tabP))

/-- Square a fixed-point value n times. -/
def squareTimes : Nat → Nat → Nat
  | 0, x => x
  | n + 1, x => squareTimes n (x * x / 2 ^ tabP)

/-- e^−z × 2^256 for a fixed-point z ≥ 0. -/
def expNeg (z : Nat) : Nat := squareTimes 8 (expSeries (z / 2 ^ 8) 60 (2 ^ tabP))

/-- Entry i of the exp table: rne(e^(−32 + i/32) × 2^30). -/
def tabExp (i : Nat) : Int := rneDiv (expNeg ((1024 - i) * 2 ^ tabP / 32) * 2 ^ 30) (2 ^ tabP)

/-- x ÷ (1 + e^−z) × 2^20 for x = n / d, with e^−|z| in fixed point. -/
def logistic (n : Int) (d : Nat) (ez : Nat) : Int :=
  if 0 ≤ n then rneDiv (n * 2 ^ 20 * 2 ^ tabP) (d * (2 ^ tabP + ez))
  else rneDiv (n * 2 ^ 20 * ez) (d * (2 ^ tabP + ez))

/-- Entry i of the SiLU table. -/
def tabSilu (i : Nat) : Int :=
  let n : Int := (i : Int) - 512
  logistic n 32 (expNeg (n.natAbs * 2 ^ tabP / 32))

/-- Entry i of the GELU table: tanh turned into a logistic function of twice its argument. -/
def tabGelu (i : Nat) : Int :=
  let n : Int := (i : Int) - 512
  let a := n.natAbs
  -- 2 √(2/π) (x + 0.044715 x³) with x = a / 64
  let poly := a * 64 * 64 * 1000000 + 44715 * a * a * a
  logistic n 64 (expNeg (2 * sqrtTwoOverPi * poly / (64 * 64 * 64 * 1000000)))

/-- Entry i of the reciprocal table: rne(2^40 / (1,024 + i)). -/
def tabRecip (i : Nat) : Int := rneDiv (2 ^ 40) (1024 + i)

/-- Interpolate in a table from a position with a `tau`-bit fraction (R59). -/
def interp (tab : Nat → Int) (tau u : Nat) : Int :=
  let i := u / 2 ^ tau
  let t := u % 2 ^ tau
  if 1024 ≤ i then tab 1024 else tab i + rneDiv ((tab (i + 1) - tab i) * (t : Int)) ((2 : Nat) ^ tau)

/-- q20: a multiple of 2^−20, saturated to [−2^11, 2^11 − 2^−20] (R55). -/
def q20 (m e : Int) : Int := max (-(2 ^ 31)) (min (2 ^ 31 - 1) (rneShift m (e + 20)))

/-- exp of x × 2^−20 (R59): +0 below −32, 1.0 above 0. -/
def evalExp (x : Int) : Num :=
  if x < -(2 ^ 25) then .fin 0 0
  else .fin (interp tabExp 15 ((min x 0) + 2 ^ 25).toNat) (-30)
def evalSilu (x : Int) : Num :=
  if x < -(2 ^ 24) then .fin 0 0 else if 2 ^ 24 < x then .fin x (-20)
  else .fin (interp tabSilu 15 (x + 2 ^ 24).toNat) (-20)
def evalGelu (x : Int) : Num :=
  if x < -(2 ^ 23) then .fin 0 0 else if 2 ^ 23 < x then .fin x (-20)
  else .fin (interp tabGelu 14 (x + 2 ^ 23).toNat) (-20)

/-- Reciprocal of an exact value (R60). -/
def Num.recip : Num → Num
  | .nan => .nan
  | .inf _ => .fin 0 0
  | .ovf a => .ovf a
  | .fin m e =>
    if m = 0 then .inf false else
    let a : Int := m.natAbs
    let k := ilog2 m e
    let b := rneShift a (e + 30 - k)
    let (b, k) := if b = 2 ^ 31 then (2 ^ 30, k + 1) else (b, k)
    let y := interp tabRecip 20 (b - 2 ^ 30).toNat
    .fin (if m < 0 then -y else y) (-30 - k)

/-- The activation stage: 0 none, 1 SiLU, 2 GELU, 3 exp, 4 reciprocal of the exact value (R55, R56, R60,
R82). -/
def activate (act : Nat) (v : Num) : Num :=
  if act = 0 then v else if act = 4 then v.recip else
  match v with
  | .fin m e => let x := q20 m e; if act = 1 then evalSilu x else if act = 2 then evalGelu x else evalExp x
  | .inf neg => if neg then .fin 0 0 else if act = 3 then .fin 1 0 else .inf false
  | v => v

/-- The finisher up to its final rounding (R55): scale, bias, activation, gate. An element that carries
`OVERFLOW` skips the stages; a side-field takes precedence over the flag. -/
def finisher (x : Frm) (scale bias : Num) (act : Nat) (gate : Option Num) : Num :=
  match x.value with
  | .ovf neg => .ovf neg
  | v =>
    let y := activate act ((v.mul scale).add bias)
    match gate with
    | some g => y.mul g
    | none => y

/-! ## MX quantisation (R57) -/

/-- The finite nonzero value of largest magnitude. -/
def amax : List Num → Option (Nat × Int)
  | [] => none
  | .fin m e :: r =>
    match amax r with
    | none => if m = 0 then none else some (m.natAbs, e)
    | some (n, f) => if ltFin n f (m.natAbs : Int) e then some (m.natAbs, e) else some (n, f)
  | _ :: r => amax r

/-- The element code of a finite value already scaled by 2^−X. -/
def encodeMxElem (fc : Nat) (m e : Int) : Nat × Bool :=
  if fc = fcMXFP4 then encodeFloat fmtE2M1 (.fin m e) else encodeInt 8 (.fin m (e + 6))

/-- Quantise a block: element codes, scale byte, saturations counted. -/
def mxQuantise (fc : Nat) (ys : List Num) : List Nat × Nat × Nat :=
  let emax : Int := if fc = fcMXFP4 then 2 else 0
  let big := fun (neg : Bool) => if fc = fcMXFP4 then (if neg then 0xF else 0x7) else (if neg then 0x81 else 0x7F)
  let x : Int := match amax ys with
    | some (m, e) => max (-127) (min 127 (ilog2 (m : Int) e - emax))
    | none => if ys.any (fun y => match y with | .inf _ => true | .ovf _ => true | _ => false) then 127 else -127
  let el := fun (y : Num) => match y with
    | .fin m e => encodeMxElem fc m (e - x)
    | .inf neg => (big neg, true)
    | .ovf neg => (big neg, false)
    | .nan => (0, false)
  let cs := ys.map el
  let sats := countIf cs (·.2)
  if ys.contains .nan then (ys.map (fun _ => 0), 0xFF, sats) else (cs.map (·.1), (x + 127).toNat, sats)

/-! ## Softmax-partial merge (R61 to R63) -/

/-- A partial: m, l and o as binary32 codes, and the range saturations of the merges that formed it
(R39). -/
structure Partial where
  m : Nat := 0xFF800000
  l : Nat := 0
  o : List Nat := []
  sat : Nat := 0
  deriving DecidableEq, Repr

def dec32 (c : Nat) : Num := decodeFloat fmtB32 c
def rne32 (v : Num) : Nat := (encodeFloat fmtB32 v).1

/-- exp(q20(a − m)). -/
def expDiff (a m : Num) : Num :=
  let d := a.add (Num.mul m (.fin (-1) 0))
  match d with
  | .fin x e => evalExp (q20 x e)
  | .inf true => .fin 0 0
  | .inf false => .fin 1 0
  | v => v

/-- x α + y β, exact before one rounding, and whether the rounding saturates. -/
def mix (x : Nat) (al : Num) (y : Nat) (be : Num) : Nat × Bool := encodeFloat fmtB32 (((dec32 x).mul al).add ((dec32 y).mul be))

/-- A ⊕ B (R62). -/
def Partial.merge (a b : Partial) : Partial :=
  let va := dec32 a.m
  let vb := dec32 b.m
  let bad := fun v => v = Num.nan || v = Num.inf false
  let sat := a.sat + b.sat
  if bad va || bad vb then { m := 0x7FC00000, l := 0x7FC00000, o := a.o.map (fun _ => 0x7FC00000), sat := sat }
  else if va = .inf true ∧ vb = .inf true then { m := 0xFF800000, l := 0, o := a.o.map (fun _ => 0), sat := sat }
  else if vb = .inf true then { a with sat := sat }
  else if va = .inf true then { b with sat := sat }
  else
    let m := if va.lt vb then vb else va
    let al := expDiff va m
    let be := expDiff vb m
    let l := mix a.l al b.l be
    let o := List.zipWith (fun x y => mix x al y be) a.o b.o
    { m := rne32 m, l := l.1, o := o.map (·.1), sat := sat + countIf (l :: o) (·.2) }

/-- The left fold of partials in their order (R63). -/
def foldPartials : List Partial → Partial
  | [] => {}
  | p :: r => r.foldl Partial.merge p

end Sys2Proof.Machine
end

