-- ==== Sys2Proof/Machine/TileJob.lean ====
section
/-! DEFINITION. The shelf, the tile-job descriptor (R71), the acceptance checks (R75, R596) and the
arithmetic of one token of a job (R65 to R74, R82, R83). -/

namespace Sys2Proof.Machine

/-! ## The shelf -/

/-- Bytes of a saggar's shelf space (R71): its granules of 1 MiB, numbered flat. -/
def State.shelfSize (s : State) (g : Nat) : Nat :=
  ((List.range 4).foldl (fun n d => n + recShelfMib (s.sagRec g) d) 0) * 2 ^ 20

/-- The array die whose shelf holds an offset: granules are numbered die by die. -/
def State.shelfDie (s : State) (g off : Nat) : Nat :=
  let m := off / 2 ^ 20
  ((List.range 4).find? (fun d => decide (m < (List.range (d + 1)).foldl (fun n e => n + recShelfMib (s.sagRec g) e) 0))).getD 4

def State.shelfRead (s : State) (g off n : Nat) : List Byte := memRead s.arrs.shelf (g * 2 ^ 30 + off) n

/-- The shelf and the checks of its grains. -/
def setShelf (m : List Host.Cell) (crc : Assoc Nat Nat) (s : State) : State :=
  { s with arrs := { s.arrs with shelf := m, crc := crc } }

/-- The grains a range of a saggar's shelf space touches. -/
def shelfGrains (g off n : Nat) : List Nat :=
  let a := (g * 2 ^ 30 + off) / 256
  (List.range (ceilDiv (g * 2 ^ 30 + off + n) 256 - a)).map (a + ·)

/-- Bytes written to the shelf; what would lie beyond the saggar's space is not written. A grain written so
carries no check from its producer. -/
def shelfWrite (g off : Nat) (bs : List Byte) (s : State) : State :=
  if off + bs.length ≤ s.shelfSize g then
    let ks := shelfGrains g off bs.length
    setShelf (memWrite s.arrs.shelf (g * 2 ^ 30 + off) bs) (s.arrs.crc.filter (fun p => !ks.contains p.1)) s
  else s

/-- The CRC-32C of a shelf grain's bytes. -/
def State.grainCrc (s : State) (k : Nat) : Nat := (crc32c (memRead s.arrs.shelf (256 * k) 256)).toNat

/-- Bytes written by a producer that generates the CRC-32C of each grain as it writes it: an array's
finisher (R84), the fill port (R489). -/
def shelfProduce (g off : Nat) (bs : List Byte) (s : State) : State :=
  if off + bs.length ≤ s.shelfSize g then
    let s := shelfWrite g off bs s
    setShelf s.arrs.shelf ((shelfGrains g off bs.length).foldl (fun m k => aset m k (s.grainCrc k)) s.arrs.crc) s
  else s

/-- Every grain of a range passes the check it carries (R87). -/
def State.shelfOk (s : State) (g off n : Nat) : Bool :=
  (shelfGrains g off n).all (fun k => match afind s.arrs.crc k with | some c => c = s.grainCrc k | none => true)

/-- A saggar's shelf space is zeroed. -/
def clearShelf (g : Nat) (s : State) : State :=
  setShelf (memClear s.arrs.shelf (g * 2 ^ 30) (2 ^ 30)) (s.arrs.crc.filter (fun p => p.1 / 2 ^ 22 ≠ g)) s

/-! ## Descriptor fields (R71) -/

/-- Field `[lo + w - 1 : lo]` of descriptor word `i`. -/
def dField (d : List Byte) (i lo w : Nat) : Nat := bits (le d (8 * i) 8) lo w

def dKind (d : List Byte) : Nat := dField d 0 0 8
def dDver (d : List Byte) : Nat := dField d 0 8 8
def dSaggar (d : List Byte) : Nat := dField d 0 16 6
def dArray (d : List Byte) : Nat := dField d 0 24 11
def dTag (d : List Byte) : Nat := dField d 0 40 16
def dFin (d : List Byte) : Bool := dField d 0 56 1 = 1
def dPIn (d : List Byte) : Bool := dField d 0 57 1 = 1
def dPOut (d : List Byte) : Bool := dField d 0 58 1 = 1
def dKeep (d : List Byte) : Bool := dField d 0 59 1 = 1
def dGate (d : List Byte) : Bool := dField d 0 60 1 = 1
def dIrq (d : List Byte) : Bool := dField d 0 61 1 = 1
def dWFmt (d : List Byte) : Nat := dField d 1 0 4
def dAFmt (d : List Byte) : Nat := dField d 1 4 4
def dOFmt (d : List Byte) : Nat := dField d 1 8 4
def dWSel (d : List Byte) : Nat := dField d 1 12 2
def dF (d : List Byte) : Nat := dField d 1 16 16
def dAct (d : List Byte) : Nat := dField d 1 32 4
def dKLen (d : List Byte) : Nat := dField d 2 0 10
def dNLen (d : List Byte) : Nat := dField d 2 10 6
def dTLen (d : List Byte) : Nat := dField d 2 16 16
/-- 0 means 2^24. -/
def dKTotal (d : List Byte) : Nat := let k := dField d 2 32 24; if k = 0 then 2 ^ 24 else k
def dWAddr (d : List Byte) : Nat := dField d 3 0 32
def dWsAddr (d : List Byte) : Nat := dField d 3 32 32
def dAAddr (d : List Byte) : Nat := dField d 4 0 32
def dAStride (d : List Byte) : Nat := dField d 4 32 16
def dGroup (d : List Byte) : Nat := dField d 4 48 8
def dGroupN (d : List Byte) : Nat := dField d 4 56 6
def dOAddr (d : List Byte) : Nat := dField d 5 0 32
def dOStride (d : List Byte) : Nat := dField d 5 32 16
def dPInAddr (d : List Byte) : Nat := dField d 6 0 32
def dPOutAddr (d : List Byte) : Nat := dField d 6 32 32
def dColAddr (d : List Byte) : Nat := dField d 7 0 32
def dGateAddr (d : List Byte) : Nat := dField d 7 32 32
def dMaxW (d : List Byte) : Int := signedW 16 (dField d 8 0 16)
def dMaxA (d : List Byte) : Int := signedW 16 (dField d 8 16 16)
def dWStrideF (d : List Byte) : Nat := dField d 8 32 16
def dWsStrideF (d : List Byte) : Nat := dField d 8 48 16
def dCpl (d : List Byte) : Nat := dField d 9 0 32

/-- A reserved bit is set. -/
def dReserved (d : List Byte) : Bool :=
  dField d 0 22 2 ≠ 0 || dField d 0 35 5 ≠ 0 || dField d 0 62 2 ≠ 0 || dField d 1 14 2 ≠ 0 || dField d 1 36 28 ≠ 0
    || dField d 2 56 8 ≠ 0 || dField d 4 62 2 ≠ 0 || dField d 5 48 16 ≠ 0 || dField d 9 32 32 ≠ 0
    || (sub d 80 48).any (· ≠ 0)

/-- Tile K of a rate class, by element bits (R65). -/
def tileK (cls : Nat) : Nat := if cls = 4 then 512 else if cls = 8 then 256 else 64

def dW (d : List Byte) : Nat := widthOf (dWSel d)
def dCls (d : List Byte) : Nat := elemBits (dWFmt d)
/-- Effective strides of the weight and scale tiles (R67). -/
def dWStride (d : List Byte) : Nat := if dWStrideF d = 0 then tileK (dCls d) * dCls d / 8 else dWStrideF d
def dWsStride (d : List Byte) : Nat := if dWsStrideF d = 0 then tileK (dCls d) / 32 else dWsStrideF d
/-- Bytes of K_LEN elements, and of their scales. -/
def rowBytes (fc k : Nat) : Nat := ceilDiv (k * elemBits fc) 8
def scaleBytes (fc k : Nat) : Nat := if isMx fc then k / 32 else 0
/-- Bytes of an input token (R68), an output token (R69) and a partial-frame record (R74). -/
def aToken (d : List Byte) : Nat := rowBytes (dAFmt d) (dKLen d) + scaleBytes (dAFmt d) (dKLen d)
def oToken (d : List Byte) : Nat := rowBytes (dOFmt d) (dNLen d) + b2n (isMx (dOFmt d))
def pRecord (d : List Byte) : Nat := 4 * dW d + 16

/-- The frame exponent used: explicit, or derived by auto-frame (R49, R50, R72). -/
def dFUsed (d : List Byte) : Int :=
  if dF d = 0x8000 then autoF (dMaxW d + dMaxA d + 2) (dW d) else signedW 16 (dF d)

/-- The ranges a job reads or writes (R596): address, bytes. -/
def dRanges (d : List Byte) : List (Nat × Nat) :=
  (if dKeep d then [] else [(dWAddr d, (dNLen d - 1) * dWStride d + rowBytes (dWFmt d) (dKLen d))])
    ++ (if !dKeep d && isMx (dWFmt d) then [(dWsAddr d, (dNLen d - 1) * dWsStride d + dKLen d / 32)] else [])
    ++ [(dAAddr d, (dTLen d - 1) * dAStride d + aToken d)]
    ++ (if dPOut d then [(dPOutAddr d, dTLen d * pRecord d)] else [(dOAddr d, (dTLen d - 1) * dOStride d + oToken d)])
    ++ (if dPIn d then [(dPInAddr d, dTLen d * pRecord d)] else [])
    ++ (if dFin d && !dPOut d then [(dColAddr d, 256)] else [])
    ++ (if dGate d && !dPOut d then [(dGateAddr d, 4 * dTLen d)] else [])
    ++ (if dCpl d ≠ 0 then [(dCpl d, 32)] else [])

/-- Row 8 of R75. -/
def dLayoutOk (d : List Byte) (size : Nat) : Bool :=
  (dRanges d).all (fun r => r.1 % 16 = 0 && decide (r.1 + r.2 ≤ size))
    && (dAStride d % 16 = 0) && decide (aToken d ≤ dAStride d)
    && (dPOut d || ((dOStride d % 16 = 0) && decide (oToken d ≤ dOStride d)))
    && (dKeep d || dWStrideF d = 0 || ((dWStrideF d % 16 = 0) && decide (dKLen d * dCls d ≤ 8 * dWStrideF d)))
    && (dKeep d || !isMx (dWFmt d) || dWsStrideF d = 0 || decide (dKLen d ≤ 32 * dWsStrideF d))

/-- `CPL_ADDR` passes row 8 in the issuer's shelf space (R85). -/
def cplOk (d : List Byte) (size : Nat) : Bool := dCpl d % 16 = 0 && decide (dCpl d + 32 ≤ size)

/-! ## Job status codes (R85) -/

def jDONE := 0
def jDONEOVF := 1
def jREJECTED := 2
def jDENIED := 3
def jABSENT := 4
def jFENCED := 5
def jPOISON := 6
def jRESIDUE := 7

/-! ## Acceptance -/

def State.arr (s : State) (a : Nat) : Arr := aget s.arrs.arr a {}
def modArr (a : Nat) (f : Arr → Arr) (s : State) : State :=
  { s with arrs := { s.arrs with arr := amod s.arrs.arr a {} f } }

/-- The saggar the image in force assigns an array to (R92). -/
def State.arrOwner (s : State) (a : Nat) : Option Nat :=
  (List.range 64).find? (fun g => recExists (s.sagRec g) && recArray (s.sagRec g) a)

/-- The group that counts the next job of a saggar and `A_GROUP` (R78): one that has not counted `A_GROUP_N`
members. A group closed by its timeout counts on until then, so it is still the forming group that row 10
of R75 compares with: a job with other fields, or another `A_GROUP_N`, is rejected (DESIGN CHOICE, log 134). -/
def State.formingGroup (s : State) (g gid : Nat) : Option Group :=
  s.arrs.groups.find? (fun x => x.saggar = g && x.gid = gid && decide (x.counted < x.n))

/-- The fields that make a group. -/
def Group.matches (x : Group) (d : List Byte) : Bool :=
  x.aAddr = dAAddr d && x.aStride = dAStride d && x.tLen = dTLen d && x.aFmt = dAFmt d && x.n = dGroupN d

/-- The array holds, or is loading, a tile of a saggar and rate class (row 9 of R75): none that was zeroed or
whose fetch never completed. A tile a grain of which failed is held until the load check (R598). -/
def Arr.holds (x : Arr) (g cls : Nat) : Bool :=
  match x.kept with
  | some t => t.saggar = g && t.cls = cls && t.st ≠ 3
  | none => false

/-- Rows 1 to 10 of R75 for an issuer of saggar `g`; the earliest failing row decides. An array that failed
its power-on BIST, which no unit has admitted yet, counts as fenced: cause 0x01 (DESIGN CHOICE, log 133). -/
def State.jobRefused (s : State) (d : List Byte) (g : Nat) : Option (Nat × Nat) :=
  let a := dArray d
  let x := s.arr a
  if s.variant.arrays ≤ a then some (jABSENT, 0)
  else if dSaggar d ≠ g || s.arrOwner a ≠ some g then some (jDENIED, 0)
  else if x.fence.on then some (jFENCED, if x.fence.cause = 2 then 2 else 1)
  else if dKind d ≠ 1 || dDver d ≠ 1 || decide (4 < dAct d) || dReserved d then some (jREJECTED, 0x10)
  else if decide (6 < dWFmt d) || decide (6 < dAFmt d) || decide (7 < dOFmt d) then some (jREJECTED, 0x11)
  else if elemBits (dWFmt d) ≠ elemBits (dAFmt d) then some (jREJECTED, 0x12)
  else if dKLen d = 0 || decide (tileK (dCls d) < dKLen d) || ((isMx (dWFmt d) || isMx (dAFmt d)) && dKLen d % 32 ≠ 0)
      || dNLen d = 0 || decide (32 < dNLen d) || dTLen d = 0 || decide (dKTotal d < dKLen d) then some (jREJECTED, 0x13)
  else if !dLayoutOk d (s.shelfSize g) then some (jREJECTED, 0x14)
  else if dKeep d && !x.holds g (dCls d) then some (jREJECTED, 0x15)
  else if dGroup d ≠ 0 && (dGroupN d = 0 || decide (32 < dGroupN d)
      || (match s.formingGroup g (dGroup d) with | some x => !x.matches d | none => false)) then some (jREJECTED, 0x16)
  else none

/-! ## Partial-frame records (R74) -/

/-- The bytes of a record from 32 column frames. -/
def partialRecord (w : Nat) (f : Int) (cols : List Frm) : List Byte :=
  cols.flatMap (fun x => natLe (unsignedW w x.s) (w / 8))
    ++ natLe (cols.foldr (fun x n => x.side + 4 * n) 0) 8
    ++ natLe (cols.foldr (fun x n => b2n x.ovf + 2 * n) 0) 4
    ++ natLe (unsignedW 16 f) 2 ++ natLe (selOf w) 2

/-- The frames of a record, and whether its F and W are the job's. -/
def recordFrames (w : Nat) (f : Int) (b : List Byte) : List Frm × Bool :=
  let t := b.drop (4 * w)
  let col (c : Nat) : Frm :=
    let v := signedW w (le b (c * (w / 8)) (w / 8))
    { w := w, f := f, s := v, side := bits (le t 0 8) (2 * c) 2, ovf := bit (le t 8 4) c }
  ((List.range 32).map col,
   signedW 16 (le t 12 2) = f && bits (le t 14 2) 0 2 = selOf w)

/-! ## One token (R65, R82, R83) -/

/-- The values of `k` elements of packed data with its scales; a block whose scale is not there takes scale
byte 0 (DESIGN CHOICE, log 135: a kept tile loaded without scales under an MX weight format). -/
def vectorOf (fc k : Nat) (elems scales : List Byte) : List Num :=
  (List.range k).map (fun i =>
    if isMx fc then decodeMx fc (elemAt fc elems i) (scales.getD (i / 32) 0).toNat else decodeElem fc (elemAt fc elems i))

/-- A column's frame of one token: the exact products, each rounded once to the grid (R42). -/
def columnFrame (w : Nat) (f : Int) (ps : List Num) : Frm := ps.foldl Frm.addTerm { w := w, f := f }

/-! ### The residue lane (R86) -/

/-- A product or sum m × 2^e modulo 255: 2^e is 2^(e mod 8), since 2^8 ≡ 1. -/
def residue255 (m e : Int) : Nat := ((m % 255) * 2 ^ (e % 8).toNat % 255).toNat

/-- The residue of a multiplier output; a special value, which no frame adder receives, has none. -/
def Num.residue : Num → Nat
  | .fin m e => residue255 m e
  | _ => 0

/-- The lane's residue of one product, from the operands' significands and exponents alone. -/
def laneTerm : Num → Num → Nat
  | .fin m e, .fin n f => residue255 ((m % 255) * (n % 255)) (e + f)
  | _, _ => 0

/-- The integer k a product adds to the frame, the overflow substitution of R43 applied. -/
def gridK (w : Nat) (f : Int) : Num → Int
  | .fin m e => (toGrid w f m e).1
  | _ => 0

/-- The multiplier outputs of column `c` as an upset leaves them. -/
def upsetProducts (u : Upset) (c : Nat) (ps : List Num) : List Num :=
  match u with
  | .product col k err =>
    if col = c then ps.mapIdx (fun i p => match p with | .fin m e => if i = k then .fin (m + err) e else p | _ => p) else ps
  | _ => ps

/-- What the frame adders of column `c` are off by. -/
def upsetAdder (u : Upset) (c : Nat) : Int :=
  match u with
  | .adder col err => if col = c then err else 0
  | _ => 0

/-- A column's frame of one token, and whether both residues of the main path agree with the lane's: the
multiplier outputs, and S with the sum of the rounded terms. -/
def checkedColumn (w : Nat) (f : Int) (ws xs : List Num) (u : Upset) (c : Nat) : Frm × Bool :=
  let ps := upsetProducts u c (List.zipWith Num.mul ws xs)
  let x := columnFrame w f ps
  let x := { x with s := wrap w (x.s + upsetAdder u c) }
  let lane : Nat := (List.zipWith laneTerm ws xs).foldl (· + ·) 0
  let outs : Nat := ps.foldl (fun n p => n + p.residue) 0
  let ks : Int := ps.foldl (fun n p => n + gridK w f p) 0
  (x, decide (lane % 255 = outs % 255) && decide (ks % 255 = x.s % 255))

/-- What a token leaves: the bytes for its output or record, elements that carried `OVERFLOW`, and range
saturations. -/
structure TokenOut where
  bytes : List Byte := []
  ovf : Nat := 0
  sat : Nat := 0
  deriving DecidableEq, Repr

/-- The outcome of the token's 32 column frames: the record under `PARTIAL_OUT`, else the finished
elements, columns at and beyond `N_LEN` giving +0 (R69, R74). `cols` are the frames below `N_LEN`; an
element whose flag is set counts in `OVERFLOW` even where its side-field decides it (R46, R55). -/
def tokenOut (d : List Byte) (f : Int) (cols : List Frm) (scale bias : List Num) (gate : Option Num) : TokenOut :=
  let w := dW d
  let n := dNLen d
  if dPOut d then
    let all := cols ++ List.replicate (32 - n) ({ w := w, f := f } : Frm)
    { bytes := partialRecord w f all, ovf := countIf cols (·.ovf) }
  else
    let ys := (List.range n).map (fun c => finisher (cols.getD c {}) (scale.getD c (.fin 1 0)) (bias.getD c (.fin 0 0)) (dAct d) gate)
    let ovf := countIf cols (·.ovf)
    if isMx (dOFmt d) then
      match mxQuantise (dOFmt d) (ys ++ List.replicate (32 - n) (.fin 0 0)) with
      | (cs, x, sats) => { bytes := packElems (dOFmt d) (cs.take n) ++ natLe x 1, ovf := ovf, sat := sats }
    else
      let es := ys.map (encodeElem (dOFmt d))
      { bytes := packElems (dOFmt d) (es.map (·.1)), ovf := ovf, sat := countIf es (·.2) }

/-- How a token's pass ends: its output; a residue mismatch (R86); or an incoming record whose F or W differs
(R75, cause 0x21). -/
inductive TokenEnd where
  | out (o : TokenOut)
  | mismatch
  | rejected
  deriving DecidableEq, Repr

/-- Token `t` of a job on its tile: the token vector as staged, every column's residues compared. -/
def State.runToken (s : State) (g : Nat) (j : ArrJob) (t : Nat) (tok : List Byte) (u : Upset) : TokenEnd :=
  let d := j.desc
  let w := dW d
  let k := dKLen d
  let xs := vectorOf (dAFmt d) k tok (tok.drop (rowBytes (dAFmt d) k))
  let cols := (List.range (dNLen d)).map (fun n =>
    checkedColumn w j.f (vectorOf (dWFmt d) k (j.tile.rows.getD n []) (j.tile.scales.getD n [])) xs u n)
  if cols.any (fun c => !c.2) then .mismatch else
  let cols := cols.map (·.1)
  let inc := recordFrames w j.f (s.shelfRead g (dPInAddr d + t * pRecord d) (pRecord d))
  if dPIn d && !inc.2 then .rejected else
  let cols := if dPIn d then List.zipWith Frm.combine cols inc.1 else cols
  let col (o c : Nat) : Num := decodeFloat fmtB32 (le j.params (o + 4 * c) 4)
  let scale := if dFin d then (List.range 32).map (col 0) else []
  let bias := if dFin d then (List.range 32).map (col 128) else []
  let gate := if dGate d then some (decodeFloat fmtB32 (le (s.shelfRead g (dGateAddr d + 4 * t) 4) 0 4)) else none
  .out (tokenOut d j.f cols scale bias gate)

end Sys2Proof.Machine
end

