-- ==== Sys2Proof/Machine/Arrays.lean ====
section
/-! DEFINITION. The matrix arrays at work (chapter 03): issue, loading, groups, ramp, streaming, retries,
fences, BIST; and the fence of a whole array die (R540). -/

namespace Sys2Proof.Machine

/-- The job in a slot of an array. -/
def State.job (s : State) (a slot : Nat) : Option ArrJob := afind (s.arr a).slots slot
def setJob (a slot : Nat) (j : ArrJob) (s : State) : State := modArr a (fun x => { x with slots := aset x.slots slot j }) s

/-- A job that is accepted and has not ended. -/
def ArrJob.active (j : ArrJob) : Bool := decide (1 ≤ j.st ∧ j.st ≤ 5)

/-- The die of an array, and its instance page. -/
def arrDie (a : Nat) : Nat := a / 384

/-- ACLK cycles since a time, saturating at 32 bits. -/
def State.aclkSince (s : State) (t : Nat) : Nat := min (2 ^ 32 - 1) ((s.now - t) / 12)

/-- The completion record of R85. -/
def cplRecord (d : List Byte) (jstat retries cause : Nat) (f : Int) (ovf sat cycles : Nat) : List Byte :=
  natLe (dTag d) 2 ++ natLe (jstat + 16 * retries) 1 ++ natLe cause 1 ++ natLe (dArray d) 2 ++ natLe (unsignedW 16 f) 2
    ++ natLe (min ovf (2 ^ 32 - 1)) 4 ++ natLe (min sat (2 ^ 32 - 1)) 4 ++ natLe cycles 4 ++ zeros 12

/-- Write the completion record in the issuer's shelf space where `CPL_ADDR` passes (R85). -/
def writeCpl (g : Nat) (d rec : List Byte) (s : State) : State :=
  if dCpl d ≠ 0 && cplOk d (s.shelfSize g) then shelfWrite g (dCpl d) rec s else s

/-- The bytes of a range become undefined (R81). -/
def scramble (g off n : Nat) (s : State) : State :=
  match drawBytes n s with
  | (bs, s) => shelfWrite g off bs s

/-- The output or partial-frame ranges of a job, one per token. -/
def outRange (d : List Byte) (t : Nat) : Nat × Nat :=
  if dPOut d then (dPOutAddr d + t * pRecord d, pRecord d) else (dOAddr d + t * dOStride d, oToken d)

/-- A job ends: its code, its status, and where that is no `DONE`, the bytes of its ranges are undefined
(R80, R81). -/
def endJob (a slot st jstat cause : Nat) (s : State) : State :=
  match s.job a slot with
  | none => s
  | some j =>
    let s := setJob a slot { j with st := st, jstat := jstat, cause := cause, held := false, stage := [], outs := [] } s
    let s := { s with arrs := { s.arrs with
      groups := s.arrs.groups.map (fun (x : Group) => { x with waiting := x.waiting.filter (· ≠ (a, slot)) })
      ramp := s.arrs.ramp.map (fun (p : Nat × Ramp) => (p.1, { p.2 with held := p.2.held.filter (· ≠ (a, slot)) })) } }
    if jstat ≤ 1 then s
    else forEach (List.range (dTLen j.desc)) (fun t s => scramble (dSaggar j.desc) (outRange j.desc t).1 (outRange j.desc t).2 s) s

/-! ## Fences (R20, R89, R90, R540) -/

/-- The jobs a Trimmer issued run on, and their completions are discarded. -/
def disownJobs (t : Nat) (s : State) : State :=
  { s with arrs := { s.arrs with arr := s.arrs.arr.map (fun (p : Nat × Arr) =>
      (p.1, { p.2 with slots := p.2.slots.map (fun (q : Nat × ArrJob) =>
        (q.1, if q.2.issuer = .trimmer t then { q.2 with issuer := .nobody } else q.2)) })) } }

/-- Stop a Trimmer at once (R125): its jobs run on with their completions discarded, its queued RPTs
stay. -/
def fenceTrimmer (t cause : Nat) (s : State) : State :=
  let x := aget s.trm t {}
  if x.fence.on then s else
  disownJobs t { s with
    trm := aset s.trm t { x with fence := { on := true, cause := cause }, run := .none, mainCtx := none, stall := none,
                                 wins := [], upcalls := [], cplq := [], jobs := 0, resv := none } }

/-- Fence an array: every active job ends `FENCED`, cause 0x01; one Kiln log entry by the plane that set
the fence; the saggar's Trimmers are told. An array already fenced keeps its cause. -/
def fenceArrayOnly (a cause : Nat) (plane : Plane) (tag : Nat) (s : State) : State :=
  let x := s.arr a
  if x.fence.on then s else
  let s := modArr a (fun x => { x with
    fence := { on := true, cause := cause }
    unplanned := true
    kept := x.kept.map (fun (t : Tile) => if t.st = 0 then { t with st := 3 } else t) }) s
  let s := forEach (x.slots.filter (fun q => q.2.active)) (fun q s => endJob a q.1 7 jFENCED 1 s) s
  let s := logAs plane 0x0202 a none [cause, tag] s
  match s.arrOwner a with
  | some g => upcallSaggar g 0 a s
  | none => s

/-- Fence a whole array die with its arrays, Trimmers and two HBM stacks (R540): the management
controller sets it. -/
def fenceDie (d : Nat) (s : State) : State :=
  if s.erc.adFenced.getD d false then s else
  let s := { s with erc := { s.erc with adFenced := s.erc.adFenced.set d true } }
  let s := forEach (List.range 384) (fun i s => if 384 * d + i < s.variant.arrays then fenceArrayOnly (384 * d + i) 5 .management 0 s else s) s
  let s := forEach (List.range 32) (fun i s => if 32 * d + i < s.variant.trimmers then fenceTrimmer (32 * d + i) 5 s else s) s
  forEach [2 * d, 2 * d + 1] (fun k s => if k < s.variant.stacks then fenceMemory (.hbm k) 5 s else s) s

/-- Array fences of a die by residue within 2^30 ACLK cycles fence the die once they exceed 64 (R540). -/
def fenceArray (a cause : Nat) (plane : Plane) (tag : Nat) (s : State) : State :=
  let was := (s.arr a).fence.on
  let s := fenceArrayOnly a cause plane tag s
  if cause ≠ 1 || was then s else
  let live := s.erc.dieFences.filter (fun p => decide (s.now < p.2 + aclk (2 ^ 30)))
  let l := live ++ [(arrDie a, s.now)]
  let s := { s with erc := { s.erc with dieFences := l } }
  if 64 < countIf l (fun p => p.1 = arrDie a) then fenceDie (arrDie a) s else s

/-! ## Issue (R76, R85) -/

/-- Some slot of an array is free; an array that is not fitted refuses at once. -/
def State.slotFree (s : State) (a : Nat) : Bool := decide (s.variant.arrays ≤ a) || decide ((s.arr a).slots.length < 2)

/-- Count a job into its group (R78): the forming group, or a new one. -/
def joinGroup (d : List Byte) (s : State) : Option Nat × State :=
  if dGroup d = 0 then (none, s) else
  match s.formingGroup (dSaggar d) (dGroup d) with
  | some x =>
    (some x.id, { s with arrs := { s.arrs with groups := s.arrs.groups.map (fun (y : Group) => if y.id = x.id then { y with counted := y.counted + 1 } else y) } })
  | none =>
    let x : Group := { id := s.arrs.nextGroup, saggar := dSaggar d, gid := dGroup d, aAddr := dAAddr d, aStride := dAStride d,
                       tLen := dTLen d, aFmt := dAFmt d, n := dGroupN d, counted := 1 }
    (some x.id, { s with arrs := { s.arrs with groups := s.arrs.groups ++ [x], nextGroup := s.arrs.nextGroup + 1 } })

/-- Present a descriptor of an issuer in saggar `g`: refused with a status and cause, its record
written; or accepted into a free slot. -/
def presentJob (d : List Byte) (iss : Issuer) (g : Nat) (f : Int) (s : State) : Option (Nat × Nat) × State :=
  match s.jobRefused d g with
  | some (jstat, cause) => (some (jstat, cause), writeCpl g d (cplRecord d jstat 0 cause f 0 0 0) s)
  | none =>
    let a := dArray d
    let slot := if ahas (s.arr a).slots 0 then 1 else 0
    match joinGroup d s with
    | (grp, s) =>
      let j : ArrJob := { desc := d, issuer := iss, order := (s.arr a).nextOrder, at_ := s.now, f := f, group := grp }
      (none, modArr a (fun x => { x with slots := aset x.slots slot j, nextOrder := x.nextOrder + 1 }) s)

/-! ## Loading (R77, R80, R598) -/

/-- An accepted job that comes before another in the array. -/
def State.earlier (s : State) (a slot : Nat) : Option ArrJob :=
  match s.job a slot with
  | none => none
  | some j => ((s.arr a).slots.find? (fun q => decide (q.2.order < j.order) && q.2.active)).map (·.2)

/-- The slot of the array's first job in a state, in acceptance order. -/
def State.firstIn (s : State) (a st : Nat) : Option Nat :=
  let l := (s.arr a).slots.filter (fun q => q.2.st = st)
  match l with
  | [] => none
  | [q] => some q.1
  | q :: r :: _ => some (if q.2.order < r.2.order then q.1 else r.1)

/-- A queued job enters `LOADING` once the other buffer is free: no earlier job is queued or loading. A
kept tile is checked again, its saggar and rate class with it (R598, R75). -/
def loadStart (a : Nat) (s : State) : State :=
  match s.firstIn a 1 with
  | none => s
  | some slot =>
    match s.job a slot with
    | none => s
    | some j =>
      let busy := match s.earlier a slot with | some e => decide (e.st ≤ 2) && !e.loaded | none => false
      if busy then s
      else if dKeep j.desc then
        match (s.arr a).kept with
        | some t =>
          if t.st = 2 then endJob a slot 6 jPOISON 0x20 s
          else if t.st ≠ 1 || !(s.arr a).holds (dSaggar j.desc) (dCls j.desc) then endJob a slot 6 jREJECTED 0x15 s
          else setJob a slot { j with st := 2, tile := t } s
        | none => endJob a slot 6 jREJECTED 0x15 s
      else
        modArr a (fun x => { x with kept := some { saggar := dSaggar j.desc, cls := dCls j.desc, by_ := j.order } })
          (setJob a slot { j with st := 2 } s)

/-- `JOB_LOAD_START`. -/
def execJobLoadStart (a : Nat) (s : State) : Host.Outcome State Fault Refusal :=
  run (decide (a < 1536)) (loadStart a s)

/-- `k` elements of a class as the array reads them: a nibble beyond them in the last byte is not read and
counts as zero (R67). -/
def trimRow (cls k : Nat) (b : List Byte) : List Byte :=
  if cls = 4 && k % 2 = 1 then b.dropLast ++ (b.getLast?.toList).map (· &&& 0x0F) else b

/-- The tile a job names, read from the shelf (R67). -/
def State.readTile (s : State) (j : ArrJob) : Tile :=
  let d := j.desc
  let g := dSaggar d
  { saggar := g, cls := dCls d, st := 1, by_ := j.order,
    rows := (List.range (dNLen d)).map (fun n =>
      trimRow (dCls d) (dKLen d) (s.shelfRead g (dWAddr d + n * dWStride d) (rowBytes (dWFmt d) (dKLen d)))),
    scales := if isMx (dWFmt d) then (List.range (dNLen d)).map (fun n => s.shelfRead g (dWsAddr d + n * dWsStride d) (dKLen d / 32)) else [] }

/-- The ranges of the shelf a tile lies in. -/
def tileRanges (d : List Byte) : List (Nat × Nat) :=
  (dWAddr d, (dNLen d - 1) * dWStride d + rowBytes (dWFmt d) (dKLen d))
    :: (if isMx (dWFmt d) then [(dWsAddr d, (dNLen d - 1) * dWsStride d + dKLen d / 32)] else [])

/-- An operand grain failed its check and the shelf cannot refetch it: the job ends `POISON_IN`; one of the
job's own tile spoils that tile where the array still holds it (R75, R598). -/
def operandBad (a slot : Nat) (tile : Bool) (s : State) : State :=
  match s.job a slot with
  | none => s
  | some j =>
    let s := if tile then modArr a (fun x => { x with
        kept := x.kept.map (fun (t : Tile) => if t.by_ = j.order then { t with st := 2 } else t) }) s else s
    endJob a slot 6 jPOISON 0x20 (bumpSat (satArrPoison a) s)

/-- Bytes of the array's staging ring in use (R66). -/
def State.stageUsed (s : State) (a : Nat) : Nat :=
  (s.arr a).slots.foldl (fun n q => n + q.2.stage.flatten.length) 0

/-- Fetch token vectors ahead of the stream while the 32 KiB ring has room (R66). How far ahead the fetch
runs the spec leaves open: as far as the ring allows (DESIGN CHOICE, log 136). -/
def fillStage (a slot : Nat) (s : State) : State :=
  match s.job a slot with
  | none => s
  | some j =>
    let d := j.desc
    let first := j.tok + j.stage.length
    let n := min ((32768 - s.stageUsed a) / max 1 (aToken d)) (dTLen d - first)
    let at_ := fun i => dAAddr d + (first + i) * dAStride d
    if (List.range n).all (fun i => s.shelfOk (dSaggar d) (at_ i) (aToken d)) then
      setJob a slot { j with stage := j.stage ++ (List.range n).map (fun i => s.shelfRead (dSaggar d) (at_ i) (aToken d)) } s
    else operandBad a slot false s

/-- Fetch what `LOADING` and a retry fetch (R80): the tile where the job keeps none, and the column
parameters. -/
def fetchTile (a slot : Nat) (s : State) : State :=
  match s.job a slot with
  | none => s
  | some j =>
    let d := j.desc
    let g := dSaggar d
    let fin := dFin d && !dPOut d
    if !dKeep d && !(tileRanges d).all (fun r => s.shelfOk g r.1 r.2) then operandBad a slot true s
    else if fin && !s.shelfOk g (dColAddr d) 256 then operandBad a slot false s
    else
      let t := if dKeep d then j.tile else s.readTile j
      setJob a slot { j with loaded := true, tile := t, params := if fin then s.shelfRead g (dColAddr d) 256 else [] } s

def setRamp (die : Nat) (r : Ramp) (s : State) : State := { s with arrs := { s.arrs with ramp := aset s.arrs.ramp die r } }

/-- The ramp a start counts in, and its limit (R79): the die's, or the saggar's share of it in proportion
to its arrays on the die, at least 1 (R499). -/
def State.rampOf (s : State) (a g : Nat) : Nat × Nat :=
  let die := arrDie a
  if s.confAny then
    let mine := countIf (List.range 384) (fun i => recArray (s.sagRec g) (384 * die + i))
    (8 * (g + 1) + die, max 1 (s.nodeParam 0x0208 * mine / 384))
  else (die, s.nodeParam 0x0208)

/-- Start streaming, or hold the start where the ramp limit would be exceeded (R79); a job that streams again
after a failed attempt enters `STREAMING` so too. -/
def startStream (a slot : Nat) (s : State) : State :=
  match s.job a slot with
  | none => s
  | some j =>
    let (die, limit) := s.rampOf a (dSaggar j.desc)
    let r := aget s.arrs.ramp die {}
    let live := r.starts.filter (fun t => decide (s.now < t + aclk 2500))
    if limit ≤ live.length ∨ !r.held.isEmpty then
      let r : Ramp := { r with starts := live, warnAt := if r.held.isEmpty then some s.now else r.warnAt, held := r.held ++ [(a, slot)], highAt := none }
      setJob a slot { j with held := true } (setRamp die r s)
    else setJob a slot { j with st := 4, tok := 0 } (setRamp die { r with starts := live ++ [s.now] } s)

/-- Drop groups that are closed and have counted every member. -/
def dropGroups (s : State) : State :=
  { s with arrs := { s.arrs with groups := s.arrs.groups.filter (fun x => !(x.closed && decide (x.n ≤ x.counted))) } }

def State.groupOf (s : State) (id : Nat) : Option Group := s.arrs.groups.find? (fun x => x.id = id)
def modGroup (id : Nat) (f : Group → Group) (s : State) : State :=
  { s with arrs := { s.arrs with groups := s.arrs.groups.map (fun x => if x.id = id then f x else x) } }

/-- A loaded job goes on: alone, or to `WAIT_GROUP` (R78). A group that has closed starts it at once. -/
def goOn (a slot : Nat) (s : State) : State :=
  match s.job a slot with
  | none => s
  | some j =>
    match j.group.bind s.groupOf with
    | none => startStream a slot s
    | some x =>
      if x.closed then startStream a slot s
      else
        modGroup x.id (fun x => { x with
          waiting := x.waiting ++ [(a, slot)]
          deadline := some (x.deadline.getD (s.now + aclk (2 ^ 20))) })
          (setJob a slot { j with st := 3 } s)

/-- The tile and parameters of a loading job come in; its tile is held from now. -/
def loadJob (a slot : Nat) (s : State) : State :=
  let s := fetchTile a slot s
  match s.job a slot with
  | none => s
  | some j =>
    if j.st ≠ 2 || dKeep j.desc then s else modArr a (fun x => { x with kept := some j.tile }) s

/-- The tile of the loading job is in its buffer and staging is primed: the job goes on once no earlier
job of the array still runs. -/
def tileLoaded (a : Nat) (s : State) : State :=
  match s.firstIn a 2 with
  | none => s
  | some slot =>
    match s.job a slot with
    | none => s
    | some j =>
      if j.held then s else
      let s := if j.loaded then s else loadJob a slot s
      let s := if (s.job a slot).any (·.st = 2) then fillStage a slot s else s
      if !(s.job a slot).any (·.st = 2) || (s.earlier a slot).isSome then s else goOn a slot s

/-- `TILE_LOADED`. -/
def execTileLoaded (a : Nat) (s : State) : Host.Outcome State Fault Refusal :=
  run (decide (a < 1536)) (tileLoaded a s)

/-- All members of a group wait: they start in one cycle (R78). -/
def groupComplete (gid : Nat) (s : State) : State :=
  forEach (s.arrs.groups.filter (fun x => x.gid = gid && !x.closed && decide (x.n ≤ x.waiting.length))) (fun x s =>
    dropGroups (forEach x.waiting (fun q s => startStream q.1 q.2 s)
      (modGroup x.id (fun x => { x with waiting := [], closed := true, deadline := none }) s))) s

/-- `GROUP_COMPLETE`. -/
def execGroupComplete (gid : Nat) (s : State) : Host.Outcome State Fault Refusal :=
  run (decide (gid < 65536)) (groupComplete gid s)

/-- Assembly times out: the waiting members start with separate reads and the group closes (R78); members
that all wait start as a complete group does (R26). -/
def groupTimeout (gid : Nat) (s : State) : State :=
  forEach (s.arrs.groups.filter (fun x => x.gid = gid && !x.closed && x.deadline.isSome)) (fun x s =>
    dropGroups (forEach x.waiting (fun q s => startStream q.1 q.2 s)
      (modGroup x.id (fun x => { x with waiting := [], closed := true, deadline := none }) (expire (aclk 1) (x.deadline.getD 0) s)))) s

/-- `GROUP_ASSEMBLY_TIMEOUT`. -/
def execGroupAssemblyTimeout (gid : Nat) (s : State) : Host.Outcome State Fault Refusal :=
  run (decide (gid < 65536)) (groupTimeout gid s)

/-- The held starts of a ramp are released 2,500 ACLK cycles after the assertion (R79); its bit goes high
2^13 cycles later (R572). -/
def releaseRamp (die : Nat) (s : State) : State :=
  let r := aget s.arrs.ramp die {}
  match r.warnAt with
  | none => s
  | some w =>
    if r.held.isEmpty then s else
    let s := carry (w + aclk 2500) s
    let s := setRamp die { r with starts := r.held.map (fun _ => s.now), held := [], highAt := some (s.now + aclk (2 ^ 13)) } s
    forEach r.held (fun q s => match s.job q.1 q.2 with
      | some j => setJob q.1 q.2 { j with st := 4, tok := 0, held := false } s
      | none => s) s

/-- The ramps of a die, in order of assertion time. -/
def rampRelease (die : Nat) (s : State) : State :=
  forEach ((s.arrs.ramp.filter (fun p => p.1 % 8 = die && p.2.warnAt.isSome)).map (·.1)) releaseRamp s

/-- `RAMP_RELEASE`. -/
def execRampRelease (die : Nat) (s : State) : Host.Outcome State Fault Refusal :=
  run (decide (die < 4)) (rampRelease die s)

/-! ## Operands and streaming (R64, R75, R80, R88) -/

/-- Whether an offset lies in a range. -/
def inRange (a : Nat) (r : Nat × Nat) : Bool := decide (r.1 ≤ a ∧ a < r.1 + r.2)

/-- Operand data arrives and its checks run: a grain that failed and could not be refetched ends the job
`POISON_IN`, one of the tile also spoiling the held tile; a partial-frame record of another F or W ends
it `REJECTED` (R75). -/
def operandArrival (a slot addr : Nat) (crcOk : Bool) (s : State) : State :=
  match s.job a slot with
  | none => s
  | some j =>
    if !decide (2 ≤ j.st ∧ j.st ≤ 5) then s
    else if !crcOk then
      operandBad a slot ((j.st = 2 || j.st = 5) && !dKeep j.desc && (tileRanges j.desc).any (inRange addr)) s
    else if dPIn j.desc && inRange addr (dPInAddr j.desc, dTLen j.desc * pRecord j.desc) then
      let t := (addr - dPInAddr j.desc) / pRecord j.desc
      let r := recordFrames (dW j.desc) j.f (s.shelfRead (dSaggar j.desc) (dPInAddr j.desc + t * pRecord j.desc) (pRecord j.desc))
      if r.2 then s else endJob a slot 6 jREJECTED 0x21 s
    else s

/-- `OPERAND_ARRIVAL`. -/
def execOperandArrival (a slot addr : Nat) (crcOk : Bool) (s : State) : Host.Outcome State Fault Refusal :=
  run (decide (a < 1536) && decide (slot < 2) && decide (addr < 2 ^ 64)) (operandArrival a slot addr crcOk s)

/-- A failed attempt (R88, R89): up to two retries; the third fences the array. -/
def failAttempt (a slot : Nat) (j : ArrJob) (s : State) : State :=
  let s := tapAdd (dSaggar j.desc) 1 (1024 * j.tok) (bumpSat (satArrResidue a) s)
  if j.failed < 2 then setJob a slot { j with st := 5, failed := j.failed + 1, tok := 0, stage := [], outs := [], drained := 0, ovf := 0, sat := 0 } s
  else fenceArray a 1 .data (dTag j.desc) (endJob a slot 7 jRESIDUE 0 s)

/-- Outputs go from the output area to the shelf, each grain with its CRC-32C (R84). -/
def drainOuts (a slot n : Nat) (s : State) : State :=
  match s.job a slot with
  | none => s
  | some j =>
    setJob a slot { j with outs := j.outs.drop n, drained := j.drained + (j.outs.take n).length }
      (forEach (j.outs.take n).zipIdx (fun q s => shelfProduce (dSaggar j.desc) (outRange j.desc (j.drained + q.2)).1 q.1 s) s)

/-- A token's output enters the 16 KiB output area; where it has no room the oldest go to the shelf first
(R66). -/
def pushOut (a slot : Nat) (o : TokenOut) (s : State) : State :=
  match s.job a slot with
  | none => s
  | some j =>
    let size := max 1 o.bytes.length
    let s := drainOuts a slot (j.outs.length + 1 - 16384 / size) s
    match s.job a slot with
    | none => s
    | some j => setJob a slot { j with tok := j.tok + 1, stage := j.stage.drop 1, outs := j.outs ++ [o.bytes], ovf := j.ovf + o.ovf, sat := j.sat + o.sat } s

/-- The token at the front of the staging ring passes the array; a residue that disagrees ends the attempt
(R86). -/
def passToken (a slot : Nat) (u : Upset) (s : State) : State :=
  match s.job a slot with
  | none => s
  | some j =>
    if j.st ≠ 4 then s else
    let s := bumpCtr (ctrArrBusy a) 1 s
    match s.runToken (dSaggar j.desc) j j.tok (j.stage.getD 0 []) u with
    | .rejected => endJob a slot 6 jREJECTED 0x21 s
    | .mismatch => failAttempt a slot j s
    | .out o => pushOut a slot o s

/-- One token enters the streaming array (R64); a mismatch any protection reports ends the attempt (R87). -/
def streamToken (a : Nat) (u : Upset) (s : State) : State :=
  match s.firstIn a 4 with
  | none => s
  | some slot =>
    match s.job a slot with
    | none => s
    | some j =>
      if u = .reported then failAttempt a slot j (if j.tok < dTLen j.desc then bumpCtr (ctrArrBusy a) 1 s else s)
      else if dTLen j.desc ≤ j.tok then s
      else passToken a slot u (fillStage a slot s)

/-- `STREAM_TOKEN`. -/
def execStreamToken (a : Nat) (u : Upset) (s : State) : Host.Outcome State Fault Refusal :=
  run (decide (a < 1536) && u.wf) (streamToken a u s)

/-- The tile is reloaded, staging is primed again from token 0, and the job enters `STREAMING` (R80, R88); a
kept tile is the one still held. -/
def retryReloaded (a : Nat) (s : State) : State :=
  match s.firstIn a 5 with
  | none => s
  | some slot =>
    match s.job a slot with
    | none => s
    | some j =>
      if j.held then s else
      let s := fetchTile a slot s
      let s := if (s.job a slot).any (·.st = 5) then fillStage a slot s else s
      if (s.job a slot).any (·.st = 5) then startStream a slot s else s

/-- `RETRY_RELOADED`. -/
def execRetryReloaded (a : Nat) (s : State) : Host.Outcome State Fault Refusal :=
  run (decide (a < 1536)) (retryReloaded a s)

/-- The last token is finished: the output drains to the shelf (R80, R84). -/
def streamComplete (a : Nat) (s : State) : State :=
  match s.firstIn a 4 with
  | none => s
  | some slot =>
    match s.job a slot with
    | none => s
    | some j =>
      if j.tok < dTLen j.desc then s else
      let s := tapAdd (dSaggar j.desc) 0 (1024 * dTLen j.desc) s
      let s := drainOuts a slot j.outs.length s
      match s.job a slot with
      | none => s
      | some j => setJob a slot { j with st := 6, jstat := if j.ovf = 0 then jDONE else jDONEOVF, cause := 0 } s

/-- `STREAM_COMPLETE`. -/
def execStreamComplete (a : Nat) (s : State) : Host.Outcome State Fault Refusal :=
  run (decide (a < 1536)) (streamComplete a s)

/-! ## Fence, unfence, BIST (R90 to R92) -/

def arrCtrl (a : Nat) : Nat := arrPage a + 8

/-- The plane a requester writes for (R590, R597). -/
def planeOf : Who → Plane
  | .management => .management
  | _ => .control

/-- `ARR_FENCE_WRITE`. -/
def execArrFenceWrite (who : Who) (a : Nat) (s : State) : Host.Outcome State Fault Refusal :=
  run (who.wf && decide (a < 1536)) (ctlWrite who (arrCtrl a) true (fun s => fenceArray a (fenceCauseOf who) (planeOf who) 0 s) s)

/-- `ARR_UNFENCE`: the in-service BIST of a fenced array starts. -/
def execArrUnfence (who : Who) (a : Nat) (s : State) : Host.Outcome State Fault Refusal :=
  run (who.wf && decide (a < 1536)) (ctlWrite who (arrCtrl a) (liftsFence who)
    (fun s => if (s.arr a).fence.on then modArr a (fun x => { x with bist := some (who = .management) }) s else s) s)

/-- The outcome of a BIST: pass (result word zero) lifts the fence, failure leaves it with cause 0x3. -/
def arrBist (a : Nat) (result : Word64) (plane : Plane) (lift : Bool) (s : State) : State :=
  if result = 0 then
    let s := modArr a (fun x => { x with fence := { on := false, cause := 0 }, bist := none }) s
    if lift then logAs plane 0x0202 a none [0, 0] s else s
  else logAs plane 0x0201 a none [result.toNat] (modArr a (fun x => { x with fence := { on := true, cause := 3 }, bist := none }) s)

/-- The BIST that `ARR_UNFENCE` started ends. -/
def arrBistDone (a : Nat) (result : Word64) (s : State) : State :=
  match (s.arr a).bist with
  | none => s
  | some mgmt => arrBist a result (if mgmt then .management else .control) true s

/-- `ARR_BIST_DONE`. -/
def execArrBistDone (a : Nat) (result : Word64) (s : State) : Host.Outcome State Fault Refusal :=
  run (decide (a < 1536)) (arrBistDone a result s)

/-- The power-on BIST of a fitted array not yet admitted ends (R92); that of a die fenced meanwhile, or whose rail
is off, is discarded (R587). -/
def powerOnBist (a : Nat) (result : Word64) (s : State) : State :=
  if s.erc.adFenced.getD (arrDie a) false then s
  else if decide (a < s.variant.arrays) && (s.arr a).fence.on && (s.arr a).fence.cause = 2 then arrBist a result .management false s else s

/-- `ARRAY_POWER_ON_BIST`. -/
def execArrayPowerOnBist (a : Nat) (result : Word64) (s : State) : Host.Outcome State Fault Refusal :=
  run (decide (a < 1536)) (powerOnBist a result s)

/-- Zero an array for a new owner or a change of confidentiality (R70): the tile it holds, and the weights,
staging, outputs and frames of the jobs in its slots. What becomes of those jobs the spec leaves open: one
past `QUEUED` has lost its tile and ends `REJECTED`, cause 0x15, as R598 ends a job whose tile was zeroed;
one still `QUEUED` whose saggar no longer owns the array ends `DENIED` (DESIGN CHOICE, log 137). -/
def zeroArray (a : Nat) (s : State) : State :=
  let s := modArr a (fun x => { x with
    kept := x.kept.map (fun t => { t with st := 3, rows := [], scales := [] })
    slots := x.slots.map (fun (q : Nat × ArrJob) => (q.1, { q.2 with tile := { st := 3 }, params := [], stage := [], outs := [] })) }) s
  forEach ((s.arr a).slots.filter (fun q => q.2.active)) (fun q s =>
    if q.2.st ≠ 1 then endJob a q.1 6 jREJECTED 0x15 s
    else if s.arrOwner a = some (dSaggar q.2.desc) then s
    else endJob a q.1 6 jDENIED 0 s) s

end Sys2Proof.Machine
end

