-- ==== Sys2Proof/Machine/Coherence.lean ====
section
/-! DEFINITION. Coherence domains and ownership (chapter 13): invalidations, domain fences and their
re-formation, and the owner token. -/

namespace Sys2Proof.Machine

/-! ## Domains of this chip -/

/-- The composition whose image defines a domain (R369). -/
def State.domainComp (s : State) (id : Nat) : Option Nat :=
  (s.img.cur.sections.find? (fun c => c.ty = tyDOMAINS ∧ (domainRecs (c.body.getD []) 256).any (fun d => d.id = id) = true)).map (·.comp)

/-- The slot of a domain (`COH_DOM`). -/
def State.domSlot? (s : State) (id : Nat) : Option (Nat × DomSlot) :=
  s.coh.slots.find? (fun p => p.2.domain = id ∧ p.2.st ≠ 0)

def setSlot (n : Nat) (d : DomSlot) (s : State) : State :=
  { s with coh := { s.coh with slots := aset s.coh.slots n d } }

/-- The CXL port and LD an endpoint node lies behind on this chip (R433). -/
def State.cxlPortOf (s : State) (node : Nat) : Option Nat :=
  ((ldRecs (s.nodeBody tyPORTS)).find? (fun l => l.endpoint = node)).map (·.port)

/-- Caching agents of a domain behind this chip (R376). -/
def State.agentsHere (s : State) (dom : Nat) : List Nat :=
  match s.domain? dom with
  | some d => d.agents.filter (fun a => s.edgeOf a = some s.fab.node || (s.cxlPortOf a).isSome)
  | none => []

/-- Whether an `EDGE_C` port of this chip serves a region's grain of a domain (R379). -/
def State.regionOfGrain (s : State) (home off : Nat) : Option Region :=
  (s.tie.regions.find? (fun p => p.2.home = home ∧ p.2.base ≤ off ∧ off < p.2.base + p.2.size)).map (·.2)

/-- Raise the fence upcall of R104 on the Trimmers of a composition's saggar: kind 1 composition, 2
coherent domain. -/
def fenceUpcall (comp kind id : Nat) (s : State) : State :=
  match s.sagOfComp comp with
  | none => s
  | some g => upcallSaggar g kind id s

/-! ## INVAL and BISnp (R375, R376) -/

/-- Back-invalidate a grain on a port's HDM-DB channel and drop it from the snoop filter. -/
def biSnoop (port home off : Nat) (s : State) : State :=
  emit (.biSnp port home off)
    { s with coh := { s.coh with snoop := amod s.coh.snoop port [] (fun l => l.erase (home, off)) } }

/-- Grains an `INVAL` names: their offsets. -/
def invalGrains (p : Packet) : List Nat := (List.range (bits (le p.payload 0 8) 0 9)).map (fun i => p.offset + 256 * i)

/-- An `INVAL` taken by this chip: for a CXL host by snoops, for the chip as member by forwarding to the
agents behind it; outside the domain it is denied. -/
def inval (p : Packet) (s : State) : State :=
  let w := le p.payload 0 8
  let dom := bits w 16 16
  if !classOk opINVAL p.cls ∨ p.payload.length ≠ 8 ∨ p.offset % 256 ≠ 0 ∨ bits w 0 9 = 0 ∨ 256 < bits w 0 9 then
    reply p .denied 0 [] (take p s) else
  match s.domain? dom with
  | none => reply p .denied 0 [] (take p s)
  | some d =>
    match s.cxlPortOf p.dst with
    | some port =>
      if !d.agents.contains p.dst then reply p .denied 0 [] (take p s) else
      let sn := (invalGrains p).map (fun o => (port, p.src, o))
      let s := forEach (invalGrains p) (fun o s => biSnoop port p.src o s) (take p s)
      { s with coh := { s.coh with forwards := s.coh.forwards ++ [{ pkt := p, snoops := sn }] } }
    | none =>
      if p.dst ≠ s.fab.node then s
      else if !d.members.contains s.fab.node then reply p .denied 0 [] (take p s)
      else
        let s := take p s
        let agents := s.agentsHere dom
        let hosts := agents.filterMap (fun a => s.cxlPortOf a)
        let eps := agents.filter (fun a => (s.cxlPortOf a).isNone)
        if agents.isEmpty then reply p .ok 0 [] s else
        let sn := hosts.flatMap (fun h => (invalGrains p).map (fun o => (h, p.src, o)))
        let sent := issueAll .control (fun a => { (mkInval a p.offset (bits w 0 9) dom p.saggar) with offset := p.offset }) eps
          (bumpCtr ctrCohInval eps.length s)
        let s := forEach sn (fun x s => biSnoop x.1 x.2.1 x.2.2 s) sent.2
        { s with coh := { s.coh with forwards := s.coh.forwards ++ [{ pkt := p, tags := sent.1, snoops := sn }] } }

/-- The meaning of `INVAL`. -/
def execInval (p : Packet) (s : State) : Host.Outcome State Fault Refusal :=
  run (p.wf) (inval { p with opcode := opINVAL } s)

/-- Answer the forwarded `INVAL`s for which everyone has answered (R376). -/
def settleForwards (s : State) : State :=
  let ready := s.coh.forwards.filter (fun f => f.tags.isEmpty && f.snoops.isEmpty)
  forEach ready (fun f s => reply f.pkt .ok 0 [] s)
    { s with coh := { s.coh with forwards := s.coh.forwards.filter (fun f => !(f.tags.isEmpty && f.snoops.isEmpty)) } }

/-- A `BIRsp` of a CXL host arrives (R376). -/
def birsp (port home off : Nat) (s : State) : State :=
  settleForwards { s with coh := { s.coh with
    forwards := s.coh.forwards.map (fun f => { f with snoops := f.snoops.erase (port, home, off) }) } }

/-- The meaning of `BIRSP`. -/
def execBirsp (port home off : Nat) (s : State) : Host.Outcome State Fault Refusal :=
  run (decide (port < 64) && decide (home < 65536) && decide (off < 2 ^ 48)) (birsp port home off s)

/-! ## Domain fences (R378, R379) -/

/-- Discard the shadows of an epoch prepared here and not committed (R475): back from `STAGED` to `RUN`. -/
def dropShadows (s : State) : State :=
  { s with
    wit := { s.wit with awaiting := 0, refused := false }
    img := { s.img with
    st := if s.img.st = 3 then 2 else s.img.st
    shadow := none
    prepared := none
    readySent := false
    preparedFences := [] } }

/-- The coordinator abandons the epoch it prepares: every chip is told and the event written. -/
def abandonEpoch (silent : Nat) (s : State) : State :=
  match s.img.preparing with
  | none => s
  | some e =>
    let s := sendCtrlAll s.plofens (.abandon e) s
    logEvent 0x0803 0 none [e, silent] (dropShadows { s with img := { s.img with
      preparing := none
      readyFrom := []
      stageDeadline := none } })

/-- This member enters `FENCED`: waiting writes end `NACK_FENCED` (a read that waited for an eviction keeps its place
in the queue and meets the fence, if it is its own region's, when it is served), agents behind it are told, snoop
filters are back-invalidated, Trimmers receive the upcall. -/
def enterFenced (dom cause : Nat) (s : State) : State :=
  match s.domSlot? dom with
  | none => s
  | some (n, d) =>
    let s := setSlot n { d with st := 2, cause := cause, cleared := [] } s
    let mine := s.coh.waits.filter (fun w => w.domain = dom)
    let s := { s with coh := { s.coh with waits := s.coh.waits.filter (fun w => w.domain ≠ dom) } }
    let s := forEach (mine.filter (fun w => w.pkt.opcode ≠ opREAD)) (fun w s => reply w.pkt .nackFenced 0 [] (take w.pkt s)) s
    let s := { s with fab := { s.fab with outst := s.fab.outst.filter (fun r =>
      ¬ (r.pkt.opcode = opINVAL ∧ r.req = .control ∧ bits (le r.pkt.payload 0 8) 16 16 = dom)) } }
    let s := forEach (s.agentsHere dom) (fun a s => sendCtrl a (.domainDown dom) s) s
    let grains := s.coh.snoop.flatMap (fun q => (q.2.filter (fun x =>
      match s.regionOfGrain x.1 x.2 with | some r => r.domain = dom | none => false)).map (fun x => (q.1, x.1, x.2)))
    let s := forEach grains (fun x s => biSnoop x.1 x.2.1 x.2.2 s) s
    match s.domainComp dom with
    | some c => fenceUpcall c 2 dom s
    | none => s

/-- A domain is fenced: reported by this chip's control plane (event, count and messages to every
member) or by another member's message. It waits while the control cores restart. -/
def domainFence (dom cause : Nat) (here : Bool) (s : State) : State :=
  if s.arch.cp = .restart then
    { s with coh := { s.coh with heldFences := s.coh.heldFences ++ [(dom, cause, here)] } } else
  match s.domSlot? dom with
  | none => s
  | some (n, d) =>
    if d.st = 2 then s else
    -- R381: an event while the domain re-forms abandons the epoch in preparation
    let s := if d.st = 3 then abandonEpoch s.fab.node s else s
    let s := if here then
        let s := logEvent 0x0602 n none [dom, cause] (bumpSat satCohFences s)
        match s.domain? dom with
        | some r => sendCtrlAll r.members (.domainFence dom cause) s
        | none => s
      else s
    enterFenced dom cause s

/-- The meaning of `DOMAIN_FENCE`. -/
def execDomainFence (dom cause : Nat) (here : Bool) (s : State) : Host.Outcome State Fault Refusal :=
  run (decide (dom < 65536) && decide (cause < 8)) (domainFence dom cause here s)

/-- A fenced domain re-forms once every reachable member has reported its directory cleared (R381). -/
def reform (dom : Nat) (s : State) : State :=
  match s.domSlot? dom, s.domain? dom with
  | some (n, d), some r =>
    let reachable := (List.range r.members.length).filter (fun i => !s.erc.lost.contains (r.members.getD i 0))
    if d.st = 2 && reachable.all d.cleared.contains then setSlot n { d with st := 3 } s else s
  | _, _ => s

/-- A member's directory is cleared (R381): this chip clears its own and tells the others; when every
reachable member has reported, the domain re-forms. Re-formation waits while the control cores restart
(R22). -/
def directoryCleared (dom member : Nat) (s : State) : State :=
  if s.arch.cp = .restart then
    { s with coh := { s.coh with heldCleared := s.coh.heldCleared ++ [(dom, member)] } } else
  match s.domSlot? dom, s.domain? dom with
  | some (n, d), some r =>
    if d.st ≠ 2 then s else
    let s := if member = d.member then
        sendCtrlAll r.members (.directoryCleared dom)
          { s with coh := { s.coh with dir := s.coh.dir.filter (fun e => (s.region e.1.1).domain ≠ dom) } }
      else s
    reform dom (setSlot n { d with cleared := if d.cleared.contains member then d.cleared else d.cleared ++ [member] } s)
  | _, _ => s

/-- The meaning of `DOMAIN_DIRECTORY_CLEARED`. -/
def execDomainDirectoryCleared (dom member : Nat) (s : State) : Host.Outcome State Fault Refusal :=
  run (decide (dom < 65536) && decide (member < 64)) (directoryCleared dom member s)

/-- At the commit of a new epoch, re-forming domains come up (R381). -/
def domainsUp (s : State) : State :=
  forEach (s.coh.slots.filter (fun q => q.2.st = 3)) (fun q s =>
    let s := setSlot q.1 { q.2 with st := 1, cleared := [] } s
    forEach (s.agentsHere q.2.domain) (fun a s => sendCtrl a (.domainUp q.2.domain) s) s) s

/-! ## Answers to invalidations (R373, R377, R378) -/

/-- A request whose invalidations have all been acknowledged takes its turn: the entry is freed and the
request served. -/
def applyWait (w : InvWait) (s : State) : State :=
  let s := { s with coh := { s.coh with
    waits := s.coh.waits.erase w
    dir := aerase s.coh.dir (w.region, w.grain) } }
  if w.pkt.opcode = opREAD then serveRead w.pkt s else serveChange w.pkt false s

/-- An `INVAL` of this chip is answered or given up: `OK` counts it off; anything else fences its domain
(cause 0x5, or 0x1 for a timeout). -/
def invalAnswered (r : Req) (code : Nat) (s : State) : State :=
  let dom := bits (le r.pkt.payload 0 8) 16 16
  if code ≠ 0 then domainFence dom (if code = 0xF then 1 else 5) true s else
  let s := { s with coh := { s.coh with
    waits := s.coh.waits.map (fun w => { w with tags := w.tags.erase r.pkt.tag })
    forwards := s.coh.forwards.map (fun f => { f with tags := f.tags.erase r.pkt.tag }) } }
  forEach (s.coh.waits.filter (fun w => w.tags.isEmpty)) applyWait (settleForwards s)

/-! ## Ownership (R382 to R387) -/

/-- The payload of an `OWN_` packet (R384). -/
def ownPayload (region kind outcome peer xfer version : Nat) : List Byte :=
  natLe (region + kind * 2 ^ 32 + outcome * 2 ^ 36 + peer * 2 ^ 48) 8 ++ natLe (xfer + version * 2 ^ 32) 8

/-- Send an ownership notice to a node, unless there is none. -/
def ownNotice (op node outcome peer : Nat) (r : Region) (s : State) : State :=
  if node = 0xFFFF then s else
  issue .control { dst := node, opcode := op, saggar := r.saggar, offset := r.base, cls := 1, length := 16,
                   payload := ownPayload r.id 1 outcome peer r.xfer r.version } s

/-- The checks an `OWN_` request passes before its own rules, in the order of R595. -/
def State.ownRefusal (s : State) (p : Packet) : Except (Status × Nat) Region :=
  match s.snapRefusal p with
  | .error e => .error e
  | .ok r => if r.coh ≠ 2 then .error (.denied, 0) else .ok r

/-- Serve an `OWN_` packet: a notice is acknowledged, a request checked and then decided. -/
def serveOwn (p : Packet) (f : Region → State → State) (s : State) : State :=
  if bits (le p.payload 0 8) 32 4 = 1 then reply p .ok 0 [] (take p s) else
  match s.ownRefusal p with
  | .error (st, h) => reply p st h [] (take p s)
  | .ok r => f r (take p s)

/-- `OWN_OFFER`. -/
def ownOffer (p : Packet) (s : State) : State :=
  serveOwn p (fun r s =>
    let target := bits (le p.payload 0 8) 48 16
    if r.inTransfer then
      (if p.src = r.owner ∧ target = r.target then reply p .ok 0 [] s else reply p .nackRetry 14 [] s)
    else if p.src ≠ r.owner then reply p .nackNotOwner 0 [] s
    else
      let x := (r.xfer + 1) % 2 ^ 32
      let r' : Region := { r with inTransfer := true, target := target, xfer := x,
                                  xferDeadline := some (s.now + sclk (2 ^ bits s.coh.ctrl.toNat 0 5)) }
      let s := modRegion r.id (fun _ => r') s
      ownNotice opOFFER target 0 r.owner r' (reply p .ok 0 [] s)) s

/-- The meaning of `OWN_OFFER`. -/
def execOwnOffer (p : Packet) (s : State) : Host.Outcome State Fault Refusal :=
  run (p.wf) (ownOffer { p with opcode := opOFFER } s)

/-- `OWN_ACCEPT`. -/
def ownAccept (p : Packet) (s : State) : State :=
  serveOwn p (fun r s =>
    let x := le p.payload 8 4
    if r.inTransfer ∧ p.src = r.target ∧ x = r.xfer then
      let r' : Region := { r with inTransfer := false, owner := p.src, target := 0xFFFF, xferDeadline := none, acceptedXfer := some x }
      ownNotice opACCEPT r.owner 1 p.src r' (reply p .ok 0 [] (modRegion r.id (fun _ => r') s))
    else if p.src = r.owner ∧ r.acceptedXfer = some x then reply p .ok 0 [] s
    else reply p .denied 0 [] s) s

/-- The meaning of `OWN_ACCEPT`. -/
def execOwnAccept (p : Packet) (s : State) : Host.Outcome State Fault Refusal :=
  run (p.wf) (ownAccept { p with opcode := opACCEPT } s)

/-- Reset the working pages to the current version's list (R214, R387). -/
def resetWorking (id : Nat) (s : State) : State :=
  let r := s.region id
  let cur := aget r.versions r.version {}
  freeUnheld (r.working.flatMap (·.2) ++ (r.moves.filter (fun m => m.node.isNone)).map (·.dst))
    (modRegion id (fun r => { r with working := cur.pages, lostPages := cur.lost, moves := [] }) s)

/-- Whether a node, or the edge Plofen of an endpoint, can still be reached. -/
def State.nodeReached (s : State) (n : Nat) : Bool :=
  !s.erc.lost.contains n && (match s.edgeOf n with | some e => !s.erc.lost.contains e | none => true)

/-- `OWN_FORCE`. -/
def ownForce (p : Packet) (s : State) : State :=
  serveOwn p (fun r s =>
    let inComp := r.owner ∈ s.members r.comp ∨ r.owner ∈ s.endpoints r.comp
    if r.owner = 0xFFFF ∨ ¬ inComp ∨ p.src = s.fab.node then
      let former := r.owner
      let oldTarget := if r.inTransfer then r.target else 0xFFFF
      let s := resetWorking r.id s
      let s := modRegion r.id (fun r => { r with inTransfer := false, owner := p.src, target := 0xFFFF,
                                                 xferDeadline := none, acceptedXfer := none }) s
      let r' := s.region r.id
      let s := reply p .ok 0 [] s
      let tell (n : Nat) (s : State) : State := if !s.nodeReached n then s else ownNotice opFORCE n 3 p.src r' s
      tell oldTarget (tell former s)
    else reply p .denied 0 [] s) s

/-- The meaning of `OWN_FORCE`. -/
def execOwnForce (p : Packet) (s : State) : Host.Outcome State Fault Refusal :=
  run (p.wf) (ownForce { p with opcode := opFORCE } s)

/-- A transfer times out: the token reverts to its owner (R385). -/
def transferTimeout (id : Nat) (s : State) : State :=
  let r := s.region id
  match r.xferDeadline with
  | none => s
  | some d =>
    let s := bumpSat satCohReverts (expire (sclk 1) d s)
    let target := r.target
    let s := modRegion id (fun r => { r with inTransfer := false, target := 0xFFFF, xferDeadline := none }) s
    let r' := s.region id
    ownNotice opOFFER target 2 r'.owner r' (ownNotice opOFFER r'.owner 2 r'.owner r' s)

/-- The meaning of `OWN_TRANSFER_TIMEOUT`. -/
def execOwnTransferTimeout (region : Nat) (s : State) : Host.Outcome State Fault Refusal :=
  run (decide (region < 2 ^ 32)) (transferTimeout region s)

/-- `COH_CTRL` written by the control plane alone; an exponent outside 16 to 30 is discarded. -/
def writeCohCtrl (who : Who) (v : Word32) (s : State) : Status × State :=
  if who ≠ .control then (.denied, s) else
  let e := bits v.toNat 0 5
  (.ok, if 16 ≤ e ∧ e ≤ 30 then { s with coh := { s.coh with ctrl := v } } else s)

/-- The meaning of `COH_CTRL_WRITE`. -/
def execCohCtrlWrite (who : Who) (v : Word32) (s : State) : Host.Outcome State Fault Refusal :=
  run (who.wf)
    (ctlWriteSt who 0x0400040 (writeCohCtrl who v) s)

end Sys2Proof.Machine
end

