-- ==== Sys2Proof/Machine/Flash.lean ====
section
/-! DEFINITION. Flash media management (chapter 08): the commands: frame writes, program, erase and time-out
outcomes, reads, garbage collection, discards, initialisation and rebuild. -/

namespace Sys2Proof.Machine

/-! ## Writes and failures (R226, R235, R236, R238) -/

/-- A frame write at MD1 (R226): refused while read-only (R247), while a unit is held (R240) or the write buffer is
full, or begun. -/
def flashWrite (f g : Nat) (data : List Byte) (poison : List Nat) (s : State) : State :=
  match s.writeRefusal f g with
  | some (st, h) => emit (.flm (4 * f) 4 st h) (if st = .nackRetry ∧ h = 14 then noteFallback g s else s)
  | none =>
    let conf := (aget s.tie.frames (t4Id f) {}).conf
    beginWrite f ((List.range 4).map (fun k => { dataPage (4 * f + k) g (fit (sub data (16384 * k) 16384) 16384) with
      enc := conf, poison := (poison.filter (fun x => x / 64 = k)).map (· % 64) })) none s

/-- `FLASH_FRAME_WRITE`. -/
def execFlashFrameWrite (f g : Nat) (data : List Byte) (poison : List Nat) (s : State) : Host.Outcome State Fault Refusal :=
  run (decide (f < 2 ^ 38) && decide (g < 64)) (flashWrite f g data poison s)

/-- `PAGE_PROGRAM_DONE`. -/
def execPageProgramDone (d : Nat) (host : Bool) (s : State) : Host.Outcome State Fault Refusal :=
  run (decide (d < 1024)) (programDone d host s)

/-- `PROGRAM_FAILURE`: of a program in progress, or of a copy that collection is making. -/
def execProgramFailure (d : Nat) (host : Bool) (s : State) : Host.Outcome State Fault Refusal :=
  run (decide (d < 1024))
    (if (s.progOn d host).isSome || (!host && (s.die d).moving.isSome) then programFailed d host s else s)

/-- Whether every page of a block that is valid has passed step 4 of R233. -/
def State.emptied (s : State) (d b : Nat) : Bool := (s.validPages d b).all (fun q => (s.die d).moved.contains q.1)

/-- An erase fails: the block is retired at once (R236). -/
def eraseFailed (d b : Nat) (s : State) : State :=
  if (s.die d).victim = some b && s.emptied d b then retire d b 1 s else s

/-- `ERASE_FAILURE`. -/
def execEraseFailure (d b : Nat) (s : State) : Host.Outcome State Fault Refusal :=
  run (decide (d < 1024) && decide (b < 2 ^ 24)) (eraseFailed d b s)

/-- When the operations in progress on a die time out: programs, collection's own operation, and reads for a page
move (R238). -/
def State.dieDeadlines (s : State) (d : Nat) : List Nat :=
  (s.flm.progs.filter (fun p => p.die = d)).map (·.deadline)
    ++ (if (s.die d).victim.isSome then [(s.die d).opDeadline] else [])
    ++ s.tie.regions.flatMap (fun q => (q.2.moves.filter (fun m => m.blocks.any (fun x => x.1 = d))).map (fun m => m.began + sclk (2 ^ 24)))

/-- `FLASH_OP_TIMEOUT`: an operation of the die has run for 2^24 SCLK cycles (R238). -/
def flashTimeout (d : Nat) (s : State) : State :=
  match s.dieDeadlines d with
  | [] => s
  | x :: l => fenceFlashDie d 0 (expire (sclk 1) (l.foldl min x) s)

def execFlashOpTimeout (d : Nat) (s : State) : Host.Outcome State Fault Refusal :=
  run (decide (d < 1024)) (flashTimeout d s)

/-! ## Reading (R223, R228) -/

/-- Grains of a unit are reported to the home as failing: it acts by R203. They are good no more in this frame; of an
`IMMUTABLE` page without another good copy the page is refetched. -/
def reportGrains (lua : Nat) (grains : List Nat) (s : State) : State :=
  let id := t4Id (lua / 4)
  if grains.isEmpty || !ahas s.tie.frames id then s else
  let s := forEach grains (fun g s => poisonGrain id (64 * (lua % 4) + g) s) s
  match s.tie.regions.find? (fun q => q.2.immutable && q.2.working.any (fun w => w.2.contains id)) with
  | some (_, r) =>
    (match r.working.find? (fun w => w.2.contains id) with
     | some w => if grains.any (fun g => (s.goodCopy r w.2 (64 * (lua % 4) + g)).isNone) then refetch r w.1 s else s
     | none => s)
  | none => s

/-- MD1 reads a unit, `failing` the grains the media fail at the first read and `retries` those at each repeated one:
the reads repeated and the grains that fail at every level are counted, and reported to the
home; grains stored with their poison bit come back poisoned. -/
def flashRead (lua g : Nat) (retries : List (List Nat)) (failing : List Nat) (s : State) : State :=
  if s.flm.st ≠ 3 ∧ s.flm.st ≠ 4 then s else
  let e := s.entry lua
  if e.held || (e.pun.isNone && !e.lost) then s else
  let s := match e.pun with | some q => takeSlot 4 (q.1 / 32) g s | none => s
  let x := s.readUnit (s.unitBad lua g) (failing :: retries)
  let stored := match s.unitPage lua with | some p => p.poison | none => []
  reportGrains lua (x.1 ++ stored).eraseDups (bumpSatN satFlmReadFail x.1.length (bumpSatN satFlmRetried x.2 s))

/-- `FLASH_READ`. -/
def execFlashRead (lua g : Nat) (retries : List (List Nat)) (failing : List Nat) (s : State) :
    Host.Outcome State Fault Refusal :=
  run (decide (lua < 2 ^ 40) && decide (g < 64)) (flashRead lua g retries failing s)

/-! ## Garbage collection (R232 to R234) -/

/-- Victims of a die: blocks to be emptied whatever the free blocks, then, while it collects, in the order of R232:
early ones, closed blocks by fewest valid pages (most stale pages while the index is full), erase count, number. -/
def State.pickVictim (s : State) (d : Nat) (collect : Bool) : Option Nat :=
  let x := s.die d
  match x.must ++ (if collect then x.early else []) with
  | b :: _ => some b
  | [] =>
    if !collect then none else
    let key (b : Nat) : List Nat :=
      [if s.staleNow then s.flm.pagesPerBlock - s.staleIn d b else (s.validPages d b).length, (x.block b).erases, b]
    (x.blk.filter (fun p => p.2.st = 2)).foldl (fun (best : Option Nat) p =>
      match best with
      | none => some p.1
      | some b => if keyLt (key p.1) (key b) then some p.1 else some b) none

/-- The next valid page of a victim is read and checked (R233 step 1). -/
def nextMove (d : Nat) (s : State) : State :=
  match (s.die d).victim with
  | none => s
  | some b => modDie d (fun x => { x with
      moving := ((s.validPages d b).find? (fun q => !x.moved.contains q.1)).map (·.1)
      opDeadline := s.opDeadline }) s

/-- A die collects from below `GC_LOW` until `GC_HIGH` free blocks. -/
def gcSelect (d : Nat) (s : State) : State :=
  match afind s.flm.dies d with
  | none => s
  | some x =>
    if x.fenced || x.victim.isSome then s else
    let free := s.freeBlocks d
    let on := decide (free < s.nodeParam 0x0211) || (x.collecting && decide (free < s.nodeParam 0x0212))
    nextMove d (modDie d (fun y => { y with collecting := on, victim := s.pickVictim d on, moving := none, moved := [] }) s)

/-- `GC_VICTIM_SELECT`. -/
def execGcVictimSelect (d : Nat) (s : State) : Host.Outcome State Fault Refusal :=
  run (decide (d < 1024)) (gcSelect d s)

/-- The page in hand is copied into the die's GC block with its `DATA_SEQ`, grains that fail at every level poisoned
in the copy; the map is repointed if it still names the source, else the copy is stale (R233 steps 1 to 4). A copy
that does not verify fails as a program does. -/
def gcMove (d : Nat) (attempts : List (List Nat)) (verified : Bool) (s : State) : State :=
  let x := s.die d
  match x.victim, x.moving with
  | some b, some i =>
    if !verified then programFailed d false s else
    let p := (x.block b).pages.getD i {}
    let always := if p.readOk p.lua p.saggar then (List.range 64).filter (fun k => !p.grainCrcOk k) else List.range 64
    let r := if p.kind = 1 then s.readUnit always attempts else ([], 0)
    let s := bumpSatN satFlmReadFail r.1.length (bumpSatN satFlmRetried r.2 s)
    let copy := { p with gcCopy := true, poison := (p.poison ++ r.1).eraseDups, seq := s.flm.seq }
    match placePage d false copy (modFlm (fun m => { m with seq := m.seq + 1 }) s) with
    | none => s
    | some (pun, s) =>
      let s := if p.kind = 1 && (s.entry p.lua).pun = some (d, b, i) then setEntry p.lua { s.entry p.lua with pun := some pun } s else s
      flmHealth (nextMove d (modDie d (fun y => { y with moved := y.moved ++ [i] }) s))
  | _, _ => s

/-- `GC_PAGE_MOVE`. -/
def execGcPageMove (d : Nat) (x : MoveRead) (s : State) : Host.Outcome State Fault Refusal :=
  run (decide (d < 1024)) (gcMove d x.attempts x.verified s)

/-- Whether reads already issued to a block are out: page moves whose source has units there (R234). -/
def State.readsOut (s : State) (d b : Nat) : Bool := s.tie.regions.any (fun q => q.2.moves.any (fun m => m.blocks.contains (d, b)))

/-- The victim is erased once no page of it is left to move and no read of it is out; one that failed a program is
retired. -/
def gcErase (d : Nat) (s : State) : State :=
  match (s.die d).victim with
  | none => s
  | some b =>
    if !s.emptied d b || s.readsOut d b then s
    else if ((s.die d).block b).st = 3 then retire d b 0 s
    else flmHealth (checkpointDue (eraseBlock d b s))

/-- `GC_VICTIM_ERASE`. -/
def execGcVictimErase (d : Nat) (s : State) : Host.Outcome State Fault Refusal :=
  run (decide (d < 1024)) (gcErase d s)

/-- `BLOCK_TABLE_CHECKPOINT`. -/
def execBlockTableCheckpoint (s : State) : Host.Outcome State Fault Refusal :=
  run true (checkpoint s)

/-! ## Die fence control (R238, R597) -/

def flmDieCtrl : Nat := 0x1400018

/-- `FLM_DIE_FENCE`: cause 3 whoever writes. -/
def execFlmDieFence (who : Who) (d : Nat) (s : State) : Host.Outcome State Fault Refusal :=
  run (who.wf && decide (d < 1024)) (ctlWrite who flmDieCtrl true (fun s => fenceFlashDie d 3 s) s)

/-- Lift a die's fence: its blocks are erased and free, retired ones stay; lost entries stay lost. -/
def unfenceFlashDie (d : Nat) (s : State) : State :=
  match afind s.flm.dies d with
  | none => s
  | some x =>
    if !x.fenced then s else
    let used := x.blk.filter (fun p => p.2.st ≠ 4 && !p.2.pages.isEmpty)
    let s := noteRetired d 0xFFFFE 0 (modFlm (fun m => { m with
      dies := aset m.dies d { base := x.base, again := x.again, blk := x.blk.map (fun (p : Nat × FlmBlk) => (p.1,
        if p.2.st = 4 then p.2 else { st := 0, erases := p.2.erases + b2n (!p.2.pages.isEmpty), again := p.2.again && p.2.pages.isEmpty })) }
      erases := m.erases + used.length
      map := m.map.map (fun (e : Nat × FlmEntry) => (e.1, match e.2.pun with | some q => if q.1 = d then { e.2 with pun := none, lost := true } else e.2 | none => e.2)) }) s)
    flmHealth (checkpointDue (startWaiting (bumpCtr ctrFlmErases used.length s)))

/-- `FLM_DIE_UNFENCE`. -/
def execFlmDieUnfence (who : Who) (d : Nat) (s : State) : Host.Outcome State Fault Refusal :=
  run (who.wf && decide (d < 1024)) (ctlWrite who flmDieCtrl (liftsFence who) (unfenceFlashDie d) s)

/-! ## Discards (R239, R240) -/

/-- `ORDINARY_DISCARD`. -/
def execOrdinaryDiscard (lua units : Nat) (s : State) : Host.Outcome State Fault Refusal :=
  run (decide (lua < 2 ^ 40) && decide (units < 2 ^ 32)) (if s.flm.st = 3 ∨ s.flm.st = 4 then discard lua units s else s)

/-- `SECURE_DISCARD`. -/
def execSecureDiscard (lua units : Nat) (s : State) : Host.Outcome State Fault Refusal :=
  run (decide (lua < 2 ^ 40) && decide (units < 2 ^ 32)) (if s.flm.st = 3 ∨ s.flm.st = 4 then secureDiscard lua units s else s)

/-- Step 5 of R240, once no copy of the range is left on the media: `HELD` is cleared and the discard completes with
`OK`. -/
def secureDone (lua : Nat) (s : State) : State :=
  match s.flm.secure.find? (fun x => x.lua = lua && x.stage = 3) with
  | none => s
  | some x =>
    if !(s.copyBlocks x.lua x.units x.seq).isEmpty then s
    else emit (.flm x.lua x.units .ok 0) (modFlm (fun m => { m with
      secure := m.secure.erase x
      map := m.map.map (fun (e : Nat × FlmEntry) => if x.lua ≤ e.1 ∧ e.1 < x.lua + x.units then (e.1, { e.2 with held := false }) else e) }) s)

/-- `SECURE_DISCARD_DONE`. -/
def execSecureDiscardDone (lua : Nat) (s : State) : Host.Outcome State Fault Refusal :=
  run (decide (lua < 2 ^ 40)) (secureDone lua s)

/-! ## Initialisation and rebuild (R222, R241 to R244) -/

/-- The first byte of the parameter page in which a channel's fields differ from channel 0's (R222): the places of
ONFI for page and spare size, pages per block, blocks and LUNs, endurance, then the target count, which stands in no
page. -/
def paramsDiffer (p q : FlashParams) : Option Nat :=
  if p.pageBytes ≠ q.pageBytes then some 80 else if p.spareBytes ≠ q.spareBytes then some 84 else if p.pagesPerBlock ≠ q.pagesPerBlock then some 92
  else if p.blocksPerDie ≠ q.blocksPerDie then some 96 else if p.lunsPerTarget ≠ q.lunsPerTarget then some 100
  else if p.peRating ≠ q.peRating then some 105 else if p.retryLevels ≠ q.retryLevels ∨ p.targets ≠ q.targets then some 0 else p.differsAt

/-- Whether a channel's parameter pages are within R221. -/
def flashLimitsOk (p : FlashParams) : Bool :=
  p.limitBrokenAt.isNone && decide (1 ≤ p.targets ∧ p.targets ≤ 8) && decide (1 ≤ p.lunsPerTarget ∧ p.lunsPerTarget ≤ 4)
    && p.pageBytes = 16384 && decide (1024 ≤ p.spareBytes) && decide (64 ≤ p.pagesPerBlock ∧ p.pagesPerBlock ≤ 3072)
    && decide (p.blocksPerDie * p.pagesPerBlock ≤ 2 ^ 24)

/-- Die, block and cause of an entry of the retired list. -/
def entryDie (e : Word32) : Nat := bits e.toNat 0 10
def entryBlock (e : Word32) : Nat := bits e.toNat 10 20
def entryCause (e : Word32) : Nat := bits e.toNat 30 2

/-- Whether the retired list leaves a die fenced (R236). -/
def dieListed (l : List Word32) (d : Nat) : Bool :=
  l.foldl (fun f e => if entryDie e = d && entryBlock e = 0xFFFFF then true else if entryDie e = d && entryBlock e = 0xFFFFE then false else f) false

/-- MD1 reads the parameter pages and puts channels in or out of service; the geometry comes from channel
0, the retired blocks and fenced dies from the list in SD NVM, which takes in the blocks the factory marked. -/
def flmInit (l : List FlashParams) (s : State) : State :=
  if !s.fitted capFLM then s else
  let p0 := l.headD {}
  let chs := (List.range l.length).map (fun c => (c, l.getD c {}))
  let ok := fun (p : FlashParams) => p.present && flashLimitsOk p && (paramsDiffer p p0).isNone
  let good := chs.filter (fun c => ok c.2)
  let s := forEach (good.flatMap (fun c => c.2.factoryBad.map (fun x => (c.1 * 32 + x.1 % 32, x.2)))) (fun x s =>
    if s.flm.retired.any (fun e => entryDie e = x.1 && entryBlock e = x.2) then s else noteRetired x.1 x.2 2 s) s
  let dieNums := good.flatMap (fun c => (List.range c.2.targets).flatMap (fun t => (List.range c.2.lunsPerTarget).map (fun u => c.1 * 32 + t * 4 + u)))
  let mk (d : Nat) : Nat × FlmDie :=
    let old := aget s.flm.dies d {}
    (d, { fenced := dieListed s.flm.retired d
          base := old.base
          again := old.again
          blk := (s.flm.retired.filter (fun e => entryDie e = d && decide (entryBlock e < 0xFFFFE))).foldl (fun b e =>
            amod b (entryBlock e) {} (fun k => { k with st := 4, pages := [] })) old.blk })
  let s := modFlm (fun m => { m with
    st := 2
    rebuildAt := s.now
    pagesPerBlock := p0.pagesPerBlock
    luns := p0.lunsPerTarget
    targets := p0.targets
    blocksPerDie := p0.blocksPerDie
    peRating := p0.peRating
    retryLevels := p0.retryLevels
    opPct := s.nodeParam 0x0210
    ch := chs.map (fun (c : Nat × FlashParams) => (c.1, if ok c.2 then
        ({ fence := { on := false, cause := 0 }, rate := 36, targets := c.2.targets, luns := c.2.lunsPerTarget } : FlmCh)
      else { fence := { on := true, cause := 3 }, targets := c.2.targets, luns := c.2.lunsPerTarget }))
    dies := dieNums.map mk }) s
  forEach (chs.filter (fun c => c.2.present && !ok c.2)) (fun c s =>
    logEvent 0x0402 c.1 none [(paramsDiffer c.2 p0).getD (c.2.limitBrokenAt.getD 0)] s) s

/-- `FLM_INIT`. -/
def execFlmInit (l : List FlashParams) (s : State) : Host.Outcome State Fault Refusal :=
  run (decide (l.length ≤ 32)) (flmInit l s)

/-- A copy in the rebuild: place, `OPEN_SEQ` of its block, the page. -/
abbrev FlmCopy := (Nat × Nat × Nat) × Nat × FlmPage

/-- later(a, b) of R241. -/
def laterCopy (a b : FlmCopy) : Bool := decide (b.2.1 < a.2.1) || (a.2.1 = b.2.1 && decide (b.1.2.2 < a.1.2.2))

/-- Phase 2 of R241: the last data of each unit wins. -/
def resolveCopies (l : List FlmCopy) : Assoc Nat FlmCopy :=
  l.foldl (fun w c =>
    let luas := if c.2.2.kind = 3 then c.2.2.ranges.flatMap (fun r => (List.range r.2).map (r.1 + ·)) else [c.2.2.lua]
    luas.foldl (fun w u =>
      match afind w u with
      | none => aset w u c
      | some x =>
        if x.2.2.dataSeq < c.2.2.dataSeq ∨ (c.2.2.dataSeq = x.2.2.dataSeq ∧ laterCopy c x = true) then aset w u c else w) w) []

/-- Whether summary page 0 of a block passes its checks. -/
def Flm.closed (m : Flm) (k : FlmBlk) : Bool := match k.pages[m.dataPages]? with | some q => q.summaryOk | none => false

/-- The entries of a block (R241 phase 1): of a closed block those of its summary pages, of any other the spare
records of its pages, without those that fail. The ranges of a trim record are read from its page. -/
def Flm.copiesOf (m : Flm) (d b : Nat) (k : FlmBlk) : List FlmCopy :=
  if m.closed k then
    (List.range m.summaries).flatMap (fun i =>
      match k.pages[m.dataPages + i]? with
      | some q => if !q.summaryOk then [] else
          (List.range q.entries.length).map (fun j =>
            let e := q.entries.getD j (0, 0, 0)
            ((d, b, 1020 * i + j), le q.data 32 8, { kind := e.2.1, lua := e.1, dataSeq := e.2.2, ranges := (k.pages.getD (1020 * i + j) {}).ranges }))
      | none => [])
  else
    (k.numbered.filter (fun q => spareOk q.2.spareRead)).map (fun q => ((d, b, q.1), (k.pages.headD {}).seq, q.2))

/-- The counts and marks of a die's free blocks after the rebuild: the checkpoint's count plus one, and erased again
before the first use; blocks that were open are collected early (R241, R242). -/
def rebuiltDie (s : State) (d : Nat) (x : FlmDie) : FlmDie :=
  let fresh := ((List.range (x.blk.length + 1)).find? (fun b => !ahas x.blk b)).getD 0
  { x with
    early := (x.blk.filter (fun y => y.2.st ≠ 4 && !y.2.pages.isEmpty && !s.flm.closed y.2)).map (·.1)
    must := []
    hostOpen := none
    gcOpen := none
    victim := none
    moving := none
    moved := []
    base := s.checkpointCount d fresh + 1
    again := true
    blk := x.blk.map (fun (y : Nat × FlmBlk) =>
      if y.2.st = 4 then y
      else if y.2.pages.isEmpty then (y.1, { y.2 with st := 0, again := true, erases := s.checkpointCount d y.1 + 1 })
      else (y.1, { y.2 with st := 2 })) }

/-- Format blank media: every block is erased, and the logical capacity fixed (R244, R245). -/
def formatFlash (s : State) : State :=
  let n := (s.diesIn.map (fun d => s.flm.blocksPerDie - countIf (s.die d).blk (fun p => p.2.st = 4))).sum
  let s := bumpCtr ctrFlmErases n (modFlm (fun m => { m with
    st := 5
    map := []
    erases := m.erases + n
    dies := m.dies.map (fun (x : Nat × FlmDie) => if x.2.fenced then x else
      (x.1, { base := x.2.base + 1, blk := x.2.blk.map (fun (y : Nat × FlmBlk) => if y.2.st = 4 then y else (y.1, { erases := y.2.erases + 1 })) })) }) s)
  modFlm (fun m => { m with logical := 4 * (s.goodUnits * (100 - m.opPct) / 400) }) s

/-- The rebuild resolves the map (R241), or formats blank media (R244). -/
def flashRebuild (s : State) : State :=
  if s.flm.st ≠ 2 then s else
  let up := s.flm.dies.filter (fun x => !x.2.fenced)
  if !up.any (fun x => x.2.blk.any (fun y => y.2.st ≠ 4 && y.2.pages.any (fun p => spareOk p.spareRead))) then formatFlash s else
  let copies := up.flatMap (fun x => x.2.blk.flatMap (fun y => if y.2.st = 4 then [] else s.flm.copiesOf x.1 y.1 y.2))
  let win := resolveCopies (copies.filter (fun c => c.2.2.kind = 1 || c.2.2.kind = 3))
  let seqs := up.flatMap (fun x => x.2.blk.flatMap (fun y => (y.2.pages.filter (fun p => spareOk p.spareRead)).map (·.seq)))
  let s := modFlm (fun m => { m with
    map := (win.filter (fun w => w.2.2.2.kind = 1)).map (fun (w : Nat × FlmCopy) => (w.1, ({ pun := some w.2.1 } : FlmEntry)))
    seq := seqs.foldl max 0 + 2 ^ 20 }) s
  modFlm (fun m => { m with dies := m.dies.map (fun (x : Nat × FlmDie) => if x.2.fenced then x else (x.1, rebuiltDie s x.1 x.2)) }) s

/-- `FLASH_REBUILD`. -/
def execFlashRebuild (s : State) : Host.Outcome State Fault Refusal :=
  run true (flashRebuild s)

/-- The home reinstates a region kept in the flash (R207): pages whose frame lay in T4 return; of the others those of
an `IMMUTABLE` region are refetched from replica holders, and the rest come back poisoned. -/
def reinstate (r : Region) (s : State) : State :=
  let keep := fun (ids : List Nat) => ids.filter (fun i => ahas s.tie.frames i)
  let v := aget r.versions r.version {}
  let gone := (v.pages.filter (fun p => (keep p.2).isEmpty)).map (·.1) ++ v.lost
  let back := (v.pages.map (fun (p : Nat × List Nat) => (p.1, keep p.2))).filter (fun p => !p.2.isEmpty)
  let r' := { r with working := back, versions := if r.version = 0 then [] else [(r.version, { pages := back, lost := gone })], lostPages := gone, moves := [] }
  let s := { s with tie := { s.tie with regions := aset s.tie.regions r.id r' } }
  if r.immutable then forEach gone (fun p s => refetch r' p s) s else s

/-- Secure discards that the media show unfinished go on with step 3 (R242): each secure trim record whose units
still have older copies. -/
def resumeSecure (s : State) : State :=
  forEach (s.flm.dies.flatMap (fun x => if x.2.fenced then [] else x.2.blk.flatMap (fun y =>
    (y.2.pages.filter (fun p => p.kind = 3 && p.secure && spareOk p.spareRead)).flatMap (fun p => p.ranges.map (fun r => (r.1, r.2, p.dataSeq)))))).eraseDups
    (fun x s =>
      if (s.copyBlocks x.1 x.2.1 x.2.2).isEmpty then s else
      eraseCopies x.1 x.2.1 x.2.2 (modFlm (fun m => { m with
        map := (List.range x.2.1).foldl (fun mp k => amod mp (x.1 + k) {} (fun (e : FlmEntry) => { e with held := true })) m.map
        secure := m.secure ++ [{ lua := x.1, units := x.2.1, stage := 3, seq := x.2.2 }] }) s)) s

/-- The rebuild ends (R242): secure discards are resumed, the scratch goes, T4 regions are served again, and discards
that waited are made. -/
def rebuildComplete (s : State) : State :=
  if s.flm.st ≠ 2 ∧ s.flm.st ≠ 5 then s else
  let s := { s with ctr := aset s.ctr ctrFlmRebuildCyc { count := (s.now - s.flm.rebuildAt) / 60 % 2 ^ 64, ovf := false },
                    tie := { s.tie with frames := s.flm.savedFrames ++ s.tie.frames.filter (fun p => !ahas s.flm.savedFrames p.1) } }
  let saved := s.flm.saved
  let trims := s.flm.trims
  let s := resumeSecure (modFlm (fun m => { m with st := 3, saved := [], savedFrames := [], trims := [] }) s)
  let s := forEach saved (fun r s => reinstate r s) s
  flmHealth (forEach trims (fun t s => if t.2 then secureDiscard t.1 4 s else discard t.1 4 s) s)

/-- `REBUILD_COMPLETE`. -/
def execRebuildComplete (s : State) : Host.Outcome State Fault Refusal :=
  run true (rebuildComplete s)

end Sys2Proof.Machine
end

