-- ==== Sys2Proof/Machine/StepNotes.lean ====
section
/-! DEFINITION. What units other than the Sitter enter in a step's record, and the frame exponents a supplied
record forces in replay (R51, R152, R157). -/

namespace Sys2Proof.Machine

/-- The step work of a saggar belongs to where it names none: the open one, else the next to open (DESIGN
CHOICE, log 150). -/
def SitSag.curStep (x : SitSag) : Nat := if x.isOpen || x.aborted || !x.runs then x.step else x.step + 1

/-- The entries of a supplied record (R150, R152). -/
def recordEntries (r : List Byte) : List (Nat × Nat) :=
  (List.range ((r.length - 256) / 16)).map (fun i => (le r (256 + 16 * i) 8, le r (264 + 16 * i) 8))

/-- The record supplied for a step in replay: the open step's, or the next one's. -/
def SitSag.suppliedFor (x : SitSag) (step : Nat) : Option (List Byte) :=
  if x.isOpen && step = x.step then x.supplied else if x.replay then x.nextSupplied else none

/-- `F_USED` of a supplied frame entry of a step with this layer, expert, projection and `KEY` (R157). -/
def State.forcedF (s : State) (g step layer expert proj key : Nat) : Option Int :=
  match (aget s.sit g {}).suppliedFor step with
  | none => none
  | some r =>
    ((recordEntries r).find? (fun e => e.1 % 256 = 2 && bits e.1 8 8 = layer && bits e.1 16 12 = expert && bits e.1 28 2 = proj
      && e.2 = key)).map (fun e => signedW 16 (bits e.1 32 16))

/-- A frame entry (R152). -/
def frameEntry (layer expert proj wSel : Nat) (f : Int) (key : Nat) : Nat × Nat :=
  (2 + layer * 2 ^ 8 + expert * 2 ^ 16 + proj * 2 ^ 28 + wSel * 2 ^ 30 + unsignedW 16 f * 2 ^ 32, key)

/-- Enter a frame entry in the record of a step, once. -/
def noteFrame (g step : Nat) (e : Nat × Nat) (s : State) : State :=
  { s with sit := amod s.sit g {} (fun x => if x.frames.contains (step, e) then x else { x with frames := x.frames ++ [(step, e)] }) }

/-- Enter a tree entry in the record of a step. -/
def noteTree (g step : Nat) (e : Nat × Nat) (s : State) : State :=
  { s with sit := amod s.sit g {} (fun x => { x with trees := x.trees ++ [(step, e)] }) }

/-- The entries of one step. -/
def entriesOf (step : Nat) (l : List (Nat × Nat × Nat)) : List (Nat × Nat) := (l.filter (fun e => e.1 = step)).map (·.2)

/-- The low half of the `KEY` of a Trimmer's job: unit code, Trimmer, job tag (DESIGN CHOICE, log 150). -/
def trmKeyLow (t tag : Nat) : Nat := 0x20 + t * 2 ^ 8 + tag * 2 ^ 16

/-- The `KEY` of the next auto-frame job of a Trimmer with a tag: the jobs of its step before it stand in
[63:32] (DESIGN CHOICE, log 150). -/
def State.trmKey (s : State) (g t tag : Nat) : Nat :=
  let x := aget s.sit g {}
  trmKeyLow t tag + 2 ^ 32 * countIf (entriesOf x.curStep x.frames) (fun e => e.2 % 2 ^ 32 = trmKeyLow t tag)

end Sys2Proof.Machine
end

