-- ==== Sys2Proof/Machine/PugOps.lean ====
section
/-! DEFINITION. Pug: collective descriptors, tree shape, contributions and the arithmetic of finished
slices (chapter 10, R271 to R290). -/

namespace Sys2Proof.Machine

/-! ## The collective descriptor (R274) -/

/-- A field of a word of the descriptor. -/
def cField (d : List Byte) (w lo n : Nat) : Nat := bits (le d (8 * w) 8) lo n

def cOp (d : List Byte) : Nat := cField d 0 0 8
def cPattern (d : List Byte) : Nat := cField d 0 8 4
def cTree (d : List Byte) : Bool := bit (le d 0 8) 12
def cXcomb (d : List Byte) : Bool := bit (le d 0 8) 13
def cMnorm (d : List Byte) : Bool := bit (le d 0 8) 14
def cInFmt (d : List Byte) : Nat := cField d 0 16 4
def cOutFmt (d : List Byte) : Nat := cField d 0 20 4
def cW (d : List Byte) : Nat := widthOf (cField d 0 24 2)
def cWSel (d : List Byte) : Nat := cField d 0 24 2
def cF (d : List Byte) : Nat := cField d 0 32 16
def cMaxexp (d : List Byte) : Int := signedW 16 (cField d 0 48 16)
def cHandle (d : List Byte) : Nat := cField d 1 0 32
def cCount (d : List Byte) : Nat := cField d 1 32 13
def cTerms (d : List Byte) : Nat := cField d 2 32 25
def cElems (d : List Byte) : Nat := cField d 3 0 23
def cStageLog2 (d : List Byte) : Nat := cField d 3 32 4
def cNstage (d : List Byte) : Nat := cField d 3 36 5
def cComp (d : List Byte) : Nat := cField d 4 0 24
def cStep (d : List Byte) : Nat := le d 40 8
def cHeads (d : List Byte) : Nat := cField d 6 0 12
def cNblk (d : List Byte) : Nat := cField d 6 16 16
def cDim (d : List Byte) : Nat := 64 * 2 ^ cField d 6 32 2
def cCensusKind (d : List Byte) : Nat := cField d 6 40 8
def cDst (d : List Byte) : Nat := le d 56 8
def cStride (d : List Byte) : Nat := cField d 8 0 32
def cCpl (d : List Byte) : Nat := le d 72 8
def cStage (d : List Byte) (i : Nat) : Nat := le d (80 + 2 * i) 2

def cSUM := 1
def cMIN := 2
def cMAX := 3
def cMERGE := 7
def cCENSUS := 8

/-- How a collective works on its data. -/
inductive CollMode where
  | frame | tree | words | merge | census
  deriving DecidableEq, Repr

def cMode (d : List Byte) : CollMode :=
  if cOp d = cMERGE then .merge else if cOp d = cCENSUS then .census
  else if cSUM ≤ cOp d ∧ cOp d ≤ cMAX then (if cTree d then .tree else .frame) else .words

/-- Reserved bits are zero. -/
def cReservedOk (d : List Byte) : Bool :=
  (!bit (le d 0 8) 15) && (cField d 0 26 6 = 0) && (cField d 1 45 19 = 0) && (cField d 2 17 15 = 0)
    && (cField d 2 57 7 = 0) && (cField d 3 23 9 = 0) && (cField d 3 41 23 = 0) && (cField d 4 24 40 = 0)
    && (cField d 6 12 4 = 0) && (cField d 6 34 6 = 0) && (cField d 8 32 32 = 0) && (sub d 112 16).all (· = 0)

/-- The combination of R275 with its field ranges (R276 row 1). Fields an operation does not use are not
range-checked. -/
def cFormOk (d : List Byte) : Bool :=
  let op := cOp d
  let pat := cPattern d
  let n := cField d 2 0 17
  let i := cInFmt d
  let o := cOutFmt d
  let b := cStageLog2 d
  cReservedOk d && (d.length = 128) && decide (1 ≤ cCount d ∧ cCount d ≤ 4096)
    && (b = 0 || decide (1 ≤ cNstage d ∧ cNstage d ≤ 16))
    && (!cXcomb d || op = cSUM) && (!cMnorm d || op = cMERGE) && (!cTree d || decide (cSUM ≤ op ∧ op ≤ cMAX))
    &&
  match cMode d with
  | .merge => (pat = 0) && (b = 0) && (i = 7) && (o = 7 || (cMnorm d && o = 0)) && decide (1 ≤ cHeads d ∧ cHeads d ≤ 2048)
      && decide (1 ≤ cNblk d) && decide (cField d 6 32 2 ≤ 2)
  | .census => (pat = 0) && (b = 0) && decide (cCensusKind d ≤ 1)
  | m =>
    decide (1 ≤ n ∧ n ≤ 65536) && decide (1 ≤ cElems d ∧ cElems d ≤ 2 ^ 22) &&
    (match m with
     | .words => decide (i ≤ 3) && (o = i) && decide (op = 0 ∨ (4 ≤ op ∧ op ≤ 6)) && decide (pat ≤ 3) && ((pat = 3) == (op = 0))
     | .tree => decide (pat ≤ 2) && decide (1 ≤ cTerms d ∧ cTerms d ≤ 2 ^ 24) && (i = 0 || i = 7) && (o = 0 || o = 7) && !cXcomb d
     | _ => decide (pat ≤ 2) && decide (1 ≤ cTerms d ∧ cTerms d ≤ 2 ^ 24) && decide (cTerms d * n ≤ 2 ^ 24)
         && (if cXcomb d then (i = 7) && (o = 0 || o = 7) && (pat = 0) && decide (n ≤ 16) && (b = 0) && decide (4 ≤ cElems d)
               && cF d ≠ 0x8000 && decide (signedW 16 (cF d) ≤ 0)
             else [0, 1, 2, 4, 7, 15].contains i && [0, 1, 2, 4, 7].contains o && !(i = 15 && cF d = 0x8000)))

/-- Contributor positions; derived for `MERGE` and `CENSUS` (R289, R290). -/
def State.collN (s : State) (d : List Byte) : Nat :=
  match cMode d with
  | .merge => cHeads d * cNblk d
  | .census => (s.members (cComp d)).length
  | _ => cField d 2 0 17

def cSlices (d : List Byte) : Nat := ceilDiv (cElems d) 64
/-- Elements of slice s. -/
def cSliceLen (d : List Byte) (s : Nat) : Nat := min 64 (cElems d - 64 * s)

/-- Whether auto-frame is selected, and the frame exponent it derives (R285, R50). -/
def cAuto (d : List Byte) : Bool := cMode d = .frame && cF d = 0x8000
def cFrameExp (d : List Byte) : Int := if cAuto d then autoF (cMaxexp d + 1) (cW d) else signedW 16 (cF d)

/-- The descriptor with an explicit frame exponent, as a stage is armed with (R285). -/
def cWithF (d : List Byte) (f : Int) : List Byte := overlay d 4 (natLe (unsignedW 16 f) 2)

/-! ## Packing (R282) -/

/-- Elements per packet. -/
def perPacket (enc wSel : Nat) : Nat := if enc = 15 then (if wSel ≤ 1 then 32 else 16) else if enc = 3 then 32 else 64

/-- Bytes of an element of an encoding. -/
def cElemBytes (d : List Byte) (enc : Nat) : Nat :=
  if enc = 15 then cW d / 8 else if cMode d = .words then 2 ^ enc else elemBits enc / 8

/-- Bytes of a finished element. -/
def cOutBytes (d : List Byte) : Nat := if cMode d = .words then 2 ^ cInFmt d else elemBits (cOutFmt d) / 8

/-- The encoding a child's data shall have. -/
def cEncOf (d : List Byte) (part : Bool) : Nat :=
  if part then (match cMode d with | .frame => 15 | .tree => cOutFmt d | _ => cInFmt d) else cInFmt d

/-- Bytes and 488-byte chunks of a `MERGE` contribution (R178, R282). -/
def cMergeBytes (d : List Byte) : Nat := 16 + 4 * cDim d
def cChunks (d : List Byte) : Nat := ceilDiv (cMergeBytes d) 488

/-- The frames of a packet's data: S values, then a nibble of flags per element (R282); a raw element is
rounded to the frame grid as a term (R284). An upset that no residue showed stays in its element (R295). -/
def pktFrames (d : List Byte) (f : Int) (p : PugPkt) : List Frm :=
  let w := cW d
  let base := p.nelem * (w / 8)
  (List.range p.nelem).map (fun i =>
    let nib := bits (p.data.getD (base + i / 2) 0).toNat (4 * (i % 2)) 4
    let x : Frm := if p.enc = 15 then
        { w := w, f := f, s := signedW w (le p.data (i * (w / 8)) (w / 8)), side := nib % 4, ovf := bit nib 2 }
      else termFrm w f (decodeElem p.enc (elemAt p.enc p.data i))
    if i = p.upset.elem then { x with s := wrap w (x.s + p.upset.err) } else x)

/-- The bytes of one packet of partial frames. -/
def frameBytes (w ep : Nat) (fs : List Frm) : List Byte :=
  let nib := fun i => match fs[i]? with | some x => x.side + 4 * b2n x.ovf | none => 0
  fs.flatMap (fun x => natLe (unsignedW w x.s) (w / 8))
    ++ (List.range (ep / 2)).map (fun j => BitVec.ofNat 8 (nib (2 * j) + 16 * nib (2 * j + 1)))

/-! ## Children and tree shape (R278 to R280) -/

/-- A child at the root or a stage: whether it is a stage partial, its number, its stage node, and the
positions it covers. -/
structure Child where
  partial_ : Bool := false
  num : Nat := 0
  node : Nat := 0xFFFF
  lo : Nat := 0
  hi : Nat := 1
  deriving DecidableEq, Repr

def Child.key (c : Child) : Bool × Nat := (c.partial_, c.num)

/-- A direct contributor. -/
def childAt (p : Nat) : Child := { num := p, lo := p, hi := p + 1 }

/-- The children of the root in canonical order. -/
def kidsOf (d : List Byte) (n : Nat) : List Child :=
  let b := cStageLog2 d
  if b = 0 then (List.range n).map childAt else
  (List.range (ceilDiv n (2 ^ b))).flatMap (fun j =>
    let lo := j * 2 ^ b
    let hi := min n (lo + 2 ^ b)
    let st := cStage d (j % cNstage d)
    if st = 0xFFFF then (List.range (hi - lo)).map (fun i => childAt (lo + i))
    else [{ partial_ := true, num := j, node := st, lo := lo, hi := hi }])

/-- The blocks a stage node serves. -/
def blocksOf (d : List Byte) (n node : Nat) : List Child := (kidsOf d n).filter (fun c => c.partial_ && c.node = node)

/-- The distinct stage nodes. -/
def stageNodes (d : List Byte) (n : Nat) : List Nat := (((kidsOf d n).filter (·.partial_)).map (·.node)).eraseDups

/-- The shape record and its digest (R279). -/
def shapeDigest (d : List Byte) (n : Nat) : List Byte :=
  let mask := ((List.range (min 16 (cNstage d))).filter (fun i => cStage d i = 0xFFFF)).foldl (fun m i => m + 2 ^ i) 0
  digest (natLe n 4 ++ natLe (cStageLog2 d) 1 ++ natLe (cNstage d) 1 ++ natLe mask 2 ++ natLe (cOp d) 1 ++ natLe (cOutFmt d) 1 ++ zeros 22)

/-- Bytes one instance reserves at a chip with `c` children (R277). -/
def reservation (d : List Byte) (c : Nat) : Nat :=
  let total := match cMode d with
    | .merge => ceilDiv (cHeads d * cNblk d * cChunks d) 8 + cHeads d * cNblk d * cMergeBytes d
    | .census => ceilDiv c 8 + 64
    | m =>
      let p := 64 / perPacket (cInFmt d) (cWSel d)
      let p := if m = .frame ∧ cStageLog2 d ≠ 0 then max p (64 / perPacket 15 (cWSel d)) else p
      ceilDiv (c * cSlices d * p) 8 + (if cPattern d = 0 then 0 else 8 * c) +
      (match m with
       | .frame => ceilDiv (cElems d * (cW d + 4)) 8
       | .tree => cElems d * cOutBytes d * (if cOp d = cSUM then c else 1)
       | _ => cElems d * cOutBytes d)
  ceilDiv total 64 * 64

/-! ## Finished slices (R284 to R290) -/

/-- The packets of a child for a slice, in part order. -/
def Coll.pkts (c : Coll) (key : Bool × Nat) (s : Nat) : List PugPkt :=
  (List.range 4).filterMap (fun i => c.got.find? (fun p => !p.empty && (p.partial_, p.pos) = key && p.slice = s && p.part = i))

/-- Whether a child has delivered a slice whole. -/
def Coll.delivered (c : Coll) (key : Bool × Nat) (s : Nat) : Bool :=
  ((c.pkts key s).length = ceilDiv (cSliceLen c.desc s) (perPacket (cEncOf c.desc key.1) (cWSel c.desc)))

/-- The combination of two partial frames under the operation. -/
def frameOp (op : Nat) (a b : Frm) : Frm := if op = cSUM then a.combine b else a.extreme (op = cMAX) b

/-- Zip a list of equal lists by an operation, from the first. -/
def foldLists {α : Type} (f : α → α → α) : List (List α) → List α
  | [] => []
  | x :: r => r.foldl (fun a b => List.zipWith f a b) x

/-- The combined frames of a slice over some children. -/
def Coll.frames (c : Coll) (keys : List (Bool × Nat)) (s : Nat) : List Frm :=
  foldLists (frameOp (cOp c.desc)) (keys.map (fun k => (c.pkts k s).flatMap (pktFrames c.desc c.f)))

/-! ### The check of an update (R295) -/

/-- The frames of a packet with the elements of its slice they belong to. -/
def pktLanes (d : List Byte) (f : Int) (p : PugPkt) : List (Nat × Frm) :=
  (pktFrames d f p).mapIdx (fun i x => (p.part * perPacket p.enc p.wSel + i, x))

/-- The frame a lane holds for an element of a slice; none where nothing has come for it. -/
def Coll.laneFrame (c : Coll) (slice e : Nat) : Option Frm :=
  let came := (c.got.filter (fun q => !q.empty && q.slice = slice)).flatMap (fun q => (pktLanes c.desc c.f q).filter (fun x => x.1 = e))
  came.foldl (fun a x => some (match a with | none => x.2 | some y => frameOp (cOp c.desc) y x.2)) none

/-- S of the update of an element and the lane's residue of it: the residues of the operands added, or that of the
operand MIN or MAX keeps. -/
def laneUpdate (op : Nat) (old : Option Frm) (t : Frm) : Int × Int :=
  match old with
  | none => (t.s, t.s % 255)
  | some o => if op = cSUM then (o.s + t.s, (o.s % 255 + t.s % 255) % 255) else let x := frameOp op o t; (x.s, x.s % 255)

/-- Whether an attempt at an update passes its check: the residues modulo 255 agree in frame mode; elsewhere the
datapath and its duplicate do. -/
def Coll.agrees (c : Coll) (x : PugPkt) (u : LaneUpset) : Bool :=
  if x.empty then true
  else if cMode c.desc ≠ .frame then u.err = 0
  else match (pktLanes c.desc c.f x)[u.elem]? with
    | none => true
    | some (e, t) => let r := laneUpdate (cOp c.desc) (c.laneFrame x.slice e) t; decide ((r.1 + u.err) % 255 = r.2)

/-- The attempts at an update: how many fail, and what the one that passes leaves; none where the third fails. -/
def Coll.attempts (c : Coll) (x : PugPkt) (upsets : List LaneUpset) : Nat × Option LaneUpset :=
  let l := (upsets ++ List.replicate 3 ({ elem := 0, err := 0 } : LaneUpset)).take 3
  match l.findIdx? (c.agrees x) with
  | some i => (i, l[i]?)
  | none => (3, none)

/-- A tree-mode element in progress: its code, whether an addition overflowed, saturations counted as
values came in. -/
structure TreeEl where
  code : Nat := 0
  ovf : Bool := false
  sat : Nat := 0
  deriving DecidableEq, Repr

/-- One node's operation on two tree-mode elements (R52, R286); NaN dominates MIN and MAX. -/
def treeOp (d : List Byte) (a b : TreeEl) : TreeEl :=
  let fmt := cOutFmt d
  let x := decodeElem fmt a.code
  let y := decodeElem fmt b.code
  if cOp d = cSUM then
    let r := encodeElem fmt (x.add y)
    { code := r.1, ovf := a.ovf || b.ovf || r.2, sat := a.sat + b.sat }
  else
    let v := if x = .nan ∨ y = .nan then Num.nan
      else if cOp d = cMIN then (if y.lt x then y else x) else (if x.lt y then y else x)
    { code := (encodeElem fmt v).1, ovf := a.ovf || b.ovf, sat := a.sat + b.sat }

/-- The elements of a packet, each rounded to the named format. -/
def pktTree (d : List Byte) (p : PugPkt) : List TreeEl :=
  (List.range p.nelem).map (fun i =>
    let r := encodeElem (cOutFmt d) (decodeElem p.enc (elemAt p.enc p.data i))
    { code := r.1, sat := b2n r.2 })

def Coll.tree (c : Coll) (keys : List (Bool × Nat)) (s : Nat) : List TreeEl :=
  foldLists (treeOp c.desc) (keys.map (fun k => (c.pkts k s).flatMap (pktTree c.desc)))

/-- The raw words of a packet. -/
def pktWords (p : PugPkt) : List Nat := (List.range p.nelem).map (fun i => le p.data (i * 2 ^ p.enc) (2 ^ p.enc))

/-- A bitwise operation on raw words (R287). -/
def wordOp (op a b : Nat) : Nat := if op = 4 then a &&& b else if op = 5 then a ||| b else a ^^^ b

/-- The words of a slice; a broadcast keeps position 0's. -/
def Coll.words (c : Coll) (keys : List (Bool × Nat)) (s : Nat) : List Nat :=
  foldLists (wordOp (cOp c.desc)) ((if cOp c.desc = 0 then keys.take 1 else keys).map (fun k => (c.pkts k s).flatMap pktWords))

/-- A finished slice: its bytes, elements that carried `OVERFLOW`, range saturations, poison. -/
structure Finished where
  bytes : List Byte := []
  ovf : Nat := 0
  sat : Nat := 0
  poison : Bool := false
  deriving DecidableEq, Repr

/-- The finish of one expert-combine element (R144): `a` the value of `G_ALL`, `g` of `G_KEPT`. An
overflowed gate lane counts as its saturated binary32 value. -/
def xcombElem (drops a g : Frm) (x : Frm) : Num :=
  let val := fun (y : Frm) => match y.value with | .ovf n => dec32 (encodeFloat fmtB32 (.ovf n)).1 | v => v
  if drops.side = 0 ∧ drops.ovf = false ∧ drops.s = 0 then x.value
  else if val g = .fin 0 g.f then .fin 0 0
  else match x.value with
    | .ovf n => .ovf n
    | v => (v.mul (val a)).mul (val g).recip

/-- Finish one slice of frames. -/
def finishFrames (fmt : Nat) (fs : List (Frm × Num)) : Finished :=
  let es := fs.map (fun x => (encodeElem fmt x.2, x.1.ovf))
  { bytes := packElems fmt (es.map (·.1.1)), ovf := countIf es (·.2), sat := countIf es (·.1.2) }

/-- The chunks of a `MERGE` block of a head, joined. -/
def Coll.block (c : Coll) (head label : Nat) : List Byte :=
  (List.range (cChunks c.desc)).flatMap (fun k =>
    match c.got.find? (fun p => p.pos = head && p.label = label && p.slice = k) with
    | some p => p.data.take (min 488 (cMergeBytes c.desc - 488 * k))
    | none => [])

/-- The labels a head holds. -/
def Coll.labels (c : Coll) (head : Nat) : List Nat := ((c.got.filter (fun p => p.pos = head)).map (·.label)).eraseDups

/-- Whether a block has all its chunks. -/
def Coll.blockWhole (c : Coll) (head label : Nat) : Bool :=
  countIf c.got (fun p => p.pos = head && p.label = label) = cChunks c.desc

/-- Insertion into an ascending list. -/
def insertAsc (a : Nat) : List Nat → List Nat
  | [] => [a]
  | b :: r => if a ≤ b then a :: b :: r else b :: insertAsc a r

/-- A list in ascending order. -/
def ascend (l : List Nat) : List Nat := l.foldr insertAsc []

/-- A binary32 code with no negative zero (R40). -/
def canon32 (c : Nat) : Nat := rne32 (dec32 c)

/-- A head's merged result (R289). -/
def Coll.mergeHead (c : Coll) (head : Nat) : Finished :=
  let d := c.desc
  let labs := ascend (c.labels head)
  let bs := labs.map (c.block head)
  let dim := cDim d
  let flags := bs.foldl (fun f b => f ||| (le b 6 1 % 4)) 0
  let r := foldPartials (bs.map (fun b => { m := le b 8 4, l := le b 12 4, o := (List.range dim).map (fun j => le b (16 + 4 * j) 4) }))
  let head16 := fun m l => natLe (labs.headD 0) 4 ++ natLe head 2 ++ natLe flags 1 ++ natLe 0 1 ++ natLe m 4 ++ natLe l 4
  let ob := if cMnorm d then elemBits (cOutFmt d) / 8 else 4
  if bit flags 1 then { bytes := head16 0 0 ++ zeros (ob * dim), ovf := flags % 2, poison := true }
  else if cMnorm d then
    let l := dec32 r.l
    let es := r.o.map (fun o => encodeElem (cOutFmt d) (match l with | .fin 0 _ => Num.fin 0 0 | _ => (dec32 o).mul l.recip))
    { bytes := head16 (canon32 r.m) (canon32 r.l) ++ packElems (cOutFmt d) (es.map (·.1)), ovf := flags % 2, sat := r.sat + countIf es (·.2) }
  else { bytes := head16 (canon32 r.m) (canon32 r.l) ++ r.o.flatMap (fun o => natLe (canon32 o) 4), ovf := flags % 2, sat := r.sat }

/-- The slices of a collective that the root finishes: heads for `MERGE`, one for `CENSUS`. -/
def cUnits (d : List Byte) : Nat :=
  match cMode d with | .merge => cHeads d | .census => 1 | _ => cSlices d

/-- Whether slice `s` can be finished from some children (R291). -/
def Coll.ready (c : Coll) (keys : List (Bool × Nat)) (s : Nat) : Bool :=
  let d := c.desc
  match cMode d with
  | .merge => let ls := c.labels s; (ls.length = cNblk d) && ls.all (c.blockWhole s)
  | .census => keys.all (fun k => c.got.any (fun p => (p.partial_, p.pos) = k && !p.empty))
  | _ =>
    if cPattern d = 3 then (match keys with | k :: _ => c.delivered k s | [] => false)
    else
      let need := if cXcomb d then [s, (cElems d - 3) / 64, (cElems d - 1) / 64] else [s]
      need.all (fun s => keys.all (fun k => c.delivered k s))

/-- The finished bytes of slice `s` at the root. -/
def Coll.finish (c : Coll) (keys : List (Bool × Nat)) (s : Nat) : Finished :=
  let d := c.desc
  match cMode d with
  | .merge => c.mergeHead s
  | .census =>
    let vs := ascend (keys.map (fun k => match c.got.find? (fun p => (p.partial_, p.pos) = k && !p.empty) with
      | some p => le p.data 0 32 | none => 0))
    { bytes := natLe (vs.headD 0) 32 ++ natLe (vs.getLastD 0) 32 }
  | .words => { bytes := (c.words keys s).flatMap (fun w => natLe w (2 ^ cInFmt d)) }
  | .tree =>
    let es := c.tree keys s
    { bytes := packElems (cOutFmt d) (es.map (·.code)), ovf := countIf es (·.ovf), sat := es.foldl (fun n e => n + e.sat) 0 }
  | .frame =>
    let fs := c.frames keys s
    if cXcomb d then
      let lanes := cElems d - 3
      let lane := fun e => ((c.frames keys (e / 64))[e % 64]?).getD {}
      let outs := fs.take (lanes - 64 * s)
      finishFrames (cOutFmt d) (outs.map (fun x => (x, xcombElem (lane (lanes + 2)) (lane lanes) (lane (lanes + 1)) x)))
    else finishFrames (cOutFmt d) (fs.map (fun x => (x, x.value)))

/-- Cut a list into pieces. -/
def cutEvery {α : Type} (n : Nat) (l : List α) : List (List α) :=
  (List.range (ceilDiv l.length n)).map (fun i => (l.drop (i * n)).take n)

/-- A stage's finished slice as packets: encoding, and each packet's element count and bytes (R278,
R282). -/
def Coll.partials (c : Coll) (keys : List (Bool × Nat)) (s : Nat) : Nat × List (Nat × List Byte) :=
  let d := c.desc
  let enc := cEncOf d true
  let ep := perPacket enc (cWSel d)
  match cMode d with
  | .frame => (enc, (cutEvery ep (c.frames keys s)).map (fun fs => (fs.length, frameBytes (cW d) ep fs)))
  | .tree => (enc, (cutEvery ep ((c.tree keys s).map (·.code))).map (fun cs => (cs.length, packElems enc cs)))
  | _ => (enc, (cutEvery ep (c.words keys s)).map (fun ws => (ws.length, ws.flatMap (fun w => natLe w (2 ^ enc)))))

/-! ## The contribution header (R281) -/

/-- A contribution: its handle, the packet, and whether its zero fields are zero. For `ENC` 0xF the last
Nat of the packet's label holds `F`. -/
def parseContrib (b : List Byte) : Nat × PugPkt × Bool :=
  let b8 := le b 8 1
  let b9 := le b 9 1
  let enc := bits b9 0 4
  let lab := le b 12 4
  (le b 0 4,
   { partial_ := bit b8 2, pos := le b 4 2, slice := le b 6 2, part := bits b8 0 2, empty := bit b8 3, enc := enc,
     wSel := bits b9 4 2, nelem := le b 10 2, label := lab, ret := le b 16 8, data := b.drop 24 },
   decide (24 ≤ b.length) && (bits b8 4 4 = 0) && (bits b9 6 2 = 0) && !(enc = 15 && decide (65536 ≤ lab)))

/-- The payload of a contribution. -/
def contribBytes (handle : Nat) (p : PugPkt) : List Byte :=
  pad8 (natLe handle 4 ++ natLe p.pos 2 ++ natLe p.slice 2 ++ natLe (p.part + 4 * b2n p.partial_ + 8 * b2n p.empty) 1
    ++ natLe (p.enc + 16 * p.wSel) 1 ++ natLe p.nelem 2 ++ natLe p.label 4 ++ natLe p.ret 8 ++ p.data)

/-- The children of a collective here: the root's, or at a stage the positions of each block. -/
def State.groups (s : State) (c : Coll) : List (Nat × List Child) :=
  let n := s.collN c.desc
  if c.stage then (blocksOf c.desc n s.fab.node).map (fun b => (b.num, (List.range (b.hi - b.lo)).map (fun i => childAt (b.lo + i))))
  else [(0, kidsOf c.desc n)]

/-- The group and child a packet belongs to at this chip; none where it is not one this chip serves. -/
def State.childOf (s : State) (c : Coll) (p : PugPkt) : Option (Nat × Child) :=
  (s.groups c).findSome? (fun g => (g.2.find? (fun k => k.key = (p.partial_, p.pos))).map (fun k => (g.1, k)))

/-- Row 4 of R283: whether a packet is refused. -/
def State.badContrib (s : State) (c : Coll) (p : PugPkt) (rsvOk : Bool) : Bool :=
  let d := c.desc
  if !rsvOk then true else
  match cMode d with
  | .merge => decide (cHeads d ≤ p.pos) || p.empty || p.partial_ || p.enc ≠ 7 || decide (cChunks d ≤ p.slice)
      || decide (p.data.length < min 488 (cMergeBytes d - 488 * p.slice))
  | .census => decide (s.collN d ≤ p.pos) || p.partial_ || p.empty || p.slice ≠ 0 || p.part ≠ 0 || p.nelem ≠ 1 || decide (p.data.length < 32)
  | m =>
    match s.childOf c p with
    | none => true
    | some (_, k) =>
      decide (cSlices d ≤ p.slice) ||
      (if p.empty then p.nelem ≠ 0
       else
        let ep := perPacket p.enc p.wSel
        let n := min ep (cSliceLen d p.slice - p.part * ep)
        p.enc ≠ cEncOf d p.partial_ || (cPattern d = 3 && k.lo ≠ 0)
          || (p.enc = 15 && (p.wSel ≠ cWSel d || p.label ≠ unsignedW 16 c.f))
          || n = 0 || p.nelem ≠ n
          || decide (p.data.length < n * cElemBytes d p.enc + (if p.enc = 15 ∧ m = .frame then ep / 2 else 0)))

/-- Row 5: the packet was already received. -/
def Coll.seen (c : Coll) (p : PugPkt) : Bool :=
  if cMode c.desc = .merge then c.got.any (fun q => q.pos = p.pos && q.label = p.label && q.slice = p.slice)
  else c.got.any (fun q => q.empty = p.empty && q.partial_ = p.partial_ && q.pos = p.pos && q.slice = p.slice && q.part = p.part)

/-- Lane cycles that take an element of a packet (R269, R299). -/
def laneCycles (d : List Byte) (p : PugPkt) : Nat :=
  match cMode d with
  | .merge => (min 488 (cMergeBytes d - 488 * p.slice)) / 4 - (if p.slice = 0 then 2 else 0)
  | .frame => if 2 ≤ cWSel d then 2 * p.nelem else p.nelem
  | _ => p.nelem

/-- Positions received in full (R272, R292). -/
def State.positions (s : State) (c : Coll) : Nat :=
  let d := c.desc
  match cMode d with
  | .merge => ((List.range (cHeads d)).map (fun h => countIf (c.labels h) (c.blockWhole h))).foldl (· + ·) 0
  | .census => countIf (List.range (s.collN d)) (fun i => c.got.any (fun p => p.pos = i))
  | _ =>
    let full := fun (k : Child) =>
      if cPattern d = 3 ∧ k.lo ≠ 0 then ahas c.ret k.key else (List.range (cSlices d)).all (c.delivered k.key)
    ((s.groups c).flatMap (·.2)).foldl (fun n k => if full k then n + (k.hi - k.lo) else n) 0

end Sys2Proof.Machine
end

