-- ==== Sys2Proof/Machine/Pug.lean ====
section
/-! DEFINITION. Pug: opening, arming, contributions, delivery, completion, fences, and combined atomics
(chapter 10). -/

namespace Sys2Proof.Machine

/-! ## Units (R271, R296) -/

/-- A unit's fence; units enter service with SD (R296). -/
def State.pugFence (s : State) (u : Nat) : FenceSt := aget s.pug.unit u { on := true, cause := 2 }

/-- The unfenced units, ascending. -/
def State.pugUnits (s : State) : List Nat := (List.range 16).filter (fun u => !(s.pugFence u).on)

def setPug (f : Pug → Pug) (s : State) : State := { s with pug := f s.pug }

/-- A collective by its key: at the root or a stage. -/
def State.coll? (s : State) (g h : Nat) (stage : Bool) : Option Coll :=
  s.pug.colls.find? (fun c => c.saggar = g && c.handle = h && c.stage = stage)

def sameColl (a b : Coll) : Bool := a.saggar = b.saggar && a.handle = b.handle && a.stage = b.stage

/-- Put a collective back. -/
def putColl (c : Coll) (s : State) : State :=
  setPug (fun p => { p with colls := p.colls.map (fun x => if sameColl x c then c else x) }) s

def dropColl (c : Coll) (s : State) : State := setPug (fun p => { p with colls := p.colls.filter (fun x => !sameColl x c) }) s

/-- Enter a collective, over a fenced slot of its handle if there is one (R293). -/
def addColl (c : Coll) (s : State) : State := setPug (fun p => { p with colls := p.colls.filter (fun x => !sameColl x c) ++ [c] }) s

/-- The unit of a slice (R271). -/
def Coll.unitOf (c : Coll) (slice : Nat) : Nat := c.units.getD (slice % c.units.length) 0

/-- Bytes a saggar has reserved (R277). -/
def State.pugUsed (s : State) (g : Nat) : Nat :=
  ((s.pug.colls.filter (fun c => c.saggar = g)).map (·.bytes)).foldl (· + ·) 0

/-- `a` is a later epoch than `b`, modulo 2^16. -/
def laterEpoch (a b : Nat) : Bool := decide (1 ≤ (a + 65536 - b) % 65536 ∧ (a + 65536 - b) % 65536 < 32768)

/-! ## Sending -/

/-- Send the messages that wait, each as its unit may. -/
def pumpMsgs (l : List PugMsg) (s : State) : List PugMsg × State :=
  l.foldl (fun (st : List PugMsg × State) m =>
    if m.tag.isSome || !st.2.maySend (.pug m.unit) m.pkt.dst m.pkt.saggar then (st.1 ++ [m], st.2)
    else (st.1 ++ [{ m with tag := some st.2.nextTag }], issue (.pug m.unit) m.pkt st.2)) ([], s)

/-- Issue the packets of writes in progress. -/
def pumpWrites (l : List PugWrite) (s : State) : List PugWrite × State :=
  l.foldl (fun (st : List PugWrite × State) w =>
    match pumpAll (.pug w.unit) w.x st.2 with | (x, s) => (st.1 ++ [{ w with x := x }], s)) ([], s)

/-- A TC3 message of a collective. -/
def pugMsg (u dst g op : Nat) (payload : List Byte) : PugMsg :=
  { unit := u, pkt := { dst := dst, opcode := op, saggar := g, cls := 3, length := payload.length, payload := payload } }

/-! ## Delivery (R291) -/

/-- Where finished bytes of elements from `e0` go for a position with return address `ret`. -/
def posRun (d : List Byte) (n pos ret e0 : Nat) (out : List Byte) : Option (Nat × List Byte) :=
  let ob := cOutBytes d
  if ret = 0 then none
  else if cPattern d ≠ 2 then some (ret + e0 * ob, out)
  else
    let g := ceilDiv (cElems d) n
    let lo := max e0 (pos * g)
    let hi := min (e0 + out.length / ob) (min (cElems d) ((pos + 1) * g))
    if lo < hi then some (ret + (lo - pos * g) * ob, sub out ((lo - e0) * ob) ((hi - lo) * ob)) else none

/-- Add a write to a collective. -/
def Coll.addWrite (c : Coll) (slice a : Nat) (bs : List Byte) : Coll :=
  if bs.isEmpty then c else
  { c with
    writes := c.writes ++ [{ id := c.nextId, unit := c.unitOf slice, x := xferWrite (a % 2 ^ 64) bs c.saggar 3 }]
    nextId := c.nextId + 1 }

/-- The packets of a finished slice for a stage: the contribution header with `POS` the block, and the
slice cut as R282 cuts data of its width. -/
def resultMsgs (c : Coll) (slice block node : Nat) (out : List Byte) : List PugMsg :=
  let ob := cOutBytes c.desc
  let ep := if ob = 8 then 32 else 64
  (List.range (ceilDiv out.length (ep * ob))).map (fun i =>
    let bs := sub out (i * ep * ob) (ep * ob)
    pugMsg (c.unitOf slice) node c.saggar opRESULT
      (contribBytes c.handle { pos := block, slice := slice, part := i, nelem := bs.length / ob, data := bs }))

/-- Deliver a finished slice to one child of the root. -/
def Coll.deliverTo (c : Coll) (n slice : Nat) (out : List Byte) (k : Child) : Coll :=
  if k.partial_ then { c with msgs := c.msgs ++ resultMsgs c slice k.num k.node out }
  else match posRun c.desc n k.lo (aget c.ret k.key 0) (64 * slice) out with
    | some (a, bs) => c.addWrite slice a bs
    | none => c

/-- A child that is due a result: every child that has been heard from; a staged block of a broadcast by
its registration. -/
def Coll.heard (c : Coll) (k : Child) : Bool := ahas c.ret k.key

/-- Finish slice `s` at the root and start its delivery. -/
def finishRoot (kids : List Child) (n slice : Nat) (c : Coll) : Coll :=
  let d := c.desc
  let r := c.finish (kids.map Child.key) slice
  let c := { c with fin := c.fin ++ [(0, slice)], outs := aset c.outs slice r.bytes, ovf := satAdd 32 c.ovf r.ovf,
                    sat := satAdd 32 c.sat r.sat, poison := c.poison || r.poison }
  if cPattern d = 0 then
    let base := cDst d + c.inst * cStride d
    let off := match cMode d with
      | .merge => slice * r.bytes.length
      | .census => 0
      | _ => 64 * slice * cOutBytes d
    c.addWrite slice (base + off) r.bytes
  else kids.foldl (fun c k => if c.heard k then c.deliverTo n slice r.bytes k else c) c

/-- Finish slice `s` of a block at a stage: its partials go to the root (R278). A broadcast passes on
position 0's words. -/
def finishStage (block slice : Nat) (kids : List Child) (c : Coll) : Coll :=
  let p := c.partials (kids.map Child.key) slice
  let wsel := if p.1 = 15 then cWSel c.desc else 0
  let lab := if p.1 = 15 then unsignedW 16 c.f else 0
  let ms := (List.range p.2.length).map (fun i =>
    let x := p.2.getD i (0, [])
    pugMsg (c.unitOf slice) c.root c.saggar opCONTRIB
      (contribBytes c.handle { partial_ := true, pos := block, slice := slice, part := i, enc := p.1, wSel := wsel,
                               nelem := x.1, label := lab, data := x.2 }))
  { c with fin := c.fin ++ [(block, slice)], msgs := c.msgs ++ ms }

/-- Finish every slice that has become ready. -/
def State.finishReady (s : State) (c : Coll) : Coll :=
  let n := s.collN c.desc
  (s.groups c).foldl (fun c g =>
    (List.range (cUnits c.desc)).foldl (fun c sl =>
      if c.fin.contains (g.1, sl) || !c.ready (g.2.map Child.key) sl then c
      else if c.stage then
        (if cPattern c.desc = 3 ∧ g.1 ≠ 0 then c else finishStage g.1 sl g.2 c)
      else finishRoot g.2 n sl c) c) c

/-- A stage of a broadcast registers a block with the root once every position of it has registered. -/
def State.tellRoot (s : State) (c : Coll) : Coll :=
  if !c.stage || cPattern c.desc ≠ 3 then c else
  (s.groups c).foldl (fun c g =>
    if c.told.contains g.1 || !g.2.all c.heard then c
    else { c with told := c.told ++ [g.1]
                  msgs := c.msgs ++ [pugMsg (c.unitOf 0) c.root c.saggar opCONTRIB
                    (contribBytes c.handle { partial_ := true, pos := g.1, empty := true, enc := cInFmt c.desc })] }) c

/-! ## Completion (R292) -/

/-- The status code of the completion record. -/
def Coll.status (c : Coll) (fenced : Bool) : Nat :=
  if fenced then Status.nackFenced.code
  else match c.abandon with
    | some a => a
    | none => if c.poison then Status.poison.code else if 0 < c.ovf then Status.overflow.code else 0

/-- The 32 bytes of the completion record. -/
def State.collRecord (s : State) (c : Coll) (fenced : Bool) : List Byte :=
  let fu := if cMode c.desc = .frame then unsignedW 16 c.f else 0
  natLe c.handle 4 ++ natLe (c.status fenced) 1 ++ zeros 1 ++ natLe fu 2 ++ natLe (s.positions c) 4 ++ natLe c.ovf 4
    ++ natLe c.sat 4 ++ (shapeDigest c.desc (s.collN c.desc)).take 8 ++ zeros 4

/-- `COLL_FREE` to the stages of a collective. -/
def freeStages (c : Coll) (nodes : List Nat) (s : State) : State :=
  match pumpMsgs (nodes.map (fun n => pugMsg (c.unitOf 0) n c.saggar opFREE (natLe c.handle 8))) s with
  | (ms, s) => setPug (fun p => { p with msgs := p.msgs ++ ms }) s

/-- Write the completion record of a collective, if it has an address for it. -/
def writeRecord (c : Coll) (fenced : Bool) (s : State) : State :=
  if cCpl c.desc = 0 then s else
  let w : PugWrite := { id := 0, unit := c.unitOf 0, x := xferWrite ((cCpl c.desc + 32 * c.inst) % 2 ^ 64) (s.collRecord c fenced) c.saggar 3 }
  match pumpWrites [w] s with
  | (ws, s) => setPug (fun p => { p with records := p.records ++ ws }) s

/-- The output leaf of a combine or merge whose request entered at this edge (R151, R183). -/
def noteOutput (c : Coll) (s : State) : State :=
  let x := aget s.sit c.saggar {}
  match afind x.combines c.handle with
  | none => s
  | some (step, key) =>
    let out := (List.range (cUnits c.desc)).flatMap (fun i => aget c.outs i [])
    { s with sit := aset s.sit c.saggar { x with outputs := x.outputs ++ [(step, key, out)], combines := aerase x.combines c.handle } }

/-- A root whose deliveries have all been acknowledged: the record, the state freed, the stages freed. -/
def completeColl (c : Coll) (s : State) : State :=
  let s := noteOutput c s
  dropColl c (freeStages c (stageNodes c.desc (s.collN c.desc)) (writeRecord c false s))

/-- Whether a root in `DELIVERING` has nothing left to do; a pattern with return addresses waits for
every child to be heard from. -/
def State.collDone (s : State) (c : Coll) : Bool :=
  c.st = 3 && c.writes.isEmpty && c.msgs.isEmpty
    && (cPattern c.desc = 0 || ((s.groups c).flatMap (·.2)).all c.heard)

/-- Carry a collective on: finish what is ready, send what can be sent, complete it. -/
def advanceColl (c : Coll) (s : State) : State :=
  if c.st = 4 ∨ c.st = 1 then putColl c s else
  let c := s.tellRoot (s.finishReady c)
  let c := if !c.stage && c.st = 2 && decide (cUnits c.desc ≤ c.fin.length) then { c with st := 3 } else c
  match pumpWrites c.writes s with
  | (ws, s) =>
    match pumpMsgs c.msgs s with
    | (ms, s) =>
      let c := { c with writes := ws, msgs := ms }
      let s := putColl c s
      if !c.stage && s.collDone c then completeColl c s else s

/-! ## Opening (R276, R278) -/

/-- Rows 1 to 7 of R276: the refusal, or the instance reservation and the units. -/
def State.admitColl (s : State) (d : List Byte) (g epoch : Nat) (stage : Bool) (p : Packet) : Except (Status × Nat) (Nat × List Nat) :=
  let comp := cComp d
  let n := s.collN d
  let nodes := if cStageLog2 d = 0 then [] else ((List.range (cNstage d)).map (cStage d)).filter (· ≠ 0xFFFF)
  if !cFormOk d then .error (.denied, 0)
  else if !(s.sagExists g) || s.sagComp g ≠ comp || (s.members comp).isEmpty || !nodes.all (s.members comp).contains then .error (.denied, 0)
  else if s.compFenced comp then .error (.nackFenced, 0)
  else if s.epochCheck p = .stale then .error (.nackStaleEpoch, 0)
  else if s.epochCheck p = .notReady then .error (.nackRetry, 10)
  else
    let c := if stage then (((blocksOf d n s.fab.node).map (fun b => b.hi - b.lo)).foldl (· + ·) 0) else (kidsOf d n).length
    let r := reservation d c
    let share := recPugShare (s.sagRec g) * 65536
    if share < r * cCount d then .error (.denied, 0)
    else if (List.range (cCount d)).any (fun i =>
        match s.coll? g ((cHandle d + i) % 2 ^ 32) stage with
        | some c => !(c.st = 4 && laterEpoch epoch c.epoch)
        | none => false) then .error (.nackRetry, 12)
    else if share < s.pugUsed g + r * cCount d || s.pugUnits.isEmpty then .error (.nackRetry, 14)
    else .ok (r, s.pugUnits)

/-- The Sitter entry of a collective of a step, in that step's record (R52, R285). -/
def noteColl (g : Nat) (d : List Byte) (handle : Nat) (f : Int) (n : Nat) (s : State) : State :=
  if cStep d = 0 then s
  else if cAuto d then noteFrame g (cStep d) (frameEntry 0 0xFFF 3 (cWSel d) f (0x10 + handle * 2 ^ 32)) s
  else if cMode d = .tree then noteTree g (cStep d) (4 + handle * 2 ^ 32, le (shapeDigest d n) 0 8) s
  else s

/-- The result of `COLL_OPEN` (R272). -/
def openResult (d : List Byte) (n : Nat) : List Byte := natLe (cHandle d) 4 ++ (shapeDigest d n).take 8

/-- The census call to each member (R290). -/
def censusMsgs (s : State) (c : Coll) : List PugMsg :=
  if cMode c.desc = .census ∧ cCensusKind c.desc = 0 then
    (s.members (cComp c.desc)).map (fun m => pugMsg (c.unitOf 0) m c.saggar opCENSUS (natLe c.handle 8))
  else []

/-- Send the arming packets of an open that wait. -/
def pumpOpens (s : State) : State :=
  s.pug.opens.foldl (fun s o =>
    match pumpMsgs o.arms s with
    | (ms, s) => setPug (fun p => { p with opens := p.opens.map (fun x => if x.saggar = o.saggar && x.first = o.first then { x with arms := ms } else x) }) s) s

/-- Open a collective as its root; `call` is the packet to answer, if any (R276). -/
def openColl (d : List Byte) (g epoch : Nat) (call : Option Packet) (p : Packet) (s : State) : State :=
  match s.admitColl d g epoch false p with
  | .error (st, h) => match call with | some q => reply q st h [] s | none => s
  | .ok (r, units) =>
    let n := s.collN d
    let stages := stageNodes d n
    let f := match (if cAuto d then s.forcedF g (cStep d) 0 0xFFF 3 (0x10 + cHandle d * 2 ^ 32) else none) with
      | some f => f
      | none => cFrameExp d
    let mk := fun (i : Nat) =>
      let h := (cHandle d + i) % 2 ^ 32
      let f := match (if cAuto d then s.forcedF g (cStep d) 0 0xFFF 3 (0x10 + h * 2 ^ 32) else none) with | some f => f | none => f
      ({ saggar := g, handle := h, inst := i, root := s.fab.node, desc := d, epoch := epoch,
         st := if stages.isEmpty then 2 else 1, units := units, f := f, bytes := r } : Coll)
    let s := forEach (List.range (cCount d)) (fun i s => let c := mk i; noteColl g d c.handle c.f n (addColl c s)) s
    if stages.isEmpty then
      let s := match call with | some q => reply q .ok 0 (rptResult 0 (openResult d n)) s | none => s
      forEach (List.range (cCount d)) (fun i s => let c := mk i; advanceColl { c with msgs := censusMsgs s c } s) s
    else
      let body := cWithF d f ++ natLe s.fab.node 8
      let arms := stages.map (fun nd => pugMsg (units.headD 0) nd g opARM body)
      pumpOpens (setPug (fun p => { p with opens := p.opens ++ [{ call := call, saggar := g, first := cHandle d, count := cCount d, arms := arms }] }) s)

/-- The meaning of `COLL_OPEN`. -/
def execCollOpen (p : Packet) (s : State) : Host.Outcome State Fault Refusal :=
  run (p.wf) (serveProc p 0xFF8 (fun s =>
    if (callArgs p).length ≠ 128 then reply p .denied 0 [] s else openColl (callArgs p) p.saggar p.epoch (some p) p s) s)

/-- An arming has been answered (R276 row 8, R293): the last one opens the collectives or frees them. -/
def armAnswer (o : PugOpen) (tag code hint : Nat) (s : State) : State :=
  let m := o.arms.find? (fun m => m.tag = some tag)
  let node := (m.map (·.pkt.dst)).getD 0
  let ok := code = 0
  let o' := { o with arms := o.arms.filter (fun m => m.tag ≠ some tag)
                     armed := if ok then o.armed ++ [node] else o.armed
                     refused := if ok ∨ o.refused.isSome then o.refused else some (code, hint) }
  let rest := fun (s : State) => setPug (fun p => { p with opens := p.opens.filter (fun x => !(x.saggar = o.saggar && x.first = o.first)) }) s
  if !o'.arms.isEmpty then
    pumpOpens (setPug (fun p => { p with opens := p.opens.map (fun x => if x.saggar = o.saggar && x.first = o.first then o' else x) }) s)
  else
    let live := (List.range o.count).filterMap (fun i =>
      match s.coll? o.saggar ((o.first + i) % 2 ^ 32) false with | some c => if c.st = 1 then some c else none | none => none)
    let s := rest s
    match o'.refused, live with
    | none, c0 :: _ =>
      let s := match o.call with
        | some q => reply q .ok 0 (rptResult 0 (openResult c0.desc (s.collN c0.desc))) s
        | none => s
      forEach live (fun c s => advanceColl { c with st := 2 } s) s
    | r, _ =>
      let c0 : Coll := live.headD { saggar := o.saggar, handle := o.first, units := [0] }
      let s := forEach live (fun c s => dropColl c s) s
      let s := forEach (List.range o.count) (fun i s => freeStages { c0 with handle := (o.first + i) % 2 ^ 32 } o'.armed s) s
      match o.call with
      | none => s
      | some q => match r with
        | none => reply q .denied 0 [] s
        | some (c, h) => match Status.ofCode c with | some st => reply q st h [] s | none => reply q .nackRetry 14 [] s

/-- `COLL_ARM` at a stage (R278): rows 1 to 7 of R276, then the state of its blocks. -/
def collArm (p : Packet) (s : State) : State :=
  let s := take p s
  let d := p.payload.take 128
  if p.payload.length < 136 then reply p .denied 0 [] s else
  match s.admitColl d p.saggar p.epoch true p with
  | .error (st, h) => reply p st h [] s
  | .ok (r, units) =>
    let s := forEach (List.range (cCount d)) (fun i s =>
      addColl { saggar := p.saggar, handle := (cHandle d + i) % 2 ^ 32, stage := true, inst := i, root := le p.payload 128 2,
                desc := d, epoch := p.epoch, units := units, f := cFrameExp d, bytes := r } s) s
    reply p .ok 0 [] s

/-- The meaning of `COLL_ARM`. -/
def execCollArm (p : Packet) (s : State) : Host.Outcome State Fault Refusal :=
  run (p.wf) (collArm p s)

/-! ## Fences (R293, R294, R296) -/

/-- Fence one collective: the root writes its record and frees its stages; the handle keeps only its
descriptor slot. -/
def fenceColl (c : Coll) (s : State) : State :=
  if c.st = 4 then s else
  let off : Coll := { c with st := 4, bytes := 0, got := [], ret := [], outs := [], writes := [], msgs := [], results := [] }
  if c.stage then
    forEach c.results (fun r s => reply r.pkt .nackFenced 0 [] s) (putColl off s)
  else
    let mine := fun (x : PugOpen) => x.saggar = c.saggar && decide ((c.handle + 2 ^ 32 - x.first) % 2 ^ 32 < x.count)
    let s := if c.st = 1 then
        (match s.pug.opens.find? (fun x => mine x && x.call.isSome) with
         | some o => match o.call with
           | some q => reply q .nackFenced 0 [] (setPug (fun p => { p with opens := p.opens.map (fun x => if x = o then { x with call := none } else x) }) s)
           | none => s
         | none => s)
      else s
    putColl off (freeStages c (stageNodes c.desc (s.collN c.desc)) (writeRecord c true s))

/-- Fence every collective of a composition (R294). -/
def fencePugComp (comp : Nat) (s : State) : State :=
  forEach (s.pug.colls.filter (fun c => cComp c.desc = comp)) fenceColl s

/-- Units that handle a slice of a collective: the slices it finishes, and the chunks a `MERGE` takes in. -/
def Coll.holds (c : Coll) (u : Nat) : Bool :=
  (c.units.take (max 1 (max (cUnits c.desc) (if cMode c.desc = .merge then cChunks c.desc else 1)))).contains u

/-- Fence a unit, with every collective that has state on it (R296). -/
def fencePug (u cause : Nat) (s : State) : State :=
  if (s.pugFence u).on then s else
  let s := setPug (fun p => { p with unit := aset p.unit u { on := true, cause := cause } }) s
  forEach (s.pug.colls.filter (fun c => c.holds u)) fenceColl s

def pugCtrl (u : Nat) : Nat := pugPage u + 8

/-- The meaning of `PUG_FENCE`. -/
def execPugFence (who : Who) (u : Nat) (s : State) : Host.Outcome State Fault Refusal :=
  run (who.wf && decide (u < 16)) (ctlWrite who (pugCtrl u) true (fencePug u (fenceCauseOf who)) s)

/-- The meaning of `PUG_UNFENCE`: the in-service BIST runs, and the fence is lifted when it passes. -/
def execPugUnfence (who : Who) (u : Nat) (bistPass : Bool) (s : State) : Host.Outcome State Fault Refusal :=
  run (who.wf && decide (u < 16)) (ctlWrite who (pugCtrl u) (liftsFence who)
    (when_ bistPass (setPug (fun p => { p with unit := aset p.unit u {} }))) s)

/-! ## Contributions (R283, R295) -/

/-- The collective a contribution belongs to: a stage partial to the root's, others to a stage's where
this chip serves their block as a stage, else to the root's. -/
def State.collFor (s : State) (g h : Nat) (p : PugPkt) : Option Coll :=
  match s.coll? g h true, s.coll? g h false with
  | some a, some b => if !p.partial_ && (s.childOf a p).isSome then some a else some b
  | some a, none => some a
  | none, b => b

/-- Register a child's return address: its first packet's holds (R281). A staged block of a broadcast
registers by its `EMPTY` partial. A slice already finished goes to a child that registers late (R291). -/
def State.registerChild (s : State) (c : Coll) (k : Child) (p : PugPkt) : Coll :=
  if ahas c.ret k.key || (k.partial_ && cPattern c.desc = 3 && !p.empty) then c else
  let c := { c with ret := aset c.ret k.key p.ret }
  if c.stage || cPattern c.desc = 0 then c
  else c.outs.foldl (fun c o => c.deliverTo (s.collN c.desc) o.1 o.2 k) c

/-- `COLL_CONTRIB`: the rows of R283, then the update with its checks (R295): each repeat counts, and a third
failure fences the unit. -/
def collContrib (p : Packet) (upsets : List LaneUpset) (s : State) : State :=
  let s := take p s
  match parseContrib p.payload with
  | (h, x, rsv) =>
    match s.collFor p.saggar h x with
    | none => reply p .nackRetry 12 [] s
    | some c =>
      if c.st = 4 then reply p .nackFenced 0 [] s
      else if s.epochCheck p = .notReady then reply p .nackRetry 10 [] s
      else if s.epochCheck p = .stale ∨ p.epoch ≠ c.epoch then reply p .nackStaleEpoch 0 [] s
      else if s.badContrib c x rsv then reply p .denied 0 [] s
      else
        let u := c.unitOf x.slice
        if c.seen x then reply p .ok 0 [] (bumpSat (satPugDup u) s)
        else if cMode c.desc = .merge && !(c.labels x.pos).contains x.label && decide (cNblk c.desc ≤ (c.labels x.pos).length) then
          reply p .denied 0 [] s
        else
          let tries := c.attempts x upsets
          let s := bumpSatN (satPugResidue u) (min tries.1 2) s
          match tries.2 with
          | none => reply p .nackFenced 0 [] (fencePug u 1 s)
          | some left =>
            let s := bumpCtr (ctrPugLane u) (laneCycles c.desc x) s
            let x := { x with upset := left }
            let c := { c with got := c.got ++ [x] }
            let c := match s.childOf c x with
              | some (_, k) => s.registerChild c k x
              | none => c
            advanceColl c (reply p .ok 0 [] s)

/-- The meaning of `COLL_CONTRIB`. Of two copies in one cycle the command of the lower ingress port comes
first; the later meets row 5. -/
def execCollContrib (port : Nat) (p : Packet) (upsets : List LaneUpset) (s : State) : Host.Outcome State Fault Refusal :=
  run (decide (port < 65) && p.wf && decide (upsets.length ≤ 3)) (collContrib p upsets s)

/-! ## Results and frees at a stage (R291, R292) -/

/-- `COLL_RESULT`: the finished slice goes to the `RET` of each child of the block; the packet is answered
once those writes are acknowledged. -/
def collResult (p : Packet) (s : State) : State :=
  let s := take p s
  match parseContrib p.payload with
  | (h, x, _) =>
    match s.coll? p.saggar h true with
    | none => reply p .denied 0 [] s
    | some c =>
      if c.st = 4 then reply p .nackFenced 0 [] s else
      match (s.groups c).find? (fun g => g.1 = x.pos) with
      | none => reply p .denied 0 [] s
      | some g =>
        let ob := cOutBytes c.desc
        let ep := if ob = 8 then 32 else 64
        let out := x.data.take (x.nelem * ob)
        let first := c.nextId
        let c := g.2.foldl (fun c k =>
          match posRun c.desc (s.collN c.desc) k.lo (aget c.ret k.key 0) (64 * x.slice + x.part * ep) out with
          | some (a, bs) => c.addWrite x.slice a bs
          | none => c) c
        if c.nextId = first then reply p .ok 0 [] s
        else advanceColl { c with results := c.results ++ [{ pkt := p, ids := (List.range (c.nextId - first)).map (· + first) }] } s

/-- The meaning of `COLL_RESULT`. -/
def execCollResult (p : Packet) (s : State) : Host.Outcome State Fault Refusal :=
  run (p.wf) (collResult p s)

/-- `COLL_FREE`: the stage frees its state. -/
def collFree (p : Packet) (s : State) : State :=
  let s := take p s
  match s.coll? p.saggar (le p.payload 0 4) true with
  | some c => reply p .ok 0 [] (dropColl c s)
  | none => reply p .ok 0 [] s

/-- The meaning of `COLL_FREE`. -/
def execCollFree (p : Packet) (s : State) : Host.Outcome State Fault Refusal :=
  run (p.wf) (collFree p s)

/-! ## Cancel and info (R272, R293) -/

/-- `COLL_CANCEL`: every handle of the range is in `ARMING` or `OPEN`, or nothing is cancelled. -/
def collCancel (p : Packet) (s : State) : State :=
  let a := le (callArgs p) 0 8
  let n := bits a 32 13
  let cs := (List.range n).map (fun i => s.coll? p.saggar ((a + i) % 2 ^ 32) false)
  let bad := cs.any (fun c => match c with | some c => !(c.st = 1 || c.st = 2) | none => true)
  if n = 0 ∨ bad then reply p .denied 0 [] s else
  let s := forEach (cs.filterMap id) (fun c s => dropColl c (freeStages c (stageNodes c.desc (s.collN c.desc)) s)) s
  reply p .ok 0 (rptResult 0 []) s

/-- The meaning of `COLL_CANCEL`. -/
def execCollCancel (p : Packet) (s : State) : Host.Outcome State Fault Refusal :=
  run (p.wf) (serveProc p 0xFF9 (collCancel p) s)

/-- `COLL_INFO`: a handle without a collective reads `FREE`. -/
def collInfo (p : Packet) (s : State) : State :=
  match s.coll? p.saggar (le (callArgs p) 0 4) false with
  | none => reply p .ok 0 (rptResult 0 (zeros 16)) s
  | some c => reply p .ok 0 (rptResult 0 (natLe c.st 4 ++ natLe (min (s.positions c) (2 ^ 32 - 1)) 4
      ++ (shapeDigest c.desc (s.collN c.desc)).take 8)) s

/-- The meaning of `COLL_INFO`. -/
def execCollInfo (p : Packet) (s : State) : Host.Outcome State Fault Refusal :=
  run (p.wf) (serveProc p 0xFFA (collInfo p) s)

/-! ## Census (R290) -/

/-- A census call at a member: the image digest in force goes to the root at this member's number. -/
def censusCall (p : Packet) (s : State) : State :=
  let s := take p s
  let ms := s.members (s.sagComp p.saggar)
  if s.epochCheck p = .stale then reply p .nackStaleEpoch 0 [] s
  else if s.epochCheck p = .notReady then reply p .nackRetry 10 [] s
  else if !ms.contains s.fab.node then reply p .denied 0 [] s
  else
    let m := pugMsg (s.pugUnits.headD 0) p.src p.saggar opCONTRIB
      (contribBytes (le p.payload 0 4) { pos := ms.idxOf s.fab.node, nelem := 1, data := s.img.dig })
    match pumpMsgs [m] (reply p .ok 0 [] s) with
    | (l, s) => setPug (fun q => { q with msgs := q.msgs ++ l }) s

/-- The meaning of `CENSUS_CALL`. -/
def execCensusCall (p : Packet) (s : State) : Host.Outcome State Fault Refusal :=
  run (p.wf) (censusCall p s)

/-! ## Combined atomics (R297, R298, R364) -/

/-- The fold of operands in join order. -/
def foldOperands (op : Nat) : List Packet → Nat
  | [] => 0
  | p :: r => r.foldl (fun a q => atomicWord op a (le q.payload 0 8) 0) (le p.payload 0 8)

/-- The payload of a combined atomic (R364). -/
def combinedPayload (op : Nat) (ps : List Packet) : List Byte :=
  natLe (ps.length % 16) 8 ++ natLe (foldOperands op ps) 8 ++
    ps.flatMap (fun p => natLe (p.src + p.saggar * 2 ^ 16 + p.seq * 2 ^ 22) 8 ++ natLe (le p.payload 0 8) 8)

/-- Close an entry: the combined atomic goes to the target. -/
def closeComb (e : CombEntry) (s : State) : State :=
  let pay := combinedPayload e.op e.originals
  let t := s.nextTag
  let s := issue (.pug e.unit) { dst := e.dst, opcode := e.op, saggar := e.saggar, offset := e.off, cls := 1, cmb := true,
                                 length := pay.length, payload := pay } s
  setPug (fun p => { p with comb := p.comb.map (fun x => if x.id = e.id then { e with tag := some t } else x) }) s

/-- The meaning of `COMBINING_ENTRY_CLOSE`: `COMB_HOLD` cycles after the entry opened. -/
def execCombiningEntryClose (id : Nat) (s : State) : Host.Outcome State Fault Refusal :=
  run (decide (id < 2 ^ 32))
    (match s.pug.comb.find? (fun e => e.id = id && e.tag = none) with
     | none => s
     | some e => closeComb e (carry e.deadline s))

/-- Whether two packets are one original. -/
def sameOriginal (a b : Packet) : Bool := a.src = b.src && a.saggar = b.saggar && a.seq = b.seq

/-- Whether a packet is an atomic the Pug may combine: one of four operations in TC1 on a combining range
(R297, R361). -/
def State.combinable (s : State) (p : Packet) : Bool :=
  p.cls = 1 && !p.cmb && (p.opcode = opADD || p.opcode = opMIN || p.opcode = opMAX || p.opcode = opFRAMEADD)
    && p.payload.length = 8 && decide (0 < s.nodeParam 0x0204)
    && s.fab.hot.any (fun h => h.kind = 1 && h.home = p.dst && decide (h.base ≤ p.offset ∧ p.offset < h.base + h.pages * 65536))

/-- Join a combining entry, or open one; none where the table has no free entry, and the packet passes
uncombined. A retried original is matched and never joins twice. -/
def combine (p : Packet) (s : State) : Option State :=
  match s.pug.comb.find? (fun e => e.originals.any (sameOriginal p)) with
  | some e => some (setPug (fun q => { q with comb := q.comb.map (fun x => if x.id = e.id then
      { x with originals := x.originals.map (fun o => if sameOriginal p o then p else o) } else x) }) s)
  | none =>
    match s.pug.comb.find? (fun e => e.tag = none && e.op = p.opcode && e.dst = p.dst && e.saggar = p.saggar && e.off = p.offset) with
    | some e =>
      let e := { e with originals := e.originals ++ [p] }
      let s := bumpCtr (ctrPugCombined e.unit) 1 (setPug (fun q => { q with comb := q.comb.map (fun x => if x.id = e.id then e else x) }) s)
      some (if 16 ≤ e.originals.length then closeComb e s else s)
    | none =>
      match s.pugUnits.find? (fun u => decide (countIf s.pug.comb (fun e => e.unit = u) < 4096)) with
      | none => none
      | some u =>
        let e : CombEntry := { id := s.pug.nextComb, unit := u, op := p.opcode, dst := p.dst, saggar := p.saggar, off := p.offset,
                               originals := [p], deadline := s.now + sclk (s.nodeParam 0x0204) }
        some (bumpCtr (ctrPugCombined u) 1 (setPug (fun q => { q with comb := q.comb ++ [e], nextComb := q.nextComb + 1 }) s))

/-- Answer the originals of an entry (R298): from the old value, or with the status every one receives. -/
def answerComb (e : CombEntry) (code hint : Nat) (data : List Byte) (s : State) : State :=
  let s := setPug (fun p => { p with comb := p.comb.filter (fun x => x.id ≠ e.id) }) s
  match Status.ofCode code with
  | none => s
  | some st =>
    if st = .ok ∨ st = .okSuperseded ∨ st = .overflow then
      let vs := splitResults e.op (leNat (data.take 8)) (e.originals.map (fun p => (p.src, p.saggar, p.seq, le p.payload 0 8)))
      forEach (List.zip e.originals vs) (fun x s => reply x.1 st 0 (natLe x.2.2 8) s) s
    else forEach e.originals (fun p s => reply p st hint [] s) s

/-! ## Answers to the Pug's packets -/

/-- An answer to a collective's write or message. -/
def collAnswer (c : Coll) (tag code : Nat) (data : List Byte) (s : State) : State :=
  let bad := !(code = 0 || code = Status.okSuperseded.code)
  let result := c.msgs.any (fun m => m.tag = some tag && m.pkt.opcode = opRESULT)
  let c := { c with msgs := c.msgs.filter (fun m => m.tag ≠ some tag) }
  let c := if result && bad then { c with abandon := some (c.abandon.getD code) } else c
  let ws := c.writes.map (fun w => { w with x := w.x.answer tag code data })
  let ended := ws.filter (fun w => w.x.ended)
  let c := { c with writes := ws.filter (fun w => !w.x.ended) }
  let fail := ended.findSome? (fun w => w.x.failed)
  if c.stage then
    let rs := c.results.map (fun r =>
      let mine := ended.filter (fun w => r.ids.contains w.id)
      { r with ids := r.ids.filter (fun i => !ended.any (fun w => w.id = i)),
               code := if r.code ≠ 0 then r.code else ((mine.findSome? (fun w => w.x.failed)).getD 0) })
    let done := rs.filter (fun r => r.ids.isEmpty)
    let s := forEach done (fun r s => reply r.pkt ((Status.ofCode r.code).getD .denied) 0 [] s) s
    advanceColl { c with results := rs.filter (fun r => !r.ids.isEmpty) } s
  else advanceColl (match fail with | some f => { c with abandon := some (c.abandon.getD f) } | none => c) s

/-- An answer to a packet a Pug unit sent. -/
def pugAnswer (tag code hint : Nat) (data : List Byte) (s : State) : State :=
  match s.pug.comb.find? (fun e => e.tag = some tag) with
  | some e => answerComb e code hint data s
  | none =>
    match s.pug.opens.find? (fun o => o.arms.any (fun m => m.tag = some tag)) with
    | some o => armAnswer o tag code hint s
    | none =>
      match s.pug.colls.find? (fun c => c.msgs.any (fun m => m.tag = some tag) || c.writes.any (fun w => w.x.has tag)) with
      | some c => collAnswer c tag code data s
      | none =>
        let s := setPug (fun p => { p with
          msgs := p.msgs.filter (fun m => m.tag ≠ some tag)
          records := (p.records.map (fun w => { w with x := w.x.answer tag code data })).filter (fun w => !w.x.ended) }) s
        match pumpWrites s.pug.records s with
        | (ws, s) => match pumpMsgs s.pug.msgs s with
          | (ms, s) => setPug (fun p => { p with records := ws, msgs := ms }) s

end Sys2Proof.Machine
end

