-- ==== Sys2Proof/Machine/Gather.lean ====
section
/-! DEFINITION. Gather: pooling requests, sub-requests, row migration and the engines' fences (chapter
11, R302 to R312, R325). -/

namespace Sys2Proof.Machine

def setGth (f : Gth → Gth) (s : State) : State := { s with gth := f s.gth }

def State.gthFence (s : State) (e : Nat) : FenceSt := aget s.gth.unit e { on := true, cause := 2 }
/-- Unfenced engines, ascending. -/
def State.gthUnits (s : State) : List Nat := (List.range 8).filter (fun e => !(s.gthFence e).on)
/-- Requests on an engine. -/
def State.gthQueued (s : State) (e : Nat) : Nat := countIf s.gth.reqs (fun r => r.engine = some e)

/-- The engine a request goes to: the unfenced one with the fewest requests, ties to the lowest number. -/
def State.gthPick (s : State) : Option Nat :=
  s.gthUnits.foldl (fun best e => match best with
    | none => some e
    | some b => if s.gthQueued e < s.gthQueued b then some e else some b) none

/-! ## The header (R302) -/

structure GthHdr where
  dver : Nat := 1
  table : Nat := 0
  pool : Nat := 0
  fwd : Nat := 0
  wSel : Nat := 0
  outFmt : Nat := 0
  f : Nat := 0
  nRows : Nat := 0
  gen : Nat := 0
  maxexp : Int := 0
  rsvOk : Bool := true
  deriving DecidableEq, Repr

def gthHdr (b : List Byte) : GthHdr :=
  let w0 := le b 0 8
  let w1 := le b 8 8
  { dver := bits w0 0 8, table := bits w0 8 6, pool := bits w0 14 2, fwd := bits w0 16 2, wSel := bits w0 18 2,
    outFmt := bits w0 20 4, f := bits w0 24 16, nRows := bits w0 40 15, gen := bits w1 0 32, maxexp := signedW 16 (bits w1 32 16),
    rsvOk := bits w0 55 9 = 0 && bits w1 48 16 = 0 && (sub b 16 16).all (· = 0) }

def GthHdr.bytes (h : GthHdr) : List Byte :=
  natLe (h.dver + h.table * 2 ^ 8 + h.pool * 2 ^ 14 + h.fwd * 2 ^ 16 + h.wSel * 2 ^ 18 + h.outFmt * 2 ^ 20 + h.f * 2 ^ 24
    + h.nRows * 2 ^ 40) 8 ++ natLe (h.gen + unsignedW 16 h.maxexp * 2 ^ 32) 8 ++ zeros 16

/-- Entries and weights of a train. -/
def gthEntries (b : List Byte) (h : GthHdr) : List (Nat × Nat) :=
  (List.range h.nRows).map (fun i => (le b (32 + 4 * i) 4, if h.pool = 2 then le b (32 + 4 * h.nRows + 4 * i) 4 else 0))

/-- A train has the length its header names, padded to 8 bytes. -/
def trainLenOk (b : List Byte) (n : Nat) : Bool := b.length = n || b.length = ceilDiv n 8 * 8

/-! ## Acceptance (R303) -/

/-- Whether an entry is one this chip may serve under the header's `FWD`. -/
def State.gthEntryOk (s : State) (g : Nat) (d : List Byte) (fwd v : Nat) : Bool :=
  if fwd = 2 then
    (v / 2 ^ 28 = 0) && (match gHot d (bits v 24 4) with
      | some (id, n) => s.homedHere g id && decide (v % 2 ^ 24 < n)
      | none => false)
  else decide (v < gRows d) && (fwd = 0 || (match s.rowOwner g d v with | some n => s.homes.contains n | none => false))

/-- Rows 1 to 5 of R303; else the bound definition. -/
def State.gthRefusal (s : State) (p : Packet) : Except (Status × Nat) (List Byte) :=
  let b := p.payload
  let h := gthHdr b
  let g := p.saggar
  let d? := if h.fwd = 0 then s.gdef g h.table else s.gdefGen g h.table h.gen
  match d? with
  | none => .error (.denied, 0)
  | some d =>
    let comp := match s.regionKnown g (gShard d 0) with | some r => r.comp | none => s.sagComp g
    if s.sagConf g || (if h.fwd = 2 then !(List.range 16).any (fun i => match gHot d i with | some x => s.homedHere g x.1 | none => false)
        else (s.ownShards g d).isEmpty) then .error (.denied, 0)
    else if s.compFenced comp then .error (.nackFenced, 0)
    else if s.epochCheck p = .stale then .error (.nackStaleEpoch, 0)
    else if s.epochCheck p = .notReady then .error (.nackRetry, 10)
    else if !h.rsvOk || h.dver ≠ 1 || h.pool = 3 || h.fwd = 3 || h.nRows = 0 || decide (16384 < h.nRows)
        || (h.fwd = 0 && !([0, 1, 2, 4, 7].contains h.outFmt)) || (h.fwd ≠ 0 && h.f = 0x8000)
        || !trainLenOk b (32 + (if h.pool = 2 then 8 else 4) * h.nRows)
        || !(gthEntries b h).all (fun e => s.gthEntryOk g d h.fwd e.1) then .error (.denied, 0)
    else if s.sagParam g 0x0306 ≤ countIf s.gth.reqs (fun r => r.call.saggar = g) then .error (.nackRetry, 12)
    else if s.gthUnits.isEmpty then .error (.nackRetry, 14)
    else .ok d

/-! ## Pooling (R304, R305) -/

/-- Terms of a row: elements with their MX scales, times the weight under `WEIGHTED_SUM`. -/
def rowTerms (d : List Byte) (pool weight : Nat) (row : List Byte) : List Num :=
  let fc := gFmt d
  let n := gElems d
  let sc := ceilDiv (n * elemBits fc) 8
  (List.range n).map (fun i =>
    let v := if isMx fc then decodeMx fc (elemAt fc row i) ((row.getD (sc + i / 32) 0).toNat) else decodeElem fc (elemAt fc row i)
    if pool = 2 then v.mul (dec32 weight) else v)

/-- Frames as stored in a request: side, width, s, and flag. -/
def packFrm (x : Frm) : Bool × Nat × Int × Nat × Bool := (true, x.w, x.s, x.side, x.ovf)
def unpackFrm (f : Int) (x : Bool × Nat × Int × Nat × Bool) : Frm := { w := x.2.1, f := f, s := x.2.2.1, side := x.2.2.2.1, ovf := x.2.2.2.2 }

/-- The sum so far; zero frames before any row. -/
def GthReq.frames (r : GthReq) : List Frm :=
  if r.acc.isEmpty then List.replicate (gElems r.def_) { w := widthOf (gthHdr r.call.payload).wSel, f := r.f }
  else r.acc.map (unpackFrm r.f)

/-- Add one row's terms. -/
def GthReq.addRow (r : GthReq) (weight : Nat) (row : List Byte) : GthReq :=
  { r with acc := (List.zipWith Frm.addTerm r.frames (rowTerms r.def_ (gthHdr r.call.payload).pool weight row)).map packFrm }

/-- Combine a partial frame. -/
def GthReq.addPartial (r : GthReq) (fs : List Frm) : GthReq := { r with acc := (List.zipWith Frm.combine r.frames fs).map packFrm }

/-- Read the row at a place and add it. -/
def readRow (r : GthReq) (weight : Nat) (reg : Region) (off : Nat) (ctr : Nat) (e : Nat × Nat) (s : State) : GthReq × State :=
  match readRegion reg none off (gRowBytes r.def_) s with
  | (.waits, s) => ({ r with left := r.left ++ [e] }, s)
  | (.retry _, s) => ({ r with left := r.left ++ [e] }, s)
  | (.poison, s) => ({ r with poison := true }, bumpCtr ctr 1 s)
  | (.data bs, s) => (r.addRow weight bs, bumpCtr ctr 1 s)

/-- A sub-request carrying entries (R304). -/
def subRequest (r : GthReq) (fwd node : Nat) (es : List (Nat × Nat)) : GthSub :=
  let h := gthHdr r.call.payload
  let pool := if h.pool = 1 then 0 else h.pool
  let h' : GthHdr := { table := h.table, pool := pool, fwd := fwd, wSel := h.wSel, f := unsignedW 16 r.f, nRows := es.length, gen := gGen r.def_, maxexp := h.maxexp }
  let body := pad8 (h'.bytes ++ es.flatMap (fun e => natLe e.1 4) ++ (if pool = 2 then es.flatMap (fun e => natLe e.2 4) else []))
  { pkt := { dst := node, opcode := opGATHER, saggar := r.call.saggar, cls := 1, length := body.length, payload := body } }

/-- Group entries by a key, in order of first appearance. -/
def groupBy (key : Nat × Nat → Nat) (es : List (Nat × Nat)) : List (Nat × List (Nat × Nat)) :=
  ((es.map key).eraseDups).map (fun k => (k, es.filter (fun e => key e = k)))

/-- Serve the entries this chip resolves itself: rows in its shards, its hot slots, and one `FWD` 2
sub-request per node that holds moved rows. -/
def resolveRows (r : GthReq) (es : List (Nat × Nat)) (s : State) : GthReq × State :=
  let d := r.def_
  let g := r.call.saggar
  let ctr := gthSkew g (gTable d)
  let fwd := (gthHdr r.call.payload).fwd
  if fwd = 2 then
    es.foldl (fun (st : GthReq × State) e =>
      match gHot d (bits e.1 24 4) with
      | some (id, _) => match st.2.regionKnown g id with
        | some reg => readRow st.1 e.2 reg (e.1 % 2 ^ 24 * gRowBytes d) (ctr + 8) e st.2
        | none => ({ st.1 with failed := some Status.denied.code }, st.2)
      | none => ({ st.1 with failed := some Status.denied.code }, st.2)) (r, s)
  else
    let moved := fun (e : Nat × Nat) => match (s.gEntry g d e.1).moved with
      | some (n, _, _) => if s.homes.contains n then none else some n
      | none => none
    let out := groupBy (fun e => (moved e).getD 0) (es.filter (fun e => (moved e).isSome))
    let slotOf := fun (e : Nat × Nat) => match (s.gEntry g d e.1).moved with | some (_, i, sl) => (sl + i * 2 ^ 24, e.2) | none => e
    let subs := out.map (fun x => subRequest r 2 x.1 (x.2.map slotOf))
    let s := bumpCtr (ctr + 16) (countIf es (fun e => (moved e).isSome)) s
    (es.filter (fun e => (moved e).isNone)).foldl (fun (st : GthReq × State) e =>
      match st.2.rowPlace g d e.1 with
      | some (reg, off) => readRow st.1 e.2 reg off (if (st.2.gEntry g d e.1).moved.isSome then ctr + 8 else ctr) e st.2
      | none => ({ st.1 with failed := some Status.denied.code }, st.2)) ({ r with subs := r.subs ++ subs }, s)

/-- Send the sub-requests that wait. -/
def pumpSubs (r : GthReq) (s : State) : GthReq × State :=
  match r.engine with
  | none => (r, s)
  | some e =>
    let x := r.subs.foldl (fun (st : List GthSub × State) m =>
      if m.tag.isSome || !st.2.maySend (.gather e) m.pkt.dst m.pkt.saggar then (st.1 ++ [m], st.2)
      else (st.1 ++ [{ m with tag := some st.2.nextTag }], issue (.gather e) m.pkt st.2)) ([], s)
    ({ r with subs := x.1 }, x.2)

/-- Start a request from its beginning: split the entries by default owner (R304). -/
def startGather (r : GthReq) (s : State) : GthReq × State :=
  let h := gthHdr r.call.payload
  let g := r.call.saggar
  let es := gthEntries r.call.payload h
  let r := { r with left := [], acc := [], subs := [], poison := false, failed := none }
  let mine := fun (e : Nat × Nat) => h.fwd ≠ 0 || (match s.rowOwner g r.def_ e.1 with | some n => s.homes.contains n | none => true)
  let far := groupBy (fun e => (s.rowOwner g r.def_ e.1).getD 0) (es.filter (fun e => !mine e))
  match resolveRows { r with subs := far.map (fun x => subRequest r 1 x.1 x.2) } (es.filter mine) s with
  | (r, s) => pumpSubs r s

def putGth (r : GthReq) (s : State) : State := setGth (fun q => { q with reqs := q.reqs.map (fun x => if x.id = r.id then r else x) }) s

/-- The frame exponent of a pooling request (R304). -/
def gthFrameExp (d : List Byte) (h : GthHdr) : Int :=
  if h.f = 0x8000 then
    autoF (if h.pool = 2 then gMaxexp d + h.maxexp + 2 else gMaxexp d + 1) (widthOf h.wSel)
  else signedW 16 h.f

/-- The `KEY` of a pooling request's frame entry: unit code, pooling, W, weights' MAXEXP and table (DESIGN CHOICE,
log 150). -/
def gthKey (h : GthHdr) : Nat := 0x30 + h.pool * 2 ^ 8 + h.wSel * 2 ^ 12 + unsignedW 16 h.maxexp * 2 ^ 16 + h.table * 2 ^ 32

/-- The frame exponent a request is bound to: a derived one is forced by a supplied entry in replay, and enters
the step's record (R51). -/
def gthFrame (d : List Byte) (p : Packet) (s : State) : Int × State :=
  let h := gthHdr p.payload
  if h.f ≠ 0x8000 then (gthFrameExp d h, s) else
  let step := (aget s.sit p.saggar {}).curStep
  let f := (s.forcedF p.saggar step 0 0xFFF 3 (gthKey h)).getD (gthFrameExp d h)
  (f, noteFrame p.saggar step (frameEntry 0 0xFFF 3 h.wSel f (gthKey h)) s)

/-- `GATHER_POOL` (R303): checked, bound, split and started. -/
def gatherPool (p : Packet) (s : State) : State :=
  let s := take p s
  match s.gthRefusal p with
  | .error (st, h) => reply p st h [] (bumpSat (satGthRefused (s.gthPick.getD 0)) s)
  | .ok d =>
    match gthFrame d p s with
    | (f, s) =>
    let r : GthReq := { id := s.gth.nextReq, call := p, engine := s.gthPick, def_ := d, f := f }
    let s := setGth (fun q => { q with nextReq := q.nextReq + 1, reqs := q.reqs ++ [r] }) s
    match startGather r s with
    | (r, s) => putGth r s

/-- The meaning of `GATHER_POOL`. -/
def execGatherPool (p : Packet) (s : State) : Host.Outcome State Fault Refusal :=
  run (p.wf) (reassemble p gatherPool s)

/-- The reply of a finished request (R305, R306): a partial frame to a sub-request, the finished vector to
the requester. -/
def gthReply (r : GthReq) (s : State) : State :=
  let h := gthHdr r.call.payload
  let head := fun (n : Nat) => natLe h.nRows 4 ++ natLe (unsignedW 16 r.f) 2 ++ natLe (min n 65535) 2 ++ zeros 8
  match r.failed with
  | some c => reply r.call (failStatus c) 0 [] s
  | none =>
    if r.poison then
      let s := match r.engine with | some e => bumpSat (satGthPoison e) s | none => s
      reply r.call .poison 0 (if h.fwd = 0 then head 0 else []) s
    else if h.fwd ≠ 0 then
      let ep := perPacket 15 h.wSel
      reply r.call .ok 0 (pad8 ((cutEvery ep r.frames).flatMap (frameBytes (widthOf h.wSel) ep))) s
    else
      let es := r.frames.map (fun x => ((if h.pool = 1 then x.mean h.nRows h.outFmt else encodeElem h.outFmt x.value), x.ovf))
      let n := countIf es (·.2)
      reply r.call (if n = 0 then .ok else .overflow) 0 (pad8 (head n ++ packElems h.outFmt (es.map (·.1.1)))) s

/-- A request ends once every row is read and every sub-request answered; rows that waited for the flash
are tried again (R210 rule 4). -/
def gatherDone (id : Nat) (s : State) : State :=
  match s.gth.reqs.find? (fun r => r.id = id && r.engine.isSome) with
  | none => s
  | some r =>
    let left := r.left
    match resolveRows { r with left := [] } left s with
    | (r, s) => match pumpSubs r s with
      | (r, s) =>
        if !r.left.isEmpty ∨ !r.subs.isEmpty then putGth r s
        else gthReply r (setGth (fun q => { q with reqs := q.reqs.filter (fun x => x.id ≠ id) }) s)

/-- The meaning of `GATHER_POOL_DONE`. -/
def execGatherPoolDone (id : Nat) (s : State) : Host.Outcome State Fault Refusal :=
  run (decide (id < 2 ^ 32)) (gatherDone id s)

/-! ## Migration (R309) -/

/-- Slots of a hot region in use by this owner: of entries, of migrations under way, and old slots with
forwards still out. -/
def State.slotsUsed (s : State) (g : Nat) (d : List Byte) (i : Nat) : List Nat :=
  let base := match gHot d i with
    | some (id, _) => match s.regionKnown g id with | some r => some (r.home, r.base) | none => none
    | none => none
  let ofEntries := s.gth.dir.filterMap (fun e => match e.2.moved with
    | some (_, j, sl) => if e.1.1 = g ∧ e.1.2.1 = gTable d ∧ j = i then some sl else none
    | none => none)
  let ofMoves := s.gth.moves.filterMap (fun m => match m.dest with
    | some (_, j, sl) => if m.saggar = g ∧ m.table = gTable d ∧ j = i then some sl else none
    | none => none)
  let ofFwds := s.gth.fwds.flatMap (fun f => f.parts.filterMap (fun x => match base with
    | some (n, b) => if x.code = none ∧ x.node = n ∧ b ≤ x.off then some ((x.off - b) / max 1 (gRowBytes d)) else none
    | none => none))
  let ofSubs := s.gth.reqs.flatMap (fun r => r.subs.flatMap (fun m =>
    let h := gthHdr m.pkt.payload
    if r.call.saggar = g ∧ h.table = gTable d ∧ h.fwd = 2 then
      (gthEntries m.pkt.payload h).filterMap (fun e => if bits e.1 24 4 = i then some (e.1 % 2 ^ 24) else none) else []))
  ofEntries ++ ofMoves ++ ofFwds ++ ofSubs

/-- The lowest free slot of a hot region. -/
def State.freeSlot (s : State) (g : Nat) (d : List Byte) (i : Nat) : Option Nat :=
  match gHot d i with
  | none => none
  | some (_, n) => let used := s.slotsUsed g d i; (List.range (min n (used.length + 1))).find? (fun k => !used.contains k)

/-- The fabric address of a place. -/
def placeAddr (r : Region) (off : Nat) : Nat := r.home * 2 ^ 48 + r.base + off

/-- `GATHER_MIGRATE`: the row is frozen and its copy starts. -/
def gatherMigrate (p : Packet) (s : State) : State :=
  let a := le (callArgs p) 0 8
  let g := p.saggar
  let hot := bits a 8 8
  let row := bits a 32 32
  match s.gdef g (bits a 0 6) with
  | none => reply p .denied 0 [] s
  | some d =>
    let own := match s.rowOwner g d row with | some n => s.homes.contains n | none => false
    let key := (g, gTable d, gGen d, row)
    let e := s.gEntry g d row
    let at_ := match e.moved with | some (_, i, _) => i | none => 0xFF
    if (callArgs p).length < 8 ∨ gRows d ≤ row ∨ !own ∨ (hot ≠ 0xFF ∧ gHot d hot = none) ∨ at_ = hot then reply p .denied 0 [] s
    else if s.gthUnits.isEmpty ∨ e.frozen ∨ (!ahas s.gth.dir key ∧ s.nodeParam 0x0205 ≤ s.gDirSize) then reply p .nackRetry 14 [] s
    else
      let dest := if hot = 0xFF then (s.regionKnown g (gShard d (row % gShards d))).map (fun r => (none, placeAddr r (rowOffset d row)))
        else match s.freeSlot g d hot, gHot d hot with
          | some sl, some (id, _) => (s.regionKnown g id).map (fun r => (some (r.home, hot, sl), placeAddr r (sl * gRowBytes d)))
          | _, _ => none
      match dest, s.rowPlace g d row with
      | some (dst, addr), some (r, off) =>
        let q : Requester := .gather s.fwdEngine
        match pumpAll q (xferRead (placeAddr r off) (gRowBytes d) g 5) s with
        | (rd, s) => setGth (fun x => { x with
            dir := aset x.dir key { e with frozen := true }
            moves := x.moves ++ [{ call := p, saggar := g, table := gTable d, gen := gGen d, row := row, dest := dst, dstAddr := addr, rd := rd }] }) s
      | _, _ => reply p .nackRetry 14 [] s

/-- The meaning of `GATHER_MIGRATE`. -/
def execGatherMigrate (p : Packet) (s : State) : Host.Outcome State Fault Refusal :=
  run (p.wf) (serveProc p 0xFFB (gatherMigrate p) s)

/-- Poison the grains that lie wholly in a row's default slot. -/
def poisonSlot (g : Nat) (d : List Byte) (row : Nat) (s : State) : State :=
  match s.regionKnown g (gShard d (row % gShards d)) with
  | none => s
  | some r =>
    let off := rowOffset d row
    forEach ((pieces off (gRowBytes d)).filter (fun pc => pc.2.2 = 256)) (fun pc s =>
      match frameForWrite (s.region r.id) (pc.1 / 256) s with
      | (some id, s) => poisonGrain id (pc.1 % 256) s
      | (none, s) => s) s

/-- The end of a migration: the flip and the unfreezing, or the return to the prior state with `POISON`. -/
def migrationDone (g t row : Nat) (checkOk : Bool) (s : State) : State :=
  match s.gth.moves.find? (fun m => m.saggar = g && m.table = t && m.row = row) with
  | none => s
  | some m =>
    let key := (g, t, m.gen, row)
    let e := aget s.gth.dir key {}
    let fail := m.rd.failed.or (m.wr.bind (·.failed))
    let whole := match m.wr with | some w => w.ended | none => false
    let drop := fun (s : State) => setGth (fun x => { x with moves := x.moves.erase m }) s
    let back := fun (s : State) => setGth (fun x => { x with dir := if e.moved = none then aerase x.dir key else aset x.dir key { e with frozen := false } }) s
    if !checkOk ∨ fail = some Status.poison.code then reply m.call .poison 0 [] (drop (back s))
    else match fail with
      | some c => reply m.call (failStatus c) 0 [] (drop (back s))
      | none =>
        if !whole then s else
        let s := drop s
        let s := setGth (fun x => { x with dir := match m.dest with
          | none => aerase x.dir key
          | some d => aset x.dir key { moved := some d } }) s
        let s := match s.gdefGen g t m.gen with
          | some d => when_ (e.moved = none && m.dest.isSome) (poisonSlot g d row) s
          | none => s
        let w := match m.dest with
          | some (n, i, sl) => sl + i * 2 ^ 24 + n * 2 ^ 32
          | none => 0xF * 2 ^ 24 + addrNode m.dstAddr * 2 ^ 32
        reply m.call .ok 0 (rptResult 0 (natLe w 8)) s

/-- The meaning of `MIGRATION_COPY_DONE`. -/
def execMigrationCopyDone (g t row : Nat) (checkOk : Bool) (s : State) : Host.Outcome State Fault Refusal :=
  run (decide (g < 64) && decide (t < 64) && decide (row < 2 ^ 48)) (migrationDone g t row checkOk s)

/-! ## Answers to Gather's packets -/

/-- The frames of a sub-request's answer. -/
def partialFrames (h : GthHdr) (f : Int) (n : Nat) (b : List Byte) : List Frm :=
  let ep := perPacket 15 h.wSel
  let w := widthOf h.wSel
  let grp := ep * (w / 8) + ep / 2
  let last := n - n / ep * ep
  (List.range (ceilDiv n ep)).flatMap (fun i =>
    let k := if i < n / ep then ep else last
    let at_ := i * grp
    (List.range k).map (fun j =>
      let nib := bits ((b.getD (at_ + k * (w / 8) + j / 2) 0).toNat) (4 * (j % 2)) 4
      { w := w, f := f, s := signedW w (le b (at_ + j * (w / 8)) (w / 8)), side := nib % 4, ovf := bit nib 2 }))

/-- An answer to a sub-request. -/
def subAnswer (r : GthReq) (tag code : Nat) (data : List Byte) : GthReq :=
  match r.subs.find? (fun m => m.tag = some tag) with
  | none => r
  | some _ =>
    let r := { r with subs := r.subs.filter (fun x => x.tag ≠ some tag) }
    if code = 0 then r.addPartial (partialFrames (gthHdr r.call.payload) r.f (gElems r.def_) data)
    else if code = Status.poison.code then { r with poison := true }
    else { r with failed := some (r.failed.getD code) }

/-- An answer to a part of a forward; the last one is passed back to the source. -/
def fwdAnswer (f : GthFwd) (tag code hint : Nat) (data : List Byte) (s : State) : State :=
  let f' : GthFwd := { f with parts := f.parts.map (fun (x : GthPart) => if x.tag = tag then { x with code := some code, hint := hint, data := data } else x) }
  if f'.parts.any (fun x => x.code = none) then setGth (fun q => { q with fwds := q.fwds.map (fun x => if x = f then f' else x) }) s
  else
    let s := setGth (fun q => { q with fwds := q.fwds.erase f }) s
    let bad := f'.parts.find? (fun x => !(x.code = some 0 || x.code = some 1))
    let all := f'.parts.flatMap (fun x => x.data)
    let st : Status := match bad with | some x => (Status.ofCode (x.code.getD 7)).getD .nackUnknown | none => .ok
    let h := match bad with | some x => x.hint | none => 0
    if f.orig.opcode = opREAD then (if st = .ok then answerRead f.orig all s else reply f.orig st h [] s)
    else if isAtomic f.orig.opcode ∧ st ≠ .nackRetry then
      reply f.orig st h all (enterOutcome f.orig st (leNat (all.take 8)) s)
    else reply f.orig st h all s

/-- The steps of a migration's copy as its answers come: the row read, then written. -/
def moveAnswer (e : Nat) (m : GthMove) (tag code : Nat) (data : List Byte) (s : State) : GthMove × State :=
  let m : GthMove := { m with rd := m.rd.answer tag code data, wr := m.wr.map (fun (w : Xfer) => w.answer tag code data) }
  match m.wr with
  | some w => match pumpAll (.gather e) w s with | (w, s) => ({ m with wr := some w }, s)
  | none =>
    if m.rd.ended then
      if m.rd.failed.isSome then (m, s)
      else match pumpAll (.gather e) (xferWrite m.dstAddr m.rd.data m.saggar 5) s with | (w, s) => ({ m with wr := some w }, s)
    else match pumpAll (.gather e) m.rd s with | (rd, s) => ({ m with rd := rd }, s)

/-- An answer to a packet of Gather engine `e`. -/
def gatherAnswer (e tag code hint : Nat) (data : List Byte) (s : State) : State :=
  match s.gth.fwds.find? (fun f => f.parts.any (fun x => x.tag = tag && x.code = none)) with
  | some f => fwdAnswer f tag code hint data s
  | none =>
    match s.gth.moves.find? (fun m => m.rd.has tag || (match m.wr with | some w => w.has tag | none => false)) with
    | some m => match moveAnswer e m tag code data s with
      | (m', s) => setGth (fun q => { q with moves := q.moves.map (fun x => if x = m then m' else x) }) s
    | none =>
      match s.gth.reqs.find? (fun r => r.subs.any (fun x => x.tag = some tag)) with
      | none => s
      | some r => match pumpSubs (subAnswer r tag code data) s with | (r, s) => putGth r s

/-! ## Fences (R325) -/

/-- Give requests without an engine to one, from their beginning. -/
def rehomeGather (s : State) : State :=
  forEach (s.gth.reqs.filter (fun r => r.engine.isNone)) (fun r s =>
    match s.gthPick with
    | none => s
    | some e => match startGather { r with engine := some e } (putGth { r with engine := some e } s) with
      | (r, s) => putGth r s) s

/-- Fence an engine: its requests restart on another one. -/
def fenceGather (e cause : Nat) (s : State) : State :=
  let mine := s.gth.reqs.filter (fun r => r.engine = some e)
  let tags := mine.flatMap (fun r => r.subs.filterMap (·.tag))
  let s := { s with fab := { s.fab with outst := s.fab.outst.filter (fun q => !(q.req = .gather e && tags.contains q.ref)) } }
  rehomeGather (setGth (fun q => { q with
    unit := aset q.unit e { on := true, cause := cause }
    reqs := q.reqs.map (fun r => if r.engine = some e then { r with engine := none } else r) }) s)

def gthCtrl (e : Nat) : Nat := gthPage e + 8

/-- The meaning of `GTH_FENCE`. -/
def execGthFence (who : Who) (e : Nat) (s : State) : Host.Outcome State Fault Refusal :=
  run (who.wf && decide (e < 8)) (ctlWrite who (gthCtrl e) true (fenceGather e (fenceCauseOf who)) s)

/-- The meaning of `GTH_UNFENCE`. -/
def execGthUnfence (who : Who) (e : Nat) (s : State) : Host.Outcome State Fault Refusal :=
  run (who.wf && decide (e < 8)) (ctlWrite who (gthCtrl e) (liftsFence who)
    (fun s => rehomeGather (setGth (fun q => { q with unit := aset q.unit e {} }) s)) s)

end Sys2Proof.Machine
end

