-- ==== Sys2Proof/Machine/LinkTx.lean ====
section
/-! DEFINITION. The sending half of a fabric or edge link (chapter 15): credits, the retry buffer and the
frames a packet travels in. -/

namespace Sys2Proof.Machine

def State.port (s : State) (p : Nat) : Port := aget s.prt p {}
def modPort (p : Nat) (f : Port → Port) (s : State) : State := { s with prt := amod s.prt p {} f }

/-- The port record in force (R464). -/
def State.portRec (s : State) (p : Nat) : List Byte := Machine.portRec (s.nodeBody tyPORTS) p
/-- `PRT_STATE.ROLE`: 0 `OFF`, 1 `FABRIC`, 2 `EDGE_V`, 3 `EDGE_C`. -/
def State.portRole (s : State) (p : Nat) : Nat := Machine.portRole (s.portRec p)

/-- Bytes of a packet: header, payload, trailer padded to 8 bytes (R389, R344). -/
def packetBytes (p : Packet) : Nat := 32 + p.payload.length + ceilDiv (4 * p.trailer.length) 8 * 8
/-- Buffer cells of a packet (R389). -/
def packetCells (p : Packet) : Nat := ceilDiv (packetBytes p) 256

/-- The credit selector of a class and virtual channel (R417). -/
def crSel (cls : Nat) (vc : Bool) : Nat := cls + 8 * b2n vc

/-- Credits a sender holds: received total less cells consumed, modulo 4,096 (R420). -/
def Port.credits (x : Port) (sel : Nat) : Nat := (aget x.crTot sel 0 + 4096 - aget x.crUsed sel 0 % 4096) % 4096

/-- Bytes in the retry buffer: header, body and check of each frame (R422). -/
def Port.retryBytes (x : Port) : Nat := x.retry.foldl (fun n f => n + 36 + 8 * f.1.body) 0

/-- Whether the retry buffer has room for a packet's frames (R422). -/
def Port.retryRoom (x : Port) (p : Packet) : Bool :=
  decide (x.retry.length + ceilDiv (packetBytes p) 512 ≤ 2048) && decide (x.retryBytes + packetBytes p + 36 * ceilDiv (packetBytes p) 512 ≤ 2 ^ 20)

/-- A link that carries packets: `UP`, or for an `EDGE_C` port its CXL link; and not fenced (R395). -/
def State.usable (s : State) (p : Nat) : Bool :=
  decide (p < 64) && !(s.port p).fence.on && (if s.portRole p = 3 then (s.port p).cxlUp else (s.port p).lst = 4)

/-- Whether a port can start a packet: link, credit for the whole packet, retry room (R420, R422). -/
def State.canStart (s : State) (port : Nat) (p : Packet) : Bool :=
  s.usable port && (s.portRole port = 3 ||
    ((p.cls = 6 || decide (packetCells p ≤ (s.port port).credits (crSel p.cls p.vc))) && (s.port port).retryRoom p))

/-- The digest prefix of this chip: bytes 0 to 7 of the digest in force (R417). -/
def State.digestPrefix (s : State) : Nat := le s.img.dig 0 8

/-- Credit selectors whose totals changed since they were last sent, in rotation (R421). -/
def Port.changed (x : Port) : List Nat :=
  let all := (List.range 16).filter (fun k => aget x.crRet k 0 ≠ aget x.crSent k 0)
  all.filter (fun k => decide (x.crRot < k)) ++ all.filter (fun k => decide (k ≤ x.crRot))

/-- Fill the fields every frame carries: acknowledgement, two credit totals, clock, digest prefix
(R417, R421); sending restarts the idle time (R418). -/
def sendFrame (port : Nat) (f : LinkFrame) (p : Option Packet) (s : State) : State :=
  let x := s.port port
  let c := x.changed
  let s0 := c.getD 0 0
  let s1 := c.getD 1 s0
  let f := { f with ack := x.ackSeq, ackV := x.ackV, srcNode := s.fab.node, lc := s.arch.lc, digest := s.digestPrefix,
                    crSel0 := s0, crTot0 := aget x.crRet s0 0, crSel1 := s1, crTot1 := aget x.crRet s1 0 }
  emit (.frame port f p) (modPort port (fun x => { x with
    crSent := aset (aset x.crSent s0 (aget x.crRet s0 0)) s1 (aget x.crRet s1 0)
    crRot := if c.isEmpty then x.crRot else s1
    idle := some (s.now + sclk 512) }) s)

/-- The `DATA` frames of a packet from a first `FSEQ` (R418). -/
def framesOf (p : Packet) (seq : Nat) : List LinkFrame :=
  let n := ceilDiv (packetBytes p) 512
  (List.range n).map (fun i => { ftype := 1, fseq := (seq + i) % 4096, cls := p.cls, vc := p.vc, sop := i = 0, eop := i + 1 = n,
                                 body := min 512 (packetBytes p - 512 * i) / 8 })

/-- Send a packet over a link: its frames take the next `FSEQ`s, are kept for retry, and consume
credits (R418, R420, R422). -/
def txPacket (port : Nat) (p : Packet) (s : State) : State :=
  let fs := framesOf p (s.port port).txSeq
  let s := modPort port (fun x => { x with
    txSeq := (x.txSeq + fs.length) % 4096
    retry := x.retry ++ fs.map (fun f => (f, p))
    crUsed := if p.cls = 6 then x.crUsed else amod x.crUsed (crSel p.cls p.vc) 0 (fun n => (n + packetCells p) % 4096) }) s
  forEach fs (fun f s => sendFrame port f (some p) s) s

/-- Send an `IDLE` frame (R418). -/
def txIdle (port : Nat) (s : State) : State := sendFrame port { ftype := 2, sop := false, eop := false } none s

/-- Whether some credit total has run 32 cells ahead of its last sent value (R421). -/
def Port.creditUrgent (x : Port) : Bool :=
  (List.range 16).any (fun k => decide (32 ≤ (aget x.crRet k 0 + 4096 - aget x.crSent k 0 % 4096) % 4096))

/-- Return credits of a class and virtual channel to the far end (R420, R421); an endpoint at its limit
of outstanding requests has them withheld (R358). -/
def returnCredit (port cls : Nat) (vc : Bool) (cells : Nat) (s : State) : State :=
  if 64 ≤ port ∨ cls = 6 ∨ s.portRole port = 3 then s
  else if s.portRole port = 2 ∧ 1024 ≤ (s.port port).edgeOutst.length then
    modPort port (fun x => { x with withheld := amod x.withheld (crSel cls vc) 0 (· + cells) }) s
  else
    let s := modPort port (fun x => { x with crRet := amod x.crRet (crSel cls vc) 0 (fun n => (n + cells) % 4096) }) s
    if (s.port port).creditUrgent && (s.port port).lst = 4 then txIdle port s else s

/-- Give back the credits withheld from an endpoint that is below its limit again. -/
def releaseWithheld (port : Nat) (s : State) : State :=
  if (s.port port).edgeOutst.length < 1024 ∧ (s.port port).withheld ≠ [] then
    let w := (s.port port).withheld
    forEach w (fun e s => returnCredit port (e.1 % 8) (decide (8 ≤ e.1)) e.2 s) (modPort port (fun x => { x with withheld := [] }) s)
  else s

end Sys2Proof.Machine
end

