-- ==== Sys2Proof/Machine/Switch.lean ====
section
/-! DEFINITION. The switch core (chapter 14): buffer accounting, routes, policers, congestion marks,
sampling, merging in egress queues (R362, R363), the egress scheduler, shapers, ageing and the buffer
auditor. -/

namespace Sys2Proof.Machine

/-! ## Registers -/

def State.pqCtrl (s : State) (p c : Nat) : Nat := (aget s.swc.pq (8 * p + c) 0).toNat
/-- `CLASS_Q` in bytes, `ADAPT`, `DETOUR_TH` in bytes, `RED_SET`, `SMP_EXP`. -/
def State.classQ (s : State) (p c : Nat) : Nat := 64 * bits (s.pqCtrl p c) 22 10
def State.adapt (s : State) (p c : Nat) : Bool := bit (s.pqCtrl p c) 21 && !(c = 0 || c = 2 || c = 7)
def State.detourTh (s : State) (p c : Nat) : Nat := 1024 * bits (s.pqCtrl p c) 9 12
def State.redSetNo (s : State) (p c : Nat) : Nat := bits (s.pqCtrl p c) 5 4
def State.smpExp (s : State) (p c : Nat) : Nat := bits (s.pqCtrl p c) 0 5
def State.swcPort (s : State) (p : Nat) : Nat := (aget s.swc.port p 0).toNat
def State.dimOf (s : State) (p : Nat) : Nat := if 64 ≤ p then 3 else bits (s.swcPort p) 0 2
def State.dateline (s : State) (p : Nat) : Bool := bit (s.swcPort p) 2
def State.dweah (s : State) (p : Nat) : Bool := bit (s.swcPort p) 3
/-- `Q` and `BURST_D` of a saggar in bytes; unset `Q` is 0x010 (R400, R402). -/
def State.sagQ (s : State) (g : Nat) : Nat := 64 * bits (aget s.swc.sagQ g 0x10).toNat 0 11
def State.burstD (s : State) (g : Nat) : Nat := 64 * bits (aget s.swc.sagQ g 0x10).toNat 16 16

/-! ## Buffer (R389 to R391) -/

/-- Cells of the shared pool lent to an image transfer before T3 is in service (R586): 32 MiB. -/
def State.lentCells (s : State) : Nat :=
  if s.jsl.bulks.any (fun b => b.2.inBuf) && !s.pkg.stepsDone.contains 7 then 32 * 4096 else 0

/-- `SWC_BUF.CELLS_FREE`. -/
def State.cellsFree (s : State) : Nat :=
  786432 - s.held.foldl (fun n b => n + packetCells b.pkt) 0 - s.swc.leaked.length - s.lentCells

/-- The quota of a saggar in cells: 1 MiB granules (R390). -/
def State.quotaCells (s : State) (g : Nat) : Nat := 4096 * aget s.swc.quota g 0

/-- Cells a saggar is charged in the shared pool. -/
def State.usedCells (s : State) (g : Nat) : Nat := aget s.swc.used g 0

/-- Cells of the 164 MiB shared pool charged to no saggar and not lent (R390, R586). -/
def State.poolFree (s : State) : Nat := 164 * 4096 - s.swc.used.foldl (fun n p => n + p.2) 0 - s.lentCells

def charge (g n : Nat) (s : State) : State := { s with swc := { s.swc with used := amod s.swc.used g 0 (· + n) } }
def uncharge (g n : Nat) (s : State) : State := { s with swc := { s.swc with used := amod s.swc.used g 0 (· - n) } }

/-- Bytes queued at a port in a class. -/
def State.depth (s : State) (port cls : Nat) : Nat :=
  (s.swc.queues.filter (fun q => q.1.1 = port ∧ q.1.2.1 = cls)).foldl
    (fun n q => q.2.pkts.foldl (fun n b => n + packetBytes b.pkt) n) 0

/-- TC6 cells held for a port (R391). -/
def State.tc6Cells (s : State) (port : Nat) : Nat :=
  (s.swc.queues.filter (fun q => q.1.1 = port ∧ q.1.2.1 = 6)).foldl
    (fun n q => q.2.pkts.foldl (fun n b => n + packetCells b.pkt) n) 0

/-! ## Packets of the previous epoch (R477, R478) -/

/-- The configuration whose tables route a packet (R477): the previous one for a request of the
previous, undrained epoch, the current one otherwise. -/
def State.tablesFor (s : State) (p : Packet) : Image :=
  if s.isPrev p && !(p.cls = 0 || p.cls = 2 || p.cls = 7) then s.img.prev else s.img.cur

/-! ## Routes (R394, R395) -/

/-- A message of this chip's own movers: for a node it serves as an alias it still goes to that node (R543). -/
def State.handsBack (s : State) (p : Packet) : Bool := p.opcode = opWRITE && p.cls = 5 && p.offset = xferPort && p.src = s.fab.node

/-- The node whose route entry a packet follows: a fenced Plofen's traffic goes to its replica partner, where
the configuration here names it (R537). -/
def State.routedNode (s : State) (p : Packet) : Nat :=
  if s.img.fences.contains p.dst && !s.isPrev p && !s.handsBack p then
    match (s.img.cur.find tyNODEPARAMS p.dst 0 0).bind (·.body) with
    | some b => paramIn b 0x0215
    | none => p.dst
  else p.dst

/-- A packet for an endpoint that its edge Plofen takes as its own: the Pug procedures, contributions and
`COLL_ARM` (R273). -/
def State.edgeTakes (s : State) (p : Packet) : Bool :=
  decide (s.edgeOf p.dst = some s.fab.node) &&
    (p.opcode = opCONTRIB || p.opcode = opARM
      || (p.opcode = opRPT && decide (0xFF8 ≤ le p.payload 0 2 ∧ le p.payload 0 2 ≤ 0xFFA)))

/-- The egress of a packet: a port below 64, or 0x40 for this chip, and whether it sets `DETOUR`; none
where no port is usable. -/
def State.route (s : State) (p : Packet) : Option (Nat × Bool) :=
  let e := routeEntry ((s.tablesFor p).bodyOf tyROUTES s.fab.node 0 0) (s.routedNode p)
  let us := fun c => c = 0x40 || s.usable c
  let pp := bits e 0 7
  let pa := bits e 7 7
  let dp := bits e 14 7
  let da := bits e 21 7
  if p.dst = s.fab.node ∨ (s.homes.contains p.dst && !s.handsBack p) = true ∨ s.edgeTakes p = true then some (0x40, false)
  else if !p.detour then
    let (a, b) := if bit e 28 && bit p.offset 8 then (pa, pp) else (pp, pa)
    if us a then
      if decide (a < 64) && s.adapt a p.cls && decide (s.detourTh a p.cls ≤ s.depth a p.cls) && us dp
          && decide (s.depth dp p.cls < s.detourTh a p.cls / 2) then some (dp, true)
      else some (a, false)
    else if us b then some (b, false)
    else if us dp then some (dp, true)
    else if us da then some (da, true)
    else none
  else if us dp then some (dp, false)
  else if us da then some (da, false)
  else none

/-- The virtual channel of a packet on its next link (R397). -/
def State.nextVc (s : State) (ingress egress : Nat) (vc : Bool) : Bool :=
  let v := if 64 ≤ ingress ∨ s.dimOf ingress = 3 ∨ s.dimOf egress ≠ s.dimOf ingress then false else vc
  v || s.dateline egress

/-! ## Policers and RED (R406, R407) -/

def State.polRec (s : State) (port cls : Nat) : List Byte := qosRec (s.nodeBody tyQOS) port cls
def polOn (r : List Byte) : Bool := bit (le r 28 1) 0

/-- The colour of an arriving packet and the tokens it takes (R406). -/
def police (ingress : Nat) (p : Packet) (s : State) : Colour × State :=
  if 64 ≤ ingress then (.green, s) else
  let r := s.polRec ingress p.cls
  if !polOn r then (.green, s) else
  let k := 8 * ingress + p.cls
  let b := packetBytes p
  let (tc, tp) := aget s.swc.policer k (0, 0)
  if tp < b then (.red, s)
  else if tc < b then (.yellow, { s with swc := { s.swc with policer := aset s.swc.policer k (tc, tp - b) } })
  else (.green, { s with swc := { s.swc with policer := aset s.swc.policer k (tc - b, tp - b) } })

def colourNo : Colour → Nat
  | .green => 0 | .yellow => 1 | .red => 2

/-- The average depth after an enqueue of `q` queued bytes (R407). -/
def redAvg (avg q w : Nat) : Nat := (((avg : Int) + ((q : Int) - (avg : Int)) / (2 ^ w : Int))).toNat

/-- Whether a draw below 65,536 selects the packet: the draw is below p × 65,536 (R407). -/
def redSelects (avg minTh maxTh maxP draw : Nat) : Bool :=
  if avg < minTh then false
  else if maxTh ≤ avg then true
  else decide (draw * (maxTh - minTh) < maxP * 256 * (avg - minTh))

/-- RED at an enqueue: the new average and whether the packet is selected. TC0, TC2 and TC7 never are. -/
def red (port : Nat) (p : Packet) (c : Colour) (s : State) : Bool × State :=
  let k := 8 * port + p.cls
  let r := redSet (s.nodeBody tyQOS) (s.redSetNo port p.cls) (colourNo c)
  let w := if r.isEmpty then 9 else le r 9 1
  let avg := redAvg (aget s.swc.red k 0) (s.depth port p.cls) w
  let s := { s with swc := { s.swc with red := aset s.swc.red k avg } }
  if p.cls = 0 ∨ p.cls = 2 ∨ p.cls = 7 ∨ r.isEmpty then (false, s) else
  let (d, s) := drawFree s
  (redSelects avg (1024 * le r 0 4) (1024 * le r 4 4) (le r 8 1) (d % 65536), s)

/-! ## Sampling (R408, R481) -/

/-- Bytes the mirror buffer holds: samples, and the log entries that wait for export to a session. -/
def State.mirrorBytes (s : State) : Nat :=
  s.swc.mirror.foldl (fun n r => n + r.length) 0 + 64 * s.jsl.sessions.foldl (fun n x => n + x.2.events.length) 0

/-- The bytes of a packet as it travels: header, payload, trailer. -/
def packetImage (p : Packet) : List Byte :=
  head28 p ++ natLe p.hchk.toNat 4 ++ p.payload ++ pad8 (p.trailer.flatMap (fun w => natLe w.toNat 4))

/-- A sample record: the 16-byte head, then up to 256 bytes of the packet (R408). -/
def sampleRecord (ingress : Nat) (p : Packet) (s : State) : List Byte :=
  natLe (ingress + p.cls * 2 ^ 8 + p.saggar * 2 ^ 16 + packetBytes p % 1024 * 2 ^ 32) 8 ++ natLe (s.mclkNow % 2 ^ 32) 8
    ++ (packetImage p).take 256

/-- Count an arriving packet and sample every 2^n-th (R408). -/
def sample (ingress : Nat) (p : Packet) (s : State) : State :=
  if 64 ≤ ingress ∨ s.sagConf p.saggar then s else
  let k := 8 * ingress + p.cls
  let n := s.smpExp ingress p.cls
  if ¬ (4 ≤ n ∧ n ≤ 20) then s else
  let c := aget s.swc.sampled k 0 + 1
  let s := { s with swc := { s.swc with sampled := aset s.swc.sampled k (c % 2 ^ n) } }
  if c % 2 ^ n ≠ 0 then s
  else
    let r := sampleRecord ingress p s
    if s.mirrorBytes + r.length + 2 ^ 19 ≤ 2 ^ 21 then { s with swc := { s.swc with mirror := s.swc.mirror ++ [r] } }
    else bumpSat satSwcSmpLost s

/-- The management controller sends the oldest sample to the collector in TC6 (R408); a collector of
0xFFFF turns export off. -/
def exportSample (s : State) : State :=
  match s.swc.mirror with
  | [] => s
  | r :: rest =>
    let c := s.nodeParam 0x020F
    if s.arch.mp ≠ .run ∨ c = 0xFFFF then s else
    send { dst := c, src := s.fab.node, epoch := s.img.epoch, opcode := opSAMPLE, cls := 6, length := min 256 r.length,
           payload := pad8 (r.take 256) } { s with swc := { s.swc with mirror := rest } }

/-! ## Shapers (R404, R405) -/

/-- RATE and BURST of the port-and-class bucket and of the saggar bucket, in bytes. -/
def State.shapeRate (s : State) (k : Nat) : Nat := 64 * bits (aget s.swc.shape k 0).toNat 0 20
def State.shapeBurst (s : State) (k : Nat) : Nat := 64 * bits (aget s.swc.burst k 0x400).toNat 0 24
def State.sagRate (s : State) (g : Nat) : Nat := 64 * bits (aget s.swc.sagShape g 0).toNat 0 20
def State.sagBurst (s : State) (g : Nat) : Nat := 64 * bits (aget s.swc.sagBurst g 0x400).toNat 0 24

/-- Both buckets hold the packet's bytes; a rate of 0 turns a bucket off (R404), from the next refill on (R405). -/
def State.shaperOk (s : State) (port : Nat) (p : Packet) : Bool :=
  let k := 8 * port + p.cls
  (!s.swc.shaped.contains k || decide (packetBytes p ≤ aget s.swc.tokens k 0))
    && (!s.swc.sagShaped.contains p.saggar || decide (packetBytes p ≤ aget s.swc.sagTokens p.saggar 0))

/-- Charge both buckets of a packet that leaves. -/
def shaperCharge (port : Nat) (p : Packet) (s : State) : State :=
  let k := 8 * port + p.cls
  let b := packetBytes p
  { s with swc := { s.swc with
    tokens := if !s.swc.shaped.contains k then s.swc.tokens else amod s.swc.tokens k 0 (· - b)
    sagTokens := if !s.swc.sagShaped.contains p.saggar then s.swc.sagTokens else amod s.swc.sagTokens p.saggar 0 (· - b) } }

/-- The shaper tick: every shaper and policer bucket refills (R404 to R406). -/
def shaperRefill (s : State) : State :=
  let s := carry (s.swc.lastRefill + sclk 4096) s
  let ks := (List.range 512).filter (fun k => s.shapeRate k ≠ 0)
  let gs := (List.range 64).filter (fun g => s.sagRate g ≠ 0)
  let ps := (List.range 512).filter (fun k => polOn (s.polRec (k / 8) (k % 8)))
  let fill := fun rate burst t => min burst (t + rate)
  { s with swc := { s.swc with
    lastRefill := s.now
    shaped := ks
    sagShaped := gs
    tokens := ks.map (fun k => (k, fill (s.shapeRate k) (s.shapeBurst k) (aget s.swc.tokens k 0)))
    sagTokens := gs.map (fun g => (g, fill (s.sagRate g) (s.sagBurst g) (aget s.swc.sagTokens g 0)))
    policer := ps.map (fun k =>
      let r := s.polRec (k / 8) (k % 8)
      let t := aget s.swc.policer k (0, 0)
      (k, (min (le r 20 4) (t.1 + 64 * le r 12 4), min (le r 24 4) (t.2 + 64 * le r 16 4)))) } }

/-! ## Egress queues (R400 to R403) -/

abbrev QKey := Nat × Nat × Bool × Nat

def State.queue (s : State) (k : QKey) : SagQueue := aget s.swc.queues k {}
def State.list (s : State) (k : Nat × Nat × Bool) : ActiveList := aget s.swc.active k {}
def setQueue (k : QKey) (q : SagQueue) (s : State) : State := { s with swc := { s.swc with queues := aset s.swc.queues k q } }
def setList (k : Nat × Nat × Bool) (l : ActiveList) (s : State) : State := { s with swc := { s.swc with active := aset s.swc.active k l } }

/-- The deficit with which a waking queue joins (R401, R402). -/
def State.joinDeficit (s : State) (port g : Nat) (k : Nat) : Nat :=
  if s.dweah port then min (s.burstD g - s.sagQ g) (k * s.sagQ g) else 0

/-- Put a packet at the end of its queue; an empty queue joins its list's tail (R401). -/
def enqueue (port : Nat) (b : BufPkt) (s : State) : State :=
  let lk := (port, b.pkt.cls, b.pkt.vc)
  let k : QKey := (port, b.pkt.cls, b.pkt.vc, b.pkt.saggar)
  let q := s.queue k
  let l := s.list lk
  if l.order.contains b.pkt.saggar then setQueue k { q with pkts := q.pkts ++ [b] } s
  else
    setList lk { l with order := l.order ++ [b.pkt.saggar], left := if l.order.isEmpty then 1 else l.left }
      (setQueue k { q with pkts := q.pkts ++ [b], deficit := s.joinDeficit port b.pkt.saggar (l.v - q.idleAt) } s)

/-- The head's turn ends: it moves to the tail or leaves the list, and a completed pass raises V (R400,
R401). -/
def ActiveList.endTurn (l : ActiveList) (stays : Bool) : ActiveList :=
  match l.order with
  | [] => l
  | g :: r =>
    let order := if stays then r ++ [g] else r
    if l.left ≤ 1 then { order := order, left := order.length, inTurn := false, v := l.v + 1 }
    else { l with order := order, left := l.left - 1, inTurn := false }

/-- The packet a port may send next from the head queue, if it is whole and held by nothing. -/
def State.headReady (s : State) (port : Nat) (q : SagQueue) : Option BufPkt :=
  match q.pkts with
  | b :: _ => if b.whole && s.shaperOk port b.pkt && s.canStart port b.pkt then some b else none
  | [] => none

/-- What one look at a list's head decides: send, wait out a confidential idle turn, or nothing. -/
inductive Pick where
  | none
  | idle (g : Nat)
  | send (b : BufPkt)
  | classSpent
  deriving DecidableEq, Repr

/-- Find the next packet of a list within a class budget (none for the strict classes): turns pass over
held heads, a turn begins by adding `Q` (R400). `fuel` bounds the turns of one look. -/
def pickList (lk : Nat × Nat × Bool) (budget : Option Nat) : Nat → State → Pick × State
  | 0, s => (.none, s)
  | fuel + 1, s =>
    let l := s.list lk
    match l.order with
    | [] => (.none, s)
    | g :: _ =>
      let k : QKey := (lk.1, lk.2.1, lk.2.2, g)
      let q := s.queue k
      if q.pkts.isEmpty then (.idle g, s)
      else
        match s.headReady lk.1 q with
        | none => pickList lk budget fuel (setList lk (l.endTurn true) s)
        | some b =>
          let q := if l.inTurn then q else { q with deficit := q.deficit + s.sagQ g }
          let s := setList lk { l with inTurn := true } (setQueue k q s)
          if q.deficit < packetBytes b.pkt then pickList lk budget fuel (setList lk (l.endTurn true) s)
          else match budget with
            | some d => if d < packetBytes b.pkt then (.classSpent, s) else (.send b, s)
            | none => (.send b, s)

/-- Whether a list has an eligible queue: a ready head, or an empty confidential queue (R400, R403). -/
def State.listEligible (s : State) (lk : Nat × Nat × Bool) : Bool :=
  (s.list lk).order.any (fun g =>
    let q := s.queue (lk.1, lk.2.1, lk.2.2, g)
    q.pkts.isEmpty || (s.headReady lk.1 q).isSome)

/-- The list whose turn it is in a class: the two virtual channels alternate, an ineligible list is
skipped (R400). -/
def State.vcList (s : State) (port cls : Nat) : Option Bool :=
  let v := aget s.swc.vcTurn (port, cls) false
  if s.listEligible (port, cls, v) then some v
  else if s.listEligible (port, cls, !v) then some (!v)
  else none

/-- The turn of a class's virtual channels passes to the other list. -/
def passVc (port cls : Nat) (v : Bool) (s : State) : State :=
  { s with swc := { s.swc with vcTurn := aset s.swc.vcTurn (port, cls) (!v) } }

/-- Remove a packet from the queue it waits in, releasing its cells (R390). -/
def releaseCells (b : BufPkt) (s : State) : State :=
  if b.inReserve then returnCredit b.ingress b.pkt.cls b.inVc (packetCells b.pkt) s
  else uncharge b.pkt.saggar (packetCells b.pkt) s

/-- After a packet of the head queue has been sent: the deficit falls, and the turn goes on, ends with
the queue empty, or ends with the next head beyond the deficit (R400, R403). -/
def afterSend (lk : Nat × Nat × Bool) (b : BufPkt) (s : State) : State :=
  let g := b.pkt.saggar
  let k : QKey := (lk.1, lk.2.1, lk.2.2, g)
  let q := s.queue k
  let l := s.list lk
  let q := { q with pkts := q.pkts.erase b, deficit := q.deficit - packetBytes b.pkt }
  match q.pkts with
  | [] =>
    let stays := s.sagConf g
    passVc lk.1 lk.2.1 lk.2.2 (setList lk (l.endTurn stays) (setQueue k { q with deficit := 0, idleAt := l.v } s))
  | n :: _ =>
    if q.deficit < packetBytes n.pkt then passVc lk.1 lk.2.1 lk.2.2 (setList lk (l.endTurn true) (setQueue k q s))
    else setQueue k q s

/-! ## Leaving a port (R392, R399, R409) -/

/-- A packet starts to leave: at 48 hops it is discarded; otherwise `HOPS` rises, `HCHK` is recomputed,
and it goes onto the link, to the CXL side of an `EDGE_C` port, or to this chip's units (R409). -/
def depart (port : Nat) (p : Packet) (s : State) : State :=
  if p.hops = 48 then bumpSat satSwcAged s
  else
    let p := stampPkt { p with hops := p.hops + 1 }
    let s := tapAdd p.saggar 2 (packetBytes p) (shaperCharge port p s)
    if s.portRole port = 3 then { s with fab := { s.fab with inbox := s.fab.inbox ++ [p] } }
    else
      let s := txPacket port p s
      if s.portRole port = 2 ∧ (p.opcode = opACK ∨ p.opcode = opACKDATA) then
        releaseWithheld port (modPort port (fun x => { x with edgeOutst := x.edgeOutst.erase p.tag }) s)
      else s

/-- Send the picked packet of a list. -/
def sendPicked (lk : Nat × Nat × Bool) (b : BufPkt) (s : State) : State :=
  depart lk.1 b.pkt (releaseCells b (afterSend lk b s))

/-- An empty confidential queue at its turn: the port sends nothing for the time its quantum takes at
1.6 Tb/s (R403). -/
def startIdleTurn (lk : Nat × Nat × Bool) (g : Nat) (s : State) : State :=
  let x := (s.now + sclk (ceilDiv (s.sagQ g * 3) 400), lk.2.1, lk.2.2, g)
  { s with swc := { s.swc with idleTurn := aset s.swc.idleTurn lk.1 x } }

/-- Serve one strict class (TC0, TC7); none where it has nothing to send (R399). -/
def serveStrict (port cls : Nat) (s : State) : Option State :=
  match s.vcList port cls with
  | none => none
  | some v =>
    match pickList (port, cls, v) none 130 s with
    | (.send b, s) => some (sendPicked (port, cls, v) b s)
    | (.idle g, s) => some (startIdleTurn (port, cls, v) g s)
    | _ => none

/-- The class after another among TC1 to TC6. -/
def nextClass (c : Nat) : Nat := if c < 6 then c + 1 else 1

/-- Deficit round robin over TC1 to TC6 (R399). `fuel` bounds the class turns of one look. -/
def serveShared (port : Nat) : Nat → State → State
  | 0, s => s
  | fuel + 1, s =>
    let (c, began) := aget s.swc.classTurn port (1, false)
    let pass := fun s => serveShared port fuel { s with swc := { s.swc with classTurn := aset s.swc.classTurn port (nextClass c, false) } }
    match s.vcList port c with
    | none =>
      let s := if s.depth port c = 0 then { s with swc := { s.swc with classDeficit := aset s.swc.classDeficit (port, c) 0 } } else s
      pass s
    | some v =>
      let d := aget s.swc.classDeficit (port, c) 0 + (if began then 0 else s.classQ port c)
      let s := { s with swc := { s.swc with classDeficit := aset s.swc.classDeficit (port, c) d, classTurn := aset s.swc.classTurn port (c, true) } }
      match pickList (port, c, v) (some d) 130 s with
      | (.send b, s) =>
        sendPicked (port, c, v) b { s with swc := { s.swc with classDeficit := aset s.swc.classDeficit (port, c) (d - packetBytes b.pkt) } }
      | (.idle g, s) => startIdleTurn (port, c, v) g s
      | (_, s) => pass s

/-- The egress scheduler sends the next packet of a port: TC0, then TC7, then the shared classes (R399).
A port in a confidential idle turn sends nothing (R403). -/
def packetDepart (port : Nat) (s : State) : State :=
  if ahas s.swc.idleTurn port || !s.usable port then s else
  match serveStrict port 0 s with
  | some s => s
  | none => match serveStrict port 7 s with
    | some s => s
    | none => serveShared port 14 s

/-- The meaning of `PACKET_DEPART`. -/
def execPacketDepart (port : Nat) (s : State) : Host.Outcome State Fault Refusal :=
  run (decide (port < 64)) (packetDepart port s)

/-- The idle turn of an empty confidential queue ends and the turn passes (R403). -/
def confIdleTurn (port cls : Nat) (vc : Bool) (g : Nat) (s : State) : State :=
  match afind s.swc.idleTurn port with
  | none => s
  | some (d, c, v, h) =>
    if c ≠ cls ∨ v ≠ vc ∨ h ≠ g then s else
    let s := carry d s
    let lk := (port, cls, vc)
    passVc port cls vc (setList lk ((s.list lk).endTurn true)
      { s with swc := { s.swc with idleTurn := aerase s.swc.idleTurn port } })

/-- The meaning of `CONF_IDLE_TURN`. -/
def execConfIdleTurn (port cls : Nat) (vc : Bool) (g : Nat) (s : State) : Host.Outcome State Fault Refusal :=
  run (decide (port < 64) && decide (cls < 8) && decide (g < 64)) (confIdleTurn port cls vc g s)

/-! ## Merging in egress queues (R362, R363) -/

/-- The hot range an address lies in, of a kind. -/
def State.hotKind (s : State) (p : Packet) : Nat :=
  match s.fab.hot.find? (fun h => h.home = p.dst ∧ h.base ≤ p.offset ∧ p.offset < h.base + h.pages * pageBytes) with
  | some h => h.kind
  | none => 0

/-- The later write covers every byte of the earlier. -/
def coversWrite (p q : Packet) : Bool :=
  decide (p.offset ≤ q.offset) && decide (q.offset + q.length ≤ p.offset + p.length)

/-- A waiting packet into which `p` merges: an identical `READ`, or a `WRITE` of another source that `p`
covers. -/
def State.mergeTarget (s : State) (port : Nat) (p : Packet) : Option BufPkt :=
  if s.hotKind p ≠ 1 then none else
  (s.queue (port, p.cls, p.vc, p.saggar)).pkts.find? (fun b =>
    let q := b.pkt
    let e := s.fab.merges.find? (fun m => m.pid = b.pid)
    let room := match e with | some m => decide (m.originals.length < 16) | none => decide (s.fab.merges.length < 8192)
    let others := match e with | some m => m.originals.all (fun o => o.src ≠ p.src) | none => q.src ≠ p.src
    (q.opcode = p.opcode) && (q.dst = p.dst) && (q.epoch = p.epoch) && !q.rty && !p.rty && room &&
      (if p.opcode = opREAD then (q.offset = p.offset) && (q.length = p.length)
       else (p.opcode = opWRITE) && others && coversWrite p q))

/-- Merge `p` into a waiting packet: one request under this chip's node with a merge-table tag stands for
the originals. -/
def mergeInto (port : Nat) (p : Packet) (b : BufPkt) (s : State) : State :=
  let k : QKey := (port, p.cls, p.vc, p.saggar)
  let old := s.fab.merges.find? (fun m => m.pid = b.pid)
  let tag := match old with | some m => m.tag | none => s.nextTag
  let base := if p.opcode = opREAD then b.pkt else p
  let np := stampPkt { base with src := s.fab.node, tag := tag, vc := b.pkt.vc }
  let m : MergeEntry := match old with
    | some m => { m with originals := m.originals ++ [p] }
    | none => { tag := tag, isWrite := p.opcode = opWRITE, originals := [b.pkt, p], pid := b.pid }
  let r : Req := { req := .merge tag, pkt := np, deadline := some (s.now + sclk (2 ^ s.toExp)) }
  let q := s.queue k
  let s := setQueue k { q with pkts := q.pkts.map (fun x => if x.pid = b.pid then { x with pkt := np } else x) } s
  let s := charge p.saggar (packetCells np - packetCells b.pkt) s
  let s := bumpCtr (if p.opcode = opREAD then ctrFabReadMerged else ctrFabSuperseded) 1 s
  match old with
  | some _ => { s with fab := { s.fab with
      merges := s.fab.merges.map (fun x => if x.tag = tag then m else x)
      outst := s.fab.outst.map (fun x => if x.req = .merge tag then { x with pkt := np } else x) } }
  | none => { s with fab := { s.fab with
      tagNext := (s.nextTag + 1) % 65536
      merges := s.fab.merges ++ [m]
      outst := s.fab.outst ++ [r] } }

/-! ## Queueing an arrived packet (R390 to R393) -/

/-- A cut-through start (R392): the queue is empty, the next hop has credit, the shapers allow, and the
port is `FABRIC` or `EDGE_V`. -/
def State.cutThrough (s : State) (port : Nat) (p : Packet) : Bool :=
  (s.list (port, p.cls, p.vc)).order.all (fun g => (s.queue (port, p.cls, p.vc, g)).pkts.isEmpty)
    && s.canStart port p && s.shaperOk port p && (s.portRole port = 1 || s.portRole port = 2) && !ahas s.swc.idleTurn port

/-- Enter a packet that holds its cells into an egress: merged, cut through or queued; RED first. -/
def enterEgress (port : Nat) (b : BufPkt) (s : State) : State :=
  match red port b.pkt b.colour s with
  | (sel, s) =>
    if sel && (b.pkt.cls = 6) then bumpCtr ctrSwcDrop 1 (releaseCells b s)
    else
      let s := when_ (sel && !b.pkt.cm) (bumpCtr ctrSwcMark 1) s
      let b := if sel then { b with pkt := stampPkt { b.pkt with cm := true } } else b
      match s.mergeTarget port b.pkt with
      | some t => mergeInto port b.pkt t (releaseCells b s)
      | none =>
        if s.cutThrough port b.pkt then
          if b.whole then depart port b.pkt (releaseCells b s)
          else depart port b.pkt { s with swc := { s.swc with leaving := s.swc.leaving ++ [(port, b)] } }
        else enqueue port b s

/-- A packet for this chip: one with a reserved header bit set is discarded without an answer (R329); one whose
opcode is not permitted in its class, or is reserved, is answered `DENIED` (R333, R339), but nothing in TC6 is ever
answered (R333); any other waits for its unit. -/
def deliver (p : Packet) (s : State) : State :=
  if p.rsv ≠ 0 then s
  else if !classOk p.opcode p.cls then (if p.cls = 6 then s else reply p .denied 0 [] s) else { s with fab := { s.fab with inbox := s.fab.inbox ++ [p] } }

/-- Route a packet and pass it on: no usable port discards it (R395). -/
def routePacket (b : BufPkt) (s : State) : State :=
  match s.route b.pkt with
  | none => bumpSat satSwcNoRoute (releaseCells b s)
  | some (port, det) =>
    let s := when_ det (bumpCtr ctrSwcDetour 1) s
    if port = 0x40 then deliver b.pkt (releaseCells b s)
    else
      let p := stampPkt { b.pkt with detour := b.pkt.detour || det, vc := s.nextVc b.ingress port b.inVc }
      if p.cls = 6 ∧ s.nodeParam 0x0207 ≤ s.tc6Cells port then bumpCtr ctrSwcDrop 1 (releaseCells b s)
      else enterEgress port { b with pkt := p } s

/-- Whether a packet's cells may move to the shared pool: within its saggar's quota (R390). -/
def State.fitsPool (s : State) (p : Packet) : Bool :=
  decide (s.usedCells p.saggar + packetCells p ≤ s.quotaCells p.saggar ∧ packetCells p ≤ s.poolFree)

/-- The packets in the reserve of an ingress port, class and `VC`, in their order of arrival. -/
def State.reserveOf (s : State) (ingress cls : Nat) (vc : Bool) : List BufPkt :=
  s.swc.reserve.filter (fun b => b.ingress = ingress && b.pkt.cls = cls && b.inVc = vc)

/-- Admit an arriving packet to the buffer (R390): its cells move to the shared pool within the saggar's
quota, at once for TC2 and TC6; otherwise, or behind another that waits, it stays in its ingress reserve. -/
def takeIn (ingress : Nat) (p : Packet) (whole : Bool) (s : State) : State :=
  let c := packetCells p
  let (col, s) := police ingress p s
  let b : BufPkt := { pid := s.swc.nextPid, pkt := p, ingress := ingress, colour := col, arrived := s.now, inVc := p.vc, whole := whole }
  let s := { s with swc := { s.swc with nextPid := s.swc.nextPid + 1 } }
  let fits := p.cls = 2 || p.cls = 6 || ((s.reserveOf ingress p.cls p.vc).isEmpty && s.fitsPool p)
  if fits then routePacket b (returnCredit ingress p.cls p.vc c (charge p.saggar c s))
  else { s with swc := { s.swc with reserve := s.swc.reserve ++ [{ b with inReserve := true }] } }

/-- Move the packets at the front of one reserve to the shared pool while they fit. -/
def drainReserve (ingress cls : Nat) (vc : Bool) : Nat → State → State
  | 0, s => s
  | n + 1, s =>
    match s.reserveOf ingress cls vc with
    | [] => s
    | b :: _ =>
      if !s.fitsPool b.pkt then s else
      let c := packetCells b.pkt
      let s := { s with swc := { s.swc with reserve := s.swc.reserve.erase b } }
      drainReserve ingress cls vc n
        (routePacket { b with inReserve := false } (returnCredit ingress cls vc c (charge b.pkt.saggar c s)))

/-- Cells of a saggar have freed: the first held packet of it that stands at the front of its reserve moves to the
shared pool, and those that waited behind it follow (R390). -/
def quotaRelease (g : Nat) (s : State) : State :=
  match s.swc.reserve.find? (fun b => b.pkt.saggar = g && (s.reserveOf b.ingress b.pkt.cls b.inVc).head? = some b) with
  | none => s
  | some b => drainReserve b.ingress b.pkt.cls b.inVc s.swc.reserve.length s

/-- The meaning of `QUOTA_RELEASE`. -/
def execQuotaRelease (g : Nat) (s : State) : Host.Outcome State Fault Refusal :=
  run (decide (g < 64)) (quotaRelease g s)

/-! ## Losing a port (R398) -/

/-- Take every packet out of the queues of a port. -/
def dropQueues (port : Nat) (s : State) : State :=
  { s with swc := { s.swc with
    queues := s.swc.queues.map (fun q => if q.1.1 = port then (q.1, { q.2 with pkts := [], deficit := 0 }) else q)
    active := s.swc.active.map (fun l => if l.1.1 = port then (l.1, { l.2 with
      order := l.2.order.filter s.sagConf, left := (l.2.order.filter s.sagConf).length, inTurn := false }) else l)
    idleTurn := aerase s.swc.idleTurn port
    leaving := s.swc.leaving.filter (fun x => x.1 ≠ port) } }

/-- Packets queued for a port that went down are routed again from their own entries; one that was leaving by
cut-through is ended and gives its cells back (R398, R393). -/
def reroute (port : Nat) (s : State) : State :=
  let bs := (s.swc.queues.filter (fun q => q.1.1 = port)).flatMap (fun q => q.2.pkts)
  let cut := (s.swc.leaving.filter (fun x => x.1 = port)).map (·.2)
  forEach bs (fun b s => routePacket b s) (dropQueues port (forEach cut releaseCells s))

/-! ## Ageing and audit (R409, R410) -/

/-- Remove a packet from wherever it is buffered. -/
def removePid (pid : Nat) (s : State) : State :=
  { s with swc := { s.swc with
    queues := s.swc.queues.map (fun q => (q.1, { q.2 with pkts := q.2.pkts.filter (fun b => b.pid ≠ pid) }))
    reserve := s.swc.reserve.filter (fun b => b.pid ≠ pid)
    leaving := s.swc.leaving.filter (fun x => x.2.pid ≠ pid) } }

/-- A queue that a removal emptied leaves its list, unless its saggar is confidential (R401, R403). -/
def pruneLists (s : State) : State :=
  { s with swc := { s.swc with active := s.swc.active.map (fun l =>
      let keep := l.2.order.filter (fun g => s.sagConf g || !(s.queue (l.1.1, l.1.2.1, l.1.2.2, g)).pkts.isEmpty)
      if keep = l.2.order then l
      else (l.1, { l.2 with order := keep, left := min l.2.left keep.length, inTurn := l.2.inTurn && (keep.head? = l.2.order.head?) })) } }

/-- A packet whose residence reaches 2^18 SCLK cycles before it starts to leave is discarded (R409); one chosen to leave
in that cycle leaves (R411). -/
def ageLimit (pid : Nat) (s : State) : State :=
  match (s.swc.queues.flatMap (fun q => q.2.pkts) ++ s.swc.reserve).find? (fun b => b.pid = pid) with
  | none => s
  | some b => bumpSat satSwcAged (pruneLists (removePid pid (releaseCells b (expire (sclk 1) (b.arrived + sclk (2 ^ 18)) s))))

/-- The meaning of `PACKET_AGE_LIMIT`. -/
def execPacketAgeLimit (pid : Nat) (s : State) : Host.Outcome State Fault Refusal :=
  run (decide (pid < 2 ^ 64)) (ageLimit pid s)

/-- The auditor starts a pass (R410): what it found suspect in the last one is remembered. -/
def auditStart (s : State) : State :=
  let s := carry (s.swc.auditStart + sclk (2 ^ 24)) s
  { s with swc := { s.swc with auditing := true, auditCell := 0, auditStart := s.now, suspects := s.swc.nowSuspect, nowSuspect := [] } }

/-- The meaning of `AUDIT_PASS_START`. -/
def execAuditPassStart (s : State) : Host.Outcome State Fault Refusal := run true (auditStart s)

/-- The auditor visits its next cell: one neither free nor held is suspect; suspect twice running it is
reclaimed, with `SWC_LEAK` (R410). -/
def auditVisit (s : State) : State :=
  if !s.swc.auditing then s else
  let c := s.swc.auditCell
  let s := carry (s.swc.auditStart + sclk (16 * (c + 1))) s
  let s := { s with swc := { s.swc with auditCell := c + 1, auditing := decide (c + 1 < 786432) } }
  if !s.swc.leaked.contains c then s
  else if s.swc.suspects.contains c then
    logEvent 0x0603 0 none [c] (bumpSat satSwcLeaked { s with swc := { s.swc with leaked := s.swc.leaked.erase c } })
  else { s with swc := { s.swc with nowSuspect := s.swc.nowSuspect ++ [c] } }

/-- The meaning of `AUDIT_CELL_VISIT`. -/
def execAuditCellVisit (s : State) : Host.Outcome State Fault Refusal := run true (auditVisit s)

/-- The meaning of `SHAPER_REFILL`. -/
def execShaperRefill (s : State) : Host.Outcome State Fault Refusal := run true (shaperRefill s)

/-- The meaning of `SAMPLE_EXPORT`. -/
def execSampleExport (s : State) : Host.Outcome State Fault Refusal := run true (exportSample s)

end Sys2Proof.Machine
end

