-- ==== Sys2Proof/Machine/Links.lean ====
section
/-! DEFINITION. Ports, lanes and CXL edges (chapter 15): training, the receiving half of the link layer,
retry, lane operations, recalibration, CXL requests and optical modules. -/

namespace Sys2Proof.Machine

/-! ## Domains and compositions an endpoint belongs to -/

/-- Domains whose caching agents include a node (R369). -/
def State.domainsOfAgent (s : State) (node : Nat) : List Nat :=
  (s.img.cur.sections.filter (fun c => c.ty = tyDOMAINS)).flatMap (fun c =>
    ((domainRecs (c.body.getD []) 256).filter (fun d => d.agents.contains node)).map (·.id))

/-- Compositions of the configuration in force, by number. -/
def State.compositions (s : State) : List Nat :=
  (s.img.cur.sections.filter (fun c => c.ty = tyCOMPOSITION)).map (·.comp)

/-- The node of a composition's leader, as the roles stand (R128, R161). -/
def State.leaderNode (s : State) (comp : Nat) : Nat :=
  let role := match s.sagOfComp comp with | some g => (aget s.sit g {}).leader | none => none
  (s.members comp).getD (role.getD (s.compParam comp 0x0105)) 0xFFFF

/-- Fence with cause 0x3 every domain that has one of the endpoints as a caching agent (R378). -/
def fenceAgents (nodes : List Nat) (s : State) : State :=
  forEach nodes (fun n s => forEach (s.domainsOfAgent n) (fun d s => domainFence d 3 true s) s) s

/-- Tell each composition's leader that an endpoint's edge port has left `UP` (R162). -/
def reportEpLost (ep : Nat) (s : State) : State :=
  forEach (s.compositions.filter (fun c => (s.endpoints c).contains ep)) (fun c s =>
    sendCtrl (s.leaderNode c) (.epLost c ep) s) s

/-! ## Link down (R424, R398) -/

/-- Discard the partly received packet of a port; a copy that left by cut-through ends with `ABORT`
(R393, R423). -/
def dropPartial (port : Nat) (s : State) : State :=
  let x := s.port port
  let s := modPort port (fun x => { x with partialSop := none, partialPid := none }) s
  match x.partialPid with
  | none => s
  | some pid =>
    match s.held.find? (fun b => b.pid = pid) with
    | none => s
    | some b =>
      let cut := s.swc.leaving.find? (fun l => l.2.pid = pid)
      let s := pruneLists (removePid pid (releaseCells b s))
      match cut with
      | some l => sendFrame l.1 { ftype := 1, fseq := (s.port l.1).txSeq, cls := b.pkt.cls, vc := b.pkt.vc, sop := false, eop := true, abort := true } none s
      | none => s

/-- The control plane probes a peer whose link has gone, by its alternate route (R533). -/
def startProbe (peer : Nat) (s : State) : State :=
  if s.arch.cp = .run ∧ peer ≠ 0xFFFF then
    sendCtrl peer .probe { s with erc := { s.erc with probes := aset s.erc.probes peer (s.now + sclk (2 ^ 15)) } }
  else s

/-- A port leaves `UP` for another state: its retry buffer is lost, lane operations end, its queue is
routed again, an edge link's loss is reported and a fabric peer is probed (R424, R398, R378, R162, R533). -/
def leaveUp (port next : Nat) (s : State) : State :=
  let s := dropPartial port s
  let s := modPort port (fun x => { x with
    lst := next
    deadline := if next = 1 then some (s.now + sclk (2 ^ 29)) else none
    retry := []
    replays := []
    rxMove := none
    txMove := none
    rotActive := false
    rotDeadline := none
    recalDeadline := none
    spareBusy := false
    width := 0
    replayReq := none
    replayDeadline := none
    silence := none
    idle := none
    digestDeadline := none
    digestTold := false
    edgeOutst := []
    withheld := [] }) (bumpSat (satPrtLinkDown port) s)
  let ep := portNeighbour (s.portRec port)
  let s := if s.portRole port = 2 then reportEpLost ep (fenceAgents [ep] s)
    else if s.portRole port = 1 then startProbe ep s else s
  reroute port s

/-- The link goes down and the port trains again (R424). -/
def linkDown (port : Nat) (s : State) : State := if (s.port port).lst = 4 then leaveUp port 1 s else s

/-- The port returns to `DOWN`; training may be attempted again after 2^30 SCLK cycles (R415). -/
def failTraining (port : Nat) (s : State) : State :=
  modPort port (fun x => { x with lst := 0, deadline := none, retryAt := some (s.now + sclk (2 ^ 30)) }) s

/-- Whether a port runs the link layer of this chapter. -/
def State.linked (s : State) (port : Nat) : Bool := s.portRole port = 1 || s.portRole port = 2

/-! ## Training (R415, R416) -/

/-- Signal on a `DOWN` port starts training; a port that waits for its next attempt, or is fenced, stays. -/
def signalDetect (port : Nat) (s : State) : State :=
  let x := s.port port
  if x.lst = 0 ∧ s.linked port ∧ !x.fence.on ∧ x.retryAt = none then
    modPort port (fun x => { x with lst := 1, deadline := some (s.now + sclk (2 ^ 29)), lost := [] }) s
  else s

/-- The meaning of `LINK_SIGNAL_DETECT`. -/
def execLinkSignalDetect (port : Nat) (s : State) : Host.Outcome State Fault Refusal :=
  run (decide (port < 64)) (signalDetect port s)

/-- Physical lanes a mask names. -/
def laneSet (mask : Nat) : List Nat := (List.range 9).filter (bit mask)

/-- Training has completed on the lanes of a mask: eight good lanes carry width 8, fewer carry width 4 on
logical lanes 0 to 3 (R427). -/
def trainDone (port lanes : Nat) (s : State) : State :=
  let good := laneSet lanes
  let x := s.port port
  if x.lst ≠ 1 then s
  else if good.length < 4 then failTraining port s
  else modPort port (fun x => { x with
    lst := 2
    deadline := some (s.now + sclk (2 ^ 22))
    width := if 8 ≤ good.length then 8 else 4
    lost := (List.range 9).filter (fun l => !good.contains l) }) s

/-- The meaning of `LINK_TRAIN_DONE`. -/
def execLinkTrainDone (port lanes : Nat) (s : State) : Host.Outcome State Fault Refusal :=
  run (decide (port < 64) && decide (lanes < 512)) (trainDone port lanes s)

/-- The `EXCH` frame this chip sends (R416); it carries the clock as it stands (R27). -/
def State.exchBody (s : State) (port : Nat) : ExchBody :=
  { lver := 1, node := s.fab.node, role := s.portRole port, spareOk := portSpareOk (s.portRec port), port := port, digest := s.digestPrefix, lc := s.arch.lc }

/-- Deskew and FEC lock are complete: the lane map is the identity and `EXCH` frames are sent. -/
def alignDone (port : Nat) (s : State) : State :=
  if (s.port port).lst ≠ 2 then s
  else emit (.exch port (s.exchBody port)) (modPort port (fun x => { x with
    lst := 3
    deadline := some (s.now + sclk (2 ^ 22))
    map := List.range 8
    txMap := List.range 8 }) s)

/-- The meaning of `LINK_ALIGN_DONE`. -/
def execLinkAlignDone (port : Nat) (s : State) : Host.Outcome State Fault Refusal :=
  run (decide (port < 64)) (alignDone port s)

/-- Credits at `UP`: 128 cells for each lossless class and virtual channel (R420). -/
def initialCredits : Assoc Nat Nat := ((List.range 16).filter (fun k => k % 8 ≠ 6)).map (fun k => (k, 128))

/-- An `EXCH` frame's clock is merged and its body checked: the port enters `UP`, or returns to `DOWN` with `LNK_MISCABLED` (R416). -/
def exchange (port : Nat) (b : ExchBody) (s : State) : State :=
  if (s.port port).lst ≠ 3 then s else
  let s := mergeLc b.lc s
  let roleOk := (s.portRole port = 1 && b.role = 1) || (s.portRole port = 2 && b.role = 3)
  if b.node = portNeighbour (s.portRec port) ∧ roleOk ∧ b.lver = 1 then
    modPort port (fun x => { x with
      lst := 4
      deadline := none
      retryAt := none
      peer := b.node
      margin := []
      txSeq := 0
      rxSeq := 0
      ackV := false
      ackSeq := 0
      crTot := initialCredits
      crRet := initialCredits
      crSent := initialCredits
      crUsed := []
      silence := some (s.now + sclk 2048)
      idle := some (s.now + sclk 512)
      rotDeadline := if x.retired.isEmpty then some (s.now + sclk (2 ^ s.nodeParam 0x0209)) else none }) s
  else
    logEvent 0x0701 port none [b.node, b.role, b.lver] (bumpSat (satPrtMiscabled port) (failTraining port s))

/-- The meaning of `EXCH`. -/
def execLinkExch (port : Nat) (body : ExchBody) (s : State) : Host.Outcome State Fault Refusal :=
  run (decide (port < 64) && body.wf) (exchange port body s)

/-- A state exceeds its budget (R415). -/
def stateTimeout (port : Nat) (s : State) : State :=
  match (s.port port).deadline with
  | some d => if 1 ≤ (s.port port).lst ∧ (s.port port).lst ≤ 3 then failTraining port (expire (sclk 1) d s) else s
  | none => s

/-- The meaning of `LINK_STATE_TIMEOUT`. -/
def execLinkStateTimeout (port : Nat) (s : State) : Host.Outcome State Fault Refusal :=
  run (decide (port < 64)) (stateTimeout port s)

/-- The time of a new attempt has come (R415). -/
def retrainTimer (port : Nat) (s : State) : State :=
  match (s.port port).retryAt with
  | some d =>
    let s := modPort port (fun x => { x with retryAt := none }) (carry d s)
    if (s.port port).fence.on || !s.linked port then s
    else modPort port (fun x => { x with lst := 1, deadline := some (s.now + sclk (2 ^ 29)), lost := [] }) s
  | none => s

/-- The meaning of `LINK_RETRAIN_TIMER`. -/
def execLinkRetrainTimer (port : Nat) (s : State) : Host.Outcome State Fault Refusal :=
  run (decide (port < 64)) (retrainTimer port s)

/-! ## Receiving frames (R419 to R423) -/

/-- `a` is at or before `b` among the last 2,048 frame numbers. -/
def seqLe (a b : Nat) : Bool := decide ((b + 4096 - a % 4096) % 4096 < 2048)

/-- Frames of the retry buffer that an acknowledgement covers leave it (R422). -/
def ackFrames (port upTo : Nat) (s : State) : State :=
  modPort port (fun x => { x with
    retry := x.retry.filter (fun f => !seqLe f.1.fseq upTo)
    replays := x.replays.filter (fun r => !seqLe r.1 upTo) }) s

/-- A credit total received (R420). -/
def setCredit (sel tot : Nat) (x : Port) : Port := if sel % 8 = 6 then x else { x with crTot := aset x.crTot sel tot }

/-- What every valid frame does: it counts, restarts the silence time, merges the clock, brings credits
and an acknowledgement, and on a `FABRIC` port its digest prefix is compared (R419 to R424). -/
def rxCommon (port : Nat) (f : LinkFrame) (s : State) : State :=
  let s := bumpCtr (ctrPrtFrames port) 1 (mergeLc f.lc s)
  let s := modPort port (fun x => setCredit f.crSel1 f.crTot1 (setCredit f.crSel0 f.crTot0 { x with silence := some (s.now + sclk 2048), peerDigest := f.digest })) s
  let s := if f.ackV then ackFrames port f.ack s else s
  if s.portRole port = 1 then
    if f.digest = s.digestPrefix then modPort port (fun x => { x with digestDeadline := none, digestTold := false }) s
    else if (s.port port).digestDeadline = none ∧ !(s.port port).digestTold then
      modPort port (fun x => { x with digestDeadline := some (s.now + sclk (2 ^ 24)) }) s
    else s
  else s

/-- Ask for a replay (R423): the partial packet goes, and frames are discarded until the named one
arrives intact. -/
def askReplay (port lop lane : Nat) (s : State) : State :=
  let x := s.port port
  let n := match x.partialSop with | some q => q | none => x.rxSeq
  let s := dropPartial port s
  let s := modPort port (fun x => { x with rxSeq := n, replayReq := some n, replayDeadline := some (s.now + sclk 1024) }) s
  sendFrame port { ftype := 3, fseq := n, sop := false, eop := false, lop := lop, lane := lane } none s

/-- A frame that fails its check (R423): a new request, unless one is already outstanding. -/
def badFrame (port : Nat) (s : State) : State := if (s.port port).replayReq.isSome then s else askReplay port 0 0 s

/-- The meaning of `LINK_IDLE_FRAME`: acknowledgements, credits, clock and digest of an `IDLE`. -/
def execLinkIdleFrame (port : Nat) (f : LinkFrame) (s : State) : Host.Outcome State Fault Refusal :=
  run (decide (port < 64) && f.wf)
    (if (s.port port).lst ≠ 4 then s else if f.fcrcOk then rxCommon port f s else badFrame port s)

/-- An `IDLE` falls due (R418). -/
def idleDue (port : Nat) (s : State) : State :=
  match (s.port port).idle with
  | some d => if (s.port port).lst = 4 then txIdle port (carry d s) else s
  | none => s

/-- The meaning of `LINK_IDLE_DUE`. -/
def execLinkIdleDue (port : Nat) (s : State) : Host.Outcome State Fault Refusal :=
  run (decide (port < 64)) (idleDue port s)

/-! ## Replay at the sender (R423, R424) -/

/-- The sender moves a logical lane to a free physical lane at once (R427). -/
def txEmergency (port lane : Nat) (s : State) : State :=
  modPort port (fun x =>
    let free := (List.range 9).filter (fun l => !x.txMap.contains l)
    { x with txMove := none, txMap := match free.reverse with | l :: _ => x.txMap.set lane l | [] => x.txMap }) s

/-- Replay from a named frame; a packet already replayed 8 times takes the link down. -/
def replayFrom (port n : Nat) (s : State) : State :=
  let x := s.port port
  let fs := x.retry.dropWhile (fun f => f.1.fseq ≠ n)
  if fs.isEmpty then s
  else if 8 ≤ aget x.replays n 0 then linkDown port s
  else
    let s := modPort port (fun x => { x with replays := amod x.replays n 0 (· + 1) }) s
    forEach fs (fun f s => bumpCtr (ctrPrtReplays port) 1 (sendFrame port f.1 (some f.2) s)) s

/-- A `REPLAY_REQ` arrives; with `EMERGENCY` the lane moves first (R423, R427). -/
def replayReq (port : Nat) (f : LinkFrame) (s : State) : State :=
  if (s.port port).lst ≠ 4 then s
  else if !f.fcrcOk then badFrame port s
  else
    let s := rxCommon port f s
    let s := if f.lop = 6 ∧ f.lane < 8 then txEmergency port f.lane s else s
    replayFrom port f.fseq s

/-- The meaning of `LINK_REPLAY_REQ`. -/
def execLinkReplayReq (port : Nat) (f : LinkFrame) (s : State) : Host.Outcome State Fault Refusal :=
  run (decide (port < 64) && f.wf) (replayReq port f s)

/-- The named frame has not arrived within 1,024 SCLK cycles: the request is repeated (R423). -/
def replayRepeat (port : Nat) (s : State) : State :=
  match (s.port port).replayReq, (s.port port).replayDeadline with
  | some n, some d =>
    let s := expire (sclk 1) d s
    sendFrame port { ftype := 3, fseq := n, sop := false, eop := false } none
      (modPort port (fun x => { x with replayDeadline := some (s.now + sclk 1024) }) s)
  | _, _ => s

/-- The meaning of `REPLAY_REQ_REPEAT`. -/
def execReplayReqRepeat (port : Nat) (s : State) : Host.Outcome State Fault Refusal :=
  run (decide (port < 64)) (replayRepeat port s)

/-- No valid frame for 2,048 SCLK cycles (R424). -/
def silenceTimeout (port : Nat) (s : State) : State :=
  match (s.port port).silence with
  | some d => linkDown port (expire (sclk 1) d s)
  | none => s

/-- The meaning of `LINK_SILENCE_TIMEOUT`. -/
def execLinkSilenceTimeout (port : Nat) (s : State) : Host.Outcome State Fault Refusal :=
  run (decide (port < 64)) (silenceTimeout port s)

/-- The peer's digest prefix has differed for 2^24 SCLK cycles (R419). -/
def digestMismatch (port : Nat) (s : State) : State :=
  match (s.port port).digestDeadline with
  | none => s
  | some d =>
    let s := modPort port (fun x => { x with digestDeadline := none, digestTold := true }) (expire (sclk 1) d s)
    logEvent 0x0702 port none [(s.port port).peerDigest, s.digestPrefix] (bumpSat (satPrtDigest port) s)

/-- The meaning of `DIGEST_MISMATCH_TIMEOUT`. -/
def execDigestMismatchTimeout (port : Nat) (s : State) : Host.Outcome State Fault Refusal :=
  run (decide (port < 64)) (digestMismatch port s)

/-- The meaning of `FEC_LOCK_LOSS`: on two or more lanes at once the link goes down (R424). -/
def execFecLockLoss (port lanes : Nat) (s : State) : Host.Outcome State Fault Refusal :=
  run (decide (port < 64) && decide (lanes < 512)) (if 2 ≤ (laneSet lanes).length then linkDown port s else s)

/-! ## Lane operations (R425 to R430) -/

/-- Physical lanes that carry no logical lane and are neither lost nor retired. -/
def Port.freeLanes (x : Port) : List Nat :=
  (List.range 9).filter (fun l => !(x.map.contains l || x.lost.contains l || x.retired.contains l))

/-- A receiver declares a physical lane lost (R427, R430): its logical lane moves by `EMERGENCY` to the
spare, or onto the lane under recalibration; with no lane free the link goes down. -/
def laneLost (port lane : Nat) (s : State) : State :=
  let x := s.port port
  if x.lst ≠ 4 then s else
  let s := bumpSat (satPrtLaneLost port) s
  let s := modPort port (fun x => { x with lost := x.lost.eraseDups ++ (if x.lost.contains lane then [] else [lane]) }) s
  let x := s.port port
  match x.map.idxOf? lane with
  | none => if x.rotActive && (x.rotLane = lane) then modPort port (fun x => { x with rotActive := false, recalDeadline := none }) s else s
  | some k =>
    match (if portSpareOk (s.portRec port) then x.freeLanes else []) with
    | [] => linkDown port s
    | t :: _ =>
      askReplay port 6 k (modPort port (fun x => { x with
        map := x.map.set k t
        rxMove := none
        rotActive := false
        recalDeadline := none
        spareBusy := true }) s)

/-- The meaning of `LANE_LOST`. -/
def execLaneLost (port lane : Nat) (s : State) : Host.Outcome State Fault Refusal :=
  run (decide (port < 64) && decide (lane < 9)) (laneLost port lane s)

/-- Send a lane operation in an `IDLE` frame (R425). -/
def sendLop (port lop lane atSeq : Nat) (s : State) : State :=
  sendFrame port { ftype := 2, sop := false, eop := false, lop := lop, lane := lane, atFseq := atSeq } none s

/-- The transmitter starts mirroring a lane on a free physical lane (`REQ_SWAP`), or on the lane's own
(`REQ_RESTORE`), and reports `MIRROR_ON` (R426). -/
def txMirror (port lane : Nat) (restore : Bool) (s : State) : State :=
  let x := s.port port
  let free := (List.range 9).filter (fun l => !x.txMap.contains l)
  let target := if restore then (if free.contains lane then some lane else none) else free.getLast?
  match target with
  | some t =>
    if x.lst = 4 ∧ lane < 8 ∧ portSpareOk (s.portRec port) then
      sendLop port 2 lane 0 (modPort port (fun x => { x with txMove := some { lane := lane, target := t, stage := 2, restore := restore } }) s)
    else s
  | none => s

/-- The meaning of `LOP_REQ_SWAP`. -/
def execLopReqSwap (port lane : Nat) (s : State) : Host.Outcome State Fault Refusal :=
  run (decide (port < 64) && decide (lane < 9)) (txMirror port lane false s)

/-- The meaning of `LOP_REQ_RESTORE`. -/
def execLopReqRestore (port lane : Nat) (s : State) : Host.Outcome State Fault Refusal :=
  run (decide (port < 64) && decide (lane < 9)) (txMirror port lane true s)

/-- The transmitter's copy is on: the receiver compares it for 2^12 SCLK cycles (R425). -/
def mirrorOn (port lane : Nat) (s : State) : State :=
  match (s.port port).rxMove with
  | some m =>
    if m.lane = lane ∧ m.stage = 1 ∧ (s.port port).lst = 4 then
      modPort port (fun x => { x with rxMove := some { m with stage := 2 }, mirrorDeadline := some (s.now + sclk (2 ^ 12)), spareBusy := true }) s
    else s
  | none => s

/-- The meaning of `LOP_MIRROR_ON`. -/
def execLopMirrorOn (port lane : Nat) (s : State) : Host.Outcome State Fault Refusal :=
  run (decide (port < 64) && decide (lane < 9)) (mirrorOn port lane s)

/-- The copy has matched: `READY` (R425). -/
def mirrorMatched (port : Nat) (s : State) : State :=
  match (s.port port).rxMove, (s.port port).mirrorDeadline with
  | some m, some d =>
    if m.stage = 2 then
      sendLop port 3 m.lane 0 (modPort port (fun x => { x with rxMove := some { m with stage := 3 }, mirrorDeadline := none }) (carry d s))
    else s
  | _, _ => s

/-- The meaning of `MIRROR_MATCHED`. -/
def execMirrorMatched (port : Nat) (s : State) : Host.Outcome State Fault Refusal :=
  run (decide (port < 64)) (mirrorMatched port s)

/-- `READY` reaches the transmitter: the switch is scheduled 16 frames ahead (R426). -/
def lopReady (port lane : Nat) (s : State) : State :=
  match (s.port port).txMove with
  | some m =>
    if m.lane = lane ∧ m.stage = 2 then
      let n := ((s.port port).txSeq + 16) % 4096
      sendLop port 4 lane n (modPort port (fun x => { x with txMove := some { m with stage := 4, atFseq := n } }) s)
    else s
  | none => s

/-- The meaning of `LOP_READY`. -/
def execLopReady (port lane : Nat) (s : State) : Host.Outcome State Fault Refusal :=
  run (decide (port < 64) && decide (lane < 9)) (lopReady port lane s)

/-- The receiver learns the frame from which the lane moves (R426). -/
def lopSwitchAt (port lane n : Nat) (s : State) : State :=
  match (s.port port).rxMove with
  | some m =>
    if m.lane = lane ∧ m.stage = 3 then modPort port (fun x => { x with rxMove := some { m with stage := 4, atFseq := n } }) s
    else s
  | none => s

/-- The meaning of `LOP_SWITCH_AT`. -/
def execLopSwitchAt (port lane n : Nat) (s : State) : Host.Outcome State Fault Refusal :=
  run (decide (port < 64) && decide (lane < 9) && decide (n < 4096)) (lopSwitchAt port lane n s)

/-- The receiver's map changes; a visited lane that is now free is recalibrated, a restored one ends its
visit (R426, R428). -/
def switchRx (x : Port) (now : Nat) : Port :=
  match x.rxMove with
  | some m =>
    if m.stage = 4 ∧ seqLe m.atFseq x.rxSeq = true then
      { x with
        map := x.map.set m.lane m.target
        rxMove := none
        spareBusy := !m.restore
        rotActive := m.visit && !m.restore
        recalDeadline := if m.visit && !m.restore then some (now + sclk (2 ^ 21)) else none }
    else x
  | none => x

/-- The transmitter's map changes. -/
def switchTx (x : Port) : Port :=
  match x.txMove with
  | some m => if m.stage = 4 ∧ seqLe m.atFseq x.txSeq = true then { x with txMap := x.txMap.set m.lane m.target, txMove := none } else x
  | none => x

/-- The meaning of `LANE_MAP_SWITCH`. -/
def execLaneMapSwitch (port : Nat) (s : State) : Host.Outcome State Fault Refusal :=
  run (decide (port < 64)) (modPort port (fun x => switchTx (switchRx x s.now)) s)

/-- The meaning of `LOP_EMERGENCY`: the transmitter moves the lane at once and replays (R427). -/
def execLopEmergency (port lane fseq : Nat) (s : State) : Host.Outcome State Fault Refusal :=
  run (decide (port < 64) && decide (lane < 9) && decide (fseq < 4096))
    (if (s.port port).lst = 4 ∧ lane < 8 then replayFrom port fseq (txEmergency port lane s) else s)

/-! ## Rotation and recalibration (R428, R429) -/

/-- A port with a free spare that may start a visit. -/
def State.mayVisit (s : State) (port : Nat) : Bool :=
  let x := s.port port
  x.lst = 4 && s.linked port && portSpareOk (s.portRec port) && x.retired.isEmpty && !x.spareBusy && !x.rotActive
    && x.rxMove.isNone && x.replayReq.isNone && !x.freeLanes.isEmpty

/-- Visit the next physical lane: traffic moves to the spare first (R428). -/
def startVisit (port : Nat) (s : State) : State :=
  if !s.mayVisit port then s else
  let x := s.port port
  let l := x.rotNext
  let s := modPort port (fun x => { x with
    rotActive := true
    rotLane := l
    rotNext := (l + 1) % 9
    rotDeadline := some (s.now + sclk (2 ^ s.nodeParam 0x0209)) }) s
  match x.map.idxOf? l with
  | some k =>
    sendLop port 1 k 0 (modPort port (fun x => { x with
      rxMove := some { lane := k, target := x.freeLanes.getLast?.getD 8, stage := 1, visit := true } }) s)
  | none => modPort port (fun x => { x with recalDeadline := some (s.now + sclk (2 ^ 21)) }) s

/-- A rotation visit falls due (R428). -/
def rotationVisit (port : Nat) (s : State) : State :=
  match (s.port port).rotDeadline with
  | some d => if s.mayVisit port then startVisit port (carry d s) else s
  | none => s

/-- The meaning of `ROTATION_VISIT`. -/
def execRotationVisit (port : Nat) (s : State) : Host.Outcome State Fault Refusal :=
  run (decide (port < 64)) (rotationVisit port s)

/-- A lane's recalibration ends with its eye measured: retirement, a warning once per crossing, and the
restore of the lane (R428, R429). -/
def recalibrated (port w h : Nat) (s : State) : State :=
  let x := s.port port
  if x.lst ≠ 4 ∨ !x.rotActive ∨ x.recalDeadline = none ∨ x.rxMove ≠ none then s else
  let l := x.rotLane
  let low := decide (w < s.nodeParam 0x020A) || decide (h < s.nodeParam 0x020B)
  let dead := decide (w < s.nodeParam 0x020C) || decide (h < s.nodeParam 0x020D)
  let s := modPort port (fun x => { x with
    margin := aset x.margin l (w, h)
    recalDeadline := none
    warn := if low then (if x.warn.contains l then x.warn else x.warn ++ [l]) else x.warn.filter (· ≠ l) }) s
  if dead then
    logEvent 0x0704 port none [l, w, h] (modPort port (fun x => { x with
      retired := x.retired ++ [l], rotActive := false, rotDeadline := none }) s)
  else
    let s := if low && !x.warn.contains l then logEvent 0x0703 port none [l, w, h] s else s
    match (List.range 8).find? (fun k => k = l ∧ x.map.getD k k ≠ l) with
    | some k =>
      sendLop port 5 k 0 (modPort port (fun x => { x with
        rxMove := some { lane := k, target := l, stage := 1, visit := true, restore := true } }) s)
    | none => modPort port (fun x => { x with rotActive := false }) s

/-- The meaning of `RECALIBRATION_DONE`. -/
def execRecalibrationDone (port w h : Nat) (s : State) : Host.Outcome State Fault Refusal :=
  run (decide (port < 64) && decide (w < 1024) && decide (h < 256)) (recalibrated port w h s)

/-! ## Port control (`PRT_CTRL`) -/

def prtCtrl (port : Nat) : Nat := prtPage port + 0x14

/-- Fence a port: its link goes down and stays down (R398). -/
def fencePort (port cause : Nat) (s : State) : State :=
  let s := modPort port (fun x => { x with fence := { on := true, cause := cause } }) s
  if (s.port port).lst = 4 then leaveUp port 0 s
  else
    let s := modPort port (fun x => if x.lst = 5 then x else { x with lst := 0, deadline := none }) s
    if s.portRole port = 3 ∧ (s.port port).cxlUp then reroute port s else s

/-- The meaning of `PRT_FENCE`. -/
def execPrtFence (who : Who) (port : Nat) (s : State) : Host.Outcome State Fault Refusal :=
  run (who.wf && decide (port < 64)) (ctlWrite who (prtCtrl port) true (fencePort port (fenceCauseOf who)) s)

/-- The meaning of `PRT_UNFENCE`. -/
def execPrtUnfence (who : Who) (port : Nat) (s : State) : Host.Outcome State Fault Refusal :=
  run (who.wf && decide (port < 64)) (ctlWrite who (prtCtrl port) (liftsFence who)
    (modPort port (fun x => { x with fence := {} })) s)

/-- `UNRETIRE`: the retired lanes are usable again and rotation resumes; a lane whose traffic stayed on
the spare asks for its restore (R429). -/
def unretire (port : Nat) (s : State) : State :=
  let s := modPort port (fun x => { x with
    retired := []
    rotDeadline := if x.lst = 4 then some (s.now + sclk (2 ^ s.nodeParam 0x0209)) else none }) s
  let x := s.port port
  match (List.range 8).find? (fun k => x.map.getD k k ≠ k ∧ !x.lost.contains k) with
  | some k =>
    if x.lst = 4 ∧ x.rxMove = none then
      sendLop port 5 k 0 (modPort port (fun x => { x with rxMove := some { lane := k, target := k, stage := 1, restore := true } }) s)
    else s
  | none => s

/-- The meaning of `PRT_UNRETIRE`. -/
def execPrtUnretire (who : Who) (port : Nat) (s : State) : Host.Outcome State Fault Refusal :=
  run (who.wf && decide (port < 64)) (ctlWrite who (prtCtrl port) (who = .control) (unretire port) s)

/-- The meaning of `ROT_NOW`. -/
def execRotNow (who : Who) (port : Nat) (s : State) : Host.Outcome State Fault Refusal :=
  run (who.wf && decide (port < 64)) (ctlWrite who (prtCtrl port) true (startVisit port) s)

/-- The meaning of `RETRAIN`: the port returns to `DOWN`. -/
def execRetrain (who : Who) (port : Nat) (s : State) : Host.Outcome State Fault Refusal :=
  run (who.wf && decide (port < 64)) (ctlWrite who (prtCtrl port) true (fun s =>
    if (s.port port).lst = 4 then leaveUp port 0 s
    else modPort port (fun x => if x.lst = 5 then x else { x with lst := 0, deadline := none }) s) s)

/-! ## CXL edge ports (R433 to R436) -/

def State.ldRec? (s : State) (port ld : Nat) : Option LdRec :=
  (ldRecs (s.nodeBody tyPORTS)).find? (fun r => r.port = port ∧ r.ld = ld)

/-- The fabric address a device physical address maps to: node and offset (R433). -/
def ldTarget (r : LdRec) (dpa : Nat) : Option (Nat × Nat) :=
  (r.windows.find? (fun w => w.2.2 ≠ 0 ∧ w.1 * 2 ^ 30 ≤ dpa ∧ dpa < (w.1 + w.2.2) * 2 ^ 30)).map (fun w =>
    let a := w.2.1 * 2 ^ 30 + (dpa - w.1 * 2 ^ 30)
    (a / 2 ^ 48 % 65536, a % 2 ^ 48))

/-- A CXL request that cannot complete: an event record, `LNK_CXL_ERR`, and poisoned data or a plain
completion (R435). -/
def cxlFail (port ld tag dpa status : Nat) (write : Bool) (s : State) : State :=
  let s := modPort port (fun x => { x with ldEvents := x.ldEvents ++ [{ ld := ld, status := status, dpa := dpa }] }) s
  let g := (s.ldRec? port ld).map (·.saggar)
  let s := logEvent 0x0705 port g [ld, status, dpa] s
  emit (.cxl port ld tag (if write then [] else zeros 64) (!write)) s

/-- Forward a CXL request into the fabric under the LD's saggar and node (R434). A coherent read enters
the port's snoop filter, which evicts its oldest grain when full (R376). -/
def cxlForward (port : Nat) (r : LdRec) (q : CxlWait) (node off : Nat) (s : State) : State :=
  let t := s.nextTag
  let tr := match q.data with | some d => trailerOf off d | none => []
  let op := if q.data.isSome then opWRITE else opREAD
  let p : Packet :=
    { dst := node, opcode := op, saggar := r.saggar, offset := off, cls := 1, length := 64, payload := q.data.getD [], trailer := tr }
  let s := issue (.edge port) p s
  let mine := fun (q : Packet) => { q with src := r.endpoint }
  let s := { s with fab := { s.fab with
    outst := s.fab.outst.map (fun q => if q.pkt.tag = t then { q with pkt := mine q.pkt } else q)
    tx := s.fab.tx.map (fun q => if q.tag = t ∧ q.dst = node then stampPkt (mine q) else q) } }
  let s := modPort port (fun x => { x with cxlReqs := x.cxlReqs ++ [{ ld := q.ld, hostTag := q.hostTag, dpa := q.dpa, write := q.data.isSome, tag := t }] }) s
  if q.data.isSome || s.domainsOfAgent r.endpoint = [] then s
  else
    let l := aget s.coh.snoop port []
    let k := (node, off / 256 * 256)
    if l.contains k then s
    else
      let s := match l with
        | o :: _ => if 65536 ≤ l.length then biSnoop port o.1 o.2 s else s
        | [] => s
      { s with coh := { s.coh with snoop := amod s.coh.snoop port [] (fun l => l ++ [k]) } }

/-- The fabric address of a CXL request. -/
def State.cxlTarget (s : State) (port : Nat) (q : CxlWait) : Option (LdRec × Nat × Nat) :=
  match s.ldRec? port q.ld with
  | none => none
  | some r => (ldTarget r q.dpa).map (fun t => (r, t))

/-- Where a CXL request may go now: the port is below its limit, its grain has no unanswered write, and no earlier
request that waits is to the same grain (R342, R358). -/
def State.cxlReady (s : State) (port : Nat) (before : List CxlWait) (q : CxlWait) : Option (LdRec × Nat × Nat) :=
  match s.cxlTarget port q with
  | none => none
  | some (r, node, off) =>
    if s.maySend (.edge port) node r.saggar && !s.grainHeld (.edge port) node off
        && !before.any (fun b => match s.cxlTarget port b with | some (_, n, o) => n = node && o / 256 = off / 256 | none => false)
    then some (r, node, off) else none

/-- The waiting request served next: of those that may go, one of the LD that comes first after the one served last. -/
def State.cxlNext (s : State) (port : Nat) : Option (CxlWait × LdRec × Nat × Nat) :=
  let x := s.port port
  let able := (List.range x.cxlWait.length).filterMap (fun i =>
    let q := x.cxlWait.getD i {}
    (s.cxlReady port (x.cxlWait.take i) q).map (fun t => (q, t)))
  (List.range 16).findSome? (fun k => able.find? (fun a => a.1.ld = (x.cxlTurn + 1 + k) % 16))

/-- Send the CXL requests that waited, the LDs in turn (R434). -/
def pumpCxl (port : Nat) : Nat → State → State
  | 0, s => s
  | n + 1, s =>
    match s.cxlNext port with
    | none => s
    | some (q, r, node, off) =>
      pumpCxl port n (cxlForward port r q node off (modPort port (fun x => { x with cxlWait := x.cxlWait.erase q, cxlTurn := q.ld }) s))

/-- A CXL request arrives: outside every window it fails; else it is forwarded, at once or in its turn. -/
def cxlRequest (port ld dpa tag : Nat) (data : Option (List Byte)) (s : State) : State :=
  if !(s.port port).cxlUp ∨ (s.port port).fence.on then s else
  match s.ldRec? port ld with
  | none => s
  | some r =>
    match ldTarget r dpa with
    | none => cxlFail port ld tag dpa Status.denied.code data.isSome s
    | some (node, off) =>
      let q : CxlWait := { ld := ld, hostTag := tag, dpa := dpa, data := data }
      if (s.cxlReady port (s.port port).cxlWait q).isSome then cxlForward port r q node off (modPort port (fun x => { x with cxlTurn := ld }) s)
      else modPort port (fun x => { x with cxlWait := x.cxlWait ++ [q] }) s

/-- The meaning of `MEMRD`. -/
def execMemrd (port ld dpa tag : Nat) (s : State) : Host.Outcome State Fault Refusal :=
  run (decide (port < 64) && decide (ld < 16) && decide (dpa < 2 ^ 48) && decide (tag < 65536)) (cxlRequest port ld dpa tag none s)

/-- The meaning of `MEMWR`. -/
def execMemwr (port ld dpa tag : Nat) (data : List Byte) (s : State) : Host.Outcome State Fault Refusal :=
  run (decide (port < 64) && decide (ld < 16) && decide (dpa < 2 ^ 48) && decide (tag < 65536)) (cxlRequest port ld dpa tag (some (fit data 64)) s)

/-- A CXL request has ended: data or completion to the host, or the failure of R435; what waited for its place goes
on. -/
def cxlDone (port : Nat) (r : Req) (code : Nat) (data : List Byte) (s : State) : State :=
  match (s.port port).cxlReqs.find? (fun q => q.tag = r.pkt.tag) with
  | none => s
  | some q =>
    let s := modPort port (fun x => { x with cxlReqs := x.cxlReqs.erase q }) s
    let s := if code = Status.ok.code ∨ code = Status.okSuperseded.code ∨ code = Status.overflow.code then
        emit (.cxl port q.ld q.hostTag data false) s
      else cxlFail port q.ld q.hostTag q.dpa code q.write s
    pumpCxl port (s.port port).cxlWait.length s

/-- Endpoint nodes behind an `EDGE_C` port. -/
def State.hostsOf (s : State) (port : Nat) : List Nat := ((ldRecs (s.nodeBody tyPORTS)).filter (fun r => r.port = port)).map (·.endpoint)

/-- A CXL link goes down: its hosts' domains are fenced with cause 0x3, its requests end (R436). -/
def cxlLost (port : Nat) (s : State) : State :=
  if s.portRole port ≠ 3 ∨ !(s.port port).cxlUp then s else
  let s := modPort port (fun x => { x with cxlUp := false, cxlRate := 0, width := 0, cxlReqs := [], cxlWait := [], lst := 0 }) (bumpSat (satPrtLinkDown port) s)
  let s := fenceAgents (s.hostsOf port) s
  reroute port { s with coh := { s.coh with snoop := aerase s.coh.snoop port } }

/-- The meaning of `CXL_LINK_DOWN`. -/
def execCxlLinkDown (port : Nat) (s : State) : Host.Outcome State Fault Refusal :=
  run (decide (port < 64)) (cxlLost port s)

/-- A CXL link has trained: below 32 GT/s it stays down (R436). -/
def cxlUp (port gtps width : Nat) (s : State) : State :=
  if s.portRole port = 3 ∧ 32 ≤ gtps ∧ !(s.port port).fence.on ∧ (width = 1 ∨ width = 2 ∨ width = 4 ∨ width = 8) then
    modPort port (fun x => { x with cxlUp := true, cxlRate := gtps, width := width, lst := 4 }) s
  else s

/-- The meaning of `CXL_LINK_UP`. -/
def execCxlLinkUp (port gtps width : Nat) (s : State) : Host.Outcome State Fault Refusal :=
  run (decide (port < 64) && decide (gtps < 65) && decide (width < 17)) (cxlUp port gtps width s)

/-! ## Optical modules (R437) -/

/-- One monitor reading: a warning within `OPT_MARGIN` of the module's threshold, an alarm for its flag. -/
def moduleReading (r : ModuleReading) (s : State) : State :=
  let s := if r.margin ≤ s.nodeParam 0x020E then logEvent 0x0706 r.port none [r.monitor, r.value] s else s
  if r.alarm then logEvent 0x0707 r.port none [r.monitor, r.value] s else s

/-- The meaning of `MODULE_POLL`: polling stops while the management controller restarts (R22). -/
def execModulePoll (readings : List ModuleReading) (s : State) : Host.Outcome State Fault Refusal :=
  run (readings.all (fun r => decide (r.port < 64))) (if s.arch.mp = .run then forEach readings moduleReading s else s)

/-- The meaning of `MODULE_REMOVAL`: the module's link goes down (R437). -/
def execModuleRemoval (port : Nat) (s : State) : Host.Outcome State Fault Refusal :=
  run (decide (port < 64))
    (if s.portRole port = 3 then cxlLost port s
     else if (s.port port).lst = 4 then leaveUp port 0 s
     else if (s.port port).lst = 5 then s
     else modPort port (fun x => { x with lst := 0, deadline := none }) s)

end Sys2Proof.Machine
end

