-- ==== Sys2Proof/Machine/Sieve.lean ====
section
/-! DEFINITION. Sieve: indexes, queries, inserts, deletes, merges and the engines' fences (chapter 11, R313
to R325). -/

namespace Sys2Proof.Machine

def setSiv (f : Siv → Siv) (s : State) : State := { s with siv := f s.siv }

def State.sivFence (s : State) (e : Nat) : FenceSt := aget s.siv.unit e { on := true, cause := 2 }
def State.sivUnits (s : State) : List Nat := (List.range 8).filter (fun e => !(s.sivFence e).on)
def State.sivQueued (s : State) (e : Nat) : Nat := countIf s.siv.reqs (fun r => r.engine = some e)

/-- The engine a query goes to. -/
def State.sivPick (s : State) : Option Nat :=
  s.sivUnits.foldl (fun best e => match best with
    | none => some e
    | some b => if s.sivQueued e < s.sivQueued b then some e else some b) none

/-! ## Indexes (R313, R314) -/

/-- The bytes of an image as it stands; nothing where they cannot be read. -/
def State.imageBytes (s : State) (r : Region) (off len : Nat) : List Byte :=
  match readRegion r none off len s with
  | (.data b, _) => b
  | _ => []

/-- Read runs of a region in order: all of them, or what the first that fails gives. -/
def readRuns (r : Region) : List (Nat × Nat) → State → ReadResult × State
  | [], s => (.data [], s)
  | (off, len) :: rest, s =>
    if len = 0 then readRuns r rest s else
    match readRegion r none off len s with
    | (.data b, s) =>
      match readRuns r rest s with
      | (.data b', s) => (.data (b ++ b'), s)
      | e => e
    | e => e

/-- The index image header. -/
structure SivHdr where
  magicOk : Bool := false
  metric : Nat := 0
  m : Nat := 1
  dim : Nat := 8
  c : Nat := 1
  itemMax : Nat := 0
  cent : Nat := 0
  cb : Nat := 0
  dir : Nat := 0
  deriving DecidableEq, Repr

def sivHdr (b : List Byte) : SivHdr :=
  { magicOk := le b 0 4 = 0x58564953 && le b 4 1 = 1, metric := le b 5 1, m := le b 6 1, dim := le b 8 2, c := le b 12 4,
    itemMax := le b 16 4, cent := le b 24 8, cb := le b 32 8, dir := le b 40 8 }

/-- Bytes of a list entry. -/
def SivHdr.entry (h : SivHdr) : Nat := 4 * ceilDiv (20 + h.m) 4

/-- The record of an index in the `SIEVE` section: image region and side region. -/
def State.sivCfg (s : State) (g i : Nat) : Option (Nat × Nat) :=
  let b := s.sagBody tySIEVE g
  ((List.range (b.length / 16)).find? (fun k => bits (le b (16 * k) 8) 0 6 = i)).map (fun k => (le b (16 * k + 4) 4, le b (16 * k + 8) 4))

/-- The index of a saggar homed here: kept while its section record stands, else as the record starts it. -/
def State.sivIndex (s : State) (g i : Nat) : Option SivIndex :=
  match s.sivCfg g i with
  | none => none
  | some (im, sd) =>
    match afind s.tie.regions im with
    | none => none
    | some r =>
      if r.saggar ≠ g then none else
      match afind s.siv.index (g, i) with
      | some x => if x.cfgImage = im ∧ x.side = sd then some x else some { cfgImage := im, side := sd, image := im }
      | none => some { cfgImage := im, side := sd, image := im }

def putIndex (g i : Nat) (x : SivIndex) (s : State) : State := setSiv (fun q => { q with index := aset q.index (g, i) x }) s

/-- The header of an image region as it stands in its pages. -/
def State.sivHeader (s : State) (image : Nat) : SivHdr :=
  match readRegion (s.region image) none 0 64 s with
  | (.data b, _) => sivHdr b
  | _ => {}

/-- Delete generations held by running queries and a merge of an index. -/
def State.heldGens (s : State) (g i : Nat) (x : SivIndex) : List Nat :=
  (s.siv.reqs.filter (fun r => r.call.saggar = g && r.index = i)).map (·.g) ++ (match x.merge with | some m => [m.gm] | none => [])

/-- The delete log without the entries no running query needs (R323). -/
def State.trimLog (s : State) (g i : Nat) (x : SivIndex) : SivIndex :=
  { x with log := x.log.filter (fun e => (s.heldGens g i x).any (fun h => decide (h < e.2))) }

/-- Whether an item is deleted for a snapshot generation (R317). -/
def SivIndex.deleted (x : SivIndex) (item g : Nat) : Bool :=
  x.tomb.contains item && !x.log.any (fun e => e.1 = item && decide (g < e.2))

/-! ## Queries (R315 to R321) -/

/-- Reserved bits of a query header. -/
def sivRsvOk (b : List Byte) : Bool :=
  let w := le b 0 8
  bits w 14 2 = 0 && bits w 25 7 = 0 && bits w 43 21 = 0 && (sub b 48 16).all (· = 0)

/-- Rows 1 to 6 of R316; else the index. -/
def State.sivRefusal (s : State) (p : Packet) : Except (Status × Nat) SivIndex :=
  let b := p.payload
  let i := bits (le b 0 8) 8 6
  if !s.fitted capSIV then .error (.unitAbsent, 0)
  else if s.sagConf p.saggar then .error (.denied, 0)
  else match s.sivIndex p.saggar i with
    | none => .error (.denied, 0)
    | some x =>
      let h := s.sivHeader x.image
      if s.compFenced (s.region x.cfgImage).comp then .error (.nackFenced, 0)
      else if s.epochCheck p = .stale then .error (.nackStaleEpoch, 0)
      else if s.epochCheck p = .notReady then .error (.nackRetry, 10)
      else
        let np := bits (le b 0 8) 16 9
        let k := bits (le b 0 8) 32 11
        if !sivRsvOk b || le b 0 1 ≠ 1 || !h.magicOk || !trainLenOk b (64 + h.dim) || np = 0 || decide (256 < np) || decide (h.c < np)
            || k = 0 || decide (1024 < k) then .error (.denied, 0)
        else if s.sagParam p.saggar 0x0307 ≤ countIf s.siv.reqs (fun r => r.call.saggar = p.saggar) then .error (.nackRetry, 12)
        else if s.sivUnits.isEmpty then .error (.nackRetry, 14)
        else .ok x

/-- `SIEVE_QUERY`: checked and bound to a snapshot. -/
def sieveQuery (p : Packet) (s : State) : State :=
  let s := take p s
  match s.sivRefusal p with
  | .error (st, h) => reply p st h [] (if s.fitted capSIV then bumpSat (satSivRefused (s.sivPick.getD 0)) s else s)
  | .ok x =>
    setSiv (fun q => { q with
      nextReq := q.nextReq + 1
      reqs := q.reqs ++ [{ id := q.nextReq, call := p, engine := s.sivPick, index := bits (le p.payload 0 8) 8 6, image := x.image,
                           version := x.version, floor := x.floor, s := x.insSeq, g := x.delGen }] }) s

/-- The meaning of `SIEVE_QUERY`. -/
def execSieveQuery (p : Packet) (s : State) : Host.Outcome State Fault Refusal :=
  run (p.wf) (reassemble p sieveQuery s)

/-- The signed bytes of a vector. -/
def int8s (b : List Byte) : List Int := b.map (fun x => signedW 8 x.toNat)

def sumInt (l : List Int) : Int := l.foldl (· + ·) 0

/-- Distance terms of two vectors: squared difference, or the negated product. -/
def distance (metric : Nat) (q c : List Int) : Int :=
  if metric = 0 then sumInt (List.zipWith (fun a b => (a - b) * (a - b)) q c)
  else -(sumInt (List.zipWith (fun a b => a * b) q c))

/-- Centroid k. An image is given by what it holds at an offset. -/
def centroid (h : SivHdr) (img : Nat → Nat → List Byte) (k : Nat) : List Int := int8s (img (h.cent + k * h.dim) h.dim)

/-- The lists to scan: the `np` nearest centroids, ties to the lower number (R318). -/
def probeLists (h : SivHdr) (img : Nat → Nat → List Byte) (q : List Int) (np : Nat) : List (Int × Nat) :=
  (sortBy (fun a b => decide (a.1 < b.1)) ((List.range h.c).map (fun k => (distance h.metric q (centroid h img k), k)))).take np

/-- The distance of an entry's codes in list `k` (R319). -/
def entryDistance (h : SivHdr) (img : Nat → Nat → List Byte) (q : List Int) (k : Nat) (coarse : Int) (codes : List Byte) : Int :=
  let n := h.dim / h.m
  let cen := centroid h img k
  let part := fun (m : Nat) =>
    let x := (codes.getD m 0).toNat
    let cw := int8s (img (h.cb + (m * 256 + x) * n) n)
    let qs := (q.drop (m * n)).take n
    if h.metric = 0 then distance 0 (List.zipWith (· - ·) qs ((cen.drop (m * n)).take n)) cw
    else distance 1 qs cw
  let t := sumInt ((List.range h.m).map part)
  if h.metric = 0 then t else t + coarse

/-- The filter of R320. -/
def passes (q : List Byte) (e : List Byte) : Bool :=
  let attr := le e 4 8
  let n0 := signedW 32 (le e 12 4)
  let n1 := signedW 32 (le e 16 4)
  let all := le q 8 8
  let any := le q 16 8
  (attr &&& all = all) && (any = 0 || attr &&& any ≠ 0) && (attr &&& le q 24 8 = 0)
    && decide (signedW 32 (le q 32 4) ≤ n0 ∧ n0 ≤ signedW 32 (le q 36 4) ∧ signedW 32 (le q 40 4) ≤ n1 ∧ n1 ≤ signedW 32 (le q 44 4))

/-- Where list k lies in an image: its first byte and its entries. -/
def listAt (h : SivHdr) (img : Nat → Nat → List Byte) (k : Nat) : Nat × Nat :=
  (bits (le (img (h.dir + 16 * k) 8) 0 8) 0 48, le (img (h.dir + 16 * k + 8) 4) 0 4)

/-- Entry bytes of list k in an image. -/
def baseEntries (h : SivHdr) (img : Nat → Nat → List Byte) (k : Nat) : List (List Byte) :=
  (List.range (listAt h img k).2).map (fun i => img ((listAt h img k).1 + i * h.entry) h.entry)

/-- Side entries of list k a snapshot sees (R317). -/
def SivIndex.visible (x : SivIndex) (k floor s : Nat) : List (List Byte) :=
  (x.sides.filter (fun e => e.list = k && decide (floor < e.seq ∧ e.seq ≤ s))).map (·.bytes)

/-- A result: distance, item, list. -/
def hitLt (a b : Int × Nat × Nat) : Bool :=
  decide (a.1 < b.1) || (decide (a.1 = b.1) && (decide (a.2.1 < b.2.1) || (a.2.1 = b.2.1 && decide (a.2.2 < b.2.2))))

/-- The result of a query over an image and an index: lists scanned, entries examined, and the hits in
order (R320, R321). -/
def runQuery (h : SivHdr) (img : Nat → Nat → List Byte) (x : SivIndex) (r : SivReq) : Nat × Nat × List (Int × Nat × Nat) :=
  let b := r.call.payload
  let q := int8s (sub b 64 h.dim)
  let lists := probeLists h img q (bits (le b 0 8) 16 9)
  let es := lists.map (fun c => (c, baseEntries h img c.2 ++ x.visible c.2 r.floor r.s))
  let hits := es.flatMap (fun p => (p.2.filter (fun e => passes b e && !x.deleted (le e 0 4) r.g)).map (fun e =>
    (entryDistance h img q p.1.2 p.1.1 (e.drop 20), le e 0 4, p.1.2)))
  (lists.length, (es.map (fun p => p.2.length)).foldl (· + ·) 0, (sortBy hitLt hits).take (bits (le b 0 8) 32 11))

/-- What every query reads of an image: header, centroids, codebooks and directory. -/
def headRuns (h : SivHdr) : List (Nat × Nat) := [(0, 64), (h.cent, h.c * h.dim), (h.cb, 256 * h.dim), (h.dir, 16 * h.c)]

/-- The lists a query scans, as runs of the image. -/
def listRuns (h : SivHdr) (img : Nat → Nat → List Byte) (b : List Byte) : List (Nat × Nat) :=
  (probeLists h img (int8s (sub b 64 h.dim)) (bits (le b 0 8) 16 9)).map (fun c => ((listAt h img c.2).1, (listAt h img c.2).2 * h.entry))

/-- Read what a query needs: the head, then the lists it scans. -/
def readQuery (im : Region) (b : List Byte) (s : State) : ReadResult × State :=
  let h := s.sivHeader im.id
  match readRuns im (headRuns h) s with
  | (.data _, s) => readRuns im (listRuns h (s.imageBytes im) b) s
  | e => e

/-- Whether some grain of a region is poisoned. -/
def State.anyPoison (s : State) (r : Region) : Bool :=
  !r.lostPages.isEmpty || r.working.any (fun p => match s.servingFrame p.2 with
    | some id => (List.range 256).any (fun g => s.grainPoisoned id g || !s.grainOk r id g)
    | none => false)

/-- Head and records of a query's reply (R321). -/
def queryReply (r : SivReq) (x : Nat × Nat × List (Int × Nat × Nat)) : List Byte :=
  natLe r.version 4 ++ natLe x.1 2 ++ natLe x.2.2.length 2 ++ natLe x.2.1 8 ++ natLe r.s 8 ++ natLe r.g 8
    ++ x.2.2.flatMap (fun e => natLe e.2.1 4 ++ natLe e.2.2 2 ++ zeros 2 ++ natLe (unsignedW 64 e.1) 8)

/-- A query finishes; it waits while pages of the image come from the flash. -/
def queryDone (id : Nat) (s : State) : State :=
  match s.siv.reqs.find? (fun r => r.id = id) with
  | none => s
  | some r =>
    match r.engine, s.sivIndex r.call.saggar r.index with
    | some e, some x =>
      let im := s.region r.image
      match readQuery im r.call.payload s with
      | (.waits, s) => s
      | (.retry _, s) => s
      | (res, s) =>
        let s := setSiv (fun q => { q with reqs := q.reqs.filter (fun y => y.id ≠ id) }) s
        match res with
        | .data _ =>
          if s.anyPoison (s.region x.side) then reply r.call .poison 0 (queryReply r (0, 0, [])) (bumpSat (satSivPoison e) s)
          else reply r.call .ok 0 (queryReply r (runQuery (s.sivHeader r.image) (s.imageBytes im) x r)) s
        | _ => reply r.call .poison 0 (queryReply r (0, 0, [])) (bumpSat (satSivPoison e) s)
    | _, _ => s

/-- The meaning of `SIEVE_QUERY_DONE`. -/
def execSieveQueryDone (id : Nat) (s : State) : Host.Outcome State Fault Refusal :=
  run (decide (id < 2 ^ 32)) (queryDone id s)

/-! ## Inserts and deletes (R322) -/

/-- Serve a Sieve procedure on an index homed here. -/
def serveSieve (p : Packet) (proc : Nat) (f : SivIndex → Nat → SivHdr → State → State) (s : State) : State :=
  serveProc p proc (fun s =>
    let i := le (callArgs p) 0 1
    if s.sagConf p.saggar then reply p .denied 0 [] s
    else if s.sivUnits.isEmpty then reply p .nackRetry 14 [] s
    else match s.sivIndex p.saggar i with
      | none => reply p .denied 0 [] s
      | some x => f x i (s.sivHeader x.image) s) s

/-- Live entries of a side list: above the merge floor. -/
def SivIndex.liveSide (x : SivIndex) (k : Nat) : Nat := countIf x.sides (fun e => e.list = k && decide (x.floor < e.seq))

/-- The meaning of `SIEVE_INSERT`. -/
def execSieveInsert (p : Packet) (s : State) : Host.Outcome State Fault Refusal :=
  run (p.wf) (serveSieve p 0xFFC (fun x i h s =>
    let a := callArgs p
    let k := le a 2 2
    let item := le a 4 4
    if a.length ≠ 24 + h.m ∨ h.itemMax ≤ item ∨ x.tomb.contains item ∨ h.c ≤ k then reply p .denied 0 [] s
    else if s.sagParam p.saggar 0x0308 ≤ x.liveSide k then reply p .nackRetry 14 [] s
    else
      let n := x.insSeq + 1
      reply p .ok 0 (rptResult 0 (natLe n 8))
        (putIndex p.saggar i { x with insSeq := n, sides := x.sides ++ [{ list := k, seq := n, bytes := fit (a.drop 4) h.entry }] } s)) s)

/-- The meaning of `SIEVE_DELETE`. -/
def execSieveDelete (p : Packet) (s : State) : Host.Outcome State Fault Refusal :=
  run (p.wf) (serveSieve p 0xFFD (fun x i h s =>
    let a := callArgs p
    let item := le a 4 4
    let x := s.trimLog p.saggar i x
    if a.length < 8 ∨ h.itemMax ≤ item then reply p .denied 0 [] s
    else if x.tomb.contains item then reply p .ok 0 (rptResult 0 (natLe x.delGen 8)) s
    else if s.sagParam p.saggar 0x0309 ≤ x.log.length then reply p .nackRetry 14 [] s
    else
      let n := x.delGen + 1
      reply p .ok 0 (rptResult 0 (natLe n 8))
        (putIndex p.saggar i { x with delGen := n, tomb := x.tomb ++ [item], log := x.log ++ [(item, n)] } s)) s)

/-! ## Merge (R323) -/

/-- The lists of a merged image: base entries then side entries at or below S_m, without items deleted at or
below G_m. -/
def mergedLists (h : SivHdr) (img : Nat → Nat → List Byte) (x : SivIndex) (m : SivMerge) : List (List (List Byte)) :=
  (List.range h.c).map (fun k =>
    (baseEntries h img k ++ x.visible k x.floor m.sm).filter (fun e => !x.deleted (le e 0 4) m.gm))

/-- Where the lists of a merged image start. DESIGN CHOICE: after the parts the header places, which keep
their places. -/
def mergedStart (h : SivHdr) : Nat := max (max 64 (h.cent + h.c * h.dim)) (max (h.cb + 256 * h.dim) (h.dir + 16 * h.c))

/-- The bytes of a merged image. -/
def mergedImage (h : SivHdr) (img : Nat → Nat → List Byte) (ls : List (List (List Byte))) : List Byte :=
  let start := mergedStart h
  let head := fit (img 0 start) start
  let r := ls.foldl (fun (st : Nat × List Byte) l =>
    (st.1 + l.length * h.entry, st.2 ++ natLe st.1 8 ++ natLe l.length 8)) (start, [])
  overlay head h.dir r.2 ++ ls.flatMap (fun l => l.flatMap id)

/-- The meaning of `SIEVE_MERGE`: the snapshot is taken and the new version answered. -/
def execSieveMerge (p : Packet) (s : State) : Host.Outcome State Fault Refusal :=
  run (p.wf) (serveSieve p 0xFFE (fun x i h s =>
    let a := callArgs p
    let target := le a 4 4
    let m : SivMerge := { target := target, sm := x.insSeq, gm := x.delGen }
    let need := mergedStart h + ((mergedLists h (s.imageBytes (s.region x.image)) x m).map (fun l => l.length * h.entry)).foldl (· + ·) 0
    let ok := match afind s.tie.regions target with
      | some r => r.immutable && !r.sealed_ && r.saggar = p.saggar && target ≠ x.image && decide (need ≤ r.size)
      | none => false
    if a.length < 8 ∨ !ok then reply p .denied 0 [] s
    else if x.merge.isSome then reply p .nackRetry 14 [] s
    else reply p .ok 0 (rptResult 0 (natLe (x.version + 1) 4)) (putIndex p.saggar i { x with merge := some m } s)) s)

/-- The switch: the target is written, sealed and becomes the image. It waits while pages or frames are
wanting. -/
def mergeSwitch (g i : Nat) (s : State) : State :=
  match s.sivIndex g i with
  | none => s
  | some x =>
    match x.merge with
    | none => s
    | some m =>
      if m.switched then s else
      match readRegion (s.region x.image) none 0 (s.region x.image).size s with
      | (.data img, s1) =>
        let h := sivHdr img
        match writeRegion (s1.region m.target) 0 (mergedImage h (sub img) (mergedLists h (sub img) x m)) s1 with
        | (.done, s2) =>
          let s2 := sealRegion (s2.region m.target) (s2.contentDigest (s2.region m.target)) s2
          putIndex g i { x with image := m.target, version := x.version + 1, floor := m.sm, merge := some { m with switched := true } } s2
        | (_, s2) => { s with tie := { s.tie with queue := s2.tie.queue } }
      | (_, s1) => s1

/-- The meaning of `SIEVE_MERGE_SWITCH`. -/
def execSieveMergeSwitch (g i : Nat) (s : State) : Host.Outcome State Fault Refusal :=
  run (decide (g < 64) && decide (i < 64)) (mergeSwitch g i s)

/-- Once no query of the old version runs, merged side entries and the tombstones of items left out go. -/
def mergeCleanup (g i : Nat) (s : State) : State :=
  match s.sivIndex g i with
  | none => s
  | some x =>
    match x.merge with
    | none => s
    | some m =>
      if !m.switched ∨ s.siv.reqs.any (fun r => r.call.saggar = g && r.index = i && decide (r.version < x.version)) = true then s else
      putIndex g i { x with sides := x.sides.filter (fun e => decide (m.sm < e.seq))
                            tomb := x.tomb.filter (fun t => !x.deleted t m.gm), merge := none } s

/-- The meaning of `SIEVE_MERGE_CLEANUP`. -/
def execSieveMergeCleanup (g i : Nat) (s : State) : Host.Outcome State Fault Refusal :=
  run (decide (g < 64) && decide (i < 64)) (mergeCleanup g i s)

/-! ## Fences (R325) -/

/-- Give queries without an engine to one. -/
def rehomeSieve (s : State) : State :=
  forEach (s.siv.reqs.filter (fun r => r.engine.isNone)) (fun r s =>
    setSiv (fun q => { q with reqs := q.reqs.map (fun x => if x.id = r.id then { x with engine := s.sivPick } else x) }) s) s

/-- Fence an engine: its queries restart on another with the same snapshot. -/
def fenceSieve (e cause : Nat) (s : State) : State :=
  rehomeSieve (setSiv (fun q => { q with
    unit := aset q.unit e { on := true, cause := cause }
    reqs := q.reqs.map (fun r => if r.engine = some e then { r with engine := none } else r) }) s)

def sivCtrl (e : Nat) : Nat := sivPage e + 8

/-- The meaning of `SIV_FENCE`. -/
def execSivFence (who : Who) (e : Nat) (s : State) : Host.Outcome State Fault Refusal :=
  run (who.wf && decide (e < 8)) (ctlWrite who (sivCtrl e) true (fenceSieve e (fenceCauseOf who)) s)

/-- The meaning of `SIV_UNFENCE`. -/
def execSivUnfence (who : Who) (e : Nat) (s : State) : Host.Outcome State Fault Refusal :=
  run (who.wf && decide (e < 8)) (ctlWrite who (sivCtrl e) (liftsFence who)
    (fun s => rehomeSieve (setSiv (fun q => { q with unit := aset q.unit e {} }) s)) s)

end Sys2Proof.Machine
end

