-- ==== Sys2Proof/Machine/CsrRead.lean ====
section
/-! DEFINITION. What a read of every register of the CSR space returns: the 32-bit registers block by
block, the 64-bit counters, and the latches of counters, Witness mirror values and log slots (R29, R30,
R497, R498, R512, R555, R560). -/

namespace Sys2Proof.Machine

/-- The fence fields every unit's state register begins with: `FENCED` [31], `FENCE_CAUSE` [30:28]. -/
def FenceSt.word (f : FenceSt) : Nat := b2n f.on * 2 ^ 31 + f.cause % 8 * 2 ^ 28

/-- Two SAT halves of the register at an address. -/
def State.satWord (s : State) (a : Nat) : Nat := s.satVal (a, 16) * 2 ^ 16 + s.satVal (a, 0)

/-- The `OWNER` field, and the bit that says a saggar owns the unit. -/
def ownerBits (o : Option Nat) (assignedBit : Nat) : Nat :=
  match o with
  | some g => g * 2 ^ 22 + 2 ^ assignedBit
  | none => 0

def State.trmOf (s : State) (t : Nat) : Trm := aget s.trm t {}

/-- Some data-plane unit is fenced while the die is up (`PLANE_STATE.DP_FENCED_ANY`). -/
def State.dpFencedAny (s : State) : Bool :=
  s.log.up && ((List.range s.variant.arrays).any (fun a => (s.arr a).fence.on)
    || (List.range s.variant.trimmers).any (fun t => (s.trmOf t).fence.on)
    || (List.range 16).any (fun u => (s.pugFence u).on) || (List.range 8).any (fun e => (s.gthFence e).on)
    || (s.fitted capSIV && (List.range 8).any (fun e => (s.sivFence e).on)) || (List.range 8).any (fun e => (s.engine e).fence.on)
    || (List.range 16).any (fun c => (s.ddr c).fence.on) || (List.range s.variant.stacks).any (fun k => (s.hbm k).fence.on)
    || (List.range s.variant.stacks).any (fun k => !(s.hbm k).pcFenced.isEmpty) || (List.range 64).any (fun p => (s.port p).fence.on)
    || (s.fitted capFLM && ((List.range 32).any (fun c => (aget s.flm.ch c {}).fence.on) || s.flm.dies.any (fun d => d.2.fenced))))

def PlaneRun.code : PlaneRun → Nat
  | .off => 0 | .boot => 1 | .run => 2 | .restart => 3

/-! ## Package (MGT, CLK, PMC) -/

/-- The conditions of `MGT_ALERT`; `ALERT_N` is low while any is set (R568). -/
def State.alertWord (s : State) : Nat :=
  b2n (s.pkg.st = 6) * 64 + b2n s.pkg.railFault * 32
    + b2n (s.pkg.rails.any (fun r => r.2.ocWarn || r.2.otWarn)) * 16 + b2n s.pkg.holdover * 8
    + b2n s.pkg.selB * 4 + b2n (decide (0 < s.pkg.cap)) * 2 + b2n (s.pkg.therm.any (fun d => decide (0 < d.2.skip)))

/-- The `ALERT_N` pin, true while high. -/
def State.alertN (s : State) : Bool := s.alertWord = 0

/-- `PMC_LIMIT.PKG_LIMIT`. -/
def State.pkgLimit (s : State) : Nat := s.pkg.limit.getD s.variant.maxPower

def State.readPackage (s : State) (a : Nat) : Nat :=
  let quiet := s.confAny
  if a = 0x0010000 then
    s.pkg.st * 2 ^ 28 + s.pkg.lastReset * 2 ^ 24 + (s.pkg.stepsDone.eraseDups.foldl (fun n i => n + 2 ^ (i - 1)) 0) * 2 ^ 8
  else if a = 0x0010008 then s.alertWord
  else if 0x0010010 ≤ a ∧ a < 0x0010030 then aget s.pkg.stepT ((a - 0x0010010) / 4 + 1) 0xFFFFFFFF
  else if a = 0x0010040 then
    b2n s.dpFencedAny * 2 ^ 24 + s.satVal satMpRestarts * 2 ^ 16 + s.satVal satCpRestarts * 2 ^ 8
      + s.arch.mp.code * 16 + s.arch.cp.code
  else if a = 0x0020000 then
    b2n s.pkg.rootLock * 2 ^ 31 + b2n s.pkg.holdover * 2 ^ 30 + b2n s.pkg.selB * 2 ^ 29 + b2n s.pkg.aValid * 2 ^ 28
      + b2n s.pkg.bValid * 2 ^ 27
  else if a = 0x0020004 ∨ a = 0x0060304 then s.satWord a
  else if 0x0060000 ≤ a ∧ a < 0x00600D0 then
    let r := aget s.pkg.rails ((a - 0x0060000) / 16) {}
    if a % 16 = 0 then
      r.mv % 2 ^ 12 * 2 ^ 20 + (if quiet then 0 else r.iout % 2 ^ 12 * 2 ^ 8) + b2n r.pg * 128 + b2n r.ocWarn * 64
        + b2n r.otWarn * 32 + b2n r.fault * 16 + b2n r.off * 8
    else if a % 16 = 4 then (if quiet then 0 else r.watts % 2 ^ 16)
    else 0
  else if 0x0060100 ≤ a ∧ a < 0x0060114 then
    let v := aget s.pkg.avs ((a - 0x0060100) / 4) (0, 0)
    v.1 % 256 * 2 ^ 16 + v.2 % 2 ^ 16
  else if 0x0060200 ≤ a ∧ a < 0x006022C then
    let t := aget s.pkg.therm ((a - 0x0060200) / 4) {}
    b2n t.valid * 2 ^ 31 + t.skip % 64 * 2 ^ 16 + (if quiet then 0 else t.temp % 256)
  else if a = 0x0060300 then s.pkg.cap % 64 * 2 ^ 16 + s.pkgLimit % 2 ^ 12
  else 0

/-! ## SEC, SAG, LOG, ERC, IMG, JSL -/

/-- A word of a byte list. -/
def wordAt (b : List Byte) (off : Nat) : Nat := le b off 4

def State.readSec (s : State) (a : Nat) : Nat :=
  if a = 0x0040000 then
    b2n s.sec.claimPin * 128 + b2n s.sec.dcLock * 64 + b2n s.sec.tapFull * 32 + b2n s.sec.debugOn * 16 + b2n s.confAny * 8
      + b2n s.sec.claimed
  else if a = 0x0040008 then s.sec.dcStatus % 16 * 2 ^ 28 + s.sec.dcCause % 16 * 2 ^ 24 + s.sec.dcSeqLow % 2 ^ 24
  else if a = 0x004000C then s.satWord a
  else if a = 0x0040010 then b2n s.sec.tenantRelay * 256 + s.sec.ttlExp % 64
  else if 0x0040020 ≤ a ∧ a < 0x0040040 then wordAt (digest Config.deviceKey) (a - 0x0040020)
  else if a = 0x0040040 then (List.range 8).foldl (fun n i => n + s.sec.util.getD i 0 % 16 * 2 ^ (4 * i)) 0
  else if 0x0041000 ≤ a ∧ a < 0x0042000 then wordAt s.sec.record (a - 0x0041000)
  else if 0x0042000 ≤ a ∧ a < 0x0043000 then wordAt s.sec.sigBlock (a - 0x0042000)
  else 0

def State.readSag (s : State) (a : Nat) : Nat :=
  let g := (a - 0x1800000) / 0x1000
  let o := a % 0x1000
  let x := aget s.sag g {}
  let r := s.sagRec g
  if o = 0 then
    x.key % 4 * 64 + b2n x.evidence * 32 + b2n (recMetered r) * 16 + b2n (recPerfUser r) * 8 + b2n (recConf r) * 4
      + b2n (s.sagExists g)
  else if 0x200 ≤ o then wordAt x.window (o - 0x200)
  else 0

/-- The 64 bytes of a log slot, zero where it is empty (R555). -/
def State.slotBytes (s : State) (slot : Nat) : List Byte :=
  match afind s.log.slots slot with
  | some e => e.bytes
  | none => zeros 64

def State.readLog (s : State) (who : Who) (a : Nat) : Nat :=
  if a = 0x0050000 then aget s.log.cur who 0
  else if a = 0x0050004 then s.log.head
  else if a = 0x0050008 then s.log.firstSeq
  else if a = 0x005000C then
    b2n s.log.storeBusy * 2 ^ 31 + b2n s.log.stored * 2 ^ 30 + b2n s.log.wrapped * 2 ^ 29 + s.log.nextSlot % 2 ^ 15 * 2 ^ 14
      + s.log.firstN % 2 ^ 13
  else if a = 0x0050014 then s.satWord a
  else if 0x0051000 ≤ a ∧ a < 0x0052000 then
    let slot := 64 * (aget s.log.cur who 0 % 512) + (a - 0x0051000) / 64
    let b := match afind s.log.latch who with
      | some (n, b) => if n = slot then b else s.slotBytes slot
      | none => s.slotBytes slot
    wordAt b (a % 64)
  else 0

def State.readErc (s : State) (a : Nat) : Nat :=
  let kinds := [1, 2, 3].map (fun k => aget s.erc.fw k {})
  if a = 0x0070000 then
    s.erc.admission * 2 ^ 28 + countIf s.erc.aliases (·.valid) * 2 ^ 16 + s.nodeParam 0x0215 % 2 ^ 16
  else if a = 0x0070008 then s.satWord a
  else if 0x0070010 ≤ a ∧ a < 0x0070030 then
    let x := s.erc.aliases.getD ((a - 0x0070010) / 4) {}
    b2n x.valid * 2 ^ 31 + b2n x.handback * 2 ^ 30 + x.node % 2 ^ 16
  else if a = 0x0070040 then
    (List.range 3).foldl (fun n i => n + b2n (kinds.getD i {}).pending * 2 ^ (8 + i) + b2n (kinds.getD i {}).inForceB * 2 ^ i) 0
  else if a = 0x0070048 then (List.range 4).foldl (fun n i => n + b2n (s.erc.adFenced.getD i false) * 2 ^ (16 + i)) 0
  else if 0x0070080 ≤ a ∧ a < 0x00700AC then
    let x := aget s.erc.slack ((a - 0x0070080) / 4) {}
    b2n x.valid * 2 ^ 31 + b2n x.fail * 2 ^ 30 + b2n x.warn * 2 ^ 29 + x.minPs % 2 ^ 16
  else 0

def State.readImg (s : State) (a : Nat) : Nat :=
  if a = 0x0080000 then
    s.img.st * 2 ^ 28 + s.img.cause % 16 * 2 ^ 24 + b2n s.img.storeFail * 2 ^ 23 + b2n s.img.nvValid * 2 ^ 22
      + b2n s.img.nvCopyB * 2 ^ 21 + b2n s.img.isCoord * 2 ^ 20 + b2n s.img.prevEpoch.isSome * 2 ^ 16 + s.img.epoch % 2 ^ 16
  else if a = 0x0080008 then s.img.boot.toNat
  else if a = 0x008000C then s.satWord a
  else if 0x0080010 ≤ a ∧ a < 0x0080030 then wordAt s.img.dig (a - 0x0080010)
  else 0

def State.readJsl (s : State) (a : Nat) : Nat :=
  if a = 0x0100000 then s.jsl.lst * 2 ^ 28 + (s.jsl.sessions.foldl (fun n p => n + 2 ^ p.1) 0) % 256 * 2 ^ 16
  else if a = 0x0100004 ∨ a = 0x0100008 then s.satWord a
  else if 0x0100110 ≤ a ∧ a < 0x0100180 ∧ a % 16 = 0 then
    match afind s.jsl.sessions ((a - 0x0100100) / 16) with
    | some x => x.role * 2 ^ 30 + b2n x.via.isSome * 2 ^ 29 + x.keySlot % 64 * 2 ^ 16 + x.via.getD 0xFFFF
    | none => 0xFFFF
  else if 0x0100200 ≤ a ∧ a < 0x0100300 then (aget s.jsl.sink ((a - 0x0100200) / 4) 0).toNat
  else 0

/-! ## PRT, SWC, FAB, COH -/

def laneBits (l : List Nat) : Nat := l.eraseDups.foldl (fun n i => n + 2 ^ i) 0

def State.readPrt (s : State) (a : Nat) : Nat :=
  let p := (a - 0x0200000) / 0x1000
  let o := a % 0x1000
  let x := s.port p
  let r := s.portRec p
  if o = 0 then
    x.lst * 2 ^ 28 + Machine.portRole r * 2 ^ 26 + b2n (portSpareOk r) * 2 ^ 25 + b2n x.spareBusy * 2 ^ 24 + x.width % 16 * 2 ^ 20
      + x.peer % 2 ^ 16
  else if o = 4 then (List.range 8).foldl (fun n k => n + x.map.getD k k % 16 * 2 ^ (4 * k)) 0
  else if o = 8 ∨ o = 0xC then s.satWord a
  else if o = 0x10 then b2n x.rotActive * 2 ^ 22 + x.rotLane % 16 * 2 ^ 18 + laneBits x.warn * 2 ^ 9 + laneBits x.retired
  else if 0x20 ≤ o ∧ o < 0x44 then
    match afind x.margin ((o - 0x20) / 4) with
    | some (w, h) => 2 ^ 31 + w % 2 ^ 10 * 2 ^ 16 + h % 256
    | none => 0
  else 0

def State.readSwc (s : State) (a : Nat) : Nat :=
  if a = 0x0300000 then s.cellsFree
  else if a = 0x0300008 ∨ a = 0x030000C then s.satWord a
  else if 0x0310000 ≤ a ∧ a < 0x0314000 then
    let p := (a - 0x0310000) / 0x100
    let c := a % 0x100 / 0x10
    if a % 0x100 = 0x80 then (aget s.swc.port p 0).toNat
    else if 8 ≤ c then 0
    else if a % 16 = 0 then (aget s.swc.shape (8 * p + c) 0).toNat
    else if a % 16 = 4 then (aget s.swc.burst (8 * p + c) 0x400).toNat
    else if a % 16 = 8 then (aget s.swc.pq (8 * p + c) 0).toNat
    else 0
  else if 0x0380000 ≤ a ∧ a < 0x0381000 then
    let g := (a - 0x0380000) / 0x40
    if a % 0x40 = 0 then (aget s.swc.sagQ g 0x10).toNat
    else if a % 0x40 = 4 then (aget s.swc.sagShape g 0).toNat
    else if a % 0x40 = 8 then (aget s.swc.sagBurst g 0x400).toNat
    else if a % 0x40 = 0xC then aget s.swc.quota g 0 % 256 * 2 ^ 24 + s.usedCells g % 2 ^ 20
    else 0
  else 0

def State.readFab (s : State) (a : Nat) : Nat :=
  if a = 0x0400000 then s.fab.node % 2 ^ 16
  else if a = 0x0400004 then s.fab.ctrl.toNat
  else if a = 0x0400008 then s.fab.win.length
  else if a = 0x040000C ∨ a = 0x0400010 ∨ a = 0x0400048 then s.satWord a
  else if a = 0x0400014 then s.fab.hot.length * 2 ^ 16 + s.fab.merges.length
  else if a = 0x0400040 then s.coh.ctrl.toNat
  else if a = 0x0400044 then s.coh.dir.length
  else if 0x0410000 ≤ a ∧ a < 0x0411000 ∧ a % 16 = 0 then
    let d := aget s.coh.slots ((a - 0x0410000) / 16) {}
    d.st * 2 ^ 28 + d.member % 64 * 2 ^ 22 + d.cause % 8 * 2 ^ 19 + d.domain % 2 ^ 16
  else 0

/-! ## Units of the data plane and the Sitter -/

/-- Granules of 1 MiB that hold a saggar's loaded centroids (`SIV_SAG.USED`). -/
def State.sivUsed (s : State) (g : Nat) : Nat :=
  (s.siv.index.filter (fun p => p.1.1 = g)).foldl (fun n p =>
    let h := s.sivHeader p.2.image
    n + ceilDiv (h.c * h.dim) (2 ^ 20)) 0

/-- `PUG_STATE.USED_KIB`: a collective's state is spread over the units it was given. -/
def State.pugUnitKib (s : State) (u : Nat) : Nat :=
  s.pug.colls.foldl (fun n c => if c.holds u then n + ceilDiv c.bytes (1024 * max 1 (countIf c.units c.holds)) else n) 0

def State.readUnits (s : State) (a : Nat) : Nat :=
  if 0x0500000 ≤ a ∧ a < 0x0510000 then
    let u := (a - 0x0500000) / 0x1000
    if a % 0x1000 = 0 then
      (s.pugFence u).word + min 3840 (s.pugUnitKib u) * 2 ^ 13 + countIf s.pug.comb (fun c => c.unit = u) % 2 ^ 13
    else if a % 0x1000 = 4 then s.satWord a else 0
  else if 0x0510000 ≤ a ∧ a < 0x0510400 ∧ a % 16 = 0 then
    let g := (a - 0x0510000) / 16
    recPugShare (s.sagRec g) * 2 ^ 16 + ceilDiv (s.pugUsed g) 65536
  else if 0x0580000 ≤ a ∧ a < 0x0588000 then
    let e := (a - 0x0580000) / 0x1000
    if a % 0x1000 = 0 then (s.gthFence e).word + s.gthQueued e % 2 ^ 9 else if a % 0x1000 = 4 then s.satWord a else 0
  else if 0x05C0000 ≤ a ∧ a < 0x05C8000 then
    let e := (a - 0x05C0000) / 0x1000
    if a % 0x1000 = 0 then (s.sivFence e).word + s.sivQueued e % 2 ^ 9 else if a % 0x1000 = 4 then s.satWord a else 0
  else if 0x05D0000 ≤ a ∧ a < 0x05D0400 ∧ a % 16 = 0 then
    let g := (a - 0x05D0000) / 16
    recSivShare (s.sagRec g) * 2 ^ 16 + s.sivUsed g % 2 ^ 16
  else if 0x0600000 ≤ a ∧ a < 0x0608000 then
    let e := (a - 0x0600000) / 0x1000
    if a % 0x1000 = 0 then
      (s.engine e).fence.word + (s.engine e).queue.length % 128 * 2 ^ 16 + min 4096 (ceilDiv (s.queueBytes e) 1024)
    else if a % 0x1000 = 4 then s.satWord a else 0
  else 0

def State.readSit (s : State) (a : Nat) : Nat :=
  let g := (a - 0x0701000) / 0x100
  let x := aget s.sit g {}
  let mem := s.members (s.sagComp g)
  let me := mem.findIdx (· = s.fab.node)
  let isMember := decide (me < mem.length)
  let leads := isMember && x.leader = some me
  if a % 0x100 = 0 then
    x.mode % 16 * 2 ^ 28 + b2n leads * 2 ^ 27 + b2n (isMember && x.standby = some me) * 2 ^ 26 + b2n x.recStall * 2 ^ 25
      + b2n x.ctrlHold * 2 ^ 24 + (if isMember then me % 2 ^ 16 else 0)
  else if a % 0x100 = 0x10 then if leads then (aget s.lead (s.sagComp g) {}).debt % 2 ^ 32 else 0
  else if a % 0x100 = 0x24 then s.satWord a
  else 0

def State.readArr (s : State) (a : Nat) : Nat :=
  let die := (a - 0x0800000) / 0x40000
  let n := (a - 0x0800000) % 0x40000 / 0x200
  if 384 ≤ n then 0 else
  let u := 384 * die + n
  let slot := fun i => match s.job u i with | some j => j.st % 16 | none => 0
  if a % 0x200 = 0 then (s.arr u).fence.word + ownerBits (s.arrOwner u) 21 + slot 1 * 2 ^ 8 + slot 0 * 16
  else if a % 0x200 = 4 then s.satWord a
  else 0

def State.readTrm (s : State) (a : Nat) : Nat :=
  let t := (a - 0x0C00000) / 0x1000
  let x := s.trmOf t
  if a % 0x1000 = 0 then
    x.fence.word + ownerBits (s.trmOwner t) 4 + x.rptq.length % 128 * 2 ^ 15 + x.cplq.length % 128 * 2 ^ 8 + x.mode % 4 * 64
      + b2n x.fwCopyB * 32
  else if a % 0x1000 = 4 then s.satWord a
  else 0

def State.readAtt (s : State) (a : Nat) : Nat :=
  let g := (a - 0x0F00000) / 0x100
  let mine := s.att.reqs.filter (fun r => r.p.saggar = g)
  if a % 0x100 = 0 then countIf mine (·.active) % 256 * 2 ^ 16 + countIf mine (fun r => !r.active) % 2 ^ 10
  else if a % 0x100 = 4 then s.satWord a
  else 0

def State.readTie (s : State) (a : Nat) : Nat :=
  if a = 0x1000000 then
    b2n (s.tie.hold.contains 4) * 2 ^ 26 + b2n (s.tie.hold.contains 3) * 2 ^ 25 + b2n (s.tie.hold.contains 2) * 2 ^ 24
      + s.decayOf 4 % 256 * 2 ^ 16 + s.decayOf 3 % 256 * 2 ^ 8 + s.decayOf 2 % 256
  else if a = 0x1000010 then if s.confAny then 0 else laneBits (s.tie.movers.map (·.1))
  else if 0x1001000 ≤ a ∧ a < 0x1005000 then
    let g := (a - 0x1001000) / 0x100
    let word := fun (t : Nat × Nat) => t.2 % 2 ^ 12 * 2 ^ 12 + t.1 % 2 ^ 12
    if a % 0x100 = 0 then word (s.thresholds g 2)
    else if a % 0x100 = 4 then word (s.thresholds g 3)
    else if a % 0x100 = 8 then
      let t := aget s.tie.short g []
      s.satVal (satTieFallbacks g) * 2 ^ 16 + b2n (t.contains 4) * 4 + b2n (t.contains 3) * 2 + b2n (t.contains 2)
    else 0
  else if 0x1100000 ≤ a ∧ a < 0x1101000 ∧ a % 0x100 = 0 then
    let c := s.ddr ((a - 0x1100000) / 0x100)
    c.fence.word + c.rate % 256 * 2 ^ 16 + c.dpc % 4 * 2 ^ 14 + b2n c.mrdimm * 2 ^ 13 + b2n c.trained * 2 ^ 12 + c.capGib % 2 ^ 12
  else if 0x1200000 ≤ a ∧ a < 0x1200800 ∧ a % 0x100 = 0 then
    let k := s.hbm ((a - 0x1200000) / 0x100)
    k.fence.word + k.temp % 256 * 2 ^ 8 + b2n k.trained * 128 + k.pcFenced.eraseDups.length % 128
  else 0

def State.readFlm (s : State) (a : Nat) : Nat :=
  let m := s.flm
  if a = 0x1400000 then
    let pct := if 3 ≤ m.st then 100 else 0
    m.st * 2 ^ 29 + pct * 2 ^ 17 + countIf (List.range 32) (fun c => !(aget m.ch c {}).fence.on) * 2 ^ 11
      + countIf m.dies (fun d => d.2.fenced) % 2 ^ 11
  else if a = 0x1400004 then m.pagesPerBlock % 2 ^ 12 * 2 ^ 20 + m.luns % 16 * 2 ^ 16 + m.targets % 16 * 2 ^ 12 + m.opPct % 64 * 2 ^ 6
  else if a = 0x1400008 then m.blocksPerDie % 2 ^ 20
  else if a = 0x140000C then
    let f := fun i => b2n (m.flags.contains i)
    s.sparePm % 2 ^ 10 * 2 ^ 16 + s.wearP99 % 256 * 2 ^ 8 + b2n (m.flags.contains 7 || m.flags.contains 8) * 128
      + f 6 * 64 + f 5 * 32 + f 4 * 16 + f 3 * 8 + f 2 * 4 + f 1 * 2 + f 0
  else if a = 0x1400010 ∨ a = 0x1400014 then s.satWord a
  else if 0x1410000 ≤ a ∧ a < 0x1412000 ∧ a % 0x100 = 0 then
    let c := (a - 0x1410000) / 0x100
    let x := aget m.ch c {}
    x.fence.word + x.rate % 256 * 2 ^ 16 + x.targets % 16 * 2 ^ 12 + x.luns % 16 * 2 ^ 8
      + countIf m.dies (fun d => d.2.fenced && d.1 / 32 = c) % 256
  else 0

/-! ## The Witness mirror (R510, R512, R525) -/

/-- The faults of R527 that hold, by cause. -/
def State.meterFaults (s : State) : List Nat :=
  (if s.wit.wdDown then [1] else []) ++ (if s.wd.tapLoss then [2] else []) ++ (if s.wd.nvmFault then [3] else [])
    ++ (if s.wd.selfFault then [4] else [])

/-- Age of the mirror heartbeat in units of 2^16 SCLK cycles, saturating. -/
def State.hbAge (s : State) : Nat := min 0xFFFF ((s.now - s.wit.heardAt) / sclk (2 ^ 16))

/-- A mirror value; a confidential saggar's is rounded down to a multiple of 2^16. -/
def State.mirrorValue (s : State) (g reg : Nat) : Nat :=
  match s.wit.mirror.sags.find? (fun x => x.1 = g) with
  | some (_, vals, _) =>
    let v := vals.getD reg 0 % 2 ^ 96
    if s.sagConf g then v / 2 ^ 16 * 2 ^ 16 else v
  | none => 0

def State.readWit (s : State) (a : Nat) : Nat :=
  let m := s.wit.mirror
  if a = 0x1F00000 then b2n (!s.meterFaults.isEmpty) * 2 ^ 31 + s.meterFaults.headD 0 * 2 ^ 28 + s.hbAge
  else if a = 0x1F00004 then m.state.toNat
  else if a = 0x1F00008 then m.events % 2 ^ 32
  else if a = 0x1F00010 ∨ a = 0x1F00014 then bits m.swId (8 * (a - 0x1F00010)) 32
  else if 0x1F00020 ≤ a ∧ a < 0x1F00040 then wordAt m.swChecksum (a - 0x1F00020)
  else if 0x1F01000 ≤ a ∧ a < 0x1F05000 then
    let g := (a - 0x1F01000) / 0x100
    let o := a % 0x100
    if o = 0x70 then (match m.sags.find? (fun x => x.1 = g) with | some (_, _, w) => w.toNat | none => 0)
    else if o < 0x70 ∧ o % 16 < 12 then bits (s.mirrorValue g (o / 16)) (8 * (o % 16)) 32
    else 0
  else 0

/-- Whether an address is the low word of a mirror value. -/
def isMirrorLow (a : Nat) : Bool := decide (0x1F01000 ≤ a ∧ a < 0x1F05000) && decide (a % 0x100 < 0x70) && (a % 16 = 0)

/-! ## 64-bit registers (R560, R562) -/

/-- `COUNT` in [47:0] and `OVF` in bit 63. -/
def Ctr.word (c : Ctr) : Nat := c.count % 2 ^ 48 + b2n c.ovf * 2 ^ 63

/-- The block of a 64-bit register with its low word at an address. -/
inductive CtrClass where
  /-- A counter of a shared resource, which reads 0 while R497 applies (R498). -/
  | shared
  /-- A saggar's own counter, coarsened where the saggar is confidential (R497). -/
  | own (g : Option Nat)
  /-- A register that holds a value (R562), or a count of no saggar and no shared resource. -/
  | value
  | count
  deriving DecidableEq, Repr

/-- What kind of 64-bit register has its low word at an address; none where no such register is. -/
def State.ctrClass (s : State) (a : Nat) : Option CtrClass :=
  if a ∈ [0x0020010, 0x0050020, 0x0080048, 0x0100020, 0x0100028] then some .count
  else if a ∈ [0x0060310, 0x0300020, 0x0300028, 0x0300030, 0x0400020, 0x0400028, 0x0400030, 0x0400050, 0x1400020, 0x1400028] then some .shared
  else if a = 0x0080040 ∨ a = 0x1400030 ∨ (0x0040100 ≤ a ∧ a < 0x0040180 ∧ a % 8 = 0) then some .value
  else if 0x0200000 ≤ a ∧ a < 0x0240000 ∧ a % 0x1000 ∈ [0x80, 0x88, 0x90] then some .shared
  else if 0x0500000 ≤ a ∧ a < 0x0510000 ∧ a % 0x1000 ∈ [0x10, 0x18] then some .shared
  else if 0x0588000 ≤ a ∧ a < 0x05A8000 ∧ a % 0x20 ∈ [0, 8, 0x10] then some (.own (some ((a - 0x0588000) / 0x800)))
  else if 0x0600000 ≤ a ∧ a < 0x0608000 ∧ a % 0x1000 ∈ [0x10, 0x18] then some .shared
  else if 0x0701000 ≤ a ∧ a < 0x0705000 ∧ a % 0x100 = 8 then some .value
  else if 0x0800000 ≤ a ∧ a < 0x0900000 ∧ a % 0x40000 < 384 * 0x200 ∧ a % 0x200 = 0x10 then
    some (.own (s.arrOwner (384 * ((a - 0x0800000) / 0x40000) + a % 0x40000 / 0x200)))
  else if 0x0C00000 ≤ a ∧ a < 0x0C80000 ∧ a % 0x1000 = 0x10 then some (.own (s.trmOwner ((a - 0x0C00000) / 0x1000)))
  else if 0x0F00000 ≤ a ∧ a < 0x0F04000 ∧ a % 0x100 = 8 then some (.own (some ((a - 0x0F00000) / 0x100)))
  else if 0x1001000 ≤ a ∧ a < 0x1005000 ∧ a % 0x100 ∈ [0x10, 0x18, 0x20] then some (.own (some ((a - 0x1001000) / 0x100)))
  else none

/-- The full value of a 64-bit register, before R497 and R498. -/
def State.rawCtr (s : State) (a : Nat) : Nat :=
  if 0x0040100 ≤ a ∧ a < 0x0040180 then s.sec.arb.getD ((a - 0x0040100) / 8) 0
  else if a = 0x0080040 then aget s.ctr a {} |>.count
  else if 0x0701000 ≤ a ∧ a < 0x0705000 then (aget s.sit ((a - 0x0701000) / 0x100) {}).step
  else if a = 0x1400030 then (aget s.ctr a {}).count
  else if a = 0x0020010 then
    ((aget s.ctr a {}).add (match s.pkg.holdoverAt with | some t => (s.now - t) / 60 | none => 0)).word
  else (aget s.ctr a {}).word

/-- A value as a confidential saggar's readers receive it: that of the last step boundary, rounded down to
a multiple of 2^16. -/
def coarse (v : Nat) : Nat := v / 2 ^ 16 * 2 ^ 16

/-- What a reader receives of a 64-bit register (R497, R498). -/
def State.ctrValue (s : State) (a : Nat) : Nat :=
  match s.ctrClass a with
  | some .shared => if s.confAny then 0 else s.rawCtr a
  | some (.own (some g)) =>
    if s.sagConf g then coarse (aget (aget s.sit g {}).frozen a 0) else s.rawCtr a
  | some _ => s.rawCtr a
  | none => 0

/-- The low word's address of the 64-bit register an address belongs to. -/
def State.ctrBase (s : State) (a : Nat) : Option Nat :=
  if (s.ctrClass a).isSome then some a else if 4 ≤ a ∧ (s.ctrClass (a - 4)).isSome then some (a - 4) else none

/-! ## One read -/

/-- The word a register holds now, without any latch; 0 where no register is defined (R30). -/
def State.liveWord (s : State) (who : Who) (a : Nat) : Nat :=
  match s.ctrBase a with
  | some b => bits (s.ctrValue b) (8 * (a - b)) 32
  | none =>
    if a = 0 then s.variant.devId
    else if a = 0x10 then s.variant.capUnits
    else if a = 0x14 then s.variant.capCounts
    else if a < 0x0010000 then 0
    else if a < 0x0030000 then s.readPackage a
    else if a < 0x0040000 then 0
    else if a < 0x0050000 then s.readSec a
    else if a < 0x0060000 then s.readLog who a
    else if a < 0x0070000 then s.readPackage a
    else if a < 0x0080000 then s.readErc a
    else if a < 0x0100000 then s.readImg a
    else if a < 0x0200000 then s.readJsl a
    else if a < 0x0300000 then s.readPrt a
    else if a < 0x0400000 then s.readSwc a
    else if a < 0x0500000 then s.readFab a
    else if a < 0x0700000 then s.readUnits a
    else if a < 0x0701000 then 0
    else if a < 0x0705000 then s.readSit a
    else if a < 0x0800000 then 0
    else if a < 0x0C00000 then s.readArr a
    else if a < 0x0C80000 then s.readTrm a
    else if a < 0x0F00000 then 0
    else if a < 0x0F04000 then s.readAtt a
    else if a < 0x1000000 then 0
    else if a < 0x1400000 then s.readTie a
    else if a < 0x1800000 then s.readFlm a
    else if a < 0x1840000 then s.readSag a
    else if 0x1F00000 ≤ a ∧ a < 0x1F10000 then s.readWit a
    else 0

/-- The words a read of a low word latches (R29, R512). -/
def State.latched (s : State) (a : Nat) : Option (List (Nat × Word32)) :=
  if (s.ctrClass a).isSome then some [(a + 4, BitVec.ofNat 32 (bits (s.ctrValue a) 32 32))]
  else if isMirrorLow a then
    let v := s.mirrorValue ((a - 0x1F01000) / 0x100) (a % 0x100 / 16)
    some [(a + 4, BitVec.ofNat 32 (bits v 32 32)), (a + 8, BitVec.ofNat 32 (bits v 64 32))]
  else none

def setLatch (who : Who) (l : List (Nat × Word32)) (s : State) : State :=
  { s with arch := { s.arch with latches := if l.isEmpty then aerase s.arch.latches who else aset s.arch.latches who l } }

/-- The first word of a log slot latches the whole entry (R555). -/
def latchSlot (who : Who) (a : Nat) (s : State) : State :=
  if 0x0051000 ≤ a ∧ a < 0x0052000 ∧ a % 64 = 0 then
    let slot := 64 * (aget s.log.cur who 0 % 512) + (a - 0x0051000) / 64
    { s with log := { s.log with latch := aset s.log.latch who (slot, s.slotBytes slot) } }
  else s

/-- Step 6 of R30: the word a permitted read returns, and the latches it leaves. -/
def readRegister (who : Who) (a : Nat) (s : State) : Nat × State :=
  match s.latched a with
  | some l => (s.liveWord who a, setLatch who l s)
  | none =>
    let held := aget s.arch.latches who []
    match held.find? (fun p => p.1 = a) with
    | some (_, w) => (w.toNat, setLatch who (held.filter (fun p => p.1 ≠ a)) s)
    | none =>
      let s := latchSlot who a s
      (s.liveWord who a, s)

/-- A CSR read in the order of R30: status, word, state after. -/
def csrRead (who : Who) (a : Nat) (s : State) : Status × Nat × State :=
  match s.csrGate who a false with
  | some st => (st, 0, s)
  | none => match readRegister who a s with | (w, s) => (.ok, w, s)

/-- A CSR read whose answer is handed out. -/
def answerRead32 (who : Who) (a : Nat) (s : State) : State :=
  match csrRead who a s with
  | (st, w, s) => answerCsr who a st (BitVec.ofNat 32 w) s

end Sys2Proof.Machine
end

