-- ==== Sys2Proof/Machine/TrmCore.lean ====
section
/-! DEFINITION. The Trimmer's registers, memory map (R98 to R101), counters (R119, R120), RPT queue
(R116), program loading and live swap (R121 to R123), and what happens to it at a step boundary. -/

namespace Sys2Proof.Machine

/-! ## Registers -/

def modTrm (t : Nat) (f : Trm → Trm) (s : State) : State := { s with trm := amod s.trm t {} f }

/-- A register of the running code; `x0` reads zero. -/
def State.tx (s : State) (t r : Nat) : Nat := if r = 0 then 0 else (s.trmOf t).ctx.x[r]?.getD 0

/-- Write a register; `x0` discards. -/
def setTx (t r v : Nat) (s : State) : State :=
  if r = 0 then s else
  modTrm t (fun x => { x with ctx := { x.ctx with x := x.ctx.x.setIfInBounds r (v % 2 ^ 64) } }) s

def State.trmPc (s : State) (t : Nat) : Nat := (s.trmOf t).ctx.pc
def setTrmPc (t pc : Nat) (s : State) : State := modTrm t (fun x => { x with ctx := { x.ctx with pc := pc % 2 ^ 64 } }) s

/-- Machine firmware runs, not user code. -/
def State.inM (s : State) (t : Nat) : Bool := (s.trmOf t).run = .none

/-- Run an operation on the registers of the code that runs: the machine firmware's own where it runs. User
code that firmware enters by `mret` starts with the registers firmware left. -/
def inCtx (t : Nat) (f : State → State) (s : State) : State :=
  if s.inM t then
    let user := (s.trmOf t).ctx
    let s := f (modTrm t (fun x => { x with ctx := x.mctx }) s)
    modTrm t (fun x => if x.run = .none then { x with mctx := if x.fwDown then { pc := 0x8000000 } else x.ctx, ctx := user } else x) s
  else f s

/-- The code waits for a window load or atomic, or for the word a narrow store changes. -/
def Trm.blocked (x : Trm) : Bool := x.wins.any (fun w => decide (w.kind ≠ .store))

/-- A Trimmer that executes instructions: fitted, in service, not fenced, its firmware up, its code not
stalled and not waiting for a window access. -/
def State.trmRuns (s : State) (t : Nat) : Bool :=
  let x := s.trmOf t
  decide (t < s.variant.trimmers) && !x.fence.on && !x.fwDown && decide (1 ≤ x.mode) && x.stall.isNone
    && !x.blocked

/-- The owner saggar, zero before an image assigns one. -/
def State.trmSag (s : State) (t : Nat) : Nat := (s.trmOwner t).getD 0

/-- The fitted Trimmers of a saggar. -/
def State.trimmersOf (s : State) (g : Nat) : List Nat :=
  (List.range s.variant.trimmers).filter (fun t => recTrimmer (s.sagRec g) t)

/-! ## Counters and sampling (R119, R120) -/

/-- Raise `hpmcounter c`; where `xsmpctl` enables it and its low n bits wrap, the counter-overflow
interrupt becomes pending, unless the saggar is confidential. -/
def bumpHpm (t c n : Nat) (s : State) : State :=
  let x := s.trmOf t
  let old := aget x.hpm c {}
  let new := old.add n
  let k := bits x.xsmpctl 8 6
  let wraps := decide (4 ≤ k ∧ k ≤ 40) && (old.count / 2 ^ k ≠ (old.count + n) / 2 ^ k)
  let s := modTrm t (fun x => { x with hpm := aset x.hpm c new }) s
  if decide (3 ≤ c) && bit x.xsmpctl (c - 3) && wraps && !s.sagConf (s.trmSag t) then
    queueUpcall t { mcause := 18, a1 := c, since := some 0 } s
  else s

/-- Take the sample of a pending counter overflow whose time has come (R120): the pc of the instruction that
retires next, and `xmark`. -/
def takeSamples (t : Nat) (due : Nat → Bool) (s : State) : State :=
  modTrm t (fun x => { x with upcalls := x.upcalls.map (fun e => match e.since with
    | some k => if due k then { e with a2 := x.ctx.pc, a3 := x.xmark, since := none } else e
    | none => e) }) s

/-- An instruction begins: an overflow 24 instructions back is sampled here at the latest (R120). -/
def beginInsn (t : Nat) (s : State) : State :=
  modTrm t (fun x => { x with upcalls := x.upcalls.map (fun e => { e with since := e.since.map (· + 1) }) })
    (takeSamples t (fun k => decide (24 ≤ k)) s)

/-- A stall ends: its ACLK cycles so far count in `hpmcounter3` or `hpmcounter4` (R119). -/
def endStall (t : Nat) (s : State) : State :=
  let count := fun (c since : Nat) => bumpHpm t c ((s.now - since) / 12) (modTrm t (fun x => { x with stall := none }) s)
  match (s.trmOf t).stall with
  | some (.issue _ _ _ since) => count 3 since
  | some (.wait _ _ since _) => count 4 since
  | none => s

/-- The count register of a counter in the layout of R560. -/
def Ctr.reg (c : Ctr) : Nat := c.count + b2n c.ovf * 2 ^ 63

/-- The live value of a counter: 0 and 1 are `cycle` and `time`, 2 `instret`. -/
def State.hpmLive (s : State) (t c : Nat) : Nat :=
  if c ≤ 1 then
    let n := (s.now - (s.trmOf t).resetAt) / 12
    n % 2 ^ 48 + b2n (decide (2 ^ 48 ≤ n)) * 2 ^ 63
  else (aget (s.trmOf t).hpm c {}).reg

/-- What a read of a counter returns: for a confidential saggar the value at the last step boundary,
rounded down to a multiple of 2^16. -/
def State.hpmRead (s : State) (t c : Nat) : Nat :=
  if s.sagConf (s.trmSag t) then let v := aget (s.trmOf t).frozen c 0; v - v % 2 ^ 16 else s.hpmLive t c

/-! ## Memory map (R99 to R101) -/

/-- Where an address leads. -/
inductive Zone where
  | local_ (a : Nat)
  | fw (a : Nat)
  | shelf (off : Nat)
  | hbm (off : Nat)
  | win (n a : Nat)
  | csr (a : Nat)
  deriving DecidableEq, Repr

/-- The saggar's pseudo-channels, numbered flat. -/
def State.pcsOf (s : State) (g : Nat) : List Nat := (List.range 512).filter (fun i => recHbmPc (s.sagRec g) i)

/-- The zone of an access of `n` bytes; none where it is an access fault. -/
def State.zone (s : State) (t addr n : Nat) (write : Bool) : Option Zone :=
  let m := s.inM t
  let g := s.trmSag t
  let inside := fun (base size : Nat) => decide (base ≤ addr ∧ addr + n ≤ base + size)
  let owned := (s.trmOwner t).isSome
  if inside 0 0x40000 then
    if m || decide ((if write then 0x9000 else 0x8000) ≤ addr) then some (.local_ addr) else none
  else if inside 0x8000000 0x10000 then if m && !write then some (.fw (addr - 0x8000000)) else none
  else if inside 0x1000000000 (min (2 ^ 30) (s.shelfSize g)) && owned then some (.shelf (addr - 0x1000000000))
  else if inside 0x10000000000 (min (2 ^ 39) ((s.pcsOf g).length * framesPerPc * pageBytes)) && owned then some (.hbm (addr - 0x10000000000))
  else if inside 0x20000000000 (2 ^ 34) then
    let n := (addr - 0x20000000000) / 2 ^ 30
    if bit (aget (s.trmOf t).xwin n 0) 0 then some (.win n ((addr - 0x20000000000) % 2 ^ 30)) else none
  else if inside 0x30000000000 0x2000000 then if write && !m then none else some (.csr (addr - 0x30000000000))
  else none

/-- The address in the frame memory of a byte of a saggar's HBM space: the frame that takes that place
among the frames of its pseudo-channel, else bytes outside every frame. -/
def State.hbmCell (s : State) (g off : Nat) : Nat :=
  let b := off / pageBytes
  let pc := (s.pcsOf g).getD (b / framesPerPc) 0
  let j := b % framesPerPc
  let ids := (s.tie.frames.filter (fun p => p.2.tier = 2 && p.2.unit = pc)).map (·.1)
  (if j < ids.length then ids.getD j 0 else 2 ^ 41 + pc * framesPerPc + j) * pageBytes + off % pageBytes

/-- The outcome of a load: a value, an exception, or a fabric window (its number and the offset in it). -/
inductive Ld where
  | val (v : Nat)
  | trap (cause : Nat)
  | win (n a : Nat)
  deriving DecidableEq, Repr

/-- A CSR load by the Trimmer's code (R99, R100): 4 or 8 bytes. -/
def trmCsrLoad (t a n : Nat) (s : State) : Ld × State :=
  let g := s.trmSag t
  let who := if s.inM t then Who.trimmerFw g t else Who.trimmerUser g t
  if n < 4 then (.trap 5, s) else
  match csrRead who a s with
  | (.ok, lo, s) =>
    if n = 4 then (.val lo, s) else
    match csrRead who (a + 4) s with
    | (.ok, hi, s) => (.val (lo + hi * 2 ^ 32), s)
    | (_, _, s) => (.trap 5, s)
  | (_, _, s) => (.trap 5, s)

/-- A load of `n` bytes. Outside local memory a misaligned access is an exception (R97). -/
def trmLoad (t addr n : Nat) (s : State) : Ld × State :=
  let g := s.trmSag t
  match s.zone t addr n false with
  | none => (.trap 5, s)
  | some (.local_ a) => (.val (leNat (memRead (s.trmOf t).mem a n)), s)
  | some z =>
    if addr % n ≠ 0 then (.trap 4, s) else
    match z with
    | .fw a => (.val (leNat (memRead (s.trmOf t).fwMem a n)), s)
    | .shelf o => (.val (leNat (s.shelfRead g o n)), bumpHpm t 5 n s)
    | .hbm o => (.val (leNat (memRead s.tie.mem (s.hbmCell g o) n)), bumpHpm t 6 n s)
    | .win k a => (.win k a, s)
    | .csr a => trmCsrLoad t a n s
    | .local_ a => (.val (leNat (memRead (s.trmOf t).mem a n)), s)

/-- Reservations another access breaks: those of Trimmers of the saggar on the same bytes. -/
def breakResv (g addr n : Nat) (s : State) : State :=
  { s with trm := s.trm.map (fun (p : Nat × Trm) => match p.2.resv with
      | some (a, k) => if a < addr + n ∧ addr < a + k ∧ s.trmSag p.1 = g then (p.1, { p.2 with resv := none }) else p
      | none => p) }

/-- The outcome of a store: done, an exception, a window, or the CSR space (firmware). -/
inductive Sto where
  | done
  | trap (cause : Nat)
  | win (n a : Nat)
  | csr (a : Nat)
  deriving DecidableEq, Repr

/-- A store of bytes; one to the CSR space is left to its caller. -/
def trmStore (t addr : Nat) (bs : List Byte) (s : State) : Sto × State :=
  let g := s.trmSag t
  let n := bs.length
  match s.zone t addr n true with
  | none => (.trap 7, s)
  | some (.local_ a) =>
    (.done, modTrm t (fun x => { x with
      mem := memWrite x.mem a bs
      resv := match x.resv with | some (r, k) => if r < a + n ∧ a < r + k then none else some (r, k) | none => none }) s)
  | some z =>
    if addr % n ≠ 0 then (.trap 6, s) else
    match z with
    | .shelf o => (.done, breakResv g addr n (shelfWrite g o bs s))
    | .hbm o =>
      let c := s.hbmCell g o
      let s := breakResv g addr n { s with tie := { s.tie with mem := memWrite s.tie.mem c bs } }
      (.done, setSide (c / pageBytes) (c % pageBytes / 256) (fun w => { w with crc := crc32c (s.grain (c / pageBytes) (c % pageBytes / 256)) }) s)
    | .win k a => (.win k a, s)
    | .csr a => (.csr a, s)
    | _ => (.trap 7, s)

/-! ## RPT queue (R116, R350) -/

/-- Put a call into a Trimmer's queue. -/
def enqueueRpt (t : Nat) (c : RptCall) (s : State) : State := modTrm t (fun x => { x with rptq := x.rptq ++ [c] }) s

/-- The 32-byte RPT header. -/
def rptHeader (p : Packet) : List Byte :=
  natLe (callProc p) 2 ++ natLe (callArgLen p) 2 ++ natLe p.src 2 ++ natLe p.saggar 1 ++ natLe (b2n p.rty) 1
    ++ natLe p.seq 3 ++ [0] ++ natLe p.tag 2 ++ natLe p.epoch 2 ++ natLe p.lc 4 ++ zeros 12

/-- The Trimmer program in effect for a saggar (R467): entry point, handler stack pointer, text and
data. -/
def State.program (s : State) (g : Nat) : List Byte := s.sagBody tyPROGRAM g
def progEntry (b : List Byte) : Nat := le b 4 4
def progHandlerSp (b : List Byte) : Nat := le b 8 4
def progBytes (b : List Byte) : List Byte := sub b 32 (le b 12 4 + le b 16 4)

/-- Dispatch the oldest queued call into its handler: the header and arguments go to the RPT block, the
registers of R116 are set, and those it does not name are undefined. A stalled instruction is abandoned. -/
def dispatchRpt (t : Nat) (s : State) : State :=
  let s := endStall t s
  let x := s.trmOf t
  match x.rptq with
  | [] => s
  | c :: rest =>
    let args := callArgs c.p
    let regs : Vector Nat 32 := Vector.ofFn (fun (i : Fin 32) => if i.val = 0 then 0 else Config.freeNat (s.free + i.val) % 2 ^ 64)
    let regs := ((((regs.set 10 (callProc c.p)).set 11 (callArgLen c.p)).set 12 0x8020).set 13 c.p.src).set 2 (progHandlerSp (s.program (s.trmSag t)))
    let s := { s with free := s.free + 32 }
    modTrm t (fun x => { x with
      rptq := rest
      run := .handler
      mainCtx := if x.run = .main then some x.ctx else x.mainCtx
      ctx := { x.ctx with pc := rptHandler c.entry, x := regs, vpos := 0 }
      call := c
      retired := 0
      mem := memWrite x.mem 0x8000 (fit (rptHeader c.p ++ args) 4096) }) s

/-- Resume the code a handler or an upcall interrupted. -/
def resumeMain (t : Nat) (s : State) : State :=
  modTrm t (fun x =>
    if x.swap.isSome then { x with run := .none }
    else match x.mainCtx with
      | some c => { x with run := .main, ctx := c, mainCtx := none }
      | none => { x with run := .none }) s

/-! ## Programs and the live swap (R121 to R123) -/

/-- Load a saggar's program into a Trimmer and enter it: user local memory, registers, vector state and
user CSRs cleared; completions of what was outstanding are discarded. A Trimmer of no saggar runs firmware
only (R126). -/
def loadProgram (t : Nat) (s : State) : State :=
  let b := match s.trmOwner t with | some g => s.program g | none => []
  let user := fit (progBytes b) (0x40000 - 0x9000)
  let s := disownJobs t s
  modTrm t (fun x =>
    let clean : Trm := { fence := x.fence, mode := 1, fwCopyB := x.fwCopyB, fwDown := x.fwDown, bist := x.bist, rptq := x.rptq,
                         mcsr := x.mcsr, mctx := x.mctx, fwMem := x.fwMem, resetAt := x.resetAt, hpm := x.hpm, frozen := x.frozen,
                         call := x.call, mem := memClear x.mem 0x9000 (0x40000 - 0x9000) }
    if b.isEmpty then clean
    else { clean with mode := 2, run := .main, ctx := { pc := progEntry b }, mem := memWrite clean.mem 0x9000 user }) s

/-- A Trimmer of a swap has nothing left that R122 waits for: no running code, no job, no window
access. -/
def Trm.drained (x : Trm) : Bool :=
  (x.run = .none) && decide (x.jobs = 0) && x.wins.isEmpty

/-- A Trimmer of a swap has reached order 4, or takes no part in it. -/
def State.swapReady (s : State) (t : Nat) : Bool :=
  let x := s.trmOf t
  x.fence.on || x.mode = 0 || (x.swap.isSome && x.drained)

/-- The swap of a saggar completes once every Trimmer in service has reached order 4: all of them clear,
load and enter the new program at once, and the saggar's pins are released. -/
def trySwap (g : Nat) (s : State) : State :=
  let ts := s.trimmersOf g
  if !ahas s.trms.swapDeadline g then s
  else if ts.all s.swapReady then
    let s := { s with
      img := { s.img with atStep := aerase s.img.atStep (g, tyPROGRAM) }
      trms := { s.trms with swapDeadline := aerase s.trms.swapDeadline g }
      arrs := { s.arrs with pins := s.arrs.pins.filter (fun p => p.1.1 ≠ g) } }
    forEach (ts.filter (fun t => !(s.trmOf t).fence.on && (s.trmOf t).mode ≠ 0)) loadProgram s
  else s

/-- Main code stops at an instruction boundary. -/
def stopMain (t : Nat) (s : State) : State :=
  modTrm t (fun x => { x with run := .none, mainCtx := some x.ctx }) (endStall t s)

/-- Order 1 and 2 on every Trimmer of a saggar: dispatch stops, a handler runs on, main code stops at an
instruction boundary (once a window access it waits for has come), abandoning a stalled instruction.
Completions are discarded when the new program is loaded; a handler that runs on may still wait for its own. -/
def beginSwap (g : Nat) (s : State) : State :=
  let s := { s with trms := { s.trms with swapDeadline := aset s.trms.swapDeadline g (s.now + aclk (2 ^ 22)) } }
  let s := forEach (s.trimmersOf g) (fun t s => modTrm t (fun x =>
    if x.fence.on || x.mode = 0 then x
    else
      { x with swap := some 1 }) s) s
  let s := forEach (s.trimmersOf g) (fun t s =>
    let x := s.trmOf t
    if x.swap.isSome && !x.fence.on && x.run = .main && !x.blocked then stopMain t s else s) s
  trySwap g s

/-- The swap times out (R123): the old program stays, every Trimmer that had stopped resumes it, and the
deferral is logged with the first Trimmer not at order 4 (R559) and the first 8 bytes of the new program's
digest. -/
def swapTimeout (g : Nat) (s : State) : State :=
  match afind s.trms.swapDeadline g with
  | none => s
  | some d =>
    let s := expire (aclk 1) d { s with trms := { s.trms with swapDeadline := aerase s.trms.swapDeadline g } }
    let late := ((s.trimmersOf g).find? (fun t => !s.swapReady t)).getD 0
    let s := forEach (s.trimmersOf g) (fun t s =>
      if (s.trmOf t).swap.isNone then s else
      let s := modTrm t (fun x => { x with swap := none }) s
      if (s.trmOf t).run = .none then resumeMain t s else s) s
    let new := s.img.cur.bodyOf tyPROGRAM s.fab.node g (s.sagComp g)
    logEvent 0x0204 late (some g) [le (digest new) 0 8] s

/-- The meaning of `PROGRAM_SWAP_TIMEOUT`. -/
def execProgramSwapTimeout (g : Nat) (s : State) : Host.Outcome State Fault Refusal :=
  run (decide (g < 64)) (swapTimeout g s)

/-- What a step boundary does to the Trimmers of a saggar: the counters a confidential saggar reads are
taken, a halted main code restarts at its entry point (R118), and a new program begins its swap. -/
def trimmerBoundary (g : Nat) (s : State) : State :=
  let entry := progEntry (s.program g)
  let s := forEach (s.trimmersOf g) (fun t s => modTrm t (fun x =>
    let x := { x with frozen := ([0, 1, 2, 3, 4, 5, 6, 7, 8, 9, 10] : List Nat).map (fun c => (c, s.hpmLive t c)) }
    if x.mode ≠ 3 || x.fence.on || x.swap.isSome then x
    else if x.run = .none then { x with mode := 2, run := .main, ctx := { pc := entry } }
    else { x with mode := 2, mainCtx := some { pc := entry } }) s) s
  if ahas s.img.atStep (g, tyPROGRAM) && !ahas s.trms.swapDeadline g then beginSwap g s else s

/-! ## Service and fences (R125, R126) -/

/-- Load the machine firmware copy in force: its code to the instruction SRAM, and what follows the first
64 KiB to firmware data; the firmware starts at the first address of its SRAM. -/
def loadFirmware (t : Nat) (s : State) : State :=
  let k := aget s.erc.fw 3 {}
  let code := (if k.inForceB then k.copyB else k.copyA).2
  modTrm t (fun x => { x with
    fwCopyB := k.inForceB
    fwMem := memWrite [] 0 (code.take 0x10000)
    mem := memWrite (memClear x.mem 0 0x8000) 0 (sub code 0x10000 (min 0x8000 (code.length - 0x10000)))
    mctx := { pc := 0x8000000 } }) s

/-- Enter service: firmware loaded, then the saggar's program. `cycle` counts from the first time. -/
def enterService (t : Nat) (s : State) : State :=
  loadProgram t (loadFirmware t (modTrm t (fun x => { x with
    fence := { on := false, cause := 0 }
    mode := 1
    resetAt := if x.mode = 0 then s.now else x.resetAt }) s))

/-- The meaning of `TRIMMER_ENTER_SERVICE`: a fitted Trimmer not yet admitted. -/
def execTrimmerEnterService (t : Nat) (s : State) : Host.Outcome State Fault Refusal :=
  run (decide (t < 128))
    (let x := s.trmOf t
     if decide (t < s.variant.trimmers) && x.fence.on && x.fence.cause = 2 then enterService t s else s)

def trmCtrl (t : Nat) : Nat := trmPage t + 8

/-- The meaning of `TRM_FENCE`. -/
def execTrmFence (who : Who) (t : Nat) (s : State) : Host.Outcome State Fault Refusal :=
  run (who.wf && decide (t < 128)) (ctlWrite who (trmCtrl t) true (fun s => trySwap (s.trmSag t) (fenceTrimmer t (fenceCauseOf who) s)) s)

/-- The meaning of `TRM_UNFENCE`: the in-service BIST of a fenced Trimmer starts. -/
def execTrmUnfence (who : Who) (t : Nat) (s : State) : Host.Outcome State Fault Refusal :=
  run (who.wf && decide (t < 128)) (ctlWrite who (trmCtrl t) (liftsFence who)
    (fun s => if (s.trmOf t).fence.on then modTrm t (fun x => { x with bist := true }) s else s) s)

/-- The BIST that `TRM_UNFENCE` started ends: on pass the Trimmer enters service again. -/
def trmBistDone (t : Nat) (pass : Bool) (s : State) : State :=
  if !(s.trmOf t).bist then s
  else
    let s := modTrm t (fun x => { x with bist := false }) s
    if pass then enterService t s else modTrm t (fun x => { x with fence := { on := true, cause := 3 } }) s

/-- The meaning of `TRM_BIST_DONE`. -/
def execTrmBistDone (t : Nat) (pass : Bool) (s : State) : Host.Outcome State Fault Refusal :=
  run (decide (t < 128)) (trmBistDone t pass s)

/-- The control plane retargets, at an epoch boundary, the RPT table entries of a saggar that name a
fenced Trimmer to the lowest unfenced one, and the held entries move in their order as far as its queue of
64 has room (R116, R125). An entry of the image that names a Trimmer no longer fenced names it again. -/
def retargetTrimmers (s : State) : State :=
  let s := { s with trms := { s.trms with retarget := [] } }
  forEach (List.range s.variant.trimmers) (fun t s =>
    match s.trmOwner t with
    | none => s
    | some g =>
      match (s.trimmersOf g).find? (fun u => !(s.trmOf u).fence.on) with
      | none => s
      | some u =>
        if !(s.trmOf t).fence.on then s else
        let held := (s.trmOf t).rptq
        let room := 64 - (s.trmOf u).rptq.length
        modTrm u (fun x => { x with rptq := x.rptq ++ held.take room })
          (modTrm t (fun x => { x with rptq := held.drop room })
            { s with trms := { s.trms with retarget := aset s.trms.retarget (g, t) u } })) s

/-- The Trimmer that serves an entry of a saggar's RPT table. -/
def State.servingTrimmer (s : State) (g entry : Nat) : Nat := aget s.trms.retarget (g, rptTrimmer entry) (rptTrimmer entry)

/-! ## Firmware restart (R22, R124) -/

/-- The machine firmware of one Trimmer restarts: its code stands still and its calls stay queued. -/
def fwRestart (t : Nat) (s : State) : State := modTrm t (fun x => { x with fwDown := true, mctx := { pc := 0x8000000 } }) s

/-- The meaning of `FW_RESTART`. -/
def execFwRestart (who : Who) (t : Nat) (s : State) : Host.Outcome State Fault Refusal :=
  run (who.wf && decide (t < 128)) (ctlWrite who (trmCtrl t) true (fwRestart t) s)

/-- The trap registers of machine mode: pc, cause, value. -/
def noteTrap (t pc cause tval : Nat) (s : State) : State :=
  modTrm t (fun x => { x with mcsr := aset (aset (aset x.mcsr 0x341 pc) 0x342 cause) 0x343 tval }) s

/-- An upcall of the main code is entered (R105): a0 the cause, the registers R104 names for it, the others
as they are. -/
def enterUpcall (t : Nat) (e : TrmEvent) (s : State) : State :=
  let s := endStall t s
  modTrm t (fun x =>
    let regs := (x.ctx.x.set 10 e.mcause).set 11 e.a1
    let regs := if e.mcause = 17 then regs else regs.set 12 e.a2
    let regs := if e.mcause = 18 then regs.set 13 e.a3 else regs
    { x with upcalls := x.upcalls.erase e, run := .upcall, mainCtx := some x.ctx, ctx := { x.ctx with pc := x.xuvec, x := regs, vpos := 0 } })
    (noteTrap t (s.trmPc t) (2 ^ 63 + e.mcause) 0 s)

/-- Some interrupt can be taken: a Trimmer in service whose firmware is up, with a program, no handler and no
upcall running, and no window access outstanding that the code waits for. -/
def Trm.interruptible (x : Trm) : Bool :=
  !x.fence.on && !x.fwDown && decide (2 ≤ x.mode) && (x.run = .none || x.run = .main) && x.swap.isNone && !x.blocked

/-- An event of a cause that can be passed on now: any while `xuvec` is 0, when it is discarded; else one that
finds main code to interrupt. -/
def Trm.pick (x : Trm) (c : Nat) : Option TrmEvent :=
  if x.xuvec = 0 || x.run = .main then x.upcalls.find? (fun e => e.mcause = c) else none

/-- Pass an event on: discarded while `xuvec` is 0, else as an upcall (R105). -/
def passEvent (t : Nat) (e : TrmEvent) (s : State) : State :=
  if (s.trmOf t).xuvec = 0 then modTrm t (fun x => { x with upcalls := x.upcalls.erase e }) (endStall t s)
  else enterUpcall t e s

/-- The pending source of highest priority is taken (R104, R105). Events wait while a handler or an upcall
runs, and while main code is halted, when calls are still dispatched (R118); upcalls are discarded while
`xuvec` is 0; a stalled instruction is abandoned (R108). -/
def takeInterrupt (t : Nat) (s : State) : State :=
  let x := s.trmOf t
  if !decide (t < s.variant.trimmers) || !x.interruptible then s
  else match x.pick 19 with
    | some e => passEvent t e s
    | none =>
      if !x.rptq.isEmpty then dispatchRpt t (noteTrap t (s.trmPc t) (2 ^ 63 + 16) 0 s)
      else match x.pick 17 with
        | some e => passEvent t e s
        | none => match x.pick 18 with
          | some e => passEvent t e s
          | none => s

/-- `INTERRUPT_TAKE`: pending counter overflows take their sample (R120), then the source of highest
priority is passed on. -/
def interruptTake (t : Nat) (s : State) : State :=
  if !decide (t < s.variant.trimmers) || (s.trmOf t).fence.on || (s.trmOf t).fwDown then s
  else takeInterrupt t (if s.inM t then s else takeSamples t (fun _ => true) s)

/-- The meaning of `INTERRUPT_TAKE`. -/
def execInterruptTake (t : Nat) (s : State) : Host.Outcome State Fault Refusal :=
  run (decide (t < 128)) (interruptTake t s)

/-- The meaning of `TRIMMER_FW_RESTART_DONE`: pending sources are taken again in their order, held calls with
them. -/
def fwRestartDone (t : Nat) (s : State) : State :=
  if !(s.trmOf t).fwDown then s else takeInterrupt t (modTrm t (fun x => { x with fwDown := false }) s)

def execTrimmerFwRestartDone (t : Nat) (s : State) : Host.Outcome State Fault Refusal :=
  run (decide (t < 128)) (fwRestartDone t s)

/-- The meaning of `UPCALL_RETURN`: firmware restores the interrupted context. -/
def upcallReturn (t : Nat) (s : State) : State :=
  if (s.trmOf t).run = .upcall then
    let s := resumeMain t s
    trySwap (s.trmSag t) s
  else s

def execUpcallReturn (t : Nat) (s : State) : Host.Outcome State Fault Refusal :=
  run (decide (t < 128)) (upcallReturn t s)

end Sys2Proof.Machine
end

