-- ==== Sys2Proof/Machine/Firmware.lean ====
section
/-! DEFINITION. Restarts of the processor planes (R22) and firmware in service (R544 to R546): the switch of
a firmware kind, its commit, and the fallback. -/

namespace Sys2Proof.Machine

def State.fw (s : State) (k : Nat) : FwKind := aget s.erc.fw k {}
def modFw (k : Nat) (f : FwKind → FwKind) (s : State) : State := { s with erc := { s.erc with fw := amod s.erc.fw k {} f } }

/-- The copy of a kind in force, and the other one: security version and code. -/
def FwKind.inForce (k : FwKind) : Nat × List Byte := if k.inForceB then k.copyB else k.copyA
def FwKind.other (k : FwKind) : Nat × List Byte := if k.inForceB then k.copyA else k.copyB

/-! ## Plane restarts (R22) -/

/-- The control cores begin a restart: a coordinator query is owed (R476). -/
def cpDown (s : State) : State :=
  bumpSat satCpRestarts { s with
    arch := { s.arch with cp := .restart }
    img := { s.img with queryOwed := true } }

/-- The management controller begins a restart. -/
def mpDown (s : State) : State := bumpSat satMpRestarts { s with arch := { s.arch with mp := .restart } }

/-- The meaning of `CP_RESTART`: only cores that run can restart. -/
def execCpRestart (s : State) : Host.Outcome State Fault Refusal :=
  run true (if s.arch.cp = .run then cpDown s else s)

/-- The meaning of `MP_RESTART`. -/
def execMpRestart (s : State) : Host.Outcome State Fault Refusal :=
  run true (if s.arch.mp = .run then mpDown s else s)

/-- A plane has reached `RUN`: a switch of its kind in progress has succeeded. -/
def switchDone (k : Nat) (s : State) : State :=
  if (s.fw k).switching && (s.fw k).deadline.isSome then modFw k (fun x => { x with switching := false, deadline := none }) s else s

/-- The meaning of `MP_RESTART_END`. -/
def execMpRestartEnd (s : State) : Host.Outcome State Fault Refusal :=
  run true (if s.arch.mp = .restart then switchDone 1 { s with arch := { s.arch with mp := .run } } else s)

/-! ## Switches (R545) -/

/-- A measured item of the evidence has changed (R494, R496): saggars with `REATTEST` lose their weight key at
their next step boundary. -/
def measuredChange (s : State) : State :=
  forEach ((protRecs (s.sysBody tyPROTECTION)).filter (fun r => r.2.2.1)) (fun r s =>
    { s with sag := amod s.sag r.1 {} (fun x => if x.weightKey.isSome || x.loading then { x with reattestDue := true } else x) }) s

/-- The other copy of a kind comes into force. -/
def flipCopy (k : Nat) (s : State) : State := measuredChange (modFw k (fun x => { x with inForceB := !x.inForceB }) s)

/-- The management controller or the control cores restart onto the new copy, within the budget of R22. -/
def startCopy (k : Nat) (s : State) : State :=
  let s := modFw k (fun x => { x with switching := true, deadline := some (s.now + if k = 1 then mclk (2 ^ 26) else cclk (2 ^ 28)) }) (flipCopy k s)
  if k = 1 then mpDown s else cpDown s

/-- The Trimmers of a saggar restart onto the machine firmware in force, user state kept. -/
def switchTrimmers (g : Nat) (s : State) : State :=
  let s := forEach ((s.trimmersOf g).filter (fun t => (s.trmOf t).mode ≠ 0)) (fun t s => fwRestart t (loadFirmware t s)) s
  modFw 3 (fun x =>
    let w := x.waiting.erase g
    { x with waiting := w, switching := x.switching && !w.isEmpty }) s

/-- Whether a saggar runs steps. -/
def State.runsSteps (s : State) (g : Nat) : Bool := (aget s.sit g {}).runs

/-- `SWITCH` for a kind with a pending copy: management at once; control at a step boundary, or at once when
no saggar runs steps; Trimmer firmware saggar by saggar at its boundary. -/
def switchKind (k : Nat) (s : State) : State :=
  let x := s.fw k
  if !x.pending || x.switching then s
  else if k = 1 then startCopy 1 s
  else if k = 2 then
    if (List.range 64).any s.runsSteps then modFw 2 (fun x => { x with switching := true }) s else startCopy 2 s
  else
    let own := (List.range 64).filter (fun g => !(s.trimmersOf g).isEmpty)
    let s := modFw 3 (fun x => { x with switching := !own.isEmpty, waiting := own }) (flipCopy 3 s)
    forEach (own.filter (fun g => !s.runsSteps g)) switchTrimmers s

/-- What a saggar's step boundary does to firmware: a control switch that waits begins, Trimmer firmware is
switched, and a key due for erasure goes (R496, R545). -/
def firmwareBoundary (g : Nat) (s : State) : State :=
  let s := if (s.fw 2).switching && (s.fw 2).deadline.isNone then startCopy 2 s else s
  let s := if (s.fw 3).waiting.contains g then switchTrimmers g s else s
  if (aget s.sag g {}).reattestDue then
    { s with sag := amod s.sag g {} (fun x => { x with key := 0, weightKey := none, reattestDue := false }) }
  else s

def ercFwCtrl : Nat := 0x0070044

/-- A firmware command of an operator session; `NACK_RETRY` while the management controller restarts (R22). -/
def fwWrite (who : Who) (f : State → Status × State) (s : State) : State :=
  ctlWriteSt who ercFwCtrl (fun s => match who with
    | .operator _ => if s.arch.mp = .restart then (.nackRetry, s) else f s
    | _ => (.denied, s)) s

/-- The meaning of `FW_SWITCH`. -/
def execFwSwitch (who : Who) (kind : Nat) (s : State) : Host.Outcome State Fault Refusal :=
  run (who.wf && decide (1 ≤ kind ∧ kind < 4)) (fwWrite who (fun s => (.ok, switchKind kind s)) s)

/-- Raise an anti-rollback counter to a value (R504). -/
def raiseArb (i v : Nat) (s : State) : State :=
  { s with sec := { s.sec with arb := s.sec.arb.set i (max v (s.sec.arb.getD i 0)) } }

/-- `COMMIT` (R546): the kind's counter takes the version of the copy in force; refused while a switch is in
progress. -/
def commitKind (k : Nat) (s : State) : Status × State :=
  if (s.fw k).switching then (.nackRetry, s)
  else (.ok, modFw k (fun x => { x with pending := false }) (raiseArb (k + 1) (s.fw k).inForce.1 s))

/-- The meaning of `FW_COMMIT`. -/
def execFwCommit (who : Who) (kind : Nat) (s : State) : Host.Outcome State Fault Refusal :=
  run (who.wf && decide (1 ≤ kind ∧ kind < 4)) (fwWrite who (commitKind kind) s)

/-- `FW_RESTART_BUDGET_EXPIRY`: the previous copy is started, `PENDING` cleared, the event written with the
failed version. -/
def fallback (k : Nat) (s : State) : State :=
  match (s.fw k).switching, (s.fw k).deadline with
  | true, some d =>
    let bad := (s.fw k).inForce.1
    let s := flipCopy k (expire (mclk 1) d s)
    logEvent 0x0902 0 none [k, bad] (modFw k (fun x => { x with switching := false, deadline := none, pending := false }) s)
  | _, _ => s

/-- The meaning of `FW_RESTART_BUDGET_EXPIRY`. -/
def execFwRestartBudgetExpiry (kind : Nat) (s : State) : Host.Outcome State Fault Refusal :=
  run (decide (1 ≤ kind ∧ kind < 4)) (fallback kind s)

/-- A package of kind 1 to 3 is written to the copy not in force (R544). -/
def packageOk (p : List Byte) (s : State) : Bool :=
  let k := le p 4 1
  let len := le p 16 4
  let limit := if k = 1 then 512 * 1024 else if k = 2 then 1024 * 1024 else 96 * 1024
  decide (1 ≤ k ∧ k ≤ 3) && (le p 0 4 = 0x57464C50) && (le p 5 1 = 0) && (le p 6 2 = 1) && (sub p 20 12).all (· = 0)
    && decide (len ≤ limit) && (p.length = 64 + len + 1280) && (digest (sub p 64 len) = sub p 32 32)
    && decide (s.sec.arb.getD (k + 1) 0 ≤ le p 8 8)
    && Config.falconVerify Config.firmwareKey (ascii "PLF-FW" ++ sub p 0 64) (sub p (64 + len) 1280)

def storePackage (p : List Byte) (s : State) : State :=
  let new := (le p 8 8, sub p 64 (le p 16 4))
  modFw (le p 4 1) (fun x => { x with
    copyA := if x.inForceB then new else x.copyA
    copyB := if x.inForceB then x.copyB else new
    pending := true }) s

end Sys2Proof.Machine
end

