-- ==== Sys2Proof/Machine/Witness.lean ====
section
/-! DEFINITION. The Witness (chapter 19): the taps of SD, the metering of WD, its commits, parameters,
firmware and audit trail, signed reads, and the meter faults. -/

namespace Sys2Proof.Machine

def setWd (f : Wd → Wd) (s : State) : State := { s with wd := f s.wd }
def setWit (f : Wit → Wit) (s : State) : State := { s with wit := f s.wit }

/-! ## Faults (R527) -/

/-- A fault begins: `METER_FAULT`. -/
def meterFault (cause : Nat) (s : State) : State := logEvent 0x0901 0 none [cause] s

/-- A fault clears: WD raises `FAULTS` by one. -/
def meterClear (s : State) : State := setWd (fun w => { w with faults := w.faults + 1 }) s

/-- The WD side runs: it started and found valid firmware. -/
def State.wdUp (s : State) : Bool := s.wd.started && !s.wd.selfFault

/-! ## Taps (R513 to R515) -/

/-- The level of a saggar and tier 1 to 4 (quantity 3 to 6) in pages. -/
def State.tapLevel (s : State) (g qty : Nat) : Nat :=
  if qty = 3 then 16 * (List.range 4).foldl (fun n d => n + recShelfMib (s.sagRec g) d) 0 else s.framesOf (qty - 2) g

/-- A tap frame of SD. -/
def tapFrame (kind g qty value : Nat) (s : State) : State :=
  let f : TapFrame := { kind := kind, saggar := g, qty := qty, value := value, tseq := s.wit.tseq % 2 ^ 32, sdBoot := s.wit.sdBoot.toNat }
  setWit (fun w => { w with tseq := (w.tseq + 1) % 2 ^ 32 }) (emit (.tap f) s)

/-- Every 2^16 SCLK cycles: totals and levels that changed, or one heartbeat (R513). -/
def tapSendDue (s : State) : State :=
  if !s.log.up then s else
  let per := sclk (2 ^ 16)
  let s := carry ((s.now / per + 1) * per) s
  let tot := (List.range 64).flatMap (fun g => ((List.range 3).filter (fun q => aget s.wit.totals (g, q) 0 ≠ aget s.wit.sent (g, q) 0)).map (fun q => (g, q)))
  let lev := (List.range 64).flatMap (fun g => ([3, 4, 5, 6].filter (fun q => s.tapLevel g q ≠ aget s.wit.sentLevels (g, q) 0)).map (fun q => (g, q)))
  if tot.isEmpty && lev.isEmpty then tapFrame 3 0 0 0 s else
  let s := forEach tot (fun k s =>
    let v := aget s.wit.totals k 0
    setWit (fun w => { w with sent := aset w.sent k v }) (tapFrame 1 k.1 k.2 v s)) s
  forEach lev (fun k s =>
    let v := s.tapLevel k.1 k.2
    setWit (fun w => { w with sentLevels := aset w.sentLevels k v }) (tapFrame 2 k.1 k.2 v s)) s

/-- The meaning of `TAP_SEND_DUE`. -/
def execTapSendDue (s : State) : Host.Outcome State Fault Refusal := run true (tapSendDue s)

/-- What a valid tap frame does whatever its kind: it ends a tap loss, and a new `SD_BOOT` makes the next
totals baselines (R514) and ends the levels of the SD that was. -/
def heardTap (f : TapFrame) (s : State) : State :=
  let lost := s.wd.tapLoss
  let s := if lost then meterClear s else s
  setWd (fun w => { w with
    lastFrame := w.ticks
    tapLoss := false
    orderly := decide (f.kind = 4)
    lasts := if w.sdBoot = f.sdBoot then w.lasts else []
    levels := if w.sdBoot = f.sdBoot then w.levels else []
    sdBoot := f.sdBoot }) s

/-- A frame of a kind reaches WD; one whose `MAGIC` or `TCRC` fails is discarded. -/
def tapRx (kind : Nat) (f : TapFrame) (g : State → State) (s : State) : State :=
  if s.wdUp && f.magic = 0x5054 && f.crcOk && f.kind = kind then g (heardTap f s) else s

/-- The saturating add of a metered register (R517). -/
def meterAdd (k : Nat × Nat) (n : Nat) (w : Wd) : Wd :=
  { w with regs := amod w.regs k 0 (fun v => min (v + n) (2 ^ 96 - 1)) }

/-- `TAP_TOTAL`: the increment since the last total, or a baseline; a total of a quantity that has none changes no
register. -/
def tapTotal (f : TapFrame) (s : State) : State :=
  tapRx 1 f (setWd (fun w =>
    if 3 ≤ f.qty then w else
    let k := (f.saggar % 64, f.qty)
    let w := match afind w.lasts k with
      | some last => meterAdd k ((f.value + 2 ^ 64 - last) % 2 ^ 64) w
      | none => w
    { w with lasts := aset w.lasts k f.value })) s

/-- The meaning of `TAP_TOTAL`. -/
def execTapTotal (f : TapFrame) (s : State) : Host.Outcome State Fault Refusal := run (f.wf) (tapTotal f s)

/-- The meaning of `TAP_LEVEL`: the level replaces the held one. -/
def execTapLevel (f : TapFrame) (s : State) : Host.Outcome State Fault Refusal :=
  run (f.wf) (tapRx 2 f (setWd (fun w =>
    if f.qty < 3 ∨ 6 < f.qty then w else { w with levels := aset w.levels (f.saggar % 64, f.qty) f.value })) s)

/-- The meaning of `TAP_HEARTBEAT`. -/
def execTapHeartbeat (f : TapFrame) (s : State) : Host.Outcome State Fault Refusal :=
  run (f.wf) (tapRx 3 f id s)

/-- The meaning of `TAP_POWER_DOWN`: the next totals are baselines; nothing is held any more. -/
def execTapPowerDown (f : TapFrame) (s : State) : Host.Outcome State Fault Refusal :=
  run (f.wf) (tapRx 4 f (setWd (fun w => { w with lasts := [], levels := [] })) s)

/-- `TAP_LOSS_TIMEOUT`: no valid frame for 32 ticks without an orderly power-down. -/
def tapLossTimeout (s : State) : State :=
  if s.wdUp && !s.wd.orderly && !s.wd.tapLoss && decide (s.wd.lastFrame + 32 ≤ s.wd.ticks) then
    meterFault 2 (setWd (fun w => { w with tapLoss := true, lasts := [] }) s)
  else s

/-- The meaning of `TAP_LOSS_TIMEOUT`. -/
def execTapLossTimeout (s : State) : Host.Outcome State Fault Refusal := run true (tapLossTimeout s)

/-! ## Ticks and commits (R515, R518) -/

/-- A meter tick: each held level joins its occupancy register; while the taps are lost the registers take no
credit (R527). -/
def meterTick (s : State) : State :=
  if s.wdUp then
    setWd (fun w => { (if w.tapLoss then [] else w.levels).foldl (fun (w : Wd) l => meterAdd l.1 l.2 w) w with ticks := w.ticks + 1 }) s
  else s

/-- The meaning of `METER_TICK`. -/
def execMeterTick (s : State) : Host.Outcome State Fault Refusal := run true (meterTick s)

/-- The newer register copy: 0 or 1. -/
def Wd.newer (w : Wd) : Nat :=
  let a := w.copies.getD 0 {}
  let b := w.copies.getD 1 {}
  if !b.ok then 0 else if !a.ok then 1 else if a.commit < b.commit then 1 else 0

/-- A commit to the older copy; a firmware package that waits is switched to (R518, R521). -/
def commitRegs (readBackOk : Bool) (s : State) : State :=
  let fail := !readBackOk && !s.wd.nvmFault
  let heal := readBackOk && s.wd.nvmFault
  let s := setWd (fun w =>
    let n := w.newer
    let c := { commit := (w.copies.getD n {}).commit + 1, regs := w.regs, ok := readBackOk : WdCopy }
    { w with
      copies := w.copies.set (1 - n) c
      ticksAt := w.ticks
      nvmFault := !readBackOk
      fwB := if w.installing then !w.fwB else w.fwB
      svnFloor := if w.installing then max w.svnFloor (if w.fwB then w.fwA else w.fwBcopy).svn else w.svnFloor
      installing := false }) s
  if fail then meterFault 3 s else if heal then meterClear s else s

/-- `WITNESS_COMMIT`, every 32 ticks. -/
def witnessCommit (readBackOk : Bool) (s : State) : State :=
  if s.wdUp && decide (s.wd.ticksAt + 32 ≤ s.wd.ticks) then commitRegs readBackOk s else s

/-- The meaning of `WITNESS_COMMIT`. -/
def execWitnessCommit (readBackOk : Bool) (s : State) : Host.Outcome State Fault Refusal :=
  run true (witnessCommit readBackOk s)

/-- The meaning of `VIN_W_LOW`: WD commits at once. -/
def execVinWLow (s : State) : Host.Outcome State Fault Refusal :=
  run true (if s.wdUp then commitRegs true s else s)

/-- `WD_START` (R511, R514, R518): the boot ROM checks the copy in force and falls back to the other; the
newer valid register copy is loaded; totals are baselines. -/
def wdStart (aOk bOk selfOk : Bool) (s : State) : State :=
  let w := s.wd
  let good := fun (b : Bool) => if b then bOk && decide (w.svnFloor ≤ w.fwBcopy.svn) else aOk && decide (w.svnFloor ≤ w.fwA.svn)
  let pick := if good w.fwB then some w.fwB else if good (!w.fwB) then some (!w.fwB) else none
  let c := w.copies.getD w.newer {}
  let ok := pick.isSome && selfOk
  let heal := ok && w.selfFault
  let fail := !ok && !w.selfFault
  let s := setWd (fun w => { w with
    started := true
    installing := false
    fwB := pick.getD w.fwB
    selfFault := !ok
    regs := if c.ok then c.regs else []
    levels := []
    lasts := []
    held := []
    ticksAt := w.ticks
    lastFrame := w.ticks
    orderly := false }) s
  if fail then meterFault 4 s else if heal then meterClear s else s

/-- The meaning of `WD_START`. -/
def execWdStart (aOk bOk selfOk : Bool) (s : State) : Host.Outcome State Fault Refusal :=
  run true (wdStart aOk bOk selfOk s)

/-! ## Changes and the audit trail (R520 to R522) -/

/-- The distinct authority slots of a key set whose signatures over a message verify. -/
def validSigners (set : List KeySlot) (msg : List Byte) (signers : List (List Byte × List Byte)) : List Nat :=
  ((signers.filterMap (fun x => (List.range set.length).find? (fun i =>
    match set[i]? with
    | some k => k.role = 3 && (digest k.key = x.1) && Config.falconVerify k.key msg x.2
    | none => false))).eraseDups)

/-- What the signatures of an image cover (R461). -/
def imgMessage (header dir : List Byte) : List Byte := ascii "PLF-IMG" ++ digest (sub header 0 64 ++ dir)

/-- The change record and its `ARG_LEN`; what its signatures cover (R507). -/
def dcArgLen (r : List Byte) : Nat := le r 48 4
def dcMessage (r : List Byte) : List Byte := ascii "PLF-DC" ++ digest (sub r 0 (64 + dcArgLen r))

/-- The directory names the section with the digest of its body. -/
def dirNames (dir : List Byte) (ty : Nat) (body : List Byte) : Bool :=
  (List.range (dir.length / 48)).any (fun i =>
    let c := parseEntry (sub dir (48 * i) 48)
    c.ty = ty && c.dig = digest body)

/-- Append an audit entry: the event counter rises with it. -/
def addAudit (kind : Nat) (slots : List Nat) (old new : List Byte) (w : Wd) : Wd :=
  { w with audit := w.audit ++ [{ ticks := w.ticks, kind := kind, slots := slots, old := old.take 16, new := new.take 16 }] }

/-- The digest of a key set: of its authority keys in slot order. -/
def setDigest (ks : List KeySlot) : List Byte := digest ((ks.filter (fun k => k.role = 3)).flatMap (·.key))

/-- WD's answer to a forwarded change: the state it accepts, or none where it refuses. -/
def Wd.change (w : Wd) (c : WitnessChange) : Option Wd :=
  if 1024 ≤ w.audit.length then none else
  let two := fun (msg : List Byte) (sg : List (List Byte × List Byte)) =>
    match w.authorities with
    | some ks => let v := validSigners ks msg sg; if 2 ≤ v.length then some (v.take 2) else none
    | none => none
  match c with
  | .params h dir body sg =>
    if !dirNames dir tyWITNESS body then none
    else (two (imgMessage h dir) sg).map (fun sl => addAudit 1 sl (digest w.params) (digest body) { w with params := body })
  | .protection h dir body sg =>
    let ks := keySlots body
    if !dirNames dir tyPROTECTION body then none
    else match w.authorities with
      | none => some (addAudit 3 [] (zeros 16) (setDigest ks) { w with authorities := some ks })
      | some old => (two (imgMessage h dir) sg).map (fun sl => addAudit 3 sl (setDigest old) (setDigest ks) { w with authorities := some ks })
  | .firmwareApproval r sg =>
    (two (dcMessage r) sg).map (fun sl => { w with approved := some (sub r 64 32, sl) })
  | .release r sg =>
    (two (dcMessage r) sg).map (fun sl => addAudit 4 sl (setDigest (w.authorities.getD [])) (zeros 16) { w with authorities := none })

/-- A forwarded change reaches WD; a change of a staged image is answered to the control plane. -/
def wdChange (c : WitnessChange) (s : State) : State :=
  let staged := match c with | .params _ _ _ _ => true | .protection _ _ _ _ => true | _ => false
  if !s.wdUp then s else
  let r := s.wd.change c
  let s := match r with | some w => { s with wd := w } | none => s
  if staged then setWit (fun w => { w with awaiting := w.awaiting - 1, refused := w.refused || r.isNone }) s else s

/-- The firmware copy in force. -/
def Wd.fw (w : Wd) : WdFw := if w.fwB then w.fwBcopy else w.fwA

/-- `WITNESS_FW_PACKAGE` (R521): installed where its digest is the approved one, its metrology signature
verifies and its security version is not below WD's counter. -/
def wdPackage (p : List Byte) (s : State) : State :=
  let w := s.wd
  let len := le p 16 4
  let code := sub p 64 len
  let svn := le p 8 8
  match w.approved with
  | none => s
  | some (dg, sl) =>
    if s.wdUp && !w.installing && decide (w.audit.length < 1024) && (digest p = dg)
        && le p 0 4 = 0x5746_4C50 && le p 4 1 = 4 && le p 6 2 = 1 && (p.length = 64 + len + 1280) && decide (len ≤ 2 ^ 20)
        && (digest code = sub p 32 32) && decide (w.svnFloor ≤ svn)
        && Config.falconVerify Config.metrologyKey (ascii "PLF-FW" ++ sub p 0 64) (sub p (64 + len) 1280) then
      setWd (fun w =>
        let new := { svn := svn, code := code : WdFw }
        let w := addAudit 2 sl (digest w.fw.code) (digest code) w
        { w with
          fwA := if w.fwB then new else w.fwA
          fwBcopy := if w.fwB then w.fwBcopy else new
          installing := true
          approved := none }) s
    else s

/-- The meaning of `WITNESS_FW_PACKAGE`. -/
def execWitnessFwPackage (p : List Byte) (s : State) : Host.Outcome State Fault Refusal :=
  run true (wdPackage p s)

/-! ## Signed reads (R523, R524) -/

/-- A record of the `WITNESS` body: policy and tariff. -/
def Wd.policy (w : Wd) (g : Nat) : Nat := bits (le w.params (16 + 8 * g) 8) 0 2
def Wd.tariff (w : Wd) (g : Nat) : Nat := bits (le w.params (16 + 8 * g) 8) 32 32

/-- The bytes of an audit entry (R522). -/
def AuditEntry.bytes (e : AuditEntry) (i : Nat) : List Byte :=
  natLe i 4 ++ natLe (i + 1) 4 ++ natLe e.ticks 8 ++ natLe e.kind 1 ++ zeros 1
    ++ natLe (e.slots.getD 0 0xFF) 1 ++ natLe (e.slots.getD 1 0xFF) 1 ++ zeros 4 ++ fit e.old 16 ++ fit e.new 16 ++ zeros 8

/-- A signed object over its bytes. -/
def witSigned (b : List Byte) : List Byte := b ++ fit (Config.falconSign Config.witnessKey (ascii "PLF-WIT" ++ b)) 1280

/-- The Witness object of a saggar (R523). -/
def State.witObject (s : State) (g tag : Nat) : List Byte :=
  let w := s.wd
  let r := fun i => natLe (aget w.regs (g, i) 0) 12
  witSigned (natLe 0x54495750 4 ++ natLe 1 2
    ++ natLe (g + 64 * b2n (recMetered (s.sagRec g)) + 128 * b2n (w.tapLoss || w.nvmFault || w.selfFault)) 1 ++ natLe (w.policy g) 1
    ++ natLe tag 8 ++ natLe w.ticks 8 ++ r 0 ++ r 1 ++ r 2 ++ r 3 ++ r 4 ++ r 5 ++ r 6
    ++ natLe w.audit.length 4 ++ natLe w.audit.length 4 ++ natLe w.faults 4 ++ natLe (w.tariff g) 4 ++ natLe w.node 2 ++ zeros 2
    ++ natLe w.fw.svn 8 ++ digest w.fw.code ++ digest w.params ++ digest Config.witnessKey ++ zeros 24)

/-- The audit trail in four objects of 256 entries. -/
def State.auditObjects (s : State) : List (List Byte) :=
  (List.range 4).map (fun k => witSigned ((List.range 256).flatMap (fun i =>
    match s.wd.audit[256 * k + i]? with
    | some e => e.bytes (256 * k + i)
    | none => zeros 64)))

/-- A read is held: a metered confidential saggar, read on the path less than 1,024 ticks ago. -/
def State.readWaits (s : State) (path g : Nat) : Bool :=
  recMetered (s.sagRec g) && s.sagConf g
    && (match afind s.wd.lastRead (path, g) with | some t => decide (s.wd.ticks < t + 1024) | none => false)

/-- What WD answers to a signed read on a path: the objects, none where the read is held or WD is down. -/
def witRead (path g tag sid : Nat) (s : State) : List (List Byte) × State :=
  if !s.wdUp then ([], s)
  else if g = 63 then (s.auditObjects, s)
  else if s.readWaits path g then ([], setWd (fun w => { w with held := w.held ++ [(path, g, tag, sid)] }) s)
  else ([s.witObject g tag], setWd (fun w => { w with lastRead := aset w.lastRead (path, g) w.ticks }) s)

/-- `MPORT_FRAME`: a signed read on the M-port (R524, R526). -/
def mportFrame (g tag : Nat) (crcOk : Bool) (s : State) : State :=
  if !crcOk then s else
  match witRead 1 g tag 0 s with
  | (objs, s) => forEach objs (fun o => emit (.mport o)) s

/-- The meaning of `MPORT_FRAME`. -/
def execMportFrame (g tag : Nat) (crcOk : Bool) (s : State) : Host.Outcome State Fault Refusal :=
  run (decide (g < 64) && decide (tag < 2 ^ 64)) (mportFrame g tag crcOk s)

/-! ## The mirror (R512, R525, R527) -/

/-- What WD writes into the mirror: its state, and the saggar registers as of its last commit (R525). -/
def State.wdMirror (s : State) : MirrorWords :=
  let w := s.wd
  let c := w.copies.getD w.newer {}
  let st := if w.tapLoss || w.nvmFault || w.selfFault then 2 else if w.installing then 3 else 1
  { state := BitVec.ofNat 32 (st * 2 ^ 28 + b2n w.fwB * 2 ^ 27 + w.audit.length * 2 ^ 16 + w.faults % 2 ^ 16)
    events := w.audit.length
    swId := w.fw.svn
    swChecksum := digest w.fw.code
    sags := (List.range 64).map (fun g => (g, (List.range 7).map (fun i => if c.ok then aget c.regs (g, i) 0 else 0),
      BitVec.ofNat 32 (2 * w.policy g + b2n (recMetered (s.sagRec g))))) }

/-- `MIRROR_HEARTBEAT`: mirror words of a WD that has started go into the mirror buffer, a heartbeat alone brings
none; either ends `WD_DOWN`. -/
def mirrorHeartbeat (words : Bool) (s : State) : State :=
  if !s.log.up || !s.wd.started then s else
  let down := s.wit.wdDown
  let s := setWit (fun w => { w with mirror := if words then s.wdMirror else w.mirror, heardAt := s.now, wdDown := false }) s
  if down then meterClear s else s

/-- The meaning of `MIRROR_HEARTBEAT`. -/
def execMirrorHeartbeat (words : Bool) (s : State) : Host.Outcome State Fault Refusal := run true (mirrorHeartbeat words s)

/-- `WD_HEARTBEAT_TIMEOUT`: no mirror heartbeat for 2^26 SCLK cycles. -/
def wdHeartbeatTimeout (s : State) : State :=
  if s.log.up && !s.wit.wdDown then
    meterFault 1 (setWit (fun w => { w with wdDown := true }) (expire (sclk 1) (s.wit.heardAt + sclk (2 ^ 26)) s))
  else s

/-- The meaning of `WD_HEARTBEAT_TIMEOUT`. -/
def execWdHeartbeatTimeout (s : State) : Host.Outcome State Fault Refusal := run true (wdHeartbeatTimeout s)

/-- A metered saggar whose policy is `STOP` while a fault holds opens no further step (R527). -/
def State.meterStops (s : State) (g : Nat) : Bool :=
  recMetered (s.sagRec g) && s.wd.policy g = 1 && !s.meterFaults.isEmpty

end Sys2Proof.Machine
end

