-- ==== Sys2Proof/Machine/Sitter.lean ====
section
/-! DEFINITION. The Sitter (chapter 05): step records and seals, replay, the batches and cut-offs of expert
layers, the shelf window, and the step exchange with its roles and debt. -/

namespace Sys2Proof.Machine

/-! ## Roles and members (R128) -/

def State.sitOf (s : State) (g : Nat) : SitSag := aget s.sit g {}
def modSit (g : Nat) (f : SitSag → SitSag) (s : State) : State := { s with sit := amod s.sit g {} f }
def State.leadOf (s : State) (comp : Nat) : SitLead := aget s.lead comp {}
def modLead (comp : Nat) (f : SitLead → SitLead) (s : State) : State := { s with lead := amod s.lead comp {} f }

/-- This chip's member number in a composition. -/
def State.myMember (s : State) (comp : Nat) : Nat := (s.members comp).findIdx (· = s.fab.node)

/-- Member numbers not fenced in the current epoch, ascending. -/
def State.liveMembers (s : State) (comp : Nat) : List Nat :=
  (List.range (s.members comp).length).filter (fun i => !s.img.fences.contains ((s.members comp).getD i 0))

/-- The member that runs an expert in the current epoch: its home, or its replica once the home is fenced
(R139, R161). -/
def State.homeOf (s : State) (g : Nat) (e : ExpertEntry) : Nat :=
  let m := s.members (s.sagComp g)
  if s.img.fences.contains (m.getD e.home 0xFFFF) && e.replica ≠ 0xFFFF then e.replica else e.home

/-- Listed endpoints not fenced in the current epoch (R162). -/
def State.liveEndpoints (s : State) (comp : Nat) : List Nat := (s.endpoints comp).filter (fun n => !s.img.fences.contains n)

/-- This member leads a composition. -/
def State.leads (s : State) (comp : Nat) : Bool :=
  match s.sagOfComp comp with
  | some g => (s.sitOf g).leader = some (s.myMember comp)
  | none => false

/-! ## Step tokens (R129) -/

/-- The 32-byte payload of a step token. -/
def tokenBytes (kind comp epoch : Nat) (rerun replay : Bool) (step q d member : Nat) : List Byte :=
  natLe (kind + comp * 2 ^ 16 + epoch * 2 ^ 40 + b2n rerun * 2 ^ 56 + b2n replay * 2 ^ 57) 8 ++ natLe step 8
    ++ natLe (q + d * 2 ^ 32) 8 ++ natLe member 8

def tkWord (p : Packet) (i : Nat) : Nat := le p.payload (8 * i) 8
def tkKind (p : Packet) : Nat := bits (tkWord p 0) 0 8
def tkComp (p : Packet) : Nat := bits (tkWord p 0) 16 24
def tkRerun (p : Packet) : Bool := bit (tkWord p 0) 56
def tkStep (p : Packet) : Nat := tkWord p 1
def tkQ (p : Packet) : Nat := bits (tkWord p 2) 0 32
def tkD (p : Packet) : Nat := bits (tkWord p 2) 32 32
def tkMember (p : Packet) : Nat := bits (tkWord p 3) 0 16

def tkEpoch (p : Packet) : Nat := bits (tkWord p 0) 40 16

/-- A well-formed token of a kind for a composition this chip is a member of: its saggar here. -/
def State.token (s : State) (p : Packet) (kind : Nat) : Option Nat :=
  let w := tkWord p 0
  if p.payload.length = 32 ∧ tkKind p = kind ∧ bits w 8 8 = 0 ∧ bits w 58 6 = 0 ∧ bits (tkWord p 3) 16 48 = 0
      ∧ s.fab.node ∈ s.members (tkComp p) then s.sagOfComp (tkComp p) else none

/-- Send a packet of a class that has no answer (R338). -/
def sendOneWay (p : Packet) (s : State) : State := send { p with src := s.fab.node, epoch := s.img.epoch } s

/-- Send a step token to nodes; each emission is a recorded event and advances the clock (R27). -/
def sendToken (nodes : List Nat) (g : Nat) (payload : List Byte) (s : State) : State :=
  forEach nodes (fun n s => sendOneWay { dst := n, opcode := opSTEP, saggar := g, cls := 0, length := 32, payload := payload } (stampLc s)) s

/-- Ask the epoch coordinator to fence a node in the next epoch: the request is taken at once where this
chip is coordinator (R162, R475). -/
def askFence (node : Nat) (s : State) : State :=
  if s.img.isCoord then
    if s.img.nextFences.contains node then s else { s with img := { s.img with nextFences := s.img.nextFences ++ [node] } }
  else sendCtrl s.img.coord (.fenceRequest node) s

/-! ## Digests and records (R150 to R152) -/

def lexLt : List Byte → List Byte → Bool
  | [], [] => false
  | [], _ => true
  | _, [] => false
  | a :: r, b :: t => if a = b then lexLt r t else decide (a.toNat < b.toNat)

/-- A step digest of key and item pairs (R151, R183): leaves by ascending key, equal keys by item, equal
leaves once. -/
def leafDigest (l : List (List Byte × List Byte)) : List Byte :=
  let srt := sortBy (fun a b => lexLt a.1 b.1 || (a.1 = b.1 && lexLt a.2 b.2)) l.eraseDups
  digest (srt.flatMap (fun x => digest (x.1 ++ x.2)))

def leavesOf (step : Nat) (l : List (Nat × List Byte × List Byte)) : List (List Byte × List Byte) :=
  (l.filter (fun x => x.1 = step)).map (·.2)

/-- `MODEL_DIGEST` (R468): section digests, an absent section 32 zero bytes. -/
def State.modelDigest (s : State) (g : Nat) : List Byte :=
  let one := fun (ty : Nat) => let b := s.sagBody ty g; if b.isEmpty then zeros 32 else digest b
  digest (one tyPROGRAM ++ one tySTEPPLAN ++ one tyEXPERTMAP)

/-- `WEIGHT_DIGEST` (R150). -/
def State.weightDigest (s : State) (g : Nat) : List Byte :=
  let ids := sortBy (fun a b => decide (a < b)) (Config.planRegions (s.sagBody tySTEPPLAN g)).eraseDups
  digest (ids.flatMap (fun i => match s.regionKnown g i with | some r => r.contentDigest | none => zeros 32))

/-- The two words of a choice entry. -/
def Choice.words (c : Choice) : Nat × Nat :=
  (1 + c.layer * 2 ^ 8 + c.expert * 2 ^ 16 + c.policy * 2 ^ 28 + c.role * 2 ^ 30 + b2n c.forced * 2 ^ 31 + c.tokens % 65536 * 2 ^ 32,
   c.cutCycle % 2 ^ 32 + c.missing * 2 ^ 32)

/-- Order of choice and frame entries: layer, expert, projection. -/
def entryLt (a b : Nat × Nat) : Bool :=
  let key := fun (e : Nat × Nat) => bits e.1 8 8 * 2 ^ 14 + bits e.1 16 12 * 4 + (if e.1 % 256 = 2 then bits e.1 28 2 else 0)
  decide (key a < key b)

def entryBytes (e : Nat × Nat) : List Byte := natLe e.1 8 ++ natLe e.2 8

/-- ACLK cycles since `OPEN`. -/
def State.sinceOpen (s : State) (g : Nat) : Nat := (s.now - (s.sitOf g).openAt) / 12

/-- The step record of a saggar as it closes. -/
def State.stepRecord (s : State) (g : Nat) : List Byte :=
  let x := s.sitOf g
  let comp := s.sagComp g
  let choices := sortBy entryLt (x.choices.map Choice.words)
  let frames := sortBy entryLt (entriesOf x.step x.frames)
  let trees := sortBy (fun (a b : Nat × Nat) => decide (bits a.1 32 32 < bits b.1 32 32)) (entriesOf x.step x.trees)
  let head :=
    natLe 0x52534C50 4 ++ natLe 1 2 ++ natLe (s.acvOf g) 1 ++ natLe (g + 64 * b2n x.replay + 128 * b2n x.aborted) 1
      ++ natLe x.step 8 ++ natLe comp 3 ++ natLe (b2n x.rerun + 2 * b2n x.ctrlHold) 1 ++ natLe x.epoch 2 ++ natLe (s.myMember comp) 2
      ++ natLe x.lcOpen 4 ++ natLe s.arch.lc 4 ++ fit s.img.dig 32 ++ s.modelDigest g ++ s.weightDigest g
      ++ leafDigest (leavesOf x.step x.inputs) ++ leafDigest (leavesOf x.step x.assigns) ++ leafDigest (leavesOf x.step x.outputs)
      ++ natLe x.q 4 ++ natLe (min (2 ^ 32 - 1) (s.sinceOpen g)) 4 ++ natLe x.d 4
      ++ natLe choices.length 4 ++ natLe frames.length 4 ++ natLe x.recomps.length 4 ++ natLe trees.length 2 ++ natLe x.group.length 2
  head ++ natLe (crc32c head).toNat 4 ++ (choices ++ frames ++ x.recomps ++ trees).flatMap entryBytes

/-! ## The record ring and seals (R153, R154) -/

/-- Bytes of the ring that records on their way hold. -/
def State.ringUsed (s : State) : Nat := s.jsl.records.foldl (fun n r => n + r.bytes.length) 0
def State.ringFree (s : State) : Nat := s.nodeParam 0x0202 * 2 ^ 20 - s.ringUsed

/-- Records of saggars that are gone go into the ring before any other while they fit (R153, R486). -/
def drainLate : List RecordOut → State → State
  | [], s => { s with jsl := { s.jsl with late := [] } }
  | r :: rest, s =>
    if r.bytes.length ≤ s.ringFree then drainLate rest { s with jsl := { s.jsl with records := s.jsl.records ++ [r] } }
    else { s with jsl := { s.jsl with late := r :: rest } }

/-- A saggar's records and seals go into the ring while they fit, in order; the rest waits. -/
def drainWaiting (g : Nat) : List (Nat × Bool × List Byte) → State → State
  | [], s => modSit g (fun x => { x with waiting := [] }) s
  | (n, isSeal, b) :: rest, s =>
    if s.jsl.late.isEmpty && decide (b.length ≤ s.ringFree) then
      drainWaiting g rest { s with jsl := { s.jsl with records := s.jsl.records ++ [{ saggar := g, step := n, isSeal := isSeal, bytes := b }] } }
    else modSit g (fun x => { x with waiting := (n, isSeal, b) :: rest }) s

/-- The seal of a saggar's open group: bytes 0 to 95, then the device key's signature. -/
def State.sealBytes (s : State) (g : Nat) : List Byte :=
  let x := s.sitOf g
  let b := natLe 0x53534C50 4 ++ natLe 1 2 ++ natLe g 1 ++ [0] ++ natLe x.firstStep 8 ++ natLe x.lastStep 8 ++ natLe s.fab.node 2
    ++ natLe x.group.length 2 ++ natLe x.sealSeq 4 ++ x.chain ++ digest (x.group.flatMap id)
  b ++ fit (Config.falconSign Config.deviceKey b) 1280

/-- Close the open group: its seal streams after its last record. -/
def sealGroup (g : Nat) (s : State) : State :=
  let x := s.sitOf g
  if x.group.isEmpty then s else
  let b := s.sealBytes g
  let s := modSit g (fun x => { x with group := [], sealSeq := x.sealSeq + 1, chain := digest b }) s
  drainWaiting g ((s.sitOf g).waiting ++ [(x.lastStep, true, b)]) s

/-- The meaning of `SEAL_NOW`. -/
def sitCtrl (g : Nat) : Nat := 0x0701020 + g * 0x100
def execSealNow (who : Who) (g : Nat) (s : State) : Host.Outcome State Fault Refusal :=
  run (who.wf && decide (g < 64)) (ctlWrite who (sitCtrl g) true (sealGroup g) s)

/-- The meaning of `REPLAY_ENTER` (R155). -/
def execReplayEnter (who : Who) (g : Nat) (s : State) : Host.Outcome State Fault Refusal :=
  run (who.wf && decide (g < 64)) (ctlWrite who (sitCtrl g) true (modSit g (fun x => { x with enterDue := true, exitDue := false })) s)

/-- The meaning of `REPLAY_EXIT` (R155, R156). -/
def execReplayExit (who : Who) (g : Nat) (s : State) : Host.Outcome State Fault Refusal :=
  run (who.wf && decide (g < 64)) (ctlWrite who (sitCtrl g) true (modSit g (fun x => { x with exitDue := true, enterDue := false })) s)

/-- The record of the next step, as the host supplies it to a saggar in replay or about to enter it (R155). -/
def supplyRecord (g : Nat) (record : List Byte) (s : State) : State :=
  if 256 ≤ record.length && ((s.sitOf g).replay || (s.sitOf g).enterDue) then modSit g (fun x => { x with nextSupplied := some record }) s else s

/-- The meaning of `REPLAY_RECORD`. -/
def execReplayRecord (g : Nat) (record : List Byte) (s : State) : Host.Outcome State Fault Refusal :=
  run (decide (g < 64)) (supplyRecord g record s)

/-- The first field of R156 in which a supplied record differs from this member: 1 ACV, 2 model, 3 weights. -/
def State.replayMismatch (s : State) (g : Nat) (r : List Byte) : Option Nat :=
  if le r 6 1 ≠ s.acvOf g then some 1
  else if sub r 64 32 ≠ s.modelDigest g then some 2
  else if sub r 96 32 ≠ s.weightDigest g then some 3
  else none

/-- The comparison at the close of a replayed step (R158): the three digests, then tree entries whose
shape differs. -/
def compareReplay (g : Nat) (s : State) : State :=
  let x := s.sitOf g
  match x.supplied with
  | none => s
  | some r =>
    let differ : Nat → Bool := fun i => match i with
      | 1 => sub r 128 32 ≠ leafDigest (leavesOf x.step x.inputs)
      | 2 => sub r 160 32 ≠ leafDigest (leavesOf x.step x.assigns)
      | _ => sub r 192 32 ≠ leafDigest (leavesOf x.step x.outputs)
    let s := forEach ([1, 2, 3] : List Nat) (fun i s => if differ i then
      logEvent 0x0304 (s.myMember (s.sagComp g)) (some g) [i, 0] (bumpSat (0x0701024 + g * 0x100, 16) s) else s) s
    let was := (recordEntries r).filter (fun e => e.1 % 256 = 4)
    forEach (entriesOf x.step x.trees) (fun e s => match was.find? (fun w => w.1 = e.1) with
      | some w => if w.2 ≠ e.2 then
          logEvent 0x0304 (s.myMember (s.sagComp g)) (some g) [4, bits e.1 32 32] (bumpSat (0x0701024 + g * 0x100, 16) s) else s
      | none => s) s

/-! ## Expert programs (R135, R142) -/

def State.expert (s : State) (g layer e : Nat) : ExpertEntry := expertEntry (s.sagBody tyEXPERTMAP g) layer e
def State.layers (s : State) (g : Nat) : Nat := expLayers (s.sagBody tyEXPERTMAP g)
def State.experts (s : State) (g : Nat) : Nat := expPerLayer (s.sagBody tyEXPERTMAP g)
/-- The program of an expert, for the area its batches number `bank` modulo 2 use. -/
def State.progOf (s : State) (g layer e bank : Nat) : Config.PlanProgram := Config.planProgram (s.sagBody tySTEPPLAN g) layer e bank
def State.prog (s : State) (g layer e : Nat) : Config.PlanProgram := s.progOf g layer e 0

/-- Tiles of an expert not on the shelf. -/
def State.missing (s : State) (g layer e : Nat) : Nat :=
  countIf (List.range (s.prog g layer e).tiles.length) (fun k => !(s.sitOf g).tiles.contains (layer, e, k))

/-- Fields of a dispatch header (R138). -/
def dhWord (p : Packet) (i : Nat) : Nat := le p.payload (8 * i) 8
def dhLayer (p : Packet) : Nat := bits (dhWord p 0) 8 8
def dhExpert (p : Packet) : Nat := bits (dhWord p 0) 16 12
def dhSlot (p : Packet) : Nat := bits (dhWord p 0) 48 4
def dhK (p : Packet) : Nat := bits (dhWord p 0) 52 4
def dhFwd (p : Packet) : Bool := bit (dhWord p 0) 56
def dhStep (p : Packet) : Nat := dhWord p 1
def dhGate (p : Packet) : Nat := bits (dhWord p 2) 0 32
def dhToken (p : Packet) : Nat := bits (dhWord p 2) 32 32
def dhCombine (p : Packet) : Nat := bits (dhWord p 3) 0 32
def dhVector (p : Packet) : List Byte := p.payload.drop 64

/-- Key, item and assignment of a dispatch in the step digests (R151). The widths of `K_SLOT` and `K` in the
assignment, one byte each, are DESIGN CHOICE (log 151). -/
def dispatchKey (p : Packet) : List Byte := natLe (dhLayer p) 1 ++ [1] ++ natLe (dhExpert p) 2 ++ natLe (dhToken p) 4 ++ zeros 8
def dispatchItem (p : Packet) : List Byte :=
  let w0 := dhWord p 0
  natLe (if dhFwd p then w0 - 2 ^ 56 else w0) 8 ++ sub p.payload 8 24 ++ dhVector p
def dispatchAssign (p : Packet) : List Byte := natLe (dhSlot p) 1 ++ natLe (dhK p) 1 ++ natLe (dhGate p) 4

/-! ## Contributions (R143) -/

/-- The contribution packets of a token: the gated vector's binary32 elements and the three lanes. -/
def contribPackets (p : Packet) (g : Nat) (elems : List Byte) (dropped : Bool) : List Packet :=
  let one : Nat := 0x3F800000
  let all := elems ++ natLe (dhGate p) 4 ++ natLe (if dropped then 0 else dhGate p) 4 ++ natLe (if dropped then one else 0) 4
  let n := all.length / 4
  (List.range (ceilDiv n 64)).map (fun sl =>
    let k := min 64 (n - 64 * sl)
    let body := contribBytes (dhCombine p) { pos := dhSlot p, slice := sl, enc := fcB32, nelem := k, data := sub all (256 * sl) (4 * k) }
    { dst := p.src, opcode := opCONTRIB, saggar := g, cls := 3, length := body.length, payload := body })

/-- Send waiting contributions while the control cores may send. -/
def pumpOutbox (g : Nat) (s : State) : State :=
  let all := (s.sitOf g).outbox
  forEach all (fun p s =>
    if s.maySend .control p.dst g && (s.sitOf g).outbox.head? = some p then
      let tag := s.nextTag
      modSit g (fun x => { x with outbox := x.outbox.drop 1, contribs := x.contribs ++ [tag] }) (issue .control p s)
    else s) s

/-- A contribution has been answered. -/
def sitterAnswer (tag : Nat) (s : State) : State :=
  forEach (s.sit.filter (fun q => q.2.contribs.contains tag)) (fun q s =>
    pumpOutbox q.1 (modSit q.1 (fun x => { x with contribs := x.contribs.erase tag }) s)) s

def contribute (g : Nat) (p : Packet) (elems : List Byte) (dropped : Bool) (s : State) : State :=
  pumpOutbox g (modSit g (fun x => { x with outbox := x.outbox ++ contribPackets p g elems dropped }) s)

/-- Forward a dispatch to the replica (R148), its source kept so that the replica contributes to the
accelerator's collective. -/
def forwardToken (g : Nat) (p : Packet) (s : State) : State :=
  let e := s.expert g (dhLayer p) (dhExpert p)
  let dst := (s.members (s.sagComp g)).getD e.replica 0xFFFF
  let body := natLe (dhWord p 0 + 2 ^ 56) 8 ++ p.payload.drop 8
  send { p with dst := dst, payload := body, epoch := s.img.epoch } s

/-! ## Running batches (R141, R142) -/

/-- The arrays of a saggar, ascending. -/
def State.arraysOf (s : State) (g : Nat) : List Nat := (List.range s.variant.arrays).filter (fun a => recArray (s.sagRec g) a)

/-- An array takes part in the Sitter's plan: not fenced, and readmitted at a step boundary since (R91). -/
def State.planned (s : State) (a : Nat) : Bool := !(s.arr a).fence.on && !(s.arr a).unplanned

/-- The array a program record goes to (R89, R142): of those of the saggar on the die whose shelf holds the
record's tile, the one its index names where that takes part, else the first that has a free slot, else the
first. Where no array of the die takes part, another of the saggar serves; none while the saggar has none: the
record waits (DESIGN CHOICE, log 152). -/
def State.pickArray (s : State) (g : Nat) (r : List Byte) : Option Nat :=
  let die := s.shelfDie g (dWAddr r)
  let all := (s.arraysOf g).filter s.planned
  let near := all.filter (fun a => a / 384 = die)
  let l := if near.isEmpty then all else near
  let a := (s.arraysOf g).getD (dArray r) 1535
  if l.contains a then some a else
  match l.find? s.slotFree with
  | some b => some b
  | none => l.head?

/-- A program record as the Sitter issues it: its saggar, array and token count, auto-frame with the declared
MAXEXP of weights and activations (R72, R137), and the gate weights of the batch. On another array than the
plan's, the tile is loaded again. -/
def patchRecord (g a n gates maxW maxA : Nat) (keep : Bool) (r : List Byte) : List Byte :=
  let w0 := le r 0 8
  let w0 := w0 - bits w0 16 6 * 2 ^ 16 - bits w0 24 11 * 2 ^ 24 - bits w0 59 2 * 2 ^ 59 + g * 2 ^ 16 + a * 2 ^ 24
    + b2n (keep && bit w0 59) * 2 ^ 59 + 2 ^ 60
  let w1 := le r 8 8
  let w1 := w1 - bits w1 16 16 * 2 ^ 16 + 0x8000 * 2 ^ 16
  let w2 := le r 16 8
  let w2 := w2 - bits w2 16 16 * 2 ^ 16 + n % 65536 * 2 ^ 16
  let w7 := le r 56 8
  let w7 := bits w7 0 32 + gates % 2 ^ 32 * 2 ^ 32
  let w8 := bits (le r 64 8) 32 32 * 2 ^ 32 + maxA % 2 ^ 16 * 2 ^ 16 + maxW % 2 ^ 16
  natLe w0 8 ++ natLe w1 8 ++ natLe w2 8 ++ sub r 24 32 ++ natLe w7 8 ++ natLe w8 8 ++ sub r 72 56

/-- The frame exponent of an expert job: a supplied frame entry forces it in replay (R157), otherwise it
is derived (R137). -/
def State.jobF (s : State) (g layer expert proj : Nat) (d : List Byte) : Int × Bool :=
  match s.forcedF g (s.sitOf g).step layer expert proj 0 with
  | some f => (f, true)
  | none => (dFUsed d, false)

/-- `MAXEXP` in the header of an expert's weight tensor. -/
def State.maxexpW (s : State) (g layer expert proj : Nat) (bisque : Bool) : Nat :=
  match s.regionKnown g (s.expert g layer expert).region with
  | some r => Config.weightMaxexp r.contentDigest layer expert proj bisque
  | none => Config.weightMaxexp [] layer expert proj bisque

/-- The fill of the tile a record streams was refused for want of the weight key (R493). -/
def State.fillRefused (s : State) (g : Nat) (b : Batch) (r : List Byte) : Bool :=
  (s.sitOf g).refused.any (fun t => t.1 = b.layer && t.2.1 = b.expert && !b.bisque &&
    (let x := (s.prog g t.1 t.2.1).tiles.getD t.2.2 {}
     decide (x.shelf ≤ dWAddr r) && decide (dWAddr r < x.shelf + x.bytes)))

def setBatch (g : Nat) (b : Batch) (s : State) : State :=
  modSit g (fun x => { x with batches := x.batches.map (fun y => if y.id = b.id then b else y) }) s

/-- The descriptor of a record of a batch on an array. -/
def State.sitterJob (s : State) (g a : Nat) (b : Batch) (proj : Nat) (r : List Byte) : List Byte :=
  patchRecord g a b.toks.length (s.progOf g b.layer b.expert b.bank).gates (s.maxexpW g b.layer b.expert proj b.bisque)
    (s.expert g b.layer b.expert).maxexpA ((s.arraysOf g).getD (dArray r) 1535 = a) r

/-- Issue what can be issued of a batch: jobs while their arrays have a free slot; a procedure call once
every job before it has ended, and nothing past it until it has. A job whose tile's fill was refused completes
`REJECTED`, cause 0x30 (R493). `fuel` bounds the records issued. -/
def pumpBatch (g : Nat) : Nat → Batch → State → Batch × State
  | 0, b, s => (b, s)
  | fuel + 1, b, s =>
    match b.left with
    | [] => (b, s)
    | (proj, r) :: rest =>
      if b.callOut then (b, s)
      else if le r 0 1 = 0x80 then
        let c := Config.planCall r
        let e := s.rptEntryOf g c.1
        let t := s.servingTrimmer g e
        if b.running ≠ 0 || decide (64 ≤ (s.trmOf t).rptq.length) then (b, s)
        else
          let p : Packet := { dst := s.fab.node, src := s.fab.node, opcode := opRPT, saggar := g, cls := 1, epoch := s.img.epoch,
                              length := 8 + ceilDiv c.2.length 8 * 8, payload := natLe (c.1 + c.2.length * 2 ^ 16) 8 ++ pad8 c.2 }
          ({ b with left := rest, callOut := true }, enqueueRpt t { p := p, entry := e, sitter := some (g, b.id) } s)
      else
        match s.pickArray g r with
        | none => (b, s)
        | some a =>
          let d := s.sitterJob g a b proj r
          let f := (s.jobF g b.layer b.expert proj d).1
          if s.fillRefused g b r then
            pumpBatch g fuel { b with left := rest } (writeCpl g d (cplRecord d jREJECTED 0 0x30 f 0 0 0) s)
          else if !s.slotFree a then (b, s) else
          match presentJob d (.sitter g b.layer b.expert proj b.id r) g f s with
          | (none, s) => pumpBatch g fuel { b with left := rest, running := b.running + 1 } s
          | (some _, s) => pumpBatch g fuel { b with left := rest } s

/-- Form a batch of an expert's pending tokens: it uses the area its predecessor does not. -/
def formBatch (g layer expert : Nat) (s : State) : State :=
  modSit g (fun x =>
    match x.pend.find? (fun b => b.layer = layer && b.expert = expert) with
    | none => x
    | some b =>
      let last := (x.batches.filter (fun b => b.layer = layer && b.expert = expert)).getLast?
      { x with
        pend := x.pend.filter (fun b => !(b.layer = layer && b.expert = expert))
        batches := x.batches ++ [{ b with id := x.nextBatch, bank := match last with | some y => 1 - y.bank | none => 0 }]
        nextBatch := x.nextBatch + 1
        began := if x.began.contains (layer, expert) then x.began else x.began ++ [(layer, expert)] }) s

/-- Tokens that came after an expert's first batch formed make the next batch as soon as the jobs of the one
before it have been issued (R141). -/
def nextBatch (g layer expert : Nat) (s : State) : State :=
  let x := s.sitOf g
  if x.began.contains (layer, expert) && !x.batches.any (fun b => b.layer = layer && b.expert = expert && (!b.issued || !b.left.isEmpty))
  then formBatch g layer expert s else s

/-- Every job and call of a batch has ended: each token's contribution goes out, and the batch is gone. -/
def finishBatch (g : Nat) (b : Batch) (s : State) : State :=
  let pr := s.progOf g b.layer b.expert b.bank
  let s := modSit g (fun x => { x with batches := x.batches.filter (fun y => y.id ≠ b.id) }) s
  if (s.sitOf g).aborted then s else
  forEach (List.range b.toks.length) (fun i s =>
    contribute g (b.toks.getD i {}) (s.shelfRead g (pr.output + i * pr.outBytes) pr.outBytes) false s) s

/-- Carry every issued batch of a saggar on. -/
def pumpBatches (g : Nat) (s : State) : State :=
  forEach ((s.sitOf g).batches.filter (·.issued)) (fun b s =>
    match pumpBatch g b.left.length b s with
    | (b, s) =>
      let s := setBatch g b s
      let s := if b.left.isEmpty && b.running = 0 && !b.callOut then finishBatch g b s else s
      nextBatch g b.layer b.expert s) s

/-- What a batch computes with is on the shelf: its tiles, or the bisque copy; a tile whose fill was refused is
awaited no longer (R493). -/
def State.batchReady (s : State) (g : Nat) (b : Batch) : Bool :=
  let x := s.sitOf g
  let n := (s.prog g b.layer b.expert).bisqueTiles.length
  if b.bisque then (List.range n).all (fun k => x.bisque.contains (b.layer, b.expert, k))
  else (List.range (s.prog g b.layer b.expert).tiles.length).all (fun k =>
    x.tiles.contains (b.layer, b.expert, k) || x.refused.contains (b.layer, b.expert, k))

/-- Issue the oldest formed batch of an expert, once the batches before it have been issued, the one that uses
its area is done, and its tiles are on the shelf: the token vectors and gate weights are laid out. -/
def batchRun (g layer expert : Nat) (s : State) : State :=
  let x := s.sitOf g
  let mine := x.batches.filter (fun b => b.layer = layer && b.expert = expert)
  if mine.any (fun b => b.issued && !b.left.isEmpty) || x.aborted then s else
  match mine.find? (fun b => !b.issued) with
  | none => s
  | some b =>
    if !s.batchReady g b || mine.any (fun y => y.issued && y.bank = b.bank) then s else
    let pr := s.progOf g layer expert b.bank
    let s := forEach (List.range b.toks.length) (fun i s =>
      let p := b.toks.getD i {}
      shelfWrite g (pr.gates + 4 * i) (natLe (dhGate p) 4) (shelfWrite g (pr.input + i * pr.vecBytes) (dhVector p) s)) s
    pumpBatches g (setBatch g { b with issued := true, left := if b.bisque then pr.bisque else pr.records } s)

/-- The meaning of `BATCH_RUN`. -/
def execBatchRun (g layer expert : Nat) (s : State) : Host.Outcome State Fault Refusal :=
  run (decide (g < 64) && decide (layer < 256) && decide (expert < 4096)) (batchRun g layer expert s)

/-- Tokens of an expert that no batch has begun to run. -/
def SitSag.waitingToks (x : SitSag) (layer expert : Nat) : List Packet :=
  (x.pend ++ x.batches.filter (fun b => !b.issued)).flatMap (fun b => if b.layer = layer ∧ b.expert = expert then b.toks else [])

/-- Take those tokens out. -/
def dropToks (g layer expert : Nat) (s : State) : State :=
  modSit g (fun x => { x with
    pend := x.pend.filter (fun b => !(b.layer = layer && b.expert = expert))
    batches := x.batches.filter (fun b => b.issued || !(b.layer = layer && b.expert = expert)) }) s

/-- The elements of a dropped contribution's vector: all +0. -/
def State.zeroVector (s : State) (g layer expert : Nat) : List Byte := zeros (s.prog g layer expert).outBytes

/-- Apply a policy to the tokens of an expert that wait (R148). -/
def applyPolicy (g layer expert policy : Nat) (s : State) : State :=
  let toks := (s.sitOf g).waitingToks layer expert
  match policy with
  | 1 => modSit g (fun x => { x with
      pend := x.pend.map (fun (b : Batch) => if b.layer = layer ∧ b.expert = expert then { b with bisque := true } else b)
      batches := x.batches.map (fun (b : Batch) => if b.layer = layer ∧ b.expert = expert ∧ !b.issued then { b with bisque := true } else b) }) s
  | 2 => forEach toks (forwardToken g) (dropToks g layer expert s)
  | 3 => forEach toks (fun p s => contribute g p (s.zeroVector g layer expert) true s) (dropToks g layer expert s)
  | _ => s

/-- The choice supplied for an expert in replay (R157). -/
def State.suppliedChoice (s : State) (g layer expert : Nat) : Option (Nat × Nat) :=
  match (s.sitOf g).supplied with
  | none => none
  | some r => (recordEntries r).find? (fun e => e.1 % 256 = 1 && bits e.1 8 8 = layer && bits e.1 16 12 = expert)

/-- Fire an expert's policy (R148): counted, and entered as a choice; a replica waits (R149), and a re-run
treats every firing as `WAIT` (R160). The replica that runs an expert of a fenced home is its home now, and has
no replica to forward to: `REPLICA` is then `WAIT` (DESIGN CHOICE, log 153). -/
def fire (g layer expert : Nat) (s : State) : State :=
  let x := s.sitOf g
  let e := s.expert g layer expert
  let home := s.homeOf g e = s.myMember (s.sagComp g)
  let policy := if !home || x.rerun || (e.policy = 2 && s.homeOf g e ≠ e.home) then 0 else e.policy
  let n := (x.waitingToks layer expert).length
  if n = 0 || x.choices.any (fun c => c.layer = layer && c.expert = expert) then s else
  let c : Choice := { layer := layer, expert := expert, policy := policy, role := b2n !home, tokens := n,
                      cutCycle := x.q * e.cutFrac / 65536, missing := s.missing g layer expert }
  applyPolicy g layer expert policy (bumpSat (0x0701024 + g * 0x100, 0) (modSit g (fun x => { x with choices := x.choices ++ [c] }) s))

/-- A layer's shelf tiles are freed once its batch-close point and cut-off have passed and no token of it
is pending; pinned units stay (R146). -/
def freeLayers (g : Nat) (s : State) : State :=
  let x := s.sitOf g
  let busy := fun (l : Nat) => (x.pend ++ x.batches).any (fun b => b.layer = l)
  let done := fun (l : Nat) => x.closedLayers.contains l && x.cutLayers.contains l && !busy l
  let pinned := fun (t : Nat × Nat × Nat) =>
    let p := (s.prog g t.1 t.2.1).tiles.getD t.2.2 {}
    (List.range (p.bytes / 65536 + 2)).any (fun i => decide (p.shelf / 65536 + i ≤ (p.shelf + p.bytes - 1) / 65536)
      && decide (0 < aget s.arrs.pins (g, p.shelf / 65536 + i) 0))
  modSit g (fun x => { x with
    tiles := x.tiles.filter (fun t => !done t.1 || pinned t)
    refused := x.refused.filter (fun t => !done t.1) }) s

/-! ## Weight streaming (R145, R147, R493) -/

/-- Experts of a layer this member serves as home or replica. -/
def State.served (s : State) (g layer : Nat) : List Nat :=
  let me := s.myMember (s.sagComp g)
  (List.range (s.experts g)).filter (fun e => (s.expert g layer e).home = me || (s.expert g layer e).replica = me)

/-- Experts of a layer in staging order: descending tokens of the previous step, then ascending number. -/
def State.stageOrder (s : State) (g layer : Nat) : List Nat :=
  let n := fun (e : Nat) => aget (s.sitOf g).prevDispatched (layer, e) 0
  sortBy (fun a b => decide (n b < n a)) (s.served g layer)

/-- The current layer: the lowest not yet past both its points, or with a token pending. -/
def State.curLayer (s : State) (g : Nat) : Nat :=
  let x := s.sitOf g
  ((List.range (s.layers g)).find? (fun l => !(x.closedLayers.contains l && x.cutLayers.contains l)
    || (x.pend ++ x.batches).any (fun b => b.layer = l))).getD 0

/-- The planned tile of a name (layer, expert, number). -/
def State.planTile (s : State) (g : Nat) (t : Nat × Nat × Nat) : Config.PlanTile := (s.prog g t.1 t.2.1).tiles.getD t.2.2 {}

/-- The 64 KiB units a planned tile touches on the shelf. -/
def tileUnits (t : Config.PlanTile) : List Nat :=
  (List.range (t.bytes / 65536 + 2)).filterMap (fun i =>
    let u := t.shelf / 65536 + i
    if t.bytes ≠ 0 ∧ u ≤ (t.shelf + t.bytes - 1) / 65536 then some u else none)

/-- Two planned tiles overlap on the shelf. -/
def overlap (a b : Config.PlanTile) : Bool := decide (a.shelf < b.shelf + b.bytes) && decide (b.shelf < a.shelf + a.bytes)

/-- The tile the shelf window stages next: the window is planned around the units pinned at the last step
boundary (R114), and skips a tile whose fill was refused. -/
def State.nextTile (s : State) (g : Nat) : Option (Nat × Nat × Nat) :=
  let x := s.sitOf g
  let c := s.curLayer g
  let ls := ((List.range (s.sagParam g 0x0303)).map (· + c)).filter (fun l => decide (l < s.layers g))
  let ts := ls.flatMap (fun l => (s.stageOrder g l).flatMap (fun e => (List.range (s.prog g l e).tiles.length).map (fun k => (l, e, k))))
  ts.find? (fun t => !x.tiles.contains t && !x.refused.contains t && !(tileUnits (s.planTile g t)).any x.planPins.contains)

/-- The place of a tile on the shelf is free: no pinned unit and no other staged tile in it. -/
def State.placeFree (s : State) (g : Nat) (t : Config.PlanTile) : Bool :=
  !(tileUnits t).any (fun u => decide (0 < aget s.arrs.pins (g, u) 0)) && !(s.sitOf g).tiles.any (fun q => overlap t (s.planTile g q))

/-- The bytes a planned tile takes in its region. -/
def tileStored (t : Config.PlanTile) : Nat := if t.table = 0 then t.bytes else t.coded

/-- Every page of a planned tile has a frame here in one of the tiers. -/
def State.tileIn (s : State) (g : Nat) (t : Config.PlanTile) (tiers : List Nat) : Bool :=
  match afind s.tie.regions t.region with
  | none => false
  | some r => r.saggar = g && (pagesOf t.offset (tileStored t)).all (fun p => (aget r.working p []).any (fun f => tiers.contains (s.frameTier f)))

/-- Whether a tile can be staged straight from T3: where T2 is short for the saggar (step T2.4 of R219), or its
region has no place in T2. -/
def State.tileFromT3 (s : State) (g : Nat) (t : Config.PlanTile) : Bool :=
  s.tileIn g t [2, 3] && (s.isShort 2 g || !(polTiers (s.region t.region).tierPol).contains 2)

/-- What comes of a fill. -/
inductive Fill where
  | done
  | refused
  | waits
  deriving DecidableEq, Repr

/-- Whether a grain is held with `ENC` set. -/
def State.encAt (s : State) (r : Region) (gi : Nat) : Bool :=
  match s.servingFrame (aget r.working (gi / 256) []) with | some id => (s.sideAt id (gi % 256)).enc | none => false

/-- The plain bytes of a grain as the fill port passes it (R487): an `IMMUTABLE` grain with `ENC` set is decrypted
under the weight key; the home's port has decrypted every other. -/
def State.fillGrain (s : State) (r : Region) (gi : Nat) (b : List Byte) : List Byte :=
  if s.encAt r gi && r.immutable then Config.xtsDecrypt (((s.sagSec r.saggar).weightKey).getD []) (tweak r gi) b else b

/-- Read a planned tile as the fill port passes it. Without the weight key a grain with `ENC` set is refused and
nothing of it reaches the shelf (R493). -/
def readPlanTile (r : Region) (t : Config.PlanTile) (s : State) : Option (List Byte) × Fill × State :=
  let g0 := t.offset / 256
  let n := ceilDiv (t.offset + tileStored t) 256 - g0
  if (List.range n).any (fun i => s.encAt r (g0 + i)) && (s.sagSec r.saggar).weightKey.isNone then (none, .refused, s) else
  match readRegion r none (g0 * 256) (n * 256) s with
  | (.data bs, s) =>
    let plain := (List.range n).flatMap (fun i => s.fillGrain r (g0 + i) (sub bs (256 * i) 256))
    (some (sub plain (t.offset - g0 * 256) (tileStored t)), .done, s)
  | (_, s) => (none, .waits, s)

/-- A region's copies here by tier, each as though it were the only one. -/
def State.copiesByTier (s : State) (r : Region) : List Region :=
  [2, 3, 4].map (fun tier => { r with working := (r.working.map (fun w => (w.1, w.2.filter (fun i => s.frameTier i = tier)))).filter (fun w => !w.2.isEmpty) })

/-- The Sitter's decode job of a coded tile on an engine (R249), with each copy of the region in turn until one
decodes; if none does it is logged, and the tile is not on the shelf (R265). -/
def decodeTile (g e : Nat) (t : Config.PlanTile) (tab : Except Nat (List Byte)) : List Region → Nat × Nat → State → Fill × State
  | [], bad, s => (.refused, noteDamaged e g bad.1 bad.2 t.table s)
  | r :: rest, bad, s =>
    if !(pagesOf t.offset t.coded).all (ahas r.working ·) then decodeTile g e t tab rest bad s else
    match readPlanTile r t s with
    | (some bs, _, s) =>
      let d := match tab with
        | .ok o => decodeBlocks t.table (some o) t.bytes t.blocks bs {}
        | .error c => { firstBad := 0, cause := c }
      if d.firstBad = 0xFFFF then (.done, shelfProduce g t.shelf d.out (bumpCtr (ctrCdcDec e) d.out.length s))
      else decodeTile g e t tab rest (d.firstBad, d.cause) s
    | (none, f, s) => (f, s)

/-- Copy one planned tile onto the shelf through the fill port, which creates the checks afresh (R489). -/
def copyTile (g : Nat) (t : Config.PlanTile) (s : State) : Fill × State :=
  match s.regionKnown g t.region with
  | none => (.waits, s)
  | some r =>
    if t.table = 0 then
      match readPlanTile r t s with
      | (some bs, _, s) => (.done, shelfProduce g t.shelf bs s)
      | (none, f, s) => (f, s)
    else if s.sagConf g then (.refused, s)
    else match s.pickEngine t.coded with
      | none => (.waits, s)
      | some e =>
        match usableTable g t.table s with
        | (none, s) => (.waits, s)
        | (some tab, s) => decodeTile g e t tab (s.copiesByTier r) (0, 0) s

/-- `SHELF_TILE_STAGED`: the copy of the tile next in order completes, from T2, or from T3 where T2 is short. -/
def shelfTileStaged (g layer expert tile : Nat) (s : State) : State :=
  let t := s.planTile g (layer, expert, tile)
  if s.nextTile g ≠ some (layer, expert, tile) || !s.placeFree g t || !(s.tileIn g t [2] || s.tileFromT3 g t) then s else
  let s := if s.tileIn g t [2] || !s.isShort 2 g then s else noteFallback g s
  match copyTile g t s with
  | (.done, s) => modSit g (fun x => { x with tiles := x.tiles ++ [(layer, expert, tile)] }) s
  | (.refused, s) => modSit g (fun x => { x with refused := x.refused ++ [(layer, expert, tile)] }) s
  | (.waits, s) => s

def execShelfTileStaged (g layer expert tile : Nat) (s : State) : Host.Outcome State Fault Refusal :=
  run (decide (g < 64) && decide (layer < 256) && decide (expert < 4096) && decide (tile < 2 ^ 20)) (shelfTileStaged g layer expert tile s)

/-- Bisque copies that are not on the shelf go to their area (R147): at the application of an image, and, where
their weights could not be read then, at each step boundary. -/
def stageBisque (g : Nat) (s : State) : State :=
  forEach (List.range (s.layers g)) (fun l s => forEach (s.served g l) (fun e s =>
    let ts := (s.prog g l e).bisqueTiles
    forEach (List.range ts.length) (fun k s =>
      if (s.sitOf g).bisque.contains (l, e, k) then s else
      match copyTile g (ts.getD k {}) s with
      | (.done, s) => modSit g (fun x => { x with bisque := x.bisque ++ [(l, e, k)] }) s
      | (_, s) => s) s) s) s

/-- What the plan had on the shelf is no longer there, or no longer the plan's. -/
def dropStaged (g : Nat) (s : State) : State :=
  if ahas s.sit g then modSit g (fun x => { x with tiles := [], refused := [], bisque := [] }) s else s

/-- Movers bring into T2, for a region of another home from the nearest copy this chip knows (R206), the weights of the current layer and of the `WIN_HBM` layers ahead of it, of every layer
where that is 0. -/
def streamWindow (g : Nat) (s : State) : State :=
  let w := s.sagParam g 0x0302
  let c := s.curLayer g
  let ls := if w = 0 then List.range (s.layers g) else ((List.range (w + 1)).map (· + c)).filter (fun l => decide (l < s.layers g))
  let ids := (ls.flatMap (fun l => (s.served g l).flatMap (fun e => (s.prog g l e).tiles.map (fun (t : Config.PlanTile) => t.region)))).eraseDups
  let s := { s with tie := { s.tie with windowFrames :=
    (s.tie.windowFrames.filter (fun f => (aget s.tie.frames f {}).saggar ≠ g))
      ++ (ids.flatMap (fun i => (s.region i).working.flatMap (·.2))).filter (fun f => s.frameTier f = 2) } }
  forEach ids (fun i s =>
    let s := match s.regionKnown g i with
      | some r => if r.immutable && !s.homes.contains r.home then wantCopy r s else s
      | none => s
    let r := s.region i
    let here := (r.working.filter (fun p => !p.2.any (fun f => s.frameTier f = 2))).map (·.1)
    let away := if r.holders.isEmpty then [] else r.lostPages
    forEach (here.map (fun p => (p, none)) ++ away.map (fun p => (p, r.holders.head?))) (fun (x : Nat × Option Nat) s =>
      if s.tie.queue.any (fun j => j.region = i && j.page = x.1) || s.tie.movers.any (fun m => m.2.job.region = i && m.2.job.page = x.1) then s
      else enqueueMove { cls := 3, region := i, page := x.1, toTier := 2, fromNode := x.2, saggar := g } s) s) s

/-- Free what can be freed; the windows follow the current layer. -/
def settleLayers (g : Nat) (s : State) : State := streamWindow g (freeLayers g s)

/-- A token joins its expert: forced choices of replay and a firing of the step cover it (R148, R157);
otherwise it waits in the pending batch. `BATCH_T` tokens or a passed batch-close point close the expert's first
batch of the step; a later one goes as its predecessor's jobs have been issued (R141). -/
def joinToken (g : Nat) (p : Packet) (s : State) : State :=
  let l := dhLayer p
  let e := dhExpert p
  let s := modSit g (fun x => { x with
    dispatched := amod x.dispatched (l, e) 0 (· + 1)
    pend := if x.pend.any (fun b => b.layer = l && b.expert = e) then
        x.pend.map (fun (b : Batch) => if b.layer = l ∧ b.expert = e then { b with toks := b.toks ++ [p] } else b)
      else x.pend ++ [{ layer := l, expert := e, toks := [p] }] }) s
  let x := s.sitOf g
  let s := match (if x.replay then s.suppliedChoice g l e else none) with
    | some c =>
      if x.choices.any (fun y => y.layer = l && y.expert = e) then s else
      let y : Choice := { layer := l, expert := e, policy := bits c.1 28 2, role := bits c.1 30 1, forced := true,
                          cutCycle := bits c.2 0 32, missing := bits c.2 32 32 }
      modSit g (fun x => { x with choices := x.choices ++ [y] }) s
    | none => s
  let x := s.sitOf g
  let s := match x.choices.find? (fun c => c.layer = l && c.expert = e) with
    | some c =>
      let s := modSit g (fun x => { x with choices := x.choices.map (fun (y : Choice) =>
        if y.layer = l ∧ y.expert = e then { y with tokens := y.tokens + 1 } else y) }) s
      applyPolicy g l e (if x.replay && c.policy = 2 then 0 else c.policy) s
    | none => if !x.replay && x.cutLayers.contains l && s.missing g l e ≠ 0 then fire g l e s else s
  let x := s.sitOf g
  let full := x.pend.any (fun b => b.layer = l && b.expert = e && decide (s.sagParam g 0x0301 ≤ b.toks.length))
  if x.began.contains (l, e) then nextBatch g l e s
  else if full || x.closedLayers.contains l then formBatch g l e s else s

/-! ## Dispatch acceptance (R131, R140) -/

/-- Bytes in a saggar's dispatch buffer: tokens accepted and not yet done, and requests held for the next step. -/
def State.dispatchBytes (s : State) (g : Nat) : Nat :=
  let x := s.sitOf g
  ((x.pend ++ x.batches).flatMap (·.toks) ++ x.held).foldl (fun n p => n + p.payload.length) 0

/-- A request for the next step waits in the dispatch buffer until its `OPEN` (R131). -/
def holdRequest (p : Packet) (s : State) : State :=
  modSit p.saggar (fun x => if x.held.contains p then x else { x with held := x.held ++ [p] }) (wait p s)

/-- It waits no longer. -/
def unhold (p : Packet) (s : State) : State :=
  if (s.sitOf p.saggar).held.contains p then modSit p.saggar (fun x => { x with held := x.held.filter (· ≠ p) }) s else s

/-- How a step number stands (R131). -/
inductive StepCheck where
  | open_ | next | out
  deriving DecidableEq, Repr

def State.stepCheck (s : State) (g n : Nat) : StepCheck :=
  let x := s.sitOf g
  let next := if x.runs then x.step + 1 else s.compParam (s.sagComp g) 0x0104
  if x.isOpen && n = x.step then .open_ else if n = next || (!x.isOpen && x.aborted && n = x.step) then .next else .out

/-- Rows 2 to 4 of R140 for a TC4 request's saggar: the composition has it, is not fenced, and the epoch
is served. -/
def State.stepRefusal (s : State) (p : Packet) : Option (Status × Nat) :=
  let comp := s.sagComp p.saggar
  if p.saggar = 0 || !s.sagExists p.saggar || !(s.members comp).contains s.fab.node then some (.denied, 0)
  else if s.compFenced comp then some (.nackFenced, 0)
  else if s.epochCheck p = .stale then some (.nackStaleEpoch, 0)
  else if s.epochCheck p = .notReady then some (.nackRetry, 10)
  else none

/-- Row 5. -/
def State.dispatchBad (s : State) (p : Packet) : Bool :=
  let w := dhWord p 0
  let vb := (s.prog p.saggar (dhLayer p) (dhExpert p)).vecBytes
  decide (p.payload.length < 64) || w % 256 ≠ 1 || bits w 57 7 ≠ 0 || bits (dhWord p 3) 32 32 ≠ 0 || (sub p.payload 32 32).any (· ≠ 0)
    || decide (s.layers p.saggar ≤ dhLayer p) || decide (s.experts p.saggar ≤ dhExpert p)
    || bits w 32 16 * 16 ≠ ceilDiv vb 16 * 16 || p.payload.length ≠ 64 + bits w 32 16 * 16
    || decide (dhK p ≤ dhSlot p && dhK p ≠ 0) || s.stepCheck p.saggar (dhStep p) = .out

/-- `DISPATCH`: the checks of R140; a request for the next step waits (R131). The home of row 6 is the member
that runs the expert in the current epoch (R161). -/
def dispatchTrain (p : Packet) (s : State) : State :=
  let g := p.saggar
  let comp := s.sagComp g
  let e := s.expert g (dhLayer p) (dhExpert p)
  if s.variant.arrays = 0 then reply p .unitAbsent 0 [] (take p s) else
  match s.stepRefusal p with
  | some (st, h) => reply p st h [] (unhold p (take p s))
  | none =>
    if s.dispatchBad p then reply p .denied 0 [] (unhold p (take p s))
    else if (if dhFwd p then e.replica else s.homeOf g e) ≠ s.myMember comp then reply p .denied 0 [] (unhold p (take p s))
    else
      let held := (s.sitOf g).held.contains p
      let room := decide (s.dispatchBytes g + (if held then 0 else p.payload.length) ≤ s.sagParam g 0x0304 * 2 ^ 20)
      if !room then reply p .nackRetry 12 [] (take p s)
      else if s.stepCheck g (dhStep p) = .next || (s.sitOf g).aborted then holdRequest p s
      else
        settleLayers g (joinToken g p (reply p .ok 0 [] (unhold p (take p s))))

/-- The meaning of `DISPATCH`. -/
def execDispatch (p : Packet) (s : State) : Host.Outcome State Fault Refusal := run (p.wf) (reassemble p dispatchTrain s)

/-! ## Batch-close point and cut-off (R141, R146, R148) -/

/-- The time of a fraction of Q after `OPEN`. -/
def State.fracTime (s : State) (g frac : Nat) : Nat := (s.sitOf g).openAt + aclk ((s.sitOf g).q * frac / 65536)

/-- `BATCH_CLOSE_POINT`: the pending tokens of a layer form batches. -/
def batchClosePoint (g layer : Nat) (s : State) : State :=
  let x := s.sitOf g
  if !x.isOpen || x.closedLayers.contains layer || decide (s.layers g ≤ layer) then s else
  let s := carry (s.fracTime g (s.expert g layer 0).bcloseFrac) s
  let s := modSit g (fun x => { x with closedLayers := x.closedLayers ++ [layer] }) s
  settleLayers g (forEach (x.pend.filter (fun b => b.layer = layer && !x.began.contains (layer, b.expert))) (fun b s => formBatch g layer b.expert s) s)

def execBatchClosePoint (g layer : Nat) (s : State) : Host.Outcome State Fault Refusal :=
  run (decide (g < 64) && decide (layer < 256)) (batchClosePoint g layer s)

/-- `CUT_OFF`: the policy fires for every expert of the layer with a token waiting and a tile missing; in
replay cut-offs never fire (R155). -/
def cutOff (g layer : Nat) (s : State) : State :=
  let x := s.sitOf g
  if !x.isOpen || x.cutLayers.contains layer || decide (s.layers g ≤ layer) then s else
  let s := carry (s.fracTime g (s.expert g layer 0).cutFrac) s
  let s := modSit g (fun x => { x with cutLayers := x.cutLayers ++ [layer] }) s
  let es := (((x.pend ++ x.batches.filter (fun b => !b.issued)).filter (fun b => b.layer = layer)).map (·.expert)).eraseDups
  let s := if x.replay then s else
    forEach (sortBy (fun a b => decide (a < b)) es) (fun e s => if s.missing g layer e ≠ 0 then fire g layer e s else s) s
  settleLayers g s

def execCutOff (g layer : Nat) (s : State) : Host.Outcome State Fault Refusal := run (decide (g < 64) && decide (layer < 256)) (cutOff g layer s)

/-! ## Jobs and calls of the Sitter end (R85, R152, R159) -/

/-- A job of a batch has ended: its frame and recomputation entries; a job that a fence or the residue
check ended is issued again, from its plan record, on another array (R89); the batch goes on. -/
def sitterJobDone (g layer expert proj batch : Nat) (record : List Byte) (j : ArrJob) (a : Nat) (s : State) : State :=
  let f := frameEntry layer expert proj (dField j.desc 1 12 2) j.f 0
  let again := j.jstat = jFENCED || j.jstat = jRESIDUE
  let rec_ := (3 + layer * 2 ^ 8 + expert * 2 ^ 16 + proj * 2 ^ 28 + min 3 j.failed * 2 ^ 30 + a * 2 ^ 32 + b2n again * 2 ^ 43, dTag j.desc)
  let s := modSit g (fun x => { x with
    frames := if again || x.frames.any (fun e => e.1 = x.step && e.2.1 = f.1) then x.frames else x.frames ++ [(x.step, f)]
    recomps := if 0 < j.failed || again then x.recomps ++ [rec_] else x.recomps
    batches := x.batches.map (fun (b : Batch) => if b.id = batch then
        { b with running := b.running - 1, left := if again && !x.aborted then (proj, record) :: b.left else b.left } else b) }) s
  settleLayers g (pumpBatches g s)

/-- A procedure call of a batch has ended. -/
def sitterCallDone (g batch : Nat) (s : State) : State :=
  settleLayers g (pumpBatches g (modSit g (fun x => { x with batches := x.batches.map (fun (b : Batch) => if b.id = batch then { b with callOut := false } else b) }) s))

/-! ## Opening a step at a member (R130, R155, R156) -/

/-- Saggar sections staged for a step boundary take effect (R474); a changed plan or map leaves nothing of the old
plan's tiles on the shelf. -/
def boundarySections (g : Nat) (s : State) : State :=
  let due := fun (p : (Nat × Nat) × List Byte) => p.1.1 = g && p.1.2 ≠ tyPROGRAM
  let plan := s.img.atStep.any (fun p => due p && (p.1.2 = tySTEPPLAN || p.1.2 = tyEXPERTMAP))
  let s := { s with img := { s.img with atStep := s.img.atStep.filter (fun p => !due p) } }
  if plan then dropStaged g s else s

/-- The control plane's and the Trimmers' part of a step boundary: lifted arrays rejoin the Sitter's plan (R91), the
firmware's and the Trimmers' own work. -/
def boundaryUnits (g : Nat) (s : State) : State :=
  let s := forEach (s.arraysOf g) (fun a s => if (s.arr a).fence.on || !(s.arr a).unplanned then s else modArr a (fun x => { x with unplanned := false }) s) s
  firmwareBoundary g (trimmerBoundary g s)

/-- What takes effect at a step boundary, before any work of the step (R130): the sections, the units' part where
the `OPEN` did not already find it done, the counters of a confidential saggar as its readers will see them,
and the window's plan. -/
def stepBoundary (g : Nat) (s : State) : State :=
  let s := boundarySections g s
  let s := if (s.sitOf g).heldOpen then s else boundaryUnits g s
  let own := s.ctr.filterMap (fun p => match s.ctrClass p.1 with
    | some (.own (some h)) => if h = g then some (p.1, s.rawCtr p.1) else none
    | _ => none)
  let pins := (s.arrs.pins.filter (fun p => p.1.1 = g)).map (·.1.2)
  modSit g (fun x => { x with
    frozen := own
    prevDispatched := x.dispatched
    dispatched := []
    closedLayers := []
    cutLayers := []
    began := []
    refused := []
    planPins := pins
    heldOpen := false }) s

/-- A member opens a step. -/
def openStep (g : Nat) (p : Packet) (replay : Bool) (s : State) : State :=
  let s := stepBoundary g s
  let s := modSit g (fun x => { x with
    runs := true
    step := tkStep p
    isOpen := true
    closing := false
    aborted := false
    mode := if replay then 2 else if tkRerun p then 3 else 1
    rerun := tkRerun p
    epoch := tkEpoch p
    lcOpen := s.arch.lc
    q := tkQ p
    d := tkD p
    openAt := s.now
    choices := []
    recomps := []
    replay := replay
    enterDue := false
    exitDue := false
    supplied := if replay then x.nextSupplied else none
    nextSupplied := if replay then none else x.nextSupplied }) s
  stageBisque g (streamWindow g s)

/-- `STEP_TOKEN_OPEN`: in replay the step stays unopened until the record is here and matches what is in force
once the boundary's work is done (R155, R156). -/
def tokenOpen (p : Packet) (s : State) : State :=
  match s.token p 1 with
  | none => take p s
  | some g =>
    let x := s.sitOf g
    if x.isOpen then take p s else
    let replay := (x.replay || x.enterDue) && !x.exitDue
    if !replay then openStep g p false (take p s) else
    match x.nextSupplied with
    | none => wait p s
    | some r =>
      let staged := s.img.atStep.any (fun q => q.1 = (g, tyPROGRAM))
      let s := boundarySections g s
      let s := if x.heldOpen && !staged then s else modSit g (fun x => { x with heldOpen := true }) (boundaryUnits g s)
      match s.replayMismatch g r with
      | none => openStep g p true (take p s)
      | some field =>
        if x.mode = 4 then wait p s
        else wait p (logEvent 0x0303 (s.myMember (s.sagComp g)) (some g) [field] (modSit g (fun x => { x with mode := 4 }) s))

/-- The meaning of `STEP_TOKEN_OPEN`. -/
def execStepTokenOpen (p : Packet) (s : State) : Host.Outcome State Fault Refusal := run (p.wf) (tokenOpen p s)

/-- `STEP_TOKEN_CLOSE`; a token of another attempt, whose epoch is not the step's, changes nothing (DESIGN
CHOICE, log 154). -/
def tokenClose (p : Packet) (s : State) : State :=
  match s.token p 3 with
  | none => take p s
  | some g =>
    take p (if (s.sitOf g).isOpen && (s.sitOf g).step = tkStep p && (s.sitOf g).epoch = tkEpoch p then modSit g (fun x => { x with closing := true }) s else s)

def execStepTokenClose (p : Packet) (s : State) : Host.Outcome State Fault Refusal := run (p.wf) (tokenClose p s)

/-- Attention requests of an aborted step: no further work, `NACK_FENCED` (R187). -/
def abortAttention (g : Nat) (s : State) : State :=
  let mine := s.att.reqs.filter (fun r => r.p.saggar = g)
  forEach mine (fun r s => reply r.p .nackFenced 0 [] s)
    { s with att := { s.att with reqs := s.att.reqs.filter (fun r => r.p.saggar ≠ g) } }

/-- The accepted requests of a home that is itself fenced get no reply (R187). -/
def dropAttention (s : State) : State := { s with att := { s.att with reqs := [] } }

/-- Send `CLOSED` to the leader. -/
def sendClosed (g : Nat) (s : State) : State :=
  let x := s.sitOf g
  let comp := s.sagComp g
  let s := modSit g (fun x => { x with isOpen := false, mode := 0, recStall := false }) s
  sendToken [s.leaderNode comp] g (tokenBytes 4 comp x.epoch x.rerun x.replay x.step 0 0 (s.myMember comp)) s

/-- `STEP_TOKEN_ABORT` (R159): no more work is issued, jobs that run finish, and results are discarded. A member
that has already closed the step answers with its `CLOSED` again; the record it has closed stands (DESIGN CHOICE,
log 155). -/
def tokenAbort (p : Packet) (s : State) : State :=
  match s.token p 5 with
  | none => take p s
  | some g =>
    let x := s.sitOf g
    take p (if x.step ≠ tkStep p || x.epoch ≠ tkEpoch p || !x.runs then s
      else if !x.isOpen then sendClosed g (modSit g (fun x => { x with aborted := true }) s)
      else abortAttention g <| modSit g (fun x => { x with
        aborted := true
        closing := true
        pend := []
        outbox := []
        batches := (x.batches.filter (fun b => b.issued && (b.callOut || decide (0 < b.running)))).map (fun (b : Batch) => { b with left := [] }) }) s)

def execStepTokenAbort (p : Packet) (s : State) : Host.Outcome State Fault Refusal := run (p.wf) (tokenAbort p s)

/-! ## Closing a step at a member (R130, R153, R154, R158) -/

/-- No work of the open step remains: no token, batch, contribution, waiting request or attention. -/
def State.stepDrained (s : State) (g : Nat) : Bool :=
  let x := s.sitOf g
  x.pend.isEmpty && x.batches.isEmpty && x.outbox.isEmpty && x.contribs.isEmpty
    && !s.att.reqs.any (fun r => r.p.saggar = g)
    && !s.fab.inbox.any (fun p => p.saggar = g && p.opcode = opDISPATCH && dhStep p = x.step && !x.aborted)

/-- `MEMBER_STEP_DRAINED`: the record closes and goes to the ring, with the seal of a full group; without
room `CLOSED` is withheld. -/
def memberDrained (comp : Nat) (s : State) : State :=
  match s.sagOfComp comp with
  | none => s
  | some g =>
    let x := s.sitOf g
    if !x.isOpen || !x.closing || x.recStall || !s.stepDrained g then s else
    let s := if x.replay then compareReplay g s else s
    let s := stampLc s
    let r := s.stepRecord g
    let s := modSit g (fun x => { x with
      waiting := x.waiting ++ [(x.step, false, r)]
      group := x.group ++ [digest r]
      firstStep := if x.group.isEmpty then x.step else x.firstStep
      lastStep := x.step
      frames := x.frames.filter (fun e => decide (x.step < e.1))
      trees := x.trees.filter (fun e => decide (x.step < e.1))
      inputs := x.inputs.filter (fun e => decide (x.step < e.1))
      assigns := x.assigns.filter (fun e => decide (x.step < e.1))
      outputs := x.outputs.filter (fun e => decide (x.step < e.1))
      combines := x.combines.filter (fun e => decide (x.step < e.2.1)) }) s
    let s := if 1024 ≤ (s.sitOf g).group.length then sealGroup g s else s
    let s := drainWaiting g (s.sitOf g).waiting s
    if (s.sitOf g).waiting.isEmpty then sendClosed g s
    else logEvent 0x0302 (s.myMember comp) (some g) [s.ringFree] (modSit g (fun x => { x with recStall := true }) s)

/-- The meaning of `MEMBER_STEP_DRAINED`. -/
def execMemberStepDrained (comp : Nat) (s : State) : Host.Outcome State Fault Refusal :=
  run (decide (comp < 2 ^ 24)) (memberDrained comp s)

/-- `REC_RING_ROOM`: withheld records and seals go into the ring, and a withheld `CLOSED` is sent. -/
def recRingRoom (comp : Nat) (s : State) : State :=
  let s := drainLate s.jsl.late s
  match s.sagOfComp comp with
  | none => s
  | some g =>
    let stall := (s.sitOf g).recStall
    if (s.sitOf g).waiting.isEmpty then s else
    let s := drainWaiting g (s.sitOf g).waiting s
    if stall && (s.sitOf g).waiting.isEmpty then sendClosed g s else s

def execRecRingRoom (comp : Nat) (s : State) : Host.Outcome State Fault Refusal := run (decide (comp < 2 ^ 24)) (recRingRoom comp s)

/-! ## The leader (R130, R132 to R134) -/

/-- `P` and the shortest period. -/
def State.periodP (s : State) (comp : Nat) : Nat := s.compParam comp 0x0101
def State.periodMin (s : State) (comp : Nat) : Nat := s.periodP comp - s.periodP comp / 2 ^ (4 - s.compParam comp 0x0102)

/-- The period granted at a debt. -/
def periodQ (p pMin d : Nat) : Nat := max (p - d) pMin

/-- The debt after a step that took `a` cycles under period `q`. -/
def debtAfter (p d q a : Nat) : Nat := min (d + max q a - p) (2 ^ 32 - 1)

def memberNodes (s : State) (comp : Nat) : List Nat := (s.liveMembers comp).map (fun i => (s.members comp).getD i 0)

/-- Endpoints whose `EP_DONE` the leader awaits: those that were sent the step's `OPEN` and are not fenced since
(R162). -/
def State.awaited (s : State) (comp : Nat) : List Nat := (s.leadOf comp).eps.filter (fun n => !s.img.fences.contains n)

/-- Send `CLOSE` to every member once every endpoint awaited is done. -/
def tryClose (comp g : Nat) (s : State) : State :=
  let l := s.leadOf comp
  if l.phase = 1 && (s.awaited comp).all l.epDone.contains then
    sendToken (memberNodes s comp) g (tokenBytes 3 comp l.epoch l.rerun (s.sitOf g).replay l.step 0 0 (s.myMember comp))
      (modLead comp (fun l => { l with phase := 2 }) s)
  else s

/-- `LEADER_OPEN_DUE`: the leader opens the next step. In replay it does so once every member holds its supplied
record (R155): the operand says that they do, since the spec names no message that tells the leader (DESIGN
CHOICE, log 156). -/
def leaderOpen (comp : Nat) (recordsHeld : Bool) (s : State) : State :=
  match s.sagOfComp comp with
  | none => s
  | some g =>
    let l := s.leadOf comp
    let x := s.sitOf g
    if !s.leads comp || l.phase ≠ 0 || s.compFenced comp || s.meterStops g || l.waitEpoch = some s.img.epoch || x.isOpen then s else
    let replay := (x.replay || x.enterDue) && !x.exitDue
    if replay && (!recordsHeld || x.nextSupplied.isNone) then s else
    let hold := s.arch.cp = .restart
    let n := if !l.runs then s.compParam comp 0x0104 else if l.rerun then l.step else l.step + 1
    let q := if hold then s.periodP comp else periodQ (s.periodP comp) (s.periodMin comp) l.debt
    let s := if replay then s else carry l.nextOpen s
    let s := modLead comp (fun l => { l with
      phase := 1
      runs := true
      step := n
      q := q
      openAt := s.now
      firstOpen := if l.rerun then l.firstOpen else s.now
      epoch := s.img.epoch
      eps := s.liveEndpoints comp
      epDone := []
      closed := []
      waitEpoch := none }) s
    let s := modSit g (fun x => { x with ctrlHold := hold }) s
    tryClose comp g (sendToken (memberNodes s comp ++ s.liveEndpoints comp) g
      (tokenBytes 1 comp s.img.epoch l.rerun replay n q l.debt (s.myMember comp)) s)

/-- The meaning of `LEADER_OPEN_DUE`. -/
def execLeaderOpenDue (due : OpenDue) (s : State) : Host.Outcome State Fault Refusal :=
  run (decide (due.comp < 2 ^ 24)) (leaderOpen due.comp due.recordsHeld s)

/-- `STEP_TOKEN_EP_DONE`. -/
def tokenEpDone (p : Packet) (s : State) : State :=
  match s.token p 2 with
  | none => take p s
  | some g =>
    let comp := tkComp p
    let l := s.leadOf comp
    let s := take p s
    if s.leads comp && l.phase = 1 && l.step = tkStep p && l.epoch = tkEpoch p && (s.awaited comp).contains p.src && !l.epDone.contains p.src then
      tryClose comp g (modLead comp (fun l => { l with epDone := l.epDone ++ [p.src] }) s)
    else s

def execStepTokenEpDone (p : Packet) (s : State) : Host.Outcome State Fault Refusal := run (p.wf) (tokenEpDone p s)

/-- Every member has closed: the debt, the next open (R132); an aborted attempt waits for its re-run
(R160). -/
def stepEnds (comp g : Nat) (s : State) : State :=
  let l := s.leadOf comp
  let x := s.sitOf g
  if l.phase = 3 then modLead comp (fun l => { l with phase := 0, rerun := true, nextOpen := s.now }) s
  else
    let a := (s.now - l.firstOpen) / 12
    let d := if x.ctrlHold || x.replay || s.arch.cp = .restart then l.debt else debtAfter (s.periodP comp) l.debt l.q a
    let warn := s.compParam comp 0x0103
    let s := if l.debt ≤ warn && decide (warn < d) then logEvent 0x0301 (s.myMember comp) (some g) [comp, d] s else s
    modLead comp (fun l => { l with phase := 0, rerun := false, debt := d, nextOpen := if x.replay then s.now else l.firstOpen + aclk (max l.q a) }) s

/-- `STEP_TOKEN_CLOSED`. -/
def tokenClosed (p : Packet) (s : State) : State :=
  match s.token p 4 with
  | none => take p s
  | some g =>
    let comp := tkComp p
    let l := s.leadOf comp
    let s := take p s
    if s.leads comp && decide (2 ≤ l.phase) && l.step = tkStep p && l.epoch = tkEpoch p && (s.liveMembers comp).contains (tkMember p) && !l.closed.contains (tkMember p) then
      let s := modLead comp (fun l => { l with closed := l.closed ++ [tkMember p] }) s
      if (s.liveMembers comp).all (s.leadOf comp).closed.contains then stepEnds comp g s else s
    else s

def execStepTokenClosed (p : Packet) (s : State) : Host.Outcome State Fault Refusal := run (p.wf) (tokenClosed p s)

/-! ## Aborts, lost endpoints, re-homing (R159 to R162) -/

/-- The leader aborts the step in flight and awaits the next epoch for its re-run. -/
def abortStep (comp g : Nat) (await : Bool) (s : State) : State :=
  let l := s.leadOf comp
  if l.phase = 1 || l.phase = 2 then
    sendToken (memberNodes s comp ++ s.liveEndpoints comp) g (tokenBytes 5 comp l.epoch l.rerun (s.sitOf g).replay l.step 0 0 (s.myMember comp))
      (modLead comp (fun l => { l with phase := 3, closed := [], waitEpoch := if await then some s.img.epoch else none }) s)
  else s

/-- An endpoint is silent or lost: logged, the step aborted, the coordinator asked to fence it. -/
def endpointSilent (comp ep cause : Nat) (s : State) : State :=
  match s.sagOfComp comp with
  | none => s
  | some g =>
    if !s.leads comp || !(s.liveEndpoints comp).contains ep then s else
    askFence ep (abortStep comp g true (logEvent 0x0305 (s.myMember comp) (some g) [ep, cause] s))

/-- The meaning of `EP_WAIT_EXPIRY`: an arrival in the same cycle wins (R26). -/
def execEpWaitExpiry (comp ep : Nat) (s : State) : Host.Outcome State Fault Refusal :=
  run (decide (comp < 2 ^ 24) && decide (ep < 65536))
    (let l := s.leadOf comp
     if l.phase = 1 && !l.epDone.contains ep && s.leads comp && (s.awaited comp).contains ep then
       endpointSilent comp ep 1 (expire (aclk 1) (l.openAt + aclk (2 ^ s.compParam comp 0x0107)) s)
     else s)

/-- The meaning of `EP_LOST`. -/
def execEpLost (comp ep : Nat) (s : State) : Host.Outcome State Fault Refusal :=
  run (decide (comp < 2 ^ 24) && decide (ep < 65536)) (endpointSilent comp ep 2 s)

/-- The roles after a change of fences (R161): the standby follows a lost leader, the lowest surviving
member follows it; with both lost the two lowest take the roles. -/
def nextRoles (live : List Nat) (leader standby : Option Nat) : Option Nat × Option Nat :=
  let alive := fun (o : Option Nat) => match o with | some m => if live.contains m then some m else none | none => none
  let l := match alive leader with
    | some m => some m
    | none => match alive standby with
      | some m => some m
      | none => live.head?
  let sb := match alive standby with
    | some m => if l = some m then (live.filter (fun k => some k ≠ l)).head? else some m
    | none => (live.filter (fun k => some k ≠ l)).head?
  (l, sb)

/-- A member becomes leader (R161): it takes the debt of the last `OPEN` it received, and aborts the step in
flight for its re-run. The step of that `OPEN` counts as in flight until the next one, also where this member has
closed it (DEDUCED, log 155). -/
def assumeLead (comp g : Nat) (s : State) : State :=
  let x := s.sitOf g
  abortStep comp g false (modLead comp (fun l => { l with
    runs := x.runs
    step := x.step
    epoch := x.epoch
    debt := x.d
    q := x.q
    openAt := x.openAt
    firstOpen := x.openAt
    nextOpen := s.now
    rerun := x.runs
    phase := if x.runs then 1 else 0 }) s)

/-- The roles an image gives a saggar's composition (R128, R463). Where they pass to this member while steps run,
it takes over as R161 has it (DESIGN CHOICE, log 155). -/
def initRoles (g : Nat) (s : State) : State :=
  let comp := s.sagComp g
  let was := (s.sitOf g).leader
  let now_ := s.compParam comp 0x0105
  let s := modSit g (fun x => { x with
    leader := some now_
    standby := if 2 ≤ (s.members comp).length then some (s.compParam comp 0x0106) else none }) s
  if (s.sitOf g).runs && was ≠ some now_ && now_ = s.myMember comp then assumeLead comp g s else s

/-- The Sitter at an epoch commit: roles pass, a new leader aborts the step in flight and takes the debt
of the last `OPEN`, a leader aborts the step when a member was lost; an endpoint newly fenced no longer
holds up the step. -/
def sitterEpoch (oldFences : List Nat) (s : State) : State :=
  forEach (List.range 64) (fun g s =>
    let x := s.sitOf g
    let comp := s.sagComp g
    if g = 0 || !s.sagExists g || x.leader.isNone || !(s.members comp).contains s.fab.node then s else
    let me := s.myMember comp
    let lost := (s.members comp).any (fun n => s.img.fences.contains n && !oldFences.contains n)
    let roles := nextRoles (s.liveMembers comp) x.leader x.standby
    let took := roles.1 = some me && x.leader ≠ some me
    let s := modSit g (fun x => { x with leader := roles.1, standby := roles.2 }) s
    if took then
      assumeLead comp g s
    else if roles.1 = some me && lost then abortStep comp g false s
    else if roles.1 = some me then tryClose comp g s
    else s) s

end Sys2Proof.Machine
end

