-- ==== Sys2Proof/Machine/Attention.lean ====
section
/-! DEFINITION. Attention at the KV home (chapter 06): the page geometry, the acceptance of `ATTEND`, a
block's partial, its contribution and the reply. -/

namespace Sys2Proof.Machine

/-! ## KV geometry (R164 to R167) -/

/-- The byte offset of a sequence page of a KV head and layer. -/
def Region.kvPage (r : Region) (layer head seqPage : Nat) : Nat :=
  ((layer * (r.nKv / r.hPg) + head / r.hPg) * r.maxp + (seqPage - r.firstSeqPage)) * 65536
/-- Offsets in a page of the rows of a head slot and token slot. -/
def Region.kRow (r : Region) (hh t : Nat) : Nat := (hh * r.tPg + t) * r.headDim
def Region.vRow (r : Region) (hh t : Nat) : Nat := r.tPg * r.hPg * r.headDim + (hh * r.tPg + t) * r.headDim
def Region.kScale (r : Region) (hh t : Nat) : Nat := 2 * (r.tPg * r.hPg) * r.headDim + (hh * r.tPg + t) * (r.headDim / 32)
def Region.vScale (r : Region) (hh t : Nat) : Nat :=
  2 * (r.tPg * r.hPg) * r.headDim + r.tPg * r.hPg * (r.headDim / 32) + (hh * r.tPg + t) * (r.headDim / 32)

/-! ## The request (R171, R172) -/

def atWord (p : Packet) (i : Nat) : Nat := le p.payload (8 * i) 8
def atLayer (p : Packet) : Nat := bits (atWord p 0) 8 8
def atHeadLo (p : Packet) : Nat := bits (atWord p 0) 16 8
def atNKv (p : Packet) : Nat := bits (atWord p 0) 24 8
def atGq (p : Packet) : Nat := bits (atWord p 0) 32 6
def atStep (p : Packet) : Nat := atWord p 1
def atRegion (p : Packet) : Nat := bits (atWord p 2) 0 32
def atVersion (p : Packet) : Nat := bits (atWord p 2) 32 32
def atSeqLen (p : Packet) : Nat := bits (atWord p 3) 0 32
def atPosLo (p : Packet) : Nat := bits (atWord p 3) 32 32
def atScale (p : Packet) : Nat := bits (atWord p 4) 0 32
def atMaxexpQ (p : Packet) : Int := signedW 16 (bits (atWord p 4) 32 16)
def atMerge (p : Packet) : Nat := bits (atWord p 5) 0 32
def atToken (p : Packet) : Nat := bits (atWord p 5) 32 32

/-- Key and item of an `ATTEND` in the step digests (R183). -/
def attendKey (p : Packet) : List Byte := natLe (atLayer p) 1 ++ [3] ++ natLe (atHeadLo p) 2 ++ natLe (atToken p) 4 ++ zeros 8
def attendItem (p : Packet) : List Byte := sub p.payload 0 16 ++ sub p.payload 24 16 ++ p.payload.drop 64

/-- Sequence pages of a region that meet the request's positions. -/
def Region.seqPages (r : Region) (p : Packet) : List Nat :=
  ((List.range r.maxp).map (· + r.firstSeqPage)).filter (fun j => decide (atPosLo p < (j + 1) * r.tPg ∧ j * r.tPg < atSeqLen p))

/-- Row 5 of R172. -/
def State.attendBad (s : State) (r : Region) (p : Packet) : Bool :=
  let w0 := atWord p 0
  let scale := dec32 (atScale p)
  decide (p.payload.length < 64) || w0 % 256 ≠ 1 || bits w0 38 26 ≠ 0 || bits (atWord p 4) 48 16 ≠ 0 || (sub p.payload 48 16).any (· ≠ 0)
    || atNKv p = 0 || decide (64 < atNKv p) || atGq p = 0 || decide (32 < atGq p) || decide (r.layers ≤ atLayer p)
    || p.payload.length ≠ 64 + 2 * atNKv p * atGq p * r.headDim || decide (r.nKv < atHeadLo p + atNKv p)
    || decide (atSeqLen p ≤ atPosLo p) || decide (2 ^ 31 < atSeqLen p)
    || decide (65535 < ceilDiv (atSeqLen p) r.tPg - atPosLo p / r.tPg)
    || (match scale with | .fin m _ => m = 0 | _ => true) || s.stepCheck p.saggar (atStep p) = .out

/-- Rows 1 to 8 of R172. -/
def State.attendRefusal (s : State) (p : Packet) : Option (Status × Nat) :=
  if s.variant.arrays = 0 then some (.unitAbsent, 0) else
  match afind s.tie.regions (atRegion p) with
  | none => some (.denied, 0)
  | some r =>
    if r.saggar ≠ p.saggar || r.kind ≠ 2 || r.home ≠ p.dst || r.deleting.isSome then some (.denied, 0)
    else if s.awaitsFlash r then some (.nackRetry, 20)
    else if s.compFenced r.comp || s.domainFenced r.domain then some (.nackFenced, 0)
    else if s.epochCheck p = .stale then some (.nackStaleEpoch, 0)
    else if s.epochCheck p = .notReady then some (.nackRetry, 10)
    else if s.attendBad r p then some (.denied, 0)
    else if atVersion p ≠ 0xFFFFFFFF && !(r.versions.any (fun v => v.1 = atVersion p && v.2.opens.any (fun o => o.1 = p.src && decide (0 < o.2)))) then
      some (.denied, 0)
    else if (r.seqPages p).isEmpty then some (.denied, 0)
    else if s.sagParam p.saggar 0x0305 ≤ countIf s.att.reqs (fun q => q.p.saggar = p.saggar && !q.active) then some (.nackRetry, 12)
    else none

/-- Requests of a saggar that compute at one time (`ATT_STATE.ACTIVE`). -/
def attMax : Nat := 128

/-- `ATTEND`: refused, held for the next step (R131), or accepted into the queue. -/
def attendTrain (p : Packet) (s : State) : State :=
  let g := p.saggar
  match s.attendRefusal p with
  | some (st, h) => reply p st h [] (bumpSat (satAttRefused g) (unhold p (take p s)))
  | none =>
    if s.stepCheck g (atStep p) = .next || (s.sitOf g).aborted then holdRequest p s else
    let r := s.region (atRegion p)
    let blocks := (r.seqPages p).flatMap (fun j => (List.range (atNKv p)).map (fun h => (j, atHeadLo p + h)))
    let q : AttReq := { id := s.att.nextReq, p := p, left := blocks,
                        active := decide (countIf s.att.reqs (fun q => q.p.saggar = g && q.active) < attMax) }
    let s := unhold p (take p s)
    { s with att := { s.att with reqs := s.att.reqs ++ [q], nextReq := s.att.nextReq + 1 } }

/-- The meaning of `ATTEND`. -/
def execAttend (p : Packet) (s : State) : Host.Outcome State Fault Refusal := run (p.wf) (reassemble p attendTrain s)

/-! ## A block's partial (R174 to R177) -/

/-- The rows of a block: K and V elements and scale bytes of each slot from `lo` to `hi`. -/
structure KvRows where
  lo : Nat := 0
  k : List (List Byte) := []
  ks : List (List Byte) := []
  v : List (List Byte) := []
  vs : List (List Byte) := []
  deriving DecidableEq, Repr

/-- Read an area of rows of a head slot; poison where a grain of them is poisoned. -/
def readRows (r : Region) (ver : Option Nat) (base off n row : Nat) (s : State) : ReadResult × State :=
  if n = 0 ∨ row = 0 then (.data [], s) else readRange r ver (base + off) (n * row) s

/-- Rows cut from a run of bytes. -/
def cutRows (bs : List Byte) (n row : Nat) : List (List Byte) := (List.range n).map (fun i => sub bs (i * row) row)

/-- What a block reads: K rows of the slots its score jobs cover, V rows of its valid slots. -/
def readBlockRows (r : Region) (ver : Option Nat) (base hh lo hi : Nat) (s : State) : Except ReadResult KvRows × State :=
  let d := r.headDim
  let sc := if r.kvFmt = fcMXINT8 then d / 32 else 0
  let k0 := lo / 32 * 32
  match readRows r ver base (r.kRow hh k0) (hi + 1 - k0) d s with
  | (.data k, s) =>
    match readRows r ver base (r.vRow hh lo) (hi + 1 - lo) d s with
    | (.data v, s) =>
      match readRows r ver base (r.kScale hh k0) (hi + 1 - k0) sc s with
      | (.data ks, s) =>
        match readRows r ver base (r.vScale hh lo) (hi + 1 - lo) sc s with
        | (.data vs, s) =>
          (.ok { lo := lo, k := (cutRows k (hi + 1 - k0) d).drop (lo - k0), ks := (cutRows ks (hi + 1 - k0) sc).drop (lo - k0),
                 v := cutRows v (hi + 1 - lo) d, vs := cutRows vs (hi + 1 - lo) sc }, s)
        | (x, s) => (.error x, s)
      | (x, s) => (.error x, s)
    | (x, s) => (.error x, s)
  | (x, s) => (.error x, s)

/-- Read a block: one access to its page (R208). -/
def readBlock (r : Region) (ver : Option Nat) (base hh lo hi : Nat) (s : State) : Except ReadResult KvRows × State :=
  let counted := fun (s : State) => touchPages r ver [base / pageBytes] s
  match readBlockRows r ver base hh lo hi s with
  | (.ok x, s) => (.ok x, counted s)
  | (.error .poison, s) => (.error .poison, counted s)
  | x => x

/-- The elements of a row of the region's format. -/
def rowNums (fmt : Nat) (row scales : List Byte) : List Num :=
  (List.range row.length).map (fun i =>
    let c := (row.getD i 0).toNat
    if fmt = fcMXINT8 then decodeMx fmt c (scales.getD (i / 32) 0).toNat else decodeElem fmt c)

/-- `convert(query, kv_fmt)` (R54, R57), as the values of the converted elements. -/
def convertQuery (fmt : Nat) (q : List Num) : List Num :=
  if fmt = fcMXINT8 then
    (List.range (q.length / 32)).flatMap (fun b =>
      let m := mxQuantise fcMXINT8 ((q.drop (32 * b)).take 32)
      m.1.map (fun c => decodeMx fcMXINT8 c m.2.1))
  else q.map (fun v => decodeElem fmt (encodeElem fmt v).1)

/-- A frame sum of products with W = 64. -/
def dotFrame (f : Int) (a b : List Num) : Frm :=
  (List.zipWith (fun (x y : Num) => x.mul y) a b).foldl (fun (z : Frm) (v : Num) => z.addTerm v) { w := 64, f := f }

/-! ### The tile jobs of a block (R175) -/

/-- The fields of an attention job's descriptor; those R175 does not list are zero. -/
structure AttJob where
  saggar : Nat := 0
  array : Nat := 0
  fin : Bool := false
  wFmt : Nat := 0
  aFmt : Nat := 0
  tLen : Nat := 0
  kLen : Nat := 0
  nLen : Nat := 0
  wAddr : Nat := 0
  wsAddr : Nat := 0
  wStride : Nat := 0
  wsStride : Nat := 0
  maxW : Nat := 0
  maxA : Nat := 0
  deriving DecidableEq, Repr

/-- Its 128 bytes (R71): W 64, auto-frame, binary32 output, no activation. -/
def AttJob.desc (j : AttJob) : List Byte :=
  natLe (1 + 2 ^ 8 + j.saggar * 2 ^ 16 + j.array * 2 ^ 24 + b2n j.fin * 2 ^ 56) 8
    ++ natLe (j.wFmt + j.aFmt * 2 ^ 4 + 7 * 2 ^ 8 + 0x8000 * 2 ^ 16) 8
    ++ natLe (j.kLen + j.nLen * 2 ^ 10 + j.tLen * 2 ^ 16 + j.kLen * 2 ^ 32) 8
    ++ natLe (j.wAddr % 2 ^ 32 + j.wsAddr % 2 ^ 32 * 2 ^ 32) 8 ++ zeros 32
    ++ natLe (j.maxW % 2 ^ 16 + j.maxA % 2 ^ 16 * 2 ^ 16 + j.wStride * 2 ^ 32 + j.wsStride * 2 ^ 48) 8 ++ zeros 56

/-- The score job of the token slots from `k0`, a multiple of 32, of a head slot whose page is staged at `page`:
`hi` is the last valid slot of the block. -/
def scoreJob (r : Region) (p : Packet) (a page hh k0 hi : Nat) : AttJob :=
  let mx := r.kvFmt = fcMXINT8
  { saggar := p.saggar, array := a, fin := true, wFmt := r.kvFmt, aFmt := r.kvFmt, tLen := atGq p, kLen := r.headDim
    nLen := min 32 (hi + 1 - k0), wAddr := page + r.kRow hh k0, wsAddr := if mx then page + r.kScale hh k0 else 0
    wStride := r.headDim, wsStride := if mx then r.headDim / 32 else 0
    maxW := r.maxexpK, maxA := unsignedW 16 (atMaxexpQ p) }

/-- The value job of 32 dimensions, its weights the transposed block at `v`. -/
def valueJob (r : Region) (p : Packet) (a v hi : Nat) : AttJob :=
  let mx := r.kvFmt = fcMXINT8
  { saggar := p.saggar, array := a, wFmt := if mx then fcINT8 else fcE4M3, aFmt := fcMXINT8, tLen := atGq p
    kLen := 32 * ceilDiv (hi + 1) 32, nLen := 32, wAddr := v
    maxW := if mx then 7 else r.maxexpV, maxA := if mx then unsignedW 16 (signedW 16 r.maxexpV - 7) else 0 }

/-- The jobs of a block: one score job per 32 token slots that hold a valid one, then one value job per 32
dimensions. Where the routine stages the page and the transposed block on the shelf is free: the spec does not
say. -/
def blockJobs (r : Region) (p : Packet) (a hh lo hi : Nat) : List AttJob :=
  (List.range (hi / 32 + 1 - lo / 32)).map (fun i => scoreJob r p a Config.attendPage hh (32 * (lo / 32 + i)) hi)
    ++ (List.range (r.headDim / 32)).map (fun _ => valueJob r p a Config.attendValues hi)

/-- The partial of one query head over a block whose jobs carry the descriptors `sd` and `vd`, and whether a
frame overflowed. `rows` gives the valid slots from `lo` on. -/
def blockPartial (sd vd : List Byte) (lo : Nat) (fS fV : Int) (scale : Num) (query : List Num) (rows : KvRows) : Partial × Bool :=
  let fmt := dWFmt sd
  let d := dKLen sd
  let q := convertQuery (dAFmt sd) query
  let n := rows.k.length
  let frames := (List.range n).map (fun t => dotFrame fS (rowNums fmt (rows.k.getD t []) (rows.ks.getD t [])) q)
  let scores := frames.map (fun x => rne32 (finisher x scale (.fin 0 0) (dAct sd) none))
  let ovf := frames.any (·.ovf)
  let vals := scores.map dec32
  let nan := 0x7FC00000
  if vals.contains .nan then ({ m := nan, l := nan, o := List.replicate d nan }, ovf)
  else
    let m := vals.foldl (fun (a v : Num) => if a.lt v then v else a) (vals.headD (.fin 0 0))
    let ps := vals.map (fun v => expDiff v m)
    let l := rne32 (ps.foldl Num.add (.fin 0 0))
    let slots := dKLen vd
    -- the 32-dimension tiles
    let tile := fun (b : Nat) =>
      let a := (List.range slots).map (fun t => if lo ≤ t ∧ t < lo + n then
          let p := ps.getD (t - lo) (.fin 0 0)
          if fmt = fcMXINT8 then
            let x := ((rows.vs.getD (t - lo) []).getD b 0).toNat
            p.mul (if x = 0xFF then .nan else .fin 1 ((x : Int) - 133))
          else p
        else .fin 0 0)
      let w := (List.range (slots / 32)).flatMap (fun k =>
        let mq := mxQuantise (dAFmt vd) ((a.drop (32 * k)).take 32)
        mq.1.map (fun c => decodeMx (dAFmt vd) c mq.2.1))
      (List.range (dNLen vd)).map (fun j =>
        let col := (List.range slots).map (fun t => if lo ≤ t ∧ t < lo + n then
            decodeElem (dWFmt vd) ((rows.v.getD (t - lo) []).getD (32 * b + j) 0).toNat
          else .fin 0 0)
        dotFrame fV col w)
    let os := (List.range (d / 32)).flatMap tile
    ({ m := rne32 m, l := l, o := os.map (fun x => rne32 x.value) }, ovf || os.any (·.ovf))

/-! ## Contributions and the reply (R178, R182, R184) -/

/-- The bytes of a partial contribution. -/
def partialBytes (label qhead : Nat) (ovf poison : Bool) (p : Partial) : List Byte :=
  natLe label 4 ++ natLe qhead 2 ++ natLe (b2n ovf + 2 * b2n poison) 1 ++ [0] ++ natLe p.m 4 ++ natLe p.l 4 ++ p.o.flatMap (fun x => natLe x 4)

/-- The packets of a contribution: chunks of 488 bytes. -/
def partialPackets (p : Packet) (label qhead : Nat) (bs : List Byte) : List Packet :=
  (List.range (ceilDiv bs.length 488)).map (fun i =>
    let c := sub bs (488 * i) 488
    let body := contribBytes (atMerge p) { pos := qhead, slice := i, enc := fcB32, nelem := c.length / 4, label := label, data := c }
    { dst := p.src, opcode := opCONTRIB, saggar := p.saggar, cls := 3, length := body.length, payload := body })

def modAtt (id : Nat) (f : AttReq → AttReq) (s : State) : State :=
  { s with att := { s.att with reqs := s.att.reqs.map (fun (r : AttReq) => if r.id = id then f r else r) } }

/-- The Trimmer whose requests carry a saggar's attention contributions: the first of `ATTN_TRIMMERS`. -/
def State.attTrimmer (s : State) (g : Nat) : Nat := ((List.range 128).find? (fun t => recAttnTrimmer (s.sagRec g) t)).getD 0

/-- A finished request is answered; the next waiting one of the saggar becomes active. -/
def finishAttend (id : Nat) (s : State) : State :=
  match s.att.reqs.find? (fun r => r.id = id) with
  | none => s
  | some r =>
    if !r.left.isEmpty || !r.msgs.isEmpty || !r.tags.isEmpty then s else
    let g := r.p.saggar
    let pages := r.poisoned.eraseDups
    let low := pages.foldl (fun (m : Option Nat) j => match m with | some k => some (min k j) | none => some j) none
    let st : Status := if !pages.isEmpty then .poison else if r.ovf then .overflow else .ok
    let s := if !pages.isEmpty then bumpSat (satAttPoison g) s else s
    let s := reply r.p st 0 (natLe (low.getD 0 + pages.length % 2 ^ 16 * 2 ^ 32) 8) s
    let rest := s.att.reqs.filter (fun q => q.id ≠ id)
    let next := (rest.find? (fun q => q.p.saggar = g && !q.active)).map (·.id)
    { s with att := { s.att with reqs := rest.map (fun (q : AttReq) => if some q.id = next then { q with active := true } else q) } }

/-- Send a request's waiting contributions while its Trimmer may send. -/
def pumpAttend (id : Nat) (s : State) : State :=
  match s.att.reqs.find? (fun r => r.id = id) with
  | none => s
  | some r =>
    let q := Requester.trimmer (s.attTrimmer r.p.saggar)
    finishAttend id (forEach r.msgs (fun p s =>
      if s.maySend q p.dst p.saggar && (s.att.reqs.any (fun x => x.id = id && x.msgs.head? = some p)) then
        let tag := s.nextTag
        modAtt id (fun x => { x with msgs := x.msgs.drop 1, tags := x.tags ++ [tag] }) (issue q p s)
      else s) s)

/-- A contribution of an attention request has been answered. -/
def attendAnswer (tag : Nat) (s : State) : State :=
  forEach (s.att.reqs.filter (fun r => r.tags.contains tag)) (fun r s =>
    pumpAttend r.id (modAtt r.id (fun x => { x with tags := x.tags.erase tag }) s)) s

/-- The key of an attention frame entry (R184). -/
def attKey (p : Packet) (head stage : Nat) : Nat := 3 + atLayer p * 2 ^ 8 + head * 2 ^ 16 + stage * 2 ^ 24 + atToken p * 2 ^ 32

/-- A frame entry of the attention, once. -/
def noteAttFrame (p : Packet) (head stage : Nat) (f : Int) (s : State) : State :=
  noteFrame p.saggar (atStep p) (frameEntry (atLayer p) 0xFFF 3 0 f (attKey p head stage)) s

/-- The array that runs a block's jobs: the first of `ATTN_ARRAYS` that is not fenced. -/
def State.attArray (s : State) (g : Nat) : Option Nat :=
  (List.range s.variant.arrays).find? (fun a => recAttnArray (s.sagRec g) a && recArray (s.sagRec g) a && !(s.arr a).fence.on)

/-- The frame exponent of a stage of a block: forced in replay, else derived from its job's descriptor (R175,
R177, R184). -/
def State.attF (s : State) (p : Packet) (head stage : Nat) (d : List Byte) : Int :=
  (s.forcedF p.saggar (atStep p) (atLayer p) 0xFFF 3 (attKey p head stage)).getD (dFUsed d)

/-- The values of a query head's vector. -/
def queryOf (p : Packet) (d head i : Nat) : List Num :=
  let off := 64 + 2 * d * ((head - atHeadLo p) * atGq p + i)
  (List.range d).map (fun k => decodeFloat fmtB16 (le p.payload (off + 2 * k) 2))

/-- The partials of the `G_Q` query heads of a block; `OVF` of each where any frame of the block overflowed
(R178). -/
def blockPartials (p : Packet) (head lo : Nat) (sd vd : List Byte) (fS fV : Int) (rows : KvRows) : List Partial × Bool :=
  let xs := (List.range (atGq p)).map (fun i => blockPartial sd vd lo fS fV (dec32 (atScale p)) (queryOf p (dKLen sd) head i) rows)
  (xs.map (·.1), xs.any (·.2))

/-- A block is done: its contributions wait to be sent. -/
def blockDone (id seqPage head label : Nat) (q : AttReq) (ps : List Partial) (ovf poison : Bool) (s : State) : State :=
  let outs := ps.mapIdx (fun i x => partialPackets q.p label (head * atGq q.p + i) (partialBytes label (head * atGq q.p + i) ovf poison x))
  pumpAttend id (modAtt id (fun x => { x with
    left := x.left.erase (seqPage, head)
    msgs := x.msgs ++ outs.flatMap (fun l => l)
    ovf := x.ovf || ovf
    poisoned := if poison then x.poisoned ++ [seqPage] else x.poisoned }) s)

/-- `ATTEND_BLOCK_DONE`: a block's partials are complete and its contributions go out. A block whose page must
first come from the flash, or for whose jobs no array is left, is not complete yet. A poisoned block runs no
job, and a block all of whose scores are NaN no value job: neither derives an F (R184). -/
def attendBlock (id seqPage head : Nat) (s : State) : State :=
  match s.att.reqs.find? (fun r => r.id = id) with
  | none => s
  | some q =>
    if !q.active || !q.left.contains (seqPage, head) then s else
    let p := q.p
    let g := p.saggar
    let r := s.region (atRegion p)
    let ver := if atVersion p = 0xFFFFFFFF then none else some (atVersion p)
    let t := r.tPg
    let label := max (seqPage * t) (atPosLo p)
    let lo := label - seqPage * t
    let hi := min t (atSeqLen p - seqPage * t) - 1
    let hh := head % r.hPg
    match s.attArray g with
    | none => s
    | some a =>
    match readBlock r ver (r.kvPage (atLayer p) head seqPage) hh lo hi s with
    | (.error .waits, s) => s
    | (.error (.retry _), s) => s
    | (.error _, s) =>
      blockDone id seqPage head label q (List.replicate (atGq p) { m := 0, l := 0, o := List.replicate r.headDim 0 }) false true
        (bumpCtr (ctrAttPages g) 1 s)
    | (.ok rows, s) =>
      let sd := (scoreJob r p a Config.attendPage hh (lo / 32 * 32) hi).desc
      let vd := (valueJob r p a Config.attendValues hi).desc
      let fS := s.attF p head 0 sd
      let fV := s.attF p head 1 vd
      let res := blockPartials p head lo sd vd fS fV rows
      let values := res.1.any (fun x => x.m ≠ 0x7FC00000)
      let s := noteAttFrame p head 0 fS s
      let s := if values then noteAttFrame p head 1 fV s else s
      -- cell-cycles of the jobs (R513)
      let jobs := (blockJobs r p a hh lo hi).filter (fun (j : AttJob) => j.fin || values)
      let s := tapAdd g 0 (1024 * (jobs.foldl (fun n (j : AttJob) => n + j.tLen) 0)) s
      blockDone id seqPage head label q res.1 res.2 false (bumpCtr (ctrAttPages g) 1 s)

/-- The meaning of `ATTEND_BLOCK_DONE`. -/
def execAttendBlockDone (id seqPage head : Nat) (s : State) : Host.Outcome State Fault Refusal :=
  run (decide (id < 2 ^ 32) && decide (seqPage < 2 ^ 31) && decide (head < 256)) (attendBlock id seqPage head s)

end Sys2Proof.Machine
end

