-- ==== Sys2Proof/Machine/TrmInsn.lean ====
section
/-! DEFINITION. Instructions of a Trimmer: how one retires or traps (R117, R118, R120), the `Xplof`
instructions (R106 to R115), fabric windows (R102, R103), and the completion of tile jobs (R85). -/

namespace Sys2Proof.Machine

/-! ## Retiring and trapping -/

/-- What an instruction does: goes on to the next, jumps, traps with a cause and `mtval`, or does not
complete yet. -/
inductive Res where
  | next (s : State)
  | jump (pc : Nat) (s : State)
  | trap (cause tval : Nat) (s : State)
  | hold (s : State)

/-- Answer a call: to its requester, or to the Sitter's batch (R113, R142). -/
def answerCall (c : RptCall) (code : Nat) (res : List Byte) (s : State) : State :=
  match c.sitter with
  | some (g, b) => sitterCallDone g b s
  | none => reply c.p .ok 0 (rptResult code res) s

/-- A handler ends: its reply, then the next queued call or the code it interrupted. -/
def endHandler (t code : Nat) (res : List Byte) (s : State) : State :=
  let c := (s.trmOf t).call
  let s := answerCall c code res (modTrm t (fun x => { x with run := .none }) s)
  let x := s.trmOf t
  let s := if !x.rptq.isEmpty && x.swap.isNone && !x.fwDown then dispatchRpt t s else resumeMain t s
  trySwap (s.trmSag t) s

/-- Firmware ends a handler (R117): result code, cause and `mtval`. -/
def killHandler (t code cause tval : Nat) (s : State) : State :=
  let s := logEvent 0x0203 t (s.trmOwner t) [code, cause, tval] (bumpSat (satTrmUserFault t) s)
  endHandler t code (natLe (cause % 256 + tval % 2 ^ 56 * 256) 8) s

/-- A fault of the main code or an upcall halts the main code until the next step boundary (R118). -/
def haltMain (t : Nat) (s : State) : State :=
  let s := bumpSat (satTrmUserFault t) s
  let s := modTrm t (fun x => { x with run := .none, mainCtx := none, mode := 3, stall := none }) s
  trySwap (s.trmSag t) s

/-- An exception of the running code. -/
def trapTrm (t cause tval : Nat) (s : State) : State :=
  let s := noteTrap t (s.trmPc t) cause tval s
  match (s.trmOf t).run with
  | .handler => killHandler t 0xFFFF cause tval s
  | .main => haltMain t s
  | .upcall => haltMain t s
  | .none => fwRestart t s

/-- A retired instruction: the counters, and the budget of a handler. -/
def retireInsn (t : Nat) (s : State) : State :=
  let s := bumpHpm t 2 1 (bumpCtr (ctrTrmRetired t) 1 s)
  if (s.trmOf t).run = .handler then
    let s := modTrm t (fun x => { x with retired := x.retired + 1 }) s
    if s.sagParam (s.trmSag t) 0x030B < (s.trmOf t).retired then killHandler t 0xFFFE 0 0 s else s
  else s

/-- The outcome of an instruction of `len` bytes. -/
def finishInsn (t len : Nat) (r : Res) : State :=
  match r with
  | .next s => retireInsn t (setTrmPc t (s.trmPc t + len) s)
  | .jump pc s => retireInsn t (setTrmPc t pc s)
  | .trap c v s => trapTrm t c v s
  | .hold s => s

/-- Execute one instruction where the Trimmer executes any. -/
def stepInsn (t len : Nat) (f : State → Res) (s : State) : State :=
  if s.trmRuns t then inCtx t (fun s => finishInsn t len (f s)) (beginInsn t s) else s

/-! ## ARR.ISSUE and ARR.WAIT (R107 to R109) -/

/-- A completion-queue entry in the layout of R109. -/
def cplEntry (d : List Byte) (jstat retries cause : Nat) (f : Int) : Nat :=
  dTag d + jstat * 2 ^ 16 + retries * 2 ^ 20 + cause * 2 ^ 24 + dArray d * 2 ^ 32 + unsignedW 16 f * 2 ^ 48

/-- Queue a completion and, with `IRQ_EN`, its interrupt. Those that come in a swap are discarded with the
rest when the new program is loaded (R122). -/
def pushCpl (t : Nat) (d : List Byte) (e : Nat) (s : State) : State :=
  modTrm t (fun x => { x with
    cplq := x.cplq ++ [e]
    upcalls := if dIrq d then x.upcalls ++ [{ mcause := 17, a1 := dTag d }] else x.upcalls }) s

/-- The bytes at an address of local memory or the shelf, aligned to their number; none with the cause of
the exception: `misaligned` where the alignment fails, `misaligned + 1` for an access fault. -/
def State.block (s : State) (t addr n : Nat) (write : Bool) (misaligned : Nat) : Except Nat (List Byte) :=
  if addr % n ≠ 0 then .error misaligned else
  match s.zone t addr n write with
  | some (.local_ a) => .ok (memRead (s.trmOf t).mem a n)
  | some (.shelf o) => .ok (s.shelfRead (s.trmSag t) o n)
  | _ => .error (misaligned + 1)

/-- Bytes an `Xplof` instruction reads of the shelf count in `hpmcounter5` (R119). -/
def countBlock (t addr n : Nat) (s : State) : State :=
  match s.zone t addr n false with
  | some (.shelf _) => bumpHpm t 5 n s
  | _ => s

/-- `ARR.ISSUE` stalls while the array has no free slot or 64 jobs are outstanding (R108). -/
def State.issueStalls (s : State) (t : Nat) (d : List Byte) : Bool :=
  let x := s.trmOf t
  !s.slotFree (dArray d) || decide (64 ≤ x.cplq.length + x.jobs)

/-- The frame exponent of a job a Trimmer issues: a derived one is forced by a supplied entry in replay (R51). -/
def State.trmFrame (s : State) (t : Nat) (d : List Byte) : Int :=
  let g := s.trmSag t
  if dF d ≠ 0x8000 then dFUsed d
  else (s.forcedF g (aget s.sit g {}).curStep 0 0xFFF 3 (s.trmKey g t (dTag d))).getD (dFUsed d)

/-- The derived exponent of a Trimmer's job enters the step's record (R51). -/
def noteTrmFrame (t : Nat) (d : List Byte) (f : Int) (s : State) : State :=
  let g := s.trmSag t
  if dF d ≠ 0x8000 then s
  else noteFrame g (aget s.sit g {}).curStep (frameEntry 0 0xFFF 3 (dField d 1 12 2) f (s.trmKey g t (dTag d))) s

/-- `ARR.ISSUE`. -/
def arrIssueInsn (t rd rs1 len : Nat) (s : State) : Res :=
  match s.block t (s.tx t rs1) 128 false 4 with
  | .error c => .trap c (s.tx t rs1) s
  | .ok d =>
    if s.issueStalls t d then .hold (modTrm t (fun x => { x with stall := some (.issue rd rs1 len s.now) }) s) else
    let f := s.trmFrame t d
    match presentJob d (.trimmer t) (s.trmSag t) f (countBlock t (s.tx t rs1) 128 s) with
    | (none, s) => .next (setTx t rd 0 (modTrm t (fun x => { x with jobs := x.jobs + 1 }) (noteTrmFrame t d f s)))
    | (some (jstat, cause), s) =>
      .next (setTx t rd (2 ^ 16 + cause * 2 ^ 8 + jstat) (pushCpl t d (cplEntry d jstat 0 cause f) s))

/-- The meaning of `ARR_ISSUE`. -/
def execArrIssue (t rd rs1 : Nat) (s : State) : Host.Outcome State Fault Refusal :=
  run (decide (t < 128) && decide (rd < 32) && decide (rs1 < 32)) (stepInsn t 4 (arrIssueInsn t rd rs1 4) s)

/-- `ARR_ISSUE_UNSTALL`: a stalled `ARR.ISSUE` proceeds once it can. -/
def arrIssueUnstall (t : Nat) (s : State) : State :=
  match (s.trmOf t).stall with
  | some (.issue rd rs1 len _) => inCtx t (fun s =>
    match s.block t (s.tx t rs1) 128 false 4 with
    | .error _ => s
    | .ok d => if s.issueStalls t d then s else finishInsn t len (arrIssueInsn t rd rs1 len (endStall t s))) s
  | _ => s

def execArrIssueUnstall (t : Nat) (s : State) : Host.Outcome State Fault Refusal :=
  run (decide (t < 128)) (arrIssueUnstall t s)

/-- Take the oldest completion into a register, all ones where there is none. -/
def popCpl (t rd : Nat) (s : State) : State :=
  match (s.trmOf t).cplq with
  | e :: rest => setTx t rd e (modTrm t (fun x => { x with cplq := rest }) s)
  | [] => setTx t rd (2 ^ 64 - 1) s

/-- `ARR.WAIT`. -/
def arrWaitInsn (t rd rs1 len : Nat) (s : State) : Res :=
  let limit := s.tx t rs1
  if !(s.trmOf t).cplq.isEmpty || limit = 0 then .next (popCpl t rd s)
  else
    let dl := if limit = 2 ^ 64 - 1 then none else some (s.now + aclk limit)
    .hold (modTrm t (fun x => { x with stall := some (.wait rd len s.now dl) }) s)

/-- The meaning of `ARR_WAIT`. -/
def execArrWait (t rd rs1 : Nat) (s : State) : Host.Outcome State Fault Refusal :=
  run (decide (t < 128) && decide (rd < 32) && decide (rs1 < 32)) (stepInsn t 4 (arrWaitInsn t rd rs1 4) s)

/-- A stalled `ARR.WAIT` retires. -/
def endWait (t rd len : Nat) (s : State) : State :=
  inCtx t (fun s => finishInsn t len (.next (popCpl t rd s))) (endStall t s)

/-- The meaning of `ARR_WAIT_WAKE`. -/
def execArrWaitWake (t : Nat) (s : State) : Host.Outcome State Fault Refusal :=
  run (decide (t < 128))
    (match (s.trmOf t).stall with
     | some (.wait rd len _ _) => if (s.trmOf t).cplq.isEmpty then s else endWait t rd len s
     | _ => s)

/-- The meaning of `ARR_WAIT_TIMEOUT`: an entry that arrives in the same cycle is returned (R26). -/
def execArrWaitTimeout (t : Nat) (s : State) : Host.Outcome State Fault Refusal :=
  run (decide (t < 128))
    (match (s.trmOf t).stall with
     | some (.wait rd len _ (some d)) => endWait t rd len (expire (aclk 1) d s)
     | _ => s)

/-! ## FRM (R110 to R112) -/

/-- Store a frame slot back. -/
def storeSlot (t addr : Nat) (x : Frm) (s : State) : State := (trmStore t addr x.slot s).2

/-- `FRM.ADD` of one term. -/
def frmAddInsn (t rd rs1 : Nat) (v : Num) (s : State) : Res :=
  let addr := s.tx t rs1
  match s.block t addr 32 true 6 with
  | .error c => .trap c addr s
  | .ok b =>
    match slotFrame b with
    | none => .next (setTx t rd 2 (countBlock t addr 32 s))
    | some x =>
      let ovf := (termFrm x.w x.f v).ovf
      let s := storeSlot t addr (x.addTerm v) (countBlock t addr 32 s)
      let s := if ovf then bumpHpm t 10 1 s else s
      .next (setTx t rd (b2n ovf) s)

/-- `FRM.ADD.F`: the slot at rs2 combined into the slot at rs1. rd[0] stays 0 even where a partial frame
carries the overflow flag: a partial is taken as no term that overflowed (DESIGN CHOICE, log 140). -/
def frmAddFInsn (t rd rs1 rs2 : Nat) (s : State) : Res :=
  let addr := s.tx t rs1
  match s.block t addr 32 true 6 with
  | .error c => .trap c addr s
  | .ok a =>
    match s.block t (s.tx t rs2) 32 false 4 with
    | .error c => .trap c (s.tx t rs2) s
    | .ok b =>
      let s := countBlock t (s.tx t rs2) 32 (countBlock t addr 32 s)
      match combineSlots a b with
      | none => .next (setTx t rd 2 s)
      | some x => .next (setTx t rd 0 (storeSlot t addr x s))

/-- `FRM.FIN`. -/
def frmFinInsn (t rd rs1 rs2 : Nat) (s : State) : Res :=
  let addr := s.tx t rs1
  let fc := s.tx t rs2 % 16
  if fc = fcMXINT8 ∨ fc = fcMXFP4 ∨ 8 ≤ fc then .trap 2 0 s else
  match s.block t addr 32 false 4 with
  | .error c => .trap c addr s
  | .ok b =>
    let s := countBlock t addr 32 s
    match slotFrame b with
    | none => .next (setTx t rd (2 ^ 61) s)
    | some x =>
      let o := encodeElem fc x.value
      .next (setTx t rd (o.1 + b2n o.2 * 2 ^ 62 + b2n x.ovf * 2 ^ 63) s)

/-- The term of `FRM.ADD.S`, `.H` and `.I`. -/
def termS (v : Nat) : Num := decodeFloat fmtB32 (v % 2 ^ 32)
def termH (v : Nat) : Num := decodeFloat fmtB16 (v % 2 ^ 16)
def termI (v : Nat) : Num := .fin (signed64 v) 0

/-- The meaning of `FRM_ADD_S`. -/
def execFrmAddS (t rd rs1 rs2 : Nat) (s : State) : Host.Outcome State Fault Refusal :=
  run (decide (t < 128) && decide (rd < 32) && decide (rs1 < 32) && decide (rs2 < 32)) (stepInsn t 4 (fun s => frmAddInsn t rd rs1 (termS (s.tx t rs2)) s) s)

/-- The meaning of `FRM_ADD_H`. -/
def execFrmAddH (t rd rs1 rs2 : Nat) (s : State) : Host.Outcome State Fault Refusal :=
  run (decide (t < 128) && decide (rd < 32) && decide (rs1 < 32) && decide (rs2 < 32)) (stepInsn t 4 (fun s => frmAddInsn t rd rs1 (termH (s.tx t rs2)) s) s)

/-- The meaning of `FRM_ADD_I`. -/
def execFrmAddI (t rd rs1 rs2 : Nat) (s : State) : Host.Outcome State Fault Refusal :=
  run (decide (t < 128) && decide (rd < 32) && decide (rs1 < 32) && decide (rs2 < 32)) (stepInsn t 4 (fun s => frmAddInsn t rd rs1 (termI (s.tx t rs2)) s) s)

/-- The meaning of `FRM_ADD_F`. -/
def execFrmAddF (t rd rs1 rs2 : Nat) (s : State) : Host.Outcome State Fault Refusal :=
  run (decide (t < 128) && decide (rd < 32) && decide (rs1 < 32) && decide (rs2 < 32)) (stepInsn t 4 (frmAddFInsn t rd rs1 rs2) s)

/-- The meaning of `FRM_FIN`. -/
def execFrmFin (t rd rs1 rs2 : Nat) (s : State) : Host.Outcome State Fault Refusal :=
  run (decide (t < 128) && decide (rd < 32) && decide (rs1 < 32) && decide (rs2 < 32)) (stepInsn t 4 (frmFinInsn t rd rs1 rs2) s)

/-! ## RPT.RET (R113), SHELF.PIN (R114), SAMPLE.MARK (R115) -/

/-- `RPT.RET`: outside a handler, or with a length above 256, illegal. A result that does not lie in user
local memory is a load access fault (DESIGN CHOICE, log 141). -/
def rptRet (t rs1 rs2 : Nat) (s : State) : State :=
  let w := s.tx t rs1
  let n := bits w 16 9
  let addr := s.tx t rs2
  if (s.trmOf t).run ≠ .handler ∨ 256 < n then trapTrm t 2 0 s
  else if n ≠ 0 ∧ ¬ (0x9000 ≤ addr ∧ addr + n ≤ 0x40000) then trapTrm t 5 addr s
  else
    let res := memRead (s.trmOf t).mem addr n
    let s := bumpHpm t 8 1 (bumpHpm t 2 1 (bumpCtr (ctrTrmRetired t) 1 s))
    endHandler t (w % 2 ^ 16) res s

/-- The meaning of `RPT_RET`. -/
def execRptRet (t rs1 rs2 : Nat) (s : State) : Host.Outcome State Fault Refusal :=
  run (decide (t < 128) && decide (rs1 < 32) && decide (rs2 < 32)) (if s.trmRuns t then inCtx t (rptRet t rs1 rs2) (beginInsn t s) else s)

/-- Units of 64 KiB of a saggar that hold a pin. -/
def State.pinnedUnits (s : State) (g : Nat) : Nat := countIf s.arrs.pins (fun p => p.1.1 = g && decide (0 < p.2))

/-- The result of `SHELF.PIN`, and the pins after it. -/
def pinResult (t base w : Nat) (s : State) : Nat × State :=
  let g := s.trmSag t
  let n := w % 2 ^ 16
  let us := (List.range n).map (fun i => base / 65536 + i)
  let count := fun (u : Nat) => aget s.arrs.pins (g, u) 0
  if base % 65536 ≠ 0 ∨ n = 0 ∨ w / 2 ^ 17 ≠ 0 ∨ s.shelfSize g < base + n * 65536 then (2, s)
  else if bit w 16 then
    if us.any (fun u => count u = 0) then (3, s)
    else (0, { s with arrs := { s.arrs with pins := (us.foldl (fun p u => amod p (g, u) 0 (· - 1)) s.arrs.pins).filter (fun p => decide (0 < p.2)) } })
  else if s.sagParam g 0x030A * 16 < s.pinnedUnits g + countIf us (fun u => count u = 0) then (1, s)
  else (0, { s with arrs := { s.arrs with pins := us.foldl (fun p u => amod p (g, u) 0 (· + 1)) s.arrs.pins } })

def shelfPinInsn (t rd rs1 rs2 : Nat) (s : State) : Res :=
  match pinResult t (s.tx t rs1) (s.tx t rs2) s with
  | (v, s) => .next (setTx t rd v s)

/-- The meaning of `SHELF_PIN`: `SHELF.PIN` with rs2[16] = 0; with the bit set the instruction is an unpin
and does as `SHELF_UNPIN`. -/
def execShelfPin (t rd rs1 rs2 : Nat) (s : State) : Host.Outcome State Fault Refusal :=
  run (decide (t < 128) && decide (rd < 32) && decide (rs1 < 32) && decide (rs2 < 32)) (stepInsn t 4 (shelfPinInsn t rd rs1 rs2) s)

/-- The meaning of `SHELF_UNPIN`: `SHELF.PIN` with rs2[16] = 1. -/
def execShelfUnpin (t rd rs1 rs2 : Nat) (s : State) : Host.Outcome State Fault Refusal :=
  run (decide (t < 128) && decide (rd < 32) && decide (rs1 < 32) && decide (rs2 < 32)) (stepInsn t 4 (shelfPinInsn t rd rs1 rs2) s)

def sampleMarkInsn (t rs1 : Nat) (s : State) : Res := .next (modTrm t (fun x => { x with xmark := s.tx t rs1 % 2 ^ 32 }) s)

/-- The meaning of `SAMPLE_MARK`. -/
def execSampleMark (t rs1 : Nat) (s : State) : Host.Outcome State Fault Refusal :=
  run (decide (t < 128) && decide (rs1 < 32)) (stepInsn t 4 (sampleMarkInsn t rs1) s)

/-! ## Fabric windows (R102, R103) -/

/-- The node and offset an access at `a` of window `n` addresses. -/
def State.winTarget (s : State) (t n a : Nat) : Nat × Nat :=
  let w := aget (s.trmOf t).xwin n 0
  (bits w 48 16, bits w 30 18 * 2 ^ 30 + a)

/-- Send a window request, or stall while the Trimmer may not send one. -/
def winSend (t : Nat) (kind : WinKind) (addr : Nat) (p : Packet) (s : State) : Option State :=
  if !s.maySend (.trimmer t) p.dst p.saggar || (p.opcode ≠ opREAD && s.grainHeld (.trimmer t) p.dst p.offset) then none
  else
    let tag := s.nextTag
    some (issue (.trimmer t) p (bumpHpm t 7 1 (modTrm t (fun x => { x with wins := x.wins ++ [{ tag := tag, kind := kind, addr := addr }] }) s)))

/-- The `READ` of a window load: the aligned 8 bytes that hold it. -/
def winReadPacket (g dst off : Nat) : Packet := { dst := dst, opcode := opREAD, saggar := g, offset := off / 8 * 8, cls := 1, length := 8 }

/-- A load through a window: the code waits for the answer. -/
def winLoad (t n a addr : Nat) (kind : WinKind) (s : State) : Res :=
  let d := s.winTarget t n a
  match winSend t kind addr (winReadPacket (s.trmSag t) d.1 d.2) s with
  | some s => .hold s
  | none => .hold s

/-- The `WRITE` of a window store. -/
def winWritePacket (g dst off : Nat) (bs : List Byte) : Packet :=
  { dst := dst, opcode := opWRITE, saggar := g, offset := off, cls := 1, length := bs.length, payload := bs, trailer := trailerOf off bs }

/-- A store through a window. A `WRITE` carries at least 8 bytes (R330), so a store of fewer reads the aligned
word that holds its bytes and writes it back with them (DESIGN CHOICE, log 142); the code waits for the
read. `next` is the accesses done with it where it is an element of a vector store. -/
def winStore (t n a addr : Nat) (bs : List Byte) (len : Nat) (next : Option Nat) (s : State) : Res :=
  let d := s.winTarget t n a
  let g := s.trmSag t
  if bs.length = 8 then
    match winSend t .store addr (winWritePacket g d.1 d.2 bs) s with
    | some s => .next s
    | none => .hold s
  else
    match winSend t (.fill bs len next) addr (winReadPacket g d.1 d.2) s with
    | some s => .hold s
    | none => .hold s

/-- A 64-bit atomic through a window. -/
def winAmo (t rd n a addr op v len : Nat) (s : State) : Res :=
  let d := s.winTarget t n a
  let p : Packet := { dst := d.1, opcode := op, saggar := s.trmSag t, offset := d.2, cls := 1, length := 8, payload := natLe v 8 }
  match winSend t (.amo rd len) addr p s with
  | some s => .hold s
  | none => .hold s

def amoOpcode : AmoOp → Nat
  | .add => opADD | .min => opMIN | .max => opMAX | .swap => opSWAP

/-- The meaning of `WINDOW_LOAD`: a load of 1, 2, 4 or 8 bytes at a Trimmer address inside a window. -/
def windowLoadInsn (t rd addr bytes : Nat) (signed : Bool) (s : State) : Res :=
  if bytes ≠ 1 ∧ bytes ≠ 2 ∧ bytes ≠ 4 ∧ bytes ≠ 8 then .trap 2 0 s else
  match s.zone t addr bytes false with
  | some (.win n a) => if addr % bytes ≠ 0 then .trap 4 addr s else winLoad t n a addr (.load rd bytes signed 4) s
  | _ => .trap 5 addr s

def execWindowLoad (t rd addr bytes : Nat) (signed : Bool) (s : State) : Host.Outcome State Fault Refusal :=
  run (decide (t < 128) && decide (rd < 32) && decide (addr < 2 ^ 64) && decide (bytes < 9)) (stepInsn t 4 (windowLoadInsn t rd addr bytes signed) s)

/-- The meaning of `WINDOW_STORE`. -/
def windowStoreInsn (t addr : Nat) (data : List Byte) (s : State) : Res :=
  let n := data.length
  if n ≠ 1 ∧ n ≠ 2 ∧ n ≠ 4 ∧ n ≠ 8 then .trap 2 0 s else
  match s.zone t addr n true with
  | some (.win k a) => if addr % n ≠ 0 then .trap 6 addr s else winStore t k a addr data 4 none s
  | _ => .trap 7 addr s

def execWindowStore (t addr : Nat) (data : List Byte) (s : State) : Host.Outcome State Fault Refusal :=
  run (decide (t < 128) && decide (addr < 2 ^ 64)) (stepInsn t 4 (windowStoreInsn t addr data) s)

/-- The meaning of `WINDOW_AMO`. -/
def windowAmoInsn (t rd : Nat) (op : AmoOp) (addr : Nat) (v : Nat) (s : State) : Res :=
  match s.zone t addr 8 true with
  | some (.win k a) => if addr % 8 ≠ 0 then .trap 6 addr s else winAmo t rd k a addr (amoOpcode op) v 4 s
  | _ => .trap 7 addr s

def execWindowAmo (t rd : Nat) (op : AmoOp) (addr : Nat) (v : Word64) (s : State) : Host.Outcome State Fault Refusal :=
  run (decide (t < 128) && decide (rd < 32) && decide (addr < 2 ^ 64)) (stepInsn t 4 (windowAmoInsn t rd op addr v.toNat) s)

/-- The meaning of `WINDOW_RETRY_BACKOFF`: the request goes out again. -/
def windowRetry (t tag : Nat) (s : State) : State :=
  match s.fab.outst.find? (fun r => r.req = .trimmer t ∧ r.pkt.tag = tag ∧ r.backoff.isSome) with
  | some _ => nackBackoff tag s
  | none => s

def execWindowRetryBackoff (t tag : Nat) (s : State) : Host.Outcome State Fault Refusal :=
  run (decide (t < 128) && decide (tag < 65536)) (windowRetry t tag s)

/-- A value of `n` bytes as a register holds it. -/
def extend (v n : Nat) (signed : Bool) : Nat := if signed then unsignedW 64 (signedW (8 * n) v) else v % 2 ^ (8 * n)

/-- Write an element of a vector register group. -/
def setElem (t vd i n v : Nat) (s : State) : State :=
  let r := vd + i * n / 64
  modTrm t (fun x => { x with ctx := { x.ctx with v := amod x.ctx.v r (zeros 64) (fun b => overlay b (i * n % 64) (natLe v n)) } }) s

/-- A window access that needs no retry has been answered well: the load or atomic completes, an element is
loaded, the word a narrow store changes is written. -/
def winDone (t : Nat) (w : WinReq) (data : List Byte) (s : State) : State :=
  match w.kind with
  | .load rd n signed len => finishInsn t len (.next (setTx t rd (extend (le data (w.addr % 8) n) n signed) s))
  | .amo rd len => finishInsn t len (.next (setTx t rd (le data 0 8) s))
  | .elem vd i n next => modTrm t (fun x => { x with ctx := { x.ctx with vpos := next } }) (setElem t vd i n (le data (w.addr % 8) n) s)
  | .store => s
  | .fill bs len next =>
    let a := w.addr - 0x20000000000
    let d := s.winTarget t (a / 2 ^ 30) (a % 2 ^ 30)
    let p := winWritePacket (s.trmSag t) d.1 (d.2 / 8 * 8) (overlay (fit data 8) (w.addr % 8) bs)
    let tag := s.nextTag
    let s := issue (.trimmer t) p (bumpHpm t 7 1 (modTrm t (fun x => { x with wins := x.wins ++ [{ tag := tag, kind := .store, addr := w.addr }] }) s))
    match next with
    | none => finishInsn t len (.next s)
    | some k => modTrm t (fun x => { x with ctx := { x.ctx with vpos := k } }) s

/-- A window access has been answered. `OK` and `OK_SUPERSEDED` complete it; any other status is an access
fault, with `xfstat` the code (R103). A swap stops the main code here. -/
def trimmerAnswer (t tag code : Nat) (data : List Byte) (s : State) : State :=
  match (s.trmOf t).wins.find? (fun w => w.tag = tag) with
  | none => s
  | some w =>
    let s := modTrm t (fun x => { x with wins := x.wins.erase w }) s
    let s :=
      if code ≤ 1 then inCtx t (winDone t w data) s
      else
        let s := modTrm t (fun x => { x with xfstat := code % 16 }) s
        let cause := match w.kind with | .load .. => 5 | .elem .. => 5 | _ => 7
        if (s.trmOf t).run = .none && w.kind = .store then s else inCtx t (trapTrm t cause w.addr) s
    let x := s.trmOf t
    let s := if x.swap.isSome && x.run = .main && !x.blocked then stopMain t s else s
    trySwap (s.trmSag t) s

/-! ## Faults as events (R117, R118, R124) -/

/-- The meaning of `RPT_HANDLER_FAULT`. -/
def execRptHandlerFault (t mcause mtval : Nat) (s : State) : Host.Outcome State Fault Refusal :=
  run (decide (t < 128) && decide (mcause < 2 ^ 64) && decide (mtval < 2 ^ 64)) (if (s.trmOf t).run = .handler then killHandler t 0xFFFF mcause mtval s else s)

/-- The meaning of `RPT_BUDGET_EXHAUSTED`. -/
def execRptBudgetExhausted (t : Nat) (s : State) : Host.Outcome State Fault Refusal :=
  run (decide (t < 128)) (if (s.trmOf t).run = .handler then killHandler t 0xFFFE 0 0 s else s)

/-- The meaning of `MAIN_CODE_FAULT`. -/
def execMainCodeFault (t mcause mtval : Nat) (s : State) : Host.Outcome State Fault Refusal :=
  run (decide (t < 128) && decide (mcause < 2 ^ 64) && decide (mtval < 2 ^ 64)) (if (s.trmOf t).run = .main || (s.trmOf t).run = .upcall then haltMain t s else s)

/-- The meaning of `TRM_PARITY_ERROR`: in user memory a load access fault of the code that read, which is the
firmware where no user code runs; in firmware data, or of the firmware, a restart of the firmware (R124). -/
def execTrmParityError (t : Nat) (firmware : Bool) (addr : Nat) (s : State) : Host.Outcome State Fault Refusal :=
  run (decide (t < 128) && decide (addr < 2 ^ 64))
    (if decide (t < s.variant.trimmers) && !(s.trmOf t).fence.on then
       let s := bumpSat (satTrmParity t) s
       if firmware then fwRestart t s else inCtx t (trapTrm t 5 addr) s
     else s)

/-! ## Job completion (R85) -/

/-- `JOB_COMPLETION`: the record of an ended job is written, its slot is free, and its issuer is told. -/
def jobCompletion (a slot : Nat) (s : State) : State :=
  match s.job a slot with
  | none => s
  | some j =>
    if j.st < 6 then s else
    let d := j.desc
    let rec_ := cplRecord d j.jstat (min 3 j.failed) j.cause j.f j.ovf j.sat (s.aclkSince j.at_)
    let s := writeCpl (dSaggar d) d rec_ s
    let s := modArr a (fun x => { x with slots := aerase x.slots slot }) s
    let s := match j.issuer with
      | .trimmer t =>
        let s := modTrm t (fun x => { x with jobs := x.jobs - 1 }) (pushCpl t d (cplEntry d j.jstat (min 3 j.failed) j.cause j.f) s)
        trySwap (s.trmSag t) s
      | .sitter g l e p b r => sitterJobDone g l e p b r j a s
      | .nobody => s
    forEach ((s.sit.filter (fun q => q.2.batches.any (·.issued))).map (·.1)) pumpBatches s

/-- The meaning of `JOB_COMPLETION`. -/
def execJobCompletion (a slot : Nat) (s : State) : Host.Outcome State Fault Refusal :=
  run (decide (a < 1536) && decide (slot < 2)) (jobCompletion a slot s)

end Sys2Proof.Machine
end

