-- ==== Sys2Proof/Machine/Answers.lean ====
section
/-! DEFINITION. The answers requesters take (R331, R337, R339, R343, R347, R357), what each unit does with
the end of its request, and the RPT call (R349). -/

namespace Sys2Proof.Machine

/-! ## The end of a request at its unit -/

/-- Answer one original of a merged request under its own tag. -/
def replyMerged (p : Packet) (code hint : Nat) (data : List Byte) (s : State) : State :=
  match Status.ofCode code with
  | none => s
  | some st => if p.opcode = opREAD ∧ code = 0 then answerRead p data s else reply p st hint data s

/-- A merged request has been answered (R362, R363): the reads all get the answer; of writes, the latest
gets it, and the superseded ones get `OK_SUPERSEDED` where it is `OK` or `OK_SUPERSEDED`. The timeout
code is no answer: the originals' own timers go on. -/
def mergeAnswer (n code hint : Nat) (data : List Byte) (s : State) : State :=
  match s.fab.merges.find? (fun m => m.tag = n) with
  | none => s
  | some m =>
    let s := { s with fab := { s.fab with merges := s.fab.merges.erase m } }
    let early := if m.isWrite && code = 0 then Status.okSuperseded.code else code
    let s := forEach (if m.isWrite then m.originals.dropLast else m.originals)
      (fun p s => replyMerged p (if m.isWrite then early else code) hint data s) s
    match m.isWrite, m.originals.getLast? with
    | true, some p => replyMerged p code hint data s
    | _, _ => s

/-- A request's unit takes its end. -/
def deliverDone (hint : Nat) (d : Done) (s : State) : State :=
  let r := d.req
  match r.req with
  | .trimmer t =>
    if s.att.reqs.any (fun q => q.tags.contains r.ref) then attendAnswer r.ref s
    else trimmerAnswer t r.ref d.status d.data s
  | .mover m => moverAnswer m r.ref d.status d.data s
  | .gather e => gatherAnswer e r.ref d.status hint d.data s
  | .codec e => codecAnswer e r.ref d.status d.data s
  | .pug _ => pugAnswer r.ref d.status hint d.data s
  | .control => if r.pkt.opcode = opINVAL then invalAnswered r d.status s
    else if r.pkt.opcode = opMGMT then mgmtAnswered r.ref d.status s else sitterAnswer r.ref s
  | .merge n => mergeAnswer n d.status hint d.data s
  | .edge port => cxlDone port { r with pkt := { r.pkt with tag := r.ref } } d.status d.data s

/-- Every request that has ended goes to its unit. -/
def flushDone (hint : Nat) (s : State) : State :=
  forEach s.fab.done (deliverDone hint) { s with fab := { s.fab with done := [] } }

/-! ## Answers -/

/-- The outstanding limit after an answer (R337). -/
def creditAnswer (r : Req) (cm : Bool) (s : State) : State :=
  let k := (r.req, r.pkt.dst)
  let cur := aget s.fab.limit k (reqLimit r.req)
  let next := if cm then max 16 (cur / 2) else min (reqLimit r.req) (cur + 1)
  { s with fab := { s.fab with limit := if next = reqLimit r.req then aerase s.fab.limit k else aset s.fab.limit k next } }

/-- Replace an outstanding request. -/
def setReq (r r' : Req) (s : State) : State :=
  { s with fab := { s.fab with outst := s.fab.outst.map (fun x => if x = r then r' else x) } }

/-- Whether a requester ends a request at the first `NACK_STALE_EPOCH` or `NACK_FENCED`: Trimmer windows
(R103), the Pug (R291, R298), the Gather (R304), and merged requests, whose answer goes to the originals
(R363). -/
def endsAtNack : Requester → Bool
  | .trimmer _ => true
  | .pug _ => true
  | .gather _ => true
  | .merge _ => true
  | _ => false

/-- Whether a `NACK_RETRY` is passed on and not retried here: a combined atomic's (R298) and a merged
request's (R363). -/
def Req.passesRetry (r : Req) : Bool := r.pkt.cmb || (match r.req with | .merge _ => true | _ => false)

/-- A `READ` answer whose check failed is asked for once more, with a new tag (R347). -/
def reread (r : Req) (s : State) : State :=
  let r' : Req := { r with reread := true, pkt := { r.pkt with tag := s.nextTag } }
  resend r' (setReq r r' { s with fab := { s.fab with tagNext := (s.nextTag + 1) % 65536 } })

/-- An answer to an outstanding request. -/
def answered (r : Req) (p : Packet) (data : List Byte) (s : State) : State :=
  let s := creditAnswer r p.cm s
  if p.status = Status.nackRetry.code ∧ !r.passesRetry = true ∧ r.nacks < 16 then
    setReq r { r with nacks := r.nacks + 1, backoff := some (s.now + sclk (2 ^ p.hint)), deadline := none } s
  else if (p.status = Status.nackStaleEpoch.code ∨ p.status = Status.nackFenced.code) ∧ !endsAtNack r.req = true then
    if r.pkt.epoch ≠ s.img.epoch then
      let r' : Req := { r with pkt := { r.pkt with rty := false } }
      resend r' (setReq r r' s)
    else setReq r { r with held := some (p.status, s.now + sclk (2 ^ s.toExp)), deadline := none
                           pkt := { r.pkt with rty := false } } s
  else if r.pkt.opcode = opREAD ∧ p.status = 0 ∧ (data.length ≠ r.pkt.length ∨ p.trailer ≠ trailerOf r.pkt.offset data) then
    if r.reread then flushDone 0 (complete r Status.poison.code [] s) else reread r s
  else flushDone p.hint (complete r p.status data s)

/-- An answer arrives (R331, R339): one that matches no outstanding tag, or names no status, is discarded
and counted. -/
def takeAnswer (p : Packet) (data : List Byte) (s : State) : State :=
  let s := take p s
  match s.fab.outst.find? (fun r => r.pkt.tag = p.tag) with
  | none => bumpSat satFabOrphan s
  | some r => if 13 ≤ p.status then bumpSat satFabOrphan s else answered r p data s

/-- The meaning of `ACK`. -/
def execAck (p : Packet) (s : State) : Host.Outcome State Fault Refusal :=
  run (p.wf) (takeAnswer p [] s)

/-- Whether the answer to a request is a train (R338). -/
def answeredByTrain (r : Req) : Bool := r.pkt.opcode = opGATHER || r.pkt.opcode = opSIEVE

/-- An answer with data; one that is a train is taken once it is whole (R331, R342). -/
def takeDataAnswer (p : Packet) (s : State) : State :=
  match s.fab.outst.find? (fun r => r.pkt.tag = p.tag) with
  | some r => if answeredByTrain r then reassemble p (fun w s => takeAnswer w w.payload s) s else takeAnswer p p.payload s
  | none => takeAnswer p p.payload s

/-- The meaning of `ACK_DATA`. -/
def execAckData (p : Packet) (s : State) : Host.Outcome State Fault Refusal :=
  run (p.wf) (takeDataAnswer p s)

/-- The meaning of `COMPLETION_TIMEOUT`. -/
def execCompletionTimeout (tag : Nat) (s : State) : Host.Outcome State Fault Refusal :=
  run (decide (tag < 65536)) (flushDone 0 (completionTimeout tag s))

/-- The meaning of `STALE_HOLD_TIMEOUT`. -/
def execStaleHoldTimeout (tag : Nat) (s : State) : Host.Outcome State Fault Refusal :=
  run (decide (tag < 65536)) (flushDone 0 (staleHold tag s))

/-! ## RPT (R349) -/

/-- The state a meaning goes on in. -/
def outcomeState (o : Host.Outcome State Fault Refusal) (s : State) : State :=
  match o with
  | .next t => t
  | _ => s

/-- A device procedure's call is passed to its unit (R349 row 7), which checks it by its own rules. -/
def deviceCall (proc : Nat) (p : Packet) (s : State) : State :=
  if proc = 0xFF0 then outcomeState (execRegionCreate p s) s
  else if proc = 0xFF1 then outcomeState (execRegionDelete p s) s
  else if proc = 0xFF2 then outcomeState (execRegionSeal p s) s
  else if proc = 0xFF3 then outcomeState (execRegionInfo p s) s
  else if proc = 0xFF4 then outcomeState (execCodecEncode p s) s
  else if proc = 0xFF5 then outcomeState (execCodecDecode p s) s
  else if proc = 0xFF6 then outcomeState (execCodecBind p s) s
  else if proc = 0xFF7 then outcomeState (execCodecUnbind p s) s
  else if proc = 0xFF8 then outcomeState (execCollOpen p s) s
  else if proc = 0xFF9 then outcomeState (execCollCancel p s) s
  else if proc = 0xFFA then outcomeState (execCollInfo p s) s
  else if proc = 0xFFB then outcomeState (execGatherMigrate p s) s
  else if proc = 0xFFC then outcomeState (execSieveInsert p s) s
  else if proc = 0xFFD then outcomeState (execSieveDelete p s) s
  else outcomeState (execSieveMerge p s) s

/-- An RPT call at its destination. -/
def rptCall (p : Packet) (s : State) : State :=
  match s.rptRefusal p with
  | some (st, h) => reply p st h [] (take p s)
  | none =>
    let proc := callProc p
    if 0xFF0 ≤ proc then deviceCall proc p s
    else
      let e := s.rptEntryOf p.saggar proc
      let t := s.servingTrimmer p.saggar e
      if 64 ≤ (s.trmOf t).rptq.length then reply p .nackRetry 12 [] (take p s)
      else enqueueRpt t { p := p, entry := e } (take p s)

/-- The meaning of `RPT`. -/
def execRpt (p : Packet) (s : State) : Host.Outcome State Fault Refusal :=
  run (p.wf) (rptCall { p with opcode := opRPT } s)

end Sys2Proof.Machine
end

