-- ==== Sys2Proof/Machine/ImageCheck.lean ====
section
/-! DEFINITION. The checks of a configuration image (R458 to R470, R491, R505, R592 to R594), in the order
of R469. -/

namespace Sys2Proof.Machine

/-! ## The image a slice stands for -/

/-- A partial image's sections take the bodies the slice omits from the configuration in force, where the
key and digest are the same (R473). -/
def resolve (im cur : Image) : Image :=
  { im with sections := im.sections.map (fun c => match c.body with
      | some _ => c
      | none => match cur.sections.find? (fun o => o.key = c.key ∧ o.dig = c.dig) with
        | some o => { c with body := o.body }
        | none => c) }

/-- The body of a section. -/
def Section.bytes (c : Section) : List Byte := c.body.getD []

/-- The sections of a type. -/
def Image.ofType (im : Image) (ty : Nat) : List Section := im.sections.filter (fun c => c.ty = ty)

/-- The saggar record of an image for a node. -/
def Image.sagRec (im : Image) (node g : Nat) : List Byte := Machine.sagRec (im.bodyOf tySAGMAP node 0 0) g

/-- Saggars 1 to 63 that exist on a node. -/
def Image.saggars (im : Image) (node : Nat) : List Nat := (List.range 64).filter (fun g => g ≠ 0 && recExists (im.sagRec node g))

/-- The compositions a node belongs to: by their member lists, and by its saggar map. -/
def Image.comps (im : Image) (node : Nat) : List Nat :=
  (((im.ofType tyCOMPOSITION).filter (fun c => (compMembers c.bytes).contains node)).map (·.comp)
    ++ (im.saggars node).map (fun g => recComp (im.sagRec node g))).eraseDups

/-- The sections that cover a node (R460). -/
def Image.covering (im : Image) (node : Nat) : List Section := im.sections.filter (fun c => c.covers node (im.comps node))

/-! ## Cause 0x1: form -/

/-- The parameter lists an image carries, with the section type of each. -/
def Image.paramLists (im : Image) : List (Nat × List Byte) :=
  im.sections.filterMap (fun c =>
    if c.ty = tySYS ∨ c.ty = tyNODEPARAMS ∨ c.ty = tySAGPARAMS then c.body.map (fun b => (c.ty, b))
    else if c.ty = tyCOMPOSITION then c.body.map (fun b => (c.ty, compParams b))
    else none)

/-- Whether every byte of a range is zero. -/
def zeroAt (b : List Byte) (off n : Nat) : Bool := (sub b off n).all (· = 0)

/-- The heads of the records of a `DOMAINS` body; `fuel` bounds their number. -/
def domainHeads (b : List Byte) : Nat → List Nat
  | 0 => []
  | fuel + 1 =>
    if b.length < 8 then [] else
      let h := le b 0 8
      h :: domainHeads (b.drop (8 + ceilDiv (2 * (bits h 16 7 + bits h 32 11)) 8 * 8)) fuel

/-- Zero fields of a body (R462, R464 to R468); bits of a record to which no field is given count as reserved. -/
def zeroFieldsOk (c : Section) : Bool :=
  let b := c.bytes
  if c.ty = tyNODES then (List.range (b.length / 8)).all (fun i => zeroAt b (8 * i + 5) 3)
  else if c.ty = tyDOMAINS then (domainHeads b (b.length / 8)).all (fun h => (bits h 23 9 = 0) && (bits h 43 21 = 0))
  else if c.ty = tyCODEC then (List.range (b.length / 16)).all (fun i => zeroAt b (16 * i + 2) 2 && zeroAt b (16 * i + 12) 4)
  else if c.ty = tySIEVE then (List.range (b.length / 16)).all (fun i => (bits (le b (16 * i) 4) 6 26 = 0) && zeroAt b (16 * i + 12) 4)
  else if c.ty = tyRPT then (List.range 0xFF0).all (fun i => let w := rptEntry b i
    (bits w 2 10 = 0) && (bits w 19 13 = 0) && (bits w 59 5 = 0))
  else if c.ty = tyEXPERTMAP then zeroAt b 4 12 && (List.range ((b.length - 16) / 16)).all (fun i => bits (le b (16 * i + 21) 1) 2 6 = 0)
  else if c.ty = tyPORTS then
    (List.range 64).all (fun p => let r := portRec b p
      !bit (le r 0 1) 7 && (bits (le r 1 1) 2 6 = 0) && zeroAt r 6 2 && zeroAt r 16 16)
    && (List.range ((b.length - 2048) / 144)).all (fun i => let h := le b (2048 + 144 * i) 8
      (bits h 6 2 = 0) && (bits h 12 4 = 0) && (bits h 22 10 = 0) && (bits h 48 16 = 0) && zeroAt b (2056 + 144 * i) 8)
  else if c.ty = tyQOS then
    (List.range 512).all (fun i => (bits (le b (32 * i + 28) 1) 1 7 = 0) && zeroAt b (32 * i + 29) 3)
      && (List.range 48).all (fun i => zeroAt b (512 * 32 + 16 * i + 10) 6)
  else if c.ty = tySAGMAP then
    (List.range 64).all (fun g => let r := Machine.sagRec b g
      (bits (le r 0 1) 4 4 = 0) && zeroAt r 5 3 && zeroAt r 44 20 && zeroAt r 544 32)
  else if c.ty = tyPROGRAM then zeroAt b 20 12
  else if c.ty = tyCOMPOSITION then zeroAt b 4 4
  else if c.ty = tyREGIONS then (List.range (b.length / 144)).all (fun i => let r := sub b (144 * i) 144
    zeroAt r 130 14 && !bit (le r 0 8) 59 && zeroAt r 16 4 && zeroAt r 32 32)
  else if c.ty = tyWITNESS then (le b 0 2 = 1) && zeroAt b 2 14 && (b.length = 528)
    && (List.range 64).all (fun g => bits (le b (16 + 8 * g) 8) 2 30 = 0)
  else if c.ty = tyPROTECTION then
    let w := le b 0 8
    (bits w 6 2 = 0) && (bits w 14 2 = 0) && (bits w 20 44 = 0)
      && (List.range (keySlots b).length).all (fun i => let r := sub b (8 + 1816 * i) 1816
        (bits (le r 0 8) 2 62 = 0) && zeroAt r 1809 7)
      && (List.range (bits w 8 6)).all (fun i => let x := le b (8 + 1816 * (keySlots b).length + 8 * i) 8
        (bits x 6 2 = 0) && (bits x 14 2 = 0) && (bits x 17 7 = 0) && (bits x 30 34 = 0))
  else true

/-- The `NODES` records ascend (R462). -/
def nodesAscend (c : Section) : Bool :=
  c.ty ≠ tyNODES || ascending (fun a b => decide (a < b)) ((nodeRecs c.bytes).map (·.1))

/-- Cause 0x1 beyond the file's own form: parameter keys and nodes ascend, zero fields are zero. -/
def Image.bodyForm (im : Image) : Bool :=
  im.paramLists.all (fun p => ascending (fun a b => decide (a < b)) ((paramsOf p.2).map (·.1)))
    && im.sections.all (fun c => c.body.isNone || (zeroFieldsOk c && nodesAscend c))

/-! ## Cause 0x4: absent units (R470) -/

/-- A saggar record names an instance beyond the fitted counts. -/
def beyondCounts (v : Variant) (r : List Byte) : Bool :=
  (List.range 1536).any (fun a => decide (v.arrays ≤ a) && (recArray r a || recAttnArray r a))
    || (List.range 128).any (fun t => decide (v.trimmers ≤ t) && (recTrimmer r t || recAttnTrimmer r t))
    || (List.range 512).any (fun i => decide (v.stacks ≤ i / 64) && recHbmPc r i)
    || (List.range 4).any (fun d => decide (v.arrayDies ≤ d ∧ 0 < recShelfMib r d))

/-- The region descriptors of a `REGIONS` section whose home is a node. -/
def homedRecords (c : Section) (node : Nat) : List (List Byte) :=
  ((List.range (c.bytes.length / 144)).map (fun i => sub c.bytes (144 * i) 144)).filter (fun r => (regionOfDesc r).home = node)

/-- The image names a unit this variant lacks. -/
def State.namesAbsent (s : State) (im : Image) (node : Nat) : Bool :=
  let v := s.variant
  let cov := im.covering node
  let has := fun ty => cov.any (fun c => c.ty = ty)
  let recs := (List.range 64).map (im.sagRec node)
  let pols := (cov.filter (fun c => c.ty = tyREGIONS)).flatMap (fun c => (homedRecords c node).map (fun d => (regionOfDesc d).tierPol))
  let lack := fun u => !s.fitted u
  (lack capSIV && (has tySIEVE || recs.any (fun r => decide (0 < recSivShare r))))
    || (lack capTRM && (has tyPROGRAM || recs.any (fun r => (List.range 128).any (recTrimmer r))
        || cov.any (fun c => c.ty = tyRPT && (List.range 0xFF0).any (fun i => rptValid (rptEntry c.bytes i)))))
    || (lack capARR && (has tySTEPPLAN || has tyEXPERTMAP))
    || (lack capHBM && (recs.any (fun r => (List.range 512).any (recHbmPc r)) || pols.any (fun p => (polTiers p).contains 2)))
    || (lack capFLM && (recs.any (fun r => decide (0 < recFlashGib r)) || pols.any (fun p => (polTiers p).contains 4)
        || (paramsOf (im.bodyOf tyNODEPARAMS node 0 0)).any (fun p => decide (0x0210 ≤ p.1 ∧ p.1 ≤ 0x0214))))
    || recs.any (beyondCounts v)

/-! ## Cause 0x6: signatures (R461) -/

/-- Distinct slots of a role in a key set whose signatures verify. -/
def roleSigners (role : Nat) (set : List KeySlot) (msg : List Byte) (sigs : List (List Byte × List Byte)) : List Nat :=
  (sigs.filterMap (fun x => (List.range set.length).find? (fun i =>
    match set[i]? with
    | some k => decide (k.role = role) && decide (digest k.key = x.1) && Config.falconVerify k.key msg x.2
    | none => false))).eraseDups

/-- Some protection section is added, removed or differs from the one in force. -/
def protChanged (im cur : Image) : Bool :=
  let key := fun (c : Section) => (c.key, c.dig)
  let a := (im.sections.filter (·.prot)).map key
  let b := (cur.sections.filter (·.prot)).map key
  a.any (fun k => !b.contains k) || b.any (fun k => !a.contains k)

/-- The signatures suffice for a key set. -/
def signaturesOk (set : List KeySlot) (im cur : Image) : Bool :=
  let msg := imgMessage im.header im.dirBytes
  decide (1 ≤ (roleSigners 1 set msg im.sigs).length)
    && (!protChanged im cur || decide (2 ≤ (roleSigners 3 set msg im.sigs).length))

/-! ## Cause 0x9: values -/

/-- The Plofens an image lists. -/
def Image.plofens (im : Image) : List Nat := ((nodeRecs (im.bodyOf tyNODES 0 0 0)).filter (fun r => r.2.1 ≠ 0)).map (·.1)

/-- Every parameter is of its section, known and in its range; every required one is present. -/
def paramsInRange (ty : Nat) (b : List Byte) : Bool :=
  (paramsOf b).all (fun p => paramTable.any (fun r => decide (r.1 = p.1 ∧ r.2.1 = ty ∧ r.2.2.1 ≤ p.2 ∧ p.2 ≤ r.2.2.2.1)))
    && paramTable.all (fun r => decide (r.2.1 ≠ ty) || r.2.2.2.2.isSome || (paramsOf b).any (fun p => p.1 = r.1))

/-- Conditions on parameters that depend on other values (R463). -/
def Image.paramsAgree (im : Image) (node : Nat) : Bool :=
  let sy := im.bodyOf tySYS 0 0 0
  let n := im.bodyOf tyNODEPARAMS node 0 0
  let pl := im.plofens
  pl.contains (paramIn sy 1) && pl.contains (paramIn sy 2) && decide (paramIn sy 1 ≠ paramIn sy 2)
    && decide (paramIn n 0x020C < paramIn n 0x020A) && decide (paramIn n 0x020D < paramIn n 0x020B)
    && decide (paramIn n 0x0211 < paramIn n 0x0212) && (paramsOf n).any (fun p => p.1 = 0x0215) && pl.contains (paramIn n 0x0215) && decide (paramIn n 0x0215 ≠ node)
    && (im.ofType tyCOMPOSITION).all (fun c => c.body.isNone ||
        (let m := (compMembers c.bytes).length
         let l := paramIn (compParams c.bytes) 0x0105
         let sb := paramIn (compParams c.bytes) 0x0106
         if m = 1 then l = 0 else decide (l < m ∧ sb < m ∧ l ≠ sb)))
    && (im.ofType tySAGPARAMS).all (fun c => c.body.isNone ||
        decide (paramIn c.bytes 0x030E < paramIn c.bytes 0x030D ∧ paramIn c.bytes 0x0310 < paramIn c.bytes 0x030F))

/-- A list has no repeats. -/
def distinct {α : Type} [DecidableEq α] (l : List α) : Bool := l.eraseDups.length = l.length

/-- A sum over saggars. -/
def sumOver (l : List Nat) (f : Nat → Nat) : Nat := l.foldl (fun n g => n + f g) 0

/-- The largest flash assignment in GiB: the logical capacity of 256 TiB raw (R593). -/
def flashBound (op : Nat) : Nat := 4 * (2 ^ 34 * (100 - op) / 400) / 65536

/-- No granule belongs to two saggars and no total exceeds the chip (R469, R483, R593). -/
def Image.noOverCommit (im : Image) (node : Nat) : Bool :=
  let gs := List.range 64
  let r := im.sagRec node
  let once := fun (has : Nat → Nat → Bool) (n : Nat) => (List.range n).all (fun i => decide (countIf gs (fun g => has g i) ≤ 1))
  let n := im.bodyOf tyNODEPARAMS node 0 0
  let ids := gs.filter (fun g => decide (recRegionHi (r g) ≠ 0))
  once (fun g => recArray (r g)) 1536 && once (fun g => recTrimmer (r g)) 128 && once (fun g => recHbmPc (r g)) 512
    && (List.range 4).all (fun d => decide (sumOver gs (fun g => recShelfMib (r g) d) ≤ 72))
    && decide (sumOver gs (fun g => recSwcQuota (r g)) ≤ 164) && decide (sumOver gs (fun g => recPugShare (r g)) ≤ 960)
    && decide (sumOver gs (fun g => recSivShare (r g)) ≤ 32)
    && decide (sumOver gs (fun g => recDramGib (r g)) + paramIn n 0x0201 ≤ 8192)
    && decide (sumOver gs (fun g => recFlashGib (r g)) ≤ flashBound (paramIn n 0x0210))
    && ids.all (fun g => decide (recRegionLo (r g) ≤ recRegionHi (r g))
        && ids.all (fun h => decide (g = h ∨ recRegionHi (r g) < recRegionLo (r h) ∨ recRegionHi (r h) < recRegionLo (r g))))
    && gs.all (fun g => (List.range 1536).all (fun a => !recAttnArray (r g) a || recArray (r g) a)
        && (List.range 128).all (fun t => !recAttnTrimmer (r g) t || recTrimmer (r g) t))
    && recExists (r 0)

/-- The saggar set-up agrees with the compositions (R592). -/
def Image.sagsAgree (im : Image) (node : Nat) : Bool :=
  let r := im.sagRec node
  (im.covering node).all (fun c => decide (c.scope ≠ 2) || (recExists (r c.saggar) && decide (recComp (r c.saggar) = c.comp)))
    && (im.saggars node).all (fun g => (im.ofType tyCOMPOSITION).any (fun c =>
        c.comp = recComp (r g) && (compMembers c.bytes).contains node))
    && (im.ofType tyCOMPOSITION).all (fun c => !(compMembers c.bytes).contains node
        || (im.saggars node).any (fun g => recComp (r g) = c.comp))

/-- Bodies of saggar sections: programs, expert maps, RPT tables (R348, R467, R468). -/
def Image.sagBodiesOk (im : Image) (node : Nat) : Bool :=
  (im.covering node).all (fun c =>
    let b := c.bytes
    if c.ty = tyPROGRAM then
      (le b 0 4 = 0x4D525054) && decide (le b 12 4 + le b 16 4 ≤ 220 * 1024) && (b.length = 32 + le b 12 4 + le b 16 4)
    else if c.ty = tyEXPERTMAP then
      let l := expLayers b
      let e := expPerLayer b
      decide (1 ≤ l ∧ l ≤ 256 ∧ 1 ≤ e ∧ e ≤ 4096) && (b.length = 16 + 16 * l * e)
        && (List.range l).all (fun i => let x := expertEntry b i 0
          (List.range e).all (fun j => let y := expertEntry b i j
            decide (y.cutFrac = x.cutFrac ∧ y.bcloseFrac = x.bcloseFrac ∧ y.maxexpA = x.maxexpA)))
    else if c.ty = tyRPT then
      (List.range 0xFF0).all (fun i => !rptValid (rptEntry b i) || recTrimmer (im.sagRec node c.saggar) (rptTrimmer (rptEntry b i)))
    else true)

/-- A record takes over a region that waits here for its lost home: the descriptor is that region's but for `HOME`
(R537). -/
def Region.takenOver (r : Region) (d : List Byte) (node : Nat) : Bool :=
  r.awaitsHome && decide (({ r with home := node, version := 0, conf := false, contentDigest := zeros 32 } : Region).desc = d)

/-- The records of the `REGIONS` sections (R594): `HOME` and `COMP_ID` of each; of this chip's own, what
`REGION_CREATE` would check, against the regions that exist and each other. `t` is the state with the
image's configuration in force. -/
def State.regionsOk (s t : State) (im : Image) (node : Nat) : Bool :=
  let secs := (im.covering node).filter (fun c => c.ty = tyREGIONS)
  let own := secs.flatMap (fun c => (homedRecords c node).map (fun r => (c.saggar, sub r 0 128)))
  let kept := fun (d : List Byte) => match afind s.tie.regions (regionOfDesc d).id with
    | some r => decide (r.saggar = (regionOfDesc d).saggar ∧
        ({ r with version := 0, conf := false, contentDigest := zeros 32 } : Region).desc = d)
        || (r.takenOver d node && !s.tie.regions.any (fun p => p.1 ≠ r.id && p.2.home = node && overlaps p.2 (regionOfDesc d)))
    | none => false
  let fresh := own.filter (fun x => !kept x.2)
  secs.all (fun c => (List.range (c.bytes.length / 144)).all (fun i =>
    let r := regionOfDesc (sub c.bytes (144 * i) 144)
    decide (r.comp = c.comp ∧ r.saggar = c.saggar) && (compMembers (im.bodyOf tyCOMPOSITION 0 0 c.comp)).contains r.home))
    && fresh.all (fun x => (t.createRefusal (regionOfDesc x.2) x.2 x.1 node).isNone)
    && distinct (own.map (fun x => (regionOfDesc x.2).id))
    && fresh.all (fun x => fresh.all (fun y => decide (x.2 = y.2) || !overlaps (regionOfDesc x.2) (regionOfDesc y.2)))

/-- A saggar set confidential owns no region, has no codec, Gather or Sieve section and no CXL LD, and is not
saggar 0 (R491). -/
def State.confOk (s : State) (im : Image) (node : Nat) : Bool :=
  (List.range 64).all (fun g =>
    let r := im.sagRec node g
    !recConf r ||
      (decide (g ≠ 0) && !(im.covering node).any (fun c => c.saggar = g && (c.ty = tyCODEC || c.ty = tyGATHER || c.ty = tySIEVE))
        && !(ldRecs (im.bodyOf tyPORTS node 0 0)).any (fun l => l.saggar = g)
        && (s.sagConf g || !(s.tie.regions.any (fun p => p.2.saggar = g) || s.flm.saved.any (fun x => x.saggar = g)))))

/-- The `PROTECTION` body (R505): two authorities, an operator, no repeated key, a record with a tenant slot
of its mask for every confidential saggar. -/
def Image.protectionOk (im : Image) (node : Nat) : Bool :=
  let b := im.bodyOf tyPROTECTION 0 0 0
  let ks := keySlots b
  let rs := protRecs b
  (im.ofType tyPROTECTION).all (fun c => c.body.isNone ||
    (decide (3 ≤ ks.length) && (b.length = 8 + 1816 * ks.length + 8 * rs.length)
      && decide (2 ≤ countIf ks (fun k => k.role = 3)) && decide (1 ≤ countIf ks (fun k => k.role = 1))
      && ks.all (fun k => decide (1 ≤ k.role ∧ k.role ≤ 3)) && distinct (ks.map (·.key)) && distinct (rs.map (·.1))
      && rs.all (fun r => decide (1 ≤ r.2.2.2) && (match ks[r.2.1]? with
          | some k => k.role = 2 && bit k.mask r.1
          | none => false))))
    && (List.range 64).all (fun g => !recConf (im.sagRec node g) || rs.any (fun r => r.1 = g))

/-- Cause 0x9: every value in range, nothing over-committed, everything consistent. -/
def State.valuesOk (s t : State) (im : Image) (node : Nat) : Bool :=
  im.paramLists.all (fun p => paramsInRange p.1 p.2) && im.paramsAgree node && im.noOverCommit node && im.sagsAgree node
    && im.sagBodiesOk node && s.regionsOk t im node && s.confOk im node && im.protectionOk node
    && (decide (s.nodeParam 0x0210 = paramIn (im.bodyOf tyNODEPARAMS node 0 0) 0x0210) || s.img.st = 0
        || !s.flm.map.any (fun p => p.2.pun.isSome))

/-! ## The checks in order (R469) -/

/-- The version of the arithmetic contract every saggar names is offered (R33). -/
def State.acvOk (s : State) (im : Image) (node : Nat) : Bool :=
  let top := bits s.variant.devId 8 8
  decide (1 ≤ im.acv ∧ im.acv ≤ top) && (List.range 64).all (fun g => decide (recAcv (im.sagRec node g) ≤ top))

/-- Where an image comes from: the Jaesque link, the claim session with its key's digest (R503), or the
stored copy (R471). -/
inductive ImageSource where
  | bulk
  | claim (keyDigest : List Byte)
  | stored
  deriving DecidableEq, Repr

/-- The state with an image's configuration in force, for checks that read it. -/
def State.withImage (s : State) (im : Image) (node : Nat) : State :=
  { s with
    img := { s.img with cur := im, atStep := [] }
    fab := { s.fab with node := node } }

/-- The first failing check of R469 for a parsed image: cause and status; none where it may be applied or staged. -/
def State.refusalOf (s : State) (im0 : Image) (form : Bool) (src : ImageSource) : Option (Nat × Status) :=
  let node := if s.img.st = 0 then im0.sliceNode else s.fab.node
  let part := decide (im0.kind = 1 ∧ src ≠ .stored)
  let im := resolve im0 (if part then s.img.cur else {})
  let own := keySlots (im.bodyOf tyPROTECTION 0 0 0)
  let sigsOk := match src with
    | .claim kd => signaturesOk own im {} && own.any (fun k => k.role = 1 && digest k.key = kd)
    | _ => signaturesOk s.sec.enrolled im s.img.cur
  let serial := s.sec.arb.getD 0 0
  if !form || !im0.bodyForm then some (1, .denied)
  else if im0.sections.any (fun c => match c.body with | some b => decide (digest b ≠ c.dig) | none => false) then some (2, .denied)
  else if !(nodeRecs (im.bodyOf tyNODES 0 0 0)).any (fun r => r.1 = node && r.2.1 = s.variant.code)
      || !bit im.targets (s.variant.code - 1) then some (3, .denied)
  else if s.namesAbsent im node then some (4, .unitAbsent)
  else if !s.acvOk im node then some (5, .denied)
  else if !sigsOk then some (6, .denied)
  else if (if src = .stored then im.serial < serial else im.serial ≤ serial) then some (7, .denied)
  else if (im.covering node).any (fun c => c.body.isNone) then some (8, .denied)
  else if !s.valuesOk (s.withImage im node) im node then some (9, .denied)
  else if part ∧ (im.baseDigest ≠ s.img.dig ∨ s.img.st = 0) then some (10, .denied)
  else if s.arch.cp = .restart ∨ s.img.st = 3 then some (11, .nackRetry)
  else none

/-- The first failing check of R469 for an image file. -/
def State.imageRefusal (s : State) (file : List Byte) (src : ImageSource) : Option (Nat × Status) :=
  let p := parseImage file
  s.refusalOf p.1 p.2 src

end Sys2Proof.Machine
end

