-- ==== Sys2Proof/Machine/Apply.lean ====
section
/-! DEFINITION. Applying an image (R471 to R474, R484 to R486, R491, R492, R594): what each section changes
when it takes effect, at power-on or at a commit. -/

namespace Sys2Proof.Machine

/-- Whether a node's section of a type differs between two images. -/
def sectionChanged (old im : Image) (ty node g comp : Nat) : Bool :=
  (old.find ty node g comp).map (·.dig) ≠ (im.find ty node g comp).map (·.dig)

def word32 (n : Nat) : Word32 := BitVec.ofNat 32 n

/-! ## Saggars that end or change (R484, R486, R491, R492) -/

/-- A saggar's regions are deleted, those kept in the flash too; T4 frames of a confidential saggar go by secure
discard (R204, R240). -/
def deleteRegionsOf (g : Nat) (s : State) : State :=
  let mine := (s.tie.regions.filter (fun p => p.2.saggar = g)).map (·.1)
  let kept := s.flm.savedFrames.filter (fun p => p.2.saggar = g)
  modFlm (fun m => { m with
    saved := m.saved.filter (fun r => r.saggar ≠ g)
    savedFrames := m.savedFrames.filter (fun p => p.2.saggar ≠ g)
    trims := m.trims ++ kept.map (fun p => (4 * p.2.index, p.2.conf)) }) (forEach mine deleteRegion s)

/-- The arrays, Trimmers and shelf granules of a saggar are zeroed (R70, R122, R484). -/
def zeroUnitsOf (g : Nat) (s : State) : State :=
  let s := forEach ((List.range 1536).filter (recArray (s.sagRec g))) zeroArray s
  let s := forEach (s.trimmersOf g) loadProgram s
  dropStaged g (clearShelf g s)

/-- A saggar that no longer exists leaves nothing behind but its records: those that wait for the ring wait on
(R153). -/
def forgetSaggar (g : Nat) (s : State) : State :=
  { s with
    jsl := { s.jsl with late := s.jsl.late ++ (s.sitOf g).waiting.map (fun w => { saggar := g, step := w.1, isSeal := w.2.1, bytes := w.2.2 }) }
    sit := aerase s.sit g
    sag := aerase s.sag g
    cdc := { s.cdc with tables := s.cdc.tables.filter (fun p => p.1.1 ≠ g) }
    siv := { s.siv with index := s.siv.index.filter (fun p => p.1.1 ≠ g) }
    arrs := { s.arrs with pins := s.arrs.pins.filter (fun p => p.1.1 ≠ g) } }

/-- A saggar enters confidential mode: its units are zeroed, its data key drawn, no weight key held (R491). -/
def enterConf (g : Nat) (s : State) : State :=
  match drawRandom 64 (zeroUnitsOf g s) with
  | (k, s) => { s with sag := amod s.sag g {} (fun x => { x with dataKey := some k, key := 0, weightKey := none }) }

/-- It leaves the mode: keys and attestation go (R492); a key load in progress then fails. -/
def leaveConf (g : Nat) (s : State) : State :=
  let s := zeroUnitsOf g s
  { s with sag := amod s.sag g {} (fun x => { loading := x.loading }) }

/-! ## Registers the image sets -/

/-- Ports: `OFF` where the role is 0; one whose role changes goes down and trains again in its new role (R412); the
registers of R411 and R396 from the port record. `was` holds the roles up to now. -/
def applyPorts (was : Nat → Nat) (b : List Byte) (s : State) : State :=
  let s := forEach (List.range 64) (fun p s =>
    let role := portRole (portRec b p)
    let off := role = 0
    if (s.port p).lst = 4 ∧ (off ∨ was p ≠ role) then leaveUp p (if off then 5 else 0) s
    else if was p ≠ role ∧ ¬ off then modPort p (fun x => { x with
      lst := 0
      deadline := none
      retryAt := none
      cxlUp := false }) s
    else modPort p (fun x => { x with
      lst := if off then 5 else if x.lst = 5 then 0 else x.lst
      deadline := if off then none else x.deadline
      retryAt := if off then none else x.retryAt }) s) s
  { s with swc := { s.swc with port := (List.range 64).map (fun p =>
      let r := portRec b p
      (p, word32 (portDim r + b2n (portDateline r) * 4 + b2n (portDweah r) * 8))) } }

/-- Traffic registers by port and class (R465). -/
def applyQos (b : List Byte) (s : State) : State :=
  let reg := fun (off : Nat) => (List.range 512).map (fun k => (k, word32 (le b (32 * k + off) 4)))
  { s with swc := { s.swc with
    pq := reg 0
    shape := reg 4
    burst := reg 8 } }

/-- Saggar quanta, shapers and quotas (R466). -/
def applySagMap (b : List Byte) (s : State) : State :=
  let rec_ := fun (g : Nat) => Machine.sagRec b g
  let s := { s with swc := { s.swc with
    sagQ := (List.range 64).map (fun g => (g, word32 (le (rec_ g) 16 4)))
    sagShape := (List.range 64).map (fun g => (g, word32 (recShape (rec_ g))))
    sagBurst := (List.range 64).map (fun g => (g, word32 (recShapeBurst (rec_ g))))
    quota := (List.range 64).map (fun g => (g, recSwcQuota (rec_ g))) } }
  forEach (List.range 64) quotaRelease s

/-- The tier thresholds of a saggar (R210). -/
def applyThresholds (g : Nat) (s : State) : State :=
  { s with tie := { s.tie with
    th23 := aset s.tie.th23 g (s.sagParam g 0x030D, s.sagParam g 0x030E)
    th34 := aset s.tie.th34 g (s.sagParam g 0x030F, s.sagParam g 0x0310) } }

/-- Regions the image lists for this home and that do not exist are created empty (R594); one that waited here for
its lost home is served from here on (R537). -/
def applyRegions (im : Image) (s : State) : State :=
  forEach ((im.covering s.fab.node).filter (fun c => c.ty = tyREGIONS)) (fun c s =>
    forEach (homedRecords c s.fab.node) (fun r s =>
      let x := regionOfDesc (sub r 0 128)
      if (match afind s.tie.regions x.id with | some y => y.takenOver (sub r 0 128) s.fab.node | none => false) then
        modRegion x.id (fun y => { y with home := s.fab.node, awaitsHome := false }) s
      else if ahas s.tie.regions x.id || s.flm.saved.any (fun y => y.id = x.id) then s
      else createRegion x (le r 128 2) s) s) s

/-- Codec tables the image lists are bound (R258). -/
def applyCodec (im : Image) (s : State) : State :=
  forEach ((im.covering s.fab.node).filter (fun c => c.ty = tyCODEC)) (fun c s =>
    forEach (List.range (c.bytes.length / 16)) (fun i s =>
      let id := le c.bytes (16 * i) 2
      let rg := le c.bytes (16 * i + 4) 4
      let pg := le c.bytes (16 * i + 8) 4
      let t := s.cdcTable c.saggar id
      if t.bound && t.region = rg && t.page = pg then s else (bindTable c.saggar id rg pg s).2) s) s

/-- T3 is in service: power-on step 7 is complete. -/
def State.t3Up (s : State) : Bool := s.pkg.stepsDone.contains 7

/-- Regions are created and tables bound at once where T3 is in service; else they wait for it (R586). -/
def createOrWait (im : Image) (s : State) : State :=
  if s.t3Up then applyCodec im (applyRegions im s)
  else
    let rs := ((im.covering s.fab.node).filter (fun c => c.ty = tyREGIONS)).flatMap (fun c =>
      (homedRecords c s.fab.node).map (fun r => regionOfDesc (sub r 0 128)))
    { s with tie := { s.tie with
        dueImage := true
        due := rs.filter (fun x => !ahas s.tie.regions x.id && !s.flm.saved.any (fun y => y.id = x.id)) } }

/-- T3 enters service: what waited for it is created and bound. -/
def enterT3 (s : State) : State :=
  if s.tie.dueImage && decide (s.pkg.st = 4) && s.stepWorkDone 7 then
    let s := { s with tie := { s.tie with
      dueImage := false
      due := [] } }
    applyCodec s.img.cur (applyRegions s.img.cur s)
  else s

/-- Domain slots: one for each domain of which this chip is a member (R369). -/
def applyDomains (im : Image) (s : State) : State :=
  let ds := ((im.ofType tyDOMAINS).flatMap (fun c => domainRecs c.bytes 256)).filter (fun d => d.members.contains s.fab.node)
  let s := { s with coh := { s.coh with slots := s.coh.slots.filter (fun q => ds.any (fun d => d.id = q.2.domain)) } }
  forEach ds (fun d s =>
    let m := d.members.idxOf s.fab.node
    match s.domSlot? d.id with
    | some (n, x) => setSlot n { x with member := m } s
    | none =>
      match (List.range 256).find? (fun n => !ahas s.coh.slots n) with
      | some n => setSlot n { st := 1, member := m, domain := d.id } s
      | none => s) s

/-- Protection: the enrolled keys, debug and TAP (R497, R503, R505). -/
def applyProtection (im : Image) (s : State) : State :=
  let b := im.bodyOf tyPROTECTION 0 0 0
  let w := le b 0 8
  { s with sec := { s.sec with
    enrolled := keySlots b
    debugOn := !s.confAny && decide (bits w 16 3 ≠ 0)
    tapFull := !s.confAny && bit w 19 } }

/-! ## Taking effect -/

/-- The bodies that stay in effect until a running saggar's next step boundary (R474). -/
def heldBodies (old im : Image) (node : Nat) (s : State) : Assoc (Nat × Nat) (List Byte) :=
  ((List.range 64).filter (fun g => g ≠ 0 && s.runsSteps g)).foldl (fun m g =>
    [tyPROGRAM, tySTEPPLAN, tyEXPERTMAP, tySAGPARAMS].foldl (fun m ty =>
      let c := recComp (im.sagRec node g)
      if sectionChanged old im ty node g c && !ahas m (g, ty) then aset m (g, ty) (s.sagBody ty g) else m) m) s.img.atStep

/-- The image takes effect: its bodies come into force, saggars end, begin or change mode, units that change
hands are zeroed, registers are set, regions created, tables bound and roles taken. -/
def install (im : Image) (full : Bool) (s : State) : State :=
  let node := if full then im.sliceNode else s.fab.node
  let old := s.img.cur
  let was := fun (g : Nat) => s.sagRec g
  let now_ := fun (g : Nat) => im.sagRec node g
  let gs := (List.range 64).filter (· ≠ 0)
  let ended := gs.filter (fun g => recExists (was g) && !recExists (now_ g))
  let left := gs.filter (fun g => recExists (now_ g) && recConf (was g) && !recConf (now_ g))
  let entered := gs.filter (fun g => recExists (now_ g) && recConf (now_ g) && !recConf (was g))
  let acv := gs.filter (fun g => recExists (was g) && decide ((if recAcv (was g) = 0 then old.acv else recAcv (was g))
      ≠ (if recAcv (now_ g) = 0 then im.acv else recAcv (now_ g))))
  let owner := fun (has : List Byte → Nat → Bool) (r : Nat → List Byte) (i : Nat) => (List.range 64).find? (fun g => has (r g) i)
  let arrays := (List.range s.variant.arrays).filter (fun a => (owner recArray was a).isSome && owner recArray was a ≠ owner recArray now_ a)
  let trims := (List.range s.variant.trimmers).filter (fun t => full || owner recTrimmer was t ≠ owner recTrimmer now_ t)
  let shelves := (List.range 64).filter (fun g => (List.range 4).any (fun d => decide (recShelfMib (was g) d ≠ recShelfMib (now_ g) d)))
  let swaps := gs.filter (fun g => !full && recExists (now_ g) && recExists (was g) && !s.runsSteps g
      && sectionChanged old im tyPROGRAM node g (recComp (now_ g)))
  let roles := fun (s : State) (g : Nat) => (s.sagComp g, s.compParam (s.sagComp g) 0x0105, s.compParam (s.sagComp g) 0x0106)
  let wasRoles := gs.map (fun g => (g, roles s g))
  let plans := gs.filter (fun g => !s.runsSteps g && (sectionChanged old im tySTEPPLAN node g (recComp (now_ g))
      || sectionChanged old im tyEXPERTMAP node g (recComp (now_ g))))
  let changed := fun (ty : Nat) => full || sectionChanged old im ty node 0 0
  -- R486, R492, R154: what ends, ends under the old image
  let s := forEach (ended ++ acv).eraseDups sealGroup s
  let s := forEach (ended ++ left) deleteRegionsOf s
  let s := forEach left leaveConf s
  -- the new image in force
  let held := if full then [] else heldBodies old im node s
  let s := { s with
    img := { s.img with
      cur := im
      dig := im.imgDigest
      atStep := held }
    fab := { s.fab with node := node }
    wd := { s.wd with node := node } }
  let s := forEach ended forgetSaggar s
  let s := forEach arrays zeroArray s
  let s := forEach (trims.filter (fun t => (s.trmOf t).mode ≠ 0 && !(s.trmOf t).fence.on)) loadProgram s
  let s := forEach shelves (fun g s =>
    dropStaged g (clearShelf g { s with arrs := { s.arrs with pins := s.arrs.pins.filter (fun p => p.1.1 ≠ g) } })) s
  let s := forEach entered enterConf s
  let s := when_ (changed tyPORTS) (applyPorts (fun p => portRole (portRec (old.bodyOf tyPORTS node 0 0) p)) (s.nodeBody tyPORTS)) s
  let s := when_ (changed tyQOS) (applyQos (s.nodeBody tyQOS)) s
  let s := when_ (changed tySAGMAP) (applySagMap (s.nodeBody tySAGMAP)) s
  let s := applyProtection im s
  let s := applyDomains im s
  let s := createOrWait im s
  let mine := gs.filter s.sagExists
  let s := forEach (mine.filter (fun g => full || sectionChanged old im tySAGPARAMS node g (recComp (now_ g)))) applyThresholds s
  let s := forEach (mine.filter (fun g => full || (s.sitOf g).leader.isNone || afind wasRoles g ≠ some (roles s g))) initRoles s
  let s := forEach plans dropStaged s
  let s := forEach mine stageBisque s
  let s := forEach swaps beginSwap s
  -- R504: the serial's counter is raised with the change; R496: measured items have changed
  measuredChange (raiseArb 0 im.serial s)

/-- A section of a type as WD is given it, where it is new or changed (R520). -/
def witnessChanges (im old : Image) : List WitnessChange :=
  let h := sub im.header 0 64
  let item := fun (ty : Nat) => match im.find ty 0 0 0 with
    | some c => if sectionChanged old im ty 0 0 0 then c.body else none
    | none => none
  (match item tyPROTECTION with | some b => [WitnessChange.protection h im.dirBytes b im.sigs] | none => [])
    ++ (match item tyWITNESS with | some b => [WitnessChange.params h im.dirBytes b im.sigs] | none => [])

/-- Forward the changes of an image to WD. -/
def forwardChanges (l : List WitnessChange) (s : State) : State := forEach l (fun c s => emit (.toWd c) s) s

/-- Apply a full image at power-on (R471): its epoch is current, none is previous, and the coordinator's roles
are those it names (R476). A claim writes the ownership record and raises counter 5 (R503). -/
def applyFull (im : Image) (src : ImageSource) (s : State) : State :=
  let s := install im true s
  let coord := s.sysParam 0x0001
  let me := decide (coord = s.fab.node)
  let s := { s with img := { s.img with
    st := 2
    epoch := im.epoch
    prevEpoch := none
    prev := {}
    coord := coord
    standby := s.sysParam 0x0002
    isCoord := me
    aliveDeadline := if me then some (s.now + cclk (2 ^ 24)) else none
    coordHeard := s.now
    standbyHeard := s.now } }
  match src with
  | .claim _ => forwardChanges (witnessChanges im {}) (raiseArb 5 (s.sec.arb.getD 5 0 + 1) { s with sec := { s.sec with claimed := true } })
  | .bulk => forwardChanges (witnessChanges im {}) s
  | .stored => s

end Sys2Proof.Machine
end

