-- ==== Sys2Proof/Machine/Epochs.lean ====
section
/-! DEFINITION. Composition epochs (R475 to R478, R535, R537): what a commit changes on a chip, the exchange
with the coordinator, the drain of the previous epoch, and the coordinator's own work. -/

namespace Sys2Proof.Machine

def setImg (f : Img → Img) (s : State) : State := { s with img := f s.img }
def setErc (f : Erc → Erc) (s : State) : State := { s with erc := f s.erc }

/-! ## Aliases (R537, R543) -/

/-- A region of a lost home as its alias serves it, from its directory record: a sealed one from the copy here, its
other pages to be refetched; an unsealed one not at all; any other with every grain poisoned, its versions, views
and owner restored, or, where its policy names T4 and it is no KV region, once its home is back (R537). -/
def aliasRegion (r : Region) (copy : Option Region) : Option Region :=
  let all := List.range r.pages
  if r.immutable then
    if !r.sealed_ then none else
    let c := copy.getD { r with versions := [] }
    some { c with versions := [(1, { pages := c.working, lost := c.lostPages })], holders := c.holders.filter (· ≠ r.home) }
  else some { r with
    lostPages := all
    versions := r.versions.map (fun v => (v.1, { v.2 with lost := all }))
    awaitsHome := decide (r.kind ≠ 2) && (polTiers r.tierPol).contains 4 }

/-- The replica partner takes a lost chip's node ID as an alias, where it holds its directory. -/
def takeAlias (n : Nat) (s : State) : State :=
  if !ahas s.erc.dirReplica n || s.erc.aliases.any (fun a => a.valid && a.node = n) then s else
  match (List.range 8).find? (fun i => !(s.erc.aliases.getD i {}).valid) with
  | none => s
  | some i =>
    let s := setErc (fun e => { e with aliases := e.aliases.set i { valid := true, node := n } }) s
    forEach (aget s.erc.dirReplica n []) (fun x s =>
      match x.2.region with
      | some (r, false) =>
        (match aliasRegion r (afind s.tie.regions r.id) with
         | some a => if ahas s.tie.regions a.id && !a.immutable then s else { s with tie := { s.tie with regions := aset s.tie.regions a.id a } }
         | none => s)
      | _ => s) s

/-- An alias ends with the fence of its node: its regions are at their home again, of the sealed ones the copies
stay. -/
def dropAlias (n : Nat) (s : State) : State :=
  let s := setErc (fun e => { e with aliases := e.aliases.map (fun a => if a.valid && a.node = n then {} else a) }) s
  forEach ((s.tie.regions.filter (fun p => p.2.home = n)).map (·.1)) (fun id s =>
    if (s.region id).immutable then modRegion id (fun r => { r with versions := [], moves := [], holders := [n] }) s
    else deleteRegion id s) s

/-- Nodes served as aliases. -/
def State.aliasNodes (s : State) : List Nat := (s.erc.aliases.filter (·.valid)).map (·.node)

/-- Handback (R543): the alias moves each region back with class 1 jobs: its record, then its working pages, then the
pages of versions that are not working pages. -/
def startHandback (fences : List Nat) (s : State) : State :=
  let back := s.aliasNodes.filter (fun n => !fences.contains n)
  let s := setErc (fun e => { e with aliases := e.aliases.map (fun a =>
    if a.valid && back.contains a.node then { a with handback := true } else a) }) s
  forEach (s.tie.regions.filter (fun p => back.contains p.2.home && !p.2.awaitsHome)) (fun p s =>
    let own := fun (v : Nat × Version) => (v.2.pages.filter (fun q => q.2 ≠ aget p.2.working q.1 [])).map (·.1)
    let s := copyJobs 1 p.2 none p.2.home (sendRecord p.2.home p.2 false s)
    if p.2.immutable then s else
    forEach p.2.versions (fun v s => forEach (runsOf (own v)) (fun run s => enqueueMove
      { cls := 1, region := p.1, page := run.1, count := run.2, ver := some v.1, toTier := 3, toNode := some p.2.home, saggar := p.2.saggar } s) s) s) s

/-- An abandoned admission: the alias is served on, and holds are lifted (R543). -/
def stopHandback (s : State) : State :=
  let back := (s.erc.aliases.filter (fun a => a.valid && a.handback)).map (·.node)
  let s := setErc (fun e => { e with aliases := e.aliases.map (fun a => { a with handback := false }) }) s
  let goes := fun (j : MoverJob) => j.cls = 1 && (match j.toNode with | some n => back.contains n | none => false)
  { s with tie := { s.tie with
      queue := s.tie.queue.filter (fun j => !goes j)
      movers := s.tie.movers.filter (fun m => !goes m.2.job)
      regions := s.tie.regions.map (fun q => (q.1, { q.2 with moves := q.2.moves.filter (fun m => m.node.isNone) })) } }

/-! ## The commit on a chip (R475 order 4) -/

/-- Whether the staged image is the one the next epoch carries. -/
def State.shadowCommits (s : State) : Bool :=
  match s.img.shadow with
  | some im => s.img.prepared.isNone || (s.img.prepDigest = im.imgDigest)
  | none => false

/-- The shadows become current: the old epoch is the previous one, the fence list and a staged image take
effect, and everything that waited for the epoch goes on. -/
def commitEpoch (s : State) : State :=
  let oldFences := s.img.fences
  let oldImage := s.img.cur
  let oldEpoch := s.img.epoch
  let takes := s.shadowCommits
  let s := setImg (fun m => { m with preparing := none }) s
  let s := match takes, s.img.shadow with
    | true, some im => install im false s
    | _, _ => s
  let s := setImg (fun m => { m with
    prev := oldImage
    prevEpoch := some oldEpoch
    epoch := (oldEpoch + 1) % 65536
    fences := if m.prepared.isSome then m.preparedFences else m.fences
    st := if takes then 2 else m.st
    shadow := if takes then none else m.shadow
    prepared := none
    prepDigest := []
    readySent := false
    commitHeld := none
    preparedFences := []
    quietDeadline := none }) s
  let s := if takes then { s with wit := { s.wit with awaiting := 0, refused := false } } else s
  let s := bumpCtr ctrImgCommits 1 s
  -- R535: fences of compositions and domains lift with the lost chips in the fence list
  let gone := s.erc.lost.contains s.fab.node && s.img.fences.contains s.fab.node
  let still := s.erc.lost.filter (fun n => !s.img.fences.contains n)
  let s := { s with
    erc := { s.erc with lost := still }
    coh := { s.coh with compFences := s.coh.compFences.filter (fun c => (s.members c).any still.contains) } }
  let s := domainsUp s
  let s := forEach (s.img.fences.filter (fun n => !oldFences.contains n)) takeAlias s
  let s := forEach (s.aliasNodes.filter (fun n => !s.img.fences.contains n)) dropAlias s
  let s := if s.erc.admission = 4 ∧ !s.img.fences.contains s.fab.node = true then handedBack (setErc (fun e => { e with admission := 5 }) s)
    else if gone && (s.erc.admission = 3 || s.erc.admission = 4) then setErc (fun e => { e with admission := 2 }) s else s
  let s := retargetTrimmers s
  let s := if s.img.fences.contains s.fab.node then dropAttention s else s
  let s := sitterEpoch oldFences s
  let s := resendHeld s
  if s.img.isCoord then
    setErc (fun e => { e with joins := e.joins.filter (fun n => s.img.fences.contains n) })
      (setImg (fun m => { m with
        preparing := none
        stageDeadline := none
        readyFrom := []
        drainedFrom := []
        nextFences := m.nextFences.filter (fun n => !m.fences.contains n)
        forceDeadline := some (s.now + sclk (2 ^ s.sysParam 0x0004)) }) s)
  else s

/-- The previous epoch is closed here. -/
def closePrev (s : State) : State := setImg (fun m => { m with prevEpoch := none, prev := {}, quietDeadline := none }) s

/-! ## READY (R475 order 2) -/

/-- The frames of each saggar fit what the staged image leaves it (R484). -/
def State.granulesFit (s : State) : Bool :=
  match s.img.shadow with
  | none => true
  | some im =>
    let t := s.withImage im s.fab.node
    (List.range 64).all (fun g =>
      let gone := s.sagExists g && !t.sagExists g
      let exits := s.sagConf g && !t.sagConf g
      gone || exits || [2, 3, 4].all (fun k => decide (s.framesOf k g ≤ max (t.assigned k g) (if g = 0 then s.framesOf k g else 0))))

/-- Whether `READY` can go out: the control cores run, the digest is the one in force or that of the staged
image, WD has taken its changes, frames fit, and a chip being admitted has finished its load. -/
def State.canReady (s : State) : Bool :=
  decide (s.arch.cp ≠ .restart) && !s.wit.refused && decide (s.wit.awaiting = 0) && decide (s.erc.admission ≠ 3)
    && (decide (s.img.prepDigest = s.img.dig) || (s.img.shadow.map Image.imgDigest = some s.img.prepDigest))
    && s.granulesFit

/-- `READY` to the coordinator, once per preparation. -/
def trySendReady (s : State) : State :=
  match s.img.prepared with
  | some e =>
    if s.img.readySent || !s.canReady then s else
    let s := setImg (fun m => { m with readySent := true }) s
    if s.img.coord = s.fab.node then
      setImg (fun m => { m with readyFrom := if m.readyFrom.contains s.fab.node then m.readyFrom else m.readyFrom ++ [s.fab.node] }) s
    else sendCtrl s.img.coord (.ready e) s
  | none => s

/-- A preparation on this chip: the shadows are written. -/
def prepareHere (e : Nat) (dig : List Byte) (fences : List Nat) (s : State) : State :=
  startHandback fences (setImg (fun m => { m with
    prepared := some e
    prepDigest := dig
    preparedFences := fences
    readySent := false }) s)

/-! ## The coordinator (R475, R476) -/

/-- A change waits for an epoch: a staged image, a loss or fence, an admission, a domain re-forming. -/
def State.changeWaits (s : State) : Bool :=
  s.img.st = 3 || !s.img.nextFences.isEmpty || !s.erc.joins.isEmpty || s.coh.slots.any (fun q => q.2.st = 3)

/-- `PREPARE` to every Plofen, once the previous epoch has drained everywhere or been closed. -/
def tryPrepare (s : State) : State :=
  if s.img.isCoord && s.arch.cp ≠ .restart && !s.img.queryOwed && s.img.preparing.isNone && s.img.prevEpoch.isNone
      && s.img.forceDeadline.isNone && s.changeWaits then
    let e := (s.img.epoch + 1) % 65536
    let fences := ((s.img.fences ++ s.img.nextFences).eraseDups).filter (fun n => !s.erc.joins.contains n)
    let dig := match s.img.st, s.img.shadow with | 3, some im => im.imgDigest | _, _ => s.img.dig
    let s := setImg (fun m => { m with
      preparing := some e
      readyFrom := if fences = m.fences then m.readyFrom else []
      stageDeadline := some (s.now + sclk (2 ^ s.sysParam 0x0005)) }) s
    prepareHere e dig fences (sendCtrlAll s.plofens (.prepare e dig fences) s)
  else s

/-- The Plofens whose `READY` a commit needs. -/
def State.reachable (s : State) : List Nat :=
  s.plofens.filter (fun n => !s.img.preparedFences.contains n && !s.erc.lost.contains n)

/-- `COMMIT` to every Plofen once every reachable one is ready. -/
def tryCommit (s : State) : State :=
  match s.img.preparing with
  | some e =>
    if s.img.isCoord && s.arch.cp ≠ .restart && !s.img.queryOwed && s.reachable.all s.img.readyFrom.contains && s.img.prepared = some e then
      commitEpoch (sendCtrlAll s.plofens (.commit e) s)
    else s
  | none => s

/-- What the control plane does next about epochs. -/
def epochWork (s : State) : State := tryCommit (trySendReady (tryPrepare s))

/-- The meaning of `PAGE_MOVE_PASS_DONE`: a chip that withheld `READY` may now send it (R484). -/
def execPageMovePassDone (region page : Nat) (s : State) : Host.Outcome State Fault Refusal :=
  run (decide (region < 2 ^ 32) && decide (page < 2 ^ 31)) (epochWork (movePass region page s))

/-- The meaning of `MOVER_JOB_COMPLETE`, likewise. -/
def execMoverJobComplete (m : Nat) (s : State) : Host.Outcome State Fault Refusal :=
  run (decide (m < 32)) (epochWork (moverComplete m s))

/-- Messages of the exchange are taken from the recorded coordinator only; another sender is answered with
the coordinator's node (R476). -/
def fromCoord (src : Nat) (f : State → State) (s : State) : State :=
  if src = s.img.coord then f (heardFrom src s) else sendCtrl src (.deniedCoord s.img.coord) (heardFrom src s)

/-! ## BULK images (R469, R471, R472) -/

/-- Pages beyond what the staged image leaves a saggar in HBM and DRAM are moved down (R484). -/
def moveExcess (s : State) : State :=
  match s.img.shadow with
  | none => s
  | some im =>
    let t := s.withImage im s.fab.node
    forEach ((List.range 64).flatMap (fun g => [(g, 2), (g, 3)])) (fun x s =>
      if x.1 = 0 || !t.sagExists x.1 || (s.sagConf x.1 && !t.sagConf x.1) then s else
      forEach ((s.demotable x.2 x.1).take (s.framesOf x.2 x.1 - t.assigned x.2 x.1)) (fun d s =>
        enqueueMove { cls := 4, region := d.1, page := d.2.1, toTier := x.2 + 1, saggar := x.1 } s) s) s

/-- A partial image that passes is staged: its changes go to WD, and the epoch that carries it is prepared here
unless one is. -/
def stageImage (im : Image) (s : State) : State :=
  let ch := witnessChanges im s.img.cur
  let s := setImg (fun m => { m with
    shadow := some im
    st := 3
    prepared := match m.prepared with | some e => some e | none => some ((m.epoch + 1) % 65536)
    prepDigest := if m.prepared.isNone then im.imgDigest else m.prepDigest
    preparedFences := if m.prepared.isNone then m.fences else m.preparedFences
    readySent := m.prepared.isSome && m.readySent }) s
  let s := forwardChanges ch { s with wit := { s.wit with awaiting := s.wit.awaiting + ch.length, refused := false } }
  epochWork (moveExcess s)

/-- An image is refused: the cause, the count and the event (R469). -/
def refuseImage (cause serial : Nat) (s : State) : State :=
  logEvent 0x0802 0 none [cause, serial] (bumpSat satImgRefused (setImg (fun m => { m with cause := cause }) s))

/-- An image its sender may not give: `UNIT_ABSENT` where it also names an absent unit (R10), else `DENIED`. -/
def imageDenied (file : List Byte) (s : State) : Status × State :=
  let im := (parseImage file).1
  let node := if s.img.st = 0 then im.sliceNode else s.fab.node
  if (parseImage file).2 && s.namesAbsent (resolve im {}) node then (.unitAbsent, refuseImage 4 im.serial s) else (.denied, s)

/-- An image file of a BULK transfer, complete and with the right digest: refused by the first failing check, or
applied at power-on, or staged. -/
def imageEnd (file : List Byte) (src : ImageSource) (s : State) : Status × State :=
  let im0 := (parseImage file).1
  if s.arch.cp ≠ .run then (.nackRetry, s)
  else if im0.kind = 0 ∧ s.img.st ≠ 0 then (.denied, s)
  else match s.imageRefusal file src with
    | some (cause, st) => (st, refuseImage cause im0.serial s)
    | none =>
      if im0.kind = 1 then (.ok, stageImage (resolve im0 s.img.cur) s)
      else (.ok, epochWork (applyFull (resolve im0 {}) src s))

/-- The meaning of `PREPARE`. -/
def execPrepare (src epoch : Nat) (dg : List Byte) (fl : List Nat) (s : State) : Host.Outcome State Fault Refusal :=
  run (decide (src < 65536) && decide (epoch < 65536))
    (fromCoord src (fun s => if epoch = (s.img.epoch + 1) % 65536 then epochWork (prepareHere epoch dg fl s) else s) s)

/-- `READY` at the coordinator. -/
def ready (src epoch : Nat) (s : State) : State :=
  if s.img.isCoord ∧ epoch = (s.img.epoch + 1) % 65536 then
    epochWork (setImg (fun m => { m with readyFrom := if m.readyFrom.contains src then m.readyFrom else m.readyFrom ++ [src] }) s)
  else s

/-- The meaning of `READY`. -/
def execReady (src epoch : Nat) (s : State) : Host.Outcome State Fault Refusal :=
  run (decide (src < 65536) && decide (epoch < 65536)) (ready src epoch (heardFrom src s))

/-- `COMMIT`: the next epoch; while the control cores restart it is held (R22). -/
def commitMsg (epoch : Nat) (s : State) : State :=
  if epoch ≠ (s.img.epoch + 1) % 65536 then s
  else if s.arch.cp = .restart then setImg (fun m => { m with commitHeld := some epoch }) s
  else epochWork (commitEpoch s)

/-- The meaning of `COMMIT`. -/
def execCommit (src epoch : Nat) (s : State) : Host.Outcome State Fault Refusal :=
  run (decide (src < 65536) && decide (epoch < 65536)) (fromCoord src (commitMsg epoch) s)

/-- A packet that carries the next epoch commits it on a chip that has sent `READY` (R475). -/
def commitOnPacket (p : Packet) (s : State) : State :=
  if p.epoch = (s.img.epoch + 1) % 65536 ∧ s.img.readySent = true ∧ s.img.prepared = some p.epoch then commitMsg p.epoch s else s

/-- `ABANDON`: the shadows of that epoch are discarded. -/
def abandonMsg (epoch : Nat) (s : State) : State :=
  if epoch = (s.img.epoch + 1) % 65536 then stopHandback (dropShadows (setImg (fun m => { m with commitHeld := none }) s)) else s

/-- The meaning of `ABANDON`. -/
def execAbandon (src epoch : Nat) (s : State) : Host.Outcome State Fault Refusal :=
  run (decide (src < 65536) && decide (epoch < 65536)) (fromCoord src (abandonMsg epoch) s)

/-- `STAGING_TIMEOUT`: a `READY` is still missing at the deadline. -/
def stagingTimeout (silent : Nat) (s : State) : State :=
  match s.img.stageDeadline with
  | some d =>
    if s.img.preparing.isSome && s.reachable.contains silent && !s.img.readyFrom.contains silent then
      stopHandback (abandonEpoch silent (expire (cclk 1) d s))
    else s
  | none => s

/-- The meaning of `STAGING_TIMEOUT`. -/
def execStagingTimeout (silent : Nat) (s : State) : Host.Outcome State Fault Refusal :=
  run (decide (silent < 65536)) (stagingTimeout silent s)

/-! ## Drain (R478) -/

/-- Every Plofen not fenced has drained: the force close is not needed. -/
def noteDrained (src : Nat) (s : State) : State :=
  let got := if s.img.drainedFrom.contains src then s.img.drainedFrom else s.img.drainedFrom ++ [src]
  let all := (s.plofens.filter (fun n => !s.img.fences.contains n && !s.erc.lost.contains n)).all got.contains
  epochWork (setImg (fun m => { m with drainedFrom := got, forceDeadline := if all then none else m.forceDeadline }) s)

/-- `DRAIN_QUIET`: the counts have stayed zero for the quiet time. -/
def drainQuiet (s : State) : State :=
  match s.img.prevEpoch, s.img.quietDeadline with
  | some e, some d =>
    if s.held.any (fun b => s.isPrev b.pkt) then s else
    let s := closePrev (carry d s)
    if s.img.isCoord then noteDrained s.fab.node s else sendCtrl s.img.coord (.drained e) s
  | _, _ => s

/-- The meaning of `DRAIN_QUIET`. -/
def execDrainQuiet (s : State) : Host.Outcome State Fault Refusal := run true (drainQuiet s)

/-- `DRAINED` at the coordinator. -/
def drained (src epoch : Nat) (s : State) : State :=
  if s.img.isCoord ∧ (epoch + 1) % 65536 = s.img.epoch then noteDrained src s else s

/-- The meaning of `DRAINED`. -/
def execDrained (src epoch : Nat) (s : State) : Host.Outcome State Fault Refusal :=
  run (decide (src < 65536) && decide (epoch < 65536)) (drained src epoch (heardFrom src s))

/-- `DRAIN_MAX_EXPIRY`: the coordinator closes the previous epoch on every chip. -/
def drainMax (s : State) : State :=
  match s.img.forceDeadline with
  | some d =>
    if !s.img.isCoord then s else
    let s := expire (sclk 1) d s
    let s := sendCtrlAll s.plofens (.forceClose ((s.img.epoch + 65535) % 65536)) s
    epochWork (closePrev (setImg (fun m => { m with forceDeadline := none }) s))
  | none => s

/-- The meaning of `DRAIN_MAX_EXPIRY`. -/
def execDrainMaxExpiry (s : State) : Host.Outcome State Fault Refusal := run true (drainMax s)

def imgCtrl : Nat := 0x0080004

/-- The meaning of `FORCE_CLOSE`: the control plane only. -/
def execForceClose (who : Who) (s : State) : Host.Outcome State Fault Refusal :=
  run (who.wf) (ctlWrite who imgCtrl (who = .control) (fun s => epochWork (closePrev s)) s)

/-- The meaning of `IMG_CTRL_ABANDON`: a staged image is discarded; the control plane only. -/
def execImgCtrlAbandon (who : Who) (s : State) : Host.Outcome State Fault Refusal :=
  run (who.wf) (ctlWrite who imgCtrl (who = .control) (fun s => if s.img.st = 3 then dropShadows s else s) s)

/-! ## The coordinator's role (R476) -/

/-- `COORD_ALIVE_DUE`. -/
def coordAliveDue (s : State) : State :=
  match s.img.aliveDeadline with
  | some d =>
    if !s.img.isCoord || s.img.queryOwed || s.arch.cp = .restart then s else
    let s := carry d s
    sendCtrl s.img.standby .coordAlive (setImg (fun m => { m with aliveDeadline := some (d + cclk (2 ^ 24)) }) s)
  | none => s

/-- The meaning of `COORD_ALIVE_DUE`. -/
def execCoordAliveDue (s : State) : Host.Outcome State Fault Refusal := run true (coordAliveDue s)

/-- The meaning of `COORD_ALIVE`: the standby hears its coordinator. -/
def execCoordAlive (src : Nat) (s : State) : Host.Outcome State Fault Refusal :=
  run (decide (src < 65536)) (heardFrom src s)

/-- This chip takes the role: it records itself with the new standby, abandons what is prepared here and
tells every Plofen. -/
def claimRole (others : List Nat) (s : State) : State :=
  let standby := (others.filter (fun n => n ≠ s.fab.node)).foldl min 0xFFFF
  let s := dropShadows s
  let s := setImg (fun m => { m with
    coord := s.fab.node
    standby := standby
    isCoord := true
    preparing := none
    readyFrom := []
    drainedFrom := []
    aliveDeadline := some (s.now + cclk (2 ^ 24))
    forceDeadline := if m.prevEpoch.isSome then some (s.now + sclk (2 ^ s.sysParam 0x0004)) else none }) s
  epochWork (sendCtrlAll s.plofens (.coordClaim s.fab.node s.img.epoch standby) s)

/-- `COORD_SILENCE`: the standby has heard nothing for 2^29 CCLK cycles. -/
def coordSilence (s : State) : State :=
  if s.img.standby = s.fab.node ∧ !s.img.isCoord = true ∧ 2 ≤ s.img.st ∧ !s.img.queryOwed = true then
    claimRole (s.plofens.filter (fun n => n ≠ s.img.coord && !s.img.fences.contains n && !s.erc.lost.contains n))
      (expire (cclk 1) (s.img.coordHeard + cclk (2 ^ 29)) s)
  else s

/-- The meaning of `COORD_SILENCE`. -/
def execCoordSilence (s : State) : Host.Outcome State Fault Refusal := run true (coordSilence s)

/-- `COORD_BOTH_SILENT`: neither is heard for 2^30 CCLK cycles; the lowest reachable Plofen claims. -/
def coordBothSilent (reachable : List Nat) (s : State) : State :=
  let l := (s.fab.node :: reachable).filter s.plofens.contains
  if 2 ≤ s.img.st ∧ !s.img.isCoord = true ∧ s.img.standby ≠ s.fab.node ∧ !s.img.queryOwed = true
      ∧ l.foldl min 0xFFFF = s.fab.node then
    claimRole l (expire (cclk 1) (max s.img.coordHeard s.img.standbyHeard + cclk (2 ^ 30)) s)
  else s

/-- The meaning of `COORD_BOTH_SILENT`. -/
def execCoordBothSilent (reachable : List Nat) (s : State) : Host.Outcome State Fault Refusal :=
  run true (coordBothSilent reachable s)

/-- A later epoch, as a 16-bit difference. -/
def laterE (a b : Nat) : Bool := decide (0 < (a + 65536 - b) % 65536 ∧ (a + 65536 - b) % 65536 < 32768)

/-- `COORD_CLAIM`: the claimant is recorded, an epoch prepared here abandoned, and a later epoch held here is
answered. The answer of another chip to this chip's own claim gives the latest epoch. -/
def coordClaim (claimant epoch standby : Nat) (s : State) : State :=
  if claimant = s.fab.node ∧ s.img.isCoord = true then
    if laterE epoch s.img.epoch then setImg (fun m => { m with epoch := epoch }) s else s
  else
    let s := stopHandback (dropShadows s)
    let s := setImg (fun m => { m with
      coord := claimant
      standby := standby
      isCoord := decide (claimant = s.fab.node)
      preparing := none
      stageDeadline := none
      readyFrom := []
      aliveDeadline := none
      forceDeadline := none
      coordHeard := s.now }) s
    if laterE s.img.epoch epoch then sendCtrl claimant (.epochAnswer s.img.epoch) s else s

/-- The meaning of `COORD_CLAIM`. -/
def execCoordClaim (src claimant epoch standby : Nat) (s : State) : Host.Outcome State Fault Refusal :=
  run (decide (src < 65536) && decide (claimant < 65536) && decide (epoch < 65536) && decide (standby < 65536)) (coordClaim claimant epoch standby (heardFrom src s))

/-- `COORD_QUERY` of a restarted chip, with the neighbour's answer: the recorded coordinator. -/
def coordQuery (neighbour answer : Nat) (s : State) : State :=
  if !s.img.queryOwed || s.arch.cp = .restart then s else
  let s := sendCtrl neighbour .coordQuery s
  let me := decide (answer = s.fab.node)
  epochWork (setImg (fun m => { m with
    queryOwed := false
    coord := answer
    isCoord := me && m.isCoord
    preparing := if me then m.preparing else none
    aliveDeadline := if me && m.isCoord then m.aliveDeadline else none
    coordHeard := s.now }) s)

/-- The meaning of `COORD_QUERY`. -/
def execCoordQuery (neighbour answer : Nat) (s : State) : Host.Outcome State Fault Refusal :=
  run (decide (neighbour < 65536) && decide (answer < 65536)) (coordQuery neighbour answer s)

/-! ## STORE (R480) -/

/-- The bytes of a slice: header, directory and slice table, bodies, signatures. -/
def Image.size (im : Image) : Nat :=
  128 + im.dirBytes.length + 8 * im.sections.length + im.sections.foldl (fun n c => n + (pad8 c.bytes).length) 0
    + 8 + 1312 * im.sigs.length

/-- The registers with an ST field, by address: `IMG_BOOT`, `SEC_POLICY`, `PMC_LIMIT`. -/
def State.storedRegs (s : State) : Assoc Nat Nat :=
  [(0x0040010, b2n s.sec.tenantRelay * 256 + s.sec.ttlExp), (0x0060300, s.pkgLimit), (0x0080008, s.img.boot.toNat)]

/-- `STORE`, with which the block-table checkpoint is written (R237): refused while staged, without a slice, or above 5 MiB. -/
def imgStore (s : State) : Status × State :=
  if s.img.st = 3 then (.nackRetry, s)
  else if s.img.st ≠ 2 ∨ 5 * 2 ^ 20 < s.img.cur.size then (.denied, setImg (fun m => { m with storeFail := true }) s)
  else
    let s := setImg (fun m => { m with storeFail := false, storing := some (m.cur, s.storedRegs), st := 4 }) s
    (.ok, if s.flm.st = 3 ∨ s.flm.st = 4 then checkpoint s else s)

/-- The meaning of `IMG_STORE`. -/
def execImgStore (who : Who) (s : State) : Host.Outcome State Fault Refusal :=
  run (who.wf) (ctlWriteSt who imgCtrl imgStore s)

/-- `IMG_STORE_DONE`: a copy that verifies becomes current, the other stands otherwise. -/
def imgStoreDone (verified : Bool) (s : State) : State :=
  match s.img.storing with
  | none => s
  | some c =>
    let toB := s.img.nvValid && !s.img.nvCopyB
    setImg (fun m => { m with
      storing := none
      st := if m.st = 4 then 2 else m.st
      nvA := if verified && !toB then some c else m.nvA
      nvB := if verified && toB then some c else m.nvB
      nvCopyB := if verified then toB else m.nvCopyB
      nvValid := m.nvValid || verified }) s

/-- The meaning of `IMG_STORE_DONE`. -/
def execImgStoreDone (verified : Bool) (s : State) : Host.Outcome State Fault Refusal :=
  run true (imgStoreDone verified s)

end Sys2Proof.Machine
end

