-- ==== Sys2Proof/Machine/Arrival.lean ====
section
/-! DEFINITION. `PACKET_ARRIVAL`: the link layer's receiving half for a `DATA` frame (R417 to R423), the
checks of an edge Plofen (R139, R332), combining (R297), and the packet's way into the switch core (R390 to
R393). -/

namespace Sys2Proof.Machine

/-- The opcodes whose requests are trains that a unit reassembles (R338). -/
def trainOps : List Nat := [opDISPATCH, opATTEND, opGATHER, opSIEVE]

/-- Whether a packet is an answer. -/
def isAnswer (p : Packet) : Bool := p.opcode = opACK || p.opcode = opACKDATA

/-- The two nodes of a dispatch's expert: its home and its replica (R135, R139). -/
def State.dispatchNodes (s : State) (p : Packet) : Option (Nat × Nat) :=
  let g := p.saggar
  if s.layers g ≤ dhLayer p ∨ s.experts g ≤ dhExpert p then none else
  let e := s.expert g (dhLayer p) (dhExpert p)
  let m := s.members (s.sagComp g)
  some (m.getD e.home 0xFFFF, m.getD e.replica 0xFFFF)

/-- The unit of `CAP_UNITS` a request asks for at its destination. -/
def unitAsked (p : Packet) : Option Nat :=
  if p.opcode = opDISPATCH ∨ p.opcode = opATTEND then some capARR
  else if p.opcode = opSIEVE then some capSIV
  else if p.opcode = opRPT then (if 0xFF0 ≤ callProc p then deviceCap (callProc p) else none)
  else none

/-- The destination of a request is a Plofen of the image whose variant lacks the unit asked for. -/
def State.askedAbsent (s : State) (p : Packet) : Bool :=
  match unitAsked p with
  | none => false
  | some u => (nodeRecs (s.sysBody tyNODES)).any (fun r => r.1 = p.dst &&
      [Variant.plf8af, .plf8a, .plf4af, .plf0pf].any (fun v => v.code = r.2.1 && !bit v.capUnits u))

/-- The refusal of a request that its sender may not make: `UNIT_ABSENT` where it also asks for an absent unit
(R10). -/
def State.edgeRefusal (s : State) (p : Packet) : Status := if s.askedAbsent p then .unitAbsent else .denied

/-- A packet as its edge Plofen passes it on, or the refusal it meets there: a fenced endpoint (R162), a
saggar not granted or another's node (R332), a dispatch to a node that is neither home nor replica
(R139). A dispatch whose home is fenced is re-addressed to the replica. -/
def State.edgeCheck (s : State) (port : Nat) (p : Packet) : Except Status Packet :=
  let r := s.portRec port
  if s.img.fences.contains (portNeighbour r) then .error .nackFenced
  else if p.src ≠ portNeighbour r ∨ p.saggar = 0 ∨ portGrants r p.saggar = false then .error (s.edgeRefusal p)
  else if p.opcode ≠ opDISPATCH then .ok p
  else match s.dispatchNodes p with
    | none => .error (s.edgeRefusal p)
    | some (home, replica) =>
      if p.dst ≠ home ∧ p.dst ≠ replica then .error (s.edgeRefusal p)
      else if p.dst = home ∧ s.img.fences.contains home = true then .ok (stampPkt { p with dst := replica })
      else .ok p

/-- The edge Plofen enters a dispatch or an `ATTEND` into the digests of its step, and the key of the result
that will come back under its handle (R151, R183). -/
def edgeDigest (p : Packet) (s : State) : State :=
  if p.opcode = opDISPATCH then
    modSit p.saggar (fun x => { x with
      inputs := x.inputs ++ [(dhStep p, dispatchKey p, dispatchItem p)]
      assigns := x.assigns ++ [(dhStep p, dispatchKey p, dispatchAssign p)]
      combines := aset x.combines (dhCombine p) (dhStep p, natLe (dhLayer p) 1 ++ [2] ++ zeros 2 ++ natLe (dhToken p) 4 ++ zeros 8) }) s
  else if p.opcode = opATTEND then
    modSit p.saggar (fun x => { x with
      inputs := x.inputs ++ [(atStep p, attendKey p, attendItem p)]
      combines := aset x.combines (atMerge p) (atStep p, natLe (atLayer p) 1 ++ [4] ++ natLe (atHeadLo p) 2 ++ natLe (atToken p) 4 ++ zeros 8) }) s
  else s

/-- A request of an endpoint counts against its limit until it is answered (R358). -/
def noteEdge (port : Nat) (p : Packet) (s : State) : State :=
  if isAnswer p then s
  else modPort port (fun x => { x with edgeOutst := if x.edgeOutst.contains p.tag then x.edgeOutst else x.edgeOutst ++ [p.tag] }) s

/-- Into the switch core: a combinable atomic of the current epoch goes to the Pug (R297), every other packet
into the buffer. -/
def switchIn (ingress : Nat) (p : Packet) (whole : Bool) (s : State) : State :=
  if s.combinable p && (p.epoch = s.img.epoch) then
    match combine p s with
    | some t => returnCredit ingress p.cls p.vc (packetCells p) t
    | none => takeIn ingress p whole s
  else takeIn ingress p whole s

/-- A packet passes its edge Plofen's checks and enters the switch core, or is refused there. A train's packets
are held until all have come: the checks and the digests read its header and its bytes (R139, R151). -/
def arriveEdge (port : Nat) (p : Packet) (whole : Bool) (s : State) : State :=
  let refuse := fun (q : Packet) (parts : List Packet) (st : Status) (s : State) =>
    let s := forEach parts (fun x s => returnCredit port x.cls x.vc (packetCells x) s) s
    if isAnswer q then s else reply q st 0 [] s
  if trainPart p && trainOps.contains p.opcode then
    let mine := addPart p ((s.fab.edgeFrags.filter (fun x => x.1 = port && sameTrain p x.2)).map (·.2))
    let rest := s.fab.edgeFrags.filter (fun x => !(x.1 = port && sameTrain p x.2))
    match joinTrain mine with
    | none => { s with fab := { s.fab with edgeFrags := rest ++ mine.map (fun x => (port, x)) } }
    | some w =>
      let s := { s with fab := { s.fab with edgeFrags := rest } }
      match s.edgeCheck port w with
      | .ok q => forEach mine (fun x s => switchIn port (if x.dst = q.dst then x else stampPkt { x with dst := q.dst }) true s)
          (edgeDigest q (noteEdge port q s))
      | .error st => refuse w mine st s
  else
    match s.edgeCheck port p with
    | .ok q => switchIn port q whole (edgeDigest q (noteEdge port q s))
    | .error st => refuse p [p] st s

/-- A packet whose header has arrived: a failing header check discards it (R330); its clock is merged, it
may commit the next epoch (R475), and at an edge it meets the checks of its edge Plofen. -/
def arrive (ingress : Nat) (p : Packet) (whole : Bool) (s : State) : State :=
  if !hchkOk p then returnCredit ingress p.cls p.vc (packetCells p) s
  else
    let s := commitOnPacket p (mergeLc p.lc s)
    let s := if s.isPrev p then { s with img := { s.img with quietDeadline := none } } else s
    let s := sample ingress p s
    if ingress < 64 ∧ s.portRole ingress = 2 then arriveEdge ingress p whole s
    else switchIn ingress p whole s

/-- The last frame of a buffered packet has arrived: it may leave whole, and a copy that left by cut-through
gives its cells back. -/
def wholeNow (pid : Nat) (s : State) : State :=
  match s.swc.leaving.find? (fun x => x.2.pid = pid) with
  | some x => releaseCells x.2 { s with swc := { s.swc with leaving := s.swc.leaving.filter (fun y => y.2.pid ≠ pid) } }
  | none =>
    let mark := fun (b : BufPkt) => if b.pid = pid then { b with whole := true } else b
    { s with swc := { s.swc with
      queues := s.swc.queues.map (fun q => (q.1, { q.2 with pkts := q.2.pkts.map mark }))
      reserve := s.swc.reserve.map mark } }

/-- The first frame of a packet of two: the packet enters an egress at once where it can wait or leave
there (R392); any other is handled when its last frame has arrived. -/
def firstHalf (port : Nat) (p : Packet) (fseq : Nat) (s : State) : State :=
  let pid := s.swc.nextPid
  let transit := match s.route p with | some (e, _) => decide (e < 64) | none => false
  let t := arrive port p false s
  if transit && t.held.any (fun b => b.pid = pid) then modPort port (fun x => { x with partialSop := some fseq, partialPid := some pid }) t
  else modPort port (fun x => { x with partialSop := some fseq, partialPid := none }) s

/-- A `DATA` frame in order: it ends, starts or is a packet; one with the abort marker discards the packet it
belongs to (R393, R423). Only a frame that completes a packet is acknowledged (R422). -/
def dataFrame (port : Nat) (p : Packet) (f : LinkFrame) (s : State) : State :=
  let partialPid := (s.port port).partialPid
  let s := if f.abort then dropPartial port s
    else if !f.eop then if f.sop then firstHalf port p f.fseq s else s
    else
      let s := modPort port (fun x => { x with partialSop := none, partialPid := none }) s
      match partialPid with
      | some pid => if f.sop then arrive port p true s else wholeNow pid s
      | none => arrive port p true s
  if f.eop || f.abort then modPort port (fun x => { x with ackSeq := f.fseq, ackV := true }) s else s

/-- A `DATA` frame at an `UP` port: one that fails its check or is out of order is discarded and a replay is
asked for; while a replay is outstanding only the frame it named is taken (R423). -/
def frameArrival (port : Nat) (p : Packet) (f : LinkFrame) (s : State) : State :=
  let x := s.port port
  if x.lst ≠ 4 ∨ !s.linked port then s
  else if !f.fcrcOk ∨ f.fseq ≠ x.rxSeq then badFrame port s
  else
    let s := modPort port (fun x => { x with rxSeq := (x.rxSeq + 1) % 4096, replayReq := none, replayDeadline := none }) s
    dataFrame port p f (rxCommon port f s)

/-- `PACKET_ARRIVAL`: at a port, or (port 64) the next packet a unit of this chip has made. -/
def packetArrival (port : Nat) (p : Packet) (f : LinkFrame) (s : State) : State :=
  if port < 64 then frameArrival port p f s
  else if s.fab.tx.contains p then arrive 64 p true { s with fab := { s.fab with tx := s.fab.tx.erase p } }
  else s

/-- The meaning of `PACKET_ARRIVAL`. -/
def execPacketArrival (port : Nat) (p : Packet) (f : LinkFrame) (s : State) : Host.Outcome State Fault Refusal :=
  run (decide (port < 65) && p.wf && f.wf) (packetArrival port p f s)

end Sys2Proof.Machine
end

