-- ==== Sys2Proof/Machine/KilnLog.lean ====
section
/-! DEFINITION. The Kiln log's commands (chapter 21): bucket refills, stores of the first area, its clear,
and the start of the log. -/

namespace Sys2Proof.Machine

def setLog (f : Log → Log) (s : State) : State := { s with log := f s.log }

/-- At every MCLK count that is a multiple of 2^20 every bucket refills (R553). -/
def bucketRefill (s : State) : State :=
  let per := mclk (2 ^ 20)
  let s := carry ((s.now / per + 1) * per) s
  setLog (fun l => { l with taken := [], refilled := s.now / per }) s

/-- The meaning of `LOG_BUCKET_REFILL`. -/
def execLogBucketRefill (s : State) : Host.Outcome State Fault Refusal := run true (bucketRefill s)

/-- A store of the first area begins; one in progress goes on. -/
def startStore (s : State) : State :=
  setLog (fun l => if l.storeBusy then l else { l with storeBusy := true, storing := some l.snapshot }) s

/-- `LOG_CTRL.STORE`; `NACK_RETRY` while the management controller restarts (R556). -/
def logStore (who : Who) (s : State) : State :=
  ctlWriteSt who 0x0050010 (fun s => if s.arch.mp = .restart then (.nackRetry, s) else (.ok, startStore s)) s

/-- The meaning of `LOG_STORE`. -/
def execLogStore (who : Who) (s : State) : Host.Outcome State Fault Refusal := run (who.wf) (logStore who s)

/-- The copy a store writes: the one that is not current. -/
def Log.storeTarget (l : Log) : Bool := match l.nvCur with | some b => !b | none => false

/-- A verified copy becomes current. -/
def Log.commitCopy (l : Log) (c : LogCopy) : Log :=
  let t := l.storeTarget
  { l with nvA := if t then l.nvA else some c, nvB := if t then some c else l.nvB, nvCur := some t, stored := true,
           storeBusy := false, storing := none }

/-- The store in progress ends (R556). -/
def logStoreDone (verified : Bool) (s : State) : State :=
  match s.log.storing with
  | none => s
  | some c =>
    if verified then setLog (fun l => l.commitCopy c) s
    else
      logEvent 0x0104 0 none [b2n s.log.storeTarget]
        (bumpSat satLogStoreFail (setLog (fun l => { l with storeBusy := false, storing := none }) s))

/-- The meaning of `LOG_STORE_DONE`. -/
def execLogStoreDone (verified : Bool) (s : State) : Host.Outcome State Fault Refusal :=
  run true (logStoreDone verified s)

/-- The clear of the first area (R557): what has reached the log is stored and a store in progress completes
first, both NVM copies are emptied, and `LOG_CLEARED` is the new slot 0. -/
def clearLog (dcSeq : Nat) (s : State) : State :=
  let s := flushLog s
  let s := match s.log.storing with | some c => setLog (fun l => l.commitCopy c) s | none => s
  let s := setLog (fun l => { l with
    slots := l.slots.filter (fun p => decide (4096 ≤ p.1))
    firstN := 0
    firstSeq := 0
    nvA := l.nvA.map (fun _ => {})
    nvB := l.nvB.map (fun _ => {}) }) s
  storeOne none (mkEntry 0x0103 0 none [dcSeq] .management s) s

/-- SD is up (R558): the first area is restored from a current NVM copy, `LOG_START` is stored, and the
entries of earlier steps follow. -/
def logStart (s : State) : State :=
  let l := s.log
  let cur := match l.nvCur with | some true => l.nvB | some false => l.nvA | none => none
  let early := l.early
  let s := setLog (fun l => { l with
    up := true
    early := []
    slots := match cur with | some c => c.slots | none => []
    firstN := match cur with | some c => c.firstN | none => 0
    firstSeq := match cur with | some c => c.firstSeq | none => 0
    head := match cur with | some c => (c.head + 2 ^ 24) % 2 ^ 32 | none => 0
    nextSlot := 4096
    wrapped := false
    stored := cur.isSome
    storeBusy := false
    storing := none }) s
  let s := storeOne none (mkEntry 0x0101 0 none [match cur with | some c => c.head | none => 0, b2n cur.isSome] .management s) s
  forEach early (fun e s => storeOne none e s) s

end Sys2Proof.Machine
end

