-- ==== Sys2Proof/Machine/Package.lean ====
section
/-! DEFINITION. The package (chapter 22): what each reset does, the power-on sequence up to the release of
SD, rails and telemetry, the power cap, thermal skips and the trip, the references, and the sideband. -/

namespace Sys2Proof.Machine

def setPkg (f : Pkg → Pkg) (s : State) : State := { s with pkg := f s.pkg }

/-! ## What a reset of the core domains does (R584) -/

/-- A field with an ST access code as the current NVM copy keeps it (R480). -/
def State.storedField (s : State) (a : Nat) : Option Nat :=
  if s.img.nvValid then (if s.img.nvCopyB then s.img.nvB else s.img.nvA).bind (fun c => afind c.2 a) else none

/-- The regions the flash keeps across a power loss (R207). -/
def State.flashRegions (s : State) : List Region :=
  s.flm.saved ++ ((s.tie.regions.map (·.2)).filter (fun r => s.homes.contains r.home && r.deleting.isNone && (polTiers r.tierPol).contains 4))

/-- Frames of T4, which lie on the media. -/
def State.flashFrames (s : State) : Assoc Nat Frame := s.flm.savedFrames ++ s.tie.frames.filter (fun p => p.2.tier = 4)

/-- The media after a loss: the blocks stand; a program in progress leaves a torn page (R228). -/
def tornPages (s : State) : Assoc Nat FlmDie :=
  s.flm.dies.map (fun (d : Nat × FlmDie) =>
    let torn := s.flm.progs.filter (fun p => p.die = d.1)
    let blk := torn.foldl (fun b p =>
      match p.block.or (if p.host then d.2.hostOpen else d.2.gcOpen) with
      | some n => amod b n {} (fun k => { k with pages := k.pages ++ [{ torn := true }] })
      | none => b) d.2.blk
    (d.1, { blk := blk, fenced := d.2.fenced, base := d.2.base, again := d.2.again }))

/-- Every die but the always-on island and WD is reset; a cold reset takes the management controller and
the always-on registers too. NVM contents and the Witness stand. -/
def coreReset (cold : Bool) (s : State) : State :=
  let aon := [0x0010040, 0x0020004, 0x0060304]
  let z : State := {}
  let kept := s.flashFrames
  { z with
    now := s.now
    free := s.free
    variant := s.variant
    pending := s.pending
    out := s.out
    sat := if cold then [] else s.sat.filter (fun p => aon.contains p.1.1)
    ctr := (s.ctr.filter (fun p => p.1 = 0x0080040))
    arch := { z.arch with mp := if cold then .off else s.arch.mp }
    log := { z.log with nvA := s.log.nvA, nvB := s.log.nvB, nvCur := s.log.nvCur, early := if cold then [] else s.log.early }
    img := { z.img with nvA := s.img.nvA, nvB := s.img.nvB, nvValid := s.img.nvValid, nvCopyB := s.img.nvCopyB,
                        boot := BitVec.ofNat 32 ((s.storedField 0x0080008).getD 0) }
    sec := { z.sec with claimPin := s.sec.claimPin, claimed := s.sec.claimed, enrolled := s.sec.enrolled, arb := s.sec.arb,
                        wfwApproved := s.sec.wfwApproved, draws := s.sec.draws,
                        tenantRelay := bit ((s.storedField 0x0040010).getD 0x122) 8,
                        ttlExp := bits ((s.storedField 0x0040010).getD 0x122) 0 6 }
    sag := s.sag.map (fun (p : Nat × SagSec) => (p.1, { dataKey := p.2.dataKey }))
    erc := { z.erc with fw := s.erc.fw.map (fun (p : Nat × FwKind) => (p.1, { p.2 with switching := false, deadline := none, waiting := [] })) }
    flm := { z.flm with dies := tornPages s, retired := s.flm.retired, logical := s.flm.logical, trims := s.flm.trims,
                        saved := s.flashRegions, savedFrames := kept }
    tie := { z.tie with nextFrame := s.tie.nextFrame, mem := s.tie.mem.filter (fun c => ahas kept (c.1 / 65536)) }
    pkg := { s.pkg with limit := s.storedField 0x0060300 }
    wd := s.wd }

/-! ## Rails (R570, R573) -/

/-- The rails of a group. -/
def groupRails : Nat → List Nat
  | 1 => [4, 5] | 2 => [6, 7] | 3 => [8, 9] | 4 => [0, 1, 2, 3] | 5 => [10] | 6 => [11] | 7 => [12] | _ => []

def setRail (r : Nat) (f : Rail → Rail) (s : State) : State := setPkg (fun p => { p with rails := amod p.rails r {} f }) s

/-- Switch a rail off. -/
def railOff (r : Nat) (s : State) : State := setRail r (fun x => { x with off := true, pg := false, mv := 0, iout := 0, watts := 0 }) s

/-- Switch every rail off, in reverse order of the groups. -/
def railsOff (s : State) : State :=
  setPkg (fun p => { p with group := 0, awaited := [], groupDeadline := none, coreDeadline := none })
    (forEach ([7, 6, 5, 4, 3, 2, 1].flatMap groupRails) (fun r s => railOff r s) s)

/-- The next group after group `g` with a present rail; 8 when there is none. -/
def State.nextGroup (s : State) (g : Nat) : Nat :=
  (((List.range 8).filter (fun k => decide (g < k) && !(s.pkg.skipHbm && decide (5 ≤ k)) && (groupRails k).any s.railPresent)).headD 8)

/-- Switch a group on; after the last, `PWR_GOOD_CORE` is awaited. -/
def startGroup (k : Nat) (s : State) : State :=
  if k = 8 then
    setPkg (fun p => { p with group := 8, awaited := [], groupDeadline := none, coreDeadline := some (s.now + mclk (2 ^ 22)) }) s
  else
    setPkg (fun p => { p with group := k, awaited := (groupRails k).filter s.railPresent, groupDeadline := some (s.now + mclk (2 ^ 22)) }) s

/-- Step 3 begins: each adaptive rail is commanded to the voltage table's value, and group 1 goes on
(R571, R573). -/
def startRails (s : State) : State :=
  let adaptive := [0, 1, 2, 3, 4].filter s.railPresent
  let s := setPkg (fun p => { p with
    st := 3
    skipHbm := false
    railFault := false
    restartAt := none
    avs := adaptive.map (fun n => (n, (0, aget p.voltTable n 0))) }) s
  startGroup (s.nextGroup 0) s

/-- Power-on steps from `n` on are to be done again. -/
def forgetSteps (n : Nat) (p : Pkg) : Pkg :=
  { p with stepsDone := p.stepsDone.filter (fun i => decide (i < n)), stepT := p.stepT.filter (fun q => decide (q.1 < n)) }

/-! ## Power loss (R575) -/

/-- The device acts as at a power loss: core domains reset, rails off, the cause recorded; step 3 follows
once `PWR_GOOD_CORE` has fallen. -/
def powerLoss (cause : Nat) (s : State) : State :=
  let s := railsOff (coreReset false s)
  let s := setPkg (fun p => { forgetSteps 3 p with st := 1, lastReset := cause, restartAt := some 3 }) s
  if s.pkg.pgCore then s else startRails s

/-! ## Power-on steps 1 to 3 (R585, R587) -/

/-- `PWR_GOOD_AON_RISE`: power-on begins. -/
def aonRise (s : State) : State :=
  if s.pkg.pgAon then s else
  let p := s.pkg
  let s := coreReset true s
  setPkg (fun _ => { lastReset := p.lastReset, voltTable := p.voltTable, limit := s.storedField 0x0060300, pgAon := true, pgCore := p.pgCore,
                     resetN := p.resetN, warmN := p.warmN, aonAt := s.now, st := 1 }) s

/-- The meaning of `PWR_GOOD_AON_RISE`. -/
def execPwrGoodAonRise (s : State) : Host.Outcome State Fault Refusal := run true (aonRise s)

/-- `PWR_GOOD_AON_FALL`: the always-on island loses its supply; a thermal trip is released. -/
def aonFall (s : State) : State :=
  if !s.pkg.pgAon then s else
  let p := s.pkg
  let s := coreReset true s
  setPkg (fun _ => { lastReset := p.lastReset, voltTable := p.voltTable, limit := s.storedField 0x0060300, pgCore := p.pgCore,
                     resetN := p.resetN, warmN := p.warmN, st := 1 }) s

/-- The meaning of `PWR_GOOD_AON_FALL`. -/
def execPwrGoodAonFall (s : State) : Host.Outcome State Fault Refusal := run true (aonFall s)

/-- Step 2 begins: the management controller boots. -/
def startBoot (s : State) : State :=
  setPkg (fun p => { p with st := 2, restartAt := none }) { s with arch := { s.arch with mp := .boot } }

/-- `ROOT_PLL_LOCK`: the root PLL locks on A, or on B where A is not valid; step 1 completes. -/
def rootLock (s : State) : State :=
  if s.pkg.pgAon && !s.pkg.rootLock && (s.pkg.aValid || s.pkg.bValid) then
    startBoot (recordStep 1 (setPkg (fun p => { p with rootLock := true, selB := !p.aValid }) s))
  else s

/-- The meaning of `ROOT_PLL_LOCK`. -/
def execRootPllLock (s : State) : Host.Outcome State Fault Refusal := run true (rootLock s)

/-- `MGMT_BOOT_DONE`: the copy in force runs where it verifies, else the other; with neither the device
stays in step 2 (R587). -/
def mgmtBootDone (aOk bOk : Bool) (s : State) : State :=
  if s.pkg.st ≠ 2 ∨ s.arch.mp ≠ .boot then s else
  let k := aget s.erc.fw 1 {}
  let ok := fun (b : Bool) => if b then bOk else aOk
  if !ok k.inForceB && !ok (!k.inForceB) then setPkg (fun p => { p with st := 6 }) s else
  let s := if ok k.inForceB then s else { s with erc := { s.erc with fw := aset s.erc.fw 1 { k with inForceB := !k.inForceB } } }
  startRails (recordStep 2 { s with arch := { s.arch with mp := .run } })

/-- The meaning of `MGMT_BOOT_DONE`. -/
def execMgmtBootDone (aOk bOk : Bool) (s : State) : Host.Outcome State Fault Refusal :=
  run true (mgmtBootDone aOk bOk s)

/-- A group of rails is being switched on. -/
def State.groupOn (s : State) : Bool := s.pkg.st = 3 && decide (1 ≤ s.pkg.group ∧ s.pkg.group ≤ 7)

/-- The awaited rails report power good, and the next group goes on. -/
def groupGood (rails : List Nat) (s : State) : State :=
  startGroup (s.nextGroup s.pkg.group) (forEach rails (fun r s => setRail r (fun x => { x with off := false, pg := true }) s) s)

/-- The meaning of `RAIL_GROUP_POWER_GOOD`. -/
def execRailGroupPowerGood (s : State) : Host.Outcome State Fault Refusal :=
  run true (if s.groupOn then groupGood s.pkg.awaited s else s)

/-- Rails off in reverse order; `BOOT_FAIL`. -/
def bootFail (s : State) : State := setPkg (fun p => { p with st := 6 }) (railsOff s)

/-- `RAIL_GROUP_TIMEOUT` (R587): a rail of the group has not reported in time. -/
def groupTimeout22 (rail : Nat) (s : State) : State :=
  if !(s.groupOn && s.pkg.awaited.contains rail) then s else
  let s := match s.pkg.groupDeadline with | some d => expire (mclk 1) d s | none => s
  let g := s.pkg.group
  let others := s.pkg.awaited.filter (· ≠ rail)
  if g = 4 then groupGood others (fenceDie rail (railOff rail s))
  else if 5 ≤ g then
    let s := setPkg (fun p => { p with skipHbm := true }) (forEach [12, 11, 10] (fun r s => railOff r s) s)
    startGroup (s.nextGroup g) s
  else bootFail s

/-- The meaning of `RAIL_GROUP_TIMEOUT`. -/
def execRailGroupTimeout (rail : Nat) (s : State) : Host.Outcome State Fault Refusal :=
  run (decide (rail < 13)) (groupTimeout22 rail s)

/-- `PWR_GOOD_CORE_TIMEOUT` (R587). -/
def coreTimeout (s : State) : State :=
  match s.pkg.coreDeadline with
  | some d => if s.pkg.st = 3 then bootFail (expire (mclk 1) d s) else s
  | none => s

/-- The meaning of `PWR_GOOD_CORE_TIMEOUT`. -/
def execPwrGoodCoreTimeout (s : State) : Host.Outcome State Fault Refusal := run true (coreTimeout s)

/-- `PWR_GOOD_CORE_FALL`: with the core rails on, a power loss; after a loss that switched them off, step
3 restarts. -/
def coreFall (s : State) : State :=
  let s' := setPkg (fun p => { p with pgCore := false }) s
  if !s.pkg.pgCore then s
  else if s.pkg.restartAt = some 3 ∧ s.pkg.st = 1 then startRails s'
  else if s.pkg.st = 4 ∨ (s.pkg.st = 3 ∧ s.pkg.group = 8) then powerLoss 3 s'
  else s'

/-- The meaning of `PWR_GOOD_CORE_FALL`. -/
def execPwrGoodCoreFall (s : State) : Host.Outcome State Fault Refusal := run true (coreFall s)

/-! ## Reset pins (R584) -/

/-- `RESET_N_FALL`: a cold reset. -/
def resetFall (s : State) : State :=
  if !s.pkg.resetN then s
  else if !s.pkg.pgAon || !s.pkg.tripN then setPkg (fun p => { p with resetN := false }) s
  else
    let s := railsOff (coreReset true s)
    setPkg (fun p => { forgetSteps 2 p with resetN := false, st := 1, lastReset := 1, restartAt := some 2, therm := [], cap := 0, avs := [], rails := [] }) s

/-- The meaning of `RESET_N_FALL`. -/
def execResetNFall (s : State) : Host.Outcome State Fault Refusal := run true (resetFall s)

/-- `RESET_N_RISE`: power-on restarts at step 2. -/
def resetRise (s : State) : State :=
  if s.pkg.resetN then s else
  let s := setPkg (fun p => { p with resetN := true }) s
  if s.pkg.restartAt = some 2 ∧ s.pkg.tripN then startBoot s else s

/-- The meaning of `RESET_N_RISE`. -/
def execResetNRise (s : State) : Host.Outcome State Fault Refusal := run true (resetRise s)

/-- `WARM_RESET_N_FALL`: a warm reset with the rails on; ignored while `RESET_N` is low. -/
def warmFall (s : State) : State :=
  if !s.pkg.warmN then s else
  let s := setPkg (fun p => { p with warmN := false }) s
  if !s.pkg.resetN || s.pkg.group ≠ 8 then s else
  setPkg (fun p => { forgetSteps 3 p with st := 3, lastReset := 2, restartAt := some 3, coreDeadline := none }) (coreReset false s)

/-- The meaning of `WARM_RESET_N_FALL`. -/
def execWarmResetNFall (s : State) : Host.Outcome State Fault Refusal := run true (warmFall s)

/-- `WARM_RESET_N_RISE`: power-on restarts at step 3, whose rails are on. -/
def warmRise (s : State) : State :=
  if s.pkg.warmN then s else
  let s := setPkg (fun p => { p with warmN := true }) s
  if s.pkg.restartAt = some 3 ∧ s.pkg.group = 8 then setPkg (fun p => { p with restartAt := none }) s else s

/-- The meaning of `WARM_RESET_N_RISE`. -/
def execWarmResetNRise (s : State) : Host.Outcome State Fault Refusal := run true (warmRise s)

/-! ## Orderly power-down (R574) -/

/-- Every flash program in progress or waiting completes. -/
def flushFlash : Nat → State → State
  | 0, s => s
  | n + 1, s =>
    match s.flm.progs with
    | p :: _ => flushFlash n (programDone p.die p.host s)
    | [] => s

/-- Steps 1 to 5 of R574. -/
def powerDown (s : State) : State :=
  let s := { s with jsl := { s.jsl with closing := true, handshakes := [], bulks := [] } }
  let s := forEach (List.range 64) (fun p s => if (s.port p).lst = 0 then s else modPort p (fun x => { x with lst := 0 }) (if (s.port p).lst = 4 then leaveUp p 0 s else s)) s
  let s := if s.flm.st = 3 ∨ s.flm.st = 4 then checkpoint s else s
  let s := flushFlash (2 * (s.flm.progs.length + s.flm.waiting.length + 1) * (s.flm.summaries + 1)) s
  let s := setLog (fun l => l.commitCopy l.snapshot) s
  let s := tapFrame 4 0 0 0 s
  let s := railsOff (coreReset false s)
  setPkg (fun p => { forgetSteps 3 p with st := 0, restartAt := none }) s

/-- The meaning of `ORDERLY_POWER_DOWN`. -/
def execOrderlyPowerDown (who : Who) (s : State) : Host.Outcome State Fault Refusal :=
  run (who.wf)
    (ctlWrite who 0x0010004 (match who with | .operator _ => true | _ => false) (fun s => if s.pkg.st = 4 then powerDown s else s) s)

/-! ## Telemetry and the cap (R571, R575, R576) -/

/-- A stack without its rails is trained again before it serves. -/
def untrain (k : Nat) (s : State) : State := { s with tie := { s.tie with hbm := aset s.tie.hbm k { s.hbm k with trained := false } } }

/-- A fault a regulator reports (R575). -/
def railFault (r : Nat) (s : State) : State :=
  if r < 4 then setPkg (fun p => { p with railFault := true }) (fenceDie r (railOff r s))
  else if 10 ≤ r then
    let s := forEach [12, 11, 10] (fun r s => railOff r s) s
    setPkg (fun p => { p with railFault := true, skipHbm := true })
      (forEach (List.range s.variant.stacks) (fun k s => fenceMemory (.hbm k) 5 (untrain k s)) s)
  else powerLoss 4 s

/-- One regulator's poll into `PMC_RAIL`. -/
def pollRail (x : RailReading) (s : State) : State :=
  if !s.railPresent x.rail then s
  else if !x.answered then bumpSat satPmcPmbus s
  else
    let was := (aget s.pkg.rails x.rail {}).fault
    let s := setRail x.rail (fun r => { r with mv := x.mv % 4096, iout := x.amps4 % 4096, watts := x.watts % 65536, pg := x.powerGood,
                                               ocWarn := x.ocWarn, otWarn := x.otWarn, fault := x.fault }) s
    if x.fault && !was then railFault x.rail s else s

/-- The package power: the sum over the present rails, in W. -/
def State.packagePower (s : State) : Nat :=
  ((List.range 13).filter s.railPresent).foldl (fun n r => n + (aget s.pkg.rails r {}).watts) 0

/-- The energy of one poll interval of 2^18 MCLK cycles at 250 MHz, in whole joules with the rest kept. -/
def addEnergy (s : State) : State :=
  let e := s.pkg.energyAcc + s.packagePower * 2 ^ 18
  setPkg (fun p => { p with energyAcc := e % 250000000 }) (bumpCtr ctrEnergy (e / 250000000) s)

/-- `PMBUS_POLL`: every 2^18 MCLK cycles, by a running management controller. -/
def pmbusPoll (l : List RailReading) (s : State) : State :=
  if s.arch.mp ≠ .run ∨ s.pkg.st < 2 ∨ 4 < s.pkg.st then s else
  addEnergy (forEach l (fun x s => pollRail x s) (carry (s.nextMultiple (mclk (2 ^ 18))) s))

/-- The meaning of `PMBUS_POLL`. -/
def execPmbusPoll (l : List RailReading) (s : State) : Host.Outcome State Fault Refusal := run (l.all (fun r => decide (r.rail < 13))) (pmbusPoll l s)

/-- The cap fraction after one comparison with the limit. -/
def capNext (c power limit : Nat) : Nat :=
  if limit < power then min 56 (c + 1) else if power * 100 < limit * 95 then c - 1 else c

/-- `POWER_CAP_UPDATE`: every 2^18 MCLK cycles; c holds while the management controller restarts. -/
def powerCap (s : State) : State :=
  if s.arch.mp ≠ .run then s else
  let per := mclk (2 ^ 18)
  let s := carry (ceilDiv s.now per * per) s
  setPkg (fun p => { p with cap := capNext p.cap s.packagePower s.pkgLimit }) s

/-- The meaning of `POWER_CAP_UPDATE`. -/
def execPowerCapUpdate (s : State) : Host.Outcome State Fault Refusal := run true (powerCap s)

/-- A write of `PKG_LIMIT`: 400 to the variant's maximum; other values are discarded. -/
def writeLimit (v : Word32) (s : State) : State :=
  let n := bits v.toNat 0 12
  if 400 ≤ n ∧ n ≤ s.variant.maxPower then setPkg (fun p => { p with limit := some n }) s else s

/-- The meaning of `PKG_LIMIT_WRITE`. -/
def execPkgLimitWrite (who : Who) (value : Word32) (s : State) : Host.Outcome State Fault Refusal :=
  run (who.wf) (ctlWrite who 0x0060300 true (writeLimit value) s)

/-! ## Thermal (R579, R580) -/

/-- The cycle of a die's clock. -/
def dieCycles (d n : Nat) : Nat := if 5 ≤ d ∧ d ≤ 8 then aclk n else sclk n

/-- A die's skip fraction takes a new value; leaving 0 counts in `THROTTLE`. -/
def setSkip (d n : Nat) (s : State) : State :=
  let old := (aget s.pkg.therm d {}).skip
  let s := setPkg (fun p => { p with therm := amod p.therm d {} (fun t => { t with skip := n }) }) s
  if old = 0 ∧ 0 < n then bumpSat satPmcThrottle s else s

/-- `THERMAL_SENSOR_READ`: the hottest sensor; at 100 °C the fraction is at least 32 at once. -/
def sensorRead (d temp : Nat) (s : State) : State :=
  if !s.dieFitted d then s else
  let s := setPkg (fun p => { p with therm := amod p.therm d {} (fun t => { t with valid := true, temp := temp }) }) (carry (s.nextMultiple (dieCycles d (2 ^ 12))) s)
  if 100 ≤ temp then setSkip d (max 32 (aget s.pkg.therm d {}).skip) s else s

/-- The meaning of `THERMAL_SENSOR_READ`. -/
def execThermalSensorRead (die temp : Nat) (s : State) : Host.Outcome State Fault Refusal :=
  run (decide (die < 11) && decide (temp < 256)) (sensorRead die temp s)

/-- The skip fraction after 2^16 cycles at a temperature. -/
def skipNext (n temp : Nat) : Nat := if 95 ≤ temp then max n (min 56 (n + 1)) else if temp < 94 then n - 1 else n

/-- `THERMAL_SKIP_STEP`. -/
def skipStep (d : Nat) (s : State) : State :=
  let t := aget s.pkg.therm d {}
  if !s.dieFitted d || !t.valid then s else
  setSkip d (skipNext t.skip t.temp) (carry (s.nextMultiple (dieCycles d (2 ^ 16))) s)

/-- The meaning of `THERMAL_SKIP_STEP`. -/
def execThermalSkipStep (die : Nat) (s : State) : Host.Outcome State Fault Refusal :=
  run (decide (die < 11)) (skipStep die s)

/-- The skip fraction a die applies: the larger of its own and the cap; while R497 applies, every array
die the largest on the chip (R499, R579). -/
def State.skipOf (s : State) (d : Nat) : Nat :=
  let n := if s.confAny && decide (5 ≤ d ∧ d ≤ 8) then s.pkg.therm.foldl (fun m x => max m x.2.skip) 0 else (aget s.pkg.therm d {}).skip
  max n s.pkg.cap

/-- `THERMAL_TRIP`: `THERMTRIP_N` goes low and the device acts as at a power loss; it does not restart
until `PWR_GOOD_AON` falls. -/
def thermalTrip (s : State) : State :=
  if !s.pkg.pgAon || !s.pkg.tripN then s else
  let s := railsOff (coreReset false s)
  setPkg (fun p => { forgetSteps 3 p with st := 1, lastReset := 6, restartAt := none, tripN := false }) s

/-- The meaning of `THERMAL_TRIP`. -/
def execThermalTrip (s : State) : Host.Outcome State Fault Refusal := run true (thermalTrip s)

/-! ## References (R583) -/

/-- Move the PLL to an input. -/
def selectInput (b : Bool) (s : State) : State :=
  if s.pkg.selB = b then s else bumpSat satClkSwitches (setPkg (fun p => { p with selB := b }) s)

/-- Holdover ends: its cycles are counted. -/
def endHoldover (s : State) : State :=
  match s.pkg.holdoverAt with
  | some t => bumpCtr ctrHoldover ((s.now - t) / 60) (setPkg (fun p => { p with holdover := false, holdoverAt := none }) s)
  | none => s

/-- `REFCLK_INVALID`: the PLL moves to the other valid input, or holds over. -/
def refclkInvalid (inputB : Bool) (s : State) : State :=
  if !s.pkg.pgAon || !(if inputB then s.pkg.bValid else s.pkg.aValid) then s else
  let s := bumpSat satClkInvalid (setPkg (fun p => if inputB then { p with bValid := false } else { p with aValid := false }) s)
  if !s.pkg.rootLock || s.pkg.selB ≠ inputB then s
  else if s.pkg.aValid || s.pkg.bValid then selectInput (!inputB) s
  else setPkg (fun p => { p with holdover := true, holdoverAt := some s.now }) s

/-- The meaning of `REFCLK_INVALID`. -/
def execRefclkInvalid (inputB : Bool) (s : State) : Host.Outcome State Fault Refusal :=
  run true (refclkInvalid inputB s)

/-- `REFCLK_VALID`: the bit is set; holdover ends on the input that came back. -/
def refclkValid (inputB : Bool) (s : State) : State :=
  if !s.pkg.pgAon then s else
  let s := setPkg (fun p => if inputB then { p with bValid := true } else { p with aValid := true }) s
  if s.pkg.holdover then selectInput inputB (endHoldover s) else s

/-- The meaning of `REFCLK_VALID`. -/
def execRefclkValid (inputB : Bool) (s : State) : Host.Outcome State Fault Refusal :=
  run true (refclkValid inputB s)

/-- `HOLDOVER_TIMEOUT`: after 2^28 MCLK cycles the device acts as at a power loss. -/
def holdoverTimeout (s : State) : State :=
  match s.pkg.holdoverAt with
  | some t => powerLoss 5 (endHoldover (expire (mclk 1) (t + mclk (2 ^ 28)) s))
  | none => s

/-- The meaning of `HOLDOVER_TIMEOUT`. -/
def execHoldoverTimeout (s : State) : Host.Outcome State Fault Refusal := run true (holdoverTimeout s)

/-! ## Load warnings (R572) -/

/-- `SD_LOAD_RELEASE`: the starts held under `LOAD_WARN_N[4]` go 3,000 SCLK cycles after its assertion. -/
def sdLoadRelease (s : State) : State :=
  let r := aget s.arrs.ramp 4 {}
  match r.warnAt with
  | some w =>
    if r.highAt.isSome then s else
    let s := carry (w + sclk 3000) s
    setRamp 4 { r with held := [], highAt := some (s.now + sclk (2 ^ 13)) } s
  | none => s

/-- The meaning of `SD_LOAD_RELEASE`. -/
def execSdLoadRelease (s : State) : Host.Outcome State Fault Refusal := run true (sdLoadRelease s)

/-- A ramp's assertion ends 2^13 cycles after the last held start was released. -/
def rampHigh (b : Nat) (s : State) : State :=
  let r := aget s.arrs.ramp b {}
  match r.highAt with
  | some t => if r.held.isEmpty then setRamp b { r with warnAt := none, highAt := none } (carry t s) else s
  | none => s

/-- `LOAD_WARN_N_HIGH`: the bit goes high once every ramp that asserted it lets it go. -/
def loadWarnHigh (b : Nat) (s : State) : State :=
  forEach ((s.arrs.ramp.filter (fun p => p.1 % 8 = b)).map (·.1)) rampHigh s

/-- The meaning of `LOAD_WARN_N_HIGH`. -/
def execLoadWarnNHigh (b : Nat) (s : State) : Host.Outcome State Fault Refusal :=
  run (decide (b < 5)) (loadWarnHigh b s)

/-- The `LOAD_WARN_N` pins, true while high. -/
def State.loadWarnN (s : State) (b : Nat) : Bool := s.arrs.ramp.all (fun p => p.1 % 8 ≠ b || p.2.warnAt.isNone)

/-! ## Sideband (R498, R569) and TAP -/

/-- The meaning of `I3C_PRIVATE_WRITE`: the pointer, where the management controller runs. -/
def execI3cPrivateWrite (ptr : BitVec 40) (s : State) : Host.Outcome State Fault Refusal :=
  run true (if s.arch.mp = .run then setPkg (fun p => { p with i3cPtr := ptr.toNat }) s else s)

/-- Words from the pointer, until one is not granted. -/
def i3cWords : Nat → List Word32 → State → List Word32 × State
  | 0, l, s => (l, s)
  | n + 1, l, s =>
    match csrRead .bmc s.pkg.i3cPtr s with
    | (.ok, w, s) => i3cWords n (l ++ [BitVec.ofNat 32 w]) (setPkg (fun p => { p with i3cPtr := (p.i3cPtr + 4) % 2 ^ 40 }) s)
    | _ => (l, s)

/-- The meaning of `I3C_PRIVATE_READ`. -/
def execI3cPrivateRead (words : Nat) (s : State) : Host.Outcome State Fault Refusal :=
  run (decide (words < 65536))
    (if s.arch.mp = .run then (match i3cWords words [] s with | (l, s) => emit (.i3c l) s) else s)

/-- The meaning of `OWN_CLAIM_N_RELEASE`. -/
def execOwnClaimNRelease (s : State) : Host.Outcome State Fault Refusal :=
  run true { s with sec := { s.sec with claimPin := false } }

/-- `SEC_UTIL_PUBLISH`: every 2^28 MCLK cycles while R497 applies. -/
def secUtil (l : List Nat) (s : State) : State :=
  if s.confAny && s.arch.mp = .run then
    let s := carry (s.nextMultiple (mclk (2 ^ 28))) s
    { s with sec := { s.sec with util := (List.range 8).map (fun i => min 8 (l.getD i 0)) } }
  else s

/-- The meaning of `SEC_UTIL_PUBLISH`. -/
def execSecUtilPublish (l : List Nat) (s : State) : Host.Outcome State Fault Refusal :=
  run true (secUtil l s)

/-- The meaning of `TAP_INSTRUCTION`: 0 `IDCODE` and 1 `BYPASS` always; others while the TAP offers all. -/
def execTapInstruction (code : Nat) (s : State) : Host.Outcome State Fault Refusal :=
  run (decide (code < 256))
    (if code ≤ 1 || s.sec.tapFull then { s with sec := { s.sec with tapIr := code } } else s)

end Sys2Proof.Machine
end

