-- ==== Sys2Proof/Machine/Resilience.lean ====
section
/-! DEFINITION. Integrity and resilience (chapter 20): probes, lost nodes, admission, whole-die fences and
slack; fence signals (R20); the end of a control-core restart (R22); changes forwarded to WD (R520). -/

namespace Sys2Proof.Machine

/-! ## Lost nodes (R533, R534) -/

/-- Every open that nodes hold is dropped, and versions no list needs are released (R215). -/
def dropOpens (nodes : List Nat) (s : State) : State :=
  forEach s.tie.regions (fun q s => releaseVersions q.1 (modRegion q.1 (fun r => { r with
    versions := r.versions.map (fun v => (v.1, { v.2 with opens := v.2.opens.filter (fun o => !nodes.contains o.1) })) }) s)) s

/-- A composition is fenced on this chip: requests to it are refused, its members' opens dropped, its Trimmers told,
its collectives fenced, and a leader aborts the step in flight (R215, R534). -/
def fenceComposition (comp : Nat) (s : State) : State :=
  let s := if s.compFenced comp then s
    else dropOpens (s.members comp) { s with coh := { s.coh with compFences := s.coh.compFences ++ [comp] } }
  let s := fencePugComp comp (fenceUpcall comp 1 comp s)
  match s.sagOfComp comp with
  | some g => if s.leads comp then abortStep comp g true s else s
  | none => s

/-- Domains of the configuration in force that have a node as a member. -/
def State.domainsOfMember (s : State) (node : Nat) : List Nat :=
  (s.img.cur.sections.filter (fun c => c.ty = tyDOMAINS)).flatMap (fun c =>
    ((domainRecs (c.body.getD []) 256).filter (fun d => d.members.contains node)).map (·.id))

/-- The coordinator puts a lost node into the next fence list; a pending admission of it is abandoned. -/
def coordLost (n : Nat) (s : State) : State :=
  if !s.img.isCoord then s else
  let joining := s.erc.joins.contains n
  let s := setErc (fun e => { e with joins := e.joins.filter (· ≠ n) }) s
  let s := if joining && s.img.preparing.isSome && !s.img.preparedFences.contains n then stopHandback (abandonEpoch n s) else s
  if (s.img.fences.contains n && !joining) || s.img.nextFences.contains n then s
  else setImg (fun m => { m with nextFences := m.nextFences ++ [n] }) s

/-- A loss is known here, by this chip's own probe or by `NODE_LOST`: a repeated report changes nothing. -/
def nodeLost (n : Nat) (s : State) : State :=
  if s.erc.lost.contains n then s else
  let s := setErc (fun e => { e with lost := e.lost ++ [n] }) s
  let s := forEach (s.compositions.filter (fun c => (s.members c).contains n)) fenceComposition s
  let s := forEach (s.domainsOfMember n) (fun d s => reform d (domainFence d 2 true s)) s
  let s := if n = s.fab.node then dropAttention s else s
  epochWork (coordLost n s)

/-- The meaning of `NODE_LOST`. -/
def execNodeLost (lost : Nat) (s : State) : Host.Outcome State Fault Refusal :=
  run (decide (lost < 65536)) (nodeLost lost s)

/-- The meaning of `PROBE`: a running control plane answers. -/
def execProbe (src : Nat) (s : State) : Host.Outcome State Fault Refusal :=
  run (decide (src < 65536)) (if s.arch.cp = .run then sendCtrl src .probeAnswer (heardFrom src s) else heardFrom src s)

/-- The fabric port that reaches a neighbour. -/
def State.portTo (s : State) (node : Nat) : Nat :=
  ((List.range 64).find? (fun p => s.portRole p = 1 && portNeighbour (s.portRec p) = node)).getD 0

/-- `PROBE_TIMEOUT`: the peer is declared lost, to every Plofen and in the Kiln log. -/
def probeTimeout (peer : Nat) (s : State) : State :=
  match afind s.erc.probes peer with
  | none => s
  | some d =>
    let s := setErc (fun e => { e with probes := aerase e.probes peer }) (expire (sclk 1) d s)
    let s := sendCtrlAll s.plofens (.nodeLost peer) s
    nodeLost peer (logEvent 0x0604 (s.portTo peer) none [peer] (bumpSat satErcNodeLost s))

/-- The meaning of `PROBE_TIMEOUT`. -/
def execProbeTimeout (peer : Nat) (s : State) : Host.Outcome State Fault Refusal :=
  run (decide (peer < 65536)) (probeTimeout peer s)

/-! ## Admission (R542, R543) -/

/-- The meaning of `JOIN` at the coordinator: the admission of a fenced chip waits for the next epoch. -/
def execJoin (src : Nat) (s : State) : Host.Outcome State Fault Refusal :=
  run (decide (src < 65536))
    (if s.img.isCoord then
       epochWork (setErc (fun e => { e with joins := if e.joins.contains src then e.joins else e.joins ++ [src] }) (heardFrom src s))
     else heardFrom src s)

/-- `ADMISSION_LOAD_DONE`: class 1 jobs and, where flash is fitted, the rebuild are complete. -/
def loadDone (s : State) : State :=
  if s.erc.admission = 3 ∧ (s.fitted capFLM = false ∨ s.flm.st = 3 ∨ s.flm.st = 4) then
    epochWork (setErc (fun e => { e with admission := 4 }) s)
  else s

/-- The meaning of `ADMISSION_LOAD_DONE`. -/
def execAdmissionLoadDone (s : State) : Host.Outcome State Fault Refusal := run true (loadDone s)

/-! ## Whole-die fences and slack (R540, R541, R547) -/

/-- The slack register of die `d`. -/
def State.slack (s : State) (d : Nat) : Slack := aget s.erc.slack d {}

/-- Whether what fenced an array die has cleared: for slack, a reading above 20 ps with the rail at its
voltage-table value; for anything else, what the management controller finds. -/
def State.dieCleared (s : State) (d : Nat) (found : Bool) : Bool :=
  if s.erc.adSlack.getD d false then
    (s.slack (5 + d)).valid && decide (20 < (s.slack (5 + d)).minPs) && decide ((aget s.pkg.avs d (0, 0)).1 = 0)
  else found

/-- An array, a Trimmer and a stack after the BIST or training of R541: one that passed loses its fence, one
that failed keeps it with cause 0x3. -/
def dieArray (failed : List Nat) (a : Nat) (s : State) : State :=
  modArr a (fun x => { x with fence := if failed.contains a then { on := true, cause := 3 } else {}, bist := none }) s
def dieTrimmer (failed : List Nat) (t : Nat) (s : State) : State :=
  if failed.contains t then modTrm t (fun x => { x with fence := { on := true, cause := 3 }, bist := false }) s
  else enterService t (modTrm t (fun x => { x with bist := false }) s)
def dieStack (failed : List Nat) (k : Nat) (s : State) : State :=
  let ok := !failed.contains k
  { s with tie := { s.tie with hbm := aset s.tie.hbm k { s.hbm k with trained := ok, fence := if ok then {} else { on := true, cause := 3 } } } }

/-- `ERC_DIE.UNFENCE`: the check, the tests of the die's units, the lifting. -/
def dieUnfence (plane : Plane) (d : Nat) (found : Bool) (failed failedT failedK : List Nat) (s : State) : Status × State :=
  if !s.erc.adFenced.getD d false then (.ok, s)
  else if !s.dieCleared d found then (.denied, s)
  else
    let s := setErc (fun e => { e with adFenced := e.adFenced.set d false, adSlack := e.adSlack.set d false }) s
    let s := forEach ((List.range 384).map (384 * d + ·)) (fun a s => if a < s.variant.arrays then dieArray failed a s else s) s
    let s := forEach ((List.range 32).map (32 * d + ·)) (fun t s => if t < s.variant.trimmers then dieTrimmer failedT t s else s) s
    let s := forEach [2 * d, 2 * d + 1] (fun k s => if k < s.variant.stacks then dieStack failedK k s else s) s
    (.ok, logAs plane 0x0202 (384 * d) none [0, 0] s)

/-- The meaning of `DIE_UNFENCE`. -/
def execDieUnfence (who : Who) (die : Nat) (causeCleared : Bool) (failed failedTrimmers failedStacks : List Nat) (s : State) :
    Host.Outcome State Fault Refusal :=
  run (who.wf && decide (die < 4)) (ctlWriteSt who 0x0070048 (fun s =>
    if liftsFence who then dieUnfence (planeOf who) die causeCleared failed failedTrimmers failedStacks s else (.denied, s)) s)

/-- One AVSBus step of 5 mV up on the rail of array die `d`, within its range of 800 mV (R571). -/
def raiseRail (d : Nat) (s : State) : State :=
  setPkg (fun p => { p with avs := amod p.avs d (0, 0) (fun v => if v.2 + 5 ≤ 800 then (v.1 + 1, v.2 + 5) else v) }) s

/-- The reading of one die. -/
def slackDie (d ps : Nat) (s : State) : State :=
  if !s.dieFitted d then s else
  let was := s.slack d
  let array := decide (5 ≤ d ∧ d < 9)
  let atMax := array && decide (800 < (aget s.pkg.avs (d - 5) (0, 0)).2 + 5)
  let s := setErc (fun e => { e with slack := aset e.slack d { valid := true, warn := decide (ps < 20), fail := decide (ps ≤ 8), minPs := ps % 65536 } }) s
  let s := if ps < 20 ∧ array = true then raiseRail (d - 5) s else s
  let s := if ps < 20 ∧ was.warn = false then logEvent 0x0903 d none [ps, (aget s.pkg.avs (d - 5) (0, 0)).1] s else s
  if ps ≤ 8 ∧ array = true ∧ atMax = true then
    let s := if was.fail && s.erc.adFenced.getD (d - 5) false then s else logEvent 0x0904 d none [ps] s
    let s := if s.erc.adFenced.getD (d - 5) false then s else setErc (fun e => { e with adSlack := e.adSlack.set (d - 5) true }) s
    fenceDie (d - 5) s
  else if ps ≤ 8 ∧ array = false ∧ was.fail = false then logEvent 0x0904 d none [ps] s
  else s

/-- `SLACK_READ`: every 2^20 MCLK cycles, by a running management controller; one minimum per die, in ps. -/
def slackRead (l : List Nat) (s : State) : State :=
  if s.arch.mp ≠ .run then s else
  forEach ((List.range (min 11 l.length)).map (fun d => (d, l.getD d 0))) (fun x s => slackDie x.1 x.2 s)
    (carry (s.nextMultiple (mclk (2 ^ 20))) s)

/-- The meaning of `SLACK_READ`. -/
def execSlackRead (l : List Nat) (s : State) : Host.Outcome State Fault Refusal := run true (slackRead l s)

/-! ## Memory units that report (R195, R220) -/

/-- The meaning of `DRAM_TRAINING_DONE`: with the last channel T3 enters service. -/
def execDramTrainingDone (c : Nat) (d : DramReport) (s : State) : Host.Outcome State Fault Refusal :=
  run (decide (c < 16)) (enterT3 (dramTrained c d s))

/-- The meaning of `MEMORY_CHANNEL_FENCE`. -/
def execMemoryChannelFence (who : Who) (u : MemUnit) (s : State) : Host.Outcome State Fault Refusal :=
  run (who.wf && u.wf)
    (match who with
     | .management => enterT3 (fenceMemory u 5 s)
     | .control => enterT3 (fenceMemory u 4 s)
     | _ => s)

/-! ## Fence signals (R20) -/

/-- The plane whose fence a cause names: 0x5 the management controller, 0x4 the control plane, any other the
unit itself. -/
def causePlane (cause : Nat) : Plane := if cause = 5 then .management else if cause = 4 then .control else .data

/-- A fence signal takes effect on its unit. -/
def fenceUnit (u : FenceUnit) (cause : Nat) (s : State) : State :=
  match u with
  | .array a => if a < s.variant.arrays then fenceArray a cause (causePlane cause) 0 s else s
  | .trimmer t => if t < s.variant.trimmers then fenceTrimmer t cause s else s
  | .pug n => fencePug n cause s
  | .codec e => fenceEngine e cause s
  | .gather e => fenceGather e cause s
  | .sieve e => fenceSieve e cause s
  | .port p => fencePort p cause s
  | .die d => if d < s.variant.arrayDies then fenceDie d s else s
  | .flashDie d => fenceFlashDie d 3 s
  | .memory m => enterT3 (fenceMemory m cause s)
  | .domain d => domainFence d cause true s
  | .composition c => fenceComposition c s

/-- The meaning of `FENCE_ARRIVAL`. -/
def execFenceArrival (unit : FenceUnit) (cause : Nat) (s : State) : Host.Outcome State Fault Refusal :=
  run (unit.wf && decide (cause < 16)) (fenceUnit unit cause s)

/-! ## The end of a control-core restart (R22) -/

/-- What waited resumes: domain fences, domains' re-formation, a commit held, the coordinator's work. -/
def cpUp (s : State) : State :=
  let s := switchDone 2 { s with arch := { s.arch with cp := .run } }
  let held := s.coh.heldFences
  let s := forEach held (fun x s => domainFence x.1 x.2.1 x.2.2 s) { s with coh := { s.coh with heldFences := [] } }
  let cleared := s.coh.heldCleared
  let s := forEach cleared (fun x s => directoryCleared x.1 x.2 s) { s with coh := { s.coh with heldCleared := [] } }
  match s.img.commitHeld with
  | some e => commitMsg e (setImg (fun m => { m with commitHeld := none }) s)
  | none => epochWork s

/-- The meaning of `CP_RESTART_END`. -/
def execCpRestartEnd (s : State) : Host.Outcome State Fault Refusal :=
  run true (if s.arch.cp = .restart then cpUp s else s)

/-! ## Changes forwarded to WD (R520) -/

/-- The meaning of `WITNESS_CHANGE`: WD's answer may let `READY` go out. -/
def execWitnessChange (c : WitnessChange) (s : State) : Host.Outcome State Fault Refusal :=
  run true (epochWork (wdChange c s))

end Sys2Proof.Machine
end

