-- ==== Sys2Proof/Machine/Jaesque.lean ====
section
/-! DEFINITION. The Jaesque host link (chapter 16): its states, the receiving half of frames, sessions and their
messages, and the relay of R456. -/

namespace Sys2Proof.Machine

/-! ## Link states (R440, R441, R446) -/

/-- The link leaves `UP`: the retry buffer is lost and every session over it ends. -/
def jqDown (s : State) : State :=
  let s := forEach ((s.jsl.sessions.filter (fun p => p.2.via.isNone)).map (·.1)) endSession (bumpSat satJslLinkDown s)
  setJsl (fun j => { j with
    lst := 0
    retry := []
    waiting := j.waiting.filter (fun x => x.via.isSome)
    handshakes := j.handshakes.filter (fun h => h.via.isSome)
    replayReq := none
    replayDeadline := none
    silence := none
    idle := none
    relayWait := []
    relayOut := [] }) s

/-- The meaning of `JQ_SIGNAL_DETECT`. -/
def execJqSignalDetect (s : State) : Host.Outcome State Fault Refusal :=
  run true (if s.jsl.lst = 0 && s.jsl.retryAt.isNone && s.log.up && !s.jsl.closing then
      setJsl (fun j => { j with lst := 1, deadline := some (s.now + sclk (2 ^ 26)) }) s else s)

/-- The meaning of `JQ_LOCK_DONE`. -/
def execJqLockDone (s : State) : Host.Outcome State Fault Refusal :=
  run true (if s.jsl.lst = 1 then setJsl (fun j => { j with lst := 2, deadline := some (s.now + sclk (2 ^ 20)) }) s else s)

/-- The payload of this chip's `INIT` frame: version, role 1, node, the credits it grants. -/
def State.initPayload (s : State) : List Byte :=
  natLe 1 2 ++ natLe 1 2 ++ natLe s.fab.node 2 ++ zeros 2 ++ natLe 16 1 ++ natLe 32 1 ++ natLe 2 1 ++ natLe 4 1 ++ zeros 20

/-- The meaning of `JQ_ALIGN_DONE`: an `INIT` frame goes. -/
def execJqAlignDone (s : State) : Host.Outcome State Fault Refusal :=
  run true (if s.jsl.lst = 2 then
      emit (.jq { ftype := 4, len := 32 } s.initPayload) (setJsl (fun j => { j with lst := 3, deadline := some (s.now + sclk (2 ^ 24)) }) s)
    else s)

/-- `INIT` with the version of this end: the link is `UP` with the credits both ends grant. -/
def jqInit (b : InitBody) (s : State) : State :=
  if s.jsl.lst = 3 ∧ b.lver = 1 then
    setJsl (fun j => { j with
      lst := 4
      deadline := none
      txSeq := 0
      rxSeq := 0
      ack := 0
      ackV := false
      crTot := (List.range 4).map (fun i => b.credits.getD i 0 % 256)
      crUsed := [0, 0, 0, 0]
      crRet := [16, 32, 2, 4]
      silence := some (s.now + sclk (2 ^ 16))
      idle := some (s.now + sclk (2 ^ 12)) }) s
  else s

/-- The meaning of `INIT`. -/
def execJqInit (body : InitBody) (s : State) : Host.Outcome State Fault Refusal := run true (jqInit body s)

/-- The meaning of `JQ_STATE_TIMEOUT`. -/
def execJqStateTimeout (s : State) : Host.Outcome State Fault Refusal :=
  run true (match s.jsl.deadline with
    | some d => let s := expire (sclk 1) d s
                setJsl (fun j => { j with lst := 0, deadline := none, retryAt := some (s.now + sclk (2 ^ 26)) }) s
    | none => s)

/-- The meaning of `JQ_RETRY_TIMER`: a new attempt starts. -/
def execJqRetryTimer (s : State) : Host.Outcome State Fault Refusal :=
  run true (match s.jsl.retryAt with
    | some d => let s := carry d s
                setJsl (fun j => { j with lst := 1, retryAt := none, deadline := some (s.now + sclk (2 ^ 26)) }) s
    | none => s)

/-! ## Receiving (R443 to R445) -/

/-- A frame sent is acknowledged: a record fragment counts, a relayed reply is answered to its chip (R456). -/
def sentAcked (x : JqSend) (s : State) : State :=
  let s := match x.record with
    | some g => if (s.jsl.records.find? (fun r => r.saggar = g)).map (·.sid) = some x.f.sid then ackRecord g s else s
    | none => s
  match x.reply with
  | some p => reply p .ok 0 [] s
  | none => s

/-- Acknowledgement up to a frame. -/
def jqAckUpTo (a : Nat) (s : State) : State :=
  let l := s.jsl.retry
  let i := l.findIdx (fun x => x.f.fseq = a)
  if i < l.length then forEach (l.take (i + 1)) sentAcked (setJsl (fun j => { j with retry := l.drop (i + 1) }) s) else s

/-- A frame whose CRC and reserved bits pass: the silence timer starts again, word 1 is taken. -/
def jqValid (f : JqFrame) (s : State) : State :=
  let s := setJsl (fun j => { j with
    silence := some (s.now + sclk (2 ^ 16))
    crTot := [f.crCsr, f.crBulk, f.crEvent, f.crRecord] }) s
  if f.ackV then jqAckUpTo f.ack s else s

/-- Ask for the expected frame, and again every 2^12 SCLK cycles. -/
def jqAsk (s : State) : State :=
  jqEmit { ftype := 3, fseq := s.jsl.rxSeq }
    [] (setJsl (fun j => { j with replayReq := some j.rxSeq, replayDeadline := some (s.now + sclk (2 ^ 12)) }) s)

/-- A frame in `UP` that is not sequenced. -/
def jqControl (f : JqFrame) (k : State → State) (s : State) : State :=
  if s.jsl.lst ≠ 4 then s
  else if !f.crcOk || decide (f.rsv ≠ 0) then bumpSat satJslCrc s
  else k (jqValid f s)

/-- The meaning of `JQ_IDLE_FRAME`. -/
def execJqIdleFrame (f : JqFrame) (s : State) : Host.Outcome State Fault Refusal := run (f.wf) (jqControl f id s)

/-- The frames from the one named are sent again, header word 0 and payload unchanged; the eighth resend of a
frame takes the link down (R444). -/
def jqResend (n : Nat) (s : State) : State :=
  let i := s.jsl.retry.findIdx (fun x => x.f.fseq = n)
  let l : List JqSend := (s.jsl.retry.drop i).map (fun (x : JqSend) => { x with resends := x.resends + 1 })
  if l.any (fun x => decide (8 ≤ x.resends)) then jqDown s
  else forEach l (fun x s => jqEmit x.f x.payload s) (setJsl (fun j => { j with retry := j.retry.take i ++ l }) s)

/-- The meaning of `JQ_REPLAY_REQ`. -/
def execJqReplayReq (f : JqFrame) (s : State) : Host.Outcome State Fault Refusal :=
  run (f.wf) (jqControl f (jqResend f.fseq) s)

/-- The meaning of `JQ_REPLAY_REPEAT`. -/
def execJqReplayRepeat (s : State) : Host.Outcome State Fault Refusal :=
  run true (match s.jsl.replayDeadline with | some d => jqAsk (expire (sclk 1) d s) | none => s)

/-- The meaning of `JQ_SILENCE_TIMEOUT`. -/
def execJqSilenceTimeout (s : State) : Host.Outcome State Fault Refusal :=
  run true (match s.jsl.silence with | some d => jqDown (expire (sclk 1) d s) | none => s)

/-! ## Relay (R456, R457) -/

/-- Frames to a target and class in the last 2^24 SCLK cycles not yet replied to. -/
def State.relayBusy (s : State) (k : Nat × Nat) : List Nat :=
  (aget s.jsl.relayOut k []).filter (fun t => decide (s.now < t + sclk (2 ^ 24)))

/-- The credit class of a sequenced frame. -/
def jqClass (f : JqFrame) : Nat := if f.ftype = 5 then 0 else f.mclass

/-- A credit returns to the sender. -/
def returnJq (c : Nat) (s : State) : State := setJsl (fun j => { j with crRet := bump256 j.crRet c }) s

/-- A relayed frame goes to its target as a TC7 `MGMT` train, or waits while the management controller restarts,
8 of its target and class are outstanding, or an earlier frame of its target and session waits. -/
def relayFrame (f : JqFrame) (s : State) : State :=
  let c := (f.tnode, jqClass f)
  if s.arch.mp ≠ .run || decide (8 ≤ (s.relayBusy c).length)
      || s.jsl.relayWait.any (fun g => g.tnode = f.tnode && g.sid = f.sid) then setJsl (fun j => { j with relayWait := j.relayWait ++ [f] }) s
  else
    let k := (f.tnode, f.sid, 0)
    let n := aget s.jsl.relayTx k 0
    let body := natLe n 8 ++ jqHeader f ++ f.payload
    sendOneWay { dst := f.tnode, opcode := opMGMT, cls := 7, length := body.length, payload := body }
      (returnJq (jqClass f) (setJsl (fun j => { j with
        relayTx := aset j.relayTx k ((n + 1) % 65536)
        relayOut := aset j.relayOut c (s.relayBusy c ++ [s.now]) }) s))

/-- Relayed frames that wait are tried again, in order. -/
def relayPump (s : State) : State :=
  forEach s.jsl.relayWait relayFrame (setJsl (fun j => { j with relayWait := [] }) s)

/-- The frames a message of `n` fragments takes, from its first: each carries up to 1,024 payload bytes (R448). -/
def framesFrom (n : Nat) (f : JqFrame) : List JqFrame :=
  if n ≤ 1 then [f]
  else (List.range n).map (fun i =>
    let b := sub f.payload (1024 * i) 1024
    { f with fseq := (f.fseq + i) % 256, len := b.length, payload := b })

/-- `n` sequenced frames on the link that carry one message: discarded with a `REPLAY_REQ` unless the first is the
next and their CRCs pass; frames for another chip are relayed, those for this chip give their credits back and the
message is taken by `k`. -/
def jqAcceptN (n : Nat) (f : JqFrame) (k : State → State) (s : State) : State :=
  if s.jsl.lst ≠ 4 then s
  else if !f.crcOk || decide (f.rsv ≠ 0) then jqAsk (bumpSat satJslCrc s)
  else
    let s := jqValid f s
    if f.fseq ≠ s.jsl.rxSeq then jqAsk s else
    let s := bumpCtr ctrJslRx n (setJsl (fun j => { j with
      rxSeq := (j.rxSeq + n) % 256
      ack := (j.rxSeq + n + 255) % 256
      ackV := true
      replayReq := none
      replayDeadline := none }) s)
    if f.tnode = 0xFFFF ∨ f.tnode = s.fab.node then relayPump (k (forEach (List.range n) (fun _ => returnJq (jqClass f)) s))
    else forEach (framesFrom n f) relayFrame (relayPump s)

/-- A sequenced frame on the link, by R444 and R445. -/
def jqAccept (f : JqFrame) (k : State → State) (s : State) : State := jqAcceptN 1 f k s

/-- The meaning of `JQ_IDLE_DUE`. -/
def execJqIdleDue (s : State) : Host.Outcome State Fault Refusal :=
  run true (match s.jsl.idle with
    | some d => if s.jsl.lst = 4 then relayPump (jqEmit { ftype := 2 } [] (carry d s)) else s
    | none => s)

/-! ## Handshake (R448, R503) -/

/-- The fragments of a handshake message, up to 1,016 bytes each. -/
def fragmentsOf (b : List Byte) : Nat := max 1 (ceilDiv b.length 1016)

/-- A handshake message in its fragments under `SID` 0. -/
def sendHandshake (via : Option Nat) (msg : Nat) (body : List Byte) (s : State) : State :=
  let n := fragmentsOf body
  forEach (List.range n) (fun i s =>
    let pl := natLe (msg + i * 2 ^ 8 + n * 2 ^ 16) 8 ++ pad8 (sub body (1016 * i) 1016)
    jqQueue { f := { ftype := 5, len := pl.length }, payload := pl, via := via } s) s

/-- `REFUSE` with a status. -/
def refuseSession (via : Option Nat) (st : Status) (s : State) : State := sendHandshake via 6 (natLe st.code 2) s

/-- The bytes of a HELLO message. -/
def helloBytes (h : HelloMsg) : List Byte := fit h.nonce 32 ++ natLe h.role 1 ++ fit h.keyDigest 32 ++ fit h.mlkemKey 1568

/-- The slot a HELLO names: an enrolled key of its role. -/
def State.helloSlot (s : State) (h : HelloMsg) : Option Nat :=
  (List.range s.sec.enrolled.length).find? (fun i => match s.sec.enrolled[i]? with
    | some k => decide (1 ≤ h.role ∧ h.role ≤ 2) && decide (k.role = h.role) && decide (digest k.key = h.keyDigest)
    | none => false)

/-- An unclaimed device with the claim pin asserted takes one claim session: role operator, no enrolled key. -/
def State.claims (s : State) (h : HelloMsg) : Bool :=
  !s.sec.claimed && s.sec.claimPin && decide (h.role = 1) && (s.helloSlot h).isNone
    && !s.jsl.sessions.any (fun p => p.2.claim)

/-- HELLO: answered by REPLY, or refused. -/
def helloMsg (via : Option Nat) (h : HelloMsg) (s : State) : State :=
  if s.arch.mp ≠ .run ∨ 7 ≤ s.jsl.sessions.length ∨ s.jsl.closing = true then refuseSession via .nackRetry s
  else
    let slot := s.helloSlot h
    if slot.isNone && !s.claims h then refuseSession via .denied s
    else if via.isSome && decide (h.role = 2) && !s.sec.tenantRelay then refuseSession via .denied s
    else
      match drawRandom 64 s with
      | (rnd, s) =>
        let kem := Config.mlkemEncaps (fit h.mlkemKey 1568) (rnd.drop 32)
        let body := rnd.take 32 ++ fit kem.1 1568 ++ Config.deviceCert
        let h1 := digest (helloBytes h ++ body)
        let reply := body ++ fit (Config.falconSign Config.deviceKey (ascii "JQ-DEV" ++ h1)) 1280
        let hs : Handshake := { via := via, hello := h, transcript := helloBytes h ++ reply, secret := kem.2, claim := slot.isNone, slot := slot.getD 0 }
        sendHandshake via 2 reply (setJsl (fun j => { j with handshakes := j.handshakes.filter (fun x => x.via ≠ via) ++ [hs] }) s)

/-- The lowest session number not open. -/
def State.freeSid (s : State) : Option Nat := [1, 2, 3, 4, 5, 6, 7].find? (fun i => !ahas s.jsl.sessions i)

/-- The public key a handshake's PROOF must verify under, where the device knows it: the enrolled key; of a claim
session the key its image is to enrol, known only by digest. -/
def State.proofOk (s : State) (h : Handshake) (sig : List Byte) : Bool :=
  let h1 := digest (h.transcript.take (h.transcript.length - 1280))
  let msg := ascii "JQ-HOST" ++ h1
  if h.claim then Config.claimVerify h.hello.keyDigest msg sig
  else match s.sec.enrolled[h.slot]? with
    | some k => Config.falconVerify k.key msg sig
    | none => false

/-- PROOF: the session opens with DONE, or is refused. -/
def proofMsg (via : Option Nat) (sig : List Byte) (s : State) : State :=
  match s.jsl.handshakes.find? (fun h => h.via = via) with
  | none => s
  | some h =>
    let s := setJsl (fun j => { j with handshakes := j.handshakes.filter (fun x => x.via ≠ via) }) s
    match s.freeSid with
    | none => refuseSession via .nackRetry s
    | some sid =>
      if s.arch.mp ≠ .run then refuseSession via .nackRetry s
      else if !s.proofOk h sig then refuseSession via .denied s
      else
        let keys := shake256 (h.secret ++ digest (h.transcript ++ sig)) 64
        let x : Session := { role := h.hello.role, claim := h.claim, claimKey := if h.claim then h.hello.keyDigest else [], keySlot := h.slot, via := via, keyRx := keys.take 32, keyTx := keys.drop 32,
                             mask := match s.sec.enrolled[h.slot]? with | some k => if h.hello.role = 2 then k.mask else 0 | none => 0 }
        sendHandshake via 4 (natLe sid 8 ++ natLe (2 ^ 32) 8) (setJsl (fun j => { j with sessions := aset j.sessions sid x }) s)

/-- An unprotected handshake message of `n` frames under `SID` 0. -/
def jqOpen (n : Nat) (f : JqFrame) (k : State → State) (s : State) : State :=
  jqAcceptN n f (fun s => if f.sid = 0 ∧ f.prot = false ∧ f.ftype = 5 then k s else s) s

/-- The meaning of `HELLO`. -/
def execHello (f : JqFrame) (h : HelloMsg) (s : State) : Host.Outcome State Fault Refusal := 
  run (f.wf) (jqOpen (fragmentsOf (helloBytes h)) f (helloMsg none h) s)

/-- The meaning of `PROOF`. -/
def execProof (f : JqFrame) (sig : List Byte) (s : State) : Host.Outcome State Fault Refusal := 
  run (f.wf) (jqOpen (fragmentsOf sig) f (proofMsg none sig) s)

/-! ## Protected frames (R449) -/

/-- A frame whose tag fails ends its session. -/
def authFail (sid : Nat) (x : Session) (s : State) : State :=
  endSession sid (logEvent 0x0801 sid none [sid, x.via.getD 0xFFFF] (bumpSat satJslAuthFail s))

/-- A protected frame of an open session, from the way the session came by; its counter rises, and the session
ends at 2^32 frames. -/
def opened (via : Option Nat) (f : JqFrame) (k : Session → State → State) (s : State) : State :=
  match afind s.jsl.sessions f.sid with
  | none => s
  | some x =>
    if !f.prot || decide (x.via ≠ via) then s
    else if !f.tagOk then authFail f.sid x s
    else
      let s := k x (setJsl (fun j => { j with sessions := aset j.sessions f.sid { x with ctrRx := x.ctrRx + 1 } }) s)
      if 2 ^ 32 ≤ x.ctrRx + 1 then endSession f.sid s else s

/-- The meaning of `SESSION_CLOSE`. -/
def execSessionClose (f : JqFrame) (s : State) : Host.Outcome State Fault Refusal :=
  run (f.wf) (jqAccept f (fun s => if f.ftype = 5 then opened none f (fun _ s => endSession f.sid s) s else s) s)

/-! ## CSR messages (R452) -/

/-- A CSR response: operation, words completed, tag, status, address, words. -/
def csrResponse (via : Option Nat) (sid op count tag : Nat) (st : Status) (addr : Nat) (words : List Nat) (s : State) : State :=
  jqQueue (jqMsg via sid 0 (op + count * 2 ^ 8 + tag * 2 ^ 16 + st.code * 2 ^ 32) addr (words.flatMap (fun w => natLe w 4))) s

/-- Words read in order; the first refused one ends the request. -/
def readWords (who : Who) : Nat → Nat → State → List Nat × Status × State
  | 0, _, s => ([], .ok, s)
  | n + 1, a, s =>
    match csrRead who a s with
    | (.ok, w, s) => match readWords who n (a + 4) s with | (ws, st, s) => (w :: ws, st, s)
    | (st, _, s) => ([], st, s)

/-- A CSR READ of a requester. -/
def csrReadMsg (via : Option Nat) (sid : Nat) (who : Who) (count tag addr : Nat) (s : State) : State :=
  if count = 0 ∨ 248 < count then csrResponse via sid 0x81 0 tag .denied addr [] s
  else match readWords who count addr s with
    | (ws, st, s) => csrResponse via sid 0x81 ws.length tag st addr ws s

/-- A CSR READ under `SID` 0: words of the ID/CAP block only (R447). -/
def plainCsrRead (via : Option Nat) (count tag addr : Nat) (s : State) : State :=
  if addr + 4 * count ≤ 0x0010000 then csrReadMsg via 0 (.operator 0) count tag addr s
  else csrResponse via 0 0x81 0 tag .denied addr [] s

/-- The meaning of `JQ_CSR_READ`. -/
def execJqCsrRead (f : JqFrame) (count tag addr : Nat) (s : State) : Host.Outcome State Fault Refusal :=
  run (f.wf && decide (count < 256) && decide (tag < 65536) && decide (addr < 2 ^ 40))
    (jqAccept f (fun s =>
      if f.ftype ≠ 1 ∨ f.mclass ≠ 0 then s
      else if f.sid = 0 then (if f.prot then s else plainCsrRead none count tag addr s)
      else opened none f (fun x s => csrReadMsg none f.sid (x.who f.sid) count tag addr s) s) s)

/-! ## BULK (R453) -/

/-- A BULK response. -/
def bulkResponse (via : Option Nat) (sid op kind xfer : Nat) (st : Status) (w1 : Nat) (s : State) : State :=
  jqQueue (jqMsg via sid 1 (op + kind * 2 ^ 8 + xfer * 2 ^ 16 + st.code * 2 ^ 32) w1 []) s

/-- BEGIN: at most four transfers, not from a tenant; a claim session sends an image only; before T3 is in service
one image transfer, in cells of the switch buffer charged to no saggar (R586). -/
def bulkBegin (via : Option Nat) (sid kind xfer total : Nat) (x : Session) (s : State) : State :=
  let key := sid * 65536 + xfer
  let st : Status :=
    if x.role ≠ 1 ∨ 1 < kind ∨ 2 ^ 30 < total ∨ ahas s.jsl.bulks key = true ∨ (x.claim = true ∧ kind ≠ 0) then .denied
    else if 4 ≤ s.jsl.bulks.length ∨ s.jsl.closing = true then .nackRetry
    else if s.t3Up then .ok
    else if kind = 1 ∨ s.jsl.bulks.any (fun b => b.2.inBuf) = true ∨ s.poolFree < 32 * 4096 then .nackRetry else .ok
  let s := if st = .ok then setJsl (fun j => { j with bulks := aset j.bulks key { sid := sid, kind := kind, total := total, inBuf := !s.t3Up } }) s else s
  bulkResponse via sid 0x90 kind xfer st total s

/-- DATA: bytes placed at their offset, in any order. -/
def bulkData (sid xfer offset : Nat) (data : List Byte) (s : State) : State :=
  let key := sid * 65536 + xfer
  match afind s.jsl.bulks key with
  | none => s
  | some b => if b.total < offset + data.length then s
    else setJsl (fun j => { j with bulks := aset j.bulks key { b with bytes := b.bytes ++ [(offset, data)] } }) s

/-- The object of a transfer, where no byte is missing; a byte sent twice is the later one. -/
def Bulk.whole (b : Bulk) : Option (List Byte) :=
  let buf := b.bytes.foldl (fun (l : List (Option Byte)) p => (l.take p.1 ++ p.2.map some ++ l.drop (p.1 + p.2.length)).take b.total)
    (List.replicate b.total none)
  if buf.all (·.isSome) then some (buf.filterMap id) else none

/-- A firmware package of a transfer: a Witness package goes to WD where a change record has approved it (R521), any
other is stored where it passes (R544). -/
def firmwareEnd (p : List Byte) (s : State) : Status × State :=
  if s.arch.mp ≠ .run then (.nackRetry, s)
  else if le p 4 1 = 4 then
    if s.sec.wfwApproved = some (digest p) then
      (.ok, emit (.toWdPackage p) { s with sec := { s.sec with wfwApproved := none } })
    else (.denied, s)
  else if packageOk p s then (.ok, storePackage p s) else (.denied, s)

/-- The key digest a claim session's handshake named is that of the operator slot its image enrols: the source of
its image. -/
def Session.source (x : Session) : ImageSource := if x.claim then .claim x.claimKey else .bulk

/-- END: the object passes to its plane, whose outcome is answered. -/
def bulkEnd (via : Option Nat) (sid xfer : Nat) (dg : List Byte) (x : Session) (s : State) : State :=
  let key := sid * 65536 + xfer
  match afind s.jsl.bulks key with
  | none => bulkResponse via sid 0x92 0 xfer .denied 0 s
  | some b =>
    let out : Status × State := match b.whole with
      | some file =>
        if digest file ≠ dg then (.denied, s)
        else if b.kind = 1 then firmwareEnd file s
        else if x.claim ∧ (s.sec.claimPin = false ∨ s.sec.claimed = true ∨ (parseImage file).1.kind ≠ 0 ∨ 2 ^ 64 - 1 ≤ s.sec.arb.getD 5 0) then imageDenied file s
        else if !x.claim ∧ s.sec.claimed = false then imageDenied file s
        else imageEnd file x.source (setJsl (fun j => { j with bulks := aset j.bulks key { b with inBuf := false } }) s)
      | none => (.denied, s)
    match out with
    | (st, s) =>
      let s := if st = .nackRetry then setJsl (fun j => { j with bulks := aset j.bulks key b }) s else setJsl (fun j => { j with bulks := aerase j.bulks key }) s
      bulkResponse via sid 0x92 b.kind xfer st 0 s

/-- A BULK frame of an open session on the link. -/
def bulkFrame (f : JqFrame) (k : Session → State → State) (s : State) : State :=
  jqAccept f (fun s => if f.ftype = 1 ∧ f.mclass = 1 then opened none f k s else s) s

/-- The meaning of `BULK_BEGIN`. -/
def execBulkBegin (f : JqFrame) (kind xfer total : Nat) (s : State) : Host.Outcome State Fault Refusal :=
  run (f.wf && decide (kind < 256) && decide (xfer < 65536) && decide (total < 2 ^ 32)) (bulkFrame f (bulkBegin none f.sid kind xfer total) s)

/-- The meaning of `BULK_DATA`. -/
def execBulkData (f : JqFrame) (xfer offset : Nat) (data : List Byte) (s : State) : Host.Outcome State Fault Refusal :=
  run (f.wf && decide (xfer < 65536) && decide (offset < 2 ^ 32)) (bulkFrame f (fun _ => bulkData f.sid xfer offset data) s)

/-- The meaning of `BULK_END`. -/
def execBulkEnd (f : JqFrame) (xfer : Nat) (dg : List Byte) (s : State) : Host.Outcome State Fault Refusal :=
  run (f.wf && decide (xfer < 65536)) (bulkFrame f (bulkEnd none f.sid xfer dg) s)

/-! ## Subscriptions, Witness reads, records (R454, R455, R524) -/

/-- SUBSCRIBE; a claim session has no part in it. -/
def subscribe (sid : Nat) (enable : Bool) (minSev : Nat) (x : Session) (s : State) : State :=
  if x.claim then s
  else setJsl (fun j => { j with sessions := amod j.sessions sid {} (fun y => { y with
    subscribed := enable
    minSev := minSev
    events := if enable then y.events else [] }) }) s

/-- The meaning of `SUBSCRIBE`. -/
def execSubscribe (f : JqFrame) (enable : Bool) (minSev : Nat) (s : State) : Host.Outcome State Fault Refusal :=
  run (f.wf && decide (minSev < 16)) (jqAccept f (fun s =>
    if f.ftype = 1 ∧ f.mclass = 2 then opened none f (subscribe f.sid enable minSev) s else s) s)

/-- A Witness object to a session, in fragments. -/
def sendWitness (via : Option Nat) (sid g tag : Nat) (obj : List Byte) (s : State) : State :=
  let n := max 1 (ceilDiv obj.length 992)
  forEach (List.range n) (fun i s => jqQueue (jqMsg via sid 3 (0x32 + g * 2 ^ 8 + i * 2 ^ 16 + n * 2 ^ 32) tag (sub obj (992 * i) 992)) s) s

/-- WITNESS_READ on the Jaesque path: an operator session names any saggar, a tenant session its own. -/
def witnessRead (via : Option Nat) (sid g tag : Nat) (x : Session) (s : State) : State :=
  if x.claim || (decide (x.role = 2) && !bit x.mask g) then s else
  match witRead 0 g tag sid s with
  | (objs, s) => forEach objs (fun o s => sendWitness via sid g tag o s) s

/-- The meaning of `WITNESS_READ`. -/
def execWitnessRead (f : JqFrame) (g tag : Nat) (s : State) : Host.Outcome State Fault Refusal :=
  run (f.wf && decide (g < 64) && decide (tag < 2 ^ 64)) (jqAccept f (fun s =>
    if f.ftype = 1 ∧ f.mclass = 3 then opened none f (witnessRead none f.sid g tag) s else s) s)

/-- `HELD_READ_RELEASE`: the oldest read held on a path whose saggar was answered 1,024 ticks ago or earlier. -/
def heldRelease (path : Nat) (s : State) : State :=
  match s.wd.held.find? (fun h => h.1 = path) with
  | none => s
  | some h =>
    let g := h.2.1
    if s.readWaits path g || !s.wdUp then s else
    let s := setWd (fun w => { w with held := w.held.erase h, lastRead := aset w.lastRead (path, g) w.ticks }) s
    let o := s.witObject g h.2.2.1
    if path = 1 then emit (.mport o) s
    else match afind s.jsl.sessions h.2.2.2 with
      | some x => sendWitness x.via h.2.2.2 g h.2.2.1 o s
      | none => s

/-- The meaning of `HELD_READ_RELEASE`. -/
def execHeldReadRelease (path : Nat) (s : State) : Host.Outcome State Fault Refusal :=
  run (decide (path < 65536)) (heldRelease path s)

/-- `RECORD_ACK`: every fragment of the saggar's first record is acknowledged, and it leaves the ring. -/
def recordAck (g : Nat) (s : State) : State :=
  let i := s.jsl.records.findIdx (fun r => r.saggar = g)
  match s.jsl.records[i]? with
  | some r => if r.delivered then setJsl (fun j => { j with records := j.records.eraseIdx i }) s else s
  | none => s

/-- The meaning of `RECORD_ACK`. -/
def execRecordAck (g : Nat) (s : State) : Host.Outcome State Fault Refusal := run (decide (g < 64)) (recordAck g s)

/-- `RELAY_GAP_TIMEOUT`: the missing frame has not come; the session ends and the frames held ahead come next. -/
def relayGap (sid : Nat) (s : State) : State :=
  match afind s.jsl.relayDeadline sid with
  | none => s
  | some d =>
    let s := bumpSat satJslRelayLost (expire (sclk 1) d s)
    let s := setJsl (fun j => { j with
      relayDeadline := aerase j.relayDeadline sid
      relayRx := j.relayRx.map (fun (p : (Nat × Nat × Nat) × Nat) =>
        match aget j.relayHeld p.1 [] with
        | [] => p
        | l => if p.1.2.1 = sid ∧ p.1.2.2 = 0 then (p.1, (p.2 + l.foldl (fun m x => max m ((x.1 + 65536 - p.2) % 65536)) 0 + 1) % 65536) else p)
      relayHeld := j.relayHeld.filter (fun p => ¬ (p.1.2.1 = sid ∧ p.1.2.2 = 0)) }) s
    endSession sid s

/-- The meaning of `RELAY_GAP_TIMEOUT`. -/
def execRelayGapTimeout (sid : Nat) (s : State) : Host.Outcome State Fault Refusal :=
  run (decide (sid < 8)) (relayGap sid s)

end Sys2Proof.Machine
end

