-- ==== Sys2Proof/Machine/Security.lean ====
section
/-! DEFINITION. Confidentiality and dual control (chapter 18): attestation and key release (R494 to R496), change
records (R507, R508) and the claim pin (R503). -/

namespace Sys2Proof.Machine

def modSag (g : Nat) (f : SagSec → SagSec) (s : State) : State := { s with sag := amod s.sag g {} f }
def setSec (f : Sec → Sec) (s : State) : State := { s with sec := f s.sec }

/-! ## `SAG_CTRL` (R494 to R496) -/

/-- The key slot of a saggar's protection record (R505). -/
def State.keySlotOf (s : State) (g : Nat) : Option Nat :=
  ((protRecs (s.sysBody tyPROTECTION)).find? (fun r => r.1 = g)).map (·.2.1)

/-- Whether a requester is a tenant session holding the saggar's key slot. -/
def State.holdsKeySlot (s : State) (who : Who) (g : Nat) : Bool :=
  match who with
  | .tenant sid => (match afind s.jsl.sessions sid with
      | some x => x.role = 2 && s.keySlotOf g = some x.keySlot
      | none => false)
  | _ => false

/-- A write of one bit of `SAG_CTRL`: denied to anyone else, `NACK_RETRY` while the management controller restarts. -/
def sagCtrl (who : Who) (g : Nat) (f : State → State) (s : State) : State :=
  ctlWriteSt who (sagPage g + 4) (fun s =>
    if !s.holdsKeySlot who g then (.denied, s)
    else if s.arch.mp = .restart then (.nackRetry, s)
    else (.ok, f s)) s

/-- `ATTEST` begins: any earlier ephemeral key is erased. -/
def attest (g : Nat) (s : State) : State :=
  modSag g (fun x => { x with attesting := true, evidence := false, ephemeral := none, ephemeralDeadline := none }) s

/-- The meaning of `ATTEST`. -/
def execAttest (who : Who) (g : Nat) (s : State) : Host.Outcome State Fault Refusal :=
  run (who.wf && decide (g < 64)) (sagCtrl who g (attest g) s)

/-- The signed part of the evidence, 1,888 bytes. -/
def State.evidence (s : State) (g : Nat) (nonce ek : List Byte) : List Byte :=
  natLe 0x56545441 4 ++ natLe 1 2 ++ natLe (g + 64 * b2n (s.sagConf g) + 128 * b2n (!s.sec.debugOn)) 1 ++ natLe (s.acvOf g) 1
    ++ natLe s.img.cur.serial 8 ++ fit nonce 32 ++ digest Config.deviceKey
    ++ [1, 2, 3].flatMap (fun k => digest (s.fw k).inForce.2)
    ++ digest (s.sysBody tyPROTECTION) ++ digest (s.nodeBody tySAGMAP) ++ s.modelDigest g ++ fit s.img.dig 32 ++ zeros 16
    ++ fit ek 1568

/-- `ATTEST_DONE`: the evidence is in the window, and the ephemeral key lives 2^`ATT_TTL_EXP` MCLK cycles. -/
def attestDone (g : Nat) (s : State) : State :=
  if !(aget s.sag g {}).attesting || s.arch.mp = .restart then s else
  match drawRandom 64 s with
  | (rnd, s) =>
    let kp := Config.mlkemKeyGen rnd
    let body := s.evidence g (sub (aget s.sag g {}).window 0 32) kp.1
    let ev := body ++ fit (Config.falconSign Config.deviceKey (ascii "PLF-ATT" ++ body)) 1280
    modSag g (fun x => { x with
      attesting := false
      evidence := true
      window := overlay x.window 0 ev
      evidenceBytes := ev
      ephemeral := some kp.2
      ephemeralDeadline := some (s.now + mclk (2 ^ s.sec.ttlExp)) }) s

/-- The meaning of `ATTEST_DONE`. -/
def execAttestDone (g : Nat) (s : State) : Host.Outcome State Fault Refusal := run (decide (g < 64)) (attestDone g s)

/-- The ephemeral key is erased. -/
def SagSec.eraseEphemeral (x : SagSec) : SagSec := { x with ephemeral := none, ephemeralDeadline := none, evidence := false }

/-- `KEY_LOAD` begins; a key that has expired is gone. -/
def keyLoad (g : Nat) (s : State) : State :=
  modSag g (fun x => match x.ephemeralDeadline with
    | some d => if d < s.now then { x.eraseEphemeral with loading := true } else { x with loading := true }
    | none => { x with loading := true }) s

/-- The meaning of `KEY_LOAD`. -/
def execKeyLoad (who : Who) (g : Nat) (s : State) : Host.Outcome State Fault Refusal :=
  run (who.wf && decide (g < 64)) (sagCtrl who g (keyLoad g) s)

/-- The weight key the window releases: decapsulated and unwrapped under the key derived from the secret and the
evidence; none without an ephemeral key or where the tag fails (R495). -/
def SagSec.releasedKey (x : SagSec) : Option (List Byte) :=
  match x.ephemeral with
  | none => none
  | some dk =>
    let ss := Config.mlkemDecaps dk (sub x.window 0 1568)
    let k := digest (ascii "PLF-KEY" ++ ss ++ digest x.evidenceBytes)
    Config.gcmOpen k (zeros 12) [] (sub x.window 1568 64) (sub x.window 1632 16)

/-- `KEY_LOAD_DONE`: the key is installed, or the load fails and is counted; the ephemeral key goes. -/
def keyLoadDone (g : Nat) (s : State) : State :=
  let x := aget s.sag g {}
  if !x.loading || s.arch.mp = .restart then s else
  let y := { x.eraseEphemeral with loading := false }
  match x.releasedKey with
  | some k => modSag g (fun _ => { y with key := 1, weightKey := some k }) s
  | none => bumpSat satSecKeyFail (modSag g (fun _ => { y with key := 2 }) s)

/-- The meaning of `KEY_LOAD_DONE`. -/
def execKeyLoadDone (g : Nat) (s : State) : Host.Outcome State Fault Refusal := run (decide (g < 64)) (keyLoadDone g s)

/-- The meaning of `KEY_ERASE`: the weight key is erased. -/
def execKeyErase (who : Who) (g : Nat) (s : State) : Host.Outcome State Fault Refusal :=
  run (who.wf && decide (g < 64)) (sagCtrl who g (modSag g (fun x => { x with key := 0, weightKey := none, reattestDue := false })) s)

/-- `EPHEMERAL_KEY_EXPIRY`: a load begun before the expiry goes on (R26). -/
def ephemeralExpiry (g : Nat) (s : State) : State :=
  match (aget s.sag g {}).ephemeralDeadline with
  | some d => if (aget s.sag g {}).loading then carry d s else modSag g SagSec.eraseEphemeral (carry d s)
  | none => s

/-- The meaning of `EPHEMERAL_KEY_EXPIRY`. -/
def execEphemeralKeyExpiry (g : Nat) (s : State) : Host.Outcome State Fault Refusal := run (decide (g < 64)) (ephemeralExpiry g s)

/-! ## Change records (R507, R508) -/

def dcOp (r : List Byte) : Nat := le r 6 1
def dcSeq (r : List Byte) : Nat := le r 8 8

/-- Entries of `DC_WRITE`: address, value, mask. -/
def dcEntries (r : List Byte) : List (Nat × Nat × Nat) :=
  (List.range (dcArgLen r / 16)).map (fun i =>
    let e := 64 + 16 * i
    (bits (le r e 8) 0 40, le r (e + 8) 4, le r (e + 12) 4))

/-- The two entries of the signature block: key digest and signature. -/
def dcSigners (b : List Byte) : List (List Byte × List Byte) := [0, 1].map (fun i => (sub b (8 + 1312 * i) 32, sub b (40 + 1312 * i) 1280))

/-- The argument length fits the operation. -/
def dcLenOk (r : List Byte) : Bool :=
  let n := dcArgLen r
  match dcOp r with
  | 1 => decide (16 ≤ n ∧ n ≤ 3968 ∧ n % 16 = 0)
  | 2 => n = 0
  | 3 => n = 32
  | 4 => n = 0
  | _ => false

/-- Check 1: the record's form and the count of signatures. -/
def dcForm (r b : List Byte) : Bool :=
  (le r 0 4 = 0x52434344) && (le r 4 2 = 1) && (le r 7 1 = 0) && (sub r 52 12).all (· = 0) && dcLenOk r && (le b 0 8 = 2)

/-- The enrolled authority slot a digest names. -/
def State.authority (s : State) (dg : List Byte) : Option Nat :=
  (List.range s.sec.enrolled.length).find? (fun i => match s.sec.enrolled[i]? with
    | some k => k.role = 3 && digest k.key = dg
    | none => false)

/-- The fields with a DC access code: `TENANT_RELAY` and `ATT_TTL_EXP` of `SEC_POLICY`. -/
def dcField (e : Nat × Nat × Nat) : Bool := decide (e.1 = 0x0040010) && decide (e.2.2 &&& 0x13F = e.2.2)

/-- The staged image changes a `PROT` section. -/
def State.stagedProt (s : State) : Bool :=
  match s.img.shadow with
  | some im => im.sections.any (fun c => c.prot && sectionChanged s.img.cur im c.ty c.node c.saggar c.comp)
  | none => false

/-- The cause of R508 for a record and signature block; 0 where it is applied. -/
def State.dcCause (s : State) (r b : List Byte) : Nat :=
  let sg := dcSigners b
  let slots := sg.map (fun x => s.authority x.1)
  let okSig := sg.all (fun x => match (s.authority x.1).bind (fun i => s.sec.enrolled[i]?) with
    | some k => Config.falconVerify k.key (dcMessage r) x.2
    | none => false)
  if !dcForm r b then 1
  else if sub r 16 32 ≠ digest Config.deviceKey then 2
  else if dcSeq r ≠ s.sec.arb.getD 1 0 + 1 then 3
  else if slots.any Option.isNone || decide (slots.getD 0 none = slots.getD 1 none) then 4
  else if !okSig then 5
  else if (dcOp r = 1 ∧ (dcEntries r).all dcField = false) ∨ (dcOp r ≠ 4 ∧ s.sec.claimed = false)
      ∨ (dcOp r = 4 ∧ 2 ^ 64 - 1 ≤ s.sec.arb.getD 5 0) then 6
  else if s.arch.mp = .restart ∨ s.stagedProt = true then 7
  else 0

/-- One entry of `DC_WRITE`: the masked bits of the two fields; a life outside 30 to 40 leaves that field. -/
def dcWriteEntry (e : Nat × Nat × Nat) (s : State) : State :=
  let v := e.2.1
  let m := e.2.2
  setSec (fun c =>
    let n := (c.ttlExp &&& (0x3F - bits m 0 6)) + (bits v 0 6 &&& bits m 0 6)
    { c with
      tenantRelay := if bit m 8 then bit v 8 else c.tenantRelay
      ttlExp := if bits m 0 6 ≠ 0 ∧ 30 ≤ n ∧ n ≤ 40 then n else c.ttlExp }) s

/-- `RELEASE`: the saggars end by R486, sessions end, the ownership record and the stored image are erased, counter
5 is raised, and WD is told. -/
def releaseDevice (r b : List Byte) (s : State) : State :=
  let gs := (List.range 64).filter (fun g => g ≠ 0 && s.sagExists g)
  let s := forEach gs sealGroup s
  let s := forEach gs deleteRegionsOf s
  let trims := gs.flatMap s.trimmersOf
  let s := forEach gs (fun g s => dropStaged g (clearShelf g (forEach ((List.range 1536).filter (recArray (s.sagRec g))) zeroArray s))) s
  let s := forEach gs forgetSaggar s
  let s := forEach (s.jsl.sessions.map (·.1)) endSession s
  let s := setJsl (fun j => { j with handshakes := [] }) s
  let s := setImg (fun m => { m with
    cur := { m.cur with sections := m.cur.sections.filter (fun c => c.ty ≠ tySAGMAP) }
    nvA := none
    nvB := none
    nvValid := false
    nvCopyB := false }) s
  -- order 4 of R122: a Trimmer of no saggar holds no program
  let s := forEach trims loadProgram s
  let s := raiseArb 5 (s.sec.arb.getD 5 0 + 1) (setSec (fun c => { c with claimed := false, enrolled := [] }) s)
  emit (.toWd (.release r (dcSigners b))) s

/-- The effect of an operation. -/
def dcApply (r b : List Byte) (s : State) : State :=
  match dcOp r with
  | 1 => forEach (dcEntries r) dcWriteEntry s
  | 2 => clearLog (dcSeq r) s
  | 3 => emit (.toWd (.firmwareApproval r (dcSigners b))) (setSec (fun c => { c with wfwApproved := some (sub r 64 32) }) s)
  | 4 => releaseDevice r b s
  | _ => s

/-- `DC_SUBMIT`: the checks in order, the outcome in `SEC_DC_STATUS`, the change with its event. -/
def dcSubmit (s : State) : State :=
  let r := s.sec.record
  let b := s.sec.sigBlock
  let cause := s.dcCause r b
  let st : Status := if cause = 0 then .ok else if cause = 7 then .nackRetry else .denied
  let s := setSec (fun c => { c with dcStatus := st.code, dcCause := cause, dcSeqLow := dcSeq r % 2 ^ 24 }) s
  if cause = 0 then
    let slots := (dcSigners b).map (fun x => (s.authority x.1).getD 0)
    logEvent 0x0805 0 none [dcOp r, dcSeq r, slots.getD 0 0, slots.getD 1 0] (dcApply r b (raiseArb 1 (dcSeq r) s))
  else bumpSat satSecDcRefused s

/-- The submission of a record of operation `op`; with a record of another operation in the window, it is not
this command. -/
def submitOp (op : Nat) (who : Who) (s : State) : State :=
  let o := dcOp s.sec.record
  if o ≠ op ∧ 1 ≤ o ∧ o ≤ 4 then s else ctlWrite who 0x0040004 true dcSubmit s

/-- The meaning of `DC_WRITE`. -/
def execDcWrite (who : Who) (s : State) : Host.Outcome State Fault Refusal := run (who.wf) (submitOp 1 who s)

/-- The meaning of `LOG_CLEAR`. -/
def execLogClear (who : Who) (s : State) : Host.Outcome State Fault Refusal := run (who.wf) (submitOp 2 who s)

/-- The meaning of `WITNESS_FW`. -/
def execWitnessFw (who : Who) (s : State) : Host.Outcome State Fault Refusal := run (who.wf) (submitOp 3 who s)

/-- The meaning of `RELEASE`. -/
def execRelease (who : Who) (s : State) : Host.Outcome State Fault Refusal := run (who.wf) (submitOp 4 who s)

/-! ## The claim pin (R503, R569) -/

/-- `CLAIM_ASSERTED`: on a claimed device only the event follows. -/
def claimAsserted (s : State) : State :=
  if s.sec.claimPin then s else
  let s := setSec (fun c => { c with claimPin := true }) s
  if s.sec.claimed then logEvent 0x0804 0 none [] s else s

/-- The meaning of `CLAIM_ASSERTED`. -/
def execClaimAsserted (s : State) : Host.Outcome State Fault Refusal := run true (claimAsserted s)

end Sys2Proof.Machine
end

