-- ==== Sys2Proof/Machine/Boot.lean ====
section
/-! DEFINITION. The end of power-on step 3 (R585): SD and the port dies released, and the stored image applied where
`IMG_BOOT.AUTO` asks for it (R471). -/

namespace Sys2Proof.Machine

/-- The current stored image. -/
def State.storedImage (s : State) : Option Image :=
  if s.img.nvValid then ((if s.img.nvCopyB then s.img.nvB else s.img.nvA).map (·.1)) else none

/-- With `AUTO`, the stored image is applied where it passes R469; else the chip waits for one. -/
def bootImage (s : State) : State :=
  match bit s.img.boot.toNat 0, s.storedImage with
  | true, some im =>
    match s.refusalOf im true .stored with
    | some (cause, _) =>
      refuseImage cause im.serial s
    | none => epochWork (applyFull (resolve im {}) .stored s)
  | _, _ => s

/-- Units that enter service with SD: Pug units, codec, Gather and Sieve engines. -/
def enterEngines (s : State) : State :=
  let s := forEach (List.range 16) (fun u s => setPug (fun p => { p with unit := aset p.unit u {} }) s) s
  let s := forEach (List.range 8) (fun e s => modEngine e (fun x => { x with fence := {} }) s) s
  { s with
    gth := { s.gth with unit := (List.range 8).map (fun e => (e, ({} : FenceSt))) }
    siv := if s.fitted capSIV then { s.siv with unit := (List.range 8).map (fun e => (e, ({} : FenceSt))) } else s.siv }

/-- `SD_RELEASE`: step 3 is complete. -/
def sdRelease (sdBoot : Word32) (s : State) : State :=
  if s.pkg.st = 3 ∧ s.pkg.group = 8 ∧ s.pkg.restartAt.isNone = true then
    let s := setPkg (fun p => { p with pgCore := true, coreDeadline := none, st := 4 }) s
    let s := { s with
      arch := { s.arch with cp := .run }
      wit := { s.wit with sdBoot := sdBoot, heardAt := s.now } }
    bootImage (recordStep 3 (logStart (enterEngines s)))
  else s

/-- The meaning of `SD_RELEASE`. -/
def execSdRelease (sdBoot : Word32) (s : State) : Host.Outcome State Fault Refusal := run true (sdRelease sdBoot s)

end Sys2Proof.Machine
end

