-- ==== Sys2Proof/Machine/Csr.lean ====
section
/-! DEFINITION. Reads of counters, mirror values and log slots, the clearing of counters and SAT fields, and
the writes of shapers and tier thresholds (R29, R30, R210, R404, R405, R512, R549, R555, R561). -/

namespace Sys2Proof.Machine

/-- The meaning of `COUNTER_LOW_READ`. -/
def execCounterLowRead (who : Who) (addr : Nat) (s : State) : Host.Outcome State Fault Refusal :=
  run (who.wf && decide (addr < 2 ^ 40)) (answerRead32 who addr s)

/-- The meaning of `COUNTER_HIGH_READ`. -/
def execCounterHighRead (who : Who) (addr : Nat) (s : State) : Host.Outcome State Fault Refusal :=
  run (who.wf && decide (addr < 2 ^ 40)) (answerRead32 who addr s)

/-- The meaning of `WIT_MIRROR_LOW_READ`. -/
def execWitMirrorLowRead (who : Who) (addr : Nat) (s : State) : Host.Outcome State Fault Refusal :=
  run (who.wf && decide (addr < 2 ^ 40)) (answerRead32 who addr s)

/-- `LOG_SLOT_FIRST_READ`: the requester reads the first word of a slot of its window. -/
def slotFirstRead (who : Who) (slot : Nat) (s : State) : State :=
  if aget s.log.cur who 0 % 512 = slot / 64 then answerRead32 who (0x0051000 + slot % 64 * 64) s else s

/-- The meaning of `LOG_SLOT_FIRST_READ`. -/
def execLogSlotFirstRead (who : Who) (slot : Nat) (s : State) : Host.Outcome State Fault Refusal :=
  run (who.wf && decide (slot < 32768)) (slotFirstRead who slot s)

/-- Who may clear a counter (R561): an operator session, the control plane, the management controller. -/
def mayClear : Who → Bool
  | .management => true
  | .control => true
  | .operator _ => true
  | _ => false

/-- A write to a word of a 64-bit register: zero to a counter's low word clears `COUNT` and `OVF`; every
other write, and every write to a register that holds a value, is ignored (R561, R562). -/
def writeCounter (who : Who) (a : Nat) (v : Word32) (s : State) : Status × State :=
  match s.ctrBase a with
  | none => (.ok, s)
  | some b =>
    if s.ctrClass b = some .value then (.ok, s)
    else if !mayClear who then (.denied, s)
    else if a = b ∧ v = 0 then (.ok, { s with ctr := aset s.ctr b {} })
    else (.ok, s)

/-- The meaning of `COUNTER_CLEAR`. -/
def execCounterClear (who : Who) (addr : Nat) (value : Word32) (s : State) : Host.Outcome State Fault Refusal :=
  run (who.wf && decide (addr < 2 ^ 40)) (ctlWriteSt who addr (writeCounter who addr value) s)

/-- A write to a register of SAT fields: each field whose bits are written zero is cleared, and a field
written with anything else keeps its value (R12, R549). -/
def writeSat (a : Nat) (v : Word32) (s : State) : State :=
  forEach (satFieldsAt a) (fun f s =>
    if bits v.toNat f.1 f.2 = 0 then { s with sat := aset s.sat (a, f.1) 0 } else s) s

/-- The meaning of `SAT_FIELD_CLEAR`. -/
def execSatFieldClear (who : Who) (addr : Nat) (value : Word32) (s : State) : Host.Outcome State Fault Refusal :=
  run (who.wf && decide (addr < 2 ^ 40)) (ctlWrite who addr true (writeSat addr value) s)

/-! ## Shapers (R404, R405) -/

/-- A write to a depth register whose `BURST`, [23:0], lies below 1 KiB is discarded (R404). The reserved bits
of these registers are RW and keep what is written (R12). -/
def burstNext (old v : Word32) : Word32 := if bits v.toNat 0 24 < 16 then old else v

/-- Write a port-and-class or saggar shaper register; it takes effect at the next refill. -/
def writeShaper (a : Nat) (v : Word32) (s : State) : State :=
  if 0x0310000 ≤ a ∧ a < 0x0314000 ∧ a % 0x100 < 0x80 then
    let k := 8 * ((a - 0x0310000) / 0x100) + a % 0x100 / 0x10
    if a % 16 = 0 then { s with swc := { s.swc with shape := aset s.swc.shape k v } }
    else if a % 16 = 4 then
      { s with swc := { s.swc with burst := aset s.swc.burst k (burstNext (aget s.swc.burst k 0x400) v) } }
    else s
  else if 0x0380000 ≤ a ∧ a < 0x0381000 then
    let g := (a - 0x0380000) / 0x40
    if a % 0x40 = 4 then { s with swc := { s.swc with sagShape := aset s.swc.sagShape g v } }
    else if a % 0x40 = 8 then
      { s with swc := { s.swc with sagBurst := aset s.swc.sagBurst g (burstNext (aget s.swc.sagBurst g 0x400) v) } }
    else s
  else s

/-- The meaning of `SHAPER_WRITE`. -/
def execShaperWrite (who : Who) (addr : Nat) (value : Word32) (s : State) : Host.Outcome State Fault Refusal :=
  run (who.wf && decide (addr < 2 ^ 40)) (ctlWrite who addr true (writeShaper addr value) s)

/-- The meaning of `TIE_THRESHOLD_WRITE`. -/
def execTieThresholdWrite (who : Who) (saggar : Nat) (upper34 : Bool) (value : Word32) (s : State) : Host.Outcome State Fault Refusal :=
  run (who.wf && decide (saggar < 64))
    (ctlWrite who (tiePage saggar + 4 * b2n upper34) true (writeThreshold saggar upper34 value) s)

end Sys2Proof.Machine
end

