-- ==== Sys2Proof/Machine/CsrWrite.lean ====
section
/-! DEFINITION. A plain write of a register, whatever it is (R30, R31), and the CSR WRITE message of a host
session (R452). -/

namespace Sys2Proof.Machine

/-! ## Control registers -/

/-- What a write of one control bit does: the meaning of that bit's own command. -/
abbrev CtlBit := Who → State → Host.Outcome State Fault Refusal

/-- Apply the command of a control bit as part of a write: its answer is the write's status. -/
def viaBit (who : Who) (f : CtlBit) (s : State) : Status × State :=
  match f who s with
  | .next t =>
    let new := t.out.drop s.out.length
    let isCsr := fun (o : Out) => match o with | .csr .. => true | _ => false
    match new.find? isCsr with
    | some (.csr _ _ st _) => (st, { t with out := s.out ++ new.eraseIdx (new.findIdx isCsr) })
    | _ => (.ok, t)
  | _ => (.ok, s)

/-- The bits a write sets act from the highest down; the write is answered with the first refusal. -/
def viaBits (who : Who) : List CtlBit → State → Status × State
  | [], s => (.ok, s)
  | f :: r, s =>
    match viaBit who f s with
    | (st, s) => match viaBits who r s with
      | (st', s) => (if st = .ok then st' else st, s)

/-- A free subset of the numbers below `n`: what an in-service test finds where the write names no result. -/
def freeSet (n draw : Nat) : List Nat := (List.range n).filter (fun i => bit (Config.freeNat draw) i)

/-- The control bits of the register at an address, highest first; none where the address holds no control
register. Results of tests that such a write starts are free. -/
def State.ctlBits (s : State) (a : Nat) (v : Nat) : Option (List (Nat × CtlBit)) :=
  let o := a % 0x1000
  if 0x0800000 ≤ a ∧ a < 0x0900000 ∧ a % 0x200 = 8 then
    let u := 384 * ((a - 0x0800000) / 0x40000) + a % 0x40000 / 0x200
    if a % 0x40000 < 384 * 0x200 then some [(1, (execArrUnfence · u)), (0, (execArrFenceWrite · u))] else none
  else if 0x0C00000 ≤ a ∧ a < 0x0C80000 ∧ o = 8 then
    let t := (a - 0x0C00000) / 0x1000
    some [(2, (execFwRestart · t)), (1, (execTrmUnfence · t)), (0, (execTrmFence · t))]
  else if 0x0701000 ≤ a ∧ a < 0x0705000 ∧ a % 0x100 = 0x20 then
    let g := (a - 0x0701000) / 0x100
    some [(2, (execSealNow · g)), (1, (execReplayExit · g)), (0, (execReplayEnter · g))]
  else if a = flmDieCtrl then
    let d := bits v 0 10
    some [(31, (execFlmDieFence · d)), (30, (execFlmDieUnfence · d))]
  else if 0x0600000 ≤ a ∧ a < 0x0608000 ∧ o = 8 then
    let e := (a - 0x0600000) / 0x1000
    some [(1, (execCdcUnfence · e)), (0, (execCdcFence · e))]
  else if 0x0500000 ≤ a ∧ a < 0x0510000 ∧ o = 8 then
    let u := (a - 0x0500000) / 0x1000
    some [(1, fun w t => execPugUnfence w u (bit (Config.freeNat t.free) 0) { t with free := t.free + 1 }), (0, (execPugFence · u))]
  else if 0x0580000 ≤ a ∧ a < 0x0588000 ∧ o = 8 then
    let e := (a - 0x0580000) / 0x1000
    some [(1, (execGthUnfence · e)), (0, (execGthFence · e))]
  else if 0x05C0000 ≤ a ∧ a < 0x05C8000 ∧ o = 8 then
    let e := (a - 0x05C0000) / 0x1000
    some [(1, (execSivUnfence · e)), (0, (execSivFence · e))]
  else if 0x0200000 ≤ a ∧ a < 0x0240000 ∧ o = 0x14 then
    let p := (a - 0x0200000) / 0x1000
    some [(4, (execPrtUnfence · p)), (3, (execPrtFence · p)), (2, (execPrtUnretire · p)), (1, (execRotNow · p)), (0, (execRetrain · p))]
  else if a = imgCtrl then some [(2, execImgCtrlAbandon), (1, execForceClose), (0, execImgStore)]
  else if a = 0x0040004 then
    let op : CtlBit := match dcOp s.sec.record with | 2 => execLogClear | 3 => execWitnessFw | 4 => execRelease | _ => execDcWrite
    some [(0, op)]
  else if 0x1800000 ≤ a ∧ a < 0x1840000 ∧ o = 4 then
    let g := (a - 0x1800000) / 0x1000
    some [(2, (execKeyErase · g)), (1, (execKeyLoad · g)), (0, (execAttest · g))]
  else if a = ercFwCtrl then
    let k := bits v 8 2
    if k = 0 then some [] else some [(1, (execFwCommit · k)), (0, (execFwSwitch · k))]
  else if a = 0x0070048 then
    let d := bits v 0 2
    some [(31, fun w t => execDieUnfence w d (bit (Config.freeNat t.free) 0) (freeSet 384 (t.free + 1)) (freeSet 32 (t.free + 2))
      (freeSet 2 (t.free + 3)) { t with free := t.free + 4 })]
  else if a = 0x0050010 then some [(0, execLogStore)]
  else if a = 0x0010004 then some [(0, execOrderlyPowerDown)]
  else none

/-! ## Registers that hold what is written -/

/-- `SWC_PQ_CTRL` after a write: an `SMP_EXP` other than 0 and 4 to 20 keeps the old one (R411). -/
def pqNext (old v : Word32) : Word32 :=
  let e := bits v.toNat 0 5
  if e = 0 ∨ (4 ≤ e ∧ e ≤ 20) then v else BitVec.ofNat 32 (v.toNat - e + bits old.toNat 0 5)

/-- `SWC_PORT` after a write: `DWEAH` alone is written. -/
def swcPortNext (old v : Word32) : Word32 :=
  BitVec.ofNat 32 (old.toNat - 8 * b2n (bit old.toNat 3) + 8 * b2n (bit v.toNat 3))

/-- A write of a switch register that is no shaper. -/
def writeSwc (a : Nat) (v : Word32) (s : State) : State :=
  if 0x0310000 ≤ a ∧ a < 0x0314000 then
    let p := (a - 0x0310000) / 0x100
    let k := 8 * p + a % 0x100 / 0x10
    if a % 0x100 = 0x80 then { s with swc := { s.swc with port := aset s.swc.port p (swcPortNext (aget s.swc.port p 0) v) } }
    else if a % 0x100 < 0x80 ∧ a % 16 = 8 then { s with swc := { s.swc with pq := aset s.swc.pq k (pqNext (aget s.swc.pq k 0) v) } }
    else s
  else
    let g := (a - 0x0380000) / 0x40
    if a % 0x40 = 0 then { s with swc := { s.swc with sagQ := aset s.swc.sagQ g v } } else s

/-- Whether an address holds a shaper register. -/
def isShaper (a : Nat) : Bool :=
  (decide (0x0310000 ≤ a ∧ a < 0x0314000 ∧ a % 0x100 < 0x80) && (a % 16 = 0 || a % 16 = 4))
    || (decide (0x0380000 ≤ a ∧ a < 0x0381000) && (a % 0x40 = 4 || a % 0x40 = 8))

/-- A word of the change window: operator sessions alone, and not while it is locked (R507, R508). -/
def writeChangeWindow (who : Who) (a : Nat) (v : Word32) (s : State) : Status × State :=
  match who with
  | .operator _ =>
    if s.sec.dcLock then (.nackRetry, s)
    else if a < 0x0042000 then (.ok, setSec (fun c => { c with record := overlay c.record (a - 0x0041000) (natLe v.toNat 4) }) s)
    else (.ok, setSec (fun c => { c with sigBlock := overlay c.sigBlock (a - 0x0042000) (natLe v.toNat 4) }) s)
  | _ => (.denied, s)

/-- Step 6 of R30 for a write: control bits act, fields that hold values take them, counters and SAT fields
clear; a word with nothing to write in it, or none at all, is discarded. -/
def writeRegister (who : Who) (a : Nat) (v : Word32) (s : State) : Status × State :=
  match s.ctlBits a v.toNat with
  | some l => viaBits who ((l.filter (fun x => bit v.toNat x.1)).map (·.2)) s
  | none =>
    if a = 0x0400004 then writeFabCtrl who v s
    else if a = 0x0400040 then writeCohCtrl who v s
    else if isShaper a then (.ok, writeShaper a v s)
    else if (0x0310000 ≤ a ∧ a < 0x0314000) ∨ (0x0380000 ≤ a ∧ a < 0x0381000) then (.ok, writeSwc a v s)
    else if 0x1001000 ≤ a ∧ a < 0x1005000 ∧ a % 0x100 < 8 then (.ok, writeThreshold ((a - 0x1001000) / 0x100) (a % 0x100 = 4) v s)
    else if a = 0x0050000 then (.ok, { s with log := { s.log with cur := aset s.log.cur who v.toNat } })
    else if 0x0100200 ≤ a ∧ a < 0x0100300 then (.ok, setJsl (fun j => { j with sink := aset j.sink ((a - 0x0100200) / 4) v }) s)
    else if a = 0x0080008 then (.ok, setImg (fun m => { m with boot := v }) s)
    else if a = 0x0060300 then (.ok, writeLimit v s)
    else if 0x0041000 ≤ a ∧ a < 0x0043000 then writeChangeWindow who a v s
    else if 0x1800000 ≤ a ∧ a < 0x1840000 ∧ 0x200 ≤ a % 0x1000 then
      (.ok, modSag ((a - 0x1800000) / 0x1000) (fun x => { x with window := overlay x.window (a % 0x1000 - 0x200) (natLe v.toNat 4) }) s)
    else if (s.ctrBase a).isSome then writeCounter who a v s
    else (.ok, writeSat a v s)

/-- A CSR write in the order of R30: its status and the state after. -/
def csrWriteWord (who : Who) (a : Nat) (v : Word32) (s : State) : Status × State :=
  match s.csrGate who a true with
  | some st => (st, s)
  | none => writeRegister who a v s

/-- The meaning of `CSR_WRITE`. -/
def execCsrWrite (who : Who) (addr : Nat) (value : Word32) (s : State) : Host.Outcome State Fault Refusal :=
  run (who.wf && decide (addr < 2 ^ 40))
    (match csrWriteWord who addr value s with
     | (st, s) => answerCsr who addr st 0 s)

/-! ## CSR WRITE (R452) -/

/-- Words written in order; the first refused one ends the request. -/
def writeWords (who : Who) : List Word32 → Nat → Nat → State → Nat × Status × State
  | [], _, n, s => (n, .ok, s)
  | v :: r, a, n, s =>
    match csrWriteWord who a v s with
    | (.ok, s) => writeWords who r (a + 4) (n + 1) s
    | (st, s) => (n, st, s)

/-- A CSR WRITE of a session. -/
def csrWriteMsg (via : Option Nat) (sid : Nat) (who : Who) (count tag addr : Nat) (words : List Word32) (s : State) : State :=
  if count = 0 ∨ 248 < count ∨ words.length < count then csrResponse via sid 0x82 0 tag .denied addr [] s
  else match writeWords who (words.take count) addr 0 s with
    | (n, st, s) => csrResponse via sid 0x82 n tag st addr [] s

/-- The meaning of `JQ_CSR_WRITE`; under `SID` 0 it is answered `DENIED` (R447). -/
def execJqCsrWrite (f : JqFrame) (count tag addr : Nat) (words : List Word32) (s : State) : Host.Outcome State Fault Refusal :=
  run (f.wf && decide (count < 256) && decide (tag < 65536) && decide (addr < 2 ^ 40))
    (jqAccept f (fun s =>
      if f.ftype ≠ 1 ∨ f.mclass ≠ 0 then s
      else if f.sid = 0 then (if f.prot then s else csrResponse none 0 0x82 0 tag .denied addr [] s)
      else opened none f (fun x s => csrWriteMsg none f.sid (x.who f.sid) count tag addr words s) s) s)

end Sys2Proof.Machine
end

