-- ==== Sys2Proof/Machine/Relay.lean ====
section
/-! DEFINITION. `MGMT`: relayed Jaesque frames at their target and at the relay (R456, R457). -/

namespace Sys2Proof.Machine

/-! ## A relayed train -/

/-- `RSEQ` and direction of the relay word; header, payload. -/
def mgSeq (p : Packet) : Nat := le p.payload 0 2
def mgBack (p : Packet) : Bool := bit (le p.payload 0 8) 16
def mgFrame (p : Packet) : JqFrame := parseHeader (sub p.payload 8 16)
def mgBody (p : Packet) : List Byte := sub p.payload 24 (mgFrame p).len

/-- Frames of one node, session and direction run in order by one `RSEQ`. -/
def mgKey (p : Packet) : Nat × Nat × Nat := (p.src, (mgFrame p).sid, b2n (mgBack p))

/-! ## Fragments (R448, R451) -/

/-- Add fragment `i` of `n`; the whole object once no fragment is missing. -/
def joinFragment (key : Nat × Nat) (i n : Nat) (b : List Byte) (s : State) : Option (List Byte) × State :=
  let l := (aget s.jsl.frags key []).filter (fun x => x.1 ≠ i) ++ [(i, b)]
  if (List.range n).all (fun k => l.any (fun x => x.1 = k)) then
    (some ((List.range n).flatMap (fun k => aget l k [])), setJsl (fun j => { j with frags := aerase j.frags key }) s)
  else (none, setJsl (fun j => { j with frags := aset j.frags key l }) s)

/-- The HELLO of its bytes. -/
def parseHello (b : List Byte) : HelloMsg :=
  { nonce := sub b 0 32, role := le b 32 1, keyDigest := sub b 33 32, mlkemKey := sub b 65 1568 }

/-- A handshake fragment through a relay. -/
def relayHandshake (node : Nat) (b : List Byte) (s : State) : State :=
  let w := le b 0 8
  let msg := bits w 0 8
  match joinFragment (node, msg) (bits w 8 8) (bits w 16 8) (b.drop 8) s with
  | (none, s) => s
  | (some m, s) =>
    if msg = 1 then helloMsg (some node) (parseHello m) s
    else if msg = 3 then proofMsg (some node) (sub m 0 1280) s
    else s

/-! ## Messages of a relayed session (R451 to R455) -/

/-- Words of a body. -/
def bodyWords (b : List Byte) : List Word32 := (List.range (b.length / 4)).map (fun i => BitVec.ofNat 32 (le b (4 * i) 4))

/-- A message of the BULK class. -/
def relayBulk (via : Option Nat) (sid w0 w1 : Nat) (b : List Byte) (x : Session) (s : State) : State :=
  let op := bits w0 0 8
  let xfer := bits w0 16 16
  if op = 0x10 then bulkBegin via sid (bits w0 8 8) xfer (bits w1 0 32) x s
  else if op = 0x11 then
    let room := match afind s.jsl.bulks (sid * 65536 + xfer) with | some t => t.total - bits w1 0 32 | none => 0
    bulkData sid xfer (bits w1 0 32) (b.take room) s
  else if op = 0x12 then bulkEnd via sid xfer (sub b 0 32) x s
  else s

/-- A message of the RECORD class: replay records, Witness reads. -/
def relayRecord (via : Option Nat) (sid w0 w1 : Nat) (b : List Byte) (x : Session) (s : State) : State :=
  let op := bits w0 0 8
  let g := bits w0 8 6
  if op = 0x3A then witnessRead via sid g w1 x s
  else if op = 0x38 ∧ x.claim = false ∧ (x.role = 1 ∨ bit x.mask g = true) then
    match joinFragment (65536 + sid, 0x3800 + g) (bits w0 16 16) (bits w0 32 16) b s with
    | (some r, s) => supplyRecord g r s
    | (none, s) => s
  else s

/-- A protected message of an open session. -/
def relayMessage (via : Option Nat) (f : JqFrame) (m : List Byte) (x : Session) (s : State) : State :=
  let w0 := le m 0 8
  let w1 := le m 8 8
  let b := m.drop 16
  if f.ftype = 5 then (if bits w0 0 8 = 5 then endSession f.sid s else s)
  else if f.ftype ≠ 1 then s
  else match f.mclass with
    | 0 =>
      let count := bits w0 8 8
      let tag := bits w0 16 16
      let addr := bits w1 0 40
      if bits w0 0 8 = 1 then csrReadMsg via f.sid (x.who f.sid) count tag addr s
      else if bits w0 0 8 = 2 then csrWriteMsg via f.sid (x.who f.sid) count tag addr (bodyWords b) s
      else s
    | 1 => relayBulk via f.sid w0 w1 b x s
    | 2 => if bits w0 0 8 = 0x21 then subscribe f.sid (bit w0 8) (bits w0 12 4) x s else s
    | _ => relayRecord via f.sid w0 w1 b x s

/-- An unprotected message under `SID` 0: reads of the ID/CAP block; a write is answered `DENIED` (R447). -/
def relayPlain (via : Option Nat) (m : List Byte) (s : State) : State :=
  let w0 := le m 0 8
  let addr := bits (le m 8 8) 0 40
  if bits w0 0 8 = 1 then plainCsrRead via (bits w0 8 8) (bits w0 16 16) addr s
  else if bits w0 0 8 = 2 then csrResponse via 0 0x82 0 (bits w0 16 16) .denied addr [] s
  else s

/-- A relayed frame at its target, in order. -/
def targetFrame (p : Packet) (s : State) : State :=
  let f := mgFrame p
  let b := mgBody p
  let via := some p.src
  if f.sid = 0 then
    if f.prot then s
    else if f.ftype = 5 then relayHandshake p.src b s
    else if f.ftype = 1 ∧ f.mclass = 0 then relayPlain via b s
    else s
  else match afind s.jsl.sessions f.sid with
    | none => s
    | some x =>
      let n := b.length - 16
      let plain := Config.gcmOpen x.keyRx (jqNonce x.ctrRx) (sub p.payload 8 8) (b.take n) (b.drop n)
      opened via { f with tagOk := plain.isSome } (fun x => relayMessage via f (plain.getD []) x) s

/-- A relayed reply at the relay, in order: it goes out on the host link, and one more frame of its target and
class may be relayed. -/
def replyFrame (p : Packet) (s : State) : State :=
  let f := mgFrame p
  if s.jsl.lst ≠ 4 then s else
  let c := (p.src, jqClass f)
  relayPump (jqQueue { f := f, payload := mgBody p, reply := some p }
    (setJsl (fun j => { j with relayOut := aset j.relayOut c ((s.relayBusy c).drop 1) }) s))

def relayDeliver (p : Packet) (s : State) : State := if mgBack p then replyFrame p s else targetFrame p s

/-! ## Order (R456) -/

/-- Frames held ahead are delivered while the next of them is there. -/
def drainHeld (k : Nat × Nat × Nat) : Nat → State → State
  | 0, s => s
  | fuel + 1, s =>
    let n := aget s.jsl.relayRx k 0
    let l := aget s.jsl.relayHeld k []
    match l.find? (fun x => x.1 = n) with
    | none => s
    | some x =>
      drainHeld k fuel (relayDeliver x.2 (setJsl (fun j => { j with
        relayRx := aset j.relayRx k ((n + 1) % 65536)
        relayHeld := aset j.relayHeld k (l.filter (fun y => y.1 ≠ n)) }) s))

/-- At the target the gap timer of a session runs while a frame is held ahead of a missing one. -/
def armGap (k : Nat × Nat × Nat) (s : State) : State :=
  if k.2.2 ≠ 0 then s
  else setJsl (fun j => { j with
    relayDeadline := if (aget j.relayHeld k []).isEmpty then aerase j.relayDeadline k.2.1 else aset j.relayDeadline k.2.1 (s.now + sclk (2 ^ 24)) }) s

/-- A reply already taken: while the host link has not acknowledged it the relay stays silent, afterwards it
answers again. -/
def repeatedReply (p : Packet) (s : State) : State :=
  let here := fun (x : JqSend) => match x.reply with | some q => q.src = p.src && q.tag = p.tag | none => false
  if mgBack p && (s.jsl.lst = 4) && !(s.jsl.waiting ++ s.jsl.retry).any here then reply p .ok 0 [] s else s

/-- A train taken from the packets that make it waits among the requests addressed to this chip. -/
def keep (p : Packet) (s : State) : State :=
  if s.fab.inbox.contains p then s else { s with fab := { s.fab with inbox := s.fab.inbox ++ [p] } }

/-- `MGMT`: a relayed frame in its order: the next is delivered with those held behind it, one up to 16 ahead is
held, one already taken is answered again where it is a reply. While the relay's management controller
restarts, replies wait. -/
def mgmt (p : Packet) (s : State) : State :=
  if !classOk p.opcode p.cls then reply p .denied 0 [] (take p s)
  else if mgBack p && decide (s.arch.mp ≠ .run) then keep p s
  else
    let s := take p s
    let k := mgKey p
    let n := aget s.jsl.relayRx k 0
    let d := (mgSeq p + 65536 - n) % 65536
    if d = 0 then
      armGap k (drainHeld k 17 (relayDeliver p (setJsl (fun j => { j with relayRx := aset j.relayRx k ((n + 1) % 65536) }) s)))
    else if d ≤ 16 then
      let l := aget s.jsl.relayHeld k []
      let s := setJsl (fun j => { j with relayHeld := aset j.relayHeld k (l.filter (fun x => x.1 ≠ mgSeq p) ++ [(mgSeq p, p)]) }) s
      if l.isEmpty then armGap k s else s
    else repeatedReply p s

/-- The meaning of `MGMT`. -/
def execMgmt (p : Packet) (s : State) : Host.Outcome State Fault Refusal := run (p.wf) (reassemble p mgmt s)

end Sys2Proof.Machine
end

