-- ==== Sys2Proof/Machine/Vector.lean ====
section
/-! DEFINITION. The vector extension of a Trimmer, Zve64x with VLEN 512 (R95 to R97): configuration,
element arithmetic, masks, permutations, reductions and vector loads and stores. The spec names the
extension and leaves its instructions to the RISC-V vector specification 1.0 (PRESUMED). -/

namespace Sys2Proof.Machine

/-! ## Configuration -/

/-- `vtype` read: element bits, LMUL in eighths, legality. -/
structure VCfg where
  sew : Nat := 8
  lmul8 : Nat := 8
  ill : Bool := true
  deriving DecidableEq, Repr

def vcfgOf (vtype : Nat) : VCfg :=
  let lm := vtype % 8
  let sw := bits vtype 3 3
  let lmul8 := match lm with | 0 => 8 | 1 => 16 | 2 => 32 | 3 => 64 | 5 => 1 | 6 => 2 | 7 => 4 | _ => 0
  let sew := 8 * 2 ^ sw
  { sew := sew, lmul8 := lmul8, ill := decide (4 ≤ sw) || lmul8 = 0 || decide (vtype / 256 ≠ 0) || decide (64 * lmul8 < 8 * sew) }

/-- Most elements of a group. -/
def VCfg.max (c : VCfg) : Nat := c.lmul8 * 512 / 8 / c.sew
/-- Registers of a group of `k` eighths. -/
def groupRegs (lmul8 : Nat) : Nat := max 1 (lmul8 / 8)
/-- A register number may begin a group. -/
def groupOk (r lmul8 : Nat) : Bool := decide (lmul8 ≤ 64) && decide (0 < lmul8) && r % groupRegs lmul8 = 0

def State.vctx (s : State) (t : Nat) : Ctx := (s.trmOf t).ctx
def modCtx (t : Nat) (f : Ctx → Ctx) (s : State) : State := modTrm t (fun x => { x with ctx := f x.ctx }) s

/-- Element `i` of `n` bytes of the group that begins at register `r`. -/
def Ctx.elem (x : Ctx) (r i n : Nat) : Nat := le (aget x.v (r + i * n / 64) (zeros 64)) (i * n % 64) n
def Ctx.maskBit (x : Ctx) (r i : Nat) : Bool := bit (le (aget x.v r (zeros 64)) (i / 8) 1) (i % 8)
def Ctx.setElem (x : Ctx) (r i n v : Nat) : Ctx :=
  { x with v := amod x.v (r + i * n / 64) (zeros 64) (fun b => overlay b (i * n % 64) (natLe v n)) }
def Ctx.setMask (x : Ctx) (r i : Nat) (v : Bool) : Ctx :=
  { x with v := amod x.v r (zeros 64) (fun b =>
      let o := le b (i / 8) 1
      overlay b (i / 8) (natLe (o - b2n (bit o (i % 8)) * 2 ^ (i % 8) + b2n v * 2 ^ (i % 8)) 1)) }

/-- Elements of the body that are active. -/
def Ctx.actives (x : Ctx) (vm : Bool) : List Nat :=
  ((List.range x.vl).filter (fun i => decide (x.vstart ≤ i))).filter (fun i => vm || x.maskBit 0 i)

/-- `vsetvli`, `vsetivli`, `vsetvl`. -/
def vsetInsn (t w : Nat) (s : State) : Res :=
  let rd := bits w 7 5
  let rs1 := bits w 15 5
  let x := s.vctx t
  let imm := bit w 31 && bit w 30
  let vtype := if !bit w 31 then bits w 20 11 else if imm then bits w 20 10 else s.tx t (bits w 20 5)
  if bit w 31 && !imm && bits w 25 6 ≠ 0 then .trap 2 w s else
  let c := vcfgOf vtype
  let avl := if imm then rs1 else if rs1 ≠ 0 then s.tx t rs1 else if rd ≠ 0 then 2 ^ 64 - 1 else x.vl
  let vl := if c.ill then 0 else min avl c.max
  .next (setTx t rd vl (modCtx t (fun x => { x with vl := vl, vtype := if c.ill then 2 ^ 63 else vtype, vstart := 0 }) s))

/-! ## Element arithmetic -/

/-- The rounding increment of a right shift by `d` bits (`vxrm`). -/
def roundOff (mode : Nat) (v : Int) (d : Nat) : Int :=
  if d = 0 then v else
  let q := v / (2 ^ d : Int)
  let low := v % (2 ^ d : Int)
  let half := (2 ^ (d - 1) : Int)
  let up : Bool := match mode with
    | 0 => decide (half ≤ low)
    | 1 => decide (half < low) || (decide (low = half) && decide (q % 2 ≠ 0))
    | 2 => false
    | _ => decide (low ≠ 0) && decide (q % 2 = 0)
  if up then q + 1 else q

/-- Saturate to `w` bits, with whether it did. -/
def satS (w : Nat) (v : Int) : Nat × Bool :=
  let lo := -(2 ^ (w - 1) : Int)
  let hi := (2 ^ (w - 1) : Int) - 1
  if v < lo then (unsignedW w lo, true) else if hi < v then (unsignedW w hi, true) else (unsignedW w v, false)
def satU (w : Nat) (v : Int) : Nat × Bool :=
  if v < 0 then (0, true) else if (2 ^ w : Int) ≤ v then (2 ^ w - 1, true) else (v.toNat, false)

/-- Truncating signed division and remainder, and their corners (RISC-V: quotient all ones and remainder
the dividend for a zero divisor). -/
def divS (w a b : Nat) : Nat :=
  let x := signedW w a
  let y := signedW w b
  if y = 0 then 2 ^ w - 1 else unsignedW w (Int.tdiv x y)
def remS (w a b : Nat) : Nat :=
  let x := signedW w a
  let y := signedW w b
  if y = 0 then a % 2 ^ w else unsignedW w (Int.tmod x y)
def divU (w a b : Nat) : Nat := if b % 2 ^ w = 0 then 2 ^ w - 1 else a % 2 ^ w / (b % 2 ^ w)
def remU (w a b : Nat) : Nat := if b % 2 ^ w = 0 then a % 2 ^ w else a % 2 ^ w % (b % 2 ^ w)

/-- Single-width integer operations of OPIVV, OPIVX and OPIVI: `a` is the element of vs2, `b` the other
operand; the flag is saturation. None where the encoding is not one of them. -/
def viOp (f6 w rm a b : Nat) : Option (Nat × Bool) :=
  let sa := signedW w a
  let sb := signedW w b
  let sh := b % w
  let ok := fun (v : Int) => some (unsignedW w v, false)
  match f6 with
  | 0x00 => ok (a + b)
  | 0x02 => ok ((a : Int) - b)
  | 0x03 => ok ((b : Int) - a)
  | 0x04 => ok (min (a : Int) b)
  | 0x05 => ok (min sa sb)
  | 0x06 => ok (max (a : Int) b)
  | 0x07 => ok (max sa sb)
  | 0x09 => some (a &&& b, false)
  | 0x0A => some (a ||| b, false)
  | 0x0B => some (a ^^^ b, false)
  | 0x20 => some (satU w (a + b))
  | 0x21 => some (satS w (sa + sb))
  | 0x22 => some (satU w ((a : Int) - b))
  | 0x23 => some (satS w (sa - sb))
  | 0x25 => ok (a * 2 ^ sh)
  | 0x27 => if w = 64 then none else some (satS w (roundOff rm (sa * sb) (w - 1)))
  | 0x28 => ok (a / 2 ^ sh)
  | 0x29 => ok (sa / (2 ^ sh : Int))
  | 0x2A => ok (roundOff rm a sh)
  | 0x2B => ok (roundOff rm sa sh)
  | _ => none

/-- Narrowing shifts and clips: `a` has twice the width. -/
def vnOp (f6 w rm a b : Nat) : Option (Nat × Bool) :=
  let sh := b % (2 * w)
  let sa := signedW (2 * w) a
  match f6 with
  | 0x2C => some (a / 2 ^ sh % 2 ^ w, false)
  | 0x2D => some (unsignedW w (sa / (2 ^ sh : Int)), false)
  | 0x2E => some (satU w (roundOff rm a sh))
  | 0x2F => some (satS w (roundOff rm sa sh))
  | _ => none

/-- Compares into a mask. -/
def vcOp (f6 w a b : Nat) : Option Bool :=
  let sa := signedW w a
  let sb := signedW w b
  match f6 with
  | 0x18 => some (decide (a = b))
  | 0x19 => some (decide (a ≠ b))
  | 0x1A => some (decide (a < b))
  | 0x1B => some (decide (sa < sb))
  | 0x1C => some (decide (a ≤ b))
  | 0x1D => some (decide (sa ≤ sb))
  | 0x1E => some (decide (b < a))
  | 0x1F => some (decide (sb < sa))
  | _ => none

/-- Single-width operations of OPMVV and OPMVX; `d` is the old destination. -/
def vmOp (f6 w rm a b d : Nat) : Option Nat :=
  let sa := signedW w a
  let sb := signedW w b
  let ok := fun (v : Int) => some (unsignedW w v)
  match f6 with
  | 0x08 => ok (roundOff rm (a + b) 1)
  | 0x09 => ok (roundOff rm (sa + sb) 1)
  | 0x0A => ok (roundOff rm ((a : Int) - b) 1)
  | 0x0B => ok (roundOff rm (sa - sb) 1)
  | 0x20 => some (divU w a b)
  | 0x21 => some (divS w a b)
  | 0x22 => some (remU w a b)
  | 0x23 => some (remS w a b)
  | 0x24 => if w = 64 then none else ok ((a * b : Nat) / (2 ^ w : Int))
  | 0x25 => ok (a * b)
  | 0x26 => if w = 64 then none else ok (sa * b / (2 ^ w : Int))
  | 0x27 => if w = 64 then none else ok (sa * sb / (2 ^ w : Int))
  | 0x29 => ok (b * d + a)
  | 0x2B => ok ((a : Int) - b * d)
  | 0x2D => ok (b * a + d)
  | 0x2F => ok ((d : Int) - b * a)
  | _ => none

/-- Widening operations: result of twice the width; `a` is wide where the encoding says `.w`. -/
def vwOp (f6 w a b d : Nat) : Option Nat :=
  let wide := decide (0x34 ≤ f6 ∧ f6 ≤ 0x37)
  let sa := signedW (if wide then 2 * w else w) a
  let sb := signedW w b
  let ok := fun (v : Int) => some (unsignedW (2 * w) v)
  match f6 with
  | 0x30 => ok (a + b)
  | 0x31 => ok (sa + sb)
  | 0x32 => ok ((a : Int) - b)
  | 0x33 => ok (sa - sb)
  | 0x34 => ok (a + b)
  | 0x35 => ok (sa + sb)
  | 0x36 => ok ((a : Int) - b)
  | 0x37 => ok (sa - sb)
  | 0x38 => ok (a * b)
  | 0x3A => ok (sa * b)
  | 0x3B => ok (sa * sb)
  | 0x3C => ok (a * b + d)
  | 0x3D => ok (sa * sb + d)
  | 0x3E => ok (b * sa + d)
  | 0x3F => ok (sb * a + d)
  | _ => none

/-- Reductions: the running value and an element. They start at element 0 alone, like population count,
find-first, set-before-first and iota: with `vstart` nonzero each is illegal. -/
def vredOp (f6 w acc e : Nat) : Nat :=
  let sa := signedW w acc
  let se := signedW w e
  match f6 with
  | 0x00 => (acc + e) % 2 ^ w
  | 0x01 => acc &&& e
  | 0x02 => acc ||| e
  | 0x03 => acc ^^^ e
  | 0x04 => min acc e
  | 0x05 => unsignedW w (min sa se)
  | 0x06 => max acc e
  | _ => unsignedW w (max sa se)

/-! ## OP-V -/

/-- The pieces of an OP-V instruction. -/
structure VInsn where
  f6 : Nat
  vm : Bool
  vs2 : Nat
  vs1 : Nat
  f3 : Nat
  vd : Nat
  deriving DecidableEq, Repr

def vinsnOf (w : Nat) : VInsn := { f6 := bits w 26 6, vm := bit w 25, vs2 := bits w 20 5, vs1 := bits w 15 5, f3 := bits w 12 3, vd := bits w 7 5 }

/-- The second operand of element `i`: a vector element, `x[rs1]` or the immediate. -/
def State.vOperand (s : State) (t : Nat) (v : VInsn) (n : Nat) (uimm : Bool) (i : Nat) : Nat :=
  if v.f3 = 0 ∨ v.f3 = 2 then (s.vctx t).elem v.vs1 i n
  else if v.f3 = 3 then (if uimm then v.vs1 else unsignedW (8 * n) (signedW 5 v.vs1)) % 2 ^ (8 * n)
  else s.tx t v.vs1 % 2 ^ (8 * n)

/-- Finish a vector instruction: the new context, `vstart` zero. -/
def vdone (t : Nat) (x : Ctx) (s : State) : Res :=
  .next (bumpHpm t 9 1 (modCtx t (fun _ => { x with vstart := 0, vpos := 0 }) s))

/-- Write the active elements of a group with what a function gives, none of which may be absent. -/
def velems (t : Nat) (v : VInsn) (w dn : Nat) (f : Nat → Option (Nat × Bool)) (s : State) : Res :=
  let x := s.vctx t
  let is := x.actives v.vm
  if (f 0).isNone || (!v.vm && v.vd = 0) then .trap 2 w s else
  let y := is.foldl (fun y i => match f i with
    | some (r, sat) => { y.setElem v.vd i dn r with vxsat := if sat then 1 else y.vxsat }
    | none => y) x
  vdone t y s

/-- Write mask bits of the active elements. -/
def vmasks (t : Nat) (v : VInsn) (w : Nat) (is : List Nat) (f : Nat → Option Bool) (s : State) : Res :=
  let x := s.vctx t
  if (f 0).isNone then .trap 2 w s else
  vdone t (is.foldl (fun y i => match f i with | some b => y.setMask v.vd i b | none => y) x) s

/-- The OPI group. -/
def opiInsn (t w : Nat) (c : VCfg) (v : VInsn) (s : State) : Res :=
  let n := c.sew / 8
  let x := s.vctx t
  let e2 := fun (i : Nat) => x.elem v.vs2 i n
  let b := s.vOperand t v n (decide (0x25 ≤ v.f6))
  let ub := fun (i : Nat) => s.vOperand t v n true i
  let vv := decide (v.f3 = 0)
  let body := (List.range x.vl).filter (fun i => decide (x.vstart ≤ i))
  let grp := groupOk v.vd c.lmul8
  -- a register index or a scalar offset, which is not cut to the element's width
  let off := if v.f3 = 3 then v.vs1 else s.tx t v.vs1
  match v.f6 with
  | 0x0C => if grp then velems t v w n (fun i =>
        let k := if vv then x.elem v.vs1 i n else off
        some (if k < c.max then e2 k else 0, false)) s else .trap 2 w s
  | 0x0E =>
    if !grp then .trap 2 w s
    else if vv then velems t v w n (fun i => let k := x.elem v.vs1 i 2; some (if k < c.max then e2 k else 0, false)) s
    else velems t v w n (fun i => some (if i < off then x.elem v.vd i n else e2 (i - off), false)) s
  | 0x0F => if vv || !grp then .trap 2 w s else velems t v w n (fun i => some (if i + off < c.max then e2 (i + off) else 0, false)) s
  | 0x10 => if v.vm || !grp then .trap 2 w s else
      vdone t (body.foldl (fun y i => y.setElem v.vd i n ((e2 i + b i + b2n (x.maskBit 0 i)) % 2 ^ c.sew)) x) s
  | 0x11 => vmasks t v w body (fun i => some (decide (2 ^ c.sew ≤ e2 i + b i + b2n (!v.vm && x.maskBit 0 i)))) s
  | 0x12 => if v.vm || !grp || v.f3 = 3 then .trap 2 w s else
      vdone t (body.foldl (fun y i => y.setElem v.vd i n (unsignedW c.sew ((e2 i : Int) - b i - b2n (x.maskBit 0 i)))) x) s
  | 0x13 => if v.f3 = 3 then .trap 2 w s else vmasks t v w body (fun i => some (decide (e2 i < b i + b2n (!v.vm && x.maskBit 0 i)))) s
  | 0x17 => if !grp then .trap 2 w s else
      vdone t (body.foldl (fun y i => y.setElem v.vd i n (if v.vm || x.maskBit 0 i then b i else e2 i)) x) s
  | 0x27 =>
    if v.f3 = 3 then
      let k := v.vs1 + 1
      if k ∈ ([1, 2, 4, 8] : List Nat) ∧ v.vd % k = 0 ∧ v.vs2 % k = 0 then
        vdone t ((List.range k).foldl (fun y j => { y with v := aset y.v (v.vd + j) (aget x.v (v.vs2 + j) (zeros 64)) }) x) s
      else .trap 2 w s
    else if grp then velems t v w n (fun i => viOp 0x27 c.sew x.vxrm (e2 i) (b i)) s else .trap 2 w s
  | 0x30 | 0x31 =>
    -- widening sum reductions
    if !vv || c.sew = 64 || x.vstart ≠ 0 then .trap 2 w s else
    let ext := fun (e : Nat) => if v.f6 = 0x30 then e else unsignedW (2 * c.sew) (signedW c.sew e)
    let r := (x.actives v.vm).foldl (fun acc i => (acc + ext (e2 i)) % 2 ^ (2 * c.sew)) (x.elem v.vs1 0 (2 * n))
    vdone t (if x.vl = 0 then x else x.setElem v.vd 0 (2 * n) r) s
  | _ =>
    if 0x18 ≤ v.f6 ∧ v.f6 ≤ 0x1F then
      if (0x1E ≤ v.f6 ∧ vv) ∨ ((v.f6 = 0x1A ∨ v.f6 = 0x1B) ∧ v.f3 = 3) then .trap 2 w s
      else vmasks t v w (x.actives v.vm) (fun i => vcOp v.f6 c.sew (e2 i) (b i)) s
    else if 0x2C ≤ v.f6 ∧ v.f6 ≤ 0x2F then
      if c.sew = 64 ∨ !grp then .trap 2 w s
      else velems t v w n (fun i => vnOp v.f6 c.sew x.vxrm (x.elem v.vs2 i (2 * n)) (ub i)) s
    else if !grp ∨ (v.f6 = 3 ∧ vv) ∨ (v.f3 = 3 ∧ (v.f6 = 2 ∨ (4 ≤ v.f6 ∧ v.f6 ≤ 7) ∨ v.f6 = 0x22 ∨ v.f6 = 0x23)) then .trap 2 w s
    else velems t v w n (fun i => viOp v.f6 c.sew x.vxrm (e2 i) (b i)) s

/-- Set-before-first, including-first and only-first, iota and index. -/
def vmUnary (t w : Nat) (c : VCfg) (v : VInsn) (s : State) : Res :=
  let x := s.vctx t
  let act := fun (i : Nat) => v.vm || x.maskBit 0 i
  let set := fun (i : Nat) => act i && x.maskBit v.vs2 i
  let first := (List.range x.vl).find? set
  let before := fun (i : Nat) => match first with | some f => decide (i < f) | none => true
  let is := x.actives v.vm
  let n := c.sew / 8
  if x.vstart ≠ 0 && v.vs1 ≠ 17 then .trap 2 w s else
  match v.vs1 with
  | 1 => vmasks t v w is (fun i => some (before i)) s
  | 2 => vmasks t v w is (fun i => some (decide (first = some i))) s
  | 3 => vmasks t v w is (fun i => some (before i || decide (first = some i))) s
  | 16 => velems t v w n (fun i => some (countIf (List.range i) set % 2 ^ c.sew, false)) s
  | 17 => velems t v w n (fun i => some (i % 2 ^ c.sew, false)) s
  | _ => .trap 2 w s

/-- The OPM group. -/
def opmInsn (t w : Nat) (c : VCfg) (v : VInsn) (s : State) : Res :=
  let n := c.sew / 8
  let x := s.vctx t
  let e2 := fun (i : Nat) => x.elem v.vs2 i n
  let b := s.vOperand t v n false
  let vv := decide (v.f3 = 2)
  let grp := groupOk v.vd c.lmul8
  let m2 := x.maskBit v.vs2
  let m1 := x.maskBit v.vs1
  let body := (List.range x.vl).filter (fun i => decide (x.vstart ≤ i))
  if v.f6 ≤ 7 then
    if !vv || x.vstart ≠ 0 then .trap 2 w s else
    let r := (x.actives v.vm).foldl (fun acc i => vredOp v.f6 c.sew acc (e2 i)) (x.elem v.vs1 0 n)
    vdone t (if x.vl = 0 then x else x.setElem v.vd 0 n r) s
  else if v.f6 = 0x0E then
    if vv || !grp then .trap 2 w s else velems t v w n (fun i => some (if i = 0 then b 0 else e2 (i - 1), false)) s
  else if v.f6 = 0x0F then
    if vv || !grp then .trap 2 w s else velems t v w n (fun i => some (if i + 1 = x.vl then b 0 else e2 (i + 1), false)) s
  else if v.f6 = 0x10 then
    if vv then
      let is := (List.range x.vl).filter (fun i => (v.vm || x.maskBit 0 i) && m2 i)
      let put := fun (k : Nat) => match vdone t x s with | .next s => Res.next (setTx t v.vd k s) | r => r
      match v.vs1 with
      | 0 => put (unsignedW 64 (signedW c.sew (e2 0)))
      | 16 => if x.vstart ≠ 0 then .trap 2 w s else put is.length
      | 17 => if x.vstart ≠ 0 then .trap 2 w s else put (match is with | i :: _ => i | [] => 2 ^ 64 - 1)
      | _ => .trap 2 w s
    else if v.vs2 ≠ 0 then .trap 2 w s
    else vdone t (if x.vl ≤ x.vstart then x else x.setElem v.vd 0 n (s.tx t v.vs1 % 2 ^ c.sew)) s
  else if v.f6 = 0x12 then
    let k := match v.vs1 / 2 with | 1 => 8 | 2 => 4 | 3 => 2 | _ => 0
    if !vv || k = 0 || decide (n < k) || !grp then .trap 2 w s
    else velems t v w n (fun i => let e := x.elem v.vs2 i (n / k)
      some (if v.vs1 % 2 = 0 then e else unsignedW c.sew (signedW (c.sew / k) e), false)) s
  else if v.f6 = 0x14 then if vv then vmUnary t w c v s else .trap 2 w s
  else if v.f6 = 0x17 then
    if !vv || !v.vm || x.vstart ≠ 0 || !grp then .trap 2 w s else
    let is := (List.range x.vl).filter m1
    vdone t ((List.range is.length).foldl (fun y j => y.setElem v.vd j n (e2 (is.getD j 0))) x) s
  else if 0x18 ≤ v.f6 ∧ v.f6 ≤ 0x1F then
    if !vv || !v.vm then .trap 2 w s else
    let f : Bool → Bool → Bool := match v.f6 with
      | 0x18 => fun a b => a && !b | 0x19 => fun a b => a && b | 0x1A => fun a b => a || b | 0x1B => fun a b => a != b
      | 0x1C => fun a b => a || !b | 0x1D => fun a b => !(a && b) | 0x1E => fun a b => !(a || b) | _ => fun a b => !(a != b)
    vmasks t v w body (fun i => some (f (m2 i) (m1 i))) s
  else if 0x30 ≤ v.f6 then
    if c.sew = 64 || !groupOk v.vd (2 * c.lmul8) || (vv && v.f6 = 0x3E) then .trap 2 w s else
    let a := fun (i : Nat) => if 0x34 ≤ v.f6 ∧ v.f6 ≤ 0x37 then x.elem v.vs2 i (2 * n) else e2 i
    velems t v w (2 * n) (fun i => (vwOp v.f6 c.sew (a i) (b i) (x.elem v.vd i (2 * n))).map (fun r => (r, false))) s
  else if !grp then .trap 2 w s
  else velems t v w n (fun i => (vmOp v.f6 c.sew x.vxrm (e2 i) (b i) (x.elem v.vd i n)).map (fun r => (r, false))) s

/-- An instruction of opcode OP-V. Floating-point groups are illegal (R96). -/
def opvInsn (t w : Nat) (s : State) : Res :=
  let v := vinsnOf w
  if v.f3 = 7 then vsetInsn t w s else
  let c := vcfgOf (s.vctx t).vtype
  let whole := v.f3 = 3 ∧ v.f6 = 0x27
  if v.f3 = 1 ∨ v.f3 = 5 then .trap 2 w s
  else if c.ill ∧ ¬ whole then .trap 2 w s
  else if v.f3 = 2 ∨ v.f3 = 6 then opmInsn t w c v s
  else opiInsn t w c v s

/-! ## Vector loads and stores -/

/-- One element access of a vector load or store: element, field, address. -/
structure VAcc where
  i : Nat := 0
  field : Nat := 0
  addr : Nat := 0
  deriving DecidableEq, Repr

/-- Load the accesses in order, `k` of them being done. An exception leaves `vstart` at its element; a
fault-only-first load that faults past element 0 shortens `vl`; a window access stops here until its
answer, and the instruction goes on from there. -/
def vloadAll (t vd regs n : Nat) (fof : Bool) : Nat → List VAcc → State → Res
  | _, [], s => vdone t (s.vctx t) s
  | k, a :: rest, s =>
    let r := vd + a.field * regs
    match trmLoad t a.addr n s with
    | (.val v, s) => vloadAll t vd regs n fof (k + 1) rest (modCtx t (fun x => x.setElem r a.i n v) s)
    | (.trap c, s) =>
      if fof && decide (0 < a.i) then vdone t { s.vctx t with vl := a.i } s
      else .trap c a.addr (modCtx t (fun x => { x with vstart := a.i, vpos := 0 }) s)
    | (.win w o, s) => winLoad t w o a.addr (.elem r a.i n (k + 1)) (modCtx t (fun x => { x with vstart := a.i, vpos := k }) s)

/-- Store the accesses in order, `k` of them being done. -/
def vstoreAll (t vs regs n : Nat) : Nat → List VAcc → State → Res
  | _, [], s => vdone t (s.vctx t) s
  | k, a :: rest, s =>
    let bs := natLe ((s.vctx t).elem (vs + a.field * regs) a.i n) n
    match trmStore t a.addr bs s with
    | (.done, s) => vstoreAll t vs regs n (k + 1) rest s
    | (.trap c, s) => .trap c a.addr (modCtx t (fun x => { x with vstart := a.i, vpos := 0 }) s)
    | (.csr _, s) => .trap 7 a.addr (modCtx t (fun x => { x with vstart := a.i, vpos := 0 }) s)
    | (.win w o, s) =>
      match winStore t w o a.addr bs 4 (some (k + 1)) (modCtx t (fun x => { x with vstart := a.i, vpos := k }) s) with
      | .next s => vstoreAll t vs regs n (k + 1) rest s
      | r => r

/-- A vector load or store: unit-stride, whole-register, mask, fault-only-first, strided, indexed, and
their segment forms. -/
def vmemInsn (t w : Nat) (store : Bool) (s : State) : Res :=
  let x := s.vctx t
  let c := vcfgOf x.vtype
  let width := match bits w 12 3 with | 0 => 1 | 5 => 2 | 6 => 4 | _ => 8
  let nf := bits w 29 3 + 1
  let mop := bits w 26 2
  let vm := bit w 25
  let um := bits w 20 5
  let vd := bits w 7 5
  let base := s.tx t (bits w 15 5)
  let go := fun (n regs : Nat) (fof : Bool) (l : List VAcc) =>
    let k := if x.vpos ≠ 0 then x.vpos else countIf l (fun a => decide (a.i < x.vstart))
    if store then vstoreAll t vd regs n k (l.drop k) s else vloadAll t vd regs n fof k (l.drop k) s
  if bit w 28 then .trap 2 w s
  else if mop = 0 ∧ um = 8 then
    if nf ∈ ([1, 2, 4, 8] : List Nat) ∧ vd % nf = 0 ∧ vm then
      let k := nf * 64 / width
      go width 1 false ((List.range k).map (fun i => ({ i := i, addr := (base + i * width) % 2 ^ 64 } : VAcc)))
    else .trap 2 w s
  else if mop = 0 ∧ um = 11 then
    if width = 1 ∧ nf = 1 ∧ vm then go 1 1 false ((List.range (ceilDiv x.vl 8)).map (fun i => { i := i, addr := (base + i) % 2 ^ 64 })) else .trap 2 w s
  else if c.ill then .trap 2 w s
  else if !store && !vm && vd = 0 then .trap 2 w s
  else
    -- indexed forms move elements of SEW and take `width` as the index's
    let n := if mop = 1 ∨ mop = 3 then c.sew / 8 else width
    let emul8 := if mop = 1 ∨ mop = 3 then c.lmul8 else c.lmul8 * (8 * width) / c.sew
    let regs := groupRegs emul8
    let is := (List.range x.vl).filter (fun i => vm || x.maskBit 0 i)
    let addr := fun (i f : Nat) =>
      if mop = 0 then base + (i * nf + f) * n
      else if mop = 2 then base + i * s.tx t um + f * n
      else base + x.elem um i width + f * n
    let l := is.flatMap (fun i => (List.range nf).map (fun f => ({ i := i, field := f, addr := addr i f % 2 ^ 64 } : VAcc)))
    if !groupOk vd emul8 || decide (8 < nf * regs) || decide (32 < vd + nf * regs) || (mop = 0 && um ≠ 0 && (store || um ≠ 16)) then .trap 2 w s
    else go n regs (mop = 0 && um = 16) l

end Sys2Proof.Machine
end

