-- ==== Sys2Proof/Machine/Riscv.lean ====
section
/-! DEFINITION. `TRIMMER_INSTRUCTION` (R95 to R97): fetch, the compressed forms, RV64IMA, Zicsr, Zifencei
and the counters, and the opcodes of `Xplof` and the vector unit. The spec names the base instruction set
and leaves its instructions to the RISC-V specification (PRESUMED). -/

namespace Sys2Proof.Machine

/-! ## Compressed instructions -/

def encI (op f3 rd rs1 imm : Nat) : Nat := op + rd * 2 ^ 7 + f3 * 2 ^ 12 + rs1 * 2 ^ 15 + imm % 2 ^ 12 * 2 ^ 20
def encR (op f3 f7 rd rs1 rs2 : Nat) : Nat := op + rd * 2 ^ 7 + f3 * 2 ^ 12 + rs1 * 2 ^ 15 + rs2 * 2 ^ 20 + f7 * 2 ^ 25
def encS (f3 rs1 rs2 imm : Nat) : Nat := 0x23 + imm % 32 * 2 ^ 7 + f3 * 2 ^ 12 + rs1 * 2 ^ 15 + rs2 * 2 ^ 20 + imm / 32 % 128 * 2 ^ 25
def encB (f3 rs1 imm : Nat) : Nat :=
  0x63 + bits imm 11 1 * 2 ^ 7 + bits imm 1 4 * 2 ^ 8 + f3 * 2 ^ 12 + rs1 * 2 ^ 15 + bits imm 5 6 * 2 ^ 25 + bits imm 12 1 * 2 ^ 31
def encJ (rd imm : Nat) : Nat :=
  0x6F + rd * 2 ^ 7 + bits imm 12 8 * 2 ^ 12 + bits imm 11 1 * 2 ^ 20 + bits imm 1 10 * 2 ^ 21 + bits imm 20 1 * 2 ^ 31

/-- The low `k` bits of a field sign-extended to 64. -/
def sx (k v : Nat) : Nat := unsignedW 64 (signedW k v)

/-- The 32-bit instruction of a compressed one; none for an illegal or floating-point form. -/
def expandC (h : Nat) : Option Nat :=
  let f3 := bits h 13 3
  let rd := bits h 7 5
  let rs2 := bits h 2 5
  let rdp := 8 + bits h 2 3
  let rsp := 8 + bits h 7 3
  let b := fun (i k at_ : Nat) => bits h i k * 2 ^ at_
  let imm6 := sx 6 (b 12 1 5 + bits h 2 5)
  let shamt := b 12 1 5 + bits h 2 5
  let lw := b 10 3 3 + b 6 1 2 + b 5 1 6
  let ld := b 10 3 3 + b 5 2 6
  match h % 4, f3 with
  | 0, 0 => let n := b 11 2 4 + b 7 4 6 + b 6 1 2 + b 5 1 3; if n = 0 then none else some (encI 0x13 0 rdp 2 n)
  | 0, 2 => some (encI 0x03 2 rdp rsp lw)
  | 0, 3 => some (encI 0x03 3 rdp rsp ld)
  | 0, 6 => some (encS 2 rsp rdp lw)
  | 0, 7 => some (encS 3 rsp rdp ld)
  | 1, 0 => some (encI 0x13 0 rd rd imm6)
  | 1, 1 => if rd = 0 then none else some (encI 0x1B 0 rd rd imm6)
  | 1, 2 => some (encI 0x13 0 rd 0 imm6)
  | 1, 3 =>
    if rd = 2 then
      let n := sx 10 (b 12 1 9 + b 6 1 4 + b 5 1 6 + b 3 2 7 + b 2 1 5)
      if n = 0 then none else some (encI 0x13 0 2 2 n)
    else if imm6 = 0 then none else some (0x37 + rd * 2 ^ 7 + imm6 % 2 ^ 20 * 2 ^ 12)
  | 1, 4 =>
    match bits h 10 2 with
    | 0 => some (encI 0x13 5 rsp rsp shamt)
    | 1 => some (encI 0x13 5 rsp rsp (shamt + 0x400))
    | 2 => some (encI 0x13 7 rsp rsp imm6)
    | _ => match bits h 12 1, bits h 5 2 with
      | 0, 0 => some (encR 0x33 0 0x20 rsp rsp rdp)
      | 0, 1 => some (encR 0x33 4 0 rsp rsp rdp)
      | 0, 2 => some (encR 0x33 6 0 rsp rsp rdp)
      | 0, _ => some (encR 0x33 7 0 rsp rsp rdp)
      | _, 0 => some (encR 0x3B 0 0x20 rsp rsp rdp)
      | _, 1 => some (encR 0x3B 0 0 rsp rsp rdp)
      | _, _ => none
  | 1, 5 => some (encJ 0 (sx 12 (b 12 1 11 + b 11 1 4 + b 9 2 8 + b 8 1 10 + b 7 1 6 + b 6 1 7 + b 3 3 1 + b 2 1 5)))
  | 1, 6 => some (encB 0 rsp (sx 9 (b 12 1 8 + b 10 2 3 + b 5 2 6 + b 3 2 1 + b 2 1 5)))
  | 1, 7 => some (encB 1 rsp (sx 9 (b 12 1 8 + b 10 2 3 + b 5 2 6 + b 3 2 1 + b 2 1 5)))
  | 2, 0 => some (encI 0x13 1 rd rd shamt)
  | 2, 2 => if rd = 0 then none else some (encI 0x03 2 rd 2 (b 12 1 5 + b 4 3 2 + b 2 2 6))
  | 2, 3 => if rd = 0 then none else some (encI 0x03 3 rd 2 (b 12 1 5 + b 5 2 3 + b 2 3 6))
  | 2, 4 =>
    if bits h 12 1 = 0 then
      if rs2 ≠ 0 then some (encR 0x33 0 0 rd 0 rs2) else if rd = 0 then none else some (encI 0x67 0 0 rd 0)
    else if rs2 ≠ 0 then some (encR 0x33 0 0 rd rd rs2) else if rd = 0 then some 0x00100073 else some (encI 0x67 0 1 rd 0)
  | 2, 6 => some (encS 2 2 rs2 (b 9 4 2 + b 7 2 6))
  | 2, 7 => some (encS 3 2 rs2 (b 10 3 3 + b 7 3 6))
  | _, _ => none

/-! ## Integer arithmetic -/

/-- OP and OP-IMM on `w` bits (64, or 32 for the W forms, whose result is sign-extended). -/
def aluOp (w f3 : Nat) (alt : Bool) (a b : Nat) : Nat :=
  let x := a % 2 ^ w
  let y := b % 2 ^ w
  let sh := b % w
  let r := match f3 with
    | 0 => if alt then unsignedW w ((x : Int) - y) else (x + y) % 2 ^ w
    | 1 => x * 2 ^ sh % 2 ^ w
    | 2 => b2n (decide (signedW w x < signedW w y))
    | 3 => b2n (decide (x < y))
    | 4 => x ^^^ y
    | 5 => if alt then unsignedW w (signedW w x / (2 ^ sh : Int)) else x / 2 ^ sh
    | 6 => x ||| y
    | _ => x &&& y
  if w = 32 then sx 32 r else r

/-- The M extension on `w` bits. -/
def mulOp (w f3 a b : Nat) : Nat :=
  let x := a % 2 ^ w
  let y := b % 2 ^ w
  let r := match f3 with
    | 0 => x * y % 2 ^ w
    | 1 => unsignedW w (signedW w x * signedW w y / (2 ^ w : Int))
    | 2 => unsignedW w (signedW w x * y / (2 ^ w : Int))
    | 3 => x * y / 2 ^ w
    | 4 => divS w x y
    | 5 => divU w x y
    | 6 => remS w x y
    | _ => remU w x y
  if w = 32 then sx 32 r else r

/-! ## Control and status registers (R102, R104, R119, R120) -/

/-- What user code reads of a CSR; none for an illegal access. Counters need `PERF_USER` outside machine
mode (R119). -/
def State.ucsr (s : State) (t n : Nat) : Option Nat :=
  let x := s.trmOf t
  let perf := recPerfUser (s.sagRec (s.trmSag t)) || s.inM t
  if n = 0x800 then some x.xuvec
  else if 0x810 ≤ n ∧ n < 0x820 then some (aget x.xwin (n - 0x810) 0)
  else if n = 0x830 then some x.xsmpctl
  else if n = 0xCC0 then some x.xfstat
  else if n = 0xCC1 then some x.xmark
  else if n = 0xCC2 then some (s.trmSag t + t * 2 ^ 16)
  else if 0xC00 ≤ n ∧ n ≤ 0xC0A then (if perf then some (s.hpmRead t (n - 0xC00)) else none)
  else if 0xC0B ≤ n ∧ n < 0xC20 then (if perf then some 0 else none)
  else if n = 0x008 then some (x.ctx.vstart % 512)
  else if n = 0x009 then some x.ctx.vxsat
  else if n = 0x00A then some x.ctx.vxrm
  else if n = 0x00F then some (x.ctx.vxrm * 2 + x.ctx.vxsat)
  else if n = 0xC20 then some x.ctx.vl
  else if n = 0xC21 then some x.ctx.vtype
  else if n = 0xC22 then some 64
  else none

/-- `misa`: 64 bits, extensions I, M, A, C, U and X; V reads 0 (R95). -/
def misa : Nat := 2 ^ 63 + 2 ^ 8 + 2 ^ 12 + 2 ^ 0 + 2 ^ 2 + 2 ^ 20 + 2 ^ 23

/-- The machine CSRs that hold what is written: `mstatus`, `mie`, `mtvec`, `mcounteren`, `mcountinhibit`,
event selectors, `mscratch`, `mepc`, `mcause` and `mtval`. -/
def mcsrHeld (n : Nat) : Bool := ([0x300, 0x304, 0x305, 0x306] : List Nat).contains n || decide (0x320 ≤ n ∧ n < 0x344)

/-- What machine firmware reads of a machine CSR: `pmpcfg` and `pmpaddr` read 0, `satp` is absent (R98), and
the numbers R95 and R98 do not mention are those of the RISC-V privileged architecture (PRESUMED). -/
def State.mcsrRead (s : State) (t n : Nat) : Option Nat :=
  let x := s.trmOf t
  let pend := fun (c : Nat) => b2n (x.upcalls.any (fun e => e.mcause = c)) * 2 ^ c
  if n = 0x301 then some misa
  else if mcsrHeld n then some (aget x.mcsr n 0)
  else if n = 0x344 then some (b2n (!x.rptq.isEmpty) * 2 ^ 16 + pend 17 + pend 18 + pend 19)
  else if 0x3A0 ≤ n ∧ n < 0x3F0 then some 0
  else if 0xB00 ≤ n ∧ n ≤ 0xB0A ∧ n ≠ 0xB01 then some (s.hpmLive t (n - 0xB00))
  else if 0xB0B ≤ n ∧ n < 0xB20 then some 0
  else if 0xF11 ≤ n ∧ n ≤ 0xF15 then some (if n = 0xF14 then t else 0)
  else none

/-- What the running code reads of a CSR. -/
def State.csrReg (s : State) (t n : Nat) : Option Nat :=
  match s.ucsr t n with
  | some v => some v
  | none => if s.inM t then s.mcsrRead t n else none

/-- A CSR written by the running code; reserved bits are dropped, and a machine CSR that holds nothing
discards the write. -/
def setUcsr (t n v : Nat) (s : State) : State :=
  if n = 0x800 then modTrm t (fun x => { x with xuvec := v }) s
  else if 0x810 ≤ n ∧ n < 0x820 then
    modTrm t (fun x => { x with xwin := aset x.xwin (n - 0x810) (v / 2 ^ 30 * 2 ^ 30 + v % 2) }) s
  else if n = 0x830 then modTrm t (fun x => { x with xsmpctl := v % 2 ^ 14 }) s
  else if n = 0x008 then modCtx t (fun x => { x with vstart := v % 512, vpos := 0 }) s
  else if n = 0x009 then modCtx t (fun x => { x with vxsat := v % 2 }) s
  else if n = 0x00A then modCtx t (fun x => { x with vxrm := v % 4 }) s
  else if n = 0x00F then modCtx t (fun x => { x with vxsat := v % 2, vxrm := v / 2 % 4 }) s
  else if mcsrHeld n then modTrm t (fun x => { x with mcsr := aset x.mcsr n v }) s
  else s

/-- A Zicsr instruction. -/
def csrInsn (t w : Nat) (s : State) : Res :=
  let n := bits w 20 12
  let f3 := bits w 12 3
  let rd := bits w 7 5
  let rs1 := bits w 15 5
  let src := if 4 ≤ f3 then rs1 else s.tx t rs1
  let writes := f3 % 4 = 1 ∨ rs1 ≠ 0
  match s.csrReg t n with
  | none => .trap 2 w s
  | some old =>
    if writes ∧ n / 2 ^ 10 = 3 then .trap 2 w s else
    let new := match f3 % 4 with | 1 => src | 2 => old ||| src | _ => old - (old &&& src)
    .next (setTx t rd old (if writes then setUcsr t n new s else s))

/-! ## Memory -/

def loadInsn (t rd addr n : Nat) (signed : Bool) (len : Nat) (s : State) : Res :=
  match trmLoad t addr n s with
  | (.val v, s) => .next (setTx t rd (extend v n signed) s)
  | (.trap c, s) => .trap c addr s
  | (.win k a, s) => winLoad t k a addr (.load rd n signed len) s

/-- A CSR store of machine firmware: one word or two; any answer but `OK` is an access fault (R100). -/
def csrStore (t a addr : Nat) (bs : List Byte) (s : State) : Res :=
  let who := Who.trimmerFw (s.trmSag t) t
  let word := fun (i : Nat) => BitVec.ofNat 32 (le bs (4 * i) 4)
  if bs.length < 4 then .trap 7 addr s else
  match csrWriteWord who a (word 0) s with
  | (.ok, s) =>
    if bs.length = 4 then .next s else
    match csrWriteWord who (a + 4) (word 1) s with
    | (.ok, s) => .next s
    | (_, s) => .trap 7 addr s
  | (_, s) => .trap 7 addr s

def storeInsn (t addr : Nat) (bs : List Byte) (len : Nat) (s : State) : Res :=
  match trmStore t addr bs s with
  | (.done, s) => .next s
  | (.trap c, s) => .trap c addr s
  | (.win k a, s) => winStore t k a addr bs len none s
  | (.csr a, s) => csrStore t a addr bs s

/-- The new value of a read-modify-write AMO on `w` bits. -/
def amoOp (w f5 old v : Nat) : Option Nat :=
  let a := signedW w old
  let b := signedW w v
  match f5 with
  | 0x01 => some v
  | 0x00 => some ((old + v) % 2 ^ w)
  | 0x04 => some (old ^^^ v)
  | 0x0C => some (old &&& v)
  | 0x08 => some (old ||| v)
  | 0x10 => some (if a ≤ b then old else v)
  | 0x14 => some (if b ≤ a then old else v)
  | 0x18 => some (min old v)
  | 0x1C => some (max old v)
  | _ => none

/-- The fabric operation of a 64-bit AMO through a window (R102). -/
def winOpcode (f5 : Nat) : Option Nat :=
  match f5 with | 0x00 => some opADD | 0x10 => some opMIN | 0x14 => some opMAX | 0x01 => some opSWAP | _ => none

/-- LR, SC and the AMOs. -/
def amoInsn (t w len : Nat) (s : State) : Res :=
  let n := if bits w 12 3 = 2 then 4 else 8
  let f5 := bits w 27 5
  let rd := bits w 7 5
  let addr := s.tx t (bits w 15 5)
  let v := s.tx t (bits w 20 5) % 2 ^ (8 * n)
  let lr := f5 = 2
  let mis := if lr then 4 else 6
  if bits w 12 3 ≠ 2 ∧ bits w 12 3 ≠ 3 ∨ (lr ∧ bits w 20 5 ≠ 0) ∨ (f5 ≠ 2 ∧ f5 ≠ 3 ∧ (amoOp (8 * n) f5 0 0).isNone) then .trap 2 w s
  else
  match s.zone t addr n (!lr) with
  | none => .trap (mis + 1) addr s
  | some z =>
    let mem := match z with | .local_ _ => true | _ => false
    if addr % n ≠ 0 && !mem then .trap mis addr s else
    match z with
    | .win k a =>
      match (if n = 8 then winOpcode f5 else none) with
      | some op => winAmo t rd k a addr op v len s
      | none => .trap (mis + 1) addr s
    | .csr _ => .trap (mis + 1) addr s
    | _ =>
      match trmLoad t addr n s with
      | (.val old, s) =>
        if lr then .next (setTx t rd (extend old n true) (modTrm t (fun x => { x with resv := some (addr, n) }) s))
        else if f5 = 3 then
          if (s.trmOf t).resv = some (addr, n) then
            .next (setTx t rd 0 (modTrm t (fun x => { x with resv := none }) (trmStore t addr (natLe v n) s).2))
          else .next (setTx t rd 1 (modTrm t (fun x => { x with resv := none }) s))
        else .next (setTx t rd (extend old n true) (trmStore t addr (natLe ((amoOp (8 * n) f5 old v).getD 0) n) s).2)
      | (.trap c, s) => .trap c addr s
      | (.win _ _, s) => .trap (mis + 1) addr s

/-! ## Xplof opcodes (R106) -/

def xplofInsn (t w len : Nat) (s : State) : Res :=
  let rd := bits w 7 5
  let rs1 := bits w 15 5
  let rs2 := bits w 20 5
  match bits w 25 7, bits w 12 3 with
  | 0, 0 => arrIssueInsn t rd rs1 len s
  | 0, 1 => arrWaitInsn t rd rs1 len s
  | 1, 0 => frmAddInsn t rd rs1 (termS (s.tx t rs2)) s
  | 1, 1 => frmAddInsn t rd rs1 (termH (s.tx t rs2)) s
  | 1, 2 => frmAddInsn t rd rs1 (termI (s.tx t rs2)) s
  | 1, 3 => frmAddFInsn t rd rs1 rs2 s
  | 1, 4 => match frmFinInsn t rd rs1 rs2 s with | .trap 2 _ s => .trap 2 w s | r => r
  | 2, 0 => .hold (rptRet t rs1 rs2 s)
  | 3, 0 => shelfPinInsn t rd rs1 rs2 s
  | 4, 0 => sampleMarkInsn t rs1 s
  | _, _ => .trap 2 w s

/-! ## One instruction -/

def branchTaken (f3 a b : Nat) : Option Bool :=
  match f3 with
  | 0 => some (decide (a = b)) | 1 => some (decide (a ≠ b))
  | 4 => some (decide (signed64 a < signed64 b)) | 5 => some (decide (signed64 b ≤ signed64 a))
  | 6 => some (decide (a < b)) | 7 => some (decide (b ≤ a))
  | _ => none

/-- `mret`: to the mode `MPP` names, at `mepc`; in user mode the program runs (RISC-V, PRESUMED). -/
def mretInsn (t : Nat) (s : State) : Res :=
  let x := s.trmOf t
  let st := aget x.mcsr 0x300 0
  let pc := aget x.mcsr 0x341 0
  let mst := st - bits st 3 1 * 8 - bits st 7 1 * 128 - bits st 11 2 * 2 ^ 11 + bits st 7 1 * 8 + 128
  let s := modTrm t (fun x => { x with mcsr := aset x.mcsr 0x300 mst }) s
  if bits st 11 2 = 3 then .jump pc s
  else .jump pc (modTrm t (fun x => { x with run := .main, mode := 2 }) s)

/-- `ecall`, `ebreak`, `wfi` and `mret`; an upcall's return (R105). -/
def systemInsn (t w : Nat) (s : State) : Res :=
  if w = 0x00000073 then
    if (s.trmOf t).run = .upcall ∧ s.tx t 17 = 1 then .hold (upcallReturn t (bumpHpm t 2 1 (bumpCtr (ctrTrmRetired t) 1 s)))
    else .trap (if s.inM t then 11 else 8) 0 s
  else if w = 0x00100073 then .trap 3 (s.trmPc t) s
  else if w = 0x10500073 then .next s
  else if w = 0x30200073 && s.inM t then mretInsn t s
  else .trap 2 w s

/-- The instruction word `w`, `len` bytes long in memory, at the pc. -/
def execWord (t w len : Nat) (s : State) : Res :=
  let pc := s.trmPc t
  let op := w % 128
  let rd := bits w 7 5
  let f3 := bits w 12 3
  let a := s.tx t (bits w 15 5)
  let b := s.tx t (bits w 20 5)
  let f7 := bits w 25 7
  let immI := sx 12 (w / 2 ^ 20)
  let immS := sx 12 (f7 * 32 + rd)
  let immU := sx 32 (w / 2 ^ 12 * 2 ^ 12)
  let immB := sx 13 (bits w 8 4 * 2 + bits w 25 6 * 32 + bits w 7 1 * 2 ^ 11 + bits w 31 1 * 2 ^ 12)
  let immJ := sx 21 (bits w 21 10 * 2 + bits w 20 1 * 2 ^ 11 + bits w 12 8 * 2 ^ 12 + bits w 31 1 * 2 ^ 20)
  let next := (pc + len) % 2 ^ 64
  let put := fun (v : Nat) => Res.next (setTx t rd v s)
  match op with
  | 0x37 => put immU
  | 0x17 => put ((pc + immU) % 2 ^ 64)
  | 0x6F => .jump ((pc + immJ) % 2 ^ 64) (setTx t rd next s)
  | 0x67 => if f3 = 0 then let d := (a + immI) % 2 ^ 64; .jump (d - d % 2) (setTx t rd next s) else .trap 2 w s
  | 0x63 => match branchTaken f3 a b with
    | some true => .jump ((pc + immB) % 2 ^ 64) s
    | some false => .next s
    | none => .trap 2 w s
  | 0x03 => match f3 with
    | 0 => loadInsn t rd ((a + immI) % 2 ^ 64) 1 true len s
    | 1 => loadInsn t rd ((a + immI) % 2 ^ 64) 2 true len s
    | 2 => loadInsn t rd ((a + immI) % 2 ^ 64) 4 true len s
    | 3 => loadInsn t rd ((a + immI) % 2 ^ 64) 8 true len s
    | 4 => loadInsn t rd ((a + immI) % 2 ^ 64) 1 false len s
    | 5 => loadInsn t rd ((a + immI) % 2 ^ 64) 2 false len s
    | 6 => loadInsn t rd ((a + immI) % 2 ^ 64) 4 false len s
    | _ => .trap 2 w s
  | 0x23 => if f3 ≤ 3 then storeInsn t ((a + immS) % 2 ^ 64) (natLe b (2 ^ f3)) len s else .trap 2 w s
  | 0x13 =>
    if f3 = 1 ∧ w / 2 ^ 26 ≠ 0 ∨ f3 = 5 ∧ w / 2 ^ 26 ≠ 0 ∧ w / 2 ^ 26 ≠ 0x10 then .trap 2 w s
    else put (aluOp 64 f3 (f3 = 5 && bit w 30) a immI)
  | 0x1B =>
    if f3 = 0 ∨ f3 = 1 ∧ f7 = 0 ∨ f3 = 5 ∧ (f7 = 0 ∨ f7 = 0x20) then put (aluOp 32 f3 (f3 = 5 && bit w 30) a immI) else .trap 2 w s
  | 0x33 =>
    if f7 = 1 then put (mulOp 64 f3 a b)
    else if f7 = 0 ∨ f7 = 0x20 ∧ (f3 = 0 ∨ f3 = 5) then put (aluOp 64 f3 (f7 = 0x20) a b) else .trap 2 w s
  | 0x3B =>
    if f7 = 1 ∧ (f3 = 0 ∨ 4 ≤ f3) then put (mulOp 32 f3 a b)
    else if f7 = 0 ∧ (f3 = 0 ∨ f3 = 1 ∨ f3 = 5) ∨ f7 = 0x20 ∧ (f3 = 0 ∨ f3 = 5) then put (aluOp 32 f3 (f7 = 0x20) a b)
    else .trap 2 w s
  | 0x0F =>
    if f3 = 0 then (if bit w 24 && !(s.trmOf t).wins.isEmpty then .hold s else .next s)
    else if f3 = 1 then .next s else .trap 2 w s
  | 0x2F => amoInsn t w len s
  | 0x73 => if f3 = 0 then systemInsn t w s else if f3 = 4 then .trap 2 w s else csrInsn t w s
  | 0x0B => xplofInsn t w len s
  | 0x57 => opvInsn t w s
  | 0x07 => if f3 = 0 ∨ 5 ≤ f3 then vmemInsn t w false s else .trap 2 w s
  | 0x27 => if f3 = 0 ∨ 5 ≤ f3 then vmemInsn t w true s else .trap 2 w s
  | _ => .trap 2 w s

/-- The `n` bytes fetched at an address: of user local memory in U-mode, of the firmware instruction SRAM in
M-mode (R99); none elsewhere. Where no firmware package has been written the code the part was made with is
in force, which the spec does not give. -/
def State.fetch (s : State) (t pc n : Nat) : Option Nat :=
  let x := s.trmOf t
  if s.inM t then
    if 0x8000000 ≤ pc ∧ pc + n ≤ 0x8010000 then
      some (leNat (if x.fwMem = [] then (List.range n).map (fun i => Config.trimmerFirmware (pc - 0x8000000 + i))
        else memRead x.fwMem (pc - 0x8000000) n))
    else none
  else if 0x9000 ≤ pc ∧ pc + n ≤ 0x40000 then some (leNat (memRead x.mem pc n))
  else none

/-- Fetch and execute the instruction at the pc. -/
def fetchInsn (t : Nat) (s : State) : State :=
  let pc := s.trmPc t
  match s.fetch t pc 2 with
  | none => trapTrm t 1 pc s
  | some h =>
    if h % 4 ≠ 3 then
      match expandC h with
      | some w => finishInsn t 2 (execWord t w 2 s)
      | none => trapTrm t 2 h s
    else match s.fetch t pc 4 with
      | none => trapTrm t 1 (pc + 2) s
      | some w => finishInsn t 4 (execWord t w 4 s)

/-- `TRIMMER_INSTRUCTION`: the code that runs, user code or machine firmware, executes the instruction at
its pc. -/
def trimmerInstruction (t : Nat) (s : State) : State :=
  if s.trmRuns t then inCtx t (fetchInsn t) (beginInsn t s) else s

/-- The meaning of `TRIMMER_INSTRUCTION`. -/
def execTrimmerInstruction (t : Nat) (s : State) : Host.Outcome State Fault Refusal :=
  run (decide (t < 128)) (trimmerInstruction t s)

end Sys2Proof.Machine
end

