-- ==== Sys2Proof/Machine/Dispatch.lean ====
section
/-! DEFINITION. What each command does: one arm per constructor of `Instr`. -/

namespace Sys2Proof.Machine

def exec (i : Instr) (s : State) : Host.Outcome State Fault Refusal :=
  match i with
  | .csrWrite who addr value => Sys2Proof.Machine.execCsrWrite who addr value s
  | .counterLowRead who addr => Sys2Proof.Machine.execCounterLowRead who addr s
  | .counterHighRead who addr => Sys2Proof.Machine.execCounterHighRead who addr s
  | .witMirrorLowRead who addr => Sys2Proof.Machine.execWitMirrorLowRead who addr s
  | .counterClear who addr value => Sys2Proof.Machine.execCounterClear who addr value s
  | .satFieldClear who addr value => Sys2Proof.Machine.execSatFieldClear who addr value s
  | .fenceArrival unit cause => Sys2Proof.Machine.execFenceArrival unit cause s
  | .cpRestart => Sys2Proof.Machine.execCpRestart s
  | .cpRestartEnd => Sys2Proof.Machine.execCpRestartEnd s
  | .mpRestart => Sys2Proof.Machine.execMpRestart s
  | .mpRestartEnd => Sys2Proof.Machine.execMpRestartEnd s
  | .arrIssue t rd rs1 => Sys2Proof.Machine.execArrIssue t rd rs1 s
  | .arrIssueUnstall t => Sys2Proof.Machine.execArrIssueUnstall t s
  | .jobLoadStart a => Sys2Proof.Machine.execJobLoadStart a s
  | .tileLoaded a => Sys2Proof.Machine.execTileLoaded a s
  | .groupComplete gid => Sys2Proof.Machine.execGroupComplete gid s
  | .groupAssemblyTimeout gid => Sys2Proof.Machine.execGroupAssemblyTimeout gid s
  | .rampRelease die => Sys2Proof.Machine.execRampRelease die s
  | .operandArrival a slot addr crcOk => Sys2Proof.Machine.execOperandArrival a slot addr crcOk s
  | .streamToken a upset => Sys2Proof.Machine.execStreamToken a upset s
  | .retryReloaded a => Sys2Proof.Machine.execRetryReloaded a s
  | .streamComplete a => Sys2Proof.Machine.execStreamComplete a s
  | .jobCompletion a slot => Sys2Proof.Machine.execJobCompletion a slot s
  | .arrFenceWrite who a => Sys2Proof.Machine.execArrFenceWrite who a s
  | .arrUnfence who a => Sys2Proof.Machine.execArrUnfence who a s
  | .arrBistDone a result => Sys2Proof.Machine.execArrBistDone a result s
  | .arrayPowerOnBist a result => Sys2Proof.Machine.execArrayPowerOnBist a result s
  | .trimmerInstruction t => Sys2Proof.Machine.execTrimmerInstruction t s
  | .arrWait t rd rs1 => Sys2Proof.Machine.execArrWait t rd rs1 s
  | .arrWaitWake t => Sys2Proof.Machine.execArrWaitWake t s
  | .arrWaitTimeout t => Sys2Proof.Machine.execArrWaitTimeout t s
  | .frmAddS t rd rs1 rs2 => Sys2Proof.Machine.execFrmAddS t rd rs1 rs2 s
  | .frmAddH t rd rs1 rs2 => Sys2Proof.Machine.execFrmAddH t rd rs1 rs2 s
  | .frmAddI t rd rs1 rs2 => Sys2Proof.Machine.execFrmAddI t rd rs1 rs2 s
  | .frmAddF t rd rs1 rs2 => Sys2Proof.Machine.execFrmAddF t rd rs1 rs2 s
  | .frmFin t rd rs1 rs2 => Sys2Proof.Machine.execFrmFin t rd rs1 rs2 s
  | .rptRet t rs1 rs2 => Sys2Proof.Machine.execRptRet t rs1 rs2 s
  | .shelfPin t rd rs1 rs2 => Sys2Proof.Machine.execShelfPin t rd rs1 rs2 s
  | .shelfUnpin t rd rs1 rs2 => Sys2Proof.Machine.execShelfUnpin t rd rs1 rs2 s
  | .sampleMark t rs1 => Sys2Proof.Machine.execSampleMark t rs1 s
  | .windowLoad t rd addr bytes signed => Sys2Proof.Machine.execWindowLoad t rd addr bytes signed s
  | .windowStore t addr data => Sys2Proof.Machine.execWindowStore t addr data s
  | .windowAmo t rd op addr value => Sys2Proof.Machine.execWindowAmo t rd op addr value s
  | .windowRetryBackoff t tag => Sys2Proof.Machine.execWindowRetryBackoff t tag s
  | .interruptTake t => Sys2Proof.Machine.execInterruptTake t s
  | .upcallReturn t => Sys2Proof.Machine.execUpcallReturn t s
  | .rptHandlerFault t mcause mtval => Sys2Proof.Machine.execRptHandlerFault t mcause mtval s
  | .rptBudgetExhausted t => Sys2Proof.Machine.execRptBudgetExhausted t s
  | .mainCodeFault t mcause mtval => Sys2Proof.Machine.execMainCodeFault t mcause mtval s
  | .programSwapTimeout saggar => Sys2Proof.Machine.execProgramSwapTimeout saggar s
  | .trmParityError t firmware addr => Sys2Proof.Machine.execTrmParityError t firmware addr s
  | .fwRestart who t => Sys2Proof.Machine.execFwRestart who t s
  | .trmFence who t => Sys2Proof.Machine.execTrmFence who t s
  | .trmUnfence who t => Sys2Proof.Machine.execTrmUnfence who t s
  | .trmBistDone t pass => Sys2Proof.Machine.execTrmBistDone t pass s
  | .trimmerEnterService t => Sys2Proof.Machine.execTrimmerEnterService t s
  | .stepTokenOpen p => Sys2Proof.Machine.execStepTokenOpen p s
  | .stepTokenEpDone p => Sys2Proof.Machine.execStepTokenEpDone p s
  | .stepTokenClose p => Sys2Proof.Machine.execStepTokenClose p s
  | .stepTokenClosed p => Sys2Proof.Machine.execStepTokenClosed p s
  | .stepTokenAbort p => Sys2Proof.Machine.execStepTokenAbort p s
  | .leaderOpenDue due => Sys2Proof.Machine.execLeaderOpenDue due s
  | .memberStepDrained comp => Sys2Proof.Machine.execMemberStepDrained comp s
  | .recRingRoom comp => Sys2Proof.Machine.execRecRingRoom comp s
  | .dispatch p => Sys2Proof.Machine.execDispatch p s
  | .batchClosePoint saggar layer => Sys2Proof.Machine.execBatchClosePoint saggar layer s
  | .batchRun saggar layer expert => Sys2Proof.Machine.execBatchRun saggar layer expert s
  | .cutOff saggar layer => Sys2Proof.Machine.execCutOff saggar layer s
  | .shelfTileStaged saggar layer expert tile => Sys2Proof.Machine.execShelfTileStaged saggar layer expert tile s
  | .sealNow who saggar => Sys2Proof.Machine.execSealNow who saggar s
  | .replayEnter who saggar => Sys2Proof.Machine.execReplayEnter who saggar s
  | .replayExit who saggar => Sys2Proof.Machine.execReplayExit who saggar s
  | .replayRecord saggar record => Sys2Proof.Machine.execReplayRecord saggar record s
  | .epWaitExpiry comp endpoint => Sys2Proof.Machine.execEpWaitExpiry comp endpoint s
  | .epLost comp endpoint => Sys2Proof.Machine.execEpLost comp endpoint s
  | .attend p => Sys2Proof.Machine.execAttend p s
  | .attendBlockDone req seqPage kvHead => Sys2Proof.Machine.execAttendBlockDone req seqPage kvHead s
  | .regionCreate p => Sys2Proof.Machine.execRegionCreate p s
  | .regionDelete p => Sys2Proof.Machine.execRegionDelete p s
  | .regionSeal p => Sys2Proof.Machine.execRegionSeal p s
  | .regionInfo p => Sys2Proof.Machine.execRegionInfo p s
  | .pageMovePassDone region page => Sys2Proof.Machine.execPageMovePassDone region page s
  | .sweeperPass tier => Sys2Proof.Machine.execSweeperPass tier s
  | .tierPromote region page => Sys2Proof.Machine.execTierPromote region page s
  | .tierShort saggar tier => Sys2Proof.Machine.execTierShort saggar tier s
  | .openVersion p => Sys2Proof.Machine.execOpenVersion p s
  | .closeVersion p => Sys2Proof.Machine.execCloseVersion p s
  | .publish p => Sys2Proof.Machine.execPublish p s
  | .moverJobStart mover => Sys2Proof.Machine.execMoverJobStart mover s
  | .moverJobComplete mover => Sys2Proof.Machine.execMoverJobComplete mover s
  | .memoryChannelFence who unit => Sys2Proof.Machine.execMemoryChannelFence who unit s
  | .hbmTempRead temps => Sys2Proof.Machine.execHbmTempRead temps s
  | .hbmTrainingDone stack pass failedPcs => Sys2Proof.Machine.execHbmTrainingDone stack pass failedPcs s
  | .dramTrainingDone channel report => Sys2Proof.Machine.execDramTrainingDone channel report s
  | .tieThresholdWrite who saggar upper34 value => Sys2Proof.Machine.execTieThresholdWrite who saggar upper34 value s
  | .flashFrameWrite frame saggar data poison => Sys2Proof.Machine.execFlashFrameWrite frame saggar data poison s
  | .pageProgramDone die host => Sys2Proof.Machine.execPageProgramDone die host s
  | .programFailure die host => Sys2Proof.Machine.execProgramFailure die host s
  | .eraseFailure die block => Sys2Proof.Machine.execEraseFailure die block s
  | .flashRead lua saggar retries failing => Sys2Proof.Machine.execFlashRead lua saggar retries failing s
  | .gcVictimSelect die => Sys2Proof.Machine.execGcVictimSelect die s
  | .gcPageMove die read => Sys2Proof.Machine.execGcPageMove die read s
  | .gcVictimErase die => Sys2Proof.Machine.execGcVictimErase die s
  | .blockTableCheckpoint => Sys2Proof.Machine.execBlockTableCheckpoint s
  | .flashOpTimeout die => Sys2Proof.Machine.execFlashOpTimeout die s
  | .flmDieFence who die => Sys2Proof.Machine.execFlmDieFence who die s
  | .flmDieUnfence who die => Sys2Proof.Machine.execFlmDieUnfence who die s
  | .ordinaryDiscard lua units => Sys2Proof.Machine.execOrdinaryDiscard lua units s
  | .secureDiscard lua units => Sys2Proof.Machine.execSecureDiscard lua units s
  | .secureDiscardDone lua => Sys2Proof.Machine.execSecureDiscardDone lua s
  | .flmInit channels => Sys2Proof.Machine.execFlmInit channels s
  | .flashRebuild => Sys2Proof.Machine.execFlashRebuild s
  | .rebuildComplete => Sys2Proof.Machine.execRebuildComplete s
  | .codecEncode p => Sys2Proof.Machine.execCodecEncode p s
  | .codecDecode p => Sys2Proof.Machine.execCodecDecode p s
  | .codecBind p => Sys2Proof.Machine.execCodecBind p s
  | .codecUnbind p => Sys2Proof.Machine.execCodecUnbind p s
  | .codecJobStart engine => Sys2Proof.Machine.execCodecJobStart engine s
  | .codecJobComplete engine => Sys2Proof.Machine.execCodecJobComplete engine s
  | .cdcFence who engine => Sys2Proof.Machine.execCdcFence who engine s
  | .cdcUnfence who engine => Sys2Proof.Machine.execCdcUnfence who engine s
  | .collOpen p => Sys2Proof.Machine.execCollOpen p s
  | .collCancel p => Sys2Proof.Machine.execCollCancel p s
  | .collInfo p => Sys2Proof.Machine.execCollInfo p s
  | .collArm p => Sys2Proof.Machine.execCollArm p s
  | .collContrib port p upsets => Sys2Proof.Machine.execCollContrib port p upsets s
  | .collResult p => Sys2Proof.Machine.execCollResult p s
  | .collFree p => Sys2Proof.Machine.execCollFree p s
  | .censusCall p => Sys2Proof.Machine.execCensusCall p s
  | .combiningEntryClose entry => Sys2Proof.Machine.execCombiningEntryClose entry s
  | .pugFence who unit => Sys2Proof.Machine.execPugFence who unit s
  | .pugUnfence who unit bistPass => Sys2Proof.Machine.execPugUnfence who unit bistPass s
  | .gatherPool p => Sys2Proof.Machine.execGatherPool p s
  | .gatherPoolDone req => Sys2Proof.Machine.execGatherPoolDone req s
  | .gatherMigrate p => Sys2Proof.Machine.execGatherMigrate p s
  | .migrationCopyDone saggar gtable row checkOk => Sys2Proof.Machine.execMigrationCopyDone saggar gtable row checkOk s
  | .sieveQuery p => Sys2Proof.Machine.execSieveQuery p s
  | .sieveQueryDone req => Sys2Proof.Machine.execSieveQueryDone req s
  | .sieveInsert p => Sys2Proof.Machine.execSieveInsert p s
  | .sieveDelete p => Sys2Proof.Machine.execSieveDelete p s
  | .sieveMerge p => Sys2Proof.Machine.execSieveMerge p s
  | .sieveMergeSwitch saggar sindex => Sys2Proof.Machine.execSieveMergeSwitch saggar sindex s
  | .sieveMergeCleanup saggar sindex => Sys2Proof.Machine.execSieveMergeCleanup saggar sindex s
  | .gthFence who engine => Sys2Proof.Machine.execGthFence who engine s
  | .gthUnfence who engine => Sys2Proof.Machine.execGthUnfence who engine s
  | .sivFence who engine => Sys2Proof.Machine.execSivFence who engine s
  | .sivUnfence who engine => Sys2Proof.Machine.execSivUnfence who engine s
  | .packetArrival port p frame => Sys2Proof.Machine.execPacketArrival port p frame s
  | .quotaRelease saggar => Sys2Proof.Machine.execQuotaRelease saggar s
  | .packetDepart port => Sys2Proof.Machine.execPacketDepart port s
  | .read p => Sys2Proof.Machine.execRead p s
  | .write p mergeMismatch => Sys2Proof.Machine.execWrite p mergeMismatch s
  | .atomicAdd p mergeMismatch => Sys2Proof.Machine.execAtomicAdd p mergeMismatch s
  | .atomicMin p mergeMismatch => Sys2Proof.Machine.execAtomicMin p mergeMismatch s
  | .atomicMax p mergeMismatch => Sys2Proof.Machine.execAtomicMax p mergeMismatch s
  | .atomicSwap p mergeMismatch => Sys2Proof.Machine.execAtomicSwap p mergeMismatch s
  | .atomicCas p mergeMismatch => Sys2Proof.Machine.execAtomicCas p mergeMismatch s
  | .frameAdd p mergeMismatch => Sys2Proof.Machine.execFrameAdd p mergeMismatch s
  | .frameAddF p mergeMismatch => Sys2Proof.Machine.execFrameAddF p mergeMismatch s
  | .rpt p => Sys2Proof.Machine.execRpt p s
  | .ack p => Sys2Proof.Machine.execAck p s
  | .ackData p => Sys2Proof.Machine.execAckData p s
  | .completionTimeout tag => Sys2Proof.Machine.execCompletionTimeout tag s
  | .nackBackoffExpiry tag => Sys2Proof.Machine.execNackBackoffExpiry tag s
  | .staleHoldTimeout tag => Sys2Proof.Machine.execStaleHoldTimeout tag s
  | .windowEntryExpiry src saggar seq => Sys2Proof.Machine.execWindowEntryExpiry src saggar seq s
  | .fabCtrlWrite who value => Sys2Proof.Machine.execFabCtrlWrite who value s
  | .hotRangeEntry region home base pages kind saggar => Sys2Proof.Machine.execHotRangeEntry region home base pages kind saggar s
  | .mgmt p => Sys2Proof.Machine.execMgmt p s
  | .inval p => Sys2Proof.Machine.execInval p s
  | .birsp port home offset => Sys2Proof.Machine.execBirsp port home offset s
  | .ownOffer p => Sys2Proof.Machine.execOwnOffer p s
  | .ownAccept p => Sys2Proof.Machine.execOwnAccept p s
  | .ownForce p => Sys2Proof.Machine.execOwnForce p s
  | .ownTransferTimeout region => Sys2Proof.Machine.execOwnTransferTimeout region s
  | .cohCtrlWrite who value => Sys2Proof.Machine.execCohCtrlWrite who value s
  | .domainFence domain cause reportedHere => Sys2Proof.Machine.execDomainFence domain cause reportedHere s
  | .domainDirectoryCleared domain member => Sys2Proof.Machine.execDomainDirectoryCleared domain member s
  | .shaperRefill => Sys2Proof.Machine.execShaperRefill s
  | .shaperWrite who addr value => Sys2Proof.Machine.execShaperWrite who addr value s
  | .sampleExport => Sys2Proof.Machine.execSampleExport s
  | .packetAgeLimit pid => Sys2Proof.Machine.execPacketAgeLimit pid s
  | .auditPassStart => Sys2Proof.Machine.execAuditPassStart s
  | .auditCellVisit => Sys2Proof.Machine.execAuditCellVisit s
  | .confIdleTurn port cls vc saggar => Sys2Proof.Machine.execConfIdleTurn port cls vc saggar s
  | .linkSignalDetect port => Sys2Proof.Machine.execLinkSignalDetect port s
  | .linkTrainDone port lanes => Sys2Proof.Machine.execLinkTrainDone port lanes s
  | .linkAlignDone port => Sys2Proof.Machine.execLinkAlignDone port s
  | .linkExch port body => Sys2Proof.Machine.execLinkExch port body s
  | .linkStateTimeout port => Sys2Proof.Machine.execLinkStateTimeout port s
  | .linkRetrainTimer port => Sys2Proof.Machine.execLinkRetrainTimer port s
  | .linkIdleFrame port frame => Sys2Proof.Machine.execLinkIdleFrame port frame s
  | .linkIdleDue port => Sys2Proof.Machine.execLinkIdleDue port s
  | .linkReplayReq port frame => Sys2Proof.Machine.execLinkReplayReq port frame s
  | .replayReqRepeat port => Sys2Proof.Machine.execReplayReqRepeat port s
  | .linkSilenceTimeout port => Sys2Proof.Machine.execLinkSilenceTimeout port s
  | .digestMismatchTimeout port => Sys2Proof.Machine.execDigestMismatchTimeout port s
  | .fecLockLoss port lanes => Sys2Proof.Machine.execFecLockLoss port lanes s
  | .laneLost port lane => Sys2Proof.Machine.execLaneLost port lane s
  | .lopReqSwap port lane => Sys2Proof.Machine.execLopReqSwap port lane s
  | .lopMirrorOn port lane => Sys2Proof.Machine.execLopMirrorOn port lane s
  | .mirrorMatched port => Sys2Proof.Machine.execMirrorMatched port s
  | .lopReady port lane => Sys2Proof.Machine.execLopReady port lane s
  | .lopSwitchAt port lane atFseq => Sys2Proof.Machine.execLopSwitchAt port lane atFseq s
  | .laneMapSwitch port => Sys2Proof.Machine.execLaneMapSwitch port s
  | .lopReqRestore port lane => Sys2Proof.Machine.execLopReqRestore port lane s
  | .lopEmergency port lane fseq => Sys2Proof.Machine.execLopEmergency port lane fseq s
  | .rotationVisit port => Sys2Proof.Machine.execRotationVisit port s
  | .recalibrationDone port eyeW eyeH => Sys2Proof.Machine.execRecalibrationDone port eyeW eyeH s
  | .prtFence who port => Sys2Proof.Machine.execPrtFence who port s
  | .prtUnfence who port => Sys2Proof.Machine.execPrtUnfence who port s
  | .prtUnretire who port => Sys2Proof.Machine.execPrtUnretire who port s
  | .rotNow who port => Sys2Proof.Machine.execRotNow who port s
  | .retrain who port => Sys2Proof.Machine.execRetrain who port s
  | .memrd port ld dpa tag => Sys2Proof.Machine.execMemrd port ld dpa tag s
  | .memwr port ld dpa tag data => Sys2Proof.Machine.execMemwr port ld dpa tag data s
  | .cxlLinkDown port => Sys2Proof.Machine.execCxlLinkDown port s
  | .modulePoll readings => Sys2Proof.Machine.execModulePoll readings s
  | .moduleRemoval port => Sys2Proof.Machine.execModuleRemoval port s
  | .jqSignalDetect => Sys2Proof.Machine.execJqSignalDetect s
  | .jqLockDone => Sys2Proof.Machine.execJqLockDone s
  | .jqAlignDone => Sys2Proof.Machine.execJqAlignDone s
  | .jqInit body => Sys2Proof.Machine.execJqInit body s
  | .jqStateTimeout => Sys2Proof.Machine.execJqStateTimeout s
  | .jqRetryTimer => Sys2Proof.Machine.execJqRetryTimer s
  | .jqIdleFrame frame => Sys2Proof.Machine.execJqIdleFrame frame s
  | .jqIdleDue => Sys2Proof.Machine.execJqIdleDue s
  | .jqReplayReq frame => Sys2Proof.Machine.execJqReplayReq frame s
  | .jqReplayRepeat => Sys2Proof.Machine.execJqReplayRepeat s
  | .jqSilenceTimeout => Sys2Proof.Machine.execJqSilenceTimeout s
  | .hello frame hello => Sys2Proof.Machine.execHello frame hello s
  | .proof frame signature => Sys2Proof.Machine.execProof frame signature s
  | .sessionClose frame => Sys2Proof.Machine.execSessionClose frame s
  | .jqCsrRead frame count tag addr => Sys2Proof.Machine.execJqCsrRead frame count tag addr s
  | .jqCsrWrite frame count tag addr words => Sys2Proof.Machine.execJqCsrWrite frame count tag addr words s
  | .bulkBegin frame kind xfer total => Sys2Proof.Machine.execBulkBegin frame kind xfer total s
  | .bulkData frame xfer offset data => Sys2Proof.Machine.execBulkData frame xfer offset data s
  | .bulkEnd frame xfer digest => Sys2Proof.Machine.execBulkEnd frame xfer digest s
  | .subscribe frame enable minSev => Sys2Proof.Machine.execSubscribe frame enable minSev s
  | .witnessRead frame saggar readTag => Sys2Proof.Machine.execWitnessRead frame saggar readTag s
  | .recordAck saggar => Sys2Proof.Machine.execRecordAck saggar s
  | .relayGapTimeout sid => Sys2Proof.Machine.execRelayGapTimeout sid s
  | .prepare src epoch digest fenceList => Sys2Proof.Machine.execPrepare src epoch digest fenceList s
  | .ready src epoch => Sys2Proof.Machine.execReady src epoch s
  | .commit src epoch => Sys2Proof.Machine.execCommit src epoch s
  | .abandon src epoch => Sys2Proof.Machine.execAbandon src epoch s
  | .stagingTimeout silent => Sys2Proof.Machine.execStagingTimeout silent s
  | .drainQuiet => Sys2Proof.Machine.execDrainQuiet s
  | .drained src epoch => Sys2Proof.Machine.execDrained src epoch s
  | .drainMaxExpiry => Sys2Proof.Machine.execDrainMaxExpiry s
  | .forceClose who => Sys2Proof.Machine.execForceClose who s
  | .imgCtrlAbandon who => Sys2Proof.Machine.execImgCtrlAbandon who s
  | .coordAliveDue => Sys2Proof.Machine.execCoordAliveDue s
  | .coordAlive src => Sys2Proof.Machine.execCoordAlive src s
  | .coordSilence => Sys2Proof.Machine.execCoordSilence s
  | .coordBothSilent reachable => Sys2Proof.Machine.execCoordBothSilent reachable s
  | .coordClaim src claimant epoch standby => Sys2Proof.Machine.execCoordClaim src claimant epoch standby s
  | .coordQuery neighbour answer => Sys2Proof.Machine.execCoordQuery neighbour answer s
  | .imgStore who => Sys2Proof.Machine.execImgStore who s
  | .imgStoreDone verified => Sys2Proof.Machine.execImgStoreDone verified s
  | .attest who saggar => Sys2Proof.Machine.execAttest who saggar s
  | .attestDone saggar => Sys2Proof.Machine.execAttestDone saggar s
  | .keyLoad who saggar => Sys2Proof.Machine.execKeyLoad who saggar s
  | .keyLoadDone saggar => Sys2Proof.Machine.execKeyLoadDone saggar s
  | .keyErase who saggar => Sys2Proof.Machine.execKeyErase who saggar s
  | .ephemeralKeyExpiry saggar => Sys2Proof.Machine.execEphemeralKeyExpiry saggar s
  | .dcWrite who => Sys2Proof.Machine.execDcWrite who s
  | .logClear who => Sys2Proof.Machine.execLogClear who s
  | .witnessFw who => Sys2Proof.Machine.execWitnessFw who s
  | .release who => Sys2Proof.Machine.execRelease who s
  | .claimAsserted => Sys2Proof.Machine.execClaimAsserted s
  | .tapSendDue => Sys2Proof.Machine.execTapSendDue s
  | .tapTotal frame => Sys2Proof.Machine.execTapTotal frame s
  | .tapLevel frame => Sys2Proof.Machine.execTapLevel frame s
  | .tapHeartbeat frame => Sys2Proof.Machine.execTapHeartbeat frame s
  | .tapPowerDown frame => Sys2Proof.Machine.execTapPowerDown frame s
  | .meterTick => Sys2Proof.Machine.execMeterTick s
  | .witnessCommit readBackOk => Sys2Proof.Machine.execWitnessCommit readBackOk s
  | .vinWLow => Sys2Proof.Machine.execVinWLow s
  | .wdStart copyAOk copyBOk selfTestOk => Sys2Proof.Machine.execWdStart copyAOk copyBOk selfTestOk s
  | .witnessChange change => Sys2Proof.Machine.execWitnessChange change s
  | .witnessFwPackage package => Sys2Proof.Machine.execWitnessFwPackage package s
  | .mportFrame saggar readTag crcOk => Sys2Proof.Machine.execMportFrame saggar readTag crcOk s
  | .heldReadRelease path => Sys2Proof.Machine.execHeldReadRelease path s
  | .wdHeartbeatTimeout => Sys2Proof.Machine.execWdHeartbeatTimeout s
  | .tapLossTimeout => Sys2Proof.Machine.execTapLossTimeout s
  | .probe src => Sys2Proof.Machine.execProbe src s
  | .probeTimeout peer => Sys2Proof.Machine.execProbeTimeout peer s
  | .nodeLost lost => Sys2Proof.Machine.execNodeLost lost s
  | .join src => Sys2Proof.Machine.execJoin src s
  | .admissionLoadDone => Sys2Proof.Machine.execAdmissionLoadDone s
  | .fwSwitch who kind => Sys2Proof.Machine.execFwSwitch who kind s
  | .fwCommit who kind => Sys2Proof.Machine.execFwCommit who kind s
  | .fwRestartBudgetExpiry kind => Sys2Proof.Machine.execFwRestartBudgetExpiry kind s
  | .dieUnfence who die causeCleared failed failedTrimmers failedStacks => Sys2Proof.Machine.execDieUnfence who die causeCleared failed failedTrimmers failedStacks s
  | .slackRead slacks => Sys2Proof.Machine.execSlackRead slacks s
  | .logBucketRefill => Sys2Proof.Machine.execLogBucketRefill s
  | .logStore who => Sys2Proof.Machine.execLogStore who s
  | .logStoreDone verified => Sys2Proof.Machine.execLogStoreDone verified s
  | .logSlotFirstRead who slot => Sys2Proof.Machine.execLogSlotFirstRead who slot s
  | .pwrGoodAonRise => Sys2Proof.Machine.execPwrGoodAonRise s
  | .pwrGoodAonFall => Sys2Proof.Machine.execPwrGoodAonFall s
  | .rootPllLock => Sys2Proof.Machine.execRootPllLock s
  | .mgmtBootDone copyAOk copyBOk => Sys2Proof.Machine.execMgmtBootDone copyAOk copyBOk s
  | .railGroupPowerGood => Sys2Proof.Machine.execRailGroupPowerGood s
  | .railGroupTimeout rail => Sys2Proof.Machine.execRailGroupTimeout rail s
  | .sdRelease sdBoot => Sys2Proof.Machine.execSdRelease sdBoot s
  | .pwrGoodCoreFall => Sys2Proof.Machine.execPwrGoodCoreFall s
  | .resetNFall => Sys2Proof.Machine.execResetNFall s
  | .resetNRise => Sys2Proof.Machine.execResetNRise s
  | .warmResetNFall => Sys2Proof.Machine.execWarmResetNFall s
  | .warmResetNRise => Sys2Proof.Machine.execWarmResetNRise s
  | .orderlyPowerDown who => Sys2Proof.Machine.execOrderlyPowerDown who s
  | .pmbusPoll rails => Sys2Proof.Machine.execPmbusPoll rails s
  | .powerCapUpdate => Sys2Proof.Machine.execPowerCapUpdate s
  | .pkgLimitWrite who value => Sys2Proof.Machine.execPkgLimitWrite who value s
  | .thermalSensorRead die temp => Sys2Proof.Machine.execThermalSensorRead die temp s
  | .thermalSkipStep die => Sys2Proof.Machine.execThermalSkipStep die s
  | .thermalTrip => Sys2Proof.Machine.execThermalTrip s
  | .refclkInvalid inputB => Sys2Proof.Machine.execRefclkInvalid inputB s
  | .holdoverTimeout => Sys2Proof.Machine.execHoldoverTimeout s
  | .sdLoadRelease => Sys2Proof.Machine.execSdLoadRelease s
  | .i3cPrivateWrite ptr => Sys2Proof.Machine.execI3cPrivateWrite ptr s
  | .i3cPrivateRead words => Sys2Proof.Machine.execI3cPrivateRead words s
  | .refclkValid inputB => Sys2Proof.Machine.execRefclkValid inputB s
  | .ownClaimNRelease => Sys2Proof.Machine.execOwnClaimNRelease s
  | .trimmerFwRestartDone t => Sys2Proof.Machine.execTrimmerFwRestartDone t s
  | .mirrorHeartbeat words => Sys2Proof.Machine.execMirrorHeartbeat words s
  | .loadWarnNHigh bit => Sys2Proof.Machine.execLoadWarnNHigh bit s
  | .secUtilPublish utils => Sys2Proof.Machine.execSecUtilPublish utils s
  | .pwrGoodCoreTimeout => Sys2Proof.Machine.execPwrGoodCoreTimeout s
  | .memoryChannelUnfence who unit => Sys2Proof.Machine.execMemoryChannelUnfence who unit s
  | .cxlLinkUp port gtps width => Sys2Proof.Machine.execCxlLinkUp port gtps width s
  | .tapInstruction code => Sys2Proof.Machine.execTapInstruction code s

end Sys2Proof.Machine
end

