-- ==== Sys2Proof/Safety.lean ====
section
/-! DEFINITION. What counts as a safe run, and the words statements about commands are written in. -/

namespace Sys2Proof.Machine

/-- The command completes from `s`: `exec` answers a next state, which is the state `u` that the command's own
effect leaves, after what follows every command (`settle`). -/
def Completes (c : Instr) (s u : State) : Prop := exec c s = .next (settle u)

/-- The command completes from `s` with an effect of its own that `P` describes. -/
def Effect (c : Instr) (s : State) (P : State → Prop) : Prop := ∃ u, Completes c s u ∧ P u

/-- The registers of the code that runs on a Trimmer: its machine firmware's own, or those of user code. -/
def State.runCtx (s : State) (t : Nat) : Ctx := if s.inM t then (s.trmOf t).mctx else (s.trmOf t).ctx

/-- A register of the code that runs; `x0` reads zero. -/
def State.rx (s : State) (t r : Nat) : Nat := if r = 0 then 0 else (s.runCtx t).x[r]?.getD 0

/-- The pc of the code that runs. -/
def State.rpc (s : State) (t : Nat) : Nat := (s.runCtx t).pc

/-- An instruction of 4 bytes retires on Trimmer `t`: register `rd` takes `v` (`x0` discards), every other register
of the running code and every other Trimmer are as before, the pc moves on by 4, and `P` describes the rest. -/
def Retires (c : Instr) (t rd v : Nat) (s : State) (P : State → Prop) : Prop :=
  Effect c s (fun u =>
    (∀ r, u.rx t r = if r = rd ∧ rd ≠ 0 then v % 2 ^ 64 else s.rx t r)
      ∧ u.rpc t = (s.rpc t + 4) % 2 ^ 64 ∧ (∀ k, k ≠ t → u.trmOf k = s.trmOf k) ∧ P u)

/-- Between two states one more packet was sent: the answer to request `p`, back to its source, with a status, a
hint and data (R331). -/
def Replied (p : Packet) (st : Status) (hint : Nat) (data : List Byte) (s u : State) : Prop :=
  ∃ q : Packet, u.fab.tx = s.fab.tx ++ [q] ∧ q.dst = p.src ∧ q.src = p.dst
    ∧ q.opcode = (if data.isEmpty then 0xF0 else 0xF1) ∧ q.seq = p.seq ∧ q.tag = p.tag ∧ q.status = st.code
    ∧ q.hint = hint ∧ q.payload = data

/-- Between two states, request `p` was taken from the queue and answered. -/
def Answered (p : Packet) (st : Status) (hint : Nat) (data : List Byte) (s u : State) : Prop :=
  u.fab.inbox = s.fab.inbox.erase p ∧ Replied p st hint data s u

/-- Between two states, request `p` was answered by a train of packets of at most 512 bytes, which together carry
`data` in order of their offsets (R330, R331). -/
def RepliedTrain (p : Packet) (st : Status) (hint : Nat) (data : List Byte) (s u : State) : Prop :=
  ∃ l : List Packet, u.fab.tx = s.fab.tx ++ l ∧ l ≠ [] ∧ l.flatMap (·.payload) = data
    ∧ ∀ i q, l[i]? = some q → q.dst = p.src ∧ q.src = p.dst ∧ q.opcode = (if data.isEmpty then 0xF0 else 0xF1)
      ∧ q.seq = p.seq ∧ q.tag = p.tag ∧ q.status = st.code ∧ q.hint = hint ∧ q.payload.length ≤ 512
      ∧ q.offset = p.offset + 512 * i ∧ q.last = decide (i + 1 = l.length)

/-- Packets that carry a region's directory record to the replica partner of this chip, which has one where there are
any (R537). -/
def State.records (s : State) (l : List Packet) : Prop :=
  (∀ x ∈ l, x.opcode = opWRITE ∧ x.cls = 5 ∧ x.offset = xferPort ∧ x.dst = s.nodeParam 0x0215)
    ∧ (l ≠ [] → s.plofens.contains (s.nodeParam 0x0215) = true ∧ s.nodeParam 0x0215 ≠ s.fab.node)

/-- Between two states, request `p` was taken from the queue and answered; packets with the record of a region went
to the replica partner before the answer. -/
def AnsweredAfterRecords (p : Packet) (st : Status) (hint : Nat) (data : List Byte) (s u : State) : Prop :=
  ∃ l, s.records l ∧ u.fab.inbox = s.fab.inbox.erase p
    ∧ Replied p st hint data { s with fab := { s.fab with tx := s.fab.tx ++ l } } u

/-- A handler that runs on Trimmer `t` has budget for one more instruction (R117). -/
def hasBudget (t : Nat) (s : State) : Prop :=
  (s.trmOf t).run = .handler → (s.trmOf t).retired < s.sagParam (s.trmSag t) 0x030B

/-- The code on Trimmer `t` executes instructions, and a handler has budget for one more. -/
def canRetire (t : Nat) (s : State) : Prop := s.trmRuns t = true ∧ hasBudget t s

/-- The activation vector of token `t` of a job, as its shelf holds it (R68). -/
def State.tokenVector (s : State) (j : ArrJob) (t : Nat) : List Byte :=
  s.shelfRead (dSaggar j.desc) (dAAddr j.desc + t * dAStride j.desc) (aToken j.desc)

/-- Every grain that a job's fetches read passes the check it carries (R80, R87): those of its tile where it keeps
none, of its column parameters, and of its activation vectors. -/
def operandsGood (s : State) (j : ArrJob) : Prop :=
  (dKeep j.desc = false → (tileRanges j.desc).all (fun r => s.shelfOk (dSaggar j.desc) r.1 r.2) = true)
    ∧ (dFin j.desc = true → dPOut j.desc = false → s.shelfOk (dSaggar j.desc) (dColAddr j.desc) 256 = true)
    ∧ ∀ t, t < dTLen j.desc →
        s.shelfOk (dSaggar j.desc) (dAAddr j.desc + t * dAStride j.desc) (aToken j.desc) = true

/-- A job with its tile and column parameters fetched and its first `n` activation vectors staged (R66, R80). -/
def State.fetched (s : State) (j : ArrJob) (n : Nat) : ArrJob := { j with
  loaded := true
  tile := if dKeep j.desc then j.tile else s.readTile j
  params := if dFin j.desc && !dPOut j.desc then s.shelfRead (dSaggar j.desc) (dColAddr j.desc) 256 else []
  stage := (List.range n).map (s.tokenVector j) }

/-- The starts of a ramp that count at present: those of the last 2,500 ACLK cycles (R79). -/
def State.rampStarts (s : State) (k : Nat) : Nat :=
  ((aget s.arrs.ramp k {}).starts.filter (fun t => decide (s.now < t + aclk 2500))).length

/-- What the start of a broadcast group's waiting members leaves (R78), from `s`, at time and log of `t`: each of
them streams from token 0 and no other job has moved; the group is closed, with nothing waiting. -/
def Group.started (x : Group) (s t u : State) : Prop :=
  (∀ p ∈ x.waiting, ∀ j, s.job p.1 p.2 = some j → u.job p.1 p.2 = some { j with st := 4, tok := 0 })
    ∧ (∀ a q, (a, q) ∉ x.waiting → u.job a q = s.job a q)
    ∧ (∀ y ∈ u.arrs.groups, y.id = x.id → y.closed = true ∧ y.waiting = [] ∧ y.deadline = none)
    ∧ u = { t with arrs := u.arrs }

/-- A step that neither stops with a fault nor is refused. -/
def stepsOn (s : State) : Prop := ∃ t, step s = .next t

/-- The canonical form of the pool's memory, part of every good state. -/
def memoryGood (s : State) : Prop := Memory.wf s.tie.mem

/-- What holds after every step (`settle`): once power-on step 3 is complete, each later step whose work is done is
recorded (R585); the quiet time of a drain runs exactly while no packet of the previous epoch is held (R478); a chip
whose tests are done has left `SELFTEST`, and one that has an image and whose control cores do not restart has sent its `JOIN` (R22, R542). -/
structure Settled (s : State) : Prop where
  steps : s.pkg.st = 4 → ∀ i, 4 ≤ i → i ≤ 8 → s.stepWorkDone i = true → i ∈ s.pkg.stepsDone
  drain : s.img.prevEpoch ≠ none → (s.img.quietDeadline = none ↔ ∃ b ∈ s.held, s.isPrev b.pkt = true)
  tests : ¬ (s.erc.admission = 1 ∧ 6 ∈ s.pkg.stepsDone ∧ 7 ∈ s.pkg.stepsDone)
  join : ¬ (s.erc.admission = 2 ∧ 2 ≤ s.img.st ∧ s.arch.cp ≠ .restart)

end Sys2Proof.Machine
end

