-- ==== Sys2Proof/Certificates/Slice0/Obligations.lean ====
section
/-! DEFINITION. The statements about the model, for the provers. Each says of which rules of the spec, or of
which choice of the model, it speaks. -/

open Sys2Proof Sys2Proof.Machine

/-- O1. A step runs the command at the front of the queue on the rest; on an empty queue one root tick passes.
With a command at the front of the queue, a step is exec of that command on the state with the queue's rest.
On an empty queue the block idles and time moves on by one tick of the 15 GHz root clock, and what reached the
log in a cycle that ends with it is stamped and stored: that is the model's choice (log entry 1), as the table
has no row for a tick. Basis: derived, R582, 98_reader.md. -/
def Obligations.StepRunsFront : Prop :=
  (∀ (c : Instr) (rest : List Instr) (s : State), s.pending = c :: rest → step s = exec c { s with pending := rest }) ∧
  (∀ s : State, s.pending = [] → step s = .next (carry (s.now + 1) s) ∧ (carry (s.now + 1) s).now = s.now + 1)

/-- O2. Every command with operands in range completes, from every state; one with an operand out of range is the
only fault. For every row of the table, every state and every operand in the range the spec gives it, exec
answers a next state, which is a settled one. An operand out of its range (no unit has that number, no field
holds that value) is the fault of an ill-formed command, which is the model's choice; no command is ever
refused. Basis: derived, R25, R29, 98_reader.md. -/
def Obligations.CommandsComplete : Prop :=
  ∀ (c : Instr) (s : State),
    (c.wf = true → ∃ u, Completes c s u) ∧ (c.wf = false → exec c s = .fault .illFormedCommand)

/-- O3. What registers read at reset. At reset every counter and every saturating field reads 0, arrays, Trimmers,
DRAM channels and HBM stacks are fenced with cause 2, the ports have lanes in reverse order of their digits
and no peer, the rails are off, and the log, package, security and admission registers read as their tables
give; nothing waits in the queue and no byte of memory is listed. Basis: derived, R22, R92, R127, R220, R437,
R481, R508, R549, R560, R564, R589. -/
def Obligations.ResetValues : Prop :=
  (∀ f, State.reset.satVal f = 0) ∧ (∀ a, aget State.reset.ctr a {} = {}) ∧
  State.reset.pending = [] ∧ State.reset.tie.mem = [] ∧ State.reset.fab.inbox = [] ∧ State.reset.jsl.sessions = [] ∧
  ∀ who : Who,
    State.reset.liveWord who 0x0010000 / 2 ^ 28 = 1 ∧ State.reset.liveWord who 0x0010040 = 0 ∧
    State.reset.liveWord who 0x005000C = 0x04000000 ∧ State.reset.liveWord who 0x0040000 = 0x20 ∧
    State.reset.liveWord who 0x0040010 = 0x122 ∧ State.reset.liveWord who 0x0070000 / 2 ^ 28 = 1 ∧
    State.reset.liveWord who 0x0080000 = 0 ∧
    (∀ p, p < 64 → State.reset.liveWord who (0x0200000 + 0x1000 * p) % 2 ^ 16 = 0xFFFF ∧
      State.reset.liveWord who (0x0200004 + 0x1000 * p) = 0x76543210) ∧
    (∀ d i, d < 4 → i < 384 → State.reset.liveWord who (0x0800000 + 0x40000 * d + 0x200 * i) = 0xA0000000) ∧
    (∀ t, t < 128 → State.reset.liveWord who (0x0C00000 + 0x1000 * t) = 0xA0000000) ∧
    (∀ c, c < 16 → State.reset.liveWord who (0x1100000 + 0x100 * c) = 0xA0000000) ∧
    (∀ k, k < 8 → State.reset.liveWord who (0x1200000 + 0x100 * k) = 0xA0000000) ∧
    (∀ r, r < 13 → State.reset.liveWord who (0x0060000 + 0x10 * r) = 8)

/-- O4. Memory in canonical form: reads after writes and clears, and one list for each contents. In canonical
form, a byte written is read back and every other address reads as before; a cleared range reads zero and
every other address as before; both keep the form; and two canonical memories that read alike everywhere are
the same list. That unlisted bytes read zero is the rule for created pages. Basis: derived, R204, R205. -/
def Obligations.PoolMemory : Prop :=
  ∀ m : List Host.Cell, Memory.wf m →
    (∀ a (l : List Byte), Memory.wf (memWrite m a l) ∧ memRead (memWrite m a l) a l.length = l
      ∧ ∀ k, k < a ∨ a + l.length ≤ k → memGet (memWrite m a l) k = memGet m k) ∧
    (∀ a n, Memory.wf (memClear m a n)
      ∧ ∀ k, memGet (memClear m a n) k = if a ≤ k ∧ k < a + n then 0 else memGet m k) ∧
    (∀ m', Memory.wf m' → (∀ k, memGet m k = memGet m' k) → m = m')

/-- O5. Every step leaves the block settled. From every settled state, a step that goes on leaves a settled state:
each power-on step from 4 to 8 whose work is complete is recorded, a drain's quiet time runs exactly while no
packet of the previous epoch is held, and admission has taken every step its conditions allow. That these
follow within the same step is the model's choice of granularity (log entry 1). Basis: derived, R478, R542,
R585. -/
def Obligations.SettledKept : Prop :=
  ∀ s t : State, Settled s → step s = .next t → Settled t

/-- O6. The block is settled at reset. At reset no power-on step after 3 is due, no epoch drains and no admission
is under way. Basis: derived, R478, R542, R585. -/
def Obligations.SettledAtReset : Prop :=
  Settled State.reset

/-- O7. SAMPLE.MARK copies rs1[31:0] into xmark, later samples report it, and nothing else changes. On code that
executes, SAMPLE.MARK sets xmark to the low word of rs1; all else of the state stands but the pc and the
counts of retired instructions and of instructions since an overflow, which move as for every instruction. The
next sample upcall taken, with no other upcall and no RPT waiting, carries the value of xmark in a3. Basis:
stated, R115. -/
def Obligations.SampleMark : Prop :=
  ∀ (s : State) (t : Nat), t < 128 →
    (∀ rs1 c, rs1 < 32 → canRetire t s → c = { s.runCtx t with pc := (s.rpc t + 4) % 2 ^ 64 } →
      Effect (.sampleMark t rs1) s (fun u =>
        u.trmOf t = { (beginInsn t s).trmOf t with
          xmark := s.rx t rs1 % 2 ^ 32
          ctx := if s.inM t then (s.trmOf t).ctx else c
          mctx := if s.inM t then c else (s.trmOf t).mctx
          retired := (s.trmOf t).retired + if (s.trmOf t).run = .handler then 1 else 0
          hpm := aset (s.trmOf t).hpm 2 ((aget (s.trmOf t).hpm 2 {}).add 1) }
        ∧ (∀ k, k ≠ t → u.trmOf k = s.trmOf k)
        ∧ (∀ a, a ≠ ctrTrmRetired t → aget u.ctr a {} = aget s.ctr a {})
        ∧ u = { s with trm := u.trm, ctr := u.ctr })) ∧
    (∀ e, t < s.variant.trimmers → (s.trmOf t).fence.on = false → (s.trmOf t).fwDown = false → 2 ≤ (s.trmOf t).mode →
      (s.trmOf t).run = .main → (s.trmOf t).swap = none → (s.trmOf t).blocked = false → (s.trmOf t).xuvec ≠ 0 →
      (s.trmOf t).rptq = [] → (s.trmOf t).upcalls = [e] → e.mcause = 18 → e.since.isSome = true →
      Effect (.interruptTake t) s (fun u => (u.trmOf t).run = .upcall ∧ u.tx t 10 = 18 ∧ u.tx t 11 = e.a1
        ∧ u.tx t 12 = s.trmPc t ∧ u.tx t 13 = (s.trmOf t).xmark))

/-- O8. SIT_STEP, IMG_SERIAL and FLM_REBUILD_CYC hold 64-bit values, and no write changes them. The two words of
each of the three registers, the first for every saggar, are the low and the high half of its 64-bit value,
with no OVF bit. A write to either word, whoever makes it, changes nothing but the answer handed out. Basis:
stated, R562. -/
def Obligations.ValueRegisters : Prop :=
  ∀ (s : State) (a v : Nat),
    (∃ g, g < 64 ∧ a = 0x0701008 + 0x100 * g ∧ v = (aget s.sit g {}).step) ∨ (a = 0x0080040 ∧ v = (aget s.ctr a {}).count)
      ∨ (a = 0x1400030 ∧ v = (aget s.ctr a {}).count) →
    (∀ who, s.liveWord who a = v % 2 ^ 32 ∧ s.liveWord who (a + 4) = v / 2 ^ 32 % 2 ^ 32) ∧
    (∀ (who : Who) (w : Word32) b, who.wf = true → b = a ∨ b = a + 4 →
      (∃ st, Completes (.csrWrite who b w) s (answerCsr who b st 0 s)) ∧
      (∃ st, Completes (.counterClear who b w) s (answerCsr who b st 0 s)))

/-- O9. The answer that decides a CSR access before the register does. For every requester, 32-bit word address
and state, a read and a write are answered, with no other effect than the restart of a machine firmware that
is refused (R100), DENIED where the address is not 4-byte aligned; UNIT_ABSENT where it is aligned and lies in
an absent unit or instance; DENIED where it is present and the requester's grant does not cover it; and a
write DENIED where it would change a DC field. Basis: derived, R29, R30, R31. -/
def Obligations.CsrOrder : Prop :=
  ∀ (who : Who) (a : Nat) (v : Word32) (s : State), who.wf = true → a < 2 ^ 40 →
    (a % 4 ≠ 0 →
      Completes (.counterLowRead who a) s (answerCsr who a .denied 0 s)
        ∧ Completes (.csrWrite who a v) s (answerCsr who a .denied 0 s)) ∧
    (a % 4 = 0 → s.csrAbsent a = true →
      Completes (.counterLowRead who a) s (answerCsr who a .unitAbsent 0 s)
        ∧ Completes (.csrWrite who a v) s (answerCsr who a .unitAbsent 0 s)) ∧
    (a % 4 = 0 → s.csrAbsent a = false → s.granted who a false = false →
      Completes (.counterLowRead who a) s (answerCsr who a .denied 0 s)) ∧
    (a % 4 = 0 → s.csrAbsent a = false → s.granted who a true = false →
      Completes (.csrWrite who a v) s (answerCsr who a .denied 0 s)) ∧
    (a = 0x0040010 → s.csrAbsent a = false →
      Completes (.csrWrite who a v) s (answerCsr who a .denied 0 s))

/-- O10. Reads of a 64-bit register go through the requester's latch. A permitted read of the low word of a 64-bit
register returns its low half and latches its high half for the requester. A read of a latched word returns
that word and empties its latch. A read of a high word with none latched returns the live high half. A read of
the low word of a Witness mirror value returns its first word and latches the two words above. Nothing else of
the state changes but the answer handed out. Basis: derived, R29, R512, R560. -/
def Obligations.CounterLatch : Prop :=
  ∀ (who : Who) (a : Nat) (s : State), who.wf = true → a < 2 ^ 40 → s.csrGate who a false = none →
    ((s.ctrClass a).isSome = true →
      Completes (.counterLowRead who a) s (answerCsr who a .ok (BitVec.ofNat 32 (s.ctrValue a)) { s with
        arch := { s.arch with
          latches := aset s.arch.latches who [(a + 4, BitVec.ofNat 32 (s.ctrValue a / 2 ^ 32))] } })) ∧
    (∀ w, s.ctrClass a = none → isMirrorLow a = false →
      (aget s.arch.latches who []).find? (fun p => p.1 = a) = some (a, w) →
      Completes (.counterHighRead who a) s
        (answerCsr who a .ok w (setLatch who ((aget s.arch.latches who []).filter (fun p => p.1 ≠ a)) s))) ∧
    (4 ≤ a → s.ctrClass a = none → (s.ctrClass (a - 4)).isSome = true →
      (aget s.arch.latches who []).find? (fun p => p.1 = a) = none →
      Completes (.counterHighRead who a) s
        (answerCsr who a .ok (BitVec.ofNat 32 (s.ctrValue (a - 4) / 2 ^ 32)) s)) ∧
    (∀ v, isMirrorLow a = true → v = s.mirrorValue ((a - 0x1F01000) / 0x100) (a % 0x100 / 16) →
      Completes (.witMirrorLowRead who a) s (answerCsr who a .ok (BitVec.ofNat 32 v) { s with
        arch := { s.arch with
          latches := aset s.arch.latches who
            [(a + 4, BitVec.ofNat 32 (v / 2 ^ 32)), (a + 8, BitVec.ofNat 32 (v / 2 ^ 64))] } }))

/-- O11. Which writes clear a performance counter. A write to the low word of a counter by an operator session,
the control plane or the management controller clears COUNT and OVF where the word is zero and is ignored
where it is not; by any other granted requester it is answered DENIED. A write to a 64-bit register that holds
a value is ignored, and so is every write to a high word. Basis: derived, R561, R562. -/
def Obligations.CounterClear : Prop :=
  ∀ (who : Who) (a : Nat) (v : Word32) (s : State) (c : CtrClass), who.wf = true → a < 2 ^ 40 →
    s.csrGate who a true = none → s.ctrClass a = some c →
    (c = .value → Completes (.counterClear who a v) s (answerCsr who a .ok 0 s)) ∧
    (c ≠ .value → mayClear who = true → v = 0 →
      Completes (.counterClear who a v) s (answerCsr who a .ok 0 { s with ctr := aset s.ctr a {} })) ∧
    (c ≠ .value → mayClear who = true → v ≠ 0 → Completes (.counterClear who a v) s (answerCsr who a .ok 0 s)) ∧
    (c ≠ .value → mayClear who = false → Completes (.counterClear who a v) s (answerCsr who a .denied 0 s)) ∧
    (mayClear who = true → s.csrGate who (a + 4) true = none → s.ctrClass (a + 4) = none → a + 4 < 2 ^ 40 →
      Completes (.counterClear who (a + 4) v) s (answerCsr who (a + 4) .ok 0 s))

/-- O12. Saturating error counters: how they are cleared. A permitted write to a register of SAT fields clears
each field whose bits it writes zero and leaves each field it writes anything else to, every other saturating
field, and everything else but the answer handed out. Basis: derived, R549, R12. -/
def Obligations.SatFields : Prop :=
  ∀ (who : Who) (a : Nat) (v : Word32) (s : State), who.wf = true → a < 2 ^ 40 → s.csrGate who a true = none →
    Effect (.satFieldClear who a v) s (fun u =>
      (∀ f ∈ satFieldsAt a,
        u.satVal (a, f.1) = if bits v.toNat f.1 f.2 = 0 then 0 else s.satVal (a, f.1)) ∧
      (∀ k, (∀ f ∈ satFieldsAt a, k ≠ (a, f.1)) → u.satVal k = s.satVal k) ∧
      u = { s with sat := u.sat, out := s.out ++ [.csr who a .ok 0] })

/-- O13. A permitted CSR write updates the register, or is discarded where nothing in it can be written. With the
gate passed, a write of IMG_BOOT, of the requester's LOG_CUR or of a JSL_SINK register makes the register hold
the word written; a write of DEVICE_ID, which is read-only, is answered OK and changes nothing. The answer is
handed out; nothing else changes. Basis: derived, R30, R12, R555, R471. -/
def Obligations.RegisterWrite : Prop :=
  ∀ (who : Who) (v : Word32) (s : State), who.wf = true →
    (s.csrGate who 0x0080008 true = none →
      Completes (.csrWrite who 0x0080008 v) s
        (answerCsr who 0x0080008 .ok 0 { s with img := { s.img with boot := v } })) ∧
    (s.csrGate who 0x0050000 true = none →
      Completes (.csrWrite who 0x0050000 v) s
        (answerCsr who 0x0050000 .ok 0 { s with log := { s.log with cur := aset s.log.cur who v.toNat } })) ∧
    (∀ g, g < 64 → s.csrGate who (0x0100200 + 4 * g) true = none →
      Completes (.csrWrite who (0x0100200 + 4 * g) v) s
        (answerCsr who (0x0100200 + 4 * g) .ok 0 { s with jsl := { s.jsl with sink := aset s.jsl.sink g v } })) ∧
    (s.csrGate who 0 true = none → Completes (.csrWrite who 0 v) s (answerCsr who 0 .ok 0 s))

/-- O14. Restarts of the control cores and of the management controller. CP_RESTART and MP_RESTART take a running
plane to RESTART and count it; the control plane then owes a coordinator query. The ends take it back to RUN:
a firmware switch of its kind in progress has succeeded, and where nothing was held the waiting epoch work
goes on. A restart of a plane that does not run, or its end with none in progress, changes nothing. Basis:
derived, R22, R476, R545. -/
def Obligations.PlaneRestarts : Prop :=
  ∀ s : State,
    (s.arch.cp = .run →
      Completes .cpRestart s (bumpSat satCpRestarts { s with
        arch := { s.arch with cp := .restart }
        img := { s.img with queryOwed := true } })) ∧
    (s.arch.cp ≠ .run → Completes .cpRestart s s) ∧
    (s.arch.mp = .run → Completes .mpRestart s (bumpSat satMpRestarts { s with arch := { s.arch with mp := .restart } })) ∧
    (s.arch.mp ≠ .run → Completes .mpRestart s s) ∧
    (s.arch.mp = .restart → (s.fw 1).switching = false →
      Completes .mpRestartEnd s { s with arch := { s.arch with mp := .run } }) ∧
    (s.arch.mp = .restart → (s.fw 1).switching = true → (s.fw 1).deadline.isSome = true →
      Completes .mpRestartEnd s { s with
        arch := { s.arch with mp := .run }
        erc := { s.erc with fw := aset s.erc.fw 1 { s.fw 1 with switching := false, deadline := none } } }) ∧
    (s.arch.mp ≠ .restart → Completes .mpRestartEnd s s) ∧
    (s.arch.cp = .restart → (s.fw 2).switching = false → s.coh.heldFences = [] → s.img.commitHeld = none →
      Completes .cpRestartEnd s (epochWork { s with arch := { s.arch with cp := .run } })) ∧
    (s.arch.cp ≠ .restart → Completes .cpRestartEnd s s)

/-- O15. A fence signal takes effect on its unit. A fence signal to a Trimmer that the variant has and that is not
fenced leaves it fenced with the cause, with no code running, no window, upcall, completion or reservation; to
a port that is down it leaves the port fenced and down; to a Trimmer fenced already, or that the variant
lacks, it changes nothing. A coherent domain's fence that comes while the control cores restart is held until
they run. Basis: derived, R20, R597, R22. -/
def Obligations.FenceSignals : Prop :=
  ∀ (s : State) (cause : Nat), cause < 16 →
    (∀ t, t < s.variant.trimmers → (s.trmOf t).fence.on = false →
      Effect (.fenceArrival (.trimmer t) cause) s (fun u =>
        (u.trmOf t).fence = { on := true, cause := cause } ∧ (u.trmOf t).run = .none ∧ (u.trmOf t).wins = []
          ∧ (u.trmOf t).upcalls = [] ∧ (u.trmOf t).cplq = [] ∧ (u.trmOf t).resv = none
          ∧ (∀ t', t' ≠ t → u.trmOf t' = s.trmOf t') ∧ u = { s with trm := u.trm, arrs := u.arrs })) ∧
    (∀ t, t < 128 → s.variant.trimmers ≤ t ∨ (s.trmOf t).fence.on = true →
      Completes (.fenceArrival (.trimmer t) cause) s s) ∧
    (∀ p, p < 64 → (s.port p).lst < 4 → s.portRole p ≠ 3 →
      Effect (.fenceArrival (.port p) cause) s (fun u =>
        (u.port p).fence = { on := true, cause := cause } ∧ (u.port p).lst = 0
          ∧ (∀ p', p' ≠ p → u.port p' = s.port p') ∧ u = { s with prt := u.prt })) ∧
    (∀ d, d < 65536 → s.arch.cp = .restart →
      Completes (.fenceArrival (.domain d) cause) s
        { s with coh := { s.coh with heldFences := s.coh.heldFences ++ [(d, cause, true)] } })

/-- O16. A tile job is loaded, waits for its group or the ramp, and streams. For the first queued job of an array
with no earlier job of it active: it moves to LOADING and its tile is being loaded, or, keeping a tile the
array holds of its saggar and rate class, takes that one; a kept tile found damaged ends the job POISON_IN,
one not held, or of another saggar or class, ends it REJECTED with cause 0x15. A loading job whose operands
pass their checks has its tile, its column parameters and its first token vectors fetched, and moves to
STREAMING at token 0 where the ramp has room, is held where it has none, and moves to WAIT_GROUP where its
group is still forming. A retried job fetches them again and enters STREAMING at token 0 by the same ramp. No
other array, and of the rest of the state only the arrays' part, changes. How many token vectors are fetched
ahead is the model's choice (log entry 136); no clause rests on the number. Basis: derived, R80, R598, R66,
R67, R78, R79. -/
def Obligations.ArrayJobLoads : Prop :=
  ∀ (s : State) (a q : Nat) (j : ArrJob), a < 1536 → s.job a q = some j → s.earlier a q = none →
    (s.firstIn a 1 = some q → dKeep j.desc = false →
      Effect (.jobLoadStart a) s (fun u => u.job a q = some { j with st := 2 }
        ∧ (u.arr a).kept = some { saggar := dSaggar j.desc, cls := dCls j.desc, by_ := j.order }
        ∧ (∀ b, b ≠ a → u.arr b = s.arr b) ∧ u = { s with arrs := { s.arrs with arr := u.arrs.arr } })) ∧
    (∀ t, s.firstIn a 1 = some q → dKeep j.desc = true → (s.arr a).kept = some t → t.st = 1 →
      t.saggar = dSaggar j.desc → t.cls = dCls j.desc →
      Effect (.jobLoadStart a) s (fun u => u.job a q = some { j with st := 2, tile := t }
        ∧ (∀ b, b ≠ a → u.arr b = s.arr b) ∧ u = { s with arrs := { s.arrs with arr := u.arrs.arr } })) ∧
    (∀ t, s.firstIn a 1 = some q → dKeep j.desc = true → (s.arr a).kept = some t → t.st = 2 →
      Effect (.jobLoadStart a) s (fun u =>
        u.job a q = some { j with st := 6, jstat := jPOISON, cause := 0x20, held := false, stage := [], outs := [] })) ∧
    (s.firstIn a 1 = some q → dKeep j.desc = true →
      (∀ t, (s.arr a).kept = some t →
        t.st ≠ 2 ∧ (t.st ≠ 1 ∨ t.saggar ≠ dSaggar j.desc ∨ t.cls ≠ dCls j.desc)) →
      Effect (.jobLoadStart a) s (fun u =>
        u.job a q = some { j with st := 6, jstat := jREJECTED, cause := 0x15, held := false, stage := [], outs := [] })) ∧
    (operandsGood s j → j.held = false → j.tok = 0 → j.stage = [] →
      (s.firstIn a 2 = some q → j.loaded = false →
        (∀ r R, j.group = none → r = s.rampOf a (dSaggar j.desc) → R = aget s.arrs.ramp r.1 {} → R.held = [] →
          s.rampStarts r.1 < r.2 →
          Effect (.tileLoaded a) s (fun u =>
            (∃ n, n ≤ dTLen j.desc ∧ u.job a q = some { s.fetched j n with st := 4 })
            ∧ (u.arr a).kept = (if dKeep j.desc then (s.arr a).kept else some (s.readTile j))
            ∧ (∀ b, b ≠ a → u.arr b = s.arr b) ∧ u = { s with arrs := u.arrs })) ∧
        (∀ r R, j.group = none → r = s.rampOf a (dSaggar j.desc) → R = aget s.arrs.ramp r.1 {} → R.held = [] →
          r.2 ≤ s.rampStarts r.1 →
          Effect (.tileLoaded a) s (fun u =>
            (∃ n, n ≤ dTLen j.desc ∧ u.job a q = some { s.fetched j n with held := true })
            ∧ (aget u.arrs.ramp r.1 {}).held = [(a, q)] ∧ (aget u.arrs.ramp r.1 {}).warnAt = some s.now
            ∧ (∀ b, b ≠ a → u.arr b = s.arr b) ∧ u = { s with arrs := u.arrs })) ∧
        (∀ x, j.group = some x.id → s.groupOf x.id = some x → x.closed = false →
          Effect (.tileLoaded a) s (fun u =>
            (∃ n, n ≤ dTLen j.desc ∧ u.job a q = some { s.fetched j n with st := 3 })
            ∧ u.groupOf x.id = some { x with
                waiting := x.waiting ++ [(a, q)], deadline := some (x.deadline.getD (s.now + aclk (2 ^ 20))) }
            ∧ (∀ b, b ≠ a → u.arr b = s.arr b) ∧ u = { s with arrs := u.arrs }))) ∧
      (s.firstIn a 5 = some q →
        (∀ r R, r = s.rampOf a (dSaggar j.desc) → R = aget s.arrs.ramp r.1 {} → R.held = [] → s.rampStarts r.1 < r.2 →
          Effect (.retryReloaded a) s (fun u =>
            (∃ n, n ≤ dTLen j.desc ∧ u.job a q = some { s.fetched j n with st := 4 })
            ∧ (aget u.arrs.ramp r.1 {}).starts.length = s.rampStarts r.1 + 1
            ∧ (∀ b, b ≠ a → u.arr b = s.arr b) ∧ u = { s with arrs := u.arrs })) ∧
        (∀ r R, r = s.rampOf a (dSaggar j.desc) → R = aget s.arrs.ramp r.1 {} → R.held = [] → r.2 ≤ s.rampStarts r.1 →
          Effect (.retryReloaded a) s (fun u =>
            (∃ n, n ≤ dTLen j.desc ∧ u.job a q = some { s.fetched j n with held := true })
            ∧ (aget u.arrs.ramp r.1 {}).held = [(a, q)]
            ∧ (∀ b, b ≠ a → u.arr b = s.arr b) ∧ u = { s with arrs := u.arrs }))))

/-- O17. Broadcast groups start together, and ramp-held starts are released. A group whose members all wait starts
every one of them and closes; at its assembly timeout, which takes effect once the cycle of its deadline has
passed (R26), it does so with the members that wait. Where every die of theirs has room on its ramp, each
member streams from token 0 and every other job stands; in every case the members' starts go through the ramp
one after another. When a die's ramp releases, 2,500 ACLK cycles after its warning, every held job streams
from token 0 and nothing is held any longer; the warning bit goes high 2^13 cycles later. Basis: derived, R78,
R79, R26, R572. -/
def Obligations.GroupsAndRamps : Prop :=
  (∀ (s : State) (gid : Nat) (x : Group), gid < 65536 →
    (s.arrs.groups.filter (fun y => y.gid = gid && !y.closed && decide (y.n ≤ y.waiting.length)) = [x] →
      Completes (.groupComplete gid) s (dropGroups (forEach x.waiting (fun q s => startStream q.1 q.2 s)
        (modGroup x.id (fun x => { x with waiting := [], closed := true, deadline := none }) s)))) ∧
    (∀ d, s.arrs.groups.filter (fun y => y.gid = gid && !y.closed && y.deadline.isSome) = [x] → x.deadline = some d →
      Completes (.groupAssemblyTimeout gid) s (dropGroups (forEach x.waiting (fun q s => startStream q.1 q.2 s)
        (modGroup x.id (fun x => { x with waiting := [], closed := true, deadline := none }) (expire (aclk 1) d s)))))) ∧
  (∀ (s t : State) (gid : Nat) (x : Group), gid < 65536 → x.waiting.Nodup →
    (∀ p ∈ x.waiting, p.1 < 1536 ∧ (s.job p.1 p.2).isSome = true) → t.confAny = false →
    (∀ die, die < 4 → (aget t.arrs.ramp die {}).held = []
      ∧ t.rampStarts die + countIf x.waiting (fun p => arrDie p.1 = die) ≤ t.nodeParam 0x0208) →
    (t = s → s.arrs.groups.filter (fun y => y.gid = gid && !y.closed && decide (y.n ≤ y.waiting.length)) = [x] →
      Effect (.groupComplete gid) s (x.started s t)) ∧
    (∀ d, t = expire (aclk 1) d s →
      s.arrs.groups.filter (fun y => y.gid = gid && !y.closed && y.deadline.isSome) = [x] → x.deadline = some d →
      Effect (.groupAssemblyTimeout gid) s (x.started s t))) ∧
  (∀ (s : State) (die k w : Nat) (r : Ramp), die < 4 →
    (s.arrs.ramp.filter (fun p => p.1 % 8 = die && p.2.warnAt.isSome)).map (·.1) = [k] →
    aget s.arrs.ramp k {} = r → r.warnAt = some w → r.held ≠ [] →
    Effect (.rampRelease die) s (fun u =>
      u.now = max s.now (w + aclk 2500)
      ∧ (aget u.arrs.ramp k {}).held = []
      ∧ (aget u.arrs.ramp k {}).highAt = some (u.now + aclk (2 ^ 13))
      ∧ (∀ q ∈ r.held, ∀ j, s.job q.1 q.2 = some j → u.job q.1 q.2 = some { j with st := 4, tok := 0, held := false })
      ∧ (∀ a q, (a, q) ∉ r.held → u.job a q = s.job a q)
      ∧ u = { carry (w + aclk 2500) s with arrs := u.arrs }))

/-- O18. Streaming tokens, failed attempts, and the end of a tile job. A token at the front of the staging ring
that passes the array adds its output and its overflow and saturation counts to the job and one busy cycle to
the array; the oldest outputs go to the shelf where the 16 KiB area has no room. A mismatch, reported or found
by the residue lane, discards what the attempt made and moves the job to RETRY, twice; the third ends it
FAULTED with RESIDUE and fences the array. An operand grain that fails its check ends the job POISON_IN and
counts; one that checks changes nothing. After the last token the job is DONE, or DONE_OVERFLOW where an
element overflowed, with every output on the shelf. An ended job's record is written where CPL_ADDR passes,
its slot is free, and its Trimmer has the completion queued. Basis: derived, R64, R66, R75, R80, R84, R85,
R88, R89. -/
def Obligations.ArrayStreaming : Prop :=
  ∀ (s : State) (a q : Nat) (j : ArrJob), a < 1536 → q < 2 → s.job a q = some j →
    ((s.arr a).slots.map (·.1)).Nodup →
    (∀ o row rest k, s.firstIn a 4 = some q → j.tok < dTLen j.desc → operandsGood s j → j.stage = row :: rest →
      s.runToken (dSaggar j.desc) j j.tok row .none = .out o →
      k = j.outs.length + 1 - 16384 / max 1 o.bytes.length →
      Effect (.streamToken a .none) s (fun u =>
        (∃ more, u.job a q = some { j with
          tok := j.tok + 1, stage := rest ++ more, outs := j.outs.drop k ++ [o.bytes]
          drained := j.drained + min k j.outs.length, ovf := j.ovf + o.ovf, sat := j.sat + o.sat })
        ∧ (k = 0 → u.arrs.shelf = s.arrs.shelf)
        ∧ (∀ b, b ≠ a → u.arr b = s.arr b) ∧ u = { bumpCtr (ctrArrBusy a) 1 s with arrs := u.arrs })) ∧
    (∀ v : Upset, s.firstIn a 4 = some q → j.failed < 2 → v.wf = true →
      v = .reported ∨ (j.tok < dTLen j.desc ∧ operandsGood s j
        ∧ ∃ row rest, j.stage = row :: rest ∧ s.runToken (dSaggar j.desc) j j.tok row v = .mismatch) →
      Effect (.streamToken a v) s (fun u =>
        u.job a q = some { j with
          st := 5, failed := j.failed + 1, tok := 0, stage := [], outs := [], drained := 0, ovf := 0, sat := 0 }
        ∧ u.satVal (satArrResidue a) = satAdd 16 (s.satVal (satArrResidue a)) 1
        ∧ (∀ b, b ≠ a → u.arr b = s.arr b) ∧ u.arrs.shelf = s.arrs.shelf)) ∧
    (s.firstIn a 4 = some q → 2 ≤ j.failed → (s.arr a).fence.on = false →
      Effect (.streamToken a .reported) s (fun u =>
        (u.arr a).fence = { on := true, cause := 1 } ∧ (∃ k : ArrJob, u.job a q = some k ∧ k.st = 7 ∧ k.jstat = jRESIDUE)
        ∧ u.satVal (satArrResidue a) = satAdd 16 (s.satVal (satArrResidue a)) 1)) ∧
    (∀ addr, addr < 2 ^ 64 → 2 ≤ j.st → j.st ≤ 5 →
      Effect (.operandArrival a q addr false) s (fun u =>
        u.job a q = some { j with st := 6, jstat := jPOISON, cause := 0x20, held := false, stage := [], outs := [] }
        ∧ u.satVal (satArrPoison a) = satAdd 16 (s.satVal (satArrPoison a)) 1)) ∧
    (∀ addr, addr < 2 ^ 64 → dPIn j.desc = false → Completes (.operandArrival a q addr true) s s) ∧
    (s.firstIn a 4 = some q → dTLen j.desc ≤ j.tok →
      Effect (.streamComplete a) s (fun u =>
        u.job a q = some { j with
          st := 6, jstat := if j.ovf = 0 then jDONE else jDONEOVF, cause := 0, outs := []
          drained := j.drained + j.outs.length }
        ∧ (j.outs = [] → u.arrs.shelf = s.arrs.shelf)
        ∧ (∀ b, b ≠ a → u.arr b = s.arr b) ∧ u = { s with arrs := u.arrs, wit := u.wit })) ∧
    (∀ t, 6 ≤ j.st → j.issuer = .trimmer t → (s.trmOf t).swap = none → s.trms.swapDeadline = [] →
      (∀ x ∈ s.sit, x.2.batches.any (·.issued) = false) →
      dCpl j.desc ≠ 0 → cplOk j.desc (s.shelfSize (dSaggar j.desc)) = true →
      Effect (.jobCompletion a q) s (fun u =>
        u.job a q = none
        ∧ u.arrs.shelf = memWrite s.arrs.shelf (dSaggar j.desc * 2 ^ 30 + dCpl j.desc)
            (cplRecord j.desc j.jstat (min 3 j.failed) j.cause j.f j.ovf j.sat (s.aclkSince j.at_))
        ∧ (u.trmOf t).cplq = (s.trmOf t).cplq ++ [cplEntry j.desc j.jstat (min 3 j.failed) j.cause j.f]
        ∧ (u.trmOf t).jobs = (s.trmOf t).jobs - 1
        ∧ (∀ b, b ≠ a → u.arr b = s.arr b) ∧ u = { s with arrs := u.arrs, trm := u.trm }))

/-- O19. Fences of a matrix array and the tests that lift them. A permitted FENCE write fences an array with the
writer's cause and leaves no active job on it. UNFENCE by the control plane or the management controller
starts the in-service BIST of a fenced array, and by anyone else is answered DENIED. A BIST that passes lifts
the fence, one that fails leaves it with cause 0x3; the same holds of the power-on BIST of a fitted array not
yet admitted whose die is not fenced, and with no BIST in progress its end changes nothing. Basis: derived,
R20, R90, R91, R92, R597. -/
def Obligations.ArrayFences : Prop :=
  ∀ (s : State) (who : Who) (a : Nat), who.wf = true → a < 1536 →
    (s.csrGate who (arrCtrl a) true = none → (s.arr a).fence.on = false → ((s.arr a).slots.map (·.1)).Nodup →
      Effect (.arrFenceWrite who a) s (fun u =>
        (u.arr a).fence = { on := true, cause := fenceCauseOf who } ∧ (∀ x ∈ (u.arr a).slots, x.2.active = false)
        ∧ (∀ b, b ≠ a → (u.arr b).fence = (s.arr b).fence))) ∧
    (s.csrGate who (arrCtrl a) true = none → liftsFence who = true → (s.arr a).fence.on = true →
      Completes (.arrUnfence who a) s
        (modArr a (fun x => { x with bist := some (who = .management) }) (answerCsr who (arrCtrl a) .ok 0 s))) ∧
    (s.csrGate who (arrCtrl a) true = none → liftsFence who = false →
      Completes (.arrUnfence who a) s (answerCsr who (arrCtrl a) .denied 0 s)) ∧
    (∀ (m : Bool) (r : Word64), (s.arr a).bist = some m → r = 0 →
      Effect (.arrBistDone a r) s (fun u =>
        u.arr a = { s.arr a with fence := {}, bist := none } ∧ (∀ b, b ≠ a → u.arr b = s.arr b))) ∧
    (∀ (m : Bool) (r : Word64), (s.arr a).bist = some m → r ≠ 0 →
      Effect (.arrBistDone a r) s (fun u =>
        u.arr a = { s.arr a with fence := { on := true, cause := 3 }, bist := none }
        ∧ (∀ b, b ≠ a → u.arr b = s.arr b))) ∧
    (∀ r : Word64, (s.arr a).bist = none → Completes (.arrBistDone a r) s s) ∧
    (∀ r : Word64, a < s.variant.arrays → s.erc.adFenced.getD (arrDie a) false = false → (s.arr a).fence.on = true → (s.arr a).fence.cause = 2 → r = 0 →
      Completes (.arrayPowerOnBist a r) s (modArr a (fun x => { x with fence := {}, bist := none }) s)) ∧
    (∀ r : Word64, a < s.variant.arrays → s.erc.adFenced.getD (arrDie a) false = false → (s.arr a).fence.on = true → (s.arr a).fence.cause = 2 → r ≠ 0 →
      Effect (.arrayPowerOnBist a r) s (fun u =>
        u.arr a = { s.arr a with fence := { on := true, cause := 3 }, bist := none }
        ∧ (∀ b, b ≠ a → u.arr b = s.arr b)))

/-- O20. The frame instructions and SAMPLE.MARK of a Trimmer. On code that executes, with the slot at rs1 32-byte
aligned in local memory. FRM.ADD.S, .H and .I round the term of rs2 onto the slot's grid, write the slot back
and return whether it overflowed the grid; FRM.ADD.F combines the slot at rs2 into it and returns 0. Where a
slot is invalid, or widths or exponents of two slots differ, rd is 2 and no memory changes. FRM.FIN returns
the finished element with the saturation and overflow bits, or 2^61 for an invalid slot, and changes no
memory. SAMPLE.MARK copies rs1[31:0] into xmark. Every other register and every other Trimmer are as before,
and the pc moves on. Basis: derived, R106, R110, R111, R112, R115, R42, R46. -/
def Obligations.FrameInstructions : Prop :=
  ∀ (s : State) (t rd rs1 rs2 : Nat), t < 128 → rd < 32 → rs1 < 32 → rs2 < 32 → canRetire t s →
    Retires (.sampleMark t rs1) t 0 0 s (fun u => (u.trmOf t).xmark = s.rx t rs1 % 2 ^ 32) ∧
    (∀ k x, s.rx t rs1 % 32 = 0 → s.zone t (s.rx t rs1) 32 true = some (.local_ k) →
      slotFrame (memRead (s.trmOf t).mem k 32) = some x →
      Retires (.frmAddS t rd rs1 rs2) t rd (b2n (termFrm x.w x.f (termS (s.rx t rs2))).ovf) s
        (fun u => (u.trmOf t).mem = memWrite (s.trmOf t).mem k (x.addTerm (termS (s.rx t rs2))).slot) ∧
      Retires (.frmAddH t rd rs1 rs2) t rd (b2n (termFrm x.w x.f (termH (s.rx t rs2))).ovf) s
        (fun u => (u.trmOf t).mem = memWrite (s.trmOf t).mem k (x.addTerm (termH (s.rx t rs2))).slot) ∧
      Retires (.frmAddI t rd rs1 rs2) t rd (b2n (termFrm x.w x.f (termI (s.rx t rs2))).ovf) s
        (fun u => (u.trmOf t).mem = memWrite (s.trmOf t).mem k (x.addTerm (termI (s.rx t rs2))).slot)) ∧
    (∀ k k' x, s.rx t rs1 % 32 = 0 → s.zone t (s.rx t rs1) 32 true = some (.local_ k) →
      s.rx t rs2 % 32 = 0 → s.zone t (s.rx t rs2) 32 false = some (.local_ k') →
      combineSlots (memRead (s.trmOf t).mem k 32) (memRead (s.trmOf t).mem k' 32) = some x →
      Retires (.frmAddF t rd rs1 rs2) t rd 0 s (fun u => (u.trmOf t).mem = memWrite (s.trmOf t).mem k x.slot)) ∧
    (∀ k, s.rx t rs1 % 32 = 0 → s.zone t (s.rx t rs1) 32 true = some (.local_ k) →
      slotFrame (memRead (s.trmOf t).mem k 32) = none →
      Retires (.frmAddS t rd rs1 rs2) t rd 2 s (fun u => (u.trmOf t).mem = (s.trmOf t).mem)) ∧
    (∀ k k', s.rx t rs1 % 32 = 0 → s.zone t (s.rx t rs1) 32 true = some (.local_ k) →
      s.rx t rs2 % 32 = 0 → s.zone t (s.rx t rs2) 32 false = some (.local_ k') →
      combineSlots (memRead (s.trmOf t).mem k 32) (memRead (s.trmOf t).mem k' 32) = none →
      Retires (.frmAddF t rd rs1 rs2) t rd 2 s (fun u => (u.trmOf t).mem = (s.trmOf t).mem)) ∧
    (∀ k x o, s.rx t rs1 % 32 = 0 → s.zone t (s.rx t rs1) 32 false = some (.local_ k) →
      s.rx t rs2 % 16 < 8 → s.rx t rs2 % 16 ≠ fcMXINT8 → s.rx t rs2 % 16 ≠ fcMXFP4 →
      slotFrame (memRead (s.trmOf t).mem k 32) = some x → o = encodeElem (s.rx t rs2 % 16) x.value →
      Retires (.frmFin t rd rs1 rs2) t rd (o.1 + b2n o.2 * 2 ^ 62 + b2n x.ovf * 2 ^ 63) s
        (fun u => (u.trmOf t).mem = (s.trmOf t).mem)) ∧
    (∀ k, s.rx t rs1 % 32 = 0 → s.zone t (s.rx t rs1) 32 false = some (.local_ k) →
      s.rx t rs2 % 16 = 7 → slotFrame (memRead (s.trmOf t).mem k 32) = none →
      Retires (.frmFin t rd rs1 rs2) t rd (2 ^ 61) s (fun u => (u.trmOf t).mem = (s.trmOf t).mem))

/-- O21. ARR.ISSUE, ARR.WAIT and SHELF.PIN of a Trimmer. ARR.ISSUE of a descriptor that passes the checks places a
queued job in a free slot of its array, with the frame exponent of R51, counts it as outstanding and returns
0; a refused descriptor returns bit 16 with cause and status and queues its completion; while it can do
neither, the instruction stalls, and a stalled one that can proceed does. ARR.WAIT returns the oldest
completion, all ones where none is queued and the limit is 0, and otherwise stalls until a completion comes or
the limit passes; one that comes in the cycle of the limit is returned. SHELF.PIN and its unpin form return
the result of R114 and change the saggar's pin counts accordingly. Basis: derived, R25, R26, R51, R75, R76,
R107, R108, R109, R114. -/
def Obligations.JobInstructions : Prop :=
  ∀ (s : State) (t rd rs1 rs2 : Nat), t < 128 → rd < 32 → rs1 < 32 → rs2 < 32 →
    (∀ d, canRetire t s → s.block t (s.rx t rs1) 128 false 4 = .ok d → s.issueStalls t d = false →
      s.jobRefused d (s.trmSag t) = none →
      Retires (.arrIssue t rd rs1) t rd 0 s (fun u =>
        (∃ grp, u.job (dArray d) (if ahas (s.arr (dArray d)).slots 0 then 1 else 0) = some
            { desc := d, issuer := .trimmer t, order := (s.arr (dArray d)).nextOrder, at_ := s.now,
              f := s.trmFrame t d, group := grp })
          ∧ (u.trmOf t).jobs = (s.trmOf t).jobs + 1)) ∧
    (∀ d st c, canRetire t s → s.block t (s.rx t rs1) 128 false 4 = .ok d → s.issueStalls t d = false →
      s.jobRefused d (s.trmSag t) = some (st, c) →
      Retires (.arrIssue t rd rs1) t rd (2 ^ 16 + c * 2 ^ 8 + st) s (fun u =>
        (u.trmOf t).cplq = (s.trmOf t).cplq ++ [cplEntry d st 0 c (s.trmFrame t d)] ∧ u.arrs.arr = s.arrs.arr)) ∧
    (∀ d, canRetire t s → s.block t (s.rx t rs1) 128 false 4 = .ok d → s.issueStalls t d = true →
      Completes (.arrIssue t rd rs1) s
        (modTrm t (fun x => { x with stall := some (.issue rd rs1 4 s.now) }) (beginInsn t s))) ∧
    (∀ since d, (s.trmOf t).stall = some (.issue rd rs1 4 since) → hasBudget t s →
      s.block t (s.rx t rs1) 128 false 4 = .ok d → s.issueStalls t d = false →
      s.jobRefused d (s.trmSag t) = none →
      Retires (.arrIssueUnstall t) t rd 0 s (fun u => (u.trmOf t).stall = none
        ∧ (u.trmOf t).jobs = (s.trmOf t).jobs + 1)) ∧
    (∀ e rest, canRetire t s → (s.trmOf t).cplq = e :: rest →
      Retires (.arrWait t rd rs1) t rd e s (fun u => (u.trmOf t).cplq = rest)) ∧
    (canRetire t s → (s.trmOf t).cplq = [] → s.rx t rs1 = 0 →
      Retires (.arrWait t rd rs1) t rd (2 ^ 64 - 1) s (fun u => (u.trmOf t).cplq = [])) ∧
    (∀ n, canRetire t s → (s.trmOf t).cplq = [] → s.rx t rs1 = n → n ≠ 0 → n ≠ 2 ^ 64 - 1 →
      Completes (.arrWait t rd rs1) s
        (modTrm t (fun x => { x with stall := some (.wait rd 4 s.now (some (s.now + aclk n))) }) (beginInsn t s))) ∧
    (∀ since dl e rest, (s.trmOf t).stall = some (.wait rd 4 since dl) → (s.trmOf t).cplq = e :: rest → hasBudget t s →
      Retires (.arrWaitWake t) t rd e s (fun u => (u.trmOf t).cplq = rest ∧ (u.trmOf t).stall = none)) ∧
    (∀ since d, (s.trmOf t).stall = some (.wait rd 4 since (some d)) → hasBudget t s →
      Retires (.arrWaitTimeout t) t rd ((s.trmOf t).cplq.headD (2 ^ 64 - 1)) s (fun u =>
        u.now = max s.now (d + aclk 1) ∧ (u.trmOf t).cplq = (s.trmOf t).cplq.tail ∧ (u.trmOf t).stall = none)) ∧
    (∀ r, canRetire t s → r = pinResult t (s.rx t rs1) (s.rx t rs2) s →
      Retires (.shelfPin t rd rs1 rs2) t rd r.1 s (fun u => u.arrs = r.2.arrs) ∧
      Retires (.shelfUnpin t rd rs1 rs2) t rd r.1 s (fun u => u.arrs = r.2.arrs)) ∧
    (∀ base, base % 65536 = 0 → base + 65536 ≤ s.shelfSize (s.trmSag t) →
      aget s.arrs.pins (s.trmSag t, base / 65536) 0 = 0 →
      (s.pinnedUnits (s.trmSag t) < s.sagParam (s.trmSag t) 0x030A * 16 →
        (pinResult t base 1 s).1 = 0 ∧ aget (pinResult t base 1 s).2.arrs.pins (s.trmSag t, base / 65536) 0 = 1) ∧
      (s.sagParam (s.trmSag t) 0x030A * 16 ≤ s.pinnedUnits (s.trmSag t) → pinResult t base 1 s = (1, s)) ∧
      pinResult t base (2 ^ 16 + 1) s = (3, s))

/-- O22. Loads, stores and atomics through a fabric window. A naturally aligned access through an enabled window
sends the packet of R102 to the window's node with the Trimmer's saggar, in TC1, and holds it outstanding; a
load or atomic waits for its answer, a store of 8 bytes retires at once. A store of 1, 2 or 4 bytes reads the
aligned word it lies in first and waits for that, which is the model's choice (log entry 142). While the
Trimmer may not send, or an unanswered store or atomic of its own holds the grain, the code waits. The backoff
of a NACK_RETRY of one of its requests ends in the request going out again. Basis: derived, R102, R103, R330,
R342, R343. -/
def Obligations.WindowInstructions : Prop :=
  ∀ (s : State) (t rd addr n a : Nat) (d : Nat × Nat), t < 128 → rd < 32 → addr < 2 ^ 64 → d = s.winTarget t n a →
    (∀ bytes sg, bytes ∈ [1, 2, 4, 8] → canRetire t s → s.zone t addr bytes false = some (.win n a) → addr % bytes = 0 →
      (s.maySend (.trimmer t) d.1 (s.trmSag t) = true →
        Effect (.windowLoad t rd addr bytes sg) s (fun u =>
          (u.trmOf t).wins = (s.trmOf t).wins ++ [{ tag := s.nextTag, kind := .load rd bytes sg 4, addr := addr }]
            ∧ (∃ r : Req, u.fab.outst = s.fab.outst ++ [r] ∧ r.req = .trimmer t ∧ r.pkt.opcode = opREAD ∧ r.pkt.dst = d.1
              ∧ r.pkt.saggar = s.trmSag t ∧ r.pkt.offset = d.2 / 8 * 8 ∧ r.pkt.length = 8 ∧ r.pkt.cls = 1
              ∧ r.pkt.tag = s.nextTag)
            ∧ u.rpc t = s.rpc t)) ∧
      (s.maySend (.trimmer t) d.1 (s.trmSag t) = false →
        Completes (.windowLoad t rd addr bytes sg) s (beginInsn t s))) ∧
    (∀ data : List Byte, data.length ∈ [1, 2, 4, 8] → canRetire t s →
      s.zone t addr data.length true = some (.win n a) → addr % data.length = 0 →
      (data.length = 8 → s.maySend (.trimmer t) d.1 (s.trmSag t) = true → s.grainHeld (.trimmer t) d.1 d.2 = false →
        Retires (.windowStore t addr data) t 0 0 s (fun u =>
          (u.trmOf t).wins = (s.trmOf t).wins ++ [{ tag := s.nextTag, kind := .store, addr := addr }]
            ∧ (∃ r : Req, u.fab.outst = s.fab.outst ++ [r] ∧ r.req = .trimmer t ∧ r.pkt.opcode = opWRITE ∧ r.pkt.dst = d.1
              ∧ r.pkt.saggar = s.trmSag t ∧ r.pkt.offset = d.2 ∧ r.pkt.payload = data ∧ r.pkt.cls = 1))) ∧
      (data.length ≠ 8 → s.maySend (.trimmer t) d.1 (s.trmSag t) = true →
        Effect (.windowStore t addr data) s (fun u =>
          (u.trmOf t).wins = (s.trmOf t).wins ++ [{ tag := s.nextTag, kind := .fill data 4 none, addr := addr }]
            ∧ (∃ r : Req, u.fab.outst = s.fab.outst ++ [r] ∧ r.req = .trimmer t ∧ r.pkt.opcode = opREAD ∧ r.pkt.dst = d.1
              ∧ r.pkt.saggar = s.trmSag t ∧ r.pkt.offset = d.2 / 8 * 8 ∧ r.pkt.length = 8 ∧ r.pkt.cls = 1)
            ∧ u.rpc t = s.rpc t)) ∧
      (s.maySend (.trimmer t) d.1 (s.trmSag t) = false ∨ (data.length = 8 ∧ s.grainHeld (.trimmer t) d.1 d.2 = true) →
        Completes (.windowStore t addr data) s (beginInsn t s))) ∧
    (∀ (op : AmoOp) (v : Word64), canRetire t s → s.zone t addr 8 true = some (.win n a) → addr % 8 = 0 →
      (s.maySend (.trimmer t) d.1 (s.trmSag t) = true → s.grainHeld (.trimmer t) d.1 d.2 = false →
        Effect (.windowAmo t rd op addr v) s (fun u =>
          (u.trmOf t).wins = (s.trmOf t).wins ++ [{ tag := s.nextTag, kind := .amo rd 4, addr := addr }]
            ∧ (∃ r : Req, u.fab.outst = s.fab.outst ++ [r] ∧ r.req = .trimmer t ∧ r.pkt.opcode = amoOpcode op
              ∧ r.pkt.dst = d.1 ∧ r.pkt.saggar = s.trmSag t ∧ r.pkt.offset = d.2 ∧ r.pkt.payload = natLe v.toNat 8
              ∧ r.pkt.cls = 1)
            ∧ u.rpc t = s.rpc t)) ∧
      (s.maySend (.trimmer t) d.1 (s.trmSag t) = false ∨ s.grainHeld (.trimmer t) d.1 d.2 = true →
        Completes (.windowAmo t rd op addr v) s (beginInsn t s))) ∧
    (∀ tag r b, tag < 65536 → s.fab.outst.find? (fun r => r.req = .trimmer t ∧ r.pkt.tag = tag ∧ r.backoff.isSome) = some r →
      s.fab.outst.find? (fun r => r.pkt.tag = tag ∧ r.backoff.isSome) = some r → r.backoff = some b →
      r.pkt.payload.length ≤ 512 →
      Effect (.windowRetryBackoff t tag) s (fun u =>
        u.now = max s.now b ∧ (∃ p : Packet, u.fab.tx = s.fab.tx ++ [p] ∧ p.dst = r.pkt.dst ∧ p.tag = tag ∧ p.rty = false
          ∧ p.epoch = s.img.epoch ∧ p.payload = r.pkt.payload) ∧ u = { carry b s with fab := u.fab }))

/-- O23. What a Trimmer's code executes, and how it is interrupted. TRIMMER_INSTRUCTION executes the word at the
pc, of user code in user local memory and of machine firmware in its instruction SRAM: ADDI adds, and a word
no instruction has halts the main code. An interrupt is taken by priority: a fence event enters the upcall
vector with the event in a0 to a2, every other register as it was and the main context kept; with no fence
event that can be passed on, the oldest queued call enters its handler with the header block and the registers
of R116 set. While the vector is 0 an event is discarded. The return of an upcall restores the interrupted
context. Basis: derived, R97, R98, R99, R104, R105, R116, R118. -/
def Obligations.TrimmerPrivilege : Prop :=
  ∀ (s : State) (t : Nat), t < 128 →
    (∀ rd rs1 imm, canRetire t s → (s.trmOf t).run ≠ .none → rd < 32 → rs1 < 32 → imm < 4096 →
      0x9000 ≤ s.rpc t → s.rpc t + 4 ≤ 0x40000 →
      memRead (s.trmOf t).mem (s.rpc t) 4 = natLe (0x13 + rd * 2 ^ 7 + rs1 * 2 ^ 15 + imm * 2 ^ 20) 4 →
      Retires (.trimmerInstruction t) t rd (unsignedW 64 ((s.rx t rs1 : Int) + signedW 12 imm)) s
        (fun u => (u.trmOf t).mem = (s.trmOf t).mem)) ∧
    (∀ rd rs1 imm k, canRetire t s → (s.trmOf t).run = .none → rd < 32 → rs1 < 32 → imm < 4096 →
      s.rpc t = 0x8000000 + k → k % 4 = 0 → k + 4 ≤ 0x10000 →
      memRead (s.trmOf t).fwMem k 4 = natLe (0x13 + rd * 2 ^ 7 + rs1 * 2 ^ 15 + imm * 2 ^ 20) 4 →
      Retires (.trimmerInstruction t) t rd (unsignedW 64 ((s.rx t rs1 : Int) + signedW 12 imm)) s
        (fun u => (u.trmOf t).mem = (s.trmOf t).mem ∧ (u.trmOf t).ctx = (s.trmOf t).ctx)) ∧
    (s.trmRuns t = true → (s.trmOf t).run = .main → s.trms.swapDeadline = [] →
      0x9000 ≤ s.trmPc t → s.trmPc t + 4 ≤ 0x40000 →
      memRead (s.trmOf t).mem (s.trmPc t) 4 = natLe 0xFFFFFFFF 4 →
      Effect (.trimmerInstruction t) s (fun u => (u.trmOf t).mode = 3 ∧ (u.trmOf t).run = .none)) ∧
    (∀ e, t < s.variant.trimmers → (s.trmOf t).fence.on = false → (s.trmOf t).fwDown = false → 2 ≤ (s.trmOf t).mode →
      (s.trmOf t).run = .main → (s.trmOf t).swap = none → (s.trmOf t).blocked = false →
      (s.trmOf t).upcalls.find? (fun e => e.mcause = 19) = some e → e.since = none →
      ((s.trmOf t).xuvec ≠ 0 →
        Effect (.interruptTake t) s (fun u =>
          (u.trmOf t).run = .upcall ∧ u.trmPc t = (s.trmOf t).xuvec ∧ (u.trmOf t).mainCtx = some (s.trmOf t).ctx
            ∧ u.tx t 10 = 19 ∧ u.tx t 11 = e.a1 ∧ u.tx t 12 = e.a2
            ∧ (∀ r, r ≠ 10 → r ≠ 11 → r ≠ 12 → u.tx t r = s.tx t r)
            ∧ (u.trmOf t).upcalls = ((endStall t (takeSamples t (fun _ => true) s)).trmOf t).upcalls.erase e
            ∧ (u.trmOf t).stall = none ∧ (∀ k, k ≠ t → u.trmOf k = s.trmOf k) ∧ u = { s with trm := u.trm })) ∧
      ((s.trmOf t).xuvec = 0 →
        Completes (.interruptTake t) s
          (modTrm t (fun x => { x with upcalls := x.upcalls.erase e }) (endStall t (takeSamples t (fun _ => true) s))))) ∧
    (∀ c rest, t < s.variant.trimmers → (s.trmOf t).fence.on = false → (s.trmOf t).fwDown = false →
      2 ≤ (s.trmOf t).mode → (s.trmOf t).swap = none → (s.trmOf t).blocked = false →
      ((s.trmOf t).run = .main ∧ ∀ e ∈ (s.trmOf t).upcalls, e.mcause ≠ 19)
        ∨ ((s.trmOf t).run = .none ∧ (s.trmOf t).xuvec ≠ 0) →
      (s.trmOf t).rptq = c :: rest →
      Effect (.interruptTake t) s (fun u =>
        (u.trmOf t).run = .handler ∧ u.trmPc t = rptHandler c.entry
          ∧ ((s.trmOf t).run = .main → (u.trmOf t).mainCtx = some (s.trmOf t).ctx)
          ∧ ((s.trmOf t).run = .none → (u.trmOf t).mainCtx = (s.trmOf t).mainCtx)
          ∧ (u.trmOf t).rptq = rest ∧ (u.trmOf t).call = c ∧ (u.trmOf t).retired = 0
          ∧ u.tx t 10 = callProc c.p ∧ u.tx t 11 = callArgLen c.p ∧ u.tx t 12 = 0x8020 ∧ u.tx t 13 = c.p.src
          ∧ u.tx t 2 = progHandlerSp (s.program (s.trmSag t))
          ∧ (u.trmOf t).mem = memWrite (s.trmOf t).mem 0x8000 (fit (rptHeader c.p ++ callArgs c.p) 4096)
          ∧ u = { s with trm := u.trm, free := s.free + 32 })) ∧
    (∀ c, (s.trmOf t).run = .upcall → (s.trmOf t).swap = none → (s.trmOf t).mainCtx = some c → s.trms.swapDeadline = [] →
      Completes (.upcallReturn t) s (modTrm t (fun x => { x with run := .main, ctx := c, mainCtx := none }) s))

/-- O24. How a handler and the main code end. RPT.RET in a handler answers the call with status OK, the result
code and the result bytes, and resumes the code the handler interrupted. A handler that faults or exhausts its
budget is answered 0xFFFF with mcause and mtval, or 0xFFFE, and a fault of the main code or of an upcall halts
the main code; each counts in TRM_ERR. A parity error in user memory faults the code that read it; one in
firmware data, or one that the firmware itself reads, restarts the firmware at the first address of its SRAM;
all count. Basis: derived, R113, R117, R118, R124. -/
def Obligations.TrimmerFaults : Prop :=
  ∀ (s : State) (t : Nat), t < 128 → s.trms.swapDeadline = [] →
    (∀ rs1 rs2 m code n, rs1 < 32 → rs2 < 32 → s.trmRuns t = true → (s.trmOf t).run = .handler →
      (s.trmOf t).call.sitter = none → (s.trmOf t).rptq = [] → (s.trmOf t).swap = none → (s.trmOf t).mainCtx = some m →
      s.tx t rs1 = code + n * 2 ^ 16 → code < 65536 → n ≤ 256 → 0x9000 ≤ s.tx t rs2 → s.tx t rs2 + n ≤ 0x40000 →
      Effect (.rptRet t rs1 rs2) s (fun u =>
        (u.trmOf t).run = .main ∧ (u.trmOf t).ctx = m ∧ (u.trmOf t).mainCtx = none
          ∧ ∃ p : Packet, u.fab.tx = s.fab.tx ++ [p] ∧ p.dst = (s.trmOf t).call.p.src ∧ p.tag = (s.trmOf t).call.p.tag
            ∧ p.status = 0 ∧ p.payload = rptResult code (memRead (s.trmOf t).mem (s.tx t rs2) n))) ∧
    (∀ mc mv, mc < 2 ^ 64 → mv < 2 ^ 64 → (s.trmOf t).run = .handler → (s.trmOf t).call.sitter = none →
      (s.trmOf t).rptq = [] → (s.trmOf t).swap = none → (s.trmOf t).mainCtx = none →
      Effect (.rptHandlerFault t mc mv) s (fun u =>
        (u.trmOf t).run = .none ∧ u.satVal (satTrmUserFault t) = satAdd 16 (s.satVal (satTrmUserFault t)) 1
          ∧ ∃ p : Packet, u.fab.tx = s.fab.tx ++ [p] ∧ p.dst = (s.trmOf t).call.p.src
            ∧ p.payload = rptResult 0xFFFF (natLe (mc % 256 + mv % 2 ^ 56 * 256) 8)) ∧
      Effect (.rptBudgetExhausted t) s (fun u =>
        (u.trmOf t).run = .none ∧ u.satVal (satTrmUserFault t) = satAdd 16 (s.satVal (satTrmUserFault t)) 1
          ∧ ∃ p : Packet, u.fab.tx = s.fab.tx ++ [p] ∧ p.dst = (s.trmOf t).call.p.src
            ∧ p.payload = rptResult 0xFFFE (natLe 0 8))) ∧
    (∀ mc mv, mc < 2 ^ 64 → mv < 2 ^ 64 → (s.trmOf t).run = .main ∨ (s.trmOf t).run = .upcall →
      Effect (.mainCodeFault t mc mv) s (fun u =>
        u.trmOf t = { s.trmOf t with run := .none, mainCtx := none, mode := 3, stall := none }
          ∧ u.satVal (satTrmUserFault t) = satAdd 16 (s.satVal (satTrmUserFault t)) 1
          ∧ (∀ k, k ≠ t → u.trmOf k = s.trmOf k))) ∧
    (∀ addr, addr < 2 ^ 64 → t < s.variant.trimmers → (s.trmOf t).fence.on = false →
      Effect (.trmParityError t true addr) s (fun u =>
        u.trmOf t = { s.trmOf t with fwDown := true, mctx := { pc := 0x8000000 } }
          ∧ u.satVal (satTrmParity t) = satAdd 16 (s.satVal (satTrmParity t)) 1) ∧
      ((s.trmOf t).run = .none →
        Effect (.trmParityError t false addr) s (fun u =>
          (u.trmOf t).fwDown = true ∧ (u.trmOf t).mctx = { pc := 0x8000000 } ∧ (u.trmOf t).ctx = (s.trmOf t).ctx
            ∧ u.satVal (satTrmParity t) = satAdd 16 (s.satVal (satTrmParity t)) 1)) ∧
      ((s.trmOf t).run = .main →
        Effect (.trmParityError t false addr) s (fun u =>
          (u.trmOf t).mode = 3 ∧ (u.trmOf t).run = .none
            ∧ u.satVal (satTrmParity t) = satAdd 16 (s.satVal (satTrmParity t)) 1)))

/-- O25. Service, fences and firmware restarts of a Trimmer. A fitted Trimmer not yet admitted enters service with
its fence lifted, the firmware copy in force loaded, and its saggar's program loaded at its entry point, or
firmware alone where it has no saggar or no program. A permitted FENCE write fences it with the writer's
cause; UNFENCE by the control plane or the management controller starts its BIST, whose pass brings it back
into service and whose failure leaves it fenced with cause 0x3. A firmware restart holds its code and calls,
and its end dispatches the oldest held call where no fence event comes first. A swap that times out leaves the
old program running everywhere. Basis: derived, R22, R98, R123, R124, R125, R126, R20, R597. -/
def Obligations.TrimmerService : Prop :=
  ∀ (s : State) (who : Who) (t : Nat), who.wf = true → t < 128 →
    (t < s.variant.trimmers → (s.trmOf t).fence = { on := true, cause := 2 } →
      Effect (.trimmerEnterService t) s (fun u =>
        (u.trmOf t).fence.on = false ∧ (u.trmOf t).resetAt = (if (s.trmOf t).mode = 0 then s.now else (s.trmOf t).resetAt)
          ∧ (u.trmOf t).fwCopyB = (s.fw 3).inForceB ∧ (u.trmOf t).mctx = { pc := 0x8000000 }
          ∧ (u.trmOf t).fwMem = memWrite [] 0 ((s.fw 3).inForce.2.take 0x10000)
          ∧ (s.trmOwner t = none → (u.trmOf t).mode = 1 ∧ (u.trmOf t).run = .none)
          ∧ (∀ g, s.trmOwner t = some g → s.program g = [] → (u.trmOf t).mode = 1 ∧ (u.trmOf t).run = .none)
          ∧ (∀ g, s.trmOwner t = some g → s.program g ≠ [] → (u.trmOf t).mode = 2 ∧ (u.trmOf t).run = .main
              ∧ u.trmPc t = progEntry (s.program g))
          ∧ (∀ k, k ≠ t → u.trmOf k = s.trmOf k) ∧ u = { s with trm := u.trm, arrs := u.arrs })) ∧
    (s.csrGate who (trmCtrl t) true = none → (s.trmOf t).fence.on = false → s.trms.swapDeadline = [] →
      Effect (.trmFence who t) s (fun u =>
        (u.trmOf t).fence = { on := true, cause := fenceCauseOf who } ∧ (u.trmOf t).run = .none
          ∧ (u.trmOf t).rptq = (s.trmOf t).rptq ∧ (∀ k, k ≠ t → u.trmOf k = s.trmOf k))) ∧
    (s.csrGate who (trmCtrl t) true = none → liftsFence who = true → (s.trmOf t).fence.on = true →
      Completes (.trmUnfence who t) s (modTrm t (fun x => { x with bist := true }) (answerCsr who (trmCtrl t) .ok 0 s))) ∧
    (s.csrGate who (trmCtrl t) true = none → liftsFence who = false →
      Completes (.trmUnfence who t) s (answerCsr who (trmCtrl t) .denied 0 s)) ∧
    ((s.trmOf t).bist = true →
      Effect (.trmBistDone t true) s (fun u => (u.trmOf t).fence.on = false ∧ 1 ≤ (u.trmOf t).mode) ∧
      Effect (.trmBistDone t false) s (fun u =>
        (u.trmOf t).fence = { on := true, cause := 3 } ∧ (u.trmOf t).bist = false)) ∧
    (s.csrGate who (trmCtrl t) true = none →
      Completes (.fwRestart who t) s (modTrm t (fun x => { x with fwDown := true, mctx := { pc := 0x8000000 } })
        (answerCsr who (trmCtrl t) .ok 0 s))) ∧
    ((s.trmOf t).fwDown = true → (s.trmOf t).rptq = [] → (s.trmOf t).upcalls = [] →
      Effect (.trimmerFwRestartDone t) s (fun u => u.trmOf t = { s.trmOf t with fwDown := false }
        ∧ (∀ k, k ≠ t → u.trmOf k = s.trmOf k))) ∧
    (∀ c rest, (s.trmOf t).fwDown = true → (s.trmOf t).rptq = c :: rest → (s.trmOf t).run = .main →
      (s.trmOf t).swap = none → (s.trmOf t).fence.on = false → 2 ≤ (s.trmOf t).mode → t < s.variant.trimmers →
      (s.trmOf t).blocked = false → (∀ e ∈ (s.trmOf t).upcalls, e.mcause ≠ 19) →
      Effect (.trimmerFwRestartDone t) s (fun u =>
        (u.trmOf t).fwDown = false ∧ (u.trmOf t).run = .handler ∧ (u.trmOf t).call = c ∧ (u.trmOf t).rptq = rest)) ∧
    (∀ g d, g < 64 → afind s.trms.swapDeadline g = some d →
      Effect (.programSwapTimeout g) s (fun u =>
        u.now = max s.now (d + aclk 1) ∧ afind u.trms.swapDeadline g = none
          ∧ (∀ k ∈ s.trimmersOf g, (u.trmOf k).swap = none)
          ∧ (∀ k, k ∉ s.trimmersOf g → u.trmOf k = s.trmOf k)))

/-- O26. What each step token does at its receiver. A well-formed OPEN opens the step at a member with the token's
number, period and debt, an empty record and, unless in replay, mode 1 or 3; CLOSE lets the open step close;
ABORT drops its tokens, batches' waiting records and attention, and a member that has closed the step already
answers it with CLOSED again (log entry 155). EP_DONE is counted once per endpoint awaited at the leader,
which sends CLOSE when the last has come; CLOSED of every live member ends the step with the debt and the next
opening of R132, or, for an aborted attempt, makes it due again. CLOSE, ABORT, EP_DONE and CLOSED count for
the attempt whose epoch they carry (log entry 154). A token that is malformed or of another composition is
taken and changes nothing else. Basis: derived, R129, R130, R131, R132, R155, R159, R160. -/
def Obligations.StepTokens : Prop :=
  ∀ (s : State) (p : Packet), p.wf = true →
    (s.token p 1 = none → Completes (.stepTokenOpen p) s (take p s)) ∧
    (s.token p 2 = none → Completes (.stepTokenEpDone p) s (take p s)) ∧
    (s.token p 3 = none → Completes (.stepTokenClose p) s (take p s)) ∧
    (s.token p 4 = none → Completes (.stepTokenClosed p) s (take p s)) ∧
    (s.token p 5 = none → Completes (.stepTokenAbort p) s (take p s)) ∧
    (∀ g, s.token p 1 = some g → (s.sitOf g).isOpen = false → (s.sitOf g).replay = false → (s.sitOf g).enterDue = false →
      Effect (.stepTokenOpen p) s (fun u =>
        (u.sitOf g).isOpen = true ∧ (u.sitOf g).runs = true ∧ (u.sitOf g).step = tkStep p ∧ (u.sitOf g).q = tkQ p
          ∧ (u.sitOf g).d = tkD p ∧ (u.sitOf g).rerun = tkRerun p ∧ (u.sitOf g).replay = false
          ∧ (u.sitOf g).mode = (if tkRerun p then 3 else 1) ∧ (u.sitOf g).closing = false ∧ (u.sitOf g).aborted = false
          ∧ (u.sitOf g).epoch = tkEpoch p ∧ (u.sitOf g).choices = [] ∧ (u.sitOf g).recomps = []
          ∧ (u.sitOf g).frames = (s.sitOf g).frames ∧ (u.sitOf g).trees = (s.sitOf g).trees
          ∧ (u.sitOf g).closedLayers = [] ∧ (u.sitOf g).cutLayers = [])) ∧
    (∀ g, s.token p 3 = some g → (s.sitOf g).isOpen = true → (s.sitOf g).step = tkStep p → (s.sitOf g).epoch = tkEpoch p →
      Completes (.stepTokenClose p) s (take p (modSit g (fun x => { x with closing := true }) s))) ∧
    (∀ g, s.token p 5 = some g → (s.sitOf g).runs = true → (s.sitOf g).step = tkStep p → (s.sitOf g).epoch = tkEpoch p →
      ((s.sitOf g).isOpen = true →
        Effect (.stepTokenAbort p) s (fun u =>
          (u.sitOf g).aborted = true ∧ (u.sitOf g).closing = true ∧ (u.sitOf g).pend = [] ∧ (u.sitOf g).outbox = []
            ∧ (∀ b ∈ (u.sitOf g).batches, b.left = []) ∧ (∀ r ∈ u.att.reqs, r.p.saggar ≠ g))) ∧
      ((s.sitOf g).isOpen = false →
        Effect (.stepTokenAbort p) s (fun u =>
          (u.sitOf g).aborted = true ∧ (u.sitOf g).isOpen = false ∧ u.jsl.records = s.jsl.records
            ∧ ∃ q : Packet, u.fab.tx = s.fab.tx ++ [q] ∧ q.dst = s.leaderNode (s.sagComp g) ∧ q.opcode = opSTEP ∧ tkKind q = 4))) ∧
    (∀ g, s.token p 2 = some g → s.leads (tkComp p) = true → (s.leadOf (tkComp p)).phase = 1 →
      (s.leadOf (tkComp p)).step = tkStep p → (s.leadOf (tkComp p)).epoch = tkEpoch p →
      (s.awaited (tkComp p)).contains p.src = true →
      (s.leadOf (tkComp p)).epDone.contains p.src = false →
      Effect (.stepTokenEpDone p) s (fun u =>
        (u.leadOf (tkComp p)).epDone = (s.leadOf (tkComp p)).epDone ++ [p.src]
          ∧ (u.leadOf (tkComp p)).phase =
              (if (s.awaited (tkComp p)).all ((s.leadOf (tkComp p)).epDone ++ [p.src]).contains then 2 else 1))) ∧
    (∀ g l, s.token p 4 = some g → s.leads (tkComp p) = true → l = s.leadOf (tkComp p) → 2 ≤ l.phase → l.step = tkStep p →
      l.epoch = tkEpoch p →
      (s.liveMembers (tkComp p)).contains (tkMember p) = true → l.closed.contains (tkMember p) = false →
      ((s.liveMembers (tkComp p)).all (l.closed ++ [tkMember p]).contains = false →
        Effect (.stepTokenClosed p) s (fun u => (u.leadOf (tkComp p)).closed = l.closed ++ [tkMember p]
          ∧ (u.leadOf (tkComp p)).phase = l.phase)) ∧
      ((s.liveMembers (tkComp p)).all (l.closed ++ [tkMember p]).contains = true → l.phase = 3 →
        Effect (.stepTokenClosed p) s (fun u => (u.leadOf (tkComp p)).phase = 0 ∧ (u.leadOf (tkComp p)).rerun = true
          ∧ (u.leadOf (tkComp p)).nextOpen = s.now ∧ (u.leadOf (tkComp p)).debt = l.debt)) ∧
      ((s.liveMembers (tkComp p)).all (l.closed ++ [tkMember p]).contains = true → l.phase = 2 →
        (s.sitOf g).ctrlHold = false → (s.sitOf g).replay = false → s.arch.cp ≠ .restart →
        Effect (.stepTokenClosed p) s (fun u => (u.leadOf (tkComp p)).phase = 0 ∧ (u.leadOf (tkComp p)).rerun = false
          ∧ (u.leadOf (tkComp p)).debt = debtAfter (s.periodP (tkComp p)) l.debt l.q ((s.now - l.firstOpen) / 12)
          ∧ (u.leadOf (tkComp p)).nextOpen = l.firstOpen + aclk (max l.q ((s.now - l.firstOpen) / 12)))))

/-- O27. The leader opens the next step, and aborts it where an endpoint falls silent. When the next opening is
due, the leader opens the step that follows, or the same one for a re-run, with the period its debt leaves,
the full period while its control cores restart, and sends OPEN to every live member and endpoint. In replay
it opens nothing until every member holds its supplied record, which the command says (log entry 156). An
endpoint silent past its wait, in whose last cycle an answer would still have counted, or lost, makes the
leader abort the step in flight, await the next epoch and ask for the endpoint's fence. Basis: derived, R132,
R133, R134, R160, R162, R475. -/
def Obligations.StepLeader : Prop :=
  ∀ (s : State) (comp g : Nat), comp < 2 ^ 24 → s.sagOfComp comp = some g → s.leads comp = true →
    ((s.leadOf comp).phase = 0 → s.compFenced comp = false → s.meterStops g = false →
      (s.leadOf comp).waitEpoch ≠ some s.img.epoch → (s.sitOf g).isOpen = false → (s.sitOf g).replay = false →
      (s.sitOf g).enterDue = false → s.liveEndpoints comp ≠ [] → ∀ held : Bool,
      Effect (.leaderOpenDue ⟨comp, held⟩) s (fun u =>
        (u.leadOf comp).phase = 1 ∧ (u.leadOf comp).runs = true ∧ (u.leadOf comp).epDone = [] ∧ (u.leadOf comp).closed = []
          ∧ (u.leadOf comp).step = (if (s.leadOf comp).runs = false then s.compParam comp 0x0104
              else if (s.leadOf comp).rerun then (s.leadOf comp).step else (s.leadOf comp).step + 1)
          ∧ (u.leadOf comp).q = (if s.arch.cp = .restart then s.periodP comp
              else periodQ (s.periodP comp) (s.periodMin comp) (s.leadOf comp).debt)
          ∧ (u.leadOf comp).debt = (s.leadOf comp).debt ∧ (u.leadOf comp).openAt = max s.now (s.leadOf comp).nextOpen
          ∧ (u.leadOf comp).epoch = s.img.epoch ∧ (u.leadOf comp).eps = s.liveEndpoints comp
          ∧ u.now = max s.now (s.leadOf comp).nextOpen
          ∧ ∃ l : List Packet, u.fab.tx = s.fab.tx ++ l ∧ l.map (·.dst) = memberNodes s comp ++ s.liveEndpoints comp)) ∧
    ((s.sitOf g).replay = true ∨ (s.sitOf g).enterDue = true → (s.sitOf g).exitDue = false →
      Completes (.leaderOpenDue ⟨comp, false⟩) s s) ∧
    (∀ ep, ep < 65536 → (s.leadOf comp).phase = 1 → (s.leadOf comp).epDone.contains ep = false →
      (s.liveEndpoints comp).contains ep = true → (s.awaited comp).contains ep = true →
      Effect (.epWaitExpiry comp ep) s (fun u =>
        (u.leadOf comp).phase = 3 ∧ (u.leadOf comp).waitEpoch = some s.img.epoch
          ∧ u.now = max s.now ((s.leadOf comp).openAt + aclk (2 ^ s.compParam comp 0x0107) + aclk 1)
          ∧ (s.img.isCoord = true → ep ∈ u.img.nextFences)
          ∧ (s.img.isCoord = false → Out.ctrl s.img.coord (.fenceRequest ep) ∈ u.out))) ∧
    (∀ ep, ep < 65536 → (s.leadOf comp).phase = 1 ∨ (s.leadOf comp).phase = 2 → (s.liveEndpoints comp).contains ep = true →
      Effect (.epLost comp ep) s (fun u =>
        (u.leadOf comp).phase = 3 ∧ (u.leadOf comp).closed = [] ∧ (u.leadOf comp).waitEpoch = some s.img.epoch
          ∧ (s.img.isCoord = true → ep ∈ u.img.nextFences)
          ∧ (s.img.isCoord = false → Out.ctrl s.img.coord (.fenceRequest ep) ∈ u.out)))

/-- O28. A member's step closes into its record; seals and replay records. A step that may close and has no work
left closes: the clock is stamped for the record and for CLOSED, the record goes into the ring and the open
group, and CLOSED is sent to the leader; where the ring has no room, the record waits and CLOSED is withheld
until it has. SEAL_NOW closes a nonempty group with the chain carried on, its seal streamed, or waiting for
room like a record, and does nothing to an empty one. The replay controls take effect at the next step, and a
supplied record of 256 bytes or more is kept for it. Basis: derived, R27, R130, R152, R153, R154, R155, R156. -/
def Obligations.StepRecords : Prop :=
  ∀ (s : State) (comp g : Nat) (r : List Byte), comp < 2 ^ 24 → g < 64 → s.sagOfComp comp = some g →
    r = (stampLc s).stepRecord g → s.jsl.late = [] →
    ((s.sitOf g).isOpen = true → (s.sitOf g).closing = true → (s.sitOf g).recStall = false → s.stepDrained g = true →
      (s.sitOf g).replay = false → (s.sitOf g).group.length < 1023 → (s.sitOf g).waiting = [] → r.length ≤ s.ringFree →
      Effect (.memberStepDrained comp) s (fun u =>
        (u.sitOf g).isOpen = false ∧ (u.sitOf g).mode = 0 ∧ (u.sitOf g).recStall = false
          ∧ u.arch.lc = (stampLc (stampLc s)).arch.lc ∧ (u.sitOf g).group = (s.sitOf g).group ++ [digest r]
          ∧ u.jsl.records = s.jsl.records ++ [{ saggar := g, step := (s.sitOf g).step, isSeal := false, bytes := r }]
          ∧ ∃ q : Packet, u.fab.tx = s.fab.tx ++ [q] ∧ q.dst = s.leaderNode comp ∧ q.opcode = opSTEP ∧ tkKind q = 4)) ∧
    ((s.sitOf g).isOpen = true → (s.sitOf g).closing = true → (s.sitOf g).recStall = false → s.stepDrained g = true →
      (s.sitOf g).replay = false → (s.sitOf g).group.length < 1023 → (s.sitOf g).waiting = [] → s.ringFree < r.length →
      Effect (.memberStepDrained comp) s (fun u =>
        (u.sitOf g).isOpen = true ∧ (u.sitOf g).recStall = true ∧ (u.sitOf g).waiting = [((s.sitOf g).step, false, r)]
          ∧ u.jsl.records = s.jsl.records ∧ u.fab.tx = s.fab.tx)) ∧
    (∀ n b, (s.sitOf g).recStall = true → (s.sitOf g).waiting = [(n, false, b)] → b.length ≤ s.ringFree →
      Effect (.recRingRoom comp) s (fun u =>
        (u.sitOf g).isOpen = false ∧ (u.sitOf g).recStall = false ∧ (u.sitOf g).waiting = []
          ∧ u.jsl.records = s.jsl.records ++ [{ saggar := g, step := n, isSeal := false, bytes := b }]
          ∧ ∃ q : Packet, u.fab.tx = s.fab.tx ++ [q] ∧ q.dst = s.leaderNode comp ∧ tkKind q = 4)) ∧
    (∀ who : Who, who.wf = true → s.csrGate who (sitCtrl g) true = none →
      ((s.sitOf g).group ≠ [] → (s.sitOf g).waiting = [] →
        Effect (.sealNow who g) s (fun u =>
          (u.sitOf g).group = [] ∧ (u.sitOf g).sealSeq = (s.sitOf g).sealSeq + 1
            ∧ (u.sitOf g).chain = digest (s.sealBytes g)
            ∧ ((s.sealBytes g).length ≤ s.ringFree → (u.sitOf g).waiting = [] ∧ u.jsl.records = s.jsl.records
                ++ [{ saggar := g, step := (s.sitOf g).lastStep, isSeal := true, bytes := s.sealBytes g }])
            ∧ (s.ringFree < (s.sealBytes g).length → u.jsl.records = s.jsl.records
                ∧ (u.sitOf g).waiting = [((s.sitOf g).lastStep, true, s.sealBytes g)]))) ∧
      ((s.sitOf g).group = [] → Completes (.sealNow who g) s (answerCsr who (sitCtrl g) .ok 0 s)) ∧
      Completes (.replayEnter who g) s
        (modSit g (fun x => { x with enterDue := true, exitDue := false }) (answerCsr who (sitCtrl g) .ok 0 s)) ∧
      Completes (.replayExit who g) s
        (modSit g (fun x => { x with exitDue := true, enterDue := false }) (answerCsr who (sitCtrl g) .ok 0 s))) ∧
    (∀ b : List Byte, 256 ≤ b.length → (s.sitOf g).replay = true ∨ (s.sitOf g).enterDue = true →
      Completes (.replayRecord g b) s (modSit g (fun x => { x with nextSupplied := some b }) s)) ∧
    (∀ b : List Byte, b.length < 256 → Completes (.replayRecord g b) s s)

/-- O29. Dispatches, batches, cut-offs and the staging of expert tiles. On a variant without arrays a dispatch is
answered UNIT_ABSENT, and one that fails a row of R140 with that row's status. One that passes them all joins
its expert's pending tokens and is answered OK. A packet of a longer train waits for the rest. A layer's
batch-close point forms the first batch of every expert with pending tokens and its cut-off is recorded, each
at its fraction of the period. The oldest formed batch of an expert whose tiles are staged and whose area is
free is issued; one with a tile missing, or whose area is in use, waits. A tile is staged when it is the next
in order, its place is free and it is in T2, or in T3 where R219 lets it come from there; it is on the shelf
afterwards, or refused where its fill is. Basis: derived, R131, R138, R140, R141, R142, R145, R146, R148. -/
def Obligations.ExpertLayers : Prop :=
  ∀ (s : State) (g layer expert : Nat), g < 64 → layer < 256 → expert < 4096 →
    (∀ p : Packet, p.wf = true → trainPart p = true → joinTrain ((addPart p s.fab.frags).filter (sameTrain p)) = none →
      Completes (.dispatch p) s { s with fab := { s.fab with
        inbox := s.fab.inbox.erase p, frags := addPart p s.fab.frags } }) ∧
    (∀ p : Packet, p.wf = true → trainPart p = false → s.variant.arrays = 0 →
      Completes (.dispatch p) s (reply p .unitAbsent 0 [] (take p s))) ∧
    (∀ (p : Packet) (st : Status) (h : Nat), p.wf = true → trainPart p = false → s.variant.arrays ≠ 0 →
      s.stepRefusal p = some (st, h) →
      Completes (.dispatch p) s (reply p st h [] (unhold p (take p s)))) ∧
    (∀ p : Packet, p.wf = true → trainPart p = false → s.variant.arrays ≠ 0 → s.stepRefusal p = none →
      s.dispatchBad p = true →
      Completes (.dispatch p) s (reply p .denied 0 [] (unhold p (take p s)))) ∧
    (∀ p : Packet, p.wf = true → trainPart p = false → p.saggar = g → dhLayer p = layer → dhExpert p = expert → s.variant.arrays ≠ 0 →
      s.stepRefusal p = none → s.dispatchBad p = false → dhFwd p = false →
      s.homeOf g (s.expert g layer expert) = s.myMember (s.sagComp g) → (s.sitOf g).held.contains p = false →
      s.dispatchBytes g + p.payload.length ≤ s.sagParam g 0x0304 * 2 ^ 20 →
      s.stepCheck g (dhStep p) = .open_ → (s.sitOf g).aborted = false → (s.sitOf g).replay = false →
      (s.sitOf g).choices = [] → (s.sitOf g).cutLayers = [] → (s.sitOf g).closedLayers = [] → (s.sitOf g).pend = [] →
      (s.sitOf g).began = [] →
      1 < s.sagParam g 0x0301 →
      Effect (.dispatch p) s (fun u =>
        (u.sitOf g).pend = [{ layer := layer, expert := expert, toks := [p] }]
          ∧ u.fab.tx = s.fab.tx ++ [stampPkt (mkAnswer p .ok 0 [] s)])) ∧
    ((s.sitOf g).isOpen = true → (s.sitOf g).closedLayers.contains layer = false → layer < s.layers g →
      Effect (.batchClosePoint g layer) s (fun u =>
        (u.sitOf g).closedLayers = (s.sitOf g).closedLayers ++ [layer] 
          ∧ (∀ b ∈ (u.sitOf g).pend, b.layer ≠ layer ∨ (s.sitOf g).began.contains (layer, b.expert) = true)
          ∧ u.now = max s.now (s.fracTime g (s.expert g layer 0).bcloseFrac)
          ∧ u = { carry (s.fracTime g (s.expert g layer 0).bcloseFrac) s with sit := u.sit, tie := u.tie })) ∧
    ((s.sitOf g).isOpen = true → (s.sitOf g).cutLayers.contains layer = false → layer < s.layers g →
      Effect (.cutOff g layer) s (fun u =>
        (u.sitOf g).cutLayers = (s.sitOf g).cutLayers ++ [layer]
          ∧ u.now = max s.now (s.fracTime g (s.expert g layer 0).cutFrac))) ∧
    (∀ b, (s.sitOf g).aborted = false →
      ((s.sitOf g).batches.filter (fun b => b.layer = layer && b.expert = expert)).any (fun b => b.issued && !b.left.isEmpty) = false →
      ((s.sitOf g).batches.filter (fun b => b.layer = layer && b.expert = expert)).find? (fun b => !b.issued) = some b →
      (s.batchReady g b = true →
        ((s.sitOf g).batches.filter (fun b => b.layer = layer && b.expert = expert)).any (fun y => y.issued && y.bank = b.bank) = false →
        Effect (.batchRun g layer expert) s (fun u =>
          ∀ c ∈ (u.sitOf g).batches, c.id = b.id → c.issued = true ∨ (s.sitOf g).nextBatch ≤ c.id)) ∧
      (s.batchReady g b = false
        ∨ ((s.sitOf g).batches.filter (fun b => b.layer = layer && b.expert = expert)).any (fun y => y.issued && y.bank = b.bank) = true →
        Completes (.batchRun g layer expert) s s)) ∧
    (∀ tile t s0 f u', tile < 2 ^ 20 → t = s.planTile g (layer, expert, tile) → s.nextTile g = some (layer, expert, tile) →
      s.placeFree g t = true → s.tileIn g t [2] = true ∨ s.tileFromT3 g t = true →
      s0 = (if s.tileIn g t [2] || !s.isShort 2 g then s else noteFallback g s) → copyTile g t s0 = (f, u') →
      (f = .done → Completes (.shelfTileStaged g layer expert tile) s
        (modSit g (fun x => { x with tiles := x.tiles ++ [(layer, expert, tile)] }) u')) ∧
      (f = .refused → Completes (.shelfTileStaged g layer expert tile) s
        (modSit g (fun x => { x with refused := x.refused ++ [(layer, expert, tile)] }) u')) ∧
      (f = .waits → Completes (.shelfTileStaged g layer expert tile) s u'))

/-- O30. ATTEND is refused in order, waits for its step, or is accepted with its blocks. A packet of a train waits
for the rest; once the whole train is there it is served as one request. On a variant without arrays ATTEND is
answered UNIT_ABSENT. Refused by a row of R172 it is answered with that row's status, its only reply, and
counted. One for the next step, or for a step that is aborted, waits in the dispatch buffer. One that passes
is accepted: it leaves the queue and its request holds every block of its region that meets its positions, for
each head it asks for, and computes at once where fewer than 128 requests of its saggar do. Nothing else
changes. Basis: derived, R138, R171, R172, R173, R187, R189, R11. -/
def Obligations.AttendAcceptance : Prop :=
  ∀ (s : State) (p : Packet), p.wf = true →
    (trainPart p = true → joinTrain ((addPart p s.fab.frags).filter (sameTrain p)) = none →
      Completes (.attend p) s { s with fab := { s.fab with
        inbox := s.fab.inbox.erase p, frags := addPart p s.fab.frags } }) ∧
    (∀ w, trainPart p = true → joinTrain ((addPart p s.fab.frags).filter (sameTrain p)) = some w →
      Completes (.attend p) s (attendTrain w { s with fab := { s.fab with
        inbox := s.fab.inbox.erase p, frags := (addPart p s.fab.frags).filter (fun q => !sameTrain p q) } })) ∧
    (trainPart p = false → s.variant.arrays = 0 →
      Effect (.attend p) s (fun u => Answered p .unitAbsent 0 [] s u)) ∧
    (∀ st h, trainPart p = false → s.attendRefusal p = some (st, h) →
      Effect (.attend p) s (fun u => Answered p st h [] s u ∧ u.att = s.att ∧ u.tie = s.tie
        ∧ u.sit = (unhold p s).sit
        ∧ u.satVal (satAttRefused p.saggar) = satAdd 16 (s.satVal (satAttRefused p.saggar)) 1)) ∧
    (trainPart p = false → s.attendRefusal p = none →
      s.stepCheck p.saggar (atStep p) = .next ∨ (s.sitOf p.saggar).aborted = true →
      Completes (.attend p) s (holdRequest p s)) ∧
    (trainPart p = false → s.attendRefusal p = none → s.stepCheck p.saggar (atStep p) ≠ .next →
      (s.sitOf p.saggar).aborted = false →
      Effect (.attend p) s (fun u => ∃ q : AttReq,
        u = { s with sit := (unhold p s).sit, fab := { s.fab with inbox := s.fab.inbox.erase p },
                     att := { s.att with reqs := s.att.reqs ++ [q], nextReq := s.att.nextReq + 1 } }
        ∧ q.p = p ∧ q.id = s.att.nextReq ∧ q.msgs = [] ∧ q.tags = [] ∧ q.ovf = false ∧ q.poisoned = []
        ∧ q.active = decide ((s.att.reqs.filter (fun x => x.p.saggar = p.saggar && x.active)).length < 128)
        ∧ ∀ j h, (j, h) ∈ q.left ↔
            atHeadLo p ≤ h ∧ h < atHeadLo p + atNKv p
            ∧ atPosLo p < (j + 1) * (s.region (atRegion p)).tPg ∧ j * (s.region (atRegion p)).tPg < atSeqLen p
            ∧ (s.region (atRegion p)).firstSeqPage ≤ j
            ∧ j < (s.region (atRegion p)).firstSeqPage + (s.region (atRegion p)).maxp))

/-- O31. A block of an ATTEND is read once, and its contributions wait for their Trimmer. For an active request
with the block still to do, whose Trimmer may send nothing now: where the page must come from the flash, or
the read is retried, nothing but what the read did changes; where the rows are read, the block is done, each
query head's partial over the valid positions, by the score and value jobs of R175 at the frame exponents
their descriptors derive or a replay forces, waits as packets labelled with the block's lowest position, and
the block's overflow is kept; where a grain is poisoned, the block is done with poisoned contributions of no
values and its page is noted. The bytes of memory are as the read left them, and no packet leaves. A request
that does not compute, a block not left, or one for which no array is in service, is unchanged. Basis:
derived, R173, R174, R175, R177, R178, R181, R184, R185. -/
def Obligations.AttendBlocks : Prop :=
  ∀ (s : State) (id j h lo hi label : Nat) (q : AttReq) (r : Region) (ver : Option Nat),
    id < 2 ^ 32 → j < 2 ^ 31 → h < 256 → q ∈ s.att.reqs → (∀ x ∈ s.att.reqs, x.id = id ↔ x = q) →
    r = s.region (atRegion q.p) → ver = (if atVersion q.p = 0xFFFFFFFF then none else some (atVersion q.p)) →
    label = max (j * r.tPg) (atPosLo q.p) → lo = label - j * r.tPg → hi = min r.tPg (atSeqLen q.p - j * r.tPg) - 1 →
    (q.active = false ∨ (j, h) ∉ q.left ∨ s.attArray q.p.saggar = none →
      Completes (.attendBlockDone id j h) s s) ∧
    (∀ a res s', q.active = true → (j, h) ∈ q.left → s.attArray q.p.saggar = some a →
      readBlock r ver (r.kvPage (atLayer q.p) h j) (h % r.hPg) lo hi s = (res, s') →
      (res = .error .waits ∨ (∃ n, res = .error (.retry n)) → Completes (.attendBlockDone id j h) s s') ∧
      (∀ rows sd vd fS fV ps ovf, res = .ok rows → (∀ d, s'.maySend (.trimmer (s'.attTrimmer q.p.saggar)) d q.p.saggar = false) →
        s'.att = s.att → sd = (scoreJob r q.p a Config.attendPage (h % r.hPg) (lo / 32 * 32) hi).desc →
        vd = (valueJob r q.p a Config.attendValues hi).desc →
        fS = s'.attF q.p h 0 sd → fV = s'.attF q.p h 1 vd →
        (ps, ovf) = blockPartials q.p h lo sd vd fS fV rows → 0 < atGq q.p →
        Effect (.attendBlockDone id j h) s (fun u =>
          u = { s' with att := u.att, sit := u.sit, wit := u.wit, ctr := u.ctr }
          ∧ u.att.reqs = s.att.reqs.map (fun x => if x = q then { q with
              left := q.left.erase (j, h)
              msgs := q.msgs ++ (List.range (atGq q.p)).flatMap (fun i =>
                partialPackets q.p label (h * atGq q.p + i) (partialBytes label (h * atGq q.p + i) ovf false (ps.getD i {})))
              ovf := q.ovf || ovf } else x))) ∧
      (∀ e, res = .error e → e ≠ .waits → (∀ n, e ≠ .retry n) → 0 < atGq q.p → s'.att = s.att →
        (∀ d, s'.maySend (.trimmer (s'.attTrimmer q.p.saggar)) d q.p.saggar = false) →
        Effect (.attendBlockDone id j h) s (fun u =>
          u = { s' with att := u.att, ctr := u.ctr }
          ∧ u.att.reqs = s.att.reqs.map (fun x => if x = q then { q with
              left := q.left.erase (j, h)
              msgs := q.msgs ++ (List.range (atGq q.p)).flatMap (fun i =>
                partialPackets q.p label (h * atGq q.p + i) (partialBytes label (h * atGq q.p + i) false true
                  { m := 0, l := 0, o := List.replicate r.headDim 0 }))
              poisoned := q.poisoned ++ [j] } else x))))

/-- O32. Regions are created, deleted, sealed and described at their home. For a call of its procedure that R349
passes: while the control cores restart each is answered NACK_RETRY with hint 20. REGION_CREATE refused by
R202 is answered so; for a policy that names T4 it waits for the rebuild; otherwise the region exists as the
descriptor gives it, confidential as its saggar, owned by its creator under OWNERSHIP, and OK is answered.
REGION_DELETE begins the region's deletion with the requests accepted before; where a version has a view open
it does so only by force. Once none of those requests is in hand the region is gone, with every frame no other
region holds, and no frame of another. Where the chip has a replica partner the region's record goes there
before the answer. REGION_SEAL fixes an unsealed IMMUTABLE region as version 1 with its content digest, and
any other is DENIED. REGION_INFO answers the descriptor and the frames held in each tier. No other region
changes. Basis: derived, R199, R200, R201, R202, R204, R211, R212, R243, R349. -/
def Obligations.PoolProcedures : Prop :=
  ∀ (s : State) (p : Packet) (d : List Byte) (r : Region), p.wf = true → s.rptRefusal p = none → d = callArgs p →
    (s.arch.cp = .restart →
      (callProc p = 0xFF0 → Effect (.regionCreate p) s (fun u => Answered p .nackRetry 20 [] s u ∧ u.tie = s.tie)) ∧
      (callProc p = 0xFF1 → Effect (.regionDelete p) s (fun u => Answered p .nackRetry 20 [] s u ∧ u.tie = s.tie)) ∧
      (callProc p = 0xFF2 → Effect (.regionSeal p) s (fun u => Answered p .nackRetry 20 [] s u ∧ u.tie = s.tie)) ∧
      (callProc p = 0xFF3 → Effect (.regionInfo p) s (fun u => Answered p .nackRetry 20 [] s u ∧ u.tie = s.tie))) ∧
    (s.arch.cp ≠ .restart → callProc p = 0xFF0 → r = regionOfDesc d →
      (∀ st, s.createRefusal r d p.saggar p.dst = some st →
        Effect (.regionCreate p) s (fun u => Answered p st 0 [] s u ∧ u = { s with fab := u.fab })) ∧
      (s.createRefusal r d p.saggar p.dst = none → s.awaitsFlash r = true →
        Effect (.regionCreate p) s (fun u => Answered p .nackRetry 20 [] s u ∧ u = { s with fab := u.fab })) ∧
      (s.createRefusal r d p.saggar p.dst = none →
        s.awaitsFlash r = false →
        Effect (.regionCreate p) s (fun u => AnsweredAfterRecords p .ok 0 (rptResult 0 []) s u
          ∧ afind u.tie.regions r.id = some { r with
              conf := s.sagConf p.saggar, owner := if r.coh = 2 then p.src else 0xFFFF }
          ∧ (∀ k, k ≠ r.id → afind u.tie.regions k = afind s.tie.regions k)
          ∧ u.tie = { s.tie with regions := u.tie.regions }))) ∧
    (s.arch.cp ≠ .restart → callProc p = 0xFF1 →
      (s.ownRegion p (le d 0 4) = none →
        Effect (.regionDelete p) s (fun u => Answered p .denied 0 [] s u ∧ u = { s with fab := u.fab })) ∧
      (s.ownRegion p (le d 0 4) = some r → r.viewOpen = true → bit (le d 4 1) 0 = false →
        Effect (.regionDelete p) s (fun u => Answered p .nackRetry 14 [] s u ∧ u = { s with fab := u.fab })) ∧
      (s.ownRegion p (le d 0 4) = some r → r.id = le d 0 4 → r.viewOpen = false ∨ bit (le d 4 1) 0 = true →
        Effect (.regionDelete p) s (fun u => AnsweredAfterRecords p .ok 0 (rptResult 0 []) s u
          ∧ afind u.tie.regions r.id = some { r with deleting := some ((take p s).requestsOf r) }
          ∧ (∀ k, k ≠ r.id → afind u.tie.regions k = afind s.tie.regions k)
          ∧ u = { s with fab := u.fab, tie := { s.tie with regions := u.tie.regions } }))) ∧
    (∀ id l, afind s.tie.regions id = some r → r.deleting = some l → (s.tie.regions.map (·.1)).Nodup →
      (l.any s.inHand = true → afind (finishDeletes s).tie.regions id = some r) ∧
      (l.any s.inHand = false → afind (finishDeletes s).tie.regions id = none
        ∧ (∀ f ∈ r.held, (∀ x ∈ s.tie.regions, x.1 ≠ id → f ∉ x.2.held) → afind (finishDeletes s).tie.frames f = none)
        ∧ (∀ f, (∀ x ∈ s.tie.regions, x.2.deleting ≠ none → f ∉ x.2.held) →
            afind (finishDeletes s).tie.frames f = afind s.tie.frames f)
        ∧ ∀ k x, afind s.tie.regions k = some x → x.deleting = none → afind (finishDeletes s).tie.regions k = some x)) ∧
    (s.arch.cp ≠ .restart → callProc p = 0xFF2 →
      (s.ownRegion p (le d 0 4) = some r → r.id = le d 0 4 → r.kind = 0 → r.sealed_ = false →
        Effect (.regionSeal p) s (fun u => AnsweredAfterRecords p .ok 0 (rptResult 0 (s.contentDigest r)) s u
          ∧ afind u.tie.regions r.id = some { r with
              sealed_ := true, contentDigest := s.contentDigest r, version := 1
              versions := aset r.versions 1 { pages := r.working, lost := r.lostPages } }
          ∧ (∀ k, k ≠ r.id → afind u.tie.regions k = afind s.tie.regions k)
          ∧ u.tie.frames = s.tie.frames ∧ u.tie.mem = s.tie.mem)) ∧
      (s.ownRegion p (le d 0 4) = some r → r.kind ≠ 0 ∨ r.sealed_ = true →
        Effect (.regionSeal p) s (fun u => Answered p .denied 0 [] s u ∧ u = { s with fab := u.fab }))) ∧
    (s.arch.cp ≠ .restart → callProc p = 0xFF3 → s.ownRegion p (le d 0 4) = some r →
      Effect (.regionInfo p) s (fun u => u = { s with fab := u.fab }
        ∧ Answered p .ok 0 (rptResult 0 (r.desc ++ natLe (s.heldIn r 2) 4 ++ natLe (s.heldIn r 3) 4 ++ natLe (s.heldIn r 4) 4)) s u))

/-- O33. OPEN, CLOSE and PUBLISH of a region's versions. A request that R595's first rows refuse is answered so.
OPEN of a version held counts one more open of the requester and answers the version with its view; at its
first open that is a new range, apart from every view open, and 64 KiB aligned with bit 47 set where every
view open is; where the limits leave no open or no view it is answered NACK_RETRY. CLOSE takes one back; a
version no longer current nor open is released. PUBLISH from the current version makes the working pages the
next one, and one from another version is answered NACK_CONFLICT with the current; one of an IMMUTABLE region
is DENIED, and one of an OWNERSHIP region waits for a transfer or names no owner. Basis: derived, R211, R212,
R213, R214, R215, R216, R595. -/
def Obligations.Snapshots : Prop :=
  ∀ (s : State) (p q : Packet) (r : Region), p.wf = true →
    (∀ st h, q = { p with opcode := opOPEN } → s.snapRefusal q = .error (st, h) →
      Effect (.openVersion p) s (fun u => Answered q st h [] s u ∧ u.tie = s.tie)) ∧
    (∀ st h, q = { p with opcode := opCLOSE } → s.snapRefusal q = .error (st, h) →
      Effect (.closeVersion p) s (fun u => Answered q st h [] s u ∧ u.tie = s.tie)) ∧
    (∀ st h, q = { p with opcode := opPUBLISH } → s.snapRefusal q = .error (st, h) →
      Effect (.publish p) s (fun u => Answered q st h [] s u ∧ u.tie = s.tie)) ∧
    (∀ (v n base : Nat) (ver : Version), q = { p with opcode := opOPEN } → s.snapRefusal q = .ok r →
      v = (if le q.payload 4 4 = 0 then r.version else le q.payload 4 4) → v ≠ 0 → afind r.versions v = some ver →
      (r.immutable = true → r.sealed_ = true) → n = aget ver.opens q.src 0 → afind s.tie.regions r.id = some r →
      (n < 65535 → ver.view.or (if 65536 ≤ s.viewCount then none else s.viewBase r.size) = some base →
        Effect (.openVersion p) s (fun u => Answered q .ok 0 (natLe v 8 ++ natLe base 8) s u
          ∧ afind u.tie.regions r.id = some { r with versions := aset r.versions v { ver with
              opens := aset ver.opens q.src (n + 1), view := some base } }
          ∧ (∀ k, k ≠ r.id → afind u.tie.regions k = afind s.tie.regions k)
          ∧ u = { s with fab := u.fab, tie := { s.tie with
              regions := u.tie.regions
              nextView := if ver.view = none then (base + r.size - 2 ^ 47) / 65536 else s.tie.nextView } }
          ∧ (ver.view = none → base + r.size ≤ xferPort ∧ (∀ w ∈ s.views, base + r.size ≤ w.1 ∨ w.2 ≤ base)
              ∧ ((∀ w ∈ s.views, 2 ^ 47 ≤ w.2 ∧ w.2 % 65536 = 0) → 2 ^ 47 ≤ base ∧ base % 65536 = 0)))) ∧
      (65535 ≤ n ∨ ver.view.or (if 65536 ≤ s.viewCount then none else s.viewBase r.size) = none →
        Effect (.openVersion p) s (fun u => Answered q .nackRetry 14 [] s u ∧ u = { s with fab := u.fab }))) ∧
    (q = { p with opcode := opOPEN } → s.snapRefusal q = .ok r → le q.payload 4 4 = 0 → r.version = 0 →
      Effect (.openVersion p) s (fun u => Answered q .denied 0 [] s u ∧ u = { s with fab := u.fab })) ∧
    (∀ (v n : Nat) (ver : Version), q = { p with opcode := opCLOSE } → s.snapRefusal q = .ok r → v = le q.payload 4 4 →
      ver = aget r.versions v {} → n = aget ver.opens q.src 0 → afind s.tie.regions r.id = some r →
      (n = 0 → Effect (.closeVersion p) s (fun u => Answered q .denied 0 [] s u ∧ u = { s with fab := u.fab })) ∧
      (n ≠ 0 → v = r.version → Effect (.closeVersion p) s (fun u => Answered q .ok 0 [] s u
        ∧ aget (aget (u.region r.id).versions v {}).opens q.src 0 = n - 1
        ∧ (∀ k, k ≠ r.id → afind u.tie.regions k = afind s.tie.regions k))) ∧
      (ver.opens = [(q.src, 1)] → v ≠ r.version → (r.versions.map (·.1)).Nodup →
        Effect (.closeVersion p) s (fun u => Answered q .ok 0 [] s u ∧ ahas (u.region r.id).versions v = false
          ∧ (∀ k, k ≠ r.id → afind u.tie.regions k = afind s.tie.regions k)))) ∧
    (q = { p with opcode := opPUBLISH } → s.snapRefusal q = .ok r → r.kind ≠ 0 → afind s.tie.regions r.id = some r →
      (r.coh = 2 → r.inTransfer = false ∧ q.src = r.owner) →
      (le q.payload 4 4 = r.version → r.version + 1 ≤ 0xFFFFFFFE →
        Effect (.publish p) s (fun u => AnsweredAfterRecords q .ok 0 (natLe (r.version + 1) 16) s u
          ∧ (u.region r.id).version = r.version + 1 ∧ (u.region r.id).working = r.working
          ∧ afind (u.region r.id).versions (r.version + 1) = some { pages := r.working, lost := r.lostPages }
          ∧ (∀ k, k ≠ r.id → afind u.tie.regions k = afind s.tie.regions k))) ∧
      (le q.payload 4 4 ≠ r.version →
        Effect (.publish p) s (fun u => Answered q .nackConflict 0 (natLe r.version 16) s u ∧ u = { s with fab := u.fab }))) ∧
    (q = { p with opcode := opPUBLISH } → s.snapRefusal q = .ok r → r.kind = 0 →
      Effect (.publish p) s (fun u => Answered q .denied 0 [] s u ∧ u = { s with fab := u.fab })) ∧
    (q = { p with opcode := opPUBLISH } → s.snapRefusal q = .ok r → r.kind ≠ 0 → r.coh = 2 → r.inTransfer = true →
      Effect (.publish p) s (fun u => Answered q .nackRetry 10 [] s u ∧ u = { s with fab := u.fab })) ∧
    (q = { p with opcode := opPUBLISH } → s.snapRefusal q = .ok r → r.kind ≠ 0 → r.coh = 2 → r.inTransfer = false →
      q.src ≠ r.owner →
      Effect (.publish p) s (fun u => Answered q .nackNotOwner 0 [] s u ∧ u = { s with fab := u.fab }))

/-- O34. A page moves in passes, movers take jobs, and the sweeper applies decay. A copy pass that ends copies
every grain it had to, with its bytes (of IMMUTABLE data those of a grain that passes its checks); where
grains were written during it the next pass copies those, held from the fourth on; where none were, the move
ends, every list that named the source names the destination, and nothing else of those lists changes. A pass
into the flash is one write there, begun where the flash takes it and over once it is acknowledged. A free
mover takes the first job of the lowest class: a page of this node begins its move, one for or from another
node travels in TC5 writes or reads to it alone; one that is busy, or finds no job, changes nothing. A job's
end frees its mover alone, with no move of the job left; a job between nodes that is not done keeps it. After
a sweep every count of the tier is its effective count at the epoch, a held epoch has risen, and the hold is
gone. Basis: derived, R205, R206, R208, R209, R217, R218, R226. -/
def Obligations.PageMoves : Prop :=
  (∀ (s : State) (id page : Nat) (r : Region) (m : PageMove), id < 2 ^ 32 → page < 2 ^ 31 →
    afind s.tie.regions id = some r → r.moves.find? (fun m => m.page = page && m.node.isNone) = some m → Memory.wf s.tie.mem →
    m.src ≠ m.dst → ahas s.tie.frames m.src = true → ahas s.tie.frames m.dst = true → (∀ g ∈ m.dirty, g < 256) →
    (s.frameTier m.dst ≠ 4 → m.written ≠ [] → ∃ u, Completes (.pageMovePassDone id page) s (epochWork u)
      ∧ (∀ g ∈ m.dirty, r.kind ≠ 0 ∨ s.grainGood r m.src g = true → u.grain m.dst g = s.grain m.src g)
      ∧ (∀ f g, g < 256 → (f ≠ m.dst ∨ g ∉ m.dirty) → u.grain f g = s.grain f g)
      ∧ u.region id = { r with moves := r.moves.map (fun x => if x = m then
          { m with dirty := m.written, written := [], pass := m.pass + 1, held := m.held || decide (4 ≤ m.pass + 1) } else x) }
      ∧ u = { s with tie := u.tie }) ∧
    (s.frameTier m.dst ≠ 4 → m.written = [] → r.kind ≠ 0 → ∃ u, Completes (.pageMovePassDone id page) s (epochWork u)
      ∧ (∀ g ∈ m.dirty, u.grain m.dst g = s.grain m.src g)
      ∧ (u.region id).moves = r.moves.erase m
      ∧ (u.region id).working = r.working.map (fun w =>
          if w.1 = page ∧ m.src ∈ w.2 then (w.1, w.2.map (fun i => if i = m.src then m.dst else i)) else w)
      ∧ (∀ k, k ≠ id → afind u.tie.regions k = afind s.tie.regions k)) ∧
    (s.frameTier m.dst = 4 → m.write.isSome = true ∨ (m.dirty ≠ [] ∧ s.writeRefusal (t4Frame m.dst) r.saggar ≠ none) →
      Completes (.pageMovePassDone id page) s (epochWork s)) ∧
    (s.frameTier m.dst = 4 → m.write = none → m.dirty ≠ [] → s.writeRefusal (t4Frame m.dst) r.saggar = none →
      ∃ u, Completes (.pageMovePassDone id page) s (epochWork u)
        ∧ u.region id = { r with moves := r.moves.map (fun x => if x = m then
            { m with dirty := [], write := some s.flm.nextWrite } else x) }
        ∧ u.flm.nextWrite = s.flm.nextWrite + 1
        ∧ u = { s with flm := u.flm, tie := u.tie, log := u.log, sat := u.sat, ctr := u.ctr })) ∧
  (∀ (s : State) (id page : Nat), id < 2 ^ 32 → page < 2 ^ 31 →
    (s.region id).moves.find? (fun m => m.page = page && m.node.isNone) = none →
    Completes (.pageMovePassDone id page) s (epochWork s)) ∧
  (∀ (s : State) (m : Nat), m < 32 →
    (ahas s.tie.movers m = true ∨ s.nextJob m = none → Completes (.moverJobStart m) s s) ∧
    (∀ j n op, ahas s.tie.movers m = false → s.nextJob m = some j → j.fromNode.or j.toNode = some n →
      op = (if j.fromNode.isSome then opREAD else opWRITE) →
      Effect (.moverJobStart m) s (fun u => ∃ l x, afind u.tie.movers m = some x ∧ x.job = j
        ∧ (∀ k, k ≠ m → afind u.tie.movers k = afind s.tie.movers k)
        ∧ u.fab.tx = s.fab.tx ++ l
        ∧ (∀ q ∈ l, q.opcode = op ∧ q.cls = 5 ∧ q.dst = n ∧ q.saggar = (s.region j.region).saggar)
        ∧ u = { s with fab := u.fab, tie := u.tie, ctr := u.ctr })) ∧
    (∀ j f r, ahas s.tie.movers m = false → s.nextJob m = some j → j.remote = false → j.count = 1 →
      afind s.tie.regions j.region = some r → s.servingFrame (pageFrames r j.ver j.page) = some f →
      s.frameTier f ≠ j.toTier → r.moves.any (fun v => v.page = j.page) = false →
      (polTiers r.tierPol).contains j.toTier = true →
      (j.toTier = 4 → s.isShort 4 r.saggar = false ∧ s.flm.st = 3 ∧ s.wbufRoom = true) →
      s.freeIn j.toTier r.saggar ≠ 0 → s.pickUnit j.toTier r.saggar r j.page ≠ none →
      Effect (.moverJobStart m) s (fun u => u.tie.movers = aset s.tie.movers m { job := j }
        ∧ u.tie.queue = s.tie.queue.erase j
        ∧ ∃ d b, u.frameTier d = j.toTier
          ∧ (u.region j.region).moves = r.moves ++ [{ page := j.page, src := f, dst := d, began := s.now, blocks := b }])) ∧
    (afind s.tie.movers m = none → Completes (.moverJobComplete m) s (epochWork s)) ∧
    (∀ x, afind s.tie.movers m = some x → x.job.remote = false →
      (∀ v ∈ (s.region x.job.region).moves, x.job.has v = true → s.frameTier v.dst ≠ 4) →
      ∃ u, Completes (.moverJobComplete m) s (epochWork u)
        ∧ afind u.tie.movers m = none ∧ (∀ k, k ≠ m → afind u.tie.movers k = afind s.tie.movers k)
        ∧ ∀ v ∈ (u.region x.job.region).moves, x.job.has v = false) ∧
    (∀ x, afind s.tie.movers m = some x → x.job.remote = true → x.job.count ≤ x.done → x.todo = [] → x.tags = [] →
      ∃ u, Completes (.moverJobComplete m) s (epochWork u)
        ∧ afind u.tie.movers m = none ∧ (∀ k, k ≠ m → afind u.tie.movers k = afind s.tie.movers k)
        ∧ u.tie.queue = s.tie.queue) ∧
    (∀ x, afind s.tie.movers m = some x → x.job.remote = true → x.done < x.job.count ∨ x.todo ≠ [] ∨ x.tags ≠ [] →
      ∃ u y, Completes (.moverJobComplete m) s (epochWork u)
        ∧ afind u.tie.movers m = some y ∧ y.job = x.job
        ∧ ∀ k, k ≠ m → afind u.tie.movers k = afind s.tie.movers k)) ∧
  (∀ (s : State) (tier : Nat), tier < 5 →
    Effect (.sweeperPass tier) s (fun u =>
      tier ∉ u.tie.hold ∧ (∀ k, k ≠ tier → (k ∈ u.tie.hold ↔ k ∈ s.tie.hold))
      ∧ u.decayOf tier = s.decayOf tier + (if tier ∈ s.tie.hold then 1 else 0)
      ∧ aget u.tie.swept tier 0 = s.decayOf tier
      ∧ (∀ id r page c g, afind s.tie.regions id = some r → afind r.counts page = some (c, g) →
          afind (u.region id).counts page = some (
            if (s.servingFrame (aget r.working page [])).any (fun i => s.frameTier i = tier)
            then (cEff c g (s.decayOf tier), s.decayOf tier % 16) else (c, g)))
      ∧ u.tie.mem = s.tie.mem ∧ u.tie.frames = s.tie.frames))

/-- O35. The tier manager promotes and demotes, and a short tier is relieved. A page at or above PROMOTE_AT below
its boundary joins the move queue for the tier above where that has more than its reserve free; else the
coldest page below DEMOTE_BELOW is queued to make room, and with none nothing happens. A tier that is not
short has its flag clear, and T4 the flag it should have. A short T2 or T3 with no spare IMMUTABLE copy has
its flag set, its coldest page queued for the tier below and that step counted. A threshold write is taken
where PROMOTE_AT exceeds DEMOTE_BELOW, and else discarded. Basis: derived, R201, R210, R219. -/
def Obligations.TierManager : Prop :=
  (∀ (s : State) (id page f tier : Nat) (r : Region), id < 2 ^ 32 → page < 2 ^ 31 → r = s.region id →
    s.servingFrame (aget r.working page []) = some f → tier = s.frameTier f → 3 ≤ tier →
    (polTiers r.tierPol).contains (tier - 1) = true →
    (s.cEffOf r page tier < (s.thresholds r.saggar (tier - 1)).1 → Completes (.tierPromote id page) s s) ∧
    ((s.thresholds r.saggar (tier - 1)).1 ≤ s.cEffOf r page tier →
      (s.reserveIn (tier - 1) r.saggar < s.freeIn (tier - 1) r.saggar →
        Completes (.tierPromote id page) s (enqueueMove
          { cls := 5, region := id, page := page, toTier := tier - 1, saggar := r.saggar } s)) ∧
      (∀ d : Nat × Nat × Nat, s.freeIn (tier - 1) r.saggar ≤ s.reserveIn (tier - 1) r.saggar →
        coldest ((s.demotable (tier - 1) r.saggar).filter
          (fun d => decide (d.2.2 < (s.thresholds r.saggar (tier - 1)).2))) = some d →
        Completes (.tierPromote id page) s (enqueueMove
          { cls := 4, region := d.1, page := d.2.1, toTier := tier, saggar := r.saggar } s)) ∧
      (s.freeIn (tier - 1) r.saggar ≤ s.reserveIn (tier - 1) r.saggar →
        (∀ d ∈ s.demotable (tier - 1) r.saggar, (s.thresholds r.saggar (tier - 1)).2 ≤ d.2.2) →
        Completes (.tierPromote id page) s s))) ∧
  (∀ (s : State) (id page : Nat), id < 2 ^ 32 → page < 2 ^ 31 →
    s.servingFrame (aget (s.region id).working page []) = none → Completes (.tierPromote id page) s s) ∧
  (∀ (s : State) (g tier : Nat), g < 64 → tier < 5 →
    (tier < 2 → Completes (.tierShort g tier) s s) ∧
    (2 ≤ tier → tier = 4 ∨ s.isShort tier g = false →
      Effect (.tierShort g tier) s (fun u => (tier ∈ aget u.tie.short g [] ↔ s.isShort tier g = true)
        ∧ (∀ k, k ≠ tier → (k ∈ aget u.tie.short g [] ↔ k ∈ aget s.tie.short g [])) ∧ u = { s with tie := u.tie })) ∧
    (∀ (d : Nat × Nat × Nat) (j : MoverJob), tier = 2 ∨ tier = 3 → s.isShort tier g = true → s.spareImmutable tier g = [] →
      (tier = 3 → s.fitted capFLM = true) → coldest (s.demotable tier g) = some d →
      j = { cls := 4, region := d.1, page := d.2.1, toTier := tier + 1, saggar := g } →
      s.tie.queue.contains j = false → s.tie.movers.any (fun x => x.2.job = j) = false →
      Effect (.tierShort g tier) s (fun u => tier ∈ aget u.tie.short g []
        ∧ u.satVal (satTieFallbacks g) = satAdd 16 (s.satVal (satTieFallbacks g)) 1
        ∧ u.tie.queue = s.tie.queue ++ [j]
        ∧ u.tie.regions = s.tie.regions ∧ u.tie.frames = s.tie.frames))) ∧
  (∀ (s : State) (who : Who) (g : Nat) (up34 : Bool) (v : Word32), who.wf = true → g < 64 →
    (∀ st, s.csrGate who (tiePage g + 4 * b2n up34) true = some st →
      Completes (.tieThresholdWrite who g up34 v) s (answerCsr who (tiePage g + 4 * b2n up34) st 0 s)) ∧
    (s.csrGate who (tiePage g + 4 * b2n up34) true = none →
      Effect (.tieThresholdWrite who g up34 v) s (fun u =>
        u.out = s.out ++ [.csr who (tiePage g + 4 * b2n up34) .ok 0]
        ∧ u.thresholds g (if up34 then 3 else 2) =
            (if v.toNat / 2 ^ 12 % 2 ^ 12 < v.toNat % 2 ^ 12 then (v.toNat % 2 ^ 12, v.toNat / 2 ^ 12 % 2 ^ 12)
             else s.thresholds g (if up34 then 3 else 2))
        ∧ u.thresholds g (if up34 then 2 else 3) = s.thresholds g (if up34 then 2 else 3)
        ∧ (∀ h k, h ≠ g → u.thresholds h k = s.thresholds h k))))

/-- O36. Memory units are fenced with the loss of their frames, unfenced, and trained. The management controller
or the control plane fences a DRAM channel, a stack or a pseudo-channel with the cause of its writer: every
frame on it is lost, no other but the other end of a move, and a page only there becomes poisoned. Either
lifts the fence of a unit that has trained. A write by anyone else changes nothing. A stack's training puts it
in service but for its failed pseudo-channels, or leaves it fenced with cause 0x3, and changes nothing where
its die is fenced or its rails are off; a channel trains with its reported configuration where SPD, supported
configuration, check bits and training are good, and else stays fenced with cause 0x3 and an event.
Temperatures are held by stack. Basis: derived, R20, R193, R194, R195, R220, R597. -/
def Obligations.MemoryUnits : Prop :=
  ∀ (s : State) (who : Who) (u : MemUnit) (on : Frame → Bool), who.wf = true → u.wf = true →
    on = (match u with
      | .ddr c => fun f => f.tier = 3 && f.unit = c
      | .hbm k => fun f => f.tier = 2 && f.unit / 64 = k
      | .hbmPc k c => fun f => f.tier = 2 && f.unit = 64 * k + c) →
    (∀ cause, (who = .management ∧ cause = 5) ∨ (who = .control ∧ cause = 4) →
      ∃ t, Completes (.memoryChannelFence who u) s (enterT3 t)
        ∧ (∀ f fr, (s.tie.frames.map (·.1)).Nodup → afind s.tie.frames f = some fr →
            (on fr = true → afind t.tie.frames f = none)
            ∧ (on fr = false → (∀ x ∈ s.tie.regions, ∀ v ∈ x.2.moves, v.dst ≠ f) → afind t.tie.frames f = some fr))
        ∧ (∀ id r pg fs, afind s.tie.regions id = some r → (pg, fs) ∈ r.working → fs ≠ [] →
            (∀ f ∈ fs, ∃ x ∈ s.tie.frames, x.1 = f ∧ on x.2 = true) → pg ∈ (t.region id).lostPages)
        ∧ (match u with
          | .ddr c => (t.ddr c).fence = { on := true, cause := cause } ∧ ∀ k, k ≠ c → t.ddr k = s.ddr k
          | .hbm k => (t.hbm k).fence = { on := true, cause := cause } ∧ ∀ j, j ≠ k → t.hbm j = s.hbm j
          | .hbmPc k c => c ∈ (t.hbm k).pcFenced ∧ (t.hbm k).fence = (s.hbm k).fence ∧ ∀ j, j ≠ k → t.hbm j = s.hbm j)) ∧
    (who ≠ .management → who ≠ .control →
      Completes (.memoryChannelFence who u) s s ∧ Completes (.memoryChannelUnfence who u) s s) ∧
    (who = .management ∨ who = .control → Effect (.memoryChannelUnfence who u) s (fun t =>
      match u with
      | .ddr c => t.ddr c = { s.ddr c with fence := if (s.ddr c).trained then {} else (s.ddr c).fence }
          ∧ ∀ k, k ≠ c → t.ddr k = s.ddr k
      | .hbm k => t.hbm k = { s.hbm k with fence := if (s.hbm k).trained then {} else (s.hbm k).fence }
          ∧ ∀ j, j ≠ k → t.hbm j = s.hbm j
      | .hbmPc k c => c ∉ (t.hbm k).pcFenced ∧ (∀ e, e ≠ c → (e ∈ (t.hbm k).pcFenced ↔ e ∈ (s.hbm k).pcFenced))
          ∧ ∀ j, j ≠ k → t.hbm j = s.hbm j)) ∧
    (∀ temps : List Nat, Effect (.hbmTempRead temps) s (fun t =>
      (∀ k, k < temps.length → k < s.variant.stacks → t.hbm k = { s.hbm k with temp := temps.getD k 0 % 256 })
      ∧ (∀ k, temps.length ≤ k ∨ s.variant.stacks ≤ k → t.hbm k = s.hbm k)
      ∧ t = { carry (s.nextMultiple (sclk (2 ^ 20))) s with tie := t.tie })) ∧
    (∀ k failed, k < 8 → k < s.variant.stacks → s.erc.adFenced.getD (k / 2) false = false → s.pkg.skipHbm = false →
      Effect (.hbmTrainingDone k true failed) s (fun t => (t.hbm k).trained = true ∧ (t.hbm k).fence = {}
        ∧ (∀ c, c ∈ (t.hbm k).pcFenced ↔ c ∈ failed ∧ c < 64) ∧ ∀ j, j ≠ k → t.hbm j = s.hbm j) ∧
      Effect (.hbmTrainingDone k false failed) s (fun t =>
        t.hbm k = { s.hbm k with trained := false, fence := { on := true, cause := 3 } } ∧ ∀ j, j ≠ k → t.hbm j = s.hbm j)) ∧
    (∀ k b failed, k < 8 → s.variant.stacks ≤ k ∨ s.erc.adFenced.getD (k / 2) false = true ∨ s.pkg.skipHbm = true →
      Completes (.hbmTrainingDone k b failed) s s) ∧
    (∀ c (d : DramReport), c < 16 →
      (d.spdMatches = true → dramSupported d = true → d.checkBits = true → d.trained = true →
        ∃ t, Completes (.dramTrainingDone c d) s (enterT3 t) ∧ t = { s with tie := t.tie }
          ∧ t.ddr c = { fence := {}, rate := d.rate, dpc := d.dpc, mrdimm := d.mrdimm, trained := true, capGib := d.capGib }
          ∧ ∀ k, k ≠ c → t.ddr k = s.ddr k) ∧
      (d.spdMatches = false ∨ dramSupported d = false ∨ d.checkBits = false ∨ d.trained = false →
        ∃ t w, Completes (.dramTrainingDone c d) s (enterT3 (logEvent 0x0401 c none [w] t)) ∧ t = { s with tie := t.tie }
          ∧ t.ddr c = { s.ddr c with fence := { on := true, cause := 3 }, trained := false }
          ∧ ∀ k, k ≠ c → t.ddr k = s.ddr k))

/-- O37. Frames are written as four units on successive dies; failures retire blocks and fence dies. A frame write
MD1 does not take is answered with the reason; one it takes starts its four units on the next dies in turn,
with the next SEQs, where no earlier program of them is left. A program that passes puts its page at the next
place of the stream's open block: the map names a unit's, it is no longer owed to its write, which is answered
OK with its last unit; a trim record unmaps the units it covers whose copies are older; the last data page of
a block starts its summary pages, and the last of those closes it. A program that fails leaves its block to be
emptied, or retired where no page of it is valid; its data stays to be programmed. A read that is served
counts the reads repeated and the grains that fail at every level and poisons those and the stored poisoned
ones, and no other. An operation that times out fences its die and loses the units on it. Basis: derived,
R223, R226, R227, R228, R229, R230, R235, R236, R238, R239, R240, R247. -/
def Obligations.FlashPrograms : Prop :=
  ∀ (s : State) (d : Nat) (host : Bool), d < 1024 →
    (∀ f g data poison, f < 2 ^ 38 → g < 64 →
      (∀ st h, s.writeRefusal f g = some (st, h) →
        Completes (.flashFrameWrite f g data poison) s
          (emit (.flm (4 * f) 4 st h) (if st = .nackRetry ∧ h = 14 then noteFallback g s else s))) ∧
      (s.writeRefusal f g = none → s.diesIn ≠ [] →
        (∀ q ∈ s.flm.progs ++ s.flm.waiting, ∀ k, k < 4 → q.page.meets (4 * f + k) 1 = false) →
        Effect (.flashFrameWrite f g data poison) s (fun u =>
          u = { s with flm := u.flm, tie := { s.tie with slots := u.tie.slots } } ∧ u.flm.map = s.flm.map
          ∧ u.flm.writes = s.flm.writes ++ [{ id := s.flm.nextWrite, frame := f, left := [0, 1, 2, 3] }]
          ∧ u.flm.nextWrite = s.flm.nextWrite + 1 ∧ u.flm.seq = s.flm.seq + 4
          ∧ ∃ l, u.flm.progs = s.flm.progs ++ l ∧ l.map (·.page.lua) = [4 * f, 4 * f + 1, 4 * f + 2, 4 * f + 3]
            ∧ l.map (·.page.data) = (List.range 4).map (fun k => fit (sub data (16384 * k) 16384) 16384)
            ∧ l.map (·.page.poison) = (List.range 4).map (fun k => (poison.filter (fun x => x / 64 = k)).map (· % 64))
            ∧ l.map (·.page.seq) = (List.range 4).map (s.flm.seq + ·)
            ∧ l.map (·.page.dataSeq) = (List.range 4).map (s.flm.seq + ·)
            ∧ l.map (·.die) = (List.range 4).map (fun k => s.diesIn.getD ((s.flm.nextPlace + k) % s.diesIn.length) 0)
            ∧ ∀ p ∈ l, p.page.kind = 1 ∧ p.page.saggar = g ∧ p.write = some s.flm.nextWrite ∧ p.host = true ∧ p.block = none))) ∧
    (s.progOn d host = none → Completes (.pageProgramDone d host) s s) ∧
    (∀ p, s.progOn d host = some p → s.flm.waiting = [] → s.flm.secure = [] →
      (∀ b k, p.block = none → (if host then (s.die d).hostOpen else (s.die d).gcOpen) = some b → k = (s.die d).block b →
        (k.pages.length + 1 < s.flm.dataPages →
          Effect (.pageProgramDone d host) s (fun u =>
            ((u.die d).block b).pages = k.pages ++ [{ p.page with eraseCount := k.erases }]
            ∧ (∀ e, e ≠ d → u.die e = s.die e) ∧ u.flm.progs = s.flm.progs.erase p ∧ u.flm.seq = s.flm.seq)) ∧
        (s.flm.dataPages ≤ k.pages.length + 1 →
          Effect (.pageProgramDone d host) s (fun u => ∃ l, u.flm.progs = l ++ s.flm.progs.erase p
            ∧ l.length = s.flm.summaries ∧ u.flm.seq = s.flm.seq + s.flm.summaries
            ∧ (∀ q ∈ l, q.die = d ∧ q.host = host ∧ q.block = some b ∧ q.page.kind = 2)
            ∧ (if host then (u.die d).hostOpen else (u.die d).gcOpen) = none)) ∧
        (p.page.kind ≠ 3 → (s.flm.writes.map (·.id)).Nodup →
          Effect (.pageProgramDone d host) s (fun u =>
            u.entry p.page.lua = { s.entry p.page.lua with pun := some (d, b, k.pages.length), lost := false }
            ∧ (∀ l, l ≠ p.page.lua → u.entry l = s.entry l)
            ∧ (∀ w ∈ u.flm.writes, p.write = some w.id → p.page.lua % 4 ∉ w.left)
            ∧ ∀ w ∈ s.flm.writes, p.write = some w.id → w.left = [p.page.lua % 4] → w.move = none →
                .flm (4 * w.frame) 4 .ok 0 ∈ u.out)) ∧
        (p.page.kind = 3 → Effect (.pageProgramDone d host) s (fun u =>
          (∀ l q, p.page.covers l = true → s.unitPage l = some q → q.dataSeq < p.page.dataSeq →
            (u.entry l).pun = none ∧ (u.entry l).lost = false)
          ∧ (∀ l, p.page.covers l = false → u.entry l = s.entry l)))) ∧
      (∀ b, p.block = some b → Effect (.pageProgramDone d host) s (fun u =>
        ((u.die d).block b).pages = ((s.die d).block b).pages ++ [{ p.page with eraseCount := ((s.die d).block b).erases }]
        ∧ ((u.die d).block b).st = (if (s.flm.progs.erase p).any (fun q => q.die = d && q.block = some b) = false
            ∧ ((s.die d).block b).st = 1 then 2 else ((s.die d).block b).st)
        ∧ u.flm.progs = s.flm.progs.erase p ∧ u.flm.map = s.flm.map))) ∧
    ((s.progOn d host).isSome = false → (host = true ∨ (s.die d).moving = none) →
      Completes (.programFailure d host) s s) ∧
    (∀ b, (s.progOn d host).isSome = true ∨ (host = false ∧ (s.die d).moving.isSome = true) →
      ((s.progOn d host).bind (·.block)).or (if host then (s.die d).hostOpen else (s.die d).gcOpen) = some b →
      (s.validPages d b = [] → s.flm.retired.length < 2 ^ 19 → Effect (.programFailure d host) s (fun u =>
        ((u.die d).block b).st = 4 ∧ (∃ l, u.flm.retired = s.flm.retired ++ retiredEntry d b 0 :: l)
        ∧ u.satVal satFlmProgFail = satAdd 16 (s.satVal satFlmProgFail) 1 ∧ u.flm.map.map (·.1) = s.flm.map.map (·.1))) ∧
      (s.validPages d b ≠ [] → Effect (.programFailure d host) s (fun u =>
        ((u.die d).block b).st = 3 ∧ ((u.die d).block b).pages = ((s.die d).block b).pages ∧ b ∈ (u.die d).must
        ∧ ((s.progOn d host).bind (·.block) = none → (if host then (u.die d).hostOpen else (u.die d).gcOpen) = none)
        ∧ u.flm.progs = s.flm.progs.filter (fun q => !(q.die = d && q.block = some b))
        ∧ u.flm.map = s.flm.map ∧ u.flm.retired = s.flm.retired ∧ u = { s with flm := u.flm }))) ∧
    (∀ lua g retries failing (x : List Nat × Nat) stored, lua < 2 ^ 40 → g < 64 →
      ((s.flm.st ≠ 3 ∧ s.flm.st ≠ 4) ∨ (s.entry lua).held = true ∨ ((s.entry lua).pun = none ∧ (s.entry lua).lost = false) →
        Completes (.flashRead lua g retries failing) s s) ∧
      (s.flm.st = 3 ∨ s.flm.st = 4 → (s.entry lua).held = false → (s.entry lua).pun ≠ none ∨ (s.entry lua).lost = true →
        x = s.readUnit (s.unitBad lua g) (failing :: retries) →
        stored = (match s.unitPage lua with | some p => p.poison | none => []) →
        Effect (.flashRead lua g retries failing) s (fun u => u.flm = s.flm ∧ u.tie.mem = s.tie.mem
          ∧ (x.1 ≠ [] → u.satVal satFlmReadFail = satAdd 16 (s.satVal satFlmReadFail) x.1.length)
          ∧ (x.2 ≠ 0 → u.satVal satFlmRetried = satAdd 16 (s.satVal satFlmRetried) x.2)
          ∧ (∀ k ∈ x.1 ++ stored, u.grainPoisoned (t4Id (lua / 4)) (64 * (lua % 4) + k) = true)
          ∧ (∀ id n, (id ≠ t4Id (lua / 4) ∨ ∀ k ∈ x.1 ++ stored, n ≠ 64 * (lua % 4) + k) →
              u.grainPoisoned id n = s.grainPoisoned id n)))) ∧
    (s.dieDeadlines d = [] → Completes (.flashOpTimeout d) s s) ∧
    (∀ t l, s.dieDeadlines d = t :: l → ahas s.flm.dies d = true → (s.die d).fenced = false → s.flm.retired.length < 2 ^ 19 →
      Effect (.flashOpTimeout d) s (fun u => u.now = max s.now (l.foldl min t + sclk 1) ∧ (u.die d).fenced = true
        ∧ u.flm.retired = s.flm.retired ++ [retiredEntry d 0xFFFFF 0]
        ∧ (∀ l b i, (s.entry l).pun = some (d, b, i) → (u.entry l).lost = true)
        ∧ ∀ l e b i, (s.entry l).pun = some (e, b, i) → e ≠ d → u.entry l = s.entry l))

/-- O38. Collection, die fences, discards and the rebuild of the map. A die picks a victim where it collects or a
block must be emptied, and takes its first valid page in hand. A page in hand is copied into the GC block with
its DATA_SEQ and poison kept, the grains that fail at every level poisoned; the map names the copy where it
still named the source; a copy that does not verify fails as a program. The victim is erased, one erase more,
once every valid page has moved and no read of it is out; one whose program failed, or whose erase fails, is
retired. A checkpoint writes the erase counts, 3 bytes for each block, to the system units. A die fence by CSR
has cause 3; its lifting frees its blocks. A discard programs trim records of its ranges; a secure one also
holds its units, until no older copy is left, and is then answered OK. FLM_INIT puts each channel in or out of
service. A rebuild maps a unit to a copy that no other record of the unit outranks in DATA_SEQ, and every unit
whose newest record alone is a copy; blank media are formatted; at its end the media serve. Basis: derived,
R222, R232, R233, R234, R236, R237, R238, R239, R240, R241, R242, R597. -/
def Obligations.FlashUpkeep : Prop :=
  ∀ (s : State) (d : Nat), d < 1024 →
    (∀ x on v, afind s.flm.dies d = some x → x.fenced = false → x.victim = none →
      on = (decide (s.freeBlocks d < s.nodeParam 0x0211) || (x.collecting && decide (s.freeBlocks d < s.nodeParam 0x0212))) →
      v = s.pickVictim d on →
      Effect (.gcVictimSelect d) s (fun u => u = { s with flm := u.flm } ∧ (∀ e, e ≠ d → u.die e = s.die e)
        ∧ u.die d = { x with collecting := on, victim := v, moved := []
                             moving := v.bind (fun b => (s.validPages d b).head?.map (·.1))
                             opDeadline := if v.isSome then s.now + sclk (2 ^ 24) else x.opDeadline })) ∧
    ((s.die d).victim ≠ none ∨ (s.die d).fenced = true ∨ ahas s.flm.dies d = false → Completes (.gcVictimSelect d) s s) ∧
    (∀ attempts b i p c always r, (s.die d).victim = some b → (s.die d).moving = some i →
      p = ((s.die d).block b).pages.getD i {} → p.kind = 1 →
      always = (if p.readOk p.lua p.saggar then (List.range 64).filter (fun k => !p.grainCrcOk k) else List.range 64) →
      r = s.readUnit always attempts → (s.die d).gcOpen = some c → c ≠ b →
      ((s.die d).block c).pages.length + 1 < s.flm.dataPages →
      Effect (.gcPageMove d ⟨attempts, true⟩) s (fun u =>
        (u.entry p.lua).pun = (if (s.entry p.lua).pun = some (d, b, i) then some (d, c, ((s.die d).block c).pages.length)
          else (s.entry p.lua).pun)
        ∧ (∀ k, k ≠ p.lua → u.entry k = s.entry k)
        ∧ ((u.die d).block c).pages = ((s.die d).block c).pages ++ [{ p with
            gcCopy := true, poison := (p.poison ++ r.1).eraseDups, seq := s.flm.seq, eraseCount := ((s.die d).block c).erases }]
        ∧ (u.die d).moved = (s.die d).moved ++ [i]
        ∧ (u.die d).block b = (s.die d).block b ∧ (∀ e, e ≠ d → u.die e = s.die e) ∧ u.tie = s.tie)) ∧
    (∀ attempts b i, (s.die d).victim = some b → (s.die d).moving = some i →
      exec (.gcPageMove d ⟨attempts, false⟩) s = exec (.programFailure d false) s) ∧
    (∀ attempts ok, (s.die d).victim = none ∨ (s.die d).moving = none → Completes (.gcPageMove d ⟨attempts, ok⟩) s s) ∧
    (∀ b, (s.die d).victim = some b → s.emptied d b = true → s.flm.retired.length < 2 ^ 19 →
      (((s.die d).block b).st ≠ 3 → s.readsOut d b = false → Effect (.gcVictimErase d) s (fun u =>
        (u.die d).block b = { st := 0, pages := [], erases := ((s.die d).block b).erases + 1 } ∧ (u.die d).victim = none
        ∧ b ∉ (u.die d).early ∧ b ∉ (u.die d).must ∧ (∀ e, e ≠ d → u.die e = s.die e) ∧ u.flm.map = s.flm.map
        ∧ u.flm.retired = s.flm.retired)) ∧
      (((s.die d).block b).st = 3 → s.readsOut d b = false → Effect (.gcVictimErase d) s (fun u =>
        ((u.die d).block b).st = 4 ∧ ∃ l, u.flm.retired = s.flm.retired ++ retiredEntry d b 0 :: l)) ∧
      (b < 2 ^ 24 → Effect (.eraseFailure d b) s (fun u =>
        ((u.die d).block b).st = 4 ∧ ∃ l, u.flm.retired = s.flm.retired ++ retiredEntry d b 1 :: l))) ∧
    (∀ b, (s.die d).victim = some b →
      (s.emptied d b = false ∨ s.readsOut d b = true → Completes (.gcVictimErase d) s s) ∧
      (b < 2 ^ 24 → s.emptied d b = false → Completes (.eraseFailure d b) s s)) ∧
    (∀ bs, s.diesIn ≠ [] → bs = s.checkpointData →
      (∀ q ∈ s.flm.progs ++ s.flm.waiting, q.page.meets s.flm.logical 4096 = false) →
      Effect .blockTableCheckpoint s (fun u => u.flm.erasesAt = s.flm.erases ∧ u.flm.map = s.flm.map
        ∧ (∃ l, u.flm.progs = s.flm.progs ++ l ∧ l.length = min 4096 (ceilDiv bs.length 16384)
          ∧ l.map (·.page.lua) = (List.range l.length).map (s.flm.logical + ·)
          ∧ l.map (·.page.data) = (List.range l.length).map (fun k => fit (sub bs (16384 * k) 16384) 16384))
        ∧ ∀ c t n b, c < 32 → t < s.flm.targets → n < s.flm.luns → t < 8 → n < 4 → b < s.flm.blocksPerDie →
            le bs (3 * (s.flm.rank (32 * c + 4 * t + n) * s.flm.blocksPerDie + b)) 3
              = ((s.die (32 * c + 4 * t + n)).block b).erases % 2 ^ 24)) ∧
    (∀ who : Who, who.wf = true → s.csrGate who flmDieCtrl true = none → ahas s.flm.dies d = true → s.flm.retired.length < 2 ^ 19 →
      ((s.die d).fenced = false → Effect (.flmDieFence who d) s (fun u => (u.die d).fenced = true
        ∧ u.flm.retired = s.flm.retired ++ [retiredEntry d 0xFFFFF 3] ∧ .csr who flmDieCtrl .ok 0 ∈ u.out
        ∧ ∀ l b i, (s.entry l).pun = some (d, b, i) → (u.entry l).lost = true)) ∧
      (liftsFence who = true → (s.die d).fenced = true → Effect (.flmDieUnfence who d) s (fun u => (u.die d).fenced = false
        ∧ u.flm.retired = s.flm.retired ++ [retiredEntry d 0xFFFFE 0] ∧ .csr who flmDieCtrl .ok 0 ∈ u.out
        ∧ ∀ y ∈ (u.die d).blk, y.2.st = 4 ∨ (y.2.st = 0 ∧ y.2.pages = []))) ∧
      (liftsFence who = false → Completes (.flmDieUnfence who d) s (answerCsr who flmDieCtrl .denied 0 s))) ∧
    (∀ lua units, lua < 2 ^ 40 → units < 2 ^ 32 →
      (s.flm.st ≠ 3 → s.flm.st ≠ 4 →
        Completes (.ordinaryDiscard lua units) s s ∧ Completes (.secureDiscard lua units) s s) ∧
      (s.flm.st = 3 ∨ s.flm.st = 4 → s.diesIn ≠ [] →
        (∀ q ∈ s.flm.progs ++ s.flm.waiting, q.page.meets lua units = false) →
        Effect (.ordinaryDiscard lua units) s (fun u => u.flm.map = s.flm.map
          ∧ ∃ l, u.flm.progs = s.flm.progs ++ l ∧ l.flatMap (·.page.ranges) = cutRange lua units
            ∧ ∀ q ∈ l, q.page.kind = 3 ∧ q.page.secure = false ∧ q.page.ranges.length ≤ 1023) ∧
        ((∀ x ∈ s.flm.secure, x.stage = 3) → Effect (.secureDiscard lua units) s (fun u =>
          (∀ l, lua ≤ l → l < lua + units → u.entry l = { s.entry l with held := true })
          ∧ (∀ l, (l < lua ∨ lua + units ≤ l) → u.entry l = s.entry l)
          ∧ u.flm.secure = s.flm.secure ++ [{ lua := lua, units := units, stage := 2 }]
          ∧ ∃ l, u.flm.progs = s.flm.progs ++ l ∧ l.flatMap (·.page.ranges) = cutRange lua units
            ∧ ∀ q ∈ l, q.page.kind = 3 ∧ q.page.secure = true ∧ q.discard = some lua))) ∧
      (∀ x, s.flm.secure.find? (fun x => x.lua = lua && x.stage = 3) = some x →
        (s.copyBlocks lua x.units x.seq = [] → Effect (.secureDiscardDone lua) s (fun u =>
          u = { s with flm := u.flm, out := s.out ++ [.flm lua x.units .ok 0] }
          ∧ u.flm.secure = s.flm.secure.erase x
          ∧ ∀ l, u.entry l = { s.entry l with held := (s.entry l).held && !(decide (lua ≤ l) && decide (l < lua + x.units)) })) ∧
        (s.copyBlocks lua x.units x.seq ≠ [] → Completes (.secureDiscardDone lua) s s))) ∧
    (∀ l : List FlashParams, l.length ≤ 32 →
      (s.fitted capFLM = false → Completes (.flmInit l) s s) ∧
      (s.fitted capFLM = true → Effect (.flmInit l) s (fun u => u.flm.st = 2 ∧ u.flm.rebuildAt = s.now ∧ u.flm.map = s.flm.map
        ∧ ∀ c p, c < l.length → p = l.getD c {} → ∃ x, afind u.flm.ch c = some x
          ∧ (p.present = true → flashLimitsOk p = true → paramsDiffer p (l.headD {}) = none →
              x.fence = { on := false, cause := 0 }
              ∧ ∀ t n, t < p.targets → n < p.lunsPerTarget → ahas u.flm.dies (32 * c + 4 * t + n) = true)
          ∧ (p.present = false ∨ flashLimitsOk p = false ∨ paramsDiffer p (l.headD {}) ≠ none →
              x.fence = { on := true, cause := 3 })))) ∧
    (s.flm.st ≠ 2 → Completes .flashRebuild s s) ∧
    (∀ (about : Nat → FlmCopy → Prop), s.flm.st = 2 →
      (∀ l c, about l c ↔ (c.2.2.kind = 1 ∨ c.2.2.kind = 3) ∧ c.2.2.covers l = true ∧ ∃ x ∈ s.flm.dies, x.2.fenced = false ∧
        ∃ y ∈ x.2.blk, y.2.st ≠ 4 ∧ c ∈ s.flm.copiesOf x.1 y.1 y.2) →
      Effect .flashRebuild s (fun u => u = { s with flm := u.flm, ctr := u.ctr }
        ∧ (∀ l pun, (u.entry l).pun = some pun →
            ∃ c, about l c ∧ c.1 = pun ∧ c.2.2.kind = 1 ∧ ∀ c', about l c' → c'.2.2.dataSeq ≤ c.2.2.dataSeq)
        ∧ (∀ l c, about l c → c.2.2.kind = 1 → (∀ c', about l c' → c' ≠ c → c'.2.2.dataSeq < c.2.2.dataSeq) →
            (u.entry l).pun = some c.1))) ∧
    (s.flm.st = 2 → (∀ x ∈ s.flm.dies, x.2.fenced = false → ∀ y ∈ x.2.blk, y.2.st ≠ 4 → ∀ p ∈ y.2.pages, spareOk p.spareRead = false) →
      Effect .flashRebuild s (fun u => u.flm.st = 5 ∧ u.flm.map = []
        ∧ u.flm.logical = 4 * (u.goodUnits * (100 - s.flm.opPct) / 400))) ∧
    (s.flm.st ≠ 2 → s.flm.st ≠ 5 → Completes .rebuildComplete s s) ∧
    (s.flm.st = 2 ∨ s.flm.st = 5 → Effect .rebuildComplete s (fun u =>
      (u.flm.st = 3 ∨ u.flm.st = 4) ∧ u.flm.saved = [] ∧ (∀ r ∈ s.flm.saved, ahas u.tie.regions r.id = true)
      ∧ (aget u.ctr ctrFlmRebuildCyc {}).count = (s.now - s.flm.rebuildAt) / 60 % 2 ^ 64))

/-- O39. Codec jobs are accepted, run and answered; table IDs are bound; engines are fenced. An encode or decode
call that a row of R253 refuses is answered so, with the result of cause 2 where its table is damaged; one
that passes is placed, unstarted, last on the engine R266 picks, and its table has one user more. A job at the
front whose source is read and whose table is at hand runs, and its output is being written; one whose source
failed ends with that status. A job written returns its result, leaves its engine and its table, and a damaged
block it met is counted. An ID binds to a page that holds a valid table object while it has no users, waits
where the page is on its way, and unbinds while it has no users. A fence empties its engine and loses no job;
the control plane or the management controller lifts it. Basis: derived, R250, R251, R252, R253, R254, R256,
R257, R264, R266, R268, R597. -/
def Obligations.CodecJobs : Prop :=
  ∀ (s : State) (p : Packet), p.wf = true →
    (∀ (c : Instr) proc op j, s.rptRefusal p = none → callProc p = proc →
      (c = .codecEncode p ∧ proc = 0xFF4 ∧ op = 1) ∨ (c = .codecDecode p ∧ proc = 0xFF5 ∧ op = 2) →
      j = ({ id := s.cdc.nextJob, call := p } : CdcJob) →
      (∀ st h, s.jobRefusal j op = some (st, h) → st ≠ .damaged →
        Effect c s (fun u => Answered p st h [] s u ∧ u = { s with fab := u.fab })) ∧
      (∀ h, s.jobRefusal j op = some (.damaged, h) →
        Effect c s (fun u => Answered p .damaged 0 (rptResult 0 { j with cause := 2 }.result) s u ∧ u = { s with fab := u.fab })) ∧
      (s.jobRefusal j op = none →
        Effect c s (fun u => ∃ e x, s.pickEngine j.srcLen = some e
          ∧ (u.engine e).queue = (s.engine e).queue ++ [x] ∧ x.id = s.cdc.nextJob ∧ x.call = p ∧ x.started = false
          ∧ x.wr = none ∧ (∀ k, k ≠ e → u.engine k = s.engine k) ∧ u.cdc.nextJob = s.cdc.nextJob + 1
          ∧ (j.usesTable = true → (u.cdcTable p.saggar j.table).users = (s.cdcTable p.saggar j.table).users + 1)
          ∧ u.fab.inbox = s.fab.inbox.erase p ∧ u = { s with fab := u.fab, cdc := u.cdc }))) ∧
    (∀ id rg pg, s.rptRefusal p = none → callProc p = 0xFF6 → 12 ≤ (callArgs p).length → id = le (callArgs p) 0 2 →
      rg = le (callArgs p) 4 4 → pg = le (callArgs p) 8 4 →
      (id = 0 ∨ s.sagParam p.saggar 0x030C < id →
        Effect (.codecBind p) s (fun u => Answered p .denied 0 [] s u ∧ u = { s with fab := u.fab })) ∧
      (0 < id → id ≤ s.sagParam p.saggar 0x030C → 0 < (s.cdcTable p.saggar id).users →
        Effect (.codecBind p) s (fun u => Answered p .nackRetry 14 [] s u ∧ u = { s with fab := u.fab })) ∧
      (0 < id → id ≤ s.sagParam p.saggar 0x030C → (s.cdcTable p.saggar id).users = 0 →
        (s.tablePage p.saggar rg pg = none →
          Effect (.codecBind p) s (fun u => Answered p .denied 0 [] s u ∧ u = { s with fab := u.fab })) ∧
        (∀ r x s', s.tablePage p.saggar rg pg = some r → readTable r pg (take p s) = (x, s') →
          (x = none → Completes (.codecBind p) s (wait p s')) ∧
          (x = some none ∨ (∃ o, x = some (some o) ∧ tableValid o = false) →
            Effect (.codecBind p) s (fun u => Answered p .denied 0 [] s u ∧ u = { s' with fab := u.fab })) ∧
          (∀ o, x = some (some o) → tableValid o = true →
            Effect (.codecBind p) s (fun u => Answered p .ok 0 (rptResult 0 []) s u ∧ u = { s' with fab := u.fab, cdc := u.cdc }
              ∧ u.cdcTable p.saggar id = { bound := true, region := rg, page := pg, digest := tableDigest o, users := 0 }
              ∧ (∀ g k, (g, k) ≠ (p.saggar, id) → u.cdcTable g k = s.cdcTable g k) ∧ u.cdc.eng = s.cdc.eng))))) ∧
    (∀ id, s.rptRefusal p = none → callProc p = 0xFF7 → 2 ≤ (callArgs p).length → id = le (callArgs p) 0 2 → 0 < id →
      id ≤ s.sagParam p.saggar 0x030C →
      (0 < (s.cdcTable p.saggar id).users →
        Effect (.codecUnbind p) s (fun u => Answered p .nackRetry 14 [] s u ∧ u = { s with fab := u.fab })) ∧
      ((s.cdcTable p.saggar id).users = 0 →
        Effect (.codecUnbind p) s (fun u => Answered p .ok 0 (rptResult 0 []) s u ∧ u = { s with fab := u.fab, cdc := u.cdc }
          ∧ u.cdcTable p.saggar id = {} ∧ (∀ g k, (g, k) ≠ (p.saggar, id) → u.cdcTable g k = s.cdcTable g k)
          ∧ u.cdc.eng = s.cdc.eng))) ∧
    (∀ e j rest, e < 8 → (s.engine e).queue = j :: rest →
      ((s.engine e).fence.on = false → j.started = false → j.rd.ended = true →
        (∀ c, j.rd.failed = some c → Effect (.codecJobStart e) s (fun u =>
          (u.engine e).queue = { j with started := true, status := failStatus c } :: rest
          ∧ ∀ k, k ≠ e → u.engine k = s.engine k)) ∧
        (∀ s', j.rd.failed = none → jobTable j s = (none, s') → Completes (.codecJobStart e) s s') ∧
        (∀ tab s' out j' s'', j.rd.failed = none → jobTable j s = (some tab, s') → runJob j tab s' = (out, j', s'') →
          Effect (.codecJobStart e) s (fun u =>
            (∃ w, (u.engine e).queue = { j' with started := true, wr := some w } :: rest ∧ w.write = true ∧ w.data = out
              ∧ w.node = addrNode (j.word 2) ∧ w.off = addrOff (j.word 2))
            ∧ ∀ k, k ≠ e → u.engine k = s.engine k))) ∧
      ((s.engine e).fence.on = true ∨ j.started = true ∨ j.rd.ended = false → Completes (.codecJobStart e) s s) ∧
      (∀ w, j.started = true → j.wr = some w → w.ended = true →
        (w.failed = none → j.status = .ok ∨ j.status = .damaged → Effect (.codecJobComplete e) s (fun u =>
          Replied j.call j.status 0 (rptResult 0 j.result) s u ∧ (u.engine e).queue = rest
          ∧ (j.usesTable = true → (u.cdcTable j.call.saggar j.table).users = (s.cdcTable j.call.saggar j.table).users - 1)
          ∧ (∀ k, k ≠ e → u.engine k = s.engine k) ∧ u = { s with fab := u.fab, cdc := u.cdc, log := u.log, sat := u.sat }
          ∧ (j.status = .ok → u.log = s.log ∧ u.sat = s.sat)
          ∧ (j.status = .damaged → j.op = 2 →
              u.satVal (satCdcDamaged e) = satAdd (satWidth (satCdcDamaged e)) (s.satVal (satCdcDamaged e)) 1))) ∧
        (∀ c, w.failed = some c → Effect (.codecJobComplete e) s (fun u =>
          Replied j.call (failStatus c) 0 [] s u ∧ (u.engine e).queue = rest))) ∧
      (j.started = true → j.wr = none → j.status ≠ .ok → j.status ≠ .damaged → Effect (.codecJobComplete e) s (fun u =>
        Replied j.call j.status 0 [] s u ∧ (u.engine e).queue = rest)) ∧
      (j.started = false → Completes (.codecJobComplete e) s s)) ∧
    (∀ (who : Who) e, who.wf = true → e < 8 → s.csrGate who (cdcCtrl e) true = none →
      Effect (.cdcFence who e) s (fun u => u.engine e = { fence := { on := true, cause := fenceCauseOf who }, queue := [] }
        ∧ .csr who (cdcCtrl e) .ok 0 ∈ u.out
        ∧ ∀ j ∈ (s.engine e).queue, (∃ x ∈ u.cdc.homeless, x.id = j.id ∧ x.call = j.call)
          ∨ ∃ k, k ≠ e ∧ ∃ x ∈ (u.engine k).queue, x.id = j.id ∧ x.call = j.call) ∧
      (liftsFence who = true → s.cdc.homeless = [] → Completes (.cdcUnfence who e) s
        (modEngine e (fun x => { x with fence := {} }) (answerCsr who (cdcCtrl e) .ok 0 s))) ∧
      (liftsFence who = false → Completes (.cdcUnfence who e) s (answerCsr who (cdcCtrl e) .denied 0 s)))

/-- O40. A finished slice does not depend on the order in which contributions arrived. For any collective whose
packets have distinct places (position, slice and part; head, label and chunk for MERGE; position for CENSUS),
and any rearrangement of the packets it has received, every slice finishes with the same bytes, overflow and
saturation counts and poison. Basis: derived, R284, R286, R287, R289, R290. -/
def Obligations.ContributionOrder : Prop :=
  ∀ (c : Coll) (got : List PugPkt) (keys : List (Bool × Nat)) (slice : Nat), c.got.Perm got →
    (∀ p ∈ c.got, ∀ q ∈ c.got,
      (match cMode c.desc with
       | .merge => p.pos = q.pos ∧ p.label = q.label ∧ p.slice = q.slice
       | .census => p.empty = false ∧ q.empty = false ∧ p.partial_ = q.partial_ ∧ p.pos = q.pos
       | _ => p.empty = false ∧ q.empty = false ∧ p.partial_ = q.partial_ ∧ p.pos = q.pos ∧ p.slice = q.slice ∧ p.part = q.part) →
      p = q) →
    ({ c with got := got } : Coll).finish keys slice = c.finish keys slice

/-- O41. Collectives are opened, armed at stages, described, cancelled and freed; a census is called. An open or
an arming that rows 1 to 7 of R276 refuse is answered so and leaves no state. A flat open is answered OK and
its collective is OPEN with its reservation and units; one with stages is ARMING, unanswered, its arming
packets addressed to every stage. An arming is answered OK and the stage's state is there. COLL_INFO answers
state, positions and shape digest, zeros where there is none. COLL_CANCEL frees a collective in ARMING or OPEN
and is DENIED in any other state; COLL_FREE frees a stage's state. A census call of another epoch is answered
NACK_STALE_EPOCH, or NACK_RETRY with HINT 10; any other is answered OK by a member, whose digest in force then
waits to go to the root at its member number. Basis: derived, R272, R274, R276, R277, R278, R290, R293. -/
def Obligations.CollectiveSetup : Prop :=
  ∀ (s : State) (p : Packet) (d : List Byte), p.wf = true →
    (s.rptRefusal p = none → callProc p = 0xFF8 → d = callArgs p →
      (d.length ≠ 128 → Effect (.collOpen p) s (fun u => Answered p .denied 0 [] s u ∧ u = { s with fab := u.fab })) ∧
      (∀ st h, d.length = 128 → s.admitColl d p.saggar p.epoch false p = .error (st, h) →
        Effect (.collOpen p) s (fun u => Answered p st h [] s u ∧ u.pug = s.pug)) ∧
      (∀ r units, d.length = 128 → s.admitColl d p.saggar p.epoch false p = .ok (r, units) → cCount d = 1 → cStep d = 0 →
        stageNodes d (s.collN d) = [] → (cMode d = .census → cCensusKind d ≠ 0) →
        Effect (.collOpen p) s (fun u => Answered p .ok 0 (rptResult 0 (openResult d (s.collN d))) s u
          ∧ ∃ c, u.coll? p.saggar (cHandle d) false = some c ∧ c.st = 2 ∧ c.desc = d ∧ c.units = units ∧ c.bytes = r
            ∧ c.epoch = p.epoch ∧ c.root = s.fab.node ∧ c.got = [] ∧ c.fin = [])) ∧
      (∀ r units, d.length = 128 → s.admitColl d p.saggar p.epoch false p = .ok (r, units) → cCount d = 1 → cStep d = 0 →
        stageNodes d (s.collN d) ≠ [] →
        Effect (.collOpen p) s (fun u => u.fab.inbox = s.fab.inbox.erase p
          ∧ (∃ c, u.coll? p.saggar (cHandle d) false = some c ∧ c.st = 1 ∧ c.desc = d ∧ c.bytes = r)
          ∧ ∃ o ∈ u.pug.opens, o.call = some p ∧ o.first = cHandle d ∧ o.count = 1
            ∧ o.arms.map (·.pkt.dst) = stageNodes d (s.collN d) ∧ ∀ m ∈ o.arms, m.pkt.opcode = opARM))) ∧
    (p.payload.length < 136 → Effect (.collArm p) s (fun u => Answered p .denied 0 [] s u ∧ u = { s with fab := u.fab })) ∧
    (136 ≤ p.payload.length → d = p.payload.take 128 →
      (∀ st h, s.admitColl d p.saggar p.epoch true p = .error (st, h) →
        Effect (.collArm p) s (fun u => Answered p st h [] s u ∧ u.pug = s.pug)) ∧
      (∀ r units, s.admitColl d p.saggar p.epoch true p = .ok (r, units) → cCount d = 1 →
        Effect (.collArm p) s (fun u => Answered p .ok 0 [] s u ∧ u = { s with fab := u.fab, pug := u.pug }
          ∧ ∃ c, u.coll? p.saggar (cHandle d) true = some c ∧ c.root = le p.payload 128 2 ∧ c.desc = d ∧ c.units = units
            ∧ c.bytes = r ∧ c.got = []))) ∧
    (s.rptRefusal p = none → callProc p = 0xFFA →
      (s.coll? p.saggar (le (callArgs p) 0 4) false = none →
        Effect (.collInfo p) s (fun u => Answered p .ok 0 (rptResult 0 (zeros 16)) s u ∧ u = { s with fab := u.fab })) ∧
      (∀ c, s.coll? p.saggar (le (callArgs p) 0 4) false = some c →
        Effect (.collInfo p) s (fun u => u = { s with fab := u.fab }
          ∧ Answered p .ok 0 (rptResult 0 (natLe c.st 4 ++ natLe (min (s.positions c) (2 ^ 32 - 1)) 4
              ++ (shapeDigest c.desc (s.collN c.desc)).take 8)) s u))) ∧
    (∀ h, s.rptRefusal p = none → callProc p = 0xFF9 → le (callArgs p) 0 8 = h + 2 ^ 32 → h < 2 ^ 32 →
      (∀ c, s.coll? p.saggar h false = some c → c.st = 1 ∨ c.st = 2 → stageNodes c.desc (s.collN c.desc) = [] →
        Effect (.collCancel p) s (fun u => Answered p .ok 0 (rptResult 0 []) s u ∧ u.coll? p.saggar h false = none
          ∧ ∀ g k b, (g, k, b) ≠ (p.saggar, h, false) → u.coll? g k b = s.coll? g k b)) ∧
      ((∀ c, s.coll? p.saggar h false = some c → c.st ≠ 1 ∧ c.st ≠ 2) →
        Effect (.collCancel p) s (fun u => Answered p .denied 0 [] s u ∧ u = { s with fab := u.fab }))) ∧
    Effect (.collFree p) s (fun u => Answered p .ok 0 [] s u ∧ u.coll? p.saggar (le p.payload 0 4) true = none
      ∧ (∀ g k b, (g, k, b) ≠ (p.saggar, le p.payload 0 4, true) → u.coll? g k b = s.coll? g k b)
      ∧ u = { s with fab := u.fab, pug := u.pug }) ∧
    (s.epochCheck p = .stale → Effect (.censusCall p) s (fun u => Answered p .nackStaleEpoch 0 [] s u ∧ u.pug = s.pug)) ∧
    (s.epochCheck p = .notReady → Effect (.censusCall p) s (fun u => Answered p .nackRetry 10 [] s u ∧ u = { s with fab := u.fab })) ∧
    (∀ ms, ms = s.members (s.sagComp p.saggar) → s.epochCheck p = .served →
      (ms.contains s.fab.node = false →
        Effect (.censusCall p) s (fun u => Answered p .denied 0 [] s u ∧ u = { s with fab := u.fab })) ∧
      (ms.contains s.fab.node = true → s.maySend (.pug (s.pugUnits.headD 0)) p.src p.saggar = false →
        Effect (.censusCall p) s (fun u => Answered p .ok 0 [] s u ∧ u = { s with fab := u.fab, pug := u.pug }
          ∧ ∃ m, u.pug.msgs = s.pug.msgs ++ [m] ∧ m.pkt.dst = p.src ∧ m.pkt.opcode = opCONTRIB
            ∧ m.pkt.payload = contribBytes (le p.payload 0 4) { pos := ms.idxOf s.fab.node, nelem := 1, data := s.img.dig })))

/-- O42. Contributions and results are taken by the rows of R283; Pug units are fenced; combined atomics close.
(The upsets of the update's attempts are operands.) A contribution to no collective is answered NACK_RETRY, to
a fenced one NACK_FENCED, of another epoch NACK_STALE_EPOCH, a malformed one DENIED; one already received is
answered OK and counted; a label beyond the number of a MERGE's blocks is DENIED; any other is answered OK and
added, once, each attempt whose residues disagree counted. A result for no collective, or a block not served,
is DENIED; one without return addresses is answered OK at once, any other after its writes. A fenced unit
fences every collective with state on it and no other; a third failed check fences the unit. A combining entry
closes at its time into one combined atomic of its originals' operation and address. Basis: derived, R283,
R291, R293, R294, R295, R296, R297, R298, R597. -/
def Obligations.CollectiveData : Prop :=
  ∀ (s : State) (p : Packet), p.wf = true →
    (∀ port (upsets : List LaneUpset) h x rsv, port < 65 → upsets.length ≤ 3 → parseContrib p.payload = (h, x, rsv) →
      (s.collFor p.saggar h x = none →
        Effect (.collContrib port p upsets) s (fun u => Answered p .nackRetry 12 [] s u ∧ u = { s with fab := u.fab })) ∧
      (∀ c, s.collFor p.saggar h x = some c →
        (c.st = 4 → Effect (.collContrib port p upsets) s (fun u => Answered p .nackFenced 0 [] s u ∧ u = { s with fab := u.fab })) ∧
        (c.st ≠ 4 → s.epochCheck p = .notReady →
          Effect (.collContrib port p upsets) s (fun u => Answered p .nackRetry 10 [] s u ∧ u = { s with fab := u.fab })) ∧
        (c.st ≠ 4 → s.epochCheck p = .stale ∨ (s.epochCheck p = .served ∧ p.epoch ≠ c.epoch) →
          Effect (.collContrib port p upsets) s (fun u => Answered p .nackStaleEpoch 0 [] s u ∧ u.pug = s.pug)) ∧
        (c.st ≠ 4 → s.epochCheck p = .served → p.epoch = c.epoch → s.badContrib c x rsv = true →
          Effect (.collContrib port p upsets) s (fun u => Answered p .denied 0 [] s u ∧ u = { s with fab := u.fab })) ∧
        (c.st ≠ 4 → s.epochCheck p = .served → p.epoch = c.epoch → s.badContrib c x rsv = false → c.seen x = true →
          Effect (.collContrib port p upsets) s (fun u => Answered p .ok 0 [] s u ∧ u.pug = s.pug
            ∧ u.satVal (satPugDup (c.unitOf x.slice)) = satAdd 16 (s.satVal (satPugDup (c.unitOf x.slice))) 1)) ∧
        (c.st ≠ 4 → s.epochCheck p = .served → p.epoch = c.epoch → s.badContrib c x rsv = false → c.seen x = false →
          (cMode c.desc = .merge → (c.labels x.pos).contains x.label = false → cNblk c.desc ≤ (c.labels x.pos).length →
            Effect (.collContrib port p upsets) s (fun u => Answered p .denied 0 [] s u ∧ u = { s with fab := u.fab })) ∧
          (∀ n left, (cMode c.desc = .merge → (c.labels x.pos).contains x.label = true ∨ (c.labels x.pos).length < cNblk c.desc) →
            c.attempts x upsets = (n, some left) → Effect (.collContrib port p upsets) s (fun u =>
            u.satVal (satPugResidue (c.unitOf x.slice)) =
              (if n = 0 then s.satVal (satPugResidue (c.unitOf x.slice)) else satAdd 16 (s.satVal (satPugResidue (c.unitOf x.slice))) n) ∧
            (∃ (q : Packet) (l : List Packet), u.fab.tx = s.fab.tx ++ q :: l ∧ q.dst = p.src ∧ q.tag = p.tag ∧ q.status = Status.ok.code ∧ q.payload = [])
            ∧ u.fab.inbox = s.fab.inbox.erase p
            ∧ ∀ c', u.coll? c.saggar c.handle c.stage = some c' → c'.got = c.got ++ [{ x with upset := left }])) ∧
          (∀ n, (cMode c.desc = .merge → (c.labels x.pos).contains x.label = true ∨ (c.labels x.pos).length < cNblk c.desc) →
            c.attempts x upsets = (n, none) → Effect (.collContrib port p upsets) s (fun u => (u.pugFence (c.unitOf x.slice)).on = true
            ∧ u.fab.inbox = s.fab.inbox.erase p
            ∧ u.satVal (satPugResidue (c.unitOf x.slice)) = satAdd 16 (s.satVal (satPugResidue (c.unitOf x.slice))) 2
            ∧ ∃ (q : Packet) (l : List Packet), u.fab.tx = s.fab.tx ++ l ++ [q] ∧ q.dst = p.src ∧ q.tag = p.tag ∧ q.status = Status.nackFenced.code))))) ∧
    (∀ h x rsv, parseContrib p.payload = (h, x, rsv) →
      (s.coll? p.saggar h true = none →
        Effect (.collResult p) s (fun u => Answered p .denied 0 [] s u ∧ u = { s with fab := u.fab })) ∧
      (∀ c, s.coll? p.saggar h true = some c →
        (c.st = 4 → Effect (.collResult p) s (fun u => Answered p .nackFenced 0 [] s u ∧ u = { s with fab := u.fab })) ∧
        (c.st ≠ 4 → (s.groups c).find? (fun g => g.1 = x.pos) = none →
          Effect (.collResult p) s (fun u => Answered p .denied 0 [] s u ∧ u = { s with fab := u.fab })) ∧
        (∀ g, c.st ≠ 4 → (s.groups c).find? (fun g => g.1 = x.pos) = some g → (∀ k ∈ g.2, aget c.ret k.key 0 = 0) →
          Effect (.collResult p) s (fun u => Answered p .ok 0 [] s u ∧ u = { s with fab := u.fab })) ∧
        (∀ g k, c.st = 2 → c.stage = true → (s.groups c).find? (fun g => g.1 = x.pos) = some g → g.2 = [k] →
          aget c.ret k.key 0 ≠ 0 → cPattern c.desc ≠ 2 → 0 < x.nelem → x.data ≠ [] → 0 < cOutBytes c.desc →
          Effect (.collResult p) s (fun u => u.fab.inbox = s.fab.inbox.erase p
            ∧ ∃ c', u.coll? p.saggar h true = some c' ∧ c'.results = c.results ++ [{ pkt := p, ids := [c.nextId] }])))) ∧
    (∀ (who : Who) n, who.wf = true → n < 16 → s.csrGate who (pugCtrl n) true = none →
      ((s.pugFence n).on = false → Effect (.pugFence who n) s (fun u =>
        u.pugFence n = { on := true, cause := fenceCauseOf who } ∧ (∀ k, k ≠ n → u.pugFence k = s.pugFence k)
        ∧ (∀ c ∈ s.pug.colls, c.holds n = true → ∃ c' ∈ u.pug.colls, sameColl c' c = true ∧ c'.st = 4)
        ∧ (s.pug.colls.Pairwise (fun a b => sameColl a b = false) →
            ∀ c ∈ s.pug.colls, c.holds n = false → c ∈ u.pug.colls))) ∧
      ((s.pugFence n).on = true → Completes (.pugFence who n) s (answerCsr who (pugCtrl n) .ok 0 s)) ∧
      (∀ b, liftsFence who = true → Effect (.pugUnfence who n b) s (fun u =>
        u.pugFence n = (if b then {} else s.pugFence n) ∧ (∀ k, k ≠ n → u.pugFence k = s.pugFence k)
        ∧ u.pug.colls = s.pug.colls ∧ u.out = s.out ++ [.csr who (pugCtrl n) .ok 0])) ∧
      (∀ b, liftsFence who = false → Completes (.pugUnfence who n b) s (answerCsr who (pugCtrl n) .denied 0 s))) ∧
    (∀ id, id < 2 ^ 32 →
      (s.pug.comb.find? (fun e => e.id = id && e.tag = none) = none → Completes (.combiningEntryClose id) s s) ∧
      (∀ e, s.pug.comb.find? (fun e => e.id = id && e.tag = none) = some e →
        Effect (.combiningEntryClose id) s (fun u => u.now = max s.now e.deadline
          ∧ (∃ q : Packet, u.fab.tx = s.fab.tx ++ [q] ∧ q.dst = e.dst ∧ q.offset = e.off ∧ q.opcode = e.op ∧ q.saggar = e.saggar
            ∧ q.cls = 1 ∧ q.cmb = true ∧ q.tag = s.nextTag ∧ q.payload = combinedPayload e.op e.originals)
          ∧ u.pug.comb = s.pug.comb.map (fun x => if x.id = id then { e with tag := some s.nextTag } else x)
          ∧ u.fab.inbox = s.fab.inbox)))

/-- O43. Pooling requests are bound and answered; rows migrate; engines are fenced. A request that R303 refuses is
answered so and counted; one that passes is bound to its definition and an engine, unanswered. Its frame
exponent is a supplied one where it derives one in replay. A train is served once it is whole. A request whose
rows are all read and whose sub-requests are all answered ends and is answered: its failure, POISON, its
partial frames, or the finished vector with its head; one still waiting is unchanged. A migration freezes its
row; when the copy is whole the row is at its destination, unfrozen, and OK with the place is answered; where
it fails the row is where it was, unfrozen. A fence moves its engine's requests elsewhere and loses none.
Basis: derived, R303, R304, R305, R306, R308, R309, R325, R597. -/
def Obligations.Gathering : Prop :=
  ∀ (s : State) (p : Packet), p.wf = true →
    (trainPart p = true → joinTrain ((addPart p s.fab.frags).filter (sameTrain p)) = none →
      Completes (.gatherPool p) s { s with fab := { s.fab with inbox := s.fab.inbox.erase p, frags := addPart p s.fab.frags } }) ∧
    (∀ w, trainPart p = true → joinTrain ((addPart p s.fab.frags).filter (sameTrain p)) = some w →
      Completes (.gatherPool p) s (gatherPool w { s with fab := { s.fab with
        inbox := s.fab.inbox.erase p, frags := (addPart p s.fab.frags).filter (fun q => !sameTrain p q) } })) ∧
    (∀ st h, trainPart p = false → s.gthRefusal p = .error (st, h) →
      Effect (.gatherPool p) s (fun u => Answered p st h [] s u ∧ u.gth = s.gth
        ∧ u.satVal (satGthRefused (s.gthPick.getD 0)) = satAdd 16 (s.satVal (satGthRefused (s.gthPick.getD 0))) 1)) ∧
    (∀ d, trainPart p = false → s.gthRefusal p = .ok d → (∀ x ∈ s.gth.reqs, x.id ≠ s.gth.nextReq) →
      Effect (.gatherPool p) s (fun u => ∃ r, u.gth.reqs = s.gth.reqs ++ [r] ∧ r.id = s.gth.nextReq ∧ r.call = p ∧ r.def_ = d
        ∧ r.engine = s.gthPick ∧ r.f = (if (gthHdr p.payload).f = 0x8000 then
            (s.forcedF p.saggar (aget s.sit p.saggar {}).curStep 0 0xFFF 3 (gthKey (gthHdr p.payload))).getD
              (gthFrameExp d (gthHdr p.payload))
          else gthFrameExp d (gthHdr p.payload)) ∧ u.gth.nextReq = s.gth.nextReq + 1
        ∧ u.gth.dir = s.gth.dir ∧ u.fab.inbox = s.fab.inbox.erase p)) ∧
    (∀ id, id < 2 ^ 32 → s.gth.reqs.find? (fun r => r.id = id && r.engine.isSome) = none →
      Completes (.gatherPoolDone id) s s) ∧
    (∀ id r, id < 2 ^ 32 → s.gth.reqs.find? (fun r => r.id = id && r.engine.isSome) = some r → r.left = [] →
      (r.subs ≠ [] → (∀ m ∈ r.subs, m.tag.isSome = true) → (∀ x ∈ s.gth.reqs, x.id = id → x = r) →
        Effect (.gatherPoolDone id) s (fun u => u.gth = s.gth ∧ u.fab = s.fab)) ∧
      (r.subs = [] → ∀ h, h = gthHdr r.call.payload →
        (∀ c, r.failed = some c → Effect (.gatherPoolDone id) s (fun u => Replied r.call (failStatus c) 0 [] s u
          ∧ u.gth.reqs = s.gth.reqs.filter (fun x => x.id ≠ id))) ∧
        (r.failed = none → r.poison = true → h.fwd = 0 → Effect (.gatherPoolDone id) s (fun u =>
          Replied r.call .poison 0 (natLe h.nRows 4 ++ natLe (unsignedW 16 r.f) 2 ++ natLe 0 2 ++ zeros 8) s u
          ∧ u.gth.reqs = s.gth.reqs.filter (fun x => x.id ≠ id))) ∧
        (r.failed = none → r.poison = false → h.fwd ≠ 0 → Effect (.gatherPoolDone id) s (fun u =>
          RepliedTrain r.call .ok 0 (pad8 ((cutEvery (perPacket 15 h.wSel) r.frames).flatMap
            (frameBytes (widthOf h.wSel) (perPacket 15 h.wSel)))) s u
          ∧ u.gth.reqs = s.gth.reqs.filter (fun x => x.id ≠ id))) ∧
        (∀ es n, r.failed = none → r.poison = false → h.fwd = 0 →
          es = r.frames.map (fun x => ((if h.pool = 1 then x.mean h.nRows h.outFmt else encodeElem h.outFmt x.value), x.ovf)) →
          n = (es.filter (fun x => x.2)).length →
          Effect (.gatherPoolDone id) s (fun u =>
            RepliedTrain r.call (if n = 0 then .ok else .overflow) 0 (pad8 (natLe h.nRows 4 ++ natLe (unsignedW 16 r.f) 2
              ++ natLe (min n 65535) 2 ++ zeros 8 ++ packElems h.outFmt (es.map (fun x => x.1.1)))) s u
            ∧ u.gth.reqs = s.gth.reqs.filter (fun x => x.id ≠ id))))) ∧
    (∀ a, s.rptRefusal p = none → callProc p = 0xFFB → a = le (callArgs p) 0 8 →
      (s.gdef p.saggar (bits a 0 6) = none →
        Effect (.gatherMigrate p) s (fun u => Answered p .denied 0 [] s u ∧ u = { s with fab := u.fab })) ∧
      (∀ d row n r off rs, s.gdef p.saggar (bits a 0 6) = some d → 8 ≤ (callArgs p).length → row = bits a 32 32 →
        row < gRows d → s.rowOwner p.saggar d row = some n → s.homes.contains n = true → bits a 8 8 = 0xFF →
        (s.gEntry p.saggar d row).moved ≠ none → (∀ x, (s.gEntry p.saggar d row).moved = some x → x.2.1 ≠ 0xFF) →
        s.gthUnits ≠ [] → ahas s.gth.dir (p.saggar, gTable d, gGen d, row) = true →
        s.rowPlace p.saggar d row = some (r, off) → s.regionKnown p.saggar (gShard d (row % gShards d)) = some rs →
        ((s.gEntry p.saggar d row).frozen = true →
          Effect (.gatherMigrate p) s (fun u => Answered p .nackRetry 14 [] s u ∧ u = { s with fab := u.fab })) ∧
        ((s.gEntry p.saggar d row).frozen = false →
          Effect (.gatherMigrate p) s (fun u => u.fab.inbox = s.fab.inbox.erase p
            ∧ afind u.gth.dir (p.saggar, gTable d, gGen d, row) = some { (s.gEntry p.saggar d row) with frozen := true }
            ∧ (∀ k, k ≠ (p.saggar, gTable d, gGen d, row) → afind u.gth.dir k = afind s.gth.dir k)
            ∧ ∃ m, u.gth.moves = s.gth.moves ++ [m] ∧ m.call = p ∧ m.row = row ∧ m.dest = none
              ∧ m.dstAddr = placeAddr rs (rowOffset d row) ∧ m.rd.len = gRowBytes d)))) ∧
    (∀ g t row, g < 64 → t < 64 → row < 2 ^ 48 →
      (∀ b, s.gth.moves.find? (fun m => m.saggar = g && m.table = t && m.row = row) = none →
        Completes (.migrationCopyDone g t row b) s s) ∧
      (∀ (m : GthMove) (w : Xfer), s.gth.moves.find? (fun m => m.saggar = g && m.table = t && m.row = row) = some m →
        (Effect (.migrationCopyDone g t row false) s (fun u => Replied m.call .poison 0 [] s u
          ∧ u.gth.moves = s.gth.moves.erase m
          ∧ aget u.gth.dir (g, t, m.gen, row) {} = { aget s.gth.dir (g, t, m.gen, row) {} with frozen := false })) ∧
        (m.rd.failed = none → m.wr = some w → w.failed = none → w.ended = true →
          Effect (.migrationCopyDone g t row true) s (fun u => Replied m.call .ok 0 (rptResult 0 (natLe (match m.dest with
              | some (n, i, sl) => sl + i * 2 ^ 24 + n * 2 ^ 32
              | none => 0xF * 2 ^ 24 + addrNode m.dstAddr * 2 ^ 32) 8)) s u
            ∧ u.gth.moves = s.gth.moves.erase m ∧ aget u.gth.dir (g, t, m.gen, row) {} = { moved := m.dest })) ∧
        (m.rd.failed = none → m.wr = none → Completes (.migrationCopyDone g t row true) s s))) ∧
    (∀ (who : Who) e, who.wf = true → e < 8 → s.csrGate who (gthCtrl e) true = none →
      Effect (.gthFence who e) s (fun u => u.gthFence e = { on := true, cause := fenceCauseOf who }
        ∧ (∀ k, k ≠ e → u.gthFence k = s.gthFence k) ∧ .csr who (gthCtrl e) .ok 0 ∈ u.out
        ∧ ((s.gth.reqs.map (·.id)).Nodup → ∀ r ∈ s.gth.reqs, ∃ r' ∈ u.gth.reqs,
            r'.id = r.id ∧ r'.call = r.call ∧ r'.def_ = r.def_ ∧ r'.engine ≠ some e)) ∧
      (liftsFence who = true → Effect (.gthUnfence who e) s (fun u => u.gthFence e = {}
        ∧ (∀ k, k ≠ e → u.gthFence k = s.gthFence k) ∧ .csr who (gthCtrl e) .ok 0 ∈ u.out)) ∧
      (liftsFence who = false → Completes (.gthUnfence who e) s (answerCsr who (gthCtrl e) .denied 0 s)))

/-- O44. Queries see their snapshot; inserts, deletes and merges change an index; engines are fenced. A query that
R316 refuses is answered so; one that passes is bound to the version, floor, insert sequence and delete
generation in force. Inserts and deletes made after that change no result of it. When what it needs of its
image is read it is answered with its result, or POISON where that or a side entry is poisoned. An insert
takes the next sequence number and enters its list; a delete takes the next generation, and a second one of
the item answers the first's. A merge answers the next version; its switch makes the target the image, and its
cleanup drops the merged side entries. A fence loses no query. Basis: derived, R315, R316, R317, R320, R321,
R322, R323, R325, R326. -/
def Obligations.Sieving : Prop :=
  (∀ (h : SivHdr) (img : Nat → Nat → List Byte) (x : SivIndex) (r : SivReq) (e : SivSide) (item : Nat),
    r.s ≤ x.insSeq → r.g ≤ x.delGen → x.insSeq < e.seq → x.tomb.contains item = false →
    runQuery h img { x with insSeq := e.seq, sides := x.sides ++ [e] } r = runQuery h img x r ∧
    runQuery h img { x with delGen := x.delGen + 1, tomb := x.tomb ++ [item], log := x.log ++ [(item, x.delGen + 1)] } r
      = runQuery h img x r) ∧
  (∀ (s : State) (p : Packet), p.wf = true →
    (trainPart p = true → joinTrain ((addPart p s.fab.frags).filter (sameTrain p)) = none →
      Completes (.sieveQuery p) s { s with fab := { s.fab with inbox := s.fab.inbox.erase p, frags := addPart p s.fab.frags } }) ∧
    (∀ w, trainPart p = true → joinTrain ((addPart p s.fab.frags).filter (sameTrain p)) = some w →
      Completes (.sieveQuery p) s (sieveQuery w { s with fab := { s.fab with
        inbox := s.fab.inbox.erase p, frags := (addPart p s.fab.frags).filter (fun q => !sameTrain p q) } })) ∧
    (∀ st h, trainPart p = false → s.sivRefusal p = .error (st, h) → Effect (.sieveQuery p) s (fun u => Answered p st h [] s u ∧ u.siv = s.siv)) ∧
    (∀ x, trainPart p = false → s.sivRefusal p = .ok x → Effect (.sieveQuery p) s (fun u =>
      u.siv = { s.siv with nextReq := s.siv.nextReq + 1, reqs := s.siv.reqs ++ [{
          id := s.siv.nextReq, call := p, engine := s.sivPick, index := bits (le p.payload 0 8) 8 6, image := x.image
          version := x.version, floor := x.floor, s := x.insSeq, g := x.delGen }] }
      ∧ u = { s with siv := u.siv, fab := { s.fab with inbox := s.fab.inbox.erase p } })) ∧
    (∀ id, id < 2 ^ 32 → s.siv.reqs.find? (fun r => r.id = id) = none → Completes (.sieveQueryDone id) s s) ∧
    (∀ id r e x res s', id < 2 ^ 32 → s.siv.reqs.find? (fun r => r.id = id) = some r → r.engine = some e →
      s.sivIndex r.call.saggar r.index = some x →
      readQuery (s.region r.image) r.call.payload s = (res, s') →
      (res = .waits → Completes (.sieveQueryDone id) s s') ∧
      (∀ bs, res = .data bs → s'.anyPoison (s'.region x.side) = false → Effect (.sieveQueryDone id) s (fun u =>
        RepliedTrain r.call .ok 0 (queryReply r (runQuery (s'.sivHeader r.image) (s'.imageBytes (s.region r.image)) x r)) s u ∧ u.tie = s'.tie
        ∧ u.siv = { s.siv with reqs := s.siv.reqs.filter (fun y => y.id ≠ id) })) ∧
      (∀ bs, res = .data bs → s'.anyPoison (s'.region x.side) = true → Effect (.sieveQueryDone id) s (fun u =>
        Replied r.call .poison 0 (queryReply r (0, 0, [])) s u ∧ u.tie = s'.tie
        ∧ u.siv = { s.siv with reqs := s.siv.reqs.filter (fun y => y.id ≠ id) })) ∧
      (res = .poison → Effect (.sieveQueryDone id) s (fun u =>
        Replied r.call .poison 0 (queryReply r (0, 0, [])) s u ∧ u.tie = s'.tie
        ∧ u.siv = { s.siv with reqs := s.siv.reqs.filter (fun y => y.id ≠ id) }))) ∧
    (∀ a i x h, s.rptRefusal p = none → a = callArgs p → i = le a 0 1 → s.sagConf p.saggar = false → s.sivUnits ≠ [] →
      s.sivIndex p.saggar i = some x → h = s.sivHeader x.image →
      (callProc p = 0xFFC → a.length = 24 + h.m → le a 4 4 < h.itemMax → x.tomb.contains (le a 4 4) = false → le a 2 2 < h.c →
        (s.sagParam p.saggar 0x0308 ≤ x.liveSide (le a 2 2) →
          Effect (.sieveInsert p) s (fun u => Answered p .nackRetry 14 [] s u ∧ u = { s with fab := u.fab })) ∧
        (x.liveSide (le a 2 2) < s.sagParam p.saggar 0x0308 →
          Effect (.sieveInsert p) s (fun u => Answered p .ok 0 (rptResult 0 (natLe (x.insSeq + 1) 8)) s u
            ∧ u = { s with fab := u.fab, siv := u.siv }
            ∧ u.sivIndex p.saggar i = some { x with
                insSeq := x.insSeq + 1
                sides := x.sides ++ [{ list := le a 2 2, seq := x.insSeq + 1, bytes := fit (a.drop 4) h.entry }] }))) ∧
      (callProc p = 0xFFC → h.itemMax ≤ le a 4 4 ∨ x.tomb.contains (le a 4 4) = true →
        Effect (.sieveInsert p) s (fun u => Answered p .denied 0 [] s u ∧ u = { s with fab := u.fab })) ∧
      (callProc p = 0xFFD → 8 ≤ a.length → le a 4 4 < h.itemMax →
        (x.tomb.contains (le a 4 4) = true → Effect (.sieveDelete p) s (fun u =>
          Answered p .ok 0 (rptResult 0 (natLe x.delGen 8)) s u ∧ u = { s with fab := u.fab })) ∧
        (x.tomb.contains (le a 4 4) = false → (s.trimLog p.saggar i x).log.length < s.sagParam p.saggar 0x0309 →
          Effect (.sieveDelete p) s (fun u => Answered p .ok 0 (rptResult 0 (natLe (x.delGen + 1) 8)) s u
            ∧ u.sivIndex p.saggar i = some { x with
                delGen := x.delGen + 1
                tomb := x.tomb ++ [le a 4 4]
                log := (s.trimLog p.saggar i x).log ++ [(le a 4 4, x.delGen + 1)] }))) ∧
      (∀ r, callProc p = 0xFFE → 8 ≤ a.length → afind s.tie.regions (le a 4 4) = some r → r.kind = 0 → r.sealed_ = false →
        r.saggar = p.saggar → le a 4 4 ≠ x.image →
        mergedStart h + ((mergedLists h (s.imageBytes (s.region x.image)) x { target := le a 4 4, sm := x.insSeq, gm := x.delGen }).map
          (fun l => l.length * h.entry)).foldl (· + ·) 0 ≤ r.size →
        (x.merge = none → Effect (.sieveMerge p) s (fun u => Answered p .ok 0 (rptResult 0 (natLe (x.version + 1) 4)) s u
          ∧ u = { s with fab := u.fab, siv := u.siv }
          ∧ u.sivIndex p.saggar i = some { x with merge := some { target := le a 4 4, sm := x.insSeq, gm := x.delGen } })) ∧
        (x.merge ≠ none → Effect (.sieveMerge p) s (fun u => Answered p .nackRetry 14 [] s u ∧ u = { s with fab := u.fab })))) ∧
    (∀ g i x, g < 64 → i < 64 → s.sivIndex g i = some x →
      (x.merge = none → Completes (.sieveMergeSwitch g i) s s ∧ Completes (.sieveMergeCleanup g i) s s) ∧
      (∀ m img s1 s2, x.merge = some m → m.switched = false →
        readRegion (s.region x.image) none 0 (s.region x.image).size s = (.data img, s1) →
        writeRegion (s1.region m.target) 0 (mergedImage (sivHdr img) (sub img) (mergedLists (sivHdr img) (sub img) x m)) s1 = (.done, s2) →
        Effect (.sieveMergeSwitch g i) s (fun u => afind u.siv.index (g, i) = some { x with
          image := m.target, version := x.version + 1, floor := m.sm, merge := some { m with switched := true } })) ∧
      (∀ m, x.merge = some m → m.switched = true → (∀ r ∈ s.siv.reqs, r.call.saggar = g → r.index = i → x.version ≤ r.version) →
        Effect (.sieveMergeCleanup g i) s (fun u => u = { s with siv := u.siv } ∧ u.sivIndex g i = some { x with
          sides := x.sides.filter (fun e => decide (m.sm < e.seq)), tomb := x.tomb.filter (fun t => !x.deleted t m.gm), merge := none })) ∧
      (∀ m, x.merge = some m → m.switched = false → Completes (.sieveMergeCleanup g i) s s)) ∧
    (∀ (who : Who) e, who.wf = true → e < 8 → s.csrGate who (sivCtrl e) true = none →
      Effect (.sivFence who e) s (fun u => u.sivFence e = { on := true, cause := fenceCauseOf who }
        ∧ (∀ k, k ≠ e → u.sivFence k = s.sivFence k)
        ∧ ((s.siv.reqs.map (·.id)).Nodup → ∀ r ∈ s.siv.reqs, ∃ n, n ≠ some e ∧ { r with engine := n } ∈ u.siv.reqs)) ∧
      (liftsFence who = true → Effect (.sivUnfence who e) s (fun u => u.sivFence e = {}
        ∧ (∀ k, k ≠ e → u.sivFence k = s.sivFence k))) ∧
      (liftsFence who = false → Completes (.sivUnfence who e) s (answerCsr who (sivCtrl e) .denied 0 s))))

/-- O45. READ, WRITE and the seven atomics at their home. (A WRITE to the port of the movers is no request of a
region.) A request that R340 refuses is answered so and memory is unchanged. A read served here is answered
with the bytes and their checks, poison with POISON; memory is unchanged, but for a failing copy of an
IMMUTABLE grain, which is repaired. A write whose checks fail, or whose merge mismatches, is answered
NACK_RETRY, counted, and changes no memory; one that is applied is answered OK. An atomic whose outcome the
window holds is answered from it; a retry it does not know is NACK_UNKNOWN; else its new word is R341's, its
outcome enters the window, and the old word is answered. A request whose page must come from the flash waits,
or is answered NACK_RETRY where no frame can take it. Basis: derived, R340, R341, R344, R346, R352, R353,
R531. -/
def Obligations.MemoryRequests : Prop :=
  ∀ (s : State) (p q : Packet) (mm : Bool) (c : Instr) (op : Nat), p.wf = true → q = { p with opcode := op } →
    (∀ st h, (c, op) ∈ [(Instr.read p, opREAD), (.write p mm, opWRITE), (.atomicAdd p mm, opADD), (.atomicMin p mm, opMIN),
        (.atomicMax p mm, opMAX), (.atomicSwap p mm, opSWAP), (.atomicCas p mm, opCAS), (.frameAdd p mm, opFRAMEADD),
        (.frameAddF p mm, opFRAMEADDF)] → s.isXfer q = false → s.accept q = .refuse st h →
      Effect c s (fun u => Answered q st h [] s u ∧ u.tie = s.tie ∧ u.fab.win = s.fab.win)) ∧
    (∀ pl r a ver, c = .read p → op = opREAD → s.accept q = .ok pl →
      (pl = .working r a ∧ ver = none ∧ r.coh ≠ 1) ∨ (∃ v, pl = .view r v a ∧ ver = some v) →
      s.rowRoute q r a q.length false = .here → ∀ res s',
      readRegion { r with holders := r.holders.filter (· ≠ q.src) } ver a q.length s = (res, s') →
      (∀ bs, res = .data bs → bs ≠ [] → Effect c s (fun u => u.tie = s'.tie ∧ (r.immutable = false → u.tie.mem = s.tie.mem)
        ∧ u.fab.inbox = s'.fab.inbox.erase q ∧ ∃ x : Packet, u.fab.tx = s'.fab.tx ++ [x] ∧ x.dst = q.src ∧ x.tag = q.tag
          ∧ x.opcode = opACKDATA ∧ x.status = Status.ok.code ∧ x.payload = bs ∧ x.trailer = trailerOf q.offset bs)) ∧
      (res = .poison → Effect c s (fun u => Answered q .poison 0 [] s' u ∧ u.tie = s'.tie
        ∧ (r.immutable = false → u.tie.mem = s.tie.mem))) ∧
      (∀ h, res = .retry h → Effect c s (fun u => Answered q .nackRetry h [] s' u ∧ u.tie = s'.tie)) ∧
      (res = .waits → Completes c s (wait q s'))) ∧
    (∀ r a, c = .write p mm → op = opWRITE → s.isXfer q = false → s.accept q = .ok (.working r a) → r.coh ≠ 1 →
      s.rowRoute q r a q.length true = .here →
      (q.trailer ≠ trailerOf q.offset q.payload → Effect c s (fun u => Answered q .nackRetry 0 [] s u ∧ u.tie = s.tie
        ∧ u.satVal satFabGrainCrc = satAdd 16 (s.satVal satFabGrainCrc) 1)) ∧
      (q.trailer = trailerOf q.offset q.payload → mm = true → partialPieces a q.length = true →
        Effect c s (fun u => Answered q .nackRetry 0 [] s u ∧ u.tie = s.tie
          ∧ u.satVal satErcMerge = satAdd 16 (s.satVal satErcMerge) 1)) ∧
      (q.trailer = trailerOf q.offset q.payload → mm = false ∨ partialPieces a q.length = false →
        ∀ res s', writeRegion r a q.payload s = (res, s') →
        (res = .done → Effect c s (fun u => Answered q .ok 0 [] s' u ∧ u.tie = s'.tie)) ∧
        (res = .poison → Effect c s (fun u => Answered q .poison 0 [] s' u ∧ u.tie = s'.tie)) ∧
        (∀ h, res = .retry h → Effect c s (fun u => Answered q .nackRetry h [] s' u ∧ u.tie = s'.tie)) ∧
        (res = .waits → Completes c s (wait q s')))) ∧
    (∀ r a, (c, op) ∈ [(Instr.atomicAdd p mm, opADD), (.atomicMin p mm, opMIN), (.atomicMax p mm, opMAX), (.atomicSwap p mm, opSWAP),
        (.atomicCas p mm, opCAS), (.frameAdd p mm, opFRAMEADD), (.frameAddF p mm, opFRAMEADDF)] →
      s.accept q = .ok (.working r a) → r.coh ≠ 1 → s.rowRoute q r a (spanOf q) true = .here →
      (∀ w old, s.winFind q.src q.saggar q.seq = some w → w.outcome = some (Status.ok.code, old) → op ≠ opFRAMEADDF →
        Effect c s (fun u => Answered q .ok 0 (natLe old 8) s u ∧ u = { s with fab := u.fab } ∧ u.fab.win = s.fab.win)) ∧
      (∀ w, s.winFind q.src q.saggar q.seq = some w → w.outcome = none →
        Effect c s (fun u => Answered q .nackUnknown 0 [] s u ∧ u.tie = s.tie)) ∧
      (s.winFind q.src q.saggar q.seq = none → s.originalKnown q = false → q.rty = true →
        Effect c s (fun u => Answered q .nackUnknown 0 [] s u ∧ u.tie = s.tie
          ∧ ∃ (l : List WinEntry) (w : WinEntry), u.fab.win = l ++ [w] ∧ w.src = q.src ∧ w.saggar = q.saggar ∧ w.seq = q.seq ∧ w.outcome = none)) ∧
      (∀ bs s1 s2 x y old new, s.winFind q.src q.saggar q.seq = none → q.cmb = false → q.rty = false → mm = false →
        op ≠ opFRAMEADDF → readRange r none a 8 s = (.data bs, s1) → old = leNat bs → x = le q.payload 0 8 →
        y = le q.payload 8 8 →
        new = (if op = opMIN then (if signed64 old ≤ signed64 x then old else x)
          else if op = opMAX then (if signed64 x ≤ signed64 old then old else x)
          else if op = opSWAP then x else if op = opCAS then (if old = x then y else old) else (old + x) % 2 ^ 64) →
        writeRegion (s1.region r.id) a (natLe new 8) s1 = (.done, s2) →
        Effect c s (fun u => Answered q .ok 0 (natLe old 8) s2 u ∧ u.tie = s2.tie
          ∧ ∃ (l : List WinEntry) (w : WinEntry), u.fab.win = l ++ [w] ∧ w.src = q.src ∧ w.saggar = q.saggar ∧ w.seq = q.seq
            ∧ w.outcome = some (Status.ok.code, old) ∧ w.at_ = s.now)) ∧
      (∀ bs s1 s2 sl, s.winFind q.src q.saggar q.seq = none → q.cmb = false → q.rty = false → mm = false → op = opFRAMEADDF →
        readRange r none a 32 s = (.data bs, s1) → combineSlots bs q.payload = some sl →
        writeRegion (s1.region r.id) a sl.slot s1 = (.done, s2) →
        Effect c s (fun u => Answered q (if sl.ovf then .overflow else .ok) 0 [] s2 u ∧ u.tie = s2.tie)))

/-- O46. Answers, timeouts and retries of this chip's requests; calls; FAB_CTRL and the hot ranges. An answer that
is a train is taken once it is whole. An answer that matches no request, or names no status, is counted and
discarded. NACK_RETRY starts the request's backoff, after which it goes out again with the same SEQ; a read
whose data fail is asked for once more, and the second time ends in POISON; any other final answer ends the
request at its unit. A timeout acts when the cycle of its deadline has passed: a completion timeout resends
with RTY, at the last it ends with the timeout code. Calls are refused, queued on their Trimmer or done by
their unit. FAB_CTRL takes the control plane's writes within its bounds. Basis: derived, R331, R337, R339,
R343, R347, R348, R349, R355, R357, R359, R361. -/
def Obligations.RequestEnds : Prop :=
  ∀ (s : State) (p : Packet), p.wf = true →
    (∀ r, s.fab.outst.find? (fun r => r.pkt.tag = p.tag) = some r → answeredByTrain r = true → trainPart p = true →
      (joinTrain ((addPart p s.fab.frags).filter (sameTrain p)) = none →
        Completes (.ackData p) s { s with fab := { s.fab with inbox := s.fab.inbox.erase p, frags := addPart p s.fab.frags } }) ∧
      (∀ w, joinTrain ((addPart p s.fab.frags).filter (sameTrain p)) = some w →
        Completes (.ackData p) s (takeAnswer w w.payload { s with fab := { s.fab with
          inbox := s.fab.inbox.erase p, frags := (addPart p s.fab.frags).filter (fun q => !sameTrain p q) } }))) ∧
    (∀ (c : Instr) data, (c = .ack p ∧ data = []) ∨ (c = .ackData p ∧ data = p.payload
        ∧ ∀ r, s.fab.outst.find? (fun r => r.pkt.tag = p.tag) = some r → answeredByTrain r = true → trainPart p = false) →
      (s.fab.outst.find? (fun r => r.pkt.tag = p.tag) = none ∨ 13 ≤ p.status →
        Effect c s (fun u => u.fab = { s.fab with inbox := s.fab.inbox.erase p }
          ∧ u.satVal satFabOrphan = satAdd 16 (s.satVal satFabOrphan) 1)) ∧
      (∀ r, s.fab.outst.find? (fun r => r.pkt.tag = p.tag) = some r → p.status < 13 →
        (p.status = Status.nackRetry.code → r.passesRetry = false → r.nacks < 16 →
          Effect c s (fun u => u = { s with fab := u.fab } ∧ u.fab.tx = s.fab.tx ∧ u.fab.inbox = s.fab.inbox.erase p
            ∧ u.fab.outst = s.fab.outst.map (fun x => if x = r then { r with
                nacks := r.nacks + 1, backoff := some (s.now + sclk (2 ^ p.hint)), deadline := none } else x))) ∧
        (p.status = Status.nackStaleEpoch.code ∨ p.status = Status.nackFenced.code → endsAtNack r.req = false →
          r.pkt.epoch = s.img.epoch →
          Effect c s (fun u => u = { s with fab := u.fab } ∧ u.fab.tx = s.fab.tx
            ∧ u.fab.outst = s.fab.outst.map (fun x => if x = r then { r with
                held := some (p.status, s.now + sclk (2 ^ s.toExp)), deadline := none, pkt := { r.pkt with rty := false } } else x))) ∧
        (r.pkt.opcode = opREAD → p.status = 0 → data.length ≠ r.pkt.length ∨ p.trailer ≠ trailerOf r.pkt.offset data →
          r.reread = false → Effect c s (fun u => u = { s with fab := u.fab } ∧ ∃ x : Packet, u.fab.tx = s.fab.tx ++ [x]
            ∧ x.opcode = opREAD ∧ x.dst = r.pkt.dst ∧ x.offset = r.pkt.offset ∧ x.tag = s.nextTag)) ∧
        (∀ st, s.fab.done = [] →
          (st = p.status ∧ (r.pkt.opcode = opREAD → p.status = 0 →
              data.length = r.pkt.length ∧ p.trailer = trailerOf r.pkt.offset data)
            ∧ (p.status = Status.nackRetry.code → r.passesRetry = true ∨ 16 ≤ r.nacks)
            ∧ (p.status = Status.nackStaleEpoch.code ∨ p.status = Status.nackFenced.code → endsAtNack r.req = true)) →
          ∃ s1, Completes c s (deliverDone p.hint { req := r, status := st, data := data } s1)
            ∧ s1 = { s with fab := s1.fab } ∧ s1.fab.outst = s.fab.outst.erase r ∧ s1.fab.done = []
            ∧ s1.fab.inbox = s.fab.inbox.erase p ∧ s1.fab.tx = s.fab.tx))) ∧
    (∀ tag, tag < 65536 → s.fab.done = [] →
      (s.fab.outst.find? (fun r => r.pkt.tag = tag ∧ r.deadline.isSome) = none → Completes (.completionTimeout tag) s s) ∧
      (∀ r, s.fab.outst.find? (fun r => r.pkt.tag = tag ∧ r.deadline.isSome) = some r →
        (r.timeouts < r.resends → Effect (.completionTimeout tag) s (fun u => u.now = max s.now (r.deadline.getD 0 + sclk 1)
          ∧ (∃ x : Packet, u.fab.tx = s.fab.tx ++ [x] ∧ x.rty = true ∧ x.tag = tag ∧ x.dst = r.pkt.dst ∧ x.seq = r.pkt.seq
            ∧ x.epoch = s.img.epoch) ∧ u.fab.outst.length = s.fab.outst.length)) ∧
        (r.resends ≤ r.timeouts → ∃ s1,
          Completes (.completionTimeout tag) s (deliverDone 0 { req := r, status := 0xF, data := [] } s1)
          ∧ s1.now = max s.now (r.deadline.getD 0 + sclk 1) ∧ s1.fab.outst = s.fab.outst.erase r
          ∧ s1.satVal satFabTimeout = satAdd 16 (s.satVal satFabTimeout) 1)) ∧
      (∀ r, s.fab.outst.find? (fun r => r.pkt.tag = tag ∧ r.backoff.isSome) = some r →
        Effect (.nackBackoffExpiry tag) s (fun u => u.now = max s.now (r.backoff.getD 0)
          ∧ ∃ x : Packet, u.fab.tx = s.fab.tx ++ [x] ∧ x.rty = false ∧ x.tag = tag ∧ x.dst = r.pkt.dst ∧ x.seq = r.pkt.seq
            ∧ x.epoch = s.img.epoch)) ∧
      (∀ r h, s.fab.outst.find? (fun r => r.pkt.tag = tag ∧ r.held.isSome) = some r → r.held = some h →
        (s.img.epoch ≠ r.pkt.epoch → Effect (.staleHoldTimeout tag) s (fun u => u = { s with fab := u.fab }
          ∧ ∃ x : Packet, u.fab.tx = s.fab.tx ++ [x] ∧ x.tag = tag ∧ x.dst = r.pkt.dst ∧ x.epoch = s.img.epoch)) ∧
        (s.img.epoch = r.pkt.epoch → ∃ s1,
          Completes (.staleHoldTimeout tag) s (deliverDone 0 { req := r, status := h.1, data := [] } s1)
          ∧ s1.now = max s.now (h.2 + sclk 1) ∧ s1.fab.outst = s.fab.outst.erase r))) ∧
    (∀ src g seq, src < 65536 → g < 64 → seq < 2 ^ 24 →
      (s.winFind src g seq = none → Completes (.windowEntryExpiry src g seq) s s) ∧
      (∀ w, s.winFind src g seq = some w → Effect (.windowEntryExpiry src g seq) s (fun u =>
        u.fab.win = s.fab.win.erase w ∧ u.now = max s.now (w.at_ + sclk (2 ^ s.winRetExp))))) ∧
    (∀ (who : Who) (v : Word32), who.wf = true → s.csrGate who 0x0400004 true = none →
      (who ≠ .control → Completes (.fabCtrlWrite who v) s (answerCsr who 0x0400004 .denied 0 s)) ∧
      (who = .control → Effect (.fabCtrlWrite who v) s (fun u => u.out = s.out ++ [.csr who 0x0400004 .ok 0]
        ∧ u.fab = { s.fab with ctrl :=
            if 17 ≤ v.toNat % 32 ∧ v.toNat % 32 < v.toNat / 256 % 32 ∧ 25 ≤ v.toNat / 256 % 32 ∧ v.toNat / 256 % 32 ≤ 30
            then v else s.fab.ctrl }))) ∧
    (∀ h : HotRange, h.region < 2 ^ 32 → h.home < 65536 → h.base < 2 ^ 48 → h.pages < 2 ^ 32 → h.kind < 4 → h.saggar < 64 →
      (s.fab.hot.any (fun x => x.region = h.region) = true →
        Completes (.hotRangeEntry h.region h.home h.base h.pages h.kind h.saggar) s s) ∧
      (s.fab.hot.any (fun x => x.region = h.region) = false → s.fab.hot.length < 1024 →
        Completes (.hotRangeEntry h.region h.home h.base h.pages h.kind h.saggar) s
          { s with fab := { s.fab with hot := s.fab.hot ++ [h] } })) ∧
    (∀ q, q = { p with opcode := opRPT } →
      (∀ st h, s.rptRefusal q = some (st, h) → Effect (.rpt p) s (fun u => Answered q st h [] s u ∧ u.tie = s.tie ∧ u.trm = s.trm)) ∧
      (∀ e t, s.rptRefusal q = none → callProc q < 0xFF0 → e = s.rptEntryOf q.saggar (callProc q) →
        t = s.servingTrimmer q.saggar e →
        (64 ≤ (s.trmOf t).rptq.length → Effect (.rpt p) s (fun u => Answered q .nackRetry 12 [] s u ∧ u = { s with fab := u.fab })) ∧
        ((s.trmOf t).rptq.length < 64 → Completes (.rpt p) s (enqueueRpt t { p := q, entry := e } (take q s)))) ∧
      (∀ c t, s.rptRefusal q = none → (callProc q, c) ∈ [(0xFF0, Instr.regionCreate q), (0xFF1, .regionDelete q), (0xFF2, .regionSeal q),
          (0xFF3, .regionInfo q), (0xFF4, .codecEncode q), (0xFF5, .codecDecode q), (0xFF6, .codecBind q), (0xFF7, .codecUnbind q),
          (0xFF8, .collOpen q), (0xFF9, .collCancel q), (0xFFA, .collInfo q), (0xFFB, .gatherMigrate q), (0xFFC, .sieveInsert q),
          (0xFFD, .sieveDelete q), (0xFFE, .sieveMerge q)] →
        exec c s = .next t → Completes (.rpt p) s t))

/-- O47. Invalidations, domain fences, re-formation and the owner token. An INVAL of this chip's domain goes to
every agent and host behind it and is answered once all have answered; one that names a domain without this
chip is DENIED. A domain fence takes the domain from UP to FENCED, answers the writes that wait in it
NACK_FENCED (all of this waits while the control cores restart), and where this chip reports it counts it and
tells the members; a fenced domain re-forms once every reachable member has reported its directory cleared.
The owner token moves by offer and acceptance, reverts at the timeout, and is forced only where R387 lets it;
each says whom the home notifies. Basis: derived, R375, R376, R378, R379, R381, R383, R384, R385, R387, R389. -/
def Obligations.Coherency : Prop :=
  ∀ (s : State) (p q : Packet), p.wf = true →
    (∀ w dom, q = { p with opcode := opINVAL } → w = le q.payload 0 8 → dom = bits w 16 16 →
      ((classOk opINVAL q.cls = false ∨ q.payload.length ≠ 8 ∨ q.offset % 256 ≠ 0 ∨ bits w 0 9 = 0 ∨ 256 < bits w 0 9
          ∨ s.domain? dom = none) →
        Effect (.inval p) s (fun u => Answered q .denied 0 [] s u ∧ u = { s with fab := u.fab })) ∧
      (∀ d, classOk opINVAL q.cls = true → q.payload.length = 8 → q.offset % 256 = 0 → bits w 0 9 ≠ 0 → bits w 0 9 ≤ 256 →
        s.domain? dom = some d →
        (∀ port, s.cxlPortOf q.dst = some port → d.agents.contains q.dst = true →
          Effect (.inval p) s (fun u => u.fab.tx = s.fab.tx ∧ u.fab.inbox = s.fab.inbox.erase q
            ∧ u.out = s.out ++ (invalGrains q).map (fun o => .biSnp port q.src o)
            ∧ u.coh.forwards = s.coh.forwards ++ [{ pkt := q, snoops := (invalGrains q).map (fun o => (port, q.src, o)) }])) ∧
        (s.cxlPortOf q.dst = none → q.dst = s.fab.node →
          (d.members.contains s.fab.node = false →
            Effect (.inval p) s (fun u => Answered q .denied 0 [] s u ∧ u = { s with fab := u.fab })) ∧
          (d.members.contains s.fab.node = true →
            (s.agentsHere dom = [] → Effect (.inval p) s (fun u => Answered q .ok 0 [] s u ∧ u = { s with fab := u.fab })) ∧
            (∀ eps, eps = (s.agentsHere dom).filter (fun a => (s.cxlPortOf a).isNone) → s.agentsHere dom ≠ [] →
              Effect (.inval p) s (fun u => u.fab.inbox = s.fab.inbox.erase q ∧ ∃ l f, u.fab.tx = s.fab.tx ++ l
                ∧ l.map (·.dst) = eps ∧ (∀ x ∈ l, x.opcode = opINVAL ∧ x.offset = q.offset ∧ x.src = s.fab.node)
                ∧ u.coh.forwards = s.coh.forwards ++ [f] ∧ f.pkt = q ∧ f.tags = l.map (·.tag)
                ∧ f.snoops = ((s.agentsHere dom).filterMap (fun a => s.cxlPortOf a)).flatMap
                    (fun h => (invalGrains q).map (fun o => (h, q.src, o))))))))) ∧
    (∀ port home off, port < 64 → home < 65536 → off < 2 ^ 48 →
      Effect (.birsp port home off) s (fun u =>
        ∃ fs, fs = s.coh.forwards.map (fun f => { f with snoops := f.snoops.erase (port, home, off) })
          ∧ u.coh = { s.coh with forwards := fs.filter (fun f => !(f.tags.isEmpty && f.snoops.isEmpty)) }
          ∧ u.fab.tx = s.fab.tx ++ (fs.filter (fun f => f.tags.isEmpty && f.snoops.isEmpty)).map
              (fun f => stampPkt (mkAnswer f.pkt .ok 0 [] s)))) ∧
    (∀ dom cause here, dom < 65536 → cause < 8 →
      (s.arch.cp = .restart → Completes (.domainFence dom cause here) s
        { s with coh := { s.coh with heldFences := s.coh.heldFences ++ [(dom, cause, here)] } }) ∧
      (s.arch.cp ≠ .restart →
        (s.domSlot? dom = none → Completes (.domainFence dom cause here) s s) ∧
        (∀ n d, s.domSlot? dom = some (n, d) →
          (d.st = 2 → Completes (.domainFence dom cause here) s s) ∧
          (d.st ≠ 2 → Effect (.domainFence dom cause here) s (fun u =>
            afind u.coh.slots n = some { d with st := 2, cause := cause, cleared := [] }
            ∧ (∀ k, k ≠ n → afind u.coh.slots k = afind s.coh.slots k)
            ∧ u.coh.waits = s.coh.waits.filter (fun x => x.domain ≠ dom)
            ∧ (∀ x ∈ s.coh.waits, x.domain = dom → x.pkt.opcode ≠ opREAD → ∃ a ∈ u.fab.tx, a.dst = x.pkt.src ∧ a.tag = x.pkt.tag
                ∧ a.seq = x.pkt.seq ∧ a.status = Status.nackFenced.code)
            ∧ u.tie = s.tie
            ∧ (here = false → u.satVal satCohFences = s.satVal satCohFences)
            ∧ (here = true → u.satVal satCohFences = satAdd 16 (s.satVal satCohFences) 1
                ∧ ∀ r, s.domain? dom = some r → ∀ m ∈ r.members, m ≠ s.fab.node → .ctrl m (.domainFence dom cause) ∈ u.out)
            ∧ (d.st = 3 → u.img.preparing = none)
            ∧ (d.st ≠ 3 → u.img = s.img)))))) ∧
    (∀ dom member, dom < 65536 → member < 64 → s.arch.cp = .restart →
      Completes (.domainDirectoryCleared dom member) s
        { s with coh := { s.coh with heldCleared := s.coh.heldCleared ++ [(dom, member)] } }) ∧
    (∀ dom member, dom < 65536 → member < 64 → s.arch.cp ≠ .restart →
      (s.domSlot? dom = none ∨ s.domain? dom = none → Completes (.domainDirectoryCleared dom member) s s) ∧
      (∀ n d r, s.domSlot? dom = some (n, d) → s.domain? dom = some r →
        (d.st ≠ 2 → Completes (.domainDirectoryCleared dom member) s s) ∧
        (d.st = 2 → ∀ cl, cl = (if d.cleared.contains member then d.cleared else d.cleared ++ [member]) →
          Effect (.domainDirectoryCleared dom member) s (fun u =>
            afind u.coh.slots n = some { d with
              cleared := cl
              st := if ((List.range r.members.length).filter (fun i => !s.erc.lost.contains (r.members.getD i 0))).all
                cl.contains then 3 else 2 }
            ∧ (∀ k, k ≠ n → afind u.coh.slots k = afind s.coh.slots k)
            ∧ (member = d.member → (∀ e ∈ u.coh.dir, (s.region e.1.1).domain ≠ dom)
                ∧ ∀ m ∈ r.members, m ≠ s.fab.node → .ctrl m (.directoryCleared dom) ∈ u.out)
            ∧ (member ≠ d.member → u = { s with coh := u.coh } ∧ u.coh.dir = s.coh.dir))))) ∧
    (∀ c op, (c, op) ∈ [(Instr.ownOffer p, opOFFER), (.ownAccept p, opACCEPT), (.ownForce p, opFORCE)] →
      q = { p with opcode := op } →
      (bits (le q.payload 0 8) 32 4 = 1 →
        Effect c s (fun u => Answered q .ok 0 [] s u ∧ u = { s with fab := u.fab })) ∧
      (bits (le q.payload 0 8) 32 4 ≠ 1 →
        (∀ st h, s.ownRefusal q = .error (st, h) → Effect c s (fun u => Answered q st h [] s u ∧ u.tie = s.tie)) ∧
        (∀ r x t, s.ownRefusal q = .ok r → afind s.tie.regions r.id = some r → x = le q.payload 8 4 →
          t = bits (le q.payload 0 8) 48 16 →
          (op = opOFFER →
            (r.inTransfer = true → Effect c s (fun u => u = { s with fab := u.fab }
              ∧ if q.src = r.owner ∧ t = r.target then Answered q .ok 0 [] s u else Answered q .nackRetry 14 [] s u)) ∧
            (r.inTransfer = false → q.src ≠ r.owner →
              Effect c s (fun u => Answered q .nackNotOwner 0 [] s u ∧ u = { s with fab := u.fab })) ∧
            (r.inTransfer = false → q.src = r.owner → Effect c s (fun u =>
              u.region r.id = { r with
                inTransfer := true, target := t, xfer := (r.xfer + 1) % 2 ^ 32
                xferDeadline := some (s.now + sclk (2 ^ bits s.coh.ctrl.toNat 0 5)) }
              ∧ (∀ k, k ≠ r.id → u.region k = s.region k)
              ∧ ∃ (a : Packet) (l : List Packet), u.fab.tx = s.fab.tx ++ a :: l ∧ a.dst = q.src ∧ a.tag = q.tag ∧ a.status = Status.ok.code
                ∧ (t = 0xFFFF → l = [])
                ∧ (t ≠ 0xFFFF → ∃ n : Packet, l = [n] ∧ n.dst = t ∧ n.opcode = opOFFER
                    ∧ n.payload = ownPayload r.id 1 0 r.owner ((r.xfer + 1) % 2 ^ 32) r.version)))) ∧
          (op = opACCEPT →
            (r.inTransfer = true → q.src = r.target → x = r.xfer → Effect c s (fun u =>
              u.region r.id = { r with
                inTransfer := false, owner := q.src, target := 0xFFFF, xferDeadline := none, acceptedXfer := some x }
              ∧ (∀ k, k ≠ r.id → u.region k = s.region k)
              ∧ ∃ (a : Packet) (l : List Packet), u.fab.tx = s.fab.tx ++ a :: l ∧ a.dst = q.src ∧ a.tag = q.tag ∧ a.status = Status.ok.code
                ∧ (r.owner ≠ 0xFFFF → ∃ n : Packet, l = [n] ∧ n.dst = r.owner ∧ n.opcode = opACCEPT
                    ∧ n.payload = ownPayload r.id 1 1 q.src x r.version))) ∧
            (¬ (r.inTransfer = true ∧ q.src = r.target ∧ x = r.xfer) → Effect c s (fun u => u = { s with fab := u.fab }
              ∧ if q.src = r.owner ∧ r.acceptedXfer = some x then Answered q .ok 0 [] s u else Answered q .denied 0 [] s u))) ∧
          (op = opFORCE →
            (r.owner = 0xFFFF ∨ ¬ (r.owner ∈ s.members r.comp ∨ r.owner ∈ s.endpoints r.comp) ∨ q.src = s.fab.node →
              Effect c s (fun u =>
                u.region r.id = { r with
                  working := (aget r.versions r.version {}).pages, lostPages := (aget r.versions r.version {}).lost, moves := []
                  inTransfer := false, owner := q.src, target := 0xFFFF, xferDeadline := none, acceptedXfer := none }
                ∧ (∀ k, k ≠ r.id → u.region k = s.region k)
                ∧ ∃ (a : Packet) (l : List Packet), u.fab.tx = s.fab.tx ++ a :: l ∧ a.dst = q.src ∧ a.tag = q.tag ∧ a.status = Status.ok.code
                  ∧ (∀ n ∈ l, n.opcode = opFORCE ∧ (n.dst = r.owner ∨ n.dst = r.target)
                      ∧ n.payload = ownPayload r.id 1 3 q.src r.xfer r.version)
                  ∧ (r.owner ≠ 0xFFFF → s.nodeReached r.owner = true → ∃ n ∈ l, n.dst = r.owner))) ∧
            (¬ (r.owner = 0xFFFF ∨ ¬ (r.owner ∈ s.members r.comp ∨ r.owner ∈ s.endpoints r.comp) ∨ q.src = s.fab.node) →
              Effect c s (fun u => Answered q .denied 0 [] s u ∧ u = { s with fab := u.fab })))))) ∧
    (∀ id r, id < 2 ^ 32 → afind s.tie.regions id = some r →
      (r.xferDeadline = none → Completes (.ownTransferTimeout id) s s) ∧
      (∀ d, r.xferDeadline = some d → Effect (.ownTransferTimeout id) s (fun u => u.now = max s.now (d + sclk 1)
        ∧ u.region id = { r with inTransfer := false, target := 0xFFFF, xferDeadline := none }
        ∧ (∀ k, k ≠ id → u.region k = s.region k)
        ∧ u.satVal satCohReverts = satAdd 16 (s.satVal satCohReverts) 1
        ∧ (r.owner ≠ 0xFFFF → r.target ≠ 0xFFFF → ∃ a b : Packet, u.fab.tx = s.fab.tx ++ [a, b] ∧ a.dst = r.owner ∧ b.dst = r.target
            ∧ a.payload = ownPayload r.id 1 2 r.owner r.xfer r.version ∧ b.payload = a.payload)))) ∧
    (∀ (who : Who) (v : Word32), who.wf = true → s.csrGate who 0x0400040 true = none →
      (who ≠ .control → Completes (.cohCtrlWrite who v) s (answerCsr who 0x0400040 .denied 0 s)) ∧
      (who = .control → Completes (.cohCtrlWrite who v) s (answerCsr who 0x0400040 .ok 0 { s with coh := { s.coh with
        ctrl := if 16 ≤ v.toNat % 32 ∧ v.toNat % 32 ≤ 30 then v else s.coh.ctrl } })))

/-- O48. Packets enter, wait in and leave the switch core; shapers, samples, ageing and the audit. A frame that
fails its check or its order changes nothing but asks once for a replay; one that passes advances the expected
number. A packet of this chip that passes its header check and its saggar's quota is delivered, or held in its
reserve; a failing header check discards it; with no route it is counted. A port sends TC0 before TC7 before
the shared classes, and a packet that leaves carries one hop more, a packet of 48 hops is discarded. The
shaper tick adds each bucket its rate up to its burst; a packet at the age limit is gone and counted; a cell
suspect in two passes is reclaimed. Basis: derived, R330, R390, R392, R395, R399, R403, R404, R406, R408,
R409, R410, R423. -/
def Obligations.Switching : Prop :=
  ∀ (s : State) (p : Packet) (f : LinkFrame), p.wf = true → f.wf = true →
    (∀ port, port < 64 →
      ((s.port port).lst ≠ 4 ∨ s.linked port = false → Completes (.packetArrival port p f) s s) ∧
      ((s.port port).lst = 4 → s.linked port = true →
        (f.fcrcOk = false ∨ f.fseq ≠ (s.port port).rxSeq →
          ((s.port port).replayReq ≠ none → Completes (.packetArrival port p f) s s) ∧
          ((s.port port).replayReq = none → (s.port port).partialSop = none → (s.port port).partialPid = none →
            Effect (.packetArrival port p f) s (fun u => u = { s with prt := u.prt, out := u.out }
              ∧ (u.port port).rxSeq = (s.port port).rxSeq ∧ (u.port port).replayReq = some (s.port port).rxSeq
              ∧ (∀ k, k ≠ port → u.port k = s.port k)
              ∧ ∃ g : LinkFrame, u.out = s.out ++ [.frame port g none] ∧ g.ftype = 3 ∧ g.fseq = (s.port port).rxSeq))) ∧
        (f.fcrcOk = true → f.fseq = (s.port port).rxSeq → f.abort = false → f.sop = true → f.eop = true →
          p.epoch = s.img.epoch → (s.port port).partialPid = none →
          Effect (.packetArrival port p f) s (fun u => (u.port port).rxSeq = ((s.port port).rxSeq + 1) % 4096
            ∧ (u.port port).ackSeq = f.fseq ∧ (u.port port).ackV = true ∧ (u.port port).replayReq = none
            ∧ (hchkOk p = false → u.swc = s.swc ∧ u.fab = s.fab))))) ∧
    ((p ∉ s.fab.tx → Completes (.packetArrival 64 p f) s s) ∧
      (p ∈ s.fab.tx →
        (hchkOk p = false → Completes (.packetArrival 64 p f) s { s with fab := { s.fab with tx := s.fab.tx.erase p } }) ∧
        (hchkOk p = true → p.epoch = s.img.epoch → s.combinable p = false →
          ∀ fits, fits = (p.cls = 2 ∨ p.cls = 6 ∨ (s.reserveOf 64 p.cls p.vc = []
            ∧ s.usedCells p.saggar + packetCells p ≤ s.quotaCells p.saggar ∧ packetCells p ≤ s.poolFree)) →
          (¬ fits → Effect (.packetArrival 64 p f) s (fun u => u.fab = { s.fab with tx := s.fab.tx.erase p }
            ∧ ∃ b, u.swc = { s.swc with nextPid := s.swc.nextPid + 1, reserve := s.swc.reserve ++ [b] }
              ∧ b.pkt = p ∧ b.inReserve = true)) ∧
          (fits → s.route p = none → Effect (.packetArrival 64 p f) s (fun u =>
            u.fab = { s.fab with tx := s.fab.tx.erase p }
            ∧ u.satVal satSwcNoRoute = satAdd 16 (s.satVal satSwcNoRoute) 1)) ∧
          (fits → p.dst = s.fab.node → p.rsv = 0 → classOk p.opcode p.cls = true → Effect (.packetArrival 64 p f) s (fun u =>
            u.fab = { s.fab with tx := s.fab.tx.erase p, inbox := s.fab.inbox ++ [p] }
            ∧ u.arch.lc = (if later p.lc s.arch.lc then p.lc else s.arch.lc)))))) ∧
    (∀ g, g < 64 →
      (s.swc.reserve.find? (fun b => b.pkt.saggar = g && (s.reserveOf b.ingress b.pkt.cls b.inVc).head? = some b) = none → Completes (.quotaRelease g) s s) ∧
      (∀ b, s.swc.reserve.find? (fun b => b.pkt.saggar = g && (s.reserveOf b.ingress b.pkt.cls b.inVc).head? = some b) = some b →
        (s.quotaCells g < s.usedCells g + packetCells b.pkt ∨ s.poolFree < packetCells b.pkt → Completes (.quotaRelease g) s s) ∧
        (s.usedCells g + packetCells b.pkt ≤ s.quotaCells g → packetCells b.pkt ≤ s.poolFree →
          s.reserveOf b.ingress b.pkt.cls b.inVc = [b] →
          Effect (.quotaRelease g) s (fun u => u.swc.reserve = s.swc.reserve.erase b
            ∧ (b.pkt.dst = s.fab.node → b.pkt.rsv = 0 → classOk b.pkt.opcode b.pkt.cls = true →
                u.fab.inbox = s.fab.inbox ++ [b.pkt]))))) ∧
    (∀ port, port < 64 →
      (ahas s.swc.idleTurn port = true ∨ s.usable port = false → Completes (.packetDepart port) s s) ∧
      (ahas s.swc.idleTurn port = false → s.usable port = true →
        ((∀ c, s.vcList port c = none) → Effect (.packetDepart port) s (fun u =>
          u = { s with swc := u.swc } ∧ u.swc.queues = s.swc.queues ∧ u.swc.used = s.swc.used)) ∧
        (∀ cls v b s', (cls = 0 ∨ (cls = 7 ∧ s.vcList port 0 = none)) → s.vcList port cls = some v →
          pickList (port, cls, v) none 130 s = (.send b, s') →
          (b.pkt.hops = 48 → Effect (.packetDepart port) s (fun u => (u.port port).txSeq = (s.port port).txSeq
            ∧ u.satVal satSwcAged = satAdd 16 (s.satVal satSwcAged) 1)) ∧
          (b.pkt.hops ≠ 48 → s.portRole port = 1 → Effect (.packetDepart port) s (fun u =>
            ∃ x, x = stampPkt { b.pkt with hops := b.pkt.hops + 1 }
              ∧ (u.port port).retry = (s.port port).retry ++ (framesOf x (s.port port).txSeq).map (fun y => (y, x))
              ∧ (u.port port).txSeq = ((s.port port).txSeq + (framesOf x (s.port port).txSeq).length) % 4096
              ∧ aget u.wit.totals (b.pkt.saggar, 2) 0 = (aget s.wit.totals (b.pkt.saggar, 2) 0 + packetBytes b.pkt) % 2 ^ 64))) ∧
        (∀ c began v d b s', s.vcList port 0 = none → s.vcList port 7 = none → aget s.swc.classTurn port (1, false) = (c, began) →
          s.vcList port c = some v → d = aget s.swc.classDeficit (port, c) 0 + (if began then 0 else s.classQ port c) →
          pickList (port, c, v) (some d) 130 { s with swc := { s.swc with
              classDeficit := aset s.swc.classDeficit (port, c) d,
              classTurn := aset s.swc.classTurn port (c, true) } } = (.send b, s') →
          b.pkt.hops ≠ 48 → s.portRole port = 1 → Effect (.packetDepart port) s (fun u =>
            ∃ x, x = stampPkt { b.pkt with hops := b.pkt.hops + 1 }
              ∧ (u.port port).retry = (s.port port).retry ++ (framesOf x (s.port port).txSeq).map (fun y => (y, x))
              ∧ aget u.swc.classDeficit (port, c) 0 = d - packetBytes b.pkt)))) ∧
    Effect .shaperRefill s (fun u => u.now = max s.now (s.swc.lastRefill + sclk 4096) ∧ u.swc.lastRefill = u.now
      ∧ u.swc.shaped = (List.range 512).filter (fun k => s.shapeRate k ≠ 0) ∧ u.swc.sagShaped = (List.range 64).filter (fun g => s.sagRate g ≠ 0)
      ∧ u.swc.queues = s.swc.queues
      ∧ (∀ k, k < 512 → s.shapeRate k ≠ 0 →
          aget u.swc.tokens k 0 = min (s.shapeBurst k) (aget s.swc.tokens k 0 + s.shapeRate k))
      ∧ (∀ g, g < 64 → s.sagRate g ≠ 0 →
          aget u.swc.sagTokens g 0 = min (s.sagBurst g) (aget s.swc.sagTokens g 0 + s.sagRate g))
      ∧ (∀ k r, k < 512 → r = s.polRec (k / 8) (k % 8) → polOn r = true → aget u.swc.policer k (0, 0)
          = (min (le r 20 4) ((aget s.swc.policer k (0, 0)).1 + 64 * le r 12 4),
             min (le r 24 4) ((aget s.swc.policer k (0, 0)).2 + 64 * le r 16 4)))) ∧
    (∀ (who : Who) addr (v : Word32), who.wf = true → addr < 2 ^ 40 → s.csrGate who addr true = none →
      (∀ k, k < 512 → addr = 0x0310000 + 0x100 * (k / 8) + 0x10 * (k % 8) → Completes (.shaperWrite who addr v) s
        (answerCsr who addr .ok 0 { s with swc := { s.swc with shape := aset s.swc.shape k v } })) ∧
      (∀ k, k < 512 → addr = 0x0310004 + 0x100 * (k / 8) + 0x10 * (k % 8) → Completes (.shaperWrite who addr v) s
        (answerCsr who addr .ok 0 { s with swc := { s.swc with
          burst := aset s.swc.burst k (if v.toNat % 2 ^ 24 < 16 then aget s.swc.burst k 0x400 else v) } })) ∧
      (∀ g, g < 64 → addr = 0x0380004 + 0x40 * g → Completes (.shaperWrite who addr v) s
        (answerCsr who addr .ok 0 { s with swc := { s.swc with sagShape := aset s.swc.sagShape g v } }))) ∧
    ((s.swc.mirror = [] ∨ s.arch.mp ≠ .run ∨ s.nodeParam 0x020F = 0xFFFF → Completes .sampleExport s s) ∧
      (∀ r rest, s.swc.mirror = r :: rest → s.arch.mp = .run → s.nodeParam 0x020F ≠ 0xFFFF →
        Effect .sampleExport s (fun u => u.swc = { s.swc with mirror := rest } ∧ ∃ x : Packet, u.fab.tx = s.fab.tx ++ [x]
          ∧ x.dst = s.nodeParam 0x020F ∧ x.opcode = opSAMPLE ∧ x.cls = 6 ∧ x.payload = pad8 (r.take 256)))) ∧
    (∀ pid, pid < 2 ^ 64 →
      ((∀ b ∈ s.swc.queues.flatMap (fun q => q.2.pkts) ++ s.swc.reserve, b.pid ≠ pid) → Completes (.packetAgeLimit pid) s s) ∧
      (∀ b, (s.swc.queues.flatMap (fun q => q.2.pkts) ++ s.swc.reserve).find? (fun b => b.pid = pid) = some b →
        Effect (.packetAgeLimit pid) s (fun u => u.now = max s.now (b.arrived + sclk (2 ^ 18) + sclk 1)
          ∧ (∀ x ∈ u.held, x.pid ≠ pid) ∧ (∀ x ∈ s.held, x.pid ≠ pid → x ∈ u.held)
          ∧ u.satVal satSwcAged = satAdd 16 (s.satVal satSwcAged) 1))) ∧
    (Effect .auditPassStart s (fun u => u.now = max s.now (s.swc.auditStart + sclk (2 ^ 24)) ∧ u.swc = { s.swc with
        auditing := true, auditCell := 0, auditStart := u.now, suspects := s.swc.nowSuspect, nowSuspect := [] }) ∧
      (s.swc.auditing = false → Completes .auditCellVisit s s) ∧
      (s.swc.auditing = true → Effect .auditCellVisit s (fun u => u.swc.auditCell = s.swc.auditCell + 1
        ∧ (s.swc.leaked.contains s.swc.auditCell = true → s.swc.suspects.contains s.swc.auditCell = true →
            u.swc.leaked = s.swc.leaked.erase s.swc.auditCell
            ∧ u.satVal satSwcLeaked = satAdd 16 (s.satVal satSwcLeaked) 1)
        ∧ (s.swc.leaked.contains s.swc.auditCell = true → s.swc.suspects.contains s.swc.auditCell = false →
            u.swc.leaked = s.swc.leaked ∧ u.swc.nowSuspect = s.swc.nowSuspect ++ [s.swc.auditCell])
        ∧ (s.swc.leaked.contains s.swc.auditCell = false → u.swc.leaked = s.swc.leaked ∧ u.swc.nowSuspect = s.swc.nowSuspect)))) ∧
    (∀ port cls vc g, port < 64 → cls < 8 → g < 64 →
      ((∀ x, afind s.swc.idleTurn port = some x → x.2 ≠ (cls, vc, g)) → Completes (.confIdleTurn port cls vc g) s s) ∧
      (∀ d, afind s.swc.idleTurn port = some (d, cls, vc, g) →
        Effect (.confIdleTurn port cls vc g) s (fun u => u.now = max s.now d ∧ u.swc.idleTurn = aerase s.swc.idleTurn port
          ∧ u.list (port, cls, vc) = (s.list (port, cls, vc)).endTurn true
          ∧ aget u.swc.vcTurn (port, cls) false = !vc ∧ u.swc.queues = s.swc.queues)))

/-- O49. Training, the exchange, frames, acknowledgements, replay and link down. A port passes through its
training states only in order and within their budgets, and enters UP only where the neighbour, the roles and
the version match. A valid frame brings credits, the clock and its acknowledgement, which alone takes frames
out of the retry buffer; a replay request sends the named frame and all after it again, and a ninth one takes
the link down. A link that goes down trains again with an empty retry buffer, and nothing stays queued for it.
Basis: derived, R415, R416, R418, R419, R420, R421, R422, R423, R424. -/
def Obligations.LinkLayer : Prop :=
  ∀ (s : State) (port : Nat) (x : Port), port < 64 → x = s.port port → ∀ down : State → Prop,
    down = (fun u => (u.port port).lst = 1 ∧ (u.port port).retry = []
      ∧ u.satVal (satPrtLinkDown port) = satAdd 16 (s.satVal (satPrtLinkDown port)) 1
      ∧ (s.linked port = true → ∀ q ∈ u.swc.queues, q.1.1 = port → q.2.pkts = [])) →
    ((¬ (x.lst = 0 ∧ s.linked port = true ∧ x.fence.on = false ∧ x.retryAt = none) → Completes (.linkSignalDetect port) s s) ∧
      (x.lst = 0 → s.linked port = true → x.fence.on = false → x.retryAt = none → Completes (.linkSignalDetect port) s
        { s with prt := aset s.prt port { x with lst := 1, deadline := some (s.now + sclk (2 ^ 29)), lost := [] } })) ∧
    (∀ lanes good, lanes < 512 → good = (List.range 9).filter (fun l => bit lanes l) →
      (x.lst ≠ 1 → Completes (.linkTrainDone port lanes) s s) ∧
      (x.lst = 1 → good.length < 4 → Completes (.linkTrainDone port lanes) s { s with prt := aset s.prt port { x with
        lst := 0, deadline := none, retryAt := some (s.now + sclk (2 ^ 30)) } }) ∧
      (x.lst = 1 → 4 ≤ good.length → Completes (.linkTrainDone port lanes) s { s with prt := aset s.prt port { x with
        lst := 2, deadline := some (s.now + sclk (2 ^ 22)), width := if 8 ≤ good.length then 8 else 4
        lost := (List.range 9).filter (fun l => !good.contains l) } })) ∧
    ((x.lst ≠ 2 → Completes (.linkAlignDone port) s s) ∧
      (x.lst = 2 → Completes (.linkAlignDone port) s { s with
        prt := aset s.prt port { x with
          lst := 3, deadline := some (s.now + sclk (2 ^ 22)), map := List.range 8, txMap := List.range 8 }
        out := s.out ++ [.exch port (s.exchBody port)] })) ∧
    (∀ b : ExchBody, b.wf = true → ∀ good, good = (b.node = portNeighbour (s.portRec port)
        ∧ ((s.portRole port = 1 ∧ b.role = 1) ∨ (s.portRole port = 2 ∧ b.role = 3)) ∧ b.lver = 1) →
      (x.lst ≠ 3 → Completes (.linkExch port b) s s) ∧
      (x.lst = 3 → good → Effect (.linkExch port b) s (fun u =>
        u = { s with prt := u.prt, arch := { s.arch with lc := if later b.lc s.arch.lc then b.lc else s.arch.lc } } ∧ (u.port port).lst = 4
        ∧ (u.port port).peer = b.node ∧ (u.port port).txSeq = 0 ∧ (u.port port).rxSeq = 0 ∧ (u.port port).deadline = none
        ∧ (∀ cls vc, cls < 8 → cls ≠ 6 → (u.port port).credits (crSel cls vc) = 128)
        ∧ (∀ k, k ≠ port → u.port k = s.port k))) ∧
      (x.lst = 3 → ¬ good → Effect (.linkExch port b) s (fun u =>
        u.port port = { x with lst := 0, deadline := none, retryAt := some (s.now + sclk (2 ^ 30)) }
        ∧ u.satVal (satPrtMiscabled port) = satAdd 16 (s.satVal (satPrtMiscabled port)) 1))) ∧
    ((x.deadline = none ∨ x.lst = 0 ∨ 4 ≤ x.lst → Completes (.linkStateTimeout port) s s) ∧
      (∀ d, x.deadline = some d → 1 ≤ x.lst → x.lst ≤ 3 → Completes (.linkStateTimeout port) s
        { carry (d + sclk 1) s with
          prt := aset s.prt port { x with lst := 0, deadline := none, retryAt := some (max s.now (d + sclk 1) + sclk (2 ^ 30)) } })) ∧
    ((x.retryAt = none → Completes (.linkRetrainTimer port) s s) ∧
      (∀ d, x.retryAt = some d → x.fence.on = false → s.linked port = true → Effect (.linkRetrainTimer port) s (fun u =>
        u.now = max s.now d ∧ u.port port = { x with
          retryAt := none, lst := 1, deadline := some (max s.now d + sclk (2 ^ 29)), lost := [] })) ∧
      (∀ d, x.retryAt = some d → x.fence.on = true ∨ s.linked port = false → Completes (.linkRetrainTimer port) s
        { carry d s with prt := aset s.prt port { x with retryAt := none } })) ∧
    (∀ f : LinkFrame, f.wf = true →
      (x.lst ≠ 4 → Completes (.linkIdleFrame port f) s s ∧ Completes (.linkReplayReq port f) s s) ∧
      (x.lst = 4 → f.fcrcOk = false → x.replayReq ≠ none →
        Completes (.linkIdleFrame port f) s s ∧ Completes (.linkReplayReq port f) s s) ∧
      (x.lst = 4 → f.fcrcOk = true →
        Effect (.linkIdleFrame port f) s (fun u => u = { s with arch := u.arch, prt := u.prt, ctr := u.ctr }
          ∧ u.arch.lc = (if later f.lc s.arch.lc then f.lc else s.arch.lc)
          ∧ aget u.ctr (ctrPrtFrames port) {} = (aget s.ctr (ctrPrtFrames port) {}).add 1
          ∧ (u.port port).silence = some (s.now + sclk 2048)
          ∧ (∀ k, k % 8 ≠ 6 → aget (u.port port).crTot k 0 = if k = f.crSel1 then f.crTot1
              else if k = f.crSel0 then f.crTot0 else aget x.crTot k 0)
          ∧ (u.port port).retry = (if f.ackV then x.retry.filter (fun y => !seqLe y.1.fseq f.ack) else x.retry)
          ∧ (u.port port).rxSeq = x.rxSeq ∧ (u.port port).txSeq = x.txSeq) ∧
        (∀ rt rp fs, rt = (if f.ackV then x.retry.filter (fun y => !seqLe y.1.fseq f.ack) else x.retry) →
          rp = (if f.ackV then x.replays.filter (fun r => !seqLe r.1 f.ack) else x.replays) →
          fs = rt.dropWhile (fun y => y.1.fseq ≠ f.fseq) → f.lop ≠ 6 → fs ≠ [] →
          (aget rp f.fseq 0 < 8 → Effect (.linkReplayReq port f) s (fun u => (u.port port).retry = rt
            ∧ (u.port port).lst = 4 ∧ aget (u.port port).replays f.fseq 0 = aget rp f.fseq 0 + 1
            ∧ ∃ l, u.out = s.out ++ l ∧ l.map (fun o => match o with | .frame _ g q => (g.fseq, q) | _ => (0, none))
                = fs.map (fun y => (y.1.fseq, some y.2)))) ∧
          (8 ≤ aget rp f.fseq 0 → Effect (.linkReplayReq port f) s down)))) ∧
    ((x.idle = none ∨ x.lst ≠ 4 → Completes (.linkIdleDue port) s s) ∧
      (∀ d, x.idle = some d → x.lst = 4 → Effect (.linkIdleDue port) s (fun u => u.now = max s.now d
        ∧ (u.port port).idle = some (u.now + sclk 512) ∧ ∃ g : LinkFrame, u.out = s.out ++ [.frame port g none] ∧ g.ftype = 2
          ∧ g.lc = s.arch.lc ∧ g.ack = x.ackSeq ∧ g.ackV = x.ackV ∧ g.srcNode = s.fab.node))) ∧
    ((x.replayReq = none ∨ x.replayDeadline = none → Completes (.replayReqRepeat port) s s) ∧
      (∀ n d, x.replayReq = some n → x.replayDeadline = some d → Effect (.replayReqRepeat port) s (fun u =>
        u.now = max s.now (d + sclk 1) ∧ (u.port port).replayDeadline = some (u.now + sclk 1024) ∧ (u.port port).replayReq = some n
        ∧ ∃ g : LinkFrame, u.out = s.out ++ [.frame port g none] ∧ g.ftype = 3 ∧ g.fseq = n))) ∧
    ((x.silence = none → Completes (.linkSilenceTimeout port) s s) ∧
      (∀ d, x.silence = some d → x.lst ≠ 4 → Completes (.linkSilenceTimeout port) s (carry (d + sclk 1) s)) ∧
      (∀ d, x.silence = some d → x.lst = 4 → Effect (.linkSilenceTimeout port) s down)) ∧
    ((x.digestDeadline = none → Completes (.digestMismatchTimeout port) s s) ∧
      (∀ d, x.digestDeadline = some d → Effect (.digestMismatchTimeout port) s (fun u => u.now = max s.now (d + sclk 1)
        ∧ u.port port = { x with digestDeadline := none, digestTold := true }
        ∧ u.satVal (satPrtDigest port) = satAdd 16 (s.satVal (satPrtDigest port)) 1))) ∧
    (∀ lanes, lanes < 512 →
      (((List.range 9).filter (fun l => bit lanes l)).length < 2 ∨ x.lst ≠ 4 → Completes (.fecLockLoss port lanes) s s) ∧
      (2 ≤ ((List.range 9).filter (fun l => bit lanes l)).length → x.lst = 4 → Effect (.fecLockLoss port lanes) s down))

/-- O50. Lane moves, recalibration, port control, CXL hosts and modules. A lane lost moves its traffic to a free
lane with an EMERGENCY replay, or takes the link down. A planned move goes through its stages in order, and
the maps change from the announced frame on. A visit takes the next lane and ends with its eye recorded, or
the lane retired. PRT_CTRL fences, lifts, unretires, visits and retrains by its writers' rights. A CXL request
enters the fabric under its LD's node and saggar, or fails at its host. A lost CXL link ends its requests.
Basis: derived, R398, R424, R425, R426, R427, R428, R429, R430, R434, R435, R436, R437. -/
def Obligations.LanesAndEdges : Prop :=
  ∀ (s : State) (port : Nat) (x : Port), port < 64 → x = s.port port →
    (∀ lane sp, lane < 9 →
      (x.lst ≠ 4 → Completes (.laneLost port lane) s s) ∧
      (x.lst = 4 → sp = (if portSpareOk (s.portRec port) then (Port.freeLanes { x with
          lost := x.lost.eraseDups ++ (if x.lost.contains lane then [] else [lane]) }) else []) →
        (x.map.idxOf? lane = none → Effect (.laneLost port lane) s (fun u => (u.port port).map = x.map ∧ (u.port port).lst = 4
          ∧ u.satVal (satPrtLaneLost port) = satAdd 16 (s.satVal (satPrtLaneLost port)) 1)) ∧
        (∀ k, x.map.idxOf? lane = some k → sp = [] → Effect (.laneLost port lane) s (fun u => (u.port port).lst = 1
          ∧ (u.port port).retry = [])) ∧
        (∀ k t r, x.map.idxOf? lane = some k → sp = t :: r → Effect (.laneLost port lane) s (fun u => (u.port port).lst = 4
          ∧ (u.port port).map = x.map.set k t ∧ (u.port port).rxMove = none ∧ (u.port port).replayReq.isSome = true
          ∧ ∃ g : LinkFrame, .frame port g none ∈ u.out ∧ g.ftype = 3 ∧ g.lop = 6 ∧ g.lane = k)))) ∧
    (∀ lane (restore : Bool) c t, lane < 9 → c = (if restore then Instr.lopReqRestore port lane else .lopReqSwap port lane) →
      t = (if restore then (if ((List.range 9).filter (fun l => !x.txMap.contains l)).contains lane then some lane else none)
        else ((List.range 9).filter (fun l => !x.txMap.contains l)).getLast?) →
      (t = none ∨ x.lst ≠ 4 ∨ lane = 8 ∨ portSpareOk (s.portRec port) = false → Completes c s s) ∧
      (∀ k, t = some k → x.lst = 4 → lane < 8 → portSpareOk (s.portRec port) = true → Effect c s (fun u =>
        (u.port port).txMove = some { lane := lane, target := k, stage := 2, restore := restore } ∧ (u.port port).txMap = x.txMap
        ∧ ∃ g : LinkFrame, u.out = s.out ++ [.frame port g none] ∧ g.ftype = 2 ∧ g.lop = 2 ∧ g.lane = lane))) ∧
    (∀ lane n, lane < 9 → n < 4096 →
      (x.rxMove = none → Completes (.lopMirrorOn port lane) s s ∧ Completes (.mirrorMatched port) s s
        ∧ Completes (.lopSwitchAt port lane n) s s) ∧
      (∀ m, x.rxMove = some m → m.lane = lane →
        (m.stage = 1 → x.lst = 4 → Completes (.lopMirrorOn port lane) s { s with prt := aset s.prt port { x with
          rxMove := some { m with stage := 2 }, mirrorDeadline := some (s.now + sclk (2 ^ 12)), spareBusy := true } }) ∧
        (∀ d, m.stage = 2 → x.mirrorDeadline = some d → Effect (.mirrorMatched port) s (fun u => u.now = max s.now d
          ∧ (u.port port).rxMove = some { m with stage := 3 }
          ∧ ∃ g : LinkFrame, u.out = s.out ++ [.frame port g none] ∧ g.ftype = 2 ∧ g.lop = 3 ∧ g.lane = lane)) ∧
        (m.stage = 3 → Completes (.lopSwitchAt port lane n) s { s with prt := aset s.prt port { x with
          rxMove := some { m with stage := 4, atFseq := n } } }) ∧
        (m.stage ≠ 3 → Completes (.lopSwitchAt port lane n) s s)) ∧
      (∀ m, x.txMove = some m → m.lane = lane → m.stage = 2 → Effect (.lopReady port lane) s (fun u =>
        (u.port port).txMove = some { m with stage := 4, atFseq := (x.txSeq + 16) % 4096 }
        ∧ ∃ g : LinkFrame, u.out = s.out ++ [.frame port g none] ∧ g.lop = 4 ∧ g.lane = lane ∧ g.atFseq = (x.txSeq + 16) % 4096)) ∧
      (x.txMove = none → Completes (.lopReady port lane) s s)) ∧
    (Effect (.laneMapSwitch port) s (fun u => u = { s with prt := u.prt } ∧ (∀ k, k ≠ port → u.port k = s.port k)
      ∧ (∀ m, x.rxMove = some m → m.stage = 4 → seqLe m.atFseq x.rxSeq = true →
          (u.port port).map = x.map.set m.lane m.target ∧ (u.port port).rxMove = none)
      ∧ (∀ m, x.rxMove = some m → m.stage ≠ 4 ∨ seqLe m.atFseq x.rxSeq = false →
          (u.port port).map = x.map ∧ (u.port port).rxMove = some m)
      ∧ (∀ m, x.txMove = some m → m.stage = 4 → seqLe m.atFseq x.txSeq = true →
          (u.port port).txMap = x.txMap.set m.lane m.target ∧ (u.port port).txMove = none))) ∧
    (∀ lane n, lane < 9 → n < 4096 →
      (x.lst ≠ 4 ∨ lane = 8 → Completes (.lopEmergency port lane n) s s) ∧
      (∀ k fs, x.lst = 4 → lane < 8 → ((List.range 9).filter (fun l => !x.txMap.contains l)).getLast? = some k →
        fs = x.retry.dropWhile (fun y => y.1.fseq ≠ n) → fs = [] ∨ aget x.replays n 0 < 8 →
        Effect (.lopEmergency port lane n) s (fun u => (u.port port).txMap = x.txMap.set lane k ∧ (u.port port).txMove = none
          ∧ (u.port port).retry = x.retry
          ∧ ∃ l, u.out = s.out ++ l ∧ l.map (fun o => match o with | .frame _ g q => (g.fseq, q) | _ => (0, none))
              = fs.map (fun y => (y.1.fseq, some y.2))))) ∧
    (∀ visited : State → Prop, visited = (fun u => (u.port port).rotActive = true ∧ (u.port port).rotLane = x.rotNext
        ∧ (u.port port).rotNext = (x.rotNext + 1) % 9 ∧ (u.port port).map = x.map
        ∧ (u.port port).rotDeadline = some (u.now + sclk (2 ^ s.nodeParam 0x0209))) →
      (x.rotDeadline = none ∨ s.mayVisit port = false → Completes (.rotationVisit port) s s) ∧
      (∀ d, x.rotDeadline = some d → s.mayVisit port = true →
        Effect (.rotationVisit port) s (fun u => u.now = max s.now d ∧ visited u)) ∧
      (∀ who : Who, who.wf = true → s.csrGate who (prtCtrl port) true = none →
        (s.mayVisit port = false → Completes (.rotNow who port) s (answerCsr who (prtCtrl port) .ok 0 s)) ∧
        (s.mayVisit port = true → Effect (.rotNow who port) s visited))) ∧
    (∀ w h l, w < 1024 → h < 256 → l = x.rotLane →
      (x.lst ≠ 4 ∨ x.rotActive = false ∨ x.recalDeadline = none ∨ x.rxMove ≠ none →
        Completes (.recalibrationDone port w h) s s) ∧
      (x.lst = 4 → x.rotActive = true → x.recalDeadline ≠ none → x.rxMove = none →
        Effect (.recalibrationDone port w h) s (fun u => (u.port port).margin = aset x.margin l (w, h)
          ∧ (u.port port).recalDeadline = none ∧ (u.port port).map = x.map
          ∧ ((w < s.nodeParam 0x020C ∨ h < s.nodeParam 0x020D) →
              (u.port port).retired = x.retired ++ [l] ∧ (u.port port).rotActive = false)
          ∧ (¬ (w < s.nodeParam 0x020C ∨ h < s.nodeParam 0x020D) → (u.port port).retired = x.retired)))) ∧
    (∀ who : Who, who.wf = true → s.csrGate who (prtCtrl port) true = none →
      (Effect (.prtFence who port) s (fun u => (u.port port).fence = { on := true, cause := fenceCauseOf who }
        ∧ (u.port port).lst = (if x.lst = 5 then 5 else 0) ∧ (x.lst = 4 → (u.port port).retry = [])
        ∧ .csr who (prtCtrl port) .ok 0 ∈ u.out)) ∧
      (liftsFence who = true → Completes (.prtUnfence who port) s
        (answerCsr who (prtCtrl port) .ok 0 { s with prt := aset s.prt port { x with fence := {} } })) ∧
      (liftsFence who = false → Completes (.prtUnfence who port) s (answerCsr who (prtCtrl port) .denied 0 s)) ∧
      (who = .control → Effect (.prtUnretire who port) s (fun u => (u.port port).retired = [] ∧ (u.port port).map = x.map)) ∧
      (who ≠ .control → Completes (.prtUnretire who port) s (answerCsr who (prtCtrl port) .denied 0 s)) ∧
      Effect (.retrain who port) s (fun u => (u.port port).lst = (if x.lst = 5 then 5 else 0)
        ∧ (u.port port).fence = x.fence ∧ (x.lst = 4 → (u.port port).retry = []))) ∧
    (∀ ld dpa tag (data : List Byte) c (wr : Bool), ld < 16 → dpa < 2 ^ 48 → tag < 65536 →
      c = (if wr then Instr.memwr port ld dpa tag data else .memrd port ld dpa tag) →
      (x.cxlUp = false ∨ x.fence.on = true ∨ s.ldRec? port ld = none → Completes c s s) ∧
      (∀ r, x.cxlUp = true → x.fence.on = false → s.ldRec? port ld = some r →
        (ldTarget r dpa = none → Effect c s (fun u => .cxl port ld tag (if wr then [] else zeros 64) (!wr) ∈ u.out
          ∧ (u.port port).ldEvents = x.ldEvents ++ [{ ld := ld, status := Status.denied.code, dpa := dpa }]
          ∧ u.fab = s.fab)) ∧
        (∀ node off, ldTarget r dpa = some (node, off) → s.maySend (.edge port) node r.saggar = true →
          s.grainHeld (.edge port) node off = false → x.cxlWait = [] → Effect c s (fun u =>
            (u.port port).cxlReqs = x.cxlReqs ++ [{ ld := ld, hostTag := tag, dpa := dpa, write := wr, tag := s.nextTag }]
            ∧ ∃ p ∈ u.fab.tx, p.dst = node ∧ p.src = r.endpoint ∧ p.saggar = r.saggar ∧ p.offset = off ∧ p.tag = s.nextTag
              ∧ p.opcode = (if wr then opWRITE else opREAD) ∧ p.length = 64
              ∧ p.payload = (if wr then fit data 64 else [])
              ∧ p.trailer = (if wr then trailerOf off (fit data 64) else []))) ∧
        (∀ node off, ldTarget r dpa = some (node, off) →
          s.maySend (.edge port) node r.saggar = false ∨ s.grainHeld (.edge port) node off = true →
          Completes c s { s with prt := aset s.prt port { x with cxlWait := x.cxlWait ++
            [{ ld := ld, hostTag := tag, dpa := dpa, data := if wr then some (fit data 64) else none }] } }))) ∧
    ((s.portRole port ≠ 3 ∨ x.cxlUp = false → Completes (.cxlLinkDown port) s s) ∧
      (s.portRole port = 3 → x.cxlUp = true → Effect (.cxlLinkDown port) s (fun u => (u.port port).cxlUp = false
        ∧ (u.port port).cxlReqs = [] ∧ (u.port port).lst = 0 ∧ aget u.coh.snoop port [] = []
        ∧ u.satVal (satPrtLinkDown port) = satAdd 16 (s.satVal (satPrtLinkDown port)) 1)) ∧
      (s.portRole port = 3 → exec (.moduleRemoval port) s = exec (.cxlLinkDown port) s) ∧
      (s.portRole port ≠ 3 → x.lst = 4 → Effect (.moduleRemoval port) s (fun u => (u.port port).lst = 0
        ∧ (u.port port).retry = [])) ∧
      (s.portRole port ≠ 3 → x.lst ≠ 4 → x.lst ≠ 5 → Completes (.moduleRemoval port) s
        { s with prt := aset s.prt port { x with lst := 0, deadline := none } })) ∧
    (∀ gtps width, gtps < 65 → width < 17 →
      (s.portRole port = 3 ∧ 32 ≤ gtps ∧ x.fence.on = false ∧ width ∈ [1, 2, 4, 8] →
        Completes (.cxlLinkUp port gtps width) s { s with prt := aset s.prt port { x with
          cxlUp := true, cxlRate := gtps, width := width, lst := 4 } }) ∧
      (¬ (s.portRole port = 3 ∧ 32 ≤ gtps ∧ x.fence.on = false ∧ width ∈ [1, 2, 4, 8]) →
        Completes (.cxlLinkUp port gtps width) s s)) ∧
    (∀ r : ModuleReading, r.port < 64 →
      (s.arch.mp ≠ .run ∨ (s.nodeParam 0x020E < r.margin ∧ r.alarm = false) → Completes (.modulePoll [r]) s s) ∧
      (s.arch.mp = .run → s.nodeParam 0x020E < r.margin → r.alarm = true →
        Completes (.modulePoll [r]) s (logEvent 0x0707 r.port none [r.monitor, r.value] s)))

/-- O51. The host link trains, replays, goes down and relays. The link passes from DOWN through LOCK, ALIGN and
INIT to UP in order, each within its time. A sequenced frame is taken only in order and whole; any other is
discarded and asked for again. A replay request sends the frame named and all after it; the eighth resend of
one, or silence, takes the link down, which empties the retry buffer and ends every direct session. A frame
for another chip goes on as an MGMT train or waits. Relayed frames are delivered in the order of RSEQ; a gap
that lasts ends the session. A record leaves the ring once every fragment is acknowledged. Basis: derived,
R440, R441, R443, R444, R445, R446, R455, R456, R457. -/
def Obligations.JaesqueLink : Prop :=
  ∀ s : State, ∀ down : State → Prop, down = (fun u => u.jsl.lst = 0 ∧ u.jsl.retry = [] ∧ u.jsl.replayReq = none
      ∧ (∀ k x, afind u.jsl.sessions k = some x → x.via ≠ none)
      ∧ u.satVal satJslLinkDown = satAdd 16 (s.satVal satJslLinkDown) 1) →
    ((¬ (s.jsl.lst = 0 ∧ s.jsl.retryAt = none ∧ s.log.up = true ∧ s.jsl.closing = false) → Completes .jqSignalDetect s s) ∧
      (s.jsl.lst = 0 → s.jsl.retryAt = none → s.log.up = true → s.jsl.closing = false → Completes .jqSignalDetect s
        { s with jsl := { s.jsl with lst := 1, deadline := some (s.now + sclk (2 ^ 26)) } }) ∧
      (s.jsl.lst ≠ 1 → Completes .jqLockDone s s) ∧
      (s.jsl.lst = 1 → Completes .jqLockDone s
        { s with jsl := { s.jsl with lst := 2, deadline := some (s.now + sclk (2 ^ 20)) } }) ∧
      (s.jsl.lst ≠ 2 → Completes .jqAlignDone s s) ∧
      (s.jsl.lst = 2 → Completes .jqAlignDone s { s with
        jsl := { s.jsl with lst := 3, deadline := some (s.now + sclk (2 ^ 24)) }
        out := s.out ++ [.jq { ftype := 4, len := 32 } s.initPayload] }) ∧
      (∀ b : InitBody,
        (s.jsl.lst ≠ 3 ∨ b.lver ≠ 1 → Completes (.jqInit b) s s) ∧
        (s.jsl.lst = 3 → b.lver = 1 → Effect (.jqInit b) s (fun u => u = { s with jsl := u.jsl } ∧ u.jsl.lst = 4
          ∧ u.jsl.deadline = none ∧ u.jsl.txSeq = 0 ∧ u.jsl.rxSeq = 0 ∧ u.jsl.crUsed = [0, 0, 0, 0]
          ∧ u.jsl.crRet = [16, 32, 2, 4] ∧ (∀ i, i < 4 → u.jsl.crTot.getD i 0 = b.credits.getD i 0 % 256)))) ∧
      (s.jsl.deadline = none → Completes .jqStateTimeout s s) ∧
      (∀ d t, s.jsl.deadline = some d → t = carry (d + sclk 1) s → Completes .jqStateTimeout s { t with
        jsl := { t.jsl with lst := 0, deadline := none, retryAt := some (max s.now (d + sclk 1) + sclk (2 ^ 26)) } }) ∧
      (s.jsl.retryAt = none → Completes .jqRetryTimer s s) ∧
      (∀ d t, s.jsl.retryAt = some d → t = carry d s → Completes .jqRetryTimer s { t with
        jsl := { t.jsl with lst := 1, retryAt := none, deadline := some (max s.now d + sclk (2 ^ 26)) } })) ∧
    ((s.jsl.idle = none ∨ s.jsl.lst ≠ 4 → Completes .jqIdleDue s s) ∧
      (∀ d, s.jsl.idle = some d → s.jsl.lst = 4 → s.jsl.relayWait = [] → Effect .jqIdleDue s (fun u => u.now = max s.now d
        ∧ u.jsl.idle = some (u.now + sclk (2 ^ 12)) ∧ ∃ g : JqFrame, u.out = s.out ++ [.jq g []] ∧ g.ftype = 2 ∧ g.ack = s.jsl.ack
          ∧ g.ackV = s.jsl.ackV ∧ g.crCsr = s.jsl.crRet.getD 0 0)) ∧
      (s.jsl.replayDeadline = none → Completes .jqReplayRepeat s s) ∧
      (∀ d, s.jsl.replayDeadline = some d → Effect .jqReplayRepeat s (fun u => u.now = max s.now (d + sclk 1)
        ∧ u.jsl.replayReq = some s.jsl.rxSeq ∧ u.jsl.replayDeadline = some (u.now + sclk (2 ^ 12))
        ∧ ∃ g : JqFrame, u.out = s.out ++ [.jq g []] ∧ g.ftype = 3 ∧ g.fseq = s.jsl.rxSeq)) ∧
      (s.jsl.silence = none → Completes .jqSilenceTimeout s s) ∧
      (∀ d, s.jsl.silence = some d → Effect .jqSilenceTimeout s down)) ∧
    (∀ f : JqFrame, f.wf = true →
      (s.jsl.lst ≠ 4 → Completes (.jqIdleFrame f) s s ∧ Completes (.jqReplayReq f) s s) ∧
      (s.jsl.lst = 4 → f.crcOk = false ∨ f.rsv ≠ 0 → ∀ c ∈ [Instr.jqIdleFrame f, .jqReplayReq f], Effect c s (fun u =>
        u.jsl.lst = 4 ∧ u.jsl.rxSeq = s.jsl.rxSeq ∧ u.jsl.retry = s.jsl.retry
        ∧ u.satVal satJslCrc = satAdd 16 (s.satVal satJslCrc) 1)) ∧
      (s.jsl.lst = 4 → f.crcOk = true → f.rsv = 0 →
        Effect (.jqIdleFrame f) s (fun u => u.jsl.silence = some (s.now + sclk (2 ^ 16))
          ∧ u.jsl.crTot = [f.crCsr, f.crBulk, f.crEvent, f.crRecord] ∧ u.jsl.rxSeq = s.jsl.rxSeq
          ∧ (f.ackV = false ∨ (∀ y ∈ s.jsl.retry, y.f.fseq ≠ f.ack) → u.jsl.retry = s.jsl.retry ∧ u.fab = s.fab)
          ∧ (∀ i, f.ackV = true → i = s.jsl.retry.findIdx (fun y => y.f.fseq = f.ack) → i < s.jsl.retry.length →
              u.jsl.retry = s.jsl.retry.drop (i + 1)
              ∧ ∀ y ∈ s.jsl.retry.take (i + 1), ∀ p, y.reply = some p →
                ∃ t ∈ u.fab.tx, t.tag = p.tag ∧ t.dst = p.src ∧ t.status = Status.ok.code)) ∧
        (∀ i l, f.ackV = false → i = s.jsl.retry.findIdx (fun y => y.f.fseq = f.fseq) → l = s.jsl.retry.drop i →
          (l.any (fun y => decide (8 ≤ y.resends + 1)) = true → Effect (.jqReplayReq f) s down) ∧
          (l.any (fun y => decide (8 ≤ y.resends + 1)) = false → Effect (.jqReplayReq f) s (fun u => u.jsl.lst = 4
            ∧ u.jsl.retry.map (·.f) = s.jsl.retry.map (·.f) ∧ u.fab = s.fab
            ∧ ∃ o, u.out = s.out ++ o ∧ o.map (fun x => match x with | .jq g b => (g.ftype, g.fseq, b) | _ => (0, 0, []))
                = l.map (fun y => (y.f.ftype, y.f.fseq, y.payload)))))) ∧
      (∀ (h : HelloMsg) (sig data dg : List Byte) (n tag addr kind xfer total off sev g wtag : Nat) (ws : List Word32) (en : Bool),
        n < 256 → tag < 65536 → addr < 2 ^ 40 → kind < 256 → xfer < 65536 → total < 2 ^ 32 → off < 2 ^ 32 → sev < 16 → g < 64 →
        wtag < 2 ^ 64 → ∀ c k fs, (c, k) ∈ [(Instr.hello f h, 2), (.proof f sig, max 1 (ceilDiv sig.length 1016))]
            ++ [Instr.sessionClose f, .jqCsrRead f n tag addr, .jqCsrWrite f n tag addr ws, .bulkBegin f kind xfer total,
              .bulkData f xfer off data, .bulkEnd f xfer dg, .subscribe f en sev, .witnessRead f g wtag].map (fun c => (c, 1)) →
          fs = (if k = 1 then [f] else (List.range k).map (fun i => { f with
            fseq := (f.fseq + i) % 256, len := (sub f.payload (1024 * i) 1024).length, payload := sub f.payload (1024 * i) 1024 })) →
        (s.jsl.lst ≠ 4 → Completes c s s) ∧
        (s.jsl.lst = 4 → f.ackV = false →
          (f.crcOk = false ∨ f.rsv ≠ 0 ∨ f.fseq ≠ s.jsl.rxSeq → Effect c s (fun u => u.jsl.rxSeq = s.jsl.rxSeq
            ∧ u.jsl.replayReq = some s.jsl.rxSeq ∧ u.jsl.waiting = s.jsl.waiting ∧ u.fab = s.fab
            ∧ ∃ q : JqFrame, u.out = s.out ++ [.jq q []] ∧ q.ftype = 3 ∧ q.fseq = s.jsl.rxSeq)) ∧
          (f.crcOk = true → f.rsv = 0 → f.fseq = s.jsl.rxSeq → f.tnode ≠ 0xFFFF → f.tnode ≠ s.fab.node → s.jsl.relayWait = [] →
            ∀ m q, m = (if s.arch.mp = .run then min k (8 - (s.relayBusy (f.tnode, jqClass f)).length) else 0) →
              q = aget s.jsl.relayTx (f.tnode, f.sid, 0) 0 → Effect c s (fun u =>
                u.jsl.rxSeq = (s.jsl.rxSeq + k) % 256 ∧ u.jsl.ack = (s.jsl.rxSeq + k + 255) % 256 ∧ u.jsl.ackV = true
                ∧ u.jsl.relayWait = fs.drop m
                ∧ u.jsl.crRet = (List.range m).foldl (fun r _ => bump256 r (jqClass f)) s.jsl.crRet
                ∧ ∃ l, u.fab.tx = s.fab.tx ++ l
                  ∧ (∀ t ∈ l, t.dst = f.tnode ∧ t.src = s.fab.node ∧ t.opcode = opMGMT ∧ t.cls = 7 ∧ t.payload.length ≤ 512)
                  ∧ l.flatMap (·.payload) = ((fs.take m).zip (List.range m)).flatMap (fun y =>
                    natLe (if y.2 = 0 then q else (q + y.2) % 65536) 8 ++ jqHeader y.1 ++ y.1.payload)))))) ∧
    (∀ p : Packet, p.wf = true → trainPart p = true →
      (joinTrain ((addPart p s.fab.frags).filter (sameTrain p)) = none →
        Completes (.mgmt p) s { s with fab := { s.fab with inbox := s.fab.inbox.erase p, frags := addPart p s.fab.frags } }) ∧
      (∀ w, joinTrain ((addPart p s.fab.frags).filter (sameTrain p)) = some w →
        Completes (.mgmt p) s (mgmt w { s with fab := { s.fab with
          inbox := s.fab.inbox.erase p, frags := (addPart p s.fab.frags).filter (fun q => !sameTrain p q) } }))) ∧
    (∀ (p : Packet) k n d, p.wf = true → trainPart p = false → k = mgKey p → n = aget s.jsl.relayRx k 0 → d = (mgSeq p + 65536 - n) % 65536 →
      (classOk p.opcode p.cls = false → Effect (.mgmt p) s (fun u => Answered p .denied 0 [] s u ∧ u.jsl = s.jsl)) ∧
      (classOk p.opcode p.cls = true →
        (mgBack p = true → s.arch.mp ≠ .run → Completes (.mgmt p) s (if s.fab.inbox.contains p then s else
          { s with fab := { s.fab with inbox := s.fab.inbox ++ [p] } })) ∧
        (mgBack p = false →
          (16 < d → Completes (.mgmt p) s (take p s)) ∧
          (0 < d → d ≤ 16 → Effect (.mgmt p) s (fun u => u.fab = (take p s).fab ∧ aget u.jsl.relayRx k 0 = n
            ∧ (mgSeq p, p) ∈ aget u.jsl.relayHeld k []
            ∧ (∀ y ∈ aget s.jsl.relayHeld k [], y.1 ≠ mgSeq p → y ∈ aget u.jsl.relayHeld k []))) ∧
          (d = 0 → aget s.jsl.relayHeld k [] = [] → (mgFrame p).sid ≠ 0 → afind s.jsl.sessions (mgFrame p).sid = none →
            Effect (.mgmt p) s (fun u => u.fab = (take p s).fab ∧ aget u.jsl.relayRx k 0 = (n + 1) % 65536
              ∧ u.jsl.waiting = s.jsl.waiting))))) ∧
    (∀ sid, sid < 8 →
      (afind s.jsl.relayDeadline sid = none → Completes (.relayGapTimeout sid) s s) ∧
      (∀ d, afind s.jsl.relayDeadline sid = some d → Effect (.relayGapTimeout sid) s (fun u => u.now = max s.now (d + sclk 1)
        ∧ afind u.jsl.sessions sid = none ∧ afind u.jsl.relayDeadline sid = none
        ∧ (∀ y ∈ u.jsl.relayHeld, ¬ (y.1.2.1 = sid ∧ y.1.2.2 = 0))
        ∧ u.satVal satJslRelayLost = satAdd 16 (s.satVal satJslRelayLost) 1))) ∧
    (∀ g i, g < 64 → i = s.jsl.records.findIdx (fun r => r.saggar = g) →
      (s.jsl.records[i]? = none → Completes (.recordAck g) s s) ∧
      (∀ r, s.jsl.records[i]? = some r →
        (r.sid = 0 ∨ r.acked < r.count → Completes (.recordAck g) s s) ∧
        (r.sid ≠ 0 → r.count ≤ r.acked → Completes (.recordAck g) s
          { s with jsl := { s.jsl with records := s.jsl.records.eraseIdx i } })))

/-- O52. Handshakes, protected frames and the messages of a session. A HELLO is refused or answered, a PROOF opens
a session with its keys or is refused. A protected frame counts; one whose tag fails ends its session. CSR
messages are answered with the words done and the first refusal; under SID 0 only the ID/CAP block is read.
BULK transfers open within their limits, take bytes inside their length and are answered at their end.
SUBSCRIBE and WITNESS_READ act within the session's rights. Basis: derived, R447, R448, R449, R450, R451,
R452, R453, R454, R524. -/
def Obligations.JaesqueSessions : Prop :=
  ∀ (s a : State) (f : JqFrame) (taken : Nat → State), f.wf = true → s.jsl.lst = 4 → f.crcOk = true → f.rsv = 0 → f.ackV = false →
    f.fseq = s.jsl.rxSeq → f.tnode = 0xFFFF → s.jsl.relayWait = [] →
    taken = (fun n => { s with
      jsl := { s.jsl with
        silence := some (s.now + sclk (2 ^ 16)), crTot := [f.crCsr, f.crBulk, f.crEvent, f.crRecord],
        rxSeq := (s.jsl.rxSeq + n) % 256, ack := (s.jsl.rxSeq + n + 255) % 256, ackV := true,
        replayReq := none, replayDeadline := none,
        crRet := (List.range n).foldl (fun r _ => bump256 r (jqClass f)) s.jsl.crRet },
      ctr := amod s.ctr ctrJslRx {} (fun c => c.add n) }) → a = taken 1 →
    (∀ h : HelloMsg,
      (¬ (f.sid = 0 ∧ f.prot = false ∧ f.ftype = 5) → Completes (.hello f h) s (taken 2)) ∧
      (f.sid = 0 → f.prot = false → f.ftype = 5 →
        (∀ st, (st = Status.nackRetry ∧ (s.arch.mp ≠ .run ∨ 7 ≤ s.jsl.sessions.length ∨ s.jsl.closing = true)) ∨
            (st = .denied ∧ s.arch.mp = .run ∧ s.jsl.sessions.length < 7 ∧ s.jsl.closing = false
              ∧ s.helloSlot h = none ∧ s.claims h = false) →
          Effect (.hello f h) s (fun u => u.jsl.sessions = s.jsl.sessions ∧ u.jsl.handshakes = s.jsl.handshakes
            ∧ ∃ y : JqSend, u.jsl.waiting = s.jsl.waiting ++ [y] ∧ y.f.ftype = 5 ∧ y.f.sid = 0
              ∧ y.payload = natLe (6 + 2 ^ 16) 8 ++ pad8 (natLe st.code 2))) ∧
        (∀ slot, s.arch.mp = .run → s.jsl.sessions.length < 7 → s.jsl.closing = false → s.helloSlot h = some slot →
          Effect (.hello f h) s (fun u => u.jsl.sessions = s.jsl.sessions ∧ u.sec.draws = s.sec.draws + 64
            ∧ (∃ hs, u.jsl.handshakes = s.jsl.handshakes.filter (fun y => y.via ≠ none) ++ [hs]
              ∧ hs.hello = h ∧ hs.slot = slot ∧ hs.claim = false ∧ hs.via = none)
            ∧ ∃ l : List JqSend, u.jsl.waiting = s.jsl.waiting ++ l ∧ l ≠ []
              ∧ ∀ y ∈ l, y.f.ftype = 5 ∧ y.f.sid = 0 ∧ le y.payload 0 1 = 2)))) ∧
    (∀ sig : List Byte, f.sid = 0 → f.prot = false → f.ftype = 5 →
      (s.jsl.handshakes.find? (fun h => h.via = none) = none →
        Completes (.proof f sig) s (taken (max 1 (ceilDiv sig.length 1016)))) ∧
      (∀ h sid, s.jsl.handshakes.find? (fun h => h.via = none) = some h → s.freeSid = some sid → s.arch.mp = .run →
        (s.proofOk h sig = false → Effect (.proof f sig) s (fun u => u.jsl.sessions = s.jsl.sessions
          ∧ (∀ y ∈ u.jsl.handshakes, y.via ≠ none)
          ∧ ∃ y : JqSend, u.jsl.waiting = s.jsl.waiting ++ [y] ∧ y.payload = natLe (6 + 2 ^ 16) 8 ++ pad8 (natLe Status.denied.code 2))) ∧
        (s.proofOk h sig = true → Effect (.proof f sig) s (fun u => (∀ y ∈ u.jsl.handshakes, y.via ≠ none)
          ∧ (∃ x keys, keys = shake256 (h.secret ++ digest (h.transcript ++ sig)) 64
            ∧ u.jsl.sessions = aset s.jsl.sessions sid x ∧ x.role = h.hello.role ∧ x.via = none ∧ x.keySlot = h.slot
            ∧ x.keyRx = keys.take 32 ∧ x.keyTx = keys.drop 32 ∧ x.ctrRx = 0 ∧ x.ctrTx = 0)
          ∧ ∃ y : JqSend, u.jsl.waiting = s.jsl.waiting ++ [y] ∧ y.payload = natLe (4 + 2 ^ 16) 8 ++ natLe sid 8 ++ natLe (2 ^ 32) 8)))) ∧
    (∀ count tag addr (words : List Word32), count < 256 → tag < 65536 → addr < 2 ^ 40 → f.ftype = 1 → f.mclass = 0 →
      f.sid = 0 → f.prot = false →
      Effect (.jqCsrWrite f count tag addr words) s (fun u => u.jsl.waiting = s.jsl.waiting
        ++ [jqMsg none 0 0 (0x82 + tag * 2 ^ 16 + Status.denied.code * 2 ^ 32) addr []] ∧ u = { a with jsl := u.jsl }) ∧
      (0x0010000 < addr + 4 * count → Effect (.jqCsrRead f count tag addr) s (fun u => u.jsl.waiting = s.jsl.waiting
        ++ [jqMsg none 0 0 (0x81 + tag * 2 ^ 16 + Status.denied.code * 2 ^ 32) addr []] ∧ u = { a with jsl := u.jsl }))) ∧
    (∀ x, afind s.jsl.sessions f.sid = some x → x.via = none → f.prot = true → x.ctrRx + 1 < 2 ^ 32 →
      (f.tagOk = false → f.ftype = 5 → Effect (.sessionClose f) s (fun u => afind u.jsl.sessions f.sid = none
        ∧ u.satVal satJslAuthFail = satAdd 16 (s.satVal satJslAuthFail) 1)) ∧
      (f.tagOk = true →
        (f.ftype = 5 → Effect (.sessionClose f) s (fun u => afind u.jsl.sessions f.sid = none
          ∧ (∀ k, k ≠ f.sid → afind u.jsl.sessions k = afind s.jsl.sessions k)
          ∧ (∀ b ∈ u.jsl.bulks, b.2.sid ≠ f.sid) ∧ u.tie = s.tie)) ∧
        (∀ a2, a2 = { a with jsl := { a.jsl with sessions := aset a.jsl.sessions f.sid { x with ctrRx := x.ctrRx + 1 } } } →
          (∀ count tag addr (words : List Word32), count < 256 → tag < 65536 → addr < 2 ^ 40 → f.ftype = 1 → f.mclass = 0 → f.sid ≠ 0 →
            (count = 0 ∨ 248 < count →
              Effect (.jqCsrRead f count tag addr) s (fun u => u.jsl.waiting = s.jsl.waiting
                ++ [jqMsg none f.sid 0 (0x81 + tag * 2 ^ 16 + Status.denied.code * 2 ^ 32) addr []])) ∧
            (∀ ws st a3, 0 < count → count ≤ 248 → readWords (x.who f.sid) count addr a2 = (ws, st, a3) →
              Effect (.jqCsrRead f count tag addr) s (fun u => u.jsl.waiting = a3.jsl.waiting ++ [jqMsg none f.sid 0
                (0x81 + ws.length * 2 ^ 8 + tag * 2 ^ 16 + st.code * 2 ^ 32) addr (ws.flatMap (fun w => natLe w 4))])) ∧
            (∀ n st a3, 0 < count → count ≤ 248 → count ≤ words.length →
              writeWords (x.who f.sid) (words.take count) addr 0 a2 = (n, st, a3) →
              Effect (.jqCsrWrite f count tag addr words) s (fun u => u.jsl.waiting = a3.jsl.waiting ++ [jqMsg none f.sid 0
                (0x82 + n * 2 ^ 8 + tag * 2 ^ 16 + st.code * 2 ^ 32) addr []]))) ∧
          (∀ kind xfer total (st : Status), kind < 256 → xfer < 65536 → total < 2 ^ 32 → f.ftype = 1 → f.mclass = 1 →
            s.t3Up = true → st = (if x.role ≠ 1 ∨ 1 < kind ∨ 2 ^ 30 < total ∨ ahas s.jsl.bulks (f.sid * 65536 + xfer) = true
                ∨ (x.claim = true ∧ kind ≠ 0) then .denied
              else if 4 ≤ s.jsl.bulks.length ∨ s.jsl.closing = true then .nackRetry else .ok) →
            Effect (.bulkBegin f kind xfer total) s (fun u => u.jsl.waiting = s.jsl.waiting ++ [jqMsg none f.sid 1
                (0x90 + kind * 2 ^ 8 + xfer * 2 ^ 16 + st.code * 2 ^ 32) total []]
              ∧ u.jsl.bulks = if st = .ok then aset s.jsl.bulks (f.sid * 65536 + xfer) { sid := f.sid, kind := kind, total := total }
                else s.jsl.bulks)) ∧
          (∀ xfer off (data dg : List Byte), xfer < 65536 → off < 2 ^ 32 → f.ftype = 1 → f.mclass = 1 →
            (afind s.jsl.bulks (f.sid * 65536 + xfer) = none →
              Completes (.bulkData f xfer off data) s a2 ∧
              Effect (.bulkEnd f xfer dg) s (fun u => u.jsl.bulks = s.jsl.bulks ∧ u.jsl.waiting = s.jsl.waiting
                ++ [jqMsg none f.sid 1 (0x92 + xfer * 2 ^ 16 + Status.denied.code * 2 ^ 32) 0 []])) ∧
            (∀ b, afind s.jsl.bulks (f.sid * 65536 + xfer) = some b →
              (b.total < off + data.length → Completes (.bulkData f xfer off data) s a2) ∧
              (off + data.length ≤ b.total → Completes (.bulkData f xfer off data) s { a2 with jsl := { a2.jsl with
                bulks := aset s.jsl.bulks (f.sid * 65536 + xfer) { b with bytes := b.bytes ++ [(off, data)] } } }) ∧
              (b.whole = none ∨ (∃ o, b.whole = some o ∧ digest o ≠ dg) → Effect (.bulkEnd f xfer dg) s (fun u =>
                u.jsl.bulks = aerase s.jsl.bulks (f.sid * 65536 + xfer) ∧ u.img = s.img ∧ u.jsl.waiting = s.jsl.waiting
                  ++ [jqMsg none f.sid 1 (0x92 + b.kind * 2 ^ 8 + xfer * 2 ^ 16 + Status.denied.code * 2 ^ 32) 0 []])) ∧
              (∀ o, b.whole = some o → digest o = dg → b.kind = 0 → x.claim = false → s.sec.claimed = true → s.arch.cp ≠ .run →
                Effect (.bulkEnd f xfer dg) s (fun u => afind u.jsl.bulks (f.sid * 65536 + xfer) = some b
                  ∧ (∀ y, y ≠ f.sid * 65536 + xfer → afind u.jsl.bulks y = afind s.jsl.bulks y) ∧ u.img = s.img ∧ u.jsl.waiting = s.jsl.waiting
                  ++ [jqMsg none f.sid 1 (0x92 + xfer * 2 ^ 16 + Status.nackRetry.code * 2 ^ 32) 0 []])))) ∧
          (∀ en sev, sev < 16 → f.ftype = 1 → f.mclass = 2 →
            (x.claim = true → Completes (.subscribe f en sev) s a2) ∧
            (x.claim = false → Completes (.subscribe f en sev) s { a2 with jsl := { a2.jsl with
              sessions := aset a2.jsl.sessions f.sid { x with
                ctrRx := x.ctrRx + 1, subscribed := en, minSev := sev, events := if en then x.events else [] } } })) ∧
          (∀ g wtag, g < 64 → wtag < 2 ^ 64 → f.ftype = 1 → f.mclass = 3 →
            (x.claim = true ∨ (x.role = 2 ∧ bit x.mask g = false) ∨ s.wdUp = false → Completes (.witnessRead f g wtag) s a2) ∧
            (x.claim = false → x.role ≠ 2 ∨ bit x.mask g = true → s.wdUp = true → g ≠ 63 →
              (s.readWaits 0 g = true → Completes (.witnessRead f g wtag) s
                { a2 with wd := { s.wd with held := s.wd.held ++ [(0, g, wtag, f.sid)] } }) ∧
              (s.readWaits 0 g = false → Effect (.witnessRead f g wtag) s (fun u =>
                afind u.wd.lastRead (0, g) = some s.wd.ticks
                ∧ ∃ l : List JqSend, u.jsl.waiting = s.jsl.waiting ++ l ∧ l ≠ [] ∧ ∀ y ∈ l, y.f.sid = f.sid ∧ y.f.mclass = 3
                  ∧ le y.payload 8 8 = wtag)))))))

/-- O53. PREPARE, READY, COMMIT and the drain of the previous epoch. The exchange is taken from the recorded
coordinator only. A preparation writes the shadows and sends READY where this chip can; a READY from every
reachable Plofen commits; a COMMIT of the next epoch raises the epoch by one, makes the old configuration the
previous one, takes the prepared fence list and, where the prepared digest names it, the staged image; one
that comes while the control cores restart is held. ABANDON and the staging timeout discard the shadows. The
previous epoch closes after its quiet time, at the drain limit or by FORCE_CLOSE. Basis: derived, R469, R472,
R474, R475, R476, R477, R478, R535. -/
def Obligations.EpochExchange : Prop :=
  ∀ s : State,
    (∀ src e (dg : List Byte) (fl : List Nat) heard, src < 65536 → e < 65536 → heard = { s with img := { s.img with
          coordHeard := if src = s.img.coord then s.now else s.img.coordHeard,
          standbyHeard := if src = s.img.standby then s.now else s.img.standbyHeard } } →
      (src ≠ s.img.coord → ∀ c ∈ [Instr.prepare src e dg fl, .commit src e, .abandon src e],
        Completes c s { heard with out := s.out ++ [.ctrl src (.deniedCoord s.img.coord)] }) ∧
      (src = s.img.coord → e ≠ (s.img.epoch + 1) % 65536 →
        ∀ c ∈ [Instr.prepare src e dg fl, .commit src e, .abandon src e], Completes c s heard) ∧
      (src = s.img.coord → e = (s.img.epoch + 1) % 65536 → s.img.isCoord = false →
        (s.aliasNodes = [] → src ≠ s.fab.node → ∀ s0, s0 = { heard with img := { heard.img with
            prepared := some e, prepDigest := dg, preparedFences := fl, readySent := false } } →
          (s0.canReady = true → Completes (.prepare src e dg fl) s { s0 with
            img := { s0.img with readySent := true }, out := s.out ++ [.ctrl src (.ready e)] }) ∧
          (s0.canReady = false → Completes (.prepare src e dg fl) s s0)) ∧
        (s.arch.cp = .restart →
          Completes (.commit src e) s { heard with img := { heard.img with commitHeld := some e } }) ∧
        (s.arch.cp ≠ .restart → Effect (.commit src e) s (fun u => u.img.epoch = e ∧ u.img.prevEpoch = some s.img.epoch
          ∧ u.img.prev = s.img.cur ∧ u.img.prepared = none ∧ u.img.readySent = false
          ∧ u.img.fences = (if s.img.prepared.isSome then s.img.preparedFences else s.img.fences)
          ∧ (s.shadowCommits = false → u.img.cur = s.img.cur ∧ u.img.shadow = s.img.shadow)
          ∧ (∀ im, s.img.shadow = some im → (s.img.prepared = none ∨ s.img.prepDigest = im.imgDigest) →
              u.img.cur = im ∧ u.img.dig = im.imgDigest ∧ u.img.st = 2 ∧ u.img.shadow = none)
          ∧ (∀ n ∈ u.erc.lost, n ∈ s.erc.lost ∧ n ∉ u.img.fences)
          ∧ aget u.ctr ctrImgCommits {} = (aget s.ctr ctrImgCommits {}).add 1))) ∧
      (src = s.img.coord → e = (s.img.epoch + 1) % 65536 →
        Effect (.abandon src e) s (fun u => u.img.prepared = none ∧ u.img.shadow = none ∧ u.img.readySent = false
          ∧ u.img.preparedFences = [] ∧ u.img.st = (if s.img.st = 3 then 2 else s.img.st) ∧ u.img.epoch = s.img.epoch
          ∧ u.img.cur = s.img.cur ∧ (∀ a ∈ u.erc.aliases, a.handback = false))) ∧
      (s.img.isCoord = false ∨ e ≠ (s.img.epoch + 1) % 65536 → Completes (.ready src e) s heard) ∧
      (∀ rf, s.img.isCoord = true → e = (s.img.epoch + 1) % 65536 → s.img.preparing = some e → s.img.prepared = some e →
        s.arch.cp ≠ .restart → s.img.queryOwed = false →
        rf = (if s.img.readyFrom.contains src then s.img.readyFrom else s.img.readyFrom ++ [src]) →
        s.reachable.all rf.contains = true →
        Effect (.ready src e) s (fun u => u.img.epoch = e ∧ u.img.prevEpoch = some s.img.epoch ∧ u.img.prev = s.img.cur
          ∧ u.img.fences = s.img.preparedFences ∧ u.img.preparing = none ∧ u.img.readyFrom = []
          ∧ ∀ n ∈ s.plofens, n ≠ s.fab.node → .ctrl n (.commit e) ∈ u.out))) ∧
    (∀ silent, silent < 65536 →
      (s.img.stageDeadline = none ∨ s.img.preparing = none ∨ s.reachable.contains silent = false
          ∨ s.img.readyFrom.contains silent = true → Completes (.stagingTimeout silent) s s) ∧
      (∀ d e, s.img.stageDeadline = some d → s.img.preparing = some e → s.reachable.contains silent = true →
        s.img.readyFrom.contains silent = false → Effect (.stagingTimeout silent) s (fun u => u.now = max s.now (d + cclk 1)
          ∧ u.img.preparing = none ∧ u.img.prepared = none ∧ u.img.shadow = none ∧ u.img.readyFrom = []
          ∧ u.img.stageDeadline = none ∧ u.img.epoch = s.img.epoch
          ∧ ∀ n ∈ s.plofens, n ≠ s.fab.node → .ctrl n (.abandon e) ∈ u.out))) ∧
    ((s.img.prevEpoch = none ∨ s.img.quietDeadline = none ∨ (s.held.any fun b => s.isPrev b.pkt) = true →
        Completes .drainQuiet s s) ∧
      (∀ e d, s.img.prevEpoch = some e → s.img.quietDeadline = some d → (s.held.any fun b => s.isPrev b.pkt) = false →
        s.img.isCoord = false → Completes .drainQuiet s { carry d s with
          img := { s.img with prevEpoch := none, prev := {}, quietDeadline := none }
          out := s.out ++ [.ctrl s.img.coord (.drained e)] })) ∧
    (∀ src e got all heard, src < 65536 → e < 65536 → heard = { s with img := { s.img with
          coordHeard := if src = s.img.coord then s.now else s.img.coordHeard,
          standbyHeard := if src = s.img.standby then s.now else s.img.standbyHeard } } →
      (s.img.isCoord = false ∨ (e + 1) % 65536 ≠ s.img.epoch → Completes (.drained src e) s heard) ∧
      (s.img.isCoord = true → (e + 1) % 65536 = s.img.epoch → s.img.preparing = none → s.img.prepared = none →
        s.changeWaits = false →
        got = (if s.img.drainedFrom.contains src then s.img.drainedFrom else s.img.drainedFrom ++ [src]) →
        all = (s.plofens.filter (fun n => !s.img.fences.contains n && !s.erc.lost.contains n)).all got.contains →
        Completes (.drained src e) s { heard with img := { heard.img with
          drainedFrom := got, forceDeadline := if all then none else s.img.forceDeadline } })) ∧
    ((s.img.forceDeadline = none ∨ s.img.isCoord = false → Completes .drainMaxExpiry s s) ∧
      (∀ d, s.img.forceDeadline = some d → s.img.isCoord = true → s.img.preparing = none → s.img.prepared = none →
        s.changeWaits = false → Effect .drainMaxExpiry s (fun u => u.now = max s.now (d + sclk 1) ∧ u.img.prevEpoch = none
          ∧ u.img.prev = {} ∧ u.img.forceDeadline = none
          ∧ ∀ n ∈ s.plofens, n ≠ s.fab.node → .ctrl n (.forceClose ((s.img.epoch + 65535) % 65536)) ∈ u.out))) ∧
    (∀ who : Who, who.wf = true → s.csrGate who imgCtrl true = none →
      (who ≠ .control → Completes (.forceClose who) s (answerCsr who imgCtrl .denied 0 s)
        ∧ Completes (.imgCtrlAbandon who) s (answerCsr who imgCtrl .denied 0 s)) ∧
      (who = .control → s.img.preparing = none → s.img.prepared = none → s.changeWaits = false →
        Completes (.forceClose who) s (answerCsr who imgCtrl .ok 0
          { s with img := { s.img with prevEpoch := none, prev := {}, quietDeadline := none } })) ∧
      (who = .control → s.img.st ≠ 3 → Completes (.imgCtrlAbandon who) s (answerCsr who imgCtrl .ok 0 s)) ∧
      (who = .control → s.img.st = 3 → Effect (.imgCtrlAbandon who) s (fun u => u.img.st = 2 ∧ u.img.shadow = none
        ∧ u.img.prepared = none ∧ u.img.cur = s.img.cur ∧ u.img.epoch = s.img.epoch)))

/-- O54. The coordinator's role passes on; an image is checked and stored. A coordinator says it is alive; a
standby that hears nothing for its time, or the lowest reachable Plofen when both are silent, claims the role
and tells every Plofen. A claim is recorded, what was prepared here is dropped, and a later epoch held here is
answered. A restarted chip acts on the recorded answer. A refused image changes nothing but its cause and its
count. STORE copies what is in force, and a copy that fails to verify leaves the current one. Basis: derived,
R469, R472, R475, R476, R480. -/
def Obligations.EpochRoles : Prop :=
  ∀ s : State,
    ((s.img.aliveDeadline = none ∨ s.img.isCoord = false ∨ s.img.queryOwed = true ∨ s.arch.cp = .restart →
        Completes .coordAliveDue s s) ∧
      (∀ d, s.img.aliveDeadline = some d → s.img.isCoord = true → s.img.queryOwed = false → s.arch.cp ≠ .restart →
        Completes .coordAliveDue s { carry d s with
          img := { s.img with aliveDeadline := some (d + cclk (2 ^ 24)) }
          out := s.out ++ [.ctrl s.img.standby .coordAlive] })) ∧
    (∀ src, src < 65536 →
      (src = s.img.coord → Completes (.coordAlive src) s { s with img := { s.img with
        coordHeard := s.now, standbyHeard := if src = s.img.standby then s.now else s.img.standbyHeard } }) ∧
      (src ≠ s.img.coord → Completes (.coordAlive src) s { s with img := { s.img with
        standbyHeard := if src = s.img.standby then s.now else s.img.standbyHeard } })) ∧
    (¬ (s.img.standby = s.fab.node ∧ s.img.isCoord = false ∧ 2 ≤ s.img.st ∧ s.img.queryOwed = false) →
      Completes .coordSilence s s) ∧
    (∀ sb, s.img.standby = s.fab.node → s.img.isCoord = false → 2 ≤ s.img.st → s.img.queryOwed = false →
      sb = ((s.plofens.filter (fun n => n ≠ s.img.coord && !s.img.fences.contains n && !s.erc.lost.contains n)).filter
        (fun n => n ≠ s.fab.node)).foldl min 0xFFFF →
      Effect .coordSilence s (fun u => u.now = max s.now (s.img.coordHeard + cclk (2 ^ 29) + cclk 1) ∧ u.img.coord = s.fab.node
        ∧ u.img.isCoord = true ∧ u.img.standby = sb
        ∧ ∀ n ∈ s.plofens, n ≠ s.fab.node → .ctrl n (.coordClaim s.fab.node s.img.epoch sb) ∈ u.out)) ∧
    (∀ (reach l : List Nat) cond, l = (s.fab.node :: reach).filter s.plofens.contains →
      cond = (2 ≤ s.img.st ∧ s.img.isCoord = false ∧ s.img.standby ≠ s.fab.node ∧ s.img.queryOwed = false
        ∧ l.foldl min 0xFFFF = s.fab.node) →
      (¬ cond → Completes (.coordBothSilent reach) s s) ∧
      (cond → Effect (.coordBothSilent reach) s (fun u =>
        u.now = max s.now (max s.img.coordHeard s.img.standbyHeard + cclk (2 ^ 30) + cclk 1) ∧ u.img.coord = s.fab.node
        ∧ u.img.isCoord = true ∧ u.img.standby = (l.filter (fun n => n ≠ s.fab.node)).foldl min 0xFFFF))) ∧
    (∀ src claimant e sb, src < 65536 → claimant < 65536 → e < 65536 → sb < 65536 →
      (claimant = s.fab.node → s.img.isCoord = true → Completes (.coordClaim src claimant e sb) s
        { s with img := { s.img with
          epoch := if laterE e s.img.epoch then e else s.img.epoch
          coordHeard := if src = s.img.coord then s.now else s.img.coordHeard,
          standbyHeard := if src = s.img.standby then s.now else s.img.standbyHeard } }) ∧
      (¬ (claimant = s.fab.node ∧ s.img.isCoord = true) → Effect (.coordClaim src claimant e sb) s (fun u =>
        u.img.coord = claimant ∧ u.img.standby = sb ∧ u.img.isCoord = decide (claimant = s.fab.node) ∧ u.img.prepared = none
        ∧ u.img.shadow = none ∧ u.img.preparing = none ∧ u.img.epoch = s.img.epoch ∧ u.img.coordHeard = s.now
        ∧ (laterE s.img.epoch e = true → u.out = s.out ++ [.ctrl claimant (.epochAnswer s.img.epoch)])
        ∧ (laterE s.img.epoch e = false → u.out = s.out)))) ∧
    (∀ nb answer, nb < 65536 → answer < 65536 →
      (s.img.queryOwed = false ∨ s.arch.cp = .restart → Completes (.coordQuery nb answer) s s) ∧
      (s.img.queryOwed = true → s.arch.cp ≠ .restart → Effect (.coordQuery nb answer) s (fun u => u.img.queryOwed = false
        ∧ u.img.coord = answer ∧ u.img.isCoord = (decide (answer = s.fab.node) && s.img.isCoord)
        ∧ .ctrl nb .coordQuery ∈ u.out))) ∧
    (∀ (file : List Byte) (src : ImageSource) (im : Image), im = (parseImage file).1 →
      (s.arch.cp ≠ .run → imageEnd file src s = (.nackRetry, s)) ∧
      (s.arch.cp = .run → im.kind = 0 → s.img.st ≠ 0 → imageEnd file src s = (.denied, s)) ∧
      (∀ cause st, s.arch.cp = .run → im.kind ≠ 0 ∨ s.img.st = 0 → s.imageRefusal file src = some (cause, st) →
        (imageEnd file src s).1 = st ∧ (imageEnd file src s).2.img = { s.img with cause := cause }
        ∧ (imageEnd file src s).2.tie = s.tie ∧ (imageEnd file src s).2.sag = s.sag
        ∧ (imageEnd file src s).2.satVal satImgRefused = satAdd 16 (s.satVal satImgRefused) 1) ∧
      (s.arch.cp = .run → im.kind ≠ 0 ∨ s.img.st = 0 → s.imageRefusal file src = none → (imageEnd file src s).1 = .ok)) ∧
    (∀ who : Who, who.wf = true → s.csrGate who imgCtrl true = none →
      (s.img.st = 3 → Completes (.imgStore who) s (answerCsr who imgCtrl .nackRetry 0 s)) ∧
      (s.img.st ≠ 3 → s.img.st ≠ 2 ∨ 5 * 2 ^ 20 < s.img.cur.size → Completes (.imgStore who) s
        (answerCsr who imgCtrl .denied 0 { s with img := { s.img with storeFail := true } })) ∧
      (s.img.st = 2 → s.img.cur.size ≤ 5 * 2 ^ 20 → ∀ m, m = { s.img with
          storeFail := false, storing := some (s.img.cur, s.storedRegs), st := 4 } →
        (s.flm.st ≠ 3 → s.flm.st ≠ 4 → Completes (.imgStore who) s (answerCsr who imgCtrl .ok 0 { s with img := m })) ∧
        (s.flm.st = 3 ∨ s.flm.st = 4 → Effect (.imgStore who) s (fun u => u.img = m ∧ u.flm.erasesAt = s.flm.erases
          ∧ .csr who imgCtrl .ok 0 ∈ u.out)))) ∧
    (∀ v, (s.img.storing = none → Completes (.imgStoreDone v) s s) ∧
      (∀ c, s.img.storing = some c → Effect (.imgStoreDone v) s (fun u => u = { s with img := u.img } ∧ u.img.storing = none
        ∧ u.img.st = (if s.img.st = 4 then 2 else s.img.st) ∧ u.img.cur = s.img.cur
        ∧ (v = false → u.img.nvA = s.img.nvA ∧ u.img.nvB = s.img.nvB ∧ u.img.nvCopyB = s.img.nvCopyB
            ∧ u.img.nvValid = s.img.nvValid)
        ∧ (v = true → u.img.nvValid = true ∧ u.img.nvCopyB = (s.img.nvValid && !s.img.nvCopyB)
            ∧ (if u.img.nvCopyB then u.img.nvB else u.img.nvA) = some c
            ∧ (if u.img.nvCopyB then u.img.nvA else u.img.nvB) = (if u.img.nvCopyB then s.img.nvA else s.img.nvB)))))

/-- O55. Attestation, key release and change records under dual control. SAG_CTRL is written by the tenant session
that holds the saggar's key slot and by no other. ATTEST ends with signed evidence in the window and a fresh
ephemeral key with its life; KEY_LOAD installs the key the window releases, or fails and is counted, and the
ephemeral key goes either way; a key expires at its time. A change record is refused by the first check it
fails, with nothing changed but its status; one that passes every check raises its sequence counter and has
its effect, by its operation. Basis: derived, R486, R488, R494, R495, R496, R503, R507, R508. -/
def Obligations.KeysAndChanges : Prop :=
  ∀ s : State,
    (∀ (who : Who) g a x, who.wf = true → g < 64 → a = sagPage g + 4 → s.csrGate who a true = none → x = aget s.sag g {} →
      (s.holdsKeySlot who g = false → ∀ c ∈ [Instr.attest who g, .keyLoad who g, .keyErase who g],
        Completes c s (answerCsr who a .denied 0 s)) ∧
      (s.holdsKeySlot who g = true → s.arch.mp = .restart → ∀ c ∈ [Instr.attest who g, .keyLoad who g, .keyErase who g],
        Completes c s (answerCsr who a .nackRetry 0 s)) ∧
      (s.holdsKeySlot who g = true → s.arch.mp ≠ .restart →
        Completes (.attest who g) s (answerCsr who a .ok 0 { s with sag := aset s.sag g { x with
          attesting := true, evidence := false, ephemeral := none, ephemeralDeadline := none } }) ∧
        Completes (.keyErase who g) s (answerCsr who a .ok 0 { s with sag := aset s.sag g { x with
          key := 0, weightKey := none, reattestDue := false } }) ∧
        ((∀ d, x.ephemeralDeadline = some d → s.now ≤ d) → Completes (.keyLoad who g) s (answerCsr who a .ok 0
          { s with sag := aset s.sag g { x with loading := true } })) ∧
        (∀ d, x.ephemeralDeadline = some d → d < s.now → Completes (.keyLoad who g) s (answerCsr who a .ok 0
          { s with sag := aset s.sag g { x with
            ephemeral := none, ephemeralDeadline := none, evidence := false, loading := true } })))) ∧
    (∀ g x, g < 64 → x = aget s.sag g {} →
      (x.attesting = false ∨ s.arch.mp = .restart → Completes (.attestDone g) s s) ∧
      (∀ kp body, x.attesting = true → s.arch.mp ≠ .restart →
        kp = Config.mlkemKeyGen ((List.range 64).map (fun i => Config.random (s.sec.draws + i))) →
        body = s.evidence g (sub x.window 0 32) kp.1 → Effect (.attestDone g) s (fun u => ∃ y, u.sag = aset s.sag g y
          ∧ y.attesting = false ∧ y.evidence = true ∧ y.ephemeral = some kp.2
          ∧ y.ephemeralDeadline = some (s.now + mclk (2 ^ s.sec.ttlExp))
          ∧ y.evidenceBytes = body ++ fit (Config.falconSign Config.deviceKey (ascii "PLF-ATT" ++ body)) 1280
          ∧ y.window = overlay x.window 0 y.evidenceBytes ∧ y.key = x.key ∧ y.weightKey = x.weightKey
          ∧ u.sec.draws = s.sec.draws + 64)) ∧
      (x.loading = false ∨ s.arch.mp = .restart → Completes (.keyLoadDone g) s s) ∧
      (x.loading = true → s.arch.mp ≠ .restart →
        (∀ k, x.releasedKey = some k → Completes (.keyLoadDone g) s { s with sag := aset s.sag g { x with
          ephemeral := none, ephemeralDeadline := none, evidence := false, loading := false, key := 1, weightKey := some k } }) ∧
        (x.releasedKey = none → Effect (.keyLoadDone g) s (fun u =>
          u.sag = aset s.sag g { x with
            ephemeral := none, ephemeralDeadline := none, evidence := false, loading := false, key := 2 }
          ∧ u.satVal satSecKeyFail = satAdd 16 (s.satVal satSecKeyFail) 1))) ∧
      (x.ephemeralDeadline = none → Completes (.ephemeralKeyExpiry g) s s) ∧
      (∀ d, x.ephemeralDeadline = some d →
        (x.loading = true → Completes (.ephemeralKeyExpiry g) s (carry d s)) ∧
        (x.loading = false → Completes (.ephemeralKeyExpiry g) s { carry d s with
          sag := aset s.sag g { x with ephemeral := none, ephemeralDeadline := none, evidence := false } }))) ∧
    (∀ (who : Who) op c r b cause, who.wf = true → (op, c) ∈ [(1, Instr.dcWrite who), (2, .logClear who), (3, .witnessFw who),
        (4, .release who)] → r = s.sec.record → b = s.sec.sigBlock → cause = s.dcCause r b →
      (dcOp r ≠ op → 1 ≤ dcOp r → dcOp r ≤ 4 → Completes c s s) ∧
      (s.csrGate who 0x0040004 true = none →
        (cause ≠ 0 → dcOp r = op ∨ dcOp r = 0 ∨ 4 < dcOp r → Effect c s (fun u =>
          u.sec = { s.sec with
            dcStatus := (if cause = 7 then Status.nackRetry else .denied).code, dcCause := cause, dcSeqLow := dcSeq r % 2 ^ 24 }
          ∧ u.img = s.img ∧ u.tie = s.tie ∧ u.wd = s.wd
          ∧ u.satVal satSecDcRefused = satAdd 16 (s.satVal satSecDcRefused) 1)) ∧
        (cause = 0 → dcOp r = op → s.sec.arb.length = 16 → Effect c s (fun u =>
          u.sec.dcStatus = Status.ok.code ∧ u.sec.dcCause = 0 ∧ u.sec.dcSeqLow = dcSeq r % 2 ^ 24
          ∧ u.sec.arb.getD 1 0 = dcSeq r
          ∧ (op = 1 → u.tie = s.tie ∧ u.img = s.img
              ∧ u.sec.tenantRelay = (dcEntries r).foldl (fun t e => if bit e.2.2 8 then bit e.2.1 8 else t) s.sec.tenantRelay
              ∧ (30 ≤ s.sec.ttlExp ∧ s.sec.ttlExp ≤ 40 → 30 ≤ u.sec.ttlExp ∧ u.sec.ttlExp ≤ 40))
          ∧ (op = 2 → (∀ x, u.log.nvA = some x → x = {}) ∧ (∀ x, u.log.nvB = some x → x = {})
              ∧ (∀ q ∈ u.log.slots, q.1 < 4096 → q.1 < u.log.firstN) ∧ u.log.firstN < 4096)
          ∧ (op = 3 → u.sec.wfwApproved = some (sub r 64 32) ∧ .toWd (.firmwareApproval r (dcSigners b)) ∈ u.out)
          ∧ (op = 4 → u.sec.claimed = false ∧ u.sec.enrolled = [] ∧ u.jsl.sessions = [] ∧ u.img.nvValid = false
              ∧ (∀ x ∈ u.img.cur.sections, x.ty ≠ tySAGMAP) ∧ u.sec.arb.getD 5 0 = s.sec.arb.getD 5 0 + 1
              ∧ .toWd (.release r (dcSigners b)) ∈ u.out))))) ∧
    ((s.sec.claimPin = true → Completes .claimAsserted s s) ∧
      (s.sec.claimPin = false → s.sec.claimed = false → Completes .claimAsserted s { s with sec := { s.sec with claimPin := true } }) ∧
      (s.sec.claimPin = false → s.sec.claimed = true → Effect .claimAsserted s (fun u => u.sec = { s.sec with claimPin := true }
        ∧ u.jsl.bulks = s.jsl.bulks)))

/-- O56. Taps, meter registers, commits, WD's firmware and changes, signed reads and meter faults. SD sends every
total and level that changed, or one heartbeat. A total adds its increment to its register and the first after
a start or loss only sets the baseline; no register falls or passes its limit. A tick adds each held level. A
commit writes the older copy only. WD takes a change with two valid signatures, a package it approved, and no
other. A signed read is answered, or held where its saggar was read too recently. The two losses are faults
that are written once and end with the next frame or heartbeat. Basis: derived, R513, R514, R515, R517, R518,
R520, R521, R524, R525, R527. -/
def Obligations.Metering : Prop :=
  ∀ s : State,
    ((s.log.up = false → Completes .tapSendDue s s) ∧
      (s.log.up = true → (∀ g q, g < 64 → q < 3 → aget s.wit.totals (g, q) 0 = aget s.wit.sent (g, q) 0) →
        (∀ g q, g < 64 → 3 ≤ q → q ≤ 6 → s.tapLevel g q = aget s.wit.sentLevels (g, q) 0) →
        Effect .tapSendDue s (fun u => u.now = (s.now / sclk (2 ^ 16) + 1) * sclk (2 ^ 16)
          ∧ u.out = s.out ++ [.tap { kind := 3, saggar := 0, qty := 0, value := 0, tseq := s.wit.tseq % 2 ^ 32, sdBoot := s.wit.sdBoot.toNat }]
          ∧ u.wit = { s.wit with tseq := (s.wit.tseq + 1) % 2 ^ 32 })) ∧
      (s.log.up = true → Effect .tapSendDue s (fun u =>
        (∀ g q, g < 64 → q < 3 → aget u.wit.sent (g, q) 0 = aget s.wit.totals (g, q) 0
          ∧ (aget s.wit.totals (g, q) 0 ≠ aget s.wit.sent (g, q) 0 →
              ∃ f : TapFrame, .tap f ∈ u.out ∧ f.kind = 1 ∧ f.saggar = g ∧ f.qty = q ∧ f.value = aget s.wit.totals (g, q) 0))
        ∧ (∀ g q, g < 64 → 3 ≤ q → q ≤ 6 → aget u.wit.sentLevels (g, q) 0 = s.tapLevel g q)))) ∧
    (∀ f : TapFrame, f.wf = true →
      (s.wdUp = false ∨ f.magic ≠ 0x5054 ∨ f.crcOk = false → ∀ c ∈ [Instr.tapTotal f, .tapLevel f, .tapHeartbeat f,
        .tapPowerDown f], Completes c s s) ∧
      (s.wdUp = true → f.magic = 0x5054 → f.crcOk = true → ∀ c k, (c, k) ∈ [(Instr.tapTotal f, 1), (.tapLevel f, 2),
          (.tapHeartbeat f, 3), (.tapPowerDown f, 4)] →
        (f.kind ≠ k → Completes c s s) ∧
        (f.kind = k → Effect c s (fun u => u = { s with wd := u.wd } ∧ u.wd.lastFrame = s.wd.ticks ∧ u.wd.tapLoss = false
          ∧ u.wd.faults = (if s.wd.tapLoss then s.wd.faults + 1 else s.wd.faults) ∧ u.wd.sdBoot = f.sdBoot
          ∧ u.wd.orderly = decide (k = 4)
          ∧ (∀ j, j ≠ (f.saggar % 64, f.qty) → aget u.wd.regs j 0 = aget s.wd.regs j 0)
          ∧ (k ≠ 1 ∨ 3 ≤ f.qty → u.wd.regs = s.wd.regs)
          ∧ (k = 1 → f.qty < 3 → afind u.wd.lasts (f.saggar % 64, f.qty) = some f.value
              ∧ (∀ l, s.wd.sdBoot = f.sdBoot → afind s.wd.lasts (f.saggar % 64, f.qty) = some l →
                  aget u.wd.regs (f.saggar % 64, f.qty) 0
                    = min (aget s.wd.regs (f.saggar % 64, f.qty) 0 + (f.value + 2 ^ 64 - l) % 2 ^ 64) (2 ^ 96 - 1))
              ∧ (s.wd.sdBoot ≠ f.sdBoot ∨ afind s.wd.lasts (f.saggar % 64, f.qty) = none → u.wd.regs = s.wd.regs))
          ∧ (k = 2 → 3 ≤ f.qty → f.qty ≤ 6 → afind u.wd.levels (f.saggar % 64, f.qty) = some f.value)
          ∧ (k = 3 → u.wd.levels = if s.wd.sdBoot = f.sdBoot then s.wd.levels else [])
          ∧ (k = 4 → u.wd.lasts = [] ∧ u.wd.levels = [])))) ∧
      ((s.wdUp = false ∨ s.wd.orderly = true ∨ s.wd.tapLoss = true ∨ s.wd.ticks < s.wd.lastFrame + 32 →
          Completes .tapLossTimeout s s) ∧
        (s.wdUp = true → s.wd.orderly = false → s.wd.tapLoss = false → s.wd.lastFrame + 32 ≤ s.wd.ticks →
          Completes .tapLossTimeout s (logEvent 0x0901 0 none [2]
            { s with wd := { s.wd with tapLoss := true, lasts := [] } })))) ∧
    ((s.wdUp = false → Completes .meterTick s s) ∧
      (s.wdUp = true → (s.wd.levels.map (·.1)).Nodup → Effect .meterTick s (fun u => u = { s with wd := u.wd }
        ∧ u.wd.ticks = s.wd.ticks + 1
        ∧ (∀ k, (afind s.wd.levels k = none ∨ s.wd.tapLoss = true → aget u.wd.regs k 0 = aget s.wd.regs k 0)
            ∧ ∀ n, s.wd.tapLoss = false → afind s.wd.levels k = some n → aget u.wd.regs k 0 = min (aget s.wd.regs k 0 + n) (2 ^ 96 - 1))))) ∧
    (∀ ok, ∀ commits : State → Prop, commits = (fun u => u.wd.ticksAt = s.wd.ticks ∧ u.wd.nvmFault = !ok
          ∧ u.wd.regs = s.wd.regs ∧ u.wd.installing = false ∧ u.wd.fwB = (s.wd.fwB != s.wd.installing)
          ∧ (s.wd.copies.length = 2 → u.wd.copies.getD s.wd.newer {} = s.wd.copies.getD s.wd.newer {}
              ∧ u.wd.copies.getD (1 - s.wd.newer) {}
                = { commit := (s.wd.copies.getD s.wd.newer {}).commit + 1, regs := s.wd.regs, ok := ok })) →
      (s.wdUp = false ∨ s.wd.ticks < s.wd.ticksAt + 32 → Completes (.witnessCommit ok) s s) ∧
      (s.wdUp = true → s.wd.ticksAt + 32 ≤ s.wd.ticks → Effect (.witnessCommit ok) s commits) ∧
      (ok = true → (s.wdUp = true → Effect .vinWLow s commits) ∧ (s.wdUp = false → Completes .vinWLow s s))) ∧
    (∀ aOk bOk selfOk good, good = (fun b : Bool => if b then bOk && decide (s.wd.svnFloor ≤ s.wd.fwBcopy.svn)
        else aOk && decide (s.wd.svnFloor ≤ s.wd.fwA.svn)) →
      Effect (.wdStart aOk bOk selfOk) s (fun u => u.wd.started = true ∧ u.wd.levels = [] ∧ u.wd.lasts = [] ∧ u.wd.held = []
        ∧ (good s.wd.fwB = true → u.wd.fwB = s.wd.fwB) ∧ (good s.wd.fwB = false → good (!s.wd.fwB) = true → u.wd.fwB = !s.wd.fwB)
        ∧ u.wd.selfFault = !((good s.wd.fwB || good (!s.wd.fwB)) && selfOk)
        ∧ u.wd.regs = (if (s.wd.copies.getD s.wd.newer {}).ok then (s.wd.copies.getD s.wd.newer {}).regs else [])
        ∧ u.wd.audit = s.wd.audit ∧ u.wd.copies = s.wd.copies ∧ u.wd.ticks = s.wd.ticks)) ∧
    (∀ c : WitnessChange, s.img.prepared = none → s.img.preparing = none → s.changeWaits = false →
      (s.wdUp = false → Completes (.witnessChange c) s s) ∧
      (∀ w, s.wdUp = true → s.wd.change c = some w → Effect (.witnessChange c) s (fun u => u.wd = w ∧ u.wit.refused = s.wit.refused
        ∧ (w.audit.length = s.wd.audit.length ∨ w.audit.length = s.wd.audit.length + 1))) ∧
      (s.wdUp = true → s.wd.change c = none → Effect (.witnessChange c) s (fun u => u.wd = s.wd
        ∧ (∀ h d b g, c = .params h d b g ∨ c = .protection h d b g →
            u.wit.refused = true ∧ u.wit.awaiting = s.wit.awaiting - 1)))) ∧
    (∀ pkg : List Byte,
      (s.wdUp = false ∨ s.wd.approved = none ∨ s.wd.installing = true ∨ le pkg 8 8 < s.wd.svnFloor
          ∨ (∃ d sl, s.wd.approved = some (d, sl) ∧ digest pkg ≠ d) → Completes (.witnessFwPackage pkg) s s) ∧
      Effect (.witnessFwPackage pkg) s (fun u => u = { s with wd := u.wd } ∧ u.wd.fwB = s.wd.fwB ∧ u.wd.fw = s.wd.fw
        ∧ u.wd.regs = s.wd.regs ∧ (u.wd.installing = true → s.wd.installing = false → s.wd.svnFloor ≤ le pkg 8 8
          ∧ u.wd.audit.length = s.wd.audit.length + 1 ∧ u.wd.approved = none))) ∧
    (∀ g tag ok, g < 64 → tag < 2 ^ 64 →
      (ok = false ∨ s.wdUp = false → Completes (.mportFrame g tag ok) s s) ∧
      (ok = true → s.wdUp = true →
        (g = 63 → Completes (.mportFrame g tag ok) s { s with out := s.out ++ s.auditObjects.map (fun o => .mport o) }) ∧
        (g ≠ 63 → s.readWaits 1 g = true → Completes (.mportFrame g tag ok) s
          { s with wd := { s.wd with held := s.wd.held ++ [(1, g, tag, 0)] } }) ∧
        (g ≠ 63 → s.readWaits 1 g = false → Completes (.mportFrame g tag ok) s { s with
          wd := { s.wd with lastRead := aset s.wd.lastRead (1, g) s.wd.ticks }
          out := s.out ++ [.mport (s.witObject g tag)] }))) ∧
    (∀ path, path < 65536 →
      (s.wd.held.find? (fun h => h.1 = path) = none → Completes (.heldReadRelease path) s s) ∧
      (∀ h, s.wd.held.find? (fun h => h.1 = path) = some h →
        (s.readWaits path h.2.1 = true ∨ s.wdUp = false → Completes (.heldReadRelease path) s s) ∧
        (s.readWaits path h.2.1 = false → s.wdUp = true → Effect (.heldReadRelease path) s (fun u =>
          u.wd = { s.wd with held := s.wd.held.erase h, lastRead := aset s.wd.lastRead (path, h.2.1) s.wd.ticks }
          ∧ (path = 1 → ∃ o, u.out = s.out ++ [.mport o]))))) ∧
    ((∀ words : Bool, s.log.up = false ∨ s.wd.started = false → Completes (.mirrorHeartbeat words) s s) ∧
      (∀ words : Bool, s.log.up = true → s.wd.started = true → Effect (.mirrorHeartbeat words) s (fun u =>
        u.wit = { s.wit with mirror := if words then s.wdMirror else s.wit.mirror, heardAt := s.now, wdDown := false }
        ∧ u.wd = { s.wd with faults := if s.wit.wdDown then s.wd.faults + 1 else s.wd.faults })) ∧
      (s.log.up = false ∨ s.wit.wdDown = true → Completes .wdHeartbeatTimeout s s) ∧
      (s.log.up = true → s.wit.wdDown = false → Effect .wdHeartbeatTimeout s (fun u => u.wit.wdDown = true
        ∧ u.now = max s.now (s.wit.heardAt + sclk (2 ^ 26) + sclk 1) ∧ u.wd = s.wd)))

/-- O57. Probes, lost chips, admission, firmware in service, dies and slack. A probe is answered by a running
control plane. A peer whose probe times out is declared lost to every Plofen; a loss fences its compositions
here and enters the coordinator's next fence list. A chip that joins, or has loaded, goes on to its admission.
A firmware switch brings the other copy in force as its kind asks, a commit raises its counter, a missed
restart falls back. A fenced die returns only once its cause has cleared, with the units that passed. A slack
reading warns below 20 ps and fails at 8. Basis: derived, R22, R533, R534, R535, R540, R541, R542, R544, R545,
R546, R547, R504. -/
def Obligations.LossAndFirmware : Prop :=
  ∀ s : State,
    (∀ src heard, src < 65536 → heard = { s with img := { s.img with
          coordHeard := if src = s.img.coord then s.now else s.img.coordHeard,
          standbyHeard := if src = s.img.standby then s.now else s.img.standbyHeard } } →
      (s.arch.cp = .run → Completes (.probe src) s { heard with out := s.out ++ [.ctrl src .probeAnswer] }) ∧
      (s.arch.cp ≠ .run → Completes (.probe src) s heard) ∧
      (s.img.isCoord = false → Completes (.join src) s heard) ∧
      (s.img.isCoord = true → s.img.preparing = none → s.img.prepared = none →
        (s.img.prevEpoch ≠ none → Completes (.join src) s { heard with erc := { s.erc with
          joins := if s.erc.joins.contains src then s.erc.joins else s.erc.joins ++ [src] } }) ∧
        Effect (.join src) s (fun u => src ∈ u.erc.joins ∨ src ∉ u.img.fences))) ∧
    (∀ n, n < 65536 →
      (s.erc.lost.contains n = true → Completes (.nodeLost n) s s) ∧
      (s.erc.lost.contains n = false → s.img.isCoord = false → Effect (.nodeLost n) s (fun u =>
        u.erc.lost = s.erc.lost ++ [n] ∧ u.img.nextFences = s.img.nextFences
        ∧ (∀ c ∈ s.compositions, (s.members c).contains n = true → u.compFenced c = true)
        ∧ (∀ c, s.compFenced c = true → u.compFenced c = true))) ∧
      (s.erc.lost.contains n = false → s.img.isCoord = true → s.img.preparing = none → Effect (.nodeLost n) s (fun u =>
        n ∈ u.img.nextFences ∨ n ∈ u.img.fences)) ∧
      (afind s.erc.probes n = none → Completes (.probeTimeout n) s s) ∧
      (∀ d, afind s.erc.probes n = some d → Effect (.probeTimeout n) s (fun u => n ∈ u.erc.lost ∨ n ∈ u.img.fences) ∧
        Effect (.probeTimeout n) s (fun u => afind u.erc.probes n = none
          ∧ (∀ m ∈ s.plofens, m ≠ s.fab.node → .ctrl m (.nodeLost n) ∈ u.out)
          ∧ u.satVal satErcNodeLost = satAdd 16 (s.satVal satErcNodeLost) 1))) ∧
    (∀ done, done = (s.erc.admission = 3 ∧ (s.fitted capFLM = false ∨ s.flm.st = 3 ∨ s.flm.st = 4)) →
      (¬ done → Completes .admissionLoadDone s s) ∧
      (done → s.img.isCoord = false → Effect .admissionLoadDone s (fun u => u.erc = { s.erc with admission := 4 }))) ∧
    (∀ (who : Who) k, who.wf = true → 1 ≤ k → k < 4 → s.csrGate who ercFwCtrl true = none →
      ((∀ i, who ≠ .operator i) → Completes (.fwSwitch who k) s (answerCsr who ercFwCtrl .denied 0 s) ∧
        Completes (.fwCommit who k) s (answerCsr who ercFwCtrl .denied 0 s)) ∧
      (∀ i, who = .operator i →
        (s.arch.mp = .restart → Completes (.fwSwitch who k) s (answerCsr who ercFwCtrl .nackRetry 0 s) ∧
          Completes (.fwCommit who k) s (answerCsr who ercFwCtrl .nackRetry 0 s)) ∧
        (s.arch.mp ≠ .restart →
          ((s.fw k).pending = false ∨ (s.fw k).switching = true →
            Completes (.fwSwitch who k) s (answerCsr who ercFwCtrl .ok 0 s)) ∧
          ((s.fw k).pending = true → (s.fw k).switching = false →
            (k = 1 ∨ (k = 2 ∧ (List.range 64).any s.runsSteps = false) → Effect (.fwSwitch who k) s (fun u =>
              u.fw k = { s.fw k with
                inForceB := !(s.fw k).inForceB, switching := true
                deadline := some (s.now + if k = 1 then mclk (2 ^ 26) else cclk (2 ^ 28)) }
              ∧ (k = 1 → u.arch.mp = .restart ∧ u.arch.cp = s.arch.cp
                  ∧ u.satVal satMpRestarts = satAdd (satWidth satMpRestarts) (s.satVal satMpRestarts) 1)
              ∧ (k = 2 → u.arch.cp = .restart ∧ u.arch.mp = s.arch.mp ∧ u.img.queryOwed = true
                  ∧ u.satVal satCpRestarts = satAdd (satWidth satCpRestarts) (s.satVal satCpRestarts) 1))) ∧
            (k = 2 → (List.range 64).any s.runsSteps = true → Completes (.fwSwitch who k) s (answerCsr who ercFwCtrl .ok 0
              { s with erc := { s.erc with fw := aset s.erc.fw 2 { s.fw 2 with switching := true } } })) ∧
            (k = 3 → Effect (.fwSwitch who k) s (fun u => (u.fw 3).inForceB = !(s.fw 3).inForceB
              ∧ (u.fw 3).copyA = (s.fw 3).copyA ∧ (u.fw 3).copyB = (s.fw 3).copyB
              ∧ ∀ g t, g < 64 → s.runsSteps g = false → t ∈ s.trimmersOf g → (s.trmOf t).mode ≠ 0 →
                  (u.trmOf t).fwDown = true ∧ (u.trmOf t).fwCopyB = !(s.fw 3).inForceB))) ∧
          ((s.fw k).switching = true → Completes (.fwCommit who k) s (answerCsr who ercFwCtrl .nackRetry 0 s)) ∧
          ((s.fw k).switching = false → Completes (.fwCommit who k) s (answerCsr who ercFwCtrl .ok 0 { s with
            erc := { s.erc with fw := aset s.erc.fw k { s.fw k with pending := false } }
            sec := { s.sec with arb := s.sec.arb.set (k + 1) (max (s.fw k).inForce.1 (s.sec.arb.getD (k + 1) 0)) } }))))) ∧
    (∀ k, 1 ≤ k → k < 4 →
      ((s.fw k).switching = false ∨ (s.fw k).deadline = none → Completes (.fwRestartBudgetExpiry k) s s) ∧
      (∀ d, (s.fw k).switching = true → (s.fw k).deadline = some d → Effect (.fwRestartBudgetExpiry k) s (fun u =>
        u.now = max s.now (d + mclk 1) ∧ u.fw k = { s.fw k with
          inForceB := !(s.fw k).inForceB, switching := false, deadline := none, pending := false }))) ∧
    (∀ (who : Who) d found (failed ft fk : List Nat), who.wf = true → d < 4 → s.csrGate who 0x0070048 true = none →
      (liftsFence who = false → Completes (.dieUnfence who d found failed ft fk) s (answerCsr who 0x0070048 .denied 0 s)) ∧
      (liftsFence who = true →
        (s.erc.adFenced.getD d false = false →
          Completes (.dieUnfence who d found failed ft fk) s (answerCsr who 0x0070048 .ok 0 s)) ∧
        (s.erc.adFenced.getD d false = true → s.dieCleared d found = false →
          Completes (.dieUnfence who d found failed ft fk) s (answerCsr who 0x0070048 .denied 0 s)) ∧
        (s.erc.adFenced.getD d false = true → s.dieCleared d found = true →
          Effect (.dieUnfence who d found failed ft fk) s (fun u => u.erc.adFenced.getD d false = false
            ∧ (∀ a, 384 * d ≤ a → a < 384 * d + 384 → a < s.variant.arrays →
                (u.arr a).fence = if failed.contains a then { on := true, cause := 3 } else {})
            ∧ (∀ k, k = 2 * d ∨ k = 2 * d + 1 → k < s.variant.stacks →
                (u.hbm k).trained = !fk.contains k
                ∧ (u.hbm k).fence = if fk.contains k then { on := true, cause := 3 } else {}))))) ∧
    (∀ l : List Nat,
      (s.arch.mp ≠ .run → Completes (.slackRead l) s s) ∧
      (s.arch.mp = .run → s.erc.adFenced.length = 4 → Effect (.slackRead l) s (fun u =>
        ∀ d ps, d < 11 → l[d]? = some ps → s.dieFitted d = true →
          u.slack d = { valid := true, warn := decide (ps < 20), fail := decide (ps ≤ 8), minPs := ps % 65536 }
          ∧ (5 ≤ d → d < 9 → ps ≤ 8 → 795 < (aget s.pkg.avs (d - 5) (0, 0)).2 → u.erc.adFenced.getD (d - 5) false = true)
          ∧ (5 ≤ d → d < 9 → ps < 20 → (aget s.pkg.avs (d - 5) (0, 0)).2 ≤ 795 →
              aget u.pkg.avs (d - 5) (0, 0) = ((aget s.pkg.avs (d - 5) (0, 0)).1 + 1, (aget s.pkg.avs (d - 5) (0, 0)).2 + 5)))))

/-- O58. Occurrences are stored at the end of their cycle or suppressed by their bucket; refills, stores of the
first area, slot reads. An occurrence waits for the end of its cycle. Then one whose bucket holds a token is
stored in the next slot with the next SEQ, the next LC and its suppressed count, and takes the token; one
without a token is counted and stores nothing. Two of one cycle are stored by plane, code and unit, not as
they came. A refill fills every bucket. A store copies the first area, and the copy is current only once it
verifies. The first word of a slot latches the whole entry for its reader. Basis: derived, R550, R551, R552,
R553, R555, R556. -/
def Obligations.KilnLog : Prop :=
  ∀ s : State,
    (∀ code unit sag payload e, s.log.up = true → e = mkEntry code unit sag payload (eventPlane code) s →
      logEvent code unit sag payload s = { s with log := { s.log with fresh := s.log.fresh ++ [e] } }) ∧
    (∀ a b u x y, s.log.fresh = [a, b] → s.log.cycle = [] → s.log.firstN < 4094 → storedBefore b a = true →
      s.bucketOf a.code a.sag ≠ s.bucketOf b.code b.sag → aget s.log.taken (s.bucketOf a.code a.sag) 0 < eventLimit a.code →
      aget s.log.taken (s.bucketOf b.code b.sag) 0 < eventLimit b.code → u = carry (s.now + 60) s →
      x = { b with suppressed := aget s.log.suppressed (s.bucketOf b.code b.sag) 0, lc := (s.arch.lc + 1) % 2 ^ 32, seq := s.log.head } →
      y = { a with
        suppressed := aget s.log.suppressed (s.bucketOf a.code a.sag) 0, lc := ((s.arch.lc + 1) % 2 ^ 32 + 1) % 2 ^ 32,
        seq := (s.log.head + 1) % 2 ^ 32 } →
      afind u.log.slots s.log.firstN = some x ∧ afind u.log.slots (s.log.firstN + 1) = some y
        ∧ u.log.fresh = [] ∧ u.log.cycle = [] ∧ u.log.firstN = s.log.firstN + 2) ∧
    (∀ code unit sag payload, s.log.up = true → s.log.firstN ≠ 4095 → (s.satVal satLogSuppressed + 1 ≠ 2 ^ 16 - 1) →
      s.log.fresh = [] → s.log.cycle = [] →
      ∀ k e u, k = s.bucketOf code sag → e = mkEntry code unit sag payload (eventPlane code) s →
        u = carry (s.now + 60) (logEvent code unit sag payload s) →
      (aget s.log.taken k 0 < eventLimit code →
        afind u.log.slots s.log.nextIndex = some { e with
          suppressed := aget s.log.suppressed k 0, lc := (s.arch.lc + 1) % 2 ^ 32, seq := s.log.head }
        ∧ (∀ i, i ≠ s.log.nextIndex → afind u.log.slots i = afind s.log.slots i)
        ∧ u.log.head = (s.log.head + 1) % 2 ^ 32 ∧ u.arch.lc = (s.arch.lc + 1) % 2 ^ 32
        ∧ aget u.log.taken k 0 = aget s.log.taken k 0 + 1 ∧ aget u.log.suppressed k 0 = 0
        ∧ (s.log.firstN < 4096 → u.log.firstN = s.log.firstN + 1)
        ∧ (4096 ≤ s.log.firstN → u.log.firstN = s.log.firstN
            ∧ u.log.nextSlot = if s.log.nextSlot = 32767 then 4096 else s.log.nextSlot + 1)) ∧
      (eventLimit code ≤ aget s.log.taken k 0 → u.log.slots = s.log.slots ∧ u.log.head = s.log.head ∧ u.arch = s.arch
        ∧ aget u.log.suppressed k 0 = satAdd 16 (aget s.log.suppressed k 0) 1
        ∧ u.satVal satLogSuppressed = satAdd 16 (s.satVal satLogSuppressed) 1)) ∧
    Effect .logBucketRefill s (fun u => u.now = (s.now / mclk (2 ^ 20) + 1) * mclk (2 ^ 20)
      ∧ ∀ t, t = carry ((s.now / mclk (2 ^ 20) + 1) * mclk (2 ^ 20)) s →
        u = { t with log := { t.log with taken := [], refilled := u.now / mclk (2 ^ 20) } }) ∧
    (∀ who : Who, who.wf = true → s.csrGate who 0x0050010 true = none →
      (s.arch.mp = .restart → Completes (.logStore who) s (answerCsr who 0x0050010 .nackRetry 0 s)) ∧
      (s.arch.mp ≠ .restart → s.log.storeBusy = true → Completes (.logStore who) s (answerCsr who 0x0050010 .ok 0 s)) ∧
      (s.arch.mp ≠ .restart → s.log.storeBusy = false → Effect (.logStore who) s (fun u => u.out = s.out ++ [.csr who 0x0050010 .ok 0]
        ∧ u.log = { s.log with storeBusy := true, storing := u.log.storing }
        ∧ ∃ c, u.log.storing = some c ∧ c.slots = s.log.slots.filter (fun p => p.1 < 4096) ∧ c.firstN = s.log.firstN
          ∧ c.firstSeq = s.log.firstSeq ∧ c.head = s.log.head))) ∧
    ((∀ v, s.log.storing = none → Completes (.logStoreDone v) s s) ∧
      (∀ c, s.log.storing = some c →
        Effect (.logStoreDone true) s (fun u => u.log.storeBusy = false ∧ u.log.storing = none ∧ u.log.stored = true
          ∧ (s.log.nvCur = some false → u.log.nvCur = some true ∧ u.log.nvB = some c ∧ u.log.nvA = s.log.nvA)
          ∧ (s.log.nvCur ≠ some false → u.log.nvCur = some false ∧ u.log.nvA = some c ∧ u.log.nvB = s.log.nvB)) ∧
        Effect (.logStoreDone false) s (fun u => u.log.nvCur = s.log.nvCur ∧ u.log.nvA = s.log.nvA ∧ u.log.nvB = s.log.nvB
          ∧ u.satVal satLogStoreFail = satAdd 16 (s.satVal satLogStoreFail) 1))) ∧
    (∀ (who : Who) slot a, who.wf = true → slot < 32768 → a = 0x0051000 + slot % 64 * 64 →
      (aget s.log.cur who 0 % 512 ≠ slot / 64 → Completes (.logSlotFirstRead who slot) s s) ∧
      (aget s.log.cur who 0 % 512 = slot / 64 → s.csrGate who a false = none →
        (∀ x ∈ aget s.arch.latches who [], x.1 ≠ a) →
        Effect (.logSlotFirstRead who slot) s (fun u =>
          u.out = s.out ++ [.csr who a .ok (BitVec.ofNat 32 (le (s.slotBytes slot) 0 4))]
          ∧ afind u.log.latch who = some (slot, s.slotBytes slot) ∧ u.log.slots = s.log.slots)))

/-- O59. Power-on step by step, the resets, and what each failure does. Power-on starts afresh at the rise of
PWR_GOOD_AON and keeps what NVM keeps. The PLL lock completes step 1, a verified boot step 2; rail groups go
on in order, and SD's release completes step 3. A boot with no verified copy and a failed core group end in
BOOT_FAIL; an HBM rail that fails leaves the HBM rails off. A core supply loss, the reset pins, an orderly
power-down, a thermal trip and the end of holdover do what the reset table gives. Basis: derived, R570, R573,
R574, R575, R580, R583, R584, R585, R587, R480, R471. -/
def Obligations.PowerOn : Prop :=
  ∀ s : State,
    (s.pkg.pgAon = true → Completes .pwrGoodAonRise s s) ∧
    (s.pkg.pgAon = false → Completes .pwrGoodAonFall s s) ∧
    (∀ (c : Instr) rise, (c = .pwrGoodAonRise ∧ rise = true) ∨ (c = .pwrGoodAonFall ∧ rise = false) → s.pkg.pgAon = !rise →
      Effect c s (fun u => u.pkg.pgAon = rise ∧ u.pkg.st = 1 ∧ u.pkg.stepsDone = [] ∧ u.pkg.rails = [] ∧ u.pkg.tripN = true
        ∧ (rise = true → u.pkg.aonAt = s.now) ∧ u.arch.mp = .off ∧ u.arch.cp = .off ∧ u.log.up = false ∧ u.img.st = 0
        ∧ u.jsl.sessions = [] ∧ u.tie.regions = [] ∧ u.fab.inbox = [] ∧ u.wd = s.wd ∧ u.sec.claimed = s.sec.claimed
        ∧ u.sec.enrolled = s.sec.enrolled ∧ u.sec.arb = s.sec.arb ∧ u.img.nvA = s.img.nvA ∧ u.img.nvB = s.img.nvB
        ∧ u.img.nvValid = s.img.nvValid ∧ u.log.nvA = s.log.nvA ∧ u.log.nvB = s.log.nvB ∧ u.log.nvCur = s.log.nvCur
        ∧ u.pkg.lastReset = s.pkg.lastReset)) ∧
    (s.pkg.pgAon = true → s.pkg.rootLock = false → (s.pkg.aValid = true ∨ s.pkg.bValid = true) →
      Effect .rootPllLock s (fun u => u.pkg.rootLock = true ∧ u.pkg.selB = (!s.pkg.aValid) ∧ u.pkg.st = 2 ∧ u.arch.mp = .boot
        ∧ 1 ∈ u.pkg.stepsDone ∧ u.now = s.now)) ∧
    (s.pkg.pgAon = false ∨ s.pkg.rootLock = true ∨ (s.pkg.aValid = false ∧ s.pkg.bValid = false) → Completes .rootPllLock s s) ∧
    (∀ a b : Bool,
      (s.pkg.st ≠ 2 ∨ s.arch.mp ≠ .boot → Completes (.mgmtBootDone a b) s s) ∧
      (s.pkg.st = 2 → s.arch.mp = .boot →
        (a = false → b = false → Completes (.mgmtBootDone a b) s { s with pkg := { s.pkg with st := 6 } }) ∧
        (a = true ∨ b = true → Effect (.mgmtBootDone a b) s (fun u => u.arch.mp = .run ∧ u.pkg.st = 3 ∧ 2 ∈ u.pkg.stepsDone
          ∧ u.pkg.group = 1 ∧ u.pkg.awaited = [4, 5] ∧ u.pkg.groupDeadline = some (s.now + mclk (2 ^ 22))
          ∧ (u.fw 1).inForceB = (if (if (s.fw 1).inForceB then b else a) = true then (s.fw 1).inForceB else !(s.fw 1).inForceB))))) ∧
    (s.groupOn = false → Completes .railGroupPowerGood s s ∧ ∀ r, r < 13 → Completes (.railGroupTimeout r) s s) ∧
    (s.groupOn = true →
      Effect .railGroupPowerGood s (fun u => u.pkg.group = s.nextGroup s.pkg.group ∧ u.pkg.st = 3
        ∧ ∀ r, (s.pkg.awaited.contains r = true → (aget u.pkg.rails r {}).pg = true ∧ (aget u.pkg.rails r {}).off = false)
          ∧ (s.pkg.awaited.contains r = false → aget u.pkg.rails r {} = aget s.pkg.rails r {})) ∧
      (∀ r, r < 13 → s.pkg.awaited.contains r = false → Completes (.railGroupTimeout r) s s) ∧
      (∀ r, r < 13 → s.pkg.awaited.contains r = true → Effect (.railGroupTimeout r) s (fun u =>
        u.now = (match s.pkg.groupDeadline with | some d => max s.now (d + mclk 1) | none => s.now)
        ∧ (s.pkg.group < 4 → u.pkg.st = 6 ∧ u.pkg.group = 0 ∧ ∀ k, k < 13 → (aget u.pkg.rails k {}).off = true)
        ∧ (s.pkg.group = 4 → u.pkg.st = 3 ∧ u.pkg.group = s.nextGroup 4 ∧ (aget u.pkg.rails r {}).off = true ∧ (aget u.pkg.rails r {}).pg = false
            ∧ ∀ k, k ≠ r → s.pkg.awaited.contains k = true → (aget u.pkg.rails k {}).pg = true)
        ∧ (5 ≤ s.pkg.group → u.pkg.st = 3 ∧ u.pkg.skipHbm = true ∧ u.pkg.group = 8
            ∧ ∀ k, 10 ≤ k → k ≤ 12 → (aget u.pkg.rails k {}).off = true)))) ∧
    (∀ w : Word32,
      (¬ (s.pkg.st = 3 ∧ s.pkg.group = 8 ∧ s.pkg.restartAt = none) → Completes (.sdRelease w) s s) ∧
      (s.pkg.st = 3 → s.pkg.group = 8 → s.pkg.restartAt = none → Effect (.sdRelease w) s (fun u => ∃ v : State,
        v.pkg.st = 4 ∧ v.pkg.pgCore = true ∧ v.pkg.coreDeadline = none ∧ 3 ∈ v.pkg.stepsDone ∧ v.arch.cp = .run
        ∧ v.log.up = true ∧ v.wit.sdBoot = w ∧ v.img = s.img
        ∧ (s.img.boot.toNat % 2 = 0 ∨ s.storedImage = none → u = v)
        ∧ (∀ im, s.img.boot.toNat % 2 = 1 → s.storedImage = some im →
            (v.refusalOf im true .stored = none → u = epochWork (applyFull (resolve im {}) .stored v))
            ∧ (∀ c, v.refusalOf im true .stored = some c → u.img = { s.img with cause := c.1 } ∧ u.pkg = v.pkg))))) ∧
    ((s.pkg.coreDeadline = none ∨ s.pkg.st ≠ 3 → Completes .pwrGoodCoreTimeout s s) ∧
      (∀ d, s.pkg.coreDeadline = some d → s.pkg.st = 3 → Effect .pwrGoodCoreTimeout s (fun u =>
        u.now = max s.now (d + mclk 1) ∧ u.pkg.st = 6 ∧ ∀ k, k < 13 → (aget u.pkg.rails k {}).off = true))) ∧
    ((s.pkg.pgCore = false → Completes .pwrGoodCoreFall s s) ∧
      (s.pkg.pgCore = true → s.pkg.st = 4 → Effect .pwrGoodCoreFall s (fun u => u.pkg.pgCore = false ∧ u.pkg.lastReset = 3
        ∧ u.pkg.st = 3 ∧ u.pkg.group = 1 ∧ u.arch.cp = .off ∧ u.arch.mp = s.arch.mp ∧ u.jsl.sessions = [] ∧ u.wd = s.wd
        ∧ u.img.nvA = s.img.nvA ∧ u.img.nvB = s.img.nvB))) ∧
    ((s.pkg.resetN = false → Completes .resetNFall s s) ∧
      (s.pkg.resetN = true → s.pkg.pgAon = true → s.pkg.tripN = true → Effect .resetNFall s (fun u =>
        u.pkg.resetN = false ∧ u.pkg.st = 1 ∧ u.pkg.lastReset = 1 ∧ u.pkg.rails = [] ∧ u.arch.mp = .off ∧ u.arch.cp = .off
        ∧ u.wd = s.wd ∧ u.img.nvA = s.img.nvA ∧ u.log.nvA = s.log.nvA ∧ 2 ∉ u.pkg.stepsDone
        ∧ (1 ∈ u.pkg.stepsDone ↔ 1 ∈ s.pkg.stepsDone))) ∧
      (s.pkg.resetN = true → Completes .resetNRise s s) ∧
      (s.pkg.resetN = false → s.pkg.restartAt = some 2 → s.pkg.tripN = true → Completes .resetNRise s { s with
        pkg := { s.pkg with resetN := true, st := 2, restartAt := none }, arch := { s.arch with mp := .boot } })) ∧
    ((s.pkg.warmN = false → Completes .warmResetNFall s s) ∧
      (s.pkg.warmN = true → s.pkg.resetN = false ∨ s.pkg.group ≠ 8 →
        Completes .warmResetNFall s { s with pkg := { s.pkg with warmN := false } }) ∧
      (s.pkg.warmN = true → s.pkg.resetN = true → s.pkg.group = 8 → Effect .warmResetNFall s (fun u =>
        u.pkg.warmN = false ∧ u.pkg.st = 3 ∧ u.pkg.lastReset = 2 ∧ u.pkg.rails = s.pkg.rails ∧ u.pkg.group = 8
        ∧ u.arch.mp = s.arch.mp ∧ u.arch.cp = .off ∧ u.jsl.sessions = [] ∧ u.wd = s.wd ∧ 3 ∉ u.pkg.stepsDone
        ∧ (2 ∈ u.pkg.stepsDone ↔ 2 ∈ s.pkg.stepsDone))) ∧
      (s.pkg.warmN = true → Completes .warmResetNRise s s) ∧
      (s.pkg.warmN = false → s.pkg.restartAt = some 3 → s.pkg.group = 8 → Completes .warmResetNRise s { s with
        pkg := { s.pkg with warmN := true, restartAt := none } })) ∧
    (∀ who : Who, who.wf = true → s.csrGate who 0x0010004 true = none →
      ((∀ i, who ≠ .operator i) → Completes (.orderlyPowerDown who) s (answerCsr who 0x0010004 .denied 0 s)) ∧
      (∀ i, who = .operator i → s.pkg.st ≠ 4 → Completes (.orderlyPowerDown who) s (answerCsr who 0x0010004 .ok 0 s)) ∧
      (∀ i, who = .operator i → s.pkg.st = 4 → Effect (.orderlyPowerDown who) s (fun u =>
        u.pkg.st = 0 ∧ (∀ k, k < 13 → (aget u.pkg.rails k {}).off = true) ∧ u.jsl.sessions = [] ∧ u.arch.cp = .off
        ∧ u.log.nvCur ≠ none ∧ ∃ f : TapFrame, f.kind = 4 ∧ .tap f ∈ u.out))) ∧
    ((s.pkg.pgAon = false ∨ s.pkg.tripN = false → Completes .thermalTrip s s) ∧
      (s.pkg.pgAon = true → s.pkg.tripN = true → Effect .thermalTrip s (fun u => u.pkg.tripN = false ∧ u.pkg.lastReset = 6
        ∧ u.pkg.st = 1 ∧ u.pkg.restartAt = none ∧ (∀ k, k < 13 → (aget u.pkg.rails k {}).off = true) ∧ u.arch.cp = .off
        ∧ u.wd = s.wd))) ∧
    ((s.pkg.holdoverAt = none → Completes .holdoverTimeout s s) ∧
      (∀ t, s.pkg.holdoverAt = some t → Effect .holdoverTimeout s (fun u => u.now = max s.now (t + mclk (2 ^ 28) + mclk 1)
        ∧ u.pkg.lastReset = 5 ∧ u.pkg.holdover = false ∧ u.pkg.holdoverAt = none ∧ u.arch.cp = .off
        ∧ u.pkg.st = (if s.pkg.pgCore = true then 1 else 3))))

/-- O60. Rail polls, the power cap, thermal skips, references, load warnings and the sideband. A poll stores each
answered rail's reading, counts each unanswered one and integrates the power; a fault of a core regulator is a
power loss. The cap moves by 1 in 64ths with the package power, at most 56. A die at 100 degrees skips at
least half; steps move the fraction by 1. A lost reference moves the PLL to the other input or into holdover.
The I3C target returns words the board management controller may read and advances its pointer by 4. Basis:
derived, R498, R569, R571, R572, R575, R576, R579, R583, R30, R31, R497. -/
def Obligations.PackageControl : Prop :=
  ∀ s : State,
    (∀ l : List RailReading, (∀ x ∈ l, x.rail < 13) →
      (s.arch.mp ≠ .run ∨ s.pkg.st < 2 ∨ 4 < s.pkg.st → Completes (.pmbusPoll l) s s) ∧
      (s.arch.mp = .run → 2 ≤ s.pkg.st → s.pkg.st ≤ 4 →
        ((∀ x ∈ l, x.fault = false) → (l.map (·.rail)).Nodup → Effect (.pmbusPoll l) s (fun u =>
          u.now = (s.now / mclk (2 ^ 18) + 1) * mclk (2 ^ 18)
          ∧ u.pkg.energyAcc = (s.pkg.energyAcc + u.packagePower * 2 ^ 18) % 250000000
          ∧ (∀ x ∈ l, s.railPresent x.rail = true → x.answered = true → aget u.pkg.rails x.rail {} =
              { mv := x.mv % 4096, iout := x.amps4 % 4096, watts := x.watts % 65536, pg := x.powerGood, ocWarn := x.ocWarn,
                otWarn := x.otWarn, fault := false, off := (aget s.pkg.rails x.rail {}).off })
          ∧ (∀ r, (∀ x ∈ l, x.rail = r → s.railPresent r = false ∨ x.answered = false) →
              aget u.pkg.rails r {} = aget s.pkg.rails r {}))) ∧
        (∀ x, l = [x] → s.railPresent x.rail = true → x.answered = false → Effect (.pmbusPoll l) s (fun u =>
          u.satVal satPmcPmbus = satAdd (satWidth satPmcPmbus) (s.satVal satPmcPmbus) 1)) ∧
        (∀ x, l = [x] → 4 ≤ x.rail → x.rail < 10 → s.railPresent x.rail = true → x.answered = true → x.fault = true →
          (aget s.pkg.rails x.rail {}).fault = false → Effect (.pmbusPoll l) s (fun u => u.pkg.lastReset = 4 ∧ u.arch.cp = .off
            ∧ (s.pkg.pgCore = true → u.pkg.st = 1 ∧ ∀ k, k < 13 → (aget u.pkg.rails k {}).off = true))))) ∧
    ((s.arch.mp ≠ .run → Completes .powerCapUpdate s s) ∧
      (s.arch.mp = .run → Effect .powerCapUpdate s (fun u => s.now ≤ u.now ∧ u.now < s.now + mclk (2 ^ 18)
        ∧ u.now % mclk (2 ^ 18) = 0 ∧ u = { carry u.now s with pkg := { s.pkg with cap := u.pkg.cap } }
        ∧ (s.pkgLimit < s.packagePower → u.pkg.cap = min 56 (s.pkg.cap + 1))
        ∧ (s.packagePower * 100 < s.pkgLimit * 95 → u.pkg.cap = s.pkg.cap - 1)
        ∧ (s.packagePower ≤ s.pkgLimit → s.pkgLimit * 95 ≤ s.packagePower * 100 → u.pkg.cap = s.pkg.cap)))) ∧
    (∀ (who : Who) (v : Word32), who.wf = true → s.csrGate who 0x0060300 true = none →
      ∀ n, n = v.toNat % 4096 →
      (400 ≤ n → n ≤ s.variant.maxPower → Effect (.pkgLimitWrite who v) s (fun u => u.pkgLimit = n
        ∧ u.pkg = { s.pkg with limit := some n } ∧ u.out = s.out ++ [.csr who 0x0060300 .ok 0])) ∧
      (n < 400 ∨ s.variant.maxPower < n → Completes (.pkgLimitWrite who v) s (answerCsr who 0x0060300 .ok 0 s))) ∧
    (∀ d t per, d < 11 → t < 256 → per = (if 5 ≤ d ∧ d ≤ 8 then aclk else sclk) →
      (s.dieFitted d = false → Completes (.thermalSensorRead d t) s s ∧ Completes (.thermalSkipStep d) s s) ∧
      (s.dieFitted d = true →
        Effect (.thermalSensorRead d t) s (fun u => u.now = (s.now / per (2 ^ 12) + 1) * per (2 ^ 12)
          ∧ aget u.pkg.therm d {} = { valid := true, temp := t, skip :=
              (if 100 ≤ t then max 32 (aget s.pkg.therm d {}).skip else (aget s.pkg.therm d {}).skip) }
          ∧ ∀ k, k ≠ d → aget u.pkg.therm k {} = aget s.pkg.therm k {}) ∧
        ((aget s.pkg.therm d {}).valid = false → Completes (.thermalSkipStep d) s s) ∧
        ((aget s.pkg.therm d {}).valid = true → Effect (.thermalSkipStep d) s (fun u =>
          u.now = (s.now / per (2 ^ 16) + 1) * per (2 ^ 16)
          ∧ ∀ k t, k = (aget s.pkg.therm d {}).skip → t = (aget s.pkg.therm d {}).temp →
            (k ≤ 56 → 95 ≤ t → (aget u.pkg.therm d {}).skip = min 56 (k + 1))
            ∧ (t < 94 → (aget u.pkg.therm d {}).skip = k - 1) ∧ (t = 94 → (aget u.pkg.therm d {}).skip = k))))) ∧
    (∀ (b : Bool) (valid other : Bool), valid = (if b then s.pkg.bValid else s.pkg.aValid) →
      other = (if b then s.pkg.aValid else s.pkg.bValid) →
      (s.pkg.pgAon = false → Completes (.refclkInvalid b) s s ∧ Completes (.refclkValid b) s s) ∧
      (s.pkg.pgAon = true →
        (valid = false → Completes (.refclkInvalid b) s s) ∧
        (valid = true → Effect (.refclkInvalid b) s (fun u =>
          (if b then u.pkg.bValid else u.pkg.aValid) = false ∧ (if b then u.pkg.aValid else u.pkg.bValid) = other
          ∧ (s.pkg.rootLock = false ∨ s.pkg.selB ≠ b → u.pkg.selB = s.pkg.selB ∧ u.pkg.holdover = s.pkg.holdover)
          ∧ (s.pkg.rootLock = true → s.pkg.selB = b →
              (other = true → u.pkg.selB = (!b) ∧ u.pkg.holdover = s.pkg.holdover)
              ∧ (other = false → u.pkg.selB = b ∧ u.pkg.holdover = true ∧ u.pkg.holdoverAt = some s.now)))) ∧
        Effect (.refclkValid b) s (fun u => (if b then u.pkg.bValid else u.pkg.aValid) = true
          ∧ (s.pkg.holdover = false → u.pkg.selB = s.pkg.selB)
          ∧ (s.pkg.holdover = true → s.pkg.holdoverAt ≠ none → u.pkg.selB = b ∧ u.pkg.holdover = false)))) ∧
    (∀ r, r = aget s.arrs.ramp 4 {} →
      (∀ w, r.warnAt = some w → r.highAt = none → Effect .sdLoadRelease s (fun u => u.now = max s.now (w + sclk 3000)
        ∧ (aget u.arrs.ramp 4 {}).held = [] ∧ (aget u.arrs.ramp 4 {}).highAt = some (u.now + sclk (2 ^ 13)))) ∧
      (r.warnAt = none ∨ r.highAt ≠ none → Completes .sdLoadRelease s s)) ∧
    (∀ b, b < 5 → Effect (.loadWarnNHigh b) s (fun u =>
      (∀ k, k % 8 ≠ b → aget u.arrs.ramp k {} = aget s.arrs.ramp k {})
      ∧ ((∀ p ∈ s.arrs.ramp, p.1 % 8 = b → (aget s.arrs.ramp p.1 {}).highAt ≠ none ∧ (aget s.arrs.ramp p.1 {}).held = []) →
          ∀ k, k % 8 = b → (aget u.arrs.ramp k {}).warnAt = none ∧ (aget u.arrs.ramp k {}).highAt = none))) ∧
    (∀ p : BitVec 40,
      (s.arch.mp = .run → Completes (.i3cPrivateWrite p) s { s with pkg := { s.pkg with i3cPtr := p.toNat } }) ∧
      (s.arch.mp ≠ .run → Completes (.i3cPrivateWrite p) s s)) ∧
    (∀ n, n < 65536 →
      (s.arch.mp ≠ .run → Completes (.i3cPrivateRead n) s s) ∧
      (∀ l v, s.arch.mp = .run → i3cWords n [] s = (l, v) → Completes (.i3cPrivateRead n) s { v with out := v.out ++ [.i3c l] })) ∧
    (∀ n l, i3cWords 0 l s = (l, s) ∧
      (s.csrGate .bmc s.pkg.i3cPtr false ≠ none → i3cWords n l s = (l, s)) ∧
      (∀ w v, s.csrGate .bmc s.pkg.i3cPtr false = none → readRegister .bmc s.pkg.i3cPtr s = (w, v) →
        i3cWords (n + 1) l s = i3cWords n (l ++ [BitVec.ofNat 32 w])
          { v with pkg := { v.pkg with i3cPtr := (v.pkg.i3cPtr + 4) % 2 ^ 40 } })) ∧
    Completes .ownClaimNRelease s { s with sec := { s.sec with claimPin := false } } ∧
    (∀ l : List Nat,
      (s.confAny = false ∨ s.arch.mp ≠ .run → Completes (.secUtilPublish l) s s) ∧
      (s.confAny = true → s.arch.mp = .run → Effect (.secUtilPublish l) s (fun u =>
        u.now = (s.now / mclk (2 ^ 28) + 1) * mclk (2 ^ 28) ∧ u.sec.util.length = 8
        ∧ (∀ i, i < 8 → u.sec.util.getD i 0 = min 8 (l.getD i 0)) ∧ u.pkg = s.pkg))) ∧
    (∀ c, c < 256 →
      (c ≤ 1 ∨ s.sec.tapFull = true → Completes (.tapInstruction c) s { s with sec := { s.sec with tapIr := c } }) ∧
      (1 < c → s.sec.tapFull = false → Completes (.tapInstruction c) s s))
end

