-- ==== Sys2Proof/Laws/Assoc.lean ====
section
/-! SUPPORT. Tables: what a read returns after an entry is set, changed or erased. -/

namespace Sys2Proof.Machine

variable {κ α : Type} [DecidableEq κ]

theorem aget_aset (m : Assoc κ α) (k k' : κ) (v d : α) :
    aget (aset m k v) k' d = if k = k' then v else aget m k' d := by
  induction m with
  | nil => simp [aset, aget]
  | cons p r ih =>
    obtain ⟨a, b⟩ := p
    by_cases h : a = k
    · subst h; by_cases h' : a = k' <;> simp [aset, aget, h']
    · by_cases h' : a = k'
      · subst h'; simp [aset, aget, h, Ne.symm h]
      · simp [aset, aget, h, h', ih]

@[simp] theorem aget_aset_self (m : Assoc κ α) (k : κ) (v d : α) : aget (aset m k v) k d = v := by
  simp [aget_aset]

theorem aget_aset_ne (m : Assoc κ α) (v d : α) {k k' : κ} (h : k ≠ k') :
    aget (aset m k v) k' d = aget m k' d := by
  simp [aget_aset, h]

theorem aget_amod (m : Assoc κ α) (k k' : κ) (d : α) (f : α → α) :
    aget (amod m k d f) k' d = if k = k' then f (aget m k d) else aget m k' d := by
  simp [amod, aget_aset]

@[simp] theorem aget_amod_self (m : Assoc κ α) (k : κ) (d : α) (f : α → α) :
    aget (amod m k d f) k d = f (aget m k d) := by
  simp [amod]

theorem afind_aset (m : Assoc κ α) (k k' : κ) (v : α) :
    afind (aset m k v) k' = if k = k' then some v else afind m k' := by
  induction m with
  | nil => simp [aset, afind]
  | cons p r ih =>
    obtain ⟨a, b⟩ := p
    by_cases h : a = k
    · subst h; by_cases h' : a = k' <;> simp [aset, afind, h']
    · by_cases h' : a = k'
      · subst h'; simp [aset, afind, h, Ne.symm h]
      · simp [aset, afind, h, h', ih]

@[simp] theorem afind_aset_self (m : Assoc κ α) (k : κ) (v : α) : afind (aset m k v) k = some v := by
  simp [afind_aset]

theorem aget_eq_afind (m : Assoc κ α) (k : κ) (d : α) : aget m k d = (afind m k).getD d := by
  induction m with
  | nil => rfl
  | cons p r ih =>
    obtain ⟨a, b⟩ := p
    by_cases h : a = k <;> simp [aget, afind, h, ih]

theorem afind_aerase (m : Assoc κ α) (k k' : κ) :
    afind (aerase m k) k' = if k = k' then none else afind m k' := by
  induction m with
  | nil => simp [aerase, afind]
  | cons p r ih =>
    obtain ⟨a, b⟩ := p
    have e : aerase ((a, b) :: r) k = if a = k then aerase r k else (a, b) :: aerase r k := by
      by_cases h : a = k <;> simp [aerase, h]
    rw [e]
    by_cases h : a = k
    · subst h; by_cases h' : a = k'
      · subst h'; simp [ih]
      · simp [afind, h', ih]
    · by_cases h' : a = k'
      · subst h'; simp [afind, h, Ne.symm h]
      · simp [afind, h, h', ih]

@[simp] theorem afind_aerase_self (m : Assoc κ α) (k : κ) : afind (aerase m k) k = none := by
  simp [afind_aerase]

theorem aget_aerase (m : Assoc κ α) (k k' : κ) (d : α) :
    aget (aerase m k) k' d = if k = k' then d else aget m k' d := by
  simp only [aget_eq_afind, afind_aerase]; split <;> rfl

end Sys2Proof.Machine
end

