-- ==== Sys2Proof/Laws/Memory.lean ====
section
/-! SUPPORT. Memory: a read after a write, and that every operation keeps the canonical form. -/

namespace Sys2Proof.Machine

theorem memGet_memSet (m : List Host.Cell) (lo : Nat) (hm : memWfFrom lo m = true) (a a' : Nat) (b : Byte) :
    memGet (memSet m a b) a' = if a = a' then b else memGet m a' := by
  induction m generalizing lo with
  | nil =>
    by_cases hb : b = 0
    · simp [memSet, memGet, hb]
    · have hb' : ¬ b = 0#8 := hb
      simp [memSet, memGet, hb']
  | cons c r ih =>
    obtain ⟨k, v⟩ := c
    simp only [memWfFrom, Bool.and_eq_true, decide_eq_true_eq] at hm
    obtain ⟨⟨h1, h2⟩, h3⟩ := hm
    have low : ∀ (x lo : Nat) (r : List Host.Cell), memWfFrom lo r = true → x < lo → memGet r x = 0 := by
      intro x lo r
      induction r generalizing lo with
      | nil => intro _ _; rfl
      | cons c r ih =>
        intro h hx
        obtain ⟨k, v⟩ := c
        simp only [memWfFrom, Bool.and_eq_true, decide_eq_true_eq] at h
        have : k ≠ x := by omega
        simp only [memGet, this, if_false]
        exact ih (k + 1) h.2 (by omega)
    have hz := low k (k + 1) r h3 (by omega)
    simp only [memSet]
    by_cases c1 : a < k
    · have hk : k ≠ a := by omega
      have hza := low a (k + 1) r h3 (by omega)
      by_cases hb : b = 0
      · simp only [c1, if_true, hb]
        by_cases e : a = a'
        · subst e; simp [memGet, hk, hza]
        · simp [e]
      · simp only [c1, if_true, hb, if_false]
        by_cases e : a = a' <;> simp [memGet, e]
    · by_cases c2 : a = k
      · subst c2
        simp only [c1, if_false, if_true]
        by_cases hb : b = 0
        · simp only [hb, if_true]
          by_cases e : a = a'
          · subst e; simp [hz]
          · simp [memGet, e]
        · simp only [hb, if_false]
          by_cases e : a = a' <;> simp [memGet, e]
      · simp only [c1, c2, if_false, memGet]
        by_cases e : k = a'
        · subst e; simp [c2]
        · simp only [e, if_false]; exact ih (k + 1) h3

theorem memWfFrom_mono (m : List Host.Cell) {lo lo' : Nat} (h : lo' ≤ lo) (hm : memWfFrom lo m = true) :
    memWfFrom lo' m = true := by
  cases m with
  | nil => rfl
  | cons c r =>
    obtain ⟨k, v⟩ := c
    simp only [memWfFrom, Bool.and_eq_true, decide_eq_true_eq] at hm ⊢
    exact ⟨⟨by omega, hm.1.2⟩, hm.2⟩

theorem memSet_wfFrom (m : List Host.Cell) (lo a : Nat) (b : Byte) (ha : lo ≤ a) (hm : memWfFrom lo m = true) :
    memWfFrom lo (memSet m a b) = true := by
  induction m generalizing lo with
  | nil =>
    by_cases hb : b = 0
    · simp [memSet, memWfFrom, hb]
    · have hb' : ¬ b = 0#8 := hb
      simp [memSet, memWfFrom, hb', ha]
  | cons c r ih =>
    obtain ⟨k, v⟩ := c
    simp only [memWfFrom, Bool.and_eq_true, decide_eq_true_eq] at hm
    obtain ⟨⟨h1, h2⟩, h3⟩ := hm
    simp only [memSet]
    by_cases c1 : a < k
    · by_cases hb : b = 0
      · have h2' : ¬ v = 0#8 := h2
        simp [c1, hb, memWfFrom, h1, h2', h3]
      · simp only [c1, hb, if_true, if_false, memWfFrom, Bool.and_eq_true, decide_eq_true_eq]
        exact ⟨⟨ha, hb⟩, ⟨by omega, h2⟩, h3⟩
    · by_cases c2 : a = k
      · subst c2
        by_cases hb : b = 0
        · simpa [hb] using memWfFrom_mono r (by omega) h3
        · have hb' : ¬ b = 0#8 := hb
          simp [hb', memWfFrom, ha, h3]
      · simp only [c1, c2, if_false, memWfFrom, Bool.and_eq_true, decide_eq_true_eq]
        exact ⟨⟨h1, h2⟩, ih (k + 1) (by omega) h3⟩

/-- Writing a byte keeps the canonical form. -/
theorem memSet_wf (m : List Host.Cell) (a : Nat) (b : Byte) (hm : Memory.wf m) : Memory.wf (memSet m a b) :=
  memSet_wfFrom m 0 a b (Nat.zero_le a) hm

/-- Writing a byte list keeps the canonical form. -/
theorem memWrite_wf (l : List Byte) (m : List Host.Cell) (a : Nat) (hm : Memory.wf m) : Memory.wf (memWrite m a l) := by
  induction l generalizing m a with
  | nil => exact hm
  | cons b r ih => exact ih _ _ (memSet_wf m a b hm)

/-- Clearing a range keeps the canonical form. -/
theorem memClear_wfFrom (m : List Host.Cell) (lo a n : Nat) (hm : memWfFrom lo m = true) :
    memWfFrom lo (memClear m a n) = true := by
  induction m generalizing lo with
  | nil => rfl
  | cons c r ih =>
    obtain ⟨k, v⟩ := c
    simp only [memWfFrom, Bool.and_eq_true, decide_eq_true_eq] at hm
    have hr := ih (k + 1) hm.2
    simp only [memClear] at hr ⊢
    by_cases h : (decide (k < a) || decide (a + n ≤ k)) = true
    · simp only [List.filter_cons, h, if_true, memWfFrom, Bool.and_eq_true, decide_eq_true_eq]
      exact ⟨hm.1, hr⟩
    · simp only [List.filter_cons, h]
      exact memWfFrom_mono _ (by omega) hr

theorem memClear_wf (m : List Host.Cell) (a n : Nat) (hm : Memory.wf m) : Memory.wf (memClear m a n) :=
  memClear_wfFrom m 0 a n hm

end Sys2Proof.Machine
end

