-- ==== Sys2Proof/Laws/Run.lean ====
section
/-! SUPPORT. How a command completes: from its operands' good form, and the state its effect leaves. -/

namespace Sys2Proof.Machine

/-- A meaning whose operands are well formed answers its effect, settled. -/
theorem run_ok {b : Bool} {u v : State} (hb : b = true) (e : u = v) : run b u = .next (settle v) := by
  subst e; simp [run, hb]

/-- A meaning with an ill-formed operand answers the fault. -/
theorem run_ill {b : Bool} {u : State} (hb : b = false) : run b u = .fault .illFormedCommand := by
  simp [run, hb]

/-- From a completion and what its state holds, an effect. -/
theorem effect_of {c : Instr} {s u : State} {P : State → Prop} (h : Completes c s u) (hp : P u) : Effect c s P :=
  ⟨u, h, hp⟩

/-- A meaning never is refused, and answers the fault only where an operand is ill formed. -/
theorem run_cases (b : Bool) (u : State) :
    (b = true ∧ run b u = .next (settle u)) ∨ (b = false ∧ run b u = .fault .illFormedCommand) := by
  cases b <;> simp [run]

end Sys2Proof.Machine
end

