-- ==== Sys2Proof/Laws/State.lean ====
section
/-! SUPPORT. What each update of one part of the state reads as at every part: the part it changes, and every other as
it was. -/

namespace Sys2Proof.Machine

@[simp] theorem emit_now (o : Out) (s : State) : (emit o s).now = s.now := rfl
@[simp] theorem emit_free (o : Out) (s : State) : (emit o s).free = s.free := rfl
@[simp] theorem emit_variant (o : Out) (s : State) : (emit o s).variant = s.variant := rfl
@[simp] theorem emit_pending (o : Out) (s : State) : (emit o s).pending = s.pending := rfl
@[simp] theorem emit_out (o : Out) (s : State) : (emit o s).out = s.out ++ [o] := rfl
@[simp] theorem emit_sat (o : Out) (s : State) : (emit o s).sat = s.sat := rfl
@[simp] theorem emit_ctr (o : Out) (s : State) : (emit o s).ctr = s.ctr := rfl
@[simp] theorem emit_arch (o : Out) (s : State) : (emit o s).arch = s.arch := rfl
@[simp] theorem emit_log (o : Out) (s : State) : (emit o s).log = s.log := rfl
@[simp] theorem emit_img (o : Out) (s : State) : (emit o s).img = s.img := rfl
@[simp] theorem emit_sec (o : Out) (s : State) : (emit o s).sec = s.sec := rfl
@[simp] theorem emit_sag (o : Out) (s : State) : (emit o s).sag = s.sag := rfl
@[simp] theorem emit_erc (o : Out) (s : State) : (emit o s).erc = s.erc := rfl
@[simp] theorem emit_fab (o : Out) (s : State) : (emit o s).fab = s.fab := rfl
@[simp] theorem emit_coh (o : Out) (s : State) : (emit o s).coh = s.coh := rfl
@[simp] theorem emit_swc (o : Out) (s : State) : (emit o s).swc = s.swc := rfl
@[simp] theorem emit_prt (o : Out) (s : State) : (emit o s).prt = s.prt := rfl
@[simp] theorem emit_jsl (o : Out) (s : State) : (emit o s).jsl = s.jsl := rfl
@[simp] theorem emit_tie (o : Out) (s : State) : (emit o s).tie = s.tie := rfl
@[simp] theorem emit_flm (o : Out) (s : State) : (emit o s).flm = s.flm := rfl
@[simp] theorem emit_cdc (o : Out) (s : State) : (emit o s).cdc = s.cdc := rfl
@[simp] theorem emit_pug (o : Out) (s : State) : (emit o s).pug = s.pug := rfl
@[simp] theorem emit_gth (o : Out) (s : State) : (emit o s).gth = s.gth := rfl
@[simp] theorem emit_siv (o : Out) (s : State) : (emit o s).siv = s.siv := rfl
@[simp] theorem emit_arrs (o : Out) (s : State) : (emit o s).arrs = s.arrs := rfl
@[simp] theorem emit_trm (o : Out) (s : State) : (emit o s).trm = s.trm := rfl
@[simp] theorem emit_trms (o : Out) (s : State) : (emit o s).trms = s.trms := rfl
@[simp] theorem emit_sit (o : Out) (s : State) : (emit o s).sit = s.sit := rfl
@[simp] theorem emit_lead (o : Out) (s : State) : (emit o s).lead = s.lead := rfl
@[simp] theorem emit_att (o : Out) (s : State) : (emit o s).att = s.att := rfl
@[simp] theorem emit_pkg (o : Out) (s : State) : (emit o s).pkg = s.pkg := rfl
@[simp] theorem emit_wit (o : Out) (s : State) : (emit o s).wit = s.wit := rfl
@[simp] theorem emit_wd (o : Out) (s : State) : (emit o s).wd = s.wd := rfl

@[simp] theorem bumpCtr_now (addr n : Nat) (s : State) : (bumpCtr addr n s).now = s.now := rfl
@[simp] theorem bumpCtr_free (addr n : Nat) (s : State) : (bumpCtr addr n s).free = s.free := rfl
@[simp] theorem bumpCtr_variant (addr n : Nat) (s : State) : (bumpCtr addr n s).variant = s.variant := rfl
@[simp] theorem bumpCtr_pending (addr n : Nat) (s : State) : (bumpCtr addr n s).pending = s.pending := rfl
@[simp] theorem bumpCtr_out (addr n : Nat) (s : State) : (bumpCtr addr n s).out = s.out := rfl
@[simp] theorem bumpCtr_sat (addr n : Nat) (s : State) : (bumpCtr addr n s).sat = s.sat := rfl
@[simp] theorem bumpCtr_ctr (addr n : Nat) (s : State) : (bumpCtr addr n s).ctr = amod s.ctr addr {} (fun c => c.add n) := rfl
@[simp] theorem bumpCtr_arch (addr n : Nat) (s : State) : (bumpCtr addr n s).arch = s.arch := rfl
@[simp] theorem bumpCtr_log (addr n : Nat) (s : State) : (bumpCtr addr n s).log = s.log := rfl
@[simp] theorem bumpCtr_img (addr n : Nat) (s : State) : (bumpCtr addr n s).img = s.img := rfl
@[simp] theorem bumpCtr_sec (addr n : Nat) (s : State) : (bumpCtr addr n s).sec = s.sec := rfl
@[simp] theorem bumpCtr_sag (addr n : Nat) (s : State) : (bumpCtr addr n s).sag = s.sag := rfl
@[simp] theorem bumpCtr_erc (addr n : Nat) (s : State) : (bumpCtr addr n s).erc = s.erc := rfl
@[simp] theorem bumpCtr_fab (addr n : Nat) (s : State) : (bumpCtr addr n s).fab = s.fab := rfl
@[simp] theorem bumpCtr_coh (addr n : Nat) (s : State) : (bumpCtr addr n s).coh = s.coh := rfl
@[simp] theorem bumpCtr_swc (addr n : Nat) (s : State) : (bumpCtr addr n s).swc = s.swc := rfl
@[simp] theorem bumpCtr_prt (addr n : Nat) (s : State) : (bumpCtr addr n s).prt = s.prt := rfl
@[simp] theorem bumpCtr_jsl (addr n : Nat) (s : State) : (bumpCtr addr n s).jsl = s.jsl := rfl
@[simp] theorem bumpCtr_tie (addr n : Nat) (s : State) : (bumpCtr addr n s).tie = s.tie := rfl
@[simp] theorem bumpCtr_flm (addr n : Nat) (s : State) : (bumpCtr addr n s).flm = s.flm := rfl
@[simp] theorem bumpCtr_cdc (addr n : Nat) (s : State) : (bumpCtr addr n s).cdc = s.cdc := rfl
@[simp] theorem bumpCtr_pug (addr n : Nat) (s : State) : (bumpCtr addr n s).pug = s.pug := rfl
@[simp] theorem bumpCtr_gth (addr n : Nat) (s : State) : (bumpCtr addr n s).gth = s.gth := rfl
@[simp] theorem bumpCtr_siv (addr n : Nat) (s : State) : (bumpCtr addr n s).siv = s.siv := rfl
@[simp] theorem bumpCtr_arrs (addr n : Nat) (s : State) : (bumpCtr addr n s).arrs = s.arrs := rfl
@[simp] theorem bumpCtr_trm (addr n : Nat) (s : State) : (bumpCtr addr n s).trm = s.trm := rfl
@[simp] theorem bumpCtr_trms (addr n : Nat) (s : State) : (bumpCtr addr n s).trms = s.trms := rfl
@[simp] theorem bumpCtr_sit (addr n : Nat) (s : State) : (bumpCtr addr n s).sit = s.sit := rfl
@[simp] theorem bumpCtr_lead (addr n : Nat) (s : State) : (bumpCtr addr n s).lead = s.lead := rfl
@[simp] theorem bumpCtr_att (addr n : Nat) (s : State) : (bumpCtr addr n s).att = s.att := rfl
@[simp] theorem bumpCtr_pkg (addr n : Nat) (s : State) : (bumpCtr addr n s).pkg = s.pkg := rfl
@[simp] theorem bumpCtr_wit (addr n : Nat) (s : State) : (bumpCtr addr n s).wit = s.wit := rfl
@[simp] theorem bumpCtr_wd (addr n : Nat) (s : State) : (bumpCtr addr n s).wd = s.wd := rfl

@[simp] theorem dropCtr_now (addr n : Nat) (s : State) : (dropCtr addr n s).now = s.now := rfl
@[simp] theorem dropCtr_free (addr n : Nat) (s : State) : (dropCtr addr n s).free = s.free := rfl
@[simp] theorem dropCtr_variant (addr n : Nat) (s : State) : (dropCtr addr n s).variant = s.variant := rfl
@[simp] theorem dropCtr_pending (addr n : Nat) (s : State) : (dropCtr addr n s).pending = s.pending := rfl
@[simp] theorem dropCtr_out (addr n : Nat) (s : State) : (dropCtr addr n s).out = s.out := rfl
@[simp] theorem dropCtr_sat (addr n : Nat) (s : State) : (dropCtr addr n s).sat = s.sat := rfl
@[simp] theorem dropCtr_ctr (addr n : Nat) (s : State) : (dropCtr addr n s).ctr = amod s.ctr addr {} (fun c => { c with count := c.count - n }) := rfl
@[simp] theorem dropCtr_arch (addr n : Nat) (s : State) : (dropCtr addr n s).arch = s.arch := rfl
@[simp] theorem dropCtr_log (addr n : Nat) (s : State) : (dropCtr addr n s).log = s.log := rfl
@[simp] theorem dropCtr_img (addr n : Nat) (s : State) : (dropCtr addr n s).img = s.img := rfl
@[simp] theorem dropCtr_sec (addr n : Nat) (s : State) : (dropCtr addr n s).sec = s.sec := rfl
@[simp] theorem dropCtr_sag (addr n : Nat) (s : State) : (dropCtr addr n s).sag = s.sag := rfl
@[simp] theorem dropCtr_erc (addr n : Nat) (s : State) : (dropCtr addr n s).erc = s.erc := rfl
@[simp] theorem dropCtr_fab (addr n : Nat) (s : State) : (dropCtr addr n s).fab = s.fab := rfl
@[simp] theorem dropCtr_coh (addr n : Nat) (s : State) : (dropCtr addr n s).coh = s.coh := rfl
@[simp] theorem dropCtr_swc (addr n : Nat) (s : State) : (dropCtr addr n s).swc = s.swc := rfl
@[simp] theorem dropCtr_prt (addr n : Nat) (s : State) : (dropCtr addr n s).prt = s.prt := rfl
@[simp] theorem dropCtr_jsl (addr n : Nat) (s : State) : (dropCtr addr n s).jsl = s.jsl := rfl
@[simp] theorem dropCtr_tie (addr n : Nat) (s : State) : (dropCtr addr n s).tie = s.tie := rfl
@[simp] theorem dropCtr_flm (addr n : Nat) (s : State) : (dropCtr addr n s).flm = s.flm := rfl
@[simp] theorem dropCtr_cdc (addr n : Nat) (s : State) : (dropCtr addr n s).cdc = s.cdc := rfl
@[simp] theorem dropCtr_pug (addr n : Nat) (s : State) : (dropCtr addr n s).pug = s.pug := rfl
@[simp] theorem dropCtr_gth (addr n : Nat) (s : State) : (dropCtr addr n s).gth = s.gth := rfl
@[simp] theorem dropCtr_siv (addr n : Nat) (s : State) : (dropCtr addr n s).siv = s.siv := rfl
@[simp] theorem dropCtr_arrs (addr n : Nat) (s : State) : (dropCtr addr n s).arrs = s.arrs := rfl
@[simp] theorem dropCtr_trm (addr n : Nat) (s : State) : (dropCtr addr n s).trm = s.trm := rfl
@[simp] theorem dropCtr_trms (addr n : Nat) (s : State) : (dropCtr addr n s).trms = s.trms := rfl
@[simp] theorem dropCtr_sit (addr n : Nat) (s : State) : (dropCtr addr n s).sit = s.sit := rfl
@[simp] theorem dropCtr_lead (addr n : Nat) (s : State) : (dropCtr addr n s).lead = s.lead := rfl
@[simp] theorem dropCtr_att (addr n : Nat) (s : State) : (dropCtr addr n s).att = s.att := rfl
@[simp] theorem dropCtr_pkg (addr n : Nat) (s : State) : (dropCtr addr n s).pkg = s.pkg := rfl
@[simp] theorem dropCtr_wit (addr n : Nat) (s : State) : (dropCtr addr n s).wit = s.wit := rfl
@[simp] theorem dropCtr_wd (addr n : Nat) (s : State) : (dropCtr addr n s).wd = s.wd := rfl

@[simp] theorem bumpSatRaw_now (f : Nat × Nat) (s : State) : (bumpSatRaw f s).now = s.now := rfl
@[simp] theorem bumpSatRaw_free (f : Nat × Nat) (s : State) : (bumpSatRaw f s).free = s.free := rfl
@[simp] theorem bumpSatRaw_variant (f : Nat × Nat) (s : State) : (bumpSatRaw f s).variant = s.variant := rfl
@[simp] theorem bumpSatRaw_pending (f : Nat × Nat) (s : State) : (bumpSatRaw f s).pending = s.pending := rfl
@[simp] theorem bumpSatRaw_out (f : Nat × Nat) (s : State) : (bumpSatRaw f s).out = s.out := rfl
@[simp] theorem bumpSatRaw_sat (f : Nat × Nat) (s : State) : (bumpSatRaw f s).sat = amod s.sat f 0 (fun v => satAdd (satWidth f) v 1) := rfl
@[simp] theorem bumpSatRaw_ctr (f : Nat × Nat) (s : State) : (bumpSatRaw f s).ctr = s.ctr := rfl
@[simp] theorem bumpSatRaw_arch (f : Nat × Nat) (s : State) : (bumpSatRaw f s).arch = s.arch := rfl
@[simp] theorem bumpSatRaw_log (f : Nat × Nat) (s : State) : (bumpSatRaw f s).log = s.log := rfl
@[simp] theorem bumpSatRaw_img (f : Nat × Nat) (s : State) : (bumpSatRaw f s).img = s.img := rfl
@[simp] theorem bumpSatRaw_sec (f : Nat × Nat) (s : State) : (bumpSatRaw f s).sec = s.sec := rfl
@[simp] theorem bumpSatRaw_sag (f : Nat × Nat) (s : State) : (bumpSatRaw f s).sag = s.sag := rfl
@[simp] theorem bumpSatRaw_erc (f : Nat × Nat) (s : State) : (bumpSatRaw f s).erc = s.erc := rfl
@[simp] theorem bumpSatRaw_fab (f : Nat × Nat) (s : State) : (bumpSatRaw f s).fab = s.fab := rfl
@[simp] theorem bumpSatRaw_coh (f : Nat × Nat) (s : State) : (bumpSatRaw f s).coh = s.coh := rfl
@[simp] theorem bumpSatRaw_swc (f : Nat × Nat) (s : State) : (bumpSatRaw f s).swc = s.swc := rfl
@[simp] theorem bumpSatRaw_prt (f : Nat × Nat) (s : State) : (bumpSatRaw f s).prt = s.prt := rfl
@[simp] theorem bumpSatRaw_jsl (f : Nat × Nat) (s : State) : (bumpSatRaw f s).jsl = s.jsl := rfl
@[simp] theorem bumpSatRaw_tie (f : Nat × Nat) (s : State) : (bumpSatRaw f s).tie = s.tie := rfl
@[simp] theorem bumpSatRaw_flm (f : Nat × Nat) (s : State) : (bumpSatRaw f s).flm = s.flm := rfl
@[simp] theorem bumpSatRaw_cdc (f : Nat × Nat) (s : State) : (bumpSatRaw f s).cdc = s.cdc := rfl
@[simp] theorem bumpSatRaw_pug (f : Nat × Nat) (s : State) : (bumpSatRaw f s).pug = s.pug := rfl
@[simp] theorem bumpSatRaw_gth (f : Nat × Nat) (s : State) : (bumpSatRaw f s).gth = s.gth := rfl
@[simp] theorem bumpSatRaw_siv (f : Nat × Nat) (s : State) : (bumpSatRaw f s).siv = s.siv := rfl
@[simp] theorem bumpSatRaw_arrs (f : Nat × Nat) (s : State) : (bumpSatRaw f s).arrs = s.arrs := rfl
@[simp] theorem bumpSatRaw_trm (f : Nat × Nat) (s : State) : (bumpSatRaw f s).trm = s.trm := rfl
@[simp] theorem bumpSatRaw_trms (f : Nat × Nat) (s : State) : (bumpSatRaw f s).trms = s.trms := rfl
@[simp] theorem bumpSatRaw_sit (f : Nat × Nat) (s : State) : (bumpSatRaw f s).sit = s.sit := rfl
@[simp] theorem bumpSatRaw_lead (f : Nat × Nat) (s : State) : (bumpSatRaw f s).lead = s.lead := rfl
@[simp] theorem bumpSatRaw_att (f : Nat × Nat) (s : State) : (bumpSatRaw f s).att = s.att := rfl
@[simp] theorem bumpSatRaw_pkg (f : Nat × Nat) (s : State) : (bumpSatRaw f s).pkg = s.pkg := rfl
@[simp] theorem bumpSatRaw_wit (f : Nat × Nat) (s : State) : (bumpSatRaw f s).wit = s.wit := rfl
@[simp] theorem bumpSatRaw_wd (f : Nat × Nat) (s : State) : (bumpSatRaw f s).wd = s.wd := rfl

@[simp] theorem take_now (p : Packet) (s : State) : (take p s).now = s.now := rfl
@[simp] theorem take_free (p : Packet) (s : State) : (take p s).free = s.free := rfl
@[simp] theorem take_variant (p : Packet) (s : State) : (take p s).variant = s.variant := rfl
@[simp] theorem take_pending (p : Packet) (s : State) : (take p s).pending = s.pending := rfl
@[simp] theorem take_out (p : Packet) (s : State) : (take p s).out = s.out := rfl
@[simp] theorem take_sat (p : Packet) (s : State) : (take p s).sat = s.sat := rfl
@[simp] theorem take_ctr (p : Packet) (s : State) : (take p s).ctr = s.ctr := rfl
@[simp] theorem take_arch (p : Packet) (s : State) : (take p s).arch = s.arch := rfl
@[simp] theorem take_log (p : Packet) (s : State) : (take p s).log = s.log := rfl
@[simp] theorem take_img (p : Packet) (s : State) : (take p s).img = s.img := rfl
@[simp] theorem take_sec (p : Packet) (s : State) : (take p s).sec = s.sec := rfl
@[simp] theorem take_sag (p : Packet) (s : State) : (take p s).sag = s.sag := rfl
@[simp] theorem take_erc (p : Packet) (s : State) : (take p s).erc = s.erc := rfl
@[simp] theorem take_fab (p : Packet) (s : State) : (take p s).fab = { s.fab with inbox := s.fab.inbox.erase p } := rfl
@[simp] theorem take_coh (p : Packet) (s : State) : (take p s).coh = s.coh := rfl
@[simp] theorem take_swc (p : Packet) (s : State) : (take p s).swc = s.swc := rfl
@[simp] theorem take_prt (p : Packet) (s : State) : (take p s).prt = s.prt := rfl
@[simp] theorem take_jsl (p : Packet) (s : State) : (take p s).jsl = s.jsl := rfl
@[simp] theorem take_tie (p : Packet) (s : State) : (take p s).tie = s.tie := rfl
@[simp] theorem take_flm (p : Packet) (s : State) : (take p s).flm = s.flm := rfl
@[simp] theorem take_cdc (p : Packet) (s : State) : (take p s).cdc = s.cdc := rfl
@[simp] theorem take_pug (p : Packet) (s : State) : (take p s).pug = s.pug := rfl
@[simp] theorem take_gth (p : Packet) (s : State) : (take p s).gth = s.gth := rfl
@[simp] theorem take_siv (p : Packet) (s : State) : (take p s).siv = s.siv := rfl
@[simp] theorem take_arrs (p : Packet) (s : State) : (take p s).arrs = s.arrs := rfl
@[simp] theorem take_trm (p : Packet) (s : State) : (take p s).trm = s.trm := rfl
@[simp] theorem take_trms (p : Packet) (s : State) : (take p s).trms = s.trms := rfl
@[simp] theorem take_sit (p : Packet) (s : State) : (take p s).sit = s.sit := rfl
@[simp] theorem take_lead (p : Packet) (s : State) : (take p s).lead = s.lead := rfl
@[simp] theorem take_att (p : Packet) (s : State) : (take p s).att = s.att := rfl
@[simp] theorem take_pkg (p : Packet) (s : State) : (take p s).pkg = s.pkg := rfl
@[simp] theorem take_wit (p : Packet) (s : State) : (take p s).wit = s.wit := rfl
@[simp] theorem take_wd (p : Packet) (s : State) : (take p s).wd = s.wd := rfl

@[simp] theorem setImg_now (f : Img → Img) (s : State) : (setImg f s).now = s.now := rfl
@[simp] theorem setImg_free (f : Img → Img) (s : State) : (setImg f s).free = s.free := rfl
@[simp] theorem setImg_variant (f : Img → Img) (s : State) : (setImg f s).variant = s.variant := rfl
@[simp] theorem setImg_pending (f : Img → Img) (s : State) : (setImg f s).pending = s.pending := rfl
@[simp] theorem setImg_out (f : Img → Img) (s : State) : (setImg f s).out = s.out := rfl
@[simp] theorem setImg_sat (f : Img → Img) (s : State) : (setImg f s).sat = s.sat := rfl
@[simp] theorem setImg_ctr (f : Img → Img) (s : State) : (setImg f s).ctr = s.ctr := rfl
@[simp] theorem setImg_arch (f : Img → Img) (s : State) : (setImg f s).arch = s.arch := rfl
@[simp] theorem setImg_log (f : Img → Img) (s : State) : (setImg f s).log = s.log := rfl
@[simp] theorem setImg_img (f : Img → Img) (s : State) : (setImg f s).img = f s.img := rfl
@[simp] theorem setImg_sec (f : Img → Img) (s : State) : (setImg f s).sec = s.sec := rfl
@[simp] theorem setImg_sag (f : Img → Img) (s : State) : (setImg f s).sag = s.sag := rfl
@[simp] theorem setImg_erc (f : Img → Img) (s : State) : (setImg f s).erc = s.erc := rfl
@[simp] theorem setImg_fab (f : Img → Img) (s : State) : (setImg f s).fab = s.fab := rfl
@[simp] theorem setImg_coh (f : Img → Img) (s : State) : (setImg f s).coh = s.coh := rfl
@[simp] theorem setImg_swc (f : Img → Img) (s : State) : (setImg f s).swc = s.swc := rfl
@[simp] theorem setImg_prt (f : Img → Img) (s : State) : (setImg f s).prt = s.prt := rfl
@[simp] theorem setImg_jsl (f : Img → Img) (s : State) : (setImg f s).jsl = s.jsl := rfl
@[simp] theorem setImg_tie (f : Img → Img) (s : State) : (setImg f s).tie = s.tie := rfl
@[simp] theorem setImg_flm (f : Img → Img) (s : State) : (setImg f s).flm = s.flm := rfl
@[simp] theorem setImg_cdc (f : Img → Img) (s : State) : (setImg f s).cdc = s.cdc := rfl
@[simp] theorem setImg_pug (f : Img → Img) (s : State) : (setImg f s).pug = s.pug := rfl
@[simp] theorem setImg_gth (f : Img → Img) (s : State) : (setImg f s).gth = s.gth := rfl
@[simp] theorem setImg_siv (f : Img → Img) (s : State) : (setImg f s).siv = s.siv := rfl
@[simp] theorem setImg_arrs (f : Img → Img) (s : State) : (setImg f s).arrs = s.arrs := rfl
@[simp] theorem setImg_trm (f : Img → Img) (s : State) : (setImg f s).trm = s.trm := rfl
@[simp] theorem setImg_trms (f : Img → Img) (s : State) : (setImg f s).trms = s.trms := rfl
@[simp] theorem setImg_sit (f : Img → Img) (s : State) : (setImg f s).sit = s.sit := rfl
@[simp] theorem setImg_lead (f : Img → Img) (s : State) : (setImg f s).lead = s.lead := rfl
@[simp] theorem setImg_att (f : Img → Img) (s : State) : (setImg f s).att = s.att := rfl
@[simp] theorem setImg_pkg (f : Img → Img) (s : State) : (setImg f s).pkg = s.pkg := rfl
@[simp] theorem setImg_wit (f : Img → Img) (s : State) : (setImg f s).wit = s.wit := rfl
@[simp] theorem setImg_wd (f : Img → Img) (s : State) : (setImg f s).wd = s.wd := rfl

@[simp] theorem setErc_now (f : Erc → Erc) (s : State) : (setErc f s).now = s.now := rfl
@[simp] theorem setErc_free (f : Erc → Erc) (s : State) : (setErc f s).free = s.free := rfl
@[simp] theorem setErc_variant (f : Erc → Erc) (s : State) : (setErc f s).variant = s.variant := rfl
@[simp] theorem setErc_pending (f : Erc → Erc) (s : State) : (setErc f s).pending = s.pending := rfl
@[simp] theorem setErc_out (f : Erc → Erc) (s : State) : (setErc f s).out = s.out := rfl
@[simp] theorem setErc_sat (f : Erc → Erc) (s : State) : (setErc f s).sat = s.sat := rfl
@[simp] theorem setErc_ctr (f : Erc → Erc) (s : State) : (setErc f s).ctr = s.ctr := rfl
@[simp] theorem setErc_arch (f : Erc → Erc) (s : State) : (setErc f s).arch = s.arch := rfl
@[simp] theorem setErc_log (f : Erc → Erc) (s : State) : (setErc f s).log = s.log := rfl
@[simp] theorem setErc_img (f : Erc → Erc) (s : State) : (setErc f s).img = s.img := rfl
@[simp] theorem setErc_sec (f : Erc → Erc) (s : State) : (setErc f s).sec = s.sec := rfl
@[simp] theorem setErc_sag (f : Erc → Erc) (s : State) : (setErc f s).sag = s.sag := rfl
@[simp] theorem setErc_erc (f : Erc → Erc) (s : State) : (setErc f s).erc = f s.erc := rfl
@[simp] theorem setErc_fab (f : Erc → Erc) (s : State) : (setErc f s).fab = s.fab := rfl
@[simp] theorem setErc_coh (f : Erc → Erc) (s : State) : (setErc f s).coh = s.coh := rfl
@[simp] theorem setErc_swc (f : Erc → Erc) (s : State) : (setErc f s).swc = s.swc := rfl
@[simp] theorem setErc_prt (f : Erc → Erc) (s : State) : (setErc f s).prt = s.prt := rfl
@[simp] theorem setErc_jsl (f : Erc → Erc) (s : State) : (setErc f s).jsl = s.jsl := rfl
@[simp] theorem setErc_tie (f : Erc → Erc) (s : State) : (setErc f s).tie = s.tie := rfl
@[simp] theorem setErc_flm (f : Erc → Erc) (s : State) : (setErc f s).flm = s.flm := rfl
@[simp] theorem setErc_cdc (f : Erc → Erc) (s : State) : (setErc f s).cdc = s.cdc := rfl
@[simp] theorem setErc_pug (f : Erc → Erc) (s : State) : (setErc f s).pug = s.pug := rfl
@[simp] theorem setErc_gth (f : Erc → Erc) (s : State) : (setErc f s).gth = s.gth := rfl
@[simp] theorem setErc_siv (f : Erc → Erc) (s : State) : (setErc f s).siv = s.siv := rfl
@[simp] theorem setErc_arrs (f : Erc → Erc) (s : State) : (setErc f s).arrs = s.arrs := rfl
@[simp] theorem setErc_trm (f : Erc → Erc) (s : State) : (setErc f s).trm = s.trm := rfl
@[simp] theorem setErc_trms (f : Erc → Erc) (s : State) : (setErc f s).trms = s.trms := rfl
@[simp] theorem setErc_sit (f : Erc → Erc) (s : State) : (setErc f s).sit = s.sit := rfl
@[simp] theorem setErc_lead (f : Erc → Erc) (s : State) : (setErc f s).lead = s.lead := rfl
@[simp] theorem setErc_att (f : Erc → Erc) (s : State) : (setErc f s).att = s.att := rfl
@[simp] theorem setErc_pkg (f : Erc → Erc) (s : State) : (setErc f s).pkg = s.pkg := rfl
@[simp] theorem setErc_wit (f : Erc → Erc) (s : State) : (setErc f s).wit = s.wit := rfl
@[simp] theorem setErc_wd (f : Erc → Erc) (s : State) : (setErc f s).wd = s.wd := rfl

@[simp] theorem setLog_now (f : Log → Log) (s : State) : (setLog f s).now = s.now := rfl
@[simp] theorem setLog_free (f : Log → Log) (s : State) : (setLog f s).free = s.free := rfl
@[simp] theorem setLog_variant (f : Log → Log) (s : State) : (setLog f s).variant = s.variant := rfl
@[simp] theorem setLog_pending (f : Log → Log) (s : State) : (setLog f s).pending = s.pending := rfl
@[simp] theorem setLog_out (f : Log → Log) (s : State) : (setLog f s).out = s.out := rfl
@[simp] theorem setLog_sat (f : Log → Log) (s : State) : (setLog f s).sat = s.sat := rfl
@[simp] theorem setLog_ctr (f : Log → Log) (s : State) : (setLog f s).ctr = s.ctr := rfl
@[simp] theorem setLog_arch (f : Log → Log) (s : State) : (setLog f s).arch = s.arch := rfl
@[simp] theorem setLog_log (f : Log → Log) (s : State) : (setLog f s).log = f s.log := rfl
@[simp] theorem setLog_img (f : Log → Log) (s : State) : (setLog f s).img = s.img := rfl
@[simp] theorem setLog_sec (f : Log → Log) (s : State) : (setLog f s).sec = s.sec := rfl
@[simp] theorem setLog_sag (f : Log → Log) (s : State) : (setLog f s).sag = s.sag := rfl
@[simp] theorem setLog_erc (f : Log → Log) (s : State) : (setLog f s).erc = s.erc := rfl
@[simp] theorem setLog_fab (f : Log → Log) (s : State) : (setLog f s).fab = s.fab := rfl
@[simp] theorem setLog_coh (f : Log → Log) (s : State) : (setLog f s).coh = s.coh := rfl
@[simp] theorem setLog_swc (f : Log → Log) (s : State) : (setLog f s).swc = s.swc := rfl
@[simp] theorem setLog_prt (f : Log → Log) (s : State) : (setLog f s).prt = s.prt := rfl
@[simp] theorem setLog_jsl (f : Log → Log) (s : State) : (setLog f s).jsl = s.jsl := rfl
@[simp] theorem setLog_tie (f : Log → Log) (s : State) : (setLog f s).tie = s.tie := rfl
@[simp] theorem setLog_flm (f : Log → Log) (s : State) : (setLog f s).flm = s.flm := rfl
@[simp] theorem setLog_cdc (f : Log → Log) (s : State) : (setLog f s).cdc = s.cdc := rfl
@[simp] theorem setLog_pug (f : Log → Log) (s : State) : (setLog f s).pug = s.pug := rfl
@[simp] theorem setLog_gth (f : Log → Log) (s : State) : (setLog f s).gth = s.gth := rfl
@[simp] theorem setLog_siv (f : Log → Log) (s : State) : (setLog f s).siv = s.siv := rfl
@[simp] theorem setLog_arrs (f : Log → Log) (s : State) : (setLog f s).arrs = s.arrs := rfl
@[simp] theorem setLog_trm (f : Log → Log) (s : State) : (setLog f s).trm = s.trm := rfl
@[simp] theorem setLog_trms (f : Log → Log) (s : State) : (setLog f s).trms = s.trms := rfl
@[simp] theorem setLog_sit (f : Log → Log) (s : State) : (setLog f s).sit = s.sit := rfl
@[simp] theorem setLog_lead (f : Log → Log) (s : State) : (setLog f s).lead = s.lead := rfl
@[simp] theorem setLog_att (f : Log → Log) (s : State) : (setLog f s).att = s.att := rfl
@[simp] theorem setLog_pkg (f : Log → Log) (s : State) : (setLog f s).pkg = s.pkg := rfl
@[simp] theorem setLog_wit (f : Log → Log) (s : State) : (setLog f s).wit = s.wit := rfl
@[simp] theorem setLog_wd (f : Log → Log) (s : State) : (setLog f s).wd = s.wd := rfl

@[simp] theorem setJsl_now (f : Jsl → Jsl) (s : State) : (setJsl f s).now = s.now := rfl
@[simp] theorem setJsl_free (f : Jsl → Jsl) (s : State) : (setJsl f s).free = s.free := rfl
@[simp] theorem setJsl_variant (f : Jsl → Jsl) (s : State) : (setJsl f s).variant = s.variant := rfl
@[simp] theorem setJsl_pending (f : Jsl → Jsl) (s : State) : (setJsl f s).pending = s.pending := rfl
@[simp] theorem setJsl_out (f : Jsl → Jsl) (s : State) : (setJsl f s).out = s.out := rfl
@[simp] theorem setJsl_sat (f : Jsl → Jsl) (s : State) : (setJsl f s).sat = s.sat := rfl
@[simp] theorem setJsl_ctr (f : Jsl → Jsl) (s : State) : (setJsl f s).ctr = s.ctr := rfl
@[simp] theorem setJsl_arch (f : Jsl → Jsl) (s : State) : (setJsl f s).arch = s.arch := rfl
@[simp] theorem setJsl_log (f : Jsl → Jsl) (s : State) : (setJsl f s).log = s.log := rfl
@[simp] theorem setJsl_img (f : Jsl → Jsl) (s : State) : (setJsl f s).img = s.img := rfl
@[simp] theorem setJsl_sec (f : Jsl → Jsl) (s : State) : (setJsl f s).sec = s.sec := rfl
@[simp] theorem setJsl_sag (f : Jsl → Jsl) (s : State) : (setJsl f s).sag = s.sag := rfl
@[simp] theorem setJsl_erc (f : Jsl → Jsl) (s : State) : (setJsl f s).erc = s.erc := rfl
@[simp] theorem setJsl_fab (f : Jsl → Jsl) (s : State) : (setJsl f s).fab = s.fab := rfl
@[simp] theorem setJsl_coh (f : Jsl → Jsl) (s : State) : (setJsl f s).coh = s.coh := rfl
@[simp] theorem setJsl_swc (f : Jsl → Jsl) (s : State) : (setJsl f s).swc = s.swc := rfl
@[simp] theorem setJsl_prt (f : Jsl → Jsl) (s : State) : (setJsl f s).prt = s.prt := rfl
@[simp] theorem setJsl_jsl (f : Jsl → Jsl) (s : State) : (setJsl f s).jsl = f s.jsl := rfl
@[simp] theorem setJsl_tie (f : Jsl → Jsl) (s : State) : (setJsl f s).tie = s.tie := rfl
@[simp] theorem setJsl_flm (f : Jsl → Jsl) (s : State) : (setJsl f s).flm = s.flm := rfl
@[simp] theorem setJsl_cdc (f : Jsl → Jsl) (s : State) : (setJsl f s).cdc = s.cdc := rfl
@[simp] theorem setJsl_pug (f : Jsl → Jsl) (s : State) : (setJsl f s).pug = s.pug := rfl
@[simp] theorem setJsl_gth (f : Jsl → Jsl) (s : State) : (setJsl f s).gth = s.gth := rfl
@[simp] theorem setJsl_siv (f : Jsl → Jsl) (s : State) : (setJsl f s).siv = s.siv := rfl
@[simp] theorem setJsl_arrs (f : Jsl → Jsl) (s : State) : (setJsl f s).arrs = s.arrs := rfl
@[simp] theorem setJsl_trm (f : Jsl → Jsl) (s : State) : (setJsl f s).trm = s.trm := rfl
@[simp] theorem setJsl_trms (f : Jsl → Jsl) (s : State) : (setJsl f s).trms = s.trms := rfl
@[simp] theorem setJsl_sit (f : Jsl → Jsl) (s : State) : (setJsl f s).sit = s.sit := rfl
@[simp] theorem setJsl_lead (f : Jsl → Jsl) (s : State) : (setJsl f s).lead = s.lead := rfl
@[simp] theorem setJsl_att (f : Jsl → Jsl) (s : State) : (setJsl f s).att = s.att := rfl
@[simp] theorem setJsl_pkg (f : Jsl → Jsl) (s : State) : (setJsl f s).pkg = s.pkg := rfl
@[simp] theorem setJsl_wit (f : Jsl → Jsl) (s : State) : (setJsl f s).wit = s.wit := rfl
@[simp] theorem setJsl_wd (f : Jsl → Jsl) (s : State) : (setJsl f s).wd = s.wd := rfl

@[simp] theorem setPkg_now (f : Pkg → Pkg) (s : State) : (setPkg f s).now = s.now := rfl
@[simp] theorem setPkg_free (f : Pkg → Pkg) (s : State) : (setPkg f s).free = s.free := rfl
@[simp] theorem setPkg_variant (f : Pkg → Pkg) (s : State) : (setPkg f s).variant = s.variant := rfl
@[simp] theorem setPkg_pending (f : Pkg → Pkg) (s : State) : (setPkg f s).pending = s.pending := rfl
@[simp] theorem setPkg_out (f : Pkg → Pkg) (s : State) : (setPkg f s).out = s.out := rfl
@[simp] theorem setPkg_sat (f : Pkg → Pkg) (s : State) : (setPkg f s).sat = s.sat := rfl
@[simp] theorem setPkg_ctr (f : Pkg → Pkg) (s : State) : (setPkg f s).ctr = s.ctr := rfl
@[simp] theorem setPkg_arch (f : Pkg → Pkg) (s : State) : (setPkg f s).arch = s.arch := rfl
@[simp] theorem setPkg_log (f : Pkg → Pkg) (s : State) : (setPkg f s).log = s.log := rfl
@[simp] theorem setPkg_img (f : Pkg → Pkg) (s : State) : (setPkg f s).img = s.img := rfl
@[simp] theorem setPkg_sec (f : Pkg → Pkg) (s : State) : (setPkg f s).sec = s.sec := rfl
@[simp] theorem setPkg_sag (f : Pkg → Pkg) (s : State) : (setPkg f s).sag = s.sag := rfl
@[simp] theorem setPkg_erc (f : Pkg → Pkg) (s : State) : (setPkg f s).erc = s.erc := rfl
@[simp] theorem setPkg_fab (f : Pkg → Pkg) (s : State) : (setPkg f s).fab = s.fab := rfl
@[simp] theorem setPkg_coh (f : Pkg → Pkg) (s : State) : (setPkg f s).coh = s.coh := rfl
@[simp] theorem setPkg_swc (f : Pkg → Pkg) (s : State) : (setPkg f s).swc = s.swc := rfl
@[simp] theorem setPkg_prt (f : Pkg → Pkg) (s : State) : (setPkg f s).prt = s.prt := rfl
@[simp] theorem setPkg_jsl (f : Pkg → Pkg) (s : State) : (setPkg f s).jsl = s.jsl := rfl
@[simp] theorem setPkg_tie (f : Pkg → Pkg) (s : State) : (setPkg f s).tie = s.tie := rfl
@[simp] theorem setPkg_flm (f : Pkg → Pkg) (s : State) : (setPkg f s).flm = s.flm := rfl
@[simp] theorem setPkg_cdc (f : Pkg → Pkg) (s : State) : (setPkg f s).cdc = s.cdc := rfl
@[simp] theorem setPkg_pug (f : Pkg → Pkg) (s : State) : (setPkg f s).pug = s.pug := rfl
@[simp] theorem setPkg_gth (f : Pkg → Pkg) (s : State) : (setPkg f s).gth = s.gth := rfl
@[simp] theorem setPkg_siv (f : Pkg → Pkg) (s : State) : (setPkg f s).siv = s.siv := rfl
@[simp] theorem setPkg_arrs (f : Pkg → Pkg) (s : State) : (setPkg f s).arrs = s.arrs := rfl
@[simp] theorem setPkg_trm (f : Pkg → Pkg) (s : State) : (setPkg f s).trm = s.trm := rfl
@[simp] theorem setPkg_trms (f : Pkg → Pkg) (s : State) : (setPkg f s).trms = s.trms := rfl
@[simp] theorem setPkg_sit (f : Pkg → Pkg) (s : State) : (setPkg f s).sit = s.sit := rfl
@[simp] theorem setPkg_lead (f : Pkg → Pkg) (s : State) : (setPkg f s).lead = s.lead := rfl
@[simp] theorem setPkg_att (f : Pkg → Pkg) (s : State) : (setPkg f s).att = s.att := rfl
@[simp] theorem setPkg_pkg (f : Pkg → Pkg) (s : State) : (setPkg f s).pkg = f s.pkg := rfl
@[simp] theorem setPkg_wit (f : Pkg → Pkg) (s : State) : (setPkg f s).wit = s.wit := rfl
@[simp] theorem setPkg_wd (f : Pkg → Pkg) (s : State) : (setPkg f s).wd = s.wd := rfl

@[simp] theorem setSec_now (f : Sec → Sec) (s : State) : (setSec f s).now = s.now := rfl
@[simp] theorem setSec_free (f : Sec → Sec) (s : State) : (setSec f s).free = s.free := rfl
@[simp] theorem setSec_variant (f : Sec → Sec) (s : State) : (setSec f s).variant = s.variant := rfl
@[simp] theorem setSec_pending (f : Sec → Sec) (s : State) : (setSec f s).pending = s.pending := rfl
@[simp] theorem setSec_out (f : Sec → Sec) (s : State) : (setSec f s).out = s.out := rfl
@[simp] theorem setSec_sat (f : Sec → Sec) (s : State) : (setSec f s).sat = s.sat := rfl
@[simp] theorem setSec_ctr (f : Sec → Sec) (s : State) : (setSec f s).ctr = s.ctr := rfl
@[simp] theorem setSec_arch (f : Sec → Sec) (s : State) : (setSec f s).arch = s.arch := rfl
@[simp] theorem setSec_log (f : Sec → Sec) (s : State) : (setSec f s).log = s.log := rfl
@[simp] theorem setSec_img (f : Sec → Sec) (s : State) : (setSec f s).img = s.img := rfl
@[simp] theorem setSec_sec (f : Sec → Sec) (s : State) : (setSec f s).sec = f s.sec := rfl
@[simp] theorem setSec_sag (f : Sec → Sec) (s : State) : (setSec f s).sag = s.sag := rfl
@[simp] theorem setSec_erc (f : Sec → Sec) (s : State) : (setSec f s).erc = s.erc := rfl
@[simp] theorem setSec_fab (f : Sec → Sec) (s : State) : (setSec f s).fab = s.fab := rfl
@[simp] theorem setSec_coh (f : Sec → Sec) (s : State) : (setSec f s).coh = s.coh := rfl
@[simp] theorem setSec_swc (f : Sec → Sec) (s : State) : (setSec f s).swc = s.swc := rfl
@[simp] theorem setSec_prt (f : Sec → Sec) (s : State) : (setSec f s).prt = s.prt := rfl
@[simp] theorem setSec_jsl (f : Sec → Sec) (s : State) : (setSec f s).jsl = s.jsl := rfl
@[simp] theorem setSec_tie (f : Sec → Sec) (s : State) : (setSec f s).tie = s.tie := rfl
@[simp] theorem setSec_flm (f : Sec → Sec) (s : State) : (setSec f s).flm = s.flm := rfl
@[simp] theorem setSec_cdc (f : Sec → Sec) (s : State) : (setSec f s).cdc = s.cdc := rfl
@[simp] theorem setSec_pug (f : Sec → Sec) (s : State) : (setSec f s).pug = s.pug := rfl
@[simp] theorem setSec_gth (f : Sec → Sec) (s : State) : (setSec f s).gth = s.gth := rfl
@[simp] theorem setSec_siv (f : Sec → Sec) (s : State) : (setSec f s).siv = s.siv := rfl
@[simp] theorem setSec_arrs (f : Sec → Sec) (s : State) : (setSec f s).arrs = s.arrs := rfl
@[simp] theorem setSec_trm (f : Sec → Sec) (s : State) : (setSec f s).trm = s.trm := rfl
@[simp] theorem setSec_trms (f : Sec → Sec) (s : State) : (setSec f s).trms = s.trms := rfl
@[simp] theorem setSec_sit (f : Sec → Sec) (s : State) : (setSec f s).sit = s.sit := rfl
@[simp] theorem setSec_lead (f : Sec → Sec) (s : State) : (setSec f s).lead = s.lead := rfl
@[simp] theorem setSec_att (f : Sec → Sec) (s : State) : (setSec f s).att = s.att := rfl
@[simp] theorem setSec_pkg (f : Sec → Sec) (s : State) : (setSec f s).pkg = s.pkg := rfl
@[simp] theorem setSec_wit (f : Sec → Sec) (s : State) : (setSec f s).wit = s.wit := rfl
@[simp] theorem setSec_wd (f : Sec → Sec) (s : State) : (setSec f s).wd = s.wd := rfl

@[simp] theorem modSag_now (g : Nat) (f : SagSec → SagSec) (s : State) : (modSag g f s).now = s.now := rfl
@[simp] theorem modSag_free (g : Nat) (f : SagSec → SagSec) (s : State) : (modSag g f s).free = s.free := rfl
@[simp] theorem modSag_variant (g : Nat) (f : SagSec → SagSec) (s : State) : (modSag g f s).variant = s.variant := rfl
@[simp] theorem modSag_pending (g : Nat) (f : SagSec → SagSec) (s : State) : (modSag g f s).pending = s.pending := rfl
@[simp] theorem modSag_out (g : Nat) (f : SagSec → SagSec) (s : State) : (modSag g f s).out = s.out := rfl
@[simp] theorem modSag_sat (g : Nat) (f : SagSec → SagSec) (s : State) : (modSag g f s).sat = s.sat := rfl
@[simp] theorem modSag_ctr (g : Nat) (f : SagSec → SagSec) (s : State) : (modSag g f s).ctr = s.ctr := rfl
@[simp] theorem modSag_arch (g : Nat) (f : SagSec → SagSec) (s : State) : (modSag g f s).arch = s.arch := rfl
@[simp] theorem modSag_log (g : Nat) (f : SagSec → SagSec) (s : State) : (modSag g f s).log = s.log := rfl
@[simp] theorem modSag_img (g : Nat) (f : SagSec → SagSec) (s : State) : (modSag g f s).img = s.img := rfl
@[simp] theorem modSag_sec (g : Nat) (f : SagSec → SagSec) (s : State) : (modSag g f s).sec = s.sec := rfl
@[simp] theorem modSag_sag (g : Nat) (f : SagSec → SagSec) (s : State) : (modSag g f s).sag = amod s.sag g {} f := rfl
@[simp] theorem modSag_erc (g : Nat) (f : SagSec → SagSec) (s : State) : (modSag g f s).erc = s.erc := rfl
@[simp] theorem modSag_fab (g : Nat) (f : SagSec → SagSec) (s : State) : (modSag g f s).fab = s.fab := rfl
@[simp] theorem modSag_coh (g : Nat) (f : SagSec → SagSec) (s : State) : (modSag g f s).coh = s.coh := rfl
@[simp] theorem modSag_swc (g : Nat) (f : SagSec → SagSec) (s : State) : (modSag g f s).swc = s.swc := rfl
@[simp] theorem modSag_prt (g : Nat) (f : SagSec → SagSec) (s : State) : (modSag g f s).prt = s.prt := rfl
@[simp] theorem modSag_jsl (g : Nat) (f : SagSec → SagSec) (s : State) : (modSag g f s).jsl = s.jsl := rfl
@[simp] theorem modSag_tie (g : Nat) (f : SagSec → SagSec) (s : State) : (modSag g f s).tie = s.tie := rfl
@[simp] theorem modSag_flm (g : Nat) (f : SagSec → SagSec) (s : State) : (modSag g f s).flm = s.flm := rfl
@[simp] theorem modSag_cdc (g : Nat) (f : SagSec → SagSec) (s : State) : (modSag g f s).cdc = s.cdc := rfl
@[simp] theorem modSag_pug (g : Nat) (f : SagSec → SagSec) (s : State) : (modSag g f s).pug = s.pug := rfl
@[simp] theorem modSag_gth (g : Nat) (f : SagSec → SagSec) (s : State) : (modSag g f s).gth = s.gth := rfl
@[simp] theorem modSag_siv (g : Nat) (f : SagSec → SagSec) (s : State) : (modSag g f s).siv = s.siv := rfl
@[simp] theorem modSag_arrs (g : Nat) (f : SagSec → SagSec) (s : State) : (modSag g f s).arrs = s.arrs := rfl
@[simp] theorem modSag_trm (g : Nat) (f : SagSec → SagSec) (s : State) : (modSag g f s).trm = s.trm := rfl
@[simp] theorem modSag_trms (g : Nat) (f : SagSec → SagSec) (s : State) : (modSag g f s).trms = s.trms := rfl
@[simp] theorem modSag_sit (g : Nat) (f : SagSec → SagSec) (s : State) : (modSag g f s).sit = s.sit := rfl
@[simp] theorem modSag_lead (g : Nat) (f : SagSec → SagSec) (s : State) : (modSag g f s).lead = s.lead := rfl
@[simp] theorem modSag_att (g : Nat) (f : SagSec → SagSec) (s : State) : (modSag g f s).att = s.att := rfl
@[simp] theorem modSag_pkg (g : Nat) (f : SagSec → SagSec) (s : State) : (modSag g f s).pkg = s.pkg := rfl
@[simp] theorem modSag_wit (g : Nat) (f : SagSec → SagSec) (s : State) : (modSag g f s).wit = s.wit := rfl
@[simp] theorem modSag_wd (g : Nat) (f : SagSec → SagSec) (s : State) : (modSag g f s).wd = s.wd := rfl

@[simp] theorem setWd_now (f : Wd → Wd) (s : State) : (setWd f s).now = s.now := rfl
@[simp] theorem setWd_free (f : Wd → Wd) (s : State) : (setWd f s).free = s.free := rfl
@[simp] theorem setWd_variant (f : Wd → Wd) (s : State) : (setWd f s).variant = s.variant := rfl
@[simp] theorem setWd_pending (f : Wd → Wd) (s : State) : (setWd f s).pending = s.pending := rfl
@[simp] theorem setWd_out (f : Wd → Wd) (s : State) : (setWd f s).out = s.out := rfl
@[simp] theorem setWd_sat (f : Wd → Wd) (s : State) : (setWd f s).sat = s.sat := rfl
@[simp] theorem setWd_ctr (f : Wd → Wd) (s : State) : (setWd f s).ctr = s.ctr := rfl
@[simp] theorem setWd_arch (f : Wd → Wd) (s : State) : (setWd f s).arch = s.arch := rfl
@[simp] theorem setWd_log (f : Wd → Wd) (s : State) : (setWd f s).log = s.log := rfl
@[simp] theorem setWd_img (f : Wd → Wd) (s : State) : (setWd f s).img = s.img := rfl
@[simp] theorem setWd_sec (f : Wd → Wd) (s : State) : (setWd f s).sec = s.sec := rfl
@[simp] theorem setWd_sag (f : Wd → Wd) (s : State) : (setWd f s).sag = s.sag := rfl
@[simp] theorem setWd_erc (f : Wd → Wd) (s : State) : (setWd f s).erc = s.erc := rfl
@[simp] theorem setWd_fab (f : Wd → Wd) (s : State) : (setWd f s).fab = s.fab := rfl
@[simp] theorem setWd_coh (f : Wd → Wd) (s : State) : (setWd f s).coh = s.coh := rfl
@[simp] theorem setWd_swc (f : Wd → Wd) (s : State) : (setWd f s).swc = s.swc := rfl
@[simp] theorem setWd_prt (f : Wd → Wd) (s : State) : (setWd f s).prt = s.prt := rfl
@[simp] theorem setWd_jsl (f : Wd → Wd) (s : State) : (setWd f s).jsl = s.jsl := rfl
@[simp] theorem setWd_tie (f : Wd → Wd) (s : State) : (setWd f s).tie = s.tie := rfl
@[simp] theorem setWd_flm (f : Wd → Wd) (s : State) : (setWd f s).flm = s.flm := rfl
@[simp] theorem setWd_cdc (f : Wd → Wd) (s : State) : (setWd f s).cdc = s.cdc := rfl
@[simp] theorem setWd_pug (f : Wd → Wd) (s : State) : (setWd f s).pug = s.pug := rfl
@[simp] theorem setWd_gth (f : Wd → Wd) (s : State) : (setWd f s).gth = s.gth := rfl
@[simp] theorem setWd_siv (f : Wd → Wd) (s : State) : (setWd f s).siv = s.siv := rfl
@[simp] theorem setWd_arrs (f : Wd → Wd) (s : State) : (setWd f s).arrs = s.arrs := rfl
@[simp] theorem setWd_trm (f : Wd → Wd) (s : State) : (setWd f s).trm = s.trm := rfl
@[simp] theorem setWd_trms (f : Wd → Wd) (s : State) : (setWd f s).trms = s.trms := rfl
@[simp] theorem setWd_sit (f : Wd → Wd) (s : State) : (setWd f s).sit = s.sit := rfl
@[simp] theorem setWd_lead (f : Wd → Wd) (s : State) : (setWd f s).lead = s.lead := rfl
@[simp] theorem setWd_att (f : Wd → Wd) (s : State) : (setWd f s).att = s.att := rfl
@[simp] theorem setWd_pkg (f : Wd → Wd) (s : State) : (setWd f s).pkg = s.pkg := rfl
@[simp] theorem setWd_wit (f : Wd → Wd) (s : State) : (setWd f s).wit = s.wit := rfl
@[simp] theorem setWd_wd (f : Wd → Wd) (s : State) : (setWd f s).wd = f s.wd := rfl

@[simp] theorem setWit_now (f : Wit → Wit) (s : State) : (setWit f s).now = s.now := rfl
@[simp] theorem setWit_free (f : Wit → Wit) (s : State) : (setWit f s).free = s.free := rfl
@[simp] theorem setWit_variant (f : Wit → Wit) (s : State) : (setWit f s).variant = s.variant := rfl
@[simp] theorem setWit_pending (f : Wit → Wit) (s : State) : (setWit f s).pending = s.pending := rfl
@[simp] theorem setWit_out (f : Wit → Wit) (s : State) : (setWit f s).out = s.out := rfl
@[simp] theorem setWit_sat (f : Wit → Wit) (s : State) : (setWit f s).sat = s.sat := rfl
@[simp] theorem setWit_ctr (f : Wit → Wit) (s : State) : (setWit f s).ctr = s.ctr := rfl
@[simp] theorem setWit_arch (f : Wit → Wit) (s : State) : (setWit f s).arch = s.arch := rfl
@[simp] theorem setWit_log (f : Wit → Wit) (s : State) : (setWit f s).log = s.log := rfl
@[simp] theorem setWit_img (f : Wit → Wit) (s : State) : (setWit f s).img = s.img := rfl
@[simp] theorem setWit_sec (f : Wit → Wit) (s : State) : (setWit f s).sec = s.sec := rfl
@[simp] theorem setWit_sag (f : Wit → Wit) (s : State) : (setWit f s).sag = s.sag := rfl
@[simp] theorem setWit_erc (f : Wit → Wit) (s : State) : (setWit f s).erc = s.erc := rfl
@[simp] theorem setWit_fab (f : Wit → Wit) (s : State) : (setWit f s).fab = s.fab := rfl
@[simp] theorem setWit_coh (f : Wit → Wit) (s : State) : (setWit f s).coh = s.coh := rfl
@[simp] theorem setWit_swc (f : Wit → Wit) (s : State) : (setWit f s).swc = s.swc := rfl
@[simp] theorem setWit_prt (f : Wit → Wit) (s : State) : (setWit f s).prt = s.prt := rfl
@[simp] theorem setWit_jsl (f : Wit → Wit) (s : State) : (setWit f s).jsl = s.jsl := rfl
@[simp] theorem setWit_tie (f : Wit → Wit) (s : State) : (setWit f s).tie = s.tie := rfl
@[simp] theorem setWit_flm (f : Wit → Wit) (s : State) : (setWit f s).flm = s.flm := rfl
@[simp] theorem setWit_cdc (f : Wit → Wit) (s : State) : (setWit f s).cdc = s.cdc := rfl
@[simp] theorem setWit_pug (f : Wit → Wit) (s : State) : (setWit f s).pug = s.pug := rfl
@[simp] theorem setWit_gth (f : Wit → Wit) (s : State) : (setWit f s).gth = s.gth := rfl
@[simp] theorem setWit_siv (f : Wit → Wit) (s : State) : (setWit f s).siv = s.siv := rfl
@[simp] theorem setWit_arrs (f : Wit → Wit) (s : State) : (setWit f s).arrs = s.arrs := rfl
@[simp] theorem setWit_trm (f : Wit → Wit) (s : State) : (setWit f s).trm = s.trm := rfl
@[simp] theorem setWit_trms (f : Wit → Wit) (s : State) : (setWit f s).trms = s.trms := rfl
@[simp] theorem setWit_sit (f : Wit → Wit) (s : State) : (setWit f s).sit = s.sit := rfl
@[simp] theorem setWit_lead (f : Wit → Wit) (s : State) : (setWit f s).lead = s.lead := rfl
@[simp] theorem setWit_att (f : Wit → Wit) (s : State) : (setWit f s).att = s.att := rfl
@[simp] theorem setWit_pkg (f : Wit → Wit) (s : State) : (setWit f s).pkg = s.pkg := rfl
@[simp] theorem setWit_wit (f : Wit → Wit) (s : State) : (setWit f s).wit = f s.wit := rfl
@[simp] theorem setWit_wd (f : Wit → Wit) (s : State) : (setWit f s).wd = s.wd := rfl

@[simp] theorem setPug_now (f : Pug → Pug) (s : State) : (setPug f s).now = s.now := rfl
@[simp] theorem setPug_free (f : Pug → Pug) (s : State) : (setPug f s).free = s.free := rfl
@[simp] theorem setPug_variant (f : Pug → Pug) (s : State) : (setPug f s).variant = s.variant := rfl
@[simp] theorem setPug_pending (f : Pug → Pug) (s : State) : (setPug f s).pending = s.pending := rfl
@[simp] theorem setPug_out (f : Pug → Pug) (s : State) : (setPug f s).out = s.out := rfl
@[simp] theorem setPug_sat (f : Pug → Pug) (s : State) : (setPug f s).sat = s.sat := rfl
@[simp] theorem setPug_ctr (f : Pug → Pug) (s : State) : (setPug f s).ctr = s.ctr := rfl
@[simp] theorem setPug_arch (f : Pug → Pug) (s : State) : (setPug f s).arch = s.arch := rfl
@[simp] theorem setPug_log (f : Pug → Pug) (s : State) : (setPug f s).log = s.log := rfl
@[simp] theorem setPug_img (f : Pug → Pug) (s : State) : (setPug f s).img = s.img := rfl
@[simp] theorem setPug_sec (f : Pug → Pug) (s : State) : (setPug f s).sec = s.sec := rfl
@[simp] theorem setPug_sag (f : Pug → Pug) (s : State) : (setPug f s).sag = s.sag := rfl
@[simp] theorem setPug_erc (f : Pug → Pug) (s : State) : (setPug f s).erc = s.erc := rfl
@[simp] theorem setPug_fab (f : Pug → Pug) (s : State) : (setPug f s).fab = s.fab := rfl
@[simp] theorem setPug_coh (f : Pug → Pug) (s : State) : (setPug f s).coh = s.coh := rfl
@[simp] theorem setPug_swc (f : Pug → Pug) (s : State) : (setPug f s).swc = s.swc := rfl
@[simp] theorem setPug_prt (f : Pug → Pug) (s : State) : (setPug f s).prt = s.prt := rfl
@[simp] theorem setPug_jsl (f : Pug → Pug) (s : State) : (setPug f s).jsl = s.jsl := rfl
@[simp] theorem setPug_tie (f : Pug → Pug) (s : State) : (setPug f s).tie = s.tie := rfl
@[simp] theorem setPug_flm (f : Pug → Pug) (s : State) : (setPug f s).flm = s.flm := rfl
@[simp] theorem setPug_cdc (f : Pug → Pug) (s : State) : (setPug f s).cdc = s.cdc := rfl
@[simp] theorem setPug_pug (f : Pug → Pug) (s : State) : (setPug f s).pug = f s.pug := rfl
@[simp] theorem setPug_gth (f : Pug → Pug) (s : State) : (setPug f s).gth = s.gth := rfl
@[simp] theorem setPug_siv (f : Pug → Pug) (s : State) : (setPug f s).siv = s.siv := rfl
@[simp] theorem setPug_arrs (f : Pug → Pug) (s : State) : (setPug f s).arrs = s.arrs := rfl
@[simp] theorem setPug_trm (f : Pug → Pug) (s : State) : (setPug f s).trm = s.trm := rfl
@[simp] theorem setPug_trms (f : Pug → Pug) (s : State) : (setPug f s).trms = s.trms := rfl
@[simp] theorem setPug_sit (f : Pug → Pug) (s : State) : (setPug f s).sit = s.sit := rfl
@[simp] theorem setPug_lead (f : Pug → Pug) (s : State) : (setPug f s).lead = s.lead := rfl
@[simp] theorem setPug_att (f : Pug → Pug) (s : State) : (setPug f s).att = s.att := rfl
@[simp] theorem setPug_pkg (f : Pug → Pug) (s : State) : (setPug f s).pkg = s.pkg := rfl
@[simp] theorem setPug_wit (f : Pug → Pug) (s : State) : (setPug f s).wit = s.wit := rfl
@[simp] theorem setPug_wd (f : Pug → Pug) (s : State) : (setPug f s).wd = s.wd := rfl

@[simp] theorem setGth_now (f : Gth → Gth) (s : State) : (setGth f s).now = s.now := rfl
@[simp] theorem setGth_free (f : Gth → Gth) (s : State) : (setGth f s).free = s.free := rfl
@[simp] theorem setGth_variant (f : Gth → Gth) (s : State) : (setGth f s).variant = s.variant := rfl
@[simp] theorem setGth_pending (f : Gth → Gth) (s : State) : (setGth f s).pending = s.pending := rfl
@[simp] theorem setGth_out (f : Gth → Gth) (s : State) : (setGth f s).out = s.out := rfl
@[simp] theorem setGth_sat (f : Gth → Gth) (s : State) : (setGth f s).sat = s.sat := rfl
@[simp] theorem setGth_ctr (f : Gth → Gth) (s : State) : (setGth f s).ctr = s.ctr := rfl
@[simp] theorem setGth_arch (f : Gth → Gth) (s : State) : (setGth f s).arch = s.arch := rfl
@[simp] theorem setGth_log (f : Gth → Gth) (s : State) : (setGth f s).log = s.log := rfl
@[simp] theorem setGth_img (f : Gth → Gth) (s : State) : (setGth f s).img = s.img := rfl
@[simp] theorem setGth_sec (f : Gth → Gth) (s : State) : (setGth f s).sec = s.sec := rfl
@[simp] theorem setGth_sag (f : Gth → Gth) (s : State) : (setGth f s).sag = s.sag := rfl
@[simp] theorem setGth_erc (f : Gth → Gth) (s : State) : (setGth f s).erc = s.erc := rfl
@[simp] theorem setGth_fab (f : Gth → Gth) (s : State) : (setGth f s).fab = s.fab := rfl
@[simp] theorem setGth_coh (f : Gth → Gth) (s : State) : (setGth f s).coh = s.coh := rfl
@[simp] theorem setGth_swc (f : Gth → Gth) (s : State) : (setGth f s).swc = s.swc := rfl
@[simp] theorem setGth_prt (f : Gth → Gth) (s : State) : (setGth f s).prt = s.prt := rfl
@[simp] theorem setGth_jsl (f : Gth → Gth) (s : State) : (setGth f s).jsl = s.jsl := rfl
@[simp] theorem setGth_tie (f : Gth → Gth) (s : State) : (setGth f s).tie = s.tie := rfl
@[simp] theorem setGth_flm (f : Gth → Gth) (s : State) : (setGth f s).flm = s.flm := rfl
@[simp] theorem setGth_cdc (f : Gth → Gth) (s : State) : (setGth f s).cdc = s.cdc := rfl
@[simp] theorem setGth_pug (f : Gth → Gth) (s : State) : (setGth f s).pug = s.pug := rfl
@[simp] theorem setGth_gth (f : Gth → Gth) (s : State) : (setGth f s).gth = f s.gth := rfl
@[simp] theorem setGth_siv (f : Gth → Gth) (s : State) : (setGth f s).siv = s.siv := rfl
@[simp] theorem setGth_arrs (f : Gth → Gth) (s : State) : (setGth f s).arrs = s.arrs := rfl
@[simp] theorem setGth_trm (f : Gth → Gth) (s : State) : (setGth f s).trm = s.trm := rfl
@[simp] theorem setGth_trms (f : Gth → Gth) (s : State) : (setGth f s).trms = s.trms := rfl
@[simp] theorem setGth_sit (f : Gth → Gth) (s : State) : (setGth f s).sit = s.sit := rfl
@[simp] theorem setGth_lead (f : Gth → Gth) (s : State) : (setGth f s).lead = s.lead := rfl
@[simp] theorem setGth_att (f : Gth → Gth) (s : State) : (setGth f s).att = s.att := rfl
@[simp] theorem setGth_pkg (f : Gth → Gth) (s : State) : (setGth f s).pkg = s.pkg := rfl
@[simp] theorem setGth_wit (f : Gth → Gth) (s : State) : (setGth f s).wit = s.wit := rfl
@[simp] theorem setGth_wd (f : Gth → Gth) (s : State) : (setGth f s).wd = s.wd := rfl

@[simp] theorem setSiv_now (f : Siv → Siv) (s : State) : (setSiv f s).now = s.now := rfl
@[simp] theorem setSiv_free (f : Siv → Siv) (s : State) : (setSiv f s).free = s.free := rfl
@[simp] theorem setSiv_variant (f : Siv → Siv) (s : State) : (setSiv f s).variant = s.variant := rfl
@[simp] theorem setSiv_pending (f : Siv → Siv) (s : State) : (setSiv f s).pending = s.pending := rfl
@[simp] theorem setSiv_out (f : Siv → Siv) (s : State) : (setSiv f s).out = s.out := rfl
@[simp] theorem setSiv_sat (f : Siv → Siv) (s : State) : (setSiv f s).sat = s.sat := rfl
@[simp] theorem setSiv_ctr (f : Siv → Siv) (s : State) : (setSiv f s).ctr = s.ctr := rfl
@[simp] theorem setSiv_arch (f : Siv → Siv) (s : State) : (setSiv f s).arch = s.arch := rfl
@[simp] theorem setSiv_log (f : Siv → Siv) (s : State) : (setSiv f s).log = s.log := rfl
@[simp] theorem setSiv_img (f : Siv → Siv) (s : State) : (setSiv f s).img = s.img := rfl
@[simp] theorem setSiv_sec (f : Siv → Siv) (s : State) : (setSiv f s).sec = s.sec := rfl
@[simp] theorem setSiv_sag (f : Siv → Siv) (s : State) : (setSiv f s).sag = s.sag := rfl
@[simp] theorem setSiv_erc (f : Siv → Siv) (s : State) : (setSiv f s).erc = s.erc := rfl
@[simp] theorem setSiv_fab (f : Siv → Siv) (s : State) : (setSiv f s).fab = s.fab := rfl
@[simp] theorem setSiv_coh (f : Siv → Siv) (s : State) : (setSiv f s).coh = s.coh := rfl
@[simp] theorem setSiv_swc (f : Siv → Siv) (s : State) : (setSiv f s).swc = s.swc := rfl
@[simp] theorem setSiv_prt (f : Siv → Siv) (s : State) : (setSiv f s).prt = s.prt := rfl
@[simp] theorem setSiv_jsl (f : Siv → Siv) (s : State) : (setSiv f s).jsl = s.jsl := rfl
@[simp] theorem setSiv_tie (f : Siv → Siv) (s : State) : (setSiv f s).tie = s.tie := rfl
@[simp] theorem setSiv_flm (f : Siv → Siv) (s : State) : (setSiv f s).flm = s.flm := rfl
@[simp] theorem setSiv_cdc (f : Siv → Siv) (s : State) : (setSiv f s).cdc = s.cdc := rfl
@[simp] theorem setSiv_pug (f : Siv → Siv) (s : State) : (setSiv f s).pug = s.pug := rfl
@[simp] theorem setSiv_gth (f : Siv → Siv) (s : State) : (setSiv f s).gth = s.gth := rfl
@[simp] theorem setSiv_siv (f : Siv → Siv) (s : State) : (setSiv f s).siv = f s.siv := rfl
@[simp] theorem setSiv_arrs (f : Siv → Siv) (s : State) : (setSiv f s).arrs = s.arrs := rfl
@[simp] theorem setSiv_trm (f : Siv → Siv) (s : State) : (setSiv f s).trm = s.trm := rfl
@[simp] theorem setSiv_trms (f : Siv → Siv) (s : State) : (setSiv f s).trms = s.trms := rfl
@[simp] theorem setSiv_sit (f : Siv → Siv) (s : State) : (setSiv f s).sit = s.sit := rfl
@[simp] theorem setSiv_lead (f : Siv → Siv) (s : State) : (setSiv f s).lead = s.lead := rfl
@[simp] theorem setSiv_att (f : Siv → Siv) (s : State) : (setSiv f s).att = s.att := rfl
@[simp] theorem setSiv_pkg (f : Siv → Siv) (s : State) : (setSiv f s).pkg = s.pkg := rfl
@[simp] theorem setSiv_wit (f : Siv → Siv) (s : State) : (setSiv f s).wit = s.wit := rfl
@[simp] theorem setSiv_wd (f : Siv → Siv) (s : State) : (setSiv f s).wd = s.wd := rfl

@[simp] theorem modPort_now (p : Nat) (f : Port → Port) (s : State) : (modPort p f s).now = s.now := rfl
@[simp] theorem modPort_free (p : Nat) (f : Port → Port) (s : State) : (modPort p f s).free = s.free := rfl
@[simp] theorem modPort_variant (p : Nat) (f : Port → Port) (s : State) : (modPort p f s).variant = s.variant := rfl
@[simp] theorem modPort_pending (p : Nat) (f : Port → Port) (s : State) : (modPort p f s).pending = s.pending := rfl
@[simp] theorem modPort_out (p : Nat) (f : Port → Port) (s : State) : (modPort p f s).out = s.out := rfl
@[simp] theorem modPort_sat (p : Nat) (f : Port → Port) (s : State) : (modPort p f s).sat = s.sat := rfl
@[simp] theorem modPort_ctr (p : Nat) (f : Port → Port) (s : State) : (modPort p f s).ctr = s.ctr := rfl
@[simp] theorem modPort_arch (p : Nat) (f : Port → Port) (s : State) : (modPort p f s).arch = s.arch := rfl
@[simp] theorem modPort_log (p : Nat) (f : Port → Port) (s : State) : (modPort p f s).log = s.log := rfl
@[simp] theorem modPort_img (p : Nat) (f : Port → Port) (s : State) : (modPort p f s).img = s.img := rfl
@[simp] theorem modPort_sec (p : Nat) (f : Port → Port) (s : State) : (modPort p f s).sec = s.sec := rfl
@[simp] theorem modPort_sag (p : Nat) (f : Port → Port) (s : State) : (modPort p f s).sag = s.sag := rfl
@[simp] theorem modPort_erc (p : Nat) (f : Port → Port) (s : State) : (modPort p f s).erc = s.erc := rfl
@[simp] theorem modPort_fab (p : Nat) (f : Port → Port) (s : State) : (modPort p f s).fab = s.fab := rfl
@[simp] theorem modPort_coh (p : Nat) (f : Port → Port) (s : State) : (modPort p f s).coh = s.coh := rfl
@[simp] theorem modPort_swc (p : Nat) (f : Port → Port) (s : State) : (modPort p f s).swc = s.swc := rfl
@[simp] theorem modPort_prt (p : Nat) (f : Port → Port) (s : State) : (modPort p f s).prt = amod s.prt p {} f := rfl
@[simp] theorem modPort_jsl (p : Nat) (f : Port → Port) (s : State) : (modPort p f s).jsl = s.jsl := rfl
@[simp] theorem modPort_tie (p : Nat) (f : Port → Port) (s : State) : (modPort p f s).tie = s.tie := rfl
@[simp] theorem modPort_flm (p : Nat) (f : Port → Port) (s : State) : (modPort p f s).flm = s.flm := rfl
@[simp] theorem modPort_cdc (p : Nat) (f : Port → Port) (s : State) : (modPort p f s).cdc = s.cdc := rfl
@[simp] theorem modPort_pug (p : Nat) (f : Port → Port) (s : State) : (modPort p f s).pug = s.pug := rfl
@[simp] theorem modPort_gth (p : Nat) (f : Port → Port) (s : State) : (modPort p f s).gth = s.gth := rfl
@[simp] theorem modPort_siv (p : Nat) (f : Port → Port) (s : State) : (modPort p f s).siv = s.siv := rfl
@[simp] theorem modPort_arrs (p : Nat) (f : Port → Port) (s : State) : (modPort p f s).arrs = s.arrs := rfl
@[simp] theorem modPort_trm (p : Nat) (f : Port → Port) (s : State) : (modPort p f s).trm = s.trm := rfl
@[simp] theorem modPort_trms (p : Nat) (f : Port → Port) (s : State) : (modPort p f s).trms = s.trms := rfl
@[simp] theorem modPort_sit (p : Nat) (f : Port → Port) (s : State) : (modPort p f s).sit = s.sit := rfl
@[simp] theorem modPort_lead (p : Nat) (f : Port → Port) (s : State) : (modPort p f s).lead = s.lead := rfl
@[simp] theorem modPort_att (p : Nat) (f : Port → Port) (s : State) : (modPort p f s).att = s.att := rfl
@[simp] theorem modPort_pkg (p : Nat) (f : Port → Port) (s : State) : (modPort p f s).pkg = s.pkg := rfl
@[simp] theorem modPort_wit (p : Nat) (f : Port → Port) (s : State) : (modPort p f s).wit = s.wit := rfl
@[simp] theorem modPort_wd (p : Nat) (f : Port → Port) (s : State) : (modPort p f s).wd = s.wd := rfl

@[simp] theorem modSit_now (g : Nat) (f : SitSag → SitSag) (s : State) : (modSit g f s).now = s.now := rfl
@[simp] theorem modSit_free (g : Nat) (f : SitSag → SitSag) (s : State) : (modSit g f s).free = s.free := rfl
@[simp] theorem modSit_variant (g : Nat) (f : SitSag → SitSag) (s : State) : (modSit g f s).variant = s.variant := rfl
@[simp] theorem modSit_pending (g : Nat) (f : SitSag → SitSag) (s : State) : (modSit g f s).pending = s.pending := rfl
@[simp] theorem modSit_out (g : Nat) (f : SitSag → SitSag) (s : State) : (modSit g f s).out = s.out := rfl
@[simp] theorem modSit_sat (g : Nat) (f : SitSag → SitSag) (s : State) : (modSit g f s).sat = s.sat := rfl
@[simp] theorem modSit_ctr (g : Nat) (f : SitSag → SitSag) (s : State) : (modSit g f s).ctr = s.ctr := rfl
@[simp] theorem modSit_arch (g : Nat) (f : SitSag → SitSag) (s : State) : (modSit g f s).arch = s.arch := rfl
@[simp] theorem modSit_log (g : Nat) (f : SitSag → SitSag) (s : State) : (modSit g f s).log = s.log := rfl
@[simp] theorem modSit_img (g : Nat) (f : SitSag → SitSag) (s : State) : (modSit g f s).img = s.img := rfl
@[simp] theorem modSit_sec (g : Nat) (f : SitSag → SitSag) (s : State) : (modSit g f s).sec = s.sec := rfl
@[simp] theorem modSit_sag (g : Nat) (f : SitSag → SitSag) (s : State) : (modSit g f s).sag = s.sag := rfl
@[simp] theorem modSit_erc (g : Nat) (f : SitSag → SitSag) (s : State) : (modSit g f s).erc = s.erc := rfl
@[simp] theorem modSit_fab (g : Nat) (f : SitSag → SitSag) (s : State) : (modSit g f s).fab = s.fab := rfl
@[simp] theorem modSit_coh (g : Nat) (f : SitSag → SitSag) (s : State) : (modSit g f s).coh = s.coh := rfl
@[simp] theorem modSit_swc (g : Nat) (f : SitSag → SitSag) (s : State) : (modSit g f s).swc = s.swc := rfl
@[simp] theorem modSit_prt (g : Nat) (f : SitSag → SitSag) (s : State) : (modSit g f s).prt = s.prt := rfl
@[simp] theorem modSit_jsl (g : Nat) (f : SitSag → SitSag) (s : State) : (modSit g f s).jsl = s.jsl := rfl
@[simp] theorem modSit_tie (g : Nat) (f : SitSag → SitSag) (s : State) : (modSit g f s).tie = s.tie := rfl
@[simp] theorem modSit_flm (g : Nat) (f : SitSag → SitSag) (s : State) : (modSit g f s).flm = s.flm := rfl
@[simp] theorem modSit_cdc (g : Nat) (f : SitSag → SitSag) (s : State) : (modSit g f s).cdc = s.cdc := rfl
@[simp] theorem modSit_pug (g : Nat) (f : SitSag → SitSag) (s : State) : (modSit g f s).pug = s.pug := rfl
@[simp] theorem modSit_gth (g : Nat) (f : SitSag → SitSag) (s : State) : (modSit g f s).gth = s.gth := rfl
@[simp] theorem modSit_siv (g : Nat) (f : SitSag → SitSag) (s : State) : (modSit g f s).siv = s.siv := rfl
@[simp] theorem modSit_arrs (g : Nat) (f : SitSag → SitSag) (s : State) : (modSit g f s).arrs = s.arrs := rfl
@[simp] theorem modSit_trm (g : Nat) (f : SitSag → SitSag) (s : State) : (modSit g f s).trm = s.trm := rfl
@[simp] theorem modSit_trms (g : Nat) (f : SitSag → SitSag) (s : State) : (modSit g f s).trms = s.trms := rfl
@[simp] theorem modSit_sit (g : Nat) (f : SitSag → SitSag) (s : State) : (modSit g f s).sit = amod s.sit g {} f := rfl
@[simp] theorem modSit_lead (g : Nat) (f : SitSag → SitSag) (s : State) : (modSit g f s).lead = s.lead := rfl
@[simp] theorem modSit_att (g : Nat) (f : SitSag → SitSag) (s : State) : (modSit g f s).att = s.att := rfl
@[simp] theorem modSit_pkg (g : Nat) (f : SitSag → SitSag) (s : State) : (modSit g f s).pkg = s.pkg := rfl
@[simp] theorem modSit_wit (g : Nat) (f : SitSag → SitSag) (s : State) : (modSit g f s).wit = s.wit := rfl
@[simp] theorem modSit_wd (g : Nat) (f : SitSag → SitSag) (s : State) : (modSit g f s).wd = s.wd := rfl

@[simp] theorem modLead_now (comp : Nat) (f : SitLead → SitLead) (s : State) : (modLead comp f s).now = s.now := rfl
@[simp] theorem modLead_free (comp : Nat) (f : SitLead → SitLead) (s : State) : (modLead comp f s).free = s.free := rfl
@[simp] theorem modLead_variant (comp : Nat) (f : SitLead → SitLead) (s : State) : (modLead comp f s).variant = s.variant := rfl
@[simp] theorem modLead_pending (comp : Nat) (f : SitLead → SitLead) (s : State) : (modLead comp f s).pending = s.pending := rfl
@[simp] theorem modLead_out (comp : Nat) (f : SitLead → SitLead) (s : State) : (modLead comp f s).out = s.out := rfl
@[simp] theorem modLead_sat (comp : Nat) (f : SitLead → SitLead) (s : State) : (modLead comp f s).sat = s.sat := rfl
@[simp] theorem modLead_ctr (comp : Nat) (f : SitLead → SitLead) (s : State) : (modLead comp f s).ctr = s.ctr := rfl
@[simp] theorem modLead_arch (comp : Nat) (f : SitLead → SitLead) (s : State) : (modLead comp f s).arch = s.arch := rfl
@[simp] theorem modLead_log (comp : Nat) (f : SitLead → SitLead) (s : State) : (modLead comp f s).log = s.log := rfl
@[simp] theorem modLead_img (comp : Nat) (f : SitLead → SitLead) (s : State) : (modLead comp f s).img = s.img := rfl
@[simp] theorem modLead_sec (comp : Nat) (f : SitLead → SitLead) (s : State) : (modLead comp f s).sec = s.sec := rfl
@[simp] theorem modLead_sag (comp : Nat) (f : SitLead → SitLead) (s : State) : (modLead comp f s).sag = s.sag := rfl
@[simp] theorem modLead_erc (comp : Nat) (f : SitLead → SitLead) (s : State) : (modLead comp f s).erc = s.erc := rfl
@[simp] theorem modLead_fab (comp : Nat) (f : SitLead → SitLead) (s : State) : (modLead comp f s).fab = s.fab := rfl
@[simp] theorem modLead_coh (comp : Nat) (f : SitLead → SitLead) (s : State) : (modLead comp f s).coh = s.coh := rfl
@[simp] theorem modLead_swc (comp : Nat) (f : SitLead → SitLead) (s : State) : (modLead comp f s).swc = s.swc := rfl
@[simp] theorem modLead_prt (comp : Nat) (f : SitLead → SitLead) (s : State) : (modLead comp f s).prt = s.prt := rfl
@[simp] theorem modLead_jsl (comp : Nat) (f : SitLead → SitLead) (s : State) : (modLead comp f s).jsl = s.jsl := rfl
@[simp] theorem modLead_tie (comp : Nat) (f : SitLead → SitLead) (s : State) : (modLead comp f s).tie = s.tie := rfl
@[simp] theorem modLead_flm (comp : Nat) (f : SitLead → SitLead) (s : State) : (modLead comp f s).flm = s.flm := rfl
@[simp] theorem modLead_cdc (comp : Nat) (f : SitLead → SitLead) (s : State) : (modLead comp f s).cdc = s.cdc := rfl
@[simp] theorem modLead_pug (comp : Nat) (f : SitLead → SitLead) (s : State) : (modLead comp f s).pug = s.pug := rfl
@[simp] theorem modLead_gth (comp : Nat) (f : SitLead → SitLead) (s : State) : (modLead comp f s).gth = s.gth := rfl
@[simp] theorem modLead_siv (comp : Nat) (f : SitLead → SitLead) (s : State) : (modLead comp f s).siv = s.siv := rfl
@[simp] theorem modLead_arrs (comp : Nat) (f : SitLead → SitLead) (s : State) : (modLead comp f s).arrs = s.arrs := rfl
@[simp] theorem modLead_trm (comp : Nat) (f : SitLead → SitLead) (s : State) : (modLead comp f s).trm = s.trm := rfl
@[simp] theorem modLead_trms (comp : Nat) (f : SitLead → SitLead) (s : State) : (modLead comp f s).trms = s.trms := rfl
@[simp] theorem modLead_sit (comp : Nat) (f : SitLead → SitLead) (s : State) : (modLead comp f s).sit = s.sit := rfl
@[simp] theorem modLead_lead (comp : Nat) (f : SitLead → SitLead) (s : State) : (modLead comp f s).lead = amod s.lead comp {} f := rfl
@[simp] theorem modLead_att (comp : Nat) (f : SitLead → SitLead) (s : State) : (modLead comp f s).att = s.att := rfl
@[simp] theorem modLead_pkg (comp : Nat) (f : SitLead → SitLead) (s : State) : (modLead comp f s).pkg = s.pkg := rfl
@[simp] theorem modLead_wit (comp : Nat) (f : SitLead → SitLead) (s : State) : (modLead comp f s).wit = s.wit := rfl
@[simp] theorem modLead_wd (comp : Nat) (f : SitLead → SitLead) (s : State) : (modLead comp f s).wd = s.wd := rfl

@[simp] theorem modTrm_now (t : Nat) (f : Trm → Trm) (s : State) : (modTrm t f s).now = s.now := rfl
@[simp] theorem modTrm_free (t : Nat) (f : Trm → Trm) (s : State) : (modTrm t f s).free = s.free := rfl
@[simp] theorem modTrm_variant (t : Nat) (f : Trm → Trm) (s : State) : (modTrm t f s).variant = s.variant := rfl
@[simp] theorem modTrm_pending (t : Nat) (f : Trm → Trm) (s : State) : (modTrm t f s).pending = s.pending := rfl
@[simp] theorem modTrm_out (t : Nat) (f : Trm → Trm) (s : State) : (modTrm t f s).out = s.out := rfl
@[simp] theorem modTrm_sat (t : Nat) (f : Trm → Trm) (s : State) : (modTrm t f s).sat = s.sat := rfl
@[simp] theorem modTrm_ctr (t : Nat) (f : Trm → Trm) (s : State) : (modTrm t f s).ctr = s.ctr := rfl
@[simp] theorem modTrm_arch (t : Nat) (f : Trm → Trm) (s : State) : (modTrm t f s).arch = s.arch := rfl
@[simp] theorem modTrm_log (t : Nat) (f : Trm → Trm) (s : State) : (modTrm t f s).log = s.log := rfl
@[simp] theorem modTrm_img (t : Nat) (f : Trm → Trm) (s : State) : (modTrm t f s).img = s.img := rfl
@[simp] theorem modTrm_sec (t : Nat) (f : Trm → Trm) (s : State) : (modTrm t f s).sec = s.sec := rfl
@[simp] theorem modTrm_sag (t : Nat) (f : Trm → Trm) (s : State) : (modTrm t f s).sag = s.sag := rfl
@[simp] theorem modTrm_erc (t : Nat) (f : Trm → Trm) (s : State) : (modTrm t f s).erc = s.erc := rfl
@[simp] theorem modTrm_fab (t : Nat) (f : Trm → Trm) (s : State) : (modTrm t f s).fab = s.fab := rfl
@[simp] theorem modTrm_coh (t : Nat) (f : Trm → Trm) (s : State) : (modTrm t f s).coh = s.coh := rfl
@[simp] theorem modTrm_swc (t : Nat) (f : Trm → Trm) (s : State) : (modTrm t f s).swc = s.swc := rfl
@[simp] theorem modTrm_prt (t : Nat) (f : Trm → Trm) (s : State) : (modTrm t f s).prt = s.prt := rfl
@[simp] theorem modTrm_jsl (t : Nat) (f : Trm → Trm) (s : State) : (modTrm t f s).jsl = s.jsl := rfl
@[simp] theorem modTrm_tie (t : Nat) (f : Trm → Trm) (s : State) : (modTrm t f s).tie = s.tie := rfl
@[simp] theorem modTrm_flm (t : Nat) (f : Trm → Trm) (s : State) : (modTrm t f s).flm = s.flm := rfl
@[simp] theorem modTrm_cdc (t : Nat) (f : Trm → Trm) (s : State) : (modTrm t f s).cdc = s.cdc := rfl
@[simp] theorem modTrm_pug (t : Nat) (f : Trm → Trm) (s : State) : (modTrm t f s).pug = s.pug := rfl
@[simp] theorem modTrm_gth (t : Nat) (f : Trm → Trm) (s : State) : (modTrm t f s).gth = s.gth := rfl
@[simp] theorem modTrm_siv (t : Nat) (f : Trm → Trm) (s : State) : (modTrm t f s).siv = s.siv := rfl
@[simp] theorem modTrm_arrs (t : Nat) (f : Trm → Trm) (s : State) : (modTrm t f s).arrs = s.arrs := rfl
@[simp] theorem modTrm_trm (t : Nat) (f : Trm → Trm) (s : State) : (modTrm t f s).trm = amod s.trm t {} f := rfl
@[simp] theorem modTrm_trms (t : Nat) (f : Trm → Trm) (s : State) : (modTrm t f s).trms = s.trms := rfl
@[simp] theorem modTrm_sit (t : Nat) (f : Trm → Trm) (s : State) : (modTrm t f s).sit = s.sit := rfl
@[simp] theorem modTrm_lead (t : Nat) (f : Trm → Trm) (s : State) : (modTrm t f s).lead = s.lead := rfl
@[simp] theorem modTrm_att (t : Nat) (f : Trm → Trm) (s : State) : (modTrm t f s).att = s.att := rfl
@[simp] theorem modTrm_pkg (t : Nat) (f : Trm → Trm) (s : State) : (modTrm t f s).pkg = s.pkg := rfl
@[simp] theorem modTrm_wit (t : Nat) (f : Trm → Trm) (s : State) : (modTrm t f s).wit = s.wit := rfl
@[simp] theorem modTrm_wd (t : Nat) (f : Trm → Trm) (s : State) : (modTrm t f s).wd = s.wd := rfl

@[simp] theorem modFlm_now (f : Flm → Flm) (s : State) : (modFlm f s).now = s.now := rfl
@[simp] theorem modFlm_free (f : Flm → Flm) (s : State) : (modFlm f s).free = s.free := rfl
@[simp] theorem modFlm_variant (f : Flm → Flm) (s : State) : (modFlm f s).variant = s.variant := rfl
@[simp] theorem modFlm_pending (f : Flm → Flm) (s : State) : (modFlm f s).pending = s.pending := rfl
@[simp] theorem modFlm_out (f : Flm → Flm) (s : State) : (modFlm f s).out = s.out := rfl
@[simp] theorem modFlm_sat (f : Flm → Flm) (s : State) : (modFlm f s).sat = s.sat := rfl
@[simp] theorem modFlm_ctr (f : Flm → Flm) (s : State) : (modFlm f s).ctr = s.ctr := rfl
@[simp] theorem modFlm_arch (f : Flm → Flm) (s : State) : (modFlm f s).arch = s.arch := rfl
@[simp] theorem modFlm_log (f : Flm → Flm) (s : State) : (modFlm f s).log = s.log := rfl
@[simp] theorem modFlm_img (f : Flm → Flm) (s : State) : (modFlm f s).img = s.img := rfl
@[simp] theorem modFlm_sec (f : Flm → Flm) (s : State) : (modFlm f s).sec = s.sec := rfl
@[simp] theorem modFlm_sag (f : Flm → Flm) (s : State) : (modFlm f s).sag = s.sag := rfl
@[simp] theorem modFlm_erc (f : Flm → Flm) (s : State) : (modFlm f s).erc = s.erc := rfl
@[simp] theorem modFlm_fab (f : Flm → Flm) (s : State) : (modFlm f s).fab = s.fab := rfl
@[simp] theorem modFlm_coh (f : Flm → Flm) (s : State) : (modFlm f s).coh = s.coh := rfl
@[simp] theorem modFlm_swc (f : Flm → Flm) (s : State) : (modFlm f s).swc = s.swc := rfl
@[simp] theorem modFlm_prt (f : Flm → Flm) (s : State) : (modFlm f s).prt = s.prt := rfl
@[simp] theorem modFlm_jsl (f : Flm → Flm) (s : State) : (modFlm f s).jsl = s.jsl := rfl
@[simp] theorem modFlm_tie (f : Flm → Flm) (s : State) : (modFlm f s).tie = s.tie := rfl
@[simp] theorem modFlm_flm (f : Flm → Flm) (s : State) : (modFlm f s).flm = f s.flm := rfl
@[simp] theorem modFlm_cdc (f : Flm → Flm) (s : State) : (modFlm f s).cdc = s.cdc := rfl
@[simp] theorem modFlm_pug (f : Flm → Flm) (s : State) : (modFlm f s).pug = s.pug := rfl
@[simp] theorem modFlm_gth (f : Flm → Flm) (s : State) : (modFlm f s).gth = s.gth := rfl
@[simp] theorem modFlm_siv (f : Flm → Flm) (s : State) : (modFlm f s).siv = s.siv := rfl
@[simp] theorem modFlm_arrs (f : Flm → Flm) (s : State) : (modFlm f s).arrs = s.arrs := rfl
@[simp] theorem modFlm_trm (f : Flm → Flm) (s : State) : (modFlm f s).trm = s.trm := rfl
@[simp] theorem modFlm_trms (f : Flm → Flm) (s : State) : (modFlm f s).trms = s.trms := rfl
@[simp] theorem modFlm_sit (f : Flm → Flm) (s : State) : (modFlm f s).sit = s.sit := rfl
@[simp] theorem modFlm_lead (f : Flm → Flm) (s : State) : (modFlm f s).lead = s.lead := rfl
@[simp] theorem modFlm_att (f : Flm → Flm) (s : State) : (modFlm f s).att = s.att := rfl
@[simp] theorem modFlm_pkg (f : Flm → Flm) (s : State) : (modFlm f s).pkg = s.pkg := rfl
@[simp] theorem modFlm_wit (f : Flm → Flm) (s : State) : (modFlm f s).wit = s.wit := rfl
@[simp] theorem modFlm_wd (f : Flm → Flm) (s : State) : (modFlm f s).wd = s.wd := rfl

@[simp] theorem modEngine_now (e : Nat) (f : CdcEngine → CdcEngine) (s : State) : (modEngine e f s).now = s.now := rfl
@[simp] theorem modEngine_free (e : Nat) (f : CdcEngine → CdcEngine) (s : State) : (modEngine e f s).free = s.free := rfl
@[simp] theorem modEngine_variant (e : Nat) (f : CdcEngine → CdcEngine) (s : State) : (modEngine e f s).variant = s.variant := rfl
@[simp] theorem modEngine_pending (e : Nat) (f : CdcEngine → CdcEngine) (s : State) : (modEngine e f s).pending = s.pending := rfl
@[simp] theorem modEngine_out (e : Nat) (f : CdcEngine → CdcEngine) (s : State) : (modEngine e f s).out = s.out := rfl
@[simp] theorem modEngine_sat (e : Nat) (f : CdcEngine → CdcEngine) (s : State) : (modEngine e f s).sat = s.sat := rfl
@[simp] theorem modEngine_ctr (e : Nat) (f : CdcEngine → CdcEngine) (s : State) : (modEngine e f s).ctr = s.ctr := rfl
@[simp] theorem modEngine_arch (e : Nat) (f : CdcEngine → CdcEngine) (s : State) : (modEngine e f s).arch = s.arch := rfl
@[simp] theorem modEngine_log (e : Nat) (f : CdcEngine → CdcEngine) (s : State) : (modEngine e f s).log = s.log := rfl
@[simp] theorem modEngine_img (e : Nat) (f : CdcEngine → CdcEngine) (s : State) : (modEngine e f s).img = s.img := rfl
@[simp] theorem modEngine_sec (e : Nat) (f : CdcEngine → CdcEngine) (s : State) : (modEngine e f s).sec = s.sec := rfl
@[simp] theorem modEngine_sag (e : Nat) (f : CdcEngine → CdcEngine) (s : State) : (modEngine e f s).sag = s.sag := rfl
@[simp] theorem modEngine_erc (e : Nat) (f : CdcEngine → CdcEngine) (s : State) : (modEngine e f s).erc = s.erc := rfl
@[simp] theorem modEngine_fab (e : Nat) (f : CdcEngine → CdcEngine) (s : State) : (modEngine e f s).fab = s.fab := rfl
@[simp] theorem modEngine_coh (e : Nat) (f : CdcEngine → CdcEngine) (s : State) : (modEngine e f s).coh = s.coh := rfl
@[simp] theorem modEngine_swc (e : Nat) (f : CdcEngine → CdcEngine) (s : State) : (modEngine e f s).swc = s.swc := rfl
@[simp] theorem modEngine_prt (e : Nat) (f : CdcEngine → CdcEngine) (s : State) : (modEngine e f s).prt = s.prt := rfl
@[simp] theorem modEngine_jsl (e : Nat) (f : CdcEngine → CdcEngine) (s : State) : (modEngine e f s).jsl = s.jsl := rfl
@[simp] theorem modEngine_tie (e : Nat) (f : CdcEngine → CdcEngine) (s : State) : (modEngine e f s).tie = s.tie := rfl
@[simp] theorem modEngine_flm (e : Nat) (f : CdcEngine → CdcEngine) (s : State) : (modEngine e f s).flm = s.flm := rfl
@[simp] theorem modEngine_cdc (e : Nat) (f : CdcEngine → CdcEngine) (s : State) : (modEngine e f s).cdc = { s.cdc with eng := amod s.cdc.eng e {} f } := rfl
@[simp] theorem modEngine_pug (e : Nat) (f : CdcEngine → CdcEngine) (s : State) : (modEngine e f s).pug = s.pug := rfl
@[simp] theorem modEngine_gth (e : Nat) (f : CdcEngine → CdcEngine) (s : State) : (modEngine e f s).gth = s.gth := rfl
@[simp] theorem modEngine_siv (e : Nat) (f : CdcEngine → CdcEngine) (s : State) : (modEngine e f s).siv = s.siv := rfl
@[simp] theorem modEngine_arrs (e : Nat) (f : CdcEngine → CdcEngine) (s : State) : (modEngine e f s).arrs = s.arrs := rfl
@[simp] theorem modEngine_trm (e : Nat) (f : CdcEngine → CdcEngine) (s : State) : (modEngine e f s).trm = s.trm := rfl
@[simp] theorem modEngine_trms (e : Nat) (f : CdcEngine → CdcEngine) (s : State) : (modEngine e f s).trms = s.trms := rfl
@[simp] theorem modEngine_sit (e : Nat) (f : CdcEngine → CdcEngine) (s : State) : (modEngine e f s).sit = s.sit := rfl
@[simp] theorem modEngine_lead (e : Nat) (f : CdcEngine → CdcEngine) (s : State) : (modEngine e f s).lead = s.lead := rfl
@[simp] theorem modEngine_att (e : Nat) (f : CdcEngine → CdcEngine) (s : State) : (modEngine e f s).att = s.att := rfl
@[simp] theorem modEngine_pkg (e : Nat) (f : CdcEngine → CdcEngine) (s : State) : (modEngine e f s).pkg = s.pkg := rfl
@[simp] theorem modEngine_wit (e : Nat) (f : CdcEngine → CdcEngine) (s : State) : (modEngine e f s).wit = s.wit := rfl
@[simp] theorem modEngine_wd (e : Nat) (f : CdcEngine → CdcEngine) (s : State) : (modEngine e f s).wd = s.wd := rfl

@[simp] theorem modArr_now (a : Nat) (f : Arr → Arr) (s : State) : (modArr a f s).now = s.now := rfl
@[simp] theorem modArr_free (a : Nat) (f : Arr → Arr) (s : State) : (modArr a f s).free = s.free := rfl
@[simp] theorem modArr_variant (a : Nat) (f : Arr → Arr) (s : State) : (modArr a f s).variant = s.variant := rfl
@[simp] theorem modArr_pending (a : Nat) (f : Arr → Arr) (s : State) : (modArr a f s).pending = s.pending := rfl
@[simp] theorem modArr_out (a : Nat) (f : Arr → Arr) (s : State) : (modArr a f s).out = s.out := rfl
@[simp] theorem modArr_sat (a : Nat) (f : Arr → Arr) (s : State) : (modArr a f s).sat = s.sat := rfl
@[simp] theorem modArr_ctr (a : Nat) (f : Arr → Arr) (s : State) : (modArr a f s).ctr = s.ctr := rfl
@[simp] theorem modArr_arch (a : Nat) (f : Arr → Arr) (s : State) : (modArr a f s).arch = s.arch := rfl
@[simp] theorem modArr_log (a : Nat) (f : Arr → Arr) (s : State) : (modArr a f s).log = s.log := rfl
@[simp] theorem modArr_img (a : Nat) (f : Arr → Arr) (s : State) : (modArr a f s).img = s.img := rfl
@[simp] theorem modArr_sec (a : Nat) (f : Arr → Arr) (s : State) : (modArr a f s).sec = s.sec := rfl
@[simp] theorem modArr_sag (a : Nat) (f : Arr → Arr) (s : State) : (modArr a f s).sag = s.sag := rfl
@[simp] theorem modArr_erc (a : Nat) (f : Arr → Arr) (s : State) : (modArr a f s).erc = s.erc := rfl
@[simp] theorem modArr_fab (a : Nat) (f : Arr → Arr) (s : State) : (modArr a f s).fab = s.fab := rfl
@[simp] theorem modArr_coh (a : Nat) (f : Arr → Arr) (s : State) : (modArr a f s).coh = s.coh := rfl
@[simp] theorem modArr_swc (a : Nat) (f : Arr → Arr) (s : State) : (modArr a f s).swc = s.swc := rfl
@[simp] theorem modArr_prt (a : Nat) (f : Arr → Arr) (s : State) : (modArr a f s).prt = s.prt := rfl
@[simp] theorem modArr_jsl (a : Nat) (f : Arr → Arr) (s : State) : (modArr a f s).jsl = s.jsl := rfl
@[simp] theorem modArr_tie (a : Nat) (f : Arr → Arr) (s : State) : (modArr a f s).tie = s.tie := rfl
@[simp] theorem modArr_flm (a : Nat) (f : Arr → Arr) (s : State) : (modArr a f s).flm = s.flm := rfl
@[simp] theorem modArr_cdc (a : Nat) (f : Arr → Arr) (s : State) : (modArr a f s).cdc = s.cdc := rfl
@[simp] theorem modArr_pug (a : Nat) (f : Arr → Arr) (s : State) : (modArr a f s).pug = s.pug := rfl
@[simp] theorem modArr_gth (a : Nat) (f : Arr → Arr) (s : State) : (modArr a f s).gth = s.gth := rfl
@[simp] theorem modArr_siv (a : Nat) (f : Arr → Arr) (s : State) : (modArr a f s).siv = s.siv := rfl
@[simp] theorem modArr_arrs (a : Nat) (f : Arr → Arr) (s : State) : (modArr a f s).arrs = { s.arrs with arr := amod s.arrs.arr a {} f } := rfl
@[simp] theorem modArr_trm (a : Nat) (f : Arr → Arr) (s : State) : (modArr a f s).trm = s.trm := rfl
@[simp] theorem modArr_trms (a : Nat) (f : Arr → Arr) (s : State) : (modArr a f s).trms = s.trms := rfl
@[simp] theorem modArr_sit (a : Nat) (f : Arr → Arr) (s : State) : (modArr a f s).sit = s.sit := rfl
@[simp] theorem modArr_lead (a : Nat) (f : Arr → Arr) (s : State) : (modArr a f s).lead = s.lead := rfl
@[simp] theorem modArr_att (a : Nat) (f : Arr → Arr) (s : State) : (modArr a f s).att = s.att := rfl
@[simp] theorem modArr_pkg (a : Nat) (f : Arr → Arr) (s : State) : (modArr a f s).pkg = s.pkg := rfl
@[simp] theorem modArr_wit (a : Nat) (f : Arr → Arr) (s : State) : (modArr a f s).wit = s.wit := rfl
@[simp] theorem modArr_wd (a : Nat) (f : Arr → Arr) (s : State) : (modArr a f s).wd = s.wd := rfl

@[simp] theorem setShelf_now (m : List Host.Cell) (crc : Assoc Nat Nat) (s : State) : (setShelf m crc s).now = s.now := rfl
@[simp] theorem setShelf_free (m : List Host.Cell) (crc : Assoc Nat Nat) (s : State) : (setShelf m crc s).free = s.free := rfl
@[simp] theorem setShelf_variant (m : List Host.Cell) (crc : Assoc Nat Nat) (s : State) : (setShelf m crc s).variant = s.variant := rfl
@[simp] theorem setShelf_pending (m : List Host.Cell) (crc : Assoc Nat Nat) (s : State) : (setShelf m crc s).pending = s.pending := rfl
@[simp] theorem setShelf_out (m : List Host.Cell) (crc : Assoc Nat Nat) (s : State) : (setShelf m crc s).out = s.out := rfl
@[simp] theorem setShelf_sat (m : List Host.Cell) (crc : Assoc Nat Nat) (s : State) : (setShelf m crc s).sat = s.sat := rfl
@[simp] theorem setShelf_ctr (m : List Host.Cell) (crc : Assoc Nat Nat) (s : State) : (setShelf m crc s).ctr = s.ctr := rfl
@[simp] theorem setShelf_arch (m : List Host.Cell) (crc : Assoc Nat Nat) (s : State) : (setShelf m crc s).arch = s.arch := rfl
@[simp] theorem setShelf_log (m : List Host.Cell) (crc : Assoc Nat Nat) (s : State) : (setShelf m crc s).log = s.log := rfl
@[simp] theorem setShelf_img (m : List Host.Cell) (crc : Assoc Nat Nat) (s : State) : (setShelf m crc s).img = s.img := rfl
@[simp] theorem setShelf_sec (m : List Host.Cell) (crc : Assoc Nat Nat) (s : State) : (setShelf m crc s).sec = s.sec := rfl
@[simp] theorem setShelf_sag (m : List Host.Cell) (crc : Assoc Nat Nat) (s : State) : (setShelf m crc s).sag = s.sag := rfl
@[simp] theorem setShelf_erc (m : List Host.Cell) (crc : Assoc Nat Nat) (s : State) : (setShelf m crc s).erc = s.erc := rfl
@[simp] theorem setShelf_fab (m : List Host.Cell) (crc : Assoc Nat Nat) (s : State) : (setShelf m crc s).fab = s.fab := rfl
@[simp] theorem setShelf_coh (m : List Host.Cell) (crc : Assoc Nat Nat) (s : State) : (setShelf m crc s).coh = s.coh := rfl
@[simp] theorem setShelf_swc (m : List Host.Cell) (crc : Assoc Nat Nat) (s : State) : (setShelf m crc s).swc = s.swc := rfl
@[simp] theorem setShelf_prt (m : List Host.Cell) (crc : Assoc Nat Nat) (s : State) : (setShelf m crc s).prt = s.prt := rfl
@[simp] theorem setShelf_jsl (m : List Host.Cell) (crc : Assoc Nat Nat) (s : State) : (setShelf m crc s).jsl = s.jsl := rfl
@[simp] theorem setShelf_tie (m : List Host.Cell) (crc : Assoc Nat Nat) (s : State) : (setShelf m crc s).tie = s.tie := rfl
@[simp] theorem setShelf_flm (m : List Host.Cell) (crc : Assoc Nat Nat) (s : State) : (setShelf m crc s).flm = s.flm := rfl
@[simp] theorem setShelf_cdc (m : List Host.Cell) (crc : Assoc Nat Nat) (s : State) : (setShelf m crc s).cdc = s.cdc := rfl
@[simp] theorem setShelf_pug (m : List Host.Cell) (crc : Assoc Nat Nat) (s : State) : (setShelf m crc s).pug = s.pug := rfl
@[simp] theorem setShelf_gth (m : List Host.Cell) (crc : Assoc Nat Nat) (s : State) : (setShelf m crc s).gth = s.gth := rfl
@[simp] theorem setShelf_siv (m : List Host.Cell) (crc : Assoc Nat Nat) (s : State) : (setShelf m crc s).siv = s.siv := rfl
@[simp] theorem setShelf_arrs (m : List Host.Cell) (crc : Assoc Nat Nat) (s : State) : (setShelf m crc s).arrs = { s.arrs with shelf := m, crc := crc } := rfl
@[simp] theorem setShelf_trm (m : List Host.Cell) (crc : Assoc Nat Nat) (s : State) : (setShelf m crc s).trm = s.trm := rfl
@[simp] theorem setShelf_trms (m : List Host.Cell) (crc : Assoc Nat Nat) (s : State) : (setShelf m crc s).trms = s.trms := rfl
@[simp] theorem setShelf_sit (m : List Host.Cell) (crc : Assoc Nat Nat) (s : State) : (setShelf m crc s).sit = s.sit := rfl
@[simp] theorem setShelf_lead (m : List Host.Cell) (crc : Assoc Nat Nat) (s : State) : (setShelf m crc s).lead = s.lead := rfl
@[simp] theorem setShelf_att (m : List Host.Cell) (crc : Assoc Nat Nat) (s : State) : (setShelf m crc s).att = s.att := rfl
@[simp] theorem setShelf_pkg (m : List Host.Cell) (crc : Assoc Nat Nat) (s : State) : (setShelf m crc s).pkg = s.pkg := rfl
@[simp] theorem setShelf_wit (m : List Host.Cell) (crc : Assoc Nat Nat) (s : State) : (setShelf m crc s).wit = s.wit := rfl
@[simp] theorem setShelf_wd (m : List Host.Cell) (crc : Assoc Nat Nat) (s : State) : (setShelf m crc s).wd = s.wd := rfl

@[simp] theorem setQueue_now (k : QKey) (q : SagQueue) (s : State) : (setQueue k q s).now = s.now := rfl
@[simp] theorem setQueue_free (k : QKey) (q : SagQueue) (s : State) : (setQueue k q s).free = s.free := rfl
@[simp] theorem setQueue_variant (k : QKey) (q : SagQueue) (s : State) : (setQueue k q s).variant = s.variant := rfl
@[simp] theorem setQueue_pending (k : QKey) (q : SagQueue) (s : State) : (setQueue k q s).pending = s.pending := rfl
@[simp] theorem setQueue_out (k : QKey) (q : SagQueue) (s : State) : (setQueue k q s).out = s.out := rfl
@[simp] theorem setQueue_sat (k : QKey) (q : SagQueue) (s : State) : (setQueue k q s).sat = s.sat := rfl
@[simp] theorem setQueue_ctr (k : QKey) (q : SagQueue) (s : State) : (setQueue k q s).ctr = s.ctr := rfl
@[simp] theorem setQueue_arch (k : QKey) (q : SagQueue) (s : State) : (setQueue k q s).arch = s.arch := rfl
@[simp] theorem setQueue_log (k : QKey) (q : SagQueue) (s : State) : (setQueue k q s).log = s.log := rfl
@[simp] theorem setQueue_img (k : QKey) (q : SagQueue) (s : State) : (setQueue k q s).img = s.img := rfl
@[simp] theorem setQueue_sec (k : QKey) (q : SagQueue) (s : State) : (setQueue k q s).sec = s.sec := rfl
@[simp] theorem setQueue_sag (k : QKey) (q : SagQueue) (s : State) : (setQueue k q s).sag = s.sag := rfl
@[simp] theorem setQueue_erc (k : QKey) (q : SagQueue) (s : State) : (setQueue k q s).erc = s.erc := rfl
@[simp] theorem setQueue_fab (k : QKey) (q : SagQueue) (s : State) : (setQueue k q s).fab = s.fab := rfl
@[simp] theorem setQueue_coh (k : QKey) (q : SagQueue) (s : State) : (setQueue k q s).coh = s.coh := rfl
@[simp] theorem setQueue_swc (k : QKey) (q : SagQueue) (s : State) : (setQueue k q s).swc = { s.swc with queues := aset s.swc.queues k q } := rfl
@[simp] theorem setQueue_prt (k : QKey) (q : SagQueue) (s : State) : (setQueue k q s).prt = s.prt := rfl
@[simp] theorem setQueue_jsl (k : QKey) (q : SagQueue) (s : State) : (setQueue k q s).jsl = s.jsl := rfl
@[simp] theorem setQueue_tie (k : QKey) (q : SagQueue) (s : State) : (setQueue k q s).tie = s.tie := rfl
@[simp] theorem setQueue_flm (k : QKey) (q : SagQueue) (s : State) : (setQueue k q s).flm = s.flm := rfl
@[simp] theorem setQueue_cdc (k : QKey) (q : SagQueue) (s : State) : (setQueue k q s).cdc = s.cdc := rfl
@[simp] theorem setQueue_pug (k : QKey) (q : SagQueue) (s : State) : (setQueue k q s).pug = s.pug := rfl
@[simp] theorem setQueue_gth (k : QKey) (q : SagQueue) (s : State) : (setQueue k q s).gth = s.gth := rfl
@[simp] theorem setQueue_siv (k : QKey) (q : SagQueue) (s : State) : (setQueue k q s).siv = s.siv := rfl
@[simp] theorem setQueue_arrs (k : QKey) (q : SagQueue) (s : State) : (setQueue k q s).arrs = s.arrs := rfl
@[simp] theorem setQueue_trm (k : QKey) (q : SagQueue) (s : State) : (setQueue k q s).trm = s.trm := rfl
@[simp] theorem setQueue_trms (k : QKey) (q : SagQueue) (s : State) : (setQueue k q s).trms = s.trms := rfl
@[simp] theorem setQueue_sit (k : QKey) (q : SagQueue) (s : State) : (setQueue k q s).sit = s.sit := rfl
@[simp] theorem setQueue_lead (k : QKey) (q : SagQueue) (s : State) : (setQueue k q s).lead = s.lead := rfl
@[simp] theorem setQueue_att (k : QKey) (q : SagQueue) (s : State) : (setQueue k q s).att = s.att := rfl
@[simp] theorem setQueue_pkg (k : QKey) (q : SagQueue) (s : State) : (setQueue k q s).pkg = s.pkg := rfl
@[simp] theorem setQueue_wit (k : QKey) (q : SagQueue) (s : State) : (setQueue k q s).wit = s.wit := rfl
@[simp] theorem setQueue_wd (k : QKey) (q : SagQueue) (s : State) : (setQueue k q s).wd = s.wd := rfl

@[simp] theorem setList_now (k : Nat × Nat × Bool) (l : ActiveList) (s : State) : (setList k l s).now = s.now := rfl
@[simp] theorem setList_free (k : Nat × Nat × Bool) (l : ActiveList) (s : State) : (setList k l s).free = s.free := rfl
@[simp] theorem setList_variant (k : Nat × Nat × Bool) (l : ActiveList) (s : State) : (setList k l s).variant = s.variant := rfl
@[simp] theorem setList_pending (k : Nat × Nat × Bool) (l : ActiveList) (s : State) : (setList k l s).pending = s.pending := rfl
@[simp] theorem setList_out (k : Nat × Nat × Bool) (l : ActiveList) (s : State) : (setList k l s).out = s.out := rfl
@[simp] theorem setList_sat (k : Nat × Nat × Bool) (l : ActiveList) (s : State) : (setList k l s).sat = s.sat := rfl
@[simp] theorem setList_ctr (k : Nat × Nat × Bool) (l : ActiveList) (s : State) : (setList k l s).ctr = s.ctr := rfl
@[simp] theorem setList_arch (k : Nat × Nat × Bool) (l : ActiveList) (s : State) : (setList k l s).arch = s.arch := rfl
@[simp] theorem setList_log (k : Nat × Nat × Bool) (l : ActiveList) (s : State) : (setList k l s).log = s.log := rfl
@[simp] theorem setList_img (k : Nat × Nat × Bool) (l : ActiveList) (s : State) : (setList k l s).img = s.img := rfl
@[simp] theorem setList_sec (k : Nat × Nat × Bool) (l : ActiveList) (s : State) : (setList k l s).sec = s.sec := rfl
@[simp] theorem setList_sag (k : Nat × Nat × Bool) (l : ActiveList) (s : State) : (setList k l s).sag = s.sag := rfl
@[simp] theorem setList_erc (k : Nat × Nat × Bool) (l : ActiveList) (s : State) : (setList k l s).erc = s.erc := rfl
@[simp] theorem setList_fab (k : Nat × Nat × Bool) (l : ActiveList) (s : State) : (setList k l s).fab = s.fab := rfl
@[simp] theorem setList_coh (k : Nat × Nat × Bool) (l : ActiveList) (s : State) : (setList k l s).coh = s.coh := rfl
@[simp] theorem setList_swc (k : Nat × Nat × Bool) (l : ActiveList) (s : State) : (setList k l s).swc = { s.swc with active := aset s.swc.active k l } := rfl
@[simp] theorem setList_prt (k : Nat × Nat × Bool) (l : ActiveList) (s : State) : (setList k l s).prt = s.prt := rfl
@[simp] theorem setList_jsl (k : Nat × Nat × Bool) (l : ActiveList) (s : State) : (setList k l s).jsl = s.jsl := rfl
@[simp] theorem setList_tie (k : Nat × Nat × Bool) (l : ActiveList) (s : State) : (setList k l s).tie = s.tie := rfl
@[simp] theorem setList_flm (k : Nat × Nat × Bool) (l : ActiveList) (s : State) : (setList k l s).flm = s.flm := rfl
@[simp] theorem setList_cdc (k : Nat × Nat × Bool) (l : ActiveList) (s : State) : (setList k l s).cdc = s.cdc := rfl
@[simp] theorem setList_pug (k : Nat × Nat × Bool) (l : ActiveList) (s : State) : (setList k l s).pug = s.pug := rfl
@[simp] theorem setList_gth (k : Nat × Nat × Bool) (l : ActiveList) (s : State) : (setList k l s).gth = s.gth := rfl
@[simp] theorem setList_siv (k : Nat × Nat × Bool) (l : ActiveList) (s : State) : (setList k l s).siv = s.siv := rfl
@[simp] theorem setList_arrs (k : Nat × Nat × Bool) (l : ActiveList) (s : State) : (setList k l s).arrs = s.arrs := rfl
@[simp] theorem setList_trm (k : Nat × Nat × Bool) (l : ActiveList) (s : State) : (setList k l s).trm = s.trm := rfl
@[simp] theorem setList_trms (k : Nat × Nat × Bool) (l : ActiveList) (s : State) : (setList k l s).trms = s.trms := rfl
@[simp] theorem setList_sit (k : Nat × Nat × Bool) (l : ActiveList) (s : State) : (setList k l s).sit = s.sit := rfl
@[simp] theorem setList_lead (k : Nat × Nat × Bool) (l : ActiveList) (s : State) : (setList k l s).lead = s.lead := rfl
@[simp] theorem setList_att (k : Nat × Nat × Bool) (l : ActiveList) (s : State) : (setList k l s).att = s.att := rfl
@[simp] theorem setList_pkg (k : Nat × Nat × Bool) (l : ActiveList) (s : State) : (setList k l s).pkg = s.pkg := rfl
@[simp] theorem setList_wit (k : Nat × Nat × Bool) (l : ActiveList) (s : State) : (setList k l s).wit = s.wit := rfl
@[simp] theorem setList_wd (k : Nat × Nat × Bool) (l : ActiveList) (s : State) : (setList k l s).wd = s.wd := rfl

@[simp] theorem setSlot_now (n : Nat) (d : DomSlot) (s : State) : (setSlot n d s).now = s.now := rfl
@[simp] theorem setSlot_free (n : Nat) (d : DomSlot) (s : State) : (setSlot n d s).free = s.free := rfl
@[simp] theorem setSlot_variant (n : Nat) (d : DomSlot) (s : State) : (setSlot n d s).variant = s.variant := rfl
@[simp] theorem setSlot_pending (n : Nat) (d : DomSlot) (s : State) : (setSlot n d s).pending = s.pending := rfl
@[simp] theorem setSlot_out (n : Nat) (d : DomSlot) (s : State) : (setSlot n d s).out = s.out := rfl
@[simp] theorem setSlot_sat (n : Nat) (d : DomSlot) (s : State) : (setSlot n d s).sat = s.sat := rfl
@[simp] theorem setSlot_ctr (n : Nat) (d : DomSlot) (s : State) : (setSlot n d s).ctr = s.ctr := rfl
@[simp] theorem setSlot_arch (n : Nat) (d : DomSlot) (s : State) : (setSlot n d s).arch = s.arch := rfl
@[simp] theorem setSlot_log (n : Nat) (d : DomSlot) (s : State) : (setSlot n d s).log = s.log := rfl
@[simp] theorem setSlot_img (n : Nat) (d : DomSlot) (s : State) : (setSlot n d s).img = s.img := rfl
@[simp] theorem setSlot_sec (n : Nat) (d : DomSlot) (s : State) : (setSlot n d s).sec = s.sec := rfl
@[simp] theorem setSlot_sag (n : Nat) (d : DomSlot) (s : State) : (setSlot n d s).sag = s.sag := rfl
@[simp] theorem setSlot_erc (n : Nat) (d : DomSlot) (s : State) : (setSlot n d s).erc = s.erc := rfl
@[simp] theorem setSlot_fab (n : Nat) (d : DomSlot) (s : State) : (setSlot n d s).fab = s.fab := rfl
@[simp] theorem setSlot_coh (n : Nat) (d : DomSlot) (s : State) : (setSlot n d s).coh = { s.coh with slots := aset s.coh.slots n d } := rfl
@[simp] theorem setSlot_swc (n : Nat) (d : DomSlot) (s : State) : (setSlot n d s).swc = s.swc := rfl
@[simp] theorem setSlot_prt (n : Nat) (d : DomSlot) (s : State) : (setSlot n d s).prt = s.prt := rfl
@[simp] theorem setSlot_jsl (n : Nat) (d : DomSlot) (s : State) : (setSlot n d s).jsl = s.jsl := rfl
@[simp] theorem setSlot_tie (n : Nat) (d : DomSlot) (s : State) : (setSlot n d s).tie = s.tie := rfl
@[simp] theorem setSlot_flm (n : Nat) (d : DomSlot) (s : State) : (setSlot n d s).flm = s.flm := rfl
@[simp] theorem setSlot_cdc (n : Nat) (d : DomSlot) (s : State) : (setSlot n d s).cdc = s.cdc := rfl
@[simp] theorem setSlot_pug (n : Nat) (d : DomSlot) (s : State) : (setSlot n d s).pug = s.pug := rfl
@[simp] theorem setSlot_gth (n : Nat) (d : DomSlot) (s : State) : (setSlot n d s).gth = s.gth := rfl
@[simp] theorem setSlot_siv (n : Nat) (d : DomSlot) (s : State) : (setSlot n d s).siv = s.siv := rfl
@[simp] theorem setSlot_arrs (n : Nat) (d : DomSlot) (s : State) : (setSlot n d s).arrs = s.arrs := rfl
@[simp] theorem setSlot_trm (n : Nat) (d : DomSlot) (s : State) : (setSlot n d s).trm = s.trm := rfl
@[simp] theorem setSlot_trms (n : Nat) (d : DomSlot) (s : State) : (setSlot n d s).trms = s.trms := rfl
@[simp] theorem setSlot_sit (n : Nat) (d : DomSlot) (s : State) : (setSlot n d s).sit = s.sit := rfl
@[simp] theorem setSlot_lead (n : Nat) (d : DomSlot) (s : State) : (setSlot n d s).lead = s.lead := rfl
@[simp] theorem setSlot_att (n : Nat) (d : DomSlot) (s : State) : (setSlot n d s).att = s.att := rfl
@[simp] theorem setSlot_pkg (n : Nat) (d : DomSlot) (s : State) : (setSlot n d s).pkg = s.pkg := rfl
@[simp] theorem setSlot_wit (n : Nat) (d : DomSlot) (s : State) : (setSlot n d s).wit = s.wit := rfl
@[simp] theorem setSlot_wd (n : Nat) (d : DomSlot) (s : State) : (setSlot n d s).wd = s.wd := rfl

@[simp] theorem setLatch_now (who : Who) (l : List (Nat × Word32)) (s : State) : (setLatch who l s).now = s.now := rfl
@[simp] theorem setLatch_free (who : Who) (l : List (Nat × Word32)) (s : State) : (setLatch who l s).free = s.free := rfl
@[simp] theorem setLatch_variant (who : Who) (l : List (Nat × Word32)) (s : State) : (setLatch who l s).variant = s.variant := rfl
@[simp] theorem setLatch_pending (who : Who) (l : List (Nat × Word32)) (s : State) : (setLatch who l s).pending = s.pending := rfl
@[simp] theorem setLatch_out (who : Who) (l : List (Nat × Word32)) (s : State) : (setLatch who l s).out = s.out := rfl
@[simp] theorem setLatch_sat (who : Who) (l : List (Nat × Word32)) (s : State) : (setLatch who l s).sat = s.sat := rfl
@[simp] theorem setLatch_ctr (who : Who) (l : List (Nat × Word32)) (s : State) : (setLatch who l s).ctr = s.ctr := rfl
@[simp] theorem setLatch_arch (who : Who) (l : List (Nat × Word32)) (s : State) : (setLatch who l s).arch = { s.arch with latches := if l.isEmpty then aerase s.arch.latches who else aset s.arch.latches who l } := rfl
@[simp] theorem setLatch_log (who : Who) (l : List (Nat × Word32)) (s : State) : (setLatch who l s).log = s.log := rfl
@[simp] theorem setLatch_img (who : Who) (l : List (Nat × Word32)) (s : State) : (setLatch who l s).img = s.img := rfl
@[simp] theorem setLatch_sec (who : Who) (l : List (Nat × Word32)) (s : State) : (setLatch who l s).sec = s.sec := rfl
@[simp] theorem setLatch_sag (who : Who) (l : List (Nat × Word32)) (s : State) : (setLatch who l s).sag = s.sag := rfl
@[simp] theorem setLatch_erc (who : Who) (l : List (Nat × Word32)) (s : State) : (setLatch who l s).erc = s.erc := rfl
@[simp] theorem setLatch_fab (who : Who) (l : List (Nat × Word32)) (s : State) : (setLatch who l s).fab = s.fab := rfl
@[simp] theorem setLatch_coh (who : Who) (l : List (Nat × Word32)) (s : State) : (setLatch who l s).coh = s.coh := rfl
@[simp] theorem setLatch_swc (who : Who) (l : List (Nat × Word32)) (s : State) : (setLatch who l s).swc = s.swc := rfl
@[simp] theorem setLatch_prt (who : Who) (l : List (Nat × Word32)) (s : State) : (setLatch who l s).prt = s.prt := rfl
@[simp] theorem setLatch_jsl (who : Who) (l : List (Nat × Word32)) (s : State) : (setLatch who l s).jsl = s.jsl := rfl
@[simp] theorem setLatch_tie (who : Who) (l : List (Nat × Word32)) (s : State) : (setLatch who l s).tie = s.tie := rfl
@[simp] theorem setLatch_flm (who : Who) (l : List (Nat × Word32)) (s : State) : (setLatch who l s).flm = s.flm := rfl
@[simp] theorem setLatch_cdc (who : Who) (l : List (Nat × Word32)) (s : State) : (setLatch who l s).cdc = s.cdc := rfl
@[simp] theorem setLatch_pug (who : Who) (l : List (Nat × Word32)) (s : State) : (setLatch who l s).pug = s.pug := rfl
@[simp] theorem setLatch_gth (who : Who) (l : List (Nat × Word32)) (s : State) : (setLatch who l s).gth = s.gth := rfl
@[simp] theorem setLatch_siv (who : Who) (l : List (Nat × Word32)) (s : State) : (setLatch who l s).siv = s.siv := rfl
@[simp] theorem setLatch_arrs (who : Who) (l : List (Nat × Word32)) (s : State) : (setLatch who l s).arrs = s.arrs := rfl
@[simp] theorem setLatch_trm (who : Who) (l : List (Nat × Word32)) (s : State) : (setLatch who l s).trm = s.trm := rfl
@[simp] theorem setLatch_trms (who : Who) (l : List (Nat × Word32)) (s : State) : (setLatch who l s).trms = s.trms := rfl
@[simp] theorem setLatch_sit (who : Who) (l : List (Nat × Word32)) (s : State) : (setLatch who l s).sit = s.sit := rfl
@[simp] theorem setLatch_lead (who : Who) (l : List (Nat × Word32)) (s : State) : (setLatch who l s).lead = s.lead := rfl
@[simp] theorem setLatch_att (who : Who) (l : List (Nat × Word32)) (s : State) : (setLatch who l s).att = s.att := rfl
@[simp] theorem setLatch_pkg (who : Who) (l : List (Nat × Word32)) (s : State) : (setLatch who l s).pkg = s.pkg := rfl
@[simp] theorem setLatch_wit (who : Who) (l : List (Nat × Word32)) (s : State) : (setLatch who l s).wit = s.wit := rfl
@[simp] theorem setLatch_wd (who : Who) (l : List (Nat × Word32)) (s : State) : (setLatch who l s).wd = s.wd := rfl

@[simp] theorem setRamp_now (die : Nat) (r : Ramp) (s : State) : (setRamp die r s).now = s.now := rfl
@[simp] theorem setRamp_free (die : Nat) (r : Ramp) (s : State) : (setRamp die r s).free = s.free := rfl
@[simp] theorem setRamp_variant (die : Nat) (r : Ramp) (s : State) : (setRamp die r s).variant = s.variant := rfl
@[simp] theorem setRamp_pending (die : Nat) (r : Ramp) (s : State) : (setRamp die r s).pending = s.pending := rfl
@[simp] theorem setRamp_out (die : Nat) (r : Ramp) (s : State) : (setRamp die r s).out = s.out := rfl
@[simp] theorem setRamp_sat (die : Nat) (r : Ramp) (s : State) : (setRamp die r s).sat = s.sat := rfl
@[simp] theorem setRamp_ctr (die : Nat) (r : Ramp) (s : State) : (setRamp die r s).ctr = s.ctr := rfl
@[simp] theorem setRamp_arch (die : Nat) (r : Ramp) (s : State) : (setRamp die r s).arch = s.arch := rfl
@[simp] theorem setRamp_log (die : Nat) (r : Ramp) (s : State) : (setRamp die r s).log = s.log := rfl
@[simp] theorem setRamp_img (die : Nat) (r : Ramp) (s : State) : (setRamp die r s).img = s.img := rfl
@[simp] theorem setRamp_sec (die : Nat) (r : Ramp) (s : State) : (setRamp die r s).sec = s.sec := rfl
@[simp] theorem setRamp_sag (die : Nat) (r : Ramp) (s : State) : (setRamp die r s).sag = s.sag := rfl
@[simp] theorem setRamp_erc (die : Nat) (r : Ramp) (s : State) : (setRamp die r s).erc = s.erc := rfl
@[simp] theorem setRamp_fab (die : Nat) (r : Ramp) (s : State) : (setRamp die r s).fab = s.fab := rfl
@[simp] theorem setRamp_coh (die : Nat) (r : Ramp) (s : State) : (setRamp die r s).coh = s.coh := rfl
@[simp] theorem setRamp_swc (die : Nat) (r : Ramp) (s : State) : (setRamp die r s).swc = s.swc := rfl
@[simp] theorem setRamp_prt (die : Nat) (r : Ramp) (s : State) : (setRamp die r s).prt = s.prt := rfl
@[simp] theorem setRamp_jsl (die : Nat) (r : Ramp) (s : State) : (setRamp die r s).jsl = s.jsl := rfl
@[simp] theorem setRamp_tie (die : Nat) (r : Ramp) (s : State) : (setRamp die r s).tie = s.tie := rfl
@[simp] theorem setRamp_flm (die : Nat) (r : Ramp) (s : State) : (setRamp die r s).flm = s.flm := rfl
@[simp] theorem setRamp_cdc (die : Nat) (r : Ramp) (s : State) : (setRamp die r s).cdc = s.cdc := rfl
@[simp] theorem setRamp_pug (die : Nat) (r : Ramp) (s : State) : (setRamp die r s).pug = s.pug := rfl
@[simp] theorem setRamp_gth (die : Nat) (r : Ramp) (s : State) : (setRamp die r s).gth = s.gth := rfl
@[simp] theorem setRamp_siv (die : Nat) (r : Ramp) (s : State) : (setRamp die r s).siv = s.siv := rfl
@[simp] theorem setRamp_arrs (die : Nat) (r : Ramp) (s : State) : (setRamp die r s).arrs = { s.arrs with ramp := aset s.arrs.ramp die r } := rfl
@[simp] theorem setRamp_trm (die : Nat) (r : Ramp) (s : State) : (setRamp die r s).trm = s.trm := rfl
@[simp] theorem setRamp_trms (die : Nat) (r : Ramp) (s : State) : (setRamp die r s).trms = s.trms := rfl
@[simp] theorem setRamp_sit (die : Nat) (r : Ramp) (s : State) : (setRamp die r s).sit = s.sit := rfl
@[simp] theorem setRamp_lead (die : Nat) (r : Ramp) (s : State) : (setRamp die r s).lead = s.lead := rfl
@[simp] theorem setRamp_att (die : Nat) (r : Ramp) (s : State) : (setRamp die r s).att = s.att := rfl
@[simp] theorem setRamp_pkg (die : Nat) (r : Ramp) (s : State) : (setRamp die r s).pkg = s.pkg := rfl
@[simp] theorem setRamp_wit (die : Nat) (r : Ramp) (s : State) : (setRamp die r s).wit = s.wit := rfl
@[simp] theorem setRamp_wd (die : Nat) (r : Ramp) (s : State) : (setRamp die r s).wd = s.wd := rfl

@[simp] theorem setTable_now (g id : Nat) (t : CdcTable) (s : State) : (setTable g id t s).now = s.now := rfl
@[simp] theorem setTable_free (g id : Nat) (t : CdcTable) (s : State) : (setTable g id t s).free = s.free := rfl
@[simp] theorem setTable_variant (g id : Nat) (t : CdcTable) (s : State) : (setTable g id t s).variant = s.variant := rfl
@[simp] theorem setTable_pending (g id : Nat) (t : CdcTable) (s : State) : (setTable g id t s).pending = s.pending := rfl
@[simp] theorem setTable_out (g id : Nat) (t : CdcTable) (s : State) : (setTable g id t s).out = s.out := rfl
@[simp] theorem setTable_sat (g id : Nat) (t : CdcTable) (s : State) : (setTable g id t s).sat = s.sat := rfl
@[simp] theorem setTable_ctr (g id : Nat) (t : CdcTable) (s : State) : (setTable g id t s).ctr = s.ctr := rfl
@[simp] theorem setTable_arch (g id : Nat) (t : CdcTable) (s : State) : (setTable g id t s).arch = s.arch := rfl
@[simp] theorem setTable_log (g id : Nat) (t : CdcTable) (s : State) : (setTable g id t s).log = s.log := rfl
@[simp] theorem setTable_img (g id : Nat) (t : CdcTable) (s : State) : (setTable g id t s).img = s.img := rfl
@[simp] theorem setTable_sec (g id : Nat) (t : CdcTable) (s : State) : (setTable g id t s).sec = s.sec := rfl
@[simp] theorem setTable_sag (g id : Nat) (t : CdcTable) (s : State) : (setTable g id t s).sag = s.sag := rfl
@[simp] theorem setTable_erc (g id : Nat) (t : CdcTable) (s : State) : (setTable g id t s).erc = s.erc := rfl
@[simp] theorem setTable_fab (g id : Nat) (t : CdcTable) (s : State) : (setTable g id t s).fab = s.fab := rfl
@[simp] theorem setTable_coh (g id : Nat) (t : CdcTable) (s : State) : (setTable g id t s).coh = s.coh := rfl
@[simp] theorem setTable_swc (g id : Nat) (t : CdcTable) (s : State) : (setTable g id t s).swc = s.swc := rfl
@[simp] theorem setTable_prt (g id : Nat) (t : CdcTable) (s : State) : (setTable g id t s).prt = s.prt := rfl
@[simp] theorem setTable_jsl (g id : Nat) (t : CdcTable) (s : State) : (setTable g id t s).jsl = s.jsl := rfl
@[simp] theorem setTable_tie (g id : Nat) (t : CdcTable) (s : State) : (setTable g id t s).tie = s.tie := rfl
@[simp] theorem setTable_flm (g id : Nat) (t : CdcTable) (s : State) : (setTable g id t s).flm = s.flm := rfl
@[simp] theorem setTable_cdc (g id : Nat) (t : CdcTable) (s : State) : (setTable g id t s).cdc = { s.cdc with tables := aset s.cdc.tables (g, id) t } := rfl
@[simp] theorem setTable_pug (g id : Nat) (t : CdcTable) (s : State) : (setTable g id t s).pug = s.pug := rfl
@[simp] theorem setTable_gth (g id : Nat) (t : CdcTable) (s : State) : (setTable g id t s).gth = s.gth := rfl
@[simp] theorem setTable_siv (g id : Nat) (t : CdcTable) (s : State) : (setTable g id t s).siv = s.siv := rfl
@[simp] theorem setTable_arrs (g id : Nat) (t : CdcTable) (s : State) : (setTable g id t s).arrs = s.arrs := rfl
@[simp] theorem setTable_trm (g id : Nat) (t : CdcTable) (s : State) : (setTable g id t s).trm = s.trm := rfl
@[simp] theorem setTable_trms (g id : Nat) (t : CdcTable) (s : State) : (setTable g id t s).trms = s.trms := rfl
@[simp] theorem setTable_sit (g id : Nat) (t : CdcTable) (s : State) : (setTable g id t s).sit = s.sit := rfl
@[simp] theorem setTable_lead (g id : Nat) (t : CdcTable) (s : State) : (setTable g id t s).lead = s.lead := rfl
@[simp] theorem setTable_att (g id : Nat) (t : CdcTable) (s : State) : (setTable g id t s).att = s.att := rfl
@[simp] theorem setTable_pkg (g id : Nat) (t : CdcTable) (s : State) : (setTable g id t s).pkg = s.pkg := rfl
@[simp] theorem setTable_wit (g id : Nat) (t : CdcTable) (s : State) : (setTable g id t s).wit = s.wit := rfl
@[simp] theorem setTable_wd (g id : Nat) (t : CdcTable) (s : State) : (setTable g id t s).wd = s.wd := rfl

@[simp] theorem modFw_now (k : Nat) (f : FwKind → FwKind) (s : State) : (modFw k f s).now = s.now := rfl
@[simp] theorem modFw_free (k : Nat) (f : FwKind → FwKind) (s : State) : (modFw k f s).free = s.free := rfl
@[simp] theorem modFw_variant (k : Nat) (f : FwKind → FwKind) (s : State) : (modFw k f s).variant = s.variant := rfl
@[simp] theorem modFw_pending (k : Nat) (f : FwKind → FwKind) (s : State) : (modFw k f s).pending = s.pending := rfl
@[simp] theorem modFw_out (k : Nat) (f : FwKind → FwKind) (s : State) : (modFw k f s).out = s.out := rfl
@[simp] theorem modFw_sat (k : Nat) (f : FwKind → FwKind) (s : State) : (modFw k f s).sat = s.sat := rfl
@[simp] theorem modFw_ctr (k : Nat) (f : FwKind → FwKind) (s : State) : (modFw k f s).ctr = s.ctr := rfl
@[simp] theorem modFw_arch (k : Nat) (f : FwKind → FwKind) (s : State) : (modFw k f s).arch = s.arch := rfl
@[simp] theorem modFw_log (k : Nat) (f : FwKind → FwKind) (s : State) : (modFw k f s).log = s.log := rfl
@[simp] theorem modFw_img (k : Nat) (f : FwKind → FwKind) (s : State) : (modFw k f s).img = s.img := rfl
@[simp] theorem modFw_sec (k : Nat) (f : FwKind → FwKind) (s : State) : (modFw k f s).sec = s.sec := rfl
@[simp] theorem modFw_sag (k : Nat) (f : FwKind → FwKind) (s : State) : (modFw k f s).sag = s.sag := rfl
@[simp] theorem modFw_erc (k : Nat) (f : FwKind → FwKind) (s : State) : (modFw k f s).erc = { s.erc with fw := amod s.erc.fw k {} f } := rfl
@[simp] theorem modFw_fab (k : Nat) (f : FwKind → FwKind) (s : State) : (modFw k f s).fab = s.fab := rfl
@[simp] theorem modFw_coh (k : Nat) (f : FwKind → FwKind) (s : State) : (modFw k f s).coh = s.coh := rfl
@[simp] theorem modFw_swc (k : Nat) (f : FwKind → FwKind) (s : State) : (modFw k f s).swc = s.swc := rfl
@[simp] theorem modFw_prt (k : Nat) (f : FwKind → FwKind) (s : State) : (modFw k f s).prt = s.prt := rfl
@[simp] theorem modFw_jsl (k : Nat) (f : FwKind → FwKind) (s : State) : (modFw k f s).jsl = s.jsl := rfl
@[simp] theorem modFw_tie (k : Nat) (f : FwKind → FwKind) (s : State) : (modFw k f s).tie = s.tie := rfl
@[simp] theorem modFw_flm (k : Nat) (f : FwKind → FwKind) (s : State) : (modFw k f s).flm = s.flm := rfl
@[simp] theorem modFw_cdc (k : Nat) (f : FwKind → FwKind) (s : State) : (modFw k f s).cdc = s.cdc := rfl
@[simp] theorem modFw_pug (k : Nat) (f : FwKind → FwKind) (s : State) : (modFw k f s).pug = s.pug := rfl
@[simp] theorem modFw_gth (k : Nat) (f : FwKind → FwKind) (s : State) : (modFw k f s).gth = s.gth := rfl
@[simp] theorem modFw_siv (k : Nat) (f : FwKind → FwKind) (s : State) : (modFw k f s).siv = s.siv := rfl
@[simp] theorem modFw_arrs (k : Nat) (f : FwKind → FwKind) (s : State) : (modFw k f s).arrs = s.arrs := rfl
@[simp] theorem modFw_trm (k : Nat) (f : FwKind → FwKind) (s : State) : (modFw k f s).trm = s.trm := rfl
@[simp] theorem modFw_trms (k : Nat) (f : FwKind → FwKind) (s : State) : (modFw k f s).trms = s.trms := rfl
@[simp] theorem modFw_sit (k : Nat) (f : FwKind → FwKind) (s : State) : (modFw k f s).sit = s.sit := rfl
@[simp] theorem modFw_lead (k : Nat) (f : FwKind → FwKind) (s : State) : (modFw k f s).lead = s.lead := rfl
@[simp] theorem modFw_att (k : Nat) (f : FwKind → FwKind) (s : State) : (modFw k f s).att = s.att := rfl
@[simp] theorem modFw_pkg (k : Nat) (f : FwKind → FwKind) (s : State) : (modFw k f s).pkg = s.pkg := rfl
@[simp] theorem modFw_wit (k : Nat) (f : FwKind → FwKind) (s : State) : (modFw k f s).wit = s.wit := rfl
@[simp] theorem modFw_wd (k : Nat) (f : FwKind → FwKind) (s : State) : (modFw k f s).wd = s.wd := rfl

/-! ## The passing of time: `carry` moves the clock and stores what reached the log; nothing else changes -/

/-- Two states that differ at most in the clock, the log, the counters and saturating fields, the plane registers and
the host link. -/
def LogApart (s t : State) : Prop :=
  t = { s with now := t.now, sat := t.sat, ctr := t.ctr, arch := t.arch, log := t.log, jsl := t.jsl }

theorem logApart_refl (s : State) : LogApart s s := rfl

theorem logApart_trans {s t u : State} (h : LogApart s t) (k : LogApart t u) : LogApart s u := by
  unfold LogApart at *; rw [k, h]

theorem logApart_forEach {α : Type} (f : α → State → State) (h : ∀ a s, LogApart s (f a s)) (l : List α) (s : State) :
    LogApart s (forEach l f s) := by
  induction l generalizing s with
  | nil => exact logApart_refl s
  | cons a r ih => exact logApart_trans (h a s) (ih (f a s))

theorem stampOne_apart (e : LogEntry) (s : State) : LogApart s (stampOne e s) := by
  unfold stampOne; dsimp only; split <;> rfl

theorem stampFresh_apart (s : State) : LogApart s (stampFresh s) := by
  unfold stampFresh
  refine logApart_trans ?_ (logApart_forEach _ stampOne_apart _ _); rfl

theorem occur_apart (e : LogEntry) (s : State) : LogApart s (occur e s) := by
  unfold occur; split <;> rfl

theorem storeOrSuppress_apart (lc : Option Nat) (e : LogEntry) (s : State) : LogApart s (storeOrSuppress lc e s) := by
  unfold storeOrSuppress; dsimp only
  split
  · cases lc <;> rfl
  · split
    · refine logApart_trans ?_ (occur_apart _ _); rfl
    · rfl

theorem storeOne_apart (lc : Option Nat) (e : LogEntry) (s : State) : LogApart s (storeOne lc e s) := by
  unfold storeOne; dsimp only
  split
  · exact logApart_trans (storeOrSuppress_apart _ _ _) (storeOrSuppress_apart _ _ _)
  · exact storeOrSuppress_apart _ _ _

theorem storeCycle_apart (s : State) : LogApart s (storeCycle s) := by
  have h := logApart_forEach (fun (x : Option Nat × LogEntry) s => storeOne x.1 x.2 s) (fun x s => storeOne_apart x.1 x.2 s)
  refine logApart_trans ?_ (h (storageOrder Prod.snd s.log.cycle) { s with log := { s.log with cycle := [] } }); rfl

theorem carry_apart (d : Nat) (s : State) : LogApart s (carry d s) := by
  unfold carry; dsimp only
  split <;> split
  · refine logApart_trans (logApart_trans (stampFresh_apart s) ?_) (storeCycle_apart _); rfl
  · refine logApart_trans ?_ (storeCycle_apart _); rfl
  · refine logApart_trans (stampFresh_apart s) ?_; rfl
  · rfl

theorem storeOrSuppress_now (lc : Option Nat) (e : LogEntry) (s : State) : (storeOrSuppress lc e s).now = s.now := by
  unfold storeOrSuppress occur; dsimp only
  split
  · cases lc <;> rfl
  · split
    · split <;> rfl
    · rfl

theorem storeCycle_now (s : State) : (storeCycle s).now = s.now := by
  have h : ∀ (l : List (Option Nat × LogEntry)) (s : State), (forEach l (fun x s => storeOne x.1 x.2 s) s).now = s.now := by
    intro l
    induction l with
    | nil => intro s; rfl
    | cons a r ih =>
      intro s
      show (forEach r _ (storeOne a.1 a.2 s)).now = s.now
      rw [ih]; unfold storeOne; dsimp only
      split
      · rw [storeOrSuppress_now, storeOrSuppress_now]
      · rw [storeOrSuppress_now]
  exact h _ _

@[simp] theorem carry_now (d : Nat) (s : State) : (carry d s).now = max s.now d := by
  unfold carry; dsimp only
  split <;> split <;> first | (rw [storeCycle_now]) | rfl
@[simp] theorem carry_free (d : Nat) (s : State) : (carry d s).free = s.free := by rw [carry_apart d s]
@[simp] theorem carry_variant (d : Nat) (s : State) : (carry d s).variant = s.variant := by rw [carry_apart d s]
@[simp] theorem carry_pending (d : Nat) (s : State) : (carry d s).pending = s.pending := by rw [carry_apart d s]
@[simp] theorem carry_out (d : Nat) (s : State) : (carry d s).out = s.out := by rw [carry_apart d s]
@[simp] theorem carry_img (d : Nat) (s : State) : (carry d s).img = s.img := by rw [carry_apart d s]
@[simp] theorem carry_sec (d : Nat) (s : State) : (carry d s).sec = s.sec := by rw [carry_apart d s]
@[simp] theorem carry_sag (d : Nat) (s : State) : (carry d s).sag = s.sag := by rw [carry_apart d s]
@[simp] theorem carry_erc (d : Nat) (s : State) : (carry d s).erc = s.erc := by rw [carry_apart d s]
@[simp] theorem carry_fab (d : Nat) (s : State) : (carry d s).fab = s.fab := by rw [carry_apart d s]
@[simp] theorem carry_coh (d : Nat) (s : State) : (carry d s).coh = s.coh := by rw [carry_apart d s]
@[simp] theorem carry_swc (d : Nat) (s : State) : (carry d s).swc = s.swc := by rw [carry_apart d s]
@[simp] theorem carry_prt (d : Nat) (s : State) : (carry d s).prt = s.prt := by rw [carry_apart d s]
@[simp] theorem carry_tie (d : Nat) (s : State) : (carry d s).tie = s.tie := by rw [carry_apart d s]
@[simp] theorem carry_flm (d : Nat) (s : State) : (carry d s).flm = s.flm := by rw [carry_apart d s]
@[simp] theorem carry_cdc (d : Nat) (s : State) : (carry d s).cdc = s.cdc := by rw [carry_apart d s]
@[simp] theorem carry_pug (d : Nat) (s : State) : (carry d s).pug = s.pug := by rw [carry_apart d s]
@[simp] theorem carry_gth (d : Nat) (s : State) : (carry d s).gth = s.gth := by rw [carry_apart d s]
@[simp] theorem carry_siv (d : Nat) (s : State) : (carry d s).siv = s.siv := by rw [carry_apart d s]
@[simp] theorem carry_arrs (d : Nat) (s : State) : (carry d s).arrs = s.arrs := by rw [carry_apart d s]
@[simp] theorem carry_trm (d : Nat) (s : State) : (carry d s).trm = s.trm := by rw [carry_apart d s]
@[simp] theorem carry_trms (d : Nat) (s : State) : (carry d s).trms = s.trms := by rw [carry_apart d s]
@[simp] theorem carry_sit (d : Nat) (s : State) : (carry d s).sit = s.sit := by rw [carry_apart d s]
@[simp] theorem carry_lead (d : Nat) (s : State) : (carry d s).lead = s.lead := by rw [carry_apart d s]
@[simp] theorem carry_att (d : Nat) (s : State) : (carry d s).att = s.att := by rw [carry_apart d s]
@[simp] theorem carry_pkg (d : Nat) (s : State) : (carry d s).pkg = s.pkg := by rw [carry_apart d s]
@[simp] theorem carry_wit (d : Nat) (s : State) : (carry d s).wit = s.wit := by rw [carry_apart d s]
@[simp] theorem carry_wd (d : Nat) (s : State) : (carry d s).wd = s.wd := by rw [carry_apart d s]

end Sys2Proof.Machine
end

