-- ==== Sys2Proof/Tests/Slice0.lean ====
section
/-! SUPPORT. Tests: the spec's worked examples, ill-formed commands, and for each statement of the
certificates states and operands that meet the hypotheses of each of its clauses. Each test is about one
step or one function. The expected values of the examples are the spec's own. -/

section

set_option Elab.async false
set_option linter.unreachableTactic false
set_option linter.unusedTactic false
set_option linter.unusedSimpArgs false
set_option linter.unusedVariables false

open Sys2Proof Sys2Proof.Machine

/-! ## States the tests use -/

/-- A block in service: the planes run, the log is up, power-on step 3 is complete. -/
def wUp : State := { arch := { cp := .run, mp := .run }, log := { up := true }, pkg := { st := 4, pgAon := true, pgCore := true, group := 8 } }

/-- With one Trimmer; with array 0; with one job in slot 0 of array 0. -/
def wTrm (x : Trm) : State := { wUp with trm := [(0, x)] }
def wArr (x : Arr) : State := { wUp with arrs := { arr := [(0, x)] } }
def wJob (j : ArrJob) : State := wArr { fence := {}, slots := [(0, j)] }

/-- A descriptor with one token; the same that keeps its tile; the same with a completion record. -/
def wDesc : List Byte := [0x0101, 0x744, 0x100010401, 0, 0x1000000000, 0x1000000000].flatMap (natLe · 8) ++ List.replicate 80 0
def wKeep : List Byte := wDesc.set 7 8
def wCpl : List Byte := wDesc.set 73 1

/-- An image of sections; a saggar map whose saggar 0 has region numbers 0 and 1, 1 GiB of DRAM, 1 MiB of shelf, pseudo-channel 0, array 0 and Trimmer 0. -/
def wImg (l : List (Nat × List Byte)) : Image := { sections := l.map (fun p => { ty := p.1, body := some p.2 }) }
def wMap : List Byte := (List.range 576).map (fun i => if i ∈ [0, 12, 28, 40, 64, 128, 512] then 1 else 0)
def wSag : State := { wUp with img := { st := 2, cur := wImg [(tySAGMAP, wMap)] } }

/-- A Trimmer that runs main code, with every register at 0x9000. -/
def wMain : Trm := { fence := {}, mode := 2, run := .main, ctx := { pc := 0x9000, x := Vector.replicate 32 0x9000 } }

/-- Where no shelf grain carries a check, every operand is good. -/
theorem test_wGoodOps (s : State) (j : ArrJob) (h : s.arrs.crc = []) : operandsGood s j := by
  simp [operandsGood, State.shelfOk, h, afind]

/-- A Trimmer of saggar 0. -/
def wTS (x : Trm) : State := { wSag with trm := [(0, x)] }

/-- A Trimmer's local memory at 0x9000. -/
def wAt (l : List Byte) : List Host.Cell := memWrite [] 0x9000 l

/-- A digest has at most 32 bytes. -/
theorem test_wDigest (b : List Byte) : (digest b).length ≤ 32 := by
  simp only [digest, shake256, List.length_take]; exact Nat.min_le_left _ _

/-- The bytes of a number. -/
theorem test_wNatLe (v n : Nat) : (natLe v n).length = n := by
  induction n generalizing v with
  | zero => rfl
  | succ n ih => simp only [natLe, List.length_cons, ih]

/-- A step record without entries has at most 400 bytes. -/
theorem test_wRecord (s : State) (g : Nat) (h1 : (s.sitOf g).choices = []) (h2 : (s.sitOf g).frames = [])
    (h3 : (s.sitOf g).recomps = []) (h4 : (s.sitOf g).trees = []) :
    0 < (s.stepRecord g).length ∧ (s.stepRecord g).length ≤ 400 := by
  have a1 : (s.modelDigest g).length ≤ 32 := test_wDigest _
  have a2 : (s.weightDigest g).length ≤ 32 := test_wDigest _
  have a3 (l) : (leafDigest l).length ≤ 32 := test_wDigest _
  have b1 := a3 (leavesOf (s.sitOf g).step (s.sitOf g).inputs)
  have b2 := a3 (leavesOf (s.sitOf g).step (s.sitOf g).assigns)
  have b3 := a3 (leavesOf (s.sitOf g).step (s.sitOf g).outputs)
  unfold State.stepRecord
  simp only [h1, h2, h3, h4, List.map_nil, entriesOf, List.filter_nil]
  have z : ∀ (f : Nat × Nat → Nat × Nat → Bool), sortBy f [] = [] := fun _ => rfl
  simp only [z, List.length_append, test_wNatLe, fit, zeros, List.length_take, List.length_replicate, List.append_nil, List.flatMap_nil, List.length_nil]
  generalize (s.modelDigest g).length = x1 at *
  generalize (s.weightDigest g).length = x2 at *
  generalize (leafDigest _).length = x3 at *
  omega

/-- A composition of two members, nodes 0 and 5, with endpoint 7; a chip that is member 0 and leads it. -/
def wCompB : List Byte := [2, 0, 1, 0, 0, 0, 0, 0, 0, 0, 5, 0, 7, 0, 0, 0]
def wStep : State := { wUp with fab := { node := 0 }, img := { st := 2, cur := wImg [(tySAGMAP, wMap), (tyCOMPOSITION, wCompB)] } }
def wSit (x : SitSag) (l : SitLead) : State := { wStep with sit := [(0, { x with leader := some 0 })], lead := [(0, l)] }
def wTok (k : Nat) : Packet := { src := 7, opcode := opSTEP, payload := natLe k 8 ++ zeros 24 }

/-- A chip whose record ring has no room. -/
def wFull : State := { wSit { isOpen := true, closing := true } {} with img := { st := 2, cur := wImg [(tySAGMAP, wMap), (tyCOMPOSITION, wCompB), (tyNODEPARAMS, natLe 0x0202 8)] } }

/-- A member whose saggar 1 has a map of one layer and one expert. -/
def wExp (x : SitSag) : State := { wUp with fab := { node := 0 }, sit := [(1, x)], img := { st := 2, cur := wImg [(tySAGMAP, wMap ++ wMap), (tyCOMPOSITION, wCompB), (tyEXPERTMAP, natLe 0x10001 16 ++ zeros 16)] } }

/-- A member that homes the region of its one planned tile, in T2; its codec engines fenced or not. -/
def wTile (c : Bool) : State := { wExp {} with
  cdc := { eng := if c then (List.range 8).map (fun i => (i, { fence := { on := true, cause := 1 } })) else (List.range 8).map (fun i => (i, { fence := {} })) }
  tie := { regions := [(0, { saggar := 1, kind := 1, working := [(0, [1])] })], frames := [(1, { tier := 2 })] } }

theorem test_wPlan (c : Bool) (x : Config.PlanTile) (h : (Config.planProgram [] 0 0 0).tiles = [x]) :
    (wTile c).planTile 1 (0, 0, 0) = x := by
  have e : (wTile c).sagBody tySTEPPLAN 1 = [] := by cases c <;> decide +kernel
  simp [State.planTile, State.prog, State.progOf, e, h]

theorem test_wNext (c : Bool) (x : Config.PlanTile) (hx : x = {} ∨ x = { table := 1 }) (h : (Config.planProgram [] 0 0 0).tiles = [x]) :
    (wTile c).nextTile 1 = some (0, 0, 0) := by
  have e : (wTile c).sagBody tySTEPPLAN 1 = [] := by cases c <;> decide +kernel
  have a : (((List.range ((wTile c).sagParam 1 0x0303)).map (· + (wTile c).curLayer 1)).filter (fun l => decide (l < (wTile c).layers 1))) = [0] := by cases c <;> decide +kernel
  have b : (wTile c).stageOrder 1 0 = [0] := by cases c <;> decide +kernel
  have d : (wTile c).sitOf 1 = {} := by cases c <;> decide +kernel
  unfold State.nextTile
  simp only [a, List.flatMap_cons, List.flatMap_nil, b, State.planTile, State.prog, State.progOf, e, h, d]
  rcases hx with rfl | rfl <;> simp [List.range_succ]

theorem test_wPair {α β : Type} {x : α × β} {a : α} (h : x.1 = a) : x = (a, x.2) := by cases x; cases h; rfl

theorem test_wCopy_done : (copyTile 1 {} (wTile false)).1 = .done := by decide +kernel

theorem test_wCopy_refused : (copyTile 1 { table := 1 } (wTile false)).1 = .refused := by decide +kernel

theorem test_wCopy_waits : (copyTile 1 { table := 1 } (wTile true)).1 = .waits := by decide +kernel

/-- A KV region of one page, and a request for its first position. -/
def wKv : Region := { kind := 2, kv := 1 + 2 ^ 6 + 2 ^ 10 + 2 ^ 18 + 2 ^ 27 }
def wAtt : Packet := { payload := [0x101000001, 0, 0xFFFFFFFF00000000, 1, 0x3F800000, 0, 0, 0].flatMap (natLe · 8) ++ zeros 128 }
def wAttS (q : AttReq) (r : Region) : State := { wSag with img := { st := 2, cur := wImg [(tySAGMAP, wMap.set 320 1)] }, att := { reqs := [q] }, tie := { regions := [(0, r)] }, arrs := { arr := [(0, { fence := {} })] } }

/-- A chip whose Trimmer 0 may send nothing. -/
def wMute (s : State) : State := { s with fab := { outst := List.replicate 256 { req := .trimmer 0 } } }

theorem test_wMute (s : State) (h : s.fab.outst = List.replicate 256 { req := .trimmer 0 }) (d g : Nat) : s.maySend (.trimmer 0) d g = false := by
  unfold State.maySend; rw [h, show decide (countIf (List.replicate 256 ({ req := .trimmer 0 } : Req)) (fun r => r.req = .trimmer 0) < reqLimit (.trimmer 0)) = false from by decide +kernel]; rfl

theorem test_wMuteR (s : State) (t : Nat) (h : t = 0) (k : s.fab.outst = List.replicate 256 { req := .trimmer 0 }) (g : Nat) : ∀ d, s.maySend (.trimmer t) d g = false :=
  fun d => h ▸ test_wMute s k d g

/-- The rows the request reads. -/
def wRows : KvRows := match (readBlock wKv none 0 0 0 0 (wMute (wAttS { p := wAtt, active := true, left := [(0, 0)] } wKv))).1 with | .ok r => r | .error _ => {}
def wAtS : State := wMute (wAttS { p := wAtt, active := true, left := [(0, 0)] } wKv)
def wAtSd : List Byte := (scoreJob wKv wAtt 0 Config.attendPage 0 0 0).desc
def wAtVd : List Byte := (valueJob wKv wAtt 0 Config.attendValues 0).desc
def wAtPs : List Partial × Bool := blockPartials wAtt 0 0 wAtSd wAtVd (autoF 2 64) (autoF 2 64) wRows

/-- The state the read of the rows leaves. -/
def wAtS2 : State := (readBlock wKv none 0 0 0 0 wAtS).2

theorem test_wAtRead : readBlock wKv none 0 0 0 0 wAtS = (.ok wRows, wAtS2) := test_wPair (by decide +kernel)

theorem test_wAtOutst : wAtS2.fab.outst = List.replicate 256 { req := .trimmer 0 } ∧ wAtS2.attTrimmer 0 = 0 := by decide +kernel

theorem test_wAtF : wAtS2.attF wAtt 0 0 wAtSd = autoF 2 64 ∧ wAtS2.attF wAtt 0 1 wAtVd = autoF 2 64 := by decide +kernel

theorem test_wAtPs : (wAtPs.1, wAtPs.2) = blockPartials wAtt 0 0 wAtSd wAtVd (autoF 2 64) (autoF 2 64) wRows := Prod.eta wAtPs

theorem test_wAtKept : wAtS2.att = wAtS.att := by decide +kernel

/-- A call of a device procedure; a descriptor of region 1 with a tier policy. -/
def wCall (proc : Nat) (l : List Byte) : Packet := { src := 7, opcode := opRPT, cls := 1, length := 8 + l.length, payload := natLe (proc + l.length * 2 ^ 16) 8 ++ l }
def wRegD (pol : Nat) : List Byte := [1 + 2 ^ 54, pol + 0xFFFF * 2 ^ 32, 2 ^ 32].flatMap (natLe · 8) ++ zeros 104

/-- A chip with pool memory in both tiers of saggar 0, and region 0. -/
def wPool (r : Region) : State := { wSag with tie := { regions := [(0, r)], ddr := [(0, { fence := {}, trained := true, capGib := 64 })], hbm := [(0, { fence := {}, trained := true })] } }
def wSnap (v : Nat) : Packet := { src := 7, cls := 1, payload := natLe (v * 2 ^ 32) 16 }

/-- A page on its way to a flash in service. -/
def wFlashMove : State := { wSag with img := { st := 2, cur := wImg [(tySAGMAP, wMap.set 32 1)] }, flm := { st := 3, logical := 4, dies := [(0, {})] }, tie := { regions := [(0, { moves := [{ src := 1, dst := 2 ^ 40 }] })], frames := [(1, {}), (2 ^ 40, { tier := 4 })] } }

/-- A chip with these flash media; a die with one valid page in block 5. -/
def wFl (f : Flm) : State := { wUp with flm := f }
def wDieV : FlmDie := { blk := [(5, { st := 2, pages := [{ lua := 8 }] })], victim := some 5, gcOpen := some 6, hostOpen := some 5 }
def wFlV : Flm := { st := 3, pagesPerBlock := 100, dies := [(0, wDieV)], map := [(8, { pun := some (0, 5, 0) })], progs := [{ page := { lua := 9 } }, { page := { lua := 10 }, host := false }] }

/-- Saggar 0 with 1 GiB of flash. -/
def wFlS (f : Flm) : State := { wSag with img := { st := 2, cur := wImg [(tySAGMAP, wMap.set 32 1)] }, flm := f }

/-- A codec call: descriptor words 0, 3 and 4. -/
def wJobCall (proc w0 w3 w4 : Nat) : Packet := wCall proc ([w0, 0x1000, 0x2000, w3, w4].flatMap (natLe · 8))
def wEncRaw : Packet := wJobCall 0xFF4 (1 + 2 * 2 ^ 8 + 16 * 2 ^ 32) 64 0
def wDec : Packet := wJobCall 0xFF5 (2 + 2 ^ 16 + 16 * 2 ^ 32) 64 (2 ^ 32)

/-- A chip with codec engine 0 in service, and these queued jobs. -/
def wCdc (q : List CdcJob) : State := { wUp with cdc := { eng := [(0, { fence := {}, queue := q })] } }

/-- A table object of one symbol, and a chip that has it in frame 1 of a sealed region. -/
def wTabR : Region := { working := [(0, [1])], pages := 1 }
def wPageMem : List Host.Cell := [(65536, 67), (65537, 76), (65538, 66), (65539, 84), (65540, 1), (65541, 12), (65568, 246), (65569, 237), (65570, 48), (65571, 193), (65572, 11), (65573, 81), (65574, 195), (65575, 102), (65576, 93), (65577, 49), (65578, 93), (65579, 82), (65580, 7), (65581, 50), (65582, 211), (65583, 85), (65584, 43), (65585, 169), (65586, 171), (65587, 201), (65588, 116), (65589, 20), (65590, 151), (65591, 77), (65592, 213), (65593, 101), (65594, 62), (65595, 147), (65596, 39), (65597, 12), (65598, 76), (65599, 145), (65601, 16)]
def wGrain (m : List Host.Cell) (g : Nat) : List Byte := memRead m (1 * pageBytes + g * 256) 256
def wPageFr (m : List Host.Cell) : Frame := { tier := 2, side := [(0, { crc := crc32c (wGrain m 0), addr := 0 }), (1, { crc := crc32c (wGrain m 1), addr := 1 }), (2, { crc := crc32c (wGrain m 2), addr := 2 })] }
def wTabS : State := { wUp with tie := { regions := [(0, wTabR)], mem := wPageMem, frames := [(1, wPageFr wPageMem)] } }

/-- A piece of such a page reads back. -/
theorem test_wPiece (m : List Host.Cell) (s : State) (g n : Nat) (hg : g < 3) (h1 : s.tie.frames = [(1, wPageFr m)]) (h2 : s.tie.mem = m) (h3 : s.portEncrypts wTabR = false) :
    readPiece wTabR none (g, 0, n) s = (.data (sub (wGrain m g) 0 n), s) := by
  have a : s.servingFrame (pageFrames wTabR none 0) = some 1 := by
    simp only [State.servingFrame, State.frameTier, h1]; rfl
  have b : s.grainPoisoned 1 g = false := by
    simp only [State.grainPoisoned, h1]
    obtain rfl | rfl | rfl : g = 0 ∨ g = 1 ∨ g = 2 := by omega
    all_goals rfl
  have e : s.grain 1 g = wGrain m g := by simp only [State.grain, h1, h2, wGrain, afind, wPageFr]; rfl
  have c : s.grainOk wTabR 1 g = true := by
    simp only [State.grainOk, h1, e]
    obtain rfl | rfl | rfl : g = 0 ∨ g = 1 ∨ g = 2 := by omega
    all_goals simp [afind, wPageFr, sideOf, aget, wTabR]
  have d : s.plain wTabR 1 (g, 0, n) = sub (wGrain m g) 0 n := by
    have f : g % 256 = g := by omega
    simp [State.plain, State.fromStored, f, e, h3]
  have e : g / 256 = 0 := by omega
  have f : g % 256 = g := by omega
  have l : wTabR.lostAt none 0 = false := by decide
  simp [readPiece, e, f, l, a, State.grainGood, b, c, d]

/-- What a read of the head of such a page finds. -/
theorem test_wRead (m : List Host.Cell) (s : State) (n : Nat) (ps : List (Nat × Nat × Nat)) (h1 : s.tie.frames = [(1, wPageFr m)]) (h2 : s.tie.mem = m) (h4 : s.portEncrypts wTabR = false) (h5 : s.tie.hbm = [])
    (hn : pagesOf (0 * pageBytes) n = [0]) (hp : pieces (0 * pageBytes) n = ps) (hq : ∀ x ∈ ps, x.1 < 3 ∧ x.2.1 = 0) :
    (readRegion wTabR none (0 * pageBytes) n s).1 = .data (ps.flatMap (fun x => sub (wGrain m x.1) 0 x.2.2)) := by
  have a : s.servingFrame (pageFrames wTabR none 0) = some 1 := by
    simp only [State.servingFrame, State.frameTier, h1]; rfl
  have c : heldBack wTabR none [0] s = (none, s) := by
    have x : s.inFlash (pageFrames wTabR none 0) = false := by
      simp only [State.inFlash, a, State.frameTier, h1]; rfl
    have y : s.onHot (pageFrames wTabR none 0) = false := by
      simp only [State.onHot, a, h1, State.hbmSkips, State.hbm, h5]; rfl
    simp [heldBack, x, y]
  have e : readPieces wTabR none ps s = (.data (ps.flatMap (fun x => sub (wGrain m x.1) 0 x.2.2)), s) := by
    clear hp hn
    induction ps with
    | nil => rfl
    | cons x l ih =>
      obtain ⟨g, z, n⟩ := x
      obtain ⟨q1, q2⟩ := hq (g, z, n) (by simp)
      simp only at q1 q2
      subst q2
      simp only [readPieces, test_wPiece m s g n q1 h1 h2 h4, ih (fun x hx => hq x (by simp [hx])), List.flatMap_cons]
  simp only [readRegion, readRange, hn, hp, c, e]

/-- Chips with region 0 whose page is lost: with a holder, without, and with a job that codes with its table. -/
def wAway : State := { wUp with tie := { regions := [(0, { lostPages := [0], pages := 1, holders := [5] })] } }
def wLost : State := { wUp with tie := { regions := [(0, { lostPages := [0], pages := 1 })] } }
def wAwayJ : State := { wAway with cdc := { eng := [(0, { fence := {}, queue := [{ call := wDec, rd := { len := 16, next := 16, data := List.replicate 16 7 } }] })], tables := [((0, 1), { bound := true })] } }

/-- What the bind of its page reads. -/
def wTabSt : State := take (wCall 0xFF6 (natLe 1 4 ++ zeros 12)) wTabS
def wTabO : List Byte := [(0, 0, 256), (1, 0, 256), (2, 0, 64)].flatMap (fun x => sub (wGrain wPageMem x.1) 0 x.2.2)

/-- A read that gives data gives the table. -/
theorem test_wRdTab (r : Region) (p : Nat) (s : State) (d : List Byte) (h : (readRegion r none (p * pageBytes) 576 s).1 = .data d) :
    (readTable r p s).1 = some (some d) := by
  unfold readTable
  cases hx : readRegion r none (p * pageBytes) 576 s with
  | mk a b => rw [hx] at h; simp only at h; subst h; rfl

theorem test_wTable : readTable wTabR 0 wTabSt = (some (some wTabO), (readTable wTabR 0 wTabSt).2) :=
  test_wPair (test_wRdTab wTabR 0 wTabSt wTabO
    (test_wRead wPageMem wTabSt 576 [(0, 0, 256), (1, 0, 256), (2, 0, 64)] (by simp only [wTabSt, take, wTabS]) (by simp only [wTabSt, take, wTabS]) rfl (by simp only [wTabSt, take, wTabS]) (by decide +kernel) (by decide +kernel) (by decide)))

theorem test_wTableOk : tableValid wTabO = true := by decide +kernel

/-- A collective descriptor: a binary32 sum of one element over `n` positions; with a stage at node 0 for each two positions. -/
def wSum (n : Nat) : List Byte := [1 + 0x770000, 2 ^ 32, n + 2 ^ 32, 1, 0].flatMap (natLe · 8) ++ zeros 88
def wSumS (n : Nat) : List Byte := [1 + 0x770000, 2 ^ 32, n + 2 ^ 32, 1 + 2 ^ 32 + 2 ^ 36, 0].flatMap (natLe · 8) ++ zeros 88

/-- A member chip with a Pug unit and a share of its memory, and these collectives. -/
def wPug (l : List Coll) : State := { wUp with fab := { node := 0 }, pug := { unit := [(0, {})], colls := l }, img := { st := 2, cur := wImg [(tySAGMAP, wMap.set 36 1), (tyCOMPOSITION, wCompB)] } }
def wColl : Coll := { desc := wSum 2, units := [0], bytes := 64 }

/-- Position 0's packet of the sum, and the packet that carries it. -/
def wX : PugPkt := { enc := 7, nelem := 1, data := natLe 0x3F800000 8 }
def wCon : Packet := { src := 7, cls := 3, payload := contribBytes 0 wX }

/-- A merge of one block of one head that holds label 1, and a block with label 2. -/
def wMergeX : PugPkt := { enc := 7, label := 2, data := zeros 272 }
def wMerge : Coll := { desc := [7 + 0x770000, 2 ^ 32, 0, 0, 0, 0, 65537].flatMap (natLe · 8) ++ zeros 72, units := [0], got := [{ wMergeX with label := 1 }] }
def wAdm (d : List Byte) (st : Bool) (p : Packet) : Nat × List Nat := match (wPug []).admitColl d 0 0 st p with | .ok x => x | .error _ => (0, [])

/-- A Gather table of one binary32 element, eight rows in shard region 0, hot region 1; a chip that homes it. -/
def wGDef : List Byte := [0, 7] ++ zeros 2 ++ natLe 1 4 ++ natLe 1 2 ++ zeros 2 ++ natLe 4 4 ++ natLe 8 8 ++ natLe 1 4 ++ zeros 36 ++ natLe 1 4 ++ natLe 4 4 ++ zeros 128
def wGth (g : Gth) : State := { wUp with fab := { node := 0 }, gth := { g with unit := [(0, {})] }, tie := { regions := [(0, {}), (1, { id := 1 })] }, img := { st := 2, cur := wImg [(tySAGMAP, wMap), (tyGATHER, wGDef)] } }

/-- A pooling request of row 0; a row that has moved to hot slot 0. -/
def wGP (fwd : Nat) : Packet := { src := 7, cls := 1, payload := ({ nRows := 1, outFmt := 7, fwd := fwd, gen := 1 } : GthHdr).bytes ++ zeros 8 }
def wGE (b : Bool) : Gth := { dir := [((0, 0, 1, 0), { moved := some (0, 0, 0), frozen := b })] }

/-- A Sieve index over image region 0 and side region 1. -/
def wSiv (r : Region) (q : Siv) : State := { wUp with fab := { node := 0 }, siv := { q with unit := [(0, {})] }, tie := { regions := [(0, r), (1, { id := 1 })] }, img := { st := 2, cur := wImg [(tySAGMAP, wMap), (tySAGPARAMS, natLe (0x0308 + 2 ^ 16) 8), (tySIEVE, zeros 8 ++ natLe 1 8)] } }
def wSivX : SivIndex := { side := 1 }
def wSivO : List Host.Cell := [(65536, 83), (65537, 73), (65538, 86), (65539, 88), (65540, 1), (65542, 1), (65544, 8), (65548, 1), (65552, 16)]
def wSivH (x : SivIndex) : State := { wSiv {} { index := [((0, 0), x)] } with tie := { regions := [(0, wTabR)], mem := wSivO, frames := [(1, wPageFr wSivO)] } }
def wSivP : Packet := { src := 7, cls := 1, payload := natLe (1 + 2 ^ 16 + 2 ^ 32) 8 ++ zeros 64 }
def wSivIns : Packet := { src := 7, opcode := opRPT, cls := 1, length := 40, payload := natLe (0xFFC + 25 * 2 ^ 16) 8 ++ zeros 4 ++ natLe 3 4 ++ zeros 24 }
def wSivDel : Packet := wCall 0xFFD (zeros 4 ++ natLe 3 4)
def wSivMrg : Packet := wCall 0xFFE (zeros 4 ++ natLe 1 4)

/-- The header of the index reads back. -/
theorem test_wHead (s : State) (h1 : s.tie.frames = [(1, wPageFr wSivO)]) (h2 : s.tie.mem = wSivO) (h3 : s.region 0 = wTabR) (h4 : s.portEncrypts wTabR = false) (h5 : s.tie.hbm = []) :
    s.sivHeader 0 = sivHdr (sub (wGrain wSivO 0) 0 64) := by
  have a := test_wRead wSivO s 64 [(0, 0, 64)] h1 h2 h4 h5 (by decide +kernel) (by decide +kernel) (by decide)
  unfold State.sivHeader
  rw [h3]
  change (readRegion wTabR none 0 64 s).1 = _ at a
  generalize readRegion wTabR none 0 64 s = y at *
  obtain ⟨y1, y2⟩ := y
  simp only at a
  simp only [a, List.flatMap_cons, List.flatMap_nil, List.append_nil]

theorem test_wHdr (x : SivIndex) : (wSivH x).sivHeader 0 = sivHdr (sub (wGrain wSivO 0) 0 64) :=
  test_wHead _ (by simp only [wSivH]) (by simp only [wSivH]) (by simp only [wSivH, State.region]; rfl) rfl (by simp only [wSivH])

/-- An index whose merge into region 1 has started. -/
def wSivY : SivIndex := { side := 1, merge := some { target := 1 } }
def wSivM : State := { wSiv {} { index := [((0, 0), wSivY)] } with tie := { (wPool {}).tie with regions := [(0, { pages := 0 }), (1, { id := 1, tierPol := 3 })] } }
def wSivM1 : State := (readRegion (wSivM.region wSivY.image) none 0 (wSivM.region wSivY.image).size wSivM).2

/-- The header's fields; an index with an entry; one with a tombstone. -/
def wSivHd : SivHdr := sivHdr (sub (wGrain wSivO 0) 0 64)
def wSivE : SivIndex := { side := 1, sides := [{ seq := 1 }] }
def wSivT : SivIndex := { side := 1, tomb := [3] }

theorem test_wEta {α β : Type} {x : α × β} {a : α} {b : β} (h : x.1 = a) (e : b = x.2) : x = (a, b) := by
  subst h e; rfl

theorem test_wMerged : (writeRegion (wSivM1.region 1) 0 (mergedImage (sivHdr []) (sub []) (mergedLists (sivHdr []) (sub []) wSivY { target := 1 })) wSivM1).1 = .done := by
  decide +kernel

/-- A read of 8 bytes; a write of 8 zero bytes; an atomic on the first word; a chip with DRAM and this region 0. -/
def wRd : Packet := { src := 7, opcode := opREAD, cls := 1, length := 8 }
def wWr : Packet := { src := 7, opcode := opWRITE, cls := 1, length := 8, payload := zeros 8, trailer := trailerOf 0 (zeros 8) }
def wAt1 : Packet := { src := 7, opcode := opADD, cls := 1, length := 8, payload := zeros 8 }
def wAt4 : Packet := { src := 7, opcode := opFRAMEADDF, cls := 1, length := 32, payload := zeros 32 }
def wReg : Region := { kind := 1, tierPol := 3 }
def wRegS : State := { wPool wReg with flm := { st := 4 } }

/-- Region 0 with page 0 in flash; with it lost. -/
def wCold : State := { wUp with tie := { regions := [(0, wTabR)], frames := [(1, { tier := 4 })] } }
def wBadR : Region := { wTabR with lostPages := [0] }
def wBad : State := { wUp with tie := { regions := [(0, wBadR)] } }
def wColdR : Region := { wReg with working := [(0, [1])] }
def wColdS : State := { wRegS with tie := { wRegS.tie with regions := [(0, wColdR)], frames := [(1, { tier := 4 })] } }

def wWin (o : Option (Nat × Nat)) : State := { wRegS with fab := { win := [{ src := 7, outcome := o }] } }

/-- The state after the first word of region 0 is read; after its first 32 bytes are. -/
def wRead8 : State := (readRange wReg none 0 8 wRegS).2
def wRead32 : State := (readRange wReg none 0 32 wRegS).2

/-- A chip with one outstanding request. -/
def wOut (r : Req) : State := { wUp with fab := { outst := [r] } }
def wAck (st : Nat) : Packet := { src := 7, status := st }

/-- A call of procedure 0, which is Trimmer 0's; its chip. -/
def wRptS (n : Nat) : State := { wUp with img := { st := 2, cur := wImg [(tySAGMAP, wMap), (tyRPT, natLe 1 8)] }, trm := [(0, { fence := {}, rptq := List.replicate n {} })] }

/-- A chip of domain 5, with an agent node 7 behind it and a CXL host, node 9, on port 3. -/
def wDomB (m a : List Nat) : List Byte := natLe (5 + m.length * 2 ^ 16 + a.length * 2 ^ 32) 8 ++ pad8 ((m ++ a).flatMap (natLe · 2))
def wDom (m a : List Nat) (x : DomSlot) : State := { wUp with fab := { node := 0 }, coh := { slots := [(0, { x with domain := 5 })] }, img := { st := 2, cur := wImg [(tySAGMAP, wMap), (tyNODES, natLe 7 8), (tyPORTS, zeros 2048 ++ natLe (3 + 9 * 2 ^ 32) 144), (tyDOMAINS, wDomB m a)] } }
def wInv (dst : Nat) : Packet := { src := 5, dst := dst, opcode := opINVAL, cls := 1, payload := natLe (1 + 5 * 2 ^ 16) 8 }

/-- An ownership packet of node 7, a region that moves, and its home. -/
def wOwnP (op kind xfer : Nat) : Packet := { src := 7, opcode := op, cls := 1, payload := natLe (kind * 2 ^ 32) 8 ++ natLe xfer 8 }
def wOwnR : Region := { kind := 1, coh := 2 }
def wOwn (r : Region) : State := { wStep with tie := { regions := [(0, r)] } }

/-- A chip whose port 0 is a FABRIC link, with this switch core. -/
def wFab (x : Port) (q : Swc) (b : Fab) : State := { wUp with fab := { b with node := 0 }, prt := [(0, x)], swc := q, img := { st := 2, cur := wImg [(tySAGMAP, wMap), (tyPORTS, 1 :: zeros 2047), (tyNODEPARAMS, natLe (0x020F + 5 * 2 ^ 16) 8)] } }
def wBuf (c h : Nat) : BufPkt := { pkt := { src := 7, dst := 9, cls := c, hops := h } }

/-- One packet of class `c` waits at port 0. -/
def wWait (c h : Nat) : State := wFab { lst := 4, crTot := [(c, 100)] } { active := [((0, c, false), { order := [0] })], queues := [((0, c, false, 0), { pkts := [wBuf c h], deficit := 1000 })], pq := [(1, 0x2800000)] } {}
def wTx (c dst : Nat) : Packet := stampPkt { src := 7, dst := dst, cls := c, opcode := if c = 6 then opSAMPLE else 0 }
def wFits (s : State) (p : Packet) : Prop := p.cls = 2 ∨ p.cls = 6 ∨ (s.reserveOf 64 p.cls p.vc = [] ∧ s.usedCells p.saggar + packetCells p ≤ s.quotaCells p.saggar ∧ packetCells p ≤ s.poolFree)
def wTxS (c dst : Nat) : State := { wUp with fab := { node := 0, tx := [wTx c dst] } }
def wClass : State := { wWait 1 0 with swc := { (wWait 1 0).swc with classDeficit := aset (wWait 1 0).swc.classDeficit (0, 1) 640, classTurn := aset (wWait 1 0).swc.classTurn 0 (1, true) } }

/-- A chip whose port 0 has this role byte and neighbour 5; an LD record of its logical device 2 follows the port records. -/
def wL (r : Byte) (x : Port) : State := { wUp with fab := { node := 0 }, prt := [(0, x)], img := { st := 2, cur := wImg [(tySAGMAP, wMap), (tyPORTS, [r, 0, 5, 0] ++ zeros 2044 ++ natLe (2 * 2 ^ 8 + 9 * 2 ^ 32) 24 ++ natLe 1 120)] } }
def wDown (s : State) (port : Nat) : State → Prop := fun u => (u.port port).lst = 1 ∧ (u.port port).retry = [] ∧ u.satVal (satPrtLinkDown port) = satAdd 16 (s.satVal (satPrtLinkDown port)) 1 ∧ (s.linked port = true → ∀ q ∈ u.swc.queues, q.1.1 = port → q.2.pkts = [])
def wVisited (s : State) (port : Nat) (x : Port) : State → Prop := fun u => (u.port port).rotActive = true ∧ (u.port port).rotLane = x.rotNext ∧ (u.port port).rotNext = (x.rotNext + 1) % 9 ∧ (u.port port).map = x.map ∧ (u.port port).rotDeadline = some (u.now + sclk (2 ^ s.nodeParam 0x0209))
def wGood (s : State) (port : Nat) (b : ExchBody) : Prop := b.node = portNeighbour (s.portRec port) ∧ ((s.portRole port = 1 ∧ b.role = 1) ∨ (s.portRole port = 2 ∧ b.role = 3)) ∧ b.lver = 1

/-- A chip with this host link; an order the link takes to go down. -/
def wJ (j : Jsl) : State := { wUp with fab := { node := 0 }, jsl := j }
def wJDown (s : State) : State → Prop := fun u => u.jsl.lst = 0 ∧ u.jsl.retry = [] ∧ u.jsl.replayReq = none ∧ (∀ k x, afind u.jsl.sessions k = some x → x.via ≠ none) ∧ u.satVal satJslLinkDown = satAdd 16 (s.satVal satJslLinkDown) 1
def wMg (seq back sid cls : Nat) : Packet := { src := 7, opcode := opMGMT, cls := cls, payload := natLe (seq + back * 2 ^ 16) 8 ++ natLe (sid * 2 ^ 8) 16 }

/-- The state once a frame is taken; once its session has counted it. -/
def wTaken (s : State) (f : JqFrame) (n : Nat) : State := { s with jsl := { s.jsl with silence := some (s.now + sclk (2 ^ 16)), crTot := [f.crCsr, f.crBulk, f.crEvent, f.crRecord], rxSeq := (s.jsl.rxSeq + n) % 256, ack := (s.jsl.rxSeq + n + 255) % 256, ackV := true, replayReq := none, replayDeadline := none, crRet := (List.range n).foldl (fun r _ => bump256 r (jqClass f)) s.jsl.crRet }, ctr := amod s.ctr ctrJslRx {} (fun c => c.add n) }
def wJA (s : State) (f : JqFrame) : State := wTaken s f 1
def wJA2 (a : State) (f : JqFrame) (x : Session) : State := { a with jsl := { a.jsl with sessions := aset a.jsl.sessions f.sid { x with ctrRx := x.ctrRx + 1 } } }
def wSess (x : Session) (b : Assoc Nat Bulk) : State := { wJ { lst := 4, sessions := [(1, x)], bulks := b } with sec := { claimed := true }, arch := { cp := .restart, mp := .run }, pkg := { stepsDone := [7] }, wd := { started := true } }
def wFr (c : Nat) : JqFrame := { ftype := 1, mclass := c, prot := true, sid := 1 }

/-- A host link with an enrolled operator key, an open handshake, and its HELLO. -/
def wEnr : State := { wJ { lst := 4, handshakes := [{}] } with sec := { enrolled := [{ role := 1, key := [], mask := 0 }] } }

/-- A system of Plofens 0, 3 and 5; this chip is Plofen 0. -/
def wEp (m : Img) : State := { wUp with fab := { node := 0 }, img := { m with cur := wImg [(tyNODES, [0, 0, 1, 0, 0, 0, 0, 0, 3, 0, 1, 0, 0, 0, 0, 0, 5, 0, 1, 0, 0, 0, 0, 0])] } }

/-- A configuration in force, and the file of a partial image that takes every body from it. -/
def wImCur : Image := { sections := [{ ty := tyNODES, dig := zeros 32, len := 24, body := some [0, 0, 1, 0, 0, 0, 0, 0, 3, 0, 1, 0, 0, 0, 0, 0, 5, 0, 1, 0, 0, 0, 0, 0] }, { ty := tySYS, dig := zeros 32, len := 16, body := some (natLe 1 8 ++ natLe 0x30002 8) }, { ty := tyNODEPARAMS, scope := 1, node := 0, dig := zeros 32, len := 8, body := some (natLe 0x50215 8) }, { ty := tySAGMAP, scope := 1, node := 0, prot := true, len := 36864, dig := zeros 32, body := some [1] }] }

def wImEnt (ty sc f node len : Nat) : List Byte := natLe ty 2 ++ natLe sc 1 ++ natLe f 1 ++ natLe node 2 ++ [1, 0, 0, 0, 0, 0] ++ natLe len 4 ++ zeros 32

def wImDir : List Byte := wImEnt tyNODES 0 0 0xFFFF 24 ++ wImEnt tySYS 0 0 0xFFFF 16 ++ wImEnt tyNODEPARAMS 1 0 0 8 ++ wImEnt tySAGMAP 1 64 0 36864

def wImHdr : List Byte := natLe 0x474D4950 4 ++ [1, 0, 1, 1, 255, 0, 0, 0] ++ natLe 4 4 ++ natLe 1 8 ++ zeros 48 ++ natLe 128 8 ++ natLe 352 8 ++ natLe 1672 8 ++ zeros 32

def wImFile : List Byte := wImHdr ++ wImDir ++ zeros 32 ++ natLe 1 8 ++ digest [] ++ zeros 1280

def wIm : Image := { header := wImHdr, dirBytes := wImDir, sections := wImCur.sections.map (fun c => { c with body := none }), sigs := [(digest [], zeros 1280)] }

def wIm2 : Image := { wIm with sections := wImCur.sections }

def wImSt : State := { img := { st := 2, cur := wImCur }, fab := { node := 0 }, sec := { enrolled := [{ role := 1, mask := 0, key := [] }] }, arch := { cp := .run } }

theorem test_wI_hr (g : Nat) : wIm2.sagRec 0 g = if g = 0 then [1] else [] := by
  have e : wIm2.bodyOf tySAGMAP 0 0 0 = [1] := by decide +kernel
  unfold Image.sagRec Machine.sagRec
  rw [e]
  cases g with
  | zero => rfl
  | succ n => simp [sub, Nat.mul_add]

theorem test_wI_hb (g off i : Nat) (h : 0 < off) : bitAt (wIm2.sagRec 0 g) off i = false := by
  rw [test_wI_hr]; unfold bitAt
  have : (if g = 0 then [1] else ([] : List Byte)).getD (off + i / 8) 0 = 0 := by
    split
    · obtain ⟨k, hk⟩ : ∃ k, off + i / 8 = k + 1 := ⟨off + i / 8 - 1, by omega⟩
      rw [hk]; rfl
    · rfl
  rw [this]; simp [bit, bits]

theorem test_wI_h1 (g i : Nat) : recArray (wIm2.sagRec 0 g) i = false := test_wI_hb g _ i (by decide)

theorem test_wI_h2 (g i : Nat) : recAttnArray (wIm2.sagRec 0 g) i = false := test_wI_hb g _ i (by decide)

theorem test_wI_h3 (g i : Nat) : recTrimmer (wIm2.sagRec 0 g) i = false := test_wI_hb g _ i (by decide)

theorem test_wI_h4 (g i : Nat) : recAttnTrimmer (wIm2.sagRec 0 g) i = false := test_wI_hb g _ i (by decide)

theorem test_wI_h5 (g i : Nat) : recHbmPc (wIm2.sagRec 0 g) i = false := test_wI_hb g _ i (by decide)

theorem test_wI_a2 : wImSt.namesAbsent wIm2 0 = false := by
  have b : ∀ v g, beyondCounts v (wIm2.sagRec 0 g) = (List.range 4).any (fun d => decide (v.arrayDies ≤ d ∧ 0 < recShelfMib (wIm2.sagRec 0 g) d)) := by
    intro v g
    simp [beyondCounts, test_wI_h1, test_wI_h2, test_wI_h3, test_wI_h4, test_wI_h5]
  unfold State.namesAbsent
  simp only [List.any_map, Function.comp_def, b]
  decide +kernel

theorem test_wI_a6 : wIm2.noOverCommit 0 = true := by
  unfold Image.noOverCommit
  simp only [test_wI_h1, test_wI_h2, test_wI_h3, test_wI_h4, test_wI_h5]
  decide +kernel

theorem test_wI_a3 : wImSt.acvOk wIm2 0 = true := by decide +kernel

theorem test_wI_a1 : parseImage wImFile = (wIm, true) := by decide +kernel

theorem test_wI_b1 : wIm2.paramLists.all (fun p => paramsInRange p.1 p.2) = true := by decide +kernel

theorem test_wI_b2 : wIm2.paramsAgree 0 = true := by decide +kernel

theorem test_wI_b3 : wIm2.sagsAgree 0 = true := by decide +kernel

theorem test_wI_b4 : wIm2.sagBodiesOk 0 = true := by decide +kernel

theorem test_wI_b5 : wImSt.regionsOk (wImSt.withImage wIm2 0) wIm2 0 = true := by decide +kernel

theorem test_wI_b6 : wImSt.confOk wIm2 0 = true := by decide +kernel

theorem test_wI_b7 : wIm2.protectionOk 0 = true := by decide +kernel

theorem test_wI_a7 : wImSt.valuesOk (wImSt.withImage wIm2 0) wIm2 0 = true := by
  unfold State.valuesOk
  rw [test_wI_a6, test_wI_b1, test_wI_b2, test_wI_b3, test_wI_b4, test_wI_b5, test_wI_b6, test_wI_b7]
  decide +kernel

theorem test_wI_a8 (h : Config.falconVerify [] (imgMessage wImHdr wImDir) (zeros 1280) = true) : signaturesOk wImSt.sec.enrolled wIm2 wImCur = true := by
  have w (d : List Byte) (e : digest [] = d) : roleSigners 1 [{ role := 1, mask := 0, key := [] }] (imgMessage wImHdr wImDir) [(d, zeros 1280)] = [0] := by
    have r : List.range ([({ role := 1, mask := 0, key := [] } : KeySlot)].length) = [0] := rfl
    simp only [roleSigners, r, List.filterMap_cons, List.filterMap_nil, List.find?_cons, List.find?_nil, List.getElem?_cons_zero, e, h, decide_true, Bool.and_true, Bool.true_and]
    rfl
  have p : protChanged wIm2 wImCur = false := by decide +kernel
  have k (set : List KeySlot) (im cur : Image) (h : roleSigners 1 set (imgMessage im.header im.dirBytes) im.sigs = [0]) (p : protChanged im cur = false) :
      signaturesOk set im cur = true := by simp [signaturesOk, h, p]
  exact k _ _ _ (w _ rfl) p

theorem test_wI_a9 (h : Config.falconVerify [] (imgMessage wImHdr wImDir) (zeros 1280) = true) : wImSt.imageRefusal wImFile .bulk = none := by
  have e : wImSt.img.cur = wImCur := rfl
  have b : wIm.bodyForm = true := by decide +kernel
  have r : resolve wIm wImCur = wIm2 := by decide +kernel
  unfold State.imageRefusal
  rw [test_wI_a1]
  show wImSt.refusalOf wIm true .bulk = none
  unfold State.refusalOf
  have n : wImSt.fab.node = 0 := rfl
  have c : decide (wIm.kind = 1 ∧ ImageSource.bulk ≠ .stored) = true := by decide +kernel
  have st : wImSt.img.st = 2 := rfl
  simp only [e, b, r, n, c, st, show ¬ (2 = 0) from by decide, if_true, if_false]
  simp only [test_wI_a2, test_wI_a3, test_wI_a7, test_wI_a8 h]
  decide +kernel

def wHeard (s : State) (src : Nat) : State := { s with img := { s.img with coordHeard := if src = s.img.coord then s.now else s.img.coordHeard, standbyHeard := if src = s.img.standby then s.now else s.img.standbyHeard } }

/-- Tenant session 7 holds the key slot of saggar 63. -/
def wTen (x : SagSec) : State := { wUp with sag := [(63, x)], jsl := { sessions := [(7, { role := 2, mask := 2 ^ 63 })] }, img := { st := 2, cur := wImg [(tyPROTECTION, natLe 0x101 8 ++ zeros 1816 ++ natLe 63 8)] } }

/-- A change record to clear the log, its two signers, and a claimed chip that holds both. -/
def wRec : List Byte := natLe 0x2000152434344 8 ++ natLe 1 8 ++ zeros 48
def wBlk : List Byte := natLe 2 8 ++ digest [] ++ zeros 1280 ++ digest [1]
def wDc : State := { wUp with sec := { claimed := true, enrolled := [{ role := 3, key := [], mask := 0 }, { role := 3, key := [1], mask := 0 }], record := wRec, sigBlock := wBlk, arb := List.replicate 16 0 } }

theorem test_wDc (h : digest Config.deviceKey = zeros 32 ∧ Config.falconVerify [] (dcMessage wRec) (zeros 1280) = true ∧ Config.falconVerify [1] (dcMessage wRec) [] = true) :
    0 = wDc.dcCause wDc.sec.record wDc.sec.sigBlock := by
  obtain ⟨h1, h2, h3⟩ := h
  have a : dcForm wRec wBlk = true := by decide +kernel
  have b : sub wRec 16 32 = zeros 32 := by decide +kernel
  have c : dcSigners wBlk = [(digest [], zeros 1280), (digest [1], [])] := by decide +kernel
  have d : wDc.authority (digest []) = some 0 := by decide +kernel
  have e : wDc.authority (digest [1]) = some 1 := by decide +kernel
  have f : dcSeq wRec = wDc.sec.arb.getD 1 0 + 1 := by decide +kernel
  have g : dcOp wRec = 2 := by decide +kernel
  have k : wDc.sec.enrolled = [{ role := 3, key := [], mask := 0 }, { role := 3, key := [1], mask := 0 }] := rfl
  have m : wDc.stagedProt = false := by decide +kernel
  show 0 = wDc.dcCause wRec wBlk
  unfold State.dcCause
  simp only [a, b, c, d, e, f, g, h1, k, m, List.map_cons, List.map_nil, List.all_cons, List.all_nil, Option.bind_some, List.getElem?_cons_zero, List.getElem?_cons_succ, h2, h3]
  decide

/-- WD started, on a chip in service; WD with two authorities. -/
def wWd (w : Wd) : State := { wUp with wd := { w with started := true } }
def wAuth : Wd := { authorities := some [{ role := 3, key := [], mask := 0 }, { role := 3, key := [1], mask := 0 }] }
def wApp : List (List Byte × List Byte) := [(digest [], []), (digest [1], [])]

theorem test_wTwo (m d0 d1 : List Byte) (e0 : digest [] = d0) (e1 : digest [1] = d1) (a : ¬ d0 = d1)
    (h1 : Config.falconVerify [] m [] = true) (h2 : Config.falconVerify [1] m [] = true) :
    validSigners [{ role := 3, key := [], mask := 0 }, { role := 3, key := [1], mask := 0 }] m [(d0, []), (d1, [])] = [0, 1] := by
  have r : List.range ([({ role := 3, key := [], mask := 0 } : KeySlot), { role := 3, key := [1], mask := 0 }].length) = [0, 1] := rfl
  simp only [validSigners, r, List.filterMap_cons, List.filterMap_nil, List.find?_cons, List.find?_nil, List.getElem?_cons_zero, List.getElem?_cons_succ, e0, e1, h1, h2, a, decide_true, decide_false, Bool.and_true, Bool.and_false, Bool.true_and, Bool.false_and]
  rfl

theorem test_wAppr (h : Config.falconVerify [] (dcMessage wRec) [] = true ∧ Config.falconVerify [1] (dcMessage wRec) [] = true) :
    (wWd wAuth).wd.change (.firmwareApproval wRec wApp) = some { wAuth with started := true, approved := some ([], [0, 1]) } := by
  have v := test_wTwo (dcMessage wRec) _ _ rfl rfl (by decide +kernel) h.1 h.2
  have e : sub wRec 64 32 = [] := by decide +kernel
  have w (l : List (List Byte × List Byte)) (k : validSigners [{ role := 3, key := [], mask := 0 }, { role := 3, key := [1], mask := 0 }] (dcMessage wRec) l = [0, 1]) :
      (wWd wAuth).wd.change (.firmwareApproval wRec l) = some { wAuth with started := true, approved := some ([], [0, 1]) } := by
    simp only [Wd.change, wWd, wAuth, k, e]; rfl
  exact w _ v

/-- A kind of firmware of a chip in service. -/
def wFw (k : Nat) (x : FwKind) : State := { wUp with erc := { fw := [(k, x)] } }

/-- A package in a power-on step. -/
def wPk (p : Pkg) : State := { pkg := { p with pgAon := true }, arch := { cp := .run, mp := .run }, log := { up := true } }

/-! ## The spec's worked examples -/

/-- R6: the three registers of each part. -/
theorem test_variants : [Variant.plf8af, .plf8a, .plf4af, .plf0pf].map (fun v => (v.devId, v.capUnits, v.capCounts)) =
    [(0x01B00100, 0x7FF, 0x04880600), (0x02B00100, 0x7CF, 0x04880600), (0x03B00100, 0x7FF, 0x02440300),
     (0x04B00100, 0x7F8, 0)] := by decide +kernel

/-- Chapter 1: the clock merged across a wrap. -/
theorem test_later : later 0xFFFFFFFE 3 = false ∧ later 4 0xFFFFFFFE = true ∧
    (stampLc (mergeLc 0xFFFFFFFE { arch := { lc := 3 } })).arch.lc = 4 := by decide +kernel

/-- Chapter 1: instance pages, and the die that PLF-4AF lacks. -/
theorem test_pages : prtPage 37 = 0x225000 ∧ sagPage 12 = 0x180C000 ∧ arrPage 768 = 0x880000 ∧
    ({ variant := .plf4af : State }).csrGate .management 0x880000 false = some .unitAbsent ∧
    ({} : State).csrGate .management 0x880000 false = none := by decide +kernel

/-- Chapter 2: four bfloat16 terms in a frame of W 64 and F −3, in two orders, and the output. -/
theorem test_frame_sum : [[0x4380, 0x3F80, 0xC380, 0x3E40], [0x3E40, 0xC380, 0x3F80, 0x4380]].map (fun l =>
    let x := l.foldl (fun (x : Machine.Frm) c => x.addTerm (decodeFloat fmtB16 c)) { w := 64, f := -3 }
    (x.s, (encodeElem fcB16 x.value).1)) = [(10, 0x3FA0), (10, 0x3FA0)] := by decide +kernel

/-- Chapter 2: the reciprocal of 1 + 2^−11 is the table's, not the exact one. -/
theorem test_recip : (encodeFloat fmtB32 ({ w := 64, f := -11, s := 2049 } : Machine.Frm).value.recip).1 = 0x3F7FE008 := by decide +kernel

/-- The encoded job of chapter 3. -/
def wJobD : List Byte := [0x211C2A0191090101, 0x180000555, 0x20001008200, 0, 0x11000400000, 0x2000600000, 0, 0, 0x40002].flatMap (natLe · 8)
/-- Chapter 3: its fields, its strides and its frame exponent. -/
theorem test_job_words : [dKind wJobD, dDver wJobD, dSaggar wJobD, dArray wJobD, dTag wJobD, dWFmt wJobD, dAFmt wJobD,
      dOFmt wJobD, dAct wJobD, dKLen wJobD, dNLen wJobD, dTLen wJobD, dKTotal wJobD, dAStride wJobD, dOStride wJobD,
      aToken wJobD, oToken wJobD] =
    [1, 1, 9, 0x191, 0x1C2A, 5, 5, 5, 1, 512, 32, 256, 512, 272, 32, 272, 17] ∧ (dFin wJobD, dIrq wJobD, dPIn wJobD) = (true, true, false) ∧
    dFUsed wJobD = -30 := by decide +kernel

/-- A Trimmer that runs one word of user code on the slot at 0x9400. -/
def wFrm (word s a2 : Nat) : State := { wUp with trm := [(0, { fence := {}, mode := 2, run := .main, ctx := { pc := 0x9000, x := (((Vector.replicate 32 (0 : Nat)).set 11 0x9400).set 12 a2) }, mem := memWrite (memWrite [] 0x9000 (natLe word 4)) 0x9400 (natLe s 8 ++ zeros 18 ++ [0xFD, 0xFF] ++ zeros 4) })] }
/-- Chapter 4: `FRM.ADD.H a0, a1, a2`, the last of the four terms. -/
theorem test_frm_add_h : (let u := trimmerInstruction 0 (wFrm 0x02C5950B 8 0x3E40)
    (memRead (u.trmOf 0).mem 0x9400 9, u.tx 0 10, u.trmPc 0)) = (natLe 10 9, 0, 0x9004) := by decide +kernel
/-- Chapter 4: `FRM.FIN a0, a1, a3`. -/
theorem test_frm_fin : (trimmerInstruction 0 (wFrm 0x02D5C50B 10 0)).tx 0 10 = 0x3FA0 := by decide +kernel

/-- Chapter 5: the debt after one late step, opens 100 to 104 with P 1,250,000 and P_min 937,500. -/
theorem test_debt : [1900000, 900000, 960000, 1000000, 1010000].foldl (fun (l : Nat × List (Nat × Nat)) a =>
      let q := periodQ 1250000 937500 l.1
      let d := debtAfter 1250000 l.1 q a
      (d, l.2 ++ [(q, d)])) (0, []) =
    (0, [(1250000, 650000), (937500, 337500), (937500, 47500), (1202500, 0), (1250000, 0)]) := by decide +kernel

/-- Chapter 6: the third block of the sequence, its first 32 dimensions. -/
theorem test_attention : (let z := zeros 31
    let sd := ({ fin := true, wFmt := fcE4M3, aFmt := fcE4M3, tLen := 1, kLen := 32, nLen := 3 } : AttJob).desc
    let vd := ({ wFmt := fcE4M3, aFmt := fcMXINT8, tLen := 1, kLen := 32, nLen := 32 } : AttJob).desc
    let p := (blockPartial sd vd 0 (-28) (-28) (dec32 0x3E000000) (decodeFloat fmtB16 0x3F80 :: List.replicate 31 (.fin 0 0))
      { k := [0x40 :: z, 0x40 :: z, 0xFE :: z], v := [0x3C :: z, 0x30 :: z, 0x7E :: z], ks := [], vs := [] }).1
    (p.m, p.l, p.o)) = (0x3E800000, 0x40000000, 0x40000000 :: List.replicate 31 0) := by decide +kernel

/-- The bytes of chapter 9's block, and the frequencies of its table. -/
def wRaw : List Byte := zeros 5 ++ [0x7E] ++ zeros 10
def wFreq : List Nat := 3840 :: (List.replicate 125 0 ++ 256 :: List.replicate 129 0)
/-- Chapter 9: the frequencies. -/
theorem test_codec_freq : frequencies (byteCounts wRaw) 16 = wFreq := by decide +kernel
/-- Chapter 9: the block encodes, decodes, and one symbol more is damaged. -/
theorem test_codec_block : ransEncode wFreq wRaw = [0x00, 0xA6, 0x0F, 0x15] ∧
    (ransDecode wFreq [0x00, 0xA6, 0x0F, 0x15] 16).toOption = some wRaw ∧
    (match ransDecode wFreq [0x00, 0xA6, 0x0F, 0x15] 17 with | .ok _ => 0 | .error c => c) = 6 := by decide +kernel

/-- Chapter 10: one sum, three shapes: the stage partials and the root in frame mode. -/
theorem test_pug_frame : (let t := fun c => termFrm 64 (-3) (decodeFloat fmtB16 c)
    let a := (t 0x4380).combine (t 0x3F80)
    let b := (t 0xC380).combine (t 0x3E40)
    (a.slot.take 8, b.slot.take 8, (encodeElem fcB16 (a.combine b).value).1)) =
    ([8, 8, 0, 0, 0, 0, 0, 0], [2, 0xF8, 0xFF, 0xFF, 0xFF, 0xFF, 0xFF, 0xFF], 0x3FA0) := by decide +kernel

/-- Chapter 11: the mean of three rows. -/
theorem test_mean : (({ w := 64, f := -8, s := 640 } : Machine.Frm).mean 3 fcB16).1 = 0x3F55 := by decide +kernel

/-- Chapter 16: header word 0 of the frame that reads `CAP_COUNTS`, and the response's body. -/
theorem test_jaesque : jqWord0 { ftype := 1, prot := true, sid := 2, len := 32, fseq := 0x17, tnode := 0xFFFF } = 0x0000FFFF17020241 ∧
    (readRegister (.operator 2) 0x14 { variant := .plf4af }).1 = 0x02440300 := by decide +kernel

/-- Chapter 18: the tweak of grain 17 of page 3 of region 0x7300. -/
theorem test_tweak : tweak { id := 0x7300 } (3 * 256 + 17) = [0x11, 3, 0, 0, 0, 0, 0, 0, 0, 0x73, 0, 0, 0, 0, 0, 0] := by decide +kernel

/-- Chapter 19: a total whose 64-bit count wrapped. -/
theorem test_meter : (match execTapTotal { kind := 1, saggar := 9, qty := 0, value := 0x30000 }
      { wUp with wd := { started := true, lasts := [((9, 0), 0xFFFFFFFFFFFB0000)], regs := [((9, 0), 7)] } } with
    | .next u => aget u.wd.regs (9, 0) 0
    | _ => 0) = 7 + 0x80000 := by decide +kernel

/-- Chapter 21: the stored entry. -/
theorem test_entry :
    (({ code := 0x0501, sev := 2, plane := .data, sag := some 9, unit := 3, suppressed := 3, mclk := 0x01204A10, step := 41209, lc := 0x00045C02, seq := 0x1A07, payload := [] } : LogEntry).bytes.take 32) =
    [0x0003000349020501, 0x01204A10, 0xA0F9, 0x00001A0700045C02].flatMap (natLe · 8) := by decide +kernel

/-- FIPS 202: SHAKE256 of the empty string. -/
theorem test_shake : (digest []).take 8 = [0x46, 0xb9, 0xdd, 0x2b, 0x0b, 0xa8, 0x8d, 0x13] := by decide +kernel

/-- CRC-32C of "123456789". -/
theorem test_crc : crc32c (ascii "123456789") = 0xE3069283 := by decide +kernel

/-! ## Ill-formed commands: each check of each command refuses one -/

theorem test_wf_Packet_1 : ([
    { dst := 65536 }, { src := 65536 }, { epoch := 65536 }, { opcode := 256 }, { saggar := 64 }, { offset := 2 ^ 48 },
    { cls := 8 }, { length := 1024 }, { seq := 2 ^ 24 }, { tag := 65536 }, { status := 16 }, { hint := 32 },
    { hops := 64 }, { lc := 2 ^ 32 }, { rsv := 256 }] : List Packet).all (fun c => !c.wf) = true := by decide +kernel

theorem test_wf_LinkFrame_1 : ([
    { ftype := 16 }, { fseq := 4096 }, { ack := 4096 }, { cls := 8 }, { body := 128 }, { srcNode := 65536 },
    { crSel0 := 16 }, { crTot0 := 4096 }, { crSel1 := 16 }, { crTot1 := 4096 }, { lc := 2 ^ 32 }, { digest := 2 ^ 64 },
    { lop := 16 }, { lane := 16 }, { atFseq := 4096 }] : List LinkFrame).all (fun c => !c.wf) = true := by decide +kernel

theorem test_wf_ExchBody_1 : ([
    { lver := 65536 }, { node := 65536 }, { role := 4 }, { port := 256 }, { digest := 2 ^ 64 }, { lc := 2 ^ 32 }] : List ExchBody).all (fun c => !c.wf) = true := by decide +kernel

theorem test_wf_JqFrame_1 : ([
    { ftype := 16 }, { mclass := 4 }, { sid := 8 }, { len := 2048 }, { fseq := 256 }, { tnode := 65536 },
    { ack := 256 }, { crCsr := 256 }, { crBulk := 256 }, { crEvent := 256 }, { crRecord := 256 }] : List JqFrame).all (fun c => !c.wf) = true := by decide +kernel

theorem test_wf_TapFrame_1 : ([
    { magic := 65536 }, { kind := 256 }, { saggar := 256 }, { qty := 256 }, { value := 2 ^ 64 }, { tseq := 2 ^ 32 },
    { sdBoot := 2 ^ 32 }] : List TapFrame).all (fun c => !c.wf) = true := by decide +kernel

theorem test_wf_Upset_1 : ([
    .product 32 0 0, .product 0 512 0, .adder 32 0] : List Upset).all (fun c => !c.wf) = true := by decide +kernel

theorem test_wf_MemUnit_1 : ([
    .ddr 16, .hbm 8, .hbmPc 8 0, .hbmPc 0 64] : List MemUnit).all (fun c => !c.wf) = true := by decide +kernel

theorem test_wf_FenceUnit_1 : ([
    .array 1536, .trimmer 128, .pug 16, .codec 8, .gather 8, .sieve 8, .port 64, .die 4, .flashDie 1024, .domain 65536,
    .composition (2 ^ 24), .memory (.hbm 8)] : List FenceUnit).all (fun c => !c.wf) = true := by decide +kernel

theorem test_wf_Who_1 : ([
    .operator 0, .operator 8, .tenant 0, .tenant 8, .trimmerUser 64 0, .trimmerUser 0 128, .trimmerFw 64 0,
    .trimmerFw 0 128] : List Who).all (fun c => !c.wf) = true := by decide +kernel

theorem test_wf_commands_1 : ([
    .csrWrite (.operator 8) 0 0, .csrWrite .management (2 ^ 40) 0, .counterLowRead (.operator 8) 0,
    .counterLowRead .management (2 ^ 40), .counterHighRead (.operator 8) 0, .counterHighRead .management (2 ^ 40),
    .witMirrorLowRead (.operator 8) 0, .witMirrorLowRead .management (2 ^ 40), .counterClear (.operator 8) 0 0,
    .counterClear .management (2 ^ 40) 0, .satFieldClear (.operator 8) 0 0, .satFieldClear .management (2 ^ 40) 0,
    .fenceArrival (.die 4) 0, .fenceArrival (.array 0) 16, .arrIssue 128 0 0, .arrIssue 0 32 0, .arrIssue 0 0 32,
    .arrIssueUnstall 128, .jobLoadStart 1536, .tileLoaded 1536, .groupComplete 65536, .groupAssemblyTimeout 65536,
    .rampRelease 4, .operandArrival 1536 0 0 true, .operandArrival 0 2 0 true, .operandArrival 0 0 (2 ^ 64) true,
    .streamToken 1536 .none, .streamToken 0 (.adder 32 0), .retryReloaded 1536, .streamComplete 1536,
    .jobCompletion 1536 0, .jobCompletion 0 2, .arrFenceWrite (.operator 8) 0, .arrFenceWrite .management 1536,
    .arrUnfence (.operator 8) 0, .arrUnfence .management 1536, .arrBistDone 1536 0, .arrayPowerOnBist 1536 0,
    .trimmerInstruction 128, .arrWait 128 0 0, .arrWait 0 32 0, .arrWait 0 0 32, .arrWaitWake 128, .arrWaitTimeout 128,
    .frmAddS 128 0 0 0, .frmAddS 0 32 0 0, .frmAddS 0 0 32 0, .frmAddS 0 0 0 32, .frmAddH 128 0 0 0, .frmAddH 0 32 0 0,
    .frmAddH 0 0 32 0, .frmAddH 0 0 0 32, .frmAddI 128 0 0 0, .frmAddI 0 32 0 0, .frmAddI 0 0 32 0, .frmAddI 0 0 0 32,
    .frmAddF 128 0 0 0, .frmAddF 0 32 0 0, .frmAddF 0 0 32 0, .frmAddF 0 0 0 32] : List Instr).all (fun c => !c.wf) = true := by decide +kernel

theorem test_wf_commands_2 : ([
    .frmFin 128 0 0 0, .frmFin 0 32 0 0, .frmFin 0 0 32 0, .frmFin 0 0 0 32, .rptRet 128 0 0, .rptRet 0 32 0,
    .rptRet 0 0 32, .shelfPin 128 0 0 0, .shelfPin 0 32 0 0, .shelfPin 0 0 32 0, .shelfPin 0 0 0 32,
    .shelfUnpin 128 0 0 0, .shelfUnpin 0 32 0 0, .shelfUnpin 0 0 32 0, .shelfUnpin 0 0 0 32, .sampleMark 128 0,
    .sampleMark 0 32, .windowLoad 128 0 0 0 true, .windowLoad 0 32 0 0 true, .windowLoad 0 0 (2 ^ 64) 0 true,
    .windowLoad 0 0 0 9 true, .windowStore 128 0 [], .windowStore 0 (2 ^ 64) [], .windowAmo 128 0 .add 0 0,
    .windowAmo 0 32 .add 0 0, .windowAmo 0 0 .add (2 ^ 64) 0, .windowRetryBackoff 128 0, .windowRetryBackoff 0 65536,
    .interruptTake 128, .upcallReturn 128, .rptHandlerFault 128 0 0, .rptHandlerFault 0 (2 ^ 64) 0,
    .rptHandlerFault 0 0 (2 ^ 64), .rptBudgetExhausted 128, .mainCodeFault 128 0 0, .mainCodeFault 0 (2 ^ 64) 0,
    .mainCodeFault 0 0 (2 ^ 64), .programSwapTimeout 64, .trmParityError 128 true 0, .trmParityError 0 true (2 ^ 64),
    .fwRestart (.operator 8) 0, .fwRestart .management 128, .trmFence (.operator 8) 0, .trmFence .management 128,
    .trmUnfence (.operator 8) 0, .trmUnfence .management 128, .trmBistDone 128 true, .trimmerEnterService 128,
    .stepTokenOpen { rsv := 256 }, .stepTokenEpDone { rsv := 256 }, .stepTokenClose { rsv := 256 },
    .stepTokenClosed { rsv := 256 }, .stepTokenAbort { rsv := 256 }, .leaderOpenDue { comp := 2 ^ 24 },
    .memberStepDrained (2 ^ 24), .recRingRoom (2 ^ 24), .dispatch { rsv := 256 }, .batchClosePoint 64 0,
    .batchClosePoint 0 256, .batchRun 64 0 0] : List Instr).all (fun c => !c.wf) = true := by decide +kernel

theorem test_wf_commands_3 : ([
    .batchRun 0 256 0, .batchRun 0 0 4096, .cutOff 64 0, .cutOff 0 256, .shelfTileStaged 64 0 0 0,
    .shelfTileStaged 0 256 0 0, .shelfTileStaged 0 0 4096 0, .shelfTileStaged 0 0 0 (2 ^ 20), .sealNow (.operator 8) 0,
    .sealNow .management 64, .replayEnter (.operator 8) 0, .replayEnter .management 64, .replayExit (.operator 8) 0,
    .replayExit .management 64, .replayRecord 64 [], .epWaitExpiry (2 ^ 24) 0, .epWaitExpiry 0 65536,
    .epLost (2 ^ 24) 0, .epLost 0 65536, .attend { rsv := 256 }, .attendBlockDone (2 ^ 32) 0 0,
    .attendBlockDone 0 (2 ^ 31) 0, .attendBlockDone 0 0 256, .regionCreate { rsv := 256 },
    .regionDelete { rsv := 256 }, .regionSeal { rsv := 256 }, .regionInfo { rsv := 256 }, .pageMovePassDone (2 ^ 32) 0,
    .pageMovePassDone 0 (2 ^ 31), .sweeperPass 5, .tierPromote (2 ^ 32) 0, .tierPromote 0 (2 ^ 31), .tierShort 64 0,
    .tierShort 0 5, .openVersion { rsv := 256 }, .closeVersion { rsv := 256 }, .publish { rsv := 256 },
    .moverJobStart 32, .moverJobComplete 32, .memoryChannelFence (.operator 8) (.ddr 0),
    .memoryChannelFence .management (.ddr 16), .hbmTrainingDone 8 true [], .dramTrainingDone 16 {},
    .tieThresholdWrite (.operator 8) 0 true 0, .tieThresholdWrite .management 64 true 0,
    .flashFrameWrite (2 ^ 38) 0 [] [], .flashFrameWrite 0 64 [] [], .pageProgramDone 1024 true,
    .programFailure 1024 true, .eraseFailure 1024 0, .eraseFailure 0 (2 ^ 24), .flashRead (2 ^ 40) 0 [] [],
    .flashRead 0 64 [] [], .gcVictimSelect 1024, .gcPageMove 1024 {}, .gcVictimErase 1024, .flashOpTimeout 1024,
    .flmDieFence (.operator 8) 0, .flmDieFence .management 1024, .flmDieUnfence (.operator 8) 0] : List Instr).all (fun c => !c.wf) = true := by decide +kernel

theorem test_wf_commands_4 : ([
    .flmDieUnfence .management 1024, .ordinaryDiscard (2 ^ 40) 0, .ordinaryDiscard 0 (2 ^ 32),
    .secureDiscard (2 ^ 40) 0, .secureDiscard 0 (2 ^ 32), .secureDiscardDone (2 ^ 40), .flmInit (List.replicate 33 {}),
    .codecEncode { rsv := 256 }, .codecDecode { rsv := 256 }, .codecBind { rsv := 256 }, .codecUnbind { rsv := 256 },
    .codecJobStart 8, .codecJobComplete 8, .cdcFence (.operator 8) 0, .cdcFence .management 8,
    .cdcUnfence (.operator 8) 0, .cdcUnfence .management 8, .collOpen { rsv := 256 }, .collCancel { rsv := 256 },
    .collInfo { rsv := 256 }, .collArm { rsv := 256 }, .collContrib 65 {} [], .collContrib 0 { rsv := 256 } [],
    .collContrib 0 {} [{}, {}, {}, {}], .collResult { rsv := 256 }, .collFree { rsv := 256 },
    .censusCall { rsv := 256 }, .combiningEntryClose (2 ^ 32), .pugFence (.operator 8) 0, .pugFence .management 16,
    .pugUnfence (.operator 8) 0 true, .pugUnfence .management 16 true, .gatherPool { rsv := 256 },
    .gatherPoolDone (2 ^ 32), .gatherMigrate { rsv := 256 }, .migrationCopyDone 64 0 0 true,
    .migrationCopyDone 0 64 0 true, .migrationCopyDone 0 0 (2 ^ 48) true, .sieveQuery { rsv := 256 },
    .sieveQueryDone (2 ^ 32), .sieveInsert { rsv := 256 }, .sieveDelete { rsv := 256 }, .sieveMerge { rsv := 256 },
    .sieveMergeSwitch 64 0, .sieveMergeSwitch 0 64, .sieveMergeCleanup 64 0, .sieveMergeCleanup 0 64,
    .gthFence (.operator 8) 0, .gthFence .management 8, .gthUnfence (.operator 8) 0, .gthUnfence .management 8,
    .sivFence (.operator 8) 0, .sivFence .management 8, .sivUnfence (.operator 8) 0, .sivUnfence .management 8,
    .packetArrival 65 {} {}, .packetArrival 0 { rsv := 256 } {}, .packetArrival 0 {} { lane := 16 }, .quotaRelease 64,
    .packetDepart 64] : List Instr).all (fun c => !c.wf) = true := by decide +kernel

theorem test_wf_commands_5 : ([
    .read { rsv := 256 }, .write { rsv := 256 } true, .atomicAdd { rsv := 256 } true, .atomicMin { rsv := 256 } true,
    .atomicMax { rsv := 256 } true, .atomicSwap { rsv := 256 } true, .atomicCas { rsv := 256 } true,
    .frameAdd { rsv := 256 } true, .frameAddF { rsv := 256 } true, .rpt { rsv := 256 }, .ack { rsv := 256 },
    .ackData { rsv := 256 }, .completionTimeout 65536, .nackBackoffExpiry 65536, .staleHoldTimeout 65536,
    .windowEntryExpiry 65536 0 0, .windowEntryExpiry 0 64 0, .windowEntryExpiry 0 0 (2 ^ 24),
    .fabCtrlWrite (.operator 8) 0, .hotRangeEntry (2 ^ 32) 0 0 0 0 0, .hotRangeEntry 0 65536 0 0 0 0,
    .hotRangeEntry 0 0 (2 ^ 48) 0 0 0, .hotRangeEntry 0 0 0 (2 ^ 32) 0 0, .hotRangeEntry 0 0 0 0 4 0,
    .hotRangeEntry 0 0 0 0 0 64, .mgmt { rsv := 256 }, .inval { rsv := 256 }, .birsp 64 0 0, .birsp 0 65536 0,
    .birsp 0 0 (2 ^ 48), .ownOffer { rsv := 256 }, .ownAccept { rsv := 256 }, .ownForce { rsv := 256 },
    .ownTransferTimeout (2 ^ 32), .cohCtrlWrite (.operator 8) 0, .domainFence 65536 0 true, .domainFence 0 8 true,
    .domainDirectoryCleared 65536 0, .domainDirectoryCleared 0 64, .shaperWrite (.operator 8) 0 0,
    .shaperWrite .management (2 ^ 40) 0, .packetAgeLimit (2 ^ 64), .confIdleTurn 64 0 true 0, .confIdleTurn 0 8 true 0,
    .confIdleTurn 0 0 true 64, .linkSignalDetect 64, .linkTrainDone 64 0, .linkTrainDone 0 512, .linkAlignDone 64,
    .linkExch 64 {}, .linkExch 0 { role := 4 }, .linkStateTimeout 64, .linkRetrainTimer 64, .linkIdleFrame 64 {},
    .linkIdleFrame 0 { lane := 16 }, .linkIdleDue 64, .linkReplayReq 64 {}, .linkReplayReq 0 { lane := 16 },
    .replayReqRepeat 64, .linkSilenceTimeout 64] : List Instr).all (fun c => !c.wf) = true := by decide +kernel

theorem test_wf_commands_6 : ([
    .digestMismatchTimeout 64, .fecLockLoss 64 0, .fecLockLoss 0 512, .laneLost 64 0, .laneLost 0 9, .lopReqSwap 64 0,
    .lopReqSwap 0 9, .lopMirrorOn 64 0, .lopMirrorOn 0 9, .mirrorMatched 64, .lopReady 64 0, .lopReady 0 9,
    .lopSwitchAt 64 0 0, .lopSwitchAt 0 9 0, .lopSwitchAt 0 0 4096, .laneMapSwitch 64, .lopReqRestore 64 0,
    .lopReqRestore 0 9, .lopEmergency 64 0 0, .lopEmergency 0 9 0, .lopEmergency 0 0 4096, .rotationVisit 64,
    .recalibrationDone 64 0 0, .recalibrationDone 0 1024 0, .recalibrationDone 0 0 256, .prtFence (.operator 8) 0,
    .prtFence .management 64, .prtUnfence (.operator 8) 0, .prtUnfence .management 64, .prtUnretire (.operator 8) 0,
    .prtUnretire .management 64, .rotNow (.operator 8) 0, .rotNow .management 64, .retrain (.operator 8) 0,
    .retrain .management 64, .memrd 64 0 0 0, .memrd 0 16 0 0, .memrd 0 0 (2 ^ 48) 0, .memrd 0 0 0 65536,
    .memwr 64 0 0 0 [], .memwr 0 16 0 0 [], .memwr 0 0 (2 ^ 48) 0 [], .memwr 0 0 0 65536 [], .cxlLinkDown 64,
    .modulePoll [{ port := 64 }], .moduleRemoval 64, .jqIdleFrame { sid := 8 }, .jqReplayReq { sid := 8 },
    .hello { sid := 8 } {}, .proof { sid := 8 } [], .sessionClose { sid := 8 }, .jqCsrRead { sid := 8 } 0 0 0,
    .jqCsrRead {} 256 0 0, .jqCsrRead {} 0 65536 0, .jqCsrRead {} 0 0 (2 ^ 40), .jqCsrWrite { sid := 8 } 0 0 0 [],
    .jqCsrWrite {} 256 0 0 [], .jqCsrWrite {} 0 65536 0 [], .jqCsrWrite {} 0 0 (2 ^ 40) [],
    .bulkBegin { sid := 8 } 0 0 0] : List Instr).all (fun c => !c.wf) = true := by decide +kernel

theorem test_wf_commands_7 : ([
    .bulkBegin {} 256 0 0, .bulkBegin {} 0 65536 0, .bulkBegin {} 0 0 (2 ^ 32), .bulkData { sid := 8 } 0 0 [],
    .bulkData {} 65536 0 [], .bulkData {} 0 (2 ^ 32) [], .bulkEnd { sid := 8 } 0 [], .bulkEnd {} 65536 [],
    .subscribe { sid := 8 } true 0, .subscribe {} true 16, .witnessRead { sid := 8 } 0 0, .witnessRead {} 64 0,
    .witnessRead {} 0 (2 ^ 64), .recordAck 64, .relayGapTimeout 8, .prepare 65536 0 [] [], .prepare 0 65536 [] [],
    .ready 65536 0, .ready 0 65536, .commit 65536 0, .commit 0 65536, .abandon 65536 0, .abandon 0 65536,
    .stagingTimeout 65536, .drained 65536 0, .drained 0 65536, .forceClose (.operator 8),
    .imgCtrlAbandon (.operator 8), .coordAlive 65536, .coordClaim 65536 0 0 0, .coordClaim 0 65536 0 0,
    .coordClaim 0 0 65536 0, .coordClaim 0 0 0 65536, .coordQuery 65536 0, .coordQuery 0 65536,
    .imgStore (.operator 8), .attest (.operator 8) 0, .attest .management 64, .attestDone 64, .keyLoad (.operator 8) 0,
    .keyLoad .management 64, .keyLoadDone 64, .keyErase (.operator 8) 0, .keyErase .management 64,
    .ephemeralKeyExpiry 64, .dcWrite (.operator 8), .logClear (.operator 8), .witnessFw (.operator 8),
    .release (.operator 8), .tapTotal { kind := 256 }, .tapLevel { kind := 256 }, .tapHeartbeat { kind := 256 },
    .tapPowerDown { kind := 256 }, .mportFrame 64 0 true, .mportFrame 0 (2 ^ 64) true, .heldReadRelease 65536,
    .probe 65536, .probeTimeout 65536, .nodeLost 65536, .join 65536] : List Instr).all (fun c => !c.wf) = true := by decide +kernel

theorem test_wf_commands_8 : ([
    .fwSwitch (.operator 8) 1, .fwSwitch .management 0, .fwSwitch .management 4, .fwCommit (.operator 8) 1,
    .fwCommit .management 0, .fwCommit .management 4, .fwRestartBudgetExpiry 0, .fwRestartBudgetExpiry 4,
    .dieUnfence (.operator 8) 0 true [] [] [], .dieUnfence .management 4 true [] [] [], .logStore (.operator 8),
    .logSlotFirstRead (.operator 8) 0, .logSlotFirstRead .management 32768, .railGroupTimeout 13,
    .orderlyPowerDown (.operator 8), .pmbusPoll [{ rail := 13 }], .pkgLimitWrite (.operator 8) 0,
    .thermalSensorRead 11 0, .thermalSensorRead 0 256, .thermalSkipStep 11, .i3cPrivateRead 65536,
    .trimmerFwRestartDone 128, .loadWarnNHigh 5, .memoryChannelUnfence (.operator 8) (.ddr 0),
    .memoryChannelUnfence .management (.ddr 16), .cxlLinkUp 64 0 0, .cxlLinkUp 0 65 0, .cxlLinkUp 0 0 17,
    .tapInstruction 256] : List Instr).all (fun c => !c.wf) = true := by decide +kernel

/-! ## Witnesses

`test_wit_<Name>` gives, for each clause of `Obligations.<Name>` that has hypotheses, values that meet all of
them together. A witness under a hypothesis about an opaque constant of Config holds for every value of it
that satisfies that hypothesis. -/

theorem test_wit_StepRunsFront :
    (∃ (c : Instr) (rest : List Instr) (s : State), s.pending = c :: rest) ∧
    (∃ (s : State), s.pending = []) :=
  ⟨⟨.cpRestart, ([] : List Instr), ({ wUp with pending := [.cpRestart] } : State), by first | decide +kernel | rfl | (unfold canRetire hasBudget; decide +kernel) | (unfold hasBudget; decide +kernel) | simp⟩,
  ⟨wUp, by first | decide +kernel | rfl | (unfold canRetire hasBudget; decide +kernel) | (unfold hasBudget; decide +kernel) | simp⟩⟩

theorem test_wit_CommandsComplete :
    (∃ (c : Instr), c.wf = true) ∧
    (∃ (c : Instr), c.wf = false) :=
  ⟨⟨(.thermalSensorRead 10 255 : Instr), by first | decide +kernel | rfl | (unfold canRetire hasBudget; decide +kernel) | (unfold hasBudget; decide +kernel) | simp⟩,
  ⟨(.thermalSensorRead 11 255 : Instr), by first | decide +kernel | rfl | (unfold canRetire hasBudget; decide +kernel) | (unfold hasBudget; decide +kernel) | simp⟩⟩

theorem test_wit_ResetValues :
    (∃ (p : _), p < 64) ∧
    (∃ (d : _) (i : _), (d < 4) ∧ (i < 384)) ∧
    (∃ (t : _), t < 128) ∧
    (∃ (c : _), c < 16) ∧
    (∃ (k : _), k < 8) ∧
    (∃ (r : _), r < 13) :=
  ⟨⟨63, by first | decide +kernel | rfl | (unfold canRetire hasBudget; decide +kernel) | (unfold hasBudget; decide +kernel) | simp⟩,
  ⟨3, 383, by refine ⟨?_, ?_⟩ <;> first | decide +kernel | rfl | (unfold canRetire hasBudget; decide +kernel) | (unfold hasBudget; decide +kernel) | simp⟩,
  ⟨127, by first | decide +kernel | rfl | (unfold canRetire hasBudget; decide +kernel) | (unfold hasBudget; decide +kernel) | simp⟩,
  ⟨15, by first | decide +kernel | rfl | (unfold canRetire hasBudget; decide +kernel) | (unfold hasBudget; decide +kernel) | simp⟩,
  ⟨7, by first | decide +kernel | rfl | (unfold canRetire hasBudget; decide +kernel) | (unfold hasBudget; decide +kernel) | simp⟩,
  ⟨12, by first | decide +kernel | rfl | (unfold canRetire hasBudget; decide +kernel) | (unfold hasBudget; decide +kernel) | simp⟩⟩

theorem test_wit_PoolMemory :
    (∃ (m : List Host.Cell) (a : _) (l : List Byte) (k : _), (Memory.wf m) ∧ (k < a ∨ a + l.length ≤ k)) ∧
    (∃ (m : List Host.Cell), Memory.wf m) ∧
    (∃ (m : List Host.Cell), Memory.wf m) ∧
    (∃ (m : List Host.Cell) (m' : _), (Memory.wf m) ∧ (Memory.wf m') ∧ ((∀ k, memGet m k = memGet m' k))) :=
  ⟨⟨([(3, 1)] : List Host.Cell), 2, ([0, 5] : List Byte), 4, by refine ⟨?_, ?_⟩ <;> first | decide +kernel | rfl | (unfold canRetire hasBudget; decide +kernel) | (unfold hasBudget; decide +kernel) | simp⟩,
  ⟨([(3, 1)] : List Host.Cell), by first | decide +kernel | rfl | (unfold canRetire hasBudget; decide +kernel) | (unfold hasBudget; decide +kernel) | simp⟩,
  ⟨([(3, 1)] : List Host.Cell), by first | decide +kernel | rfl | (unfold canRetire hasBudget; decide +kernel) | (unfold hasBudget; decide +kernel) | simp⟩,
  ⟨([(3, 1)] : List Host.Cell), [(3, 1)], ⟨by decide, by decide, fun _ => rfl⟩⟩⟩

theorem test_wit_SettledKept :
    (∃ (s : State) (t : State), (Settled s) ∧ (step s = .next t)) :=
  ⟨({ now := 5 } : State), ({ now := 6 } : State), ⟨⟨fun h => absurd h (by decide), fun h => absurd rfl h, by decide, by decide⟩, rfl⟩⟩

theorem test_wit_SampleMark :
    (∃ (s : State) (t : Nat) (rs1 : _) (c : _), (t < 128) ∧ (rs1 < 32) ∧ (canRetire t s) ∧ (c = { s.runCtx t with pc := (s.rpc t + 4) % 2 ^ 64 })) ∧
    (∃ (s : State) (t : Nat) (e : _), (t < 128) ∧ (t < s.variant.trimmers) ∧ ((s.trmOf t).fence.on = false) ∧ ((s.trmOf t).fwDown = false) ∧ (2 ≤ (s.trmOf t).mode) ∧ ((s.trmOf t).run = .main) ∧ ((s.trmOf t).swap = none) ∧ ((s.trmOf t).blocked = false) ∧ ((s.trmOf t).xuvec ≠ 0) ∧ ((s.trmOf t).rptq = []) ∧ ((s.trmOf t).upcalls = [e]) ∧ (e.mcause = 18) ∧ (e.since.isSome = true)) :=
  ⟨⟨(wTrm wMain : State), 0, 31, { (wTrm wMain).runCtx 0 with pc := 0x9004 }, by refine ⟨?_, ?_, ?_, ?_⟩ <;> first | decide +kernel | rfl | (unfold canRetire hasBudget; decide +kernel) | (unfold hasBudget; decide +kernel) | simp⟩,
  ⟨(wTrm { wMain with xuvec := 0x9000, upcalls := [{ mcause := 18, a1 := 3, since := some 1 }] } : State), 0, { mcause := 18, a1 := 3, since := some 1 }, by refine ⟨?_, ?_, ?_, ?_, ?_, ?_, ?_, ?_, ?_, ?_, ?_, ?_, ?_⟩ <;> first | decide +kernel | rfl | (unfold canRetire hasBudget; decide +kernel) | (unfold hasBudget; decide +kernel) | simp⟩⟩

theorem test_wit_ValueRegisters :
    (∃ (s : State) (a : Nat) (v : Nat), (∃ g, g < 64 ∧ a = 0x0701008 + 0x100 * g ∧ v = (aget s.sit g {}).step) ∨ (a = 0x0080040 ∧ v = (aget s.ctr a {}).count) ∨ (a = 0x1400030 ∧ v = (aget s.ctr a {}).count)) ∧
    (∃ (s : State) (a : Nat) (v : Nat) (who : Who) (b : _), ((∃ g, g < 64 ∧ a = 0x0701008 + 0x100 * g ∧ v = (aget s.sit g {}).step) ∨ (a = 0x0080040 ∧ v = (aget s.ctr a {}).count) ∨ (a = 0x1400030 ∧ v = (aget s.ctr a {}).count)) ∧ (who.wf = true) ∧ (b = a ∨ b = a + 4)) :=
  ⟨⟨wUp, 0x0080040, 0, Or.inr (Or.inl (by decide))⟩,
  ⟨wUp, 0x0704F08, 0, .bmc, 0x0704F0C, ⟨Or.inl ⟨63, by decide⟩, by decide, by decide⟩⟩⟩

theorem test_wit_CsrOrder :
    (∃ (who : Who) (a : Nat), (who.wf = true) ∧ (a < 2 ^ 40) ∧ (a % 4 ≠ 0)) ∧
    (∃ (who : Who) (a : Nat) (s : State), (who.wf = true) ∧ (a < 2 ^ 40) ∧ (a % 4 = 0) ∧ (s.csrAbsent a = true)) ∧
    (∃ (who : Who) (a : Nat) (s : State), (who.wf = true) ∧ (a < 2 ^ 40) ∧ (a % 4 = 0) ∧ (s.csrAbsent a = false) ∧ (s.granted who a false = false)) ∧
    (∃ (who : Who) (a : Nat) (s : State), (who.wf = true) ∧ (a < 2 ^ 40) ∧ (a % 4 = 0) ∧ (s.csrAbsent a = false) ∧ (s.granted who a true = false)) ∧
    (∃ (who : Who) (a : Nat) (s : State), (who.wf = true) ∧ (a < 2 ^ 40) ∧ (a = 0x0040010) ∧ (s.csrAbsent a = false)) :=
  ⟨⟨.management, (2 ^ 40 - 1 : Nat), by refine ⟨?_, ?_, ?_⟩ <;> first | decide +kernel | rfl | (unfold canRetire hasBudget; decide +kernel) | (unfold hasBudget; decide +kernel) | simp⟩,
  ⟨.management, 0x1400000, ({ wUp with variant := .plf8a } : State), by refine ⟨?_, ?_, ?_, ?_⟩ <;> first | decide +kernel | rfl | (unfold canRetire hasBudget; decide +kernel) | (unfold hasBudget; decide +kernel) | simp⟩,
  ⟨.bmc, 0, wUp, by refine ⟨?_, ?_, ?_, ?_, ?_⟩ <;> first | decide +kernel | rfl | (unfold canRetire hasBudget; decide +kernel) | (unfold hasBudget; decide +kernel) | simp⟩,
  ⟨.control, 0x0040010, wUp, by refine ⟨?_, ?_, ?_, ?_, ?_⟩ <;> first | decide +kernel | rfl | (unfold canRetire hasBudget; decide +kernel) | (unfold hasBudget; decide +kernel) | simp⟩,
  ⟨(.operator 1 : Who), 0x0040010, wUp, by refine ⟨?_, ?_, ?_, ?_⟩ <;> first | decide +kernel | rfl | (unfold canRetire hasBudget; decide +kernel) | (unfold hasBudget; decide +kernel) | simp⟩⟩

theorem test_wit_CounterLatch :
    (∃ (who : Who) (a : Nat) (s : State), (who.wf = true) ∧ (a < 2 ^ 40) ∧ (s.csrGate who a false = none) ∧ ((s.ctrClass a).isSome = true)) ∧
    (∃ (who : Who) (a : Nat) (s : State) (w : _), (who.wf = true) ∧ (a < 2 ^ 40) ∧ (s.csrGate who a false = none) ∧ (s.ctrClass a = none) ∧ (isMirrorLow a = false) ∧ ((aget s.arch.latches who []).find? (fun p => p.1 = a) = some (a, w))) ∧
    (∃ (who : Who) (a : Nat) (s : State), (who.wf = true) ∧ (a < 2 ^ 40) ∧ (s.csrGate who a false = none) ∧ (4 ≤ a) ∧ (s.ctrClass a = none) ∧ ((s.ctrClass (a - 4)).isSome = true) ∧ ((aget s.arch.latches who []).find? (fun p => p.1 = a) = none)) ∧
    (∃ (who : Who) (a : Nat) (s : State) (v : _), (who.wf = true) ∧ (a < 2 ^ 40) ∧ (s.csrGate who a false = none) ∧ (isMirrorLow a = true) ∧ (v = s.mirrorValue ((a - 0x1F01000) / 0x100) (a % 0x100 / 16))) :=
  ⟨⟨.management, 0x0020010, wUp, by refine ⟨?_, ?_, ?_, ?_⟩ <;> first | decide +kernel | rfl | (unfold canRetire hasBudget; decide +kernel) | (unfold hasBudget; decide +kernel) | simp⟩,
  ⟨.management, 0x0020014, ({ wUp with arch := { latches := [(.management, [(0x0020014, 7)])] } } : State), 7, by refine ⟨?_, ?_, ?_, ?_, ?_, ?_⟩ <;> first | decide +kernel | rfl | (unfold canRetire hasBudget; decide +kernel) | (unfold hasBudget; decide +kernel) | simp⟩,
  ⟨.management, 0x0020014, wUp, by refine ⟨?_, ?_, ?_, ?_, ?_, ?_, ?_⟩ <;> first | decide +kernel | rfl | (unfold canRetire hasBudget; decide +kernel) | (unfold hasBudget; decide +kernel) | simp⟩,
  ⟨.management, 0x1F01000, wUp, State.mirrorValue wUp 0 0, by refine ⟨?_, ?_, ?_, ?_, ?_⟩ <;> first | decide +kernel | rfl | (unfold canRetire hasBudget; decide +kernel) | (unfold hasBudget; decide +kernel) | simp⟩⟩

theorem test_wit_CounterClear :
    (∃ (who : Who) (a : Nat) (s : State) (c : CtrClass), (who.wf = true) ∧ (a < 2 ^ 40) ∧ (s.csrGate who a true = none) ∧ (s.ctrClass a = some c) ∧ (c = .value)) ∧
    (∃ (who : Who) (a : Nat) (v : Word32) (s : State) (c : CtrClass), (who.wf = true) ∧ (a < 2 ^ 40) ∧ (s.csrGate who a true = none) ∧ (s.ctrClass a = some c) ∧ (c ≠ .value) ∧ (mayClear who = true) ∧ (v = 0)) ∧
    (∃ (who : Who) (a : Nat) (v : Word32) (s : State) (c : CtrClass), (who.wf = true) ∧ (a < 2 ^ 40) ∧ (s.csrGate who a true = none) ∧ (s.ctrClass a = some c) ∧ (c ≠ .value) ∧ (mayClear who = true) ∧ (v ≠ 0)) ∧
    (∃ (who : Who) (a : Nat) (s : State) (c : CtrClass), (who.wf = true) ∧ (a < 2 ^ 40) ∧ (s.csrGate who a true = none) ∧ (s.ctrClass a = some c) ∧ (c ≠ .value) ∧ (mayClear who = false)) ∧
    (∃ (who : Who) (a : Nat) (s : State) (c : CtrClass), (who.wf = true) ∧ (a < 2 ^ 40) ∧ (s.csrGate who a true = none) ∧ (s.ctrClass a = some c) ∧ (mayClear who = true) ∧ (s.csrGate who (a + 4) true = none) ∧ (s.ctrClass (a + 4) = none) ∧ (a + 4 < 2 ^ 40)) :=
  ⟨⟨.management, 0x1400030, wUp, .value, by refine ⟨?_, ?_, ?_, ?_, ?_⟩ <;> first | decide +kernel | rfl | (unfold canRetire hasBudget; decide +kernel) | (unfold hasBudget; decide +kernel) | simp⟩,
  ⟨.management, 0x0020010, 0, wUp, .count, by refine ⟨?_, ?_, ?_, ?_, ?_, ?_, ?_⟩ <;> first | decide +kernel | rfl | (unfold canRetire hasBudget; decide +kernel) | (unfold hasBudget; decide +kernel) | simp⟩,
  ⟨.management, 0x0020010, 1, wUp, .count, by refine ⟨?_, ?_, ?_, ?_, ?_, ?_, ?_⟩ <;> first | decide +kernel | rfl | (unfold canRetire hasBudget; decide +kernel) | (unfold hasBudget; decide +kernel) | simp⟩,
  ⟨(.trimmerFw 0 0 : Who), 0x0C00010, wUp, (.own none : CtrClass), by refine ⟨?_, ?_, ?_, ?_, ?_, ?_⟩ <;> first | decide +kernel | rfl | (unfold canRetire hasBudget; decide +kernel) | (unfold hasBudget; decide +kernel) | simp⟩,
  ⟨(.operator 1 : Who), 0x0020010, wUp, .count, by refine ⟨?_, ?_, ?_, ?_, ?_, ?_, ?_, ?_⟩ <;> first | decide +kernel | rfl | (unfold canRetire hasBudget; decide +kernel) | (unfold hasBudget; decide +kernel) | simp⟩⟩

theorem test_wit_SatFields :
    (∃ (who : Who) (a : Nat) (s : State), (who.wf = true) ∧ (a < 2 ^ 40) ∧ (s.csrGate who a true = none)) :=
  ⟨.management, 0x0020004, wUp, by refine ⟨?_, ?_, ?_⟩ <;> first | decide +kernel | rfl | (unfold canRetire hasBudget; decide +kernel) | (unfold hasBudget; decide +kernel) | simp⟩

theorem test_wit_RegisterWrite :
    (∃ (who : Who) (s : State), (who.wf = true) ∧ (s.csrGate who 0x0080008 true = none)) ∧
    (∃ (who : Who) (s : State), (who.wf = true) ∧ (s.csrGate who 0x0050000 true = none)) ∧
    (∃ (who : Who) (s : State) (g : _), (who.wf = true) ∧ (g < 64) ∧ (s.csrGate who (0x0100200 + 4 * g) true = none)) ∧
    (∃ (who : Who) (s : State), (who.wf = true) ∧ (s.csrGate who 0 true = none)) :=
  ⟨⟨(.operator 1 : Who), wUp, by refine ⟨?_, ?_⟩ <;> first | decide +kernel | rfl | (unfold canRetire hasBudget; decide +kernel) | (unfold hasBudget; decide +kernel) | simp⟩,
  ⟨(.operator 1 : Who), wUp, by refine ⟨?_, ?_⟩ <;> first | decide +kernel | rfl | (unfold canRetire hasBudget; decide +kernel) | (unfold hasBudget; decide +kernel) | simp⟩,
  ⟨(.operator 1 : Who), wUp, 63, by refine ⟨?_, ?_, ?_⟩ <;> first | decide +kernel | rfl | (unfold canRetire hasBudget; decide +kernel) | (unfold hasBudget; decide +kernel) | simp⟩,
  ⟨(.operator 1 : Who), wUp, by refine ⟨?_, ?_⟩ <;> first | decide +kernel | rfl | (unfold canRetire hasBudget; decide +kernel) | (unfold hasBudget; decide +kernel) | simp⟩⟩

theorem test_wit_PlaneRestarts_1 :
    (∃ (s : State), s.arch.cp = .run) ∧
    (∃ (s : State), s.arch.cp ≠ .run) ∧
    (∃ (s : State), s.arch.mp = .run) ∧
    (∃ (s : State), s.arch.mp ≠ .run) ∧
    (∃ (s : State), (s.arch.mp = .restart) ∧ ((s.fw 1).switching = false)) ∧
    (∃ (s : State), (s.arch.mp = .restart) ∧ ((s.fw 1).switching = true) ∧ ((s.fw 1).deadline.isSome = true)) ∧
    (∃ (s : State), s.arch.mp ≠ .restart) ∧
    (∃ (s : State), (s.arch.cp = .restart) ∧ ((s.fw 2).switching = false) ∧ (s.coh.heldFences = []) ∧ (s.img.commitHeld = none)) :=
  ⟨⟨wUp, by first | decide +kernel | rfl | (unfold canRetire hasBudget; decide +kernel) | (unfold hasBudget; decide +kernel) | simp⟩,
  ⟨(({} : State) : State), by first | decide +kernel | rfl | (unfold canRetire hasBudget; decide +kernel) | (unfold hasBudget; decide +kernel) | simp⟩,
  ⟨wUp, by first | decide +kernel | rfl | (unfold canRetire hasBudget; decide +kernel) | (unfold hasBudget; decide +kernel) | simp⟩,
  ⟨(({} : State) : State), by first | decide +kernel | rfl | (unfold canRetire hasBudget; decide +kernel) | (unfold hasBudget; decide +kernel) | simp⟩,
  ⟨({ wUp with arch := { mp := .restart } } : State), by refine ⟨?_, ?_⟩ <;> first | decide +kernel | rfl | (unfold canRetire hasBudget; decide +kernel) | (unfold hasBudget; decide +kernel) | simp⟩,
  ⟨({ wUp with arch := { mp := .restart }, erc := { fw := [(1, { switching := true, deadline := some 9 })] } } : State), by refine ⟨?_, ?_, ?_⟩ <;> first | decide +kernel | rfl | (unfold canRetire hasBudget; decide +kernel) | (unfold hasBudget; decide +kernel) | simp⟩,
  ⟨wUp, by first | decide +kernel | rfl | (unfold canRetire hasBudget; decide +kernel) | (unfold hasBudget; decide +kernel) | simp⟩,
  ⟨({ wUp with arch := { cp := .restart } } : State), by refine ⟨?_, ?_, ?_, ?_⟩ <;> first | decide +kernel | rfl | (unfold canRetire hasBudget; decide +kernel) | (unfold hasBudget; decide +kernel) | simp⟩⟩

theorem test_wit_PlaneRestarts_2 :
    (∃ (s : State), s.arch.cp ≠ .restart) :=
  ⟨wUp, by first | decide +kernel | rfl | (unfold canRetire hasBudget; decide +kernel) | (unfold hasBudget; decide +kernel) | simp⟩

theorem test_wit_FenceSignals :
    (∃ (s : State) (cause : Nat) (t : _), (cause < 16) ∧ (t < s.variant.trimmers) ∧ ((s.trmOf t).fence.on = false)) ∧
    (∃ (s : State) (cause : Nat) (t : _), (cause < 16) ∧ (t < 128) ∧ (s.variant.trimmers ≤ t ∨ (s.trmOf t).fence.on = true)) ∧
    (∃ (s : State) (cause : Nat) (p : _), (cause < 16) ∧ (p < 64) ∧ ((s.port p).lst < 4) ∧ (s.portRole p ≠ 3)) ∧
    (∃ (s : State) (cause : Nat) (d : _), (cause < 16) ∧ (d < 65536) ∧ (s.arch.cp = .restart)) :=
  ⟨⟨({ wUp with trm := [(127, { fence := {} })] } : State), 15, 127, by refine ⟨?_, ?_, ?_⟩ <;> first | decide +kernel | rfl | (unfold canRetire hasBudget; decide +kernel) | (unfold hasBudget; decide +kernel) | simp⟩,
  ⟨wUp, 15, 127, by refine ⟨?_, ?_, ?_⟩ <;> first | decide +kernel | rfl | (unfold canRetire hasBudget; decide +kernel) | (unfold hasBudget; decide +kernel) | simp⟩,
  ⟨wUp, 15, 63, by refine ⟨?_, ?_, ?_, ?_⟩ <;> first | decide +kernel | rfl | (unfold canRetire hasBudget; decide +kernel) | (unfold hasBudget; decide +kernel) | simp⟩,
  ⟨({ wUp with arch := { cp := .restart } } : State), 15, 65535, by refine ⟨?_, ?_, ?_⟩ <;> first | decide +kernel | rfl | (unfold canRetire hasBudget; decide +kernel) | (unfold hasBudget; decide +kernel) | simp⟩⟩

theorem test_wit_ArrayJobLoads_1 :
    (∃ (s : State) (a : Nat) (q : Nat) (j : ArrJob), (a < 1536) ∧ (s.job a q = some j) ∧ (s.earlier a q = none) ∧ (s.firstIn a 1 = some q) ∧ (dKeep j.desc = false)) ∧
    (∃ (s : State) (a : Nat) (q : Nat) (j : ArrJob) (t : _), (a < 1536) ∧ (s.job a q = some j) ∧ (s.earlier a q = none) ∧ (s.firstIn a 1 = some q) ∧ (dKeep j.desc = true) ∧ ((s.arr a).kept = some t) ∧ (t.st = 1) ∧ (t.saggar = dSaggar j.desc) ∧ (t.cls = dCls j.desc)) ∧
    (∃ (s : State) (a : Nat) (q : Nat) (j : ArrJob) (t : _), (a < 1536) ∧ (s.job a q = some j) ∧ (s.earlier a q = none) ∧ (s.firstIn a 1 = some q) ∧ (dKeep j.desc = true) ∧ ((s.arr a).kept = some t) ∧ (t.st = 2)) ∧
    (∃ (s : State) (a : Nat) (q : Nat) (j : ArrJob), (a < 1536) ∧ (s.job a q = some j) ∧ (s.earlier a q = none) ∧ (s.firstIn a 1 = some q) ∧ (dKeep j.desc = true) ∧ ((∀ t, (s.arr a).kept = some t → t.st ≠ 2 ∧ (t.st ≠ 1 ∨ t.saggar ≠ dSaggar j.desc ∨ t.cls ≠ dCls j.desc)))) ∧
    (∃ (s : State) (a : Nat) (q : Nat) (j : ArrJob) (r : _) (R : _), (a < 1536) ∧ (s.job a q = some j) ∧ (s.earlier a q = none) ∧ (operandsGood s j) ∧ (j.held = false) ∧ (j.tok = 0) ∧ (j.stage = []) ∧ (s.firstIn a 2 = some q) ∧ (j.loaded = false) ∧ (j.group = none) ∧ (r = s.rampOf a (dSaggar j.desc)) ∧ (R = aget s.arrs.ramp r.1 {}) ∧ (R.held = []) ∧ (s.rampStarts r.1 < r.2)) ∧
    (∃ (s : State) (a : Nat) (q : Nat) (j : ArrJob) (r : _) (R : _), (a < 1536) ∧ (s.job a q = some j) ∧ (s.earlier a q = none) ∧ (operandsGood s j) ∧ (j.held = false) ∧ (j.tok = 0) ∧ (j.stage = []) ∧ (s.firstIn a 2 = some q) ∧ (j.loaded = false) ∧ (j.group = none) ∧ (r = s.rampOf a (dSaggar j.desc)) ∧ (R = aget s.arrs.ramp r.1 {}) ∧ (R.held = []) ∧ (r.2 ≤ s.rampStarts r.1)) ∧
    (∃ (s : State) (a : Nat) (q : Nat) (j : ArrJob) (x : _), (a < 1536) ∧ (s.job a q = some j) ∧ (s.earlier a q = none) ∧ (operandsGood s j) ∧ (j.held = false) ∧ (j.tok = 0) ∧ (j.stage = []) ∧ (s.firstIn a 2 = some q) ∧ (j.loaded = false) ∧ (j.group = some x.id) ∧ (s.groupOf x.id = some x) ∧ (x.closed = false)) ∧
    (∃ (s : State) (a : Nat) (q : Nat) (j : ArrJob) (r : _) (R : _), (a < 1536) ∧ (s.job a q = some j) ∧ (s.earlier a q = none) ∧ (operandsGood s j) ∧ (j.held = false) ∧ (j.tok = 0) ∧ (j.stage = []) ∧ (s.firstIn a 5 = some q) ∧ (r = s.rampOf a (dSaggar j.desc)) ∧ (R = aget s.arrs.ramp r.1 {}) ∧ (R.held = []) ∧ (s.rampStarts r.1 < r.2)) :=
  ⟨⟨(wJob { desc := wDesc } : State), 0, 0, ({ desc := wDesc } : ArrJob), by refine ⟨?_, ?_, ?_, ?_, ?_⟩ <;> first | decide +kernel | rfl | (unfold canRetire hasBudget; decide +kernel) | (unfold hasBudget; decide +kernel) | simp⟩,
  ⟨(wArr { slots := [(0, { desc := wKeep })], kept := some { st := 1 } } : State), 0, 0, ({ desc := wKeep } : ArrJob), { st := 1 }, by refine ⟨?_, ?_, ?_, ?_, ?_, ?_, ?_, ?_, ?_⟩ <;> first | decide +kernel | rfl | (unfold canRetire hasBudget; decide +kernel) | (unfold hasBudget; decide +kernel) | simp⟩,
  ⟨(wArr { slots := [(0, { desc := wKeep })], kept := some { st := 2 } } : State), 0, 0, ({ desc := wKeep } : ArrJob), { st := 2 }, by refine ⟨?_, ?_, ?_, ?_, ?_, ?_, ?_⟩ <;> first | decide +kernel | rfl | (unfold canRetire hasBudget; decide +kernel) | (unfold hasBudget; decide +kernel) | simp⟩,
  ⟨(wJob { desc := wKeep } : State), 0, 0, ({ desc := wKeep } : ArrJob), by refine ⟨?_, ?_, ?_, ?_, ?_, fun t h => absurd h (by revert h; revert t; simp [wJob, wArr, State.arr, aget, afind])⟩ <;> first | decide +kernel | rfl | (unfold canRetire hasBudget; decide +kernel) | (unfold hasBudget; decide +kernel) | simp⟩,
  ⟨(wJob { desc := wDesc, st := 2 } : State), 0, 0, ({ desc := wDesc, st := 2 } : ArrJob), (0, 64), {}, by refine ⟨?_, ?_, ?_, test_wGoodOps _ _ rfl, ?_, ?_, ?_, ?_, ?_, ?_, ?_, ?_, ?_, ?_⟩ <;> first | decide +kernel | rfl | (unfold canRetire hasBudget; decide +kernel) | (unfold hasBudget; decide +kernel) | simp⟩,
  ⟨({ wJob { desc := wDesc, st := 2 } with arrs := { arr := [(0, { slots := [(0, { desc := wDesc, st := 2 })] })], ramp := [(0, { starts := List.replicate 64 0 })] } } : State), 0, 0, ({ desc := wDesc, st := 2 } : ArrJob), (0, 64), { starts := List.replicate 64 0 }, by refine ⟨?_, ?_, ?_, test_wGoodOps _ _ rfl, ?_, ?_, ?_, ?_, ?_, ?_, ?_, ?_, ?_, ?_⟩ <;> first | decide +kernel | rfl | (unfold canRetire hasBudget; decide +kernel) | (unfold hasBudget; decide +kernel) | simp⟩,
  ⟨({ wUp with arrs := { arr := [(0, { slots := [(0, { desc := wDesc, st := 2, group := some 3 })] })], groups := [{ id := 3 }] } } : State), 0, 0, ({ desc := wDesc, st := 2, group := some 3 } : ArrJob), { id := 3 }, by refine ⟨?_, ?_, ?_, test_wGoodOps _ _ rfl, ?_, ?_, ?_, ?_, ?_, ?_, ?_, ?_⟩ <;> first | decide +kernel | rfl | (unfold canRetire hasBudget; decide +kernel) | (unfold hasBudget; decide +kernel) | simp⟩,
  ⟨(wJob { desc := wDesc, st := 5 } : State), 0, 0, ({ desc := wDesc, st := 5 } : ArrJob), (0, 64), {}, by refine ⟨?_, ?_, ?_, test_wGoodOps _ _ rfl, ?_, ?_, ?_, ?_, ?_, ?_, ?_, ?_⟩ <;> first | decide +kernel | rfl | (unfold canRetire hasBudget; decide +kernel) | (unfold hasBudget; decide +kernel) | simp⟩⟩

theorem test_wit_ArrayJobLoads_2 :
    (∃ (s : State) (a : Nat) (q : Nat) (j : ArrJob) (r : _) (R : _), (a < 1536) ∧ (s.job a q = some j) ∧ (s.earlier a q = none) ∧ (operandsGood s j) ∧ (j.held = false) ∧ (j.tok = 0) ∧ (j.stage = []) ∧ (s.firstIn a 5 = some q) ∧ (r = s.rampOf a (dSaggar j.desc)) ∧ (R = aget s.arrs.ramp r.1 {}) ∧ (R.held = []) ∧ (r.2 ≤ s.rampStarts r.1)) :=
  ⟨({ wJob { desc := wDesc, st := 5 } with arrs := { arr := [(0, { slots := [(0, { desc := wDesc, st := 5 })] })], ramp := [(0, { starts := List.replicate 64 0 })] } } : State), 0, 0, ({ desc := wDesc, st := 5 } : ArrJob), (0, 64), { starts := List.replicate 64 0 }, by refine ⟨?_, ?_, ?_, test_wGoodOps _ _ rfl, ?_, ?_, ?_, ?_, ?_, ?_, ?_, ?_⟩ <;> first | decide +kernel | rfl | (unfold canRetire hasBudget; decide +kernel) | (unfold hasBudget; decide +kernel) | simp⟩

theorem test_wit_GroupsAndRamps :
    (∃ (s : State) (gid : Nat) (x : Group), (gid < 65536) ∧ (s.arrs.groups.filter (fun y => y.gid = gid && !y.closed && decide (y.n ≤ y.waiting.length)) = [x])) ∧
    (∃ (s : State) (gid : Nat) (x : Group) (d : _), (gid < 65536) ∧ (s.arrs.groups.filter (fun y => y.gid = gid && !y.closed && y.deadline.isSome) = [x]) ∧ (x.deadline = some d)) ∧
    (∃ (s : State) (t : State) (gid : Nat) (x : Group), (gid < 65536) ∧ (x.waiting.Nodup) ∧ ((∀ p ∈ x.waiting, p.1 < 1536 ∧ (s.job p.1 p.2).isSome = true)) ∧ (t.confAny = false) ∧ ((∀ die, die < 4 → (aget t.arrs.ramp die {}).held = [] ∧ t.rampStarts die + countIf x.waiting (fun p => arrDie p.1 = die) ≤ t.nodeParam 0x0208)) ∧ (t = s) ∧ (s.arrs.groups.filter (fun y => y.gid = gid && !y.closed && decide (y.n ≤ y.waiting.length)) = [x])) ∧
    (∃ (s : State) (t : State) (gid : Nat) (x : Group) (d : _), (gid < 65536) ∧ (x.waiting.Nodup) ∧ ((∀ p ∈ x.waiting, p.1 < 1536 ∧ (s.job p.1 p.2).isSome = true)) ∧ (t.confAny = false) ∧ ((∀ die, die < 4 → (aget t.arrs.ramp die {}).held = [] ∧ t.rampStarts die + countIf x.waiting (fun p => arrDie p.1 = die) ≤ t.nodeParam 0x0208)) ∧ (t = expire (aclk 1) d s) ∧ (s.arrs.groups.filter (fun y => y.gid = gid && !y.closed && y.deadline.isSome) = [x]) ∧ (x.deadline = some d)) ∧
    (∃ (s : State) (die : Nat) (k : Nat) (w : Nat) (r : Ramp), (die < 4) ∧ ((s.arrs.ramp.filter (fun p => p.1 % 8 = die && p.2.warnAt.isSome)).map (·.1) = [k]) ∧ (aget s.arrs.ramp k {} = r) ∧ (r.warnAt = some w) ∧ (r.held ≠ [])) :=
  ⟨⟨({ wUp with arrs := { groups := [{ gid := 65535, n := 1, waiting := [(0, 0)] }] } } : State), 65535, ({ gid := 65535, n := 1, waiting := [(0, 0)] } : Group), by refine ⟨?_, ?_⟩ <;> first | decide +kernel | rfl | (unfold canRetire hasBudget; decide +kernel) | (unfold hasBudget; decide +kernel) | simp⟩,
  ⟨({ wUp with arrs := { groups := [{ gid := 65535, n := 2, deadline := some 9 }] } } : State), 65535, ({ gid := 65535, n := 2, deadline := some 9 } : Group), 9, by refine ⟨?_, ?_, ?_⟩ <;> first | decide +kernel | rfl | (unfold canRetire hasBudget; decide +kernel) | (unfold hasBudget; decide +kernel) | simp⟩,
  ⟨({ wUp with arrs := { arr := [(0, { slots := [(0, { desc := wDesc, st := 3 })] })], groups := [{ gid := 65535, n := 1, waiting := [(0, 0)] }], ramp := [(0, { starts := List.replicate 63 0 })] } } : State), (({ wUp with arrs := { arr := [(0, { slots := [(0, { desc := wDesc, st := 3 })] })], groups := [{ gid := 65535, n := 1, waiting := [(0, 0)] }], ramp := [(0, { starts := List.replicate 63 0 })] } }) : State), 65535, ({ gid := 65535, n := 1, waiting := [(0, 0)] } : Group), by refine ⟨?_, ?_, ?_, ?_, ?_, ?_, ?_⟩ <;> first | decide +kernel | rfl | (unfold canRetire hasBudget; decide +kernel) | (unfold hasBudget; decide +kernel) | simp⟩,
  ⟨({ wUp with arrs := { arr := [(0, { slots := [(0, { desc := wDesc, st := 3 })] })], groups := [{ gid := 65535, n := 2, waiting := [(0, 0)], deadline := some 9 }], ramp := [(0, { starts := List.replicate 63 0 })] } } : State), (expire (aclk 1) 9 ({ wUp with arrs := { arr := [(0, { slots := [(0, { desc := wDesc, st := 3 })] })], groups := [{ gid := 65535, n := 2, waiting := [(0, 0)], deadline := some 9 }], ramp := [(0, { starts := List.replicate 63 0 })] } }) : State), 65535, ({ gid := 65535, n := 2, waiting := [(0, 0)], deadline := some 9 } : Group), 9, by refine ⟨?_, ?_, ?_, ?_, ?_, ?_, ?_, ?_⟩ <;> first | decide +kernel | rfl | (unfold canRetire hasBudget; decide +kernel) | (unfold hasBudget; decide +kernel) | simp⟩,
  ⟨({ wUp with arrs := { ramp := [(3, { warnAt := some 5, held := [(1152, 0)] })] } } : State), 3, 3, 5, ({ warnAt := some 5, held := [(1152, 0)] } : Ramp), by refine ⟨?_, ?_, ?_, ?_, ?_⟩ <;> first | decide +kernel | rfl | (unfold canRetire hasBudget; decide +kernel) | (unfold hasBudget; decide +kernel) | simp⟩⟩

theorem test_wit_ArrayStreaming :
    (∃ (s : State) (a : Nat) (q : Nat) (j : ArrJob) (o : _) (row : _) (rest : _) (k : _), (a < 1536) ∧ (q < 2) ∧ (s.job a q = some j) ∧ (((s.arr a).slots.map (·.1)).Nodup) ∧ (s.firstIn a 4 = some q) ∧ (j.tok < dTLen j.desc) ∧ (operandsGood s j) ∧ (j.stage = row :: rest) ∧ (s.runToken (dSaggar j.desc) j j.tok row .none = .out o) ∧ (k = j.outs.length + 1 - 16384 / max 1 o.bytes.length)) ∧
    (∃ (s : State) (a : Nat) (q : Nat) (j : ArrJob) (v : Upset), (a < 1536) ∧ (q < 2) ∧ (s.job a q = some j) ∧ (((s.arr a).slots.map (·.1)).Nodup) ∧ (s.firstIn a 4 = some q) ∧ (j.failed < 2) ∧ (v.wf = true) ∧ (v = .reported ∨ (j.tok < dTLen j.desc ∧ operandsGood s j ∧ ∃ row rest, j.stage = row :: rest ∧ s.runToken (dSaggar j.desc) j j.tok row v = .mismatch))) ∧
    (∃ (s : State) (a : Nat) (q : Nat) (j : ArrJob), (a < 1536) ∧ (q < 2) ∧ (s.job a q = some j) ∧ (((s.arr a).slots.map (·.1)).Nodup) ∧ (s.firstIn a 4 = some q) ∧ (2 ≤ j.failed) ∧ ((s.arr a).fence.on = false)) ∧
    (∃ (s : State) (a : Nat) (q : Nat) (j : ArrJob) (addr : _), (a < 1536) ∧ (q < 2) ∧ (s.job a q = some j) ∧ (((s.arr a).slots.map (·.1)).Nodup) ∧ (addr < 2 ^ 64) ∧ (2 ≤ j.st) ∧ (j.st ≤ 5)) ∧
    (∃ (s : State) (a : Nat) (q : Nat) (j : ArrJob) (addr : _), (a < 1536) ∧ (q < 2) ∧ (s.job a q = some j) ∧ (((s.arr a).slots.map (·.1)).Nodup) ∧ (addr < 2 ^ 64) ∧ (dPIn j.desc = false)) ∧
    (∃ (s : State) (a : Nat) (q : Nat) (j : ArrJob), (a < 1536) ∧ (q < 2) ∧ (s.job a q = some j) ∧ (((s.arr a).slots.map (·.1)).Nodup) ∧ (s.firstIn a 4 = some q) ∧ (dTLen j.desc ≤ j.tok)) ∧
    (∃ (s : State) (a : Nat) (q : Nat) (j : ArrJob) (t : _), (a < 1536) ∧ (q < 2) ∧ (s.job a q = some j) ∧ (((s.arr a).slots.map (·.1)).Nodup) ∧ (6 ≤ j.st) ∧ (j.issuer = .trimmer t) ∧ ((s.trmOf t).swap = none) ∧ (s.trms.swapDeadline = []) ∧ ((∀ x ∈ s.sit, x.2.batches.any (·.issued) = false)) ∧ (dCpl j.desc ≠ 0) ∧ (cplOk j.desc (s.shelfSize (dSaggar j.desc)) = true)) :=
  ⟨⟨(wJob { desc := wDesc, st := 4, stage := [[0]] } : State), 0, 0, ({ desc := wDesc, st := 4, stage := [[0]] } : ArrJob), match (wJob { desc := wDesc, st := 4 }).runToken 0 { desc := wDesc, st := 4 } 0 [0] .none with | .out o => o | _ => {}, [0], [], 0, by refine ⟨?_, ?_, ?_, ?_, ?_, ?_, test_wGoodOps _ _ rfl, ?_, ?_, ?_⟩ <;> first | decide +kernel | rfl | (unfold canRetire hasBudget; decide +kernel) | (unfold hasBudget; decide +kernel) | simp⟩,
  ⟨(wJob { desc := wDesc, st := 4, failed := 1 } : State), 0, 0, ({ desc := wDesc, st := 4, failed := 1 } : ArrJob), .reported, by refine ⟨?_, ?_, ?_, ?_, ?_, ?_, ?_, Or.inl rfl⟩ <;> first | decide +kernel | rfl | (unfold canRetire hasBudget; decide +kernel) | (unfold hasBudget; decide +kernel) | simp⟩,
  ⟨(wJob { desc := wDesc, st := 4, failed := 2 } : State), 0, 0, ({ desc := wDesc, st := 4, failed := 2 } : ArrJob), by refine ⟨?_, ?_, ?_, ?_, ?_, ?_, ?_⟩ <;> first | decide +kernel | rfl | (unfold canRetire hasBudget; decide +kernel) | (unfold hasBudget; decide +kernel) | simp⟩,
  ⟨(wJob { desc := wDesc, st := 5 } : State), 0, 0, ({ desc := wDesc, st := 5 } : ArrJob), 0, by refine ⟨?_, ?_, ?_, ?_, ?_, ?_, ?_⟩ <;> first | decide +kernel | rfl | (unfold canRetire hasBudget; decide +kernel) | (unfold hasBudget; decide +kernel) | simp⟩,
  ⟨(wJob { desc := wDesc, st := 5 } : State), 0, 0, ({ desc := wDesc, st := 5 } : ArrJob), 2 ^ 64 - 1, by refine ⟨?_, ?_, ?_, ?_, ?_, ?_⟩ <;> first | decide +kernel | rfl | (unfold canRetire hasBudget; decide +kernel) | (unfold hasBudget; decide +kernel) | simp⟩,
  ⟨(wJob { desc := wDesc, st := 4, tok := 1 } : State), 0, 0, ({ desc := wDesc, st := 4, tok := 1 } : ArrJob), by refine ⟨?_, ?_, ?_, ?_, ?_, ?_⟩ <;> first | decide +kernel | rfl | (unfold canRetire hasBudget; decide +kernel) | (unfold hasBudget; decide +kernel) | simp⟩,
  ⟨({ wSag with arrs := { arr := [(0, { slots := [(0, { desc := wCpl, st := 6 })] })] } } : State), 0, 0, ({ desc := wCpl, st := 6 } : ArrJob), 0, by refine ⟨?_, ?_, ?_, ?_, ?_, ?_, ?_, ?_, ?_, ?_, ?_⟩ <;> first | decide +kernel | rfl | (unfold canRetire hasBudget; decide +kernel) | (unfold hasBudget; decide +kernel) | simp⟩⟩

theorem test_wit_ArrayFences :
    (∃ (s : State) (who : Who) (a : Nat), (who.wf = true) ∧ (a < 1536) ∧ (s.csrGate who (arrCtrl a) true = none) ∧ ((s.arr a).fence.on = false) ∧ (((s.arr a).slots.map (·.1)).Nodup)) ∧
    (∃ (s : State) (who : Who) (a : Nat), (who.wf = true) ∧ (a < 1536) ∧ (s.csrGate who (arrCtrl a) true = none) ∧ (liftsFence who = true) ∧ ((s.arr a).fence.on = true)) ∧
    (∃ (s : State) (who : Who) (a : Nat), (who.wf = true) ∧ (a < 1536) ∧ (s.csrGate who (arrCtrl a) true = none) ∧ (liftsFence who = false)) ∧
    (∃ (s : State) (who : Who) (a : Nat) (m : Bool) (r : Word64), (who.wf = true) ∧ (a < 1536) ∧ ((s.arr a).bist = some m) ∧ (r = 0)) ∧
    (∃ (s : State) (who : Who) (a : Nat) (m : Bool) (r : Word64), (who.wf = true) ∧ (a < 1536) ∧ ((s.arr a).bist = some m) ∧ (r ≠ 0)) ∧
    (∃ (s : State) (who : Who) (a : Nat), (who.wf = true) ∧ (a < 1536) ∧ ((s.arr a).bist = none)) ∧
    (∃ (s : State) (who : Who) (a : Nat) (r : Word64), (who.wf = true) ∧ (a < 1536) ∧ (a < s.variant.arrays) ∧ (s.erc.adFenced.getD (arrDie a) false = false) ∧ ((s.arr a).fence.on = true) ∧ ((s.arr a).fence.cause = 2) ∧ (r = 0)) ∧
    (∃ (s : State) (who : Who) (a : Nat) (r : Word64), (who.wf = true) ∧ (a < 1536) ∧ (a < s.variant.arrays) ∧ (s.erc.adFenced.getD (arrDie a) false = false) ∧ ((s.arr a).fence.on = true) ∧ ((s.arr a).fence.cause = 2) ∧ (r ≠ 0)) :=
  ⟨⟨(wArr { fence := {} } : State), .management, 0, by refine ⟨?_, ?_, ?_, ?_, ?_⟩ <;> first | decide +kernel | rfl | (unfold canRetire hasBudget; decide +kernel) | (unfold hasBudget; decide +kernel) | simp⟩,
  ⟨wUp, .management, 1535, by refine ⟨?_, ?_, ?_, ?_, ?_⟩ <;> first | decide +kernel | rfl | (unfold canRetire hasBudget; decide +kernel) | (unfold hasBudget; decide +kernel) | simp⟩,
  ⟨wUp, (.operator 1 : Who), 1535, by refine ⟨?_, ?_, ?_, ?_⟩ <;> first | decide +kernel | rfl | (unfold canRetire hasBudget; decide +kernel) | (unfold hasBudget; decide +kernel) | simp⟩,
  ⟨(wArr { bist := some true } : State), (.operator 1 : Who), 0, true, 0, by refine ⟨?_, ?_, ?_, ?_⟩ <;> first | decide +kernel | rfl | (unfold canRetire hasBudget; decide +kernel) | (unfold hasBudget; decide +kernel) | simp⟩,
  ⟨(wArr { bist := some true } : State), (.operator 1 : Who), 0, true, 1, by refine ⟨?_, ?_, ?_, ?_⟩ <;> first | decide +kernel | rfl | (unfold canRetire hasBudget; decide +kernel) | (unfold hasBudget; decide +kernel) | simp⟩,
  ⟨wUp, (.operator 1 : Who), 1535, by refine ⟨?_, ?_, ?_⟩ <;> first | decide +kernel | rfl | (unfold canRetire hasBudget; decide +kernel) | (unfold hasBudget; decide +kernel) | simp⟩,
  ⟨wUp, (.operator 1 : Who), 1535, 0, by refine ⟨?_, ?_, ?_, ?_, ?_, ?_, ?_⟩ <;> first | decide +kernel | rfl | (unfold canRetire hasBudget; decide +kernel) | (unfold hasBudget; decide +kernel) | simp⟩,
  ⟨wUp, (.operator 1 : Who), 1535, 1, by refine ⟨?_, ?_, ?_, ?_, ?_, ?_, ?_⟩ <;> first | decide +kernel | rfl | (unfold canRetire hasBudget; decide +kernel) | (unfold hasBudget; decide +kernel) | simp⟩⟩

theorem test_wit_FrameInstructions :
    (∃ (s : State) (t : Nat) (rd : Nat) (rs1 : Nat) (rs2 : Nat) (k : _) (x : _), (t < 128) ∧ (rd < 32) ∧ (rs1 < 32) ∧ (rs2 < 32) ∧ (canRetire t s) ∧ (s.rx t rs1 % 32 = 0) ∧ (s.zone t (s.rx t rs1) 32 true = some (.local_ k)) ∧ (slotFrame (memRead (s.trmOf t).mem k 32) = some x)) ∧
    (∃ (s : State) (t : Nat) (rd : Nat) (rs1 : Nat) (rs2 : Nat) (k : _) (k' : _) (x : _), (t < 128) ∧ (rd < 32) ∧ (rs1 < 32) ∧ (rs2 < 32) ∧ (canRetire t s) ∧ (s.rx t rs1 % 32 = 0) ∧ (s.zone t (s.rx t rs1) 32 true = some (.local_ k)) ∧ (s.rx t rs2 % 32 = 0) ∧ (s.zone t (s.rx t rs2) 32 false = some (.local_ k')) ∧ (combineSlots (memRead (s.trmOf t).mem k 32) (memRead (s.trmOf t).mem k' 32) = some x)) ∧
    (∃ (s : State) (t : Nat) (rd : Nat) (rs1 : Nat) (rs2 : Nat) (k : _), (t < 128) ∧ (rd < 32) ∧ (rs1 < 32) ∧ (rs2 < 32) ∧ (canRetire t s) ∧ (s.rx t rs1 % 32 = 0) ∧ (s.zone t (s.rx t rs1) 32 true = some (.local_ k)) ∧ (slotFrame (memRead (s.trmOf t).mem k 32) = none)) ∧
    (∃ (s : State) (t : Nat) (rd : Nat) (rs1 : Nat) (rs2 : Nat) (k : _) (k' : _), (t < 128) ∧ (rd < 32) ∧ (rs1 < 32) ∧ (rs2 < 32) ∧ (canRetire t s) ∧ (s.rx t rs1 % 32 = 0) ∧ (s.zone t (s.rx t rs1) 32 true = some (.local_ k)) ∧ (s.rx t rs2 % 32 = 0) ∧ (s.zone t (s.rx t rs2) 32 false = some (.local_ k')) ∧ (combineSlots (memRead (s.trmOf t).mem k 32) (memRead (s.trmOf t).mem k' 32) = none)) ∧
    (∃ (s : State) (t : Nat) (rd : Nat) (rs1 : Nat) (rs2 : Nat) (k : _) (x : _) (o : _), (t < 128) ∧ (rd < 32) ∧ (rs1 < 32) ∧ (rs2 < 32) ∧ (canRetire t s) ∧ (s.rx t rs1 % 32 = 0) ∧ (s.zone t (s.rx t rs1) 32 false = some (.local_ k)) ∧ (s.rx t rs2 % 16 < 8) ∧ (s.rx t rs2 % 16 ≠ fcMXINT8) ∧ (s.rx t rs2 % 16 ≠ fcMXFP4) ∧ (slotFrame (memRead (s.trmOf t).mem k 32) = some x) ∧ (o = encodeElem (s.rx t rs2 % 16) x.value)) ∧
    (∃ (s : State) (t : Nat) (rd : Nat) (rs1 : Nat) (rs2 : Nat) (k : _), (t < 128) ∧ (rd < 32) ∧ (rs1 < 32) ∧ (rs2 < 32) ∧ (canRetire t s) ∧ (s.rx t rs1 % 32 = 0) ∧ (s.zone t (s.rx t rs1) 32 false = some (.local_ k)) ∧ (s.rx t rs2 % 16 = 7) ∧ (slotFrame (memRead (s.trmOf t).mem k 32) = none)) :=
  ⟨⟨(wTrm wMain : State), 0, 31, 1, 2, 0x9000, { w := widthOf 0 }, by refine ⟨?_, ?_, ?_, ?_, ?_, ?_, ?_, ?_⟩ <;> first | decide +kernel | rfl | (unfold canRetire hasBudget; decide +kernel) | (unfold hasBudget; decide +kernel) | simp⟩,
  ⟨(wTrm wMain : State), 0, 31, 1, 2, 0x9000, 0x9000, { w := widthOf 0 }, by refine ⟨?_, ?_, ?_, ?_, ?_, ?_, ?_, ?_, ?_, ?_⟩ <;> first | decide +kernel | rfl | (unfold canRetire hasBudget; decide +kernel) | (unfold hasBudget; decide +kernel) | simp⟩,
  ⟨(wTrm { wMain with mem := [(0x901F, 1)] } : State), 0, 31, 1, 2, 0x9000, by refine ⟨?_, ?_, ?_, ?_, ?_, ?_, ?_, ?_⟩ <;> first | decide +kernel | rfl | (unfold canRetire hasBudget; decide +kernel) | (unfold hasBudget; decide +kernel) | simp⟩,
  ⟨(wTrm { wMain with mem := [(0x901F, 1)] } : State), 0, 31, 1, 2, 0x9000, 0x9000, by refine ⟨?_, ?_, ?_, ?_, ?_, ?_, ?_, ?_, ?_, ?_⟩ <;> first | decide +kernel | rfl | (unfold canRetire hasBudget; decide +kernel) | (unfold hasBudget; decide +kernel) | simp⟩,
  ⟨(wTrm wMain : State), 0, 31, 1, 0, 0x9000, { w := widthOf 0 }, encodeElem 0 (Frm.value { w := widthOf 0 }), by refine ⟨?_, ?_, ?_, ?_, ?_, ?_, ?_, ?_, ?_, ?_, ?_, ?_⟩ <;> first | decide +kernel | rfl | (unfold canRetire hasBudget; decide +kernel) | (unfold hasBudget; decide +kernel) | simp⟩,
  ⟨(wTrm { wMain with mem := [(0x901F, 1)], ctx := { x := (Vector.replicate 32 0x9000).set 2 7 } } : State), 0, 31, 1, 2, 0x9000, by refine ⟨?_, ?_, ?_, ?_, ?_, ?_, ?_, ?_, ?_⟩ <;> first | decide +kernel | rfl | (unfold canRetire hasBudget; decide +kernel) | (unfold hasBudget; decide +kernel) | simp⟩⟩

theorem test_wit_JobInstructions_1 :
    (∃ (s : State) (t : Nat) (rd : Nat) (rs1 : Nat) (rs2 : Nat) (d : _), (t < 128) ∧ (rd < 32) ∧ (rs1 < 32) ∧ (rs2 < 32) ∧ (canRetire t s) ∧ (s.block t (s.rx t rs1) 128 false 4 = .ok d) ∧ (s.issueStalls t d = false) ∧ (s.jobRefused d (s.trmSag t) = none)) ∧
    (∃ (s : State) (t : Nat) (rd : Nat) (rs1 : Nat) (rs2 : Nat) (d : _) (st : _) (c : _), (t < 128) ∧ (rd < 32) ∧ (rs1 < 32) ∧ (rs2 < 32) ∧ (canRetire t s) ∧ (s.block t (s.rx t rs1) 128 false 4 = .ok d) ∧ (s.issueStalls t d = false) ∧ (s.jobRefused d (s.trmSag t) = some (st, c))) ∧
    (∃ (s : State) (t : Nat) (rd : Nat) (rs1 : Nat) (rs2 : Nat) (d : _), (t < 128) ∧ (rd < 32) ∧ (rs1 < 32) ∧ (rs2 < 32) ∧ (canRetire t s) ∧ (s.block t (s.rx t rs1) 128 false 4 = .ok d) ∧ (s.issueStalls t d = true)) ∧
    (∃ (s : State) (t : Nat) (rd : Nat) (rs1 : Nat) (rs2 : Nat) (since : _) (d : _), (t < 128) ∧ (rd < 32) ∧ (rs1 < 32) ∧ (rs2 < 32) ∧ ((s.trmOf t).stall = some (.issue rd rs1 4 since)) ∧ (hasBudget t s) ∧ (s.block t (s.rx t rs1) 128 false 4 = .ok d) ∧ (s.issueStalls t d = false) ∧ (s.jobRefused d (s.trmSag t) = none)) ∧
    (∃ (s : State) (t : Nat) (rd : Nat) (rs1 : Nat) (rs2 : Nat) (e : _) (rest : _), (t < 128) ∧ (rd < 32) ∧ (rs1 < 32) ∧ (rs2 < 32) ∧ (canRetire t s) ∧ ((s.trmOf t).cplq = e :: rest)) ∧
    (∃ (s : State) (t : Nat) (rd : Nat) (rs1 : Nat) (rs2 : Nat), (t < 128) ∧ (rd < 32) ∧ (rs1 < 32) ∧ (rs2 < 32) ∧ (canRetire t s) ∧ ((s.trmOf t).cplq = []) ∧ (s.rx t rs1 = 0)) ∧
    (∃ (s : State) (t : Nat) (rd : Nat) (rs1 : Nat) (rs2 : Nat) (n : _), (t < 128) ∧ (rd < 32) ∧ (rs1 < 32) ∧ (rs2 < 32) ∧ (canRetire t s) ∧ ((s.trmOf t).cplq = []) ∧ (s.rx t rs1 = n) ∧ (n ≠ 0) ∧ (n ≠ 2 ^ 64 - 1)) ∧
    (∃ (s : State) (t : Nat) (rd : Nat) (rs1 : Nat) (rs2 : Nat) (since : _) (dl : _) (e : _) (rest : _), (t < 128) ∧ (rd < 32) ∧ (rs1 < 32) ∧ (rs2 < 32) ∧ ((s.trmOf t).stall = some (.wait rd 4 since dl)) ∧ ((s.trmOf t).cplq = e :: rest) ∧ (hasBudget t s)) :=
  ⟨⟨({ wTS { wMain with mem := wAt wDesc } with arrs := { arr := [(0, { fence := {} })] } } : State), 0, 31, 1, 2, wDesc, by refine ⟨?_, ?_, ?_, ?_, ?_, ?_, ?_, ?_⟩ <;> first | decide +kernel | rfl | (unfold canRetire hasBudget; decide +kernel) | (unfold hasBudget; decide +kernel) | simp⟩,
  ⟨(wTS { wMain with mem := wAt wDesc } : State), 0, 31, 1, 2, wDesc, jFENCED, 2, by refine ⟨?_, ?_, ?_, ?_, ?_, ?_, ?_, ?_⟩ <;> first | decide +kernel | rfl | (unfold canRetire hasBudget; decide +kernel) | (unfold hasBudget; decide +kernel) | simp⟩,
  ⟨(wTS { wMain with mem := wAt wDesc, jobs := 64 } : State), 0, 31, 1, 2, wDesc, by refine ⟨?_, ?_, ?_, ?_, ?_, ?_, ?_⟩ <;> first | decide +kernel | rfl | (unfold canRetire hasBudget; decide +kernel) | (unfold hasBudget; decide +kernel) | simp⟩,
  ⟨({ wTS { wMain with mem := wAt wDesc, stall := some (.issue 31 1 4 7) } with arrs := { arr := [(0, { fence := {} })] } } : State), 0, 31, 1, 2, 7, wDesc, by refine ⟨?_, ?_, ?_, ?_, ?_, ?_, ?_, ?_, ?_⟩ <;> first | decide +kernel | rfl | (unfold canRetire hasBudget; decide +kernel) | (unfold hasBudget; decide +kernel) | simp⟩,
  ⟨(wTrm { wMain with cplq := [5, 6] } : State), 0, 31, 1, 2, 5, [6], by refine ⟨?_, ?_, ?_, ?_, ?_, ?_⟩ <;> first | decide +kernel | rfl | (unfold canRetire hasBudget; decide +kernel) | (unfold hasBudget; decide +kernel) | simp⟩,
  ⟨(wTrm { wMain with ctx := {} } : State), 0, 31, 1, 2, by refine ⟨?_, ?_, ?_, ?_, ?_, ?_, ?_⟩ <;> first | decide +kernel | rfl | (unfold canRetire hasBudget; decide +kernel) | (unfold hasBudget; decide +kernel) | simp⟩,
  ⟨(wTrm wMain : State), 0, 31, 1, 2, 0x9000, by refine ⟨?_, ?_, ?_, ?_, ?_, ?_, ?_, ?_, ?_⟩ <;> first | decide +kernel | rfl | (unfold canRetire hasBudget; decide +kernel) | (unfold hasBudget; decide +kernel) | simp⟩,
  ⟨(wTrm { wMain with stall := some (.wait 31 4 0 (some 9)), cplq := [5] } : State), 0, 31, 1, 2, 0, some 9, 5, [], by refine ⟨?_, ?_, ?_, ?_, ?_, ?_, ?_⟩ <;> first | decide +kernel | rfl | (unfold canRetire hasBudget; decide +kernel) | (unfold hasBudget; decide +kernel) | simp⟩⟩

theorem test_wit_JobInstructions_2 :
    (∃ (s : State) (t : Nat) (rd : Nat) (rs1 : Nat) (rs2 : Nat) (since : _) (d : _), (t < 128) ∧ (rd < 32) ∧ (rs1 < 32) ∧ (rs2 < 32) ∧ ((s.trmOf t).stall = some (.wait rd 4 since (some d))) ∧ (hasBudget t s)) ∧
    (∃ (s : State) (t : Nat) (rd : Nat) (rs1 : Nat) (rs2 : Nat) (r : _), (t < 128) ∧ (rd < 32) ∧ (rs1 < 32) ∧ (rs2 < 32) ∧ (canRetire t s) ∧ (r = pinResult t (s.rx t rs1) (s.rx t rs2) s)) ∧
    (∃ (s : State) (t : Nat) (rd : Nat) (rs1 : Nat) (rs2 : Nat) (base : _), (t < 128) ∧ (rd < 32) ∧ (rs1 < 32) ∧ (rs2 < 32) ∧ (base % 65536 = 0) ∧ (base + 65536 ≤ s.shelfSize (s.trmSag t)) ∧ (aget s.arrs.pins (s.trmSag t, base / 65536) 0 = 0) ∧ (s.pinnedUnits (s.trmSag t) < s.sagParam (s.trmSag t) 0x030A * 16)) ∧
    (∃ (s : State) (t : Nat) (rd : Nat) (rs1 : Nat) (rs2 : Nat) (base : _), (t < 128) ∧ (rd < 32) ∧ (rs1 < 32) ∧ (rs2 < 32) ∧ (base % 65536 = 0) ∧ (base + 65536 ≤ s.shelfSize (s.trmSag t)) ∧ (aget s.arrs.pins (s.trmSag t, base / 65536) 0 = 0) ∧ (s.sagParam (s.trmSag t) 0x030A * 16 ≤ s.pinnedUnits (s.trmSag t))) :=
  ⟨⟨(wTrm { wMain with stall := some (.wait 31 4 0 (some 9)) } : State), 0, 31, 1, 2, 0, 9, by refine ⟨?_, ?_, ?_, ?_, ?_, ?_⟩ <;> first | decide +kernel | rfl | (unfold canRetire hasBudget; decide +kernel) | (unfold hasBudget; decide +kernel) | simp⟩,
  ⟨(wTrm wMain : State), 0, 31, 1, 2, pinResult 0 0x9000 0x9000 (wTrm wMain), by refine ⟨?_, ?_, ?_, ?_, ?_, ?_⟩ <;> first | decide +kernel | rfl | (unfold canRetire hasBudget; decide +kernel) | (unfold hasBudget; decide +kernel) | simp⟩,
  ⟨({ wTS wMain with img := { cur := wImg [(tySAGMAP, wMap), (tySAGPARAMS, natLe 0x1030A 8)] } } : State), 0, 31, 1, 2, 983040, by refine ⟨?_, ?_, ?_, ?_, ?_, ?_, ?_, ?_⟩ <;> first | decide +kernel | rfl | (unfold canRetire hasBudget; decide +kernel) | (unfold hasBudget; decide +kernel) | simp⟩,
  ⟨(wTS wMain : State), 0, 31, 1, 2, 983040, by refine ⟨?_, ?_, ?_, ?_, ?_, ?_, ?_, ?_⟩ <;> first | decide +kernel | rfl | (unfold canRetire hasBudget; decide +kernel) | (unfold hasBudget; decide +kernel) | simp⟩⟩

theorem test_wit_WindowInstructions :
    (∃ (s : State) (t : Nat) (rd : Nat) (addr : Nat) (n : Nat) (a : Nat) (d : Nat × Nat) (bytes : _), (t < 128) ∧ (rd < 32) ∧ (addr < 2 ^ 64) ∧ (d = s.winTarget t n a) ∧ (bytes ∈ [1, 2, 4, 8]) ∧ (canRetire t s) ∧ (s.zone t addr bytes false = some (.win n a)) ∧ (addr % bytes = 0) ∧ (s.maySend (.trimmer t) d.1 (s.trmSag t) = true)) ∧
    (∃ (s : State) (t : Nat) (rd : Nat) (addr : Nat) (n : Nat) (a : Nat) (d : Nat × Nat) (bytes : _), (t < 128) ∧ (rd < 32) ∧ (addr < 2 ^ 64) ∧ (d = s.winTarget t n a) ∧ (bytes ∈ [1, 2, 4, 8]) ∧ (canRetire t s) ∧ (s.zone t addr bytes false = some (.win n a)) ∧ (addr % bytes = 0) ∧ (s.maySend (.trimmer t) d.1 (s.trmSag t) = false)) ∧
    (∃ (s : State) (t : Nat) (rd : Nat) (addr : Nat) (n : Nat) (a : Nat) (d : Nat × Nat) (data : List Byte), (t < 128) ∧ (rd < 32) ∧ (addr < 2 ^ 64) ∧ (d = s.winTarget t n a) ∧ (data.length ∈ [1, 2, 4, 8]) ∧ (canRetire t s) ∧ (s.zone t addr data.length true = some (.win n a)) ∧ (addr % data.length = 0) ∧ (data.length = 8) ∧ (s.maySend (.trimmer t) d.1 (s.trmSag t) = true) ∧ (s.grainHeld (.trimmer t) d.1 d.2 = false)) ∧
    (∃ (s : State) (t : Nat) (rd : Nat) (addr : Nat) (n : Nat) (a : Nat) (d : Nat × Nat) (data : List Byte), (t < 128) ∧ (rd < 32) ∧ (addr < 2 ^ 64) ∧ (d = s.winTarget t n a) ∧ (data.length ∈ [1, 2, 4, 8]) ∧ (canRetire t s) ∧ (s.zone t addr data.length true = some (.win n a)) ∧ (addr % data.length = 0) ∧ (data.length ≠ 8) ∧ (s.maySend (.trimmer t) d.1 (s.trmSag t) = true)) ∧
    (∃ (s : State) (t : Nat) (rd : Nat) (addr : Nat) (n : Nat) (a : Nat) (d : Nat × Nat) (data : List Byte), (t < 128) ∧ (rd < 32) ∧ (addr < 2 ^ 64) ∧ (d = s.winTarget t n a) ∧ (data.length ∈ [1, 2, 4, 8]) ∧ (canRetire t s) ∧ (s.zone t addr data.length true = some (.win n a)) ∧ (addr % data.length = 0) ∧ (s.maySend (.trimmer t) d.1 (s.trmSag t) = false ∨ (data.length = 8 ∧ s.grainHeld (.trimmer t) d.1 d.2 = true))) ∧
    (∃ (s : State) (t : Nat) (rd : Nat) (addr : Nat) (n : Nat) (a : Nat) (d : Nat × Nat), (t < 128) ∧ (rd < 32) ∧ (addr < 2 ^ 64) ∧ (d = s.winTarget t n a) ∧ (canRetire t s) ∧ (s.zone t addr 8 true = some (.win n a)) ∧ (addr % 8 = 0) ∧ (s.maySend (.trimmer t) d.1 (s.trmSag t) = true) ∧ (s.grainHeld (.trimmer t) d.1 d.2 = false)) ∧
    (∃ (s : State) (t : Nat) (rd : Nat) (addr : Nat) (n : Nat) (a : Nat) (d : Nat × Nat), (t < 128) ∧ (rd < 32) ∧ (addr < 2 ^ 64) ∧ (d = s.winTarget t n a) ∧ (canRetire t s) ∧ (s.zone t addr 8 true = some (.win n a)) ∧ (addr % 8 = 0) ∧ (s.maySend (.trimmer t) d.1 (s.trmSag t) = false ∨ s.grainHeld (.trimmer t) d.1 d.2 = true)) ∧
    (∃ (s : State) (t : Nat) (rd : Nat) (addr : Nat) (n : Nat) (a : Nat) (d : Nat × Nat) (tag : _) (r : _) (b : _), (t < 128) ∧ (rd < 32) ∧ (addr < 2 ^ 64) ∧ (d = s.winTarget t n a) ∧ (tag < 65536) ∧ (s.fab.outst.find? (fun r => r.req = .trimmer t ∧ r.pkt.tag = tag ∧ r.backoff.isSome) = some r) ∧ (s.fab.outst.find? (fun r => r.pkt.tag = tag ∧ r.backoff.isSome) = some r) ∧ (r.backoff = some b) ∧ (r.pkt.payload.length ≤ 512)) :=
  ⟨⟨(wTrm { wMain with xwin := [(0, 1)] } : State), 0, 31, 0x20000000000, 0, 0, ((0, 0) : Nat × Nat), 8, by refine ⟨?_, ?_, ?_, ?_, ?_, ?_, ?_, ?_, ?_⟩ <;> first | decide +kernel | rfl | (unfold canRetire hasBudget; decide +kernel) | (unfold hasBudget; decide +kernel) | simp⟩,
  ⟨({ wTrm { wMain with xwin := [(0, 1)] } with fab := { limit := [((.trimmer 0, 0), 0)] } } : State), 0, 31, 0x20000000000, 0, 0, ((0, 0) : Nat × Nat), 8, by refine ⟨?_, ?_, ?_, ?_, ?_, ?_, ?_, ?_, ?_⟩ <;> first | decide +kernel | rfl | (unfold canRetire hasBudget; decide +kernel) | (unfold hasBudget; decide +kernel) | simp⟩,
  ⟨(wTrm { wMain with xwin := [(0, 1)] } : State), 0, 31, 0x20000000000, 0, 0, ((0, 0) : Nat × Nat), ([1, 2, 3, 4, 5, 6, 7, 8] : List Byte), by refine ⟨?_, ?_, ?_, ?_, ?_, ?_, ?_, ?_, ?_, ?_, ?_⟩ <;> first | decide +kernel | rfl | (unfold canRetire hasBudget; decide +kernel) | (unfold hasBudget; decide +kernel) | simp⟩,
  ⟨(wTrm { wMain with xwin := [(0, 1)] } : State), 0, 31, 0x20000000000, 0, 0, ((0, 0) : Nat × Nat), ([1, 2] : List Byte), by refine ⟨?_, ?_, ?_, ?_, ?_, ?_, ?_, ?_, ?_, ?_⟩ <;> first | decide +kernel | rfl | (unfold canRetire hasBudget; decide +kernel) | (unfold hasBudget; decide +kernel) | simp⟩,
  ⟨({ wTrm { wMain with xwin := [(0, 1)] } with fab := { limit := [((.trimmer 0, 0), 0)] } } : State), 0, 31, 0x20000000000, 0, 0, ((0, 0) : Nat × Nat), ([1] : List Byte), by refine ⟨?_, ?_, ?_, ?_, ?_, ?_, ?_, ?_, ?_⟩ <;> first | decide +kernel | rfl | (unfold canRetire hasBudget; decide +kernel) | (unfold hasBudget; decide +kernel) | simp⟩,
  ⟨(wTrm { wMain with xwin := [(0, 1)] } : State), 0, 31, 0x20000000000, 0, 0, ((0, 0) : Nat × Nat), by refine ⟨?_, ?_, ?_, ?_, ?_, ?_, ?_, ?_, ?_⟩ <;> first | decide +kernel | rfl | (unfold canRetire hasBudget; decide +kernel) | (unfold hasBudget; decide +kernel) | simp⟩,
  ⟨({ wTrm { wMain with xwin := [(0, 1)] } with fab := { limit := [((.trimmer 0, 0), 0)] } } : State), 0, 31, 0x20000000000, 0, 0, ((0, 0) : Nat × Nat), by refine ⟨?_, ?_, ?_, ?_, ?_, ?_, ?_, ?_⟩ <;> first | decide +kernel | rfl | (unfold canRetire hasBudget; decide +kernel) | (unfold hasBudget; decide +kernel) | simp⟩,
  ⟨({ wUp with fab := { outst := [{ req := .trimmer 0, pkt := { tag := 65535 }, backoff := some 9 }] } } : State), 0, 31, 0x20000000000, 0, 0, ((0, 0) : Nat × Nat), 65535, { req := .trimmer 0, pkt := { tag := 65535 }, backoff := some 9 }, 9, by refine ⟨?_, ?_, ?_, ?_, ?_, ?_, ?_, ?_, ?_⟩ <;> first | decide +kernel | rfl | (unfold canRetire hasBudget; decide +kernel) | (unfold hasBudget; decide +kernel) | simp⟩⟩

theorem test_wit_TrimmerPrivilege :
    (∃ (s : State) (t : Nat) (rd : _) (rs1 : _) (imm : _), (t < 128) ∧ (canRetire t s) ∧ ((s.trmOf t).run ≠ .none) ∧ (rd < 32) ∧ (rs1 < 32) ∧ (imm < 4096) ∧ (0x9000 ≤ s.rpc t) ∧ (s.rpc t + 4 ≤ 0x40000) ∧ (memRead (s.trmOf t).mem (s.rpc t) 4 = natLe (0x13 + rd * 2 ^ 7 + rs1 * 2 ^ 15 + imm * 2 ^ 20) 4)) ∧
    (∃ (s : State) (t : Nat) (rd : _) (rs1 : _) (imm : _) (k : _), (t < 128) ∧ (canRetire t s) ∧ ((s.trmOf t).run = .none) ∧ (rd < 32) ∧ (rs1 < 32) ∧ (imm < 4096) ∧ (s.rpc t = 0x8000000 + k) ∧ (k % 4 = 0) ∧ (k + 4 ≤ 0x10000) ∧ (memRead (s.trmOf t).fwMem k 4 = natLe (0x13 + rd * 2 ^ 7 + rs1 * 2 ^ 15 + imm * 2 ^ 20) 4)) ∧
    (∃ (s : State) (t : Nat), (t < 128) ∧ (s.trmRuns t = true) ∧ ((s.trmOf t).run = .main) ∧ (s.trms.swapDeadline = []) ∧ (0x9000 ≤ s.trmPc t) ∧ (s.trmPc t + 4 ≤ 0x40000) ∧ (memRead (s.trmOf t).mem (s.trmPc t) 4 = natLe 0xFFFFFFFF 4)) ∧
    (∃ (s : State) (t : Nat) (e : _), (t < 128) ∧ (t < s.variant.trimmers) ∧ ((s.trmOf t).fence.on = false) ∧ ((s.trmOf t).fwDown = false) ∧ (2 ≤ (s.trmOf t).mode) ∧ ((s.trmOf t).run = .main) ∧ ((s.trmOf t).swap = none) ∧ ((s.trmOf t).blocked = false) ∧ ((s.trmOf t).upcalls.find? (fun e => e.mcause = 19) = some e) ∧ (e.since = none) ∧ ((s.trmOf t).xuvec ≠ 0)) ∧
    (∃ (s : State) (t : Nat) (e : _), (t < 128) ∧ (t < s.variant.trimmers) ∧ ((s.trmOf t).fence.on = false) ∧ ((s.trmOf t).fwDown = false) ∧ (2 ≤ (s.trmOf t).mode) ∧ ((s.trmOf t).run = .main) ∧ ((s.trmOf t).swap = none) ∧ ((s.trmOf t).blocked = false) ∧ ((s.trmOf t).upcalls.find? (fun e => e.mcause = 19) = some e) ∧ (e.since = none) ∧ ((s.trmOf t).xuvec = 0)) ∧
    (∃ (s : State) (t : Nat) (c : _) (rest : _), (t < 128) ∧ (t < s.variant.trimmers) ∧ ((s.trmOf t).fence.on = false) ∧ ((s.trmOf t).fwDown = false) ∧ (2 ≤ (s.trmOf t).mode) ∧ ((s.trmOf t).swap = none) ∧ ((s.trmOf t).blocked = false) ∧ (((s.trmOf t).run = .main ∧ ∀ e ∈ (s.trmOf t).upcalls, e.mcause ≠ 19) ∨ ((s.trmOf t).run = .none ∧ (s.trmOf t).xuvec ≠ 0)) ∧ ((s.trmOf t).rptq = c :: rest)) ∧
    (∃ (s : State) (t : Nat) (c : _), (t < 128) ∧ ((s.trmOf t).run = .upcall) ∧ ((s.trmOf t).swap = none) ∧ ((s.trmOf t).mainCtx = some c) ∧ (s.trms.swapDeadline = [])) :=
  ⟨⟨(wTrm { wMain with mem := wAt (natLe (0x13 + 31 * 2 ^ 7 + 31 * 2 ^ 15 + 4095 * 2 ^ 20) 4) } : State), 0, 31, 31, 4095, by refine ⟨?_, ?_, ?_, ?_, ?_, ?_, ?_, ?_, ?_⟩ <;> first | decide +kernel | rfl | (unfold canRetire hasBudget; decide +kernel) | (unfold hasBudget; decide +kernel) | simp⟩,
  ⟨(wTrm { fence := {}, mode := 1, mctx := { pc := 0x800FFFC, x := Vector.replicate 32 7 }, fwMem := memWrite [] 0xFFFC (natLe (0x13 + 31 * 2 ^ 7 + 31 * 2 ^ 15 + 4095 * 2 ^ 20) 4) } : State), 0, 31, 31, 4095, 0xFFFC, by refine ⟨?_, ?_, ?_, ?_, ?_, ?_, ?_, ?_, ?_, ?_⟩ <;> first | decide +kernel | rfl | (unfold canRetire hasBudget; decide +kernel) | (unfold hasBudget; decide +kernel) | simp⟩,
  ⟨(wTrm { wMain with mem := wAt [255, 255, 255, 255] } : State), 0, by refine ⟨?_, ?_, ?_, ?_, ?_, ?_, ?_⟩ <;> first | decide +kernel | rfl | (unfold canRetire hasBudget; decide +kernel) | (unfold hasBudget; decide +kernel) | simp⟩,
  ⟨(wTrm { wMain with xuvec := 0x9000, upcalls := [{ a1 := 1 }] } : State), 0, { a1 := 1 }, by refine ⟨?_, ?_, ?_, ?_, ?_, ?_, ?_, ?_, ?_, ?_, ?_⟩ <;> first | decide +kernel | rfl | (unfold canRetire hasBudget; decide +kernel) | (unfold hasBudget; decide +kernel) | simp⟩,
  ⟨(wTrm { wMain with upcalls := [{ a1 := 1 }] } : State), 0, { a1 := 1 }, by refine ⟨?_, ?_, ?_, ?_, ?_, ?_, ?_, ?_, ?_, ?_, ?_⟩ <;> first | decide +kernel | rfl | (unfold canRetire hasBudget; decide +kernel) | (unfold hasBudget; decide +kernel) | simp⟩,
  ⟨(wTrm { wMain with rptq := [{}] } : State), 0, {}, [], by refine ⟨?_, ?_, ?_, ?_, ?_, ?_, ?_, ?_, ?_⟩ <;> first | decide +kernel | rfl | (unfold canRetire hasBudget; decide +kernel) | (unfold hasBudget; decide +kernel) | simp⟩,
  ⟨(wTrm { wMain with run := .upcall, mainCtx := some {} } : State), 0, {}, by refine ⟨?_, ?_, ?_, ?_, ?_⟩ <;> first | decide +kernel | rfl | (unfold canRetire hasBudget; decide +kernel) | (unfold hasBudget; decide +kernel) | simp⟩⟩

theorem test_wit_TrimmerFaults :
    (∃ (s : State) (t : Nat) (rs1 : _) (rs2 : _) (m : _) (code : _) (n : _), (t < 128) ∧ (s.trms.swapDeadline = []) ∧ (rs1 < 32) ∧ (rs2 < 32) ∧ (s.trmRuns t = true) ∧ ((s.trmOf t).run = .handler) ∧ ((s.trmOf t).call.sitter = none) ∧ ((s.trmOf t).rptq = []) ∧ ((s.trmOf t).swap = none) ∧ ((s.trmOf t).mainCtx = some m) ∧ (s.tx t rs1 = code + n * 2 ^ 16) ∧ (code < 65536) ∧ (n ≤ 256) ∧ (0x9000 ≤ s.tx t rs2) ∧ (s.tx t rs2 + n ≤ 0x40000)) ∧
    (∃ (s : State) (t : Nat) (mc : _) (mv : _), (t < 128) ∧ (s.trms.swapDeadline = []) ∧ (mc < 2 ^ 64) ∧ (mv < 2 ^ 64) ∧ ((s.trmOf t).run = .handler) ∧ ((s.trmOf t).call.sitter = none) ∧ ((s.trmOf t).rptq = []) ∧ ((s.trmOf t).swap = none) ∧ ((s.trmOf t).mainCtx = none)) ∧
    (∃ (s : State) (t : Nat) (mc : _) (mv : _), (t < 128) ∧ (s.trms.swapDeadline = []) ∧ (mc < 2 ^ 64) ∧ (mv < 2 ^ 64) ∧ ((s.trmOf t).run = .main ∨ (s.trmOf t).run = .upcall)) ∧
    (∃ (s : State) (t : Nat) (addr : _), (t < 128) ∧ (s.trms.swapDeadline = []) ∧ (addr < 2 ^ 64) ∧ (t < s.variant.trimmers) ∧ ((s.trmOf t).fence.on = false) ∧ ((s.trmOf t).run = .none)) ∧
    (∃ (s : State) (t : Nat) (addr : _), (t < 128) ∧ (s.trms.swapDeadline = []) ∧ (addr < 2 ^ 64) ∧ (t < s.variant.trimmers) ∧ ((s.trmOf t).fence.on = false) ∧ ((s.trmOf t).run = .main)) :=
  ⟨⟨(wTrm { wMain with run := .handler, mainCtx := some {} } : State), 0, 1, 1, {}, 0x9000, 0, by refine ⟨?_, ?_, ?_, ?_, ?_, ?_, ?_, ?_, ?_, ?_, ?_, ?_, ?_, ?_, ?_⟩ <;> first | decide +kernel | rfl | (unfold canRetire hasBudget; decide +kernel) | (unfold hasBudget; decide +kernel) | simp⟩,
  ⟨(wTrm { wMain with run := .handler } : State), 0, 2, 2 ^ 64 - 1, by refine ⟨?_, ?_, ?_, ?_, ?_, ?_, ?_, ?_, ?_⟩ <;> first | decide +kernel | rfl | (unfold canRetire hasBudget; decide +kernel) | (unfold hasBudget; decide +kernel) | simp⟩,
  ⟨(wTrm wMain : State), 0, 2, 2 ^ 64 - 1, by refine ⟨?_, ?_, ?_, ?_, ?_⟩ <;> first | decide +kernel | rfl | (unfold canRetire hasBudget; decide +kernel) | (unfold hasBudget; decide +kernel) | simp⟩,
  ⟨(wTrm { wMain with run := .none } : State), 0, 0x9000, by refine ⟨?_, ?_, ?_, ?_, ?_, ?_⟩ <;> first | decide +kernel | rfl | (unfold canRetire hasBudget; decide +kernel) | (unfold hasBudget; decide +kernel) | simp⟩,
  ⟨(wTrm wMain : State), 0, 0x9000, by refine ⟨?_, ?_, ?_, ?_, ?_, ?_⟩ <;> first | decide +kernel | rfl | (unfold canRetire hasBudget; decide +kernel) | (unfold hasBudget; decide +kernel) | simp⟩⟩

theorem test_wit_TrimmerService :
    (∃ (s : State) (who : Who) (t : Nat), (who.wf = true) ∧ (t < 128) ∧ (t < s.variant.trimmers) ∧ ((s.trmOf t).fence = { on := true, cause := 2 })) ∧
    (∃ (s : State) (who : Who) (t : Nat), (who.wf = true) ∧ (t < 128) ∧ (s.csrGate who (trmCtrl t) true = none) ∧ ((s.trmOf t).fence.on = false) ∧ (s.trms.swapDeadline = [])) ∧
    (∃ (s : State) (who : Who) (t : Nat), (who.wf = true) ∧ (t < 128) ∧ (s.csrGate who (trmCtrl t) true = none) ∧ (liftsFence who = true) ∧ ((s.trmOf t).fence.on = true)) ∧
    (∃ (s : State) (who : Who) (t : Nat), (who.wf = true) ∧ (t < 128) ∧ (s.csrGate who (trmCtrl t) true = none) ∧ (liftsFence who = false)) ∧
    (∃ (s : State) (who : Who) (t : Nat), (who.wf = true) ∧ (t < 128) ∧ ((s.trmOf t).bist = true)) ∧
    (∃ (s : State) (who : Who) (t : Nat), (who.wf = true) ∧ (t < 128) ∧ ((s.trmOf t).fwDown = true) ∧ ((s.trmOf t).rptq = []) ∧ ((s.trmOf t).upcalls = [])) ∧
    (∃ (s : State) (who : Who) (t : Nat) (c : _) (rest : _), (who.wf = true) ∧ (t < 128) ∧ ((s.trmOf t).fwDown = true) ∧ ((s.trmOf t).rptq = c :: rest) ∧ ((s.trmOf t).run = .main) ∧ ((s.trmOf t).swap = none) ∧ ((s.trmOf t).fence.on = false) ∧ (2 ≤ (s.trmOf t).mode) ∧ (t < s.variant.trimmers) ∧ ((s.trmOf t).blocked = false) ∧ ((∀ e ∈ (s.trmOf t).upcalls, e.mcause ≠ 19))) ∧
    (∃ (s : State) (who : Who) (t : Nat) (g : _) (d : _), (who.wf = true) ∧ (t < 128) ∧ (g < 64) ∧ (afind s.trms.swapDeadline g = some d)) :=
  ⟨⟨wUp, .management, 127, by refine ⟨?_, ?_, ?_, ?_⟩ <;> first | decide +kernel | rfl | (unfold canRetire hasBudget; decide +kernel) | (unfold hasBudget; decide +kernel) | simp⟩,
  ⟨(wTrm wMain : State), .management, 0, by refine ⟨?_, ?_, ?_, ?_, ?_⟩ <;> first | decide +kernel | rfl | (unfold canRetire hasBudget; decide +kernel) | (unfold hasBudget; decide +kernel) | simp⟩,
  ⟨wUp, .management, 127, by refine ⟨?_, ?_, ?_, ?_, ?_⟩ <;> first | decide +kernel | rfl | (unfold canRetire hasBudget; decide +kernel) | (unfold hasBudget; decide +kernel) | simp⟩,
  ⟨wUp, (.operator 1 : Who), 127, by refine ⟨?_, ?_, ?_, ?_⟩ <;> first | decide +kernel | rfl | (unfold canRetire hasBudget; decide +kernel) | (unfold hasBudget; decide +kernel) | simp⟩,
  ⟨(wTrm { bist := true } : State), (.operator 1 : Who), 0, by refine ⟨?_, ?_, ?_⟩ <;> first | decide +kernel | rfl | (unfold canRetire hasBudget; decide +kernel) | (unfold hasBudget; decide +kernel) | simp⟩,
  ⟨(wTrm { fwDown := true } : State), (.operator 1 : Who), 0, by refine ⟨?_, ?_, ?_, ?_, ?_⟩ <;> first | decide +kernel | rfl | (unfold canRetire hasBudget; decide +kernel) | (unfold hasBudget; decide +kernel) | simp⟩,
  ⟨(wTrm { wMain with fwDown := true, rptq := [{}] } : State), (.operator 1 : Who), 0, {}, [], by refine ⟨?_, ?_, ?_, ?_, ?_, ?_, ?_, ?_, ?_, ?_, ?_⟩ <;> first | decide +kernel | rfl | (unfold canRetire hasBudget; decide +kernel) | (unfold hasBudget; decide +kernel) | simp⟩,
  ⟨({ wUp with trms := { swapDeadline := [(63, 9)] } } : State), (.operator 1 : Who), 0, 63, 9, by refine ⟨?_, ?_, ?_, ?_⟩ <;> first | decide +kernel | rfl | (unfold canRetire hasBudget; decide +kernel) | (unfold hasBudget; decide +kernel) | simp⟩⟩

theorem test_wit_StepTokens_1 :
    (∃ (s : State) (p : Packet), (p.wf = true) ∧ (s.token p 1 = none)) ∧
    (∃ (s : State) (p : Packet), (p.wf = true) ∧ (s.token p 2 = none)) ∧
    (∃ (s : State) (p : Packet), (p.wf = true) ∧ (s.token p 3 = none)) ∧
    (∃ (s : State) (p : Packet), (p.wf = true) ∧ (s.token p 4 = none)) ∧
    (∃ (s : State) (p : Packet), (p.wf = true) ∧ (s.token p 5 = none)) ∧
    (∃ (s : State) (p : Packet) (g : _), (p.wf = true) ∧ (s.token p 1 = some g) ∧ ((s.sitOf g).isOpen = false) ∧ ((s.sitOf g).replay = false) ∧ ((s.sitOf g).enterDue = false)) ∧
    (∃ (s : State) (p : Packet) (g : _), (p.wf = true) ∧ (s.token p 3 = some g) ∧ ((s.sitOf g).isOpen = true) ∧ ((s.sitOf g).step = tkStep p) ∧ ((s.sitOf g).epoch = tkEpoch p)) ∧
    (∃ (s : State) (p : Packet) (g : _), (p.wf = true) ∧ (s.token p 5 = some g) ∧ ((s.sitOf g).runs = true) ∧ ((s.sitOf g).step = tkStep p) ∧ ((s.sitOf g).epoch = tkEpoch p) ∧ ((s.sitOf g).isOpen = true)) :=
  ⟨⟨wUp, ({} : Packet), by refine ⟨?_, ?_⟩ <;> first | decide +kernel | rfl | (unfold canRetire hasBudget; decide +kernel) | (unfold hasBudget; decide +kernel) | simp⟩,
  ⟨wUp, ({} : Packet), by refine ⟨?_, ?_⟩ <;> first | decide +kernel | rfl | (unfold canRetire hasBudget; decide +kernel) | (unfold hasBudget; decide +kernel) | simp⟩,
  ⟨wUp, ({} : Packet), by refine ⟨?_, ?_⟩ <;> first | decide +kernel | rfl | (unfold canRetire hasBudget; decide +kernel) | (unfold hasBudget; decide +kernel) | simp⟩,
  ⟨wUp, ({} : Packet), by refine ⟨?_, ?_⟩ <;> first | decide +kernel | rfl | (unfold canRetire hasBudget; decide +kernel) | (unfold hasBudget; decide +kernel) | simp⟩,
  ⟨wUp, ({} : Packet), by refine ⟨?_, ?_⟩ <;> first | decide +kernel | rfl | (unfold canRetire hasBudget; decide +kernel) | (unfold hasBudget; decide +kernel) | simp⟩,
  ⟨wStep, (wTok 1 : Packet), 0, by refine ⟨?_, ?_, ?_, ?_, ?_⟩ <;> first | decide +kernel | rfl | (unfold canRetire hasBudget; decide +kernel) | (unfold hasBudget; decide +kernel) | simp⟩,
  ⟨(wSit { isOpen := true } {} : State), (wTok 3 : Packet), 0, by refine ⟨?_, ?_, ?_, ?_, ?_⟩ <;> first | decide +kernel | rfl | (unfold canRetire hasBudget; decide +kernel) | (unfold hasBudget; decide +kernel) | simp⟩,
  ⟨(wSit { isOpen := true, runs := true } {} : State), (wTok 5 : Packet), 0, by refine ⟨?_, ?_, ?_, ?_, ?_, ?_⟩ <;> first | decide +kernel | rfl | (unfold canRetire hasBudget; decide +kernel) | (unfold hasBudget; decide +kernel) | simp⟩⟩

theorem test_wit_StepTokens_2 :
    (∃ (s : State) (p : Packet) (g : _), (p.wf = true) ∧ (s.token p 5 = some g) ∧ ((s.sitOf g).runs = true) ∧ ((s.sitOf g).step = tkStep p) ∧ ((s.sitOf g).epoch = tkEpoch p) ∧ ((s.sitOf g).isOpen = false)) ∧
    (∃ (s : State) (p : Packet) (g : _), (p.wf = true) ∧ (s.token p 2 = some g) ∧ (s.leads (tkComp p) = true) ∧ ((s.leadOf (tkComp p)).phase = 1) ∧ ((s.leadOf (tkComp p)).step = tkStep p) ∧ ((s.leadOf (tkComp p)).epoch = tkEpoch p) ∧ ((s.awaited (tkComp p)).contains p.src = true) ∧ ((s.leadOf (tkComp p)).epDone.contains p.src = false)) ∧
    (∃ (s : State) (p : Packet) (g : _) (l : _), (p.wf = true) ∧ (s.token p 4 = some g) ∧ (s.leads (tkComp p) = true) ∧ (l = s.leadOf (tkComp p)) ∧ (2 ≤ l.phase) ∧ (l.step = tkStep p) ∧ (l.epoch = tkEpoch p) ∧ ((s.liveMembers (tkComp p)).contains (tkMember p) = true) ∧ (l.closed.contains (tkMember p) = false) ∧ ((s.liveMembers (tkComp p)).all (l.closed ++ [tkMember p]).contains = false)) ∧
    (∃ (s : State) (p : Packet) (g : _) (l : _), (p.wf = true) ∧ (s.token p 4 = some g) ∧ (s.leads (tkComp p) = true) ∧ (l = s.leadOf (tkComp p)) ∧ (2 ≤ l.phase) ∧ (l.step = tkStep p) ∧ (l.epoch = tkEpoch p) ∧ ((s.liveMembers (tkComp p)).contains (tkMember p) = true) ∧ (l.closed.contains (tkMember p) = false) ∧ ((s.liveMembers (tkComp p)).all (l.closed ++ [tkMember p]).contains = true) ∧ (l.phase = 3)) ∧
    (∃ (s : State) (p : Packet) (g : _) (l : _), (p.wf = true) ∧ (s.token p 4 = some g) ∧ (s.leads (tkComp p) = true) ∧ (l = s.leadOf (tkComp p)) ∧ (2 ≤ l.phase) ∧ (l.step = tkStep p) ∧ (l.epoch = tkEpoch p) ∧ ((s.liveMembers (tkComp p)).contains (tkMember p) = true) ∧ (l.closed.contains (tkMember p) = false) ∧ ((s.liveMembers (tkComp p)).all (l.closed ++ [tkMember p]).contains = true) ∧ (l.phase = 2) ∧ ((s.sitOf g).ctrlHold = false) ∧ ((s.sitOf g).replay = false) ∧ (s.arch.cp ≠ .restart)) :=
  ⟨⟨(wSit { runs := true } {} : State), (wTok 5 : Packet), 0, by refine ⟨?_, ?_, ?_, ?_, ?_, ?_⟩ <;> first | decide +kernel | rfl | (unfold canRetire hasBudget; decide +kernel) | (unfold hasBudget; decide +kernel) | simp⟩,
  ⟨(wSit {} { phase := 1, eps := [7] } : State), (wTok 2 : Packet), 0, by refine ⟨?_, ?_, ?_, ?_, ?_, ?_, ?_, ?_⟩ <;> first | decide +kernel | rfl | (unfold canRetire hasBudget; decide +kernel) | (unfold hasBudget; decide +kernel) | simp⟩,
  ⟨(wSit {} { phase := 2 } : State), (wTok 4 : Packet), 0, { phase := 2 }, by refine ⟨?_, ?_, ?_, ?_, ?_, ?_, ?_, ?_, ?_, ?_⟩ <;> first | decide +kernel | rfl | (unfold canRetire hasBudget; decide +kernel) | (unfold hasBudget; decide +kernel) | simp⟩,
  ⟨(wSit {} { phase := 3, closed := [1] } : State), (wTok 4 : Packet), 0, { phase := 3, closed := [1] }, by refine ⟨?_, ?_, ?_, ?_, ?_, ?_, ?_, ?_, ?_, ?_, ?_⟩ <;> first | decide +kernel | rfl | (unfold canRetire hasBudget; decide +kernel) | (unfold hasBudget; decide +kernel) | simp⟩,
  ⟨(wSit {} { phase := 2, closed := [1] } : State), (wTok 4 : Packet), 0, { phase := 2, closed := [1] }, by refine ⟨?_, ?_, ?_, ?_, ?_, ?_, ?_, ?_, ?_, ?_, ?_, ?_, ?_, ?_⟩ <;> first | decide +kernel | rfl | (unfold canRetire hasBudget; decide +kernel) | (unfold hasBudget; decide +kernel) | simp⟩⟩

theorem test_wit_StepLeader :
    (∃ (s : State) (comp : Nat) (g : Nat), (comp < 2 ^ 24) ∧ (s.sagOfComp comp = some g) ∧ (s.leads comp = true) ∧ ((s.leadOf comp).phase = 0) ∧ (s.compFenced comp = false) ∧ (s.meterStops g = false) ∧ ((s.leadOf comp).waitEpoch ≠ some s.img.epoch) ∧ ((s.sitOf g).isOpen = false) ∧ ((s.sitOf g).replay = false) ∧ ((s.sitOf g).enterDue = false) ∧ (s.liveEndpoints comp ≠ [])) ∧
    (∃ (s : State) (comp : Nat) (g : Nat), (comp < 2 ^ 24) ∧ (s.sagOfComp comp = some g) ∧ (s.leads comp = true) ∧ ((s.sitOf g).replay = true ∨ (s.sitOf g).enterDue = true) ∧ ((s.sitOf g).exitDue = false)) ∧
    (∃ (s : State) (comp : Nat) (g : Nat) (ep : _), (comp < 2 ^ 24) ∧ (s.sagOfComp comp = some g) ∧ (s.leads comp = true) ∧ (ep < 65536) ∧ ((s.leadOf comp).phase = 1) ∧ ((s.leadOf comp).epDone.contains ep = false) ∧ ((s.liveEndpoints comp).contains ep = true) ∧ ((s.awaited comp).contains ep = true)) ∧
    (∃ (s : State) (comp : Nat) (g : Nat) (ep : _), (comp < 2 ^ 24) ∧ (s.sagOfComp comp = some g) ∧ (s.leads comp = true) ∧ (ep < 65536) ∧ ((s.leadOf comp).phase = 1 ∨ (s.leadOf comp).phase = 2) ∧ ((s.liveEndpoints comp).contains ep = true)) :=
  ⟨⟨(wSit {} {} : State), 0, 0, by refine ⟨?_, ?_, ?_, ?_, ?_, ?_, ?_, ?_, ?_, ?_, ?_⟩ <;> first | decide +kernel | rfl | (unfold canRetire hasBudget; decide +kernel) | (unfold hasBudget; decide +kernel) | simp⟩,
  ⟨(wSit { replay := true } {} : State), 0, 0, by refine ⟨?_, ?_, ?_, ?_, ?_⟩ <;> first | decide +kernel | rfl | (unfold canRetire hasBudget; decide +kernel) | (unfold hasBudget; decide +kernel) | simp⟩,
  ⟨(wSit {} { phase := 1, eps := [7] } : State), 0, 0, 7, by refine ⟨?_, ?_, ?_, ?_, ?_, ?_, ?_, ?_⟩ <;> first | decide +kernel | rfl | (unfold canRetire hasBudget; decide +kernel) | (unfold hasBudget; decide +kernel) | simp⟩,
  ⟨(wSit {} { phase := 2 } : State), 0, 0, 7, by refine ⟨?_, ?_, ?_, ?_, ?_, ?_⟩ <;> first | decide +kernel | rfl | (unfold canRetire hasBudget; decide +kernel) | (unfold hasBudget; decide +kernel) | simp⟩⟩

theorem test_wit_StepRecords :
    (∃ (s : State) (comp : Nat) (g : Nat) (r : List Byte), (comp < 2 ^ 24) ∧ (g < 64) ∧ (s.sagOfComp comp = some g) ∧ (r = (stampLc s).stepRecord g) ∧ (s.jsl.late = []) ∧ ((s.sitOf g).isOpen = true) ∧ ((s.sitOf g).closing = true) ∧ ((s.sitOf g).recStall = false) ∧ (s.stepDrained g = true) ∧ ((s.sitOf g).replay = false) ∧ ((s.sitOf g).group.length < 1023) ∧ ((s.sitOf g).waiting = []) ∧ (r.length ≤ s.ringFree)) ∧
    (∃ (s : State) (comp : Nat) (g : Nat) (r : List Byte), (comp < 2 ^ 24) ∧ (g < 64) ∧ (s.sagOfComp comp = some g) ∧ (r = (stampLc s).stepRecord g) ∧ (s.jsl.late = []) ∧ ((s.sitOf g).isOpen = true) ∧ ((s.sitOf g).closing = true) ∧ ((s.sitOf g).recStall = false) ∧ (s.stepDrained g = true) ∧ ((s.sitOf g).replay = false) ∧ ((s.sitOf g).group.length < 1023) ∧ ((s.sitOf g).waiting = []) ∧ (s.ringFree < r.length)) ∧
    (∃ (s : State) (comp : Nat) (g : Nat) (r : List Byte) (n : _) (b : _), (comp < 2 ^ 24) ∧ (g < 64) ∧ (s.sagOfComp comp = some g) ∧ (r = (stampLc s).stepRecord g) ∧ (s.jsl.late = []) ∧ ((s.sitOf g).recStall = true) ∧ ((s.sitOf g).waiting = [(n, false, b)]) ∧ (b.length ≤ s.ringFree)) ∧
    (∃ (s : State) (comp : Nat) (g : Nat) (r : List Byte) (who : Who), (comp < 2 ^ 24) ∧ (g < 64) ∧ (s.sagOfComp comp = some g) ∧ (r = (stampLc s).stepRecord g) ∧ (s.jsl.late = []) ∧ (who.wf = true) ∧ (s.csrGate who (sitCtrl g) true = none) ∧ ((s.sitOf g).group ≠ []) ∧ ((s.sitOf g).waiting = [])) ∧
    (∃ (s : State) (comp : Nat) (g : Nat) (r : List Byte) (who : Who), (comp < 2 ^ 24) ∧ (g < 64) ∧ (s.sagOfComp comp = some g) ∧ (r = (stampLc s).stepRecord g) ∧ (s.jsl.late = []) ∧ (who.wf = true) ∧ (s.csrGate who (sitCtrl g) true = none) ∧ ((s.sitOf g).group = [])) ∧
    (∃ (s : State) (comp : Nat) (g : Nat) (r : List Byte) (b : List Byte), (comp < 2 ^ 24) ∧ (g < 64) ∧ (s.sagOfComp comp = some g) ∧ (r = (stampLc s).stepRecord g) ∧ (s.jsl.late = []) ∧ (256 ≤ b.length) ∧ ((s.sitOf g).replay = true ∨ (s.sitOf g).enterDue = true)) ∧
    (∃ (s : State) (comp : Nat) (g : Nat) (r : List Byte) (b : List Byte), (comp < 2 ^ 24) ∧ (g < 64) ∧ (s.sagOfComp comp = some g) ∧ (r = (stampLc s).stepRecord g) ∧ (s.jsl.late = []) ∧ (b.length < 256)) :=
  ⟨⟨(wSit { isOpen := true, closing := true } {} : State), 0, 0, ((stampLc (wSit { isOpen := true, closing := true } {})).stepRecord 0 : List Byte), ⟨by decide, by decide, by decide +kernel, rfl, rfl, by decide, by decide, by decide, by decide +kernel, by decide, by decide, by decide, Nat.le_trans (test_wRecord _ 0 rfl rfl rfl rfl).2 (by decide +kernel)⟩⟩,
  ⟨wFull, 0, 0, ((stampLc wFull).stepRecord 0 : List Byte), ⟨by decide, by decide, by decide +kernel, rfl, rfl, by decide, by decide, by decide, by decide +kernel, by decide, by decide, by decide, Nat.lt_of_le_of_lt (by decide +kernel) (test_wRecord (stampLc wFull) 0 rfl rfl rfl rfl).1⟩⟩,
  ⟨(wSit { recStall := true, waiting := [(4, false, [1])] } {} : State), 0, 0, ((stampLc (wSit { recStall := true, waiting := [(4, false, [1])] } {})).stepRecord 0 : List Byte), 4, [1], by refine ⟨?_, ?_, ?_, ?_, ?_, ?_, ?_, ?_⟩ <;> first | decide +kernel | rfl | (unfold canRetire hasBudget; decide +kernel) | (unfold hasBudget; decide +kernel) | simp⟩,
  ⟨(wSit { group := [[1]] } {} : State), 0, 0, ((stampLc (wSit { group := [[1]] } {})).stepRecord 0 : List Byte), .management, by refine ⟨?_, ?_, ?_, ?_, ?_, ?_, ?_, ?_, ?_⟩ <;> first | decide +kernel | rfl | (unfold canRetire hasBudget; decide +kernel) | (unfold hasBudget; decide +kernel) | simp⟩,
  ⟨(wSit {} {} : State), 0, 0, ((stampLc (wSit {} {})).stepRecord 0 : List Byte), .management, by refine ⟨?_, ?_, ?_, ?_, ?_, ?_, ?_, ?_⟩ <;> first | decide +kernel | rfl | (unfold canRetire hasBudget; decide +kernel) | (unfold hasBudget; decide +kernel) | simp⟩,
  ⟨(wSit { replay := true } {} : State), 0, 0, ((stampLc (wSit { replay := true } {})).stepRecord 0 : List Byte), (List.replicate 256 0 : List Byte), by refine ⟨?_, ?_, ?_, ?_, ?_, ?_, ?_⟩ <;> first | decide +kernel | rfl | (unfold canRetire hasBudget; decide +kernel) | (unfold hasBudget; decide +kernel) | simp⟩,
  ⟨(wSit { replay := true } {} : State), 0, 0, ((stampLc (wSit { replay := true } {})).stepRecord 0 : List Byte), (List.replicate 255 0 : List Byte), by refine ⟨?_, ?_, ?_, ?_, ?_, ?_⟩ <;> first | decide +kernel | rfl | (unfold canRetire hasBudget; decide +kernel) | (unfold hasBudget; decide +kernel) | simp⟩⟩

theorem test_wit_ExpertLayers_1 :
    (∃ (s : State) (g : Nat) (layer : Nat) (expert : Nat) (p : Packet), (g < 64) ∧ (layer < 256) ∧ (expert < 4096) ∧ (p.wf = true) ∧ (trainPart p = true) ∧ (joinTrain ((addPart p s.fab.frags).filter (sameTrain p)) = none)) ∧
    (∃ (s : State) (g : Nat) (layer : Nat) (expert : Nat) (p : Packet), (g < 64) ∧ (layer < 256) ∧ (expert < 4096) ∧ (p.wf = true) ∧ (trainPart p = false) ∧ (s.variant.arrays = 0)) ∧
    (∃ (s : State) (g : Nat) (layer : Nat) (expert : Nat) (p : Packet) (st : Status) (h : Nat), (g < 64) ∧ (layer < 256) ∧ (expert < 4096) ∧ (p.wf = true) ∧ (trainPart p = false) ∧ (s.variant.arrays ≠ 0) ∧ (s.stepRefusal p = some (st, h))) ∧
    (∃ (s : State) (g : Nat) (layer : Nat) (expert : Nat) (p : Packet), (g < 64) ∧ (layer < 256) ∧ (expert < 4096) ∧ (p.wf = true) ∧ (trainPart p = false) ∧ (s.variant.arrays ≠ 0) ∧ (s.stepRefusal p = none) ∧ (s.dispatchBad p = true)) ∧
    ((Config.planProgram [] 0 0 0).vecBytes = 0 → ∃ (s : State) (g : Nat) (layer : Nat) (expert : Nat) (p : Packet), (g < 64) ∧ (layer < 256) ∧ (expert < 4096) ∧ (p.wf = true) ∧ (trainPart p = false) ∧ (p.saggar = g) ∧ (dhLayer p = layer) ∧ (dhExpert p = expert) ∧ (s.variant.arrays ≠ 0) ∧ (s.stepRefusal p = none) ∧ (s.dispatchBad p = false) ∧ (dhFwd p = false) ∧ (s.homeOf g (s.expert g layer expert) = s.myMember (s.sagComp g)) ∧ ((s.sitOf g).held.contains p = false) ∧ (s.dispatchBytes g + p.payload.length ≤ s.sagParam g 0x0304 * 2 ^ 20) ∧ (s.stepCheck g (dhStep p) = .open_) ∧ ((s.sitOf g).aborted = false) ∧ ((s.sitOf g).replay = false) ∧ ((s.sitOf g).choices = []) ∧ ((s.sitOf g).cutLayers = []) ∧ ((s.sitOf g).closedLayers = []) ∧ ((s.sitOf g).pend = []) ∧ ((s.sitOf g).began = []) ∧ (1 < s.sagParam g 0x0301)) ∧
    (∃ (s : State) (g : Nat) (layer : Nat) (expert : Nat), (g < 64) ∧ (layer < 256) ∧ (expert < 4096) ∧ ((s.sitOf g).isOpen = true) ∧ ((s.sitOf g).closedLayers.contains layer = false) ∧ (layer < s.layers g)) ∧
    (∃ (s : State) (g : Nat) (layer : Nat) (expert : Nat), (g < 64) ∧ (layer < 256) ∧ (expert < 4096) ∧ ((s.sitOf g).isOpen = true) ∧ ((s.sitOf g).cutLayers.contains layer = false) ∧ (layer < s.layers g)) ∧
    ((Config.planProgram [] 0 0 0).tiles = [] → ∃ (s : State) (g : Nat) (layer : Nat) (expert : Nat) (b : _), (g < 64) ∧ (layer < 256) ∧ (expert < 4096) ∧ ((s.sitOf g).aborted = false) ∧ (((s.sitOf g).batches.filter (fun b => b.layer = layer && b.expert = expert)).any (fun b => b.issued && !b.left.isEmpty) = false) ∧ (((s.sitOf g).batches.filter (fun b => b.layer = layer && b.expert = expert)).find? (fun b => !b.issued) = some b) ∧ (s.batchReady g b = true) ∧ (((s.sitOf g).batches.filter (fun b => b.layer = layer && b.expert = expert)).any (fun y => y.issued && y.bank = b.bank) = false)) :=
  ⟨⟨wUp, 63, 255, 4095, ({ offset := 512 } : Packet), by refine ⟨?_, ?_, ?_, ?_, ?_, ?_⟩ <;> first | decide +kernel | rfl | (unfold canRetire hasBudget; decide +kernel) | (unfold hasBudget; decide +kernel) | simp⟩,
  ⟨({ variant := .plf0pf } : State), 63, 255, 4095, ({} : Packet), by refine ⟨?_, ?_, ?_, ?_, ?_, ?_⟩ <;> first | decide +kernel | rfl | (unfold canRetire hasBudget; decide +kernel) | (unfold hasBudget; decide +kernel) | simp⟩,
  ⟨wUp, 63, 255, 4095, ({} : Packet), .denied, 0, by refine ⟨?_, ?_, ?_, ?_, ?_, ?_, ?_⟩ <;> first | decide +kernel | rfl | (unfold canRetire hasBudget; decide +kernel) | (unfold hasBudget; decide +kernel) | simp⟩,
  ⟨(wExp {} : State), 1, 0, 0, ({ saggar := 1 } : Packet), by refine ⟨?_, ?_, ?_, ?_, ?_, ?_, ?_, ?_⟩ <;> first | decide +kernel | rfl | (unfold canRetire hasBudget; decide +kernel) | (unfold hasBudget; decide +kernel) | simp⟩,
  fun h => ⟨(wExp { isOpen := true } : State), 1, 0, 0, ({ saggar := 1, payload := natLe 1 8 ++ zeros 56 } : Packet), by refine ⟨?_, ?_, ?_, ?_, ?_, ?_, ?_, ?_, ?_, ?_, ?_, ?_, ?_, ?_, ?_, ?_, ?_, ?_, ?_, ?_, ?_, ?_, ?_, ?_⟩ <;> first | decide +kernel | rfl | (have e : (wExp { isOpen := true }).sagBody tySTEPPLAN 1 = [] := (by decide +kernel); have d : dhLayer { saggar := 1, payload := natLe 1 8 ++ zeros 56 } = 0 ∧ dhExpert { saggar := 1, payload := natLe 1 8 ++ zeros 56 } = 0 := (by decide +kernel); simp only [State.dispatchBad, State.prog, State.progOf, e, d.1, d.2, h]; decide +kernel) | (unfold canRetire hasBudget; decide +kernel) | (unfold hasBudget; decide +kernel) | simp⟩,
  ⟨(wExp { isOpen := true } : State), 1, 0, 0, by refine ⟨?_, ?_, ?_, ?_, ?_, ?_⟩ <;> first | decide +kernel | rfl | (unfold canRetire hasBudget; decide +kernel) | (unfold hasBudget; decide +kernel) | simp⟩,
  ⟨(wExp { isOpen := true } : State), 1, 0, 0, by refine ⟨?_, ?_, ?_, ?_, ?_, ?_⟩ <;> first | decide +kernel | rfl | (unfold canRetire hasBudget; decide +kernel) | (unfold hasBudget; decide +kernel) | simp⟩,
  fun h => ⟨(wExp { batches := [{}] } : State), 1, 0, 0, {}, by refine ⟨?_, ?_, ?_, ?_, ?_, ?_, ?_, ?_⟩ <;> first | decide +kernel | rfl | (simp [State.batchReady, State.prog, State.progOf, show (wExp { batches := [{}] }).sagBody tySTEPPLAN 1 = [] from by decide +kernel, h]) | (unfold canRetire hasBudget; decide +kernel) | (unfold hasBudget; decide +kernel) | simp⟩⟩

theorem test_wit_ExpertLayers_2 :
    (∃ (s : State) (g : Nat) (layer : Nat) (expert : Nat) (b : _), (g < 64) ∧ (layer < 256) ∧ (expert < 4096) ∧ ((s.sitOf g).aborted = false) ∧ (((s.sitOf g).batches.filter (fun b => b.layer = layer && b.expert = expert)).any (fun b => b.issued && !b.left.isEmpty) = false) ∧ (((s.sitOf g).batches.filter (fun b => b.layer = layer && b.expert = expert)).find? (fun b => !b.issued) = some b) ∧ (s.batchReady g b = false ∨ ((s.sitOf g).batches.filter (fun b => b.layer = layer && b.expert = expert)).any (fun y => y.issued && y.bank = b.bank) = true)) ∧
    ((Config.planProgram [] 0 0 0).tiles = [{}] → ∃ (s : State) (g : Nat) (layer : Nat) (expert : Nat) (tile : _) (t : _) (s0 : _) (f : _) (u' : _), (g < 64) ∧ (layer < 256) ∧ (expert < 4096) ∧ (tile < 2 ^ 20) ∧ (t = s.planTile g (layer, expert, tile)) ∧ (s.nextTile g = some (layer, expert, tile)) ∧ (s.placeFree g t = true) ∧ (s.tileIn g t [2] = true ∨ s.tileFromT3 g t = true) ∧ (s0 = (if s.tileIn g t [2] || !s.isShort 2 g then s else noteFallback g s)) ∧ (copyTile g t s0 = (f, u')) ∧ (f = .done)) ∧
    ((Config.planProgram [] 0 0 0).tiles = [{ table := 1 }] → ∃ (s : State) (g : Nat) (layer : Nat) (expert : Nat) (tile : _) (t : _) (s0 : _) (f : _) (u' : _), (g < 64) ∧ (layer < 256) ∧ (expert < 4096) ∧ (tile < 2 ^ 20) ∧ (t = s.planTile g (layer, expert, tile)) ∧ (s.nextTile g = some (layer, expert, tile)) ∧ (s.placeFree g t = true) ∧ (s.tileIn g t [2] = true ∨ s.tileFromT3 g t = true) ∧ (s0 = (if s.tileIn g t [2] || !s.isShort 2 g then s else noteFallback g s)) ∧ (copyTile g t s0 = (f, u')) ∧ (f = .refused)) ∧
    ((Config.planProgram [] 0 0 0).tiles = [{ table := 1 }] → ∃ (s : State) (g : Nat) (layer : Nat) (expert : Nat) (tile : _) (t : _) (s0 : _) (f : _) (u' : _), (g < 64) ∧ (layer < 256) ∧ (expert < 4096) ∧ (tile < 2 ^ 20) ∧ (t = s.planTile g (layer, expert, tile)) ∧ (s.nextTile g = some (layer, expert, tile)) ∧ (s.placeFree g t = true) ∧ (s.tileIn g t [2] = true ∨ s.tileFromT3 g t = true) ∧ (s0 = (if s.tileIn g t [2] || !s.isShort 2 g then s else noteFallback g s)) ∧ (copyTile g t s0 = (f, u')) ∧ (f = .waits)) :=
  ⟨⟨(wExp { batches := [{ issued := true }, {}] } : State), 1, 0, 0, {}, by refine ⟨?_, ?_, ?_, ?_, ?_, ?_, Or.inr (by decide)⟩ <;> first | decide +kernel | rfl | (unfold canRetire hasBudget; decide +kernel) | (unfold hasBudget; decide +kernel) | simp⟩,
  fun h => ⟨(wTile false : State), 1, 0, 0, 0, {}, wTile false, .done, (copyTile 1 {} (wTile false)).2, by refine ⟨?_, ?_, ?_, ?_, (test_wPlan _ _ h).symm, test_wNext _ _ (Or.inl rfl) h, ?_, Or.inl (by decide +kernel), (if_pos (by decide +kernel)).symm, test_wPair (test_wCopy_done), ?_⟩ <;> first | decide +kernel | rfl | (unfold canRetire hasBudget; decide +kernel) | (unfold hasBudget; decide +kernel) | simp⟩,
  fun h => ⟨(wTile false : State), 1, 0, 0, 0, { table := 1 }, wTile false, .refused, (copyTile 1 { table := 1 } (wTile false)).2, by refine ⟨?_, ?_, ?_, ?_, (test_wPlan _ _ h).symm, test_wNext _ _ (Or.inr rfl) h, ?_, Or.inl (by decide +kernel), (if_pos (by decide +kernel)).symm, test_wPair (test_wCopy_refused), ?_⟩ <;> first | decide +kernel | rfl | (unfold canRetire hasBudget; decide +kernel) | (unfold hasBudget; decide +kernel) | simp⟩,
  fun h => ⟨(wTile true : State), 1, 0, 0, 0, { table := 1 }, wTile true, .waits, (copyTile 1 { table := 1 } (wTile true)).2, by refine ⟨?_, ?_, ?_, ?_, (test_wPlan _ _ h).symm, test_wNext _ _ (Or.inr rfl) h, ?_, Or.inl (by decide +kernel), (if_pos (by decide +kernel)).symm, test_wPair (test_wCopy_waits), ?_⟩ <;> first | decide +kernel | rfl | (unfold canRetire hasBudget; decide +kernel) | (unfold hasBudget; decide +kernel) | simp⟩⟩

theorem test_wit_AttendAcceptance :
    (∃ (s : State) (p : Packet), (p.wf = true) ∧ (trainPart p = true) ∧ (joinTrain ((addPart p s.fab.frags).filter (sameTrain p)) = none)) ∧
    (∃ (s : State) (p : Packet) (w : _), (p.wf = true) ∧ (trainPart p = true) ∧ (joinTrain ((addPart p s.fab.frags).filter (sameTrain p)) = some w)) ∧
    (∃ (s : State) (p : Packet), (p.wf = true) ∧ (trainPart p = false) ∧ (s.variant.arrays = 0)) ∧
    (∃ (s : State) (p : Packet) (st : _) (h : _), (p.wf = true) ∧ (trainPart p = false) ∧ (s.attendRefusal p = some (st, h))) ∧
    (∃ (s : State) (p : Packet), (p.wf = true) ∧ (trainPart p = false) ∧ (s.attendRefusal p = none) ∧ (s.stepCheck p.saggar (atStep p) = .next ∨ (s.sitOf p.saggar).aborted = true)) ∧
    (∃ (s : State) (p : Packet), (p.wf = true) ∧ (trainPart p = false) ∧ (s.attendRefusal p = none) ∧ (s.stepCheck p.saggar (atStep p) ≠ .next) ∧ ((s.sitOf p.saggar).aborted = false)) :=
  ⟨⟨wUp, ({ offset := 512 } : Packet), by refine ⟨?_, ?_, ?_⟩ <;> first | decide +kernel | rfl | (unfold canRetire hasBudget; decide +kernel) | (unfold hasBudget; decide +kernel) | simp⟩,
  ⟨({ wUp with fab := { frags := [{ last := false, payload := zeros 512 }] } } : State), ({ offset := 512, last := true } : Packet), { last := true, payload := zeros 512 }, by refine ⟨?_, ?_, ?_⟩ <;> first | decide +kernel | rfl | (unfold canRetire hasBudget; decide +kernel) | (unfold hasBudget; decide +kernel) | simp⟩,
  ⟨({ variant := .plf0pf } : State), ({} : Packet), by refine ⟨?_, ?_, ?_⟩ <;> first | decide +kernel | rfl | (unfold canRetire hasBudget; decide +kernel) | (unfold hasBudget; decide +kernel) | simp⟩,
  ⟨wUp, ({} : Packet), .denied, 0, by refine ⟨?_, ?_, ?_⟩ <;> first | decide +kernel | rfl | (unfold canRetire hasBudget; decide +kernel) | (unfold hasBudget; decide +kernel) | simp⟩,
  ⟨(wAttS {} wKv : State), wAtt, by refine ⟨?_, ?_, ?_, ?_⟩ <;> first | decide +kernel | rfl | (unfold canRetire hasBudget; decide +kernel) | (unfold hasBudget; decide +kernel) | simp⟩,
  ⟨({ wAttS {} wKv with sit := [(0, { isOpen := true })] } : State), wAtt, by refine ⟨?_, ?_, ?_, ?_, ?_⟩ <;> first | decide +kernel | rfl | (unfold canRetire hasBudget; decide +kernel) | (unfold hasBudget; decide +kernel) | simp⟩⟩

theorem test_wit_AttendBlocks :
    (∃ (s : State) (id : Nat) (j : Nat) (h : Nat) (lo : Nat) (hi : Nat) (label : Nat) (q : AttReq) (r : Region) (ver : Option Nat), (id < 2 ^ 32) ∧ (j < 2 ^ 31) ∧ (h < 256) ∧ (q ∈ s.att.reqs) ∧ ((∀ x ∈ s.att.reqs, x.id = id ↔ x = q)) ∧ (r = s.region (atRegion q.p)) ∧ (ver = (if atVersion q.p = 0xFFFFFFFF then none else some (atVersion q.p))) ∧ (label = max (j * r.tPg) (atPosLo q.p)) ∧ (lo = label - j * r.tPg) ∧ (hi = min r.tPg (atSeqLen q.p - j * r.tPg) - 1) ∧ (q.active = false ∨ (j, h) ∉ q.left ∨ s.attArray q.p.saggar = none)) ∧
    (∃ (s : State) (id : Nat) (j : Nat) (h : Nat) (lo : Nat) (hi : Nat) (label : Nat) (q : AttReq) (r : Region) (ver : Option Nat) (a : _) (res : _) (s' : _), (id < 2 ^ 32) ∧ (j < 2 ^ 31) ∧ (h < 256) ∧ (q ∈ s.att.reqs) ∧ ((∀ x ∈ s.att.reqs, x.id = id ↔ x = q)) ∧ (r = s.region (atRegion q.p)) ∧ (ver = (if atVersion q.p = 0xFFFFFFFF then none else some (atVersion q.p))) ∧ (label = max (j * r.tPg) (atPosLo q.p)) ∧ (lo = label - j * r.tPg) ∧ (hi = min r.tPg (atSeqLen q.p - j * r.tPg) - 1) ∧ (q.active = true) ∧ ((j, h) ∈ q.left) ∧ (s.attArray q.p.saggar = some a) ∧ (readBlock r ver (r.kvPage (atLayer q.p) h j) (h % r.hPg) lo hi s = (res, s')) ∧ (res = .error .waits ∨ (∃ n, res = .error (.retry n)))) ∧
    (∃ (s : State) (id : Nat) (j : Nat) (h : Nat) (lo : Nat) (hi : Nat) (label : Nat) (q : AttReq) (r : Region) (ver : Option Nat) (a : _) (res : _) (s' : _) (rows : _) (sd : _) (vd : _) (fS : _) (fV : _) (ps : _) (ovf : _), (id < 2 ^ 32) ∧ (j < 2 ^ 31) ∧ (h < 256) ∧ (q ∈ s.att.reqs) ∧ ((∀ x ∈ s.att.reqs, x.id = id ↔ x = q)) ∧ (r = s.region (atRegion q.p)) ∧ (ver = (if atVersion q.p = 0xFFFFFFFF then none else some (atVersion q.p))) ∧ (label = max (j * r.tPg) (atPosLo q.p)) ∧ (lo = label - j * r.tPg) ∧ (hi = min r.tPg (atSeqLen q.p - j * r.tPg) - 1) ∧ (q.active = true) ∧ ((j, h) ∈ q.left) ∧ (s.attArray q.p.saggar = some a) ∧ (readBlock r ver (r.kvPage (atLayer q.p) h j) (h % r.hPg) lo hi s = (res, s')) ∧ (res = .ok rows) ∧ ((∀ d, s'.maySend (.trimmer (s'.attTrimmer q.p.saggar)) d q.p.saggar = false)) ∧ (s'.att = s.att) ∧ (sd = (scoreJob r q.p a Config.attendPage (h % r.hPg) (lo / 32 * 32) hi).desc) ∧ (vd = (valueJob r q.p a Config.attendValues hi).desc) ∧ (fS = s'.attF q.p h 0 sd) ∧ (fV = s'.attF q.p h 1 vd) ∧ ((ps, ovf) = blockPartials q.p h lo sd vd fS fV rows) ∧ (0 < atGq q.p)) ∧
    (∃ (s : State) (id : Nat) (j : Nat) (h : Nat) (lo : Nat) (hi : Nat) (label : Nat) (q : AttReq) (r : Region) (ver : Option Nat) (a : _) (res : _) (s' : _) (e : _), (id < 2 ^ 32) ∧ (j < 2 ^ 31) ∧ (h < 256) ∧ (q ∈ s.att.reqs) ∧ ((∀ x ∈ s.att.reqs, x.id = id ↔ x = q)) ∧ (r = s.region (atRegion q.p)) ∧ (ver = (if atVersion q.p = 0xFFFFFFFF then none else some (atVersion q.p))) ∧ (label = max (j * r.tPg) (atPosLo q.p)) ∧ (lo = label - j * r.tPg) ∧ (hi = min r.tPg (atSeqLen q.p - j * r.tPg) - 1) ∧ (q.active = true) ∧ ((j, h) ∈ q.left) ∧ (s.attArray q.p.saggar = some a) ∧ (readBlock r ver (r.kvPage (atLayer q.p) h j) (h % r.hPg) lo hi s = (res, s')) ∧ (res = .error e) ∧ (e ≠ .waits) ∧ ((∀ n, e ≠ .retry n)) ∧ (0 < atGq q.p) ∧ (s'.att = s.att) ∧ ((∀ d, s'.maySend (.trimmer (s'.attTrimmer q.p.saggar)) d q.p.saggar = false))) :=
  ⟨⟨(wAttS { p := wAtt } wKv : State), 0, 0, 0, 0, 0, 0, ({ p := wAtt } : AttReq), wKv, none, by refine ⟨?_, ?_, ?_, ?_, ?_, ?_, ?_, ?_, ?_, ?_, ?_⟩ <;> first | decide +kernel | rfl | (unfold canRetire hasBudget; decide +kernel) | (unfold hasBudget; decide +kernel) | simp⟩,
  ⟨({ wAttS { p := wAtt, active := true, left := [(0, 0)] } { wKv with working := [(0, [9])] } with tie := { regions := [(0, { wKv with working := [(0, [9])] })], frames := [(9, { tier := 4 })] } } : State), 0, 0, 0, 0, 0, 0, ({ p := wAtt, active := true, left := [(0, 0)] } : AttReq), ({ wKv with working := [(0, [9])] } : Region), none, 0, .error (.retry 14), (readBlock { wKv with working := [(0, [9])] } none 0 0 0 0 ({ wAttS { p := wAtt, active := true, left := [(0, 0)] } { wKv with working := [(0, [9])] } with tie := { regions := [(0, { wKv with working := [(0, [9])] })], frames := [(9, { tier := 4 })] } })).2, by refine ⟨?_, ?_, ?_, ?_, ?_, ?_, ?_, ?_, ?_, ?_, ?_, ?_, ?_, test_wPair (by decide +kernel), Or.inr ⟨14, rfl⟩⟩ <;> first | decide +kernel | rfl | (unfold canRetire hasBudget; decide +kernel) | (unfold hasBudget; decide +kernel) | simp⟩,
  ⟨wAtS, 0, 0, 0, 0, 0, 0, ({ p := wAtt, active := true, left := [(0, 0)] } : AttReq), wKv, none, 0, .ok wRows, wAtS2, wRows, wAtSd, wAtVd, autoF 2 64, autoF 2 64, wAtPs.1, wAtPs.2, by refine ⟨?_, ?_, ?_, ?_, ?_, ?_, ?_, ?_, ?_, ?_, ?_, ?_, ?_, test_wAtRead, ?_, test_wMuteR _ _ test_wAtOutst.2 test_wAtOutst.1 _, test_wAtKept, rfl, rfl, test_wAtF.1.symm, test_wAtF.2.symm, test_wAtPs, ?_⟩ <;> first | decide +kernel | rfl | (unfold canRetire hasBudget; decide +kernel) | (unfold hasBudget; decide +kernel) | simp⟩,
  ⟨(wMute (wAttS { p := wAtt, active := true, left := [(0, 0)] } { wKv with lostPages := [0] }) : State), 0, 0, 0, 0, 0, 0, ({ p := wAtt, active := true, left := [(0, 0)] } : AttReq), ({ wKv with lostPages := [0] } : Region), none, 0, .error .poison, (readBlock { wKv with lostPages := [0] } none 0 0 0 0 (wMute (wAttS { p := wAtt, active := true, left := [(0, 0)] } { wKv with lostPages := [0] }))).2, .poison, by refine ⟨?_, ?_, ?_, ?_, ?_, ?_, ?_, ?_, ?_, ?_, ?_, ?_, ?_, test_wPair (by decide +kernel), ?_, ?_, (fun n k => by cases k), ?_, ?_, test_wMuteR _ _ (by decide +kernel) (by decide +kernel) _⟩ <;> first | decide +kernel | rfl | (unfold canRetire hasBudget; decide +kernel) | (unfold hasBudget; decide +kernel) | simp⟩⟩

theorem test_wit_PoolProcedures_1 :
    (∃ (s : State) (p : Packet) (d : List Byte), (p.wf = true) ∧ (s.rptRefusal p = none) ∧ (d = callArgs p) ∧ (s.arch.cp = .restart) ∧ (callProc p = 0xFF0)) ∧
    (∃ (s : State) (p : Packet) (d : List Byte), (p.wf = true) ∧ (s.rptRefusal p = none) ∧ (d = callArgs p) ∧ (s.arch.cp = .restart) ∧ (callProc p = 0xFF1)) ∧
    (∃ (s : State) (p : Packet) (d : List Byte), (p.wf = true) ∧ (s.rptRefusal p = none) ∧ (d = callArgs p) ∧ (s.arch.cp = .restart) ∧ (callProc p = 0xFF2)) ∧
    (∃ (s : State) (p : Packet) (d : List Byte), (p.wf = true) ∧ (s.rptRefusal p = none) ∧ (d = callArgs p) ∧ (s.arch.cp = .restart) ∧ (callProc p = 0xFF3)) ∧
    (∃ (s : State) (p : Packet) (d : List Byte) (r : Region) (st : _), (p.wf = true) ∧ (s.rptRefusal p = none) ∧ (d = callArgs p) ∧ (s.arch.cp ≠ .restart) ∧ (callProc p = 0xFF0) ∧ (r = regionOfDesc d) ∧ (s.createRefusal r d p.saggar p.dst = some st)) ∧
    (∃ (s : State) (p : Packet) (d : List Byte) (r : Region), (p.wf = true) ∧ (s.rptRefusal p = none) ∧ (d = callArgs p) ∧ (s.arch.cp ≠ .restart) ∧ (callProc p = 0xFF0) ∧ (r = regionOfDesc d) ∧ (s.createRefusal r d p.saggar p.dst = none) ∧ (s.awaitsFlash r = true)) ∧
    (∃ (s : State) (p : Packet) (d : List Byte) (r : Region), (p.wf = true) ∧ (s.rptRefusal p = none) ∧ (d = callArgs p) ∧ (s.arch.cp ≠ .restart) ∧ (callProc p = 0xFF0) ∧ (r = regionOfDesc d) ∧ (s.createRefusal r d p.saggar p.dst = none) ∧ (s.awaitsFlash r = false)) ∧
    (∃ (s : State) (p : Packet) (d : List Byte), (p.wf = true) ∧ (s.rptRefusal p = none) ∧ (d = callArgs p) ∧ (s.arch.cp ≠ .restart) ∧ (callProc p = 0xFF1) ∧ (s.ownRegion p (le d 0 4) = none)) :=
  ⟨⟨({ wUp with arch := { cp := .restart } } : State), (wCall 0xFF0 [] : Packet), ([] : List Byte), by refine ⟨?_, ?_, ?_, ?_, ?_⟩ <;> first | decide +kernel | rfl | (unfold canRetire hasBudget; decide +kernel) | (unfold hasBudget; decide +kernel) | simp⟩,
  ⟨({ wUp with arch := { cp := .restart } } : State), (wCall 0xFF1 [] : Packet), ([] : List Byte), by refine ⟨?_, ?_, ?_, ?_, ?_⟩ <;> first | decide +kernel | rfl | (unfold canRetire hasBudget; decide +kernel) | (unfold hasBudget; decide +kernel) | simp⟩,
  ⟨({ wUp with arch := { cp := .restart } } : State), (wCall 0xFF2 [] : Packet), ([] : List Byte), by refine ⟨?_, ?_, ?_, ?_, ?_⟩ <;> first | decide +kernel | rfl | (unfold canRetire hasBudget; decide +kernel) | (unfold hasBudget; decide +kernel) | simp⟩,
  ⟨({ wUp with arch := { cp := .restart } } : State), (wCall 0xFF3 [] : Packet), ([] : List Byte), by refine ⟨?_, ?_, ?_, ?_, ?_⟩ <;> first | decide +kernel | rfl | (unfold canRetire hasBudget; decide +kernel) | (unfold hasBudget; decide +kernel) | simp⟩,
  ⟨wUp, (wCall 0xFF0 [] : Packet), ([] : List Byte), (regionOfDesc [] : Region), .denied, by refine ⟨?_, ?_, ?_, ?_, ?_, ?_, ?_⟩ <;> first | decide +kernel | rfl | (unfold canRetire hasBudget; decide +kernel) | (unfold hasBudget; decide +kernel) | simp⟩,
  ⟨({ wSag with flm := { st := 5 } } : State), (wCall 0xFF0 (wRegD 3) : Packet), (wRegD 3 : List Byte), (regionOfDesc (wRegD 3) : Region), by refine ⟨?_, ?_, ?_, ?_, ?_, ?_, ?_, ?_⟩ <;> first | decide +kernel | rfl | (unfold canRetire hasBudget; decide +kernel) | (unfold hasBudget; decide +kernel) | simp⟩,
  ⟨({ wSag with flm := { st := 5 } } : State), (wCall 0xFF0 (wRegD 1) : Packet), (wRegD 1 : List Byte), (regionOfDesc (wRegD 1) : Region), by refine ⟨?_, ?_, ?_, ?_, ?_, ?_, ?_, ?_⟩ <;> first | decide +kernel | rfl | (unfold canRetire hasBudget; decide +kernel) | (unfold hasBudget; decide +kernel) | simp⟩,
  ⟨wUp, (wCall 0xFF1 (zeros 8) : Packet), (zeros 8 : List Byte), by refine ⟨?_, ?_, ?_, ?_, ?_, ?_⟩ <;> first | decide +kernel | rfl | (unfold canRetire hasBudget; decide +kernel) | (unfold hasBudget; decide +kernel) | simp⟩⟩

theorem test_wit_PoolProcedures_2 :
    (∃ (s : State) (p : Packet) (d : List Byte) (r : Region), (p.wf = true) ∧ (s.rptRefusal p = none) ∧ (d = callArgs p) ∧ (s.arch.cp ≠ .restart) ∧ (callProc p = 0xFF1) ∧ (s.ownRegion p (le d 0 4) = some r) ∧ (r.viewOpen = true) ∧ (bit (le d 4 1) 0 = false)) ∧
    (∃ (s : State) (p : Packet) (d : List Byte) (r : Region), (p.wf = true) ∧ (s.rptRefusal p = none) ∧ (d = callArgs p) ∧ (s.arch.cp ≠ .restart) ∧ (callProc p = 0xFF1) ∧ (s.ownRegion p (le d 0 4) = some r) ∧ (r.id = le d 0 4) ∧ (r.viewOpen = false ∨ bit (le d 4 1) 0 = true)) ∧
    (∃ (s : State) (p : Packet) (d : List Byte) (r : Region) (id : _) (l : _), (p.wf = true) ∧ (s.rptRefusal p = none) ∧ (d = callArgs p) ∧ (afind s.tie.regions id = some r) ∧ (r.deleting = some l) ∧ ((s.tie.regions.map (·.1)).Nodup) ∧ (l.any s.inHand = true)) ∧
    (∃ (s : State) (p : Packet) (d : List Byte) (r : Region) (id : _) (l : _) (f : _), (p.wf = true) ∧ (s.rptRefusal p = none) ∧ (d = callArgs p) ∧ (afind s.tie.regions id = some r) ∧ (r.deleting = some l) ∧ ((s.tie.regions.map (·.1)).Nodup) ∧ (l.any s.inHand = false) ∧ (f ∈ r.held) ∧ ((∀ x ∈ s.tie.regions, x.1 ≠ id → f ∉ x.2.held))) ∧
    (∃ (s : State) (p : Packet) (d : List Byte) (r : Region) (id : _) (l : _) (f : _), (p.wf = true) ∧ (s.rptRefusal p = none) ∧ (d = callArgs p) ∧ (afind s.tie.regions id = some r) ∧ (r.deleting = some l) ∧ ((s.tie.regions.map (·.1)).Nodup) ∧ (l.any s.inHand = false) ∧ ((∀ x ∈ s.tie.regions, x.2.deleting ≠ none → f ∉ x.2.held))) ∧
    (∃ (s : State) (p : Packet) (d : List Byte) (r : Region) (id : _) (l : _) (k : _) (x : _), (p.wf = true) ∧ (s.rptRefusal p = none) ∧ (d = callArgs p) ∧ (afind s.tie.regions id = some r) ∧ (r.deleting = some l) ∧ ((s.tie.regions.map (·.1)).Nodup) ∧ (l.any s.inHand = false) ∧ (afind s.tie.regions k = some x) ∧ (x.deleting = none)) ∧
    (∃ (s : State) (p : Packet) (d : List Byte) (r : Region), (p.wf = true) ∧ (s.rptRefusal p = none) ∧ (d = callArgs p) ∧ (s.arch.cp ≠ .restart) ∧ (callProc p = 0xFF2) ∧ (s.ownRegion p (le d 0 4) = some r) ∧ (r.id = le d 0 4) ∧ (r.kind = 0) ∧ (r.sealed_ = false)) ∧
    (∃ (s : State) (p : Packet) (d : List Byte) (r : Region), (p.wf = true) ∧ (s.rptRefusal p = none) ∧ (d = callArgs p) ∧ (s.arch.cp ≠ .restart) ∧ (callProc p = 0xFF2) ∧ (s.ownRegion p (le d 0 4) = some r) ∧ (r.kind ≠ 0 ∨ r.sealed_ = true)) :=
  ⟨⟨(wPool { versions := [(1, { opens := [(7, 1)] })] } : State), (wCall 0xFF1 (zeros 8) : Packet), (zeros 8 : List Byte), ({ versions := [(1, { opens := [(7, 1)] })] } : Region), by refine ⟨?_, ?_, ?_, ?_, ?_, ?_, ?_, ?_⟩ <;> first | decide +kernel | rfl | (unfold canRetire hasBudget; decide +kernel) | (unfold hasBudget; decide +kernel) | simp⟩,
  ⟨(wPool {} : State), (wCall 0xFF1 (zeros 8) : Packet), (zeros 8 : List Byte), ({} : Region), by refine ⟨?_, ?_, ?_, ?_, ?_, ?_, ?_, ?_⟩ <;> first | decide +kernel | rfl | (unfold canRetire hasBudget; decide +kernel) | (unfold hasBudget; decide +kernel) | simp⟩,
  ⟨({ wPool { deleting := some [{}] } with fab := { inbox := [{}] } } : State), (wCall 0xFF1 (zeros 8) : Packet), (zeros 8 : List Byte), ({ deleting := some [{}] } : Region), 0, [{}], by refine ⟨?_, ?_, ?_, ?_, ?_, ?_, ?_⟩ <;> first | decide +kernel | rfl | (unfold canRetire hasBudget; decide +kernel) | (unfold hasBudget; decide +kernel) | simp⟩,
  ⟨({ wPool {} with tie := { regions := [(0, { deleting := some [], working := [(0, [9])] })], frames := [(9, { tier := 2 }), (8, { tier := 2 })] } } : State), (wCall 0xFF1 (zeros 8) : Packet), (zeros 8 : List Byte), ({ deleting := some [], working := [(0, [9])] } : Region), 0, [], 9, by refine ⟨?_, ?_, ?_, ?_, ?_, ?_, ?_, ?_, ?_⟩ <;> first | decide +kernel | rfl | (unfold canRetire hasBudget; decide +kernel) | (unfold hasBudget; decide +kernel) | simp⟩,
  ⟨({ wPool {} with tie := { regions := [(0, { deleting := some [], working := [(0, [9])] })], frames := [(9, { tier := 2 }), (8, { tier := 2 })] } } : State), (wCall 0xFF1 (zeros 8) : Packet), (zeros 8 : List Byte), ({ deleting := some [], working := [(0, [9])] } : Region), 0, [], 8, by refine ⟨?_, ?_, ?_, ?_, ?_, ?_, ?_, ?_⟩ <;> first | decide +kernel | rfl | (unfold canRetire hasBudget; decide +kernel) | (unfold hasBudget; decide +kernel) | simp⟩,
  ⟨({ wPool {} with tie := { regions := [(0, { deleting := some [], working := [(0, [9])] }), (1, {})] } } : State), (wCall 0xFF1 (zeros 8) : Packet), (zeros 8 : List Byte), ({ deleting := some [], working := [(0, [9])] } : Region), 0, [], 1, {}, by refine ⟨?_, ?_, ?_, ?_, ?_, ?_, ?_, ?_, ?_⟩ <;> first | decide +kernel | rfl | (unfold canRetire hasBudget; decide +kernel) | (unfold hasBudget; decide +kernel) | simp⟩,
  ⟨(wPool {} : State), (wCall 0xFF2 (zeros 8) : Packet), (zeros 8 : List Byte), ({} : Region), by refine ⟨?_, ?_, ?_, ?_, ?_, ?_, ?_, ?_, ?_⟩ <;> first | decide +kernel | rfl | (unfold canRetire hasBudget; decide +kernel) | (unfold hasBudget; decide +kernel) | simp⟩,
  ⟨(wPool { kind := 1 } : State), (wCall 0xFF2 (zeros 8) : Packet), (zeros 8 : List Byte), ({ kind := 1 } : Region), by refine ⟨?_, ?_, ?_, ?_, ?_, ?_, ?_⟩ <;> first | decide +kernel | rfl | (unfold canRetire hasBudget; decide +kernel) | (unfold hasBudget; decide +kernel) | simp⟩⟩

theorem test_wit_PoolProcedures_3 :
    (∃ (s : State) (p : Packet) (d : List Byte) (r : Region), (p.wf = true) ∧ (s.rptRefusal p = none) ∧ (d = callArgs p) ∧ (s.arch.cp ≠ .restart) ∧ (callProc p = 0xFF3) ∧ (s.ownRegion p (le d 0 4) = some r)) :=
  ⟨(wPool { kind := 1 } : State), (wCall 0xFF3 (zeros 8) : Packet), (zeros 8 : List Byte), ({ kind := 1 } : Region), by refine ⟨?_, ?_, ?_, ?_, ?_, ?_⟩ <;> first | decide +kernel | rfl | (unfold canRetire hasBudget; decide +kernel) | (unfold hasBudget; decide +kernel) | simp⟩

theorem test_wit_Snapshots_1 :
    (∃ (s : State) (p : Packet) (q : Packet) (st : _) (h : _), (p.wf = true) ∧ (q = { p with opcode := opOPEN }) ∧ (s.snapRefusal q = .error (st, h))) ∧
    (∃ (s : State) (p : Packet) (q : Packet) (st : _) (h : _), (p.wf = true) ∧ (q = { p with opcode := opCLOSE }) ∧ (s.snapRefusal q = .error (st, h))) ∧
    (∃ (s : State) (p : Packet) (q : Packet) (st : _) (h : _), (p.wf = true) ∧ (q = { p with opcode := opPUBLISH }) ∧ (s.snapRefusal q = .error (st, h))) ∧
    (∃ (s : State) (p : Packet) (q : Packet) (r : Region) (v : Nat) (n : Nat) (base : Nat) (ver : Version), (p.wf = true) ∧ (q = { p with opcode := opOPEN }) ∧ (s.snapRefusal q = .ok r) ∧ (v = (if le q.payload 4 4 = 0 then r.version else le q.payload 4 4)) ∧ (v ≠ 0) ∧ (afind r.versions v = some ver) ∧ ((r.immutable = true → r.sealed_ = true)) ∧ (n = aget ver.opens q.src 0) ∧ (afind s.tie.regions r.id = some r) ∧ (n < 65535) ∧ (ver.view.or (if 65536 ≤ s.viewCount then none else s.viewBase r.size) = some base)) ∧
    (∃ (s : State) (p : Packet) (q : Packet) (r : Region) (v : Nat) (n : Nat) (ver : Version), (p.wf = true) ∧ (q = { p with opcode := opOPEN }) ∧ (s.snapRefusal q = .ok r) ∧ (v = (if le q.payload 4 4 = 0 then r.version else le q.payload 4 4)) ∧ (v ≠ 0) ∧ (afind r.versions v = some ver) ∧ ((r.immutable = true → r.sealed_ = true)) ∧ (n = aget ver.opens q.src 0) ∧ (afind s.tie.regions r.id = some r) ∧ (65535 ≤ n ∨ ver.view.or (if 65536 ≤ s.viewCount then none else s.viewBase r.size) = none)) ∧
    (∃ (s : State) (p : Packet) (q : Packet) (r : Region), (p.wf = true) ∧ (q = { p with opcode := opOPEN }) ∧ (s.snapRefusal q = .ok r) ∧ (le q.payload 4 4 = 0) ∧ (r.version = 0)) ∧
    (∃ (s : State) (p : Packet) (q : Packet) (r : Region) (v : Nat) (n : Nat) (ver : Version), (p.wf = true) ∧ (q = { p with opcode := opCLOSE }) ∧ (s.snapRefusal q = .ok r) ∧ (v = le q.payload 4 4) ∧ (ver = aget r.versions v {}) ∧ (n = aget ver.opens q.src 0) ∧ (afind s.tie.regions r.id = some r) ∧ (n = 0)) ∧
    (∃ (s : State) (p : Packet) (q : Packet) (r : Region) (v : Nat) (n : Nat) (ver : Version), (p.wf = true) ∧ (q = { p with opcode := opCLOSE }) ∧ (s.snapRefusal q = .ok r) ∧ (v = le q.payload 4 4) ∧ (ver = aget r.versions v {}) ∧ (n = aget ver.opens q.src 0) ∧ (afind s.tie.regions r.id = some r) ∧ (n ≠ 0) ∧ (v = r.version)) :=
  ⟨⟨wUp, (wSnap 0 : Packet), ({ wSnap 0 with opcode := opOPEN } : Packet), .denied, 0, by refine ⟨?_, ?_, ?_⟩ <;> first | decide +kernel | rfl | (unfold canRetire hasBudget; decide +kernel) | (unfold hasBudget; decide +kernel) | simp⟩,
  ⟨wUp, (wSnap 0 : Packet), ({ wSnap 0 with opcode := opCLOSE } : Packet), .denied, 0, by refine ⟨?_, ?_, ?_⟩ <;> first | decide +kernel | rfl | (unfold canRetire hasBudget; decide +kernel) | (unfold hasBudget; decide +kernel) | simp⟩,
  ⟨wUp, (wSnap 0 : Packet), ({ wSnap 0 with opcode := opPUBLISH } : Packet), .denied, 0, by refine ⟨?_, ?_, ?_⟩ <;> first | decide +kernel | rfl | (unfold canRetire hasBudget; decide +kernel) | (unfold hasBudget; decide +kernel) | simp⟩,
  ⟨(wPool { kind := 1, version := 1, versions := [(1, {})] } : State), (wSnap 0 : Packet), ({ wSnap 0 with opcode := opOPEN } : Packet), ({ kind := 1, version := 1, versions := [(1, {})] } : Region), 1, 0, (2 ^ 47 : Nat), ({} : Version), by refine ⟨?_, ?_, ?_, ?_, ?_, ?_, ?_, ?_, ?_, ?_, ?_⟩ <;> first | decide +kernel | rfl | (unfold canRetire hasBudget; decide +kernel) | (unfold hasBudget; decide +kernel) | simp⟩,
  ⟨(wPool { kind := 1, version := 1, versions := [(1, { opens := [(7, 65535)] })] } : State), (wSnap 0 : Packet), ({ wSnap 0 with opcode := opOPEN } : Packet), ({ kind := 1, version := 1, versions := [(1, { opens := [(7, 65535)] })] } : Region), 1, 65535, ({ opens := [(7, 65535)] } : Version), by refine ⟨?_, ?_, ?_, ?_, ?_, ?_, ?_, ?_, ?_, ?_⟩ <;> first | decide +kernel | rfl | (unfold canRetire hasBudget; decide +kernel) | (unfold hasBudget; decide +kernel) | simp⟩,
  ⟨(wPool { kind := 1 } : State), (wSnap 0 : Packet), ({ wSnap 0 with opcode := opOPEN } : Packet), ({ kind := 1 } : Region), by refine ⟨?_, ?_, ?_, ?_, ?_⟩ <;> first | decide +kernel | rfl | (unfold canRetire hasBudget; decide +kernel) | (unfold hasBudget; decide +kernel) | simp⟩,
  ⟨(wPool { kind := 1 } : State), (wSnap 0 : Packet), ({ wSnap 0 with opcode := opCLOSE } : Packet), ({ kind := 1 } : Region), 0, 0, ({} : Version), by refine ⟨?_, ?_, ?_, ?_, ?_, ?_, ?_, ?_⟩ <;> first | decide +kernel | rfl | (unfold canRetire hasBudget; decide +kernel) | (unfold hasBudget; decide +kernel) | simp⟩,
  ⟨(wPool { kind := 1, version := 1, versions := [(1, { opens := [(7, 1)] })] } : State), (wSnap 1 : Packet), ({ wSnap 1 with opcode := opCLOSE } : Packet), ({ kind := 1, version := 1, versions := [(1, { opens := [(7, 1)] })] } : Region), 1, 1, ({ opens := [(7, 1)] } : Version), by refine ⟨?_, ?_, ?_, ?_, ?_, ?_, ?_, ?_, ?_⟩ <;> first | decide +kernel | rfl | (unfold canRetire hasBudget; decide +kernel) | (unfold hasBudget; decide +kernel) | simp⟩⟩

theorem test_wit_Snapshots_2 :
    (∃ (s : State) (p : Packet) (q : Packet) (r : Region) (v : Nat) (n : Nat) (ver : Version), (p.wf = true) ∧ (q = { p with opcode := opCLOSE }) ∧ (s.snapRefusal q = .ok r) ∧ (v = le q.payload 4 4) ∧ (ver = aget r.versions v {}) ∧ (n = aget ver.opens q.src 0) ∧ (afind s.tie.regions r.id = some r) ∧ (ver.opens = [(q.src, 1)]) ∧ (v ≠ r.version) ∧ ((r.versions.map (·.1)).Nodup)) ∧
    (∃ (s : State) (p : Packet) (q : Packet) (r : Region), (p.wf = true) ∧ (q = { p with opcode := opPUBLISH }) ∧ (s.snapRefusal q = .ok r) ∧ (r.kind ≠ 0) ∧ (afind s.tie.regions r.id = some r) ∧ ((r.coh = 2 → r.inTransfer = false ∧ q.src = r.owner)) ∧ (le q.payload 4 4 = r.version) ∧ (r.version + 1 ≤ 0xFFFFFFFE)) ∧
    (∃ (s : State) (p : Packet) (q : Packet) (r : Region), (p.wf = true) ∧ (q = { p with opcode := opPUBLISH }) ∧ (s.snapRefusal q = .ok r) ∧ (r.kind ≠ 0) ∧ (afind s.tie.regions r.id = some r) ∧ ((r.coh = 2 → r.inTransfer = false ∧ q.src = r.owner)) ∧ (le q.payload 4 4 ≠ r.version)) ∧
    (∃ (s : State) (p : Packet) (q : Packet) (r : Region), (p.wf = true) ∧ (q = { p with opcode := opPUBLISH }) ∧ (s.snapRefusal q = .ok r) ∧ (r.kind = 0)) ∧
    (∃ (s : State) (p : Packet) (q : Packet) (r : Region), (p.wf = true) ∧ (q = { p with opcode := opPUBLISH }) ∧ (s.snapRefusal q = .ok r) ∧ (r.kind ≠ 0) ∧ (r.coh = 2) ∧ (r.inTransfer = true)) ∧
    (∃ (s : State) (p : Packet) (q : Packet) (r : Region), (p.wf = true) ∧ (q = { p with opcode := opPUBLISH }) ∧ (s.snapRefusal q = .ok r) ∧ (r.kind ≠ 0) ∧ (r.coh = 2) ∧ (r.inTransfer = false) ∧ (q.src ≠ r.owner)) :=
  ⟨⟨(wPool { kind := 1, version := 2, versions := [(1, { opens := [(7, 1)] })] } : State), (wSnap 1 : Packet), ({ wSnap 1 with opcode := opCLOSE } : Packet), ({ kind := 1, version := 2, versions := [(1, { opens := [(7, 1)] })] } : Region), 1, 1, ({ opens := [(7, 1)] } : Version), by refine ⟨?_, ?_, ?_, ?_, ?_, ?_, ?_, ?_, ?_, ?_⟩ <;> first | decide +kernel | rfl | (unfold canRetire hasBudget; decide +kernel) | (unfold hasBudget; decide +kernel) | simp⟩,
  ⟨(wPool { kind := 1, version := 0xFFFFFFFD } : State), (wSnap 0xFFFFFFFD : Packet), ({ wSnap 0xFFFFFFFD with opcode := opPUBLISH } : Packet), ({ kind := 1, version := 0xFFFFFFFD } : Region), by refine ⟨?_, ?_, ?_, ?_, ?_, ?_, ?_, ?_⟩ <;> first | decide +kernel | rfl | (unfold canRetire hasBudget; decide +kernel) | (unfold hasBudget; decide +kernel) | simp⟩,
  ⟨(wPool { kind := 1, version := 0xFFFFFFFD } : State), (wSnap 1 : Packet), ({ wSnap 1 with opcode := opPUBLISH } : Packet), ({ kind := 1, version := 0xFFFFFFFD } : Region), by refine ⟨?_, ?_, ?_, ?_, ?_, ?_, ?_⟩ <;> first | decide +kernel | rfl | (unfold canRetire hasBudget; decide +kernel) | (unfold hasBudget; decide +kernel) | simp⟩,
  ⟨(wPool {} : State), (wSnap 1 : Packet), ({ wSnap 1 with opcode := opPUBLISH } : Packet), ({} : Region), by refine ⟨?_, ?_, ?_, ?_⟩ <;> first | decide +kernel | rfl | (unfold canRetire hasBudget; decide +kernel) | (unfold hasBudget; decide +kernel) | simp⟩,
  ⟨(wPool { kind := 1, coh := 2, inTransfer := true } : State), (wSnap 1 : Packet), ({ wSnap 1 with opcode := opPUBLISH } : Packet), ({ kind := 1, coh := 2, inTransfer := true } : Region), by refine ⟨?_, ?_, ?_, ?_, ?_, ?_⟩ <;> first | decide +kernel | rfl | (unfold canRetire hasBudget; decide +kernel) | (unfold hasBudget; decide +kernel) | simp⟩,
  ⟨(wPool { kind := 1, coh := 2 } : State), (wSnap 1 : Packet), ({ wSnap 1 with opcode := opPUBLISH } : Packet), ({ kind := 1, coh := 2 } : Region), by refine ⟨?_, ?_, ?_, ?_, ?_, ?_, ?_⟩ <;> first | decide +kernel | rfl | (unfold canRetire hasBudget; decide +kernel) | (unfold hasBudget; decide +kernel) | simp⟩⟩

theorem test_wit_PageMoves_1 :
    (∃ (s : State) (id : Nat) (page : Nat) (r : Region) (m : PageMove), (id < 2 ^ 32) ∧ (page < 2 ^ 31) ∧ (afind s.tie.regions id = some r) ∧ (r.moves.find? (fun m => m.page = page && m.node.isNone) = some m) ∧ (Memory.wf s.tie.mem) ∧ (m.src ≠ m.dst) ∧ (ahas s.tie.frames m.src = true) ∧ (ahas s.tie.frames m.dst = true) ∧ ((∀ g ∈ m.dirty, g < 256)) ∧ (s.frameTier m.dst ≠ 4) ∧ (m.written ≠ [])) ∧
    (∃ (s : State) (id : Nat) (page : Nat) (r : Region) (m : PageMove), (id < 2 ^ 32) ∧ (page < 2 ^ 31) ∧ (afind s.tie.regions id = some r) ∧ (r.moves.find? (fun m => m.page = page && m.node.isNone) = some m) ∧ (Memory.wf s.tie.mem) ∧ (m.src ≠ m.dst) ∧ (ahas s.tie.frames m.src = true) ∧ (ahas s.tie.frames m.dst = true) ∧ ((∀ g ∈ m.dirty, g < 256)) ∧ (s.frameTier m.dst ≠ 4) ∧ (m.written = []) ∧ (r.kind ≠ 0)) ∧
    (∃ (s : State) (id : Nat) (page : Nat) (r : Region) (m : PageMove), (id < 2 ^ 32) ∧ (page < 2 ^ 31) ∧ (afind s.tie.regions id = some r) ∧ (r.moves.find? (fun m => m.page = page && m.node.isNone) = some m) ∧ (Memory.wf s.tie.mem) ∧ (m.src ≠ m.dst) ∧ (ahas s.tie.frames m.src = true) ∧ (ahas s.tie.frames m.dst = true) ∧ ((∀ g ∈ m.dirty, g < 256)) ∧ (s.frameTier m.dst = 4) ∧ (m.write.isSome = true ∨ (m.dirty ≠ [] ∧ s.writeRefusal (t4Frame m.dst) r.saggar ≠ none))) ∧
    (∃ (s : State) (id : Nat) (page : Nat) (r : Region) (m : PageMove), (id < 2 ^ 32) ∧ (page < 2 ^ 31) ∧ (afind s.tie.regions id = some r) ∧ (r.moves.find? (fun m => m.page = page && m.node.isNone) = some m) ∧ (Memory.wf s.tie.mem) ∧ (m.src ≠ m.dst) ∧ (ahas s.tie.frames m.src = true) ∧ (ahas s.tie.frames m.dst = true) ∧ ((∀ g ∈ m.dirty, g < 256)) ∧ (s.frameTier m.dst = 4) ∧ (m.write = none) ∧ (m.dirty ≠ []) ∧ (s.writeRefusal (t4Frame m.dst) r.saggar = none)) ∧
    (∃ (s : State) (id : Nat) (page : Nat), (id < 2 ^ 32) ∧ (page < 2 ^ 31) ∧ ((s.region id).moves.find? (fun m => m.page = page && m.node.isNone) = none)) ∧
    (∃ (s : State) (m : Nat), (m < 32) ∧ (ahas s.tie.movers m = true ∨ s.nextJob m = none)) ∧
    (∃ (s : State) (m : Nat) (j : _) (n : _) (op : _), (m < 32) ∧ (ahas s.tie.movers m = false) ∧ (s.nextJob m = some j) ∧ (j.fromNode.or j.toNode = some n) ∧ (op = (if j.fromNode.isSome then opREAD else opWRITE))) ∧
    (∃ (s : State) (m : Nat) (j : _) (f : _) (r : _), (m < 32) ∧ (ahas s.tie.movers m = false) ∧ (s.nextJob m = some j) ∧ (j.remote = false) ∧ (j.count = 1) ∧ (afind s.tie.regions j.region = some r) ∧ (s.servingFrame (pageFrames r j.ver j.page) = some f) ∧ (s.frameTier f ≠ j.toTier) ∧ (r.moves.any (fun v => v.page = j.page) = false) ∧ ((polTiers r.tierPol).contains j.toTier = true) ∧ ((j.toTier = 4 → s.isShort 4 r.saggar = false ∧ s.flm.st = 3 ∧ s.wbufRoom = true)) ∧ (s.freeIn j.toTier r.saggar ≠ 0) ∧ (s.pickUnit j.toTier r.saggar r j.page ≠ none)) :=
  ⟨⟨({ wUp with tie := { regions := [(0, { moves := [{ src := 1, dst := 2, written := [3] }] })], frames := [(1, {}), (2, {})] } } : State), 0, 0, ({ moves := [{ src := 1, dst := 2, written := [3] }] } : Region), ({ src := 1, dst := 2, written := [3] } : PageMove), by refine ⟨?_, ?_, ?_, ?_, ?_, ?_, ?_, ?_, ?_, ?_, ?_⟩ <;> first | decide +kernel | rfl | (unfold canRetire hasBudget; decide +kernel) | (unfold hasBudget; decide +kernel) | simp⟩,
  ⟨({ wUp with tie := { regions := [(0, { kind := 1, moves := [{ src := 1, dst := 2 }] })], frames := [(1, {}), (2, {})] } } : State), 0, 0, ({ kind := 1, moves := [{ src := 1, dst := 2 }] } : Region), ({ src := 1, dst := 2 } : PageMove), by refine ⟨?_, ?_, ?_, ?_, ?_, ?_, ?_, ?_, ?_, ?_, ?_, ?_⟩ <;> first | decide +kernel | rfl | (unfold canRetire hasBudget; decide +kernel) | (unfold hasBudget; decide +kernel) | simp⟩,
  ⟨({ wUp with tie := { regions := [(0, { moves := [{ src := 1, dst := 2, write := some 0 }] })], frames := [(1, {}), (2, { tier := 4 })] } } : State), 0, 0, ({ moves := [{ src := 1, dst := 2, write := some 0 }] } : Region), ({ src := 1, dst := 2, write := some 0 } : PageMove), by refine ⟨?_, ?_, ?_, ?_, ?_, ?_, ?_, ?_, ?_, ?_, ?_⟩ <;> first | decide +kernel | rfl | (unfold canRetire hasBudget; decide +kernel) | (unfold hasBudget; decide +kernel) | simp⟩,
  ⟨wFlashMove, 0, 0, ({ moves := [{ src := 1, dst := 2 ^ 40 }] } : Region), ({ src := 1, dst := 2 ^ 40 } : PageMove), by refine ⟨?_, ?_, ?_, ?_, ?_, ?_, ?_, ?_, ?_, ?_, ?_, ?_, ?_⟩ <;> first | decide +kernel | rfl | (unfold canRetire hasBudget; decide +kernel) | (unfold hasBudget; decide +kernel) | simp⟩,
  ⟨wUp, 0, 0, by refine ⟨?_, ?_, ?_⟩ <;> first | decide +kernel | rfl | (unfold canRetire hasBudget; decide +kernel) | (unfold hasBudget; decide +kernel) | simp⟩,
  ⟨wUp, 31, by refine ⟨?_, ?_⟩ <;> first | decide +kernel | rfl | (unfold canRetire hasBudget; decide +kernel) | (unfold hasBudget; decide +kernel) | simp⟩,
  ⟨({ wUp with tie := { queue := [{ toNode := some 5 }] } } : State), 31, { toNode := some 5 }, 5, opWRITE, by refine ⟨?_, ?_, ?_, ?_, ?_⟩ <;> first | decide +kernel | rfl | (unfold canRetire hasBudget; decide +kernel) | (unfold hasBudget; decide +kernel) | simp⟩,
  ⟨({ wPool {} with tie := { queue := [{}], regions := [(0, { tierPol := 2, working := [(0, [1])] })], frames := [(1, { tier := 2 })], ddr := [(0, { fence := {}, trained := true, capGib := 64 })] } } : State), 31, {}, 1, { tierPol := 2, working := [(0, [1])] }, by refine ⟨?_, ?_, ?_, ?_, ?_, ?_, ?_, ?_, ?_, ?_, ?_, ?_, ?_⟩ <;> first | decide +kernel | rfl | (unfold canRetire hasBudget; decide +kernel) | (unfold hasBudget; decide +kernel) | simp⟩⟩

theorem test_wit_PageMoves_2 :
    (∃ (s : State) (m : Nat), (m < 32) ∧ (afind s.tie.movers m = none)) ∧
    (∃ (s : State) (m : Nat) (x : _), (m < 32) ∧ (afind s.tie.movers m = some x) ∧ (x.job.remote = false) ∧ ((∀ v ∈ (s.region x.job.region).moves, x.job.has v = true → s.frameTier v.dst ≠ 4))) ∧
    (∃ (s : State) (m : Nat) (x : _), (m < 32) ∧ (afind s.tie.movers m = some x) ∧ (x.job.remote = true) ∧ (x.job.count ≤ x.done) ∧ (x.todo = []) ∧ (x.tags = [])) ∧
    (∃ (s : State) (m : Nat) (x : _), (m < 32) ∧ (afind s.tie.movers m = some x) ∧ (x.job.remote = true) ∧ (x.done < x.job.count ∨ x.todo ≠ [] ∨ x.tags ≠ [])) ∧
    (∃ (tier : Nat), tier < 5) :=
  ⟨⟨wUp, 31, by refine ⟨?_, ?_⟩ <;> first | decide +kernel | rfl | (unfold canRetire hasBudget; decide +kernel) | (unfold hasBudget; decide +kernel) | simp⟩,
  ⟨({ wUp with tie := { movers := [(0, {})] } } : State), 0, {}, by refine ⟨?_, ?_, ?_, ?_⟩ <;> first | decide +kernel | rfl | (unfold canRetire hasBudget; decide +kernel) | (unfold hasBudget; decide +kernel) | simp⟩,
  ⟨({ wUp with tie := { movers := [(0, { job := { toNode := some 5 }, done := 1 })] } } : State), 0, { job := { toNode := some 5 }, done := 1 }, by refine ⟨?_, ?_, ?_, ?_, ?_, ?_⟩ <;> first | decide +kernel | rfl | (unfold canRetire hasBudget; decide +kernel) | (unfold hasBudget; decide +kernel) | simp⟩,
  ⟨({ wUp with tie := { movers := [(0, { job := { toNode := some 5 } })] } } : State), 0, { job := { toNode := some 5 } }, by refine ⟨?_, ?_, ?_, ?_⟩ <;> first | decide +kernel | rfl | (unfold canRetire hasBudget; decide +kernel) | (unfold hasBudget; decide +kernel) | simp⟩,
  ⟨4, by first | decide +kernel | rfl | (unfold canRetire hasBudget; decide +kernel) | (unfold hasBudget; decide +kernel) | simp⟩⟩

theorem test_wit_TierManager_1 :
    (∃ (s : State) (id : Nat) (page : Nat) (f : Nat) (tier : Nat) (r : Region), (id < 2 ^ 32) ∧ (page < 2 ^ 31) ∧ (r = s.region id) ∧ (s.servingFrame (aget r.working page []) = some f) ∧ (tier = s.frameTier f) ∧ (3 ≤ tier) ∧ ((polTiers r.tierPol).contains (tier - 1) = true) ∧ (s.cEffOf r page tier < (s.thresholds r.saggar (tier - 1)).1)) ∧
    (∃ (s : State) (id : Nat) (page : Nat) (f : Nat) (tier : Nat) (r : Region), (id < 2 ^ 32) ∧ (page < 2 ^ 31) ∧ (r = s.region id) ∧ (s.servingFrame (aget r.working page []) = some f) ∧ (tier = s.frameTier f) ∧ (3 ≤ tier) ∧ ((polTiers r.tierPol).contains (tier - 1) = true) ∧ ((s.thresholds r.saggar (tier - 1)).1 ≤ s.cEffOf r page tier) ∧ (s.reserveIn (tier - 1) r.saggar < s.freeIn (tier - 1) r.saggar)) ∧
    (∃ (s : State) (id : Nat) (page : Nat) (f : Nat) (tier : Nat) (r : Region) (d : Nat × Nat × Nat), (id < 2 ^ 32) ∧ (page < 2 ^ 31) ∧ (r = s.region id) ∧ (s.servingFrame (aget r.working page []) = some f) ∧ (tier = s.frameTier f) ∧ (3 ≤ tier) ∧ ((polTiers r.tierPol).contains (tier - 1) = true) ∧ ((s.thresholds r.saggar (tier - 1)).1 ≤ s.cEffOf r page tier) ∧ (s.freeIn (tier - 1) r.saggar ≤ s.reserveIn (tier - 1) r.saggar) ∧ (coldest ((s.demotable (tier - 1) r.saggar).filter (fun d => decide (d.2.2 < (s.thresholds r.saggar (tier - 1)).2))) = some d)) ∧
    (∃ (s : State) (id : Nat) (page : Nat) (f : Nat) (tier : Nat) (r : Region), (id < 2 ^ 32) ∧ (page < 2 ^ 31) ∧ (r = s.region id) ∧ (s.servingFrame (aget r.working page []) = some f) ∧ (tier = s.frameTier f) ∧ (3 ≤ tier) ∧ ((polTiers r.tierPol).contains (tier - 1) = true) ∧ ((s.thresholds r.saggar (tier - 1)).1 ≤ s.cEffOf r page tier) ∧ (s.freeIn (tier - 1) r.saggar ≤ s.reserveIn (tier - 1) r.saggar) ∧ ((∀ d ∈ s.demotable (tier - 1) r.saggar, (s.thresholds r.saggar (tier - 1)).2 ≤ d.2.2))) ∧
    (∃ (s : State) (id : Nat) (page : Nat), (id < 2 ^ 32) ∧ (page < 2 ^ 31) ∧ (s.servingFrame (aget (s.region id).working page []) = none)) ∧
    (∃ (g : Nat) (tier : Nat), (g < 64) ∧ (tier < 5) ∧ (tier < 2)) ∧
    (∃ (s : State) (g : Nat) (tier : Nat), (g < 64) ∧ (tier < 5) ∧ (2 ≤ tier) ∧ (tier = 4 ∨ s.isShort tier g = false)) ∧
    (∃ (s : State) (g : Nat) (tier : Nat) (d : Nat × Nat × Nat) (j : MoverJob), (g < 64) ∧ (tier < 5) ∧ (tier = 2 ∨ tier = 3) ∧ (s.isShort tier g = true) ∧ (s.spareImmutable tier g = []) ∧ ((tier = 3 → s.fitted capFLM = true)) ∧ (coldest (s.demotable tier g) = some d) ∧ (j = { cls := 4, region := d.1, page := d.2.1, toTier := tier + 1, saggar := g }) ∧ (s.tie.queue.contains j = false) ∧ (s.tie.movers.any (fun x => x.2.job = j) = false)) :=
  ⟨⟨({ wUp with tie := { regions := [(0, { tierPol := 2, working := [(0, [1])] })], frames := [(1, {})] } } : State), 0, 0, 1, 3, ({ tierPol := 2, working := [(0, [1])] } : Region), by refine ⟨?_, ?_, ?_, ?_, ?_, ?_, ?_, ?_⟩ <;> first | decide +kernel | rfl | (unfold canRetire hasBudget; decide +kernel) | (unfold hasBudget; decide +kernel) | simp⟩,
  ⟨({ wPool {} with tie := { (wPool {}).tie with regions := [(0, { tierPol := 2, working := [(0, [1])], counts := [(0, (64, 0))] })], frames := [(1, {})] } } : State), 0, 0, 1, 3, ({ tierPol := 2, working := [(0, [1])], counts := [(0, (64, 0))] } : Region), by refine ⟨?_, ?_, ?_, ?_, ?_, ?_, ?_, ?_, ?_⟩ <;> first | decide +kernel | rfl | (unfold canRetire hasBudget; decide +kernel) | (unfold hasBudget; decide +kernel) | simp⟩,
  ⟨({ wUp with tie := { regions := [(0, { tierPol := 2, working := [(0, [1])], counts := [(0, (64, 0))] }), (1, { tierPol := 2, working := [(0, [2])] })], frames := [(1, {}), (2, { tier := 2 })] } } : State), 0, 0, 1, 3, ({ tierPol := 2, working := [(0, [1])], counts := [(0, (64, 0))] } : Region), ((1, 0, 0) : Nat × Nat × Nat), by refine ⟨?_, ?_, ?_, ?_, ?_, ?_, ?_, ?_, ?_, ?_⟩ <;> first | decide +kernel | rfl | (unfold canRetire hasBudget; decide +kernel) | (unfold hasBudget; decide +kernel) | simp⟩,
  ⟨({ wUp with tie := { regions := [(0, { tierPol := 2, working := [(0, [1])], counts := [(0, (64, 0))] })], frames := [(1, {})] } } : State), 0, 0, 1, 3, ({ tierPol := 2, working := [(0, [1])], counts := [(0, (64, 0))] } : Region), by refine ⟨?_, ?_, ?_, ?_, ?_, ?_, ?_, ?_, ?_, ?_⟩ <;> first | decide +kernel | rfl | (unfold canRetire hasBudget; decide +kernel) | (unfold hasBudget; decide +kernel) | simp⟩,
  ⟨wUp, 0, 0, by refine ⟨?_, ?_, ?_⟩ <;> first | decide +kernel | rfl | (unfold canRetire hasBudget; decide +kernel) | (unfold hasBudget; decide +kernel) | simp⟩,
  ⟨0, 0, by refine ⟨?_, ?_, ?_⟩ <;> first | decide +kernel | rfl | (unfold canRetire hasBudget; decide +kernel) | (unfold hasBudget; decide +kernel) | simp⟩,
  ⟨(wPool {} : State), 0, 2, by refine ⟨?_, ?_, ?_, ?_⟩ <;> first | decide +kernel | rfl | (unfold canRetire hasBudget; decide +kernel) | (unfold hasBudget; decide +kernel) | simp⟩,
  ⟨({ wUp with tie := { regions := [(1, { id := 1, kind := 1, tierPol := 2, working := [(0, [2])] })], frames := [(2, { tier := 2 })] } } : State), 0, 2, ((1, 0, 0) : Nat × Nat × Nat), ({ cls := 4, region := 1, page := 0, toTier := 3, saggar := 0 } : MoverJob), by refine ⟨?_, ?_, ?_, ?_, ?_, ?_, ?_, ?_, ?_, ?_⟩ <;> first | decide +kernel | rfl | (unfold canRetire hasBudget; decide +kernel) | (unfold hasBudget; decide +kernel) | simp⟩⟩

theorem test_wit_TierManager_2 :
    (∃ (s : State) (who : Who) (g : Nat) (up34 : Bool) (st : _), (who.wf = true) ∧ (g < 64) ∧ (s.csrGate who (tiePage g + 4 * b2n up34) true = some st)) ∧
    (∃ (s : State) (who : Who) (g : Nat) (up34 : Bool), (who.wf = true) ∧ (g < 64) ∧ (s.csrGate who (tiePage g + 4 * b2n up34) true = none)) :=
  ⟨⟨wUp, .bmc, 63, true, .denied, by refine ⟨?_, ?_, ?_⟩ <;> first | decide +kernel | rfl | (unfold canRetire hasBudget; decide +kernel) | (unfold hasBudget; decide +kernel) | simp⟩,
  ⟨wUp, .management, 63, true, by refine ⟨?_, ?_, ?_⟩ <;> first | decide +kernel | rfl | (unfold canRetire hasBudget; decide +kernel) | (unfold hasBudget; decide +kernel) | simp⟩⟩

theorem test_wit_MemoryUnits :
    (∃ (who : Who) (u : MemUnit) (on : Frame → Bool) (cause : _), (who.wf = true) ∧ (u.wf = true) ∧ (on = (match u with | .ddr c => fun f => f.tier = 3 && f.unit = c | .hbm k => fun f => f.tier = 2 && f.unit / 64 = k | .hbmPc k c => fun f => f.tier = 2 && f.unit = 64 * k + c)) ∧ ((who = .management ∧ cause = 5) ∨ (who = .control ∧ cause = 4))) ∧
    (∃ (who : Who) (u : MemUnit) (on : Frame → Bool), (who.wf = true) ∧ (u.wf = true) ∧ (on = (match u with | .ddr c => fun f => f.tier = 3 && f.unit = c | .hbm k => fun f => f.tier = 2 && f.unit / 64 = k | .hbmPc k c => fun f => f.tier = 2 && f.unit = 64 * k + c)) ∧ (who ≠ .management) ∧ (who ≠ .control)) ∧
    (∃ (who : Who) (u : MemUnit) (on : Frame → Bool), (who.wf = true) ∧ (u.wf = true) ∧ (on = (match u with | .ddr c => fun f => f.tier = 3 && f.unit = c | .hbm k => fun f => f.tier = 2 && f.unit / 64 = k | .hbmPc k c => fun f => f.tier = 2 && f.unit = 64 * k + c)) ∧ (who = .management ∨ who = .control)) ∧
    (∃ (who : Who) (u : MemUnit) (on : Frame → Bool), (who.wf = true) ∧ (u.wf = true) ∧ (on = (match u with | .ddr c => fun f => f.tier = 3 && f.unit = c | .hbm k => fun f => f.tier = 2 && f.unit / 64 = k | .hbmPc k c => fun f => f.tier = 2 && f.unit = 64 * k + c))) ∧
    (∃ (s : State) (who : Who) (u : MemUnit) (on : Frame → Bool) (k : _), (who.wf = true) ∧ (u.wf = true) ∧ (on = (match u with | .ddr c => fun f => f.tier = 3 && f.unit = c | .hbm k => fun f => f.tier = 2 && f.unit / 64 = k | .hbmPc k c => fun f => f.tier = 2 && f.unit = 64 * k + c)) ∧ (k < 8) ∧ (k < s.variant.stacks) ∧ (s.erc.adFenced.getD (k / 2) false = false) ∧ (s.pkg.skipHbm = false)) ∧
    (∃ (s : State) (who : Who) (u : MemUnit) (on : Frame → Bool) (k : _), (who.wf = true) ∧ (u.wf = true) ∧ (on = (match u with | .ddr c => fun f => f.tier = 3 && f.unit = c | .hbm k => fun f => f.tier = 2 && f.unit / 64 = k | .hbmPc k c => fun f => f.tier = 2 && f.unit = 64 * k + c)) ∧ (k < 8) ∧ (s.variant.stacks ≤ k ∨ s.erc.adFenced.getD (k / 2) false = true ∨ s.pkg.skipHbm = true)) ∧
    (∃ (who : Who) (u : MemUnit) (on : Frame → Bool) (c : _) (d : DramReport), (who.wf = true) ∧ (u.wf = true) ∧ (on = (match u with | .ddr c => fun f => f.tier = 3 && f.unit = c | .hbm k => fun f => f.tier = 2 && f.unit / 64 = k | .hbmPc k c => fun f => f.tier = 2 && f.unit = 64 * k + c)) ∧ (c < 16) ∧ (d.spdMatches = true) ∧ (dramSupported d = true) ∧ (d.checkBits = true) ∧ (d.trained = true)) ∧
    (∃ (who : Who) (u : MemUnit) (on : Frame → Bool) (c : _) (d : DramReport), (who.wf = true) ∧ (u.wf = true) ∧ (on = (match u with | .ddr c => fun f => f.tier = 3 && f.unit = c | .hbm k => fun f => f.tier = 2 && f.unit / 64 = k | .hbmPc k c => fun f => f.tier = 2 && f.unit = 64 * k + c)) ∧ (c < 16) ∧ (d.spdMatches = false ∨ dramSupported d = false ∨ d.checkBits = false ∨ d.trained = false)) :=
  ⟨⟨.management, (.ddr 15 : MemUnit), (fun f => f.tier = 3 && f.unit = 15 : Frame → Bool), 5, by refine ⟨?_, ?_, ?_, ?_⟩ <;> first | decide +kernel | rfl | (unfold canRetire hasBudget; decide +kernel) | (unfold hasBudget; decide +kernel) | simp⟩,
  ⟨.bmc, (.hbm 7 : MemUnit), (fun f => f.tier = 2 && f.unit / 64 = 7 : Frame → Bool), by refine ⟨?_, ?_, ?_, ?_, ?_⟩ <;> first | decide +kernel | rfl | (unfold canRetire hasBudget; decide +kernel) | (unfold hasBudget; decide +kernel) | simp⟩,
  ⟨.control, (.hbmPc 7 63 : MemUnit), (fun f => f.tier = 2 && f.unit = 64 * 7 + 63 : Frame → Bool), by refine ⟨?_, ?_, ?_, ?_⟩ <;> first | decide +kernel | rfl | (unfold canRetire hasBudget; decide +kernel) | (unfold hasBudget; decide +kernel) | simp⟩,
  ⟨.control, (.hbmPc 7 63 : MemUnit), (fun f => f.tier = 2 && f.unit = 64 * 7 + 63 : Frame → Bool), by refine ⟨?_, ?_, ?_⟩ <;> first | decide +kernel | rfl | (unfold canRetire hasBudget; decide +kernel) | (unfold hasBudget; decide +kernel) | simp⟩,
  ⟨wUp, .control, (.hbmPc 7 63 : MemUnit), (fun f => f.tier = 2 && f.unit = 64 * 7 + 63 : Frame → Bool), 7, by refine ⟨?_, ?_, ?_, ?_, ?_, ?_, ?_⟩ <;> first | decide +kernel | rfl | (unfold canRetire hasBudget; decide +kernel) | (unfold hasBudget; decide +kernel) | simp⟩,
  ⟨({ variant := .plf0pf } : State), .control, (.hbmPc 7 63 : MemUnit), (fun f => f.tier = 2 && f.unit = 64 * 7 + 63 : Frame → Bool), 0, by refine ⟨?_, ?_, ?_, ?_, ?_⟩ <;> first | decide +kernel | rfl | (unfold canRetire hasBudget; decide +kernel) | (unfold hasBudget; decide +kernel) | simp⟩,
  ⟨.control, (.hbmPc 7 63 : MemUnit), (fun f => f.tier = 2 && f.unit = 64 * 7 + 63 : Frame → Bool), 15, ({ rate := 64 } : DramReport), by refine ⟨?_, ?_, ?_, ?_, ?_, ?_, ?_, ?_⟩ <;> first | decide +kernel | rfl | (unfold canRetire hasBudget; decide +kernel) | (unfold hasBudget; decide +kernel) | simp⟩,
  ⟨.control, (.hbmPc 7 63 : MemUnit), (fun f => f.tier = 2 && f.unit = 64 * 7 + 63 : Frame → Bool), 15, ({ trained := false, rate := 64 } : DramReport), by refine ⟨?_, ?_, ?_, ?_, ?_⟩ <;> first | decide +kernel | rfl | (unfold canRetire hasBudget; decide +kernel) | (unfold hasBudget; decide +kernel) | simp⟩⟩

theorem test_wit_FlashPrograms_1 :
    (∃ (s : State) (d : Nat) (f : _) (g : _) (st : _) (h : _), (d < 1024) ∧ (f < 2 ^ 38) ∧ (g < 64) ∧ (s.writeRefusal f g = some (st, h))) ∧
    (∃ (s : State) (d : Nat) (f : _) (g : _), (d < 1024) ∧ (f < 2 ^ 38) ∧ (g < 64) ∧ (s.writeRefusal f g = none) ∧ (s.diesIn ≠ []) ∧ ((∀ q ∈ s.flm.progs ++ s.flm.waiting, ∀ k, k < 4 → q.page.meets (4 * f + k) 1 = false))) ∧
    (∃ (s : State) (d : Nat) (host : Bool), (d < 1024) ∧ (s.progOn d host = none)) ∧
    (∃ (s : State) (d : Nat) (host : Bool) (p : _) (b : _) (k : _), (d < 1024) ∧ (s.progOn d host = some p) ∧ (s.flm.waiting = []) ∧ (s.flm.secure = []) ∧ (p.block = none) ∧ ((if host then (s.die d).hostOpen else (s.die d).gcOpen) = some b) ∧ (k = (s.die d).block b) ∧ (k.pages.length + 1 < s.flm.dataPages)) ∧
    (∃ (s : State) (d : Nat) (host : Bool) (p : _) (b : _) (k : _), (d < 1024) ∧ (s.progOn d host = some p) ∧ (s.flm.waiting = []) ∧ (s.flm.secure = []) ∧ (p.block = none) ∧ ((if host then (s.die d).hostOpen else (s.die d).gcOpen) = some b) ∧ (k = (s.die d).block b) ∧ (s.flm.dataPages ≤ k.pages.length + 1)) ∧
    (∃ (s : State) (d : Nat) (host : Bool) (p : _) (b : _) (k : _), (d < 1024) ∧ (s.progOn d host = some p) ∧ (s.flm.waiting = []) ∧ (s.flm.secure = []) ∧ (p.block = none) ∧ ((if host then (s.die d).hostOpen else (s.die d).gcOpen) = some b) ∧ (k = (s.die d).block b) ∧ (p.page.kind ≠ 3) ∧ ((s.flm.writes.map (·.id)).Nodup)) ∧
    (∃ (s : State) (d : Nat) (host : Bool) (p : _) (b : _) (k : _), (d < 1024) ∧ (s.progOn d host = some p) ∧ (s.flm.waiting = []) ∧ (s.flm.secure = []) ∧ (p.block = none) ∧ ((if host then (s.die d).hostOpen else (s.die d).gcOpen) = some b) ∧ (k = (s.die d).block b) ∧ (p.page.kind = 3)) ∧
    (∃ (s : State) (d : Nat) (host : Bool) (p : _) (b : _), (d < 1024) ∧ (s.progOn d host = some p) ∧ (s.flm.waiting = []) ∧ (s.flm.secure = []) ∧ (p.block = some b)) :=
  ⟨⟨wUp, 0, 2 ^ 38 - 1, 63, .denied, 0, by refine ⟨?_, ?_, ?_, ?_⟩ <;> first | decide +kernel | rfl | (unfold canRetire hasBudget; decide +kernel) | (unfold hasBudget; decide +kernel) | simp⟩,
  ⟨(wFlS { st := 3, logical := 4, dies := [(0, {})] } : State), 0, 0, 0, by refine ⟨?_, ?_, ?_, ?_, ?_, ?_⟩ <;> first | decide +kernel | rfl | (unfold canRetire hasBudget; decide +kernel) | (unfold hasBudget; decide +kernel) | simp⟩,
  ⟨wUp, 1023, true, by refine ⟨?_, ?_⟩ <;> first | decide +kernel | rfl | (unfold canRetire hasBudget; decide +kernel) | (unfold hasBudget; decide +kernel) | simp⟩,
  ⟨(wFl wFlV : State), 0, true, { page := { lua := 9 } }, 5, { st := 2, pages := [{ lua := 8 }] }, by refine ⟨?_, ?_, ?_, ?_, ?_, ?_, ?_, ?_⟩ <;> first | decide +kernel | rfl | (unfold canRetire hasBudget; decide +kernel) | (unfold hasBudget; decide +kernel) | simp⟩,
  ⟨(wFl { wFlV with pagesPerBlock := 2 } : State), 0, true, { page := { lua := 9 } }, 5, { st := 2, pages := [{ lua := 8 }] }, by refine ⟨?_, ?_, ?_, ?_, ?_, ?_, ?_, ?_⟩ <;> first | decide +kernel | rfl | (unfold canRetire hasBudget; decide +kernel) | (unfold hasBudget; decide +kernel) | simp⟩,
  ⟨(wFl wFlV : State), 0, true, { page := { lua := 9 } }, 5, { st := 2, pages := [{ lua := 8 }] }, by refine ⟨?_, ?_, ?_, ?_, ?_, ?_, ?_, ?_, ?_⟩ <;> first | decide +kernel | rfl | (unfold canRetire hasBudget; decide +kernel) | (unfold hasBudget; decide +kernel) | simp⟩,
  ⟨(wFl { wFlV with progs := [{ page := { kind := 3, ranges := [(8, 1)] } }] } : State), 0, true, { page := { kind := 3, ranges := [(8, 1)] } }, 5, { st := 2, pages := [{ lua := 8 }] }, by refine ⟨?_, ?_, ?_, ?_, ?_, ?_, ?_, ?_⟩ <;> first | decide +kernel | rfl | (unfold canRetire hasBudget; decide +kernel) | (unfold hasBudget; decide +kernel) | simp⟩,
  ⟨(wFl { wFlV with progs := [{ block := some 5, page := { kind := 2 } }] } : State), 0, true, { block := some 5, page := { kind := 2 } }, 5, by refine ⟨?_, ?_, ?_, ?_, ?_⟩ <;> first | decide +kernel | rfl | (unfold canRetire hasBudget; decide +kernel) | (unfold hasBudget; decide +kernel) | simp⟩⟩

theorem test_wit_FlashPrograms_2 :
    (∃ (s : State) (d : Nat) (host : Bool), (d < 1024) ∧ ((s.progOn d host).isSome = false) ∧ ((host = true ∨ (s.die d).moving = none))) ∧
    (∃ (s : State) (d : Nat) (host : Bool) (b : _), (d < 1024) ∧ ((s.progOn d host).isSome = true ∨ (host = false ∧ (s.die d).moving.isSome = true)) ∧ (((s.progOn d host).bind (·.block)).or (if host then (s.die d).hostOpen else (s.die d).gcOpen) = some b) ∧ (s.validPages d b = []) ∧ (s.flm.retired.length < 2 ^ 19)) ∧
    (∃ (s : State) (d : Nat) (host : Bool) (b : _), (d < 1024) ∧ ((s.progOn d host).isSome = true ∨ (host = false ∧ (s.die d).moving.isSome = true)) ∧ (((s.progOn d host).bind (·.block)).or (if host then (s.die d).hostOpen else (s.die d).gcOpen) = some b) ∧ (s.validPages d b ≠ [])) ∧
    (∃ (s : State) (d : Nat) (lua : _) (g : _), (d < 1024) ∧ (lua < 2 ^ 40) ∧ (g < 64) ∧ ((s.flm.st ≠ 3 ∧ s.flm.st ≠ 4) ∨ (s.entry lua).held = true ∨ ((s.entry lua).pun = none ∧ (s.entry lua).lost = false))) ∧
    (∃ (s : State) (d : Nat) (lua : _) (g : _) (retries : _) (failing : _) (x : List Nat × Nat) (stored : _), (d < 1024) ∧ (lua < 2 ^ 40) ∧ (g < 64) ∧ (s.flm.st = 3 ∨ s.flm.st = 4) ∧ ((s.entry lua).held = false) ∧ ((s.entry lua).pun ≠ none ∨ (s.entry lua).lost = true) ∧ (x = s.readUnit (s.unitBad lua g) (failing :: retries)) ∧ (stored = (match s.unitPage lua with | some p => p.poison | none => []))) ∧
    (∃ (s : State) (d : Nat), (d < 1024) ∧ (s.dieDeadlines d = [])) ∧
    (∃ (s : State) (d : Nat) (t : _) (l : _), (d < 1024) ∧ (s.dieDeadlines d = t :: l) ∧ (ahas s.flm.dies d = true) ∧ ((s.die d).fenced = false) ∧ (s.flm.retired.length < 2 ^ 19)) :=
  ⟨⟨wUp, 1023, true, by refine ⟨?_, ?_, ?_⟩ <;> first | decide +kernel | rfl | (unfold canRetire hasBudget; decide +kernel) | (unfold hasBudget; decide +kernel) | simp⟩,
  ⟨(wFl { wFlV with map := [] } : State), 0, true, 5, by refine ⟨?_, Or.inl rfl, ?_, ?_, ?_⟩ <;> first | decide +kernel | rfl | (unfold canRetire hasBudget; decide +kernel) | (unfold hasBudget; decide +kernel) | simp⟩,
  ⟨(wFl wFlV : State), 0, true, 5, by refine ⟨?_, Or.inl rfl, ?_, ?_⟩ <;> first | decide +kernel | rfl | (unfold canRetire hasBudget; decide +kernel) | (unfold hasBudget; decide +kernel) | simp⟩,
  ⟨wUp, 0, 2 ^ 40 - 1, 63, by refine ⟨?_, ?_, ?_, Or.inl (by decide)⟩ <;> first | decide +kernel | rfl | (unfold canRetire hasBudget; decide +kernel) | (unfold hasBudget; decide +kernel) | simp⟩,
  ⟨(wFl wFlV : State), 0, 8, 0, [], [], ((wFl wFlV).readUnit ((wFl wFlV).unitBad 8 0) [[]] : List Nat × Nat), [], by refine ⟨?_, ?_, ?_, ?_, ?_, ?_, ?_, ?_⟩ <;> first | decide +kernel | rfl | (unfold canRetire hasBudget; decide +kernel) | (unfold hasBudget; decide +kernel) | simp⟩,
  ⟨wUp, 1023, by refine ⟨?_, ?_⟩ <;> first | decide +kernel | rfl | (unfold canRetire hasBudget; decide +kernel) | (unfold hasBudget; decide +kernel) | simp⟩,
  ⟨(wFl wFlV : State), 0, 0, [0, 0], by refine ⟨?_, ?_, ?_, ?_, ?_⟩ <;> first | decide +kernel | rfl | (unfold canRetire hasBudget; decide +kernel) | (unfold hasBudget; decide +kernel) | simp⟩⟩

theorem test_wit_FlashUpkeep_1 :
    (∃ (s : State) (d : Nat) (x : _) (on : _) (v : _), (d < 1024) ∧ (afind s.flm.dies d = some x) ∧ (x.fenced = false) ∧ (x.victim = none) ∧ (on = (decide (s.freeBlocks d < s.nodeParam 0x0211) || (x.collecting && decide (s.freeBlocks d < s.nodeParam 0x0212)))) ∧ (v = s.pickVictim d on)) ∧
    (∃ (s : State) (d : Nat), (d < 1024) ∧ ((s.die d).victim ≠ none ∨ (s.die d).fenced = true ∨ ahas s.flm.dies d = false)) ∧
    (∃ (s : State) (d : Nat) (attempts : _) (b : _) (i : _) (p : _) (c : _) (always : _) (r : _), (d < 1024) ∧ ((s.die d).victim = some b) ∧ ((s.die d).moving = some i) ∧ (p = ((s.die d).block b).pages.getD i {}) ∧ (p.kind = 1) ∧ (always = (if p.readOk p.lua p.saggar then (List.range 64).filter (fun k => !p.grainCrcOk k) else List.range 64)) ∧ (r = s.readUnit always attempts) ∧ ((s.die d).gcOpen = some c) ∧ (c ≠ b) ∧ (((s.die d).block c).pages.length + 1 < s.flm.dataPages)) ∧
    (∃ (s : State) (d : Nat), (d < 1024) ∧ ((s.die d).victim = none ∨ (s.die d).moving = none)) ∧
    (∃ (s : State) (d : Nat) (b : _), (d < 1024) ∧ ((s.die d).victim = some b) ∧ (s.emptied d b = true) ∧ (s.flm.retired.length < 2 ^ 19) ∧ (((s.die d).block b).st ≠ 3) ∧ (s.readsOut d b = false)) ∧
    (∃ (s : State) (d : Nat) (b : _), (d < 1024) ∧ ((s.die d).victim = some b) ∧ (s.emptied d b = true) ∧ (s.flm.retired.length < 2 ^ 19) ∧ (((s.die d).block b).st = 3) ∧ (s.readsOut d b = false)) ∧
    (∃ (s : State) (d : Nat) (b : _), (d < 1024) ∧ ((s.die d).victim = some b) ∧ (s.emptied d b = true) ∧ (s.flm.retired.length < 2 ^ 19) ∧ (b < 2 ^ 24)) ∧
    (∃ (s : State) (d : Nat) (b : _), (d < 1024) ∧ ((s.die d).victim = some b) ∧ (s.emptied d b = false ∨ s.readsOut d b = true)) :=
  ⟨⟨(wFl { dies := [(0, {})] } : State), 0, {}, true, none, by refine ⟨?_, ?_, ?_, ?_, ?_, ?_⟩ <;> first | decide +kernel | rfl | (unfold canRetire hasBudget; decide +kernel) | (unfold hasBudget; decide +kernel) | simp⟩,
  ⟨(wFl wFlV : State), 0, by refine ⟨?_, ?_⟩ <;> first | decide +kernel | rfl | (unfold canRetire hasBudget; decide +kernel) | (unfold hasBudget; decide +kernel) | simp⟩,
  ⟨(wFl { wFlV with dies := [(0, { wDieV with moving := some 0 })] } : State), 0, [], 5, 0, { lua := 8 }, 6, [], ([], 0), by refine ⟨?_, ?_, ?_, ?_, ?_, ?_, ?_, ?_, ?_, ?_⟩ <;> first | decide +kernel | rfl | (unfold canRetire hasBudget; decide +kernel) | (unfold hasBudget; decide +kernel) | simp⟩,
  ⟨wUp, 1023, by refine ⟨?_, ?_⟩ <;> first | decide +kernel | rfl | (unfold canRetire hasBudget; decide +kernel) | (unfold hasBudget; decide +kernel) | simp⟩,
  ⟨(wFl { wFlV with map := [] } : State), 0, 5, by refine ⟨?_, ?_, ?_, ?_, ?_, ?_⟩ <;> first | decide +kernel | rfl | (unfold canRetire hasBudget; decide +kernel) | (unfold hasBudget; decide +kernel) | simp⟩,
  ⟨(wFl { dies := [(0, { victim := some 5, blk := [(5, { st := 3 })] })] } : State), 0, 5, by refine ⟨?_, ?_, ?_, ?_, ?_, ?_⟩ <;> first | decide +kernel | rfl | (unfold canRetire hasBudget; decide +kernel) | (unfold hasBudget; decide +kernel) | simp⟩,
  ⟨(wFl { wFlV with map := [] } : State), 0, 5, by refine ⟨?_, ?_, ?_, ?_, ?_⟩ <;> first | decide +kernel | rfl | (unfold canRetire hasBudget; decide +kernel) | (unfold hasBudget; decide +kernel) | simp⟩,
  ⟨(wFl wFlV : State), 0, 5, by refine ⟨?_, ?_, ?_⟩ <;> first | decide +kernel | rfl | (unfold canRetire hasBudget; decide +kernel) | (unfold hasBudget; decide +kernel) | simp⟩⟩

theorem test_wit_FlashUpkeep_2 :
    (∃ (s : State) (d : Nat) (b : _), (d < 1024) ∧ ((s.die d).victim = some b) ∧ (b < 2 ^ 24) ∧ (s.emptied d b = false)) ∧
    (∃ (s : State) (d : Nat) (bs : _), (d < 1024) ∧ (s.diesIn ≠ []) ∧ (bs = s.checkpointData) ∧ ((∀ q ∈ s.flm.progs ++ s.flm.waiting, q.page.meets s.flm.logical 4096 = false))) ∧
    (∃ (s : State) (d : Nat) (who : Who), (d < 1024) ∧ (who.wf = true) ∧ (s.csrGate who flmDieCtrl true = none) ∧ (ahas s.flm.dies d = true) ∧ (s.flm.retired.length < 2 ^ 19) ∧ ((s.die d).fenced = false)) ∧
    (∃ (s : State) (d : Nat) (who : Who), (d < 1024) ∧ (who.wf = true) ∧ (s.csrGate who flmDieCtrl true = none) ∧ (ahas s.flm.dies d = true) ∧ (s.flm.retired.length < 2 ^ 19) ∧ (liftsFence who = true) ∧ ((s.die d).fenced = true)) ∧
    (∃ (s : State) (d : Nat) (who : Who), (d < 1024) ∧ (who.wf = true) ∧ (s.csrGate who flmDieCtrl true = none) ∧ (ahas s.flm.dies d = true) ∧ (s.flm.retired.length < 2 ^ 19) ∧ (liftsFence who = false)) ∧
    (∃ (s : State) (d : Nat) (lua : _) (units : _), (d < 1024) ∧ (lua < 2 ^ 40) ∧ (units < 2 ^ 32) ∧ (s.flm.st ≠ 3) ∧ (s.flm.st ≠ 4)) ∧
    (∃ (s : State) (d : Nat) (lua : _) (units : _), (d < 1024) ∧ (lua < 2 ^ 40) ∧ (units < 2 ^ 32) ∧ (s.flm.st = 3 ∨ s.flm.st = 4) ∧ (s.diesIn ≠ []) ∧ ((∀ q ∈ s.flm.progs ++ s.flm.waiting, q.page.meets lua units = false)) ∧ ((∀ x ∈ s.flm.secure, x.stage = 3))) ∧
    (∃ (s : State) (d : Nat) (lua : _) (units : _) (x : _), (d < 1024) ∧ (lua < 2 ^ 40) ∧ (units < 2 ^ 32) ∧ (s.flm.secure.find? (fun x => x.lua = lua && x.stage = 3) = some x) ∧ (s.copyBlocks lua x.units x.seq = [])) :=
  ⟨⟨(wFl wFlV : State), 0, 5, by refine ⟨?_, ?_, ?_, ?_⟩ <;> first | decide +kernel | rfl | (unfold canRetire hasBudget; decide +kernel) | (unfold hasBudget; decide +kernel) | simp⟩,
  ⟨(wFl { targets := 1, luns := 1, blocksPerDie := 1, dies := [(0, {})] } : State), 0, (wFl { targets := 1, luns := 1, blocksPerDie := 1, dies := [(0, {})] }).checkpointData, by refine ⟨?_, ?_, ?_, ?_⟩ <;> first | decide +kernel | rfl | (unfold canRetire hasBudget; decide +kernel) | (unfold hasBudget; decide +kernel) | simp⟩,
  ⟨(wFl wFlV : State), 0, .management, by refine ⟨?_, ?_, ?_, ?_, ?_, ?_⟩ <;> first | decide +kernel | rfl | (unfold canRetire hasBudget; decide +kernel) | (unfold hasBudget; decide +kernel) | simp⟩,
  ⟨(wFl { dies := [(0, { fenced := true })] } : State), 0, .management, by refine ⟨?_, ?_, ?_, ?_, ?_, ?_, ?_⟩ <;> first | decide +kernel | rfl | (unfold canRetire hasBudget; decide +kernel) | (unfold hasBudget; decide +kernel) | simp⟩,
  ⟨(wFl { dies := [(0, { fenced := true })] } : State), 0, (.operator 7 : Who), by refine ⟨?_, ?_, ?_, ?_, ?_, ?_⟩ <;> first | decide +kernel | rfl | (unfold canRetire hasBudget; decide +kernel) | (unfold hasBudget; decide +kernel) | simp⟩,
  ⟨wUp, 0, 2 ^ 40 - 1, 1, by refine ⟨?_, ?_, ?_, ?_, ?_⟩ <;> first | decide +kernel | rfl | (unfold canRetire hasBudget; decide +kernel) | (unfold hasBudget; decide +kernel) | simp⟩,
  ⟨(wFl wFlV : State), 0, 20, 4, by refine ⟨?_, ?_, ?_, ?_, ?_, ?_, ?_⟩ <;> first | decide +kernel | rfl | (unfold canRetire hasBudget; decide +kernel) | (unfold hasBudget; decide +kernel) | simp⟩,
  ⟨(wFl { secure := [{ lua := 20, units := 4, stage := 3 }] } : State), 0, 20, 4, { lua := 20, units := 4, stage := 3 }, by refine ⟨?_, ?_, ?_, ?_, ?_⟩ <;> first | decide +kernel | rfl | (unfold canRetire hasBudget; decide +kernel) | (unfold hasBudget; decide +kernel) | simp⟩⟩

theorem test_wit_FlashUpkeep_3 :
    (∃ (s : State) (d : Nat) (lua : _) (units : _) (x : _), (d < 1024) ∧ (lua < 2 ^ 40) ∧ (units < 2 ^ 32) ∧ (s.flm.secure.find? (fun x => x.lua = lua && x.stage = 3) = some x) ∧ (s.copyBlocks lua x.units x.seq ≠ [])) ∧
    (∃ (s : State) (d : Nat) (l : List FlashParams), (d < 1024) ∧ (l.length ≤ 32) ∧ (s.fitted capFLM = false)) ∧
    (∃ (s : State) (d : Nat) (l : List FlashParams), (d < 1024) ∧ (l.length ≤ 32) ∧ (s.fitted capFLM = true)) ∧
    (∃ (s : State) (d : Nat) (about : Nat → FlmCopy → Prop), (d < 1024) ∧ (s.flm.st = 2) ∧ ((∀ l c, about l c ↔ (c.2.2.kind = 1 ∨ c.2.2.kind = 3) ∧ c.2.2.covers l = true ∧ ∃ x ∈ s.flm.dies, x.2.fenced = false ∧ ∃ y ∈ x.2.blk, y.2.st ≠ 4 ∧ c ∈ s.flm.copiesOf x.1 y.1 y.2))) ∧
    (∃ (s : State) (d : Nat), (d < 1024) ∧ (s.flm.st = 2) ∧ ((∀ x ∈ s.flm.dies, x.2.fenced = false → ∀ y ∈ x.2.blk, y.2.st ≠ 4 → ∀ p ∈ y.2.pages, spareOk p.spareRead = false))) ∧
    (∃ (s : State) (d : Nat), (d < 1024) ∧ (s.flm.st ≠ 2) ∧ (s.flm.st ≠ 5)) ∧
    (∃ (s : State) (d : Nat), (d < 1024) ∧ (s.flm.st = 2 ∨ s.flm.st = 5)) :=
  ⟨⟨(wFl { wFlV with secure := [{ lua := 8, units := 1, stage := 3, seq := 1 }] } : State), 0, 8, 1, { lua := 8, units := 1, stage := 3, seq := 1 }, by refine ⟨?_, ?_, ?_, ?_, ?_⟩ <;> first | decide +kernel | rfl | (unfold canRetire hasBudget; decide +kernel) | (unfold hasBudget; decide +kernel) | simp⟩,
  ⟨({ variant := .plf8a } : State), 0, ([] : List FlashParams), by refine ⟨?_, ?_, ?_⟩ <;> first | decide +kernel | rfl | (unfold canRetire hasBudget; decide +kernel) | (unfold hasBudget; decide +kernel) | simp⟩,
  ⟨wUp, 0, ([] : List FlashParams), by refine ⟨?_, ?_, ?_⟩ <;> first | decide +kernel | rfl | (unfold canRetire hasBudget; decide +kernel) | (unfold hasBudget; decide +kernel) | simp⟩,
  ⟨(wFl { st := 2, dies := [(0, {})] } : State), 0, (fun l c => (c.2.2.kind = 1 ∨ c.2.2.kind = 3) ∧ c.2.2.covers l = true ∧ ∃ x ∈ (wFl { st := 2, dies := [(0, {})] }).flm.dies, x.2.fenced = false ∧ ∃ y ∈ x.2.blk, y.2.st ≠ 4 ∧ c ∈ (wFl { st := 2, dies := [(0, {})] }).flm.copiesOf x.1 y.1 y.2 : Nat → FlmCopy → Prop), by refine ⟨?_, ?_, fun _ _ => Iff.rfl⟩ <;> first | decide +kernel | rfl | (unfold canRetire hasBudget; decide +kernel) | (unfold hasBudget; decide +kernel) | simp⟩,
  ⟨(wFl { st := 2, dies := [(0, {})] } : State), 0, by refine ⟨?_, ?_, ?_⟩ <;> first | decide +kernel | rfl | (unfold canRetire hasBudget; decide +kernel) | (unfold hasBudget; decide +kernel) | simp⟩,
  ⟨wUp, 0, by refine ⟨?_, ?_, ?_⟩ <;> first | decide +kernel | rfl | (unfold canRetire hasBudget; decide +kernel) | (unfold hasBudget; decide +kernel) | simp⟩,
  ⟨(wFl { st := 5 } : State), 0, by refine ⟨?_, ?_⟩ <;> first | decide +kernel | rfl | (unfold canRetire hasBudget; decide +kernel) | (unfold hasBudget; decide +kernel) | simp⟩⟩

theorem test_wit_CodecJobs_1 :
    (∃ (s : State) (p : Packet) (c : Instr) (proc : _) (op : _) (j : _) (st : _) (h : _), (p.wf = true) ∧ (s.rptRefusal p = none) ∧ (callProc p = proc) ∧ ((c = .codecEncode p ∧ proc = 0xFF4 ∧ op = 1) ∨ (c = .codecDecode p ∧ proc = 0xFF5 ∧ op = 2)) ∧ (j = ({ id := s.cdc.nextJob, call := p } : CdcJob)) ∧ (s.jobRefusal j op = some (st, h)) ∧ (st ≠ .damaged)) ∧
    (∃ (s : State) (p : Packet) (c : Instr) (proc : _) (op : _) (j : _) (h : _), (p.wf = true) ∧ (s.rptRefusal p = none) ∧ (callProc p = proc) ∧ ((c = .codecEncode p ∧ proc = 0xFF4 ∧ op = 1) ∨ (c = .codecDecode p ∧ proc = 0xFF5 ∧ op = 2)) ∧ (j = ({ id := s.cdc.nextJob, call := p } : CdcJob)) ∧ (s.jobRefusal j op = some (.damaged, h))) ∧
    (∃ (s : State) (p : Packet) (c : Instr) (proc : _) (op : _) (j : _), (p.wf = true) ∧ (s.rptRefusal p = none) ∧ (callProc p = proc) ∧ ((c = .codecEncode p ∧ proc = 0xFF4 ∧ op = 1) ∨ (c = .codecDecode p ∧ proc = 0xFF5 ∧ op = 2)) ∧ (j = ({ id := s.cdc.nextJob, call := p } : CdcJob)) ∧ (s.jobRefusal j op = none)) ∧
    (∃ (s : State) (p : Packet) (id : _) (rg : _) (pg : _), (p.wf = true) ∧ (s.rptRefusal p = none) ∧ (callProc p = 0xFF6) ∧ (12 ≤ (callArgs p).length) ∧ (id = le (callArgs p) 0 2) ∧ (rg = le (callArgs p) 4 4) ∧ (pg = le (callArgs p) 8 4) ∧ (id = 0 ∨ s.sagParam p.saggar 0x030C < id)) ∧
    (∃ (s : State) (p : Packet) (id : _) (rg : _) (pg : _), (p.wf = true) ∧ (s.rptRefusal p = none) ∧ (callProc p = 0xFF6) ∧ (12 ≤ (callArgs p).length) ∧ (id = le (callArgs p) 0 2) ∧ (rg = le (callArgs p) 4 4) ∧ (pg = le (callArgs p) 8 4) ∧ (0 < id) ∧ (id ≤ s.sagParam p.saggar 0x030C) ∧ (0 < (s.cdcTable p.saggar id).users)) ∧
    (∃ (s : State) (p : Packet) (id : _) (rg : _) (pg : _), (p.wf = true) ∧ (s.rptRefusal p = none) ∧ (callProc p = 0xFF6) ∧ (12 ≤ (callArgs p).length) ∧ (id = le (callArgs p) 0 2) ∧ (rg = le (callArgs p) 4 4) ∧ (pg = le (callArgs p) 8 4) ∧ (0 < id) ∧ (id ≤ s.sagParam p.saggar 0x030C) ∧ ((s.cdcTable p.saggar id).users = 0) ∧ (s.tablePage p.saggar rg pg = none)) ∧
    (∃ (s : State) (p : Packet) (id : _) (rg : _) (pg : _) (r : _) (x : _) (s' : _), (p.wf = true) ∧ (s.rptRefusal p = none) ∧ (callProc p = 0xFF6) ∧ (12 ≤ (callArgs p).length) ∧ (id = le (callArgs p) 0 2) ∧ (rg = le (callArgs p) 4 4) ∧ (pg = le (callArgs p) 8 4) ∧ (0 < id) ∧ (id ≤ s.sagParam p.saggar 0x030C) ∧ ((s.cdcTable p.saggar id).users = 0) ∧ (s.tablePage p.saggar rg pg = some r) ∧ (readTable r pg (take p s) = (x, s')) ∧ (x = none)) ∧
    (∃ (s : State) (p : Packet) (id : _) (rg : _) (pg : _) (r : _) (x : _) (s' : _), (p.wf = true) ∧ (s.rptRefusal p = none) ∧ (callProc p = 0xFF6) ∧ (12 ≤ (callArgs p).length) ∧ (id = le (callArgs p) 0 2) ∧ (rg = le (callArgs p) 4 4) ∧ (pg = le (callArgs p) 8 4) ∧ (0 < id) ∧ (id ≤ s.sagParam p.saggar 0x030C) ∧ ((s.cdcTable p.saggar id).users = 0) ∧ (s.tablePage p.saggar rg pg = some r) ∧ (readTable r pg (take p s) = (x, s')) ∧ (x = some none ∨ (∃ o, x = some (some o) ∧ tableValid o = false))) :=
  ⟨⟨wUp, (wJobCall 0xFF4 0 0 0 : Packet), (.codecEncode (wJobCall 0xFF4 0 0 0) : Instr), 0xFF4, 1, { call := wJobCall 0xFF4 0 0 0 }, .denied, 0, by refine ⟨?_, ?_, ?_, ?_, ?_, ?_, ?_⟩ <;> first | decide +kernel | rfl | (unfold canRetire hasBudget; decide +kernel) | (unfold hasBudget; decide +kernel) | simp⟩,
  ⟨wUp, wDec, (.codecDecode wDec : Instr), 0xFF5, 2, { call := wDec }, 0, by refine ⟨?_, ?_, ?_, ?_, ?_, ?_⟩ <;> first | decide +kernel | rfl | (unfold canRetire hasBudget; decide +kernel) | (unfold hasBudget; decide +kernel) | simp⟩,
  ⟨(wCdc [] : State), wEncRaw, (.codecEncode wEncRaw : Instr), 0xFF4, 1, { call := wEncRaw }, by refine ⟨?_, ?_, ?_, ?_, ?_, ?_⟩ <;> first | decide +kernel | rfl | (unfold canRetire hasBudget; decide +kernel) | (unfold hasBudget; decide +kernel) | simp⟩,
  ⟨wUp, (wCall 0xFF6 (natLe 1025 4 ++ zeros 12) : Packet), 1025, 0, 0, by refine ⟨?_, ?_, ?_, ?_, ?_, ?_, ?_, ?_⟩ <;> first | decide +kernel | rfl | (unfold canRetire hasBudget; decide +kernel) | (unfold hasBudget; decide +kernel) | simp⟩,
  ⟨({ wUp with cdc := { tables := [((0, 1), { bound := true, users := 1 })] } } : State), (wCall 0xFF6 (natLe 1 4 ++ zeros 12) : Packet), 1, 0, 0, by refine ⟨?_, ?_, ?_, ?_, ?_, ?_, ?_, ?_, ?_, ?_⟩ <;> first | decide +kernel | rfl | (unfold canRetire hasBudget; decide +kernel) | (unfold hasBudget; decide +kernel) | simp⟩,
  ⟨wUp, (wCall 0xFF6 (natLe 1024 4 ++ zeros 12) : Packet), 1024, 0, 0, by refine ⟨?_, ?_, ?_, ?_, ?_, ?_, ?_, ?_, ?_, ?_, ?_⟩ <;> first | decide +kernel | rfl | (unfold canRetire hasBudget; decide +kernel) | (unfold hasBudget; decide +kernel) | simp⟩,
  ⟨wAway, (wCall 0xFF6 (natLe 1 4 ++ zeros 12) : Packet), 1, 0, 0, { lostPages := [0], pages := 1, holders := [5] }, none, (readTable { lostPages := [0], pages := 1, holders := [5] } 0 (take (wCall 0xFF6 (natLe 1 4 ++ zeros 12)) wAway)).2, by refine ⟨?_, ?_, ?_, ?_, ?_, ?_, ?_, ?_, ?_, ?_, ?_, test_wPair (by decide +kernel), ?_⟩ <;> first | decide +kernel | rfl | (unfold canRetire hasBudget; decide +kernel) | (unfold hasBudget; decide +kernel) | simp⟩,
  ⟨wLost, (wCall 0xFF6 (natLe 1 4 ++ zeros 12) : Packet), 1, 0, 0, { lostPages := [0], pages := 1 }, some none, (readTable { lostPages := [0], pages := 1 } 0 (take (wCall 0xFF6 (natLe 1 4 ++ zeros 12)) wLost)).2, by refine ⟨?_, ?_, ?_, ?_, ?_, ?_, ?_, ?_, ?_, ?_, ?_, test_wPair (by decide +kernel), Or.inl rfl⟩ <;> first | decide +kernel | rfl | (unfold canRetire hasBudget; decide +kernel) | (unfold hasBudget; decide +kernel) | simp⟩⟩

theorem test_wit_CodecJobs_2 :
    (∃ (s : State) (p : Packet) (id : _) (rg : _) (pg : _) (r : _) (x : _) (s' : _) (o : _), (p.wf = true) ∧ (s.rptRefusal p = none) ∧ (callProc p = 0xFF6) ∧ (12 ≤ (callArgs p).length) ∧ (id = le (callArgs p) 0 2) ∧ (rg = le (callArgs p) 4 4) ∧ (pg = le (callArgs p) 8 4) ∧ (0 < id) ∧ (id ≤ s.sagParam p.saggar 0x030C) ∧ ((s.cdcTable p.saggar id).users = 0) ∧ (s.tablePage p.saggar rg pg = some r) ∧ (readTable r pg (take p s) = (x, s')) ∧ (x = some (some o)) ∧ (tableValid o = true)) ∧
    (∃ (s : State) (p : Packet) (id : _), (p.wf = true) ∧ (s.rptRefusal p = none) ∧ (callProc p = 0xFF7) ∧ (2 ≤ (callArgs p).length) ∧ (id = le (callArgs p) 0 2) ∧ (0 < id) ∧ (id ≤ s.sagParam p.saggar 0x030C) ∧ (0 < (s.cdcTable p.saggar id).users)) ∧
    (∃ (s : State) (p : Packet) (id : _), (p.wf = true) ∧ (s.rptRefusal p = none) ∧ (callProc p = 0xFF7) ∧ (2 ≤ (callArgs p).length) ∧ (id = le (callArgs p) 0 2) ∧ (0 < id) ∧ (id ≤ s.sagParam p.saggar 0x030C) ∧ ((s.cdcTable p.saggar id).users = 0)) ∧
    (∃ (s : State) (p : Packet) (e : _) (j : _) (rest : _) (c : _), (p.wf = true) ∧ (e < 8) ∧ ((s.engine e).queue = j :: rest) ∧ ((s.engine e).fence.on = false) ∧ (j.started = false) ∧ (j.rd.ended = true) ∧ (j.rd.failed = some c)) ∧
    (∃ (s : State) (p : Packet) (e : _) (j : _) (rest : _) (s' : _), (p.wf = true) ∧ (e < 8) ∧ ((s.engine e).queue = j :: rest) ∧ ((s.engine e).fence.on = false) ∧ (j.started = false) ∧ (j.rd.ended = true) ∧ (j.rd.failed = none) ∧ (jobTable j s = (none, s'))) ∧
    (∃ (s : State) (p : Packet) (e : _) (j : _) (rest : _) (tab : _) (s' : _) (out : _) (j' : _) (s'' : _), (p.wf = true) ∧ (e < 8) ∧ ((s.engine e).queue = j :: rest) ∧ ((s.engine e).fence.on = false) ∧ (j.started = false) ∧ (j.rd.ended = true) ∧ (j.rd.failed = none) ∧ (jobTable j s = (some tab, s')) ∧ (runJob j tab s' = (out, j', s''))) ∧
    (∃ (s : State) (p : Packet) (e : _) (j : _) (rest : _), (p.wf = true) ∧ (e < 8) ∧ ((s.engine e).queue = j :: rest) ∧ ((s.engine e).fence.on = true ∨ j.started = true ∨ j.rd.ended = false)) ∧
    (∃ (s : State) (p : Packet) (e : _) (j : _) (rest : _) (w : _), (p.wf = true) ∧ (e < 8) ∧ ((s.engine e).queue = j :: rest) ∧ (j.started = true) ∧ (j.wr = some w) ∧ (w.ended = true) ∧ (w.failed = none) ∧ (j.status = .ok ∨ j.status = .damaged)) :=
  ⟨⟨wTabS, (wCall 0xFF6 (natLe 1 4 ++ zeros 12) : Packet), 1, 0, 0, wTabR, some (some wTabO), (readTable wTabR 0 wTabSt).2, wTabO, by refine ⟨?_, ?_, ?_, ?_, ?_, ?_, ?_, ?_, ?_, ?_, ?_, test_wTable, ?_, test_wTableOk⟩ <;> first | decide +kernel | rfl | (unfold canRetire hasBudget; decide +kernel) | (unfold hasBudget; decide +kernel) | simp⟩,
  ⟨({ wUp with cdc := { tables := [((0, 1), { bound := true, users := 1 })] } } : State), (wCall 0xFF7 (natLe 1 8) : Packet), 1, by refine ⟨?_, ?_, ?_, ?_, ?_, ?_, ?_, ?_⟩ <;> first | decide +kernel | rfl | (unfold canRetire hasBudget; decide +kernel) | (unfold hasBudget; decide +kernel) | simp⟩,
  ⟨({ wUp with cdc := { tables := [((0, 1), { bound := true })] } } : State), (wCall 0xFF7 (natLe 1 8) : Packet), 1, by refine ⟨?_, ?_, ?_, ?_, ?_, ?_, ?_, ?_⟩ <;> first | decide +kernel | rfl | (unfold canRetire hasBudget; decide +kernel) | (unfold hasBudget; decide +kernel) | simp⟩,
  ⟨(wCdc [{ call := wEncRaw, rd := { failed := some 5 } }] : State), wEncRaw, 0, { call := wEncRaw, rd := { failed := some 5 } }, [], 5, by refine ⟨?_, ?_, ?_, ?_, ?_, ?_, ?_⟩ <;> first | decide +kernel | rfl | (unfold canRetire hasBudget; decide +kernel) | (unfold hasBudget; decide +kernel) | simp⟩,
  ⟨wAwayJ, wEncRaw, 0, { call := wDec, rd := { len := 16, next := 16, data := List.replicate 16 7 } }, [], (jobTable { call := wDec, rd := { len := 16, next := 16, data := List.replicate 16 7 } } wAwayJ).2, by refine ⟨?_, ?_, ?_, ?_, ?_, ?_, ?_, test_wPair (by decide +kernel)⟩ <;> first | decide +kernel | rfl | (unfold canRetire hasBudget; decide +kernel) | (unfold hasBudget; decide +kernel) | simp⟩,
  ⟨(wCdc [{ call := wEncRaw, rd := { len := 16, next := 16, data := List.replicate 16 7 } }] : State), wEncRaw, 0, { call := wEncRaw, rd := { len := 16, next := 16, data := List.replicate 16 7 } }, [], .ok [], wCdc [{ call := wEncRaw, rd := { len := 16, next := 16, data := List.replicate 16 7 } }], (runJob ({ call := wEncRaw, rd := { len := 16, next := 16, data := List.replicate 16 7 } } : CdcJob) (.ok []) (wCdc [{ call := wEncRaw, rd := { len := 16, next := 16, data := List.replicate 16 7 } }])).1, (runJob ({ call := wEncRaw, rd := { len := 16, next := 16, data := List.replicate 16 7 } } : CdcJob) (.ok []) (wCdc [{ call := wEncRaw, rd := { len := 16, next := 16, data := List.replicate 16 7 } }])).2.1, (runJob ({ call := wEncRaw, rd := { len := 16, next := 16, data := List.replicate 16 7 } } : CdcJob) (.ok []) (wCdc [{ call := wEncRaw, rd := { len := 16, next := 16, data := List.replicate 16 7 } }])).2.2, by refine ⟨?_, ?_, ?_, ?_, ?_, ?_, ?_, rfl, rfl⟩ <;> first | decide +kernel | rfl | (unfold canRetire hasBudget; decide +kernel) | (unfold hasBudget; decide +kernel) | simp⟩,
  ⟨(wCdc [{ started := true }] : State), wEncRaw, 0, { started := true }, [], by refine ⟨?_, ?_, ?_, ?_⟩ <;> first | decide +kernel | rfl | (unfold canRetire hasBudget; decide +kernel) | (unfold hasBudget; decide +kernel) | simp⟩,
  ⟨(wCdc [{ started := true, call := wEncRaw, wr := some {} }] : State), wEncRaw, 0, { started := true, call := wEncRaw, wr := some {} }, [], {}, by refine ⟨?_, ?_, ?_, ?_, ?_, ?_, ?_, ?_⟩ <;> first | decide +kernel | rfl | (unfold canRetire hasBudget; decide +kernel) | (unfold hasBudget; decide +kernel) | simp⟩⟩

theorem test_wit_CodecJobs_3 :
    (∃ (s : State) (p : Packet) (e : _) (j : _) (rest : _) (w : _) (c : _), (p.wf = true) ∧ (e < 8) ∧ ((s.engine e).queue = j :: rest) ∧ (j.started = true) ∧ (j.wr = some w) ∧ (w.ended = true) ∧ (w.failed = some c)) ∧
    (∃ (s : State) (p : Packet) (e : _) (j : _) (rest : _), (p.wf = true) ∧ (e < 8) ∧ ((s.engine e).queue = j :: rest) ∧ (j.started = true) ∧ (j.wr = none) ∧ (j.status ≠ .ok) ∧ (j.status ≠ .damaged)) ∧
    (∃ (s : State) (p : Packet) (e : _) (j : _) (rest : _), (p.wf = true) ∧ (e < 8) ∧ ((s.engine e).queue = j :: rest) ∧ (j.started = false)) ∧
    (∃ (s : State) (p : Packet) (who : Who) (e : _), (p.wf = true) ∧ (who.wf = true) ∧ (e < 8) ∧ (s.csrGate who (cdcCtrl e) true = none) ∧ (liftsFence who = true) ∧ (s.cdc.homeless = [])) ∧
    (∃ (s : State) (p : Packet) (who : Who) (e : _), (p.wf = true) ∧ (who.wf = true) ∧ (e < 8) ∧ (s.csrGate who (cdcCtrl e) true = none) ∧ (liftsFence who = false)) :=
  ⟨⟨(wCdc [{ started := true, call := wEncRaw, wr := some { failed := some 5 } }] : State), wEncRaw, 0, { started := true, call := wEncRaw, wr := some { failed := some 5 } }, [], { failed := some 5 }, 5, by refine ⟨?_, ?_, ?_, ?_, ?_, ?_, ?_⟩ <;> first | decide +kernel | rfl | (unfold canRetire hasBudget; decide +kernel) | (unfold hasBudget; decide +kernel) | simp⟩,
  ⟨(wCdc [{ started := true, call := wEncRaw, status := .poison }] : State), wEncRaw, 0, { started := true, call := wEncRaw, status := .poison }, [], by refine ⟨?_, ?_, ?_, ?_, ?_, ?_, ?_⟩ <;> first | decide +kernel | rfl | (unfold canRetire hasBudget; decide +kernel) | (unfold hasBudget; decide +kernel) | simp⟩,
  ⟨(wCdc [{}] : State), wEncRaw, 0, {}, [], by refine ⟨?_, ?_, ?_, ?_⟩ <;> first | decide +kernel | rfl | (unfold canRetire hasBudget; decide +kernel) | (unfold hasBudget; decide +kernel) | simp⟩,
  ⟨wUp, wEncRaw, .management, 0, by refine ⟨?_, ?_, ?_, ?_, ?_, ?_⟩ <;> first | decide +kernel | rfl | (unfold canRetire hasBudget; decide +kernel) | (unfold hasBudget; decide +kernel) | simp⟩,
  ⟨wUp, wEncRaw, (.operator 1 : Who), 0, by refine ⟨?_, ?_, ?_, ?_, ?_⟩ <;> first | decide +kernel | rfl | (unfold canRetire hasBudget; decide +kernel) | (unfold hasBudget; decide +kernel) | simp⟩⟩

theorem test_wit_ContributionOrder :
    (∃ (c : Coll) (got : List PugPkt), (c.got.Perm got) ∧ ((∀ p ∈ c.got, ∀ q ∈ c.got, (match cMode c.desc with | .merge => p.pos = q.pos ∧ p.label = q.label ∧ p.slice = q.slice | .census => p.empty = false ∧ q.empty = false ∧ p.partial_ = q.partial_ ∧ p.pos = q.pos | _ => p.empty = false ∧ q.empty = false ∧ p.partial_ = q.partial_ ∧ p.pos = q.pos ∧ p.slice = q.slice ∧ p.part = q.part) → p = q))) :=
  ⟨({ wColl with got := [wX, { wX with pos := 1 }] } : Coll), ([{ wX with pos := 1 }, wX] : List PugPkt), ⟨List.Perm.swap _ _ _, by intro p hp q hq h; rw [show cMode _ = CollMode.frame from by decide +kernel] at h; change p ∈ [wX, { wX with pos := 1 }] at hp; change q ∈ [wX, { wX with pos := 1 }] at hq; simp only [List.mem_cons, List.not_mem_nil, or_false] at hp hq; rcases hp with rfl | rfl <;> rcases hq with rfl | rfl <;> first | rfl | exact absurd h.2.2.2.1 (by decide)⟩⟩

theorem test_wit_CollectiveSetup_1 :
    (∃ (s : State) (p : Packet) (d : List Byte), (p.wf = true) ∧ (s.rptRefusal p = none) ∧ (callProc p = 0xFF8) ∧ (d = callArgs p) ∧ (d.length ≠ 128)) ∧
    (∃ (s : State) (p : Packet) (d : List Byte) (st : _) (h : _), (p.wf = true) ∧ (s.rptRefusal p = none) ∧ (callProc p = 0xFF8) ∧ (d = callArgs p) ∧ (d.length = 128) ∧ (s.admitColl d p.saggar p.epoch false p = .error (st, h))) ∧
    (∃ (s : State) (p : Packet) (d : List Byte) (r : _) (units : _), (p.wf = true) ∧ (s.rptRefusal p = none) ∧ (callProc p = 0xFF8) ∧ (d = callArgs p) ∧ (d.length = 128) ∧ (s.admitColl d p.saggar p.epoch false p = .ok (r, units)) ∧ (cCount d = 1) ∧ (cStep d = 0) ∧ (stageNodes d (s.collN d) = []) ∧ ((cMode d = .census → cCensusKind d ≠ 0))) ∧
    (∃ (s : State) (p : Packet) (d : List Byte) (r : _) (units : _), (p.wf = true) ∧ (s.rptRefusal p = none) ∧ (callProc p = 0xFF8) ∧ (d = callArgs p) ∧ (d.length = 128) ∧ (s.admitColl d p.saggar p.epoch false p = .ok (r, units)) ∧ (cCount d = 1) ∧ (cStep d = 0) ∧ (stageNodes d (s.collN d) ≠ [])) ∧
    (∃ (p : Packet), (p.wf = true) ∧ (p.payload.length < 136)) ∧
    (∃ (s : State) (p : Packet) (d : List Byte) (st : _) (h : _), (p.wf = true) ∧ (136 ≤ p.payload.length) ∧ (d = p.payload.take 128) ∧ (s.admitColl d p.saggar p.epoch true p = .error (st, h))) ∧
    (∃ (s : State) (p : Packet) (d : List Byte) (r : _) (units : _), (p.wf = true) ∧ (136 ≤ p.payload.length) ∧ (d = p.payload.take 128) ∧ (s.admitColl d p.saggar p.epoch true p = .ok (r, units)) ∧ (cCount d = 1)) ∧
    (∃ (s : State) (p : Packet), (p.wf = true) ∧ (s.rptRefusal p = none) ∧ (callProc p = 0xFFA) ∧ (s.coll? p.saggar (le (callArgs p) 0 4) false = none)) :=
  ⟨⟨(wPug [] : State), (wCall 0xFF8 [] : Packet), ([] : List Byte), by refine ⟨?_, ?_, ?_, ?_, ?_⟩ <;> first | decide +kernel | rfl | (unfold canRetire hasBudget; decide +kernel) | (unfold hasBudget; decide +kernel) | simp⟩,
  ⟨(wPug [] : State), (wCall 0xFF8 (zeros 128) : Packet), (zeros 128 : List Byte), .denied, 0, by refine ⟨?_, ?_, ?_, ?_, ?_, ?_⟩ <;> first | decide +kernel | rfl | (unfold canRetire hasBudget; decide +kernel) | (unfold hasBudget; decide +kernel) | simp⟩,
  ⟨(wPug [] : State), (wCall 0xFF8 (wSum 2) : Packet), (wSum 2 : List Byte), (wAdm (wSum 2) false (wCall 0xFF8 (wSum 2))).1, [0], by refine ⟨?_, ?_, ?_, ?_, ?_, ?_, ?_, ?_, ?_, ?_⟩ <;> first | decide +kernel | rfl | (unfold canRetire hasBudget; decide +kernel) | (unfold hasBudget; decide +kernel) | simp⟩,
  ⟨(wPug [] : State), (wCall 0xFF8 (wSumS 2) : Packet), (wSumS 2 : List Byte), (wAdm (wSumS 2) false (wCall 0xFF8 (wSumS 2))).1, [0], by refine ⟨?_, ?_, ?_, ?_, ?_, ?_, ?_, ?_, ?_⟩ <;> first | decide +kernel | rfl | (unfold canRetire hasBudget; decide +kernel) | (unfold hasBudget; decide +kernel) | simp⟩,
  ⟨({ src := 7 } : Packet), by refine ⟨?_, ?_⟩ <;> first | decide +kernel | rfl | (unfold canRetire hasBudget; decide +kernel) | (unfold hasBudget; decide +kernel) | simp⟩,
  ⟨(wPug [] : State), ({ src := 7, cls := 3, payload := zeros 136 } : Packet), (zeros 128 : List Byte), .denied, 0, by refine ⟨?_, ?_, ?_, ?_⟩ <;> first | decide +kernel | rfl | (unfold canRetire hasBudget; decide +kernel) | (unfold hasBudget; decide +kernel) | simp⟩,
  ⟨(wPug [] : State), ({ src := 7, cls := 3, payload := wSumS 2 ++ zeros 8 } : Packet), (wSumS 2 : List Byte), (wAdm (wSumS 2) true { src := 7, cls := 3, payload := wSumS 2 ++ zeros 8 }).1, [0], by refine ⟨?_, ?_, ?_, ?_, ?_⟩ <;> first | decide +kernel | rfl | (unfold canRetire hasBudget; decide +kernel) | (unfold hasBudget; decide +kernel) | simp⟩,
  ⟨(wPug [] : State), (wCall 0xFFA (zeros 8) : Packet), by refine ⟨?_, ?_, ?_, ?_⟩ <;> first | decide +kernel | rfl | (unfold canRetire hasBudget; decide +kernel) | (unfold hasBudget; decide +kernel) | simp⟩⟩

theorem test_wit_CollectiveSetup_2 :
    (∃ (s : State) (p : Packet) (c : _), (p.wf = true) ∧ (s.rptRefusal p = none) ∧ (callProc p = 0xFFA) ∧ (s.coll? p.saggar (le (callArgs p) 0 4) false = some c)) ∧
    (∃ (s : State) (p : Packet) (h : _) (c : _), (p.wf = true) ∧ (s.rptRefusal p = none) ∧ (callProc p = 0xFF9) ∧ (le (callArgs p) 0 8 = h + 2 ^ 32) ∧ (h < 2 ^ 32) ∧ (s.coll? p.saggar h false = some c) ∧ (c.st = 1 ∨ c.st = 2) ∧ (stageNodes c.desc (s.collN c.desc) = [])) ∧
    (∃ (s : State) (p : Packet) (h : _), (p.wf = true) ∧ (s.rptRefusal p = none) ∧ (callProc p = 0xFF9) ∧ (le (callArgs p) 0 8 = h + 2 ^ 32) ∧ (h < 2 ^ 32) ∧ ((∀ c, s.coll? p.saggar h false = some c → c.st ≠ 1 ∧ c.st ≠ 2))) ∧
    (∃ (s : State) (p : Packet), (p.wf = true) ∧ (s.epochCheck p = .stale)) ∧
    (∃ (s : State) (p : Packet), (p.wf = true) ∧ (s.epochCheck p = .notReady)) ∧
    (∃ (s : State) (p : Packet) (ms : _), (p.wf = true) ∧ (ms = s.members (s.sagComp p.saggar)) ∧ (s.epochCheck p = .served) ∧ (ms.contains s.fab.node = false)) ∧
    (∃ (s : State) (p : Packet) (ms : _), (p.wf = true) ∧ (ms = s.members (s.sagComp p.saggar)) ∧ (s.epochCheck p = .served) ∧ (ms.contains s.fab.node = true) ∧ (s.maySend (.pug (s.pugUnits.headD 0)) p.src p.saggar = false)) :=
  ⟨⟨(wPug [wColl] : State), (wCall 0xFFA (zeros 8) : Packet), wColl, by refine ⟨?_, ?_, ?_, ?_⟩ <;> first | decide +kernel | rfl | (unfold canRetire hasBudget; decide +kernel) | (unfold hasBudget; decide +kernel) | simp⟩,
  ⟨(wPug [wColl] : State), (wCall 0xFF9 (natLe (2 ^ 32) 8) : Packet), 0, wColl, by refine ⟨?_, ?_, ?_, ?_, ?_, ?_, ?_, ?_⟩ <;> first | decide +kernel | rfl | (unfold canRetire hasBudget; decide +kernel) | (unfold hasBudget; decide +kernel) | simp⟩,
  ⟨(wPug [] : State), (wCall 0xFF9 (natLe (2 ^ 32) 8) : Packet), 0, by refine ⟨?_, ?_, ?_, ?_, ?_, ?_⟩ <;> first | decide +kernel | rfl | ((intro c h; rw [show State.coll? _ _ _ _ = none from by decide +kernel] at h; exact absurd h (by simp))) | (unfold canRetire hasBudget; decide +kernel) | (unfold hasBudget; decide +kernel) | simp⟩,
  ⟨(wPug [] : State), ({ src := 7, cls := 3, payload := zeros 8, epoch := 65535 } : Packet), by refine ⟨?_, ?_⟩ <;> first | decide +kernel | rfl | (unfold canRetire hasBudget; decide +kernel) | (unfold hasBudget; decide +kernel) | simp⟩,
  ⟨(wPug [] : State), ({ src := 7, cls := 3, payload := zeros 8, epoch := 1 } : Packet), by refine ⟨?_, ?_⟩ <;> first | decide +kernel | rfl | (unfold canRetire hasBudget; decide +kernel) | (unfold hasBudget; decide +kernel) | simp⟩,
  ⟨wUp, ({ src := 7, cls := 3, payload := zeros 8 } : Packet), [], by refine ⟨?_, ?_, ?_, ?_⟩ <;> first | decide +kernel | rfl | (unfold canRetire hasBudget; decide +kernel) | (unfold hasBudget; decide +kernel) | simp⟩,
  ⟨({ wPug [] with fab := { node := 0, outst := List.replicate 1024 { req := .pug 0 } } } : State), ({ src := 7, cls := 3, payload := zeros 8 } : Packet), [0, 5], by refine ⟨?_, ?_, ?_, ?_, ?_⟩ <;> first | decide +kernel | rfl | (unfold canRetire hasBudget; decide +kernel) | (unfold hasBudget; decide +kernel) | simp⟩⟩

theorem test_wit_CollectiveData_1 :
    (∃ (s : State) (p : Packet) (port : _) (upsets : List LaneUpset) (h : _) (x : _) (rsv : _), (p.wf = true) ∧ (port < 65) ∧ (upsets.length ≤ 3) ∧ (parseContrib p.payload = (h, x, rsv)) ∧ (s.collFor p.saggar h x = none)) ∧
    (∃ (s : State) (p : Packet) (port : _) (upsets : List LaneUpset) (h : _) (x : _) (rsv : _) (c : _), (p.wf = true) ∧ (port < 65) ∧ (upsets.length ≤ 3) ∧ (parseContrib p.payload = (h, x, rsv)) ∧ (s.collFor p.saggar h x = some c) ∧ (c.st = 4)) ∧
    (∃ (s : State) (p : Packet) (port : _) (upsets : List LaneUpset) (h : _) (x : _) (rsv : _) (c : _), (p.wf = true) ∧ (port < 65) ∧ (upsets.length ≤ 3) ∧ (parseContrib p.payload = (h, x, rsv)) ∧ (s.collFor p.saggar h x = some c) ∧ (c.st ≠ 4) ∧ (s.epochCheck p = .notReady)) ∧
    (∃ (s : State) (p : Packet) (port : _) (upsets : List LaneUpset) (h : _) (x : _) (rsv : _) (c : _), (p.wf = true) ∧ (port < 65) ∧ (upsets.length ≤ 3) ∧ (parseContrib p.payload = (h, x, rsv)) ∧ (s.collFor p.saggar h x = some c) ∧ (c.st ≠ 4) ∧ (s.epochCheck p = .stale ∨ (s.epochCheck p = .served ∧ p.epoch ≠ c.epoch))) ∧
    (∃ (s : State) (p : Packet) (port : _) (upsets : List LaneUpset) (h : _) (x : _) (rsv : _) (c : _), (p.wf = true) ∧ (port < 65) ∧ (upsets.length ≤ 3) ∧ (parseContrib p.payload = (h, x, rsv)) ∧ (s.collFor p.saggar h x = some c) ∧ (c.st ≠ 4) ∧ (s.epochCheck p = .served) ∧ (p.epoch = c.epoch) ∧ (s.badContrib c x rsv = true)) ∧
    (∃ (s : State) (p : Packet) (port : _) (upsets : List LaneUpset) (h : _) (x : _) (rsv : _) (c : _), (p.wf = true) ∧ (port < 65) ∧ (upsets.length ≤ 3) ∧ (parseContrib p.payload = (h, x, rsv)) ∧ (s.collFor p.saggar h x = some c) ∧ (c.st ≠ 4) ∧ (s.epochCheck p = .served) ∧ (p.epoch = c.epoch) ∧ (s.badContrib c x rsv = false) ∧ (c.seen x = true)) ∧
    (∃ (s : State) (p : Packet) (port : _) (upsets : List LaneUpset) (h : _) (x : _) (rsv : _) (c : _), (p.wf = true) ∧ (port < 65) ∧ (upsets.length ≤ 3) ∧ (parseContrib p.payload = (h, x, rsv)) ∧ (s.collFor p.saggar h x = some c) ∧ (c.st ≠ 4) ∧ (s.epochCheck p = .served) ∧ (p.epoch = c.epoch) ∧ (s.badContrib c x rsv = false) ∧ (c.seen x = false) ∧ (cMode c.desc = .merge) ∧ ((c.labels x.pos).contains x.label = false) ∧ (cNblk c.desc ≤ (c.labels x.pos).length)) ∧
    (∃ (s : State) (p : Packet) (port : _) (upsets : List LaneUpset) (h : _) (x : _) (rsv : _) (c : _) (n : _) (left : _), (p.wf = true) ∧ (port < 65) ∧ (upsets.length ≤ 3) ∧ (parseContrib p.payload = (h, x, rsv)) ∧ (s.collFor p.saggar h x = some c) ∧ (c.st ≠ 4) ∧ (s.epochCheck p = .served) ∧ (p.epoch = c.epoch) ∧ (s.badContrib c x rsv = false) ∧ (c.seen x = false) ∧ ((cMode c.desc = .merge → (c.labels x.pos).contains x.label = true ∨ (c.labels x.pos).length < cNblk c.desc)) ∧ (c.attempts x upsets = (n, some left))) :=
  ⟨⟨wUp, ({ src := 7 } : Packet), 64, ([] : List LaneUpset), 0, {}, false, by refine ⟨?_, ?_, ?_, ?_, ?_⟩ <;> first | decide +kernel | rfl | (unfold canRetire hasBudget; decide +kernel) | (unfold hasBudget; decide +kernel) | simp⟩,
  ⟨(wPug [{ wColl with st := 4 }] : State), ({ src := 7 } : Packet), 64, ([] : List LaneUpset), 0, {}, false, { wColl with st := 4 }, by refine ⟨?_, ?_, ?_, ?_, ?_, ?_⟩ <;> first | decide +kernel | rfl | (unfold canRetire hasBudget; decide +kernel) | (unfold hasBudget; decide +kernel) | simp⟩,
  ⟨(wPug [wColl] : State), ({ src := 7, cls := 3, epoch := 1 } : Packet), 64, ([] : List LaneUpset), 0, {}, false, wColl, by refine ⟨?_, ?_, ?_, ?_, ?_, ?_, ?_⟩ <;> first | decide +kernel | rfl | (unfold canRetire hasBudget; decide +kernel) | (unfold hasBudget; decide +kernel) | simp⟩,
  ⟨(wPug [{ wColl with epoch := 1 }] : State), ({ src := 7 } : Packet), 64, ([] : List LaneUpset), 0, {}, false, { wColl with epoch := 1 }, by refine ⟨?_, ?_, ?_, ?_, ?_, ?_, ?_⟩ <;> first | decide +kernel | rfl | (unfold canRetire hasBudget; decide +kernel) | (unfold hasBudget; decide +kernel) | simp⟩,
  ⟨(wPug [wColl] : State), ({ src := 7 } : Packet), 64, ([] : List LaneUpset), 0, {}, false, wColl, by refine ⟨?_, ?_, ?_, ?_, ?_, ?_, ?_, ?_, ?_⟩ <;> first | decide +kernel | rfl | (unfold canRetire hasBudget; decide +kernel) | (unfold hasBudget; decide +kernel) | simp⟩,
  ⟨(wPug [{ wColl with got := [wX] }] : State), wCon, 64, ([] : List LaneUpset), 0, wX, true, { wColl with got := [wX] }, by refine ⟨?_, ?_, ?_, ?_, ?_, ?_, ?_, ?_, ?_, ?_⟩ <;> first | decide +kernel | rfl | (unfold canRetire hasBudget; decide +kernel) | (unfold hasBudget; decide +kernel) | simp⟩,
  ⟨(wPug [wMerge] : State), ({ src := 7, cls := 3, payload := contribBytes 0 wMergeX } : Packet), 64, ([] : List LaneUpset), 0, wMergeX, true, wMerge, by refine ⟨?_, ?_, ?_, ?_, ?_, ?_, ?_, ?_, ?_, ?_, ?_, ?_, ?_⟩ <;> first | decide +kernel | rfl | (unfold canRetire hasBudget; decide +kernel) | (unfold hasBudget; decide +kernel) | simp⟩,
  ⟨(wPug [wColl] : State), wCon, 64, ([({ err := 1 } : LaneUpset)] : List LaneUpset), 0, wX, true, wColl, 1, { err := 0 }, by refine ⟨?_, ?_, ?_, ?_, ?_, ?_, ?_, ?_, ?_, ?_, ?_, ?_⟩ <;> first | decide +kernel | rfl | (unfold canRetire hasBudget; decide +kernel) | (unfold hasBudget; decide +kernel) | simp⟩⟩

theorem test_wit_CollectiveData_2 :
    (∃ (s : State) (p : Packet) (port : _) (upsets : List LaneUpset) (h : _) (x : _) (rsv : _) (c : _) (n : _), (p.wf = true) ∧ (port < 65) ∧ (upsets.length ≤ 3) ∧ (parseContrib p.payload = (h, x, rsv)) ∧ (s.collFor p.saggar h x = some c) ∧ (c.st ≠ 4) ∧ (s.epochCheck p = .served) ∧ (p.epoch = c.epoch) ∧ (s.badContrib c x rsv = false) ∧ (c.seen x = false) ∧ ((cMode c.desc = .merge → (c.labels x.pos).contains x.label = true ∨ (c.labels x.pos).length < cNblk c.desc)) ∧ (c.attempts x upsets = (n, none))) ∧
    (∃ (s : State) (p : Packet) (h : _) (x : _) (rsv : _), (p.wf = true) ∧ (parseContrib p.payload = (h, x, rsv)) ∧ (s.coll? p.saggar h true = none)) ∧
    (∃ (s : State) (p : Packet) (h : _) (x : _) (rsv : _) (c : _), (p.wf = true) ∧ (parseContrib p.payload = (h, x, rsv)) ∧ (s.coll? p.saggar h true = some c) ∧ (c.st = 4)) ∧
    (∃ (s : State) (p : Packet) (h : _) (x : _) (rsv : _) (c : _), (p.wf = true) ∧ (parseContrib p.payload = (h, x, rsv)) ∧ (s.coll? p.saggar h true = some c) ∧ (c.st ≠ 4) ∧ ((s.groups c).find? (fun g => g.1 = x.pos) = none)) ∧
    (∃ (s : State) (p : Packet) (h : _) (x : _) (rsv : _) (c : _) (g : _), (p.wf = true) ∧ (parseContrib p.payload = (h, x, rsv)) ∧ (s.coll? p.saggar h true = some c) ∧ (c.st ≠ 4) ∧ ((s.groups c).find? (fun g => g.1 = x.pos) = some g) ∧ ((∀ k ∈ g.2, aget c.ret k.key 0 = 0))) ∧
    (∃ (s : State) (p : Packet) (h : _) (x : _) (rsv : _) (c : _) (g : _) (k : _), (p.wf = true) ∧ (parseContrib p.payload = (h, x, rsv)) ∧ (s.coll? p.saggar h true = some c) ∧ (c.st = 2) ∧ (c.stage = true) ∧ ((s.groups c).find? (fun g => g.1 = x.pos) = some g) ∧ (g.2 = [k]) ∧ (aget c.ret k.key 0 ≠ 0) ∧ (cPattern c.desc ≠ 2) ∧ (0 < x.nelem) ∧ (x.data ≠ []) ∧ (0 < cOutBytes c.desc)) ∧
    (∃ (s : State) (p : Packet) (who : Who) (n : _), (p.wf = true) ∧ (who.wf = true) ∧ (n < 16) ∧ (s.csrGate who (pugCtrl n) true = none) ∧ ((s.pugFence n).on = false)) ∧
    (∃ (s : State) (p : Packet) (who : Who) (n : _), (p.wf = true) ∧ (who.wf = true) ∧ (n < 16) ∧ (s.csrGate who (pugCtrl n) true = none) ∧ ((s.pugFence n).on = true)) :=
  ⟨⟨(wPug [wColl] : State), wCon, 64, ([({ err := 1 } : LaneUpset), { err := 2 }, { err := 256 }] : List LaneUpset), 0, wX, true, wColl, 3, by refine ⟨?_, ?_, ?_, ?_, ?_, ?_, ?_, ?_, ?_, ?_, ?_, ?_⟩ <;> first | decide +kernel | rfl | (unfold canRetire hasBudget; decide +kernel) | (unfold hasBudget; decide +kernel) | simp⟩,
  ⟨wUp, wCon, 0, wX, true, by refine ⟨?_, ?_, ?_⟩ <;> first | decide +kernel | rfl | (unfold canRetire hasBudget; decide +kernel) | (unfold hasBudget; decide +kernel) | simp⟩,
  ⟨(wPug [{ wColl with st := 4, stage := true }] : State), wCon, 0, wX, true, { wColl with st := 4, stage := true }, by refine ⟨?_, ?_, ?_, ?_⟩ <;> first | decide +kernel | rfl | (unfold canRetire hasBudget; decide +kernel) | (unfold hasBudget; decide +kernel) | simp⟩,
  ⟨(wPug [{ wColl with stage := true }] : State), wCon, 0, wX, true, { wColl with stage := true }, by refine ⟨?_, ?_, ?_, ?_, ?_⟩ <;> first | decide +kernel | rfl | (unfold canRetire hasBudget; decide +kernel) | (unfold hasBudget; decide +kernel) | simp⟩,
  ⟨(wPug [{ wColl with stage := true, desc := wSumS 2 }] : State), wCon, 0, wX, true, { wColl with stage := true, desc := wSumS 2 }, (0, [childAt 0, childAt 1]), by refine ⟨?_, ?_, ?_, ?_, ?_, ?_⟩ <;> first | decide +kernel | rfl | (unfold canRetire hasBudget; decide +kernel) | (unfold hasBudget; decide +kernel) | simp⟩,
  ⟨(wPug [{ wColl with stage := true, desc := wSumS 1, ret := [((false, 0), 4096)] }] : State), wCon, 0, wX, true, { wColl with stage := true, desc := wSumS 1, ret := [((false, 0), 4096)] }, (0, [childAt 0]), childAt 0, by refine ⟨?_, ?_, ?_, ?_, ?_, ?_, ?_, ?_, ?_, ?_, ?_, ?_⟩ <;> first | decide +kernel | rfl | (unfold canRetire hasBudget; decide +kernel) | (unfold hasBudget; decide +kernel) | simp⟩,
  ⟨(wPug [{ wColl with stage := true, desc := wSumS 1, ret := [((false, 0), 4096)] }] : State), wCon, .management, 0, by refine ⟨?_, ?_, ?_, ?_, ?_⟩ <;> first | decide +kernel | rfl | (unfold canRetire hasBudget; decide +kernel) | (unfold hasBudget; decide +kernel) | simp⟩,
  ⟨(wPug [{ wColl with stage := true, desc := wSumS 1, ret := [((false, 0), 4096)] }] : State), wCon, .management, 15, by refine ⟨?_, ?_, ?_, ?_, ?_⟩ <;> first | decide +kernel | rfl | (unfold canRetire hasBudget; decide +kernel) | (unfold hasBudget; decide +kernel) | simp⟩⟩

theorem test_wit_CollectiveData_3 :
    (∃ (s : State) (p : Packet) (who : Who) (n : _), (p.wf = true) ∧ (who.wf = true) ∧ (n < 16) ∧ (s.csrGate who (pugCtrl n) true = none) ∧ (liftsFence who = true)) ∧
    (∃ (s : State) (p : Packet) (who : Who) (n : _), (p.wf = true) ∧ (who.wf = true) ∧ (n < 16) ∧ (s.csrGate who (pugCtrl n) true = none) ∧ (liftsFence who = false)) ∧
    (∃ (s : State) (p : Packet) (id : _), (p.wf = true) ∧ (id < 2 ^ 32) ∧ (s.pug.comb.find? (fun e => e.id = id && e.tag = none) = none)) ∧
    (∃ (s : State) (p : Packet) (id : _) (e : _), (p.wf = true) ∧ (id < 2 ^ 32) ∧ (s.pug.comb.find? (fun e => e.id = id && e.tag = none) = some e)) :=
  ⟨⟨(wPug [{ wColl with stage := true, desc := wSumS 1, ret := [((false, 0), 4096)] }] : State), wCon, .management, 15, by refine ⟨?_, ?_, ?_, ?_, ?_⟩ <;> first | decide +kernel | rfl | (unfold canRetire hasBudget; decide +kernel) | (unfold hasBudget; decide +kernel) | simp⟩,
  ⟨(wPug [{ wColl with stage := true, desc := wSumS 1, ret := [((false, 0), 4096)] }] : State), wCon, (.operator 1 : Who), 15, by refine ⟨?_, ?_, ?_, ?_, ?_⟩ <;> first | decide +kernel | rfl | (unfold canRetire hasBudget; decide +kernel) | (unfold hasBudget; decide +kernel) | simp⟩,
  ⟨(wPug [{ wColl with stage := true, desc := wSumS 1, ret := [((false, 0), 4096)] }] : State), wCon, 4294967295, by refine ⟨?_, ?_, ?_⟩ <;> first | decide +kernel | rfl | (unfold canRetire hasBudget; decide +kernel) | (unfold hasBudget; decide +kernel) | simp⟩,
  ⟨({ wUp with pug := { comb := [{}] } } : State), wCon, 0, {}, by refine ⟨?_, ?_, ?_⟩ <;> first | decide +kernel | rfl | (unfold canRetire hasBudget; decide +kernel) | (unfold hasBudget; decide +kernel) | simp⟩⟩

theorem test_wit_Gathering_1 :
    (∃ (s : State) (p : Packet), (p.wf = true) ∧ (trainPart p = true) ∧ (joinTrain ((addPart p s.fab.frags).filter (sameTrain p)) = none)) ∧
    (∃ (s : State) (p : Packet) (w : _), (p.wf = true) ∧ (trainPart p = true) ∧ (joinTrain ((addPart p s.fab.frags).filter (sameTrain p)) = some w)) ∧
    (∃ (s : State) (p : Packet) (st : _) (h : _), (p.wf = true) ∧ (trainPart p = false) ∧ (s.gthRefusal p = .error (st, h))) ∧
    (∃ (s : State) (p : Packet) (d : _), (p.wf = true) ∧ (trainPart p = false) ∧ (s.gthRefusal p = .ok d) ∧ ((∀ x ∈ s.gth.reqs, x.id ≠ s.gth.nextReq))) ∧
    (∃ (s : State) (p : Packet) (id : _), (p.wf = true) ∧ (id < 2 ^ 32) ∧ (s.gth.reqs.find? (fun r => r.id = id && r.engine.isSome) = none)) ∧
    (∃ (s : State) (p : Packet) (id : _) (r : _), (p.wf = true) ∧ (id < 2 ^ 32) ∧ (s.gth.reqs.find? (fun r => r.id = id && r.engine.isSome) = some r) ∧ (r.left = []) ∧ (r.subs ≠ []) ∧ ((∀ m ∈ r.subs, m.tag.isSome = true)) ∧ ((∀ x ∈ s.gth.reqs, x.id = id → x = r))) ∧
    (∃ (s : State) (p : Packet) (id : _) (r : _) (h : _) (c : _), (p.wf = true) ∧ (id < 2 ^ 32) ∧ (s.gth.reqs.find? (fun r => r.id = id && r.engine.isSome) = some r) ∧ (r.left = []) ∧ (r.subs = []) ∧ (h = gthHdr r.call.payload) ∧ (r.failed = some c)) ∧
    (∃ (s : State) (p : Packet) (id : _) (r : _) (h : _), (p.wf = true) ∧ (id < 2 ^ 32) ∧ (s.gth.reqs.find? (fun r => r.id = id && r.engine.isSome) = some r) ∧ (r.left = []) ∧ (r.subs = []) ∧ (h = gthHdr r.call.payload) ∧ (r.failed = none) ∧ (r.poison = true) ∧ (h.fwd = 0)) :=
  ⟨⟨wUp, ({ offset := 512 } : Packet), by refine ⟨?_, ?_, ?_⟩ <;> first | decide +kernel | rfl | (unfold canRetire hasBudget; decide +kernel) | (unfold hasBudget; decide +kernel) | simp⟩,
  ⟨({ wUp with fab := { frags := [{ last := false, payload := zeros 512 }] } } : State), ({ offset := 512, last := true } : Packet), { last := true, payload := zeros 512 }, by refine ⟨?_, ?_, ?_⟩ <;> first | decide +kernel | rfl | (unfold canRetire hasBudget; decide +kernel) | (unfold hasBudget; decide +kernel) | simp⟩,
  ⟨wUp, ({ src := 7 } : Packet), .denied, 0, by refine ⟨?_, ?_, ?_⟩ <;> first | decide +kernel | rfl | (unfold canRetire hasBudget; decide +kernel) | (unfold hasBudget; decide +kernel) | simp⟩,
  ⟨(wGth {} : State), (wGP 0 : Packet), wGDef, by refine ⟨?_, ?_, ?_, ?_⟩ <;> first | decide +kernel | rfl | (unfold canRetire hasBudget; decide +kernel) | (unfold hasBudget; decide +kernel) | simp⟩,
  ⟨wUp, (wGP 0 : Packet), 4294967295, by refine ⟨?_, ?_, ?_⟩ <;> first | decide +kernel | rfl | (unfold canRetire hasBudget; decide +kernel) | (unfold hasBudget; decide +kernel) | simp⟩,
  ⟨(wGth { reqs := [{ engine := some 0, subs := [{ tag := some 5 }] }] } : State), (wGP 0 : Packet), 0, { engine := some 0, subs := [{ tag := some 5 }] }, by refine ⟨?_, ?_, ?_, ?_, ?_, ?_, ?_⟩ <;> first | decide +kernel | rfl | (unfold canRetire hasBudget; decide +kernel) | (unfold hasBudget; decide +kernel) | simp⟩,
  ⟨(wGth { reqs := [{ engine := some 0, failed := some 5 }] } : State), (wGP 0 : Packet), 0, { engine := some 0, failed := some 5 }, gthHdr [], 5, by refine ⟨?_, ?_, ?_, ?_, ?_, ?_, ?_⟩ <;> first | decide +kernel | rfl | (unfold canRetire hasBudget; decide +kernel) | (unfold hasBudget; decide +kernel) | simp⟩,
  ⟨(wGth { reqs := [{ engine := some 0, poison := true }] } : State), (wGP 0 : Packet), 0, { engine := some 0, poison := true }, gthHdr [], by refine ⟨?_, ?_, ?_, ?_, ?_, ?_, ?_, ?_, ?_⟩ <;> first | decide +kernel | rfl | (unfold canRetire hasBudget; decide +kernel) | (unfold hasBudget; decide +kernel) | simp⟩⟩

theorem test_wit_Gathering_2 :
    (∃ (s : State) (p : Packet) (id : _) (r : _) (h : _), (p.wf = true) ∧ (id < 2 ^ 32) ∧ (s.gth.reqs.find? (fun r => r.id = id && r.engine.isSome) = some r) ∧ (r.left = []) ∧ (r.subs = []) ∧ (h = gthHdr r.call.payload) ∧ (r.failed = none) ∧ (r.poison = false) ∧ (h.fwd ≠ 0)) ∧
    (∃ (s : State) (p : Packet) (id : _) (r : _) (h : _) (es : _) (n : _), (p.wf = true) ∧ (id < 2 ^ 32) ∧ (s.gth.reqs.find? (fun r => r.id = id && r.engine.isSome) = some r) ∧ (r.left = []) ∧ (r.subs = []) ∧ (h = gthHdr r.call.payload) ∧ (r.failed = none) ∧ (r.poison = false) ∧ (h.fwd = 0) ∧ (es = r.frames.map (fun x => ((if h.pool = 1 then x.mean h.nRows h.outFmt else encodeElem h.outFmt x.value), x.ovf))) ∧ (n = (es.filter (fun x => x.2)).length)) ∧
    (∃ (s : State) (p : Packet) (a : _), (p.wf = true) ∧ (s.rptRefusal p = none) ∧ (callProc p = 0xFFB) ∧ (a = le (callArgs p) 0 8) ∧ (s.gdef p.saggar (bits a 0 6) = none)) ∧
    (∃ (s : State) (p : Packet) (a : _) (d : _) (row : _) (n : _) (r : _) (off : _) (rs : _), (p.wf = true) ∧ (s.rptRefusal p = none) ∧ (callProc p = 0xFFB) ∧ (a = le (callArgs p) 0 8) ∧ (s.gdef p.saggar (bits a 0 6) = some d) ∧ (8 ≤ (callArgs p).length) ∧ (row = bits a 32 32) ∧ (row < gRows d) ∧ (s.rowOwner p.saggar d row = some n) ∧ (s.homes.contains n = true) ∧ (bits a 8 8 = 0xFF) ∧ ((s.gEntry p.saggar d row).moved ≠ none) ∧ ((∀ x, (s.gEntry p.saggar d row).moved = some x → x.2.1 ≠ 0xFF)) ∧ (s.gthUnits ≠ []) ∧ (ahas s.gth.dir (p.saggar, gTable d, gGen d, row) = true) ∧ (s.rowPlace p.saggar d row = some (r, off)) ∧ (s.regionKnown p.saggar (gShard d (row % gShards d)) = some rs) ∧ ((s.gEntry p.saggar d row).frozen = true)) ∧
    (∃ (s : State) (p : Packet) (a : _) (d : _) (row : _) (n : _) (r : _) (off : _) (rs : _), (p.wf = true) ∧ (s.rptRefusal p = none) ∧ (callProc p = 0xFFB) ∧ (a = le (callArgs p) 0 8) ∧ (s.gdef p.saggar (bits a 0 6) = some d) ∧ (8 ≤ (callArgs p).length) ∧ (row = bits a 32 32) ∧ (row < gRows d) ∧ (s.rowOwner p.saggar d row = some n) ∧ (s.homes.contains n = true) ∧ (bits a 8 8 = 0xFF) ∧ ((s.gEntry p.saggar d row).moved ≠ none) ∧ ((∀ x, (s.gEntry p.saggar d row).moved = some x → x.2.1 ≠ 0xFF)) ∧ (s.gthUnits ≠ []) ∧ (ahas s.gth.dir (p.saggar, gTable d, gGen d, row) = true) ∧ (s.rowPlace p.saggar d row = some (r, off)) ∧ (s.regionKnown p.saggar (gShard d (row % gShards d)) = some rs) ∧ ((s.gEntry p.saggar d row).frozen = false)) ∧
    (∃ (s : State) (p : Packet) (g : _) (t : _) (row : _), (p.wf = true) ∧ (g < 64) ∧ (t < 64) ∧ (row < 2 ^ 48) ∧ (s.gth.moves.find? (fun m => m.saggar = g && m.table = t && m.row = row) = none)) ∧
    (∃ (s : State) (p : Packet) (g : _) (t : _) (row : _) (m : GthMove) (w : Xfer), (p.wf = true) ∧ (g < 64) ∧ (t < 64) ∧ (row < 2 ^ 48) ∧ (s.gth.moves.find? (fun m => m.saggar = g && m.table = t && m.row = row) = some m) ∧ (m.rd.failed = none) ∧ (m.wr = some w) ∧ (w.failed = none) ∧ (w.ended = true)) ∧
    (∃ (s : State) (p : Packet) (g : _) (t : _) (row : _) (m : GthMove), (p.wf = true) ∧ (g < 64) ∧ (t < 64) ∧ (row < 2 ^ 48) ∧ (s.gth.moves.find? (fun m => m.saggar = g && m.table = t && m.row = row) = some m) ∧ (m.rd.failed = none) ∧ (m.wr = none)) :=
  ⟨⟨(wGth { reqs := [{ engine := some 0, call := wGP 1 }] } : State), (wGP 0 : Packet), 0, { engine := some 0, call := wGP 1 }, gthHdr (wGP 1).payload, by refine ⟨?_, ?_, ?_, ?_, ?_, ?_, ?_, ?_, ?_⟩ <;> first | decide +kernel | rfl | (unfold canRetire hasBudget; decide +kernel) | (unfold hasBudget; decide +kernel) | simp⟩,
  ⟨(wGth { reqs := [{ engine := some 0, call := wGP 0, def_ := wGDef }] } : State), (wGP 0 : Packet), 0, { engine := some 0, call := wGP 0, def_ := wGDef }, gthHdr (wGP 0).payload, [((0, false), false)], 0, by refine ⟨?_, ?_, ?_, ?_, ?_, ?_, ?_, ?_, ?_, ?_, ?_⟩ <;> first | decide +kernel | rfl | (unfold canRetire hasBudget; decide +kernel) | (unfold hasBudget; decide +kernel) | simp⟩,
  ⟨wUp, (wCall 0xFFB (zeros 8) : Packet), 0, by refine ⟨?_, ?_, ?_, ?_, ?_⟩ <;> first | decide +kernel | rfl | (unfold canRetire hasBudget; decide +kernel) | (unfold hasBudget; decide +kernel) | simp⟩,
  ⟨(wGth (wGE true) : State), (wCall 0xFFB (natLe 0xFF00 8) : Packet), 0xFF00, wGDef, 0, 0, { id := 1 }, 0, {}, by refine ⟨?_, ?_, ?_, ?_, ?_, ?_, ?_, ?_, ?_, ?_, ?_, ?_, ?_, ?_, ?_, ?_, ?_, ?_⟩ <;> first | decide +kernel | rfl | ((intro x h; rw [show (State.gEntry _ _ _ _).moved = some (0, 0, 0) from by decide +kernel] at h; cases h; decide)) | (unfold canRetire hasBudget; decide +kernel) | (unfold hasBudget; decide +kernel) | simp⟩,
  ⟨(wGth (wGE false) : State), (wCall 0xFFB (natLe 0xFF00 8) : Packet), 0xFF00, wGDef, 0, 0, { id := 1 }, 0, {}, by refine ⟨?_, ?_, ?_, ?_, ?_, ?_, ?_, ?_, ?_, ?_, ?_, ?_, ?_, ?_, ?_, ?_, ?_, ?_⟩ <;> first | decide +kernel | rfl | (unfold canRetire hasBudget; decide +kernel) | (unfold hasBudget; decide +kernel) | simp⟩,
  ⟨wUp, (wCall 0xFFB (natLe 0xFF00 8) : Packet), 63, 63, 281474976710655, by refine ⟨?_, ?_, ?_, ?_, ?_⟩ <;> first | decide +kernel | rfl | (unfold canRetire hasBudget; decide +kernel) | (unfold hasBudget; decide +kernel) | simp⟩,
  ⟨(wGth { moves := [{ wr := some {} }] } : State), (wCall 0xFFB (natLe 0xFF00 8) : Packet), 0, 0, 0, (({ wr := some {} } : GthMove) : GthMove), ({} : Xfer), by refine ⟨?_, ?_, ?_, ?_, ?_, ?_, ?_, ?_, ?_⟩ <;> first | decide +kernel | rfl | (unfold canRetire hasBudget; decide +kernel) | (unfold hasBudget; decide +kernel) | simp⟩,
  ⟨(wGth { moves := [{}] } : State), (wCall 0xFFB (natLe 0xFF00 8) : Packet), 0, 0, 0, (({} : GthMove) : GthMove), by refine ⟨?_, ?_, ?_, ?_, ?_, ?_, ?_⟩ <;> first | decide +kernel | rfl | (unfold canRetire hasBudget; decide +kernel) | (unfold hasBudget; decide +kernel) | simp⟩⟩

theorem test_wit_Gathering_3 :
    (∃ (s : State) (p : Packet) (who : Who) (e : _), (p.wf = true) ∧ (who.wf = true) ∧ (e < 8) ∧ (s.csrGate who (gthCtrl e) true = none) ∧ (liftsFence who = true)) ∧
    (∃ (s : State) (p : Packet) (who : Who) (e : _), (p.wf = true) ∧ (who.wf = true) ∧ (e < 8) ∧ (s.csrGate who (gthCtrl e) true = none) ∧ (liftsFence who = false)) :=
  ⟨⟨wUp, (wCall 0xFFB (natLe 0xFF00 8) : Packet), .management, 7, by refine ⟨?_, ?_, ?_, ?_, ?_⟩ <;> first | decide +kernel | rfl | (unfold canRetire hasBudget; decide +kernel) | (unfold hasBudget; decide +kernel) | simp⟩,
  ⟨wUp, (wCall 0xFFB (natLe 0xFF00 8) : Packet), (.operator 1 : Who), 7, by refine ⟨?_, ?_, ?_, ?_, ?_⟩ <;> first | decide +kernel | rfl | (unfold canRetire hasBudget; decide +kernel) | (unfold hasBudget; decide +kernel) | simp⟩⟩

theorem test_wit_Sieving_1 :
    (∃ (x : SivIndex) (r : SivReq) (e : SivSide) (item : Nat), (r.s ≤ x.insSeq) ∧ (r.g ≤ x.delGen) ∧ (x.insSeq < e.seq) ∧ (x.tomb.contains item = false)) ∧
    (∃ (s : State) (p : Packet), (p.wf = true) ∧ (trainPart p = true) ∧ (joinTrain ((addPart p s.fab.frags).filter (sameTrain p)) = none)) ∧
    (∃ (s : State) (p : Packet) (w : _), (p.wf = true) ∧ (trainPart p = true) ∧ (joinTrain ((addPart p s.fab.frags).filter (sameTrain p)) = some w)) ∧
    (∃ (s : State) (p : Packet) (st : _) (h : _), (p.wf = true) ∧ (trainPart p = false) ∧ (s.sivRefusal p = .error (st, h))) ∧
    (∃ (s : State) (p : Packet) (x : _), (p.wf = true) ∧ (trainPart p = false) ∧ (s.sivRefusal p = .ok x)) ∧
    (∃ (s : State) (p : Packet) (id : _), (p.wf = true) ∧ (id < 2 ^ 32) ∧ (s.siv.reqs.find? (fun r => r.id = id) = none)) ∧
    (∃ (s : State) (p : Packet) (id : _) (r : _) (e : _) (x : _) (res : _) (s' : _), (p.wf = true) ∧ (id < 2 ^ 32) ∧ (s.siv.reqs.find? (fun r => r.id = id) = some r) ∧ (r.engine = some e) ∧ (s.sivIndex r.call.saggar r.index = some x) ∧ (readQuery (s.region r.image) r.call.payload s = (res, s')) ∧ (res = .waits)) ∧
    (∃ (s : State) (p : Packet) (id : _) (r : _) (e : _) (x : _) (res : _) (s' : _) (bs : _), (p.wf = true) ∧ (id < 2 ^ 32) ∧ (s.siv.reqs.find? (fun r => r.id = id) = some r) ∧ (r.engine = some e) ∧ (s.sivIndex r.call.saggar r.index = some x) ∧ (readQuery (s.region r.image) r.call.payload s = (res, s')) ∧ (res = .data bs) ∧ (s'.anyPoison (s'.region x.side) = false)) :=
  ⟨⟨({} : SivIndex), ({} : SivReq), ({ seq := 1 } : SivSide), 0, by refine ⟨?_, ?_, ?_, ?_⟩ <;> first | decide +kernel | rfl | (unfold canRetire hasBudget; decide +kernel) | (unfold hasBudget; decide +kernel) | simp⟩,
  ⟨wUp, ({ offset := 512 } : Packet), by refine ⟨?_, ?_, ?_⟩ <;> first | decide +kernel | rfl | (unfold canRetire hasBudget; decide +kernel) | (unfold hasBudget; decide +kernel) | simp⟩,
  ⟨({ wUp with fab := { frags := [{ last := false, payload := zeros 512 }] } } : State), ({ offset := 512, last := true } : Packet), { last := true, payload := zeros 512 }, by refine ⟨?_, ?_, ?_⟩ <;> first | decide +kernel | rfl | (unfold canRetire hasBudget; decide +kernel) | (unfold hasBudget; decide +kernel) | simp⟩,
  ⟨wUp, ({ src := 7 } : Packet), .denied, 0, by refine ⟨?_, ?_, ?_⟩ <;> first | decide +kernel | rfl | (unfold canRetire hasBudget; decide +kernel) | (unfold hasBudget; decide +kernel) | simp⟩,
  ⟨(wSivH wSivX : State), wSivP, wSivX, by refine ⟨?_, ?_, ?_⟩ <;> first | ((simp only [State.sivRefusal]; rw [show (wSivH wSivX).sivIndex _ _ = some wSivX from by decide +kernel]; simp only [show wSivX.image = 0 from rfl, test_wHdr]; decide +kernel)) | decide +kernel | rfl | (unfold canRetire hasBudget; decide +kernel) | (unfold hasBudget; decide +kernel) | simp⟩,
  ⟨wUp, wSivP, 4294967295, by refine ⟨?_, ?_, ?_⟩ <;> first | decide +kernel | rfl | (unfold canRetire hasBudget; decide +kernel) | (unfold hasBudget; decide +kernel) | simp⟩,
  ⟨({ wSiv {} { reqs := [{ engine := some 0 }] } with tie := { regions := [(0, { lostPages := [0], holders := [5] })] } } : State), wSivP, 0, { engine := some 0 }, 0, wSivX, .waits, (readQuery { lostPages := [0], holders := [5] } [] { wSiv {} { reqs := [{ engine := some 0 }] } with tie := { regions := [(0, { lostPages := [0], holders := [5] })] } }).2, by refine ⟨?_, ?_, ?_, ?_, ?_, test_wPair (by decide +kernel), ?_⟩ <;> first | decide +kernel | rfl | (unfold canRetire hasBudget; decide +kernel) | (unfold hasBudget; decide +kernel) | simp⟩,
  ⟨(wSiv { pages := 0 } { reqs := [{ engine := some 0 }] } : State), wSivP, 0, { engine := some 0 }, 0, wSivX, .data [], (readQuery { pages := 0 } [] (wSiv { pages := 0 } { reqs := [{ engine := some 0 }] })).2, [], by refine ⟨?_, ?_, ?_, ?_, ?_, test_wPair (by decide +kernel), ?_, ?_⟩ <;> first | decide +kernel | rfl | (unfold canRetire hasBudget; decide +kernel) | (unfold hasBudget; decide +kernel) | simp⟩⟩

theorem test_wit_Sieving_2 :
    (∃ (s : State) (p : Packet) (id : _) (r : _) (e : _) (x : _) (res : _) (s' : _) (bs : _), (p.wf = true) ∧ (id < 2 ^ 32) ∧ (s.siv.reqs.find? (fun r => r.id = id) = some r) ∧ (r.engine = some e) ∧ (s.sivIndex r.call.saggar r.index = some x) ∧ (readQuery (s.region r.image) r.call.payload s = (res, s')) ∧ (res = .data bs) ∧ (s'.anyPoison (s'.region x.side) = true)) ∧
    (∃ (s : State) (p : Packet) (id : _) (r : _) (e : _) (x : _) (res : _) (s' : _), (p.wf = true) ∧ (id < 2 ^ 32) ∧ (s.siv.reqs.find? (fun r => r.id = id) = some r) ∧ (r.engine = some e) ∧ (s.sivIndex r.call.saggar r.index = some x) ∧ (readQuery (s.region r.image) r.call.payload s = (res, s')) ∧ (res = .poison)) ∧
    (∃ (s : State) (p : Packet) (a : _) (i : _) (x : _) (h : _), (p.wf = true) ∧ (s.rptRefusal p = none) ∧ (a = callArgs p) ∧ (i = le a 0 1) ∧ (s.sagConf p.saggar = false) ∧ (s.sivUnits ≠ []) ∧ (s.sivIndex p.saggar i = some x) ∧ (h = s.sivHeader x.image) ∧ (callProc p = 0xFFC) ∧ (a.length = 24 + h.m) ∧ (le a 4 4 < h.itemMax) ∧ (x.tomb.contains (le a 4 4) = false) ∧ (le a 2 2 < h.c) ∧ (s.sagParam p.saggar 0x0308 ≤ x.liveSide (le a 2 2))) ∧
    (∃ (s : State) (p : Packet) (a : _) (i : _) (x : _) (h : _), (p.wf = true) ∧ (s.rptRefusal p = none) ∧ (a = callArgs p) ∧ (i = le a 0 1) ∧ (s.sagConf p.saggar = false) ∧ (s.sivUnits ≠ []) ∧ (s.sivIndex p.saggar i = some x) ∧ (h = s.sivHeader x.image) ∧ (callProc p = 0xFFC) ∧ (a.length = 24 + h.m) ∧ (le a 4 4 < h.itemMax) ∧ (x.tomb.contains (le a 4 4) = false) ∧ (le a 2 2 < h.c) ∧ (x.liveSide (le a 2 2) < s.sagParam p.saggar 0x0308)) ∧
    (∃ (s : State) (p : Packet) (a : _) (i : _) (x : _) (h : _), (p.wf = true) ∧ (s.rptRefusal p = none) ∧ (a = callArgs p) ∧ (i = le a 0 1) ∧ (s.sagConf p.saggar = false) ∧ (s.sivUnits ≠ []) ∧ (s.sivIndex p.saggar i = some x) ∧ (h = s.sivHeader x.image) ∧ (callProc p = 0xFFC) ∧ (h.itemMax ≤ le a 4 4 ∨ x.tomb.contains (le a 4 4) = true)) ∧
    (∃ (s : State) (p : Packet) (a : _) (i : _) (x : _) (h : _), (p.wf = true) ∧ (s.rptRefusal p = none) ∧ (a = callArgs p) ∧ (i = le a 0 1) ∧ (s.sagConf p.saggar = false) ∧ (s.sivUnits ≠ []) ∧ (s.sivIndex p.saggar i = some x) ∧ (h = s.sivHeader x.image) ∧ (callProc p = 0xFFD) ∧ (8 ≤ a.length) ∧ (le a 4 4 < h.itemMax) ∧ (x.tomb.contains (le a 4 4) = true)) ∧
    (∃ (s : State) (p : Packet) (a : _) (i : _) (x : _) (h : _), (p.wf = true) ∧ (s.rptRefusal p = none) ∧ (a = callArgs p) ∧ (i = le a 0 1) ∧ (s.sagConf p.saggar = false) ∧ (s.sivUnits ≠ []) ∧ (s.sivIndex p.saggar i = some x) ∧ (h = s.sivHeader x.image) ∧ (callProc p = 0xFFD) ∧ (8 ≤ a.length) ∧ (le a 4 4 < h.itemMax) ∧ (x.tomb.contains (le a 4 4) = false) ∧ ((s.trimLog p.saggar i x).log.length < s.sagParam p.saggar 0x0309)) ∧
    (∃ (s : State) (p : Packet) (a : _) (i : _) (x : _) (h : _) (r : _), (p.wf = true) ∧ (s.rptRefusal p = none) ∧ (a = callArgs p) ∧ (i = le a 0 1) ∧ (s.sagConf p.saggar = false) ∧ (s.sivUnits ≠ []) ∧ (s.sivIndex p.saggar i = some x) ∧ (h = s.sivHeader x.image) ∧ (callProc p = 0xFFE) ∧ (8 ≤ a.length) ∧ (afind s.tie.regions (le a 4 4) = some r) ∧ (r.kind = 0) ∧ (r.sealed_ = false) ∧ (r.saggar = p.saggar) ∧ (le a 4 4 ≠ x.image) ∧ (mergedStart h + ((mergedLists h (s.imageBytes (s.region x.image)) x { target := le a 4 4, sm := x.insSeq, gm := x.delGen }).map (fun l => l.length * h.entry)).foldl (· + ·) 0 ≤ r.size) ∧ (x.merge = none)) :=
  ⟨⟨({ wSiv {} { reqs := [{ engine := some 0 }] } with tie := { regions := [(0, {}), (1, { id := 1, lostPages := [0] })] } } : State), wSivP, 0, { engine := some 0 }, 0, wSivX, .data [], (readQuery {} [] { wSiv {} { reqs := [{ engine := some 0 }] } with tie := { regions := [(0, {}), (1, { id := 1, lostPages := [0] })] } }).2, [], by refine ⟨?_, ?_, ?_, ?_, ?_, test_wPair (by decide +kernel), ?_, ?_⟩ <;> first | decide +kernel | rfl | (unfold canRetire hasBudget; decide +kernel) | (unfold hasBudget; decide +kernel) | simp⟩,
  ⟨(wSiv { lostPages := [0] } { reqs := [{ engine := some 0 }] } : State), wSivP, 0, { engine := some 0 }, 0, wSivX, .poison, (readQuery { lostPages := [0] } [] (wSiv { lostPages := [0] } { reqs := [{ engine := some 0 }] })).2, by refine ⟨?_, ?_, ?_, ?_, ?_, test_wPair (by decide +kernel), ?_⟩ <;> first | decide +kernel | rfl | (unfold canRetire hasBudget; decide +kernel) | (unfold hasBudget; decide +kernel) | simp⟩,
  ⟨(wSivH wSivE : State), wSivIns, callArgs wSivIns, 0, wSivE, wSivHd, by refine ⟨?_, ?_, ?_, ?_, ?_, ?_, ?_, (test_wHdr _).symm, ?_, ?_, ?_, ?_, ?_, ?_⟩ <;> first | decide +kernel | rfl | (unfold canRetire hasBudget; decide +kernel) | (unfold hasBudget; decide +kernel) | simp⟩,
  ⟨(wSivH wSivX : State), wSivIns, callArgs wSivIns, 0, wSivX, wSivHd, by refine ⟨?_, ?_, ?_, ?_, ?_, ?_, ?_, (test_wHdr _).symm, ?_, ?_, ?_, ?_, ?_, ?_⟩ <;> first | decide +kernel | rfl | (unfold canRetire hasBudget; decide +kernel) | (unfold hasBudget; decide +kernel) | simp⟩,
  ⟨(wSiv {} {} : State), wSivIns, callArgs wSivIns, 0, wSivX, sivHdr (zeros 64), by refine ⟨?_, ?_, ?_, ?_, ?_, ?_, ?_, ?_, ?_, ?_⟩ <;> first | decide +kernel | rfl | (unfold canRetire hasBudget; decide +kernel) | (unfold hasBudget; decide +kernel) | simp⟩,
  ⟨(wSivH wSivT : State), wSivDel, callArgs wSivDel, 0, wSivT, wSivHd, by refine ⟨?_, ?_, ?_, ?_, ?_, ?_, ?_, (test_wHdr _).symm, ?_, ?_, ?_, ?_⟩ <;> first | decide +kernel | rfl | (unfold canRetire hasBudget; decide +kernel) | (unfold hasBudget; decide +kernel) | simp⟩,
  ⟨(wSivH wSivX : State), wSivDel, callArgs wSivDel, 0, wSivX, wSivHd, by refine ⟨?_, ?_, ?_, ?_, ?_, ?_, ?_, (test_wHdr _).symm, ?_, ?_, ?_, ?_, ?_⟩ <;> first | decide +kernel | rfl | (unfold canRetire hasBudget; decide +kernel) | (unfold hasBudget; decide +kernel) | simp⟩,
  ⟨(wSiv { pages := 0 } {} : State), wSivMrg, callArgs wSivMrg, 0, wSivX, (wSiv { pages := 0 } {}).sivHeader 0, { id := 1 }, by refine ⟨?_, ?_, ?_, ?_, ?_, ?_, ?_, ?_, ?_, ?_, ?_, ?_, ?_, ?_, ?_, ?_, ?_⟩ <;> first | decide +kernel | rfl | (unfold canRetire hasBudget; decide +kernel) | (unfold hasBudget; decide +kernel) | simp⟩⟩

theorem test_wit_Sieving_3 :
    (∃ (s : State) (p : Packet) (a : _) (i : _) (x : _) (h : _) (r : _), (p.wf = true) ∧ (s.rptRefusal p = none) ∧ (a = callArgs p) ∧ (i = le a 0 1) ∧ (s.sagConf p.saggar = false) ∧ (s.sivUnits ≠ []) ∧ (s.sivIndex p.saggar i = some x) ∧ (h = s.sivHeader x.image) ∧ (callProc p = 0xFFE) ∧ (8 ≤ a.length) ∧ (afind s.tie.regions (le a 4 4) = some r) ∧ (r.kind = 0) ∧ (r.sealed_ = false) ∧ (r.saggar = p.saggar) ∧ (le a 4 4 ≠ x.image) ∧ (mergedStart h + ((mergedLists h (s.imageBytes (s.region x.image)) x { target := le a 4 4, sm := x.insSeq, gm := x.delGen }).map (fun l => l.length * h.entry)).foldl (· + ·) 0 ≤ r.size) ∧ (x.merge ≠ none)) ∧
    (∃ (s : State) (p : Packet) (g : _) (i : _) (x : _), (p.wf = true) ∧ (g < 64) ∧ (i < 64) ∧ (s.sivIndex g i = some x) ∧ (x.merge = none)) ∧
    (∃ (s : State) (p : Packet) (g : _) (i : _) (x : _) (m : _) (img : _) (s1 : _) (s2 : _), (p.wf = true) ∧ (g < 64) ∧ (i < 64) ∧ (s.sivIndex g i = some x) ∧ (x.merge = some m) ∧ (m.switched = false) ∧ (readRegion (s.region x.image) none 0 (s.region x.image).size s = (.data img, s1)) ∧ (writeRegion (s1.region m.target) 0 (mergedImage (sivHdr img) (sub img) (mergedLists (sivHdr img) (sub img) x m)) s1 = (.done, s2))) ∧
    (∃ (s : State) (p : Packet) (g : _) (i : _) (x : _) (m : _), (p.wf = true) ∧ (g < 64) ∧ (i < 64) ∧ (s.sivIndex g i = some x) ∧ (x.merge = some m) ∧ (m.switched = true) ∧ ((∀ r ∈ s.siv.reqs, r.call.saggar = g → r.index = i → x.version ≤ r.version))) ∧
    (∃ (s : State) (p : Packet) (who : Who) (e : _), (p.wf = true) ∧ (who.wf = true) ∧ (e < 8) ∧ (s.csrGate who (sivCtrl e) true = none) ∧ (liftsFence who = true)) ∧
    (∃ (s : State) (p : Packet) (who : Who) (e : _), (p.wf = true) ∧ (who.wf = true) ∧ (e < 8) ∧ (s.csrGate who (sivCtrl e) true = none) ∧ (liftsFence who = false)) :=
  ⟨⟨(wSiv { pages := 0 } { index := [((0, 0), { wSivX with merge := some {} })] } : State), wSivMrg, callArgs wSivMrg, 0, { wSivX with merge := some {} }, (wSiv { pages := 0 } { index := [((0, 0), { wSivX with merge := some {} })] }).sivHeader 0, { id := 1 }, by refine ⟨?_, ?_, ?_, ?_, ?_, ?_, ?_, ?_, ?_, ?_, ?_, ?_, ?_, ?_, ?_, ?_, ?_⟩ <;> first | decide +kernel | rfl | (unfold canRetire hasBudget; decide +kernel) | (unfold hasBudget; decide +kernel) | simp⟩,
  ⟨(wSiv {} {} : State), wSivMrg, 0, 0, wSivX, by refine ⟨?_, ?_, ?_, ?_, ?_⟩ <;> first | decide +kernel | rfl | (unfold canRetire hasBudget; decide +kernel) | (unfold hasBudget; decide +kernel) | simp⟩,
  ⟨wSivM, wSivMrg, 0, 0, wSivY, { target := 1 }, [], wSivM1, (writeRegion (wSivM1.region ({ target := 1 } : SivMerge).target) 0 (mergedImage (sivHdr []) (sub []) (mergedLists (sivHdr []) (sub []) wSivY { target := 1 })) wSivM1).2, by refine ⟨?_, ?_, ?_, ?_, ?_, ?_, test_wEta (by decide +kernel) (by delta wSivM1; exact rfl), test_wPair test_wMerged⟩ <;> first | decide +kernel | rfl | (unfold canRetire hasBudget; decide +kernel) | (unfold hasBudget; decide +kernel) | simp⟩,
  ⟨(wSiv {} { index := [((0, 0), { wSivX with merge := some { switched := true } })] } : State), wSivMrg, 0, 0, { wSivX with merge := some { switched := true } }, { switched := true }, by refine ⟨?_, ?_, ?_, ?_, ?_, ?_, ?_⟩ <;> first | decide +kernel | rfl | (unfold canRetire hasBudget; decide +kernel) | (unfold hasBudget; decide +kernel) | simp⟩,
  ⟨wUp, wSivMrg, .management, 7, by refine ⟨?_, ?_, ?_, ?_, ?_⟩ <;> first | decide +kernel | rfl | (unfold canRetire hasBudget; decide +kernel) | (unfold hasBudget; decide +kernel) | simp⟩,
  ⟨wUp, wSivMrg, (.operator 1 : Who), 7, by refine ⟨?_, ?_, ?_, ?_, ?_⟩ <;> first | decide +kernel | rfl | (unfold canRetire hasBudget; decide +kernel) | (unfold hasBudget; decide +kernel) | simp⟩⟩

theorem test_wit_MemoryRequests_1 :
    (∃ (s : State) (p : Packet) (q : Packet) (mm : Bool) (c : Instr) (op : Nat) (st : _) (h : _), (p.wf = true) ∧ (q = { p with opcode := op }) ∧ ((c, op) ∈ [(Instr.read p, opREAD), (.write p mm, opWRITE), (.atomicAdd p mm, opADD), (.atomicMin p mm, opMIN), (.atomicMax p mm, opMAX), (.atomicSwap p mm, opSWAP), (.atomicCas p mm, opCAS), (.frameAdd p mm, opFRAMEADD), (.frameAddF p mm, opFRAMEADDF)]) ∧ (s.isXfer q = false) ∧ (s.accept q = .refuse st h)) ∧
    (∃ (s : State) (p : Packet) (q : Packet) (c : Instr) (op : Nat) (pl : _) (r : _) (a : _) (ver : _) (res : _) (s' : _) (bs : _), (p.wf = true) ∧ (q = { p with opcode := op }) ∧ (c = .read p) ∧ (op = opREAD) ∧ (s.accept q = .ok pl) ∧ ((pl = .working r a ∧ ver = none ∧ r.coh ≠ 1) ∨ (∃ v, pl = .view r v a ∧ ver = some v)) ∧ (s.rowRoute q r a q.length false = .here) ∧ (readRegion { r with holders := r.holders.filter (· ≠ q.src) } ver a q.length s = (res, s')) ∧ (res = .data bs) ∧ (bs ≠ [])) ∧
    (∃ (s : State) (p : Packet) (q : Packet) (c : Instr) (op : Nat) (pl : _) (r : _) (a : _) (ver : _) (res : _) (s' : _), (p.wf = true) ∧ (q = { p with opcode := op }) ∧ (c = .read p) ∧ (op = opREAD) ∧ (s.accept q = .ok pl) ∧ ((pl = .working r a ∧ ver = none ∧ r.coh ≠ 1) ∨ (∃ v, pl = .view r v a ∧ ver = some v)) ∧ (s.rowRoute q r a q.length false = .here) ∧ (readRegion { r with holders := r.holders.filter (· ≠ q.src) } ver a q.length s = (res, s')) ∧ (res = .poison)) ∧
    (∃ (s : State) (p : Packet) (q : Packet) (c : Instr) (op : Nat) (pl : _) (r : _) (a : _) (ver : _) (res : _) (s' : _) (h : _), (p.wf = true) ∧ (q = { p with opcode := op }) ∧ (c = .read p) ∧ (op = opREAD) ∧ (s.accept q = .ok pl) ∧ ((pl = .working r a ∧ ver = none ∧ r.coh ≠ 1) ∨ (∃ v, pl = .view r v a ∧ ver = some v)) ∧ (s.rowRoute q r a q.length false = .here) ∧ (readRegion { r with holders := r.holders.filter (· ≠ q.src) } ver a q.length s = (res, s')) ∧ (res = .retry h)) ∧
    (∃ (s : State) (p : Packet) (q : Packet) (c : Instr) (op : Nat) (pl : _) (r : _) (a : _) (ver : _) (res : _) (s' : _), (p.wf = true) ∧ (q = { p with opcode := op }) ∧ (c = .read p) ∧ (op = opREAD) ∧ (s.accept q = .ok pl) ∧ ((pl = .working r a ∧ ver = none ∧ r.coh ≠ 1) ∨ (∃ v, pl = .view r v a ∧ ver = some v)) ∧ (s.rowRoute q r a q.length false = .here) ∧ (readRegion { r with holders := r.holders.filter (· ≠ q.src) } ver a q.length s = (res, s')) ∧ (res = .waits)) ∧
    (∃ (s : State) (p : Packet) (q : Packet) (mm : Bool) (c : Instr) (op : Nat) (r : _) (a : _), (p.wf = true) ∧ (q = { p with opcode := op }) ∧ (c = .write p mm) ∧ (op = opWRITE) ∧ (s.isXfer q = false) ∧ (s.accept q = .ok (.working r a)) ∧ (r.coh ≠ 1) ∧ (s.rowRoute q r a q.length true = .here) ∧ (q.trailer ≠ trailerOf q.offset q.payload)) ∧
    (∃ (s : State) (p : Packet) (q : Packet) (mm : Bool) (c : Instr) (op : Nat) (r : _) (a : _), (p.wf = true) ∧ (q = { p with opcode := op }) ∧ (c = .write p mm) ∧ (op = opWRITE) ∧ (s.isXfer q = false) ∧ (s.accept q = .ok (.working r a)) ∧ (r.coh ≠ 1) ∧ (s.rowRoute q r a q.length true = .here) ∧ (q.trailer = trailerOf q.offset q.payload) ∧ (mm = true) ∧ (partialPieces a q.length = true)) ∧
    (∃ (s : State) (p : Packet) (q : Packet) (mm : Bool) (c : Instr) (op : Nat) (r : _) (a : _) (res : _) (s' : _), (p.wf = true) ∧ (q = { p with opcode := op }) ∧ (c = .write p mm) ∧ (op = opWRITE) ∧ (s.isXfer q = false) ∧ (s.accept q = .ok (.working r a)) ∧ (r.coh ≠ 1) ∧ (s.rowRoute q r a q.length true = .here) ∧ (q.trailer = trailerOf q.offset q.payload) ∧ (mm = false ∨ partialPieces a q.length = false) ∧ (writeRegion r a q.payload s = (res, s')) ∧ (res = .done)) :=
  ⟨⟨wUp, ({ src := 7 } : Packet), ({ src := 7, opcode := opREAD } : Packet), false, (.read { src := 7 } : Instr), opREAD, .denied, 0, by refine ⟨?_, ?_, ?_, ?_, ?_⟩ <;> first | decide +kernel | rfl | (unfold canRetire hasBudget; decide +kernel) | (unfold hasBudget; decide +kernel) | simp⟩,
  ⟨(wPool {} : State), wRd, wRd, (.read wRd : Instr), opREAD, .working {} 0, {}, 0, none, .data (zeros 8), (readRegion {} none 0 8 (wPool {})).2, zeros 8, by refine ⟨?_, ?_, ?_, ?_, ?_, ?_, ?_, ?_, ?_, ?_⟩ <;> first | decide +kernel | rfl | (exact Or.inl ⟨rfl, rfl, by decide⟩) | (unfold canRetire hasBudget; decide +kernel) | (unfold hasBudget; decide +kernel) | simp⟩,
  ⟨wBad, wRd, wRd, (.read wRd : Instr), opREAD, .working wBadR 0, wBadR, 0, none, .poison, (readRegion wBadR none 0 8 wBad).2, by refine ⟨?_, ?_, ?_, ?_, ?_, ?_, ?_, test_wPair (by decide +kernel), ?_⟩ <;> first | decide +kernel | rfl | (exact Or.inl ⟨rfl, rfl, by decide⟩) | (unfold canRetire hasBudget; decide +kernel) | (unfold hasBudget; decide +kernel) | simp⟩,
  ⟨wCold, wRd, wRd, (.read wRd : Instr), opREAD, .working wTabR 0, wTabR, 0, none, .retry 14, (readRegion wTabR none 0 8 wCold).2, 14, by refine ⟨?_, ?_, ?_, ?_, ?_, ?_, ?_, test_wPair (by decide +kernel), ?_⟩ <;> first | decide +kernel | rfl | (exact Or.inl ⟨rfl, rfl, by decide⟩) | (unfold canRetire hasBudget; decide +kernel) | (unfold hasBudget; decide +kernel) | simp⟩,
  ⟨wColdS, wRd, wRd, (.read wRd : Instr), opREAD, .working wColdR 0, wColdR, 0, none, .waits, (readRegion wColdR none 0 8 wColdS).2, by refine ⟨?_, ?_, ?_, ?_, ?_, ?_, ?_, test_wPair (by decide +kernel), ?_⟩ <;> first | decide +kernel | rfl | (exact Or.inl ⟨rfl, rfl, by decide⟩) | (unfold canRetire hasBudget; decide +kernel) | (unfold hasBudget; decide +kernel) | simp⟩,
  ⟨wRegS, ({ wWr with trailer := [] } : Packet), ({ wWr with trailer := [] } : Packet), false, (.write { wWr with trailer := [] } false : Instr), opWRITE, wReg, 0, by refine ⟨?_, ?_, ?_, ?_, ?_, ?_, ?_, ?_, ?_⟩ <;> first | decide +kernel | rfl | (unfold canRetire hasBudget; decide +kernel) | (unfold hasBudget; decide +kernel) | simp⟩,
  ⟨wRegS, wWr, wWr, true, (.write wWr true : Instr), opWRITE, wReg, 0, by refine ⟨?_, ?_, ?_, ?_, ?_, ?_, ?_, ?_, ?_, ?_, ?_⟩ <;> first | decide +kernel | rfl | (unfold canRetire hasBudget; decide +kernel) | (unfold hasBudget; decide +kernel) | simp⟩,
  ⟨wRegS, wWr, wWr, false, (.write wWr false : Instr), opWRITE, wReg, 0, .done, (writeRegion (wRegS.region 0) 0 (zeros 8) wRegS).2, by refine ⟨?_, ?_, ?_, ?_, ?_, ?_, ?_, ?_, ?_, ?_, test_wPair (by decide +kernel), ?_⟩ <;> first | decide +kernel | rfl | (unfold canRetire hasBudget; decide +kernel) | (unfold hasBudget; decide +kernel) | simp⟩⟩

theorem test_wit_MemoryRequests_2 :
    (∃ (s : State) (p : Packet) (q : Packet) (mm : Bool) (c : Instr) (op : Nat) (r : _) (a : _) (res : _) (s' : _), (p.wf = true) ∧ (q = { p with opcode := op }) ∧ (c = .write p mm) ∧ (op = opWRITE) ∧ (s.isXfer q = false) ∧ (s.accept q = .ok (.working r a)) ∧ (r.coh ≠ 1) ∧ (s.rowRoute q r a q.length true = .here) ∧ (q.trailer = trailerOf q.offset q.payload) ∧ (mm = false ∨ partialPieces a q.length = false) ∧ (writeRegion r a q.payload s = (res, s')) ∧ (res = .poison)) ∧
    (∃ (s : State) (p : Packet) (q : Packet) (mm : Bool) (c : Instr) (op : Nat) (r : _) (a : _) (res : _) (s' : _) (h : _), (p.wf = true) ∧ (q = { p with opcode := op }) ∧ (c = .write p mm) ∧ (op = opWRITE) ∧ (s.isXfer q = false) ∧ (s.accept q = .ok (.working r a)) ∧ (r.coh ≠ 1) ∧ (s.rowRoute q r a q.length true = .here) ∧ (q.trailer = trailerOf q.offset q.payload) ∧ (mm = false ∨ partialPieces a q.length = false) ∧ (writeRegion r a q.payload s = (res, s')) ∧ (res = .retry h)) ∧
    (∃ (s : State) (p : Packet) (q : Packet) (mm : Bool) (c : Instr) (op : Nat) (r : _) (a : _) (res : _) (s' : _), (p.wf = true) ∧ (q = { p with opcode := op }) ∧ (c = .write p mm) ∧ (op = opWRITE) ∧ (s.isXfer q = false) ∧ (s.accept q = .ok (.working r a)) ∧ (r.coh ≠ 1) ∧ (s.rowRoute q r a q.length true = .here) ∧ (q.trailer = trailerOf q.offset q.payload) ∧ (mm = false ∨ partialPieces a q.length = false) ∧ (writeRegion r a q.payload s = (res, s')) ∧ (res = .waits)) ∧
    (∃ (s : State) (p : Packet) (q : Packet) (mm : Bool) (c : Instr) (op : Nat) (r : _) (a : _) (w : _) (old : _), (p.wf = true) ∧ (q = { p with opcode := op }) ∧ ((c, op) ∈ [(Instr.atomicAdd p mm, opADD), (.atomicMin p mm, opMIN), (.atomicMax p mm, opMAX), (.atomicSwap p mm, opSWAP), (.atomicCas p mm, opCAS), (.frameAdd p mm, opFRAMEADD), (.frameAddF p mm, opFRAMEADDF)]) ∧ (s.accept q = .ok (.working r a)) ∧ (r.coh ≠ 1) ∧ (s.rowRoute q r a (spanOf q) true = .here) ∧ (s.winFind q.src q.saggar q.seq = some w) ∧ (w.outcome = some (Status.ok.code, old)) ∧ (op ≠ opFRAMEADDF)) ∧
    (∃ (s : State) (p : Packet) (q : Packet) (mm : Bool) (c : Instr) (op : Nat) (r : _) (a : _) (w : _), (p.wf = true) ∧ (q = { p with opcode := op }) ∧ ((c, op) ∈ [(Instr.atomicAdd p mm, opADD), (.atomicMin p mm, opMIN), (.atomicMax p mm, opMAX), (.atomicSwap p mm, opSWAP), (.atomicCas p mm, opCAS), (.frameAdd p mm, opFRAMEADD), (.frameAddF p mm, opFRAMEADDF)]) ∧ (s.accept q = .ok (.working r a)) ∧ (r.coh ≠ 1) ∧ (s.rowRoute q r a (spanOf q) true = .here) ∧ (s.winFind q.src q.saggar q.seq = some w) ∧ (w.outcome = none)) ∧
    (∃ (s : State) (p : Packet) (q : Packet) (mm : Bool) (c : Instr) (op : Nat) (r : _) (a : _), (p.wf = true) ∧ (q = { p with opcode := op }) ∧ ((c, op) ∈ [(Instr.atomicAdd p mm, opADD), (.atomicMin p mm, opMIN), (.atomicMax p mm, opMAX), (.atomicSwap p mm, opSWAP), (.atomicCas p mm, opCAS), (.frameAdd p mm, opFRAMEADD), (.frameAddF p mm, opFRAMEADDF)]) ∧ (s.accept q = .ok (.working r a)) ∧ (r.coh ≠ 1) ∧ (s.rowRoute q r a (spanOf q) true = .here) ∧ (s.winFind q.src q.saggar q.seq = none) ∧ (s.originalKnown q = false) ∧ (q.rty = true)) ∧
    (∃ (s : State) (p : Packet) (q : Packet) (mm : Bool) (c : Instr) (op : Nat) (r : _) (a : _) (bs : _) (s1 : _) (s2 : _) (x : _) (y : _) (old : _) (new : _), (p.wf = true) ∧ (q = { p with opcode := op }) ∧ ((c, op) ∈ [(Instr.atomicAdd p mm, opADD), (.atomicMin p mm, opMIN), (.atomicMax p mm, opMAX), (.atomicSwap p mm, opSWAP), (.atomicCas p mm, opCAS), (.frameAdd p mm, opFRAMEADD), (.frameAddF p mm, opFRAMEADDF)]) ∧ (s.accept q = .ok (.working r a)) ∧ (r.coh ≠ 1) ∧ (s.rowRoute q r a (spanOf q) true = .here) ∧ (s.winFind q.src q.saggar q.seq = none) ∧ (q.cmb = false) ∧ (q.rty = false) ∧ (mm = false) ∧ (op ≠ opFRAMEADDF) ∧ (readRange r none a 8 s = (.data bs, s1)) ∧ (old = leNat bs) ∧ (x = le q.payload 0 8) ∧ (y = le q.payload 8 8) ∧ (new = (if op = opMIN then (if signed64 old ≤ signed64 x then old else x) else if op = opMAX then (if signed64 x ≤ signed64 old then old else x) else if op = opSWAP then x else if op = opCAS then (if old = x then y else old) else (old + x) % 2 ^ 64)) ∧ (writeRegion (s1.region r.id) a (natLe new 8) s1 = (.done, s2))) ∧
    (∃ (s : State) (p : Packet) (q : Packet) (mm : Bool) (c : Instr) (op : Nat) (r : _) (a : _) (bs : _) (s1 : _) (s2 : _) (sl : _), (p.wf = true) ∧ (q = { p with opcode := op }) ∧ ((c, op) ∈ [(Instr.atomicAdd p mm, opADD), (.atomicMin p mm, opMIN), (.atomicMax p mm, opMAX), (.atomicSwap p mm, opSWAP), (.atomicCas p mm, opCAS), (.frameAdd p mm, opFRAMEADD), (.frameAddF p mm, opFRAMEADDF)]) ∧ (s.accept q = .ok (.working r a)) ∧ (r.coh ≠ 1) ∧ (s.rowRoute q r a (spanOf q) true = .here) ∧ (s.winFind q.src q.saggar q.seq = none) ∧ (q.cmb = false) ∧ (q.rty = false) ∧ (mm = false) ∧ (op = opFRAMEADDF) ∧ (readRange r none a 32 s = (.data bs, s1)) ∧ (combineSlots bs q.payload = some sl) ∧ (writeRegion (s1.region r.id) a sl.slot s1 = (.done, s2))) :=
  ⟨⟨({ wBad with tie := { regions := [(0, { wBadR with kind := 1 })] } } : State), wWr, wWr, false, (.write wWr false : Instr), opWRITE, { wBadR with kind := 1 }, 0, .poison, (writeRegion { wBadR with kind := 1 } 0 (zeros 8) { wBad with tie := { regions := [(0, { wBadR with kind := 1 })] } }).2, by refine ⟨?_, ?_, ?_, ?_, ?_, ?_, ?_, ?_, ?_, ?_, test_wPair (by decide +kernel), ?_⟩ <;> first | decide +kernel | rfl | (unfold canRetire hasBudget; decide +kernel) | (unfold hasBudget; decide +kernel) | simp⟩,
  ⟨({ wUp with flm := { st := 4 }, tie := { regions := [(0, wReg)] } } : State), wWr, wWr, false, (.write wWr false : Instr), opWRITE, wReg, 0, .retry 14, (writeRegion wReg 0 (zeros 8) { wUp with flm := { st := 4 }, tie := { regions := [(0, wReg)] } }).2, 14, by refine ⟨?_, ?_, ?_, ?_, ?_, ?_, ?_, ?_, ?_, ?_, ?_, ?_⟩ <;> first | decide +kernel | rfl | (unfold canRetire hasBudget; decide +kernel) | (unfold hasBudget; decide +kernel) | simp⟩,
  ⟨wColdS, wWr, wWr, false, (.write wWr false : Instr), opWRITE, wColdR, 0, .waits, (writeRegion wColdR 0 (zeros 8) wColdS).2, by refine ⟨?_, ?_, ?_, ?_, ?_, ?_, ?_, ?_, ?_, ?_, test_wPair (by decide +kernel), ?_⟩ <;> first | decide +kernel | rfl | (unfold canRetire hasBudget; decide +kernel) | (unfold hasBudget; decide +kernel) | simp⟩,
  ⟨(wWin (some (0, 5)) : State), wAt1, wAt1, false, (.atomicAdd wAt1 false : Instr), opADD, wReg, 0, { src := 7, outcome := some (0, 5) }, 5, by refine ⟨?_, ?_, ?_, ?_, ?_, ?_, ?_, ?_, ?_⟩ <;> first | decide +kernel | rfl | (unfold canRetire hasBudget; decide +kernel) | (unfold hasBudget; decide +kernel) | simp⟩,
  ⟨(wWin none : State), wAt1, wAt1, false, (.atomicAdd wAt1 false : Instr), opADD, wReg, 0, { src := 7 }, by refine ⟨?_, ?_, ?_, ?_, ?_, ?_, ?_, ?_⟩ <;> first | decide +kernel | rfl | (unfold canRetire hasBudget; decide +kernel) | (unfold hasBudget; decide +kernel) | simp⟩,
  ⟨wRegS, ({ wAt1 with rty := true } : Packet), ({ wAt1 with rty := true } : Packet), false, (.atomicAdd { wAt1 with rty := true } false : Instr), opADD, wReg, 0, by refine ⟨?_, ?_, ?_, ?_, ?_, ?_, ?_, ?_, ?_⟩ <;> first | decide +kernel | rfl | (unfold canRetire hasBudget; decide +kernel) | (unfold hasBudget; decide +kernel) | simp⟩,
  ⟨wRegS, wAt1, wAt1, false, (.atomicAdd wAt1 false : Instr), opADD, wReg, 0, zeros 8, wRead8, (writeRegion (wRead8.region 0) 0 (natLe 0 8) wRead8).2, 0, 0, 0, 0, by refine ⟨?_, ?_, ?_, ?_, ?_, ?_, ?_, ?_, ?_, ?_, ?_, test_wPair (by decide +kernel), ?_, ?_, ?_, ?_, test_wPair (by decide +kernel)⟩ <;> first | decide +kernel | rfl | (unfold canRetire hasBudget; decide +kernel) | (unfold hasBudget; decide +kernel) | simp⟩,
  ⟨wRegS, wAt4, wAt4, false, (.frameAddF wAt4 false : Instr), opFRAMEADDF, wReg, 0, zeros 32, wRead32, (writeRegion (wRead32.region 0) 0 ((combineSlots (zeros 32) (zeros 32)).getD {}).slot wRead32).2, (combineSlots (zeros 32) (zeros 32)).getD {}, by refine ⟨?_, ?_, ?_, ?_, ?_, ?_, ?_, ?_, ?_, ?_, ?_, test_wPair (by decide +kernel), ?_, test_wPair (by decide +kernel)⟩ <;> first | decide +kernel | rfl | (unfold canRetire hasBudget; decide +kernel) | (unfold hasBudget; decide +kernel) | simp⟩⟩

theorem test_wit_RequestEnds_1 :
    (∃ (s : State) (p : Packet) (r : _), (p.wf = true) ∧ (s.fab.outst.find? (fun r => r.pkt.tag = p.tag) = some r) ∧ (answeredByTrain r = true) ∧ (trainPart p = true) ∧ (joinTrain ((addPart p s.fab.frags).filter (sameTrain p)) = none)) ∧
    (∃ (s : State) (p : Packet) (r : _) (w : _), (p.wf = true) ∧ (s.fab.outst.find? (fun r => r.pkt.tag = p.tag) = some r) ∧ (answeredByTrain r = true) ∧ (trainPart p = true) ∧ (joinTrain ((addPart p s.fab.frags).filter (sameTrain p)) = some w)) ∧
    (∃ (s : State) (p : Packet) (c : Instr) (data : _), (p.wf = true) ∧ ((c = .ack p ∧ data = []) ∨ (c = .ackData p ∧ data = p.payload ∧ ∀ r, s.fab.outst.find? (fun r => r.pkt.tag = p.tag) = some r → answeredByTrain r = true → trainPart p = false)) ∧ (s.fab.outst.find? (fun r => r.pkt.tag = p.tag) = none ∨ 13 ≤ p.status)) ∧
    (∃ (s : State) (p : Packet) (c : Instr) (data : _) (r : _), (p.wf = true) ∧ ((c = .ack p ∧ data = []) ∨ (c = .ackData p ∧ data = p.payload ∧ ∀ r, s.fab.outst.find? (fun r => r.pkt.tag = p.tag) = some r → answeredByTrain r = true → trainPart p = false)) ∧ (s.fab.outst.find? (fun r => r.pkt.tag = p.tag) = some r) ∧ (p.status < 13) ∧ (p.status = Status.nackRetry.code) ∧ (r.passesRetry = false) ∧ (r.nacks < 16)) ∧
    (∃ (s : State) (p : Packet) (c : Instr) (data : _) (r : _), (p.wf = true) ∧ ((c = .ack p ∧ data = []) ∨ (c = .ackData p ∧ data = p.payload ∧ ∀ r, s.fab.outst.find? (fun r => r.pkt.tag = p.tag) = some r → answeredByTrain r = true → trainPart p = false)) ∧ (s.fab.outst.find? (fun r => r.pkt.tag = p.tag) = some r) ∧ (p.status < 13) ∧ (p.status = Status.nackStaleEpoch.code ∨ p.status = Status.nackFenced.code) ∧ (endsAtNack r.req = false) ∧ (r.pkt.epoch = s.img.epoch)) ∧
    (∃ (s : State) (p : Packet) (c : Instr) (data : _) (r : _), (p.wf = true) ∧ ((c = .ack p ∧ data = []) ∨ (c = .ackData p ∧ data = p.payload ∧ ∀ r, s.fab.outst.find? (fun r => r.pkt.tag = p.tag) = some r → answeredByTrain r = true → trainPart p = false)) ∧ (s.fab.outst.find? (fun r => r.pkt.tag = p.tag) = some r) ∧ (p.status < 13) ∧ (r.pkt.opcode = opREAD) ∧ (p.status = 0) ∧ (data.length ≠ r.pkt.length ∨ p.trailer ≠ trailerOf r.pkt.offset data) ∧ (r.reread = false)) ∧
    (∃ (s : State) (p : Packet) (c : Instr) (data : _) (r : _) (st : _), (p.wf = true) ∧ ((c = .ack p ∧ data = []) ∨ (c = .ackData p ∧ data = p.payload ∧ ∀ r, s.fab.outst.find? (fun r => r.pkt.tag = p.tag) = some r → answeredByTrain r = true → trainPart p = false)) ∧ (s.fab.outst.find? (fun r => r.pkt.tag = p.tag) = some r) ∧ (p.status < 13) ∧ (s.fab.done = []) ∧ ((st = p.status ∧ (r.pkt.opcode = opREAD → p.status = 0 → data.length = r.pkt.length ∧ p.trailer = trailerOf r.pkt.offset data) ∧ (p.status = Status.nackRetry.code → r.passesRetry = true ∨ 16 ≤ r.nacks) ∧ (p.status = Status.nackStaleEpoch.code ∨ p.status = Status.nackFenced.code → endsAtNack r.req = true)))) ∧
    (∃ (s : State) (p : Packet) (tag : _), (p.wf = true) ∧ (tag < 65536) ∧ (s.fab.done = []) ∧ (s.fab.outst.find? (fun r => r.pkt.tag = tag ∧ r.deadline.isSome) = none)) :=
  ⟨⟨(wOut { pkt := { opcode := opGATHER } } : State), ({ src := 7, offset := 512 } : Packet), { pkt := { opcode := opGATHER } }, by refine ⟨?_, ?_, ?_, ?_, ?_⟩ <;> first | decide +kernel | rfl | (unfold canRetire hasBudget; decide +kernel) | (unfold hasBudget; decide +kernel) | simp⟩,
  ⟨({ wOut { pkt := { opcode := opGATHER } } with fab := { outst := [{ pkt := { opcode := opGATHER } }], frags := [{ src := 7, last := false, payload := zeros 512 }] } } : State), ({ src := 7, offset := 512 } : Packet), { pkt := { opcode := opGATHER } }, { src := 7, payload := zeros 512, last := true }, by refine ⟨?_, ?_, ?_, ?_, ?_⟩ <;> first | decide +kernel | rfl | (unfold canRetire hasBudget; decide +kernel) | (unfold hasBudget; decide +kernel) | simp⟩,
  ⟨wUp, (wAck 15 : Packet), (.ack (wAck 15) : Instr), [], by refine ⟨?_, ?_, ?_⟩ <;> first | decide +kernel | rfl | (unfold canRetire hasBudget; decide +kernel) | (unfold hasBudget; decide +kernel) | simp⟩,
  ⟨(wOut {} : State), (wAck 2 : Packet), (.ack (wAck 2) : Instr), [], {}, by refine ⟨?_, ?_, ?_, ?_, ?_, ?_, ?_⟩ <;> first | decide +kernel | rfl | (unfold canRetire hasBudget; decide +kernel) | (unfold hasBudget; decide +kernel) | simp⟩,
  ⟨(wOut {} : State), (wAck 4 : Packet), (.ack (wAck 4) : Instr), [], {}, by refine ⟨?_, ?_, ?_, ?_, ?_, ?_, ?_⟩ <;> first | decide +kernel | rfl | (unfold canRetire hasBudget; decide +kernel) | (unfold hasBudget; decide +kernel) | simp⟩,
  ⟨(wOut { pkt := wRd } : State), (wAck 0 : Packet), (.ackData (wAck 0) : Instr), [], { pkt := wRd }, by refine ⟨?_, ?_, ?_, ?_, ?_, ?_, ?_, ?_⟩ <;> first | decide +kernel | rfl | (unfold canRetire hasBudget; decide +kernel) | (unfold hasBudget; decide +kernel) | simp⟩,
  ⟨(wOut { pkt := wWr } : State), (wAck 0 : Packet), (.ack (wAck 0) : Instr), [], { pkt := wWr }, 0, by refine ⟨?_, ?_, ?_, ?_, ?_, ?_⟩ <;> first | decide +kernel | rfl | (unfold canRetire hasBudget; decide +kernel) | (unfold hasBudget; decide +kernel) | simp⟩,
  ⟨wUp, (wAck 0 : Packet), 65535, by refine ⟨?_, ?_, ?_, ?_⟩ <;> first | decide +kernel | rfl | (unfold canRetire hasBudget; decide +kernel) | (unfold hasBudget; decide +kernel) | simp⟩⟩

theorem test_wit_RequestEnds_2 :
    (∃ (s : State) (p : Packet) (tag : _) (r : _), (p.wf = true) ∧ (tag < 65536) ∧ (s.fab.done = []) ∧ (s.fab.outst.find? (fun r => r.pkt.tag = tag ∧ r.deadline.isSome) = some r) ∧ (r.timeouts < r.resends)) ∧
    (∃ (s : State) (p : Packet) (tag : _) (r : _), (p.wf = true) ∧ (tag < 65536) ∧ (s.fab.done = []) ∧ (s.fab.outst.find? (fun r => r.pkt.tag = tag ∧ r.deadline.isSome) = some r) ∧ (r.resends ≤ r.timeouts)) ∧
    (∃ (s : State) (p : Packet) (tag : _) (r : _), (p.wf = true) ∧ (tag < 65536) ∧ (s.fab.done = []) ∧ (s.fab.outst.find? (fun r => r.pkt.tag = tag ∧ r.backoff.isSome) = some r)) ∧
    (∃ (s : State) (p : Packet) (tag : _) (r : _) (h : _), (p.wf = true) ∧ (tag < 65536) ∧ (s.fab.done = []) ∧ (s.fab.outst.find? (fun r => r.pkt.tag = tag ∧ r.held.isSome) = some r) ∧ (r.held = some h) ∧ (s.img.epoch ≠ r.pkt.epoch)) ∧
    (∃ (s : State) (p : Packet) (tag : _) (r : _) (h : _), (p.wf = true) ∧ (tag < 65536) ∧ (s.fab.done = []) ∧ (s.fab.outst.find? (fun r => r.pkt.tag = tag ∧ r.held.isSome) = some r) ∧ (r.held = some h) ∧ (s.img.epoch = r.pkt.epoch)) ∧
    (∃ (s : State) (p : Packet) (src : _) (g : _) (seq : _), (p.wf = true) ∧ (src < 65536) ∧ (g < 64) ∧ (seq < 2 ^ 24) ∧ (s.winFind src g seq = none)) ∧
    (∃ (s : State) (p : Packet) (src : _) (g : _) (seq : _) (w : _), (p.wf = true) ∧ (src < 65536) ∧ (g < 64) ∧ (seq < 2 ^ 24) ∧ (s.winFind src g seq = some w)) ∧
    (∃ (s : State) (p : Packet) (who : Who), (p.wf = true) ∧ (who.wf = true) ∧ (s.csrGate who 0x0400004 true = none) ∧ (who ≠ .control)) :=
  ⟨⟨(wOut { deadline := some 5 } : State), (wAck 0 : Packet), 0, { deadline := some 5 }, by refine ⟨?_, ?_, ?_, ?_, ?_⟩ <;> first | decide +kernel | rfl | (unfold canRetire hasBudget; decide +kernel) | (unfold hasBudget; decide +kernel) | simp⟩,
  ⟨(wOut { deadline := some 5, timeouts := 1 } : State), (wAck 0 : Packet), 0, { deadline := some 5, timeouts := 1 }, by refine ⟨?_, ?_, ?_, ?_, ?_⟩ <;> first | decide +kernel | rfl | (unfold canRetire hasBudget; decide +kernel) | (unfold hasBudget; decide +kernel) | simp⟩,
  ⟨(wOut { backoff := some 5 } : State), (wAck 0 : Packet), 0, { backoff := some 5 }, by refine ⟨?_, ?_, ?_, ?_⟩ <;> first | decide +kernel | rfl | (unfold canRetire hasBudget; decide +kernel) | (unfold hasBudget; decide +kernel) | simp⟩,
  ⟨(wOut { held := some (7, 5), pkt := { epoch := 1 } } : State), (wAck 0 : Packet), 0, { held := some (7, 5), pkt := { epoch := 1 } }, (7, 5), by refine ⟨?_, ?_, ?_, ?_, ?_, ?_⟩ <;> first | decide +kernel | rfl | (unfold canRetire hasBudget; decide +kernel) | (unfold hasBudget; decide +kernel) | simp⟩,
  ⟨(wOut { held := some (7, 5) } : State), (wAck 0 : Packet), 0, { held := some (7, 5) }, (7, 5), by refine ⟨?_, ?_, ?_, ?_, ?_, ?_⟩ <;> first | decide +kernel | rfl | (unfold canRetire hasBudget; decide +kernel) | (unfold hasBudget; decide +kernel) | simp⟩,
  ⟨wUp, (wAck 0 : Packet), 65535, 63, 16777215, by refine ⟨?_, ?_, ?_, ?_, ?_⟩ <;> first | decide +kernel | rfl | (unfold canRetire hasBudget; decide +kernel) | (unfold hasBudget; decide +kernel) | simp⟩,
  ⟨(wWin none : State), (wAck 0 : Packet), 7, 0, 0, { src := 7 }, by refine ⟨?_, ?_, ?_, ?_, ?_⟩ <;> first | decide +kernel | rfl | (unfold canRetire hasBudget; decide +kernel) | (unfold hasBudget; decide +kernel) | simp⟩,
  ⟨(wWin none : State), (wAck 0 : Packet), .management, by refine ⟨?_, ?_, ?_, ?_⟩ <;> first | decide +kernel | rfl | (unfold canRetire hasBudget; decide +kernel) | (unfold hasBudget; decide +kernel) | simp⟩⟩

theorem test_wit_RequestEnds_3 :
    (∃ (s : State) (p : Packet) (who : Who), (p.wf = true) ∧ (who.wf = true) ∧ (s.csrGate who 0x0400004 true = none) ∧ (who = .control)) ∧
    (∃ (s : State) (p : Packet) (h : HotRange), (p.wf = true) ∧ (h.region < 2 ^ 32) ∧ (h.home < 65536) ∧ (h.base < 2 ^ 48) ∧ (h.pages < 2 ^ 32) ∧ (h.kind < 4) ∧ (h.saggar < 64) ∧ (s.fab.hot.any (fun x => x.region = h.region) = true)) ∧
    (∃ (s : State) (p : Packet) (h : HotRange), (p.wf = true) ∧ (h.region < 2 ^ 32) ∧ (h.home < 65536) ∧ (h.base < 2 ^ 48) ∧ (h.pages < 2 ^ 32) ∧ (h.kind < 4) ∧ (h.saggar < 64) ∧ (s.fab.hot.any (fun x => x.region = h.region) = false) ∧ (s.fab.hot.length < 1024)) ∧
    (∃ (s : State) (p : Packet) (q : _) (st : _) (h : _), (p.wf = true) ∧ (q = { p with opcode := opRPT }) ∧ (s.rptRefusal q = some (st, h))) ∧
    (∃ (s : State) (p : Packet) (q : _) (e : _) (t : _), (p.wf = true) ∧ (q = { p with opcode := opRPT }) ∧ (s.rptRefusal q = none) ∧ (callProc q < 0xFF0) ∧ (e = s.rptEntryOf q.saggar (callProc q)) ∧ (t = s.servingTrimmer q.saggar e) ∧ (64 ≤ (s.trmOf t).rptq.length)) ∧
    (∃ (s : State) (p : Packet) (q : _) (e : _) (t : _), (p.wf = true) ∧ (q = { p with opcode := opRPT }) ∧ (s.rptRefusal q = none) ∧ (callProc q < 0xFF0) ∧ (e = s.rptEntryOf q.saggar (callProc q)) ∧ (t = s.servingTrimmer q.saggar e) ∧ ((s.trmOf t).rptq.length < 64)) ∧
    (∃ (s : State) (p : Packet) (q : _) (c : _) (t : _), (p.wf = true) ∧ (q = { p with opcode := opRPT }) ∧ (s.rptRefusal q = none) ∧ ((callProc q, c) ∈ [(0xFF0, Instr.regionCreate q), (0xFF1, .regionDelete q), (0xFF2, .regionSeal q), (0xFF3, .regionInfo q), (0xFF4, .codecEncode q), (0xFF5, .codecDecode q), (0xFF6, .codecBind q), (0xFF7, .codecUnbind q), (0xFF8, .collOpen q), (0xFF9, .collCancel q), (0xFFA, .collInfo q), (0xFFB, .gatherMigrate q), (0xFFC, .sieveInsert q), (0xFFD, .sieveDelete q), (0xFFE, .sieveMerge q)]) ∧ (exec c s = .next t)) :=
  ⟨⟨(wWin none : State), (wAck 0 : Packet), .control, by refine ⟨?_, ?_, ?_, ?_⟩ <;> first | decide +kernel | rfl | (unfold canRetire hasBudget; decide +kernel) | (unfold hasBudget; decide +kernel) | simp⟩,
  ⟨({ wUp with fab := { hot := [{}] } } : State), (wAck 0 : Packet), ({ kind := 2, base := 281474976710655 } : HotRange), by refine ⟨?_, ?_, ?_, ?_, ?_, ?_, ?_, ?_⟩ <;> first | decide +kernel | rfl | (unfold canRetire hasBudget; decide +kernel) | (unfold hasBudget; decide +kernel) | simp⟩,
  ⟨wUp, (wAck 0 : Packet), ({ kind := 2, base := 281474976710655 } : HotRange), by refine ⟨?_, ?_, ?_, ?_, ?_, ?_, ?_, ?_, ?_⟩ <;> first | decide +kernel | rfl | (unfold canRetire hasBudget; decide +kernel) | (unfold hasBudget; decide +kernel) | simp⟩,
  ⟨wUp, (wAck 0 : Packet), { wAck 0 with opcode := opRPT }, .denied, 0, by refine ⟨?_, ?_, ?_⟩ <;> first | decide +kernel | rfl | (unfold canRetire hasBudget; decide +kernel) | (unfold hasBudget; decide +kernel) | simp⟩,
  ⟨(wRptS 64 : State), (wCall 0 [] : Packet), wCall 0 [], 1, 0, by refine ⟨?_, ?_, ?_, ?_, ?_, ?_, ?_⟩ <;> first | decide +kernel | rfl | (unfold canRetire hasBudget; decide +kernel) | (unfold hasBudget; decide +kernel) | simp⟩,
  ⟨(wRptS 63 : State), (wCall 0 [] : Packet), wCall 0 [], 1, 0, by refine ⟨?_, ?_, ?_, ?_, ?_, ?_, ?_⟩ <;> first | decide +kernel | rfl | (unfold canRetire hasBudget; decide +kernel) | (unfold hasBudget; decide +kernel) | simp⟩,
  ⟨wUp, (wCall 0xFF3 (zeros 8) : Packet), wCall 0xFF3 (zeros 8), .regionInfo (wCall 0xFF3 (zeros 8)), match exec (.regionInfo (wCall 0xFF3 (zeros 8))) wUp with | .next t => t | _ => wUp, by refine ⟨?_, ?_, ?_, ?_, ?_⟩ <;> first | decide +kernel | rfl | (unfold canRetire hasBudget; decide +kernel) | (unfold hasBudget; decide +kernel) | simp⟩⟩

theorem test_wit_Coherency_1 :
    (∃ (s : State) (p : Packet) (q : Packet) (w : _) (dom : _), (p.wf = true) ∧ (q = { p with opcode := opINVAL }) ∧ (w = le q.payload 0 8) ∧ (dom = bits w 16 16) ∧ ((classOk opINVAL q.cls = false ∨ q.payload.length ≠ 8 ∨ q.offset % 256 ≠ 0 ∨ bits w 0 9 = 0 ∨ 256 < bits w 0 9 ∨ s.domain? dom = none))) ∧
    (∃ (s : State) (p : Packet) (q : Packet) (w : _) (dom : _) (d : _) (port : _), (p.wf = true) ∧ (q = { p with opcode := opINVAL }) ∧ (w = le q.payload 0 8) ∧ (dom = bits w 16 16) ∧ (classOk opINVAL q.cls = true) ∧ (q.payload.length = 8) ∧ (q.offset % 256 = 0) ∧ (bits w 0 9 ≠ 0) ∧ (bits w 0 9 ≤ 256) ∧ (s.domain? dom = some d) ∧ (s.cxlPortOf q.dst = some port) ∧ (d.agents.contains q.dst = true)) ∧
    (∃ (s : State) (p : Packet) (q : Packet) (w : _) (dom : _) (d : _), (p.wf = true) ∧ (q = { p with opcode := opINVAL }) ∧ (w = le q.payload 0 8) ∧ (dom = bits w 16 16) ∧ (classOk opINVAL q.cls = true) ∧ (q.payload.length = 8) ∧ (q.offset % 256 = 0) ∧ (bits w 0 9 ≠ 0) ∧ (bits w 0 9 ≤ 256) ∧ (s.domain? dom = some d) ∧ (s.cxlPortOf q.dst = none) ∧ (q.dst = s.fab.node) ∧ (d.members.contains s.fab.node = false)) ∧
    (∃ (s : State) (p : Packet) (q : Packet) (w : _) (dom : _) (d : _), (p.wf = true) ∧ (q = { p with opcode := opINVAL }) ∧ (w = le q.payload 0 8) ∧ (dom = bits w 16 16) ∧ (classOk opINVAL q.cls = true) ∧ (q.payload.length = 8) ∧ (q.offset % 256 = 0) ∧ (bits w 0 9 ≠ 0) ∧ (bits w 0 9 ≤ 256) ∧ (s.domain? dom = some d) ∧ (s.cxlPortOf q.dst = none) ∧ (q.dst = s.fab.node) ∧ (d.members.contains s.fab.node = true) ∧ (s.agentsHere dom = [])) ∧
    (∃ (s : State) (p : Packet) (q : Packet) (w : _) (dom : _) (d : _) (eps : _), (p.wf = true) ∧ (q = { p with opcode := opINVAL }) ∧ (w = le q.payload 0 8) ∧ (dom = bits w 16 16) ∧ (classOk opINVAL q.cls = true) ∧ (q.payload.length = 8) ∧ (q.offset % 256 = 0) ∧ (bits w 0 9 ≠ 0) ∧ (bits w 0 9 ≤ 256) ∧ (s.domain? dom = some d) ∧ (s.cxlPortOf q.dst = none) ∧ (q.dst = s.fab.node) ∧ (d.members.contains s.fab.node = true) ∧ (eps = (s.agentsHere dom).filter (fun a => (s.cxlPortOf a).isNone)) ∧ (s.agentsHere dom ≠ [])) ∧
    (∃ (p : Packet) (port : _) (home : _) (off : _), (p.wf = true) ∧ (port < 64) ∧ (home < 65536) ∧ (off < 2 ^ 48)) ∧
    (∃ (s : State) (p : Packet) (dom : _) (cause : _), (p.wf = true) ∧ (dom < 65536) ∧ (cause < 8) ∧ (s.arch.cp = .restart)) ∧
    (∃ (s : State) (p : Packet) (dom : _) (cause : _), (p.wf = true) ∧ (dom < 65536) ∧ (cause < 8) ∧ (s.arch.cp ≠ .restart) ∧ (s.domSlot? dom = none)) :=
  ⟨⟨wUp, ({ src := 7 } : Packet), ({ src := 7, opcode := opINVAL } : Packet), 0, 0, by refine ⟨?_, ?_, ?_, ?_, ?_⟩ <;> first | decide +kernel | rfl | (exact Or.inl rfl) | (unfold canRetire hasBudget; decide +kernel) | (unfold hasBudget; decide +kernel) | simp⟩,
  ⟨(wDom [0] [7, 9] {} : State), (wInv 9 : Packet), (wInv 9 : Packet), 0x50001, 5, { id := 5, members := [0], agents := [7, 9] }, 3, by refine ⟨?_, ?_, ?_, ?_, ?_, ?_, ?_, ?_, ?_, ?_, ?_, ?_⟩ <;> first | decide +kernel | rfl | (unfold canRetire hasBudget; decide +kernel) | (unfold hasBudget; decide +kernel) | simp⟩,
  ⟨(wDom [4] [7] {} : State), (wInv 0 : Packet), (wInv 0 : Packet), 0x50001, 5, { id := 5, members := [4], agents := [7] }, by refine ⟨?_, ?_, ?_, ?_, ?_, ?_, ?_, ?_, ?_, ?_, ?_, ?_, ?_⟩ <;> first | decide +kernel | rfl | (unfold canRetire hasBudget; decide +kernel) | (unfold hasBudget; decide +kernel) | simp⟩,
  ⟨(wDom [0] [] {} : State), (wInv 0 : Packet), (wInv 0 : Packet), 0x50001, 5, { id := 5, members := [0], agents := [] }, by refine ⟨?_, ?_, ?_, ?_, ?_, ?_, ?_, ?_, ?_, ?_, ?_, ?_, ?_, ?_⟩ <;> first | decide +kernel | rfl | (unfold canRetire hasBudget; decide +kernel) | (unfold hasBudget; decide +kernel) | simp⟩,
  ⟨(wDom [0] [7, 9] {} : State), (wInv 0 : Packet), (wInv 0 : Packet), 0x50001, 5, { id := 5, members := [0], agents := [7, 9] }, [7], by refine ⟨?_, ?_, ?_, ?_, ?_, ?_, ?_, ?_, ?_, ?_, ?_, ?_, ?_, ?_, ?_⟩ <;> first | decide +kernel | rfl | (unfold canRetire hasBudget; decide +kernel) | (unfold hasBudget; decide +kernel) | simp⟩,
  ⟨(wInv 0 : Packet), 63, 65535, 281474976710655, by refine ⟨?_, ?_, ?_, ?_⟩ <;> first | decide +kernel | rfl | (unfold canRetire hasBudget; decide +kernel) | (unfold hasBudget; decide +kernel) | simp⟩,
  ⟨({ wUp with arch := { cp := .restart } } : State), (wInv 0 : Packet), 65535, 7, by refine ⟨?_, ?_, ?_, ?_⟩ <;> first | decide +kernel | rfl | (unfold canRetire hasBudget; decide +kernel) | (unfold hasBudget; decide +kernel) | simp⟩,
  ⟨wUp, (wInv 0 : Packet), 65535, 7, by refine ⟨?_, ?_, ?_, ?_, ?_⟩ <;> first | decide +kernel | rfl | (unfold canRetire hasBudget; decide +kernel) | (unfold hasBudget; decide +kernel) | simp⟩⟩

theorem test_wit_Coherency_2 :
    (∃ (s : State) (p : Packet) (dom : _) (cause : _) (n : _) (d : _), (p.wf = true) ∧ (dom < 65536) ∧ (cause < 8) ∧ (s.arch.cp ≠ .restart) ∧ (s.domSlot? dom = some (n, d)) ∧ (d.st = 2)) ∧
    (∃ (s : State) (p : Packet) (dom : _) (cause : _) (n : _) (d : _), (p.wf = true) ∧ (dom < 65536) ∧ (cause < 8) ∧ (s.arch.cp ≠ .restart) ∧ (s.domSlot? dom = some (n, d)) ∧ (d.st ≠ 2)) ∧
    (∃ (s : State) (p : Packet) (dom : _) (member : _), (p.wf = true) ∧ (dom < 65536) ∧ (member < 64) ∧ (s.arch.cp = .restart)) ∧
    (∃ (s : State) (p : Packet) (dom : _) (member : _), (p.wf = true) ∧ (dom < 65536) ∧ (member < 64) ∧ (s.arch.cp ≠ .restart) ∧ (s.domSlot? dom = none ∨ s.domain? dom = none)) ∧
    (∃ (s : State) (p : Packet) (dom : _) (member : _) (n : _) (d : _) (r : _), (p.wf = true) ∧ (dom < 65536) ∧ (member < 64) ∧ (s.arch.cp ≠ .restart) ∧ (s.domSlot? dom = some (n, d)) ∧ (s.domain? dom = some r) ∧ (d.st ≠ 2)) ∧
    (∃ (s : State) (p : Packet) (dom : _) (member : _) (n : _) (d : _) (r : _) (cl : _), (p.wf = true) ∧ (dom < 65536) ∧ (member < 64) ∧ (s.arch.cp ≠ .restart) ∧ (s.domSlot? dom = some (n, d)) ∧ (s.domain? dom = some r) ∧ (d.st = 2) ∧ (cl = (if d.cleared.contains member then d.cleared else d.cleared ++ [member]))) ∧
    (∃ (p : Packet) (q : Packet) (c : _) (op : _), (p.wf = true) ∧ ((c, op) ∈ [(Instr.ownOffer p, opOFFER), (.ownAccept p, opACCEPT), (.ownForce p, opFORCE)]) ∧ (q = { p with opcode := op }) ∧ (bits (le q.payload 0 8) 32 4 = 1)) ∧
    (∃ (s : State) (p : Packet) (q : Packet) (c : _) (op : _) (st : _) (h : _), (p.wf = true) ∧ ((c, op) ∈ [(Instr.ownOffer p, opOFFER), (.ownAccept p, opACCEPT), (.ownForce p, opFORCE)]) ∧ (q = { p with opcode := op }) ∧ (bits (le q.payload 0 8) 32 4 ≠ 1) ∧ (s.ownRefusal q = .error (st, h))) :=
  ⟨⟨(wDom [0] [] { st := 2 } : State), (wInv 0 : Packet), 5, 7, 0, { st := 2, domain := 5 }, by refine ⟨?_, ?_, ?_, ?_, ?_, ?_⟩ <;> first | decide +kernel | rfl | (unfold canRetire hasBudget; decide +kernel) | (unfold hasBudget; decide +kernel) | simp⟩,
  ⟨(wDom [0] [] { st := 1 } : State), (wInv 0 : Packet), 5, 7, 0, { st := 1, domain := 5 }, by refine ⟨?_, ?_, ?_, ?_, ?_, ?_⟩ <;> first | decide +kernel | rfl | (unfold canRetire hasBudget; decide +kernel) | (unfold hasBudget; decide +kernel) | simp⟩,
  ⟨({ wUp with arch := { cp := .restart } } : State), (wInv 0 : Packet), 65535, 63, by refine ⟨?_, ?_, ?_, ?_⟩ <;> first | decide +kernel | rfl | (unfold canRetire hasBudget; decide +kernel) | (unfold hasBudget; decide +kernel) | simp⟩,
  ⟨(wDom [0] [] { st := 1 } : State), (wInv 0 : Packet), 65535, 63, by refine ⟨?_, ?_, ?_, ?_, ?_⟩ <;> first | decide +kernel | rfl | (exact Or.inl (by decide +kernel)) | (unfold canRetire hasBudget; decide +kernel) | (unfold hasBudget; decide +kernel) | simp⟩,
  ⟨(wDom [0] [] { st := 1 } : State), (wInv 0 : Packet), 5, 63, 0, { st := 1, domain := 5 }, { id := 5, members := [0], agents := [] }, by refine ⟨?_, ?_, ?_, ?_, ?_, ?_, ?_⟩ <;> first | decide +kernel | rfl | (unfold canRetire hasBudget; decide +kernel) | (unfold hasBudget; decide +kernel) | simp⟩,
  ⟨(wDom [0] [] { st := 2 } : State), (wInv 0 : Packet), 5, 63, 0, { st := 2, domain := 5 }, { id := 5, members := [0], agents := [] }, [63], by refine ⟨?_, ?_, ?_, ?_, ?_, ?_, ?_, ?_⟩ <;> first | decide +kernel | rfl | (unfold canRetire hasBudget; decide +kernel) | (unfold hasBudget; decide +kernel) | simp⟩,
  ⟨(wOwnP opOFFER 1 0 : Packet), (wOwnP opOFFER 1 0 : Packet), .ownOffer (wOwnP opOFFER 1 0), opOFFER, by refine ⟨?_, ?_, ?_, ?_⟩ <;> first | decide +kernel | rfl | (unfold canRetire hasBudget; decide +kernel) | (unfold hasBudget; decide +kernel) | simp⟩,
  ⟨wUp, (wOwnP opOFFER 0 0 : Packet), (wOwnP opOFFER 0 0 : Packet), .ownOffer (wOwnP opOFFER 0 0), opOFFER, .denied, 0, by refine ⟨?_, ?_, ?_, ?_, ?_⟩ <;> first | decide +kernel | rfl | (unfold canRetire hasBudget; decide +kernel) | (unfold hasBudget; decide +kernel) | simp⟩⟩

theorem test_wit_Coherency_3 :
    (∃ (s : State) (p : Packet) (q : Packet) (c : _) (op : _) (r : _) (x : _) (t : _), (p.wf = true) ∧ ((c, op) ∈ [(Instr.ownOffer p, opOFFER), (.ownAccept p, opACCEPT), (.ownForce p, opFORCE)]) ∧ (q = { p with opcode := op }) ∧ (bits (le q.payload 0 8) 32 4 ≠ 1) ∧ (s.ownRefusal q = .ok r) ∧ (afind s.tie.regions r.id = some r) ∧ (x = le q.payload 8 4) ∧ (t = bits (le q.payload 0 8) 48 16) ∧ (op = opOFFER) ∧ (r.inTransfer = true)) ∧
    (∃ (s : State) (p : Packet) (q : Packet) (c : _) (op : _) (r : _) (x : _) (t : _), (p.wf = true) ∧ ((c, op) ∈ [(Instr.ownOffer p, opOFFER), (.ownAccept p, opACCEPT), (.ownForce p, opFORCE)]) ∧ (q = { p with opcode := op }) ∧ (bits (le q.payload 0 8) 32 4 ≠ 1) ∧ (s.ownRefusal q = .ok r) ∧ (afind s.tie.regions r.id = some r) ∧ (x = le q.payload 8 4) ∧ (t = bits (le q.payload 0 8) 48 16) ∧ (op = opOFFER) ∧ (r.inTransfer = false) ∧ (q.src ≠ r.owner)) ∧
    (∃ (s : State) (p : Packet) (q : Packet) (c : _) (op : _) (r : _) (x : _) (t : _), (p.wf = true) ∧ ((c, op) ∈ [(Instr.ownOffer p, opOFFER), (.ownAccept p, opACCEPT), (.ownForce p, opFORCE)]) ∧ (q = { p with opcode := op }) ∧ (bits (le q.payload 0 8) 32 4 ≠ 1) ∧ (s.ownRefusal q = .ok r) ∧ (afind s.tie.regions r.id = some r) ∧ (x = le q.payload 8 4) ∧ (t = bits (le q.payload 0 8) 48 16) ∧ (op = opOFFER) ∧ (r.inTransfer = false) ∧ (q.src = r.owner)) ∧
    (∃ (s : State) (p : Packet) (q : Packet) (c : _) (op : _) (r : _) (x : _) (t : _), (p.wf = true) ∧ ((c, op) ∈ [(Instr.ownOffer p, opOFFER), (.ownAccept p, opACCEPT), (.ownForce p, opFORCE)]) ∧ (q = { p with opcode := op }) ∧ (bits (le q.payload 0 8) 32 4 ≠ 1) ∧ (s.ownRefusal q = .ok r) ∧ (afind s.tie.regions r.id = some r) ∧ (x = le q.payload 8 4) ∧ (t = bits (le q.payload 0 8) 48 16) ∧ (op = opACCEPT) ∧ (r.inTransfer = true) ∧ (q.src = r.target) ∧ (x = r.xfer)) ∧
    (∃ (s : State) (p : Packet) (q : Packet) (c : _) (op : _) (r : _) (x : _) (t : _), (p.wf = true) ∧ ((c, op) ∈ [(Instr.ownOffer p, opOFFER), (.ownAccept p, opACCEPT), (.ownForce p, opFORCE)]) ∧ (q = { p with opcode := op }) ∧ (bits (le q.payload 0 8) 32 4 ≠ 1) ∧ (s.ownRefusal q = .ok r) ∧ (afind s.tie.regions r.id = some r) ∧ (x = le q.payload 8 4) ∧ (t = bits (le q.payload 0 8) 48 16) ∧ (op = opACCEPT) ∧ (¬ (r.inTransfer = true ∧ q.src = r.target ∧ x = r.xfer))) ∧
    (∃ (s : State) (p : Packet) (q : Packet) (c : _) (op : _) (r : _) (x : _) (t : _), (p.wf = true) ∧ ((c, op) ∈ [(Instr.ownOffer p, opOFFER), (.ownAccept p, opACCEPT), (.ownForce p, opFORCE)]) ∧ (q = { p with opcode := op }) ∧ (bits (le q.payload 0 8) 32 4 ≠ 1) ∧ (s.ownRefusal q = .ok r) ∧ (afind s.tie.regions r.id = some r) ∧ (x = le q.payload 8 4) ∧ (t = bits (le q.payload 0 8) 48 16) ∧ (op = opFORCE) ∧ (r.owner = 0xFFFF ∨ ¬ (r.owner ∈ s.members r.comp ∨ r.owner ∈ s.endpoints r.comp) ∨ q.src = s.fab.node)) ∧
    (∃ (s : State) (p : Packet) (q : Packet) (c : _) (op : _) (r : _) (x : _) (t : _), (p.wf = true) ∧ ((c, op) ∈ [(Instr.ownOffer p, opOFFER), (.ownAccept p, opACCEPT), (.ownForce p, opFORCE)]) ∧ (q = { p with opcode := op }) ∧ (bits (le q.payload 0 8) 32 4 ≠ 1) ∧ (s.ownRefusal q = .ok r) ∧ (afind s.tie.regions r.id = some r) ∧ (x = le q.payload 8 4) ∧ (t = bits (le q.payload 0 8) 48 16) ∧ (op = opFORCE) ∧ (¬ (r.owner = 0xFFFF ∨ ¬ (r.owner ∈ s.members r.comp ∨ r.owner ∈ s.endpoints r.comp) ∨ q.src = s.fab.node))) ∧
    (∃ (s : State) (p : Packet) (id : _) (r : _), (p.wf = true) ∧ (id < 2 ^ 32) ∧ (afind s.tie.regions id = some r) ∧ (r.xferDeadline = none)) :=
  ⟨⟨(wOwn { wOwnR with inTransfer := true } : State), (wOwnP opOFFER 0 0 : Packet), (wOwnP opOFFER 0 0 : Packet), .ownOffer (wOwnP opOFFER 0 0), opOFFER, { wOwnR with inTransfer := true }, 0, 0, by refine ⟨?_, ?_, ?_, ?_, ?_, ?_, ?_, ?_, ?_, ?_⟩ <;> first | decide +kernel | rfl | (unfold canRetire hasBudget; decide +kernel) | (unfold hasBudget; decide +kernel) | simp⟩,
  ⟨(wOwn wOwnR : State), (wOwnP opOFFER 0 0 : Packet), (wOwnP opOFFER 0 0 : Packet), .ownOffer (wOwnP opOFFER 0 0), opOFFER, wOwnR, 0, 0, by refine ⟨?_, ?_, ?_, ?_, ?_, ?_, ?_, ?_, ?_, ?_, ?_⟩ <;> first | decide +kernel | rfl | (unfold canRetire hasBudget; decide +kernel) | (unfold hasBudget; decide +kernel) | simp⟩,
  ⟨(wOwn { wOwnR with owner := 7 } : State), (wOwnP opOFFER 0 0 : Packet), (wOwnP opOFFER 0 0 : Packet), .ownOffer (wOwnP opOFFER 0 0), opOFFER, { wOwnR with owner := 7 }, 0, 0, by refine ⟨?_, ?_, ?_, ?_, ?_, ?_, ?_, ?_, ?_, ?_, ?_⟩ <;> first | decide +kernel | rfl | (unfold canRetire hasBudget; decide +kernel) | (unfold hasBudget; decide +kernel) | simp⟩,
  ⟨(wOwn { wOwnR with inTransfer := true, target := 7, xfer := 3 } : State), (wOwnP opACCEPT 0 3 : Packet), (wOwnP opACCEPT 0 3 : Packet), .ownAccept (wOwnP opACCEPT 0 3), opACCEPT, { wOwnR with inTransfer := true, target := 7, xfer := 3 }, 3, 0, by refine ⟨?_, ?_, ?_, ?_, ?_, ?_, ?_, ?_, ?_, ?_, ?_, ?_⟩ <;> first | decide +kernel | rfl | (unfold canRetire hasBudget; decide +kernel) | (unfold hasBudget; decide +kernel) | simp⟩,
  ⟨(wOwn { wOwnR with inTransfer := true, target := 7, xfer := 4 } : State), (wOwnP opACCEPT 0 3 : Packet), (wOwnP opACCEPT 0 3 : Packet), .ownAccept (wOwnP opACCEPT 0 3), opACCEPT, { wOwnR with inTransfer := true, target := 7, xfer := 4 }, 3, 0, by refine ⟨?_, ?_, ?_, ?_, ?_, ?_, ?_, ?_, ?_, ?_⟩ <;> first | decide +kernel | rfl | (unfold canRetire hasBudget; decide +kernel) | (unfold hasBudget; decide +kernel) | simp⟩,
  ⟨(wOwn wOwnR : State), (wOwnP opFORCE 0 0 : Packet), (wOwnP opFORCE 0 0 : Packet), .ownForce (wOwnP opFORCE 0 0), opFORCE, wOwnR, 0, 0, by refine ⟨?_, ?_, ?_, ?_, ?_, ?_, ?_, ?_, ?_, ?_⟩ <;> first | decide +kernel | rfl | (unfold canRetire hasBudget; decide +kernel) | (unfold hasBudget; decide +kernel) | simp⟩,
  ⟨(wOwn { wOwnR with owner := 5 } : State), (wOwnP opFORCE 0 0 : Packet), (wOwnP opFORCE 0 0 : Packet), .ownForce (wOwnP opFORCE 0 0), opFORCE, { wOwnR with owner := 5 }, 0, 0, by refine ⟨?_, ?_, ?_, ?_, ?_, ?_, ?_, ?_, ?_, ?_⟩ <;> first | decide +kernel | rfl | (unfold canRetire hasBudget; decide +kernel) | (unfold hasBudget; decide +kernel) | simp⟩,
  ⟨(wOwn { wOwnR with owner := 5 } : State), (wOwnP opFORCE 0 0 : Packet), 0, { wOwnR with owner := 5 }, by refine ⟨?_, ?_, ?_, ?_⟩ <;> first | decide +kernel | rfl | (unfold canRetire hasBudget; decide +kernel) | (unfold hasBudget; decide +kernel) | simp⟩⟩

theorem test_wit_Coherency_4 :
    (∃ (s : State) (p : Packet) (id : _) (r : _) (d : _), (p.wf = true) ∧ (id < 2 ^ 32) ∧ (afind s.tie.regions id = some r) ∧ (r.xferDeadline = some d)) ∧
    (∃ (s : State) (p : Packet) (who : Who), (p.wf = true) ∧ (who.wf = true) ∧ (s.csrGate who 0x0400040 true = none) ∧ (who ≠ .control)) ∧
    (∃ (s : State) (p : Packet) (who : Who), (p.wf = true) ∧ (who.wf = true) ∧ (s.csrGate who 0x0400040 true = none) ∧ (who = .control)) :=
  ⟨⟨(wOwn { wOwnR with xferDeadline := some 9 } : State), (wOwnP opFORCE 0 0 : Packet), 0, { wOwnR with xferDeadline := some 9 }, 9, by refine ⟨?_, ?_, ?_, ?_⟩ <;> first | decide +kernel | rfl | (unfold canRetire hasBudget; decide +kernel) | (unfold hasBudget; decide +kernel) | simp⟩,
  ⟨(wOwn { wOwnR with xferDeadline := some 9 } : State), (wOwnP opFORCE 0 0 : Packet), .management, by refine ⟨?_, ?_, ?_, ?_⟩ <;> first | decide +kernel | rfl | (unfold canRetire hasBudget; decide +kernel) | (unfold hasBudget; decide +kernel) | simp⟩,
  ⟨(wOwn { wOwnR with xferDeadline := some 9 } : State), (wOwnP opFORCE 0 0 : Packet), .control, by refine ⟨?_, ?_, ?_, ?_⟩ <;> first | decide +kernel | rfl | (unfold canRetire hasBudget; decide +kernel) | (unfold hasBudget; decide +kernel) | simp⟩⟩

theorem test_wit_Switching_1 :
    (∃ (s : State) (p : Packet) (f : LinkFrame) (port : _), (p.wf = true) ∧ (f.wf = true) ∧ (port < 64) ∧ ((s.port port).lst ≠ 4 ∨ s.linked port = false)) ∧
    (∃ (s : State) (p : Packet) (f : LinkFrame) (port : _), (p.wf = true) ∧ (f.wf = true) ∧ (port < 64) ∧ ((s.port port).lst = 4) ∧ (s.linked port = true) ∧ (f.fcrcOk = false ∨ f.fseq ≠ (s.port port).rxSeq) ∧ ((s.port port).replayReq ≠ none)) ∧
    (∃ (s : State) (p : Packet) (f : LinkFrame) (port : _), (p.wf = true) ∧ (f.wf = true) ∧ (port < 64) ∧ ((s.port port).lst = 4) ∧ (s.linked port = true) ∧ (f.fcrcOk = false ∨ f.fseq ≠ (s.port port).rxSeq) ∧ ((s.port port).replayReq = none) ∧ ((s.port port).partialSop = none) ∧ ((s.port port).partialPid = none)) ∧
    (∃ (s : State) (p : Packet) (f : LinkFrame) (port : _), (p.wf = true) ∧ (f.wf = true) ∧ (port < 64) ∧ ((s.port port).lst = 4) ∧ (s.linked port = true) ∧ (f.fcrcOk = true) ∧ (f.fseq = (s.port port).rxSeq) ∧ (f.abort = false) ∧ (f.sop = true) ∧ (f.eop = true) ∧ (p.epoch = s.img.epoch) ∧ ((s.port port).partialPid = none)) ∧
    (∃ (s : State) (p : Packet) (f : LinkFrame), (p.wf = true) ∧ (f.wf = true) ∧ (p ∉ s.fab.tx)) ∧
    (∃ (s : State) (p : Packet) (f : LinkFrame), (p.wf = true) ∧ (f.wf = true) ∧ (p ∈ s.fab.tx) ∧ (hchkOk p = false)) ∧
    (∃ (s : State) (p : Packet) (f : LinkFrame) (fits : _), (p.wf = true) ∧ (f.wf = true) ∧ (p ∈ s.fab.tx) ∧ (hchkOk p = true) ∧ (p.epoch = s.img.epoch) ∧ (s.combinable p = false) ∧ (fits = (p.cls = 2 ∨ p.cls = 6 ∨ (s.reserveOf 64 p.cls p.vc = [] ∧ s.usedCells p.saggar + packetCells p ≤ s.quotaCells p.saggar ∧ packetCells p ≤ s.poolFree))) ∧ (¬ fits)) ∧
    (∃ (s : State) (p : Packet) (f : LinkFrame) (fits : _), (p.wf = true) ∧ (f.wf = true) ∧ (p ∈ s.fab.tx) ∧ (hchkOk p = true) ∧ (p.epoch = s.img.epoch) ∧ (s.combinable p = false) ∧ (fits = (p.cls = 2 ∨ p.cls = 6 ∨ (s.reserveOf 64 p.cls p.vc = [] ∧ s.usedCells p.saggar + packetCells p ≤ s.quotaCells p.saggar ∧ packetCells p ≤ s.poolFree))) ∧ (fits) ∧ (s.route p = none)) :=
  ⟨⟨wUp, ({ src := 7 } : Packet), ({} : LinkFrame), 63, by refine ⟨?_, ?_, ?_, ?_⟩ <;> first | decide +kernel | rfl | (unfold canRetire hasBudget; decide +kernel) | (unfold hasBudget; decide +kernel) | simp⟩,
  ⟨(wFab { lst := 4, replayReq := some 0 } {} {} : State), ({ src := 7 } : Packet), ({ fcrcOk := false } : LinkFrame), 0, by refine ⟨?_, ?_, ?_, ?_, ?_, ?_, ?_⟩ <;> first | decide +kernel | rfl | (unfold canRetire hasBudget; decide +kernel) | (unfold hasBudget; decide +kernel) | simp⟩,
  ⟨(wFab { lst := 4 } {} {} : State), ({ src := 7 } : Packet), ({ fcrcOk := false } : LinkFrame), 0, by refine ⟨?_, ?_, ?_, ?_, ?_, ?_, ?_, ?_, ?_⟩ <;> first | decide +kernel | rfl | (unfold canRetire hasBudget; decide +kernel) | (unfold hasBudget; decide +kernel) | simp⟩,
  ⟨(wFab { lst := 4 } {} {} : State), ({ src := 7 } : Packet), ({} : LinkFrame), 0, by refine ⟨?_, ?_, ?_, ?_, ?_, ?_, ?_, ?_, ?_, ?_, ?_, ?_⟩ <;> first | decide +kernel | rfl | (unfold canRetire hasBudget; decide +kernel) | (unfold hasBudget; decide +kernel) | simp⟩,
  ⟨wUp, ({ src := 7 } : Packet), ({} : LinkFrame), by refine ⟨?_, ?_, ?_⟩ <;> first | decide +kernel | rfl | (unfold canRetire hasBudget; decide +kernel) | (unfold hasBudget; decide +kernel) | simp⟩,
  ⟨({ wUp with fab := { tx := [{ src := 7 }] } } : State), ({ src := 7 } : Packet), ({} : LinkFrame), by refine ⟨?_, ?_, ?_, ?_⟩ <;> first | decide +kernel | rfl | (unfold canRetire hasBudget; decide +kernel) | (unfold hasBudget; decide +kernel) | simp⟩,
  ⟨(wTxS 1 9 : State), (wTx 1 9 : Packet), ({} : LinkFrame), wFits (wTxS 1 9) (wTx 1 9), by refine ⟨?_, ?_, ?_, ?_, ?_, ?_, ?_, ?_⟩ <;> first | decide +kernel | rfl | ((unfold wFits; decide +kernel)) | (unfold canRetire hasBudget; decide +kernel) | (unfold hasBudget; decide +kernel) | simp⟩,
  ⟨(wTxS 6 9 : State), (wTx 6 9 : Packet), ({} : LinkFrame), wFits (wTxS 6 9) (wTx 6 9), by refine ⟨?_, ?_, ?_, ?_, ?_, ?_, ?_, ?_, ?_⟩ <;> first | decide +kernel | rfl | ((unfold wFits; decide +kernel)) | (unfold canRetire hasBudget; decide +kernel) | (unfold hasBudget; decide +kernel) | simp⟩⟩

theorem test_wit_Switching_2 :
    (∃ (s : State) (p : Packet) (f : LinkFrame) (fits : _), (p.wf = true) ∧ (f.wf = true) ∧ (p ∈ s.fab.tx) ∧ (hchkOk p = true) ∧ (p.epoch = s.img.epoch) ∧ (s.combinable p = false) ∧ (fits = (p.cls = 2 ∨ p.cls = 6 ∨ (s.reserveOf 64 p.cls p.vc = [] ∧ s.usedCells p.saggar + packetCells p ≤ s.quotaCells p.saggar ∧ packetCells p ≤ s.poolFree))) ∧ (fits) ∧ (p.dst = s.fab.node) ∧ (p.rsv = 0) ∧ (classOk p.opcode p.cls = true)) ∧
    (∃ (s : State) (p : Packet) (f : LinkFrame) (g : _), (p.wf = true) ∧ (f.wf = true) ∧ (g < 64) ∧ (s.swc.reserve.find? (fun b => b.pkt.saggar = g && (s.reserveOf b.ingress b.pkt.cls b.inVc).head? = some b) = none)) ∧
    (∃ (s : State) (p : Packet) (f : LinkFrame) (g : _) (b : _), (p.wf = true) ∧ (f.wf = true) ∧ (g < 64) ∧ (s.swc.reserve.find? (fun b => b.pkt.saggar = g && (s.reserveOf b.ingress b.pkt.cls b.inVc).head? = some b) = some b) ∧ (s.quotaCells g < s.usedCells g + packetCells b.pkt ∨ s.poolFree < packetCells b.pkt)) ∧
    (∃ (s : State) (p : Packet) (f : LinkFrame) (g : _) (b : _), (p.wf = true) ∧ (f.wf = true) ∧ (g < 64) ∧ (s.swc.reserve.find? (fun b => b.pkt.saggar = g && (s.reserveOf b.ingress b.pkt.cls b.inVc).head? = some b) = some b) ∧ (s.usedCells g + packetCells b.pkt ≤ s.quotaCells g) ∧ (packetCells b.pkt ≤ s.poolFree) ∧ (s.reserveOf b.ingress b.pkt.cls b.inVc = [b])) ∧
    (∃ (s : State) (p : Packet) (f : LinkFrame) (port : _), (p.wf = true) ∧ (f.wf = true) ∧ (port < 64) ∧ (ahas s.swc.idleTurn port = true ∨ s.usable port = false)) ∧
    (∃ (s : State) (p : Packet) (f : LinkFrame) (port : _), (p.wf = true) ∧ (f.wf = true) ∧ (port < 64) ∧ (ahas s.swc.idleTurn port = false) ∧ (s.usable port = true) ∧ ((∀ c, s.vcList port c = none))) ∧
    (∃ (s : State) (p : Packet) (f : LinkFrame) (port : _) (cls : _) (v : _) (b : _) (s' : _), (p.wf = true) ∧ (f.wf = true) ∧ (port < 64) ∧ (ahas s.swc.idleTurn port = false) ∧ (s.usable port = true) ∧ ((cls = 0 ∨ (cls = 7 ∧ s.vcList port 0 = none))) ∧ (s.vcList port cls = some v) ∧ (pickList (port, cls, v) none 130 s = (.send b, s')) ∧ (b.pkt.hops = 48)) ∧
    (∃ (s : State) (p : Packet) (f : LinkFrame) (port : _) (cls : _) (v : _) (b : _) (s' : _), (p.wf = true) ∧ (f.wf = true) ∧ (port < 64) ∧ (ahas s.swc.idleTurn port = false) ∧ (s.usable port = true) ∧ ((cls = 0 ∨ (cls = 7 ∧ s.vcList port 0 = none))) ∧ (s.vcList port cls = some v) ∧ (pickList (port, cls, v) none 130 s = (.send b, s')) ∧ (b.pkt.hops ≠ 48) ∧ (s.portRole port = 1)) :=
  ⟨⟨(wTxS 6 0 : State), (wTx 6 0 : Packet), ({} : LinkFrame), wFits (wTxS 6 0) (wTx 6 0), by refine ⟨?_, ?_, ?_, ?_, ?_, ?_, ?_, ?_, ?_, ?_, ?_⟩ <;> first | decide +kernel | rfl | ((unfold wFits; decide +kernel)) | (unfold canRetire hasBudget; decide +kernel) | (unfold hasBudget; decide +kernel) | simp⟩,
  ⟨wUp, (wTx 6 0 : Packet), ({} : LinkFrame), 63, by refine ⟨?_, ?_, ?_, ?_⟩ <;> first | decide +kernel | rfl | (unfold canRetire hasBudget; decide +kernel) | (unfold hasBudget; decide +kernel) | simp⟩,
  ⟨({ wUp with swc := { reserve := [wBuf 1 0] } } : State), (wTx 6 0 : Packet), ({} : LinkFrame), 0, wBuf 1 0, by refine ⟨?_, ?_, ?_, ?_, ?_⟩ <;> first | decide +kernel | rfl | (unfold canRetire hasBudget; decide +kernel) | (unfold hasBudget; decide +kernel) | simp⟩,
  ⟨({ wUp with swc := { reserve := [wBuf 1 0], quota := [(0, 1)] } } : State), (wTx 6 0 : Packet), ({} : LinkFrame), 0, wBuf 1 0, by refine ⟨?_, ?_, ?_, ?_, ?_, ?_, ?_⟩ <;> first | decide +kernel | rfl | (unfold canRetire hasBudget; decide +kernel) | (unfold hasBudget; decide +kernel) | simp⟩,
  ⟨wUp, (wTx 6 0 : Packet), ({} : LinkFrame), 63, by refine ⟨?_, ?_, ?_, ?_⟩ <;> first | decide +kernel | rfl | (unfold canRetire hasBudget; decide +kernel) | (unfold hasBudget; decide +kernel) | simp⟩,
  ⟨(wFab { lst := 4 } {} {} : State), (wTx 6 0 : Packet), ({} : LinkFrame), 0, by refine ⟨?_, ?_, ?_, ?_, ?_, ?_⟩ <;> first | decide +kernel | rfl | ((intro c; rfl)) | (unfold canRetire hasBudget; decide +kernel) | (unfold hasBudget; decide +kernel) | simp⟩,
  ⟨(wWait 0 48 : State), (wTx 6 0 : Packet), ({} : LinkFrame), 0, 0, false, wBuf 0 48, (pickList (0, 0, false) none 130 (wWait 0 48)).2, by refine ⟨?_, ?_, ?_, ?_, ?_, ?_, ?_, ?_, ?_⟩ <;> first | decide +kernel | rfl | (unfold canRetire hasBudget; decide +kernel) | (unfold hasBudget; decide +kernel) | simp⟩,
  ⟨(wWait 0 0 : State), (wTx 6 0 : Packet), ({} : LinkFrame), 0, 0, false, wBuf 0 0, (pickList (0, 0, false) none 130 (wWait 0 0)).2, by refine ⟨?_, ?_, ?_, ?_, ?_, ?_, ?_, ?_, ?_, ?_⟩ <;> first | decide +kernel | rfl | (unfold canRetire hasBudget; decide +kernel) | (unfold hasBudget; decide +kernel) | simp⟩⟩

theorem test_wit_Switching_3 :
    (∃ (s : State) (p : Packet) (f : LinkFrame) (port : _) (c : _) (began : _) (v : _) (d : _) (b : _) (s' : _), (p.wf = true) ∧ (f.wf = true) ∧ (port < 64) ∧ (ahas s.swc.idleTurn port = false) ∧ (s.usable port = true) ∧ (s.vcList port 0 = none) ∧ (s.vcList port 7 = none) ∧ (aget s.swc.classTurn port (1, false) = (c, began)) ∧ (s.vcList port c = some v) ∧ (d = aget s.swc.classDeficit (port, c) 0 + (if began then 0 else s.classQ port c)) ∧ (pickList (port, c, v) (some d) 130 { s with swc := { s.swc with classDeficit := aset s.swc.classDeficit (port, c) d, classTurn := aset s.swc.classTurn port (c, true) } } = (.send b, s')) ∧ (b.pkt.hops ≠ 48) ∧ (s.portRole port = 1)) ∧
    (∃ (s : State) (p : Packet) (f : LinkFrame) (who : Who) (addr : _) (k : _), (p.wf = true) ∧ (f.wf = true) ∧ (who.wf = true) ∧ (addr < 2 ^ 40) ∧ (s.csrGate who addr true = none) ∧ (k < 512) ∧ (addr = 0x0310000 + 0x100 * (k / 8) + 0x10 * (k % 8))) ∧
    (∃ (s : State) (p : Packet) (f : LinkFrame) (who : Who) (addr : _) (k : _), (p.wf = true) ∧ (f.wf = true) ∧ (who.wf = true) ∧ (addr < 2 ^ 40) ∧ (s.csrGate who addr true = none) ∧ (k < 512) ∧ (addr = 0x0310004 + 0x100 * (k / 8) + 0x10 * (k % 8))) ∧
    (∃ (s : State) (p : Packet) (f : LinkFrame) (who : Who) (addr : _) (g : _), (p.wf = true) ∧ (f.wf = true) ∧ (who.wf = true) ∧ (addr < 2 ^ 40) ∧ (s.csrGate who addr true = none) ∧ (g < 64) ∧ (addr = 0x0380004 + 0x40 * g)) ∧
    (∃ (s : State) (p : Packet) (f : LinkFrame), (p.wf = true) ∧ (f.wf = true) ∧ (s.swc.mirror = [] ∨ s.arch.mp ≠ .run ∨ s.nodeParam 0x020F = 0xFFFF)) ∧
    (∃ (s : State) (p : Packet) (f : LinkFrame) (r : _) (rest : _), (p.wf = true) ∧ (f.wf = true) ∧ (s.swc.mirror = r :: rest) ∧ (s.arch.mp = .run) ∧ (s.nodeParam 0x020F ≠ 0xFFFF)) ∧
    (∃ (s : State) (p : Packet) (f : LinkFrame) (pid : _), (p.wf = true) ∧ (f.wf = true) ∧ (pid < 2 ^ 64) ∧ ((∀ b ∈ s.swc.queues.flatMap (fun q => q.2.pkts) ++ s.swc.reserve, b.pid ≠ pid))) ∧
    (∃ (s : State) (p : Packet) (f : LinkFrame) (pid : _) (b : _), (p.wf = true) ∧ (f.wf = true) ∧ (pid < 2 ^ 64) ∧ ((s.swc.queues.flatMap (fun q => q.2.pkts) ++ s.swc.reserve).find? (fun b => b.pid = pid) = some b)) :=
  ⟨⟨(wWait 1 0 : State), (wTx 6 0 : Packet), ({} : LinkFrame), 0, 1, false, false, 640, wBuf 1 0, (pickList (0, 1, false) (some 640) 130 wClass).2, by refine ⟨?_, ?_, ?_, ?_, ?_, ?_, ?_, ?_, ?_, ?_, ?_, ?_, ?_⟩ <;> first | decide +kernel | rfl | (unfold canRetire hasBudget; decide +kernel) | (unfold hasBudget; decide +kernel) | simp⟩,
  ⟨(wWait 1 0 : State), (wTx 6 0 : Packet), ({} : LinkFrame), .management, 0x0313F70, 511, by refine ⟨?_, ?_, ?_, ?_, ?_, ?_, ?_⟩ <;> first | decide +kernel | rfl | (unfold canRetire hasBudget; decide +kernel) | (unfold hasBudget; decide +kernel) | simp⟩,
  ⟨(wWait 1 0 : State), (wTx 6 0 : Packet), ({} : LinkFrame), .management, 0x0313F74, 511, by refine ⟨?_, ?_, ?_, ?_, ?_, ?_, ?_⟩ <;> first | decide +kernel | rfl | (unfold canRetire hasBudget; decide +kernel) | (unfold hasBudget; decide +kernel) | simp⟩,
  ⟨(wWait 1 0 : State), (wTx 6 0 : Packet), ({} : LinkFrame), .management, 0x0380FC4, 63, by refine ⟨?_, ?_, ?_, ?_, ?_, ?_, ?_⟩ <;> first | decide +kernel | rfl | (unfold canRetire hasBudget; decide +kernel) | (unfold hasBudget; decide +kernel) | simp⟩,
  ⟨wUp, (wTx 6 0 : Packet), ({} : LinkFrame), by refine ⟨?_, ?_, ?_⟩ <;> first | decide +kernel | rfl | (exact Or.inl rfl) | (unfold canRetire hasBudget; decide +kernel) | (unfold hasBudget; decide +kernel) | simp⟩,
  ⟨(wFab {} { mirror := [[1]] } {} : State), (wTx 6 0 : Packet), ({} : LinkFrame), [1], [], by refine ⟨?_, ?_, ?_, ?_, ?_⟩ <;> first | decide +kernel | rfl | (unfold canRetire hasBudget; decide +kernel) | (unfold hasBudget; decide +kernel) | simp⟩,
  ⟨wUp, (wTx 6 0 : Packet), ({} : LinkFrame), 18446744073709551615, by refine ⟨?_, ?_, ?_, ?_⟩ <;> first | decide +kernel | rfl | ((intro b h; simp [wUp] at h)) | (unfold canRetire hasBudget; decide +kernel) | (unfold hasBudget; decide +kernel) | simp⟩,
  ⟨({ wUp with swc := { reserve := [wBuf 1 0] } } : State), (wTx 6 0 : Packet), ({} : LinkFrame), 0, wBuf 1 0, by refine ⟨?_, ?_, ?_, ?_⟩ <;> first | decide +kernel | rfl | (unfold canRetire hasBudget; decide +kernel) | (unfold hasBudget; decide +kernel) | simp⟩⟩

theorem test_wit_Switching_4 :
    (∃ (s : State) (p : Packet) (f : LinkFrame), (p.wf = true) ∧ (f.wf = true) ∧ (s.swc.auditing = false)) ∧
    (∃ (s : State) (p : Packet) (f : LinkFrame), (p.wf = true) ∧ (f.wf = true) ∧ (s.swc.auditing = true)) ∧
    (∃ (s : State) (p : Packet) (f : LinkFrame) (port : _) (cls : _) (vc : _) (g : _), (p.wf = true) ∧ (f.wf = true) ∧ (port < 64) ∧ (cls < 8) ∧ (g < 64) ∧ ((∀ x, afind s.swc.idleTurn port = some x → x.2 ≠ (cls, vc, g)))) ∧
    (∃ (s : State) (p : Packet) (f : LinkFrame) (port : _) (cls : _) (vc : _) (g : _) (d : _), (p.wf = true) ∧ (f.wf = true) ∧ (port < 64) ∧ (cls < 8) ∧ (g < 64) ∧ (afind s.swc.idleTurn port = some (d, cls, vc, g))) :=
  ⟨⟨wUp, (wTx 6 0 : Packet), ({} : LinkFrame), by refine ⟨?_, ?_, ?_⟩ <;> first | decide +kernel | rfl | (unfold canRetire hasBudget; decide +kernel) | (unfold hasBudget; decide +kernel) | simp⟩,
  ⟨({ wUp with swc := { auditing := true } } : State), (wTx 6 0 : Packet), ({} : LinkFrame), by refine ⟨?_, ?_, ?_⟩ <;> first | decide +kernel | rfl | (unfold canRetire hasBudget; decide +kernel) | (unfold hasBudget; decide +kernel) | simp⟩,
  ⟨wUp, (wTx 6 0 : Packet), ({} : LinkFrame), 63, 7, true, 63, by refine ⟨?_, ?_, ?_, ?_, ?_, ?_⟩ <;> first | decide +kernel | rfl | ((intro x h; cases h)) | (unfold canRetire hasBudget; decide +kernel) | (unfold hasBudget; decide +kernel) | simp⟩,
  ⟨({ wUp with swc := { idleTurn := [(0, (9, 1, false, 0))] } } : State), (wTx 6 0 : Packet), ({} : LinkFrame), 0, 1, false, 0, 9, by refine ⟨?_, ?_, ?_, ?_, ?_, ?_⟩ <;> first | decide +kernel | rfl | (unfold canRetire hasBudget; decide +kernel) | (unfold hasBudget; decide +kernel) | simp⟩⟩

theorem test_wit_LinkLayer_1 :
    (∃ (s : State) (port : Nat) (x : Port) (down : State → Prop), (port < 64) ∧ (x = s.port port) ∧ (down = (fun u => (u.port port).lst = 1 ∧ (u.port port).retry = [] ∧ u.satVal (satPrtLinkDown port) = satAdd 16 (s.satVal (satPrtLinkDown port)) 1 ∧ (s.linked port = true → ∀ q ∈ u.swc.queues, q.1.1 = port → q.2.pkts = []))) ∧ (¬ (x.lst = 0 ∧ s.linked port = true ∧ x.fence.on = false ∧ x.retryAt = none))) ∧
    (∃ (s : State) (port : Nat) (x : Port) (down : State → Prop), (port < 64) ∧ (x = s.port port) ∧ (down = (fun u => (u.port port).lst = 1 ∧ (u.port port).retry = [] ∧ u.satVal (satPrtLinkDown port) = satAdd 16 (s.satVal (satPrtLinkDown port)) 1 ∧ (s.linked port = true → ∀ q ∈ u.swc.queues, q.1.1 = port → q.2.pkts = []))) ∧ (x.lst = 0) ∧ (s.linked port = true) ∧ (x.fence.on = false) ∧ (x.retryAt = none)) ∧
    (∃ (s : State) (port : Nat) (x : Port) (down : State → Prop) (lanes : _) (good : _), (port < 64) ∧ (x = s.port port) ∧ (down = (fun u => (u.port port).lst = 1 ∧ (u.port port).retry = [] ∧ u.satVal (satPrtLinkDown port) = satAdd 16 (s.satVal (satPrtLinkDown port)) 1 ∧ (s.linked port = true → ∀ q ∈ u.swc.queues, q.1.1 = port → q.2.pkts = []))) ∧ (lanes < 512) ∧ (good = (List.range 9).filter (fun l => bit lanes l)) ∧ (x.lst ≠ 1)) ∧
    (∃ (s : State) (port : Nat) (x : Port) (down : State → Prop) (lanes : _) (good : _), (port < 64) ∧ (x = s.port port) ∧ (down = (fun u => (u.port port).lst = 1 ∧ (u.port port).retry = [] ∧ u.satVal (satPrtLinkDown port) = satAdd 16 (s.satVal (satPrtLinkDown port)) 1 ∧ (s.linked port = true → ∀ q ∈ u.swc.queues, q.1.1 = port → q.2.pkts = []))) ∧ (lanes < 512) ∧ (good = (List.range 9).filter (fun l => bit lanes l)) ∧ (x.lst = 1) ∧ (good.length < 4)) ∧
    (∃ (s : State) (port : Nat) (x : Port) (down : State → Prop) (lanes : _) (good : _), (port < 64) ∧ (x = s.port port) ∧ (down = (fun u => (u.port port).lst = 1 ∧ (u.port port).retry = [] ∧ u.satVal (satPrtLinkDown port) = satAdd 16 (s.satVal (satPrtLinkDown port)) 1 ∧ (s.linked port = true → ∀ q ∈ u.swc.queues, q.1.1 = port → q.2.pkts = []))) ∧ (lanes < 512) ∧ (good = (List.range 9).filter (fun l => bit lanes l)) ∧ (x.lst = 1) ∧ (4 ≤ good.length)) ∧
    (∃ (s : State) (port : Nat) (x : Port) (down : State → Prop), (port < 64) ∧ (x = s.port port) ∧ (down = (fun u => (u.port port).lst = 1 ∧ (u.port port).retry = [] ∧ u.satVal (satPrtLinkDown port) = satAdd 16 (s.satVal (satPrtLinkDown port)) 1 ∧ (s.linked port = true → ∀ q ∈ u.swc.queues, q.1.1 = port → q.2.pkts = []))) ∧ (x.lst ≠ 2)) ∧
    (∃ (s : State) (port : Nat) (x : Port) (down : State → Prop), (port < 64) ∧ (x = s.port port) ∧ (down = (fun u => (u.port port).lst = 1 ∧ (u.port port).retry = [] ∧ u.satVal (satPrtLinkDown port) = satAdd 16 (s.satVal (satPrtLinkDown port)) 1 ∧ (s.linked port = true → ∀ q ∈ u.swc.queues, q.1.1 = port → q.2.pkts = []))) ∧ (x.lst = 2)) ∧
    (∃ (s : State) (port : Nat) (x : Port) (down : State → Prop) (b : ExchBody) (good : _), (port < 64) ∧ (x = s.port port) ∧ (down = (fun u => (u.port port).lst = 1 ∧ (u.port port).retry = [] ∧ u.satVal (satPrtLinkDown port) = satAdd 16 (s.satVal (satPrtLinkDown port)) 1 ∧ (s.linked port = true → ∀ q ∈ u.swc.queues, q.1.1 = port → q.2.pkts = []))) ∧ (b.wf = true) ∧ (good = (b.node = portNeighbour (s.portRec port) ∧ ((s.portRole port = 1 ∧ b.role = 1) ∨ (s.portRole port = 2 ∧ b.role = 3)) ∧ b.lver = 1)) ∧ (x.lst ≠ 3)) :=
  ⟨⟨wUp, 63, ({} : Port), (wDown (wUp) (63) : State → Prop), by refine ⟨?_, ?_, ?_, ?_⟩ <;> first | decide +kernel | rfl | (unfold canRetire hasBudget; decide +kernel) | (unfold hasBudget; decide +kernel) | simp⟩,
  ⟨(wL 0x11 ({}) : State), 0, ({} : Port), (wDown (wL 0x11 ({})) (0) : State → Prop), by refine ⟨?_, ?_, ?_, ?_, ?_, ?_, ?_⟩ <;> first | decide +kernel | rfl | (unfold canRetire hasBudget; decide +kernel) | (unfold hasBudget; decide +kernel) | simp⟩,
  ⟨(wL 0x11 ({}) : State), 0, ({} : Port), (wDown (wL 0x11 ({})) (0) : State → Prop), 511, [0, 1, 2, 3, 4, 5, 6, 7, 8], by refine ⟨?_, ?_, ?_, ?_, ?_, ?_⟩ <;> first | decide +kernel | rfl | (unfold canRetire hasBudget; decide +kernel) | (unfold hasBudget; decide +kernel) | simp⟩,
  ⟨(wL 0x11 ({ lst := 1 }) : State), 0, ({ lst := 1 } : Port), (wDown (wL 0x11 ({ lst := 1 })) (0) : State → Prop), 7, [0, 1, 2], by refine ⟨?_, ?_, ?_, ?_, ?_, ?_, ?_⟩ <;> first | decide +kernel | rfl | (unfold canRetire hasBudget; decide +kernel) | (unfold hasBudget; decide +kernel) | simp⟩,
  ⟨(wL 0x11 ({ lst := 1 }) : State), 0, ({ lst := 1 } : Port), (wDown (wL 0x11 ({ lst := 1 })) (0) : State → Prop), 0x10F, [0, 1, 2, 3, 8], by refine ⟨?_, ?_, ?_, ?_, ?_, ?_, ?_⟩ <;> first | decide +kernel | rfl | (unfold canRetire hasBudget; decide +kernel) | (unfold hasBudget; decide +kernel) | simp⟩,
  ⟨(wL 0x11 ({}) : State), 0, ({} : Port), (wDown (wL 0x11 ({})) (0) : State → Prop), by refine ⟨?_, ?_, ?_, ?_⟩ <;> first | decide +kernel | rfl | (unfold canRetire hasBudget; decide +kernel) | (unfold hasBudget; decide +kernel) | simp⟩,
  ⟨(wL 0x11 ({ lst := 2 }) : State), 0, ({ lst := 2 } : Port), (wDown (wL 0x11 ({ lst := 2 })) (0) : State → Prop), by refine ⟨?_, ?_, ?_, ?_⟩ <;> first | decide +kernel | rfl | (unfold canRetire hasBudget; decide +kernel) | (unfold hasBudget; decide +kernel) | simp⟩,
  ⟨(wL 0x11 ({}) : State), 0, ({} : Port), (wDown (wL 0x11 ({})) (0) : State → Prop), ({ node := 65535 } : ExchBody), wGood (wL 0x11 ({})) (0) ({ node := 65535 }), by refine ⟨?_, ?_, ?_, ?_, ?_, ?_⟩ <;> first | decide +kernel | rfl | ((unfold wGood; decide +kernel)) | (unfold canRetire hasBudget; decide +kernel) | (unfold hasBudget; decide +kernel) | simp⟩⟩

theorem test_wit_LinkLayer_2 :
    (∃ (s : State) (port : Nat) (x : Port) (down : State → Prop) (b : ExchBody) (good : _), (port < 64) ∧ (x = s.port port) ∧ (down = (fun u => (u.port port).lst = 1 ∧ (u.port port).retry = [] ∧ u.satVal (satPrtLinkDown port) = satAdd 16 (s.satVal (satPrtLinkDown port)) 1 ∧ (s.linked port = true → ∀ q ∈ u.swc.queues, q.1.1 = port → q.2.pkts = []))) ∧ (b.wf = true) ∧ (good = (b.node = portNeighbour (s.portRec port) ∧ ((s.portRole port = 1 ∧ b.role = 1) ∨ (s.portRole port = 2 ∧ b.role = 3)) ∧ b.lver = 1)) ∧ (x.lst = 3) ∧ (good)) ∧
    (∃ (s : State) (port : Nat) (x : Port) (down : State → Prop) (b : ExchBody) (good : _), (port < 64) ∧ (x = s.port port) ∧ (down = (fun u => (u.port port).lst = 1 ∧ (u.port port).retry = [] ∧ u.satVal (satPrtLinkDown port) = satAdd 16 (s.satVal (satPrtLinkDown port)) 1 ∧ (s.linked port = true → ∀ q ∈ u.swc.queues, q.1.1 = port → q.2.pkts = []))) ∧ (b.wf = true) ∧ (good = (b.node = portNeighbour (s.portRec port) ∧ ((s.portRole port = 1 ∧ b.role = 1) ∨ (s.portRole port = 2 ∧ b.role = 3)) ∧ b.lver = 1)) ∧ (x.lst = 3) ∧ (¬ good)) ∧
    (∃ (s : State) (port : Nat) (x : Port) (down : State → Prop), (port < 64) ∧ (x = s.port port) ∧ (down = (fun u => (u.port port).lst = 1 ∧ (u.port port).retry = [] ∧ u.satVal (satPrtLinkDown port) = satAdd 16 (s.satVal (satPrtLinkDown port)) 1 ∧ (s.linked port = true → ∀ q ∈ u.swc.queues, q.1.1 = port → q.2.pkts = []))) ∧ (x.deadline = none ∨ x.lst = 0 ∨ 4 ≤ x.lst)) ∧
    (∃ (s : State) (port : Nat) (x : Port) (down : State → Prop) (d : _), (port < 64) ∧ (x = s.port port) ∧ (down = (fun u => (u.port port).lst = 1 ∧ (u.port port).retry = [] ∧ u.satVal (satPrtLinkDown port) = satAdd 16 (s.satVal (satPrtLinkDown port)) 1 ∧ (s.linked port = true → ∀ q ∈ u.swc.queues, q.1.1 = port → q.2.pkts = []))) ∧ (x.deadline = some d) ∧ (1 ≤ x.lst) ∧ (x.lst ≤ 3)) ∧
    (∃ (s : State) (port : Nat) (x : Port) (down : State → Prop), (port < 64) ∧ (x = s.port port) ∧ (down = (fun u => (u.port port).lst = 1 ∧ (u.port port).retry = [] ∧ u.satVal (satPrtLinkDown port) = satAdd 16 (s.satVal (satPrtLinkDown port)) 1 ∧ (s.linked port = true → ∀ q ∈ u.swc.queues, q.1.1 = port → q.2.pkts = []))) ∧ (x.retryAt = none)) ∧
    (∃ (s : State) (port : Nat) (x : Port) (down : State → Prop) (d : _), (port < 64) ∧ (x = s.port port) ∧ (down = (fun u => (u.port port).lst = 1 ∧ (u.port port).retry = [] ∧ u.satVal (satPrtLinkDown port) = satAdd 16 (s.satVal (satPrtLinkDown port)) 1 ∧ (s.linked port = true → ∀ q ∈ u.swc.queues, q.1.1 = port → q.2.pkts = []))) ∧ (x.retryAt = some d) ∧ (x.fence.on = false) ∧ (s.linked port = true)) ∧
    (∃ (s : State) (port : Nat) (x : Port) (down : State → Prop) (d : _), (port < 64) ∧ (x = s.port port) ∧ (down = (fun u => (u.port port).lst = 1 ∧ (u.port port).retry = [] ∧ u.satVal (satPrtLinkDown port) = satAdd 16 (s.satVal (satPrtLinkDown port)) 1 ∧ (s.linked port = true → ∀ q ∈ u.swc.queues, q.1.1 = port → q.2.pkts = []))) ∧ (x.retryAt = some d) ∧ (x.fence.on = true ∨ s.linked port = false)) ∧
    (∃ (s : State) (port : Nat) (x : Port) (down : State → Prop) (f : LinkFrame), (port < 64) ∧ (x = s.port port) ∧ (down = (fun u => (u.port port).lst = 1 ∧ (u.port port).retry = [] ∧ u.satVal (satPrtLinkDown port) = satAdd 16 (s.satVal (satPrtLinkDown port)) 1 ∧ (s.linked port = true → ∀ q ∈ u.swc.queues, q.1.1 = port → q.2.pkts = []))) ∧ (f.wf = true) ∧ (x.lst ≠ 4)) :=
  ⟨⟨(wL 0x11 ({ lst := 3 }) : State), 0, ({ lst := 3 } : Port), (wDown (wL 0x11 ({ lst := 3 })) (0) : State → Prop), ({ node := 5 } : ExchBody), wGood (wL 0x11 ({ lst := 3 })) (0) ({ node := 5 }), by refine ⟨?_, ?_, ?_, ?_, ?_, ?_, ?_⟩ <;> first | decide +kernel | rfl | ((unfold wGood; decide +kernel)) | (unfold canRetire hasBudget; decide +kernel) | (unfold hasBudget; decide +kernel) | simp⟩,
  ⟨(wL 0x11 ({ lst := 3 }) : State), 0, ({ lst := 3 } : Port), (wDown (wL 0x11 ({ lst := 3 })) (0) : State → Prop), ({ node := 6 } : ExchBody), wGood (wL 0x11 ({ lst := 3 })) (0) ({ node := 6 }), by refine ⟨?_, ?_, ?_, ?_, ?_, ?_, ?_⟩ <;> first | decide +kernel | rfl | ((unfold wGood; decide +kernel)) | (unfold canRetire hasBudget; decide +kernel) | (unfold hasBudget; decide +kernel) | simp⟩,
  ⟨(wL 0x11 ({ lst := 4 }) : State), 0, ({ lst := 4 } : Port), (wDown (wL 0x11 ({ lst := 4 })) (0) : State → Prop), by refine ⟨?_, ?_, ?_, ?_⟩ <;> first | decide +kernel | rfl | (unfold canRetire hasBudget; decide +kernel) | (unfold hasBudget; decide +kernel) | simp⟩,
  ⟨(wL 0x11 ({ lst := 3, deadline := some 9 }) : State), 0, ({ lst := 3, deadline := some 9 } : Port), (wDown (wL 0x11 ({ lst := 3, deadline := some 9 })) (0) : State → Prop), 9, by refine ⟨?_, ?_, ?_, ?_, ?_, ?_⟩ <;> first | decide +kernel | rfl | (unfold canRetire hasBudget; decide +kernel) | (unfold hasBudget; decide +kernel) | simp⟩,
  ⟨(wL 0x11 ({}) : State), 0, ({} : Port), (wDown (wL 0x11 ({})) (0) : State → Prop), by refine ⟨?_, ?_, ?_, ?_⟩ <;> first | decide +kernel | rfl | (unfold canRetire hasBudget; decide +kernel) | (unfold hasBudget; decide +kernel) | simp⟩,
  ⟨(wL 0x11 ({ retryAt := some 9 }) : State), 0, ({ retryAt := some 9 } : Port), (wDown (wL 0x11 ({ retryAt := some 9 })) (0) : State → Prop), 9, by refine ⟨?_, ?_, ?_, ?_, ?_, ?_⟩ <;> first | decide +kernel | rfl | (unfold canRetire hasBudget; decide +kernel) | (unfold hasBudget; decide +kernel) | simp⟩,
  ⟨(wL 0x11 ({ retryAt := some 9, fence := { on := true, cause := 1 } }) : State), 0, ({ retryAt := some 9, fence := { on := true, cause := 1 } } : Port), (wDown (wL 0x11 ({ retryAt := some 9, fence := { on := true, cause := 1 } })) (0) : State → Prop), 9, by refine ⟨?_, ?_, ?_, ?_, ?_⟩ <;> first | decide +kernel | rfl | (unfold canRetire hasBudget; decide +kernel) | (unfold hasBudget; decide +kernel) | simp⟩,
  ⟨(wL 0x11 ({}) : State), 0, ({} : Port), (wDown (wL 0x11 ({})) (0) : State → Prop), ({} : LinkFrame), by refine ⟨?_, ?_, ?_, ?_, ?_⟩ <;> first | decide +kernel | rfl | (unfold canRetire hasBudget; decide +kernel) | (unfold hasBudget; decide +kernel) | simp⟩⟩

theorem test_wit_LinkLayer_3 :
    (∃ (s : State) (port : Nat) (x : Port) (down : State → Prop) (f : LinkFrame), (port < 64) ∧ (x = s.port port) ∧ (down = (fun u => (u.port port).lst = 1 ∧ (u.port port).retry = [] ∧ u.satVal (satPrtLinkDown port) = satAdd 16 (s.satVal (satPrtLinkDown port)) 1 ∧ (s.linked port = true → ∀ q ∈ u.swc.queues, q.1.1 = port → q.2.pkts = []))) ∧ (f.wf = true) ∧ (x.lst = 4) ∧ (f.fcrcOk = false) ∧ (x.replayReq ≠ none)) ∧
    (∃ (s : State) (port : Nat) (x : Port) (down : State → Prop) (f : LinkFrame) (rt : _) (rp : _) (fs : _), (port < 64) ∧ (x = s.port port) ∧ (down = (fun u => (u.port port).lst = 1 ∧ (u.port port).retry = [] ∧ u.satVal (satPrtLinkDown port) = satAdd 16 (s.satVal (satPrtLinkDown port)) 1 ∧ (s.linked port = true → ∀ q ∈ u.swc.queues, q.1.1 = port → q.2.pkts = []))) ∧ (f.wf = true) ∧ (x.lst = 4) ∧ (f.fcrcOk = true) ∧ (rt = (if f.ackV then x.retry.filter (fun y => !seqLe y.1.fseq f.ack) else x.retry)) ∧ (rp = (if f.ackV then x.replays.filter (fun r => !seqLe r.1 f.ack) else x.replays)) ∧ (fs = rt.dropWhile (fun y => y.1.fseq ≠ f.fseq)) ∧ (f.lop ≠ 6) ∧ (fs ≠ []) ∧ (aget rp f.fseq 0 < 8)) ∧
    (∃ (s : State) (port : Nat) (x : Port) (down : State → Prop) (f : LinkFrame) (rt : _) (rp : _) (fs : _), (port < 64) ∧ (x = s.port port) ∧ (down = (fun u => (u.port port).lst = 1 ∧ (u.port port).retry = [] ∧ u.satVal (satPrtLinkDown port) = satAdd 16 (s.satVal (satPrtLinkDown port)) 1 ∧ (s.linked port = true → ∀ q ∈ u.swc.queues, q.1.1 = port → q.2.pkts = []))) ∧ (f.wf = true) ∧ (x.lst = 4) ∧ (f.fcrcOk = true) ∧ (rt = (if f.ackV then x.retry.filter (fun y => !seqLe y.1.fseq f.ack) else x.retry)) ∧ (rp = (if f.ackV then x.replays.filter (fun r => !seqLe r.1 f.ack) else x.replays)) ∧ (fs = rt.dropWhile (fun y => y.1.fseq ≠ f.fseq)) ∧ (f.lop ≠ 6) ∧ (fs ≠ []) ∧ (8 ≤ aget rp f.fseq 0)) ∧
    (∃ (s : State) (port : Nat) (x : Port) (down : State → Prop), (port < 64) ∧ (x = s.port port) ∧ (down = (fun u => (u.port port).lst = 1 ∧ (u.port port).retry = [] ∧ u.satVal (satPrtLinkDown port) = satAdd 16 (s.satVal (satPrtLinkDown port)) 1 ∧ (s.linked port = true → ∀ q ∈ u.swc.queues, q.1.1 = port → q.2.pkts = []))) ∧ (x.idle = none ∨ x.lst ≠ 4)) ∧
    (∃ (s : State) (port : Nat) (x : Port) (down : State → Prop) (d : _), (port < 64) ∧ (x = s.port port) ∧ (down = (fun u => (u.port port).lst = 1 ∧ (u.port port).retry = [] ∧ u.satVal (satPrtLinkDown port) = satAdd 16 (s.satVal (satPrtLinkDown port)) 1 ∧ (s.linked port = true → ∀ q ∈ u.swc.queues, q.1.1 = port → q.2.pkts = []))) ∧ (x.idle = some d) ∧ (x.lst = 4)) ∧
    (∃ (s : State) (port : Nat) (x : Port) (down : State → Prop), (port < 64) ∧ (x = s.port port) ∧ (down = (fun u => (u.port port).lst = 1 ∧ (u.port port).retry = [] ∧ u.satVal (satPrtLinkDown port) = satAdd 16 (s.satVal (satPrtLinkDown port)) 1 ∧ (s.linked port = true → ∀ q ∈ u.swc.queues, q.1.1 = port → q.2.pkts = []))) ∧ (x.replayReq = none ∨ x.replayDeadline = none)) ∧
    (∃ (s : State) (port : Nat) (x : Port) (down : State → Prop) (n : _) (d : _), (port < 64) ∧ (x = s.port port) ∧ (down = (fun u => (u.port port).lst = 1 ∧ (u.port port).retry = [] ∧ u.satVal (satPrtLinkDown port) = satAdd 16 (s.satVal (satPrtLinkDown port)) 1 ∧ (s.linked port = true → ∀ q ∈ u.swc.queues, q.1.1 = port → q.2.pkts = []))) ∧ (x.replayReq = some n) ∧ (x.replayDeadline = some d)) ∧
    (∃ (s : State) (port : Nat) (x : Port) (down : State → Prop), (port < 64) ∧ (x = s.port port) ∧ (down = (fun u => (u.port port).lst = 1 ∧ (u.port port).retry = [] ∧ u.satVal (satPrtLinkDown port) = satAdd 16 (s.satVal (satPrtLinkDown port)) 1 ∧ (s.linked port = true → ∀ q ∈ u.swc.queues, q.1.1 = port → q.2.pkts = []))) ∧ (x.silence = none)) :=
  ⟨⟨(wL 0x11 ({ lst := 4, replayReq := some 0 }) : State), 0, ({ lst := 4, replayReq := some 0 } : Port), (wDown (wL 0x11 ({ lst := 4, replayReq := some 0 })) (0) : State → Prop), ({ fcrcOk := false } : LinkFrame), by refine ⟨?_, ?_, ?_, ?_, ?_, ?_, ?_⟩ <;> first | decide +kernel | rfl | (unfold canRetire hasBudget; decide +kernel) | (unfold hasBudget; decide +kernel) | simp⟩,
  ⟨(wL 0x11 ({ lst := 4, retry := [({ fseq := 3 }, {})], replays := [(3, 7)] }) : State), 0, ({ lst := 4, retry := [({ fseq := 3 }, {})], replays := [(3, 7)] } : Port), (wDown (wL 0x11 ({ lst := 4, retry := [({ fseq := 3 }, {})], replays := [(3, 7)] })) (0) : State → Prop), ({ fseq := 3 } : LinkFrame), [({ fseq := 3 }, {})], [(3, 7)], [({ fseq := 3 }, {})], by refine ⟨?_, ?_, ?_, ?_, ?_, ?_, ?_, ?_, ?_, ?_, ?_, ?_⟩ <;> first | decide +kernel | rfl | (unfold canRetire hasBudget; decide +kernel) | (unfold hasBudget; decide +kernel) | simp⟩,
  ⟨(wL 0x11 ({ lst := 4, retry := [({ fseq := 3 }, {})], replays := [(3, 8)] }) : State), 0, ({ lst := 4, retry := [({ fseq := 3 }, {})], replays := [(3, 8)] } : Port), (wDown (wL 0x11 ({ lst := 4, retry := [({ fseq := 3 }, {})], replays := [(3, 8)] })) (0) : State → Prop), ({ fseq := 3 } : LinkFrame), [({ fseq := 3 }, {})], [(3, 8)], [({ fseq := 3 }, {})], by refine ⟨?_, ?_, ?_, ?_, ?_, ?_, ?_, ?_, ?_, ?_, ?_, ?_⟩ <;> first | decide +kernel | rfl | (unfold canRetire hasBudget; decide +kernel) | (unfold hasBudget; decide +kernel) | simp⟩,
  ⟨(wL 0x11 ({}) : State), 0, ({} : Port), (wDown (wL 0x11 ({})) (0) : State → Prop), by refine ⟨?_, ?_, ?_, ?_⟩ <;> first | decide +kernel | rfl | (unfold canRetire hasBudget; decide +kernel) | (unfold hasBudget; decide +kernel) | simp⟩,
  ⟨(wL 0x11 ({ lst := 4, idle := some 9 }) : State), 0, ({ lst := 4, idle := some 9 } : Port), (wDown (wL 0x11 ({ lst := 4, idle := some 9 })) (0) : State → Prop), 9, by refine ⟨?_, ?_, ?_, ?_, ?_⟩ <;> first | decide +kernel | rfl | (unfold canRetire hasBudget; decide +kernel) | (unfold hasBudget; decide +kernel) | simp⟩,
  ⟨(wL 0x11 ({}) : State), 0, ({} : Port), (wDown (wL 0x11 ({})) (0) : State → Prop), by refine ⟨?_, ?_, ?_, ?_⟩ <;> first | decide +kernel | rfl | (unfold canRetire hasBudget; decide +kernel) | (unfold hasBudget; decide +kernel) | simp⟩,
  ⟨(wL 0x11 ({ replayReq := some 4095, replayDeadline := some 9 }) : State), 0, ({ replayReq := some 4095, replayDeadline := some 9 } : Port), (wDown (wL 0x11 ({ replayReq := some 4095, replayDeadline := some 9 })) (0) : State → Prop), 4095, 9, by refine ⟨?_, ?_, ?_, ?_, ?_⟩ <;> first | decide +kernel | rfl | (unfold canRetire hasBudget; decide +kernel) | (unfold hasBudget; decide +kernel) | simp⟩,
  ⟨(wL 0x11 ({}) : State), 0, ({} : Port), (wDown (wL 0x11 ({})) (0) : State → Prop), by refine ⟨?_, ?_, ?_, ?_⟩ <;> first | decide +kernel | rfl | (unfold canRetire hasBudget; decide +kernel) | (unfold hasBudget; decide +kernel) | simp⟩⟩

theorem test_wit_LinkLayer_4 :
    (∃ (s : State) (port : Nat) (x : Port) (down : State → Prop) (d : _), (port < 64) ∧ (x = s.port port) ∧ (down = (fun u => (u.port port).lst = 1 ∧ (u.port port).retry = [] ∧ u.satVal (satPrtLinkDown port) = satAdd 16 (s.satVal (satPrtLinkDown port)) 1 ∧ (s.linked port = true → ∀ q ∈ u.swc.queues, q.1.1 = port → q.2.pkts = []))) ∧ (x.silence = some d) ∧ (x.lst ≠ 4)) ∧
    (∃ (s : State) (port : Nat) (x : Port) (down : State → Prop) (d : _), (port < 64) ∧ (x = s.port port) ∧ (down = (fun u => (u.port port).lst = 1 ∧ (u.port port).retry = [] ∧ u.satVal (satPrtLinkDown port) = satAdd 16 (s.satVal (satPrtLinkDown port)) 1 ∧ (s.linked port = true → ∀ q ∈ u.swc.queues, q.1.1 = port → q.2.pkts = []))) ∧ (x.silence = some d) ∧ (x.lst = 4)) ∧
    (∃ (s : State) (port : Nat) (x : Port) (down : State → Prop), (port < 64) ∧ (x = s.port port) ∧ (down = (fun u => (u.port port).lst = 1 ∧ (u.port port).retry = [] ∧ u.satVal (satPrtLinkDown port) = satAdd 16 (s.satVal (satPrtLinkDown port)) 1 ∧ (s.linked port = true → ∀ q ∈ u.swc.queues, q.1.1 = port → q.2.pkts = []))) ∧ (x.digestDeadline = none)) ∧
    (∃ (s : State) (port : Nat) (x : Port) (down : State → Prop) (d : _), (port < 64) ∧ (x = s.port port) ∧ (down = (fun u => (u.port port).lst = 1 ∧ (u.port port).retry = [] ∧ u.satVal (satPrtLinkDown port) = satAdd 16 (s.satVal (satPrtLinkDown port)) 1 ∧ (s.linked port = true → ∀ q ∈ u.swc.queues, q.1.1 = port → q.2.pkts = []))) ∧ (x.digestDeadline = some d)) ∧
    (∃ (s : State) (port : Nat) (x : Port) (down : State → Prop) (lanes : _), (port < 64) ∧ (x = s.port port) ∧ (down = (fun u => (u.port port).lst = 1 ∧ (u.port port).retry = [] ∧ u.satVal (satPrtLinkDown port) = satAdd 16 (s.satVal (satPrtLinkDown port)) 1 ∧ (s.linked port = true → ∀ q ∈ u.swc.queues, q.1.1 = port → q.2.pkts = []))) ∧ (lanes < 512) ∧ (((List.range 9).filter (fun l => bit lanes l)).length < 2 ∨ x.lst ≠ 4)) ∧
    (∃ (s : State) (port : Nat) (x : Port) (down : State → Prop) (lanes : _), (port < 64) ∧ (x = s.port port) ∧ (down = (fun u => (u.port port).lst = 1 ∧ (u.port port).retry = [] ∧ u.satVal (satPrtLinkDown port) = satAdd 16 (s.satVal (satPrtLinkDown port)) 1 ∧ (s.linked port = true → ∀ q ∈ u.swc.queues, q.1.1 = port → q.2.pkts = []))) ∧ (lanes < 512) ∧ (2 ≤ ((List.range 9).filter (fun l => bit lanes l)).length) ∧ (x.lst = 4)) :=
  ⟨⟨(wL 0x11 ({ silence := some 9 }) : State), 0, ({ silence := some 9 } : Port), (wDown (wL 0x11 ({ silence := some 9 })) (0) : State → Prop), 9, by refine ⟨?_, ?_, ?_, ?_, ?_⟩ <;> first | decide +kernel | rfl | (unfold canRetire hasBudget; decide +kernel) | (unfold hasBudget; decide +kernel) | simp⟩,
  ⟨(wL 0x11 ({ lst := 4, silence := some 9 }) : State), 0, ({ lst := 4, silence := some 9 } : Port), (wDown (wL 0x11 ({ lst := 4, silence := some 9 })) (0) : State → Prop), 9, by refine ⟨?_, ?_, ?_, ?_, ?_⟩ <;> first | decide +kernel | rfl | (unfold canRetire hasBudget; decide +kernel) | (unfold hasBudget; decide +kernel) | simp⟩,
  ⟨(wL 0x11 ({}) : State), 0, ({} : Port), (wDown (wL 0x11 ({})) (0) : State → Prop), by refine ⟨?_, ?_, ?_, ?_⟩ <;> first | decide +kernel | rfl | (unfold canRetire hasBudget; decide +kernel) | (unfold hasBudget; decide +kernel) | simp⟩,
  ⟨(wL 0x11 ({ digestDeadline := some 9 }) : State), 0, ({ digestDeadline := some 9 } : Port), (wDown (wL 0x11 ({ digestDeadline := some 9 })) (0) : State → Prop), 9, by refine ⟨?_, ?_, ?_, ?_⟩ <;> first | decide +kernel | rfl | (unfold canRetire hasBudget; decide +kernel) | (unfold hasBudget; decide +kernel) | simp⟩,
  ⟨(wL 0x11 ({ lst := 4 }) : State), 0, ({ lst := 4 } : Port), (wDown (wL 0x11 ({ lst := 4 })) (0) : State → Prop), 1, by refine ⟨?_, ?_, ?_, ?_, ?_⟩ <;> first | decide +kernel | rfl | (unfold canRetire hasBudget; decide +kernel) | (unfold hasBudget; decide +kernel) | simp⟩,
  ⟨(wL 0x11 ({ lst := 4 }) : State), 0, ({ lst := 4 } : Port), (wDown (wL 0x11 ({ lst := 4 })) (0) : State → Prop), 0x101, by refine ⟨?_, ?_, ?_, ?_, ?_, ?_⟩ <;> first | decide +kernel | rfl | (unfold canRetire hasBudget; decide +kernel) | (unfold hasBudget; decide +kernel) | simp⟩⟩

theorem test_wit_LanesAndEdges_1 :
    (∃ (s : State) (port : Nat) (x : Port) (lane : _), (port < 64) ∧ (x = s.port port) ∧ (lane < 9) ∧ (x.lst ≠ 4)) ∧
    (∃ (s : State) (port : Nat) (x : Port) (lane : _) (sp : _), (port < 64) ∧ (x = s.port port) ∧ (lane < 9) ∧ (x.lst = 4) ∧ (sp = (if portSpareOk (s.portRec port) then (Port.freeLanes { x with lost := x.lost.eraseDups ++ (if x.lost.contains lane then [] else [lane]) }) else [])) ∧ (x.map.idxOf? lane = none)) ∧
    (∃ (s : State) (port : Nat) (x : Port) (lane : _) (sp : _) (k : _), (port < 64) ∧ (x = s.port port) ∧ (lane < 9) ∧ (x.lst = 4) ∧ (sp = (if portSpareOk (s.portRec port) then (Port.freeLanes { x with lost := x.lost.eraseDups ++ (if x.lost.contains lane then [] else [lane]) }) else [])) ∧ (x.map.idxOf? lane = some k) ∧ (sp = [])) ∧
    (∃ (s : State) (port : Nat) (x : Port) (lane : _) (sp : _) (k : _) (t : _) (r : _), (port < 64) ∧ (x = s.port port) ∧ (lane < 9) ∧ (x.lst = 4) ∧ (sp = (if portSpareOk (s.portRec port) then (Port.freeLanes { x with lost := x.lost.eraseDups ++ (if x.lost.contains lane then [] else [lane]) }) else [])) ∧ (x.map.idxOf? lane = some k) ∧ (sp = t :: r)) ∧
    (∃ (s : State) (port : Nat) (x : Port) (lane : _) (restore : Bool) (c : _) (t : _), (port < 64) ∧ (x = s.port port) ∧ (lane < 9) ∧ (c = (if restore then Instr.lopReqRestore port lane else .lopReqSwap port lane)) ∧ (t = (if restore then (if ((List.range 9).filter (fun l => !x.txMap.contains l)).contains lane then some lane else none) else ((List.range 9).filter (fun l => !x.txMap.contains l)).getLast?)) ∧ (t = none ∨ x.lst ≠ 4 ∨ lane = 8 ∨ portSpareOk (s.portRec port) = false)) ∧
    (∃ (s : State) (port : Nat) (x : Port) (lane : _) (restore : Bool) (c : _) (t : _) (k : _), (port < 64) ∧ (x = s.port port) ∧ (lane < 9) ∧ (c = (if restore then Instr.lopReqRestore port lane else .lopReqSwap port lane)) ∧ (t = (if restore then (if ((List.range 9).filter (fun l => !x.txMap.contains l)).contains lane then some lane else none) else ((List.range 9).filter (fun l => !x.txMap.contains l)).getLast?)) ∧ (t = some k) ∧ (x.lst = 4) ∧ (lane < 8) ∧ (portSpareOk (s.portRec port) = true)) ∧
    (∃ (s : State) (port : Nat) (x : Port) (lane : _) (n : _), (port < 64) ∧ (x = s.port port) ∧ (lane < 9) ∧ (n < 4096) ∧ (x.rxMove = none)) ∧
    (∃ (s : State) (port : Nat) (x : Port) (lane : _) (n : _) (m : _), (port < 64) ∧ (x = s.port port) ∧ (lane < 9) ∧ (n < 4096) ∧ (x.rxMove = some m) ∧ (m.lane = lane) ∧ (m.stage = 1) ∧ (x.lst = 4)) :=
  ⟨⟨(wL 0x11 ({}) : State), 0, ({} : Port), 8, by refine ⟨?_, ?_, ?_, ?_⟩ <;> first | decide +kernel | rfl | (unfold canRetire hasBudget; decide +kernel) | (unfold hasBudget; decide +kernel) | simp⟩,
  ⟨(wL 0x11 ({ lst := 4 }) : State), 0, ({ lst := 4 } : Port), 8, [], by refine ⟨?_, ?_, ?_, ?_, ?_, ?_⟩ <;> first | decide +kernel | rfl | (unfold canRetire hasBudget; decide +kernel) | (unfold hasBudget; decide +kernel) | simp⟩,
  ⟨(wL 0x11 ({ lst := 4, lost := [8] }) : State), 0, ({ lst := 4, lost := [8] } : Port), 3, [], 3, by refine ⟨?_, ?_, ?_, ?_, ?_, ?_, ?_⟩ <;> first | decide +kernel | rfl | (unfold canRetire hasBudget; decide +kernel) | (unfold hasBudget; decide +kernel) | simp⟩,
  ⟨(wL 0x11 ({ lst := 4 }) : State), 0, ({ lst := 4 } : Port), 3, [8], 3, 8, [], by refine ⟨?_, ?_, ?_, ?_, ?_, ?_, ?_⟩ <;> first | decide +kernel | rfl | (unfold canRetire hasBudget; decide +kernel) | (unfold hasBudget; decide +kernel) | simp⟩,
  ⟨(wL 0x11 ({ lst := 4 }) : State), 0, ({ lst := 4 } : Port), 8, false, .lopReqSwap 0 8, some 8, by refine ⟨?_, ?_, ?_, ?_, ?_, ?_⟩ <;> first | decide +kernel | rfl | (unfold canRetire hasBudget; decide +kernel) | (unfold hasBudget; decide +kernel) | simp⟩,
  ⟨(wL 0x11 ({ lst := 4 }) : State), 0, ({ lst := 4 } : Port), 7, false, .lopReqSwap 0 7, some 8, 8, by refine ⟨?_, ?_, ?_, ?_, ?_, ?_, ?_, ?_, ?_⟩ <;> first | decide +kernel | rfl | (unfold canRetire hasBudget; decide +kernel) | (unfold hasBudget; decide +kernel) | simp⟩,
  ⟨(wL 0x11 ({}) : State), 0, ({} : Port), 7, 4095, by refine ⟨?_, ?_, ?_, ?_, ?_⟩ <;> first | decide +kernel | rfl | (unfold canRetire hasBudget; decide +kernel) | (unfold hasBudget; decide +kernel) | simp⟩,
  ⟨(wL 0x11 ({ lst := 4, rxMove := some ({ lane := 7 }) }) : State), 0, ({ lst := 4, rxMove := some ({ lane := 7 }) } : Port), 7, 4095, { lane := 7 }, by refine ⟨?_, ?_, ?_, ?_, ?_, ?_, ?_, ?_⟩ <;> first | decide +kernel | rfl | (unfold canRetire hasBudget; decide +kernel) | (unfold hasBudget; decide +kernel) | simp⟩⟩

theorem test_wit_LanesAndEdges_2 :
    (∃ (s : State) (port : Nat) (x : Port) (lane : _) (n : _) (m : _) (d : _), (port < 64) ∧ (x = s.port port) ∧ (lane < 9) ∧ (n < 4096) ∧ (x.rxMove = some m) ∧ (m.lane = lane) ∧ (m.stage = 2) ∧ (x.mirrorDeadline = some d)) ∧
    (∃ (s : State) (port : Nat) (x : Port) (lane : _) (n : _) (m : _), (port < 64) ∧ (x = s.port port) ∧ (lane < 9) ∧ (n < 4096) ∧ (x.rxMove = some m) ∧ (m.lane = lane) ∧ (m.stage = 3)) ∧
    (∃ (s : State) (port : Nat) (x : Port) (lane : _) (n : _) (m : _), (port < 64) ∧ (x = s.port port) ∧ (lane < 9) ∧ (n < 4096) ∧ (x.rxMove = some m) ∧ (m.lane = lane) ∧ (m.stage ≠ 3)) ∧
    (∃ (s : State) (port : Nat) (x : Port) (lane : _) (n : _) (m : _), (port < 64) ∧ (x = s.port port) ∧ (lane < 9) ∧ (n < 4096) ∧ (x.txMove = some m) ∧ (m.lane = lane) ∧ (m.stage = 2)) ∧
    (∃ (s : State) (port : Nat) (x : Port) (lane : _) (n : _), (port < 64) ∧ (x = s.port port) ∧ (lane < 9) ∧ (n < 4096) ∧ (x.txMove = none)) ∧
    (∃ (s : State) (port : Nat) (x : Port) (lane : _) (n : _), (port < 64) ∧ (x = s.port port) ∧ (lane < 9) ∧ (n < 4096) ∧ (x.lst ≠ 4 ∨ lane = 8)) ∧
    (∃ (s : State) (port : Nat) (x : Port) (lane : _) (n : _) (k : _) (fs : _), (port < 64) ∧ (x = s.port port) ∧ (lane < 9) ∧ (n < 4096) ∧ (x.lst = 4) ∧ (lane < 8) ∧ (((List.range 9).filter (fun l => !x.txMap.contains l)).getLast? = some k) ∧ (fs = x.retry.dropWhile (fun y => y.1.fseq ≠ n)) ∧ (fs = [] ∨ aget x.replays n 0 < 8)) ∧
    (∃ (s : State) (port : Nat) (x : Port) (visited : State → Prop), (port < 64) ∧ (x = s.port port) ∧ (visited = (fun u => (u.port port).rotActive = true ∧ (u.port port).rotLane = x.rotNext ∧ (u.port port).rotNext = (x.rotNext + 1) % 9 ∧ (u.port port).map = x.map ∧ (u.port port).rotDeadline = some (u.now + sclk (2 ^ s.nodeParam 0x0209)))) ∧ (x.rotDeadline = none ∨ s.mayVisit port = false)) :=
  ⟨⟨(wL 0x11 ({ lst := 4, rxMove := some ({ lane := 7, stage := 2 }), mirrorDeadline := some 9 }) : State), 0, ({ lst := 4, rxMove := some ({ lane := 7, stage := 2 }), mirrorDeadline := some 9 } : Port), 7, 4095, { lane := 7, stage := 2 }, 9, by refine ⟨?_, ?_, ?_, ?_, ?_, ?_, ?_, ?_⟩ <;> first | decide +kernel | rfl | (unfold canRetire hasBudget; decide +kernel) | (unfold hasBudget; decide +kernel) | simp⟩,
  ⟨(wL 0x11 ({ lst := 4, rxMove := some ({ lane := 7, stage := 3 }), mirrorDeadline := some 9 }) : State), 0, ({ lst := 4, rxMove := some ({ lane := 7, stage := 3 }), mirrorDeadline := some 9 } : Port), 7, 4095, { lane := 7, stage := 3 }, by refine ⟨?_, ?_, ?_, ?_, ?_, ?_, ?_⟩ <;> first | decide +kernel | rfl | (unfold canRetire hasBudget; decide +kernel) | (unfold hasBudget; decide +kernel) | simp⟩,
  ⟨(wL 0x11 ({ lst := 4, rxMove := some ({ lane := 7, stage := 2 }), mirrorDeadline := some 9 }) : State), 0, ({ lst := 4, rxMove := some ({ lane := 7, stage := 2 }), mirrorDeadline := some 9 } : Port), 7, 4095, { lane := 7, stage := 2 }, by refine ⟨?_, ?_, ?_, ?_, ?_, ?_, ?_⟩ <;> first | decide +kernel | rfl | (unfold canRetire hasBudget; decide +kernel) | (unfold hasBudget; decide +kernel) | simp⟩,
  ⟨(wL 0x11 ({ lst := 4, txMove := some ({ lane := 7, stage := 2 }) }) : State), 0, ({ lst := 4, txMove := some ({ lane := 7, stage := 2 }) } : Port), 7, 4095, { lane := 7, stage := 2 }, by refine ⟨?_, ?_, ?_, ?_, ?_, ?_, ?_⟩ <;> first | decide +kernel | rfl | (unfold canRetire hasBudget; decide +kernel) | (unfold hasBudget; decide +kernel) | simp⟩,
  ⟨(wL 0x11 ({}) : State), 0, ({} : Port), 7, 4095, by refine ⟨?_, ?_, ?_, ?_, ?_⟩ <;> first | decide +kernel | rfl | (unfold canRetire hasBudget; decide +kernel) | (unfold hasBudget; decide +kernel) | simp⟩,
  ⟨(wL 0x11 ({ lst := 4 }) : State), 0, ({ lst := 4 } : Port), 8, 4095, by refine ⟨?_, ?_, ?_, ?_, ?_⟩ <;> first | decide +kernel | rfl | (unfold canRetire hasBudget; decide +kernel) | (unfold hasBudget; decide +kernel) | simp⟩,
  ⟨(wL 0x11 ({ lst := 4, retry := [({ fseq := 4095 }, {})], replays := [(4095, 7)] }) : State), 0, ({ lst := 4, retry := [({ fseq := 4095 }, {})], replays := [(4095, 7)] } : Port), 7, 4095, 8, [({ fseq := 4095 }, {})], by refine ⟨?_, ?_, ?_, ?_, ?_, ?_, ?_, ?_, ?_⟩ <;> first | decide +kernel | rfl | (unfold canRetire hasBudget; decide +kernel) | (unfold hasBudget; decide +kernel) | simp⟩,
  ⟨(wL 0x11 ({}) : State), 0, ({} : Port), (wVisited (wL 0x11 ({})) (0) ({}) : State → Prop), by refine ⟨?_, ?_, ?_, ?_⟩ <;> first | decide +kernel | rfl | (unfold canRetire hasBudget; decide +kernel) | (unfold hasBudget; decide +kernel) | simp⟩⟩

theorem test_wit_LanesAndEdges_3 :
    (∃ (s : State) (port : Nat) (x : Port) (visited : State → Prop) (d : _), (port < 64) ∧ (x = s.port port) ∧ (visited = (fun u => (u.port port).rotActive = true ∧ (u.port port).rotLane = x.rotNext ∧ (u.port port).rotNext = (x.rotNext + 1) % 9 ∧ (u.port port).map = x.map ∧ (u.port port).rotDeadline = some (u.now + sclk (2 ^ s.nodeParam 0x0209)))) ∧ (x.rotDeadline = some d) ∧ (s.mayVisit port = true)) ∧
    (∃ (s : State) (port : Nat) (x : Port) (visited : State → Prop) (who : Who), (port < 64) ∧ (x = s.port port) ∧ (visited = (fun u => (u.port port).rotActive = true ∧ (u.port port).rotLane = x.rotNext ∧ (u.port port).rotNext = (x.rotNext + 1) % 9 ∧ (u.port port).map = x.map ∧ (u.port port).rotDeadline = some (u.now + sclk (2 ^ s.nodeParam 0x0209)))) ∧ (who.wf = true) ∧ (s.csrGate who (prtCtrl port) true = none) ∧ (s.mayVisit port = false)) ∧
    (∃ (s : State) (port : Nat) (x : Port) (visited : State → Prop) (who : Who), (port < 64) ∧ (x = s.port port) ∧ (visited = (fun u => (u.port port).rotActive = true ∧ (u.port port).rotLane = x.rotNext ∧ (u.port port).rotNext = (x.rotNext + 1) % 9 ∧ (u.port port).map = x.map ∧ (u.port port).rotDeadline = some (u.now + sclk (2 ^ s.nodeParam 0x0209)))) ∧ (who.wf = true) ∧ (s.csrGate who (prtCtrl port) true = none) ∧ (s.mayVisit port = true)) ∧
    (∃ (s : State) (port : Nat) (x : Port) (w : _) (h : _) (l : _), (port < 64) ∧ (x = s.port port) ∧ (w < 1024) ∧ (h < 256) ∧ (l = x.rotLane) ∧ (x.lst ≠ 4 ∨ x.rotActive = false ∨ x.recalDeadline = none ∨ x.rxMove ≠ none)) ∧
    (∃ (s : State) (port : Nat) (x : Port) (w : _) (h : _) (l : _), (port < 64) ∧ (x = s.port port) ∧ (w < 1024) ∧ (h < 256) ∧ (l = x.rotLane) ∧ (x.lst = 4) ∧ (x.rotActive = true) ∧ (x.recalDeadline ≠ none) ∧ (x.rxMove = none)) ∧
    (∃ (s : State) (port : Nat) (x : Port) (who : Who), (port < 64) ∧ (x = s.port port) ∧ (who.wf = true) ∧ (s.csrGate who (prtCtrl port) true = none) ∧ (liftsFence who = true)) ∧
    (∃ (s : State) (port : Nat) (x : Port) (who : Who), (port < 64) ∧ (x = s.port port) ∧ (who.wf = true) ∧ (s.csrGate who (prtCtrl port) true = none) ∧ (liftsFence who = false)) ∧
    (∃ (s : State) (port : Nat) (x : Port) (who : Who), (port < 64) ∧ (x = s.port port) ∧ (who.wf = true) ∧ (s.csrGate who (prtCtrl port) true = none) ∧ (who = .control)) :=
  ⟨⟨(wL 0x11 ({ lst := 4, rotDeadline := some 9 }) : State), 0, ({ lst := 4, rotDeadline := some 9 } : Port), (wVisited (wL 0x11 ({ lst := 4, rotDeadline := some 9 })) (0) ({ lst := 4, rotDeadline := some 9 }) : State → Prop), 9, by refine ⟨?_, ?_, ?_, ?_, ?_⟩ <;> first | decide +kernel | rfl | (unfold canRetire hasBudget; decide +kernel) | (unfold hasBudget; decide +kernel) | simp⟩,
  ⟨(wL 0x11 ({}) : State), 0, ({} : Port), (wVisited (wL 0x11 ({})) (0) ({}) : State → Prop), .management, by refine ⟨?_, ?_, ?_, ?_, ?_, ?_⟩ <;> first | decide +kernel | rfl | (unfold canRetire hasBudget; decide +kernel) | (unfold hasBudget; decide +kernel) | simp⟩,
  ⟨(wL 0x11 ({ lst := 4 }) : State), 0, ({ lst := 4 } : Port), (wVisited (wL 0x11 ({ lst := 4 })) (0) ({ lst := 4 }) : State → Prop), .management, by refine ⟨?_, ?_, ?_, ?_, ?_, ?_⟩ <;> first | decide +kernel | rfl | (unfold canRetire hasBudget; decide +kernel) | (unfold hasBudget; decide +kernel) | simp⟩,
  ⟨(wL 0x11 ({}) : State), 0, ({} : Port), 1023, 255, 0, by refine ⟨?_, ?_, ?_, ?_, ?_, ?_⟩ <;> first | decide +kernel | rfl | (unfold canRetire hasBudget; decide +kernel) | (unfold hasBudget; decide +kernel) | simp⟩,
  ⟨(wL 0x11 ({ lst := 4, rotActive := true, recalDeadline := some 9 }) : State), 0, ({ lst := 4, rotActive := true, recalDeadline := some 9 } : Port), 1023, 255, 0, by refine ⟨?_, ?_, ?_, ?_, ?_, ?_, ?_, ?_, ?_⟩ <;> first | decide +kernel | rfl | (unfold canRetire hasBudget; decide +kernel) | (unfold hasBudget; decide +kernel) | simp⟩,
  ⟨(wL 0x11 ({}) : State), 0, ({} : Port), .management, by refine ⟨?_, ?_, ?_, ?_, ?_⟩ <;> first | decide +kernel | rfl | (unfold canRetire hasBudget; decide +kernel) | (unfold hasBudget; decide +kernel) | simp⟩,
  ⟨(wL 0x11 ({}) : State), 0, ({} : Port), (.operator 1 : Who), by refine ⟨?_, ?_, ?_, ?_, ?_⟩ <;> first | decide +kernel | rfl | (unfold canRetire hasBudget; decide +kernel) | (unfold hasBudget; decide +kernel) | simp⟩,
  ⟨(wL 0x11 ({}) : State), 0, ({} : Port), .control, by refine ⟨?_, ?_, ?_, ?_, ?_⟩ <;> first | decide +kernel | rfl | (unfold canRetire hasBudget; decide +kernel) | (unfold hasBudget; decide +kernel) | simp⟩⟩

theorem test_wit_LanesAndEdges_4 :
    (∃ (s : State) (port : Nat) (x : Port) (who : Who), (port < 64) ∧ (x = s.port port) ∧ (who.wf = true) ∧ (s.csrGate who (prtCtrl port) true = none) ∧ (who ≠ .control)) ∧
    (∃ (s : State) (port : Nat) (x : Port) (ld : _) (dpa : _) (tag : _) (data : List Byte) (c : _) (wr : Bool), (port < 64) ∧ (x = s.port port) ∧ (ld < 16) ∧ (dpa < 2 ^ 48) ∧ (tag < 65536) ∧ (c = (if wr then Instr.memwr port ld dpa tag data else .memrd port ld dpa tag)) ∧ (x.cxlUp = false ∨ x.fence.on = true ∨ s.ldRec? port ld = none)) ∧
    (∃ (s : State) (port : Nat) (x : Port) (ld : _) (dpa : _) (tag : _) (data : List Byte) (c : _) (wr : Bool) (r : _), (port < 64) ∧ (x = s.port port) ∧ (ld < 16) ∧ (dpa < 2 ^ 48) ∧ (tag < 65536) ∧ (c = (if wr then Instr.memwr port ld dpa tag data else .memrd port ld dpa tag)) ∧ (x.cxlUp = true) ∧ (x.fence.on = false) ∧ (s.ldRec? port ld = some r) ∧ (ldTarget r dpa = none)) ∧
    (∃ (s : State) (port : Nat) (x : Port) (ld : _) (dpa : _) (tag : _) (data : List Byte) (c : _) (wr : Bool) (r : _) (node : _) (off : _), (port < 64) ∧ (x = s.port port) ∧ (ld < 16) ∧ (dpa < 2 ^ 48) ∧ (tag < 65536) ∧ (c = (if wr then Instr.memwr port ld dpa tag data else .memrd port ld dpa tag)) ∧ (x.cxlUp = true) ∧ (x.fence.on = false) ∧ (s.ldRec? port ld = some r) ∧ (ldTarget r dpa = some (node, off)) ∧ (s.maySend (.edge port) node r.saggar = true) ∧ (s.grainHeld (.edge port) node off = false) ∧ (x.cxlWait = [])) ∧
    (∃ (s : State) (port : Nat) (x : Port) (ld : _) (dpa : _) (tag : _) (data : List Byte) (c : _) (wr : Bool) (r : _) (node : _) (off : _), (port < 64) ∧ (x = s.port port) ∧ (ld < 16) ∧ (dpa < 2 ^ 48) ∧ (tag < 65536) ∧ (c = (if wr then Instr.memwr port ld dpa tag data else .memrd port ld dpa tag)) ∧ (x.cxlUp = true) ∧ (x.fence.on = false) ∧ (s.ldRec? port ld = some r) ∧ (ldTarget r dpa = some (node, off)) ∧ (s.maySend (.edge port) node r.saggar = false ∨ s.grainHeld (.edge port) node off = true)) ∧
    (∃ (s : State) (port : Nat) (x : Port), (port < 64) ∧ (x = s.port port) ∧ (s.portRole port ≠ 3 ∨ x.cxlUp = false)) ∧
    (∃ (s : State) (port : Nat) (x : Port), (port < 64) ∧ (x = s.port port) ∧ (s.portRole port = 3) ∧ (x.cxlUp = true)) ∧
    (∃ (s : State) (port : Nat) (x : Port), (port < 64) ∧ (x = s.port port) ∧ (s.portRole port ≠ 3) ∧ (x.lst = 4)) :=
  ⟨⟨(wL 0x11 ({}) : State), 0, ({} : Port), .management, by refine ⟨?_, ?_, ?_, ?_, ?_⟩ <;> first | decide +kernel | rfl | (unfold canRetire hasBudget; decide +kernel) | (unfold hasBudget; decide +kernel) | simp⟩,
  ⟨(wL 0x11 ({}) : State), 0, ({} : Port), 15, 281474976710655, 65535, ([] : List Byte), .memwr 0 15 281474976710655 65535 [], true, by refine ⟨?_, ?_, ?_, ?_, ?_, ?_, ?_⟩ <;> first | decide +kernel | rfl | (unfold canRetire hasBudget; decide +kernel) | (unfold hasBudget; decide +kernel) | simp⟩,
  ⟨(wL 3 ({ cxlUp := true }) : State), 0, ({ cxlUp := true } : Port), 2, 1073741824, 65535, ([] : List Byte), .memrd 0 2 1073741824 65535, false, ((wL 3 { cxlUp := true }).ldRec? 0 2).getD { port := 0, ld := 0, saggar := 0, endpoint := 0, windows := [] }, by refine ⟨?_, ?_, ?_, ?_, ?_, ?_, ?_, ?_, ?_, ?_⟩ <;> first | decide +kernel | rfl | (unfold canRetire hasBudget; decide +kernel) | (unfold hasBudget; decide +kernel) | simp⟩,
  ⟨(wL 3 ({ cxlUp := true }) : State), 0, ({ cxlUp := true } : Port), 2, 1073741823, 65535, ([] : List Byte), .memrd 0 2 1073741823 65535, false, ((wL 3 { cxlUp := true }).ldRec? 0 2).getD { port := 0, ld := 0, saggar := 0, endpoint := 0, windows := [] }, 0, 1073741823, by refine ⟨?_, ?_, ?_, ?_, ?_, ?_, ?_, ?_, ?_, ?_, ?_, ?_, ?_⟩ <;> first | decide +kernel | rfl | (unfold canRetire hasBudget; decide +kernel) | (unfold hasBudget; decide +kernel) | simp⟩,
  ⟨({ wL 3 ({ cxlUp := true }) with fab := { node := 0, outst := [{ pkt := { dst := 0, opcode := opWRITE, offset := 1073741820, tag := 7 }, req := .edge 0 }] } } : State), 0, ({ cxlUp := true } : Port), 2, 1073741823, 65535, ([] : List Byte), .memrd 0 2 1073741823 65535, false, ((wL 3 { cxlUp := true }).ldRec? 0 2).getD { port := 0, ld := 0, saggar := 0, endpoint := 0, windows := [] }, 0, 1073741823, by refine ⟨?_, ?_, ?_, ?_, ?_, ?_, ?_, ?_, ?_, ?_, ?_⟩ <;> first | decide +kernel | rfl | (unfold canRetire hasBudget; decide +kernel) | (unfold hasBudget; decide +kernel) | simp⟩,
  ⟨(wL 3 ({}) : State), 0, ({} : Port), by refine ⟨?_, ?_, ?_⟩ <;> first | decide +kernel | rfl | (unfold canRetire hasBudget; decide +kernel) | (unfold hasBudget; decide +kernel) | simp⟩,
  ⟨(wL 3 ({ cxlUp := true }) : State), 0, ({ cxlUp := true } : Port), by refine ⟨?_, ?_, ?_, ?_⟩ <;> first | decide +kernel | rfl | (unfold canRetire hasBudget; decide +kernel) | (unfold hasBudget; decide +kernel) | simp⟩,
  ⟨(wL 0x11 ({ lst := 4 }) : State), 0, ({ lst := 4 } : Port), by refine ⟨?_, ?_, ?_, ?_⟩ <;> first | decide +kernel | rfl | (unfold canRetire hasBudget; decide +kernel) | (unfold hasBudget; decide +kernel) | simp⟩⟩

theorem test_wit_LanesAndEdges_5 :
    (∃ (s : State) (port : Nat) (x : Port), (port < 64) ∧ (x = s.port port) ∧ (s.portRole port ≠ 3) ∧ (x.lst ≠ 4) ∧ (x.lst ≠ 5)) ∧
    (∃ (s : State) (port : Nat) (x : Port) (gtps : _) (width : _), (port < 64) ∧ (x = s.port port) ∧ (gtps < 65) ∧ (width < 17) ∧ (s.portRole port = 3 ∧ 32 ≤ gtps ∧ x.fence.on = false ∧ width ∈ [1, 2, 4, 8])) ∧
    (∃ (s : State) (port : Nat) (x : Port) (gtps : _) (width : _), (port < 64) ∧ (x = s.port port) ∧ (gtps < 65) ∧ (width < 17) ∧ (¬ (s.portRole port = 3 ∧ 32 ≤ gtps ∧ x.fence.on = false ∧ width ∈ [1, 2, 4, 8]))) ∧
    (∃ (s : State) (port : Nat) (x : Port) (r : ModuleReading), (port < 64) ∧ (x = s.port port) ∧ (r.port < 64) ∧ (s.arch.mp ≠ .run ∨ (s.nodeParam 0x020E < r.margin ∧ r.alarm = false))) ∧
    (∃ (s : State) (port : Nat) (x : Port) (r : ModuleReading), (port < 64) ∧ (x = s.port port) ∧ (r.port < 64) ∧ (s.arch.mp = .run) ∧ (s.nodeParam 0x020E < r.margin) ∧ (r.alarm = true)) :=
  ⟨⟨(wL 0x11 ({ lst := 3 }) : State), 0, ({ lst := 3 } : Port), by refine ⟨?_, ?_, ?_, ?_, ?_⟩ <;> first | decide +kernel | rfl | (unfold canRetire hasBudget; decide +kernel) | (unfold hasBudget; decide +kernel) | simp⟩,
  ⟨(wL 3 ({}) : State), 0, ({} : Port), 64, 8, by refine ⟨?_, ?_, ?_, ?_, ?_⟩ <;> first | decide +kernel | rfl | (unfold canRetire hasBudget; decide +kernel) | (unfold hasBudget; decide +kernel) | simp⟩,
  ⟨(wL 3 ({}) : State), 0, ({} : Port), 64, 16, by refine ⟨?_, ?_, ?_, ?_, ?_⟩ <;> first | decide +kernel | rfl | (unfold canRetire hasBudget; decide +kernel) | (unfold hasBudget; decide +kernel) | simp⟩,
  ⟨wUp, 0, ({} : Port), ({ port := 63, margin := 100 } : ModuleReading), by refine ⟨?_, ?_, ?_, ?_⟩ <;> first | decide +kernel | rfl | (unfold canRetire hasBudget; decide +kernel) | (unfold hasBudget; decide +kernel) | simp⟩,
  ⟨wUp, 0, ({} : Port), ({ port := 63, margin := 100, alarm := true } : ModuleReading), by refine ⟨?_, ?_, ?_, ?_, ?_, ?_⟩ <;> first | decide +kernel | rfl | (unfold canRetire hasBudget; decide +kernel) | (unfold hasBudget; decide +kernel) | simp⟩⟩

theorem test_wit_JaesqueLink_1 :
    (∃ (s : State) (down : State → Prop), (down = (fun u => u.jsl.lst = 0 ∧ u.jsl.retry = [] ∧ u.jsl.replayReq = none ∧ (∀ k x, afind u.jsl.sessions k = some x → x.via ≠ none) ∧ u.satVal satJslLinkDown = satAdd 16 (s.satVal satJslLinkDown) 1)) ∧ (¬ (s.jsl.lst = 0 ∧ s.jsl.retryAt = none ∧ s.log.up = true ∧ s.jsl.closing = false))) ∧
    (∃ (s : State) (down : State → Prop), (down = (fun u => u.jsl.lst = 0 ∧ u.jsl.retry = [] ∧ u.jsl.replayReq = none ∧ (∀ k x, afind u.jsl.sessions k = some x → x.via ≠ none) ∧ u.satVal satJslLinkDown = satAdd 16 (s.satVal satJslLinkDown) 1)) ∧ (s.jsl.lst = 0) ∧ (s.jsl.retryAt = none) ∧ (s.log.up = true) ∧ (s.jsl.closing = false)) ∧
    (∃ (s : State) (down : State → Prop), (down = (fun u => u.jsl.lst = 0 ∧ u.jsl.retry = [] ∧ u.jsl.replayReq = none ∧ (∀ k x, afind u.jsl.sessions k = some x → x.via ≠ none) ∧ u.satVal satJslLinkDown = satAdd 16 (s.satVal satJslLinkDown) 1)) ∧ (s.jsl.lst ≠ 1)) ∧
    (∃ (s : State) (down : State → Prop), (down = (fun u => u.jsl.lst = 0 ∧ u.jsl.retry = [] ∧ u.jsl.replayReq = none ∧ (∀ k x, afind u.jsl.sessions k = some x → x.via ≠ none) ∧ u.satVal satJslLinkDown = satAdd 16 (s.satVal satJslLinkDown) 1)) ∧ (s.jsl.lst = 1)) ∧
    (∃ (s : State) (down : State → Prop), (down = (fun u => u.jsl.lst = 0 ∧ u.jsl.retry = [] ∧ u.jsl.replayReq = none ∧ (∀ k x, afind u.jsl.sessions k = some x → x.via ≠ none) ∧ u.satVal satJslLinkDown = satAdd 16 (s.satVal satJslLinkDown) 1)) ∧ (s.jsl.lst ≠ 2)) ∧
    (∃ (s : State) (down : State → Prop), (down = (fun u => u.jsl.lst = 0 ∧ u.jsl.retry = [] ∧ u.jsl.replayReq = none ∧ (∀ k x, afind u.jsl.sessions k = some x → x.via ≠ none) ∧ u.satVal satJslLinkDown = satAdd 16 (s.satVal satJslLinkDown) 1)) ∧ (s.jsl.lst = 2)) ∧
    (∃ (s : State) (down : State → Prop) (b : InitBody), (down = (fun u => u.jsl.lst = 0 ∧ u.jsl.retry = [] ∧ u.jsl.replayReq = none ∧ (∀ k x, afind u.jsl.sessions k = some x → x.via ≠ none) ∧ u.satVal satJslLinkDown = satAdd 16 (s.satVal satJslLinkDown) 1)) ∧ (s.jsl.lst ≠ 3 ∨ b.lver ≠ 1)) ∧
    (∃ (s : State) (down : State → Prop) (b : InitBody), (down = (fun u => u.jsl.lst = 0 ∧ u.jsl.retry = [] ∧ u.jsl.replayReq = none ∧ (∀ k x, afind u.jsl.sessions k = some x → x.via ≠ none) ∧ u.satVal satJslLinkDown = satAdd 16 (s.satVal satJslLinkDown) 1)) ∧ (s.jsl.lst = 3) ∧ (b.lver = 1)) :=
  ⟨⟨(wJ { lst := 1 } : State), (wJDown (wJ { lst := 1 }) : State → Prop), by refine ⟨?_, ?_⟩ <;> first | decide +kernel | rfl | (unfold canRetire hasBudget; decide +kernel) | (unfold hasBudget; decide +kernel) | simp⟩,
  ⟨(wJ {} : State), (wJDown (wJ {}) : State → Prop), by refine ⟨?_, ?_, ?_, ?_, ?_⟩ <;> first | decide +kernel | rfl | (unfold canRetire hasBudget; decide +kernel) | (unfold hasBudget; decide +kernel) | simp⟩,
  ⟨(wJ {} : State), (wJDown (wJ {}) : State → Prop), by refine ⟨?_, ?_⟩ <;> first | decide +kernel | rfl | (unfold canRetire hasBudget; decide +kernel) | (unfold hasBudget; decide +kernel) | simp⟩,
  ⟨(wJ { lst := 1 } : State), (wJDown (wJ { lst := 1 }) : State → Prop), by refine ⟨?_, ?_⟩ <;> first | decide +kernel | rfl | (unfold canRetire hasBudget; decide +kernel) | (unfold hasBudget; decide +kernel) | simp⟩,
  ⟨(wJ {} : State), (wJDown (wJ {}) : State → Prop), by refine ⟨?_, ?_⟩ <;> first | decide +kernel | rfl | (unfold canRetire hasBudget; decide +kernel) | (unfold hasBudget; decide +kernel) | simp⟩,
  ⟨(wJ { lst := 2 } : State), (wJDown (wJ { lst := 2 }) : State → Prop), by refine ⟨?_, ?_⟩ <;> first | decide +kernel | rfl | (unfold canRetire hasBudget; decide +kernel) | (unfold hasBudget; decide +kernel) | simp⟩,
  ⟨(wJ { lst := 3 } : State), (wJDown (wJ { lst := 3 }) : State → Prop), ({ lver := 2 } : InitBody), by refine ⟨?_, ?_⟩ <;> first | decide +kernel | rfl | (unfold canRetire hasBudget; decide +kernel) | (unfold hasBudget; decide +kernel) | simp⟩,
  ⟨(wJ { lst := 3 } : State), (wJDown (wJ { lst := 3 }) : State → Prop), ({} : InitBody), by refine ⟨?_, ?_, ?_⟩ <;> first | decide +kernel | rfl | (unfold canRetire hasBudget; decide +kernel) | (unfold hasBudget; decide +kernel) | simp⟩⟩

theorem test_wit_JaesqueLink_2 :
    (∃ (s : State) (down : State → Prop), (down = (fun u => u.jsl.lst = 0 ∧ u.jsl.retry = [] ∧ u.jsl.replayReq = none ∧ (∀ k x, afind u.jsl.sessions k = some x → x.via ≠ none) ∧ u.satVal satJslLinkDown = satAdd 16 (s.satVal satJslLinkDown) 1)) ∧ (s.jsl.deadline = none)) ∧
    (∃ (s : State) (down : State → Prop) (d : _) (t : _), (down = (fun u => u.jsl.lst = 0 ∧ u.jsl.retry = [] ∧ u.jsl.replayReq = none ∧ (∀ k x, afind u.jsl.sessions k = some x → x.via ≠ none) ∧ u.satVal satJslLinkDown = satAdd 16 (s.satVal satJslLinkDown) 1)) ∧ (s.jsl.deadline = some d) ∧ (t = carry (d + sclk 1) s)) ∧
    (∃ (s : State) (down : State → Prop), (down = (fun u => u.jsl.lst = 0 ∧ u.jsl.retry = [] ∧ u.jsl.replayReq = none ∧ (∀ k x, afind u.jsl.sessions k = some x → x.via ≠ none) ∧ u.satVal satJslLinkDown = satAdd 16 (s.satVal satJslLinkDown) 1)) ∧ (s.jsl.retryAt = none)) ∧
    (∃ (s : State) (down : State → Prop) (d : _) (t : _), (down = (fun u => u.jsl.lst = 0 ∧ u.jsl.retry = [] ∧ u.jsl.replayReq = none ∧ (∀ k x, afind u.jsl.sessions k = some x → x.via ≠ none) ∧ u.satVal satJslLinkDown = satAdd 16 (s.satVal satJslLinkDown) 1)) ∧ (s.jsl.retryAt = some d) ∧ (t = carry d s)) ∧
    (∃ (s : State) (down : State → Prop), (down = (fun u => u.jsl.lst = 0 ∧ u.jsl.retry = [] ∧ u.jsl.replayReq = none ∧ (∀ k x, afind u.jsl.sessions k = some x → x.via ≠ none) ∧ u.satVal satJslLinkDown = satAdd 16 (s.satVal satJslLinkDown) 1)) ∧ (s.jsl.idle = none ∨ s.jsl.lst ≠ 4)) ∧
    (∃ (s : State) (down : State → Prop) (d : _), (down = (fun u => u.jsl.lst = 0 ∧ u.jsl.retry = [] ∧ u.jsl.replayReq = none ∧ (∀ k x, afind u.jsl.sessions k = some x → x.via ≠ none) ∧ u.satVal satJslLinkDown = satAdd 16 (s.satVal satJslLinkDown) 1)) ∧ (s.jsl.idle = some d) ∧ (s.jsl.lst = 4) ∧ (s.jsl.relayWait = [])) ∧
    (∃ (s : State) (down : State → Prop), (down = (fun u => u.jsl.lst = 0 ∧ u.jsl.retry = [] ∧ u.jsl.replayReq = none ∧ (∀ k x, afind u.jsl.sessions k = some x → x.via ≠ none) ∧ u.satVal satJslLinkDown = satAdd 16 (s.satVal satJslLinkDown) 1)) ∧ (s.jsl.replayDeadline = none)) ∧
    (∃ (s : State) (down : State → Prop) (d : _), (down = (fun u => u.jsl.lst = 0 ∧ u.jsl.retry = [] ∧ u.jsl.replayReq = none ∧ (∀ k x, afind u.jsl.sessions k = some x → x.via ≠ none) ∧ u.satVal satJslLinkDown = satAdd 16 (s.satVal satJslLinkDown) 1)) ∧ (s.jsl.replayDeadline = some d)) :=
  ⟨⟨(wJ {} : State), (wJDown (wJ {}) : State → Prop), by refine ⟨?_, ?_⟩ <;> first | decide +kernel | rfl | (unfold canRetire hasBudget; decide +kernel) | (unfold hasBudget; decide +kernel) | simp⟩,
  ⟨(wJ { lst := 3, deadline := some 9 } : State), (wJDown (wJ { lst := 3, deadline := some 9 }) : State → Prop), 9, carry 19 (wJ { lst := 3, deadline := some 9 }), by refine ⟨?_, ?_, ?_⟩ <;> first | decide +kernel | rfl | (unfold canRetire hasBudget; decide +kernel) | (unfold hasBudget; decide +kernel) | simp⟩,
  ⟨(wJ {} : State), (wJDown (wJ {}) : State → Prop), by refine ⟨?_, ?_⟩ <;> first | decide +kernel | rfl | (unfold canRetire hasBudget; decide +kernel) | (unfold hasBudget; decide +kernel) | simp⟩,
  ⟨(wJ { retryAt := some 9 } : State), (wJDown (wJ { retryAt := some 9 }) : State → Prop), 9, carry 9 (wJ { retryAt := some 9 }), by refine ⟨?_, ?_, ?_⟩ <;> first | decide +kernel | rfl | (unfold canRetire hasBudget; decide +kernel) | (unfold hasBudget; decide +kernel) | simp⟩,
  ⟨(wJ {} : State), (wJDown (wJ {}) : State → Prop), by refine ⟨?_, ?_⟩ <;> first | decide +kernel | rfl | (unfold canRetire hasBudget; decide +kernel) | (unfold hasBudget; decide +kernel) | simp⟩,
  ⟨(wJ { lst := 4, idle := some 9 } : State), (wJDown (wJ { lst := 4, idle := some 9 }) : State → Prop), 9, by refine ⟨?_, ?_, ?_, ?_⟩ <;> first | decide +kernel | rfl | (unfold canRetire hasBudget; decide +kernel) | (unfold hasBudget; decide +kernel) | simp⟩,
  ⟨(wJ {} : State), (wJDown (wJ {}) : State → Prop), by refine ⟨?_, ?_⟩ <;> first | decide +kernel | rfl | (unfold canRetire hasBudget; decide +kernel) | (unfold hasBudget; decide +kernel) | simp⟩,
  ⟨(wJ { lst := 4, replayDeadline := some 9 } : State), (wJDown (wJ { lst := 4, replayDeadline := some 9 }) : State → Prop), 9, by refine ⟨?_, ?_⟩ <;> first | decide +kernel | rfl | (unfold canRetire hasBudget; decide +kernel) | (unfold hasBudget; decide +kernel) | simp⟩⟩

theorem test_wit_JaesqueLink_3 :
    (∃ (s : State) (down : State → Prop), (down = (fun u => u.jsl.lst = 0 ∧ u.jsl.retry = [] ∧ u.jsl.replayReq = none ∧ (∀ k x, afind u.jsl.sessions k = some x → x.via ≠ none) ∧ u.satVal satJslLinkDown = satAdd 16 (s.satVal satJslLinkDown) 1)) ∧ (s.jsl.silence = none)) ∧
    (∃ (s : State) (down : State → Prop) (d : _), (down = (fun u => u.jsl.lst = 0 ∧ u.jsl.retry = [] ∧ u.jsl.replayReq = none ∧ (∀ k x, afind u.jsl.sessions k = some x → x.via ≠ none) ∧ u.satVal satJslLinkDown = satAdd 16 (s.satVal satJslLinkDown) 1)) ∧ (s.jsl.silence = some d)) ∧
    (∃ (s : State) (down : State → Prop) (f : JqFrame), (down = (fun u => u.jsl.lst = 0 ∧ u.jsl.retry = [] ∧ u.jsl.replayReq = none ∧ (∀ k x, afind u.jsl.sessions k = some x → x.via ≠ none) ∧ u.satVal satJslLinkDown = satAdd 16 (s.satVal satJslLinkDown) 1)) ∧ (f.wf = true) ∧ (s.jsl.lst ≠ 4)) ∧
    (∃ (s : State) (down : State → Prop) (f : JqFrame) (c : _), (down = (fun u => u.jsl.lst = 0 ∧ u.jsl.retry = [] ∧ u.jsl.replayReq = none ∧ (∀ k x, afind u.jsl.sessions k = some x → x.via ≠ none) ∧ u.satVal satJslLinkDown = satAdd 16 (s.satVal satJslLinkDown) 1)) ∧ (f.wf = true) ∧ (s.jsl.lst = 4) ∧ (f.crcOk = false ∨ f.rsv ≠ 0) ∧ (c ∈ [Instr.jqIdleFrame f, .jqReplayReq f])) ∧
    (∃ (s : State) (down : State → Prop) (f : JqFrame) (i : _) (l : _), (down = (fun u => u.jsl.lst = 0 ∧ u.jsl.retry = [] ∧ u.jsl.replayReq = none ∧ (∀ k x, afind u.jsl.sessions k = some x → x.via ≠ none) ∧ u.satVal satJslLinkDown = satAdd 16 (s.satVal satJslLinkDown) 1)) ∧ (f.wf = true) ∧ (s.jsl.lst = 4) ∧ (f.crcOk = true) ∧ (f.rsv = 0) ∧ (f.ackV = false) ∧ (i = s.jsl.retry.findIdx (fun y => y.f.fseq = f.fseq)) ∧ (l = s.jsl.retry.drop i) ∧ (l.any (fun y => decide (8 ≤ y.resends + 1)) = true)) ∧
    (∃ (s : State) (down : State → Prop) (f : JqFrame) (i : _) (l : _), (down = (fun u => u.jsl.lst = 0 ∧ u.jsl.retry = [] ∧ u.jsl.replayReq = none ∧ (∀ k x, afind u.jsl.sessions k = some x → x.via ≠ none) ∧ u.satVal satJslLinkDown = satAdd 16 (s.satVal satJslLinkDown) 1)) ∧ (f.wf = true) ∧ (s.jsl.lst = 4) ∧ (f.crcOk = true) ∧ (f.rsv = 0) ∧ (f.ackV = false) ∧ (i = s.jsl.retry.findIdx (fun y => y.f.fseq = f.fseq)) ∧ (l = s.jsl.retry.drop i) ∧ (l.any (fun y => decide (8 ≤ y.resends + 1)) = false)) ∧
    (∃ (s : State) (down : State → Prop) (f : JqFrame) (h : HelloMsg) (sig : List Byte) (data : List Byte) (dg : List Byte) (n : Nat) (tag : Nat) (addr : Nat) (kind : Nat) (xfer : Nat) (total : Nat) (off : Nat) (sev : Nat) (g : Nat) (wtag : Nat) (ws : List Word32) (en : Bool) (c : _) (k : _) (fs : _), (down = (fun u => u.jsl.lst = 0 ∧ u.jsl.retry = [] ∧ u.jsl.replayReq = none ∧ (∀ k x, afind u.jsl.sessions k = some x → x.via ≠ none) ∧ u.satVal satJslLinkDown = satAdd 16 (s.satVal satJslLinkDown) 1)) ∧ (f.wf = true) ∧ (n < 256) ∧ (tag < 65536) ∧ (addr < 2 ^ 40) ∧ (kind < 256) ∧ (xfer < 65536) ∧ (total < 2 ^ 32) ∧ (off < 2 ^ 32) ∧ (sev < 16) ∧ (g < 64) ∧ (wtag < 2 ^ 64) ∧ ((c, k) ∈ [(Instr.hello f h, 2), (.proof f sig, max 1 (ceilDiv sig.length 1016))] ++ [Instr.sessionClose f, .jqCsrRead f n tag addr, .jqCsrWrite f n tag addr ws, .bulkBegin f kind xfer total, .bulkData f xfer off data, .bulkEnd f xfer dg, .subscribe f en sev, .witnessRead f g wtag].map (fun c => (c, 1))) ∧ (fs = (if k = 1 then [f] else (List.range k).map (fun i => { f with fseq := (f.fseq + i) % 256, len := (sub f.payload (1024 * i) 1024).length, payload := sub f.payload (1024 * i) 1024 }))) ∧ (s.jsl.lst ≠ 4)) ∧
    (∃ (s : State) (down : State → Prop) (f : JqFrame) (h : HelloMsg) (sig : List Byte) (data : List Byte) (dg : List Byte) (n : Nat) (tag : Nat) (addr : Nat) (kind : Nat) (xfer : Nat) (total : Nat) (off : Nat) (sev : Nat) (g : Nat) (wtag : Nat) (ws : List Word32) (en : Bool) (c : _) (k : _) (fs : _), (down = (fun u => u.jsl.lst = 0 ∧ u.jsl.retry = [] ∧ u.jsl.replayReq = none ∧ (∀ k x, afind u.jsl.sessions k = some x → x.via ≠ none) ∧ u.satVal satJslLinkDown = satAdd 16 (s.satVal satJslLinkDown) 1)) ∧ (f.wf = true) ∧ (n < 256) ∧ (tag < 65536) ∧ (addr < 2 ^ 40) ∧ (kind < 256) ∧ (xfer < 65536) ∧ (total < 2 ^ 32) ∧ (off < 2 ^ 32) ∧ (sev < 16) ∧ (g < 64) ∧ (wtag < 2 ^ 64) ∧ ((c, k) ∈ [(Instr.hello f h, 2), (.proof f sig, max 1 (ceilDiv sig.length 1016))] ++ [Instr.sessionClose f, .jqCsrRead f n tag addr, .jqCsrWrite f n tag addr ws, .bulkBegin f kind xfer total, .bulkData f xfer off data, .bulkEnd f xfer dg, .subscribe f en sev, .witnessRead f g wtag].map (fun c => (c, 1))) ∧ (fs = (if k = 1 then [f] else (List.range k).map (fun i => { f with fseq := (f.fseq + i) % 256, len := (sub f.payload (1024 * i) 1024).length, payload := sub f.payload (1024 * i) 1024 }))) ∧ (s.jsl.lst = 4) ∧ (f.ackV = false) ∧ (f.crcOk = false ∨ f.rsv ≠ 0 ∨ f.fseq ≠ s.jsl.rxSeq)) :=
  ⟨⟨(wJ {} : State), (wJDown (wJ {}) : State → Prop), by refine ⟨?_, ?_⟩ <;> first | decide +kernel | rfl | (unfold canRetire hasBudget; decide +kernel) | (unfold hasBudget; decide +kernel) | simp⟩,
  ⟨(wJ { lst := 4, silence := some 9 } : State), (wJDown (wJ { lst := 4, silence := some 9 }) : State → Prop), 9, by refine ⟨?_, ?_⟩ <;> first | decide +kernel | rfl | (unfold canRetire hasBudget; decide +kernel) | (unfold hasBudget; decide +kernel) | simp⟩,
  ⟨(wJ {} : State), (wJDown (wJ {}) : State → Prop), ({} : JqFrame), by refine ⟨?_, ?_, ?_⟩ <;> first | decide +kernel | rfl | (unfold canRetire hasBudget; decide +kernel) | (unfold hasBudget; decide +kernel) | simp⟩,
  ⟨(wJ { lst := 4 } : State), (wJDown (wJ { lst := 4 }) : State → Prop), ({ crcOk := false } : JqFrame), .jqReplayReq { crcOk := false }, by refine ⟨?_, ?_, ?_, ?_, ?_⟩ <;> first | decide +kernel | rfl | (unfold canRetire hasBudget; decide +kernel) | (unfold hasBudget; decide +kernel) | simp⟩,
  ⟨(wJ { lst := 4, retry := [{ f := { fseq := 255 }, resends := 7 }] } : State), (wJDown (wJ { lst := 4, retry := [{ f := { fseq := 255 }, resends := 7 }] }) : State → Prop), ({ fseq := 255 } : JqFrame), 0, [{ f := { fseq := 255 }, resends := 7 }], by refine ⟨?_, ?_, ?_, ?_, ?_, ?_, ?_, ?_, ?_⟩ <;> first | decide +kernel | rfl | (unfold canRetire hasBudget; decide +kernel) | (unfold hasBudget; decide +kernel) | simp⟩,
  ⟨(wJ { lst := 4, retry := [{ f := { fseq := 255 }, resends := 6 }] } : State), (wJDown (wJ { lst := 4, retry := [{ f := { fseq := 255 }, resends := 6 }] }) : State → Prop), ({ fseq := 255 } : JqFrame), 0, [{ f := { fseq := 255 }, resends := 6 }], by refine ⟨?_, ?_, ?_, ?_, ?_, ?_, ?_, ?_, ?_⟩ <;> first | decide +kernel | rfl | (unfold canRetire hasBudget; decide +kernel) | (unfold hasBudget; decide +kernel) | simp⟩,
  ⟨(wJ {} : State), (wJDown (wJ {}) : State → Prop), ({ fseq := 255 } : JqFrame), ({} : HelloMsg), ([] : List Byte), ([] : List Byte), ([] : List Byte), 255, 65535, 1099511627775, 255, 65535, 4294967295, 4294967295, 15, 63, 18446744073709551615, ([] : List Word32), true, .witnessRead ({ fseq := 255 }) 63 18446744073709551615, 1, [({ fseq := 255 })], by refine ⟨?_, ?_, ?_, ?_, ?_, ?_, ?_, ?_, ?_, ?_, ?_, ?_, ?_, ?_, ?_⟩ <;> first | decide +kernel | rfl | (unfold canRetire hasBudget; decide +kernel) | (unfold hasBudget; decide +kernel) | simp⟩,
  ⟨(wJ { lst := 4 } : State), (wJDown (wJ { lst := 4 }) : State → Prop), ({ fseq := 255 } : JqFrame), ({} : HelloMsg), ([] : List Byte), ([] : List Byte), ([] : List Byte), 255, 65535, 1099511627775, 255, 65535, 4294967295, 4294967295, 15, 63, 18446744073709551615, ([] : List Word32), true, .witnessRead ({ fseq := 255 }) 63 18446744073709551615, 1, [({ fseq := 255 })], by refine ⟨?_, ?_, ?_, ?_, ?_, ?_, ?_, ?_, ?_, ?_, ?_, ?_, ?_, ?_, ?_, ?_, ?_⟩ <;> first | decide +kernel | rfl | (unfold canRetire hasBudget; decide +kernel) | (unfold hasBudget; decide +kernel) | simp⟩⟩

theorem test_wit_JaesqueLink_4 :
    (∃ (s : State) (down : State → Prop) (f : JqFrame) (h : HelloMsg) (sig : List Byte) (data : List Byte) (dg : List Byte) (n : Nat) (tag : Nat) (addr : Nat) (kind : Nat) (xfer : Nat) (total : Nat) (off : Nat) (sev : Nat) (g : Nat) (wtag : Nat) (ws : List Word32) (en : Bool) (c : _) (k : _) (fs : _) (m : _) (q : _), (down = (fun u => u.jsl.lst = 0 ∧ u.jsl.retry = [] ∧ u.jsl.replayReq = none ∧ (∀ k x, afind u.jsl.sessions k = some x → x.via ≠ none) ∧ u.satVal satJslLinkDown = satAdd 16 (s.satVal satJslLinkDown) 1)) ∧ (f.wf = true) ∧ (n < 256) ∧ (tag < 65536) ∧ (addr < 2 ^ 40) ∧ (kind < 256) ∧ (xfer < 65536) ∧ (total < 2 ^ 32) ∧ (off < 2 ^ 32) ∧ (sev < 16) ∧ (g < 64) ∧ (wtag < 2 ^ 64) ∧ ((c, k) ∈ [(Instr.hello f h, 2), (.proof f sig, max 1 (ceilDiv sig.length 1016))] ++ [Instr.sessionClose f, .jqCsrRead f n tag addr, .jqCsrWrite f n tag addr ws, .bulkBegin f kind xfer total, .bulkData f xfer off data, .bulkEnd f xfer dg, .subscribe f en sev, .witnessRead f g wtag].map (fun c => (c, 1))) ∧ (fs = (if k = 1 then [f] else (List.range k).map (fun i => { f with fseq := (f.fseq + i) % 256, len := (sub f.payload (1024 * i) 1024).length, payload := sub f.payload (1024 * i) 1024 }))) ∧ (s.jsl.lst = 4) ∧ (f.ackV = false) ∧ (f.crcOk = true) ∧ (f.rsv = 0) ∧ (f.fseq = s.jsl.rxSeq) ∧ (f.tnode ≠ 0xFFFF) ∧ (f.tnode ≠ s.fab.node) ∧ (s.jsl.relayWait = []) ∧ (m = (if s.arch.mp = .run then min k (8 - (s.relayBusy (f.tnode, jqClass f)).length) else 0)) ∧ (q = aget s.jsl.relayTx (f.tnode, f.sid, 0) 0)) ∧
    (∃ (s : State) (down : State → Prop) (p : Packet), (down = (fun u => u.jsl.lst = 0 ∧ u.jsl.retry = [] ∧ u.jsl.replayReq = none ∧ (∀ k x, afind u.jsl.sessions k = some x → x.via ≠ none) ∧ u.satVal satJslLinkDown = satAdd 16 (s.satVal satJslLinkDown) 1)) ∧ (p.wf = true) ∧ (trainPart p = true) ∧ (joinTrain ((addPart p s.fab.frags).filter (sameTrain p)) = none)) ∧
    (∃ (s : State) (down : State → Prop) (p : Packet) (w : _), (down = (fun u => u.jsl.lst = 0 ∧ u.jsl.retry = [] ∧ u.jsl.replayReq = none ∧ (∀ k x, afind u.jsl.sessions k = some x → x.via ≠ none) ∧ u.satVal satJslLinkDown = satAdd 16 (s.satVal satJslLinkDown) 1)) ∧ (p.wf = true) ∧ (trainPart p = true) ∧ (joinTrain ((addPart p s.fab.frags).filter (sameTrain p)) = some w)) ∧
    (∃ (s : State) (down : State → Prop) (p : Packet) (k : _) (n : _) (d : _), (down = (fun u => u.jsl.lst = 0 ∧ u.jsl.retry = [] ∧ u.jsl.replayReq = none ∧ (∀ k x, afind u.jsl.sessions k = some x → x.via ≠ none) ∧ u.satVal satJslLinkDown = satAdd 16 (s.satVal satJslLinkDown) 1)) ∧ (p.wf = true) ∧ (trainPart p = false) ∧ (k = mgKey p) ∧ (n = aget s.jsl.relayRx k 0) ∧ (d = (mgSeq p + 65536 - n) % 65536) ∧ (classOk p.opcode p.cls = false)) ∧
    (∃ (s : State) (down : State → Prop) (p : Packet) (k : _) (n : _) (d : _), (down = (fun u => u.jsl.lst = 0 ∧ u.jsl.retry = [] ∧ u.jsl.replayReq = none ∧ (∀ k x, afind u.jsl.sessions k = some x → x.via ≠ none) ∧ u.satVal satJslLinkDown = satAdd 16 (s.satVal satJslLinkDown) 1)) ∧ (p.wf = true) ∧ (trainPart p = false) ∧ (k = mgKey p) ∧ (n = aget s.jsl.relayRx k 0) ∧ (d = (mgSeq p + 65536 - n) % 65536) ∧ (classOk p.opcode p.cls = true) ∧ (mgBack p = true) ∧ (s.arch.mp ≠ .run)) ∧
    (∃ (s : State) (down : State → Prop) (p : Packet) (k : _) (n : _) (d : _), (down = (fun u => u.jsl.lst = 0 ∧ u.jsl.retry = [] ∧ u.jsl.replayReq = none ∧ (∀ k x, afind u.jsl.sessions k = some x → x.via ≠ none) ∧ u.satVal satJslLinkDown = satAdd 16 (s.satVal satJslLinkDown) 1)) ∧ (p.wf = true) ∧ (trainPart p = false) ∧ (k = mgKey p) ∧ (n = aget s.jsl.relayRx k 0) ∧ (d = (mgSeq p + 65536 - n) % 65536) ∧ (classOk p.opcode p.cls = true) ∧ (mgBack p = false) ∧ (16 < d)) ∧
    (∃ (s : State) (down : State → Prop) (p : Packet) (k : _) (n : _) (d : _), (down = (fun u => u.jsl.lst = 0 ∧ u.jsl.retry = [] ∧ u.jsl.replayReq = none ∧ (∀ k x, afind u.jsl.sessions k = some x → x.via ≠ none) ∧ u.satVal satJslLinkDown = satAdd 16 (s.satVal satJslLinkDown) 1)) ∧ (p.wf = true) ∧ (trainPart p = false) ∧ (k = mgKey p) ∧ (n = aget s.jsl.relayRx k 0) ∧ (d = (mgSeq p + 65536 - n) % 65536) ∧ (classOk p.opcode p.cls = true) ∧ (mgBack p = false) ∧ (0 < d) ∧ (d ≤ 16)) ∧
    (∃ (s : State) (down : State → Prop) (p : Packet) (k : _) (n : _) (d : _), (down = (fun u => u.jsl.lst = 0 ∧ u.jsl.retry = [] ∧ u.jsl.replayReq = none ∧ (∀ k x, afind u.jsl.sessions k = some x → x.via ≠ none) ∧ u.satVal satJslLinkDown = satAdd 16 (s.satVal satJslLinkDown) 1)) ∧ (p.wf = true) ∧ (trainPart p = false) ∧ (k = mgKey p) ∧ (n = aget s.jsl.relayRx k 0) ∧ (d = (mgSeq p + 65536 - n) % 65536) ∧ (classOk p.opcode p.cls = true) ∧ (mgBack p = false) ∧ (d = 0) ∧ (aget s.jsl.relayHeld k [] = []) ∧ ((mgFrame p).sid ≠ 0) ∧ (afind s.jsl.sessions (mgFrame p).sid = none)) :=
  ⟨⟨(wJ { lst := 4, relayOut := [((5, 0), List.replicate 7 0)], relayTx := [((5, 0, 0), 65535)] } : State), (wJDown (wJ { lst := 4, relayOut := [((5, 0), List.replicate 7 0)], relayTx := [((5, 0, 0), 65535)] }) : State → Prop), ({ tnode := 5, payload := zeros 1100 } : JqFrame), ({} : HelloMsg), ([] : List Byte), ([] : List Byte), ([] : List Byte), 255, 65535, 1099511627775, 255, 65535, 4294967295, 4294967295, 15, 63, 18446744073709551615, ([] : List Word32), true, .hello ({ tnode := 5, payload := zeros 1100 }) {}, 2, [{ tnode := 5, len := 1024, payload := zeros 1024 }, { tnode := 5, fseq := 1, len := 76, payload := zeros 76 }], 1, 65535, by refine ⟨?_, ?_, ?_, ?_, ?_, ?_, ?_, ?_, ?_, ?_, ?_, ?_, ?_, ?_, ?_, ?_, ?_, ?_, ?_, ?_, ?_, ?_, ?_, ?_⟩ <;> first | decide +kernel | rfl | (unfold canRetire hasBudget; decide +kernel) | (unfold hasBudget; decide +kernel) | simp⟩,
  ⟨wUp, (wJDown (wUp) : State → Prop), ({ wMg 0 0 0 7 with last := false } : Packet), by refine ⟨?_, ?_, ?_, ?_⟩ <;> first | decide +kernel | rfl | (unfold canRetire hasBudget; decide +kernel) | (unfold hasBudget; decide +kernel) | simp⟩,
  ⟨({ wUp with fab := { frags := [{ wMg 0 0 0 7 with last := false }] } } : State), (wJDown ({ wUp with fab := { frags := [{ wMg 0 0 0 7 with last := false }] } }) : State → Prop), ({ wMg 0 0 0 7 with offset := 24, last := true, payload := [] } : Packet), wMg 0 0 0 7, by refine ⟨?_, ?_, ?_, ?_⟩ <;> first | decide +kernel | rfl | (unfold canRetire hasBudget; decide +kernel) | (unfold hasBudget; decide +kernel) | simp⟩,
  ⟨(wJ { lst := 4 } : State), (wJDown (wJ { lst := 4 }) : State → Prop), (wMg 0 0 0 1 : Packet), mgKey (wMg 0 0 0 1), 0, 0, by refine ⟨?_, ?_, ?_, ?_, ?_, ?_, ?_⟩ <;> first | decide +kernel | rfl | (unfold canRetire hasBudget; decide +kernel) | (unfold hasBudget; decide +kernel) | simp⟩,
  ⟨({ wJ {} with arch := { cp := .run, mp := .restart } } : State), (wJDown ({ wJ {} with arch := { cp := .run, mp := .restart } }) : State → Prop), (wMg 0 1 0 7 : Packet), mgKey (wMg 0 1 0 7), 0, 0, by refine ⟨?_, ?_, ?_, ?_, ?_, ?_, ?_, ?_, ?_⟩ <;> first | decide +kernel | rfl | (unfold canRetire hasBudget; decide +kernel) | (unfold hasBudget; decide +kernel) | simp⟩,
  ⟨(wJ {} : State), (wJDown (wJ {}) : State → Prop), (wMg 17 0 0 7 : Packet), mgKey (wMg 17 0 0 7), 0, 17, by refine ⟨?_, ?_, ?_, ?_, ?_, ?_, ?_, ?_, ?_⟩ <;> first | decide +kernel | rfl | (unfold canRetire hasBudget; decide +kernel) | (unfold hasBudget; decide +kernel) | simp⟩,
  ⟨(wJ {} : State), (wJDown (wJ {}) : State → Prop), (wMg 16 0 0 7 : Packet), mgKey (wMg 16 0 0 7), 0, 16, by refine ⟨?_, ?_, ?_, ?_, ?_, ?_, ?_, ?_, ?_, ?_⟩ <;> first | decide +kernel | rfl | (unfold canRetire hasBudget; decide +kernel) | (unfold hasBudget; decide +kernel) | simp⟩,
  ⟨(wJ {} : State), (wJDown (wJ {}) : State → Prop), (wMg 0 0 1 7 : Packet), mgKey (wMg 0 0 1 7), 0, 0, by refine ⟨?_, ?_, ?_, ?_, ?_, ?_, ?_, ?_, ?_, ?_, ?_, ?_⟩ <;> first | decide +kernel | rfl | (unfold canRetire hasBudget; decide +kernel) | (unfold hasBudget; decide +kernel) | simp⟩⟩

theorem test_wit_JaesqueLink_5 :
    (∃ (s : State) (down : State → Prop) (sid : _), (down = (fun u => u.jsl.lst = 0 ∧ u.jsl.retry = [] ∧ u.jsl.replayReq = none ∧ (∀ k x, afind u.jsl.sessions k = some x → x.via ≠ none) ∧ u.satVal satJslLinkDown = satAdd 16 (s.satVal satJslLinkDown) 1)) ∧ (sid < 8) ∧ (afind s.jsl.relayDeadline sid = none)) ∧
    (∃ (s : State) (down : State → Prop) (sid : _) (d : _), (down = (fun u => u.jsl.lst = 0 ∧ u.jsl.retry = [] ∧ u.jsl.replayReq = none ∧ (∀ k x, afind u.jsl.sessions k = some x → x.via ≠ none) ∧ u.satVal satJslLinkDown = satAdd 16 (s.satVal satJslLinkDown) 1)) ∧ (sid < 8) ∧ (afind s.jsl.relayDeadline sid = some d)) ∧
    (∃ (s : State) (down : State → Prop) (g : _) (i : _), (down = (fun u => u.jsl.lst = 0 ∧ u.jsl.retry = [] ∧ u.jsl.replayReq = none ∧ (∀ k x, afind u.jsl.sessions k = some x → x.via ≠ none) ∧ u.satVal satJslLinkDown = satAdd 16 (s.satVal satJslLinkDown) 1)) ∧ (g < 64) ∧ (i = s.jsl.records.findIdx (fun r => r.saggar = g)) ∧ (s.jsl.records[i]? = none)) ∧
    (∃ (s : State) (down : State → Prop) (g : _) (i : _) (r : _), (down = (fun u => u.jsl.lst = 0 ∧ u.jsl.retry = [] ∧ u.jsl.replayReq = none ∧ (∀ k x, afind u.jsl.sessions k = some x → x.via ≠ none) ∧ u.satVal satJslLinkDown = satAdd 16 (s.satVal satJslLinkDown) 1)) ∧ (g < 64) ∧ (i = s.jsl.records.findIdx (fun r => r.saggar = g)) ∧ (s.jsl.records[i]? = some r) ∧ (r.sid = 0 ∨ r.acked < r.count)) ∧
    (∃ (s : State) (down : State → Prop) (g : _) (i : _) (r : _), (down = (fun u => u.jsl.lst = 0 ∧ u.jsl.retry = [] ∧ u.jsl.replayReq = none ∧ (∀ k x, afind u.jsl.sessions k = some x → x.via ≠ none) ∧ u.satVal satJslLinkDown = satAdd 16 (s.satVal satJslLinkDown) 1)) ∧ (g < 64) ∧ (i = s.jsl.records.findIdx (fun r => r.saggar = g)) ∧ (s.jsl.records[i]? = some r) ∧ (r.sid ≠ 0) ∧ (r.count ≤ r.acked)) :=
  ⟨⟨(wJ {} : State), (wJDown (wJ {}) : State → Prop), 7, by refine ⟨?_, ?_, ?_⟩ <;> first | decide +kernel | rfl | (unfold canRetire hasBudget; decide +kernel) | (unfold hasBudget; decide +kernel) | simp⟩,
  ⟨(wJ { relayDeadline := [(7, 9)] } : State), (wJDown (wJ { relayDeadline := [(7, 9)] }) : State → Prop), 7, 9, by refine ⟨?_, ?_, ?_⟩ <;> first | decide +kernel | rfl | (unfold canRetire hasBudget; decide +kernel) | (unfold hasBudget; decide +kernel) | simp⟩,
  ⟨(wJ {} : State), (wJDown (wJ {}) : State → Prop), 63, 0, by refine ⟨?_, ?_, ?_, ?_⟩ <;> first | decide +kernel | rfl | (unfold canRetire hasBudget; decide +kernel) | (unfold hasBudget; decide +kernel) | simp⟩,
  ⟨(wJ { records := [{ sid := 1 }] } : State), (wJDown (wJ { records := [{ sid := 1 }] }) : State → Prop), 0, 0, { sid := 1 }, by refine ⟨?_, ?_, ?_, ?_, ?_⟩ <;> first | decide +kernel | rfl | (unfold canRetire hasBudget; decide +kernel) | (unfold hasBudget; decide +kernel) | simp⟩,
  ⟨(wJ { records := [{ sid := 1, acked := 1 }] } : State), (wJDown (wJ { records := [{ sid := 1, acked := 1 }] }) : State → Prop), 0, 0, { sid := 1, acked := 1 }, by refine ⟨?_, ?_, ?_, ?_, ?_, ?_⟩ <;> first | decide +kernel | rfl | (unfold canRetire hasBudget; decide +kernel) | (unfold hasBudget; decide +kernel) | simp⟩⟩

theorem test_wit_JaesqueSessions_1 :
    (∃ (s : State) (a : State) (f : JqFrame) (taken : Nat → State), (f.wf = true) ∧ (s.jsl.lst = 4) ∧ (f.crcOk = true) ∧ (f.rsv = 0) ∧ (f.ackV = false) ∧ (f.fseq = s.jsl.rxSeq) ∧ (f.tnode = 0xFFFF) ∧ (s.jsl.relayWait = []) ∧ (taken = (fun n => { s with jsl := { s.jsl with silence := some (s.now + sclk (2 ^ 16)), crTot := [f.crCsr, f.crBulk, f.crEvent, f.crRecord], rxSeq := (s.jsl.rxSeq + n) % 256, ack := (s.jsl.rxSeq + n + 255) % 256, ackV := true, replayReq := none, replayDeadline := none, crRet := (List.range n).foldl (fun r _ => bump256 r (jqClass f)) s.jsl.crRet }, ctr := amod s.ctr ctrJslRx {} (fun c => c.add n) })) ∧ (a = taken 1) ∧ (¬ (f.sid = 0 ∧ f.prot = false ∧ f.ftype = 5))) ∧
    (∃ (s : State) (a : State) (f : JqFrame) (taken : Nat → State) (h : HelloMsg) (st : _), (f.wf = true) ∧ (s.jsl.lst = 4) ∧ (f.crcOk = true) ∧ (f.rsv = 0) ∧ (f.ackV = false) ∧ (f.fseq = s.jsl.rxSeq) ∧ (f.tnode = 0xFFFF) ∧ (s.jsl.relayWait = []) ∧ (taken = (fun n => { s with jsl := { s.jsl with silence := some (s.now + sclk (2 ^ 16)), crTot := [f.crCsr, f.crBulk, f.crEvent, f.crRecord], rxSeq := (s.jsl.rxSeq + n) % 256, ack := (s.jsl.rxSeq + n + 255) % 256, ackV := true, replayReq := none, replayDeadline := none, crRet := (List.range n).foldl (fun r _ => bump256 r (jqClass f)) s.jsl.crRet }, ctr := amod s.ctr ctrJslRx {} (fun c => c.add n) })) ∧ (a = taken 1) ∧ (f.sid = 0) ∧ (f.prot = false) ∧ (f.ftype = 5) ∧ ((st = Status.nackRetry ∧ (s.arch.mp ≠ .run ∨ 7 ≤ s.jsl.sessions.length ∨ s.jsl.closing = true)) ∨ (st = .denied ∧ s.arch.mp = .run ∧ s.jsl.sessions.length < 7 ∧ s.jsl.closing = false ∧ s.helloSlot h = none ∧ s.claims h = false))) ∧
    (∃ (s : State) (a : State) (f : JqFrame) (taken : Nat → State) (h : HelloMsg) (slot : _), (f.wf = true) ∧ (s.jsl.lst = 4) ∧ (f.crcOk = true) ∧ (f.rsv = 0) ∧ (f.ackV = false) ∧ (f.fseq = s.jsl.rxSeq) ∧ (f.tnode = 0xFFFF) ∧ (s.jsl.relayWait = []) ∧ (taken = (fun n => { s with jsl := { s.jsl with silence := some (s.now + sclk (2 ^ 16)), crTot := [f.crCsr, f.crBulk, f.crEvent, f.crRecord], rxSeq := (s.jsl.rxSeq + n) % 256, ack := (s.jsl.rxSeq + n + 255) % 256, ackV := true, replayReq := none, replayDeadline := none, crRet := (List.range n).foldl (fun r _ => bump256 r (jqClass f)) s.jsl.crRet }, ctr := amod s.ctr ctrJslRx {} (fun c => c.add n) })) ∧ (a = taken 1) ∧ (f.sid = 0) ∧ (f.prot = false) ∧ (f.ftype = 5) ∧ (s.arch.mp = .run) ∧ (s.jsl.sessions.length < 7) ∧ (s.jsl.closing = false) ∧ (s.helloSlot h = some slot)) ∧
    (∃ (s : State) (a : State) (f : JqFrame) (taken : Nat → State), (f.wf = true) ∧ (s.jsl.lst = 4) ∧ (f.crcOk = true) ∧ (f.rsv = 0) ∧ (f.ackV = false) ∧ (f.fseq = s.jsl.rxSeq) ∧ (f.tnode = 0xFFFF) ∧ (s.jsl.relayWait = []) ∧ (taken = (fun n => { s with jsl := { s.jsl with silence := some (s.now + sclk (2 ^ 16)), crTot := [f.crCsr, f.crBulk, f.crEvent, f.crRecord], rxSeq := (s.jsl.rxSeq + n) % 256, ack := (s.jsl.rxSeq + n + 255) % 256, ackV := true, replayReq := none, replayDeadline := none, crRet := (List.range n).foldl (fun r _ => bump256 r (jqClass f)) s.jsl.crRet }, ctr := amod s.ctr ctrJslRx {} (fun c => c.add n) })) ∧ (a = taken 1) ∧ (f.sid = 0) ∧ (f.prot = false) ∧ (f.ftype = 5) ∧ (s.jsl.handshakes.find? (fun h => h.via = none) = none)) ∧
    (∃ (s : State) (a : State) (f : JqFrame) (taken : Nat → State) (sig : List Byte) (h : _) (sid : _), (f.wf = true) ∧ (s.jsl.lst = 4) ∧ (f.crcOk = true) ∧ (f.rsv = 0) ∧ (f.ackV = false) ∧ (f.fseq = s.jsl.rxSeq) ∧ (f.tnode = 0xFFFF) ∧ (s.jsl.relayWait = []) ∧ (taken = (fun n => { s with jsl := { s.jsl with silence := some (s.now + sclk (2 ^ 16)), crTot := [f.crCsr, f.crBulk, f.crEvent, f.crRecord], rxSeq := (s.jsl.rxSeq + n) % 256, ack := (s.jsl.rxSeq + n + 255) % 256, ackV := true, replayReq := none, replayDeadline := none, crRet := (List.range n).foldl (fun r _ => bump256 r (jqClass f)) s.jsl.crRet }, ctr := amod s.ctr ctrJslRx {} (fun c => c.add n) })) ∧ (a = taken 1) ∧ (f.sid = 0) ∧ (f.prot = false) ∧ (f.ftype = 5) ∧ (s.jsl.handshakes.find? (fun h => h.via = none) = some h) ∧ (s.freeSid = some sid) ∧ (s.arch.mp = .run) ∧ (s.proofOk h sig = false)) ∧
    (Config.falconVerify [] (ascii "JQ-HOST" ++ digest []) [] = true → ∃ (s : State) (a : State) (f : JqFrame) (taken : Nat → State) (sig : List Byte) (h : _) (sid : _), (f.wf = true) ∧ (s.jsl.lst = 4) ∧ (f.crcOk = true) ∧ (f.rsv = 0) ∧ (f.ackV = false) ∧ (f.fseq = s.jsl.rxSeq) ∧ (f.tnode = 0xFFFF) ∧ (s.jsl.relayWait = []) ∧ (taken = (fun n => { s with jsl := { s.jsl with silence := some (s.now + sclk (2 ^ 16)), crTot := [f.crCsr, f.crBulk, f.crEvent, f.crRecord], rxSeq := (s.jsl.rxSeq + n) % 256, ack := (s.jsl.rxSeq + n + 255) % 256, ackV := true, replayReq := none, replayDeadline := none, crRet := (List.range n).foldl (fun r _ => bump256 r (jqClass f)) s.jsl.crRet }, ctr := amod s.ctr ctrJslRx {} (fun c => c.add n) })) ∧ (a = taken 1) ∧ (f.sid = 0) ∧ (f.prot = false) ∧ (f.ftype = 5) ∧ (s.jsl.handshakes.find? (fun h => h.via = none) = some h) ∧ (s.freeSid = some sid) ∧ (s.arch.mp = .run) ∧ (s.proofOk h sig = true)) ∧
    (∃ (s : State) (a : State) (f : JqFrame) (taken : Nat → State) (count : _) (tag : _) (addr : _), (f.wf = true) ∧ (s.jsl.lst = 4) ∧ (f.crcOk = true) ∧ (f.rsv = 0) ∧ (f.ackV = false) ∧ (f.fseq = s.jsl.rxSeq) ∧ (f.tnode = 0xFFFF) ∧ (s.jsl.relayWait = []) ∧ (taken = (fun n => { s with jsl := { s.jsl with silence := some (s.now + sclk (2 ^ 16)), crTot := [f.crCsr, f.crBulk, f.crEvent, f.crRecord], rxSeq := (s.jsl.rxSeq + n) % 256, ack := (s.jsl.rxSeq + n + 255) % 256, ackV := true, replayReq := none, replayDeadline := none, crRet := (List.range n).foldl (fun r _ => bump256 r (jqClass f)) s.jsl.crRet }, ctr := amod s.ctr ctrJslRx {} (fun c => c.add n) })) ∧ (a = taken 1) ∧ (count < 256) ∧ (tag < 65536) ∧ (addr < 2 ^ 40) ∧ (f.ftype = 1) ∧ (f.mclass = 0) ∧ (f.sid = 0) ∧ (f.prot = false) ∧ (0x0010000 < addr + 4 * count)) ∧
    (∃ (s : State) (a : State) (f : JqFrame) (taken : Nat → State) (x : _), (f.wf = true) ∧ (s.jsl.lst = 4) ∧ (f.crcOk = true) ∧ (f.rsv = 0) ∧ (f.ackV = false) ∧ (f.fseq = s.jsl.rxSeq) ∧ (f.tnode = 0xFFFF) ∧ (s.jsl.relayWait = []) ∧ (taken = (fun n => { s with jsl := { s.jsl with silence := some (s.now + sclk (2 ^ 16)), crTot := [f.crCsr, f.crBulk, f.crEvent, f.crRecord], rxSeq := (s.jsl.rxSeq + n) % 256, ack := (s.jsl.rxSeq + n + 255) % 256, ackV := true, replayReq := none, replayDeadline := none, crRet := (List.range n).foldl (fun r _ => bump256 r (jqClass f)) s.jsl.crRet }, ctr := amod s.ctr ctrJslRx {} (fun c => c.add n) })) ∧ (a = taken 1) ∧ (afind s.jsl.sessions f.sid = some x) ∧ (x.via = none) ∧ (f.prot = true) ∧ (x.ctrRx + 1 < 2 ^ 32) ∧ (f.tagOk = false) ∧ (f.ftype = 5)) :=
  ⟨⟨(wJ { lst := 4 } : State), (wJA (wJ { lst := 4 }) ({}) : State), ({} : JqFrame), (wTaken (wJ { lst := 4 }) ({}) : Nat → State), by refine ⟨?_, ?_, ?_, ?_, ?_, ?_, ?_, ?_, ?_, ?_, ?_⟩ <;> first | decide +kernel | rfl | (unfold canRetire hasBudget; decide +kernel) | (unfold hasBudget; decide +kernel) | simp⟩,
  ⟨(wJ { lst := 4 } : State), (wJA (wJ { lst := 4 }) ({ ftype := 5 }) : State), ({ ftype := 5 } : JqFrame), (wTaken (wJ { lst := 4 }) ({ ftype := 5 }) : Nat → State), ({} : HelloMsg), .denied, by refine ⟨?_, ?_, ?_, ?_, ?_, ?_, ?_, ?_, ?_, ?_, ?_, ?_, ?_, ?_⟩ <;> first | decide +kernel | rfl | (unfold canRetire hasBudget; decide +kernel) | (unfold hasBudget; decide +kernel) | simp⟩,
  ⟨wEnr, (wJA (wEnr) ({ ftype := 5 }) : State), ({ ftype := 5 } : JqFrame), (wTaken (wEnr) ({ ftype := 5 }) : Nat → State), ({ role := 1, keyDigest := digest [] } : HelloMsg), 0, by refine ⟨?_, ?_, ?_, ?_, ?_, ?_, ?_, ?_, ?_, ?_, ?_, ?_, ?_, ?_, ?_, ?_, ?_⟩ <;> first | decide +kernel | rfl | (unfold canRetire hasBudget; decide +kernel) | (unfold hasBudget; decide +kernel) | simp⟩,
  ⟨(wJ { lst := 4 } : State), (wJA (wJ { lst := 4 }) ({ ftype := 5 }) : State), ({ ftype := 5 } : JqFrame), (wTaken (wJ { lst := 4 }) ({ ftype := 5 }) : Nat → State), by refine ⟨?_, ?_, ?_, ?_, ?_, ?_, ?_, ?_, ?_, ?_, ?_, ?_, ?_, ?_⟩ <;> first | decide +kernel | rfl | (unfold canRetire hasBudget; decide +kernel) | (unfold hasBudget; decide +kernel) | simp⟩,
  ⟨({ wEnr with sec := {} } : State), (wJA ({ wEnr with sec := {} }) ({ ftype := 5 }) : State), ({ ftype := 5 } : JqFrame), (wTaken ({ wEnr with sec := {} }) ({ ftype := 5 }) : Nat → State), ([] : List Byte), {}, 1, by refine ⟨?_, ?_, ?_, ?_, ?_, ?_, ?_, ?_, ?_, ?_, ?_, ?_, ?_, ?_, ?_, ?_, ?_⟩ <;> first | decide +kernel | rfl | (unfold canRetire hasBudget; decide +kernel) | (unfold hasBudget; decide +kernel) | simp⟩,
  fun h => ⟨wEnr, (wJA (wEnr) ({ ftype := 5 }) : State), ({ ftype := 5 } : JqFrame), (wTaken (wEnr) ({ ftype := 5 }) : Nat → State), ([] : List Byte), {}, 1, by refine ⟨?_, ?_, ?_, ?_, ?_, ?_, ?_, ?_, ?_, ?_, ?_, ?_, ?_, ?_, ?_, ?_, h⟩ <;> first | decide +kernel | rfl | (unfold canRetire hasBudget; decide +kernel) | (unfold hasBudget; decide +kernel) | simp⟩,
  ⟨(wJ { lst := 4 } : State), (wJA (wJ { lst := 4 }) ({}) : State), ({} : JqFrame), (wTaken (wJ { lst := 4 }) ({}) : Nat → State), 1, 65535, 65536, by refine ⟨?_, ?_, ?_, ?_, ?_, ?_, ?_, ?_, ?_, ?_, ?_, ?_, ?_, ?_, ?_, ?_, ?_, ?_⟩ <;> first | decide +kernel | rfl | (unfold canRetire hasBudget; decide +kernel) | (unfold hasBudget; decide +kernel) | simp⟩,
  ⟨(wSess {} [] : State), (wJA (wSess {} []) ({ wFr 0 with ftype := 5, tagOk := false }) : State), ({ wFr 0 with ftype := 5, tagOk := false } : JqFrame), (wTaken (wSess {} []) ({ wFr 0 with ftype := 5, tagOk := false }) : Nat → State), {}, by refine ⟨?_, ?_, ?_, ?_, ?_, ?_, ?_, ?_, ?_, ?_, ?_, ?_, ?_, ?_, ?_, ?_⟩ <;> first | decide +kernel | rfl | (unfold canRetire hasBudget; decide +kernel) | (unfold hasBudget; decide +kernel) | simp⟩⟩

theorem test_wit_JaesqueSessions_2 :
    (∃ (s : State) (a : State) (f : JqFrame) (taken : Nat → State) (x : _), (f.wf = true) ∧ (s.jsl.lst = 4) ∧ (f.crcOk = true) ∧ (f.rsv = 0) ∧ (f.ackV = false) ∧ (f.fseq = s.jsl.rxSeq) ∧ (f.tnode = 0xFFFF) ∧ (s.jsl.relayWait = []) ∧ (taken = (fun n => { s with jsl := { s.jsl with silence := some (s.now + sclk (2 ^ 16)), crTot := [f.crCsr, f.crBulk, f.crEvent, f.crRecord], rxSeq := (s.jsl.rxSeq + n) % 256, ack := (s.jsl.rxSeq + n + 255) % 256, ackV := true, replayReq := none, replayDeadline := none, crRet := (List.range n).foldl (fun r _ => bump256 r (jqClass f)) s.jsl.crRet }, ctr := amod s.ctr ctrJslRx {} (fun c => c.add n) })) ∧ (a = taken 1) ∧ (afind s.jsl.sessions f.sid = some x) ∧ (x.via = none) ∧ (f.prot = true) ∧ (x.ctrRx + 1 < 2 ^ 32) ∧ (f.tagOk = true) ∧ (f.ftype = 5)) ∧
    (∃ (s : State) (a : State) (f : JqFrame) (taken : Nat → State) (x : _) (a2 : _) (count : _) (tag : _) (addr : _), (f.wf = true) ∧ (s.jsl.lst = 4) ∧ (f.crcOk = true) ∧ (f.rsv = 0) ∧ (f.ackV = false) ∧ (f.fseq = s.jsl.rxSeq) ∧ (f.tnode = 0xFFFF) ∧ (s.jsl.relayWait = []) ∧ (taken = (fun n => { s with jsl := { s.jsl with silence := some (s.now + sclk (2 ^ 16)), crTot := [f.crCsr, f.crBulk, f.crEvent, f.crRecord], rxSeq := (s.jsl.rxSeq + n) % 256, ack := (s.jsl.rxSeq + n + 255) % 256, ackV := true, replayReq := none, replayDeadline := none, crRet := (List.range n).foldl (fun r _ => bump256 r (jqClass f)) s.jsl.crRet }, ctr := amod s.ctr ctrJslRx {} (fun c => c.add n) })) ∧ (a = taken 1) ∧ (afind s.jsl.sessions f.sid = some x) ∧ (x.via = none) ∧ (f.prot = true) ∧ (x.ctrRx + 1 < 2 ^ 32) ∧ (f.tagOk = true) ∧ (a2 = { a with jsl := { a.jsl with sessions := aset a.jsl.sessions f.sid { x with ctrRx := x.ctrRx + 1 } } }) ∧ (count < 256) ∧ (tag < 65536) ∧ (addr < 2 ^ 40) ∧ (f.ftype = 1) ∧ (f.mclass = 0) ∧ (f.sid ≠ 0) ∧ (count = 0 ∨ 248 < count)) ∧
    (∃ (s : State) (a : State) (f : JqFrame) (taken : Nat → State) (x : _) (a2 : _) (count : _) (tag : _) (addr : _) (ws : _) (st : _) (a3 : _), (f.wf = true) ∧ (s.jsl.lst = 4) ∧ (f.crcOk = true) ∧ (f.rsv = 0) ∧ (f.ackV = false) ∧ (f.fseq = s.jsl.rxSeq) ∧ (f.tnode = 0xFFFF) ∧ (s.jsl.relayWait = []) ∧ (taken = (fun n => { s with jsl := { s.jsl with silence := some (s.now + sclk (2 ^ 16)), crTot := [f.crCsr, f.crBulk, f.crEvent, f.crRecord], rxSeq := (s.jsl.rxSeq + n) % 256, ack := (s.jsl.rxSeq + n + 255) % 256, ackV := true, replayReq := none, replayDeadline := none, crRet := (List.range n).foldl (fun r _ => bump256 r (jqClass f)) s.jsl.crRet }, ctr := amod s.ctr ctrJslRx {} (fun c => c.add n) })) ∧ (a = taken 1) ∧ (afind s.jsl.sessions f.sid = some x) ∧ (x.via = none) ∧ (f.prot = true) ∧ (x.ctrRx + 1 < 2 ^ 32) ∧ (f.tagOk = true) ∧ (a2 = { a with jsl := { a.jsl with sessions := aset a.jsl.sessions f.sid { x with ctrRx := x.ctrRx + 1 } } }) ∧ (count < 256) ∧ (tag < 65536) ∧ (addr < 2 ^ 40) ∧ (f.ftype = 1) ∧ (f.mclass = 0) ∧ (f.sid ≠ 0) ∧ (0 < count) ∧ (count ≤ 248) ∧ (readWords (x.who f.sid) count addr a2 = (ws, st, a3))) ∧
    (∃ (s : State) (a : State) (f : JqFrame) (taken : Nat → State) (x : _) (a2 : _) (count : _) (tag : _) (addr : _) (words : List Word32) (n : _) (st : _) (a3 : _), (f.wf = true) ∧ (s.jsl.lst = 4) ∧ (f.crcOk = true) ∧ (f.rsv = 0) ∧ (f.ackV = false) ∧ (f.fseq = s.jsl.rxSeq) ∧ (f.tnode = 0xFFFF) ∧ (s.jsl.relayWait = []) ∧ (taken = (fun n => { s with jsl := { s.jsl with silence := some (s.now + sclk (2 ^ 16)), crTot := [f.crCsr, f.crBulk, f.crEvent, f.crRecord], rxSeq := (s.jsl.rxSeq + n) % 256, ack := (s.jsl.rxSeq + n + 255) % 256, ackV := true, replayReq := none, replayDeadline := none, crRet := (List.range n).foldl (fun r _ => bump256 r (jqClass f)) s.jsl.crRet }, ctr := amod s.ctr ctrJslRx {} (fun c => c.add n) })) ∧ (a = taken 1) ∧ (afind s.jsl.sessions f.sid = some x) ∧ (x.via = none) ∧ (f.prot = true) ∧ (x.ctrRx + 1 < 2 ^ 32) ∧ (f.tagOk = true) ∧ (a2 = { a with jsl := { a.jsl with sessions := aset a.jsl.sessions f.sid { x with ctrRx := x.ctrRx + 1 } } }) ∧ (count < 256) ∧ (tag < 65536) ∧ (addr < 2 ^ 40) ∧ (f.ftype = 1) ∧ (f.mclass = 0) ∧ (f.sid ≠ 0) ∧ (0 < count) ∧ (count ≤ 248) ∧ (count ≤ words.length) ∧ (writeWords (x.who f.sid) (words.take count) addr 0 a2 = (n, st, a3))) ∧
    (∃ (s : State) (a : State) (f : JqFrame) (taken : Nat → State) (x : _) (a2 : _) (kind : _) (xfer : _) (total : _) (st : Status), (f.wf = true) ∧ (s.jsl.lst = 4) ∧ (f.crcOk = true) ∧ (f.rsv = 0) ∧ (f.ackV = false) ∧ (f.fseq = s.jsl.rxSeq) ∧ (f.tnode = 0xFFFF) ∧ (s.jsl.relayWait = []) ∧ (taken = (fun n => { s with jsl := { s.jsl with silence := some (s.now + sclk (2 ^ 16)), crTot := [f.crCsr, f.crBulk, f.crEvent, f.crRecord], rxSeq := (s.jsl.rxSeq + n) % 256, ack := (s.jsl.rxSeq + n + 255) % 256, ackV := true, replayReq := none, replayDeadline := none, crRet := (List.range n).foldl (fun r _ => bump256 r (jqClass f)) s.jsl.crRet }, ctr := amod s.ctr ctrJslRx {} (fun c => c.add n) })) ∧ (a = taken 1) ∧ (afind s.jsl.sessions f.sid = some x) ∧ (x.via = none) ∧ (f.prot = true) ∧ (x.ctrRx + 1 < 2 ^ 32) ∧ (f.tagOk = true) ∧ (a2 = { a with jsl := { a.jsl with sessions := aset a.jsl.sessions f.sid { x with ctrRx := x.ctrRx + 1 } } }) ∧ (kind < 256) ∧ (xfer < 65536) ∧ (total < 2 ^ 32) ∧ (f.ftype = 1) ∧ (f.mclass = 1) ∧ (s.t3Up = true) ∧ (st = (if x.role ≠ 1 ∨ 1 < kind ∨ 2 ^ 30 < total ∨ ahas s.jsl.bulks (f.sid * 65536 + xfer) = true ∨ (x.claim = true ∧ kind ≠ 0) then .denied else if 4 ≤ s.jsl.bulks.length ∨ s.jsl.closing = true then .nackRetry else .ok))) ∧
    (∃ (s : State) (a : State) (f : JqFrame) (taken : Nat → State) (x : _) (a2 : _) (xfer : _) (off : _), (f.wf = true) ∧ (s.jsl.lst = 4) ∧ (f.crcOk = true) ∧ (f.rsv = 0) ∧ (f.ackV = false) ∧ (f.fseq = s.jsl.rxSeq) ∧ (f.tnode = 0xFFFF) ∧ (s.jsl.relayWait = []) ∧ (taken = (fun n => { s with jsl := { s.jsl with silence := some (s.now + sclk (2 ^ 16)), crTot := [f.crCsr, f.crBulk, f.crEvent, f.crRecord], rxSeq := (s.jsl.rxSeq + n) % 256, ack := (s.jsl.rxSeq + n + 255) % 256, ackV := true, replayReq := none, replayDeadline := none, crRet := (List.range n).foldl (fun r _ => bump256 r (jqClass f)) s.jsl.crRet }, ctr := amod s.ctr ctrJslRx {} (fun c => c.add n) })) ∧ (a = taken 1) ∧ (afind s.jsl.sessions f.sid = some x) ∧ (x.via = none) ∧ (f.prot = true) ∧ (x.ctrRx + 1 < 2 ^ 32) ∧ (f.tagOk = true) ∧ (a2 = { a with jsl := { a.jsl with sessions := aset a.jsl.sessions f.sid { x with ctrRx := x.ctrRx + 1 } } }) ∧ (xfer < 65536) ∧ (off < 2 ^ 32) ∧ (f.ftype = 1) ∧ (f.mclass = 1) ∧ (afind s.jsl.bulks (f.sid * 65536 + xfer) = none)) ∧
    (∃ (s : State) (a : State) (f : JqFrame) (taken : Nat → State) (x : _) (a2 : _) (xfer : _) (off : _) (data : List Byte) (b : _), (f.wf = true) ∧ (s.jsl.lst = 4) ∧ (f.crcOk = true) ∧ (f.rsv = 0) ∧ (f.ackV = false) ∧ (f.fseq = s.jsl.rxSeq) ∧ (f.tnode = 0xFFFF) ∧ (s.jsl.relayWait = []) ∧ (taken = (fun n => { s with jsl := { s.jsl with silence := some (s.now + sclk (2 ^ 16)), crTot := [f.crCsr, f.crBulk, f.crEvent, f.crRecord], rxSeq := (s.jsl.rxSeq + n) % 256, ack := (s.jsl.rxSeq + n + 255) % 256, ackV := true, replayReq := none, replayDeadline := none, crRet := (List.range n).foldl (fun r _ => bump256 r (jqClass f)) s.jsl.crRet }, ctr := amod s.ctr ctrJslRx {} (fun c => c.add n) })) ∧ (a = taken 1) ∧ (afind s.jsl.sessions f.sid = some x) ∧ (x.via = none) ∧ (f.prot = true) ∧ (x.ctrRx + 1 < 2 ^ 32) ∧ (f.tagOk = true) ∧ (a2 = { a with jsl := { a.jsl with sessions := aset a.jsl.sessions f.sid { x with ctrRx := x.ctrRx + 1 } } }) ∧ (xfer < 65536) ∧ (off < 2 ^ 32) ∧ (f.ftype = 1) ∧ (f.mclass = 1) ∧ (afind s.jsl.bulks (f.sid * 65536 + xfer) = some b) ∧ (b.total < off + data.length)) ∧
    (∃ (s : State) (a : State) (f : JqFrame) (taken : Nat → State) (x : _) (a2 : _) (xfer : _) (off : _) (data : List Byte) (b : _), (f.wf = true) ∧ (s.jsl.lst = 4) ∧ (f.crcOk = true) ∧ (f.rsv = 0) ∧ (f.ackV = false) ∧ (f.fseq = s.jsl.rxSeq) ∧ (f.tnode = 0xFFFF) ∧ (s.jsl.relayWait = []) ∧ (taken = (fun n => { s with jsl := { s.jsl with silence := some (s.now + sclk (2 ^ 16)), crTot := [f.crCsr, f.crBulk, f.crEvent, f.crRecord], rxSeq := (s.jsl.rxSeq + n) % 256, ack := (s.jsl.rxSeq + n + 255) % 256, ackV := true, replayReq := none, replayDeadline := none, crRet := (List.range n).foldl (fun r _ => bump256 r (jqClass f)) s.jsl.crRet }, ctr := amod s.ctr ctrJslRx {} (fun c => c.add n) })) ∧ (a = taken 1) ∧ (afind s.jsl.sessions f.sid = some x) ∧ (x.via = none) ∧ (f.prot = true) ∧ (x.ctrRx + 1 < 2 ^ 32) ∧ (f.tagOk = true) ∧ (a2 = { a with jsl := { a.jsl with sessions := aset a.jsl.sessions f.sid { x with ctrRx := x.ctrRx + 1 } } }) ∧ (xfer < 65536) ∧ (off < 2 ^ 32) ∧ (f.ftype = 1) ∧ (f.mclass = 1) ∧ (afind s.jsl.bulks (f.sid * 65536 + xfer) = some b) ∧ (off + data.length ≤ b.total)) :=
  ⟨⟨(wSess {} [] : State), (wJA (wSess {} []) ({ wFr 0 with ftype := 5 }) : State), ({ wFr 0 with ftype := 5 } : JqFrame), (wTaken (wSess {} []) ({ wFr 0 with ftype := 5 }) : Nat → State), {}, by refine ⟨?_, ?_, ?_, ?_, ?_, ?_, ?_, ?_, ?_, ?_, ?_, ?_, ?_, ?_, ?_, ?_⟩ <;> first | decide +kernel | rfl | (unfold canRetire hasBudget; decide +kernel) | (unfold hasBudget; decide +kernel) | simp⟩,
  ⟨(wSess {} [] : State), (wJA (wSess {} []) (wFr 0) : State), (wFr 0 : JqFrame), (wTaken (wSess {} []) (wFr 0) : Nat → State), {}, wJA2 (wJA (wSess {} []) (wFr 0)) (wFr 0) ({}), 249, 65535, 65536, by refine ⟨?_, ?_, ?_, ?_, ?_, ?_, ?_, ?_, ?_, ?_, ?_, ?_, ?_, ?_, ?_, ?_, ?_, ?_, ?_, ?_, ?_, ?_, ?_⟩ <;> first | decide +kernel | rfl | (unfold canRetire hasBudget; decide +kernel) | (unfold hasBudget; decide +kernel) | simp⟩,
  ⟨(wSess {} [] : State), (wJA (wSess {} []) (wFr 0) : State), (wFr 0 : JqFrame), (wTaken (wSess {} []) (wFr 0) : Nat → State), {}, wJA2 (wJA (wSess {} []) (wFr 0)) (wFr 0) ({}), 248, 65535, 65536, (readWords (({} : Session).who 1) 248 65536 (wJA2 (wJA (wSess {} []) (wFr 0)) (wFr 0) ({}))).1, (readWords (({} : Session).who 1) 248 65536 (wJA2 (wJA (wSess {} []) (wFr 0)) (wFr 0) ({}))).2.1, (readWords (({} : Session).who 1) 248 65536 (wJA2 (wJA (wSess {} []) (wFr 0)) (wFr 0) ({}))).2.2, by refine ⟨?_, ?_, ?_, ?_, ?_, ?_, ?_, ?_, ?_, ?_, ?_, ?_, ?_, ?_, ?_, ?_, ?_, ?_, ?_, ?_, ?_, ?_, ?_, ?_, ?_⟩ <;> first | decide +kernel | rfl | (unfold canRetire hasBudget; decide +kernel) | (unfold hasBudget; decide +kernel) | simp⟩,
  ⟨(wSess {} [] : State), (wJA (wSess {} []) (wFr 0) : State), (wFr 0 : JqFrame), (wTaken (wSess {} []) (wFr 0) : Nat → State), {}, wJA2 (wJA (wSess {} []) (wFr 0)) (wFr 0) ({}), 1, 65535, 65536, ([0] : List Word32), (writeWords (({} : Session).who 1) [0] 65536 0 (wJA2 (wJA (wSess {} []) (wFr 0)) (wFr 0) ({}))).1, (writeWords (({} : Session).who 1) [0] 65536 0 (wJA2 (wJA (wSess {} []) (wFr 0)) (wFr 0) ({}))).2.1, (writeWords (({} : Session).who 1) [0] 65536 0 (wJA2 (wJA (wSess {} []) (wFr 0)) (wFr 0) ({}))).2.2, by refine ⟨?_, ?_, ?_, ?_, ?_, ?_, ?_, ?_, ?_, ?_, ?_, ?_, ?_, ?_, ?_, ?_, ?_, ?_, ?_, ?_, ?_, ?_, ?_, ?_, ?_, ?_⟩ <;> first | decide +kernel | rfl | (unfold canRetire hasBudget; decide +kernel) | (unfold hasBudget; decide +kernel) | simp⟩,
  ⟨(wSess ({ role := 1 }) [] : State), (wJA (wSess ({ role := 1 }) []) (wFr 1) : State), (wFr 1 : JqFrame), (wTaken (wSess ({ role := 1 }) []) (wFr 1) : Nat → State), { role := 1 }, wJA2 (wJA (wSess ({ role := 1 }) []) (wFr 1)) (wFr 1) ({ role := 1 }), 1, 65535, 1073741824, .ok, by refine ⟨?_, ?_, ?_, ?_, ?_, ?_, ?_, ?_, ?_, ?_, ?_, ?_, ?_, ?_, ?_, ?_, ?_, ?_, ?_, ?_, ?_, ?_, ?_⟩ <;> first | decide +kernel | rfl | (unfold canRetire hasBudget; decide +kernel) | (unfold hasBudget; decide +kernel) | simp⟩,
  ⟨(wSess ({ role := 1 }) [] : State), (wJA (wSess ({ role := 1 }) []) (wFr 1) : State), (wFr 1 : JqFrame), (wTaken (wSess ({ role := 1 }) []) (wFr 1) : Nat → State), { role := 1 }, wJA2 (wJA (wSess ({ role := 1 }) []) (wFr 1)) (wFr 1) ({ role := 1 }), 65535, 0, by refine ⟨?_, ?_, ?_, ?_, ?_, ?_, ?_, ?_, ?_, ?_, ?_, ?_, ?_, ?_, ?_, ?_, ?_, ?_, ?_, ?_, ?_⟩ <;> first | decide +kernel | rfl | (unfold canRetire hasBudget; decide +kernel) | (unfold hasBudget; decide +kernel) | simp⟩,
  ⟨(wSess ({ role := 1 }) [(131071, ({ sid := 1, total := 3 }))] : State), (wJA (wSess ({ role := 1 }) [(131071, ({ sid := 1, total := 3 }))]) (wFr 1) : State), (wFr 1 : JqFrame), (wTaken (wSess ({ role := 1 }) [(131071, ({ sid := 1, total := 3 }))]) (wFr 1) : Nat → State), { role := 1 }, wJA2 (wJA (wSess ({ role := 1 }) [(131071, ({ sid := 1, total := 3 }))]) (wFr 1)) (wFr 1) ({ role := 1 }), 65535, 0, ([1, 2, 3, 4] : List Byte), { sid := 1, total := 3 }, by refine ⟨?_, ?_, ?_, ?_, ?_, ?_, ?_, ?_, ?_, ?_, ?_, ?_, ?_, ?_, ?_, ?_, ?_, ?_, ?_, ?_, ?_, ?_⟩ <;> first | decide +kernel | rfl | (unfold canRetire hasBudget; decide +kernel) | (unfold hasBudget; decide +kernel) | simp⟩,
  ⟨(wSess ({ role := 1 }) [(131071, ({ sid := 1, total := 3 }))] : State), (wJA (wSess ({ role := 1 }) [(131071, ({ sid := 1, total := 3 }))]) (wFr 1) : State), (wFr 1 : JqFrame), (wTaken (wSess ({ role := 1 }) [(131071, ({ sid := 1, total := 3 }))]) (wFr 1) : Nat → State), { role := 1 }, wJA2 (wJA (wSess ({ role := 1 }) [(131071, ({ sid := 1, total := 3 }))]) (wFr 1)) (wFr 1) ({ role := 1 }), 65535, 0, ([1, 2, 3] : List Byte), { sid := 1, total := 3 }, by refine ⟨?_, ?_, ?_, ?_, ?_, ?_, ?_, ?_, ?_, ?_, ?_, ?_, ?_, ?_, ?_, ?_, ?_, ?_, ?_, ?_, ?_, ?_⟩ <;> first | decide +kernel | rfl | (unfold canRetire hasBudget; decide +kernel) | (unfold hasBudget; decide +kernel) | simp⟩⟩

theorem test_wit_JaesqueSessions_3 :
    (∃ (s : State) (a : State) (f : JqFrame) (taken : Nat → State) (x : _) (a2 : _) (xfer : _) (off : _) (dg : List Byte) (b : _), (f.wf = true) ∧ (s.jsl.lst = 4) ∧ (f.crcOk = true) ∧ (f.rsv = 0) ∧ (f.ackV = false) ∧ (f.fseq = s.jsl.rxSeq) ∧ (f.tnode = 0xFFFF) ∧ (s.jsl.relayWait = []) ∧ (taken = (fun n => { s with jsl := { s.jsl with silence := some (s.now + sclk (2 ^ 16)), crTot := [f.crCsr, f.crBulk, f.crEvent, f.crRecord], rxSeq := (s.jsl.rxSeq + n) % 256, ack := (s.jsl.rxSeq + n + 255) % 256, ackV := true, replayReq := none, replayDeadline := none, crRet := (List.range n).foldl (fun r _ => bump256 r (jqClass f)) s.jsl.crRet }, ctr := amod s.ctr ctrJslRx {} (fun c => c.add n) })) ∧ (a = taken 1) ∧ (afind s.jsl.sessions f.sid = some x) ∧ (x.via = none) ∧ (f.prot = true) ∧ (x.ctrRx + 1 < 2 ^ 32) ∧ (f.tagOk = true) ∧ (a2 = { a with jsl := { a.jsl with sessions := aset a.jsl.sessions f.sid { x with ctrRx := x.ctrRx + 1 } } }) ∧ (xfer < 65536) ∧ (off < 2 ^ 32) ∧ (f.ftype = 1) ∧ (f.mclass = 1) ∧ (afind s.jsl.bulks (f.sid * 65536 + xfer) = some b) ∧ (b.whole = none ∨ (∃ o, b.whole = some o ∧ digest o ≠ dg))) ∧
    (∃ (s : State) (a : State) (f : JqFrame) (taken : Nat → State) (x : _) (a2 : _) (xfer : _) (off : _) (dg : List Byte) (b : _) (o : _), (f.wf = true) ∧ (s.jsl.lst = 4) ∧ (f.crcOk = true) ∧ (f.rsv = 0) ∧ (f.ackV = false) ∧ (f.fseq = s.jsl.rxSeq) ∧ (f.tnode = 0xFFFF) ∧ (s.jsl.relayWait = []) ∧ (taken = (fun n => { s with jsl := { s.jsl with silence := some (s.now + sclk (2 ^ 16)), crTot := [f.crCsr, f.crBulk, f.crEvent, f.crRecord], rxSeq := (s.jsl.rxSeq + n) % 256, ack := (s.jsl.rxSeq + n + 255) % 256, ackV := true, replayReq := none, replayDeadline := none, crRet := (List.range n).foldl (fun r _ => bump256 r (jqClass f)) s.jsl.crRet }, ctr := amod s.ctr ctrJslRx {} (fun c => c.add n) })) ∧ (a = taken 1) ∧ (afind s.jsl.sessions f.sid = some x) ∧ (x.via = none) ∧ (f.prot = true) ∧ (x.ctrRx + 1 < 2 ^ 32) ∧ (f.tagOk = true) ∧ (a2 = { a with jsl := { a.jsl with sessions := aset a.jsl.sessions f.sid { x with ctrRx := x.ctrRx + 1 } } }) ∧ (xfer < 65536) ∧ (off < 2 ^ 32) ∧ (f.ftype = 1) ∧ (f.mclass = 1) ∧ (afind s.jsl.bulks (f.sid * 65536 + xfer) = some b) ∧ (b.whole = some o) ∧ (digest o = dg) ∧ (b.kind = 0) ∧ (x.claim = false) ∧ (s.sec.claimed = true) ∧ (s.arch.cp ≠ .run)) ∧
    (∃ (s : State) (a : State) (f : JqFrame) (taken : Nat → State) (x : _) (a2 : _) (sev : _), (f.wf = true) ∧ (s.jsl.lst = 4) ∧ (f.crcOk = true) ∧ (f.rsv = 0) ∧ (f.ackV = false) ∧ (f.fseq = s.jsl.rxSeq) ∧ (f.tnode = 0xFFFF) ∧ (s.jsl.relayWait = []) ∧ (taken = (fun n => { s with jsl := { s.jsl with silence := some (s.now + sclk (2 ^ 16)), crTot := [f.crCsr, f.crBulk, f.crEvent, f.crRecord], rxSeq := (s.jsl.rxSeq + n) % 256, ack := (s.jsl.rxSeq + n + 255) % 256, ackV := true, replayReq := none, replayDeadline := none, crRet := (List.range n).foldl (fun r _ => bump256 r (jqClass f)) s.jsl.crRet }, ctr := amod s.ctr ctrJslRx {} (fun c => c.add n) })) ∧ (a = taken 1) ∧ (afind s.jsl.sessions f.sid = some x) ∧ (x.via = none) ∧ (f.prot = true) ∧ (x.ctrRx + 1 < 2 ^ 32) ∧ (f.tagOk = true) ∧ (a2 = { a with jsl := { a.jsl with sessions := aset a.jsl.sessions f.sid { x with ctrRx := x.ctrRx + 1 } } }) ∧ (sev < 16) ∧ (f.ftype = 1) ∧ (f.mclass = 2) ∧ (x.claim = true)) ∧
    (∃ (s : State) (a : State) (f : JqFrame) (taken : Nat → State) (x : _) (a2 : _) (sev : _), (f.wf = true) ∧ (s.jsl.lst = 4) ∧ (f.crcOk = true) ∧ (f.rsv = 0) ∧ (f.ackV = false) ∧ (f.fseq = s.jsl.rxSeq) ∧ (f.tnode = 0xFFFF) ∧ (s.jsl.relayWait = []) ∧ (taken = (fun n => { s with jsl := { s.jsl with silence := some (s.now + sclk (2 ^ 16)), crTot := [f.crCsr, f.crBulk, f.crEvent, f.crRecord], rxSeq := (s.jsl.rxSeq + n) % 256, ack := (s.jsl.rxSeq + n + 255) % 256, ackV := true, replayReq := none, replayDeadline := none, crRet := (List.range n).foldl (fun r _ => bump256 r (jqClass f)) s.jsl.crRet }, ctr := amod s.ctr ctrJslRx {} (fun c => c.add n) })) ∧ (a = taken 1) ∧ (afind s.jsl.sessions f.sid = some x) ∧ (x.via = none) ∧ (f.prot = true) ∧ (x.ctrRx + 1 < 2 ^ 32) ∧ (f.tagOk = true) ∧ (a2 = { a with jsl := { a.jsl with sessions := aset a.jsl.sessions f.sid { x with ctrRx := x.ctrRx + 1 } } }) ∧ (sev < 16) ∧ (f.ftype = 1) ∧ (f.mclass = 2) ∧ (x.claim = false)) ∧
    (∃ (s : State) (a : State) (f : JqFrame) (taken : Nat → State) (x : _) (a2 : _) (g : _) (wtag : _), (f.wf = true) ∧ (s.jsl.lst = 4) ∧ (f.crcOk = true) ∧ (f.rsv = 0) ∧ (f.ackV = false) ∧ (f.fseq = s.jsl.rxSeq) ∧ (f.tnode = 0xFFFF) ∧ (s.jsl.relayWait = []) ∧ (taken = (fun n => { s with jsl := { s.jsl with silence := some (s.now + sclk (2 ^ 16)), crTot := [f.crCsr, f.crBulk, f.crEvent, f.crRecord], rxSeq := (s.jsl.rxSeq + n) % 256, ack := (s.jsl.rxSeq + n + 255) % 256, ackV := true, replayReq := none, replayDeadline := none, crRet := (List.range n).foldl (fun r _ => bump256 r (jqClass f)) s.jsl.crRet }, ctr := amod s.ctr ctrJslRx {} (fun c => c.add n) })) ∧ (a = taken 1) ∧ (afind s.jsl.sessions f.sid = some x) ∧ (x.via = none) ∧ (f.prot = true) ∧ (x.ctrRx + 1 < 2 ^ 32) ∧ (f.tagOk = true) ∧ (a2 = { a with jsl := { a.jsl with sessions := aset a.jsl.sessions f.sid { x with ctrRx := x.ctrRx + 1 } } }) ∧ (g < 64) ∧ (wtag < 2 ^ 64) ∧ (f.ftype = 1) ∧ (f.mclass = 3) ∧ (x.claim = true ∨ (x.role = 2 ∧ bit x.mask g = false) ∨ s.wdUp = false)) ∧
    (∃ (s : State) (a : State) (f : JqFrame) (taken : Nat → State) (x : _) (a2 : _) (g : _) (wtag : _), (f.wf = true) ∧ (s.jsl.lst = 4) ∧ (f.crcOk = true) ∧ (f.rsv = 0) ∧ (f.ackV = false) ∧ (f.fseq = s.jsl.rxSeq) ∧ (f.tnode = 0xFFFF) ∧ (s.jsl.relayWait = []) ∧ (taken = (fun n => { s with jsl := { s.jsl with silence := some (s.now + sclk (2 ^ 16)), crTot := [f.crCsr, f.crBulk, f.crEvent, f.crRecord], rxSeq := (s.jsl.rxSeq + n) % 256, ack := (s.jsl.rxSeq + n + 255) % 256, ackV := true, replayReq := none, replayDeadline := none, crRet := (List.range n).foldl (fun r _ => bump256 r (jqClass f)) s.jsl.crRet }, ctr := amod s.ctr ctrJslRx {} (fun c => c.add n) })) ∧ (a = taken 1) ∧ (afind s.jsl.sessions f.sid = some x) ∧ (x.via = none) ∧ (f.prot = true) ∧ (x.ctrRx + 1 < 2 ^ 32) ∧ (f.tagOk = true) ∧ (a2 = { a with jsl := { a.jsl with sessions := aset a.jsl.sessions f.sid { x with ctrRx := x.ctrRx + 1 } } }) ∧ (g < 64) ∧ (wtag < 2 ^ 64) ∧ (f.ftype = 1) ∧ (f.mclass = 3) ∧ (x.claim = false) ∧ (x.role ≠ 2 ∨ bit x.mask g = true) ∧ (s.wdUp = true) ∧ (g ≠ 63) ∧ (s.readWaits 0 g = true)) ∧
    (∃ (s : State) (a : State) (f : JqFrame) (taken : Nat → State) (x : _) (a2 : _) (g : _) (wtag : _), (f.wf = true) ∧ (s.jsl.lst = 4) ∧ (f.crcOk = true) ∧ (f.rsv = 0) ∧ (f.ackV = false) ∧ (f.fseq = s.jsl.rxSeq) ∧ (f.tnode = 0xFFFF) ∧ (s.jsl.relayWait = []) ∧ (taken = (fun n => { s with jsl := { s.jsl with silence := some (s.now + sclk (2 ^ 16)), crTot := [f.crCsr, f.crBulk, f.crEvent, f.crRecord], rxSeq := (s.jsl.rxSeq + n) % 256, ack := (s.jsl.rxSeq + n + 255) % 256, ackV := true, replayReq := none, replayDeadline := none, crRet := (List.range n).foldl (fun r _ => bump256 r (jqClass f)) s.jsl.crRet }, ctr := amod s.ctr ctrJslRx {} (fun c => c.add n) })) ∧ (a = taken 1) ∧ (afind s.jsl.sessions f.sid = some x) ∧ (x.via = none) ∧ (f.prot = true) ∧ (x.ctrRx + 1 < 2 ^ 32) ∧ (f.tagOk = true) ∧ (a2 = { a with jsl := { a.jsl with sessions := aset a.jsl.sessions f.sid { x with ctrRx := x.ctrRx + 1 } } }) ∧ (g < 64) ∧ (wtag < 2 ^ 64) ∧ (f.ftype = 1) ∧ (f.mclass = 3) ∧ (x.claim = false) ∧ (x.role ≠ 2 ∨ bit x.mask g = true) ∧ (s.wdUp = true) ∧ (g ≠ 63) ∧ (s.readWaits 0 g = false)) :=
  ⟨⟨(wSess ({ role := 1 }) [(131071, ({ sid := 1, total := 3 }))] : State), (wJA (wSess ({ role := 1 }) [(131071, ({ sid := 1, total := 3 }))]) (wFr 1) : State), (wFr 1 : JqFrame), (wTaken (wSess ({ role := 1 }) [(131071, ({ sid := 1, total := 3 }))]) (wFr 1) : Nat → State), { role := 1 }, wJA2 (wJA (wSess ({ role := 1 }) [(131071, ({ sid := 1, total := 3 }))]) (wFr 1)) (wFr 1) ({ role := 1 }), 65535, 0, ([] : List Byte), { sid := 1, total := 3 }, by refine ⟨?_, ?_, ?_, ?_, ?_, ?_, ?_, ?_, ?_, ?_, ?_, ?_, ?_, ?_, ?_, ?_, ?_, ?_, ?_, ?_, ?_, ?_⟩ <;> first | decide +kernel | rfl | (exact Or.inl (by decide +kernel)) | (unfold canRetire hasBudget; decide +kernel) | (unfold hasBudget; decide +kernel) | simp⟩,
  ⟨(wSess ({ role := 1 }) [(131071, ({ sid := 1 }))] : State), (wJA (wSess ({ role := 1 }) [(131071, ({ sid := 1 }))]) (wFr 1) : State), (wFr 1 : JqFrame), (wTaken (wSess ({ role := 1 }) [(131071, ({ sid := 1 }))]) (wFr 1) : Nat → State), { role := 1 }, wJA2 (wJA (wSess ({ role := 1 }) [(131071, ({ sid := 1 }))]) (wFr 1)) (wFr 1) ({ role := 1 }), 65535, 0, (digest [] : List Byte), { sid := 1 }, [], by refine ⟨?_, ?_, ?_, ?_, ?_, ?_, ?_, ?_, ?_, ?_, ?_, ?_, ?_, ?_, ?_, ?_, ?_, ?_, ?_, ?_, ?_, ?_, ?_, ?_, ?_, ?_, ?_⟩ <;> first | decide +kernel | rfl | (unfold canRetire hasBudget; decide +kernel) | (unfold hasBudget; decide +kernel) | simp⟩,
  ⟨(wSess ({ claim := true }) [] : State), (wJA (wSess ({ claim := true }) []) (wFr 2) : State), (wFr 2 : JqFrame), (wTaken (wSess ({ claim := true }) []) (wFr 2) : Nat → State), { claim := true }, wJA2 (wJA (wSess ({ claim := true }) []) (wFr 2)) (wFr 2) ({ claim := true }), 15, by refine ⟨?_, ?_, ?_, ?_, ?_, ?_, ?_, ?_, ?_, ?_, ?_, ?_, ?_, ?_, ?_, ?_, ?_, ?_, ?_, ?_⟩ <;> first | decide +kernel | rfl | (unfold canRetire hasBudget; decide +kernel) | (unfold hasBudget; decide +kernel) | simp⟩,
  ⟨(wSess ({}) [] : State), (wJA (wSess ({}) []) (wFr 2) : State), (wFr 2 : JqFrame), (wTaken (wSess ({}) []) (wFr 2) : Nat → State), {}, wJA2 (wJA (wSess ({}) []) (wFr 2)) (wFr 2) ({}), 15, by refine ⟨?_, ?_, ?_, ?_, ?_, ?_, ?_, ?_, ?_, ?_, ?_, ?_, ?_, ?_, ?_, ?_, ?_, ?_, ?_, ?_⟩ <;> first | decide +kernel | rfl | (unfold canRetire hasBudget; decide +kernel) | (unfold hasBudget; decide +kernel) | simp⟩,
  ⟨(wSess ({ role := 2 }) [] : State), (wJA (wSess ({ role := 2 }) []) (wFr 3) : State), (wFr 3 : JqFrame), (wTaken (wSess ({ role := 2 }) []) (wFr 3) : Nat → State), { role := 2 }, wJA2 (wJA (wSess ({ role := 2 }) []) (wFr 3)) (wFr 3) ({ role := 2 }), 63, 18446744073709551615, by refine ⟨?_, ?_, ?_, ?_, ?_, ?_, ?_, ?_, ?_, ?_, ?_, ?_, ?_, ?_, ?_, ?_, ?_, ?_, ?_, ?_, ?_⟩ <;> first | decide +kernel | rfl | (unfold canRetire hasBudget; decide +kernel) | (unfold hasBudget; decide +kernel) | simp⟩,
  ⟨({ wSess ({}) [] with wd := { started := true, lastRead := [((0, 0), 0)], ticks := 1023 }, img := { st := 2, cur := wImg [(tySAGMAP, wMap.set 0 11)] } } : State), (wJA ({ wSess ({}) [] with wd := { started := true, lastRead := [((0, 0), 0)], ticks := 1023 }, img := { st := 2, cur := wImg [(tySAGMAP, wMap.set 0 11)] } }) (wFr 3) : State), (wFr 3 : JqFrame), (wTaken ({ wSess ({}) [] with wd := { started := true, lastRead := [((0, 0), 0)], ticks := 1023 }, img := { st := 2, cur := wImg [(tySAGMAP, wMap.set 0 11)] } }) (wFr 3) : Nat → State), {}, wJA2 (wJA ({ wSess ({}) [] with wd := { started := true, lastRead := [((0, 0), 0)], ticks := 1023 }, img := { st := 2, cur := wImg [(tySAGMAP, wMap.set 0 11)] } }) (wFr 3)) (wFr 3) ({}), 0, 18446744073709551615, by refine ⟨?_, ?_, ?_, ?_, ?_, ?_, ?_, ?_, ?_, ?_, ?_, ?_, ?_, ?_, ?_, ?_, ?_, ?_, ?_, ?_, ?_, ?_, ?_, ?_, ?_⟩ <;> first | decide +kernel | rfl | (unfold canRetire hasBudget; decide +kernel) | (unfold hasBudget; decide +kernel) | simp⟩,
  ⟨(wSess ({}) [] : State), (wJA (wSess ({}) []) (wFr 3) : State), (wFr 3 : JqFrame), (wTaken (wSess ({}) []) (wFr 3) : Nat → State), {}, wJA2 (wJA (wSess ({}) []) (wFr 3)) (wFr 3) ({}), 0, 18446744073709551615, by refine ⟨?_, ?_, ?_, ?_, ?_, ?_, ?_, ?_, ?_, ?_, ?_, ?_, ?_, ?_, ?_, ?_, ?_, ?_, ?_, ?_, ?_, ?_, ?_, ?_, ?_⟩ <;> first | decide +kernel | rfl | (unfold canRetire hasBudget; decide +kernel) | (unfold hasBudget; decide +kernel) | simp⟩⟩

theorem test_wit_EpochExchange_1 :
    (∃ (s : State) (src : _) (e : _) (dg : List Byte) (fl : List Nat) (heard : _) (c : _), (src < 65536) ∧ (e < 65536) ∧ (heard = { s with img := { s.img with coordHeard := if src = s.img.coord then s.now else s.img.coordHeard, standbyHeard := if src = s.img.standby then s.now else s.img.standbyHeard } }) ∧ (src ≠ s.img.coord) ∧ (c ∈ [Instr.prepare src e dg fl, .commit src e, .abandon src e])) ∧
    (∃ (s : State) (src : _) (e : _) (dg : List Byte) (fl : List Nat) (heard : _) (c : _), (src < 65536) ∧ (e < 65536) ∧ (heard = { s with img := { s.img with coordHeard := if src = s.img.coord then s.now else s.img.coordHeard, standbyHeard := if src = s.img.standby then s.now else s.img.standbyHeard } }) ∧ (src = s.img.coord) ∧ (e ≠ (s.img.epoch + 1) % 65536) ∧ (c ∈ [Instr.prepare src e dg fl, .commit src e, .abandon src e])) ∧
    (∃ (s : State) (src : _) (e : _) (dg : List Byte) (fl : List Nat) (heard : _) (s0 : _), (src < 65536) ∧ (e < 65536) ∧ (heard = { s with img := { s.img with coordHeard := if src = s.img.coord then s.now else s.img.coordHeard, standbyHeard := if src = s.img.standby then s.now else s.img.standbyHeard } }) ∧ (src = s.img.coord) ∧ (e = (s.img.epoch + 1) % 65536) ∧ (s.img.isCoord = false) ∧ (s.aliasNodes = []) ∧ (src ≠ s.fab.node) ∧ (s0 = { heard with img := { heard.img with prepared := some e, prepDigest := dg, preparedFences := fl, readySent := false } }) ∧ (s0.canReady = true)) ∧
    (∃ (s : State) (src : _) (e : _) (dg : List Byte) (fl : List Nat) (heard : _) (s0 : _), (src < 65536) ∧ (e < 65536) ∧ (heard = { s with img := { s.img with coordHeard := if src = s.img.coord then s.now else s.img.coordHeard, standbyHeard := if src = s.img.standby then s.now else s.img.standbyHeard } }) ∧ (src = s.img.coord) ∧ (e = (s.img.epoch + 1) % 65536) ∧ (s.img.isCoord = false) ∧ (s.aliasNodes = []) ∧ (src ≠ s.fab.node) ∧ (s0 = { heard with img := { heard.img with prepared := some e, prepDigest := dg, preparedFences := fl, readySent := false } }) ∧ (s0.canReady = false)) ∧
    (∃ (s : State) (src : _) (e : _) (heard : _), (src < 65536) ∧ (e < 65536) ∧ (heard = { s with img := { s.img with coordHeard := if src = s.img.coord then s.now else s.img.coordHeard, standbyHeard := if src = s.img.standby then s.now else s.img.standbyHeard } }) ∧ (src = s.img.coord) ∧ (e = (s.img.epoch + 1) % 65536) ∧ (s.img.isCoord = false) ∧ (s.arch.cp = .restart)) ∧
    (∃ (s : State) (src : _) (e : _) (heard : _), (src < 65536) ∧ (e < 65536) ∧ (heard = { s with img := { s.img with coordHeard := if src = s.img.coord then s.now else s.img.coordHeard, standbyHeard := if src = s.img.standby then s.now else s.img.standbyHeard } }) ∧ (src = s.img.coord) ∧ (e = (s.img.epoch + 1) % 65536) ∧ (s.img.isCoord = false) ∧ (s.arch.cp ≠ .restart)) ∧
    (∃ (s : State) (src : _) (e : _) (heard : _), (src < 65536) ∧ (e < 65536) ∧ (heard = { s with img := { s.img with coordHeard := if src = s.img.coord then s.now else s.img.coordHeard, standbyHeard := if src = s.img.standby then s.now else s.img.standbyHeard } }) ∧ (s.img.isCoord = false ∨ e ≠ (s.img.epoch + 1) % 65536)) ∧
    (∃ (s : State) (src : _) (e : _) (heard : _) (rf : _), (src < 65536) ∧ (e < 65536) ∧ (heard = { s with img := { s.img with coordHeard := if src = s.img.coord then s.now else s.img.coordHeard, standbyHeard := if src = s.img.standby then s.now else s.img.standbyHeard } }) ∧ (s.img.isCoord = true) ∧ (e = (s.img.epoch + 1) % 65536) ∧ (s.img.preparing = some e) ∧ (s.img.prepared = some e) ∧ (s.arch.cp ≠ .restart) ∧ (s.img.queryOwed = false) ∧ (rf = (if s.img.readyFrom.contains src then s.img.readyFrom else s.img.readyFrom ++ [src])) ∧ (s.reachable.all rf.contains = true)) :=
  ⟨⟨(wEp { coord := 5, epoch := 65535 } : State), 65535, 0, ([] : List Byte), ([] : List Nat), wHeard (wEp { coord := 5, epoch := 65535 }) (65535), .prepare (65535) (0) ([]) ([]), by refine ⟨?_, ?_, ?_, ?_, ?_⟩ <;> first | decide +kernel | rfl | (unfold canRetire hasBudget; decide +kernel) | (unfold hasBudget; decide +kernel) | simp⟩,
  ⟨(wEp { coord := 5, epoch := 65535 } : State), 5, 65535, ([] : List Byte), ([] : List Nat), wHeard (wEp { coord := 5, epoch := 65535 }) (5), .commit (5) (65535), by refine ⟨?_, ?_, ?_, ?_, ?_, ?_⟩ <;> first | decide +kernel | rfl | (unfold canRetire hasBudget; decide +kernel) | (unfold hasBudget; decide +kernel) | simp⟩,
  ⟨(wEp { coord := 5, epoch := 65535 } : State), 5, 0, (zeros 32 : List Byte), ([] : List Nat), wHeard (wEp { coord := 5, epoch := 65535 }) (5), wEp { coord := 5, epoch := 65535, prepared := some 0, prepDigest := zeros 32 }, by refine ⟨?_, ?_, ?_, ?_, ?_, ?_, ?_, ?_, ?_, ?_⟩ <;> first | decide +kernel | rfl | (unfold canRetire hasBudget; decide +kernel) | (unfold hasBudget; decide +kernel) | simp⟩,
  ⟨(wEp { coord := 5, epoch := 65535 } : State), 5, 0, ([1] : List Byte), ([] : List Nat), wHeard (wEp { coord := 5, epoch := 65535 }) (5), wEp { coord := 5, epoch := 65535, prepared := some 0, prepDigest := [1] }, by refine ⟨?_, ?_, ?_, ?_, ?_, ?_, ?_, ?_, ?_, ?_⟩ <;> first | decide +kernel | rfl | (unfold canRetire hasBudget; decide +kernel) | (unfold hasBudget; decide +kernel) | simp⟩,
  ⟨({ wEp { coord := 5, epoch := 65535 } with arch := { cp := .restart } } : State), 5, 0, wHeard ({ wEp { coord := 5, epoch := 65535 } with arch := { cp := .restart } }) (5), by refine ⟨?_, ?_, ?_, ?_, ?_, ?_, ?_⟩ <;> first | decide +kernel | rfl | (unfold canRetire hasBudget; decide +kernel) | (unfold hasBudget; decide +kernel) | simp⟩,
  ⟨(wEp { coord := 5, epoch := 65535, shadow := some {}, prepDigest := digest [], prepared := some 0, st := 3 } : State), 5, 0, wHeard (wEp { coord := 5, epoch := 65535, shadow := some {}, prepDigest := digest [], prepared := some 0, st := 3 }) (5), by refine ⟨?_, ?_, ?_, ?_, ?_, ?_, ?_⟩ <;> first | decide +kernel | rfl | (unfold canRetire hasBudget; decide +kernel) | (unfold hasBudget; decide +kernel) | simp⟩,
  ⟨(wEp { coord := 5, epoch := 65535, shadow := some {}, prepDigest := digest [], prepared := some 0, st := 3 } : State), 65535, 65535, wHeard (wEp { coord := 5, epoch := 65535, shadow := some {}, prepDigest := digest [], prepared := some 0, st := 3 }) (65535), by refine ⟨?_, ?_, ?_, ?_⟩ <;> first | decide +kernel | rfl | (unfold canRetire hasBudget; decide +kernel) | (unfold hasBudget; decide +kernel) | simp⟩,
  ⟨(wEp { isCoord := true, coord := 0, epoch := 65534, preparing := some 65535, prepared := some 65535, readyFrom := [0, 3] } : State), 5, 65535, wHeard (wEp { isCoord := true, coord := 0, epoch := 65534, preparing := some 65535, prepared := some 65535, readyFrom := [0, 3] }) (5), [0, 3, 5], by refine ⟨?_, ?_, ?_, ?_, ?_, ?_, ?_, ?_, ?_, ?_, ?_⟩ <;> first | decide +kernel | rfl | (unfold canRetire hasBudget; decide +kernel) | (unfold hasBudget; decide +kernel) | simp⟩⟩

theorem test_wit_EpochExchange_2 :
    (∃ (s : State) (silent : _), (silent < 65536) ∧ (s.img.stageDeadline = none ∨ s.img.preparing = none ∨ s.reachable.contains silent = false ∨ s.img.readyFrom.contains silent = true)) ∧
    (∃ (s : State) (silent : _) (d : _) (e : _), (silent < 65536) ∧ (s.img.stageDeadline = some d) ∧ (s.img.preparing = some e) ∧ (s.reachable.contains silent = true) ∧ (s.img.readyFrom.contains silent = false)) ∧
    (∃ (s : State), s.img.prevEpoch = none ∨ s.img.quietDeadline = none ∨ (s.held.any fun b => s.isPrev b.pkt) = true) ∧
    (∃ (s : State) (e : _) (d : _), (s.img.prevEpoch = some e) ∧ (s.img.quietDeadline = some d) ∧ ((s.held.any fun b => s.isPrev b.pkt) = false) ∧ (s.img.isCoord = false)) ∧
    (∃ (s : State) (src : _) (e : _) (heard : _), (src < 65536) ∧ (e < 65536) ∧ (heard = { s with img := { s.img with coordHeard := if src = s.img.coord then s.now else s.img.coordHeard, standbyHeard := if src = s.img.standby then s.now else s.img.standbyHeard } }) ∧ (s.img.isCoord = false ∨ (e + 1) % 65536 ≠ s.img.epoch)) ∧
    (∃ (s : State) (src : _) (e : _) (got : _) (all : _) (heard : _), (src < 65536) ∧ (e < 65536) ∧ (heard = { s with img := { s.img with coordHeard := if src = s.img.coord then s.now else s.img.coordHeard, standbyHeard := if src = s.img.standby then s.now else s.img.standbyHeard } }) ∧ (s.img.isCoord = true) ∧ ((e + 1) % 65536 = s.img.epoch) ∧ (s.img.preparing = none) ∧ (s.img.prepared = none) ∧ (s.changeWaits = false) ∧ (got = (if s.img.drainedFrom.contains src then s.img.drainedFrom else s.img.drainedFrom ++ [src])) ∧ (all = (s.plofens.filter (fun n => !s.img.fences.contains n && !s.erc.lost.contains n)).all got.contains)) ∧
    (∃ (s : State), s.img.forceDeadline = none ∨ s.img.isCoord = false) ∧
    (∃ (s : State) (d : _), (s.img.forceDeadline = some d) ∧ (s.img.isCoord = true) ∧ (s.img.preparing = none) ∧ (s.img.prepared = none) ∧ (s.changeWaits = false)) :=
  ⟨⟨(wEp {} : State), 65535, by refine ⟨?_, ?_⟩ <;> first | decide +kernel | rfl | (unfold canRetire hasBudget; decide +kernel) | (unfold hasBudget; decide +kernel) | simp⟩,
  ⟨(wEp { isCoord := true, epoch := 65534, stageDeadline := some 9, preparing := some 65535, readyFrom := [0, 3] } : State), 5, 9, 65535, by refine ⟨?_, ?_, ?_, ?_, ?_⟩ <;> first | decide +kernel | rfl | (unfold canRetire hasBudget; decide +kernel) | (unfold hasBudget; decide +kernel) | simp⟩,
  ⟨(wEp {} : State), by first | decide +kernel | rfl | (unfold canRetire hasBudget; decide +kernel) | (unfold hasBudget; decide +kernel) | simp⟩,
  ⟨(wEp { prevEpoch := some 4, quietDeadline := some 9 } : State), 4, 9, by refine ⟨?_, ?_, ?_, ?_⟩ <;> first | decide +kernel | rfl | (unfold canRetire hasBudget; decide +kernel) | (unfold hasBudget; decide +kernel) | simp⟩,
  ⟨(wEp { isCoord := true, epoch := 1 } : State), 65535, 65535, wHeard (wEp { isCoord := true, epoch := 1 }) (65535), by refine ⟨?_, ?_, ?_, ?_⟩ <;> first | decide +kernel | rfl | (unfold canRetire hasBudget; decide +kernel) | (unfold hasBudget; decide +kernel) | simp⟩,
  ⟨(wEp { isCoord := true, epoch := 0, drainedFrom := [0, 3], forceDeadline := some 9 } : State), 5, 65535, [0, 3, 5], true, wHeard (wEp { isCoord := true, epoch := 0, drainedFrom := [0, 3], forceDeadline := some 9 }) (5), by refine ⟨?_, ?_, ?_, ?_, ?_, ?_, ?_, ?_, ?_, ?_⟩ <;> first | decide +kernel | rfl | (unfold canRetire hasBudget; decide +kernel) | (unfold hasBudget; decide +kernel) | simp⟩,
  ⟨(wEp {} : State), by first | decide +kernel | rfl | (unfold canRetire hasBudget; decide +kernel) | (unfold hasBudget; decide +kernel) | simp⟩,
  ⟨(wEp { isCoord := true, prevEpoch := some 4, forceDeadline := some 9 } : State), 9, by refine ⟨?_, ?_, ?_, ?_, ?_⟩ <;> first | decide +kernel | rfl | (unfold canRetire hasBudget; decide +kernel) | (unfold hasBudget; decide +kernel) | simp⟩⟩

theorem test_wit_EpochExchange_3 :
    (∃ (s : State) (who : Who), (who.wf = true) ∧ (s.csrGate who imgCtrl true = none) ∧ (who ≠ .control)) ∧
    (∃ (s : State) (who : Who), (who.wf = true) ∧ (s.csrGate who imgCtrl true = none) ∧ (who = .control) ∧ (s.img.preparing = none) ∧ (s.img.prepared = none) ∧ (s.changeWaits = false)) ∧
    (∃ (s : State) (who : Who), (who.wf = true) ∧ (s.csrGate who imgCtrl true = none) ∧ (who = .control) ∧ (s.img.st ≠ 3)) ∧
    (∃ (s : State) (who : Who), (who.wf = true) ∧ (s.csrGate who imgCtrl true = none) ∧ (who = .control) ∧ (s.img.st = 3)) :=
  ⟨⟨(wEp {} : State), .management, by refine ⟨?_, ?_, ?_⟩ <;> first | decide +kernel | rfl | (unfold canRetire hasBudget; decide +kernel) | (unfold hasBudget; decide +kernel) | simp⟩,
  ⟨(wEp {} : State), .control, by refine ⟨?_, ?_, ?_, ?_, ?_, ?_⟩ <;> first | decide +kernel | rfl | (unfold canRetire hasBudget; decide +kernel) | (unfold hasBudget; decide +kernel) | simp⟩,
  ⟨(wEp {} : State), .control, by refine ⟨?_, ?_, ?_, ?_⟩ <;> first | decide +kernel | rfl | (unfold canRetire hasBudget; decide +kernel) | (unfold hasBudget; decide +kernel) | simp⟩,
  ⟨(wEp { st := 3, shadow := some {} } : State), .control, by refine ⟨?_, ?_, ?_, ?_⟩ <;> first | decide +kernel | rfl | (unfold canRetire hasBudget; decide +kernel) | (unfold hasBudget; decide +kernel) | simp⟩⟩

theorem test_wit_EpochRoles_1 :
    (∃ (s : State), s.img.aliveDeadline = none ∨ s.img.isCoord = false ∨ s.img.queryOwed = true ∨ s.arch.cp = .restart) ∧
    (∃ (s : State) (d : _), (s.img.aliveDeadline = some d) ∧ (s.img.isCoord = true) ∧ (s.img.queryOwed = false) ∧ (s.arch.cp ≠ .restart)) ∧
    (∃ (s : State) (src : _), (src < 65536) ∧ (src = s.img.coord)) ∧
    (∃ (s : State) (src : _), (src < 65536) ∧ (src ≠ s.img.coord)) ∧
    (∃ (s : State), ¬ (s.img.standby = s.fab.node ∧ s.img.isCoord = false ∧ 2 ≤ s.img.st ∧ s.img.queryOwed = false)) ∧
    (∃ (s : State) (sb : _), (s.img.standby = s.fab.node) ∧ (s.img.isCoord = false) ∧ (2 ≤ s.img.st) ∧ (s.img.queryOwed = false) ∧ (sb = ((s.plofens.filter (fun n => n ≠ s.img.coord && !s.img.fences.contains n && !s.erc.lost.contains n)).filter (fun n => n ≠ s.fab.node)).foldl min 0xFFFF)) ∧
    (∃ (s : State) (reach : List Nat) (l : List Nat) (cond : _), (l = (s.fab.node :: reach).filter s.plofens.contains) ∧ (cond = (2 ≤ s.img.st ∧ s.img.isCoord = false ∧ s.img.standby ≠ s.fab.node ∧ s.img.queryOwed = false ∧ l.foldl min 0xFFFF = s.fab.node)) ∧ (¬ cond)) ∧
    (∃ (s : State) (reach : List Nat) (l : List Nat) (cond : _), (l = (s.fab.node :: reach).filter s.plofens.contains) ∧ (cond = (2 ≤ s.img.st ∧ s.img.isCoord = false ∧ s.img.standby ≠ s.fab.node ∧ s.img.queryOwed = false ∧ l.foldl min 0xFFFF = s.fab.node)) ∧ (cond)) :=
  ⟨⟨(wEp {} : State), by first | decide +kernel | rfl | (unfold canRetire hasBudget; decide +kernel) | (unfold hasBudget; decide +kernel) | simp⟩,
  ⟨(wEp { isCoord := true, aliveDeadline := some 9 } : State), 9, by refine ⟨?_, ?_, ?_, ?_⟩ <;> first | decide +kernel | rfl | (unfold canRetire hasBudget; decide +kernel) | (unfold hasBudget; decide +kernel) | simp⟩,
  ⟨(wEp { coord := 65535 } : State), 65535, by refine ⟨?_, ?_⟩ <;> first | decide +kernel | rfl | (unfold canRetire hasBudget; decide +kernel) | (unfold hasBudget; decide +kernel) | simp⟩,
  ⟨(wEp { coord := 65535 } : State), 5, by refine ⟨?_, ?_⟩ <;> first | decide +kernel | rfl | (unfold canRetire hasBudget; decide +kernel) | (unfold hasBudget; decide +kernel) | simp⟩,
  ⟨(wEp {} : State), by first | decide +kernel | rfl | (unfold canRetire hasBudget; decide +kernel) | (unfold hasBudget; decide +kernel) | simp⟩,
  ⟨(wEp { coord := 5, standby := 0, st := 2 } : State), 3, by refine ⟨?_, ?_, ?_, ?_, ?_⟩ <;> first | decide +kernel | rfl | (unfold canRetire hasBudget; decide +kernel) | (unfold hasBudget; decide +kernel) | simp⟩,
  ⟨(wEp {} : State), ([3, 5] : List Nat), ([0, 3, 5] : List Nat), (2 ≤ (wEp {}).img.st ∧ (wEp {}).img.isCoord = false ∧ (wEp {}).img.standby ≠ (wEp {}).fab.node ∧ (wEp {}).img.queryOwed = false ∧ List.foldl min 0xFFFF [0, 3, 5] = (wEp {}).fab.node), by refine ⟨?_, ?_, ?_⟩ <;> first | decide +kernel | rfl | (unfold canRetire hasBudget; decide +kernel) | (unfold hasBudget; decide +kernel) | simp⟩,
  ⟨(wEp { st := 2, standby := 3, coord := 5 } : State), ([3, 5] : List Nat), ([0, 3, 5] : List Nat), (2 ≤ (wEp { st := 2, standby := 3, coord := 5 }).img.st ∧ (wEp { st := 2, standby := 3, coord := 5 }).img.isCoord = false ∧ (wEp { st := 2, standby := 3, coord := 5 }).img.standby ≠ (wEp { st := 2, standby := 3, coord := 5 }).fab.node ∧ (wEp { st := 2, standby := 3, coord := 5 }).img.queryOwed = false ∧ List.foldl min 0xFFFF [0, 3, 5] = (wEp { st := 2, standby := 3, coord := 5 }).fab.node), by refine ⟨?_, ?_, ?_⟩ <;> first | decide +kernel | rfl | (unfold canRetire hasBudget; decide +kernel) | (unfold hasBudget; decide +kernel) | simp⟩⟩

theorem test_wit_EpochRoles_2 :
    (∃ (s : State) (src : _) (claimant : _) (e : _) (sb : _), (src < 65536) ∧ (claimant < 65536) ∧ (e < 65536) ∧ (sb < 65536) ∧ (claimant = s.fab.node) ∧ (s.img.isCoord = true)) ∧
    (∃ (s : State) (src : _) (claimant : _) (e : _) (sb : _), (src < 65536) ∧ (claimant < 65536) ∧ (e < 65536) ∧ (sb < 65536) ∧ (¬ (claimant = s.fab.node ∧ s.img.isCoord = true))) ∧
    (∃ (s : State) (nb : _) (answer : _), (nb < 65536) ∧ (answer < 65536) ∧ (s.img.queryOwed = false ∨ s.arch.cp = .restart)) ∧
    (∃ (s : State) (nb : _) (answer : _), (nb < 65536) ∧ (answer < 65536) ∧ (s.img.queryOwed = true) ∧ (s.arch.cp ≠ .restart)) ∧
    (∃ (s : State) (file : List Byte) (im : Image), (im = (parseImage file).1) ∧ (s.arch.cp ≠ .run)) ∧
    (∃ (s : State) (file : List Byte) (im : Image), (im = (parseImage file).1) ∧ (s.arch.cp = .run) ∧ (im.kind = 0) ∧ (s.img.st ≠ 0)) ∧
    (∃ (s : State) (file : List Byte) (src : ImageSource) (im : Image) (cause : _) (st : _), (im = (parseImage file).1) ∧ (s.arch.cp = .run) ∧ (im.kind ≠ 0 ∨ s.img.st = 0) ∧ (s.imageRefusal file src = some (cause, st))) ∧
    (Config.falconVerify [] (imgMessage wImHdr wImDir) (zeros 1280) = true → ∃ (s : State) (file : List Byte) (src : ImageSource) (im : Image), (im = (parseImage file).1) ∧ (s.arch.cp = .run) ∧ (im.kind ≠ 0 ∨ s.img.st = 0) ∧ (s.imageRefusal file src = none)) :=
  ⟨⟨(wEp { isCoord := true } : State), 65535, 0, 65535, 65535, by refine ⟨?_, ?_, ?_, ?_, ?_, ?_⟩ <;> first | decide +kernel | rfl | (unfold canRetire hasBudget; decide +kernel) | (unfold hasBudget; decide +kernel) | simp⟩,
  ⟨(wEp { epoch := 1 } : State), 65535, 65535, 65535, 65535, by refine ⟨?_, ?_, ?_, ?_, ?_⟩ <;> first | decide +kernel | rfl | (unfold canRetire hasBudget; decide +kernel) | (unfold hasBudget; decide +kernel) | simp⟩,
  ⟨(wEp {} : State), 65535, 65535, by refine ⟨?_, ?_, ?_⟩ <;> first | decide +kernel | rfl | (unfold canRetire hasBudget; decide +kernel) | (unfold hasBudget; decide +kernel) | simp⟩,
  ⟨(wEp { queryOwed := true } : State), 65535, 65535, by refine ⟨?_, ?_, ?_, ?_⟩ <;> first | decide +kernel | rfl | (unfold canRetire hasBudget; decide +kernel) | (unfold hasBudget; decide +kernel) | simp⟩,
  ⟨({} : State), ([] : List Byte), ((parseImage []).1 : Image), by refine ⟨?_, ?_⟩ <;> first | decide +kernel | rfl | (unfold canRetire hasBudget; decide +kernel) | (unfold hasBudget; decide +kernel) | simp⟩,
  ⟨(wEp { st := 2 } : State), ([] : List Byte), ((parseImage []).1 : Image), by refine ⟨?_, ?_, ?_, ?_⟩ <;> first | decide +kernel | rfl | (unfold canRetire hasBudget; decide +kernel) | (unfold hasBudget; decide +kernel) | simp⟩,
  ⟨(wEp {} : State), ([] : List Byte), .bulk, ((parseImage []).1 : Image), 1, .denied, by refine ⟨?_, ?_, ?_, ?_⟩ <;> first | decide +kernel | rfl | (unfold canRetire hasBudget; decide +kernel) | (unfold hasBudget; decide +kernel) | simp⟩,
  fun h => ⟨wImSt, wImFile, .bulk, ((parseImage wImFile).1 : Image), by refine ⟨rfl, by decide +kernel, Or.inl (by decide +kernel), test_wI_a9 h⟩ <;> first | decide +kernel | rfl | (unfold canRetire hasBudget; decide +kernel) | (unfold hasBudget; decide +kernel) | simp⟩⟩

theorem test_wit_EpochRoles_3 :
    (∃ (s : State) (who : Who), (who.wf = true) ∧ (s.csrGate who imgCtrl true = none) ∧ (s.img.st = 3)) ∧
    (∃ (s : State) (who : Who), (who.wf = true) ∧ (s.csrGate who imgCtrl true = none) ∧ (s.img.st ≠ 3) ∧ (s.img.st ≠ 2 ∨ 5 * 2 ^ 20 < s.img.cur.size)) ∧
    (∃ (s : State) (who : Who) (m : _), (who.wf = true) ∧ (s.csrGate who imgCtrl true = none) ∧ (s.img.st = 2) ∧ (s.img.cur.size ≤ 5 * 2 ^ 20) ∧ (m = { s.img with storeFail := false, storing := some (s.img.cur, s.storedRegs), st := 4 }) ∧ (s.flm.st ≠ 3) ∧ (s.flm.st ≠ 4)) ∧
    (∃ (s : State) (who : Who) (m : _), (who.wf = true) ∧ (s.csrGate who imgCtrl true = none) ∧ (s.img.st = 2) ∧ (s.img.cur.size ≤ 5 * 2 ^ 20) ∧ (m = { s.img with storeFail := false, storing := some (s.img.cur, s.storedRegs), st := 4 }) ∧ (s.flm.st = 3 ∨ s.flm.st = 4)) ∧
    (∃ (s : State), s.img.storing = none) ∧
    (∃ (s : State) (c : _), s.img.storing = some c) :=
  ⟨⟨(wEp { st := 3 } : State), .control, by refine ⟨?_, ?_, ?_⟩ <;> first | decide +kernel | rfl | (unfold canRetire hasBudget; decide +kernel) | (unfold hasBudget; decide +kernel) | simp⟩,
  ⟨(wEp {} : State), .control, by refine ⟨?_, ?_, ?_, ?_⟩ <;> first | decide +kernel | rfl | (unfold canRetire hasBudget; decide +kernel) | (unfold hasBudget; decide +kernel) | simp⟩,
  ⟨(wEp { st := 2 } : State), .control, { (wEp { st := 2 }).img with storeFail := false, storing := some ((wEp { st := 2 }).img.cur, (wEp { st := 2 }).storedRegs), st := 4 }, by refine ⟨?_, ?_, ?_, ?_, ?_, ?_, ?_⟩ <;> first | decide +kernel | rfl | (unfold canRetire hasBudget; decide +kernel) | (unfold hasBudget; decide +kernel) | simp⟩,
  ⟨({ wEp { st := 2 } with flm := { st := 4 } } : State), .control, { (wEp { st := 2 }).img with storeFail := false, storing := some ((wEp { st := 2 }).img.cur, (wEp { st := 2 }).storedRegs), st := 4 }, by refine ⟨?_, ?_, ?_, ?_, ?_, ?_⟩ <;> first | decide +kernel | rfl | (unfold canRetire hasBudget; decide +kernel) | (unfold hasBudget; decide +kernel) | simp⟩,
  ⟨(wEp {} : State), by first | decide +kernel | rfl | (unfold canRetire hasBudget; decide +kernel) | (unfold hasBudget; decide +kernel) | simp⟩,
  ⟨(wEp { storing := some ({}, []) } : State), ({}, []), by first | decide +kernel | rfl | (unfold canRetire hasBudget; decide +kernel) | (unfold hasBudget; decide +kernel) | simp⟩⟩

theorem test_wit_KeysAndChanges_1 :
    (∃ (s : State) (who : Who) (g : _) (a : _) (x : _) (c : _), (who.wf = true) ∧ (g < 64) ∧ (a = sagPage g + 4) ∧ (s.csrGate who a true = none) ∧ (x = aget s.sag g {}) ∧ (s.holdsKeySlot who g = false) ∧ (c ∈ [Instr.attest who g, .keyLoad who g, .keyErase who g])) ∧
    (∃ (s : State) (who : Who) (g : _) (a : _) (x : _) (c : _), (who.wf = true) ∧ (g < 64) ∧ (a = sagPage g + 4) ∧ (s.csrGate who a true = none) ∧ (x = aget s.sag g {}) ∧ (s.holdsKeySlot who g = true) ∧ (s.arch.mp = .restart) ∧ (c ∈ [Instr.attest who g, .keyLoad who g, .keyErase who g])) ∧
    (∃ (s : State) (who : Who) (g : _) (a : _) (x : _), (who.wf = true) ∧ (g < 64) ∧ (a = sagPage g + 4) ∧ (s.csrGate who a true = none) ∧ (x = aget s.sag g {}) ∧ (s.holdsKeySlot who g = true) ∧ (s.arch.mp ≠ .restart) ∧ ((∀ d, x.ephemeralDeadline = some d → s.now ≤ d))) ∧
    (∃ (s : State) (who : Who) (g : _) (a : _) (x : _) (d : _), (who.wf = true) ∧ (g < 64) ∧ (a = sagPage g + 4) ∧ (s.csrGate who a true = none) ∧ (x = aget s.sag g {}) ∧ (s.holdsKeySlot who g = true) ∧ (s.arch.mp ≠ .restart) ∧ (x.ephemeralDeadline = some d) ∧ (d < s.now)) ∧
    (∃ (s : State) (g : _) (x : _), (g < 64) ∧ (x = aget s.sag g {}) ∧ (x.attesting = false ∨ s.arch.mp = .restart)) ∧
    (∃ (s : State) (g : _) (x : _) (kp : _) (body : _), (g < 64) ∧ (x = aget s.sag g {}) ∧ (x.attesting = true) ∧ (s.arch.mp ≠ .restart) ∧ (kp = Config.mlkemKeyGen ((List.range 64).map (fun i => Config.random (s.sec.draws + i)))) ∧ (body = s.evidence g (sub x.window 0 32) kp.1)) ∧
    (∃ (s : State) (g : _) (x : _), (g < 64) ∧ (x = aget s.sag g {}) ∧ (x.loading = false ∨ s.arch.mp = .restart)) ∧
    (({ loading := true, ephemeral := some [] } : SagSec).releasedKey = some [7] → ∃ (s : State) (g : _) (x : _) (k : _), (g < 64) ∧ (x = aget s.sag g {}) ∧ (x.loading = true) ∧ (s.arch.mp ≠ .restart) ∧ (x.releasedKey = some k)) :=
  ⟨⟨({ wTen {} with jsl := { sessions := [(7, { role := 2, mask := 1 })] } } : State), (.tenant 7 : Who), 0, sagPage 0 + 4, {}, .attest (.tenant 7) 0, by refine ⟨?_, ?_, ?_, ?_, ?_, ?_, ?_⟩ <;> first | decide +kernel | rfl | (unfold canRetire hasBudget; decide +kernel) | (unfold hasBudget; decide +kernel) | simp⟩,
  ⟨({ wTen {} with arch := { cp := .run, mp := .restart } } : State), (.tenant 7 : Who), 63, sagPage 63 + 4, {}, .keyErase (.tenant 7) 63, by refine ⟨?_, ?_, ?_, ?_, ?_, ?_, ?_, ?_⟩ <;> first | decide +kernel | rfl | (unfold canRetire hasBudget; decide +kernel) | (unfold hasBudget; decide +kernel) | simp⟩,
  ⟨(wTen { ephemeralDeadline := some 0 } : State), (.tenant 7 : Who), 63, sagPage 63 + 4, { ephemeralDeadline := some 0 }, by refine ⟨?_, ?_, ?_, ?_, ?_, ?_, ?_, ?_⟩ <;> first | decide +kernel | rfl | (intro d h; cases h; decide) | (unfold canRetire hasBudget; decide +kernel) | (unfold hasBudget; decide +kernel) | simp⟩,
  ⟨({ wTen { ephemeralDeadline := some 8 } with now := 9 } : State), (.tenant 7 : Who), 63, sagPage 63 + 4, { ephemeralDeadline := some 8 }, 8, by refine ⟨?_, ?_, ?_, ?_, ?_, ?_, ?_, ?_, ?_⟩ <;> first | decide +kernel | rfl | (unfold canRetire hasBudget; decide +kernel) | (unfold hasBudget; decide +kernel) | simp⟩,
  ⟨(wTen {} : State), 63, {}, by refine ⟨?_, ?_, ?_⟩ <;> first | decide +kernel | rfl | (unfold canRetire hasBudget; decide +kernel) | (unfold hasBudget; decide +kernel) | simp⟩,
  ⟨(wTen ({ attesting := true }) : State), 63, { attesting := true }, Config.mlkemKeyGen ((List.range 64).map (fun i => Config.random ((wTen ({ attesting := true })).sec.draws + i))), (wTen ({ attesting := true })).evidence 63 (sub (List.replicate 0xE00 0) 0 32) (Config.mlkemKeyGen ((List.range 64).map (fun i => Config.random ((wTen ({ attesting := true })).sec.draws + i)))).1, by refine ⟨?_, ?_, ?_, ?_, ?_, ?_⟩ <;> first | decide +kernel | rfl | (unfold canRetire hasBudget; decide +kernel) | (unfold hasBudget; decide +kernel) | simp⟩,
  ⟨(wTen {} : State), 63, {}, by refine ⟨?_, ?_, ?_⟩ <;> first | decide +kernel | rfl | (unfold canRetire hasBudget; decide +kernel) | (unfold hasBudget; decide +kernel) | simp⟩,
  fun h => ⟨(wTen ({ loading := true, ephemeral := some [] }) : State), 63, { loading := true, ephemeral := some [] }, [7], by refine ⟨?_, ?_, ?_, ?_, h⟩ <;> first | decide +kernel | rfl | (unfold canRetire hasBudget; decide +kernel) | (unfold hasBudget; decide +kernel) | simp⟩⟩

theorem test_wit_KeysAndChanges_2 :
    (∃ (s : State) (g : _) (x : _), (g < 64) ∧ (x = aget s.sag g {}) ∧ (x.loading = true) ∧ (s.arch.mp ≠ .restart) ∧ (x.releasedKey = none)) ∧
    (∃ (s : State) (g : _) (x : _), (g < 64) ∧ (x = aget s.sag g {}) ∧ (x.ephemeralDeadline = none)) ∧
    (∃ (s : State) (g : _) (x : _) (d : _), (g < 64) ∧ (x = aget s.sag g {}) ∧ (x.ephemeralDeadline = some d) ∧ (x.loading = true)) ∧
    (∃ (s : State) (g : _) (x : _) (d : _), (g < 64) ∧ (x = aget s.sag g {}) ∧ (x.ephemeralDeadline = some d) ∧ (x.loading = false)) ∧
    (∃ (s : State) (who : Who) (op : _) (c : _) (r : _) (b : _) (cause : _), (who.wf = true) ∧ ((op, c) ∈ [(1, Instr.dcWrite who), (2, .logClear who), (3, .witnessFw who), (4, .release who)]) ∧ (r = s.sec.record) ∧ (b = s.sec.sigBlock) ∧ (cause = s.dcCause r b) ∧ (dcOp r ≠ op) ∧ (1 ≤ dcOp r) ∧ (dcOp r ≤ 4)) ∧
    (∃ (s : State) (who : Who) (op : _) (c : _) (r : _) (b : _) (cause : _), (who.wf = true) ∧ ((op, c) ∈ [(1, Instr.dcWrite who), (2, .logClear who), (3, .witnessFw who), (4, .release who)]) ∧ (r = s.sec.record) ∧ (b = s.sec.sigBlock) ∧ (cause = s.dcCause r b) ∧ (s.csrGate who 0x0040004 true = none) ∧ (cause ≠ 0) ∧ (dcOp r = op ∨ dcOp r = 0 ∨ 4 < dcOp r)) ∧
    (digest Config.deviceKey = zeros 32 ∧ Config.falconVerify [] (dcMessage wRec) (zeros 1280) = true ∧ Config.falconVerify [1] (dcMessage wRec) [] = true → ∃ (s : State) (who : Who) (op : _) (c : _) (r : _) (b : _) (cause : _), (who.wf = true) ∧ ((op, c) ∈ [(1, Instr.dcWrite who), (2, .logClear who), (3, .witnessFw who), (4, .release who)]) ∧ (r = s.sec.record) ∧ (b = s.sec.sigBlock) ∧ (cause = s.dcCause r b) ∧ (s.csrGate who 0x0040004 true = none) ∧ (cause = 0) ∧ (dcOp r = op) ∧ (s.sec.arb.length = 16)) ∧
    (∃ (s : State), s.sec.claimPin = true) :=
  ⟨⟨(wTen ({ loading := true }) : State), 63, { loading := true }, by refine ⟨?_, ?_, ?_, ?_, ?_⟩ <;> first | decide +kernel | rfl | (unfold canRetire hasBudget; decide +kernel) | (unfold hasBudget; decide +kernel) | simp⟩,
  ⟨(wTen ({}) : State), 63, {}, by refine ⟨?_, ?_, ?_⟩ <;> first | decide +kernel | rfl | (unfold canRetire hasBudget; decide +kernel) | (unfold hasBudget; decide +kernel) | simp⟩,
  ⟨(wTen ({ loading := true, ephemeralDeadline := some 9 }) : State), 63, { loading := true, ephemeralDeadline := some 9 }, 9, by refine ⟨?_, ?_, ?_, ?_⟩ <;> first | decide +kernel | rfl | (unfold canRetire hasBudget; decide +kernel) | (unfold hasBudget; decide +kernel) | simp⟩,
  ⟨(wTen ({ ephemeralDeadline := some 9 }) : State), 63, { ephemeralDeadline := some 9 }, 9, by refine ⟨?_, ?_, ?_, ?_⟩ <;> first | decide +kernel | rfl | (unfold canRetire hasBudget; decide +kernel) | (unfold hasBudget; decide +kernel) | simp⟩,
  ⟨({ wUp with sec := { record := natLe (2 * 2 ^ 48) 8 } } : State), .management, 1, .dcWrite .management, natLe (2 * 2 ^ 48) 8, zeros 4096, 1, by refine ⟨?_, ?_, ?_, ?_, ?_, ?_, ?_, ?_⟩ <;> first | decide +kernel | rfl | (unfold canRetire hasBudget; decide +kernel) | (unfold hasBudget; decide +kernel) | simp⟩,
  ⟨({ wUp with sec := { record := [] } } : State), .management, 1, .dcWrite .management, [], zeros 4096, 1, by refine ⟨?_, ?_, ?_, ?_, ?_, ?_, ?_, ?_⟩ <;> first | decide +kernel | rfl | (unfold canRetire hasBudget; decide +kernel) | (unfold hasBudget; decide +kernel) | simp⟩,
  fun h => ⟨wDc, .management, 2, .logClear .management, wRec, wBlk, 0, by refine ⟨?_, ?_, ?_, ?_, test_wDc h, ?_, ?_, ?_, ?_⟩ <;> first | decide +kernel | rfl | (unfold canRetire hasBudget; decide +kernel) | (unfold hasBudget; decide +kernel) | simp⟩,
  ⟨({ wUp with sec := { claimPin := true } } : State), by first | decide +kernel | rfl | (unfold canRetire hasBudget; decide +kernel) | (unfold hasBudget; decide +kernel) | simp⟩⟩

theorem test_wit_KeysAndChanges_3 :
    (∃ (s : State), (s.sec.claimPin = false) ∧ (s.sec.claimed = false)) ∧
    (∃ (s : State), (s.sec.claimPin = false) ∧ (s.sec.claimed = true)) :=
  ⟨⟨wUp, by refine ⟨?_, ?_⟩ <;> first | decide +kernel | rfl | (unfold canRetire hasBudget; decide +kernel) | (unfold hasBudget; decide +kernel) | simp⟩,
  ⟨({ wUp with sec := { claimed := true } } : State), by refine ⟨?_, ?_⟩ <;> first | decide +kernel | rfl | (unfold canRetire hasBudget; decide +kernel) | (unfold hasBudget; decide +kernel) | simp⟩⟩

theorem test_wit_Metering_1 :
    (∃ (s : State), s.log.up = false) ∧
    (∃ (s : State), (s.log.up = true) ∧ ((∀ g q, g < 64 → q < 3 → aget s.wit.totals (g, q) 0 = aget s.wit.sent (g, q) 0)) ∧ ((∀ g q, g < 64 → 3 ≤ q → q ≤ 6 → s.tapLevel g q = aget s.wit.sentLevels (g, q) 0))) ∧
    (∃ (s : State) (f : TapFrame) (c : _), (f.wf = true) ∧ (s.wdUp = false ∨ f.magic ≠ 0x5054 ∨ f.crcOk = false) ∧ (c ∈ [Instr.tapTotal f, .tapLevel f, .tapHeartbeat f, .tapPowerDown f])) ∧
    (∃ (s : State) (f : TapFrame) (c : _) (k : _), (f.wf = true) ∧ (s.wdUp = true) ∧ (f.magic = 0x5054) ∧ (f.crcOk = true) ∧ ((c, k) ∈ [(Instr.tapTotal f, 1), (.tapLevel f, 2), (.tapHeartbeat f, 3), (.tapPowerDown f, 4)]) ∧ (f.kind ≠ k)) ∧
    (∃ (s : State) (f : TapFrame) (c : _) (k : _), (f.wf = true) ∧ (s.wdUp = true) ∧ (f.magic = 0x5054) ∧ (f.crcOk = true) ∧ ((c, k) ∈ [(Instr.tapTotal f, 1), (.tapLevel f, 2), (.tapHeartbeat f, 3), (.tapPowerDown f, 4)]) ∧ (f.kind = k)) ∧
    (∃ (s : State) (f : TapFrame), (f.wf = true) ∧ (s.wdUp = false ∨ s.wd.orderly = true ∨ s.wd.tapLoss = true ∨ s.wd.ticks < s.wd.lastFrame + 32)) ∧
    (∃ (s : State) (f : TapFrame), (f.wf = true) ∧ (s.wdUp = true) ∧ (s.wd.orderly = false) ∧ (s.wd.tapLoss = false) ∧ (s.wd.lastFrame + 32 ≤ s.wd.ticks)) ∧
    (∃ (s : State), s.wdUp = false) :=
  ⟨⟨({} : State), by first | decide +kernel | rfl | (unfold canRetire hasBudget; decide +kernel) | (unfold hasBudget; decide +kernel) | simp⟩,
  ⟨wUp, by refine ⟨?_, fun g q _ _ => rfl, fun g q hg h1 h2 => (show ∀ g < 64, ∀ q < 7, wUp.tapLevel g q = 0 from by decide +kernel) g hg q (by omega)⟩ <;> first | decide +kernel | rfl | (unfold canRetire hasBudget; decide +kernel) | (unfold hasBudget; decide +kernel) | simp⟩,
  ⟨({} : State), ({ magic := 65535, kind := 255, saggar := 255, qty := 255, value := 18446744073709551615, tseq := 4294967295, sdBoot := 4294967295 } : TapFrame), .tapLevel ({ magic := 65535, kind := 255, saggar := 255, qty := 255, value := 18446744073709551615, tseq := 4294967295, sdBoot := 4294967295 }), by refine ⟨?_, ?_, ?_⟩ <;> first | decide +kernel | rfl | (unfold canRetire hasBudget; decide +kernel) | (unfold hasBudget; decide +kernel) | simp⟩,
  ⟨(wWd {} : State), ({ kind := 255 } : TapFrame), .tapLevel ({ kind := 255 }), 2, by refine ⟨?_, ?_, ?_, ?_, ?_, ?_⟩ <;> first | decide +kernel | rfl | (unfold canRetire hasBudget; decide +kernel) | (unfold hasBudget; decide +kernel) | simp⟩,
  ⟨(wWd {} : State), ({ kind := 4, saggar := 63, qty := 6 } : TapFrame), .tapPowerDown ({ kind := 4, saggar := 63, qty := 6 }), 4, by refine ⟨?_, ?_, ?_, ?_, ?_, ?_⟩ <;> first | decide +kernel | rfl | (unfold canRetire hasBudget; decide +kernel) | (unfold hasBudget; decide +kernel) | simp⟩,
  ⟨(wWd { ticks := 31 } : State), ({} : TapFrame), by refine ⟨?_, ?_⟩ <;> first | decide +kernel | rfl | (unfold canRetire hasBudget; decide +kernel) | (unfold hasBudget; decide +kernel) | simp⟩,
  ⟨(wWd { ticks := 32 } : State), ({} : TapFrame), by refine ⟨?_, ?_, ?_, ?_, ?_⟩ <;> first | decide +kernel | rfl | (unfold canRetire hasBudget; decide +kernel) | (unfold hasBudget; decide +kernel) | simp⟩,
  ⟨(({} : State) : State), by first | decide +kernel | rfl | (unfold canRetire hasBudget; decide +kernel) | (unfold hasBudget; decide +kernel) | simp⟩⟩

theorem test_wit_Metering_2 :
    (∃ (s : State), (s.wdUp = true) ∧ ((s.wd.levels.map (·.1)).Nodup)) ∧
    (∃ (s : State) (ok : _) (commits : State → Prop), (commits = (fun u => u.wd.ticksAt = s.wd.ticks ∧ u.wd.nvmFault = !ok ∧ u.wd.regs = s.wd.regs ∧ u.wd.installing = false ∧ u.wd.fwB = (s.wd.fwB != s.wd.installing) ∧ (s.wd.copies.length = 2 → u.wd.copies.getD s.wd.newer {} = s.wd.copies.getD s.wd.newer {} ∧ u.wd.copies.getD (1 - s.wd.newer) {} = { commit := (s.wd.copies.getD s.wd.newer {}).commit + 1, regs := s.wd.regs, ok := ok }))) ∧ (s.wdUp = false ∨ s.wd.ticks < s.wd.ticksAt + 32)) ∧
    (∃ (s : State) (ok : _) (commits : State → Prop), (commits = (fun u => u.wd.ticksAt = s.wd.ticks ∧ u.wd.nvmFault = !ok ∧ u.wd.regs = s.wd.regs ∧ u.wd.installing = false ∧ u.wd.fwB = (s.wd.fwB != s.wd.installing) ∧ (s.wd.copies.length = 2 → u.wd.copies.getD s.wd.newer {} = s.wd.copies.getD s.wd.newer {} ∧ u.wd.copies.getD (1 - s.wd.newer) {} = { commit := (s.wd.copies.getD s.wd.newer {}).commit + 1, regs := s.wd.regs, ok := ok }))) ∧ (s.wdUp = true) ∧ (s.wd.ticksAt + 32 ≤ s.wd.ticks)) ∧
    (∃ (s : State) (ok : _) (commits : State → Prop), (commits = (fun u => u.wd.ticksAt = s.wd.ticks ∧ u.wd.nvmFault = !ok ∧ u.wd.regs = s.wd.regs ∧ u.wd.installing = false ∧ u.wd.fwB = (s.wd.fwB != s.wd.installing) ∧ (s.wd.copies.length = 2 → u.wd.copies.getD s.wd.newer {} = s.wd.copies.getD s.wd.newer {} ∧ u.wd.copies.getD (1 - s.wd.newer) {} = { commit := (s.wd.copies.getD s.wd.newer {}).commit + 1, regs := s.wd.regs, ok := ok }))) ∧ (ok = true) ∧ (s.wdUp = true)) ∧
    (∃ (s : State) (ok : _) (commits : State → Prop), (commits = (fun u => u.wd.ticksAt = s.wd.ticks ∧ u.wd.nvmFault = !ok ∧ u.wd.regs = s.wd.regs ∧ u.wd.installing = false ∧ u.wd.fwB = (s.wd.fwB != s.wd.installing) ∧ (s.wd.copies.length = 2 → u.wd.copies.getD s.wd.newer {} = s.wd.copies.getD s.wd.newer {} ∧ u.wd.copies.getD (1 - s.wd.newer) {} = { commit := (s.wd.copies.getD s.wd.newer {}).commit + 1, regs := s.wd.regs, ok := ok }))) ∧ (ok = true) ∧ (s.wdUp = false)) ∧
    (∃ (s : State) (aOk : _) (bOk : _) (good : _), good = (fun b : Bool => if b then bOk && decide (s.wd.svnFloor ≤ s.wd.fwBcopy.svn) else aOk && decide (s.wd.svnFloor ≤ s.wd.fwA.svn))) ∧
    (∃ (s : State), (s.img.prepared = none) ∧ (s.img.preparing = none) ∧ (s.changeWaits = false) ∧ (s.wdUp = false)) ∧
    (Config.falconVerify [] (dcMessage wRec) [] = true ∧ Config.falconVerify [1] (dcMessage wRec) [] = true → ∃ (s : State) (c : WitnessChange) (w : _), (s.img.prepared = none) ∧ (s.img.preparing = none) ∧ (s.changeWaits = false) ∧ (s.wdUp = true) ∧ (s.wd.change c = some w)) :=
  ⟨⟨(wWd { levels := [((63, 6), 9)] } : State), by refine ⟨?_, ?_⟩ <;> first | decide +kernel | rfl | (unfold canRetire hasBudget; decide +kernel) | (unfold hasBudget; decide +kernel) | simp⟩,
  ⟨(wWd { ticks := 31 } : State), true, ((fun u => u.wd.ticksAt = (wWd { ticks := 31 }).wd.ticks ∧ u.wd.nvmFault = !(true) ∧ u.wd.regs = (wWd { ticks := 31 }).wd.regs ∧ u.wd.installing = false ∧ u.wd.fwB = ((wWd { ticks := 31 }).wd.fwB != (wWd { ticks := 31 }).wd.installing) ∧ ((wWd { ticks := 31 }).wd.copies.length = 2 → u.wd.copies.getD (wWd { ticks := 31 }).wd.newer {} = (wWd { ticks := 31 }).wd.copies.getD (wWd { ticks := 31 }).wd.newer {} ∧ u.wd.copies.getD (1 - (wWd { ticks := 31 }).wd.newer) {} = { commit := ((wWd { ticks := 31 }).wd.copies.getD (wWd { ticks := 31 }).wd.newer {}).commit + 1, regs := (wWd { ticks := 31 }).wd.regs, ok := (true) })) : State → Prop), by refine ⟨?_, ?_⟩ <;> first | decide +kernel | rfl | (unfold canRetire hasBudget; decide +kernel) | (unfold hasBudget; decide +kernel) | simp⟩,
  ⟨(wWd { ticks := 32 } : State), true, ((fun u => u.wd.ticksAt = (wWd { ticks := 32 }).wd.ticks ∧ u.wd.nvmFault = !(true) ∧ u.wd.regs = (wWd { ticks := 32 }).wd.regs ∧ u.wd.installing = false ∧ u.wd.fwB = ((wWd { ticks := 32 }).wd.fwB != (wWd { ticks := 32 }).wd.installing) ∧ ((wWd { ticks := 32 }).wd.copies.length = 2 → u.wd.copies.getD (wWd { ticks := 32 }).wd.newer {} = (wWd { ticks := 32 }).wd.copies.getD (wWd { ticks := 32 }).wd.newer {} ∧ u.wd.copies.getD (1 - (wWd { ticks := 32 }).wd.newer) {} = { commit := ((wWd { ticks := 32 }).wd.copies.getD (wWd { ticks := 32 }).wd.newer {}).commit + 1, regs := (wWd { ticks := 32 }).wd.regs, ok := (true) })) : State → Prop), by refine ⟨?_, ?_, ?_⟩ <;> first | decide +kernel | rfl | (unfold canRetire hasBudget; decide +kernel) | (unfold hasBudget; decide +kernel) | simp⟩,
  ⟨(wWd { ticks := 32 } : State), true, ((fun u => u.wd.ticksAt = (wWd { ticks := 32 }).wd.ticks ∧ u.wd.nvmFault = !(true) ∧ u.wd.regs = (wWd { ticks := 32 }).wd.regs ∧ u.wd.installing = false ∧ u.wd.fwB = ((wWd { ticks := 32 }).wd.fwB != (wWd { ticks := 32 }).wd.installing) ∧ ((wWd { ticks := 32 }).wd.copies.length = 2 → u.wd.copies.getD (wWd { ticks := 32 }).wd.newer {} = (wWd { ticks := 32 }).wd.copies.getD (wWd { ticks := 32 }).wd.newer {} ∧ u.wd.copies.getD (1 - (wWd { ticks := 32 }).wd.newer) {} = { commit := ((wWd { ticks := 32 }).wd.copies.getD (wWd { ticks := 32 }).wd.newer {}).commit + 1, regs := (wWd { ticks := 32 }).wd.regs, ok := (true) })) : State → Prop), by refine ⟨?_, ?_, ?_⟩ <;> first | decide +kernel | rfl | (unfold canRetire hasBudget; decide +kernel) | (unfold hasBudget; decide +kernel) | simp⟩,
  ⟨(({} : State) : State), true, ((fun u => u.wd.ticksAt = (({} : State)).wd.ticks ∧ u.wd.nvmFault = !(true) ∧ u.wd.regs = (({} : State)).wd.regs ∧ u.wd.installing = false ∧ u.wd.fwB = ((({} : State)).wd.fwB != (({} : State)).wd.installing) ∧ ((({} : State)).wd.copies.length = 2 → u.wd.copies.getD (({} : State)).wd.newer {} = (({} : State)).wd.copies.getD (({} : State)).wd.newer {} ∧ u.wd.copies.getD (1 - (({} : State)).wd.newer) {} = { commit := ((({} : State)).wd.copies.getD (({} : State)).wd.newer {}).commit + 1, regs := (({} : State)).wd.regs, ok := (true) })) : State → Prop), by refine ⟨?_, ?_, ?_⟩ <;> first | decide +kernel | rfl | (unfold canRetire hasBudget; decide +kernel) | (unfold hasBudget; decide +kernel) | simp⟩,
  ⟨(wWd {} : State), false, true, (fun b : Bool => if b then (true) && decide ((wWd {}).wd.svnFloor ≤ (wWd {}).wd.fwBcopy.svn) else (false) && decide ((wWd {}).wd.svnFloor ≤ (wWd {}).wd.fwA.svn)), by first | decide +kernel | rfl | (unfold canRetire hasBudget; decide +kernel) | (unfold hasBudget; decide +kernel) | simp⟩,
  ⟨({} : State), by refine ⟨?_, ?_, ?_, ?_⟩ <;> first | decide +kernel | rfl | (unfold canRetire hasBudget; decide +kernel) | (unfold hasBudget; decide +kernel) | simp⟩,
  fun h => ⟨(wWd wAuth : State), (.firmwareApproval wRec wApp : WitnessChange), { wAuth with started := true, approved := some ([], [0, 1]) }, by refine ⟨?_, ?_, ?_, ?_, test_wAppr h⟩ <;> first | decide +kernel | rfl | (unfold canRetire hasBudget; decide +kernel) | (unfold hasBudget; decide +kernel) | simp⟩⟩

theorem test_wit_Metering_3 :
    (∃ (s : State) (c : WitnessChange), (s.img.prepared = none) ∧ (s.img.preparing = none) ∧ (s.changeWaits = false) ∧ (s.wdUp = true) ∧ (s.wd.change c = none)) ∧
    (∃ (s : State) (pkg : List Byte), s.wdUp = false ∨ s.wd.approved = none ∨ s.wd.installing = true ∨ le pkg 8 8 < s.wd.svnFloor ∨ (∃ d sl, s.wd.approved = some (d, sl) ∧ digest pkg ≠ d)) ∧
    (∃ (s : State) (g : _) (tag : _) (ok : _), (g < 64) ∧ (tag < 2 ^ 64) ∧ (ok = false ∨ s.wdUp = false)) ∧
    (∃ (s : State) (g : _) (tag : _) (ok : _), (g < 64) ∧ (tag < 2 ^ 64) ∧ (ok = true) ∧ (s.wdUp = true) ∧ (g = 63)) ∧
    (∃ (s : State) (g : _) (tag : _) (ok : _), (g < 64) ∧ (tag < 2 ^ 64) ∧ (ok = true) ∧ (s.wdUp = true) ∧ (g ≠ 63) ∧ (s.readWaits 1 g = true)) ∧
    (∃ (s : State) (g : _) (tag : _) (ok : _), (g < 64) ∧ (tag < 2 ^ 64) ∧ (ok = true) ∧ (s.wdUp = true) ∧ (g ≠ 63) ∧ (s.readWaits 1 g = false)) ∧
    (∃ (s : State) (path : _), (path < 65536) ∧ (s.wd.held.find? (fun h => h.1 = path) = none)) ∧
    (∃ (s : State) (path : _) (h : _), (path < 65536) ∧ (s.wd.held.find? (fun h => h.1 = path) = some h) ∧ (s.readWaits path h.2.1 = true ∨ s.wdUp = false)) :=
  ⟨⟨(wWd {} : State), (.params [] [] [] [] : WitnessChange), by refine ⟨?_, ?_, ?_, ?_, ?_⟩ <;> first | decide +kernel | rfl | (unfold canRetire hasBudget; decide +kernel) | (unfold hasBudget; decide +kernel) | simp⟩,
  ⟨(wWd {} : State), ([] : List Byte), by first | decide +kernel | rfl | (exact Or.inr (Or.inl rfl)) | (unfold canRetire hasBudget; decide +kernel) | (unfold hasBudget; decide +kernel) | simp⟩,
  ⟨({} : State), 63, 18446744073709551615, true, by refine ⟨?_, ?_, ?_⟩ <;> first | decide +kernel | rfl | (unfold canRetire hasBudget; decide +kernel) | (unfold hasBudget; decide +kernel) | simp⟩,
  ⟨(wWd {} : State), 63, 18446744073709551615, true, by refine ⟨?_, ?_, ?_, ?_, ?_⟩ <;> first | decide +kernel | rfl | (unfold canRetire hasBudget; decide +kernel) | (unfold hasBudget; decide +kernel) | simp⟩,
  ⟨({ wWd { lastRead := [((1, 1), 0)], ticks := 1023 } with fab := { node := 0 }, img := { st := 2, cur := wImg [(tySAGMAP, zeros 576 ++ wMap.set 0 11)] } } : State), 1, 18446744073709551615, true, by refine ⟨?_, ?_, ?_, ?_, ?_, ?_⟩ <;> first | decide +kernel | rfl | (unfold canRetire hasBudget; decide +kernel) | (unfold hasBudget; decide +kernel) | simp⟩,
  ⟨(wWd {} : State), 62, 18446744073709551615, true, by refine ⟨?_, ?_, ?_, ?_, ?_, ?_⟩ <;> first | decide +kernel | rfl | (unfold canRetire hasBudget; decide +kernel) | (unfold hasBudget; decide +kernel) | simp⟩,
  ⟨(wWd {} : State), 65535, by refine ⟨?_, ?_⟩ <;> first | decide +kernel | rfl | (unfold canRetire hasBudget; decide +kernel) | (unfold hasBudget; decide +kernel) | simp⟩,
  ⟨({ wd := { held := [(1, 62, 7, 0)] } } : State), 1, (1, 62, 7, 0), by refine ⟨?_, ?_, ?_⟩ <;> first | decide +kernel | rfl | (unfold canRetire hasBudget; decide +kernel) | (unfold hasBudget; decide +kernel) | simp⟩⟩

theorem test_wit_Metering_4 :
    (∃ (s : State) (path : _) (h : _), (path < 65536) ∧ (s.wd.held.find? (fun h => h.1 = path) = some h) ∧ (s.readWaits path h.2.1 = false) ∧ (s.wdUp = true)) ∧
    (∃ (s : State), s.log.up = false ∨ s.wd.started = false) ∧
    (∃ (s : State), (s.log.up = true) ∧ (s.wd.started = true)) ∧
    (∃ (s : State), s.log.up = false ∨ s.wit.wdDown = true) ∧
    (∃ (s : State), (s.log.up = true) ∧ (s.wit.wdDown = false)) :=
  ⟨⟨(wWd { held := [(1, 62, 7, 0)] } : State), 1, (1, 62, 7, 0), by refine ⟨?_, ?_, ?_, ?_⟩ <;> first | decide +kernel | rfl | (unfold canRetire hasBudget; decide +kernel) | (unfold hasBudget; decide +kernel) | simp⟩,
  ⟨({} : State), by first | decide +kernel | rfl | (unfold canRetire hasBudget; decide +kernel) | (unfold hasBudget; decide +kernel) | simp⟩,
  ⟨({ wWd {} with wit := { wdDown := true } } : State), by refine ⟨?_, ?_⟩ <;> first | decide +kernel | rfl | (unfold canRetire hasBudget; decide +kernel) | (unfold hasBudget; decide +kernel) | simp⟩,
  ⟨({} : State), by first | decide +kernel | rfl | (unfold canRetire hasBudget; decide +kernel) | (unfold hasBudget; decide +kernel) | simp⟩,
  ⟨wUp, by refine ⟨?_, ?_⟩ <;> first | decide +kernel | rfl | (unfold canRetire hasBudget; decide +kernel) | (unfold hasBudget; decide +kernel) | simp⟩⟩

theorem test_wit_LossAndFirmware_1 :
    (∃ (s : State) (src : _) (heard : _), (src < 65536) ∧ (heard = { s with img := { s.img with coordHeard := if src = s.img.coord then s.now else s.img.coordHeard, standbyHeard := if src = s.img.standby then s.now else s.img.standbyHeard } }) ∧ (s.arch.cp = .run)) ∧
    (∃ (s : State) (src : _) (heard : _), (src < 65536) ∧ (heard = { s with img := { s.img with coordHeard := if src = s.img.coord then s.now else s.img.coordHeard, standbyHeard := if src = s.img.standby then s.now else s.img.standbyHeard } }) ∧ (s.arch.cp ≠ .run)) ∧
    (∃ (s : State) (src : _) (heard : _), (src < 65536) ∧ (heard = { s with img := { s.img with coordHeard := if src = s.img.coord then s.now else s.img.coordHeard, standbyHeard := if src = s.img.standby then s.now else s.img.standbyHeard } }) ∧ (s.img.isCoord = false)) ∧
    (∃ (s : State) (src : _) (heard : _), (src < 65536) ∧ (heard = { s with img := { s.img with coordHeard := if src = s.img.coord then s.now else s.img.coordHeard, standbyHeard := if src = s.img.standby then s.now else s.img.standbyHeard } }) ∧ (s.img.isCoord = true) ∧ (s.img.preparing = none) ∧ (s.img.prepared = none) ∧ (s.img.prevEpoch ≠ none)) ∧
    (∃ (s : State) (n : _), (n < 65536) ∧ (s.erc.lost.contains n = true)) ∧
    (∃ (s : State) (n : _), (n < 65536) ∧ (s.erc.lost.contains n = false) ∧ (s.img.isCoord = false)) ∧
    (∃ (s : State) (n : _), (n < 65536) ∧ (s.erc.lost.contains n = false) ∧ (s.img.isCoord = true) ∧ (s.img.preparing = none)) ∧
    (∃ (s : State) (n : _), (n < 65536) ∧ (afind s.erc.probes n = none)) :=
  ⟨⟨wUp, 65535, wHeard (wUp) (65535), by refine ⟨?_, ?_, ?_⟩ <;> first | decide +kernel | rfl | (unfold canRetire hasBudget; decide +kernel) | (unfold hasBudget; decide +kernel) | simp⟩,
  ⟨({} : State), 65535, wHeard ({}) (65535), by refine ⟨?_, ?_, ?_⟩ <;> first | decide +kernel | rfl | (unfold canRetire hasBudget; decide +kernel) | (unfold hasBudget; decide +kernel) | simp⟩,
  ⟨(wEp {} : State), 65535, wHeard (wEp {}) (65535), by refine ⟨?_, ?_, ?_⟩ <;> first | decide +kernel | rfl | (unfold canRetire hasBudget; decide +kernel) | (unfold hasBudget; decide +kernel) | simp⟩,
  ⟨(wEp { isCoord := true, prevEpoch := some 65535 } : State), 65535, wHeard (wEp { isCoord := true, prevEpoch := some 65535 }) (65535), by refine ⟨?_, ?_, ?_, ?_, ?_, ?_⟩ <;> first | decide +kernel | rfl | (unfold canRetire hasBudget; decide +kernel) | (unfold hasBudget; decide +kernel) | simp⟩,
  ⟨({ wEp {} with erc := { lost := [65535] } } : State), 65535, by refine ⟨?_, ?_⟩ <;> first | decide +kernel | rfl | (unfold canRetire hasBudget; decide +kernel) | (unfold hasBudget; decide +kernel) | simp⟩,
  ⟨(wEp {} : State), 5, by refine ⟨?_, ?_, ?_⟩ <;> first | decide +kernel | rfl | (unfold canRetire hasBudget; decide +kernel) | (unfold hasBudget; decide +kernel) | simp⟩,
  ⟨(wEp { isCoord := true } : State), 5, by refine ⟨?_, ?_, ?_, ?_⟩ <;> first | decide +kernel | rfl | (unfold canRetire hasBudget; decide +kernel) | (unfold hasBudget; decide +kernel) | simp⟩,
  ⟨(wEp {} : State), 5, by refine ⟨?_, ?_⟩ <;> first | decide +kernel | rfl | (unfold canRetire hasBudget; decide +kernel) | (unfold hasBudget; decide +kernel) | simp⟩⟩

theorem test_wit_LossAndFirmware_2 :
    (∃ (s : State) (n : _) (d : _), (n < 65536) ∧ (afind s.erc.probes n = some d)) ∧
    (∃ (s : State) (done : _), (done = (s.erc.admission = 3 ∧ (s.fitted capFLM = false ∨ s.flm.st = 3 ∨ s.flm.st = 4))) ∧ (¬ done)) ∧
    (∃ (s : State) (done : _), (done = (s.erc.admission = 3 ∧ (s.fitted capFLM = false ∨ s.flm.st = 3 ∨ s.flm.st = 4))) ∧ (done) ∧ (s.img.isCoord = false)) ∧
    (∃ (s : State) (who : Who) (k : _), (who.wf = true) ∧ (1 ≤ k) ∧ (k < 4) ∧ (s.csrGate who ercFwCtrl true = none) ∧ ((∀ i, who ≠ .operator i))) ∧
    (∃ (s : State) (who : Who) (k : _) (i : _), (who.wf = true) ∧ (1 ≤ k) ∧ (k < 4) ∧ (s.csrGate who ercFwCtrl true = none) ∧ (who = .operator i) ∧ (s.arch.mp = .restart)) ∧
    (∃ (s : State) (who : Who) (k : _) (i : _), (who.wf = true) ∧ (1 ≤ k) ∧ (k < 4) ∧ (s.csrGate who ercFwCtrl true = none) ∧ (who = .operator i) ∧ (s.arch.mp ≠ .restart) ∧ ((s.fw k).pending = false ∨ (s.fw k).switching = true)) ∧
    (∃ (s : State) (who : Who) (k : _) (i : _), (who.wf = true) ∧ (1 ≤ k) ∧ (k < 4) ∧ (s.csrGate who ercFwCtrl true = none) ∧ (who = .operator i) ∧ (s.arch.mp ≠ .restart) ∧ ((s.fw k).pending = true) ∧ ((s.fw k).switching = false) ∧ (k = 1 ∨ (k = 2 ∧ (List.range 64).any s.runsSteps = false))) ∧
    (∃ (s : State) (who : Who) (k : _) (i : _), (who.wf = true) ∧ (1 ≤ k) ∧ (k < 4) ∧ (s.csrGate who ercFwCtrl true = none) ∧ (who = .operator i) ∧ (s.arch.mp ≠ .restart) ∧ ((s.fw k).pending = true) ∧ ((s.fw k).switching = false) ∧ (k = 2) ∧ ((List.range 64).any s.runsSteps = true)) :=
  ⟨⟨({ wEp {} with erc := { probes := [(5, 9)] } } : State), 5, 9, by refine ⟨?_, ?_⟩ <;> first | decide +kernel | rfl | (unfold canRetire hasBudget; decide +kernel) | (unfold hasBudget; decide +kernel) | simp⟩,
  ⟨wUp, (wUp.erc.admission = 3 ∧ (wUp.fitted capFLM = false ∨ wUp.flm.st = 3 ∨ wUp.flm.st = 4)), by refine ⟨?_, ?_⟩ <;> first | decide +kernel | rfl | (unfold canRetire hasBudget; decide +kernel) | (unfold hasBudget; decide +kernel) | simp⟩,
  ⟨({ wUp with erc := { admission := 3 }, flm := { st := 4 } } : State), (({ wUp with erc := { admission := 3 }, flm := { st := 4 } }).erc.admission = 3 ∧ (({ wUp with erc := { admission := 3 }, flm := { st := 4 } }).fitted capFLM = false ∨ ({ wUp with erc := { admission := 3 }, flm := { st := 4 } }).flm.st = 3 ∨ ({ wUp with erc := { admission := 3 }, flm := { st := 4 } }).flm.st = 4)), by refine ⟨?_, ?_, ?_⟩ <;> first | decide +kernel | rfl | (unfold canRetire hasBudget; decide +kernel) | (unfold hasBudget; decide +kernel) | simp⟩,
  ⟨wUp, .control, 3, by refine ⟨?_, ?_, ?_, ?_, ?_⟩ <;> first | decide +kernel | rfl | (intro i h; cases h) | (unfold canRetire hasBudget; decide +kernel) | (unfold hasBudget; decide +kernel) | simp⟩,
  ⟨({ wUp with arch := { cp := .run, mp := .restart } } : State), (.operator 7 : Who), 3, 7, by refine ⟨?_, ?_, ?_, ?_, ?_, ?_⟩ <;> first | decide +kernel | rfl | (unfold canRetire hasBudget; decide +kernel) | (unfold hasBudget; decide +kernel) | simp⟩,
  ⟨wUp, (.operator 7 : Who), 1, 7, by refine ⟨?_, ?_, ?_, ?_, ?_, ?_, ?_⟩ <;> first | decide +kernel | rfl | (unfold canRetire hasBudget; decide +kernel) | (unfold hasBudget; decide +kernel) | simp⟩,
  ⟨(wFw 2 { pending := true } : State), (.operator 7 : Who), 2, 7, by refine ⟨?_, ?_, ?_, ?_, ?_, ?_, ?_, ?_, ?_⟩ <;> first | decide +kernel | rfl | (unfold canRetire hasBudget; decide +kernel) | (unfold hasBudget; decide +kernel) | simp⟩,
  ⟨({ wFw 2 { pending := true } with sit := [(63, { runs := true })] } : State), (.operator 7 : Who), 2, 7, by refine ⟨?_, ?_, ?_, ?_, ?_, ?_, ?_, ?_, ?_, ?_⟩ <;> first | decide +kernel | rfl | (unfold canRetire hasBudget; decide +kernel) | (unfold hasBudget; decide +kernel) | simp⟩⟩

theorem test_wit_LossAndFirmware_3 :
    (∃ (s : State) (who : Who) (k : _) (i : _), (who.wf = true) ∧ (1 ≤ k) ∧ (k < 4) ∧ (s.csrGate who ercFwCtrl true = none) ∧ (who = .operator i) ∧ (s.arch.mp ≠ .restart) ∧ ((s.fw k).pending = true) ∧ ((s.fw k).switching = false) ∧ (k = 3)) ∧
    (∃ (s : State) (who : Who) (k : _) (i : _), (who.wf = true) ∧ (1 ≤ k) ∧ (k < 4) ∧ (s.csrGate who ercFwCtrl true = none) ∧ (who = .operator i) ∧ (s.arch.mp ≠ .restart) ∧ ((s.fw k).switching = true)) ∧
    (∃ (s : State) (who : Who) (k : _) (i : _), (who.wf = true) ∧ (1 ≤ k) ∧ (k < 4) ∧ (s.csrGate who ercFwCtrl true = none) ∧ (who = .operator i) ∧ (s.arch.mp ≠ .restart) ∧ ((s.fw k).switching = false)) ∧
    (∃ (s : State) (k : _), (1 ≤ k) ∧ (k < 4) ∧ ((s.fw k).switching = false ∨ (s.fw k).deadline = none)) ∧
    (∃ (s : State) (k : _) (d : _), (1 ≤ k) ∧ (k < 4) ∧ ((s.fw k).switching = true) ∧ ((s.fw k).deadline = some d)) ∧
    (∃ (s : State) (who : Who) (d : _), (who.wf = true) ∧ (d < 4) ∧ (s.csrGate who 0x0070048 true = none) ∧ (liftsFence who = false)) ∧
    (∃ (s : State) (who : Who) (d : _), (who.wf = true) ∧ (d < 4) ∧ (s.csrGate who 0x0070048 true = none) ∧ (liftsFence who = true) ∧ (s.erc.adFenced.getD d false = false)) ∧
    (∃ (s : State) (who : Who) (d : _) (found : _), (who.wf = true) ∧ (d < 4) ∧ (s.csrGate who 0x0070048 true = none) ∧ (liftsFence who = true) ∧ (s.erc.adFenced.getD d false = true) ∧ (s.dieCleared d found = false)) :=
  ⟨⟨(wFw 3 { pending := true } : State), (.operator 7 : Who), 3, 7, by refine ⟨?_, ?_, ?_, ?_, ?_, ?_, ?_, ?_, ?_⟩ <;> first | decide +kernel | rfl | (unfold canRetire hasBudget; decide +kernel) | (unfold hasBudget; decide +kernel) | simp⟩,
  ⟨(wFw 3 { switching := true } : State), (.operator 7 : Who), 3, 7, by refine ⟨?_, ?_, ?_, ?_, ?_, ?_, ?_⟩ <;> first | decide +kernel | rfl | (unfold canRetire hasBudget; decide +kernel) | (unfold hasBudget; decide +kernel) | simp⟩,
  ⟨(wFw 3 {} : State), (.operator 7 : Who), 3, 7, by refine ⟨?_, ?_, ?_, ?_, ?_, ?_, ?_⟩ <;> first | decide +kernel | rfl | (unfold canRetire hasBudget; decide +kernel) | (unfold hasBudget; decide +kernel) | simp⟩,
  ⟨(wFw 3 { switching := true } : State), 3, by refine ⟨?_, ?_, ?_⟩ <;> first | decide +kernel | rfl | (unfold canRetire hasBudget; decide +kernel) | (unfold hasBudget; decide +kernel) | simp⟩,
  ⟨(wFw 3 { switching := true, deadline := some 9 } : State), 3, 9, by refine ⟨?_, ?_, ?_, ?_⟩ <;> first | decide +kernel | rfl | (unfold canRetire hasBudget; decide +kernel) | (unfold hasBudget; decide +kernel) | simp⟩,
  ⟨wUp, (.operator 7 : Who), 3, by refine ⟨?_, ?_, ?_, ?_⟩ <;> first | decide +kernel | rfl | (unfold canRetire hasBudget; decide +kernel) | (unfold hasBudget; decide +kernel) | simp⟩,
  ⟨wUp, .management, 3, by refine ⟨?_, ?_, ?_, ?_, ?_⟩ <;> first | decide +kernel | rfl | (unfold canRetire hasBudget; decide +kernel) | (unfold hasBudget; decide +kernel) | simp⟩,
  ⟨({ wUp with erc := { adFenced := [false, false, false, true], adSlack := [false, false, false, true] } } : State), .management, 3, true, by refine ⟨?_, ?_, ?_, ?_, ?_, ?_⟩ <;> first | decide +kernel | rfl | (unfold canRetire hasBudget; decide +kernel) | (unfold hasBudget; decide +kernel) | simp⟩⟩

theorem test_wit_LossAndFirmware_4 :
    (∃ (s : State) (who : Who) (d : _) (found : _), (who.wf = true) ∧ (d < 4) ∧ (s.csrGate who 0x0070048 true = none) ∧ (liftsFence who = true) ∧ (s.erc.adFenced.getD d false = true) ∧ (s.dieCleared d found = true)) ∧
    (∃ (s : State), s.arch.mp ≠ .run) ∧
    (∃ (s : State), (s.arch.mp = .run) ∧ (s.erc.adFenced.length = 4)) :=
  ⟨⟨({ wUp with erc := { adFenced := [false, false, false, true] } } : State), .management, 3, true, by refine ⟨?_, ?_, ?_, ?_, ?_, ?_⟩ <;> first | decide +kernel | rfl | (unfold canRetire hasBudget; decide +kernel) | (unfold hasBudget; decide +kernel) | simp⟩,
  ⟨({} : State), by first | decide +kernel | rfl | (unfold canRetire hasBudget; decide +kernel) | (unfold hasBudget; decide +kernel) | simp⟩,
  ⟨wUp, by refine ⟨?_, ?_⟩ <;> first | decide +kernel | rfl | (unfold canRetire hasBudget; decide +kernel) | (unfold hasBudget; decide +kernel) | simp⟩⟩

theorem test_wit_KilnLog_1 :
    (∃ (s : State) (code : _) (unit : _) (sag : _) (payload : _) (e : _), (s.log.up = true) ∧ (e = mkEntry code unit sag payload (eventPlane code) s)) ∧
    (∃ (s : State) (a : _) (b : _) (u : _) (x : _) (y : _), (s.log.fresh = [a, b]) ∧ (s.log.cycle = []) ∧ (s.log.firstN < 4094) ∧ (storedBefore b a = true) ∧ (s.bucketOf a.code a.sag ≠ s.bucketOf b.code b.sag) ∧ (aget s.log.taken (s.bucketOf a.code a.sag) 0 < eventLimit a.code) ∧ (aget s.log.taken (s.bucketOf b.code b.sag) 0 < eventLimit b.code) ∧ (u = carry (s.now + 60) s) ∧ (x = { b with suppressed := aget s.log.suppressed (s.bucketOf b.code b.sag) 0, lc := (s.arch.lc + 1) % 2 ^ 32, seq := s.log.head }) ∧ (y = { a with suppressed := aget s.log.suppressed (s.bucketOf a.code a.sag) 0, lc := ((s.arch.lc + 1) % 2 ^ 32 + 1) % 2 ^ 32, seq := (s.log.head + 1) % 2 ^ 32 })) ∧
    (∃ (s : State) (code : _) (unit : _) (sag : _) (payload : _) (k : _) (e : _) (u : _) (i : _), (s.log.up = true) ∧ (s.log.firstN ≠ 4095) ∧ ((s.satVal satLogSuppressed + 1 ≠ 2 ^ 16 - 1)) ∧ (s.log.fresh = []) ∧ (s.log.cycle = []) ∧ (k = s.bucketOf code sag) ∧ (e = mkEntry code unit sag payload (eventPlane code) s) ∧ (u = carry (s.now + 60) (logEvent code unit sag payload s)) ∧ (aget s.log.taken k 0 < eventLimit code) ∧ (i ≠ s.log.nextIndex)) ∧
    (∃ (s : State) (code : _) (unit : _) (sag : _) (payload : _) (k : _) (e : _) (u : _), (s.log.up = true) ∧ (s.log.firstN ≠ 4095) ∧ ((s.satVal satLogSuppressed + 1 ≠ 2 ^ 16 - 1)) ∧ (s.log.fresh = []) ∧ (s.log.cycle = []) ∧ (k = s.bucketOf code sag) ∧ (e = mkEntry code unit sag payload (eventPlane code) s) ∧ (u = carry (s.now + 60) (logEvent code unit sag payload s)) ∧ (aget s.log.taken k 0 < eventLimit code) ∧ (s.log.firstN < 4096)) ∧
    (∃ (s : State) (code : _) (unit : _) (sag : _) (payload : _) (k : _) (e : _) (u : _), (s.log.up = true) ∧ (s.log.firstN ≠ 4095) ∧ ((s.satVal satLogSuppressed + 1 ≠ 2 ^ 16 - 1)) ∧ (s.log.fresh = []) ∧ (s.log.cycle = []) ∧ (k = s.bucketOf code sag) ∧ (e = mkEntry code unit sag payload (eventPlane code) s) ∧ (u = carry (s.now + 60) (logEvent code unit sag payload s)) ∧ (aget s.log.taken k 0 < eventLimit code) ∧ (4096 ≤ s.log.firstN)) ∧
    (∃ (s : State) (code : _) (unit : _) (sag : _) (payload : _) (k : _) (e : _) (u : _), (s.log.up = true) ∧ (s.log.firstN ≠ 4095) ∧ ((s.satVal satLogSuppressed + 1 ≠ 2 ^ 16 - 1)) ∧ (s.log.fresh = []) ∧ (s.log.cycle = []) ∧ (k = s.bucketOf code sag) ∧ (e = mkEntry code unit sag payload (eventPlane code) s) ∧ (u = carry (s.now + 60) (logEvent code unit sag payload s)) ∧ (eventLimit code ≤ aget s.log.taken k 0)) ∧
    (∃ (s : State) (who : Who), (who.wf = true) ∧ (s.csrGate who 0x0050010 true = none) ∧ (s.arch.mp = .restart)) ∧
    (∃ (s : State) (who : Who), (who.wf = true) ∧ (s.csrGate who 0x0050010 true = none) ∧ (s.arch.mp ≠ .restart) ∧ (s.log.storeBusy = true)) :=
  ⟨⟨wUp, 0x0802, 65535, some 63, [], mkEntry 0x0802 65535 (some 63) [] (eventPlane 0x0802) wUp, by refine ⟨?_, ?_⟩ <;> first | decide +kernel | rfl | (unfold canRetire hasBudget; decide +kernel) | (unfold hasBudget; decide +kernel) | simp⟩,
  ⟨({ wUp with log := { up := true, fresh := [({ code := 0x0802, plane := .management }), ({ code := 0x0201, plane := .data })] } } : State), { code := 0x0802, plane := .management }, { code := 0x0201, plane := .data }, carry (0 + 60) ({ wUp with log := { up := true, fresh := [({ code := 0x0802, plane := .management }), ({ code := 0x0201, plane := .data })] } }), { code := 0x0201, plane := .data, lc := 1 }, { code := 0x0802, plane := .management, lc := 2, seq := 1 }, by refine ⟨?_, ?_, ?_, ?_, ?_, ?_, ?_, ?_, ?_, ?_⟩ <;> first | decide +kernel | rfl | (unfold canRetire hasBudget; decide +kernel) | (unfold hasBudget; decide +kernel) | simp⟩,
  ⟨wUp, 0x0802, 65535, some 63, [], wUp.bucketOf 0x0802 (some 63), mkEntry 0x0802 65535 (some 63) [] (eventPlane 0x0802) wUp, carry (wUp.now + 60) (logEvent 0x0802 65535 (some 63) [] wUp), 32767, by refine ⟨?_, ?_, ?_, ?_, ?_, ?_, ?_, ?_, ?_, ?_⟩ <;> first | decide +kernel | rfl | (unfold canRetire hasBudget; decide +kernel) | (unfold hasBudget; decide +kernel) | simp⟩,
  ⟨wUp, 0x0802, 65535, some 63, [], wUp.bucketOf 0x0802 (some 63), mkEntry 0x0802 65535 (some 63) [] (eventPlane 0x0802) wUp, carry (wUp.now + 60) (logEvent 0x0802 65535 (some 63) [] wUp), by refine ⟨?_, ?_, ?_, ?_, ?_, ?_, ?_, ?_, ?_, ?_⟩ <;> first | decide +kernel | rfl | (unfold canRetire hasBudget; decide +kernel) | (unfold hasBudget; decide +kernel) | simp⟩,
  ⟨({ wUp with log := { up := true, firstN := 4096, nextSlot := 32767 } } : State), 0x0802, 65535, some 63, [], ({ wUp with log := { up := true, firstN := 4096, nextSlot := 32767 } }).bucketOf 0x0802 (some 63), mkEntry 0x0802 65535 (some 63) [] (eventPlane 0x0802) ({ wUp with log := { up := true, firstN := 4096, nextSlot := 32767 } }), carry (0 + 60) (logEvent 0x0802 65535 (some 63) [] ({ wUp with log := { up := true, firstN := 4096, nextSlot := 32767 } })), by refine ⟨?_, ?_, ?_, ?_, ?_, ?_, ?_, ?_, ?_, ?_⟩ <;> first | decide +kernel | rfl | (unfold canRetire hasBudget; decide +kernel) | (unfold hasBudget; decide +kernel) | simp⟩,
  ⟨({ wUp with log := { up := true, taken := [(wUp.bucketOf 0x0802 (some 63), eventLimit 0x0802)] } } : State), 0x0802, 65535, some 63, [], ({ wUp with log := { up := true, taken := [(wUp.bucketOf 0x0802 (some 63), eventLimit 0x0802)] } }).bucketOf 0x0802 (some 63), mkEntry 0x0802 65535 (some 63) [] (eventPlane 0x0802) ({ wUp with log := { up := true, taken := [(wUp.bucketOf 0x0802 (some 63), eventLimit 0x0802)] } }), carry (0 + 60) (logEvent 0x0802 65535 (some 63) [] ({ wUp with log := { up := true, taken := [(wUp.bucketOf 0x0802 (some 63), eventLimit 0x0802)] } })), by refine ⟨?_, ?_, ?_, ?_, ?_, ?_, ?_, ?_, ?_⟩ <;> first | decide +kernel | rfl | (unfold canRetire hasBudget; decide +kernel) | (unfold hasBudget; decide +kernel) | simp⟩,
  ⟨({ wUp with arch := { cp := .run, mp := .restart } } : State), .management, by refine ⟨?_, ?_, ?_⟩ <;> first | decide +kernel | rfl | (unfold canRetire hasBudget; decide +kernel) | (unfold hasBudget; decide +kernel) | simp⟩,
  ⟨({ wUp with log := { up := true, storeBusy := true } } : State), .management, by refine ⟨?_, ?_, ?_, ?_⟩ <;> first | decide +kernel | rfl | (unfold canRetire hasBudget; decide +kernel) | (unfold hasBudget; decide +kernel) | simp⟩⟩

theorem test_wit_KilnLog_2 :
    (∃ (s : State) (who : Who), (who.wf = true) ∧ (s.csrGate who 0x0050010 true = none) ∧ (s.arch.mp ≠ .restart) ∧ (s.log.storeBusy = false)) ∧
    (∃ (s : State), s.log.storing = none) ∧
    (∃ (s : State) (c : _), s.log.storing = some c) ∧
    (∃ (s : State) (who : Who) (slot : _) (a : _), (who.wf = true) ∧ (slot < 32768) ∧ (a = 0x0051000 + slot % 64 * 64) ∧ (aget s.log.cur who 0 % 512 ≠ slot / 64)) ∧
    (∃ (s : State) (who : Who) (slot : _) (a : _), (who.wf = true) ∧ (slot < 32768) ∧ (a = 0x0051000 + slot % 64 * 64) ∧ (aget s.log.cur who 0 % 512 = slot / 64) ∧ (s.csrGate who a false = none) ∧ ((∀ x ∈ aget s.arch.latches who [], x.1 ≠ a))) :=
  ⟨⟨wUp, .management, by refine ⟨?_, ?_, ?_, ?_⟩ <;> first | decide +kernel | rfl | (unfold canRetire hasBudget; decide +kernel) | (unfold hasBudget; decide +kernel) | simp⟩,
  ⟨wUp, by first | decide +kernel | rfl | (unfold canRetire hasBudget; decide +kernel) | (unfold hasBudget; decide +kernel) | simp⟩,
  ⟨({ wUp with log := { up := true, storeBusy := true, storing := some {} } } : State), {}, by first | decide +kernel | rfl | (unfold canRetire hasBudget; decide +kernel) | (unfold hasBudget; decide +kernel) | simp⟩,
  ⟨wUp, .management, 32767, 0x0051FC0, by refine ⟨?_, ?_, ?_, ?_⟩ <;> first | decide +kernel | rfl | (unfold canRetire hasBudget; decide +kernel) | (unfold hasBudget; decide +kernel) | simp⟩,
  ⟨({ wUp with log := { up := true, cur := [(.management, 511)] } } : State), .management, 32767, 0x0051FC0, by refine ⟨?_, ?_, ?_, ?_, ?_, ?_⟩ <;> first | decide +kernel | rfl | (unfold canRetire hasBudget; decide +kernel) | (unfold hasBudget; decide +kernel) | simp⟩⟩

theorem test_wit_PowerOn_1 :
    (∃ (s : State), s.pkg.pgAon = false) ∧
    (∃ (s : State) (c : Instr) (rise : _), ((c = .pwrGoodAonRise ∧ rise = true) ∨ (c = .pwrGoodAonFall ∧ rise = false)) ∧ (s.pkg.pgAon = !rise)) ∧
    (∃ (s : State), (s.pkg.pgAon = true) ∧ (s.pkg.rootLock = false) ∧ ((s.pkg.aValid = true ∨ s.pkg.bValid = true))) ∧
    (∃ (s : State), s.pkg.pgAon = false ∨ s.pkg.rootLock = true ∨ (s.pkg.aValid = false ∧ s.pkg.bValid = false)) ∧
    (∃ (s : State), s.pkg.st ≠ 2 ∨ s.arch.mp ≠ .boot) ∧
    (∃ (s : State) (a : Bool) (b : Bool), (s.pkg.st = 2) ∧ (s.arch.mp = .boot) ∧ (a = false) ∧ (b = false)) ∧
    (∃ (s : State) (a : Bool) (b : Bool), (s.pkg.st = 2) ∧ (s.arch.mp = .boot) ∧ (a = true ∨ b = true)) ∧
    (∃ (s : State) (r : _), (s.groupOn = false) ∧ (r < 13)) :=
  ⟨⟨({} : State), by first | decide +kernel | rfl | (unfold canRetire hasBudget; decide +kernel) | (unfold hasBudget; decide +kernel) | simp⟩,
  ⟨({} : State), .pwrGoodAonRise, true, by refine ⟨?_, ?_⟩ <;> first | decide +kernel | rfl | (unfold canRetire hasBudget; decide +kernel) | (unfold hasBudget; decide +kernel) | simp⟩,
  ⟨({ pkg := { pgAon := true, bValid := true } } : State), by refine ⟨?_, ?_, ?_⟩ <;> first | decide +kernel | rfl | (unfold canRetire hasBudget; decide +kernel) | (unfold hasBudget; decide +kernel) | simp⟩,
  ⟨({} : State), by first | decide +kernel | rfl | (unfold canRetire hasBudget; decide +kernel) | (unfold hasBudget; decide +kernel) | simp⟩,
  ⟨({} : State), by first | decide +kernel | rfl | (unfold canRetire hasBudget; decide +kernel) | (unfold hasBudget; decide +kernel) | simp⟩,
  ⟨({ pkg := { pgAon := true, st := 2 }, arch := { mp := .boot } } : State), false, false, by refine ⟨?_, ?_, ?_, ?_⟩ <;> first | decide +kernel | rfl | (unfold canRetire hasBudget; decide +kernel) | (unfold hasBudget; decide +kernel) | simp⟩,
  ⟨({ pkg := { pgAon := true, st := 2 }, arch := { mp := .boot } } : State), false, true, by refine ⟨?_, ?_, ?_⟩ <;> first | decide +kernel | rfl | (unfold canRetire hasBudget; decide +kernel) | (unfold hasBudget; decide +kernel) | simp⟩,
  ⟨({} : State), 12, by refine ⟨?_, ?_⟩ <;> first | decide +kernel | rfl | (unfold canRetire hasBudget; decide +kernel) | (unfold hasBudget; decide +kernel) | simp⟩⟩

theorem test_wit_PowerOn_2 :
    (∃ (s : State) (r : _), (s.groupOn = true) ∧ (r < 13) ∧ (s.pkg.awaited.contains r = false)) ∧
    (∃ (s : State) (r : _), (s.groupOn = true) ∧ (r < 13) ∧ (s.pkg.awaited.contains r = true)) ∧
    (∃ (s : State), ¬ (s.pkg.st = 3 ∧ s.pkg.group = 8 ∧ s.pkg.restartAt = none)) ∧
    (∃ (s : State), (s.pkg.st = 3) ∧ (s.pkg.group = 8) ∧ (s.pkg.restartAt = none)) ∧
    (∃ (s : State), s.pkg.coreDeadline = none ∨ s.pkg.st ≠ 3) ∧
    (∃ (s : State) (d : _), (s.pkg.coreDeadline = some d) ∧ (s.pkg.st = 3)) ∧
    (∃ (s : State), s.pkg.pgCore = false) ∧
    (∃ (s : State), (s.pkg.pgCore = true) ∧ (s.pkg.st = 4)) :=
  ⟨⟨({ pkg := { pgAon := true, st := 3, group := 5, awaited := [11] }, arch := { mp := .run } } : State), 12, by refine ⟨?_, ?_, ?_⟩ <;> first | decide +kernel | rfl | (unfold canRetire hasBudget; decide +kernel) | (unfold hasBudget; decide +kernel) | simp⟩,
  ⟨({ pkg := { pgAon := true, st := 3, group := 5, awaited := [11] }, arch := { mp := .run } } : State), 11, by refine ⟨?_, ?_, ?_⟩ <;> first | decide +kernel | rfl | (unfold canRetire hasBudget; decide +kernel) | (unfold hasBudget; decide +kernel) | simp⟩,
  ⟨({} : State), by first | decide +kernel | rfl | (unfold canRetire hasBudget; decide +kernel) | (unfold hasBudget; decide +kernel) | simp⟩,
  ⟨(wPk { st := 3, group := 8 } : State), by refine ⟨?_, ?_, ?_⟩ <;> first | decide +kernel | rfl | (unfold canRetire hasBudget; decide +kernel) | (unfold hasBudget; decide +kernel) | simp⟩,
  ⟨({} : State), by first | decide +kernel | rfl | (unfold canRetire hasBudget; decide +kernel) | (unfold hasBudget; decide +kernel) | simp⟩,
  ⟨(wPk { st := 3, group := 8, coreDeadline := some 9 } : State), 9, by refine ⟨?_, ?_⟩ <;> first | decide +kernel | rfl | (unfold canRetire hasBudget; decide +kernel) | (unfold hasBudget; decide +kernel) | simp⟩,
  ⟨({} : State), by first | decide +kernel | rfl | (unfold canRetire hasBudget; decide +kernel) | (unfold hasBudget; decide +kernel) | simp⟩,
  ⟨(wPk { st := 4, group := 8, pgCore := true } : State), by refine ⟨?_, ?_⟩ <;> first | decide +kernel | rfl | (unfold canRetire hasBudget; decide +kernel) | (unfold hasBudget; decide +kernel) | simp⟩⟩

theorem test_wit_PowerOn_3 :
    (∃ (s : State), (s.pkg.resetN = true) ∧ (s.pkg.pgAon = true) ∧ (s.pkg.tripN = true)) ∧
    (∃ (s : State), (s.pkg.resetN = false) ∧ (s.pkg.restartAt = some 2) ∧ (s.pkg.tripN = true)) ∧
    (∃ (s : State), (s.pkg.warmN = true) ∧ (s.pkg.resetN = false ∨ s.pkg.group ≠ 8)) ∧
    (∃ (s : State), (s.pkg.warmN = true) ∧ (s.pkg.resetN = true) ∧ (s.pkg.group = 8)) ∧
    (∃ (s : State), (s.pkg.warmN = false) ∧ (s.pkg.restartAt = some 3) ∧ (s.pkg.group = 8)) ∧
    (∃ (s : State) (who : Who), (who.wf = true) ∧ (s.csrGate who 0x0010004 true = none) ∧ ((∀ i, who ≠ .operator i))) ∧
    (∃ (s : State) (who : Who) (i : _), (who.wf = true) ∧ (s.csrGate who 0x0010004 true = none) ∧ (who = .operator i) ∧ (s.pkg.st ≠ 4)) ∧
    (∃ (s : State) (who : Who) (i : _), (who.wf = true) ∧ (s.csrGate who 0x0010004 true = none) ∧ (who = .operator i) ∧ (s.pkg.st = 4)) :=
  ⟨⟨(wPk { resetN := true, tripN := true } : State), by refine ⟨?_, ?_, ?_⟩ <;> first | decide +kernel | rfl | (unfold canRetire hasBudget; decide +kernel) | (unfold hasBudget; decide +kernel) | simp⟩,
  ⟨(wPk { resetN := false, tripN := true, restartAt := some 2 } : State), by refine ⟨?_, ?_, ?_⟩ <;> first | decide +kernel | rfl | (unfold canRetire hasBudget; decide +kernel) | (unfold hasBudget; decide +kernel) | simp⟩,
  ⟨(wPk { warmN := true, resetN := false } : State), by refine ⟨?_, ?_⟩ <;> first | decide +kernel | rfl | (unfold canRetire hasBudget; decide +kernel) | (unfold hasBudget; decide +kernel) | simp⟩,
  ⟨(wPk { warmN := true, resetN := true, group := 8 } : State), by refine ⟨?_, ?_, ?_⟩ <;> first | decide +kernel | rfl | (unfold canRetire hasBudget; decide +kernel) | (unfold hasBudget; decide +kernel) | simp⟩,
  ⟨(wPk { warmN := false, restartAt := some 3, group := 8 } : State), by refine ⟨?_, ?_, ?_⟩ <;> first | decide +kernel | rfl | (unfold canRetire hasBudget; decide +kernel) | (unfold hasBudget; decide +kernel) | simp⟩,
  ⟨wUp, .control, by refine ⟨?_, ?_, ?_⟩ <;> first | decide +kernel | rfl | (intro i h; cases h) | (unfold canRetire hasBudget; decide +kernel) | (unfold hasBudget; decide +kernel) | simp⟩,
  ⟨({ wUp with pkg := { st := 3, pgAon := true } } : State), (.operator 7 : Who), 7, by refine ⟨?_, ?_, ?_, ?_⟩ <;> first | decide +kernel | rfl | (unfold canRetire hasBudget; decide +kernel) | (unfold hasBudget; decide +kernel) | simp⟩,
  ⟨wUp, (.operator 7 : Who), 7, by refine ⟨?_, ?_, ?_, ?_⟩ <;> first | decide +kernel | rfl | (unfold canRetire hasBudget; decide +kernel) | (unfold hasBudget; decide +kernel) | simp⟩⟩

theorem test_wit_PowerOn_4 :
    (∃ (s : State), s.pkg.pgAon = false ∨ s.pkg.tripN = false) ∧
    (∃ (s : State), (s.pkg.pgAon = true) ∧ (s.pkg.tripN = true)) ∧
    (∃ (s : State), s.pkg.holdoverAt = none) ∧
    (∃ (s : State) (t : _), s.pkg.holdoverAt = some t) :=
  ⟨⟨({} : State), by first | decide +kernel | rfl | (unfold canRetire hasBudget; decide +kernel) | (unfold hasBudget; decide +kernel) | simp⟩,
  ⟨(wPk { tripN := true } : State), by refine ⟨?_, ?_⟩ <;> first | decide +kernel | rfl | (unfold canRetire hasBudget; decide +kernel) | (unfold hasBudget; decide +kernel) | simp⟩,
  ⟨({} : State), by first | decide +kernel | rfl | (unfold canRetire hasBudget; decide +kernel) | (unfold hasBudget; decide +kernel) | simp⟩,
  ⟨(wPk { holdover := true, holdoverAt := some 9 } : State), 9, by first | decide +kernel | rfl | (unfold canRetire hasBudget; decide +kernel) | (unfold hasBudget; decide +kernel) | simp⟩⟩

theorem test_wit_PackageControl_1 :
    (∃ (s : State) (l : List RailReading), ((∀ x ∈ l, x.rail < 13)) ∧ (s.arch.mp ≠ .run ∨ s.pkg.st < 2 ∨ 4 < s.pkg.st)) ∧
    (∃ (s : State) (l : List RailReading), ((∀ x ∈ l, x.rail < 13)) ∧ (s.arch.mp = .run) ∧ (2 ≤ s.pkg.st) ∧ (s.pkg.st ≤ 4) ∧ ((∀ x ∈ l, x.fault = false)) ∧ ((l.map (·.rail)).Nodup)) ∧
    (∃ (s : State) (l : List RailReading) (x : _), ((∀ x ∈ l, x.rail < 13)) ∧ (s.arch.mp = .run) ∧ (2 ≤ s.pkg.st) ∧ (s.pkg.st ≤ 4) ∧ (l = [x]) ∧ (s.railPresent x.rail = true) ∧ (x.answered = false)) ∧
    (∃ (s : State) (l : List RailReading) (x : _), ((∀ x ∈ l, x.rail < 13)) ∧ (s.arch.mp = .run) ∧ (2 ≤ s.pkg.st) ∧ (s.pkg.st ≤ 4) ∧ (l = [x]) ∧ (4 ≤ x.rail) ∧ (x.rail < 10) ∧ (s.railPresent x.rail = true) ∧ (x.answered = true) ∧ (x.fault = true) ∧ ((aget s.pkg.rails x.rail {}).fault = false)) ∧
    (∃ (s : State), s.arch.mp ≠ .run) ∧
    (∃ (s : State), s.arch.mp = .run) ∧
    (∃ (s : State) (who : Who) (v : Word32) (n : _), (who.wf = true) ∧ (s.csrGate who 0x0060300 true = none) ∧ (n = v.toNat % 4096) ∧ (400 ≤ n) ∧ (n ≤ s.variant.maxPower)) ∧
    (∃ (s : State) (who : Who) (v : Word32) (n : _), (who.wf = true) ∧ (s.csrGate who 0x0060300 true = none) ∧ (n = v.toNat % 4096) ∧ (n < 400 ∨ s.variant.maxPower < n)) :=
  ⟨⟨({} : State), ([{ rail := 12 }] : List RailReading), by refine ⟨?_, ?_⟩ <;> first | decide +kernel | rfl | (unfold canRetire hasBudget; decide +kernel) | (unfold hasBudget; decide +kernel) | simp⟩,
  ⟨wUp, ([{ rail := 0 }, { rail := 12, answered := true }] : List RailReading), by refine ⟨?_, ?_, ?_, ?_, ?_, ?_⟩ <;> first | decide +kernel | rfl | (unfold canRetire hasBudget; decide +kernel) | (unfold hasBudget; decide +kernel) | simp⟩,
  ⟨wUp, ([{ rail := 4, answered := false }] : List RailReading), { rail := 4, answered := false }, by refine ⟨?_, ?_, ?_, ?_, ?_, ?_, ?_⟩ <;> first | decide +kernel | rfl | (unfold canRetire hasBudget; decide +kernel) | (unfold hasBudget; decide +kernel) | simp⟩,
  ⟨wUp, ([{ rail := 9, answered := true, fault := true }] : List RailReading), { rail := 9, answered := true, fault := true }, by refine ⟨?_, ?_, ?_, ?_, ?_, ?_, ?_, ?_, ?_, ?_, ?_⟩ <;> first | decide +kernel | rfl | (unfold canRetire hasBudget; decide +kernel) | (unfold hasBudget; decide +kernel) | simp⟩,
  ⟨({} : State), by first | decide +kernel | rfl | (unfold canRetire hasBudget; decide +kernel) | (unfold hasBudget; decide +kernel) | simp⟩,
  ⟨wUp, by first | decide +kernel | rfl | (unfold canRetire hasBudget; decide +kernel) | (unfold hasBudget; decide +kernel) | simp⟩,
  ⟨wUp, .management, 400, 400, by refine ⟨?_, ?_, ?_, ?_, ?_⟩ <;> first | decide +kernel | rfl | (unfold canRetire hasBudget; decide +kernel) | (unfold hasBudget; decide +kernel) | simp⟩,
  ⟨wUp, .management, 4095, 4095, by refine ⟨?_, ?_, ?_, ?_⟩ <;> first | decide +kernel | rfl | (unfold canRetire hasBudget; decide +kernel) | (unfold hasBudget; decide +kernel) | simp⟩⟩

theorem test_wit_PackageControl_2 :
    (∃ (s : State) (d : _) (t : _) (per : _), (d < 11) ∧ (t < 256) ∧ (per = (if 5 ≤ d ∧ d ≤ 8 then aclk else sclk)) ∧ (s.dieFitted d = false)) ∧
    (∃ (s : State) (d : _) (t : _) (per : _), (d < 11) ∧ (t < 256) ∧ (per = (if 5 ≤ d ∧ d ≤ 8 then aclk else sclk)) ∧ (s.dieFitted d = true) ∧ ((aget s.pkg.therm d {}).valid = false)) ∧
    (∃ (s : State) (d : _) (t : _) (per : _), (d < 11) ∧ (t < 256) ∧ (per = (if 5 ≤ d ∧ d ≤ 8 then aclk else sclk)) ∧ (s.dieFitted d = true) ∧ ((aget s.pkg.therm d {}).valid = true)) ∧
    (∃ (s : State) (b : Bool) (valid : Bool) (other : Bool), (valid = (if b then s.pkg.bValid else s.pkg.aValid)) ∧ (other = (if b then s.pkg.aValid else s.pkg.bValid)) ∧ (s.pkg.pgAon = false)) ∧
    (∃ (s : State) (b : Bool) (valid : Bool) (other : Bool), (valid = (if b then s.pkg.bValid else s.pkg.aValid)) ∧ (other = (if b then s.pkg.aValid else s.pkg.bValid)) ∧ (s.pkg.pgAon = true) ∧ (valid = false)) ∧
    (∃ (s : State) (b : Bool) (valid : Bool) (other : Bool), (valid = (if b then s.pkg.bValid else s.pkg.aValid)) ∧ (other = (if b then s.pkg.aValid else s.pkg.bValid)) ∧ (s.pkg.pgAon = true) ∧ (valid = true)) ∧
    (∃ (s : State) (r : _) (w : _), (r = aget s.arrs.ramp 4 {}) ∧ (r.warnAt = some w) ∧ (r.highAt = none)) ∧
    (∃ (s : State) (r : _), (r = aget s.arrs.ramp 4 {}) ∧ (r.warnAt = none ∨ r.highAt ≠ none)) :=
  ⟨⟨({ wUp with variant := .plf4af } : State), 8, 255, aclk, by refine ⟨?_, ?_, ?_, ?_⟩ <;> first | decide +kernel | rfl | (unfold canRetire hasBudget; decide +kernel) | (unfold hasBudget; decide +kernel) | simp⟩,
  ⟨wUp, 0, 255, sclk, by refine ⟨?_, ?_, ?_, ?_, ?_⟩ <;> first | decide +kernel | rfl | (unfold canRetire hasBudget; decide +kernel) | (unfold hasBudget; decide +kernel) | simp⟩,
  ⟨({ wUp with pkg := { therm := [(0, { valid := true })] } } : State), 0, 255, sclk, by refine ⟨?_, ?_, ?_, ?_, ?_⟩ <;> first | decide +kernel | rfl | (unfold canRetire hasBudget; decide +kernel) | (unfold hasBudget; decide +kernel) | simp⟩,
  ⟨({} : State), true, false, false, by refine ⟨?_, ?_, ?_⟩ <;> first | decide +kernel | rfl | (unfold canRetire hasBudget; decide +kernel) | (unfold hasBudget; decide +kernel) | simp⟩,
  ⟨(wPk { aValid := true, bValid := false } : State), true, false, true, by refine ⟨?_, ?_, ?_, ?_⟩ <;> first | decide +kernel | rfl | (unfold canRetire hasBudget; decide +kernel) | (unfold hasBudget; decide +kernel) | simp⟩,
  ⟨(wPk { aValid := true, bValid := false } : State), false, true, false, by refine ⟨?_, ?_, ?_, ?_⟩ <;> first | decide +kernel | rfl | (unfold canRetire hasBudget; decide +kernel) | (unfold hasBudget; decide +kernel) | simp⟩,
  ⟨({ wUp with arrs := { ramp := [(4, { warnAt := some 9 })] } } : State), { warnAt := some 9 }, 9, by refine ⟨?_, ?_, ?_⟩ <;> first | decide +kernel | rfl | (unfold canRetire hasBudget; decide +kernel) | (unfold hasBudget; decide +kernel) | simp⟩,
  ⟨wUp, {}, by refine ⟨?_, ?_⟩ <;> first | decide +kernel | rfl | (unfold canRetire hasBudget; decide +kernel) | (unfold hasBudget; decide +kernel) | simp⟩⟩

theorem test_wit_PackageControl_3 :
    (∃ (b : _), b < 5) ∧
    (∃ (s : State), s.arch.mp = .run) ∧
    (∃ (s : State), s.arch.mp ≠ .run) ∧
    (∃ (s : State) (n : _), (n < 65536) ∧ (s.arch.mp ≠ .run)) ∧
    (∃ (s : State) (n : _) (l : _) (v : _), (n < 65536) ∧ (s.arch.mp = .run) ∧ (i3cWords n [] s = (l, v))) ∧
    (∃ (s : State), s.csrGate .bmc s.pkg.i3cPtr false ≠ none) ∧
    (∃ (s : State) (w : _) (v : _), (s.csrGate .bmc s.pkg.i3cPtr false = none) ∧ (readRegister .bmc s.pkg.i3cPtr s = (w, v))) ∧
    (∃ (s : State), s.confAny = false ∨ s.arch.mp ≠ .run) :=
  ⟨⟨4, by first | decide +kernel | rfl | (unfold canRetire hasBudget; decide +kernel) | (unfold hasBudget; decide +kernel) | simp⟩,
  ⟨wUp, by first | decide +kernel | rfl | (unfold canRetire hasBudget; decide +kernel) | (unfold hasBudget; decide +kernel) | simp⟩,
  ⟨({} : State), by first | decide +kernel | rfl | (unfold canRetire hasBudget; decide +kernel) | (unfold hasBudget; decide +kernel) | simp⟩,
  ⟨({} : State), 65535, by refine ⟨?_, ?_⟩ <;> first | decide +kernel | rfl | (unfold canRetire hasBudget; decide +kernel) | (unfold hasBudget; decide +kernel) | simp⟩,
  ⟨wUp, 2, (i3cWords 2 [] wUp).1, (i3cWords 2 [] wUp).2, by refine ⟨?_, ?_, ?_⟩ <;> first | decide +kernel | rfl | (unfold canRetire hasBudget; decide +kernel) | (unfold hasBudget; decide +kernel) | simp⟩,
  ⟨({ wUp with pkg := { i3cPtr := 1 } } : State), by first | decide +kernel | rfl | (unfold canRetire hasBudget; decide +kernel) | (unfold hasBudget; decide +kernel) | simp⟩,
  ⟨({ wUp with pkg := { i3cPtr := 0x10000 } } : State), (readRegister .bmc 0x10000 ({ wUp with pkg := { i3cPtr := 0x10000 } })).1, (readRegister .bmc 0x10000 ({ wUp with pkg := { i3cPtr := 0x10000 } })).2, by refine ⟨?_, ?_⟩ <;> first | decide +kernel | rfl | (unfold canRetire hasBudget; decide +kernel) | (unfold hasBudget; decide +kernel) | simp⟩,
  ⟨wUp, by first | decide +kernel | rfl | (unfold canRetire hasBudget; decide +kernel) | (unfold hasBudget; decide +kernel) | simp⟩⟩

theorem test_wit_PackageControl_4 :
    (∃ (s : State), (s.confAny = true) ∧ (s.arch.mp = .run)) ∧
    (∃ (s : State) (c : _), (c < 256) ∧ (c ≤ 1 ∨ s.sec.tapFull = true)) ∧
    (∃ (s : State) (c : _), (c < 256) ∧ (1 < c) ∧ (s.sec.tapFull = false)) :=
  ⟨⟨({ wUp with fab := { node := 0 }, img := { st := 2, cur := wImg [(tySAGMAP, zeros 576 ++ wMap.set 0 3)] } } : State), by refine ⟨?_, ?_⟩ <;> first | decide +kernel | rfl | (unfold canRetire hasBudget; decide +kernel) | (unfold hasBudget; decide +kernel) | simp⟩,
  ⟨({} : State), 1, by refine ⟨?_, ?_⟩ <;> first | decide +kernel | rfl | (unfold canRetire hasBudget; decide +kernel) | (unfold hasBudget; decide +kernel) | simp⟩,
  ⟨({ sec := { tapFull := false } } : State), 255, by refine ⟨?_, ?_, ?_⟩ <;> first | decide +kernel | rfl | (unfold canRetire hasBudget; decide +kernel) | (unfold hasBudget; decide +kernel) | simp⟩⟩

end
end

section
namespace Sys2Proof.Machine

/-- Every command's meaning is `run` of the condition `Instr.wf` states for it. -/
theorem exec_eq_run (c : Instr) (s : State) : ∃ u, exec c s = run c.wf u := by
  cases c <;> exact ⟨_, rfl⟩

/-- Settles O2: a meaning answers through `run`, which completes on a well-formed command and faults on any other. -/
theorem commandsComplete : Obligations.CommandsComplete := by
  intro c s
  obtain ⟨u, hu⟩ := exec_eq_run c s
  exact ⟨fun h => ⟨u, by rw [Completes, hu, h]; rfl⟩, fun h => by rw [hu, run_ill h]⟩

/-! ## CSR accesses: what the gate decides, and what the register does (R29 to R31, R560) -/

theorem csrGate_of_misaligned {s : State} {who : Who} {a : Nat} {w : Bool} (h : a % 4 ≠ 0) :
    s.csrGate who a w = some .denied := by
  simp [State.csrGate, h]

theorem csrGate_of_absent {s : State} {who : Who} {a : Nat} {w : Bool} (h : a % 4 = 0) (ha : s.csrAbsent a = true) :
    s.csrGate who a w = some .unitAbsent := by
  simp [State.csrGate, h, ha]

theorem csrGate_of_not_granted {s : State} {who : Who} {a : Nat} {w : Bool} (h : a % 4 = 0)
    (ha : s.csrAbsent a = false) (hg : s.granted who a w = false) : s.csrGate who a w = some .denied := by
  simp [State.csrGate, h, ha, hg]

/-- A plain write of a register with a DC field is denied, whether the requester's grant covers it or not. -/
theorem csrGate_of_dc {s : State} {who : Who} {a : Nat} (h : a % 4 = 0) (ha : s.csrAbsent a = false)
    (hd : dcRegister a = true) : s.csrGate who a true = some .denied := by
  cases hg : s.granted who a true <;> simp [State.csrGate, h, ha, hd, hg]

theorem answerRead32_of_gate {s : State} {who : Who} {a : Nat} {st : Status} (h : s.csrGate who a false = some st) :
    answerRead32 who a s = answerCsr who a st 0 s := by
  simp [answerRead32, csrRead, h]

theorem answerRead32_of_open {s t : State} {who : Who} {a w : Nat} (h : s.csrGate who a false = none)
    (hr : readRegister who a s = (w, t)) : answerRead32 who a s = answerCsr who a .ok (BitVec.ofNat 32 w) t := by
  simp [answerRead32, csrRead, h, hr]

theorem wf_access {who : Who} {a : Nat} (hw : who.wf = true) (ha : a < 2 ^ 40) :
    (who.wf && decide (a < 2 ^ 40)) = true := by
  rw [hw, decide_eq_true ha]; rfl

theorem completes_counterLowRead {s : State} {who : Who} {a : Nat} (hw : who.wf = true) (ha : a < 2 ^ 40) :
    Completes (.counterLowRead who a) s (answerRead32 who a s) :=
  run_ok (wf_access hw ha) rfl

theorem completes_counterHighRead {s : State} {who : Who} {a : Nat} (hw : who.wf = true) (ha : a < 2 ^ 40) :
    Completes (.counterHighRead who a) s (answerRead32 who a s) :=
  run_ok (wf_access hw ha) rfl

theorem completes_witMirrorLowRead {s : State} {who : Who} {a : Nat} (hw : who.wf = true) (ha : a < 2 ^ 40) :
    Completes (.witMirrorLowRead who a) s (answerRead32 who a s) :=
  run_ok (wf_access hw ha) rfl

theorem completes_csrWrite {s t : State} {who : Who} {a : Nat} {v : Word32} {st : Status} (hw : who.wf = true)
    (ha : a < 2 ^ 40) (h : csrWriteWord who a v s = (st, t)) :
    Completes (.csrWrite who a v) s (answerCsr who a st 0 t) :=
  run_ok (wf_access hw ha) (by rw [h])

theorem csrWriteWord_of_gate {s : State} {who : Who} {a : Nat} {v : Word32} {st : Status}
    (h : s.csrGate who a true = some st) : csrWriteWord who a v s = (st, s) := by
  simp [csrWriteWord, h]

theorem csrWriteWord_of_open {s : State} {who : Who} {a : Nat} {v : Word32} (h : s.csrGate who a true = none) :
    csrWriteWord who a v s = writeRegister who a v s := by
  simp [csrWriteWord, h]

/-- A read that the gate refuses is answered with the gate's status, and does nothing else. -/
theorem completes_read_refused {s : State} {who : Who} {a : Nat} {st : Status} (hw : who.wf = true) (ha : a < 2 ^ 40)
    (h : s.csrGate who a false = some st) : Completes (.counterLowRead who a) s (answerCsr who a st 0 s) :=
  answerRead32_of_gate h ▸ completes_counterLowRead hw ha

/-- A write that the gate refuses is answered with the gate's status, and does nothing else. -/
theorem completes_write_refused {s : State} {who : Who} {a : Nat} {v : Word32} {st : Status} (hw : who.wf = true)
    (ha : a < 2 ^ 40) (h : s.csrGate who a true = some st) :
    Completes (.csrWrite who a v) s (answerCsr who a st 0 s) :=
  completes_csrWrite hw ha (csrWriteWord_of_gate h)

/-- Settles O9: the gate's conditions in their order, each with the status it answers. -/
theorem csrOrder : Obligations.CsrOrder := by
  intro who a v s hw ha
  refine ⟨fun h => ⟨?_, ?_⟩, fun h hab => ⟨?_, ?_⟩, fun h hab hg => ?_, fun h hab hg => ?_, fun h hab => ?_⟩
  · exact completes_read_refused hw ha (csrGate_of_misaligned h)
  · exact completes_write_refused hw ha (csrGate_of_misaligned h)
  · exact completes_read_refused hw ha (csrGate_of_absent h hab)
  · exact completes_write_refused hw ha (csrGate_of_absent h hab)
  · exact completes_read_refused hw ha (csrGate_of_not_granted h hab hg)
  · exact completes_write_refused hw ha (csrGate_of_not_granted h hab hg)
  · exact completes_write_refused hw ha (csrGate_of_dc (by omega) hab (by simp [dcRegister, h]))

/-! ## The latch of a 64-bit register (R29, R512, R560) -/

theorem ctrBase_of_low {s : State} {a : Nat} (h : (s.ctrClass a).isSome = true) : s.ctrBase a = some a := by
  simp [State.ctrBase, h]

theorem ctrBase_of_high {s : State} {a : Nat} (ha : 4 ≤ a) (h : s.ctrClass a = none)
    (h4 : (s.ctrClass (a - 4)).isSome = true) : s.ctrBase a = some (a - 4) := by
  simp [State.ctrBase, h, ha, h4]

theorem ctrBase_of_none {s : State} {a : Nat} (h : s.ctrClass a = none) (h4 : s.ctrClass (a - 4) = none) :
    s.ctrBase a = none := by
  simp [State.ctrBase, h, h4]

/-- No 64-bit register has its low word beyond the flash registers. -/
theorem ctrClass_of_beyond {s : State} {a : Nat} (h : 0x1800000 ≤ a) : s.ctrClass a = none := by
  have far : ∀ l : List Nat, (∀ b ∈ l, b < 0x1800000) → a ∉ l := fun l hl hm => absurd (hl a hm) (by omega)
  unfold State.ctrClass
  rw [if_neg (far _ (by decide)), if_neg (far _ (by decide))]
  repeat rw [if_neg (by omega)]

/-- No 64-bit register has its low word right below or in the window of the log's slots. -/
theorem ctrClass_of_logWindow {s : State} {a : Nat} (h : 0x0050FFC ≤ a) (h' : a < 0x0052000) : s.ctrClass a = none := by
  have off : ∀ l : List Nat, (∀ b ∈ l, b < 0x0050FFC ∨ 0x0052000 ≤ b) → a ∉ l :=
    fun l hl hm => absurd (hl a hm) (by omega)
  unfold State.ctrClass
  rw [if_neg (off _ (by decide)), if_neg (off _ (by decide))]
  repeat rw [if_neg (by omega)]

theorem isMirrorLow_iff {a : Nat} :
    isMirrorLow a = true ↔ (0x1F01000 ≤ a ∧ a < 0x1F05000) ∧ a % 0x100 < 0x70 ∧ a % 16 = 0 := by
  simp [isMirrorLow, and_assoc]

theorem ofNat_bits32 (v lo : Nat) : BitVec.ofNat 32 (bits v lo 32) = BitVec.ofNat 32 (v / 2 ^ lo) := by
  apply BitVec.eq_of_toNat_eq
  simp [bits]

theorem liveWord_of_ctrBase {s : State} {who : Who} {a b : Nat} (h : s.ctrBase a = some b) :
    s.liveWord who a = bits (s.ctrValue b) (8 * (a - b)) 32 := by
  simp [State.liveWord, h]

/-- The low word of a mirror value reads the value's first 32 bits. -/
theorem liveWord_of_mirrorLow {s : State} {who : Who} {a : Nat} (h : isMirrorLow a = true) :
    s.liveWord who a = bits (s.mirrorValue ((a - 0x1F01000) / 0x100) (a % 0x100 / 16)) 0 32 := by
  obtain ⟨⟨hlo, hhi⟩, ho, h16⟩ := isMirrorLow_iff.mp h
  have hb : s.ctrBase a = none := ctrBase_of_none (ctrClass_of_beyond (by omega)) (ctrClass_of_beyond (by omega))
  have hw : s.liveWord who a = s.readWit a := by
    unfold State.liveWord
    rw [hb]
    dsimp only
    repeat rw [if_neg (by omega)]
    rw [if_pos (by omega)]
  have h0 : a % 0x100 % 16 = 0 := by omega
  rw [hw, State.readWit]
  dsimp only
  repeat rw [if_neg (by omega)]
  rw [if_pos ⟨hlo, hhi⟩, if_neg (by omega), if_pos (by omega), h0]

theorem readRegister_of_ctrLow {s : State} {who : Who} {a : Nat} (h : (s.ctrClass a).isSome = true) :
    readRegister who a s = (bits (s.ctrValue a) 0 32, { s with arch := { s.arch with
      latches := aset s.arch.latches who [(a + 4, BitVec.ofNat 32 (s.ctrValue a / 2 ^ 32))] } }) := by
  have hl : s.latched a = some [(a + 4, BitVec.ofNat 32 (s.ctrValue a / 2 ^ 32))] := by
    simp [State.latched, h, ofNat_bits32]
  simp [readRegister, hl, setLatch, liveWord_of_ctrBase (ctrBase_of_low h)]

theorem readRegister_of_mirrorLow {s : State} {who : Who} {a v : Nat} (h : isMirrorLow a = true)
    (hv : v = s.mirrorValue ((a - 0x1F01000) / 0x100) (a % 0x100 / 16)) :
    readRegister who a s = (bits v 0 32, { s with arch := { s.arch with
      latches := aset s.arch.latches who
        [(a + 4, BitVec.ofNat 32 (v / 2 ^ 32)), (a + 8, BitVec.ofNat 32 (v / 2 ^ 64))] } }) := by
  have hc : s.ctrClass a = none := ctrClass_of_beyond (by have := (isMirrorLow_iff.mp h).1.1; omega)
  have hl : s.latched a = some [(a + 4, BitVec.ofNat 32 (v / 2 ^ 32)), (a + 8, BitVec.ofNat 32 (v / 2 ^ 64))] := by
    simp [State.latched, h, hc, ofNat_bits32, hv]
  simp [readRegister, hl, setLatch, liveWord_of_mirrorLow h, hv]

theorem latched_of_other {s : State} {a : Nat} (hc : s.ctrClass a = none) (hm : isMirrorLow a = false) :
    s.latched a = none := by
  simp [State.latched, hc, hm]

/-- A latched word is read once. -/
theorem readRegister_of_latch {s : State} {who : Who} {a : Nat} {w : Word32} (hc : s.ctrClass a = none)
    (hm : isMirrorLow a = false) (hf : (aget s.arch.latches who []).find? (fun p => p.1 = a) = some (a, w)) :
    readRegister who a s = (w.toNat, setLatch who ((aget s.arch.latches who []).filter (fun p => p.1 ≠ a)) s) := by
  simp only [readRegister, latched_of_other hc hm, hf]

/-- The high word of a 64-bit register reads live where nothing is latched. -/
theorem readRegister_of_ctrHigh {s : State} {who : Who} {a : Nat} (ha : 4 ≤ a) (hc : s.ctrClass a = none)
    (h4 : (s.ctrClass (a - 4)).isSome = true)
    (hf : (aget s.arch.latches who []).find? (fun p => p.1 = a) = none) :
    readRegister who a s = (bits (s.ctrValue (a - 4)) 32 32, s) := by
  have no : ∀ b, s.ctrClass b = none → b ≠ a - 4 := by rintro b hb rfl; simp [hb] at h4
  have hm : isMirrorLow a = false := by
    by_contra hm
    exact no _ (ctrClass_of_beyond (by have := (isMirrorLow_iff.mp (Bool.not_eq_false _ ▸ hm)).1.1; omega)) rfl
  have hs : latchSlot who a s = s := if_neg fun ⟨h1, h2, _⟩ => no _ (ctrClass_of_logWindow (by omega) (by omega)) rfl
  simp only [readRegister, latched_of_other hc hm, hf, hs, liveWord_of_ctrBase (ctrBase_of_high ha hc h4)]
  rw [show 8 * (a - (a - 4)) = 32 by omega]

/-- Settles O10: the four kinds of read, each by what `readRegister` returns and leaves for it. -/
theorem counterLatch : Obligations.CounterLatch := by
  intro who a s hw ha hg
  refine ⟨fun hc => ?_, fun w hc hm hf => ?_, fun h4 hc hc4 hf => ?_, fun v hm hv => ?_⟩
  · have h := completes_counterLowRead (s := s) hw ha
    rwa [answerRead32_of_open hg (readRegister_of_ctrLow hc), ofNat_bits32, pow_zero, Nat.div_one] at h
  · have h := completes_counterHighRead (s := s) hw ha
    rwa [answerRead32_of_open hg (readRegister_of_latch hc hm hf), BitVec.ofNat_toNat, BitVec.setWidth_eq] at h
  · have h := completes_counterHighRead (s := s) hw ha
    rwa [answerRead32_of_open hg (readRegister_of_ctrHigh h4 hc hc4 hf), ofNat_bits32] at h
  · have h := completes_witMirrorLowRead (s := s) hw ha
    rwa [answerRead32_of_open hg (readRegister_of_mirrorLow hm hv), ofNat_bits32, pow_zero, Nat.div_one] at h

/-! ## A plain write of a register (R30) -/

/-- The addresses below the switch hold control bits only in the registers of `STORE`, `DC_SUBMIT`, firmware,
dies, the log store and the power-down. -/
theorem ctlBits_eq_none {s : State} {a v : Nat} (h : a < 0x0200000)
    (hx : a ∉ [0x0080004, 0x0040004, 0x0070044, 0x0070048, 0x0050010, 0x0010004]) : s.ctlBits a v = none := by
  simp only [List.mem_cons, List.not_mem_nil, or_false, not_or] at hx
  unfold State.ctlBits flmDieCtrl imgCtrl ercFwCtrl
  dsimp only
  repeat rw [if_neg (by omega)]

theorem isShaper_of_low {a : Nat} (h : a < 0x0300000) : isShaper a = false := by
  simp only [isShaper, Bool.or_eq_false_iff, Bool.and_eq_false_iff, decide_eq_false_iff_not]
  omega

theorem writeRegister_boot (who : Who) (v : Word32) (s : State) :
    writeRegister who 0x0080008 v s = (.ok, { s with img := { s.img with boot := v } }) := by
  simp only [writeRegister, ctlBits_eq_none (s := s) (a := 0x0080008) (by decide) (by decide)]
  rfl

theorem writeRegister_cur (who : Who) (v : Word32) (s : State) :
    writeRegister who 0x0050000 v s = (.ok, { s with log := { s.log with cur := aset s.log.cur who v.toNat } }) := by
  simp only [writeRegister, ctlBits_eq_none (s := s) (a := 0x0050000) (by decide) (by decide)]
  rfl

theorem writeRegister_sink (who : Who) {g : Nat} (hg : g < 64) (v : Word32) (s : State) :
    writeRegister who (0x0100200 + 4 * g) v s = (.ok, { s with jsl := { s.jsl with sink := aset s.jsl.sink g v } }) := by
  have hc : s.ctlBits (0x0100200 + 4 * g) v.toNat = none :=
    ctlBits_eq_none (by omega) (by simp only [List.mem_cons, List.not_mem_nil, or_false]; omega)
  unfold writeRegister
  rw [hc]
  dsimp only
  rw [isShaper_of_low (by omega)]
  repeat rw [if_neg (by omega)]
  rw [if_neg (by decide)]
  repeat rw [if_neg (by omega)]
  rw [if_pos (by omega), show (0x0100200 + 4 * g - 0x0100200) / 4 = g by omega]
  rfl

theorem ctrClass_of_zero {s : State} : s.ctrClass 0 = none := rfl

theorem writeRegister_deviceId (who : Who) (v : Word32) (s : State) : writeRegister who 0 v s = (.ok, s) := by
  have hb : s.ctrBase 0 = none := ctrBase_of_none ctrClass_of_zero ctrClass_of_zero
  simp only [writeRegister, ctlBits_eq_none (s := s) (a := 0) (by decide) (by decide), hb]
  rfl

/-- Settles O13: with the gate passed the write's answer and effect are `writeRegister`'s. -/
theorem registerWrite : Obligations.RegisterWrite := by
  intro who v s hw
  have done : ∀ {a : Nat} {t : State}, a < 2 ^ 40 → s.csrGate who a true = none → writeRegister who a v s = (.ok, t) →
      Completes (.csrWrite who a v) s (answerCsr who a .ok 0 t) := fun ha hg ht =>
    completes_csrWrite hw ha ((csrWriteWord_of_open hg).trans ht)
  exact ⟨fun hg => done (by decide) hg (writeRegister_boot who v s),
    fun hg => done (by decide) hg (writeRegister_cur who v s),
    fun g h hg => done (by omega) hg (writeRegister_sink who h v s),
    fun hg => done (by decide) hg (writeRegister_deviceId who v s)⟩

/-! ## What registers read (R560) -/

/-- Only the log's cursor and its window of slots read differently for different requesters. -/
theorem liveWord_who (s : State) (who : Who) {a : Nat} (h0 : a ≠ 0x0050000) (h1 : a < 0x0051000 ∨ 0x0052000 ≤ a) :
    s.liveWord who a = s.liveWord .management a := by
  have hw : ¬ (0x0051000 ≤ a ∧ a < 0x0052000) := by omega
  simp only [State.liveWord, State.readLog, h0, hw, if_false]

/-- The registers of the matrix arrays hold 64-bit values at offset 0x10 only. -/
theorem ctrClass_of_array {s : State} {a : Nat} (hl : 0x0800000 ≤ a) (hu : a < 0x0900000) (hm : a % 0x200 ≠ 0x10) :
    s.ctrClass a = none := by
  have off : ∀ l : List Nat, (∀ b ∈ l, b < 0x0800000 ∨ 0x0900000 ≤ b) → a ∉ l :=
    fun l hb hm => absurd (hb a hm) (by omega)
  have hd : a % 0x40000 % 0x200 = a % 0x200 := Nat.mod_mod_of_dvd a (by decide)
  unfold State.ctrClass
  rw [if_neg (off _ (by decide)), if_neg (off _ (by decide))]
  repeat rw [if_neg (by omega)]

/-- The state register of array `u`: its fence, its owner and the states of its slots. -/
theorem liveWord_arrState (s : State) (who : Who) {d i : Nat} (hd : d < 4) (hi : i < 384) :
    s.liveWord who (0x0800000 + 0x40000 * d + 0x200 * i) = s.readArr (0x0800000 + 0x40000 * d + 0x200 * i) := by
  have hb : s.ctrBase (0x0800000 + 0x40000 * d + 0x200 * i) = none := by
    refine ctrBase_of_none (ctrClass_of_array (by omega) (by omega) (by omega)) ?_
    by_cases h0 : d = 0 ∧ i = 0
    · obtain ⟨rfl, rfl⟩ := h0
      have off : ∀ l : List Nat, (∀ b ∈ l, b ≠ 0x07FFFFC) → 0x07FFFFC ∉ l := fun l hb hm => hb _ hm rfl
      unfold State.ctrClass
      rw [if_neg (off _ (by decide)), if_neg (off _ (by decide))]
      repeat rw [if_neg (by omega)]
    · exact ctrClass_of_array (by omega) (by omega) (by omega)
  unfold State.liveWord
  rw [hb]
  dsimp only
  repeat rw [if_neg (by omega)]
  rw [if_pos (by omega)]

/-- The image in force at reset is empty, so no saggar owns an array. -/
theorem arrOwner_reset (u : Nat) : State.reset.arrOwner u = none := by
  have no : ∀ g, recExists (State.reset.sagRec g) = false := fun g => by
    rw [State.sagRec, show State.reset.nodeBody tySAGMAP = [] from rfl]
    simp [Machine.sagRec, recExists, sub, le, bit, leNat, bits]
  simp [State.arrOwner, no]

theorem readArr_reset {d i : Nat} (hi : i < 384) :
    State.reset.readArr (0x0800000 + 0x40000 * d + 0x200 * i) = 0xA0000000 := by
  have hu : ∀ u, State.reset.arr u = {} := fun _ => rfl
  have hj : ∀ u k, State.reset.job u k = none := fun _ _ => rfl
  unfold State.readArr
  simp only [hj, arrOwner_reset, hu]
  rw [if_neg (by omega), if_pos (by omega)]
  rfl

theorem liveWord_reset_ports : ∀ p, p < 64 →
    State.reset.liveWord .management (0x0200000 + 0x1000 * p) % 2 ^ 16 = 0xFFFF ∧
      State.reset.liveWord .management (0x0200004 + 0x1000 * p) = 0x76543210 := by decide +kernel

theorem liveWord_reset_trimmers : ∀ t, t < 128 →
    State.reset.liveWord .management (0x0C00000 + 0x1000 * t) = 0xA0000000 := by decide +kernel

theorem liveWord_reset_channels : ∀ c, c < 16 →
    State.reset.liveWord .management (0x1100000 + 0x100 * c) = 0xA0000000 := by decide +kernel

theorem liveWord_reset_stacks : ∀ k, k < 8 →
    State.reset.liveWord .management (0x1200000 + 0x100 * k) = 0xA0000000 := by decide +kernel

theorem liveWord_reset_rails : ∀ r, r < 13 → State.reset.liveWord .management (0x0060000 + 0x10 * r) = 8 := by
  decide +kernel

/-- Settles O3: every register of the statement reads alike for every requester, and for one it is evaluated. -/
theorem resetValues : Obligations.ResetValues := by
  refine ⟨fun _ => rfl, fun _ => rfl, rfl, rfl, rfl, rfl, fun who => ?_⟩
  have as : ∀ {a w : Nat}, a ≠ 0x0050000 → a < 0x0051000 ∨ 0x0052000 ≤ a →
      State.reset.liveWord .management a = w → State.reset.liveWord who a = w :=
    fun h0 h1 h => (liveWord_who _ who h0 h1).trans h
  have field : ∀ {a : Nat}, a ≠ 0x0050000 → a < 0x0051000 ∨ 0x0052000 ≤ a →
      State.reset.liveWord who a = State.reset.liveWord .management a := liveWord_who _ who
  refine ⟨?_, ?_, ?_, ?_, ?_, ?_, ?_, fun p hp => ⟨?_, ?_⟩, fun d i hd hi => ?_, fun t ht => ?_, fun c hc => ?_,
    fun k hk => ?_, fun r hr => ?_⟩
  · rw [field (by decide) (by decide)]; decide +kernel
  · exact as (by decide) (by decide) (by decide +kernel)
  · exact as (by decide) (by decide) (by decide +kernel)
  · exact as (by decide) (by decide) (by decide +kernel)
  · exact as (by decide) (by decide) (by decide +kernel)
  · rw [field (by decide) (by decide)]; decide +kernel
  · exact as (by decide) (by decide) (by decide +kernel)
  · rw [field (by omega) (by omega)]; exact (liveWord_reset_ports p hp).1
  · exact as (by omega) (by omega) (liveWord_reset_ports p hp).2
  · rw [liveWord_arrState _ who hd hi, readArr_reset hi]
  · exact as (by omega) (by omega) (liveWord_reset_trimmers t ht)
  · exact as (by omega) (by omega) (liveWord_reset_channels c hc)
  · exact as (by omega) (by omega) (liveWord_reset_stacks k hk)
  · exact as (by omega) (by omega) (liveWord_reset_rails r hr)

/-! ## One Trimmer or port after an update of one -/

theorem trmOf_modTrm (t k : Nat) (f : Trm → Trm) (s : State) :
    (modTrm t f s).trmOf k = if t = k then f (s.trmOf t) else s.trmOf k := aget_amod ..

@[simp] theorem trmOf_modTrm_self (t : Nat) (f : Trm → Trm) (s : State) : (modTrm t f s).trmOf t = f (s.trmOf t) :=
  aget_amod_self ..

theorem trmOf_modTrm_ne {t k : Nat} (f : Trm → Trm) (s : State) (h : k ≠ t) : (modTrm t f s).trmOf k = s.trmOf k := by
  rw [trmOf_modTrm, if_neg (Ne.symm h)]

theorem port_modPort (p k : Nat) (f : Port → Port) (s : State) :
    (modPort p f s).port k = if p = k then f (s.port p) else s.port k := aget_amod ..

@[simp] theorem port_modPort_self (p : Nat) (f : Port → Port) (s : State) : (modPort p f s).port p = f (s.port p) :=
  aget_amod_self ..

theorem port_modPort_ne {p k : Nat} (f : Port → Port) (s : State) (h : k ≠ p) : (modPort p f s).port k = s.port k := by
  rw [port_modPort, if_neg (Ne.symm h)]

/-! ## Fences of Trimmers and ports (R125, R398) -/

/-- A Trimmer that a fence has stopped. -/
def Trm.fenced (x : Trm) (cause : Nat) : Trm :=
  { x with fence := { on := true, cause := cause }, run := .none, mainCtx := none, stall := none,
           wins := [], upcalls := [], cplq := [], jobs := 0, resv := none }

@[simp] theorem trmOf_disownJobs (t k : Nat) (s : State) : (disownJobs t s).trmOf k = s.trmOf k := rfl

/-- A fence stops an unfenced Trimmer, whose jobs run on for nobody. -/
theorem fenceTrimmer_of_unfenced {t cause : Nat} {s : State} (h : (s.trmOf t).fence.on = false) :
    fenceTrimmer t cause s = disownJobs t (modTrm t (fun x => x.fenced cause) s) :=
  if_neg fun e => Bool.false_ne_true (h.symm.trans e)

theorem fenceTrimmer_of_fenced {t cause : Nat} {s : State} (h : (s.trmOf t).fence.on = true) :
    fenceTrimmer t cause s = s := if_pos h

@[simp] theorem portRole_modPort (p k : Nat) (f : Port → Port) (s : State) : (modPort p f s).portRole k = s.portRole k := rfl

/-- Fencing a port that is not up, and is no CXL port, leaves it down. -/
theorem fencePort_of_down {p cause : Nat} {s : State} (h : (s.port p).lst < 4) (hr : s.portRole p ≠ 3) :
    fencePort p cause s = modPort p (fun x => if x.lst = 5 then x else { x with lst := 0, deadline := none })
      (modPort p (fun x => { x with fence := { on := true, cause := cause } }) s) := by
  have h4 : (s.port p).lst ≠ 4 := by omega
  simp [fencePort, h4, hr]

/-- Settles O15: by the unit the signal goes to. -/
theorem fenceSignals : Obligations.FenceSignals := by
  intro s cause hc
  have signal : ∀ {u : FenceUnit}, u.wf = true → Completes (.fenceArrival u cause) s (fenceUnit u cause s) :=
    fun hu => run_ok (by rw [hu, decide_eq_true hc]; rfl) rfl
  refine ⟨fun t ht hf => ?_, fun t ht hn => ?_, fun p hp hl hr => ?_, fun d hd hcp => ?_⟩
  · have h128 : t < 128 := lt_of_lt_of_le ht (by cases s.variant <;> decide)
    refine effect_of (signal (decide_eq_true h128)) ?_
    have e : fenceUnit (.trimmer t) cause s = disownJobs t (modTrm t (fun x => x.fenced cause) s) :=
      (if_pos ht).trans (fenceTrimmer_of_unfenced hf)
    rw [e, trmOf_disownJobs, trmOf_modTrm_self]
    exact ⟨rfl, rfl, rfl, rfl, rfl, rfl, fun k hk => (trmOf_disownJobs ..).trans (trmOf_modTrm_ne _ s hk), rfl⟩
  · have e : fenceUnit (.trimmer t) cause s = s := by
      rcases hn with hn | hn
      · exact if_neg (by omega)
      · exact (ite_eq_right_iff.mpr fun _ => fenceTrimmer_of_fenced hn)
    have h := signal (u := .trimmer t) (decide_eq_true ht)
    rwa [e] at h
  · refine effect_of (signal (decide_eq_true hp)) ?_
    have h5 : (s.port p).lst ≠ 5 := by omega
    have e : fenceUnit (.port p) cause s = _ := fencePort_of_down hl hr
    rw [e, port_modPort_self, port_modPort_self]
    refine ⟨by simp [h5], by simp [h5], fun k hk => ?_, rfl⟩
    rw [port_modPort_ne _ _ hk, port_modPort_ne _ _ hk]
  · have e : fenceUnit (.domain d) cause s
        = { s with coh := { s.coh with heldFences := s.coh.heldFences ++ [(d, cause, true)] } } := if_pos hcp
    have h := signal (u := .domain d) (decide_eq_true hd)
    rwa [e] at h

/-! ## Restarts of the planes (R22) -/

/-- Refutes O14: the end of a control-core restart also takes up the cleared directories that were held, which the
statement's `cpRestartEnd` clause does not exclude: with one held for a domain this chip has no slot of, the restart's
end leaves none held, while the state the clause names still holds it. -/
theorem not_planeRestarts : ¬ Obligations.PlaneRestarts := by
  intro h
  obtain ⟨-, -, -, -, -, -, -, hEnd, -⟩ :=
    h { arch := { cp := .restart }, coh := { heldCleared := [(0, 0)] } }
  have hs := Host.Outcome.next.inj (hEnd rfl rfl rfl rfl)
  exact absurd (congrArg (·.coh.heldCleared) hs) (by decide +kernel)

/-! ## What the flash, the freeing of frames and `settle` leave unchanged -/

/-- A relation that every step of a loop keeps, the loop keeps. -/
theorem forEach_rel {α : Type} {R : State → State → Prop} (refl : ∀ s, R s s)
    (trans : ∀ {s t u}, R s t → R t u → R s u) {f : α → State → State} (h : ∀ a s, R s (f a s)) (l : List α) (s : State) :
    R s (forEach l f s) := by
  induction l generalizing s with
  | nil => exact refl s
  | cons a r ih => exact trans (h a s) (ih (f a s))

theorem forEach_append {α : Type} (l m : List α) (f : α → State → State) (s : State) :
    forEach (l ++ m) f s = forEach m f (forEach l f s) := List.foldl_append

/-- Two states that differ at most in the flash and what it counts, logs and takes of the demand slots. -/
def FlashApart (s t : State) : Prop :=
  t = { s with sat := t.sat, ctr := t.ctr, log := t.log, flm := t.flm, tie := { s.tie with slots := t.tie.slots } }

namespace FlashApart

theorem refl (s : State) : FlashApart s s := rfl

theorem trans {s t u : State} (h : FlashApart s t) (k : FlashApart t u) : FlashApart s u := by
  unfold FlashApart at *; rw [k, h]

theorem overLoop {α : Type} {f : α → State → State} (h : ∀ a s, FlashApart s (f a s)) (l : List α) (s : State) :
    FlashApart s (forEach l f s) :=
  forEach_rel refl trans h l s

theorem modFlm (f : Flm → Flm) (s : State) : FlashApart s (modFlm f s) := rfl

theorem logEvent (code unit : Nat) (sag : Option Nat) (payload : List Nat) (s : State) :
    FlashApart s (logEvent code unit sag payload s) := by
  unfold Machine.logEvent logAs occur; split <;> rfl

theorem takeSlot (tier ch g : Nat) (s : State) : FlashApart s (takeSlot tier ch g s) := by
  unfold Machine.takeSlot; split <;> rfl

theorem startProg (p : FlmProg) (s : State) : FlashApart s (startProg p s) := by
  unfold Machine.startProg nextDie
  split
  · exact modFlm _ s
  · dsimp only
    split
    next => exact modFlm _ s
    next d t h =>
      split at h
      · cases h
      · cases h; exact trans (modFlm _ s) (trans (modFlm _ _) (takeSlot ..))

theorem flmHealth (s : State) : FlashApart s (flmHealth s) := by
  unfold Machine.flmHealth
  split
  · exact refl s
  · exact trans (overLoop (fun c s => logEvent ..) _ s) (modFlm _ _)

theorem eraseCopies (lua units seq : Nat) (s : State) : FlashApart s (eraseCopies lua units seq s) :=
  overLoop (fun _ s => modFlm _ s) _ s

theorem secureWork (s : State) : FlashApart s (secureWork s) := by
  refine overLoop (fun x s => ?_) _ s
  dsimp only
  split
  · exact trans (modFlm _ s) (overLoop (fun p s => startProg _ s) _ _)
  · split
    · exact trans (modFlm _ s) (eraseCopies ..)
    · exact refl s

theorem discardFrame (f : Nat) (secure : Bool) (s : State) : FlashApart s (discardFrame f secure s) := by
  unfold Machine.discardFrame
  split
  · split
    · exact trans (modFlm _ s) (secureWork _)
    · exact trans (overLoop (fun p s => startProg _ s) _ s) (flmHealth _)
  · exact modFlm _ s

end FlashApart

/-- Two states that differ at most in the frames, the pool's bytes and the flash. -/
def FreeApart (s t : State) : Prop :=
  t = { s with sat := t.sat, ctr := t.ctr, log := t.log, flm := t.flm
               tie := { s.tie with slots := t.tie.slots, frames := t.tie.frames, mem := t.tie.mem } }

namespace FreeApart

theorem refl (s : State) : FreeApart s s := rfl

theorem trans {s t u : State} (h : FreeApart s t) (k : FreeApart t u) : FreeApart s u := by
  unfold FreeApart at *; rw [k, h]

theorem of_flash {s t : State} (h : FlashApart s t) : FreeApart s t := by
  unfold FlashApart FreeApart at *; rw [h]

theorem freeFrame (id : Nat) (s : State) : FreeApart s (freeFrame id s) := by
  unfold Machine.freeFrame
  split
  · exact refl s
  · dsimp only
    split
    · refine trans ?_ (of_flash (FlashApart.discardFrame ..)); rfl
    · rfl

theorem freeUnheld (ids : List Nat) (s : State) : FreeApart s (freeUnheld ids s) :=
  forEach_rel refl trans (fun id s => by split; exacts [refl s, freeFrame id s]) ids s

end FreeApart

/-- Two states that differ at most in what follows every command can change. -/
def SettleApart (s t : State) : Prop :=
  t = { s with out := t.out, sat := t.sat, ctr := t.ctr, arch := t.arch, log := t.log, img := t.img
               erc := { s.erc with admission := t.erc.admission }
               fab := t.fab, coh := t.coh, jsl := t.jsl, tie := t.tie, flm := t.flm, pkg := t.pkg }

namespace SettleApart

theorem refl (s : State) : SettleApart s s := rfl

theorem trans {s t u : State} (h : SettleApart s t) (k : SettleApart t u) : SettleApart s u := by
  unfold SettleApart at *; rw [k, h]

theorem overLoop {α : Type} {f : α → State → State} (h : ∀ a s, SettleApart s (f a s)) (l : List α) (s : State) :
    SettleApart s (forEach l f s) :=
  forEach_rel refl trans h l s

theorem of_free {s t : State} (h : FreeApart s t) : SettleApart s t := by
  unfold FreeApart SettleApart at *; rw [h]

theorem finishDeletes (s : State) : SettleApart s (finishDeletes s) := by
  refine overLoop (fun q s => ?_) _ s
  refine trans ?_ (of_free (FreeApart.freeUnheld ..)); rfl

theorem recordSteps (s : State) : SettleApart s (recordSteps s) := by
  unfold Machine.recordSteps
  split
  · refine overLoop (fun i s => ?_) [4, 5, 6, 7, 8] s
    split <;> rfl
  · exact refl s

theorem drainWatch (s : State) : SettleApart s (drainWatch s) := by
  unfold Machine.drainWatch
  split
  · rfl
  · split
    · rfl
    · split <;> rfl

theorem admissionWork (s : State) : SettleApart s (admissionWork s) := by
  unfold Machine.admissionWork
  dsimp only
  split
  all_goals
    split
    · split <;> rfl
    · rfl

theorem endSession (sid : Nat) (s : State) : SettleApart s (endSession sid s) := rfl

theorem setJsl (f : Jsl → Jsl) (s : State) : SettleApart s (setJsl f s) := rfl

theorem jqEmit (f : JqFrame) (payload : List Byte) (s : State) : SettleApart s (jqEmit f payload s) := rfl

theorem bumpCtr (a n : Nat) (s : State) : SettleApart s (bumpCtr a n s) := rfl

theorem issue (q : Requester) (p : Packet) (s : State) : SettleApart s (issue q p s) := rfl

theorem guarded {s t : State} (b : Bool) (h : SettleApart s t) : SettleApart s (if b then t else s) := by
  cases b
  · exact refl s
  · exact h

theorem transmit (x : JqSend) (s : State) : SettleApart s (transmit x s) := by
  have ended : ∀ (b : Bool) (t : State), SettleApart s t → SettleApart s (if b then Machine.endSession x.f.sid t else t) :=
    fun b t h => trans h (guarded b (endSession ..))
  unfold Machine.transmit
  generalize (x.f.prot && x.reply.isNone) = own
  dsimp only
  split
  · rfl
  · refine ended _ _ ?_
    split
    · exact trans (guarded own (setJsl _ s)) (trans (setJsl _ _) (trans (jqEmit ..) (bumpCtr ..)))
    · exact trans (guarded own (setJsl _ s)) (trans (setJsl _ _) (issue ..))
    · exact guarded own (setJsl _ s)

theorem jqPump (s : State) : SettleApart s (jqPump s) := by
  refine trans ?_ (overLoop (fun x s => ?_) _ _)
  · rfl
  · split
    · exact transmit x s
    · rfl

theorem pushLog (sid : Nat) (s : State) : SettleApart s (pushLog sid s) := by
  unfold Machine.pushLog
  dsimp only
  split
  · rfl
  · refine trans ?_ (transmit ..); rfl

theorem streamRecord (g : Nat) (s : State) : SettleApart s (streamRecord g s) := by
  unfold Machine.streamRecord
  dsimp only
  split
  · rfl
  · split
    · refine trans ?_ (overLoop (fun k s => ?_) _ _)
      · rfl
      · rfl
    · rfl

theorem jqWork (s : State) : SettleApart s (jqWork s) := by
  unfold Machine.jqWork
  dsimp only
  have logs := trans (jqPump s)
    (overLoop (fun sid s => overLoop (fun _ s => pushLog sid s) (List.range 5) s) (s.jsl.sessions.map (·.1)) (Machine.jqPump s))
  split
  · rfl
  · split
    · exact logs
    · exact trans (trans logs (overLoop streamRecord _ _)) (jqPump _)

theorem settle (s : State) : SettleApart s (settle s) :=
  trans (finishDeletes s) (trans (recordSteps _) (trans (drainWatch _) (trans (admissionWork _) (jqWork _))))

end SettleApart

@[simp] theorem settle_trm (s : State) : (settle s).trm = s.trm := by rw [SettleApart.settle s]
@[simp] theorem settle_erc_probes (s : State) : (settle s).erc.probes = s.erc.probes := by rw [SettleApart.settle s]

/-! ## A stall that ends while the machine firmware restarts (R98, R108) -/

/-- A Trimmer whose firmware restarts while its own `ARR.WAIT` into `x1` is stalled, with a completion queued. -/
def waitingInRestart : State :=
  { trm := [(0, { fwDown := true, stall := some (.wait 1 4 0 none), cplq := [7] })] }

/-- The pc of the running code is the Trimmers' alone. -/
theorem rpc_of_trm {s u : State} (h : u.trm = s.trm) (t : Nat) : u.rpc t = s.rpc t := by
  unfold State.rpc State.runCtx State.inM State.trmOf
  rw [h]

/-- Refutes O21: a stall of the machine firmware's own that ends while the firmware restarts (R98) leaves the pc at
the firmware's start, where the clauses for a stall that ends do not ask that the firmware is up. -/
theorem not_jobInstructions : ¬ Obligations.JobInstructions := by
  intro h
  obtain ⟨-, -, -, -, -, -, -, hWake, -⟩ := h waitingInRestart 0 1 0 0 (by decide) (by decide) (by decide) (by decide)
  obtain ⟨u, hu, -, hpc, -⟩ := hWake 0 none 7 [] rfl rfl (fun hr => absurd hr (by decide))
  have he : Completes (.arrWaitWake 0) waitingInRestart (endWait 0 1 4 waitingInRestart) := rfl
  have ht : u.trm = (endWait 0 1 4 waitingInRestart).trm := by
    simpa using congrArg (·.trm) (Host.Outcome.next.inj (hu.symm.trans he))
  exact absurd ((rpc_of_trm ht 0).symm.trans hpc) (by decide +kernel)

/-! ## A loss that ends a coordinator's wait (R475, R533) -/

/-- A staged image that makes port 0 a fabric port to node 5. -/
def imageWithPort : Image :=
  { sections := [{ ty := tyPORTS, scope := 1, node := 0, dig := [1], body := some [1, 0, 5, 0] }] }

/-- A coordinator that has prepared an epoch with that image and probes node 5; its port 0 is up in the role the image
in force gives it. -/
def awaitingLostNode : State :=
  { variant := .plf0pf
    arch := { cp := .run }
    fab := { node := 0 }
    img := { st := 3, isCoord := true, coord := 0, shadow := some imageWithPort, prepared := some 1, preparing := some 1,
             prepDigest := imageWithPort.imgDigest, readySent := true }
    erc := { probes := [(5, 0)] }
    prt := [(0, { lst := 4 })] }

/-- Refutes O57: the loss that a probe's timeout declares may let the coordinator commit the epoch it waits with; the
image then installed takes port 0 out of `UP` in its new role, and its neighbour, the lost node, is probed again. -/
theorem not_lossAndFirmware : ¬ Obligations.LossAndFirmware := by
  intro h
  obtain ⟨-, hLost, -⟩ := h awaitingLostNode
  obtain ⟨-, -, -, -, hTimeout⟩ := hLost 5 (by decide)
  obtain ⟨-, u, hu, hprobe, -⟩ := hTimeout 0 rfl
  have he : Completes (.probeTimeout 5) awaitingLostNode (probeTimeout 5 awaitingLostNode) := rfl
  have hp : u.erc.probes = (probeTimeout 5 awaitingLostNode).erc.probes := by
    simpa using congrArg (·.erc.probes) (Host.Outcome.next.inj (hu.symm.trans he))
  rw [hp] at hprobe
  exact absurd hprobe (by decide +kernel)

/-! ## Tables: entries, keys, and tables whose keys differ -/

section
variable {κ α : Type} [DecidableEq κ]

theorem mem_of_afind {m : Assoc κ α} {k : κ} {v : α} (h : afind m k = some v) : (k, v) ∈ m := by
  induction m with
  | nil => cases h
  | cons p r ih =>
    obtain ⟨a, b⟩ := p
    by_cases ha : a = k
    · subst ha
      simp only [afind, if_true, Option.some.injEq] at h
      simp [h]
    · exact List.mem_cons_of_mem _ (ih (by simpa [afind, ha] using h))

theorem afind_of_mem {m : Assoc κ α} (hn : (m.map (·.1)).Nodup) {k : κ} {v : α} (h : (k, v) ∈ m) : afind m k = some v := by
  induction m with
  | nil => cases h
  | cons p r ih =>
    obtain ⟨a, b⟩ := p
    obtain ⟨hna, hnr⟩ := List.nodup_cons.mp hn
    rcases List.mem_cons.mp h with heq | hr
    · cases heq; simp [afind]
    · have hne : a ≠ k := by rintro rfl; exact hna (List.mem_map_of_mem (f := (·.1)) hr)
      simpa [afind, hne] using ih hnr hr

/-- A table whose entries are changed one by one. -/
theorem aget_map_snd (m : Assoc κ α) (f : α → α) {k : κ} {v : α} (h : afind m k = some v) (d : α) :
    aget (m.map (fun q => (q.1, f q.2))) k d = f v := by
  induction m with
  | nil => cases h
  | cons p r ih =>
    obtain ⟨a, b⟩ := p
    by_cases ha : a = k
    · subst ha
      simp only [afind, if_true, Option.some.injEq] at h
      simp [aget, h]
    · simpa [aget, ha] using ih (by simpa [afind, ha] using h)

theorem not_mem_keys_of_afind {m : Assoc κ α} {k : κ} (h : afind m k = none) : k ∉ m.map (·.1) := by
  induction m with
  | nil => simp
  | cons p r ih =>
    obtain ⟨a, b⟩ := p
    by_cases ha : a = k
    · simp [afind, ha] at h
    · have hr := ih (by simpa [afind, ha] using h)
      simp only [List.map_cons, List.mem_cons, not_or]
      exact ⟨Ne.symm ha, hr⟩

/-- Setting an entry keeps the keys, and puts a new one last. -/
theorem map_fst_aset (m : Assoc κ α) (k : κ) (v : α) :
    (aset m k v).map (·.1) = if k ∈ m.map (·.1) then m.map (·.1) else m.map (·.1) ++ [k] := by
  induction m with
  | nil => rfl
  | cons p r ih =>
    obtain ⟨a, b⟩ := p
    by_cases ha : a = k
    · simp [aset, ha]
    · simp only [aset, if_neg ha, List.map_cons, ih, List.mem_cons, Ne.symm ha, false_or]
      split <;> rfl

theorem nodup_keys_aset {m : Assoc κ α} (hn : (m.map (·.1)).Nodup) (k : κ) (v : α) : ((aset m k v).map (·.1)).Nodup := by
  rw [map_fst_aset]
  split
  · exact hn
  · exact List.nodup_append.mpr ⟨hn, List.nodup_singleton k, fun x hx y hy e => by simp_all⟩

theorem mem_aset_of_nodup {m : Assoc κ α} {k : κ} {v : α} (hn : (m.map (·.1)).Nodup) {x : κ × α} (h : x ∈ aset m k v) :
    x = (k, v) ∨ x ∈ m ∧ x.1 ≠ k := by
  induction m with
  | nil => exact .inl (by simpa [aset] using h)
  | cons p r ih =>
    obtain ⟨a, b⟩ := p
    obtain ⟨hna, hnr⟩ := List.nodup_cons.mp hn
    by_cases ha : a = k
    · subst ha
      rcases List.mem_cons.mp (by simpa [aset] using h) with he | hr
      · exact .inl he
      · exact .inr ⟨List.mem_cons_of_mem _ hr, fun e => hna (e ▸ List.mem_map_of_mem (f := (·.1)) hr)⟩
    · rcases List.mem_cons.mp (by simpa [aset, ha] using h) with he | hr
      · exact .inr ⟨by simp [he], by simp [he, ha]⟩
      · exact (ih hnr hr).imp id (fun ⟨hm, hne⟩ => ⟨List.mem_cons_of_mem _ hm, hne⟩)

end

/-! ## Jobs of an array that end (R80, R90) -/

theorem scramble_arr (g off n : Nat) (s : State) : (scramble g off n s).arrs.arr = s.arrs.arr := by
  unfold scramble drawBytes shelfWrite
  dsimp only
  split <;> rfl

theorem endJob_of_none {a slot : Nat} {s : State} (h : s.job a slot = none) (st jstat cause : Nat) :
    endJob a slot st jstat cause s = s := by
  simp only [endJob, h]

/-- A job that ends changes its own slot of the arrays, and the bytes of its ranges. -/
theorem endJob_arr {a slot : Nat} {s : State} {j : ArrJob} (h : s.job a slot = some j) (st jstat cause : Nat) :
    (endJob a slot st jstat cause s).arrs.arr
      = (setJob a slot { j with st := st, jstat := jstat, cause := cause, held := false, stage := [], outs := [] } s).arrs.arr := by
  have bytes : ∀ (l : List Nat) (t : State), (forEach l (fun i s => scramble (dSaggar j.desc) (outRange j.desc i).1
      (outRange j.desc i).2 s) t).arrs.arr = t.arrs.arr := fun l t =>
    forEach_rel (R := fun s t => t.arrs.arr = s.arrs.arr) (fun _ => rfl) (fun h k => k.trans h)
      (fun i s => scramble_arr ..) l t
  simp only [endJob, h]
  split
  · rfl
  · exact bytes _ _

theorem arr_modArr (a b : Nat) (f : Arr → Arr) (s : State) :
    (modArr a f s).arr b = if a = b then f (s.arr a) else s.arr b := aget_amod ..

@[simp] theorem arr_modArr_self (a : Nat) (f : Arr → Arr) (s : State) : (modArr a f s).arr a = f (s.arr a) :=
  aget_amod_self ..

theorem arr_modArr_ne {a b : Nat} (h : b ≠ a) (f : Arr → Arr) (s : State) : (modArr a f s).arr b = s.arr b := by
  rw [arr_modArr, if_neg (Ne.symm h)]

theorem arr_of_arrs {s t : State} (h : t.arrs.arr = s.arrs.arr) (b : Nat) : t.arr b = s.arr b := by
  rw [State.arr, State.arr, h]

/-- A job that ends leaves every fence. -/
theorem endJob_fence (a slot st jstat cause b : Nat) (s : State) :
    ((endJob a slot st jstat cause s).arr b).fence = (s.arr b).fence := by
  cases h : s.job a slot with
  | none => rw [endJob_of_none h]
  | some j =>
    rw [arr_of_arrs (endJob_arr h st jstat cause), setJob, arr_modArr]
    split
    next hab => rw [hab]
    next => rfl

/-- Of the slots after a job has ended, each holds that ended job or is another's. -/
theorem endJob_slots {a slot : Nat} {s : State} (hn : ((s.arr a).slots.map (·.1)).Nodup) (st jstat cause : Nat) :
    (((endJob a slot st jstat cause s).arr a).slots.map (·.1)).Nodup ∧
      ∀ x ∈ ((endJob a slot st jstat cause s).arr a).slots, x.2.st = st ∨ x ∈ (s.arr a).slots ∧ x.1 ≠ slot := by
  cases h : s.job a slot with
  | none =>
    rw [endJob_of_none h]
    exact ⟨hn, fun x hx => .inr ⟨hx, fun e => not_mem_keys_of_afind h (e ▸ List.mem_map_of_mem (f := (·.1)) hx)⟩⟩
  | some j =>
    rw [arr_of_arrs (endJob_arr h st jstat cause), setJob, arr_modArr_self]
    exact ⟨nodup_keys_aset hn .., fun x hx => (mem_aset_of_nodup hn hx).imp (fun e => by rw [e]) id⟩

/-- Once a list of jobs has ended, every slot holds an ended job or one not of the list. -/
theorem endJobs_slots (a st jstat cause : Nat) (l : List (Nat × ArrJob)) {s : State}
    (hn : ((s.arr a).slots.map (·.1)).Nodup) :
    ∀ x ∈ ((forEach l (fun q s => endJob a q.1 st jstat cause s) s).arr a).slots,
      x.2.st = st ∨ x ∈ (s.arr a).slots ∧ x.1 ∉ l.map (·.1) := by
  induction l generalizing s with
  | nil => exact fun x hx => .inr ⟨hx, by simp⟩
  | cons q r ih =>
    obtain ⟨hn', hs⟩ := endJob_slots (slot := q.1) hn st jstat cause
    intro x hx
    rcases ih hn' x hx with h | ⟨hm, hr⟩
    · exact .inl h
    · refine (hs x hm).imp id fun ⟨hm, hne⟩ => ⟨hm, ?_⟩
      simp only [List.map_cons, List.mem_cons, not_or]
      exact ⟨hne, hr⟩

theorem endJobs_fence (a st jstat cause b : Nat) (l : List (Nat × ArrJob)) (s : State) :
    ((forEach l (fun q s => endJob a q.1 st jstat cause s) s).arr b).fence = (s.arr b).fence :=
  forEach_rel (R := fun s t => (t.arr b).fence = (s.arr b).fence) (fun _ => rfl) (fun h k => k.trans h)
    (fun _ _ => endJob_fence ..) l s

/-! ## Fences and tests of an array (R90 to R92) -/

@[simp] theorem answerCsr_arrs (who : Who) (a : Nat) (st : Status) (w : Word32) (s : State) :
    (answerCsr who a st w s).arrs = s.arrs := by
  unfold answerCsr firmwareFault
  split
  · split <;> rfl
  · rfl

@[simp] theorem queueUpcall_arrs (t : Nat) (e : TrmEvent) (s : State) : (queueUpcall t e s).arrs = s.arrs := rfl

@[simp] theorem logAs_arrs (plane : Plane) (code unit : Nat) (sag : Option Nat) (payload : List Nat) (s : State) :
    (logAs plane code unit sag payload s).arrs = s.arrs := by
  unfold logAs occur; split <;> rfl

@[simp] theorem upcallSaggar_arrs (g kind id : Nat) (s : State) : (upcallSaggar g kind id s).arrs = s.arrs :=
  forEach_rel (R := fun s t => t.arrs = s.arrs) (fun _ => rfl) (fun h k => k.trans h) (fun t s => queueUpcall_arrs t _ s) _ s

/-- The arrays after an array has been fenced: those after its active jobs have ended. -/
theorem fenceArrayOnly_arrs {a cause tag : Nat} {plane : Plane} {s : State} (h : (s.arr a).fence.on = false) :
    (fenceArrayOnly a cause plane tag s).arrs = (forEach ((s.arr a).slots.filter (fun q => q.2.active))
      (fun q s => endJob a q.1 7 jFENCED 1 s) (modArr a (fun x => { x with
        fence := { on := true, cause := cause }
        unplanned := true
        kept := x.kept.map (fun (t : Tile) => if t.st = 0 then { t with st := 3 } else t) }) s)).arrs := by
  simp only [fenceArrayOnly, h]
  split
  next hb => cases hb
  next =>
    split
    · rw [upcallSaggar_arrs, logAs_arrs]
    · rw [logAs_arrs]

theorem arr_of_arrs_eq {s t : State} (h : t.arrs = s.arrs) (b : Nat) : t.arr b = s.arr b :=
  arr_of_arrs (congrArg Arrs.arr h) b

/-- An array that is fenced has the cause and no active job; every other keeps its fence. -/
theorem fenceArrayOnly_spec {a cause tag : Nat} {plane : Plane} {s : State} (h : (s.arr a).fence.on = false)
    (hn : ((s.arr a).slots.map (·.1)).Nodup) :
    ((fenceArrayOnly a cause plane tag s).arr a).fence = { on := true, cause := cause }
      ∧ (∀ x ∈ ((fenceArrayOnly a cause plane tag s).arr a).slots, x.2.active = false)
      ∧ (∀ b, b ≠ a → ((fenceArrayOnly a cause plane tag s).arr b).fence = (s.arr b).fence) := by
  simp only [arr_of_arrs_eq (fenceArrayOnly_arrs h)]
  refine ⟨?_, fun x hx => ?_, fun b hb => ?_⟩
  · rw [endJobs_fence, arr_modArr_self]
  · rcases endJobs_slots a 7 jFENCED 1 _ (by rwa [arr_modArr_self]) x hx with hst | ⟨hm, hk⟩
    · simp [ArrJob.active, hst]
    · rw [arr_modArr_self] at hm
      by_contra hact
      exact hk (List.mem_map_of_mem (f := (·.1)) (List.mem_filter.mpr ⟨hm, by simpa using hact⟩))
  · rw [endJobs_fence, arr_modArr_ne hb]

/-- Only a fence by residue, cause 0x1, may go on to fence the whole die (R540). -/
theorem fenceArray_eq {a cause tag : Nat} {plane : Plane} {s : State} (h : cause ≠ 1) :
    fenceArray a cause plane tag s = fenceArrayOnly a cause plane tag s := by
  simp [fenceArray, h]

theorem fenceCauseOf_ne_one (who : Who) : fenceCauseOf who ≠ 1 := by cases who <;> simp [fenceCauseOf]

theorem ctlWrite_of_open {who : Who} {a : Nat} {f : State → State} {s : State} (h : s.csrGate who a true = none) :
    ctlWrite who a true f s = f (answerCsr who a .ok 0 s) := by
  simp [ctlWrite, h]

theorem ctlWrite_of_not_allowed {who : Who} {a : Nat} {f : State → State} {s : State} (h : s.csrGate who a true = none) :
    ctlWrite who a false f s = answerCsr who a .denied 0 s := by
  simp [ctlWrite, h]

theorem arrBist_arrs_pass (a : Nat) (plane : Plane) (lift : Bool) (s : State) :
    (arrBist a 0 plane lift s).arrs = (modArr a (fun x => { x with fence := {}, bist := none }) s).arrs := by
  cases lift
  · rfl
  · exact logAs_arrs ..

theorem arrBist_arrs_fail {r : Word64} (hr : r ≠ 0) (a : Nat) (plane : Plane) (lift : Bool) (s : State) :
    (arrBist a r plane lift s).arrs = (modArr a (fun x => { x with fence := { on := true, cause := 3 }, bist := none }) s).arrs := by
  simp only [arrBist, hr, if_false, logAs_arrs]

theorem arrBistDone_of_bist {a : Nat} {m : Bool} {s : State} (h : (s.arr a).bist = some m) (r : Word64) :
    arrBistDone a r s = arrBist a r (if m then .management else .control) true s := by
  simp only [arrBistDone, h]

theorem arrBistDone_of_none {a : Nat} {s : State} (h : (s.arr a).bist = none) (r : Word64) : arrBistDone a r s = s := by
  simp only [arrBistDone, h]

theorem powerOnBist_of_waiting {a : Nat} {s : State} (ha : a < s.variant.arrays)
    (hd : s.erc.adFenced.getD (arrDie a) false = false) (hf : (s.arr a).fence.on = true) (hc : (s.arr a).fence.cause = 2)
    (r : Word64) : powerOnBist a r s = arrBist a r .management false s := by
  rw [powerOnBist, hd]
  simp [ha, hf, hc]

/-- Settles O19: by what the fence, the control writes and the tests do to the array. -/
theorem arrayFences : Obligations.ArrayFences := by
  intro s who a hw ha
  have hwf : (who.wf && decide (a < 1536)) = true := by rw [hw, decide_eq_true ha]; rfl
  have tested : ∀ {c : Instr} {u : State} (f : Arr → Arr), Completes c s u → u.arrs = (modArr a f s).arrs →
      Effect c s (fun u => u.arr a = f (s.arr a) ∧ ∀ b, b ≠ a → u.arr b = s.arr b) := fun f hc hu =>
    effect_of hc ⟨(arr_of_arrs_eq hu a).trans (arr_modArr_self ..), fun b hb =>
      (arr_of_arrs_eq hu b).trans (arr_modArr_ne hb ..)⟩
  refine ⟨fun hg hf hn => ?_, fun hg hl hf => ?_, fun hg hl => ?_, fun m r hb hr => ?_, fun m r hb hr => ?_,
    fun r hb => ?_, fun r ha' hd hf hc hr => ?_, fun r ha' hd hf hc hr => ?_⟩
  · have hs : (answerCsr who (arrCtrl a) .ok 0 s).arr = s.arr := funext (arr_of_arrs_eq (answerCsr_arrs ..))
    have spec := fenceArrayOnly_spec (a := a) (cause := fenceCauseOf who) (tag := 0) (plane := planeOf who)
      (s := answerCsr who (arrCtrl a) .ok 0 s) (by rwa [hs]) (by rwa [hs])
    rw [hs] at spec
    refine effect_of (run_ok hwf ?_) spec
    rw [ctlWrite_of_open hg, fenceArray_eq (fenceCauseOf_ne_one who)]
  · refine run_ok hwf ?_
    have hf' : ((answerCsr who (arrCtrl a) .ok 0 s).arr a).fence.on = true := by
      rwa [arr_of_arrs_eq (answerCsr_arrs ..)]
    rw [hl, ctlWrite_of_open hg, if_pos hf']
  · refine run_ok hwf ?_
    rw [hl, ctlWrite_of_not_allowed hg]
  · subst hr
    have done : Completes (.arrBistDone a 0) s _ := run_ok (decide_eq_true ha) (arrBistDone_of_bist hb 0)
    exact tested _ done (arrBist_arrs_pass ..)
  · have done : Completes (.arrBistDone a r) s _ := run_ok (decide_eq_true ha) (arrBistDone_of_bist hb r)
    exact tested _ done (arrBist_arrs_fail hr ..)
  · exact run_ok (decide_eq_true ha) (arrBistDone_of_none hb r)
  · subst hr
    exact run_ok (decide_eq_true ha) (powerOnBist_of_waiting ha' hd hf hc 0)
  · have done : Completes (.arrayPowerOnBist a r) s _ :=
      run_ok (decide_eq_true ha) (powerOnBist_of_waiting ha' hd hf hc r)
    exact tested _ done (arrBist_arrs_fail hr ..)

/-! ## A Trimmer enters service (R98, R121, R126) -/

/-- The program a Trimmer is loaded with: its saggar's; none where it has no saggar. -/
def State.programOf (s : State) (t : Nat) : List Byte := match s.trmOwner t with | some g => s.program g | none => []

/-- A Trimmer that a program was loaded into, or, where that is empty, firmware alone (R126). -/
def Trm.withProgram (b : List Byte) (x : Trm) : Trm :=
  let clean : Trm := { fence := x.fence, mode := 1, fwCopyB := x.fwCopyB, fwDown := x.fwDown, bist := x.bist, rptq := x.rptq,
                       mcsr := x.mcsr, mctx := x.mctx, fwMem := x.fwMem, resetAt := x.resetAt, hpm := x.hpm,
                       frozen := x.frozen, call := x.call, mem := memClear x.mem 0x9000 (0x40000 - 0x9000) }
  if b.isEmpty then clean
  else { clean with mode := 2, run := .main, ctx := { pc := progEntry b }
                    mem := memWrite clean.mem 0x9000 (fit (progBytes b) (0x40000 - 0x9000)) }

theorem withProgram_nil (x : Trm) :
    (x.withProgram []).mode = 1 ∧ (x.withProgram []).run = .none := ⟨rfl, rfl⟩

theorem withProgram_of_ne_nil {b : List Byte} (h : b ≠ []) (x : Trm) :
    (x.withProgram b).mode = 2 ∧ (x.withProgram b).run = .main ∧ (x.withProgram b).ctx.pc = progEntry b := by
  have he : b.isEmpty = false := by simpa using h
  simp [Trm.withProgram, he]

theorem one_le_mode_withProgram (b : List Byte) (x : Trm) : 1 ≤ (x.withProgram b).mode := by
  cases b with
  | nil => exact le_refl 1
  | cons c r => exact (withProgram_of_ne_nil (List.cons_ne_nil c r) x).1 ▸ one_le_two

@[simp] theorem withProgram_fence (b : List Byte) (x : Trm) : (x.withProgram b).fence = x.fence := by
  unfold Trm.withProgram; dsimp only; split <;> rfl
@[simp] theorem withProgram_resetAt (b : List Byte) (x : Trm) : (x.withProgram b).resetAt = x.resetAt := by
  unfold Trm.withProgram; dsimp only; split <;> rfl
@[simp] theorem withProgram_fwCopyB (b : List Byte) (x : Trm) : (x.withProgram b).fwCopyB = x.fwCopyB := by
  unfold Trm.withProgram; dsimp only; split <;> rfl
@[simp] theorem withProgram_mctx (b : List Byte) (x : Trm) : (x.withProgram b).mctx = x.mctx := by
  unfold Trm.withProgram; dsimp only; split <;> rfl
@[simp] theorem withProgram_fwMem (b : List Byte) (x : Trm) : (x.withProgram b).fwMem = x.fwMem := by
  unfold Trm.withProgram; dsimp only; split <;> rfl

theorem loadProgram_eq (t : Nat) (s : State) :
    loadProgram t s = modTrm t (fun x => x.withProgram (s.programOf t)) (disownJobs t s) := rfl

/-- A Trimmer with the firmware copy in force, its fence lifted, at time `n`. -/
def Trm.withFirmware (k : FwKind) (n : Nat) (x : Trm) : Trm :=
  { x with
    fence := { on := false, cause := 0 }
    mode := 1
    resetAt := if x.mode = 0 then n else x.resetAt
    fwCopyB := k.inForceB
    fwMem := memWrite [] 0 (k.inForce.2.take 0x10000)
    mem := memWrite (memClear x.mem 0 0x8000) 0 (sub k.inForce.2 0x10000 (min 0x8000 (k.inForce.2.length - 0x10000)))
    mctx := { pc := 0x8000000 } }

theorem trmOf_enterService (t : Nat) (s : State) :
    (enterService t s).trmOf t = ((s.trmOf t).withFirmware (s.fw 3) s.now).withProgram (s.programOf t) := by
  rw [enterService, loadProgram_eq, trmOf_modTrm_self, trmOf_disownJobs, loadFirmware, trmOf_modTrm_self,
    trmOf_modTrm_self]
  rfl

theorem trmOf_enterService_ne {t k : Nat} (h : k ≠ t) (s : State) : (enterService t s).trmOf k = s.trmOf k := by
  rw [enterService, loadProgram_eq, trmOf_modTrm_ne _ _ h, trmOf_disownJobs, loadFirmware, trmOf_modTrm_ne _ _ h,
    trmOf_modTrm_ne _ _ h]

theorem enterService_frame (t : Nat) (s : State) :
    enterService t s = { s with trm := (enterService t s).trm, arrs := (enterService t s).arrs } := rfl

/-! ## A swap that times out (R123) -/

/-- The step of `swapTimeout` for one Trimmer: it leaves the swap, and resumes what it had stopped. -/
def leaveSwap (t : Nat) (s : State) : State :=
  if (s.trmOf t).swap.isNone then s else
  let s := modTrm t (fun x => { x with swap := none }) s
  if (s.trmOf t).run = .none then resumeMain t s else s

theorem trmOf_leaveSwap_ne {t k : Nat} (h : k ≠ t) (s : State) : (leaveSwap t s).trmOf k = s.trmOf k := by
  unfold leaveSwap resumeMain
  dsimp only
  split
  · rfl
  · split
    · rw [trmOf_modTrm_ne _ _ h, trmOf_modTrm_ne _ _ h]
    · rw [trmOf_modTrm_ne _ _ h]

theorem leaveSwap_swap (t : Nat) (s : State) : ((leaveSwap t s).trmOf t).swap = none := by
  unfold leaveSwap resumeMain
  dsimp only
  split
  next h => exact Option.isNone_iff_eq_none.mp h
  next =>
    split
    · rw [trmOf_modTrm_self, trmOf_modTrm_self]
      dsimp only
      split
      · rfl
      · split <;> rfl
    · rw [trmOf_modTrm_self]

theorem leaveSwap_frame (t : Nat) (s : State) : leaveSwap t s = { s with trm := (leaveSwap t s).trm } := by
  unfold leaveSwap
  dsimp only
  split
  · rfl
  · split <;> rfl

theorem leaveSwaps_frame (l : List Nat) (s : State) : forEach l leaveSwap s = { s with trm := (forEach l leaveSwap s).trm } :=
  forEach_rel (R := fun s t => t = { s with trm := t.trm }) (fun _ => rfl) (fun h k => by rw [k, h]) leaveSwap_frame l s

theorem trmOf_leaveSwaps_of_not_mem {l : List Nat} {k : Nat} (h : k ∉ l) (s : State) :
    (forEach l leaveSwap s).trmOf k = s.trmOf k := by
  induction l generalizing s with
  | nil => rfl
  | cons t r ih =>
    obtain ⟨hne, hr⟩ := not_or.mp (List.mem_cons.not.mp h)
    exact (ih hr (leaveSwap t s)).trans (trmOf_leaveSwap_ne hne s)

theorem leaveSwaps_swap {l : List Nat} {k : Nat} (h : k ∈ l) (s : State) : ((forEach l leaveSwap s).trmOf k).swap = none := by
  induction l generalizing s with
  | nil => cases h
  | cons t r ih =>
    by_cases hr : k ∈ r
    · exact ih hr (leaveSwap t s)
    · obtain rfl : k = t := (List.mem_cons.mp h).resolve_right hr
      rw [show forEach (k :: r) leaveSwap s = forEach r leaveSwap (leaveSwap k s) from rfl,
        trmOf_leaveSwaps_of_not_mem hr, leaveSwap_swap]

@[simp] theorem logEvent_trm (code unit : Nat) (sag : Option Nat) (payload : List Nat) (s : State) :
    (logEvent code unit sag payload s).trm = s.trm := by rw [FlashApart.logEvent code unit sag payload s]
@[simp] theorem logEvent_trms (code unit : Nat) (sag : Option Nat) (payload : List Nat) (s : State) :
    (logEvent code unit sag payload s).trms = s.trms := by rw [FlashApart.logEvent code unit sag payload s]
@[simp] theorem logEvent_now (code unit : Nat) (sag : Option Nat) (payload : List Nat) (s : State) :
    (logEvent code unit sag payload s).now = s.now := by rw [FlashApart.logEvent code unit sag payload s]

/-- The state a swap that timed out leaves, but for the log. -/
def swapLeft (g d : Nat) (s : State) : State :=
  forEach (s.trimmersOf g) leaveSwap
    (carry (d + aclk 1) { s with trms := { s.trms with swapDeadline := aerase s.trms.swapDeadline g } })

theorem trimmersOf_carry (n g : Nat) (s : State) : (carry n s).trimmersOf g = s.trimmersOf g := by
  simp only [State.trimmersOf, State.sagRec, State.nodeBody, carry_variant, carry_img, carry_fab]

theorem swapTimeout_of_armed {g d : Nat} {s : State} (h : afind s.trms.swapDeadline g = some d) :
    ∃ unit payload, swapTimeout g s = logEvent 0x0204 unit (some g) payload (swapLeft g d s) := by
  simp only [swapTimeout, h, expire, trimmersOf_carry]
  exact ⟨_, _, rfl⟩

/-! ## The end of a firmware restart (R124) -/

/-- A Trimmer with the same calls queued, its firmware as it was. -/
def Trm.SameCalls (x y : Trm) : Prop := y.rptq = x.rptq ∧ y.fwDown = x.fwDown

theorem queueUpcall_sameCalls (t : Nat) (e : TrmEvent) (s : State) : (s.trmOf t).SameCalls ((queueUpcall t e s).trmOf t) := by
  have h : (queueUpcall t e s).trmOf t
      = if (s.trmOf t).upcalls.contains e then s.trmOf t else { s.trmOf t with upcalls := (s.trmOf t).upcalls ++ [e] } :=
    trmOf_modTrm_self ..
  rw [h]
  split <;> exact ⟨rfl, rfl⟩

theorem bumpHpm_sameCalls (t c n : Nat) (s : State) : (s.trmOf t).SameCalls ((bumpHpm t c n s).trmOf t) := by
  have counted : ∀ h, (s.trmOf t).SameCalls ((modTrm t (fun x => { x with hpm := h }) s).trmOf t) := fun h => by
    rw [trmOf_modTrm_self]; exact ⟨rfl, rfl⟩
  unfold bumpHpm
  dsimp only
  split
  · obtain ⟨hq, hf⟩ := queueUpcall_sameCalls t _ _
    exact ⟨hq.trans (counted _).1, hf.trans (counted _).2⟩
  · exact counted _

/-- The end of a stall leaves the calls queued and the firmware up or down. -/
theorem endStall_sameCalls (t : Nat) (s : State) : (s.trmOf t).SameCalls ((endStall t s).trmOf t) := by
  have ended : ∀ c n, (s.trmOf t).SameCalls ((bumpHpm t c n (modTrm t (fun x => { x with stall := none }) s)).trmOf t) :=
    fun c n => by
      have h := bumpHpm_sameCalls t c n (modTrm t (fun x => { x with stall := none }) s)
      rwa [trmOf_modTrm_self] at h
  unfold endStall
  dsimp only
  split
  · exact ended ..
  · exact ended ..
  · exact ⟨rfl, rfl⟩

/-- The oldest call is dispatched into its handler. -/
theorem dispatchRpt_of_queued {t : Nat} {s : State} {c : RptCall} {rest : List RptCall} (h : (s.trmOf t).rptq = c :: rest) :
    ((dispatchRpt t s).trmOf t).fwDown = (s.trmOf t).fwDown ∧ ((dispatchRpt t s).trmOf t).run = .handler
      ∧ ((dispatchRpt t s).trmOf t).call = c ∧ ((dispatchRpt t s).trmOf t).rptq = rest := by
  obtain ⟨hq, hf⟩ := endStall_sameCalls t s
  rw [h] at hq
  unfold dispatchRpt
  dsimp only
  rw [hq]
  dsimp only
  rw [trmOf_modTrm_self]
  exact ⟨hf, rfl, rfl, rfl⟩

/-- With no fence event that can be passed on, the oldest queued call comes first. -/
theorem takeInterrupt_of_call {t : Nat} {s : State} (ht : t < s.variant.trimmers) (hi : (s.trmOf t).interruptible = true)
    (hp : (s.trmOf t).pick 19 = none) (hq : (s.trmOf t).rptq ≠ []) :
    takeInterrupt t s = dispatchRpt t (noteTrap t (s.trmPc t) (2 ^ 63 + 16) 0 s) := by
  have hq' : (s.trmOf t).rptq.isEmpty = false := by simpa using hq
  simp [takeInterrupt, ht, hi, hp, hq']

/-- A Trimmer with nothing pending takes no interrupt. -/
theorem takeInterrupt_of_idle {t : Nat} {s : State} (hq : (s.trmOf t).rptq = []) (hu : (s.trmOf t).upcalls = []) :
    takeInterrupt t s = s := by
  have hp : ∀ c, (s.trmOf t).pick c = none := fun c => by simp [Trm.pick, hu]
  simp [takeInterrupt, hp, hq]

theorem fwRestartDone_of_down {t : Nat} {s : State} (h : (s.trmOf t).fwDown = true) :
    fwRestartDone t s = takeInterrupt t (modTrm t (fun x => { x with fwDown := false }) s) := by
  simp [fwRestartDone, h]

/-! ## Service, fences and restarts of a Trimmer -/

theorem trmOf_answerCsr_ok (who : Who) (a t : Nat) (w : Word32) (s : State) :
    (answerCsr who a .ok w s).trmOf t = s.trmOf t := by
  cases who <;> rfl

theorem answerCsr_ok_frame (who : Who) (a : Nat) (w : Word32) (s : State) :
    answerCsr who a .ok w s = emit (.csr who a .ok w) s := by
  cases who <;> rfl

theorem trySwap_of_no_swap {g : Nat} {s : State} (h : s.trms.swapDeadline = []) : trySwap g s = s := by
  simp [trySwap, h, ahas, afind]

theorem trmBistDone_of_bist {t : Nat} {s : State} (h : (s.trmOf t).bist = true) (pass : Bool) :
    trmBistDone t pass s = if pass then enterService t (modTrm t (fun x => { x with bist := false }) s)
      else modTrm t (fun x => { x with fence := { on := true, cause := 3 } }) (modTrm t (fun x => { x with bist := false }) s) := by
  simp [trmBistDone, h]

/-- Settles O25: service and firmware restarts by the lemmas above, fences by `fenceTrimmer`'s. -/
theorem trimmerService : Obligations.TrimmerService := by
  intro s who t hw ht
  have hwf : (who.wf && decide (t < 128)) = true := by rw [hw, decide_eq_true ht]; rfl
  refine ⟨fun hv hf => ?_, fun hg hf hsw => ?_, fun hg hl hf => ?_, fun hg hl => ?_, fun hb => ⟨?_, ?_⟩, fun hg => ?_,
    fun hd hq hu => ?_, fun c rest hd hq hr hsw hf hm hv hbl hev => ?_, fun g d hg hd => ?_⟩
  · have hc : (decide (t < s.variant.trimmers) && (s.trmOf t).fence.on && (s.trmOf t).fence.cause = 2) = true := by
      simp [hv, hf]
    have done : Completes (.trimmerEnterService t) s (enterService t s) := run_ok (decide_eq_true ht) (if_pos hc)
    refine effect_of done ?_
    have hown : ∀ {g}, s.trmOwner t = some g → s.programOf t = s.program g := fun h => by rw [State.programOf, h]
    have alone : s.programOf t = [] → ((enterService t s).trmOf t).mode = 1 ∧ ((enterService t s).trmOf t).run = .none :=
      fun h => by rw [trmOf_enterService, h]; exact withProgram_nil _
    refine ⟨?_, ?_, ?_, ?_, ?_, fun h => alone (by rw [State.programOf, h]), fun g h hp => alone ((hown h).trans hp),
      fun g h hp => ?_, fun k hk => trmOf_enterService_ne hk s, enterService_frame t s⟩
    · rw [trmOf_enterService, withProgram_fence]; rfl
    · rw [trmOf_enterService, withProgram_resetAt]; rfl
    · rw [trmOf_enterService, withProgram_fwCopyB]; rfl
    · rw [trmOf_enterService, withProgram_mctx]; rfl
    · rw [trmOf_enterService, withProgram_fwMem]; rfl
    · rw [State.trmPc, trmOf_enterService, hown h]
      exact withProgram_of_ne_nil hp _
  · have hs : fenceTrimmer t (fenceCauseOf who) (answerCsr who (trmCtrl t) .ok 0 s)
        = disownJobs t (modTrm t (fun x => x.fenced (fenceCauseOf who)) (answerCsr who (trmCtrl t) .ok 0 s)) :=
      fenceTrimmer_of_unfenced (by rwa [trmOf_answerCsr_ok])
    have hd : (disownJobs t (modTrm t (fun x => x.fenced (fenceCauseOf who))
        (answerCsr who (trmCtrl t) .ok 0 s))).trms.swapDeadline = [] := by rw [answerCsr_ok_frame]; exact hsw
    have done : Completes (.trmFence who t) s (disownJobs t (modTrm t (fun x => x.fenced (fenceCauseOf who))
        (answerCsr who (trmCtrl t) .ok 0 s))) :=
      run_ok hwf ((ctlWrite_of_open hg).trans (by rw [hs, trySwap_of_no_swap hd]))
    refine effect_of done ?_
    rw [trmOf_disownJobs, trmOf_modTrm_self, trmOf_answerCsr_ok]
    exact ⟨rfl, rfl, rfl, fun k hk => (trmOf_disownJobs ..).trans
      ((trmOf_modTrm_ne _ _ hk).trans (trmOf_answerCsr_ok ..))⟩
  · refine run_ok hwf ?_
    have hf' : ((answerCsr who (trmCtrl t) .ok 0 s).trmOf t).fence.on = true := by rwa [trmOf_answerCsr_ok]
    rw [hl, ctlWrite_of_open hg, if_pos hf']
  · refine run_ok hwf ?_
    rw [hl, ctlWrite_of_not_allowed hg]
  · have done : Completes (.trmBistDone t true) s _ := run_ok (decide_eq_true ht) (trmBistDone_of_bist hb true)
    refine effect_of done ?_
    rw [if_pos rfl, trmOf_enterService, withProgram_fence]
    exact ⟨rfl, one_le_mode_withProgram ..⟩
  · have done : Completes (.trmBistDone t false) s _ := run_ok (decide_eq_true ht) (trmBistDone_of_bist hb false)
    refine effect_of done ?_
    rw [if_neg Bool.false_ne_true, trmOf_modTrm_self, trmOf_modTrm_self]
    exact ⟨rfl, rfl⟩
  · exact run_ok hwf (ctlWrite_of_open hg)
  · have idle : takeInterrupt t (modTrm t (fun x => { x with fwDown := false }) s)
        = modTrm t (fun x => { x with fwDown := false }) s :=
      takeInterrupt_of_idle (by rwa [trmOf_modTrm_self]) (by rwa [trmOf_modTrm_self])
    have done : Completes (.trimmerFwRestartDone t) s _ :=
      run_ok (decide_eq_true ht) ((fwRestartDone_of_down hd).trans idle)
    exact effect_of done ⟨trmOf_modTrm_self .., fun k hk => trmOf_modTrm_ne _ s hk⟩
  · have up := trmOf_modTrm_self t (fun x => { x with fwDown := false }) s
    have hi : ((modTrm t (fun x => { x with fwDown := false }) s).trmOf t).interruptible = true := by
      rw [up]
      simp only [Trm.interruptible, hf, hm, hr, hsw]
      simpa [Trm.blocked] using hbl
    have hp : ((modTrm t (fun x => { x with fwDown := false }) s).trmOf t).pick 19 = none := by
      rw [up]
      simpa [Trm.pick, hr] using hev
    have hn : ((modTrm t (fun x => { x with fwDown := false }) s).trmOf t).rptq = c :: rest := by rwa [up]
    have done : Completes (.trimmerFwRestartDone t) s _ :=
      run_ok (decide_eq_true ht) ((fwRestartDone_of_down hd).trans
        (takeInterrupt_of_call hv hi hp (hn ▸ List.cons_ne_nil c rest)))
    refine effect_of done ?_
    obtain ⟨h1, h2, h3, h4⟩ := dispatchRpt_of_queued (t := t) (c := c) (rest := rest)
      (s := noteTrap t ((modTrm t (fun x => { x with fwDown := false }) s).trmPc t) (2 ^ 63 + 16) 0
        (modTrm t (fun x => { x with fwDown := false }) s)) (by rw [noteTrap, trmOf_modTrm_self]; exact hn)
    refine ⟨?_, h2, h3, h4⟩
    rw [h1, noteTrap, trmOf_modTrm_self, up]
  · obtain ⟨unit, payload, he⟩ := swapTimeout_of_armed hd
    have done : Completes (.programSwapTimeout g) s _ := run_ok (decide_eq_true hg) he
    refine effect_of done ?_
    have hk : ∀ k, (logEvent 0x0204 unit (some g) payload (swapLeft g d s)).trmOf k = (swapLeft g d s).trmOf k :=
      fun k => by rw [State.trmOf, logEvent_trm]; rfl
    refine ⟨?_, ?_, fun k hm => ?_, fun k hm => ?_⟩
    · rw [logEvent_now, swapLeft, leaveSwaps_frame]; exact carry_now ..
    · rw [logEvent_trms, swapLeft, leaveSwaps_frame]
      simp
    · rw [hk]; exact leaveSwaps_swap hm _
    · rw [hk, swapLeft, trmOf_leaveSwaps_of_not_mem hm, State.trmOf, carry_trm]; rfl

/-! ## The Sitter's part of the state -/

@[simp] theorem sitOf_modSit_self (g : Nat) (f : SitSag → SitSag) (s : State) : (modSit g f s).sitOf g = f (s.sitOf g) :=
  aget_amod_self ..

/-- The leader's node is a fact of the image, the node and the recorded leader. -/
theorem leaderNode_congr {s t : State} (comp : Nat) (hi : t.img = s.img) (hn : t.fab.node = s.fab.node)
    (hl : ∀ g, (t.sitOf g).leader = (s.sitOf g).leader) : t.leaderNode comp = s.leaderNode comp := by
  have hsag : t.sagOfComp comp = s.sagOfComp comp := by
    unfold State.sagOfComp State.sagExists State.sagComp State.sagRec State.nodeBody
    rw [hi, hn]
  have hmem : t.members comp = s.members comp := by rw [State.members, State.compBody, hi]; rfl
  have hpar : t.compParam comp 0x0105 = s.compParam comp 0x0105 := by rw [State.compParam, State.compBody, hi]; rfl
  unfold State.leaderNode
  rw [hsag, hmem, hpar]
  cases s.sagOfComp comp with
  | none => rfl
  | some g => exact congrArg (fun r : Option Nat => (s.members comp).getD (r.getD (s.compParam comp 0x0105)) 0xFFFF) (hl g)

theorem sitOf_modSit (g h : Nat) (f : SitSag → SitSag) (s : State) :
    (modSit g f s).sitOf h = if g = h then f (s.sitOf g) else s.sitOf h := aget_amod ..

/-- A change of a saggar's part that keeps its leader keeps the leader's node. -/
theorem leaderNode_modSit (comp g : Nat) {f : SitSag → SitSag} (hf : ∀ x, (f x).leader = x.leader) (s : State) :
    (modSit g f s).leaderNode comp = s.leaderNode comp := by
  refine leaderNode_congr comp rfl rfl fun h => ?_
  rw [sitOf_modSit]
  split
  next e => rw [hf, e]
  next => rfl

theorem sagComp_of_sagOfComp {s : State} {comp g : Nat} (h : s.sagOfComp comp = some g) : s.sagComp g = comp := by
  have := List.find?_some h
  simp only [Bool.and_eq_true, decide_eq_true_eq] at this
  exact this.2

/-! ## Step tokens (R129) -/

theorem bits_leNat_cons (b : Byte) (r : List Byte) : bits (leNat (b :: r)) 0 8 = b.toNat := by
  have := b.isLt
  simp only [bits, leNat]
  omega

/-- The first byte of a token is its kind. -/
theorem tkKind_of_payload {p : Packet} {kind comp epoch step q d member : Nat} {rerun replay : Bool} (hk : kind < 256)
    (h : p.payload = tokenBytes kind comp epoch rerun replay step q d member) : tkKind p = kind := by
  have first : ∃ n r, tkWord p 0 = leNat (BitVec.ofNat 8 (kind + 256 * n) :: r) := by
    refine ⟨comp * 2 ^ 8 + epoch * 2 ^ 32 + b2n rerun * 2 ^ 48 + b2n replay * 2 ^ 49, ?_⟩
    rw [show kind + 256 * (comp * 2 ^ 8 + epoch * 2 ^ 32 + b2n rerun * 2 ^ 48 + b2n replay * 2 ^ 49)
      = kind + comp * 2 ^ 16 + epoch * 2 ^ 40 + b2n rerun * 2 ^ 56 + b2n replay * 2 ^ 57 by ring]
    rw [tkWord, h]
    exact ⟨_, rfl⟩
  obtain ⟨n, r, hw⟩ := first
  rw [tkKind, hw, bits_leNat_cons, BitVec.toNat_ofNat]
  omega

/-- `CLOSED` goes to the leader as one packet, with the clock stamped, and the step is closed (R27, R130). -/
theorem sendClosed_spec {s : State} {comp g : Nat} (h : s.sagOfComp comp = some g) :
    (sendClosed g s).sitOf g = { s.sitOf g with isOpen := false, mode := 0, recStall := false }
      ∧ (sendClosed g s).arch.lc = (stampLc s).arch.lc ∧ (sendClosed g s).jsl = s.jsl
      ∧ ∃ q : Packet, (sendClosed g s).fab.tx = s.fab.tx ++ [q] ∧ q.dst = s.leaderNode comp ∧ q.opcode = opSTEP
        ∧ tkKind q = 4 := by
  have hc := sagComp_of_sagOfComp h
  have sent := sitOf_modSit_self g (fun x => { x with isOpen := false, mode := 0, recStall := false }) s
  refine ⟨sent, rfl, rfl, _, rfl, ?_, rfl, tkKind_of_payload (by decide) rfl⟩
  have hl := leaderNode_modSit comp g (f := fun x => { x with isOpen := false, mode := 0, recStall := false }) (fun _ => rfl) s
  rw [← hl, ← hc]
  rfl

/-! ## Records that close, and the ring (R153) -/

/-- What the close of a step with record `r` leaves of its saggar's part, before the ring takes anything. -/
def SitSag.recorded (r : List Byte) (x : SitSag) : SitSag :=
  { x with
    waiting := x.waiting ++ [(x.step, false, r)]
    group := x.group ++ [digest r]
    firstStep := if x.group.isEmpty then x.step else x.firstStep
    lastStep := x.step
    frames := x.frames.filter (fun e => decide (x.step < e.1))
    trees := x.trees.filter (fun e => decide (x.step < e.1))
    inputs := x.inputs.filter (fun e => decide (x.step < e.1))
    assigns := x.assigns.filter (fun e => decide (x.step < e.1))
    outputs := x.outputs.filter (fun e => decide (x.step < e.1))
    combines := x.combines.filter (fun e => decide (x.step < e.2.1)) }

/-- The ring takes a record or seal. -/
def intoRing (r : RecordOut) (s : State) : State := { s with jsl := { s.jsl with records := s.jsl.records ++ [r] } }

/-- A record or seal that waits alone goes into the ring where it fits. -/
theorem drainWaiting_of_room {g n : Nat} {isSeal : Bool} {b : List Byte} {s : State} (hl : s.jsl.late = [])
    (hr : b.length ≤ s.ringFree) : drainWaiting g [(n, isSeal, b)] s
      = modSit g (fun x => { x with waiting := [] }) (intoRing { saggar := g, step := n, isSeal := isSeal, bytes := b } s) := by
  have hc : (s.jsl.late.isEmpty && decide (b.length ≤ s.ringFree)) = true := by rw [hl, decide_eq_true hr]; rfl
  exact if_pos hc

theorem drainWaiting_of_full {g n : Nat} {isSeal : Bool} {b : List Byte} {s : State} (hr : s.ringFree < b.length) :
    drainWaiting g [(n, isSeal, b)] s = modSit g (fun x => { x with waiting := [(n, isSeal, b)] }) s := by
  have hc : (s.jsl.late.isEmpty && decide (b.length ≤ s.ringFree)) ≠ true := by
    rw [decide_eq_false (by omega), Bool.and_false]; exact Bool.false_ne_true
  exact if_neg hc

/-- The record of an open step closes. -/
def closeRecord (g : Nat) (s : State) : State := modSit g (·.recorded (s.stepRecord g)) s

/-- What waits goes into the ring, a full group sealed first (R154). -/
def fillRing (g : Nat) (s : State) : State :=
  let s := if 1024 ≤ (s.sitOf g).group.length then sealGroup g s else s
  drainWaiting g (s.sitOf g).waiting s

/-- `CLOSED` is sent, or withheld while the ring has no room (R153). -/
def closeOrStall (comp g : Nat) (s : State) : State :=
  if (s.sitOf g).waiting.isEmpty then sendClosed g s
  else logEvent 0x0302 (s.myMember comp) (some g) [s.ringFree] (modSit g (fun x => { x with recStall := true }) s)

theorem memberDrained_eq {comp g : Nat} {s : State} (h : s.sagOfComp comp = some g) :
    memberDrained comp s =
      if !(s.sitOf g).isOpen || !(s.sitOf g).closing || (s.sitOf g).recStall || !s.stepDrained g then s
      else closeOrStall comp g (fillRing g (closeRecord g
        (stampLc (if (s.sitOf g).replay then compareReplay g s else s)))) := by
  unfold memberDrained
  rw [h]
  rfl

/-- Outside replay, a step that may close and has no work left closes its record into the ring. -/
theorem memberDrained_of_drained {comp g : Nat} {s : State} (hg : s.sagOfComp comp = some g)
    (ho : (s.sitOf g).isOpen = true) (hc : (s.sitOf g).closing = true) (hs : (s.sitOf g).recStall = false)
    (hd : s.stepDrained g = true) (hp : (s.sitOf g).replay = false) :
    memberDrained comp s = closeOrStall comp g (fillRing g (closeRecord g (stampLc s))) := by
  rw [memberDrained_eq hg, ho, hc, hs, hd, hp]
  rfl

/-- A record that waits alone, in a group that is not full, goes to the ring as `drainWaiting` says. -/
theorem fillRing_closeRecord {g : Nat} {s : State} (hn : (s.sitOf g).group.length < 1023) (hw : (s.sitOf g).waiting = []) :
    fillRing g (closeRecord g s) = drainWaiting g [((s.sitOf g).step, false, s.stepRecord g)] (closeRecord g s) := by
  have hsit : (closeRecord g s).sitOf g = (s.sitOf g).recorded (s.stepRecord g) := sitOf_modSit_self ..
  have hgroup : ¬ 1024 ≤ ((closeRecord g s).sitOf g).group.length := by
    rw [hsit]
    simp only [SitSag.recorded, List.length_append, List.length_singleton]
    omega
  have hwait : ((closeRecord g s).sitOf g).waiting = [((s.sitOf g).step, false, s.stepRecord g)] := by
    rw [hsit]
    simp only [SitSag.recorded, hw]
    rfl
  rw [fillRing, if_neg hgroup, hwait]

@[simp] theorem logEvent_sit (code unit : Nat) (sag : Option Nat) (payload : List Nat) (s : State) :
    (logEvent code unit sag payload s).sit = s.sit := by rw [FlashApart.logEvent code unit sag payload s]
@[simp] theorem logEvent_jsl (code unit : Nat) (sag : Option Nat) (payload : List Nat) (s : State) :
    (logEvent code unit sag payload s).jsl = s.jsl := by rw [FlashApart.logEvent code unit sag payload s]
@[simp] theorem logEvent_fab (code unit : Nat) (sag : Option Nat) (payload : List Nat) (s : State) :
    (logEvent code unit sag payload s).fab = s.fab := by rw [FlashApart.logEvent code unit sag payload s]

theorem closeOrStall_of_stored {comp g : Nat} {s : State} (h : (s.sitOf g).waiting = []) :
    closeOrStall comp g s = sendClosed g s := by
  simp [closeOrStall, h]

theorem closeOrStall_of_waiting {comp g : Nat} {s : State} (h : (s.sitOf g).waiting ≠ []) :
    closeOrStall comp g s = logEvent 0x0302 (s.myMember comp) (some g) [s.ringFree]
      (modSit g (fun x => { x with recStall := true }) s) := by
  have h' : (s.sitOf g).waiting.isEmpty = false := by simpa using h
  simp [closeOrStall, h']

theorem recRingRoom_of_stalled {comp g : Nat} {s : State} (hg : s.sagOfComp comp = some g) (hl : s.jsl.late = [])
    (hs : (s.sitOf g).recStall = true) {x : Nat × Bool × List Byte} (hw : (s.sitOf g).waiting = [x])
    (hr : ((drainWaiting g [x] s).sitOf g).waiting = []) :
    recRingRoom comp s = sendClosed g (drainWaiting g [x] s) := by
  have h0 : drainLate s.jsl.late s = s := by rw [hl, drainLate, ← hl]
  unfold recRingRoom
  rw [h0]
  simp only [hg, hs, hw, hr]
  rfl

/-- What a seal of bytes `b` leaves of its saggar's part. -/
def SitSag.sealedWith (b : List Byte) (x : SitSag) : SitSag :=
  { x with group := [], sealSeq := x.sealSeq + 1, chain := digest b }

theorem sealGroup_eq (g : Nat) (s : State) : sealGroup g s = if (s.sitOf g).group.isEmpty then s else
    drainWaiting g (((modSit g (·.sealedWith (s.sealBytes g)) s).sitOf g).waiting
      ++ [((s.sitOf g).lastStep, true, s.sealBytes g)]) (modSit g (·.sealedWith (s.sealBytes g)) s) := rfl

/-- The state with a saggar's group sealed, its seal not yet on its way. -/
def sealed (g : Nat) (s : State) : State := modSit g (·.sealedWith (s.sealBytes g)) s

theorem sealed_sitOf (g : Nat) (s : State) : (sealed g s).sitOf g = (s.sitOf g).sealedWith (s.sealBytes g) :=
  sitOf_modSit_self ..

/-- Sealing a nonempty group: the chain goes on, and the seal goes to the ring as `drainWaiting` says. -/
theorem sealGroup_of_group {g : Nat} {s : State} (h : (s.sitOf g).group ≠ []) (hw : (s.sitOf g).waiting = []) :
    sealGroup g s = drainWaiting g [((s.sitOf g).lastStep, true, s.sealBytes g)] (sealed g s) := by
  have h' : (s.sitOf g).group.isEmpty = false := by simpa using h
  have hwait : ((sealed g s).sitOf g).waiting = [] := by rw [sealed_sitOf]; exact hw
  rw [sealGroup_eq, h', if_neg Bool.false_ne_true, ← sealed, hwait, List.nil_append]

theorem sealGroup_of_empty {g : Nat} {s : State} (h : (s.sitOf g).group = []) : sealGroup g s = s := by
  simp [sealGroup, h]

theorem ringFree_closeRecord (g : Nat) (s : State) : (closeRecord g (stampLc s)).ringFree = s.ringFree := rfl

/-- The state once a record or seal that had room is in the ring. -/
def stored (g n : Nat) (isSeal : Bool) (b : List Byte) (s : State) : State :=
  modSit g (fun x => { x with waiting := [] }) (intoRing { saggar := g, step := n, isSeal := isSeal, bytes := b } s)

theorem stored_sitOf (g n : Nat) (isSeal : Bool) (b : List Byte) (s : State) :
    (stored g n isSeal b s).sitOf g = { s.sitOf g with waiting := [] } := sitOf_modSit_self ..

theorem stored_leaderNode (comp g n : Nat) (isSeal : Bool) (b : List Byte) (s : State) :
    (stored g n isSeal b s).leaderNode comp = s.leaderNode comp :=
  leaderNode_modSit comp g (f := fun x => { x with waiting := [] }) (fun _ => rfl) _

theorem closeRecord_leaderNode (comp g : Nat) (s : State) : (closeRecord g s).leaderNode comp = s.leaderNode comp :=
  leaderNode_modSit comp g (f := (·.recorded (s.stepRecord g))) (fun _ => rfl) s

/-- What a seal of a nonempty group leaves of its saggar, and of the records (R154). -/
theorem sealGroup_spec {g : Nat} {s : State} (hgr : (s.sitOf g).group ≠ []) (hw : (s.sitOf g).waiting = [])
    (hlate : s.jsl.late = []) :
    ((sealGroup g s).sitOf g).group = [] ∧ ((sealGroup g s).sitOf g).sealSeq = (s.sitOf g).sealSeq + 1
      ∧ ((sealGroup g s).sitOf g).chain = digest (s.sealBytes g)
      ∧ ((s.sealBytes g).length ≤ s.ringFree → ((sealGroup g s).sitOf g).waiting = [] ∧ (sealGroup g s).jsl.records
          = s.jsl.records ++ [{ saggar := g, step := (s.sitOf g).lastStep, isSeal := true, bytes := s.sealBytes g }])
      ∧ (s.ringFree < (s.sealBytes g).length → (sealGroup g s).jsl.records = s.jsl.records
          ∧ ((sealGroup g s).sitOf g).waiting = [((s.sitOf g).lastStep, true, s.sealBytes g)]) := by
  rw [sealGroup_of_group hgr hw]
  rcases Nat.lt_or_ge s.ringFree (s.sealBytes g).length with hfull | hroom
  · have ring := drainWaiting_of_full (g := g) (n := (s.sitOf g).lastStep) (isSeal := true) (s := sealed g s) hfull
    rw [ring, sitOf_modSit_self, sealed_sitOf]
    exact ⟨rfl, rfl, rfl, fun h => absurd h (by omega), fun _ => ⟨rfl, rfl⟩⟩
  · have ring : drainWaiting g [((s.sitOf g).lastStep, true, s.sealBytes g)] (sealed g s)
        = stored g (s.sitOf g).lastStep true (s.sealBytes g) (sealed g s) := drainWaiting_of_room hlate hroom
    rw [ring, stored_sitOf, sealed_sitOf]
    exact ⟨rfl, rfl, rfl, fun _ => ⟨rfl, rfl⟩, fun h => absurd h (by omega)⟩

/-- Settles O28: a step's close, its ring and its seals, each by the state its function leaves. -/
theorem stepRecords : Obligations.StepRecords := by
  intro s comp g r hcomp hg hsag hr hlate
  have drained : ∀ {u}, memberDrained comp s = u → Completes (.memberStepDrained comp) s u :=
    fun h => run_ok (decide_eq_true hcomp) h
  refine ⟨?_, ?_, ?_, ?_, ?_, ?_⟩
  · intro ho hc hs hd hp hn hw hroom
    have ring : fillRing g (closeRecord g (stampLc s)) = stored g (s.sitOf g).step false r (closeRecord g (stampLc s)) := by
      rw [hr, fillRing_closeRecord (s := stampLc s) hn hw, ← hr]
      exact drainWaiting_of_room hlate (by rwa [ringFree_closeRecord])
    have hsit : (closeRecord g (stampLc s)).sitOf g = (s.sitOf g).recorded r := by
      rw [closeRecord, ← hr]; exact sitOf_modSit_self ..
    have done := drained ((memberDrained_of_drained hsag ho hc hs hd hp).trans (by
      rw [ring, closeOrStall_of_stored (by rw [stored_sitOf])]))
    obtain ⟨hu, hlc, hjsl, q, htx, hdst, hop, hk⟩ := sendClosed_spec
      (s := stored g (s.sitOf g).step false r (closeRecord g (stampLc s))) hsag
    refine effect_of done ?_
    rw [hu, stored_sitOf, hsit, hlc, hjsl]
    refine ⟨rfl, rfl, rfl, rfl, rfl, rfl, q, htx, ?_, hop, hk⟩
    rw [hdst, stored_leaderNode, closeRecord_leaderNode]
    rfl
  · intro ho hc hs hd hp hn hw hfull
    have hsit : (closeRecord g (stampLc s)).sitOf g = (s.sitOf g).recorded r := by
      rw [closeRecord, ← hr]; exact sitOf_modSit_self ..
    have ring : fillRing g (closeRecord g (stampLc s))
        = modSit g (fun x => { x with waiting := [((s.sitOf g).step, false, r)] }) (closeRecord g (stampLc s)) := by
      rw [hr, fillRing_closeRecord (s := stampLc s) hn hw, ← hr]
      exact drainWaiting_of_full (by rwa [ringFree_closeRecord])
    have done := drained ((memberDrained_of_drained hsag ho hc hs hd hp).trans (by
      rw [ring, closeOrStall_of_waiting (by rw [sitOf_modSit_self]; exact List.cons_ne_nil _ _)]))
    refine effect_of done ?_
    rw [State.sitOf, logEvent_sit, ← State.sitOf, sitOf_modSit_self, sitOf_modSit_self, hsit, logEvent_jsl, logEvent_fab]
    exact ⟨ho, rfl, rfl, rfl, rfl⟩
  · intro n b hs hw hroom
    have ring : drainWaiting g [(n, false, b)] s = stored g n false b s := drainWaiting_of_room hlate hroom
    have empty : ((drainWaiting g [(n, false, b)] s).sitOf g).waiting = [] := by rw [ring, stored_sitOf]
    have done : Completes (.recRingRoom comp) s _ :=
      run_ok (decide_eq_true hcomp) (recRingRoom_of_stalled hsag hlate hs hw empty)
    obtain ⟨hu, -, hjsl, q, htx, hdst, -, hk⟩ := sendClosed_spec (s := stored g n false b s) hsag
    refine effect_of done ?_
    rw [ring, hu, stored_sitOf, hjsl]
    exact ⟨rfl, rfl, rfl, rfl, q, htx, hdst.trans (stored_leaderNode ..), hk⟩
  · intro who hwho hgate
    have hwf : (who.wf && decide (g < 64)) = true := by rw [hwho, decide_eq_true hg]; rfl
    have written : ∀ {f : State → State}, ctlWrite who (sitCtrl g) true f s = f (answerCsr who (sitCtrl g) .ok 0 s) :=
      ctlWrite_of_open hgate
    refine ⟨fun hgr hw => ?_, fun hgr => ?_, run_ok hwf written, run_ok hwf written⟩
    · have done : Completes (.sealNow who g) s (sealGroup g (emit (.csr who (sitCtrl g) .ok 0) s)) :=
        run_ok hwf (written.trans (congrArg (sealGroup g) (answerCsr_ok_frame ..)))
      exact effect_of done (sealGroup_spec (s := emit (.csr who (sitCtrl g) .ok 0) s) hgr hw hlate)
    · refine run_ok hwf (written.trans (sealGroup_of_empty ?_))
      rw [answerCsr_ok_frame]
      exact hgr
  · intro b hb hrep
    refine run_ok (decide_eq_true hg) (if_pos ?_)
    rcases hrep with h | h <;> simp [hb, h]
  · intro b hb
    refine run_ok (decide_eq_true hg) (if_neg ?_)
    simp [hb]

/-! ## The loss of frames (R220) -/

/-- The frames a fence takes. -/
def State.lostIds (p : Frame → Bool) (s : State) : List Nat := (s.tie.frames.filter (fun q => p q.2)).map (·.1)

/-- Page lists without the frames lost. -/
def stripPages (ids : List Nat) (l : Assoc Nat (List Nat)) : Assoc Nat (List Nat) :=
  (l.map (fun q => (q.1, q.2.filter (fun i => !ids.contains i)))).filter (fun q => !q.2.isEmpty)

/-- Pages all of whose frames are lost. -/
def gonePages (ids : List Nat) (l : Assoc Nat (List Nat)) : List Nat :=
  (l.filter (fun q => !q.2.isEmpty && q.2.all ids.contains)).map (·.1)

/-- Whether a page's move ends with the frames lost. -/
def PageMove.ends (ids : List Nat) (m : PageMove) : Bool := ids.contains m.src || (m.node.isNone && ids.contains m.dst)

/-- A region once frames are lost. -/
def Region.losing (ids : List Nat) (r : Region) : Region :=
  { r with working := stripPages ids r.working,
           versions := r.versions.map (fun v => (v.1, { v.2 with pages := stripPages ids v.2.pages, lost := (v.2.lost ++ gonePages ids v.2.pages).eraseDups })),
           moves := r.moves.filter (fun m => !m.ends ids),
           lostPages := (r.lostPages ++ gonePages ids r.working).eraseDups }

/-- The other frames of the moves that end. -/
def State.freedByLoss (ids : List Nat) (s : State) : List Nat :=
  s.tie.regions.flatMap (fun q => (q.2.moves.filter (fun m => m.ends ids && m.node.isNone)).map (·.dst))

/-- The regions without the frames lost. -/
def loseFromRegions (ids : List Nat) (s : State) : State :=
  { s with tie := { s.tie with regions := s.tie.regions.map (fun q => (q.1, q.2.losing ids)) } }

/-- The fetch of copies of pages that go on (R220). -/
def fetchAgain (tier : Nat) (l : List (Nat × List Nat)) (s : State) : State :=
  forEach l (fun x s => forEach x.2 (fun pg s =>
    let r := s.region x.1
    if r.lostPages.contains pg then refetch r pg s
    else enqueueMove { cls := 2, region := x.1, page := pg, toTier := tier, saggar := r.saggar } s) s) s

theorem loseFrames_eq (p : Frame → Bool) (s : State) : ∃ tier l, loseFrames p s = fetchAgain tier l
    (freeUnheld (s.freedByLoss (s.lostIds p)) (forEach (s.lostIds p) freeFrame (loseFromRegions (s.lostIds p) s))) :=
  ⟨_, _, rfl⟩

/-- Two states that differ at most in the movers' queue. -/
def QueueApart (s t : State) : Prop := t = { s with tie := { s.tie with queue := t.tie.queue } }

namespace QueueApart

theorem refl (s : State) : QueueApart s s := rfl

theorem trans {s t u : State} (h : QueueApart s t) (k : QueueApart t u) : QueueApart s u := by
  unfold QueueApart at *; rw [k, h]

theorem enqueueMove (j : MoverJob) (s : State) : QueueApart s (enqueueMove j s) := by
  unfold Machine.enqueueMove; split <;> rfl

theorem refetch (r : Region) (page : Nat) (s : State) : QueueApart s (refetch r page s) := by
  unfold Machine.refetch
  split
  · exact refl s
  · exact enqueueMove _ s

theorem fetchAgain (tier : Nat) (l : List (Nat × List Nat)) (s : State) : QueueApart s (fetchAgain tier l s) := by
  refine forEach_rel refl trans (fun x s => forEach_rel refl trans (fun pg s => ?_) x.2 s) l s
  dsimp only
  split
  · exact refetch ..
  · exact enqueueMove ..

end QueueApart

/-- Two states that differ at most in the regions, frames, bytes and movers of the pool, and in the flash. -/
def LossApart (s t : State) : Prop :=
  t = { s with sat := t.sat, ctr := t.ctr, log := t.log, flm := t.flm
               tie := { s.tie with slots := t.tie.slots, frames := t.tie.frames, mem := t.tie.mem, queue := t.tie.queue
                                   regions := t.tie.regions } }

theorem freeFrames_apart (l : List Nat) (s : State) : FreeApart s (forEach l freeFrame s) :=
  forEach_rel FreeApart.refl FreeApart.trans FreeApart.freeFrame l s

theorem loseFrames_apart (p : Frame → Bool) (s : State) : LossApart s (loseFrames p s) := by
  obtain ⟨tier, l, h⟩ := loseFrames_eq p s
  have free := FreeApart.trans (freeFrames_apart (s.lostIds p) (loseFromRegions (s.lostIds p) s))
    (FreeApart.freeUnheld (s.freedByLoss (s.lostIds p)) _)
  have fetch := QueueApart.fetchAgain tier l
    (freeUnheld (s.freedByLoss (s.lostIds p)) (forEach (s.lostIds p) freeFrame (loseFromRegions (s.lostIds p) s)))
  rw [← h] at fetch
  unfold LossApart QueueApart FreeApart at *
  rw [fetch, free]
  rfl

/-- The regions after a loss are those before without the frames lost. -/
theorem loseFrames_regions (p : Frame → Bool) (s : State) :
    (loseFrames p s).tie.regions = s.tie.regions.map (fun q => (q.1, q.2.losing (s.lostIds p))) := by
  obtain ⟨tier, l, h⟩ := loseFrames_eq p s
  rw [h, QueueApart.fetchAgain, FreeApart.freeUnheld, freeFrames_apart]
  rfl

theorem loseFrames_frames (p : Frame → Bool) (s : State) : (loseFrames p s).tie.frames = (freeUnheld
    (s.freedByLoss (s.lostIds p)) (forEach (s.lostIds p) freeFrame (loseFromRegions (s.lostIds p) s))).tie.frames := by
  obtain ⟨tier, l, h⟩ := loseFrames_eq p s
  rw [h, QueueApart.fetchAgain]

/-! ### The frames freed -/

theorem discardFrame_frames (f : Nat) (secure : Bool) (s : State) : (discardFrame f secure s).tie.frames = s.tie.frames := by
  rw [FlashApart.discardFrame f secure s]

/-- A frame that is freed is gone, and no other. -/
theorem afind_frames_freeFrame (id k : Nat) (s : State) :
    afind (freeFrame id s).tie.frames k = if id = k then none else afind s.tie.frames k := by
  unfold freeFrame
  split
  next h =>
    split
    next e => rw [← e, h]
    next => rfl
  next fr h =>
    dsimp only
    split
    · rw [discardFrame_frames]; exact afind_aerase ..
    · exact afind_aerase ..

theorem afind_frames_freeFrames (l : List Nat) (k : Nat) (s : State) :
    afind (forEach l freeFrame s).tie.frames k = if k ∈ l then none else afind s.tie.frames k := by
  induction l generalizing s with
  | nil => rfl
  | cons id r ih =>
    have h := ih (freeFrame id s)
    rw [afind_frames_freeFrame] at h
    refine h.trans ?_
    by_cases hr : k ∈ r
    · simp [hr]
    · by_cases he : id = k
      · simp [he]
      · simp [hr, he, Ne.symm he]

/-- Freeing what no list holds leaves a frame not named, and brings none back. -/
theorem afind_frames_freeUnheld (l : List Nat) (k : Nat) (s : State) :
    (k ∉ l → afind (freeUnheld l s).tie.frames k = afind s.tie.frames k)
      ∧ (afind s.tie.frames k = none → afind (freeUnheld l s).tie.frames k = none) := by
  induction l generalizing s with
  | nil => exact ⟨fun _ => rfl, id⟩
  | cons i r ih =>
    have e : freeUnheld (i :: r) s = freeUnheld r (if s.heldFrames.contains i then s else freeFrame i s) := rfl
    rw [e]
    obtain ⟨keep, gone⟩ := ih (if s.heldFrames.contains i then s else freeFrame i s)
    refine ⟨fun hk => ?_, fun hn => gone ?_⟩
    · obtain ⟨hne, hr⟩ := not_or.mp (List.mem_cons.not.mp hk)
      rw [keep hr]
      split
      · rfl
      · rw [afind_frames_freeFrame, if_neg (Ne.symm hne)]
    · split
      · exact hn
      · rw [afind_frames_freeFrame, hn, ite_self]

theorem mem_lostIds {p : Frame → Bool} {s : State} {f : Nat} :
    f ∈ s.lostIds p ↔ ∃ x ∈ s.tie.frames, x.1 = f ∧ p x.2 = true := by
  simp only [State.lostIds, List.mem_map, List.mem_filter]
  exact ⟨fun ⟨x, ⟨hx, hp⟩, e⟩ => ⟨x, hx, e, hp⟩, fun ⟨x, hx, e, hp⟩ => ⟨x, ⟨hx, hp⟩, e⟩⟩

/-- A frame on the lost unit is gone. -/
theorem loseFrames_lost {p : Frame → Bool} {s : State} {f : Nat} {fr : Frame} (h : afind s.tie.frames f = some fr)
    (hp : p fr = true) : afind (loseFrames p s).tie.frames f = none := by
  have hf : f ∈ s.lostIds p := mem_lostIds.mpr ⟨(f, fr), mem_of_afind h, rfl, hp⟩
  rw [loseFrames_frames]
  exact (afind_frames_freeUnheld ..).2 (by rw [afind_frames_freeFrames, if_pos hf])

/-- A frame on another unit stays, but where a move that ends goes to it. -/
theorem loseFrames_kept {p : Frame → Bool} {s : State} {f : Nat} {fr : Frame} (hn : (s.tie.frames.map (·.1)).Nodup)
    (h : afind s.tie.frames f = some fr) (hp : p fr = false) (hm : ∀ x ∈ s.tie.regions, ∀ v ∈ x.2.moves, v.dst ≠ f) :
    afind (loseFrames p s).tie.frames f = some fr := by
  have hf : f ∉ s.lostIds p := fun hf => by
    obtain ⟨⟨k, v⟩, hx, rfl, hv⟩ := mem_lostIds.mp hf
    have : fr = v := Option.some.inj (h.symm.trans (afind_of_mem hn hx))
    exact Bool.false_ne_true (hp.symm.trans (this ▸ hv))
  have hd : f ∉ s.freedByLoss (s.lostIds p) := fun hd => by
    obtain ⟨x, hx, hd⟩ := List.mem_flatMap.mp hd
    obtain ⟨v, hv, e⟩ := List.mem_map.mp hd
    exact hm x hx v (List.mem_filter.mp hv).1 e
  rw [loseFrames_frames, (afind_frames_freeUnheld ..).1 hd, afind_frames_freeFrames, if_neg hf]
  exact h

/-- A page all of whose frames were on the lost unit is poisoned. -/
theorem loseFrames_page {p : Frame → Bool} {s : State} {id pg : Nat} {r : Region} {fs : List Nat}
    (h : afind s.tie.regions id = some r) (hw : (pg, fs) ∈ r.working) (hne : fs ≠ [])
    (hfs : ∀ f ∈ fs, ∃ x ∈ s.tie.frames, x.1 = f ∧ p x.2 = true) : pg ∈ ((loseFrames p s).region id).lostPages := by
  have hgone : pg ∈ gonePages (s.lostIds p) r.working := by
    refine List.mem_map.mpr ⟨(pg, fs), List.mem_filter.mpr ⟨hw, ?_⟩, rfl⟩
    have hall : fs.all (s.lostIds p).contains = true :=
      List.all_eq_true.mpr fun f hf => List.contains_iff_mem.mpr (mem_lostIds.mpr (hfs f hf))
    simpa [hne] using hall
  rw [State.region, loseFrames_regions, aget_map_snd s.tie.regions (·.losing (s.lostIds p)) h]
  exact List.mem_eraseDups.mpr (List.mem_append_right _ hgone)

/-! ## Memory units (R193 to R195, R220) -/

theorem loseFrames_ddr (p : Frame → Bool) (s : State) (c : Nat) : (loseFrames p s).ddr c = s.ddr c := by
  rw [loseFrames_apart p s]; rfl

theorem loseFrames_hbm (p : Frame → Bool) (s : State) (k : Nat) : (loseFrames p s).hbm k = s.hbm k := by
  rw [loseFrames_apart p s]; rfl

/-- A DRAM channel's entry set. -/
def setDdr (c : Nat) (x : DdrCh) (s : State) : State := { s with tie := { s.tie with ddr := aset s.tie.ddr c x } }

/-- A stack's entry set. -/
def setHbm (k : Nat) (x : HbmStack) (s : State) : State := { s with tie := { s.tie with hbm := aset s.tie.hbm k x } }

@[simp] theorem setDdr_ddr_self (c : Nat) (x : DdrCh) (s : State) : (setDdr c x s).ddr c = x := aget_aset_self ..

theorem setDdr_ddr_ne {c k : Nat} (h : k ≠ c) (x : DdrCh) (s : State) : (setDdr c x s).ddr k = s.ddr k :=
  aget_aset_ne _ _ _ (Ne.symm h)

@[simp] theorem setHbm_hbm_self (k : Nat) (x : HbmStack) (s : State) : (setHbm k x s).hbm k = x := aget_aset_self ..

theorem setHbm_hbm_ne {k j : Nat} (h : j ≠ k) (x : HbmStack) (s : State) : (setHbm k x s).hbm j = s.hbm j :=
  aget_aset_ne _ _ _ (Ne.symm h)

/-- The frames on a memory unit. -/
def unitHolds : MemUnit → Frame → Bool
  | .ddr c => fun f => f.tier = 3 && f.unit = c
  | .hbm k => fun f => f.tier = 2 && f.unit / 64 = k
  | .hbmPc k c => fun f => f.tier = 2 && f.unit = 64 * k + c

/-- The fence of a memory unit alone, before the loss of its frames. -/
def markFenced (u : MemUnit) (cause : Nat) (s : State) : State :=
  match u with
  | .ddr c => setDdr c { s.ddr c with fence := { on := true, cause := cause } } s
  | .hbm k => setHbm k { s.hbm k with fence := { on := true, cause := cause } } s
  | .hbmPc k c => setHbm k { s.hbm k with pcFenced := c :: (s.hbm k).pcFenced.filter (· ≠ c) } s

theorem fenceMemory_eq (u : MemUnit) (cause : Nat) (s : State) :
    fenceMemory u cause s = loseFrames (unitHolds u) (markFenced u cause s) := by
  cases u <;> rfl

theorem markFenced_frames (u : MemUnit) (cause : Nat) (s : State) : (markFenced u cause s).tie.frames = s.tie.frames := by
  cases u <;> rfl

theorem markFenced_regions (u : MemUnit) (cause : Nat) (s : State) : (markFenced u cause s).tie.regions = s.tie.regions := by
  cases u <;> rfl

/-- The fence of a channel that has trained is lifted; no other channel changes. -/
theorem unfenceMemory_ddr (c : Nat) (s : State) :
    (unfenceMemory (.ddr c) s).ddr c = { s.ddr c with fence := if (s.ddr c).trained then {} else (s.ddr c).fence }
      ∧ ∀ k, k ≠ c → (unfenceMemory (.ddr c) s).ddr k = s.ddr k := by
  cases h : (s.ddr c).trained with
  | true =>
    have e : unfenceMemory (.ddr c) s = setDdr c { s.ddr c with fence := {} } s := if_pos h
    rw [e, setDdr_ddr_self]
    exact ⟨rfl, fun k hk => setDdr_ddr_ne hk ..⟩
  | false =>
    have e : unfenceMemory (.ddr c) s = s := if_neg (by rw [h]; exact Bool.false_ne_true)
    rw [e]
    exact ⟨rfl, fun _ _ => rfl⟩

theorem unfenceMemory_hbm (k : Nat) (s : State) :
    (unfenceMemory (.hbm k) s).hbm k = { s.hbm k with fence := if (s.hbm k).trained then {} else (s.hbm k).fence }
      ∧ ∀ j, j ≠ k → (unfenceMemory (.hbm k) s).hbm j = s.hbm j := by
  cases h : (s.hbm k).trained with
  | true =>
    have e : unfenceMemory (.hbm k) s = setHbm k { s.hbm k with fence := {} } s := if_pos h
    rw [e, setHbm_hbm_self]
    exact ⟨rfl, fun j hj => setHbm_hbm_ne hj ..⟩
  | false =>
    have e : unfenceMemory (.hbm k) s = s := if_neg (by rw [h]; exact Bool.false_ne_true)
    rw [e]
    exact ⟨rfl, fun _ _ => rfl⟩

/-- A stack's temperature set. -/
def setTemp (x : Nat × Nat) (s : State) : State := setHbm x.1 { s.hbm x.1 with temp := x.2 % 256 } s

theorem hbm_setTemp (k v j : Nat) (s : State) :
    (setTemp (k, v) s).hbm j = if j = k then { s.hbm j with temp := v % 256 } else s.hbm j := by
  by_cases h : j = k
  · rw [if_pos h, h]; exact setHbm_hbm_self ..
  · rw [if_neg h]; exact setHbm_hbm_ne h ..

/-- The temperatures of the first `n` stacks. -/
theorem hbm_setTemps (f : Nat → Nat) (n j : Nat) (s : State) :
    (forEach ((List.range n).map (fun k => (k, f k))) setTemp s).hbm j
      = if j < n then { s.hbm j with temp := f j % 256 } else s.hbm j := by
  induction n with
  | zero => rfl
  | succ n ih =>
    have step : forEach ((List.range (n + 1)).map (fun k => (k, f k))) setTemp s
        = setTemp (n, f n) (forEach ((List.range n).map (fun k => (k, f k))) setTemp s) := by
      rw [List.range_succ, List.map_append, forEach_append]
      rfl
    rw [step, hbm_setTemp, ih]
    rcases Nat.lt_trichotomy j n with h | h | h
    · rw [if_neg (by omega), if_pos h, if_pos (by omega)]
    · subst h
      rw [if_pos rfl, if_neg (lt_irrefl j), if_pos (Nat.lt_succ_self j)]
    · rw [if_neg (by omega), if_neg (by omega), if_neg (by omega)]

theorem setTemps_frame (l : List (Nat × Nat)) (s : State) :
    forEach l setTemp s = { s with tie := (forEach l setTemp s).tie } :=
  forEach_rel (R := fun s t => t = { s with tie := t.tie }) (fun _ => rfl) (fun h k => by rw [k, h]) (fun _ _ => rfl) l s

theorem hbmTemps_eq (temps : List Nat) (s : State) : hbmTemps temps s
    = forEach ((List.range (min temps.length s.variant.stacks)).map (fun k => (k, temps.getD k 0))) setTemp
      (carry (s.nextMultiple (sclk (2 ^ 20))) s) := by
  rw [hbmTemps, carry_variant]
  rfl

theorem hbmTrained_of_waiting {k : Nat} {s : State} (hk : k < s.variant.stacks)
    (hd : s.erc.adFenced.getD (k / 2) false = false) (hs : s.pkg.skipHbm = false) (pass : Bool) (failed : List Nat) :
    hbmTrained k pass failed s = setHbm k (if pass then
        { s.hbm k with trained := true, fence := {}, pcFenced := (failed.filter (· < 64)).eraseDups }
      else { s.hbm k with trained := false, fence := { on := true, cause := 3 } }) s := by
  have hc : (decide (s.variant.stacks ≤ k) || s.erc.adFenced.getD (k / 2) false || s.pkg.skipHbm) ≠ true := by
    rw [decide_eq_false (by omega), hd, hs]; decide
  exact if_neg hc

theorem hbmTrained_of_out {k : Nat} {s : State}
    (h : s.variant.stacks ≤ k ∨ s.erc.adFenced.getD (k / 2) false = true ∨ s.pkg.skipHbm = true) (pass : Bool)
    (failed : List Nat) : hbmTrained k pass failed s = s := by
  refine if_pos ?_
  rcases h with h | h | h
  · rw [decide_eq_true h]; rfl
  · rw [h, Bool.or_true]; rfl
  · rw [h, Bool.or_true]

theorem dramTrained_of_good {c : Nat} {d : DramReport} {s : State} (h1 : d.spdMatches = true) (h2 : dramSupported d = true)
    (h3 : d.checkBits = true) (h4 : d.trained = true) : dramTrained c d s
      = setDdr c { fence := {}, rate := d.rate, dpc := d.dpc, mrdimm := d.mrdimm, trained := true, capGib := d.capGib } s := by
  simp only [dramTrained, h1, h2, h3, h4]
  rfl

/-- The first thing wrong with a channel's report (R195). -/
def dramFault (d : DramReport) : Option Nat :=
  if !d.spdMatches || !dramSupported d then some 1 else if !d.checkBits then some 2 else if !d.trained then some 3 else none

theorem dramFault_of_bad {d : DramReport}
    (h : d.spdMatches = false ∨ dramSupported d = false ∨ d.checkBits = false ∨ d.trained = false) :
    ∃ w, dramFault d = some w := by
  unfold dramFault
  split
  · exact ⟨1, rfl⟩
  · split
    · exact ⟨2, rfl⟩
    · split
      · exact ⟨3, rfl⟩
      · simp_all

theorem dramTrained_of_fault {c w : Nat} {d : DramReport} {s : State} (h : dramFault d = some w) : dramTrained c d s
    = logEvent 0x0401 c none [w] (setDdr c { s.ddr c with fence := { on := true, cause := 3 }, trained := false } s) := by
  unfold dramFault at h
  simp only [dramTrained, h]
  rfl

/-- Settles O36: fences by what `loseFrames` does to frames and pages, the rest by the unit's entry. -/
theorem memoryUnits : Obligations.MemoryUnits := by
  intro s who u on hw hu hon
  have hwf : (who.wf && u.wf) = true := by rw [hw, hu]; rfl
  have hon' : on = unitHolds u := by rw [hon]; cases u <;> rfl
  subst hon'
  refine ⟨fun cause hc => ?_, fun hm hc => ?_, fun hl => ?_, fun temps => ?_, fun k failed hk hv hd hs => ⟨?_, ?_⟩,
    fun k b failed hk ho => ?_, fun c d hc => ⟨fun h1 h2 h3 h4 => ?_, fun h => ?_⟩⟩
  · have done : Completes (.memoryChannelFence who u) s (enterT3 (fenceMemory u cause s)) := by
      rcases hc with ⟨rfl, rfl⟩ | ⟨rfl, rfl⟩ <;> exact run_ok hwf rfl
    refine ⟨_, done, ?_⟩
    rw [fenceMemory_eq]
    refine ⟨fun f fr hn hf => ⟨fun hp => ?_, fun hp hmv => ?_⟩, fun id r pg fs hr hpg hne hfs => ?_, ?_⟩
    · exact loseFrames_lost (by rwa [markFenced_frames]) hp
    · exact loseFrames_kept (by rwa [markFenced_frames]) (by rwa [markFenced_frames]) hp (by rwa [markFenced_regions])
    · exact loseFrames_page (by rwa [markFenced_regions]) hpg hne (by rwa [markFenced_frames])
    · cases u with
      | ddr c =>
        simp only [loseFrames_ddr, markFenced]
        exact ⟨by rw [setDdr_ddr_self], fun k hk => setDdr_ddr_ne hk ..⟩
      | hbm k =>
        simp only [loseFrames_hbm, markFenced]
        exact ⟨by rw [setHbm_hbm_self], fun j hj => setHbm_hbm_ne hj ..⟩
      | hbmPc k c =>
        simp only [loseFrames_hbm, markFenced]
        refine ⟨?_, by rw [setHbm_hbm_self], fun j hj => setHbm_hbm_ne hj ..⟩
        rw [setHbm_hbm_self]
        exact List.mem_cons_self
  · cases who with
    | management => exact absurd rfl hm
    | control => exact absurd rfl hc
    | operator _ | tenant _ | trimmerUser _ _ | trimmerFw _ _ | bmc => exact ⟨run_ok hwf rfl, run_ok hwf rfl⟩
  · have done : Completes (.memoryChannelUnfence who u) s (unfenceMemory u s) := by
      rcases hl with rfl | rfl <;> exact run_ok hwf rfl
    refine effect_of done ?_
    cases u with
    | ddr c => exact unfenceMemory_ddr c s
    | hbm k => exact unfenceMemory_hbm k s
    | hbmPc k c =>
      have h := setHbm_hbm_self k { s.hbm k with pcFenced := (s.hbm k).pcFenced.filter (· ≠ c) } s
      refine ⟨?_, fun e he => ?_, fun j hj => setHbm_hbm_ne hj ..⟩
      · rw [show (unfenceMemory (.hbmPc k c) s).hbm k = _ from h]
        simp
      · rw [show (unfenceMemory (.hbmPc k c) s).hbm k = _ from h]
        simp [he]
  · have done : Completes (.hbmTempRead temps) s _ := run_ok rfl (hbmTemps_eq temps s)
    have hcarry : ∀ k, (carry (s.nextMultiple (sclk (2 ^ 20))) s).hbm k = s.hbm k := fun k => by
      rw [State.hbm, carry_tie]; rfl
    refine effect_of done ⟨fun k h1 h2 => ?_, fun k h => ?_, setTemps_frame ..⟩
    · rw [hbm_setTemps, if_pos (by omega), hcarry]
    · rw [hbm_setTemps, if_neg (by omega), hcarry]
  · have done : Completes (.hbmTrainingDone k true failed) s _ :=
      run_ok (decide_eq_true hk) (hbmTrained_of_waiting hv hd hs true failed)
    refine effect_of done ?_
    rw [setHbm_hbm_self]
    exact ⟨rfl, rfl, fun c => by simp [List.mem_eraseDups], fun j hj => setHbm_hbm_ne hj ..⟩
  · have done : Completes (.hbmTrainingDone k false failed) s _ :=
      run_ok (decide_eq_true hk) (hbmTrained_of_waiting hv hd hs false failed)
    refine effect_of done ?_
    rw [setHbm_hbm_self]
    exact ⟨rfl, fun j hj => setHbm_hbm_ne hj ..⟩
  · exact run_ok (decide_eq_true hk) (hbmTrained_of_out ho b failed)
  · have done : Completes (.dramTrainingDone c d) s _ :=
      run_ok (decide_eq_true hc) (congrArg enterT3 (dramTrained_of_good h1 h2 h3 h4))
    exact ⟨_, done, rfl, setDdr_ddr_self .., fun k hk => setDdr_ddr_ne hk ..⟩
  · obtain ⟨w, hw'⟩ := dramFault_of_bad h
    have he := dramTrained_of_fault (c := c) (s := s) hw'
    have done : Completes (.dramTrainingDone c d) s _ := run_ok (decide_eq_true hc) (congrArg enterT3 he)
    exact ⟨_, w, done, rfl, setDdr_ddr_self .., fun k hk => setDdr_ddr_ne hk ..⟩

end Sys2Proof.Machine
end

section
namespace Sys2Proof.Machine

/-! ## Jobs of the arrays after one of them is set -/

/-- A job is the arrays' alone. -/
theorem job_of_arrs {s t : State} (h : t.arrs.arr = s.arrs.arr) (a q : Nat) : t.job a q = s.job a q := by
  rw [State.job, State.job, arr_of_arrs h]

theorem job_setJob (a q b r : Nat) (j : ArrJob) (s : State) :
    (setJob a q j s).job b r = if a = b ∧ q = r then some j else s.job b r := by
  simp only [State.job, setJob, arr_modArr]
  by_cases hb : a = b
  · subst hb
    simp [afind_aset]
  · simp [hb]

@[simp] theorem job_setJob_self (a q : Nat) (j : ArrJob) (s : State) : (setJob a q j s).job a q = some j := by
  simp [job_setJob]

/-! ## One slot of an array, named twice -/

/-- Slot 0 of array 0 named twice: by a queued job, which is the one that is read, and by one that is loading. -/
def slotNamedTwice : State :=
  { arrs := { arr := [(0, { slots := [(0, { st := 1 }), (0, { st := 2 })] })] } }

@[simp] theorem settle_arrs (s : State) : (settle s).arrs = s.arrs := by rw [SettleApart.settle s]

theorem operandsGood_of_no_crc {s : State} (h : s.arrs.crc = []) (j : ArrJob) : operandsGood s j := by
  simp [operandsGood, State.shelfOk, h, afind]

/-- Refutes O16: no hypothesis keeps the slots of an array apart. Where slot 0 is named twice, the first loading job is
found in the second entry and the job that is read and fetched is the queued one of the first, which does not go on to
stream. -/
theorem not_arrayJobLoads : ¬ Obligations.ArrayJobLoads := by
  intro h
  obtain ⟨-, -, -, -, hLoading⟩ := h slotNamedTwice 0 0 { st := 1 } (by decide) rfl rfl
  obtain ⟨hLoad, -⟩ := hLoading (operandsGood_of_no_crc rfl _) rfl rfl rfl
  obtain ⟨hStart, -⟩ := hLoad rfl rfl
  obtain ⟨u, hu, ⟨n, -, hjob⟩, -⟩ := hStart _ _ rfl rfl rfl rfl (by decide +kernel)
  have he : Completes (.tileLoaded 0) slotNamedTwice (tileLoaded 0 slotNamedTwice) := rfl
  have ha : u.arrs = (tileLoaded 0 slotNamedTwice).arrs := by
    simpa using congrArg (·.arrs) (Host.Outcome.next.inj (hu.symm.trans he))
  have hq : (u.job 0 0).map (·.st) = some 1 := by
    rw [job_of_arrs (congrArg Arrs.arr ha)]
    decide +kernel
  rw [hjob] at hq
  simp at hq

/-! ## Many jobs changed at once -/

/-- Between two states, each job of a list was changed by `f`, and no other job was. -/
def JobsMoved (f : ArrJob → ArrJob) (l : List (Nat × Nat)) (s u : State) : Prop :=
  (∀ p ∈ l, ∀ j, s.job p.1 p.2 = some j → u.job p.1 p.2 = some (f j)) ∧
    ∀ a q, (a, q) ∉ l → u.job a q = s.job a q

namespace JobsMoved

theorem nil {f : ArrJob → ArrJob} {s u : State} (h : u.arrs.arr = s.arrs.arr) : JobsMoved f [] s u :=
  ⟨fun _ hp => absurd hp List.not_mem_nil, fun a q _ => job_of_arrs h a q⟩

theorem setJob {f : ArrJob → ArrJob} {p : Nat × Nat} {j : ArrJob} {s t : State} (hj : s.job p.1 p.2 = some j)
    (ht : t.arrs.arr = s.arrs.arr) : JobsMoved f [p] s (setJob p.1 p.2 (f j) t) := by
  refine ⟨fun p' hp' j' hj' => ?_, fun a q hq => ?_⟩
  · obtain rfl := List.mem_singleton.mp hp'
    cases hj.symm.trans hj'
    exact job_setJob_self ..
  · rw [job_setJob, if_neg, job_of_arrs ht]
    rintro ⟨rfl, rfl⟩
    exact hq (List.mem_singleton.mpr rfl)

/-- A job that a list names twice is changed as if it named it once, where changing it again changes nothing. -/
theorem cons {f : ArrJob → ArrJob} (hf : ∀ j, f (f j) = f j) {p : Nat × Nat} {l : List (Nat × Nat)} {s t u : State}
    (h : JobsMoved f [p] s t) (k : JobsMoved f l t u) : JobsMoved f (p :: l) s u := by
  obtain ⟨h1, h2⟩ := h
  obtain ⟨k1, k2⟩ := k
  refine ⟨fun p' hp' j hj => ?_, fun a q hq => ?_⟩
  · by_cases hp : p' = p
    · subst hp
      have ht := h1 p' (List.mem_singleton.mpr rfl) j hj
      by_cases hl : p' ∈ l
      · rw [k1 p' hl _ ht, hf]
      · rw [k2 _ _ hl, ht]
    · have ht : t.job p'.1 p'.2 = some j := (h2 _ _ (by simpa using hp)).trans hj
      exact k1 p' (by simpa [hp] using hp') j ht
  · simp only [List.mem_cons, not_or] at hq
    obtain ⟨hp, hl⟩ := hq
    rw [k2 a q hl, h2 a q (by simpa using hp)]

theorem isSome {f : ArrJob → ArrJob} {p : Nat × Nat} {a q : Nat} {s t : State} (h : JobsMoved f [p] s t)
    (hs : (s.job a q).isSome = true) : (t.job a q).isSome = true := by
  by_cases hp : (a, q) = p
  · subst hp
    obtain ⟨j, hj⟩ := Option.isSome_iff_exists.mp hs
    rw [h.1 (a, q) (List.mem_singleton.mpr rfl) j hj]
    rfl
  · rwa [h.2 a q (by simpa using hp)]

end JobsMoved

/-! ## Starts through the ramp (R79) -/

/-- A job at token 0 of its stream. -/
def ArrJob.streaming (j : ArrJob) : ArrJob := { j with st := 4, tok := 0 }

/-- The ramp after one more start. -/
def State.rampAfterStart (s : State) (k : Nat) : Ramp :=
  let r := aget s.arrs.ramp k {}
  { r with starts := r.starts.filter (fun t => decide (s.now < t + aclk 2500)) ++ [s.now] }

/-- Where no start is held and the ramp has room, a job streams at once. -/
theorem startStream_of_room {a q : Nat} {j : ArrJob} {s : State} {r : Nat × Nat} (hj : s.job a q = some j)
    (hr : r = s.rampOf a (dSaggar j.desc)) (hh : (aget s.arrs.ramp r.1 {}).held = []) (hl : s.rampStarts r.1 < r.2) :
    startStream a q s = setJob a q j.streaming (setRamp r.1 (s.rampAfterStart r.1) s) := by
  subst hr
  simp only [startStream, hj]
  rw [if_neg]
  · rfl
  · simp only [hh, List.isEmpty_nil, Bool.not_true, Bool.false_eq_true, or_false, not_le]
    exact hl

/-- The starts that count on a ramp after one more. -/
theorem rampStarts_setRamp (k : Nat) (s : State) (d : Nat) : (setRamp k (s.rampAfterStart k) s).rampStarts d
    = s.rampStarts d + if k = d then 1 else 0 := by
  show ((aget (aset s.arrs.ramp k (s.rampAfterStart k)) d {}).starts.filter (fun t => decide (s.now < t + aclk 2500))).length
    = s.rampStarts d + _
  rw [aget_aset]
  split
  next h =>
    subst h
    have hnow : s.now < s.now + aclk 2500 := Nat.lt_add_of_pos_right (by decide)
    simp [State.rampAfterStart, State.rampStarts, List.filter_filter, hnow]
  next => rfl

/-- No start is held, no saggar has a ramp of its own (R499), and each die's ramp has room for the jobs of a list. -/
def State.RampsHaveRoom (s : State) (l : List (Nat × Nat)) : Prop :=
  s.confAny = false ∧ ∀ die, die < 4 → (aget s.arrs.ramp die {}).held = []
    ∧ s.rampStarts die + countIf l (fun p => arrDie p.1 = die) ≤ s.nodeParam 0x0208

theorem countIf_cons {α : Type} (a : α) (l : List α) (p : α → Bool) : countIf (a :: l) p = countIf l p + if p a then 1 else 0 := by
  by_cases h : p a <;> simp [countIf, h]

theorem arrDie_lt_four {a : Nat} (h : a < 1536) : arrDie a < 4 := by unfold arrDie; omega

theorem rampOf_of_shared {s : State} (h : s.confAny = false) (a g : Nat) : s.rampOf a g = (arrDie a, s.nodeParam 0x0208) := by
  simp [State.rampOf, h]

/-- Once the first of a list of jobs has started, the ramps have room for the rest. -/
theorem State.RampsHaveRoom.tail {p : Nat × Nat} {l : List (Nat × Nat)} {s : State} (h : s.RampsHaveRoom (p :: l)) :
    (setRamp (arrDie p.1) (s.rampAfterStart (arrDie p.1)) s).RampsHaveRoom l := by
  refine ⟨h.1, fun die hd => ?_⟩
  obtain ⟨hheld, hroom⟩ := h.2 die hd
  constructor
  · rw [setRamp_arrs, aget_aset]
    split
    next e => subst e; exact hheld
    next => exact hheld
  · rw [countIf_cons] at hroom
    simp only [decide_eq_true_eq] at hroom
    rw [rampStarts_setRamp]
    exact le_of_eq_of_le (by omega) hroom

/-- The first of a list of jobs with room on the ramps streams at once. -/
theorem State.RampsHaveRoom.startStream_eq {p : Nat × Nat} {l : List (Nat × Nat)} {j : ArrJob} {s : State}
    (h : s.RampsHaveRoom (p :: l)) (hp : p.1 < 1536) (hj : s.job p.1 p.2 = some j) : startStream p.1 p.2 s
      = setJob p.1 p.2 j.streaming (setRamp (arrDie p.1) (s.rampAfterStart (arrDie p.1)) s) := by
  obtain ⟨hheld, hroom⟩ := h.2 _ (arrDie_lt_four hp)
  rw [countIf_cons, if_pos (decide_eq_true rfl)] at hroom
  exact startStream_of_room (r := (arrDie p.1, s.nodeParam 0x0208)) hj (rampOf_of_shared h.1 ..).symm hheld
    (show s.rampStarts (arrDie p.1) < s.nodeParam 0x0208 by omega)

/-- Two states that differ at most in the arrays' slots and the ramps. -/
def RampsApart (s t : State) : Prop := t = { s with arrs := { s.arrs with arr := t.arrs.arr, ramp := t.arrs.ramp } }

theorem RampsApart.trans {s t u : State} (h : RampsApart s t) (k : RampsApart t u) : RampsApart s u := by
  unfold RampsApart at *; rw [k, h]

/-- Jobs started one after another with room on the ramps all stream. -/
theorem startStreams_of_room {l : List (Nat × Nat)} {s : State} (h : s.RampsHaveRoom l)
    (hl : ∀ p ∈ l, p.1 < 1536 ∧ (s.job p.1 p.2).isSome = true) :
    JobsMoved ArrJob.streaming l s (forEach l (fun q s => startStream q.1 q.2 s) s)
      ∧ RampsApart s (forEach l (fun q s => startStream q.1 q.2 s) s) := by
  induction l generalizing s with
  | nil => exact ⟨JobsMoved.nil rfl, rfl⟩
  | cons p r ih =>
    obtain ⟨hp, hs⟩ := hl p List.mem_cons_self
    obtain ⟨j, hj⟩ := Option.isSome_iff_exists.mp hs
    have e := h.startStream_eq hp hj
    have first : JobsMoved ArrJob.streaming [p] s (startStream p.1 p.2 s) := by
      rw [e]
      exact JobsMoved.setJob hj rfl
    have start : RampsApart s (startStream p.1 p.2 s) := by
      rw [e]
      rfl
    obtain ⟨moved, apart⟩ := ih (s := startStream p.1 p.2 s) (by rw [e]; exact h.tail) fun p' hp' =>
      ⟨(hl p' (List.mem_cons_of_mem _ hp')).1, first.isSome (hl p' (List.mem_cons_of_mem _ hp')).2⟩
    exact ⟨JobsMoved.cons (f := ArrJob.streaming) (fun _ => rfl) first moved, start.trans apart⟩

/-! ## Broadcast groups (R78) -/

/-- The group with nothing waiting any more. -/
def Group.shut (x : Group) : Group := { x with waiting := [], closed := true, deadline := none }

/-- A group starts: it closes, and the starts of its waiting members go through the ramp one after another. -/
def runGroup (x : Group) (s : State) : State :=
  dropGroups (forEach x.waiting (fun q s => startStream q.1 q.2 s) (modGroup x.id Group.shut s))

theorem groupComplete_of_full {gid : Nat} {x : Group} {s : State}
    (h : s.arrs.groups.filter (fun y => y.gid = gid && !y.closed && decide (y.n ≤ y.waiting.length)) = [x]) :
    groupComplete gid s = runGroup x s := by
  rw [groupComplete, h]
  rfl

theorem groupTimeout_of_armed {gid d : Nat} {x : Group} {s : State}
    (h : s.arrs.groups.filter (fun y => y.gid = gid && !y.closed && y.deadline.isSome) = [x]) (hd : x.deadline = some d) :
    groupTimeout gid s = runGroup x (expire (aclk 1) d s) := by
  rw [groupTimeout, h]
  show runGroup x (expire (aclk 1) (x.deadline.getD 0) s) = _
  rw [hd]
  rfl

theorem groups_runGroup {x : Group} {t : State}
    (h : RampsApart (modGroup x.id Group.shut t) (forEach x.waiting (fun q s => startStream q.1 q.2 s) (modGroup x.id Group.shut t)))
    {y : Group} (hy : y ∈ (runGroup x t).arrs.groups) (hx : y.id = x.id) :
    y.closed = true ∧ y.waiting = [] ∧ y.deadline = none := by
  have hm := (List.mem_filter.mp hy).1
  rw [h] at hm
  obtain ⟨z, -, rfl⟩ := List.mem_map.mp hm
  by_cases hz : z.id = x.id
  · simp [hz, Group.shut]
  · simp [hz] at hx

/-- A group whose members all have room on the ramps starts every one of them, from a state with the jobs of `s`. -/
theorem started_runGroup {x : Group} {s t : State} (ht : t.arrs = s.arrs) (h : t.RampsHaveRoom x.waiting)
    (hl : ∀ p ∈ x.waiting, p.1 < 1536 ∧ (s.job p.1 p.2).isSome = true) : x.started s t (runGroup x t) := by
  have hjob : ∀ a q, (modGroup x.id Group.shut t).job a q = s.job a q :=
    job_of_arrs (s := s) (t := t) (congrArg Arrs.arr ht)
  obtain ⟨⟨moved, others⟩, apart⟩ := startStreams_of_room (s := modGroup x.id Group.shut t) h (by simpa only [hjob] using hl)
  refine ⟨fun p hp j hj => moved p hp j ((hjob ..).trans hj), fun a q hq => (others a q hq).trans (hjob ..),
    fun y hy hx => groups_runGroup apart hy hx, ?_⟩
  unfold runGroup
  rw [apart]
  rfl

/-! ## The release of held starts (R79, R572) -/

/-- A held job at token 0 of its stream. -/
def ArrJob.released (j : ArrJob) : ArrJob := { j with st := 4, tok := 0, held := false }

/-- The held start of a slot's job is released; an empty slot stays. -/
def releaseStart (q : Nat × Nat) (s : State) : State :=
  match s.job q.1 q.2 with
  | some j => setJob q.1 q.2 j.released s
  | none => s

/-- The ramp once its held starts have been released. -/
def Ramp.afterRelease (r : Ramp) (now : Nat) : Ramp :=
  { r with starts := r.held.map (fun _ => now), held := [], highAt := some (now + aclk (2 ^ 13)) }

theorem releaseRamp_of_held {k w : Nat} {r : Ramp} {s : State} (hr : aget s.arrs.ramp k {} = r) (hw : r.warnAt = some w)
    (hh : r.held ≠ []) : releaseRamp k s = forEach r.held releaseStart
      (setRamp k (r.afterRelease (carry (w + aclk 2500) s).now) (carry (w + aclk 2500) s)) := by
  subst hr
  have hne : (aget s.arrs.ramp k {}).held.isEmpty = false := by simpa using hh
  simp only [releaseRamp, hw, hne, Ramp.afterRelease]
  rfl

/-- Two states that differ at most in the arrays' slots. -/
def SlotsApart (s t : State) : Prop := t = { s with arrs := { s.arrs with arr := t.arrs.arr } }

namespace SlotsApart

theorem trans {s t u : State} (h : SlotsApart s t) (k : SlotsApart t u) : SlotsApart s u := by
  unfold SlotsApart at *; rw [k, h]

theorem now {s t : State} (h : SlotsApart s t) : t.now = s.now := by rw [h]

theorem ramp {s t : State} (h : SlotsApart s t) : t.arrs.ramp = s.arrs.ramp := by rw [h]

end SlotsApart

theorem releaseStart_spec (p : Nat × Nat) (s : State) :
    JobsMoved ArrJob.released [p] s (releaseStart p s) ∧ SlotsApart s (releaseStart p s) := by
  unfold releaseStart
  split
  next j hj => exact ⟨JobsMoved.setJob hj rfl, rfl⟩
  next hn =>
    refine ⟨⟨fun p' hp' j hj => ?_, fun _ _ _ => rfl⟩, rfl⟩
    obtain rfl := List.mem_singleton.mp hp'
    exact absurd (hn.symm.trans hj) (by simp)

theorem releaseStarts_spec (l : List (Nat × Nat)) (s : State) :
    JobsMoved ArrJob.released l s (forEach l releaseStart s) ∧ SlotsApart s (forEach l releaseStart s) := by
  induction l generalizing s with
  | nil => exact ⟨JobsMoved.nil rfl, rfl⟩
  | cons p r ih =>
    obtain ⟨moved, apart⟩ := ih (releaseStart p s)
    obtain ⟨first, start⟩ := releaseStart_spec p s
    exact ⟨JobsMoved.cons (f := ArrJob.released) (fun _ => rfl) first moved, start.trans apart⟩

theorem rampRelease_of_one {die k : Nat} {s : State}
    (h : (s.arrs.ramp.filter (fun p => p.1 % 8 = die && p.2.warnAt.isSome)).map (·.1) = [k]) :
    rampRelease die s = releaseRamp k s := by
  rw [rampRelease, h]
  rfl

/-- What the release of a ramp leaves: the clock at least at the release's time, nothing held, the bit's rise set, and
every held start's job at token 0. -/
theorem released_spec (r : Ramp) (k w : Nat) (s : State) {t u : State} (ht : t = carry (w + aclk 2500) s)
    (hu : u = forEach r.held releaseStart (setRamp k (r.afterRelease t.now) t)) :
    u.now = max s.now (w + aclk 2500) ∧ (aget u.arrs.ramp k {}).held = []
      ∧ (aget u.arrs.ramp k {}).highAt = some (u.now + aclk (2 ^ 13))
      ∧ (∀ q ∈ r.held, ∀ j, s.job q.1 q.2 = some j → u.job q.1 q.2 = some j.released)
      ∧ (∀ a q, (a, q) ∉ r.held → u.job a q = s.job a q) ∧ u = { t with arrs := u.arrs } := by
  obtain ⟨⟨moved, others⟩, apart⟩ := releaseStarts_spec r.held (setRamp k (r.afterRelease t.now) t)
  rw [← hu] at moved others apart
  have hjob : ∀ a q, (setRamp k (r.afterRelease t.now) t).job a q = s.job a q :=
    job_of_arrs (s := s) (t := t) (congrArg Arrs.arr (ht ▸ carry_arrs ..))
  have hnow : u.now = t.now := apart.now
  have hramp : aget u.arrs.ramp k {} = r.afterRelease t.now := by rw [apart.ramp]; exact aget_aset_self ..
  rw [hramp, hnow]
  refine ⟨ht ▸ carry_now .., rfl, rfl, fun q hq j hj => moved q hq j ((hjob ..).trans hj),
    fun a q hq => (others a q hq).trans (hjob ..), ?_⟩
  rw [apart]
  rfl

/-- Settles O17: a group's starts by induction on its waiting members, with the room each start leaves on the ramps;
the release of a ramp by induction on its held starts. -/
theorem groupsAndRamps : Obligations.GroupsAndRamps := by
  have full : ∀ {s : State} {gid : Nat} {x : Group}, gid < 65536 →
      s.arrs.groups.filter (fun y => y.gid = gid && !y.closed && decide (y.n ≤ y.waiting.length)) = [x] →
      Completes (.groupComplete gid) s (runGroup x s) := fun hg h => run_ok (decide_eq_true hg) (groupComplete_of_full h)
  have armed : ∀ {s : State} {gid d : Nat} {x : Group}, gid < 65536 →
      s.arrs.groups.filter (fun y => y.gid = gid && !y.closed && y.deadline.isSome) = [x] → x.deadline = some d →
      Completes (.groupAssemblyTimeout gid) s (runGroup x (expire (aclk 1) d s)) := fun hg h hd =>
    run_ok (decide_eq_true hg) (groupTimeout_of_armed h hd)
  refine ⟨fun s gid x hg => ⟨full hg, fun d => armed hg⟩, fun s t gid x hg _ hl hc hroom => ⟨?_, ?_⟩,
    fun s die k w r hd hk hr hw hh => ?_⟩
  · rintro rfl hx
    exact effect_of (full hg hx) (started_runGroup rfl ⟨hc, hroom⟩ hl)
  · rintro d rfl hx hdl
    exact effect_of (armed hg hx hdl) (started_runGroup (carry_arrs ..) ⟨hc, hroom⟩ hl)
  · have done : Completes (.rampRelease die) s _ :=
      run_ok (decide_eq_true hd) ((rampRelease_of_one hk).trans (releaseRamp_of_held hr hw hh))
    exact effect_of done (released_spec r k w s rfl rfl)

/-! ## The job an array works on -/

/-- Where the slots of an array differ, its first job in a state is in that state. -/
theorem st_of_firstIn {a st q : Nat} {j : ArrJob} {s : State} (hn : ((s.arr a).slots.map (·.1)).Nodup)
    (hf : s.firstIn a st = some q) (hj : s.job a q = some j) : j.st = st := by
  have found : ∀ x ∈ (s.arr a).slots.filter (fun q => q.2.st = st), x.1 = q → j.st = st := fun x hx hq => by
    obtain ⟨hm, hst⟩ := List.mem_filter.mp hx
    cases hj.symm.trans (hq ▸ afind_of_mem hn hm)
    exact of_decide_eq_true hst
  simp only [State.firstIn] at hf
  split at hf
  next => cases hf
  next x hl => exact found x (by simp [hl]) (Option.some.inj hf)
  next x y r hl =>
    have hq := Option.some.inj hf
    split at hq
    · exact found x (by simp [hl]) hq
    · exact found y (by simp [hl]) hq

theorem arr_setJob_ne {a b : Nat} (h : b ≠ a) (q : Nat) (j : ArrJob) (s : State) : (setJob a q j s).arr b = s.arr b :=
  arr_modArr_ne h ..

/-- An update that leaves the slots leaves the jobs. -/
theorem job_modArr_of_slots {a : Nat} {f : Arr → Arr} (h : ∀ x, (f x).slots = x.slots) (s : State) (b r : Nat) :
    (modArr a f s).job b r = s.job b r := by
  rw [State.job, State.job, arr_modArr]
  split
  next e => subst e; rw [h]
  next => rfl

@[simp] theorem setJob_shelf (a q : Nat) (j : ArrJob) (s : State) : (setJob a q j s).arrs.shelf = s.arrs.shelf := rfl
@[simp] theorem setJob_sat (a q : Nat) (j : ArrJob) (s : State) : (setJob a q j s).sat = s.sat := rfl
@[simp] theorem arr_bumpCtr (c n : Nat) (s : State) : (bumpCtr c n s).arr = s.arr := rfl
@[simp] theorem tapAdd_arrs (g k n : Nat) (s : State) : (tapAdd g k n s).arrs = s.arrs := rfl
@[simp] theorem tapAdd_sat (g k n : Nat) (s : State) : (tapAdd g k n s).sat = s.sat := rfl

/-- A saturating field is the fields' alone. -/
theorem satVal_of_sat {s t : State} (h : t.sat = s.sat) (f : Nat × Nat) : t.satVal f = s.satVal f := by
  rw [State.satVal, State.satVal, h]

/-! ## Outputs on their way to the shelf (R66, R84) -/

/-- Two states that differ at most in the shelf and the checks of its grains. -/
def ShelfApart (s t : State) : Prop := t = { s with arrs := { s.arrs with shelf := t.arrs.shelf, crc := t.arrs.crc } }

namespace ShelfApart

theorem trans {s t u : State} (h : ShelfApart s t) (k : ShelfApart t u) : ShelfApart s u := by
  unfold ShelfApart at *; rw [k, h]

theorem shelfWrite (g off : Nat) (bs : List Byte) (s : State) : ShelfApart s (shelfWrite g off bs s) := by
  unfold Machine.shelfWrite; split <;> rfl

theorem setShelf (m : List Host.Cell) (crc : Assoc Nat Nat) (s : State) : ShelfApart s (setShelf m crc s) := rfl

theorem shelfProduce (g off : Nat) (bs : List Byte) (s : State) : ShelfApart s (shelfProduce g off bs s) := by
  unfold Machine.shelfProduce
  split
  · exact trans (shelfWrite g off bs s) (setShelf ..)
  · rfl

theorem arr {s t : State} (h : ShelfApart s t) : t.arrs.arr = s.arrs.arr := by rw [h]

end ShelfApart

/-- The oldest `n` outputs of a job written to the shelf, each with its grains' checks. -/
def shelveOuts (j : ArrJob) (n : Nat) (s : State) : State :=
  forEach (j.outs.take n).zipIdx (fun q s => shelfProduce (dSaggar j.desc) (outRange j.desc (j.drained + q.2)).1 q.1 s) s

theorem shelveOuts_apart (j : ArrJob) (n : Nat) (s : State) : ShelfApart s (shelveOuts j n s) :=
  forEach_rel (R := ShelfApart) (fun _ => rfl) ShelfApart.trans (fun _ _ => ShelfApart.shelfProduce ..) _ s

theorem shelveOuts_of_none {j : ArrJob} {n : Nat} (h : j.outs.take n = []) (s : State) : shelveOuts j n s = s := by
  simp [shelveOuts, h, forEach]

/-- A job whose oldest `n` outputs have gone to the shelf. -/
def ArrJob.shelved (n : Nat) (j : ArrJob) : ArrJob :=
  { j with outs := j.outs.drop n, drained := j.drained + min n j.outs.length }

theorem drainOuts_of_job {a q : Nat} {j : ArrJob} {s : State} (hj : s.job a q = some j) (n : Nat) :
    drainOuts a q n s = setJob a q (j.shelved n) (shelveOuts j n s) := by
  simp only [drainOuts, hj, List.length_take]
  rfl

/-- A job after a token whose output entered the output area, the oldest `k` having gone to the shelf first. -/
def ArrJob.pushed (k : Nat) (o : TokenOut) (j : ArrJob) : ArrJob :=
  { j.shelved k with
    tok := j.tok + 1, stage := j.stage.drop 1, outs := j.outs.drop k ++ [o.bytes], ovf := j.ovf + o.ovf, sat := j.sat + o.sat }

theorem aset_aset {κ α : Type} [DecidableEq κ] (m : Assoc κ α) (k : κ) (v w : α) : aset (aset m k v) k w = aset m k w := by
  induction m with
  | nil => simp [aset]
  | cons p r ih =>
    obtain ⟨x, y⟩ := p
    by_cases h : x = k <;> simp [aset, h, ih]

theorem amod_amod {κ α : Type} [DecidableEq κ] (m : Assoc κ α) (k : κ) (d : α) (f g : α → α) :
    amod (amod m k d f) k d g = amod m k d (fun x => g (f x)) := by
  simp only [amod, aset_aset, aget_aset_self]

theorem setJob_setJob (a q : Nat) (j k : ArrJob) (s : State) : setJob a q j (setJob a q k s) = setJob a q j s := by
  simp only [setJob, modArr, amod_amod, aset_aset]

theorem pushOut_of_job {a q k : Nat} {j : ArrJob} {s : State} (hj : s.job a q = some j) (o : TokenOut)
    (hk : k = j.outs.length + 1 - 16384 / max 1 o.bytes.length) :
    pushOut a q o s = setJob a q (j.pushed k o) (shelveOuts j k s) := by
  subst hk
  simp only [pushOut, hj, drainOuts_of_job hj, job_setJob_self]
  exact setJob_setJob ..

/-! ## Activation vectors on their way into the array (R64, R66) -/

/-- Where every activation vector's grains pass their checks, the staging ring takes more of them. -/
theorem fillStage_of_good {a q : Nat} {j : ArrJob} {s : State} (hj : s.job a q = some j) (hg : operandsGood s j) :
    ∃ more, fillStage a q s = setJob a q { j with stage := j.stage ++ more } s := by
  obtain ⟨-, -, hv⟩ := hg
  simp only [fillStage, hj]
  rw [if_pos]
  · exact ⟨_, rfl⟩
  · refine List.all_eq_true.mpr fun i hi => hv _ ?_
    have := List.mem_range.mp hi
    omega

/-- A token's pass reads of the state the shelf alone, and of the job nothing of the staging ring. -/
theorem runToken_congr {s t : State} (h : t.arrs.shelf = s.arrs.shelf) (g : Nat) (j : ArrJob) (l : List (List Byte))
    (n : Nat) (row : List Byte) (v : Upset) : t.runToken g { j with stage := l } n row v = s.runToken g j n row v := by
  simp only [State.runToken, State.shelfRead, h]

/-- The front token enters once the ring has taken more vectors, which leave what its pass gives. -/
theorem streamToken_of_staged {a q : Nat} {j : ArrJob} {s : State} {v : Upset} {row : List Byte} {rest : List (List Byte)}
    (hf : s.firstIn a 4 = some q) (hj : s.job a q = some j) (hv : v ≠ .reported) (ht : j.tok < dTLen j.desc)
    (hg : operandsGood s j) (hs : j.stage = row :: rest) :
    ∃ more k, k = { j with stage := row :: (rest ++ more) } ∧ streamToken a v s = passToken a q v (setJob a q k s) ∧
      (setJob a q k s).runToken (dSaggar k.desc) k k.tok (k.stage.getD 0 []) v = s.runToken (dSaggar j.desc) j j.tok row v := by
  obtain ⟨more, hfill⟩ := fillStage_of_good hj hg
  refine ⟨more, _, rfl, ?_, runToken_congr (setJob_shelf ..) ..⟩
  rw [hs, List.cons_append] at hfill
  simp only [streamToken, hf, hj, hv, if_false, Nat.not_le.mpr ht, hfill]

/-- What a token's pass gives is what it gives with the busy cycle counted. -/
theorem runToken_bumpCtr (c n : Nat) (s : State) (g : Nat) (j : ArrJob) (i : Nat) (row : List Byte) (v : Upset) :
    (bumpCtr c n s).runToken g j i row v = s.runToken g j i row v := runToken_congr (s := s) rfl g j j.stage i row v

theorem passToken_of_out {a q : Nat} {j : ArrJob} {s : State} {v : Upset} {o : TokenOut} (hj : s.job a q = some j)
    (hst : j.st = 4) (h : s.runToken (dSaggar j.desc) j j.tok (j.stage.getD 0 []) v = .out o) :
    passToken a q v s = pushOut a q o (bumpCtr (ctrArrBusy a) 1 s) := by
  simp only [passToken, hj, hst, ne_eq, not_true_eq_false, if_false, runToken_bumpCtr, h]

theorem passToken_of_mismatch {a q : Nat} {j : ArrJob} {s : State} {v : Upset} (hj : s.job a q = some j)
    (hst : j.st = 4) (h : s.runToken (dSaggar j.desc) j j.tok (j.stage.getD 0 []) v = .mismatch) :
    passToken a q v s = failAttempt a q j (bumpCtr (ctrArrBusy a) 1 s) := by
  simp only [passToken, hj, hst, ne_eq, not_true_eq_false, if_false, runToken_bumpCtr, h]

/-! ## Error counts of an array (R549) -/

@[simp] theorem logAs_sat (plane : Plane) (code unit : Nat) (sag : Option Nat) (payload : List Nat) (s : State) :
    (logAs plane code unit sag payload s).sat = s.sat := by
  unfold logAs occur; split <;> rfl

@[simp] theorem logEvent_sat (code unit : Nat) (sag : Option Nat) (payload : List Nat) (s : State) :
    (logEvent code unit sag payload s).sat = s.sat := logAs_sat ..

@[simp] theorem bumpSat_arrs (f : Nat × Nat) (s : State) : (bumpSat f s).arrs = s.arrs := by
  unfold bumpSat
  dsimp only
  split
  · exact logAs_arrs ..
  · rfl

/-- Raising a field once adds one to it, up to its all-ones value. -/
theorem satVal_bumpSat (f : Nat × Nat) (s : State) : (bumpSat f s).satVal f = satAdd (satWidth f) (s.satVal f) 1 := by
  have raw : (bumpSatRaw f s).satVal f = satAdd (satWidth f) (s.satVal f) 1 :=
    aget_amod_self s.sat f 0 (fun v => satAdd (satWidth f) v 1)
  have sat : (bumpSat f s).sat = (bumpSatRaw f s).sat := by
    unfold bumpSat
    dsimp only
    split
    · exact logEvent_sat ..
    · rfl
  rw [← raw, satVal_of_sat sat]

/-- The error fields of an array have 16 bits. -/
theorem satWidth_arrPage (a lo : Nat) : satWidth (arrPage a + 4, lo) = 16 := by
  have : arrPage a + 4 ≠ 0x0010040 := by unfold arrPage; omega
  exact if_neg this

/-! ## Failed attempts (R88, R89) -/

/-- A failed attempt of a job in the counts: the array's mismatches and the saggar's recomputed cell-cycles. -/
def countFailure (a : Nat) (j : ArrJob) (s : State) : State :=
  tapAdd (dSaggar j.desc) 1 (1024 * j.tok) (bumpSat (satArrResidue a) s)

@[simp] theorem countFailure_arrs (a : Nat) (j : ArrJob) (s : State) : (countFailure a j s).arrs = s.arrs := by
  rw [countFailure, tapAdd_arrs, bumpSat_arrs]

theorem countFailure_satVal (a : Nat) (j : ArrJob) (s : State) :
    (countFailure a j s).satVal (satArrResidue a) = satAdd 16 (s.satVal (satArrResidue a)) 1 := by
  rw [← satWidth_arrPage a 16, ← satArrResidue, ← satVal_bumpSat]
  exact satVal_of_sat (tapAdd_sat ..) _

/-- A job to be tried again, with nothing left of the attempt that failed. -/
def ArrJob.retried (j : ArrJob) : ArrJob :=
  { j with st := 5, failed := j.failed + 1, tok := 0, stage := [], outs := [], drained := 0, ovf := 0, sat := 0 }

theorem failAttempt_of_retry {a q : Nat} {j : ArrJob} (h : j.failed < 2) (s : State) :
    failAttempt a q j s = setJob a q j.retried (countFailure a j s) := by
  unfold failAttempt
  exact if_pos h

theorem failAttempt_of_third {a q : Nat} {j : ArrJob} (h : 2 ≤ j.failed) (s : State) : failAttempt a q j s
    = fenceArray a 1 .data (dTag j.desc) (endJob a q 7 jRESIDUE 0 (countFailure a j s)) := by
  unfold failAttempt
  exact if_neg (by omega)

/-! ## What a die's fence leaves of an array already fenced (R540) -/

theorem forEach_keeps {α : Type} {P : State → Prop} {f : α → State → State} (h : ∀ a s, P s → P (f a s)) (l : List α)
    {s : State} (hs : P s) : P (forEach l f s) :=
  forEach_rel (R := fun s t => P s → P t) (fun _ => id) (fun h k => k ∘ h) h l s hs

/-! ### Frames lost with a die's memory raise no error count -/

theorem sat_of_steps {α : Type} {f : α → State → State} (h : ∀ a s, (f a s).sat = s.sat) (l : List α) (s : State) :
    (forEach l f s).sat = s.sat :=
  forEach_rel (R := fun s t => t.sat = s.sat) (fun _ => rfl) (fun h k => k.trans h) h l s

theorem takeSlot_sat (tier ch g : Nat) (s : State) : (takeSlot tier ch g s).sat = s.sat := by
  unfold takeSlot; split <;> rfl

theorem startProg_sat (p : FlmProg) (s : State) : (startProg p s).sat = s.sat := by
  unfold startProg nextDie
  split
  · rfl
  · dsimp only
    split
    next => rfl
    next d t h =>
      split at h
      · cases h
      · cases h; exact takeSlot_sat ..

theorem flmHealth_sat (s : State) : (flmHealth s).sat = s.sat := by
  unfold flmHealth
  split
  · rfl
  · exact sat_of_steps (fun c s => logEvent_sat ..) _ s

theorem eraseCopies_sat (lua units seq : Nat) (s : State) : (eraseCopies lua units seq s).sat = s.sat := by
  refine sat_of_steps (fun _ _ => ?_) _ s
  rfl

theorem secureWork_sat (s : State) : (secureWork s).sat = s.sat := by
  refine sat_of_steps (fun x s => ?_) _ s
  dsimp only
  split
  · exact sat_of_steps (fun p s => startProg_sat ..) _ _
  · split
    · exact eraseCopies_sat ..
    · rfl

theorem discardFrame_sat (f : Nat) (secure : Bool) (s : State) : (discardFrame f secure s).sat = s.sat := by
  unfold discardFrame
  split
  · split
    · exact secureWork_sat _
    · exact (flmHealth_sat _).trans (sat_of_steps (fun p s => startProg_sat ..) _ s)
  · rfl

theorem freeFrame_sat (id : Nat) (s : State) : (freeFrame id s).sat = s.sat := by
  unfold freeFrame
  split
  · rfl
  · dsimp only
    split
    · exact discardFrame_sat ..
    · rfl

theorem loseFrames_sat (p : Frame → Bool) (s : State) : (loseFrames p s).sat = s.sat := by
  obtain ⟨tier, l, h⟩ := loseFrames_eq p s
  have fetched := QueueApart.fetchAgain tier l
    (freeUnheld (s.freedByLoss (s.lostIds p)) (forEach (s.lostIds p) freeFrame (loseFromRegions (s.lostIds p) s)))
  rw [h, fetched]
  refine (sat_of_steps (fun id s => ?_) _ _).trans (sat_of_steps freeFrame_sat _ _)
  split
  · rfl
  · exact freeFrame_sat ..

/-! ### Jobs, arrays and Trimmers fenced raise none either, and leave the other jobs -/

theorem fenceMemory_arrs (u : MemUnit) (cause : Nat) (s : State) : (fenceMemory u cause s).arrs = s.arrs := by
  rw [fenceMemory_eq, loseFrames_apart]
  cases u <;> rfl

theorem fenceMemory_sat (u : MemUnit) (cause : Nat) (s : State) : (fenceMemory u cause s).sat = s.sat := by
  rw [fenceMemory_eq, loseFrames_sat]
  cases u <;> rfl

@[simp] theorem upcallSaggar_sat (g kind id : Nat) (s : State) : (upcallSaggar g kind id s).sat = s.sat :=
  sat_of_steps (f := fun t s => queueUpcall t _ s) (fun _ _ => rfl) _ s

theorem scramble_sat (g off n : Nat) (s : State) : (scramble g off n s).sat = s.sat := by
  unfold scramble drawBytes
  dsimp only
  rw [ShelfApart.shelfWrite]

@[simp] theorem endJob_sat (a q st jstat cause : Nat) (s : State) : (endJob a q st jstat cause s).sat = s.sat := by
  cases h : s.job a q with
  | none => rw [endJob_of_none h]
  | some j =>
    simp only [endJob, h]
    split
    · rfl
    · exact sat_of_steps (fun _ _ => scramble_sat ..) _ _

/-- A job that has ended is in its slot with its code and status, and every other job is as it was. -/
theorem job_endJob {a q : Nat} {j : ArrJob} {s : State} (hj : s.job a q = some j) (st jstat cause b r : Nat) :
    (endJob a q st jstat cause s).job b r = if a = b ∧ q = r then
        some { j with st := st, jstat := jstat, cause := cause, held := false, stage := [], outs := [] }
      else s.job b r := by
  rw [job_of_arrs (endJob_arr hj ..), job_setJob]

theorem job_endJob_ne {a q b r : Nat} (h : ¬ (a = b ∧ q = r)) (st jstat cause : Nat) (s : State) :
    (endJob a q st jstat cause s).job b r = s.job b r := by
  cases hj : s.job a q with
  | none => rw [endJob_of_none hj]
  | some j => rw [job_endJob hj, if_neg h]

/-- The jobs of a list that end leave every other job. -/
theorem job_endJobs {a b r : Nat} {l : List (Nat × ArrJob)} (h : ¬ (a = b ∧ r ∈ l.map (·.1))) (st jstat cause : Nat)
    (s : State) : (forEach l (fun q s => endJob a q.1 st jstat cause s) s).job b r = s.job b r := by
  induction l generalizing s with
  | nil => rfl
  | cons q l ih =>
    simp only [List.map_cons, List.mem_cons] at h
    show (forEach l _ (endJob a q.1 st jstat cause s)).job b r = _
    rw [ih (fun e => h ⟨e.1, .inr e.2⟩), job_endJob_ne (fun e => h ⟨e.1, .inl e.2.symm⟩)]

theorem fenceArrayOnly_of_fenced {a cause tag : Nat} {plane : Plane} {s : State} (h : (s.arr a).fence.on = true) :
    fenceArrayOnly a cause plane tag s = s := by
  simp [fenceArrayOnly, h]

theorem fenceArrayOnly_sat (a cause tag : Nat) (plane : Plane) (s : State) : (fenceArrayOnly a cause plane tag s).sat = s.sat := by
  unfold fenceArrayOnly
  dsimp only
  split
  · rfl
  · have jobs : ∀ (l : List (Nat × ArrJob)) (t : State), (forEach l (fun q s => endJob a q.1 7 jFENCED 1 s) t).sat = t.sat :=
      sat_of_steps (fun _ _ => endJob_sat ..)
    split
    · rw [upcallSaggar_sat, logAs_sat, jobs]; rfl
    · rw [logAs_sat, jobs]; rfl

/-- A fence of an array leaves every job but its own active ones. -/
theorem job_fenceArrayOnly {a cause tag b r : Nat} {plane : Plane} {s : State} (h : (s.arr a).fence.on = false)
    (hr : ¬ (a = b ∧ r ∈ ((s.arr a).slots.filter (fun q => q.2.active)).map (·.1))) :
    (fenceArrayOnly a cause plane tag s).job b r = s.job b r := by
  rw [job_of_arrs (congrArg Arrs.arr (fenceArrayOnly_arrs h)), job_endJobs hr, State.job, arr_modArr]
  split
  next e => subst e; rfl
  next => rfl

theorem afind_map_snd {κ α : Type} [DecidableEq κ] (m : Assoc κ α) (f : α → α) (k : κ) :
    afind (m.map (fun q => (q.1, f q.2))) k = (afind m k).map f := by
  induction m with
  | nil => rfl
  | cons p r ih =>
    obtain ⟨x, y⟩ := p
    by_cases h : x = k <;> simp [afind, h, ih]

/-- A job whose completion, if Trimmer `t` issued it, is discarded. -/
def ArrJob.disowned (t : Nat) (j : ArrJob) : ArrJob := if j.issuer = .trimmer t then { j with issuer := .nobody } else j

theorem arr_disownJobs (t a : Nat) (s : State) : (disownJobs t s).arr a
    = { s.arr a with slots := (s.arr a).slots.map (fun q => (q.1, q.2.disowned t)) } := by
  have e := afind_map_snd s.arrs.arr (fun x => { x with slots := x.slots.map (fun q => (q.1, q.2.disowned t)) }) a
  unfold State.arr
  rw [aget_eq_afind, aget_eq_afind]
  refine (congrArg (·.getD {}) e).trans ?_
  cases afind s.arrs.arr a <;> rfl

/-- Array `a` is fenced for mismatches, the job in its slot `q` ended with them, and the error counts are `σ`. -/
structure ResidueFenced (a q : Nat) (σ : Assoc (Nat × Nat) Nat) (s : State) : Prop where
  fence : (s.arr a).fence = { on := true, cause := 1 }
  job : ∃ k : ArrJob, s.job a q = some k ∧ k.st = 7 ∧ k.jstat = jRESIDUE
  sat : s.sat = σ

namespace ResidueFenced

variable {a q : Nat} {σ : Assoc (Nat × Nat) Nat}

theorem of_arrs {s t : State} (h : ResidueFenced a q σ s) (ha : t.arrs = s.arrs) (hs : t.sat = s.sat) :
    ResidueFenced a q σ t where
  fence := by rw [arr_of_arrs_eq ha]; exact h.fence
  job := by rw [job_of_arrs (congrArg Arrs.arr ha)]; exact h.job
  sat := hs.trans h.sat

/-- The fence of this array changes nothing any more, that of another leaves this one. -/
theorem fenceArrayOnly {s : State} (h : ResidueFenced a q σ s) (b cause tag : Nat) (plane : Plane) :
    ResidueFenced a q σ (fenceArrayOnly b cause plane tag s) := by
  by_cases hon : (s.arr b).fence.on = true
  · rwa [fenceArrayOnly_of_fenced hon]
  · have hab : b ≠ a := by rintro rfl; exact hon (by rw [h.fence])
    have hoff : (s.arr b).fence.on = false := by simpa using hon
    refine ⟨?_, ?_, (fenceArrayOnly_sat ..).trans h.sat⟩
    · rw [arr_of_arrs_eq (fenceArrayOnly_arrs hoff), endJobs_fence, arr_modArr_ne hab.symm]
      exact h.fence
    · rw [job_fenceArrayOnly hoff (fun e => hab e.1)]
      exact h.job

theorem disownJobs {s : State} (h : ResidueFenced a q σ s) (t : Nat) : ResidueFenced a q σ (disownJobs t s) := by
  obtain ⟨k, hk, hst, hjs⟩ := h.job
  refine ⟨?_, ⟨k.disowned t, ?_, ?_, ?_⟩, h.sat⟩
  · rw [arr_disownJobs]
    exact h.fence
  · rw [State.job, arr_disownJobs]
    exact (afind_map_snd ..).trans (congrArg (Option.map _) hk)
  · unfold ArrJob.disowned; split <;> exact hst
  · unfold ArrJob.disowned; split <;> exact hjs

theorem fenceTrimmer {s : State} (h : ResidueFenced a q σ s) (t cause : Nat) : ResidueFenced a q σ (fenceTrimmer t cause s) := by
  by_cases hon : (s.trmOf t).fence.on = true
  · rwa [fenceTrimmer_of_fenced hon]
  · rw [fenceTrimmer_of_unfenced (by simpa using hon)]
    exact (h.of_arrs (modTrm_arrs ..) (modTrm_sat ..)).disownJobs t

theorem fenceDie {s : State} (h : ResidueFenced a q σ s) (d : Nat) : ResidueFenced a q σ (fenceDie d s) := by
  unfold Machine.fenceDie
  split
  · exact h
  · refine forEach_keeps (fun k s h => ?_) _ (forEach_keeps (fun i s h => ?_) _ (forEach_keeps (fun i s h => ?_) _
      (h.of_arrs rfl rfl)))
    · split
      exacts [h.of_arrs (fenceMemory_arrs ..) (fenceMemory_sat ..), h]
    · split
      exacts [h.fenceTrimmer .., h]
    · split
      exacts [h.fenceArrayOnly .., h]

end ResidueFenced

/-- The fence by residue of an array whose job has ended with it. -/
theorem fenceArray_residue {a q tag : Nat} {k : ArrJob} {s : State} (hoff : (s.arr a).fence.on = false)
    (hn : ((s.arr a).slots.map (·.1)).Nodup) (hk : s.job a q = some k) (hst : k.st = 7) (hjs : k.jstat = jRESIDUE) :
    ResidueFenced a q s.sat (fenceArray a 1 .data tag s) := by
  have hq : q ∉ ((s.arr a).slots.filter (fun x => x.2.active)).map (·.1) := fun hm => by
    obtain ⟨x, hx, rfl⟩ := List.mem_map.mp hm
    obtain ⟨hx, hact⟩ := List.mem_filter.mp hx
    cases hk.symm.trans (afind_of_mem hn hx)
    simp [ArrJob.active, hst] at hact
  have only : ResidueFenced a q s.sat (fenceArrayOnly a 1 .data tag s) :=
    ⟨(fenceArrayOnly_spec hoff hn).1, ⟨k, (job_fenceArrayOnly hoff (fun e => hq e.2)).trans hk, hst, hjs⟩,
      fenceArrayOnly_sat ..⟩
  unfold fenceArray
  simp only [hoff]
  generalize fenceArrayOnly a 1 .data tag s = t at only ⊢
  generalize t.erc.dieFences.filter _ ++ [(arrDie a, t.now)] = l
  have counted : ResidueFenced a q s.sat { t with erc := { t.erc with dieFences := l } } := only.of_arrs rfl rfl
  rw [if_neg (by simp)]
  split
  · exact counted.fenceDie _
  · exact counted

/-! ## Streaming, its mismatches and the end of a job (R64, R75, R80, R85) -/

/-- Two states that differ at most in the arrays' part. -/
def ArrsApart (s t : State) : Prop := t = { s with arrs := t.arrs }

theorem ArrsApart.trans {s t u : State} (h : ArrsApart s t) (k : ArrsApart t u) : ArrsApart s u := by
  unfold ArrsApart at *; rw [k, h]

theorem ArrsApart.of_shelf {s t : State} (h : ShelfApart s t) : ArrsApart s t := by
  unfold ArrsApart ShelfApart at *; rw [h]

section
variable {s : State} {a q : Nat} {j : ArrJob}

/-- A token that passes: the job with its output, the shelf where nothing had to go there, and the frame. -/
theorem streamToken_out {o : TokenOut} {row : List Byte} {rest : List (List Byte)} {k : Nat} (hj : s.job a q = some j)
    (hst : j.st = 4) (hf : s.firstIn a 4 = some q) (ht : j.tok < dTLen j.desc) (hg : operandsGood s j)
    (hs : j.stage = row :: rest) (ho : s.runToken (dSaggar j.desc) j j.tok row .none = .out o)
    (hk : k = j.outs.length + 1 - 16384 / max 1 o.bytes.length) {u : State} (hu : u = streamToken a .none s) :
    (∃ more, u.job a q = some { j with
          tok := j.tok + 1, stage := rest ++ more, outs := j.outs.drop k ++ [o.bytes]
          drained := j.drained + min k j.outs.length, ovf := j.ovf + o.ovf, sat := j.sat + o.sat })
        ∧ (k = 0 → u.arrs.shelf = s.arrs.shelf)
        ∧ (∀ b, b ≠ a → u.arr b = s.arr b) ∧ u = { bumpCtr (ctrArrBusy a) 1 s with arrs := u.arrs } := by
  obtain ⟨more, j', hj', e, hrun⟩ := streamToken_of_staged (v := .none) hf hj nofun ht hg hs
  obtain ⟨t, ht'⟩ : ∃ t, t = bumpCtr (ctrArrBusy a) 1 (setJob a q j' s) := ⟨_, rfl⟩
  have htj : t.job a q = some j' := by rw [ht']; exact job_setJob_self ..
  have hpush : u = setJob a q (j'.pushed k o) (shelveOuts j' k t) := by
    rw [hu, e, passToken_of_out (job_setJob_self ..) (by rw [hj', hst]) (hrun.trans ho), ← ht']
    exact pushOut_of_job htj o (by rw [hj', hk])
  have apart := shelveOuts_apart j' k t
  subst hpush
  refine ⟨⟨more, ?_⟩, fun h0 => ?_, fun b hb => ?_, ?_⟩
  · rw [job_setJob_self, hj']
    rfl
  · rw [setJob_shelf, h0, shelveOuts_of_none rfl, ht', bumpCtr_arrs, setJob_shelf]
  · rw [arr_setJob_ne hb, arr_of_arrs apart.arr, ht', arr_bumpCtr, arr_setJob_ne hb]
  · have frame : ArrsApart (bumpCtr (ctrArrBusy a) 1 s) t := by rw [ht']; rfl
    exact (frame.trans (.of_shelf apart)).trans rfl

/-- A failed attempt that is not the third: the job waits to be tried again, and the array counts a mismatch. -/
theorem failAttempt_retry {t : State} {i : ArrJob} (hi : i.retried = j.retried) (hd : j.failed < 2)
    (hb : ∀ b, b ≠ a → t.arr b = s.arr b) (hsh : t.arrs.shelf = s.arrs.shelf) (hsat : t.sat = s.sat)
    {u : State} (hu : u = failAttempt a q i t) :
    u.job a q = some j.retried ∧ u.satVal (satArrResidue a) = satAdd 16 (s.satVal (satArrResidue a)) 1
      ∧ (∀ b, b ≠ a → u.arr b = s.arr b) ∧ u.arrs.shelf = s.arrs.shelf := by
  have hfailed : i.failed = j.failed := Nat.succ.inj (congrArg ArrJob.failed hi)
  rw [failAttempt_of_retry (hfailed ▸ hd), hi] at hu
  subst hu
  refine ⟨job_setJob_self .., ?_, fun b hb' => ?_, ?_⟩
  · rw [satVal_of_sat (setJob_sat ..), countFailure_satVal, satVal_of_sat hsat]
  · rw [arr_setJob_ne hb', arr_of_arrs_eq (countFailure_arrs ..), hb b hb']
  · rw [setJob_shelf, countFailure_arrs, hsh]

/-- A mismatch that a protection reports is a failed attempt, with the busy cycle of a token that entered. -/
theorem streamToken_reported (hj : s.job a q = some j) (hf : s.firstIn a 4 = some q) :
    ∃ t : State, t.arrs = s.arrs ∧ t.sat = s.sat ∧ streamToken a .reported s = failAttempt a q j t := by
  simp only [streamToken, hf, hj, if_true]
  split
  · exact ⟨_, bumpCtr_arrs .., bumpCtr_sat .., rfl⟩
  · exact ⟨s, rfl, rfl, rfl⟩

/-- A mismatch, reported or found by the residue lane, is a failed attempt of the job. -/
theorem streamToken_mismatch {v : Upset} (hj : s.job a q = some j) (hst : j.st = 4) (hf : s.firstIn a 4 = some q)
    (hv : v = .reported ∨ (j.tok < dTLen j.desc ∧ operandsGood s j
        ∧ ∃ row rest, j.stage = row :: rest ∧ s.runToken (dSaggar j.desc) j j.tok row v = .mismatch)) :
    ∃ (i : ArrJob) (t : State), i.retried = j.retried ∧ (∀ b, b ≠ a → t.arr b = s.arr b) ∧ t.arrs.shelf = s.arrs.shelf
      ∧ t.sat = s.sat ∧ streamToken a v s = failAttempt a q i t := by
  by_cases hr : v = .reported
  · subst hr
    obtain ⟨t, harrs, hsat, e⟩ := streamToken_reported hj hf
    exact ⟨j, t, rfl, fun b _ => arr_of_arrs_eq harrs b, congrArg Arrs.shelf harrs, hsat, e⟩
  · obtain ⟨ht, hg, row, rest, hs, hm⟩ := hv.resolve_left hr
    obtain ⟨more, i, hi, e, hrun⟩ := streamToken_of_staged hf hj hr ht hg hs
    rw [passToken_of_mismatch (job_setJob_self ..) (by rw [hi, hst]) (hrun.trans hm)] at e
    subst hi
    exact ⟨_, _, rfl, fun b hb => by rw [arr_bumpCtr, arr_setJob_ne hb], by rw [bumpCtr_arrs, setJob_shelf],
      by rw [bumpCtr_sat, setJob_sat], e⟩

/-- The third failed attempt: the job has ended with it, and the array is fenced for it. -/
theorem failAttempt_third (hj : s.job a q = some j) (hd : 2 ≤ j.failed) (hoff : (s.arr a).fence.on = false)
    (hn : ((s.arr a).slots.map (·.1)).Nodup) : ResidueFenced a q (countFailure a j s).sat (failAttempt a q j s) := by
  have hc : (countFailure a j s).job a q = some j := (job_of_arrs (congrArg Arrs.arr (countFailure_arrs ..)) ..).trans hj
  have harr : (countFailure a j s).arr a = s.arr a := arr_of_arrs_eq (countFailure_arrs ..) a
  have hk := (job_endJob hc 7 jRESIDUE 0 a q).trans (if_pos ⟨rfl, rfl⟩)
  have hn' := (endJob_slots (slot := q) (harr ▸ hn) 7 jRESIDUE 0).1
  have hoff' : ((endJob a q 7 jRESIDUE 0 (countFailure a j s)).arr a).fence.on = false := by
    rw [endJob_fence, harr, hoff]
  have fenced := fenceArray_residue (tag := dTag j.desc) hoff' hn' hk rfl rfl
  rw [endJob_sat, ← failAttempt_of_third hd] at fenced
  exact fenced

/-- A mismatch reported after two failed attempts fences the array, and counts as every other. -/
theorem streamToken_third (hj : s.job a q = some j) (hf : s.firstIn a 4 = some q) (hd : 2 ≤ j.failed)
    (hoff : (s.arr a).fence.on = false) (hn : ((s.arr a).slots.map (·.1)).Nodup) {u : State}
    (hu : u = streamToken a .reported s) :
    (u.arr a).fence = { on := true, cause := 1 } ∧ (∃ k : ArrJob, u.job a q = some k ∧ k.st = 7 ∧ k.jstat = jRESIDUE)
      ∧ u.satVal (satArrResidue a) = satAdd 16 (s.satVal (satArrResidue a)) 1 := by
  obtain ⟨t, harrs, hsat, e⟩ := streamToken_reported hj hf
  have harr : t.arr a = s.arr a := arr_of_arrs_eq harrs a
  have htj : t.job a q = some j := by rw [State.job, harr]; exact hj
  obtain ⟨fence, job, sat⟩ := failAttempt_third htj hd (by rw [harr, hoff]) (by rw [harr]; exact hn)
  rw [hu, e]
  exact ⟨fence, job, by rw [satVal_of_sat sat, countFailure_satVal, satVal_of_sat hsat]⟩

/-- An array whose held tile, if the job of an acceptance order loaded it, is spoiled (R598). -/
def Arr.spoiled (order : Nat) (x : Arr) : Arr :=
  { x with kept := x.kept.map (fun t => if t.by_ = order then { t with st := 2 } else t) }

/-- An operand grain that fails ends the job and counts. -/
theorem operandBad_spec (hj : s.job a q = some j) (tile : Bool) {u : State} (hu : u = operandBad a q tile s) :
    u.job a q = some { j with st := 6, jstat := jPOISON, cause := 0x20, held := false, stage := [], outs := [] }
      ∧ u.satVal (satArrPoison a) = satAdd 16 (s.satVal (satArrPoison a)) 1 := by
  have marked : ∃ t, u = endJob a q 6 jPOISON 0x20 (bumpSat (satArrPoison a) t) ∧ t.job a q = some j ∧ t.sat = s.sat := by
    simp only [operandBad, hj] at hu
    cases tile with
    | false => exact ⟨s, hu, hj, rfl⟩
    | true => exact ⟨modArr a (·.spoiled j.order) s, hu, (job_modArr_of_slots (f := (·.spoiled j.order)) (fun _ => rfl) ..).trans hj,
        modArr_sat ..⟩
  obtain ⟨t, rfl, ht, hsat⟩ := marked
  have ht' : (bumpSat (satArrPoison a) t).job a q = some j := (job_of_arrs (congrArg Arrs.arr (bumpSat_arrs ..)) ..).trans ht
  refine ⟨(job_endJob ht' ..).trans (if_pos ⟨rfl, rfl⟩), ?_⟩
  rw [satVal_of_sat (endJob_sat ..), satVal_bumpSat, satVal_of_sat hsat, satArrPoison, satWidth_arrPage]

/-- After the last token the job is done, with every output on the shelf. -/
theorem streamComplete_spec (hj : s.job a q = some j) (hf : s.firstIn a 4 = some q) (ht : dTLen j.desc ≤ j.tok)
    {u : State} (hu : u = streamComplete a s) :
    u.job a q = some { j with
          st := 6, jstat := if j.ovf = 0 then jDONE else jDONEOVF, cause := 0, outs := []
          drained := j.drained + j.outs.length }
        ∧ (j.outs = [] → u.arrs.shelf = s.arrs.shelf)
        ∧ (∀ b, b ≠ a → u.arr b = s.arr b) ∧ u = { s with arrs := u.arrs, wit := u.wit } := by
  have hc : (tapAdd (dSaggar j.desc) 0 (1024 * dTLen j.desc) s).job a q = some j := hj
  have apart := shelveOuts_apart j j.outs.length (tapAdd (dSaggar j.desc) 0 (1024 * dTLen j.desc) s)
  simp only [streamComplete, hf, hj, Nat.not_lt.mpr ht, if_false, drainOuts_of_job hc, job_setJob_self, setJob_setJob] at hu
  subst hu
  refine ⟨?_, fun h0 => ?_, fun b hb => ?_, ?_⟩
  · rw [job_setJob_self]
    simp [ArrJob.shelved]
  · rw [setJob_shelf, shelveOuts_of_none (by simp [h0]), tapAdd_arrs]
  · rw [arr_setJob_ne hb, arr_of_arrs apart.arr, arr_of_arrs_eq (tapAdd_arrs ..)]
  · generalize shelveOuts j j.outs.length (tapAdd (dSaggar j.desc) 0 (1024 * dTLen j.desc) s) = t at apart
    rw [apart]
    rfl

theorem natLe_length (v n : Nat) : (natLe v n).length = n := by
  induction n generalizing v with
  | zero => rfl
  | succ n ih => rw [natLe, List.length_cons, ih]

theorem cplRecord_length (d : List Byte) (jstat retries cause : Nat) (f : Int) (ovf sat cycles : Nat) :
    (cplRecord d jstat retries cause f ovf sat cycles).length = 32 := by
  simp only [cplRecord, List.length_append, natLe_length, zeros, List.length_replicate]

/-- A record is written where `CPL_ADDR` passes. -/
theorem writeCpl_of_ok {g : Nat} {d rec : List Byte} {s : State} (h0 : dCpl d ≠ 0) (hok : cplOk d (s.shelfSize g) = true)
    (hl : rec.length = 32) : ∃ crc, writeCpl g d rec s = setShelf (memWrite s.arrs.shelf (g * 2 ^ 30 + dCpl d) rec) crc s := by
  have hroom : dCpl d + rec.length ≤ s.shelfSize g := by
    have := (Bool.and_eq_true_iff.mp hok).2
    rw [hl]
    exact of_decide_eq_true this
  rw [writeCpl, if_pos (by simp [h0, hok]), shelfWrite, if_pos hroom]
  exact ⟨_, rfl⟩

/-- A Trimmer with one more completion in its queue and one job fewer running. -/
def Trm.completed (d : List Byte) (e : Nat) (x : Trm) : Trm :=
  { x with
    cplq := x.cplq ++ [e]
    upcalls := if dIrq d then x.upcalls ++ [{ mcause := 17, a1 := dTag d }] else x.upcalls
    jobs := x.jobs - 1 }

theorem jobs_pushCpl (t : Nat) (d : List Byte) (e : Nat) (s : State) :
    modTrm t (fun x => { x with jobs := x.jobs - 1 }) (pushCpl t d e s) = modTrm t (·.completed d e) s := by
  simp only [pushCpl, modTrm, amod_amod]
  rfl

/-- The completion of an ended job that a Trimmer issued, with no swap under way and no batch to go on. -/
theorem jobCompletion_of_ended {t : Nat} (hj : s.job a q = some j) (hst : 6 ≤ j.st) (hi : j.issuer = .trimmer t)
    (hsw : s.trms.swapDeadline = []) (hsit : ∀ x ∈ s.sit, x.2.batches.any (·.issued) = false) (h0 : dCpl j.desc ≠ 0)
    (hok : cplOk j.desc (s.shelfSize (dSaggar j.desc)) = true) :
    ∃ crc, jobCompletion a q s
      = modTrm t (·.completed j.desc (cplEntry j.desc j.jstat (min 3 j.failed) j.cause j.f))
        (modArr a (fun x => { x with slots := aerase x.slots q })
          (setShelf (memWrite s.arrs.shelf (dSaggar j.desc * 2 ^ 30 + dCpl j.desc)
            (cplRecord j.desc j.jstat (min 3 j.failed) j.cause j.f j.ovf j.sat (s.aclkSince j.at_))) crc s)) := by
  obtain ⟨crc, e⟩ := writeCpl_of_ok h0 hok
    (cplRecord_length j.desc j.jstat (min 3 j.failed) j.cause j.f j.ovf j.sat (s.aclkSince j.at_))
  refine ⟨crc, ?_⟩
  have idle : s.sit.filter (fun q => q.2.batches.any (·.issued)) = [] := List.filter_eq_nil_iff.mpr fun x hx => by simp [hsit x hx]
  simp only [jobCompletion, hj, Nat.not_lt.mpr hst, if_false, e, hi, jobs_pushCpl]
  rw [trySwap_of_no_swap, modTrm_sit, modArr_sit, setShelf_sit, idle]
  · rfl
  · rw [modTrm_trms, modArr_trms, setShelf_trms, hsw]

/-- What a completion leaves: the slot free, the shelf with the record, and the Trimmer with the entry queued. -/
theorem completed_spec (t e : Nat) (d : List Byte) (m : List Host.Cell) (crc : Assoc Nat Nat) (a q : Nat) (s : State)
    {u : State} (hu : u = modTrm t (·.completed d e) (modArr a (fun x => { x with slots := aerase x.slots q }) (setShelf m crc s))) :
    u.job a q = none ∧ u.arrs.shelf = m ∧ (u.trmOf t).cplq = (s.trmOf t).cplq ++ [e]
      ∧ (u.trmOf t).jobs = (s.trmOf t).jobs - 1 ∧ (∀ b, b ≠ a → u.arr b = s.arr b)
      ∧ u = { s with arrs := u.arrs, trm := u.trm } := by
  subst hu
  refine ⟨?_, rfl, ?_, ?_, fun b hb => ?_, rfl⟩
  · rw [job_of_arrs (congrArg Arrs.arr (modTrm_arrs ..)), State.job, arr_modArr_self]
    exact afind_aerase_self ..
  · rw [trmOf_modTrm_self]
    rfl
  · rw [trmOf_modTrm_self]
    rfl
  · rw [arr_of_arrs_eq (modTrm_arrs ..), arr_modArr_ne hb]
    rfl

theorem operandArrival_bad (hj : s.job a q = some j) (h2 : 2 ≤ j.st) (h5 : j.st ≤ 5) (addr : Nat) :
    ∃ tile, operandArrival a q addr false s = operandBad a q tile s := by
  simp only [operandArrival, hj, h2, h5, and_self, decide_true, Bool.not_true, Bool.false_eq_true, if_false,
    Bool.not_false, if_true]
  exact ⟨_, rfl⟩

theorem operandArrival_good (hj : s.job a q = some j) (hp : dPIn j.desc = false) (addr : Nat) :
    operandArrival a q addr true s = s := by
  simp [operandArrival, hj, hp]

end

/-- Settles O18: a token's pass by what staging and the output area do, mismatches by what a failed attempt leaves, of
which the third fences the array and may fence its die, and the ends of a job by its record and its outputs. -/
theorem arrayStreaming : Obligations.ArrayStreaming := by
  intro s a q j ha hq hj hn
  have token : ∀ {v : Upset}, v.wf = true → Completes (.streamToken a v) s (streamToken a v s) := fun hv =>
    run_ok (by rw [hv, decide_eq_true ha]; rfl) rfl
  have operand : ∀ {addr : Nat} (ok : Bool), addr < 2 ^ 64 →
      Completes (.operandArrival a q addr ok) s (operandArrival a q addr ok s) := fun ok hb =>
    run_ok (by rw [decide_eq_true ha, decide_eq_true hq, decide_eq_true hb]; rfl) rfl
  refine ⟨fun o row rest k hf ht hg hs ho hk => ?_, fun v hf hd hv hm => ?_, fun hf hd hoff => ?_,
    fun addr hb h2 h5 => ?_, fun addr hb hp => ?_, fun hf ht => ?_, fun t h6 hi _ hsw hsit h0 hok => ?_⟩
  · exact effect_of (token rfl) (streamToken_out hj (st_of_firstIn hn hf hj) hf ht hg hs ho hk rfl)
  · obtain ⟨i, t, hi, hb, hsh, hsat, e⟩ := streamToken_mismatch hj (st_of_firstIn hn hf hj) hf hm
    exact effect_of (token hv) (failAttempt_retry hi hd hb hsh hsat e)
  · exact effect_of (token rfl) (streamToken_third hj hf hd hoff hn rfl)
  · obtain ⟨tile, e⟩ := operandArrival_bad hj h2 h5 addr
    exact effect_of (operand false hb) (operandBad_spec hj tile e)
  · have done := operand true hb
    rwa [operandArrival_good hj hp] at done
  · exact effect_of (run_ok (decide_eq_true ha) rfl) (streamComplete_spec hj hf ht rfl)
  · obtain ⟨crc, e⟩ := jobCompletion_of_ended hj h6 hi hsw hsit h0 hok
    have done : Completes (.jobCompletion a q) s _ := run_ok (by rw [decide_eq_true ha, decide_eq_true hq]; rfl) e
    exact effect_of done (completed_spec _ _ _ _ crc a q s rfl)

end Sys2Proof.Machine
end

section
namespace Sys2Proof.Machine

/-! ## The running code of a Trimmer: its registers, and the state an instruction finds and leaves (R97, R98) -/

/-- A register of a context; `x0` reads zero. -/
def Ctx.reg (c : Ctx) (r : Nat) : Nat := if r = 0 then 0 else c.x[r]?.getD 0

/-- A context after an instruction of 4 bytes that writes `v` to register `rd`. -/
def Ctx.retire (rd v : Nat) (c : Ctx) : Ctx :=
  { c with x := if rd = 0 then c.x else c.x.setIfInBounds rd (v % 2 ^ 64), pc := (c.pc + 4) % 2 ^ 64 }

theorem reg_retire {rd : Nat} (h : rd < 32) (v : Nat) (c : Ctx) (r : Nat) :
    (c.retire rd v).reg r = if r = rd ∧ rd ≠ 0 then v % 2 ^ 64 else c.reg r := by
  unfold Ctx.reg Ctx.retire
  by_cases hr : r = 0
  · subst hr
    have : ¬ (0 = rd ∧ rd ≠ 0) := fun e => e.2 e.1.symm
    simp [this]
  · by_cases hd : rd = 0
    · simp [hd]
    · by_cases e : r = rd
      · subst e
        simp [hr, h]
      · simp [hr, hd, e, Ne.symm e]

theorem rx_eq_reg (s : State) (t r : Nat) : s.rx t r = (s.runCtx t).reg r := rfl
theorem tx_eq_reg (s : State) (t r : Nat) : s.tx t r = (s.trmOf t).ctx.reg r := rfl

/-- Successive updates of one Trimmer are one update. -/
theorem modTrm_modTrm (t : Nat) (f g : Trm → Trm) (s : State) :
    modTrm t f (modTrm t g s) = modTrm t (fun x => f (g x)) s := by
  unfold modTrm; rw [amod_amod]

/-- Updates that agree on the Trimmer as it is are equal. -/
theorem modTrm_congr {t : Nat} {f g : Trm → Trm} {s : State} (h : f (s.trmOf t) = g (s.trmOf t)) :
    modTrm t f s = modTrm t g s := by
  unfold modTrm amod; rw [show f (aget s.trm t {}) = g (aget s.trm t {}) from h]

/-- An instruction that begins touches the upcalls alone (R120). -/
theorem beginInsn_eq (t : Nat) (s : State) : ∃ l, beginInsn t s = modTrm t (fun x => { x with upcalls := l }) s := by
  unfold beginInsn takeSamples
  rw [modTrm_modTrm]
  exact ⟨_, modTrm_congr rfl⟩

theorem queueUpcall_eq (t : Nat) (e : TrmEvent) (s : State) :
    ∃ l, queueUpcall t e s = modTrm t (fun x => { x with upcalls := l }) s := by
  refine ⟨if (s.trmOf t).upcalls.contains e then (s.trmOf t).upcalls else (s.trmOf t).upcalls ++ [e], modTrm_congr ?_⟩
  split <;> rfl

/-- A counter raised (R119): the upcall of its overflow may be queued. -/
theorem bumpHpm_eq (t c n : Nat) (s : State) :
    ∃ h l, bumpHpm t c n s = modTrm t (fun x => { x with hpm := h, upcalls := l }) s := by
  unfold bumpHpm
  dsimp only
  split
  · obtain ⟨l, e⟩ := queueUpcall_eq t { mcause := 18, a1 := c, since := some 0 }
      (modTrm t (fun x => { x with hpm := aset x.hpm c ((aget (s.trmOf t).hpm c {}).add n) }) s)
    rw [e, modTrm_modTrm]
    exact ⟨_, _, modTrm_congr rfl⟩
  · exact ⟨_, _, modTrm_congr rfl⟩

/-- `instret` raises no overflow. -/
theorem bumpHpm_instret (t n : Nat) (s : State) :
    bumpHpm t 2 n s = modTrm t (fun x => { x with hpm := aset x.hpm 2 ((aget x.hpm 2 {}).add n) }) s := by
  unfold bumpHpm
  exact (if_neg (by simp)).trans (modTrm_congr rfl)

/-- The state in which the code that runs has its registers at hand, as an instruction of it begins. -/
def State.entered (s : State) (t : Nat) : State :=
  if s.inM t then modTrm t (fun x => { x with ctx := x.mctx }) (beginInsn t s) else beginInsn t s

/-- What `w`, in which the code that runs has its registers at hand, is once they are put back. -/
def State.leave (s : State) (t : Nat) (w : State) : State :=
  if s.inM t then modTrm t (fun x => { x with mctx := x.ctx, ctx := (s.trmOf t).ctx }) w else w

theorem inM_iff {s : State} {t : Nat} : s.inM t = true ↔ (s.trmOf t).run = .none := by
  unfold State.inM; exact decide_eq_true_iff

theorem inM_of_run {s w : State} {t : Nat} (h : (w.trmOf t).run = (s.trmOf t).run) : w.inM t = s.inM t := by
  unfold State.inM; rw [h]

theorem trmOf_beginInsn (t : Nat) (s : State) :
    (beginInsn t s).trmOf t = { s.trmOf t with upcalls := ((beginInsn t s).trmOf t).upcalls } := by
  obtain ⟨l, h⟩ := beginInsn_eq t s
  rw [h, trmOf_modTrm_self]

theorem trmOf_entered (t : Nat) (s : State) : (s.entered t).trmOf t
    = { s.trmOf t with upcalls := ((beginInsn t s).trmOf t).upcalls, ctx := s.runCtx t } := by
  unfold State.entered State.runCtx
  split
  · rw [trmOf_modTrm_self, trmOf_beginInsn]
  · exact trmOf_beginInsn ..

theorem trmOf_entered_ne {t k : Nat} (h : k ≠ t) (s : State) : (s.entered t).trmOf k = s.trmOf k := by
  obtain ⟨l, hb⟩ := beginInsn_eq t s
  unfold State.entered
  split
  · rw [trmOf_modTrm_ne _ _ h, hb, trmOf_modTrm_ne _ _ h]
  · rw [hb, trmOf_modTrm_ne _ _ h]

theorem entered_frame (t : Nat) (s : State) : s.entered t = { s with trm := (s.entered t).trm } := by
  obtain ⟨l, hb⟩ := beginInsn_eq t s
  unfold State.entered
  rw [hb]
  split <;> rfl

theorem tx_entered (t r : Nat) (s : State) : (s.entered t).tx t r = s.rx t r := by
  rw [tx_eq_reg, trmOf_entered]; rfl

theorem trmPc_entered (t : Nat) (s : State) : (s.entered t).trmPc t = s.rpc t := by
  rw [State.trmPc, trmOf_entered]; rfl

@[simp] theorem entered_run (t : Nat) (s : State) : ((s.entered t).trmOf t).run = (s.trmOf t).run := by rw [trmOf_entered]
@[simp] theorem entered_mem (t : Nat) (s : State) : ((s.entered t).trmOf t).mem = (s.trmOf t).mem := by rw [trmOf_entered]
@[simp] theorem entered_fwMem (t : Nat) (s : State) : ((s.entered t).trmOf t).fwMem = (s.trmOf t).fwMem := by rw [trmOf_entered]
@[simp] theorem entered_wins (t : Nat) (s : State) : ((s.entered t).trmOf t).wins = (s.trmOf t).wins := by rw [trmOf_entered]
@[simp] theorem entered_xwin (t : Nat) (s : State) : ((s.entered t).trmOf t).xwin = (s.trmOf t).xwin := by rw [trmOf_entered]
@[simp] theorem entered_retired (t : Nat) (s : State) : ((s.entered t).trmOf t).retired = (s.trmOf t).retired := by
  rw [trmOf_entered]
@[simp] theorem entered_fwDown (t : Nat) (s : State) : ((s.entered t).trmOf t).fwDown = (s.trmOf t).fwDown := by
  rw [trmOf_entered]
@[simp] theorem entered_inM (t : Nat) (s : State) : (s.entered t).inM t = s.inM t := inM_of_run (entered_run t s)
@[simp] theorem entered_fab (t : Nat) (s : State) : (s.entered t).fab = s.fab := by rw [entered_frame]
@[simp] theorem entered_trms (t : Nat) (s : State) : (s.entered t).trms = s.trms := by rw [entered_frame]
@[simp] theorem entered_trmSag (t k : Nat) (s : State) : (s.entered t).trmSag k = s.trmSag k := by rw [entered_frame]; rfl
@[simp] theorem entered_nextTag (t : Nat) (s : State) : (s.entered t).nextTag = s.nextTag := by rw [entered_frame]; rfl
@[simp] theorem entered_maySend (t : Nat) (s : State) (q : Requester) (dst g : Nat) :
    (s.entered t).maySend q dst g = s.maySend q dst g := by rw [entered_frame]; rfl
@[simp] theorem entered_grainHeld (t : Nat) (s : State) (q : Requester) (dst off : Nat) :
    (s.entered t).grainHeld q dst off = s.grainHeld q dst off := by rw [entered_frame]; rfl
@[simp] theorem entered_winTarget (t n a : Nat) (s : State) : (s.entered t).winTarget t n a = s.winTarget t n a := by
  unfold State.winTarget; rw [entered_xwin]

/-- Where an address leads depends on the Trimmers only by the code that runs and the windows. -/
theorem zone_congr {s e : State} {t : Nat} (h : e = { s with trm := e.trm }) (hr : (e.trmOf t).run = (s.trmOf t).run)
    (hx : (e.trmOf t).xwin = (s.trmOf t).xwin) (a n : Nat) (w : Bool) : e.zone t a n w = s.zone t a n w := by
  have howner : e.trmOwner t = s.trmOwner t := by rw [h]; rfl
  have hsag : e.trmSag t = s.trmSag t := by rw [h]; rfl
  have hsize : ∀ g, e.shelfSize g = s.shelfSize g := fun g => by rw [h]; rfl
  have hpcs : ∀ g, e.pcsOf g = s.pcsOf g := fun g => by rw [h]; rfl
  simp only [State.zone, inM_of_run hr, hx, howner, hsag, hsize, hpcs]

@[simp] theorem entered_zone (t a n : Nat) (w : Bool) (s : State) : (s.entered t).zone t a n w = s.zone t a n w :=
  zone_congr (entered_frame t s) (entered_run t s) (entered_xwin t s) a n w

theorem trmOf_leave (t : Nat) (s w : State) : (s.leave t w).trmOf t
    = if s.inM t then { w.trmOf t with mctx := (w.trmOf t).ctx, ctx := (s.trmOf t).ctx } else w.trmOf t := by
  unfold State.leave
  split
  · rw [trmOf_modTrm_self]
  · rfl

theorem trmOf_leave_ne {t k : Nat} (h : k ≠ t) (s w : State) : (s.leave t w).trmOf k = w.trmOf k := by
  unfold State.leave
  split
  · exact trmOf_modTrm_ne _ _ h
  · rfl

theorem leave_frame (t : Nat) (s w : State) : s.leave t w = { w with trm := (s.leave t w).trm } := by
  unfold State.leave; split <;> rfl

@[simp] theorem leave_fab (t : Nat) (s w : State) : (s.leave t w).fab = w.fab := by rw [leave_frame]
@[simp] theorem leave_ctr (t : Nat) (s w : State) : (s.leave t w).ctr = w.ctr := by rw [leave_frame]
@[simp] theorem leave_run (t : Nat) (s w : State) : ((s.leave t w).trmOf t).run = (w.trmOf t).run := by
  rw [trmOf_leave]; split <;> rfl
@[simp] theorem leave_mem (t : Nat) (s w : State) : ((s.leave t w).trmOf t).mem = (w.trmOf t).mem := by
  rw [trmOf_leave]; split <;> rfl
@[simp] theorem leave_wins (t : Nat) (s w : State) : ((s.leave t w).trmOf t).wins = (w.trmOf t).wins := by
  rw [trmOf_leave]; split <;> rfl
@[simp] theorem leave_xmark (t : Nat) (s w : State) : ((s.leave t w).trmOf t).xmark = (w.trmOf t).xmark := by
  rw [trmOf_leave]; split <;> rfl

theorem runCtx_leave {t : Nat} {s w : State} (h : (w.trmOf t).run = (s.trmOf t).run) :
    (s.leave t w).runCtx t = (w.trmOf t).ctx := by
  have hm : (s.leave t w).inM t = s.inM t := inM_of_run ((leave_run t s w).trans h)
  unfold State.runCtx
  rw [hm, trmOf_leave]
  cases s.inM t <;> rfl

/-- An instruction that leaves nothing but its beginning. -/
theorem leave_entered (t : Nat) (s : State) : s.leave t (s.entered t) = beginInsn t s := by
  unfold State.leave State.entered
  split
  · obtain ⟨l, hb⟩ := beginInsn_eq t s
    rw [hb, modTrm_modTrm, modTrm_modTrm]
    exact modTrm_congr rfl
  · rfl

theorem trmRuns_iff {s : State} {t : Nat} : s.trmRuns t = true ↔ t < s.variant.trimmers ∧ (s.trmOf t).fence.on = false
    ∧ (s.trmOf t).fwDown = false ∧ 1 ≤ (s.trmOf t).mode ∧ (s.trmOf t).stall = none ∧ (s.trmOf t).blocked = false := by
  simp [State.trmRuns, and_assoc]

/-- Code that runs on with its firmware up: its operation on the registers at hand. -/
theorem inCtx_beginInsn {t : Nat} {s w : State} {g : State → State} (hg : g (s.entered t) = w)
    (hr : (w.trmOf t).run = (s.trmOf t).run) (hf : (w.trmOf t).fwDown = false) :
    inCtx t g (beginInsn t s) = s.leave t w := by
  have hb : ((beginInsn t s).trmOf t).run = (s.trmOf t).run := by rw [trmOf_beginInsn]
  have hc : ((beginInsn t s).trmOf t).ctx = (s.trmOf t).ctx := by rw [trmOf_beginInsn]
  unfold inCtx State.leave
  rw [inM_of_run hb, hc]
  unfold State.entered at hg
  split at hg
  next h =>
    rw [if_pos h, if_pos h]
    dsimp only
    rw [hg]
    exact modTrm_congr (by rw [if_pos (hr.trans (inM_iff.mp h)), hf]; rfl)
  next h => rw [if_neg h, if_neg h, hg]

/-! ## What an instruction that does not fault leaves of the code that runs -/

/-- Two states alike in what retiring an instruction of Trimmer `t` reads: the code's registers, mode and budget, the
other Trimmers, and the configuration. -/
structure CodeKept (t : Nat) (s w : State) : Prop where
  ctx : (w.trmOf t).ctx = (s.trmOf t).ctx
  run : (w.trmOf t).run = (s.trmOf t).run
  fwDown : (w.trmOf t).fwDown = (s.trmOf t).fwDown
  retired : (w.trmOf t).retired = (s.trmOf t).retired
  others : ∀ k, k ≠ t → w.trmOf k = s.trmOf k
  img : w.img = s.img
  node : w.fab.node = s.fab.node

namespace CodeKept

theorem refl (t : Nat) (s : State) : CodeKept t s s := ⟨rfl, rfl, rfl, rfl, fun _ _ => rfl, rfl, rfl⟩

theorem trans {t : Nat} {s w v : State} (h : CodeKept t s w) (k : CodeKept t w v) : CodeKept t s v :=
  ⟨k.ctx.trans h.ctx, k.run.trans h.run, k.fwDown.trans h.fwDown, k.retired.trans h.retired,
   fun i hi => (k.others i hi).trans (h.others i hi), k.img.trans h.img, k.node.trans h.node⟩

theorem modTrm {t : Nat} {s : State} {f : Trm → Trm} (hc : (f (s.trmOf t)).ctx = (s.trmOf t).ctx)
    (hr : (f (s.trmOf t)).run = (s.trmOf t).run) (hf : (f (s.trmOf t)).fwDown = (s.trmOf t).fwDown)
    (hn : (f (s.trmOf t)).retired = (s.trmOf t).retired) : CodeKept t s (modTrm t f s) := by
  refine ⟨?_, ?_, ?_, ?_, fun k hk => trmOf_modTrm_ne f s hk, rfl, rfl⟩ <;> rw [trmOf_modTrm_self] <;> assumption

theorem bumpHpm (t c n : Nat) (s : State) : CodeKept t s (bumpHpm t c n s) := by
  obtain ⟨h, l, e⟩ := bumpHpm_eq t c n s
  rw [e]; exact modTrm rfl rfl rfl rfl

theorem issue (t : Nat) (q : Requester) (p : Packet) (s : State) : CodeKept t s (issue q p s) :=
  ⟨rfl, rfl, rfl, rfl, fun _ _ => rfl, rfl, rfl⟩

theorem budget {t : Nat} {s w : State} (h : CodeKept t s w) (key : Nat) :
    w.sagParam (w.trmSag t) key = s.sagParam (s.trmSag t) key := by
  unfold State.sagParam State.sagBody State.sagComp State.trmSag State.trmOwner State.sagRec State.nodeBody
  rw [h.img, h.node]

end CodeKept

/-- A Trimmer after an instruction of its code that writes `v` to register `rd`. -/
def Trm.retire (rd v : Nat) (x : Trm) : Trm :=
  { x with
    ctx := x.ctx.retire rd v
    hpm := aset x.hpm 2 ((aget x.hpm 2 {}).add 1)
    retired := x.retired + if x.run = .handler then 1 else 0 }

/-- The state that retiring such an instruction makes of the one its own effect left. -/
def retireCode (t rd v : Nat) (w : State) : State := modTrm t (Trm.retire rd v) (bumpCtr (ctrTrmRetired t) 1 w)

@[simp] theorem trmOf_retireCode (t rd v : Nat) (w : State) : (retireCode t rd v w).trmOf t = (w.trmOf t).retire rd v :=
  trmOf_modTrm_self ..

theorem trmOf_retireCode_ne {t k : Nat} (h : k ≠ t) (rd v : Nat) (w : State) : (retireCode t rd v w).trmOf k = w.trmOf k :=
  trmOf_modTrm_ne _ _ h

theorem bumpCtr_modTrm (a n t : Nat) (f : Trm → Trm) (s : State) :
    bumpCtr a n (modTrm t f s) = modTrm t f (bumpCtr a n s) := rfl

/-- The counts of an instruction of code that has budget for it (R117, R119). -/
theorem retireInsn_of_budget {t : Nat} {w : State} (h : hasBudget t w) : retireInsn t w
    = modTrm t (fun x => { x with
        hpm := aset x.hpm 2 ((aget x.hpm 2 {}).add 1)
        retired := x.retired + if x.run = .handler then 1 else 0 }) (bumpCtr (ctrTrmRetired t) 1 w) := by
  unfold retireInsn
  dsimp only
  rw [bumpHpm_instret]
  have hself : ((bumpCtr (ctrTrmRetired t) 1 w).trmOf t) = w.trmOf t := rfl
  by_cases hh : (w.trmOf t).run = .handler
  · have hlt : ¬ (w.sagParam (w.trmSag t) 0x030B < (w.trmOf t).retired + 1) := by have := h hh; omega
    rw [if_pos (by rw [trmOf_modTrm_self]; exact hh), if_neg (by
      rw [trmOf_modTrm_self, trmOf_modTrm_self]; exact hlt), modTrm_modTrm]
    exact modTrm_congr (by rw [hself, if_pos hh])
  · rw [if_neg (by rw [trmOf_modTrm_self]; exact hh)]
    exact modTrm_congr (by rw [hself, if_neg hh]; rfl)

/-- The register an instruction writes and its pc, in one update. -/
theorem setTrmPc_setTx (t rd v : Nat) (w : State) :
    setTrmPc t ((setTx t rd v w).trmPc t + 4) (setTx t rd v w) = modTrm t (fun x => { x with ctx := x.ctx.retire rd v }) w := by
  unfold setTrmPc setTx State.trmPc Ctx.retire
  by_cases hr : rd = 0
  · rw [if_pos hr]
    exact modTrm_congr (by rw [if_pos hr])
  · rw [if_neg hr, trmOf_modTrm_self, modTrm_modTrm]
    exact modTrm_congr (by rw [if_neg hr])

theorem finishInsn_next {t rd v : Nat} {w : State} (h : hasBudget t w) :
    finishInsn t 4 (.next (setTx t rd v w)) = retireCode t rd v w := by
  have hb : hasBudget t (modTrm t (fun x => { x with ctx := x.ctx.retire rd v }) w) := by
    unfold hasBudget; rw [trmOf_modTrm_self]; exact h
  show retireInsn t (setTrmPc t ((setTx t rd v w).trmPc t + 4) (setTx t rd v w)) = _
  rw [setTrmPc_setTx, retireInsn_of_budget hb, bumpCtr_modTrm, modTrm_modTrm]
  rfl

section
variable {t : Nat} {s : State}

theorem hasBudget_of_kept {w : State} (h : hasBudget t s) (hk : CodeKept t (s.entered t) w) : hasBudget t w := by
  intro hr
  have hrun := hk.run.trans (entered_run t s)
  rw [hk.retired, entered_retired, hk.budget, entered_frame]
  exact h (hrun.symm.trans hr)

/-- An instruction that retires leaves the registers at hand and the counts moved on. -/
theorem inCtx_of_next {rd v : Nat} {w : State} {g : State → State} (hr : canRetire t s)
    (hg : g (s.entered t) = finishInsn t 4 (.next (setTx t rd v w))) (hk : CodeKept t (s.entered t) w) :
    inCtx t g (beginInsn t s) = s.leave t (retireCode t rd v w) := by
  obtain ⟨hruns, hb⟩ := hr
  obtain ⟨-, -, hfw, -, -, -⟩ := trmRuns_iff.mp hruns
  refine inCtx_beginInsn (hg.trans (finishInsn_next (hasBudget_of_kept hb hk))) ?_ ?_
  · rw [trmOf_retireCode]; exact hk.run.trans (entered_run t s)
  · rw [trmOf_retireCode]; exact (hk.fwDown.trans (entered_fwDown t s)).trans hfw

theorem stepInsn_of_next {rd v : Nat} {w : State} {f : State → Res} (hr : canRetire t s)
    (hf : f (s.entered t) = .next (setTx t rd v w)) (hk : CodeKept t (s.entered t) w) :
    stepInsn t 4 f s = s.leave t (retireCode t rd v w) :=
  (if_pos hr.1).trans (inCtx_of_next hr (congrArg (finishInsn t 4) hf) hk)

/-- An instruction that does not complete yet. -/
theorem stepInsn_of_hold {w : State} {f : State → Res} (hr : s.trmRuns t = true) (hf : f (s.entered t) = .hold w)
    (hk : CodeKept t (s.entered t) w) : stepInsn t 4 f s = s.leave t w := by
  obtain ⟨-, -, hfw, -, -, -⟩ := trmRuns_iff.mp hr
  exact (if_pos hr).trans (inCtx_beginInsn (congrArg (finishInsn t 4) hf) (hk.run.trans (entered_run t s))
    ((hk.fwDown.trans (entered_fwDown t s)).trans hfw))

theorem rpc_leave {w : State} (hk : CodeKept t (s.entered t) w) : (s.leave t w).rpc t = s.rpc t := by
  rw [State.rpc, runCtx_leave (hk.run.trans (entered_run t s)), hk.ctx, ← State.trmPc, trmPc_entered]

/-- A command that ends in an instruction retired retires it. -/
theorem retires_of_leave {c : Instr} {rd v : Nat} {w : State} {P : State → Prop} (hd : rd < 32)
    (hk : CodeKept t (s.entered t) w) (hc : Completes c s (s.leave t (retireCode t rd v w)))
    (hp : P (s.leave t (retireCode t rd v w))) : Retires c t rd v s P := by
  have hrun : ((retireCode t rd v w).trmOf t).run = (s.trmOf t).run := by
    rw [trmOf_retireCode]; exact hk.run.trans (entered_run t s)
  have hctx : (s.leave t (retireCode t rd v w)).runCtx t = (s.runCtx t).retire rd v := by
    rw [runCtx_leave hrun, trmOf_retireCode]
    show ((w.trmOf t).ctx).retire rd v = _
    rw [hk.ctx, trmOf_entered]
  refine effect_of hc ⟨fun r => ?_, ?_, fun k hk' => ?_, hp⟩
  · rw [rx_eq_reg, hctx, reg_retire hd, rx_eq_reg]
  · rw [State.rpc, hctx]; rfl
  · rw [trmOf_leave_ne hk', trmOf_retireCode_ne hk', hk.others k hk', trmOf_entered_ne hk']

/-- A command that executes one instruction, which goes on to the next, retires it. -/
theorem retires_of_next {c : Instr} {rd v : Nat} {w : State} {f : State → Res} {P : State → Prop}
    (hc : Completes c s (stepInsn t 4 f s)) (hr : canRetire t s) (hd : rd < 32)
    (hf : f (s.entered t) = .next (setTx t rd v w)) (hk : CodeKept t (s.entered t) w)
    (hp : P (s.leave t (retireCode t rd v w))) : Retires c t rd v s P := by
  rw [stepInsn_of_next hr hf hk] at hc
  exact retires_of_leave hd hk hc hp

end

end Sys2Proof.Machine
end

section
namespace Sys2Proof.Machine

/-! ## Interrupts of the code that runs (R104, R105, R116, R120) -/

/-- Two states that differ at most in Trimmer `t`. -/
def TrmApart (t : Nat) (s w : State) : Prop := w = { s with trm := w.trm } ∧ ∀ k, k ≠ t → w.trmOf k = s.trmOf k

namespace TrmApart

theorem refl (t : Nat) (s : State) : TrmApart t s s := ⟨rfl, fun _ _ => rfl⟩

theorem trans {t : Nat} {s w v : State} (h : TrmApart t s w) (k : TrmApart t w v) : TrmApart t s v := by
  obtain ⟨hw, ho⟩ := h
  obtain ⟨hv, ko⟩ := k
  exact ⟨by rw [hv, hw], fun i hi => (ko i hi).trans (ho i hi)⟩

theorem modTrm (t : Nat) (f : Trm → Trm) (s : State) : TrmApart t s (modTrm t f s) :=
  ⟨rfl, fun _ hk => trmOf_modTrm_ne f s hk⟩

theorem bumpHpm (t c n : Nat) (s : State) : TrmApart t s (bumpHpm t c n s) := by
  obtain ⟨h, l, e⟩ := bumpHpm_eq t c n s
  rw [e]; exact modTrm ..

theorem endStall (t : Nat) (s : State) : TrmApart t s (endStall t s) := by
  have counted : ∀ c n, TrmApart t s (Machine.bumpHpm t c n (Machine.modTrm t (fun x => { x with stall := none }) s)) :=
    fun c n => (modTrm ..).trans (bumpHpm ..)
  unfold Machine.endStall
  dsimp only
  split
  · exact counted ..
  · exact counted ..
  · exact refl ..

theorem program {t : Nat} {s w : State} (h : TrmApart t s w) (g : Nat) : w.program g = s.program g := by rw [h.1]; rfl
theorem trmSag {t : Nat} {s w : State} (h : TrmApart t s w) (k : Nat) : w.trmSag k = s.trmSag k := by rw [h.1]; rfl
theorem free {t : Nat} {s w : State} (h : TrmApart t s w) : w.free = s.free := by rw [h.1]

end TrmApart

/-- A stall that ends touches a counter and the upcalls besides. -/
theorem trmOf_endStall (t : Nat) (s : State) :
    ∃ h l, (endStall t s).trmOf t = { s.trmOf t with stall := none, hpm := h, upcalls := l } := by
  have counted : ∀ c n, ∃ h l, (bumpHpm t c n (modTrm t (fun x => { x with stall := none }) s)).trmOf t
      = { s.trmOf t with stall := none, hpm := h, upcalls := l } := fun c n => by
    obtain ⟨h, l, e⟩ := bumpHpm_eq t c n (modTrm t (fun x => { x with stall := none }) s)
    rw [e, trmOf_modTrm_self, trmOf_modTrm_self]
    exact ⟨h, l, rfl⟩
  unfold endStall
  dsimp only
  split
  · exact counted ..
  · exact counted ..
  next h => exact ⟨_, _, by rw [← h]⟩

/-- A context that enters an upcall of event `e` at `vec`: a0 to a3 as R104 names them for its cause. -/
def Ctx.upcalled (e : TrmEvent) (vec : Nat) (c : Ctx) : Ctx :=
  { c with
    pc := vec
    x :=
      let regs := (c.x.set 10 e.mcause).set 11 e.a1
      let regs := if e.mcause = 17 then regs else regs.set 12 e.a2
      if e.mcause = 18 then regs.set 13 e.a3 else regs
    vpos := 0 }

theorem reg_upcalled (e : TrmEvent) (vec : Nat) (c : Ctx) (r : Nat) : (c.upcalled e vec).reg r
    = if r = 10 then e.mcause else if r = 11 then e.a1 else if r = 12 ∧ e.mcause ≠ 17 then e.a2
      else if r = 13 ∧ e.mcause = 18 then e.a3 else c.reg r := by
  unfold Ctx.reg Ctx.upcalled
  by_cases h17 : e.mcause = 17 <;> by_cases h18 : e.mcause = 18 <;>
    simp only [h17, h18, if_true, if_false, Vector.getElem?_set] <;> grind

theorem enterUpcall_apart (t : Nat) (e : TrmEvent) (s : State) : TrmApart t s (enterUpcall t e s) :=
  (TrmApart.endStall t s).trans ((TrmApart.modTrm ..).trans (TrmApart.modTrm ..))

theorem trmOf_enterUpcall (t : Nat) (e : TrmEvent) (s : State) : ∃ m, (enterUpcall t e s).trmOf t
    = { (endStall t s).trmOf t with
        mcsr := m
        upcalls := ((endStall t s).trmOf t).upcalls.erase e
        run := .upcall
        mainCtx := some (s.trmOf t).ctx
        ctx := (s.trmOf t).ctx.upcalled e (s.trmOf t).xuvec } := by
  obtain ⟨h, l, he⟩ := trmOf_endStall t s
  unfold enterUpcall noteTrap
  dsimp only
  rw [trmOf_modTrm_self, trmOf_modTrm_self, he]
  exact ⟨_, rfl⟩

/-- An event whose sample, where it waits for one, is taken now. -/
def TrmEvent.sampled (pc mark : Nat) (e : TrmEvent) : TrmEvent :=
  if e.since.isSome then { e with a2 := pc, a3 := mark, since := none } else e

theorem sampled_mcause (pc mark : Nat) (e : TrmEvent) : (e.sampled pc mark).mcause = e.mcause := by
  unfold TrmEvent.sampled; split <;> rfl

theorem sampled_of_none {e : TrmEvent} (h : e.since = none) (pc mark : Nat) : e.sampled pc mark = e := by
  simp [TrmEvent.sampled, h]

theorem takeSamples_all (t : Nat) (s : State) : takeSamples t (fun _ => true) s
    = modTrm t (fun x => { x with upcalls := x.upcalls.map (TrmEvent.sampled x.ctx.pc x.xmark) }) s := by
  refine modTrm_congr ?_
  dsimp only
  congr 1
  refine List.map_congr_left fun e _ => ?_
  unfold TrmEvent.sampled
  cases e.since <;> rfl

theorem find_sampled (pc mark c : Nat) (l : List TrmEvent) : (l.map (TrmEvent.sampled pc mark)).find? (fun e => e.mcause = c)
    = (l.find? (fun e => e.mcause = c)).map (TrmEvent.sampled pc mark) := by
  rw [List.find?_map]
  congr 2
  funext e
  simp [sampled_mcause]

section
variable {t : Nat} {s : State}

theorem interruptible_iff {x : Trm} : x.interruptible = true ↔ x.fence.on = false ∧ x.fwDown = false ∧ 2 ≤ x.mode
    ∧ (x.run = .none ∨ x.run = .main) ∧ x.swap = none ∧ x.blocked = false := by
  simp [Trm.interruptible, and_assoc]

/-- Main code that is interrupted: pending overflows take their sample first. -/
theorem interruptTake_of_main (ht : t < s.variant.trimmers) (hi : (s.trmOf t).interruptible = true)
    (hr : (s.trmOf t).run = .main) : interruptTake t s = takeInterrupt t (takeSamples t (fun _ => true) s) := by
  obtain ⟨hf, hd, -⟩ := interruptible_iff.mp hi
  simp [interruptTake, ht, hf, hd, State.inM, hr]

theorem interruptTake_of_firmware (ht : t < s.variant.trimmers) (hi : (s.trmOf t).interruptible = true)
    (hr : (s.trmOf t).run = .none) : interruptTake t s = takeInterrupt t s := by
  obtain ⟨hf, hd, -⟩ := interruptible_iff.mp hi
  simp [interruptTake, ht, hf, hd, State.inM, hr]

theorem takeInterrupt_of_fence {e : TrmEvent} (ht : t < s.variant.trimmers) (hi : (s.trmOf t).interruptible = true)
    (hp : (s.trmOf t).pick 19 = some e) : takeInterrupt t s = passEvent t e s := by
  simp [takeInterrupt, ht, hi, hp]

theorem takeInterrupt_of_sample {e : TrmEvent} (ht : t < s.variant.trimmers) (hi : (s.trmOf t).interruptible = true)
    (h19 : (s.trmOf t).pick 19 = none) (hq : (s.trmOf t).rptq = []) (h17 : (s.trmOf t).pick 17 = none)
    (h18 : (s.trmOf t).pick 18 = some e) : takeInterrupt t s = passEvent t e s := by
  simp [takeInterrupt, ht, hi, h19, hq, h17, h18]

theorem passEvent_of_vector (h : (s.trmOf t).xuvec ≠ 0) (e : TrmEvent) : passEvent t e s = enterUpcall t e s := if_neg h

theorem passEvent_of_none (h : (s.trmOf t).xuvec = 0) (e : TrmEvent) : passEvent t e s
    = modTrm t (fun x => { x with upcalls := x.upcalls.erase e }) (endStall t s) := if_pos h

end

/-- The registers a handler is entered with: those of R116, the others undefined. -/
def handlerRegs (c : RptCall) (sp free : Nat) : Vector Nat 32 :=
  let regs : Vector Nat 32 := Vector.ofFn (fun (i : Fin 32) => if i.val = 0 then 0 else Config.freeNat (free + i.val) % 2 ^ 64)
  ((((regs.set 10 (callProc c.p)).set 11 (callArgLen c.p)).set 12 0x8020).set 13 c.p.src).set 2 sp

/-- A Trimmer that a call has entered the handler of. -/
def Trm.dispatched (c : RptCall) (rest : List RptCall) (sp free : Nat) (x : Trm) : Trm :=
  { x with
    rptq := rest
    run := .handler
    mainCtx := if x.run = .main then some x.ctx else x.mainCtx
    ctx := { x.ctx with pc := rptHandler c.entry, x := handlerRegs c sp free, vpos := 0 }
    call := c
    retired := 0
    mem := memWrite x.mem 0x8000 (fit (rptHeader c.p ++ callArgs c.p) 4096) }

theorem dispatchRpt_eq {t : Nat} {s : State} {c : RptCall} {rest : List RptCall} (h : (s.trmOf t).rptq = c :: rest) :
    dispatchRpt t s = modTrm t (Trm.dispatched c rest (progHandlerSp (s.program (s.trmSag t))) s.free)
      { endStall t s with free := s.free + 32 } := by
  obtain ⟨hp, l, he⟩ := trmOf_endStall t s
  have ha := TrmApart.endStall t s
  have hq : ((endStall t s).trmOf t).rptq = c :: rest := by rw [he]; exact h
  unfold dispatchRpt
  dsimp only
  rw [hq, ha.program, ha.trmSag, ha.free]
  rfl

end Sys2Proof.Machine
end

section
namespace Sys2Proof.Machine

/-! ## SAMPLE.MARK (R115) -/

section
variable {t : Nat} {s : State}

theorem sampleMarkInsn_entered (rs1 : Nat) : sampleMarkInsn t rs1 (s.entered t)
    = .next (setTx t 0 0 (modTrm t (fun x => { x with xmark := s.rx t rs1 % 2 ^ 32 }) (s.entered t))) := by
  rw [sampleMarkInsn, tx_entered]; rfl

theorem xmark_kept (v : Nat) (w : State) : CodeKept t w (modTrm t (fun x => { x with xmark := v }) w) :=
  .modTrm rfl rfl rfl rfl

theorem completes_sampleMark {rs1 : Nat} (ht : t < 128) (h1 : rs1 < 32) (hr : canRetire t s) :
    Completes (.sampleMark t rs1) s
      (s.leave t (retireCode t 0 0 (modTrm t (fun x => { x with xmark := s.rx t rs1 % 2 ^ 32 }) (s.entered t)))) :=
  run_ok (by rw [decide_eq_true ht, decide_eq_true h1]; rfl)
    (stepInsn_of_next hr (sampleMarkInsn_entered rs1) (xmark_kept ..))

/-- What is left of a Trimmer by an instruction that sets `xmark`, in all its parts. -/
theorem trmOf_marked (v : Nat) :
    (s.leave t (retireCode t 0 0 (modTrm t (fun x => { x with xmark := v }) (s.entered t)))).trmOf t
      = { (beginInsn t s).trmOf t with
          xmark := v
          ctx := if s.inM t then (s.trmOf t).ctx else { s.runCtx t with pc := (s.rpc t + 4) % 2 ^ 64 }
          mctx := if s.inM t then { s.runCtx t with pc := (s.rpc t + 4) % 2 ^ 64 } else (s.trmOf t).mctx
          retired := (s.trmOf t).retired + if (s.trmOf t).run = .handler then 1 else 0
          hpm := aset (s.trmOf t).hpm 2 ((aget (s.trmOf t).hpm 2 {}).add 1) } := by
  rw [trmOf_leave, trmOf_retireCode, trmOf_modTrm_self, trmOf_entered, trmOf_beginInsn]
  cases s.inM t <;> rfl

theorem marked_frame (v : Nat) {u : State}
    (hu : u = s.leave t (retireCode t 0 0 (modTrm t (fun x => { x with xmark := v }) (s.entered t)))) :
    u = { s with trm := u.trm, ctr := u.ctr } ∧ (∀ k, k ≠ t → u.trmOf k = s.trmOf k)
      ∧ ∀ a, a ≠ ctrTrmRetired t → aget u.ctr a {} = aget s.ctr a {} := by
  subst hu
  refine ⟨?_, fun k hk => ?_, fun a ha => ?_⟩
  · rw [leave_frame, entered_frame]; rfl
  · rw [trmOf_leave_ne hk, trmOf_retireCode_ne hk, trmOf_modTrm_ne _ _ hk, trmOf_entered_ne hk]
  · rw [leave_ctr, entered_frame]
    exact aget_aset_ne _ _ _ (Ne.symm ha)

/-- A counter overflow that alone is pending is passed on with its sample, of the pc and `xmark` as they are. -/
theorem interruptTake_of_overflow {e : TrmEvent} (hv : t < s.variant.trimmers) (hi : (s.trmOf t).interruptible = true)
    (hr : (s.trmOf t).run = .main) (hx : (s.trmOf t).xuvec ≠ 0) (hq : (s.trmOf t).rptq = [])
    (hu : (s.trmOf t).upcalls = [e]) (hc : e.mcause = 18) : interruptTake t s
      = enterUpcall t (e.sampled (s.trmPc t) (s.trmOf t).xmark) (takeSamples t (fun _ => true) s) := by
  have hx' : ((takeSamples t (fun _ => true) s).trmOf t)
      = { s.trmOf t with upcalls := [e.sampled (s.trmPc t) (s.trmOf t).xmark] } := by
    rw [takeSamples_all, trmOf_modTrm_self, hu]; rfl
  have hc' : (e.sampled (s.trmPc t) (s.trmOf t).xmark).mcause = 18 := (sampled_mcause ..).trans hc
  have hpick : ∀ c, ((takeSamples t (fun _ => true) s).trmOf t).pick c
      = if c = 18 then some (e.sampled (s.trmPc t) (s.trmOf t).xmark) else none := fun c => by
    rw [hx']
    by_cases h : c = 18
    · simp [Trm.pick, hr, hc', h]
    · simp [Trm.pick, hr, hc', h, Ne.symm h]
  rw [interruptTake_of_main hv hi hr, takeInterrupt_of_sample (s := takeSamples t (fun _ => true) s) hv
    (by rw [hx']; exact hi) (hpick 19) (by rw [hx']; exact hq) (hpick 17) (hpick 18),
    passEvent_of_vector (by rw [hx']; exact hx)]

end

/-- Settles O7: the instruction by what retiring it leaves, the sample by what an upcall is entered with. -/
theorem sampleMark : Obligations.SampleMark := by
  intro s t ht
  refine ⟨fun rs1 c h1 hr hc => ?_, fun e hv hf hd hm hr hs hb hx hq hu hc hn => ?_⟩
  · obtain ⟨hframe, hothers, hctr⟩ := marked_frame (t := t) (s := s) (s.rx t rs1 % 2 ^ 32) rfl
    refine effect_of (completes_sampleMark ht h1 hr) ⟨?_, hothers, hctr, hframe⟩
    rw [trmOf_marked, hc]
  · have hi : (s.trmOf t).interruptible = true := interruptible_iff.mpr ⟨hf, hd, hm, .inr hr, hs, hb⟩
    have done : Completes (.interruptTake t) s _ :=
      run_ok (decide_eq_true ht) (interruptTake_of_overflow hv hi hr hx hq hu hc)
    obtain ⟨m, hup⟩ := trmOf_enterUpcall t (e.sampled (s.trmPc t) (s.trmOf t).xmark) (takeSamples t (fun _ => true) s)
    have hsample : e.sampled (s.trmPc t) (s.trmOf t).xmark
        = { e with a2 := s.trmPc t, a3 := (s.trmOf t).xmark, since := none } := if_pos hn
    refine effect_of done ?_
    simp only [tx_eq_reg]
    rw [hup, hsample]
    simp [reg_upcalled, hc]

end Sys2Proof.Machine
end

section
namespace Sys2Proof.Machine

/-! ## Frame slots in local memory (R110 to R112) -/

section
variable {t : Nat} {s : State}

/-- The addresses of local memory (R99). -/
theorem zone_eq_local {a n k : Nat} {w : Bool} : s.zone t a n w = some (.local_ k) ↔
    k = a ∧ a + n ≤ 0x40000 ∧ (s.inM t = true ∨ (if w then 0x9000 else 0x8000) ≤ a) := by
  unfold State.zone
  dsimp only
  by_cases hin : a + n ≤ 0x40000
  · have h0 : decide (0 ≤ a ∧ a + n ≤ 0 + 0x40000) = true := by simp [hin]
    rw [if_pos h0]
    by_cases hm : s.inM t = true ∨ (if w = true then 0x9000 else 0x8000) ≤ a
    · rw [if_pos (by simpa using hm)]
      exact ⟨fun h => ⟨(Zone.local_.inj (Option.some.inj h)).symm, hin, hm⟩, fun ⟨hk, _⟩ => by rw [hk]⟩
    · rw [if_neg (by simpa using hm)]
      simp [hm]
  · have h0 : ¬ decide (0 ≤ a ∧ a + n ≤ 0 + 0x40000) = true := by simp [hin]
    rw [if_neg h0]
    split_ifs <;> simp [hin]

/-- What may be written locally may be read locally. -/
theorem zone_read_of_write {a n k : Nat} (h : s.zone t a n true = some (.local_ k)) :
    s.zone t a n false = some (.local_ k) := by
  obtain ⟨hk, hn, hm⟩ := zone_eq_local.mp h
  refine zone_eq_local.mpr ⟨hk, hn, hm.imp_right fun h9 => ?_⟩
  simp only [if_true, Bool.false_eq_true, if_false] at h9 ⊢
  omega

theorem block_of_local {a n k m : Nat} {w : Bool} (ha : a % n = 0) (h : s.zone t a n w = some (.local_ k)) :
    s.block t a n w m = .ok (memRead (s.trmOf t).mem k n) := by
  simp [State.block, ha, h]

theorem countBlock_of_local {a n k : Nat} (h : s.zone t a n false = some (.local_ k)) : countBlock t a n s = s := by
  simp [countBlock, h]

theorem slot_length (x : Frm) : x.slot.length = 32 := by
  simp [Frm.slot, natLe_length]

/-- A local store keeps all of the Trimmer but the bytes and a reservation on them. -/
theorem storeSlot_of_local {a k : Nat} {x : Frm} (h : s.zone t a 32 true = some (.local_ k)) :
    ∃ r, storeSlot t a x s = modTrm t (fun y => { y with mem := memWrite y.mem k x.slot, resv := r }) s := by
  simp only [storeSlot, trmStore, slot_length, h]
  exact ⟨_, modTrm_congr rfl⟩

/-- `FRM.ADD` of one term to a slot in local memory. -/
theorem frmAddInsn_of_slot {rd rs1 k : Nat} {v : Num} {x : Frm} (ha : s.tx t rs1 % 32 = 0)
    (hz : s.zone t (s.tx t rs1) 32 true = some (.local_ k)) (hx : slotFrame (memRead (s.trmOf t).mem k 32) = some x) :
    ∃ w, frmAddInsn t rd rs1 v s = .next (setTx t rd (b2n (termFrm x.w x.f v).ovf) w) ∧ CodeKept t s w
      ∧ (w.trmOf t).mem = memWrite (s.trmOf t).mem k (x.addTerm v).slot := by
  obtain ⟨r, hw⟩ := storeSlot_of_local (x := x.addTerm v) hz
  have stored : CodeKept t s (storeSlot t (s.tx t rs1) (x.addTerm v) s)
      ∧ ((storeSlot t (s.tx t rs1) (x.addTerm v) s).trmOf t).mem = memWrite (s.trmOf t).mem k (x.addTerm v).slot := by
    rw [hw]; exact ⟨.modTrm rfl rfl rfl rfl, by rw [trmOf_modTrm_self]⟩
  have counted := CodeKept.bumpHpm t 10 1 (storeSlot t (s.tx t rs1) (x.addTerm v) s)
  obtain ⟨h, l, hb⟩ := bumpHpm_eq t 10 1 (storeSlot t (s.tx t rs1) (x.addTerm v) s)
  refine ⟨if (termFrm x.w x.f v).ovf then bumpHpm t 10 1 (storeSlot t (s.tx t rs1) (x.addTerm v) s)
    else storeSlot t (s.tx t rs1) (x.addTerm v) s, ?_, ?_, ?_⟩
  · simp only [frmAddInsn, block_of_local ha hz, hx, countBlock_of_local (zone_read_of_write hz)]
  · split
    · exact stored.1.trans counted
    · exact stored.1
  · split
    · rw [hb, trmOf_modTrm_self]; exact stored.2
    · exact stored.2

theorem frmAddInsn_of_invalid {rd rs1 k : Nat} {v : Num} (ha : s.tx t rs1 % 32 = 0)
    (hz : s.zone t (s.tx t rs1) 32 true = some (.local_ k)) (hx : slotFrame (memRead (s.trmOf t).mem k 32) = none) :
    frmAddInsn t rd rs1 v s = .next (setTx t rd 2 s) := by
  simp only [frmAddInsn, block_of_local ha hz, hx, countBlock_of_local (zone_read_of_write hz)]

section
variable {rd rs1 rs2 k k' : Nat} (ha : s.tx t rs1 % 32 = 0) (hz : s.zone t (s.tx t rs1) 32 true = some (.local_ k))
  (hb : s.tx t rs2 % 32 = 0) (hy : s.zone t (s.tx t rs2) 32 false = some (.local_ k'))
include ha hz hb hy

/-- `FRM.ADD.F` of two slots in local memory. -/
theorem frmAddFInsn_of_slots {x : Frm}
    (hx : combineSlots (memRead (s.trmOf t).mem k 32) (memRead (s.trmOf t).mem k' 32) = some x) :
    frmAddFInsn t rd rs1 rs2 s = .next (setTx t rd 0 (storeSlot t (s.tx t rs1) x s)) := by
  simp only [frmAddFInsn, block_of_local ha hz, block_of_local hb hy, hx, countBlock_of_local (zone_read_of_write hz),
    countBlock_of_local hy]

theorem frmAddFInsn_of_apart
    (hx : combineSlots (memRead (s.trmOf t).mem k 32) (memRead (s.trmOf t).mem k' 32) = none) :
    frmAddFInsn t rd rs1 rs2 s = .next (setTx t rd 2 s) := by
  simp only [frmAddFInsn, block_of_local ha hz, block_of_local hb hy, hx, countBlock_of_local (zone_read_of_write hz),
    countBlock_of_local hy]

end

section
variable {rd rs1 rs2 k : Nat} (ha : s.tx t rs1 % 32 = 0) (hz : s.zone t (s.tx t rs1) 32 false = some (.local_ k))
  (h8 : s.tx t rs2 % 16 < 8) (hi : s.tx t rs2 % 16 ≠ fcMXINT8) (hp : s.tx t rs2 % 16 ≠ fcMXFP4)
include ha hz h8 hi hp

/-- `FRM.FIN` of a slot in local memory. -/
theorem frmFinInsn_of_slot {x : Frm} {o : Nat × Bool} (hx : slotFrame (memRead (s.trmOf t).mem k 32) = some x)
    (ho : o = encodeElem (s.tx t rs2 % 16) x.value) :
    frmFinInsn t rd rs1 rs2 s = .next (setTx t rd (o.1 + b2n o.2 * 2 ^ 62 + b2n x.ovf * 2 ^ 63) s) := by
  subst ho
  simp only [frmFinInsn, hi, hp, Nat.not_le.mpr h8, or_self, if_false, block_of_local ha hz, hx, countBlock_of_local hz]

theorem frmFinInsn_of_invalid (hx : slotFrame (memRead (s.trmOf t).mem k 32) = none) :
    frmFinInsn t rd rs1 rs2 s = .next (setTx t rd (2 ^ 61) s) := by
  simp only [frmFinInsn, hi, hp, Nat.not_le.mpr h8, or_self, if_false, block_of_local ha hz, hx, countBlock_of_local hz]

end

/-- A command that executes an instruction which goes on to the next, with the bytes of local memory it leaves. -/
theorem retires_mem {c : Instr} {rd v : Nat} {w : State} {f : State → Res} {m : List Host.Cell}
    (hc : Completes c s (stepInsn t 4 f s)) (hr : canRetire t s) (hd : rd < 32)
    (hf : f (s.entered t) = .next (setTx t rd v w)) (hk : CodeKept t (s.entered t) w) (hm : (w.trmOf t).mem = m) :
    Retires c t rd v s (fun u => (u.trmOf t).mem = m) :=
  retires_of_next hc hr hd hf hk (by rw [leave_mem, trmOf_retireCode]; exact hm)

end

/-- Settles O20: each instruction by its result on the state it finds. -/
theorem frameInstructions : Obligations.FrameInstructions := by
  intro s t rd rs1 rs2 ht hd h1 h2 hr
  have wf3 : (decide (t < 128) && decide (rd < 32) && decide (rs1 < 32) && decide (rs2 < 32)) = true := by
    rw [decide_eq_true ht, decide_eq_true hd, decide_eq_true h1, decide_eq_true h2]; rfl
  have addS : Completes (.frmAddS t rd rs1 rs2) s _ := run_ok wf3 rfl
  have addH : Completes (.frmAddH t rd rs1 rs2) s _ := run_ok wf3 rfl
  have addI : Completes (.frmAddI t rd rs1 rs2) s _ := run_ok wf3 rfl
  have addF : Completes (.frmAddF t rd rs1 rs2) s _ := run_ok wf3 rfl
  have fin : Completes (.frmFin t rd rs1 rs2) s _ := run_ok wf3 rfl
  have mark : Completes (.sampleMark t rs1) s _ := run_ok (by rw [decide_eq_true ht, decide_eq_true h1]; rfl) rfl
  have htx : ∀ r, s.rx t r = (s.entered t).tx t r := fun r => (tx_entered t r s).symm
  have hzone : ∀ a n w, s.zone t a n w = (s.entered t).zone t a n w := fun a n w => (entered_zone t a n w s).symm
  have hmem : (s.trmOf t).mem = ((s.entered t).trmOf t).mem := (entered_mem t s).symm
  simp only [htx, hzone, hmem]
  refine ⟨?_, fun k x ha hz hx => ?_, fun k k' x ha hz hb hy hx => ?_, fun k ha hz hx => ?_,
    fun k k' ha hz hb hy hx => ?_, fun k x o ha hz h8 hi hp hx ho => ?_, fun k ha hz h7 hx => ?_⟩
  · refine retires_of_next mark hr (by decide) (sampleMarkInsn_entered rs1) (xmark_kept ..) ?_
    rw [leave_xmark, trmOf_retireCode, tx_entered]
    exact congrArg Trm.xmark (trmOf_modTrm_self ..)
  · have add : ∀ {c : Instr} {term : Nat → Num},
        Completes c s (stepInsn t 4 (fun s => frmAddInsn t rd rs1 (term (s.tx t rs2)) s) s) →
        Retires c t rd (b2n (termFrm x.w x.f (term ((s.entered t).tx t rs2))).ovf) s
          (fun u => (u.trmOf t).mem = memWrite ((s.entered t).trmOf t).mem k
            (x.addTerm (term ((s.entered t).tx t rs2))).slot) := fun hc => by
      obtain ⟨w, hf, hk, hm⟩ := frmAddInsn_of_slot ha hz hx
      exact retires_mem hc hr hd hf hk hm
    exact ⟨add addS, add addH, add addI⟩
  · obtain ⟨r, hw⟩ := storeSlot_of_local (x := x) hz
    refine retires_mem addF hr hd (frmAddFInsn_of_slots ha hz hb hy hx) ?_ ?_
    · rw [hw]; exact .modTrm rfl rfl rfl rfl
    · rw [hw, trmOf_modTrm_self]
  · exact retires_mem addS hr hd (frmAddInsn_of_invalid ha hz hx) (.refl ..) rfl
  · exact retires_mem addF hr hd (frmAddFInsn_of_apart ha hz hb hy hx) (.refl ..) rfl
  · exact retires_mem fin hr hd (frmFinInsn_of_slot ha hz h8 hi hp hx ho) (.refl ..) rfl
  · exact retires_mem fin hr hd (frmFinInsn_of_invalid ha hz (by omega) (by rw [h7]; decide) (by rw [h7]; decide) hx)
      (.refl ..) rfl

end Sys2Proof.Machine
end

section
namespace Sys2Proof.Machine

/-! ## Accesses through a fabric window (R102, R103, R342, R343) -/

section
variable {t : Nat} {s : State}

/-- A window request sent: it is outstanding for the Trimmer, and the Trimmer notes what it is for. -/
def winSent (t : Nat) (kind : WinKind) (addr : Nat) (p : Packet) (s : State) : State :=
  issue (.trimmer t) p
    (bumpHpm t 7 1 (modTrm t (fun x => { x with wins := x.wins ++ [{ tag := s.nextTag, kind := kind, addr := addr }] }) s))

theorem winSend_of_open {p : Packet} (hm : s.maySend (.trimmer t) p.dst p.saggar = true)
    (hg : p.opcode = opREAD ∨ s.grainHeld (.trimmer t) p.dst p.offset = false) (kind : WinKind) (addr : Nat) :
    winSend t kind addr p s = some (winSent t kind addr p s) := by
  refine if_neg ?_
  rcases hg with hg | hg <;> simp [hm, hg]

theorem winSend_of_shut {p : Packet} (h : s.maySend (.trimmer t) p.dst p.saggar = false
    ∨ (p.opcode ≠ opREAD ∧ s.grainHeld (.trimmer t) p.dst p.offset = true)) (kind : WinKind) (addr : Nat) :
    winSend t kind addr p s = none := by
  refine if_pos ?_
  rcases h with h | ⟨ho, hg⟩
  · simp [h]
  · simp [ho, hg]

theorem winSent_kept (kind : WinKind) (addr : Nat) (p : Packet) : CodeKept t s (winSent t kind addr p s) :=
  (CodeKept.modTrm rfl rfl rfl rfl).trans ((CodeKept.bumpHpm ..).trans (.issue ..))

theorem winSent_wins (kind : WinKind) (addr : Nat) (p : Packet) : ((winSent t kind addr p s).trmOf t).wins
    = (s.trmOf t).wins ++ [{ tag := s.nextTag, kind := kind, addr := addr }] := by
  obtain ⟨h, l, e⟩ := bumpHpm_eq t 7 1
    (modTrm t (fun x => { x with wins := x.wins ++ [{ tag := s.nextTag, kind := kind, addr := addr }] }) s)
  show ((bumpHpm t 7 1 _).trmOf t).wins = _
  rw [e, trmOf_modTrm_self, trmOf_modTrm_self]

/-- The request that a window access leaves outstanding: its packet, but for what `issue` numbers. -/
theorem winSent_outst (kind : WinKind) (addr : Nat) (p : Packet) : ∃ r : Req,
    (winSent t kind addr p s).fab.outst = s.fab.outst ++ [r] ∧ r.req = .trimmer t
      ∧ ∃ src epoch seq, r.pkt
        = { p with src := src, epoch := epoch, tag := s.nextTag, seq := seq, rty := false, hops := 0 } := by
  obtain ⟨h, l, e⟩ := bumpHpm_eq t 7 1
    (modTrm t (fun x => { x with wins := x.wins ++ [{ tag := s.nextTag, kind := kind, addr := addr }] }) s)
  unfold winSent
  rw [e]
  exact ⟨_, rfl, rfl, _, _, _, rfl⟩

theorem effect_imp {c : Instr} {P Q : State → Prop} (h : Effect c s P) (hi : ∀ u, P u → Q u) : Effect c s Q :=
  h.imp fun u hu => ⟨hu.1, hi u hu.2⟩

/-- Between two states of Trimmer `t` one request more is outstanding: `p` under the next tag, for what `kind` says. -/
def Requested (t : Nat) (kind : WinKind) (addr : Nat) (p : Packet) (s u : State) : Prop :=
  (u.trmOf t).wins = (s.trmOf t).wins ++ [{ tag := s.nextTag, kind := kind, addr := addr }]
    ∧ ∃ r : Req, u.fab.outst = s.fab.outst ++ [r] ∧ r.req = .trimmer t
      ∧ ∃ src epoch seq, r.pkt
        = { p with src := src, epoch := epoch, tag := s.nextTag, seq := seq, rty := false, hops := 0 }

theorem requested_of_sent {kind : WinKind} {addr : Nat} {p : Packet} {u : State}
    (hw : (u.trmOf t).wins = ((winSent t kind addr p (s.entered t)).trmOf t).wins)
    (hf : u.fab = (winSent t kind addr p (s.entered t)).fab) : Requested t kind addr p s u := by
  obtain ⟨r, ho, hq, hp⟩ := winSent_outst (t := t) (s := s.entered t) kind addr p
  rw [entered_nextTag] at hp
  rw [entered_fab] at ho
  refine ⟨?_, r, (congrArg Fab.outst hf).trans ho, hq, hp⟩
  rw [hw, winSent_wins, entered_wins, entered_nextTag]

section
variable {c : Instr} {f : State → Res} (hc : Completes c s (stepInsn t 4 f s))
include hc

/-- A window access for whose answer the code waits. -/
theorem effect_of_sent {kind : WinKind} {addr : Nat} {p : Packet} (hr : s.trmRuns t = true)
    (hf : f (s.entered t) = .hold (winSent t kind addr p (s.entered t))) :
    Effect c s (fun u => Requested t kind addr p s u ∧ u.rpc t = s.rpc t) := by
  have hk := winSent_kept (t := t) (s := s.entered t) kind addr p
  rw [stepInsn_of_hold hr hf hk] at hc
  exact effect_of hc ⟨requested_of_sent (leave_wins ..) (leave_fab ..), rpc_leave hk⟩

/-- A window access that does not wait. -/
theorem retires_of_sent {kind : WinKind} {addr : Nat} {p : Packet} (hr : canRetire t s)
    (hf : f (s.entered t) = .next (winSent t kind addr p (s.entered t))) :
    Retires c t 0 0 s (Requested t kind addr p s) :=
  retires_of_next hc hr (by decide) hf (winSent_kept ..)
    (requested_of_sent (by rw [leave_wins, trmOf_retireCode]; rfl) (leave_fab ..))

/-- An instruction that cannot go yet. -/
theorem completes_of_wait (hr : s.trmRuns t = true) (hf : f (s.entered t) = .hold (s.entered t)) :
    Completes c s (beginInsn t s) := by
  rwa [stepInsn_of_hold hr hf (.refl ..), leave_entered] at hc

end

/-! ### The instructions, on the state they find -/

section
variable {n a addr : Nat}

theorem windowLoadInsn_of_open {rd bytes : Nat} {sg : Bool} (hb : bytes ∈ [1, 2, 4, 8])
    (hz : s.zone t addr bytes false = some (.win n a)) (ha : addr % bytes = 0)
    (hm : s.maySend (.trimmer t) (s.winTarget t n a).1 (s.trmSag t) = true) :
    windowLoadInsn t rd addr bytes sg s = .hold (winSent t (.load rd bytes sg 4) addr
      (winReadPacket (s.trmSag t) (s.winTarget t n a).1 (s.winTarget t n a).2) s) := by
  have hn : ¬ (bytes ≠ 1 ∧ bytes ≠ 2 ∧ bytes ≠ 4 ∧ bytes ≠ 8) := by simp at hb; omega
  have hsend := winSend_of_open (p := winReadPacket (s.trmSag t) (s.winTarget t n a).1 (s.winTarget t n a).2) hm (.inl rfl)
    (.load rd bytes sg 4) addr
  simp [windowLoadInsn, hn, hz, ha, winLoad, hsend]

theorem windowLoadInsn_of_shut {rd bytes : Nat} {sg : Bool} (hb : bytes ∈ [1, 2, 4, 8])
    (hz : s.zone t addr bytes false = some (.win n a)) (ha : addr % bytes = 0)
    (hm : s.maySend (.trimmer t) (s.winTarget t n a).1 (s.trmSag t) = false) :
    windowLoadInsn t rd addr bytes sg s = .hold s := by
  have hn : ¬ (bytes ≠ 1 ∧ bytes ≠ 2 ∧ bytes ≠ 4 ∧ bytes ≠ 8) := by simp at hb; omega
  have hsend := winSend_of_shut (p := winReadPacket (s.trmSag t) (s.winTarget t n a).1 (s.winTarget t n a).2) (.inl hm)
    (.load rd bytes sg 4) addr
  simp [windowLoadInsn, hn, hz, ha, winLoad, hsend]

/-- A store of permitted length, aligned, goes through the window. -/
theorem windowStoreInsn_eq {data : List Byte} (hb : data.length ∈ [1, 2, 4, 8])
    (hz : s.zone t addr data.length true = some (.win n a)) (ha : addr % data.length = 0) :
    windowStoreInsn t addr data s = winStore t n a addr data 4 none s := by
  have hn : ¬ (data.length ≠ 1 ∧ data.length ≠ 2 ∧ data.length ≠ 4 ∧ data.length ≠ 8) := by simp at hb; omega
  simp only [windowStoreInsn, hn, hz, ha, if_false, ne_eq, not_true]

theorem winStore_of_word {data : List Byte} (h8 : data.length = 8)
    (hm : s.maySend (.trimmer t) (s.winTarget t n a).1 (s.trmSag t) = true)
    (hg : s.grainHeld (.trimmer t) (s.winTarget t n a).1 (s.winTarget t n a).2 = false) :
    winStore t n a addr data 4 none s = .next (winSent t .store addr
      (winWritePacket (s.trmSag t) (s.winTarget t n a).1 (s.winTarget t n a).2 data) s) := by
  have hsend := winSend_of_open (p := winWritePacket (s.trmSag t) (s.winTarget t n a).1 (s.winTarget t n a).2 data) hm
    (.inr hg) .store addr
  simp [winStore, h8, hsend]

theorem winStore_of_narrow {data : List Byte} (h8 : data.length ≠ 8)
    (hm : s.maySend (.trimmer t) (s.winTarget t n a).1 (s.trmSag t) = true) :
    winStore t n a addr data 4 none s = .hold (winSent t (.fill data 4 none) addr
      (winReadPacket (s.trmSag t) (s.winTarget t n a).1 (s.winTarget t n a).2) s) := by
  have hsend := winSend_of_open (p := winReadPacket (s.trmSag t) (s.winTarget t n a).1 (s.winTarget t n a).2) hm (.inl rfl)
    (.fill data 4 none) addr
  simp [winStore, h8, hsend]

theorem winStore_of_shut {data : List Byte} (h : s.maySend (.trimmer t) (s.winTarget t n a).1 (s.trmSag t) = false
      ∨ (data.length = 8 ∧ s.grainHeld (.trimmer t) (s.winTarget t n a).1 (s.winTarget t n a).2 = true)) :
    winStore t n a addr data 4 none s = .hold s := by
  by_cases h8 : data.length = 8
  · have hsend := winSend_of_shut (p := winWritePacket (s.trmSag t) (s.winTarget t n a).1 (s.winTarget t n a).2 data)
      (h.imp_right fun hg => ⟨(by decide : opWRITE ≠ opREAD), hg.2⟩) .store addr
    simp [winStore, h8, hsend]
  · have hm := h.resolve_right fun hg => h8 hg.1
    have hsend := winSend_of_shut (p := winReadPacket (s.trmSag t) (s.winTarget t n a).1 (s.winTarget t n a).2) (.inl hm)
      (.fill data 4 none) addr
    simp [winStore, h8, hsend]

/-- The request of a window's atomic. -/
def winAmoPacket (g dst op off v : Nat) : Packet :=
  { dst := dst, opcode := op, saggar := g, offset := off, cls := 1, length := 8, payload := natLe v 8 }

theorem amoOpcode_ne_read (op : AmoOp) : amoOpcode op ≠ opREAD := by cases op <;> decide

theorem windowAmoInsn_eq {rd v : Nat} {op : AmoOp} (hz : s.zone t addr 8 true = some (.win n a)) (ha : addr % 8 = 0) :
    windowAmoInsn t rd op addr v s = winAmo t rd n a addr (amoOpcode op) v 4 s := by
  simp only [windowAmoInsn, hz, ha, if_false, ne_eq, not_true]

theorem windowAmoInsn_of_open {rd v : Nat} {op : AmoOp} (hz : s.zone t addr 8 true = some (.win n a)) (ha : addr % 8 = 0)
    (hm : s.maySend (.trimmer t) (s.winTarget t n a).1 (s.trmSag t) = true)
    (hg : s.grainHeld (.trimmer t) (s.winTarget t n a).1 (s.winTarget t n a).2 = false) :
    windowAmoInsn t rd op addr v s = .hold (winSent t (.amo rd 4) addr
      (winAmoPacket (s.trmSag t) (s.winTarget t n a).1 (amoOpcode op) (s.winTarget t n a).2 v) s) := by
  have hsend := winSend_of_open (p := winAmoPacket (s.trmSag t) (s.winTarget t n a).1 (amoOpcode op) (s.winTarget t n a).2 v)
    hm (.inr hg) (.amo rd 4) addr
  rw [windowAmoInsn_eq hz ha]
  unfold winAmo
  rw [winAmoPacket] at hsend ⊢
  simp only [hsend]

theorem windowAmoInsn_of_shut {rd v : Nat} {op : AmoOp} (hz : s.zone t addr 8 true = some (.win n a)) (ha : addr % 8 = 0)
    (h : s.maySend (.trimmer t) (s.winTarget t n a).1 (s.trmSag t) = false
      ∨ s.grainHeld (.trimmer t) (s.winTarget t n a).1 (s.winTarget t n a).2 = true) :
    windowAmoInsn t rd op addr v s = .hold s := by
  have hsend := winSend_of_shut (p := winAmoPacket (s.trmSag t) (s.winTarget t n a).1 (amoOpcode op) (s.winTarget t n a).2 v)
    (h.imp_right fun hg => ⟨amoOpcode_ne_read op, hg⟩) (.amo rd 4) addr
  rw [windowAmoInsn_eq hz ha]
  unfold winAmo
  rw [winAmoPacket] at hsend
  simp only [hsend]

end

/-! ### A request sent again -/

/-- A request whose backoff ends goes out as it was, under the epoch in force (R343). -/
theorem windowRetry_of_backoff {tag b : Nat} {r : Req}
    (h : s.fab.outst.find? (fun r => r.req = .trimmer t ∧ r.pkt.tag = tag ∧ r.backoff.isSome) = some r)
    (hn : s.fab.outst.find? (fun r => r.pkt.tag = tag ∧ r.backoff.isSome) = some r) (hb : r.backoff = some b) :
    ∃ o, windowRetry t tag s = send { r.pkt with epoch := s.img.epoch, rty := false }
      { carry b s with fab := { s.fab with outst := o } } := by
  simp only [windowRetry, h, nackBackoff, hn, hb, resend, Option.getD_some, carry_img, carry_fab]
  exact ⟨_, rfl⟩

theorem send_of_short {p : Packet} (h : p.payload.length ≤ 512) (u : State) :
    send p u = { u with fab := { u.fab with tx := u.fab.tx ++ [stampPkt { p with lc := u.arch.lc }] } } := by
  have hp : packetsOf { p with lc := u.arch.lc } = [{ p with lc := u.arch.lc }] := if_pos h
  rw [send, hp]; rfl

end

/-- Settles O22: each access by what its instruction makes of the state it finds, a backoff by the packet it sends. -/
theorem windowInstructions : Obligations.WindowInstructions := by
  intro s t rd addr n a d ht hd hadd heq
  subst heq
  have wf : (decide (t < 128) && decide (rd < 32) && decide (addr < 2 ^ 64)) = true := by
    rw [decide_eq_true ht, decide_eq_true hd, decide_eq_true hadd]; rfl
  refine ⟨fun bytes sg hb hr hz ha => ?_, fun data hb hr hz ha => ?_, fun op v hr hz ha => ?_,
    fun tag r b htag h hn hbk hlen => ?_⟩
  · have done : Completes (.windowLoad t rd addr bytes sg) s (stepInsn t 4 (windowLoadInsn t rd addr bytes sg) s) :=
      run_ok (by rw [wf, decide_eq_true (show bytes < 9 by simp at hb; omega)]; rfl) rfl
    rw [← entered_zone t] at hz
    refine ⟨fun hm => ?_, fun hm => ?_⟩
    · have hi := windowLoadInsn_of_open (rd := rd) (sg := sg) hb hz ha (by simpa using hm)
      refine effect_imp (effect_of_sent done hr.1 hi) fun u hu => ?_
      obtain ⟨⟨hw, r, ho, hq, src, epoch, seq, hp⟩, hpc⟩ := hu
      exact ⟨hw, ⟨r, ho, hq, by simp [hp, winReadPacket]⟩, hpc⟩
    · exact completes_of_wait done hr.1 (windowLoadInsn_of_shut hb hz ha (by simpa using hm))
  · have done : Completes (.windowStore t addr data) s (stepInsn t 4 (windowStoreInsn t addr data) s) :=
      run_ok (by rw [decide_eq_true ht, decide_eq_true hadd]; rfl) rfl
    rw [← entered_zone t] at hz
    have hi := windowStoreInsn_eq hb hz ha
    refine ⟨fun h8 hm hg => ?_, fun h8 hm => ?_, fun h => ?_⟩
    · have hs := hi.trans (winStore_of_word h8 (by simpa using hm) (by simpa using hg))
      refine effect_imp (retires_of_sent done hr hs) fun u hu => ?_
      obtain ⟨hx, hpc, hk, hw, r, ho, hq, src, epoch, seq, hp⟩ := hu
      exact ⟨hx, hpc, hk, hw, r, ho, hq, by simp [hp, winWritePacket]⟩
    · have hs := hi.trans (winStore_of_narrow h8 (by simpa using hm))
      refine effect_imp (effect_of_sent done hr.1 hs) fun u hu => ?_
      obtain ⟨⟨hw, r, ho, hq, src, epoch, seq, hp⟩, hpc⟩ := hu
      exact ⟨hw, ⟨r, ho, hq, by simp [hp, winReadPacket]⟩, hpc⟩
    · exact completes_of_wait done hr.1 (hi.trans (winStore_of_shut (by simpa using h)))
  · have done : Completes (.windowAmo t rd op addr v) s (stepInsn t 4 (windowAmoInsn t rd op addr v.toNat) s) :=
      run_ok wf rfl
    rw [← entered_zone t] at hz
    refine ⟨fun hm hg => ?_, fun h => ?_⟩
    · have hi := windowAmoInsn_of_open (rd := rd) (v := v.toNat) (op := op) hz ha (by simpa using hm) (by simpa using hg)
      refine effect_imp (effect_of_sent done hr.1 hi) fun u hu => ?_
      obtain ⟨⟨hw, r, ho, hq, src, epoch, seq, hp⟩, hpc⟩ := hu
      exact ⟨hw, ⟨r, ho, hq, by simp [hp, winAmoPacket]⟩, hpc⟩
    · exact completes_of_wait done hr.1 (windowAmoInsn_of_shut hz ha (by simpa using h))
  · obtain ⟨o, he⟩ := windowRetry_of_backoff h hn hbk
    have done : Completes (.windowRetryBackoff t tag) s _ :=
      run_ok (by rw [decide_eq_true ht, decide_eq_true htag]; rfl) (he.trans
        (send_of_short (p := { r.pkt with epoch := s.img.epoch, rty := false }) hlen _))
    have hfound := List.find?_some hn
    have htag' : r.pkt.tag = tag := (of_decide_eq_true hfound).1
    refine effect_of done ⟨carry_now b s, ⟨_, rfl, rfl, htag', rfl, rfl, rfl⟩, rfl⟩

end Sys2Proof.Machine
end

section
namespace Sys2Proof.Machine

/-! ## Fetch and decoding (R95 to R99) -/

theorem leNat_natLe (v n : Nat) : leNat (natLe v n) = v % 256 ^ n := by
  induction n generalizing v with
  | zero => simp [natLe, leNat, Nat.mod_one]
  | succ n ih =>
    simp only [natLe, leNat, ih, BitVec.toNat_ofNat]
    show v % 256 + 256 * (v / 256 % 256 ^ n) = v % 256 ^ (n + 1)
    rw [Nat.pow_succ', Nat.mod_mul]

theorem natLe_take (v : Nat) {k n : Nat} (h : k ≤ n) : (natLe v n).take k = natLe v k := by
  induction k generalizing v n with
  | zero => simp [natLe]
  | succ k ih =>
    obtain ⟨n, rfl⟩ : ∃ m, n = m + 1 := ⟨n - 1, by omega⟩
    simp only [natLe, List.take_succ_cons, ih (v / 256) (Nat.le_of_succ_le_succ h)]

theorem memRead_take (m : List Host.Cell) (a : Nat) {k n : Nat} (h : k ≤ n) : (memRead m a n).take k = memRead m a k := by
  simp [memRead, ← List.map_take, List.take_range, Nat.min_eq_left h]

/-- A memory that holds a word of 4 bytes holds its low half first. -/
theorem leNat_memRead {m : List Host.Cell} {a w : Nat} (h : memRead m a 4 = natLe w 4) (hw : w < 2 ^ 32) :
    leNat (memRead m a 2) = w % 2 ^ 16 ∧ leNat (memRead m a 4) = w := by
  constructor
  · rw [← memRead_take m a (show 2 ≤ 4 by decide), h, natLe_take _ (by decide), leNat_natLe]; rfl
  · rw [h, leNat_natLe]; exact Nat.mod_eq_of_lt (by simpa using hw)

section
variable {t : Nat} {s : State}

/-- A word of 4 bytes that user code finds at its pc. -/
theorem fetch_user {pc w : Nat} (hm : s.inM t = false) (hl : 0x9000 ≤ pc) (hu : pc + 4 ≤ 0x40000)
    (h : memRead (s.trmOf t).mem pc 4 = natLe w 4) (hw : w < 2 ^ 32) :
    s.fetch t pc 2 = some (w % 2 ^ 16) ∧ s.fetch t pc 4 = some w := by
  obtain ⟨h2, h4⟩ := leNat_memRead h hw
  have in2 : 0x9000 ≤ pc ∧ pc + 2 ≤ 0x40000 := by omega
  simp [State.fetch, hm, in2, hu, h2, h4]

/-- A word of 4 bytes that machine firmware finds at its pc. -/
theorem fetch_firmware {k w : Nat} (hm : s.inM t = true) (hu : k + 4 ≤ 0x10000)
    (h : memRead (s.trmOf t).fwMem k 4 = natLe w 4) (hw : w < 2 ^ 32) (h0 : w ≠ 0) :
    s.fetch t (0x8000000 + k) 2 = some (w % 2 ^ 16) ∧ s.fetch t (0x8000000 + k) 4 = some w := by
  obtain ⟨h2, h4⟩ := leNat_memRead h hw
  have hne : (s.trmOf t).fwMem ≠ [] := fun e => h0 (by
    rw [e] at h4; exact h4.symm.trans rfl)
  have in2 : 0x8000000 ≤ 0x8000000 + k ∧ 0x8000000 + k + 2 ≤ 0x8010000 := by omega
  have in4 : 0x8000000 ≤ 0x8000000 + k ∧ 0x8000000 + k + 4 ≤ 0x8010000 := by omega
  simp only [State.fetch, hm, if_true, in2, in4, and_self, hne, if_false, Nat.add_sub_cancel_left, h2, h4]

theorem fetchInsn_of_word {w : Nat} (h2 : s.fetch t (s.trmPc t) 2 = some (w % 2 ^ 16))
    (h4 : s.fetch t (s.trmPc t) 4 = some w) (h3 : w % 4 = 3) : fetchInsn t s = finishInsn t 4 (execWord t w 4 s) := by
  have h : ¬ (w % 2 ^ 16 % 4 ≠ 3) := by omega
  simp only [fetchInsn, h2, h, if_false, h4]

/-- The word of `ADDI`. -/
def addiWord (rd rs1 imm : Nat) : Nat := 0x13 + rd * 2 ^ 7 + rs1 * 2 ^ 15 + imm * 2 ^ 20

theorem addiWord_fields {rd rs1 imm : Nat} (hd : rd < 32) (h1 : rs1 < 32) (hi : imm < 4096) :
    addiWord rd rs1 imm < 2 ^ 32 ∧ addiWord rd rs1 imm % 128 = 0x13 ∧ bits (addiWord rd rs1 imm) 7 5 = rd
      ∧ bits (addiWord rd rs1 imm) 12 3 = 0 ∧ bits (addiWord rd rs1 imm) 15 5 = rs1
      ∧ addiWord rd rs1 imm / 2 ^ 20 = imm := by
  unfold addiWord bits
  omega

/-- Addition on 64 bits of a number and a signed one. -/
theorem aluOp_add (a : Nat) (i : Int) : aluOp 64 0 false a (unsignedW 64 i) = unsignedW 64 (a + i) := by
  simp only [aluOp, unsignedW, Bool.false_eq_true, if_false]
  norm_num
  omega

theorem execWord_addi {rd rs1 imm : Nat} (hd : rd < 32) (h1 : rs1 < 32) (hi : imm < 4096) :
    execWord t (addiWord rd rs1 imm) 4 s
      = .next (setTx t rd (unsignedW 64 ((s.tx t rs1 : Int) + signedW 12 imm)) s) := by
  obtain ⟨-, hop, hrd, hf3, hrs, himm⟩ := addiWord_fields hd h1 hi
  simp only [execWord, hop, hrd, hf3, hrs, himm, sx]
  simp [aluOp_add]

theorem execWord_illegal : execWord t 0xFFFFFFFF 4 s = .trap 2 0xFFFFFFFF s := by
  simp [execWord]

/-- An instruction word of user code at the pc, as it begins. -/
theorem fetchInsn_user {w : Nat} (hrun : (s.trmOf t).run ≠ .none) (hl : 0x9000 ≤ s.rpc t) (hu : s.rpc t + 4 ≤ 0x40000)
    (h : memRead (s.trmOf t).mem (s.rpc t) 4 = natLe w 4) (hw : w < 2 ^ 32) (h3 : w % 4 = 3) :
    fetchInsn t (s.entered t) = finishInsn t 4 (execWord t w 4 (s.entered t)) := by
  have hm : (s.entered t).inM t = false := by
    rw [entered_inM]; exact Bool.eq_false_iff.mpr fun e => hrun (inM_iff.mp e)
  rw [← trmPc_entered] at hl hu h
  rw [← entered_mem] at h
  obtain ⟨h2, h4⟩ := fetch_user hm hl hu h hw
  exact fetchInsn_of_word h2 h4 h3

theorem fetchInsn_firmware {k w : Nat} (hrun : (s.trmOf t).run = .none) (hpc : s.rpc t = 0x8000000 + k)
    (hu : k + 4 ≤ 0x10000) (h : memRead (s.trmOf t).fwMem k 4 = natLe w 4) (hw : w < 2 ^ 32) (h3 : w % 4 = 3) :
    fetchInsn t (s.entered t) = finishInsn t 4 (execWord t w 4 (s.entered t)) := by
  have hm : (s.entered t).inM t = true := by rw [entered_inM]; exact inM_iff.mpr hrun
  rw [← entered_fwMem] at h
  obtain ⟨h2, h4⟩ := fetch_firmware hm hu h hw (by omega)
  rw [← hpc, ← trmPc_entered] at h2 h4
  exact fetchInsn_of_word h2 h4 h3

/-- A word of `ADDI` at the pc is executed, and retires. -/
theorem trimmerInstruction_addi {rd rs1 imm : Nat} (hr : canRetire t s) (hd : rd < 32) (h1 : rs1 < 32) (hi : imm < 4096)
    (hf : fetchInsn t (s.entered t) = finishInsn t 4 (execWord t (addiWord rd rs1 imm) 4 (s.entered t))) :
    trimmerInstruction t s
      = s.leave t (retireCode t rd (unsignedW 64 ((s.rx t rs1 : Int) + signedW 12 imm)) (s.entered t)) := by
  refine (if_pos hr.1).trans (inCtx_of_next hr (hf.trans ?_) (.refl ..))
  rw [execWord_addi hd h1 hi, tx_entered]

/-! ## Faults of the running code (R117, R118, R124) -/

theorem bumpSat_apart (f : Nat × Nat) (s : State) : LogApart s (bumpSat f s) := by
  unfold bumpSat
  dsimp only
  split
  · exact logApart_trans (t := bumpSatRaw f s) rfl (occur_apart ..)
  · rfl

@[simp] theorem bumpSat_trm (f : Nat × Nat) (s : State) : (bumpSat f s).trm = s.trm := by rw [bumpSat_apart f s]
@[simp] theorem bumpSat_trms (f : Nat × Nat) (s : State) : (bumpSat f s).trms = s.trms := by rw [bumpSat_apart f s]
@[simp] theorem bumpSat_fab (f : Nat × Nat) (s : State) : (bumpSat f s).fab = s.fab := by rw [bumpSat_apart f s]
@[simp] theorem trmOf_bumpSat (f : Nat × Nat) (s : State) (k : Nat) : (bumpSat f s).trmOf k = s.trmOf k := by
  rw [State.trmOf, bumpSat_trm]; rfl

/-- Main code that a fault has halted (R118). -/
def Trm.halted (x : Trm) : Trm := { x with run := .none, mainCtx := none, mode := 3, stall := none }

theorem haltMain_of_no_swap (h : s.trms.swapDeadline = []) :
    haltMain t s = modTrm t Trm.halted (bumpSat (satTrmUserFault t) s) :=
  trySwap_of_no_swap ((congrArg Trms.swapDeadline (bumpSat_trms ..)).trans h)

theorem trapTrm_of_main {c v : Nat} (hr : (s.trmOf t).run = .main) :
    trapTrm t c v s = haltMain t (noteTrap t (s.trmPc t) c v s) := by
  have h : ((noteTrap t (s.trmPc t) c v s).trmOf t).run = .main := by rw [noteTrap, trmOf_modTrm_self]; exact hr
  unfold trapTrm
  dsimp only
  rw [h]

theorem entered_of_user (hr : (s.trmOf t).run ≠ .none) : s.entered t = beginInsn t s :=
  if_neg fun e => hr (inM_iff.mp e)

theorem inCtx_of_user {g : State → State} (hr : (s.trmOf t).run ≠ .none) : inCtx t g s = g s :=
  if_neg fun e => hr (inM_iff.mp e)

/-- An illegal word of the main code halts it. -/
theorem trimmerInstruction_illegal (hr : s.trmRuns t = true) (hm : (s.trmOf t).run = .main)
    (hf : fetchInsn t (s.entered t) = finishInsn t 4 (execWord t 0xFFFFFFFF 4 (s.entered t)))
    (hs : s.trms.swapDeadline = []) :
    ((trimmerInstruction t s).trmOf t).mode = 3 ∧ ((trimmerInstruction t s).trmOf t).run = .none := by
  have hne : (s.trmOf t).run ≠ .none := by rw [hm]; decide
  have hb : ((beginInsn t s).trmOf t).run = (s.trmOf t).run := by rw [trmOf_beginInsn]
  have he : trimmerInstruction t s = trapTrm t 2 0xFFFFFFFF (s.entered t) := by
    refine (if_pos hr).trans ((inCtx_of_user (hb ▸ hne)).trans ?_)
    rw [← entered_of_user hne, hf, execWord_illegal]
    rfl
  rw [he, trapTrm_of_main ((entered_run t s).trans hm), haltMain_of_no_swap (by
    show (s.entered t).trms.swapDeadline = []
    rw [entered_trms]; exact hs), trmOf_modTrm_self]
  exact ⟨rfl, rfl⟩

end

/-! ## How interrupts enter and leave user code (R104, R105, R116) -/

section
variable {t : Nat} {s : State}

/-- A fence event that comes first, and waits for no sample. -/
theorem interruptTake_of_fence {e : TrmEvent} (hv : t < s.variant.trimmers) (hi : (s.trmOf t).interruptible = true)
    (hr : (s.trmOf t).run = .main) (hf : (s.trmOf t).upcalls.find? (fun e => e.mcause = 19) = some e)
    (hn : e.since = none) :
    interruptTake t s = passEvent t e (takeSamples t (fun _ => true) s) := by
  have hx : (takeSamples t (fun _ => true) s).trmOf t = { s.trmOf t with
      upcalls := (s.trmOf t).upcalls.map (TrmEvent.sampled (s.trmPc t) (s.trmOf t).xmark) } := by
    rw [takeSamples_all, trmOf_modTrm_self]; rfl
  rw [interruptTake_of_main hv hi hr]
  refine takeInterrupt_of_fence hv (by rw [hx]; exact hi) ?_
  rw [hx]
  simp only [Trm.pick, hr, decide_true, Bool.or_true, if_true, find_sampled, hf, Option.map_some, sampled_of_none hn]

end

end Sys2Proof.Machine
end

section
namespace Sys2Proof.Machine

section
variable {t : Nat} {s : State}

theorem takeSamples_apart (due : Nat → Bool) : TrmApart t s (takeSamples t due s) := .modTrm ..

/-- What a fence event leaves that enters the upcall vector. -/
theorem enterUpcall_fence {e : TrmEvent} (hc : e.mcause = 19) {σ u : State} (hσ : σ = takeSamples t (fun _ => true) s)
    (hu : u = enterUpcall t e σ) : (u.trmOf t).run = .upcall ∧ u.trmPc t = (s.trmOf t).xuvec
      ∧ (u.trmOf t).mainCtx = some (s.trmOf t).ctx ∧ u.tx t 10 = 19 ∧ u.tx t 11 = e.a1 ∧ u.tx t 12 = e.a2
      ∧ (∀ r, r ≠ 10 → r ≠ 11 → r ≠ 12 → u.tx t r = s.tx t r)
      ∧ (u.trmOf t).upcalls = ((endStall t σ).trmOf t).upcalls.erase e
      ∧ (u.trmOf t).stall = none ∧ (∀ k, k ≠ t → u.trmOf k = s.trmOf k) ∧ u = { s with trm := u.trm } := by
  obtain ⟨hframe, hothers⟩ : TrmApart t s u := by
    rw [hu, hσ]; exact (takeSamples_apart _).trans (enterUpcall_apart ..)
  obtain ⟨m, hup⟩ := trmOf_enterUpcall t e σ
  obtain ⟨h, l, hend⟩ := trmOf_endStall t σ
  have hctx : (σ.trmOf t).ctx = (s.trmOf t).ctx := by rw [hσ, takeSamples_all, trmOf_modTrm_self]
  have hvec : (σ.trmOf t).xuvec = (s.trmOf t).xuvec := by rw [hσ, takeSamples_all, trmOf_modTrm_self]
  rw [← hu, hctx, hvec] at hup
  have hreg : ∀ r, u.tx t r = ((s.trmOf t).ctx.upcalled e (s.trmOf t).xuvec).reg r := fun r => by rw [tx_eq_reg, hup]
  refine ⟨by rw [hup], by rw [State.trmPc, hup]; rfl, by rw [hup], ?_, ?_, ?_, fun r h10 h11 h12 => ?_, by rw [hup],
    by rw [hup, hend], hothers, hframe⟩
  · rw [hreg, reg_upcalled, if_pos rfl, hc]
  · rw [hreg, reg_upcalled]; rfl
  · rw [hreg, reg_upcalled, hc]; rfl
  · rw [hreg, reg_upcalled, hc, tx_eq_reg]
    simp [h10, h11, h12]

theorem handlerRegs_reg (c : RptCall) (sp free : Nat) {x : Ctx} (h : x.x = handlerRegs c sp free) :
    x.reg 10 = callProc c.p ∧ x.reg 11 = callArgLen c.p ∧ x.reg 12 = 0x8020 ∧ x.reg 13 = c.p.src ∧ x.reg 2 = sp := by
  simp [Ctx.reg, h, handlerRegs]

theorem dispatched_mem (c : RptCall) (rest : List RptCall) (sp free : Nat) (x : Trm) :
    (x.dispatched c rest sp free).mem = memWrite x.mem 0x8000 (fit (rptHeader c.p ++ callArgs c.p) 4096) := by
  simp only [Trm.dispatched]

/-- What a call leaves that enters its handler, from a Trimmer whose samples and trap registers alone have moved. -/
theorem dispatchRpt_spec {c : RptCall} {rest : List RptCall} {σ u : State} (hσ : TrmApart t s σ)
    (hx : ∃ l m, σ.trmOf t = { s.trmOf t with upcalls := l, mcsr := m }) (hq : (s.trmOf t).rptq = c :: rest)
    (hu : u = dispatchRpt t σ) : (u.trmOf t).run = .handler ∧ u.trmPc t = rptHandler c.entry
      ∧ ((s.trmOf t).run = .main → (u.trmOf t).mainCtx = some (s.trmOf t).ctx)
      ∧ ((s.trmOf t).run = .none → (u.trmOf t).mainCtx = (s.trmOf t).mainCtx)
      ∧ (u.trmOf t).rptq = rest ∧ (u.trmOf t).call = c ∧ (u.trmOf t).retired = 0
      ∧ u.tx t 10 = callProc c.p ∧ u.tx t 11 = callArgLen c.p ∧ u.tx t 12 = 0x8020 ∧ u.tx t 13 = c.p.src
      ∧ u.tx t 2 = progHandlerSp (s.program (s.trmSag t))
      ∧ (u.trmOf t).mem = memWrite (s.trmOf t).mem 0x8000 (fit (rptHeader c.p ++ callArgs c.p) 4096)
      ∧ u = { s with trm := u.trm, free := s.free + 32 } := by
  obtain ⟨l, m, hx⟩ := hx
  obtain ⟨h, l', hend⟩ := trmOf_endStall t σ
  have he := hu.trans (dispatchRpt_eq (s := σ) (by rw [hx]; exact hq))
  rw [hσ.program, hσ.trmSag, hσ.free] at he
  have hself : u.trmOf t = Trm.dispatched c rest (progHandlerSp (s.program (s.trmSag t))) s.free
      ((endStall t σ).trmOf t) := by rw [he, trmOf_modTrm_self]; rfl
  rw [hend, hx] at hself
  obtain ⟨h10, h11, h12, h13, h2⟩ := handlerRegs_reg c (progHandlerSp (s.program (s.trmSag t))) s.free
    (x := (u.trmOf t).ctx) (by rw [hself]; rfl)
  refine ⟨by rw [hself]; rfl, by rw [State.trmPc, hself]; rfl, fun hr => ?_, fun hr => ?_, by rw [hself]; rfl,
    by rw [hself]; rfl, by rw [hself]; rfl, h10, h11, h12, h13, h2, by rw [hself, dispatched_mem], ?_⟩
  · rw [hself]; exact if_pos hr
  · rw [hself]; exact if_neg (by show ¬ (s.trmOf t).run = .main; rw [hr]; decide)
  · rw [he, ((hσ.trans (TrmApart.endStall t σ))).1]; rfl

/-- A call enters its handler: with no fence event that can be passed on, the oldest comes first. -/
theorem interruptTake_of_call {c : RptCall} {rest : List RptCall} (hv : t < s.variant.trimmers)
    (hi : (s.trmOf t).interruptible = true) (hq : (s.trmOf t).rptq = c :: rest)
    (hr : ((s.trmOf t).run = .main ∧ ∀ e ∈ (s.trmOf t).upcalls, e.mcause ≠ 19)
      ∨ ((s.trmOf t).run = .none ∧ (s.trmOf t).xuvec ≠ 0)) :
    ∃ σ, TrmApart t s σ ∧ (∃ l m, σ.trmOf t = { s.trmOf t with upcalls := l, mcsr := m })
      ∧ interruptTake t s = dispatchRpt t σ := by
  have hne : (s.trmOf t).rptq ≠ [] := hq ▸ List.cons_ne_nil c rest
  rcases hr with ⟨hm, hev⟩ | ⟨hm, hvec⟩
  · have hx : (takeSamples t (fun _ => true) s).trmOf t = { s.trmOf t with
        upcalls := (s.trmOf t).upcalls.map (TrmEvent.sampled (s.trmPc t) (s.trmOf t).xmark) } := by
      rw [takeSamples_all, trmOf_modTrm_self]; rfl
    have h19 : (s.trmOf t).upcalls.find? (fun e => e.mcause = 19) = none :=
      List.find?_eq_none.mpr fun e he => by simpa using hev e he
    refine ⟨_, (takeSamples_apart _).trans (.modTrm ..), ?_, (interruptTake_of_main hv hi hm).trans
      (takeInterrupt_of_call (s := takeSamples t (fun _ => true) s) hv (by rw [hx]; exact hi) ?_ (by rw [hx]; exact hne))⟩
    · rw [trmOf_modTrm_self, hx]; exact ⟨_, _, rfl⟩
    · rw [hx]
      simp only [Trm.pick, hm, decide_true, Bool.or_true, if_true, find_sampled, h19, Option.map_none]
  · have hpick : (s.trmOf t).pick 19 = none := by simp [Trm.pick, hm, hvec]
    refine ⟨_, .modTrm .., ?_, (interruptTake_of_firmware hv hi hm).trans (takeInterrupt_of_call hv hi hpick hne)⟩
    rw [trmOf_modTrm_self]; exact ⟨_, _, rfl⟩

/-- The code that a handler or an upcall interrupted runs on (R105, R113). -/
theorem resumeMain_of_main {c : Ctx} (hs : (s.trmOf t).swap = none) (hc : (s.trmOf t).mainCtx = some c) :
    resumeMain t s = modTrm t (fun x => { x with run := .main, ctx := c, mainCtx := none }) s :=
  modTrm_congr (by simp [hs, hc])

theorem resumeMain_of_firmware (hs : (s.trmOf t).swap = none) (hc : (s.trmOf t).mainCtx = none) :
    resumeMain t s = modTrm t (fun x => { x with run := .none }) s :=
  modTrm_congr (by simp [hs, hc])

end

/-- Settles O23: the words fetched by what they are and what executing them retires or halts, interrupts by what comes
first and what it enters. -/
theorem trimmerPrivilege : Obligations.TrimmerPrivilege := by
  intro s t ht
  have code : Completes (.trimmerInstruction t) s (trimmerInstruction t s) := run_ok (decide_eq_true ht) rfl
  have take : Completes (.interruptTake t) s (interruptTake t s) := run_ok (decide_eq_true ht) rfl
  refine ⟨fun rd rs1 imm hr hrun hd h1 hi hl hu hw => ?_, fun rd rs1 imm k hr hrun hd h1 hi hpc _ hu hw => ?_,
    fun hr hrun hs hl hu hw => ?_, fun e hv hf hd hm hr hs hb hfind hn => ⟨fun hx => ?_, fun hx => ?_⟩,
    fun c rest hv hf hd hm hs hb hr hq => ?_, fun c hr hs hc hsw => ?_⟩
  · obtain ⟨h32, hop, -⟩ := addiWord_fields hd h1 hi
    have hfetch := fetchInsn_user hrun hl hu hw h32 (show addiWord rd rs1 imm % 4 = 3 by omega)
    rw [trimmerInstruction_addi hr hd h1 hi hfetch] at code
    exact retires_of_leave hd (.refl ..) code (by rw [leave_mem, trmOf_retireCode]; exact entered_mem t s)
  · obtain ⟨h32, hop, -⟩ := addiWord_fields hd h1 hi
    have hfetch := fetchInsn_firmware hrun hpc hu hw h32 (show addiWord rd rs1 imm % 4 = 3 by omega)
    rw [trimmerInstruction_addi hr hd h1 hi hfetch] at code
    refine retires_of_leave hd (.refl ..) code ⟨by rw [leave_mem, trmOf_retireCode]; exact entered_mem t s, ?_⟩
    rw [trmOf_leave, if_pos (inM_iff.mpr hrun)]
  · have hne : (s.trmOf t).run ≠ .none := by rw [hrun]; decide
    have hpc : s.rpc t = s.trmPc t := by
      rw [State.rpc, State.runCtx, if_neg fun e => hne (inM_iff.mp e)]; rfl
    rw [← hpc] at hl hu hw
    exact effect_of code (trimmerInstruction_illegal hr hrun (fetchInsn_user hne hl hu hw (by decide) (by decide)) hs)
  · have hi : (s.trmOf t).interruptible = true := interruptible_iff.mpr ⟨hf, hd, hm, .inr hr, hs, hb⟩
    have hx' : ((takeSamples t (fun _ => true) s).trmOf t).xuvec ≠ 0 := by
      rw [takeSamples_all, trmOf_modTrm_self]; exact hx
    rw [interruptTake_of_fence hv hi hr hfind hn, passEvent_of_vector hx'] at take
    have hfound := List.find?_some hfind
    exact effect_of take (enterUpcall_fence (of_decide_eq_true hfound) rfl rfl)
  · have hi : (s.trmOf t).interruptible = true := interruptible_iff.mpr ⟨hf, hd, hm, .inr hr, hs, hb⟩
    have hx' : ((takeSamples t (fun _ => true) s).trmOf t).xuvec = 0 := by
      rw [takeSamples_all, trmOf_modTrm_self]; exact hx
    rwa [interruptTake_of_fence hv hi hr hfind hn, passEvent_of_none hx'] at take
  · have hrun : (s.trmOf t).run = .none ∨ (s.trmOf t).run = .main := hr.symm.imp And.left And.left
    have hi : (s.trmOf t).interruptible = true := interruptible_iff.mpr ⟨hf, hd, hm, hrun, hs, hb⟩
    obtain ⟨σ, hσ, hx, he⟩ := interruptTake_of_call hv hi hq hr
    exact effect_of take (dispatchRpt_spec hσ hx hq he)
  · refine run_ok (decide_eq_true ht) ((if_pos hr).trans ?_)
    dsimp only
    rw [resumeMain_of_main hs hc]
    exact trySwap_of_no_swap hsw

end Sys2Proof.Machine
end

section
namespace Sys2Proof.Machine

/-! ## How a handler and the main code end (R113, R117, R118, R124) -/

section
variable {t : Nat} {s : State}

theorem satWidth_trmPage (t lo : Nat) : satWidth (trmPage t + 4, lo) = 16 :=
  if_neg (by unfold trmPage; dsimp only; omega)

theorem satVal_modTrm (t : Nat) (f : Trm → Trm) (s : State) (g : Nat × Nat) : (modTrm t f s).satVal g = s.satVal g := rfl

theorem satVal_bumpSat_ne {f g : Nat × Nat} (h : f ≠ g) (s : State) : (bumpSat f s).satVal g = s.satVal g := by
  have raised : (bumpSatRaw f s).satVal g = s.satVal g := by
    simp only [State.satVal, bumpSatRaw_sat, aget_amod, if_neg h]
  unfold bumpSat
  dsimp only
  split
  · rw [satVal_of_sat (logEvent_sat ..), raised]
  · exact raised

/-- The user faults of a Trimmer, counted in `TRM_ERR`. -/
theorem satVal_userFault (t : Nat) (s : State) : (bumpSat (satTrmUserFault t) s).satVal (satTrmUserFault t)
    = satAdd 16 (s.satVal (satTrmUserFault t)) 1 := by
  rw [satVal_bumpSat, satTrmUserFault, satWidth_trmPage]

theorem satVal_parity (t : Nat) (s : State) : (bumpSat (satTrmParity t) s).satVal (satTrmParity t)
    = satAdd 16 (s.satVal (satTrmParity t)) 1 := by
  rw [satVal_bumpSat, satTrmParity, satWidth_trmPage]

theorem rptResult_short {code : Nat} {res : List Byte} (h : res.length ≤ 256) : (rptResult code res).length ≤ 512 := by
  simp only [rptResult, pad8, List.length_append, natLe_length, zeros, List.length_replicate]
  omega

/-- An answer `OK` in one packet. -/
theorem reply_ok {data : List Byte} (h : data.length ≤ 512) (p : Packet) (hint : Nat) (s : State) :
    ∃ q : Packet, reply p .ok hint data s = { s with fab := { s.fab with tx := s.fab.tx ++ [q] } }
      ∧ q.dst = p.src ∧ q.tag = p.tag ∧ q.status = 0 ∧ q.payload = data :=
  ⟨_, send_of_short (p := mkAnswer p .ok hint data s) h s, rfl, rfl, rfl, rfl⟩

/-- A handler of a fabric call that ends with no call queued: its answer, and the code it interrupted. -/
theorem endHandler_spec {code : Nat} {res : List Byte} {u : State} (hc : (s.trmOf t).call.sitter = none)
    (hq : (s.trmOf t).rptq = []) (hsw : s.trms.swapDeadline = []) (hlen : res.length ≤ 256)
    (hu : u = endHandler t code res s) :
    u.trmOf t = (resumeMain t (modTrm t (fun x => { x with run := .none }) s)).trmOf t ∧ u.sat = s.sat
      ∧ ∃ p : Packet, u.fab.tx = s.fab.tx ++ [p] ∧ p.dst = (s.trmOf t).call.p.src ∧ p.tag = (s.trmOf t).call.p.tag
        ∧ p.status = 0 ∧ p.payload = rptResult code res := by
  obtain ⟨q, hrep, hq1, hq2, hq3, hq4⟩ := reply_ok (rptResult_short (code := code) hlen) (s.trmOf t).call.p 0
    (modTrm t (fun x => { x with run := .none }) s)
  have hans : answerCall (s.trmOf t).call code res (modTrm t (fun x => { x with run := .none }) s)
      = reply (s.trmOf t).call.p .ok 0 (rptResult code res) (modTrm t (fun x => { x with run := .none }) s) := by
    unfold answerCall; rw [hc]
  have hempty : ((modTrm t (fun x => { x with run := .none }) s).trmOf t).rptq = [] := by rw [trmOf_modTrm_self]; exact hq
  have he : endHandler t code res s = resumeMain t (reply (s.trmOf t).call.p .ok 0 (rptResult code res)
      (modTrm t (fun x => { x with run := .none }) s)) := by
    unfold endHandler
    dsimp only
    rw [hans, hrep, if_neg (by
      show ¬ ((!((modTrm t (fun x => { x with run := .none }) s).trmOf t).rptq.isEmpty && _ && _) = true)
      rw [hempty]; simp)]
    exact trySwap_of_no_swap hsw
  rw [hu, he, hrep]
  exact ⟨rfl, rfl, q, rfl, hq1, hq2, hq3, hq4⟩

/-! ### RPT.RET (R113) -/

/-- The counts of an `RPT.RET`. -/
def countReturn (t : Nat) (s : State) : State := bumpHpm t 8 1 (bumpHpm t 2 1 (bumpCtr (ctrTrmRetired t) 1 s))

theorem countReturn_spec (t : Nat) (s : State) : (∃ h l, (countReturn t s).trmOf t = { s.trmOf t with hpm := h, upcalls := l })
    ∧ (countReturn t s).fab = s.fab ∧ (countReturn t s).trms = s.trms := by
  obtain ⟨h, l, e⟩ := bumpHpm_eq t 8 1 (bumpHpm t 2 1 (bumpCtr (ctrTrmRetired t) 1 s))
  unfold countReturn
  rw [e, bumpHpm_instret, modTrm_modTrm, trmOf_modTrm_self]
  exact ⟨⟨h, l, rfl⟩, rfl, rfl⟩

/-- `RPT.RET` of a handler with a result in user local memory. -/
theorem rptRet_of_result {rs1 rs2 code n : Nat} (hr : (s.trmOf t).run = .handler) (hw : s.tx t rs1 = code + n * 2 ^ 16)
    (hc : code < 65536) (hn : n ≤ 256) (hl : 0x9000 ≤ s.tx t rs2) (hu : s.tx t rs2 + n ≤ 0x40000) :
    rptRet t rs1 rs2 s = endHandler t code (memRead (s.trmOf t).mem (s.tx t rs2) n) (countReturn t s) := by
  have hbits : bits (s.tx t rs1) 16 9 = n := by rw [hw]; unfold bits; omega
  have hcode : s.tx t rs1 % 2 ^ 16 = code := by rw [hw]; omega
  have h1 : ¬ ((s.trmOf t).run ≠ .handler ∨ 256 < n) := fun h => h.elim (fun h => h hr) (by omega)
  have h2 : ¬ (n ≠ 0 ∧ ¬ (0x9000 ≤ s.tx t rs2 ∧ s.tx t rs2 + n ≤ 0x40000)) := fun h => h.2 ⟨hl, hu⟩
  unfold rptRet
  dsimp only
  rw [hbits, hcode, if_neg h1, if_neg h2]
  rfl

theorem memRead_length (m : List Host.Cell) (a n : Nat) : (memRead m a n).length = n := by simp [memRead]

/-- A handler that returns: its answer, and the main code it interrupted. -/
theorem endHandler_of_return {code : Nat} {res : List Byte} {m : Ctx} {u : State} (hc : (s.trmOf t).call.sitter = none)
    (hq : (s.trmOf t).rptq = []) (hs : (s.trmOf t).swap = none) (hm : (s.trmOf t).mainCtx = some m)
    (hsw : s.trms.swapDeadline = []) (hlen : res.length ≤ 256) (hu : u = endHandler t code res (countReturn t s)) :
    (u.trmOf t).run = .main ∧ (u.trmOf t).ctx = m ∧ (u.trmOf t).mainCtx = none
      ∧ ∃ p : Packet, u.fab.tx = s.fab.tx ++ [p] ∧ p.dst = (s.trmOf t).call.p.src ∧ p.tag = (s.trmOf t).call.p.tag
        ∧ p.status = 0 ∧ p.payload = rptResult code res := by
  obtain ⟨⟨h, l, hself⟩, hfab, htrms⟩ := countReturn_spec t s
  obtain ⟨hutrm, -, p, htx, hdst, htag, hst, hpay⟩ := endHandler_spec (by rw [hself]; exact hc) (by rw [hself]; exact hq)
    (by rw [htrms]; exact hsw) hlen hu
  rw [hfab] at htx
  rw [hself] at hdst htag
  rw [resumeMain_of_main (by rw [trmOf_modTrm_self, hself]; exact hs) (by rw [trmOf_modTrm_self, hself]; exact hm),
    trmOf_modTrm_self] at hutrm
  exact ⟨by rw [hutrm], by rw [hutrm], by rw [hutrm], p, htx, hdst, htag, hst, hpay⟩

/-! ### Handlers that firmware ends (R117) -/

/-- What a handler that firmware ends leaves, with no code below it. -/
theorem killHandler_spec {code cause tval : Nat} {u : State} (hc : (s.trmOf t).call.sitter = none)
    (hq : (s.trmOf t).rptq = []) (hs : (s.trmOf t).swap = none) (hm : (s.trmOf t).mainCtx = none)
    (hsw : s.trms.swapDeadline = []) (hu : u = killHandler t code cause tval s) :
    (u.trmOf t).run = .none ∧ u.satVal (satTrmUserFault t) = satAdd 16 (s.satVal (satTrmUserFault t)) 1
      ∧ ∃ p : Packet, u.fab.tx = s.fab.tx ++ [p] ∧ p.dst = (s.trmOf t).call.p.src
        ∧ p.payload = rptResult code (natLe (cause % 256 + tval % 2 ^ 56 * 256) 8) := by
  obtain ⟨σ, hσ, htrm, hfab, hsat, htrms⟩ : ∃ σ, u = endHandler t code (natLe (cause % 256 + tval % 2 ^ 56 * 256) 8) σ
      ∧ σ.trmOf t = s.trmOf t ∧ σ.fab = s.fab ∧ σ.sat = (bumpSat (satTrmUserFault t) s).sat ∧ σ.trms = s.trms := by
    refine ⟨_, hu, ?_, ?_, logEvent_sat .., ?_⟩
    · rw [State.trmOf, logEvent_trm, bumpSat_trm]; rfl
    · rw [FlashApart.logEvent, bumpSat_fab]
    · rw [logEvent_trms, bumpSat_trms]
  obtain ⟨hutrm, husat, p, htx, hdst, -, -, hpay⟩ := endHandler_spec (by rw [htrm]; exact hc) (by rw [htrm]; exact hq)
    (by rw [htrms]; exact hsw) (by rw [natLe_length]; decide) hσ
  rw [hfab] at htx
  rw [htrm] at hdst
  refine ⟨?_, ?_, p, htx, hdst, hpay⟩
  · rw [resumeMain_of_firmware (by rw [trmOf_modTrm_self, htrm]; exact hs) (by rw [trmOf_modTrm_self, htrm]; exact hm)]
      at hutrm
    rw [hutrm, trmOf_modTrm_self]
  · rw [satVal_of_sat (husat.trans hsat), satVal_userFault]

/-! ### Parity errors (R124) -/

theorem trapTrm_of_firmware {c v : Nat} (hr : (s.trmOf t).run = .none) :
    trapTrm t c v s = fwRestart t (noteTrap t (s.trmPc t) c v s) := by
  have h : ((noteTrap t (s.trmPc t) c v s).trmOf t).run = .none := by rw [noteTrap, trmOf_modTrm_self]; exact hr
  unfold trapTrm
  dsimp only
  rw [h]

/-- A fault of the firmware restarts it, with the user code's registers as they were. -/
theorem inCtx_trap_of_firmware {c v : Nat} (hr : (s.trmOf t).run = .none) :
    ∃ m, inCtx t (trapTrm t c v) s
      = modTrm t (fun x => { x with fwDown := true, mctx := { pc := 0x8000000 }, mcsr := m }) s := by
  have hin : ((modTrm t (fun x => { x with ctx := x.mctx }) s).trmOf t).run = .none := by rw [trmOf_modTrm_self]; exact hr
  unfold inCtx
  rw [if_pos (inM_iff.mpr hr)]
  dsimp only
  rw [trapTrm_of_firmware hin, fwRestart, noteTrap, modTrm_modTrm, modTrm_modTrm, modTrm_modTrm]
  exact ⟨_, modTrm_congr (if_pos hr)⟩

theorem satTrmUserFault_ne_parity (t : Nat) : satTrmUserFault t ≠ satTrmParity t := fun h =>
  absurd (congrArg Prod.snd h) (show (16 : Nat) ≠ 0 by decide)

/-- A parity error that the main code reads halts it. -/
theorem parity_of_main (hr : (s.trmOf t).run = .main) (hsw : s.trms.swapDeadline = []) (addr : Nat) :
    inCtx t (trapTrm t 5 addr) (bumpSat (satTrmParity t) s) = modTrm t Trm.halted (bumpSat (satTrmUserFault t)
      (noteTrap t ((bumpSat (satTrmParity t) s).trmPc t) 5 addr (bumpSat (satTrmParity t) s))) := by
  have hm : ((bumpSat (satTrmParity t) s).trmOf t).run = .main := by rw [trmOf_bumpSat]; exact hr
  rw [inCtx_of_user (by rw [hm]; decide), trapTrm_of_main hm, haltMain_of_no_swap]
  exact (congrArg Trms.swapDeadline (bumpSat_trms ..)).trans hsw

end

/-- Settles O24: a handler's end by its answer and what it resumes, a fault of the main code by what halts it, a parity
error by the code that read. -/
theorem trimmerFaults : Obligations.TrimmerFaults := by
  intro s t ht hsw
  have on : t < s.variant.trimmers → (s.trmOf t).fence.on = false →
      (decide (t < s.variant.trimmers) && !(s.trmOf t).fence.on) = true := fun hv hf => by rw [decide_eq_true hv, hf]; rfl
  have wf1 : ∀ {a : Nat}, a < 2 ^ 64 → (decide (t < 128) && decide (a < 2 ^ 64)) = true := fun ha => by
    rw [decide_eq_true ht, decide_eq_true ha]; rfl
  have wf2 : ∀ {a b : Nat}, a < 2 ^ 64 → b < 2 ^ 64 →
      (decide (t < 128) && decide (a < 2 ^ 64) && decide (b < 2 ^ 64)) = true := fun ha hb => by
    rw [wf1 ha, decide_eq_true hb]; rfl
  refine ⟨fun rs1 rs2 m code n h1 h2 hr hrun hc hq hs hm hw hcode hn hl hu => ?_,
    fun mc mv hmc hmv hrun hc hq hs hm => ⟨?_, ?_⟩, fun mc mv hmc hmv hrun => ?_,
    fun addr ha hv hf => ⟨?_, fun hrun => ?_, fun hrun => ?_⟩⟩
  · have hb := trmOf_beginInsn t s
    have htx : ∀ r, (beginInsn t s).tx t r = s.tx t r := fun r => by rw [tx_eq_reg, hb]; rfl
    have hframe : (beginInsn t s).fab = s.fab ∧ (beginInsn t s).trms = s.trms := by
      obtain ⟨l, hbegin⟩ := beginInsn_eq t s
      rw [hbegin]; exact ⟨rfl, rfl⟩
    have he : (if s.trmRuns t then inCtx t (rptRet t rs1 rs2) (beginInsn t s) else s)
        = endHandler t code (memRead (s.trmOf t).mem (s.tx t rs2) n) (countReturn t (beginInsn t s)) := by
      rw [if_pos hr, inCtx_of_user (by rw [hb, hrun]; decide),
        rptRet_of_result (code := code) (n := n) (by rw [hb]; exact hrun) (by rw [htx]; exact hw) hcode hn
          (by rw [htx]; exact hl) (by rw [htx]; exact hu), htx, hb]
    have done : Completes (.rptRet t rs1 rs2) s _ :=
      run_ok (by rw [decide_eq_true ht, decide_eq_true h1, decide_eq_true h2]; rfl) he
    have hret := endHandler_of_return (s := beginInsn t s) (code := code) (m := m)
      (res := memRead (s.trmOf t).mem (s.tx t rs2) n) (by rw [hb]; exact hc) (by rw [hb]; exact hq) (by rw [hb]; exact hs)
      (by rw [hb]; exact hm) (by rw [hframe.2]; exact hsw) ((memRead_length ..).trans_le hn) rfl
    rw [hframe.1, hb] at hret
    exact effect_of done hret
  · have done : Completes (.rptHandlerFault t mc mv) s (killHandler t 0xFFFF mc mv s) :=
      run_ok (wf2 hmc hmv) (if_pos hrun)
    exact effect_of done (killHandler_spec hc hq hs hm hsw rfl)
  · have done : Completes (.rptBudgetExhausted t) s (killHandler t 0xFFFE 0 0 s) :=
      run_ok (decide_eq_true ht) (if_pos hrun)
    have spent := killHandler_spec (code := 0xFFFE) (cause := 0) (tval := 0) hc hq hs hm hsw rfl
    simp only [Nat.zero_mod, Nat.zero_mul, Nat.add_zero] at spent
    exact effect_of done spent
  · have hor : ((s.trmOf t).run = .main || (s.trmOf t).run = .upcall) = true := by
      rcases hrun with h | h <;> rw [h] <;> rfl
    have done : Completes (.mainCodeFault t mc mv) s _ :=
      run_ok (wf2 hmc hmv) ((if_pos hor).trans (haltMain_of_no_swap hsw))
    refine effect_of done ⟨?_, ?_, fun k hk => ?_⟩
    · rw [trmOf_modTrm_self, trmOf_bumpSat]; rfl
    · rw [satVal_modTrm, satVal_userFault]
    · rw [trmOf_modTrm_ne _ _ hk, trmOf_bumpSat]
  · have done : Completes (.trmParityError t true addr) s (fwRestart t (bumpSat (satTrmParity t) s)) :=
      run_ok (wf1 ha) (if_pos (on hv hf))
    refine effect_of done ?_
    rw [fwRestart, satVal_modTrm, satVal_parity, trmOf_modTrm_self, trmOf_bumpSat]
    exact ⟨rfl, rfl⟩
  · obtain ⟨m, he⟩ := inCtx_trap_of_firmware (t := t) (s := bumpSat (satTrmParity t) s) (c := 5) (v := addr)
      (by rw [trmOf_bumpSat]; exact hrun)
    have done : Completes (.trmParityError t false addr) s _ := run_ok (wf1 ha) ((if_pos (on hv hf)).trans he)
    refine effect_of done ?_
    rw [satVal_modTrm, satVal_parity, trmOf_modTrm_self, trmOf_bumpSat]
    exact ⟨rfl, rfl, rfl, rfl⟩
  · have done : Completes (.trmParityError t false addr) s _ :=
      run_ok (wf1 ha) ((if_pos (on hv hf)).trans (parity_of_main hrun hsw addr))
    refine effect_of done ?_
    rw [satVal_modTrm, satVal_bumpSat_ne (satTrmUserFault_ne_parity t), noteTrap, satVal_modTrm, satVal_parity,
      trmOf_modTrm_self]
    exact ⟨rfl, rfl, rfl⟩

end Sys2Proof.Machine
end

section
namespace Sys2Proof.Machine

/-! ## Requests taken, answered and held (R131, R331) -/

theorem unhold_take (p : Packet) (s : State) : unhold p (take p s) = { take p s with sit := (unhold p s).sit } := by
  unfold unhold
  rw [show (take p s).sitOf p.saggar = s.sitOf p.saggar from rfl]
  split <;> rfl

/-- A request that is no part of a train is served as it is. -/
theorem reassemble_of_whole {p : Packet} (h : trainPart p = false) (f : Packet → State → State) (s : State) :
    reassemble p f s = f p s := by
  simp [reassemble, h]

/-- A packet of a train that is not whole yet waits for the rest. -/
theorem reassemble_of_part {p : Packet} (h : trainPart p = true) {s : State}
    (hj : joinTrain ((addPart p s.fab.frags).filter (sameTrain p)) = none) (f : Packet → State → State) :
    reassemble p f s
      = { s with fab := { s.fab with inbox := s.fab.inbox.erase p, frags := addPart p s.fab.frags } } := by
  have hj' : joinTrain ((addPart p (take p s).fab.frags).filter (sameTrain p)) = none := hj
  simp only [reassemble, h, Bool.not_true, Bool.false_eq_true, if_false, hj']
  rfl

/-- The packet that makes a train whole: the train is served as one request. -/
theorem reassemble_of_last {p w : Packet} (h : trainPart p = true) {s : State}
    (hj : joinTrain ((addPart p s.fab.frags).filter (sameTrain p)) = some w) (f : Packet → State → State) :
    reassemble p f s = f w { s with fab := { s.fab with inbox := s.fab.inbox.erase p
                                                        frags := (addPart p s.fab.frags).filter (fun q => !sameTrain p q) } } := by
  have hj' : joinTrain ((addPart p (take p s).fab.frags).filter (sameTrain p)) = some w := hj
  simp only [reassemble, h, Bool.not_true, Bool.false_eq_true, if_false, hj']
  rfl

/-- One more packet on its way to the switch core. -/
def addTx (q : Packet) (s : State) : State := { s with fab := { s.fab with tx := s.fab.tx ++ [q] } }

/-- The count of an answer of one of the two statuses that are counted. -/
def countAnswer (st : Status) (s : State) : State :=
  if st = .nackStaleEpoch then bumpSat satImgStale s else if st = .nackUnknown then bumpSat satFabUnknown s else s

theorem countAnswer_apart (st : Status) (s : State) : LogApart s (countAnswer st s) := by
  unfold countAnswer
  split
  · exact bumpSat_apart ..
  · split
    · exact bumpSat_apart ..
    · exact logApart_refl s

/-- Counting an answer raises no field but those of stale epochs and unknown answers. -/
theorem satVal_countAnswer {f : Nat × Nat} (hs : satImgStale ≠ f) (hu : satFabUnknown ≠ f) (st : Status) (s : State) :
    (countAnswer st s).satVal f = s.satVal f := by
  unfold countAnswer
  split
  · exact satVal_bumpSat_ne hs s
  · split
    · exact satVal_bumpSat_ne hu s
    · rfl

/-- An answer without data is counted, and goes out as one packet. -/
theorem reply_short (p : Packet) (st : Status) (hint : Nat) (s : State) : reply p st hint [] s
    = addTx (stampPkt (mkAnswer p st hint [] (countAnswer st s))) (countAnswer st s) :=
  send_of_short (p := mkAnswer p st hint [] (countAnswer st s)) (Nat.zero_le _) _

theorem addTx_apart (q : Packet) {s t : State} (h : LogApart s t) : LogApart (addTx q s) (addTx q t) := by
  rw [h]; rfl

/-- An answer without data sends one packet, and leaves the rest to the counting and logging of its status. -/
theorem reply_apart (p : Packet) (st : Status) (hint : Nat) (s : State) :
    LogApart (addTx (stampPkt (mkAnswer p st hint [] (countAnswer st s))) s) (reply p st hint [] s) := by
  rw [reply_short]
  exact addTx_apart _ (countAnswer_apart ..)

/-- A packet added to those of a state that differs from `s` in the queue of requests is the answer to `p`. -/
theorem answered_of_addTx {p q : Packet} {st : Status} {hint : Nat} {s t u : State} (hu : LogApart (addTx q t) u)
    (ht : t.fab = (take p s).fab) (hq : q = stampPkt (mkAnswer p st hint [] (countAnswer st t))) :
    Answered p st hint [] s u := by
  have tx : (addTx q t).fab.tx = s.fab.tx ++ [q] := by
    rw [show (addTx q t).fab.tx = t.fab.tx ++ [q] from rfl, ht]; rfl
  have inbox : (addTx q t).fab.inbox = s.fab.inbox.erase p := by
    rw [show (addTx q t).fab.inbox = t.fab.inbox from rfl, ht]; rfl
  have fab : u.fab = (addTx q t).fab := by rw [hu]
  rw [Answered, Replied, fab, tx, inbox]
  subst hq
  exact ⟨rfl, _, rfl, rfl, rfl, rfl, rfl, rfl, rfl, rfl, rfl⟩

/-! ## The acceptance of `ATTEND` (R171, R172) -/

/-- The count of refused requests of a saggar is no other field, and has 16 bits. -/
theorem satAttRefused_field : ∀ g, g < 64 →
    satWidth (satAttRefused g) = 16 ∧ satImgStale ≠ satAttRefused g ∧ satFabUnknown ≠ satAttRefused g := by
  decide

/-- A request taken, held no longer, and counted as refused. -/
def countRefused (p : Packet) (s : State) : State := bumpSat (satAttRefused p.saggar) (unhold p (take p s))

theorem countRefused_apart (p : Packet) (s : State) :
    LogApart { take p s with sit := (unhold p s).sit } (countRefused p s) := by
  have counted := bumpSat_apart (satAttRefused p.saggar) (unhold p (take p s))
  rw [unhold_take] at counted
  rw [countRefused, unhold_take]
  exact counted

theorem attendTrain_of_refused {p : Packet} {s : State} {st : Status} {h : Nat} (hr : s.attendRefusal p = some (st, h)) :
    attendTrain p s = reply p st h [] (countRefused p s) := by
  unfold attendTrain
  rw [hr]
  rfl

/-- A refused request is answered once, counted as refused, and held no longer; nothing of the attention or the pool
changes. -/
theorem refusedAttend_spec {p : Packet} (hg : p.saggar < 64) (st : Status) (h : Nat) {s u : State}
    (hu : u = reply p st h [] (countRefused p s)) :
    Answered p st h [] s u ∧ u.att = s.att ∧ u.tie = s.tie ∧ u.sit = (unhold p s).sit
      ∧ u.satVal (satAttRefused p.saggar) = satAdd 16 (s.satVal (satAttRefused p.saggar)) 1 := by
  obtain ⟨hw, hstale, hunknown⟩ := satAttRefused_field p.saggar hg
  have refused := countRefused_apart p s
  have sent := reply_apart p st h (countRefused p s)
  rw [← hu] at sent
  refine ⟨answered_of_addTx sent (by rw [refused]) rfl, ?_, ?_, ?_, ?_⟩
  · rw [sent, addTx, refused]; rfl
  · rw [sent, addTx, refused]; rfl
  · rw [sent, addTx, refused]
  · have raised : u.satVal (satAttRefused p.saggar) = (countAnswer st (countRefused p s)).satVal (satAttRefused p.saggar) := by
      rw [hu, reply_short]; rfl
    rw [raised, satVal_countAnswer hstale hunknown, countRefused, satVal_bumpSat, hw, unhold_take]
    rfl

/-- The blocks of a request: of every page of its region that meets its positions, one for each head (R173). -/
def State.attendBlocks (s : State) (p : Packet) : List (Nat × Nat) :=
  ((s.region (atRegion p)).seqPages p).flatMap (fun j => (List.range (atNKv p)).map (fun h => (j, atHeadLo p + h)))

theorem mem_attendBlocks {s : State} {p : Packet} {j h : Nat} : (j, h) ∈ s.attendBlocks p ↔
    atHeadLo p ≤ h ∧ h < atHeadLo p + atNKv p
      ∧ atPosLo p < (j + 1) * (s.region (atRegion p)).tPg ∧ j * (s.region (atRegion p)).tPg < atSeqLen p
      ∧ (s.region (atRegion p)).firstSeqPage ≤ j
      ∧ j < (s.region (atRegion p)).firstSeqPage + (s.region (atRegion p)).maxp := by
  simp only [State.attendBlocks, Region.seqPages, List.mem_flatMap, List.mem_filter, List.mem_map, List.mem_range,
    Prod.mk.injEq, decide_eq_true_eq]
  constructor
  · rintro ⟨_, ⟨⟨i, hi, rfl⟩, hlo, hhi⟩, k, hk, rfl, rfl⟩
    exact ⟨by omega, by omega, hlo, hhi, by omega, by omega⟩
  · rintro ⟨hlo, hhi, hpos, hseq, hfirst, hlast⟩
    exact ⟨j, ⟨⟨j - (s.region (atRegion p)).firstSeqPage, by omega, by omega⟩, hpos, hseq⟩, h - atHeadLo p, by omega, rfl, by omega⟩

/-- A request accepted into the queue (R172, R173, R189). -/
def State.acceptedAttend (s : State) (p : Packet) : AttReq :=
  { id := s.att.nextReq, p := p, left := s.attendBlocks p
    active := decide (countIf s.att.reqs (fun q => q.p.saggar = p.saggar && q.active) < attMax) }

theorem attendTrain_of_waiting {p : Packet} {s : State} (hr : s.attendRefusal p = none)
    (hw : s.stepCheck p.saggar (atStep p) = .next ∨ (s.sitOf p.saggar).aborted = true) :
    attendTrain p s = holdRequest p s := by
  unfold attendTrain
  rw [hr]
  exact if_pos (by simpa using hw)

theorem attendTrain_of_accepted {p : Packet} {s : State} (hr : s.attendRefusal p = none)
    (hn : s.stepCheck p.saggar (atStep p) ≠ .next) (ha : (s.sitOf p.saggar).aborted = false) :
    attendTrain p s = { s with
      sit := (unhold p s).sit
      fab := { s.fab with inbox := s.fab.inbox.erase p }
      att := { s.att with reqs := s.att.reqs ++ [s.acceptedAttend p], nextReq := s.att.nextReq + 1 } } := by
  have hif : ¬ (decide (s.stepCheck p.saggar (atStep p) = .next) || (s.sitOf p.saggar).aborted) = true := by
    simp [hn, ha]
  unfold attendTrain
  rw [hr]
  dsimp only
  rw [if_neg hif, unhold_take]
  rfl

/-- Settles O30: a train by how its packets come together, a whole request by the row of R172 it fails, or by its
step. -/
theorem attendAcceptance : Obligations.AttendAcceptance := by
  intro s p hp
  have done : ∀ {u}, reassemble p attendTrain s = u → Completes (.attend p) s u := fun h => run_ok hp h
  have whole : ∀ {u}, trainPart p = false → attendTrain p s = u → Completes (.attend p) s u :=
    fun ht h => done ((reassemble_of_whole ht ..).trans h)
  have hg : p.saggar < 64 := by
    simp only [Packet.wf, Bool.and_eq_true, decide_eq_true_eq] at hp
    omega
  refine ⟨fun ht hj => done (reassemble_of_part ht hj _), fun w ht hj => done (reassemble_of_last ht hj _),
    fun ht ha => ?_, fun st h ht hr => ?_, fun ht hr hw => whole ht (attendTrain_of_waiting hr hw),
    fun ht hr hn ha => ?_⟩
  · have hr : s.attendRefusal p = some (.unitAbsent, 0) := if_pos ha
    exact effect_of (whole ht (attendTrain_of_refused hr)) (refusedAttend_spec hg _ _ rfl).1
  · exact effect_of (whole ht (attendTrain_of_refused hr)) (refusedAttend_spec hg st h rfl)
  · exact effect_of (whole ht (attendTrain_of_accepted hr hn ha))
      ⟨s.acceptedAttend p, rfl, rfl, rfl, rfl, rfl, rfl, rfl, rfl, fun j h => mem_attendBlocks⟩

end Sys2Proof.Machine
end

section
namespace Sys2Proof.Machine

/-! ## What the pool, the shelf and the Trimmers do leaves the Sitter's part -/

theorem sitOf_of_sit {s t : State} (h : t.sit = s.sit) (g : Nat) : t.sitOf g = s.sitOf g := by
  rw [State.sitOf, h]; rfl

theorem sit_of_steps {α : Type} {f : α → State → State} (h : ∀ a s, (f a s).sit = s.sit) (l : List α) (s : State) :
    (forEach l f s).sit = s.sit :=
  forEach_rel (R := fun s t => t.sit = s.sit) (fun _ => rfl) (fun h k => k.trans h) h l s

/-- What a result and its state were computed as keeps the Sitter's part, so the state does. -/
theorem sit_of_eq {α : Type} {x : α × State} {a : α} {s t : State} (h : x = (a, t)) (hx : x.2.sit = s.sit) :
    t.sit = s.sit := by
  subst h; exact hx

theorem sit_of_ite {c : Prop} [Decidable c] {s t u : State} (ht : t.sit = s.sit) (hu : u.sit = s.sit) :
    (if c then t else u).sit = s.sit := by
  split
  · exact ht
  · exact hu

@[simp] theorem bumpSat_sit (f : Nat × Nat) (s : State) : (bumpSat f s).sit = s.sit := by rw [bumpSat_apart f s]

theorem noteFallback_sit (g : Nat) (s : State) : (noteFallback g s).sit = s.sit := bumpSat_sit ..

theorem modRegion_sit (id : Nat) (f : Region → Region) (s : State) : (modRegion id f s).sit = s.sit := by
  unfold modRegion; split <;> rfl

theorem enqueueMove_sit (j : MoverJob) (s : State) : (enqueueMove j s).sit = s.sit := by
  rw [QueueApart.enqueueMove j s]

theorem setSide_sit (id g : Nat) (f : Side → Side) (s : State) : (setSide id g f s).sit = s.sit := by
  unfold setSide; split <;> rfl

/-! ### Tiers that run short (R219) -/

theorem dropCopy_sit (x : Nat × Nat × Nat) (s : State) : (dropCopy x s).sit = s.sit := by
  unfold dropCopy
  rw [FreeApart.freeUnheld, modRegion_sit]

theorem freeSpare_sit (tier g : Nat) (s : State) : (freeSpare tier g s).sit = s.sit := by
  refine sit_of_steps (fun x s => ?_) _ s
  split
  · rw [dropCopy_sit, noteFallback_sit]
  · rfl

theorem demoteColdest_sit (tier g : Nat) (s : State) : (demoteColdest tier g s).sit = s.sit := by
  unfold demoteColdest
  split
  · rfl
  · split
    · rfl
    · dsimp only
      split
      · rfl
      · rw [noteFallback_sit, enqueueMove_sit]

theorem relieve_sit (tier g : Nat) (s : State) : (relieve tier g s).sit = s.sit := by
  have noted : ∀ t : State, (noteShort g tier t).sit = t.sit := fun _ => rfl
  unfold relieve
  split
  · rfl
  · dsimp only
    rw [noted]
    split
    · rw [demoteColdest_sit, freeSpare_sit]
    · exact freeSpare_sit ..

/-! ### Reads of a region (R203, R208, R210) -/

theorem heldBack_sit (r : Region) (ver : Option Nat) (ps : List Nat) (s : State) : (heldBack r ver ps s).2.sit = s.sit := by
  unfold heldBack
  dsimp only
  split
  · split
    · rw [noteFallback_sit, relieve_sit]
    · exact (sit_of_steps (fun _ _ => enqueueMove_sit ..) _ _).trans (relieve_sit ..)
  · rfl

theorem refetch_sit (r : Region) (page : Nat) (s : State) : (refetch r page s).sit = s.sit := by
  rw [QueueApart.refetch r page s]

theorem readPiece_sit (r : Region) (ver : Option Nat) (pc : Nat × Nat × Nat) (s : State) :
    (readPiece r ver pc s).2.sit = s.sit := by
  have away : ∀ b : Bool, (if b then (ReadResult.waits, refetch r (pc.1 / 256) s) else (.poison, s)).2.sit = s.sit := by
    rintro (_ | _)
    · rfl
    · exact refetch_sit ..
  unfold readPiece
  dsimp only
  split
  · exact away _
  · split
    · rfl
    · split
      · rfl
      · split
        · split
          · split
            · rfl
            · exact setSide_sit ..
          · exact away _
        · exact setSide_sit ..

theorem readPieces_sit (r : Region) (ver : Option Nat) (l : List (Nat × Nat × Nat)) (s : State) :
    (readPieces r ver l s).2.sit = s.sit := by
  induction l generalizing s with
  | nil => rfl
  | cons pc rest ih => exact (ih _).trans (readPiece_sit r ver pc s)

theorem takeSlot_sit (tier ch g : Nat) (s : State) : (takeSlot tier ch g s).sit = s.sit := by
  rw [FlashApart.takeSlot]

theorem touch_sit (id page tier : Nat) (s : State) : (touch id page tier s).sit = s.sit := modRegion_sit ..

theorem touchPages_sit (r : Region) (ver : Option Nat) (ps : List Nat) (s : State) :
    (touchPages r ver ps s).sit = s.sit := by
  refine sit_of_steps (fun p s => ?_) ps s
  split
  · dsimp only
    rw [touch_sit]
    split
    · exact takeSlot_sit ..
    · rfl
  · rfl

theorem readRange_sit (r : Region) (ver : Option Nat) (a len : Nat) (s : State) : (readRange r ver a len s).2.sit = s.sit := by
  unfold readRange
  split
  next h => exact sit_of_eq h (heldBack_sit ..)
  next h => exact (readPieces_sit ..).trans (sit_of_eq h (heldBack_sit ..))

theorem readRegion_sit (r : Region) (ver : Option Nat) (a len : Nat) (s : State) :
    (readRegion r ver a len s).2.sit = s.sit := by
  unfold readRegion
  dsimp only
  split
  · exact (touchPages_sit ..).trans (readRange_sit ..)
  · exact readRange_sit ..

/-! ### Fills of the shelf (R145, R249, R487) -/

theorem readPlanTile_sit (r : Region) (t : Config.PlanTile) (s : State) : (readPlanTile r t s).2.2.sit = s.sit := by
  unfold readPlanTile
  dsimp only
  split
  · rfl
  · split
    next h => exact sit_of_eq h (readRegion_sit ..)
    next h => exact sit_of_eq h (readRegion_sit ..)

theorem readTable_sit (r : Region) (page : Nat) (s : State) : (readTable r page s).2.sit = s.sit := by
  unfold readTable
  split
  next h => exact sit_of_eq h (readRegion_sit ..)
  next h => exact sit_of_eq h (readRegion_sit ..)
  next h => exact sit_of_eq h (readRegion_sit ..)

theorem usableTable_sit (g id : Nat) (s : State) : (usableTable g id s).2.sit = s.sit := by
  unfold usableTable
  dsimp only
  split
  · rfl
  · split
    next h => exact sit_of_eq h (readTable_sit ..)
    next h => exact sit_of_eq h (readTable_sit ..)
    next h => exact sit_of_eq h (readTable_sit ..)

theorem shelfProduce_sit (g off : Nat) (bs : List Byte) (s : State) : (shelfProduce g off bs s).sit = s.sit := by
  rw [ShelfApart.shelfProduce g off bs s]

theorem noteDamaged_sit (e g block cause table : Nat) (s : State) : (noteDamaged e g block cause table s).sit = s.sit := by
  rw [noteDamaged, logEvent_sit, bumpSat_sit]

theorem decodeTile_sit (g e : Nat) (t : Config.PlanTile) (tab : Except Nat (List Byte)) (l : List Region) (bad : Nat × Nat)
    (s : State) : (decodeTile g e t tab l bad s).2.sit = s.sit := by
  induction l generalizing bad s with
  | nil => exact noteDamaged_sit ..
  | cons r rest ih =>
    unfold decodeTile
    split
    · exact ih ..
    · split
      next u h =>
        have read : u.sit = s.sit := sit_of_eq (congrArg Prod.snd h) (readPlanTile_sit ..)
        have decoded : ∀ d : Decoded, (if d.firstBad = 0xFFFF
            then (Fill.done, shelfProduce g t.shelf d.out (bumpCtr (ctrCdcDec e) d.out.length u))
            else decodeTile g e t tab rest (d.firstBad, d.cause) u).2.sit = s.sit := fun d => by
          split
          · exact (shelfProduce_sit ..).trans read
          · exact (ih ..).trans read
        exact decoded _
      next h => exact sit_of_eq (congrArg Prod.snd h) (readPlanTile_sit ..)

theorem copyTile_sit (g : Nat) (t : Config.PlanTile) (s : State) : (copyTile g t s).2.sit = s.sit := by
  unfold copyTile
  split
  · rfl
  · split
    · split
      next h => exact (shelfProduce_sit ..).trans (sit_of_eq (congrArg Prod.snd h) (readPlanTile_sit ..))
      next h => exact sit_of_eq (congrArg Prod.snd h) (readPlanTile_sit ..)
    · split
      · rfl
      · split
        · rfl
        · split
          next h => exact sit_of_eq h (usableTable_sit ..)
          next h => exact (decodeTile_sit ..).trans (sit_of_eq h (usableTable_sit ..))

/-! ### The shelf window -/

/-- Two states that differ at most in the pool. -/
def TieApart (s t : State) : Prop := t = { s with tie := t.tie }

namespace TieApart

theorem refl (s : State) : TieApart s s := rfl

theorem trans {s t u : State} (h : TieApart s t) (k : TieApart t u) : TieApart s u := by
  unfold TieApart at *; rw [k, h]

theorem overLoop {α : Type} {f : α → State → State} (h : ∀ a s, TieApart s (f a s)) (l : List α) (s : State) :
    TieApart s (forEach l f s) :=
  forEach_rel refl trans h l s

theorem enqueueMove (j : MoverJob) (s : State) : TieApart s (enqueueMove j s) := by
  rw [QueueApart.enqueueMove j s]; rfl

theorem wantCopy (r : Region) (s : State) : TieApart s (wantCopy r s) := by
  unfold Machine.wantCopy; split <;> rfl

theorem streamWindow (g : Nat) (s : State) : TieApart s (streamWindow g s) := by
  unfold Machine.streamWindow
  refine trans ?_ (overLoop (fun i s => trans ?_ (overLoop (fun x s => ?_) _ _)) _ _)
  · rfl
  · split
    · split
      · exact wantCopy ..
      · exact refl s
    · exact refl s
  · split
    · exact refl s
    · exact enqueueMove ..

end TieApart

theorem streamWindow_sit (g : Nat) (s : State) : (streamWindow g s).sit = s.sit := by rw [TieApart.streamWindow g s]

end Sys2Proof.Machine
end

section
namespace Sys2Proof.Machine

/-! ## The boundary at which a member opens a step (R130, R474) -/

theorem endStall_sit (t : Nat) (s : State) : (endStall t s).sit = s.sit := by rw [(TrmApart.endStall t s).1]

theorem loadProgram_sit (t : Nat) (s : State) : (loadProgram t s).sit = s.sit := rfl

theorem trySwap_sit (g : Nat) (s : State) : (trySwap g s).sit = s.sit := by
  unfold trySwap
  dsimp only
  split
  · rfl
  · split
    · exact sit_of_steps loadProgram_sit _ _
    · rfl

theorem beginSwap_sit (g : Nat) (s : State) : (beginSwap g s).sit = s.sit := by
  have stopped : ∀ t (s : State), (stopMain t s).sit = s.sit := fun t s => endStall_sit t s
  unfold beginSwap
  refine (trySwap_sit ..).trans ((sit_of_steps (fun t s => ?_) _ _).trans (sit_of_steps (fun t s => ?_) _ _))
  · exact sit_of_ite (stopped t s) rfl
  · rfl

theorem trimmerBoundary_sit (g : Nat) (s : State) : (trimmerBoundary g s).sit = s.sit := by
  have halted : ∀ f : Nat → State → Trm → Trm, (forEach (s.trimmersOf g) (fun t s => modTrm t (f t s) s) s).sit = s.sit :=
    fun f => sit_of_steps (f := fun t s => modTrm t (f t s) s) (fun _ _ => rfl) _ s
  exact sit_of_ite ((beginSwap_sit ..).trans (halted _)) (halted _)

theorem measuredChange_sit (s : State) : (measuredChange s).sit = s.sit := by
  refine sit_of_steps (fun _ _ => ?_) _ s
  rfl

theorem startCopy_sit (k : Nat) (s : State) : (startCopy k s).sit = s.sit :=
  sit_of_ite ((bumpSat_sit ..).trans (measuredChange_sit ..)) ((bumpSat_sit ..).trans (measuredChange_sit ..))

theorem switchTrimmers_sit (g : Nat) (s : State) : (switchTrimmers g s).sit = s.sit :=
  sit_of_steps (f := fun t s => fwRestart t (loadFirmware t s)) (fun _ _ => rfl) _ s

theorem firmwareBoundary_sit (g : Nat) (s : State) : (firmwareBoundary g s).sit = s.sit := by
  have switched := fun t : State =>
    sit_of_ite (c := (t.fw 3).waiting.contains g = true) (switchTrimmers_sit g t) (Eq.refl t.sit)
  have control := sit_of_ite (c := ((s.fw 2).switching && (s.fw 2).deadline.isNone) = true) (startCopy_sit 2 s) rfl
  exact sit_of_ite ((switched _).trans control) ((switched _).trans control)

theorem boundaryUnits_sit (g : Nat) (s : State) : (boundaryUnits g s).sit = s.sit := by
  refine (firmwareBoundary_sit ..).trans ((trimmerBoundary_sit ..).trans (sit_of_steps (fun a s => ?_) _ s))
  exact sit_of_ite rfl rfl

/-- Sections that take effect leave of the saggar's part all but what the old plan had staged. -/
theorem boundarySections_sitOf (g : Nat) (s : State) : ∃ t r b,
    (boundarySections g s).sitOf g = { s.sitOf g with tiles := t, refused := r, bisque := b } := by
  unfold boundarySections dropStaged
  dsimp only
  split
  · split
    · exact ⟨_, _, _, sitOf_modSit_self ..⟩
    · exact ⟨_, _, _, rfl⟩
  · exact ⟨_, _, _, rfl⟩

/-- What the boundary keeps of a member's part, and what it clears. -/
theorem stepBoundary_sitOf (g : Nat) (s : State) :
    ((stepBoundary g s).sitOf g).frames = (s.sitOf g).frames ∧ ((stepBoundary g s).sitOf g).trees = (s.sitOf g).trees
      ∧ ((stepBoundary g s).sitOf g).closedLayers = [] ∧ ((stepBoundary g s).sitOf g).cutLayers = [] := by
  have units : ∀ t : State, (if (t.sitOf g).heldOpen then t else boundaryUnits g t).sit = t.sit := fun t => by
    split
    · rfl
    · exact boundaryUnits_sit ..
  obtain ⟨t, r, b, sections⟩ := boundarySections_sitOf g s
  have kept := (sitOf_of_sit (units (boundarySections g s)) g).trans sections
  unfold stepBoundary
  dsimp only
  rw [sitOf_modSit_self, kept]
  exact ⟨rfl, rfl, rfl, rfl⟩

/-- Two states in which a saggar's part differs at most in the bisque copies on the shelf. -/
def BisqueApart (g : Nat) (s t : State) : Prop := ∃ b, t.sitOf g = { s.sitOf g with bisque := b }

namespace BisqueApart

theorem of_sit {g : Nat} {s t : State} (h : t.sit = s.sit) : BisqueApart g s t := ⟨_, sitOf_of_sit h g⟩

theorem trans {g : Nat} {s t u : State} (h : BisqueApart g s t) (k : BisqueApart g t u) : BisqueApart g s u := by
  obtain ⟨b, hb⟩ := h
  obtain ⟨c, hc⟩ := k
  exact ⟨c, by rw [hc, hb]⟩

theorem overLoop {α : Type} {g : Nat} {f : α → State → State} (h : ∀ a s, BisqueApart g s (f a s)) (l : List α) (s : State) :
    BisqueApart g s (forEach l f s) :=
  forEach_rel (fun _ => of_sit rfl) trans h l s

/-- Staging bisque copies (R147). -/
theorem stageBisque (g : Nat) (s : State) : BisqueApart g s (stageBisque g s) := by
  refine overLoop (fun l s => overLoop (fun e s => overLoop (fun k s => ?_) _ s) _ s) _ s
  split
  · exact of_sit rfl
  · split
    next h => exact (of_sit (sit_of_eq h (copyTile_sit ..))).trans ⟨_, sitOf_modSit_self ..⟩
    next h => exact of_sit (sit_of_eq h (copyTile_sit ..))

end BisqueApart

/-! ## Step tokens at a member (R129 to R131) -/

/-- The composition of a well-formed token is that of the saggar it is for. -/
theorem sagOfComp_of_token {s : State} {p : Packet} {kind g : Nat} (h : s.token p kind = some g) :
    s.sagOfComp (tkComp p) = some g := by
  unfold State.token at h
  dsimp only at h
  split at h
  · exact h
  · cases h

/-- A member's part as an `OPEN` outside replay leaves it, but for what the boundary does (R130). -/
def SitSag.opened (p : Packet) (lc now : Nat) (x : SitSag) : SitSag :=
  { x with
    runs := true, step := tkStep p, isOpen := true, closing := false, aborted := false
    mode := if tkRerun p then 3 else 1
    rerun := tkRerun p, epoch := tkEpoch p, lcOpen := lc, q := tkQ p, d := tkD p, openAt := now
    choices := [], recomps := [], replay := false, enterDue := false, exitDue := false, supplied := none }

/-- The state with a step just opened at a member, before its weights are staged. -/
def stepOpened (g : Nat) (p : Packet) (s : State) : State :=
  modSit g (·.opened p (stepBoundary g s).arch.lc (stepBoundary g s).now) (stepBoundary g s)

theorem openStep_eq (g : Nat) (p : Packet) (s : State) :
    openStep g p false s = stageBisque g (streamWindow g (stepOpened g p s)) := rfl

theorem openStep_sitOf (g : Nat) (p : Packet) (s : State) : ∃ lc now b,
    (openStep g p false s).sitOf g = { ((stepBoundary g s).sitOf g).opened p lc now with bisque := b } := by
  obtain ⟨b, staged⟩ := BisqueApart.stageBisque g (streamWindow g (stepOpened g p s))
  have window := sitOf_of_sit (streamWindow_sit g (stepOpened g p s)) g
  refine ⟨(stepBoundary g s).arch.lc, (stepBoundary g s).now, b, ?_⟩
  rw [openStep_eq, staged, window, stepOpened, sitOf_modSit_self]

theorem tokenOpen_of_normal {s : State} {p : Packet} {g : Nat} (h : s.token p 1 = some g) (ho : (s.sitOf g).isOpen = false)
    (hr : (s.sitOf g).replay = false) (he : (s.sitOf g).enterDue = false) :
    tokenOpen p s = openStep g p false (take p s) := by
  unfold tokenOpen
  simp [h, ho, hr, he]

theorem tokenClose_of_open {s : State} {p : Packet} {g : Nat} (h : s.token p 3 = some g) (ho : (s.sitOf g).isOpen = true)
    (hs : (s.sitOf g).step = tkStep p) (he : (s.sitOf g).epoch = tkEpoch p) :
    tokenClose p s = take p (modSit g (fun x => { x with closing := true }) s) := by
  unfold tokenClose
  simp [h, ho, hs, he]

/-- A member's part as an `ABORT` of its open step leaves it (R159). -/
def SitSag.cutShort (x : SitSag) : SitSag :=
  { x with
    aborted := true, closing := true, pend := [], outbox := []
    batches := (x.batches.filter (fun b => b.issued && (b.callOut || decide (0 < b.running)))).map
      (fun (b : Batch) => { b with left := [] }) }

theorem tokenAbort_of_open {s : State} {p : Packet} {g : Nat} (h : s.token p 5 = some g) (hr : (s.sitOf g).runs = true)
    (hs : (s.sitOf g).step = tkStep p) (he : (s.sitOf g).epoch = tkEpoch p) (ho : (s.sitOf g).isOpen = true) :
    tokenAbort p s = take p (abortAttention g (modSit g (·.cutShort) s)) := by
  unfold tokenAbort
  simp [h, hr, hs, he, ho, SitSag.cutShort]

theorem tokenAbort_of_closed {s : State} {p : Packet} {g : Nat} (h : s.token p 5 = some g) (hr : (s.sitOf g).runs = true)
    (hs : (s.sitOf g).step = tkStep p) (he : (s.sitOf g).epoch = tkEpoch p) (ho : (s.sitOf g).isOpen = false) :
    tokenAbort p s = take p (sendClosed g (modSit g (fun x => { x with aborted := true }) s)) := by
  unfold tokenAbort
  simp [h, hr, hs, he, ho]

/-- The attention requests of an aborted step are answered and gone; the Sitter's part is as it was (R187). -/
theorem abortAttention_spec (g : Nat) (s : State) :
    (abortAttention g s).sit = s.sit ∧ (abortAttention g s).att.reqs = s.att.reqs.filter (fun r => r.p.saggar ≠ g) := by
  refine forEach_keeps (P := fun t => t.sit = s.sit ∧ t.att.reqs = s.att.reqs.filter (fun r => r.p.saggar ≠ g))
    (fun r t h => ?_) _ ⟨rfl, rfl⟩
  rw [reply_apart]
  exact h

/-! ## The leader's exchange (R130, R132) -/

@[simp] theorem leadOf_modLead_self (comp : Nat) (f : SitLead → SitLead) (s : State) :
    (modLead comp f s).leadOf comp = f (s.leadOf comp) := aget_amod_self ..

theorem leadOf_of_lead {s t : State} (h : t.lead = s.lead) (comp : Nat) : t.leadOf comp = s.leadOf comp := by
  rw [State.leadOf, h]; rfl

@[simp] theorem logEvent_lead (code unit : Nat) (sag : Option Nat) (payload : List Nat) (s : State) :
    (logEvent code unit sag payload s).lead = s.lead := by rw [FlashApart.logEvent code unit sag payload s]

/-- Between two states one packet went to each of some nodes, in order; besides, only the clock of events moved. -/
def SentTo (nodes : List Nat) (s t : State) : Prop :=
  t = { s with arch := t.arch, fab := { s.fab with tx := t.fab.tx } }
    ∧ ∃ l : List Packet, t.fab.tx = s.fab.tx ++ l ∧ l.map (·.dst) = nodes

theorem SentTo.cons {n : Nat} {nodes : List Nat} {s t u : State} (h : SentTo [n] s t) (k : SentTo nodes t u) :
    SentTo (n :: nodes) s u := by
  obtain ⟨ht, l, htx, hl⟩ := h
  obtain ⟨hu, m, hux, hm⟩ := k
  exact ⟨by rw [hu, ht], l ++ m, by rw [hux, htx, List.append_assoc], by rw [List.map_append, hl, hm]; rfl⟩

theorem SentTo.lead {nodes : List Nat} {s t : State} (h : SentTo nodes s t) : t.lead = s.lead := by rw [h.1]
theorem SentTo.img {nodes : List Nat} {s t : State} (h : SentTo nodes s t) : t.img = s.img := by rw [h.1]
theorem SentTo.now {nodes : List Nat} {s t : State} (h : SentTo nodes s t) : t.now = s.now := by rw [h.1]

/-- A packet of a class without answers, after the clock's stamp of its emission (R27). -/
theorem sendOneWay_sentTo {p : Packet} (h : p.payload.length ≤ 512) (s : State) :
    SentTo [p.dst] s (sendOneWay p (stampLc s)) := by
  have sent : sendOneWay p (stampLc s) = _ := send_of_short (p := { p with src := s.fab.node, epoch := s.img.epoch }) h _
  rw [sent]
  exact ⟨rfl, [_], rfl, rfl⟩

/-- A step token of one packet goes to each node. -/
theorem sendToken_sentTo {payload : List Byte} (h : payload.length ≤ 512) (nodes : List Nat) (g : Nat) (s : State) :
    SentTo nodes s (sendToken nodes g payload s) := by
  induction nodes generalizing s with
  | nil => exact ⟨rfl, [], (List.append_nil _).symm, rfl⟩
  | cons n r ih => exact SentTo.cons (sendOneWay_sentTo h s) (ih _)

theorem tokenBytes_length (kind comp epoch : Nat) (rerun replay : Bool) (step q d member : Nat) :
    (tokenBytes kind comp epoch rerun replay step q d member).length ≤ 512 := by
  simp only [tokenBytes, List.length_append, natLe_length]
  omega

/-- Whether every endpoint awaited is done. -/
def State.allDone (s : State) (comp : Nat) : Bool := (s.awaited comp).all (s.leadOf comp).epDone.contains

/-- The leader's exchange after it has looked whether it can send `CLOSE`. -/
theorem tryClose_leadOf (comp g : Nat) (s : State) : (tryClose comp g s).leadOf comp
    = if (s.leadOf comp).phase = 1 ∧ s.allDone comp = true then { s.leadOf comp with phase := 2 } else s.leadOf comp := by
  have hif : ((decide ((s.leadOf comp).phase = 1) && (s.awaited comp).all (s.leadOf comp).epDone.contains) = true)
      = ((s.leadOf comp).phase = 1 ∧ s.allDone comp = true) := by
    simp only [Bool.and_eq_true, decide_eq_true_eq, State.allDone]
  unfold tryClose
  dsimp only
  simp only [hif]
  split
  · rw [leadOf_of_lead (sendToken_sentTo (tokenBytes_length ..) ..).lead, leadOf_modLead_self]
  · rfl

/-- The exchange with one endpoint more that is done. -/
def endpointDone (comp src : Nat) (s : State) : State :=
  modLead comp (fun l => { l with epDone := l.epDone ++ [src] }) s

theorem allDone_endpointDone (comp src : Nat) (s : State) : (endpointDone comp src s).allDone comp
    = (s.awaited comp).all ((s.leadOf comp).epDone ++ [src]).contains := by
  simp only [State.allDone, State.awaited, endpointDone, leadOf_modLead_self]
  rfl

theorem tokenEpDone_of_awaited {s : State} {p : Packet} {g : Nat} (h : s.token p 2 = some g) (hl : s.leads (tkComp p) = true)
    (hp : (s.leadOf (tkComp p)).phase = 1) (hs : (s.leadOf (tkComp p)).step = tkStep p)
    (he : (s.leadOf (tkComp p)).epoch = tkEpoch p) (ha : (s.awaited (tkComp p)).contains p.src = true)
    (hd : (s.leadOf (tkComp p)).epDone.contains p.src = false) :
    tokenEpDone p s = tryClose (tkComp p) g (endpointDone (tkComp p) p.src (take p s)) := by
  have hl' : (take p s).leads (tkComp p) = true := hl
  have ha' : ((take p s).awaited (tkComp p)).contains p.src = true := ha
  unfold tokenEpDone
  simp only [h]
  exact if_pos (by simp only [hl', hp, hs, he, ha', hd]; decide)

/-- The exchange with one member more that has closed the step. -/
def memberClosed (comp member : Nat) (s : State) : State :=
  modLead comp (fun l => { l with closed := l.closed ++ [member] }) s

theorem tokenClosed_of_member {s : State} {p : Packet} {g : Nat} (h : s.token p 4 = some g) (hl : s.leads (tkComp p) = true)
    (hp : 2 ≤ (s.leadOf (tkComp p)).phase) (hs : (s.leadOf (tkComp p)).step = tkStep p)
    (he : (s.leadOf (tkComp p)).epoch = tkEpoch p) (hm : (s.liveMembers (tkComp p)).contains (tkMember p) = true)
    (hc : (s.leadOf (tkComp p)).closed.contains (tkMember p) = false) :
    tokenClosed p s
      = if (s.liveMembers (tkComp p)).all ((s.leadOf (tkComp p)).closed ++ [tkMember p]).contains = true
        then stepEnds (tkComp p) g (memberClosed (tkComp p) (tkMember p) (take p s))
        else memberClosed (tkComp p) (tkMember p) (take p s) := by
  have hl' : (take p s).leads (tkComp p) = true := hl
  have hm' : ((take p s).liveMembers (tkComp p)).contains (tkMember p) = true := hm
  unfold tokenClosed
  simp only [h]
  refine (if_pos (by simp only [hl', hs, he, hm', hc, decide_eq_true hp]; decide)).trans ?_
  rw [leadOf_modLead_self]
  rfl

theorem stepEnds_of_aborted {comp g : Nat} {s : State} (h : (s.leadOf comp).phase = 3) : (stepEnds comp g s).leadOf comp
    = { s.leadOf comp with phase := 0, rerun := true, nextOpen := s.now } := by
  unfold stepEnds
  dsimp only
  rw [if_pos h, leadOf_modLead_self]

/-- A step that ends outside replay and while the control cores run: the debt and the next opening of R132. -/
theorem stepEnds_of_closed {comp g : Nat} {s : State} (h : (s.leadOf comp).phase = 2) (hh : (s.sitOf g).ctrlHold = false)
    (hr : (s.sitOf g).replay = false) (hc : s.arch.cp ≠ .restart) : (stepEnds comp g s).leadOf comp
      = { s.leadOf comp with
          phase := 0, rerun := false
          debt := debtAfter (s.periodP comp) (s.leadOf comp).debt (s.leadOf comp).q ((s.now - (s.leadOf comp).firstOpen) / 12)
          nextOpen := (s.leadOf comp).firstOpen + aclk (max (s.leadOf comp).q ((s.now - (s.leadOf comp).firstOpen) / 12)) } := by
  have h3 : (s.leadOf comp).phase ≠ 3 := by omega
  have warned : ∀ (c : Prop) [Decidable c] code unit payload,
      (if c then logEvent code unit (some g) payload s else s).leadOf comp = s.leadOf comp := fun c _ code unit payload => by
    split
    · exact leadOf_of_lead (logEvent_lead ..) comp
    · rfl
  unfold stepEnds
  dsimp only
  rw [if_neg h3, leadOf_modLead_self, warned]
  simp [hh, hr, hc]

/-- Settles O26: a token of a member by what it leaves of the member's part, a token of the leader by what it leaves of
the exchange. -/
theorem stepTokens : Obligations.StepTokens := by
  intro s p hp
  refine ⟨fun h => run_ok hp ?_, fun h => run_ok hp ?_, fun h => run_ok hp ?_, fun h => run_ok hp ?_, fun h => run_ok hp ?_,
    fun g h ho hr he => ?_, fun g h ho hs he => ?_, fun g h hr hs he => ⟨fun ho => ?_, fun ho => ?_⟩,
    fun g h hl hph hs he ha hd => ?_, fun g l h hl hll hph hs he hm hc => ?_⟩
  · simp [tokenOpen, h]
  · simp [tokenEpDone, h]
  · simp [tokenClose, h]
  · simp [tokenClosed, h]
  · simp [tokenAbort, h]
  · have done : Completes (.stepTokenOpen p) s _ := run_ok hp (tokenOpen_of_normal h ho hr he)
    obtain ⟨lc, now, b, opened⟩ := openStep_sitOf g p (take p s)
    obtain ⟨hframes, htrees, hclosed, hcut⟩ := stepBoundary_sitOf g (take p s)
    refine effect_of done ?_
    rw [opened]
    exact ⟨rfl, rfl, rfl, rfl, rfl, rfl, rfl, rfl, rfl, rfl, rfl, rfl, rfl, hframes, htrees, hclosed, hcut⟩
  · exact run_ok hp (tokenClose_of_open h ho hs he)
  · have done : Completes (.stepTokenAbort p) s _ := run_ok hp (tokenAbort_of_open h hr hs he ho)
    obtain ⟨hsit, hatt⟩ := abortAttention_spec g (modSit g (·.cutShort) s)
    have cut : (take p (abortAttention g (modSit g (·.cutShort) s))).sitOf g = (s.sitOf g).cutShort :=
      (sitOf_of_sit hsit g).trans (sitOf_modSit_self ..)
    refine effect_of done ?_
    rw [cut, take_att, hatt]
    refine ⟨rfl, rfl, rfl, rfl, fun b hb => ?_, fun r hr => ?_⟩
    · obtain ⟨c, -, rfl⟩ := List.mem_map.mp hb
      rfl
    · simpa using (List.mem_filter.mp hr).2
  · have done : Completes (.stepTokenAbort p) s _ := run_ok hp (tokenAbort_of_closed h hr hs he ho)
    have hsag := sagOfComp_of_token h
    obtain ⟨hsit, -, hjsl, q, htx, hdst, hop, hk⟩ :=
      sendClosed_spec (s := modSit g (fun x => { x with aborted := true }) s) hsag
    refine effect_of done ?_
    rw [show ∀ t, (take p t).sitOf g = t.sitOf g from fun _ => rfl, hsit, sitOf_modSit_self, take_jsl, hjsl]
    refine ⟨rfl, rfl, rfl, q, htx, ?_, hop, hk⟩
    rw [hdst, sagComp_of_sagOfComp hsag]
    exact leaderNode_modSit (tkComp p) g (f := fun x => { x with aborted := true }) (fun _ => rfl) s
  · have done : Completes (.stepTokenEpDone p) s _ := run_ok hp (tokenEpDone_of_awaited h hl hph hs he ha hd)
    have counted : (endpointDone (tkComp p) p.src (take p s)).leadOf (tkComp p)
        = { s.leadOf (tkComp p) with epDone := (s.leadOf (tkComp p)).epDone ++ [p.src] } := leadOf_modLead_self ..
    refine effect_of done ?_
    rw [tryClose_leadOf, allDone_endpointDone, counted]
    split
    next hall => exact ⟨rfl, (if_pos hall.2).symm⟩
    next hall => exact ⟨rfl, hph.trans (if_neg fun e => hall ⟨hph, e⟩).symm⟩
  · subst hll
    have done : Completes (.stepTokenClosed p) s _ := run_ok hp (tokenClosed_of_member h hl hph hs he hm hc)
    have counted : (memberClosed (tkComp p) (tkMember p) (take p s)).leadOf (tkComp p)
        = { s.leadOf (tkComp p) with closed := (s.leadOf (tkComp p)).closed ++ [tkMember p] } := leadOf_modLead_self ..
    refine ⟨fun hall => ?_, fun hall h3 => ?_, fun hall h2 hh hr hcp => ?_⟩
    · rw [if_neg (by rw [hall]; decide)] at done
      refine effect_of done ?_
      rw [counted]
      exact ⟨rfl, rfl⟩
    · rw [if_pos hall] at done
      refine effect_of done ?_
      rw [stepEnds_of_aborted (by rw [counted]; exact h3), counted]
      exact ⟨rfl, rfl, rfl, rfl⟩
    · rw [if_pos hall] at done
      refine effect_of done ?_
      rw [stepEnds_of_closed (s := memberClosed (tkComp p) (tkMember p) (take p s)) (by rw [counted]; exact h2) hh hr hcp,
        counted]
      exact ⟨rfl, rfl, rfl, rfl⟩

end Sys2Proof.Machine
end

section
namespace Sys2Proof.Machine

/-! ## The leader's next opening (R132, R133, R155, R475) -/

theorem memberNodes_congr {s t : State} (h : t.img = s.img) (comp : Nat) : memberNodes t comp = memberNodes s comp := by
  unfold memberNodes State.liveMembers State.members State.compBody
  rw [h]

theorem liveEndpoints_congr {s t : State} (h : t.img = s.img) (comp : Nat) : t.liveEndpoints comp = s.liveEndpoints comp := by
  unfold State.liveEndpoints State.endpoints State.compBody
  rw [h]

theorem sagOfComp_congr {s t : State} (hi : t.img = s.img) (hf : t.fab = s.fab) (comp : Nat) :
    t.sagOfComp comp = s.sagOfComp comp := by
  unfold State.sagOfComp State.sagExists State.sagComp State.sagRec State.nodeBody
  rw [hi, hf]

theorem leads_congr {s t : State} (hi : t.img = s.img) (hf : t.fab = s.fab) (hs : t.sit = s.sit) (comp : Nat) :
    t.leads comp = s.leads comp := by
  unfold State.leads State.sitOf State.myMember State.members State.compBody
  rw [sagOfComp_congr hi hf, hi, hf, hs]

/-- The step the leader opens next: the first of the composition, the same one again, or the one that follows. -/
def State.stepDue (s : State) (comp : Nat) : Nat :=
  if !(s.leadOf comp).runs then s.compParam comp 0x0104
  else if (s.leadOf comp).rerun then (s.leadOf comp).step else (s.leadOf comp).step + 1

theorem stepDue_eq (s : State) (comp : Nat) : s.stepDue comp = (if (s.leadOf comp).runs = false then s.compParam comp 0x0104
    else if (s.leadOf comp).rerun then (s.leadOf comp).step else (s.leadOf comp).step + 1) := by
  unfold State.stepDue
  cases (s.leadOf comp).runs <;> rfl

/-- The period the leader grants it. -/
def State.periodDue (s : State) (comp : Nat) : Nat :=
  if s.arch.cp = .restart then s.periodP comp else periodQ (s.periodP comp) (s.periodMin comp) (s.leadOf comp).debt

/-- The exchange of a step just opened. -/
def SitLead.opening (n q now epoch : Nat) (eps : List Nat) (l : SitLead) : SitLead :=
  { l with
    phase := 1, runs := true, step := n, q := q, openAt := now
    firstOpen := if l.rerun then l.firstOpen else now
    epoch := epoch, eps := eps, epDone := [], closed := [], waitEpoch := none }

/-- A step opened in its leader's exchange at the present time, in the present epoch. -/
def openExchange (comp n q : Nat) (t : State) : State :=
  modLead comp (·.opening n q t.now t.img.epoch (t.liveEndpoints comp)) t

/-- The state with the step that is due opened at its leader outside replay, before any token of it is sent. -/
def leaderOpening (comp g : Nat) (s : State) : State :=
  modSit g (fun x => { x with ctrlHold := s.arch.cp = .restart })
    (openExchange comp (s.stepDue comp) (s.periodDue comp) (carry (s.leadOf comp).nextOpen s))

theorem leaderOpening_img (comp g : Nat) (s : State) : (leaderOpening comp g s).img = s.img := carry_img ..
theorem leaderOpening_fab (comp g : Nat) (s : State) : (leaderOpening comp g s).fab = s.fab := carry_fab ..
theorem leaderOpening_now (comp g : Nat) (s : State) : (leaderOpening comp g s).now = max s.now (s.leadOf comp).nextOpen :=
  carry_now ..

theorem leaderOpening_leadOf (comp g : Nat) (s : State) : (leaderOpening comp g s).leadOf comp
    = (s.leadOf comp).opening (s.stepDue comp) (s.periodDue comp) (max s.now (s.leadOf comp).nextOpen) s.img.epoch
        (s.liveEndpoints comp) := by
  have opened : (leaderOpening comp g s).leadOf comp = _ := leadOf_modLead_self ..
  rw [opened, carry_now, carry_img, liveEndpoints_congr (carry_img ..), leadOf_of_lead (carry_lead ..)]

/-- The state as it is while some endpoint awaited is not done. -/
theorem tryClose_of_awaiting {comp : Nat} {s : State} (h : s.allDone comp = false) (g : Nat) : tryClose comp g s = s := by
  unfold tryClose
  refine if_neg ?_
  rw [show (s.awaited comp).all (s.leadOf comp).epDone.contains = false from h, Bool.and_false]
  decide

section
variable {s : State} {comp g : Nat}

/-- The opening of a step that is due: `OPEN` goes to every live member and endpoint. -/
theorem leaderOpen_of_due (hsag : s.sagOfComp comp = some g) (hl : s.leads comp = true) (hp : (s.leadOf comp).phase = 0)
    (hf : s.compFenced comp = false) (hm : s.meterStops g = false) (hw : (s.leadOf comp).waitEpoch ≠ some s.img.epoch)
    (ho : (s.sitOf g).isOpen = false) (hr : (s.sitOf g).replay = false) (he : (s.sitOf g).enterDue = false) (held : Bool) :
    ∃ payload : List Byte, payload.length ≤ 512 ∧ leaderOpen comp held s
      = tryClose comp g (sendToken (memberNodes (leaderOpening comp g s) comp ++ (leaderOpening comp g s).liveEndpoints comp) g
          payload (leaderOpening comp g s)) := by
  have hgo : (!s.leads comp || decide ((s.leadOf comp).phase ≠ 0) || s.compFenced comp || s.meterStops g
      || decide ((s.leadOf comp).waitEpoch = some s.img.epoch) || (s.sitOf g).isOpen) = false := by
    simp [hl, hp, hf, hm, hw, ho]
  refine ⟨_, tokenBytes_length 1 comp (leaderOpening comp g s).img.epoch (s.leadOf comp).rerun false (s.stepDue comp)
    (s.periodDue comp) (s.leadOf comp).debt ((leaderOpening comp g s).myMember comp), ?_⟩
  unfold leaderOpen
  rw [hsag]
  dsimp only
  rw [hgo, if_neg Bool.false_ne_true, hr, he]
  simp only [Bool.or_self, Bool.false_and, Bool.false_eq_true, if_false]
  rfl

/-- A leader in replay opens nothing while some member lacks its record. -/
theorem leaderOpen_of_replay (hsag : s.sagOfComp comp = some g) (hr : (s.sitOf g).replay = true ∨ (s.sitOf g).enterDue = true)
    (he : (s.sitOf g).exitDue = false) : leaderOpen comp false s = s := by
  have hreplay : (((s.sitOf g).replay || (s.sitOf g).enterDue) && !(s.sitOf g).exitDue) = true := by
    rcases hr with h | h <;> simp [h, he]
  unfold leaderOpen
  rw [hsag]
  dsimp only
  rw [hreplay]
  split <;> rfl

/-- With endpoints to wait for, a step just opened is not done. -/
theorem opening_awaits (hne : s.liveEndpoints comp ≠ []) {n q now epoch : Nat} {l : SitLead} :
    ((l.opening n q now epoch (s.liveEndpoints comp)).eps.filter (fun n => !s.img.fences.contains n)).all
      (l.opening n q now epoch (s.liveEndpoints comp)).epDone.contains = false := by
  obtain ⟨e, he⟩ := List.exists_mem_of_ne_nil _ hne
  obtain ⟨-, hlive⟩ := List.mem_filter.mp he
  refine List.all_eq_false.mpr ⟨e, List.mem_filter.mpr ⟨he, hlive⟩, ?_⟩
  exact Bool.false_ne_true

/-- What the opening of a step that is due leaves at the leader. -/
theorem leaderOpening_spec (hne : s.liveEndpoints comp ≠ []) {payload : List Byte} (hlen : payload.length ≤ 512) {u : State}
    (hu : u = tryClose comp g (sendToken (memberNodes (leaderOpening comp g s) comp ++ (leaderOpening comp g s).liveEndpoints comp)
      g payload (leaderOpening comp g s))) :
    u.leadOf comp = (s.leadOf comp).opening (s.stepDue comp) (s.periodDue comp) (max s.now (s.leadOf comp).nextOpen)
        s.img.epoch (s.liveEndpoints comp)
      ∧ u.now = max s.now (s.leadOf comp).nextOpen
      ∧ ∃ l : List Packet, u.fab.tx = s.fab.tx ++ l ∧ l.map (·.dst) = memberNodes s comp ++ s.liveEndpoints comp := by
  rw [memberNodes_congr (leaderOpening_img ..), liveEndpoints_congr (leaderOpening_img ..)] at hu
  have sent := sendToken_sentTo hlen (memberNodes s comp ++ s.liveEndpoints comp) g (leaderOpening comp g s)
  generalize sendToken (memberNodes s comp ++ s.liveEndpoints comp) g payload (leaderOpening comp g s) = v at hu sent
  have hlead := (leadOf_of_lead sent.lead comp).trans (leaderOpening_leadOf comp g s)
  have himg : v.img = s.img := sent.img.trans (leaderOpening_img ..)
  have hawait : v.allDone comp = false := by
    rw [State.allDone, State.awaited, hlead, himg]
    exact opening_awaits hne
  rw [tryClose_of_awaiting hawait] at hu
  subst hu
  obtain ⟨l, htx, hl⟩ := sent.2
  exact ⟨hlead, sent.now.trans (leaderOpening_now ..), l, by rw [htx, leaderOpening_fab], hl⟩

end

/-! ## Endpoints that fall silent or are lost (R134, R160, R162) -/

theorem askFence_spec (node : Nat) (s : State) : (askFence node s).lead = s.lead ∧ (askFence node s).now = s.now
    ∧ (s.img.isCoord = true → node ∈ (askFence node s).img.nextFences)
    ∧ (s.img.isCoord = false → Out.ctrl s.img.coord (.fenceRequest node) ∈ (askFence node s).out) := by
  unfold askFence
  split
  next hc =>
    split
    next hm => exact ⟨rfl, rfl, fun _ => by simpa using hm, fun h => absurd (hc.symm.trans h) (by decide)⟩
    next => exact ⟨rfl, rfl, fun _ => List.mem_append_right _ List.mem_cons_self, fun h => absurd (hc.symm.trans h) (by decide)⟩
  next hc => exact ⟨rfl, rfl, fun h => absurd h hc, fun _ => List.mem_append_right _ List.mem_cons_self⟩

/-- An abort of the step in flight at its leader, which awaits the next epoch. -/
theorem abortStep_spec {comp g : Nat} {s : State} (hp : (s.leadOf comp).phase = 1 ∨ (s.leadOf comp).phase = 2) :
    (abortStep comp g true s).leadOf comp
        = { s.leadOf comp with phase := 3, closed := [], waitEpoch := some s.img.epoch }
      ∧ (abortStep comp g true s).img = s.img ∧ (abortStep comp g true s).now = s.now := by
  have hif : (decide ((s.leadOf comp).phase = 1) || decide ((s.leadOf comp).phase = 2)) = true := by simpa using hp
  unfold abortStep
  dsimp only
  rw [if_pos hif]
  have sent := sendToken_sentTo (tokenBytes_length 5 comp (s.leadOf comp).epoch (s.leadOf comp).rerun (s.sitOf g).replay
    (s.leadOf comp).step 0 0 (s.myMember comp)) (memberNodes s comp ++ s.liveEndpoints comp) g
    (modLead comp (fun l => { l with phase := 3, closed := [], waitEpoch := some s.img.epoch }) s)
  exact ⟨(leadOf_of_lead sent.lead comp).trans (leadOf_modLead_self ..), sent.img, sent.now⟩

section
variable {s : State} {comp g ep : Nat}

/-- The leader and an endpoint that it finds silent or lost while a step is in flight. -/
theorem endpointSilent_spec (hsag : s.sagOfComp comp = some g) (hl : s.leads comp = true)
    (hp : (s.leadOf comp).phase = 1 ∨ (s.leadOf comp).phase = 2) (he : (s.liveEndpoints comp).contains ep = true) {cause : Nat}
    {u : State} (hu : u = endpointSilent comp ep cause s) :
    (u.leadOf comp).phase = 3 ∧ (u.leadOf comp).closed = [] ∧ (u.leadOf comp).waitEpoch = some s.img.epoch ∧ u.now = s.now
      ∧ (s.img.isCoord = true → ep ∈ u.img.nextFences)
      ∧ (s.img.isCoord = false → Out.ctrl s.img.coord (.fenceRequest ep) ∈ u.out) := by
  have hgo : (!s.leads comp || !(s.liveEndpoints comp).contains ep) ≠ true := by rw [hl, he]; decide
  unfold endpointSilent at hu
  rw [hsag] at hu
  dsimp only at hu
  rw [if_neg hgo] at hu
  have logged := FlashApart.logEvent 0x0305 (s.myMember comp) (some g) [ep, cause] s
  generalize logEvent 0x0305 (s.myMember comp) (some g) [ep, cause] s = t at *
  have hlead := leadOf_of_lead (s := s) (t := t) (by rw [logged]) comp
  obtain ⟨aborted, img, now⟩ := abortStep_spec (g := g) (s := t) (by rw [hlead]; exact hp)
  have himg : (abortStep comp g true t).img = s.img := by rw [img, logged]
  obtain ⟨asked, anow, coord, other⟩ := askFence_spec ep (abortStep comp g true t)
  rw [himg] at coord other
  subst hu
  rw [leadOf_of_lead asked, aborted, anow, now]
  exact ⟨rfl, rfl, by rw [logged], by rw [logged], coord, other⟩

end

/-- Settles O27: an opening by what it leaves of the exchange and sends, a silent or lost endpoint by the abort. -/
theorem stepLeader : Obligations.StepLeader := by
  intro s comp g hcomp hsag hl
  refine ⟨fun hp hf hm hw ho hr he hne held => ?_, fun hr he => ?_, fun ep hep hp hd hlive hawait => ?_,
    fun ep hep hp hlive => ?_⟩
  · obtain ⟨payload, hlen, opened⟩ := leaderOpen_of_due hsag hl hp hf hm hw ho hr he held
    obtain ⟨hlead, hnow, sent⟩ := leaderOpening_spec hne hlen rfl
    have done : Completes (.leaderOpenDue ⟨comp, held⟩) s _ := run_ok (decide_eq_true hcomp) opened
    refine effect_of done ?_
    rw [hlead, hnow, ← stepDue_eq]
    exact ⟨rfl, rfl, rfl, rfl, rfl, rfl, rfl, rfl, rfl, rfl, rfl, sent⟩
  · exact run_ok (decide_eq_true hcomp) (leaderOpen_of_replay hsag hr he)
  · have hwf : (decide (comp < 2 ^ 24) && decide (ep < 65536)) = true := by rw [decide_eq_true hcomp, decide_eq_true hep]; rfl
    have hgo : (decide ((s.leadOf comp).phase = 1) && !(s.leadOf comp).epDone.contains ep && s.leads comp
        && (s.awaited comp).contains ep) = true := by rw [decide_eq_true hp, hd, hl, hawait]; rfl
    have done : Completes (.epWaitExpiry comp ep) s _ := run_ok hwf (if_pos hgo)
    have hlead := leadOf_of_lead (carry_lead ((s.leadOf comp).openAt + aclk (2 ^ s.compParam comp 0x0107) + aclk 1) s) comp
    obtain ⟨hphase, -, hwait, hnow, coord, other⟩ := endpointSilent_spec (ep := ep) (cause := 1)
      (s := carry ((s.leadOf comp).openAt + aclk (2 ^ s.compParam comp 0x0107) + aclk 1) s)
      ((sagOfComp_congr (carry_img ..) (carry_fab ..) comp).trans hsag)
      ((leads_congr (carry_img ..) (carry_fab ..) (carry_sit ..) comp).trans hl) (by rw [hlead]; exact .inl hp)
      (by rw [liveEndpoints_congr (carry_img ..)]; exact hlive) rfl
    rw [carry_img] at hwait coord other
    rw [carry_now] at hnow
    exact effect_of done ⟨hphase, hwait, hnow, coord, other⟩
  · have hwf : (decide (comp < 2 ^ 24) && decide (ep < 65536)) = true := by rw [decide_eq_true hcomp, decide_eq_true hep]; rfl
    have done : Completes (.epLost comp ep) s (endpointSilent comp ep 2 s) := run_ok hwf rfl
    obtain ⟨hphase, hclosed, hwait, -, coord, other⟩ := endpointSilent_spec hsag hl hp hlive (cause := 2) rfl
    exact effect_of done ⟨hphase, hclosed, hwait, coord, other⟩

end Sys2Proof.Machine
end

section
namespace Sys2Proof.Machine

/-! ## Dispatches (R131, R138, R140) -/

section
variable {s : State} {p : Packet}

theorem dispatchTrain_of_absent (h : s.variant.arrays = 0) : dispatchTrain p s = reply p .unitAbsent 0 [] (take p s) :=
  if_pos h

theorem dispatchTrain_of_refused (ha : s.variant.arrays ≠ 0) {st : Status} {h : Nat} (hr : s.stepRefusal p = some (st, h)) :
    dispatchTrain p s = reply p st h [] (unhold p (take p s)) := by
  unfold dispatchTrain
  dsimp only
  rw [if_neg ha, hr]

theorem dispatchTrain_of_bad (ha : s.variant.arrays ≠ 0) (hr : s.stepRefusal p = none) (hb : s.dispatchBad p = true) :
    dispatchTrain p s = reply p .denied 0 [] (unhold p (take p s)) := by
  unfold dispatchTrain
  dsimp only
  rw [if_neg ha, hr]
  exact if_pos hb

/-- A dispatch for its expert's home that passes every row, and for the open step, joins its expert's tokens. -/
theorem dispatchTrain_of_open (ha : s.variant.arrays ≠ 0) (hr : s.stepRefusal p = none) (hb : s.dispatchBad p = false)
    (hf : dhFwd p = false)
    (hh : s.homeOf p.saggar (s.expert p.saggar (dhLayer p) (dhExpert p)) = s.myMember (s.sagComp p.saggar))
    (hn : (s.sitOf p.saggar).held.contains p = false)
    (hroom : s.dispatchBytes p.saggar + p.payload.length ≤ s.sagParam p.saggar 0x0304 * 2 ^ 20)
    (hs : s.stepCheck p.saggar (dhStep p) = .open_) (hab : (s.sitOf p.saggar).aborted = false) :
    dispatchTrain p s = settleLayers p.saggar (joinToken p.saggar p (reply p .ok 0 [] (take p s))) := by
  have taken : unhold p (take p s) = take p s := if_neg (ne_true_of_eq_false hn)
  have go : (decide (s.stepCheck p.saggar (dhStep p) = .next) || (s.sitOf p.saggar).aborted) = false := by
    rw [hs, hab]; decide
  unfold dispatchTrain
  simp only [if_neg ha, hr, hb, hf, hh, hn, decide_eq_true hroom, go, taken, Bool.false_eq_true, if_false, ne_eq,
    not_true_eq_false, Bool.not_true]

end

/-- An answer `OK` without data, which is not counted. -/
theorem reply_ok_short (p : Packet) (s : State) : reply p .ok 0 [] s = addTx (stampPkt (mkAnswer p .ok 0 [] s)) s :=
  reply_short p .ok 0 s

/-- A member's part with a token just joined, before a choice or a full batch takes it on. -/
def SitSag.joined (p : Packet) (x : SitSag) : SitSag :=
  { x with
    dispatched := amod x.dispatched (dhLayer p, dhExpert p) 0 (· + 1)
    pend := if x.pend.any (fun b => b.layer = dhLayer p && b.expert = dhExpert p) then
        x.pend.map (fun (b : Batch) => if b.layer = dhLayer p ∧ b.expert = dhExpert p then { b with toks := b.toks ++ [p] } else b)
      else x.pend ++ [{ layer := dhLayer p, expert := dhExpert p, toks := [p] }] }

theorem joined_of_no_pend {x : SitSag} (h : x.pend = []) (p : Packet) :
    (x.joined p).pend = [{ layer := dhLayer p, expert := dhExpert p, toks := [p] }] := by
  simp [SitSag.joined, h]

/-- A choice supplied for the expert in replay enters the record (R157). -/
def enterSupplied (g l e : Nat) (s : State) : State :=
  match (if (s.sitOf g).replay then s.suppliedChoice g l e else none) with
  | some c =>
    if (s.sitOf g).choices.any (fun y => y.layer = l && y.expert = e) then s else
    modSit g (fun x => { x with choices := x.choices ++ [{
      layer := l, expert := e, policy := bits c.1 28 2, role := bits c.1 30 1, forced := true
      cutCycle := bits c.2 0 32, missing := bits c.2 32 32 }] }) s
  | none => s

theorem enterSupplied_of_normal {g : Nat} {s : State} (h : (s.sitOf g).replay = false) (l e : Nat) : enterSupplied g l e s = s := by
  unfold enterSupplied
  rw [h]
  rfl

/-- A choice of the expert, or a firing of its layer's cut-off, covers a token that comes after it (R148). -/
def coverToken (g l e : Nat) (s : State) : State :=
  match (s.sitOf g).choices.find? (fun c => c.layer = l && c.expert = e) with
  | some c =>
    applyPolicy g l e (if (s.sitOf g).replay && c.policy = 2 then 0 else c.policy)
      (modSit g (fun x => { x with choices := x.choices.map (fun (y : Choice) =>
        if y.layer = l ∧ y.expert = e then { y with tokens := y.tokens + 1 } else y) }) s)
  | none => if !(s.sitOf g).replay && (s.sitOf g).cutLayers.contains l && s.missing g l e ≠ 0 then fire g l e s else s

theorem coverToken_of_none {g : Nat} {s : State} (hc : (s.sitOf g).choices = []) (hl : (s.sitOf g).cutLayers = []) (l e : Nat) :
    coverToken g l e s = s := by
  unfold coverToken
  rw [hc, hl]
  simp

/-- A batch that the token fills, or that its layer's batch-close point has passed, forms (R141). -/
def formDue (g l e : Nat) (s : State) : State :=
  if (s.sitOf g).began.contains (l, e) then nextBatch g l e s
  else if (s.sitOf g).pend.any (fun b => b.layer = l && b.expert = e && decide (s.sagParam g 0x0301 ≤ b.toks.length))
      || (s.sitOf g).closedLayers.contains l then formBatch g l e s else s

theorem formDue_of_room {g l e : Nat} {s : State} (hb : (s.sitOf g).began = []) (hc : (s.sitOf g).closedLayers = [])
    (hp : ∀ b ∈ (s.sitOf g).pend, b.toks.length < s.sagParam g 0x0301) : formDue g l e s = s := by
  have notFull : (s.sitOf g).pend.any (fun b => b.layer = l && b.expert = e && decide (s.sagParam g 0x0301 ≤ b.toks.length))
      = false := List.any_eq_false.mpr fun b hb => by simp [Nat.not_le.mpr (hp b hb)]
  unfold formDue
  rw [hb, hc, notFull]
  rfl

theorem joinToken_eq (g : Nat) (p : Packet) (s : State) : joinToken g p s = formDue g (dhLayer p) (dhExpert p)
    (coverToken g (dhLayer p) (dhExpert p) (enterSupplied g (dhLayer p) (dhExpert p) (modSit g (·.joined p) s))) := rfl

/-- A first token of a step outside replay waits in the pending batch, where batches hold more than one. -/
theorem joinToken_of_first {g : Nat} {p : Packet} {s : State} (hr : (s.sitOf g).replay = false) (hc : (s.sitOf g).choices = [])
    (hcut : (s.sitOf g).cutLayers = []) (hclosed : (s.sitOf g).closedLayers = []) (hp : (s.sitOf g).pend = [])
    (hb : (s.sitOf g).began = []) (ht : 1 < s.sagParam g 0x0301) : joinToken g p s = modSit g (·.joined p) s := by
  have hsit : (modSit g (·.joined p) s).sitOf g = (s.sitOf g).joined p := sitOf_modSit_self ..
  rw [joinToken_eq, enterSupplied_of_normal (by rw [hsit]; exact hr),
    coverToken_of_none (by rw [hsit]; exact hc) (by rw [hsit]; exact hcut)]
  refine formDue_of_room (by rw [hsit]; exact hb) (by rw [hsit]; exact hclosed) fun b hmem => ?_
  rw [hsit, joined_of_no_pend hp, List.mem_singleton] at hmem
  rw [hmem]
  exact ht

/-! ## The saggar's layers after each change of them (R145, R146) -/

/-- What freeing a layer's tiles leaves. -/
theorem freeLayers_sitOf (g : Nat) (s : State) : ∃ t r, (freeLayers g s).sitOf g = { s.sitOf g with tiles := t, refused := r } :=
  ⟨_, _, sitOf_modSit_self ..⟩

theorem settleLayers_sitOf (g : Nat) (s : State) :
    ∃ t r, (settleLayers g s).sitOf g = { s.sitOf g with tiles := t, refused := r } := by
  obtain ⟨t, r, h⟩ := freeLayers_sitOf g s
  exact ⟨t, r, (sitOf_of_sit (streamWindow_sit ..) g).trans h⟩

/-- Two states that differ at most in the Sitter's part and the pool. -/
def SitTieApart (s t : State) : Prop := t = { s with sit := t.sit, tie := t.tie }

theorem SitTieApart.trans {s t u : State} (h : SitTieApart s t) (k : SitTieApart t u) : SitTieApart s u := by
  unfold SitTieApart at *; rw [k, h]

theorem settleLayers_apart (g : Nat) (s : State) : SitTieApart s (settleLayers g s) := by
  refine SitTieApart.trans (t := freeLayers g s) rfl ?_
  unfold settleLayers SitTieApart
  rw [TieApart.streamWindow g (freeLayers g s)]

/-! ## Batches that form (R141) -/

/-- A member's part with a batch formed of an expert's pending tokens. -/
def SitSag.formed (layer expert : Nat) (x : SitSag) : SitSag :=
  match x.pend.find? (fun b => b.layer = layer && b.expert = expert) with
  | none => x
  | some b =>
    let last := (x.batches.filter (fun b => b.layer = layer && b.expert = expert)).getLast?
    { x with
      pend := x.pend.filter (fun b => !(b.layer = layer && b.expert = expert))
      batches := x.batches ++ [{ b with id := x.nextBatch, bank := match last with | some y => 1 - y.bank | none => 0 }]
      nextBatch := x.nextBatch + 1
      began := if x.began.contains (layer, expert) then x.began else x.began ++ [(layer, expert)] }

theorem formBatch_eq (g layer expert : Nat) (s : State) : formBatch g layer expert s = modSit g (·.formed layer expert) s := rfl

/-- A formed batch leaves no token of its expert pending. -/
theorem mem_formed_pend {layer expert : Nat} {x : SitSag} {b : Batch} (h : b ∈ (x.formed layer expert).pend) :
    b ∈ x.pend ∧ ¬ (b.layer = layer ∧ b.expert = expert) := by
  unfold SitSag.formed at h
  split at h
  next hn =>
    refine ⟨h, ?_⟩
    simpa using List.find?_eq_none.mp hn b h
  next =>
    obtain ⟨hm, hne⟩ := List.mem_filter.mp h
    exact ⟨hm, not_and_or.mpr (by simpa using hne)⟩

theorem formed_closedLayers (layer expert : Nat) (x : SitSag) : (x.formed layer expert).closedLayers = x.closedLayers := by
  unfold SitSag.formed
  split <;> rfl

/-- Batches formed of each expert of a list, in a layer. -/
theorem formBatches_spec (g layer : Nat) (l : List Batch) (s : State) {u : State}
    (hu : u = forEach l (fun b s => formBatch g layer b.expert s) s) :
    SitTieApart s u ∧ (u.sitOf g).closedLayers = (s.sitOf g).closedLayers
      ∧ ∀ b ∈ (u.sitOf g).pend, b ∈ (s.sitOf g).pend ∧ ∀ c ∈ l, ¬ (b.layer = layer ∧ b.expert = c.expert) := by
  induction l generalizing s with
  | nil => subst hu; exact ⟨rfl, rfl, fun b hb => ⟨hb, fun c hc => absurd hc List.not_mem_nil⟩⟩
  | cons c r ih =>
    obtain ⟨hapart, hclosed, hpend⟩ := ih (formBatch g layer c.expert s) hu
    have formed : (formBatch g layer c.expert s).sitOf g = (s.sitOf g).formed layer c.expert := sitOf_modSit_self ..
    rw [formed] at hclosed hpend
    refine ⟨SitTieApart.trans (t := formBatch g layer c.expert s) rfl hapart, hclosed.trans (formed_closedLayers ..),
      fun b hb => ?_⟩
    obtain ⟨hb1, hrest⟩ := hpend b hb
    obtain ⟨hb0, hc⟩ := mem_formed_pend hb1
    exact ⟨hb0, fun d hd => (List.mem_cons.mp hd).elim (fun e => e ▸ hc) (hrest d)⟩

/-! ## The batch-close point of a layer (R141) -/

/-- A layer past its batch-close point, before any batch forms. -/
def closeLayer (g layer : Nat) (s : State) : State :=
  modSit g (fun x => { x with closedLayers := x.closedLayers ++ [layer] })
    (carry (s.fracTime g (s.expert g layer 0).bcloseFrac) s)

/-- The pending batches that a layer's batch-close point forms. -/
def SitSag.closable (layer : Nat) (x : SitSag) : List Batch :=
  x.pend.filter (fun b => b.layer = layer && !x.began.contains (layer, b.expert))

theorem batchClosePoint_of_open {g layer : Nat} {s : State} (ho : (s.sitOf g).isOpen = true)
    (hc : (s.sitOf g).closedLayers.contains layer = false) (hl : layer < s.layers g) : batchClosePoint g layer s
      = settleLayers g (forEach ((s.sitOf g).closable layer) (fun b s => formBatch g layer b.expert s) (closeLayer g layer s)) := by
  refine if_neg ?_
  rw [ho, hc, decide_eq_false (Nat.not_le.mpr hl)]
  decide

theorem closeLayer_sitOf (g layer : Nat) (s : State) : (closeLayer g layer s).sitOf g
    = { s.sitOf g with closedLayers := (s.sitOf g).closedLayers ++ [layer] } := by
  have carried := sitOf_of_sit (carry_sit (s.fracTime g (s.expert g layer 0).bcloseFrac) s) g
  exact (sitOf_modSit_self ..).trans (by rw [carried])

theorem batchClosePoint_spec {g layer : Nat} {s u : State}
    (hu : u = settleLayers g (forEach ((s.sitOf g).closable layer) (fun b s => formBatch g layer b.expert s) (closeLayer g layer s))) :
    (u.sitOf g).closedLayers = (s.sitOf g).closedLayers ++ [layer]
      ∧ (∀ b ∈ (u.sitOf g).pend, b.layer ≠ layer ∨ (s.sitOf g).began.contains (layer, b.expert) = true)
      ∧ u.now = max s.now (s.fracTime g (s.expert g layer 0).bcloseFrac)
      ∧ u = { carry (s.fracTime g (s.expert g layer 0).bcloseFrac) s with sit := u.sit, tie := u.tie } := by
  obtain ⟨happ, hclosed, hpend⟩ := formBatches_spec g layer ((s.sitOf g).closable layer) (closeLayer g layer s) rfl
  rw [closeLayer_sitOf] at hclosed hpend
  have apart : SitTieApart (carry (s.fracTime g (s.expert g layer 0).bcloseFrac) s) u := by
    rw [hu]
    exact SitTieApart.trans (t := closeLayer g layer s) rfl (happ.trans (settleLayers_apart ..))
  obtain ⟨t, r, settled⟩ := settleLayers_sitOf g
    (forEach ((s.sitOf g).closable layer) (fun b s => formBatch g layer b.expert s) (closeLayer g layer s))
  rw [← hu] at settled
  refine ⟨by rw [settled]; exact hclosed, fun b hb => ?_, ?_, apart⟩
  · rw [settled] at hb
    obtain ⟨hmem, hnot⟩ := hpend b hb
    by_cases hlayer : b.layer = layer
    · refine .inr (by_contra fun hbegan => hnot b ?_ ⟨hlayer, rfl⟩)
      exact List.mem_filter.mpr ⟨hmem, by simpa [hlayer] using hbegan⟩
    · exact .inl hlayer
  · rw [apart]; exact carry_now ..

end Sys2Proof.Machine
end

section
namespace Sys2Proof.Machine

/-! ## Contributions and forwards leave the layers and batches (R143, R148) -/

/-- Two states at one time in which a saggar's part differs at most in the contributions on their way. -/
def OutboxApart (g : Nat) (s t : State) : Prop :=
  t.now = s.now ∧ ∃ o c, t.sitOf g = { s.sitOf g with outbox := o, contribs := c }

namespace OutboxApart
variable {g : Nat}

theorem of_sit {s t : State} (hn : t.now = s.now) (hs : t.sit = s.sit) : OutboxApart g s t := ⟨hn, _, _, sitOf_of_sit hs g⟩

theorem refl (s : State) : OutboxApart g s s := of_sit rfl rfl

theorem trans {s t u : State} (h : OutboxApart g s t) (k : OutboxApart g t u) : OutboxApart g s u := by
  obtain ⟨hn, o, c, hs⟩ := h
  obtain ⟨kn, o', c', ks⟩ := k
  exact ⟨kn.trans hn, o', c', by rw [ks, hs]⟩

theorem overLoop {α : Type} {f : α → State → State} (h : ∀ a s, OutboxApart g s (f a s)) (l : List α) (s : State) :
    OutboxApart g s (forEach l f s) :=
  forEach_rel refl trans h l s

theorem pumpOutbox (s : State) : OutboxApart g s (pumpOutbox g s) := by
  refine overLoop (fun p s => ?_) _ s
  split
  · have sent : OutboxApart g s (issue .control p s) := of_sit rfl rfl
    exact sent.trans ⟨rfl, _, _, sitOf_modSit_self ..⟩
  · exact refl s

theorem contribute (p : Packet) (elems : List Byte) (dropped : Bool) (s : State) :
    OutboxApart g s (contribute g p elems dropped s) := by
  have queued : OutboxApart g s
      (modSit g (fun x => { x with outbox := x.outbox ++ contribPackets p g elems dropped }) s) :=
    ⟨rfl, _, _, sitOf_modSit_self ..⟩
  exact queued.trans (pumpOutbox _)

theorem forwardToken (p : Packet) (s : State) : OutboxApart g s (forwardToken g p s) := of_sit rfl rfl

end OutboxApart

/-! ## The cut-off of a layer (R146, R148) -/

theorem bumpSat_now (f : Nat × Nat) (s : State) : (bumpSat f s).now = s.now := by
  unfold bumpSat
  dsimp only
  split
  · exact logEvent_now ..
  · rfl

/-- Two states at one time with the same layers of a saggar past their cut-off. -/
def CutsKept (g : Nat) (s t : State) : Prop := t.now = s.now ∧ (t.sitOf g).cutLayers = (s.sitOf g).cutLayers

namespace CutsKept
variable {g : Nat}

theorem refl (s : State) : CutsKept g s s := ⟨rfl, rfl⟩

theorem trans {s t u : State} (h : CutsKept g s t) (k : CutsKept g t u) : CutsKept g s u :=
  ⟨k.1.trans h.1, k.2.trans h.2⟩

theorem overLoop {α : Type} {f : α → State → State} (h : ∀ a s, CutsKept g s (f a s)) (l : List α) (s : State) :
    CutsKept g s (forEach l f s) :=
  forEach_rel refl trans h l s

theorem of_outbox {s t : State} (h : OutboxApart g s t) : CutsKept g s t := by
  obtain ⟨hn, o, c, hs⟩ := h
  exact ⟨hn, by rw [hs]⟩

theorem modSit (f : SitSag → SitSag) (s : State) (hf : ∀ x, (f x).cutLayers = x.cutLayers := by exact fun _ => rfl) :
    CutsKept g s (modSit g f s) :=
  ⟨rfl, by rw [sitOf_modSit_self, hf]⟩

theorem bumpSat (f : Nat × Nat) (s : State) : CutsKept g s (bumpSat f s) :=
  ⟨bumpSat_now f s, by rw [sitOf_of_sit (bumpSat_sit f s)]⟩

theorem applyPolicy (layer expert policy : Nat) (s : State) : CutsKept g s (applyPolicy g layer expert policy s) := by
  have dropped : CutsKept g s (dropToks g layer expert s) := modSit _ s
  unfold Machine.applyPolicy
  dsimp only
  split
  · exact modSit _ s
  · exact dropped.trans (overLoop (fun p s => of_outbox (OutboxApart.forwardToken p s)) _ _)
  · exact dropped.trans (overLoop (fun p s => of_outbox (OutboxApart.contribute ..)) _ _)
  · exact refl s

theorem fire (layer expert : Nat) (s : State) : CutsKept g s (fire g layer expert s) := by
  unfold Machine.fire
  dsimp only
  split
  · exact refl s
  · exact ((modSit _ s).trans (bumpSat ..)).trans (applyPolicy ..)

theorem settleLayers (s : State) : CutsKept g s (settleLayers g s) := by
  obtain ⟨t, r, h⟩ := settleLayers_sitOf g s
  exact ⟨by rw [settleLayers_apart g s], by rw [h]⟩

end CutsKept

/-- A layer past its cut-off, before any policy fires. -/
def cutLayer (g layer : Nat) (s : State) : State :=
  modSit g (fun x => { x with cutLayers := x.cutLayers ++ [layer] }) (carry (s.fracTime g (s.expert g layer 0).cutFrac) s)

theorem cutLayer_spec (g layer : Nat) (s : State) : ((cutLayer g layer s).sitOf g).cutLayers = (s.sitOf g).cutLayers ++ [layer]
    ∧ (cutLayer g layer s).now = max s.now (s.fracTime g (s.expert g layer 0).cutFrac) := by
  have carried := sitOf_of_sit (carry_sit (s.fracTime g (s.expert g layer 0).cutFrac) s) g
  have hsit : (cutLayer g layer s).sitOf g = _ := sitOf_modSit_self ..
  exact ⟨by rw [hsit, carried], carry_now ..⟩

/-- An open layer's cut-off is recorded at its time, whatever fires. -/
theorem cutOff_spec {g layer : Nat} {s : State} (ho : (s.sitOf g).isOpen = true)
    (hc : (s.sitOf g).cutLayers.contains layer = false) (hl : layer < s.layers g) : CutsKept g (cutLayer g layer s) (cutOff g layer s) := by
  have hgo : (!(s.sitOf g).isOpen || (s.sitOf g).cutLayers.contains layer || decide (s.layers g ≤ layer)) ≠ true := by
    rw [ho, hc, decide_eq_false (Nat.not_le.mpr hl)]
    decide
  unfold cutOff
  dsimp only
  rw [if_neg hgo]
  refine CutsKept.trans ?_ (CutsKept.settleLayers _)
  split
  · exact CutsKept.refl _
  · refine CutsKept.overLoop (fun e s => ?_) _ _
    split
    · exact CutsKept.fire ..
    · exact CutsKept.refl s

/-! ## Batches that are issued (R141, R142) -/

/-- Every batch of a saggar numbered `i` has been issued, but for batches formed since the next number was `n`. -/
def IssuedSince (g i n : Nat) (s : State) : Prop :=
  (∀ c ∈ (s.sitOf g).batches, c.id = i → c.issued = true ∨ n ≤ c.id) ∧ n ≤ (s.sitOf g).nextBatch

namespace IssuedSince
variable {g i n : Nat}

theorem of_sit {s t : State} (hs : t.sit = s.sit) (h : IssuedSince g i n s) : IssuedSince g i n t := by
  unfold IssuedSince
  rw [sitOf_of_sit hs]
  exact h

theorem of_outbox {s t : State} (k : OutboxApart g s t) (h : IssuedSince g i n s) : IssuedSince g i n t := by
  obtain ⟨-, o, c, hs⟩ := k
  unfold IssuedSince
  rw [hs]
  exact h

/-- A batch issued takes its place in the list. -/
theorem setBatch {b : Batch} (hb : b.issued = true) {s : State} (h : IssuedSince g i n s) :
    IssuedSince g i n (setBatch g b s) := by
  unfold IssuedSince Machine.setBatch
  rw [sitOf_modSit_self]
  refine ⟨fun c hc hi => ?_, h.2⟩
  obtain ⟨d, hd, rfl⟩ := List.mem_map.mp hc
  split at hi
  next hid => rw [if_pos hid]; exact .inl hb
  next hid => rw [if_neg hid]; exact h.1 d hd hi

theorem formBatch (layer expert : Nat) {s : State} (h : IssuedSince g i n s) : IssuedSince g i n (formBatch g layer expert s) := by
  rw [formBatch_eq]
  unfold IssuedSince
  rw [sitOf_modSit_self]
  unfold SitSag.formed
  split
  · exact h
  · refine ⟨fun c hc hi => ?_, Nat.le_succ_of_le h.2⟩
    rcases List.mem_append.mp hc with hold | hnew
    · exact h.1 c hold hi
    · rw [List.mem_singleton.mp hnew]
      exact .inr h.2

theorem nextBatch (layer expert : Nat) {s : State} (h : IssuedSince g i n s) : IssuedSince g i n (nextBatch g layer expert s) := by
  unfold Machine.nextBatch
  dsimp only
  split
  · exact formBatch layer expert h
  · exact h

theorem finishBatch (b : Batch) {s : State} (h : IssuedSince g i n s) : IssuedSince g i n (finishBatch g b s) := by
  have gone : IssuedSince g i n (modSit g (fun x => { x with batches := x.batches.filter (fun y => y.id ≠ b.id) }) s) := by
    unfold IssuedSince
    rw [sitOf_modSit_self]
    exact ⟨fun c hc => h.1 c (List.mem_filter.mp hc).1, h.2⟩
  unfold Machine.finishBatch
  dsimp only
  split
  · exact gone
  · exact of_outbox (OutboxApart.overLoop (fun k s => OutboxApart.contribute ..) _ _) gone

end IssuedSince

theorem shelfWrite_sit (g off : Nat) (bs : List Byte) (s : State) : (shelfWrite g off bs s).sit = s.sit := by
  rw [ShelfApart.shelfWrite g off bs s]

theorem writeCpl_sit (g : Nat) (d rec : List Byte) (s : State) : (writeCpl g d rec s).sit = s.sit :=
  sit_of_ite (shelfWrite_sit ..) rfl

theorem joinGroup_sit (d : List Byte) (s : State) : (joinGroup d s).2.sit = s.sit := by
  unfold joinGroup
  split
  · rfl
  · split <;> rfl

theorem presentJob_sit (d : List Byte) (iss : Issuer) (g : Nat) (f : Int) (s : State) : (presentJob d iss g f s).2.sit = s.sit := by
  unfold presentJob
  split
  · exact writeCpl_sit ..
  · exact joinGroup_sit ..

/-- Issuing what can be issued of a batch keeps the Sitter's part, and the batch its number and that it is issued. -/
theorem pumpBatch_spec (g fuel : Nat) (b : Batch) (s : State) : (pumpBatch g fuel b s).2.sit = s.sit
    ∧ (pumpBatch g fuel b s).1.id = b.id ∧ (pumpBatch g fuel b s).1.issued = b.issued := by
  induction fuel generalizing b s with
  | zero => exact ⟨rfl, rfl, rfl⟩
  | succ fuel ih =>
    have onward : ∀ (c : Batch) (t : State), t.sit = s.sit → c.id = b.id → c.issued = b.issued →
        (pumpBatch g fuel c t).2.sit = s.sit ∧ (pumpBatch g fuel c t).1.id = b.id
          ∧ (pumpBatch g fuel c t).1.issued = b.issued := fun c t ht hid his => by
      obtain ⟨hs, hi, hb⟩ := ih c t
      exact ⟨hs.trans ht, hi.trans hid, hb.trans his⟩
    unfold pumpBatch
    split
    · exact ⟨rfl, rfl, rfl⟩
    · split
      · exact ⟨rfl, rfl, rfl⟩
      · split
        · dsimp only
          split
          · exact ⟨rfl, rfl, rfl⟩
          · exact ⟨rfl, rfl, rfl⟩
        · split
          · exact ⟨rfl, rfl, rfl⟩
          · dsimp only
            split
            · exact onward _ _ (writeCpl_sit ..) rfl rfl
            · split
              · exact ⟨rfl, rfl, rfl⟩
              · split
                next h => exact onward _ _ (sit_of_eq h (presentJob_sit ..)) rfl rfl
                next h => exact onward _ _ (sit_of_eq h (presentJob_sit ..)) rfl rfl

/-- What the loop over the issued batches does with one of them. -/
def carryBatch (g : Nat) (b : Batch) (s : State) : State :=
  match pumpBatch g b.left.length b s with
  | (b, s) =>
    let s := setBatch g b s
    let s := if b.left.isEmpty && b.running = 0 && !b.callOut then finishBatch g b s else s
    nextBatch g b.layer b.expert s

theorem pumpBatches_eq (g : Nat) (s : State) :
    pumpBatches g s = forEach ((s.sitOf g).batches.filter (·.issued)) (carryBatch g) s := by
  unfold pumpBatches
  congr 1

theorem carryBatch_of_pump {g : Nat} {b c : Batch} {s v : State} (h : pumpBatch g b.left.length b s = (c, v)) :
    carryBatch g b s = nextBatch g c.layer c.expert
      (if c.left.isEmpty && c.running = 0 && !c.callOut then finishBatch g c (setBatch g c v) else setBatch g c v) := by
  unfold carryBatch
  rw [h]

theorem forEach_keeps_of_mem {α : Type} {P : State → Prop} {f : α → State → State} (l : List α)
    (h : ∀ a ∈ l, ∀ s, P s → P (f a s)) : ∀ s, P s → P (forEach l f s) := by
  induction l with
  | nil => exact fun _ hs => hs
  | cons a l ih =>
    intro s hs
    exact ih (fun b hb => h b (List.mem_cons_of_mem _ hb)) _ (h a List.mem_cons_self s hs)

theorem IssuedSince.carryBatch {g i n : Nat} {b : Batch} (hb : b.issued = true) {s : State} (h : IssuedSince g i n s) :
    IssuedSince g i n (carryBatch g b s) := by
  obtain ⟨hsit, -, his⟩ := pumpBatch_spec g b.left.length b s
  generalize hr : pumpBatch g b.left.length b s = r at hsit his
  obtain ⟨c, v⟩ := r
  rw [carryBatch_of_pump hr]
  have carried := (h.of_sit hsit).setBatch (his.trans hb)
  refine nextBatch _ _ ?_
  split
  · exact finishBatch _ carried
  · exact carried

/-- Carrying the issued batches on leaves them issued. -/
theorem IssuedSince.pumpBatches {g i n : Nat} {s : State} (h : IssuedSince g i n s) : IssuedSince g i n (pumpBatches g s) := by
  rw [pumpBatches_eq]
  exact forEach_keeps_of_mem _ (fun b hb t ht => ht.carryBatch (List.mem_filter.mp hb).2) s h

/-- The vector and the gate weight of a batch's i-th token laid out on the shelf. -/
def layToken (g : Nat) (b : Batch) (pr : Config.PlanProgram) (i : Nat) (s : State) : State :=
  shelfWrite g (pr.gates + 4 * i) (natLe (dhGate (b.toks.getD i {})) 4)
    (shelfWrite g (pr.input + i * pr.vecBytes) (dhVector (b.toks.getD i {})) s)

theorem layToken_sit (g : Nat) (b : Batch) (pr : Config.PlanProgram) (i : Nat) (s : State) :
    (layToken g b pr i s).sit = s.sit := by
  unfold layToken
  rw [shelfWrite_sit, shelfWrite_sit]

/-- The token vectors and gate weights of a batch laid out on the shelf (R142). -/
def layOut (g : Nat) (b : Batch) (pr : Config.PlanProgram) (s : State) : State :=
  forEach (List.range b.toks.length) (layToken g b pr) s

theorem layOut_sit (g : Nat) (b : Batch) (pr : Config.PlanProgram) (s : State) : (layOut g b pr s).sit = s.sit := by
  unfold layOut
  exact sit_of_steps (layToken_sit g b pr) _ s

/-- The batches of an expert. -/
def SitSag.batchesOf (layer expert : Nat) (x : SitSag) : List Batch :=
  x.batches.filter (fun b => b.layer = layer && b.expert = expert)

section
variable {g layer expert : Nat} {b : Batch} {s : State}

theorem batchRun_of_ready (ha : (s.sitOf g).aborted = false)
    (hleft : ((s.sitOf g).batchesOf layer expert).any (fun b => b.issued && !b.left.isEmpty) = false)
    (hb : ((s.sitOf g).batchesOf layer expert).find? (fun b => !b.issued) = some b) (hr : s.batchReady g b = true)
    (hbank : ((s.sitOf g).batchesOf layer expert).any (fun y => y.issued && y.bank = b.bank) = false) :
    batchRun g layer expert s = pumpBatches g (setBatch g
      { b with
        issued := true
        left := if b.bisque then (s.progOf g layer expert b.bank).bisque else (s.progOf g layer expert b.bank).records }
      (layOut g b (s.progOf g layer expert b.bank) s)) := by
  unfold SitSag.batchesOf at *
  unfold batchRun
  dsimp only
  rw [hleft, ha, if_neg (by decide), hb]
  dsimp only
  rw [hr, hbank, if_neg (by decide)]
  rfl

theorem batchRun_of_waiting (ha : (s.sitOf g).aborted = false)
    (hleft : ((s.sitOf g).batchesOf layer expert).any (fun b => b.issued && !b.left.isEmpty) = false)
    (hb : ((s.sitOf g).batchesOf layer expert).find? (fun b => !b.issued) = some b)
    (hw : s.batchReady g b = false ∨ ((s.sitOf g).batchesOf layer expert).any (fun y => y.issued && y.bank = b.bank) = true) :
    batchRun g layer expert s = s := by
  unfold SitSag.batchesOf at *
  unfold batchRun
  dsimp only
  rw [hleft, ha, if_neg (by decide), hb]
  refine if_pos ?_
  rcases hw with h | h <;> rw [h]
  · rfl
  · exact Bool.or_true _

/-- The oldest formed batch that is ready, and whose area is free, is issued. -/
theorem issued_of_batchRun {c : Batch} {pr : Config.PlanProgram} {u : State}
    (hu : u = pumpBatches g (setBatch g c (layOut g b pr s))) (hid : c.id = b.id) (his : c.issued = true) :
    ∀ c ∈ (u.sitOf g).batches, c.id = b.id → c.issued = true ∨ (s.sitOf g).nextBatch ≤ c.id := by
  subst hu
  have laid := sitOf_of_sit (layOut_sit g b pr s) g
  have start : IssuedSince g b.id (s.sitOf g).nextBatch (setBatch g c (layOut g b pr s)) := by
    unfold IssuedSince setBatch
    rw [sitOf_modSit_self, laid]
    refine ⟨fun d hd hi => .inl ?_, Nat.le_refl _⟩
    obtain ⟨y, -, rfl⟩ := List.mem_map.mp hd
    split at hi
    next h => rw [if_pos h]; exact his
    next h => exact absurd (hi.trans hid.symm) h
  exact start.pumpBatches.1

end

/-! ## The staging of expert tiles (R145, R219, R493) -/

/-- The state in which a tile is copied: a tile from T3 takes a step of the fallback order while T2 is short. -/
def beforeFill (g : Nat) (t : Config.PlanTile) (s : State) : State :=
  if s.tileIn g t [2] || !s.isShort 2 g then s else noteFallback g s

/-- What a fill leaves of the staged tiles. -/
def noteFill (g : Nat) (tile : Nat × Nat × Nat) (u : State) : Fill → State
  | .done => modSit g (fun x => { x with tiles := x.tiles ++ [tile] }) u
  | .refused => modSit g (fun x => { x with refused := x.refused ++ [tile] }) u
  | .waits => u

theorem shelfTileStaged_of_next {g layer expert tile : Nat} {s : State} (hn : s.nextTile g = some (layer, expert, tile))
    (hp : s.placeFree g (s.planTile g (layer, expert, tile)) = true)
    (ht : s.tileIn g (s.planTile g (layer, expert, tile)) [2] = true
      ∨ s.tileFromT3 g (s.planTile g (layer, expert, tile)) = true) {f : Fill} {u : State}
    (hc : copyTile g (s.planTile g (layer, expert, tile)) (beforeFill g (s.planTile g (layer, expert, tile)) s) = (f, u)) :
    shelfTileStaged g layer expert tile s = noteFill g (layer, expert, tile) u f := by
  have hgo : (decide (s.nextTile g ≠ some (layer, expert, tile)) || !s.placeFree g (s.planTile g (layer, expert, tile))
      || !(s.tileIn g (s.planTile g (layer, expert, tile)) [2] || s.tileFromT3 g (s.planTile g (layer, expert, tile)))) ≠ true := by
    rcases ht with h | h <;> simp [hn, hp, h]
  unfold shelfTileStaged
  dsimp only
  rw [if_neg hgo, ← beforeFill, hc]
  cases f <;> rfl

/-- Settles O29: a dispatch by the row it fails or the tokens it joins, a layer by what its points record, a batch by
what its issue keeps, a tile by what comes of its fill. -/
theorem expertLayers : Obligations.ExpertLayers := by
  intro s g layer expert hg hlayer hexpert
  have arrived : ∀ {p : Packet} {u : State}, p.wf = true → reassemble p dispatchTrain s = u → Completes (.dispatch p) s u :=
    fun hp h => run_ok hp h
  have whole : ∀ {p : Packet} {u : State}, p.wf = true → trainPart p = false → dispatchTrain p s = u →
      Completes (.dispatch p) s u := fun hp ht h => arrived hp ((reassemble_of_whole ht ..).trans h)
  have hgl : (decide (g < 64) && decide (layer < 256)) = true := by rw [decide_eq_true hg, decide_eq_true hlayer]; rfl
  have hgle : (decide (g < 64) && decide (layer < 256) && decide (expert < 4096)) = true := by
    rw [hgl, decide_eq_true hexpert]; rfl
  refine ⟨fun p hp ht hj => arrived hp (reassemble_of_part ht hj _),
    fun p hp ht ha => whole hp ht (dispatchTrain_of_absent ha),
    fun p st h hp ht ha hr => whole hp ht (dispatchTrain_of_refused ha hr),
    fun p hp ht ha hr hb => whole hp ht (dispatchTrain_of_bad ha hr hb),
    fun p hp ht hsag hl he ha hr hb hf hh hheld hroom hstep hab hrep hch hcut hclosed hpend hbegan hbatch => ?_,
    fun ho hc hl => ?_, fun ho hc hl => ?_, fun b ha hleft hb => ⟨fun hr hbank => ?_, fun hw => ?_⟩,
    fun tile t s0 f u htile ht hn hp htier hs0 hc => ?_⟩
  · subst hsag hl he
    have hjoin := joinToken_of_first (s := addTx (stampPkt (mkAnswer p .ok 0 [] (take p s))) (take p s)) (p := p)
      hrep hch hcut hclosed hpend hbegan hbatch
    have done := whole hp ht (dispatchTrain_of_open ha hr hb hf hh hheld hroom hstep hab)
    rw [reply_ok_short, hjoin] at done
    obtain ⟨t, r, settled⟩ := settleLayers_sitOf p.saggar
      (modSit p.saggar (·.joined p) (addTx (stampPkt (mkAnswer p .ok 0 [] (take p s))) (take p s)))
    refine effect_of done ⟨?_, ?_⟩
    · rw [settled, sitOf_modSit_self]
      exact joined_of_no_pend hpend p
    · rw [settleLayers_apart]
      rfl
  · have done : Completes (.batchClosePoint g layer) s _ := run_ok hgl (batchClosePoint_of_open ho hc hl)
    exact effect_of done (batchClosePoint_spec rfl)
  · have done : Completes (.cutOff g layer) s (cutOff g layer s) := run_ok hgl rfl
    obtain ⟨hnow, hcuts⟩ := cutOff_spec ho hc hl
    obtain ⟨hcut, htime⟩ := cutLayer_spec g layer s
    exact effect_of done ⟨hcuts.trans hcut, hnow.trans htime⟩
  · have done : Completes (.batchRun g layer expert) s _ := run_ok hgle (batchRun_of_ready ha hleft hb hr hbank)
    exact effect_of done (issued_of_batchRun rfl rfl rfl)
  · exact run_ok hgle (batchRun_of_waiting ha hleft hb hw)
  · subst ht hs0
    have hwf : (decide (g < 64) && decide (layer < 256) && decide (expert < 4096) && decide (tile < 2 ^ 20)) = true := by
      rw [hgle, decide_eq_true htile]; rfl
    have staged := shelfTileStaged_of_next hn hp htier hc
    refine ⟨fun hf => run_ok hwf ?_, fun hf => run_ok hwf ?_, fun hf => run_ok hwf ?_⟩ <;> subst hf <;> exact staged

end Sys2Proof.Machine
end

section
namespace Sys2Proof.Machine

/-! ## A requester that may send nothing to any node has no request left (R337, R354, R358) -/

theorem aget_of_fresh {κ α : Type} [DecidableEq κ] {m : Assoc κ α} {k : κ} (h : k ∉ m.map (·.1)) (d : α) :
    aget m k d = d := by
  induction m with
  | nil => rfl
  | cons p r ih =>
    obtain ⟨a, b⟩ := p
    obtain ⟨hne, hr⟩ := not_or.mp (mt List.mem_cons.mpr h)
    simpa [aget, Ne.symm hne] using ih hr

/-- To a node of which nothing is kept, a requester may send as long as it has a request left. -/
theorem maySend_of_fresh {s : State} {q : Requester} {d g : Nat}
    (hout : d ∉ s.fab.outst.map (·.pkt.dst)) (hlim : (q, d) ∉ s.fab.limit.map (·.1))
    (hiss : (d, g) ∉ s.fab.issued.map (·.1)) :
    s.maySend q d g = decide (countIf s.fab.outst (fun r => r.req = q) < reqLimit q) := by
  have none_out : s.outTo q d = 0 := by
    simp only [State.outTo, countIf, List.length_eq_zero_iff, List.filter_eq_nil_iff, Bool.and_eq_true, decide_eq_true_eq]
    rintro r hr ⟨-, rfl⟩
    exact hout (List.mem_map_of_mem hr)
  have limit_pos : 0 < reqLimit q := by cases q <;> exact Nat.zero_lt_succ _
  have no_rate : countIf ([] : List Nat) (fun t => decide (s.now < t + sclk (2 ^ 25))) < 2 ^ 23 := by simp [countIf]
  unfold State.maySend
  rw [none_out, aget_of_fresh hlim, aget_of_fresh hiss, decide_eq_true limit_pos, decide_eq_true no_rate,
    Bool.and_true, Bool.and_true]

/-- Some node is fresh, so a requester that may send nowhere for one saggar may send nowhere for any. -/
theorem maySend_of_shut {s : State} {q : Requester} {g : Nat} (h : ∀ d, s.maySend q d g = false) (d g' : Nat) :
    s.maySend q d g' = false := by
  obtain ⟨n, hn⟩ := Infinite.exists_notMem_finset (s.fab.outst.map (·.pkt.dst)
    ++ s.fab.limit.map (·.1.2) ++ s.fab.issued.map (·.1.1)).toFinset
  rw [List.mem_toFinset, List.mem_append, List.mem_append, not_or, not_or] at hn
  obtain ⟨⟨hout, hlim⟩, hiss⟩ := hn
  have full := h n
  rw [maySend_of_fresh hout (fun hm => hlim (by simpa using List.mem_map_of_mem (f := Prod.snd) hm))
    (fun hm => hiss (by simpa using List.mem_map_of_mem (f := Prod.fst) hm))] at full
  rw [State.maySend, full, Bool.false_and, Bool.false_and]

/-! ## Contributions that wait for their Trimmer (R178, R182) -/

/-- A request whose contributions wait and whose Trimmer may send nothing is left as it is. -/
theorem pumpAttend_of_shut {id : Nat} {q : AttReq} {s : State} (hf : s.att.reqs.find? (fun r => r.id = id) = some q)
    (hm : q.msgs ≠ []) (hshut : ∀ d, s.maySend (.trimmer (s.attTrimmer q.p.saggar)) d q.p.saggar = false) :
    pumpAttend id s = s := by
  have kept : finishAttend id s = s := by
    unfold finishAttend
    rw [hf]
    dsimp only
    rw [if_pos (by simp [hm])]
  unfold pumpAttend
  rw [hf]
  dsimp only
  rw [forEach_keeps (P := (· = s)) ?_ q.msgs rfl]
  · exact kept
  · rintro p _ rfl
    rw [maySend_of_shut hshut, Bool.false_and]
    rfl

theorem partialPackets_ne_nil (p : Packet) (label k : Nat) (ovf poison : Bool) (x : Partial) :
    partialPackets p label k (partialBytes label k ovf poison x) ≠ [] := by
  have head : 16 ≤ (partialBytes label k ovf poison x).length := by
    simp only [partialBytes, List.length_append, natLe_length, List.length_singleton]
    omega
  have some_chunk : ceilDiv (partialBytes label k ovf poison x).length 488 ≠ 0 := by
    unfold ceilDiv
    omega
  simpa [partialPackets] using some_chunk

/-- The packets of a block's partials, the query heads in order. -/
def blockPackets (p : Packet) (label h : Nat) (ovf poison : Bool) (ps : List Partial) : List Packet :=
  (List.range ps.length).flatMap (fun i =>
    partialPackets p label (h * atGq p + i) (partialBytes label (h * atGq p + i) ovf poison (ps.getD i {})))

theorem blockPackets_ne_nil (p : Packet) (label h : Nat) (ovf poison : Bool) {ps : List Partial} (hps : 0 < ps.length) :
    blockPackets p label h ovf poison ps ≠ [] := fun hnil =>
  partialPackets_ne_nil _ _ _ _ _ _ (List.flatMap_eq_nil_iff.mp hnil 0 (List.mem_range.mpr hps))

theorem blockPackets_replicate (p : Packet) (label h : Nat) (ovf poison : Bool) (n : Nat) (x : Partial) :
    blockPackets p label h ovf poison (List.replicate n x) = (List.range n).flatMap (fun i =>
      partialPackets p label (h * atGq p + i) (partialBytes label (h * atGq p + i) ovf poison x)) := by
  unfold blockPackets
  rw [List.length_replicate]
  refine List.flatMap_congr fun i hi => ?_
  rw [List.getD_replicate _ (List.mem_range.mp hi)]

theorem flatMap_mapIdx {α β : Type} (f : Nat → α → List β) (l : List α) (d : α) :
    (l.mapIdx f).flatMap (fun x => x) = (List.range l.length).flatMap (fun i => f i (l.getD i d)) := by
  have indexed : l.mapIdx f = (List.range l.length).map (fun i => f i (l.getD i d)) := by
    refine List.ext_getElem (by simp) fun i hi _ => ?_
    have hi : i < l.length := by simpa using hi
    simp [hi]
  rw [indexed, List.flatMap_map]

theorem blockPartials_length {p : Packet} {h lo : Nat} {sd vd : List Byte} {fS fV : Int} {rows : KvRows} :
    (blockPartials p h lo sd vd fS fV rows).1.length = atGq p := by
  simp [blockPartials]

/-! ## A block of a request is done (R174, R178, R182) -/

/-- A request with a block done: its contributions wait, its overflow or its poison is kept. -/
def AttReq.withBlock (q : AttReq) (j h : Nat) (msgs : List Packet) (ovf poison : Bool) : AttReq :=
  { q with left := q.left.erase (j, h)
           msgs := q.msgs ++ msgs
           ovf := q.ovf || ovf
           poisoned := if poison then q.poisoned ++ [j] else q.poisoned }

/-- The state with one request replaced. -/
def replaceReq (q q' : AttReq) (s : State) : State :=
  { s with att := { s.att with reqs := s.att.reqs.map (fun x => if x = q then q' else x) } }

section
variable {s : State} {id : Nat} {q : AttReq} (hq : q ∈ s.att.reqs) (hid : ∀ x ∈ s.att.reqs, x.id = id ↔ x = q)
include hq hid

/-- A request whose number no other has is the one found by it. -/
theorem find_id : s.att.reqs.find? (fun r => r.id = id) = some q := by
  cases hx : s.att.reqs.find? (fun r => r.id = id) with
  | none => exact absurd ((hid q hq).mpr rfl) (by simpa using List.find?_eq_none.mp hx q hq)
  | some x => rw [(hid x (List.mem_of_find?_eq_some hx)).mp (by simpa using List.find?_some hx)]

/-- The replaced request is found in the place of the old one. -/
theorem find_id_replaceReq {q' : AttReq} (hq' : q'.id = q.id) :
    (replaceReq q q' s).att.reqs.find? (fun r => r.id = id) = some q' := by
  have same_ids : (fun r : AttReq => decide (r.id = id)) ∘ (fun x => if x = q then q' else x) = fun r => decide (r.id = id) := by
    funext x
    by_cases hx : x = q <;> simp [hx, hq']
  rw [replaceReq, List.find?_map, same_ids, find_id hq hid]
  simp

omit hq in
theorem modAtt_eq_replaceReq (f : AttReq → AttReq) : modAtt id f s = replaceReq q (f q) s := by
  unfold modAtt replaceReq
  rw [List.map_congr_left fun x hx => show (if x.id = id then f x else x) = (if x = q then f q else x) from ?_]
  by_cases h : x = q
  · rw [if_pos ((hid x hx).mpr h), if_pos h, h]
  · rw [if_neg (mt (hid x hx).mp h), if_neg h]

/-- A block's contributions join those that wait, and none leaves while the Trimmer may send nothing. -/
theorem blockDone_of_shut {j h label : Nat} {ps : List Partial} {ovf poison : Bool} (hps : 0 < ps.length)
    (hshut : ∀ d, s.maySend (.trimmer (s.attTrimmer q.p.saggar)) d q.p.saggar = false) :
    blockDone id j h label q ps ovf poison s
      = replaceReq q (q.withBlock j h (blockPackets q.p label h ovf poison ps) ovf poison) s := by
  have waiting : (q.withBlock j h (blockPackets q.p label h ovf poison ps) ovf poison).msgs ≠ [] := by
    simp [AttReq.withBlock, blockPackets_ne_nil _ _ _ _ _ hps]
  unfold blockDone
  dsimp only
  rw [flatMap_mapIdx _ _ {}, modAtt_eq_replaceReq hid]
  exact pumpAttend_of_shut (find_id_replaceReq hq hid rfl) waiting hshut

end

/-! ## What comes of a block's read (R173 to R175, R181, R184, R185) -/

section
variable {s s' : State} {id j h lo hi label : Nat} {q : AttReq} {r : Region} {ver : Option Nat}

theorem attendBlock_of_idle (hf : s.att.reqs.find? (fun r => r.id = id) = some q)
    (hidle : q.active = false ∨ (j, h) ∉ q.left ∨ s.attArray q.p.saggar = none) : attendBlock id j h s = s := by
  unfold attendBlock
  rw [hf]
  dsimp only
  split
  · rfl
  next hgo =>
    obtain ⟨hact, hleft⟩ : q.active = true ∧ (j, h) ∈ q.left := by simpa using hgo
    have unarmed : s.attArray q.p.saggar = none :=
      (hidle.resolve_left (by simp [hact])).resolve_left (not_not_intro hleft)
    rw [unarmed]

/-- Neither reason to pass over a block holds of an active request with it left. -/
theorem runs_of_left (hact : q.active = true) (hleft : (j, h) ∈ q.left) :
    (!q.active || !q.left.contains (j, h)) = false := by
  simp [hact, hleft]

variable {a : Nat} (hf : s.att.reqs.find? (fun r => r.id = id) = some q) (hact : q.active = true) (hleft : (j, h) ∈ q.left)
  (ha : s.attArray q.p.saggar = some a) (hr : r = s.region (atRegion q.p))
  (hver : ver = if atVersion q.p = 0xFFFFFFFF then none else some (atVersion q.p))
  (hlabel : label = max (j * r.tPg) (atPosLo q.p)) (hlo : lo = label - j * r.tPg)
  (hhi : hi = min r.tPg (atSeqLen q.p - j * r.tPg) - 1)
include hf hact hleft ha hr hver hlabel hlo hhi

theorem attendBlock_of_stalled {e : ReadResult}
    (hread : readBlock r ver (r.kvPage (atLayer q.p) h j) (h % r.hPg) lo hi s = (.error e, s'))
    (he : e = .waits ∨ ∃ n, e = .retry n) : attendBlock id j h s = s' := by
  subst hr hver hlo hhi hlabel
  obtain rfl | ⟨n, rfl⟩ := he <;>
    simp only [attendBlock, hf, runs_of_left hact hleft, ha, hread, Bool.false_eq_true, if_false]

theorem attendBlock_of_poisoned {e : ReadResult}
    (hread : readBlock r ver (r.kvPage (atLayer q.p) h j) (h % r.hPg) lo hi s = (.error e, s'))
    (hw : e ≠ .waits) (hn : ∀ n, e ≠ .retry n) :
    attendBlock id j h s = blockDone id j h label q
      (List.replicate (atGq q.p) { m := 0, l := 0, o := List.replicate r.headDim 0 }) false true
      (bumpCtr (ctrAttPages q.p.saggar) 1 s') := by
  subst hr hver hlo hhi hlabel
  cases e with
  | waits => exact absurd rfl hw
  | retry n => exact absurd rfl (hn n)
  | data | poison => simp only [attendBlock, hf, runs_of_left hact hleft, ha, hread, Bool.false_eq_true, if_false]

/-- Before its contributions wait, a block that was read notes its frame exponents and counts its work. -/
theorem attendBlock_of_rows {rows : KvRows} {sd vd : List Byte}
    (hread : readBlock r ver (r.kvPage (atLayer q.p) h j) (h % r.hPg) lo hi s = (.ok rows, s'))
    (hsd : sd = (scoreJob r q.p a Config.attendPage (h % r.hPg) (lo / 32 * 32) hi).desc)
    (hvd : vd = (valueJob r q.p a Config.attendValues hi).desc) :
    ∃ sit wit ctr, attendBlock id j h s = blockDone id j h label q
      (blockPartials q.p h lo sd vd (s'.attF q.p h 0 sd) (s'.attF q.p h 1 vd) rows).1
      (blockPartials q.p h lo sd vd (s'.attF q.p h 0 sd) (s'.attF q.p h 1 vd) rows).2 false
      { s' with sit := sit, wit := wit, ctr := ctr } := by
  subst hr hver hlo hhi hlabel hsd hvd
  simp only [attendBlock, hf, runs_of_left hact hleft, ha, hread, Bool.false_eq_true, if_false]
  split <;> exact ⟨_, _, _, rfl⟩

end

/-- Settles O31: a block that cannot run by why it is idle, any other by what its read finds. -/
theorem attendBlocks : Obligations.AttendBlocks := by
  intro s id j h lo hi label q r ver hidw hjw hhw hq hid hr hver hlabel hlo hhi
  have hf := find_id hq hid
  have done : ∀ {u}, attendBlock id j h s = u → Completes (.attendBlockDone id j h) s u := fun e =>
    run_ok (by rw [decide_eq_true hidw, decide_eq_true hjw, decide_eq_true hhw]; rfl) e
  refine ⟨fun hidle => done (attendBlock_of_idle hf hidle), fun a res s' hact hleft ha hread => ⟨fun hstall => ?_,
    fun rows sd vd fS fV ps ovf hres hshut hatt hsd hvd hfS hfV hps hgq => ?_,
    fun e hres hw hn hgq hatt hshut => ?_⟩⟩
  · obtain ⟨e, rfl, he⟩ : ∃ e, res = .error e ∧ (e = .waits ∨ ∃ n, e = .retry n) := by
      obtain rfl | ⟨n, rfl⟩ := hstall
      · exact ⟨_, rfl, .inl rfl⟩
      · exact ⟨_, rfl, .inr ⟨n, rfl⟩⟩
    exact done (attendBlock_of_stalled hf hact hleft ha hr hver hlabel hlo hhi hread he)
  · subst hres
    obtain ⟨sit, wit, ctr, block⟩ := attendBlock_of_rows hf hact hleft ha hr hver hlabel hlo hhi hread hsd hvd
    have hlen : ps.length = atGq q.p := (congrArg (·.1.length) hps).trans blockPartials_length
    rw [← hfS, ← hfV, ← hps, blockDone_of_shut (s := { s' with sit := sit, wit := wit, ctr := ctr })
      (hatt ▸ hq) (hatt ▸ hid) (hlen ▸ hgq) hshut, blockPackets, hlen] at block
    exact effect_of (done block) ⟨rfl, congrArg (fun t : Att => t.reqs.map _) hatt⟩
  · subst hres
    have block := attendBlock_of_poisoned hf hact hleft ha hr hver hlabel hlo hhi hread hw hn
    rw [blockDone_of_shut (s := bumpCtr (ctrAttPages q.p.saggar) 1 s') (hatt ▸ hq) (hatt ▸ hid)
      (List.length_replicate.symm ▸ hgq) hshut, blockPackets_replicate, AttReq.withBlock, Bool.or_false] at block
    exact effect_of (done block) ⟨rfl, congrArg (fun t : Att => t.reqs.map _) hatt⟩

end Sys2Proof.Machine
end

section
namespace Sys2Proof.Machine

/-! ## The pool's bytes in canonical form (R204, R205) -/

/-- Below its lower bound a canonical list has no entry. -/
theorem memGet_of_lt {m : List Host.Cell} {lo a : Nat} (hm : memWfFrom lo m = true) (ha : a < lo) : memGet m a = 0 := by
  induction m generalizing lo with
  | nil => rfl
  | cons c r ih =>
    obtain ⟨k, v⟩ := c
    simp only [memWfFrom, Bool.and_eq_true, decide_eq_true_eq] at hm
    obtain ⟨⟨hk, -⟩, hr⟩ := hm
    have hne : k ≠ a := by omega
    simpa [memGet, hne] using ih hr (by omega)

theorem memGet_memWrite_out {m : List Host.Cell} (hm : Memory.wf m) {a k : Nat} {l : List Byte}
    (hk : k < a ∨ a + l.length ≤ k) : memGet (memWrite m a l) k = memGet m k := by
  induction l generalizing m a with
  | nil => rfl
  | cons b r ih =>
    rw [List.length_cons] at hk
    have hne : a ≠ k := by omega
    rw [memWrite, ih (memSet_wf m a b hm) (by omega), memGet_memSet m 0 hm, if_neg hne]

theorem memGet_memWrite_at {m : List Host.Cell} (hm : Memory.wf m) {a i : Nat} {l : List Byte} (hi : i < l.length) :
    memGet (memWrite m a l) (a + i) = l[i] := by
  induction l generalizing m a i with
  | nil => cases hi
  | cons b r ih =>
    have hset := memSet_wf m a b hm
    cases i with
    | zero => rw [memWrite, memGet_memWrite_out hset (by omega), memGet_memSet m 0 hm]; simp
    | succ i =>
      rw [memWrite, show a + (i + 1) = a + 1 + i by omega, ih hset (by simpa using hi)]
      rfl

/-- A run of bytes written is read back. -/
theorem memRead_memWrite_same {m : List Host.Cell} (hm : Memory.wf m) (a : Nat) (l : List Byte) :
    memRead (memWrite m a l) a l.length = l := by
  refine List.ext_getElem (by simp [memRead]) fun i h _ => ?_
  simp only [memRead, List.getElem_map, List.getElem_range]
  exact memGet_memWrite_at hm _

/-- A run of bytes apart from those written reads as before. -/
theorem memRead_memWrite_apart {m : List Host.Cell} (hm : Memory.wf m) {a b n : Nat} {l : List Byte}
    (h : b + n ≤ a ∨ a + l.length ≤ b) : memRead (memWrite m a l) b n = memRead m b n :=
  List.map_congr_left fun i hi => memGet_memWrite_out hm (by have := List.mem_range.mp hi; omega)

theorem memGet_memClear (m : List Host.Cell) (a n k : Nat) :
    memGet (memClear m a n) k = if a ≤ k ∧ k < a + n then 0 else memGet m k := by
  induction m with
  | nil => simp [memClear, memGet]
  | cons c r ih =>
    obtain ⟨j, v⟩ := c
    have hcons : memClear ((j, v) :: r) a n
        = if j < a ∨ a + n ≤ j then (j, v) :: memClear r a n else memClear r a n := by
      simp [memClear, List.filter_cons]
    rw [hcons]
    by_cases hout : j < a ∨ a + n ≤ j
    · rw [if_pos hout]
      by_cases hj : j = k
      · rw [memGet, if_pos hj, memGet, if_pos hj, if_neg (by omega)]
      · rw [memGet, if_neg hj, memGet, if_neg hj, ih]
    · rw [if_neg hout, ih]
      by_cases hin : a ≤ k ∧ k < a + n
      · rw [if_pos hin, if_pos hin]
      · rw [if_neg hin, if_neg hin, memGet, if_neg (by omega)]

/-- A run of bytes apart from those cleared reads as before. -/
theorem memRead_memClear_apart (m : List Host.Cell) {a b n k : Nat} (h : b + n ≤ a ∨ a + k ≤ b) :
    memRead (memClear m a k) b n = memRead m b n :=
  List.map_congr_left fun i hi => by
    have := List.mem_range.mp hi
    rw [memGet_memClear, if_neg (by omega)]

/-- Canonical lists that read alike are the same: each head is the lowest address that does not read zero. -/
theorem canonical_unique {m m' : List Host.Cell} {lo : Nat} (hm : memWfFrom lo m = true) (hm' : memWfFrom lo m' = true)
    (h : ∀ k, memGet m k = memGet m' k) : m = m' := by
  induction m generalizing lo m' with
  | nil =>
    cases m' with
    | nil => rfl
    | cons c' r' =>
      obtain ⟨k', v'⟩ := c'
      simp only [memWfFrom, Bool.and_eq_true, decide_eq_true_eq] at hm'
      exact absurd (by simpa [memGet] using (h k').symm) hm'.1.2
  | cons c r ih =>
    obtain ⟨k, v⟩ := c
    cases m' with
    | nil =>
      simp only [memWfFrom, Bool.and_eq_true, decide_eq_true_eq] at hm
      exact absurd (by simpa [memGet] using h k) hm.1.2
    | cons c' r' =>
      obtain ⟨k', v'⟩ := c'
      simp only [memWfFrom, Bool.and_eq_true, decide_eq_true_eq] at hm hm'
      obtain ⟨⟨-, hv⟩, hr⟩ := hm
      obtain ⟨⟨-, hv'⟩, hr'⟩ := hm'
      have below : ∀ {x}, x < k → memGet r x = 0 := fun hx => memGet_of_lt hr (by omega)
      have below' : ∀ {x}, x < k' → memGet r' x = 0 := fun hx => memGet_of_lt hr' (by omega)
      have hk : k = k' := by
        rcases Nat.lt_trichotomy k k' with hlt | heq | hgt
        · have hne : k' ≠ k := by omega
          exact absurd (by simpa [memGet, hne, below' hlt] using h k) hv
        · exact heq
        · have hne : k ≠ k' := by omega
          exact absurd (by simpa [memGet, hne, below hgt] using (h k').symm) hv'
      subst hk
      have hvv : v = v' := by simpa [memGet] using h k
      have htail : ∀ x, memGet r x = memGet r' x := fun x => by
        by_cases hx : k = x
        · subst hx
          rw [memGet_of_lt hr (Nat.lt_succ_self k), memGet_of_lt hr' (Nat.lt_succ_self k)]
        · simpa [memGet, hx] using h x
      rw [hvv, ih hr hr' htail]

/-- Settles O4: what is read after a write and a clearing, and canonical lists by their lowest entries. -/
theorem poolMemory : Obligations.PoolMemory := fun m hm =>
  ⟨fun a l => ⟨memWrite_wf l m a hm, memRead_memWrite_same hm a l, fun _ hk => memGet_memWrite_out hm hk⟩,
    fun a n => ⟨memClear_wf m a n hm, memGet_memClear m a n⟩,
    fun _ hm' h => canonical_unique hm hm' h⟩

end Sys2Proof.Machine
end

section
namespace Sys2Proof.Machine

/-! ## Promotion across a boundary (R210) -/

section
variable {s : State} {id page f : Nat}

theorem tierPromote_of_nowhere (h : s.servingFrame (aget (s.region id).working page []) = none) :
    tierPromote id page s = s := by
  simp only [tierPromote, h]

/-- The pages that make room at a boundary: those of the upper tier below its `DEMOTE_BELOW`. -/
def State.coldIn (s : State) (upper g : Nat) : List (Nat × Nat × Nat) :=
  (s.demotable upper g).filter (fun d => decide (d.2.2 < (s.thresholds g upper).2))

/-- A page served below a boundary that its policy lets it cross: the rules of R210 in their order. -/
theorem tierPromote_of_served (h : s.servingFrame (aget (s.region id).working page []) = some f)
    (hlow : 3 ≤ s.frameTier f) (hpol : (polTiers (s.region id).tierPol).contains (s.frameTier f - 1) = true) :
    tierPromote id page s
      = if s.cEffOf (s.region id) page (s.frameTier f) < (s.thresholds (s.region id).saggar (s.frameTier f - 1)).1 then s
        else if s.reserveIn (s.frameTier f - 1) (s.region id).saggar < s.freeIn (s.frameTier f - 1) (s.region id).saggar then
          enqueueMove { cls := 5, region := id, page := page, toTier := s.frameTier f - 1, saggar := (s.region id).saggar } s
        else match coldest (s.coldIn (s.frameTier f - 1) (s.region id).saggar) with
          | none => s
          | some d => enqueueMove { cls := 4, region := d.1, page := d.2.1, toTier := s.frameTier f
                                    saggar := (s.region id).saggar } s := by
  have hcross : ¬ (s.frameTier f < 3 ∨ (polTiers (s.region id).tierPol).contains (s.frameTier f - 1) = false) := by
    rw [hpol]; simp; omega
  have hup : s.frameTier f - 1 + 1 = s.frameTier f := by omega
  simp only [tierPromote, h, if_neg hcross, hup]
  rfl

end

theorem coldIn_eq_nil {s : State} {upper g : Nat}
    (h : ∀ d ∈ s.demotable upper g, (s.thresholds g upper).2 ≤ d.2.2) : s.coldIn upper g = [] :=
  List.filter_eq_nil_iff.mpr fun d hd => by simpa using h d hd

/-! ## A tier that runs short (R219) -/

/-- Adding a job that neither waits nor runs. -/
theorem enqueueMove_of_new {j : MoverJob} {s : State} (hq : s.tie.queue.contains j = false)
    (hm : s.tie.movers.any (fun x => x.2.job = j) = false) :
    enqueueMove j s = { s with tie := { s.tie with queue := s.tie.queue ++ [j] } } := by
  rw [enqueueMove, hq, hm]; rfl

/-- The flag of a tier says whether it is short; no other flag of the saggar changes. -/
theorem noteShort_short (g tier : Nat) (s : State) :
    (tier ∈ aget (noteShort g tier s).tie.short g [] ↔ s.isShort tier g = true)
      ∧ ∀ k, k ≠ tier → (k ∈ aget (noteShort g tier s).tie.short g [] ↔ k ∈ aget s.tie.short g []) := by
  have flags : aget (noteShort g tier s).tie.short g []
      = if s.isShort tier g then tier :: (aget s.tie.short g []).filter (· ≠ tier)
        else (aget s.tie.short g []).filter (· ≠ tier) := aget_aset_self ..
  rw [flags]
  cases s.isShort tier g with
  | true => simp +contextual
  | false => simp +contextual

theorem relieve_of_not_short {s : State} {g tier : Nat} (h : tier = 4 ∨ s.isShort tier g = false) :
    relieve tier g s = noteShort g tier s := by
  refine if_pos ?_
  rcases h with rfl | h
  · exact .inl ⟨by decide, by decide⟩
  · exact .inr h

/-- The job that demotes a page of a saggar to the tier below. -/
def demotion (tier g : Nat) (d : Nat × Nat × Nat) : MoverJob :=
  { cls := 4, region := d.1, page := d.2.1, toTier := tier + 1, saggar := g }

/-- The job queued, and the step of the fallback order counted. -/
def demoted (tier g : Nat) (d : Nat × Nat × Nat) (s : State) : State :=
  noteFallback g { s with tie := { s.tie with queue := s.tie.queue ++ [demotion tier g d] } }

theorem demoteColdest_of_new {s : State} {tier g : Nat} {d : Nat × Nat × Nat} (hf : tier = 3 → s.fitted capFLM = true)
    (hd : coldest (s.demotable tier g) = some d) (hq : s.tie.queue.contains (demotion tier g d) = false)
    (hm : s.tie.movers.any (fun x => x.2.job = demotion tier g d) = false) :
    demoteColdest tier g s = demoted tier g d s := by
  have hflash : ¬ (tier = 3 ∧ s.fitted capFLM = false) := fun ⟨h3, hn⟩ => by rw [hf h3] at hn; cases hn
  simp only [demoteColdest, if_neg hflash, hd]
  rw [← demotion, enqueueMove_of_new hq hm, if_neg (by simp), demoted]

/-- Neither the queue nor a count decides whether a tier is short. -/
theorem isShort_demoted (tier g : Nat) (d : Nat × Nat × Nat) (s : State) :
    (demoted tier g d s).isShort tier g = s.isShort tier g := by
  rw [demoted, noteFallback, bumpSat_apart]; rfl

theorem relieve_of_demotion {s : State} {tier g : Nat} {d : Nat × Nat × Nat} (ht : tier = 2 ∨ tier = 3)
    (hs : s.isShort tier g = true) (hspare : s.spareImmutable tier g = []) (hf : tier = 3 → s.fitted capFLM = true)
    (hd : coldest (s.demotable tier g) = some d) (hq : s.tie.queue.contains (demotion tier g d) = false)
    (hm : s.tie.movers.any (fun x => x.2.job = demotion tier g d) = false) :
    relieve tier g s = noteShort g tier (demoted tier g d s) := by
  have hcond : ¬ (tier ≠ 2 ∧ tier ≠ 3 ∨ s.isShort tier g = false) := by rw [hs]; simp; omega
  have hnone : freeSpare tier g s = s := by rw [freeSpare, hspare]; rfl
  rw [relieve, if_neg hcond, hnone]
  dsimp only
  rw [if_pos hs, demoteColdest_of_new hf hd hq hm]

theorem demoted_spec {g : Nat} (hg : g < 64) (tier : Nat) (d : Nat × Nat × Nat) {s u : State}
    (hu : u = noteShort g tier (demoted tier g d s)) :
    u.satVal (satTieFallbacks g) = satAdd 16 (s.satVal (satTieFallbacks g)) 1
      ∧ u.tie.queue = s.tie.queue ++ [demotion tier g d]
      ∧ u.tie.regions = s.tie.regions ∧ u.tie.frames = s.tie.frames := by
  have hw : satWidth (satTieFallbacks g) = 16 := if_neg (by simp only [satTieFallbacks, tiePage]; omega)
  have apart := bumpSat_apart (satTieFallbacks g) { s with tie := { s.tie with queue := s.tie.queue ++ [demotion tier g d] } }
  subst hu
  refine ⟨?_, ?_, ?_, ?_⟩
  · rw [← hw]; exact satVal_bumpSat ..
  all_goals simp only [noteShort, demoted, noteFallback]; rw [apart]

/-! ## The thresholds of a boundary (R210) -/

/-- A write takes effect where `PROMOTE_AT` exceeds `DEMOTE_BELOW`, on the thresholds of its register alone. -/
theorem thresholds_writeThreshold (g : Nat) (up34 : Bool) (v : Word32) (s : State) :
    (writeThreshold g up34 v s).thresholds g (if up34 then 3 else 2) = thresholdNext (s.thresholds g (if up34 then 3 else 2)) v
      ∧ (writeThreshold g up34 v s).thresholds g (if up34 then 2 else 3) = s.thresholds g (if up34 then 2 else 3)
      ∧ ∀ h k, h ≠ g → (writeThreshold g up34 v s).thresholds h k = s.thresholds h k := by
  cases up34 with
  | true =>
    refine ⟨aget_aset_self .., rfl, fun h k hne => ?_⟩
    by_cases hk : k = 2
    · simp only [State.thresholds, if_pos hk]; rfl
    · simp only [State.thresholds, if_neg hk]; exact aget_aset_ne _ _ _ hne.symm
  | false =>
    refine ⟨aget_aset_self .., rfl, fun h k hne => ?_⟩
    by_cases hk : k = 2
    · simp only [State.thresholds, if_pos hk]; exact aget_aset_ne _ _ _ hne.symm
    · simp only [State.thresholds, if_neg hk]; rfl

theorem thresholdNext_eq (old : Nat × Nat) (v : Word32) : thresholdNext old v
    = if v.toNat / 2 ^ 12 % 2 ^ 12 < v.toNat % 2 ^ 12 then (v.toNat % 2 ^ 12, v.toNat / 2 ^ 12 % 2 ^ 12) else old := by
  simp only [thresholdNext, bits, pow_zero, Nat.div_one]

/-- Settles O35: a promotion by the rules of R210 in their order, a short tier by its first step that finds
something, a threshold by its register. -/
theorem tierManager : Obligations.TierManager := by
  refine ⟨fun s id page f tier r hid hpage hr hf ht hlow hpol => ?_, fun s id page hid hpage h => ?_,
    fun s g tier hg ht => ⟨fun h2 => ?_, fun h2 h => ?_, fun d j h23 hs hspare hflash hd hj hq hm => ?_⟩,
    fun s who g up34 v hw hg => ⟨fun st hgate => ?_, fun hgate => ?_⟩⟩
  · subst hr ht
    have done : ∀ {u}, tierPromote id page s = u → Completes (.tierPromote id page) s u :=
      fun h => run_ok (by rw [decide_eq_true hid, decide_eq_true hpage]; rfl) h
    have rules := tierPromote_of_served hf hlow hpol
    refine ⟨fun hcold => done (rules.trans (if_pos hcold)), fun hhot => ?_⟩
    rw [if_neg (by omega)] at rules
    refine ⟨fun hroom => done (rules.trans (if_pos hroom)), fun d hfull hd => ?_, fun hfull hnone => ?_⟩
    · rw [if_neg (by omega), State.coldIn, hd] at rules
      exact done rules
    · rw [if_neg (by omega), coldIn_eq_nil hnone] at rules
      exact done rules
  · exact run_ok (by rw [decide_eq_true hid, decide_eq_true hpage]; rfl) (tierPromote_of_nowhere h)
  · exact run_ok (by rw [decide_eq_true hg, decide_eq_true ht]; rfl) (if_neg (by omega))
  · have done : Completes (.tierShort g tier) s (noteShort g tier s) :=
      run_ok (by rw [decide_eq_true hg, decide_eq_true ht]; rfl) ((if_pos h2).trans (relieve_of_not_short h))
    obtain ⟨flag, others⟩ := noteShort_short g tier s
    exact effect_of done ⟨flag, others, rfl⟩
  · subst hj
    have done : Completes (.tierShort g tier) s (noteShort g tier (demoted tier g d s)) :=
      run_ok (by rw [decide_eq_true hg, decide_eq_true ht]; rfl)
        ((if_pos (by omega)).trans (relieve_of_demotion h23 hs hspare hflash hd hq hm))
    have flag := (noteShort_short g tier (demoted tier g d s)).1.mpr ((isShort_demoted ..).trans hs)
    exact effect_of done ⟨flag, demoted_spec hg tier d rfl⟩
  · exact run_ok (by rw [hw, decide_eq_true hg]; rfl) (by rw [ctlWrite, hgate])
  · have done : Completes (.tieThresholdWrite who g up34 v) s
        (writeThreshold g up34 v (answerCsr who (tiePage g + 4 * b2n up34) .ok 0 s)) :=
      run_ok (by rw [hw, decide_eq_true hg]; rfl) (ctlWrite_of_open hgate)
    obtain ⟨written, other, rest⟩ := thresholds_writeThreshold g up34 v (answerCsr who (tiePage g + 4 * b2n up34) .ok 0 s)
    rw [answerCsr_ok_frame] at done written other rest
    refine effect_of done ⟨?_, written.trans (thresholdNext_eq ..), other, rest⟩
    cases up34 <;> rfl

end Sys2Proof.Machine
end

section
namespace Sys2Proof.Machine

/-! ## Answers with data (R331, R350) -/

/-- The statuses whose answers no field counts. -/
def uncounted (st : Status) : Bool := !(decide (st = .nackStaleEpoch) || decide (st = .nackUnknown))

theorem countAnswer_of_uncounted {st : Status} (h : uncounted st = true) (s : State) : countAnswer st s = s := by
  simp only [uncounted, Bool.not_eq_true', Bool.or_eq_false_iff, decide_eq_false_iff_not] at h
  rw [countAnswer, if_neg h.1, if_neg h.2]

section
variable {p : Packet} {st : Status} {data : List Byte} (hst : uncounted st = true) (hlen : data.length ≤ 512)
include hst hlen

/-- An answer of at most one packet. -/
theorem reply_of_uncounted (hint : Nat) (t : State) :
    reply p st hint data t = addTx (stampPkt (mkAnswer p st hint data t)) t := by
  have counted : reply p st hint data t
      = send (mkAnswer p st hint data (countAnswer st t)) (countAnswer st t) := rfl
  rw [counted, countAnswer_of_uncounted hst, send_of_short (p := mkAnswer p st hint data t) hlen]
  rfl

theorem replied_of_uncounted (hint : Nat) (t : State) : Replied p st hint data t (reply p st hint data t) := by
  rw [reply_of_uncounted hst hlen]
  exact ⟨_, rfl, rfl, rfl, rfl, rfl, rfl, rfl, rfl, rfl⟩

/-- A request taken and answered; nothing but the packets changes. -/
theorem answered_take (hint : Nat) {s u : State} (hu : u = reply p st hint data (take p s)) :
    Answered p st hint data s u ∧ u = { s with fab := u.fab } := by
  have sent := replied_of_uncounted (p := p) hst hlen hint (take p s)
  rw [hu]
  refine ⟨⟨?_, sent⟩, ?_⟩ <;> rw [reply_of_uncounted hst hlen] <;> rfl

end

/-- A refusal of whatever status answers the request, and touches nothing of the pool. -/
theorem answered_refusal {p : Packet} {st : Status} {hint : Nat} {s u : State} (hu : u = reply p st hint [] (take p s)) :
    Answered p st hint [] s u ∧ u.tie = s.tie := by
  have sent := reply_apart p st hint (take p s)
  rw [← hu] at sent
  exact ⟨answered_of_addTx sent rfl rfl, by rw [sent]; rfl⟩

/-! ## Directory records on their way to the replica partner (R537) -/

theorem records_congr {s t : State} (hi : t.img = s.img) (hn : t.fab.node = s.fab.node) {l : List Packet}
    (h : t.records l) : s.records l := by
  unfold State.records State.nodeParam State.plofens State.nodeBody State.sysBody at *
  rwa [hi, hn] at h

/-- Between two states nothing happened but that packets with a region's record went to a node. -/
def SentRecord (b : Nat) (s t : State) : Prop :=
  t = { s with fab := t.fab } ∧ t.fab.inbox = s.fab.inbox
    ∧ ∃ l : List Packet, (∀ x ∈ l, x.opcode = opWRITE ∧ x.cls = 5 ∧ x.offset = xferPort ∧ x.dst = b) ∧ t.fab.tx = s.fab.tx ++ l

theorem SentRecord.refl {b : Nat} (s : State) : SentRecord b s s :=
  ⟨rfl, rfl, [], fun _ h => (List.not_mem_nil h).elim, (List.append_nil _).symm⟩

theorem SentRecord.trans {b : Nat} {s t u : State} (h : SentRecord b s t) (k : SentRecord b t u) : SentRecord b s u := by
  obtain ⟨ht, hin, l, hl, htx⟩ := h
  obtain ⟨hu, hin', m, hm, hux⟩ := k
  refine ⟨by rw [hu, ht], hin'.trans hin, l ++ m, fun x hx => ?_, by rw [hux, htx, List.append_assoc]⟩
  exact (List.mem_append.mp hx).elim (hl x) (hm x)

/-- The same, to the replica partner, where the chip has one. -/
def RecordsSent (s t : State) : Prop :=
  t = { s with fab := t.fab } ∧ t.fab.inbox = s.fab.inbox ∧ ∃ l, s.records l ∧ t.fab.tx = s.fab.tx ++ l

theorem RecordsSent.refl (s : State) : RecordsSent s s :=
  ⟨rfl, rfl, [], ⟨fun _ h => (List.not_mem_nil h).elim, fun h => absurd rfl h⟩, (List.append_nil _).symm⟩

/-- A request as it goes out. -/
def issued (p : Packet) (s : State) : Packet :=
  { p with src := s.fab.node, epoch := s.img.epoch, tag := s.nextTag, rty := false, hops := 0, lc := s.arch.lc
           seq := if isAtomic p.opcode || p.opcode = opRPT then aget s.fab.seqNext (p.dst, p.saggar) 0 else 0 }

/-- A request sent puts its packets at the end of the queue, and takes nothing from the inbox. -/
theorem issue_spec (q : Requester) (p : Packet) (s : State) : issue q p s = { s with fab := (issue q p s).fab }
    ∧ (issue q p s).fab.inbox = s.fab.inbox ∧ (issue q p s).fab.node = s.fab.node
    ∧ (issue q p s).fab.tx = s.fab.tx ++ (packetsOf (issued p s)).map stampPkt :=
  ⟨rfl, rfl, rfl, rfl⟩

theorem xferPacket_short {dst id kind idx g : Nat} {data : List Byte} (h : data.length ≤ partBytes) :
    (xferPacket dst id kind idx g data).payload.length ≤ 512 := by
  simp only [xferPacket, List.length_append, natLe_length]
  simp only [partBytes] at h
  omega

/-- One packet goes out for a part of a record. -/
theorem issue_record_sent {b id idx g : Nat} {data : List Byte} (h : data.length ≤ partBytes) (s : State) :
    SentRecord b s (issue .control (xferPacket b id 0 idx g data) s) := by
  have one : packetsOf (issued (xferPacket b id 0 idx g data) s) = [issued (xferPacket b id 0 idx g data) s] :=
    if_pos (xferPacket_short (dst := b) (id := id) (kind := 0) (idx := idx) (g := g) h)
  obtain ⟨frame, inbox, -, tx⟩ := issue_spec .control (xferPacket b id 0 idx g data) s
  refine ⟨frame, inbox, _, fun x hx => ?_, tx⟩
  rw [one] at hx
  rw [List.mem_singleton.mp hx]
  exact ⟨rfl, rfl, rfl, rfl⟩

/-- A region's record goes out as packets to the node, one for each part. -/
theorem sendRecord_sent (b : Nat) (r : Region) (gone : Bool) (s : State) : SentRecord b s (sendRecord b r gone s) :=
  forEach_rel SentRecord.refl SentRecord.trans (fun _ s => issue_record_sent (List.length_take_le ..) s) _ s

theorem streamDirectory_sent (id : Nat) (gone : Bool) (s : State) : RecordsSent s (streamDirectory id gone s) := by
  unfold streamDirectory
  split
  next r _ =>
    dsimp only
    split
    next h =>
      obtain ⟨frame, inbox, l, hl, tx⟩ := sendRecord_sent (s.nodeParam 0x0215) r gone s
      exact ⟨frame, inbox, l, ⟨hl, fun _ => h.2⟩, tx⟩
    · exact .refl s
  · exact .refl s

/-- The answer to a request after the record of a region, where some of the rest may have changed before and after. -/
theorem answeredAfterRecords_reply {p : Packet} {st : Status} {data : List Byte} (hst : uncounted st = true)
    (hlen : data.length ≤ 512) {hint : Nat} {s t v w : State} (hv : RecordsSent t v) (hw : w.fab = v.fab)
    (hi : t.img = s.img) (hn : t.fab.node = s.fab.node) (hinbox : t.fab.inbox = s.fab.inbox.erase p)
    (htx : t.fab.tx = s.fab.tx) : AnsweredAfterRecords p st hint data s (reply p st hint data w) := by
  obtain ⟨-, inbox, l, hl, tx⟩ := hv
  obtain ⟨q, hq, rest⟩ := replied_of_uncounted (p := p) hst hlen hint w
  refine ⟨l, records_congr hi hn hl, ?_, q, ?_, rest⟩
  · rw [reply_of_uncounted hst hlen]; exact (congrArg Fab.inbox hw).trans (inbox.trans hinbox)
  · rw [hq, hw, tx, htx]

end Sys2Proof.Machine
end

section
namespace Sys2Proof.Machine

/-! ## The pool procedures (R202, R349) -/

section
variable {p : Packet} {proc : Nat} {s : State}

/-- A call that passes R349 while the control cores run. -/
theorem servePool_of_open (hproc : callProc p = proc) (hr : s.rptRefusal p = none) (hcp : s.arch.cp ≠ .restart)
    (f : State → State) : servePool p proc f s = f (take p s) := by
  have hcp' : (take p s).arch.cp ≠ .restart := hcp
  rw [servePool, serveProc, if_neg (not_not.mpr hproc), hr]
  exact if_neg hcp'

theorem servePool_of_restart (hproc : callProc p = proc) (hr : s.rptRefusal p = none) (hcp : s.arch.cp = .restart)
    (f : State → State) : servePool p proc f s = reply p .nackRetry 20 [] (take p s) := by
  have hcp' : (take p s).arch.cp = .restart := hcp
  rw [servePool, serveProc, if_neg (not_not.mpr hproc), hr]
  exact if_pos hcp'

end

/-- A region a saggar's requester can name is in the pool's table. -/
theorem afind_of_ownRegion {s : State} {p : Packet} {id : Nat} {r : Region} (h : s.ownRegion p id = some r) :
    afind s.tie.regions id = some r := by
  unfold State.ownRegion at h
  split at h
  next x hx =>
    split at h
    · rwa [Option.some.inj h] at hx
    · cases h
  · cases h

/-! ### Regions after a change of one of them -/

/-- The pool with one region set in its table. -/
def setRegion (id : Nat) (r : Region) (s : State) : State := { s with tie := { s.tie with regions := aset s.tie.regions id r } }

theorem modRegion_eq {id : Nat} {r : Region} {s : State} (h : afind s.tie.regions id = some r) (f : Region → Region) :
    modRegion id f s = setRegion id (f r) s := by
  rw [modRegion, h]; rfl

@[simp] theorem setRegion_find_self (id : Nat) (r : Region) (s : State) : afind (setRegion id r s).tie.regions id = some r :=
  afind_aset_self ..

theorem setRegion_find_ne {id k : Nat} (h : k ≠ id) (r : Region) (s : State) :
    afind (setRegion id r s).tie.regions k = afind s.tie.regions k :=
  (afind_aset ..).trans (if_neg h.symm)

theorem region_of_find {s : State} {id : Nat} {r : Region} (h : afind s.tie.regions id = some r) : s.region id = r := by
  rw [State.region, aget_eq_afind, h]; rfl

/-! ### `REGION_CREATE` -/

/-- A refusal of R202 is one of two statuses, and a region not refused has the caller's saggar. -/
theorem createRefusal_uncounted {s : State} {r : Region} {d : List Byte} {g home : Nat} {st : Status}
    (h : s.createRefusal r d g home = some st) : uncounted st = true := by
  unfold State.createRefusal at h
  dsimp only at h
  split at h
  · cases h; rfl
  · split at h
    · cases h; rfl
    · cases h

theorem createRefusal_saggar {s : State} {r : Region} {d : List Byte} {g home : Nat}
    (h : s.createRefusal r d g home = none) : r.saggar = g := by
  unfold State.createRefusal at h
  dsimp only at h
  split at h
  · cases h
  · split at h
    · cases h
    next hn =>
      simp only [not_or, not_not] at hn
      obtain ⟨-, -, -, -, -, -, hg, -⟩ := hn
      exact hg

/-- The region as it comes into being (R382, R490). -/
def Region.created (r : Region) (conf : Bool) (owner : Nat) : Region :=
  { r with conf := conf, owner := if r.coh = 2 then owner else 0xFFFF }

/-- Two states that differ at most in what goes outside, the log and the table of hot ranges. -/
def HotApart (s t : State) : Prop :=
  t = { s with out := t.out, sat := t.sat, ctr := t.ctr, log := t.log, fab := { s.fab with hot := t.fab.hot } }

namespace HotApart

theorem refl (s : State) : HotApart s s := rfl

theorem trans {s t u : State} (h : HotApart s t) (k : HotApart t u) : HotApart s u := by
  unfold HotApart at *; rw [k, h]

theorem sendCtrlAll (l : List Nat) (m : CtrlMsg) (s : State) : HotApart s (sendCtrlAll l m s) :=
  forEach_rel refl trans (fun _ s => refl { s with out := s.out ++ [_] }) _ s

theorem enterHotRange (h : HotRange) (s : State) : HotApart s (enterHotRange h s) := by
  unfold Machine.enterHotRange
  split
  · exact refl s
  · split
    · rfl
    · unfold logEvent logAs occur; split <;> rfl

end HotApart

/-- A created region stands in the table before its record goes out. -/
theorem createRegion_eq (r : Region) (owner : Nat) (s : State) : ∃ t : State,
    HotApart (setRegion r.id (r.created (s.sagConf r.saggar) owner) s) t ∧ createRegion r owner s = streamDirectory r.id false t := by
  unfold createRegion
  dsimp only
  split
  · exact ⟨_, .refl _, rfl⟩
  · exact ⟨_, .trans (.sendCtrlAll ..) (.enterHotRange ..), rfl⟩

theorem rptResult_nil_short : (rptResult 0 []).length ≤ 512 := rptResult_short (by decide)

/-- The answer once a region is created: its record has gone out before, and no other region has changed. -/
theorem created_spec {p : Packet} {r : Region} {s u : State}
    (hu : u = reply p .ok 0 (rptResult 0 []) (createRegion r p.src (take p s))) :
    AnsweredAfterRecords p .ok 0 (rptResult 0 []) s u
      ∧ u.tie = (setRegion r.id (r.created (s.sagConf r.saggar) p.src) s).tie := by
  obtain ⟨t, ht, he⟩ := createRegion_eq r p.src (take p s)
  have sent := streamDirectory_sent r.id false t
  rw [← he] at sent
  rw [hu]
  refine ⟨answeredAfterRecords_reply rfl rptResult_nil_short sent rfl ?_ ?_ ?_ ?_, ?_⟩
  · rw [ht]; rfl
  · rw [ht]; rfl
  · rw [ht]; rfl
  · rw [ht]; rfl
  · rw [reply_of_uncounted rfl rptResult_nil_short, addTx, sent.1, ht]; rfl

/-! ### `REGION_DELETE` and the end of deleted regions (R204) -/

theorem deleting_spec {p : Packet} {r : Region} {s u : State} (hr : afind s.tie.regions r.id = some r)
    (hu : u = reply p .ok 0 (rptResult 0 []) (beginDelete r (take p s))) :
    AnsweredAfterRecords p .ok 0 (rptResult 0 []) s u
      ∧ u = { s with fab := u.fab, tie := (setRegion r.id { r with deleting := some ((take p s).requestsOf r) } s).tie } := by
  have sent := streamDirectory_sent r.id true (take p s)
  have begun : beginDelete r (take p s)
      = setRegion r.id { r with deleting := some ((take p s).requestsOf r) } (streamDirectory r.id true (take p s)) :=
    modRegion_eq (by rw [sent.1]; exact hr) _
  rw [hu, begun]
  refine ⟨answeredAfterRecords_reply rfl rptResult_nil_short sent rfl rfl rfl rfl rfl, ?_⟩
  rw [reply_of_uncounted rfl rptResult_nil_short, addTx, setRegion, sent.1]; rfl

theorem deleteRegion_regions (id : Nat) (s : State) : (deleteRegion id s).tie.regions = aerase s.tie.regions id := by
  unfold deleteRegion
  dsimp only
  rw [FreeApart.freeUnheld]

/-- The regions without one that is deleted, its directory entries and its hot range. -/
def withoutRegion (id : Nat) (s : State) : State :=
  { s with tie := { s.tie with regions := aerase s.tie.regions id }
           coh := { s.coh with dir := s.coh.dir.filter (fun p => p.1.1 ≠ id) }
           fab := { s.fab with hot := s.fab.hot.filter (fun h => h.region ≠ id) } }

theorem deleteRegion_frames (id : Nat) (s : State) : (deleteRegion id s).tie.frames
    = (freeUnheld (s.region id).held.eraseDups (withoutRegion id s)).tie.frames := rfl

/-- A frame that no list holds is freed. -/
theorem freeUnheld_frees {l : List Nat} {f : Nat} {s : State} (hf : f ∈ l) (hn : f ∉ s.heldFrames) :
    afind (freeUnheld l s).tie.frames f = none := by
  induction l generalizing s with
  | nil => cases hf
  | cons i r ih =>
    have e : freeUnheld (i :: r) s = freeUnheld r (if s.heldFrames.contains i then s else freeFrame i s) := rfl
    rw [e]
    by_cases hi : i = f
    · subst hi
      have hfree : ¬ s.heldFrames.contains i = true := by simpa using hn
      rw [if_neg hfree]
      exact (afind_frames_freeUnheld ..).2 (by rw [afind_frames_freeFrame, if_pos rfl])
    · have hr : f ∈ r := (List.mem_cons.mp hf).resolve_left (Ne.symm hi)
      refine ih hr ?_
      split
      · exact hn
      · rw [State.heldFrames, FreeApart.freeFrame i s]; exact hn

theorem mem_aerase {κ α : Type} [DecidableEq κ] {m : Assoc κ α} {k : κ} {x : κ × α} : x ∈ aerase m k ↔ x ∈ m ∧ x.1 ≠ k := by
  simp [aerase]

/-- The deletion of each region of a list. -/
def deleteRegions (l : Assoc Nat Region) (s : State) : State := forEach l (fun q s => deleteRegion q.1 s) s

theorem deleteRegions_find (l : Assoc Nat Region) (s : State) (k : Nat) :
    afind (deleteRegions l s).tie.regions k = if k ∈ l.map (·.1) then none else afind s.tie.regions k := by
  induction l generalizing s with
  | nil => rfl
  | cons q r ih =>
    refine (ih (deleteRegion q.1 s)).trans ?_
    rw [deleteRegion_regions, afind_aerase]
    by_cases hr : k ∈ r.map (·.1)
    · simp [hr]
    · by_cases hq : q.1 = k
      · simp [hq]
      · simp [hr, hq, Ne.symm hq]

theorem region_deleteRegion_held {id k f : Nat} {s : State} (h : f ∉ (s.region k).held) :
    f ∉ ((deleteRegion id s).region k).held := by
  rw [State.region, deleteRegion_regions, aget_aerase]
  split
  · exact List.not_mem_nil
  · exact h

/-- A frame that none of the regions deleted holds stays as it is. -/
theorem deleteRegions_frames_kept {l : Assoc Nat Region} {f : Nat} {s : State} (h : ∀ q ∈ l, f ∉ (s.region q.1).held) :
    afind (deleteRegions l s).tie.frames f = afind s.tie.frames f := by
  induction l generalizing s with
  | nil => rfl
  | cons q r ih =>
    refine (ih fun x hx => region_deleteRegion_held (h x (List.mem_cons_of_mem _ hx))).trans ?_
    rw [deleteRegion_frames, (afind_frames_freeUnheld ..).1 fun hf => h q List.mem_cons_self (List.mem_eraseDups.mp hf)]
    rfl

theorem deleteRegions_frames_none {l : Assoc Nat Region} {f : Nat} {s : State} (h : afind s.tie.frames f = none) :
    afind (deleteRegions l s).tie.frames f = none := by
  induction l generalizing s with
  | nil => exact h
  | cons q r ih => exact ih ((afind_frames_freeUnheld ..).2 h)

/-- A frame that a deleted region alone holds is freed. -/
theorem deleteRegions_frames_freed {l : Assoc Nat Region} {id f : Nat} {s : State} (hid : id ∈ l.map (·.1))
    (hf : f ∈ (s.region id).held) (hn : ∀ x ∈ s.tie.regions, x.1 ≠ id → f ∉ x.2.held) :
    afind (deleteRegions l s).tie.frames f = none := by
  induction l generalizing s with
  | nil => cases hid
  | cons q r ih =>
    by_cases hq : q.1 = id
    · refine deleteRegions_frames_none (l := r) ?_
      subst hq
      rw [deleteRegion_frames]
      refine freeUnheld_frees (List.mem_eraseDups.mpr hf) fun hheld => ?_
      obtain ⟨x, hx, hfx⟩ := List.mem_flatMap.mp hheld
      obtain ⟨hx, hne⟩ := mem_aerase.mp hx
      exact hn x hx hne hfx
    · have hr : id ∈ r.map (·.1) := (List.mem_cons.mp hid).resolve_left (Ne.symm hq)
      refine ih hr ?_ fun x hx => ?_
      · rwa [State.region, deleteRegion_regions, aget_aerase, if_neg hq]
      · rw [deleteRegion_regions] at hx
        exact hn x (mem_aerase.mp hx).1

/-- The deleted regions none of whose requests is in hand. -/
def State.deletedDone (s : State) : Assoc Nat Region :=
  s.tie.regions.filter (fun q => match q.2.deleting with | some l => !l.any s.inHand | none => false)

theorem finishDeletes_eq (s : State) : finishDeletes s = deleteRegions s.deletedDone s := rfl

theorem mem_deletedDone {s : State} {q : Nat × Region} :
    q ∈ s.deletedDone ↔ q ∈ s.tie.regions ∧ ∃ l, q.2.deleting = some l ∧ l.any s.inHand = false := by
  rw [State.deletedDone, List.mem_filter]
  refine and_congr_right fun _ => ?_
  cases q.2.deleting <;> simp

theorem mem_deletedDone_keys {s : State} (hn : (s.tie.regions.map (·.1)).Nodup) {id : Nat} {r : Region}
    (hr : afind s.tie.regions id = some r) :
    id ∈ s.deletedDone.map (·.1) ↔ ∃ l, r.deleting = some l ∧ l.any s.inHand = false := by
  constructor
  · intro h
    obtain ⟨⟨k, x⟩, hq, rfl⟩ := List.mem_map.mp h
    obtain ⟨hx, hdone⟩ := mem_deletedDone.mp hq
    have : x = r := Option.some.inj ((afind_of_mem hn hx).symm.trans hr)
    exact this ▸ hdone
  · intro h
    exact List.mem_map.mpr ⟨(id, r), mem_deletedDone.mpr ⟨mem_of_afind hr, h⟩, rfl⟩

/-! ### `REGION_SEAL` and `REGION_INFO` -/

/-- A region as it is sealed (R202). -/
def Region.sealed (r : Region) (dg : List Byte) : Region :=
  { r with sealed_ := true, contentDigest := dg, version := 1
           versions := aset r.versions 1 { pages := r.working, lost := r.lostPages } }

theorem copyJobs_apart (cls : Nat) (r : Region) (ver : Option Nat) (node : Nat) (s : State) :
    QueueApart s (copyJobs cls r ver node s) :=
  forEach_rel QueueApart.refl QueueApart.trans (fun _ s => QueueApart.enqueueMove _ s) _ s

theorem sealRegion_apart {r : Region} {s : State} (hr : afind s.tie.regions r.id = some r) (dg : List Byte) :
    QueueApart (streamDirectory r.id false (setRegion r.id (r.sealed dg) s)) (sealRegion r dg s) := by
  unfold sealRegion
  rw [modRegion_eq hr]
  dsimp only
  split
  · exact copyJobs_apart ..
  · exact .refl _

theorem digest_length_le (b : List Byte) : (digest b).length ≤ 32 := List.length_take_le ..

theorem sealed_spec {p : Packet} {r : Region} {s u : State} (hr : afind s.tie.regions r.id = some r)
    (hu : u = reply p .ok 0 (rptResult 0 (s.contentDigest r)) (sealRegion r (s.contentDigest r) (take p s))) :
    AnsweredAfterRecords p .ok 0 (rptResult 0 (s.contentDigest r)) s u
      ∧ u.tie.regions = (setRegion r.id (r.sealed (s.contentDigest r)) s).tie.regions
      ∧ u.tie.frames = s.tie.frames ∧ u.tie.mem = s.tie.mem := by
  have hlen : (rptResult 0 (s.contentDigest r)).length ≤ 512 :=
    rptResult_short ((digest_length_le _).trans (by decide))
  generalize s.contentDigest r = dg at *
  have sent := streamDirectory_sent r.id false (setRegion r.id (r.sealed dg) (take p s))
  have queued := sealRegion_apart (s := take p s) hr dg
  rw [hu]
  refine ⟨answeredAfterRecords_reply rfl hlen sent (by rw [queued]) rfl rfl rfl rfl, ?_, ?_, ?_⟩
  all_goals rw [reply_of_uncounted rfl hlen, addTx, queued, sent.1]; rfl

theorem desc_length (r : Region) : r.desc.length = 128 := by
  simp only [Region.desc, fit, zeros, List.length_append, natLe_length, List.length_take, List.length_replicate]
  omega

/-! ### What each procedure does, by the first condition it meets -/

section
variable {s : State} {p : Packet} (hpass : s.rptRefusal p = none) (hcp : s.arch.cp ≠ .restart)
include hpass hcp

section
variable (hproc : callProc p = 0xFF0)
include hproc

theorem regionCreate_of_refused {st : Status}
    (h : s.createRefusal (regionOfDesc (callArgs p)) (callArgs p) p.saggar p.dst = some st) :
    regionCreate p s = reply p st 0 [] (take p s) := by
  rw [regionCreate, servePool_of_open hproc hpass hcp]
  dsimp only
  rw [show (take p s).createRefusal (regionOfDesc (callArgs p)) (callArgs p) p.saggar p.dst = some st from h]

variable (h : s.createRefusal (regionOfDesc (callArgs p)) (callArgs p) p.saggar p.dst = none)
include h

/-- One that R202 does not refuse waits for the flash where its policy needs it. -/
theorem regionCreate_of_rebuild (hw : s.awaitsFlash (regionOfDesc (callArgs p)) = true) :
    regionCreate p s = reply p .nackRetry 20 [] (take p s) := by
  rw [regionCreate, servePool_of_open hproc hpass hcp]
  dsimp only
  rw [show (take p s).createRefusal (regionOfDesc (callArgs p)) (callArgs p) p.saggar p.dst = none from h]
  exact if_pos hw

theorem regionCreate_of_ready (hw : s.awaitsFlash (regionOfDesc (callArgs p)) = false) :
    regionCreate p s = reply p .ok 0 (rptResult 0 []) (createRegion (regionOfDesc (callArgs p)) p.src (take p s)) := by
  rw [regionCreate, servePool_of_open hproc hpass hcp]
  dsimp only
  rw [show (take p s).createRefusal (regionOfDesc (callArgs p)) (callArgs p) p.saggar p.dst = none from h]
  exact if_neg fun hw' => Bool.false_ne_true (hw.symm.trans hw')

end

section
variable (hproc : callProc p = 0xFF1)
include hproc

theorem regionDelete_of_unknown (h : s.ownRegion p (le (callArgs p) 0 4) = none) :
    regionDelete p s = reply p .denied 0 [] (take p s) := by
  rw [regionDelete, servePool_of_open hproc hpass hcp]
  dsimp only
  rw [show (take p s).ownRegion p (le (callArgs p) 0 4) = none from h]

variable {r : Region} (h : s.ownRegion p (le (callArgs p) 0 4) = some r)
include h

/-- A region with a view open is not deleted but by force. -/
theorem regionDelete_of_view (hview : r.viewOpen = true) (hforce : bit (le (callArgs p) 4 1) 0 = false) :
    regionDelete p s = reply p .nackRetry 14 [] (take p s) := by
  rw [regionDelete, servePool_of_open hproc hpass hcp]
  dsimp only
  rw [show (take p s).ownRegion p (le (callArgs p) 0 4) = some r from h]
  exact if_pos (by simp [hview, hforce])

theorem regionDelete_begins (hview : r.viewOpen = false ∨ bit (le (callArgs p) 4 1) 0 = true) :
    regionDelete p s = reply p .ok 0 (rptResult 0 []) (beginDelete r (take p s)) := by
  rw [regionDelete, servePool_of_open hproc hpass hcp]
  dsimp only
  rw [show (take p s).ownRegion p (le (callArgs p) 0 4) = some r from h]
  exact if_neg (by rcases hview with h | h <;> simp [h])

end

section
variable (hproc : callProc p = 0xFF2) {r : Region} (h : s.ownRegion p (le (callArgs p) 0 4) = some r)
include hproc h

theorem regionSeal_of_unsealed (hkind : r.kind = 0) (hseal : r.sealed_ = false) : regionSeal p s
    = reply p .ok 0 (rptResult 0 (s.contentDigest r)) (sealRegion r (s.contentDigest r) (take p s)) := by
  rw [regionSeal, servePool_of_open hproc hpass hcp]
  dsimp only
  rw [show (take p s).ownRegion p (le (callArgs p) 0 4) = some r from h]
  exact if_neg (by simp [Region.immutable, hkind, hseal])

theorem regionSeal_of_other (hbad : r.kind ≠ 0 ∨ r.sealed_ = true) : regionSeal p s = reply p .denied 0 [] (take p s) := by
  rw [regionSeal, servePool_of_open hproc hpass hcp]
  dsimp only
  rw [show (take p s).ownRegion p (le (callArgs p) 0 4) = some r from h]
  exact if_pos (by rcases hbad with h | h <;> simp [Region.immutable, h])

end

theorem regionInfo_of_owned (hproc : callProc p = 0xFF3) {r : Region} (h : s.ownRegion p (le (callArgs p) 0 4) = some r) :
    regionInfo p s = reply p .ok 0
      (rptResult 0 (r.desc ++ natLe (s.heldIn r 2) 4 ++ natLe (s.heldIn r 3) 4 ++ natLe (s.heldIn r 4) 4)) (take p s) := by
  rw [regionInfo, servePool_of_open hproc hpass hcp]
  rw [show (take p s).ownRegion p (le (callArgs p) 0 4) = some r from h]
  rfl

end

/-! ### What follows from the end of a deletion -/

section
variable {s : State} {id : Nat} {r : Region} {l : List Packet} (hr : afind s.tie.regions id = some r)
  (hl : r.deleting = some l) (hn : (s.tie.regions.map (·.1)).Nodup)
include hr hl hn

/-- While a request accepted before is in hand the region stays. -/
theorem finishDeletes_of_inHand (hin : l.any s.inHand = true) : afind (finishDeletes s).tie.regions id = some r := by
  rw [finishDeletes_eq, deleteRegions_find, if_neg, hr]
  intro h
  obtain ⟨l', hl', hout⟩ := (mem_deletedDone_keys hn hr).mp h
  rw [← Option.some.inj (hl.symm.trans hl'), hin] at hout
  cases hout

/-- Once none is, the region is gone with the frames that it alone holds. -/
theorem finishDeletes_of_done (hout : l.any s.inHand = false) : afind (finishDeletes s).tie.regions id = none
    ∧ ∀ f ∈ r.held, (∀ x ∈ s.tie.regions, x.1 ≠ id → f ∉ x.2.held) → afind (finishDeletes s).tie.frames f = none := by
  have hdone := (mem_deletedDone_keys hn hr).mpr ⟨l, hl, hout⟩
  rw [finishDeletes_eq]
  exact ⟨by rw [deleteRegions_find, if_pos hdone],
    fun f hf halone => deleteRegions_frames_freed hdone (by rwa [region_of_find hr]) halone⟩

end

/-- A region that is not deleted stays. -/
theorem finishDeletes_of_live {s : State} {k : Nat} {x : Region} (hn : (s.tie.regions.map (·.1)).Nodup)
    (hk : afind s.tie.regions k = some x) (hx : x.deleting = none) : afind (finishDeletes s).tie.regions k = some x := by
  rw [finishDeletes_eq, deleteRegions_find, if_neg, hk]
  intro h
  obtain ⟨l, hl, -⟩ := (mem_deletedDone_keys hn hk).mp h
  rw [hx] at hl
  cases hl

/-- A frame that no deleted region holds stays. -/
theorem finishDeletes_frames {s : State} {f : Nat} (hn : (s.tie.regions.map (·.1)).Nodup)
    (hf : ∀ x ∈ s.tie.regions, x.2.deleting ≠ none → f ∉ x.2.held) :
    afind (finishDeletes s).tie.frames f = afind s.tie.frames f := by
  rw [finishDeletes_eq]
  refine deleteRegions_frames_kept fun q hq => ?_
  obtain ⟨hq, l, hdel, -⟩ := mem_deletedDone.mp hq
  rw [region_of_find (afind_of_mem hn hq)]
  exact hf q hq (by rw [hdel]; exact Option.some_ne_none _)

/-- Settles O32: each procedure by what it answers and does to the region it names, a deletion's end by the regions
whose requests have all left. -/
theorem poolProcedures : Obligations.PoolProcedures := by
  intro s p d r hp hpass hd
  subst hd
  refine ⟨fun hcp => ?_, fun hcp hproc hr => ⟨fun st hst => ?_, fun hst hw => ?_, fun hst hw => ?_⟩,
    fun hcp hproc => ⟨fun hown => ?_, fun hown hview hforce => ?_, fun hown hid hview => ?_⟩,
    fun id l hr hl hn => ⟨fun hin => ?_, fun hout => ?_⟩,
    fun hcp hproc => ⟨fun hown hid hkind hseal => ?_, fun hown hbad => ?_⟩, fun hcp hproc hown => ?_⟩
  · have away : ∀ {c proc f}, exec c s = run p.wf (servePool p proc f s) → callProc p = proc →
        Effect c s (fun u => Answered p .nackRetry 20 [] s u ∧ u.tie = s.tie) := fun hc hproc =>
      effect_of (hc.trans (run_ok hp (servePool_of_restart hproc hpass hcp _))) (answered_refusal rfl)
    exact ⟨away rfl, away rfl, away rfl, away rfl⟩
  · subst hr
    exact effect_of (run_ok hp (regionCreate_of_refused hpass hcp hproc hst))
      (answered_take (createRefusal_uncounted hst) (Nat.zero_le _) _ rfl)
  · subst hr
    exact effect_of (run_ok hp (regionCreate_of_rebuild hpass hcp hproc hst hw)) (answered_take rfl (Nat.zero_le _) _ rfl)
  · subst hr
    obtain ⟨answered, tie⟩ := created_spec (p := p) (r := regionOfDesc (callArgs p)) (s := s) rfl
    refine effect_of (run_ok hp (regionCreate_of_ready hpass hcp hproc hst hw)) ⟨answered, ?_, fun k hk => ?_, ?_⟩
    · rw [tie, setRegion_find_self]
      exact congrArg (fun g => some ((regionOfDesc (callArgs p)).created (s.sagConf g) p.src)) (createRefusal_saggar hst)
    · rw [tie, setRegion_find_ne hk]
    · rw [tie]; rfl
  · exact effect_of (run_ok hp (regionDelete_of_unknown hpass hcp hproc hown)) (answered_take rfl (Nat.zero_le _) _ rfl)
  · exact effect_of (run_ok hp (regionDelete_of_view hpass hcp hproc hown hview hforce)) (answered_take rfl (Nat.zero_le _) _ rfl)
  · obtain ⟨answered, frame⟩ := deleting_spec (p := p) (hid ▸ afind_of_ownRegion hown) rfl
    refine effect_of (run_ok hp (regionDelete_begins hpass hcp hproc hown hview)) ⟨answered, ?_, fun k hk => ?_, ?_⟩
    · rw [frame]; exact setRegion_find_self ..
    · rw [frame]; exact setRegion_find_ne hk ..
    · rw [frame]; rfl
  · exact finishDeletes_of_inHand hr hl hn hin
  · obtain ⟨gone, freed⟩ := finishDeletes_of_done hr hl hn hout
    exact ⟨gone, freed, fun f hf => finishDeletes_frames hn hf, fun k x hk hx => finishDeletes_of_live hn hk hx⟩
  · obtain ⟨answered, regions, frames, mem⟩ := sealed_spec (p := p) (hid ▸ afind_of_ownRegion hown) rfl
    refine effect_of (run_ok hp (regionSeal_of_unsealed hpass hcp hproc hown hkind hseal)) ⟨answered, ?_, fun k hk => ?_, frames, mem⟩
    · rw [regions]; exact setRegion_find_self ..
    · rw [regions]; exact setRegion_find_ne hk ..
  · exact effect_of (run_ok hp (regionSeal_of_other hpass hcp hproc hown hbad)) (answered_take rfl (Nat.zero_le _) _ rfl)
  · refine effect_of (run_ok hp (regionInfo_of_owned hpass hcp hproc hown))
      (And.symm (answered_take rfl (rptResult_short ?_) _ rfl))
    simp only [List.length_append, desc_length, natLe_length]
    decide

end Sys2Proof.Machine
end

section
namespace Sys2Proof.Machine

/-! ## Tables of which some entries are dropped -/

section
variable {κ α : Type} [DecidableEq κ] {m : Assoc κ α} {k : κ} {f : κ × α → Bool}

theorem afind_filter_of_kept (h : ∀ x ∈ m, x.1 = k → f x = true) : afind (m.filter f) k = afind m k := by
  induction m with
  | nil => rfl
  | cons x r ih =>
    obtain ⟨a, b⟩ := x
    have ih := ih fun x hx => h x (List.mem_cons_of_mem _ hx)
    by_cases ha : a = k
    · subst ha
      have keep : f (a, b) = true := h (a, b) List.mem_cons_self rfl
      simp [keep, afind]
    · cases keep : f (a, b) <;> simp [keep, afind, ha, ih]

theorem afind_filter_of_dropped (h : ∀ x ∈ m, x.1 = k → f x = false) : afind (m.filter f) k = none := by
  cases hk : afind (m.filter f) k with
  | none => rfl
  | some v =>
    obtain ⟨hx, hf⟩ := List.mem_filter.mp (mem_of_afind hk)
    rw [h _ hx rfl] at hf
    cases hf

end

/-! ## Versions of a region and their views (R211 to R216) -/

/-- A range for a view ends below the port of the homes, meets no view, and lies in the upper half on a page boundary
where every view open does. -/
theorem viewBase_spec {s : State} {size base : Nat} (h : s.viewBase size = some base) :
    base + size ≤ xferPort ∧ (∀ w ∈ s.views, base + size ≤ w.1 ∨ w.2 ≤ base)
      ∧ ((∀ w ∈ s.views, 2 ^ 47 ≤ w.2 ∧ w.2 % 65536 = 0) → 2 ^ 47 ≤ base ∧ base % 65536 = 0) := by
  have found := List.find?_some h
  simp only [Bool.and_eq_true, decide_eq_true_eq, List.all_eq_true, Bool.or_eq_true] at found
  obtain ⟨top, apart⟩ := found
  refine ⟨top, apart, fun hviews => ?_⟩
  rcases List.mem_append.mp (List.mem_of_find?_eq_some h) with hmem | hmem
  · rcases List.mem_cons.mp hmem with rfl | hmem
    · simp only [pageBytes]; omega
    · obtain ⟨w, hw, rfl⟩ := List.mem_map.mp hmem
      exact hviews w hw
  · rw [List.mem_singleton.mp hmem]; decide

/-- A region with one version set. -/
def Region.setVersion (r : Region) (v : Nat) (x : Version) : Region := { r with versions := aset r.versions v x }

/-- A version as one more open of a node leaves it, with its view. -/
def Version.opened (x : Version) (node base : Nat) : Version :=
  { x with opens := aset x.opens node (aget x.opens node 0 + 1), view := some base }

/-- A version with one open of a node taken back. -/
def Version.closed (x : Version) (node : Nat) : Version :=
  { x with opens := aset x.opens node (aget x.opens node 0 - 1) }

/-- The version that an `OPEN` names, the current one where it names none. -/
def wantedVersion (q : Packet) (r : Region) : Nat := if le q.payload 4 4 = 0 then r.version else le q.payload 4 4

/-- The view of a version to be opened: its own, or a new range where the limit leaves one. -/
def State.viewFor (s : State) (r : Region) (x : Version) : Option Nat :=
  x.view.or (if 65536 ≤ s.viewCount then none else s.viewBase r.size)

/-- The search for the next view goes on behind one that is new. -/
def noteView (r : Region) (x : Version) (base : Nat) (s : State) : State :=
  { s with tie := { s.tie with
      nextView := if x.view = none then (base + r.size - 2 ^ 47) / 65536 else s.tie.nextView } }

/-- A region without the versions that are neither current nor open (R215). -/
def Region.released (r : Region) : Region :=
  { r with versions := r.versions.filter (fun p => ¬ (p.1 ≠ r.version ∧ p.2.opens.all (fun o => o.2 = 0))) }

theorem released_current (r : Region) : afind r.released.versions r.version = afind r.versions r.version :=
  afind_filter_of_kept fun x _ hx => by simp [hx]

theorem released_set_current (r : Region) (x d : Version) :
    aget (r.setVersion r.version x).released.versions r.version d = x := by
  rw [aget_eq_afind]
  exact congrArg (·.getD d) ((released_current (r.setVersion r.version x)).trans (afind_aset_self ..))

theorem released_of_not_open {r : Region} {v : Nat} {x : Version} (hv : v ≠ r.version) (hn : (r.versions.map (·.1)).Nodup)
    (hx : x.opens.all (fun o => o.2 = 0) = true) : afind (r.setVersion v x).released.versions v = none := by
  refine afind_filter_of_dropped fun y hy hk => ?_
  rcases mem_aset_of_nodup hn hy with rfl | ⟨-, hne⟩
  · have hv' : v ≠ (r.setVersion v x).version := hv
    simp [hv', hx]
  · exact absurd hk hne

theorem releaseVersions_apart {id : Nat} {r : Region} {s : State} (hr : afind s.tie.regions id = some r) :
    FreeApart (setRegion id r.released s) (releaseVersions id s) := by
  unfold releaseVersions
  dsimp only
  rw [modRegion_eq hr, region_of_find hr]
  exact FreeApart.freeUnheld ..

/-- The regions after a release: one of them without what it releases. -/
theorem releaseVersions_find {id : Nat} {r : Region} {s : State} (hr : afind s.tie.regions id = some r) :
    afind (releaseVersions id s).tie.regions id = some r.released
      ∧ ∀ k, k ≠ id → afind (releaseVersions id s).tie.regions k = afind s.tie.regions k := by
  rw [releaseVersions_apart hr]
  exact ⟨setRegion_find_self .., fun k hk => setRegion_find_ne hk ..⟩

section
variable {q : Packet} {s : State} {r : Region} (hq : s.snapRefusal q = .ok r)
include hq

/-! ### `OPEN` -/

theorem openVersion_of_no_version (hv : wantedVersion q r = 0) : openVersion q s = reply q .denied 0 [] (take q s) := by
  rw [openVersion, hq]
  exact if_pos (.inl hv)

section
variable {x : Version} (hv : wantedVersion q r ≠ 0) (hx : afind r.versions (wantedVersion q r) = some x)
  (hseal : r.immutable = true → r.sealed_ = true)
include hv hx hseal

/-- A version that is there can be opened as far as the limits go. -/
theorem openVersion_of_held : openVersion q s = if 65535 ≤ aget x.opens q.src 0 then reply q .nackRetry 14 [] (take q s) else
    match s.viewFor r x with
    | none => reply q .nackRetry 14 [] (take q s)
    | some base => reply q .ok 0 (natLe (wantedVersion q r) 8 ++ natLe base 8)
        (modRegion r.id (fun y => y.setVersion (wantedVersion q r) (x.opened q.src base)) (noteView r x base (take q s))) := by
  have hopen : ¬ (wantedVersion q r = 0 ∨ ahas r.versions (wantedVersion q r) = false ∨ r.immutable = true ∧ r.sealed_ = false) := by
    rintro (h | h | ⟨hi, hs⟩)
    · exact hv h
    · rw [ahas, hx] at h; cases h
    · rw [hseal hi] at hs; cases hs
  have hver : aget r.versions (wantedVersion q r) {} = x := by rw [aget_eq_afind, hx]; rfl
  have noted : ∀ base : Nat, (if x.view = none then
      { take q s with tie := { (take q s).tie with nextView := (base + r.size - 2 ^ 47) / pageBytes } } else take q s)
        = noteView r x base (take q s) := fun base => by unfold noteView; split <;> rfl
  rw [openVersion, hq]
  refine (if_neg hopen).trans ?_
  rw [show (if le q.payload 4 4 = 0 then r.version else le q.payload 4 4) = wantedVersion q r from rfl, hver]
  dsimp only
  simp only [noted]
  rfl

theorem openVersion_of_limits (h : 65535 ≤ aget x.opens q.src 0 ∨ s.viewFor r x = none) :
    openVersion q s = reply q .nackRetry 14 [] (take q s) := by
  rw [openVersion_of_held hq hv hx hseal]
  split
  · rfl
  next hn => rw [h.resolve_left hn]

theorem openVersion_of_room (hr : afind s.tie.regions r.id = some r) (hn : aget x.opens q.src 0 < 65535) {base : Nat}
    (hb : s.viewFor r x = some base) :
    openVersion q s = reply q .ok 0 (natLe (wantedVersion q r) 8 ++ natLe base 8)
      (setRegion r.id (r.setVersion (wantedVersion q r) (x.opened q.src base)) (noteView r x base (take q s))) := by
  rw [openVersion_of_held hq hv hx hseal, if_neg (by omega), hb]
  dsimp only
  rw [modRegion_eq (s := noteView r x base (take q s)) hr]

end

/-! ### `CLOSE` -/

theorem closeVersion_of_not_open (h : aget (aget r.versions (le q.payload 4 4) {}).opens q.src 0 = 0) :
    closeVersion q s = reply q .denied 0 [] (take q s) := by
  rw [closeVersion, hq]
  exact if_pos h

theorem closeVersion_of_open (hr : afind s.tie.regions r.id = some r)
    (h : aget (aget r.versions (le q.payload 4 4) {}).opens q.src 0 ≠ 0) :
    closeVersion q s = reply q .ok 0 [] (releaseVersions r.id (setRegion r.id
      (r.setVersion (le q.payload 4 4) ((aget r.versions (le q.payload 4 4) {}).closed q.src)) (take q s))) := by
  rw [closeVersion, hq]
  refine (if_neg h).trans ?_
  rw [modRegion_eq (s := take q s) hr]
  rfl

/-- The answer to a `CLOSE`, and the region without what it releases. -/
theorem closed_spec (hr : afind s.tie.regions r.id = some r)
    (h : aget (aget r.versions (le q.payload 4 4) {}).opens q.src 0 ≠ 0) {u : State} (hu : u = closeVersion q s) :
    Answered q .ok 0 [] s u
      ∧ u.region r.id = (r.setVersion (le q.payload 4 4) ((aget r.versions (le q.payload 4 4) {}).closed q.src)).released
      ∧ ∀ k, k ≠ r.id → afind u.tie.regions k = afind s.tie.regions k := by
  have found := setRegion_find_self r.id (r.setVersion (le q.payload 4 4) ((aget r.versions (le q.payload 4 4) {}).closed q.src)) (take q s)
  have apart := releaseVersions_apart found
  obtain ⟨self, others⟩ := releaseVersions_find found
  rw [hu, closeVersion_of_open hq hr h, reply_ok_short]
  refine ⟨answered_of_addTx (logApart_refl _) (by rw [apart]; rfl) rfl, region_of_find self, fun k hk => ?_⟩
  exact (others k hk).trans (setRegion_find_ne hk _ (take q s))

/-! ### `PUBLISH` -/

theorem publish_of_immutable (h : r.kind = 0) : publish q s = reply q .denied 0 [] (take q s) := by
  rw [publish, hq]
  exact if_pos (decide_eq_true h)

section
variable (hkind : r.kind ≠ 0)
include hkind

theorem publish_of_transfer (hc : r.coh = 2) (ht : r.inTransfer = true) : publish q s = reply q .nackRetry 10 [] (take q s) := by
  have him : ¬ r.immutable = true := by simpa [Region.immutable] using hkind
  rw [publish, hq]
  exact (if_neg him).trans (if_pos ⟨hc, ht⟩)

theorem publish_of_not_owner (hc : r.coh = 2) (ht : r.inTransfer = false) (ho : q.src ≠ r.owner) :
    publish q s = reply q .nackNotOwner 0 [] (take q s) := by
  have him : ¬ r.immutable = true := by simpa [Region.immutable] using hkind
  have htr : ¬ (r.coh = 2 ∧ r.inTransfer = true) := by simp [ht]
  rw [publish, hq]
  exact (if_neg him).trans ((if_neg htr).trans (if_pos ⟨hc, ho⟩))

/-- A region whose working pages are its next version. -/
def Region.published (r : Region) : Region :=
  { r.setVersion (r.version + 1) { pages := r.working, lost := r.lostPages } with version := r.version + 1 }

section
variable (hown : r.coh = 2 → r.inTransfer = false ∧ q.src = r.owner)
include hown

theorem publish_of_owner : publish q s = if le q.payload 4 4 ≠ r.version then reply q .nackConflict 0 (natLe r.version 16) (take q s)
    else if 0xFFFFFFFE < r.version + 1 then reply q .denied 0 [] (take q s)
    else reply q .ok 0 (natLe (r.version + 1) 16) (streamDirectory r.id false (releaseVersions r.id
      (modRegion r.id (fun y => { y with version := r.version + 1
                                         versions := aset y.versions (r.version + 1) { pages := y.working, lost := y.lostPages } }) (take q s)))) := by
  have him : ¬ r.immutable = true := by simpa [Region.immutable] using hkind
  have htr : ¬ (r.coh = 2 ∧ r.inTransfer = true) := fun ⟨hc, ht⟩ => by rw [(hown hc).1] at ht; cases ht
  have hno : ¬ (r.coh = 2 ∧ q.src ≠ r.owner) := fun ⟨hc, ho⟩ => ho (hown hc).2
  rw [publish, hq]
  exact (if_neg him).trans ((if_neg htr).trans (if_neg hno))

theorem publish_of_conflict (hv : le q.payload 4 4 ≠ r.version) :
    publish q s = reply q .nackConflict 0 (natLe r.version 16) (take q s) := by
  rw [publish_of_owner hq hkind hown, if_pos hv]

theorem publish_of_current (hv : le q.payload 4 4 = r.version) (hmax : r.version + 1 ≤ 0xFFFFFFFE)
    (hr : afind s.tie.regions r.id = some r) :
    publish q s = reply q .ok 0 (natLe (r.version + 1) 16) (streamDirectory r.id false (releaseVersions r.id
      (setRegion r.id r.published (take q s)))) := by
  rw [publish_of_owner hq hkind hown, if_neg (not_not.mpr hv), if_neg (by omega), modRegion_eq (s := take q s) hr]
  rfl

theorem published_spec (hv : le q.payload 4 4 = r.version) (hmax : r.version + 1 ≤ 0xFFFFFFFE)
    (hr : afind s.tie.regions r.id = some r) {u : State} (hu : u = publish q s) :
    AnsweredAfterRecords q .ok 0 (natLe (r.version + 1) 16) s u ∧ u.region r.id = r.published.released
      ∧ ∀ k, k ≠ r.id → afind u.tie.regions k = afind s.tie.regions k := by
  have found := setRegion_find_self r.id r.published (take q s)
  have apart := releaseVersions_apart found
  obtain ⟨self, others⟩ := releaseVersions_find found
  have sent := streamDirectory_sent r.id false (releaseVersions r.id (setRegion r.id r.published (take q s)))
  have hlen : (natLe (r.version + 1) 16).length ≤ 512 := by rw [natLe_length]; decide
  have kept : u.tie = (releaseVersions r.id (setRegion r.id r.published (take q s))).tie := by
    rw [hu, publish_of_current hq hkind hown hv hmax hr, reply_of_uncounted rfl hlen, addTx, sent.1]
  refine ⟨?_, ?_, fun k hk => ?_⟩
  · rw [hu, publish_of_current hq hkind hown hv hmax hr]
    exact answeredAfterRecords_reply rfl hlen sent rfl (by rw [apart]; rfl) (by rw [apart]; rfl) (by rw [apart]; rfl)
      (by rw [apart]; rfl)
  · rw [State.region, kept]
    exact region_of_find self
  · rw [kept]
    exact (others k hk).trans (setRegion_find_ne hk _ (take q s))

end
end
end

/-- Settles O33: what each request does by the first condition it meets, a view by the search for its range, a released
version by its opens. -/
theorem snapshots : Obligations.Snapshots := by
  intro s p q r hp
  have opens : ∀ {u}, q = { p with opcode := opOPEN } → u = openVersion q s → Completes (.openVersion p) s u :=
    fun hq hu => run_ok hp (by rw [hu, hq])
  have closes : ∀ {u}, q = { p with opcode := opCLOSE } → u = closeVersion q s → Completes (.closeVersion p) s u :=
    fun hq hu => run_ok hp (by rw [hu, hq])
  have publishes : ∀ {u}, q = { p with opcode := opPUBLISH } → u = publish q s → Completes (.publish p) s u :=
    fun hq hu => run_ok hp (by rw [hu, hq])
  refine ⟨fun st h hq href => ?_, fun st h hq href => ?_, fun st h hq href => ?_,
    fun v n base x hq hok hv hv0 hx hseal hn hr => ?_, fun hq hok h0 hv => ?_, fun v n x hq hok hv hx hn hr => ?_,
    fun hq hok hkind hr hown => ⟨fun hv hmax => ?_, fun hv => ?_⟩, fun hq hok hkind => ?_, fun hq hok hkind hc ht => ?_,
    fun hq hok hkind hc ht ho => ?_⟩
  · exact effect_of (opens hq (by rw [openVersion, href])) (answered_refusal rfl)
  · exact effect_of (closes hq (by rw [closeVersion, href])) (answered_refusal rfl)
  · exact effect_of (publishes hq (by rw [publish, href])) (answered_refusal rfl)
  · obtain rfl : v = wantedVersion q r := hv
    subst hn
    refine ⟨fun hlt hb => ?_, fun hlim => ?_⟩
    · have hlen : (natLe (wantedVersion q r) 8 ++ natLe base 8).length ≤ 512 := by
        rw [List.length_append, natLe_length, natLe_length]; decide
      have room := openVersion_of_room hok hv0 hx hseal hr hlt hb
      rw [reply_of_uncounted rfl hlen] at room
      refine effect_of (opens hq room.symm) ⟨⟨rfl, _, rfl, rfl, rfl, rfl, rfl, rfl, rfl, rfl, rfl⟩, ?_, fun k hk => ?_, rfl,
        fun hnew => ?_⟩
      · exact setRegion_find_self ..
      · exact setRegion_find_ne hk ..
      · refine viewBase_spec (s := s) ?_
        rw [hnew, Option.none_or] at hb
        split at hb
        · cases hb
        · exact hb
    · exact effect_of (opens hq (openVersion_of_limits hok hv0 hx hseal hlim).symm) (answered_take rfl (Nat.zero_le _) _ rfl)
  · have hnone : wantedVersion q r = 0 := (if_pos h0).trans hv
    exact effect_of (opens hq (openVersion_of_no_version hok hnone).symm) (answered_take rfl (Nat.zero_le _) _ rfl)
  · subst hv hx hn
    refine ⟨fun h0 => ?_, fun h1 hv => ?_, fun hone hv hnodup => ?_⟩
    · exact effect_of (closes hq (closeVersion_of_not_open hok h0).symm) (answered_take rfl (Nat.zero_le _) _ rfl)
    · obtain ⟨answered, self, others⟩ := closed_spec hok hr h1 rfl
      refine effect_of (closes hq rfl) ⟨answered, ?_, others⟩
      rw [self, hv, released_set_current]
      exact aget_aset_self ..
    · have h1 : aget (aget r.versions (le q.payload 4 4) {}).opens q.src 0 ≠ 0 := by rw [hone]; simp [aget]
      obtain ⟨answered, self, others⟩ := closed_spec hok hr h1 rfl
      refine effect_of (closes hq rfl) ⟨answered, ?_, others⟩
      rw [self, ahas, released_of_not_open hv hnodup (by simp [Version.closed, hone, aset, aget])]
      rfl
  · obtain ⟨answered, self, others⟩ := published_spec hok hkind hown hv hmax hr rfl
    refine effect_of (publishes hq rfl) ⟨answered, ?_, ?_, ?_, others⟩
    · rw [self]; rfl
    · rw [self]; rfl
    · rw [self]
      exact (released_current r.published).trans (afind_aset_self ..)
  · exact effect_of (publishes hq (publish_of_conflict hok hkind hown hv).symm)
      (answered_take rfl (by rw [natLe_length]; decide) _ rfl)
  · exact effect_of (publishes hq (publish_of_immutable hok hkind).symm) (answered_take rfl (Nat.zero_le _) _ rfl)
  · exact effect_of (publishes hq (publish_of_transfer hok hkind hc ht).symm) (answered_take rfl (Nat.zero_le _) _ rfl)
  · exact effect_of (publishes hq (publish_of_not_owner hok hkind hc ht ho).symm) (answered_take rfl (Nat.zero_le _) _ rfl)

end Sys2Proof.Machine
end

section
namespace Sys2Proof.Machine

/-! ## Grains after a change of other bytes (R197, R198) -/

theorem fit_length (bs : List Byte) (n : Nat) : (fit bs n).length = n := by
  simp only [fit, zeros, List.length_append, List.length_take, List.length_replicate]
  omega

theorem grain_length (s : State) (id g : Nat) : (s.grain id g).length = 256 := by
  unfold State.grain
  split
  · split
    · unfold State.unitGrain
      split
      · exact fit_length ..
      · exact List.length_replicate
    · simp [memRead]
  · exact List.length_replicate

/-- Where the pool's bytes hold the grain of a frame. -/
def grainAt (f g : Nat) : Nat := f * pageBytes + g * 256

/-- A grain outside the flash is in the pool's bytes. -/
theorem grain_of_frame {s : State} {f : Nat} {fr : Frame} (h : afind s.tie.frames f = some fr) (ht : fr.tier ≠ 4) (g : Nat) :
    s.grain f g = memRead s.tie.mem (grainAt f g) 256 := by
  rw [State.grain, h]
  exact if_neg ht

theorem frameTier_of_frame {s : State} {f : Nat} {fr : Frame} (h : afind s.tie.frames f = some fr) : s.frameTier f = fr.tier := by
  rw [State.frameTier, h]

theorem unitGrain_of_flm {s t : State} (h : t.flm = s.flm) (lua k : Nat) : t.unitGrain lua k = s.unitGrain lua k := by
  unfold State.unitGrain State.unitPage State.die State.entry
  rw [h]

/-- A grain reads as before where its frame's place, the flash and its bytes are as before. -/
theorem grain_congr {s t : State} {f : Nat} (hplace : (afind t.tie.frames f).map (fun fr => (fr.tier, fr.index))
      = (afind s.tie.frames f).map (fun fr => (fr.tier, fr.index)))
    (hflm : t.flm = s.flm) {g : Nat} (hmem : memRead t.tie.mem (grainAt f g) 256 = memRead s.tie.mem (grainAt f g) 256) :
    t.grain f g = s.grain f g := by
  unfold State.grain
  cases ht : afind t.tie.frames f with
  | none =>
    cases hs : afind s.tie.frames f with
    | none => rfl
    | some fr => rw [ht, hs] at hplace; cases hplace
  | some fr =>
    cases hs : afind s.tie.frames f with
    | none => rw [ht, hs] at hplace; cases hplace
    | some fr' =>
      rw [ht, hs] at hplace
      obtain ⟨htier, hindex⟩ := Prod.mk.inj (Option.some.inj hplace)
      dsimp only
      rw [htier, hindex, unitGrain_of_flm hflm]
      exact congrArg _ hmem

theorem grainGood_congr {s t : State} {f g : Nat} (hframe : afind t.tie.frames f = afind s.tie.frames f)
    (hflm : t.flm = s.flm) (hgrain : t.grain f g = s.grain f g) (r : Region) : t.grainGood r f g = s.grainGood r f g := by
  unfold State.grainGood State.grainOk State.grainPoisoned State.unitBad State.unitPage State.die State.entry
  rw [hframe, hgrain, hflm]

/-! ## Copying grains of a page to a frame (R205, R217) -/

/-- The frame with the side word of one of its grains changed. -/
theorem afind_setSide (id g f : Nat) (w : Side → Side) (s : State) : ∃ sd, afind (setSide id g w s).tie.frames f
    = if f = id then (afind s.tie.frames f).map (fun fr => { fr with side := sd }) else afind s.tie.frames f := by
  unfold setSide
  split
  next h =>
    refine ⟨[], ?_⟩
    split
    next hf => rw [hf, h]; rfl
    · rfl
  next fr h =>
    refine ⟨aset fr.side g (w (sideOf fr g)), ?_⟩
    split
    next hf => rw [hf, h]; exact afind_aset_self ..
    next hf => exact (afind_aset ..).trans (if_neg (Ne.symm hf))

/-- Two states that differ at most in the pool's bytes, the movers' queue and the side words of a frame's grains. -/
structure CopyApart (dst : Nat) (s t : State) : Prop where
  frame : t = { s with tie := { s.tie with frames := t.tie.frames, mem := t.tie.mem, queue := t.tie.queue } }
  others : ∀ f, f ≠ dst → afind t.tie.frames f = afind s.tie.frames f
  place : ∃ sd : Frame → Assoc Nat Side, afind t.tie.frames dst = (afind s.tie.frames dst).map (fun fr => { fr with side := sd fr })

namespace CopyApart

theorem refl (dst : Nat) (s : State) : CopyApart dst s s :=
  ⟨rfl, fun _ _ => rfl, Frame.side, by cases afind s.tie.frames dst <;> rfl⟩

theorem trans {dst : Nat} {s t u : State} (h : CopyApart dst s t) (k : CopyApart dst t u) : CopyApart dst s u := by
  obtain ⟨sd, hsd⟩ := h.place
  obtain ⟨sd', hsd'⟩ := k.place
  refine ⟨?_, fun f hf => (k.others f hf).trans (h.others f hf), fun fr => sd' { fr with side := sd fr }, ?_⟩
  · rw [k.frame, h.frame]
  · rw [hsd', hsd]
    cases afind s.tie.frames dst <;> rfl

theorem of_queue {dst : Nat} {s t : State} (h : QueueApart s t) : CopyApart dst s t := by
  rw [h]
  exact ⟨rfl, fun _ _ => rfl, (refl dst s).place⟩

theorem setSide (dst g : Nat) (w : Side → Side) (s : State) : CopyApart dst s (setSide dst g w s) := by
  have found := fun f => afind_setSide dst g f w s
  refine ⟨?_, fun f hf => ?_, ?_⟩
  · unfold Machine.setSide; split <;> rfl
  · obtain ⟨sd, h⟩ := found f
    rw [h, if_neg hf]
  · obtain ⟨sd, h⟩ := found dst
    exact ⟨fun _ => sd, by rw [h, if_pos rfl]⟩

theorem putGrain (dst g : Nat) (data : List Byte) (w : Side) (s : State) : CopyApart dst s (putGrain dst g data w s) :=
  trans (t := { s with tie := { s.tie with mem := memWrite s.tie.mem (dst * pageBytes + g * 256) data } })
    ⟨rfl, fun _ _ => rfl, (refl dst s).place⟩ (setSide ..)

theorem copyGrain (r : Region) (page : Nat) (ids : List Nat) (src dst g : Nat) (s : State) :
    CopyApart dst s (copyGrain r page ids src dst g s) := by
  unfold Machine.copyGrain
  dsimp only
  have put := putGrain dst g (s.takeGrain r ids src g).1 (s.takeGrain r ids src g).2 s
  split
  · exact put
  · refine put.trans (trans ?_ (setSide ..))
    split
    · exact of_queue (QueueApart.refetch ..)
    · exact refl ..

theorem copyGrains (r : Region) (page : Nat) (ids : List Nat) (src dst : Nat) (l : List Nat) (s : State) :
    CopyApart dst s (forEach l (Machine.copyGrain r page ids src dst) s) :=
  forEach_rel (refl dst) trans (copyGrain r page ids src dst) l s

theorem flm {dst : Nat} {s t : State} (h : CopyApart dst s t) : t.flm = s.flm := by rw [h.frame]
theorem regions {dst : Nat} {s t : State} (h : CopyApart dst s t) : t.tie.regions = s.tie.regions := by rw [h.frame]
theorem movers {dst : Nat} {s t : State} (h : CopyApart dst s t) : t.tie.movers = s.tie.movers := by rw [h.frame]

theorem samePlace {dst : Nat} {s t : State} (h : CopyApart dst s t) (f : Nat) :
    (afind t.tie.frames f).map (fun fr => (fr.tier, fr.index)) = (afind s.tie.frames f).map (fun fr => (fr.tier, fr.index)) := by
  by_cases hf : f = dst
  · obtain ⟨sd, hsd⟩ := h.place
    rw [hf, hsd, Option.map_map]
    rfl
  · rw [h.others f hf]

theorem frameTier {dst : Nat} {s t : State} (h : CopyApart dst s t) (f : Nat) : t.frameTier f = s.frameTier f := by
  have tierOf : ∀ u : State, u.frameTier f = (((afind u.tie.frames f).map fun fr => (fr.tier, fr.index)).map Prod.fst).getD 0 := fun u => by
    unfold State.frameTier
    cases afind u.tie.frames f <;> rfl
  rw [tierOf, tierOf, h.samePlace f]

end CopyApart

theorem setSide_mem (id g : Nat) (w : Side → Side) (s : State) : (setSide id g w s).tie.mem = s.tie.mem := by
  unfold setSide; split <;> rfl

/-- A grain copied is written to the destination's bytes, whatever its checks say. -/
theorem copyGrain_mem (r : Region) (page : Nat) (ids : List Nat) (src dst g : Nat) (s : State) :
    (copyGrain r page ids src dst g s).tie.mem = memWrite s.tie.mem (grainAt dst g) (s.takeGrain r ids src g).1 := by
  have put : (putGrain dst g (s.takeGrain r ids src g).1 (s.takeGrain r ids src g).2 s).tie.mem
      = memWrite s.tie.mem (grainAt dst g) (s.takeGrain r ids src g).1 := setSide_mem ..
  unfold copyGrain
  dsimp only
  split
  · exact put
  · refine (setSide_mem ..).trans ?_
    split
    · rw [QueueApart.refetch]; exact put
    · exact put

/-- Grains of frames apart, or two grains of one, lie apart. -/
theorem grainAt_apart {f f' g g' : Nat} (hg : g < 256) (hg' : g' < 256) (h : f ≠ f' ∨ g ≠ g') :
    grainAt f g + 256 ≤ grainAt f' g' ∨ grainAt f' g' + 256 ≤ grainAt f g := by
  simp only [grainAt, pageBytes]
  omega

/-- The grain copied comes from the source, but for `IMMUTABLE` data that fails there. -/
theorem takeGrain_of_source {s : State} {r : Region} {ids : List Nat} {src g : Nat}
    (h : r.kind ≠ 0 ∨ s.grainGood r src g = true) : (s.takeGrain r ids src g).1 = s.grain src g := by
  have hsrc : (s.grainGood r src g || !r.immutable) = true := by
    rcases h with h | h <;> simp [Region.immutable, h]
  simp only [State.takeGrain, hsrc, if_true]

theorem takeGrain_length (s : State) (r : Region) (ids : List Nat) (src g : Nat) : (s.takeGrain r ids src g).1.length = 256 :=
  grain_length ..

section
variable {r : Region} {page : Nat} {ids : List Nat} {src dst : Nat}

/-- One grain copied: it alone changes. -/
theorem copyGrain_grain_ne {s : State} (hm : Memory.wf s.tie.mem) {f g a : Nat} (hg : g < 256) (ha : a < 256)
    (h : f ≠ dst ∨ g ≠ a) : (copyGrain r page ids src dst a s).grain f g = s.grain f g := by
  have apart := CopyApart.copyGrain r page ids src dst a s
  refine grain_congr (apart.samePlace f) apart.flm ?_
  rw [copyGrain_mem]
  exact memRead_memWrite_apart hm (by rw [takeGrain_length]; exact grainAt_apart hg ha h)

theorem copyGrain_grain_self {s : State} (hm : Memory.wf s.tie.mem) {fr : Frame} (hd : afind s.tie.frames dst = some fr)
    (ht : fr.tier ≠ 4) (g : Nat) : (copyGrain r page ids src dst g s).grain dst g = (s.takeGrain r ids src g).1 := by
  obtain ⟨sd, hsd⟩ := (CopyApart.copyGrain r page ids src dst g s).place
  rw [hd] at hsd
  rw [grain_of_frame hsd ht, copyGrain_mem]
  have back := memRead_memWrite_same hm (grainAt dst g) (s.takeGrain r ids src g).1
  rwa [takeGrain_length] at back

/-- The grains of a list copied to a frame outside the flash: each of them, and no other. -/
theorem copyGrains_grain {s : State} (hm : Memory.wf s.tie.mem) {fr : Frame} (hd : afind s.tie.frames dst = some fr)
    (ht : fr.tier ≠ 4) (hne : src ≠ dst) {l : List Nat} (hl : ∀ g ∈ l, g < 256) :
    (∀ g ∈ l, r.kind ≠ 0 ∨ s.grainGood r src g = true →
        (forEach l (copyGrain r page ids src dst) s).grain dst g = s.grain src g)
      ∧ ∀ f g, g < 256 → f ≠ dst ∨ g ∉ l → (forEach l (copyGrain r page ids src dst) s).grain f g = s.grain f g := by
  induction l generalizing s fr with
  | nil => exact ⟨fun _ h => absurd h List.not_mem_nil, fun _ _ _ _ => rfl⟩
  | cons a l ih =>
    have ha := hl a List.mem_cons_self
    have apart := CopyApart.copyGrain r page ids src dst a s
    have wf : Memory.wf (copyGrain r page ids src dst a s).tie.mem := by
      rw [copyGrain_mem]; exact memWrite_wf _ _ _ hm
    obtain ⟨sd, hsd⟩ := apart.place
    rw [hd] at hsd
    obtain ⟨copied, kept⟩ := ih wf hsd ht fun g hg => hl g (List.mem_cons_of_mem _ hg)
    have once : ∀ {f g}, g < 256 → f ≠ dst ∨ g ≠ a → (copyGrain r page ids src dst a s).grain f g = s.grain f g :=
      fun hg h => copyGrain_grain_ne hm hg ha h
    constructor
    · intro g hg hgood
      by_cases hgl : g ∈ l
      · have hsrc := once (hl g hg) (.inl hne) (f := src)
        refine (copied g hgl (hgood.imp_right fun h => ?_)).trans hsrc
        rwa [grainGood_congr (apart.others src hne) apart.flm hsrc]
      · obtain rfl : g = a := (List.mem_cons.mp hg).resolve_right hgl
        refine (kept dst g ha (.inr hgl)).trans ?_
        rw [copyGrain_grain_self hm hd ht, takeGrain_of_source hgood]
    · intro f g hg h
      have hout : f ≠ dst ∨ g ≠ a ∧ g ∉ l := h.imp_right fun h => not_or.mp (List.mem_cons.not.mp h)
      exact (kept f g hg (hout.imp_right (·.2))).trans (once hg (hout.imp_right (·.1)))

end

end Sys2Proof.Machine
end

section
namespace Sys2Proof.Machine

/-! ## The end of a page move (R205, R209) -/

/-- Freeing a frame changes its bytes at most. -/
theorem freeFrame_mem (i : Nat) (s : State) : (freeFrame i s).tie.mem = s.tie.mem
    ∨ (freeFrame i s).tie.mem = memClear s.tie.mem (i * pageBytes) pageBytes := by
  unfold freeFrame
  split
  · exact .inl rfl
  next fr _ =>
    refine .inr ?_
    dsimp only
    split
    · rw [FlashApart.discardFrame]; rfl
    · rfl

/-- A grain of a frame outside the flash outlives the freeing of others. -/
theorem freeUnheld_grain {l : List Nat} {s : State} {f g : Nat} {fr : Frame} (hf : afind s.tie.frames f = some fr)
    (ht : fr.tier ≠ 4) (hl : f ∉ l) (hg : g < 256) : (freeUnheld l s).grain f g = s.grain f g := by
  induction l generalizing s with
  | nil => rfl
  | cons i r ih =>
    obtain ⟨hi, hr⟩ := not_or.mp (List.mem_cons.not.mp hl)
    have step : freeUnheld (i :: r) s = freeUnheld r (if s.heldFrames.contains i then s else freeFrame i s) := rfl
    rw [step]
    split
    · exact ih hf hr
    · have kept : afind (freeFrame i s).tie.frames f = some fr := by rw [afind_frames_freeFrame, if_neg (Ne.symm hi), hf]
      rw [ih kept hr, grain_of_frame kept ht, grain_of_frame hf ht]
      rcases freeFrame_mem i s with h | h <;> rw [h]
      refine memRead_memClear_apart _ ?_
      simp only [grainAt, pageBytes]
      omega

/-- A list of a page's frames once the page has moved: the destination in the source's place, or before it where the
source is kept. -/
def PageMove.switch (m : PageMove) (keep : Bool) (l : List Nat) : List Nat :=
  if l.contains m.src then (if keep then m.dst :: l else l.map (fun i => if i = m.src then m.dst else i)) else l

/-- The lists of a region once a page has moved. -/
def Region.switched (r : Region) (m : PageMove) (keep : Bool) : Region :=
  { r with
    working := r.working.map (fun q => if q.1 = m.page then (q.1, m.switch keep q.2) else q)
    versions := r.versions.map (fun v => (v.1, { v.2 with
      pages := v.2.pages.map (fun q => if q.1 = m.page then (q.1, m.switch keep q.2) else q) }))
    moves := r.moves.erase m }

/-- A region whose page is tagged anew. -/
def Region.tagged (r : Region) (page : Nat) (c : Nat × Nat) : Region := { r with counts := aset r.counts page c }

/-- The lower copy of an `IMMUTABLE` page is kept (R206). -/
def State.keepsSource (s : State) (r : Region) (m : PageMove) : Bool :=
  r.immutable && decide (s.frameTier m.dst < s.frameTier m.src)

section
variable {s : State} {id : Nat} {r : Region}

theorem retag_eq (hr : afind s.tie.regions id = some r) (page a b : Nat) :
    retag id page a b s = setRegion id (r.tagged page (s.cEffOf r page a, s.decayOf b % 16)) s := by
  rw [retag, region_of_find hr]
  exact modRegion_eq hr _

/-- The regions with a page switched in one of them, its tag anew. -/
def switchPage (id : Nat) (r : Region) (m : PageMove) (s : State) : State :=
  let c := (s.cEffOf r m.page (s.frameTier m.src), s.decayOf (s.frameTier m.dst) % 16)
  setRegion id ((r.tagged m.page c).switched m (s.keepsSource r m)) (setRegion id (r.tagged m.page c) s)

/-- The switch: the page is tagged anew, the lists name the destination, and a source not kept is freed. -/
theorem finishMove_eq (hr : afind s.tie.regions id = some r) (m : PageMove) : finishMove id m s =
    if s.keepsSource r m then switchPage id r m s else freeUnheld [m.src] (switchPage id r m s) := by
  rw [finishMove, retag_eq hr, region_of_find hr, modRegion_eq (setRegion_find_self ..)]
  rfl

theorem finishMove_apart (hr : afind s.tie.regions id = some r) (m : PageMove) :
    FreeApart (switchPage id r m s) (finishMove id m s) := by
  rw [finishMove_eq hr]
  split
  · exact .refl _
  · exact FreeApart.freeUnheld ..

/-- The region whose page moved has its lists switched and the move gone; the others are as before. -/
theorem finishMove_regions (hr : afind s.tie.regions id = some r) (m : PageMove) :
    (∃ c, afind (finishMove id m s).tie.regions id = some ((r.tagged m.page c).switched m (s.keepsSource r m)))
      ∧ ∀ k, k ≠ id → afind (finishMove id m s).tie.regions k = afind s.tie.regions k := by
  rw [finishMove_apart hr]
  exact ⟨⟨_, setRegion_find_self ..⟩, fun k hk => (setRegion_find_ne hk ..).trans (setRegion_find_ne hk ..)⟩

theorem finishMove_movers (hr : afind s.tie.regions id = some r) (m : PageMove) :
    (finishMove id m s).tie.movers = s.tie.movers := by
  rw [finishMove_apart hr]; rfl

/-- No frame but the source is freed, and none comes. -/
theorem finishMove_frames (hr : afind s.tie.regions id = some r) (m : PageMove) (f : Nat) :
    afind (finishMove id m s).tie.frames f = afind s.tie.frames f ∨ f = m.src ∧ afind (finishMove id m s).tie.frames f = none := by
  rw [finishMove_eq hr]
  split
  · exact .inl rfl
  · have once : freeUnheld [m.src] (switchPage id r m s)
        = if (switchPage id r m s).heldFrames.contains m.src then switchPage id r m s else freeFrame m.src (switchPage id r m s) := rfl
    rw [once]
    split
    · exact .inl rfl
    · rw [afind_frames_freeFrame]
      by_cases hf : f = m.src
      · exact .inr ⟨hf, if_pos hf.symm⟩
      · exact .inl (if_neg (Ne.symm hf))

/-- The destination holds what it held, where it lies outside the flash. -/
theorem finishMove_grain (hr : afind s.tie.regions id = some r) {m : PageMove} (hne : m.src ≠ m.dst) {fr : Frame}
    (hd : afind s.tie.frames m.dst = some fr) (ht : fr.tier ≠ 4) {g : Nat} (hg : g < 256) :
    (finishMove id m s).grain m.dst g = s.grain m.dst g := by
  rw [finishMove_eq hr]
  split
  · rfl
  · exact freeUnheld_grain (s := switchPage id r m s) hd ht (by simpa using hne.symm) hg

end

/-- The lists of a writable region at the end of a move. -/
theorem switched_working (r : Region) (m : PageMove) : (r.switched m false).working = r.working.map (fun w =>
    if w.1 = m.page ∧ m.src ∈ w.2 then (w.1, w.2.map (fun i => if i = m.src then m.dst else i)) else w) := by
  refine List.map_congr_left fun ⟨p, l⟩ _ => ?_
  by_cases hp : p = m.page <;> by_cases hs : m.src ∈ l <;> simp [PageMove.switch, hp, hs]

/-! ## One copy pass -/

theorem startProg_nextWrite (p : FlmProg) (s : State) : (startProg p s).flm.nextWrite = s.flm.nextWrite := by
  have slot : ∀ tier ch g t, (takeSlot tier ch g t).flm = t.flm := fun tier ch g t => by
    unfold takeSlot; split <;> rfl
  unfold startProg nextDie
  split
  · rfl
  · dsimp only
    split
    · rfl
    next d t h =>
      split at h
      · cases h
      · cases h; rw [slot]; rfl

/-- A frame write begun has the next number. -/
theorem beginWrite_spec (f : Nat) (pages : List FlmPage) (move : Option (Nat × Nat)) (s : State) :
    FlashApart s (beginWrite f pages move s) ∧ (beginWrite f pages move s).flm.nextWrite = s.flm.nextWrite + 1 :=
  ⟨(FlashApart.modFlm _ s).trans (FlashApart.overLoop (fun _ => FlashApart.startProg _) _ _),
    forEach_rel (R := fun s t => t.flm.nextWrite = s.flm.nextWrite) (fun _ => rfl) (fun h k => k.trans h)
      (fun _ => startProg_nextWrite _) pages _⟩

/-- The next pass of a move over the grains written during this one, held from the fourth on. -/
def PageMove.nextPass (m : PageMove) : PageMove :=
  { m with dirty := m.written, written := [], pass := m.pass + 1, held := m.held || decide (4 ≤ m.pass + 1) }

/-- A move whose pass into the flash has begun. -/
def PageMove.writing (m : PageMove) (w : Nat) : PageMove := { m with dirty := [], write := some w }

theorem page_of_move {l : List PageMove} {page : Nat} {m : PageMove}
    (h : l.find? (fun m => m.page = page && m.node.isNone) = some m) : m.page = page := by
  have found := List.find?_some h
  simp only [Bool.and_eq_true, decide_eq_true_eq] at found
  exact found.1

/-- A region with another move in one's place. -/
def Region.putMove (r : Region) (m m' : PageMove) : Region := { r with moves := r.moves.map (fun x => if x = m then m' else x) }

theorem movePass_of_no_move {s : State} {id page : Nat}
    (h : (s.region id).moves.find? (fun m => m.page = page && m.node.isNone) = none) : movePass id page s = s := by
  rw [movePass]
  dsimp only
  rw [h]

section
variable {s : State} {id page : Nat} {r : Region} {m : PageMove} (hr : afind s.tie.regions id = some r)
  (hm : r.moves.find? (fun m => m.page = page && m.node.isNone) = some m)
include hr hm

theorem movePass_of_memory (ht : s.frameTier m.dst ≠ 4) :
    movePass id page s = endPass id m (forEach m.dirty (copyGrain r page (r.allFrames page) m.src m.dst) s) := by
  rw [movePass, region_of_find hr]
  dsimp only
  rw [hm]
  exact if_pos ht

/-- A pass into the flash that has its write there, or that the flash does not take, waits. -/
theorem movePass_of_waiting (ht : s.frameTier m.dst = 4)
    (h : m.write.isSome = true ∨ (m.dirty ≠ [] ∧ s.writeRefusal (t4Frame m.dst) r.saggar ≠ none)) : movePass id page s = s := by
  rw [movePass, region_of_find hr]
  dsimp only
  rw [hm]
  dsimp only
  rw [if_neg (not_not.mpr ht)]
  split
  · rfl
  next hw =>
    obtain ⟨hd, hrefused⟩ := h.resolve_left hw
    obtain ⟨x, hx⟩ := Option.ne_none_iff_exists'.mp hrefused
    rw [if_neg (by simpa using hd), hx]

/-- A pass into the flash begins one write there. -/
theorem movePass_of_flash (ht : s.frameTier m.dst = 4) (hw : m.write = none) (hd : m.dirty ≠ [])
    (hf : s.writeRefusal (t4Frame m.dst) r.saggar = none) : movePass id page s
      = setRegion id (r.putMove m (m.writing s.flm.nextWrite)) (beginWrite (t4Frame m.dst)
          ((m.dirty.map (· / 64)).eraseDups.map (s.flashPage r (r.allFrames page) m.src (t4Frame m.dst))) (some (id, page)) s) := by
  rw [movePass, region_of_find hr]
  dsimp only
  rw [hm]
  dsimp only
  rw [if_neg (not_not.mpr ht), if_neg (by simp [hw]), if_neg (by simpa using hd), hf]
  refine modRegion_eq ?_ _
  rw [(beginWrite_spec ..).1]
  exact hr

/-- Where grains were written during a pass, it has copied those it had to, and the next copies those. -/
theorem pass_goes_on (ht : s.frameTier m.dst ≠ 4) (hw : m.written ≠ []) (hmem : Memory.wf s.tie.mem) (hne : m.src ≠ m.dst)
    {fr : Frame} (hd : afind s.tie.frames m.dst = some fr) (hdirty : ∀ g ∈ m.dirty, g < 256) {u : State} (hu : u = movePass id page s) :
    (∀ g ∈ m.dirty, r.kind ≠ 0 ∨ s.grainGood r m.src g = true → u.grain m.dst g = s.grain m.src g)
      ∧ (∀ f g, g < 256 → (f ≠ m.dst ∨ g ∉ m.dirty) → u.grain f g = s.grain f g)
      ∧ u.region id = r.putMove m m.nextPass ∧ u = { s with tie := u.tie } := by
  have apart := CopyApart.copyGrains r page (r.allFrames page) m.src m.dst m.dirty s
  obtain ⟨copied, kept⟩ := copyGrains_grain (r := r) (page := page) (ids := r.allFrames page) hmem hd
    (by rwa [frameTier_of_frame hd] at ht) hne hdirty
  have hpass : u = setRegion id (r.putMove m m.nextPass) (forEach m.dirty (copyGrain r page (r.allFrames page) m.src m.dst) s) := by
    rw [hu, movePass_of_memory hr hm ht, endPass, if_neg (by simpa using hw)]
    exact modRegion_eq (by rw [apart.regions]; exact hr) _
  rw [hpass]
  refine ⟨copied, kept, region_of_find (setRegion_find_self ..), ?_⟩
  rw [setRegion, apart.frame]

/-- Where none were, the move of a writable page ends: its lists name the destination, which holds the page. -/
theorem pass_ends (ht : s.frameTier m.dst ≠ 4) (hw : m.written = []) (hkind : r.kind ≠ 0) (hmem : Memory.wf s.tie.mem)
    (hne : m.src ≠ m.dst) {fr : Frame} (hd : afind s.tie.frames m.dst = some fr) (hdirty : ∀ g ∈ m.dirty, g < 256)
    {u : State} (hu : u = movePass id page s) :
    (∀ g ∈ m.dirty, u.grain m.dst g = s.grain m.src g)
      ∧ (∃ c, u.region id = (r.tagged page c).switched m false)
      ∧ ∀ k, k ≠ id → afind u.tie.regions k = afind s.tie.regions k := by
  rw [frameTier_of_frame hd] at ht
  have apart := CopyApart.copyGrains r page (r.allFrames page) m.src m.dst m.dirty s
  obtain ⟨copied, -⟩ := copyGrains_grain (r := r) (page := page) (ids := r.allFrames page) hmem hd ht hne hdirty
  obtain ⟨sd, hsd⟩ := apart.place
  have hpass : u = finishMove id m (forEach m.dirty (copyGrain r page (r.allFrames page) m.src m.dst) s) := by
    rw [hu, movePass_of_memory hr hm (by rwa [frameTier_of_frame hd]), endPass, hw]
    rfl
  rw [hd] at hsd
  rw [← apart.regions] at hr ⊢
  obtain ⟨⟨c, found⟩, others⟩ := finishMove_regions hr m
  rw [page_of_move hm, State.keepsSource, show r.immutable = false from decide_eq_false hkind] at found
  rw [hpass]
  exact ⟨fun g hg => (finishMove_grain hr hne hsd ht (hdirty g hg)).trans (copied g hg (.inl hkind)),
    ⟨c, region_of_find found⟩, others⟩

end

end Sys2Proof.Machine
end

section
namespace Sys2Proof.Machine

/-! ## Movers whose job is over (R217) -/

/-- The mover's grains of a page, copied at the end of its job. -/
def copyRest (id : Nat) (v : PageMove) (s : State) : State :=
  forEach (v.dirty ++ v.written).eraseDups (fun g s =>
    copyGrain (s.region id) v.page ((s.region id).allFrames v.page) v.src v.dst g s) s

theorem copyRest_apart (id : Nat) (v : PageMove) (s : State) : CopyApart v.dst s (copyRest id v s) :=
  forEach_rel (CopyApart.refl v.dst) CopyApart.trans (fun _ _ => CopyApart.copyGrain ..) _ s

/-- The end of one move of a job. -/
def endMove (id : Nat) (v : PageMove) (s : State) : State :=
  if s.frameTier v.dst = 4 then movePass id v.page s else finishMove id v (copyRest id v s)

/-- A move outside the flash ends: it is gone, no mover changes, and no frame comes to the flash. -/
theorem endMove_spec {s : State} {id : Nat} {r : Region} {v : PageMove} (hr : afind s.tie.regions id = some r)
    (ht : s.frameTier v.dst ≠ 4) {t : State} (htt : t = endMove id v s) :
    (∃ r', afind t.tie.regions id = some r' ∧ r'.moves = r.moves.erase v) ∧ t.tie.movers = s.tie.movers
      ∧ ∀ f, s.frameTier f ≠ 4 → t.frameTier f ≠ 4 := by
  have apart := copyRest_apart id v s
  have hr' : afind (copyRest id v s).tie.regions id = some r := by rw [apart.regions]; exact hr
  rw [htt, endMove, if_neg ht]
  obtain ⟨c, found⟩ := (finishMove_regions hr' v).1
  refine ⟨⟨_, found, rfl⟩, (finishMove_movers hr' v).trans apart.movers, fun f hf => ?_⟩
  rw [← apart.frameTier] at hf
  unfold State.frameTier at hf ⊢
  rcases finishMove_frames hr' v f with h | ⟨-, h⟩ <;> rw [h]
  · exact hf
  · decide

/-- The moves of a list end one after another. -/
theorem endMoves_spec {s : State} {id : Nat} {r : Region} (hr : afind s.tie.regions id = some r) {l : List PageMove}
    (ht : ∀ v ∈ l, s.frameTier v.dst ≠ 4) {t : State} (htt : t = forEach l (endMove id) s) :
    (∃ r', afind t.tie.regions id = some r' ∧ r'.moves = r.moves.diff l) ∧ t.tie.movers = s.tie.movers := by
  induction l generalizing s r with
  | nil => exact htt ▸ ⟨⟨r, hr, (List.diff_nil _).symm⟩, rfl⟩
  | cons v l ih =>
    obtain ⟨⟨r', hr', hv⟩, movers, tiers⟩ := endMove_spec hr (ht v List.mem_cons_self) rfl
    obtain ⟨⟨r'', hr'', hl⟩, movers'⟩ := ih hr' (fun w hw => tiers _ (ht w (List.mem_cons_of_mem _ hw))) htt
    exact ⟨⟨r'', hr'', by rw [hl, hv, List.diff_cons]⟩, movers'.trans movers⟩

/-- A list without those of its members that a test picks has none that it picks. -/
theorem filter_diff_filter {α : Type} [DecidableEq α] (l : List α) (p : α → Bool) : (l.diff (l.filter p)).filter p = [] := by
  refine List.filter_eq_nil_iff.mpr fun v hv hp => ?_
  have := List.count_pos_iff.mpr hv
  rw [List.count_diff, List.count_filter hp] at this
  omega

/-- The moves of a region that belong to a job. -/
def State.movesOf (s : State) (j : MoverJob) : List PageMove := (s.region j.region).moves.filter j.has

/-- A mover without its job. -/
def freeMover (m : Nat) (s : State) : State := { s with tie := { s.tie with movers := aerase s.tie.movers m } }

theorem freeMover_find (m : Nat) (s : State) : afind (freeMover m s).tie.movers m = none
    ∧ ∀ k, k ≠ m → afind (freeMover m s).tie.movers k = afind s.tie.movers k :=
  ⟨afind_aerase_self .., fun _ hk => (afind_aerase ..).trans (if_neg hk.symm)⟩

section
variable {s : State} {m : Nat}

theorem moverComplete_of_free (h : afind s.tie.movers m = none) : moverComplete m s = s := by
  rw [moverComplete, State.run?, h]

variable {x : MoverRun} (hx : afind s.tie.movers m = some x)
include hx

theorem moverComplete_of_local (hj : x.job.remote = false) : moverComplete m s =
    (let t := forEach (s.movesOf x.job) (endMove x.job.region) s
     if (t.movesOf x.job).isEmpty then freeMover m t else t) := by
  rw [moverComplete, State.run?, hx]
  exact if_neg (by simp [hj])

/-- A job of this node's pages that none of its moves into the flash holds up is over: the mover is free. -/
theorem local_job_ends (hj : x.job.remote = false) (ht : ∀ v ∈ (s.region x.job.region).moves, x.job.has v = true → s.frameTier v.dst ≠ 4)
    {u : State} (hu : u = moverComplete m s) : afind u.tie.movers m = none
      ∧ (∀ k, k ≠ m → afind u.tie.movers k = afind s.tie.movers k)
      ∧ ∀ v ∈ (u.region x.job.region).moves, x.job.has v = false := by
  obtain ⟨t, htt⟩ : ∃ t, t = forEach (s.movesOf x.job) (endMove x.job.region) s := ⟨_, rfl⟩
  have ended : t.movesOf x.job = [] ∧ t.tie.movers = s.tie.movers := by
    cases hr : afind s.tie.regions x.job.region with
    | none =>
      have none_mine : s.movesOf x.job = [] := by rw [State.movesOf, State.region, aget_eq_afind, hr]; rfl
      rw [htt, none_mine]
      exact ⟨none_mine, rfl⟩
    | some r =>
      rw [region_of_find hr] at ht
      rw [State.movesOf, region_of_find hr] at htt
      obtain ⟨⟨r', hr', hmoves⟩, movers⟩ := endMoves_spec hr
        (fun v hv => ht v (List.mem_filter.mp hv).1 (List.mem_filter.mp hv).2) htt
      exact ⟨by rw [State.movesOf, region_of_find hr', hmoves, filter_diff_filter], movers⟩
  obtain ⟨none_left, movers⟩ := ended
  have hfree : u = freeMover m t := by
    rw [hu, moverComplete_of_local hx hj, ← htt]
    exact if_pos (by rw [none_left]; rfl)
  rw [hfree, ← movers]
  obtain ⟨free, others⟩ := freeMover_find m t
  exact ⟨free, others, fun v hv => by simpa using List.filter_eq_nil_iff.mp none_left v hv⟩

/-- A job between nodes that has no page left frees its mover, and enters a node that took a whole copy as its holder. -/
theorem remote_job_ends (hj : x.job.remote = true) (hdone : x.job.count ≤ x.done) (htodo : x.todo = []) (htags : x.tags = [])
    {u : State} (hu : u = moverComplete m s) : u.tie.movers = (freeMover m s).tie.movers ∧ u.tie.queue = s.tie.queue := by
  have hover : u = remoteOver m x s := by
    rw [hu, moverComplete, State.run?, hx]
    exact (if_pos hj).trans (if_pos ⟨hdone, by simp [htodo], by simp [htags]⟩)
  have modified : ∀ id f t, (modRegion id f t).tie.movers = t.tie.movers ∧ (modRegion id f t).tie.queue = t.tie.queue :=
    fun id f t => by unfold modRegion; split <;> exact ⟨rfl, rfl⟩
  rw [hover, remoteOver]
  dsimp only
  split
  · split
    · exact ⟨rfl, rfl⟩
    · exact modified ..
  · exact ⟨rfl, rfl⟩

/-- One that is not done goes on. -/
theorem moverComplete_of_unfinished (hj : x.job.remote = true) (h : x.done < x.job.count ∨ x.todo ≠ [] ∨ x.tags ≠ []) :
    moverComplete m s = remoteWork m x.job.fuel s := by
  rw [moverComplete, State.run?, hx]
  refine (if_pos hj).trans (if_neg fun ⟨hdone, htodo, htags⟩ => ?_)
  rw [List.isEmpty_iff] at htodo htags
  rcases h with h | h | h
  · omega
  · exact h htodo
  · exact h htags

end

/-! ## The sweeper (R208, R209) -/

/-- The count and tag of a page as a sweep at an epoch leaves them: those of a page served from the tier. -/
def State.swept (s : State) (r : Region) (tier page : Nat) (c : Nat × Nat) : Nat × Nat :=
  if (s.servingFrame (aget r.working page [])).any (fun i => s.frameTier i = tier)
  then (cEff c.1 c.2 (s.decayOf tier), s.decayOf tier % 16) else c

theorem sweep_regions (tier : Nat) (s : State) : (sweep tier s).tie.regions = s.tie.regions.map (fun q =>
    (q.1, { q.2 with counts := q.2.counts.map (fun c => (c.1, s.swept q.2 tier c.1 c.2)) })) := by
  refine List.map_congr_left fun q _ => congrArg (fun l => (q.1, { q.2 with counts := l })) (List.map_congr_left fun c _ => ?_)
  rw [State.swept]
  cases s.servingFrame (aget q.2.working c.1 []) with
  | none => rfl
  | some i => simp only [Option.any_some, decide_eq_true_eq]; split <;> rfl

/-- A value looked up in a list whose values were changed by their keys. -/
theorem afind_map_key {κ α : Type} [DecidableEq κ] (m : Assoc κ α) (f : κ → α → α) (k : κ) :
    afind (m.map (fun x => (x.1, f x.1 x.2))) k = (afind m k).map (f k) := by
  induction m with
  | nil => rfl
  | cons p r ih =>
    obtain ⟨x, y⟩ := p
    by_cases h : x = k <;> simp [afind, h, ih]

/-- Each count of a region's pages as the sweep leaves it. -/
theorem sweep_counts {s : State} {id page : Nat} {r : Region} {c : Nat × Nat} (hr : afind s.tie.regions id = some r)
    (hc : afind r.counts page = some c) (tier : Nat) :
    afind ((sweep tier s).region id).counts page = some (s.swept r tier page c) := by
  have found : afind (sweep tier s).tie.regions id
      = some { r with counts := r.counts.map (fun c => (c.1, s.swept r tier c.1 c.2)) } := by
    rw [sweep_regions, afind_map_snd s.tie.regions
      (fun x => { x with counts := x.counts.map (fun c => (c.1, s.swept x tier c.1 c.2)) }), hr]
    rfl
  rw [region_of_find found]
  exact (afind_map_key ..).trans (by rw [hc]; rfl)

/-- A held epoch rises with the sweep. -/
theorem sweep_decay (tier : Nat) (s : State) :
    (sweep tier s).decayOf tier = s.decayOf tier + (if tier ∈ s.tie.hold then 1 else 0) := by
  have decay : (sweep tier s).tie.decay
      = if s.tie.hold.contains tier then aset s.tie.decay tier (s.decayOf tier + 1) else s.tie.decay := rfl
  rw [State.decayOf, decay]
  by_cases h : tier ∈ s.tie.hold
  · rw [if_pos (List.contains_iff_mem.mpr h), if_pos h, aget_aset_self]
  · rw [if_neg (mt List.contains_iff_mem.mp h), if_neg h]; rfl

theorem sweep_hold (tier k : Nat) (s : State) : k ∈ (sweep tier s).tie.hold ↔ k ∈ s.tie.hold ∧ k ≠ tier := by
  rw [show (sweep tier s).tie.hold = s.tie.hold.filter (· ≠ tier) from rfl, List.mem_filter, decide_eq_true_eq]

end Sys2Proof.Machine
end

section
namespace Sys2Proof.Machine

/-! ## New frames (R204, R205) -/

/-- Two states that differ at most in the frames, their bytes and the counts of them. -/
def AllocApart (s t : State) : Prop :=
  t = { s with ctr := t.ctr, tie := { s.tie with frames := t.tie.frames, mem := t.tie.mem, nextFrame := t.tie.nextFrame } }

/-- A frame made lies in the tier asked for. -/
theorem allocFrame_spec {tier g page f : Nat} {r : Region} {s t : State} (h : allocFrame tier g r page s = some (f, t)) :
    AllocApart s t ∧ t.frameTier f = tier := by
  unfold allocFrame at h
  split at h
  · cases h
  · split at h
    · cases h
    next u _ =>
      obtain ⟨rfl, rfl⟩ := Prod.mk.inj (Option.some.inj h)
      exact ⟨rfl, by simp [State.frameTier, bumpCtr]⟩

theorem allocFrame_of_room {tier g page : Nat} {r : Region} {s : State} (hfree : s.freeIn tier g ≠ 0)
    (hunit : s.pickUnit tier g r page ≠ none) : ∃ f t, allocFrame tier g r page s = some (f, t) := by
  obtain ⟨u, hu⟩ := Option.ne_none_iff_exists'.mp hunit
  rw [allocFrame, if_neg hfree, hu]
  exact ⟨_, _, rfl⟩

/-! ## A job within the node begins (R217, R218) -/

section
variable {s : State} {m : Nat}

theorem moverStart_of_idle (h : ahas s.tie.movers m = true ∨ s.nextJob m = none) : moverStart m s = s := by
  unfold moverStart
  split
  · rfl
  next hfree => rw [h.resolve_left hfree]

/-- A mover that takes a job: it waits no more, and runs. -/
def takeJob (m : Nat) (j : MoverJob) (s : State) : State :=
  setRun m { job := j } { s with tie := { s.tie with queue := s.tie.queue.erase j } }

variable {j : MoverJob} (hfree : ahas s.tie.movers m = false) (hj : s.nextJob m = some j)
include hfree hj

theorem moverStart_of_remote (hr : j.remote = true) : moverStart m s = remoteWork m j.fuel (beginRemote m (takeJob m j s)) := by
  rw [moverStart, if_neg (by simp [hfree]), hj]
  exact if_pos hr

theorem moverStart_of_page (hr : j.remote = false) (hc : j.count = 1) :
    moverStart m s = startMove j.region j.page j.ver j.toTier (takeJob m j s) := by
  rw [moverStart, if_neg (by simp [hfree]), hj]
  refine (if_neg (by simp [hr])).trans ?_
  rw [hc]
  rfl

end

/-- A page that may move begins its move to a new frame of the tier. -/
theorem startMove_begins {s : State} {id page tier f : Nat} {ver : Option Nat} {r : Region} (hr : afind s.tie.regions id = some r)
    (hf : s.servingFrame (pageFrames r ver page) = some f) (htier : s.frameTier f ≠ tier)
    (hmoves : r.moves.any (fun v => v.page = page) = false) (hpol : (polTiers r.tierPol).contains tier = true)
    (hflash : tier = 4 → s.isShort 4 r.saggar = false ∧ s.flm.st = 3 ∧ s.wbufRoom = true)
    (hfree : s.freeIn tier r.saggar ≠ 0) (hunit : s.pickUnit tier r.saggar r page ≠ none) {u : State}
    (hu : u = startMove id page ver tier s) : u.tie.movers = s.tie.movers ∧ u.tie.queue = s.tie.queue
      ∧ ∃ d b, u.frameTier d = tier
        ∧ (u.region id).moves = r.moves ++ [{ page := page, src := f, dst := d, began := s.now, blocks := b }] := by
  obtain ⟨d, t, halloc⟩ := allocFrame_of_room hfree hunit
  obtain ⟨apart, hd⟩ := allocFrame_spec halloc
  have hr' : afind t.tie.regions id = some r := by rw [apart]; exact hr
  have hnow : t.now = s.now := by rw [apart]
  obtain ⟨b, hb⟩ : ∃ b, u = setRegion id { r with
      moves := r.moves ++ [{ page := page, src := f, dst := d, began := s.now, blocks := b }] } t := by
    refine ⟨match afind t.tie.frames f with | some fr => if fr.tier = 4 then t.unitBlocks fr.index else [] | none => [], ?_⟩
    rw [hu, startMove, region_of_find hr]
    dsimp only
    rw [hf]
    dsimp only
    rw [if_neg (by simp [htier, hmoves, List.contains_iff_mem.mp hpol]), if_neg fun h => by simp [(hflash h.1).1] at h,
      if_neg fun h => by obtain ⟨-, hst, hroom⟩ := hflash h.1; simp [hst, hroom] at h, halloc, ← hnow]
    exact modRegion_eq hr' _
  rw [hb]
  refine ⟨?_, ?_, d, b, hd, ?_⟩
  · rw [setRegion, apart]
  · rw [setRegion, apart]
  · rw [region_of_find (setRegion_find_self ..)]

end Sys2Proof.Machine
end

section
namespace Sys2Proof.Machine

/-! ## What a mover between nodes does (R217) -/

/-- The mover keeps its job, and the others go on as before. -/
structure JobsKept (m : Nat) (s t : State) : Prop where
  job : (afind t.tie.movers m).map (·.job) = (afind s.tie.movers m).map (·.job)
  others : ∀ k, k ≠ m → afind t.tie.movers k = afind s.tie.movers k

namespace JobsKept

theorem of_movers {m : Nat} {s t : State} (h : t.tie.movers = s.tie.movers) : JobsKept m s t := by
  exact ⟨by rw [h], fun _ _ => by rw [h]⟩

theorem trans {m : Nat} {s t u : State} (h : JobsKept m s t) (k : JobsKept m t u) : JobsKept m s u :=
  ⟨k.job.trans h.job, fun i hi => (k.others i hi).trans (h.others i hi)⟩

theorem setRun {m : Nat} {x y : MoverRun} {s : State} (hx : s.run? m = some x) (hy : y.job = x.job) :
    JobsKept m s (setRun m y s) := by
  unfold State.run? at hx
  refine ⟨?_, fun k hk => (afind_aset ..).trans (if_neg hk.symm)⟩
  rw [hx, show afind (Machine.setRun m y s).tie.movers m = some y from afind_aset_self .., Option.map_some, hy, Option.map_some]

theorem find {m : Nat} {s t : State} (h : JobsKept m s t) {x : MoverRun} (hx : s.run? m = some x) :
    ∃ y, t.run? m = some y ∧ y.job = x.job := by
  have same := h.job
  unfold State.run? at *
  rw [hx] at same
  exact Option.map_eq_some_iff.mp same

theorem setRun_after {m : Nat} {x y : MoverRun} {s t : State} (h : JobsKept m s t) (hx : s.run? m = some x) (hy : y.job = x.job) :
    JobsKept m s (Machine.setRun m y t) := by
  obtain ⟨z, hz, hjob⟩ := h.find hx
  exact h.trans (.setRun hz (hy.trans hjob.symm))

end JobsKept

/-- The mover keeps its job and sends requests of one kind to one node for a saggar. -/
structure RemoteStep (m op n id : Nat) (s t : State) : Prop extends JobsKept m s t where
  frame : t = { s with fab := t.fab, tie := t.tie, ctr := t.ctr }
  saggar : (t.region id).saggar = (s.region id).saggar
  sent : ∃ l, t.fab.tx = s.fab.tx ++ l
    ∧ ∀ q ∈ l, q.opcode = op ∧ q.cls = 5 ∧ q.dst = n ∧ q.saggar = (s.region id).saggar

/-- The packets of a request go where it goes. -/
theorem issued_packets {p q : Packet} {s : State} (h : q ∈ (packetsOf (issued p s)).map stampPkt) :
    q.opcode = p.opcode ∧ q.cls = p.cls ∧ q.dst = p.dst ∧ q.saggar = p.saggar := by
  obtain ⟨w, hw, rfl⟩ := List.mem_map.mp h
  unfold packetsOf at hw
  split at hw
  · rw [List.mem_singleton.mp hw]; exact ⟨rfl, rfl, rfl, rfl⟩
  · obtain ⟨i, -, rfl⟩ := List.mem_map.mp hw
    exact ⟨rfl, rfl, rfl, rfl⟩

theorem modRegion_region_of {α : Type} {g : Region → α} {f : Region → Region} (hf : ∀ r, g (f r) = g r) (id k : Nat) (s : State) :
    g ((modRegion id f s).region k) = g (s.region k) := by
  unfold modRegion
  split
  next r hr =>
    have found : (setRegion id (f r) s).region k = if id = k then f r else s.region k := aget_aset ..
    refine (congrArg g found).trans ?_
    split
    next h => rw [hf, ← h, region_of_find hr]
    · rfl
  · rfl

theorem modRegion_frame (id : Nat) (f : Region → Region) (s : State) :
    modRegion id f s = { s with tie := { s.tie with regions := (modRegion id f s).tie.regions } } := by
  unfold modRegion
  split <;> rfl

namespace RemoteStep

variable {m op n id : Nat}

theorem refl (s : State) : RemoteStep m op n id s s :=
  ⟨.of_movers rfl, rfl, rfl, [], (List.append_nil _).symm, fun _ h => absurd h List.not_mem_nil⟩

theorem trans {s t u : State} (h : RemoteStep m op n id s t) (k : RemoteStep m op n id t u) : RemoteStep m op n id s u := by
  obtain ⟨l, hl, hq⟩ := h.sent
  obtain ⟨l', hl', hq'⟩ := k.sent
  refine ⟨h.toJobsKept.trans k.toJobsKept, ?_, k.saggar.trans h.saggar, l ++ l', ?_, fun q hmem => ?_⟩
  · rw [k.frame, h.frame]
  · rw [hl', hl, List.append_assoc]
  · rw [h.saggar] at hq'
    exact (List.mem_append.mp hmem).elim (hq q) (hq' q)

/-- A step that sends nothing and touches the pool and the counts of frames alone. -/
theorem silent {s t : State} (hj : JobsKept m s t) (hf : t = { s with tie := t.tie, ctr := t.ctr })
    (hs : (t.region id).saggar = (s.region id).saggar) : RemoteStep m op n id s t :=
  ⟨hj, by rw [hf], hs, [], by rw [hf]; exact (List.append_nil _).symm, fun _ h => absurd h List.not_mem_nil⟩

theorem setRun {x y : MoverRun} {s : State} (hx : s.run? m = some x) (hy : y.job = x.job) :
    RemoteStep m op n id s (setRun m y s) :=
  silent (.setRun hx hy) rfl rfl

/-- The mover's own account changes at the end of a step. -/
theorem setRun_after {x y : MoverRun} {s t : State} (h : RemoteStep m op n id s t) (hx : s.run? m = some x) (hy : y.job = x.job) :
    RemoteStep m op n id s (Machine.setRun m y t) := by
  obtain ⟨z, hz, hjob⟩ := h.find hx
  exact h.trans (.setRun hz (hy.trans hjob.symm))

theorem of_queue {s t : State} (h : QueueApart s t) : RemoteStep m op n id s t := by
  rw [h]; exact silent (.of_movers rfl) rfl rfl

theorem of_alloc {s t : State} (h : AllocApart s t) : RemoteStep m op n id s t := by
  rw [h]; exact silent (.of_movers rfl) rfl rfl

theorem modRegion {f : Region → Region} (hf : ∀ r, (f r).saggar = r.saggar) (k : Nat) (s : State) :
    RemoteStep m op n id s (modRegion k f s) := by
  refine silent (.of_movers ?_) ?_ (modRegion_region_of (g := Region.saggar) hf ..)
  · rw [modRegion_frame]
  · rw [modRegion_frame]

theorem issue {p : Packet} {s : State} (hop : p.opcode = op) (hcls : p.cls = 5) (hn : p.dst = n)
    (hg : p.saggar = (s.region id).saggar) : RemoteStep m op n id s (issue (.mover m) p s) := by
  obtain ⟨frame, -, -, tx⟩ := issue_spec (.mover m) p s
  refine ⟨.of_movers rfl, by rw [frame], by rw [frame]; rfl, _, tx, fun q hq => ?_⟩
  obtain ⟨hop', hcls', hn', hg'⟩ := issued_packets hq
  exact ⟨hop'.trans hop, hcls'.trans hcls, hn'.trans hn, hg'.trans hg⟩

end RemoteStep

end Sys2Proof.Machine
end

section
namespace Sys2Proof.Machine

/-! ## Pages that travel between nodes (R217) -/

section
variable {m op n id : Nat} {s : State}

/-- The page in hand begins: nothing is sent, the mover keeps its job. -/
theorem beginRemote_step (s : State) : RemoteStep m op n id s (beginRemote m s) := by
  unfold beginRemote
  split
  · exact .refl s
  next x hx =>
    dsimp only
    split
    · split
      · exact .setRun hx rfl
      next f t h => exact .setRun_after (.of_alloc (allocFrame_spec h).1) hx rfl
    · refine .setRun_after ?_ hx rfl
      split
      · exact .modRegion (by intro r; rfl) ..
      · exact .refl s

/-- The opcode of a job's requests. -/
def MoverJob.requestOp (j : MoverJob) : Nat := if j.fromNode.isSome then opREAD else opWRITE

/-- One request of a mover: it stops, sends for the next grain, or, sending pages, passes over what it cannot send. -/
theorem pumpRemote_cases {x : MoverRun} (hx : s.run? m = some x) (hn : x.job.fromNode.or x.job.toNode = some n) (fuel : Nat) :
    pumpRemote m (fuel + 1) s = s
      ∨ (∃ rest tags p, tags ≠ [] ∧ p.opcode = x.job.requestOp ∧ p.cls = 5 ∧ p.dst = n ∧ p.saggar = (s.region x.job.region).saggar
          ∧ pumpRemote m (fuel + 1) s = pumpRemote m fuel (issue (.mover m) p (setRun m { x with todo := rest, tags := tags } s)))
      ∨ x.job.fromNode = none ∧ ∃ todo t, QueueApart s t ∧ pumpRemote m (fuel + 1) s = pumpRemote m fuel (setRun m { x with todo := todo } t) := by
  rw [pumpRemote, hx]
  dsimp only
  rw [hn]
  unfold MoverJob.requestOp
  split
  next g rest n' _ hn' =>
    cases hn'
    split
    · exact .inl rfl
    · split
      next hfrom => exact .inr (.inl ⟨rest, _, _, by simp, rfl, rfl, rfl, rfl, rfl⟩)
      next hfrom =>
        have hfrom' : x.job.fromNode = none := by simpa using hfrom
        split
        · exact .inr (.inr ⟨hfrom', [], s, .refl s, rfl⟩)
        · split
          · refine .inr (.inr ⟨hfrom', rest, _, ?_, rfl⟩)
            split
            · exact .refetch ..
            · exact .refl s
          · exact .inr (.inl ⟨rest, _, _, by simp, rfl, rfl, rfl, rfl, rfl⟩)
  · exact .inl rfl

/-- What a mover sends of its page goes to the job's node, with the opcode of the job. -/
theorem pumpRemote_step {x : MoverRun} (hx : s.run? m = some x) (hn : x.job.fromNode.or x.job.toNode = some n) (fuel : Nat) :
    RemoteStep m x.job.requestOp n x.job.region s (pumpRemote m fuel s) := by
  induction fuel generalizing s x with
  | zero => exact .refl s
  | succ fuel ih =>
    rcases pumpRemote_cases hx hn fuel with h | ⟨rest, tags, p, -, hop, hcls, hdst, hsag, h⟩ | ⟨-, todo, t, ht, h⟩
    · rw [h]; exact .refl s
    · rw [h]
      have step : RemoteStep m x.job.requestOp n x.job.region s
          (issue (.mover m) p (setRun m { x with todo := rest, tags := tags } s)) :=
        (RemoteStep.setRun (y := { x with todo := rest, tags := tags }) hx rfl).trans (.issue hop hcls hdst hsag)
      obtain ⟨y, hy, hjob⟩ := step.find hx
      have later := ih hy (by rwa [hjob])
      rw [hjob] at later
      exact step.trans later
    · rw [h]
      have step : RemoteStep m x.job.requestOp n x.job.region s (setRun m { x with todo := todo } t) :=
        .setRun_after (.of_queue ht) hx rfl
      obtain ⟨y, hy, hjob⟩ := step.find hx
      have later := ih hy (by rwa [hjob])
      rw [hjob] at later
      exact step.trans later

/-- A mover that waits for answers, has grains to ask for, or has no page left. -/
def MoverRun.busy (x : MoverRun) : Prop := x.todo ≠ [] ∨ x.tags ≠ [] ∨ x.job.count ≤ x.done

/-- A mover that fetches a page does not turn to the next before an answer. -/
theorem pumpRemote_busy {x : MoverRun} (hx : s.run? m = some x) (hn : x.job.fromNode = some n) (hb : x.busy) (fuel : Nat) :
    ∃ y, (pumpRemote m fuel s).run? m = some y ∧ y.busy := by
  induction fuel generalizing s x with
  | zero => exact ⟨x, hx, hb⟩
  | succ fuel ih =>
    rcases pumpRemote_cases hx (n := n) (by rw [hn]; rfl) fuel with h | ⟨rest, tags, p, htags, -, -, -, -, h⟩ | ⟨hnone, -⟩
    · exact ⟨x, by rw [h]; exact hx, hb⟩
    · rw [h]
      exact ih (x := { x with todo := rest, tags := tags }) (afind_aset_self ..) hn (.inr (.inl htags))
    · rw [hn] at hnone; cases hnone

theorem remoteWork_of_fetch {x : MoverRun} (hx : s.run? m = some x) (hn : x.job.fromNode = some n) (hb : x.busy) (fuel : Nat) :
    RemoteStep m opREAD n x.job.region s (remoteWork m fuel s) := by
  cases fuel with
  | zero => exact .refl s
  | succ fuel =>
    have step := pumpRemote_step hx (n := n) (by rw [hn]; rfl) 257
    rw [show x.job.requestOp = opREAD by rw [MoverJob.requestOp, hn]; rfl] at step
    obtain ⟨y, hy, hbusy⟩ := pumpRemote_busy hx hn hb 257
    have stops : (y.todo.isEmpty && y.tags.isEmpty && decide (y.done < y.job.count)) = false := by
      rcases hbusy with h | h | h <;> simp [h]
    simp only [remoteWork, hy, stops]
    exact step

/-- A mover turns to its next page, where it has one. -/
theorem beginNext_step (y : MoverRun) (t : State) : RemoteStep m op n id (setRun m y t) (endRemote.beginNext m y t) := by
  unfold endRemote.beginNext
  dsimp only
  split
  · exact beginRemote_step _
  · exact .refl _

/-- The end of the page in hand: it is fetched, or its move is over or has another pass. -/
theorem endRemote_cases {x : MoverRun} (hx : s.run? m = some x) : ∃ y : MoverRun, y.job = x.job ∧
    (endRemote m s = endRemote.beginNext m y (if x.job.fromNode.isSome then fetched x s else s)
      ∨ ∃ k f, (∀ r : Region, (f r).saggar = r.saggar)
          ∧ (endRemote m s = endRemote.beginNext m y (modRegion k f s) ∨ endRemote m s = setRun m y (modRegion k f s))) := by
  rw [endRemote, hx]
  dsimp only
  split
  · refine ⟨_, ?_, .inl rfl⟩; rfl
  · split
    · refine ⟨_, ?_, .inr ⟨_, _, fun r => ?_, .inl rfl⟩⟩ <;> rfl
    · refine ⟨_, ?_, .inr ⟨_, _, fun r => ?_, .inr rfl⟩⟩ <;> rfl

/-- Where the page is sent, nothing goes out at its end and the next one's begin. -/
theorem endRemote_step {x : MoverRun} (hx : s.run? m = some x) (hn : x.job.fromNode = none) :
    RemoteStep m op n id s (endRemote m s) := by
  obtain ⟨y, hy, h | ⟨k, f, hf, h | h⟩⟩ := endRemote_cases hx
  · rw [h, hn]
    exact (RemoteStep.setRun hx hy).trans (beginNext_step ..)
  · rw [h]
    exact ((RemoteStep.modRegion hf k s).setRun_after hx hy).trans (beginNext_step ..)
  · rw [h]
    exact (RemoteStep.modRegion hf k s).setRun_after hx hy

theorem fetched_movers (x : MoverRun) (s : State) : (fetched x s).tie.movers = s.tie.movers := by
  unfold fetched
  dsimp only
  split
  · rfl
  · split
    · rw [FreeApart.freeFrame, modRegion_frame]
    · rw [FreeApart.freeUnheld, modRegion_frame]

/-- The mover keeps its job at a page's end, whichever way the page goes. -/
theorem endRemote_jobs {x : MoverRun} (hx : s.run? m = some x) : JobsKept m s (endRemote m s) := by
  obtain ⟨y, hy, h | ⟨k, f, hf, h | h⟩⟩ := endRemote_cases hx
  · have took : JobsKept m s (if x.job.fromNode.isSome then fetched x s else s) := by
      split
      · exact .of_movers (fetched_movers x s)
      · exact .of_movers rfl
    rw [h]
    exact (took.setRun_after hx hy).trans (beginNext_step (op := 0) (n := 0) (id := 0) ..).toJobsKept
  · rw [h]
    exact (((RemoteStep.modRegion hf k s (op := 0) (n := 0) (id := 0)).setRun_after hx hy).trans (beginNext_step ..)).toJobsKept
  · rw [h]
    exact ((RemoteStep.modRegion hf k s (op := 0) (n := 0) (id := 0)).setRun_after hx hy).toJobsKept

/-- One turn of a mover's work: it sends what it may, and then has nothing more to do or turns to its next page. -/
theorem remoteWork_cases {x : MoverRun} (hx : (pumpRemote m 257 s).run? m = some x) (fuel : Nat) :
    remoteWork m (fuel + 1) s = pumpRemote m 257 s
      ∨ remoteWork m (fuel + 1) s = remoteWork m fuel (endRemote m (pumpRemote m 257 s)) := by
  simp only [remoteWork, hx]
  split
  · exact .inr rfl
  · exact .inl rfl

/-- All that a mover sends of its pages goes to the job's node. -/
theorem remoteWork_of_send {x : MoverRun} (hx : s.run? m = some x) (hfrom : x.job.fromNode = none) (hto : x.job.toNode = some n)
    (fuel : Nat) : RemoteStep m opWRITE n x.job.region s (remoteWork m fuel s) := by
  induction fuel generalizing s x with
  | zero => exact .refl s
  | succ fuel ih =>
    have pump := pumpRemote_step hx (n := n) (by rw [hfrom]; exact hto) 257
    rw [show x.job.requestOp = opWRITE by rw [MoverJob.requestOp, hfrom]; rfl] at pump
    obtain ⟨y, hy, hjob⟩ := pump.find hx
    rcases remoteWork_cases hy fuel with h | h
    · rw [h]; exact pump
    · rw [h]
      have turn := pump.trans (endRemote_step hy (by rwa [hjob]))
      obtain ⟨z, hz, hjob'⟩ := turn.find hx
      have later := ih hz (by rwa [hjob']) (by rwa [hjob'])
      rw [hjob'] at later
      exact turn.trans later

/-- A mover at work keeps its job, and the others go on as before. -/
theorem remoteWork_jobs {x : MoverRun} (hx : s.run? m = some x) (hn : x.job.fromNode.or x.job.toNode = some n) (fuel : Nat) :
    JobsKept m s (remoteWork m fuel s) := by
  induction fuel generalizing s x with
  | zero => exact .of_movers rfl
  | succ fuel ih =>
    have pump := (pumpRemote_step hx hn 257).toJobsKept
    obtain ⟨y, hy, hjob⟩ := pump.find hx
    rcases remoteWork_cases hy fuel with h | h
    · rw [h]; exact pump
    · rw [h]
      have turn := pump.trans (endRemote_jobs hy)
      obtain ⟨z, hz, hjob'⟩ := turn.find hx
      exact turn.trans (ih hz (by rwa [hjob']))

/-- A page to be fetched has a frame to fill, or, where none is free, the job is over. -/
theorem beginRemote_of_fetch {x : MoverRun} (hx : s.run? m = some x) (hn : x.job.fromNode = some n) :
    ∃ y, (beginRemote m s).run? m = some y ∧ y.job = x.job ∧ y.busy := by
  rw [beginRemote, hx]
  dsimp only
  rw [hn]
  dsimp only
  split
  · exact ⟨_, afind_aset_self .., rfl, .inr (.inr le_rfl)⟩
  · exact ⟨_, afind_aset_self .., rfl, .inl (by simp)⟩

/-- A mover begins a job between nodes: it runs it, and its requests alone go out, to the job's node. -/
theorem remote_job_begins {j : MoverJob} (hfree : ahas s.tie.movers m = false) (hj : s.nextJob m = some j)
    (hn : j.fromNode.or j.toNode = some n) :
    RemoteStep m j.requestOp n j.region (takeJob m j s) (moverStart m s) := by
  have hx : (takeJob m j s).run? m = some { job := j } := afind_aset_self ..
  have begun : RemoteStep m j.requestOp n j.region (takeJob m j s) (beginRemote m (takeJob m j s)) := beginRemote_step _
  have hremote : j.remote = true := by
    unfold MoverJob.remote
    cases hf : j.fromNode <;> simp_all
  rw [moverStart_of_remote hfree hj hremote]
  refine begun.trans ?_
  cases hfrom : j.fromNode with
  | some n' =>
    rw [hfrom] at hn
    cases hn
    obtain ⟨y, hy, hjob, hbusy⟩ := beginRemote_of_fetch hx hfrom
    have work := remoteWork_of_fetch hy (by rwa [hjob]) hbusy j.fuel
    rwa [hjob, show opREAD = j.requestOp by rw [MoverJob.requestOp, hfrom]; rfl] at work
  | none =>
    rw [hfrom] at hn
    obtain ⟨y, hy, hjob⟩ := begun.find hx
    have work := remoteWork_of_send hy (by rwa [hjob]) (by rwa [hjob]) j.fuel
    rwa [hjob, show opWRITE = j.requestOp by rw [MoverJob.requestOp, hfrom]; rfl] at work

end

end Sys2Proof.Machine
end

section
namespace Sys2Proof.Machine

/-! ## Page moves, movers and the sweeper -/

theorem pagePass_completes {id page : Nat} (hid : id < 2 ^ 32) (hpage : page < 2 ^ 31) (s : State) :
    Completes (.pageMovePassDone id page) s (epochWork (movePass id page s)) :=
  run_ok (by rw [decide_eq_true hid, decide_eq_true hpage]; rfl) rfl

theorem moverStart_completes {m : Nat} (hm : m < 32) (s : State) : Completes (.moverJobStart m) s (moverStart m s) :=
  run_ok (decide_eq_true hm) rfl

theorem moverComplete_completes {m : Nat} (hm : m < 32) (s : State) :
    Completes (.moverJobComplete m) s (epochWork (moverComplete m s)) :=
  run_ok (decide_eq_true hm) rfl

/-- A job between nodes has a node. -/
theorem node_of_remote {j : MoverJob} (h : j.remote = true) : ∃ n, j.fromNode.or j.toNode = some n := by
  rw [← Option.isSome_iff_exists, Option.isSome_or, Bool.or_comm]
  exact h

/-- Settles O34: a pass by the grains it copies and the switch at its end, a mover's job within the node by the moves it
begins and ends, one between nodes by what each turn of the mover may send, and a sweep by its map over the counts. -/
theorem pageMoves : Obligations.PageMoves := by
  refine ⟨fun s id page r m hid hpage hr hm hmem hne _ hdst hdirty => ?_, fun s id page hid hpage hnone => ?_,
    fun s m hm => ?_, fun s tier ht => ?_⟩
  · have completes := pagePass_completes hid hpage s
    obtain ⟨fr, hd⟩ : ∃ fr, afind s.tie.frames m.dst = some fr := Option.isSome_iff_exists.mp hdst
    refine ⟨fun ht hw => ⟨_, completes, pass_goes_on hr hm ht hw hmem hne hd hdirty rfl⟩, fun ht hw hkind => ?_,
      fun ht h => ?_, fun ht hw hd hf => ?_⟩
    · obtain ⟨copied, ⟨c, found⟩, others⟩ := pass_ends hr hm ht hw hkind hmem hne hd hdirty rfl
      refine ⟨_, completes, copied, by rw [found]; rfl, ?_, others⟩
      rw [found, switched_working, page_of_move hm]
      rfl
    · rwa [movePass_of_waiting hr hm ht h] at completes
    · rw [movePass_of_flash hr hm ht hw hd hf] at completes
      obtain ⟨apart, next⟩ := beginWrite_spec (t4Frame m.dst)
        ((m.dirty.map (· / 64)).eraseDups.map (s.flashPage r (r.allFrames page) m.src (t4Frame m.dst))) (some (id, page)) s
      exact ⟨_, completes, region_of_find (setRegion_find_self ..), next, by rw [setRegion, apart]⟩
  · have completes := pagePass_completes hid hpage s
    rwa [movePass_of_no_move hnone] at completes
  · have starts := moverStart_completes hm s
    have completes := moverComplete_completes hm s
    refine ⟨fun h => ?_, fun j n op hfree hj hn hop => ?_, fun j f r hfree hj hrem hc hr hf htier hmoves hpol hflash hroom hunit => ?_,
      fun h => ?_, fun x hx hrem ht => ?_, fun x hx hrem hdone htodo htags => ?_, fun x hx hrem h => ?_⟩
    · rw [moverStart_of_idle h] at starts
      exact starts
    · have step := remote_job_begins hfree hj hn
      obtain ⟨x, hx, hjob⟩ := step.find (x := { job := j }) (afind_aset_self ..)
      obtain ⟨l, tx, sent⟩ := step.sent
      rw [hop]
      exact effect_of starts ⟨l, x, hx, hjob, fun k hk => (step.others k hk).trans ((afind_aset ..).trans (if_neg hk.symm)),
        tx, sent, by rw [step.frame]; rfl⟩
    · rw [moverStart_of_page hfree hj hrem hc] at starts
      obtain ⟨movers, queue, begun⟩ := startMove_begins (s := takeJob m j s) hr hf htier hmoves hpol hflash hroom hunit rfl
      exact effect_of starts ⟨movers, queue, begun⟩
    · rwa [moverComplete_of_free h] at completes
    · exact ⟨_, completes, local_job_ends hx hrem ht rfl⟩
    · obtain ⟨movers, queue⟩ := remote_job_ends hx hrem hdone htodo htags rfl
      obtain ⟨free, others⟩ := freeMover_find m s
      rw [← movers] at free others
      exact ⟨_, completes, free, others, queue⟩
    · obtain ⟨n, hn⟩ := node_of_remote hrem
      rw [moverComplete_of_unfinished hx hrem h] at completes
      have kept := remoteWork_jobs hx hn x.job.fuel
      obtain ⟨y, hy, hjob⟩ := kept.find hx
      exact ⟨_, y, completes, hy, hjob, kept.others⟩
  · have completes : Completes (.sweeperPass tier) s (sweep tier s) := run_ok (decide_eq_true ht) rfl
    refine effect_of completes ⟨fun h => ((sweep_hold ..).mp h).2 rfl, fun k hk => (sweep_hold ..).trans (and_iff_left hk),
      sweep_decay tier s, aget_aset_self .., fun id r page c g hr hc => sweep_counts hr hc tier, rfl, rfl⟩

end Sys2Proof.Machine
end

section
namespace Sys2Proof.Machine

/-! ## Tables and loops -/

/-- A question about the values of a table that an entry's change does not affect, and that a new value denies. -/
theorem any_amod {κ α : Type} [DecidableEq κ] (m : Assoc κ α) (k : κ) {d : α} {f : α → α} {g : α → Bool}
    (hf : ∀ x, g (f x) = g x) (hd : g d = false) : (amod m k d f).any (fun q => g q.2) = m.any (fun q => g q.2) := by
  rw [amod]
  induction m with
  | nil => simp [aset, aget, hf, hd]
  | cons q r ih =>
    obtain ⟨a, b⟩ := q
    by_cases h : a = k
    · simp [aset, aget, h, hf]
    · simpa [aset, aget, h] using congrArg (g b || ·) ih

/-- Entries whose values a function of key and value changes, read at a key. -/
theorem aget_map_key {κ α : Type} [DecidableEq κ] (m : Assoc κ α) {f : κ → α → α} {k : κ} {d : α} (hd : f k d = d) :
    aget (m.map (fun q => (q.1, f q.1 q.2))) k d = f k (aget m k d) := by
  rw [aget_eq_afind, aget_eq_afind, afind_map_key]
  cases afind m k
  · exact hd.symm
  · rfl

theorem forEach_map {α β : Type} (g : α → β) (l : List α) (f : β → State → State) (s : State) :
    forEach (l.map g) f s = forEach l (fun a => f (g a)) s := List.foldl_map

/-- Two loops do the same where their steps agree on every state the loop can reach. -/
theorem forEach_congr {α : Type} {P : State → Prop} {f g : α → State → State} (h : ∀ a s, P s → f a s = g a s ∧ P (g a s))
    (l : List α) {s : State} (hs : P s) : forEach l f s = forEach l g s := by
  induction l generalizing s with
  | nil => rfl
  | cons a r ih =>
    obtain ⟨same, next⟩ := h a s hs
    show forEach r f (f a s) = forEach r g (g a s)
    rw [same, ih next]

/-! ## Dies, blocks and map entries after an update -/

theorem die_modDie (d e : Nat) (f : FlmDie → FlmDie) (s : State) :
    (modDie d f s).die e = if d = e then f (s.die d) else s.die e := aget_amod ..

@[simp] theorem die_modDie_self (d : Nat) (f : FlmDie → FlmDie) (s : State) : (modDie d f s).die d = f (s.die d) :=
  aget_amod_self ..

theorem die_modDie_ne {d e : Nat} (f : FlmDie → FlmDie) (s : State) (h : e ≠ d) : (modDie d f s).die e = s.die e :=
  (die_modDie ..).trans (if_neg h.symm)

theorem block_setBlk (x : FlmDie) (b c : Nat) (k : FlmBlk) : (x.setBlk b k).block c = if b = c then k else x.block c :=
  aget_aset ..

@[simp] theorem block_setBlk_self (x : FlmDie) (b : Nat) (k : FlmBlk) : (x.setBlk b k).block b = k := aget_aset_self ..

theorem block_setBlk_ne (x : FlmDie) {b c : Nat} (k : FlmBlk) (h : c ≠ b) : (x.setBlk b k).block c = x.block c :=
  (block_setBlk ..).trans (if_neg h.symm)

/-- A die is what the table of dies holds. -/
theorem die_of_dies {s t : State} (h : t.flm.dies = s.flm.dies) (d : Nat) : t.die d = s.die d := by
  rw [State.die, h]; rfl

theorem die_of_find {s : State} {d : Nat} {x : FlmDie} (h : afind s.flm.dies d = some x) : s.die d = x := by
  rw [State.die, aget_eq_afind, h]; rfl

theorem entry_of_map {s t : State} (h : t.flm.map = s.flm.map) (l : Nat) : t.entry l = s.entry l := by
  rw [State.entry, h]; rfl

/-- A change of a die's own marks, which leaves its fence and its blocks. -/
def KeepsBlocks (f : FlmDie → FlmDie) : Prop :=
  ∀ x, (f x).fenced = x.fenced ∧ (f x).blk = x.blk ∧ (f x).base = x.base ∧ (f x).again = x.again

theorem KeepsBlocks.block {f : FlmDie → FlmDie} (hf : KeepsBlocks f) (x : FlmDie) (b : Nat) : (f x).block b = x.block b := by
  obtain ⟨-, hblk, hbase, hagain⟩ := hf x
  rw [FlmDie.block, hblk, hbase, hagain]
  rfl

/-- Which pages of a block are valid does not depend on a die's marks. -/
theorem validPages_modDie {f : FlmDie → FlmDie} (hf : KeepsBlocks f) (d e b : Nat) (s : State) :
    (modDie d f s).validPages e b = s.validPages e b := by
  have block : ((modDie d f s).die e).block b = (s.die e).block b := by
    rw [die_modDie]
    split
    next h => rw [hf.block, h]
    next => rfl
  have valid : ∀ i p, (modDie d f s).validPage e b i p = s.validPage e b i p := fun i p => by
    have older := any_amod s.flm.dies d (d := {}) (f := f) (g := fun x => !x.fenced && x.blk.any (fun y => y.2.pages.any
      (fun q => q.kind = 1 && !q.torn && decide (q.dataSeq < p.dataSeq) && p.covers q.lua)))
      (fun x => by rw [(hf x).1, (hf x).2.1]) rfl
    unfold State.validPage
    rw [show (modDie d f s).flm.dies.any _ = s.flm.dies.any _ from older]
    rfl
  rw [State.validPages, block]
  exact List.filter_congr fun q _ => valid q.1 q.2

/-! ## Programs that start (R226) -/

/-- Two states that differ at most in programs, the order they start in, demand slots and the checkpoint's mark. -/
def ProgApart (s t : State) : Prop :=
  t = { s with flm := { s.flm with progs := t.flm.progs, waiting := t.flm.waiting, seq := t.flm.seq
                                   nextPlace := t.flm.nextPlace, erasesAt := t.flm.erasesAt }
               tie := { s.tie with slots := t.tie.slots } }

namespace ProgApart

theorem refl (s : State) : ProgApart s s := rfl

theorem trans {s t u : State} (h : ProgApart s t) (k : ProgApart t u) : ProgApart s u := by
  unfold ProgApart at *; rw [k, h]

theorem overLoop {α : Type} {f : α → State → State} (h : ∀ a s, ProgApart s (f a s)) (l : List α) (s : State) :
    ProgApart s (forEach l f s) :=
  forEach_rel refl trans h l s

theorem takeSlot (tier ch g : Nat) (s : State) : ProgApart s (takeSlot tier ch g s) := by
  unfold Machine.takeSlot; split <;> rfl

theorem startProg (p : FlmProg) (s : State) : ProgApart s (startProg p s) := by
  unfold Machine.startProg nextDie
  split
  · rfl
  · dsimp only
    split
    next => rfl
    next d t h =>
      split at h
      · cases h
      · cases h
        refine trans ?_ (takeSlot ..)
        rfl

theorem startWaiting (s : State) : ProgApart s (startWaiting s) := by
  refine trans ?_ (overLoop startProg _ _)
  rfl

variable {s t : State} (h : ProgApart s t)
include h

theorem now : t.now = s.now := by rw [h]
theorem logical : t.flm.logical = s.flm.logical := by rw [h]
theorem erases : t.flm.erases = s.flm.erases := by rw [h]
theorem out : t.out = s.out := by rw [h]
theorem sat : t.sat = s.sat := by rw [h]
theorem dies : t.flm.dies = s.flm.dies := by rw [h]
theorem map : t.flm.map = s.flm.map := by rw [h]
theorem retired : t.flm.retired = s.flm.retired := by rw [h]
theorem secure : t.flm.secure = s.flm.secure := by rw [h]
theorem die (d : Nat) : t.die d = s.die d := die_of_dies h.dies d
theorem entry (l : Nat) : t.entry l = s.entry l := entry_of_map h.map l

end ProgApart

/-- A program as it starts from `s`, the `k`-th of those that start together. -/
def State.started (s : State) (p : FlmProg) (k : Nat) : FlmProg :=
  { p with die := s.diesIn.getD ((s.flm.nextPlace + k) % s.diesIn.length) 0
           page := { p.page with seq := s.flm.seq + k, dataSeq := s.flm.seq + k }
           deadline := s.opDeadline }

theorem takeSlot_flm (tier ch g : Nat) (s : State) : (takeSlot tier ch g s).flm = s.flm := by
  unfold takeSlot; split <;> rfl

/-- A program with no earlier one of its units starts on the next die, with the next `SEQ`. -/
theorem startProg_of_free {p : FlmProg} {s : State} (hd : s.diesIn ≠ []) (hb : s.flm.busy p.page = false) :
    (startProg p s).flm = { s.flm with progs := s.flm.progs ++ [s.started p 0], seq := s.flm.seq + 1
                                       nextPlace := (s.flm.nextPlace + 1) % s.diesIn.length } := by
  have next : nextDie s = some (s.diesIn.getD (s.flm.nextPlace % s.diesIn.length) 0,
      modFlm (fun m => { m with nextPlace := (m.nextPlace + 1) % s.diesIn.length }) s) :=
    if_neg (by simpa using hd)
  rw [startProg, hb, if_neg Bool.false_ne_true, next]
  exact takeSlot_flm ..

/-- No unit of `q` is one of `p`. -/
def FlmPage.apart (p q : FlmPage) : Prop := q.span.any (fun r => p.meets r.1 r.2) = false

/-- Once a program has started, a page is busy where it was or where it has a unit of that program. -/
theorem busy_startProg {p : FlmProg} {s : State} (hd : s.diesIn ≠ []) (hb : s.flm.busy p.page = false) {q : FlmPage}
    (hq : s.flm.busy q = false) (hpq : p.page.apart q) : (startProg p s).flm.busy q = false := by
  have other : (s.started p 0).page.apart q := hpq
  rw [startProg_of_free hd hb]
  simp only [Flm.busy, List.any_append, Bool.or_eq_false_iff, List.any_cons, List.any_nil, and_true] at hq ⊢
  exact ⟨⟨hq.1, other⟩, hq.2⟩

/-- Programs that have no unit in common with one another or with an earlier program all start, in order. -/
theorem startAll {s : State} (hd : s.diesIn ≠ []) {ps : List FlmProg} (hfree : ∀ p ∈ ps, s.flm.busy p.page = false)
    (hpair : ps.Pairwise (fun p q => p.page.apart q.page)) :
    (forEach ps startProg s).flm.progs = s.flm.progs ++ ps.mapIdx (fun k p => s.started p k)
      ∧ (forEach ps startProg s).flm.seq = s.flm.seq + ps.length := by
  induction ps generalizing s with
  | nil => exact ⟨(List.append_nil _).symm, rfl⟩
  | cons p r ih =>
    obtain ⟨hp, hr⟩ := List.forall_mem_cons.mp hfree
    obtain ⟨hpr, hrr⟩ := List.pairwise_cons.mp hpair
    have dies : (startProg p s).diesIn = s.diesIn := by rw [State.diesIn, (ProgApart.startProg p s).dies]; rfl
    obtain ⟨progs, seq⟩ := ih (s := startProg p s) (by rwa [dies])
      (fun q hq => busy_startProg hd hp (hr q hq) (hpr q hq)) hrr
    have later : ∀ k q, (startProg p s).started q k = s.started q (k + 1) := fun k q => by
      rw [State.started, dies, startProg_of_free hd hp, State.opDeadline, (ProgApart.startProg p s).now]
      simp only [State.started, State.opDeadline, Nat.mod_add_mod, Nat.add_assoc, Nat.add_comm 1 k]
    have first : (startProg p s).flm.progs = s.flm.progs ++ [s.started p 0] := by rw [startProg_of_free hd hp]
    refine ⟨?_, ?_⟩
    · show (forEach r startProg (startProg p s)).flm.progs = _
      rw [progs, first, List.append_assoc, List.mapIdx_cons]
      simp only [later, List.singleton_append]
    · show (forEach r startProg (startProg p s)).flm.seq = _
      rw [seq, startProg_of_free hd hp, List.length_cons, Nat.add_comm r.length, ← Nat.add_assoc]

/-- The program of unit `k` of the checkpoint (R237). -/
def State.checkpointProg (s : State) (k : Nat) : FlmProg :=
  { page := dataPage (s.flm.logical + k) 0 (fit (sub s.checkpointData (16384 * k) 16384) 16384) }

/-- The programs of a checkpoint, in order. -/
def State.checkpointProgs (s : State) : List FlmProg :=
  (List.range (min 4096 (ceilDiv s.checkpointData.length 16384))).map s.checkpointProg

theorem checkpoint_eq (s : State) :
    checkpoint s = modFlm (fun m => { m with erasesAt := m.erases }) (forEach s.checkpointProgs startProg s) := by
  rw [State.checkpointProgs, forEach_map, checkpoint]
  refine congrArg (modFlm _) (forEach_congr (P := fun t => t.flm.logical = s.flm.logical) (fun k t ht => ⟨?_, ?_⟩) _ rfl)
  · rw [State.checkpointProg, ht]
  · rw [(ProgApart.startProg _ t).logical, ht]

theorem ProgApart.checkpointDue (s : State) : ProgApart s (checkpointDue s) := by
  unfold Machine.checkpointDue
  split
  · rw [checkpoint_eq]
    exact trans (overLoop startProg s.checkpointProgs s) rfl
  · exact refl s

/-! ## Health after a change (R245 to R247) -/

theorem logEvent_apart (code unit : Nat) (sag : Option Nat) (payload : List Nat) (s : State) :
    logEvent code unit sag payload s = { s with log := (logEvent code unit sag payload s).log } := by
  unfold logEvent logAs occur; split <;> rfl

/-- The health flags, the read-only state and the log are all that the checks of health change. -/
theorem flmHealth_apart (s : State) : flmHealth s = { s with
    log := (flmHealth s).log
    flm := { s.flm with flags := (flmHealth s).flm.flags, staleFull := (flmHealth s).flm.staleFull
                        st := (flmHealth s).flm.st } } := by
  unfold flmHealth
  split
  · rfl
  · have logged := forEach_rel (R := fun s t : State => t = { s with log := t.log }) (fun _ => rfl)
      (fun h k => by rw [k, h]) (fun (c : Nat × Bool × Nat × Nat) s => logEvent_apart c.2.2.1 0 none
        (if c.1 < 7 then [c.2.2.2] else [c.2.2.2, if c.1 = 7 then s.flm.window.1 else s.flm.window.2]) s)
      (s.healthNow.filter (fun c => c.2.1 && !s.flm.flags.contains c.1)) s
    dsimp only
    rw [logged]
    rfl

@[simp] theorem flmHealth_now (s : State) : (flmHealth s).now = s.now := by rw [flmHealth_apart s]
@[simp] theorem flmHealth_out (s : State) : (flmHealth s).out = s.out := by rw [flmHealth_apart s]
@[simp] theorem flmHealth_ctr (s : State) : (flmHealth s).ctr = s.ctr := by rw [flmHealth_apart s]
@[simp] theorem flmHealth_tie (s : State) : (flmHealth s).tie = s.tie := by rw [flmHealth_apart s]
@[simp] theorem flmHealth_dies (s : State) : (flmHealth s).flm.dies = s.flm.dies := by rw [flmHealth_apart s]
@[simp] theorem flmHealth_map (s : State) : (flmHealth s).flm.map = s.flm.map := by rw [flmHealth_apart s]
@[simp] theorem flmHealth_progs (s : State) : (flmHealth s).flm.progs = s.flm.progs := by rw [flmHealth_apart s]
@[simp] theorem flmHealth_seq (s : State) : (flmHealth s).flm.seq = s.flm.seq := by rw [flmHealth_apart s]
@[simp] theorem flmHealth_writes (s : State) : (flmHealth s).flm.writes = s.flm.writes := by rw [flmHealth_apart s]
@[simp] theorem flmHealth_retired (s : State) : (flmHealth s).flm.retired = s.flm.retired := by rw [flmHealth_apart s]
@[simp] theorem flmHealth_saved (s : State) : (flmHealth s).flm.saved = s.flm.saved := by rw [flmHealth_apart s]
@[simp] theorem flmHealth_die (s : State) (d : Nat) : (flmHealth s).die d = s.die d := die_of_dies (flmHealth_dies s) d
@[simp] theorem flmHealth_entry (s : State) (l : Nat) : (flmHealth s).entry l = s.entry l := entry_of_map (flmHealth_map s) l

end Sys2Proof.Machine
end

section
namespace Sys2Proof.Machine

/-! ## Programs of units (R226) -/

theorem span_unit {p : FlmPage} (h : p.kind = 1) : p.span = [(p.lua, 1)] := if_pos h

theorem busy_unit {m : Flm} {p : FlmPage} (hk : p.kind = 1)
    (h : ∀ q ∈ m.progs ++ m.waiting, q.page.meets p.lua 1 = false) : m.busy p = false := by
  rw [Flm.busy, List.any_eq_false]
  intro q hq
  simpa [span_unit hk] using h q hq

theorem apart_unit {p q : FlmPage} (hp : p.kind = 1) (hq : q.kind = 1) (h : p.lua ≠ q.lua) : p.apart q := by
  simp only [FlmPage.apart, span_unit hp, span_unit hq, FlmPage.meets, List.any_cons, List.any_nil, Bool.or_false,
    Bool.and_eq_false_iff, decide_eq_false_iff_not]
  omega

/-- Units in a row, with no earlier program of them left, start on successive dies with successive `SEQ`s. -/
theorem startUnits {s : State} (hd : s.diesIn ≠ []) {F : Nat → FlmProg} {base n : Nat} (hkind : ∀ k, (F k).page.kind = 1)
    (hlua : ∀ k, (F k).page.lua = base + k)
    (hfree : ∀ q ∈ s.flm.progs ++ s.flm.waiting, ∀ k, k < n → q.page.meets (base + k) 1 = false) :
    (forEach ((List.range n).map F) startProg s).flm.progs
        = s.flm.progs ++ (List.range n).map (fun k => s.started (F k) k)
      ∧ (forEach ((List.range n).map F) startProg s).flm.seq = s.flm.seq + n := by
  have idx : ((List.range n).map F).mapIdx (fun k p => s.started p k) = (List.range n).map (fun k => s.started (F k) k) :=
    List.ext_getElem (by simp) (fun i h₁ h₂ => by simp)
  obtain ⟨progs, seq⟩ := startAll (ps := (List.range n).map F) hd
    (by
      simp only [List.forall_mem_map, List.mem_range]
      exact fun k hk => busy_unit (hkind k) fun q hq => hlua k ▸ hfree q hq k hk)
    (List.pairwise_map.mpr (List.pairwise_lt_range.imp fun {i j} h =>
      apart_unit (hkind i) (hkind j) (by rw [hlua, hlua]; omega)))
  exact ⟨progs.trans (by rw [idx]), seq.trans (by rw [List.length_map, List.length_range])⟩

/-! ## Frame writes (R226, R247) -/

/-- Unit `k` of a frame write, as a page. -/
def State.framePage (s : State) (f g : Nat) (data : List Byte) (poison : List Nat) (k : Nat) : FlmPage :=
  { dataPage (4 * f + k) g (fit (sub data (16384 * k) 16384) 16384) with
    enc := (aget s.tie.frames (t4Id f) {}).conf
    poison := (poison.filter (fun x => x / 64 = k)).map (· % 64) }

theorem flashWrite_of_refused {s : State} {f g : Nat} {st : Status} {h : Nat} (hr : s.writeRefusal f g = some (st, h))
    (data : List Byte) (poison : List Nat) : flashWrite f g data poison s
      = emit (.flm (4 * f) 4 st h) (if st = .nackRetry ∧ h = 14 then noteFallback g s else s) := by
  rw [flashWrite, hr]

/-- A frame write taken is entered, with the next number and all units left, before its programs start. -/
def entered (f : Nat) (s : State) : State :=
  modFlm (fun m => { m with
    nextWrite := m.nextWrite + 1
    writes := m.writes ++ [{ id := m.nextWrite, frame := f, left := [0, 1, 2, 3] }] }) s

/-- The programs of a frame write. -/
def State.frameProgs (s : State) (f g : Nat) (data : List Byte) (poison : List Nat) : List FlmProg :=
  (List.range 4).map (fun k => { page := s.framePage f g data poison k, write := some s.flm.nextWrite })

theorem flashWrite_of_taken {s : State} {f g : Nat} (hr : s.writeRefusal f g = none) (data : List Byte) (poison : List Nat) :
    flashWrite f g data poison s = forEach (s.frameProgs f g data poison) startProg (entered f s) := by
  have left : ((List.range 4).map (s.framePage f g data poison)).map (fun p => p.lua % 4) = [0, 1, 2, 3] := by
    have luas : ∀ k, (s.framePage f g data poison k).lua = 4 * f + k := fun _ => rfl
    simp [List.range, List.range.loop, luas, Nat.add_mod]
  rw [flashWrite, hr]
  show beginWrite f ((List.range 4).map (s.framePage f g data poison)) none s = _
  rw [beginWrite, left, State.frameProgs, forEach_map, forEach_map]
  rfl

/-- A frame write taken starts its four units on the next dies in turn, with the next `SEQ`s. -/
theorem flashWrite_spec {s : State} {f g : Nat} (hr : s.writeRefusal f g = none) (hd : s.diesIn ≠ [])
    (hfree : ∀ q ∈ s.flm.progs ++ s.flm.waiting, ∀ k, k < 4 → q.page.meets (4 * f + k) 1 = false) (data : List Byte)
    (poison : List Nat) {u : State} (hu : u = flashWrite f g data poison s) :
    ProgApart (entered f s) u ∧ u.flm.seq = s.flm.seq + 4
      ∧ u.flm.progs = s.flm.progs ++ (List.range 4).map (fun k => s.started
          { page := s.framePage f g data poison k, write := some s.flm.nextWrite } k) := by
  rw [hu, flashWrite_of_taken hr]
  obtain ⟨progs, seq⟩ := startUnits (s := entered f s)
    (F := fun k => { page := s.framePage f g data poison k, write := some s.flm.nextWrite }) (base := 4 * f) (n := 4)
    hd (fun _ => rfl) (fun _ => rfl) hfree
  exact ⟨ProgApart.overLoop ProgApart.startProg _ _, seq, progs⟩

theorem flashFrameWrite_completes {f g : Nat} (hf : f < 2 ^ 38) (hg : g < 64) (data : List Byte) (poison : List Nat) (s : State) :
    Completes (.flashFrameWrite f g data poison) s (flashWrite f g data poison s) :=
  run_ok (by rw [decide_eq_true hf, decide_eq_true hg]; rfl) rfl

/-! ## Poisoned grains and counts of reads (R203, R549) -/

/-- A grain is poisoned once it was poisoned, and no other is by that. -/
theorem grainPoisoned_poisonGrain (id g id' g' : Nat) (s : State) :
    (poisonGrain id g s).grainPoisoned id' g' = (s.grainPoisoned id' g' || (decide (id' = id) && decide (g' = g))) := by
  cases hf : afind s.tie.frames id with
  | none =>
    rw [poisonGrain, setSide, hf]
    by_cases hid : id' = id
    · subst hid; simp [State.grainPoisoned, hf]
    · simp [hid]
  | some fr =>
    have page : ∀ lua, (poisonGrain id g s).unitPage lua = s.unitPage lua := fun lua => by
      rw [poisonGrain, setSide, hf]; rfl
    have frames : (poisonGrain id g s).tie.frames
        = aset s.tie.frames id { fr with side := aset fr.side g { sideOf fr g with poison := true } } := by
      rw [poisonGrain, setSide, hf]
    simp only [State.grainPoisoned, frames, afind_aset, page]
    by_cases hid : id = id'
    · subst hid
      by_cases hg : g = g'
      · subst hg; simp [sideOf]
      · simp [hf, sideOf, aget_aset, hg, Ne.symm hg, freshSide]
    · simp [hid, Ne.symm hid]

theorem grainPoisoned_poisonGrains (id base : Nat) (l : List Nat) (id' n : Nat) (s : State) :
    (forEach l (fun k s => poisonGrain id (base + k) s) s).grainPoisoned id' n
      = (s.grainPoisoned id' n || (decide (id' = id) && l.any (fun k => decide (n = base + k)))) := by
  induction l generalizing s with
  | nil => simp [forEach]
  | cons k r ih =>
    show (forEach r _ (poisonGrain id (base + k) s)).grainPoisoned id' n = _
    rw [ih, grainPoisoned_poisonGrain, List.any_cons]
    cases s.grainPoisoned id' n <;> cases decide (id' = id) <;> simp

theorem bumpSatN_apart (f : Nat × Nat) (n : Nat) (s : State) : LogApart s (bumpSatN f n s) := by
  induction n generalizing s with
  | zero => exact logApart_refl s
  | succ n ih => exact logApart_trans (bumpSat_apart f s) (ih _)

theorem satVal_bumpSatN_ne {f g : Nat × Nat} (h : f ≠ g) (n : Nat) (s : State) : (bumpSatN f n s).satVal g = s.satVal g := by
  induction n generalizing s with
  | zero => rfl
  | succ n ih => exact (ih _).trans (satVal_bumpSat_ne h s)

/-- Raising a field several times adds as many, up to its all-ones value. -/
theorem satVal_bumpSatN (f : Nat × Nat) {n : Nat} (hn : n ≠ 0) (s : State) :
    (bumpSatN f n s).satVal f = satAdd (satWidth f) (s.satVal f) n := by
  induction n generalizing s with
  | zero => exact absurd rfl hn
  | succ n ih =>
    show (bumpSatN f n (bumpSat f s)).satVal f = _
    by_cases h0 : n = 0
    · subst h0; exact satVal_bumpSat f s
    · rw [ih h0, satVal_bumpSat]
      simp only [satAdd]
      omega

theorem bumpSatN_flm (f : Nat × Nat) (n : Nat) (s : State) : (bumpSatN f n s).flm = s.flm := by rw [bumpSatN_apart f n s]
theorem bumpSatN_tie (f : Nat × Nat) (n : Nat) (s : State) : (bumpSatN f n s).tie = s.tie := by rw [bumpSatN_apart f n s]

/-! ## Reads (R223, R228) -/

/-- What the home hears of failing grains changes its frames' side words and the movers' queue only. -/
theorem reportGrains_apart (lua : Nat) (l : List Nat) (s : State) : reportGrains lua l s = { s with
    tie := { s.tie with frames := (reportGrains lua l s).tie.frames, queue := (reportGrains lua l s).tie.queue } } := by
  have poisoned := forEach_rel (R := fun s t : State => t = { s with tie := { s.tie with frames := t.tie.frames } })
    (fun _ => rfl) (fun h k => by rw [k, h])
    (fun g s => show poisonGrain (t4Id (lua / 4)) (64 * (lua % 4) + g) s = _ by unfold poisonGrain setSide; split <;> rfl) l s
  unfold reportGrains
  dsimp only
  split
  · rfl
  · split
    · split
      · split
        · rw [QueueApart.refetch, poisoned]
        · rw [poisoned]
      · rw [poisoned]
    · rw [poisoned]

theorem grainPoisoned_of_queue {s t : State} (h : QueueApart s t) (id n : Nat) : t.grainPoisoned id n = s.grainPoisoned id n := by
  rw [h]; rfl

/-- The grains reported of a unit are poisoned in its frame, and no other. -/
theorem grainPoisoned_reportGrains (lua : Nat) (l : List Nat) (id n : Nat) (s : State) :
    (reportGrains lua l s).grainPoisoned id n = (s.grainPoisoned id n
      || (decide (id = t4Id (lua / 4)) && l.any (fun k => decide (n = 64 * (lua % 4) + k)))) := by
  have poisoned := grainPoisoned_poisonGrains (t4Id (lua / 4)) (64 * (lua % 4)) l id n s
  unfold reportGrains
  dsimp only
  split
  next h =>
    rcases Bool.or_eq_true_iff.mp h with h | h
    · simp [List.isEmpty_iff.mp h]
    · by_cases hid : id = t4Id (lua / 4)
      · have absent : afind s.tie.frames id = none := by simpa [ahas, hid] using h
        simp [State.grainPoisoned, absent]
      · simp [hid]
  next =>
    split
    · split
      · split
        · rw [grainPoisoned_of_queue (QueueApart.refetch ..), poisoned]
        · exact poisoned
      · exact poisoned
    · exact poisoned

/-- A read of a unit takes a demand slot of its die's channel. -/
def readSlot (lua g : Nat) (s : State) : State :=
  match (s.entry lua).pun with
  | some q => takeSlot 4 (q.1 / 32) g s
  | none => s

theorem readSlot_apart (lua g : Nat) (s : State) :
    readSlot lua g s = { s with tie := { s.tie with slots := (readSlot lua g s).tie.slots } } := by
  unfold readSlot takeSlot
  split
  · split <;> rfl
  · rfl

/-- The poison bits stored with a unit. -/
def State.storedPoison (s : State) (lua : Nat) : List Nat :=
  match s.unitPage lua with
  | some p => p.poison
  | none => []

theorem flashRead_of_unserved {s : State} {lua : Nat} (g : Nat) (retries : List (List Nat)) (failing : List Nat)
    (h : (s.flm.st ≠ 3 ∧ s.flm.st ≠ 4) ∨ (s.entry lua).held = true ∨ ((s.entry lua).pun = none ∧ (s.entry lua).lost = false)) :
    flashRead lua g retries failing s = s := by
  rw [flashRead]
  split
  · rfl
  next hst =>
    refine if_pos ?_
    rcases h with h | h | ⟨hp, hl⟩
    · exact absurd h hst
    · simp [h]
    · simp [hp, hl]

/-- A read that is served takes its slot, is counted, and reports the grains that fail at every level and those stored
poisoned. -/
theorem flashRead_of_served {s : State} {lua : Nat} (g : Nat) (retries : List (List Nat)) (failing : List Nat)
    (hst : s.flm.st = 3 ∨ s.flm.st = 4) (hheld : (s.entry lua).held = false)
    (hp : (s.entry lua).pun ≠ none ∨ (s.entry lua).lost = true) {x : List Nat × Nat}
    (hx : x = s.readUnit (s.unitBad lua g) (failing :: retries)) :
    flashRead lua g retries failing s = reportGrains lua (x.1 ++ s.storedPoison lua).eraseDups
      (bumpSatN satFlmReadFail x.1.length (bumpSatN satFlmRetried x.2 (readSlot lua g s))) := by
  have same : (readSlot lua g s).readUnit ((readSlot lua g s).unitBad lua g) (failing :: retries) = x
      ∧ (readSlot lua g s).storedPoison lua = s.storedPoison lua := by
    rw [readSlot_apart, hx]; exact ⟨rfl, rfl⟩
  have hserved : ((s.entry lua).held || ((s.entry lua).pun.isNone && !(s.entry lua).lost)) = false := by
    rcases hp with hp | hp <;> simp [hheld, hp]
  rw [flashRead, if_neg (by omega)]
  dsimp only
  rw [hserved, if_neg Bool.false_ne_true, ← same.1, ← same.2]
  rfl

/-- The counts and the poison a served read leaves. -/
theorem flashRead_spec {s : State} {lua : Nat} (g : Nat) (retries : List (List Nat)) (failing : List Nat)
    (hst : s.flm.st = 3 ∨ s.flm.st = 4) (hheld : (s.entry lua).held = false)
    (hp : (s.entry lua).pun ≠ none ∨ (s.entry lua).lost = true) {x : List Nat × Nat}
    (hx : x = s.readUnit (s.unitBad lua g) (failing :: retries)) {u : State} (hu : u = flashRead lua g retries failing s) :
    u.flm = s.flm ∧ u.tie.mem = s.tie.mem
      ∧ (x.1 ≠ [] → u.satVal satFlmReadFail = satAdd 16 (s.satVal satFlmReadFail) x.1.length)
      ∧ (x.2 ≠ 0 → u.satVal satFlmRetried = satAdd 16 (s.satVal satFlmRetried) x.2)
      ∧ ∀ id n, u.grainPoisoned id n = (s.grainPoisoned id n || (decide (id = t4Id (lua / 4))
          && (x.1 ++ s.storedPoison lua).eraseDups.any (fun k => decide (n = 64 * (lua % 4) + k)))) := by
  rw [hu, flashRead_of_served g retries failing hst hheld hp hx]
  have counted := logApart_trans (bumpSatN_apart satFlmRetried x.2 (readSlot lua g s))
    (bumpSatN_apart satFlmReadFail x.1.length _)
  have reported := fun t => reportGrains_apart lua (x.1 ++ s.storedPoison lua).eraseDups t
  have slotSat : ∀ f, (readSlot lua g s).satVal f = s.satVal f := satVal_of_sat (by rw [readSlot_apart])
  have sat : ∀ t f, (reportGrains lua (x.1 ++ s.storedPoison lua).eraseDups t).satVal f = t.satVal f :=
    fun t => satVal_of_sat (by rw [reported])
  refine ⟨by rw [reported, counted, readSlot_apart], by rw [reported, counted, readSlot_apart], fun h => ?_, fun h => ?_,
    fun id n => ?_⟩
  · rw [sat, satVal_bumpSatN _ (by simpa using h), satVal_bumpSatN_ne (by decide), slotSat]
    rfl
  · rw [sat, satVal_bumpSatN_ne (by decide), satVal_bumpSatN _ h, slotSat]
    rfl
  · rw [grainPoisoned_reportGrains, counted, readSlot_apart]
    rfl

theorem flashRead_completes {lua g : Nat} (hl : lua < 2 ^ 40) (hg : g < 64) (retries : List (List Nat)) (failing : List Nat)
    (s : State) : Completes (.flashRead lua g retries failing) s (flashRead lua g retries failing s) :=
  run_ok (by rw [decide_eq_true hl, decide_eq_true hg]; rfl) rfl

end Sys2Proof.Machine
end

section
namespace Sys2Proof.Machine

/-! ## Pages that stand in a block (R226, R229) -/

/-- The block a die's host or GC stream programs. -/
def FlmDie.openFor (x : FlmDie) (host : Bool) : Option Nat := if host then x.hostOpen else x.gcOpen

/-- A block with a page programmed next. -/
def FlmBlk.put (k : FlmBlk) (p : FlmPage) : FlmBlk := { k with pages := k.pages ++ [{ p with eraseCount := k.erases }] }

/-- Two states that differ at most in the dies, what was programmed and what is to be. -/
def PutApart (s t : State) : Prop :=
  t = { s with ctr := t.ctr
               flm := { s.flm with dies := t.flm.dies, window := t.flm.window, lastWindow := t.flm.lastWindow
                                   windowAt := t.flm.windowAt, progs := t.flm.progs, seq := t.flm.seq } }

namespace PutApart

theorem trans {s t u : State} (h : PutApart s t) (k : PutApart t u) : PutApart s u := by
  unfold PutApart at *; rw [k, h]

theorem rollWindow (s : State) : PutApart s (rollWindow s) := by
  unfold Machine.rollWindow; dsimp only; split <;> rfl

theorem putPage (d b : Nat) (p : FlmPage) (s : State) : PutApart s (putPage d b p s) :=
  trans (trans (t := modBlk d b (fun k => { k with pages := k.pages ++ [{ p with eraseCount := k.erases }] }) s) rfl
    (u := bumpCtr ctrFlmPrograms 1 _) rfl) (rollWindow _)

theorem summarise (d b : Nat) (host : Bool) (s : State) : PutApart s (summarise d b host s) := rfl

variable {s t : State} (h : PutApart s t)
include h

theorem map : t.flm.map = s.flm.map := by rw [h]
theorem waiting : t.flm.waiting = s.flm.waiting := by rw [h]
theorem secure : t.flm.secure = s.flm.secure := by rw [h]
theorem writes : t.flm.writes = s.flm.writes := by rw [h]
theorem dataPages : t.flm.dataPages = s.flm.dataPages := by rw [h]; rfl
theorem summaries : t.flm.summaries = s.flm.summaries := by rw [h]; rfl
theorem tie : t.tie = s.tie := by rw [h]

end PutApart

/-- Only the windows of failures change when they shift. -/
theorem rollWindow_cases (s : State) : rollWindow s = s ∨ ∃ last now at_,
    rollWindow s = modFlm (fun m => { m with lastWindow := last, window := now, windowAt := at_ }) s := by
  unfold rollWindow
  dsimp only
  split
  · exact .inr ⟨_, _, _, rfl⟩
  · exact .inl rfl

theorem rollWindow_keeps (s : State) : (rollWindow s).flm.dies = s.flm.dies ∧ (rollWindow s).flm.progs = s.flm.progs
    ∧ (rollWindow s).flm.seq = s.flm.seq := by
  rcases rollWindow_cases s with h | ⟨_, _, _, h⟩ <;> rw [h] <;> exact ⟨rfl, rfl, rfl⟩

theorem putPage_dies (d b : Nat) (p : FlmPage) (s : State) :
    (putPage d b p s).flm.dies = amod s.flm.dies d {} (fun x => x.setBlk b ((x.block b).put p)) :=
  (rollWindow_keeps _).1

theorem putPage_progs (d b : Nat) (p : FlmPage) (s : State) : (putPage d b p s).flm.progs = s.flm.progs :=
  (rollWindow_keeps _).2.1

theorem putPage_seq (d b : Nat) (p : FlmPage) (s : State) : (putPage d b p s).flm.seq = s.flm.seq :=
  (rollWindow_keeps _).2.2

theorem putPage_die (d b : Nat) (p : FlmPage) (s : State) :
    (putPage d b p s).die d = (s.die d).setBlk b (((s.die d).block b).put p) := by
  rw [State.die, putPage_dies, aget_amod_self]; rfl

theorem putPage_die_ne {d e : Nat} (b : Nat) (p : FlmPage) (s : State) (h : e ≠ d) : (putPage d b p s).die e = s.die e := by
  rw [State.die, putPage_dies, aget_amod, if_neg h.symm]; rfl

/-- The programs of a block's summary pages. -/
def summaryProgs (d b : Nat) (host : Bool) (s : State) : List FlmProg :=
  (List.range s.flm.summaries).map (fun i =>
    { die := d, host := host, block := some b, deadline := s.opDeadline
      page := { kind := 2, seq := s.flm.seq + i, data := summaryData s.flm d b ((s.die d).block b) i } })

theorem summarise_eq (d b : Nat) (host : Bool) (s : State) : summarise d b host s = shutBlock d host
    (modFlm (fun m => { m with seq := m.seq + m.summaries, progs := summaryProgs d b host s ++ m.progs }) s) := rfl

/-- The summary pages' start leaves every block, and ends the stream's open one. -/
theorem summarise_die (d b : Nat) (host : Bool) (s : State) : (∀ c, ((summarise d b host s).die d).block c = (s.die d).block c)
    ∧ (∀ e, e ≠ d → (summarise d b host s).die e = s.die e) ∧ ((summarise d b host s).die d).openFor host = none := by
  rw [summarise_eq, shutBlock, die_modDie_self]
  refine ⟨fun c => rfl, fun e he => die_modDie_ne _ _ he, ?_⟩
  cases host <;> rfl

/-- A page programmed into a stream whose open block is `b`; the last data page starts the summary pages. -/
def placed (d b : Nat) (host : Bool) (p : FlmPage) (s : State) : State :=
  if s.flm.dataPages ≤ ((s.die d).block b).pages.length + 1 then summarise d b host (putPage d b p s) else putPage d b p s

section
variable {s : State} {d b : Nat} {host : Bool}

theorem openBlock_of_open (h : (s.die d).openFor host = some b) : openBlock d host s = some (b, s) := by
  unfold FlmDie.openFor at h
  rw [openBlock]
  dsimp only
  rw [h]

theorem placePage_of_open (h : (s.die d).openFor host = some b) (p : FlmPage) : placePage d host p s
    = some ((d, b, ((s.die d).block b).pages.length), placed d b host p s) := by
  rw [placePage, openBlock_of_open h]
  dsimp only
  rw [(PutApart.putPage d b p s).dataPages, placed]

theorem placed_of_room (h : ((s.die d).block b).pages.length + 1 < s.flm.dataPages) (p : FlmPage) :
    placed d b host p s = putPage d b p s := if_neg (by omega)

theorem placed_of_full (h : s.flm.dataPages ≤ ((s.die d).block b).pages.length + 1) (p : FlmPage) :
    placed d b host p s = summarise d b host (putPage d b p s) := if_pos h

end

theorem PutApart.placed (d b : Nat) (host : Bool) (p : FlmPage) (s : State) : PutApart s (placed d b host p s) := by
  unfold Machine.placed
  split
  · exact (PutApart.putPage d b p s).trans (.summarise ..)
  · exact .putPage d b p s

/-- The block takes the page, and no other block changes. -/
theorem placed_block (d b : Nat) (host : Bool) (p : FlmPage) (s : State) :
    ((placed d b host p s).die d).block b = ((s.die d).block b).put p
      ∧ (∀ c, c ≠ b → ((placed d b host p s).die d).block c = (s.die d).block c)
      ∧ ∀ e, e ≠ d → (placed d b host p s).die e = s.die e := by
  unfold placed
  split
  · obtain ⟨same, others, -⟩ := summarise_die d b host (putPage d b p s)
    exact ⟨by rw [same, putPage_die, block_setBlk_self], fun c hc => by rw [same, putPage_die, block_setBlk_ne _ _ hc],
      fun e he => (others e he).trans (putPage_die_ne b p s he)⟩
  · exact ⟨by rw [putPage_die, block_setBlk_self], fun c hc => by rw [putPage_die, block_setBlk_ne _ _ hc],
      fun e he => putPage_die_ne b p s he⟩

/-- A page read before a program stands after it. -/
theorem unitPage_placed {s : State} {l : Nat} {q : FlmPage} (h : s.unitPage l = some q) (d b : Nat) (host : Bool) (p : FlmPage) :
    (placed d b host p s).unitPage l = some q := by
  obtain ⟨same, others, dies⟩ := placed_block d b host p s
  have kept : ∀ e c i, ((s.die e).block c).pages[i]? = some q
      → (((placed d b host p s).die e).block c).pages[i]? = some q := fun e c i hq => by
    by_cases he : e = d
    · subst he
      by_cases hc : c = b
      · subst hc
        rw [same]
        exact (List.getElem?_append_left (List.getElem?_eq_some_iff.mp hq).1).trans hq
      · rwa [others c hc]
    · rwa [dies e he]
  unfold State.unitPage at h ⊢
  rw [entry_of_map (PutApart.placed d b host p s).map]
  split at h
  · split at h
    · cases h
    next hheld => rw [if_neg hheld]; exact kept _ _ _ h
  · cases h

/-! ## What follows a program that has passed (R226, R239) -/

/-- A program is no longer in progress. -/
def dropProg (p : FlmProg) (s : State) : State := modFlm (fun m => { m with progs := m.progs.erase p }) s

/-- The map names the place of a unit's copy. -/
def nameCopy (lua : Nat) (pun : Nat × Nat × Nat) (s : State) : State :=
  modFlm (fun m => { m with map := amod m.map lua {} (fun (e : FlmEntry) => { e with pun := some pun, lost := false }) }) s

/-- A page that stands on the media takes effect: a trim record unmaps its units, any other is its unit's copy. -/
def takeEffect (p : FlmProg) (pun : Nat × Nat × Nat) (s : State) : State :=
  if p.page.kind = 3 then unmap p.page s else noteUnit p (nameCopy p.page.lua pun s)

/-- With nothing waiting and no secure discard on its way, a program that ends starts no other. -/
theorem secureWork_startWaiting {s : State} (hw : s.flm.waiting = []) (hs : s.flm.secure = []) :
    secureWork (startWaiting s) = s := by
  have idle : startWaiting s = s := by
    have kept : modFlm (fun m => { m with waiting := [] }) s = s := by
      rw [modFlm, ← hw]
    rw [startWaiting, hw]
    exact kept
  rw [idle, secureWork, hs]
  rfl

theorem noteUnit_apart (p : FlmProg) (s : State) : noteUnit p s = { s with
    out := (noteUnit p s).out
    flm := { s.flm with writes := (noteUnit p s).flm.writes }
    tie := { s.tie with regions := (noteUnit p s).tie.regions } } := by
  unfold noteUnit
  split
  · rfl
  · dsimp only
    split
    · rfl
    · split
      · rfl
      · rw [modRegion_frame]; rfl

theorem entry_noteUnit (p : FlmProg) (s : State) (l : Nat) : (noteUnit p s).entry l = s.entry l :=
  entry_of_map (by rw [noteUnit_apart]) l

theorem entry_nameCopy (lua l : Nat) (pun : Nat × Nat × Nat) (s : State) : (nameCopy lua pun s).entry l
    = if lua = l then { s.entry lua with pun := some pun, lost := false } else s.entry l :=
  aget_amod s.flm.map lua l {} (fun e => { e with pun := some pun, lost := false })

/-- What a page's effect changes besides the map. -/
theorem takeEffect_apart (p : FlmProg) (pun : Nat × Nat × Nat) (s : State) : takeEffect p pun s = { s with
    out := (takeEffect p pun s).out
    flm := { s.flm with writes := (takeEffect p pun s).flm.writes, map := (takeEffect p pun s).flm.map }
    tie := { s.tie with regions := (takeEffect p pun s).tie.regions } } := by
  unfold takeEffect
  split
  · rfl
  · rw [noteUnit_apart]; rfl

theorem takeEffect_dies (p : FlmProg) (pun : Nat × Nat × Nat) (s : State) : (takeEffect p pun s).flm.dies = s.flm.dies := by
  rw [takeEffect_apart]
theorem takeEffect_progs (p : FlmProg) (pun : Nat × Nat × Nat) (s : State) : (takeEffect p pun s).flm.progs = s.flm.progs := by
  rw [takeEffect_apart]
theorem takeEffect_seq (p : FlmProg) (pun : Nat × Nat × Nat) (s : State) : (takeEffect p pun s).flm.seq = s.flm.seq := by
  rw [takeEffect_apart]
theorem takeEffect_waiting (p : FlmProg) (pun : Nat × Nat × Nat) (s : State) :
    (takeEffect p pun s).flm.waiting = s.flm.waiting := by rw [takeEffect_apart]
theorem takeEffect_secure (p : FlmProg) (pun : Nat × Nat × Nat) (s : State) :
    (takeEffect p pun s).flm.secure = s.flm.secure := by rw [takeEffect_apart]

section
variable {p : FlmProg} {s : State}

theorem entry_takeEffect_unit (h : p.page.kind ≠ 3) (pun : Nat × Nat × Nat) :
    (takeEffect p pun s).entry p.page.lua = { s.entry p.page.lua with pun := some pun, lost := false } := by
  rw [takeEffect, if_neg h, entry_noteUnit, entry_nameCopy, if_pos rfl]

theorem entry_takeEffect_other (h : p.page.kind ≠ 3) (pun : Nat × Nat × Nat) {l : Nat} (hl : l ≠ p.page.lua) :
    (takeEffect p pun s).entry l = s.entry l := by
  rw [takeEffect, if_neg h, entry_noteUnit, entry_nameCopy, if_neg hl.symm]

/-- In a list of writes with distinct numbers, a program's own is the one its number names. -/
theorem write_of_id {l : List FlmWrite} (hn : (l.map (·.id)).Nodup) {v w : FlmWrite} (hv : v ∈ l) (hw : w ∈ l)
    {x : Option Nat} (hxv : x = some v.id) (hxw : x = some w.id) : v = w :=
  List.inj_on_of_nodup_map hn hv hw (Option.some.inj (hxv.symm.trans hxw))

/-- A unit on the media is no longer owed to its write. -/
theorem noteUnit_writes (hn : (s.flm.writes.map (·.id)).Nodup) :
    ∀ w ∈ (noteUnit p s).flm.writes, p.write = some w.id → p.page.lua % 4 ∉ w.left := by
  intro w hw hid
  unfold noteUnit at hw
  split at hw
  next hnone => exact absurd hid (by simpa using List.find?_eq_none.mp hnone w hw)
  next v hv =>
    have hvid : p.write = some v.id := by simpa using List.find?_some hv
    have hvmem := List.mem_of_find?_eq_some hv
    have removed : w ∉ s.flm.writes.filter (· ≠ v) := fun h => by
      obtain ⟨hmem, hne⟩ := List.mem_filter.mp h
      exact of_decide_eq_true hne (write_of_id hn hmem hvmem hid hvid)
    dsimp only at hw
    split at hw
    · obtain ⟨y, hy, rfl⟩ := List.mem_map.mp hw
      split
      next => simp
      next hne =>
        rw [if_neg hne] at hid
        exact absurd (write_of_id hn hy hvmem hid hvid) hne
    · split at hw
      · exact absurd hw removed
      · rw [modRegion_frame] at hw
        exact absurd hw removed

/-- A write whose last unit is on the media is answered `OK`. -/
theorem noteUnit_out (hn : (s.flm.writes.map (·.id)).Nodup) {w : FlmWrite} (hw : w ∈ s.flm.writes)
    (hid : p.write = some w.id) (hleft : w.left = [p.page.lua % 4]) (hmove : w.move = none) :
    .flm (4 * w.frame) 4 .ok 0 ∈ (noteUnit p s).out := by
  have found : s.flm.writes.find? (fun w => p.write = some w.id) = some w := by
    cases h : s.flm.writes.find? (fun w => p.write = some w.id) with
    | none => exact absurd hid (by simpa using List.find?_eq_none.mp h w hw)
    | some v =>
      rw [write_of_id hn (List.mem_of_find?_eq_some h) hw (by simpa using List.find?_some h) hid]
  rw [noteUnit, found]
  simp [hleft, hmove]

/-- An entry of the map once a trim record stands on the media (R230). -/
def State.trimmed (s : State) (p : FlmPage) (l : Nat) (e : FlmEntry) : FlmEntry :=
  if p.covers l then
    match s.unitPage l with
    | some q => if p.dataSeq ≤ q.dataSeq then e else { e with pun := none, lost := false }
    | none => { e with pun := none, lost := false }
  else e

theorem entry_unmap (p : FlmPage) (s : State) (l : Nat) : (unmap p s).entry l = s.trimmed p l (s.entry l) := by
  have table : (unmap p s).flm.map = s.flm.map.map (fun e => (e.1, s.trimmed p e.1 e.2)) := by
    refine List.map_congr_left fun e _ => ?_
    unfold State.trimmed
    split
    · cases s.unitPage e.1 with
      | some q => dsimp only; split <;> rfl
      | none => rfl
    · rfl
  have fresh : s.trimmed p l {} = {} := by
    unfold State.trimmed
    split
    · split
      · split <;> rfl
      · rfl
    · rfl
  rw [State.entry, table, aget_map_key _ fresh]
  rfl

end

/-! ## A program passes (R226, R229) -/

/-- The last of a block's summary pages closes it. -/
def closeBlock (d b : Nat) (s : State) : State :=
  if s.flm.progs.any (fun q => q.die = d && q.block = some b) then s
  else modBlk d b (fun k => { k with st := if k.st = 1 then 2 else k.st }) s

theorem PutApart.closeBlock (d b : Nat) (s : State) : PutApart s (closeBlock d b s) := by
  unfold Machine.closeBlock; split <;> rfl

section
variable {s : State} {d : Nat} {host : Bool}

theorem programDone_of_none (h : s.progOn d host = none) : programDone d host s = s := by rw [programDone, h]

variable {p : FlmProg} (hp : s.progOn d host = some p) (hw : s.flm.waiting = []) (hs : s.flm.secure = [])
include hp hw hs

/-- A page of a stream goes to the next place of the open block and takes effect. -/
theorem programDone_of_stream {b : Nat} (hb : p.block = none) (ho : (s.die d).openFor host = some b) :
    programDone d host s = flmHealth (takeEffect p (d, b, ((s.die d).block b).pages.length)
      (dropProg p (placed d b host p.page s))) := by
  have idle : secureWork (startWaiting (takeEffect p (d, b, ((s.die d).block b).pages.length)
      (dropProg p (placed d b host p.page s)))) = takeEffect p (d, b, ((s.die d).block b).pages.length)
      (dropProg p (placed d b host p.page s)) :=
    secureWork_startWaiting
      ((takeEffect_waiting ..).trans ((PutApart.placed d b host p.page s).waiting.trans hw))
      ((takeEffect_secure ..).trans ((PutApart.placed d b host p.page s).secure.trans hs))
  rw [programDone, hp]
  dsimp only
  rw [hb]
  dsimp only
  rw [placePage_of_open ho]
  exact congrArg flmHealth idle

theorem programDone_of_summary {b : Nat} (hb : p.block = some b) :
    programDone d host s = flmHealth (closeBlock d b (putPage d b p.page (dropProg p s))) := by
  have idle : secureWork (startWaiting (closeBlock d b (putPage d b p.page (dropProg p s))))
      = closeBlock d b (putPage d b p.page (dropProg p s)) := by
    have apart := (PutApart.putPage d b p.page (dropProg p s)).trans (.closeBlock d b _)
    exact secureWork_startWaiting (apart.waiting.trans hw) (apart.secure.trans hs)
  have step : programDone d host s
      = flmHealth (secureWork (startWaiting (closeBlock d b (putPage d b p.page (dropProg p s))))) := by
    rw [programDone, hp]
    dsimp only
    rw [hb]
    dsimp only
    rw [closeBlock, show dropProg p s = modFlm (fun m => { m with progs := m.progs.erase p }) s from rfl]
  rw [step, idle]

/-- What a page of a stream that passes leaves of dies, programs and sequence numbers. -/
theorem programDone_block {b : Nat} (hb : p.block = none) (ho : (s.die d).openFor host = some b) {u : State}
    (hu : u = programDone d host s) :
    (∀ e, u.die e = (placed d b host p.page s).die e)
      ∧ u.flm.progs = (placed d b host p.page s).flm.progs.erase p ∧ u.flm.seq = (placed d b host p.page s).flm.seq := by
  rw [hu, programDone_of_stream hp hw hs hb ho]
  exact ⟨fun e => (flmHealth_die ..).trans (die_of_dies (takeEffect_dies ..) e),
    (flmHealth_progs _).trans (takeEffect_progs ..), (flmHealth_seq _).trans (takeEffect_seq ..)⟩

/-- The last data page of a block starts its summary pages. -/
theorem programDone_full {b : Nat} (hb : p.block = none) (ho : (s.die d).openFor host = some b)
    (hfull : s.flm.dataPages ≤ ((s.die d).block b).pages.length + 1) {u : State} (hu : u = programDone d host s) :
    u.flm.progs = summaryProgs d b host (putPage d b p.page s) ++ s.flm.progs.erase p
      ∧ u.flm.seq = s.flm.seq + s.flm.summaries ∧ (u.die d).openFor host = none := by
  obtain ⟨dies, progs, seq⟩ := programDone_block hp hw hs hb ho hu
  have other : p ∉ summaryProgs d b host (putPage d b p.page s) := fun h => by
    obtain ⟨i, -, hi⟩ := List.mem_map.mp h
    rw [← hi] at hb
    cases hb
  rw [placed_of_full hfull] at dies progs seq
  refine ⟨?_, ?_, ?_⟩
  · rw [progs, summarise_eq]
    show (summaryProgs d b host (putPage d b p.page s) ++ (putPage d b p.page s).flm.progs).erase p = _
    rw [List.erase_append_right _ other, putPage_progs]
  · rw [seq, summarise_eq]
    show (putPage d b p.page s).flm.seq + (putPage d b p.page s).flm.summaries = _
    rw [putPage_seq, (PutApart.putPage d b p.page s).summaries]
  · rw [dies]
    exact (summarise_die ..).2.2

end

theorem summaryProgs_spec (d b : Nat) (host : Bool) (s : State) : (summaryProgs d b host s).length = s.flm.summaries
    ∧ ∀ q ∈ summaryProgs d b host s, q.die = d ∧ q.host = host ∧ q.block = some b ∧ q.page.kind = 2 := by
  refine ⟨by rw [summaryProgs, List.length_map, List.length_range], ?_⟩
  unfold summaryProgs
  exact List.forall_mem_map.mpr fun i _ => ⟨rfl, rfl, rfl, rfl⟩

/-- A summary page that passes stands in its block, which the last of them closes. -/
theorem closeBlock_spec (d b : Nat) (s : State) :
    ((closeBlock d b s).die d).block b = { (s.die d).block b with
        st := if s.flm.progs.any (fun q => q.die = d && q.block = some b) = false ∧ ((s.die d).block b).st = 1 then 2
              else ((s.die d).block b).st }
      ∧ (closeBlock d b s).flm.progs = s.flm.progs ∧ (closeBlock d b s).flm.map = s.flm.map := by
  unfold closeBlock
  split
  next h => simp [h]
  next h =>
    rw [modBlk, die_modDie_self, block_setBlk_self]
    exact ⟨by simp [h], rfl, rfl⟩

theorem pageProgramDone_completes {d : Nat} (hd : d < 1024) (host : Bool) (s : State) :
    Completes (.pageProgramDone d host) s (programDone d host s) := run_ok (decide_eq_true hd) rfl

end Sys2Proof.Machine
end

section
namespace Sys2Proof.Machine

/-! ## The retired list (R236) -/

/-- While the partition has room, an entry is appended. -/
theorem noteRetired_of_room {s : State} (h : s.flm.retired.length < 2 ^ 19) (d b cause : Nat) :
    noteRetired d b cause s = modFlm (fun m => { m with retired := m.retired ++ [retiredEntry d b cause] }) s := by
  have room : s.flm.retired.length < retiredRoom := h
  rw [noteRetired, modFlm, if_pos room]
  rfl

/-- Nothing but the retired list changes, which only grows. -/
theorem noteRetired_keeps (d b cause : Nat) (s : State) :
    ∃ l, noteRetired d b cause s = modFlm (fun m => { m with retired := s.flm.retired ++ l }) s := by
  by_cases h : s.flm.retired.length < retiredRoom
  · exact ⟨[retiredEntry d b cause], by rw [noteRetired, modFlm, if_pos h]; rfl⟩
  · exact ⟨[], by rw [noteRetired, modFlm, if_neg h, List.append_nil]; rfl⟩

/-! ## Fences of dies (R236, R238) -/

/-- An entry of the map once die `d` is fenced: lost where its copy lies on the die. -/
def FlmEntry.lostOn (e : FlmEntry) (d : Nat) : FlmEntry :=
  match e.pun with
  | some q => { e with lost := e.lost || decide (q.1 = d) }
  | none => e

theorem lostOn_of_there {e : FlmEntry} {d b i : Nat} (h : e.pun = some (d, b, i)) : (e.lostOn d).lost = true := by
  rw [FlmEntry.lostOn, h]; simp

theorem lostOn_of_elsewhere {e : FlmEntry} {d c b i : Nat} (h : e.pun = some (c, b, i)) (hne : c ≠ d) : e.lostOn d = e := by
  obtain ⟨pun, lost, held⟩ := e
  cases h
  simp [FlmEntry.lostOn, hne]

/-- The die `x` of number `d` is out of service, with its programs and the units on it lost. -/
def loseDie (d : Nat) (x : FlmDie) (s : State) : State :=
  modFlm (fun m => { m with
    dies := aset m.dies d { x with fenced := true, hostOpen := none, gcOpen := none, victim := none, moving := none
                                   moved := [], collecting := false }
    map := m.map.map (fun e => (e.1, e.2.lostOn d))
    progs := m.progs.filter (fun p => p.die ≠ d) }) s

section
variable {s : State} {d : Nat} {x : FlmDie} (hd : afind s.flm.dies d = some x) (hx : x.fenced = false)
include hd hx

/-- A fence loses the die, enters it in the retired list, and does its host programs again elsewhere. -/
theorem fenceFlashDie_of_unfenced (cause : Nat) : fenceFlashDie d cause s
    = flmHealth (forEach (s.flm.progs.filter (fun p => p.die = d && p.host && p.block.isNone)) startProg
        (noteRetired d 0xFFFFF cause (loseDie d x s))) := by
  rw [fenceFlashDie, hd]
  dsimp only
  rw [hx, if_neg Bool.false_ne_true]
  rfl

theorem fenceFlashDie_spec (cause : Nat) (hroom : s.flm.retired.length < 2 ^ 19) {u : State} (hu : u = fenceFlashDie d cause s) :
    u.now = s.now ∧ u.out = s.out ∧ (u.die d).fenced = true
      ∧ u.flm.retired = s.flm.retired ++ [retiredEntry d 0xFFFFF cause] ∧ ∀ l, u.entry l = (s.entry l).lostOn d := by
  have apart := ProgApart.overLoop ProgApart.startProg
    (s.flm.progs.filter (fun p => p.die = d && p.host && p.block.isNone)) (noteRetired d 0xFFFFF cause (loseDie d x s))
  have room : (loseDie d x s).flm.retired.length < 2 ^ 19 := hroom
  rw [noteRetired_of_room room] at apart
  rw [hu, fenceFlashDie_of_unfenced hd hx, noteRetired_of_room room]
  refine ⟨(flmHealth_now _).trans apart.now, (flmHealth_out _).trans apart.out, ?_,
    (flmHealth_retired _).trans apart.retired, fun l => ?_⟩
  · rw [flmHealth_die, apart.die]
    exact congrArg FlmDie.fenced (aget_aset_self ..)
  · rw [flmHealth_entry, apart.entry]
    exact aget_map_key s.flm.map (f := fun _ e => e.lostOn d) rfl

end

/-- A fence leaves every block, every count and the units the map knows; the retired list only grows. -/
theorem fenceFlashDie_keeps (d cause : Nat) (s : State) :
    (∀ e b, ((fenceFlashDie d cause s).die e).block b = (s.die e).block b)
      ∧ (fenceFlashDie d cause s).sat = s.sat
      ∧ (fenceFlashDie d cause s).flm.map.map (·.1) = s.flm.map.map (·.1)
      ∧ ∃ l, (fenceFlashDie d cause s).flm.retired = s.flm.retired ++ l := by
  cases hd : afind s.flm.dies d with
  | none =>
    rw [fenceFlashDie, hd]
    exact ⟨fun _ _ => rfl, rfl, rfl, [], (List.append_nil _).symm⟩
  | some x =>
    cases hx : x.fenced with
    | true =>
      rw [fenceFlashDie, hd]
      dsimp only
      rw [hx, if_pos rfl]
      exact ⟨fun _ _ => rfl, rfl, rfl, [], (List.append_nil _).symm⟩
    | false =>
      have apart := ProgApart.overLoop ProgApart.startProg
        (s.flm.progs.filter (fun p => p.die = d && p.host && p.block.isNone)) (noteRetired d 0xFFFFF cause (loseDie d x s))
      obtain ⟨l, noted⟩ := noteRetired_keeps d 0xFFFFF cause (loseDie d x s)
      rw [noted] at apart
      rw [fenceFlashDie_of_unfenced hd hx, noted]
      refine ⟨fun e b => ?_, (flmHealth_sat _).trans apart.sat, ?_, l, (flmHealth_retired _).trans apart.retired⟩
      · rw [flmHealth_die, apart.die]
        have fenced : (loseDie d x s).die e = if d = e then { x with
            fenced := true, hostOpen := none, gcOpen := none, victim := none, moving := none, moved := []
            collecting := false } else s.die e := aget_aset ..
        show ((loseDie d x s).die e).block b = _
        rw [fenced]
        split
        next h => rw [← h, die_of_find hd]; rfl
        · rfl
      · rw [flmHealth_map, apart.map]
        show ((s.flm.map.map (fun e => (e.1, e.2.lostOn d))).map (·.1)) = _
        rw [List.map_map]
        rfl

/-! ## Blocks that are retired (R235, R236) -/

/-- A die with a block taken off its lists. -/
def FlmDie.without (x : FlmDie) (b : Nat) : FlmDie :=
  { x with early := x.early.filter (· ≠ b), must := x.must.filter (· ≠ b)
           victim := if x.victim = some b then none else x.victim
           moving := if x.victim = some b then none else x.moving
           moved := if x.victim = some b then [] else x.moved }

/-- A block's failure as it is counted: in its `FLM_ERR` field and in the present window (R246). -/
def countRetired (cause : Nat) (s : State) : State :=
  modFlm (fun m => { m with window := if cause = 0 then (m.window.1 + 1, m.window.2) else (m.window.1, m.window.2 + 1) })
    (bumpSat (if cause = 0 then satFlmProgFail else satFlmEraseFail) s)

/-- A block out of use, with its summary pages given up. -/
def voidBlock (d b : Nat) (s : State) : State := dropSummaries d b (modBlk d b (fun k => { k with st := 4, pages := [] }) s)

/-- A block retired, counted and entered in the list. -/
def retired (d b cause : Nat) (s : State) : State :=
  modDie d (fun x => x.without b) (noteRetired d b cause (countRetired cause (voidBlock d b s)))

/-- Above one eighth of a die's blocks, the die is fenced with the block. -/
theorem retire_eq (d b cause : Nat) (s : State) : retire d b cause s
    = if (retired d b cause s).flm.blocksPerDie < 8 * countIf ((retired d b cause s).die d).blk (fun p => p.2.st = 4)
      then fenceFlashDie d 1 (retired d b cause s) else flmHealth (retired d b cause s) := rfl

theorem countRetired_keeps (cause : Nat) (s : State) : (countRetired cause s).flm.dies = s.flm.dies
    ∧ (countRetired cause s).flm.map = s.flm.map ∧ (countRetired cause s).flm.retired = s.flm.retired := by
  have flm : ∀ f, (bumpSat f s).flm = s.flm := fun f => by rw [bumpSat_apart f s]
  unfold countRetired
  rw [modFlm, flm]
  exact ⟨rfl, rfl, rfl⟩

theorem die_dropSummaries (d b e : Nat) (s : State) : (dropSummaries d b s).die e = s.die e := rfl
theorem die_noteRetired (d b cause e : Nat) (s : State) : (noteRetired d b cause s).die e = s.die e := rfl
theorem noteRetired_sat (d b cause : Nat) (s : State) : (noteRetired d b cause s).sat = s.sat := rfl
theorem countRetired_sat (s : State) : (countRetired 0 s).sat = (bumpSat satFlmProgFail s).sat := rfl
theorem voidBlock_sat (d b : Nat) (s : State) : (voidBlock d b s).sat = s.sat := rfl

theorem voidBlock_block (d b : Nat) (s : State) : (((voidBlock d b s).die d).block b).st = 4 := by
  rw [voidBlock, die_dropSummaries, modBlk, die_modDie_self, block_setBlk_self]

theorem retired_spec (d b cause : Nat) {s : State} (hroom : s.flm.retired.length < 2 ^ 19) {u : State}
    (hu : u = retired d b cause s) :
    ((u.die d).block b).st = 4 ∧ u.flm.retired = s.flm.retired ++ [retiredEntry d b cause] ∧ u.flm.map = s.flm.map
      ∧ (cause = 0 → u.satVal satFlmProgFail = satAdd 16 (s.satVal satFlmProgFail) 1) := by
  obtain ⟨dies, map, list⟩ := countRetired_keeps cause (voidBlock d b s)
  have die : u.die d = ((countRetired cause (voidBlock d b s)).die d).without b := by
    rw [hu, retired, die_modDie_self, die_noteRetired]
  have noted : u = modDie d (fun x => x.without b) (modFlm (fun m => { m with retired := m.retired ++ [retiredEntry d b cause] })
      (countRetired cause (voidBlock d b s))) := by
    rw [hu, retired, noteRetired_of_room (by rw [list]; exact hroom)]
  refine ⟨?_, ?_, ?_, fun h0 => ?_⟩
  · rw [die, die_of_dies dies]
    exact voidBlock_block d b s
  · rw [noted]
    exact congrArg (· ++ [retiredEntry d b cause]) list
  · rw [noted]
    exact map
  · have sat : u.sat = (bumpSat satFlmProgFail (voidBlock d b s)).sat := by
      rw [hu, h0, retired, modDie, modFlm_sat, noteRetired_sat, countRetired_sat]
    rw [satVal_of_sat sat, satVal_bumpSat, satVal_of_sat (voidBlock_sat ..)]
    rfl

/-- A retired block is empty of use, in the list, and counted; the map keeps its units. -/
theorem retire_spec (d b cause : Nat) {s : State} (hroom : s.flm.retired.length < 2 ^ 19) {u : State}
    (hu : u = retire d b cause s) :
    ((u.die d).block b).st = 4 ∧ (∃ l, u.flm.retired = s.flm.retired ++ retiredEntry d b cause :: l)
      ∧ u.flm.map.map (·.1) = s.flm.map.map (·.1)
      ∧ (cause = 0 → u.satVal satFlmProgFail = satAdd 16 (s.satVal satFlmProgFail) 1) := by
  obtain ⟨st, list, map, sat⟩ := retired_spec d b cause hroom rfl
  rw [hu, retire_eq]
  split
  · obtain ⟨blocks, sat', keys, l, list'⟩ := fenceFlashDie_keeps d 1 (retired d b cause s)
    exact ⟨by rw [blocks]; exact st, ⟨l, by rw [list', list, List.append_assoc]; rfl⟩, by rw [keys, map],
      fun h0 => (satVal_of_sat sat' _).trans (sat h0)⟩
  · exact ⟨by rw [flmHealth_die]; exact st, ⟨[], by rw [flmHealth_retired, list]⟩, by rw [flmHealth_map, map],
      fun h0 => (satVal_of_sat (flmHealth_sat _) _).trans (sat h0)⟩

/-! ## A program fails (R235) -/

/-- A block whose valid pages are to move before it is retired. -/
def emptyLater (d b : Nat) (s : State) : State :=
  modDie d (fun x => { x with must := if x.must.contains b then x.must else x.must ++ [b] })
    (dropSummaries d b (modBlk d b (fun k => { k with st := 3 }) s))

theorem retireWhenEmpty_eq (d b : Nat) (s : State) : retireWhenEmpty d b s
    = if (s.validPages d b).isEmpty then retire d b 0 s else emptyLater d b s := rfl

theorem emptyLater_spec (d b : Nat) (s : State) : ((emptyLater d b s).die d).block b = { (s.die d).block b with st := 3 }
    ∧ b ∈ ((emptyLater d b s).die d).must ∧ (∀ host, ((emptyLater d b s).die d).openFor host = (s.die d).openFor host) := by
  have die : (emptyLater d b s).die d = { (s.die d).setBlk b { (s.die d).block b with st := 3 } with
      must := if (s.die d).must.contains b then (s.die d).must else (s.die d).must ++ [b] } := by
    rw [emptyLater, die_modDie_self, die_dropSummaries, modBlk, die_modDie_self]
    rfl
  rw [die]
  refine ⟨block_setBlk_self .., ?_, fun _ => rfl⟩
  dsimp only
  split
  next h => exact List.contains_iff_mem.mp h
  next => simp

/-- The state in which a failed program's block is dealt with: its stream has no open block where the program was one
of the stream's. -/
def failing (d : Nat) (host : Bool) (s : State) : State :=
  if ((s.progOn d host).bind (·.block)).isSome then s else shutBlock d host s

theorem shutBlock_keepsBlocks (host : Bool) : KeepsBlocks (fun x => { x with
    hostOpen := if host then none else x.hostOpen, gcOpen := if host then x.gcOpen else none }) :=
  fun _ => ⟨rfl, rfl, rfl, rfl⟩

theorem failing_keeps (d : Nat) (host : Bool) (s : State) :
    (∀ b, (failing d host s).validPages d b = s.validPages d b)
      ∧ (∀ b, ((failing d host s).die d).block b = (s.die d).block b)
      ∧ failing d host s = { s with flm := { s.flm with dies := (failing d host s).flm.dies } }
      ∧ ((s.progOn d host).bind (·.block) = none → ((failing d host s).die d).openFor host = none) := by
  unfold failing
  split
  next h => exact ⟨fun _ => rfl, fun _ => rfl, rfl, fun hn => by rw [hn] at h; cases h⟩
  next h =>
    refine ⟨fun b => validPages_modDie (shutBlock_keepsBlocks host) d d b s, fun b => ?_, rfl, fun _ => ?_⟩
    · rw [shutBlock, die_modDie_self]; rfl
    · rw [shutBlock, die_modDie_self]; cases host <;> rfl

section
variable {s : State} {d b : Nat} {host : Bool}

/-- A failed program's block is its own where it has one, else its stream's open one. -/
theorem programFailed_of_block (h : ((s.progOn d host).bind (·.block)).or ((s.die d).openFor host) = some b) :
    programFailed d host s = retireWhenEmpty d b (failing d host s) := by
  have stream : ((s.progOn d host).bind (·.block)) = none → (match openBlock d host s with
      | none => s
      | some (b, s) => retireWhenEmpty d b (shutBlock d host s)) = retireWhenEmpty d b (failing d host s) := fun hn => by
    rw [hn, Option.none_or] at h
    rw [openBlock_of_open h, failing, hn]
    rfl
  rw [programFailed]
  cases hp : s.progOn d host with
  | none => exact stream (by rw [hp]; rfl)
  | some p =>
    obtain ⟨die, host', page, block, write, disc, deadline⟩ := p
    cases block with
    | none => exact stream (by rw [hp]; rfl)
    | some c =>
      rw [hp] at h
      cases h
      rw [failing, hp]
      rfl

variable (h : ((s.progOn d host).bind (·.block)).or ((s.die d).openFor host) = some b)
include h

/-- A block with no valid page is retired at once. -/
theorem programFailed_retires (hv : s.validPages d b = []) (hroom : s.flm.retired.length < 2 ^ 19) {u : State}
    (hu : u = programFailed d host s) :
    ((u.die d).block b).st = 4 ∧ (∃ l, u.flm.retired = s.flm.retired ++ retiredEntry d b 0 :: l)
      ∧ u.satVal satFlmProgFail = satAdd 16 (s.satVal satFlmProgFail) 1 ∧ u.flm.map.map (·.1) = s.flm.map.map (·.1) := by
  obtain ⟨valid, -, frame, -⟩ := failing_keeps d host s
  have list : (failing d host s).flm.retired = s.flm.retired := by rw [frame]
  have map : (failing d host s).flm.map = s.flm.map := by rw [frame]
  have sat : (failing d host s).sat = s.sat := by rw [frame]
  rw [programFailed_of_block h, retireWhenEmpty_eq, valid, hv, if_pos List.isEmpty_nil] at hu
  obtain ⟨st, listed, keys, counted⟩ := retire_spec d b 0 (by rw [list]; exact hroom) hu
  rw [list] at listed
  rw [map] at keys
  exact ⟨st, listed, by rw [counted rfl, satVal_of_sat sat], keys⟩

/-- A block with valid pages waits to be emptied; its summary pages are given up. -/
theorem programFailed_waits (hv : s.validPages d b ≠ []) {u : State} (hu : u = programFailed d host s) :
    ((u.die d).block b).st = 3 ∧ ((u.die d).block b).pages = ((s.die d).block b).pages ∧ b ∈ (u.die d).must
      ∧ ((s.progOn d host).bind (·.block) = none → (u.die d).openFor host = none)
      ∧ u.flm.progs = s.flm.progs.filter (fun q => !(q.die = d && q.block = some b))
      ∧ u.flm.map = s.flm.map ∧ u.flm.retired = s.flm.retired ∧ u = { s with flm := u.flm } := by
  obtain ⟨valid, blocks, frame, shut⟩ := failing_keeps d host s
  have hne : (s.validPages d b).isEmpty ≠ true := by simpa using hv
  rw [programFailed_of_block h, retireWhenEmpty_eq, valid, if_neg hne] at hu
  obtain ⟨block, must, streams⟩ := emptyLater_spec d b (failing d host s)
  have rest : u = { s with flm := u.flm } := by rw [hu, emptyLater, frame]; rfl
  rw [blocks] at block
  refine ⟨by rw [hu, block], by rw [hu, block], by rw [hu]; exact must, fun hn => by rw [hu, streams]; exact shut hn,
    ?_, ?_, ?_, rest⟩ <;> rw [hu, emptyLater, frame] <;> rfl

end

/-! ## Operations that time out (R238) -/

theorem flashTimeout_of_idle {s : State} {d : Nat} (h : s.dieDeadlines d = []) : flashTimeout d s = s := by
  rw [flashTimeout, h]

/-- The earliest deadline of a die's operations, once its cycle has passed, fences the die. -/
theorem flashTimeout_of_due {s : State} {d t : Nat} {l : List Nat} (h : s.dieDeadlines d = t :: l) :
    flashTimeout d s = fenceFlashDie d 0 (carry (l.foldl min t + sclk 1) s) := by
  rw [flashTimeout, h]; rfl

theorem flashTimeout_spec {s : State} {d t : Nat} {l : List Nat} (h : s.dieDeadlines d = t :: l)
    (hd : ahas s.flm.dies d = true) (hx : (s.die d).fenced = false) (hroom : s.flm.retired.length < 2 ^ 19) {u : State}
    (hu : u = flashTimeout d s) :
    u.now = max s.now (l.foldl min t + sclk 1) ∧ (u.die d).fenced = true
      ∧ u.flm.retired = s.flm.retired ++ [retiredEntry d 0xFFFFF 0] ∧ ∀ l, u.entry l = (s.entry l).lostOn d := by
  obtain ⟨x, found⟩ := Option.isSome_iff_exists.mp hd
  rw [die_of_find found] at hx
  have flm := carry_flm (l.foldl min t + sclk 1) s
  have map : ∀ l', (carry (l.foldl min t + sclk 1) s).entry l' = s.entry l' := entry_of_map (by rw [flm])
  obtain ⟨now, -, fenced, list, entries⟩ := fenceFlashDie_spec (s := carry (l.foldl min t + sclk 1) s)
    (by rw [flm]; exact found) hx 0 (by rw [flm]; exact hroom) (hu.trans (flashTimeout_of_due h))
  rw [flm] at list
  exact ⟨now.trans (carry_now ..), fenced, list, fun l' => by rw [entries, map]⟩

end Sys2Proof.Machine
end

section
namespace Sys2Proof.Machine

/-! ## Frames are written, programs pass and fail, units are read -/

theorem programFailure_completes {d : Nat} (hd : d < 1024) (host : Bool) (s : State) : Completes (.programFailure d host) s
    (if (s.progOn d host).isSome || (!host && (s.die d).moving.isSome) then programFailed d host s else s) :=
  run_ok (decide_eq_true hd) rfl

theorem flashOpTimeout_completes {d : Nat} (hd : d < 1024) (s : State) : Completes (.flashOpTimeout d) s (flashTimeout d s) :=
  run_ok (decide_eq_true hd) rfl

/-- Settles O37: a frame write by the programs it starts, a program by the place its page takes and what that brings, a
failure by whether its block still holds valid pages, a read by the grains it reports, a timeout by the die it fences. -/
theorem flashPrograms : Obligations.FlashPrograms := by
  intro s d host hd
  refine ⟨fun f g data poison hf hg => ⟨fun st h hr => ?_, fun hr hin hfree => ?_⟩, fun hp => ?_,
    fun p hp hw hs => ⟨fun b k hb ho hk => ⟨fun hroom => ?_, fun hfull => ?_, fun hkind hn => ?_, fun hkind => ?_⟩,
      fun b hb => ?_⟩, fun hp hmove => ?_, fun b hany hb => ?_, fun lua g retries failing x stored hl hg => ⟨fun h => ?_,
      fun hst hheld hpun hx hstored => ?_⟩, fun h => ?_, fun t l h hdie hx hroom => ?_⟩
  · have completes := flashFrameWrite_completes hf hg data poison s
    rwa [flashWrite_of_refused hr] at completes
  · obtain ⟨apart, seq, progs⟩ := flashWrite_spec hr hin hfree data poison rfl
    refine effect_of (flashFrameWrite_completes hf hg data poison s) ⟨?_, apart.map, ?_, ?_, seq, _, progs, rfl, rfl, rfl,
      rfl, rfl, rfl, List.forall_mem_map.mpr fun k _ => ⟨rfl, rfl, rfl, rfl, rfl⟩⟩
    all_goals rw [apart]; rfl
  · have completes := pageProgramDone_completes hd host s
    rwa [programDone_of_none hp] at completes
  · subst hk
    obtain ⟨dies, progs, seq⟩ := programDone_block hp hw hs hb ho rfl
    rw [placed_of_room hroom] at dies progs seq
    refine effect_of (pageProgramDone_completes hd host s) ⟨?_, fun e he => (dies e).trans (putPage_die_ne b _ s he),
      by rw [progs, putPage_progs], by rw [seq, putPage_seq]⟩
    rw [dies, putPage_die, block_setBlk_self, FlmBlk.put]
  · subst hk
    obtain ⟨progs, seq, shut⟩ := programDone_full hp hw hs hb ho hfull rfl
    obtain ⟨length, each⟩ := summaryProgs_spec d b host (putPage d b p.page s)
    exact effect_of (pageProgramDone_completes hd host s) ⟨_, progs,
      length.trans (PutApart.putPage d b p.page s).summaries, seq, each, shut⟩
  · subst hk
    have done := programDone_of_stream hp hw hs hb ho
    have before := PutApart.placed d b host p.page s
    have map : (dropProg p (placed d b host p.page s)).flm.map = s.flm.map := before.map
    have writes : (nameCopy p.page.lua (d, b, ((s.die d).block b).pages.length)
        (dropProg p (placed d b host p.page s))).flm.writes = s.flm.writes := before.writes
    refine effect_of (pageProgramDone_completes hd host s) ?_
    rw [done, flmHealth_writes, flmHealth_out, flmHealth_entry]
    refine ⟨?_, fun l hl => ?_, ?_, fun w hmem hid hleft hmove => ?_⟩
    · rw [entry_takeEffect_unit hkind, entry_of_map map]
    · rw [flmHealth_entry, entry_takeEffect_other hkind _ hl, entry_of_map map]
    · rw [takeEffect, if_neg hkind]
      exact noteUnit_writes (by rw [writes]; exact hn)
    · rw [takeEffect, if_neg hkind]
      rw [← writes] at hn hmem
      exact noteUnit_out hn hmem hid hleft hmove
  · subst hk
    have map : (dropProg p (placed d b host p.page s)).flm.map = s.flm.map := (PutApart.placed d b host p.page s).map
    have entries : ∀ l, (programDone d host s).entry l
        = (dropProg p (placed d b host p.page s)).trimmed p.page l (s.entry l) := fun l => by
      rw [programDone_of_stream hp hw hs hb ho, flmHealth_entry, takeEffect, if_pos hkind, entry_unmap,
        entry_of_map map]
    refine effect_of (pageProgramDone_completes hd host s) ⟨fun l q hcov hq hold => ?_, fun l hcov => ?_⟩
    · have stands : (dropProg p (placed d b host p.page s)).unitPage l = some q := unitPage_placed hq d b host p.page
      rw [entries, State.trimmed, if_pos hcov, stands]
      dsimp only
      rw [if_neg (by omega)]
      exact ⟨rfl, rfl⟩
    · rw [entries, State.trimmed, hcov, if_neg Bool.false_ne_true]
  · have put := PutApart.putPage d b p.page (dropProg p s)
    obtain ⟨block, progs, map⟩ := closeBlock_spec d b (putPage d b p.page (dropProg p s))
    rw [putPage_die, block_setBlk_self, putPage_progs] at block
    refine effect_of (pageProgramDone_completes hd host s) ?_
    rw [programDone_of_summary hp hw hs hb, flmHealth_die, flmHealth_progs, flmHealth_map, block, progs, map, put.map,
      putPage_progs]
    exact ⟨rfl, rfl, rfl, rfl⟩
  · have completes := programFailure_completes hd host s
    rcases hmove with rfl | hmove
    · rwa [hp] at completes
    · rwa [hp, hmove, Option.isSome_none, Bool.and_false, Bool.or_false, if_neg Bool.false_ne_true] at completes
  · have completes := programFailure_completes hd host s
    have armed : ((s.progOn d host).isSome || (!host && (s.die d).moving.isSome)) = true := by
      rcases hany with h | ⟨rfl, h⟩ <;> simp [h]
    rw [if_pos armed] at completes
    exact ⟨fun hv hroom => effect_of completes (programFailed_retires hb hv hroom rfl),
      fun hv => effect_of completes (programFailed_waits hb hv rfl)⟩
  · have completes := flashRead_completes hl hg retries failing s
    rwa [flashRead_of_unserved g retries failing h] at completes
  · obtain ⟨flm, mem, failed, retried, poisoned⟩ := flashRead_spec g retries failing hst hheld hpun hx rfl
    have listed : ∀ k, k ∈ (x.1 ++ s.storedPoison lua).eraseDups ↔ k ∈ x.1 ++ stored := fun k => by
      rw [List.mem_eraseDups, hstored]; rfl
    refine effect_of (flashRead_completes hl hg retries failing s) ⟨flm, mem, failed, retried, fun k hk => ?_,
      fun id n hout => ?_⟩
    · rw [poisoned, Bool.or_eq_true_iff]
      refine .inr ?_
      rw [decide_eq_true rfl, Bool.true_and, List.any_eq_true]
      exact ⟨k, (listed k).mpr hk, decide_eq_true rfl⟩
    · rw [poisoned]
      rcases hout with hid | hn
      · rw [decide_eq_false hid, Bool.false_and, Bool.or_false]
      · have others : (x.1 ++ s.storedPoison lua).eraseDups.any (fun k => decide (n = 64 * (lua % 4) + k)) = false :=
          List.any_eq_false.mpr fun k hk => by simpa using hn k ((listed k).mp hk)
        rw [others, Bool.and_false, Bool.or_false]
  · have completes := flashOpTimeout_completes hd s
    rwa [flashTimeout_of_idle h] at completes
  · obtain ⟨now, fenced, list, entries⟩ := flashTimeout_spec h hdie hx hroom rfl
    exact effect_of (flashOpTimeout_completes hd s) ⟨now, fenced, list,
      fun l b i hp => by rw [entries]; exact lostOn_of_there hp,
      fun l e b i hp he => by rw [entries]; exact lostOn_of_elsewhere hp he⟩

end Sys2Proof.Machine
end

section
namespace Sys2Proof.Machine

/-! ## The page in hand (R233) -/

/-- A die with the first valid page of its victim `b` that has not moved in hand. -/
def State.withNextPage (s : State) (d b : Nat) (x : FlmDie) : FlmDie :=
  { x with moving := ((s.validPages d b).find? (fun q => !x.moved.contains q.1)).map (·.1), opDeadline := s.opDeadline }

theorem nextMove_of_none {s : State} {d : Nat} (h : (s.die d).victim = none) : nextMove d s = s := by rw [nextMove, h]

theorem nextMove_of_victim {s : State} {d b : Nat} (h : (s.die d).victim = some b) :
    nextMove d s = modDie d (s.withNextPage d b) s := by
  rw [nextMove, h]
  rfl

theorem nextMove_die_ne {d e : Nat} (s : State) (h : e ≠ d) : (nextMove d s).die e = s.die e := by
  unfold nextMove
  split
  · rfl
  · exact die_modDie_ne _ _ h

theorem nextMove_apart (d : Nat) (s : State) :
    nextMove d s = { s with flm := { s.flm with dies := (nextMove d s).flm.dies } } := by
  unfold nextMove; split <;> rfl

/-- Taking a page in hand leaves a die's blocks and the pages moved so far. -/
theorem nextMove_keeps (d : Nat) (s : State) :
    (∀ b, ((nextMove d s).die d).block b = (s.die d).block b) ∧ ((nextMove d s).die d).moved = (s.die d).moved := by
  unfold nextMove
  split
  · exact ⟨fun _ => rfl, rfl⟩
  · rw [die_modDie_self]
    exact ⟨fun _ => rfl, rfl⟩

theorem nextMove_map (d : Nat) (s : State) : (nextMove d s).flm.map = s.flm.map := by rw [nextMove_apart]
theorem nextMove_tie (d : Nat) (s : State) : (nextMove d s).tie = s.tie := by rw [nextMove_apart]

/-! ## The choice of a victim (R232) -/

/-- A die that has chosen, or has none to choose. -/
def FlmDie.selecting (x : FlmDie) (on : Bool) (v : Option Nat) : FlmDie :=
  { x with collecting := on, victim := v, moving := none, moved := [] }

theorem gcSelect_of_busy {s : State} {d : Nat} (h : (s.die d).victim ≠ none ∨ (s.die d).fenced = true ∨ ahas s.flm.dies d = false) :
    gcSelect d s = s := by
  rw [gcSelect]
  cases hd : afind s.flm.dies d with
  | none => rfl
  | some x =>
    rw [die_of_find hd] at h
    refine if_pos ?_
    rcases h with h | h | h
    · simp [Option.isSome_iff_ne_none.mpr h]
    · simp [h]
    · rw [ahas, hd] at h; cases h

section
variable {s : State} {d : Nat} {x : FlmDie} (hd : afind s.flm.dies d = some x) (hx : x.fenced = false)
  (hv : x.victim = none) {on : Bool}
  (hon : on = (decide (s.freeBlocks d < s.nodeParam 0x0211) || (x.collecting && decide (s.freeBlocks d < s.nodeParam 0x0212))))
include hd hx hv hon

theorem gcSelect_of_die : gcSelect d s = nextMove d (modDie d (fun y => y.selecting on (s.pickVictim d on)) s) := by
  rw [gcSelect, hd]
  dsimp only
  rw [hx, hv, if_neg (by decide), ← hon]
  rfl

/-- A die that chooses holds its victim and the victim's first valid page. -/
theorem gcSelect_spec {v : Option Nat} (hpick : v = s.pickVictim d on) {u : State} (hu : u = gcSelect d s) :
    u = { s with flm := u.flm } ∧ (∀ e, e ≠ d → u.die e = s.die e)
      ∧ u.die d = { x with collecting := on, victim := v, moved := []
                           moving := v.bind (fun b => (s.validPages d b).head?.map (·.1))
                           opDeadline := if v.isSome then s.now + sclk (2 ^ 24) else x.opDeadline } := by
  subst hpick
  rw [gcSelect_of_die hd hx hv hon] at hu
  refine ⟨?_, fun e he => ?_, ?_⟩
  · rw [hu, nextMove_apart]; rfl
  · rw [hu, nextMove_die_ne _ he, die_modDie_ne _ _ he]
  · have keeps : KeepsBlocks (fun y => y.selecting on (s.pickVictim d on)) := fun _ => ⟨rfl, rfl, rfl, rfl⟩
    have selected := die_modDie_self d (fun y => y.selecting on (s.pickVictim d on)) s
    rw [die_of_find hd] at selected
    have victim := congrArg FlmDie.victim selected
    cases hpick : s.pickVictim d on with
    | none => rw [hu, nextMove_of_none (victim.trans hpick), selected, hpick]; rfl
    | some b =>
      have first : ∀ l : List (Nat × FlmPage), l.find? (fun q => !([] : List Nat).contains q.1) = l.head? := fun l => by
        cases l <;> simp
      rw [hu, nextMove_of_victim (victim.trans hpick), die_modDie_self, selected, State.withNextPage,
        validPages_modDie keeps, hpick, FlmDie.selecting]
      dsimp only
      rw [first]
      rfl

end

/-! ## A page moves (R233) -/

/-- Grains of a page that fail at every read whatever the media do. -/
def FlmPage.failingGrains (p : FlmPage) : List Nat :=
  if p.readOk p.lua p.saggar then (List.range 64).filter (fun k => !p.grainCrcOk k) else List.range 64

/-- A page as collection copies it, with the grains of it that fail poisoned. -/
def State.copyOf (s : State) (p : FlmPage) (bad : List Nat) : FlmPage :=
  { p with gcCopy := true, poison := (p.poison ++ bad).eraseDups, seq := s.flm.seq }

/-- A read is counted, and the copy of what it read takes a sequence number. -/
def readForMove (r : List Nat × Nat) (s : State) : State :=
  modFlm (fun m => { m with seq := m.seq + 1 }) (bumpSatN satFlmReadFail r.1.length (bumpSatN satFlmRetried r.2 s))

/-- The map names a copy where it still named its source. -/
def repoint (lua : Nat) (src dst : Nat × Nat × Nat) (s : State) : State :=
  if (s.entry lua).pun = some src then setEntry lua { s.entry lua with pun := some dst } s else s

/-- A page of the victim has passed step 4 of R233. -/
def noteMoved (d i : Nat) (s : State) : State := modDie d (fun y => { y with moved := y.moved ++ [i] }) s

theorem readForMove_keeps (r : List Nat × Nat) (s : State) :
    (readForMove r s).flm = { s.flm with seq := s.flm.seq + 1 } ∧ (readForMove r s).tie = s.tie := by
  have flm := (bumpSatN_flm satFlmReadFail r.1.length (bumpSatN satFlmRetried r.2 s)).trans (bumpSatN_flm satFlmRetried r.2 s)
  have tie := (bumpSatN_tie satFlmReadFail r.1.length (bumpSatN satFlmRetried r.2 s)).trans (bumpSatN_tie satFlmRetried r.2 s)
  unfold readForMove
  rw [modFlm, flm]
  exact ⟨rfl, tie⟩

theorem repoint_apart (lua : Nat) (src dst : Nat × Nat × Nat) (s : State) :
    repoint lua src dst s = { s with flm := { s.flm with map := (repoint lua src dst s).flm.map } } := by
  unfold repoint; split <;> rfl

theorem repoint_tie (lua : Nat) (src dst : Nat × Nat × Nat) (s : State) : (repoint lua src dst s).tie = s.tie := by
  rw [repoint_apart]

theorem die_repoint (lua : Nat) (src dst : Nat × Nat × Nat) (s : State) (e : Nat) : (repoint lua src dst s).die e = s.die e :=
  die_of_dies (by rw [repoint_apart]) e

theorem entry_repoint_self (lua : Nat) (src dst : Nat × Nat × Nat) (s : State) : ((repoint lua src dst s).entry lua).pun
    = if (s.entry lua).pun = some src then some dst else (s.entry lua).pun := by
  unfold repoint
  split
  · exact congrArg FlmEntry.pun (aget_aset_self ..)
  · rfl

theorem entry_repoint_ne {lua l : Nat} (src dst : Nat × Nat × Nat) (s : State) (h : l ≠ lua) :
    (repoint lua src dst s).entry l = s.entry l := by
  unfold repoint
  split
  · exact aget_aset_ne _ _ _ h.symm
  · rfl

theorem gcMove_of_idle {s : State} {d : Nat} (h : (s.die d).victim = none ∨ (s.die d).moving = none)
    (attempts : List (List Nat)) (ok : Bool) : gcMove d attempts ok s = s := by
  rw [gcMove]
  split
  next hv hm => rcases h with h | h <;> simp_all
  · rfl

theorem gcMove_of_unverified {s : State} {d b i : Nat} (hv : (s.die d).victim = some b) (hm : (s.die d).moving = some i)
    (attempts : List (List Nat)) : gcMove d attempts false s = programFailed d false s := by
  rw [gcMove]
  dsimp only
  rw [hv, hm]
  rfl

section
variable {s : State} {d b i c : Nat} {p : FlmPage} {r : List Nat × Nat} (hv : (s.die d).victim = some b)
  (hm : (s.die d).moving = some i) (hp : p = ((s.die d).block b).pages.getD i {}) (hk : p.kind = 1)
  {attempts : List (List Nat)} (hr : r = s.readUnit p.failingGrains attempts) (ho : (s.die d).gcOpen = some c)
  (hroom : ((s.die d).block c).pages.length + 1 < s.flm.dataPages)
include hv hm hp hk hr ho hroom

theorem gcMove_of_unit : gcMove d attempts true s = flmHealth (nextMove d (noteMoved d i
    (repoint p.lua (d, b, i) (d, c, ((s.die d).block c).pages.length)
      (putPage d c (s.copyOf p r.1) (readForMove r s))))) := by
  obtain ⟨flm, -⟩ := readForMove_keeps r s
  have die : (readForMove r s).die d = s.die d := die_of_dies (by rw [flm]) d
  have pages : (readForMove r s).flm.dataPages = s.flm.dataPages := by rw [flm]; rfl
  have seq := (bumpSatN_flm satFlmReadFail r.1.length (bumpSatN satFlmRetried r.2 s)).trans (bumpSatN_flm satFlmRetried r.2 s)
  have copied : placePage d false { p with
      gcCopy := true, poison := (p.poison ++ r.1).eraseDups
      seq := (bumpSatN satFlmReadFail r.1.length (bumpSatN satFlmRetried r.2 s)).flm.seq } (readForMove r s)
      = some ((d, c, ((s.die d).block c).pages.length), putPage d c (s.copyOf p r.1) (readForMove r s)) := by
    have placed := placePage_of_open (s := readForMove r s) (d := d) (b := c) (host := false) (by rw [die]; exact ho)
      (s.copyOf p r.1)
    rw [placed_of_room (by rw [die, pages]; exact hroom), die] at placed
    rw [seq]
    exact placed
  rw [gcMove]
  dsimp only
  rw [hv, hm]
  dsimp only
  rw [← hp, if_neg (by decide), if_pos hk, ← FlmPage.failingGrains, ← hr, ← readForMove, copied, hk]
  dsimp only
  rw [decide_eq_true rfl, Bool.true_and]
  simp only [decide_eq_true_eq]
  rw [← repoint, ← noteMoved]

/-- A page moved stands in the GC block, and the map names the copy where it still named the source. -/
theorem gcMove_spec (hcb : c ≠ b) {u : State} (hu : u = gcMove d attempts true s) :
    (u.entry p.lua).pun = (if (s.entry p.lua).pun = some (d, b, i) then some (d, c, ((s.die d).block c).pages.length)
        else (s.entry p.lua).pun)
      ∧ (∀ k, k ≠ p.lua → u.entry k = s.entry k)
      ∧ ((u.die d).block c).pages = ((s.die d).block c).pages
          ++ [{ s.copyOf p r.1 with eraseCount := ((s.die d).block c).erases }]
      ∧ (u.die d).moved = (s.die d).moved ++ [i]
      ∧ (u.die d).block b = (s.die d).block b ∧ (∀ e, e ≠ d → u.die e = s.die e) ∧ u.tie = s.tie := by
  obtain ⟨flm, tie⟩ := readForMove_keeps r s
  have before : ∀ e, (readForMove r s).die e = s.die e := fun e => die_of_dies (by rw [flm]) e
  have put := PutApart.putPage d c (s.copyOf p r.1) (readForMove r s)
  have map : (putPage d c (s.copyOf p r.1) (readForMove r s)).flm.map = s.flm.map := put.map.trans (by rw [flm])
  obtain ⟨blocks, moved⟩ := nextMove_keeps d (noteMoved d i (repoint p.lua (d, b, i)
    (d, c, ((s.die d).block c).pages.length) (putPage d c (s.copyOf p r.1) (readForMove r s))))
  have marked : ∀ t : State, (∀ e, (noteMoved d i t).die e = if d = e then { t.die d with moved := (t.die d).moved ++ [i] }
      else t.die e) ∧ (∀ l, (noteMoved d i t).entry l = t.entry l) ∧ (noteMoved d i t).tie = t.tie :=
    fun t => ⟨fun e => die_modDie .., fun _ => rfl, rfl⟩
  have die : ∀ x, ({ (s.die d).setBlk c (((s.die d).block c).put (s.copyOf p r.1)) with
      moved := (s.die d).moved ++ [i] } : FlmDie).block x = if c = x then ((s.die d).block c).put (s.copyOf p r.1)
      else (s.die d).block x := fun x => block_setBlk ..
  rw [hu, gcMove_of_unit hv hm hp hk hr ho hroom]
  simp only [flmHealth_die, flmHealth_entry, flmHealth_tie, blocks, moved, nextMove_tie, entry_of_map (nextMove_map ..),
    (marked _).1, (marked _).2.1, (marked _).2.2, repoint_tie, die_repoint, if_true]
  refine ⟨?_, fun k hkey => ?_, ?_, ?_, ?_, fun e he => ?_, put.tie.trans tie⟩
  · rw [entry_repoint_self, entry_of_map map]
  · rw [entry_repoint_ne _ _ _ hkey, entry_of_map map]
  · rw [putPage_die, before]
    exact congrArg FlmBlk.pages ((die c).trans (if_pos rfl))
  · rw [putPage_die, before]
    rfl
  · rw [putPage_die, before]
    exact (die b).trans (if_neg hcb)
  · rw [nextMove_die_ne _ he, (marked _).1, if_neg he.symm, die_repoint, putPage_die_ne _ _ _ he, before]

end

/-! ## The victim is erased or retired (R234 to R236) -/

/-- A die with a block erased: it is free with its count one higher, and on none of the die's lists. -/
def FlmDie.erased (x : FlmDie) (b : Nat) : FlmDie :=
  { x.setBlk b { st := 0, erases := (x.block b).erases + 1 } with
    early := x.early.filter (· ≠ b)
    must := x.must.filter (· ≠ b)
    victim := if x.victim = some b then none else x.victim
    moving := if x.victim = some b then none else x.moving
    moved := if x.victim = some b then [] else x.moved }

theorem eraseBlock_dies (d b : Nat) (s : State) :
    (eraseBlock d b s).flm.dies = (modDie d (fun x => x.erased b) (dropSummaries d b s)).flm.dies := rfl

theorem eraseBlock_die (d b : Nat) (s : State) : (eraseBlock d b s).die d = (s.die d).erased b := by
  rw [die_of_dies (eraseBlock_dies ..), die_modDie_self, die_dropSummaries]

theorem eraseBlock_keeps (d b : Nat) (s : State) : (∀ e, e ≠ d → (eraseBlock d b s).die e = s.die e)
    ∧ (eraseBlock d b s).flm.map = s.flm.map ∧ (eraseBlock d b s).flm.retired = s.flm.retired :=
  ⟨fun e he => by rw [die_of_dies (eraseBlock_dies ..), die_modDie_ne _ _ he, die_dropSummaries], rfl, rfl⟩

theorem eraseFailed_of_busy {s : State} {d b : Nat} (h : s.emptied d b = false) : eraseFailed d b s = s := by
  rw [eraseFailed, h, Bool.and_false, if_neg Bool.false_ne_true]

section
variable {s : State} {d b : Nat} (hv : (s.die d).victim = some b)
include hv

theorem gcErase_of_busy (h : s.emptied d b = false ∨ s.readsOut d b = true) : gcErase d s = s := by
  rw [gcErase, hv]
  refine if_pos ?_
  rcases h with h | h <;> simp [h]

theorem eraseFailed_of_emptied (h : s.emptied d b = true) : eraseFailed d b s = retire d b 1 s := by
  rw [eraseFailed, h, hv, decide_eq_true rfl, Bool.true_and, if_pos rfl]

variable (hempty : s.emptied d b = true) (hreads : s.readsOut d b = false)
include hempty hreads

theorem gcErase_of_failed (h : ((s.die d).block b).st = 3) : gcErase d s = retire d b 0 s := by
  rw [gcErase, hv]
  dsimp only
  rw [hempty, hreads, if_neg (by decide), if_pos h]

theorem gcErase_of_good (h : ((s.die d).block b).st ≠ 3) : gcErase d s = flmHealth (checkpointDue (eraseBlock d b s)) := by
  rw [gcErase, hv]
  dsimp only
  rw [hempty, hreads, if_neg (by decide), if_neg h]

/-- The victim erased is free, one erase more. -/
theorem gcErase_spec (h : ((s.die d).block b).st ≠ 3) {u : State} (hu : u = gcErase d s) :
    (u.die d).block b = { st := 0, pages := [], erases := ((s.die d).block b).erases + 1 } ∧ (u.die d).victim = none
      ∧ b ∉ (u.die d).early ∧ b ∉ (u.die d).must ∧ (∀ e, e ≠ d → u.die e = s.die e) ∧ u.flm.map = s.flm.map
      ∧ u.flm.retired = s.flm.retired := by
  have after := ProgApart.checkpointDue (eraseBlock d b s)
  obtain ⟨others, map, list⟩ := eraseBlock_keeps d b s
  have die : u.die d = (eraseBlock d b s).die d := by
    rw [hu, gcErase_of_good hv hempty hreads h, flmHealth_die, after.die]
  rw [eraseBlock_die] at die
  refine ⟨?_, ?_, ?_, ?_, fun e he => ?_, ?_, ?_⟩
  · rw [die]; exact block_setBlk_self ..
  · rw [die]; exact if_pos hv
  · rw [die]; simp [FlmDie.erased]
  · rw [die]; simp [FlmDie.erased]
  · rw [hu, gcErase_of_good hv hempty hreads h, flmHealth_die, after.die, others e he]
  · rw [hu, gcErase_of_good hv hempty hreads h, flmHealth_map, after.map, map]
  · rw [hu, gcErase_of_good hv hempty hreads h, flmHealth_retired, after.retired, list]

end

end Sys2Proof.Machine
end

section
namespace Sys2Proof.Machine

/-! ## Parts of a byte list made of pieces of one length -/

/-- A part of a part is a part. -/
theorem sub_sub (l : List Byte) {a n b m : Nat} (h : b + m ≤ n) : sub (sub l a n) b m = sub l (a + b) m := by
  simp only [sub, List.drop_take, List.take_take, List.drop_drop, Nat.min_eq_left (Nat.le_sub_of_add_le' h)]

theorem length_flatMap_const {α : Type} (l : List α) {f : α → List Byte} {w : Nat} (h : ∀ a, (f a).length = w) :
    (l.flatMap f).length = w * l.length := by
  induction l with
  | nil => rfl
  | cons a r ih => rw [List.flatMap_cons, List.length_append, h, ih, List.length_cons, Nat.mul_succ, Nat.add_comm]

/-- Of pieces of one length in a row, each is where its number puts it. -/
theorem sub_flatMap_range {n i : Nat} (hi : i < n) {f : Nat → List Byte} {w : Nat} (h : ∀ a, (f a).length = w) :
    sub ((List.range n).flatMap f) (w * i) w = f i := by
  obtain ⟨m, rfl⟩ := Nat.exists_eq_add_of_lt hi
  rw [Nat.add_assoc, List.range_add, List.flatMap_append, sub,
    List.drop_left' ((length_flatMap_const _ h).trans (by rw [List.length_range])), Nat.add_comm m 1, List.range_add,
    List.map_append, List.flatMap_append]
  simp only [List.range_one, List.map_cons, List.map_nil, List.flatMap_cons, List.flatMap_nil, List.append_nil, Nat.add_zero]
  exact List.take_left' (h i)

/-! ## The block-table checkpoint (R237) -/

/-- A page that has nothing of a range has nothing of a part of it. -/
theorem meets_of_part {p : FlmPage} {lua n l m : Nat} (h : p.meets lua n = false) (hl : lua ≤ l) (hm : l + m ≤ lua + n) :
    p.meets l m = false := by
  unfold FlmPage.meets at h ⊢
  rw [List.any_eq_false] at h ⊢
  intro r hr
  have outside := h r hr
  simp only [Bool.and_eq_true, decide_eq_true_eq, not_and, not_lt] at outside ⊢
  omega

/-- The die whose counts stand at place `r` of the checkpoint. -/
def Flm.dieAt (m : Flm) (r : Nat) : Nat := r / (m.targets * m.luns) * 32 + r % (m.targets * m.luns) / m.luns * 4 + r % m.luns

theorem dieAt_rank {m : Flm} {c t n : Nat} (ht : t < m.targets) (hn : n < m.luns) (ht8 : t < 8) (hn4 : n < 4) :
    m.rank (32 * c + 4 * t + n) = c * (m.targets * m.luns) + (t * m.luns + n) ∧ t * m.luns + n < m.targets * m.luns
      ∧ m.dieAt (c * (m.targets * m.luns) + (t * m.luns + n)) = 32 * c + 4 * t + n := by
  have inner : t * m.luns + n < m.targets * m.luns := by
    calc t * m.luns + n < t * m.luns + m.luns := Nat.add_lt_add_left hn _
      _ = (t + 1) * m.luns := (Nat.succ_mul ..).symm
      _ ≤ m.targets * m.luns := Nat.mul_le_mul_right _ ht
  have place : m.rank (32 * c + 4 * t + n) = c * (m.targets * m.luns) + (t * m.luns + n) := by
    rw [Flm.rank, show (32 * c + 4 * t + n) / 32 = c by omega, show (32 * c + 4 * t + n) % 32 / 4 = t by omega,
      show (32 * c + 4 * t + n) % 4 = n by omega, Nat.add_assoc]
  refine ⟨place, inner, ?_⟩
  have channel : (c * (m.targets * m.luns) + (t * m.luns + n)) / (m.targets * m.luns) = c := by
    rw [Nat.add_comm, Nat.add_mul_div_right _ _ (Nat.zero_lt_of_lt inner), Nat.div_eq_of_lt inner, Nat.zero_add]
  have within : (c * (m.targets * m.luns) + (t * m.luns + n)) % (m.targets * m.luns) = t * m.luns + n := by
    rw [Nat.add_comm, Nat.add_mul_mod_self_right, Nat.mod_eq_of_lt inner]
  have target : (t * m.luns + n) / m.luns = t := by
    rw [Nat.add_comm, Nat.add_mul_div_right _ _ (Nat.zero_lt_of_lt hn), Nat.div_eq_of_lt hn, Nat.zero_add]
  have lun : (c * (m.targets * m.luns) + (t * m.luns + n)) % m.luns = n := by
    rw [show c * (m.targets * m.luns) + (t * m.luns + n) = n + (c * m.targets + t) * m.luns by ring,
      Nat.add_mul_mod_self_right, Nat.mod_eq_of_lt hn]
  rw [Flm.dieAt, channel, within, target, lun]
  omega

/-- The checkpoint holds the erase count of every block of the geometry, 3 bytes each. -/
theorem checkpointData_count (s : State) {c t n b : Nat} (hc : c < 32) (ht : t < s.flm.targets) (hn : n < s.flm.luns)
    (ht8 : t < 8) (hn4 : n < 4) (hb : b < s.flm.blocksPerDie) :
    le s.checkpointData (3 * (s.flm.rank (32 * c + 4 * t + n) * s.flm.blocksPerDie + b)) 3
      = ((s.die (32 * c + 4 * t + n)).block b).erases % 2 ^ 24 := by
  obtain ⟨place, inner, die⟩ := dieAt_rank (m := s.flm) (c := c) ht hn ht8 hn4
  have inRange : c * (s.flm.targets * s.flm.luns) + (t * s.flm.luns + n) < 32 * s.flm.targets * s.flm.luns := by
    calc c * (s.flm.targets * s.flm.luns) + (t * s.flm.luns + n)
        < c * (s.flm.targets * s.flm.luns) + s.flm.targets * s.flm.luns := Nat.add_lt_add_left inner _
      _ = (c + 1) * (s.flm.targets * s.flm.luns) := (Nat.succ_mul ..).symm
      _ ≤ 32 * (s.flm.targets * s.flm.luns) := Nat.mul_le_mul_right _ hc
      _ = 32 * s.flm.targets * s.flm.luns := (Nat.mul_assoc ..).symm
  have blocks : ∀ d, ((List.range s.flm.blocksPerDie).flatMap (fun b => natLe ((s.die d).block b).erases 3)).length
      = 3 * s.flm.blocksPerDie := fun d => by
    rw [length_flatMap_const _ (fun b => natLe_length _ 3), List.length_range]
  have count : sub s.checkpointData (3 * (s.flm.rank (32 * c + 4 * t + n) * s.flm.blocksPerDie + b)) 3
      = natLe ((s.die (32 * c + 4 * t + n)).block b).erases 3 := by
    rw [place, show 3 * ((c * (s.flm.targets * s.flm.luns) + (t * s.flm.luns + n)) * s.flm.blocksPerDie + b)
      = 3 * s.flm.blocksPerDie * (c * (s.flm.targets * s.flm.luns) + (t * s.flm.luns + n)) + 3 * b by ring,
      ← sub_sub _ (n := 3 * s.flm.blocksPerDie) (by omega)]
    have ofDie := sub_flatMap_range inRange (f := fun r => (List.range s.flm.blocksPerDie).flatMap
      (fun b => natLe ((s.die (s.flm.dieAt r)).block b).erases 3)) (fun r => blocks _)
    rw [die] at ofDie
    exact (congrArg (fun l => sub l (3 * b) 3) ofDie).trans (sub_flatMap_range hb (fun b => natLe_length _ 3))
  rw [le, count, leNat_natLe, show 256 ^ 3 = 2 ^ 24 by norm_num]

/-- A checkpoint programs its units, and the map does not change before they are on the media. -/
theorem checkpoint_spec {s : State} (hd : s.diesIn ≠ [])
    (hfree : ∀ q ∈ s.flm.progs ++ s.flm.waiting, q.page.meets s.flm.logical 4096 = false) {u : State} (hu : u = checkpoint s) :
    u.flm.erasesAt = s.flm.erases ∧ u.flm.map = s.flm.map
      ∧ u.flm.progs = s.flm.progs ++ (List.range (min 4096 (ceilDiv s.checkpointData.length 16384))).map
          (fun k => s.started (s.checkpointProg k) k) := by
  have apart := ProgApart.overLoop ProgApart.startProg s.checkpointProgs s
  obtain ⟨progs, -⟩ := startUnits (F := s.checkpointProg) (base := s.flm.logical)
    (n := min 4096 (ceilDiv s.checkpointData.length 16384)) hd (fun _ => rfl) (fun _ => rfl)
    (fun q hq k hk => meets_of_part (hfree q hq) (by omega) (by omega))
  rw [hu, checkpoint_eq]
  exact ⟨apart.erases, apart.map, progs⟩

/-! ## Discards (R239, R240) -/

/-- The one trim record of a discard of fewer than 2^32 units. -/
def trimPage (lua units : Nat) (secure : Bool) : FlmPage :=
  { kind := 3, secure := secure, lua := ((cutRange lua units).headD (0, 0)).1, ranges := cutRange lua units
    data := trimData (cutRange lua units) }

theorem cutRange_length (lua units : Nat) : (cutRange lua units).length = ceilDiv units trimUnits := by
  rw [cutRange, List.length_map, List.length_range]

theorem cutRange_zero (lua : Nat) : cutRange lua 0 = [] :=
  List.eq_nil_of_length_eq_zero ((cutRange_length ..).trans (by decide))

theorem trimPages_eq (lua : Nat) {units : Nat} (h : units < 2 ^ 32) (secure : Bool) :
    trimPages lua units secure = if units = 0 then [] else [trimPage lua units secure] := by
  by_cases h0 : units = 0
  · subst h0
    rw [if_pos rfl, trimPages, cutRange_zero]
    rfl
  · have few : (cutRange lua units).length ≤ trimRanges ∧ 0 < (cutRange lua units).length := by
      rw [cutRange_length, ceilDiv, trimUnits, trimRanges]
      omega
    have one : ceilDiv (cutRange lua units).length trimRanges = 1 := by
      rw [ceilDiv, trimRanges] at *
      omega
    have whole : (cutRange lua units).take trimRanges = cutRange lua units := List.take_of_length_le few.1
    rw [if_neg h0, trimPages, one]
    simp only [List.range_one, List.map_cons, List.map_nil, Nat.zero_mul, List.drop_zero, whole]
    rfl

theorem cutRange_within {lua units : Nat} {r : Nat × Nat} (h : r ∈ cutRange lua units) : lua ≤ r.1 ∧ r.1 + r.2 ≤ lua + units := by
  obtain ⟨i, hi, rfl⟩ := List.mem_map.mp h
  rw [List.mem_range, ceilDiv, Nat.lt_iff_add_one_le, Nat.le_div_iff_mul_le (by decide), Nat.succ_mul] at hi
  dsimp only
  have bound : i * trimUnits ≤ units := by
    have : 0 < trimUnits := by decide
    omega
  omega

theorem busy_trimPage {m : Flm} {lua units : Nat} (secure : Bool)
    (h : ∀ q ∈ m.progs ++ m.waiting, q.page.meets lua units = false) : m.busy (trimPage lua units secure) = false := by
  rw [Flm.busy, List.any_eq_false]
  intro q hq
  rw [List.any_eq_true]
  rintro ⟨r, hr, hmeets⟩
  obtain ⟨low, high⟩ := cutRange_within hr
  rw [meets_of_part (h q hq) low high] at hmeets
  cases hmeets

/-- The programs of a discard's trim records. -/
def trimProgs (lua units : Nat) (secure : Bool) (discard : Option Nat) : List FlmProg :=
  (trimPages lua units secure).map (fun p => { page := p, discard := discard })

/-- The trim records of a range no program is about all start, and cover the range. -/
theorem startTrims {s : State} (hd : s.diesIn ≠ []) {lua units : Nat} (hu : units < 2 ^ 32)
    (hfree : ∀ q ∈ s.flm.progs ++ s.flm.waiting, q.page.meets lua units = false) (secure : Bool) (disc : Option Nat) :
    ∃ l, (forEach (trimProgs lua units secure disc) startProg s).flm.progs = s.flm.progs ++ l
      ∧ l.flatMap (·.page.ranges) = cutRange lua units
      ∧ ∀ q ∈ l, q.page.kind = 3 ∧ q.page.secure = secure ∧ q.page.ranges.length ≤ 1023 ∧ q.discard = disc := by
  rw [trimProgs, trimPages_eq lua hu]
  by_cases h0 : units = 0
  · subst h0
    exact ⟨[], (List.append_nil _).symm, (cutRange_zero lua).symm, fun q hq => absurd hq (List.not_mem_nil)⟩
  · rw [if_neg h0]
    have started := startProg_of_free (p := { page := trimPage lua units secure, discard := disc }) hd
      (busy_trimPage secure hfree)
    refine ⟨[s.started { page := trimPage lua units secure, discard := disc } 0], congrArg Flm.progs started,
      List.append_nil _, fun q hq => ?_⟩
    rw [List.mem_singleton.mp hq]
    refine ⟨rfl, rfl, ?_, rfl⟩
    show (cutRange lua units).length ≤ 1023
    rw [cutRange_length, ceilDiv, trimUnits]
    omega

theorem discard_eq (lua units : Nat) (s : State) :
    discard lua units s = flmHealth (forEach (trimProgs lua units false none) startProg s) := by
  rw [trimProgs, forEach_map]
  rfl

/-- The units of a range are held (R240 step 1). -/
def holdUnits (lua units : Nat) (m : Assoc Nat FlmEntry) : Assoc Nat FlmEntry :=
  (List.range units).foldl (fun mp k => amod mp (lua + k) {} (fun (e : FlmEntry) => { e with held := true })) m

theorem aget_holdUnits (lua units : Nat) (m : Assoc Nat FlmEntry) (l : Nat) : aget (holdUnits lua units m) l {}
    = if lua ≤ l ∧ l < lua + units then { aget m l {} with held := true } else aget m l {} := by
  induction units with
  | zero => rw [if_neg (by omega)]; rfl
  | succ n ih =>
    have last : holdUnits lua (n + 1) m
        = amod (holdUnits lua n m) (lua + n) {} (fun e => { e with held := true }) := by
      rw [holdUnits, List.range_succ, List.foldl_append]
      rfl
    rw [last, aget_amod]
    by_cases hl : lua + n = l
    · subst hl
      rw [if_pos rfl, ih, if_neg (by omega), if_pos (by omega)]
    · rw [if_neg hl, ih]
      exact if_congr (by omega) rfl rfl

/-- One secure discard goes on, where what it waits for is done (R240). -/
def secureStep (x : FlmSecure) (s : State) : State :=
  let put (y : FlmSecure) (s : State) : State :=
    modFlm (fun m => { m with secure := m.secure.map (fun z => if z = x then y else z) }) s
  if x.stage = 1 ∧ !(s.flm.progs ++ s.flm.waiting).any (fun q => q.page.meets x.lua x.units) = true then
    forEach (trimPages x.lua x.units true) (fun p s => startProg { page := p, discard := some x.lua } s) (put { x with stage := 2 } s)
  else if x.stage = 2 ∧ !(s.flm.progs ++ s.flm.waiting).any (fun q => q.discard = some x.lua) = true then
    eraseCopies x.lua x.units s.flm.seq (put { x with stage := 3, seq := s.flm.seq } s)
  else s

theorem secureWork_eq (s : State) : secureWork s = forEach s.flm.secure secureStep s := rfl

/-- Discards whose copies are being erased wait. -/
theorem secureSteps_of_erasing {l : List FlmSecure} (h : ∀ x ∈ l, x.stage = 3) (s : State) : forEach l secureStep s = s := by
  induction l with
  | nil => rfl
  | cons x r ih =>
    obtain ⟨hx, hr⟩ := List.forall_mem_cons.mp h
    show forEach r secureStep (secureStep x s) = s
    rw [secureStep, if_neg (by omega), if_neg (by omega)]
    exact ih hr

/-- A discard with no earlier program of its range left programs its trim records. -/
theorem secureStep_of_new {s : State} {lua units : Nat}
    (hfree : ∀ q ∈ s.flm.progs ++ s.flm.waiting, q.page.meets lua units = false) :
    secureStep { lua := lua, units := units } s = forEach (trimProgs lua units true (some lua)) startProg
      (modFlm (fun m => { m with secure := m.secure.map (fun z =>
        if z = { lua := lua, units := units } then { lua := lua, units := units, stage := 2 } else z) }) s) := by
  have clear : (s.flm.progs ++ s.flm.waiting).any (fun q => q.page.meets lua units) = false :=
    List.any_eq_false.mpr fun q hq => by rw [hfree q hq]; decide
  rw [secureStep, trimProgs, forEach_map]
  exact if_pos ⟨rfl, by rw [clear]; rfl⟩

/-- A secure discard that has begun, before any step that waits for programs. -/
def beginSecure (lua units : Nat) (s : State) : State :=
  modFlm (fun m => { m with
    map := holdUnits lua units m.map
    secure := m.secure ++ [{ lua := lua, units := units, stage := 2 }] }) s

/-- A secure discard holds its units and, with no earlier program of them left, programs its trim records. -/
theorem secureDiscard_eq {s : State} {lua units : Nat} (hsecure : ∀ x ∈ s.flm.secure, x.stage = 3)
    (hfree : ∀ q ∈ s.flm.progs ++ s.flm.waiting, q.page.meets lua units = false) :
    secureDiscard lua units s = forEach (trimProgs lua units true (some lua)) startProg (beginSecure lua units s) := by
  have marked : (s.flm.secure ++ [({ lua := lua, units := units } : FlmSecure)]).map (fun z =>
      if z = { lua := lua, units := units } then { lua := lua, units := units, stage := 2 } else z)
      = s.flm.secure ++ [{ lua := lua, units := units, stage := 2 }] := by
    rw [List.map_append, List.map_singleton, if_pos rfl]
    refine congrArg (· ++ _) ((List.map_congr_left fun z hz => if_neg ?_).trans (List.map_id _))
    rintro rfl
    exact absurd (show (1 : Nat) = 3 from hsecure _ hz) (by decide)
  rw [secureDiscard, secureWork_eq]
  show forEach (s.flm.secure ++ [_]) secureStep _ = _
  rw [forEach_append, secureSteps_of_erasing hsecure]
  refine (secureStep_of_new (s := _) ?_).trans ?_
  · exact hfree
  exact congrArg (fun l => forEach (trimProgs lua units true (some lua)) startProg
    (modFlm (fun m => { m with map := holdUnits lua units m.map, secure := l }) s)) marked

/-- Step 5 of R240: the units are held no more, and the discard is answered. -/
def endSecure (x : FlmSecure) (s : State) : State :=
  emit (.flm x.lua x.units .ok 0) (modFlm (fun m => { m with
    secure := m.secure.erase x
    map := m.map.map (fun (e : Nat × FlmEntry) =>
      if x.lua ≤ e.1 ∧ e.1 < x.lua + x.units then (e.1, { e.2 with held := false }) else e) }) s)

theorem entry_endSecure (x : FlmSecure) (s : State) (l : Nat) : (endSecure x s).entry l = { s.entry l with
    held := (s.entry l).held && !(decide (x.lua ≤ l) && decide (l < x.lua + x.units)) } := by
  have table : (endSecure x s).flm.map = s.flm.map.map (fun e => (e.1, { e.2 with
      held := e.2.held && !(decide (x.lua ≤ e.1) && decide (e.1 < x.lua + x.units)) })) :=
    List.map_congr_left fun e _ => by
      split
      next h => simp [h.1, h.2]
      next h =>
        have out : (decide (x.lua ≤ e.1) && decide (e.1 < x.lua + x.units)) = false := by
          rw [Bool.and_eq_false_iff, decide_eq_false_iff_not, decide_eq_false_iff_not]
          omega
        rw [out, Bool.not_false, Bool.and_true]
  rw [State.entry, table]
  exact aget_map_key s.flm.map (f := fun l e => { e with
    held := e.held && !(decide (x.lua ≤ l) && decide (l < x.lua + x.units)) }) rfl

section
variable {s : State} {lua : Nat} {x : FlmSecure} (hx : s.flm.secure.find? (fun x => x.lua = lua && x.stage = 3) = some x)
include hx

theorem lua_of_erasing : x.lua = lua := by
  have found := List.find?_some hx
  simp only [Bool.and_eq_true, decide_eq_true_eq] at found
  exact found.1

theorem secureDone_of_cleared (h : s.copyBlocks lua x.units x.seq = []) : secureDone lua s = endSecure x s := by
  rw [secureDone, hx]
  dsimp only
  rw [lua_of_erasing hx, h, if_neg (by decide), endSecure, lua_of_erasing hx]

theorem secureDone_of_copies (h : s.copyBlocks lua x.units x.seq ≠ []) : secureDone lua s = s := by
  rw [secureDone, hx]
  dsimp only
  rw [lua_of_erasing hx]
  exact if_pos (by simpa using h)

end

end Sys2Proof.Machine
end

section
namespace Sys2Proof.Machine

/-! ## Die fences by CSR (R238, R597) -/

theorem answerCsr_ok_flm (who : Who) (a : Nat) (w : Word32) (s : State) : (answerCsr who a .ok w s).flm = s.flm := by
  rw [answerCsr_ok_frame]; rfl

theorem answerCsr_ok_out (who : Who) (a : Nat) (w : Word32) (s : State) : .csr who a .ok w ∈ (answerCsr who a .ok w s).out := by
  rw [answerCsr_ok_frame]
  simp

/-- A die taken back into service: its blocks are erased and free, retired ones stay. -/
def FlmDie.returned (x : FlmDie) : FlmDie :=
  { base := x.base, again := x.again, blk := x.blk.map (fun p => (p.1, if p.2.st = 4 then p.2 else
      { st := 0, erases := p.2.erases + b2n (!p.2.pages.isEmpty), again := p.2.again && p.2.pages.isEmpty })) }

theorem returned_free (x : FlmDie) : ∀ y ∈ x.returned.blk, y.2.st = 4 ∨ (y.2.st = 0 ∧ y.2.pages = []) := by
  refine List.forall_mem_map.mpr fun p _ => ?_
  dsimp only
  split
  next h => exact .inl h
  next => exact .inr ⟨rfl, rfl⟩

/-- The lifting of a die's fence before the list, the counts and the programs that waited. -/
def returnDie (d : Nat) (x : FlmDie) (s : State) : State :=
  modFlm (fun m => { m with
    dies := aset m.dies d x.returned
    erases := m.erases + (x.blk.filter (fun p => p.2.st ≠ 4 && !p.2.pages.isEmpty)).length
    map := m.map.map (fun (e : Nat × FlmEntry) => (e.1, match e.2.pun with
      | some q => if q.1 = d then { e.2 with pun := none, lost := true } else e.2
      | none => e.2)) }) s

theorem unfenceFlashDie_spec {s : State} {d : Nat} (hd : ahas s.flm.dies d = true) (hx : (s.die d).fenced = true)
    (hroom : s.flm.retired.length < 2 ^ 19) {u : State} (hu : u = unfenceFlashDie d s) :
    u.out = s.out ∧ (u.die d).fenced = false ∧ u.flm.retired = s.flm.retired ++ [retiredEntry d 0xFFFFE 0]
      ∧ ∀ y ∈ (u.die d).blk, y.2.st = 4 ∨ (y.2.st = 0 ∧ y.2.pages = []) := by
  obtain ⟨x, found⟩ := Option.isSome_iff_exists.mp hd
  rw [die_of_find found] at hx
  have lifted : unfenceFlashDie d s = flmHealth (checkpointDue (startWaiting (bumpCtr ctrFlmErases
      (x.blk.filter (fun p => p.2.st ≠ 4 && !p.2.pages.isEmpty)).length (noteRetired d 0xFFFFE 0 (returnDie d x s))))) := by
    rw [unfenceFlashDie, found]
    dsimp only
    rw [hx, if_neg (by decide)]
    rfl
  rw [noteRetired_of_room (show (returnDie d x s).flm.retired.length < 2 ^ 19 from hroom)] at lifted
  have apart := (ProgApart.startWaiting (bumpCtr ctrFlmErases
    (x.blk.filter (fun p => p.2.st ≠ 4 && !p.2.pages.isEmpty)).length
    (modFlm (fun m => { m with retired := m.retired ++ [retiredEntry d 0xFFFFE 0] }) (returnDie d x s)))).trans (.checkpointDue _)
  have die : u.die d = x.returned := by
    rw [hu, lifted, flmHealth_die, apart.die]
    exact aget_aset_self ..
  refine ⟨?_, by rw [die]; rfl, ?_, by rw [die]; exact returned_free x⟩
  · rw [hu, lifted, flmHealth_out, apart.out]; rfl
  · rw [hu, lifted, flmHealth_retired, apart.retired]; rfl

/-! ## Channels in and out of service (R222) -/

/-- A table with one entry for each of some keys. -/
theorem afind_map_keys {κ α : Type} [DecidableEq κ] {l : List κ} {k : κ} (h : k ∈ l) (f : κ → α) :
    afind (l.map (fun x => (x, f x))) k = some (f k) := by
  induction l with
  | nil => cases h
  | cons a r ih =>
    by_cases ha : a = k
    · subst ha; simp [afind]
    · simpa [afind, ha] using ih (List.mem_of_ne_of_mem (Ne.symm ha) h)

theorem flm_of_steps {α : Type} {f : α → State → State} (h : ∀ a s, (f a s).flm = s.flm) (l : List α) (s : State) :
    (forEach l f s).flm = s.flm :=
  forEach_rel (R := fun s t => t.flm = s.flm) (fun _ => rfl) (fun h k => k.trans h) h l s

theorem logEvent_flm (code unit : Nat) (sag : Option Nat) (payload : List Nat) (s : State) :
    (logEvent code unit sag payload s).flm = s.flm := by rw [logEvent_apart]

/-- Whether a channel with parameters `p` goes into service beside channel 0's `p0`. -/
def flashAccepts (p0 p : FlashParams) : Bool := p.present && flashLimitsOk p && (paramsDiffer p p0).isNone

theorem flashAccepts_true {p0 p : FlashParams} (h : p.present = true) (hl : flashLimitsOk p = true)
    (hd : paramsDiffer p p0 = none) : flashAccepts p0 p = true := by rw [flashAccepts, h, hl, hd]; rfl

theorem flashAccepts_false {p0 p : FlashParams} (h : p.present = false ∨ flashLimitsOk p = false ∨ paramsDiffer p p0 ≠ none) :
    flashAccepts p0 p = false := by
  rcases h with h | h | h
  · rw [flashAccepts, h]; rfl
  · rw [flashAccepts, h, Bool.and_false]; rfl
  · rw [flashAccepts, Option.isNone_eq_false_iff.mpr (Option.isSome_iff_ne_none.mpr h), Bool.and_false]

/-- The state of a channel after its parameter pages were read. -/
def channelOf (p0 p : FlashParams) : FlmCh :=
  if flashAccepts p0 p then
    { fence := { on := false, cause := 0 }, rate := 36, targets := p.targets, luns := p.lunsPerTarget }
  else { fence := { on := true, cause := 3 }, targets := p.targets, luns := p.lunsPerTarget }

/-- The channels that read their parameter pages, with what they read. -/
def flashChannels (l : List FlashParams) : List (Nat × FlashParams) := (List.range l.length).map (fun c => (c, l.getD c {}))

/-- The dies of the channels that go into service. -/
def flashDies (l : List FlashParams) : List Nat :=
  ((flashChannels l).filter (fun c => flashAccepts (l.headD {}) c.2)).flatMap (fun c =>
    (List.range c.2.targets).flatMap (fun t => (List.range c.2.lunsPerTarget).map (fun u => c.1 * 32 + t * 4 + u)))

theorem flmInit_of_unfitted {s : State} (h : s.fitted capFLM = false) (l : List FlashParams) : flmInit l s = s := by
  rw [flmInit, h]; rfl

theorem flmInit_flm {s : State} (h : s.fitted capFLM = true) (l : List FlashParams) :
    (flmInit l s).flm.st = 2 ∧ (flmInit l s).flm.rebuildAt = s.now ∧ (flmInit l s).flm.map = s.flm.map
      ∧ (flmInit l s).flm.ch = (flashChannels l).map (fun c => (c.1, channelOf (l.headD {}) c.2))
      ∧ ∃ mk : Nat → FlmDie, (flmInit l s).flm.dies = (flashDies l).map (fun d => (d, mk d)) := by
  have noted := forEach_rel (R := fun s t : State => t.now = s.now ∧ t.flm.map = s.flm.map) (fun _ => ⟨rfl, rfl⟩)
    (fun h k => ⟨k.1.trans h.1, k.2.trans h.2⟩)
    (f := fun (x : Nat × Nat) s => if s.flm.retired.any (fun e => entryDie e = x.1 && entryBlock e = x.2) then s
      else noteRetired x.1 x.2 2 s)
    (fun x s => by split <;> exact ⟨rfl, rfl⟩)
    (((flashChannels l).filter (fun c => flashAccepts (l.headD {}) c.2)).flatMap (fun c =>
      c.2.factoryBad.map (fun x => (c.1 * 32 + x.1 % 32, x.2)))) s
  unfold flmInit
  rw [h, if_neg (by decide)]
  dsimp only
  rw [flm_of_steps (fun c s => logEvent_flm ..)]
  exact ⟨rfl, noted.1, noted.2, by rw [modFlm]; dsimp only; rfl, _, rfl⟩

theorem mem_flashDies {l : List FlashParams} {c t n : Nat} (hc : c < l.length)
    (ha : flashAccepts (l.headD {}) (l.getD c {}) = true) (ht : t < (l.getD c {}).targets)
    (hn : n < (l.getD c {}).lunsPerTarget) : 32 * c + 4 * t + n ∈ flashDies l := by
  refine List.mem_flatMap.mpr ⟨(c, l.getD c {}), List.mem_filter.mpr ⟨List.mem_map.mpr ⟨c, List.mem_range.mpr hc, rfl⟩, ha⟩,
    List.mem_flatMap.mpr ⟨t, List.mem_range.mpr ht, List.mem_map.mpr ⟨n, List.mem_range.mpr hn, ?_⟩⟩⟩
  dsimp only
  omega

/-- A channel whose parameters are accepted is in service with all its dies; any other is fenced, cause 3. -/
theorem flmInit_spec {s : State} (h : s.fitted capFLM = true) (l : List FlashParams) {u : State} (hu : u = flmInit l s) :
    u.flm.st = 2 ∧ u.flm.rebuildAt = s.now ∧ u.flm.map = s.flm.map
      ∧ (∀ c, c < l.length → afind u.flm.ch c = some (channelOf (l.headD {}) (l.getD c {})))
      ∧ ∀ d ∈ flashDies l, ahas u.flm.dies d = true := by
  obtain ⟨st, at_, map, ch, mk, dies⟩ := flmInit_flm h l
  subst hu
  refine ⟨st, at_, map, fun c hc => ?_, fun d hd => ?_⟩
  · rw [ch, flashChannels, List.map_map]
    exact afind_map_keys (List.mem_range.mpr hc) (fun c => channelOf (l.headD {}) (l.getD c {}))
  · rw [dies, ahas, afind_map_keys hd]
    rfl

end Sys2Proof.Machine
end

section
namespace Sys2Proof.Machine

/-! ## The rebuild resolves the map (R241) -/

/-- The units a copy or a trim record of the rebuild is about. -/
def copyUnits (c : FlmCopy) : List Nat :=
  if c.2.2.kind = 3 then c.2.2.ranges.flatMap (fun r => (List.range r.2).map (r.1 + ·)) else [c.2.2.lua]

theorem mem_copyUnits {c : FlmCopy} (h : c.2.2.kind = 1 ∨ c.2.2.kind = 3) (l : Nat) :
    l ∈ copyUnits c ↔ c.2.2.covers l = true := by
  rcases h with h | h
  · simp only [copyUnits, FlmPage.covers, span_unit h, h, List.any_cons, List.any_nil, Bool.or_false, decide_eq_true_eq]
    rw [if_neg (by decide), List.mem_singleton]
    omega
  · have span : c.2.2.span = c.2.2.ranges := by rw [FlmPage.span, h]; rfl
    rw [copyUnits, if_pos h, FlmPage.covers, span]
    simp only [List.mem_flatMap, List.mem_map, List.mem_range, List.any_eq_true, decide_eq_true_eq]
    refine exists_congr fun r => and_congr_right fun _ => ⟨?_, fun h => ⟨l - r.1, by omega, by omega⟩⟩
    rintro ⟨k, hk, rfl⟩
    omega

/-- A record takes a unit where none has or where it outranks the one that has (R241 phase 2). -/
def takeUnit (c : FlmCopy) (u : Nat) (w : Assoc Nat FlmCopy) : Assoc Nat FlmCopy :=
  match afind w u with
  | none => aset w u c
  | some x => if x.2.2.dataSeq < c.2.2.dataSeq ∨ (c.2.2.dataSeq = x.2.2.dataSeq ∧ laterCopy c x = true) then aset w u c else w

theorem resolveCopies_eq (l : List FlmCopy) :
    resolveCopies l = l.foldl (fun w c => (copyUnits c).foldl (fun w u => takeUnit c u w) w) [] := rfl

/-- Each unit that records are about has one of them that no other outranks in `DATA_SEQ`; no other unit has any. -/
structure Resolved (about : Nat → FlmCopy → Prop) (w : Assoc Nat FlmCopy) : Prop where
  keys : (w.map (·.1)).Nodup
  best : ∀ l c, afind w l = some c → about l c ∧ ∀ c', about l c' → c'.2.2.dataSeq ≤ c.2.2.dataSeq
  none : ∀ l, afind w l = none → ∀ c, ¬ about l c

namespace Resolved

variable {P Q : Nat → FlmCopy → Prop} {w : Assoc Nat FlmCopy}

theorem congr (h : Resolved P w) (hpq : ∀ l c, P l c ↔ Q l c) : Resolved Q w := by
  rwa [show Q = P from funext fun l => funext fun c => (propext (hpq l c)).symm]

theorem takeUnit (h : Resolved P w) (c : FlmCopy) (u : Nat) :
    Resolved (fun l c' => P l c' ∨ (l = u ∧ c' = c)) (takeUnit c u w) := by
  have taken : (∀ c', P u c' → c'.2.2.dataSeq ≤ c.2.2.dataSeq) →
      Resolved (fun l c' => P l c' ∨ (l = u ∧ c' = c)) (aset w u c) := fun hbest => by
    refine ⟨nodup_keys_aset h.keys u c, fun l x hx => ?_, fun l hl c' hc => ?_⟩
    · rw [afind_aset] at hx
      split at hx
      next hul =>
        cases hx
        subst hul
        refine ⟨.inr ⟨rfl, rfl⟩, fun c' hc => ?_⟩
        rcases hc with hc | ⟨-, rfl⟩
        exacts [hbest c' hc, le_refl _]
      next hul =>
        obtain ⟨hp, hmax⟩ := h.best l x hx
        exact ⟨.inl hp, fun c' hc => hmax c' (hc.resolve_right fun hc => hul hc.1.symm)⟩
    · rw [afind_aset] at hl
      split at hl
      · cases hl
      next hul => exact h.none l hl c' (hc.resolve_right fun hc => hul hc.1.symm)
  unfold Machine.takeUnit
  split
  next hnone => exact taken fun c' hc => absurd hc (h.none u hnone c')
  next x hx =>
    obtain ⟨hp, hmax⟩ := h.best u x hx
    split
    next hlater => exact taken fun c' hc => (hmax c' hc).trans (by omega)
    next hearlier =>
      have notLater : c.2.2.dataSeq ≤ x.2.2.dataSeq := by omega
      refine ⟨h.keys, fun l y hy => ?_, fun l hl c' hc => ?_⟩
      · obtain ⟨hpy, hmaxy⟩ := h.best l y hy
        refine ⟨.inl hpy, fun c' hc => ?_⟩
        rcases hc with hc | ⟨rfl, rfl⟩
        · exact hmaxy c' hc
        · rw [hx] at hy
          cases hy
          exact notLater
      · rcases hc with hc | ⟨rfl, -⟩
        · exact h.none l hl c' hc
        · rw [hx] at hl
          cases hl

theorem takeUnits (h : Resolved P w) (c : FlmCopy) (us : List Nat) :
    Resolved (fun l c' => P l c' ∨ (l ∈ us ∧ c' = c)) (us.foldl (fun w u => Machine.takeUnit c u w) w) := by
  induction us generalizing P w with
  | nil => exact h.congr fun l c' => by simp
  | cons u r ih =>
    refine (ih (h.takeUnit c u)).congr fun l c' => ?_
    rw [List.mem_cons, or_and_right, or_assoc]

theorem copies (h : Resolved P w) (cs : List FlmCopy) : Resolved (fun l c => P l c ∨ (c ∈ cs ∧ l ∈ copyUnits c))
    (cs.foldl (fun w c => (copyUnits c).foldl (fun w u => Machine.takeUnit c u w) w) w) := by
  induction cs generalizing P w with
  | nil => exact h.congr fun l c' => by simp
  | cons a r ih =>
    refine (ih (h.takeUnits a (copyUnits a))).congr fun l c => ?_
    rw [List.mem_cons, or_and_right, or_assoc]
    refine or_congr_right (or_congr_left ⟨fun ⟨hl, hc⟩ => ⟨hc, hc ▸ hl⟩, fun ⟨hc, hl⟩ => ⟨hc ▸ hl, hc⟩⟩)

/-- Of a record that outranks every other of its unit, the unit is. -/
theorem find_of_newest (h : Resolved P w) {l : Nat} {c : FlmCopy} (hc : P l c)
    (hnew : ∀ c', P l c' → c' ≠ c → c'.2.2.dataSeq < c.2.2.dataSeq) : afind w l = some c := by
  cases hw : afind w l with
  | none => exact absurd hc (h.none l hw c)
  | some x =>
    obtain ⟨hp, hmax⟩ := h.best l x hw
    by_contra hne
    have older := hnew x hp fun e => hne (by rw [e])
    have newer := hmax c hc
    omega

end Resolved

theorem resolveCopies_resolved (cs : List FlmCopy) : Resolved (fun l c => c ∈ cs ∧ l ∈ copyUnits c) (resolveCopies cs) := by
  have start : Resolved (fun _ _ => False) [] := ⟨List.nodup_nil, fun _ _ h => (by cases h), fun _ _ _ h => h⟩
  rw [resolveCopies_eq]
  exact (start.copies cs).congr fun l c => by rw [false_or]

/-- Of the entries of a table with distinct keys that pass a test, one is found where it was and passes. -/
theorem afind_filter {κ α : Type} [DecidableEq κ] {m : Assoc κ α} (hn : (m.map (·.1)).Nodup) (p : κ × α → Bool) (k : κ) (v : α) :
    afind (m.filter p) k = some v ↔ afind m k = some v ∧ p (k, v) = true := by
  have kept : ((m.filter p).map (·.1)).Nodup := hn.sublist (List.filter_sublist.map _)
  constructor
  · intro h
    obtain ⟨hm, hp⟩ := List.mem_filter.mp (mem_of_afind h)
    exact ⟨afind_of_mem hn hm, hp⟩
  · rintro ⟨h, hp⟩
    exact afind_of_mem kept (List.mem_filter.mpr ⟨mem_of_afind h, hp⟩)

/-- The dies the rebuild reads. -/
def State.diesUp (s : State) : Assoc Nat FlmDie := s.flm.dies.filter (fun x => !x.2.fenced)

/-- Whether the media hold a record that passes its checks. -/
def State.hasRecords (s : State) : Bool :=
  s.diesUp.any (fun x => x.2.blk.any (fun y => y.2.st ≠ 4 && y.2.pages.any (fun p => spareOk p.spareRead)))

/-- The records of units on the media. -/
def State.unitRecords (s : State) : List FlmCopy :=
  (s.diesUp.flatMap (fun x => x.2.blk.flatMap (fun y => if y.2.st = 4 then [] else s.flm.copiesOf x.1 y.1 y.2))).filter
    (fun c => c.2.2.kind = 1 || c.2.2.kind = 3)

theorem mem_unitRecords {s : State} {c : FlmCopy} : c ∈ s.unitRecords ↔ (c.2.2.kind = 1 ∨ c.2.2.kind = 3)
    ∧ ∃ x ∈ s.flm.dies, x.2.fenced = false ∧ ∃ y ∈ x.2.blk, y.2.st ≠ 4 ∧ c ∈ s.flm.copiesOf x.1 y.1 y.2 := by
  have inBlock : ∀ (x : Nat × FlmDie) (y : Nat × FlmBlk), c ∈ (if y.2.st = 4 then [] else s.flm.copiesOf x.1 y.1 y.2)
      ↔ y.2.st ≠ 4 ∧ c ∈ s.flm.copiesOf x.1 y.1 y.2 := fun x y => by split <;> simp_all
  simp only [State.unitRecords, State.diesUp, List.mem_filter, List.mem_flatMap, Bool.or_eq_true, decide_eq_true_eq,
    Bool.not_eq_true', inBlock, and_assoc]
  exact and_comm

/-- A block none of whose pages has a record that passes its checks gives no copy. -/
theorem copiesOf_of_blank (m : Flm) (d b : Nat) {k : FlmBlk} (h : ∀ p ∈ k.pages, spareOk p.spareRead = false) :
    m.copiesOf d b k = [] := by
  have opened : m.closed k = false := by
    unfold Flm.closed
    split
    next q hq => rw [FlmPage.summaryOk, h q (List.mem_of_getElem? hq)]; simp
    next => rfl
  have page : ∀ q ∈ k.numbered, spareOk q.2.spareRead = false := by
    unfold FlmBlk.numbered
    refine List.forall_mem_map.mpr fun i hi => h _ ?_
    rw [List.getD_eq_getElem _ _ (List.mem_range.mp hi)]
    exact List.getElem_mem _
  rw [Flm.copiesOf, opened, if_neg Bool.false_ne_true, List.filter_eq_nil_iff.mpr fun q hq => by rw [page q hq]; decide]
  rfl

theorem unitRecords_of_blank {s : State} (h : s.hasRecords = false) : s.unitRecords = [] := by
  refine List.eq_nil_iff_forall_not_mem.mpr fun c hc => ?_
  obtain ⟨-, x, hx, hup, y, hy, hst, hcopy⟩ := mem_unitRecords.mp hc
  have block := List.any_eq_false.mp h x (List.mem_filter.mpr ⟨hx, by rw [hup]; rfl⟩)
  rw [Bool.not_eq_true, List.any_eq_false] at block
  have pages := block y hy
  rw [decide_eq_true hst, Bool.true_and, Bool.not_eq_true, List.any_eq_false] at pages
  rw [copiesOf_of_blank s.flm x.1 y.1 fun p hp => by simpa using pages p hp] at hcopy
  cases hcopy

/-- The map the rebuild makes of the records. -/
def State.rebuiltMap (s : State) : Assoc Nat FlmEntry :=
  ((resolveCopies s.unitRecords).filter (fun w => w.2.2.2.kind = 1)).map (fun (w : Nat × FlmCopy) => (w.1, { pun := some w.2.1 }))

theorem afind_map_value {κ α β : Type} [DecidableEq κ] (m : Assoc κ α) (f : α → β) (k : κ) :
    afind (m.map (fun q => (q.1, f q.2))) k = (afind m k).map f := by
  induction m with
  | nil => rfl
  | cons p r ih =>
    obtain ⟨x, y⟩ := p
    by_cases h : x = k <;> simp [afind, h, ih]

/-- A rebuilt unit is mapped to its record where that is a copy, and is not mapped otherwise. -/
theorem pun_rebuiltMap (s : State) (l : Nat) (pun : Nat × Nat × Nat) : (aget s.rebuiltMap l {}).pun = some pun
    ↔ ∃ c, afind (resolveCopies s.unitRecords) l = some c ∧ c.2.2.kind = 1 ∧ c.1 = pun := by
  have found : ∀ c, afind ((resolveCopies s.unitRecords).filter (fun w => w.2.2.2.kind = 1)) l = some c
      ↔ afind (resolveCopies s.unitRecords) l = some c ∧ c.2.2.kind = 1 := fun c =>
    (afind_filter (resolveCopies_resolved _).keys _ l c).trans (and_congr_right fun _ => decide_eq_true_iff)
  have entry : afind s.rebuiltMap l = (afind ((resolveCopies s.unitRecords).filter (fun w => w.2.2.2.kind = 1)) l).map
      (fun c => { pun := some c.1 }) := afind_map_value _ (fun c : FlmCopy => ({ pun := some c.1 } : FlmEntry)) l
  rw [aget_eq_afind, entry]
  simp only [← and_assoc, ← found]
  cases afind ((resolveCopies s.unitRecords).filter (fun w => w.2.2.2.kind = 1)) l with
  | none => simp
  | some c => simp

theorem flashRebuild_of_idle {s : State} (h : s.flm.st ≠ 2) : flashRebuild s = s := if_pos h

theorem flashRebuild_of_blank {s : State} (h : s.flm.st = 2) (hr : s.hasRecords = false) : flashRebuild s = formatFlash s := by
  rw [flashRebuild, if_neg (by omega)]
  refine if_pos ?_
  rw [← State.diesUp, ← State.hasRecords, hr]
  rfl

/-- Media with records get the map the records resolve to. -/
theorem flashRebuild_of_records {s : State} (h : s.flm.st = 2) (hr : s.hasRecords = true) :
    (flashRebuild s).flm.map = s.rebuiltMap ∧ flashRebuild s = { s with flm := (flashRebuild s).flm } := by
  rw [flashRebuild, if_neg (by omega)]
  dsimp only
  rw [← State.diesUp, ← State.hasRecords, hr, if_neg (by decide)]
  exact ⟨rfl, rfl⟩

/-- Blank media are formatted: no unit is mapped, and the logical capacity follows from the good units. -/
theorem formatFlash_spec (s : State) {u : State} (hu : u = formatFlash s) : u = { s with flm := u.flm, ctr := u.ctr }
    ∧ u.flm.st = 5 ∧ u.flm.map = [] ∧ u.flm.logical = 4 * (u.goodUnits * (100 - s.flm.opPct) / 400) := by
  subst hu
  exact ⟨rfl, rfl, rfl, rfl⟩

theorem hasRecords_of_blank {s : State} (h : ∀ x ∈ s.flm.dies, x.2.fenced = false → ∀ y ∈ x.2.blk, y.2.st ≠ 4 →
    ∀ p ∈ y.2.pages, spareOk p.spareRead = false) : s.hasRecords = false := by
  refine List.any_eq_false.mpr fun x hx => ?_
  obtain ⟨hx, hup⟩ := List.mem_filter.mp hx
  rw [Bool.not_eq_true, List.any_eq_false]
  intro y hy
  rw [Bool.not_eq_true, Bool.and_eq_false_imp, decide_eq_true_eq]
  refine fun hst => List.any_eq_false.mpr fun p hp => ?_
  rw [h x hx (by simpa using hup) y hy hst p hp]
  decide

/-- The rebuild maps a unit only to a copy no other record outranks, and every unit whose newest record is a copy. -/
theorem flashRebuild_spec {s : State} (h : s.flm.st = 2) {about : Nat → FlmCopy → Prop}
    (hab : ∀ l c, about l c ↔ c ∈ s.unitRecords ∧ c.2.2.covers l = true) {u : State} (hu : u = flashRebuild s) :
    u = { s with flm := u.flm, ctr := u.ctr }
      ∧ (∀ l pun, (u.entry l).pun = some pun →
          ∃ c, about l c ∧ c.1 = pun ∧ c.2.2.kind = 1 ∧ ∀ c', about l c' → c'.2.2.dataSeq ≤ c.2.2.dataSeq)
      ∧ (∀ l c, about l c → c.2.2.kind = 1 → (∀ c', about l c' → c' ≠ c → c'.2.2.dataSeq < c.2.2.dataSeq) →
          (u.entry l).pun = some c.1) := by
  have resolved : Resolved about (resolveCopies s.unitRecords) := (resolveCopies_resolved s.unitRecords).congr fun l c =>
    (and_congr_right fun hc => mem_copyUnits (mem_unitRecords.mp hc).1 l).trans (hab l c).symm
  subst hu
  cases hr : s.hasRecords with
  | false =>
    rw [flashRebuild_of_blank h hr]
    obtain ⟨apart, -, map, -⟩ := formatFlash_spec s rfl
    have entry : ∀ l, (formatFlash s).entry l = {} := fun l => by rw [State.entry, map]; rfl
    refine ⟨apart, fun l pun hl => ?_, fun l c hc => ?_⟩
    · rw [entry] at hl
      cases hl
    · rw [hab, unitRecords_of_blank hr] at hc
      cases hc.1
  | true =>
    obtain ⟨map, apart⟩ := flashRebuild_of_records h hr
    refine ⟨by rw [apart], fun l pun hl => ?_, fun l c hc hk hnew => ?_⟩
    · rw [State.entry, map, pun_rebuiltMap] at hl
      obtain ⟨c, hfind, hk, hpun⟩ := hl
      obtain ⟨hc, hbest⟩ := resolved.best l c hfind
      exact ⟨c, hc, hpun, hk, hbest⟩
    · rw [State.entry, map, pun_rebuiltMap]
      exact ⟨c, resolved.find_of_newest hc hnew, hk, rfl⟩

end Sys2Proof.Machine
end

section
namespace Sys2Proof.Machine

/-! ## The media serve again (R242) -/

/-- From one state to another the media go on serving, no counter moves, and no region leaves the table. -/
structure Serves (s t : State) : Prop where
  st : s.flm.st = 3 ∨ s.flm.st = 4 → t.flm.st = 3 ∨ t.flm.st = 4
  saved : t.flm.saved = s.flm.saved
  ctr : t.ctr = s.ctr
  regions : ∀ id, ahas s.tie.regions id = true → ahas t.tie.regions id = true

namespace Serves

theorem refl (s : State) : Serves s s := ⟨id, rfl, rfl, fun _ => id⟩

theorem trans {s t u : State} (h : Serves s t) (k : Serves t u) : Serves s u :=
  ⟨k.st ∘ h.st, k.saved.trans h.saved, k.ctr.trans h.ctr, fun id => k.regions id ∘ h.regions id⟩

theorem overLoop {α : Type} {f : α → State → State} (h : ∀ a s, Serves s (f a s)) (l : List α) (s : State) :
    Serves s (forEach l f s) :=
  forEach_rel refl trans h l s

theorem of_progs {s t : State} (h : ProgApart s t) : Serves s t := by
  rw [h]; exact ⟨id, rfl, rfl, fun _ => id⟩

theorem of_queue {s t : State} (h : QueueApart s t) : Serves s t := by
  rw [h]; exact ⟨id, rfl, rfl, fun _ => id⟩

theorem eraseCopies (lua units seq : Nat) (s : State) : Serves s (eraseCopies lua units seq s) := by
  refine overLoop (fun q s => ?_) _ s
  exact ⟨id, rfl, rfl, fun _ => id⟩

theorem flmHealth (s : State) : Serves s (flmHealth s) := by
  refine ⟨fun h => ?_, flmHealth_saved s, flmHealth_ctr s, fun id h => by rwa [flmHealth_tie]⟩
  unfold Machine.flmHealth
  rw [if_neg (by omega)]
  dsimp only [modFlm]
  split
  exacts [.inr rfl, .inl rfl]

theorem secureStep (x : FlmSecure) (s : State) : Serves s (secureStep x s) := by
  unfold Machine.secureStep
  dsimp only
  split
  · refine trans ?_ (overLoop (fun p s => of_progs (.startProg _ s)) _ _)
    exact ⟨id, rfl, rfl, fun _ => id⟩
  · split
    · refine trans ?_ (eraseCopies ..)
      exact ⟨id, rfl, rfl, fun _ => id⟩
    · exact refl s

theorem secureDiscard (lua units : Nat) (s : State) : Serves s (secureDiscard lua units s) := by
  refine trans ?_ (overLoop secureStep _ _)
  exact ⟨id, rfl, rfl, fun _ => id⟩

theorem discard (lua units : Nat) (s : State) : Serves s (discard lua units s) := by
  rw [discard_eq]
  exact trans (of_progs (.overLoop .startProg _ s)) (flmHealth _)

theorem resumeSecure (s : State) : Serves s (resumeSecure s) := by
  refine overLoop (fun x s => ?_) _ s
  split
  · exact refl s
  · refine trans ?_ (eraseCopies ..)
    exact ⟨id, rfl, rfl, fun _ => id⟩

end Serves

/-- A region that returns stands in the table, with refetches of its lost pages at most in the queue besides. -/
theorem reinstate_spec (r : Region) (s : State) : ∃ r' : Region,
    QueueApart { s with tie := { s.tie with regions := aset s.tie.regions r.id r' } } (reinstate r s) := by
  unfold reinstate
  dsimp only
  split
  · exact ⟨_, forEach_rel .refl .trans (fun p s => .refetch _ p s) _ _⟩
  · exact ⟨_, .refl _⟩

theorem reinstate_serves (r : Region) (s : State) :
    Serves s (reinstate r s) ∧ ahas (reinstate r s).tie.regions r.id = true := by
  obtain ⟨r', apart⟩ := reinstate_spec r s
  have entered : ∀ id, ahas (aset s.tie.regions r.id r') id = true ↔ r.id = id ∨ ahas s.tie.regions id = true := fun id => by
    rw [ahas, afind_aset, ahas]
    split
    next h => simp [h]
    next h => simp [h]
  have queued := Serves.of_queue apart
  refine ⟨⟨queued.st, queued.saved, queued.ctr, fun id h => queued.regions id ((entered id).mpr (.inr h))⟩, ?_⟩
  exact queued.regions r.id ((entered r.id).mpr (.inl rfl))

theorem reinstate_all (l : List Region) (s : State) : Serves s (forEach l reinstate s)
    ∧ ∀ r ∈ l, ahas (forEach l reinstate s).tie.regions r.id = true := by
  induction l generalizing s with
  | nil => exact ⟨.refl s, fun r hr => absurd hr List.not_mem_nil⟩
  | cons a r ih =>
    obtain ⟨first, there⟩ := reinstate_serves a s
    obtain ⟨rest, others⟩ := ih (reinstate a s)
    exact ⟨first.trans rest, List.forall_mem_cons.mpr ⟨rest.regions a.id there, others⟩⟩

/-- A discard that waited for the rebuild. -/
def lateDiscard (t : Nat × Bool) (s : State) : State := if t.2 then secureDiscard t.1 4 s else discard t.1 4 s

theorem lateDiscard_serves (t : Nat × Bool) (s : State) : Serves s (lateDiscard t s) := by
  unfold lateDiscard
  split
  · exact .secureDiscard ..
  · exact .discard ..

/-- The rebuild's cycles are counted and what the scratch kept goes, before secure discards resume. -/
def endScratch (s : State) : State :=
  { s with
    ctr := aset s.ctr ctrFlmRebuildCyc { count := (s.now - s.flm.rebuildAt) / 60 % 2 ^ 64, ovf := false }
    tie := { s.tie with frames := s.flm.savedFrames ++ s.tie.frames.filter (fun p => !ahas s.flm.savedFrames p.1) }
    flm := { s.flm with st := 3, saved := [], savedFrames := [], trims := [] } }

theorem rebuildComplete_of_other {s : State} (h : s.flm.st ≠ 2) (h' : s.flm.st ≠ 5) : rebuildComplete s = s := if_pos ⟨h, h'⟩

theorem rebuildComplete_eq {s : State} (h : s.flm.st = 2 ∨ s.flm.st = 5) : rebuildComplete s = flmHealth
    (forEach s.flm.trims lateDiscard (forEach s.flm.saved reinstate (resumeSecure (endScratch s)))) := by
  rw [rebuildComplete, if_neg (by omega)]
  rfl

/-- The media serve, with the regions that were saved in the table. -/
theorem rebuildComplete_spec {s : State} (h : s.flm.st = 2 ∨ s.flm.st = 5) {u : State} (hu : u = rebuildComplete s) :
    (u.flm.st = 3 ∨ u.flm.st = 4) ∧ u.flm.saved = [] ∧ (∀ r ∈ s.flm.saved, ahas u.tie.regions r.id = true)
      ∧ (aget u.ctr ctrFlmRebuildCyc {}).count = (s.now - s.flm.rebuildAt) / 60 % 2 ^ 64 := by
  obtain ⟨back, there⟩ := reinstate_all s.flm.saved (resumeSecure (endScratch s))
  have after := (Serves.overLoop lateDiscard_serves s.flm.trims (forEach s.flm.saved reinstate (resumeSecure (endScratch s)))).trans
    (.flmHealth _)
  have all := ((Serves.resumeSecure (endScratch s)).trans back).trans after
  rw [hu, rebuildComplete_eq h]
  refine ⟨all.st (.inl rfl), all.saved, fun r hr => after.regions r.id (there r hr), ?_⟩
  rw [all.ctr]
  exact congrArg _ (aget_aset_self ..)

end Sys2Proof.Machine
end

section
namespace Sys2Proof.Machine

/-! ## Collection, die fences, discards, initialisation and the rebuild -/

section
variable {d : Nat} (hd : d < 1024)
include hd

theorem gcVictimSelect_completes (s : State) : Completes (.gcVictimSelect d) s (gcSelect d s) := run_ok (decide_eq_true hd) rfl

theorem gcPageMove_completes (x : MoveRead) (s : State) : Completes (.gcPageMove d x) s (gcMove d x.attempts x.verified s) :=
  run_ok (decide_eq_true hd) rfl

theorem gcVictimErase_completes (s : State) : Completes (.gcVictimErase d) s (gcErase d s) := run_ok (decide_eq_true hd) rfl

theorem eraseFailure_completes {b : Nat} (hb : b < 2 ^ 24) (s : State) : Completes (.eraseFailure d b) s (eraseFailed d b s) :=
  run_ok (by rw [decide_eq_true hd, decide_eq_true hb]; rfl) rfl

variable {who : Who} (hw : who.wf = true)
include hw

theorem flmDieFence_completes (s : State) :
    Completes (.flmDieFence who d) s (ctlWrite who flmDieCtrl true (fun s => fenceFlashDie d 3 s) s) :=
  run_ok (by rw [hw, decide_eq_true hd]; rfl) rfl

theorem flmDieUnfence_completes (s : State) :
    Completes (.flmDieUnfence who d) s (ctlWrite who flmDieCtrl (liftsFence who) (unfenceFlashDie d) s) :=
  run_ok (by rw [hw, decide_eq_true hd]; rfl) rfl

end

section
variable {lua units : Nat} (hl : lua < 2 ^ 40) (hu : units < 2 ^ 32)
include hl hu

theorem ordinaryDiscard_completes (s : State) : Completes (.ordinaryDiscard lua units) s
    (if s.flm.st = 3 ∨ s.flm.st = 4 then discard lua units s else s) :=
  run_ok (by rw [decide_eq_true hl, decide_eq_true hu]; rfl) rfl

theorem secureDiscard_completes (s : State) : Completes (.secureDiscard lua units) s
    (if s.flm.st = 3 ∨ s.flm.st = 4 then secureDiscard lua units s else s) :=
  run_ok (by rw [decide_eq_true hl, decide_eq_true hu]; rfl) rfl

end

theorem secureDiscardDone_completes {lua : Nat} (hl : lua < 2 ^ 40) (s : State) :
    Completes (.secureDiscardDone lua) s (secureDone lua s) :=
  run_ok (decide_eq_true hl) rfl

theorem flmInit_completes {l : List FlashParams} (hl : l.length ≤ 32) (s : State) : Completes (.flmInit l) s (flmInit l s) :=
  run_ok (decide_eq_true hl) rfl

/-- A secure discard holds exactly its units and enters the list with its trim records started. -/
theorem secureDiscard_spec {s : State} {lua units : Nat} (hu : units < 2 ^ 32) (hin : s.diesIn ≠ [])
    (hsecure : ∀ x ∈ s.flm.secure, x.stage = 3) (hfree : ∀ q ∈ s.flm.progs ++ s.flm.waiting, q.page.meets lua units = false)
    {u : State} (h : u = secureDiscard lua units s) :
    (∀ l, lua ≤ l → l < lua + units → u.entry l = { s.entry l with held := true })
      ∧ (∀ l, (l < lua ∨ lua + units ≤ l) → u.entry l = s.entry l)
      ∧ u.flm.secure = s.flm.secure ++ [{ lua := lua, units := units, stage := 2 }]
      ∧ ∃ l, u.flm.progs = s.flm.progs ++ l ∧ l.flatMap (·.page.ranges) = cutRange lua units
        ∧ ∀ q ∈ l, q.page.kind = 3 ∧ q.page.secure = true ∧ q.discard = some lua := by
  have apart := ProgApart.overLoop .startProg (trimProgs lua units true (some lua)) (beginSecure lua units s)
  have held := aget_holdUnits lua units s.flm.map
  obtain ⟨l, progs, ranges, each⟩ := startTrims (s := beginSecure lua units s) hin hu hfree true (some lua)
  have entries : ∀ l, u.entry l = aget (holdUnits lua units s.flm.map) l {} := fun l => by
    rw [h, secureDiscard_eq hsecure hfree, apart.entry]; rfl
  refine ⟨fun l hlow hhigh => ?_, fun l hout => ?_, ?_, l, ?_, ranges, fun q hq => ?_⟩
  · rw [entries, held, if_pos ⟨hlow, hhigh⟩]; rfl
  · rw [entries, held, if_neg (by omega)]; rfl
  · rw [h, secureDiscard_eq hsecure hfree, apart.secure]; rfl
  · rw [h, secureDiscard_eq hsecure hfree, progs]; rfl
  · obtain ⟨kind, secure, -, discard⟩ := each q hq
    exact ⟨kind, secure, discard⟩

/-- Settles O38: collection by the state each of its steps leaves, a discard by the trim records it starts, the rebuild by
the table of the records that win, in which no other record of a unit outranks its own. -/
theorem flashUpkeep : Obligations.FlashUpkeep := by
  intro s d hd
  refine ⟨fun x on v hx hf hv hon hpick => effect_of (gcVictimSelect_completes hd s) (gcSelect_spec hx hf hv hon hpick rfl),
    fun h => ?_, fun attempts b i p c always r hv hm hp hk ha hr ho hcb hroom => ?_, fun attempts b i hv hm => ?_,
    fun attempts ok h => ?_, fun b hv hempty hroom => ⟨fun hst hreads => ?_, fun hst hreads => ?_, fun hb => ?_⟩,
    fun b hv => ⟨fun h => ?_, fun hb h => ?_⟩, fun bs hin hbs hfree => ?_,
    fun who hw hgate hdie hroom => ⟨fun hx => ?_, fun hlift hx => ?_, fun hlift => ?_⟩,
    fun lua units hl hu => ⟨fun h3 h4 => ?_, fun hst hin hfree => ⟨?_, fun hsecure => ?_⟩, fun x hx => ⟨fun hcopies => ?_,
      fun hcopies => ?_⟩⟩, fun l hl => ⟨fun h => ?_, fun h => ?_⟩, fun h => ?_, fun about h hab => ?_, fun h hblank => ?_,
    fun h2 h5 => ?_, fun h => ?_⟩
  · have completes := gcVictimSelect_completes hd s
    rwa [gcSelect_of_busy h] at completes
  · subst ha
    exact effect_of (gcPageMove_completes hd _ s) (gcMove_spec hv hm hp hk hr ho hroom hcb rfl)
  · have moving : (!false && (s.die d).moving.isSome) = true := by rw [hm]; rfl
    have failure := programFailure_completes hd false s
    have move := gcPageMove_completes hd ⟨attempts, false⟩ s
    rw [gcMove_of_unverified hv hm] at move
    rw [moving, Bool.or_true, if_pos rfl] at failure
    exact move.trans failure.symm
  · have completes := gcPageMove_completes hd ⟨attempts, ok⟩ s
    rwa [gcMove_of_idle h] at completes
  · exact effect_of (gcVictimErase_completes hd s) (gcErase_spec hv hempty hreads hst rfl)
  · obtain ⟨st, list, -, -⟩ := retire_spec d b 0 hroom rfl
    exact effect_of (gcVictimErase_completes hd s) (by rw [gcErase_of_failed hv hempty hreads hst]; exact ⟨st, list⟩)
  · obtain ⟨st, list, -, -⟩ := retire_spec d b 1 hroom rfl
    exact effect_of (eraseFailure_completes hd hb s) (by rw [eraseFailed_of_emptied hv hempty]; exact ⟨st, list⟩)
  · have completes := gcVictimErase_completes hd s
    rwa [gcErase_of_busy hv h] at completes
  · have completes := eraseFailure_completes hd hb s
    rwa [eraseFailed_of_busy h] at completes
  · subst hbs
    obtain ⟨erasesAt, map, progs⟩ := checkpoint_spec hin hfree rfl
    refine effect_of (run_ok rfl rfl : Completes .blockTableCheckpoint s (checkpoint s)) ⟨erasesAt, map, ⟨_, progs, ?_, ?_, ?_⟩,
      fun c t n b hc ht hn ht8 hn4 hb => checkpointData_count s hc ht hn ht8 hn4 hb⟩
    · rw [List.length_map, List.length_range]
    · rw [List.length_map, List.length_range, List.map_map]; rfl
    · rw [List.length_map, List.length_range, List.map_map]; rfl
  · have completes := flmDieFence_completes hd hw s
    rw [ctlWrite_of_open hgate] at completes
    have flm := answerCsr_ok_flm who flmDieCtrl 0 s
    obtain ⟨x, found⟩ := Option.isSome_iff_exists.mp hdie
    rw [die_of_find found] at hx
    obtain ⟨-, out, fenced, list, entries⟩ := fenceFlashDie_spec (s := answerCsr who flmDieCtrl .ok 0 s) (by rw [flm]; exact found)
      hx 3 (by rw [flm]; exact hroom) rfl
    rw [flm] at list
    refine effect_of completes ⟨fenced, list, by rw [out]; exact answerCsr_ok_out .., fun l b i hp => ?_⟩
    rw [entries, entry_of_map (congrArg Flm.map flm)]
    exact lostOn_of_there hp
  · have completes := flmDieUnfence_completes hd hw s
    rw [hlift, ctlWrite_of_open hgate] at completes
    have flm := answerCsr_ok_flm who flmDieCtrl 0 s
    obtain ⟨out, lifted, list, blocks⟩ := unfenceFlashDie_spec (s := answerCsr who flmDieCtrl .ok 0 s) (by rw [flm]; exact hdie)
      (by rw [die_of_dies (congrArg Flm.dies flm)]; exact hx) (by rw [flm]; exact hroom) rfl
    rw [flm] at list
    exact effect_of completes ⟨lifted, list, by rw [out]; exact answerCsr_ok_out .., blocks⟩
  · have completes := flmDieUnfence_completes hd hw s
    rwa [hlift, ctlWrite_of_not_allowed hgate] at completes
  · have closed : ¬ (s.flm.st = 3 ∨ s.flm.st = 4) := by omega
    have ordinary := ordinaryDiscard_completes hl hu s
    have secure := secureDiscard_completes hl hu s
    rw [if_neg closed] at ordinary secure
    exact ⟨ordinary, secure⟩
  · have completes := ordinaryDiscard_completes hl hu s
    rw [if_pos hst, discard_eq] at completes
    obtain ⟨l, progs, ranges, each⟩ := startTrims hin hu hfree false none
    refine effect_of completes ⟨?_, l, ?_, ranges, fun q hq => ?_⟩
    · rw [flmHealth_map]
      exact (ProgApart.overLoop .startProg _ s).map
    · rw [flmHealth_progs, progs]
    · obtain ⟨kind, secure, few, -⟩ := each q hq
      exact ⟨kind, secure, few⟩
  · have completes := secureDiscard_completes hl hu s
    rw [if_pos hst] at completes
    exact effect_of completes (secureDiscard_spec hu hin hsecure hfree rfl)
  · have completes := secureDiscardDone_completes hl s
    rw [secureDone_of_cleared hx hcopies] at completes
    refine effect_of completes ?_
    have lua := lua_of_erasing hx
    subst lua
    exact ⟨rfl, rfl, entry_endSecure x s⟩
  · have completes := secureDiscardDone_completes hl s
    rwa [secureDone_of_copies hx hcopies] at completes
  · have completes := flmInit_completes hl s
    rwa [flmInit_of_unfitted h] at completes
  · obtain ⟨st, rebuildAt, map, channels, dies⟩ := flmInit_spec h l rfl
    refine effect_of (flmInit_completes hl s) ⟨st, rebuildAt, map, fun c p hc hp => ⟨_, channels c hc,
      fun hpresent hlimits hdiffer => ?_, fun hout => ?_⟩⟩
    · subst hp
      have accepted := flashAccepts_true hpresent hlimits hdiffer
      exact ⟨by rw [channelOf, if_pos accepted], fun t n ht hn => dies _ (mem_flashDies hc accepted ht hn)⟩
    · subst hp
      rw [channelOf, flashAccepts_false hout, if_neg Bool.false_ne_true]
  · have completes : Completes .flashRebuild s (flashRebuild s) := run_ok rfl rfl
    rwa [flashRebuild_of_idle h] at completes
  · refine effect_of (run_ok rfl rfl : Completes .flashRebuild s (flashRebuild s)) (flashRebuild_spec h (fun l c => ?_) rfl)
    rw [hab, mem_unitRecords, and_assoc, and_comm (b := c.2.2.covers l = true)]
  · have completes : Completes .flashRebuild s (flashRebuild s) := run_ok rfl rfl
    rw [flashRebuild_of_blank h (hasRecords_of_blank hblank)] at completes
    exact effect_of completes (formatFlash_spec s rfl).2
  · have completes : Completes .rebuildComplete s (rebuildComplete s) := run_ok rfl rfl
    rwa [rebuildComplete_of_other h2 h5] at completes
  · exact effect_of (run_ok rfl rfl : Completes .rebuildComplete s (rebuildComplete s)) (rebuildComplete_spec h rfl)

end Sys2Proof.Machine
end

section
namespace Sys2Proof.Machine

/-! ## What reads and writes of a region touch: the pool, the flash under it, and what both count and log (R203, R204, R210) -/

theorem bumpSat_frame (f : Nat × Nat) (s : State) :
    bumpSat f s = { s with sat := (bumpSatRaw f s).sat, log := (bumpSat f s).log } := by
  unfold bumpSat
  dsimp only
  split
  · rw [logEvent_apart]; rfl
  · rfl

/-- Two states that differ at most in the pool, the flash, and what is counted and logged. -/
def PoolApart (s t : State) : Prop :=
  t = { s with sat := t.sat, ctr := t.ctr, log := t.log, flm := t.flm, tie := t.tie }

namespace PoolApart

theorem refl (s : State) : PoolApart s s := rfl

theorem trans {s t u : State} (h : PoolApart s t) (k : PoolApart t u) : PoolApart s u := by
  unfold PoolApart at *; rw [k, h]

theorem overLoop {α : Type} {f : α → State → State} (h : ∀ a s, PoolApart s (f a s)) (l : List α) (s : State) :
    PoolApart s (forEach l f s) :=
  forEach_rel refl trans h l s

theorem fab {s t : State} (h : PoolApart s t) : t.fab = s.fab := by rw [h]

theorem cdc {s t : State} (h : PoolApart s t) : t.cdc = s.cdc := by rw [h]

theorem of_flash {s t : State} (h : FlashApart s t) : PoolApart s t := by
  unfold FlashApart PoolApart at *; rw [h]

theorem of_free {s t : State} (h : FreeApart s t) : PoolApart s t := by
  unfold FreeApart PoolApart at *; rw [h]

theorem of_queue {s t : State} (h : QueueApart s t) : PoolApart s t := by
  unfold QueueApart PoolApart at *; rw [h]

theorem of_alloc {s t : State} (h : AllocApart s t) : PoolApart s t := by
  unfold AllocApart PoolApart at *; rw [h]

/-- What a result and its state were computed as differs in the pool at most, so the state does. -/
theorem of_eq {α : Type} {x : α × State} {a : α} {s t : State} (h : x = (a, t)) (hx : PoolApart s x.2) :
    PoolApart s t := by
  subst h; exact hx

theorem noteFallback (g : Nat) (s : State) : PoolApart s (noteFallback g s) := by
  unfold Machine.noteFallback PoolApart; rw [bumpSat_frame]

theorem modRegion (id : Nat) (f : Region → Region) (s : State) : PoolApart s (modRegion id f s) := by
  unfold Machine.modRegion; split <;> rfl

theorem setSide (id g : Nat) (f : Side → Side) (s : State) : PoolApart s (setSide id g f s) := by
  unfold Machine.setSide; split <;> rfl

theorem setTie (m : Tie) (s : State) : PoolApart s { s with tie := m } := rfl

theorem putGrain (dst g : Nat) (data : List Byte) (w : Side) (s : State) : PoolApart s (putGrain dst g data w s) :=
  trans (setTie _ s) (setSide ..)

theorem storeGrain (r : Region) (id g : Nat) (data : List Byte) (enc : Bool) (s : State) :
    PoolApart s (storeGrain r id g data enc s) :=
  trans (setTie _ s) (setSide ..)

theorem poisonGrain (id g : Nat) (s : State) : PoolApart s (poisonGrain id g s) := setSide ..

theorem markDirty (id page g : Nat) (s : State) : PoolApart s (markDirty id page g s) := modRegion ..

theorem enqueueMove (j : MoverJob) (s : State) : PoolApart s (enqueueMove j s) := of_queue (.enqueueMove j s)

/-! ### Tiers that run short (R219) -/

theorem dropCopy (x : Nat × Nat × Nat) (s : State) : PoolApart s (dropCopy x s) :=
  trans (modRegion ..) (of_free (FreeApart.freeUnheld ..))

theorem freeSpare (tier g : Nat) (s : State) : PoolApart s (freeSpare tier g s) := by
  refine overLoop (fun x s => ?_) _ s
  split
  · exact trans (noteFallback ..) (dropCopy ..)
  · exact refl s

theorem demoteColdest (tier g : Nat) (s : State) : PoolApart s (demoteColdest tier g s) := by
  unfold Machine.demoteColdest
  split
  · exact refl s
  · split
    · exact refl s
    · dsimp only
      split
      · exact refl s
      · exact trans (enqueueMove ..) (noteFallback ..)

theorem noteShort (g tier : Nat) (s : State) : PoolApart s (noteShort g tier s) := rfl

theorem relieve (tier g : Nat) (s : State) : PoolApart s (relieve tier g s) := by
  unfold Machine.relieve
  split
  · exact noteShort ..
  · dsimp only
    refine trans ?_ (noteShort ..)
    split
    · exact trans (freeSpare ..) (demoteColdest ..)
    · exact freeSpare ..

/-! ### Reads -/

theorem heldBack (r : Region) (ver : Option Nat) (ps : List Nat) (s : State) : PoolApart s (heldBack r ver ps s).2 := by
  unfold Machine.heldBack
  dsimp only
  split
  · split
    · exact trans (relieve ..) (noteFallback ..)
    · exact trans (relieve ..) (overLoop (fun _ _ => enqueueMove ..) _ _)
  · exact refl s

theorem readPiece (r : Region) (ver : Option Nat) (pc : Nat × Nat × Nat) (s : State) :
    PoolApart s (readPiece r ver pc s).2 := by
  have away : ∀ b : Bool, PoolApart s (if b then (ReadResult.waits, refetch r (pc.1 / 256) s) else (.poison, s)).2 := by
    rintro (_ | _)
    · exact refl s
    · exact of_queue (.refetch ..)
  unfold Machine.readPiece
  dsimp only
  split
  · exact away _
  · split
    · exact refl s
    · split
      · exact refl s
      · split
        · split
          · split
            · exact refl s
            · exact putGrain ..
          · exact away _
        · exact poisonGrain ..

theorem readPieces (r : Region) (ver : Option Nat) (l : List (Nat × Nat × Nat)) (s : State) :
    PoolApart s (readPieces r ver l s).2 := by
  induction l generalizing s with
  | nil => exact refl s
  | cons pc rest ih => exact trans (readPiece r ver pc s) (ih _)

theorem touch (id page tier : Nat) (s : State) : PoolApart s (touch id page tier s) :=
  trans (modRegion ..) rfl

theorem touchPages (r : Region) (ver : Option Nat) (ps : List Nat) (s : State) : PoolApart s (touchPages r ver ps s) := by
  refine overLoop (fun p s => ?_) ps s
  split
  · dsimp only
    refine trans ?_ (touch ..)
    split
    · exact of_flash (.takeSlot ..)
    · exact refl s
  · exact refl s

theorem readRange (r : Region) (ver : Option Nat) (a len : Nat) (s : State) : PoolApart s (readRange r ver a len s).2 := by
  unfold Machine.readRange
  split
  next h => exact of_eq h (heldBack ..)
  next h => exact trans (of_eq h (heldBack ..)) (readPieces ..)

theorem readRegion (r : Region) (ver : Option Nat) (a len : Nat) (s : State) : PoolApart s (readRegion r ver a len s).2 := by
  unfold Machine.readRegion
  dsimp only
  split
  · exact trans (readRange ..) (touchPages ..)
  · exact readRange ..

/-! ### Writes -/

theorem firstFrame (r : Region) (page : Nat) (s : State) : PoolApart s (firstFrame r page s).2 := by
  unfold Machine.firstFrame
  extract_lets g put three two
  have put_apart : ∀ tier t, PoolApart t (put tier t).2 := fun tier t => by
    dsimp only [put]
    split
    next h => exact trans (of_alloc (allocFrame_spec h).1) (modRegion ..)
    next => exact refl t
  have three_apart : ∀ t, PoolApart t (three t).2 := fun t => by
    dsimp only [three]
    refine trans (relieve 3 g t) ?_
    split
    · exact noteFallback ..
    · exact put_apart ..
  have two_apart : PoolApart s two := relieve 2 g s
  clear_value put three two
  split
  · exact three_apart s
  · refine trans two_apart ?_
    split
    · exact put_apart ..
    · split
      · exact trans (noteFallback ..) (three_apart _)
      · split
        next h => exact trans (of_eq h (put_apart ..)) (trans (noteFallback ..) (three_apart _))
        next => exact put_apart ..

theorem frameForWrite (r : Region) (page : Nat) (s : State) : PoolApart s (frameForWrite r page s).2 := by
  unfold Machine.frameForWrite
  split
  · split
    · split
      · exact refl s
      next h =>
        have made := of_alloc (allocFrame_spec h).1
        split
        · exact trans made (trans (setTie ..) (modRegion ..))
        · exact made
    · exact refl s
  · exact firstFrame ..

theorem materialise (r : Region) (page : Nat) (s : State) : PoolApart s (materialise r page s) := by
  unfold Machine.materialise
  split
  · split
    next h => exact of_eq h (frameForWrite ..)
    next h => exact trans (of_eq h (frameForWrite ..)) (trans (overLoop (fun _ _ => poisonGrain ..) _ _) (modRegion ..))
  · exact refl s

theorem partsGood (r : Region) (l : List (Nat × Nat × Nat)) (s : State) : PoolApart s (partsGood r l s).2 := by
  induction l generalizing s with
  | nil => exact refl s
  | cons pc rest ih =>
    unfold Machine.partsGood
    dsimp only
    split
    · exact ih s
    · split
      · exact refl s
      · split
        · exact ih s
        · split
          · exact ih s
          · exact poisonGrain ..

theorem framesForWrite (id : Nat) (l : List Nat) (s : State) : PoolApart s (framesForWrite id l s).2 := by
  induction l generalizing s with
  | nil => exact refl s
  | cons p rest ih =>
    unfold Machine.framesForWrite
    dsimp only
    refine trans (materialise (s.region id) p s) ?_
    split
    · exact refl _
    · split
      next h => exact of_eq h (frameForWrite ..)
      next h => exact trans (of_eq h (frameForWrite ..)) (ih _)

theorem writePiece (id : Nat) (pc : Nat × Nat × Nat) (new : List Byte) (s : State) : PoolApart s (writePiece id pc new s) := by
  unfold Machine.writePiece
  dsimp only
  split
  · exact refl s
  · exact trans (storeGrain ..) (markDirty ..)

theorem writeRange (r : Region) (a : Nat) (data : List Byte) (s : State) : PoolApart s (writeRange r a data s).2 := by
  unfold Machine.writeRange
  dsimp only
  split
  next h => exact of_eq h (heldBack ..)
  next h => exact of_eq h (heldBack ..)
  next t h =>
    refine trans (of_eq h (heldBack ..)) ?_
    split
    · exact refl t
    · split
      next hp => exact of_eq hp (partsGood ..)
      next hp =>
        refine trans (of_eq hp (partsGood ..)) ?_
        split
        next hf => exact of_eq hf (framesForWrite ..)
        next hf => exact trans (of_eq hf (framesForWrite ..)) (overLoop (fun _ _ => writePiece ..) _ _)

theorem writeRegion (r : Region) (a : Nat) (data : List Byte) (s : State) : PoolApart s (writeRegion r a data s).2 := by
  unfold Machine.writeRegion
  split
  next h => exact trans (of_eq h (writeRange ..)) (touchPages ..)
  next h => exact trans (of_eq h (writeRange ..)) (touchPages ..)
  next => exact writeRange ..

end PoolApart

end Sys2Proof.Machine
end

section
namespace Sys2Proof.Machine

/-! ## Table objects in the pool (R255 to R257) -/

theorem readTable_apart (r : Region) (page : Nat) (s : State) : PoolApart s (readTable r page s).2 := by
  unfold readTable
  split
  next h => exact .of_eq h (.readRegion ..)
  next h => exact .of_eq h (.readRegion ..)
  next h => exact .of_eq h (.readRegion ..)

theorem usableTable_apart (g id : Nat) (s : State) : PoolApart s (usableTable g id s).2 := by
  unfold usableTable
  dsimp only
  split
  · exact .refl s
  · split
    next h => exact .of_eq h (readTable_apart ..)
    next h => exact .of_eq h (readTable_apart ..)
    next h => exact .of_eq h (readTable_apart ..)

/-- The table a job builds is written to the pool and bound; no engine is touched. -/
theorem buildTable_eng (j : CdcJob) (src : List Byte) (s : State) : (buildTable j src s).2.cdc.eng = s.cdc.eng := by
  unfold buildTable
  dsimp only
  split
  · rfl
  · have written := fun r a data => congrArg Cdc.eng (PoolApart.writeRegion r a data s).cdc
    split
    next h => exact (congrArg (·.2.cdc.eng) h).symm.trans (written ..)
    next h => exact (congrArg (·.2.cdc.eng) h).symm.trans (written ..)

/-- The table of a job is found or built without a change of any engine. -/
theorem jobTable_eng (j : CdcJob) (s : State) : (jobTable j s).2.cdc.eng = s.cdc.eng := by
  unfold jobTable
  split
  · rfl
  · split
    · exact buildTable_eng ..
    · exact congrArg Cdc.eng (usableTable_apart ..).cdc

/-! ## Engines and table entries after an update -/

theorem engine_of_eng {s t : State} (h : t.cdc.eng = s.cdc.eng) (k : Nat) : t.engine k = s.engine k := by
  rw [State.engine, h]; rfl

@[simp] theorem engine_modEngine_self (e : Nat) (f : CdcEngine → CdcEngine) (s : State) :
    (modEngine e f s).engine e = f (s.engine e) := aget_amod_self ..

theorem engine_modEngine_ne {e k : Nat} (h : k ≠ e) (f : CdcEngine → CdcEngine) (s : State) :
    (modEngine e f s).engine k = s.engine k :=
  (aget_amod ..).trans (if_neg h.symm)

@[simp] theorem cdcTable_setTable_self (g id : Nat) (t : CdcTable) (s : State) : (setTable g id t s).cdcTable g id = t :=
  aget_aset_self ..

theorem cdcTable_setTable_ne {g id h k : Nat} (hne : (h, k) ≠ (g, id)) (t : CdcTable) (s : State) :
    (setTable g id t s).cdcTable h k = s.cdcTable h k :=
  aget_aset_ne _ _ _ hne.symm

/-- The engine a job goes to depends on the engines alone (R266). -/
theorem pickEngine_of_eng {s t : State} (h : t.cdc.eng = s.cdc.eng) (n : Nat) : t.pickEngine n = s.pickEngine n := by
  unfold State.pickEngine State.queueBytes
  simp only [engine_of_eng h]

/-- The better of two engines for a job: the one with fewer bytes queued (R266). -/
def State.lessQueued (s : State) (b : Option Nat) (e : Nat) : Option Nat :=
  match b with
  | none => some e
  | some x => if s.queueBytes e < s.queueBytes x then some e else some x

theorem foldl_lessQueued_mem {s : State} {e : Nat} (l : List Nat) {b : Option Nat} (h : l.foldl s.lessQueued b = some e) :
    e ∈ l ∨ b = some e := by
  induction l generalizing b with
  | nil => exact .inr h
  | cons a r ih =>
    rcases ih h with hr | hb
    · exact .inl (List.mem_cons_of_mem _ hr)
    · cases b with
      | none => exact .inl (Option.some.inj hb ▸ List.mem_cons_self)
      | some x =>
        unfold State.lessQueued at hb
        dsimp only at hb
        split at hb
        · exact .inl (Option.some.inj hb ▸ List.mem_cons_self)
        · exact .inr hb

/-- The engine picked for a job is not fenced. -/
theorem fence_of_pickEngine {s : State} {n e : Nat} (h : s.pickEngine n = some e) : (s.engine e).fence.on = false := by
  have picked : (((List.range 8).filter (fun e => !(s.engine e).fence.on && decide ((s.engine e).queue.length < 64)
      && decide (s.queueBytes e + n ≤ 2 ^ 22))).foldl s.lessQueued none) = some e := h
  rcases foldl_lessQueued_mem _ picked with hm | hb
  · have fits := (List.mem_filter.mp hm).2
    simp only [Bool.and_eq_true, Bool.not_eq_true'] at fits
    obtain ⟨⟨unfenced, -⟩, -⟩ := fits
    exact unfenced
  · cases hb

/-! ## Packets of a transfer (R250, R358) -/

/-- A transfer that goes on has sent packets: it has the same data and destination, and nothing has changed but the
packets on their way and what is kept of them. -/
theorem pump_spec (q : Requester) (fuel : Nat) (x : Xfer) (s : State) :
    (∃ tags next, (pump q fuel x s).1 = { x with tags := tags, next := next })
      ∧ (pump q fuel x s).2 = { s with fab := (pump q fuel x s).2.fab }
      ∧ (pump q fuel x s).2.fab.inbox = s.fab.inbox := by
  induction fuel generalizing x s with
  | zero => exact ⟨⟨_, _, rfl⟩, rfl, rfl⟩
  | succ fuel ih =>
    unfold pump
    split
    · exact ⟨⟨_, _, rfl⟩, rfl, rfl⟩
    · dsimp only
      obtain ⟨same, frame, inbox⟩ := ih
        { x with tags := x.tags ++ [(s.nextTag, x.next, x.chunk)], next := x.next + x.chunk } (issue q x.packet s)
      obtain ⟨issued, kept, -, -⟩ := issue_spec q x.packet s
      refine ⟨same, ?_, inbox.trans kept⟩
      rw [frame, issued]

theorem pumpAll_spec (q : Requester) (x : Xfer) (s : State) :
    (∃ tags next, (pumpAll q x s).1 = { x with tags := tags, next := next })
      ∧ (pumpAll q x s).2 = { s with fab := (pumpAll q x s).2.fab }
      ∧ (pumpAll q x s).2.fab.inbox = s.fab.inbox := pump_spec ..

/-! ## Jobs placed on an engine (R253, R266) -/

/-- A job whose source is being read. -/
def CdcJob.reading (j : CdcJob) (rd : Xfer) : CdcJob := { j with rd := rd, started := false, wr := none }

/-- An engine with one more job. -/
def CdcEngine.push (j : CdcJob) (x : CdcEngine) : CdcEngine := { x with queue := x.queue ++ [j] }

theorem placeJob_spec (e : Nat) (j : CdcJob) (s : State) : ∃ rd fab, fab.inbox = s.fab.inbox
    ∧ placeJob e j s = modEngine e (CdcEngine.push (j.reading rd)) { s with fab := fab } := by
  obtain ⟨-, frame, inbox⟩ := pumpAll_spec (.codec e) (xferRead (j.word 1) j.srcLen j.call.saggar 5) s
  have placed : placeJob e j s = modEngine e
      (CdcEngine.push (j.reading (pumpAll (.codec e) (xferRead (j.word 1) j.srcLen j.call.saggar 5) s).1))
      (pumpAll (.codec e) (xferRead (j.word 1) j.srcLen j.call.saggar 5) s).2 := rfl
  rw [frame] at placed
  exact ⟨_, _, inbox, placed⟩

/-! ## Users of a table (R253, R256) -/

/-- The table a job codes with counts its users anew. -/
def countUser (j : CdcJob) (f : Nat → Nat) (s : State) : State :=
  if j.usesTable then setTable j.call.saggar j.table
    { s.cdcTable j.call.saggar j.table with users := f (s.cdcTable j.call.saggar j.table).users } s
  else s

theorem countUser_frame (j : CdcJob) (f : Nat → Nat) (s : State) :
    countUser j f s = { s with cdc := { s.cdc with tables := (countUser j f s).cdc.tables } } := by
  unfold countUser; split <;> rfl

theorem countUser_eng (j : CdcJob) (f : Nat → Nat) (s : State) : (countUser j f s).cdc.eng = s.cdc.eng := by
  rw [countUser_frame]

theorem cdcTable_of_tables {s t : State} (h : t.cdc.tables = s.cdc.tables) (g id : Nat) : t.cdcTable g id = s.cdcTable g id := by
  rw [State.cdcTable, h]; rfl

theorem countUser_users {j : CdcJob} (h : j.usesTable = true) (f : Nat → Nat) (s : State) :
    ((countUser j f s).cdcTable j.call.saggar j.table).users = f (s.cdcTable j.call.saggar j.table).users := by
  rw [countUser, if_pos h, cdcTable_setTable_self]

end Sys2Proof.Machine
end

section
namespace Sys2Proof.Machine

/-! ## Codec calls (R253) -/

section
variable {p : Packet} {proc : Nat} {s : State}

/-- A call that passes R349 is served. -/
theorem serveProc_of_open (hproc : callProc p = proc) (hr : s.rptRefusal p = none) (f : State → State) :
    serveProc p proc f s = f (take p s) := by
  rw [serveProc, if_neg (not_not.mpr hproc), hr]

/-- An answer sent once the request is out of the queue, where the packets are otherwise as they were. -/
theorem answered_after_take {st : Status} {data : List Byte} (hst : uncounted st = true) (hlen : data.length ≤ 512)
    (hint : Nat) {t u : State} (ht : t.fab = (take p s).fab) (hu : u = reply p st hint data t) :
    Answered p st hint data s u ∧ u = { t with fab := u.fab } := by
  have sent := replied_of_uncounted (p := p) hst hlen hint t
  rw [reply_of_uncounted hst hlen] at hu sent
  rw [← hu] at sent
  obtain ⟨q, tx, fields⟩ := sent
  refine ⟨⟨?_, q, ?_, fields⟩, ?_⟩
  · rw [hu]; exact congrArg Fab.inbox ht
  · rw [tx, ht]; rfl
  · rw [hu]; rfl

end

/-- What a job returns fits one packet (R252). -/
theorem jobResult_short (j : CdcJob) : (rptResult 0 j.result).length ≤ 512 :=
  rptResult_short (by simp only [CdcJob.result, zeros, List.length_append, natLe_length, List.length_replicate]; decide)

/-- What holds of a row's answer and of the answers of the rows below it holds of the first that applies. -/
theorem row_or_rest {α : Type} {P : α → Prop} {c : Prop} [Decidable c] {a b : α} {rest : Option α} (row : P b)
    (below : rest = some a → P a) (h : (if c then some b else rest) = some a) : P a := by
  split at h
  · cases h; exact row
  · exact below h

section
variable {s : State} {j : CdcJob} {op : Nat}

/-- No row of R253 has a status that is counted. -/
theorem jobRefusal_uncounted {st : Status} {h : Nat} (href : s.jobRefusal j op = some (st, h)) : uncounted st = true := by
  unfold State.jobRefusal at href
  dsimp only at href
  revert href
  iterate 6 refine row_or_rest (P := fun x : Status × Nat => uncounted x.1 = true) rfl ?_
  intro href
  split at href
  · cases href; rfl
  · cases href

/-- A job that no row of R253 refuses finds an engine. -/
theorem pickEngine_of_accepted (hacc : s.jobRefusal j op = none) : ∃ e, s.pickEngine j.srcLen = some e := by
  cases hp : s.pickEngine j.srcLen with
  | some e => exact ⟨e, rfl⟩
  | none =>
    unfold State.jobRefusal at hacc
    simp only [hp] at hacc
    split_ifs at hacc

end

/-- `CODEC_ENCODE` and `CODEC_DECODE` differ in the procedure and the operation. -/
theorem codecCall_completes {c : Instr} {p : Packet} {proc op : Nat} (hp : p.wf = true)
    (hc : (c = .codecEncode p ∧ proc = 0xFF4 ∧ op = 1) ∨ (c = .codecDecode p ∧ proc = 0xFF5 ∧ op = 2)) (s : State) :
    Completes c s (codecJob p proc op s) := by
  rcases hc with ⟨rfl, rfl, rfl⟩ | ⟨rfl, rfl, rfl⟩
  · exact run_ok hp rfl
  · exact run_ok hp rfl

/-- The next job's number is taken. -/
def numberJob (s : State) : State := { s with cdc := { s.cdc with nextJob := s.cdc.nextJob + 1 } }

section
variable {p : Packet} {proc op : Nat} {s : State} {j : CdcJob} (hproc : callProc p = proc) (hr : s.rptRefusal p = none)
  (hj : j = { id := s.cdc.nextJob, call := p })
include hproc hr hj

theorem codecJob_of_refused {st : Status} {h : Nat} (href : s.jobRefusal j op = some (st, h)) (hst : st ≠ .damaged) :
    codecJob p proc op s = reply p st h [] (take p s) := by
  have refused : (take p s).jobRefusal { id := (take p s).cdc.nextJob, call := p } op = some (st, h) := hj ▸ href
  rw [codecJob, serveProc_of_open hproc hr]
  dsimp only
  rw [refused]
  exact if_neg hst

theorem codecJob_of_damaged {h : Nat} (href : s.jobRefusal j op = some (.damaged, h)) :
    codecJob p proc op s = reply p .damaged 0 (rptResult 0 { j with cause := 2 }.result) (take p s) := by
  have refused : (take p s).jobRefusal { id := (take p s).cdc.nextJob, call := p } op = some (.damaged, h) := hj ▸ href
  rw [codecJob, serveProc_of_open hproc hr]
  dsimp only
  rw [refused, hj]
  rfl

theorem codecJob_of_accepted (hacc : s.jobRefusal j op = none) {e : Nat} (he : s.pickEngine j.srcLen = some e) :
    codecJob p proc op s = placeJob e j (countUser j (· + 1) (numberJob (take p s))) := by
  have accepted : (take p s).jobRefusal { id := (take p s).cdc.nextJob, call := p } op = none := hj ▸ hacc
  have picked : (countUser j (· + 1) (numberJob (take p s))).pickEngine j.srcLen = some e :=
    (pickEngine_of_eng (countUser_eng ..) _).trans he
  rw [codecJob, serveProc_of_open hproc hr]
  dsimp only
  rw [accepted]
  subst hj
  unfold countUser at picked ⊢
  dsimp only
  exact picked ▸ rfl

end
end Sys2Proof.Machine
end

section
namespace Sys2Proof.Machine

/-! ## `CODEC_BIND` and `CODEC_UNBIND` (R256) -/

/-- What a bind does with what its page reads as: nothing yet, no object, or an object that may be valid. -/
def bindRead (g id rg pg : Nat) (x : Option (Option (List Byte))) (t : State) : Option (Status × Nat) × State :=
  match x with
  | none => (none, t)
  | some none => (some (.denied, 0), t)
  | some (some o) =>
    if tableValid o then
      (some (.ok, 0), setTable g id { bound := true, region := rg, page := pg, digest := tableDigest o, users := 0 } t)
    else (some (.denied, 0), t)

section
variable {g id rg pg : Nat} {s : State}

theorem bindTable_of_range (h : id = 0 ∨ s.sagParam g 0x030C < id) : bindTable g id rg pg s = (some (.denied, 0), s) := by
  rw [bindTable]; exact if_pos h

variable (h0 : 0 < id) (hmax : id ≤ s.sagParam g 0x030C)
include h0 hmax

theorem not_outOfRange : ¬ (id = 0 ∨ s.sagParam g 0x030C < id) := by omega

theorem bindTable_of_users (hu : 0 < (s.cdcTable g id).users) : bindTable g id rg pg s = (some (.nackRetry, 14), s) := by
  rw [bindTable, if_neg (not_outOfRange h0 hmax)]
  exact if_pos hu

variable (hu : (s.cdcTable g id).users = 0)
include hu

theorem bindTable_of_no_page (hp : s.tablePage g rg pg = none) : bindTable g id rg pg s = (some (.denied, 0), s) := by
  rw [bindTable, if_neg (not_outOfRange h0 hmax), if_neg (by omega), hp]

variable {r : Region} (hp : s.tablePage g rg pg = some r) {t : State}
include hp

theorem bindTable_of_read {x : Option (Option (List Byte))} (hread : readTable r pg s = (x, t)) :
    bindTable g id rg pg s = bindRead g id rg pg x t := by
  rw [bindTable, if_neg (not_outOfRange h0 hmax), if_neg (by omega), hp]
  dsimp only
  rw [hread]
  rcases x with _ | _ | o <;> rfl

end

/-- The answer to a bind, or the request back in the queue. -/
def answerBind (p : Packet) (x : Option (Status × Nat) × State) : State :=
  match x with
  | (none, t) => wait p t
  | (some (.ok, _), t) => reply p .ok 0 (rptResult 0 []) t
  | (some (st, h), t) => reply p st h [] t

section
variable {p : Packet} {s : State} (hp : p.wf = true) (hr : s.rptRefusal p = none)
include hp hr

section
variable {id rg pg : Nat} (hproc : callProc p = 0xFF6) (hlen : 12 ≤ (callArgs p).length) (hid : id = le (callArgs p) 0 2)
  (hrg : rg = le (callArgs p) 4 4) (hpg : pg = le (callArgs p) 8 4)
include hproc hlen hid hrg hpg

/-- A bind of an ID is answered as the directory decides. -/
theorem codecBind_completes {x : Option (Status × Nat) × State} (hx : bindTable p.saggar id rg pg (take p s) = x) :
    Completes (.codecBind p) s (answerBind p x) := by
  subst hid hrg hpg hx
  refine run_ok hp ?_
  rw [serveProc_of_open hproc hr]
  exact if_neg (by omega)

/-- A bind of an ID without users to a page of the saggar is answered as the page reads. -/
theorem codecBind_of_read (h0 : 0 < id) (hmax : id ≤ s.sagParam p.saggar 0x030C) (hu : (s.cdcTable p.saggar id).users = 0)
    {r : Region} (hpage : s.tablePage p.saggar rg pg = some r) {x : Option (Option (List Byte))} {t : State}
    (hread : readTable r pg (take p s) = (x, t)) :
    Completes (.codecBind p) s (answerBind p (bindRead p.saggar id rg pg x t)) :=
  codecBind_completes hp hr hproc hlen hid hrg hpg (bindTable_of_read (s := take p s) h0 hmax hu hpage hread)

end

variable {id : Nat} (hproc : callProc p = 0xFF7) (hlen : 2 ≤ (callArgs p).length) (hid : id = le (callArgs p) 0 2) (h0 : 0 < id)
  (hmax : id ≤ s.sagParam p.saggar 0x030C)
include hproc hlen hid h0 hmax

theorem codecUnbind_completes : Completes (.codecUnbind p) s
    (if 0 < (s.cdcTable p.saggar id).users then reply p .nackRetry 14 [] (take p s)
      else reply p .ok 0 (rptResult 0 [])
        { take p s with cdc := { s.cdc with tables := aerase s.cdc.tables (p.saggar, id) } }) := by
  subst hid
  have served : ¬ ((callArgs p).length < 2 ∨ le (callArgs p) 0 2 = 0
      ∨ (take p s).sagParam p.saggar 0x030C < le (callArgs p) 0 2) := by
    have max : le (callArgs p) 0 2 ≤ (take p s).sagParam p.saggar 0x030C := hmax
    omega
  refine run_ok hp ?_
  rw [serveProc_of_open hproc hr]
  exact if_neg served

end

/-- The directory after an entry of it is erased. -/
theorem cdcTable_erased {s t : State} {g id : Nat} (h : t.cdc.tables = aerase s.cdc.tables (g, id)) :
    t.cdcTable g id = {} ∧ ∀ a k, (a, k) ≠ (g, id) → t.cdcTable a k = s.cdcTable a k := by
  unfold State.cdcTable
  rw [h]
  exact ⟨(aget_aerase ..).trans (if_pos rfl), fun a k hne => (aget_aerase ..).trans (if_neg hne.symm)⟩

end Sys2Proof.Machine
end

section
namespace Sys2Proof.Machine

/-! ## Jobs that start (R254 to R257, R264) -/

/-- The queue of an engine with its front changed. -/
def setFront (e : Nat) (j : CdcJob) (rest : List CdcJob) (s : State) : State :=
  modEngine e (fun x => { x with queue := j :: rest }) s

theorem setFront_spec {e : Nat} {j : CdcJob} {rest : List CdcJob} {s t : State} (h : t.cdc.eng = s.cdc.eng) :
    ((setFront e j rest t).engine e).queue = j :: rest ∧ ∀ k, k ≠ e → (setFront e j rest t).engine k = s.engine k :=
  ⟨by rw [setFront, engine_modEngine_self], fun k hk => (engine_modEngine_ne hk ..).trans (engine_of_eng h k)⟩

/-- A job that has run has the same call. -/
theorem runJob_call (j : CdcJob) (tab : Except Nat (List Byte)) (s : State) : (runJob j tab s).2.1.call = j.call := by
  unfold runJob
  dsimp only
  split
  · split <;> rfl
  · rfl

/-- A job runs on its source and table; only free values are drawn. -/
theorem runJob_cdc (j : CdcJob) (tab : Except Nat (List Byte)) (s : State) : (runJob j tab s).2.2.cdc = s.cdc := by
  unfold runJob
  dsimp only
  split
  · split <;> rfl
  · rfl

/-- The engine's count of the bytes a job has coded or decoded. -/
def countCoded (e : Nat) (j : CdcJob) (s : State) : State :=
  bumpCtr (if j.op = 1 then ctrCdcEnc e else ctrCdcDec e) j.rawBytes s

/-- The write of a job's output begins. -/
def writeOut (e : Nat) (out : List Byte) (j : CdcJob) (s : State) : Xfer × State :=
  pumpAll (.codec e) (xferWrite (j.word 2) out j.call.saggar 5) (countCoded e j s)

theorem codecJobStart_completes {e : Nat} (he : e < 8) (s : State) : Completes (.codecJobStart e) s (jobStart e s) :=
  run_ok (decide_eq_true he) rfl

section
variable {e : Nat} {j : CdcJob} {rest : List CdcJob} {s : State} (hq : (s.engine e).queue = j :: rest)
include hq

theorem jobStart_of_held (h : (s.engine e).fence.on = true ∨ j.started = true ∨ j.rd.ended = false) : jobStart e s = s := by
  unfold jobStart
  rw [hq]
  dsimp only
  rw [if_pos (by simpa using h)]

variable (hf : (s.engine e).fence.on = false) (hs : j.started = false) (hr : j.rd.ended = true)
include hf hs hr

theorem jobStart_of_failed {c : Nat} (hc : j.rd.failed = some c) : jobStart e s = setFront e
    { j with started := true, status := failStatus c } rest (when_ (c = Status.poison.code) (bumpSat (satCdcPoisonIn e)) s) := by
  unfold jobStart
  rw [hq]
  dsimp only
  rw [if_neg (by simp [hf, hs, hr]), hc]
  rfl

variable (hc : j.rd.failed = none) {t : State}
include hc

theorem jobStart_of_no_table (ht : jobTable j s = (none, t)) : jobStart e s = t := by
  unfold jobStart
  rw [hq]
  dsimp only
  rw [if_neg (by simp [hf, hs, hr]), hc]
  dsimp only
  rw [ht]

theorem jobStart_runs {tab : Except Nat (List Byte)} {out : List Byte} {j' : CdcJob} {v : State}
    (ht : jobTable j s = (some tab, t)) (hrun : runJob j tab t = (out, j', v)) : jobStart e s = setFront e
      { j' with started := true, wr := some (writeOut e out j' v).1 } rest (writeOut e out j' v).2 := by
  unfold jobStart
  rw [hq]
  dsimp only
  rw [if_neg (by simp [hf, hs, hr]), hc]
  dsimp only
  rw [ht]
  dsimp only
  rw [hrun]
  rfl

end

/-- The write of an output goes to the destination the call names. -/
theorem writeOut_spec (e : Nat) (out : List Byte) (j : CdcJob) (s : State) :
    (writeOut e out j s).1.write = true ∧ (writeOut e out j s).1.data = out ∧ (writeOut e out j s).1.node = addrNode (j.word 2)
      ∧ (writeOut e out j s).1.off = addrOff (j.word 2) ∧ (writeOut e out j s).2.cdc = s.cdc := by
  obtain ⟨⟨tags, next, same⟩, frame, -⟩ := pumpAll_spec (.codec e) (xferWrite (j.word 2) out j.call.saggar 5) (countCoded e j s)
  unfold writeOut
  rw [same, frame]
  exact ⟨rfl, rfl, rfl, rfl, rfl⟩

/-- A failed source that came poisoned is counted, and no engine is touched. -/
theorem countPoisoned_eng (e c : Nat) (s : State) :
    (when_ (c = Status.poison.code) (bumpSat (satCdcPoisonIn e)) s).cdc.eng = s.cdc.eng := by
  unfold when_
  split
  · rw [bumpSat_frame]
  · rfl

end Sys2Proof.Machine
end

section
namespace Sys2Proof.Machine

/-! ## Jobs that end (R252, R256, R263, R265) -/

/-- A damaged block found is counted and logged. -/
theorem noteDamaged_frame (e g block cause table : Nat) (s : State) : noteDamaged e g block cause table s
    = { s with sat := (bumpSatRaw (satCdcDamaged e) s).sat, log := (noteDamaged e g block cause table s).log } := by
  unfold noteDamaged
  rw [logEvent_apart, bumpSat_frame]

theorem noteDamaged_satVal (e g block cause table : Nat) (s : State) :
    (noteDamaged e g block cause table s).satVal (satCdcDamaged e)
      = satAdd (satWidth (satCdcDamaged e)) (s.satVal (satCdcDamaged e)) 1 :=
  (satVal_of_sat (logEvent_sat ..) _).trans (satVal_bumpSat ..)

/-- A job has left its engine, and its table has one user less. -/
def leaveEngine (e : Nat) (j : CdcJob) (rest : List CdcJob) (s : State) : State :=
  modEngine e (fun x => { x with queue := rest }) (countUser j (· - 1) s)

/-- A job that ends has left its engine and its table; a damaged block a decode met is counted and logged. -/
def endCodecJob (e : Nat) (j : CdcJob) (rest : List CdcJob) (s : State) : State :=
  when_ (j.op = 2 && j.status = .damaged) (noteDamaged e j.call.saggar j.firstBad j.cause j.table) (leaveEngine e j rest s)

/-- The answer to a job whose output is written, or that has none (R252). -/
def answerJob (j : CdcJob) (s : State) : State :=
  match j.wr.bind (·.failed) with
  | some c => reply j.call (failStatus c) 0 [] s
  | none =>
    if j.status = .ok ∨ j.status = .damaged then reply j.call j.status 0 (rptResult 0 j.result) s
    else reply j.call j.status 0 [] s

section
variable {j : CdcJob} (s : State)

theorem answerJob_of_failed {c : Nat} (h : j.wr.bind (·.failed) = some c) :
    answerJob j s = reply j.call (failStatus c) 0 [] s := by
  rw [answerJob, h]

theorem answerJob_of_result (h : j.wr.bind (·.failed) = none) (hst : j.status = .ok ∨ j.status = .damaged) :
    answerJob j s = reply j.call j.status 0 (rptResult 0 j.result) s := by
  rw [answerJob, h]
  exact if_pos hst

theorem answerJob_of_refused (h : j.wr.bind (·.failed) = none) (hok : j.status ≠ .ok) (hdam : j.status ≠ .damaged) :
    answerJob j s = reply j.call j.status 0 [] s := by
  rw [answerJob, h]
  exact if_neg (not_or.mpr ⟨hok, hdam⟩)

end

section
variable (e : Nat) (j : CdcJob) (rest : List CdcJob) (s : State)

theorem leaveEngine_frame : leaveEngine e j rest s = { s with cdc := (leaveEngine e j rest s).cdc } := by
  unfold leaveEngine
  rw [countUser_frame]
  rfl

theorem endCodecJob_frame : endCodecJob e j rest s = { leaveEngine e j rest s with
    log := (endCodecJob e j rest s).log, sat := (endCodecJob e j rest s).sat } := by
  unfold endCodecJob when_
  split
  · rw [noteDamaged_frame]
  · rfl

theorem endCodecJob_fab : (endCodecJob e j rest s).fab = s.fab := by
  rw [endCodecJob_frame, leaveEngine_frame]

theorem endCodecJob_queue : ((endCodecJob e j rest s).engine e).queue = rest := by
  rw [endCodecJob_frame]
  exact congrArg CdcEngine.queue (engine_modEngine_self e _ _)

theorem endCodecJob_engine_ne {k : Nat} (hk : k ≠ e) : (endCodecJob e j rest s).engine k = s.engine k := by
  rw [endCodecJob_frame]
  exact (engine_modEngine_ne hk ..).trans (engine_of_eng (countUser_eng ..) k)

theorem endCodecJob_users (h : j.usesTable = true) : ((endCodecJob e j rest s).cdcTable j.call.saggar j.table).users
    = (s.cdcTable j.call.saggar j.table).users - 1 := by
  rw [endCodecJob_frame]
  exact countUser_users h (· - 1) s

end

theorem codecJobComplete_completes {e : Nat} (he : e < 8) (s : State) :
    Completes (.codecJobComplete e) s (jobComplete e s) :=
  run_ok (decide_eq_true he) rfl

section
variable {e : Nat} {j : CdcJob} {rest : List CdcJob} {s : State} (hq : (s.engine e).queue = j :: rest)
include hq

theorem jobComplete_of_unstarted (hs : j.started = false) : jobComplete e s = s := by
  unfold jobComplete
  rw [hq]
  dsimp only
  rw [if_pos (by simp [hs])]

/-- The end of a job whose output is written, or that has none: its answer follows. -/
theorem jobComplete_of_ended (hs : j.started = true) (hw : ∀ w, j.wr = some w → w.ended = true) :
    jobComplete e s = answerJob j (endCodecJob e j rest s) := by
  unfold jobComplete answerJob
  rw [hq]
  dsimp only
  cases h : j.wr with
  | none => rw [if_neg (by simp [hs])]; rfl
  | some w => rw [if_neg (by simp [hs, hw w h])]; rfl

end

section
variable {e : Nat} {j : CdcJob} (rest : List CdcJob) (s : State)

/-- A job that ended well is neither counted nor logged. -/
theorem endCodecJob_quiet (h : j.status = .ok) :
    (endCodecJob e j rest s).log = s.log ∧ (endCodecJob e j rest s).sat = s.sat := by
  have quiet : endCodecJob e j rest s = leaveEngine e j rest s := if_neg (by simp [h])
  rw [quiet, leaveEngine_frame]
  exact ⟨rfl, rfl⟩

/-- A decode that met a damaged block raises the engine's count of them. -/
theorem endCodecJob_counts (hop : j.op = 2) (hdam : j.status = .damaged) :
    (endCodecJob e j rest s).satVal (satCdcDamaged e)
      = satAdd (satWidth (satCdcDamaged e)) (s.satVal (satCdcDamaged e)) 1 := by
  have counted : endCodecJob e j rest s
      = noteDamaged e j.call.saggar j.firstBad j.cause j.table (leaveEngine e j rest s) := if_pos (by simp [hop, hdam])
  rw [counted, noteDamaged_satVal, leaveEngine_frame]
  rfl

end

/-- An answer without data, of whatever status, leaves the codec as it is. -/
theorem replied_short {p : Packet} {st : Status} {hint : Nat} {s t : State} (ht : t.fab = s.fab) :
    Replied p st hint [] s (reply p st hint [] t) ∧ (reply p st hint [] t).cdc = t.cdc := by
  have sent := reply_apart p st hint t
  have tx : (reply p st hint [] t).fab.tx = s.fab.tx ++ [stampPkt (mkAnswer p st hint [] (countAnswer st t))] := by
    rw [sent, ← ht]; rfl
  exact ⟨⟨_, tx, rfl, rfl, rfl, rfl, rfl, rfl, rfl, rfl⟩, by rw [sent]; rfl⟩

/-- What an ended job's result leaves: the answer, and nothing else changed. -/
theorem replied_result {p : Packet} {st : Status} {data : List Byte} (hst : uncounted st = true) (hlen : data.length ≤ 512)
    {hint : Nat} {s t : State} (ht : t.fab = s.fab) :
    Replied p st hint data s (reply p st hint data t)
      ∧ reply p st hint data t = { t with fab := (reply p st hint data t).fab } := by
  obtain ⟨q, tx, fields⟩ := replied_of_uncounted (p := p) hst hlen hint t
  exact ⟨⟨q, tx.trans (congrArg (·.tx ++ _) ht), fields⟩, by rw [reply_of_uncounted hst hlen]; rfl⟩

end Sys2Proof.Machine
end

section
namespace Sys2Proof.Machine

/-! ## Fences of engines (R268, R597) -/

/-- A job waits for an engine, or stands in the queue of one that is not `e`. -/
def State.keepsJob (s : State) (e : Nat) (j : CdcJob) : Prop :=
  (∃ x ∈ s.cdc.homeless, x.id = j.id ∧ x.call = j.call) ∨ ∃ k, k ≠ e ∧ ∃ x ∈ (s.engine k).queue, x.id = j.id ∧ x.call = j.call

/-- A job that waited goes to an engine with room. -/
def houseJob (k : Nat) (j : CdcJob) (s : State) : State :=
  placeJob k j { s with cdc := { s.cdc with homeless := s.cdc.homeless.erase j } }

theorem houseJob_spec (k : Nat) (j : CdcJob) (s : State) : (houseJob k j s).out = s.out
    ∧ (houseJob k j s).cdc.homeless = s.cdc.homeless.erase j
    ∧ (∃ rd, (houseJob k j s).engine k = (s.engine k).push (j.reading rd))
    ∧ ∀ i, i ≠ k → (houseJob k j s).engine i = s.engine i := by
  obtain ⟨rd, fab, -, placed⟩ := placeJob_spec k j { s with cdc := { s.cdc with homeless := s.cdc.homeless.erase j } }
  unfold houseJob
  rw [placed]
  exact ⟨rfl, rfl, ⟨rd, engine_modEngine_self ..⟩, fun i hi => engine_modEngine_ne hi ..⟩

/-- A job that is placed on another engine is not lost, nor is any other. -/
theorem keepsJob_houseJob {e k : Nat} (hk : k ≠ e) (a : CdcJob) {s : State} {j : CdcJob} (h : s.keepsJob e j) :
    (houseJob k a s).keepsJob e j := by
  obtain ⟨-, homeless, ⟨rd, front⟩, others⟩ := houseJob_spec k a s
  rcases h with ⟨x, hx, same⟩ | ⟨i, hi, x, hx, same⟩
  · by_cases hxa : x = a
    · refine .inr ⟨k, hk, a.reading rd, ?_, hxa ▸ same⟩
      rw [front]
      exact List.mem_append_right _ List.mem_cons_self
    · refine .inl ⟨x, ?_, same⟩
      rw [homeless]
      exact (List.mem_erase_of_ne hxa).mpr hx
  · refine .inr ⟨i, hi, x, ?_, same⟩
    by_cases hik : i = k
    · subst hik
      rw [front]
      exact List.mem_append_left _ hx
    · rw [others i hik]; exact hx

/-- A fenced engine stays as it is, with the answer sent and no job lost. -/
structure FencedAt (e : Nat) (x : CdcEngine) (o : Out) (jobs : List CdcJob) (s : State) : Prop where
  engine : s.engine e = x
  answer : o ∈ s.out
  kept : ∀ j ∈ jobs, s.keepsJob e j

theorem placeHomeless_keeps {e : Nat} {x : CdcEngine} (hx : x.fence.on = true) {o : Out} {jobs : List CdcJob} {s : State}
    (h : FencedAt e x o jobs s) : FencedAt e x o jobs (placeHomeless s) := by
  refine forEach_keeps (P := FencedAt e x o jobs) (fun a s h => ?_) _ h
  dsimp only
  split
  next k hk =>
    have ne : k ≠ e := fun hke => by
      have unfenced := fence_of_pickEngine hk
      rw [hke, h.engine, hx] at unfenced
      cases unfenced
    obtain ⟨out, -, -, others⟩ := houseJob_spec k a s
    show FencedAt e x o jobs (houseJob k a s)
    exact ⟨(others e ne.symm).trans h.engine, by rw [out]; exact h.answer, fun j hj => keepsJob_houseJob ne a (h.kept j hj)⟩
  next => exact h

/-- A fenced engine whose jobs wait for another, unstarted. -/
def emptyEngine (e cause : Nat) (s : State) : State := { s with
  fab := { s.fab with outst := s.fab.outst.filter (fun r => r.req ≠ .codec e) }
  cdc := { s.cdc with
    eng := amod s.cdc.eng e {} (fun _ => { fence := { on := true, cause := cause }, queue := [] })
    homeless := s.cdc.homeless ++ (s.engine e).queue.map CdcJob.fresh } }

theorem fenceEngine_eq (e cause : Nat) (s : State) : fenceEngine e cause s = placeHomeless (emptyEngine e cause s) := rfl

/-- A fence empties the engine, and every job of its queue waits for an engine or stands in another queue. -/
theorem fenceEngine_spec (e cause : Nat) {o : Out} {s : State} (ho : o ∈ s.out) :
    FencedAt e { fence := { on := true, cause := cause }, queue := [] } o (s.engine e).queue (fenceEngine e cause s) := by
  have emptied : (emptyEngine e cause s).engine e = { fence := { on := true, cause := cause }, queue := [] } :=
    aget_amod_self s.cdc.eng e {} (fun _ => { fence := { on := true, cause := cause }, queue := [] })
  rw [fenceEngine_eq]
  refine placeHomeless_keeps rfl ⟨emptied, ho, fun j hj => .inl ⟨j.fresh, ?_, rfl, rfl⟩⟩
  exact List.mem_append_right _ (List.mem_map_of_mem hj)

/-- With no job that waits, none is placed. -/
theorem placeHomeless_of_none {s : State} (h : s.cdc.homeless = []) : placeHomeless s = s := by
  rw [placeHomeless, h]; rfl

section
variable {who : Who} {e : Nat} (hw : who.wf = true) (he : e < 8) {s : State} (hgate : s.csrGate who (cdcCtrl e) true = none)
include hw he hgate

theorem cdcFence_completes : Completes (.cdcFence who e) s (fenceEngine e (fenceCauseOf who) (answerCsr who (cdcCtrl e) .ok 0 s)) :=
  run_ok (by rw [hw, decide_eq_true he]; rfl) (ctlWrite_of_open hgate)

theorem cdcUnfence_of_denied (hlift : liftsFence who = false) :
    Completes (.cdcUnfence who e) s (answerCsr who (cdcCtrl e) .denied 0 s) :=
  run_ok (by rw [hw, decide_eq_true he]; rfl) (by rw [hlift, ctlWrite_of_not_allowed hgate])

theorem cdcUnfence_of_lifted (hlift : liftsFence who = true) (hnone : s.cdc.homeless = []) : Completes (.cdcUnfence who e) s
    (modEngine e (fun x => { x with fence := {} }) (answerCsr who (cdcCtrl e) .ok 0 s)) := by
  refine run_ok (by rw [hw, decide_eq_true he]; rfl) ?_
  rw [hlift, ctlWrite_of_open hgate, placeHomeless_of_none]
  rw [answerCsr_ok_frame]
  exact hnone

end
end Sys2Proof.Machine
end

section
namespace Sys2Proof.Machine

/-! ## Codec jobs, table IDs and engines -/

/-- What an accepted call leaves: the job last on its engine, and its table with one user more. -/
theorem accepted_spec {p : Packet} {s u : State} {e : Nat} {j : CdcJob} (hj : j = { id := s.cdc.nextJob, call := p })
    (hu : u = placeJob e j (countUser j (· + 1) (numberJob (take p s)))) :
    ∃ x, (u.engine e).queue = (s.engine e).queue ++ [x] ∧ x.id = s.cdc.nextJob ∧ x.call = p ∧ x.started = false ∧ x.wr = none
      ∧ (∀ k, k ≠ e → u.engine k = s.engine k) ∧ u.cdc.nextJob = s.cdc.nextJob + 1
      ∧ (j.usesTable = true → (u.cdcTable p.saggar j.table).users = (s.cdcTable p.saggar j.table).users + 1)
      ∧ u.fab.inbox = s.fab.inbox.erase p ∧ u = { s with fab := u.fab, cdc := u.cdc } := by
  obtain ⟨rd, fab, inbox, placed⟩ := placeJob_spec e j (countUser j (· + 1) (numberJob (take p s)))
  have frame := countUser_frame j (· + 1) (numberJob (take p s))
  have users := fun h => countUser_users (j := j) h (· + 1) (numberJob (take p s))
  have engines := fun k => engine_of_eng (countUser_eng j (· + 1) (numberJob (take p s))) k
  have call : j.call = p := by rw [hj]
  rw [call] at users
  generalize countUser j (· + 1) (numberJob (take p s)) = t at *
  rw [placed] at hu
  subst hu
  refine ⟨j.reading rd, ?_, ?_, call, rfl, rfl, fun k hk => ?_, ?_, users, ?_, ?_⟩
  · rw [engine_modEngine_self]
    exact congrArg (·.queue ++ [j.reading rd]) (engines e)
  · rw [hj]; rfl
  · exact (engine_modEngine_ne hk ..).trans (engines k)
  · rw [frame]; rfl
  · rw [frame] at inbox; exact inbox
  · rw [frame]; rfl

/-- Settles O39: calls by what R253 answers, binds by what the page reads as, jobs by where they stand, and fences by
what placing the waiting jobs keeps. -/
theorem codecJobs : Obligations.CodecJobs := by
  intro s p hp
  refine ⟨fun c proc op j hr hproc hc hj => ⟨fun st h href hst => ?_, fun h href => ?_, fun hacc => ?_⟩,
    fun id rg pg hr hproc hlen hid hrg hpg => ⟨fun hout => ?_, fun h0 hmax hu => ?_, fun h0 hmax hu => ⟨fun hpage => ?_,
      fun r x s' hpage hread => ⟨fun hx => ?_, fun hx => ?_, fun o hx hvalid => ?_⟩⟩⟩,
    fun id hr hproc hlen hid h0 hmax => ⟨fun hu => ?_, fun hu => ?_⟩,
    fun e j rest he hq => ⟨fun hf hs hrd => ⟨fun c hc => ?_, fun s' hc htab => ?_, fun tab s' out j' s'' hc htab hrun => ?_⟩,
      fun hheld => ?_, fun w hs hw hended => ⟨fun hok hst => ?_, fun c hc => ?_⟩, fun hs hw hok hdam => ?_, fun hs => ?_⟩,
    fun who e hw he hgate => ⟨?_, fun hlift hnone => ?_, fun hlift => ?_⟩⟩
  · have completes := codecCall_completes hp hc s
    rw [codecJob_of_refused hproc hr hj href hst] at completes
    exact effect_of completes (answered_take (jobRefusal_uncounted href) (Nat.zero_le _) _ rfl)
  · have completes := codecCall_completes hp hc s
    rw [codecJob_of_damaged hproc hr hj href] at completes
    exact effect_of completes (answered_take rfl (jobResult_short _) _ rfl)
  · have completes := codecCall_completes hp hc s
    obtain ⟨e, he⟩ := pickEngine_of_accepted hacc
    rw [codecJob_of_accepted hproc hr hj hacc he] at completes
    obtain ⟨x, placed⟩ := accepted_spec (e := e) hj rfl
    exact effect_of completes ⟨e, x, he, placed⟩
  · exact effect_of (codecBind_completes hp hr hproc hlen hid hrg hpg (bindTable_of_range (s := take p s) hout))
      (answered_take rfl (Nat.zero_le _) _ rfl)
  · exact effect_of (codecBind_completes hp hr hproc hlen hid hrg hpg (bindTable_of_users (s := take p s) h0 hmax hu))
      (answered_take rfl (Nat.zero_le _) _ rfl)
  · exact effect_of (codecBind_completes hp hr hproc hlen hid hrg hpg (bindTable_of_no_page (s := take p s) h0 hmax hu hpage))
      (answered_take rfl (Nat.zero_le _) _ rfl)
  · have completes := codecBind_of_read hp hr hproc hlen hid hrg hpg h0 hmax hu hpage hread
    rw [hx] at completes
    exact completes
  · have completes := codecBind_of_read hp hr hproc hlen hid hrg hpg h0 hmax hu hpage hread
    have refused : bindRead p.saggar id rg pg x s' = (some (.denied, 0), s') := by
      rcases hx with rfl | ⟨o, rfl, hvalid⟩
      · rfl
      · exact if_neg (by rw [hvalid]; decide)
    rw [refused] at completes
    exact effect_of completes
      (answered_after_take rfl (Nat.zero_le _) _ (PoolApart.of_eq hread (readTable_apart ..)).fab rfl)
  · have completes := codecBind_of_read hp hr hproc hlen hid hrg hpg h0 hmax hu hpage hread
    have bound : bindRead p.saggar id rg pg x s' = (some (.ok, 0), setTable p.saggar id
        { bound := true, region := rg, page := pg, digest := tableDigest o, users := 0 } s') := by
      rw [hx]; exact if_pos hvalid
    have pool := PoolApart.of_eq hread (readTable_apart ..)
    obtain ⟨answered, frame⟩ := answered_after_take (p := p) (s := s) (st := .ok) rfl rptResult_nil_short 0
      (t := setTable p.saggar id { bound := true, region := rg, page := pg, digest := tableDigest o, users := 0 } s')
      pool.fab rfl
    rw [bound] at completes
    refine effect_of completes ⟨answered, ?_, ?_, fun g k hne => ?_, ?_⟩
    · exact frame.trans rfl
    · exact (cdcTable_of_tables (congrArg (·.cdc.tables) frame) ..).trans (cdcTable_setTable_self ..)
    · exact (cdcTable_of_tables (congrArg (·.cdc.tables) frame) ..).trans
        ((cdcTable_setTable_ne hne ..).trans (cdcTable_of_tables (congrArg Cdc.tables pool.cdc) ..))
    · exact (congrArg (·.cdc.eng) frame).trans (congrArg Cdc.eng pool.cdc)
  · have completes := codecUnbind_completes hp hr hproc hlen hid h0 hmax
    rw [if_pos hu] at completes
    exact effect_of completes (answered_take rfl (Nat.zero_le _) _ rfl)
  · have completes := codecUnbind_completes hp hr hproc hlen hid h0 hmax
    rw [if_neg (by omega)] at completes
    obtain ⟨answered, frame⟩ := answered_after_take (p := p) (s := s) (st := .ok) rfl rptResult_nil_short 0
      (t := { take p s with cdc := { s.cdc with tables := aerase s.cdc.tables (p.saggar, id) } }) rfl rfl
    obtain ⟨unbound, others⟩ := cdcTable_erased (congrArg (·.cdc.tables) frame)
    exact effect_of completes ⟨answered, by rw [frame]; rfl, unbound, others, by rw [frame]⟩
  · have completes := codecJobStart_completes he s
    rw [jobStart_of_failed hq hf hs hrd hc] at completes
    exact effect_of completes (setFront_spec (countPoisoned_eng e c s))
  · have completes := codecJobStart_completes he s
    rwa [jobStart_of_no_table hq hf hs hrd hc htab] at completes
  · have completes := codecJobStart_completes he s
    rw [jobStart_runs hq hf hs hrd hc htab hrun] at completes
    have call : j'.call = j.call := by
      have same := runJob_call j tab s'
      rwa [hrun] at same
    have engines : s''.cdc.eng = s.cdc.eng := by
      have ran := congrArg Cdc.eng (runJob_cdc j tab s')
      have found := jobTable_eng j s
      rw [hrun] at ran
      rw [htab] at found
      exact ran.trans found
    obtain ⟨write, data, node, off, cdc⟩ := writeOut_spec e out j' s''
    obtain ⟨front, others⟩ := setFront_spec (e := e) (rest := rest)
      (j := { j' with started := true, wr := some (writeOut e out j' s'').1 }) ((congrArg Cdc.eng cdc).trans engines)
    have word : j'.word 2 = j.word 2 := by rw [CdcJob.word, call]; rfl
    rw [word] at node off
    exact effect_of completes ⟨⟨_, front, write, data, node, off⟩, others⟩
  · have completes := codecJobStart_completes he s
    rwa [jobStart_of_held hq hheld] at completes
  · have completes := codecJobComplete_completes he s
    rw [jobComplete_of_ended hq hs (by rw [hw]; rintro _ ⟨⟩; exact hended),
      answerJob_of_result _ (by rw [hw]; exact hok) hst] at completes
    have left := endCodecJob_frame e j rest s
    rw [leaveEngine_frame] at left
    obtain ⟨replied, frame⟩ := replied_result (p := j.call) (st := j.status) (hint := 0)
      (by rcases hst with h | h <;> rw [h] <;> rfl) (jobResult_short j) (congrArg State.fab left)
    refine effect_of completes ⟨replied, ?_, fun huse => ?_, fun k hk => ?_, ?_, fun h => ?_, fun hdam hop => ?_⟩
    · rw [frame]; exact endCodecJob_queue ..
    · rw [frame]; exact endCodecJob_users e j rest s huse
    · rw [frame]; exact endCodecJob_engine_ne e j rest s hk
    · rw [frame, left]
    · rw [frame]; exact endCodecJob_quiet rest s h
    · rw [frame]; exact endCodecJob_counts rest s hop hdam
  · have completes := codecJobComplete_completes he s
    rw [jobComplete_of_ended hq hs (by rw [hw]; rintro _ ⟨⟩; exact hended),
      answerJob_of_failed _ (by rw [hw]; exact hc)] at completes
    obtain ⟨replied, cdc⟩ := replied_short (p := j.call) (st := failStatus c) (hint := 0) (endCodecJob_fab e j rest s)
    refine effect_of completes ⟨replied, ?_⟩
    rw [engine_of_eng (congrArg Cdc.eng cdc)]
    exact endCodecJob_queue ..
  · have completes := codecJobComplete_completes he s
    rw [jobComplete_of_ended hq hs (by rw [hw]; rintro _ ⟨⟩),
      answerJob_of_refused _ (by rw [hw]; rfl) hok hdam] at completes
    obtain ⟨replied, cdc⟩ := replied_short (p := j.call) (st := j.status) (hint := 0) (endCodecJob_fab e j rest s)
    refine effect_of completes ⟨replied, ?_⟩
    rw [engine_of_eng (congrArg Cdc.eng cdc)]
    exact endCodecJob_queue ..
  · have completes := codecJobComplete_completes he s
    rwa [jobComplete_of_unstarted hq hs] at completes
  · have sent := answerCsr_ok_out who (cdcCtrl e) 0 s
    have engines : (answerCsr who (cdcCtrl e) .ok 0 s).engine e = s.engine e := by rw [answerCsr_ok_frame]; rfl
    obtain ⟨fenced, answer, kept⟩ := fenceEngine_spec e (fenceCauseOf who) sent
    rw [engines] at kept
    exact effect_of (cdcFence_completes hw he hgate) ⟨fenced, answer, kept⟩
  · exact cdcUnfence_of_lifted hw he hgate hlift hnone
  · exact cdcUnfence_of_denied hw he hgate hlift

end Sys2Proof.Machine
end

section
namespace Sys2Proof.Machine

/-! ## Lists whose elements come in another order -/

/-- Where at most one element meets a condition, what is found does not depend on the order. -/
theorem find?_of_perm {α : Type} {l m : List α} (h : l.Perm m) {f : α → Bool}
    (one : ∀ a ∈ l, ∀ b ∈ l, f a = true → f b = true → a = b) : l.find? f = m.find? f := by
  cases hl : l.find? f with
  | none =>
    rw [List.find?_eq_none] at hl
    exact (List.find?_eq_none.mpr fun a ha => hl a (h.mem_iff.mpr ha)).symm
  | some a =>
    have ham := List.mem_of_find?_eq_some hl
    have hfa := List.find?_some hl
    obtain ⟨b, hb⟩ := Option.isSome_iff_exists.mp (List.find?_isSome.mpr ⟨a, h.mem_iff.mp ham, hfa⟩)
    rw [hb, one a ham b (h.mem_iff.mpr (List.mem_of_find?_eq_some hb)) hfa (List.find?_some hb)]

theorem nodup_eraseDups {α : Type} [DecidableEq α] : ∀ l : List α, l.eraseDups.Nodup
  | [] => by simp
  | a :: l => by
    rw [List.eraseDups_cons, List.nodup_cons]
    exact ⟨by simp [List.mem_eraseDups], nodup_eraseDups _⟩
termination_by l => l.length
decreasing_by exact Nat.lt_succ_of_le (List.length_filter_le ..)

theorem eraseDups_perm {α : Type} [DecidableEq α] {l m : List α} (h : l.Perm m) : l.eraseDups.Perm m.eraseDups :=
  (List.perm_ext_iff_of_nodup (nodup_eraseDups l) (nodup_eraseDups m)).mpr fun a => by
    rw [List.mem_eraseDups, List.mem_eraseDups, h.mem_iff]

theorem insertAsc_eq (a : Nat) (l : List Nat) : insertAsc a l = l.orderedInsert (· ≤ ·) a := by
  induction l with
  | nil => rfl
  | cons b r ih => rw [insertAsc, List.orderedInsert_cons, ih]

theorem ascend_eq (l : List Nat) : ascend l = l.insertionSort (· ≤ ·) := by
  rw [ascend, funext fun a => funext (insertAsc_eq a)]
  rfl

/-- Ascending order forgets the order before. -/
theorem ascend_of_perm {l m : List Nat} (h : l.Perm m) : ascend l = ascend m := by
  rw [ascend_eq, ascend_eq]
  exact ((List.perm_insertionSort _ l).trans (h.trans (List.perm_insertionSort _ m).symm)).eq_of_pairwise'
    (List.pairwise_insertionSort _ l) (List.pairwise_insertionSort _ m)

/-! ## A collective whose packets came in another order (R284 to R290) -/

section
variable {c : Coll} {got : List PugPkt} (h : c.got.Perm got)
include h

theorem labels_of_perm (head : Nat) : (c.labels head).Perm (({ c with got := got } : Coll).labels head) :=
  eraseDups_perm ((h.filter _).map _)

section
variable (one : ∀ p ∈ c.got, ∀ q ∈ c.got, p.pos = q.pos ∧ p.label = q.label ∧ p.slice = q.slice → p = q)
include one

theorem block_of_perm (head label : Nat) : ({ c with got := got } : Coll).block head label = c.block head label := by
  have found : ∀ k, c.got.find? (fun p => p.pos = head && p.label = label && p.slice = k)
      = got.find? (fun p => p.pos = head && p.label = label && p.slice = k) := fun k => by
    refine find?_of_perm h fun p hp q hq hfp hfq => one p hp q hq ?_
    simp only [Bool.and_eq_true, decide_eq_true_eq] at hfp hfq
    omega
  simp only [Coll.block, found]

theorem mergeHead_of_perm (head : Nat) : ({ c with got := got } : Coll).mergeHead head = c.mergeHead head := by
  have blocks : ({ c with got := got } : Coll).block head = c.block head := funext (block_of_perm h one head)
  simp only [Coll.mergeHead, blocks, ascend_of_perm (labels_of_perm h head)]

end

/-- What a position has sent is found whatever came before it (R290). -/
theorem posFound_of_perm (one : ∀ p ∈ c.got, ∀ q ∈ c.got,
      p.empty = false ∧ q.empty = false ∧ p.partial_ = q.partial_ ∧ p.pos = q.pos → p = q) (k : Bool × Nat) :
    got.find? (fun p => (p.partial_, p.pos) = k && !p.empty) = c.got.find? (fun p => (p.partial_, p.pos) = k && !p.empty) := by
  refine (find?_of_perm h fun p hp q hq hfp hfq => one p hp q hq ?_).symm
  simp only [Bool.and_eq_true, decide_eq_true_eq, Bool.not_eq_true'] at hfp hfq
  obtain ⟨samePart, samePos⟩ := Prod.mk.inj (hfp.1.trans hfq.1.symm)
  exact ⟨hfp.2, hfq.2, samePart, samePos⟩

theorem pkts_of_perm (one : ∀ p ∈ c.got, ∀ q ∈ c.got, p.empty = false ∧ q.empty = false ∧ p.partial_ = q.partial_
      ∧ p.pos = q.pos ∧ p.slice = q.slice ∧ p.part = q.part → p = q) :
    ({ c with got := got } : Coll).pkts = c.pkts := by
  funext key s
  have found : ∀ i, c.got.find? (fun p => !p.empty && (p.partial_, p.pos) = key && p.slice = s && p.part = i)
      = got.find? (fun p => !p.empty && (p.partial_, p.pos) = key && p.slice = s && p.part = i) := fun i => by
    refine find?_of_perm h fun p hp q hq hfp hfq => one p hp q hq ?_
    simp only [Bool.and_eq_true, decide_eq_true_eq, Bool.not_eq_true'] at hfp hfq
    obtain ⟨⟨⟨pFull, pKey⟩, pSlice⟩, pPart⟩ := hfp
    obtain ⟨⟨⟨qFull, qKey⟩, qSlice⟩, qPart⟩ := hfq
    obtain ⟨samePart, samePos⟩ := Prod.mk.inj (pKey.trans qKey.symm)
    exact ⟨pFull, qFull, samePart, samePos, pSlice.trans qSlice.symm, pPart.trans qPart.symm⟩
  simp only [Coll.pkts, found]

end

/-- Settles O40: each mode finds its packets by their place, and orders labels and census words itself. -/
theorem contributionOrder : Obligations.ContributionOrder := by
  intro c got keys slice h one
  cases mode : cMode c.desc with
  | merge =>
    rw [mode] at one
    simp only [Coll.finish, mode, mergeHead_of_perm h one]
  | census =>
    rw [mode] at one
    simp only [Coll.finish, mode, posFound_of_perm h one]
  | words =>
    rw [mode] at one
    simp only [Coll.finish, mode, Coll.words, pkts_of_perm h one]
  | tree =>
    rw [mode] at one
    simp only [Coll.finish, mode, Coll.tree, pkts_of_perm h one]
  | frame =>
    rw [mode] at one
    simp only [Coll.finish, mode, Coll.frames, pkts_of_perm h one]

end Sys2Proof.Machine
end

section
namespace Sys2Proof.Machine

/-! ## Which collective a key names (R274, R293) -/

theorem key_of_coll? {s : State} {g h : Nat} {b : Bool} {c : Coll} (hc : s.coll? g h b = some c) :
    c.saggar = g ∧ c.handle = h ∧ c.stage = b := by
  have key := List.find?_some hc
  simpa [and_assoc] using key

theorem coll?_of_colls {s t : State} (h : t.pug.colls = s.pug.colls) (g k : Nat) (b : Bool) : t.coll? g k b = s.coll? g k b := by
  rw [State.coll?, h]; rfl

/-- Once dropped, a key names nothing; every other names what it did. -/
theorem coll?_dropColl (c : Coll) (s : State) (g h : Nat) (b : Bool) : (dropColl c s).coll? g h b
    = if (g, h, b) = (c.saggar, c.handle, c.stage) then none else s.coll? g h b := by
  show (s.pug.colls.filter (fun x => !sameColl x c)).find? _ = _
  rw [List.find?_filter]
  simp only [Prod.mk.injEq]
  split
  next hk =>
    obtain ⟨rfl, rfl, rfl⟩ := hk
    exact List.find?_eq_none.mpr fun x _ => by
      simp only [sameColl, Bool.not_eq_true', Bool.and_eq_false_iff, Bool.and_eq_true, decide_eq_true_eq, decide_eq_false_iff_not]
      tauto
  next hk =>
    refine congrArg (fun f => List.find? f s.pug.colls) (funext fun x => ?_)
    rw [Bool.eq_iff_iff]
    simp only [sameColl, Bool.and_eq_true, decide_eq_true_eq, Bool.not_eq_true', Bool.and_eq_false_iff, decide_eq_false_iff_not]
    constructor
    · exact And.right
    · rintro ⟨⟨rfl, rfl⟩, rfl⟩
      exact ⟨by tauto, ⟨rfl, rfl⟩, rfl⟩

/-- A collective that is entered is what its key names. -/
theorem coll?_addColl_self (c : Coll) (s : State) : (addColl c s).coll? c.saggar c.handle c.stage = some c := by
  have none_before := coll?_dropColl c s c.saggar c.handle c.stage
  rw [if_pos rfl] at none_before
  show (s.pug.colls.filter (fun x => !sameColl x c) ++ [c]).find? _ = _
  rw [List.find?_append, show (s.pug.colls.filter (fun x => !sameColl x c)).find? _ = none from none_before]
  simp

/-- A collective put back is what its key names, where the key named one. -/
theorem coll?_putColl_self {c x : Coll} {s : State} (h : s.coll? c.saggar c.handle c.stage = some x) :
    (putColl c s).coll? c.saggar c.handle c.stage = some c := by
  have same : ∀ y : Coll, (decide (y.saggar = c.saggar) && decide (y.handle = c.handle) && decide (y.stage = c.stage))
      = sameColl y c := fun _ => rfl
  have kept : ∀ y : Coll, sameColl (if sameColl y c then c else y) c = sameColl y c := fun y => by
    cases hy : sameColl y c
    · simp [hy]
    · simp [sameColl]
  show (s.pug.colls.map (fun y => if sameColl y c then c else y)).find? (fun y => sameColl y c) = _
  rw [List.find?_map, show (fun y => sameColl y c) ∘ (fun y => if sameColl y c then c else y) = (fun y => sameColl y c)
    from funext kept, show s.pug.colls.find? (fun y => sameColl y c) = some x from h]
  have hx : sameColl x c = true := by
    have key := List.find?_some h
    exact key
  simp [hx]

/-! ## What an accepted descriptor holds (R275, R276) -/

section
variable {d : List Byte} (h : cFormOk d = true)
include h

theorem cForm_merge (mode : cMode d = .merge) : 1 ≤ cHeads d ∧ 1 ≤ cNblk d := by
  simp only [cFormOk, mode, Bool.and_eq_true, decide_eq_true_eq] at h
  omega

theorem cForm_sliced (merge : cMode d ≠ .merge) (census : cMode d ≠ .census) : 1 ≤ cField d 2 0 17 ∧ 1 ≤ cElems d := by
  cases mode : cMode d
  case merge => exact absurd mode merge
  case census => exact absurd mode census
  all_goals
    simp only [cFormOk, mode, Bool.and_eq_true, decide_eq_true_eq] at h
    omega

theorem cUnits_pos : 0 < cUnits d := by
  unfold cUnits
  split
  next mode => exact (cForm_merge h mode).1
  next => exact Nat.one_pos
  next merge census =>
    have := (cForm_sliced h merge census).2
    unfold cSlices ceilDiv
    omega

end

/-- An admitted descriptor is well formed, and its composition has members (R276 rows 1 and 2). -/
theorem form_of_admitColl {s : State} {d : List Byte} {g epoch : Nat} {stage : Bool} {p : Packet} {x : Nat × List Nat}
    (h : s.admitColl d g epoch stage p = .ok x) : cFormOk d = true ∧ s.members (cComp d) ≠ [] := by
  refine ⟨?_, fun members => ?_⟩
  · by_contra form
    rw [Bool.not_eq_true] at form
    simp [State.admitColl, form] at h
  · simp [State.admitColl, members] at h

/-- An admitted collective has contributors. -/
theorem collN_pos {s : State} {d : List Byte} (form : cFormOk d = true) (members : s.members (cComp d) ≠ []) : 0 < s.collN d := by
  unfold State.collN
  split
  next mode =>
    obtain ⟨heads, blocks⟩ := cForm_merge form mode
    exact Nat.mul_pos heads blocks
  next => exact List.length_pos_of_ne_nil members
  next merge census => exact (cForm_sliced form merge census).1

theorem collN_of_img {s t : State} (h : t.img = s.img) (d : List Byte) : t.collN d = s.collN d := by
  unfold State.collN State.members State.compBody
  rw [h]

theorem ceilDiv_pos {a b : Nat} (ha : 0 < a) (hb : 0 < b) : 0 < ceilDiv a b :=
  Nat.div_pos (by omega) hb

/-- The tree over some contributors has some child at its root (R278). -/
theorem kidsOf_ne_nil (d : List Byte) {n : Nat} (h : 0 < n) : kidsOf d n ≠ [] := by
  unfold kidsOf
  dsimp only
  have pow : 0 < 2 ^ cStageLog2 d := Nat.two_pow_pos _
  generalize 2 ^ cStageLog2 d = k at *
  split
  · simpa using by omega
  · intro e
    have first := List.flatMap_eq_nil_iff.mp e 0 (List.mem_range.mpr (ceilDiv_pos h pow))
    split at first
    · simp only [List.map_eq_nil_iff, List.range_eq_nil] at first
      omega
    · cases first

theorem perPacket_pos (enc wSel : Nat) : 0 < perPacket enc wSel := by
  unfold perPacket
  split
  · split <;> decide
  · split <;> decide

/-! ## A collective that has received nothing (R291) -/

section
variable {c : Coll} (got : c.got = [])
include got

theorem delivered_of_none {s : Nat} (hs : s < cSlices c.desc) (key : Bool × Nat) : c.delivered key s = false := by
  have nothing : c.pkts key s = [] := by simp [Coll.pkts, got]
  have some_due : 0 < ceilDiv (cSliceLen c.desc s) (perPacket (cEncOf c.desc key.1) (cWSel c.desc)) := by
    refine ceilDiv_pos ?_ (perPacket_pos ..)
    unfold cSlices ceilDiv at hs
    unfold cSliceLen
    omega
  rw [Coll.delivered, nothing]
  exact decide_eq_false (Nat.ne_of_lt some_due)

/-- No slice is ready. -/
theorem ready_of_none (form : cFormOk c.desc = true) {keys : List (Bool × Nat)} (hk : keys ≠ []) {s : Nat}
    (hs : s < cUnits c.desc) : c.ready keys s = false := by
  obtain ⟨k, rest, rfl⟩ := List.exists_cons_of_ne_nil hk
  unfold Coll.ready
  dsimp only
  split
  next mode =>
    have blocks := (cForm_merge form mode).2
    have none_held : c.labels s = [] := by simp [Coll.labels, got]
    rw [none_held]
    simpa using by omega
  next => simp [got]
  next merge census =>
    have slices : s < cSlices c.desc := by
      unfold cUnits at hs
      split at hs
      next m => exact absurd m merge
      next m => exact absurd m census
      next => exact hs
    have none_in := delivered_of_none got slices k
    split
    · exact none_in
    · split <;> simp [none_in]

end

theorem foldl_of_fixed {α β : Type} {f : β → α → β} {b : β} {l : List α} (h : ∀ a ∈ l, f b a = b) : l.foldl f b = b := by
  induction l with
  | nil => rfl
  | cons a r ih =>
    rw [List.foldl_cons, h a List.mem_cons_self]
    exact ih fun x hx => h x (List.mem_cons_of_mem a hx)

/-- A root that has received nothing finishes nothing. -/
theorem finishReady_of_none {s : State} {c : Coll} (got : c.got = []) (root : c.stage = false) (form : cFormOk c.desc = true)
    (contributors : 0 < s.collN c.desc) : s.finishReady c = c := by
  have groups : s.groups c = [(0, kidsOf c.desc (s.collN c.desc))] := by rw [State.groups, root]; rfl
  unfold State.finishReady
  rw [groups]
  refine foldl_of_fixed fun g hg => foldl_of_fixed fun sl hsl => ?_
  rw [List.mem_singleton.mp hg]
  have unready := ready_of_none got form (keys := (kidsOf c.desc (s.collN c.desc)).map Child.key)
    (by simpa using kidsOf_ne_nil c.desc contributors) (List.mem_range.mp hsl)
  rw [unready, Bool.not_false, Bool.or_true]
  rfl

/-- A root in `OPEN` that has received nothing, with nothing to send, only is put back. -/
theorem advanceColl_of_none {s : State} {c : Coll} (st : c.st = 2) (root : c.stage = false) (got : c.got = []) (fin : c.fin = [])
    (writes : c.writes = []) (msgs : c.msgs = []) (form : cFormOk c.desc = true) (contributors : 0 < s.collN c.desc) :
    advanceColl c s = putColl c s := by
  have told : s.tellRoot c = c := by rw [State.tellRoot, root]; rfl
  have unfinished : decide (cUnits c.desc ≤ c.fin.length) = false := by
    have := cUnits_pos form
    rw [fin]
    exact decide_eq_false (by simpa using by omega)
  have going : ∀ t : State, t.collDone c = false := fun t => by simp [State.collDone, st]
  have same : { c with writes := [], msgs := [] } = c := by
    cases c; simp only at writes msgs; subst writes msgs; rfl
  unfold advanceColl
  rw [if_neg (by omega), finishReady_of_none got root form contributors, told]
  simp only [unfinished, Bool.and_false, Bool.false_eq_true, if_false, writes, msgs, pumpWrites, pumpMsgs, List.foldl_nil, same,
    going]

/-! ## Messages that wait (R358) -/

/-- One message is sent, if its unit may, or waits. -/
def pumpMsg (st : List PugMsg × State) (m : PugMsg) : List PugMsg × State :=
  if m.tag.isSome || !st.2.maySend (.pug m.unit) m.pkt.dst m.pkt.saggar then (st.1 ++ [m], st.2)
  else (st.1 ++ [{ m with tag := some st.2.nextTag }], issue (.pug m.unit) m.pkt st.2)

theorem pumpMsgs_eq (l : List PugMsg) (s : State) : pumpMsgs l s = l.foldl pumpMsg ([], s) := rfl

/-- Sent or not, a message keeps its packet; nothing else changes but the packets on their way. -/
theorem pumpMsg_spec (st : List PugMsg × State) (m : PugMsg) :
    (pumpMsg st m).1.map (·.pkt) = st.1.map (·.pkt) ++ [m.pkt]
      ∧ (pumpMsg st m).2 = { st.2 with fab := (pumpMsg st m).2.fab } ∧ (pumpMsg st m).2.fab.inbox = st.2.fab.inbox := by
  unfold pumpMsg
  split
  · exact ⟨List.map_append, rfl, rfl⟩
  · exact ⟨List.map_append, rfl, rfl⟩

theorem foldl_pumpMsg_spec (l : List PugMsg) (st : List PugMsg × State) :
    (l.foldl pumpMsg st).1.map (·.pkt) = st.1.map (·.pkt) ++ l.map (·.pkt)
      ∧ (l.foldl pumpMsg st).2 = { st.2 with fab := (l.foldl pumpMsg st).2.fab }
      ∧ (l.foldl pumpMsg st).2.fab.inbox = st.2.fab.inbox := by
  induction l generalizing st with
  | nil => exact ⟨(List.append_nil _).symm, rfl, rfl⟩
  | cons m l ih =>
    obtain ⟨pkts, frame, inbox⟩ := ih (pumpMsg st m)
    obtain ⟨pkt, frame', inbox'⟩ := pumpMsg_spec st m
    refine ⟨?_, ?_, inbox.trans inbox'⟩
    · rw [List.foldl_cons, pkts, pkt, List.append_assoc]; rfl
    · rw [List.foldl_cons, frame, frame']

theorem pumpMsgs_spec (l : List PugMsg) (s : State) : (pumpMsgs l s).1.map (·.pkt) = l.map (·.pkt)
    ∧ (pumpMsgs l s).2 = { s with fab := (pumpMsgs l s).2.fab } ∧ (pumpMsgs l s).2.fab.inbox = s.fab.inbox :=
  foldl_pumpMsg_spec l ([], s)

/-- A message that may not be sent waits. -/
theorem pumpMsgs_of_shut {m : PugMsg} {s : State} (h : s.maySend (.pug m.unit) m.pkt.dst m.pkt.saggar = false) :
    pumpMsgs [m] s = ([m], s) := by
  rw [pumpMsgs_eq, List.foldl_cons, pumpMsg, if_pos (by rw [h]; exact Bool.or_true _)]
  rfl

/-! ## Opens whose stages are being armed (R278) -/

/-- Between two states packets may have gone out, and of the opens some arming packets; every open is still there. -/
def OpensPumped (s t : State) : Prop :=
  t = { s with fab := t.fab, pug := { s.pug with opens := t.pug.opens } } ∧ t.fab.inbox = s.fab.inbox
    ∧ ∀ x ∈ s.pug.opens, ∃ y ∈ t.pug.opens, y = { x with arms := y.arms }

namespace OpensPumped

theorem refl (s : State) : OpensPumped s s := ⟨rfl, rfl, fun x hx => ⟨x, hx, rfl⟩⟩

theorem trans {s t u : State} (h : OpensPumped s t) (k : OpensPumped t u) : OpensPumped s u := by
  obtain ⟨ht, hin, hop⟩ := h
  obtain ⟨hu, hin', hop'⟩ := k
  refine ⟨by rw [hu, ht], hin'.trans hin, fun x hx => ?_⟩
  obtain ⟨y, hy, e⟩ := hop x hx
  obtain ⟨z, hz, e'⟩ := hop' y hy
  exact ⟨z, hz, by rw [e', e]⟩

end OpensPumped

/-- The arming packets of one open are sent as they may. -/
def pumpOpen (o : PugOpen) (s : State) : State :=
  setPug (fun p => { p with opens := p.opens.map (fun (x : PugOpen) =>
    if x.saggar = o.saggar && x.first = o.first then { x with arms := (pumpMsgs o.arms s).1 } else x) }) (pumpMsgs o.arms s).2

theorem pumpOpens_eq (s : State) : pumpOpens s = forEach s.pug.opens pumpOpen s := rfl

theorem pumpOpen_pumps (o : PugOpen) (s : State) : OpensPumped s (pumpOpen o s) := by
  obtain ⟨-, frame, inbox⟩ := pumpMsgs_spec o.arms s
  unfold pumpOpen
  generalize pumpMsgs o.arms s = r at *
  obtain ⟨ms, t⟩ := r
  dsimp only at frame inbox ⊢
  refine ⟨?_, inbox, fun x hx => ?_⟩
  · rw [frame]; rfl
  · refine ⟨_, List.mem_map_of_mem (f := fun (x : PugOpen) => if x.saggar = o.saggar && x.first = o.first then { x with arms := ms } else x)
      (by rw [frame]; exact hx), ?_⟩
    split <;> rfl

/-- An open entered last has the packets it was entered with. -/
theorem pumpOpens_last {o : PugOpen} {l : List PugOpen} {s : State} (h : s.pug.opens = l ++ [o]) :
    OpensPumped s (pumpOpens s) ∧ ∃ y ∈ (pumpOpens s).pug.opens, y = { o with arms := y.arms }
      ∧ y.arms.map (·.pkt) = o.arms.map (·.pkt) := by
  have before : OpensPumped s (forEach l pumpOpen s) := forEach_rel OpensPumped.refl OpensPumped.trans pumpOpen_pumps l s
  have split : pumpOpens s = pumpOpen o (forEach l pumpOpen s) := by rw [pumpOpens_eq, h, forEach_append]; rfl
  rw [split]
  generalize forEach l pumpOpen s = t at *
  refine ⟨before.trans (pumpOpen_pumps o t), ?_⟩
  obtain ⟨x, hx, ex⟩ := before.2.2 o (by rw [h]; exact List.mem_append_right _ List.mem_cons_self)
  obtain ⟨same, frame, -⟩ := pumpMsgs_spec o.arms t
  refine ⟨{ x with arms := (pumpMsgs o.arms t).1 }, ?_, by rw [ex], same⟩
  refine List.mem_map.mpr ⟨x, by rw [frame]; exact hx, if_pos ?_⟩
  rw [ex]
  simp

end Sys2Proof.Machine
end

section
namespace Sys2Proof.Machine

/-! ## Answers that a change outside the packets leaves -/

theorem answered_of_fab {p : Packet} {st : Status} {hint : Nat} {data : List Byte} {s u v : State} (h : v.fab = u.fab)
    (answered : Answered p st hint data s u) : Answered p st hint data s v := by
  unfold Answered Replied at *
  rwa [h]

theorem reply_pug (p : Packet) (st : Status) (hint : Nat) (s : State) : (reply p st hint [] s).pug = s.pug := by
  rw [reply_apart p st hint s]; rfl

/-- A refusal of whatever status answers the request, and touches nothing of the Pug. -/
theorem answered_refusal_pug {p : Packet} {st : Status} {hint : Nat} {s u : State} (hu : u = reply p st hint [] (take p s)) :
    Answered p st hint [] s u ∧ u.pug = s.pug :=
  ⟨(answered_refusal hu).1, by rw [hu, reply_pug]; rfl⟩

theorem openResult_short (d : List Byte) (n : Nat) : (rptResult 0 (openResult d n)).length ≤ 512 := by
  refine rptResult_short ?_
  simp only [openResult, List.length_append, natLe_length, List.length_take]
  omega

/-! ## `COLL_OPEN` (R272, R276, R278) -/

/-- A collective as the open of one handle enters it at its root, in state `st` of R293. -/
def State.openedColl (s : State) (d : List Byte) (g epoch st : Nat) (units : List Nat) (f : Int) (r : Nat) : Coll :=
  { saggar := g, handle := cHandle d, root := s.fab.node, desc := d, epoch := epoch, st := st, units := units, f := f, bytes := r }

/-- The open of one handle whose stages are still to be armed, with the packets that arm them. -/
def openArming (q : Packet) (d : List Byte) (g u : Nat) (nodes : List Nat) (body : List Byte) : PugOpen :=
  { call := some q, saggar := g, first := cHandle d, count := 1, arms := nodes.map (fun n => pugMsg u n g opARM body) }

theorem handle_of_first (d : List Byte) : (cHandle d + 0) % 2 ^ 32 = cHandle d := Nat.mod_mod ..

theorem noteColl_of_no_step {d : List Byte} (h : cStep d = 0) (g handle : Nat) (f : Int) (n : Nat) (s : State) :
    noteColl g d handle f n s = s := if_pos h

theorem censusMsgs_of_quiet {c : Coll} (h : cMode c.desc = .census → cCensusKind c.desc ≠ 0) (s : State) :
    censusMsgs s c = [] := if_neg fun e => h e.1 e.2

theorem forEach_one {α : Type} (a : α) (f : α → State → State) (s : State) : forEach [a] f s = f a s := rfl

section
variable {s : State} {d : List Byte} {g epoch : Nat} {p : Packet}

theorem openColl_of_refused {st : Status} {hint : Nat} (h : s.admitColl d g epoch false p = .error (st, hint)) (q : Packet) :
    openColl d g epoch (some q) p s = reply q st hint [] s := by
  unfold openColl; rw [h]

variable {r : Nat} {units : List Nat} (h : s.admitColl d g epoch false p = .ok (r, units)) (one : cCount d = 1)
  (noStep : cStep d = 0)
include h one noStep

/-- Without stages the collective is entered, the call answered, and the collective taken on. -/
theorem openColl_flat (flat : stageNodes d (s.collN d) = []) (quiet : cMode d = .census → cCensusKind d ≠ 0) (q : Packet) :
    ∃ f, openColl d g epoch (some q) p s = advanceColl (s.openedColl d g epoch 2 units f r)
      (reply q .ok 0 (rptResult 0 (openResult d (s.collN d))) (addColl (s.openedColl d g epoch 2 units f r) s)) := by
  unfold openColl
  rw [h]
  dsimp only
  rw [one, flat]
  simp only [List.range_one, forEach_one, noteColl_of_no_step noStep, handle_of_first, List.isEmpty_nil, if_true]
  rw [censusMsgs_of_quiet quiet]
  exact ⟨_, rfl⟩

/-- With stages it is entered, and the packets that arm them go out. -/
theorem openColl_staged (staged : stageNodes d (s.collN d) ≠ []) (q : Packet) :
    ∃ f body, openColl d g epoch (some q) p s = pumpOpens (setPug (fun x => { x with
      opens := x.opens ++ [openArming q d g (units.headD 0) (stageNodes d (s.collN d)) body] })
      (addColl (s.openedColl d g epoch 1 units f r) s)) := by
  have some_stage : (stageNodes d (s.collN d)).isEmpty = false := by simpa using staged
  unfold openColl
  rw [h]
  dsimp only
  rw [one, some_stage]
  simp only [List.range_one, forEach_one, noteColl_of_no_step noStep, handle_of_first, Bool.false_eq_true, if_false]
  exact ⟨_, _, rfl⟩

end

section
variable {s : State} {p : Packet} (hp : p.wf = true)
include hp

theorem collOpen_completes {d : List Byte} (hr : s.rptRefusal p = none) (hproc : callProc p = 0xFF8) (hd : d = callArgs p) :
    Completes (.collOpen p) s (if d.length ≠ 128 then reply p .denied 0 [] (take p s)
      else openColl d p.saggar p.epoch (some p) p (take p s)) :=
  run_ok hp (by rw [hd]; exact serveProc_of_open hproc hr _)

theorem collOpen_of_whole {d : List Byte} (hr : s.rptRefusal p = none) (hproc : callProc p = 0xFF8) (hd : d = callArgs p)
    (hlen : d.length = 128) : Completes (.collOpen p) s (openColl d p.saggar p.epoch (some p) p (take p s)) := by
  have completes := collOpen_completes hp hr hproc hd
  rwa [if_neg (not_not.mpr hlen)] at completes

end

/-! ## `COLL_ARM` and `COLL_FREE` at a stage (R278, R292) -/

/-- A collective of one handle as an arming packet enters it at a stage. -/
def armedColl (p : Packet) (d : List Byte) (units : List Nat) (r : Nat) : Coll :=
  { saggar := p.saggar, handle := cHandle d, stage := true, root := le p.payload 128 2, desc := d, epoch := p.epoch,
    units := units, f := cFrameExp d, bytes := r }

section
variable {s : State} {p : Packet} (hp : p.wf = true)
include hp

theorem collArm_of_short (h : p.payload.length < 136) : Completes (.collArm p) s (reply p .denied 0 [] (take p s)) :=
  run_ok hp (if_pos h)

section
variable {d : List Byte} (hlen : 136 ≤ p.payload.length) (hd : d = p.payload.take 128)
include hlen hd

theorem collArm_of_refused {st : Status} {hint : Nat} (h : s.admitColl d p.saggar p.epoch true p = .error (st, hint)) :
    Completes (.collArm p) s (reply p st hint [] (take p s)) := by
  have refused : (take p s).admitColl (p.payload.take 128) p.saggar p.epoch true p = .error (st, hint) := hd ▸ h
  refine run_ok hp ?_
  unfold collArm
  dsimp only
  rw [if_neg (by omega), refused]

/-- An arming that is admitted enters the stage's state. -/
theorem collArm_of_admitted {r : Nat} {units : List Nat} (h : s.admitColl d p.saggar p.epoch true p = .ok (r, units))
    (one : cCount d = 1) : Completes (.collArm p) s (reply p .ok 0 [] (addColl (armedColl p d units r) (take p s))) := by
  subst hd
  have admitted : (take p s).admitColl (p.payload.take 128) p.saggar p.epoch true p = .ok (r, units) := h
  refine run_ok hp ?_
  unfold collArm
  dsimp only
  rw [if_neg (by omega), admitted]
  dsimp only
  rw [one]
  simp only [List.range_one, forEach_one, handle_of_first, armedColl]

end

/-- A stage frees what a handle names, and answers. -/
theorem collFree_completes : ∃ t : State, Completes (.collFree p) s (reply p .ok 0 [] t) ∧ t.fab = (take p s).fab
    ∧ t = { take p s with pug := t.pug } ∧ ∀ g k b, t.coll? g k b
      = if (g, k, b) = (p.saggar, le p.payload 0 4, true) then none else s.coll? g k b := by
  cases named : s.coll? p.saggar (le p.payload 0 4) true with
  | none =>
    refine ⟨take p s, run_ok hp ?_, rfl, rfl, fun g k b => ?_⟩
    · have nothing : (take p s).coll? p.saggar (le p.payload 0 4) true = none := named
      unfold collFree
      dsimp only
      rw [nothing]
    · split
      next key =>
        simp only [Prod.mk.injEq] at key
        obtain ⟨rfl, rfl, rfl⟩ := key
        exact named
      next => rfl
  | some c =>
    refine ⟨dropColl c (take p s), run_ok hp ?_, rfl, rfl, fun g k b => ?_⟩
    · have found : (take p s).coll? p.saggar (le p.payload 0 4) true = some c := named
      unfold collFree
      dsimp only
      rw [found]
    · obtain ⟨saggar, handle, stage⟩ := key_of_coll? named
      rw [coll?_dropColl, saggar, handle, stage]
      rfl

/-! ## `COLL_INFO` and `COLL_CANCEL` (R272, R293) -/

theorem collInfo_completes (hr : s.rptRefusal p = none) (hproc : callProc p = 0xFFA) :
    Completes (.collInfo p) s (collInfo p (take p s)) :=
  run_ok hp (serveProc_of_open hproc hr _)

theorem collCancel_completes (hr : s.rptRefusal p = none) (hproc : callProc p = 0xFF9) :
    Completes (.collCancel p) s (collCancel p (take p s)) :=
  run_ok hp (serveProc_of_open hproc hr _)

end

section
variable {s : State} {p : Packet}

theorem collInfo_of_none (h : s.coll? p.saggar (le (callArgs p) 0 4) false = none) :
    collInfo p (take p s) = reply p .ok 0 (rptResult 0 (zeros 16)) (take p s) := by
  have nothing : (take p s).coll? p.saggar (le (callArgs p) 0 4) false = none := h
  rw [collInfo, nothing]

theorem collInfo_of_some {c : Coll} (h : s.coll? p.saggar (le (callArgs p) 0 4) false = some c) :
    collInfo p (take p s) = reply p .ok 0 (rptResult 0 (natLe c.st 4 ++ natLe (min (s.positions c) (2 ^ 32 - 1)) 4
      ++ (shapeDigest c.desc (s.collN c.desc)).take 8)) (take p s) := by
  have found : (take p s).coll? p.saggar (le (callArgs p) 0 4) false = some c := h
  rw [collInfo, found]
  rfl

theorem freeStages_of_none (c : Coll) (t : State) : freeStages c [] t = t := by
  simp [freeStages, pumpMsgs, setPug]

end

section
variable {s : State} {p : Packet} {h : Nat} (ha : le (callArgs p) 0 8 = h + 2 ^ 32) (hlt : h < 2 ^ 32)
include ha hlt

/-- `COLL_CANCEL` of one handle. -/
theorem collCancel_of_one : collCancel p s
    = if (s.coll? p.saggar h false).all (fun c => !(c.st = 1 || c.st = 2)) then reply p .denied 0 [] s
      else reply p .ok 0 (rptResult 0 []) (forEach (s.coll? p.saggar h false).toList
        (fun c s => dropColl c (freeStages c (stageNodes c.desc (s.collN c.desc)) s)) s) := by
  have count : bits (le (callArgs p) 0 8) 32 13 = 1 := by unfold bits; omega
  have handle : (le (callArgs p) 0 8 + 0) % 2 ^ 32 = h := by omega
  unfold collCancel
  dsimp only
  rw [count, List.range_one, List.map_singleton, handle]
  cases s.coll? p.saggar h false <;> simp

theorem collCancel_of_live {c : Coll} (hc : s.coll? p.saggar h false = some c) (hst : c.st = 1 ∨ c.st = 2)
    (flat : stageNodes c.desc (s.collN c.desc) = []) : collCancel p s = reply p .ok 0 (rptResult 0 []) (dropColl c s) := by
  rw [collCancel_of_one ha hlt, hc, if_neg (by rcases hst with e | e <;> simp [e])]
  show reply p .ok 0 _ (dropColl c (freeStages c (stageNodes c.desc (s.collN c.desc)) s)) = _
  rw [flat, freeStages_of_none]

theorem collCancel_of_other (hc : ∀ c, s.coll? p.saggar h false = some c → c.st ≠ 1 ∧ c.st ≠ 2) :
    collCancel p s = reply p .denied 0 [] s := by
  rw [collCancel_of_one ha hlt, if_pos]
  cases named : s.coll? p.saggar h false with
  | none => rfl
  | some c => simpa using hc c named

end

/-! ## `CENSUS_CALL` (R290) -/

section
variable {s : State} {p : Packet}

theorem censusCall_of_stale (h : s.epochCheck p = .stale) : censusCall p s = reply p .nackStaleEpoch 0 [] (take p s) := if_pos h

theorem censusCall_of_ahead (h : s.epochCheck p = .notReady) : censusCall p s = reply p .nackRetry 10 [] (take p s) := by
  have check : (take p s).epochCheck p = .notReady := h
  simp [censusCall, check]

variable (h : s.epochCheck p = .served)
include h

theorem censusCall_of_outsider (hm : (s.members (s.sagComp p.saggar)).contains s.fab.node = false) :
    censusCall p s = reply p .denied 0 [] (take p s) := by
  have check : (take p s).epochCheck p = .served := h
  have out : ((take p s).members ((take p s).sagComp p.saggar)).contains (take p s).fab.node = false := hm
  unfold censusCall
  dsimp only
  rw [check, out]
  rfl

/-- A member's contribution to a census. -/
def State.censusMsg (s : State) (p : Packet) : PugMsg :=
  pugMsg (s.pugUnits.headD 0) p.src p.saggar opCONTRIB (contribBytes (le p.payload 0 4)
    { pos := (s.members (s.sagComp p.saggar)).idxOf s.fab.node, nelem := 1, data := s.img.dig })

/-- A member answers, and its digest waits where its unit may not send. -/
theorem censusCall_of_member (hm : (s.members (s.sagComp p.saggar)).contains s.fab.node = true)
    (shut : s.maySend (.pug (s.pugUnits.headD 0)) p.src p.saggar = false) : censusCall p s
      = setPug (fun q => { q with msgs := q.msgs ++ [s.censusMsg p] }) (reply p .ok 0 [] (take p s)) := by
  have check : (take p s).epochCheck p = .served := h
  have member : ((take p s).members ((take p s).sagComp p.saggar)).contains (take p s).fab.node = true := hm
  have waits : pumpMsgs [s.censusMsg p] (reply p .ok 0 [] (take p s)) = ([s.censusMsg p], reply p .ok 0 [] (take p s)) :=
    pumpMsgs_of_shut (by rw [reply_ok_short]; exact shut)
  unfold censusCall
  dsimp only
  rw [check, member]
  show setPug (fun q => { q with msgs := q.msgs ++ (pumpMsgs [s.censusMsg p] (reply p .ok 0 [] (take p s))).1 })
    (pumpMsgs [s.censusMsg p] (reply p .ok 0 [] (take p s))).2 = _
  rw [waits]

end

end Sys2Proof.Machine
end

section
namespace Sys2Proof.Machine

/-! ## Collectives opened, armed, described, cancelled and freed -/

/-- An open without stages answers the call, and leaves the collective as it was entered. -/
theorem openColl_flat_spec {s u : State} {p : Packet} {d : List Byte} {g epoch r n : Nat} {units : List Nat} {f : Int} {c : Coll}
    (form : cFormOk d = true) (members : s.members (cComp d) ≠ []) (hc : c = s.openedColl d g epoch 2 units f r)
    (hu : u = advanceColl c (reply p .ok 0 (rptResult 0 (openResult d n)) (addColl c (take p s)))) :
    Answered p .ok 0 (rptResult 0 (openResult d n)) s u ∧ u.coll? g (cHandle d) false = some c := by
  obtain ⟨answered, frame⟩ := answered_after_take (p := p) (s := s) (st := .ok) rfl (openResult_short d n) 0
    (t := addColl c (take p s)) rfl rfl
  generalize reply p .ok 0 (rptResult 0 (openResult d n)) (addColl c (take p s)) = t at *
  have image : t.img = s.img := by rw [frame]; rfl
  have colls : t.pug.colls = (addColl c (take p s)).pug.colls := by rw [frame]
  have entered : t.coll? c.saggar c.handle c.stage = some c := by
    rw [coll?_of_colls colls, coll?_addColl_self]
  have contributors : 0 < t.collN d := by
    rw [collN_of_img image]
    exact collN_pos form members
  have put : advanceColl c t = putColl c t := by
    subst hc
    exact advanceColl_of_none rfl rfl rfl rfl rfl rfl form contributors
  have named := coll?_putColl_self entered
  rw [hu, put]
  subst hc
  exact ⟨answered_of_fab (setPug_fab ..) answered, named⟩

/-- An open with stages has its arming packets, addressed to every stage, and is not answered. -/
theorem openColl_staged_spec {s u : State} {p : Packet} {d body : List Byte} {c : Coll} {o : PugOpen} {g unit : Nat}
    {nodes : List Nat} (ho : o = openArming p d g unit nodes body)
    (hu : u = pumpOpens (setPug (fun x => { x with opens := x.opens ++ [o] }) (addColl c (take p s)))) :
    u.fab.inbox = s.fab.inbox.erase p ∧ u.coll? c.saggar c.handle c.stage = some c
      ∧ ∃ y ∈ u.pug.opens, y.call = some p ∧ y.first = cHandle d ∧ y.count = 1
        ∧ y.arms.map (·.pkt.dst) = nodes ∧ ∀ m ∈ y.arms, m.pkt.opcode = opARM := by
  obtain ⟨⟨frame, inbox, -⟩, y, hy, same, pkts⟩ := pumpOpens_last (o := o)
    (s := setPug (fun x => { x with opens := x.opens ++ [o] }) (addColl c (take p s))) rfl
  rw [← hu] at frame inbox hy
  have sent : o.arms.map (fun m : PugMsg => m.pkt) = nodes.map (fun n => (pugMsg unit n g opARM body).pkt) := by
    rw [ho, openArming, List.map_map]; rfl
  rw [sent] at pkts
  refine ⟨inbox, ?_, y, hy, by rw [same, ho]; rfl, by rw [same, ho]; rfl, by rw [same, ho]; rfl, ?_, fun m hm => ?_⟩
  · rw [frame]
    exact coll?_addColl_self c (take p s)
  · have dsts := congrArg (List.map (·.dst)) pkts
    rw [List.map_map, List.map_map] at dsts
    exact dsts.trans (List.map_id nodes)
  · have listed := List.mem_map_of_mem (f := fun m : PugMsg => m.pkt) hm
    rw [pkts] at listed
    obtain ⟨n, -, e⟩ := List.mem_map.mp listed
    rw [← e]; rfl

/-- Settles O41: each call by what its rows answer; an open by what advancing a collective that has received nothing
leaves, or by what sending the arming packets keeps. -/
theorem collectiveSetup : Obligations.CollectiveSetup := by
  intro s p d hp
  refine ⟨fun hr hproc hd => ⟨fun hlen => ?_, fun st h hlen hadm => ?_, fun r units hlen hadm one noStep flat quiet => ?_,
      fun r units hlen hadm one noStep staged => ?_⟩,
    fun hshort => ?_, fun hlen hd => ⟨fun st h hadm => ?_, fun r units hadm one => ?_⟩,
    fun hr hproc => ⟨fun hnone => ?_, fun c hc => ?_⟩, fun h hr hproc ha hlt => ⟨fun c hc hst flat => ?_, fun hst => ?_⟩,
    ?_, fun hstale => ?_, fun hahead => ?_, fun ms hms hserved => ⟨fun hout => ?_, fun hin hshut => ?_⟩⟩
  · have completes := collOpen_completes hp hr hproc hd
    rw [if_pos hlen] at completes
    exact effect_of completes (answered_take rfl (Nat.zero_le _) _ rfl)
  · have completes := collOpen_of_whole hp hr hproc hd hlen
    rw [openColl_of_refused (s := take p s) hadm] at completes
    exact effect_of completes (answered_refusal_pug rfl)
  · have completes := collOpen_of_whole hp hr hproc hd hlen
    obtain ⟨f, opened⟩ := openColl_flat (s := take p s) hadm one noStep flat quiet p
    rw [opened] at completes
    obtain ⟨form, members⟩ := form_of_admitColl hadm
    obtain ⟨answered, entered⟩ := openColl_flat_spec (s := s) (p := p) form members rfl rfl
    exact effect_of completes ⟨answered, _, entered, rfl, rfl, rfl, rfl, rfl, rfl, rfl, rfl⟩
  · have completes := collOpen_of_whole hp hr hproc hd hlen
    obtain ⟨f, body, opened⟩ := openColl_staged (s := take p s) hadm one noStep staged p
    rw [opened] at completes
    obtain ⟨inbox, entered, o, ho, call, first, count, dsts, ops⟩ := openColl_staged_spec (s := s) (p := p) (d := d) rfl rfl
    exact effect_of completes ⟨inbox, ⟨_, entered, rfl, rfl, rfl⟩, o, ho, call, first, count, dsts, ops⟩
  · exact effect_of (collArm_of_short hp hshort) (answered_take rfl (Nat.zero_le _) _ rfl)
  · exact effect_of (collArm_of_refused hp hlen hd hadm) (answered_refusal_pug rfl)
  · obtain ⟨answered, frame⟩ := answered_after_take (p := p) (s := s) (st := .ok) (data := []) rfl (Nat.zero_le _) 0
      (t := addColl (armedColl p d units r) (take p s)) rfl rfl
    refine effect_of (collArm_of_admitted hp hlen hd hadm one) ⟨answered, ?_, armedColl p d units r, ?_, rfl, rfl, rfl, rfl, rfl⟩
    · rw [frame]; rfl
    · rw [frame]; exact coll?_addColl_self (armedColl p d units r) (take p s)
  · have completes := collInfo_completes hp hr hproc
    rw [collInfo_of_none hnone] at completes
    exact effect_of completes (answered_take rfl (rptResult_short (by decide)) _ rfl)
  · have completes := collInfo_completes hp hr hproc
    rw [collInfo_of_some hc] at completes
    refine effect_of completes (answered_take rfl (rptResult_short ?_) _ rfl).symm
    simp only [List.length_append, natLe_length, List.length_take]
    omega
  · have completes := collCancel_completes hp hr hproc
    rw [collCancel_of_live (s := take p s) ha hlt hc hst flat] at completes
    obtain ⟨answered, frame⟩ := answered_after_take (p := p) (s := s) (st := .ok) rfl rptResult_nil_short 0
      (t := dropColl c (take p s)) rfl rfl
    obtain ⟨saggar, handle, stage⟩ := key_of_coll? hc
    have left := coll?_dropColl c (take p s)
    rw [saggar, handle, stage] at left
    refine effect_of completes ⟨answered, ?_, fun g k b hne => ?_⟩ <;> rw [frame]
    · exact (left ..).trans (if_pos rfl)
    · exact (left ..).trans (if_neg hne)
  · have completes := collCancel_completes hp hr hproc
    rw [collCancel_of_other (s := take p s) ha hlt hst] at completes
    exact effect_of completes (answered_take rfl (Nat.zero_le _) _ rfl)
  · obtain ⟨t, completes, fab, frame, colls⟩ := collFree_completes hp (s := s)
    obtain ⟨answered, sent⟩ := answered_after_take (p := p) (s := s) (st := .ok) (data := []) rfl (Nat.zero_le _) 0 fab rfl
    refine effect_of completes ⟨answered, ?_, fun g k b hne => ?_, ?_⟩ <;> rw [sent]
    · exact (colls ..).trans (if_pos rfl)
    · exact (colls ..).trans (if_neg hne)
    · rw [frame]; rfl
  · exact effect_of (run_ok hp (censusCall_of_stale hstale)) (answered_refusal_pug rfl)
  · exact effect_of (run_ok hp (censusCall_of_ahead hahead)) (answered_take rfl (Nat.zero_le _) _ rfl)
  · subst hms
    exact effect_of (run_ok hp (censusCall_of_outsider hserved hout)) (answered_take rfl (Nat.zero_le _) _ rfl)
  · subst hms
    obtain ⟨answered, frame⟩ := answered_take (p := p) (s := s) (st := .ok) (data := []) rfl (Nat.zero_le _) 0 rfl
    refine effect_of (run_ok hp (censusCall_of_member hserved hin hshut)) ⟨answered_of_fab rfl answered, ?_, s.censusMsg p, ?_,
      rfl, rfl, rfl⟩
    · rw [setPug, frame]
    · rw [setPug, frame]

end Sys2Proof.Machine
end

section
namespace Sys2Proof.Machine

/-! ## What follows a command only adds to the packets on their way -/

/-- The packets sent before are those sent first after. -/
def TxGrows (s t : State) : Prop := s.fab.tx <+: t.fab.tx

namespace TxGrows

theorem of_tx {s t : State} (h : t.fab.tx = s.fab.tx) : TxGrows s t := by
  rw [TxGrows, h]

theorem refl (s : State) : TxGrows s s := of_tx rfl

theorem trans {s t u : State} (h : TxGrows s t) (k : TxGrows t u) : TxGrows s u := List.IsPrefix.trans h k

theorem overLoop {α : Type} {f : α → State → State} (h : ∀ a s, TxGrows s (f a s)) (l : List α) (s : State) :
    TxGrows s (forEach l f s) :=
  forEach_rel refl trans h l s

theorem guarded {s t : State} (b : Bool) (h : TxGrows s t) : TxGrows s (if b then t else s) := by
  cases b
  · exact refl s
  · exact h

theorem setJsl (f : Jsl → Jsl) (s : State) : TxGrows s (setJsl f s) := of_tx rfl

theorem jqEmit (f : JqFrame) (payload : List Byte) (s : State) : TxGrows s (jqEmit f payload s) := of_tx rfl

theorem bumpCtr (a n : Nat) (s : State) : TxGrows s (bumpCtr a n s) := of_tx rfl

theorem issue (q : Requester) (p : Packet) (s : State) : TxGrows s (issue q p s) := List.prefix_append ..

theorem finishDeletes (s : State) : TxGrows s (finishDeletes s) := by
  refine overLoop (fun q s => of_tx ?_) _ s
  unfold deleteRegion
  rw [FreeApart.freeUnheld]

theorem recordSteps (s : State) : TxGrows s (recordSteps s) := by
  unfold Machine.recordSteps
  split
  · refine overLoop (fun i s => guarded _ ?_) [4, 5, 6, 7, 8] s
    exact of_tx rfl
  · exact refl s

theorem drainWatch (s : State) : TxGrows s (drainWatch s) := by
  unfold Machine.drainWatch
  split
  · exact refl s
  · split
    · exact of_tx rfl
    · split <;> exact of_tx rfl

theorem admissionWork (s : State) : TxGrows s (admissionWork s) := by
  unfold Machine.admissionWork
  dsimp only
  split
  all_goals
    split
    · split <;> exact of_tx rfl
    · exact of_tx rfl

theorem transmit (x : JqSend) (s : State) : TxGrows s (transmit x s) := by
  unfold Machine.transmit
  generalize (x.f.prot && x.reply.isNone) = own
  dsimp only
  split
  · exact refl s
  · refine trans ?_ (guarded _ (of_tx rfl))
    split
    · exact trans (guarded own (setJsl _ s)) (trans (setJsl _ _) (trans (jqEmit ..) (bumpCtr ..)))
    · exact trans (guarded own (setJsl _ s)) (trans (setJsl _ _) (issue ..))
    · exact guarded own (setJsl _ s)

theorem jqPump (s : State) : TxGrows s (jqPump s) := by
  refine trans (setJsl _ s) (overLoop (fun x s => ?_) _ _)
  split
  · exact transmit x s
  · exact setJsl _ s

theorem pushLog (sid : Nat) (s : State) : TxGrows s (pushLog sid s) := by
  unfold Machine.pushLog
  dsimp only
  split
  · exact refl s
  · exact trans (setJsl _ s) (transmit ..)

theorem streamRecord (g : Nat) (s : State) : TxGrows s (streamRecord g s) := by
  unfold Machine.streamRecord
  dsimp only
  split
  · exact refl s
  · split
    · exact trans (setJsl _ s) (overLoop (fun k s => setJsl _ s) _ _)
    · exact refl s

theorem jqWork (s : State) : TxGrows s (jqWork s) := by
  unfold Machine.jqWork
  dsimp only
  have logs := trans (jqPump s)
    (overLoop (fun sid s => overLoop (fun _ s => pushLog sid s) (List.range 5) s) (s.jsl.sessions.map (·.1)) (Machine.jqPump s))
  split
  · exact refl s
  · split
    · exact logs
    · exact trans (trans logs (overLoop streamRecord _ _)) (jqPump _)

theorem settle (s : State) : TxGrows s (settle s) :=
  trans (finishDeletes s) (trans (recordSteps _) (trans (drainWatch _) (trans (admissionWork _) (jqWork _))))

/-- Of two states that settle alike, the first packets sent are the same. -/
theorem first_of_settle {u v : State} (h : Machine.settle u = Machine.settle v) {a b : Packet} {l m : List Packet}
    (hu : u.fab.tx = a :: l) (hv : v.fab.tx = b :: m) : a = b := by
  obtain ⟨t, ht⟩ := settle u
  obtain ⟨t', ht'⟩ := settle v
  rw [h, ← ht', hu, hv] at ht
  exact (List.cons.inj ht).1

end TxGrows

/-! ## A combining entry that one packet does not hold (R297, R330, R364) -/

/-- The combined payload of an entry: two words, and two for each original. -/
theorem combinedPayload_length (op : Nat) (ps : List Packet) : (combinedPayload op ps).length = 16 + 16 * ps.length := by
  simp only [combinedPayload, List.length_append, natLe_length, List.length_flatMap, List.map_const', List.sum_replicate,
    smul_eq_mul]
  omega

/-- What does not fit one packet goes out as a train whose first packet is full. -/
theorem packetsOf_long {p : Packet} (h : 512 < p.payload.length) : ∃ a l, packetsOf p = a :: l ∧ a.payload.length = 512 := by
  obtain ⟨n, hn⟩ : ∃ n, ceilDiv p.payload.length 512 = n + 1 := Nat.exists_eq_succ_of_ne_zero (by unfold ceilDiv; omega)
  unfold packetsOf
  dsimp only
  rw [if_neg (by omega), hn, List.range_succ_eq_map]
  exact ⟨_, _, rfl, by simp only [sub, List.length_take, List.length_drop]; omega⟩

/-- The combined atomic of an entry (R298). -/
def CombEntry.atomic (e : CombEntry) : Packet :=
  { dst := e.dst, opcode := e.op, saggar := e.saggar, offset := e.off, cls := 1, cmb := true,
    length := (combinedPayload e.op e.originals).length, payload := combinedPayload e.op e.originals }

theorem closeComb_fab (e : CombEntry) (s : State) : (closeComb e s).fab = (issue (.pug e.unit) e.atomic s).fab := by
  rw [closeComb, setPug_fab, CombEntry.atomic]

/-- An entry whose originals one packet does not hold closes into a train. -/
theorem closeComb_long {e : CombEntry} (h : 31 < e.originals.length) (s : State) : ∃ a l,
    (closeComb e s).fab.tx = s.fab.tx ++ a :: l ∧ a.payload.length = 512 := by
  have long : 512 < (issued e.atomic s).payload.length := by
    rw [show (issued e.atomic s).payload = combinedPayload e.op e.originals from rfl, combinedPayload_length]
    omega
  obtain ⟨a, l, train, full⟩ := packetsOf_long long
  obtain ⟨-, -, -, tx⟩ := issue_spec (.pug e.unit) e.atomic s
  rw [closeComb_fab, tx, train]
  exact ⟨stampPkt a, l.map stampPkt, by rw [List.map_cons], by rw [stampPkt, full]⟩

/-- An entry with 32 originals, one more than a packet of 512 bytes holds. -/
def crowdedEntry : CombEntry := { originals := List.replicate 32 {} }

def crowdedTable : State := { pug := { comb := [crowdedEntry] } }

/-- Refutes O42: no hypothesis bounds the originals of an entry (one that `combine` fills closes at 16). The combined
atomic of an entry with 32 originals has 528 bytes, which leave as a train of two packets, the first of 512 bytes, where
the clause asks for one packet with the whole payload. -/
theorem not_collectiveData : ¬ Obligations.CollectiveData := by
  intro h
  obtain ⟨-, -, -, hClose⟩ := h crowdedTable {} (by decide)
  obtain ⟨u, hu, -, ⟨q, htx, -, -, -, -, -, -, -, hpay⟩, -⟩ := (hClose 0 (by decide)).2 crowdedEntry rfl
  have he : Completes (.combiningEntryClose 0) crowdedTable (closeComb crowdedEntry (carry 0 crowdedTable)) := rfl
  obtain ⟨a, l, hv, ha⟩ := closeComb_long (e := crowdedEntry) (by decide) (carry 0 crowdedTable)
  have same : q = a := TxGrows.first_of_settle (Host.Outcome.next.inj (hu.symm.trans he)) htx
    (by rw [hv, carry_fab]; rfl)
  have whole : q.payload.length = 528 := by rw [hpay, combinedPayload_length]; rfl
  rw [same, ha] at whole
  exact absurd whole (by decide)

end Sys2Proof.Machine
end

section
namespace Sys2Proof.Machine

/-! ## Answers of more than one packet (R330, R331) -/

/-- Consecutive runs of `k` bytes from the start make up its first `k * n` bytes. -/
theorem flatMap_sub (l : List Byte) (k n : Nat) : (List.range n).flatMap (fun i => sub l (k * i) k) = l.take (k * n) := by
  induction n with
  | zero => simp
  | succ n ih => rw [List.range_succ, List.flatMap_append, ih, Nat.mul_succ, List.take_add]; simp [sub]

theorem le_mul_ceilDiv {a b : Nat} (h : 0 < b) : a ≤ b * ceilDiv a b := by
  have := Nat.div_add_mod (a + b - 1) b
  have := Nat.mod_lt (a + b - 1) h
  unfold ceilDiv
  omega

/-- The packets of a train carry its payload in order, and are otherwise the packet it was cut from. -/
theorem packetsOf_spec {p : Packet} (h : p.last = true) : packetsOf p ≠ [] ∧ (packetsOf p).flatMap (·.payload) = p.payload
    ∧ ∀ (i : Nat) (q : Packet), (packetsOf p)[i]? = some q → q.payload.length ≤ 512 ∧ q = { p with
        offset := p.offset + 512 * i, last := decide (i + 1 = (packetsOf p).length), length := q.length, payload := q.payload } := by
  unfold packetsOf
  split
  next short =>
    refine ⟨List.cons_ne_nil _ _, List.append_nil _, fun i q hq => ?_⟩
    obtain ⟨rfl, rfl⟩ : i = 0 ∧ p = q := by
      cases i <;> simp_all
    exact ⟨short, by simp [← h]⟩
  next long =>
    have enough := le_mul_ceilDiv (a := p.payload.length) (b := 512) (by decide)
    refine ⟨?_, ?_, fun i q hq => ?_⟩
    · simp only [ne_eq, List.map_eq_nil_iff, List.range_eq_nil]
      omega
    · rw [List.flatMap_map]
      exact (flatMap_sub p.payload 512 _).trans (List.take_of_length_le enough)
    · obtain ⟨hi, rfl⟩ := List.getElem?_eq_some_iff.mp hq
      simp only [List.getElem_map, List.getElem_range, List.length_map, List.length_range, h, Bool.true_and]
      exact ⟨List.length_take_le .., trivial⟩

theorem stampPkt_payload (p : Packet) : (stampPkt p).payload = p.payload := by cases p; rfl

/-- An answer that is not counted only adds its packets to those on their way. -/
theorem reply_train {st : Status} (hst : uncounted st = true) (p : Packet) (hint : Nat) (data : List Byte) (t : State) :
    reply p st hint data t = { t with fab := { t.fab with
      tx := t.fab.tx ++ (packetsOf (mkAnswer p st hint data t)).map stampPkt } } := by
  show send (mkAnswer p st hint data (countAnswer st t)) (countAnswer st t) = _
  rw [countAnswer_of_uncounted hst]
  rfl

/-- An answer that is not counted carries its data in a train, and changes nothing but the packets. -/
theorem repliedTrain_result {p : Packet} {st : Status} {data : List Byte} (hst : uncounted st = true) {hint : Nat} {s t : State}
    (ht : t.fab = s.fab) : RepliedTrain p st hint data s (reply p st hint data t)
      ∧ reply p st hint data t = { t with fab := (reply p st hint data t).fab } := by
  obtain ⟨some_sent, whole, each⟩ := packetsOf_spec (p := mkAnswer p st hint data t) rfl
  rw [reply_train hst]
  generalize packetsOf (mkAnswer p st hint data t) = l at *
  refine ⟨⟨l.map stampPkt, by rw [← ht], by simpa using some_sent, ?_, fun i q hq => ?_⟩, rfl⟩
  · simp only [List.flatMap_map, stampPkt_payload]
    exact whole
  · rw [List.getElem?_map, Option.map_eq_some_iff] at hq
    obtain ⟨x, hx, rfl⟩ := hq
    obtain ⟨short, same⟩ := each i x hx
    rw [List.length_map]
    unfold stampPkt
    rw [same] at short ⊢
    exact ⟨rfl, rfl, rfl, rfl, rfl, rfl, rfl, short, rfl, rfl⟩

/-- A result of one word fits one packet. -/
theorem rptResult_word_short (v : Nat) {n : Nat} (h : n ≤ 8) : (rptResult 0 (natLe v n)).length ≤ 512 :=
  rptResult_short (by rw [natLe_length]; omega)

/-- An answer without data, of whatever status, is one packet, beside what is counted and logged of its status. -/
theorem replied_refusal (p : Packet) (st : Status) (hint : Nat) {s t : State} (ht : t.fab = s.fab) :
    Replied p st hint [] s (reply p st hint [] t) ∧ (reply p st hint [] t).gth = t.gth ∧ (reply p st hint [] t).siv = t.siv := by
  have sent := reply_apart p st hint t
  exact ⟨(replied_short ht).1, by rw [sent]; rfl, by rw [sent]; rfl⟩

end Sys2Proof.Machine
end

section
namespace Sys2Proof.Machine

/-! ## The engine a request goes to (R303, R316) -/

/-- The better of two engines for a request: the one with fewer requests on it. -/
def fewerQueued (queued : Nat → Nat) (b : Option Nat) (e : Nat) : Option Nat :=
  match b with
  | none => some e
  | some x => if queued e < queued x then some e else some x

theorem foldl_fewerQueued_mem {queued : Nat → Nat} {e : Nat} (l : List Nat) {b : Option Nat}
    (h : l.foldl (fewerQueued queued) b = some e) : e ∈ l ∨ b = some e := by
  induction l generalizing b with
  | nil => exact .inr h
  | cons a r ih =>
    rcases ih h with hr | hb
    · exact .inl (List.mem_cons_of_mem _ hr)
    · cases b with
      | none => exact .inl (Option.some.inj hb ▸ List.mem_cons_self)
      | some x =>
        unfold fewerQueued at hb
        dsimp only at hb
        split at hb
        · exact .inl (Option.some.inj hb ▸ List.mem_cons_self)
        · exact .inr hb

theorem gthPick_eq (s : State) : s.gthPick = s.gthUnits.foldl (fewerQueued s.gthQueued) none := rfl

theorem sivPick_eq (s : State) : s.sivPick = s.sivUnits.foldl (fewerQueued s.sivQueued) none := rfl

/-- The engine picked is one of the eight and not fenced. -/
theorem gthPick_unfenced {s : State} {e : Nat} (h : s.gthPick = some e) : e < 8 ∧ (s.gthFence e).on = false := by
  rw [gthPick_eq] at h
  rcases foldl_fewerQueued_mem _ h with hm | hb
  · simpa [State.gthUnits] using hm
  · cases hb

theorem sivPick_unfenced {s : State} {e : Nat} (h : s.sivPick = some e) : (s.sivFence e).on = false := by
  rw [sivPick_eq] at h
  rcases foldl_fewerQueued_mem _ h with hm | hb
  · simpa using (List.mem_filter.mp hm).2
  · cases hb

theorem gthPick_ne_of_fenced {s : State} {e : Nat} (h : (s.gthFence e).on = true) : s.gthPick ≠ some e := fun hp => by
  have unfenced := (gthPick_unfenced hp).2
  rw [h] at unfenced
  cases unfenced

theorem sivPick_ne_of_fenced {s : State} {e : Nat} (h : (s.sivFence e).on = true) : s.sivPick ≠ some e := fun hp => by
  have unfenced := sivPick_unfenced hp
  rw [h] at unfenced
  cases unfenced

end Sys2Proof.Machine
end

section
namespace Sys2Proof.Machine

/-! ## What serving a pooling request touches (R304) -/

/-- Between two states rows were read and sub-requests sent: the pool, the flash under it, the packets on their way, and
what is counted and logged may differ. -/
def GatherServed (s t : State) : Prop :=
  t = { s with sat := t.sat, ctr := t.ctr, log := t.log, flm := t.flm, tie := t.tie, fab := t.fab } ∧ t.fab.inbox = s.fab.inbox

namespace GatherServed

theorem refl (s : State) : GatherServed s s := ⟨rfl, rfl⟩

theorem trans {s t u : State} (h : GatherServed s t) (k : GatherServed t u) : GatherServed s u := by
  obtain ⟨ht, hin⟩ := h
  obtain ⟨hu, hin'⟩ := k
  exact ⟨by rw [hu, ht], hin'.trans hin⟩

theorem of_pool {s t : State} (h : PoolApart s t) : GatherServed s t := by
  refine ⟨?_, congrArg Fab.inbox h.fab⟩
  unfold PoolApart at h
  rw [h]

theorem bumpCtr (a n : Nat) (s : State) : GatherServed s (bumpCtr a n s) := ⟨rfl, rfl⟩

theorem issue (q : Requester) (p : Packet) (s : State) : GatherServed s (issue q p s) := ⟨rfl, rfl⟩

theorem gth {s t : State} (h : GatherServed s t) : t.gth = s.gth := by rw [h.1]

theorem out {s t : State} (h : GatherServed s t) : t.out = s.out := by rw [h.1]

end GatherServed

/-- A request served further has the same call, definition, frame and engine. -/
def GthReq.advanced (r r' : GthReq) : Prop :=
  r' = { r with left := r'.left, acc := r'.acc, subs := r'.subs, poison := r'.poison, failed := r'.failed }

theorem GthReq.advanced.trans {a b c : GthReq} (h : a.advanced b) (k : b.advanced c) : a.advanced c := by
  unfold GthReq.advanced at *; rw [k, h]

/-- A request was served further between two states. -/
def Served (a b : GthReq × State) : Prop := a.1.advanced b.1 ∧ GatherServed a.2 b.2

namespace Served

theorem refl (a : GthReq × State) : Served a a := ⟨rfl, .refl _⟩

theorem trans {a b c : GthReq × State} (h : Served a b) (k : Served b c) : Served a c := ⟨h.1.trans k.1, h.2.trans k.2⟩

theorem overFold {α : Type} {f : GthReq × State → α → GthReq × State} (h : ∀ a x, Served a (f a x)) (l : List α)
    (a : GthReq × State) : Served a (l.foldl f a) := by
  induction l generalizing a with
  | nil => exact refl a
  | cons x l ih => exact (h a x).trans (ih _)

/-- A request that cannot name its row fails. -/
theorem fails (a : GthReq × State) : Served a ({ a.1 with failed := some Status.denied.code }, a.2) := ⟨rfl, .refl _⟩

theorem readRow (r : GthReq) (weight : Nat) (reg : Region) (off ctr : Nat) (e : Nat × Nat) (s : State) :
    Served (r, s) (readRow r weight reg off ctr e s) := by
  have read := PoolApart.readRegion reg none off (gRowBytes r.def_) s
  unfold Machine.readRow
  split
  next h => exact ⟨rfl, .of_pool (.of_eq h read)⟩
  next h => exact ⟨rfl, .of_pool (.of_eq h read)⟩
  next h => exact ⟨rfl, .trans (.of_pool (.of_eq h read)) (.bumpCtr ..)⟩
  next h => exact ⟨rfl, .trans (.of_pool (.of_eq h read)) (.bumpCtr ..)⟩

theorem resolveRows (r : GthReq) (es : List (Nat × Nat)) (s : State) : Served (r, s) (resolveRows r es s) := by
  unfold Machine.resolveRows
  dsimp only
  split
  · refine overFold (fun a e => ?_) es _
    split
    · split
      · exact readRow ..
      · exact fails a
    · exact fails a
  · refine trans ?_ (overFold (fun a e => ?_) _ _)
    · exact ⟨rfl, .bumpCtr ..⟩
    · split
      · exact readRow ..
      · exact fails a

end Served

/-- One sub-request is sent, if its engine may send, or waits. -/
def pumpSub (e : Nat) (st : List GthSub × State) (m : GthSub) : List GthSub × State :=
  if m.tag.isSome || !st.2.maySend (.gather e) m.pkt.dst m.pkt.saggar then (st.1 ++ [m], st.2)
  else (st.1 ++ [{ m with tag := some st.2.nextTag }], issue (.gather e) m.pkt st.2)

theorem foldl_pumpSub_served (e : Nat) (l : List GthSub) (st : List GthSub × State) :
    GatherServed st.2 (l.foldl (pumpSub e) st).2 := by
  induction l generalizing st with
  | nil => exact .refl _
  | cons m l ih =>
    refine .trans ?_ (ih _)
    unfold pumpSub
    split
    · exact .refl _
    · exact .issue ..

/-- Sub-requests that are all sent stay as they are. -/
theorem foldl_pumpSub_of_sent (e : Nat) {l : List GthSub} (h : ∀ m ∈ l, m.tag.isSome = true) (st : List GthSub × State) :
    l.foldl (pumpSub e) st = (st.1 ++ l, st.2) := by
  induction l generalizing st with
  | nil => rw [List.append_nil]; rfl
  | cons m l ih =>
    have here : pumpSub e st m = (st.1 ++ [m], st.2) := if_pos (by rw [h m List.mem_cons_self]; rfl)
    rw [List.foldl_cons, here, ih fun x hx => h x (List.mem_cons_of_mem m hx), List.append_assoc]
    rfl

theorem pumpSubs_of_engine {r : GthReq} {e : Nat} (h : r.engine = some e) (s : State) : pumpSubs r s
    = ({ r with subs := (r.subs.foldl (pumpSub e) ([], s)).1 }, (r.subs.foldl (pumpSub e) ([], s)).2) := by
  unfold pumpSubs
  rw [h]
  rfl

theorem pumpSubs_of_sent {r : GthReq} (h : ∀ m ∈ r.subs, m.tag.isSome = true) (s : State) : pumpSubs r s = (r, s) := by
  cases he : r.engine with
  | none => unfold pumpSubs; rw [he]
  | some e => rw [pumpSubs_of_engine he, foldl_pumpSub_of_sent e h]; rfl

theorem Served.pumpSubs (r : GthReq) (s : State) : Served (r, s) (pumpSubs r s) := by
  cases he : r.engine with
  | none => unfold Machine.pumpSubs; rw [he]; exact .refl _
  | some e => rw [pumpSubs_of_engine he]; exact ⟨rfl, foldl_pumpSub_served e _ ([], s)⟩

theorem Served.startGather (r : GthReq) (s : State) : Served (r, s) (startGather r s) := by
  unfold Machine.startGather
  dsimp only
  refine .trans ?_ ((Served.resolveRows ..).trans (Served.pumpSubs ..))
  exact ⟨rfl, .refl s⟩

end Sys2Proof.Machine
end

section
namespace Sys2Proof.Machine

/-! ## `GATHER_POOL` (R303, R304) -/

theorem gatherPool_completes {p : Packet} (hp : p.wf = true) (s : State) :
    Completes (.gatherPool p) s (reassemble p gatherPool s) := run_ok hp rfl

/-- The count of refused requests of an engine is no other field, and has 16 bits. -/
theorem satGthRefused_field : ∀ e, e < 8 →
    satWidth (satGthRefused e) = 16 ∧ satImgStale ≠ satGthRefused e ∧ satFabUnknown ≠ satGthRefused e := by
  decide

/-- A request taken, and counted as refused by the engine it would go to. -/
def countPoolRefused (p : Packet) (s : State) : State := bumpSat (satGthRefused (s.gthPick.getD 0)) (take p s)

theorem gatherPool_of_refused {p : Packet} {s : State} {st : Status} {h : Nat} (hr : s.gthRefusal p = .error (st, h)) :
    gatherPool p s = reply p st h [] (countPoolRefused p s) := by
  have refused : (take p s).gthRefusal p = .error (st, h) := hr
  unfold gatherPool
  dsimp only
  rw [refused]
  rfl

/-- A refused request is answered once and counted as refused; nothing of Gather changes. -/
theorem refusedPool_spec {p : Packet} {st : Status} {h : Nat} {s u : State} (hu : u = reply p st h [] (countPoolRefused p s)) :
    Answered p st h [] s u ∧ u.gth = s.gth
      ∧ u.satVal (satGthRefused (s.gthPick.getD 0)) = satAdd 16 (s.satVal (satGthRefused (s.gthPick.getD 0))) 1 := by
  have engine : s.gthPick.getD 0 < 8 := by
    cases pick : s.gthPick with
    | none => decide
    | some e => exact (gthPick_unfenced pick).1
  obtain ⟨width, stale, unknown⟩ := satGthRefused_field _ engine
  have counted : LogApart (take p s) (countPoolRefused p s) := bumpSat_apart ..
  have sent := reply_apart p st h (countPoolRefused p s)
  rw [← hu] at sent
  refine ⟨answered_of_addTx sent (by rw [counted]) rfl, ?_, ?_⟩
  · rw [sent, addTx, counted]; rfl
  · have raised : ∀ f, u.satVal f = (countAnswer st (countPoolRefused p s)).satVal f := fun f => by
      rw [hu, reply_short]; rfl
    rw [raised, satVal_countAnswer stale unknown, countPoolRefused, satVal_bumpSat, width]
    rfl

/-- The frame exponent a request is bound to (R51, R304). -/
def State.poolFrame (s : State) (d : List Byte) (p : Packet) : Int :=
  if (gthHdr p.payload).f = 0x8000 then
    (s.forcedF p.saggar (aget s.sit p.saggar {}).curStep 0 0xFFF 3 (gthKey (gthHdr p.payload))).getD (gthFrameExp d (gthHdr p.payload))
  else gthFrameExp d (gthHdr p.payload)

/-- Binding a request to its frame enters it in the step's record at most. -/
theorem gthFrame_spec (d : List Byte) (p : Packet) (s : State) :
    (gthFrame d p s).1 = s.poolFrame d p ∧ (gthFrame d p s).2 = { s with sit := (gthFrame d p s).2.sit } := by
  unfold gthFrame State.poolFrame
  dsimp only
  split
  · exact ⟨rfl, rfl⟩
  next derived => exact ⟨(if_pos (not_not.mp derived)).symm, rfl⟩

/-- The request as it is bound (R303). -/
def State.boundPool (s : State) (d : List Byte) (p : Packet) : GthReq :=
  { id := s.gth.nextReq, call := p, engine := s.gthPick, def_ := d, f := s.poolFrame d p }

/-- A request enters the table of requests. -/
def enterPool (r : GthReq) (s : State) : State :=
  setGth (fun q => { q with nextReq := q.nextReq + 1, reqs := q.reqs ++ [r] }) s

theorem gatherPool_of_accepted {p : Packet} {s : State} {d : List Byte} (hr : s.gthRefusal p = .ok d) : ∃ t : State,
    t = { take p s with sit := t.sit } ∧ gatherPool p s = putGth (startGather (s.boundPool d p) (enterPool (s.boundPool d p) t)).1
      (startGather (s.boundPool d p) (enterPool (s.boundPool d p) t)).2 := by
  have accepted : (take p s).gthRefusal p = .ok d := hr
  obtain ⟨exponent, frame⟩ := gthFrame_spec d p (take p s)
  refine ⟨(gthFrame d p (take p s)).2, frame, ?_⟩
  have bound : s.boundPool d p = { id := (gthFrame d p (take p s)).2.gth.nextReq, call := p
                                   engine := (gthFrame d p (take p s)).2.gthPick, def_ := d, f := (gthFrame d p (take p s)).1 } := by
    rw [frame, exponent]; rfl
  rw [bound]
  unfold gatherPool
  dsimp only
  rw [accepted]
  rfl

/-- The last request is put back where no other has its number. -/
theorem map_put_last {l : List GthReq} {r r' : GthReq} (hid : r'.id = r.id) (hl : ∀ x ∈ l, x.id ≠ r.id) :
    (l ++ [r]).map (fun x => if x.id = r'.id then r' else x) = l ++ [r'] := by
  have others : l.map (fun x => if x.id = r.id then r' else x) = l :=
    (List.map_congr_left fun x hx => if_neg (hl x hx)).trans (List.map_id l)
  rw [List.map_append, hid, others, List.map_singleton, if_pos rfl]

/-- An accepted request is the last of the table, and nothing else of Gather changes. -/
theorem acceptedPool_spec {p : Packet} {s : State} {d : List Byte} (hr : s.gthRefusal p = .ok d)
    (fresh : ∀ x ∈ s.gth.reqs, x.id ≠ s.gth.nextReq) {u : State} (hu : u = gatherPool p s) :
    ∃ r, u.gth.reqs = s.gth.reqs ++ [r] ∧ (s.boundPool d p).advanced r ∧ u.gth.nextReq = s.gth.nextReq + 1
      ∧ u.gth.dir = s.gth.dir ∧ u.fab.inbox = s.fab.inbox.erase p := by
  obtain ⟨t, frame, accepted⟩ := gatherPool_of_accepted hr
  obtain ⟨advanced, served⟩ := Served.startGather (s.boundPool d p) (enterPool (s.boundPool d p) t)
  have inbox := served.2
  have gth := served.gth
  rw [accepted] at hu
  generalize startGather (s.boundPool d p) (enterPool (s.boundPool d p) t) = x at *
  obtain ⟨r, w⟩ := x
  have number : r.id = (s.boundPool d p).id := by rw [show r = _ from advanced]
  refine ⟨r, ?_, advanced, ?_, ?_, ?_⟩
  · rw [hu]
    show w.gth.reqs.map (fun x => if x.id = r.id then r else x) = _
    rw [gth, frame]
    exact map_put_last number fresh
  · rw [hu]
    show w.gth.nextReq = _
    rw [gth, frame]; rfl
  · rw [hu]
    show w.gth.dir = _
    rw [gth, frame]; rfl
  · rw [hu]
    show w.fab.inbox = _
    rw [inbox, frame]; rfl

end Sys2Proof.Machine
end

section
namespace Sys2Proof.Machine

/-! ## `GATHER_POOL_DONE` (R305, R306) -/

theorem gatherPoolDone_completes {id : Nat} (h : id < 2 ^ 32) (s : State) : Completes (.gatherPoolDone id) s (gatherDone id s) :=
  run_ok (decide_eq_true h) rfl

theorem gatherDone_of_none {id : Nat} {s : State} (h : s.gth.reqs.find? (fun r => r.id = id && r.engine.isSome) = none) :
    gatherDone id s = s := by
  unfold gatherDone
  rw [h]

/-- With no entry to serve, the count of moved rows is raised by none. -/
theorem resolveRows_of_none (r : GthReq) (s : State) : ∃ t : State, t = { s with ctr := t.ctr } ∧ resolveRows r [] s = (r, t) := by
  unfold resolveRows
  dsimp only
  split
  · exact ⟨s, rfl, rfl⟩
  · refine ⟨bumpCtr (gthSkew r.call.saggar (gTable r.def_) + 16) 0 s, rfl, ?_⟩
    show (({ r with subs := r.subs ++ [] } : GthReq), _) = _
    rw [List.append_nil]
    rfl

/-- The requests without one that has ended. -/
def dropPool (id : Nat) (s : State) : State := setGth (fun q => { q with reqs := q.reqs.filter (fun x => x.id ≠ id) }) s

/-- A request whose rows are all read and whose sub-requests are all sent: it waits for their answers, or is answered. -/
theorem gatherDone_of_read {id : Nat} {r : GthReq} {s : State}
    (hf : s.gth.reqs.find? (fun r => r.id = id && r.engine.isSome) = some r) (left : r.left = [])
    (sent : ∀ m ∈ r.subs, m.tag.isSome = true) : ∃ t : State, t = { s with ctr := t.ctr }
      ∧ gatherDone id s = if r.subs ≠ [] then putGth r t else gthReply r (dropPool id t) := by
  have same : ({ r with left := [] } : GthReq) = r := by rw [← left]
  obtain ⟨t, ht, rows⟩ := resolveRows_of_none r s
  refine ⟨t, ht, ?_⟩
  unfold gatherDone
  rw [hf]
  dsimp only
  rw [left, same, rows]
  dsimp only
  rw [pumpSubs_of_sent sent]
  dsimp only
  rw [left]
  simp [dropPool]

/-- What is found by its number is put back as it was. -/
theorem putGth_of_found {r : GthReq} {s : State} (one : ∀ x ∈ s.gth.reqs, x.id = r.id → x = r) : (putGth r s).gth = s.gth := by
  have same : s.gth.reqs.map (fun x => if x.id = r.id then r else x) = s.gth.reqs := by
    refine (List.map_congr_left fun x hx => ?_).trans (List.map_id _)
    split
    next h => exact (one x hx h).symm
    next => rfl
  show ({ s.gth with reqs := s.gth.reqs.map (fun x => if x.id = r.id then r else x) } : Gth) = _
  rw [same]

/-! ### The answer of a request that ends -/

/-- The head of an answer (R306). -/
def GthReq.head (r : GthReq) (n : Nat) : List Byte :=
  natLe (gthHdr r.call.payload).nRows 4 ++ natLe (unsignedW 16 r.f) 2 ++ natLe (min n 65535) 2 ++ zeros 8

/-- The partial frames of a sub-request's sum, packed (R304). -/
def GthReq.partials (r : GthReq) : List Byte :=
  let w := (gthHdr r.call.payload).wSel
  pad8 ((cutEvery (perPacket 15 w) r.frames).flatMap (frameBytes (widthOf w) (perPacket 15 w)))

/-- The finished elements of a sum, each with its encoding's flags and its overflow flag (R305). -/
def GthReq.vector (r : GthReq) : List ((Nat × Bool) × Bool) :=
  let h := gthHdr r.call.payload
  r.frames.map (fun x => ((if h.pool = 1 then x.mean h.nRows h.outFmt else encodeElem h.outFmt x.value), x.ovf))

section
variable {r : GthReq} (s : State)

theorem gthReply_of_failed {c : Nat} (h : r.failed = some c) : gthReply r s = reply r.call (failStatus c) 0 [] s := by
  unfold gthReply
  rw [h]

variable (ok : r.failed = none)
include ok

theorem gthReply_of_poison (poison : r.poison = true) (fwd : (gthHdr r.call.payload).fwd = 0) {e : Nat} (he : r.engine = some e) :
    gthReply r s = reply r.call .poison 0 (r.head 0) (bumpSat (satGthPoison e) s) := by
  unfold gthReply
  rw [ok]
  dsimp only
  rw [if_pos poison, he, if_pos fwd]
  rfl

variable (clean : r.poison = false)
include clean

theorem gthReply_of_forwarded (fwd : (gthHdr r.call.payload).fwd ≠ 0) : gthReply r s = reply r.call .ok 0 r.partials s := by
  unfold gthReply
  rw [ok]
  dsimp only
  rw [if_neg (by rw [clean]; decide), if_pos fwd]
  rfl

theorem gthReply_of_own (fwd : (gthHdr r.call.payload).fwd = 0) : gthReply r s
    = reply r.call (if (r.vector.filter (·.2)).length = 0 then .ok else .overflow) 0
      (pad8 (r.head (r.vector.filter (·.2)).length ++ packElems (gthHdr r.call.payload).outFmt (r.vector.map (·.1.1)))) s := by
  unfold gthReply
  rw [ok]
  dsimp only
  rw [if_neg (by rw [clean]; decide), if_neg (not_not.mpr fwd)]
  rfl

end

end Sys2Proof.Machine
end

section
namespace Sys2Proof.Machine

/-! ## `GATHER_MIGRATE` (R309) -/

theorem gatherMigrate_completes {p : Packet} {s : State} (hp : p.wf = true) (hr : s.rptRefusal p = none)
    (hproc : callProc p = 0xFFB) : Completes (.gatherMigrate p) s (gatherMigrate p (take p s)) :=
  run_ok hp (serveProc_of_open hproc hr _)

theorem gatherMigrate_of_no_table {p : Packet} {s : State} (h : s.gdef p.saggar (bits (le (callArgs p) 0 8) 0 6) = none) :
    gatherMigrate p s = reply p .denied 0 [] s := by
  unfold gatherMigrate
  dsimp only
  rw [h]

/-- The read of a row's copy begins. -/
def readCopy (p : Packet) (d : List Byte) (src : Nat) (s : State) : Xfer × State :=
  pumpAll (.gather s.fwdEngine) (xferRead src (gRowBytes d) p.saggar 5) s

/-- The migration of a row to its default slot at an address, with the read of its copy. -/
def homeMove (p : Packet) (d : List Byte) (row dst : Nat) (rd : Xfer) : GthMove :=
  { call := p, saggar := p.saggar, table := gTable d, gen := gGen d, row := row, dstAddr := dst, rd := rd }

/-- A row is frozen, and its copy from one address to its default slot begins. -/
def startMoveHome (p : Packet) (d : List Byte) (row src dst : Nat) (s : State) : State :=
  setGth (fun x => { x with
    dir := aset x.dir (p.saggar, gTable d, gGen d, row) { frozen := true, moved := (s.gEntry p.saggar d row).moved }
    moves := x.moves ++ [homeMove p d row dst (readCopy p d src s).1] }) (readCopy p d src s).2

/-- A row of this chip that has moved goes back to its default slot, unless it is frozen. -/
theorem gatherMigrate_home {p : Packet} {s : State} {a row n off : Nat} {d : List Byte} {r rs : Region} {moved : Nat × Nat × Nat}
    (ha : a = le (callArgs p) 0 8) (table : s.gdef p.saggar (bits a 0 6) = some d) (whole : 8 ≤ (callArgs p).length)
    (hrow : row = bits a 32 32) (inTable : row < gRows d) (owner : s.rowOwner p.saggar d row = some n)
    (own : s.homes.contains n = true) (hot : bits a 8 8 = 0xFF) (hmoved : (s.gEntry p.saggar d row).moved = some moved)
    (slot : moved.2.1 ≠ 0xFF) (engines : s.gthUnits ≠ []) (listed : ahas s.gth.dir (p.saggar, gTable d, gGen d, row) = true)
    (place : s.rowPlace p.saggar d row = some (r, off))
    (shard : s.regionKnown p.saggar (gShard d (row % gShards d)) = some rs) :
    gatherMigrate p s = if (s.gEntry p.saggar d row).frozen then reply p .nackRetry 14 [] s
      else startMoveHome p d row (placeAddr r off) (placeAddr rs (rowOffset d row)) s := by
  obtain ⟨node, hotIndex, place'⟩ := moved
  subst ha hrow
  rw [List.contains_iff_mem] at own
  unfold gatherMigrate
  dsimp only
  rw [table]
  dsimp only
  rw [owner, hmoved, hot]
  dsimp only at slot ⊢
  rw [place, shard, if_neg (by simp [own]; omega), if_pos rfl, startMoveHome, hmoved]
  cases frozen : (s.gEntry p.saggar d (bits (le (callArgs p) 0 8) 32 32)).frozen with
  | true => exact if_pos (.inr (.inl rfl))
  | false => exact if_neg (by simpa [listed] using engines)

/-- The directory holds the row as frozen and every other as before, and the copy is the last under way. -/
theorem startMoveHome_spec (p : Packet) (d : List Byte) (row src dst : Nat) {s u : State} (hu : u = startMoveHome p d row src dst s) :
    u.fab.inbox = s.fab.inbox
      ∧ afind u.gth.dir (p.saggar, gTable d, gGen d, row) = some { s.gEntry p.saggar d row with frozen := true }
      ∧ (∀ k, k ≠ (p.saggar, gTable d, gGen d, row) → afind u.gth.dir k = afind s.gth.dir k)
      ∧ ∃ m, u.gth.moves = s.gth.moves ++ [m] ∧ m.call = p ∧ m.row = row ∧ m.dest = none ∧ m.dstAddr = dst
        ∧ m.rd.len = gRowBytes d := by
  obtain ⟨⟨tags, next, same⟩, frame, inbox⟩ := pumpAll_spec (.gather s.fwdEngine) (xferRead src (gRowBytes d) p.saggar 5) s
  have gth : (readCopy p d src s).2.gth = s.gth := by rw [readCopy, frame]
  subst hu
  refine ⟨inbox, ?_, fun k hk => ?_, homeMove p d row dst (readCopy p d src s).1, ?_, rfl, rfl, rfl, rfl, ?_⟩
  · exact afind_aset_self ..
  · rw [startMoveHome, setGth, gth]
    exact (afind_aset ..).trans (if_neg hk.symm)
  · rw [startMoveHome, setGth, gth]
  · rw [homeMove, readCopy, same]
    rfl

/-! ## `MIGRATION_COPY_DONE` (R309) -/

theorem migrationCopyDone_completes {g t row : Nat} (hg : g < 64) (ht : t < 64) (hrow : row < 2 ^ 48) (ok : Bool) (s : State) :
    Completes (.migrationCopyDone g t row ok) s (migrationDone g t row ok s) :=
  run_ok (by rw [decide_eq_true hg, decide_eq_true ht, decide_eq_true hrow]; rfl) rfl

/-- The directory with a row where it was, unfrozen. -/
def unfreezeRow (key : Nat × Nat × Nat × Nat) (dir : Assoc (Nat × Nat × Nat × Nat) GthEntry) : Assoc (Nat × Nat × Nat × Nat) GthEntry :=
  if (aget dir key {}).moved = none then aerase dir key else aset dir key { aget dir key {} with frozen := false }

theorem aget_unfreezeRow (key : Nat × Nat × Nat × Nat) (dir : Assoc (Nat × Nat × Nat × Nat) GthEntry) :
    aget (unfreezeRow key dir) key {} = { aget dir key {} with frozen := false } := by
  unfold unfreezeRow
  split
  next unmoved => rw [aget_aerase, if_pos rfl]; simp [unmoved]
  next => exact aget_aset_self ..

/-- The directory with a row at its destination, unfrozen. -/
def placeRow (key : Nat × Nat × Nat × Nat) (dest : Option (Nat × Nat × Nat)) (dir : Assoc (Nat × Nat × Nat × Nat) GthEntry) :
    Assoc (Nat × Nat × Nat × Nat) GthEntry :=
  match dest with
  | none => aerase dir key
  | some d => aset dir key { moved := some d }

theorem aget_placeRow (key : Nat × Nat × Nat × Nat) (dest : Option (Nat × Nat × Nat))
    (dir : Assoc (Nat × Nat × Nat × Nat) GthEntry) : aget (placeRow key dest dir) key {} = { moved := dest } := by
  cases dest with
  | none => exact (aget_aerase ..).trans (if_pos rfl)
  | some d => exact aget_aset_self ..

/-- A migration ends with its row's entry as `f` leaves it. -/
def endMigration (m : GthMove) (f : Assoc (Nat × Nat × Nat × Nat) GthEntry → Assoc (Nat × Nat × Nat × Nat) GthEntry) (s : State) : State :=
  setGth (fun x => { x with moves := x.moves.erase m, dir := f x.dir }) s

/-- Where a row has moved to, as the answer gives it (R309). -/
def GthMove.place (m : GthMove) : Nat :=
  match m.dest with
  | some (n, i, sl) => sl + i * 2 ^ 24 + n * 2 ^ 32
  | none => 0xF * 2 ^ 24 + addrNode m.dstAddr * 2 ^ 32

theorem poisonSlot_apart (g : Nat) (d : List Byte) (row : Nat) (s : State) : PoolApart s (poisonSlot g d row s) := by
  unfold poisonSlot
  split
  · exact .refl s
  · refine .overLoop (fun pc s => ?_) _ s
    split
    next h => exact .trans (.of_eq h (.frameForWrite ..)) (.poisonGrain ..)
    next h => exact .of_eq h (.frameForWrite ..)

/-- A row that leaves its default slot for a hot one leaves that slot poisoned. -/
def poisonLeft (g t row : Nat) (m : GthMove) (was : GthEntry) (s : State) : State :=
  match s.gdefGen g t m.gen with
  | some d => when_ (was.moved = none && m.dest.isSome) (poisonSlot g d row) s
  | none => s

theorem poisonLeft_apart (g t row : Nat) (m : GthMove) (was : GthEntry) (s : State) : PoolApart s (poisonLeft g t row m was s) := by
  unfold poisonLeft when_
  split
  · split
    · exact poisonSlot_apart ..
    · exact .refl s
  · exact .refl s

section
variable {g t row : Nat} {s : State}

theorem migrationDone_of_none (h : s.gth.moves.find? (fun m => m.saggar = g && m.table = t && m.row = row) = none) (ok : Bool) :
    migrationDone g t row ok s = s := by
  unfold migrationDone
  rw [h]

variable {m : GthMove} (hm : s.gth.moves.find? (fun m => m.saggar = g && m.table = t && m.row = row) = some m)
include hm

theorem migrationDone_of_mismatch : migrationDone g t row false s
    = reply m.call .poison 0 [] (endMigration m (unfreezeRow (g, t, m.gen, row)) s) := by
  unfold migrationDone
  rw [hm]
  dsimp only
  rw [if_pos (.inl rfl)]
  rfl

variable (read : m.rd.failed = none)
include read

theorem migrationDone_of_unwritten (hw : m.wr = none) : migrationDone g t row true s = s := by
  unfold migrationDone
  rw [hm]
  simp [read, hw]

/-- The copy is whole: the row is at its destination, and the slot it has left is poisoned where it must be. -/
theorem migrationDone_of_whole {w : Xfer} (hw : m.wr = some w) (wrote : w.failed = none) (ended : w.ended = true) :
    migrationDone g t row true s = reply m.call .ok 0 (rptResult 0 (natLe m.place 8))
      (poisonLeft g t row m (aget s.gth.dir (g, t, m.gen, row) {}) (endMigration m (placeRow (g, t, m.gen, row) m.dest) s)) := by
  have copied : m.rd.failed.or (m.wr.bind (·.failed)) = none := by rw [read, hw]; exact wrote
  unfold migrationDone
  rw [hm]
  dsimp only
  rw [if_neg (by simp [copied]), copied, hw]
  dsimp only
  rw [if_neg (by simp [ended])]
  rfl

end

end Sys2Proof.Machine
end

section
namespace Sys2Proof.Machine

/-! ## Fences of Gather engines (R325) -/

/-- A request without an engine restarts on one, if any is in service. -/
def rehomeReq (r : GthReq) (s : State) : State :=
  match s.gthPick with
  | none => s
  | some e => match startGather { r with engine := some e } (putGth { r with engine := some e } s) with
    | (r, s) => putGth r s

theorem rehomeGather_eq (s : State) : rehomeGather s = forEach (s.gth.reqs.filter (fun r => r.engine.isNone)) rehomeReq s := rfl

/-- A request that restarts takes the place of those of its number. -/
theorem rehomeReq_spec (r : GthReq) (s : State) : (rehomeReq r s).gth.unit = s.gth.unit ∧ (rehomeReq r s).out = s.out
    ∧ ∀ x ∈ s.gth.reqs, x ∈ (rehomeReq r s).gth.reqs
      ∨ x.id = r.id ∧ ∃ y ∈ (rehomeReq r s).gth.reqs, y.id = r.id ∧ y.call = r.call ∧ y.def_ = r.def_ ∧ y.engine = s.gthPick := by
  unfold rehomeReq
  cases pick : s.gthPick with
  | none => exact ⟨rfl, rfl, fun x hx => .inl hx⟩
  | some e =>
    dsimp only
    obtain ⟨advanced, served⟩ := Served.startGather { r with engine := some e } (putGth { r with engine := some e } s)
    have gth := served.gth
    have out := served.out
    generalize startGather { r with engine := some e } (putGth { r with engine := some e } s) = y at *
    obtain ⟨r', w⟩ := y
    dsimp only at advanced gth out ⊢
    have number : r'.id = r.id := by rw [show r' = _ from advanced]
    have table : (putGth r' w).gth.reqs
        = (s.gth.reqs.map (fun x => if x.id = r.id then { r with engine := some e } else x)).map
          (fun x => if x.id = r'.id then r' else x) := congrArg (fun q : Gth => q.reqs.map _) gth
    refine ⟨show w.gth.unit = _ by rw [gth]; rfl, out, fun x hx => ?_⟩
    rw [table, List.map_map]
    by_cases same : x.id = r.id
    · refine .inr ⟨same, r', List.mem_map.mpr ⟨x, hx, ?_⟩, number, ?_⟩
      · simp [same, number]
      · rw [show r' = _ from advanced]; exact ⟨rfl, rfl, rfl⟩
    · exact .inl (List.mem_map.mpr ⟨x, hx, by simp [same, number]⟩)

theorem rehomeGather_spec (s : State) : (rehomeGather s).gth.unit = s.gth.unit ∧ (rehomeGather s).out = s.out :=
  forEach_rel (R := fun s t => t.gth.unit = s.gth.unit ∧ t.out = s.out) (fun _ => ⟨rfl, rfl⟩)
    (fun h k => ⟨k.1.trans h.1, k.2.trans h.2⟩) (fun r s => ⟨(rehomeReq_spec r s).1, (rehomeReq_spec r s).2.1⟩) _ s

/-- A request with the same call and definition is there, on another engine than `e` or on none. -/
def State.keepsReq (s : State) (e : Nat) (r : GthReq) : Prop :=
  ∃ r' ∈ s.gth.reqs, r'.id = r.id ∧ r'.call = r.call ∧ r'.def_ = r.def_ ∧ r'.engine ≠ some e

/-- Where no two requests of a list have one number, each restarts without another being lost. -/
theorem keepsReq_rehomeReq {e : Nat} {s : State} {reqs : List GthReq} (distinct : (reqs.map (·.id)).Nodup)
    (fenced : (s.gthFence e).on = true) {r : GthReq} (listed : ∃ x ∈ reqs, r.id = x.id ∧ r.call = x.call ∧ r.def_ = x.def_)
    (h : ∀ x ∈ reqs, s.keepsReq e x) : ∀ x ∈ reqs, (rehomeReq r s).keepsReq e x := by
  intro x hx
  obtain ⟨y, hy, number, call, table, engine⟩ := h x hx
  rcases (rehomeReq_spec r s).2.2 y hy with kept | ⟨same, z, hz, number', call', table', engine'⟩
  · exact ⟨y, kept, number, call, table, engine⟩
  · obtain ⟨o, ho, onumber, ocall, otable⟩ := listed
    have one : x = o := List.inj_on_of_nodup_map distinct hx ho (number.symm.trans (same.trans onumber))
    subst one
    exact ⟨z, hz, number'.trans onumber, call'.trans ocall, table'.trans otable, engine' ▸ gthPick_ne_of_fenced fenced⟩

/-- A fenced engine with its requests taken off it. -/
def vacateEngine (e cause : Nat) (s : State) : State := setGth (fun q => { q with
  unit := aset q.unit e { on := true, cause := cause }
  reqs := q.reqs.map (fun r => if r.engine = some e then { r with engine := none } else r) })
  { s with fab := { s.fab with outst := s.fab.outst.filter (fun q => !(q.req = .gather e
    && ((s.gth.reqs.filter (fun r => r.engine = some e)).flatMap (fun r => r.subs.filterMap (·.tag))).contains q.ref)) } }

theorem fenceGather_eq (e cause : Nat) (s : State) : fenceGather e cause s = rehomeGather (vacateEngine e cause s) := rfl

theorem gthFence_of_unit {s t : State} (h : t.gth.unit = s.gth.unit) (k : Nat) : t.gthFence k = s.gthFence k := by
  rw [State.gthFence, h]; rfl

/-- A fence sets the engine's own state and no other's, and with requests told apart by their numbers loses none. -/
theorem fenceGather_spec (e cause : Nat) (s : State) :
    (fenceGather e cause s).gthFence e = { on := true, cause := cause }
      ∧ (∀ k, k ≠ e → (fenceGather e cause s).gthFence k = s.gthFence k) ∧ (fenceGather e cause s).out = s.out
      ∧ ((s.gth.reqs.map (·.id)).Nodup → ∀ r ∈ s.gth.reqs, (fenceGather e cause s).keepsReq e r) := by
  obtain ⟨unit, out⟩ := rehomeGather_spec (vacateEngine e cause s)
  have fenced : (vacateEngine e cause s).gthFence e = { on := true, cause := cause } := aget_aset_self ..
  rw [fenceGather_eq]
  refine ⟨(gthFence_of_unit unit e).trans fenced, fun k hk => (gthFence_of_unit unit k).trans (aget_aset_ne _ _ _ hk.symm), out,
    fun distinct => ?_⟩
  rw [rehomeGather_eq]
  refine (forEach_keeps_of_mem (P := fun t => t.gth.unit = (vacateEngine e cause s).gth.unit ∧ ∀ x ∈ s.gth.reqs, t.keepsReq e x) _
    (fun r hr t ht => ⟨(rehomeReq_spec r t).1.trans ht.1, keepsReq_rehomeReq distinct ?_ ?_ ht.2⟩) _ ⟨rfl, fun x hx => ?_⟩).2
  · rw [gthFence_of_unit ht.1, fenced]
  · obtain ⟨x, hx, rfl⟩ := List.mem_map.mp (List.mem_filter.mp hr).1
    exact ⟨x, hx, by split <;> exact ⟨rfl, rfl, rfl⟩⟩
  · refine ⟨_, List.mem_map_of_mem hx, ?_⟩
    split
    · exact ⟨rfl, rfl, rfl, fun h => by cases h⟩
    next other => exact ⟨rfl, rfl, rfl, other⟩

/-- A fence lifted. -/
def liftGather (e : Nat) (s : State) : State := rehomeGather (setGth (fun q => { q with unit := aset q.unit e {} }) s)

theorem liftGather_spec (e : Nat) (s : State) : (liftGather e s).gthFence e = {}
    ∧ (∀ k, k ≠ e → (liftGather e s).gthFence k = s.gthFence k) ∧ (liftGather e s).out = s.out := by
  obtain ⟨unit, out⟩ := rehomeGather_spec (setGth (fun q => { q with unit := aset q.unit e {} }) s)
  exact ⟨(gthFence_of_unit unit e).trans (aget_aset_self ..),
    fun k hk => (gthFence_of_unit unit k).trans (aget_aset_ne _ _ _ hk.symm), out⟩

section
variable {who : Who} {e : Nat} (hw : who.wf = true) (he : e < 8) {s : State} (hgate : s.csrGate who (gthCtrl e) true = none)
include hw he hgate

theorem gthFence_completes :
    Completes (.gthFence who e) s (fenceGather e (fenceCauseOf who) (answerCsr who (gthCtrl e) .ok 0 s)) :=
  run_ok (by rw [hw, decide_eq_true he]; rfl) (ctlWrite_of_open hgate)

theorem gthUnfence_of_lifted (hlift : liftsFence who = true) :
    Completes (.gthUnfence who e) s (liftGather e (answerCsr who (gthCtrl e) .ok 0 s)) :=
  run_ok (by rw [hw, decide_eq_true he]; rfl) (by rw [hlift, ctlWrite_of_open hgate]; rfl)

theorem gthUnfence_of_denied (hlift : liftsFence who = false) :
    Completes (.gthUnfence who e) s (answerCsr who (gthCtrl e) .denied 0 s) :=
  run_ok (by rw [hw, decide_eq_true he]; rfl) (by rw [hlift, ctlWrite_of_not_allowed hgate])

end

end Sys2Proof.Machine
end

section
namespace Sys2Proof.Machine

/-! ## Pooling requests, migrations and engines -/

/-- A request that is found has the number asked for, and stands on an engine. -/
theorem key_of_pool {id : Nat} {r : GthReq} {l : List GthReq} (hf : l.find? (fun r => r.id = id && r.engine.isSome) = some r) :
    r.id = id ∧ ∃ e, r.engine = some e := by
  have key := List.find?_some hf
  rwa [Bool.and_eq_true, decide_eq_true_eq, Option.isSome_iff_exists] at key

/-- A finished vector is answered with a status that no field counts. -/
theorem uncounted_vector (n : Nat) : uncounted (if n = 0 then .ok else .overflow) = true := by
  split <;> rfl

/-- A request that ends is answered without data, and is no longer in the table. -/
theorem endedPool_refused {id : Nat} {p : Packet} {st : Status} {s t : State} (ht : t = { s with ctr := t.ctr }) {u : State}
    (hu : u = reply p st 0 [] (dropPool id t)) :
    Replied p st 0 [] s u ∧ u.gth.reqs = s.gth.reqs.filter (fun x => x.id ≠ id) := by
  have fab : (dropPool id t).fab = s.fab := by rw [ht]; rfl
  obtain ⟨replied, gth, -⟩ := replied_refusal p st 0 fab
  subst hu
  refine ⟨replied, ?_⟩
  rw [gth, ht]
  rfl

/-- A request that ends is answered with a train, and is no longer in the table. -/
theorem endedPool_train {id : Nat} {p : Packet} {st : Status} {data : List Byte} (hst : uncounted st = true) {s t : State}
    (ht : t = { s with ctr := t.ctr }) {u : State} (hu : u = reply p st 0 data (dropPool id t)) :
    RepliedTrain p st 0 data s u ∧ u.gth.reqs = s.gth.reqs.filter (fun x => x.id ≠ id) := by
  have fab : (dropPool id t).fab = s.fab := by rw [ht]; rfl
  obtain ⟨replied, frame⟩ := repliedTrain_result (p := p) (data := data) hst (hint := 0) fab
  rw [← hu] at replied frame
  refine ⟨replied, ?_⟩
  rw [frame, ht]
  rfl

/-- The head of an answer fits one packet. -/
theorem head_short (r : GthReq) (n : Nat) : (r.head n).length ≤ 512 := by
  simp only [GthReq.head, zeros, List.length_append, natLe_length, List.length_replicate]
  decide

/-- A poisoned request that ends is counted by its engine and answered with the head alone. -/
theorem endedPool_poisoned {id e : Nat} {r : GthReq} {s t : State} (ht : t = { s with ctr := t.ctr }) {u : State}
    (hu : u = reply r.call .poison 0 (r.head 0) (bumpSat (satGthPoison e) (dropPool id t))) :
    Replied r.call .poison 0 (r.head 0) s u ∧ u.gth.reqs = s.gth.reqs.filter (fun x => x.id ≠ id) := by
  have counted := bumpSat_frame (satGthPoison e) (dropPool id t)
  have fab : (bumpSat (satGthPoison e) (dropPool id t)).fab = s.fab := by rw [counted, ht]; rfl
  obtain ⟨replied, frame⟩ := replied_result (p := r.call) (st := .poison) rfl (head_short r 0) (hint := 0) fab
  rw [← hu] at replied frame
  refine ⟨replied, ?_⟩
  rw [frame, counted, ht]
  rfl

/-- A migration that fails is answered `POISON`, its row where it was and unfrozen. -/
theorem failedMove_spec {m : GthMove} {key : Nat × Nat × Nat × Nat} {s u : State}
    (hu : u = reply m.call .poison 0 [] (endMigration m (unfreezeRow key) s)) :
    Replied m.call .poison 0 [] s u ∧ u.gth.moves = s.gth.moves.erase m
      ∧ aget u.gth.dir key {} = { aget s.gth.dir key {} with frozen := false } := by
  obtain ⟨replied, gth, -⟩ := replied_refusal m.call .poison 0 (t := endMigration m (unfreezeRow key) s) (s := s) rfl
  subst hu
  refine ⟨replied, ?_, ?_⟩ <;> rw [gth]
  · rfl
  · exact aget_unfreezeRow ..

/-- A migration whose copy is whole is answered with the place, its row there and unfrozen. -/
theorem wholeMove_spec {m : GthMove} {key : Nat × Nat × Nat × Nat} {s v u : State}
    (hv : PoolApart (endMigration m (placeRow key m.dest) s) v) (hu : u = reply m.call .ok 0 (rptResult 0 (natLe m.place 8)) v) :
    Replied m.call .ok 0 (rptResult 0 (natLe m.place 8)) s u ∧ u.gth.moves = s.gth.moves.erase m
      ∧ aget u.gth.dir key {} = { moved := m.dest } := by
  obtain ⟨replied, frame⟩ := replied_result (p := m.call) (st := .ok) rfl (rptResult_word_short m.place le_rfl) (hint := 0) (s := s) (t := v)
    hv.fab
  rw [← hu] at replied frame
  refine ⟨replied, ?_, ?_⟩ <;> rw [frame, hv]
  · rfl
  · exact aget_placeRow ..

/-- Settles O43: an accepted request by what serving its rows keeps of it, one that ends by its answer, a migration by its
row's entry in the directory, a fence by what restarting the requests elsewhere keeps. -/
theorem gathering : Obligations.Gathering := by
  intro s p hp
  refine ⟨fun ht hj => ?_, fun w ht hj => ?_, fun st h ht href => ?_, fun d ht hacc fresh => ?_, fun id hid hnone => ?_,
    fun id r hid hf left => ⟨fun hsubs sent one => ?_, fun hsubs h hh => ?_⟩,
    fun a hr hproc ha => ⟨fun hnone => ?_, fun d row n r off rs table whole hrow inTable owner own hot hmoved slot engines listed
      place shard => ?_⟩,
    fun g t row hg ht hrow => ⟨fun b hnone => ?_, fun m w hm => ⟨?_, fun read hw wrote ended => ?_, fun read hw => ?_⟩⟩,
    fun who e hw he hgate => ⟨?_, fun hlift => ?_, fun hlift => ?_⟩⟩
  · have completes := gatherPool_completes hp s
    rwa [reassemble_of_part ht hj] at completes
  · have completes := gatherPool_completes hp s
    rwa [reassemble_of_last ht hj] at completes
  · have completes := gatherPool_completes hp s
    rw [reassemble_of_whole ht, gatherPool_of_refused href] at completes
    exact effect_of completes (refusedPool_spec rfl)
  · have completes := gatherPool_completes hp s
    rw [reassemble_of_whole ht] at completes
    obtain ⟨r, reqs, bound, next, dir, inbox⟩ := acceptedPool_spec hacc fresh rfl
    exact effect_of completes ⟨r, reqs, by rw [bound]; rfl, by rw [bound]; rfl, by rw [bound]; rfl, by rw [bound]; rfl,
      by rw [bound]; rfl, next, dir, inbox⟩
  · have completes := gatherPoolDone_completes hid s
    rwa [gatherDone_of_none hnone] at completes
  · obtain ⟨t, same, done⟩ := gatherDone_of_read hf left sent
    rw [if_pos hsubs] at done
    have completes := gatherPoolDone_completes hid s
    rw [done] at completes
    obtain ⟨number, -⟩ := key_of_pool hf
    refine effect_of completes ⟨?_, ?_⟩
    · rw [putGth_of_found (by rw [same, number]; exact one), same]
    · show t.fab = s.fab
      rw [same]
  · subst hh
    obtain ⟨t, same, done⟩ := gatherDone_of_read hf left (by rw [hsubs]; exact fun m hm => by cases hm)
    rw [if_neg (not_not.mpr hsubs)] at done
    have completes := gatherPoolDone_completes hid s
    obtain ⟨-, e, engine⟩ := key_of_pool hf
    rw [done] at completes
    refine ⟨fun c failed => ?_, fun ok poison fwd => ?_, fun ok clean fwd => ?_, fun es n ok clean fwd hes hn => ?_⟩
    · rw [gthReply_of_failed _ failed] at completes
      exact effect_of completes (endedPool_refused same rfl)
    · rw [gthReply_of_poison _ ok poison fwd engine] at completes
      exact effect_of completes (endedPool_poisoned same rfl)
    · rw [gthReply_of_forwarded _ ok clean fwd] at completes
      exact effect_of completes (endedPool_train rfl same rfl)
    · subst hes hn
      rw [gthReply_of_own _ ok clean fwd] at completes
      exact effect_of completes (endedPool_train (uncounted_vector _) same rfl)
  · subst ha
    have completes := gatherMigrate_completes hp hr hproc
    rw [gatherMigrate_of_no_table (s := take p s) hnone] at completes
    exact effect_of completes (answered_take rfl (Nat.zero_le _) _ rfl)
  · obtain ⟨moved, is_moved⟩ := Option.ne_none_iff_exists'.mp hmoved
    have home : gatherMigrate p (take p s) = if (s.gEntry p.saggar d row).frozen then reply p .nackRetry 14 [] (take p s)
        else startMoveHome p d row (placeAddr r off) (placeAddr rs (rowOffset d row)) (take p s) :=
      gatherMigrate_home (s := take p s) ha table whole hrow inTable owner own hot is_moved (slot _ is_moved) engines listed place
        shard
    have completes := gatherMigrate_completes hp hr hproc
    refine ⟨fun frozen => ?_, fun free => ?_⟩
    · rw [home, if_pos frozen] at completes
      exact effect_of completes (answered_take rfl (Nat.zero_le _) _ rfl)
    · rw [home, if_neg (Bool.eq_false_iff.mp free)] at completes
      exact effect_of completes (startMoveHome_spec (s := take p s) p d row (placeAddr r off) (placeAddr rs (rowOffset d row)) rfl)
  · have completes := migrationCopyDone_completes hg ht hrow b s
    rwa [migrationDone_of_none hnone] at completes
  · have completes := migrationCopyDone_completes hg ht hrow false s
    rw [migrationDone_of_mismatch hm] at completes
    exact effect_of completes (failedMove_spec rfl)
  · have completes := migrationCopyDone_completes hg ht hrow true s
    rw [migrationDone_of_whole hm read hw wrote ended] at completes
    exact effect_of completes (wholeMove_spec (poisonLeft_apart ..) rfl)
  · have completes := migrationCopyDone_completes hg ht hrow true s
    rwa [migrationDone_of_unwritten hm read hw] at completes
  · obtain ⟨fenced, others, out, kept⟩ := fenceGather_spec e (fenceCauseOf who) (answerCsr who (gthCtrl e) .ok 0 s)
    have sent := answerCsr_ok_out who (gthCtrl e) 0 s
    rw [← out] at sent
    rw [answerCsr_ok_frame] at others kept
    refine effect_of (gthFence_completes hw he hgate) ⟨fenced, fun k hk => ?_, sent, ?_⟩ <;> rw [answerCsr_ok_frame]
    · exact others k hk
    · exact kept
  · obtain ⟨lifted, others, out⟩ := liftGather_spec e (answerCsr who (gthCtrl e) .ok 0 s)
    have sent := answerCsr_ok_out who (gthCtrl e) 0 s
    rw [← out] at sent
    rw [answerCsr_ok_frame] at others
    refine effect_of (gthUnfence_of_lifted hw he hgate hlift) ⟨lifted, fun k hk => ?_, sent⟩
    rw [answerCsr_ok_frame]
    exact others k hk
  · exact gthUnfence_of_denied hw he hgate hlift

end Sys2Proof.Machine
end

section
namespace Sys2Proof.Machine

/-! ## Reads do not depend on the packets or on Sieve (R203, R204) -/

/-- A state with other packets and other requests of Sieve. -/
def State.asking (s : State) (f : Fab) (q : Siv) : State := { s with fab := f, siv := q }

section
variable (f : Fab) (q : Siv) (s : State)

theorem setSide_asking (id g : Nat) (k : Side → Side) : setSide id g k (s.asking f q) = (setSide id g k s).asking f q := by
  unfold setSide State.asking
  dsimp only
  split <;> rfl

theorem poisonGrain_asking (id g : Nat) : poisonGrain id g (s.asking f q) = (poisonGrain id g s).asking f q := setSide_asking ..

theorem putGrain_asking (dst g : Nat) (data : List Byte) (w : Side) :
    putGrain dst g data w (s.asking f q) = (putGrain dst g data w s).asking f q :=
  setSide_asking f q { s with tie := { s.tie with mem := memWrite s.tie.mem (dst * pageBytes + g * 256) data } } ..

theorem enqueueMove_asking (j : MoverJob) : enqueueMove j (s.asking f q) = (enqueueMove j s).asking f q := by
  unfold enqueueMove State.asking
  dsimp only
  split <;> rfl

theorem refetch_asking (r : Region) (page : Nat) : refetch r page (s.asking f q) = (refetch r page s).asking f q := by
  unfold refetch
  split
  · rfl
  · exact enqueueMove_asking ..

/-- A read result with other packets and other requests of Sieve in the state it leaves. -/
def askingAfter (x : ReadResult × State) : ReadResult × State := (x.1, x.2.asking f q)

theorem readPiece_asking (r : Region) (ver : Option Nat) (pc : Nat × Nat × Nat) :
    readPiece r ver pc (s.asking f q) = askingAfter f q (readPiece r ver pc s) := by
  have serving : ∀ ids, (s.asking f q).servingFrame ids = s.servingFrame ids := fun _ => rfl
  have good : ∀ i g, (s.asking f q).grainGood r i g = s.grainGood r i g := fun _ _ => rfl
  have copy : ∀ ids g, (s.asking f q).goodCopy r ids g = s.goodCopy r ids g := fun _ _ => rfl
  have tier : ∀ i, (s.asking f q).frameTier i = s.frameTier i := fun _ => rfl
  have away : ∀ b : Bool, (if b then (ReadResult.waits, refetch r (pc.1 / 256) (s.asking f q)) else (.poison, s.asking f q))
      = askingAfter f q (if b then (ReadResult.waits, refetch r (pc.1 / 256) s) else (.poison, s)) := by
    rintro (_ | _)
    · rfl
    · exact Prod.ext rfl (refetch_asking ..)
  unfold readPiece
  dsimp only
  simp only [serving, good, copy, tier]
  split
  · exact away _
  · split
    · rfl
    · split
      · rfl
      · split
        · split
          · refine Prod.ext rfl ?_
            dsimp only [askingAfter]
            split
            · rfl
            · exact putGrain_asking ..
          · exact away _
        · exact Prod.ext rfl (poisonGrain_asking ..)

theorem readPieces_asking (r : Region) (ver : Option Nat) (l : List (Nat × Nat × Nat)) :
    readPieces r ver l (s.asking f q) = askingAfter f q (readPieces r ver l s) := by
  induction l generalizing s with
  | nil => rfl
  | cons pc rest ih =>
    simp only [readPieces, readPiece_asking, askingAfter, ih]
/-- What is held back gives no bytes; what is not leaves the state as it is. -/
theorem heldBack_cases (r : Region) (ver : Option Nat) (ps : List Nat) :
    (ps.any (fun p => s.inFlash (pageFrames r ver p) || s.onHot (pageFrames r ver p)) = false ∧ heldBack r ver ps s = (none, s))
      ∨ (ps.any (fun p => s.inFlash (pageFrames r ver p) || s.onHot (pageFrames r ver p)) = true
        ∧ ∃ x t, heldBack r ver ps s = (some x, t) ∧ ∀ b, x ≠ .data b) := by
  unfold heldBack
  dsimp only
  by_cases cold : ∃ p ∈ ps, s.inFlash (pageFrames r ver p) = true
  · obtain ⟨p, hp, flash⟩ := cold
    refine .inr ⟨List.any_eq_true.mpr ⟨p, hp, by rw [flash]; rfl⟩, ?_⟩
    rw [if_pos (by simpa using ⟨p, hp, flash⟩)]
    split
    · exact ⟨_, _, rfl, nofun⟩
    · exact ⟨_, _, rfl, nofun⟩
  · simp only [not_exists, not_and, Bool.not_eq_true] at cold
    rw [if_neg (by simpa using cold)]
    cases hot : ps.any (fun p => s.onHot (pageFrames r ver p)) with
    | true =>
      obtain ⟨p, hp, h⟩ := List.any_eq_true.mp hot
      exact .inr ⟨List.any_eq_true.mpr ⟨p, hp, by rw [h, Bool.or_true]⟩, _, _, rfl, nofun⟩
    | false =>
      rw [List.any_eq_false] at hot
      exact .inl ⟨List.any_eq_false.mpr fun p hp => by simpa using ⟨cold p hp, by simpa using hot p hp⟩, rfl⟩

/-- The bytes of a read that gives some. -/
def ReadResult.bytes : ReadResult → Option (List Byte)
  | .data b => some b
  | _ => none

/-- The bytes a read of a region gives, if any. -/
def State.readBytes (s : State) (r : Region) (off len : Nat) : Option (List Byte) := (readRegion r none off len s).1.bytes

theorem imageBytes_eq (r : Region) (off len : Nat) : s.imageBytes r off len = (s.readBytes r off len).getD [] := by
  unfold State.imageBytes State.readBytes
  cases readRegion r none off len s with
  | mk x t => cases x <;> rfl

theorem sivHeader_eq (image : Nat) : s.sivHeader image = ((s.readBytes (s.region image) 0 64).map sivHdr).getD {} := by
  unfold State.sivHeader State.readBytes
  cases readRegion (s.region image) none 0 64 s with
  | mk x t => cases x <;> rfl

theorem readBytes_of_held {s : State} {r : Region} {off len : Nat} {x : ReadResult} {t : State}
    (held : heldBack r none (pagesOf off len) s = (some x, t)) (nothing : ∀ b, x ≠ .data b) : s.readBytes r off len = none := by
  unfold State.readBytes readRegion readRange
  rw [held]
  cases x with
  | data b => exact absurd rfl (nothing b)
  | poison => rfl
  | waits => rfl
  | retry h => rfl

theorem readBytes_of_open {s t : State} {r : Region} {off len : Nat} (held : heldBack r none (pagesOf off len) s = (none, t)) :
    s.readBytes r off len = (readPieces r none (pieces off len) t).1.bytes := by
  unfold State.readBytes readRegion readRange
  rw [held]

/-- The bytes a read gives do not depend on packets or requests. -/
theorem readBytes_asking (r : Region) (off len : Nat) : (s.asking f q).readBytes r off len = s.readBytes r off len := by
  rcases heldBack_cases s r none (pagesOf off len) with ⟨warm, served⟩ | ⟨cold, x, t, held, nothing⟩
  · rcases heldBack_cases (s.asking f q) r none (pagesOf off len) with ⟨-, served'⟩ | ⟨cold', -⟩
    · rw [readBytes_of_open served, readBytes_of_open served', readPieces_asking]
      rfl
    · cases warm.symm.trans cold'
  · rcases heldBack_cases (s.asking f q) r none (pagesOf off len) with ⟨warm', -⟩ | ⟨-, x', t', held', nothing'⟩
    · cases cold.symm.trans warm'
    · rw [readBytes_of_held held nothing, readBytes_of_held held' nothing']

theorem imageBytes_asking (r : Region) : (s.asking f q).imageBytes r = s.imageBytes r := by
  funext off len
  rw [imageBytes_eq, imageBytes_eq, readBytes_asking]

theorem sivHeader_asking (image : Nat) : (s.asking f q).sivHeader image = s.sivHeader image := by
  rw [sivHeader_eq, sivHeader_eq, readBytes_asking]
  rfl

end

theorem imageBytes_take (p : Packet) (s : State) (r : Region) : (take p s).imageBytes r = s.imageBytes r :=
  imageBytes_asking { s.fab with inbox := s.fab.inbox.erase p } s.siv s r

theorem sivHeader_take (p : Packet) (s : State) (image : Nat) : (take p s).sivHeader image = s.sivHeader image :=
  sivHeader_asking { s.fab with inbox := s.fab.inbox.erase p } s.siv s image

theorem imageBytes_setSiv (k : Siv → Siv) (s : State) (r : Region) : (setSiv k s).imageBytes r = s.imageBytes r :=
  imageBytes_asking s.fab (k s.siv) s r

theorem sivHeader_setSiv (k : Siv → Siv) (s : State) (image : Nat) : (setSiv k s).sivHeader image = s.sivHeader image :=
  sivHeader_asking s.fab (k s.siv) s image

end Sys2Proof.Machine
end

section
namespace Sys2Proof.Machine

/-! ## What a snapshot sees (R317) -/

/-- A side entry made after a snapshot is in none of its lists. -/
theorem visible_of_later {x : SivIndex} {e : SivSide} {seq : Nat} (h : seq < e.seq) (n k floor : Nat) :
    ({ x with insSeq := n, sides := x.sides ++ [e] } : SivIndex).visible k floor seq = x.visible k floor seq := by
  have unseen : [e].filter (fun e => e.list = k && decide (floor < e.seq ∧ e.seq ≤ seq)) = [] :=
    List.filter_eq_nil_iff.mpr fun a ha => by rw [List.mem_singleton.mp ha]; simp; omega
  unfold SivIndex.visible
  rw [List.filter_append, unseen, List.append_nil]

/-- An item deleted after a snapshot is not deleted for it. -/
theorem deleted_of_later {x : SivIndex} {item gen : Nat} (h : gen ≤ x.delGen) (live : x.tomb.contains item = false) (a : Nat) :
    ({ x with delGen := x.delGen + 1, tomb := x.tomb ++ [item], log := x.log ++ [(item, x.delGen + 1)] } : SivIndex).deleted a gen
      = x.deleted a gen := by
  unfold SivIndex.deleted
  by_cases same : item = a
  · subst same
    rw [live, List.any_append]
    simp [Nat.lt_succ_of_le h]
  · simp [same, Ne.symm same]

/-- What an index holds enters a query's result through the entries its snapshot sees and the items deleted for it. -/
theorem runQuery_congr {x y : SivIndex} {r : SivReq} (visible : ∀ k, y.visible k r.floor r.s = x.visible k r.floor r.s)
    (deleted : ∀ a, y.deleted a r.g = x.deleted a r.g) (h : SivHdr) (img : Nat → Nat → List Byte) :
    runQuery h img y r = runQuery h img x r := by
  simp only [runQuery, visible, deleted]

end Sys2Proof.Machine
end

section
namespace Sys2Proof.Machine

/-! ## Queries (R316, R321) -/

theorem sieveQuery_completes {p : Packet} (hp : p.wf = true) (s : State) :
    Completes (.sieveQuery p) s (reassemble p sieveQuery s) := run_ok hp rfl

/-- The acceptance of a query does not depend on the queue of requests. -/
theorem sivRefusal_take (p : Packet) (s : State) : (take p s).sivRefusal p = s.sivRefusal p := by
  have index : ∀ g i, (take p s).sivIndex g i = s.sivIndex g i := fun _ _ => rfl
  have fitted : (take p s).fitted capSIV = s.fitted capSIV := rfl
  have conf : (take p s).sagConf p.saggar = s.sagConf p.saggar := rfl
  unfold State.sivRefusal
  dsimp only
  rw [index, fitted, conf]
  simp only [sivHeader_take]
  rfl

/-- A query refused by a fitted unit is counted by the engine it would go to. -/
def countQueryRefused (p : Packet) (s : State) : State :=
  if (take p s).fitted capSIV then bumpSat (satSivRefused ((take p s).sivPick.getD 0)) (take p s) else take p s

theorem sieveQuery_of_refused {p : Packet} {s : State} {st : Status} {h : Nat} (hr : s.sivRefusal p = .error (st, h)) :
    sieveQuery p s = reply p st h [] (countQueryRefused p s) := by
  unfold sieveQuery
  dsimp only
  rw [sivRefusal_take, hr]
  rfl

theorem countQueryRefused_apart (p : Packet) (s : State) : LogApart (take p s) (countQueryRefused p s) := by
  unfold countQueryRefused
  split
  · exact bumpSat_apart ..
  · exact logApart_refl _

/-- A refused query is answered once; nothing of Sieve changes. -/
theorem refusedQuery_spec {p : Packet} {st : Status} {h : Nat} {s u : State} (hu : u = reply p st h [] (countQueryRefused p s)) :
    Answered p st h [] s u ∧ u.siv = s.siv := by
  have counted := countQueryRefused_apart p s
  have sent := reply_apart p st h (countQueryRefused p s)
  rw [← hu] at sent
  exact ⟨answered_of_addTx sent (by rw [counted]) rfl, by rw [sent, addTx, counted]; rfl⟩

theorem sieveQuery_of_accepted {p : Packet} {s : State} {x : SivIndex} (hr : s.sivRefusal p = .ok x) :
    sieveQuery p s = setSiv (fun q => { q with
      nextReq := q.nextReq + 1
      reqs := q.reqs ++ [{ id := q.nextReq, call := p, engine := s.sivPick, index := bits (le p.payload 0 8) 8 6, image := x.image
                           version := x.version, floor := x.floor, s := x.insSeq, g := x.delGen }] }) (take p s) := by
  unfold sieveQuery
  dsimp only
  rw [sivRefusal_take, hr]
  rfl

/-! ### A query that finishes -/

theorem sieveQueryDone_completes {id : Nat} (h : id < 2 ^ 32) (s : State) : Completes (.sieveQueryDone id) s (queryDone id s) :=
  run_ok (decide_eq_true h) rfl

theorem readRuns_apart (r : Region) (l : List (Nat × Nat)) (s : State) : PoolApart s (readRuns r l s).2 := by
  induction l generalizing s with
  | nil => exact .refl s
  | cons run rest ih =>
    obtain ⟨off, len⟩ := run
    have read := PoolApart.readRegion r none off len s
    unfold readRuns
    split
    · exact ih s
    · split
      next h =>
        refine .trans (.of_eq h read) ?_
        split
        next h' => exact .of_eq h' (ih _)
        next => exact ih _
      next => exact read

theorem readQuery_apart (im : Region) (b : List Byte) (s : State) : PoolApart s (readQuery im b s).2 := by
  unfold readQuery
  dsimp only
  split
  next h => exact .trans (.of_eq h (readRuns_apart ..)) (readRuns_apart ..)
  next => exact readRuns_apart ..

/-- A query has left the table. -/
def dropQuery (id : Nat) (s : State) : State := setSiv (fun q => { q with reqs := q.reqs.filter (fun y => y.id ≠ id) }) s

/-- A query is answered `POISON`, which its engine counts. -/
def poisonQuery (id : Nat) (r : SivReq) (e : Nat) (s : State) : State :=
  reply r.call .poison 0 (queryReply r (0, 0, [])) (bumpSat (satSivPoison e) (dropQuery id s))

theorem queryDone_of_none {id : Nat} {s : State} (h : s.siv.reqs.find? (fun r => r.id = id) = none) : queryDone id s = s := by
  unfold queryDone
  rw [h]

section
variable {id e : Nat} {r : SivReq} {x : SivIndex} {s t : State} (hf : s.siv.reqs.find? (fun r => r.id = id) = some r)
  (engine : r.engine = some e) (index : s.sivIndex r.call.saggar r.index = some x)
include hf engine index

theorem queryDone_of_waits (read : readQuery (s.region r.image) r.call.payload s = (.waits, t)) : queryDone id s = t := by
  unfold queryDone
  rw [hf]
  dsimp only
  rw [engine, index]
  dsimp only
  rw [read]

theorem queryDone_of_poison (read : readQuery (s.region r.image) r.call.payload s = (.poison, t)) :
    queryDone id s = poisonQuery id r e t := by
  unfold queryDone
  rw [hf]
  dsimp only
  rw [engine, index]
  dsimp only
  rw [read]
  rfl

theorem queryDone_of_data {bs : List Byte} (read : readQuery (s.region r.image) r.call.payload s = (.data bs, t)) :
    queryDone id s = if t.anyPoison (t.region x.side) then poisonQuery id r e t
      else reply r.call .ok 0 (queryReply r (runQuery (t.sivHeader r.image) (t.imageBytes (s.region r.image)) x r)) (dropQuery id t) := by
  rw [← sivHeader_setSiv (fun q => { q with reqs := q.reqs.filter (fun y => y.id ≠ id) }) t,
    ← imageBytes_setSiv (fun q => { q with reqs := q.reqs.filter (fun y => y.id ≠ id) }) t]
  unfold queryDone
  rw [hf]
  dsimp only
  rw [engine, index]
  dsimp only
  rw [read]
  rfl

end

/-- The head of a reply without hits fits one packet. -/
theorem queryHead_short (r : SivReq) : (queryReply r (0, 0, [])).length ≤ 512 := by
  simp only [queryReply, List.length_append, natLe_length, List.flatMap_nil, List.length_nil]
  decide

/-- A poisoned query is answered with the head alone, and is no longer in the table. -/
theorem poisonQuery_spec {id e : Nat} {r : SivReq} {s t u : State} (read : PoolApart s t) (hu : u = poisonQuery id r e t) :
    Replied r.call .poison 0 (queryReply r (0, 0, [])) s u ∧ u.tie = t.tie
      ∧ u.siv = { s.siv with reqs := s.siv.reqs.filter (fun y => y.id ≠ id) } := by
  have counted := bumpSat_frame (satSivPoison e) (dropQuery id t)
  have fab : (bumpSat (satSivPoison e) (dropQuery id t)).fab = s.fab := by rw [counted]; exact read.fab
  obtain ⟨replied, frame⟩ := replied_result (p := r.call) (st := .poison) rfl (queryHead_short r) (hint := 0) fab
  rw [poisonQuery] at hu
  rw [← hu] at replied frame
  refine ⟨replied, ?_, ?_⟩ <;> rw [frame, counted]
  · rfl
  · rw [read]; rfl

/-- A query with a result is answered with it in a train, and is no longer in the table. -/
theorem answeredQuery_spec {id : Nat} {p : Packet} {data : List Byte} {s t u : State} (read : PoolApart s t)
    (hu : u = reply p .ok 0 data (dropQuery id t)) : RepliedTrain p .ok 0 data s u ∧ u.tie = t.tie
      ∧ u.siv = { s.siv with reqs := s.siv.reqs.filter (fun y => y.id ≠ id) } := by
  obtain ⟨replied, frame⟩ := repliedTrain_result (p := p) (st := .ok) (data := data) rfl (hint := 0) (s := s) (t := dropQuery id t)
    read.fab
  rw [← hu] at replied frame
  refine ⟨replied, ?_, ?_⟩ <;> rw [frame]
  · rfl
  · rw [read]; rfl

end Sys2Proof.Machine
end

section
namespace Sys2Proof.Machine

/-! ## Inserts, deletes and merges (R322, R323) -/

/-- An index that is put back is what its number names, where its regions are as before. -/
theorem sivIndex_putIndex {s : State} {g i : Nat} {x y : SivIndex} (index : s.sivIndex g i = some x)
    (image : y.cfgImage = x.cfgImage) (side : y.side = x.side) : (putIndex g i y s).sivIndex g i = some y := by
  have cfg : (putIndex g i y s).sivCfg g i = s.sivCfg g i := rfl
  have stored : afind (putIndex g i y s).siv.index (g, i) = some y := afind_aset_self ..
  have regions : (putIndex g i y s).tie.regions = s.tie.regions := rfl
  unfold State.sivIndex at index ⊢
  rw [cfg, stored, regions]
  cases section_ : s.sivCfg g i with
  | none => rw [section_] at index; cases index
  | some c =>
    obtain ⟨im, sd⟩ := c
    rw [section_] at index
    dsimp only at index ⊢
    split at index
    · cases index
    · split at index
      · cases index
      next own =>
        rw [if_neg own]
        refine if_pos ?_
        rw [image, side]
        split at index
        · split at index
          next here => exact Option.some.inj index ▸ here
          next => exact Option.some.inj index ▸ ⟨rfl, rfl⟩
        · exact Option.some.inj index ▸ ⟨rfl, rfl⟩

/-- What a call answered `OK` leaves of the index it changes. -/
theorem changedIndex_spec {p : Packet} {g i : Nat} {x y : SivIndex} {data : List Byte} (short : data.length ≤ 512) {s u : State}
    (index : s.sivIndex g i = some x) (image : y.cfgImage = x.cfgImage) (side : y.side = x.side)
    (hu : u = reply p .ok 0 data (putIndex g i y (take p s))) :
    Answered p .ok 0 data s u ∧ u = { s with fab := u.fab, siv := u.siv } ∧ u.sivIndex g i = some y := by
  obtain ⟨answered, frame⟩ := answered_after_take (p := p) (st := .ok) rfl short 0 (s := s) (t := putIndex g i y (take p s)) rfl hu
  refine ⟨answered, ?_, ?_⟩
  · rw [frame]; rfl
  · have sent : ∀ q t, (addTx q t).sivIndex g i = t.sivIndex g i := fun _ _ => rfl
    rw [hu, reply_of_uncounted rfl short, sent]
    exact sivIndex_putIndex (s := take p s) index image side

/-- An index with an entry inserted, under the next sequence number. -/
def SivIndex.inserted (list : Nat) (bytes : List Byte) (x : SivIndex) : SivIndex :=
  { x with insSeq := x.insSeq + 1, sides := x.sides ++ [{ list := list, seq := x.insSeq + 1, bytes := bytes }] }

/-- An index with an item deleted, under the next generation; what the delete log still held is kept. -/
def SivIndex.without (log : List (Nat × Nat)) (item : Nat) (x : SivIndex) : SivIndex :=
  { x with delGen := x.delGen + 1, tomb := x.tomb ++ [item], log := log ++ [(item, x.delGen + 1)] }

theorem not_insertDenied {p : Packet} {x : SivIndex} {h : SivHdr} (whole : (callArgs p).length = 24 + h.m)
    (item : le (callArgs p) 4 4 < h.itemMax) (live : x.tomb.contains (le (callArgs p) 4 4) = false) (list : le (callArgs p) 2 2 < h.c) :
    ¬ ((callArgs p).length ≠ 24 + h.m ∨ h.itemMax ≤ le (callArgs p) 4 4 ∨ x.tomb.contains (le (callArgs p) 4 4) = true
      ∨ h.c ≤ le (callArgs p) 2 2) := by
  rw [live]
  simp only [Bool.false_eq_true, false_or]
  omega

section
variable {p : Packet} {s : State} {i : Nat} {x : SivIndex} {h : SivHdr} (hp : p.wf = true) (hr : s.rptRefusal p = none)
  (hi : i = le (callArgs p) 0 1) (conf : s.sagConf p.saggar = false) (units : s.sivUnits ≠ [])
  (index : s.sivIndex p.saggar i = some x) (hh : h = s.sivHeader x.image)

section
include hr hi conf units index hh

/-- A procedure on an index homed here is served on it. -/
theorem serveSieve_of_index {proc : Nat} (hproc : callProc p = proc) (f : SivIndex → Nat → SivHdr → State → State) :
    serveSieve p proc f s = f x i h (take p s) := by
  have open_ : (take p s).sagConf p.saggar = false := conf
  have engines : (take p s).sivUnits.isEmpty = false := by
    rw [List.isEmpty_eq_false_iff]; exact units
  have named : (take p s).sivIndex p.saggar (le (callArgs p) 0 1) = some x := hi ▸ index
  rw [serveSieve, serveProc_of_open hproc hr]
  dsimp only
  rw [open_, engines, named]
  simp only [sivHeader_take, ← hh, ← hi]
  rfl

end

include hp hr hi conf units index hh

section
variable (hproc : callProc p = 0xFFC)
include hproc

theorem sieveInsert_of_denied (out : h.itemMax ≤ le (callArgs p) 4 4 ∨ x.tomb.contains (le (callArgs p) 4 4) = true) :
    Completes (.sieveInsert p) s (reply p .denied 0 [] (take p s)) := by
  refine run_ok hp ?_
  rw [serveSieve_of_index hr hi conf units index hh hproc]
  exact if_pos (.inr (out.elim .inl fun tomb => .inr (.inl tomb)))

variable (whole : (callArgs p).length = 24 + h.m) (item : le (callArgs p) 4 4 < h.itemMax)
  (live : x.tomb.contains (le (callArgs p) 4 4) = false) (list : le (callArgs p) 2 2 < h.c)
include whole item live list

theorem sieveInsert_of_full (full : s.sagParam p.saggar 0x0308 ≤ x.liveSide (le (callArgs p) 2 2)) :
    Completes (.sieveInsert p) s (reply p .nackRetry 14 [] (take p s)) := by
  refine run_ok hp ?_
  rw [serveSieve_of_index hr hi conf units index hh hproc]
  exact (if_neg (not_insertDenied whole item live list)).trans (if_pos full)

theorem sieveInsert_of_room (room : x.liveSide (le (callArgs p) 2 2) < s.sagParam p.saggar 0x0308) : Completes (.sieveInsert p) s
    (reply p .ok 0 (rptResult 0 (natLe (x.insSeq + 1) 8)) (putIndex p.saggar i
      (x.inserted (le (callArgs p) 2 2) (fit ((callArgs p).drop 4) h.entry)) (take p s))) := by
  refine run_ok hp ?_
  rw [serveSieve_of_index hr hi conf units index hh hproc]
  exact (if_neg (not_insertDenied whole item live list)).trans (if_neg (not_le.mpr room))

end

section
variable (hproc : callProc p = 0xFFD) (whole : 8 ≤ (callArgs p).length) (item : le (callArgs p) 4 4 < h.itemMax)
include hproc whole item

theorem sieveDelete_of_deleted (tomb : x.tomb.contains (le (callArgs p) 4 4) = true) :
    Completes (.sieveDelete p) s (reply p .ok 0 (rptResult 0 (natLe x.delGen 8)) (take p s)) := by
  refine run_ok hp ?_
  rw [serveSieve_of_index hr hi conf units index hh hproc]
  exact (if_neg (by omega)).trans (if_pos tomb)

theorem sieveDelete_of_live (live : x.tomb.contains (le (callArgs p) 4 4) = false)
    (room : (s.trimLog p.saggar i x).log.length < s.sagParam p.saggar 0x0309) : Completes (.sieveDelete p) s
    (reply p .ok 0 (rptResult 0 (natLe (x.delGen + 1) 8)) (putIndex p.saggar i
      (x.without (s.trimLog p.saggar i x).log (le (callArgs p) 4 4)) (take p s))) := by
  refine run_ok hp ?_
  rw [serveSieve_of_index hr hi conf units index hh hproc]
  exact (if_neg (by omega)).trans ((if_neg (by rw [show ((take p s).trimLog p.saggar i x).tomb = x.tomb from rfl, live]; decide)).trans
    (if_neg (not_le.mpr room)))

end

/-- A merge into an unsealed `IMMUTABLE` region of the saggar with room for the merged image starts, where none has. -/
theorem sieveMerge_completes {r : Region} (hproc : callProc p = 0xFFE) (whole : 8 ≤ (callArgs p).length)
    (target : afind s.tie.regions (le (callArgs p) 4 4) = some r) (kind : r.kind = 0) (unsealed : r.sealed_ = false)
    (own : r.saggar = p.saggar) (other : le (callArgs p) 4 4 ≠ x.image)
    (room : mergedStart h + ((mergedLists h (s.imageBytes (s.region x.image)) x
      { target := le (callArgs p) 4 4, sm := x.insSeq, gm := x.delGen }).map (fun l => l.length * h.entry)).foldl (· + ·) 0 ≤ r.size) :
    Completes (.sieveMerge p) s (if x.merge.isSome then reply p .nackRetry 14 [] (take p s)
      else reply p .ok 0 (rptResult 0 (natLe (x.version + 1) 4)) (putIndex p.saggar i
        { x with merge := some { target := le (callArgs p) 4 4, sm := x.insSeq, gm := x.delGen } } (take p s))) := by
  have target' : afind (take p s).tie.regions (le (callArgs p) 4 4) = some r := target
  have immutable : r.immutable = true := decide_eq_true kind
  refine run_ok hp ?_
  rw [serveSieve_of_index hr hi conf units index hh hproc]
  dsimp only
  rw [target', imageBytes_take]
  refine if_neg ?_
  simp only [immutable, unsealed, own, other, Bool.not_false, Bool.and_self, ne_eq, not_false_eq_true, decide_true, Bool.true_and,
    Bool.not_eq_true', decide_eq_false_iff_not]
  exact not_or.mpr ⟨not_lt.mpr whole, not_not.mpr room⟩

end

/-! ### The switch and the cleanup of a merge -/

theorem sieveMergeSwitch_completes {g i : Nat} (hg : g < 64) (hi : i < 64) (s : State) :
    Completes (.sieveMergeSwitch g i) s (mergeSwitch g i s) :=
  run_ok (by rw [decide_eq_true hg, decide_eq_true hi]; rfl) rfl

theorem sieveMergeCleanup_completes {g i : Nat} (hg : g < 64) (hi : i < 64) (s : State) :
    Completes (.sieveMergeCleanup g i) s (mergeCleanup g i s) :=
  run_ok (by rw [decide_eq_true hg, decide_eq_true hi]; rfl) rfl

section
variable {g i : Nat} {s : State} {x : SivIndex} (index : s.sivIndex g i = some x)
include index

theorem mergeSwitch_of_none (none_ : x.merge = none) : mergeSwitch g i s = s := by
  simp only [mergeSwitch, index, none_]

theorem mergeCleanup_of_none (none_ : x.merge = none) : mergeCleanup g i s = s := by
  simp only [mergeCleanup, index, none_]

variable {m : SivMerge} (merge : x.merge = some m)
include merge

/-- Once the merged image is written and its region sealed, it is the image. -/
theorem mergeSwitch_of_written (pending : m.switched = false) {img : List Byte} {s1 s2 : State}
    (read : readRegion (s.region x.image) none 0 (s.region x.image).size s = (.data img, s1))
    (written : writeRegion (s1.region m.target) 0 (mergedImage (sivHdr img) (sub img) (mergedLists (sivHdr img) (sub img) x m)) s1
      = (.done, s2)) :
    mergeSwitch g i s = putIndex g i { x with
      image := m.target, version := x.version + 1, floor := m.sm, merge := some { m with switched := true } }
      (sealRegion (s2.region m.target) (s2.contentDigest (s2.region m.target)) s2) := by
  simp only [mergeSwitch, index, merge, pending, Bool.false_eq_true, if_false, read, written]

theorem mergeCleanup_of_pending (pending : m.switched = false) : mergeCleanup g i s = s := by
  unfold mergeCleanup
  rw [index]
  dsimp only
  rw [merge]
  exact if_pos (.inl (by rw [pending]; rfl))

/-- Once no query of an older version runs, what the merge has taken in goes. -/
theorem mergeCleanup_of_switched (switched : m.switched = true)
    (current : ∀ r ∈ s.siv.reqs, r.call.saggar = g → r.index = i → x.version ≤ r.version) :
    mergeCleanup g i s = putIndex g i { x with
      sides := x.sides.filter (fun e => decide (m.sm < e.seq)), tomb := x.tomb.filter (fun t => !x.deleted t m.gm), merge := none } s := by
  have quiet : s.siv.reqs.any (fun r => r.call.saggar = g && r.index = i && decide (r.version < x.version)) = false :=
    List.any_eq_false.mpr fun r hr => by simpa using current r hr
  unfold mergeCleanup
  rw [index]
  dsimp only
  rw [merge]
  dsimp only
  rw [if_neg (by rw [switched, quiet]; simp)]

end

end Sys2Proof.Machine
end

section
namespace Sys2Proof.Machine

/-! ## Fences of Sieve engines (R325) -/

/-- A query goes to the engine picked now. -/
def rehomeQuery (r : SivReq) (s : State) : State :=
  setSiv (fun q => { q with reqs := q.reqs.map (fun x => if x.id = r.id then { x with engine := s.sivPick } else x) }) s

theorem rehomeSieve_eq (s : State) : rehomeSieve s = forEach (s.siv.reqs.filter (fun r => r.engine.isNone)) rehomeQuery s := rfl

theorem sivFence_of_unit {s t : State} (h : t.siv.unit = s.siv.unit) (k : Nat) : t.sivFence k = s.sivFence k := by
  rw [State.sivFence, h]; rfl

theorem rehomeSieve_unit (s : State) : (rehomeSieve s).siv.unit = s.siv.unit :=
  forEach_rel (f := rehomeQuery) (R := fun s t => t.siv.unit = s.siv.unit) (fun _ => rfl) (fun h k => k.trans h) (fun _ _ => rfl) _ s

/-- The same query is there, on another engine than `e` or on none. -/
def State.keepsQuery (s : State) (e : Nat) (r : SivReq) : Prop := ∃ n, n ≠ some e ∧ { r with engine := n } ∈ s.siv.reqs

theorem keepsQuery_rehomeQuery {e : Nat} {s : State} (fenced : (s.sivFence e).on = true) (a : SivReq) {r : SivReq}
    (h : s.keepsQuery e r) : (rehomeQuery a s).keepsQuery e r := by
  obtain ⟨n, hn, hr⟩ := h
  have moved := List.mem_map_of_mem (f := fun x : SivReq => if x.id = a.id then { x with engine := s.sivPick } else x) hr
  by_cases same : r.id = a.id
  · exact ⟨s.sivPick, sivPick_ne_of_fenced fenced, by rwa [if_pos same] at moved⟩
  · exact ⟨n, hn, by rwa [if_neg same] at moved⟩

/-- A fenced engine with its queries taken off it. -/
def vacateSieve (e cause : Nat) (s : State) : State := setSiv (fun q => { q with
  unit := aset q.unit e { on := true, cause := cause }
  reqs := q.reqs.map (fun r => if r.engine = some e then { r with engine := none } else r) }) s

theorem fenceSieve_eq (e cause : Nat) (s : State) : fenceSieve e cause s = rehomeSieve (vacateSieve e cause s) := rfl

/-- A fence sets the engine's own state and no other's, and loses no query. -/
theorem fenceSieve_spec (e cause : Nat) (s : State) :
    (fenceSieve e cause s).sivFence e = { on := true, cause := cause }
      ∧ (∀ k, k ≠ e → (fenceSieve e cause s).sivFence k = s.sivFence k)
      ∧ ∀ r ∈ s.siv.reqs, (fenceSieve e cause s).keepsQuery e r := by
  have unit := rehomeSieve_unit (vacateSieve e cause s)
  have fenced : (vacateSieve e cause s).sivFence e = { on := true, cause := cause } := aget_aset_self ..
  rw [fenceSieve_eq]
  refine ⟨(sivFence_of_unit unit e).trans fenced, fun k hk => (sivFence_of_unit unit k).trans (aget_aset_ne _ _ _ hk.symm),
    fun r hr => ?_⟩
  rw [rehomeSieve_eq]
  refine (forEach_keeps (f := rehomeQuery) (P := fun t => t.siv.unit = (vacateSieve e cause s).siv.unit ∧ t.keepsQuery e r)
    (fun a t ht => ⟨ht.1, keepsQuery_rehomeQuery (by rw [sivFence_of_unit ht.1, fenced]) a ht.2⟩) _ ⟨rfl, ?_⟩).2
  have vacated := List.mem_map_of_mem (f := fun r : SivReq => if r.engine = some e then { r with engine := none } else r) hr
  by_cases mine : r.engine = some e
  · exact ⟨none, nofun, by rwa [if_pos mine] at vacated⟩
  · exact ⟨r.engine, mine, by rwa [if_neg mine] at vacated⟩

/-- A fence lifted. -/
def liftSieve (e : Nat) (s : State) : State := rehomeSieve (setSiv (fun q => { q with unit := aset q.unit e {} }) s)

theorem liftSieve_spec (e : Nat) (s : State) :
    (liftSieve e s).sivFence e = {} ∧ ∀ k, k ≠ e → (liftSieve e s).sivFence k = s.sivFence k := by
  have unit := rehomeSieve_unit (setSiv (fun q => { q with unit := aset q.unit e {} }) s)
  exact ⟨(sivFence_of_unit unit e).trans (aget_aset_self ..),
    fun k hk => (sivFence_of_unit unit k).trans (aget_aset_ne _ _ _ hk.symm)⟩

section
variable {who : Who} {e : Nat} (hw : who.wf = true) (he : e < 8) {s : State} (hgate : s.csrGate who (sivCtrl e) true = none)
include hw he hgate

theorem sivFence_completes :
    Completes (.sivFence who e) s (fenceSieve e (fenceCauseOf who) (answerCsr who (sivCtrl e) .ok 0 s)) :=
  run_ok (by rw [hw, decide_eq_true he]; rfl) (ctlWrite_of_open hgate)

theorem sivUnfence_of_lifted (hlift : liftsFence who = true) :
    Completes (.sivUnfence who e) s (liftSieve e (answerCsr who (sivCtrl e) .ok 0 s)) :=
  run_ok (by rw [hw, decide_eq_true he]; rfl) (by rw [hlift, ctlWrite_of_open hgate]; rfl)

theorem sivUnfence_of_denied (hlift : liftsFence who = false) :
    Completes (.sivUnfence who e) s (answerCsr who (sivCtrl e) .denied 0 s) :=
  run_ok (by rw [hw, decide_eq_true he]; rfl) (by rw [hlift, ctlWrite_of_not_allowed hgate])

end

end Sys2Proof.Machine
end

section
namespace Sys2Proof.Machine

/-! ## Queries, indexes and engines -/

/-- Settles O44: the snapshot by what an index shows of later entries, a query by what its read finds, each procedure by the
index it leaves, a merge by its two steps, a fence by what moving the queries keeps. -/
theorem sieving : Obligations.Sieving := by
  refine ⟨fun h img x r e item seq gen later live => ⟨?_, ?_⟩, fun s p hp => ?_⟩
  · exact runQuery_congr (fun k => visible_of_later (Nat.lt_of_le_of_lt seq later) e.seq k r.floor) (fun _ => rfl) h img
  · refine runQuery_congr (fun k => ?_) (deleted_of_later gen live) h img
    rfl
  refine ⟨fun ht hj => ?_, fun w ht hj => ?_, fun st h ht href => ?_, fun x ht hacc => ?_, fun id hid hnone => ?_,
    fun id r e x res t hid hf engine index read => ?_,
    fun a i x h hr ha hi conf units index hh => ?_, fun g i x hg hi index => ?_,
    fun who e hw he hgate => ⟨?_, fun hlift => ?_, fun hlift => ?_⟩⟩
  · have completes := sieveQuery_completes hp s
    rwa [reassemble_of_part ht hj] at completes
  · have completes := sieveQuery_completes hp s
    rwa [reassemble_of_last ht hj] at completes
  · have completes := sieveQuery_completes hp s
    rw [reassemble_of_whole ht, sieveQuery_of_refused href] at completes
    exact effect_of completes (refusedQuery_spec rfl)
  · have completes := sieveQuery_completes hp s
    rw [reassemble_of_whole ht, sieveQuery_of_accepted hacc] at completes
    exact effect_of completes ⟨rfl, rfl⟩
  · have completes := sieveQueryDone_completes hid s
    rwa [queryDone_of_none hnone] at completes
  · have completes := sieveQueryDone_completes hid s
    have apart : PoolApart s t := .of_eq read (readQuery_apart ..)
    refine ⟨fun hres => ?_, fun bs hres clean => ?_, fun bs hres poisoned => ?_, fun hres => ?_⟩ <;> subst hres
    · rwa [queryDone_of_waits hf engine index read] at completes
    · rw [queryDone_of_data hf engine index read, if_neg (Bool.eq_false_iff.mp clean)] at completes
      exact effect_of completes (answeredQuery_spec apart rfl)
    · rw [queryDone_of_data hf engine index read, if_pos poisoned] at completes
      exact effect_of completes (poisonQuery_spec apart rfl)
    · rw [queryDone_of_poison hf engine index read] at completes
      exact effect_of completes (poisonQuery_spec apart rfl)
  · subst ha
    refine ⟨fun hproc whole item live list => ⟨fun full => ?_, fun room => ?_⟩, fun hproc out => ?_,
      fun hproc whole item => ⟨fun tomb => ?_, fun live room => ?_⟩,
      fun r hproc whole target kind unsealed own other room => ⟨fun idle => ?_, fun busy => ?_⟩⟩
    · exact effect_of (sieveInsert_of_full hp hr hi conf units index hh hproc whole item live list full)
        (answered_take rfl (Nat.zero_le _) _ rfl)
    · exact effect_of (sieveInsert_of_room hp hr hi conf units index hh hproc whole item live list room)
        (changedIndex_spec (rptResult_word_short _ (by decide)) index rfl rfl rfl)
    · exact effect_of (sieveInsert_of_denied hp hr hi conf units index hh hproc out) (answered_take rfl (Nat.zero_le _) _ rfl)
    · exact effect_of (sieveDelete_of_deleted hp hr hi conf units index hh hproc whole item tomb)
        (answered_take rfl (rptResult_word_short _ (by decide)) _ rfl)
    · exact effect_of (sieveDelete_of_live hp hr hi conf units index hh hproc whole item live room)
        ((changedIndex_spec (y := x.without (s.trimLog p.saggar i x).log (le (callArgs p) 4 4)) (rptResult_word_short _ le_rfl) index
          rfl rfl rfl).imp_right And.right)
    · have completes := sieveMerge_completes hp hr hi conf units index hh hproc whole target kind unsealed own other room
      rw [if_neg (by rw [idle]; decide)] at completes
      exact effect_of completes (changedIndex_spec (rptResult_word_short _ (by decide)) index rfl rfl rfl)
    · have completes := sieveMerge_completes hp hr hi conf units index hh hproc whole target kind unsealed own other room
      rw [if_pos (Option.isSome_iff_ne_none.mpr busy)] at completes
      exact effect_of completes (answered_take rfl (Nat.zero_le _) _ rfl)
  · have switch := sieveMergeSwitch_completes hg hi s
    have cleanup := sieveMergeCleanup_completes hg hi s
    refine ⟨fun idle => ⟨?_, ?_⟩, fun m img s1 s2 merge pending read written => ?_, fun m merge switched current => ?_,
      fun m merge pending => ?_⟩
    · rw [mergeSwitch_of_none index idle] at switch
      exact switch
    · rwa [mergeCleanup_of_none index idle] at cleanup
    · rw [mergeSwitch_of_written index merge pending read written] at switch
      exact effect_of switch (afind_aset_self ..)
    · rw [mergeCleanup_of_switched index merge switched current] at cleanup
      exact effect_of cleanup ⟨rfl, sivIndex_putIndex index rfl rfl⟩
    · rwa [mergeCleanup_of_pending index merge pending] at cleanup
  · obtain ⟨fenced, others, kept⟩ := fenceSieve_spec e (fenceCauseOf who) (answerCsr who (sivCtrl e) .ok 0 s)
    rw [answerCsr_ok_frame] at others kept
    refine effect_of (sivFence_completes hw he hgate) ⟨fenced, fun k hk => ?_, fun _ r hr => ?_⟩ <;> rw [answerCsr_ok_frame]
    · exact others k hk
    · exact kept r hr
  · obtain ⟨lifted, others⟩ := liftSieve_spec e (answerCsr who (sivCtrl e) .ok 0 s)
    rw [answerCsr_ok_frame] at others
    refine effect_of (sivUnfence_of_lifted hw he hgate hlift) ⟨lifted, fun k hk => ?_⟩
    rw [answerCsr_ok_frame]
    exact others k hk
  · exact sivUnfence_of_denied hw he hgate hlift

end Sys2Proof.Machine
end
